-- ==== Sys2Proof/Word.lean ====
section
/-! DEFINITION. The plainest data types of the model: octets, sparse tables and times. -/
namespace Sys2Proof

/-- One octet. -/
abbrev Byte := BitVec 8

/-- A run of octets, lowest address first (R8). -/
abbrev Octets := List Byte

/-- A sparse table: strictly rising keys, no entry equal to the value an unlisted key reads as (`Machine.Tbl.wf`). -/
abbrev Tbl (α : Type) := List (Nat × α)

/-- The bit pattern of an IEEE 754 binary32 value (R202). -/
abbrev F32 := BitVec 32

/-- The bit pattern of an IEEE 754 binary64 value (R172, R208). -/
abbrev F64 := BitVec 64

/-- A GT96 time as one count of 2^-16 ns since the TAI epoch (R14): SEC, NS and FRAC are its mixed-radix digits. -/
abbrev Time := Nat

end Sys2Proof
end

