-- ==== Sys2Proof/Syntax.lean ====
section
/-! DEFINITION. The commands the block takes: one constructor of `Instr` per row of the opcode table, with the operands
the row's rule gives it, and the types of those operands. -/
namespace Sys2Proof

/-- A fabric master of R29. A core carries its number and whether it runs in HS-mode or M-mode. -/
inductive Master
  | core (n : Nat) (hyp : Bool)
  | tmc
  | engine
  deriving DecidableEq, Repr

/-- The blocks whose tables are reached through a command register (R500). -/
inductive CmdBlock | sct | phe | gcm | slp | pub | dre | slt
  deriving DecidableEq, Repr

/-- What an atomic memory operation stores (R501), of the value read and the operand. -/
inductive AtomicOp | swap | add | and | or | xor | min | max | minu | maxu
  deriving DecidableEq, Repr

/-- A load, a store, or an atomic operation of an application core (R501). -/
inductive CoreOp
  | load
  | store (v : Nat)
  | atomic (f : AtomicOp) (v : Nat)
  deriving DecidableEq, Repr

/-- A fabric request of an application core (R329). -/
structure CoreReq where
  core : Nat
  hyp : Bool
  addr : Nat
  size : Nat
  op : CoreOp
  deriving DecidableEq, Repr

/-- The internal rails of R54, in sequencer order. -/
inductive Rail | vcore | vio | vana
  deriving DecidableEq, Repr

/-- What the PHM measures at a supply update (R66): levels in mV, and in bit r of `rails` whether rail r of R54 is in
regulation; with it the levels of the DBG_EN and DBG_SEL pins (R434). -/
structure SupplySample where
  vbus : Nat
  feedA : Nat
  feedB : Nat
  vioCar : Nat
  rails : Nat
  dbgEn : Bool
  dbgSel : Bool
  deriving DecidableEq, Repr

/-- A PTP Sync or Follow_Up as received (R90, R92): times in units of 2^-16 ns, `logInt` its log message interval, `code` the
fine code of its capture (R87). -/
structure PtpSync where
  port : Nat
  domain : Nat
  source : Nat
  seq : Nat
  twoStep : Bool
  origin : Time
  corr : Int
  logInt : Int
  code : Nat
  deriving DecidableEq, Repr

/-- A PTP Announce as received (R90, R94, R95). -/
structure PtpAnnounce where
  port : Nat
  domain : Nat
  source : Nat
  gmId : Nat
  prio1 : Nat
  prio2 : Nat
  clockClass : Nat
  accuracy : Nat
  variance : Nat
  steps : Nat
  utcOffset : Nat
  qualified : Bool
  deriving DecidableEq, Repr

/-- A Pdelay_Resp or Pdelay_Resp_Follow_Up as received (R90, R92), with the fine code of its capture. -/
structure PtpPdelay where
  port : Nat
  domain : Nat
  seq : Nat
  twoStep : Bool
  t : Time
  corr : Int
  code : Nat
  deriving DecidableEq, Repr

/-- What a received Pdelay_Req brings beside its port, domain and sequence number (R87, R90): its log message interval and the
fine code of its capture. -/
structure PdelayMark where
  logInt : Int
  code : Nat
  deriving DecidableEq, Repr

/-- What a port reports as its block lock comes (R101, R106): whether the lock has held, and on M0 the speed in Mbit/s and the
duplex of the SGMII control word. -/
structure LinkReport where
  port : Nat
  held : Bool
  speed : Nat
  full : Bool
  deriving DecidableEq, Repr

/-- A fall of a link (R106): the port, and block lock lost (0), alignment lock lost (1) or a high bit error rate (2). -/
structure LinkLoss where
  port : Nat
  cause : Nat
  deriving DecidableEq, Repr

/-- The format of a KEY_PUT blob and, in format 0, the GROUP node that its key is for (R419). -/
structure KeyForm where
  fmt : Nat
  group : Nat
  deriving DecidableEq, Repr

/-- An 802.1Q tag: priority, drop eligible indicator, VLAN identifier. -/
structure Vlan where
  pcp : Nat
  dei : Bool
  vid : Nat
  deriving DecidableEq, Repr

/-- The redundancy trailer or tag of a frame (R109 to R111): sequence number, and the LAN the trailer names. -/
structure Red where
  hsr : Bool
  seq : Nat
  lan : Nat
  deriving DecidableEq, Repr

/-- validity of an IEC 61850 quality (R138). -/
inductive Validity | good | invalid | reserved | questionable
  deriving DecidableEq, Repr

/-- A quality word by its named parts (R138). -/
structure Qual where
  validity : Validity
  test : Bool
  blocked : Bool
  subst : Bool
  derived : Bool
  detail : Nat
  deriving DecidableEq, Repr

/-- One channel of an ASDU: INT32 value and quality (R138). -/
structure SvChan where
  val : Int
  q : Qual
  deriving DecidableEq, Repr

/-- One ASDU of an SV frame (R138). -/
structure Asdu where
  svId : Octets
  datSet : Option Octets
  smpCnt : Nat
  confRev : Nat
  smpSynch : Nat
  smpRate : Option Nat
  gmId : Option Nat
  seqLen : Nat
  chans : List SvChan
  deriving DecidableEq, Repr

/-- A primitive member of GOOSE allData after flattening (R148). -/
inductive GooseVal
  | bool (b : Bool)
  | bitString (bs : List Bool)
  | dbpos (b1 b2 : Bool)
  | quality (q : Qual)
  | utc (t : Nat)
  | other
  deriving DecidableEq, Repr

/-- The IEC 62351-6 security extension of a frame: algorithm coded as AUTH of R134, and key identifier (R137). -/
structure SecExt where
  alg : Nat
  keyId : Nat
  tag : Nat
  deriving DecidableEq, Repr

/-- An SV application frame (R138): `wellFormed` is check 1. -/
structure SvPdu where
  wellFormed : Bool
  sim : Bool
  appid : Nat
  noAsdu : Nat
  asdus : List Asdu
  ext : Option SecExt
  deriving DecidableEq, Repr

/-- A GOOSE application frame (R147): `wellFormed` is the BER part of check 1. -/
structure GoosePdu where
  wellFormed : Bool
  sim : Bool
  test : Bool
  appid : Nat
  gocbRef : Octets
  datSet : Octets
  goID : Octets
  confRev : Nat
  ndsCom : Bool
  numEntries : Nat
  stNum : Nat
  sqNum : Nat
  tal : Nat
  t : Nat
  vals : List GooseVal
  ext : Option SecExt
  deriving DecidableEq, Repr

/-- A PTP message as it stands in a frame (R90, R91, R95): `kind` as in the sources of transmit frames, its timestamp and
correctionField in units of 2^-16 ns, and the attributes of an Announce: priority1, clockClass, clockAccuracy, variance,
priority2, identity, steps removed, timeSource. -/
structure PtpPdu where
  kind : Nat
  domain : Nat
  seq : Nat
  twoStep : Bool
  time : Time
  corr : Int
  attrs : List Nat
  deriving DecidableEq, Repr

/-- What a frame carries, as the MAC and the Classifier sort it (R113, R130). A PTP frame is an event message or not, and
of a kind that the clock discards and counts, or not (R90). -/
inductive Body
  | sv (p : SvPdu)
  | goose (p : GoosePdu)
  | ptp (event discard : Bool) (m : PtpPdu)
  | pause (quanta : Nat)
  | macControl
  | lldp (tw : Option Nat)
  | supervision
  | pairMsg
  | plain
  deriving DecidableEq, Repr, Inhabited

/-- An Ethernet frame (R102, R113): addresses as numbers with the first octet on the wire highest; `len` counts the
destination address to the frame check sequence; `raw` are the octets a ring buffer receives. -/
structure Frame where
  da : Nat
  sa : Nat
  vlan : Option Vlan
  doubleTag : Bool
  etype : Nat
  len : Nat
  red : Option Red
  body : Body
  raw : Octets
  deriving DecidableEq, Repr

/-- A frame as it reaches a port: line errors of R113, the fine code of the TDC capture (R87), and whether the link partner
signals low-power idle after it (R108, R123). -/
structure RxEvent where
  port : Nat
  frame : Frame
  pcsErr : Bool
  fcsErr : Bool
  fecCorr : Nat
  fecUncorr : Nat
  code : Nat
  lpi : Bool
  deriving DecidableEq, Repr

/-- Read spaces of a Scarab instruction (R243): I, Q, M, T, C, E, G, S, F, K. -/
inductive RdSpace | i | q | m | t | c | e | g | s | f | k
  deriving DecidableEq, Repr

/-- Spaces that ST, STN, SET and RST write (R243). -/
inductive WrSpace | q | m
  deriving DecidableEq, Repr

/-- A received heartbeat (R360 to R363): carrier (0 K0, 1 K1, 2 Cicada), the 16 octets, whether the Manchester code held, the
fine code of the capture of its end, and the sequence number of the pair message it came in. -/
structure HbRx where
  path : Nat
  block : Octets
  codeOk : Bool
  code : Nat
  mseq : Nat
  deriving DecidableEq, Repr

/-- The header fields of a pair message (R362) with the heartbeat block's Epoch and role as sent, and the port, K0 (8) or K1 (9),
that this copy of it came in on. -/
structure PairHdr where
  epoch : Nat
  role : Nat
  mseq : Nat
  part : Nat
  parts : Nat
  port : Nat
  deriving DecidableEq, Repr

/-- One entry of a DIGEST message (R373). -/
structure DigestEntry where
  cls : Nat
  digest : Nat
  stamp : Nat
  deriving DecidableEq, Repr

/-- One record of PUB_SYNC or HANDOVER (R375). -/
structure PubSyncRec where
  index : Nat
  flags : Nat
  stNum : Nat
  sqNum : Nat
  content : Nat
  deriving DecidableEq, Repr

/-- What the island samples in one cycle (R384): four samples, 25 µs apart, of the two channels of every input (bit n of
each word) and of SFB0 to SFB3 (bit k of each word), and the edge counts of ARC0 to ARC3 over the cycle. -/
structure IslandInputs where
  a : List Nat
  b : List Nat
  sfb : List Nat
  arc : List Nat
  deriving DecidableEq, Repr

/-- What the island finds at fault (R385), coded as FAULT_CAUSE. -/
inductive IslandCause | lockstep | memory | clock | paramCrc
  deriving DecidableEq, Repr

/-- The issuer of a Patchaif command: session 0 to 127 is the mailbox of that slice, 128 to 131 a TLS session; and the tag
(R437). -/
structure Req where
  sess : Nat
  tag : Nat
  box : Option (Nat × Nat)
  deriving DecidableEq, Repr

/-- A buffer reference (R448). -/
structure BufRef where
  dram : Bool
  addr : Nat
  len : Nat
  deriving DecidableEq, Repr

/-- One item of configuration that a bundle carries (R457): a register field write, an entry of a block's table in the
layout of that block's DATA words, or what no register has a place for: a string, where `what` is 0 the gocbRef or svID of a
publication, 1 its datSet, 2 its goID (R281, R283), 3 the chassis and port TLVs of a port (R124), 4 station_name, 5 the rec_dev_id of a recorder instance,
6 to 8 ch_id, ph and ccbm of an analogue select entry and 9 to 11 those of a binary one (R317), and the tag of a pair's supervision
frames (R112). -/
inductive CfgItem
  | field (page : Nat) (off : Nat) (value : Nat)
  | sct (index : Nat) (words : List Nat)
  | sctMap (index word : Nat)
  | phe (table index : Nat) (words : List Nat)
  | gcm (index : Nat) (words : List Nat)
  | slp (table index : Nat) (words : List Nat)
  | pub (index : Nat) (words : List Nat)
  | pubMember (index word : Nat)
  | dre (table index : Nat) (words : List Nat)
  | slt (table index : Nat) (words : List Nat)
  | text (what index : Nat) (octets : Octets)
  | pairTag (pair : Nat) (v : Vlan)
  deriving DecidableEq, Repr

/-- The addresses and the TCP port of M0 (R442): IPv4 where there is one, IPv6, port. -/
structure NetCfg where
  ip4 : Option Nat
  ip6 : Nat
  port : Nat
  deriving DecidableEq, Repr

/-- What the octets of a bundle's sections mean, for which R457 gives no layout: the configuration items of each section in the order
of the section table, and the tool CA keys, the addresses and the TCP port, where it names one, of the TLS section (R442; log 293). -/
structure BundleContent where
  items : List (List CfgItem)
  toolCas : List Nat
  ip4 : Option Nat
  ip6 : Nat
  port : Option Nat
  deriving DecidableEq, Repr

/-- A Limelle bundle (R457): its LENGTH octets, and what its sections mean. -/
structure Bundle where
  raw : Octets
  content : BundleContent
  deriving DecidableEq, Repr

/-- One block of a PUF response (R410): its 255 bits as read, and the error pattern that the decoder finds in it, none where it finds
none. -/
structure PufBlock where
  resp : Nat
  err : Option Nat
  deriving DecidableEq, Repr

/-- A key blob as it comes (R420): the initial vector and what follows it. -/
structure SealedKeys where
  iv : List Nat
  body : List Nat
  deriving DecidableEq, Repr

/-- A key installed by KEY_PUT after its blob is opened (R419, R420): in format 1 the SPI names the GROUP node in the
command's map. -/
structure KeyBlob where
  spi : Nat
  alg : Nat
  keyId : Nat
  key : Octets
  start : Nat
  lifetime : Nat
  deriving DecidableEq, Repr

/-- Parameters of SLICE_CREATE (R355). -/
structure SliceParams where
  slice : Nat
  pasids : List Nat
  cores : Nat
  windows : List (Nat × Nat)
  inflight : Nat
  weight : Nat
  errLimit : Nat
  irqCore : Nat
  irqFile : Nat
  deriving DecidableEq, Repr

/-- A new program for LOGIC_LOAD: the class and the write ranges it is made for, these as words 1 to 3 of a slot entry, its
words, timer presets, counter limits and identifier (R266, R271). -/
structure ProgramImage where
  cls : Nat
  ranges : List Nat
  words : List Nat
  presets : List (Nat × Nat)
  limits : List (Nat × Nat)
  progId : Nat
  deriving DecidableEq, Repr

/-- A record that REC_EXPORT takes (R317, R318): a buffer of an instance, or a RAW image in a buffer. -/
inductive RecSrc
  | stored (inst buf : Nat)
  | raw (b : BufRef)
  deriving DecidableEq, Repr

/-- The scrubbed memories of R461. -/
inductive ScrubMem | smem | dram | prog | mram
  deriving DecidableEq, Repr

/-- What a scrubber finds at a word. -/
inductive ScrubFind | clean | corrected | uncorrectable
  deriving DecidableEq, Repr

/-- A TLS offer of a connecting tool (R442): the address and the TCP port that it connects to, the suite, group and scheme, its client
key and certificate, what it would use beside them, and the transcript of the handshake. -/
structure TlsOffer where
  v6 : Bool
  dst : Nat
  port : Nat
  psk : Bool
  resumption : Bool
  earlyData : Bool
  postAuth : Bool
  suiteOk : Bool
  groupOk : Bool
  sigOk : Bool
  clientKey : Nat
  clientCertOk : Bool
  transcript : List Nat
  deriving DecidableEq, Repr

/-- How the running long command of a group ends: by its own work, or because the TMC found an internal fault (R452, R456). -/
structure LongEnd where
  group : Nat
  internal : Bool
  deriving DecidableEq, Repr

/-- The commands: one constructor per row of the opcode table. -/
inductive Instr
  -- registers and the fabric
  | registerWrite (m : Master) (addr size value : Nat)
  | clearingRead (m : Master) (addr size : Nat)
  | commandOperationEnd (b : CmdBlock)
  | coreRequest (r : CoreReq)
  -- supplies, root and resets
  | powerUp (feedA : Bool) (s : SupplySample)
  | railInRegulation (r : Rail)
  | railFault (r : Rail)
  | rideThroughEntry (mv : Nat)
  | returnThreshold (mv : Nat)
  | returnTimerStop (mv : Nat)
  | returnTimerExpiry
  | brownout
  | resetThreshold (mv : Nat)
  | railTakedown
  | vioCarFault (mv : Nat)
  | carRst
  | feedLost (b : Bool)
  | faultBitReassert (b : Nat)
  | therm
  | supplyStatusUpdate (s : SupplySample)
  | rootLock
  | rootRatio
  | rootFaultResponse
  | coldReset (cause : Nat)
  | warmReset
  | vkeepLow
  | keepReset
  | prepareComplete
  | qbcStart
  | groupBEnable
  | qbFrame (di : Nat)
  -- timebase
  | secondBoundary
  | ppsOutFall
  | tdcCalibrationStart (ch line : Nat)
  | tdcCalibrationDone (ch line : Nat) (hits : List Nat)
  | ptpSyncRx (m : PtpSync)
  | ptpFollowUpRx (m : PtpSync)
  | ptpAnnounceRx (m : PtpAnnounce)
  | ptpPdelayReqRx (port domain seq : Nat) (rx : PdelayMark)
  | ptpPdelayRespRx (m : PtpPdelay)
  | ptpAnnounceTx
  | ptpSyncTx
  | ptpPdelayReqTx
  | masterLost
  | fallbackMaster
  | holdSpecExpiry
  | ppsInEdge (code : Nat)
  | ppsInTimeout
  -- ports
  | macRxFrame (e : RxEvent)
  | rxDescriptorsComplete (port : Nat)
  | linkUp (l : LinkReport)
  | linkDown (l : LinkLoss)
  | macTxStart (port : Nat)
  | macTxEnd (port : Nat)
  | hsrEntryExpiry (pair sa seq : Nat)
  | supervisionTx (pair : Nat)
  | pauseEnd (port : Nat)
  | pauseWd (port : Nat)
  | pauseIgnoreEnd (port : Nat)
  | pauseRepeat (port : Nat)
  | lpiEntry (port : Nat)
  | lpiWakeEnd (port : Nat)
  | lldpTx (port : Nat)
  | weevilDelayEnd (port : Nat) (tx : Bool)
  | weevilDuplicateCopy (port : Nat)
  | weevilLinkDownEnd (port : Nat)
  | wvlArmWrite (m : Master) (value : Nat)
  | wvlRuleCountWrite (m : Master) (rule value : Nat)
  -- ingress
  | dupEntryExpiry (pair sa seq : Nat)
  | gooseTalExpiry (ctx : Nat)
  | tagResult (ctx : Nat) (pass : Bool)
  | svLoss (ctx : Nat)
  | svHealthRestore (ctx : Nat)
  | altRestore (ctx : Nat)
  -- lattice, phasors, guards
  | latticeWrite
  | provisionalClose (lat : Nat)
  | instantDeadline (lat : Nat)
  | pheFold (lat : Nat)
  | phasorsReady (lat n : Nat)
  | guardResultsReady (lat n : Nat)
  -- Scarab cycles and instructions
  | timedCycleStart (cls : Nat)
  | perInstantCycleStart (cls : Nat)
  | cycleResume (cls : Nat)
  | cycleEnd (cls : Nat)
  | scNop
  | scLd (sp : RdSpace) (ix : Nat)
  | scLdn (sp : RdSpace) (ix : Nat)
  | scAnd (sp : RdSpace) (ix : Nat)
  | scAndn (sp : RdSpace) (ix : Nat)
  | scOr (sp : RdSpace) (ix : Nat)
  | scOrn (sp : RdSpace) (ix : Nat)
  | scXor (sp : RdSpace) (ix : Nat)
  | scXorn (sp : RdSpace) (ix : Nat)
  | scAndParen (sp : RdSpace) (ix : Nat)
  | scAndnParen (sp : RdSpace) (ix : Nat)
  | scOrParen (sp : RdSpace) (ix : Nat)
  | scOrnParen (sp : RdSpace) (ix : Nat)
  | scXorParen (sp : RdSpace) (ix : Nat)
  | scCloseParen
  | scNot
  | scSt (sp : WrSpace) (ix : Nat)
  | scStn (sp : WrSpace) (ix : Nat)
  | scSet (sp : WrSpace) (ix : Nat)
  | scRst (sp : WrSpace) (ix : Nat)
  | scEdgr (ix : Nat)
  | scEdgf (ix : Nat)
  | scTon (ix : Nat)
  | scTof (ix : Nat)
  | scTp (ix : Nat)
  | scTret (ix : Nat)
  | scTrst (ix : Nat)
  | scCtu (ix : Nat)
  | scCtd (ix : Nat)
  | scCrst (ix : Nat)
  | scJmp (target : Nat)
  | scJmpc (target : Nat)
  | scJmpcn (target : Nat)
  | scEnd
  | scEndc
  -- publication and slices
  | gooseRetransmit (pub : Nat)
  | pubDescriptorFetch (ring : Nat)
  | txDescriptorFetch (ring : Nat)
  | doorbellWrite (m : Master) (page k value : Nat)
  | fWrite (m : Master) (page w value : Nat)
  | ftagWrite (core : Nat) (hyp : Bool) (valid : Bool) (pasid : Nat)
  | irqModerationEnd (ring : Nat)
  | quiesceDrained (slice : Nat)
  | quiesceLimit (slice : Nat)
  -- pair
  | heartbeatTick
  | heartbeatRx (h : HbRx)
  | peerSilence
  | soloWaitExpiry
  | leaseLapse
  | takeoverGapEnd
  | handoverTx
  | switchTimeout
  | handoverRx (h : PairHdr) (recs : List PubSyncRec)
  | digestRx (h : PairHdr) (entries : List DigestEntry)
  | digestUnpaired (cls stamp : Nat)
  | imageReqRx (h : PairHdr) (cls : Nat)
  | imageRx (h : PairHdr) (cls stamp : Nat) (octets : Octets)
  | pubSyncRx (h : PairHdr) (recs : List PubSyncRec)
  | partTimeout (mseq : Nat)
  -- safety island
  | islandCycle (x : IslandInputs)
  | islandFault (c : IslandCause)
  | testPulse (b : Bool)
  | cpwUpdate
  | cpwTimeout
  | arcSelftest (ch edges : Nat)
  | feedbackCheck (k sfb : Nat)
  | islandSelftestDone
  | proofTestStep (k : Nat) (sfb : Bool)
  -- Dome events
  | domeRestart (tries : List (List PufBlock))
  | keySweepDone
  | keyActivate (node : Nat)
  | keyExpire (node : Nat)
  | debugChallengeExpiry
  | debugPortClose
  -- management transports
  | mbxDoorbell (m : Master) (page value : Nat)
  | mbxAck (m : Master) (page value : Nat)
  | tlsConnect (o : TlsOffer)
  | tlsPacket (sess : Nat) (octets : Octets)
  | tlsIdleTimeout (sess : Nat)
  | longCommandCompletion (e : LongEnd)
  -- Patchaif commands
  | sysHello (q : Req)
  | sysJobs (q : Req)
  | sysCancel (q : Req) (tag : Nat)
  | sysReset (q : Req) (kind : Nat)
  | xferOpen (q : Req) (size : Nat)
  | xferWrite (q : Req) (handle offset : Nat) (data : Octets)
  | xferRead (q : Req) (handle offset len : Nat)
  | xferClose (q : Req) (handle : Nat)
  | bundleStage (q : Req) (buf : BufRef) (b : BundleContent)
  | bundleActivate (q : Req) (reset : Nat)
  | bundleCommit (q : Req)
  | bundleDiscard (q : Req)
  | bundleStatus (q : Req)
  | sliceCreate (q : Req) (p : SliceParams)
  | sliceRing (q : Req) (slice loc base : Nat)
  | sliceBind (q : Req) (slice : Nat) (add : Bool) (pasid : Nat)
  | sliceStart (q : Req) (slice : Nat)
  | sliceQuiesce (q : Req) (slice : Nat)
  | sliceReset (q : Req) (slice : Nat)
  | sliceRemove (q : Req) (slice : Nat)
  | sliceFault (q : Req) (slice : Nat)
  | sliceShare (q : Req) (slice inflight weight : Nat)
  | slicePv (q : Req) (slice : Nat) (en : Bool) (lats : Nat)
  | sliceStatus (q : Req) (clear : Bool) (slice : Nat)
  | streamAdd (q : Req) (words : List Nat) (maps : List Nat)
  | streamRemove (q : Req) (ctx : Nat)
  | streamMode (q : Req) (ctx : Nat) (sim test : Bool)
  | streamStatus (q : Req) (clear : Bool) (ctx : Nat)
  | foreignList (q : Req)
  | foreignClear (q : Req) (index : Nat)
  | latticeStatus (q : Req) (clear : Bool) (lat : Nat)
  | latticeSpec (q : Req) (lat : Nat) (en : Bool)
  | latticeTol (q : Req) (lat tolI tolV tolRel : Nat)
  | phasorStatus (q : Req) (clear : Bool)
  | guardSet (q : Req) (g : Nat) (words : List Nat)
  | guardEnable (q : Req) (g : Nat) (en : Bool)
  | guardStatus (q : Req) (g : Nat)
  | logicStatus (q : Req) (clear : Bool) (slot : Nat)
  | logicRead (q : Req) (ops : List (Nat × Nat))
  | logicMode (q : Req) (slot mode : Nat)
  | logicParam (q : Req) (slot : Nat) (counters : Bool) (vals : List (Nat × Nat))
  | logicForce (q : Req) (space index : Nat) (value : Bool)
  | logicUnforce (q : Req) (space index : Nat)
  | logicLoad (q : Req) (slot : Nat) (buf : BufRef) (p : ProgramImage)
  | logicSwap (q : Req) (slot : Nat)
  | logicAbort (q : Req)
  | pubStatus (q : Req) (clear : Bool) (pub : Nat)
  | pubEnable (q : Req) (pub : Nat) (en : Bool)
  | pubMode (q : Req) (pub : Nat) (sim test : Bool)
  | recStatus (q : Req) (clear : Bool) (inst : Nat)
  | recList (q : Req) (inst : Nat)
  | recArm (q : Req) (inst : Nat)
  | recDisarm (q : Req) (inst : Nat)
  | recTrigger (q : Req) (inst : Nat)
  | recRelease (q : Req) (inst : Nat) (buf : Option Nat)
  | recExport (q : Req) (fmt : Nat) (cfg dat : BufRef) (recs : List RecSrc)
  | pairStatus (q : Req) (clear : Bool)
  | pairSwitch (q : Req)
  | pairFence (q : Req)
  | pairRelease (q : Req)
  | pairAlone (q : Req)
  | safetyStatus (q : Req) (clear : Bool)
  | safetyAck (q : Req) (inst : Nat)
  | safetyProof (q : Req) (k : Nat)
  | safetyRestart (q : Req)
  | domStatus (q : Req) (clear : Bool)
  | domIdentity (q : Req)
  | keyCreate (q : Req) (node kind parent : Nat)
  | keyDestroy (q : Req) (node : Nat)
  | keyPut (q : Req) (fmt : KeyForm) (transport : Nat) (map : List (Nat × Nat)) (blob : SealedKeys) (algOk : Bool)
      (keys : List KeyBlob)
  | keyAgree (q : Req) (node signer peer : Nat) (info : List Nat)
  | keyInfo (q : Req) (node : Nat)
  | anchorSet (q : Req) (node pub usage : Nat) (stmt : List Nat) (sig : Nat)
  | measExtend (q : Req) (slot digest : Nat)
  | measRead (q : Req)
  | attestQuote (q : Req) (nonce : Octets) (mask : Nat)
  | attestAkCert (q : Req)
  | debugChallenge (q : Req)
  | debugOpen (q : Req) (enMs : Option Nat) (sel : Bool) (token : List Nat) (challenge dikFp sig signer : Nat) (fuseOk : Bool)
  | healthStatus (q : Req) (clear : Bool)
  | faultClear (q : Req) (mask : Nat)
  | ageingStatus (q : Req)
  | ageingMeasure (q : Req)
  | belfryRead (q : Req) (area start count : Nat)
  | flashStatus (q : Req)
  | weevilStatus (q : Req) (clear : Bool)
  | weevilRule (q : Req) (rule mtch action count : Nat)
  | weevilArm (q : Req) (arm : Bool)
  -- operations of the block command registers
  | sctWrite (m : Master) (index : Nat)
  | sctRemove (m : Master) (index : Nat)
  | sctRead (m : Master) (index : Nat) (clr : Bool)
  | sctMapWrite (m : Master) (index : Nat)
  | sctMapRead (m : Master) (index : Nat)
  | sctForeignRead (m : Master) (index : Nat)
  | sctForeignClear (m : Master) (index : Nat)
  | sctMode (m : Master) (index : Nat)
  | pheWrite (m : Master) (table index : Nat)
  | pheRead (m : Master) (table index : Nat)
  | gcmWrite (m : Master) (index : Nat)
  | gcmParam (m : Master) (index : Nat)
  | gcmRead (m : Master) (index : Nat)
  | gcmEnable (m : Master) (index : Nat)
  | gcmState (m : Master) (index : Nat)
  | slpWrite (m : Master) (table index : Nat)
  | slpRead (m : Master) (table index : Nat)
  | slpState (m : Master) (table index : Nat)
  | slpOpnd (m : Master) (table index : Nat)
  | pubWrite (m : Master) (index : Nat)
  | pubRead (m : Master) (index : Nat)
  | pubMembWrite (m : Master) (index : Nat)
  | pubMembRead (m : Master) (index : Nat)
  | pubCmdEnable (m : Master) (index : Nat)
  | pubCmdMode (m : Master) (index : Nat)
  | pubStat (m : Master) (index : Nat)
  | dreWrite (m : Master) (table index : Nat)
  | dreRead (m : Master) (table index : Nat)
  | dreArm (m : Master) (index : Nat)
  | dreDisarm (m : Master) (index : Nat)
  | dreTrigger (m : Master) (index : Nat)
  | dreRelease (m : Master) (index : Nat)
  | dreStat (m : Master) (index : Nat)
  | sltWrite (m : Master) (table index : Nat)
  | sltRead (m : Master) (table index : Nat)
  | sltStat (m : Master) (index : Nat) (clr : Bool)
  -- health
  | scrubPass (mem : ScrubMem) (addr : Nat) (find : ScrubFind) (passEnd : Bool)
  | flashRefresh (block corrections : Nat) (failed : Bool)
  | telemetrySample (vals : List Int)
  | histogramUpdate
  | operatingDayEnd
  | deferredMeasurement
  | measurementComplete (slacks vcore : List Nat) (tdie : List Int)
  | thermalStep (mean : Int)
  | thermalStepDown (mean : Int)
  | belfryMirror
  | blfCursorWrite (m : Master) (value : Nat)
  | blfStepNext (m : Master) (value : Nat)
  | carRstNRelease
  | pdelayRespFollowUpRx (m : PtpPdelay)
  | tlsSessionClose (sess : Nat)
  deriving DecidableEq, Repr

end Sys2Proof
end

