-- ==== Sys2Proof/Decode.lean ====
section
/-! DEFINITION. The commands that a word spells and the words that spell them: the Scarab's instruction words (R241, R243),
which are 32 bits long. No other row of the opcode table has bits. -/
namespace Sys2Proof

/-- The operand space of a read instruction by its code (R237). -/
def rdSpaceOf (code : Nat) : Option RdSpace :=
  [RdSpace.i, .q, .m, .t, .c, .e, .g, .s, .f, .k][code]?

/-- The operand space of ST, STN, SET and RST by its code (R237, R243). -/
def wrSpaceOf (code : Nat) : Option WrSpace :=
  match code with
  | 1 => some .q
  | 2 => some .m
  | _ => none

/-- The instruction that reads an operand, by its opcode (R243). -/
def readOf (op : Nat) : Option (RdSpace → Nat → Instr) :=
  [Instr.scLd, .scLdn, .scAnd, .scAndn, .scOr, .scOrn, .scXor, .scXorn, .scAndParen, .scAndnParen, .scOrParen, .scOrnParen, .scXorParen][op - 1]?

/-- The instruction that writes an operand, by its opcode (R243). -/
def writeOf (op : Nat) : Option (WrSpace → Nat → Instr) := [Instr.scSt, .scStn, .scSet, .scRst][op - 0x10]?

/-- The instruction of one fixed space with the code of that space, by its opcode: edges, timers, counters, and jumps, which name an
index only (R243). -/
def indexOf (op : Nat) : Option (Nat × (Nat → Instr)) :=
  [(5, Instr.scEdgr), (5, .scEdgf), (3, .scTon), (3, .scTof), (3, .scTp), (3, .scTret), (3, .scTrst), (4, .scCtu), (4, .scCtd), (4, .scCrst),
    (0, .scJmp), (0, .scJmpc), (0, .scJmpcn)][op - 0x14]?

/-- The instruction without an operand, by its opcode (R243). -/
def plainOf (op : Nat) : Option Instr :=
  match op with
  | 0x00 => some .scNop
  | 0x0E => some .scCloseParen
  | 0x0F => some .scNot
  | 0x21 => some .scEnd
  | 0x22 => some .scEndc
  | _ => none

/-- A Scarab instruction word: opcode in [31:26], operand space in [25:22], index in [21:0]; none for an opcode or a space that R243
does not define (R241, R243). -/
def decodeScarab (w : Nat) : Option Instr :=
  let op := w / 2 ^ 26
  let sp := w / 2 ^ 22 % 2 ^ 4
  let ix := w % 2 ^ 22
  match plainOf op with
  | some i => if sp = 0 ∧ ix = 0 then some i else none
  | none =>
    if op = 0 then none
    else if op < 0x10 then
      match readOf op, rdSpaceOf sp with
      | some f, some x => some (f x ix)
      | _, _ => none
    else if op < 0x14 then
      match writeOf op, wrSpaceOf sp with
      | some f, some x => some (f x ix)
      | _, _ => none
    else
      match indexOf op with
      | some p => if sp = p.1 then some (p.2 ix) else none
      | none => none

/-- The word of a Scarab instruction (R241, R243), none for a command of another kind. -/
def encodeScarab (i : Instr) : Option Nat :=
  let word := fun (op sp ix : Nat) => some (op * 2 ^ 26 + sp * 2 ^ 22 + ix)
  let rd : RdSpace → Nat := fun sp => match sp with
    | .i => 0 | .q => 1 | .m => 2 | .t => 3 | .c => 4 | .e => 5 | .g => 6 | .s => 7 | .f => 8 | .k => 9
  let wr : WrSpace → Nat := fun sp => match sp with
    | .q => 1 | .m => 2
  match i with
  | .scNop => word 0x00 0 0
  | .scLd sp ix => word 0x01 (rd sp) ix
  | .scLdn sp ix => word 0x02 (rd sp) ix
  | .scAnd sp ix => word 0x03 (rd sp) ix
  | .scAndn sp ix => word 0x04 (rd sp) ix
  | .scOr sp ix => word 0x05 (rd sp) ix
  | .scOrn sp ix => word 0x06 (rd sp) ix
  | .scXor sp ix => word 0x07 (rd sp) ix
  | .scXorn sp ix => word 0x08 (rd sp) ix
  | .scAndParen sp ix => word 0x09 (rd sp) ix
  | .scAndnParen sp ix => word 0x0A (rd sp) ix
  | .scOrParen sp ix => word 0x0B (rd sp) ix
  | .scOrnParen sp ix => word 0x0C (rd sp) ix
  | .scXorParen sp ix => word 0x0D (rd sp) ix
  | .scCloseParen => word 0x0E 0 0
  | .scNot => word 0x0F 0 0
  | .scSt sp ix => word 0x10 (wr sp) ix
  | .scStn sp ix => word 0x11 (wr sp) ix
  | .scSet sp ix => word 0x12 (wr sp) ix
  | .scRst sp ix => word 0x13 (wr sp) ix
  | .scEdgr ix => word 0x14 5 ix
  | .scEdgf ix => word 0x15 5 ix
  | .scTon ix => word 0x16 3 ix
  | .scTof ix => word 0x17 3 ix
  | .scTp ix => word 0x18 3 ix
  | .scTret ix => word 0x19 3 ix
  | .scTrst ix => word 0x1A 3 ix
  | .scCtu ix => word 0x1B 4 ix
  | .scCtd ix => word 0x1C 4 ix
  | .scCrst ix => word 0x1D 4 ix
  | .scJmp target => word 0x1E 0 target
  | .scJmpc target => word 0x1F 0 target
  | .scJmpcn target => word 0x20 0 target
  | .scEnd => word 0x21 0 0
  | .scEndc => word 0x22 0 0
  | _ => none

/-- The command that a word of `nbits` bits spells. -/
def decodeTableWord (nbits w : Nat) : Option Instr := if nbits = 32 ∧ w < 2 ^ 32 then decodeScarab w else none

end Sys2Proof
end

