-- ==== Sys2Proof/Config.lean ====
section
/-! DEFINITION. The free values of the model: constants without a body, so that no proof can see what they are. Every one
is named in the assumption log; a statement about one holds for every value it could have. -/
namespace Sys2Proof.Config

/-- A fresh natural number for each value of the free counter of State: the value the spec leaves undefined. -/
opaque freeNat : Nat → Nat

/-- Sign and payload of the NaN that an invalid binary32 or binary64 operation delivers, which IEEE 754 leaves open. -/
opaque nanBits : Nat

/-- Whether the tick increment of R81, not a whole number of hidden units, is rounded up at this tick. -/
opaque tickUp : Nat → Bool

/-- clockIdentity of the module's own clock (R95, R99), fixed for the module. -/
opaque clockId : Nat

/-- Delay-table entry of a code in a line not yet calibrated since the module started, in units of 2^-16 ns. -/
opaque tdcRaw : Nat → Int

/-- The MAC address that M0 takes before the first commit (R442). -/
opaque factoryMac : Nat

/-- Octets of a frame that the module forms itself, from the destination address to the frame check sequence, by what it
carries and how many members it has: the encodings are those of the named standards, which the spec does not restate. -/
opaque encLen : Nat → Nat → Nat

/-- Octets of the encoded PDU of a publication's frame (R275) by what it carries: SV or GOOSE, ASDUs, whether it has a security
extension, its members by type and width, and the lengths of its identifier strings. -/
opaque pduLen : List Nat → Nat

/-- The tag of a security extension by algorithm, key and the frame as numbered (R287): those of IEC 62351-6, not restated. -/
opaque authTag : Nat → Octets → Body → Nat

/-- CRC-32C of the encoded allData of a GOOSE frame (R375); the encoding is that of IEC 61850-8-1. -/
opaque contentCrc : List GooseVal → Nat

/-- An analogue channel of a COMTRADE .cfg file (R317): `milli` a in thousandths. -/
structure CfgAnalogue where
  chId : Octets
  ph : Octets
  ccbm : Octets
  volt : Bool
  milli : Nat
  b : Int
  skew : Int
  min : Int
  max : Int
  primary : Nat
  secondary : Nat
  ps : Char
  deriving DecidableEq, Repr

/-- A digital channel of a COMTRADE .cfg file (R317). -/
structure CfgDigital where
  chId : Octets
  ph : Octets
  ccbm : Octets
  y : Nat
  deriving DecidableEq, Repr

/-- The fields of a COMTRADE .cfg file as R317 sets them: `samp` as a quotient, the two times as UTC in µs, `binary32` the file type. -/
structure ComtradeCfg where
  station : Octets
  recDev : Octets
  revYear : Nat
  analogue : List CfgAnalogue
  digital : List CfgDigital
  lf : Nat
  nrates : Nat
  samp : Nat × Nat
  endsamp : Nat
  first : Int
  trigger : Int
  binary32 : Bool
  timemult : Nat
  timeCode : Int
  localCode : Int
  tmqCode : Nat
  leapsec : Nat
  deriving DecidableEq, Repr

/-- Octets of a COMTRADE .cfg file (R317) by its fields: their text is that of IEEE C37.111, not restated. -/
opaque comtradeCfg : ComtradeCfg → Octets

/-- What a frame carries after a Weevil PAYLOAD rule changed its octets (R129), read by the standards' decoders. -/
opaque parseBody : Octets → Body

/-- SHA-384 of a string of octets as a number of 48 octets, octet 0 lowest: the standard's function, not restated by the
spec (R412, R423). -/
opaque sha384 : List Nat → Nat

/-- HKDF-Extract under SHA-384 from the salt and the input key (R410). -/
opaque hkdfExtract : String → Nat → Nat

/-- HKDF-Expand under SHA-384 from the key, the label and the octets that make its info (R412, R415). -/
opaque hkdf : Nat → String → List Nat → Nat

/-- The public point (97 octets as one number) of a P-384 private key (R412). -/
opaque ecPublic : Nat → Nat

/-- The deterministic ECDSA P-384 signature of octets under a key (R427). -/
opaque ecSign : Nat → List Nat → Nat

/-- Whether a signature verifies under a public key (R427). -/
opaque ecVerify : Nat → List Nat → Nat → Bool

/-- The ECDH P-384 shared value of a private key and a peer public key (R435). -/
opaque ecdh : Nat → Nat → Nat

/-- The helper syndrome of each PUF block, fused at manufacture (R410). -/
opaque pufHelper : Nat → Nat

/-- The check value of the helper data, fused at manufacture (R410). -/
opaque pufCheck : Nat

/-- The syndrome of a 255-bit word under the BCH(255, 131) code, whose generator the spec does not give (R410). -/
opaque bchSyndrome : Nat → Nat

/-- The 131 secret bits of a corrected 255-bit block: which they are the spec does not say (R410). -/
opaque bchSecret : Nat → Nat

/-- The key, derived from ROOT, of the HMAC that each anchor record carries (R428): the spec does not give its derivation. -/
opaque anchorKey : Nat → Nat

/-- HMAC-SHA384 of octets under a key (R428). -/
opaque hmac384 : Nat → List Nat → Nat

/-- What a record of the Dome store holds of the keys of its node: AES-256-GCM under the node's wrapping key (R415). -/
opaque gcmSeal : Nat → List Nat → List Nat

/-- The key blob of a format (0 or 1) under a TRANSPORT node's key with an initial vector, over the keys it carries (R420): its
layout is not given. -/
opaque sealKeys : Nat → Nat → List Nat → List KeyBlob → List Nat

/-- The public key of node 3, Otval's debug anchor, written at manufacture (R414). -/
opaque otvalAnchor : Nat

/-- The firmware digests with which MS0 to MS3 are extended (R423). -/
opaque firmwareDigest : Nat → Nat

/-- The digest with which MS6 and MS7 record a destruction of node 2, an ANCHOR_SET or a change of the Weevil (R423), from the
slot and what the event names: the spec does not say over what it is taken. -/
opaque eventDigest : Nat → List Nat → Nat

/-- Otval's certificate for the device identity key (R412). -/
opaque dikCert : Octets

/-- Version of the Turret firmware: major, minor, patch, build, one octet each (R445). -/
opaque tmcVersion : Nat

/-- Gauge coefficients of R467, fused for each gauge at manufacture: kv in units of 0.001 ps/mV. -/
opaque gaugeKv : Nat → Int

/-- Gauge coefficients of R467: kt in units of 0.001 ps/°C. -/
opaque gaugeKt : Nat → Int

/-- VCORE_INIT, the factory value of the adaptive supply in mV (R470). -/
opaque vcoreInit : Nat

/-- Coefficient a as binary32 bits where no one line fits a gauge's stored values best (R469). -/
opaque fitA : List (Nat × Int) → BitVec 32

/-- Coefficient b as binary32 bits where no one line fits a gauge's stored values best (R469). -/
opaque fitB : List (Nat × Int) → BitVec 32

/-- The day on which a gauge's margin runs out, or none for no projection, where no one line fits its stored values best (R469). -/
opaque fitDay : Nat → List (Nat × Int) → Option Nat

end Sys2Proof.Config
end

