-- ==== Sys2Proof/Machine/Tbl.lean ====
section
/-! DEFINITION. Sparse tables in one canonical form, bit slices and octet strings: the data helpers of every block. -/
namespace Sys2Proof.Machine

/-- The value a table holds for key `k`, `d` where it lists none. -/
def Tbl.get {α : Type} (d : α) (k : Nat) : Tbl α → α
  | [] => d
  | (j, v) :: t => if j = k then v else Tbl.get d k t

/-- Whether the table lists key `k`. -/
def Tbl.has {α : Type} (k : Nat) : Tbl α → Bool
  | [] => false
  | (j, _) :: t => decide (j = k) || Tbl.has k t

/-- The table without key `k`. -/
def Tbl.del {α : Type} (k : Nat) : Tbl α → Tbl α
  | [] => []
  | (j, v) :: t => if j = k then Tbl.del k t else (j, v) :: Tbl.del k t

/-- The table with `v` listed at key `k`, keys kept rising. -/
def Tbl.put {α : Type} (k : Nat) (v : α) : Tbl α → Tbl α
  | [] => [(k, v)]
  | (j, w) :: t =>
    if k < j then (k, v) :: (j, w) :: t
    else if j = k then (k, v) :: t
    else (j, w) :: Tbl.put k v t

/-- The table reading `v` at key `k`: an entry equal to the default `d` is not listed. -/
def Tbl.set {α : Type} [DecidableEq α] (d : α) (k : Nat) (v : α) (t : Tbl α) : Tbl α :=
  if v = d then Tbl.del k t else Tbl.put k v t

/-- Keys strictly above `lo` and rising. -/
def Tbl.rising {α : Type} : Option Nat → Tbl α → Bool
  | _, [] => true
  | none, (j, _) :: t => Tbl.rising (some j) t
  | some i, (j, _) :: t => decide (i < j) && Tbl.rising (some j) t

/-- The canonical form: rising keys, no entry equal to the default. -/
def Tbl.wf {α : Type} [DecidableEq α] (d : α) (t : Tbl α) : Bool :=
  Tbl.rising none t && t.all (fun p => decide (p.2 ≠ d))

/-- Bits `hi` down to `lo` of a word (R7). -/
def bits (hi lo w : Nat) : Nat := w / 2 ^ lo % 2 ^ (hi + 1 - lo)

/-- One bit of a word (R7). -/
def bit (n w : Nat) : Bool := w / 2 ^ n % 2 == 1

/-- A truth value as a bit. -/
def b2n (b : Bool) : Nat := if b then 1 else 0

/-- The signed reading of a `w`-bit field. -/
def signed (w v : Nat) : Int := if v % 2 ^ w < 2 ^ (w - 1) then (v % 2 ^ w : Int) else (v % 2 ^ w : Int) - 2 ^ w

/-- The `w`-bit two's complement field of an integer. -/
def unsigned (w : Nat) (v : Int) : Nat := (v % (2 ^ w : Int)).toNat

/-- Division rounded to nearest, ties away from zero (R142). -/
def divAway (a : Int) (b : Nat) : Int :=
  if 0 ≤ a then (2 * a + b) / (2 * b) else -((2 * -a + b) / (2 * b))

/-- Division rounded to nearest, ties up (R15). -/
def divUp (a : Int) (b : Nat) : Int := (2 * a + b) / (2 * b)

/-- An integer saturated to a signed width. -/
def satInt (w : Nat) (v : Int) : Int := max (-(2 ^ (w - 1))) (min v (2 ^ (w - 1) - 1))

/-- The little-endian octets of a number (R8). -/
def le : Nat → Nat → Octets
  | 0, _ => []
  | n + 1, v => BitVec.ofNat 8 v :: le n (v / 256)

/-- The number that little-endian octets spell (R8). -/
def ofLe : Octets → Nat
  | [] => 0
  | b :: t => b.toNat + 256 * ofLe t

/-- One octet into a CRC-32C (reflected polynomial 0x82F6_3B78). -/
def crc32cByte (crc : Nat) (b : Nat) : Nat :=
  (List.range 8).foldl (fun c _ => if c % 2 = 1 then (c / 2) ^^^ 0x82F63B78 else c / 2) (crc ^^^ b)

/-- CRC-32C with initial value 0xFFFF_FFFF and final inversion (R131). -/
def crc32c (o : Octets) : Nat := (o.foldl (fun c b => crc32cByte c b.toNat) 0xFFFFFFFF) ^^^ 0xFFFFFFFF

/-- One bit into the CRC of x^16 + x^12 + x^5 + 1 (R70, R360). -/
def crc16Bit (crc : Nat) (b : Bool) : Nat :=
  let top := decide (crc / 0x8000 % 2 = 1)
  let sh := crc * 2 % 0x10000
  if xor top b then sh ^^^ 0x1021 else sh

/-- The CRC of R70 over bits in the order sent: initial 0xFFFF, no final inversion. -/
def crc16 (bs : List Bool) : Nat := bs.foldl crc16Bit 0xFFFF

/-- The bits of a number, most significant of `n` first. -/
def msbFirst (n v : Nat) : List Bool := (List.range n).map (fun i => bit (n - 1 - i) v)

/-- The bits of a number, least significant of `n` first. -/
def lsbFirst (n v : Nat) : List Bool := (List.range n).map (fun i => bit i v)

/-- The number that bits spell, least significant first. -/
def ofLsb : List Bool → Nat
  | [] => 0
  | b :: t => b2n b + 2 * ofLsb t

/-- Nanoseconds in a second, in units of 2^-16 ns. -/
def secUnits : Nat := 1000000000 * 65536

/-- SEC of a GT96 time (R14). -/
def Time.sec (t : Time) : Nat := t / secUnits
/-- NS of a GT96 time (R14, R15): below 10^9 by construction. -/
def Time.ns (t : Time) : Nat := t % secUnits / 65536
/-- FRAC of a GT96 time (R14). -/
def Time.frac (t : Time) : Nat := t % 65536
/-- The 96-bit word of a GT96 time (R14). -/
def Time.gt96 (t : Time) : Nat := Time.sec t % 2 ^ 48 * 2 ^ 48 + Time.ns t * 2 ^ 16 + Time.frac t
/-- GT64 is GT96[79:16] (R16). -/
def Time.gt64 (t : Time) : Nat := Time.sec t % 2 ^ 32 * 2 ^ 32 + Time.ns t
/-- GT32 is GT96[47:16] (R16). -/
def Time.gt32 (t : Time) : Nat := Time.ns t

end Sys2Proof.Machine
end

