-- ==== Sys2Proof/Machine/RegMap.lean ====
section
/-! DEFINITION. The register map: one `Field` per register field of the spec's register tables (block page of R21,
offset, width, access code of R10, reset value), and the list of all registers. An element of an array is `f.at n`;
a port page or slice page is `f.pg p`. -/
namespace Sys2Proof.Machine

/-- The access codes of R10. -/
inductive Access | ro | rw | w1c | rc | wo | ros | rwl
  deriving DecidableEq, Repr

/-- One field of one register: `addr` is the physical byte address of the register (element 0, page instance 0),
`stride` the distance of array elements, `lo` the lowest bit, `reset` the value after cold reset, and `minV` to `maxV`
the values to which the field's Meaning assigns a function (R11). -/
structure Field where
  addr : Nat
  stride : Nat
  lo : Nat
  width : Nat
  acc : Access
  reset : Nat
  minV : Nat
  maxV : Nat
  deriving DecidableEq, Repr

/-- One register of a register page: its name, address, number of page instances, array stride and count, and width in
octets, with its fields. -/
structure Register where
  name : String
  addr : Nat
  pages : Nat
  stride : Nat
  count : Nat
  bytes : Nat
  fields : List Field
  deriving DecidableEq, Repr

namespace F

/-- R4: MEMBER, bits [31:24] of TMC.MODULE_ID. -/
def TMC_MODULE_ID_MEMBER : Field := ⟨0x5000000000, 0, 24, 8, .ro, 9, 0, 255⟩
/-- R4: HW_REV, bits [23:16] of TMC.MODULE_ID. -/
def TMC_MODULE_ID_HW_REV : Field := ⟨0x5000000000, 0, 16, 8, .ro, 3, 0, 255⟩
/-- R4: STEPPING, bits [15:8] of TMC.MODULE_ID. -/
def TMC_MODULE_ID_STEPPING : Field := ⟨0x5000000000, 0, 8, 8, .ro, 193, 0, 255⟩
/-- R4: SAFETY_EN, bits [0:0] of TMC.MODULE_ID. -/
def TMC_MODULE_ID_SAFETY_EN : Field := ⟨0x5000000000, 0, 0, 1, .ro, 1, 0, 1⟩
/-- R5: SV_STREAMS, bits [31:16] of TMC.FAMILY_CAP. -/
def TMC_FAMILY_CAP_SV_STREAMS : Field := ⟨0x5000000004, 0, 16, 16, .ro, 1024, 0, 65535⟩
/-- R5: SLICES, bits [15:8] of TMC.FAMILY_CAP. -/
def TMC_FAMILY_CAP_SLICES : Field := ⟨0x5000000004, 0, 8, 8, .ro, 128, 0, 255⟩
/-- R5: APP_CORES, bits [7:0] of TMC.FAMILY_CAP. -/
def TMC_FAMILY_CAP_APP_CORES : Field := ⟨0x5000000004, 0, 0, 8, .ro, 24, 0, 255⟩
/-- R66: VBUS, bits [31:21] of PHM.SUPPLY_STATUS. -/
def PHM_SUPPLY_STATUS_VBUS : Field := ⟨0x5000010100, 0, 21, 11, .ro, 0, 0, 2047⟩
/-- R66: IOSEL, bits [15:15] of PHM.SUPPLY_STATUS. -/
def PHM_SUPPLY_STATUS_IOSEL : Field := ⟨0x5000010100, 0, 15, 1, .ro, 0, 0, 1⟩
/-- R66: PAIRSEL, bits [14:14] of PHM.SUPPLY_STATUS. -/
def PHM_SUPPLY_STATUS_PAIRSEL : Field := ⟨0x5000010100, 0, 14, 1, .ro, 0, 0, 1⟩
/-- R66: VIO_CAR_STATE, bits [13:12] of PHM.SUPPLY_STATUS. -/
def PHM_SUPPLY_STATUS_VIO_CAR_STATE : Field := ⟨0x5000010100, 0, 12, 2, .ro, 0, 0, 3⟩
/-- R66: FEED_B_OK, bits [11:11] of PHM.SUPPLY_STATUS. -/
def PHM_SUPPLY_STATUS_FEED_B_OK : Field := ⟨0x5000010100, 0, 11, 1, .ro, 0, 0, 1⟩
/-- R66: FEED_A_OK, bits [10:10] of PHM.SUPPLY_STATUS. -/
def PHM_SUPPLY_STATUS_FEED_A_OK : Field := ⟨0x5000010100, 0, 10, 1, .ro, 0, 0, 1⟩
/-- R66: VANA_OK, bits [9:9] of PHM.SUPPLY_STATUS. -/
def PHM_SUPPLY_STATUS_VANA_OK : Field := ⟨0x5000010100, 0, 9, 1, .ro, 0, 0, 1⟩
/-- R66: VIO_OK, bits [8:8] of PHM.SUPPLY_STATUS. -/
def PHM_SUPPLY_STATUS_VIO_OK : Field := ⟨0x5000010100, 0, 8, 1, .ro, 0, 0, 1⟩
/-- R66: VCORE_OK, bits [7:7] of PHM.SUPPLY_STATUS. -/
def PHM_SUPPLY_STATUS_VCORE_OK : Field := ⟨0x5000010100, 0, 7, 1, .ro, 0, 0, 1⟩
/-- R66: RETURN_PENDING, bits [1:1] of PHM.SUPPLY_STATUS. -/
def PHM_SUPPLY_STATUS_RETURN_PENDING : Field := ⟨0x5000010100, 0, 1, 1, .ro, 0, 0, 1⟩
/-- R66: RIDE, bits [0:0] of PHM.SUPPLY_STATUS. -/
def PHM_SUPPLY_STATUS_RIDE : Field := ⟨0x5000010100, 0, 0, 1, .ro, 0, 0, 1⟩
/-- R67: THERM, bits [7:7] of PHM.FAULT. -/
def PHM_FAULT_THERM : Field := ⟨0x5000010104, 0, 7, 1, .w1c, 0, 0, 1⟩
/-- R67: BROWNOUT, bits [6:6] of PHM.FAULT. -/
def PHM_FAULT_BROWNOUT : Field := ⟨0x5000010104, 0, 6, 1, .w1c, 0, 0, 1⟩
/-- R67: VIO_CAR, bits [5:5] of PHM.FAULT. -/
def PHM_FAULT_VIO_CAR : Field := ⟨0x5000010104, 0, 5, 1, .w1c, 0, 0, 1⟩
/-- R67: RAIL, bits [4:4] of PHM.FAULT. -/
def PHM_FAULT_RAIL : Field := ⟨0x5000010104, 0, 4, 1, .w1c, 0, 0, 1⟩
/-- R67: FEED_B_LOST, bits [3:3] of PHM.FAULT. -/
def PHM_FAULT_FEED_B_LOST : Field := ⟨0x5000010104, 0, 3, 1, .w1c, 0, 0, 1⟩
/-- R67: FEED_A_LOST, bits [2:2] of PHM.FAULT. -/
def PHM_FAULT_FEED_A_LOST : Field := ⟨0x5000010104, 0, 2, 1, .w1c, 0, 0, 1⟩
/-- R67: ROOT_RATIO, bits [1:1] of PHM.FAULT. -/
def PHM_FAULT_ROOT_RATIO : Field := ⟨0x5000010104, 0, 1, 1, .w1c, 0, 0, 1⟩
/-- R67: ROOT_LOCK, bits [0:0] of PHM.FAULT. -/
def PHM_FAULT_ROOT_LOCK : Field := ⟨0x5000010104, 0, 0, 1, .w1c, 0, 0, 1⟩
/-- R68: LAST_MIN_VBUS, bits [31:20] of PHM.RIDE_STATS. -/
def PHM_RIDE_STATS_LAST_MIN_VBUS : Field := ⟨0x5000010108, 0, 20, 12, .ro, 0, 0, 4095⟩
/-- R68: RIDE_CNT, bits [15:0] of PHM.RIDE_STATS. -/
def PHM_RIDE_STATS_RIDE_CNT : Field := ⟨0x5000010108, 0, 0, 16, .rc, 0, 0, 65535⟩
/-- R76: ECHO_CHK, bits [8:8] of QBC.CTL. -/
def QBC_CTL_ECHO_CHK : Field := ⟨0x5000130000, 0, 8, 1, .rwl, 0, 0, 1⟩
/-- R76: IN_FILT, bits [7:4] of QBC.CTL. -/
def QBC_CTL_IN_FILT : Field := ⟨0x5000130000, 0, 4, 4, .rwl, 0, 0, 15⟩
/-- R76: EN, bits [0:0] of QBC.CTL. -/
def QBC_CTL_EN : Field := ⟨0x5000130000, 0, 0, 1, .rwl, 0, 0, 1⟩
/-- R76: IN_BASE, bits [31:16] of QBC.MAP. -/
def QBC_MAP_IN_BASE : Field := ⟨0x5000130004, 0, 16, 16, .rwl, 0, 0, 65280⟩
/-- R76: OUT_BASE, bits [15:0] of QBC.MAP. -/
def QBC_MAP_OUT_BASE : Field := ⟨0x5000130004, 0, 0, 16, .rwl, 0, 0, 65408⟩
/-- R76: LAST_SEQ, bits [31:24] of QBC.STATUS. -/
def QBC_STATUS_LAST_SEQ : Field := ⟨0x5000130008, 0, 24, 8, .ro, 0, 0, 255⟩
/-- R76: ECHO_SEQ, bits [23:16] of QBC.STATUS. -/
def QBC_STATUS_ECHO_SEQ : Field := ⟨0x5000130008, 0, 16, 8, .ro, 0, 0, 255⟩
/-- R76: UPD, bits [3:3] of QBC.STATUS. -/
def QBC_STATUS_UPD : Field := ⟨0x5000130008, 0, 3, 1, .ro, 0, 0, 1⟩
/-- R76: HOLD, bits [2:1] of QBC.STATUS. -/
def QBC_STATUS_HOLD : Field := ⟨0x5000130008, 0, 1, 2, .ro, 0, 0, 3⟩
/-- R76: IN_VALID, bits [0:0] of QBC.STATUS. -/
def QBC_STATUS_IN_VALID : Field := ⟨0x5000130008, 0, 0, 1, .ro, 0, 0, 1⟩
/-- R76: IN_CRC_ERR, bits [31:16] of QBC.ERR_CNT. -/
def QBC_ERR_CNT_IN_CRC_ERR : Field := ⟨0x500013000C, 0, 16, 16, .rc, 0, 0, 65535⟩
/-- R76: ECHO_ERR, bits [15:0] of QBC.ERR_CNT. -/
def QBC_ERR_CNT_ECHO_ERR : Field := ⟨0x500013000C, 0, 0, 16, .rc, 0, 0, 65535⟩
/-- R99: DOMAIN, bits [31:24] of TBU.CTL. -/
def TBU_CTL_DOMAIN : Field := ⟨0x5000020000, 0, 24, 8, .rwl, 0, 0, 255⟩
/-- R99: ATTACH, bits [19:16] of TBU.CTL. -/
def TBU_CTL_ATTACH : Field := ⟨0x5000020000, 0, 16, 4, .rwl, 15, 0, 15⟩
/-- R99: RATE_LIMIT, bits [15:8] of TBU.CTL. -/
def TBU_CTL_RATE_LIMIT : Field := ⟨0x5000020000, 0, 8, 8, .rwl, 100, 1, 200⟩
/-- R99: STEP_EN, bits [4:4] of TBU.CTL. -/
def TBU_CTL_STEP_EN : Field := ⟨0x5000020000, 0, 4, 1, .rwl, 1, 0, 1⟩
/-- R99: FALLBACK, bits [3:3] of TBU.CTL. -/
def TBU_CTL_FALLBACK : Field := ⟨0x5000020000, 0, 3, 1, .rwl, 0, 0, 1⟩
/-- R99: EN, bits [0:0] of TBU.CTL. -/
def TBU_CTL_EN : Field := ⟨0x5000020000, 0, 0, 1, .rwl, 0, 0, 1⟩
/-- R99: GM_CLASS, bits [31:24] of TBU.STATUS. -/
def TBU_STATUS_GM_CLASS : Field := ⟨0x5000020004, 0, 24, 8, .ro, 255, 0, 255⟩
/-- R99: UTC_OFFSET, bits [23:16] of TBU.STATUS. -/
def TBU_STATUS_UTC_OFFSET : Field := ⟨0x5000020004, 0, 16, 8, .ro, 0, 0, 255⟩
/-- R99: UTC_VALID, bits [15:15] of TBU.STATUS. -/
def TBU_STATUS_UTC_VALID : Field := ⟨0x5000020004, 0, 15, 1, .ro, 0, 0, 1⟩
/-- R99: SYNCH, bits [14:13] of TBU.STATUS. -/
def TBU_STATUS_SYNCH : Field := ⟨0x5000020004, 0, 13, 2, .ro, 0, 0, 3⟩
/-- R99: TIME_VALID, bits [12:12] of TBU.STATUS. -/
def TBU_STATUS_TIME_VALID : Field := ⟨0x5000020004, 0, 12, 1, .ro, 0, 0, 1⟩
/-- R99: COARSE, bits [11:11] of TBU.STATUS. -/
def TBU_STATUS_COARSE : Field := ⟨0x5000020004, 0, 11, 1, .ro, 0, 0, 1⟩
/-- R99: PPS_IN_OK, bits [10:10] of TBU.STATUS. -/
def TBU_STATUS_PPS_IN_OK : Field := ⟨0x5000020004, 0, 10, 1, .ro, 0, 0, 1⟩
/-- R99: SLEWING, bits [9:9] of TBU.STATUS. -/
def TBU_STATUS_SLEWING : Field := ⟨0x5000020004, 0, 9, 1, .ro, 0, 0, 1⟩
/-- R99: LAN, bits [8:8] of TBU.STATUS. -/
def TBU_STATUS_LAN : Field := ⟨0x5000020004, 0, 8, 1, .ro, 0, 0, 1⟩
/-- R99: STATE, bits [2:0] of TBU.STATUS. -/
def TBU_STATUS_STATE : Field := ⟨0x5000020004, 0, 0, 3, .ro, 0, 0, 7⟩
/-- R99: GT64, bits [63:0] of TBU.NOW. -/
def TBU_NOW_GT64 : Field := ⟨0x5000020010, 0, 0, 64, .ro, 0, 0, 18446744073709551615⟩
/-- R99: SEC_HI, bits [15:0] of TBU.NOW_SEC_HI. -/
def TBU_NOW_SEC_HI_SEC_HI : Field := ⟨0x5000020018, 0, 0, 16, .ro, 0, 0, 65535⟩
/-- R99: OFFSET, bits [63:0] of TBU.OFFSET. -/
def TBU_OFFSET_OFFSET : Field := ⟨0x5000020020, 0, 0, 64, .ro, 0, 0, 18446744073709551615⟩
/-- R99: DELAY, bits [31:0] of TBU.MEAN_LINK_DELAY. -/
def TBU_MEAN_LINK_DELAY_DELAY : Field := ⟨0x5000020028, 0, 0, 32, .ro, 0, 0, 4294967295⟩
/-- R99: RATE_ADJ, bits [31:0] of TBU.RATE_ADJ. -/
def TBU_RATE_ADJ_RATE_ADJ : Field := ⟨0x500002002C, 0, 0, 32, .ro, 0, 0, 4294967295⟩
/-- R99: PRIORITY1, bits [31:24] of TBU.CLOCK_DS. -/
def TBU_CLOCK_DS_PRIORITY1 : Field := ⟨0x5000020030, 0, 24, 8, .rwl, 128, 0, 255⟩
/-- R99: PRIORITY2, bits [23:16] of TBU.CLOCK_DS. -/
def TBU_CLOCK_DS_PRIORITY2 : Field := ⟨0x5000020030, 0, 16, 8, .rwl, 128, 0, 255⟩
/-- R99: HOLD_SPEC, bits [15:0] of TBU.CLOCK_DS. -/
def TBU_CLOCK_DS_HOLD_SPEC : Field := ⟨0x5000020030, 0, 0, 16, .rwl, 120, 0, 65535⟩
/-- R99: KI_SH, bits [12:8] of TBU.SERVO_CFG. -/
def TBU_SERVO_CFG_KI_SH : Field := ⟨0x5000020034, 0, 8, 5, .rwl, 4, 0, 31⟩
/-- R99: KP_SH, bits [4:0] of TBU.SERVO_CFG. -/
def TBU_SERVO_CFG_KP_SH : Field := ⟨0x5000020034, 0, 0, 5, .rwl, 8, 0, 31⟩
/-- R99: GM_ID, bits [63:0] of TBU.GM_ID. -/
def TBU_GM_ID_GM_ID : Field := ⟨0x5000020038, 0, 0, 64, .ro, 0, 0, 18446744073709551615⟩
/-- R99: OUT_COMP, bits [31:16] of TBU.PPS_CFG. -/
def TBU_PPS_CFG_OUT_COMP : Field := ⟨0x5000020040, 0, 16, 16, .rwl, 0, 0, 65535⟩
/-- R99: OUT_WIDTH, bits [15:8] of TBU.PPS_CFG. -/
def TBU_PPS_CFG_OUT_WIDTH : Field := ⟨0x5000020040, 0, 8, 8, .rwl, 10, 1, 50⟩
/-- R99: IN_MODE, bits [5:4] of TBU.PPS_CFG. -/
def TBU_PPS_CFG_IN_MODE : Field := ⟨0x5000020040, 0, 4, 2, .rwl, 0, 0, 2⟩
/-- R99: OUT_MODE, bits [1:0] of TBU.PPS_CFG. -/
def TBU_PPS_CFG_OUT_MODE : Field := ⟨0x5000020040, 0, 0, 2, .rwl, 1, 0, 2⟩
/-- R99: GT64, bits [63:0] of TBU.PPS_IN_TS. -/
def TBU_PPS_IN_TS_GT64 : Field := ⟨0x5000020048, 0, 0, 64, .ro, 0, 0, 18446744073709551615⟩
/-- R99: OFFSET, bits [31:0] of TBU.PPS_IN_OFFSET. -/
def TBU_PPS_IN_OFFSET_OFFSET : Field := ⟨0x5000020050, 0, 0, 32, .ro, 0, 0, 4294967295⟩
/-- R99: PTP_DISCARD, bits [31:16] of TBU.EVT_CNT. -/
def TBU_EVT_CNT_PTP_DISCARD : Field := ⟨0x5000020054, 0, 16, 16, .rc, 0, 0, 65535⟩
/-- R99: ANN_TIMEOUT, bits [15:8] of TBU.EVT_CNT. -/
def TBU_EVT_CNT_ANN_TIMEOUT : Field := ⟨0x5000020054, 0, 8, 8, .rc, 0, 0, 255⟩
/-- R99: PPS_IN_REJ, bits [7:0] of TBU.EVT_CNT. -/
def TBU_EVT_CNT_PPS_IN_REJ : Field := ⟨0x5000020054, 0, 0, 8, .rc, 0, 0, 255⟩
/-- R99: COARSE_CH, bits [23:0] of TBU.TDC_STATUS. -/
def TBU_TDC_STATUS_COARSE_CH : Field := ⟨0x5000020058, 0, 0, 24, .ro, 0, 0, 16777215⟩
/-- R99: RX_COMP, bits [31:16] of TBU.PORT_COMP. -/
def TBU_PORT_COMP_RX_COMP : Field := ⟨0x5000020100, 4, 16, 16, .rwl, 0, 0, 65535⟩
/-- R99: TX_COMP, bits [15:0] of TBU.PORT_COMP. -/
def TBU_PORT_COMP_TX_COMP : Field := ⟨0x5000020100, 4, 0, 16, .rwl, 0, 0, 65535⟩
/-- R104: MAX_FRAME, bits [31:20] of MAC.CTL. -/
def MAC_CTL_MAX_FRAME : Field := ⟨0x5000180000, 0, 20, 12, .rwl, 1518, 1518, 2000⟩
/-- R104: REDUN, bits [17:16] of MAC.CTL. -/
def MAC_CTL_REDUN : Field := ⟨0x5000180000, 0, 16, 2, .rwl, 0, 0, 2⟩
/-- R104: EEE_EN, bits [9:9] of MAC.CTL. -/
def MAC_CTL_EEE_EN : Field := ⟨0x5000180000, 0, 9, 1, .rwl, 0, 0, 1⟩
/-- R104: ROLE, bits [8:8] of MAC.CTL. -/
def MAC_CTL_ROLE : Field := ⟨0x5000180000, 0, 8, 1, .rwl, 0, 0, 1⟩
/-- R104: TX_PAUSE_EN, bits [5:5] of MAC.CTL. -/
def MAC_CTL_TX_PAUSE_EN : Field := ⟨0x5000180000, 0, 5, 1, .rwl, 0, 0, 1⟩
/-- R104: RX_PAUSE_EN, bits [4:4] of MAC.CTL. -/
def MAC_CTL_RX_PAUSE_EN : Field := ⟨0x5000180000, 0, 4, 1, .rwl, 0, 0, 1⟩
/-- R104: FEC, bits [3:3] of MAC.CTL. -/
def MAC_CTL_FEC : Field := ⟨0x5000180000, 0, 3, 1, .rwl, 0, 0, 1⟩
/-- R104: SPEED, bits [2:1] of MAC.CTL. -/
def MAC_CTL_SPEED : Field := ⟨0x5000180000, 0, 1, 2, .rwl, 0, 0, 2⟩
/-- R104: EN, bits [0:0] of MAC.CTL. -/
def MAC_CTL_EN : Field := ⟨0x5000180000, 0, 0, 1, .rwl, 0, 0, 1⟩
/-- R105: ADDR, bits [47:0] of MAC.ADDR. -/
def MAC_ADDR_ADDR : Field := ⟨0x5000180010, 0, 0, 48, .rwl, 0, 0, 281474976710655⟩
/-- R108: TW_TX, bits [31:16] of MAC.STATUS. -/
def MAC_STATUS_TW_TX : Field := ⟨0x5000180004, 0, 16, 16, .ro, 0, 0, 65535⟩
/-- R108: LLDP_EEE, bits [8:8] of MAC.STATUS. -/
def MAC_STATUS_LLDP_EEE : Field := ⟨0x5000180004, 0, 8, 1, .ro, 0, 0, 1⟩
/-- R108: RX_LPI, bits [7:7] of MAC.STATUS. -/
def MAC_STATUS_RX_LPI : Field := ⟨0x5000180004, 0, 7, 1, .ro, 0, 0, 1⟩
/-- R108: TX_LPI, bits [6:6] of MAC.STATUS. -/
def MAC_STATUS_TX_LPI : Field := ⟨0x5000180004, 0, 6, 1, .ro, 0, 0, 1⟩
/-- R108: PAUSE_IGN, bits [5:5] of MAC.STATUS. -/
def MAC_STATUS_PAUSE_IGN : Field := ⟨0x5000180004, 0, 5, 1, .ro, 0, 0, 1⟩
/-- R108: PAUSED, bits [4:4] of MAC.STATUS. -/
def MAC_STATUS_PAUSED : Field := ⟨0x5000180004, 0, 4, 1, .ro, 0, 0, 1⟩
/-- R108: FEC_LOCK, bits [3:3] of MAC.STATUS. -/
def MAC_STATUS_FEC_LOCK : Field := ⟨0x5000180004, 0, 3, 1, .ro, 0, 0, 1⟩
/-- R108: BLOCK_LOCK, bits [2:2] of MAC.STATUS. -/
def MAC_STATUS_BLOCK_LOCK : Field := ⟨0x5000180004, 0, 2, 1, .ro, 0, 0, 1⟩
/-- R108: LINK, bits [0:0] of MAC.STATUS. -/
def MAC_STATUS_LINK : Field := ⟨0x5000180004, 0, 0, 1, .ro, 0, 0, 1⟩
/-- R114: VALID, bits [63:63] of MAC.RX_STEER. -/
def MAC_RX_STEER_VALID : Field := ⟨0x5000180200, 8, 63, 1, .rwl, 0, 0, 1⟩
/-- R114: DA_CLASS, bits [62:61] of MAC.RX_STEER. -/
def MAC_RX_STEER_DA_CLASS : Field := ⟨0x5000180200, 8, 61, 2, .rwl, 0, 0, 3⟩
/-- R114: VID_EN, bits [60:60] of MAC.RX_STEER. -/
def MAC_RX_STEER_VID_EN : Field := ⟨0x5000180200, 8, 60, 1, .rwl, 0, 0, 1⟩
/-- R114: ETYPE_EN, bits [59:59] of MAC.RX_STEER. -/
def MAC_RX_STEER_ETYPE_EN : Field := ⟨0x5000180200, 8, 59, 1, .rwl, 0, 0, 1⟩
/-- R114: VID, bits [55:44] of MAC.RX_STEER. -/
def MAC_RX_STEER_VID : Field := ⟨0x5000180200, 8, 44, 12, .rwl, 0, 0, 4095⟩
/-- R114: ETYPE, bits [43:28] of MAC.RX_STEER. -/
def MAC_RX_STEER_ETYPE : Field := ⟨0x5000180200, 8, 28, 16, .rwl, 0, 0, 65535⟩
/-- R114: RING, bits [9:0] of MAC.RX_STEER. -/
def MAC_RX_STEER_RING : Field := ⟨0x5000180200, 8, 0, 10, .rwl, 0, 0, 1023⟩
/-- R114: VALID, bits [31:31] of MAC.RX_DEFAULT. -/
def MAC_RX_DEFAULT_VALID : Field := ⟨0x5000180018, 0, 31, 1, .rwl, 0, 0, 1⟩
/-- R114: RING, bits [9:0] of MAC.RX_DEFAULT. -/
def MAC_RX_DEFAULT_RING : Field := ⟨0x5000180018, 0, 0, 10, .rwl, 0, 0, 1023⟩
/-- R122: TX_QUANTA, bits [31:16] of MAC.PAUSE_CFG. -/
def MAC_PAUSE_CFG_TX_QUANTA : Field := ⟨0x5000180008, 0, 16, 16, .rwl, 65535, 0, 65535⟩
/-- R122: WD_TIME, bits [15:8] of MAC.PAUSE_CFG. -/
def MAC_PAUSE_CFG_WD_TIME : Field := ⟨0x5000180008, 0, 8, 8, .rwl, 10, 0, 255⟩
/-- R122: IGN_TIME, bits [7:0] of MAC.PAUSE_CFG. -/
def MAC_PAUSE_CFG_IGN_TIME : Field := ⟨0x5000180008, 0, 0, 8, .rwl, 10, 0, 255⟩
/-- R125: TW_RX_REQ, bits [31:16] of MAC.EEE_CFG. -/
def MAC_EEE_CFG_TW_RX_REQ : Field := ⟨0x500018000C, 0, 16, 16, .rwl, 16, 0, 65535⟩
/-- R125: IDLE_ENTRY, bits [15:8] of MAC.EEE_CFG. -/
def MAC_EEE_CFG_IDLE_ENTRY : Field := ⟨0x500018000C, 0, 8, 8, .rwl, 10, 0, 255⟩
/-- R127: COUNT, bits [63:0] of MAC.CNT. -/
def MAC_CNT_COUNT : Field := ⟨0x5000180100, 8, 0, 64, .rc, 0, 0, 18446744073709551615⟩
/-- R129: ALLOW, bits [1:1] of WVL.CTL. -/
def WVL_CTL_ALLOW : Field := ⟨0x5000140000, 0, 1, 1, .rwl, 0, 0, 1⟩
/-- R129: ARM, bits [0:0] of WVL.CTL. -/
def WVL_CTL_ARM : Field := ⟨0x5000140000, 0, 0, 1, .rw, 0, 0, 1⟩
/-- R129: EN, bits [63:63] of WVL.RULE_MATCH. -/
def WVL_RULE_MATCH_EN : Field := ⟨0x5000140100, 32, 63, 1, .rw, 0, 0, 1⟩
/-- R129: DIR, bits [62:62] of WVL.RULE_MATCH. -/
def WVL_RULE_MATCH_DIR : Field := ⟨0x5000140100, 32, 62, 1, .rw, 0, 0, 1⟩
/-- R129: PORT, bits [61:58] of WVL.RULE_MATCH. -/
def WVL_RULE_MATCH_PORT : Field := ⟨0x5000140100, 32, 58, 4, .rw, 0, 0, 15⟩
/-- R129: ETYPE_EN, bits [57:57] of WVL.RULE_MATCH. -/
def WVL_RULE_MATCH_ETYPE_EN : Field := ⟨0x5000140100, 32, 57, 1, .rw, 0, 0, 1⟩
/-- R129: APPID_EN, bits [56:56] of WVL.RULE_MATCH. -/
def WVL_RULE_MATCH_APPID_EN : Field := ⟨0x5000140100, 32, 56, 1, .rw, 0, 0, 1⟩
/-- R129: ETYPE, bits [55:40] of WVL.RULE_MATCH. -/
def WVL_RULE_MATCH_ETYPE : Field := ⟨0x5000140100, 32, 40, 16, .rw, 0, 0, 65535⟩
/-- R129: APPID, bits [39:24] of WVL.RULE_MATCH. -/
def WVL_RULE_MATCH_APPID : Field := ⟨0x5000140100, 32, 24, 16, .rw, 0, 0, 65535⟩
/-- R129: ACTION, bits [63:60] of WVL.RULE_ACTION. -/
def WVL_RULE_ACTION_ACTION : Field := ⟨0x5000140108, 32, 60, 4, .rw, 0, 0, 15⟩
/-- R129: OFFSET, bits [59:48] of WVL.RULE_ACTION. -/
def WVL_RULE_ACTION_OFFSET : Field := ⟨0x5000140108, 32, 48, 12, .rw, 0, 0, 4095⟩
/-- R129: DELAY, bits [47:32] of WVL.RULE_ACTION. -/
def WVL_RULE_ACTION_DELAY : Field := ⟨0x5000140108, 32, 32, 16, .rw, 0, 0, 65535⟩
/-- R129: MASK, bits [31:0] of WVL.RULE_ACTION. -/
def WVL_RULE_ACTION_MASK : Field := ⟨0x5000140108, 32, 0, 32, .rw, 0, 0, 4294967295⟩
/-- R129: EVERY, bits [31:16] of WVL.RULE_COUNT. -/
def WVL_RULE_COUNT_EVERY : Field := ⟨0x5000140110, 32, 16, 16, .rw, 0, 0, 65535⟩
/-- R129: LIMIT, bits [15:0] of WVL.RULE_COUNT. -/
def WVL_RULE_COUNT_LIMIT : Field := ⟨0x5000140110, 32, 0, 16, .rw, 0, 0, 65535⟩
/-- R129: HITS, bits [31:0] of WVL.RULE_HITS. -/
def WVL_RULE_HITS_HITS : Field := ⟨0x5000140114, 32, 0, 32, .rc, 0, 0, 4294967295⟩
/-- R133: BUSY, bits [31:31] of SCT.CMD. -/
def SCT_CMD_BUSY : Field := ⟨0x5000050000, 0, 31, 1, .ro, 0, 0, 1⟩
/-- R133: RESULT, bits [30:28] of SCT.CMD. -/
def SCT_CMD_RESULT : Field := ⟨0x5000050000, 0, 28, 3, .ro, 0, 0, 7⟩
/-- R133: OP, bits [27:24] of SCT.CMD. -/
def SCT_CMD_OP : Field := ⟨0x5000050000, 0, 24, 4, .wo, 0, 0, 15⟩
/-- R133: CLR, bits [23:23] of SCT.CMD. -/
def SCT_CMD_CLR : Field := ⟨0x5000050000, 0, 23, 1, .rw, 0, 0, 1⟩
/-- R133: INDEX, bits [14:0] of SCT.CMD. -/
def SCT_CMD_INDEX : Field := ⟨0x5000050000, 0, 0, 15, .rw, 0, 0, 32767⟩
/-- R134: WORD, bits [63:0] of SCT.DATA. -/
def SCT_DATA_WORD : Field := ⟨0x5000050100, 8, 0, 64, .rw, 0, 0, 18446744073709551615⟩
/-- R151: WORD, bits [63:0] of SCT.FSTAT. -/
def SCT_FSTAT_WORD : Field := ⟨0x5000050300, 8, 0, 64, .ro, 0, 0, 18446744073709551615⟩
/-- R155: WORD, bits [63:0] of SCT.STAT. -/
def SCT_STAT_WORD : Field := ⟨0x5000050200, 8, 0, 64, .ro, 0, 0, 18446744073709551615⟩
/-- R156: FEVT_RATE, bits [15:8] of ICL.CTL. -/
def ICL_CTL_FEVT_RATE : Field := ⟨0x5000040000, 0, 8, 8, .rwl, 16, 0, 255⟩
/-- R156: FOREIGN_EN, bits [4:4] of ICL.CTL. -/
def ICL_CTL_FOREIGN_EN : Field := ⟨0x5000040000, 0, 4, 1, .rwl, 1, 0, 1⟩
/-- R156: EN, bits [0:0] of ICL.CTL. -/
def ICL_CTL_EN : Field := ⟨0x5000040000, 0, 0, 1, .rwl, 0, 0, 1⟩
/-- R156: COUNT, bits [63:0] of ICL.CNT. -/
def ICL_CNT_COUNT : Field := ⟨0x5000040100, 8, 0, 64, .rc, 0, 0, 18446744073709551615⟩
/-- R198: EN, bits [0:0] of SLE.CTL. -/
def SLE_CTL_EN : Field := ⟨0x5000060000, 0, 0, 1, .rwl, 0, 0, 1⟩
/-- R198: RUN, bits [31:28] of SLE.STATUS. -/
def SLE_STATUS_RUN : Field := ⟨0x5000060004, 0, 28, 4, .ro, 0, 0, 15⟩
/-- R198: PROV_CNT, bits [15:0] of SLE.STATUS. -/
def SLE_STATUS_PROV_CNT : Field := ⟨0x5000060004, 0, 0, 16, .ro, 0, 0, 65535⟩
/-- R198: CH, bits [12:0] of SLE.CH_SEL. -/
def SLE_CH_SEL_CH : Field := ⟨0x5000060040, 0, 0, 13, .rw, 0, 0, 8191⟩
/-- R198: FED, bits [63:63] of SLE.CH_STAT. -/
def SLE_CH_STAT_FED : Field := ⟨0x5000060048, 0, 63, 1, .ro, 0, 0, 1⟩
/-- R198: AWAITED, bits [62:62] of SLE.CH_STAT. -/
def SLE_CH_STAT_AWAITED : Field := ⟨0x5000060048, 0, 62, 1, .ro, 0, 0, 1⟩
/-- R198: LAST_STATE, bits [61:60] of SLE.CH_STAT. -/
def SLE_CH_STAT_LAST_STATE : Field := ⟨0x5000060048, 0, 60, 2, .ro, 0, 0, 3⟩
/-- R198: PRED_RUN, bits [59:56] of SLE.CH_STAT. -/
def SLE_CH_STAT_PRED_RUN : Field := ⟨0x5000060048, 0, 56, 4, .ro, 0, 0, 15⟩
/-- R198: FEEDER, bits [55:44] of SLE.CH_STAT. -/
def SLE_CH_STAT_FEEDER : Field := ⟨0x5000060048, 0, 44, 12, .ro, 0, 0, 4095⟩
/-- R198: SUBST_TOTAL, bits [31:0] of SLE.CH_STAT. -/
def SLE_CH_STAT_SUBST_TOTAL : Field := ⟨0x5000060048, 0, 0, 32, .ro, 0, 0, 4294967295⟩
/-- R198: EN, bits [31:31] of SLE.LAT_CFG. -/
def SLE_LAT_CFG_EN : Field := ⟨0x5000060100, 64, 31, 1, .rwl, 0, 0, 1⟩
/-- R198: RATE, bits [30:28] of SLE.LAT_CFG. -/
def SLE_LAT_CFG_RATE : Field := ⟨0x5000060100, 64, 28, 3, .rwl, 0, 0, 4⟩
/-- R198: SPEC_EN, bits [27:27] of SLE.LAT_CFG. -/
def SLE_LAT_CFG_SPEC_EN : Field := ⟨0x5000060100, 64, 27, 1, .rw, 0, 0, 1⟩
/-- R198: SPEC_DEPTH, bits [26:25] of SLE.LAT_CFG. -/
def SLE_LAT_CFG_SPEC_DEPTH : Field := ⟨0x5000060100, 64, 25, 2, .rwl, 3, 0, 3⟩
/-- R198: F_NOM, bits [24:24] of SLE.LAT_CFG. -/
def SLE_LAT_CFG_F_NOM : Field := ⟨0x5000060100, 64, 24, 1, .rwl, 0, 0, 1⟩
/-- R198: SUBST_MAX, bits [23:20] of SLE.LAT_CFG. -/
def SLE_LAT_CFG_SUBST_MAX : Field := ⟨0x5000060100, 64, 20, 4, .rwl, 3, 0, 15⟩
/-- R198: ALIGN_DELAY, bits [31:20] of SLE.LAT_TIME. -/
def SLE_LAT_TIME_ALIGN_DELAY : Field := ⟨0x5000060104, 64, 20, 12, .rwl, 0, 0, 4095⟩
/-- R198: DEADLINE, bits [19:10] of SLE.LAT_TIME. -/
def SLE_LAT_TIME_DEADLINE : Field := ⟨0x5000060104, 64, 10, 10, .rwl, 120, 20, 1000⟩
/-- R198: PCLOSE, bits [9:0] of SLE.LAT_TIME. -/
def SLE_LAT_TIME_PCLOSE : Field := ⟨0x5000060104, 64, 0, 10, .rwl, 40, 0, 1023⟩
/-- R198: CH_BASE, bits [28:16] of SLE.LAT_CHAN. -/
def SLE_LAT_CHAN_CH_BASE : Field := ⟨0x5000060108, 64, 16, 13, .rwl, 0, 0, 8191⟩
/-- R198: CH_COUNT, bits [13:0] of SLE.LAT_CHAN. -/
def SLE_LAT_CHAN_CH_COUNT : Field := ⟨0x5000060108, 64, 0, 14, .rwl, 0, 0, 8192⟩
/-- R198: TOL_I, bits [31:16] of SLE.LAT_TOL. -/
def SLE_LAT_TOL_TOL_I : Field := ⟨0x500006010C, 64, 16, 16, .rw, 500, 0, 65535⟩
/-- R198: TOL_V, bits [15:8] of SLE.LAT_TOL. -/
def SLE_LAT_TOL_TOL_V : Field := ⟨0x500006010C, 64, 8, 8, .rw, 50, 0, 255⟩
/-- R198: TOL_REL, bits [7:0] of SLE.LAT_TOL. -/
def SLE_LAT_TOL_TOL_REL : Field := ⟨0x500006010C, 64, 0, 8, .rw, 4, 0, 255⟩
/-- R198: HIST, bits [31:20] of SLE.LAT_MEM. -/
def SLE_LAT_MEM_HIST : Field := ⟨0x5000060110, 64, 20, 12, .rwl, 0, 64, 4095⟩
/-- R198: CONF_BASE, bits [19:0] of SLE.LAT_MEM. -/
def SLE_LAT_MEM_CONF_BASE : Field := ⟨0x5000060110, 64, 0, 20, .rwl, 0, 0, 1048575⟩
/-- R198: PROV_BASE, bits [19:0] of SLE.LAT_PMEM. -/
def SLE_LAT_PMEM_PROV_BASE : Field := ⟨0x5000060114, 64, 0, 20, .rwl, 0, 0, 1048575⟩
/-- R198: PROV_CNT, bits [31:29] of SLE.LAT_STAT. -/
def SLE_LAT_STAT_PROV_CNT : Field := ⟨0x5000060118, 64, 29, 3, .ro, 0, 0, 7⟩
/-- R198: STALL, bits [28:28] of SLE.LAT_STAT. -/
def SLE_LAT_STAT_STALL : Field := ⟨0x5000060118, 64, 28, 1, .ro, 0, 0, 1⟩
/-- R198: WAIT_TAG, bits [27:27] of SLE.LAT_STAT. -/
def SLE_LAT_STAT_WAIT_TAG : Field := ⟨0x5000060118, 64, 27, 1, .ro, 0, 0, 1⟩
/-- R198: N, bits [63:0] of SLE.LAT_LAST_CONF. -/
def SLE_LAT_LAST_CONF_N : Field := ⟨0x5000060120, 64, 0, 64, .ro, 0, 0, 18446744073709551615⟩
/-- R198: N, bits [63:0] of SLE.LAT_LAST_CLOSE. -/
def SLE_LAT_LAST_CLOSE_N : Field := ⟨0x5000060128, 64, 0, 64, .ro, 0, 0, 18446744073709551615⟩
/-- R198: COUNT, bits [63:0] of SLE.LAT_CNT. -/
def SLE_LAT_CNT_COUNT : Field := ⟨0x5000060400, 8, 0, 64, .rc, 0, 0, 18446744073709551615⟩
/-- R199: COUNT, bits [63:0] of SMEM.CNT. -/
def SMEM_CNT_COUNT : Field := ⟨0x5000070040, 8, 0, 64, .rc, 0, 0, 18446744073709551615⟩
/-- R199: WORD, bits [22:20] of SMEM.ERR_ADDR. -/
def SMEM_ERR_ADDR_WORD : Field := ⟨0x5000070060, 0, 20, 3, .ro, 0, 0, 7⟩
/-- R199: LINE, bits [19:0] of SMEM.ERR_ADDR. -/
def SMEM_ERR_ADDR_LINE : Field := ⟨0x5000070060, 0, 0, 20, .ro, 0, 0, 1048575⟩
/-- R199: VALID, bits [63:63] of SMEM.REGION. -/
def SMEM_REGION_VALID : Field := ⟨0x5000070100, 8, 63, 1, .rwl, 0, 0, 1⟩
/-- R199: OWNER, bits [62:61] of SMEM.REGION. -/
def SMEM_REGION_OWNER : Field := ⟨0x5000070100, 8, 61, 2, .rwl, 0, 0, 3⟩
/-- R199: PROV, bits [60:60] of SMEM.REGION. -/
def SMEM_REGION_PROV : Field := ⟨0x5000070100, 8, 60, 1, .rwl, 0, 0, 1⟩
/-- R199: COLL, bits [59:59] of SMEM.REGION. -/
def SMEM_REGION_COLL : Field := ⟨0x5000070100, 8, 59, 1, .rwl, 0, 0, 1⟩
/-- R199: BASE, bits [39:20] of SMEM.REGION. -/
def SMEM_REGION_BASE : Field := ⟨0x5000070100, 8, 20, 20, .rwl, 0, 0, 1048575⟩
/-- R199: SIZE, bits [19:0] of SMEM.REGION. -/
def SMEM_REGION_SIZE : Field := ⟨0x5000070100, 8, 0, 20, .rwl, 0, 0, 1048575⟩
/-- R233: EN, bits [0:0] of PHE.CTL. -/
def PHE_CTL_EN : Field := ⟨0x5000080000, 0, 0, 1, .rwl, 0, 0, 1⟩
/-- R233: BUSY, bits [31:31] of PHE.CMD. -/
def PHE_CMD_BUSY : Field := ⟨0x5000080008, 0, 31, 1, .ro, 0, 0, 1⟩
/-- R233: RESULT, bits [30:28] of PHE.CMD. -/
def PHE_CMD_RESULT : Field := ⟨0x5000080008, 0, 28, 3, .ro, 0, 0, 7⟩
/-- R233: OP, bits [27:24] of PHE.CMD. -/
def PHE_CMD_OP : Field := ⟨0x5000080008, 0, 24, 4, .wo, 0, 0, 15⟩
/-- R233: TABLE, bits [23:20] of PHE.CMD. -/
def PHE_CMD_TABLE : Field := ⟨0x5000080008, 0, 20, 4, .rw, 0, 0, 15⟩
/-- R233: INDEX, bits [12:0] of PHE.CMD. -/
def PHE_CMD_INDEX : Field := ⟨0x5000080008, 0, 0, 13, .rw, 0, 0, 8191⟩
/-- R233: WORD, bits [63:0] of PHE.DATA. -/
def PHE_DATA_WORD : Field := ⟨0x5000080010, 8, 0, 64, .rw, 0, 0, 18446744073709551615⟩
/-- R233: PHIST, bits [63:52] of PHE.LAT_RES. -/
def PHE_LAT_RES_PHIST : Field := ⟨0x5000080100, 32, 52, 12, .rwl, 0, 16, 4095⟩
/-- R233: CONF_BASE, bits [51:32] of PHE.LAT_RES. -/
def PHE_LAT_RES_CONF_BASE : Field := ⟨0x5000080100, 32, 32, 20, .rwl, 0, 0, 1048575⟩
/-- R233: PROV_BASE, bits [19:0] of PHE.LAT_RES. -/
def PHE_LAT_RES_PROV_BASE : Field := ⟨0x5000080100, 32, 0, 20, .rwl, 0, 0, 1048575⟩
/-- R233: SET_OFF, bits [63:48] of PHE.LAT_SECT. -/
def PHE_LAT_SECT_SET_OFF : Field := ⟨0x5000080108, 32, 48, 16, .ro, 0, 0, 65535⟩
/-- R233: ZONE_OFF, bits [47:32] of PHE.LAT_SECT. -/
def PHE_LAT_SECT_ZONE_OFF : Field := ⟨0x5000080108, 32, 32, 16, .ro, 0, 0, 65535⟩
/-- R233: LOOP_OFF, bits [31:16] of PHE.LAT_SECT. -/
def PHE_LAT_SECT_LOOP_OFF : Field := ⟨0x5000080108, 32, 16, 16, .ro, 0, 0, 65535⟩
/-- R233: GRP_OFF, bits [15:0] of PHE.LAT_SECT. -/
def PHE_LAT_SECT_GRP_OFF : Field := ⟨0x5000080108, 32, 0, 16, .ro, 0, 0, 65535⟩
/-- R233: SLOT_LINES, bits [31:16] of PHE.LAT_INFO. -/
def PHE_LAT_INFO_SLOT_LINES : Field := ⟨0x5000080110, 32, 16, 16, .ro, 0, 0, 65535⟩
/-- R233: W, bits [8:0] of PHE.LAT_INFO. -/
def PHE_LAT_INFO_W : Field := ⟨0x5000080110, 32, 0, 9, .ro, 0, 0, 511⟩
/-- R233: F, bits [31:0] of PHE.GRP_F. -/
def PHE_GRP_F_F : Field := ⟨0x5000080200, 4, 0, 32, .ro, 0, 0, 4294967295⟩
/-- R233: COUNT, bits [63:0] of PHE.CNT. -/
def PHE_CNT_COUNT : Field := ⟨0x5000080400, 8, 0, 64, .rc, 0, 0, 18446744073709551615⟩
/-- R234: EN, bits [0:0] of GCM.CTL. -/
def GCM_CTL_EN : Field := ⟨0x5000090000, 0, 0, 1, .rwl, 0, 0, 1⟩
/-- R234: BUSY, bits [31:31] of GCM.CMD. -/
def GCM_CMD_BUSY : Field := ⟨0x5000090008, 0, 31, 1, .ro, 0, 0, 1⟩
/-- R234: RESULT, bits [30:28] of GCM.CMD. -/
def GCM_CMD_RESULT : Field := ⟨0x5000090008, 0, 28, 3, .ro, 0, 0, 7⟩
/-- R234: OP, bits [27:24] of GCM.CMD. -/
def GCM_CMD_OP : Field := ⟨0x5000090008, 0, 24, 4, .wo, 0, 0, 15⟩
/-- R234: INDEX, bits [11:0] of GCM.CMD. -/
def GCM_CMD_INDEX : Field := ⟨0x5000090008, 0, 0, 12, .rw, 0, 0, 4095⟩
/-- R234: WORD, bits [63:0] of GCM.DATA. -/
def GCM_DATA_WORD : Field := ⟨0x5000090010, 8, 0, 64, .rw, 0, 0, 18446744073709551615⟩
/-- R234: G_BASE, bits [27:16] of GCM.LAT_GUARDS. -/
def GCM_LAT_GUARDS_G_BASE : Field := ⟨0x5000090100, 32, 16, 12, .rwl, 0, 0, 4095⟩
/-- R234: G_COUNT, bits [12:0] of GCM.LAT_GUARDS. -/
def GCM_LAT_GUARDS_G_COUNT : Field := ⟨0x5000090100, 32, 0, 13, .rwl, 0, 0, 4096⟩
/-- R234: GHIST, bits [63:52] of GCM.LAT_RES. -/
def GCM_LAT_RES_GHIST : Field := ⟨0x5000090108, 32, 52, 12, .rwl, 0, 16, 4095⟩
/-- R234: CONF_BASE, bits [51:32] of GCM.LAT_RES. -/
def GCM_LAT_RES_CONF_BASE : Field := ⟨0x5000090108, 32, 32, 20, .rwl, 0, 0, 1048575⟩
/-- R234: PROV_BASE, bits [19:0] of GCM.LAT_RES. -/
def GCM_LAT_RES_PROV_BASE : Field := ⟨0x5000090108, 32, 0, 20, .rwl, 0, 0, 1048575⟩
/-- R234: EN, bits [31:31] of GCM.CPW_MAP. -/
def GCM_CPW_MAP_EN : Field := ⟨0x5000090200, 4, 31, 1, .rwl, 0, 0, 1⟩
/-- R234: GUARD, bits [11:0] of GCM.CPW_MAP. -/
def GCM_CPW_MAP_GUARD : Field := ⟨0x5000090200, 4, 0, 12, .rwl, 0, 0, 4095⟩
/-- R234: SEQ, bits [31:28] of GCM.CPW. -/
def GCM_CPW_SEQ : Field := ⟨0x5000090240, 0, 28, 4, .ro, 0, 0, 15⟩
/-- R234: WORD, bits [15:0] of GCM.CPW. -/
def GCM_CPW_WORD : Field := ⟨0x5000090240, 0, 0, 16, .ro, 0, 0, 65535⟩
/-- R234: COUNT, bits [63:0] of GCM.CNT. -/
def GCM_CNT_COUNT : Field := ⟨0x5000090400, 8, 0, 64, .rc, 0, 0, 18446744073709551615⟩
/-- R270: ONLINE_ALLOW, bits [2:2] of SLP.CTL. -/
def SLP_CTL_ONLINE_ALLOW : Field := ⟨0x50000A0000, 0, 2, 1, .rwl, 0, 0, 1⟩
/-- R270: FORCE_ALLOW, bits [1:1] of SLP.CTL. -/
def SLP_CTL_FORCE_ALLOW : Field := ⟨0x50000A0000, 0, 1, 1, .rwl, 0, 0, 1⟩
/-- R270: EN, bits [0:0] of SLP.CTL. -/
def SLP_CTL_EN : Field := ⟨0x50000A0000, 0, 0, 1, .rwl, 0, 0, 1⟩
/-- R270: FORCES, bits [31:21] of SLP.STATUS. -/
def SLP_STATUS_FORCES : Field := ⟨0x50000A0004, 0, 21, 11, .ro, 0, 0, 2047⟩
/-- R270: LOAD_SLOT, bits [20:13] of SLP.STATUS. -/
def SLP_STATUS_LOAD_SLOT : Field := ⟨0x50000A0004, 0, 13, 8, .ro, 0, 0, 255⟩
/-- R270: LOAD_STATE, bits [12:10] of SLP.STATUS. -/
def SLP_STATUS_LOAD_STATE : Field := ⟨0x50000A0004, 0, 10, 3, .ro, 0, 0, 7⟩
/-- R271: BUSY, bits [31:31] of SLP.CMD. -/
def SLP_CMD_BUSY : Field := ⟨0x50000A0008, 0, 31, 1, .ro, 0, 0, 1⟩
/-- R271: RESULT, bits [30:28] of SLP.CMD. -/
def SLP_CMD_RESULT : Field := ⟨0x50000A0008, 0, 28, 3, .ro, 0, 0, 7⟩
/-- R271: OP, bits [27:24] of SLP.CMD. -/
def SLP_CMD_OP : Field := ⟨0x50000A0008, 0, 24, 4, .wo, 0, 0, 15⟩
/-- R271: TABLE, bits [23:20] of SLP.CMD. -/
def SLP_CMD_TABLE : Field := ⟨0x50000A0008, 0, 20, 4, .rw, 0, 0, 9⟩
/-- R271: INDEX, bits [17:0] of SLP.CMD. -/
def SLP_CMD_INDEX : Field := ⟨0x50000A0008, 0, 0, 18, .rw, 0, 0, 262143⟩
/-- R271: WORD, bits [63:0] of SLP.DATA. -/
def SLP_DATA_WORD : Field := ⟨0x50000A0010, 8, 0, 64, .rw, 0, 0, 18446744073709551615⟩
/-- R272: MAX_EXEC, bits [63:32] of SLP.CLASS_STAT. -/
def SLP_CLASS_STAT_MAX_EXEC : Field := ⟨0x50000A0100, 16, 32, 32, .rc, 0, 0, 4294967295⟩
/-- R272: LAST_EXEC, bits [31:0] of SLP.CLASS_STAT. -/
def SLP_CLASS_STAT_LAST_EXEC : Field := ⟨0x50000A0100, 16, 0, 32, .ro, 0, 0, 4294967295⟩
/-- R272: CYCLES, bits [63:32] of SLP.CLASS_CNT. -/
def SLP_CLASS_CNT_CYCLES : Field := ⟨0x50000A0108, 16, 32, 32, .rc, 0, 0, 4294967295⟩
/-- R272: SKIP, bits [31:16] of SLP.CLASS_CNT. -/
def SLP_CLASS_CNT_SKIP : Field := ⟨0x50000A0108, 16, 16, 16, .rc, 0, 0, 65535⟩
/-- R272: WARN, bits [15:0] of SLP.CLASS_CNT. -/
def SLP_CLASS_CNT_WARN : Field := ⟨0x50000A0108, 16, 0, 16, .rc, 0, 0, 65535⟩
/-- R272: COUNT, bits [63:0] of SLP.CNT. -/
def SLP_CNT_COUNT : Field := ⟨0x50000A0400, 8, 0, 64, .rc, 0, 0, 18446744073709551615⟩
/-- R292: EN, bits [0:0] of PUB.CTL. -/
def PUB_CTL_EN : Field := ⟨0x50000B0000, 0, 0, 1, .rwl, 0, 0, 1⟩
/-- R292: STAGED, bits [31:18] of PUB.STATUS. -/
def PUB_STATUS_STAGED : Field := ⟨0x50000B0004, 0, 18, 14, .ro, 0, 0, 16383⟩
/-- R292: GAP, bits [1:1] of PUB.STATUS. -/
def PUB_STATUS_GAP : Field := ⟨0x50000B0004, 0, 1, 1, .ro, 0, 0, 1⟩
/-- R292: SEND, bits [0:0] of PUB.STATUS. -/
def PUB_STATUS_SEND : Field := ⟨0x50000B0004, 0, 0, 1, .ro, 0, 0, 1⟩
/-- R292: BUSY, bits [31:31] of PUB.CMD. -/
def PUB_CMD_BUSY : Field := ⟨0x50000B0008, 0, 31, 1, .ro, 0, 0, 1⟩
/-- R292: RESULT, bits [30:28] of PUB.CMD. -/
def PUB_CMD_RESULT : Field := ⟨0x50000B0008, 0, 28, 3, .ro, 0, 0, 7⟩
/-- R292: OP, bits [27:24] of PUB.CMD. -/
def PUB_CMD_OP : Field := ⟨0x50000B0008, 0, 24, 4, .wo, 0, 0, 15⟩
/-- R292: INDEX, bits [14:0] of PUB.CMD. -/
def PUB_CMD_INDEX : Field := ⟨0x50000B0008, 0, 0, 15, .rw, 0, 0, 32767⟩
/-- R292: WORD, bits [63:0] of PUB.DATA. -/
def PUB_DATA_WORD : Field := ⟨0x50000B0010, 8, 0, 64, .rw, 0, 0, 18446744073709551615⟩
/-- R293: WORD, bits [63:0] of PUB.STAT. -/
def PUB_STAT_WORD : Field := ⟨0x50000B0200, 8, 0, 64, .ro, 0, 0, 18446744073709551615⟩
/-- R293: COUNT, bits [63:0] of PUB.CNT. -/
def PUB_CNT_COUNT : Field := ⟨0x50000B0400, 8, 0, 64, .rc, 0, 0, 18446744073709551615⟩
/-- R320: EN, bits [0:0] of DRE.CTL. -/
def DRE_CTL_EN : Field := ⟨0x50000C0000, 0, 0, 1, .rwl, 0, 0, 1⟩
/-- R320: RECORDING, bits [31:25] of DRE.STATUS. -/
def DRE_STATUS_RECORDING : Field := ⟨0x50000C0004, 0, 25, 7, .ro, 0, 0, 127⟩
/-- R320: ARMED, bits [24:18] of DRE.STATUS. -/
def DRE_STATUS_ARMED : Field := ⟨0x50000C0004, 0, 18, 7, .ro, 0, 0, 127⟩
/-- R320: FULL, bits [17:11] of DRE.STATUS. -/
def DRE_STATUS_FULL : Field := ⟨0x50000C0004, 0, 11, 7, .ro, 0, 0, 127⟩
/-- R320: BUSY, bits [31:31] of DRE.CMD. -/
def DRE_CMD_BUSY : Field := ⟨0x50000C0008, 0, 31, 1, .ro, 0, 0, 1⟩
/-- R320: RESULT, bits [30:28] of DRE.CMD. -/
def DRE_CMD_RESULT : Field := ⟨0x50000C0008, 0, 28, 3, .ro, 0, 0, 7⟩
/-- R320: OP, bits [27:24] of DRE.CMD. -/
def DRE_CMD_OP : Field := ⟨0x50000C0008, 0, 24, 4, .wo, 0, 0, 15⟩
/-- R320: TABLE, bits [23:20] of DRE.CMD. -/
def DRE_CMD_TABLE : Field := ⟨0x50000C0008, 0, 20, 4, .rw, 0, 0, 15⟩
/-- R320: INDEX, bits [13:0] of DRE.CMD. -/
def DRE_CMD_INDEX : Field := ⟨0x50000C0008, 0, 0, 14, .rw, 0, 0, 16383⟩
/-- R320: WORD, bits [63:0] of DRE.DATA. -/
def DRE_DATA_WORD : Field := ⟨0x50000C0010, 8, 0, 64, .rw, 0, 0, 18446744073709551615⟩
/-- R321: WORD, bits [63:0] of DRE.STAT. -/
def DRE_STAT_WORD : Field := ⟨0x50000C0200, 8, 0, 64, .ro, 0, 0, 18446744073709551615⟩
/-- R321: COUNT, bits [63:0] of DRE.CNT. -/
def DRE_CNT_COUNT : Field := ⟨0x50000C0400, 8, 0, 64, .rc, 0, 0, 18446744073709551615⟩
/-- R332: SLICE, bits [22:16] of SLT.SP_ID. -/
def SLT_SP_ID_SLICE : Field := ⟨0x5100000000, 0, 16, 7, .ro, 0, 0, 127⟩
/-- R332: GEN, bits [15:8] of SLT.SP_ID. -/
def SLT_SP_ID_GEN : Field := ⟨0x5100000000, 0, 8, 8, .ro, 0, 0, 255⟩
/-- R332: STATE, bits [2:0] of SLT.SP_ID. -/
def SLT_SP_ID_STATE : Field := ⟨0x5100000000, 0, 0, 3, .ro, 0, 0, 7⟩
/-- R332: INFLIGHT_NOW, bits [31:16] of SLT.SP_STATUS. -/
def SLT_SP_STATUS_INFLIGHT_NOW : Field := ⟨0x5100000004, 0, 16, 16, .ro, 0, 0, 65535⟩
/-- R332: PV_EN, bits [15:15] of SLT.SP_STATUS. -/
def SLT_SP_STATUS_PV_EN : Field := ⟨0x5100000004, 0, 15, 1, .ro, 0, 0, 1⟩
/-- R332: PV_LAT, bits [14:11] of SLT.SP_STATUS. -/
def SLT_SP_STATUS_PV_LAT : Field := ⟨0x5100000004, 0, 11, 4, .ro, 0, 0, 15⟩
/-- R332: REFUSED, bits [31:16] of SLT.SP_ERR. -/
def SLT_SP_ERR_REFUSED : Field := ⟨0x5100000008, 0, 16, 16, .rc, 0, 0, 65535⟩
/-- R332: DB_ERR, bits [15:0] of SLT.SP_ERR. -/
def SLT_SP_ERR_DB_ERR : Field := ⟨0x5100000008, 0, 0, 16, .rc, 0, 0, 65535⟩
/-- R332: INDEX, bits [15:0] of SLT.SP_DB. -/
def SLT_SP_DB_INDEX : Field := ⟨0x5100000400, 16, 0, 16, .rw, 0, 0, 65535⟩
/-- R332: RSTATE, bits [31:29] of SLT.SP_RSTAT. -/
def SLT_SP_RSTAT_RSTATE : Field := ⟨0x5100000404, 16, 29, 3, .ro, 0, 0, 7⟩
/-- R332: HELD, bits [28:28] of SLT.SP_RSTAT. -/
def SLT_SP_RSTAT_HELD : Field := ⟨0x5100000404, 16, 28, 1, .ro, 0, 0, 1⟩
/-- R332: KIND, bits [27:26] of SLT.SP_RSTAT. -/
def SLT_SP_RSTAT_KIND : Field := ⟨0x5100000404, 16, 26, 2, .ro, 0, 0, 3⟩
/-- R332: RING, bits [25:16] of SLT.SP_RSTAT. -/
def SLT_SP_RSTAT_RING : Field := ⟨0x5100000404, 16, 16, 10, .ro, 0, 0, 1023⟩
/-- R332: HEAD, bits [15:0] of SLT.SP_RSTAT. -/
def SLT_SP_RSTAT_HEAD : Field := ⟨0x5100000404, 16, 0, 16, .ro, 0, 0, 65535⟩
/-- R332: FLAGS, bits [63:0] of SLT.SP_F. -/
def SLT_SP_F_FLAGS : Field := ⟨0x5100001000, 8, 0, 64, .rw, 0, 0, 18446744073709551615⟩
/-- R332: WINDOW, bits [63:0] of SLT.SP_WIN. -/
def SLT_SP_WIN_WINDOW : Field := ⟨0x5100002000, 8, 0, 64, .ro, 0, 0, 18446744073709551615⟩
/-- R353: CORE_CHECK, bits [16:16] of SLT.CTL. -/
def SLT_CTL_CORE_CHECK : Field := ⟨0x5000030000, 0, 16, 1, .rwl, 0, 0, 1⟩
/-- R353: STAT_I, bits [15:0] of SLT.CTL. -/
def SLT_CTL_STAT_I : Field := ⟨0x5000030000, 0, 0, 16, .rwl, 65535, 0, 65535⟩
/-- R353: CREDIT_FREE, bits [31:16] of SLT.POOL. -/
def SLT_POOL_CREDIT_FREE : Field := ⟨0x5000030004, 0, 16, 16, .ro, 16384, 0, 65535⟩
/-- R353: PASID_FREE, bits [15:0] of SLT.POOL. -/
def SLT_POOL_PASID_FREE : Field := ⟨0x5000030004, 0, 0, 16, .ro, 4096, 0, 65535⟩
/-- R353: DWIN_FREE, bits [10:0] of SLT.POOL_WIN. -/
def SLT_POOL_WIN_DWIN_FREE : Field := ⟨0x5000030008, 0, 0, 11, .ro, 1024, 0, 2047⟩
/-- R353: BUSY, bits [31:31] of SLT.CMD. -/
def SLT_CMD_BUSY : Field := ⟨0x5000030010, 0, 31, 1, .ro, 0, 0, 1⟩
/-- R353: RESULT, bits [30:28] of SLT.CMD. -/
def SLT_CMD_RESULT : Field := ⟨0x5000030010, 0, 28, 3, .ro, 0, 0, 7⟩
/-- R353: OP, bits [27:24] of SLT.CMD. -/
def SLT_CMD_OP : Field := ⟨0x5000030010, 0, 24, 4, .wo, 0, 0, 15⟩
/-- R353: CLR, bits [23:23] of SLT.CMD. -/
def SLT_CMD_CLR : Field := ⟨0x5000030010, 0, 23, 1, .rw, 0, 0, 1⟩
/-- R353: TABLE, bits [22:20] of SLT.CMD. -/
def SLT_CMD_TABLE : Field := ⟨0x5000030010, 0, 20, 3, .rw, 0, 0, 7⟩
/-- R353: INDEX, bits [11:0] of SLT.CMD. -/
def SLT_CMD_INDEX : Field := ⟨0x5000030010, 0, 0, 12, .rw, 0, 0, 4095⟩
/-- R353: WORD, bits [63:0] of SLT.DATA. -/
def SLT_DATA_WORD : Field := ⟨0x5000030018, 8, 0, 64, .rw, 0, 0, 18446744073709551615⟩
/-- R354: COUNT, bits [63:0] of SLT.CNT. -/
def SLT_CNT_COUNT : Field := ⟨0x5000030100, 8, 0, 64, .rc, 0, 0, 18446744073709551615⟩
/-- R380: SOLO_WAIT, bits [31:16] of PRC.CTL. -/
def PRC_CTL_SOLO_WAIT : Field := ⟨0x50000E0000, 0, 16, 16, .rwl, 0, 0, 65535⟩
/-- R380: LOSS_TIME, bits [15:8] of PRC.CTL. -/
def PRC_CTL_LOSS_TIME : Field := ⟨0x50000E0000, 0, 8, 8, .rwl, 10, 5, 200⟩
/-- R380: SWITCH_EN, bits [2:2] of PRC.CTL. -/
def PRC_CTL_SWITCH_EN : Field := ⟨0x50000E0000, 0, 2, 1, .rwl, 0, 0, 1⟩
/-- R380: PAIRED, bits [1:1] of PRC.CTL. -/
def PRC_CTL_PAIRED : Field := ⟨0x50000E0000, 0, 1, 1, .rwl, 0, 0, 1⟩
/-- R380: EN, bits [0:0] of PRC.CTL. -/
def PRC_CTL_EN : Field := ⟨0x50000E0000, 0, 0, 1, .rwl, 0, 0, 1⟩
/-- R380: FENCE_REASON, bits [31:28] of PRC.STATUS. -/
def PRC_STATUS_FENCE_REASON : Field := ⟨0x50000E0004, 0, 28, 4, .ro, 1, 0, 15⟩
/-- R380: SWITCHING, bits [11:11] of PRC.STATUS. -/
def PRC_STATUS_SWITCHING : Field := ⟨0x50000E0004, 0, 11, 1, .ro, 0, 0, 1⟩
/-- R380: LEASE, bits [10:10] of PRC.STATUS. -/
def PRC_STATUS_LEASE : Field := ⟨0x50000E0004, 0, 10, 1, .ro, 0, 0, 1⟩
/-- R380: GAP, bits [9:9] of PRC.STATUS. -/
def PRC_STATUS_GAP : Field := ⟨0x50000E0004, 0, 9, 1, .ro, 0, 0, 1⟩
/-- R380: ALIGNED, bits [8:8] of PRC.STATUS. -/
def PRC_STATUS_ALIGNED : Field := ⟨0x50000E0004, 0, 8, 1, .ro, 0, 0, 1⟩
/-- R380: READY, bits [7:7] of PRC.STATUS. -/
def PRC_STATUS_READY : Field := ⟨0x50000E0004, 0, 7, 1, .ro, 0, 0, 1⟩
/-- R380: HEARD_CIC, bits [6:6] of PRC.STATUS. -/
def PRC_STATUS_HEARD_CIC : Field := ⟨0x50000E0004, 0, 6, 1, .ro, 0, 0, 1⟩
/-- R380: HEARD_K, bits [5:5] of PRC.STATUS. -/
def PRC_STATUS_HEARD_K : Field := ⟨0x50000E0004, 0, 5, 1, .ro, 0, 0, 1⟩
/-- R380: ROLE, bits [1:0] of PRC.STATUS. -/
def PRC_STATUS_ROLE : Field := ⟨0x50000E0004, 0, 0, 2, .ro, 3, 0, 3⟩
/-- R380: EPOCH, bits [31:0] of PRC.EPOCH. -/
def PRC_EPOCH_EPOCH : Field := ⟨0x50000E0008, 0, 0, 32, .ro, 0, 0, 4294967295⟩
/-- R380: BLOCK, bits [63:0] of PRC.PEER. -/
def PRC_PEER_BLOCK : Field := ⟨0x50000E0010, 8, 0, 64, .ro, 0, 0, 18446744073709551615⟩
/-- R380: AGE_K, bits [31:16] of PRC.PEER_AGE. -/
def PRC_PEER_AGE_AGE_K : Field := ⟨0x50000E0020, 0, 16, 16, .ro, 65535, 0, 65535⟩
/-- R380: AGE_CIC, bits [15:0] of PRC.PEER_AGE. -/
def PRC_PEER_AGE_AGE_CIC : Field := ⟨0x50000E0020, 0, 0, 16, .ro, 65535, 0, 65535⟩
/-- R380: COUNT, bits [63:0] of PRC.CNT. -/
def PRC_CNT_COUNT : Field := ⟨0x50000E0100, 8, 0, 64, .rc, 0, 0, 18446744073709551615⟩
/-- R381: ARR_OFFSET, bits [31:16] of PRC_CIC.STATUS. -/
def PRC_CIC_STATUS_ARR_OFFSET : Field := ⟨0x50000F0000, 0, 16, 16, .ro, 0, 0, 65535⟩
/-- R381: LINE_ACTIVE, bits [1:1] of PRC_CIC.STATUS. -/
def PRC_CIC_STATUS_LINE_ACTIVE : Field := ⟨0x50000F0000, 0, 1, 1, .ro, 0, 0, 1⟩
/-- R381: TX_ON, bits [0:0] of PRC_CIC.STATUS. -/
def PRC_CIC_STATUS_TX_ON : Field := ⟨0x50000F0000, 0, 0, 1, .ro, 0, 0, 1⟩
/-- R381: COUNT, bits [63:0] of PRC_CIC.CNT. -/
def PRC_CIC_CNT_COUNT : Field := ⟨0x50000F0100, 8, 0, 64, .rc, 0, 0, 18446744073709551615⟩
/-- R405: EN, bits [0:0] of PSC.CTL. -/
def PSC_CTL_EN : Field := ⟨0x5000100000, 0, 0, 1, .rwl, 0, 0, 1⟩
/-- R405: ISTATE, bits [31:28] of PSC.STATUS. -/
def PSC_STATUS_ISTATE : Field := ⟨0x5000100004, 0, 28, 4, .ro, 0, 0, 15⟩
/-- R405: FAULT_CAUSE, bits [27:24] of PSC.STATUS. -/
def PSC_STATUS_FAULT_CAUSE : Field := ⟨0x5000100004, 0, 24, 4, .ro, 0, 0, 15⟩
/-- R405: CPW_STALE, bits [19:19] of PSC.STATUS. -/
def PSC_STATUS_CPW_STALE : Field := ⟨0x5000100004, 0, 19, 1, .ro, 0, 0, 1⟩
/-- R405: ROOT_FAULT, bits [18:18] of PSC.STATUS. -/
def PSC_STATUS_ROOT_FAULT : Field := ⟨0x5000100004, 0, 18, 1, .ros, 0, 0, 1⟩
/-- R405: OUT_FAULT, bits [15:12] of PSC.STATUS. -/
def PSC_STATUS_OUT_FAULT : Field := ⟨0x5000100004, 0, 12, 4, .ro, 0, 0, 15⟩
/-- R405: ENERGISED, bits [11:8] of PSC.STATUS. -/
def PSC_STATUS_ENERGISED : Field := ⟨0x5000100004, 0, 8, 4, .ro, 0, 0, 15⟩
/-- R405: SFB, bits [7:4] of PSC.STATUS. -/
def PSC_STATUS_SFB : Field := ⟨0x5000100004, 0, 4, 4, .ro, 0, 0, 15⟩
/-- R405: CPW_SEQ, bits [3:0] of PSC.STATUS. -/
def PSC_STATUS_CPW_SEQ : Field := ⟨0x5000100004, 0, 0, 4, .ro, 0, 0, 15⟩
/-- R405: CRC, bits [31:0] of PSC.PARAM_CRC. -/
def PSC_PARAM_CRC_CRC : Field := ⟨0x5000100008, 0, 0, 32, .rwl, 0, 0, 4294967295⟩
/-- R405: FAULT, bits [31:16] of PSC.IN_STAT. -/
def PSC_IN_STAT_FAULT : Field := ⟨0x5000100010, 0, 16, 16, .ro, 0, 0, 65535⟩
/-- R405: CLOSED, bits [15:0] of PSC.IN_STAT. -/
def PSC_IN_STAT_CLOSED : Field := ⟨0x5000100010, 0, 0, 16, .ro, 0, 0, 65535⟩
/-- R405: THL_PERMIT, bits [19:16] of PSC.FUNC_STAT. -/
def PSC_FUNC_STAT_THL_PERMIT : Field := ⟨0x5000100014, 0, 16, 4, .ro, 0, 0, 15⟩
/-- R405: DOOR_OK, bits [15:8] of PSC.FUNC_STAT. -/
def PSC_FUNC_STAT_DOOR_OK : Field := ⟨0x5000100014, 0, 8, 8, .ro, 0, 0, 255⟩
/-- R405: ETP_OK, bits [7:0] of PSC.FUNC_STAT. -/
def PSC_FUNC_STAT_ETP_OK : Field := ⟨0x5000100014, 0, 0, 8, .ro, 0, 0, 255⟩
/-- R405: EN, bits [31:31] of PSC.IN_CFG. -/
def PSC_IN_CFG_EN : Field := ⟨0x5000100100, 4, 31, 1, .rwl, 0, 0, 1⟩
/-- R405: TP_EN, bits [30:30] of PSC.IN_CFG. -/
def PSC_IN_CFG_TP_EN : Field := ⟨0x5000100100, 4, 30, 1, .rwl, 0, 0, 1⟩
/-- R405: DISC, bits [23:16] of PSC.IN_CFG. -/
def PSC_IN_CFG_DISC : Field := ⟨0x5000100100, 4, 16, 8, .rwl, 0, 0, 255⟩
/-- R405: FILT, bits [3:0] of PSC.IN_CFG. -/
def PSC_IN_CFG_FILT : Field := ⟨0x5000100100, 4, 0, 4, .rwl, 0, 0, 15⟩
/-- R405: EN, bits [31:31] of PSC.FUNC_CFG. -/
def PSC_FUNC_CFG_EN : Field := ⟨0x5000100200, 4, 31, 1, .rwl, 0, 0, 1⟩
/-- R405: RESET_MODE, bits [30:29] of PSC.FUNC_CFG. -/
def PSC_FUNC_CFG_RESET_MODE : Field := ⟨0x5000100200, 4, 29, 2, .rwl, 0, 0, 2⟩
/-- R405: RESET_IN, bits [27:24] of PSC.FUNC_CFG. -/
def PSC_FUNC_CFG_RESET_IN : Field := ⟨0x5000100200, 4, 24, 4, .rwl, 0, 0, 15⟩
/-- R405: INPUTS, bits [15:0] of PSC.FUNC_CFG. -/
def PSC_FUNC_CFG_INPUTS : Field := ⟨0x5000100200, 4, 0, 16, .rwl, 0, 0, 65535⟩
/-- R405: EN, bits [31:31] of PSC.OUT_CFG. -/
def PSC_OUT_CFG_EN : Field := ⟨0x5000100300, 4, 31, 1, .rwl, 0, 0, 1⟩
/-- R405: FB_TIME, bits [30:24] of PSC.OUT_CFG. -/
def PSC_OUT_CFG_FB_TIME : Field := ⟨0x5000100300, 4, 24, 7, .rwl, 0, 0, 127⟩
/-- R405: MAP, bits [23:0] of PSC.OUT_CFG. -/
def PSC_OUT_CFG_MAP : Field := ⟨0x5000100300, 4, 0, 24, .rwl, 0, 0, 16777215⟩
/-- R405: COUNT, bits [63:0] of PSC.CNT. -/
def PSC_CNT_COUNT : Field := ⟨0x5000100400, 8, 0, 64, .rc, 0, 0, 18446744073709551615⟩
/-- R406: CPW_TIMEOUT, bits [31:24] of PSC_ARC.CTL. -/
def PSC_ARC_CTL_CPW_TIMEOUT : Field := ⟨0x5000110000, 0, 24, 8, .rwl, 2, 1, 20⟩
/-- R406: CUR_FALLBACK, bits [23:23] of PSC_ARC.CTL. -/
def PSC_ARC_CTL_CUR_FALLBACK : Field := ⟨0x5000110000, 0, 23, 1, .rwl, 0, 0, 1⟩
/-- R406: LHOLD, bits [15:8] of PSC_ARC.CTL. -/
def PSC_ARC_CTL_LHOLD : Field := ⟨0x5000110000, 0, 8, 8, .rwl, 20, 1, 255⟩
/-- R406: ARCT_PERIOD, bits [7:0] of PSC_ARC.CTL. -/
def PSC_ARC_CTL_ARCT_PERIOD : Field := ⟨0x5000110000, 0, 0, 8, .rwl, 100, 1, 255⟩
/-- R406: EN, bits [31:31] of PSC_ARC.CH_CFG. -/
def PSC_ARC_CH_CFG_EN : Field := ⟨0x5000110100, 4, 31, 1, .rwl, 0, 0, 1⟩
/-- R406: LTEST, bits [26:16] of PSC_ARC.CH_CFG. -/
def PSC_ARC_CH_CFG_LTEST : Field := ⟨0x5000110100, 4, 16, 11, .rwl, 0, 0, 2047⟩
/-- R406: LCONF, bits [15:12] of PSC_ARC.CH_CFG. -/
def PSC_ARC_CH_CFG_LCONF : Field := ⟨0x5000110100, 4, 12, 4, .rwl, 0, 0, 15⟩
/-- R406: LTH, bits [10:0] of PSC_ARC.CH_CFG. -/
def PSC_ARC_CH_CFG_LTH : Field := ⟨0x5000110100, 4, 0, 11, .rwl, 0, 0, 2047⟩
/-- R406: LIGHT, bits [31:31] of PSC_ARC.CH_STAT. -/
def PSC_ARC_CH_STAT_LIGHT : Field := ⟨0x5000110180, 4, 31, 1, .ro, 0, 0, 1⟩
/-- R406: SENS_FAULT, bits [30:30] of PSC_ARC.CH_STAT. -/
def PSC_ARC_CH_STAT_SENS_FAULT : Field := ⟨0x5000110180, 4, 30, 1, .ro, 0, 0, 1⟩
/-- R406: L_MAX, bits [26:16] of PSC_ARC.CH_STAT. -/
def PSC_ARC_CH_STAT_L_MAX : Field := ⟨0x5000110180, 4, 16, 11, .rc, 0, 0, 2047⟩
/-- R406: L_LAST, bits [10:0] of PSC_ARC.CH_STAT. -/
def PSC_ARC_CH_STAT_L_LAST : Field := ⟨0x5000110180, 4, 0, 11, .ro, 0, 0, 2047⟩
/-- R406: EN, bits [31:31] of PSC_ARC.INST_CFG. -/
def PSC_ARC_INST_CFG_EN : Field := ⟨0x5000110200, 4, 31, 1, .rwl, 0, 0, 1⟩
/-- R406: MODE, bits [30:30] of PSC_ARC.INST_CFG. -/
def PSC_ARC_INST_CFG_MODE : Field := ⟨0x5000110200, 4, 30, 1, .rwl, 0, 0, 1⟩
/-- R406: SENS_TRIP, bits [29:29] of PSC_ARC.INST_CFG. -/
def PSC_ARC_INST_CFG_SENS_TRIP : Field := ⟨0x5000110200, 4, 29, 1, .rwl, 0, 0, 1⟩
/-- R406: RESET_MODE, bits [28:27] of PSC_ARC.INST_CFG. -/
def PSC_ARC_INST_CFG_RESET_MODE : Field := ⟨0x5000110200, 4, 27, 2, .rwl, 0, 0, 3⟩
/-- R406: RESET_IN, bits [26:23] of PSC_ARC.INST_CFG. -/
def PSC_ARC_INST_CFG_RESET_IN : Field := ⟨0x5000110200, 4, 23, 4, .rwl, 0, 0, 15⟩
/-- R406: CH, bits [19:16] of PSC_ARC.INST_CFG. -/
def PSC_ARC_INST_CFG_CH : Field := ⟨0x5000110200, 4, 16, 4, .rwl, 0, 0, 15⟩
/-- R406: CPW_MASK, bits [15:0] of PSC_ARC.INST_CFG. -/
def PSC_ARC_INST_CFG_CPW_MASK : Field := ⟨0x5000110200, 4, 0, 16, .rwl, 0, 0, 65535⟩
/-- R406: WAIT_CUR, bits [7:4] of PSC_ARC.INST_STAT. -/
def PSC_ARC_INST_STAT_WAIT_CUR : Field := ⟨0x5000110280, 0, 4, 4, .ro, 0, 0, 15⟩
/-- R406: OK, bits [3:0] of PSC_ARC.INST_STAT. -/
def PSC_ARC_INST_STAT_OK : Field := ⟨0x5000110280, 0, 0, 4, .ro, 0, 0, 15⟩
/-- R406: COUNT, bits [63:0] of PSC_ARC.CNT. -/
def PSC_ARC_CNT_COUNT : Field := ⟨0x5000110400, 8, 0, 64, .rc, 0, 0, 18446744073709551615⟩
/-- R434: DSTATE, bits [31:28] of DOM.STATUS. -/
def DOM_STATUS_DSTATE : Field := ⟨0x5000120000, 0, 28, 4, .ro, 0, 0, 15⟩
/-- R434: ROOT_MARGINAL, bits [27:27] of DOM.STATUS. -/
def DOM_STATUS_ROOT_MARGINAL : Field := ⟨0x5000120000, 0, 27, 1, .ro, 0, 0, 1⟩
/-- R434: ANCHORS, bits [26:23] of DOM.STATUS. -/
def DOM_STATUS_ANCHORS : Field := ⟨0x5000120000, 0, 23, 4, .ro, 0, 0, 15⟩
/-- R434: DEBUG_CNT, bits [15:8] of DOM.STATUS. -/
def DOM_STATUS_DEBUG_CNT : Field := ⟨0x5000120000, 0, 8, 8, .ro, 0, 0, 255⟩
/-- R434: MAX_CORR, bits [31:24] of DOM.ROOT_STAT. -/
def DOM_ROOT_STAT_MAX_CORR : Field := ⟨0x5000120004, 0, 24, 8, .ro, 0, 0, 255⟩
/-- R434: TOTAL_CORR, bits [23:8] of DOM.ROOT_STAT. -/
def DOM_ROOT_STAT_TOTAL_CORR : Field := ⟨0x5000120004, 0, 8, 16, .ro, 0, 0, 65535⟩
/-- R434: ATTEMPTS, bits [1:0] of DOM.ROOT_STAT. -/
def DOM_ROOT_STAT_ATTEMPTS : Field := ⟨0x5000120004, 0, 0, 2, .ro, 0, 0, 3⟩
/-- R434: DBG_EN, bits [3:3] of DOM.DEBUG. -/
def DOM_DEBUG_DBG_EN : Field := ⟨0x5000120008, 0, 3, 1, .ro, 0, 0, 1⟩
/-- R434: DBG_SEL, bits [2:2] of DOM.DEBUG. -/
def DOM_DEBUG_DBG_SEL : Field := ⟨0x5000120008, 0, 2, 1, .ro, 0, 0, 1⟩
/-- R434: PORT_OPEN, bits [1:1] of DOM.DEBUG. -/
def DOM_DEBUG_PORT_OPEN : Field := ⟨0x5000120008, 0, 1, 1, .ro, 0, 0, 1⟩
/-- R434: CHALLENGE, bits [0:0] of DOM.DEBUG. -/
def DOM_DEBUG_CHALLENGE : Field := ⟨0x5000120008, 0, 0, 1, .ro, 0, 0, 1⟩
/-- R434: LIVE, bits [31:16] of DOM.NODES. -/
def DOM_NODES_LIVE : Field := ⟨0x500012000C, 0, 16, 16, .ro, 0, 0, 65535⟩
/-- R434: SWEEP, bits [15:0] of DOM.NODES. -/
def DOM_NODES_SWEEP : Field := ⟨0x500012000C, 0, 0, 16, .ro, 0, 0, 65535⟩
/-- R434: FP, bits [63:0] of DOM.DIK_FP. -/
def DOM_DIK_FP_FP : Field := ⟨0x5000120040, 8, 0, 64, .ro, 0, 0, 18446744073709551615⟩
/-- R434: VALUE, bits [63:0] of DOM.MS. -/
def DOM_MS_VALUE : Field := ⟨0x5000121000, 8, 0, 64, .ro, 0, 0, 18446744073709551615⟩
/-- R434: COUNT, bits [63:0] of DOM.CNT. -/
def DOM_CNT_COUNT : Field := ⟨0x5000120400, 8, 0, 64, .rc, 0, 0, 18446744073709551615⟩
/-- R439: REQ, bits [0:0] of TMC.MBX_DOORBELL. -/
def TMC_MBX_DOORBELL_REQ : Field := ⟨0x5100008000, 0, 0, 1, .wo, 0, 0, 1⟩
/-- R439: REPLY_LEN, bits [31:16] of TMC.MBX_STATUS. -/
def TMC_MBX_STATUS_REPLY_LEN : Field := ⟨0x5100008004, 0, 16, 16, .ro, 0, 0, 65535⟩
/-- R439: QUEUED, bits [15:8] of TMC.MBX_STATUS. -/
def TMC_MBX_STATUS_QUEUED : Field := ⟨0x5100008004, 0, 8, 8, .ro, 0, 0, 255⟩
/-- R439: REPLY_READY, bits [2:2] of TMC.MBX_STATUS. -/
def TMC_MBX_STATUS_REPLY_READY : Field := ⟨0x5100008004, 0, 2, 1, .ro, 0, 0, 1⟩
/-- R439: REQ_BUSY, bits [1:1] of TMC.MBX_STATUS. -/
def TMC_MBX_STATUS_REQ_BUSY : Field := ⟨0x5100008004, 0, 1, 1, .ro, 0, 0, 1⟩
/-- R439: DONE, bits [0:0] of TMC.MBX_ACK. -/
def TMC_MBX_ACK_DONE : Field := ⟨0x5100008008, 0, 0, 1, .wo, 0, 0, 1⟩
/-- R439: FRAME_ERR, bits [31:16] of TMC.MBX_CNT. -/
def TMC_MBX_CNT_FRAME_ERR : Field := ⟨0x510000800C, 0, 16, 16, .rc, 0, 0, 65535⟩
/-- R439: DB_IGNORED, bits [15:0] of TMC.MBX_CNT. -/
def TMC_MBX_CNT_DB_IGNORED : Field := ⟨0x510000800C, 0, 0, 16, .rc, 0, 0, 65535⟩
/-- R482: FLASH_RO, bits [3:3] of PHM.BG_STATUS. -/
def PHM_BG_STATUS_FLASH_RO : Field := ⟨0x5000010000, 0, 3, 1, .ro, 0, 0, 1⟩
/-- R482: MEAS_RUNNING, bits [2:2] of PHM.BG_STATUS. -/
def PHM_BG_STATUS_MEAS_RUNNING : Field := ⟨0x5000010000, 0, 2, 1, .ro, 0, 0, 1⟩
/-- R482: FLASH_DEFERRED, bits [1:1] of PHM.BG_STATUS. -/
def PHM_BG_STATUS_FLASH_DEFERRED : Field := ⟨0x5000010000, 0, 1, 1, .ro, 0, 0, 1⟩
/-- R482: PAUSED, bits [0:0] of PHM.BG_STATUS. -/
def PHM_BG_STATUS_PAUSED : Field := ⟨0x5000010000, 0, 0, 1, .ro, 0, 0, 1⟩
/-- R482: VCORE_PLAN, bits [63:52] of PHM.AGE_STATUS. -/
def PHM_AGE_STATUS_VCORE_PLAN : Field := ⟨0x5000010020, 0, 52, 12, .ro, 0, 0, 4095⟩
/-- R482: CORE_STEP, bits [51:50] of PHM.AGE_STATUS. -/
def PHM_AGE_STATUS_CORE_STEP : Field := ⟨0x5000010020, 0, 50, 2, .ro, 0, 0, 3⟩
/-- R482: AGE_STEP, bits [49:48] of PHM.AGE_STATUS. -/
def PHM_AGE_STATUS_AGE_STEP : Field := ⟨0x5000010020, 0, 48, 2, .ro, 0, 0, 3⟩
/-- R482: MARGIN_LOW, bits [47:47] of PHM.AGE_STATUS. -/
def PHM_AGE_STATUS_MARGIN_LOW : Field := ⟨0x5000010020, 0, 47, 1, .ro, 0, 0, 1⟩
/-- R482: MARGIN_EXHAUSTED, bits [46:46] of PHM.AGE_STATUS. -/
def PHM_AGE_STATUS_MARGIN_EXHAUSTED : Field := ⟨0x5000010020, 0, 46, 1, .ro, 0, 0, 1⟩
/-- R482: PUF_AGEING, bits [45:45] of PHM.AGE_STATUS. -/
def PHM_AGE_STATUS_PUF_AGEING : Field := ⟨0x5000010020, 0, 45, 1, .ro, 0, 0, 1⟩
/-- R482: WORST_GAUGE, bits [44:38] of PHM.AGE_STATUS. -/
def PHM_AGE_STATUS_WORST_GAUGE : Field := ⟨0x5000010020, 0, 38, 7, .ro, 0, 0, 127⟩
/-- R482: LAST_DAY, bits [31:0] of PHM.AGE_STATUS. -/
def PHM_AGE_STATUS_LAST_DAY : Field := ⟨0x5000010020, 0, 0, 32, .ro, 0, 0, 4294967295⟩
/-- R482: PROJ_DAYS, bits [63:32] of PHM.AGE_PROJ. -/
def PHM_AGE_PROJ_PROJ_DAYS : Field := ⟨0x5000010028, 0, 32, 32, .ro, 4294967295, 0, 4294967295⟩
/-- R482: PROJ_SEC, bits [31:0] of PHM.AGE_PROJ. -/
def PHM_AGE_PROJ_PROJ_SEC : Field := ⟨0x5000010028, 0, 0, 32, .ro, 0, 0, 4294967295⟩
/-- R482: MARGIN_REQ, bits [31:16] of PHM.AGE_CFG. -/
def PHM_AGE_CFG_MARGIN_REQ : Field := ⟨0x5000010030, 0, 16, 16, .ro, 200, 0, 65535⟩
/-- R482: HEADROOM, bits [11:0] of PHM.AGE_CFG. -/
def PHM_AGE_CFG_HEADROOM : Field := ⟨0x5000010030, 0, 0, 12, .ro, 20, 0, 4095⟩
/-- R482: OP_SEC, bits [63:32] of PHM.KEEP_CNT. -/
def PHM_KEEP_CNT_OP_SEC : Field := ⟨0x5000010040, 0, 32, 32, .ro, 0, 0, 4294967295⟩
/-- R482: POWER_CYCLES, bits [31:0] of PHM.KEEP_CNT. -/
def PHM_KEEP_CNT_POWER_CYCLES : Field := ⟨0x5000010040, 0, 0, 32, .ro, 0, 0, 4294967295⟩
/-- R482: SPARE_FREE, bits [63:48] of PHM.FLASH_STAT. -/
def PHM_FLASH_STAT_SPARE_FREE : Field := ⟨0x5000010050, 0, 48, 16, .ro, 0, 0, 65535⟩
/-- R482: RETIRED, bits [47:32] of PHM.FLASH_STAT. -/
def PHM_FLASH_STAT_RETIRED : Field := ⟨0x5000010050, 0, 32, 16, .ro, 0, 0, 65535⟩
/-- R482: EC_MAX, bits [31:16] of PHM.FLASH_STAT. -/
def PHM_FLASH_STAT_EC_MAX : Field := ⟨0x5000010050, 0, 16, 16, .ro, 0, 0, 65535⟩
/-- R482: EC_MEAN, bits [15:0] of PHM.FLASH_STAT. -/
def PHM_FLASH_STAT_EC_MEAN : Field := ⟨0x5000010050, 0, 0, 16, .ro, 0, 0, 65535⟩
/-- R482: VALUE, bits [31:0] of PHM.TELEM. -/
def PHM_TELEM_VALUE : Field := ⟨0x5000010200, 4, 0, 32, .ro, 0, 0, 4294967295⟩
/-- R482: COUNT, bits [63:0] of PHM.CNT. -/
def PHM_CNT_COUNT : Field := ⟨0x5000010300, 8, 0, 64, .rc, 0, 0, 18446744073709551615⟩
/-- R482: S_N, bits [63:48] of PHM.GAUGE. -/
def PHM_GAUGE_S_N : Field := ⟨0x5000010800, 8, 48, 16, .ro, 0, 0, 65535⟩
/-- R482: S_M, bits [47:32] of PHM.GAUGE. -/
def PHM_GAUGE_S_M : Field := ⟨0x5000010800, 8, 32, 16, .ro, 0, 0, 65535⟩
/-- R482: T_DIE, bits [31:24] of PHM.GAUGE. -/
def PHM_GAUGE_T_DIE : Field := ⟨0x5000010800, 8, 24, 8, .ro, 0, 0, 255⟩
/-- R482: VCORE, bits [23:12] of PHM.GAUGE. -/
def PHM_GAUGE_VCORE : Field := ⟨0x5000010800, 8, 12, 12, .ro, 0, 0, 4095⟩
/-- R483: REPEAT_WIN, bits [15:8] of BLF.CTL. -/
def BLF_CTL_REPEAT_WIN : Field := ⟨0x50000D0000, 0, 8, 8, .rwl, 60, 0, 255⟩
/-- R483: STAGED, bits [31:29] of BLF.STATUS. -/
def BLF_STATUS_STAGED : Field := ⟨0x50000D0004, 0, 29, 3, .ro, 0, 0, 7⟩
/-- R483: FIRST_FULL, bits [28:28] of BLF.STATUS. -/
def BLF_STATUS_FIRST_FULL : Field := ⟨0x50000D0004, 0, 28, 1, .ro, 0, 0, 1⟩
/-- R483: RSEQ, bits [63:0] of BLF.NEXT_RSEQ. -/
def BLF_NEXT_RSEQ_RSEQ : Field := ⟨0x50000D0008, 0, 0, 64, .ro, 0, 0, 18446744073709551615⟩
/-- R483: FIRST, bits [63:63] of BLF.CURSOR. -/
def BLF_CURSOR_FIRST : Field := ⟨0x50000D0010, 0, 63, 1, .rw, 0, 0, 1⟩
/-- R483: RSEQ, bits [47:0] of BLF.CURSOR. -/
def BLF_CURSOR_RSEQ : Field := ⟨0x50000D0010, 0, 0, 48, .rw, 0, 0, 281474976710655⟩
/-- R483: NEXT, bits [0:0] of BLF.STEP. -/
def BLF_STEP_NEXT : Field := ⟨0x50000D0018, 0, 0, 1, .wo, 0, 0, 1⟩
/-- R483: WIN_STATE, bits [31:30] of BLF.WIN_STAT. -/
def BLF_WIN_STAT_WIN_STATE : Field := ⟨0x50000D001C, 0, 30, 2, .ro, 0, 0, 3⟩
/-- R483: BUSY, bits [29:29] of BLF.WIN_STAT. -/
def BLF_WIN_STAT_BUSY : Field := ⟨0x50000D001C, 0, 29, 1, .ro, 0, 0, 1⟩
/-- R483: WORD, bits [63:0] of BLF.WIN. -/
def BLF_WIN_WORD : Field := ⟨0x50000D0100, 8, 0, 64, .ro, 0, 0, 18446744073709551615⟩
/-- R483: COUNT, bits [63:0] of BLF.CNT. -/
def BLF_CNT_COUNT : Field := ⟨0x50000D0400, 8, 0, 64, .rc, 0, 0, 18446744073709551615⟩
/-- R498: PHASE, bits [31:28] of TMC.START_STATUS. -/
def TMC_START_STATUS_PHASE : Field := ⟨0x5000000010, 0, 28, 4, .ro, 1, 0, 15⟩
/-- R498: READY, bits [6:6] of TMC.START_STATUS. -/
def TMC_START_STATUS_READY : Field := ⟨0x5000000010, 0, 6, 1, .ro, 0, 0, 1⟩
/-- R498: COND, bits [5:0] of TMC.START_STATUS. -/
def TMC_START_STATUS_COND : Field := ⟨0x5000000010, 0, 0, 6, .ro, 0, 0, 63⟩
/-- R498: KIND, bits [31:28] of TMC.RESET_CAUSE. -/
def TMC_RESET_CAUSE_KIND : Field := ⟨0x5000000014, 0, 28, 4, .ro, 3, 0, 15⟩
/-- R498: CAUSE, bits [23:16] of TMC.RESET_CAUSE. -/
def TMC_RESET_CAUSE_CAUSE : Field := ⟨0x5000000014, 0, 16, 8, .ro, 1, 0, 255⟩
/-- R498: LAT_WAIT, bits [7:0] of TMC.START_CFG. -/
def TMC_START_CFG_LAT_WAIT : Field := ⟨0x5000000018, 0, 0, 8, .rwl, 30, 0, 255⟩
end F

/-- The registers of the spec, part 1. -/
def registers1 : List Register :=
  [ ⟨"TMC.MODULE_ID", 0x5000000000, 1, 0, 1, 4, [F.TMC_MODULE_ID_MEMBER, F.TMC_MODULE_ID_HW_REV, F.TMC_MODULE_ID_STEPPING, F.TMC_MODULE_ID_SAFETY_EN]⟩
  , ⟨"TMC.FAMILY_CAP", 0x5000000004, 1, 0, 1, 4, [F.TMC_FAMILY_CAP_SV_STREAMS, F.TMC_FAMILY_CAP_SLICES, F.TMC_FAMILY_CAP_APP_CORES]⟩
  , ⟨"PHM.SUPPLY_STATUS", 0x5000010100, 1, 0, 1, 4, [F.PHM_SUPPLY_STATUS_VBUS, F.PHM_SUPPLY_STATUS_IOSEL, F.PHM_SUPPLY_STATUS_PAIRSEL, F.PHM_SUPPLY_STATUS_VIO_CAR_STATE, F.PHM_SUPPLY_STATUS_FEED_B_OK, F.PHM_SUPPLY_STATUS_FEED_A_OK, F.PHM_SUPPLY_STATUS_VANA_OK, F.PHM_SUPPLY_STATUS_VIO_OK, F.PHM_SUPPLY_STATUS_VCORE_OK, F.PHM_SUPPLY_STATUS_RETURN_PENDING, F.PHM_SUPPLY_STATUS_RIDE]⟩
  , ⟨"PHM.FAULT", 0x5000010104, 1, 0, 1, 4, [F.PHM_FAULT_THERM, F.PHM_FAULT_BROWNOUT, F.PHM_FAULT_VIO_CAR, F.PHM_FAULT_RAIL, F.PHM_FAULT_FEED_B_LOST, F.PHM_FAULT_FEED_A_LOST, F.PHM_FAULT_ROOT_RATIO, F.PHM_FAULT_ROOT_LOCK]⟩
  , ⟨"PHM.RIDE_STATS", 0x5000010108, 1, 0, 1, 4, [F.PHM_RIDE_STATS_LAST_MIN_VBUS, F.PHM_RIDE_STATS_RIDE_CNT]⟩
  , ⟨"QBC.CTL", 0x5000130000, 1, 0, 1, 4, [F.QBC_CTL_ECHO_CHK, F.QBC_CTL_IN_FILT, F.QBC_CTL_EN]⟩
  , ⟨"QBC.MAP", 0x5000130004, 1, 0, 1, 4, [F.QBC_MAP_IN_BASE, F.QBC_MAP_OUT_BASE]⟩
  , ⟨"QBC.STATUS", 0x5000130008, 1, 0, 1, 4, [F.QBC_STATUS_LAST_SEQ, F.QBC_STATUS_ECHO_SEQ, F.QBC_STATUS_UPD, F.QBC_STATUS_HOLD, F.QBC_STATUS_IN_VALID]⟩
  , ⟨"QBC.ERR_CNT", 0x500013000C, 1, 0, 1, 4, [F.QBC_ERR_CNT_IN_CRC_ERR, F.QBC_ERR_CNT_ECHO_ERR]⟩
  , ⟨"TBU.CTL", 0x5000020000, 1, 0, 1, 4, [F.TBU_CTL_DOMAIN, F.TBU_CTL_ATTACH, F.TBU_CTL_RATE_LIMIT, F.TBU_CTL_STEP_EN, F.TBU_CTL_FALLBACK, F.TBU_CTL_EN]⟩
  , ⟨"TBU.STATUS", 0x5000020004, 1, 0, 1, 4, [F.TBU_STATUS_GM_CLASS, F.TBU_STATUS_UTC_OFFSET, F.TBU_STATUS_UTC_VALID, F.TBU_STATUS_SYNCH, F.TBU_STATUS_TIME_VALID, F.TBU_STATUS_COARSE, F.TBU_STATUS_PPS_IN_OK, F.TBU_STATUS_SLEWING, F.TBU_STATUS_LAN, F.TBU_STATUS_STATE]⟩
  , ⟨"TBU.NOW", 0x5000020010, 1, 0, 1, 8, [F.TBU_NOW_GT64]⟩
  , ⟨"TBU.NOW_SEC_HI", 0x5000020018, 1, 0, 1, 4, [F.TBU_NOW_SEC_HI_SEC_HI]⟩
  , ⟨"TBU.OFFSET", 0x5000020020, 1, 0, 1, 8, [F.TBU_OFFSET_OFFSET]⟩
  , ⟨"TBU.MEAN_LINK_DELAY", 0x5000020028, 1, 0, 1, 4, [F.TBU_MEAN_LINK_DELAY_DELAY]⟩
  , ⟨"TBU.RATE_ADJ", 0x500002002C, 1, 0, 1, 4, [F.TBU_RATE_ADJ_RATE_ADJ]⟩
  , ⟨"TBU.CLOCK_DS", 0x5000020030, 1, 0, 1, 4, [F.TBU_CLOCK_DS_PRIORITY1, F.TBU_CLOCK_DS_PRIORITY2, F.TBU_CLOCK_DS_HOLD_SPEC]⟩
  , ⟨"TBU.SERVO_CFG", 0x5000020034, 1, 0, 1, 4, [F.TBU_SERVO_CFG_KI_SH, F.TBU_SERVO_CFG_KP_SH]⟩
  , ⟨"TBU.GM_ID", 0x5000020038, 1, 0, 1, 8, [F.TBU_GM_ID_GM_ID]⟩
  , ⟨"TBU.PPS_CFG", 0x5000020040, 1, 0, 1, 4, [F.TBU_PPS_CFG_OUT_COMP, F.TBU_PPS_CFG_OUT_WIDTH, F.TBU_PPS_CFG_IN_MODE, F.TBU_PPS_CFG_OUT_MODE]⟩
  , ⟨"TBU.PPS_IN_TS", 0x5000020048, 1, 0, 1, 8, [F.TBU_PPS_IN_TS_GT64]⟩
  , ⟨"TBU.PPS_IN_OFFSET", 0x5000020050, 1, 0, 1, 4, [F.TBU_PPS_IN_OFFSET_OFFSET]⟩
  , ⟨"TBU.EVT_CNT", 0x5000020054, 1, 0, 1, 4, [F.TBU_EVT_CNT_PTP_DISCARD, F.TBU_EVT_CNT_ANN_TIMEOUT, F.TBU_EVT_CNT_PPS_IN_REJ]⟩
  , ⟨"TBU.TDC_STATUS", 0x5000020058, 1, 0, 1, 4, [F.TBU_TDC_STATUS_COARSE_CH]⟩
  , ⟨"TBU.PORT_COMP", 0x5000020100, 1, 4, 10, 4, [F.TBU_PORT_COMP_RX_COMP, F.TBU_PORT_COMP_TX_COMP]⟩
  , ⟨"MAC.CTL", 0x5000180000, 11, 0, 1, 4, [F.MAC_CTL_MAX_FRAME, F.MAC_CTL_REDUN, F.MAC_CTL_EEE_EN, F.MAC_CTL_ROLE, F.MAC_CTL_TX_PAUSE_EN, F.MAC_CTL_RX_PAUSE_EN, F.MAC_CTL_FEC, F.MAC_CTL_SPEED, F.MAC_CTL_EN]⟩
  , ⟨"MAC.ADDR", 0x5000180010, 11, 0, 1, 8, [F.MAC_ADDR_ADDR]⟩
  , ⟨"MAC.STATUS", 0x5000180004, 11, 0, 1, 4, [F.MAC_STATUS_TW_TX, F.MAC_STATUS_LLDP_EEE, F.MAC_STATUS_RX_LPI, F.MAC_STATUS_TX_LPI, F.MAC_STATUS_PAUSE_IGN, F.MAC_STATUS_PAUSED, F.MAC_STATUS_FEC_LOCK, F.MAC_STATUS_BLOCK_LOCK, F.MAC_STATUS_LINK]⟩
  , ⟨"MAC.RX_STEER", 0x5000180200, 11, 8, 16, 8, [F.MAC_RX_STEER_VALID, F.MAC_RX_STEER_DA_CLASS, F.MAC_RX_STEER_VID_EN, F.MAC_RX_STEER_ETYPE_EN, F.MAC_RX_STEER_VID, F.MAC_RX_STEER_ETYPE, F.MAC_RX_STEER_RING]⟩
  , ⟨"MAC.RX_DEFAULT", 0x5000180018, 11, 0, 1, 4, [F.MAC_RX_DEFAULT_VALID, F.MAC_RX_DEFAULT_RING]⟩
  , ⟨"MAC.PAUSE_CFG", 0x5000180008, 11, 0, 1, 4, [F.MAC_PAUSE_CFG_TX_QUANTA, F.MAC_PAUSE_CFG_WD_TIME, F.MAC_PAUSE_CFG_IGN_TIME]⟩
  , ⟨"MAC.EEE_CFG", 0x500018000C, 11, 0, 1, 4, [F.MAC_EEE_CFG_TW_RX_REQ, F.MAC_EEE_CFG_IDLE_ENTRY]⟩
  , ⟨"MAC.CNT", 0x5000180100, 11, 8, 28, 8, [F.MAC_CNT_COUNT]⟩
  , ⟨"WVL.CTL", 0x5000140000, 1, 0, 1, 4, [F.WVL_CTL_ALLOW, F.WVL_CTL_ARM]⟩
  , ⟨"WVL.RULE_MATCH", 0x5000140100, 1, 32, 16, 8, [F.WVL_RULE_MATCH_EN, F.WVL_RULE_MATCH_DIR, F.WVL_RULE_MATCH_PORT, F.WVL_RULE_MATCH_ETYPE_EN, F.WVL_RULE_MATCH_APPID_EN, F.WVL_RULE_MATCH_ETYPE, F.WVL_RULE_MATCH_APPID]⟩
  , ⟨"WVL.RULE_ACTION", 0x5000140108, 1, 32, 16, 8, [F.WVL_RULE_ACTION_ACTION, F.WVL_RULE_ACTION_OFFSET, F.WVL_RULE_ACTION_DELAY, F.WVL_RULE_ACTION_MASK]⟩
  , ⟨"WVL.RULE_COUNT", 0x5000140110, 1, 32, 16, 4, [F.WVL_RULE_COUNT_EVERY, F.WVL_RULE_COUNT_LIMIT]⟩
  , ⟨"WVL.RULE_HITS", 0x5000140114, 1, 32, 16, 4, [F.WVL_RULE_HITS_HITS]⟩
  , ⟨"SCT.CMD", 0x5000050000, 1, 0, 1, 4, [F.SCT_CMD_BUSY, F.SCT_CMD_RESULT, F.SCT_CMD_OP, F.SCT_CMD_CLR, F.SCT_CMD_INDEX]⟩
  , ⟨"SCT.DATA", 0x5000050100, 1, 8, 6, 8, [F.SCT_DATA_WORD]⟩ ]

/-- The registers of the spec, part 2. -/
def registers2 : List Register :=
  [ ⟨"SCT.FSTAT", 0x5000050300, 1, 8, 5, 8, [F.SCT_FSTAT_WORD]⟩
  , ⟨"SCT.STAT", 0x5000050200, 1, 8, 5, 8, [F.SCT_STAT_WORD]⟩
  , ⟨"ICL.CTL", 0x5000040000, 1, 0, 1, 4, [F.ICL_CTL_FEVT_RATE, F.ICL_CTL_FOREIGN_EN, F.ICL_CTL_EN]⟩
  , ⟨"ICL.CNT", 0x5000040100, 1, 8, 16, 8, [F.ICL_CNT_COUNT]⟩
  , ⟨"SLE.CTL", 0x5000060000, 1, 0, 1, 4, [F.SLE_CTL_EN]⟩
  , ⟨"SLE.STATUS", 0x5000060004, 1, 0, 1, 4, [F.SLE_STATUS_RUN, F.SLE_STATUS_PROV_CNT]⟩
  , ⟨"SLE.CH_SEL", 0x5000060040, 1, 0, 1, 4, [F.SLE_CH_SEL_CH]⟩
  , ⟨"SLE.CH_STAT", 0x5000060048, 1, 0, 1, 8, [F.SLE_CH_STAT_FED, F.SLE_CH_STAT_AWAITED, F.SLE_CH_STAT_LAST_STATE, F.SLE_CH_STAT_PRED_RUN, F.SLE_CH_STAT_FEEDER, F.SLE_CH_STAT_SUBST_TOTAL]⟩
  , ⟨"SLE.LAT_CFG", 0x5000060100, 1, 64, 4, 4, [F.SLE_LAT_CFG_EN, F.SLE_LAT_CFG_RATE, F.SLE_LAT_CFG_SPEC_EN, F.SLE_LAT_CFG_SPEC_DEPTH, F.SLE_LAT_CFG_F_NOM, F.SLE_LAT_CFG_SUBST_MAX]⟩
  , ⟨"SLE.LAT_TIME", 0x5000060104, 1, 64, 4, 4, [F.SLE_LAT_TIME_ALIGN_DELAY, F.SLE_LAT_TIME_DEADLINE, F.SLE_LAT_TIME_PCLOSE]⟩
  , ⟨"SLE.LAT_CHAN", 0x5000060108, 1, 64, 4, 4, [F.SLE_LAT_CHAN_CH_BASE, F.SLE_LAT_CHAN_CH_COUNT]⟩
  , ⟨"SLE.LAT_TOL", 0x500006010C, 1, 64, 4, 4, [F.SLE_LAT_TOL_TOL_I, F.SLE_LAT_TOL_TOL_V, F.SLE_LAT_TOL_TOL_REL]⟩
  , ⟨"SLE.LAT_MEM", 0x5000060110, 1, 64, 4, 4, [F.SLE_LAT_MEM_HIST, F.SLE_LAT_MEM_CONF_BASE]⟩
  , ⟨"SLE.LAT_PMEM", 0x5000060114, 1, 64, 4, 4, [F.SLE_LAT_PMEM_PROV_BASE]⟩
  , ⟨"SLE.LAT_STAT", 0x5000060118, 1, 64, 4, 4, [F.SLE_LAT_STAT_PROV_CNT, F.SLE_LAT_STAT_STALL, F.SLE_LAT_STAT_WAIT_TAG]⟩
  , ⟨"SLE.LAT_LAST_CONF", 0x5000060120, 1, 64, 4, 8, [F.SLE_LAT_LAST_CONF_N]⟩
  , ⟨"SLE.LAT_LAST_CLOSE", 0x5000060128, 1, 64, 4, 8, [F.SLE_LAT_LAST_CLOSE_N]⟩
  , ⟨"SLE.LAT_CNT", 0x5000060400, 1, 8, 64, 8, [F.SLE_LAT_CNT_COUNT]⟩
  , ⟨"SMEM.CNT", 0x5000070040, 1, 8, 4, 8, [F.SMEM_CNT_COUNT]⟩
  , ⟨"SMEM.ERR_ADDR", 0x5000070060, 1, 0, 1, 8, [F.SMEM_ERR_ADDR_WORD, F.SMEM_ERR_ADDR_LINE]⟩
  , ⟨"SMEM.REGION", 0x5000070100, 1, 8, 32, 8, [F.SMEM_REGION_VALID, F.SMEM_REGION_OWNER, F.SMEM_REGION_PROV, F.SMEM_REGION_COLL, F.SMEM_REGION_BASE, F.SMEM_REGION_SIZE]⟩
  , ⟨"PHE.CTL", 0x5000080000, 1, 0, 1, 4, [F.PHE_CTL_EN]⟩
  , ⟨"PHE.CMD", 0x5000080008, 1, 0, 1, 4, [F.PHE_CMD_BUSY, F.PHE_CMD_RESULT, F.PHE_CMD_OP, F.PHE_CMD_TABLE, F.PHE_CMD_INDEX]⟩
  , ⟨"PHE.DATA", 0x5000080010, 1, 8, 4, 8, [F.PHE_DATA_WORD]⟩
  , ⟨"PHE.LAT_RES", 0x5000080100, 1, 32, 4, 8, [F.PHE_LAT_RES_PHIST, F.PHE_LAT_RES_CONF_BASE, F.PHE_LAT_RES_PROV_BASE]⟩
  , ⟨"PHE.LAT_SECT", 0x5000080108, 1, 32, 4, 8, [F.PHE_LAT_SECT_SET_OFF, F.PHE_LAT_SECT_ZONE_OFF, F.PHE_LAT_SECT_LOOP_OFF, F.PHE_LAT_SECT_GRP_OFF]⟩
  , ⟨"PHE.LAT_INFO", 0x5000080110, 1, 32, 4, 4, [F.PHE_LAT_INFO_SLOT_LINES, F.PHE_LAT_INFO_W]⟩
  , ⟨"PHE.GRP_F", 0x5000080200, 1, 4, 64, 4, [F.PHE_GRP_F_F]⟩
  , ⟨"PHE.CNT", 0x5000080400, 1, 8, 8, 8, [F.PHE_CNT_COUNT]⟩
  , ⟨"GCM.CTL", 0x5000090000, 1, 0, 1, 4, [F.GCM_CTL_EN]⟩
  , ⟨"GCM.CMD", 0x5000090008, 1, 0, 1, 4, [F.GCM_CMD_BUSY, F.GCM_CMD_RESULT, F.GCM_CMD_OP, F.GCM_CMD_INDEX]⟩
  , ⟨"GCM.DATA", 0x5000090010, 1, 8, 5, 8, [F.GCM_DATA_WORD]⟩
  , ⟨"GCM.LAT_GUARDS", 0x5000090100, 1, 32, 4, 4, [F.GCM_LAT_GUARDS_G_BASE, F.GCM_LAT_GUARDS_G_COUNT]⟩
  , ⟨"GCM.LAT_RES", 0x5000090108, 1, 32, 4, 8, [F.GCM_LAT_RES_GHIST, F.GCM_LAT_RES_CONF_BASE, F.GCM_LAT_RES_PROV_BASE]⟩
  , ⟨"GCM.CPW_MAP", 0x5000090200, 1, 4, 16, 4, [F.GCM_CPW_MAP_EN, F.GCM_CPW_MAP_GUARD]⟩
  , ⟨"GCM.CPW", 0x5000090240, 1, 0, 1, 4, [F.GCM_CPW_SEQ, F.GCM_CPW_WORD]⟩
  , ⟨"GCM.CNT", 0x5000090400, 1, 8, 8, 8, [F.GCM_CNT_COUNT]⟩
  , ⟨"SLP.CTL", 0x50000A0000, 1, 0, 1, 4, [F.SLP_CTL_ONLINE_ALLOW, F.SLP_CTL_FORCE_ALLOW, F.SLP_CTL_EN]⟩
  , ⟨"SLP.STATUS", 0x50000A0004, 1, 0, 1, 4, [F.SLP_STATUS_FORCES, F.SLP_STATUS_LOAD_SLOT, F.SLP_STATUS_LOAD_STATE]⟩
  , ⟨"SLP.CMD", 0x50000A0008, 1, 0, 1, 4, [F.SLP_CMD_BUSY, F.SLP_CMD_RESULT, F.SLP_CMD_OP, F.SLP_CMD_TABLE, F.SLP_CMD_INDEX]⟩ ]

/-- The registers of the spec, part 3. -/
def registers3 : List Register :=
  [ ⟨"SLP.DATA", 0x50000A0010, 1, 8, 4, 8, [F.SLP_DATA_WORD]⟩
  , ⟨"SLP.CLASS_STAT", 0x50000A0100, 1, 16, 16, 8, [F.SLP_CLASS_STAT_MAX_EXEC, F.SLP_CLASS_STAT_LAST_EXEC]⟩
  , ⟨"SLP.CLASS_CNT", 0x50000A0108, 1, 16, 16, 8, [F.SLP_CLASS_CNT_CYCLES, F.SLP_CLASS_CNT_SKIP, F.SLP_CLASS_CNT_WARN]⟩
  , ⟨"SLP.CNT", 0x50000A0400, 1, 8, 8, 8, [F.SLP_CNT_COUNT]⟩
  , ⟨"PUB.CTL", 0x50000B0000, 1, 0, 1, 4, [F.PUB_CTL_EN]⟩
  , ⟨"PUB.STATUS", 0x50000B0004, 1, 0, 1, 4, [F.PUB_STATUS_STAGED, F.PUB_STATUS_GAP, F.PUB_STATUS_SEND]⟩
  , ⟨"PUB.CMD", 0x50000B0008, 1, 0, 1, 4, [F.PUB_CMD_BUSY, F.PUB_CMD_RESULT, F.PUB_CMD_OP, F.PUB_CMD_INDEX]⟩
  , ⟨"PUB.DATA", 0x50000B0010, 1, 8, 4, 8, [F.PUB_DATA_WORD]⟩
  , ⟨"PUB.STAT", 0x50000B0200, 1, 8, 3, 8, [F.PUB_STAT_WORD]⟩
  , ⟨"PUB.CNT", 0x50000B0400, 1, 8, 8, 8, [F.PUB_CNT_COUNT]⟩
  , ⟨"DRE.CTL", 0x50000C0000, 1, 0, 1, 4, [F.DRE_CTL_EN]⟩
  , ⟨"DRE.STATUS", 0x50000C0004, 1, 0, 1, 4, [F.DRE_STATUS_RECORDING, F.DRE_STATUS_ARMED, F.DRE_STATUS_FULL]⟩
  , ⟨"DRE.CMD", 0x50000C0008, 1, 0, 1, 4, [F.DRE_CMD_BUSY, F.DRE_CMD_RESULT, F.DRE_CMD_OP, F.DRE_CMD_TABLE, F.DRE_CMD_INDEX]⟩
  , ⟨"DRE.DATA", 0x50000C0010, 1, 8, 5, 8, [F.DRE_DATA_WORD]⟩
  , ⟨"DRE.STAT", 0x50000C0200, 1, 8, 4, 8, [F.DRE_STAT_WORD]⟩
  , ⟨"DRE.CNT", 0x50000C0400, 1, 8, 10, 8, [F.DRE_CNT_COUNT]⟩
  , ⟨"SLT.SP_ID", 0x5100000000, 128, 0, 1, 4, [F.SLT_SP_ID_SLICE, F.SLT_SP_ID_GEN, F.SLT_SP_ID_STATE]⟩
  , ⟨"SLT.SP_STATUS", 0x5100000004, 128, 0, 1, 4, [F.SLT_SP_STATUS_INFLIGHT_NOW, F.SLT_SP_STATUS_PV_EN, F.SLT_SP_STATUS_PV_LAT]⟩
  , ⟨"SLT.SP_ERR", 0x5100000008, 128, 0, 1, 4, [F.SLT_SP_ERR_REFUSED, F.SLT_SP_ERR_DB_ERR]⟩
  , ⟨"SLT.SP_DB", 0x5100000400, 128, 16, 64, 4, [F.SLT_SP_DB_INDEX]⟩
  , ⟨"SLT.SP_RSTAT", 0x5100000404, 128, 16, 64, 4, [F.SLT_SP_RSTAT_RSTATE, F.SLT_SP_RSTAT_HELD, F.SLT_SP_RSTAT_KIND, F.SLT_SP_RSTAT_RING, F.SLT_SP_RSTAT_HEAD]⟩
  , ⟨"SLT.SP_F", 0x5100001000, 128, 8, 64, 8, [F.SLT_SP_F_FLAGS]⟩
  , ⟨"SLT.SP_WIN", 0x5100002000, 128, 8, 8, 8, [F.SLT_SP_WIN_WINDOW]⟩
  , ⟨"SLT.CTL", 0x5000030000, 1, 0, 1, 4, [F.SLT_CTL_CORE_CHECK, F.SLT_CTL_STAT_I]⟩
  , ⟨"SLT.POOL", 0x5000030004, 1, 0, 1, 4, [F.SLT_POOL_CREDIT_FREE, F.SLT_POOL_PASID_FREE]⟩
  , ⟨"SLT.POOL_WIN", 0x5000030008, 1, 0, 1, 4, [F.SLT_POOL_WIN_DWIN_FREE]⟩
  , ⟨"SLT.CMD", 0x5000030010, 1, 0, 1, 4, [F.SLT_CMD_BUSY, F.SLT_CMD_RESULT, F.SLT_CMD_OP, F.SLT_CMD_CLR, F.SLT_CMD_TABLE, F.SLT_CMD_INDEX]⟩
  , ⟨"SLT.DATA", 0x5000030018, 1, 8, 4, 8, [F.SLT_DATA_WORD]⟩
  , ⟨"SLT.CNT", 0x5000030100, 1, 8, 4, 8, [F.SLT_CNT_COUNT]⟩
  , ⟨"PRC.CTL", 0x50000E0000, 1, 0, 1, 4, [F.PRC_CTL_SOLO_WAIT, F.PRC_CTL_LOSS_TIME, F.PRC_CTL_SWITCH_EN, F.PRC_CTL_PAIRED, F.PRC_CTL_EN]⟩
  , ⟨"PRC.STATUS", 0x50000E0004, 1, 0, 1, 4, [F.PRC_STATUS_FENCE_REASON, F.PRC_STATUS_SWITCHING, F.PRC_STATUS_LEASE, F.PRC_STATUS_GAP, F.PRC_STATUS_ALIGNED, F.PRC_STATUS_READY, F.PRC_STATUS_HEARD_CIC, F.PRC_STATUS_HEARD_K, F.PRC_STATUS_ROLE]⟩
  , ⟨"PRC.EPOCH", 0x50000E0008, 1, 0, 1, 4, [F.PRC_EPOCH_EPOCH]⟩
  , ⟨"PRC.PEER", 0x50000E0010, 1, 8, 2, 8, [F.PRC_PEER_BLOCK]⟩
  , ⟨"PRC.PEER_AGE", 0x50000E0020, 1, 0, 1, 4, [F.PRC_PEER_AGE_AGE_K, F.PRC_PEER_AGE_AGE_CIC]⟩
  , ⟨"PRC.CNT", 0x50000E0100, 1, 8, 16, 8, [F.PRC_CNT_COUNT]⟩
  , ⟨"PRC_CIC.STATUS", 0x50000F0000, 1, 0, 1, 4, [F.PRC_CIC_STATUS_ARR_OFFSET, F.PRC_CIC_STATUS_LINE_ACTIVE, F.PRC_CIC_STATUS_TX_ON]⟩
  , ⟨"PRC_CIC.CNT", 0x50000F0100, 1, 8, 4, 8, [F.PRC_CIC_CNT_COUNT]⟩
  , ⟨"PSC.CTL", 0x5000100000, 1, 0, 1, 4, [F.PSC_CTL_EN]⟩
  , ⟨"PSC.STATUS", 0x5000100004, 1, 0, 1, 4, [F.PSC_STATUS_ISTATE, F.PSC_STATUS_FAULT_CAUSE, F.PSC_STATUS_CPW_STALE, F.PSC_STATUS_ROOT_FAULT, F.PSC_STATUS_OUT_FAULT, F.PSC_STATUS_ENERGISED, F.PSC_STATUS_SFB, F.PSC_STATUS_CPW_SEQ]⟩
  , ⟨"PSC.PARAM_CRC", 0x5000100008, 1, 0, 1, 4, [F.PSC_PARAM_CRC_CRC]⟩ ]

/-- The registers of the spec, part 4. -/
def registers4 : List Register :=
  [ ⟨"PSC.IN_STAT", 0x5000100010, 1, 0, 1, 4, [F.PSC_IN_STAT_FAULT, F.PSC_IN_STAT_CLOSED]⟩
  , ⟨"PSC.FUNC_STAT", 0x5000100014, 1, 0, 1, 4, [F.PSC_FUNC_STAT_THL_PERMIT, F.PSC_FUNC_STAT_DOOR_OK, F.PSC_FUNC_STAT_ETP_OK]⟩
  , ⟨"PSC.IN_CFG", 0x5000100100, 1, 4, 16, 4, [F.PSC_IN_CFG_EN, F.PSC_IN_CFG_TP_EN, F.PSC_IN_CFG_DISC, F.PSC_IN_CFG_FILT]⟩
  , ⟨"PSC.FUNC_CFG", 0x5000100200, 1, 4, 20, 4, [F.PSC_FUNC_CFG_EN, F.PSC_FUNC_CFG_RESET_MODE, F.PSC_FUNC_CFG_RESET_IN, F.PSC_FUNC_CFG_INPUTS]⟩
  , ⟨"PSC.OUT_CFG", 0x5000100300, 1, 4, 4, 4, [F.PSC_OUT_CFG_EN, F.PSC_OUT_CFG_FB_TIME, F.PSC_OUT_CFG_MAP]⟩
  , ⟨"PSC.CNT", 0x5000100400, 1, 8, 8, 8, [F.PSC_CNT_COUNT]⟩
  , ⟨"PSC_ARC.CTL", 0x5000110000, 1, 0, 1, 4, [F.PSC_ARC_CTL_CPW_TIMEOUT, F.PSC_ARC_CTL_CUR_FALLBACK, F.PSC_ARC_CTL_LHOLD, F.PSC_ARC_CTL_ARCT_PERIOD]⟩
  , ⟨"PSC_ARC.CH_CFG", 0x5000110100, 1, 4, 4, 4, [F.PSC_ARC_CH_CFG_EN, F.PSC_ARC_CH_CFG_LTEST, F.PSC_ARC_CH_CFG_LCONF, F.PSC_ARC_CH_CFG_LTH]⟩
  , ⟨"PSC_ARC.CH_STAT", 0x5000110180, 1, 4, 4, 4, [F.PSC_ARC_CH_STAT_LIGHT, F.PSC_ARC_CH_STAT_SENS_FAULT, F.PSC_ARC_CH_STAT_L_MAX, F.PSC_ARC_CH_STAT_L_LAST]⟩
  , ⟨"PSC_ARC.INST_CFG", 0x5000110200, 1, 4, 4, 4, [F.PSC_ARC_INST_CFG_EN, F.PSC_ARC_INST_CFG_MODE, F.PSC_ARC_INST_CFG_SENS_TRIP, F.PSC_ARC_INST_CFG_RESET_MODE, F.PSC_ARC_INST_CFG_RESET_IN, F.PSC_ARC_INST_CFG_CH, F.PSC_ARC_INST_CFG_CPW_MASK]⟩
  , ⟨"PSC_ARC.INST_STAT", 0x5000110280, 1, 0, 1, 4, [F.PSC_ARC_INST_STAT_WAIT_CUR, F.PSC_ARC_INST_STAT_OK]⟩
  , ⟨"PSC_ARC.CNT", 0x5000110400, 1, 8, 4, 8, [F.PSC_ARC_CNT_COUNT]⟩
  , ⟨"DOM.STATUS", 0x5000120000, 1, 0, 1, 4, [F.DOM_STATUS_DSTATE, F.DOM_STATUS_ROOT_MARGINAL, F.DOM_STATUS_ANCHORS, F.DOM_STATUS_DEBUG_CNT]⟩
  , ⟨"DOM.ROOT_STAT", 0x5000120004, 1, 0, 1, 4, [F.DOM_ROOT_STAT_MAX_CORR, F.DOM_ROOT_STAT_TOTAL_CORR, F.DOM_ROOT_STAT_ATTEMPTS]⟩
  , ⟨"DOM.DEBUG", 0x5000120008, 1, 0, 1, 4, [F.DOM_DEBUG_DBG_EN, F.DOM_DEBUG_DBG_SEL, F.DOM_DEBUG_PORT_OPEN, F.DOM_DEBUG_CHALLENGE]⟩
  , ⟨"DOM.NODES", 0x500012000C, 1, 0, 1, 4, [F.DOM_NODES_LIVE, F.DOM_NODES_SWEEP]⟩
  , ⟨"DOM.DIK_FP", 0x5000120040, 1, 8, 6, 8, [F.DOM_DIK_FP_FP]⟩
  , ⟨"DOM.MS", 0x5000121000, 1, 8, 256, 8, [F.DOM_MS_VALUE]⟩
  , ⟨"DOM.CNT", 0x5000120400, 1, 8, 8, 8, [F.DOM_CNT_COUNT]⟩
  , ⟨"TMC.MBX_DOORBELL", 0x5100008000, 128, 0, 1, 4, [F.TMC_MBX_DOORBELL_REQ]⟩
  , ⟨"TMC.MBX_STATUS", 0x5100008004, 128, 0, 1, 4, [F.TMC_MBX_STATUS_REPLY_LEN, F.TMC_MBX_STATUS_QUEUED, F.TMC_MBX_STATUS_REPLY_READY, F.TMC_MBX_STATUS_REQ_BUSY]⟩
  , ⟨"TMC.MBX_ACK", 0x5100008008, 128, 0, 1, 4, [F.TMC_MBX_ACK_DONE]⟩
  , ⟨"TMC.MBX_CNT", 0x510000800C, 128, 0, 1, 4, [F.TMC_MBX_CNT_FRAME_ERR, F.TMC_MBX_CNT_DB_IGNORED]⟩
  , ⟨"PHM.BG_STATUS", 0x5000010000, 1, 0, 1, 4, [F.PHM_BG_STATUS_FLASH_RO, F.PHM_BG_STATUS_MEAS_RUNNING, F.PHM_BG_STATUS_FLASH_DEFERRED, F.PHM_BG_STATUS_PAUSED]⟩
  , ⟨"PHM.AGE_STATUS", 0x5000010020, 1, 0, 1, 8, [F.PHM_AGE_STATUS_VCORE_PLAN, F.PHM_AGE_STATUS_CORE_STEP, F.PHM_AGE_STATUS_AGE_STEP, F.PHM_AGE_STATUS_MARGIN_LOW, F.PHM_AGE_STATUS_MARGIN_EXHAUSTED, F.PHM_AGE_STATUS_PUF_AGEING, F.PHM_AGE_STATUS_WORST_GAUGE, F.PHM_AGE_STATUS_LAST_DAY]⟩
  , ⟨"PHM.AGE_PROJ", 0x5000010028, 1, 0, 1, 8, [F.PHM_AGE_PROJ_PROJ_DAYS, F.PHM_AGE_PROJ_PROJ_SEC]⟩
  , ⟨"PHM.AGE_CFG", 0x5000010030, 1, 0, 1, 4, [F.PHM_AGE_CFG_MARGIN_REQ, F.PHM_AGE_CFG_HEADROOM]⟩
  , ⟨"PHM.KEEP_CNT", 0x5000010040, 1, 0, 1, 8, [F.PHM_KEEP_CNT_OP_SEC, F.PHM_KEEP_CNT_POWER_CYCLES]⟩
  , ⟨"PHM.FLASH_STAT", 0x5000010050, 1, 0, 1, 8, [F.PHM_FLASH_STAT_SPARE_FREE, F.PHM_FLASH_STAT_RETIRED, F.PHM_FLASH_STAT_EC_MAX, F.PHM_FLASH_STAT_EC_MEAN]⟩
  , ⟨"PHM.TELEM", 0x5000010200, 1, 4, 16, 4, [F.PHM_TELEM_VALUE]⟩
  , ⟨"PHM.CNT", 0x5000010300, 1, 8, 8, 8, [F.PHM_CNT_COUNT]⟩
  , ⟨"PHM.GAUGE", 0x5000010800, 1, 8, 96, 8, [F.PHM_GAUGE_S_N, F.PHM_GAUGE_S_M, F.PHM_GAUGE_T_DIE, F.PHM_GAUGE_VCORE]⟩
  , ⟨"BLF.CTL", 0x50000D0000, 1, 0, 1, 4, [F.BLF_CTL_REPEAT_WIN]⟩
  , ⟨"BLF.STATUS", 0x50000D0004, 1, 0, 1, 4, [F.BLF_STATUS_STAGED, F.BLF_STATUS_FIRST_FULL]⟩
  , ⟨"BLF.NEXT_RSEQ", 0x50000D0008, 1, 0, 1, 8, [F.BLF_NEXT_RSEQ_RSEQ]⟩
  , ⟨"BLF.CURSOR", 0x50000D0010, 1, 0, 1, 8, [F.BLF_CURSOR_FIRST, F.BLF_CURSOR_RSEQ]⟩
  , ⟨"BLF.STEP", 0x50000D0018, 1, 0, 1, 4, [F.BLF_STEP_NEXT]⟩
  , ⟨"BLF.WIN_STAT", 0x50000D001C, 1, 0, 1, 4, [F.BLF_WIN_STAT_WIN_STATE, F.BLF_WIN_STAT_BUSY]⟩
  , ⟨"BLF.WIN", 0x50000D0100, 1, 8, 32, 8, [F.BLF_WIN_WORD]⟩
  , ⟨"BLF.CNT", 0x50000D0400, 1, 8, 4, 8, [F.BLF_CNT_COUNT]⟩ ]

/-- The registers of the spec, part 5. -/
def registers5 : List Register :=
  [ ⟨"TMC.START_STATUS", 0x5000000010, 1, 0, 1, 4, [F.TMC_START_STATUS_PHASE, F.TMC_START_STATUS_READY, F.TMC_START_STATUS_COND]⟩
  , ⟨"TMC.RESET_CAUSE", 0x5000000014, 1, 0, 1, 4, [F.TMC_RESET_CAUSE_KIND, F.TMC_RESET_CAUSE_CAUSE]⟩
  , ⟨"TMC.START_CFG", 0x5000000018, 1, 0, 1, 4, [F.TMC_START_CFG_LAT_WAIT]⟩ ]

/-- Every register of the module (R4 to R498). -/
def registers : List Register := registers1 ++ registers2 ++ registers3 ++ registers4 ++ registers5

end Sys2Proof.Machine
end

