-- ==== Sys2Proof/Machine/State.lean ====
section
/-! DEFINITION. The state of the module as plain data: one structure per block of R21, each field at its reset value. -/
namespace Sys2Proof.Machine

/-- Why a step stops. -/
inductive Fault
  /-- A `)` on an empty branch stack or a push onto 32 entries, which R242 shuts out of every committed program; raised
  by the Scarab push and pop instructions; safe: the spec gives no effect for it. -/
  | scarabStack
  deriving DecidableEq, Repr

/-- Why a command has no meaning. -/
inductive Refusal
  /-- The command has no meaning in the model yet; raised by an arm of `exec`; safe. -/
  | notModelled (mnemonic : String)
  deriving DecidableEq, Repr

/-- The response to the last access on the fabric (R9, R28): nothing asked yet, data, a write taken, or a bus error. -/
inductive BusResp
  | idle
  | data (v : Nat)
  | done
  | error
  | virtualInstruction
  deriving DecidableEq, Repr

/-- The supply states of R62. -/
inductive SupplyMode | normal | rideThrough | reset
  deriving DecidableEq, Repr

/-- A Belfry entry before it is written (R475, R476). -/
structure BelEntry where
  kind : Nat
  code : Nat
  source : Nat
  payload : List Nat
  time : Nat
  opSec : Nat
  cycles : Nat
  bundle : Nat
  deriving DecidableEq, Repr

/-- Supplies, rails, straps and low-speed pins (R42 to R64, R77). Voltages in mV; `started` counts the rails the
sequencer has started and `rails` those it has brought into regulation, in the order VCORE, VIO, VANA; bit r of `railsOk` is
whether rail r was in regulation when last measured; `vioSince` is the moment VIO_CAR came into range, `vioEver` whether it has been since MOD_PWROK last rose, `vioStop` from a fault of R58 to the next reset; `rideEnd` the end
of the running return timer, 0 where none runs, and `rideDue` the end of the 250 ms of R62; `downAt` 2 ms after a reset of R64 started with rails up; `iosel` and `pairsel` are the sampled straps,
`strapped` whether they have been sampled in this cold reset, `strapLow` whether VBUS has been below 9.0 V in it; `released` once
MOD_RST_OUT_N has risen; `dbgEn` and `dbgSel` the levels of DBG_EN and DBG_SEL; `ppsHigh` while a pulse of PPS_OUT runs; `warmFrom` while the start-up under way follows a warm reset; `rootPending` the cause of the cold reset
that a root-fault response is to start, 0 where none. -/
structure Supply where
  vbus : Nat := 0
  feedA : Nat := 0
  feedB : Nat := 0
  vioCar : Nat := 0
  vkeepLow : Bool := false
  vioEver : Bool := false
  vioDriven : Bool := false
  vioStop : Bool := false
  vioSince : Time := 0
  started : Nat := 0
  rails : Nat := 0
  railsOk : Nat := 0
  mode : SupplyMode := .reset
  rideMin : Nat := 0
  rideStart : Time := 0
  rideEnd : Time := 0
  rideDue : Time := 0
  downAt : Option Time := none
  carRstLow : Bool := false
  pinIosel : Bool := true
  pinPairsel : Bool := false
  iosel : Bool := false
  pairsel : Bool := false
  strapped : Bool := false
  strapLow : Bool := true
  dbgEn : Bool := false
  dbgSel : Bool := false
  pwrok : Bool := false
  released : Bool := false
  ppsHigh : Bool := false
  inCold : Bool := true
  warmFrom : Bool := false
  rootPending : Nat := 0
  dieHot : Bool := false
  vcore : Nat := 0
  coresUp : Bool := false
  deriving DecidableEq, Repr

/-- The Keep domain beside PHM.FAULT, PRC.EPOCH and PHM.KEEP_CNT, which are register fields (R24, R83, R478): the
real-time fallback as a GT96 second and a Keep tick with the module time at which it stood so, the staged Belfry
entries, and `lost` from a Keep reset to the KEEP_LOST record of the start-up after it, which carries `lostOp` and `lostCycles`. -/
structure Keep where
  fallSec : Nat := 0
  fallTick : Nat := 0
  fallAt : Time := 0
  lost : Bool := true
  lostOp : Nat := 0
  lostCycles : Nat := 0
  staged : List BelEntry := []
  dropped : Nat := 0
  deriving DecidableEq, Repr

/-- The carrier I/O bus controller beyond its registers (R70 to R74). -/
structure Qbc where
  running : Bool := false
  stopped : Bool := false
  waiting : Bool := false
  sentAny : Bool := false
  outWord : Nat := 0
  lastDo : Nat := 0
  refSeq : Option Nat := none
  badRun : Nat := 0
  goodRun : Nat := 0
  cand : Tbl Nat := []
  deriving DecidableEq, Repr

/-- One delay line of a TDC channel (R87 to R89); `redo` a calibration discarded in ride-through, to begin again; `calAt` and `calTemp`
the end of its last calibration and the die temperature then. -/
structure TdcLine where
  table : Tbl Int := []
  failed : Bool := false
  calibrating : Bool := false
  redo : Bool := false
  calAt : Option Time := none
  calTemp : Int := 0
  deriving DecidableEq, Repr

/-- One TDC channel: its two lines and the one in service (R87). -/
structure Tdc where
  line0 : TdcLine := {}
  line1 : TdcLine := {}
  inService : Nat := 0
  deriving DecidableEq, Repr

/-- A qualified foreign master (R91, R94): its last Announce with the moment it came, and the moment at which four Sync intervals
have passed since its last Sync. -/
structure FMaster where
  ann : PtpAnnounce
  at_ : Time
  due : Option Time
  deriving DecidableEq, Repr

/-- The timebase beyond its registers (R81 to R98). `t48` is module time with its hidden bits, in units of 2^-48 ns;
`delays` the peer-delay measurements of each port, newest first, and `discards` those discarded in a row; `rates` the rate
adjustments of the last 64 s with the times they were set, newest first, and `loadedAt` when the counter was loaded; `masterAt`
the moment from which no qualified master has been heard; `lostClass` the class of the lost master, `holdAcc` and `holdFrom` the
count towards HOLD_SPEC since, stopped and running, and `holdDone` whether it has passed; `pendSync` and `resps` the two-step
messages that wait for their follow-up, with their receive times; `reqs` the transmit times of Pdelay_Req frames by port with
their sequence numbers; `txAt` by message kind when the last one was sent; `ppsAt` the rise of the last PPS_OUT pulse. -/
structure Tbu where
  t48 : Nat := 0
  acc : Int := 0
  delays : Tbl (List Int) := []
  discards : Tbl Nat := []
  fineRun : Nat := 0
  coarseRun : Nat := 0
  firstOffset : Bool := true
  rates : List (Time × Int) := []
  loadedAt : Time := 0
  masterAt : Time := 0
  lostClass : Nat := 255
  holdAcc : Time := 0
  holdFrom : Option Time := none
  holdDone : Bool := false
  masters : List FMaster := []
  master : Option PtpAnnounce := none
  pendSync : Option (PtpSync × Time) := none
  reqs : List (Nat × Nat × Time) := []
  resps : List (PtpPdelay × Time) := []
  txAt : Tbl Time := []
  reqSeq : Nat := 0
  syncSeq : Nat := 0
  annSeq : Nat := 0
  ppsLast : Option Time := none
  ppsAt : Time := 0
  tdc : Tbl Tdc := []
  deriving DecidableEq, Repr

/-- The act a frame or a write depends on: for each lattice an instant (R38). -/
abbrev Dep := List (Nat × Nat)

/-- Where a transmit frame comes from (R117, R118): `first` is the index of its first descriptor; a PTP message's `kind` is
0 Announce, 1 Sync, 2 Follow_Up, 3 Pdelay_Req, 4 Pdelay_Resp, 5 Pdelay_Resp_Follow_Up. -/
inductive TxSource
  | ptp (kind seq : Nat)
  | pair
  | pub (index : Nat)
  | supervision
  | lldp
  | forwarded
  | ring (slice ring gen first ndesc : Nat) (tsReq : Bool)
  deriving DecidableEq, Repr

/-- A frame waiting for or in transmission (R117): `dep` the instants a ring frame waits for, `rel` whether it has entered
its class, `wvlDown` a Weevil LINK_DOWN at its end (R129), `done` word 2 of the descriptor where another copy of the frame has
been sent; `rxAt` the receive timestamp of a frame that a ring port forwards (R91). -/
structure TxFrame where
  src : TxSource
  frame : Frame
  cls : Nat
  dep : Dep := []
  badFcs : Bool := false
  rel : Bool := true
  wvlDown : Nat := 0
  done : Option Nat := none
  rxAt : Option Time := none
  deriving DecidableEq, Repr

/-- A frame steered to a ring and held in receive staging, with the descriptors claimed for it at its end: the first one and
how many (R115, R116). -/
structure Staged where
  ring : Nat
  first : Nat
  n : Nat
  frame : Frame
  ts : Time
  coarse : Bool
  copyCtx : Option Nat
  gen : Nat
  deriving DecidableEq, Repr

/-- A received frame on its way to the Classifier with its arrival time (R87, R129). -/
structure RxHeld where
  ev : RxEvent
  ts : Time
  coarse : Bool
  deriving DecidableEq, Repr

/-- One port's MAC beyond its registers (R106 to R129). `lock` is block lock held for 10 ms, `lockAt` the moment it came
where it has not yet; `curAt` and
`curTs` are the start of the frame in transmission and its timestamp, `idleAt` the end of the last one; `pauseUntil` is the end
of the running pause time, `pausedAt` when PAUSED rose, `ignFrom` the last watchdog trip; `pauseSent` while staging has not
fallen below 25 % since it passed 75 %, `pauseHigh` while it stands above 75 %, `pauseStay` while it has stayed above 50 % since the
last pause frame (R122), `pauseOut` the quanta of the newest pause frame sent, at `pauseTxAt`; `wvlTill` the end
of a LINK forced to 0 (R129); `txDelay` the frames that a Weevil delay holds, with the ends of their delays; `sent` the newest
frame sent; `readyAt` the moment a frame became ready in low-power idle (R124). -/
structure Mac where
  lock : Bool := false
  lockAt : Option Time := none
  q : List TxFrame := []
  cur : Option TxFrame := none
  curAt : Time := 0
  curTs : Time := 0
  idleAt : Time := 0
  staging : List Staged := []
  pauseUntil : Option Time := none
  pausedAt : Time := 0
  ignFrom : Time := 0
  pauseSent : Bool := false
  pauseHigh : Bool := false
  pauseStay : Bool := false
  pauseOut : Option Nat := none
  pauseTxAt : Time := 0
  stopped : Bool := false
  wvlTill : Option Time := none
  rxDelay : List RxHeld := []
  rxDup : List RxHeld := []
  txDelay : List (Time × TxFrame) := []
  sent : Option TxFrame := none
  lldpSent : Nat := 0
  readyAt : Option Time := none
  deriving DecidableEq, Repr

/-- The status of a duplicate-store entry (R136). -/
inductive DupStatus | pending | accepted
  deriving DecidableEq, Repr

/-- An entry of a duplicate store (R136): source address, sequence number, status, and the moment it was made. -/
structure DupEntry where
  sa : Nat
  seq : Nat
  st : DupStatus
  at_ : Time
  deriving DecidableEq, Repr

/-- One PRP or HSR pair (R109 to R112, R136): sequence counter, forwarding memory (address, sequence number, moment) and
duplicate store, oldest first, the node table of supervision frames, the tag of those it sends, and the time of the last one
sent (R112). -/
structure Pair where
  seq : Nat := 0
  fwd : List (Nat × Nat × Time) := []
  dup : List DupEntry := []
  nodes : List Nat := []
  tag : Option Vlan := none
  supAt : Option Time := none
  deriving DecidableEq, Repr

/-- The Weevil's rule counts (R129). -/
structure Wvl where
  seen : Tbl Nat := []
  acted : Tbl Nat := []
  deriving DecidableEq, Repr

/-- A lattice value of one channel with the flags of R194. `cls` is 0 GOOD, 1 QUESTIONABLE, 2 INVALID. -/
structure LVal where
  v : Int
  cls : Nat
  dq : Nat
  subst : Bool
  derived : Bool
  test : Bool
  coarse : Bool
  alt : Bool
  unver : Bool
  pred : Bool
  resamp : Bool
  volt : Bool
  deriving DecidableEq, Repr

/-- A source sample in a stream's window (R141, R163): index, sample time, class, channels, the frame it came in, and the number of
the window it was accepted in, which a restart moves on. -/
structure Smp where
  k : Int
  t : Int
  cnt : Bool
  chans : List LVal
  fid : Nat
  unver : Bool
  win : Nat
  deriving DecidableEq, Repr

/-- What the Classifier saves before a frame whose samples are written early, to withdraw it on a failed tag (R137): the
indices of R141, `start` the first since the window restarted, `winNo` the restarts counted; whether an ASDU has been classed and the class of the last; the
tracker of R142; the extremes of d over the last complete second and over the second `dSec`; the counters of R141; and the
time of the last count-aligned sample; `lastCnt` is the smpCnt accepted last. -/
structure CtxTrack where
  kHigh : Option Int := none
  kPrev : Option Int := none
  prevCnt : Nat := 0
  lastCnt : Nat := 0
  win : List Int := []
  start : Int := 0
  winNo : Nat := 0
  counted : Bool := false
  aligned : Bool := false
  tau : Int := 0
  per : Int := 0
  kLast : Int := 0
  running : Bool := false
  eRun : Nat := 0
  dEst : Int := 0
  dMin : Int := 0
  dMax : Int := 0
  dMinNow : Int := 0
  dMaxNow : Int := 0
  dSec : Nat := 0
  seqGap : Nat := 0
  dupStale : Nat := 0
  alignResync : Nat := 0
  lastT : Int := 0
  deriving DecidableEq, Repr

/-- The state of a Stream Context (R144, R147, R155). `health` is the coding of HEALTH; `heardAt` the time of the last accepted
frame or the start of the silence; `cleanFrom` the moment from which no condition of R144 but 0x4 holds; `orphan` an alternate
whose primary was removed; `first` the first accepted sample; `retireAt` by lattice the first instant closed after the removal. -/
structure Ctx where
  words : List Nat := []
  health : Nat := 0
  reason : Nat := 0
  sim : Bool := false
  gen : Nat := 0
  coarseTs : Bool := false
  lastRx : Nat := 0
  accepted : Nat := 0
  tagFail : Nat := 0
  confErr : Nat := 0
  simTest : Nat := 0
  switches : Nat := 0
  track : CtxTrack := {}
  samples : List Smp := []
  first : Option Smp := none
  heardAt : Time := 0
  cleanFrom : Option Time := none
  orphan : Bool := false
  invRun : Tbl Nat := []
  tagFails : List Time := []
  badRun : Nat := 0
  lastConf : Bool := false
  stNum : Nat := 0
  sqNum : Nat := 0
  tal : Nat := 0
  olderRun : Nat := 0
  confRun : Nat := 0
  gooseTest : Bool := false
  gooseConf : Bool := false
  altFeeds : Bool := false
  liveSince : Option Time := none
  retireAt : List (Nat × Nat) := []
  deriving DecidableEq, Repr

/-- A foreign-stream entry (R151). -/
structure ForeignEntry where
  valid : Bool := false
  goose : Bool := false
  port : Nat := 0
  tagged : Bool := false
  sa : Nat := 0
  appid : Nat := 0
  da : Nat := 0
  idCrc : Nat := 0
  idLen : Nat := 0
  vid : Nat := 0
  lastSeen : Nat := 0
  frames : Nat := 0
  firstSec : Nat := 0
  deriving DecidableEq, Repr

/-- Samples on their way to the Lattice (R153, R157). -/
structure LWrite where
  ctx : Nat
  gen : Nat
  smps : List Smp
  deriving DecidableEq, Repr

/-- A frame whose tag is being verified (R137): its context, generation, event, arrival time, whether its samples are to be
written before the result and have been, and the indexing saved before. -/
structure TagWait where
  ctx : Nat
  gen : Nat
  ev : RxEvent
  ts : Time
  coarse : Bool
  early : Bool
  written : Bool
  saved : CtxTrack
  smps : List Smp
  fid : Nat
  deriving DecidableEq, Repr

/-- A redundant copy held behind a pending one (R136). -/
structure DupHeld where
  pair : Nat
  ev : RxEvent
  ts : Time
  coarse : Bool
  deriving DecidableEq, Repr

/-- The Ingress Classifier and the Stream Context Table beyond their registers (R130 to R156). -/
structure Ingress where
  ctx : Tbl Ctx := []
  map : Tbl Nat := []
  foreign : Tbl ForeignEntry := []
  fevtSec : Nat := 0
  fevtCount : Nat := 0
  writes : List LWrite := []
  tags : List TagWait := []
  held : List DupHeld := []
  fid : Nat := 0
  deriving DecidableEq, Repr

/-- A feeder of a lattice channel (R162): the channel's offset in its lattice, the Stream Context, the channel of the
stream, whether it is a voltage, and whether the context is an alternate. -/
structure Feed where
  off : Nat
  ctx : Nat
  chan : Nat
  volt : Bool
  alt : Bool
  deriving DecidableEq, Repr

/-- A closed instant of a lattice (R168, R170, R178). `final` marks one that closes once; `paths` by context: 0 direct,
1 resampled and count-aligned, 2 resampled and timestamp-aligned; `used` the frames whose samples entered it; `late` the
contexts whose late contribution is counted. -/
structure Instant where
  n : Nat
  final : Bool := false
  stalled : Bool := false
  spec : Bool := false
  refutes : Nat := 0
  tClose : Nat := 0
  tConf : Nat := 0
  feeds : List Feed := []
  awaited : List Nat := []
  missing : List Nat := []
  paths : Tbl Nat := []
  anchors : List (Nat × Int × Int) := []
  vals : List (Nat × LVal) := []
  coefs : Tbl Int := []
  tolI : Nat := 0
  tolV : Nat := 0
  tolRel : Nat := 0
  used : List Nat := []
  late : List Nat := []
  deriving DecidableEq, Repr

/-- One lattice (R158 to R180): `next` is the lowest instant not closed, `conf` the newest CONFIRMED one, `pc` and `dl` the
lowest instants whose provisional close time and deadline have not been reached, `specAt` the SPEC_EN that open instants
past their provisional close time took, `stalled` the open instants stalled at depth, `insts` the closed instants above
`conf` in order, `done` the instants confirmed last, newest first, `anchors` the newest sample of each stream when the last
instant closed, and `fed` the contexts, with their generations, that have fed an instant. -/
structure Lattice where
  running : Bool := false
  n0 : Nat := 0
  next : Nat := 0
  conf : Nat := 0
  pc : Nat := 0
  dl : Nat := 0
  specAt : List (Nat × Bool) := []
  stalled : List Nat := []
  insts : List Instant := []
  done : List Instant := []
  anchors : List (Nat × Int × Int) := []
  fed : List (Nat × Nat) := []
  predRun : Tbl Nat := []
  substTotal : Tbl Nat := []
  seqs : Tbl Nat := []
  deriving DecidableEq, Repr

/-- The running sums of one bin (R204). -/
structure Sum where
  re : Int := 0
  im : Int := 0
  deriving DecidableEq, Repr

/-- A frequency group's state (R211): f_g, FHOLD, its newest source phasors and f_g values, newest first. -/
structure Group where
  f : F32 := 0
  hold : Bool := false
  hist : List (F32 × F32) := []
  fHist : List F32 := []
  dfdt : F32 := 0
  deriving DecidableEq, Repr

/-- The Phasor Engine's state of one lattice that rollback restores (R207): sums by 32 × channel + bin, squares by
channel, groups by index, and the instants closed since the start. -/
structure PheLat where
  sums : Tbl Sum := []
  sq : Tbl Int := []
  groups : Tbl Group := []
  count : Nat := 0
  deriving DecidableEq, Repr

/-- A record of R220: its binary32 values in record order and its flags; `chansOk` whether every channel record used is
VALID. -/
structure Rec where
  vals : List F32 := []
  valid : Bool := false
  est : Bool := false
  quest : Bool := false
  test : Bool := false
  fill : Bool := false
  fhold : Bool := false
  alt : Bool := false
  lowi : Bool := false
  chansOk : Bool := true
  deriving DecidableEq, Repr

/-- Every phasor record of one instant (R219), by object index. -/
structure PheOut where
  chan : Tbl Rec := []
  harm : Tbl Rec := []
  sets : Tbl Rec := []
  zones : Tbl Rec := []
  loops : Tbl Rec := []
  groups : Tbl Rec := []
  deriving DecidableEq, Repr

/-- The values of an instant as it closed, waiting for the Phasor Engine (R202, R206), with the SLE's header words. -/
structure PheIn where
  lat : Nat
  n : Nat
  vals : List (Nat × LVal)
  deriving DecidableEq, Repr

/-- A fold waiting for the results of its instant (R206): lattice, instant, channel, old and new value as they enter. -/
structure Fold where
  lat : Nat
  n : Nat
  chan : Nat
  old : Int
  new : Int
  deriving DecidableEq, Repr

/-- The Phasor Engine beyond its registers (R202 to R218): tables by 8192 × table + index; `done` the newest instant whose
results are complete; `saved` the state after an instant; `outs` the records of unconfirmed instants. -/
structure Phe where
  tab : Tbl (List Nat) := []
  lats : Tbl PheLat := []
  done : Tbl Nat := []
  saved : List (Nat × Nat × PheLat) := []
  ins : List PheIn := []
  outs : List (Nat × Nat × PheOut) := []
  folds : List Fold := []
  seqs : Tbl Nat := []
  deriving DecidableEq, Repr

/-- A guard's state (R226): counters, flags, the previous inputs newest first (none for invalid), and its evaluations. -/
structure Guard where
  cnt : Nat := 0
  dcnt : Nat := 0
  out : Bool := false
  pu : Bool := false
  cfgN : Nat := 0
  hist : List (Option F32) := []
  deriving DecidableEq, Repr

/-- A guard record (R220, R225). -/
structure GRec where
  q1 : F32 := 0
  q2 : F32 := 0
  cnt : Nat := 0
  dcnt : Nat := 0
  out : Bool := false
  pu : Bool := false
  inv : Bool := false
  est : Bool := false
  unres : Bool := false
  lowi : Bool := false
  deriving DecidableEq, Repr

/-- A G update (R230): lattice, instant, and OUT of every guard of the lattice (those that are 1). -/
structure GUpdate where
  lat : Nat
  n : Nat
  outs : List Nat
  deriving DecidableEq, Repr

/-- The Guard Comparators beyond their registers (R222 to R232): configurations newest first with the instant from which
each applies, `fresh` those with which a guard starts from zero. -/
structure Gcm where
  cfg : Tbl (List (Nat × List Nat)) := []
  fresh : List (Nat × Nat) := []
  st : Tbl Guard := []
  saved : List (Nat × Nat × Tbl Guard) := []
  recs : List (Nat × Nat × Tbl GRec) := []
  confRec : Tbl GRec := []
  ready : List GUpdate := []
  seqs : Tbl Nat := []
  deriving DecidableEq, Repr

/-- A Scarab timer (R246); `last` is T_LAST, none before the first execution. -/
structure Timer where
  et : Nat := 0
  q : Bool := false
  inPrev : Bool := false
  run : Bool := false
  last : Option Time := none
  deriving DecidableEq, Repr

/-- A Scarab counter (R248): `primed` until its first execution. -/
structure Counter where
  cv : Nat := 0
  q : Bool := false
  eprev : Bool := false
  primed : Bool := true
  deriving DecidableEq, Repr

/-- An edge memory (R249): `primed` until its first execution. -/
structure Edge where
  b : Bool := false
  primed : Bool := true
  deriving DecidableEq, Repr

/-- A slot's run state (R262, R266): the mode in force, the mode requests applied, the cycle of its first run since STOP,
a swap or start-up, whether the staged program has replaced the old one, and the words of the program replaced while their
carry-over waits for the next run. -/
structure SlotSt where
  mode : Nat := 0
  applied : Nat := 0
  first : Option Nat := none
  swapped : Bool := false
  carry : Option (List Nat) := none
  deriving DecidableEq, Repr

/-- What a journal entry restores (R260). -/
inductive OpVal
  | q (v : Bool)
  | m (v : Bool)
  | e (v : Edge)
  | t (v : Timer)
  | c (v : Counter)
  | slot (v : SlotSt)
  deriving DecidableEq, Repr

/-- One journal entry (R260): the class, its cycle, the operand index, and the value before the cycle's first write. A
cycle is numbered by its instant in a per-instant class and counted in a timed class. -/
structure JEntry where
  cls : Nat
  n : Nat
  ix : Nat
  old : OpVal
  deriving DecidableEq, Repr

/-- An output set (R258): its class, the Q bits written, its dependency, and the stamp of its cycle. -/
structure OutSet where
  cls : Nat
  id : Nat
  qs : List (Nat × Bool)
  dep : Option (Nat × Nat)
  stamp : Time
  deriving DecidableEq, Repr

/-- The operation of a branch-stack entry (R242). -/
inductive StackOp | and | or | xor
  deriving DecidableEq, Repr

/-- The images a class takes at cycle start (R255, R256, R265): F as words, K as one number, forces by
2^18 × space + index, 1 a forced 0 and 2 a forced 1. -/
structure Images where
  i : Tbl Bool := []
  s : Tbl Bool := []
  k : Nat := 0
  g : Tbl Bool := []
  f : Tbl Nat := []
  q : Tbl Bool := []
  m : Tbl Bool := []
  t : Tbl Timer := []
  c : Tbl Counter := []
  e : Tbl Edge := []
  forces : Tbl Nat := []
  deriving DecidableEq, Repr

/-- A class's cycle and its history (R250 to R261): `n` numbers the cycle, `slots` are those still to run, the running one
first, `used` those run, `nextOver` and `nextWarn` what the next cycle reads as OVERRUN and OVR_WARN, `lastN` the newest
instant taken, `due` the start time that waits for classes of higher priority (R252), `reTop` the newest instant re-closed by a refutation, `ready` whether a cycle
has been completed and confirmed (R497), `t0` and `lastStart` the times of R251, `stamps` those of the cycles completed as
Watch since the last image (R374). -/
structure ClassSt where
  running : Bool := false
  ended : Bool := false
  n : Nat := 0
  stamp : Time := 0
  slots : List Nat := []
  pc : Nat := 0
  acc : Bool := false
  stack : List (Bool × StackOp) := []
  written : Tbl Nat := []
  cycles : Nat := 0
  img : Images := {}
  prov : Bool := false
  reexec : Bool := false
  overrun : Bool := false
  ovrWarn : Bool := false
  nextOver : Bool := false
  nextWarn : Bool := false
  lastN : Option Nat := none
  due : Option Time := none
  reTop : Option Nat := none
  ready : Bool := false
  t0 : Time := 0
  lastStart : Option Time := none
  stamps : List Time := []
  deriving DecidableEq, Repr

/-- A mode request of a slot (R262, R348): the first cycle it applies to, the mode, and whether it also returns markers and
counters to their start values. -/
structure ModeReq where
  from_ : Nat
  mode : Nat
  clear : Bool
  deriving DecidableEq, Repr

/-- A staged program (R266), its slot, the LOAD_STATE, and the first cycle it applies to once the swap point is set. -/
structure StagedProg where
  slot : Nat
  prog : ProgramImage
  base : Nat
  stage : Nat
  swapAt : Nat
  deriving DecidableEq, Repr

/-- The cycle start from which an F clearing update stands in the images (R350): the class, its lattice where it is per-instant, the
cycle, and whether it has begun. -/
structure FStart where
  cls : Nat
  lat : Option Nat
  n : Nat
  begun : Bool
  deriving DecidableEq, Repr

/-- A pending F write (R344): the writing slice, word, flags, dependency, whether a newer one is confirmed already, and the cycle
start that a clearing update waits for. -/
structure FWrite where
  slice : Nat
  word : Nat
  val : Nat
  dep : Dep
  old : Bool
  start : Option FStart
  deriving DecidableEq, Repr

/-- The Scarab beyond its registers (R237 to R272): tables by 2^18 × table + index; presets and limits by the first cycle
they apply to, newest first; the live operands; the forces by operand, and by table entry the operand + 1 that it forces; the
released shadow of Q. -/
structure Slp where
  tab : Tbl (List Nat) := []
  prm : Tbl (List (Nat × Nat)) := []
  badWords : List Nat := []
  i : Tbl Bool := []
  q : Tbl Bool := []
  m : Tbl Bool := []
  t : Tbl Timer := []
  c : Tbl Counter := []
  e : Tbl Edge := []
  s : Tbl Bool := []
  fConf : Tbl Nat := []
  fPend : List FWrite := []
  gUpd : List GUpdate := []
  forces : Tbl Nat := []
  forceAt : Tbl Nat := []
  cls : Tbl ClassSt := []
  slots : Tbl SlotSt := []
  reqs : Tbl (List ModeReq) := []
  faults : List Nat := []
  cur : Option Nat := none
  journal : List JEntry := []
  held : List OutSet := []
  setId : Nat := 0
  rel : Tbl Bool := []
  staged : Option StagedProg := none
  deriving DecidableEq, Repr

/-- A staged publication frame (R277): publication, output set, content, stamp. -/
structure PubStaged where
  pub : Nat
  set : Nat
  content : List Bool
  stamp : Time
  deriving DecidableEq, Repr

/-- A publication's run state (R278 to R289): the last released content, if any, with the time of its change; the numbers in
force; `j` the frame of the schedule sent last and `due` the scheduled time of the next; SIM and TEST of the last release; the frame
sent last with its SIM and TEST; the state handed over by the peer; whether a frame has gone out since the last PUB_SYNC; and for SV the first instant
of the frame being filled. -/
structure PubSt where
  has : Bool := false
  content : List Bool := []
  stamp : Time := 0
  numbered : Bool := false
  stNum : Nat := 0
  sqNum : Nat := 0
  j : Nat := 0
  due : Time := 0
  scheduled : Bool := false
  sim : Bool := false
  test : Bool := false
  noKey : Bool := false
  sentSim : Bool := false
  sentTest : Bool := false
  sentCrc : Nat := 0
  sentSt : Nat := 0
  sentSq : Nat := 0
  lastTx : Nat := 0
  frames : Nat := 0
  handed : Option PubSyncRec := none
  sinceSync : Bool := false
  svRun : Bool := false
  svNext : Nat := 0
  deriving DecidableEq, Repr

/-- A ring descriptor held at the head of its ring for its dependency (R282): ring, slice, generation, descriptor,
publication, content. -/
structure PubHeld where
  ring : Nat
  slice : Nat
  gen : Nat
  desc : Nat
  pub : Nat
  dep : Dep
  content : List Bool
  deriving DecidableEq, Repr

/-- A frame numbered and not yet handed to the MACs (R286): its place in the order of one moment, its ports. -/
structure PubReady where
  key : List Nat
  ports : Nat
  frame : TxFrame
  deriving DecidableEq, Repr

/-- An SV frame formed of CONFIRMED instants that waits for held acts on earlier ones (R41): publication, lattice, the instant of
its last ASDU, and the frame without its extension. -/
structure SvHeld where
  pub : Nat
  lat : Nat
  n : Nat
  pdu : SvPdu
  deriving DecidableEq, Repr

/-- The Publication Engine beyond its registers (R275 to R289). -/
structure Pub where
  ent : Tbl (List Nat) := []
  memb : Tbl Nat := []
  st : Tbl PubSt := []
  staged : List PubStaged := []
  held : List PubHeld := []
  svHeld : List SvHeld := []
  ready : List PubReady := []
  deriving DecidableEq, Repr

/-- A trigger entry's state (R305, R307): the arming flag, priming, the previous value (a sample, or the bits of a
quantity; none where unusable), and the previous 64 channels. -/
structure TrigSt where
  armed : Bool := true
  primed : Bool := false
  v0 : Option Int := none
  b0 : Nat := 0
  deriving DecidableEq, Repr

/-- A pending trigger (R304, R309): instance, instant, trigger time, source. -/
structure Trig where
  inst : Nat
  n : Nat
  t : Time
  source : Nat
  deriving DecidableEq, Repr

/-- A recorder instance (R310 to R315). `state` is the coding of STATE; `slot` the next row slot of the current buffer, of
which `history` rows are written; of the open record the first N, the trigger row's rows before it, the rows written, the
instant of the end row, its marks and triggers; `lastN` the last row written; `tEnd` the time of the last record's last row;
`manual` the instants of manual triggers. -/
structure RecInst where
  state : Nat := 0
  buf : Nat := 0
  slot : Nat := 0
  history : Nat := 0
  firstN : Nat := 0
  firstSlot : Nat := 0
  preRows : Nat := 0
  rows : Nat := 0
  endN : Nat := 0
  preShort : Bool := false
  trigs : List (Time × Nat) := []
  synchTrig : Nat := 0
  utcValid : Nat := 0
  utcOff : Nat := 0
  recNo : Nat := 0
  nextRec : Nat := 0
  lastN : Nat := 0
  tEnd : Time := 0
  manual : List Nat := []
  deriving DecidableEq, Repr

/-- The binary values of an instant, taken when the guard flags of N become visible (R298). -/
structure BinRow where
  inst : Nat
  n : Nat
  vals : List Bool
  deriving DecidableEq, Repr

/-- The Disturbance Recorder Engine beyond its registers (R296 to R321): tables by 16384 × table + index; `done` the newest
instant of each lattice whose triggers and rows are dealt with, `saved` the trigger states after an instant, `last` the
instance entries of the bundle committed last, which tell where the record store's areas lie (R319). -/
structure Dre where
  tab : Tbl (List Nat) := []
  inst : Tbl RecInst := []
  trig : Tbl TrigSt := []
  saved : List (Nat × Nat × Tbl TrigSt) := []
  savedLvl : List (Nat × Nat × Tbl TrigSt) := []
  pend : List Trig := []
  cross : List Trig := []
  bins : List BinRow := []
  done : Tbl Nat := []
  last : Tbl (List Nat) := []
  deriving DecidableEq, Repr

/-- A slice beyond its table words (R348, R352, R354). `state` is the coding of STATE. -/
structure Slice where
  state : Nat := 0
  gen : Nat := 0
  inflightNow : Nat := 0
  deficit : Tbl Nat := []
  lastRing : Tbl Nat := []
  errs : Nat := 0
  errSec : Nat := 0
  refused : Nat := 0
  dbErr : Nat := 0
  descErr : Nat := 0
  withdrawn : Nat := 0
  abandoned : Nat := 0
  evtLost : Nat := 0
  rxNobuf : Nat := 0
  lost : Nat := 0
  eseq : Nat := 0
  refEvt : Option Time := none
  quiesceAt : Time := 0
  deriving DecidableEq, Repr

/-- The end of a frame or submission of a ring, waiting for those before it: first descriptor, descriptors, STATUS, word 2 of
the last one, and ST_NUM of a submission (R336, R337). -/
structure RingEnd where
  first : Nat
  n : Nat
  status : Nat
  ts : Nat
  st : Option Nat
  deriving DecidableEq, Repr

/-- A ring beyond its table words (R333, R339): `deps` gives, for each doorbell write whose descriptors are not all fetched,
the index written and the dependency the write carried (R39); `claimed` counts the descriptors claimed for staged frames
(R115). -/
structure Ring where
  index : Nat := 0
  deps : List (Nat × Dep) := []
  gone : List Nat := []
  head : Nat := 0
  fetched : Nat := 0
  claimed : Nat := 0
  ended : List RingEnd := []
  rstate : Nat := 0
  placed : Bool := false
  held : Bool := false
  modRun : Bool := false
  modAdv : Bool := false
  modTill : Time := 0
  nobuf : Nat := 0
  nobufAt : Option Time := none
  deriving DecidableEq, Repr

/-- An application core's ftag CSR and what a change of it did (R328). -/
structure Core where
  valid : Bool := false
  pasid : Nat := 0
  flushes : Nat := 0
  deriving DecidableEq, Repr

/-- An interrupt message sent (R339): core, file, identity. -/
structure IrqMsg where
  core : Nat
  file : Nat
  ident : Nat
  deriving DecidableEq, Repr

/-- The Slice Table beyond its registers (R324 to R355): tables by 4096 × table + index. -/
structure Slt where
  tab : Tbl (List Nat) := []
  slices : Tbl Slice := []
  rings : Tbl Ring := []
  cores : Tbl Core := []
  irqs : List IrqMsg := []
  deriving DecidableEq, Repr

/-- A digest taken or received (R373, R374): class, stamp, value, and when it came. -/
structure Digest where
  cls : Nat
  stamp : Nat
  val : Nat
  at_ : Time
  deriving DecidableEq, Repr

/-- An image accepted, waiting for application (R374). -/
structure Image where
  cls : Nat
  stamp : Nat
  octets : Octets
  deriving DecidableEq, Repr

/-- A pair message of several parts as it comes in (R362): its sequence, its parts, the payload of each part, and when
the first one came. -/
structure PartSet where
  mseq : Nat
  parts : Nat
  got : List (Nat × Octets × List PubSyncRec)
  at_ : Time
  deriving DecidableEq, Repr

/-- The Pair Controller beyond its registers (R358 to R379). `tick` counts ticks; `lastHeard` is the end of the last heartbeat
accepted, before one the moment that group A started; `heardK` and `heardC` by carrier, `lastSending` the last one of a sending peer; `renewed` the last renewal of the
lease and `gapFrom` the start of the running gap; `watchRun` and `fencedRun` count ticks for R364; a switch-over is `armed`
by its command, `dropAt` the moment the lease was dropped and `handAt` that of HANDOVER; `pubSeen` the last publication of the
peer seen; by class, `matchRun` counts matching digests and `reqAt` holds the time of the last request; `own` and `peer` are
digests without a partner yet, `lastDig` the stamp of the class's newest digest point; `reqs` the classes whose image the peer
asked for, `images` those accepted and `imaged` the classes replaced by an image since the module joined (R377); `parts`
messages incomplete, `seen` the sequences of messages taken lately; `lineAt` the end of the last frame on CIC_RX, discarded ones
included (R381); `cicSent` the block of the newest heartbeat on CIC_TX and `cicFrom` the start of its frame (R361). -/
structure Prc where
  tick : Nat := 0
  mseq : Nat := 0
  peerEpoch : Nat := 0
  peerRole : Option Nat := none
  peerBlock : Octets := []
  lastHeard : Time := 0
  heard : Bool := false
  heardK : Option Time := none
  heardC : Option Time := none
  lastSending : Option Time := none
  renewed : Time := 0
  gapFrom : Time := 0
  watchRun : Nat := 0
  fencedRun : Nat := 0
  armed : Bool := false
  dropAt : Time := 0
  handAt : Option Time := none
  switchReq : Option Req := none
  pubSeen : Option Time := none
  matchRun : Tbl Nat := []
  own : List Digest := []
  peer : List Digest := []
  lastDig : Tbl Nat := []
  reqs : List Nat := []
  reqAt : Tbl Nat := []
  images : List Image := []
  parts : List PartSet := []
  seen : List Nat := []
  cicTxAt : Time := 0
  imaged : List Nat := []
  lineAt : Option Time := none
  cicSent : Octets := []
  cicFrom : Time := 0
  deriving DecidableEq, Repr

/-- One channel of a safety input (R388, R389): its state, what it read last, since when and how often, and whether a test
pulse has returned since it last read open. -/
structure SafeCh where
  closed : Bool := false
  reads : Bool := false
  since : Nat := 0
  run : Nat := 0
  returned : Bool := false
  deriving DecidableEq, Repr

/-- A safety input (R389, R390); times in 25 µs samples. `was` is CLOSED after the last sample, `closedAt` when it became so,
`reset` whether it acted as a reset input in the cycle. -/
structure SafeIn where
  a : SafeCh := {}
  b : SafeCh := {}
  disFrom : Option Nat := none
  fault : Bool := false
  was : Bool := false
  closedAt : Nat := 0
  reset : Bool := false
  deriving DecidableEq, Repr

/-- A safety function instance (R391 to R393): `opened` whether an input of it was open at any sample of the cycle; for a
two-hand instance whether both inputs have been open at once since the last permit. -/
structure SafeFn where
  ok : Bool := false
  latched : Bool := false
  bothOpen : Bool := false
  opened : Bool := false
  deriving DecidableEq, Repr

/-- An arc channel (R394, R395): cycles at LTH or above in a row, light seen with the end of the last such cycle, the bits of the
current-presence updates received since the light was confirmed, failed tests in a row, and the count of a self-test cycle. -/
structure ArcCh where
  run : Nat := 0
  seen : Bool := false
  lastLight : Nat := 0
  cur : Nat := 0
  fails : Nat := 0
  sens : Bool := false
  testing : Option Nat := none
  deriving DecidableEq, Repr

/-- A safety output (R397, R398): energised, its two pins, its fault, and when a change that awaits its check was made. -/
structure SafeOut where
  on : Bool := false
  a : Bool := false
  b : Bool := false
  fault : Bool := false
  changedAt : Option Nat := none
  deriving DecidableEq, Repr

/-- What a proof-open test serves (R400, R407): the start of the island, or SAFETY_PROOF. -/
inductive ProofFor | start | again | command
  deriving DecidableEq, Repr

/-- The safety island (R384 to R402): island time in 25 µs samples; `cpwQueue` the current-presence updates on their way; the
start of the low pulse under way on TP_A and TP_B; the ARCT pins; whether a bundle has given parameters; the proof-open test
under way, its output and step, when the step began and whether SFBk has read low in its first step, the outcome of one made by
command; and whether VIO_CAR has been lost since the last one. -/
structure Island where
  powered : Bool := false
  time : Nat := 0
  ins : Tbl SafeIn := []
  fns : Tbl SafeFn := []
  arc : Tbl ArcCh := []
  arcLatched : Nat := 0
  outs : Tbl SafeOut := []
  cpwAt : Nat := 0
  cpwQueue : List (Nat × Nat) := []
  tpA : Option Nat := none
  tpB : Option Nat := none
  arct : Nat := 0
  haveParam : Bool := false
  proof : Option ProofFor := none
  proofK : Nat := 0
  proofStep : Nat := 0
  proofAt : Nat := 0
  proofLow : Bool := false
  proofOk : Option Bool := none
  mustProof : Bool := false
  deriving DecidableEq, Repr

/-- A group-key slot (R419). -/
structure KeySlot where
  alg : Nat
  keyId : Nat
  key : Octets
  start : Nat
  lifetime : Nat
  deriving DecidableEq, Repr

/-- A node's record in the Dome store (R413 to R419). `kind` is the coding of R413; `key` a transport key or an anchor's public
key, the keys of the other types being derived from the root; `sealed` what the record holds of imported and agreed keys under the
wrapping key (R415), `mac` the HMAC of an anchor record (R428); `destroyed` until its sweep. -/
structure Node where
  kind : Nat := 0
  parent : Nat := 0
  depth : Nat := 0
  gen : Nat := 0
  key : Nat := 0
  destroyed : Bool := false
  cur : Option KeySlot := none
  nxt : Option KeySlot := none
  usage : Nat := 0
  sealed : List Nat := []
  mac : Nat := 0
  deriving DecidableEq, Repr

/-- The Dome (R408 to R435): the Dome store with nodes 2 and 4 upward, the measurement slots with their counts, the helper syndromes
and the check value in the one-time fuses, the working copy of the root, the anchors' HMAC key and the public DIK point that it
gave, the blown debug fuses, the challenge with its time, the AK statement, and the status of a debug opening until its
COMPLETION. -/
structure Dome where
  nodes : Tbl Node := []
  ms : Tbl Nat := []
  msCount : Tbl Nat := []
  helper : List Nat := (List.range 8).map Config.pufHelper
  check : Nat := Config.pufCheck
  root : Option Nat := none
  anchorKey : Nat := 0
  dikPub : Nat := 0
  fuses : Nat := 0
  challenge : Option (Nat × Time) := none
  akStmt : List Nat := []
  openStatus : Option Nat := none
  deriving DecidableEq, Repr

/-- A reply waiting or posted (R437, R440); while it has no octets it keeps the place of a command accepted and not yet answered
(R451). -/
structure Reply where
  tag : Nat
  status : Nat
  octets : Octets
  deriving DecidableEq, Repr

/-- A packet taken for execution (R451): its session, tag, opcode and parameters, the place in the Dome mailbox that held them, and
whether its replies are delivered (R433, R441, R454). -/
structure Packet where
  sess : Nat
  tag : Nat
  op : Nat
  params : Octets
  box : Option (Nat × Nat) := none
  deliver : Bool := true
  deriving DecidableEq, Repr

/-- A session (R438, R440, R443): outstanding tags, replies waiting in order of acceptance, the one posted in a mailbox, those sent
over TLS, oldest first, whether a TLS session is open, the octets of a packet not yet whole, the time of the last packet, and the
Dome's signature in the handshake. -/
structure Session where
  tags : List Nat := []
  replies : List Reply := []
  posted : Option Reply := none
  sent : List Reply := []
  opened : Bool := false
  buffer : Octets := []
  lastAt : Time := 0
  certVerify : Nat := 0
  deriving DecidableEq, Repr

/-- A running long command (R452); `held` are the transfer objects it uses. -/
structure Job where
  group : Nat
  op : Nat
  q : Req
  start : Nat
  obj : Nat
  deliver : Bool
  held : List Nat
  deriving DecidableEq, Repr

/-- A transfer object (R448). -/
structure Xfer where
  size : Nat
  data : Tbl Nat
  deriving DecidableEq, Repr

/-- What a running REC_EXPORT writes (R317, R318): format, the two buffers, the records, and the records' instances and
buffers that it holds. -/
structure ExportJob where
  fmt : Nat
  cfg : BufRef
  dat : BufRef
  recs : List RecSrc
  deriving DecidableEq, Repr

/-- The bundle slots of the archive flash with PENDING's mark (R459). -/
structure Slots where
  active : Option Bundle
  pending : Option Bundle
  mark : Bool
  deriving DecidableEq, Repr

/-- The Turret management controller beyond its registers (R437 to R459): `staging` is the bundle that a running BUNDLE_STAGE
checks; `stored` what the flash still holds of the slots while a write of them is deferred (R63); `texts` the strings of the committed bundle, by 65536 × kind + index (R281, R283, R124); `resetDue` the causes of the resets that commands have asked for, 0 for a warm one, with their moments; `groupAt` the moment
group A was enabled. -/
structure Tmc where
  sess : Tbl Session := []
  taken : List Packet := []
  jobs : List Job := []
  xfer : Tbl Xfer := []
  handles : Nat := 0
  active : Option Bundle := none
  pending : Option Bundle := none
  staging : Option Bundle := none
  texts : Tbl Octets := []
  exp : Option ExportJob := none
  mark : Bool := false
  stored : Option Slots := none
  fallback : Bool := false
  lastFail : List Nat := []
  bundleId : Nat := 0
  locked : Bool := false
  resetDue : List (Nat × Time) := []
  groupAt : Time := 0
  c1 : Bool := false
  c2 : Bool := false
  deriving DecidableEq, Repr

/-- Telemetry of one quantity (R464, R465, R468, R479): the last 100 samples, newest first, the sum and number of the samples of the
present minute and the seconds of it, the extremes last recorded, and the figures of the operating day. -/
structure Telem where
  recent : List Int := []
  minuteSum : Int := 0
  minuteCount : Nat := 0
  minuteSecs : Nat := 0
  lastMin : Int := 0
  lastMax : Int := 0
  dayMin : Int := 0
  dayMax : Int := 0
  daySum : Int := 0
  dayCount : Nat := 0
  deriving DecidableEq, Repr

/-- Health, ageing, the archive flash and the Belfry header beyond their registers (R461 to R479): telemetry by quantity and the
archive's rows, newest first; the ECC corrections of the present second and of the last whole one; the DRAM words poisoned; the
blocks erased and retired; each gauge's values newest first, and the measurements made; the thermal
step and since when T_PLATE has stayed below its threshold, with the time of the last change of step; the operating day of the
last measurement by command and the days ended; the measurement under way or deferred, by command or not and for which day, and
when a deferred one is due (0 while that is open); the PUF records. The header fields, the histories, the archive and the flash
outlive every reset (R488). -/
structure Health where
  telem : Tbl Telem := []
  archive : List (List Int) := []
  eccSec : Nat := 0
  eccLast : Nat := 0
  poisoned : List Nat := []
  erases : Tbl Nat := []
  retired : List Nat := []
  hist : Tbl (List (Nat × Int)) := []
  histN : Nat := 0
  thermal : Nat := 0
  coolFrom : Option Time := none
  stepAt : Option Time := none
  cmdDay : Option Nat := none
  dayDone : Nat := 0
  meas : Option (Bool × Nat) := none
  measDue : Option Time := none
  pufLog : List (Nat × Nat) := []
  hdrPlan : Nat := 0
  hdrOpSec : Nat := 0
  hdrCycles : Nat := 0
  hdrNext : Nat := 0
  hdrAge : Nat := 0
  hdrCore : Nat := 0
  deriving DecidableEq, Repr

/-- The outcome that a running block operation delivers at its end: RESULT and the data words (R500). -/
structure CmdOut where
  result : Nat := 0
  data : List Nat := []
  deriving DecidableEq, Repr

/-- Everything the module holds, and the queue of commands that wait. `regs` holds every register field of the register
map that differs from its reset value; `mem` every octet of DRAM, Sample Memory, the MRAM window, the mailboxes and the
Dome mailbox that is not 0; `cmds` the outcomes of running
block operations by block page; `free` counts the free values drawn. -/
structure State where
  regs : Tbl Nat := []
  mem : List Host.Cell := []
  bus : BusResp := .idle
  sup : Supply := {}
  keep : Keep := {}
  qbc : Qbc := {}
  tbu : Tbu := {}
  mac : Tbl Mac := []
  pairs : Tbl Pair := []
  wvl : Wvl := {}
  ing : Ingress := {}
  lat : Tbl Lattice := []
  phe : Phe := {}
  gcm : Gcm := {}
  slp : Slp := {}
  pub : Pub := {}
  dre : Dre := {}
  slt : Slt := {}
  prc : Prc := {}
  psc : Island := {}
  dom : Dome := {}
  tmc : Tmc := {}
  hlt : Health := {}
  cmds : Tbl CmdOut := []
  free : Nat := 0
  pending : List Instr := []
  deriving DecidableEq, Repr

/-- The module in its first cold reset, before a feed is present: every register at its Reset column, every structure at the
values named beside its fields, no command waiting. -/
def State.reset : State := {}

end Sys2Proof.Machine
end

