-- ==== Sys2Proof/Machine/Ops.lean ====
section
/-! DEFINITION. The named operations over the state that every block shares: register fields, memory octets and words,
module time, free values, and list helpers. -/
namespace Sys2Proof.Machine

/-- The answer of a meaning. -/
abbrev Result := Host.Outcome State Fault Refusal

/-! ### Register fields (R9 to R13) -/

/-- Element `n` of a register array (`NAME[n] @ base + n × stride`). -/
def Field.nth (f : Field) (n : Nat) : Field := { f with addr := f.addr + n * f.stride }

/-- What a page instance changes in a field: MAC.CTL of K0, K1 and M0 (R104), SP_ID of each slice page (R332). -/
def Field.fix (f : Field) (p : Nat) : Field :=
  if f.addr = 0x5000180000 + p * 0x10000 then
    if f.lo = F.MAC_CTL_SPEED.lo ∧ f.width = 2 ∧ 8 ≤ p then { f with acc := .ro, reset := if p = 10 then 2 else 1 }
    else if 8 ≤ p ∧ (f.lo = F.MAC_CTL_REDUN.lo ∨ f.lo = F.MAC_CTL_ROLE.lo ∨ f.lo = F.MAC_CTL_FEC.lo) then
      { f with acc := .ro, reset := 0 }
    else if p % 2 = 1 ∧ f.lo = F.MAC_CTL_REDUN.lo then { f with acc := .ro, reset := 0 }
    else f
  else if f.addr = F.SLT_SP_ID_SLICE.addr + p * 0x10000 then
    if f.lo = F.SLT_SP_ID_SLICE.lo then { f with reset := p }
    else if f.lo = F.SLT_SP_ID_STATE.lo ∧ p = 0 then { f with reset := 2 }
    else f
  else f

/-- The field of page instance `p`: port n of the MAC pages (K0, K1 and M0 at 8, 9 and 10), slice n of the slice pages. -/
def Field.pg (f : Field) (p : Nat) : Field := Field.fix { f with addr := f.addr + p * 0x10000 } p

/-- The key of a field in the register file. -/
def Field.key (f : Field) : Nat := f.addr * 64 + f.lo

/-- Whether a field has a function for a value (R11): ATTACH has none for 0xC to 0xE (R99). -/
def Field.legal (f : Field) (x : Nat) : Bool :=
  decide (f.minV ≤ x) && decide (x ≤ f.maxV) && !(f.key == F.TBU_CTL_ATTACH.key && decide (12 ≤ x) && decide (x < 15))

/-- The value a register field holds. -/
def State.get (s : State) (f : Field) : Nat := Tbl.get f.reset f.key s.regs

/-- A register field as a truth value. -/
def State.flag (s : State) (f : Field) : Bool := s.get f != 0

/-- The state with a register field at `v`, cut to its width. -/
def State.setF (s : State) (f : Field) (v : Nat) : State :=
  { s with regs := Tbl.set f.reset f.key (v % 2 ^ f.width) s.regs }

/-- A field written by software: a value that its Meaning gives no function leaves it unchanged (R11). -/
def State.writeField (s : State) (f : Field) (v : Nat) : State := if f.legal v then s.setF f v else s

/-- A register field set from a truth value. -/
def State.setB (s : State) (f : Field) (b : Bool) : State := s.setF f (b2n b)

/-- A signed register field. -/
def State.getI (s : State) (f : Field) : Int := signed f.width (s.get f)

/-- A register field set from a signed value, saturated to its width. -/
def State.setI (s : State) (f : Field) (v : Int) : State := s.setF f (unsigned f.width (satInt f.width v))

/-- An event counter counts `n` events and saturates at all ones (R13). -/
def State.bumpBy (s : State) (f : Field) (n : Nat) : State := s.setF f (min (s.get f + n) (2 ^ f.width - 1))

/-- An event counter counts one event (R13). -/
def State.bump (s : State) (f : Field) : State := s.bumpBy f 1

/-- A counter field held in a table, saturating at `w` bits (R13). -/
def satInc (w v : Nat) : Nat := min (v + 1) (2 ^ w - 1)

/-- Every field of a register of element `n` on page instance `p` at its Reset column (R488). -/
def State.clearFields (s : State) (fs : List Field) : State := fs.foldl (fun s f => s.setF f f.reset) s

/-- The register fields of a whole page back at their Reset columns: the keys of addresses `lo` to `hi` go (R488). -/
def State.clearPage (s : State) (lo hi : Nat) : State :=
  { s with regs := s.regs.filter (fun p => p.1 < lo * 64 || hi * 64 ≤ p.1) }

/-! ### Memory (R8, R27): one octet map by physical address; an octet not listed reads as 0 (R488) -/

/-- The octet at an address. -/
def memGet (a : Nat) (m : List Host.Cell) : Byte := Tbl.get 0 a m

/-- The memory with an octet written. -/
def memSet (a : Nat) (b : Byte) (m : List Host.Cell) : List Host.Cell := Tbl.set 0 a b m

/-- The canonical form of the memory: addresses strictly rising, no octet listed that reads as an unlisted one does. -/
def Memory.wf (m : List Host.Cell) : Bool := Tbl.wf (0 : Byte) m

/-- Octets written from an address up. -/
def memPut : Nat → Octets → List Host.Cell → List Host.Cell
  | _, [], m => m
  | a, b :: t, m => memPut (a + 1) t (memSet a b m)

/-- `n` octets read from an address up. -/
def memTake (m : List Host.Cell) : Nat → Nat → Octets
  | 0, _ => []
  | n + 1, a => memGet a m :: memTake m n (a + 1)

/-- The octets of an area zeroed (R488). -/
def memClear (lo hi : Nat) (m : List Host.Cell) : List Host.Cell := m.filter (fun c => c.1 < lo || hi ≤ c.1)

/-- `n` octets of the state's memory as a little-endian number (R8). -/
def State.rd (s : State) (a n : Nat) : Nat := ofLe (memTake s.mem n a)

/-- A little-endian number of `n` octets stored (R8). -/
def State.wr (s : State) (a n v : Nat) : State := { s with mem := memPut a (le n v) s.mem }

/-- A 64-bit word read. -/
def State.rd64 (s : State) (a : Nat) : Nat := s.rd a 8

/-- A 64-bit word stored. -/
def State.wr64 (s : State) (a v : Nat) : State := s.wr a 8 v

/-- Octets stored from an address up. -/
def State.wrOctets (s : State) (a : Nat) (o : Octets) : State := { s with mem := memPut a o s.mem }

/-- The words of a list stored as consecutive 64-bit words. -/
def State.wrWords (s : State) (a : Nat) : List Nat → State
  | [] => s
  | w :: t => (s.wr64 a w).wrWords (a + 8) t

/-- `n` consecutive 64-bit words. -/
def State.rdWords (s : State) (a n : Nat) : List Nat := (List.range n).map (fun i => s.rd64 (a + 8 * i))

/-- Base of DRAM (R27). -/
def dramBase : Nat := 0
/-- End of DRAM, exclusive (R27). -/
def dramEnd : Nat := 0x1000000000
/-- Base of Sample Memory (R27). -/
def smemBase : Nat := 0x4000000000
/-- Size of Sample Memory: 48 MiB (R27). -/
def smemSize : Nat := 0x3000000
/-- Base of the global engine registers (R27). -/
def regBase : Nat := 0x5000000000
/-- Base of the slice pages (R27). -/
def sliceBase : Nat := 0x5100000000
/-- Base of the MRAM window (R27). -/
def mramBase : Nat := 0x6000000000
/-- Size of the MRAM window: 1 GiB (R27). -/
def mramSize : Nat := 0x40000000
/-- Base of the Dome mailbox (R27). -/
def domeBase : Nat := 0x7000000000

/-! ### Module time (R14, R81) -/

/-- Module time, GT96 without its hidden bits. -/
def State.now (s : State) : Time := s.tbu.t48 / 2 ^ 32

/-- Time passes to the moment `t`; it never runs back. -/
def State.advanceTo (s : State) (t : Time) : State :=
  { s with tbu := { s.tbu with t48 := max s.tbu.t48 (t * 2 ^ 32) } }

/-- A length in nanoseconds in units of 2^-16 ns. -/
def ns (n : Nat) : Time := n * 65536
/-- A length in microseconds. -/
def us (n : Nat) : Time := ns (n * 1000)
/-- A length in milliseconds. -/
def ms (n : Nat) : Time := us (n * 1000)
/-- A length in seconds. -/
def secs (n : Nat) : Time := n * secUnits

/-- GT64 of module time. -/
def State.gt64 (s : State) : Nat := Time.gt64 s.now

/-! ### Free values (R500 and every value the spec leaves undefined) -/

/-- A free value of `w` bits: nothing constrains it. -/
def State.freeVal (s : State) (w : Nat) : Nat := Config.freeNat s.free % 2 ^ w

/-- The state after drawing a free value. -/
def State.drawn (s : State) : State := { s with free := s.free + 1 }

/-- A quotient whose rounding the spec leaves open: the integer below, or freely the one above where they differ. -/
def State.openDiv (s : State) (a : Int) (b : Nat) : Int × State :=
  if a % b = 0 then (a / b, s) else (a / b + (s.freeVal 1 : Nat), s.drawn)

/-! ### Masters -/

/-- Whether a fabric master runs: the application cores do from PREPARE on (R491). -/
def State.masterUp (s : State) (m : Master) : Bool :=
  match m with
  | .core _ _ => s.sup.coresUp
  | _ => true

/-! ### Lists and tables -/

/-- A list with the element at `i` replaced; `d` fills places the list does not reach. -/
def listSet {α : Type} (d : α) : Nat → α → List α → List α
  | 0, v, [] => [v]
  | 0, v, _ :: t => v :: t
  | n + 1, v, [] => d :: listSet d n v []
  | n + 1, v, x :: t => x :: listSet d n v t

/-- Lexicographic order of lists, the first difference deciding. -/
def lexLt : List Nat → List Nat → Bool
  | a :: s, b :: t => decide (a < b) || (a == b && lexLt s t)
  | _, _ => false

/-- The sum of a list of naturals. -/
def sumN (l : List Nat) : Nat := l.foldl (· + ·) 0

/-- The sum of a list of integers. -/
def sumI (l : List Int) : Int := l.foldl (· + ·) 0

/-- A fold over the numbers below `n`. -/
def forN {α : Type} (n : Nat) (f : α → Nat → α) (a : α) : α := (List.range n).foldl f a

/-- Table update of a structure entry. -/
def Tbl.mod {α : Type} [DecidableEq α] (d : α) (k : Nat) (f : α → α) (t : Tbl α) : Tbl α :=
  Tbl.set d k (f (Tbl.get d k t)) t

/-- The words of an entry padded with zeros: word `i`. -/
def word (ws : List Nat) (i : Nat) : Nat := ws.getD i 0

/-- Bits `hi` to `lo` of word `i` of an entry. -/
def wbits (ws : List Nat) (i hi lo : Nat) : Nat := bits hi lo (word ws i)

/-- Bit `n` of word `i` of an entry. -/
def wbit (ws : List Nat) (i n : Nat) : Bool := bit n (word ws i)

/-- Place a field value at bits `hi` to `lo`. -/
def place (hi lo v : Nat) : Nat := v % 2 ^ (hi + 1 - lo) * 2 ^ lo

/-- A word with bits `hi` to `lo` replaced. -/
def putBits (hi lo v w : Nat) : Nat := w - place hi lo (bits hi lo w) + place hi lo v

/-- Bytes of a word list, little-endian, 8 octets a word (R8). -/
def wordsOctets (ws : List Nat) : Octets := ws.flatMap (le 8)

end Sys2Proof.Machine
end

