-- ==== Sys2Proof/Machine/Operands.lean ====
section
/-! DEFINITION. The operand layouts of the block tables: each reader takes a table entry's words apart at the bit
positions that the owning chapter gives (SLT R353, PUB R292, R293). -/
namespace Sys2Proof.Machine

/-! ### Reserved bits (R11): each word of a table entry is stored with the bits that its layout lists -/

/-- Words with their reserved bits at zero. -/
def maskWords (ms ws : List Nat) : List Nat := ms.zipIdx.map (fun p => word ws p.2 &&& p.1)

/-- The listed bits of the SLT tables (R353). -/
def sltBits : Nat → List Nat
  | 0 => [0xFFFFF800FFFFFFFF, 0xFFFFFFFFFFFFFFE0, 0x3FF]
  | 1 => [0xFF000000000FFFFF]
  | 2 => [0xFFFFFFFFFFF80000, 0xFFFFFFFFFFFFFFFF, 0xFFFFFFFFF0000000]
  | 3 => [0xFF007FFF7FFF0000]
  | 4 => [0xFFE000FFFFFFFFFF]
  | 5 => [0xFFFFFFFFFFFC0000]
  | _ => [0xFFFFFFFFFFFFFFFF, 0xFFFFFFFFFFFFFFFF, 0xFFFFFFFFFFFFFFFF, 0xFFFFFFFFFFFFFFFF]

/-- The listed bits of the PHE tables (R233). -/
def pheBits : Nat → List Nat
  | 0 => [0xFFF0000000000000]
  | 1 => [0xFFFFF00000000000]
  | 2 => [0x9FFF1FFF1FFF0000]
  | 3 => [0x9FFFFFE000000000]
  | 4 => [0xFFFFF000FFFFFFFF]
  | 5 => [0xFFFFFFC000000000, 0xFFFFFFFFFFFFFFFF, 0xFFFFFFFF00000000]
  | 6 => [0xFFFFF800FFFFFFFF]
  | _ => [0xFFFFFFFFFFFFFFFF, 0xFFFFFFFFFFFFFFFF, 0xFFFFFFFFFFFFFFFF, 0xFFFFFFFFFFFFFFFF]

/-- The listed bits of a guard's configuration (R234). -/
def gcmBits : List Nat := [0xFFFFFFF0FFFFFFFF, 0xFFFFFFFFFFFFFFFF, 0xFFFFFFFFFFFFFFFF, 0xFFFFFFFFFFFFFFFF, 0xFFFF000000000000]

/-- The listed bits of the slot and class tables (R271). -/
def slpBits : Nat → List Nat
  | 0 => [0xFFFFFFFFFFF80000, 0xFFFFFFFFFFFFFFFF, 0xFFFFFFFFFFFFFFF0, 0xFFFFFF03FFFFFFFF]
  | 1 => [0xFFFFFFF000000000, 0xFFFFFFFFFFFFFFFF]
  | _ => [0xFFFFFFFFFFFFFFFF, 0xFFFFFFFFFFFFFFFF, 0xFFFFFFFFFFFFFFFF, 0xFFFFFFFFFFFFFFFF]

/-- The listed bits of the recorder tables (R320). -/
def dreBits : Nat → List Nat
  | 0 => [0xFFFFFFE0FFFFFFFF, 0xFFFFFFFFFFFFFC00, 0xFFFFFFFFFFFFFFFF, 0xFFFFFFFF00000000, 0xFFFFFFFFF0000000]
  | 1 => [0xFFFFFFFFFFF80000, 0xFFFFFFFFFFFFFFFF, 0xFFFFFFFFFFFFFFFF, 0xFFFFFFFFFFFFFFFF]
  | 2 => [0x80001FFF]
  | 3 => [0x81E1FFFF]
  | _ => [0xFFFFFFFFFFFFFFFF, 0xFFFFFFFFFFFFFFFF, 0xFFFFFFFFFFFFFFFF, 0xFFFFFFFFFFFFFFFF]

/-- The listed bits of a publication entry of a kind (R292). -/
def pubBits (sv : Bool) : List Nat :=
  [0xFFFFFFFFFFFFF3FF, 0xE000FFFFFFFFFFFF, 0xFFFFFFFFFFFF0000, if sv then 0xFC0000001FFFFFC0 else 0xFFFFFFFFFFFFFFC0]

/-! ### Slice Table (R353): tables by 4096 × table + index -/

/-- The words of an SLT table entry: 0 slice, 1 binding, 2 ring, 3 DRAM window, 4 SMEM window, 5 read grant. -/
def State.sltEnt (s : State) (t i : Nat) : List Nat := Tbl.get [] (4096 * t + i) s.slt.tab

/-- The state with an SLT entry written. -/
def State.setSltEnt (s : State) (t i : Nat) (ws : List Nat) : State :=
  { s with slt := { s.slt with tab := Tbl.set [] (4096 * t + i) (maskWords (sltBits t) ws) s.slt.tab } }

/-- The entries of one SLT table, with their indices. -/
def State.sltAll (s : State) (t : Nat) : List (Nat × List Nat) :=
  (s.slt.tab.filter (fun p => p.1 / 4096 = t)).map (fun p => (p.1 % 4096, p.2))

/-- PROFILE of a slice entry. -/
def slProfile (w : List Nat) : Bool := wbit w 0 52
/-- PV_ALLOW of a slice entry. -/
def slPvAllow (w : List Nat) : Bool := wbit w 0 51
/-- PV_EN of a slice entry. -/
def slPvEn (w : List Nat) : Bool := wbit w 0 50
/-- PV_LAT of a slice entry. -/
def slPvLat (w : List Nat) : Nat := wbits w 0 49 46
/-- F_FAIL of a slice entry. -/
def slFFail (w : List Nat) : Bool := wbit w 0 45
/-- SELF_MODE of a slice entry. -/
def slSelfMode (w : List Nat) : Bool := wbit w 0 44
/-- SELF_REC of a slice entry. -/
def slSelfRec (w : List Nat) : Bool := wbit w 0 43
/-- F_BASE of a slice entry, in words. -/
def slFBase (w : List Nat) : Nat := wbits w 0 31 23
/-- F_WORDS of a slice entry. -/
def slFWords (w : List Nat) : Nat := wbits w 0 22 16
/-- ERR_LIMIT of a slice entry. -/
def slErrLimit (w : List Nat) : Nat := wbits w 0 15 0
/-- CORES of a slice entry. -/
def slCores (w : List Nat) : Nat := wbits w 1 63 40
/-- INFLIGHT of a slice entry. -/
def slInflight (w : List Nat) : Nat := wbits w 1 39 24
/-- TX_WEIGHT of a slice entry. -/
def slTxWeight (w : List Nat) : Nat := wbits w 1 23 16
/-- IRQ_CORE of a slice entry. -/
def slIrqCore (w : List Nat) : Nat := wbits w 1 15 11
/-- IRQ_FILE of a slice entry. -/
def slIrqFile (w : List Nat) : Nat := wbits w 1 10 5
/-- EVT_RING of a slice entry. -/
def slEvtRing (w : List Nat) : Nat := wbits w 2 9 0
/-- VALID of a binding, ring, window or grant. -/
def seValid (w : List Nat) : Bool := wbit w 0 63
/-- SLICE of a binding, window or grant. -/
def seSlice (w : List Nat) : Nat := wbits w 0 62 56
/-- PASID of a binding. -/
def bdPasid (w : List Nat) : Nat := wbits w 0 19 0
/-- KIND of a ring: 0 RX, 1 TX, 2 PUB, 3 EVENT. -/
def rgKind (w : List Nat) : Nat := wbits w 0 62 61
/-- SLICE of a ring. -/
def rgSlice (w : List Nat) : Nat := wbits w 0 60 54
/-- LOCAL index of a ring. -/
def rgLocal (w : List Nat) : Nat := wbits w 0 53 48
/-- PORT of a transmit ring. -/
def rgPort (w : List Nat) : Nat := wbits w 0 47 44
/-- SIZE of a ring in descriptors: 2^SIZE_LOG2. -/
def rgSize (w : List Nat) : Nat := 2 ^ wbits w 0 43 40
/-- Octets of one receive buffer: BUF_SIZE × 256. -/
def rgBuf (w : List Nat) : Nat := wbits w 0 39 36 * 256
/-- IRQ_EN of a ring. -/
def rgIrqEn (w : List Nat) : Bool := wbit w 0 35
/-- MOD_US of a ring. -/
def rgModUs (w : List Nat) : Nat := wbits w 0 34 19
/-- BASE of a ring (R331). -/
def rgBase (w : List Nat) : Nat := word w 1
/-- First octet of a DRAM window (units of 2 MiB). -/
def dwLo (w : List Nat) : Nat := wbits w 0 46 32 * 0x200000
/-- First octet after a DRAM window. -/
def dwHi (w : List Nat) : Nat := dwLo w + wbits w 0 30 16 * 0x200000
/-- PROV of a sample window. -/
def swProv (w : List Nat) : Bool := wbit w 0 55
/-- LATTICE of a sample window. -/
def swLat (w : List Nat) : Nat := wbits w 0 54 53
/-- First line of a sample window. -/
def swBase (w : List Nat) : Nat := wbits w 0 39 20
/-- Lines of a sample window. -/
def swSize (w : List Nat) : Nat := wbits w 0 19 0
/-- SPACE code of a read grant. -/
def gtSpace (w : List Nat) : Nat := wbits w 0 55 52
/-- First operand of a read grant. -/
def gtBase (w : List Nat) : Nat := wbits w 0 51 35
/-- Last operand of a read grant. -/
def gtLast (w : List Nat) : Nat := wbits w 0 34 18

/-! ### Publication Engine (R292, R293) -/

/-- The words of a publication entry. -/
def State.pubEnt (s : State) (i : Nat) : List Nat := Tbl.get [] i s.pub.ent
/-- The state with a publication entry written. -/
def State.setPubEnt (s : State) (i : Nat) (ws : List Nat) : State :=
  { s with pub := { s.pub with ent := Tbl.set [] i (maskWords (pubBits (wbit ws 0 62)) ws) s.pub.ent } }
/-- VALID of a publication entry. -/
def pbValid (w : List Nat) : Bool := wbit w 0 63
/-- KIND of a publication entry: true for SV. -/
def pbSv (w : List Nat) : Bool := wbit w 0 62
/-- SRC of a GOOSE entry: true for a ring publication. -/
def pbRing (w : List Nat) : Bool := wbit w 0 61
/-- PRIO of a publication entry. -/
def pbPrio (w : List Nat) : Nat := wbits w 0 60 59
/-- PORTS of a publication entry. -/
def pbPorts (w : List Nat) : Nat := wbits w 0 58 51
/-- SLICE of a ring publication. -/
def pbSlice (w : List Nat) : Nat := wbits w 0 18 12
/-- RING of a ring publication. -/
def pbRingIx (w : List Nat) : Nat := wbits w 0 9 0
/-- EN of a publication entry. -/
def pbEn (w : List Nat) : Bool := wbit w 1 63
/-- SIM of a publication entry. -/
def pbSim (w : List Nat) : Bool := wbit w 1 62
/-- TEST of a publication entry. -/
def pbTest (w : List Nat) : Bool := wbit w 1 61
/-- CONF_REV of a publication entry. -/
def pbConfRev (w : List Nat) : Nat := wbits w 2 63 32
/-- AUTH of a publication entry. -/
def pbAuth (w : List Nat) : Nat := wbits w 2 31 29
/-- KEY_NODE of a publication entry. -/
def pbKeyNode (w : List Nat) : Nat := wbits w 2 28 16
/-- RT_MIN of a GOOSE entry as a time (units of 100 µs). -/
def pbRtMin (w : List Nat) : Time := us (100 * wbits w 3 63 56)
/-- BURST of a GOOSE entry. -/
def pbBurst (w : List Nat) : Nat := wbits w 3 55 53
/-- RT_MAX of a GOOSE entry as a time (ms). -/
def pbRtMax (w : List Nat) : Time := ms (wbits w 3 52 37)
/-- TAL_ADD of a GOOSE entry in ms. -/
def pbTalAdd (w : List Nat) : Nat := wbits w 3 36 29
/-- LATTICE of an SV entry. -/
def pbLat (w : List Nat) : Nat := wbits w 3 63 62
/-- NOASDU of an SV entry. -/
def pbNoAsdu (w : List Nat) : Nat := wbits w 3 61 58
/-- MEMB_BASE of a publication entry. -/
def pbMembBase (w : List Nat) : Nat := wbits w 3 28 14
/-- NMEMB of a publication entry. -/
def pbNMemb (w : List Nat) : Nat := wbits w 3 13 6
/-- A member entry's word. -/
def State.pubMemb (s : State) (i : Nat) : Nat := Tbl.get 0 i s.pub.memb
/-- The member words of a publication, in order. -/
def State.pubMembs (s : State) (w : List Nat) : List Nat :=
  (List.range (pbNMemb w)).map (fun j => s.pubMemb (pbMembBase w + j))
/-- TYPE of a member. -/
def mbType (m : Nat) : Nat := bits 30 28 m
/-- Bits of a BIT STRING member. -/
def mbBits (m : Nat) : Nat := bits 27 23 m + 1
/-- IDX of a member. -/
def mbIdx (m : Nat) : Nat := bits 15 0 m

/-! ### Stream Context Table (R134, R135) -/

/-- A context's structure. -/
def State.ctx (s : State) (i : Nat) : Ctx := Tbl.get {} i s.ing.ctx
/-- The state with a context changed. -/
def State.modCtx (s : State) (i : Nat) (f : Ctx → Ctx) : State :=
  { s with ing := { s.ing with ctx := Tbl.mod {} i f s.ing.ctx } }
/-- VALID of a context. -/
def cxValid (w : List Nat) : Bool := wbit w 0 63
/-- KIND of a context: true for GOOSE. -/
def cxGoose (w : List Nat) : Bool := wbit w 0 62
/-- SIM_ACCEPT. -/
def cxSimAccept (w : List Nat) : Bool := wbit w 0 61
/-- TEST_ACCEPT. -/
def cxTestAccept (w : List Nat) : Bool := wbit w 0 60
/-- PORTS. -/
def cxPorts (w : List Nat) : Nat := wbits w 0 59 52
/-- VID_EN. -/
def cxVidEn (w : List Nat) : Bool := wbit w 0 51
/-- VID. -/
def cxVid (w : List Nat) : Nat := wbits w 0 50 39
/-- APPID. -/
def cxAppid (w : List Nat) : Nat := wbits w 0 38 23
/-- ALT_EN. -/
def cxAltEn (w : List Nat) : Bool := wbit w 0 22
/-- ALT_IDX. -/
def cxAltIdx (w : List Nat) : Nat := wbits w 0 21 10
/-- ID_LEN. -/
def cxIdLen (w : List Nat) : Nat := wbits w 1 63 56
/-- DA. -/
def cxDa (w : List Nat) : Nat := wbits w 1 47 0
/-- ID_CRC. -/
def cxIdCrc (w : List Nat) : Nat := wbits w 2 63 32
/-- CONF_REV. -/
def cxConfRev (w : List Nat) : Nat := wbits w 2 31 0
/-- AUTH. -/
def cxAuth (w : List Nat) : Nat := wbits w 3 63 61
/-- EARLY_WRITE. -/
def cxEarly (w : List Nat) : Bool := wbit w 3 60
/-- KEY_NODE. -/
def cxKeyNode (w : List Nat) : Nat := wbits w 3 55 43
/-- COPY_EN. -/
def cxCopyEn (w : List Nat) : Bool := wbit w 3 42
/-- COPY_RING. -/
def cxCopyRing (w : List Nat) : Nat := wbits w 3 41 32
/-- RATE code of an SV context. -/
def cxRateCode (w : List Nat) : Nat := wbits w 4 63 61
/-- NOASDU. -/
def cxNoAsdu (w : List Nat) : Nat := wbits w 4 60 57
/-- NCHAN. -/
def cxNChan (w : List Nat) : Nat := wbits w 4 56 51
/-- FORCE_TS. -/
def cxForceTs (w : List Nat) : Bool := wbit w 4 50
/-- FIXED_DELAY in µs. -/
def cxFixedDelay (w : List Nat) : Nat := wbits w 4 49 38
/-- DELAY_LIMIT in units of 10 µs. -/
def cxDelayLimit (w : List Nat) : Nat := wbits w 4 37 30
/-- MAP_BASE. -/
def cxMapBase (w : List Nat) : Nat := wbits w 4 14 0
/-- NENT of a GOOSE context. -/
def cxNEnt (w : List Nat) : Nat := wbits w 4 63 56
/-- NPRIM of a GOOSE context. -/
def cxNPrim (w : List Nat) : Nat := wbits w 4 55 48
/-- TAL_MARGIN in ms. -/
def cxTalMargin (w : List Nat) : Nat := wbits w 4 47 40
/-- FALLBACK: true takes DEFAULT values. -/
def cxFallback (w : List Nat) : Bool := wbit w 4 39
/-- STAT_I. -/
def cxStatI (w : List Nat) : Nat := wbits w 5 63 48
/-- LOSS_TIME, units of 100 µs; 0 is taken as 1. -/
def cxLossTime (w : List Nat) : Nat := max 1 (wbits w 5 47 40)
/-- RESTORE_TIME in s. -/
def cxRestore (w : List Nat) : Nat := wbits w 5 39 32
/-- Entries of the map range of a context. -/
def cxMapLen (w : List Nat) : Nat := if cxGoose w then cxNPrim w else cxNChan w
/-- The map words of a context in order. -/
def State.cxMap (s : State) (w : List Nat) : List Nat :=
  (List.range (cxMapLen w)).map (fun j => Tbl.get 0 (cxMapBase w + j) s.ing.map)
/-- VALID of a map entry. -/
def mpValid (m : Nat) : Bool := bit 31 m
/-- LATTICE of an SV map entry. -/
def mpLat (m : Nat) : Nat := bits 29 28 m
/-- LCHAN of an SV map entry. -/
def mpChan (m : Nat) : Nat := bits 27 15 m
/-- MEAS of an SV map entry: true for a voltage. -/
def mpVolt (m : Nat) : Bool := bit 14 m
/-- TYPE of a GOOSE map entry. -/
def mpType (m : Nat) : Nat := bits 30 28 m
/-- Bits mapped of a BIT STRING. -/
def mpBits (m : Nat) : Nat := bits 27 23 m + 1
/-- DEFAULT of a GOOSE map entry. -/
def mpDefault (m : Nat) : Bool := bit 22 m
/-- I_IDX of a GOOSE map entry. -/
def mpI (m : Nat) : Nat := bits 15 0 m

/-- The rate in Hz of a RATE code (R134, R198). -/
def rateHz : Nat → Nat
  | 0 => 4000
  | 1 => 4800
  | 2 => 12800
  | 3 => 14400
  | 4 => 15360
  | _ => 4000

/-- HEALTH codes of a context (R155). -/
def hFree : Nat := 0
/-- WAIT. -/
def hWait : Nat := 1
/-- LIVE, or VALID of a GOOSE context. -/
def hLive : Nat := 2
/-- DEGRADED. -/
def hDegr : Nat := 3
/-- LOST, or EXPIRED of a GOOSE context. -/
def hLost : Nat := 4
/-- RETIRING. -/
def hRetiring : Nat := 5

end Sys2Proof.Machine
end

