-- ==== Sys2Proof/Machine/SliceOps.lean ====
section
/-! DEFINITION. What other blocks ask of the Slice Table: whose request it is, events and interrupts, tenant flags with
their dependencies, and the fall of a slice into FAULTED (R324 to R352). -/
namespace Sys2Proof.Machine

/-- The slice structure. -/
def State.slice (s : State) (n : Nat) : Slice := Tbl.get {} n s.slt.slices
/-- The state with a slice structure changed. -/
def State.modSlice (s : State) (n : Nat) (f : Slice → Slice) : State :=
  { s with slt := { s.slt with slices := Tbl.mod {} n f s.slt.slices } }
/-- STATE of a slice; slice 0 is always RUNNING (R324). -/
def State.sliceState (s : State) (n : Nat) : Nat := if n = 0 then 2 else (s.slice n).state
/-- The ring structure. -/
def State.ring (s : State) (r : Nat) : Ring := Tbl.get {} r s.slt.rings
/-- The state with a ring structure changed. -/
def State.modRing (s : State) (r : Nat) (f : Ring → Ring) : State :=
  { s with slt := { s.slt with rings := Tbl.mod {} r f s.slt.rings } }
/-- RSTATE of a ring; the rings of slice 0 accept from start-up (R324). -/
def State.ringState (s : State) (r : Nat) : Nat :=
  if seValid (s.sltEnt 2 r) && rgSlice (s.sltEnt 2 r) == 0 then 1 else (s.ring r).rstate
/-- The rings of a slice, by global index. -/
def State.ringsOf (s : State) (n : Nat) : List Nat :=
  ((s.sltAll 2).filter (fun p => seValid p.2 && rgSlice p.2 == n)).map Prod.fst
/-- The global index of local ring `k` of a slice. -/
def State.localRing (s : State) (n k : Nat) : Option Nat :=
  (s.ringsOf n).find? (fun r => rgLocal (s.sltEnt 2 r) == k)
/-- The address of descriptor `i` of a ring (R333). -/
def State.descAddr (s : State) (r i : Nat) : Nat :=
  rgBase (s.sltEnt 2 r) + i % rgSize (s.sltEnt 2 r) * 32
/-- Descriptors posted and not completed (R333). -/
def Ring.posted (r : Ring) : Nat := (r.index + 65536 - r.head % 65536) % 65536
/-- Whether windows, as pairs of first octet and end, cover the octets from `a` to before `e`: each step goes to the end of a
window that holds `a`, and as many steps as windows suffice. -/
def covered (ws : List (Nat × Nat)) : Nat → Nat → Nat → Bool
  | 0, a, e => decide (e ≤ a)
  | k + 1, a, e => decide (e ≤ a) || (match ws.find? (fun w => decide (w.1 ≤ a) && decide (a < w.2)) with
    | some w => covered ws k w.2 e
    | none => false)

/-- The DRAM windows of a slice. -/
def State.windowsOf (s : State) (n : Nat) : List (Nat × Nat) :=
  ((s.sltAll 3).filter (fun p => seValid p.2 && seSlice p.2 == n)).map (fun p => (dwLo p.2, dwHi p.2))

/-- Whether octets `a` to `a + len - 1` of DRAM lie inside the DRAM windows of the slice, or anywhere in DRAM for slice 0
(R329, R330). -/
def State.dramOwned (s : State) (n a len : Nat) : Bool :=
  let ws := s.windowsOf n
  decide (a + len ≤ dramEnd) && (n == 0 || covered ws ws.length a (a + len))

/-- Words that an engine writes for a slice: none outside its DRAM windows (R330). -/
def State.sliceWr (s : State) (n a : Nat) (ws : List Nat) : State := if s.dramOwned n a (8 * ws.length) then s.wrWords a ws else s

/-- A string of the committed bundle: `what` as the items of a bundle code it (R457). -/
def State.textOf (s : State) (what i : Nat) : Octets := Tbl.get [] (65536 * what + i) s.tmc.texts

/-- The slice a PASID is bound to (R329). -/
def State.boundSlice (s : State) (pasid : Nat) : Option Nat :=
  ((s.sltAll 1).find? (fun p => seValid p.2 && bdPasid p.2 == pasid)).map (fun p => seSlice p.2)

/-- Free PASID bindings of the pool (R326). -/
def State.pasidFree (s : State) : Nat := 4096 - ((s.sltAll 1).filter (fun p => seValid p.2)).length
/-- Free DRAM window entries of the pool (R326). -/
def State.dwinFree (s : State) : Nat := 1024 - ((s.sltAll 3).filter (fun p => seValid p.2)).length
/-- The charge of a slice against the credit pool (R327). -/
def State.charge (s : State) (n : Nat) : Nat :=
  if s.sliceState n = 0 then 0 else max (slInflight (s.sltEnt 0 n)) (s.slice n).inflightNow
/-- Free in-flight credits (R327). -/
def State.creditFree (s : State) : Nat := 16384 - sumN ((List.range 128).map s.charge)

/-! ### Interrupts and events (R338, R339) -/

/-- The doorbell write that posted descriptor `i`, with its dependency. -/
def Ring.bellOf (g : Ring) (i : Nat) : Option (Nat × Dep) :=
  g.deps.find? (fun d => decide ((d.1 + 65536 - (i + 1) % 65536) % 65536 < 32768))
/-- The dependency that a descriptor carries from its doorbell write (R39). -/
def Ring.depOf (g : Ring) (i : Nat) : Dep :=
  match g.bellOf i with
  | some d => d.2
  | none => []
/-- Whether an instant that descriptor `i` depends on was refuted (R39). -/
def Ring.goneAt (g : Ring) (i : Nat) : Bool :=
  match g.bellOf i with
  | some d => g.gone.contains d.1
  | none => false

/-- Whether a dependency falls with the refutation of (l, n): it holds n or a later instant of the lattice (R40). -/
def depFalls (l n : Nat) (d : Dep) : Bool := d.any (fun p => p.1 == l && decide (n ≤ p.2))

/-- On REFUTE for (l, n) what doorbells posted on n or later is refuted: their frames are discarded (R39). -/
def State.bellsRefute (s : State) (l n : Nat) : State :=
  { s with slt := { s.slt with rings := s.slt.rings.map (fun p => (p.1, { p.2 with
      gone := p.2.gone ++ (p.2.deps.filter (fun d => depFalls l n d.2 && !p.2.gone.contains d.1)).map Prod.fst })) } }

/-- The slice's interrupt message for local ring k (R339). -/
def State.sendIrq (s : State) (r : Nat) : State :=
  let w := s.sltEnt 2 r
  let sl := s.sltEnt 0 (rgSlice w)
  { s with slt := { s.slt with irqs := s.slt.irqs ++ [⟨slIrqCore sl, slIrqFile sl, 64 + rgLocal w⟩] } }

/-- The HEAD of a ring advances: with IRQ_EN an interrupt now, which opens an interval of MOD_US, or a note for the end of the
running one (R339). -/
def State.headIrq (s : State) (r : Nat) : State :=
  let w := s.sltEnt 2 r
  if !rgIrqEn w then s
  else if (s.ring r).modRun then s.modRing r (fun g => { g with modAdv := true })
  else (s.sendIrq r).modRing r (fun g => { g with
    modRun := rgModUs w != 0, modAdv := false, modTill := if rgModUs w = 0 then 0 else s.now + us (rgModUs w) })

/-- HEAD of a ring moves by `k` descriptors. -/
def State.advanceHead (s : State) (r k : Nat) : State :=
  (s.modRing r (fun g => { g with head := (g.head + k) % 65536 })).headIrq r

/-- EVENT_WRITE: an event into the event ring of a slice, or counted lost while the ring is full, the slice is not
RUNNING, no ring is placed or the descriptor lies outside the slice's windows (R330, R338). -/
def State.event (s : State) (n code source param param2 : Nat) : State :=
  let r := slEvtRing (s.sltEnt 0 n)
  let w := s.sltEnt 2 r
  let g := s.ring r
  let used := (g.head + 65536 - g.index % 65536) % 65536
  if s.sliceState n != 2 || !seValid w || rgKind w != 3 || decide (rgSize w ≤ used)
      || !s.dramOwned n (s.descAddr r g.head) 32 then
    (s.modSlice n (fun x => { x with lost := satInc 16 x.lost, evtLost := satInc 32 x.evtLost })).bump (F.SLT_CNT_COUNT.nth 3)
  else
    let x := s.slice n
    let s := s.wrWords (s.descAddr r g.head)
      [place 63 48 code + place 47 32 source + place 31 0 param, param2 % 2 ^ 64, s.gt64,
       place 63 32 x.eseq + place 31 16 x.lost]
    (s.modSlice n (fun x => { x with lost := 0, eseq := (x.eseq + 1) % 2 ^ 32 })).advanceHead r 1

/-- STATE_CHANGE to the slice itself and to slice 0 (R338, R348). Causes: 0 command, 1 error limit, 2 drained, 3 quiesce
limit (DESIGN CHOICE 143). -/
def State.stateEvent (s : State) (n st cause : Nat) : State :=
  (s.event n 0x000B n st cause).event 0 0x000B n st cause

/-! ### Operand space I and tenant flags -/

/-- A bit of the live input image. -/
def State.setI1 (s : State) (i : Nat) (b : Bool) : State :=
  { s with slp := { s.slp with i := Tbl.set false i b s.slp.i } }

/-- The status bit of a slice in operand space I (R346). -/
def State.statusBit (s : State) (n : Nat) (b : Bool) : State :=
  if s.get F.SLT_CTL_STAT_I = 0xFFFF then s else s.setI1 (s.get F.SLT_CTL_STAT_I + n) b

/-- Newest CONFIRMED instant of a lattice. -/
def State.confN (s : State) (l : Nat) : Nat := (Tbl.get {} l s.lat).conf

/-- Every instant of a dependency is CONFIRMED (R38). -/
def State.depDone (s : State) (d : Dep) : Bool := d.all (fun p => decide (p.2 ≤ s.confN p.1))

/-- Whether dependency `b` holds an instant that is earlier than one of the same lattice in `d`. -/
def depEarlier (b d : Dep) : Bool := b.any (fun p => d.any (fun q => p.1 == q.1 && decide (p.2 < q.2)))

/-- Whether a doorbell write of index `d` still has descriptors before the ring. -/
def Ring.live (g : Ring) (d : Nat) : Bool := decide ((d + 65536 - g.head % 65536) % 65536 ≤ g.posted) && d % 65536 != g.head % 65536

/-- The dependencies of the submissions that wait, with the head itself, while a ring's head is held (R39, R282). -/
def Ring.waiting (g : Ring) : List Dep :=
  if !g.held then []
  else (g.deps.filter (fun d => g.live d.1 && !g.gone.contains d.1 && !depEarlier d.2 (g.depOf g.head))).map Prod.snd

/-- The dependencies of the acts that are held: output sets, ring submissions, SV frames, frames at a MAC, pending F writes (R35,
R39). -/
def State.heldDeps (s : State) : List Dep :=
  s.slp.held.map (fun o => o.dep.toList) ++ s.pub.held.map (fun h => h.dep)
    ++ s.slt.rings.flatMap (fun p => p.2.waiting) ++ s.pub.svHeld.map (fun h => [(h.lat, h.n)])
    ++ s.mac.flatMap (fun p => (p.2.q.filter (fun f => !f.rel)).map (fun f => f.dep))
    ++ s.slp.fPend.map (fun p => p.dep)

/-- Whether an act with a dependency may be released: it is confirmed, and no held act depends on an earlier instant of one of its
lattices (R38, R41). -/
def State.depFree (s : State) (d : Dep) : Bool := s.depDone d && !s.heldDeps.any (fun b => depEarlier b d)

/-- FRAME_WITHDRAWN: a submission of a ring is discarded, and its slice informed (R39, R338). -/
def State.frameWithdrawn (s : State) (sl r desc : Nat) : State :=
  (s.event sl 0x0002 (rgLocal (s.sltEnt 2 r)) desc 0).modSlice sl (fun x => { x with withdrawn := satInc 32 x.withdrawn })

/-- The dependency an act of a slice carries: for each lattice its provisional view covers, the newest closed instant
where that one is not yet confirmed (R39). -/
def State.viewDep (s : State) (n : Nat) : Dep :=
  let w := s.sltEnt 0 n
  if !slPvEn w then []
  else ((List.range 4).filter (fun l => bit l (slPvLat w))).filterMap (fun l =>
    let x := Tbl.get ({} : Lattice) l s.lat
    if x.running && decide (x.conf + 1 < x.next) then some (l, x.next - 1) else none)

/-- The newest value of an F word that is not withdrawn (R344). -/
def State.fWord (s : State) (w : Nat) : Nat :=
  match (s.slp.fPend.filter (fun p => p.word == w && !p.old)).getLast? with
  | some p => p.val
  | none => Tbl.get 0 w s.slp.fConf

/-- Whether a clearing update of F may stand as confirmed: its cycle has begun, and in a per-instant class its instant is confirmed, so
that no earlier cycle is executed again (R350). -/
def State.fBegun (s : State) (p : FWrite) : Bool :=
  match p.start with
  | none => true
  | some t => t.begun && (match t.lat with | some l => decide (t.n ≤ s.confN l) | none => true)

/-- One write of F in order of time: confirmed, with no held act on an earlier instant, it becomes the word's confirmed value, and
those before it only wait to be confirmed or withdrawn; otherwise it stays pending (R41, R344). -/
def State.fSettle (s : State) (x : List FWrite × Tbl Nat) (p : FWrite) : List FWrite × Tbl Nat :=
  if !(s.depFree p.dep && s.fBegun p) then (x.1 ++ [p], x.2)
  else if p.old then x
  else (x.1.map (fun q => if q.word = p.word then { q with old := true } else q), Tbl.set 0 p.word p.val x.2)

/-- Pending F writes whose dependency is confirmed become the confirmed value, unless a newer one is it already (R344). -/
def State.fConfirm (s : State) : State :=
  let x := s.slp.fPend.foldl s.fSettle ([], s.slp.fConf)
  { s with slp := { s.slp with fConf := x.2, fPend := x.1 } }

/-- A write of 64 F bits: confirmed at once without a dependency, else pending; writes of equal dependency merge (R344). -/
def State.fPut (s : State) (p : FWrite) : State :=
  { s with slp := { s.slp with
      fPend := s.slp.fPend.filter (fun q : FWrite => q.start.isSome || !(q.word == p.word && decide (q.dep = p.dep))) ++ [p] } }.fConfirm

/-- A slice's write of 64 F bits (R344). -/
def State.fStore (s : State) (n w v : Nat) (d : Dep) : State := s.fPut ⟨n, w, v % 2 ^ 64, d, false, none⟩

/-- F_WITHDRAW: on REFUTE for (l, n) pending writes that depend on n or later are withdrawn, newest first, each with an
F_WITHDRAWN event that names the word of SP_F (R338, R344). -/
def State.fWithdraw (s : State) (l n : Nat) : State :=
  let bad := fun p : FWrite => depFalls l n p.dep
  let gone := (s.slp.fPend.filter bad).reverse
  let s := { s with slp := { s.slp with fPend := s.slp.fPend.filter (fun p => !bad p) } }
  gone.foldl (fun s p =>
    (s.event p.slice 0x0001 (p.word - slFBase (s.sltEnt 0 p.slice)) (place 31 30 l) p.val).modSlice p.slice
      (fun x => { x with withdrawn := satInc 32 x.withdrawn })) s

/-- Every F word of a slice cleared as one update (R348), from a cycle start on where there is one to wait for (R350). -/
def State.fClear (s : State) (n : Nat) (t : Option FStart) : State :=
  let w := s.sltEnt 0 n
  forN (slFWords w) (fun s i => s.fPut ⟨n, slFBase w + i, 0, [], false, t⟩) s

/-- Cycle `n` of a class starts: the F clearing updates that waited for it stand in every image from here on (R350). -/
def State.fBegin (s : State) (c n : Nat) : State :=
  let go := fun (p : FWrite) => match p.start with
    | some t => if t.cls = c ∧ t.n ≤ n then { p with start := some { t with begun := true } } else p
    | none => p
  if s.slp.fPend.any (fun p => p.start.isSome) then
    { s with slp := { s.slp with fPend := s.slp.fPend.map go } }.fConfirm
  else s

/-! ### Ring publications and the fall into FAULTED -/

/-- Every ring publication of a slice enabled or disabled (R348). One disabled keeps its numbers for what is still in flight and
sends no repetitions; one enabled again begins at stNum 1 (R279, R350). -/
def State.ringPubs (s : State) (n : Nat) (en : Bool) : State :=
  s.pub.ent.foldl (fun s p =>
    if pbValid p.2 && pbRing p.2 && !pbSv p.2 && pbSlice p.2 == n then
      let s := s.setPubEnt p.1 (listSet 0 1 (putBits 63 63 (b2n en) (word p.2 1)) p.2)
      { s with pub := { s.pub with st := Tbl.mod {} p.1 (fun y =>
          if en then { ({} : PubSt) with sentSt := y.sentSt, sentSq := y.sentSq, lastTx := y.lastTx, frames := y.frames }
          else { y with scheduled := false }) s.pub.st } }
    else s) s

/-- Every ring of a slice in a state: 0 DISABLED, 1 ACCEPTING, 2 STOPPED (R332). Of rings that do not accept nothing waits, so the
slice keeps no deficit (R341). -/
def State.ringsTo (s : State) (n st : Nat) : State :=
  let s := (s.ringsOf n).foldl (fun s r => s.modRing r (fun g => { g with rstate := st })) s
  if st = 1 then s else s.modSlice n (fun x => { x with deficit := [] })

/-- The actions of the transition into FAULTED (R348). -/
def State.sliceToFaulted (s : State) (n cause : Nat) : State :=
  let s := (s.ringsTo n 2).ringPubs n false
  let s := if slFFail (s.sltEnt 0 n) then s.fClear n none else s
  let s := (s.statusBit n false).modSlice n (fun x => { x with state := 5 })
  s.stateEvent n 5 cause

/-- SLICE_ERR_LIMIT: one more refused request, doorbell error or descriptor error of a slice; the ERR_LIMIT-th within one
second of module time faults it (R352). -/
def State.sliceError (s : State) (n : Nat) : State :=
  let sec := Time.sec s.now
  let s := s.modSlice n (fun x => { x with errs := (if x.errSec = sec then x.errs else 0) + 1, errSec := sec })
  let lim := slErrLimit (s.sltEnt 0 n)
  let st := s.sliceState n
  if n != 0 && lim != 0 && decide (lim ≤ (s.slice n).errs) && (st == 2 || st == 3 || st == 4)
  then s.sliceToFaulted n 1 else s

/-- A refused request of a slice: REFUSED counted, one REFUSED event in each 1 ms, the error limit (R338, R351). -/
def State.refuse (s : State) (n addr : Nat) : State :=
  let s := (s.modSlice n (fun x => { x with refused := satInc 32 x.refused })).bump (F.SLT_SP_ERR_REFUSED.pg n)
  let s := if (match (s.slice n).refEvt with | some t => decide (t + ms 1 ≤ s.now) | none => true)
    then (s.event n 0x0005 0 (addr % 2 ^ 32) 0).modSlice n (fun x => { x with refEvt := some s.now }) else s
  s.sliceError n

/-! ### Who sends a request (R29, R329) -/

/-- Whom a request acts for: slice 0 and the hypervisor, a tenant slice, the TMC, an engine, or no slice; `outside` is a
core that CORE_CHECK finds outside its slice's CORES. -/
inductive Actor
  | sys
  | tenant (n : Nat)
  | tmc
  | engine
  | unbound
  | outside (n : Nat)
  deriving DecidableEq, Repr

/-- The actor behind a master (R329). -/
def State.actor (s : State) : Master → Actor
  | .tmc => .tmc
  | .engine => .engine
  | .core c hyp =>
    if hyp then .sys
    else
      let k := Tbl.get ({} : Core) c s.slt.cores
      if !k.valid then .unbound
      else match s.boundSlice k.pasid with
        | none => .unbound
        | some n =>
          if s.flag F.SLT_CTL_CORE_CHECK && !bit c (slCores (s.sltEnt 0 n)) then .outside n
          else if n = 0 then .sys else .tenant n

/-- What the SLT counts for a refused request (R329, R351). -/
def State.refused (s : State) (a : Actor) (addr : Nat) : State :=
  match a with
  | .unbound => s.bump (F.SLT_CNT_COUNT.nth 0)
  | .outside n => (s.refuse n addr).bump (F.SLT_CNT_COUNT.nth 1)
  | .tenant n => s.refuse n addr
  | .sys => s.refuse 0 addr
  | _ => s

/-- The block pages that application cores may not write: SLT, PSC, PSC_ARC, DOM (R29). -/
def tmcOnlyPage (addr : Nat) : Bool :=
  let p := (addr - regBase) / 0x10000
  p == 0x03 || p == 0x10 || p == 0x11 || p == 0x12

/-- Whether R29 grants a write (`w`) or a read of a register page address to an actor; slice pages take a tenant's own
page alone. -/
def regGrant (a : Actor) (addr : Nat) (w : Bool) : Bool :=
  match a with
  | .tmc => true
  | .sys => !(w && decide (addr < sliceBase) && tmcOnlyPage addr)
  | .tenant n => decide (sliceBase + n * 0x10000 ≤ addr) && decide (addr < sliceBase + (n + 1) * 0x10000)
  | _ => false

/-- A bus error: nothing written, nothing returned (R9, R28). -/
def State.busError (s : State) : State := { s with bus := .error }

/-- A fabric write that R29 does not grant ends in a bus error and is counted; a granted one runs `f`. -/
def State.granted (s : State) (m : Master) (addr : Nat) (f : State → State) : State :=
  if !s.masterUp m then s
  else if regGrant (s.actor m) addr true then { f s with bus := .done }
  else (s.refused (s.actor m) addr).busError

end Sys2Proof.Machine
end

