-- ==== Sys2Proof/Machine/BlockCmd.lean ====
section
/-! DEFINITION. The command registers through which blocks reach their tables (R500): the start of an operation, whose outcome
waits, and its end. -/
namespace Sys2Proof.Machine

/-- BUSY of a block's command register. -/
def blkBusy : CmdBlock → Field
  | .sct => F.SCT_CMD_BUSY | .phe => F.PHE_CMD_BUSY | .gcm => F.GCM_CMD_BUSY | .slp => F.SLP_CMD_BUSY
  | .pub => F.PUB_CMD_BUSY | .dre => F.DRE_CMD_BUSY | .slt => F.SLT_CMD_BUSY
/-- RESULT of a block's command register. -/
def blkResult : CmdBlock → Field
  | .sct => F.SCT_CMD_RESULT | .phe => F.PHE_CMD_RESULT | .gcm => F.GCM_CMD_RESULT | .slp => F.SLP_CMD_RESULT
  | .pub => F.PUB_CMD_RESULT | .dre => F.DRE_CMD_RESULT | .slt => F.SLT_CMD_RESULT
/-- The first data register of a block. -/
def blkData : CmdBlock → Field
  | .sct => F.SCT_DATA_WORD | .phe => F.PHE_DATA_WORD | .gcm => F.GCM_DATA_WORD | .slp => F.SLP_DATA_WORD
  | .pub => F.PUB_DATA_WORD | .dre => F.DRE_DATA_WORD | .slt => F.SLT_DATA_WORD
/-- The number of data registers of a block. -/
def blkWords : CmdBlock → Nat
  | .sct => 6 | .phe => 4 | .gcm => 5 | .slp => 4 | .pub => 4 | .dre => 5 | .slt => 4

/-- The bits of data register `k` that are reserved whichever entry it holds (R134, R233, R234, R271, R292, R320). -/
def blkHoles : CmdBlock → Nat → List (Nat × Nat)
  | .sct, 1 => [(55, 48)]
  | .sct, 3 => [(59, 56), (31, 0)]
  | .sct, 5 => [(31, 0)]
  | .phe, 2 => [(31, 0)]
  | .phe, 3 => [(63, 0)]
  | .gcm, 0 => [(35, 32)]
  | .gcm, 4 => [(47, 0)]
  | .slp, 3 => [(39, 34)]
  | .pub, 1 => [(60, 48)]
  | .pub, 2 => [(15, 0)]
  | .pub, 3 => [(5, 0)]
  | .dre, 4 => [(27, 0)]
  | _, _ => []

/-- A word as data register `k` of a block takes it from software: reserved bits read as zero (R11). -/
def dataKept (b : CmdBlock) (k v : Nat) : Nat := (blkHoles b k).foldl (fun v (h : Nat × Nat) => putBits h.1 h.2 0 v) v

/-- Words in a block's data registers. -/
def State.putData (s : State) (b : CmdBlock) (ws : List Nat) : State :=
  forN (blkWords b) (fun s i => s.setF ((blkData b).nth i) (word ws i)) s

/-- The words in a block's data registers. -/
def State.dataWords (s : State) (b : CmdBlock) : List Nat := (List.range (blkWords b)).map (fun i => s.get ((blkData b).nth i))

/-- A free value in RESULT and in each data register, while BUSY is 1. -/
def State.scramble (s : State) (b : CmdBlock) : State :=
  let s := (s.setF (blkResult b) (s.freeVal 3)).drawn
  forN (blkWords b) (fun s i => (s.setF ((blkData b).nth i) (s.freeVal 64)).drawn) s

/-- The key of a block's outcome: its page. -/
def blkKey (b : CmdBlock) : Nat := (blkBusy b).addr

/-- An operation starts: BUSY 1, RESULT and the data registers undefined until its end delivers `r` and the words `ws`. -/
def State.cmdStart (s : State) (b : CmdBlock) (r : Nat) (ws : List Nat) : State :=
  ({ s with cmds := Tbl.set {} (blkKey b) ⟨r, ws⟩ s.cmds }.setF (blkBusy b) 1).scramble b

/-- The fabric's write that starts an operation: without the grant of R29 a bus error, while BUSY ignored. `fs` are the fields
written beside OP; `tmcOnly` operations fail with 0b010 from another master; `act` gives RESULT, the data words where it
returns any, and the effect. -/
def State.cmdRun (s : State) (m : Master) (b : CmdBlock) (fs : List (Field × Nat)) (tmcOnly : Bool)
    (act : State → Nat × Option (List Nat) × State) : Result :=
  .next (s.granted m (blkBusy b).addr (fun s =>
    if s.flag (blkBusy b) then s
    else
      let s := fs.foldl (fun s p => s.writeField p.1 p.2) s
      if tmcOnly && m != .tmc then s.cmdStart b 2 (s.dataWords b)
      else
        let d := s.dataWords b
        let r := act s
        r.2.2.cmdStart b r.1 (r.2.1.getD d)))

/-- The end of an operation: BUSY 0, RESULT and the data registers hold the outcome. -/
def State.cmdEnd (s : State) (b : CmdBlock) : State :=
  if s.flag (blkBusy b) then
    let o := Tbl.get {} (blkKey b) s.cmds
    (({ s with cmds := Tbl.set {} (blkKey b) {} s.cmds }.setF (blkBusy b) 0).setF (blkResult b) o.result).putData b o.data
  else s

/-- COMMAND_OPERATION_END. -/
def execCommandOperationEnd (b : CmdBlock) (s : State) : Result := .next (s.cmdEnd b)

end Sys2Proof.Machine
end

