-- ==== Sys2Proof/Machine/Belfry.lean ====
section
/-! DEFINITION. The Belfry's records (R474 to R479): entries, merging, staging in the Keep domain, and the cursor. -/
namespace Sys2Proof.Machine

/-- Physical base of the Belfry's MRAM area (R474). -/
def blfBase : Nat := mramBase + 0x3FE00000
/-- Physical address of the last-area slot of record `r` (R475). -/
def blfLast (r : Nat) : Nat := blfBase + 0x5000 + r % 4096 * 256
/-- Physical address of the first-area slot of record `r`, for r below 64 (R475). -/
def blfFirst (r : Nat) : Nat := blfBase + 0x1000 + r * 256

/-- BUNDLE_ID of the committed bundle, 0 when none (R475). -/
def State.bundleId (s : State) : Nat := if s.tmc.locked then s.tmc.bundleId else 0

/-- An entry of the present moment (R475). -/
def State.entry (s : State) (kind code source : Nat) (payload : List Nat) : BelEntry :=
  { kind, code, source, payload, time := s.gt64, opSec := s.get F.PHM_KEEP_CNT_OP_SEC,
    cycles := s.get F.PHM_KEEP_CNT_POWER_CYCLES, bundle := s.bundleId }

/-- Nanoseconds that a GT64 counts. -/
def gt64Ns (t : Nat) : Nat := t / 2 ^ 32 * 1000000000 + t % 2 ^ 32

/-- CRC-32C over words 1 to 30 of a record (R475). -/
def recCrc (ws : List Nat) : Nat := crc32c (wordsOctets ((ws.drop 1).take 30))

/-- The 32 words of a new record (R475). -/
def recWords (rseq : Nat) (e : BelEntry) (staged : Bool) : List Nat :=
  let body := [rseq, e.time, e.time, place 63 48 e.kind + place 47 32 e.code, place 63 32 e.opSec + place 31 0 e.cycles,
    place 63 32 e.bundle + place 31 16 e.source + b2n staged] ++ (List.range 25).map (fun i => e.payload.getD i 0 % 2 ^ 64)
  body ++ [recCrc body]

/-- REPEAT_WIN in seconds; 0 is taken as 1 (R483). -/
def State.repeatWin (s : State) : Nat := max 1 (s.get F.BLF_CTL_REPEAT_WIN)

/-- Whether a new entry merges into the newest record (R477). -/
def State.merges (s : State) (e : BelEntry) : Bool :=
  s.hlt.hdrNext != 0 &&
    (let a := blfLast (s.hlt.hdrNext - 1)
     let w3 := s.rd64 (a + 24)
     let last := gt64Ns (s.rd64 (a + 16))
     let t := gt64Ns e.time
     bits 63 48 w3 == e.kind && bits 47 32 w3 == e.code && bits 31 16 (s.rd64 (a + 40)) == e.source
       && s.rd64 (a + 48) == e.payload.getD 0 0 && s.rd64 (a + 56) == e.payload.getD 1 0
       && decide (last ≤ t) && decide (t ≤ last + s.repeatWin * 1000000000))

/-- The merge of a repeat: LAST_TIME, then REPEAT, saturating, and the CRC over both; the first-area copy is never
rewritten (R475, R477). -/
def State.mergeInto (s : State) (e : BelEntry) : State :=
  let a := blfLast (s.hlt.hdrNext - 1)
  let w3 := s.rd64 (a + 24)
  let s := (s.wr64 (a + 16) e.time).wr64 (a + 24) (w3 - w3 % 2 ^ 32 + satInc 32 (w3 % 2 ^ 32))
  (s.wr64 (a + 248) (recCrc (s.rdWords a 32))).bump (F.BLF_CNT_COUNT.nth 1)

/-- A new record: the last-area slot, for the first 64 also the first area, and NEXT_RSEQ (R475). -/
def State.newRecord (s : State) (e : BelEntry) (staged : Bool) : State :=
  let r := s.hlt.hdrNext
  let ws := recWords r e staged
  let s := s.wrWords (blfLast r) ws
  let s := if r < 64 then s.wrWords (blfFirst r) ws else s
  let s := { s with hlt := { s.hlt with hdrNext := r + 1 } }
  ((s.setF F.BLF_NEXT_RSEQ_RSEQ (r + 1)).setB F.BLF_STATUS_FIRST_FULL (decide (64 ≤ r + 1))).bump (F.BLF_CNT_COUNT.nth 0)

/-- BELFRY_RECORD_WRITE: a merge or a new record (R477). -/
def State.writeEntry (s : State) (e : BelEntry) (staged : Bool) : State :=
  if s.merges e then s.mergeInto e else s.newRecord e staged

/-- An entry staged in the Keep domain; a fifth is dropped (R478). -/
def State.stageEntry (s : State) (e : BelEntry) : State :=
  let k := s.keep
  if k.staged.length < 4 then
    { s with keep := { k with staged := k.staged ++ [e] } }
  else { s with keep := { k with dropped := k.dropped + 1 } }.bump (F.BLF_CNT_COUNT.nth 2)

/-- STAGED_RECORD_FLUSH: staged entries are written with STAGED set, then one STAGE_LOST record gives the number dropped
(R478). -/
def State.flushStaged (s : State) : State :=
  let es := s.keep.staged
  let lost := s.keep.dropped
  let s := { s with keep := { s.keep with staged := [], dropped := 0 } }
  let s := es.foldl (fun s e => s.writeEntry e true) s
  if lost = 0 then s else s.writeEntry (s.entry 1 0x000C 0 [lost]) false

/-- One Belfry entry of the present moment: staged while the module is below the reset threshold, else written (R478). -/
def State.belfry (s : State) (kind code source : Nat) (payload : List Nat) : State :=
  let e := s.entry kind code source payload
  if s.sup.mode = .reset then s.stageEntry e else s.writeEntry e false

/-- WIN_STATE of a record: 0 VALID, 1 OVERWRITTEN, 2 NOT_WRITTEN; the first area holds records 0 to 63 alone (R480). -/
def State.winState (s : State) (first : Bool) (r : Nat) : Nat :=
  if s.hlt.hdrNext ≤ r then 2
  else if first then (if r < 64 then 0 else 1)
  else if r + 4096 < s.hlt.hdrNext then 1 else 0

/-- The words of a record as a reader finds them, zeros unless VALID (R480). -/
def State.recordWords (s : State) (first : Bool) (r : Nat) : List Nat :=
  if s.winState first r = 0 then s.rdWords (if first then blfFirst r else blfLast r) 32 else List.replicate 32 0

/-- The snapshot of the record that BLF.CURSOR names (R480). -/
def State.snapshot (s : State) : State :=
  let first := s.flag F.BLF_CURSOR_FIRST
  let r := s.get F.BLF_CURSOR_RSEQ
  let ws := s.recordWords first r
  let s := (s.setF F.BLF_WIN_STAT_WIN_STATE (s.winState first r)).setF F.BLF_WIN_STAT_BUSY 0
  forN 32 (fun s i => s.setF (F.BLF_WIN_WORD.nth i) (word ws i)) s

end Sys2Proof.Machine
end

