-- ==== Sys2Proof/Machine/Keys.lean ====
section
/-! DEFINITION. The Dome's key tree and measurement slots as the other blocks use them (R413 to R423): live nodes, the key slots
of a GROUP node, and an extend. -/
namespace Sys2Proof.Machine

/-- DSTATE: 0 STARTING, 1 READY, 2 ROOT_FAIL, 3 DEBUGGED (R434). -/
def State.dstate (s : State) : Nat := s.get F.DOM_STATUS_DSTATE

/-- A node (R413, R414): 0, 1 and 3 are fixed, the others are records of the Dome store. -/
def State.node (s : State) (i : Nat) : Node :=
  match i with
  | 0 => { kind := 1 }
  | 1 => { kind := 3, depth := 1 }
  | 3 => { kind := 5, depth := 1, key := Config.otvalAnchor, usage := 2 }
  | _ => Tbl.get {} i s.dom.nodes

/-- The state with a node's record changed. -/
def State.modNode (s : State) (i : Nat) (f : Node → Node) : State :=
  { s with dom := { s.dom with nodes := Tbl.mod {} i f s.dom.nodes } }

/-- What the HMAC of an anchor record covers: its index, public key and usage (R428). -/
def anchorRecord (i : Nat) (n : Node) : List Nat := [i, n.key, n.usage]

/-- Whether a node's record counts: that of an integrator anchor only where its HMAC agrees (R428). -/
def State.recordOk (s : State) (i : Nat) : Bool :=
  let n := s.node i
  n.kind != 5 || i == 3 || n.mac == Config.hmac384 s.dom.anchorKey (anchorRecord i n)

/-- Whether a node and its ancestors, at most `fuel` of them, are in being and not destroyed (R416). -/
def State.chainLive (s : State) : Nat → Nat → Bool
  | 0, _ => false
  | fuel + 1, i =>
    let n := s.node i
    n.kind != 0 && !n.destroyed && (i == 0 || s.chainLive fuel n.parent)

/-- A live node (R416): its record and every ancestor's are not destroyed, and the Dome holds its root; anchors outlive a debug
opening (R432); one whose HMAC fails is absent (R428). -/
def State.nodeLive (s : State) (i : Nat) : Bool :=
  decide (i < 8192) && s.chainLive 7 i && s.recordOk i && (s.dstate == 1 || (s.dstate == 3 && (s.node i).kind == 5))

/-- The node as a consumer of group keys finds it: empty unless a live GROUP node (R413, R418). -/
def State.groupNode (s : State) (i : Nat) : Node :=
  if s.nodeLive i && (s.node i).kind == 4 then s.node i else {}

/-- The slot with which the Publication Engine tags at the present moment: NEXT at or after its START, else CURRENT (R422). -/
def State.tagSlot (s : State) (i : Nat) : Option KeySlot :=
  let n := s.groupNode i
  match n.nxt with
  | some k => if secs k.start ≤ s.now then some k else n.cur
  | none => n.cur

/-- The octets of a number as numbers, octet 0 lowest. -/
def octs (n v : Nat) : List Nat := (List.range n).map (fun i => v / 256 ^ i % 256)

/-- The key of a node (R415), with `fuel` the nodes on its path to the root. -/
def State.nodeKey (s : State) : Nat → Nat → Nat
  | 0, _ => 0
  | fuel + 1, i =>
    let n := s.node i
    if i = 0 then s.dom.root.getD 0 else if n.kind = 6 then n.key
    else Config.hkdf (s.nodeKey fuel n.parent) "SK9-NODE" (octs 2 i ++ octs 4 n.gen ++ octs 1 n.kind)

/-- The wrapping key of a node: 32 octets from its parent's key (R415). -/
def State.wrapKey (s : State) (i : Nat) : Nat :=
  Config.hkdf (s.nodeKey 7 (s.node i).parent) "SK9-WRAP" (octs 2 i ++ octs 4 (s.node i).gen) % 2 ^ 256

/-- The octets of a key slot in a record: a presence octet, then ALG, KEY_ID, START, LIFETIME and the key. -/
def slotRecord (k : Option KeySlot) : List Nat :=
  match k with
  | none => [0]
  | some k => 1 :: octs 1 k.alg ++ octs 4 k.keyId ++ octs 8 k.start ++ octs 4 k.lifetime ++ k.key.map (·.toNat)

/-- What a node keeps secret in its record: the group keys, or the transport key (R415). -/
def Node.secret (n : Node) : List Nat := if n.kind = 6 then octs 48 n.key else slotRecord n.cur ++ slotRecord n.nxt

/-- A node's keys changed and its record stored anew under the wrapping key (R415). -/
def State.modKeys (s : State) (i : Nat) (f : Node → Node) : State :=
  let t := s.modNode i f
  t.modNode i (fun n => { n with sealed := Config.gcmSeal (t.wrapKey i) n.secret })

/-- The tests of START and of the end of LIFETIME on every GROUP node at a step of module time (R421). -/
def State.keyTimes (s : State) : State :=
  s.dom.nodes.foldl (fun (s : State) (p : Nat × Node) =>
    let s := match (s.groupNode p.1).nxt with
      | some k =>
        if secs k.start ≤ s.now then (s.modKeys p.1 (fun n => { n with cur := some k, nxt := none })).bump (F.DOM_CNT_COUNT.nth 3) else s
      | none => s
    match (s.groupNode p.1).cur with
    | some k => if secs (k.start + k.lifetime) ≤ s.now then (s.modKeys p.1 (fun n => { n with cur := none })).bump (F.DOM_CNT_COUNT.nth 4) else s
    | none => s) s

/-- A measurement slot extended with a digest (R423): `ms = sha384(ms || d)`, and its count. -/
def State.extendMs (s : State) (i d : Nat) : State :=
  { s with dom := { s.dom with
    ms := Tbl.set 0 i (Config.sha384 (octs 48 (Tbl.get 0 i s.dom.ms) ++ octs 48 d) % 2 ^ 384) s.dom.ms
    msCount := Tbl.set 0 i (satInc 32 (Tbl.get 0 i s.dom.msCount)) s.dom.msCount } }

end Sys2Proof.Machine
end

