-- ==== Sys2Proof/Machine/MacOps.lean ====
section
/-! DEFINITION. The MAC transmit side that every sender shares: queues, redundancy, Weevil transmit rules, dependencies
held at the MAC, ring write-backs, and the fall of a link (R106 to R129). Ports are numbered P0–P7, K0 8, K1 9, M0 10. -/
namespace Sys2Proof.Machine

/-- A port's MAC structure. -/
def State.macOf (s : State) (p : Nat) : Mac := Tbl.get {} p s.mac
/-- The state with a MAC structure changed. -/
def State.modMac (s : State) (p : Nat) (f : Mac → Mac) : State := { s with mac := Tbl.mod {} p f s.mac }
/-- The pair structure of ports 2p and 2p + 1. -/
def State.pairOf (s : State) (p : Nat) : Pair := Tbl.get {} p s.pairs
/-- The state with a pair structure changed. -/
def State.modPair (s : State) (p : Nat) (f : Pair → Pair) : State := { s with pairs := Tbl.mod {} p f s.pairs }

/-- Counter `n` of a port (R127). -/
def macCnt (p n : Nat) : Field := (F.MAC_CNT_COUNT.nth n).pg p
/-- Count one event on a port. -/
def State.macBump (s : State) (p n : Nat) : State := s.bump (macCnt p n)
/-- LINK of a port. -/
def State.link (s : State) (p : Nat) : Bool := s.flag (F.MAC_STATUS_LINK.pg p)
/-- EN of a port. -/
def State.portEn (s : State) (p : Nat) : Bool := s.flag (F.MAC_CTL_EN.pg p)
/-- REDUN of the pair a port belongs to: 0 none, 1 PRP, 2 HSR (R104). -/
def State.redun (s : State) (p : Nat) : Nat := if 8 ≤ p then 0 else s.get (F.MAC_CTL_REDUN.pg (p / 2 * 2))
/-- The address of a port; both ports of a pair use the even one's (R105). -/
def State.portAddr (s : State) (p : Nat) : Nat :=
  if p = 10 ∧ s.tmc.active = none then Config.factoryMac % 2 ^ 48
  else s.get (F.MAC_ADDR_ADDR.pg (if s.redun p = 0 then p else p / 2 * 2))
/-- The largest frame on the line (R102). -/
def State.maxFrame (s : State) (p : Nat) : Nat :=
  s.get (F.MAC_CTL_MAX_FRAME.pg p) + (if s.redun p = 0 then 0 else 6)
/-- Bit rate of a port in Gbit/s: 25, 10 or 1 (R100). -/
def State.gbit (s : State) (p : Nat) : Nat :=
  match s.get (F.MAC_CTL_SPEED.pg p) with
  | 0 => 25
  | 1 => 10
  | _ => 1

/-! ### Weevil rules (R129) -/

/-- Whether the Weevil acts at all (R128). -/
def State.wvlOn (s : State) : Bool := s.flag F.WVL_CTL_ARM && s.flag F.WVL_CTL_ALLOW

/-- The APPID of an SV or GOOSE frame; that of a frame from a ring stands behind its EtherType. -/
def Frame.appid (f : Frame) : Option Nat :=
  match f.body with
  | .sv p => some p.appid
  | .goose p => some p.appid
  | .plain =>
    let o := if f.vlan.isSome then 18 else 14
    if f.etype = 0x88B8 ∨ f.etype = 0x88BA then
      match f.raw[o]?, f.raw[o + 1]? with
      | some a, some b => some (a.toNat * 256 + b.toNat)
      | _, _ => none
    else none
  | _ => none

/-- Whether rule `r` selects a frame of a port and direction. -/
def State.wvlSelects (s : State) (r p : Nat) (tx : Bool) (f : Frame) : Bool :=
  s.flag (F.WVL_RULE_MATCH_EN.nth r) && s.flag (F.WVL_RULE_MATCH_DIR.nth r) == tx
    && s.get (F.WVL_RULE_MATCH_PORT.nth r) == p
    && (!s.flag (F.WVL_RULE_MATCH_ETYPE_EN.nth r) || s.get (F.WVL_RULE_MATCH_ETYPE.nth r) == f.etype)
    && (!s.flag (F.WVL_RULE_MATCH_APPID_EN.nth r) || Frame.appid f == some (s.get (F.WVL_RULE_MATCH_APPID.nth r)))

/-- The rule that a frame meets, none when the Weevil is off: the first enabled match. -/
def State.wvlRule (s : State) (p : Nat) (tx : Bool) (f : Frame) : Option Nat :=
  if s.wvlOn then (List.range 16).find? (fun r => s.wvlSelects r p tx f) else none

/-- Count a match of rule `r`; the answer is the action code to take, or none (R129). -/
def State.wvlCount (s : State) (r : Nat) : Option Nat × State :=
  let seen := Tbl.get 0 r s.wvl.seen + 1
  let acted := Tbl.get 0 r s.wvl.acted
  let every := max 1 (s.get (F.WVL_RULE_COUNT_EVERY.nth r))
  let lim := s.get (F.WVL_RULE_COUNT_LIMIT.nth r)
  let s := { s with wvl := { s.wvl with seen := Tbl.set 0 r seen s.wvl.seen } }
  if seen % every = 0 ∧ (lim = 0 ∨ acted < lim) then
    let s := { s with wvl := { s.wvl with acted := Tbl.set 0 r (acted + 1) s.wvl.acted } }
    let a := s.get (F.WVL_RULE_ACTION_ACTION.nth r)
    (some (if 7 < a then 0 else a), s.bump (F.WVL_RULE_HITS_HITS.nth r))
  else (none, s)

/-- DELAY of a rule for a DELAY action, at most 1,000 µs. -/
def State.wvlDelay (s : State) (r : Nat) : Time := us (min 1000 (s.get (F.WVL_RULE_ACTION_DELAY.nth r)))

/-! ### Ring write-backs (R336, R337) -/

/-- The descriptors of an ended frame written back: words 1 to 3 of those inside the slice's windows, then HEAD; a bad
descriptor or address counts DESC_ERR, an ECC error of a buffer does not (R330, R351). -/
def State.ringEnd (s : State) (sl r : Nat) (e : RingEnd) : State :=
  let s := forN e.n (fun s i =>
    let a := s.descAddr r (e.first + i)
    let w1 := s.rd64 (a + 8)
    let w3 := s.rd64 (a + 24)
    if !s.dramOwned sl a 32 then s else
    let s := s.wr64 (a + 8) (putBits 63 63 1 w1)
    let s := s.wr64 (a + 16) (if i + 1 = e.n then e.ts else 0)
    let w3 := putBits 63 56 e.status w3
    s.wr64 (a + 24) (match e.st with | some v => putBits 31 0 v w3 | none => w3)) s
  let s := s.modSlice sl (fun x => { x with inflightNow := x.inflightNow - e.n })
  let s := (s.modRing r (fun g => { g with held := false, fetched := g.fetched - e.n })).advanceHead r e.n
  if e.status = 1 ∨ e.status = 2 ∨ e.status = 3 then
    (s.modSlice sl (fun x => { x with descErr := satInc 32 x.descErr })).sliceError sl
  else s

/-- Ends at HEAD are written back, in order (R337). -/
def State.ringDrain (s : State) (sl r : Nat) : Nat → State
  | 0 => s
  | k + 1 =>
    match (s.ring r).ended.find? (fun e => e.first % 65536 == (s.ring r).head % 65536) with
    | none => s
    | some e =>
      ((s.modRing r (fun g => { g with ended := g.ended.filter (fun x => decide (x ≠ e)) })).ringEnd sl r e).ringDrain sl r k

/-- A transmit frame or a submission ends with a status, and is written back once those before it in its ring are; one of an
old generation is not (R330, R337, R349). `ts` goes into word 2 of the LAST descriptor. -/
def State.txComplete (s : State) (sl r gen first n status ts : Nat) (st : Option Nat) : State :=
  if (s.slice sl).gen != gen then s
  else (s.modRing r (fun g => { g with ended := g.ended ++ [⟨first, n, status, ts, st⟩] })).ringDrain sl r
    ((s.ring r).ended.length + 1)

/-- Whether a copy of a ring frame is still on its way to a line. -/
def State.copyLeft (s : State) (src : TxSource) : Bool :=
  s.mac.any (fun p => p.2.q.any (fun f => decide (f.src = src)) || p.2.txDelay.any (fun f => decide (f.2.src = src))
    || (match p.2.cur with | some f => decide (f.src = src) | none => false))

/-- Mark what is left of a ring frame as sent once already. -/
def State.markCopies (s : State) (src : TxSource) (ts : Nat) : State :=
  let mk := fun (f : TxFrame) => if f.src = src then { f with done := some ts } else f
  { s with mac := s.mac.map (fun p =>
      (p.1, { p.2 with q := p.2.q.map mk, cur := p.2.cur.map mk, txDelay := p.2.txDelay.map (fun d => (d.1, mk d.2)) })) }

/-- One copy of a frame ends. A ring frame ends with its last copy: OK when one of them was sent (R107, R337). -/
def State.txCopyEnd (s : State) (f : TxFrame) (status ts : Nat) : State :=
  match f.src with
  | .ring sl r gen first n tsReq =>
    let ts := if tsReq then ts else 0
    if s.copyLeft f.src then (if status = 0 then s.markCopies f.src ts else s)
    else match f.done with
      | some t => s.txComplete sl r gen first n 0 t none
      | none => s.txComplete sl r gen first n status ts none
  | _ => s

/-- A copy that ends without a good transmission. -/
def State.txFail (s : State) (f : TxFrame) (status : Nat) : State := s.txCopyEnd f status 0

/-! ### Queues (R117, R119) -/

/-- A frame comes from a ring. -/
def TxFrame.isRing (f : TxFrame) : Bool :=
  match f.src with
  | .ring _ _ _ _ _ _ => true
  | _ => false

/-- A frame enters its class: a port without EN sends nothing, and only ring frames wait at it. The first one that a port in
low-power idle finds ready starts its wake time (R124). -/
def State.toClass (s : State) (p : Nat) (f : TxFrame) : State :=
  if s.portEn p || f.isRing then
    let lpi := s.flag (F.MAC_STATUS_TX_LPI.pg p)
    s.modMac p (fun m => { m with q := m.q ++ [{ f with rel := true }], readyAt := if lpi then some (m.readyAt.getD s.now) else none })
  else s

/-- A released frame meets the Weevil's transmit rules and enters its class (R129). -/
def State.txRelease (s : State) (p : Nat) (f : TxFrame) : State :=
  match s.wvlRule p true f.frame with
  | none => s.toClass p f
  | some r =>
    let x := s.wvlCount r
    match x.1 with
    | some 1 => x.2.txFail f 0
    | some 2 => x.2.toClass p { f with badFcs := true }
    | some 4 => x.2.modMac p (fun m => { m with txDelay := m.txDelay ++ [(s.now + s.wvlDelay r, f)] })
    | some 5 => (x.2.toClass p f).toClass p f
    | some 6 => x.2.toClass p { f with wvlDown := s.get (F.WVL_RULE_ACTION_DELAY.nth r) + 1 }
    | _ => x.2.toClass p f

/-- Whether a ring frame has an unreleased frame of the same ring before it (R119). -/
def ringAhead (q : List TxFrame) (f : TxFrame) : Bool :=
  match f.src with
  | .ring _ r _ _ _ _ => q.any (fun g => match g.src with | .ring _ r' _ _ _ _ => !g.rel && r' == r | _ => false)
  | _ => false

/-- A frame handed to a MAC: one with an unconfirmed dependency, behind such a one of its ring, or behind a held act on an earlier
instant, is held (R41, R119). -/
def State.txSubmit (s : State) (p : Nat) (f : TxFrame) : State :=
  if s.depFree f.dep && !ringAhead (s.macOf p).q f then s.txRelease p f
  else s.modMac p (fun m => { m with q := m.q ++ [{ f with rel := false }] })

/-- One frame on a port, or on both ports of a PRP or HSR pair with one sequence number (R109, R110). -/
def State.txPair (s : State) (p : Nat) (f : TxFrame) : State :=
  if s.redun p = 0 then s.txSubmit p f
  else
    let e := p / 2 * 2
    let seq := (s.pairOf (p / 2)).seq
    let tag := fun lan => { f with frame := { f.frame with red := some ⟨s.redun p == 2, seq, lan⟩, len := f.frame.len + 6 } }
    let s := s.modPair (p / 2) (fun x => { x with seq := (x.seq + 1) % 65536 })
    (s.txSubmit e (tag 0)).txSubmit (e + 1) (tag 1)

/-- One frame on every port and once on every pair named in PORTS (R285). -/
def State.txPorts (s : State) (ports : Nat) (f : TxFrame) : State :=
  ((List.range 8).filter (fun p => bit p ports && (s.redun p == 0 || p % 2 == 0))).foldl
    (fun s p => s.txPair p { f with frame := { f.frame with sa := s.portAddr p } }) s

/-- With no frame in transmission, transmission is stopped while a pause time runs (R120). -/
def State.pauseRise (s : State) (p : Nat) : State :=
  match (s.macOf p).pauseUntil with
  | some t =>
    if s.now < t then
      if s.flag (F.MAC_STATUS_PAUSED.pg p) then s
      else (s.modMac p (fun m => { m with pausedAt := s.now })).setF (F.MAC_STATUS_PAUSED.pg p) 1
    else s.modMac p (fun m => { m with pauseUntil := none })
  | none => s

/-- The frame in transmission is ended with an invalid frame check sequence (R107). -/
def State.txAbort (s : State) (p : Nat) : State :=
  match (s.macOf p).cur with
  | none => s
  | some f => (((s.modMac p (fun m => { m with cur := none })).macBump p 21).txFail f 5).pauseRise p

/-- LINK falls: LINK_DOWN, the frame in transmission is aborted, LLDP_EEE and TW_TX clear, low-power idle ends in both
directions (R106, R107, R124). -/
def State.linkFall (s : State) (p : Nat) : State :=
  let s := if s.link p then s.macBump p 25 else s
  let s := (s.setF (F.MAC_STATUS_LINK.pg p) 0).txAbort p
  ((s.setF (F.MAC_STATUS_LLDP_EEE.pg p) 0).setF (F.MAC_STATUS_TW_TX.pg p) 0).setF (F.MAC_STATUS_TX_LPI.pg p) 0 |>.setF (F.MAC_STATUS_RX_LPI.pg p) 0

/-- Every MAC stops starting frames and ends the one in transmission badly (R26, R64). -/
def State.stopMacs (s : State) : State :=
  forN 11 (fun s p => (s.txAbort p).modMac p (fun m => { m with stopped := true })) s

/-! ### Dependencies at the MAC (R119) -/

/-- Release, in order, every held frame of a port whose dependency is confirmed, whose ring holds none before it, and that no held
act on an earlier instant precedes; `hd` are the dependencies held (R41). -/
def relHeld (hd : List Dep) : List TxFrame → List TxFrame → State → Nat → List TxFrame × State
  | _, [], s, _ => ([], s)
  | before, f :: t, s, p =>
    if f.rel then
      let x := relHeld hd before t s p
      (f :: x.1, x.2)
    else if s.depDone f.dep && !hd.any (fun b => depEarlier b f.dep) && !ringAhead before f then
      relHeld hd before t (s.txRelease p f) p
    else
      let x := relHeld hd (before ++ [f]) t s p
      (f :: x.1, x.2)

/-- TX_HELD_RELEASE on a CONFIRM: held frames whose dependency is confirmed enter their class. -/
def State.txConfirm (s : State) : State :=
  forN 11 (fun s p =>
    let held := (s.macOf p).q.filter (fun f => !f.rel)
    if held.isEmpty then s
    else
      let hd := s.heldDeps
      let s := s.modMac p (fun m => { m with q := m.q.filter (fun f => f.rel) })
      let x := relHeld hd [] held s p
      x.2.modMac p (fun m => { m with q := m.q ++ x.1 })) s

/-- On REFUTE for (l, n) held frames that depend on n or later are discarded: TX_HELD_DISCARD, FRAME_WITHDRAWN, status
WITHDRAWN (R39, R119, R337). -/
def State.txRefute (s : State) (l n : Nat) : State :=
  let bad := fun f : TxFrame => !f.rel && depFalls l n f.dep
  forN 11 (fun s p =>
    let gone := (s.macOf p).q.filter bad
    let s := if gone.isEmpty then s else s.modMac p (fun m => { m with q := m.q.filter (fun f => !bad f) })
    gone.foldl (fun s f =>
      let s := s.macBump p 24
      match f.src with
      | .ring sl r _ first _ _ =>
        if s.copyLeft f.src then s else
        (s.frameWithdrawn sl r first).txFail f 4
      | _ => s) s) s

end Sys2Proof.Machine
end

