-- ==== Sys2Proof/Machine/Params.lean ====
section
/-! DEFINITION. The parameters of every Patchaif command as octets (R446 to R448): the layout of each opcode, against which a packet
is checked; and the octets that operands make, by which a command is known for the packet it stands for. -/
namespace Sys2Proof.Machine

/-! ### Layouts -/

/-- A field of octets. -/
def hdr (o : Octets) (at_ n : Nat) : Nat := ofLe ((o.drop at_).take n)

/-- A piece of a 1.0 layout: a number of `n` octets of which the low `w` bits are no reserved bits, octets under no reserved bit, a
string, a list with elements of `n` octets, a buffer reference. -/
inductive Part
  | num (n w : Nat)
  | octets (n : Nat)
  | str
  | list (n : Nat)
  | buf
  deriving DecidableEq, Repr

/-- The octets of a packet's parameters that a piece takes, where they hold its count, and whether its reserved bits are 0. -/
def Part.read (p : Part) (o : Octets) : Nat × Bool :=
  match p with
  | .num n w => (n, decide (ofLe (o.take n) < 2 ^ w))
  | .octets n => (n, true)
  | .str => (2 + ofLe (o.take 2), true)
  | .list n => (2 + n * ofLe (o.take 2), true)
  | .buf => (16, decide (ofLe (o.take 4) < 2))

/-- The length of a layout over given parameters and whether every reserved bit is 0; none where they are shorter (R446, R447). -/
def layoutLen : List Part → Octets → Option (Nat × Bool)
  | [], _ => some (0, true)
  | p :: ps, o =>
    let r := p.read o
    if o.length < r.1 then none
    else match layoutLen ps (o.drop r.1) with
      | none => none
      | some t => some (r.1 + t.1, r.2 && t.2)

/-- An index (R447). -/
def pIndex : Part := .num 4 32
/-- A flag of one octet. -/
def pFlag : Part := .num 1 1

/-- The 1.0 layout of an opcode (R446, R447): indices first, fields in the order of the owning chapter at the width of their register
fields, register words at 8 octets; where the chapter gives no width the model's (DESIGN CHOICE, log 291). -/
def layoutOf : Nat → List Part
  | 0x0103 => [.num 2 16]
  | 0x0104 => [.num 1 8]
  | 0x0105 => [.num 4 32]
  | 0x0106 => [.num 8 64, .num 4 32, .str]
  | 0x0107 => [.num 8 64, .num 4 32, .num 2 16]
  | 0x0108 => [.num 8 64]
  | 0x0110 => [.buf]
  | 0x0111 => [.num 1 8]
  | 0x0201 => [pIndex, .list 4, .num 4 24, .list 4, .num 2 16, .num 1 8, .num 2 16, .num 1 5, .num 1 6]
  | 0x0202 => [pIndex, pIndex, .num 8 64]
  | 0x0203 => [pIndex, pFlag, .num 4 20]
  | 0x0204 | 0x0205 | 0x0206 | 0x0207 | 0x0208 => [pIndex]
  | 0x0209 => [pIndex, .num 2 16, .num 1 8]
  | 0x020A => [pIndex, pFlag, .num 1 4]
  | 0x020B => [pFlag, pIndex]
  | 0x0301 => [.octets 48, .list 8]
  | 0x0302 | 0x0306 => [pIndex]
  | 0x0303 => [pIndex, pFlag, pFlag]
  | 0x0304 | 0x0401 => [pFlag, pIndex]
  | 0x0402 => [pIndex, pFlag]
  | 0x0403 => [pIndex, .num 2 16, .num 1 8, .num 1 8]
  | 0x0404 => [pFlag]
  | 0x0501 => [pIndex, .octets 40]
  | 0x0502 => [pIndex, pFlag]
  | 0x0503 => [pIndex]
  | 0x0601 => [pFlag, pIndex]
  | 0x0602 => [.list 5]
  | 0x0603 => [pIndex, .num 1 8]
  | 0x0604 => [pIndex, pFlag, .list 8]
  | 0x0605 => [pIndex, .num 1 8, pFlag]
  | 0x0606 => [pIndex, .num 1 8]
  | 0x0607 => [pIndex, .buf]
  | 0x0608 => [pIndex]
  | 0x0701 => [pFlag, pIndex]
  | 0x0702 => [pIndex, pFlag]
  | 0x0703 => [pIndex, pFlag, pFlag]
  | 0x0801 => [pFlag, pIndex]
  | 0x0802 | 0x0803 | 0x0804 | 0x0805 => [pIndex]
  | 0x0806 => [pIndex, pFlag, pIndex]
  | 0x0807 => [.num 1 8, .buf, .buf, .list 17]
  | 0x0901 | 0x0A01 | 0x0B01 | 0x0C01 | 0x0D01 => [pFlag]
  | 0x0A02 | 0x0A03 | 0x0B04 | 0x0B07 => [pIndex]
  | 0x0B03 => [pIndex, .num 1 8, pIndex]
  | 0x0B05 => [.num 1 8, pIndex, pIndex, .list 8, .str]
  | 0x0B06 => [pIndex, pIndex, .octets 97, .str]
  | 0x0B08 => [pIndex, .octets 97, .num 1 8, .str, .octets 96]
  | 0x0B09 => [pIndex, .octets 48]
  | 0x0B0B => [.str, .num 4 32]
  | 0x0B0E => [.str, .octets 96, pIndex]
  | 0x0C02 => [.num 4 32]
  | 0x0C05 => [.num 1 8, .num 8 64, .num 2 16]
  | 0x0D02 => [pIndex, .octets 16, .num 4 32]
  | 0x0D03 => [pFlag]
  | _ => []

/-! ### The octets of a bundle (R457) -/

/-- One entry of a bundle's section table: TYPE, OPTIONAL, OFFSET, SLEN, CRC-32C. -/
structure SectEntry where
  kind : Nat
  optional : Bool
  off : Nat
  len : Nat
  crc : Nat
  deriving DecidableEq, Repr

/-- The section table, as far as the bundle's octets go. -/
def sectTable (o : Octets) : List SectEntry :=
  (List.range (min (hdr o 16 4) (o.length / 16))).map (fun i =>
    let e := o.drop (32 + 16 * i)
    ⟨hdr e 0 2, bit 0 (hdr e 2 2), hdr e 4 4, hdr e 8 4, hdr e 12 4⟩)

/-- The section types of R457. -/
def knownSection (t : Nat) : Bool := decide (1 ≤ t) && decide (t ≤ 0x0F)

/-- The sections of a bundle that are read, each as its type and its items; the items of two of one type stand apart. -/
def bundleSections (b : Bundle) : List (Nat × List CfgItem) :=
  ((sectTable b.raw).zipIdx.map (fun p => (p.1.kind, b.content.items.getD p.2 []))).filter (fun x => knownSection x.1)

/-- The items of a bundle in order. -/
def bundleItems (b : Bundle) : List CfgItem := (bundleSections b).flatMap (fun x => x.2)

/-- Whether a bundle has a section of a type. -/
def bundleHas (b : Bundle) (t : Nat) : Bool := (bundleSections b).any (fun x => x.1 == t)

/-- The tool CA keys of a bundle's TLS section, up to 8 (R442). -/
def bundleCas (b : Bundle) : List Nat := if bundleHas b 0x0F then b.content.toolCas.take 8 else []

/-- The addresses of a bundle's TLS section, and its TCP port, by default 7447 (R442). -/
def bundleNet (b : Bundle) : NetCfg :=
  if bundleHas b 0x0F then ⟨b.content.ip4, b.content.ip6, b.content.port.getD 7447⟩ else ⟨none, 0, 7447⟩

/-! ### The octets of a command's operands -/

/-- A flag. -/
def flagOctets (b : Bool) : Octets := le 1 (b2n b)
/-- A string (R447). -/
def strOctets (o : Octets) : Octets := le 2 o.length ++ o
/-- A list with its count (R447). -/
def listOctets {α : Type} (f : α → Octets) (l : List α) : Octets := le 2 l.length ++ l.flatMap f
/-- Octets from numbers. -/
def ofNats (l : List Nat) : Octets := l.map (BitVec.ofNat 8)
/-- A buffer reference (R448). -/
def bufOctets (b : BufRef) : Octets := le 1 (if b.dram then 0 else 1) ++ le 3 0 ++ le 8 b.addr ++ le 4 b.len
/-- A source of REC_EXPORT: 0 with an instance and a buffer, or 1 with a buffer reference (log 291). -/
def srcOctets : RecSrc → Octets
  | .stored i k => le 1 0 ++ le 4 i ++ le 4 k ++ le 8 0
  | .raw b => le 1 1 ++ bufOctets b
/-- The parameters of SLICE_CREATE (R355). -/
def sliceOctets (p : SliceParams) : Octets :=
  le 4 p.slice ++ listOctets (le 4) p.pasids ++ le 4 p.cores ++ listOctets (fun w => le 2 w.1 ++ le 2 w.2) p.windows
    ++ le 2 p.inflight ++ le 1 p.weight ++ le 2 p.errLimit ++ le 1 p.irqCore ++ le 1 p.irqFile

end Sys2Proof.Machine
end

