-- ==== Sys2Proof/Machine/Patchaif.lean ====
section
/-! DEFINITION. What every Patchaif command shares (R437 to R456): sessions, replies, the order of checks before a command acts,
long commands, and the packing of replies. -/
namespace Sys2Proof.Machine

/-! ### Status codes (R456) -/

/-- OK. -/
def stOk : Nat := 0x0000
/-- ACCEPTED. -/
def stAccepted : Nat := 0x0001
/-- BAD_PARAM. -/
def stBadParam : Nat := 0x0202
/-- NOT_PERMITTED. -/
def stNotPermitted : Nat := 0x0204
/-- UNSUPPORTED. -/
def stUnsupported : Nat := 0x0205
/-- UNSUPPORTED_ALG. -/
def stUnsupportedAlg : Nat := 0x0206
/-- DISABLED. -/
def stDisabled : Nat := 0x0207
/-- WRONG_STATE. -/
def stWrongState : Nat := 0x0301
/-- BUSY. -/
def stBusy : Nat := 0x0302
/-- ABORTED. -/
def stAborted : Nat := 0x0303
/-- CANCELLED. -/
def stCancelled : Nat := 0x0304
/-- SLOT_FAULT. -/
def stSlotFault : Nat := 0x0305
/-- LOCKED. -/
def stLocked : Nat := 0x0306
/-- NO_RESOURCES. -/
def stNoResources : Nat := 0x0401
/-- CAPACITY. -/
def stCapacity : Nat := 0x0402
/-- CONSISTENCY. -/
def stConsistency : Nat := 0x0403
/-- SIGNATURE. -/
def stSignature : Nat := 0x0404
/-- FORMAT. -/
def stFormat : Nat := 0x0405
/-- ROOT_FAIL. -/
def stRootFail : Nat := 0x0501
/-- DESTROYED. -/
def stDestroyed : Nat := 0x0502
/-- FUSE_FAIL. -/
def stFuseFail : Nat := 0x0503
/-- TOKEN_REJECTED. -/
def stTokenRejected : Nat := 0x0504

/-- INTERNAL. -/
def stInternal : Nat := 0x0601

/-- The status that a block RESULT code names (R456). -/
def resultStatus : Nat → Nat
  | 0 => stOk
  | 1 => stBadParam
  | 2 => stNotPermitted
  | 3 => stWrongState
  | 4 => stCapacity
  | 5 => stConsistency
  | 6 => stWrongState
  | _ => stLocked

/-! ### Sessions and replies (R438 to R443) -/

/-- A session. -/
def State.session (s : State) (n : Nat) : Session := Tbl.get {} n s.tmc.sess
/-- The state with a session changed. -/
def State.modSess (s : State) (n : Nat) (f : Session → Session) : State :=
  { s with tmc := { s.tmc with sess := Tbl.mod {} n f s.tmc.sess } }
/-- The slice whose rights a session has (R441, R444). -/
def sessSlice (n : Nat) : Nat := if n < 128 then n else 0
/-- First octet of a mailbox's registers (R439). -/
def mbxBase (n : Nat) : Nat := sliceBase + n * 0x10000 + 0x8000

/-- A reply packet (R437, R438). -/
def replyPacket (op tag slice flags status : Nat) (params : Octets) : Octets :=
  let h := le 2 0x5046 ++ le 2 0x0001 ++ le 2 op ++ le 2 tag ++ le 1 slice ++ le 1 flags ++ le 2 status
    ++ le 4 params.length ++ params
  h ++ le 4 (crc32c h)

/-- Whether a waiting reply is formed. -/
def Reply.ready (r : Reply) : Bool := !r.octets.isEmpty

/-- The next reply of a mailbox is posted when none is and it is formed (R440, R451). -/
def State.postReply (s : State) (n : Nat) : State :=
  let x := s.session n
  match x.posted, x.replies with
  | none, r :: rest =>
    if !r.ready then s.setF (F.TMC_MBX_STATUS_QUEUED.pg n) (rest.filter Reply.ready).length
    else
      let s := s.modSess n (fun x => { x with posted := some r, replies := rest })
      let s := (s.wrOctets (mbxBase n + 0x4000) r.octets).setF (F.TMC_MBX_STATUS_REPLY_LEN.pg n) r.octets.length
      let s := (s.setF (F.TMC_MBX_STATUS_REPLY_READY.pg n) 1).setF (F.TMC_MBX_STATUS_QUEUED.pg n) (rest.filter Reply.ready).length
      s.event n 0x0201 r.tag r.status 0
  | _, l => s.setF (F.TMC_MBX_STATUS_QUEUED.pg n) (l.filter Reply.ready).length

/-- The waiting replies of a session change: a mailbox posts the next, a TLS session sends the formed ones at the front, in order
of acceptance (R440, R451). A closed TLS session has none (R454). -/
def State.putReplies (s : State) (n : Nat) (f : List Reply → List Reply) : State :=
  if n < 128 then (s.modSess n (fun x => { x with replies := f x.replies })).postReply n
  else if (s.session n).opened then
    s.modSess n (fun x =>
      { x with sent := x.sent ++ (f x.replies).takeWhile Reply.ready, replies := (f x.replies).dropWhile Reply.ready })
  else s

/-- A reply in the place kept for its tag, else behind all others. -/
def fillReply (r : Reply) (l : List Reply) : List Reply :=
  if l.any (fun p => !p.ready && p.tag == r.tag) then l.map (fun p => if !p.ready && p.tag == r.tag then r else p) else l ++ [r]

/-- A packet accepted: its tag is outstanding and its reply has its place (R449, R451). -/
def State.accept (s : State) (n tag : Nat) : State :=
  s.modSess n (fun x => { x with
    tags := tag :: x.tags.filter (fun t => t != tag)
    replies := if n < 128 || x.opened then x.replies ++ [⟨tag, 0, []⟩] else x.replies })

/-- A reply to a request; the final one of its tag ends it (R449). Where `deliver` is false nothing is delivered, and the tag may be
another command's by now (R441, R454). -/
def State.answer (s : State) (q : Req) (op flags status : Nat) (params : Octets) (final deliver : Bool) : State :=
  if !deliver then s
  else
    let s := if final then s.modSess q.sess (fun x => { x with tags := x.tags.filter (fun t => t != q.tag) }) else s
    s.putReplies q.sess (fillReply ⟨q.tag, status, replyPacket op q.tag (sessSlice q.sess) flags status params⟩)

/-- The detail of a failure (R449). -/
def detail (page check item : Nat) : Octets := le 1 page ++ le 1 0 ++ le 2 check ++ le 4 item

/-! ### Commands (R451, R452) -/

/-- How a command answers: at once with parameters, with a failure and its detail, with a failure that has an effect of its own,
ACCEPTED as a long command over an object that uses transfer objects, or later. -/
inductive Ans
  | done (params : Octets)
  | fail (status page check item : Nat)
  | failWith (status page check item : Nat)
  | accepted (obj : Nat) (held : List Nat)
  | later
  deriving DecidableEq, Repr

/-- The group of an opcode. -/
def opGroup (op : Nat) : Nat := op / 256

/-- Whether a long command of a group runs (R452). -/
def State.groupBusy (s : State) (g : Nat) : Bool := s.tmc.jobs.any (fun j => j.group == g)

/-- The parameters in the request area of the Dome mailbox that an offset and a length name, none beyond 0x7FFF (R433). -/
def State.boxed (s : State) (b : Nat × Nat) : Option Octets :=
  if b.1 + b.2 ≤ 0x8000 then some (memTake s.mem b.2 (domeBase + b.1)) else none

/-- Whether it is a command's turn: from PREPARE on (R491), and where packets wait, only for the command of the oldest, which has its
session, tag, opcode and parameters (R447, R451). With none waiting the command is accepted as it comes; parameters that it names in
the Dome mailbox are the octets there (R433). -/
def State.inTurn (s : State) (q : Req) (op : Nat) (ps : Octets) : Bool :=
  s.sup.coresUp && (match s.tmc.taken with
    | [] => (match q.box with
      | none => true
      | some b => (s.boxed b).isNone || s.boxed b == some ps)
    | p :: _ => p.sess == q.sess && p.tag == q.tag && p.op == op && p.params == ps && p.box == q.box)

/-- A request taken for execution: the oldest packet leaves the queue, or the command is accepted now. The Bool is whether its
replies are delivered (R441, R454). -/
def State.takeReq (s : State) (q : Req) : Bool × State :=
  match s.tmc.taken with
  | [] => (true, s.accept q.sess q.tag)
  | p :: rest => (p.deliver, { s with tmc := { s.tmc with taken := rest } })

/-- The failure that decides a command before its own checks: a bundle commit under way, a tenant without the right (R356), the
Safety group on SK9M-A (R2), a long command of the group under way (R452). -/
def State.refusal (s : State) (q : Req) (op : Nat) (long tenant : Bool) : Option Nat :=
  if s.tmc.jobs.any (fun j => j.op == 0x0112) && !(op == 0x0101 || op == 0x0102 || op == 0x0114) then some stBusy
  else if sessSlice q.sess != 0 && !tenant then some stNotPermitted
  else if opGroup op == 0x0A && op != 0x0A01 && !s.flag F.TMC_MODULE_ID_SAFETY_EN then some stUnsupported
  else if long && s.groupBusy (opGroup op) then some stBusy
  else none

/-- The block page that a group's commands act on (R21), for the detail of a failure. -/
def groupPage : Nat → Nat
  | 0x02 => 0x03
  | 0x03 => 0x05
  | 0x04 => 0x06
  | 0x05 => 0x09
  | 0x06 => 0x0A
  | 0x07 => 0x0B
  | 0x08 => 0x0C
  | 0x09 => 0x0E
  | 0x0A => 0x10
  | 0x0B => 0x12
  | 0x0C => 0x01
  | 0x0D => 0x14
  | _ => 0xFF

/-- Whether a request for a warm reset is ignored: during a cold reset and a start-up that follows one (R487). -/
def State.warmIgnored (s : State) : Bool :=
  s.sup.inCold || (!s.sup.warmFrom && decide (s.get F.TMC_START_STATUS_PHASE < 6))

/-- A Patchaif command with its parameters `ps` in its turn: the shared checks, then its own; a plain failure changes nothing but the reply. `tenant` is
whether the issuing tenant has the right to it. Out of its turn it is no command yet, and nothing happens. -/
def State.patchaif (s : State) (q : Req) (op : Nat) (ps : Octets) (long tenant : Bool) (act : State → Ans × State) : Result :=
  if !s.inTurn q op ps then .next s
  else
  let t := s.takeReq q
  match t.2.refusal q op long tenant with
  | some st => .next (t.2.answer q op 1 st (detail (groupPage (opGroup op)) 0 0) true t.1)
  | none =>
    let r := act t.2
    match r.1 with
    | .done ps => .next (r.2.answer q op 1 stOk ps true t.1)
    | .fail st page check item => .next (t.2.answer q op 1 st (detail page check item) true t.1)
    | .failWith st page check item => .next (r.2.answer q op 1 st (detail page check item) true t.1)
    | .accepted obj held =>
      let j : Job := { group := opGroup op, op, q, start := s.now, obj, deliver := t.1, held }
      .next (({ r.2 with tmc := { r.2.tmc with jobs := r.2.tmc.jobs ++ [j] } }).answer q op 1 stAccepted [] false t.1)
    | .later => .next r.2

/-- The replies of a session's commands, taken or running, are delivered no more (R441, R454). -/
def State.undeliver (s : State) (n : Nat) : State :=
  { s with tmc := { s.tmc with
      jobs := s.tmc.jobs.map (fun j => if j.q.sess = n then { j with deliver := false } else j)
      taken := s.tmc.taken.map (fun p => if p.sess = n then { p with deliver := false } else p) } }

/-- The COMPLETION of a long command (R452). -/
def State.complete (s : State) (j : Job) (status : Nat) (params : Octets) : State :=
  ({ s with tmc := { s.tmc with jobs := s.tmc.jobs.filter (fun k => !(k.group == j.group)) } }).answer j.q j.op 3 status params
    true j.deliver

/-! ### Packing (R447) -/

/-- The word of a register from its fields. -/
def State.regWord (s : State) (fs : List Field) : Nat := sumN (fs.map (fun f => s.get f * 2 ^ f.lo))

/-- A register in a reply: its fields at its width in octets. -/
def State.regOctets (s : State) (bytes : Nat) (fs : List Field) : Octets := le bytes (s.regWord fs)

/-- A run of counters in a reply, with or without clearing them. -/
def State.cntOctets (s : State) (f : Field) (lo n : Nat) : Octets :=
  (List.range n).flatMap (fun i => le 8 (s.get (f.nth (lo + i))))

/-- Counters back at zero. -/
def State.clearCnt (s : State) (f : Field) (lo n : Nat) (clear : Bool) : State :=
  if clear then forN n (fun s i => s.setF (f.nth (lo + i)) 0) s else s

/-! ### Buffers (R448) -/

/-- A transfer object. -/
def State.xferOf (s : State) (h : Nat) : Option Xfer := (s.tmc.xfer.find? (fun p => p.1 == h)).map Prod.snd

/-- Whether a buffer reference is one the session may use. -/
def State.bufOk (s : State) (q : Req) (b : BufRef) : Bool :=
  if b.dram then decide (q.sess < 128) && s.dramOwned (sessSlice q.sess) b.addr b.len
  else match s.xferOf b.addr with
    | some x => decide (b.len ≤ x.size)
    | none => false

/-- The octets that a buffer reference names. -/
def State.bufRead (s : State) (b : BufRef) : Octets :=
  if b.dram then memTake s.mem b.len b.addr
  else match s.xferOf b.addr with
    | some x => (List.range b.len).map (fun i => BitVec.ofNat 8 (Tbl.get 0 i x.data))
    | none => []

/-- The transfer objects that buffer references name. -/
def heldBy (l : List BufRef) : List Nat := (l.filter (fun b => !b.dram)).map (fun b => b.addr)

/-- Octets written into a transfer object. -/
def Xfer.write (x : Xfer) (off : Nat) (o : Octets) : Xfer :=
  { x with data := o.zipIdx.foldl (fun t p => Tbl.set 0 (off + p.2) p.1.toNat t) x.data }

/-- Octets written through a buffer reference. -/
def State.bufWrite (s : State) (b : BufRef) (o : Octets) : State :=
  if b.dram then s.wrOctets b.addr (o.take b.len)
  else match s.xferOf b.addr with
    | some x => { s with tmc := { s.tmc with xfer := Tbl.put b.addr (x.write 0 (o.take b.len)) s.tmc.xfer } }
    | none => s

end Sys2Proof.Machine
end

