-- ==== Sys2Proof/Machine/Float.lean ====
section
/-! DEFINITION. IEEE 754 binary32 and binary64 arithmetic on bit patterns with round to nearest, ties to even (R202), and
fixed-point π, sin, cos and atan for the correctly rounded functions and the exact tables (R165, R172, R204, R208). -/
namespace Sys2Proof.Machine

/-- A binary format: precision in bits, exponent width. -/
structure Fmt where
  p : Nat
  ew : Nat
  deriving DecidableEq, Repr

/-- binary32. -/
def fmt32 : Fmt := ⟨24, 8⟩
/-- binary64. -/
def fmt64 : Fmt := ⟨53, 11⟩

/-- The exponent bias of a format. -/
def Fmt.bias (f : Fmt) : Nat := 2 ^ (f.ew - 1) - 1
/-- The all-ones exponent field. -/
def Fmt.emax (f : Fmt) : Nat := 2 ^ f.ew - 1
/-- The sign bit of a pattern. -/
def Fmt.signBit (f : Fmt) (neg : Bool) : Nat := b2n neg * 2 ^ (f.p - 1 + f.ew)
/-- Infinity of a sign. -/
def Fmt.inf (f : Fmt) (neg : Bool) : Nat := f.signBit neg + f.emax * 2 ^ (f.p - 1)
/-- The NaN that an invalid operation delivers: its sign and payload are free values (IEEE 754 leaves them open). -/
def Fmt.nan (f : Fmt) : Nat :=
  f.signBit (Config.nanBits % 2 == 1) + f.emax * 2 ^ (f.p - 1) + 1 + Config.nanBits / 2 % (2 ^ (f.p - 1) - 1)

/-- A decoded value: not a number, infinite, or the exact dyadic m × 2^e with a sign. -/
inductive Fp
  | nan
  | inf (neg : Bool)
  | fin (neg : Bool) (m : Nat) (e : Int)
  deriving DecidableEq, Repr

/-- The value of a bit pattern. -/
def Fmt.dec (f : Fmt) (b : Nat) : Fp :=
  let neg := bit (f.p - 1 + f.ew) b
  let ex := b / 2 ^ (f.p - 1) % 2 ^ f.ew
  let fr := b % 2 ^ (f.p - 1)
  if ex = f.emax then (if fr = 0 then .inf neg else .nan)
  else if ex = 0 then .fin neg fr (1 - (f.bias : Int) - (f.p - 1 : Nat))
  else .fin neg (fr + 2 ^ (f.p - 1)) ((ex : Int) - f.bias - (f.p - 1 : Nat))

/-- ⌊log2 (n/d)⌋ of a positive rational. -/
def log2Rat (n d : Nat) : Int :=
  let g : Int := (Nat.log2 n : Int) - Nat.log2 d
  let lt := if 0 ≤ g then decide (n < d * 2 ^ g.toNat) else decide (n * 2 ^ (-g).toNat < d)
  if lt then g - 1 else g

/-- Division rounded to nearest, ties to even. -/
def divEven (n d : Nat) : Nat :=
  let q := n / d
  let r := n % d
  if 2 * r < d then q else if d < 2 * r then q + 1 else if q % 2 = 0 then q else q + 1

/-- The positive rational n/d rounded into a format, sign given; 0 stays a signed zero. -/
def Fmt.round (f : Fmt) (neg : Bool) (n d : Nat) : Nat :=
  if n = 0 then f.signBit neg
  else
    let qe : Int := max (log2Rat n d - (f.p - 1 : Nat)) (1 - (f.bias : Int) - (f.p - 1 : Nat))
    let m := if 0 ≤ qe then divEven n (d * 2 ^ qe.toNat) else divEven (n * 2 ^ (-qe).toNat) d
    let field : Int := qe + (f.p - 1 : Nat) + f.bias
    let body := if m < 2 ^ (f.p - 1) then m else field.toNat * 2 ^ (f.p - 1) + (m - 2 ^ (f.p - 1))
    if f.emax * 2 ^ (f.p - 1) ≤ body then f.inf neg else f.signBit neg + body

/-- m × 2^e as a fraction. -/
def dyad (m : Nat) (e : Int) : Nat × Nat := if 0 ≤ e then (m * 2 ^ e.toNat, 1) else (m, 2 ^ (-e).toNat)

/-- An integer times 2^e rounded into a format; +0 for 0. -/
def Fmt.ofInt (f : Fmt) (v : Int) (e : Int) : Nat :=
  let x := dyad v.natAbs e
  f.round (decide (v < 0)) x.1 x.2

/-- Sum, rounded. -/
def Fmt.add (f : Fmt) (a b : Nat) : Nat :=
  match f.dec a, f.dec b with
  | .nan, _ => f.nan
  | _, .nan => f.nan
  | .inf x, .inf y => if x = y then f.inf x else f.nan
  | .inf x, _ => f.inf x
  | _, .inf y => f.inf y
  | .fin x m e, .fin y n g =>
    let l := min e g
    let sgn := fun (neg : Bool) (v : Nat) => if neg then -(v : Int) else (v : Int)
    let v := sgn x (m * 2 ^ (e - l).toNat) + sgn y (n * 2 ^ (g - l).toNat)
    if v = 0 then f.signBit (x && y) else f.ofInt v l

/-- Change of sign. -/
def Fmt.neg (f : Fmt) (a : Nat) : Nat :=
  if bit (f.p - 1 + f.ew) a then a - f.signBit true else a + f.signBit true

/-- Difference, rounded. -/
def Fmt.sub (f : Fmt) (a b : Nat) : Nat := f.add a (f.neg b)

/-- Magnitude. -/
def Fmt.abs (f : Fmt) (a : Nat) : Nat := a % 2 ^ (f.p - 1 + f.ew)

/-- Product, rounded. -/
def Fmt.mul (f : Fmt) (a b : Nat) : Nat :=
  match f.dec a, f.dec b with
  | .nan, _ => f.nan
  | _, .nan => f.nan
  | .inf x, .inf y => f.inf (xor x y)
  | .inf x, .fin y n _ => if n = 0 then f.nan else f.inf (xor x y)
  | .fin x m _, .inf y => if m = 0 then f.nan else f.inf (xor x y)
  | .fin x m e, .fin y n g =>
    let d := dyad (m * n) (e + g)
    f.round (xor x y) d.1 d.2

/-- Quotient, rounded. -/
def Fmt.div (f : Fmt) (a b : Nat) : Nat :=
  match f.dec a, f.dec b with
  | .nan, _ => f.nan
  | _, .nan => f.nan
  | .inf _, .inf _ => f.nan
  | .inf x, .fin y _ _ => f.inf (xor x y)
  | .fin x _ _, .inf y => f.signBit (xor x y)
  | .fin x m e, .fin y n g =>
    if n = 0 then (if m = 0 then f.nan else f.inf (xor x y))
    else
      let d := dyad m (e - g)
      f.round (xor x y) d.1 (d.2 * n)

/-- One bit of an integer square root. -/
def isqrtGo : Nat → Nat → Nat → Nat
  | 0, r, _ => r
  | b + 1, r, n => if (r + 2 ^ b) ^ 2 ≤ n then isqrtGo b (r + 2 ^ b) n else isqrtGo b r n

/-- The integer square root. -/
def isqrt (n : Nat) : Nat := isqrtGo (Nat.log2 n / 2 + 1) 0 n

/-- Square root, correctly rounded (R202): the integer root at ample precision with a sticky bit. -/
def Fmt.sqrt (f : Fmt) (a : Nat) : Nat :=
  match f.dec a with
  | .nan => f.nan
  | .inf neg => if neg then f.nan else f.inf false
  | .fin neg m e =>
    if m = 0 then f.signBit neg
    else if neg then f.nan
    else
      let k := 2 * f.p + 4 + (e % 2).toNat
      let n := m * 2 ^ (k + k % 2 + (e % 2).toNat)
      let sh : Int := (k + k % 2 + (e % 2).toNat : Nat)
      let r := isqrt n
      let r2 := 2 * r + (if r * r = n then 0 else 1)
      let d := dyad r2 ((e - sh) / 2 - 1)
      f.round false d.1 d.2

/-- Strict order; false with a NaN. -/
def Fmt.lt (f : Fmt) (a b : Nat) : Bool :=
  match f.dec a, f.dec b with
  | .nan, _ => false
  | _, .nan => false
  | .inf x, .inf y => x && !y
  | .inf x, .fin .. => x
  | .fin .., .inf y => !y
  | .fin x m e, .fin y n g =>
    let l := min e g
    let sgn := fun (neg : Bool) (v : Nat) => if neg then -(v : Int) else (v : Int)
    decide (sgn x (m * 2 ^ (e - l).toNat) < sgn y (n * 2 ^ (g - l).toNat))

/-- Equality of values; false with a NaN. -/
def Fmt.eq (f : Fmt) (a b : Nat) : Bool :=
  f.dec a != .nan && f.dec b != .nan && !f.lt a b && !f.lt b a

/-- Order; false with a NaN. -/
def Fmt.le (f : Fmt) (a b : Nat) : Bool := f.lt a b || f.eq a b

/-- The pattern of one format rounded into another. -/
def Fmt.conv (f g : Fmt) (a : Nat) : Nat :=
  match f.dec a with
  | .nan => g.nan
  | .inf x => g.inf x
  | .fin x m e => let d := dyad m e; g.round x d.1 d.2

/-- Whether a pattern is finite. -/
def Fmt.finite (f : Fmt) (a : Nat) : Bool := match f.dec a with | .fin .. => true | _ => false

/-! ### Fixed point at 2^-400 -/

/-- One, in units of 2^-400. -/
def fxOne : Int := 2 ^ 400
/-- π in units of 2^-400, rounded down. -/
def fxPi : Int := 8112377246730971238862271351300894519161151600179265203591191037615230905373990498745523360926816815427566779727327576236
/-- Product. -/
def fxMul (a b : Int) : Int := a * b / fxOne
/-- Quotient. -/
def fxDiv (a b : Int) : Int := a * fxOne / b

/-- The Taylor terms of sin or cos from term `t` of degree `k`. -/
def fxSeries : Nat → Int → Int → Int → Int
  | 0, _, _, _ => 0
  | n + 1, t, x2, k => t + fxSeries n (-(fxMul t x2) / ((k + 1) * (k + 2))) x2 (k + 2)

/-- An angle reduced to the period around 0. -/
def fxReduce (x : Int) : Int := x - (2 * x + 2 * fxPi) / (4 * fxPi) * (2 * fxPi)

/-- sin of an angle in units of 2^-400. -/
def fxSin (x : Int) : Int := let y := fxReduce x; fxSeries 80 y (fxMul y y) 1
/-- cos of an angle in units of 2^-400. -/
def fxCos (x : Int) : Int := let y := fxReduce x; fxSeries 80 fxOne (fxMul y y) 0

/-- The series of atan for a small argument: term `p` is x^k, `s` its sign. -/
def fxAtanSeries : Nat → Int → Int → Int → Int
  | 0, _, _, _ => 0
  | n + 1, p, x2, k => p / k + fxAtanSeries n (-(fxMul p x2)) x2 (k + 2)

/-- atan of 0 to 1 by halving the angle `n` times. -/
def fxAtan01 : Nat → Int → Int
  | 0, x => fxAtanSeries 45 x (fxMul x x) 1
  | n + 1, x =>
    let r : Int := isqrt ((fxOne * fxOne + x * x).toNat)
    2 * fxAtan01 n (fxDiv x (fxOne + r))

/-- atan (n / d) for naturals, d positive. -/
def fxAtanRat (n d : Nat) : Int :=
  if n ≤ d then fxAtan01 5 ((n : Int) * fxOne / d) else fxPi / 2 - fxAtan01 5 ((d : Int) * fxOne / n)

/-- A fixed-point value rounded into a format. -/
def Fmt.ofFx (f : Fmt) (x : Int) : Nat := f.ofInt x (-400)

/-- The fixed-point reading of a finite pattern. -/
def Fmt.toFx (f : Fmt) (a : Nat) : Int :=
  match f.dec a with
  | .fin neg m e =>
    let d := dyad m e
    let v : Int := (d.1 * 2 ^ 400 / d.2 : Nat)
    if neg then -v else v
  | _ => 0

/-- sin, correctly rounded; NaN of a non-finite argument; a zero keeps its sign. -/
def Fmt.sin (f : Fmt) (a : Nat) : Nat :=
  match f.dec a with
  | .fin _ m _ => if m = 0 then a else f.ofFx (fxSin (f.toFx a))
  | _ => f.nan

/-- cos, correctly rounded; NaN of a non-finite argument. -/
def Fmt.cos (f : Fmt) (a : Nat) : Nat :=
  match f.dec a with
  | .fin .. => f.ofFx (fxCos (f.toFx a))
  | _ => f.nan

/-- The angle of (x, y) for finite or infinite magnitudes as fractions; `ny`, `nx` the signs. -/
def fxAtan2 (ny nx : Bool) (yn yd xn xd : Nat) : Int :=
  let base := if xn = 0 then (if yn = 0 then 0 else fxPi / 2) else fxAtanRat (yn * xd) (yd * xn)
  let a := if nx then fxPi - base else base
  if ny then -a else a

/-- atan2(y, x), correctly rounded (R202). -/
def Fmt.atan2 (f : Fmt) (y x : Nat) : Nat :=
  match f.dec y, f.dec x with
  | .nan, _ => f.nan
  | _, .nan => f.nan
  | .inf a, .inf b => f.ofFx (fxAtan2 a b 1 1 1 1)
  | .inf a, .fin _ _ _ => f.ofFx (fxAtan2 a false 1 1 0 1)
  | .fin a _ _, .inf b => if b then f.ofFx (fxAtan2 a true 0 1 1 1) else f.signBit a
  | .fin a m e, .fin b n g =>
    if m = 0 ∧ !b then f.signBit a
    else
      let d := dyad m e
      let c := dyad n g
      f.ofFx (fxAtan2 a b d.1 d.2 c.1 c.2)

/-! ### binary32 on F32 -/

/-- binary32 sum. -/
def f32add (a b : F32) : F32 := BitVec.ofNat 32 (fmt32.add a.toNat b.toNat)
/-- binary32 difference. -/
def f32sub (a b : F32) : F32 := BitVec.ofNat 32 (fmt32.sub a.toNat b.toNat)
/-- binary32 product. -/
def f32mul (a b : F32) : F32 := BitVec.ofNat 32 (fmt32.mul a.toNat b.toNat)
/-- binary32 quotient. -/
def f32div (a b : F32) : F32 := BitVec.ofNat 32 (fmt32.div a.toNat b.toNat)
/-- binary32 change of sign. -/
def f32neg (a : F32) : F32 := BitVec.ofNat 32 (fmt32.neg a.toNat)
/-- binary32 magnitude. -/
def f32abs (a : F32) : F32 := BitVec.ofNat 32 (fmt32.abs a.toNat)
/-- binary32 square root. -/
def f32sqrt (a : F32) : F32 := BitVec.ofNat 32 (fmt32.sqrt a.toNat)
/-- binary32 order. -/
def f32lt (a b : F32) : Bool := fmt32.lt a.toNat b.toNat
/-- binary32 order or equality. -/
def f32le (a b : F32) : Bool := fmt32.le a.toNat b.toNat
/-- binary32 atan2. -/
def f32atan2 (y x : F32) : F32 := BitVec.ofNat 32 (fmt32.atan2 y.toNat x.toNat)
/-- A rational constant rounded once to binary32: f32(n/d). -/
def f32rat (n : Int) (d : Nat) : F32 := BitVec.ofNat 32 (fmt32.round (decide (n < 0)) n.natAbs d)
/-- A fixed-point constant rounded once to binary32 (R202, DEDUCED 98): the series is exact to far below 2^-336, so a value under that is an
exact 0. -/
def f32fx (x : Int) : F32 := if x.natAbs < 2 ^ 64 then 0 else BitVec.ofNat 32 (fmt32.ofFx x)
/-- An integer rounded to binary32. -/
def f32int (v : Int) : F32 := f32rat v 1
/-- The greater of two values. -/
def f32max (a b : F32) : F32 := if f32lt a b then b else a

/-- A complex value in binary32. -/
structure C32 where
  re : F32 := 0
  im : F32 := 0
  deriving DecidableEq, Repr

/-- Complex sum. -/
def C32.add (a b : C32) : C32 := ⟨f32add a.re b.re, f32add a.im b.im⟩
/-- Complex difference. -/
def C32.sub (a b : C32) : C32 := ⟨f32sub a.re b.re, f32sub a.im b.im⟩
/-- Complex product (ac − bd) + j(ad + bc), each operation rounded (R202). -/
def C32.mul (x y : C32) : C32 :=
  ⟨f32sub (f32mul x.re y.re) (f32mul x.im y.im), f32add (f32mul x.re y.im) (f32mul x.im y.re)⟩
/-- Conjugate. -/
def C32.conj (x : C32) : C32 := ⟨x.re, f32neg x.im⟩
/-- A complex value times a real one. -/
def C32.scale (x : C32) (k : F32) : C32 := ⟨f32mul x.re k, f32mul x.im k⟩
/-- Magnitude sqrt(re × re + im × im) (R202). -/
def C32.mag (x : C32) : F32 := f32sqrt (f32add (f32mul x.re x.re) (f32mul x.im x.im))

end Sys2Proof.Machine
end

