-- ==== Sys2Proof/Machine/Sample.lean ====
section
/-! DEFINITION. Lattices and Sample Memory (R158 to R197): registers and times of a lattice, feeders, slots with their
sequence counts, sample words, and the values of an instant as they stand. -/
namespace Sys2Proof.Machine

/-- The lattice structure. -/
def State.lattice (s : State) (l : Nat) : Lattice := Tbl.get {} l s.lat
/-- The state with a lattice changed. -/
def State.modLat (s : State) (l : Nat) (f : Lattice → Lattice) : State := { s with lat := Tbl.mod {} l f s.lat }
/-- Rate of a lattice in Hz (R158). -/
def State.latRate (s : State) (l : Nat) : Nat := rateHz (s.get (F.SLE_LAT_CFG_RATE.nth l))
/-- Nominal frequency of a lattice (R198). -/
def State.fNom (s : State) (l : Nat) : Nat := if s.flag (F.SLE_LAT_CFG_F_NOM.nth l) then 60 else 50
/-- The window length W = round(f_lat / F_NOM) (R203). -/
def State.winLen (s : State) (l : Nat) : Nat := (2 * s.latRate l + s.fNom l) / (2 * s.fNom l)
/-- CH_BASE of a lattice. -/
def State.chBase (s : State) (l : Nat) : Nat := s.get (F.SLE_LAT_CHAN_CH_BASE.nth l)
/-- CH_COUNT of a lattice. -/
def State.chCount (s : State) (l : Nat) : Nat := s.get (F.SLE_LAT_CHAN_CH_COUNT.nth l)
/-- SPEC_DEPTH as a count (R198). -/
def State.specDepth (s : State) (l : Nat) : Nat := s.get (F.SLE_LAT_CFG_SPEC_DEPTH.nth l) + 1
/-- Counter `k` of a lattice (R198). -/
def latCnt (l k : Nat) : Field := F.SLE_LAT_CNT_COUNT.nth (16 * l + k)

/-- t_N: the sample time of instant N at a rate, rounded under R15 (R159). -/
def tOf (rate n : Nat) : Time := (2 * n * secUnits + rate) / (2 * rate)
/-- The nominal time of instant N (R160). -/
def State.tNominal (s : State) (l n : Nat) : Time := tOf (s.latRate l) n + us (s.get (F.SLE_LAT_TIME_ALIGN_DELAY.nth l))
/-- The provisional close time (R160). -/
def State.tPclose (s : State) (l n : Nat) : Time := s.tNominal l n + us (s.get (F.SLE_LAT_TIME_PCLOSE.nth l))
/-- The deadline (R160). -/
def State.tDeadline (s : State) (l n : Nat) : Time := s.tNominal l n + us (s.get (F.SLE_LAT_TIME_DEADLINE.nth l))

/-! ### Feeders (R145, R146, R162) -/

/-- The primary that names a context as its alternate. -/
def State.primaryOf (s : State) (c : Nat) : Option Nat :=
  (s.ing.ctx.find? (fun p => cxValid p.2.words && !cxGoose p.2.words && cxAltEn p.2.words && cxAltIdx p.2.words == c
    && p.2.health != hRetiring && p.2.health != hFree)).map Prod.fst

/-- Whether an SV context feeds the lattice now: not RETIRING, the chosen one of a primary and its alternate, and no
alternate left by its primary. -/
def State.feeding (s : State) (c : Nat) : Bool :=
  let x := s.ctx c
  cxValid x.words && !cxGoose x.words && x.health != hFree && x.health != hRetiring &&
    (match s.primaryOf c with
     | some p => (s.ctx p).altFeeds
     | none => !x.altFeeds && !x.orphan)

/-- The channels that a context feeds of a lattice. -/
def State.feedsOf (s : State) (l c : Nat) : List Feed :=
  let w := (s.ctx c).words
  let alt := (s.primaryOf c).isSome
  ((s.cxMap w).zipIdx.filter (fun p => mpValid p.1 && mpLat p.1 == l)).map
    (fun p => ⟨mpChan p.1 - s.chBase l, c, p.2, mpVolt p.1, alt⟩)

/-- Every feeder of a lattice's channels now (R162). -/
def State.feeders (s : State) (l : Nat) : List Feed :=
  (s.ing.ctx.filter (fun p => s.feeding p.1)).flatMap (fun p => s.feedsOf l p.1)

/-- The lattices a context's map names. -/
def State.latsOf (s : State) (c : Nat) : List Nat :=
  (List.range 4).filter (fun l => (s.cxMap (s.ctx c).words).any (fun m => mpValid m && mpLat m == l))

/-! ### Sample Memory (R189 to R197) -/

/-- The address of a word of a line (R189). -/
def lineAddr (line w : Nat) : Nat := smemBase + line * 64 + w * 8

/-- The SMEM region that holds a line. -/
def State.regionOf (s : State) (line : Nat) : Option Nat :=
  (List.range 32).find? (fun r => s.flag (F.SMEM_REGION_VALID.nth r)
    && decide (s.get (F.SMEM_REGION_BASE.nth r) ≤ line)
    && decide (line < s.get (F.SMEM_REGION_BASE.nth r) + s.get (F.SMEM_REGION_SIZE.nth r)))

/-- An engine's write of one word: refused and counted outside its own regions; a write clears an error of the word
(R190, R197). -/
def State.smemWr (s : State) (owner line w v : Nat) : State :=
  match s.regionOf line with
  | some r =>
    if s.get (F.SMEM_REGION_OWNER.nth r) = owner then
      { s.wr64 (lineAddr line w) v with
        hlt := { s.hlt with poisoned := s.hlt.poisoned.filter (fun a => a != lineAddr line w) } }
    else s.bump (F.SMEM_CNT_COUNT.nth 2)
  | none => s.bump (F.SMEM_CNT_COUNT.nth 2)

/-- Words written from a line on, eight to a line. -/
def State.smemWrAll (s : State) (owner line : Nat) (ws : List Nat) : State :=
  ws.zipIdx.foldl (fun s p => s.smemWr owner (line + p.2 / 8) (p.2 % 8) p.1) s

/-- The eight header words of a slot (R192). -/
def headerWords (n t seq nSubst nInvalid tClose tConf istate refutes : Nat) (stalled spec : Bool) : List Nat :=
  [n, t, place 63 32 seq + place 31 16 nSubst + place 15 0 nInvalid, tClose, tConf,
   place 63 62 istate + place 61 58 (min refutes 15) + place 57 57 (b2n stalled) + place 56 56 (b2n spec), 0, 0]

/-- STATE of a value (R181): 0 Provisional, 1 Confirmed, 2 Substituted, 3 Invalid. -/
def LVal.state (v : LVal) (conf : Bool) : Nat :=
  if !conf then 0 else if v.cls = 2 then 3 else if v.pred then 2 else 1

/-- The value of a channel that nobody feeds (R162). -/
def LVal.none (volt : Bool) : LVal := ⟨0, 2, 0, false, false, false, false, false, false, false, false, volt⟩

/-- The sample word of a value (R194); in the confirmed ring UNVER and PRED read 0 and an Invalid VALUE reads 0. -/
def LVal.word (v : LVal) (n : Nat) (conf : Bool) : Nat :=
  place 63 56 n + place 55 48 v.dq + place 47 46 (v.state conf) + place 45 44 v.cls + place 43 43 (b2n v.subst)
    + place 42 42 (b2n v.derived) + place 41 41 (b2n v.test) + place 40 40 (b2n v.coarse) + place 39 39 (b2n v.alt)
    + place 38 38 (b2n (v.unver && !conf)) + place 37 37 (b2n (v.pred && !conf)) + place 36 36 (b2n v.resamp)
    + place 35 35 (b2n v.volt) + (if conf && v.cls == 2 then 0 else unsigned 32 v.v)

/-- The value that a confirmed sample word shows; a word under an uncorrectable error reads CLASS INVALID (R197). -/
def LVal.ofWord (w : Nat) (bad : Bool) : LVal :=
  if bad then LVal.none (bit 35 w)
  else ⟨signed 32 (w % 2 ^ 32), bits 45 44 w, bits 55 48 w, bit 43 w, bit 42 w, bit 41 w, bit 40 w, bit 39 w, false,
    bits 47 46 w == 2, bit 36 w, bit 35 w⟩

/-- Lines of a sample slot (R191). -/
def State.slotLines (s : State) (l : Nat) : Nat := 1 + (s.chCount l + 7) / 8
/-- First line of the confirmed-ring slot of N (R191). -/
def State.confLine (s : State) (l n : Nat) : Nat :=
  s.get (F.SLE_LAT_MEM_CONF_BASE.nth l) + n % max 1 (s.get (F.SLE_LAT_MEM_HIST.nth l)) * s.slotLines l
/-- First line of the provisional slot of N (R191). -/
def State.provLine (s : State) (l n : Nat) : Nat :=
  s.get (F.SLE_LAT_PMEM_PROV_BASE.nth l) + n % s.specDepth l * s.slotLines l

/-- The values of an instant in channel order, unfed channels included. -/
def fullVals (count : Nat) (vals : List (Nat × LVal)) : List LVal :=
  (List.range count).map (fun j => match vals.find? (fun p => p.1 == j) with | some p => p.2 | none => LVal.none false)

/-- The SLE writes a slot of an instant in a state, 1 PROVISIONAL, 2 CONFIRMED, 3 refuted: SEQ moves to the next even value (R193),
the header and every sample word. -/
def State.writeSlotAs (s : State) (l : Nat) (i : Instant) (istate : Nat) : State :=
  let conf := istate == 2
  let line := if conf then s.confLine l i.n else s.provLine l i.n
  let seq := Tbl.get 0 line (s.lattice l).seqs + 2
  let vs := fullVals (s.chCount l) i.vals
  let ns := (vs.filter (fun v => if conf then v.state true == 2 else v.pred)).length
  let ni := (vs.filter (fun v => v.cls == 2)).length
  let hdr := headerWords i.n (Time.gt64 (tOf (s.latRate l) i.n)) seq ns ni i.tClose (if conf then s.gt64 else 0)
    istate i.refutes i.stalled i.spec
  let s := s.modLat l (fun x => { x with seqs := Tbl.set 0 line (seq % 2 ^ 32) x.seqs })
  s.smemWrAll 1 line (hdr ++ vs.map (fun v => v.word i.n conf))

/-- The SLE writes a slot of the confirmed ring or of the provisional area. -/
def State.writeSlot (s : State) (l : Nat) (i : Instant) (conf : Bool) : State := s.writeSlotAs l i (if conf then 2 else 1)

/-- The confirmed value of channel offset `j` at N as the ring holds it; Invalid below N0 (R494). -/
def State.confVal (s : State) (l n j : Nat) : LVal :=
  let x := s.lattice l
  if n < x.n0 ∨ x.conf < n then LVal.none false
  else
    let a := lineAddr (s.confLine l n + 1 + j / 8) (j % 8)
    LVal.ofWord (s.rd64 a) (s.hlt.poisoned.contains a)

/-- The value of channel offset `j` at a closed instant N as it stands: of an unconfirmed instant its own, else the
confirmed ring's (R172). -/
def State.valAt (s : State) (l n j : Nat) : LVal :=
  match (s.lattice l).insts.find? (fun i => i.n == n) with
  | some i => (match i.vals.find? (fun p => p.1 == j) with | some p => p.2 | none => LVal.none false)
  | none => s.confVal l n j

end Sys2Proof.Machine
end

