-- ==== Sys2Proof/Machine/Phasor.lean ====
section
/-! DEFINITION. The Phasor Engine (R202 to R221): running sums, off-nominal correction, derived records, result areas,
folds and rollback. -/
namespace Sys2Proof.Machine

/-! ### Tables (R233): by 8192 × table + index -/

/-- The words of a PHE table entry: 0 channel, 1 harmonic set, 2 phase set, 3 zone, 4 term, 5 loop, 6 group. -/
def State.pheEnt (s : State) (t i : Nat) : List Nat := Tbl.get [] (8192 * t + i) s.phe.tab
/-- The entries of one PHE table, with their indices. -/
def State.pheAll (s : State) (t : Nat) : List (Nat × List Nat) :=
  (s.phe.tab.filter (fun p => p.1 / 8192 = t)).map (fun p => (p.1 % 8192, p.2))
/-- EN of a channel entry. -/
def pcEn (w : List Nat) : Bool := wbit w 0 63
/-- GROUP of a channel entry, none without GROUP_EN. -/
def pcGroup (w : List Nat) : Option Nat := if wbit w 0 56 then some (wbits w 0 62 57) else none
/-- HSET of a channel entry. -/
def pcHset (w : List Nat) : Nat := wbits w 0 55 52
/-- The orders of a harmonic set, in slot order, unused ones 0. -/
def hsOrders (w : List Nat) : List Nat := [wbits w 0 63 59, wbits w 0 58 54, wbits w 0 53 49, wbits w 0 48 44]
/-- The three channels of a phase set. -/
def psChans (w : List Nat) : List Nat := [wbits w 0 60 48, wbits w 0 44 32, wbits w 0 28 16]
/-- Terms of a zone. -/
def znTerms (w : List Nat) : Nat := wbits w 0 59 55 + 1
/-- HORD of a zone. -/
def znHord (w : List Nat) : Nat := wbits w 0 54 50
/-- The term entries of a zone, in order. -/
def State.zoneTerms (s : State) (w : List Nat) : List (List Nat) :=
  (List.range (znTerms w)).map (fun j => s.pheEnt 4 (wbits w 0 49 37 + j))
/-- The channels that a term reads. -/
def State.termChans (s : State) (t : List Nat) : List Nat :=
  if wbit t 0 63 then psChans (s.pheEnt 2 (wbits t 0 56 44)) else [wbits t 0 56 44]
/-- The harmonic orders of a channel. -/
def State.ordersOf (s : State) (c : Nat) : List Nat :=
  let h := pcHset (s.pheEnt 0 c)
  if h = 0 then [] else hsOrders (s.pheEnt 1 h)
/-- Whether a global channel lies in a lattice's range. -/
def State.inLat (s : State) (l c : Nat) : Bool := decide (s.chBase l ≤ c) && decide (c < s.chBase l + s.chCount l)
/-- The phase sets of a lattice. -/
def State.setsOf (s : State) (l : Nat) : List (Nat × List Nat) :=
  (s.pheAll 2).filter (fun p => wbit p.2 0 63 && s.inLat l ((psChans p.2).headD 0))
/-- The zones of a lattice. -/
def State.zonesOf (s : State) (l : Nat) : List (Nat × List Nat) :=
  (s.pheAll 3).filter (fun p => wbit p.2 0 63 && ((s.zoneTerms p.2).head?.map (fun t => s.inLat l ((s.termChans t).headD 0))).getD false)
/-- The loops of a lattice. -/
def State.loopsOf (s : State) (l : Nat) : List (Nat × List Nat) :=
  (s.pheAll 5).filter (fun p => wbit p.2 0 63 && s.inLat l ((psChans (s.pheEnt 2 (wbits p.2 0 59 49))).headD 0))
/-- The frequency groups of a lattice. -/
def State.groupsOf (s : State) (l : Nat) : List (Nat × List Nat) :=
  (s.pheAll 6).filter (fun p => wbit p.2 0 63 && wbits p.2 0 62 61 == l)
/-- The channels of a lattice with a harmonic set, in channel order. -/
def State.harmChans (s : State) (l : Nat) : List Nat :=
  ((List.range (s.chCount l)).map (· + s.chBase l)).filter (fun c => pcHset (s.pheEnt 0 c) != 0)

/-! ### Sums and phasors (R204, R205) -/

/-- The angle 2π m / w in fixed point. -/
def turn (m w : Nat) : Int := 2 * fxPi * m / w
/-- tw_re(m) and tw_im(m): exact values rounded once, ties away from zero (R204). -/
def twiddle (m w : Nat) : Int × Int :=
  (divAway (2 ^ 30 * fxCos (turn (m % w) w)) (2 ^ 400), divAway (-(2 ^ 30) * fxSin (turn (m % w) w)) (2 ^ 400))

/-- The value of a channel as it enters the sums: INVALID enters as 0 (R213). -/
def LVal.entering (v : LVal) : Int := if v.cls = 2 then 0 else v.v

/-- The raw phasor of a bin (R205). -/
def rawPhasor (sum : Sum) (m w : Nat) (volt : Bool) : C32 :=
  let cw := f32rat 2 ((if volt then 100 else 1000) * w * 2 ^ 30)
  let rot : C32 := ⟨f32fx (fxCos (turn m w)), f32fx (fxSin (turn m w))⟩
  ((⟨f32int sum.re, f32int sum.im⟩ : C32).mul rot).scale cw

/-- rms over the window (R205). -/
def rmsOf (sq : Int) (w : Nat) (volt : Bool) : F32 :=
  f32sqrt (f32mul (f32int sq) (f32rat 1 ((if volt then 10000 else 1000000) * w)))

/-! ### Off-nominal correction (R208) -/

/-- d(a) = sin(a w / 2) / (w sin(a / 2)) in binary64, d(0) = 1. -/
def dirichlet (a w : Nat) : Nat :=
  if fmt64.eq a 0 then fmt64.round false 1 1
  else
    let two := fmt64.round false 2 1
    let wf := fmt64.round false w 1
    fmt64.div (fmt64.sin (fmt64.div (fmt64.mul a wf) two)) (fmt64.mul wf (fmt64.sin (fmt64.div a two)))

/-- k1 and k2 of a bin at a frequency given as binary32, and whether the correction is left out (R208). -/
def corrCoefs (f : F32) (h w rate : Nat) : C32 × C32 × Bool :=
  let one : C32 := ⟨f32rat 1 1, 0⟩
  let i := fun (n : Nat) => fmt64.round false n 1
  let fw := fmt64.mul (fmt32.conv fmt64 f.toNat) (i w)
  let tp := fmt64.mul (fmt64.ofFx (2 * fxPi)) (i h)
  let den := fmt64.mul (i rate) (i w)
  let am := fmt64.div (fmt64.mul tp (fmt64.sub fw (i rate))) den
  let ap := fmt64.div (fmt64.mul tp (fmt64.add fw (i rate))) den
  if fmt64.eq am 0 then (one, ⟨0, 0⟩, false)
  else
    let dm := dirichlet am w
    let dp := dirichlet ap w
    let dd := fmt64.sub (fmt64.mul dm dm) (fmt64.mul dp dp)
    let u := fmt64.round false (w - 1) 2
    let cvt := fun (x : Nat) => BitVec.ofNat 32 (fmt64.conv fmt32 x)
    let tm := fmt64.mul am u
    let tq := fmt64.mul ap u
    let k1 : C32 := ⟨cvt (fmt64.div (fmt64.mul dm (fmt64.cos tm)) dd), cvt (fmt64.div (fmt64.mul dm (fmt64.sin tm)) dd)⟩
    let nd := fmt64.neg dp
    let k2 : C32 := ⟨cvt (fmt64.div (fmt64.mul nd (fmt64.cos tq)) dd), cvt (fmt64.div (fmt64.mul nd (fmt64.sin tq)) dd)⟩
    let fin := fun (x : F32) => fmt32.finite x.toNat
    if fmt64.lt (fmt64.abs dd) (fmt64.round false 1 1024) || !(fin k1.re && fin k1.im && fin k2.re && fin k2.im)
    then (one, ⟨0, 0⟩, true) else (k1, k2, false)

/-- f32(1/sqrt(2)). -/
def f32invSqrt2 : F32 := f32fx (isqrt (2 ^ 799) : Nat)

/-- x_h = (k1 z + k2 conj z) f32(1/sqrt 2). -/
def corrected (k : C32 × C32 × Bool) (z : C32) : C32 :=
  ((k.1.mul z).add (k.2.1.mul z.conj)).scale f32invSqrt2

/-! ### One instant -/

/-- The corrected phasors of one channel: x_1 first, then one per order slot (0 where unused), with rms. -/
structure ChanX where
  x1 : C32 := {}
  xh : List (Nat × C32) := []
  rms : F32 := 0
  r : Rec := {}
  deriving DecidableEq, Repr

/-- The frequency that corrects a channel at this instant: its group's f_g(N − 1), else F_NOM (R210). A group of another lattice,
which the rule gives a channel none of, corrects it with F_NOM (DESIGN CHOICE, log 282). -/
def State.corrFreq (s : State) (l : Nat) (p : PheLat) (c : Nat) : F32 :=
  match pcGroup (s.pheEnt 0 c) with
  | some g => (Tbl.get ({ f := f32rat (s.fNom l) 1 } : Group) g p.groups).f
  | none => f32rat (s.fNom l) 1

/-- The sums of a lattice after the values of an instant (R204). -/
def State.sumStep (s : State) (l n : Nat) (vals : List (Nat × LVal)) (p : PheLat) : PheLat :=
  let w := s.winLen l
  let p := { p with count := p.count + 1 }
  vals.foldl (fun p v =>
    let c := s.chBase l + v.1
    if !pcEn (s.pheEnt 0 c) then p
    else
      let xn := v.2.entering
      let xo := if w ≤ n then (s.confVal l (n - w) v.1).entering else 0
      let sums := (1 :: (s.ordersOf c).filter (fun h => h != 0)).foldl (fun t h =>
        let tw := twiddle (h * n % w) w
        Tbl.mod {} (32 * c + h) (fun x : Sum => ⟨x.re + (xn - xo) * tw.1, x.im + (xn - xo) * tw.2⟩) t) p.sums
      { p with sums := sums, sq := Tbl.mod 0 c (fun q => q + xn ^ 2 - xo ^ 2) p.sq }) p

/-- The values of a channel offset over the window at N, the instant's own first. -/
def State.window (s : State) (l n j : Nat) (v : LVal) : List LVal :=
  v :: (List.range (s.winLen l - 1)).map (fun i => if i + 1 ≤ n then s.valAt l (n - 1 - i) j else LVal.none false)

/-- A channel's phasors, rms and record flags at N (R205, R208, R213), FHOLD apart, and its bin evaluations without correction: each
bin of each channel is one evaluation, though its group computes the coefficients once (R233; DESIGN CHOICE, log 281). -/
def State.chanX (s : State) (l n j : Nat) (v : LVal) (p : PheLat) : ChanX × Nat :=
  let c := s.chBase l + j
  if !pcEn (s.pheEnt 0 c) then ({}, 0)
  else
    let w := s.winLen l
    let f := s.corrFreq l p c
    let bin := fun (h : Nat) =>
      let k := corrCoefs f h w (s.latRate l)
      (corrected k (rawPhasor (Tbl.get {} (32 * c + h) p.sums) (h * n % w) w v.volt), k.2.2)
    let b1 := bin 1
    let bh := ((s.ordersOf c).filter (fun h => h != 0)).map (fun h => (h, bin h))
    let win := s.window l n j v
    let fill := decide (p.count < w)
    let r : Rec := { valid := !fill && win.all (fun x => x.cls != 2), est := win.any (fun x => x.pred)
                     quest := win.any (fun x => x.cls == 1), test := win.any (fun x => x.test), fill := fill, alt := v.alt }
    let rms := rmsOf (Tbl.get 0 c p.sq) w v.volt
    ({ x1 := b1.1, xh := bh.map (fun q => (q.1, q.2.1)), rms := rms
       r := { r with vals := [b1.1.im, b1.1.re, rms] } },
     b2n b1.2 + (bh.filter (fun q => q.2.2)).length)

/-- A phasor of a channel: order 1, or a harmonic. -/
def ChanX.at (x : ChanX) (h : Nat) : C32 :=
  if h ≤ 1 then x.x1 else match x.xh.find? (fun q => q.1 == h) with | some q => q.2 | none => {}

/-- A record whose flags come from the channel records used (R217). -/
def joined (rs : List Rec) (vals : List F32) : Rec :=
  let ok := rs.all (fun r => r.valid)
  { vals, valid := ok, est := rs.any (fun r => r.est), quest := rs.any (fun r => r.quest)
    test := rs.any (fun r => r.test), chansOk := ok }

/-- The three values of one order of a phase set. -/
def setAbc (xs : Tbl ChanX) (w : List Nat) (h : Nat) : List C32 := (psChans w).map (fun c => (Tbl.get {} c xs).at h)

/-- The rotation a of R214. -/
def aRot : C32 := ⟨f32fx (fxCos (turn 1 3)), f32fx (fxSin (turn 1 3))⟩

/-- x0, x1 and x2 of a phase set (R214). -/
def seqComps (abc : List C32) : List C32 :=
  let a := abc.getD 0 {}
  let b := abc.getD 1 {}
  let c := abc.getD 2 {}
  let third := f32rat 1 3
  let a2 := aRot.mul aRot
  [((a.add b).add c).scale third, ((a.add (aRot.mul b)).add (a2.mul c)).scale third,
   ((a.add (a2.mul b)).add (aRot.mul c)).scale third]

/-- coef(vg, d) of R215. -/
def vgCoef (vg d : Nat) : F32 := f32fx (2 * fxCos (2 * fxPi * d / 3 - fxPi * vg / 6) / 3)

/-- A zone term at an order (R215). -/
def State.termVal (s : State) (xs : Tbl ChanX) (t : List Nat) (h : Nat) : C32 :=
  let ratio := BitVec.ofNat 32 (wbits t 0 31 0)
  if wbit t 0 63 then
    let abc := setAbc xs (s.pheEnt 2 (wbits t 0 56 44)) h
    let p := wbits t 0 58 57
    let vg := wbits t 0 62 59
    let x := fun d => (abc.getD ((p + d) % 3) {}).scale (vgCoef vg d)
    (((x 0).add (x 1)).add (x 2)).scale ratio
  else ((Tbl.get {} (wbits t 0 56 44) xs).at h).scale ratio

/-- A sum in order, from the first term on. -/
def cSum : List C32 → C32
  | [] => {}
  | x :: t => t.foldl C32.add x

/-- A sum of values in order, from the first on. -/
def f32Sum : List F32 → F32
  | [] => 0
  | x :: t => t.foldl f32add x

/-- A zone record: I_d, I_r and I_h (R215). -/
def State.zoneRec (s : State) (xs : Tbl ChanX) (w : List Nat) : Rec :=
  let ts := s.zoneTerms w
  let vals := ts.map (fun t => s.termVal xs t 1)
  let mags := vals.map C32.mag
  let id := cSum vals
  let ir := if wbit w 0 60 then mags.foldl f32max 0 else f32mul (f32rat 1 2) (f32Sum mags)
  let ih := if znHord w = 0 then 0 else (cSum (ts.map (fun t => s.termVal xs t (znHord w)))).mag
  joined ((ts.flatMap s.termChans).map (fun c => (Tbl.get {} c xs).r)) [id.re, id.im, ir, ih]

/-- A loop record: R, X, |I| (R216). -/
def State.loopRec (s : State) (xs : Tbl ChanX) (w : List Nat) : Rec :=
  let vw := s.pheEnt 2 (wbits w 0 59 49)
  let iw := s.pheEnt 2 (wbits w 0 48 38)
  let vs := setAbc xs vw 1
  let is := setAbc xs iw 1
  let p := wbits w 0 61 60
  let pp := wbit w 0 62
  let q := (p + 1) % 3
  let g := fun (l : List C32) (i : Nat) => l.getD i {}
  let v := if pp then (g vs p).sub (g vs q) else g vs p
  let k0 : C32 := ⟨BitVec.ofNat 32 (wbits w 1 63 32), BitVec.ofNat 32 (wbits w 1 31 0)⟩
  let i := if pp then (g is p).sub (g is q) else (g is p).add (k0.mul (((g is 0).add (g is 1)).add (g is 2)))
  let im := i.mag
  let used := if pp then [(psChans vw).getD p 0, (psChans vw).getD q 0, (psChans iw).getD p 0, (psChans iw).getD q 0]
    else (psChans vw).getD p 0 :: psChans iw
  let low := !f32le (BitVec.ofNat 32 (wbits w 2 63 32)) im
  let z := if low then ({} : C32)
    else (v.mul i.conj).scale (f32div (f32rat 1 1) (f32add (f32mul i.re i.re) (f32mul i.im i.im)))
  let r := joined (used.map (fun c => (Tbl.get {} c xs).r)) [z.re, z.im, im]
  { r with valid := r.valid && !low, lowi := low }

/-- A group's step at N and its record (R211); the Bool is a rise of FHOLD that counts. The clamp limits 0.8 and 1.2 of F_NOM are
exact reals, each rounded once to binary32 (DEDUCED, log 280). -/
def State.groupStep (s : State) (l : Nat) (xs : Tbl ChanX) (cnt : Nat) (w : List Nat) (g : Group) : Group × Rec × Bool :=
  let win := s.winLen l
  let fn := f32rat (s.fNom l) 1
  let isSet := wbit w 0 60
  let src := wbits w 0 59 47
  let z := if isSet then (seqComps (setAbc xs (s.pheEnt 2 src) 1)).getD 1 {} else (Tbl.get {} src xs).x1
  let used := if isSet then psChans (s.pheEnt 2 src) else [src]
  let zw := g.hist.getD (win - 1) (0, 0)
  let zo : C32 := ⟨zw.1, zw.2⟩
  let vmin := BitVec.ofNat 32 (wbits w 0 31 0)
  let fb := f32rat (s.latRate l) win
  let first := decide (cnt ≤ win)
  let hold := first || f32lt z.mag vmin || f32lt zo.mag vmin
  let f :=
    if first then fn
    else if hold then g.f
    else
      let p := z.mul zo.conj
      let delta := f32atan2 p.im p.re
      let fm := f32mul fb (f32add (f32rat 1 1) (f32div delta (f32fx (2 * fxPi))))
      let f1 := f32add g.f (f32mul (f32sub fm g.f) (f32rat 1 (2 ^ wbits w 0 46 43)))
      let lo := f32rat (8 * s.fNom l) 10
      let hi := f32rat (12 * s.fNom l) 10
      if f32lt f1 lo then lo else if f32lt hi f1 then hi else f1
  let dfdt := f32mul (f32sub f (g.fHist.getD (win - 1) fn)) fb
  let r := joined (used.map (fun c => (Tbl.get {} c xs).r)) [f, dfdt]
  ({ f, hold, hist := ((z.re, z.im) :: g.hist).take win, fHist := (f :: g.fHist).take win, dfdt },
   { r with valid := r.valid && !hold && decide (2 * win ≤ cnt), fhold := hold },
   hold && !g.hold && !first)

/-- Every record of an instant, the state after it, and the counts of NO_CORR, LOWI and GROUP_HOLD (R202 to R217). -/
def State.pheCompute (s : State) (l n : Nat) (vals : List (Nat × LVal)) (p0 : PheLat) : PheOut × PheLat × Nat × Nat × Nat :=
  let vs := (fullVals (s.chCount l) vals).zipIdx.map (fun p => (p.2, p.1))
  let p := s.sumStep l n vs p0
  let cx := vs.map (fun v => (s.chBase l + v.1, s.chanX l n v.1 v.2 p))
  let noCorr := sumN (cx.map (fun q => q.2.2))
  let xs : Tbl ChanX := cx.map (fun q => (q.1, q.2.1))
  let gs := (s.groupsOf l).map (fun q =>
    (q.1, s.groupStep l xs p.count q.2 (Tbl.get { f := f32rat (s.fNom l) 1, hold := true } q.1 p.groups)))
  let p := { p with groups := gs.map (fun q => (q.1, q.2.1)) }
  let hold := fun (c : Nat) => match pcGroup (s.pheEnt 0 c) with
    | some g => (Tbl.get ({} : Group) g p.groups).hold
    | none => false
  let loops := (s.loopsOf l).map (fun q => (q.1, s.loopRec xs q.2))
  ({ chan := xs.map (fun q => (q.1, if pcEn (s.pheEnt 0 q.1) then { q.2.r with fhold := hold q.1 } else {}))
     harm := (s.harmChans l).map (fun c =>
       let x := Tbl.get {} c xs
       (c, { x.r with vals := (s.ordersOf c).map (fun h => if h = 0 then 0 else (x.at h).mag) }))
     sets := (s.setsOf l).map (fun q =>
       (q.1, joined ((psChans q.2).map (fun c => (Tbl.get {} c xs).r))
         ((seqComps (setAbc xs q.2 1)).flatMap (fun x => [x.re, x.im]))))
     zones := (s.zonesOf l).map (fun q => (q.1, s.zoneRec xs q.2))
     loops := loops
     groups := gs.map (fun q => (q.1, q.2.2.1)) },
   p, noCorr, (loops.filter (fun q => q.2.lowi)).length, (gs.filter (fun q => q.2.2.2)).length)

/-! ### Result areas (R218 to R220) -/

/-- Two binary32 values as one word, the first in [31:0]. -/
def pack (lo hi : F32) : Nat := lo.toNat + hi.toNat * 2 ^ 32
/-- Value `i` of a record. -/
def Rec.val (r : Rec) (i : Nat) : F32 := r.vals.getD i 0
/-- TAG and the flag bits of a phasor record. -/
def Rec.flags (r : Rec) (n : Nat) : Nat :=
  place 31 24 n + place 15 15 (b2n r.valid) + place 14 14 (b2n r.est) + place 13 13 (b2n r.quest) + place 12 12 (b2n r.test)

/-- The words of each kind of record (R220). -/
def chanWords (n : Nat) (r : Rec) : List Nat :=
  [pack (r.val 1) (r.val 0),
   place 63 32 (r.val 2).toNat + r.flags n + place 11 11 (b2n r.fill) + place 10 10 (b2n r.fhold) + place 9 9 (b2n r.alt)]
/-- Harmonic record words. -/
def harmWords (r : Rec) : List Nat := [pack (r.val 0) (r.val 1), pack (r.val 2) (r.val 3)]
/-- Phase-set record words. -/
def setWords (n : Nat) (r : Rec) : List Nat := [pack (r.val 0) (r.val 1), pack (r.val 2) (r.val 3), pack (r.val 4) (r.val 5), r.flags n]
/-- Zone record words. -/
def zoneWords (n : Nat) (r : Rec) : List Nat := [pack (r.val 0) (r.val 1), pack (r.val 2) (r.val 3), r.flags n, 0]
/-- Loop record words. -/
def loopWords (n : Nat) (r : Rec) : List Nat :=
  [pack (r.val 0) (r.val 1), place 63 32 (r.val 2).toNat + r.flags n + place 11 11 (b2n r.lowi)]
/-- Group record words. -/
def groupWords (n : Nat) (r : Rec) : List Nat := [pack (r.val 0) (r.val 1), r.flags n + place 10 10 (b2n r.fhold)]

/-- A section padded to whole lines. -/
def padLine (ws : List Nat) : List Nat := ws ++ List.replicate ((8 - ws.length % 8) % 8) 0

/-- First lines of the set, zone, loop and group sections, and the lines of a slot (R219). -/
def State.pheLayout (s : State) (l : Nat) : List Nat :=
  let so := 1 + (s.chCount l + 3) / 4 + ((s.harmChans l).length + 3) / 4
  let zo := so + ((s.setsOf l).length + 1) / 2
  let lo := zo + ((s.zonesOf l).length + 1) / 2
  let go := lo + ((s.loopsOf l).length + 3) / 4
  [so, zo, lo, go, go + ((s.groupsOf l).length + 3) / 4]

/-- The data words of a phasor slot. -/
def PheOut.words (o : PheOut) (n : Nat) : List Nat :=
  padLine (o.chan.flatMap (fun q => chanWords n q.2)) ++ padLine (o.harm.flatMap (fun q => harmWords q.2))
    ++ padLine (o.sets.flatMap (fun q => setWords n q.2)) ++ padLine (o.zones.flatMap (fun q => zoneWords n q.2))
    ++ padLine (o.loops.flatMap (fun q => loopWords n q.2)) ++ padLine (o.groups.flatMap (fun q => groupWords n q.2))

/-- Every record of an instant that has flags. -/
def PheOut.recs (o : PheOut) : List Rec :=
  o.chan.map Prod.snd ++ o.sets.map Prod.snd ++ o.zones.map Prod.snd ++ o.loops.map Prod.snd ++ o.groups.map Prod.snd

/-- The closed instant N of a lattice, confirmed lately or not. -/
def State.instant (s : State) (l n : Nat) : Instant :=
  match ((s.lattice l).insts ++ (s.lattice l).done).find? (fun i => i.n == n) with
  | some i => i
  | none => { n }

/-- A result slot's header with the SLE's values for the instant (R218). -/
def State.resHeader (s : State) (l n seq nSubst nInvalid : Nat) (conf : Bool) : List Nat :=
  let i := s.instant l n
  headerWords n (Time.gt64 (tOf (s.latRate l) n)) seq nSubst nInvalid i.tClose (if conf then i.tConf else 0)
    (if conf then 2 else 1) i.refutes i.stalled i.spec

/-- The Phasor Engine writes the slot of N: provisional, or in the confirmed ring (R218). -/
def State.pheSlot (s : State) (l n : Nat) (o : PheOut) (conf : Bool) : State :=
  let lines := (s.pheLayout l).getD 4 1
  let line := if conf then s.get (F.PHE_LAT_RES_CONF_BASE.nth l) + n % max 1 (s.get (F.PHE_LAT_RES_PHIST.nth l)) * lines
    else s.get (F.PHE_LAT_RES_PROV_BASE.nth l) + n % s.specDepth l * lines
  let seq := Tbl.get 0 line s.phe.seqs + 2
  let rs := o.recs
  let hdr := s.resHeader l n seq (rs.filter (fun r => r.est)).length (rs.filter (fun r => !r.valid)).length conf
  let s := { s with phe := { s.phe with seqs := Tbl.set 0 line (seq % 2 ^ 32) s.phe.seqs } }
  s.smemWrAll 2 line (hdr ++ o.words n)

/-- PHE.GRP_F takes f_g at the newest CONFIRMED instant (R233). -/
def State.grpConf (s : State) (o : PheOut) : State :=
  o.groups.foldl (fun s q => s.setF (F.PHE_GRP_F_F.nth q.1) (q.2.val 0).toNat) s

/-! ### State over an instant, folds, confirm and refute (R206, R207, R218) -/

/-- The Phasor Engine's state of a lattice that starts at N0. -/
def State.pheStart (s : State) (l n0 : Nat) : State :=
  let fn := f32rat (s.fNom l) 1
  let p : PheLat := { groups := (s.groupsOf l).map (fun q => (q.1, { f := fn, hold := true })) }
  let s := { s with phe := { s.phe with
    lats := Tbl.set {} l p s.phe.lats, done := Tbl.set 0 l (n0 - 1) s.phe.done
    saved := (l, n0 - 1, p) :: s.phe.saved.filter (fun x => x.1 != l)
    ins := s.phe.ins.filter (fun x => x.lat != l), outs := s.phe.outs.filter (fun x => x.1 != l)
    folds := s.phe.folds.filter (fun x => x.lat != l) } }
  (s.groupsOf l).foldl (fun s q => s.setF (F.PHE_GRP_F_F.nth q.1) fn.toNat) s

/-- A closed instant's values go to the Phasor Engine. -/
def State.pheFeed (s : State) (l n : Nat) (vals : List (Nat × LVal)) : State :=
  if s.flag F.PHE_CTL_EN then { s with phe := { s.phe with ins := s.phe.ins ++ [⟨l, n, vals⟩] } } else s

/-- The engine computes the next instant of a lattice that waits, saves its state and its records, and writes the slot
(R207, R218). The answer is none where N is not the next one. -/
def State.pheRun (s : State) (l n : Nat) : Option (State × PheOut) :=
  match s.phe.ins.find? (fun x => x.lat == l) with
  | none => none
  | some x =>
    if x.n != n then none
    else
      let r := s.pheCompute l n x.vals (Tbl.get {} l s.phe.lats)
      let conf := decide (n ≤ s.confN l)
      let s := { s with phe := { s.phe with
        lats := Tbl.set {} l r.2.1 s.phe.lats, done := Tbl.set 0 l n s.phe.done
        saved := s.phe.saved ++ [(l, n, r.2.1)]
        ins := s.phe.ins.filter (fun y => !(y.lat == l && y.n == n))
        outs := s.phe.outs ++ [(l, n, r.1)] } }
      let s := s.pheSlot l n r.1 conf
      let s := if conf then s.grpConf r.1 else s
      let s := ((s.bump (F.PHE_CNT_COUNT.nth 0)).bumpBy (F.PHE_CNT_COUNT.nth 5) r.2.2.1)
      let s := (s.bumpBy (F.PHE_CNT_COUNT.nth 3) r.2.2.2.1).bumpBy (F.PHE_CNT_COUNT.nth 4) r.2.2.2.2
      some (s, r.1)

/-- A difference folded into one state's sums (R206). -/
def foldSums (orders : List Nat) (w : Nat) (f : Fold) (p : PheLat) : PheLat :=
  let d := f.new - f.old
  { p with
    sums := (1 :: orders.filter (fun h => h != 0)).foldl (fun t h =>
      let tw := twiddle (h * f.n % w) w
      Tbl.mod {} (32 * f.chan + h) (fun x : Sum => ⟨x.re + d * tw.1, x.im + d * tw.2⟩) t) p.sums
    sq := Tbl.mod 0 f.chan (fun q => q + f.new ^ 2 - f.old ^ 2) p.sq }

/-- A fold applied to the current sums and to every saved state that follows its instant (R206). -/
def State.applyFold (s : State) (f : Fold) : State :=
  let w := s.winLen f.lat
  let os := s.ordersOf f.chan
  let s := if pcEn (s.pheEnt 0 f.chan) then
      { s with phe := { s.phe with
        lats := Tbl.mod {} f.lat (foldSums os w f) s.phe.lats
        saved := s.phe.saved.map (fun x => if x.1 == f.lat && decide (f.n ≤ x.2.1) then (x.1, x.2.1, foldSums os w f x.2.2) else x) } }
    else s
  s.bump (F.PHE_CNT_COUNT.nth 2)

/-- CONFIRMED_SLOT_COPY on CONFIRM for N: the records go to the confirmed ring unchanged; older saved states go (R218). -/
def State.pheConfirm (s : State) (l n : Nat) : State :=
  let s := match s.phe.outs.find? (fun x => x.1 == l && x.2.1 == n) with
    | some x => (s.pheSlot l n x.2.2 true).grpConf x.2.2
    | none => s
  { s with phe := { s.phe with
    saved := s.phe.saved.filter (fun x => x.1 != l || decide (min n (Tbl.get 0 l s.phe.done) ≤ x.2.1))
    outs := s.phe.outs.filter (fun x => x.1 != l || decide (n ≤ x.2.1)) } }

/-- PHE_ROLLBACK on REFUTE for N: the state after N − 1 returns and nothing of N or later remains (R207). -/
def State.pheRefute (s : State) (l n : Nat) : State :=
  let keep := s.phe.saved.filter (fun x => x.1 != l || decide (x.2.1 < n))
  let last := (keep.filter (fun x => x.1 == l)).getLast?
  let s := { s with phe := { s.phe with
    saved := keep
    ins := s.phe.ins.filter (fun x => x.lat != l || decide (x.n < n))
    outs := s.phe.outs.filter (fun x => x.1 != l || decide (x.2.1 < n))
    folds := s.phe.folds.filter (fun x => x.lat != l || decide (x.n < n)) } }
  match last with
  | some x =>
    if s.flag F.PHE_CTL_EN then
      { s with phe := { s.phe with lats := Tbl.set {} l x.2.2 s.phe.lats, done := Tbl.set 0 l x.2.1 s.phe.done } }.bump
        (F.PHE_CNT_COUNT.nth 1)
    else s
  | none => s

end Sys2Proof.Machine
end

