-- ==== Sys2Proof/Machine/Guards.lean ====
section
/-! DEFINITION. The Guard Comparators (R222 to R232): inputs, characteristics, pickup counters, results, rollback and the
current-presence word. -/
namespace Sys2Proof.Machine

/-! ### Configuration (R222, R229, R234) -/

/-- G_BASE of a lattice. -/
def State.gBase (s : State) (l : Nat) : Nat := s.get (F.GCM_LAT_GUARDS_G_BASE.nth l)
/-- G_COUNT of a lattice. -/
def State.gCount (s : State) (l : Nat) : Nat := s.get (F.GCM_LAT_GUARDS_G_COUNT.nth l)
/-- Whether a guard lies in the range of a lattice. -/
def State.inGuards (s : State) (l g : Nat) : Bool := decide (s.gBase l ≤ g) && decide (g < s.gBase l + s.gCount l)
/-- The lattice whose range holds a guard. -/
def State.guardLat (s : State) (g : Nat) : Option Nat := (List.range 4).find? (fun l => s.inGuards l g)
/-- The newest configuration of a guard. -/
def State.gcmEnt (s : State) (g : Nat) : List Nat := ((Tbl.get [] g s.gcm.cfg).headD (0, [])).2
/-- The configuration in force at the first close of instant N, with the instant from which it applies (R30, R229). -/
def State.gcmAt (s : State) (g n : Nat) : Nat × List Nat :=
  ((Tbl.get [] g s.gcm.cfg).find? (fun c => decide (c.1 ≤ n))).getD (0, [])
/-- A configuration written whole before the commit. -/
def State.setGcmEnt (s : State) (g : Nat) (ws : List Nat) : State :=
  { s with gcm := { s.gcm with cfg := Tbl.set [] g [(0, maskWords gcmBits ws)] s.gcm.cfg } }
/-- The newest instant of a lattice below which no evaluation can come any more: it is CONFIRMED, and so are all whose guards
have not been evaluated. -/
def State.gcmFloor (s : State) (l : Nat) : Nat :=
  (s.phe.ins.filter (fun i => i.lat == l)).foldl (fun a i => min a (i.n - 1)) (s.confN l)
/-- A configuration that applies from the lattice's first instant not closed yet; the earlier ones stay for the instants that
closed under them (R30). A guard that is enabled starts from zero state, even when it was disabled since the last close (R229). -/
def State.gcmFrom (s : State) (g : Nat) (ws : List Nat) : State :=
  match s.guardLat g with
  | none => s.setGcmEnt g ws
  | some l =>
    let ws := maskWords gcmBits ws
    let n := (s.lattice l).next
    let all := Tbl.get [] g s.gcm.cfg
    let was := all.headD (0, [])
    let old := all.filter (fun c => c.1 != n)
    let keep := old.filter (fun c => decide (s.gcmFloor l < c.1)) ++ (old.filter (fun c => decide (c.1 ≤ s.gcmFloor l))).take 1
    let fresh := wbit ws 0 63 && (!wbit was.2 0 63 || s.gcm.fresh.contains (g, n))
    { s with gcm := { s.gcm with
        cfg := Tbl.set [] g ((n, ws) :: keep) s.gcm.cfg
        fresh := (if fresh then [(g, n)] else []) ++ s.gcm.fresh.filter (fun x => x.1 != g || keep.any (fun c => c.1 == x.2)) } }
/-- The state in which a guard is evaluated under a configuration: zero where that enabled it (R229). -/
def State.gcmOf (s : State) (g from_ : Nat) : Guard :=
  let x := Tbl.get ({} : Guard) g s.gcm.st
  if s.gcm.fresh.contains (g, from_) && x.cfgN != from_ then { cfgN := from_ } else x

/-- EN of a guard. -/
def gdEn (w : List Nat) : Bool := wbit w 0 63
/-- TYPE: 0 MAG, 1 DIFF, 2 QUAD, 3 MHO, 4 ROC, 5 HRES. -/
def gdType (w : List Nat) : Nat := wbits w 0 62 60
/-- QSRC. -/
def gdSrc (w : List Nat) : Nat := wbits w 0 59 56
/-- SUB. -/
def gdSub (w : List Nat) : Nat := wbits w 0 55 54
/-- QIDX. -/
def gdIdx (w : List Nat) : Nat := wbits w 0 53 41
/-- MODE. -/
def gdMode (w : List Nat) : Nat := wbits w 0 40 39
/-- INV. -/
def gdInv (w : List Nat) : Nat := wbits w 0 38 37
/-- CMODE: true for integrating. -/
def gdCmode (w : List Nat) : Bool := wbit w 0 36
/-- DELAY. -/
def gdDelay (w : List Nat) : Nat := wbits w 0 31 16
/-- DROP. -/
def gdDrop (w : List Nat) : Nat := wbits w 0 15 8
/-- HYS. -/
def gdHys (w : List Nat) : Nat := wbits w 0 7 0
/-- Parameter Pk. -/
def gdP (w : List Nat) (k : Nat) : F32 :=
  BitVec.ofNat 32 (if k % 2 = 0 then wbits w (1 + k / 2) 63 32 else wbits w (1 + k / 2) 31 0)
/-- DEC; 0 is taken as 1. -/
def gdDec (w : List Nat) : Nat := max 1 (wbits w 4 63 56)
/-- ROC_D. -/
def gdRocD (w : List Nat) : Nat := wbits w 4 55 48

/-! ### Inputs (R223) -/

/-- What a guard reads of an instant: the record, the quantity q, the denominator of HRES, and whether it is a loop. -/
structure GIn where
  r : Rec := {}
  q : F32 := 0
  den : F32 := 0
  loop : Bool := false
  deriving DecidableEq, Repr

/-- The magnitude of values `i` and `j` of a record. -/
def Rec.mag (r : Rec) (i j : Nat) : F32 := C32.mag ⟨r.val i, r.val j⟩

/-- The input of a guard from the records of the instant. -/
def guardInput (o : PheOut) (w : List Nat) : GIn :=
  let ch := Tbl.get {} (gdIdx w) o.chan
  let zn := Tbl.get {} (gdIdx w) o.zones
  let lp := Tbl.get {} (gdIdx w) o.loops
  let gr := Tbl.get {} (gdIdx w) o.groups
  let st := Tbl.get {} (gdIdx w) o.sets
  match gdSrc w with
  | 0 => { r := ch, q := ch.mag 1 0 }
  | 1 => { r := ch, q := ch.val 2 }
  | 2 => let h := Tbl.get {} (gdIdx w) o.harm
         { r := h, q := h.val (gdSub w), den := ch.mag 1 0 }
  | 3 => { r := st, q := st.mag (2 * gdSub w) (2 * gdSub w + 1) }
  | 4 => { r := zn, q := zn.mag 0 1 }
  | 5 => { r := zn, q := zn.val 2 }
  | 6 => { r := zn, q := zn.val 3, den := zn.mag 0 1 }
  | 7 => { r := lp, q := lp.mag 0 1, loop := true }
  | 8 => { r := lp, q := lp.val 2, loop := true }
  | 9 => { r := gr, q := gr.val 0 }
  | 10 => { r := gr, q := gr.val 1 }
  | _ => {}

/-- Whether the record makes the input valid: for a loop the channel records decide, whatever LOWI holds (R223). -/
def GIn.valid (i : GIn) : Bool := if i.loop then i.r.chansOk && (i.r.valid || i.r.lowi) else i.r.valid

/-! ### Characteristics (R224, R225) -/

/-- What an evaluation finds: the condition c, Q1, Q2 and UNRES. -/
structure GEval where
  c : Bool := false
  q1 : F32 := 0
  q2 : F32 := 0
  unres : Bool := false
  deriving DecidableEq, Repr

/-- f32 of n / 256. -/
def f32q8 (n : Nat) : F32 := f32rat n 256

/-- The condition of a guard on a valid input; `pu` is PU, `prev` the input ROC_D evaluations ago, `rate` the lattice's rate
in Hz (R224). -/
def guardEval (w : List Nat) (pu : Bool) (i : GIn) (prev : F32) (rate : Nat) : GEval :=
  let h := if pu then gdHys w else 0
  let sc := f32q8 (256 - h)
  let e := f32q8 (256 + h)
  let p := gdP w
  let lowz := i.loop && i.r.lowi && gdSrc w == 7
  let rx : F32 × F32 :=
    if gdMode w = 0 then (i.r.val 0, i.r.val 1) else (f32neg (i.r.val 0), f32neg (i.r.val 1))
  let r := rx.1
  let x := rx.2
  let cut := fun (v : GEval) => { v with c := v.c && !lowz }
  match gdType w with
  | 0 =>
    let th := if gdMode w = 0 then f32mul (p 0) sc else f32mul (p 0) (f32q8 (256 + h))
    cut { c := if gdMode w = 0 then f32lt th i.q else f32lt i.q th, q1 := i.q, q2 := th }
  | 1 =>
    let id := i.r.mag 0 1
    let ir := i.r.val 2
    let un := f32lt 0 (p 4) && f32lt (f32mul (p 4) sc) id
    let lim := if f32le ir (p 3) then f32mul (p 1) ir
      else f32add (f32mul (p 1) (p 3)) (f32mul (p 2) (f32sub ir (p 3)))
    let th := f32mul (f32max (p 0) lim) sc
    { c := un || f32lt th id, q1 := id, q2 := th, unres := un }
  | 2 =>
    cut { c := f32le x (f32sub (f32mul e (p 0)) (f32mul r (p 4))) && f32le (f32neg (f32mul e (p 1))) x
                && f32le (f32sub r (f32mul x (p 5))) (f32mul e (p 2))
                && f32le (f32neg (f32mul e (p 3))) (f32sub r (f32mul x (p 5)))
          q1 := r, q2 := x }
  | 3 =>
    let zf := f32mul e (p 0)
    let zb := f32mul e (p 1)
    let v := f32add
      (f32mul (f32sub (f32mul zf (p 2)) r) (f32add r (f32mul zb (p 2))))
      (f32mul (f32sub (f32mul zf (p 3)) x) (f32add x (f32mul zb (p 3))))
    cut { c := f32le 0 v, q1 := v, q2 := i.q }
  | 4 =>
    let rt := f32mul (f32sub i.q prev) (f32rat rate (max 1 (gdRocD w)))
    let th := f32mul (p 0) sc
    let c := match gdMode w with
      | 0 => f32lt th rt
      | 1 => f32lt rt (f32neg th)
      | _ => f32lt th (f32abs rt)
    cut { c, q1 := rt, q2 := th }
  | _ =>
    let ratio := f32div i.q i.den
    let th := f32mul (p 0) sc
    { c := f32lt i.den (p 1) || f32lt th ratio, q1 := ratio, q2 := th }

/-! ### Pickup counters (R226, R229) -/

/-- The counters after an evaluation with condition c. -/
def Guard.pickup (g : Guard) (w : List Nat) (c : Bool) : Guard :=
  if c then
    let cnt := min (g.cnt + 1) (gdDelay w)
    { g with cnt, dcnt := 0, out := g.out || decide (gdDelay w ≤ cnt), pu := true }
  else
    let cnt := if gdCmode w then g.cnt - gdDec w else 0
    if !g.out then { g with cnt, pu := false }
    else if gdDrop w < g.dcnt + 1 then { g with cnt, out := false, dcnt := 0, pu := false }
    else { g with cnt, dcnt := g.dcnt + 1, pu := false }

/-- CNT and DCNT cut to a new DELAY and DROP at the first evaluation under them; the Bool is whether that cut one. -/
def Guard.clamp (g : Guard) (from_ : Nat) (w : List Nat) : Guard × Bool :=
  if g.cfgN = from_ then (g, false)
  else
    let k := { g with cnt := min g.cnt (gdDelay w), dcnt := min g.dcnt (gdDrop w), cfgN := from_ }
    (k, k.cnt != g.cnt || k.dcnt != g.dcnt)

/-- One evaluation of an enabled guard: its state, its record, and what the counters INV_INPUT and CLAMP count. -/
def guardStep (rate : Nat) (o : PheOut) (cfg : Nat × List Nat) (g0 : Guard) : Guard × GRec × Nat × Nat :=
  let w := cfg.2
  let cl := g0.clamp cfg.1 w
  let g := cl.1
  let i := guardInput o w
  let roc := gdType w == 4
  let prev := if roc then (g.hist.getD (gdRocD w - 1) none) else some 0
  let valid := i.valid && (!roc || (prev.isSome && decide (0 < gdRocD w)))
  let ev := if valid then guardEval w g.pu i (prev.getD 0) rate else {}
  let hist := if roc then ((if i.valid && !(i.loop && i.r.lowi) then some i.q else none) :: g.hist).take 64 else []
  let g := { g with hist }
  let g := if !valid && gdInv w == 1 then g else g.pickup w (if valid then ev.c else gdInv w == 2)
  (g, { q1 := ev.q1, q2 := ev.q2, cnt := g.cnt, dcnt := g.dcnt, out := g.out, pu := g.pu, inv := !valid
        est := i.r.est, unres := ev.unres, lowi := i.loop && i.r.lowi },
   b2n (!valid), b2n cl.2)

/-! ### An instant (R222, R230) -/

/-- Entries of a guard table outside the range of a lattice. -/
def State.outsideGuards {α : Type} (s : State) (l : Nat) (t : Tbl α) : Tbl α := t.filter (fun p => !s.inGuards l p.1)
/-- Entries of a guard table in the range of a lattice. -/
def State.insideGuards {α : Type} (s : State) (l : Nat) (t : Tbl α) : Tbl α := t.filter (fun p => s.inGuards l p.1)

/-- The words of a guard record (R220). -/
def GRec.words (r : GRec) (n : Nat) : List Nat :=
  [pack r.q1 r.q2,
   place 63 56 n + place 55 40 r.cnt + place 39 32 r.dcnt + place 7 7 (b2n r.out) + place 6 6 (b2n r.pu)
     + place 5 5 (b2n r.inv) + place 4 4 (b2n r.est) + place 3 3 (b2n r.unres) + place 2 2 (b2n r.lowi)]

/-- The Guard Comparators write the slot of N: provisional, or in the confirmed ring (R218, R219). -/
def State.gcmSlot (s : State) (l n : Nat) (rs : Tbl GRec) (conf : Bool) : State :=
  let lines := 1 + (s.gCount l + 3) / 4
  let line := if conf then s.get (F.GCM_LAT_RES_CONF_BASE.nth l) + n % max 1 (s.get (F.GCM_LAT_RES_GHIST.nth l)) * lines
    else s.get (F.GCM_LAT_RES_PROV_BASE.nth l) + n % s.specDepth l * lines
  let seq := Tbl.get 0 line s.gcm.seqs + 2
  let all := (List.range (s.gCount l)).map (fun j => Tbl.get ({} : GRec) (s.gBase l + j) rs)
  let hdr := s.resHeader l n seq (all.filter (fun r => r.est)).length (all.filter (fun r => r.inv)).length conf
  let s := { s with gcm := { s.gcm with seqs := Tbl.set 0 line (seq % 2 ^ 32) s.gcm.seqs } }
  s.smemWrAll 3 line (hdr ++ padLine (all.flatMap (fun r => r.words n)))

/-- CPW_PUBLISH: the current-presence word from the newest confirmed records, passed to the safety island with the next
sequence count, when the lattice owns a mapped guard (R232). -/
def State.cpwPublish (s : State) (l : Nat) : State :=
  let mapped := (List.range 16).filter (fun k => s.flag (F.GCM_CPW_MAP_EN.nth k))
  if mapped.any (fun k => s.inGuards l (s.get (F.GCM_CPW_MAP_GUARD.nth k))) then
    let wd := mapped.foldl (fun a k =>
      a + if (Tbl.get ({} : GRec) (s.get (F.GCM_CPW_MAP_GUARD.nth k)) s.gcm.confRec).out then 2 ^ k else 0) 0
    let seq := (s.get F.GCM_CPW_SEQ + 1) % 16
    let s := (s.setF F.GCM_CPW_SEQ seq).setF F.GCM_CPW_WORD wd
    { s with psc := { s.psc with cpwQueue := s.psc.cpwQueue ++ [(seq, wd)] } }
  else s

/-- The records of a CONFIRMED instant: the confirmed ring, OUT_RISE, and the current-presence word (R218, R232, R234). -/
def State.gcmConfirmed (s : State) (l n : Nat) (rs : Tbl GRec) : State :=
  let old := s.gcm.confRec
  let rises := (rs.filter (fun r => r.2.out && !(Tbl.get ({} : GRec) r.1 old).out)).length
  let s := (s.gcmSlot l n rs true).bumpBy (F.GCM_CNT_COUNT.nth 2) rises
  let s := { s with gcm := { s.gcm with
    confRec := rs.foldl (fun t (r : Nat × GRec) => Tbl.set {} r.1 r.2 t) (s.outsideGuards l s.gcm.confRec) } }
  s.cpwPublish l

/-- GUARD_EVALUATION: every enabled guard of the lattice on the records of N; the state after N is saved (R222, R226, R227,
R230). -/
def State.gcmRun (s : State) (l n : Nat) (o : PheOut) : State :=
  if !s.flag F.GCM_CTL_EN then s
  else
    let gs := ((List.range (s.gCount l)).map (fun j => s.gBase l + j)).filter (fun g => gdEn (s.gcmAt g n).2)
    let rs := gs.map (fun g => (g, guardStep (s.latRate l) o (s.gcmAt g n) (s.gcmOf g (s.gcmAt g n).1)))
    let st := rs.foldl (fun t (r : Nat × Guard × GRec × Nat × Nat) => Tbl.set {} r.1 r.2.1 t) (s.outsideGuards l s.gcm.st)
    let recs : Tbl GRec := rs.map (fun r => (r.1, r.2.2.1))
    let s : State := { s with gcm := { s.gcm with
      st, saved := s.gcm.saved ++ [(l, n, s.insideGuards l st)]
      ready := s.gcm.ready ++ [(⟨l, n, (recs.filter (fun r => r.2.out)).map Prod.fst⟩ : GUpdate)] } }
    let s := (s.bump (F.GCM_CNT_COUNT.nth 0)).bumpBy (F.GCM_CNT_COUNT.nth 3) (sumN (rs.map (fun r => r.2.2.2.1)))
    let s := s.bumpBy (F.GCM_CNT_COUNT.nth 4) (sumN (rs.map (fun r => r.2.2.2.2)))
    if n ≤ s.confN l then s.gcmConfirmed l n recs
    else { s.gcmSlot l n recs false with gcm := { (s.gcmSlot l n recs false).gcm with recs := s.gcm.recs ++ [(l, n, recs)] } }

/-- The guards of a lattice that starts at N0. -/
def State.gcmStart (s : State) (l n0 : Nat) : State :=
  { s with gcm := { s.gcm with
    st := s.outsideGuards l s.gcm.st, confRec := s.outsideGuards l s.gcm.confRec
    saved := (l, n0 - 1, []) :: s.gcm.saved.filter (fun x => x.1 != l)
    recs := s.gcm.recs.filter (fun x => x.1 != l), ready := s.gcm.ready.filter (fun x => x.lat != l) }
           slp := { s.slp with gUpd := s.slp.gUpd.filter (fun x => x.lat != l) } }

/-- On CONFIRM for N: the records of N, once complete, go to the confirmed ring; older saved states go (R218, R232). -/
def State.gcmConfirm (s : State) (l n : Nat) : State :=
  let s := match s.gcm.recs.find? (fun x => x.1 == l && x.2.1 == n) with
    | some x => s.gcmConfirmed l n x.2.2
    | none => s
  let lastDone := ((s.gcm.saved.filter (fun x => x.1 == l)).getLast?.map (fun x => x.2.1)).getD n
  { s with gcm := { s.gcm with
    saved := s.gcm.saved.filter (fun x => x.1 != l || decide (min n lastDone ≤ x.2.1))
    recs := s.gcm.recs.filter (fun x => x.1 != l || decide (n < x.2.1)) } }

/-- GUARD_ROLLBACK on REFUTE for N: counters, flags and histories of the state after N − 1, and the G flags with them
(R227). -/
def State.gcmRefute (s : State) (l n : Nat) : State :=
  if !s.flag F.GCM_CTL_EN then s
  else
    let saved := s.gcm.saved.filter (fun x => x.1 != l || decide (x.2.1 < n))
    match (saved.filter (fun x => x.1 == l)).getLast? with
    | none => s
    | some x =>
      let st := x.2.2.foldl (fun t (g : Nat × Guard) => Tbl.set {} g.1 g.2 t) (s.outsideGuards l s.gcm.st)
      let s : State := { s with
        gcm := { s.gcm with
          st, saved, recs := s.gcm.recs.filter (fun y => y.1 != l || decide (y.2.1 < n))
          ready := s.gcm.ready.filter (fun y => y.lat != l || decide (y.n < n)) }
        slp := { s.slp with gUpd := s.slp.gUpd.filter (fun y => y.lat != l || decide (y.n < n)) } }
      s.bump (F.GCM_CNT_COUNT.nth 1)

/-- The OUT of every guard of the lattice enters operand space G as one update tagged with N (R230). -/
def guardResultsReady (l n : Nat) (s : State) : State :=
  match s.gcm.ready.find? (fun u => u.lat == l && u.n == n) with
  | none => s
  | some u =>
    { s with gcm := { s.gcm with ready := s.gcm.ready.filter (fun y => !(y.lat == l && y.n == n)) }
             slp := { s.slp with gUpd := s.slp.gUpd.filter (fun y => y.lat != l || decide (s.confN l < y.n + 64)) ++ [u] } }

end Sys2Proof.Machine
end

