-- ==== Sys2Proof/Machine/Scarab.lean ====
section
/-! DEFINITION. The Scarab's operand spaces, images, journal, slots and classes (R237 to R272), beside its instructions. -/
namespace Sys2Proof.Machine

/-! ### Tables (R271): by 2^18 × table + index -/

/-- The words of a Scarab table entry: 0 slot, 1 class, 5 program word, 6 K constants. -/
def State.slpEnt (s : State) (t i : Nat) : List Nat := Tbl.get [] (2 ^ 18 * t + i) s.slp.tab
/-- The state with a Scarab table entry written. -/
def State.setSlpEnt (s : State) (t i : Nat) (ws : List Nat) : State :=
  { s with slp := { s.slp with tab := Tbl.set [] (2 ^ 18 * t + i) (maskWords (slpBits t) ws) s.slp.tab } }
/-- STOP_Q of a slot: true holds Q. -/
def soStopQ (w : List Nat) : Bool := wbit w 0 60
/-- CLASS of a slot. -/
def soClass (w : List Nat) : Nat := wbits w 0 59 56
/-- PROG_BASE of a slot. -/
def soBase (w : List Nat) : Nat := wbits w 0 55 38
/-- PROG_LEN of a slot. -/
def soLen (w : List Nat) : Nat := wbits w 0 37 19
/-- INIT_MODE of a slot. -/
def soInit (w : List Nat) : Nat := wbits w 3 33 32
/-- PROG_ID of a slot. -/
def soProgId (w : List Nat) : Nat := wbits w 3 31 0

/-- The spaces that a slot writes. -/
inductive OwnSpace | q | e | m | t | c
  deriving DecidableEq, Repr

/-- The write range of a slot in a space (R271). -/
def soRange (w : List Nat) : OwnSpace → Nat × Nat
  | .q => (wbits w 1 63 48, wbits w 1 47 32)
  | .e => (wbits w 1 31 16, wbits w 1 15 0)
  | .m => (wbits w 2 63 47, wbits w 2 46 30)
  | .t => (wbits w 2 29 17, wbits w 2 16 4)
  | .c => (wbits w 3 63 52, wbits w 3 51 40)

/-- Whether a slot's entry is in use: a word of it is not 0. -/
def soUsed (w : List Nat) : Bool := w.any (fun x => x != 0)
/-- Whether a slot's write range holds an operand. -/
def soOwns (w : List Nat) (sp : OwnSpace) (ix : Nat) : Bool :=
  soUsed w && decide ((soRange w sp).1 ≤ ix) && decide (ix ≤ (soRange w sp).2)

/-- The indices of a slot's write range. -/
def soIndices (w : List Nat) (sp : OwnSpace) : List Nat :=
  if !soUsed w then [] else (List.range ((soRange w sp).2 + 1 - (soRange w sp).1)).map (· + (soRange w sp).1)

/-- VALID of a class. -/
def clValid (w : List Nat) : Bool := wbit w 0 63
/-- KIND of a class: true for per-instant. -/
def clInst (w : List Nat) : Bool := wbit w 0 62
/-- LATTICE of a per-instant class. -/
def clLat (w : List Nat) : Nat := wbits w 0 61 60
/-- PERIOD of a timed class in units of 10 µs. -/
def clPeriod (w : List Nat) : Nat := wbits w 0 59 43
/-- WARN_PCT of a class. -/
def clWarn (w : List Nat) : Nat := wbits w 0 42 36

/-- The words of a class entry. -/
def State.clsEnt (s : State) (c : Nat) : List Nat := s.slpEnt 1 c
/-- The state of a class. -/
def State.clsOf (s : State) (c : Nat) : ClassSt := Tbl.get {} c s.slp.cls
/-- The state with a class changed. -/
def State.modCls (s : State) (c : Nat) (f : ClassSt → ClassSt) : State :=
  { s with slp := { s.slp with cls := Tbl.mod {} c f s.slp.cls } }
/-- The run state of a slot. -/
def State.slotOf (s : State) (k : Nat) : SlotSt := Tbl.get {} k s.slp.slots
/-- Slots of the slot table. -/
def slotCount : Nat := 129
/-- The slots of a class that have a program, ascending (R250). -/
def State.classSlots (s : State) (c : Nat) : List Nat :=
  (List.range slotCount).filter (fun k => soLen (s.slpEnt 0 k) != 0 && soClass (s.slpEnt 0 k) == c)
/-- The per-instant class of a lattice. -/
def State.instClass (s : State) (l : Nat) : Option Nat :=
  (List.range 16).find? (fun c => clValid (s.clsEnt c) && clInst (s.clsEnt c) && clLat (s.clsEnt c) == l)
/-- The class whose slot writes an operand (R238). -/
def State.writerClass (s : State) (sp : OwnSpace) (ix : Nat) : Option Nat :=
  ((List.range slotCount).find? (fun k => soOwns (s.slpEnt 0 k) sp ix)).map (fun k => soClass (s.slpEnt 0 k))

/-- The first cycle of a class that a change made now applies to (R262): for a per-instant class the first instant not yet
closed, for a timed class the next cycle. -/
def State.nextCycle (s : State) (c : Nat) : Nat :=
  if clInst (s.clsEnt c) then (s.lattice (clLat (s.clsEnt c))).next else (s.clsOf c).n + 1

/-- A preset or limit in force at a cycle: tables 2 and 3 (R246, R248, R261). -/
def State.prmAt (s : State) (t ix n : Nat) : Nat :=
  (((Tbl.get [] (2 ^ 18 * t + ix) s.slp.prm).find? (fun p => decide (p.1 ≤ n))).getD (0, 0)).2
/-- A preset or limit that applies from a cycle on. -/
def State.setPrm (s : State) (t ix n v : Nat) : State :=
  let k := 2 ^ 18 * t + ix
  let old := (Tbl.get [] k s.slp.prm).filter (fun p => decide (p.1 < n))
  { s with slp := { s.slp with prm := Tbl.set [] k ((n, v) :: old.take 63) s.slp.prm } }

/-! ### Instruction words (R241, R243) -/

/-- The instruction word of an opcode, a space and an index. -/
def scWord (op sp ix : Nat) : Nat := op * 2 ^ 26 + sp * 2 ^ 22 + ix
/-- Opcode of a word. -/
def scOp (w : Nat) : Nat := bits 31 26 w
/-- Space of a word. -/
def scSpace (w : Nat) : Nat := bits 25 22 w
/-- Index of a word. -/
def scIx (w : Nat) : Nat := bits 21 0 w
/-- Code of a read space (R237). -/
def rdCode : RdSpace → Nat
  | .i => 0 | .q => 1 | .m => 2 | .t => 3 | .c => 4 | .e => 5 | .g => 6 | .s => 7 | .f => 8 | .k => 9
/-- Code of a written space (R237). -/
def wrCode : WrSpace → Nat
  | .q => 1 | .m => 2

/-- The program segment a slot runs in a cycle: a staged program from its swap point on (R266). -/
def State.progAt (s : State) (k n : Nat) : Nat × Nat :=
  match s.slp.staged with
  | some p => if p.slot = k ∧ 3 ≤ p.stage ∧ p.swapAt ≤ n then (p.base, p.prog.words.length)
              else (soBase (s.slpEnt 0 k), soLen (s.slpEnt 0 k))
  | none => (soBase (s.slpEnt 0 k), soLen (s.slpEnt 0 k))
/-- A word of program memory. -/
def State.progWord (s : State) (a : Nat) : Nat := word (s.slpEnt 5 a) 0
/-- The words of a segment. -/
def State.progWords (s : State) (p : Nat × Nat) : List Nat := (List.range p.2).map (fun j => s.progWord (p.1 + j))

/-- Whether a program's counter `ix` counts down, none where it has none. -/
def ctrDown (ws : List Nat) (ix : Nat) : Option Bool :=
  (ws.find? (fun w => (scOp w == 0x1B || scOp w == 0x1C) && scIx w == ix)).map (fun w => scOp w == 0x1C)
/-- The start state of a counter: CV = PV counting down (R248). -/
def startCounter (down : Bool) (pv : Nat) : Counter := { cv := if down then pv else 0 }

/-! ### Journal (R260, R261) -/

/-- Which operand array a value belongs to. -/
def OpVal.kind : OpVal → Nat
  | .q _ => 1
  | .m _ => 2
  | .e _ => 5
  | .t _ => 3
  | .c _ => 4
  | .slot _ => 10

/-- The live value of the operand that `v` would replace. -/
def State.opNow (s : State) (ix : Nat) : OpVal → OpVal
  | .q _ => .q (Tbl.get false ix s.slp.q)
  | .m _ => .m (Tbl.get false ix s.slp.m)
  | .e _ => .e (Tbl.get {} ix s.slp.e)
  | .t _ => .t (Tbl.get {} ix s.slp.t)
  | .c _ => .c (Tbl.get {} ix s.slp.c)
  | .slot _ => .slot (Tbl.get {} ix s.slp.slots)

/-- A live operand replaced. -/
def Slp.put (x : Slp) (ix : Nat) : OpVal → Slp
  | .q v => { x with q := Tbl.set false ix v x.q }
  | .m v => { x with m := Tbl.set false ix v x.m }
  | .e v => { x with e := Tbl.set {} ix v x.e }
  | .t v => { x with t := Tbl.set {} ix v x.t }
  | .c v => { x with c := Tbl.set {} ix v x.c }
  | .slot v => { x with slots := Tbl.set {} ix v x.slots }

/-- A write of an operand by a cycle: the value before the cycle's first write is kept (R260), and a written Q bit joins the
output set (R258). -/
def State.opPut (s : State) (c ix : Nat) (v : OpVal) : State :=
  let n := (s.clsOf c).n
  let known := s.slp.journal.any (fun j => j.cls == c && j.n == n && j.ix == ix && j.old.kind == v.kind)
  let x := if known then s.slp else { s.slp with journal := ⟨c, n, ix, s.opNow ix v⟩ :: s.slp.journal }
  let s := { s with slp := x.put ix v }
  match v with
  | .q b => s.modCls c (fun k => { k with written := Tbl.set 0 ix (1 + b2n b) k.written })
  | _ => s

/-- Journal entries undone, newest first. -/
def Slp.undo (x : Slp) (js : List JEntry) : Slp := js.foldl (fun x j => x.put j.ix j.old) x

/-- Every class at its confirmed image: each cycle not completed or not confirmed is undone (R255). -/
def Slp.confirmed (x : Slp) : Slp := x.undo x.journal

/-! ### Reading (R237, R255, R256, R265) -/

/-- The key of a force. -/
def forceKey (sp ix : Nat) : Nat := 2 ^ 18 * sp + ix
/-- A value under the forces: 1 forces 0, 2 forces 1. -/
def forced (fs : Tbl Nat) (sp ix : Nat) (v : Bool) : Bool :=
  match Tbl.get 0 (forceKey sp ix) fs with
  | 0 => v
  | 1 => false
  | _ => true
/-- Whether any force is active. -/
def State.anyForce (s : State) : Bool := !s.slp.forces.isEmpty

/-- STALL of a lattice: an open instant waits at depth, or the newest closed one did (R168, R198). -/
def State.latStall (s : State) (l : Nat) : Bool :=
  let x := s.lattice l
  !x.stalled.isEmpty || (match (x.done.reverse ++ x.insts).getLast? with | some i => i.stalled | none => false)

/-- Operand space K as one number, FIRST apart (R239). -/
def State.kImage (s : State) (x : ClassSt) : Nat :=
  let role := s.get F.PRC_STATUS_ROLE
  let nsv := Time.ns x.stamp
  let bs : List (Nat × Bool) :=
    [(1, true), (3, x.overrun), (4, x.ovrWarn), (5, x.prov), (6, x.reexec), (7, s.anyForce),
     (8, s.flag F.TBU_STATUS_TIME_VALID), (9, bit 0 (s.get F.TBU_STATUS_SYNCH)), (10, bit 1 (s.get F.TBU_STATUS_SYNCH)),
     (11, s.flag F.TBU_STATUS_COARSE), (12, s.flag F.QBC_STATUS_IN_VALID), (13, s.wvlOn),
     (14, s.sup.mode == .rideThrough), (15, s.flag F.TMC_MODULE_ID_SAFETY_EN), (16, role == 0), (17, role == 1),
     (18, role == 2), (19, role == 3), (20, s.sup.pairsel), (21, s.flag F.PRC_STATUS_GAP),
     (32, decide (nsv < 500000000)), (33, decide (nsv % 100000000 < 50000000)),
     (34, decide (nsv % 10000000 < 5000000)), (35, decide (nsv % 1000000 < 500000))]
    ++ (List.range 4).map (fun l => (24 + l, (s.lattice l).running))
    ++ (List.range 4).map (fun l => (28 + l, s.latStall l))
  sumN (bs.map (fun b => b2n b.2 * 2 ^ b.1)) + word (s.slpEnt 6 0) 0 * 2 ^ 128 + word (s.slpEnt 6 0) 1 * 2 ^ 192

/-- The guards that are up in the update of instant N. -/
def State.gAt (s : State) (l n : Nat) : List Nat :=
  match (s.slp.gUpd.filter (fun u => u.lat == l && u.n == n)).getLast? with
  | some u => u.outs
  | none => []
/-- The guards that are up at the newest CONFIRMED instant of a lattice (R255). -/
def State.gConf (s : State) (l : Nat) : List Nat :=
  match (s.slp.gUpd.filter (fun u => u.lat == l && decide (u.n ≤ s.confN l))).getLast? with
  | some u => u.outs
  | none => []

/-- The words of F as a class sees them: each pending write visible to it, oldest first, over the confirmed values
(R256). -/
def State.fImage (s : State) (l : Option Nat) (n : Nat) : Tbl Nat :=
  let vis := fun (d : Dep) => d.all (fun p => if some p.1 = l then decide (p.2 ≤ n) else decide (p.2 ≤ s.confN p.1))
  let on := fun (p : FWrite) => match p.start with
    | none => true
    | some t => t.begun && (decide (t.lat = none) || decide (t.lat ≠ l) || decide (t.n ≤ n))
  (s.slp.fPend.filter (fun p => vis p.dep && on p && !p.old)).foldl (fun t p => Tbl.set 0 p.word p.val t) s.slp.fConf

/-- The images of a cycle of class `c` for instant `n` (R255). -/
def State.images (s : State) (c n : Nat) (x : ClassSt) : Images :=
  let w := s.clsEnt c
  let l := if clInst w then some (clLat w) else none
  let up := (List.range 4).flatMap (fun k => if some k = l then s.gAt k n else s.gConf k)
  let cf := s.slp.confirmed
  { i := s.slp.i, s := s.slp.s, k := s.kImage x, g := up.foldl (fun t g => Tbl.set false g true t) []
    f := s.fImage l n, q := cf.q, m := cf.m, t := cf.t, c := cf.c, e := cf.e, forces := s.slp.forces }

/-- Whether an operand is read live by class `c` (R255). -/
def State.isLive (s : State) (c : Nat) (sp : OwnSpace) (ix : Nat) : Bool := s.writerClass sp ix == some c

/-- The value that a read of an operand returns to the cycle of class `c`, slot `k` running. -/
def State.scRead (s : State) (c k : Nat) (sp : RdSpace) (ix : Nat) : Bool :=
  let x := s.clsOf c
  let im := x.img
  match sp with
  | .i => forced im.forces 0 ix (Tbl.get false ix im.i)
  | .q => forced im.forces 1 ix (Tbl.get false ix (if s.isLive c .q ix then s.slp.q else im.q))
  | .m => forced im.forces 2 ix (Tbl.get false ix (if s.isLive c .m ix then s.slp.m else im.m))
  | .t => (Tbl.get ({} : Timer) ix (if s.isLive c .t ix then s.slp.t else im.t)).q
  | .c => (Tbl.get ({} : Counter) ix (if s.isLive c .c ix then s.slp.c else im.c)).q
  | .e => (Tbl.get ({} : Edge) ix (if s.isLive c .e ix then s.slp.e else im.e)).b
  | .g => forced im.forces 6 ix (Tbl.get false ix im.g)
  | .s => s.flag F.TMC_MODULE_ID_SAFETY_EN && Tbl.get false ix im.s
  | .f => forced im.forces 8 ix (bit (ix % 64) (Tbl.get 0 (ix / 64) im.f))
  | .k => if ix = 2 then (s.slotOf k).first == some x.n else bit ix im.k

/-! ### Time of a cycle (R245, R259) -/

/-- LOG_CLK cycles pass for every class whose cycle has begun and not ended. -/
def State.spend (s : State) (k : Nat) : State :=
  { s with slp := { s.slp with
    cls := s.slp.cls.map (fun p => if p.2.running then (p.1, { p.2 with cycles := p.2.cycles + k }) else p) } }

/-- The entry of the next slot, or the end of the class's programs (R242, R250). -/
def State.nextSlot (s : State) (c : Nat) (rest : List Nat) : State :=
  let s := s.modCls c (fun x => { x with slots := rest, pc := 0, acc := false, stack := [], ended := rest.isEmpty })
  if rest.isEmpty then s else s.spend 16

/-! ### Modes, faults and program change at a cycle's start (R262, R266, R267) -/

/-- Every Q bit of a slot cleared in the running cycle's output set. -/
def State.clearQ (s : State) (c : Nat) (w : List Nat) : State :=
  (soIndices w .q).foldl (fun s ix => s.opPut c ix (.q false)) s

/-- The actions of a change to STOP (R262); with `clear` also markers and counters return to their start values (R348). -/
def State.slotStop (s : State) (c k : Nat) (clear : Bool) : State :=
  let w := s.slpEnt 0 k
  let s := if clear || !soStopQ w then s.clearQ c w else s
  let s := (soIndices w .t).foldl (fun s ix =>
    s.opPut c ix (.t (if clear then {} else { Tbl.get ({} : Timer) ix s.slp.t with et := 0, q := false, run := false }))) s
  let s := (soIndices w .e).foldl (fun s ix => s.opPut c ix (.e { Tbl.get ({} : Edge) ix s.slp.e with primed := true, b := false })) s
  if !clear then s
  else
    let s := (soIndices w .m).foldl (fun s ix => s.opPut c ix (.m false)) s
    let ws := s.progWords (s.progAt k (s.clsOf c).n)
    (soIndices w .c).foldl (fun s ix =>
      s.opPut c ix (.c (startCounter ((ctrDown ws ix).getD false) (s.prmAt 3 ix (s.clsOf c).n)))) s

/-- One mode request applied (R262). From STOP to RUN a timer takes its time as at its first execution; what it last saw at its input
stays as it was (DESIGN CHOICE, log 279). -/
def State.applyMode (s : State) (c k : Nat) (r : ModeReq) : State :=
  let st := s.slotOf k
  let w := s.slpEnt 0 k
  let stamp := (s.clsOf c).stamp
  let s :=
    if r.mode = 0 ∧ (st.mode != 0 || r.clear) then s.slotStop c k r.clear
    else if r.mode = 1 ∧ st.mode = 2 then
      (soIndices w .t).foldl (fun s ix => s.opPut c ix (.t { Tbl.get ({} : Timer) ix s.slp.t with last := some stamp })) s
    else if r.mode = 1 ∧ st.mode = 0 then
      (soIndices w .t).foldl (fun s ix => s.opPut c ix (.t { Tbl.get ({} : Timer) ix s.slp.t with last := none })) s
    else s
  s.opPut c k (.slot { st with mode := r.mode, applied := st.applied + 1,
                               first := if r.mode = 1 ∧ st.mode = 0 then none else st.first })

/-- What a program uses of an operand family: the opcode of the first instruction of the family with an index. -/
def usedOp (lo hi ix : Nat) (ws : List Nat) : Option Nat :=
  (ws.find? (fun w => decide (lo ≤ scOp w) && decide (scOp w ≤ hi) && scIx w == ix)).map scOp
/-- Whether a program writes Q bit `ix`. -/
def usesQ (ix : Nat) (ws : List Nat) : Bool :=
  ws.any (fun w => decide (0x10 ≤ scOp w) && decide (scOp w ≤ 0x13) && scSpace w == 1 && scIx w == ix)

/-- The carry-over of R267 from the words of the old program to those of the new. -/
def State.carryOver (s : State) (c k : Nat) (old new : List Nat) : State :=
  let w := s.slpEnt 0 k
  let n := (s.clsOf c).n
  let s := (soIndices w .t).foldl (fun s ix =>
    if usedOp 0x16 0x19 ix new != none && usedOp 0x16 0x19 ix new == usedOp 0x16 0x19 ix old then s else s.opPut c ix (.t {})) s
  let s := (soIndices w .c).foldl (fun s ix =>
    if usedOp 0x1B 0x1C ix new != none && usedOp 0x1B 0x1C ix new == usedOp 0x1B 0x1C ix old then s
    else s.opPut c ix (.c (if usedOp 0x1B 0x1C ix new = none then {}
      else startCounter ((ctrDown new ix).getD false) (s.prmAt 3 ix n)))) s
  let s := (soIndices w .e).foldl (fun s ix =>
    if usedOp 0x14 0x15 ix new != none && usedOp 0x14 0x15 ix old != none then s else s.opPut c ix (.e {})) s
  (soIndices w .q).foldl (fun s ix => if usesQ ix old && !usesQ ix new then s.opPut c ix (.q false) else s) s

/-- SWAP_POINT: the slot takes its new program in this cycle; the carry-over waits while the slot does not run (R266,
R267). -/
def State.swapPoint (s : State) (c k : Nat) : State :=
  match s.slp.staged with
  | none => s
  | some p =>
    let st := s.slotOf k
    if p.slot != k || decide (p.stage < 3) || decide ((s.clsOf c).n < p.swapAt) || st.swapped then s
    else
      let old := s.progWords (soBase (s.slpEnt 0 k), soLen (s.slpEnt 0 k))
      let s := s.opPut c k (.slot { st with swapped := true, first := none, carry := some old })
      if p.stage = 3 then
        { s with slp := { s.slp with staged := some { p with stage := 4 } } }.bump (F.SLP_CNT_COUNT.nth 4)
      else s

/-- What a slot does at a cycle's start: the swap point, the modes asked for; then, in RUN, the carry-over
and the first cycle of FIRST. -/
def State.slotEnter (s : State) (c k : Nat) : State :=
  let n := (s.clsOf c).n
  let s := s.swapPoint c k
  let due := ((Tbl.get [] k s.slp.reqs).drop (s.slotOf k).applied).filter (fun r => decide (r.from_ ≤ n))
  let s := due.foldl (fun s r => s.applyMode c k r) s
  if (s.slotOf k).mode != 1 then s
  else
    let s := match (s.slotOf k).carry with
      | some old => (s.carryOver c k old (s.progWords (s.progAt k n))).opPut c k (.slot { s.slotOf k with carry := none })
      | none => s
    if (s.slotOf k).first.isNone then s.opPut c k (.slot { s.slotOf k with first := some n }) else s

/-- The priority of a class: per-instant classes first, then timed ones by PERIOD (R252). -/
def State.clsKey (s : State) (c : Nat) : List Nat :=
  let w := s.clsEnt c
  if clInst w then [0, 0, c] else [1, clPeriod w, c]

/-- The class of highest priority among those whose state has a property. -/
def State.topOf (s : State) (f : ClassSt → Bool) : Option Nat :=
  ((s.slp.cls.filter (fun p => f p.2)).map Prod.fst).foldl (fun a c => match a with
    | none => some c
    | some b => if lexLt (s.clsKey c) (s.clsKey b) then some c else some b) none

/-- The highest-priority class whose cycle has begun and not ended. -/
def State.topClass (s : State) : Option Nat := s.topOf (fun x => x.running)

/-- Whether a class of higher priority has a cycle that has begun and not ended (R252). -/
def State.outranked (s : State) (c : Nat) : Bool :=
  match s.topClass with
  | some b => lexLt (s.clsKey b) (s.clsKey c)
  | none => false

/-- Whether a module page's bundle is committed and its group B enabled. -/
def State.running (s : State) : Bool := decide (5 ≤ s.get F.TMC_START_STATUS_PHASE) && s.get F.TMC_START_STATUS_PHASE != 7

/-- Whether the Scarab runs (R493). -/
def State.slpOn (s : State) : Bool := s.running && s.flag F.SLP_CTL_EN

/-- Instants of a per-instant class whose G update waits, in the order their updates came (R259). -/
def State.waiting (s : State) (c : Nat) : List Nat :=
  let l := clLat (s.clsEnt c)
  let after := fun n => match (s.clsOf c).lastN with | some k => decide (k < n) | none => true
  (s.slp.gUpd.filter (fun u => u.lat == l && after u.n && decide ((s.lattice l).n0 ≤ u.n))).map (fun u => u.n)

/-- Whether a per-instant class before a class has a G update waiting: its cycle is due, and goes first (R252). -/
def State.instDue (s : State) (c : Nat) : Bool :=
  s.slpOn && (List.range 16).any (fun d => clValid (s.clsEnt d) && clInst (s.clsEnt d) && !(s.clsOf d).running
    && lexLt (s.clsKey d) (s.clsKey c) && !(s.waiting d).isEmpty)

/-- A cycle starts (R245, R251, R255): stamp, images, slots. It comes only where no class of higher priority runs, and pre-empts the
one that does (R252). -/
def State.startCycle (s : State) (c n : Nat) (stamp : Time) (prov reexec : Bool) : State :=
  let s := s.modCls c (fun x => { x with
    running := true, ended := false, n := n, stamp := stamp, written := [], cycles := 0, prov := prov, reexec := reexec
    overrun := x.nextOver, ovrWarn := x.nextWarn, nextOver := false, nextWarn := false })
  let s := s.fBegin c n
  let s := s.modCls c (fun x => { x with img := s.images c n x })
  let s := s.spend 48
  let ks := s.classSlots c
  let ks := match s.slp.staged with
    | some p => if soClass (s.slpEnt 0 p.slot) = c ∧ ¬ks.contains p.slot ∧ 3 ≤ p.stage ∧ p.swapAt ≤ n
        then (List.range slotCount).filter (fun k => k == p.slot || ks.contains k) else ks
    | none => ks
  let s := ks.foldl (fun s k => s.slotEnter c k) s
  let s := s.nextSlot c (ks.filter (fun k => (s.slotOf k).mode == 1 && (s.progAt k n).2 != 0))
  { s with slp := { s.slp with cur := some c } }

/-- A class leaves the Scarab: a pre-empted one goes on at its CYCLE_RESUME. -/
def State.yieldCur (s : State) (c : Nat) : State :=
  if s.slp.cur = some c then { s with slp := { s.slp with cur := none } } else s

/-- A mode request placed before those of later cycles. -/
def insertReq (r : ModeReq) : List ModeReq → List ModeReq
  | [] => [r]
  | x :: t => if r.from_ < x.from_ then r :: x :: t else if x = r then x :: t else x :: insertReq r t

/-- SLOT_FAULT: an uncorrectable error in a program word ends the slot; Q cleared, FAULT and STOP, one event to the slot's
slice and one to slice 0 (R262). The STOP holds for every later cycle, re-executed ones too (R261). -/
def State.slotFault (s : State) (c k addr : Nat) : State :=
  let s := (s.clearQ c (s.slpEnt 0 k)).opPut c k (.slot { s.slotOf k with mode := 0 })
  let s := { s with slp := { s.slp with
    faults := k :: s.slp.faults.filter (fun j => j != k)
    reqs := Tbl.mod [] k (insertReq ⟨(s.clsOf c).n + 1, 0, false⟩) s.slp.reqs } }
  let s := s.bump (F.SLP_CNT_COUNT.nth 3)
  let s := if k = 0 then s else s.event (k - 1) 0x0006 k addr 0
  let s := if k = 1 then s else s.event 0 0x0006 k addr 0
  s.nextSlot c ((s.clsOf c).slots.drop 1)

/-! ### Output sets and the released Q image (R258, R265) -/

/-- A bit of the released Q image: the forced value, or the newest released one. -/
def State.relQ (s : State) (ix : Nat) : Bool := forced s.slp.forces 1 ix (Tbl.get false ix s.slp.rel)

/-- Journal entries of completed cycles that are CONFIRMED, or of a timed class, go (R260). -/
def State.freeJournal (s : State) : State :=
  { s with slp := { s.slp with journal := s.slp.journal.filter (fun j =>
      let x := s.clsOf j.cls
      (x.running && x.n == j.n) ||
        (clInst (s.clsEnt j.cls) && decide (s.confN (clLat (s.clsEnt j.cls)) < j.n))) } }

/-- The slot of a completed program change becomes the new program's, for a timed class at the swap point and else once the
swap instant, whose cycle took the new program, is CONFIRMED: OLD_PROGRAM_FREE (R266). -/
def State.swapFinish (s : State) : State :=
  match s.slp.staged with
  | none => s
  | some p =>
    let w := s.slpEnt 0 p.slot
    let c := soClass w
    let swap := fun (v : OpVal) => match v with | .slot x => !x.swapped | _ => false
    let busy := clInst (s.clsEnt c) && s.slp.journal.any (fun j => j.cls == c && j.ix == p.slot && swap j.old
      && decide (s.confN (clLat (s.clsEnt c)) < j.n))
    if p.stage = 4 ∧ (s.slotOf p.slot).swapped ∧ ¬busy then
      let s := (List.range (soLen w)).foldl (fun s j => s.setSlpEnt 5 (soBase w + j) []) s
      let w0 := putBits 37 19 p.prog.words.length (putBits 55 38 p.base (word w 0))
      let s := s.setSlpEnt 0 p.slot (listSet 0 3 (putBits 31 0 p.prog.progId (word w 3)) (listSet 0 0 w0 w))
      let done := fun (v : OpVal) => match v with | .slot x => OpVal.slot { x with swapped := false } | o => o
      { s with slp := { s.slp with
        staged := none, slots := Tbl.mod {} p.slot (fun x => { x with swapped := false }) s.slp.slots
        journal := s.slp.journal.map (fun j => if j.cls = c ∧ j.ix = p.slot then { j with old := done j.old } else j) } }
    else s

/-- An output set enters the released image. -/
def State.releaseQ (s : State) (o : OutSet) : State :=
  { s with slp := { s.slp with rel := o.qs.foldl (fun t b => Tbl.set false b.1 b.2 t) s.slp.rel } }

/-- Whether an output set may be released: its dependency is confirmed and no held act goes before it (R38, R41). -/
def State.setFree (s : State) (o : OutSet) : Bool := s.depFree o.dep.toList

/-- The held sets that may be released now, in order: none behind a held one of its class (R258). -/
def releasable (s : State) : List OutSet → List Nat → List OutSet
  | [], _ => []
  | o :: t, blocked =>
    if s.setFree o && !blocked.contains o.cls then o :: releasable s t blocked else releasable s t (o.cls :: blocked)

/-- SCARAB_ROLLBACK on REFUTE for (L, N): the cycle in progress is abandoned, the journal undone, held sets discarded; the
answer names the discarded sets. `top` is the newest instant that is closed again (R258, R261). -/
def State.slpRefute (s : State) (l n top : Nat) : List OutSet × State :=
  match s.instClass l with
  | none => ([], s)
  | some c =>
    let x := s.clsOf c
    let bad := fun (j : JEntry) => j.cls == c && decide (n ≤ j.n)
    let slp := s.slp.undo (s.slp.journal.filter bad)
    let gone := s.slp.held.filter (fun o => o.cls == c && decide (n ≤ (o.dep.getD (0, 0)).2))
    let s : State := { s with slp := { slp with
      journal := s.slp.journal.filter (fun j => !bad j)
      held := s.slp.held.filter (fun o => !(o.cls == c && decide (n ≤ (o.dep.getD (0, 0)).2))) } }
    let s := if x.running ∧ n ≤ x.n then
        (s.modCls c (fun x => { x with running := false, ended := false, slots := [], written := [] })).yieldCur c else s
    let s := s.modCls c (fun x => { x with
      lastN := match x.lastN with | some k => if n ≤ k then (if n = 0 then none else some (n - 1)) else some k | none => none
      reTop := some top })
    (gone, (s.bump (F.SLP_CNT_COUNT.nth 0)).bumpBy (F.SLP_CNT_COUNT.nth 2) gone.length)

end Sys2Proof.Machine
end

