-- ==== Sys2Proof/Machine/Publication.lean ====
section
/-! DEFINITION. The Publication Engine (R275 to R291): contents, staging and release, numbers and retransmission, ring
publications, SV frames, roles and keys. -/
namespace Sys2Proof.Machine

/-- The run state of a publication. -/
def State.pubOf (s : State) (p : Nat) : PubSt := Tbl.get {} p s.pub.st
/-- The state with a publication's run state changed. -/
def State.modPub (s : State) (p : Nat) (f : PubSt → PubSt) : State :=
  { s with pub := { s.pub with st := Tbl.mod {} p f s.pub.st } }
/-- Count one event of the engine (R293). -/
def State.pubBump (s : State) (n : Nat) : State := s.bump (F.PUB_CNT_COUNT.nth n)
/-- The enabled publications while the engine runs, with their entries. -/
def State.pubsOn (s : State) : List (Nat × List Nat) :=
  if s.flag F.PUB_CTL_EN then s.pub.ent.filter (fun p => pbValid p.2 && pbEn p.2) else []
/-- R288 allows sending: role Active or Alone with a valid lease and no gap. -/
def State.sends (s : State) : Bool :=
  (s.get F.PRC_STATUS_ROLE == 0 || s.get F.PRC_STATUS_ROLE == 2) && s.flag F.PRC_STATUS_LEASE && !s.flag F.PRC_STATUS_GAP
/-- Whether a publication may be tagged: it needs no key, or its node holds one of its algorithm in force (R287, R419). -/
def State.pubKeyed (s : State) (w : List Nat) : Bool :=
  pbAuth w == 0 || (match s.tagSlot (pbKeyNode w) with
    | some k => k.alg == pbAuth w
    | none => false)

/-! ### Contents (R276) -/

/-- Bits that a member takes of a content. -/
def mbWidth (m : Nat) : Nat :=
  match mbType m with
  | 0 => 1
  | 1 => mbBits m
  | 2 => 2
  | 3 => 1
  | _ => 0
/-- The content of a system publication over a Q image. -/
def State.pubContent (s : State) (w : List Nat) (q : Nat → Bool) : List Bool :=
  (s.pubMembs w).flatMap (fun m => (List.range (mbWidth m)).map (fun i => q (mbIdx m + i)))
/-- Whether a publication has a member among written Q bits. -/
def State.pubReads (s : State) (w : List Nat) (qs : List (Nat × Bool)) : Bool :=
  (s.pubMembs w).any (fun m => qs.any (fun b => decide (mbIdx m ≤ b.1) && decide (b.1 < mbIdx m + mbWidth m)))
/-- Whether a publication is a system GOOSE publication. -/
def pbSystem (w : List Nat) : Bool := !pbSv w && !pbRing w

/-! ### Frames (R281, R285 to R287) -/

/-- UtcTime of a module time (R281). -/
def State.utcTime (s : State) (t : Time) : Nat :=
  let sec := (Time.sec t + 2 ^ 32 - s.get F.TBU_STATUS_UTC_OFFSET % 2 ^ 32) % 2 ^ 32
  let sy := s.get F.TBU_STATUS_SYNCH
  let q := place 7 7 (s.get F.TBU_STATUS_UTC_VALID) + place 5 5 (b2n (sy == 0))
    + (if sy = 2 then 20 else if sy = 1 then 10 else 31)
  sec * 2 ^ 32 + Time.ns t * 2 ^ 24 / 1000000000 * 2 ^ 8 + q

/-- d_j of a publication's schedule (R280). -/
def pbInterval (w : List Nat) (j : Nat) : Time :=
  if j < pbBurst w then pbRtMin w else min (pbRtMin w * 2 ^ (j - pbBurst w + 1)) (pbRtMax w)

/-- The data set values of a content. -/
def gooseVals (test : Bool) (t : Nat) : List Nat → List Bool → List GooseVal
  | [], _ => []
  | m :: ms, bs =>
    let v := bs.take (mbWidth m)
    let x := match mbType m with
      | 0 => .bool (v.getD 0 false)
      | 1 => .bitString v
      | 2 => .dbpos (v.getD 0 false) (v.getD 1 false)
      | 3 => .quality { validity := if v.getD 0 false then .invalid else .good, test, blocked := false, subst := false
                        derived := false, detail := 0 }
      | _ => .utc t
    x :: gooseVals test t ms (bs.drop (mbWidth m))

/-- The security extension of a publication's frame, naming its node's current key, with the tag over the frame as numbered
(R287). -/
def State.pubExt (s : State) (w : List Nat) (b : Body) : Option SecExt :=
  if pbAuth w = 0 then none
  else (s.tagSlot (pbKeyNode w)).map (fun k => ⟨pbAuth w, k.keyId, Config.authTag (pbAuth w) k.key b⟩)

/-- Octets of a tag by the AUTH coding of R134. -/
def tagOctets : Nat → Nat
  | 1 => 10 | 2 => 16 | 3 => 32 | 4 => 8 | 5 => 16 | _ => 0

/-- Octets of a publication's frame with its extension, before a MAC pads it (R118, R275). -/
def State.pubLen (s : State) (p : Nat) (w : List Nat) : Nat :=
  18 + (if wbit w 0 50 then 4 else 0) + tagOctets (pbAuth w)
    + Config.pduLen ([b2n (pbSv w), if pbSv w then pbNoAsdu w else 1, b2n (pbAuth w != 0)]
        ++ ((if pbSv w then [0, 1] else [0, 1, 2]).map (fun k => (s.textOf k p).length))
        ++ (s.pubMembs w).map (fun m => 64 * mbType m + mbWidth m))

/-- A frame of a publication with its header (R292). -/
def State.pubFrame (s : State) (p : Nat) (w : List Nat) (body : Body) (etype : Nat) : Frame :=
  { da := wbits w 1 47 0, sa := 0, vlan := if wbit w 0 50 then some ⟨wbits w 0 37 35, false, wbits w 0 49 38⟩ else none
    doubleTag := false, etype, len := max 64 (s.pubLen p w), red := none, body, raw := [] }

/-- A frame numbered and ready: sent in the order of R286 with what is ready at the same moment, and counted. -/
def State.pubSend (s : State) (p : Nat) (w : List Nat) (body : Body) (etype st sq : Nat) : State :=
  let x : TxFrame := { src := .pub p, frame := s.pubFrame p w body etype, cls := 2 }
  let s := { s with pub := { s.pub with ready := s.pub.ready ++ [(⟨[pbPrio w, b2n (!pbSv w), p], pbPorts w, x⟩ : PubReady)] } }
  let s := s.pubBump (if pbSv w then 1 else 0)
  s.modPub p (fun y => { y with
    sentSt := st, sentSq := sq, lastTx := s.gt64, frames := satInc 32 y.frames, sinceSync := true })

/-- A frame placed by its key, behind those of an equal key. -/
def insertReady (x : PubReady) : List PubReady → List PubReady
  | [] => [x]
  | y :: t => if lexLt x.key y.key then x :: y :: t else y :: insertReady x t

/-- The frames that are ready at this moment go to the MACs (R285, R286). -/
def State.pubFlush (s : State) : State :=
  let l := s.pub.ready.foldl (fun l x => insertReady x l) []
  l.foldl (fun s x => s.txPorts x.ports x.frame) { s with pub := { s.pub with ready := [] } }

/-- The allData that a frame of a publication's content carries (R276, R281). -/
def State.allData (s : State) (w : List Nat) (y : PubSt) : List GooseVal :=
  gooseVals y.test (s.utcTime y.stamp) (s.pubMembs w) y.content

/-- CONTENT of a publication as PUB_SYNC carries it (R375). -/
def State.pubCrc (s : State) (w : List Nat) (y : PubSt) : Nat := Config.contentCrc (s.allData w y) % 2 ^ 32

/-- The GOOSE frame of a publication's present state and schedule. -/
def State.gooseSend (s : State) (p : Nat) (w : List Nat) : State :=
  let y := s.pubOf p
  let t := s.utcTime y.stamp
  let g : GoosePdu :=
    { wellFormed := true, sim := y.sim, test := y.test, appid := wbits w 0 34 19, gocbRef := s.textOf 0 p
      datSet := s.textOf 1 p, goID := s.textOf 2 p, confRev := pbConfRev w
      ndsCom := false, numEntries := pbNMemb w, stNum := y.stNum, sqNum := y.sqNum
      tal := (2 * pbInterval w y.j + ms 1 - 1) / ms 1 + pbTalAdd w, t
      vals := s.allData w y, ext := none }
  (s.pubSend p w (.goose { g with ext := s.pubExt w (.goose g) }) 0x88B8 y.stNum y.sqNum).modPub p (fun y => { y with
    sentSim := g.sim, sentTest := g.test, sentCrc := s.pubCrc w y })

/-- stNum and sqNum wrap to 1 (R279). -/
def numInc (v : Nat) : Nat := if v = 0xFFFFFFFF then 1 else v + 1

/-- A release while the role is silent counts ROLE_SILENT, one without a key NO_KEY (R287, R288). -/
def State.pubMuted (s : State) (w : List Nat) : State :=
  let t := if s.sends then s else s.pubBump 6
  if s.pubKeyed w then t else t.pubBump 5

/-- The numbers of the first frame since sending began, with its place in the schedule: those of the handed-over state with equal
content go on, other content is its next state, and without it they start at 1 and 0 (R279, R289). -/
def State.firstNumbers (s : State) (w : List Nat) (y : PubSt) : Nat × Nat × Nat :=
  match y.handed with
  | none => (1, 0, 0)
  | some h => if h.content = s.pubCrc w y then (h.stNum, numInc h.sqNum, 1) else (numInc h.stNum, 0, 0)

/-- The next frame of a publication is numbered by its schedule place and sent. -/
def State.pubPut (s : State) (p : Nat) (w : List Nat) (x : Nat × Nat × Nat) : State :=
  (s.modPub p (fun y => { y with
    numbered := true, noKey := false, handed := none, stNum := x.1, sqNum := x.2.1, j := x.2.2, scheduled := true
    due := s.now + pbInterval w x.2.2 })).gooseSend p w

/-- A change gets its numbers, or none while the role is silent or the node holds no key (R279, R287, R288); the first since sending
began has those of the handed-over state (R289, DEDUCED: log 267). -/
def State.pubNumber (s : State) (p : Nat) (w : List Nat) : State :=
  if !s.sends || !s.pubKeyed w then s.modPub p (fun y => { y with noKey := y.noKey || !s.pubKeyed w, scheduled := false })
  else
    let y := s.pubOf p
    s.pubPut p w (if y.numbered then (numInc y.stNum, 0, 0) else s.firstNumbers w y)

/-- Whether SIM or TEST of the entry differ from what is sent (R280). -/
def State.modeDue (s : State) (p : Nat) (w : List Nat) : Bool :=
  pbSim w != (s.pubOf p).sim || pbTest w != (s.pubOf p).test

/-- A release (R278 to R281): dropped when it equals the last released content, else a change. The Bool is whether it was a
change. -/
def State.pubRelease (s : State) (p : Nat) (w : List Nat) (content : List Bool) (stamp : Time) : Bool × State :=
  let y := s.pubOf p
  let same := y.has && y.content == content
  if same && !s.modeDue p w then (false, (s.pubBump 4).pubMuted w)
  else
    let s := (s.pubMuted w).modPub p (fun y => { y with
      has := true, content := content, stamp := if same then s.now else stamp, sim := pbSim w, test := pbTest w })
    (true, s.pubNumber p w)

/-! ### Output sets (R277, R278) -/

/-- A Q image with an output set's bits over it. -/
def overQ (q : Nat → Bool) (qs : List (Nat × Bool)) (ix : Nat) : Bool :=
  match qs.find? (fun b => b.1 == ix) with
  | some b => b.2
  | none => q ix

/-- The released image once the sets of a class held before `id` are released, forces on top. -/
def State.qBefore (s : State) (cls id : Nat) (ix : Nat) : Bool :=
  let sets := (s.slp.held.filter (fun o => o.cls == cls && decide (o.id < id))).map (fun o => o.qs)
  forced s.slp.forces 1 ix (sets.foldl overQ (fun i => Tbl.get false i s.slp.rel) ix)

/-- Publications whose content an output set changes, with the content it will give them (R277). -/
def State.pubChanges (s : State) (o : OutSet) : List (Nat × List Bool) :=
  let q0 := s.qBefore o.cls o.id
  let q1 := fun ix => forced s.slp.forces 1 ix (overQ q0 o.qs ix)
  ((s.pubsOn.filter (fun p => pbSystem p.2 && s.pubReads p.2 o.qs)).map
    (fun p => (p.1, s.pubContent p.2 q0, s.pubContent p.2 q1))).filterMap
    (fun x => if x.2.1 == x.2.2 then none else some (x.1, x.2.2))

/-- FRAME_STAGE: a frame staged for each publication that a held set changes (R277). -/
def State.pubStage (s : State) (o : OutSet) : State :=
  (s.pubChanges o).foldl (fun s x =>
    let s : State := { s with pub := { s.pub with staged := s.pub.staged ++ [(⟨x.1, o.id, x.2, o.stamp⟩ : PubStaged)] } }
    s.pubBump 2) s

/-- A staged frame's entry, while it is enabled. -/
def State.pubIfOn (s : State) (p : Nat) : Option (List Nat) := (s.pubsOn.find? (fun x => x.1 == p)).map Prod.snd

/-- FRAME_RELEASE of the frames staged with an output set, in set order (R278). -/
def State.pubReleaseSet (s : State) (id : Nat) : State :=
  let mine := s.pub.staged.filter (fun f => f.set == id)
  let s := { s with pub := { s.pub with staged := s.pub.staged.filter (fun f => f.set != id) } }
  mine.foldl (fun s f => match s.pubIfOn f.pub with
    | some w => (s.pubRelease f.pub w f.content f.stamp).2
    | none => s) s

/-- The staged frames of discarded sets are discarded (R278). -/
def State.pubDiscardSets (s : State) (gone : List OutSet) : State :=
  let bad := fun (f : PubStaged) => gone.any (fun o => o.id == f.set)
  let n := (s.pub.staged.filter bad).length
  { s with pub := { s.pub with staged := s.pub.staged.filter (fun f => !bad f) } }.bumpBy (F.PUB_CNT_COUNT.nth 3) n

/-- An output set released: its staged frames go, or, where it was never held, frames are formed now (R258, R278). -/
def State.releaseSet (s : State) (o : OutSet) (held : Bool) : State :=
  if held then (s.releaseQ o).pubReleaseSet o.id
  else
    let ch := s.pubChanges o
    let s := s.releaseQ o
    ch.foldl (fun s x => match s.pubIfOn x.1 with
      | some w => (s.pubRelease x.1 w x.2 o.stamp).2
      | none => s) s

/-- OUTPUT_SET_RELEASE: every held set that may go is released in order (R258). -/
def State.releaseHeld (s : State) : State :=
  let go := releasable s s.slp.held []
  let s : State := { s with slp := { s.slp with held := s.slp.held.filter (fun o => !go.any (fun g => g.id == o.id)) } }
  go.foldl (fun s o => s.releaseSet o true) s

/-- A change of the forces on Q: publications whose content it changes release the new one at once (R265, R278). -/
def State.pubForced (s0 s : State) : State :=
  (s.pubsOn.filter (fun p => pbSystem p.2)).foldl (fun s p =>
    if s0.pubContent p.2 s0.relQ == s.pubContent p.2 s.relQ then s
    else (s.pubRelease p.1 p.2 (s.pubContent p.2 s.relQ) s.now).2) s

/-! ### Retransmission and modes (R280) -/

/-- GOOSE_RETRANSMIT: the next frame of the schedule, sqNum one more (R279, R280). -/
def gooseRetransmit (p : Nat) (s : State) : State :=
  match s.pubIfOn p with
  | none => s
  | some w =>
    let y := s.pubOf p
    if pbSv w || !y.scheduled || !s.sends then s
    else if !s.pubKeyed w then s.modPub p (fun y => { y with noKey := true, scheduled := false })
    else
      let s := s.advanceTo y.due
      let s := s.modPub p (fun y => { y with
        sqNum := numInc y.sqNum, j := y.j + 1, due := y.due + pbInterval w (y.j + 1) })
      (s.gooseSend p w).pubFlush

/-- A change of SIM or TEST takes effect at once when nothing is staged (R280). -/
def State.pubModeNow (s : State) (p : Nat) : State :=
  match s.pubIfOn p with
  | none => s
  | some w =>
    if s.pub.staged.any (fun f => f.pub == p) || !s.modeDue p w then s
    else if (s.pubOf p).has && !pbSv w then (s.pubRelease p w (s.pubOf p).content s.now).2.pubFlush
    else s.modPub p (fun y => { y with sim := pbSim w, test := pbTest w })

/-- PUB.CMD ENABLE: an enabled publication begins anew; a disabled one sends nothing (R279). -/
def State.pubEnableSet (s : State) (p : Nat) (en : Bool) : State :=
  let w := s.pubEnt p
  let s := s.setPubEnt p (listSet 0 1 (putBits 63 63 (b2n en) (word w 1)) w)
  if en = pbEn w then s
  else
    let s := { s with pub := { s.pub with
      staged := s.pub.staged.filter (fun f => f.pub != p), svHeld := s.pub.svHeld.filter (fun h => h.pub != p) } }
    s.modPub p (fun y => { ({} : PubSt) with
      sim := pbSim w, test := pbTest w, sentSt := y.sentSt, sentSq := y.sentSq, lastTx := y.lastTx, frames := y.frames })

/-- What follows a change of the keys: a publication whose node lost its key enters NO_KEY; one in NO_KEY whose node has one again
sends its last released content as a change, after the handed-over stNum where it has not sent since (R287, R289, R418). -/
def State.keysFollow (s0 s : State) : State :=
  ((s.pubsOn.filter (fun p => pbAuth p.2 != 0)).foldl (fun s p =>
    let y := s.pubOf p.1
    if !s.pubKeyed p.2 then
      (if s0.pubKeyed p.2 then s.modPub p.1 (fun y => { y with noKey := true, scheduled := false }) else s)
    else if !y.noKey then s
    else
      let s := s.modPub p.1 (fun y => { y with
        noKey := false, numbered := y.numbered || y.handed.isSome
        stNum := if y.numbered then y.stNum else (y.handed.map (fun h => h.stNum)).getD y.stNum })
      if pbSv p.2 || !y.has || !s.sends then s else s.pubNumber p.1 p.2) s).pubFlush

/-! ### Ring publications (R282, R336, R337) -/

/-- Bits of a value buffer, least significant first. -/
def octetBits (o : Octets) : List Bool := o.flatMap (fun b => lsbFirst 8 b.toNat)

/-- The publication that a ring feeds. -/
def State.ringPub (s : State) (r : Nat) : Option (Nat × List Nat) :=
  s.pubsOn.find? (fun p => !pbSv p.2 && pbRing p.2 && pbRingIx p.2 == r)

/-- The entry by which a released descriptor is published: of an enabled publication, and of one that the fall of its slice
disabled, whose work in flight completes (R348). -/
def State.ringPubIf (s : State) (h : PubHeld) : Option (List Nat) :=
  if s.sliceState h.slice = 5 ∧ s.flag F.PUB_CTL_EN ∧ pbValid (s.pubEnt h.pub) then some (s.pubEnt h.pub) else s.pubIfOn h.pub

/-- A released descriptor: a change, or UNCHANGED, and its completion (R282, R337). -/
def State.ringRelease (s : State) (h : PubHeld) : State :=
  match s.ringPubIf h with
  | none => s.txComplete h.slice h.ring h.gen h.desc 1 8 s.gt64 (some 0)
  | some w =>
    let sent := s.sends && s.pubKeyed w
    let x := s.pubRelease h.pub w h.content s.now
    let s := x.2
    let st := if x.1 && sent then (s.pubOf h.pub).stNum else 0
    s.txComplete h.slice h.ring h.gen h.desc 1 (if x.1 then 0 else 8) s.gt64 (some st)

/-- Whether a range of DRAM holds an uncorrectable error (R461). -/
def State.dramBad (s : State) (a n : Nat) : Bool := s.hlt.poisoned.any (fun p => decide (p < a + n) && decide (a < p + 8))

/-- PUB_DESCRIPTOR_FETCH: the head descriptor is taken, held on its dependency, or released; one outside the slice's windows fails,
and one whose instant was refuted is discarded (R39, R282, R330, R340). -/
def pubDescriptorFetch (r : Nat) (s : State) : State :=
  let rw_ := s.sltEnt 2 r
  let n := rgSlice rw_
  let g := s.ring r
  match s.ringPub r with
  | none => s
  | some pw =>
    if !seValid rw_ || rgKind rw_ != 2 || s.ringState r != 1 || g.posted == 0 || g.held || s.sliceState n != 2
        || decide (slInflight (s.sltEnt 0 n) ≤ (s.slice n).inflightNow) then s
    else
      let i := g.head
      let a := s.descAddr r i
      let va := s.rd64 a
      let vb := s.rd64 (a + 8) % 65536
      let need := (sumN ((s.pubMembs pw.2).map mbWidth) + 7) / 8
      let s := s.modSlice n (fun x => { x with inflightNow := x.inflightNow + 1 })
      let gen := (s.slice n).gen
      if g.goneAt i then ((s.pubBump 7).frameWithdrawn n r i).txComplete n r gen i 1 4 0 (some 0)
      else if !s.dramOwned n a 32 then s.txComplete n r gen i 1 1 0 (some 0)
      else if vb != need then s.txComplete n r gen i 1 2 0 (some 0)
      else if !s.dramOwned n va vb then s.txComplete n r gen i 1 1 0 (some 0)
      else if s.dramBad va vb then s.txComplete n r gen i 1 7 0 (some 0)
      else
        let bits := (octetBits (memTake s.mem vb va)).take (sumN ((s.pubMembs pw.2).map mbWidth))
        let h : PubHeld := ⟨r, n, gen, i, pw.1, g.depOf i, bits⟩
        if s.depFree h.dep then (s.ringRelease h).pubFlush
        else { s with pub := { s.pub with held := s.pub.held ++ [h] } }.modRing r (fun g => { g with held := true })

/-- Ring descriptors whose dependency is confirmed are released, in the order they were taken, none before a held act on an earlier
instant (R41, R282). -/
def State.ringsConfirm (s : State) : State :=
  let go := s.pub.held.filter (fun h => s.depFree h.dep)
  go.foldl State.ringRelease { s with pub := { s.pub with held := s.pub.held.filter (fun h => !s.depFree h.dep) } }

/-- Ring descriptors whose dependency is refuted are discarded, with an event to the slice (R39, R282). -/
def State.ringsRefute (s : State) (l n : Nat) : State :=
  let bad := fun (h : PubHeld) => depFalls l n h.dep
  let gone := s.pub.held.filter bad
  let s := { s with pub := { s.pub with held := s.pub.held.filter (fun h => !bad h) } }
  gone.foldl (fun s h =>
    ((s.pubBump 7).frameWithdrawn h.slice h.ring h.desc).txComplete h.slice h.ring h.gen h.desc 1 4 0 (some 0)) s

/-! ### SV publications (R283, R284) -/

/-- The quality of a published sample from its sample word (R284). -/
def pubQual (w : Nat) (bad test : Bool) : Qual :=
  let st := if bad then 3 else bits 47 46 w
  let cls := bits 45 44 w
  let tst := (!bad && bit 41 w) || test
  if st = 3 then ⟨.invalid, tst, false, false, false, 0x10⟩
  else if st = 2 then ⟨.questionable, tst, false, false, true, 0xA0⟩
  else ⟨if cls = 0 then .good else .questionable, tst, false, bit 43 w, bit 42 w || bit 36 w, bits 55 48 w⟩

/-- A published channel at N (R283, R284). -/
def State.svChan (s : State) (l n c : Nat) (test : Bool) : SvChan :=
  let j := c - s.chBase l
  let a := lineAddr (s.confLine l n + 1 + j / 8) (j % 8)
  let bad := s.hlt.poisoned.contains a || decide (n < (s.lattice l).n0)
  let w := s.rd64 a
  ⟨if bad || bits 47 46 w == 3 then 0 else signed 32 (w % 2 ^ 32), pubQual w bad test⟩

/-- The ASDU of instant N (R283). -/
def State.svAsdu (s : State) (p : Nat) (w : List Nat) (l n : Nat) (test : Bool) : Asdu :=
  let sy := s.get F.TBU_STATUS_SYNCH
  { svId := s.textOf 0 p, datSet := if (s.textOf 1 p).isEmpty then none else some (s.textOf 1 p), smpCnt := n % s.latRate l, confRev := pbConfRev w, smpSynch := min sy 2, smpRate := some (s.latRate l)
    gmId := if sy = 2 then some (s.get F.TBU_GM_ID_GM_ID) else none, seqLen := 8 * pbNMemb w
    chans := (s.pubMembs w).map (fun m => s.svChan l n (mbIdx m % 8192) test) }

/-- SV_FRAME_FORM on a CONFIRMED instant (R283): an aligned instant begins a frame, the last ASDU's instant forms it; where sending
was not allowed at the first, none is formed (R289). -/
def State.svConfirm (s : State) (l n : Nat) : State :=
  (s.pubsOn.filter (fun p => pbSv p.2 && pbLat p.2 == l)).foldl (fun s p =>
    let w := p.2
    let k := max 1 (pbNoAsdu w)
    let s := if n % k = 0 then s.modPub p.1 (fun y => { y with svRun := s.sends, svNext := n }) else s
    let y := s.pubOf p.1
    if n % k != k - 1 || y.svNext + (k - 1) != n then s
    else if !s.sends then ((s.modPub p.1 (fun y => { y with svRun := false })).pubMuted w)
    else if !y.svRun then s
    else if !s.pubKeyed w then (s.modPub p.1 (fun y => { y with noKey := true })).pubMuted w
    else
      let s := s.modPub p.1 (fun y => { y with noKey := false, sim := pbSim w, test := pbTest w })
      let as := (List.range k).map (fun i => s.svAsdu p.1 w l (y.svNext + i) (pbTest w))
      let v : SvPdu := { wellFormed := true, sim := pbSim w, appid := wbits w 0 34 19, noAsdu := k, asdus := as, ext := none }
      { s with pub := { s.pub with svHeld := s.pub.svHeld ++ [(⟨p.1, l, n, v⟩ : SvHeld)] } }) s

/-- A formed SV frame is sent, unless its publication may no longer send (R283, R287, R288). -/
def State.svSend (s : State) (h : SvHeld) : State :=
  match s.pubIfOn h.pub with
  | none => s
  | some w =>
    if !s.sends || !s.pubKeyed w then s
    else s.pubSend h.pub w (.sv { h.pdu with ext := s.pubExt w (.sv h.pdu) }) 0x88BA 0 (h.n % s.latRate h.lat)

/-- SV frames that wait for no held act on an earlier instant are sent, in the order they were formed (R41). -/
def State.svRelease (s : State) : State :=
  let free := fun h : SvHeld => s.depFree [(h.lat, h.n)]
  (s.pub.svHeld.filter free).foldl State.svSend { s with pub := { s.pub with svHeld := s.pub.svHeld.filter (fun h => !free h) } }

/-! ### Role (R288, R289) -/

/-- Sending stops: no new frame is started, schedules end (R288). -/
def State.pubSilence (s : State) : State :=
  let s := forN 11 (fun s p => s.modMac p (fun m => { m with
    q := m.q.filter (fun f => match f.src with | .pub _ => false | _ => true)
    txDelay := m.txDelay.filter (fun d => match d.2.src with | .pub _ => false | _ => true) })) s
  { s with pub := { s.pub with ready := [], svHeld := [], st := s.pub.st.map (fun p => (p.1, { p.2 with scheduled := false, svRun := false })) } }

/-- The first frame of each enabled GOOSE publication when this module begins to send (R289). -/
def State.pubTakeover (s : State) : State :=
  let s := (s.pubsOn.filter (fun p => !pbSv p.2)).foldl (fun s p =>
    let w := p.2
    let y0 := s.pubOf p.1
    let content := if y0.has then y0.content else s.pubContent w s.relQ
    if !y0.has && pbRing w then s
    else
      let s := s.modPub p.1 (fun y => { y with
        has := true, content := content, stamp := if y.has then y.stamp else s.now, sim := pbSim w, test := pbTest w })
      if !s.pubKeyed w then s.modPub p.1 (fun y => { y with noKey := true, numbered := false })
      else
        let y := s.pubOf p.1
        let x := s.firstNumbers w y
        let differs := y.handed.isSome && x.2.2 == 0
        (s.modPub p.1 (fun y => { y with stamp := if differs then s.now else y.stamp })).pubPut p.1 w x) s
  s.pubFlush

/-- GOOSE_RETRANSMIT. -/
def execGooseRetransmit (pub : Nat) (s : State) : Result := .next (gooseRetransmit pub s)
/-- PUB_DESCRIPTOR_FETCH. -/
def execPubDescriptorFetch (ring : Nat) (s : State) : Result := .next (pubDescriptorFetch ring s)

end Sys2Proof.Machine
end

