-- ==== Sys2Proof/Machine/Recorder.lean ====
section
/-! DEFINITION. The Disturbance Recorder Engine (R296 to R319): binary values, triggers, instance states, rows and the record
store in MRAM. -/
namespace Sys2Proof.Machine

/-! ### Tables (R320): by 16384 × table + index -/

/-- The words of a recorder table entry: 0 instance, 1 trigger, 2 analogue select, 3 binary select. -/
def State.dreEnt (s : State) (t i : Nat) : List Nat := Tbl.get [] (16384 * t + i) s.dre.tab
/-- The state with a recorder table entry written. -/
def State.setDreEnt (s : State) (t i : Nat) (ws : List Nat) : State :=
  { s with dre := { s.dre with tab := Tbl.set [] (16384 * t + i) (maskWords (dreBits t) ws) s.dre.tab } }
/-- VALID of an instance. -/
def dvValid (w : List Nat) : Bool := wbit w 0 63
/-- LATTICE of an instance. -/
def dvLat (w : List Nat) : Nat := wbits w 0 62 61
/-- DECIM of an instance as a count. -/
def dvDecim (w : List Nat) : Nat := wbits w 0 60 57 + 1
/-- SLICE of an instance. -/
def dvSlice (w : List Nat) : Nat := wbits w 0 56 50
/-- RETRIG of an instance. -/
def dvRetrig (w : List Nat) : Bool := wbit w 0 49
/-- FULL_MODE of an instance: true stops. -/
def dvFullMode (w : List Nat) : Bool := wbit w 0 48
/-- ARM_INIT of an instance. -/
def dvArmInit (w : List Nat) : Bool := wbit w 0 47
/-- XGROUP of an instance. -/
def dvXgroup (w : List Nat) : Nat := wbits w 0 46 39
/-- XSEND of an instance. -/
def dvXsend (w : List Nat) : Bool := wbit w 0 38
/-- XRECV of an instance. -/
def dvXrecv (w : List Nat) : Bool := wbit w 0 37
/-- CFG_ID of an instance. -/
def dvCfgId (w : List Nat) : Nat := wbits w 0 31 0
/-- A_COUNT of an instance. -/
def dvACount (w : List Nat) : Nat := wbits w 1 51 39
/-- B_COUNT of an instance. -/
def dvBCount (w : List Nat) : Nat := wbits w 1 24 10
/-- PRE of an instance. -/
def dvPre (w : List Nat) : Nat := wbits w 2 63 40
/-- POST of an instance. -/
def dvPost (w : List Nat) : Nat := wbits w 2 39 16
/-- HOLDOFF of an instance in ms. -/
def dvHoldoff (w : List Nat) : Nat := wbits w 2 15 0
/-- First MRAM offset of an instance's area. -/
def dvBase (w : List Nat) : Nat := wbits w 3 63 48 * 0x10000
/-- SIZE of an instance in octets. -/
def dvSize (w : List Nat) : Nat := wbits w 3 47 32 * 0x10000
/-- LEN_MAX of an instance. -/
def dvLenMax (w : List Nat) : Nat := wbits w 4 63 40
/-- NBUF of an instance. -/
def dvNbuf (w : List Nat) : Nat := wbits w 4 39 28
/-- ROW_BYTES (R301). -/
def dvRowBytes (w : List Nat) : Nat :=
  8 * (1 + (dvACount w + 1) / 2 + (dvACount w + 15) / 16 + (dvBCount w + 63) / 64)
/-- The lattice channels of an instance's rows. -/
def State.dvChans (s : State) (w : List Nat) : List Nat :=
  (List.range (dvACount w)).map (fun j => wbits (s.dreEnt 2 (wbits w 1 63 52 + j)) 0 12 0)
/-- The binary operands of an instance's rows: space code and index. -/
def State.dvBins (s : State) (w : List Nat) : List (Nat × Nat) :=
  (List.range (dvBCount w)).map (fun j =>
    let e := s.dreEnt 3 (wbits w 1 38 25 + j)
    (wbits e 0 24 21, wbits e 0 16 0))
/-- The instances of a lattice while the engine runs. -/
def State.dreInsts (s : State) (l : Nat) : List (Nat × List Nat) :=
  if s.flag F.DRE_CTL_EN then s.dre.tab.filter (fun p => decide (p.1 < 64) && dvValid p.2 && dvLat p.2 == l) else []
/-- A recorder instance's state. -/
def State.recOf (s : State) (i : Nat) : RecInst := Tbl.get {} i s.dre.inst
/-- The state with a recorder instance changed. -/
def State.modRec (s : State) (i : Nat) (f : RecInst → RecInst) : State :=
  { s with dre := { s.dre with inst := Tbl.mod {} i f s.dre.inst } }
/-- Count one event of the recorder (R321). -/
def State.dreBump (s : State) (n : Nat) : State := s.bump (F.DRE_CNT_COUNT.nth n)
/-- EN of a trigger. -/
def dtEn (w : List Nat) : Bool := wbit w 0 63
/-- INST of a trigger. -/
def dtInst (w : List Nat) : Nat := wbits w 0 62 57
/-- TYPE of a trigger. -/
def dtType (w : List Nat) : Nat := wbits w 0 56 55
/-- MODE of a trigger. -/
def dtMode (w : List Nat) : Nat := wbits w 0 54 53
/-- LCHAN or QIDX of a trigger. -/
def dtIdx (w : List Nat) : Nat := wbits w 0 52 40
/-- The trigger entries of a lattice with their indices: enabled, their instance in use. -/
def State.dreTrigs (s : State) (l : Nat) : List (Nat × List Nat) :=
  ((s.dre.tab.filter (fun p => p.1 / 16384 == 1)).map (fun p => (p.1 % 16384, p.2))).filter
    (fun p => dtEn p.2 && dvValid (s.dreEnt 0 (dtInst p.2)) && dvLat (s.dreEnt 0 (dtInst p.2)) == l)

/-! ### Record store (R299 to R301, R315) -/

/-- A word of MRAM written; an error of the word goes. -/
def State.mramWr (s : State) (a v : Nat) : State :=
  { s.wr64 a v with hlt := { s.hlt with poisoned := s.hlt.poisoned.filter (fun p => p != a) } }
/-- Words written into MRAM from an address up. -/
def State.mramWrAll (s : State) (a : Nat) (ws : List Nat) : State :=
  ws.zipIdx.foldl (fun s p => s.mramWr (a + 8 * p.2) p.1) s
/-- The address of a directory entry (R300). -/
def dirAddr (w : List Nat) (k : Nat) : Nat := mramBase + dvBase w + k * 384
/-- The address of a row slot (R300). -/
def rowAddr (w : List Nat) (k j : Nat) : Nat :=
  mramBase + dvBase w + dvNbuf w * 384 + k * dvLenMax w * dvRowBytes w + j * dvRowBytes w
/-- DSTATE of a buffer. -/
def State.dirState (s : State) (w : List Nat) (k : Nat) : Nat := bits 63 62 (s.rd64 (dirAddr w k))
/-- RECNO of a buffer. -/
def State.dirRecno (s : State) (w : List Nat) (k : Nat) : Nat := bits 63 32 (s.rd64 (dirAddr w k + 8))
/-- SEQ after a change of a directory entry whose word 0 is `v`: the next even value, whatever stood there before (R193). -/
def nextSeq (v : Nat) : Nat := (v / 2 * 2 + 2) % 2 ^ 32
/-- DSTATE of a buffer changed, SEQ with it (R193, R315). -/
def State.dirTo (s : State) (w : List Nat) (k st : Nat) : State :=
  let w0 := s.rd64 (dirAddr w k)
  s.mramWr (dirAddr w k) (putBits 63 62 st (putBits 31 0 (nextSeq w0) w0))
/-- The GT64 of the first trigger of a buffer's record. -/
def State.dirTrig (s : State) (w : List Nat) (k : Nat) : Nat :=
  let a := dirAddr w k + 128
  s.rd64 (a + 8) % 65536 * 2 ^ 48 + s.rd64 a / 65536

/-- The directory entry of the open record (R315, R316): RECORDING, or COMMITTED with its marks. -/
def State.dirWrite (s : State) (i : Nat) (w : List Nat) (dst : Nat) (trunc abort : Bool) : State :=
  let x := s.recOf i
  let l := dvLat w
  let a := dirAddr w x.buf
  let seq := nextSeq (s.rd64 a)
  let xt := match x.trigs.head? with | some t => t.2 == 0xFFFE | none => false
  let hdr := [place 63 62 dst + place 61 61 (b2n x.preShort) + place 60 60 (b2n trunc) + place 59 59 (b2n abort)
      + place 58 58 (b2n xt) + place 57 53 x.trigs.length + seq,
    place 63 32 x.recNo + dvCfgId w, x.firstN, place 63 40 x.firstSlot + place 39 16 x.rows,
    place 63 40 x.preRows + place 39 36 (dvDecim w - 1) + place 35 33 (s.get (F.SLE_LAT_CFG_RATE.nth l))
      + place 32 20 (dvACount w) + place 19 5 (dvBCount w) + place 4 4 (s.get (F.SLE_LAT_CFG_F_NOM.nth l)),
    place 63 48 (dvRowBytes w / 8) + place 47 46 x.synchTrig + place 45 45 x.utcValid + place 44 37 x.utcOff,
    Time.gt64 (tOf (s.latRate l) x.firstN), if dst = 3 then s.gt64 else 0, 0, 0, 0, 0, 0, 0, 0, 0]
  let list := x.trigs.flatMap (fun t => [Time.gt96 t.1 % 2 ^ 64, Time.gt96 t.1 / 2 ^ 64 + place 47 32 t.2])
  s.mramWrAll a (hdr ++ list)

/-! ### Instance states (R310 to R314) -/

/-- One event of an instance to its slice and to slice 0 (R310, R338). -/
def State.recEvent (s : State) (i : Nat) (w : List Nat) (code param param2 : Nat) : State :=
  let s := s.event 0 code i param param2
  if dvSlice w = 0 then s else s.event (dvSlice w) code i param param2

/-- A new current buffer (R314): the lowest FREE one, else the oldest COMMITTED record's unless FULL_MODE stops, else none
and the instance is FULL. -/
def State.takeBuffer (s : State) (i : Nat) (w : List Nat) (st : Nat) : State :=
  let ks := List.range (dvNbuf w)
  let put := fun (s : State) (k : Nat) => (s.dirTo w k 1).modRec i (fun x => { x with state := st, buf := k, slot := 0, history := 0 })
  match ks.find? (fun k => s.dirState w k == 0) with
  | some k => put s k
  | none =>
    let old := (ks.filter (fun k => s.dirState w k == 3)).foldl (fun (a : Option Nat) k => match a with
      | some j => if s.dirRecno w k < s.dirRecno w j then some k else some j
      | none => some k) none
    match old, dvFullMode w with
    | some k, false => put ((s.dreBump 5).recEvent i w 0x000A (s.dirRecno w k) (s.dirTrig w k)) k
    | _, _ => s.modRec i (fun x => { x with state := 4 })

/-- RECORD_COMMIT (R310, R315): the final header, one event, a new buffer, HOLDOFF or ARMED. -/
def State.recCommit (s : State) (i : Nat) (w : List Nat) (trunc abort : Bool) : State :=
  let x := s.recOf i
  let tEnd := tOf (s.latRate (dvLat w)) (x.firstN + (x.rows - 1) * dvDecim w)
  let s := ((s.dirWrite i w 3 trunc abort).dreBump 2).recEvent i w 0x0007 x.recNo
    (match x.trigs.head? with | some t => Time.gt64 t.1 | none => 0)
  let s := s.modRec i (fun x => { x with tEnd := tEnd })
  if abort then s.modRec i (fun x => { x with state := 0 }) else s.takeBuffer i w (if dvHoldoff w = 0 then 1 else 3)

/-- The row of a trigger of an instant: the first at or after it, or for a cross-trigger the last at or before it (R306,
R309). -/
def trigRow (w : List Nat) (n source : Nat) : Nat :=
  let d := dvDecim w
  if source = 0xFFFE then n / d * d else (n + d - 1) / d * d

/-- A record opens at row r (R311). -/
def State.recOpen (s : State) (i : Nat) (w : List Nat) (r : Nat) (t : Time) (source : Nat) : State :=
  let x := s.recOf i
  let d := dvDecim w
  let since := if x.history != 0 && decide (r ≤ x.lastN) then min x.history ((x.lastN - r) / d + 1) else 0
  let before := x.history - since
  let pre := min (dvPre w) before
  let first := if since = 0 then r - pre * d else x.lastN + d - (since + pre) * d
  let len := max 1 (dvLenMax w)
  let s := s.modRec i (fun x => { x with
    state := 2, firstN := first, firstSlot := (x.slot + 2 * len - since - pre) % len, preRows := pre, rows := since + pre
    endN := r + dvPost w * d, preShort := decide (before < dvPre w), trigs := [(t, source)]
    synchTrig := s.get F.TBU_STATUS_SYNCH, utcValid := s.get F.TBU_STATUS_UTC_VALID, utcOff := s.get F.TBU_STATUS_UTC_OFFSET
    recNo := x.nextRec, nextRec := (x.nextRec + 1) % 2 ^ 32 })
  s.dirWrite i w 2 false false

/-- A record whose end row is written, or that has reached LEN_MAX rows, is committed (R310). -/
def State.recEnd (s : State) (i : Nat) (w : List Nat) : State :=
  let x := s.recOf i
  if x.state != 2 || x.rows == 0 then s
  else
    let last := x.firstN + (x.rows - 1) * dvDecim w
    if x.endN ≤ last then
      (s.modRec i (fun x => { x with rows := (x.endN - x.firstN) / dvDecim w + 1 })).recCommit i w false false
    else if dvLenMax w ≤ x.rows then s.recCommit i w true false
    else s

/-- The instant with the largest sample time at or before a time (R309). -/
def instantAt (rate : Nat) (t : Time) : Nat :=
  let k := t * rate / secUnits
  if tOf rate (k + 1) ≤ t then k + 1 else if tOf rate k ≤ t then k else k - 1

/-- Cross-triggers of a trigger that takes effect: to every other instance that receives and shares a group (R309). -/
def State.crossSend (s : State) (i : Nat) (w : List Nat) (t : Time) : State :=
  if !dvXsend w then s
  else
    let rcv := s.dre.tab.filter (fun p => decide (p.1 < 64) && p.1 != i && dvValid p.2 && dvXrecv p.2 && (dvXgroup p.2 &&& dvXgroup w) != 0)
    { s with dre := { s.dre with
      cross := s.dre.cross ++ rcv.map (fun p => (⟨p.1, instantAt (s.latRate (dvLat p.2)) t, t, 0xFFFE⟩ : Trig)) } }

/-- TRIGGER_TAKE_EFFECT (R310, R312, R313). Where no record takes the trigger the event's RECNO is that of the instance's newest
record (R338; DEDUCED, log 283). -/
def State.trigEffect (s : State) (g : Trig) : State :=
  let i := g.inst
  let w := s.dreEnt 0 i
  let x := s.recOf i
  if !dvValid w || x.state == 0 then s
  else
    let s := s.dreBump 1
    let s := if g.source = 0xFFFE then s else s.crossSend i w g.t
    let r := trigRow w g.n g.source
    match x.state with
    | 1 => s.recOpen i w r g.t g.source
    | 2 =>
      let s := if x.trigs.length < 16 then s.modRec i (fun x => { x with trigs := x.trigs ++ [(g.t, g.source)] })
        else s.dreBump 7
      let s := if dvRetrig w then s.modRec i (fun x => { x with endN := max x.endN (r + dvPost w * dvDecim w) }) else s
      s.dirWrite i w 2 false false
    | 3 => (s.dreBump 3).recEvent i w 0x0008 x.recNo (Time.gt64 g.t)
    | _ => (s.dreBump 4).recEvent i w 0x0009 x.recNo (Time.gt64 g.t)

/-- The order in which triggers of one CONFIRM are taken: time, entry index, manual, cross (R309). -/
def trigKey (g : Trig) : List Nat :=
  [g.t, if g.source = 0xFFFF then 1024 else if g.source = 0xFFFE then 1025 else g.source]
/-- A trigger placed by that order. -/
def insertTrig (g : Trig) : List Trig → List Trig
  | [] => [g]
  | h :: t => if lexLt (trigKey g) (trigKey h) then g :: h :: t else h :: insertTrig g t

/-- REC_ARM (R310): a current buffer, entries unprimed. -/
def State.recArmNow (s : State) (i : Nat) : State :=
  let w := s.dreEnt 0 i
  let un := fun (t : Tbl TrigSt) => t.map (fun p => if dtInst (s.dreEnt 1 p.1) = i then (p.1, { p.2 with primed := false }) else p)
  let s : State := { s with dre := { s.dre with
    trig := (un s.dre.trig).filter (fun p => p.2 != {}), saved := s.dre.saved.map (fun x => (x.1, x.2.1, (un x.2.2).filter (fun p => p.2 != {})))
    savedLvl := s.dre.savedLvl.map (fun x => (x.1, x.2.1, (un x.2.2).filter (fun p => p.2 != {}))) } }
  s.takeBuffer i w 1

/-- REC_DISARM (R310). -/
def State.recDisarmNow (s : State) (i : Nat) : State :=
  let w := s.dreEnt 0 i
  let x := s.recOf i
  match x.state with
  | 0 => s
  | 2 => s.recCommit i w false true
  | 4 => s.modRec i (fun x => { x with state := 0 })
  | _ => (s.dirTo w x.buf 0).modRec i (fun x => { x with state := 0 })

/-- A committed buffer released; an instance that is FULL takes it (R310, R316). -/
def State.recReleaseBuf (s : State) (i k : Nat) : State :=
  let w := s.dreEnt 0 i
  let s := s.dirTo w k 0
  if (s.recOf i).state = 4 then s.takeBuffer i w 1 else s

/-! ### Rows (R297, R298, R301, R302) -/

/-- A binary value of a row of N (R298). -/
def State.rowBin (s : State) (l n sp ix : Nat) : Bool :=
  let cf := s.slp.confirmed
  match sp with
  | 0 => Tbl.get false ix s.slp.i
  | 1 => s.relQ ix
  | 2 => Tbl.get false ix cf.m
  | 3 => (Tbl.get ({} : Timer) ix cf.t).q
  | 4 => (Tbl.get ({} : Counter) ix cf.c).q
  | 5 => (Tbl.get ({} : Edge) ix cf.e).b
  | 6 => (match s.guardLat ix with
    | some k => if k = l then (s.gAt l n).contains ix else (s.gConf k).contains ix
    | none => false)
  | 7 => s.flag F.TMC_MODULE_ID_SAFETY_EN && Tbl.get false ix s.slp.s
  | 8 => bit (ix % 64) (Tbl.get 0 (ix / 64) (s.fImage none 0))
  | 9 => if 2 ≤ ix ∧ ix ≤ 7 then false else bit ix (s.kImage { stamp := s.now })
  | _ => false

/-- The binary values of every instance of the lattice for N (R298). -/
def State.takeBins (s : State) (l n : Nat) : State :=
  let new := (s.dreInsts l).map (fun p =>
    (⟨p.1, n, (s.dvBins p.2).map (fun b => s.rowBin l n b.1 b.2)⟩ : BinRow))
  { s with dre := { s.dre with bins := s.dre.bins.filter (fun b => !(b.n == n && new.any (fun x => x.inst == b.inst))) ++ new } }

/-- Values packed two to a word, the first in [31:0]. -/
def pairWords : List Nat → List Nat
  | [] => []
  | [a] => [a]
  | a :: b :: t => (a + b * 2 ^ 32) :: pairWords t

/-- The number that digits of `w` bits spell, the first lowest. -/
def ofDigits (w : Nat) : List Nat → Nat
  | [] => 0
  | d :: t => d + 2 ^ w * ofDigits w t

/-- Digits of `w` bits packed into 64-bit words, the first lowest. -/
def packWords (w : Nat) : Nat → List Nat → List Nat
  | 0, _ => []
  | k + 1, l => ofDigits w (l.take (64 / w)) :: packWords w k (l.drop (64 / w))

/-- The words of a row (R301). -/
def State.rowWords (s : State) (w : List Nat) (n : Nat) (bins : List Bool) : List Nat :=
  let l := dvLat w
  let vs := (s.dvChans w).map (fun c => s.confVal l n (c - s.chBase l))
  let val := fun (v : LVal) => if v.state true = 3 then 0 else unsigned 32 v.v
  let q := fun (v : LVal) => v.state true + 4 * b2n (v.cls == 1) + 8 * b2n v.test
  n :: pairWords (vs.map val) ++ packWords 4 ((dvACount w + 15) / 16) (vs.map q)
    ++ packWords 1 ((dvBCount w + 63) / 64) (bins.map b2n)

/-- ROW_WRITE (R302): the row of N into the next slot of the current buffer. -/
def State.rowWrite (s : State) (i : Nat) (w : List Nat) (n : Nat) : State :=
  let x := s.recOf i
  if x.state == 0 || x.state == 4 || n % dvDecim w != 0 then s
  else
    let bins := match s.dre.bins.find? (fun b => b.inst == i && b.n == n) with | some b => b.vals | none => []
    let s := (s.mramWrAll (rowAddr w x.buf x.slot) (s.rowWords w n bins)).dreBump 0
    let s := s.modRec i (fun x => { x with
      slot := (x.slot + 1) % max 1 (dvLenMax w), history := min (x.history + 1) (dvLenMax w), lastN := n
      rows := if x.state = 2 ∧ x.firstN ≤ n then x.rows + 1 else x.rows })
    if x.state = 2 then (s.dirWrite i w 2 false false).recEnd i w else s

/-! ### Trigger evaluation (R304 to R308) -/

/-- φ16 of a level crossing between integers (R306). -/
def phiInt (th v0 v1 : Int) : Nat := min 65535 ((th - v0).natAbs * 65536 / max 1 (v1 - v0).natAbs)
/-- φ16 between binary32 values, in binary64 (R306). -/
def phiQty (th v0 v1 : Nat) : Nat :=
  let c := fun (x : Nat) => fmt32.conv fmt64 x
  let p := fmt64.div (fmt64.sub (c th) (c v0)) (fmt64.sub (c v1) (c v0))
  min 65535 (fmt64.toFx (fmt64.mul p (fmt64.round false 65536 1)) / fxOne).toNat

/-- A level entry at N: its state after and φ16 of a crossing (R305, R306). `lt` and `le` compare the values. -/
def levelStep (mode : Nat) (st : TrigSt) (v1 : Option Int) (th lo hi : Int) (lt le : Int → Int → Bool)
    (phi : Int → Int → Int → Nat) : TrigSt × Option Nat :=
  if !st.primed then ({ st with primed := true, v0 := v1 }, none)
  else match st.v0, v1 with
    | some a, some b =>
      let cross := st.armed && (if mode = 1 then le th a && lt b th else le a th && lt th b)
      let again := if mode = 1 then le hi b else le b lo
      ({ st with v0 := v1, armed := if cross then false else st.armed || again }, if cross then some (phi th a b) else none)
    | _, _ => ({ st with v0 := v1 }, none)

/-- The time of a crossing at φ16 between N − 1 and N (R306). -/
def crossTime (rate n phi : Nat) : Time := tOf rate (n - 1) + phi * (tOf rate n - tOf rate (n - 1)) / 65536

/-- A level entry evaluated on N (R305). -/
def State.levelEval (s : State) (l n : Nat) (o : PheOut) (w : List Nat) (st : TrigSt) : TrigSt × Option Nat :=
  let th := wbits w 1 63 32
  let hys := wbits w 1 31 0
  if dtType w = 0 then
    let v := s.valAt l n (dtIdx w - s.chBase l)
    let x := if dtMode w = 2 then (v.v.natAbs : Int) else v.v
    let t := signed 32 th
    let h := signed 32 hys
    levelStep (dtMode w) st (if v.cls = 2 then none else some x) t (t - h) (t + h) (fun a b => decide (a < b)) (fun a b => decide (a ≤ b)) phiInt
  else
    let g := guardInput o [place 59 56 (wbits w 0 39 36) + place 55 54 (wbits w 0 35 34) + place 53 41 (dtIdx w)]
    let lt := fun (a b : Int) => f32lt (BitVec.ofNat 32 a.toNat) (BitVec.ofNat 32 b.toNat)
    let le := fun (a b : Int) => f32le (BitVec.ofNat 32 a.toNat) (BitVec.ofNat 32 b.toNat)
    let f := fun (x : F32) => (x.toNat : Int)
    let t := BitVec.ofNat 32 th
    let h := BitVec.ofNat 32 hys
    levelStep (dtMode w) st (if g.r.valid then some (f g.q) else none) (f t) (f (f32sub t h)) (f (f32add t h)) lt le
      (fun a b c => phiQty a.toNat b.toNat c.toNat)

/-- A pattern entry evaluated on N: its state after and whether it triggers (R307). -/
def patternStep (w : List Nat) (st : TrigSt) (b : Nat) : TrigSt × Bool :=
  let mask := word w 2
  let m := fun x => ((x ^^^ word w 3) &&& mask) == 0
  let hit := match dtMode w with
    | 0 => m b && !m st.b0
    | 1 => !m b && m st.b0
    | _ => ((b ^^^ st.b0) &&& mask) != 0
  ({ st with primed := true, b0 := b }, st.primed && hit)

/-- The states of a lattice's level entries, or of its pattern entries. -/
def State.trigStates (s : State) (l : Nat) (pattern : Bool) : Tbl TrigSt :=
  s.dre.trig.filter (fun p => (s.dreTrigs l).any (fun q => q.1 == p.1 && (dtType q.2 == 2) == pattern))

/-- TRIGGER_EVALUATION of the level entries of a close, once its phasors are ready; the states after N are kept (R304). -/
def State.dreLevels (s : State) (l n : Nat) (o : PheOut) : State :=
  let s := (if s.flag F.DRE_CTL_EN then s.dreTrigs l else []).foldl (fun s p =>
    if dtType p.2 = 2 then s
    else
      let r := s.levelEval l n o p.2 (Tbl.get {} p.1 s.dre.trig)
      { s with dre := { s.dre with
        trig := Tbl.set {} p.1 r.1 s.dre.trig
        pend := match r.2 with
          | some phi => s.dre.pend ++ [⟨dtInst p.2, n, crossTime (s.latRate l) n phi, p.1⟩]
          | none => s.dre.pend } }) s
  { s with dre := { s.dre with savedLvl := s.dre.savedLvl ++ [(l, n, s.trigStates l false)] } }

/-- TRIGGER_EVALUATION of the pattern entries, once the binary values of N are taken; the states after N are kept (R304,
R307). -/
def State.drePatterns (s : State) (l n : Nat) : State :=
  let s := (if s.flag F.DRE_CTL_EN then s.dreTrigs l else []).foldl (fun s p =>
    if dtType p.2 != 2 then s
    else
      let vals := match s.dre.bins.find? (fun b => b.inst == dtInst p.2 && b.n == n) with | some b => b.vals | none => []
      let r := patternStep p.2 (Tbl.get {} p.1 s.dre.trig) (ofLsb ((vals.drop (wbits p.2 0 33 19)).take 64))
      { s with dre := { s.dre with
        trig := Tbl.set {} p.1 r.1 s.dre.trig
        pend := if r.2 then s.dre.pend ++ [⟨dtInst p.2, n, tOf (s.latRate l) n, p.1⟩] else s.dre.pend } }) s
  { s with dre := { s.dre with saved := s.dre.saved ++ [(l, n, s.trigStates l true)] } }

/-! ### Instants in turn (R302, R304, R310) -/

/-- The triggers of an instance at N, a manual one for each REC_TRIGGER among them (R308). -/
def State.trigsAt (s : State) (l n : Nat) : List Trig :=
  let man := (s.dreInsts l).flatMap (fun p =>
    ((s.recOf p.1).manual.filter (fun k => k == n)).map (fun _ => (⟨p.1, n, tOf (s.latRate l) n, 0xFFFF⟩ : Trig)))
  (s.dre.pend.filter (fun g => g.n == n && dvLat (s.dreEnt 0 g.inst) == l) ++ man).foldl (fun a g => insertTrig g a) []

/-- Whether a cross-trigger's instant is one that the receiving lattice has dealt with, or deals with now (R309). -/
def State.crossDue (s : State) (l n : Nat) (g : Trig) : Bool :=
  let k := dvLat (s.dreEnt 0 g.inst)
  decide (g.n ≤ if k = l then n else Tbl.get 0 k s.dre.done)

/-- The triggers of a CONFIRM take effect in their order, with the cross-triggers that are due and those that they send (R309). -/
def State.takeTrigs (l n : Nat) : Nat → List Trig → State → State
  | 0, _, s => s
  | k + 1, ts, s =>
    let due := s.crossDue l n
    match (s.dre.cross.filter due).foldl (fun a g => insertTrig g a) ts with
    | [] => s
    | g :: t =>
      let s : State := { s with dre := { s.dre with cross := s.dre.cross.filter (fun g => !due g) } }
      let s := s.trigEffect g
      State.takeTrigs l n k t (if g.source = 0xFFFE then s.recEnd g.inst (s.dreEnt 0 g.inst) else s)

/-- HOLDOFF_END: the first confirmed instant past the hold-off (R310). -/
def State.holdoffEnd (s : State) (i : Nat) (w : List Nat) (n : Nat) : State :=
  let x := s.recOf i
  if x.state = 3 ∧ x.tEnd + ms (dvHoldoff w) ≤ tOf (s.latRate (dvLat w)) n then s.modRec i (fun x => { x with state := 1 }) else s

/-- A CONFIRMED instant whose binary values are taken: hold-offs, triggers, cross-triggers and rows (R302, R310). -/
def State.dreInstant (s : State) (l n : Nat) : State :=
  let is := s.dreInsts l
  let s := is.foldl (fun s p => s.holdoffEnd p.1 p.2 n) s
  let ts := s.trigsAt l n
  let s : State := { s with dre := { s.dre with
    pend := s.dre.pend.filter (fun g => !(g.n == n && dvLat (s.dreEnt 0 g.inst) == l)) } }
  let s := is.foldl (fun s p => s.modRec p.1 (fun x => { x with manual := x.manual.filter (fun k => k != n) })) s
  let s := State.takeTrigs l n (64 * ts.length + s.dre.cross.length + 1) ts s
  let s := is.foldl (fun s p => s.rowWrite p.1 p.2 n) s
  { s with dre := { s.dre with
    done := Tbl.set 0 l n s.dre.done
    bins := s.dre.bins.filter (fun b => !(dvLat (s.dreEnt 0 b.inst) == l && decide (b.n ≤ n)))
    saved := s.dre.saved.filter (fun x => x.1 != l || decide (n ≤ x.2.1))
    savedLvl := s.dre.savedLvl.filter (fun x => x.1 != l || decide (n ≤ x.2.1)) } }

/-- Every instant that is CONFIRMED and has its binary values, in order. -/
def State.dreAdvance (s : State) (l : Nat) : Nat → State
  | 0 => s
  | k + 1 =>
    let n := Tbl.get 0 l s.dre.done + 1
    if n ≤ s.confN l ∧ (s.dre.saved.any (fun x => x.1 == l && x.2.1 == n)) then (s.dreInstant l n).dreAdvance l k else s

/-- The recorder on a close whose guard flags are visible (R298, R304, R307). -/
def State.dreClosed (s : State) (l n : Nat) : State :=
  if !s.flag F.DRE_CTL_EN then s else ((s.takeBins l n).drePatterns l n).dreAdvance l 64

/-- The recorder of a lattice that starts at N0, with the `next` instant it was to close before: manual triggers that wait for an
instant to close wait for N0 (R308). -/
def State.dreStart (s : State) (l n0 next : Nat) : State :=
  let mine := fun (i : Nat) => dvLat (s.dreEnt 0 i) == l
  let s := (s.dreInsts l).foldl (fun s p => s.modRec p.1 (fun x => { x with
    manual := (x.manual.filter (fun k => decide (next ≤ k))).map (fun _ => n0) })) s
  { s with dre := { s.dre with
    done := Tbl.set 0 l (n0 - 1) s.dre.done
    trig := s.dre.trig.filter (fun p => !mine (dtInst (s.dreEnt 1 p.1)))
    saved := (l, n0 - 1, []) :: s.dre.saved.filter (fun x => x.1 != l)
    savedLvl := (l, n0 - 1, []) :: s.dre.savedLvl.filter (fun x => x.1 != l)
    pend := s.dre.pend.filter (fun g => !mine g.inst), bins := s.dre.bins.filter (fun b => !mine b.inst) } }

/-- The recorder comes on while a lattice runs: the rows of its instances begin with the next instant to close (R296, R302; DEDUCED,
log 284). -/
def State.dreJoin (s : State) (l : Nat) : State :=
  let n := (s.lattice l).next - 1
  if !(s.lattice l).running then s
  else { s with dre := { s.dre with
    done := Tbl.set 0 l n s.dre.done, saved := (l, n, []) :: s.dre.saved.filter (fun x => x.1 != l)
    savedLvl := (l, n, []) :: s.dre.savedLvl.filter (fun x => x.1 != l)
    pend := s.dre.pend.filter (fun g => dvLat (s.dreEnt 0 g.inst) != l)
    bins := s.dre.bins.filter (fun b => dvLat (s.dreEnt 0 b.inst) != l) } }

/-- What a write of EN in DRE.CTL does: its rise finds the lattices that run. -/
def State.dreSwitch (s : State) (was : Bool) : State :=
  if s.flag F.DRE_CTL_EN && !was then (List.range 4).foldl (fun s l => s.dreJoin l) s else s

/-- The states of a lattice's trigger entries put back from those last kept. -/
def State.trigsBack (s : State) (l : Nat) (pattern : Bool) (kept : List (Nat × Nat × Tbl TrigSt)) : State :=
  match (kept.filter (fun x => x.1 == l)).getLast? with
  | some x =>
    let mine := s.trigStates l pattern
    let other := s.dre.trig.filter (fun p => !mine.any (fun q => q.1 == p.1))
    { s with dre := { s.dre with trig := x.2.2.foldl (fun t p => Tbl.set {} p.1 p.2 t) other } }
  | none => s

/-- TRIGGER_ROLLBACK on REFUTE for N: pending triggers of N or later, manual ones of instants already closed among them, are discarded
and counted, trigger states restored (R304, R308). -/
def State.dreRefute (s : State) (l n : Nat) : State :=
  let bad := fun (g : Trig) => dvLat (s.dreEnt 0 g.inst) == l && decide (n ≤ g.n)
  let man := fun (k : Nat) => decide (n ≤ k) && decide (k < (s.lattice l).next)
  let is := s.dreInsts l
  let k := (s.dre.pend.filter bad).length + sumN (is.map (fun p => ((s.recOf p.1).manual.filter man).length))
  let s := is.foldl (fun s p => s.modRec p.1 (fun x => { x with manual := x.manual.filter (fun k => !man k) })) s
  let before := fun (x : Nat × Nat × Tbl TrigSt) => x.1 != l || decide (x.2.1 < n)
  let s : State := { s with dre := { s.dre with
    pend := s.dre.pend.filter (fun g => !bad g), saved := s.dre.saved.filter before, savedLvl := s.dre.savedLvl.filter before
    bins := s.dre.bins.filter (fun b => !(dvLat (s.dreEnt 0 b.inst) == l && decide (n ≤ b.n))) } }
  let s := s.bumpBy (F.DRE_CNT_COUNT.nth 6) k
  (s.trigsBack l false s.dre.savedLvl).trigsBack l true s.dre.saved

/-! ### Start-up (R319) -/

/-- Leading rows of a record whose word 0 matches the N expected. -/
def State.goodRows (s : State) (w : List Nat) (k first slot : Nat) : Nat → Nat → Nat
  | 0, i => i
  | m + 1, i =>
    if s.rd64 (rowAddr w k ((slot + i) % max 1 (dvLenMax w))) = first + i * dvDecim w then s.goodRows w k first slot m (i + 1) else i

/-- A directory entry at start-up (R319). -/
def State.dirRecover (s : State) (w : List Nat) (k : Nat) : State :=
  match s.dirState w k with
  | 1 => s.dirTo w k 0
  | 2 =>
    let a := dirAddr w k
    let w3 := s.rd64 (a + 24)
    let rows := s.goodRows w k (s.rd64 (a + 16)) (bits 63 40 w3) (bits 39 16 w3) 0
    let s := (s.mramWr (a + 24) (putBits 39 16 rows w3)).mramWr (a + 56) s.gt64
    (s.mramWr a (putBits 59 59 1 (s.rd64 a))).dirTo w k 3
  | _ => s

/-- The recorder reads every directory at start-up: those of the instances of the bundle committed last (R319). -/
def State.dreRecover (s : State) : State :=
  s.dre.last.foldl (fun (s : State) (p : Nat × List Nat) => forN (dvNbuf p.2) (fun s k => s.dirRecover p.2 k) s) s

/-- Whether two instance entries give the same record area: CFG_ID, BASE, SIZE, NBUF, LEN_MAX and ROW_BYTES (R319). -/
def sameArea (a b : List Nat) : Bool :=
  dvCfgId a == dvCfgId b && dvBase a == dvBase b && dvSize a == dvSize b && dvNbuf a == dvNbuf b && dvLenMax a == dvLenMax b
    && dvRowBytes a == dvRowBytes b

/-- The instances of a bundle commit: records of an unchanged area are kept and RECNO goes on from the highest of the entries that
ever held a record, which their ROW_WORDS shows; every directory
entry of another area becomes FREE (R319). -/
def State.dreCommit (s : State) : State :=
  let es := s.dre.tab.filter (fun p => decide (p.1 < 64) && dvValid p.2)
  let s := es.foldl (fun (s : State) (p : Nat × List Nat) =>
    let w := p.2
    let ks := List.range (dvNbuf w)
    if sameArea (Tbl.get [] p.1 s.dre.last) w then
      let held := ks.filter (fun k => bits 63 48 (s.rd64 (dirAddr w k + 40)) != 0)
      let top := held.foldl (fun a k => max a (s.dirRecno w k + 1)) 0
      s.modRec p.1 (fun _ => { nextRec := top })
    else ks.foldl (fun s k => s.dirTo w k 0) s) s
  { s with dre := { s.dre with last := es } }

/-- IDLE instances with ARM_INIT arm when the lattices start (R310, R494). -/
def State.armInit (s : State) : State :=
  s.dre.tab.foldl (fun (s : State) (p : Nat × List Nat) =>
    if p.1 < 64 ∧ dvValid p.2 ∧ dvArmInit p.2 ∧ (s.recOf p.1).state = 0 then s.recArmNow p.1 else s) s

end Sys2Proof.Machine
end

