-- ==== Sys2Proof/Machine/Timebase.lean ====
section
/-! DEFINITION. The Timebase Unit (R81 to R99): the counter, the time-to-digital converters, the PTP ordinary clock with
its servo and clock states, PPS_IN and PPS_OUT. -/
namespace Sys2Proof.Machine

/-! ### The counter (R81 to R84) -/

/-- Hidden units (2^-48 ns) that five ticks at RATE_ADJ 0 scale by: one tick adds 1024 (2^42 + RATE_ADJ) / 5 of them. -/
def tickNum (adj : Int) : Int := 1024 * (2 ^ 42 + adj)

/-- One rising edge of TSC_CLK (R81): the increment, whole hidden units; the part of a unit goes as it may. -/
def idle (s : State) : State :=
  if s.sup.started = 0 then s
  else
    let x := tickNum (s.getI F.TBU_RATE_ADJ_RATE_ADJ)
    let up := x % 5 != 0 && Config.tickUp s.free
    { s with tbu := { s.tbu with t48 := s.tbu.t48 + (x / 5).toNat + b2n up }
             free := if x % 5 = 0 then s.free else s.free + 1 }

/-- The time that the Keep fallback stands at (R83). Its count is taken whole, so that FRAC and the hidden bits hold what a
tick of 1/32,768 s leaves below a nanosecond; DESIGN CHOICE, log 220. -/
def Keep.time (k : Keep) : Time := secs k.fallSec + k.fallTick * secUnits / 32768

/-- The Keep fallback after `n` more ticks of its crystal (R24). -/
def Keep.run (k : Keep) (n : Nat) : Keep :=
  { k with fallSec := k.fallSec + (k.fallTick + n) / 32768, fallTick := (k.fallTick + n) % 32768 }

/-- The time counter is loaded from the Keep fallback, which has run on for `n` ticks; it starts at zero when the Keep domain has
itself been reset (R83). The time since VIO_CAR came into range, and what runs of a ride-through and to the end of the rails, go on. -/
def State.loadTime (s : State) (n : Nat) : State :=
  let k := s.keep.run n
  let t := if k.lost then 0 else k.time
  { s with keep := { k with fallAt := t }, tbu := { s.tbu with t48 := t * 2 ^ 32, loadedAt := t }
           sup := { s.sup with
             vioSince := t - (s.now - s.sup.vioSince), rideStart := t - (s.now - s.sup.rideStart)
             rideEnd := if s.sup.rideEnd = 0 then 0 else t + max 1 (s.sup.rideEnd - s.now)
             rideDue := t + (s.sup.rideDue - s.now), downAt := s.sup.downAt.map (fun d => t + (d - s.now)) } }

/-- The ticks of the Keep crystal since the fallback was last read or written, its frequency taken as nominal. -/
def State.keepTicks (s : State) : Nat := (s.now - s.keep.fallAt) * 32768 / secUnits

/-- Whether any lattice runs. -/
def State.anyLattice (s : State) : Bool := s.lat.any (fun p => p.2.running)

/-- The largest rate adjustment: RATE_LIMIT ppm in units of 2^-42 (R82). -/
def State.rateLimit (s : State) : Int := (s.get F.TBU_CTL_RATE_LIMIT * 2 ^ 42 / 1000000 : Nat)

/-- A rate clamped to RATE_LIMIT (R82). -/
def State.rateClamp (s : State) (v : Int) : Int := max (-s.rateLimit) (min s.rateLimit v)

/-- A new rate adjustment, clamped to RATE_LIMIT (R82), with the moment it was set. -/
def State.setRate (s : State) (v : Int) : State :=
  let t := s.now
  let v := s.rateClamp v
  let s := s.setI F.TBU_RATE_ADJ_RATE_ADJ v
  { s with tbu := { s.tbu with rates := ((t, v) :: s.tbu.rates).take 4096 } }

/-- The rate adjustment weighted by time from `start` on: each value from when it was set until the next (R94). -/
def rateArea : Time → Time → List (Time × Int) → Int
  | _, _, [] => 0
  | till, start, (t, v) :: l => v * (till - max t start : Nat) + rateArea (min till (max t start)) start l

/-- RATE_ADJ frozen at its mean over the last 64 s, or since the counter was loaded with a RATE_ADJ of 0 (R94). -/
def State.freezeMean (s : State) : State :=
  let start := max (s.now - secs 64) s.tbu.loadedAt
  if s.now ≤ start then s
  else
    let q := s.openDiv (rateArea s.now start (s.tbu.rates ++ [(s.tbu.loadedAt, 0)])) (s.now - start)
    q.2.setRate q.1

/-! ### Time-to-digital converters (R85 to R89) -/

/-- A TDC channel. -/
def State.tdcOf (s : State) (ch : Nat) : Tdc := Tbl.get {} ch s.tbu.tdc
/-- A line of a channel. -/
def Tdc.line (t : Tdc) (n : Nat) : TdcLine := if n = 0 then t.line0 else t.line1
/-- A channel with a line changed. -/
def Tdc.setLine (t : Tdc) (n : Nat) (l : TdcLine) : Tdc := if n = 0 then { t with line0 := l } else { t with line1 := l }
/-- Both lines have failed: the channel runs coarse (R88). -/
def Tdc.coarse (t : Tdc) : Bool := t.line0.failed && t.line1.failed

/-- c of a code in units of 2^-16 ns: 1.6 ns on a coarse channel, else the table of the line in service (R87, R88). -/
def Tdc.fine (t : Tdc) (code : Nat) : Int :=
  if t.coarse then 104858
  else
    let l := t.line t.inService
    if l.table.isEmpty then Config.tdcRaw code else Tbl.get 0 code l.table

/-- TDC_CAPTURE: the time of an event at the present capture tick, and whether it is coarse (R87). -/
def State.tdcCapture (s : State) (ch code : Nat) : Time × Bool :=
  let t := s.tdcOf ch
  ((divUp ((s.tbu.t48 : Int) - t.fine code * 2 ^ 32) (2 ^ 32)).toNat, t.coarse)

/-- The receive timestamp of a port with RX_COMP taken off; M0 is stamped on the tick in 3.2 ns steps (R85, R86). -/
def State.rxStamp (s : State) (p code : Nat) : Time × Bool :=
  if p = 10 then ((divUp ((divUp (5 * (s.now : Int)) (16 * 65536)) * (16 * 65536)) 5).toNat, false)
  else
    let x := s.tdcCapture (if p < 8 then p else 2 * p) code
    (((x.1 : Int) - s.getI (F.TBU_PORT_COMP_RX_COMP.nth p) * 256).toNat, x.2)

/-- The transmit timestamp of a port with TX_COMP added (R86). -/
def State.txStamp (s : State) (p code : Nat) : Time × Bool :=
  if p = 10 then s.rxStamp p code
  else
    let x := s.tdcCapture (if p < 8 then 8 + p else 2 * p + 1) code
    (((x.1 : Int) + s.getI (F.TBU_PORT_COMP_TX_COMP.nth p) * 256).toNat, x.2)

/-- COARSE_CH and COARSE as the channels stand (R88). -/
def State.tdcView (s : State) : State :=
  let m := ((List.range 24).filter (fun c => (s.tdcOf c).coarse)).foldl (fun a c => a + 2 ^ c) 0
  (s.setF F.TBU_TDC_STATUS_COARSE_CH m).setB F.TBU_STATUS_COARSE (m != 0)

/-- The state with a TDC channel changed: COARSE_CH and COARSE follow (R88). -/
def State.setTdc (s : State) (ch : Nat) (t : Tdc) : State :=
  State.tdcView { s with tbu := { s.tbu with tdc := Tbl.set {} ch t s.tbu.tdc } }

/-- T_DIE as the last 10 ms sample found it, in units of 0.01 °C (R465). -/
def State.tDie (s : State) : Int := signed 32 (s.get (F.PHM_TELEM_VALUE.nth 0))

/-- Background work runs: after start-up, outside ride-through (R461). -/
def State.background (s : State) : Bool := s.sup.mode == .normal && decide (6 ≤ s.get F.TMC_START_STATUS_PHASE)

/-- Whether a line's recalibration is due: 9 s after its last one, or at 2 °C from its die temperature (R89; DESIGN CHOICE, log 268). -/
def State.tdcDue (s : State) (l : TdcLine) : Bool :=
  match l.calAt with
  | none => false
  | some t => decide (t + secs 9 ≤ s.now) || decide (200 ≤ |s.tDie - l.calTemp|)

/-- A channel whose lines' recalibrations that are due begin: the line out of service for either of the two, and the one in service
itself where the other has failed (R88, R89). -/
def State.tdcBegin (s : State) (t : Tdc) : Tdc :=
  let o := t.line (1 - t.inService)
  let i := t.line t.inService
  let t := if s.tdcDue o || (s.tdcDue i && !o.failed) then t.setLine (1 - t.inService) { o with calibrating := true } else t
  if s.tdcDue i && o.failed then t.setLine t.inService { i with calibrating := true } else t

/-- The recalibrations that the period and the die temperature ask for begin (R89). -/
def State.tdcKeep (s : State) : State :=
  { s with tbu := { s.tbu with tdc := s.tbu.tdc.map (fun (p : Nat × Tdc) => (p.1, s.tdcBegin p.2)) } }

/-- TDC_CALIBRATION_START (R87, R88, R89): a line that is not in service begins, and the one in service where the other has
failed; none does before the end of start-up or in ride-through (R461). -/
def tdcCalibrationStart (ch ln : Nat) (s : State) : State :=
  let t := s.tdcOf ch
  if !s.background || decide (24 ≤ ch) || (ln == t.inService && !(t.line (1 - ln)).failed) then s
  else s.setTdc ch (t.setLine ln { t.line ln with calibrating := true })

/-- Table entries of a calibration: c_i in units of 2^-16 ns, nearest; `acc` the hits below bin i (R87). -/
def tdcTable : Nat → Nat → List Nat → Tbl Int
  | _, _, [] => []
  | i, acc, h :: l => (i, divUp (2 * acc + h : Nat) 10) :: tdcTable (i + 1) (acc + h) l

/-- A calibration fails on a bin wider than 40 ps or eight bins without a hit (R88). -/
def tdcFails (hits : List Nat) : Bool :=
  hits.any (fun h => decide (2 ^ 20 < h * 80)) || decide (8 ≤ (hits.filter (· == 0)).length)

/-- The hits of the 256 bins of a calibration: a bin not named has none (R87). -/
def tdcBins (hits : List Nat) : List Nat := (List.range 256).map (fun i => hits.getD i 0)

/-- TDC_CALIBRATION_DONE (R87, R88): after 2^20 events the table is formed and the lines exchange roles, or the line has
failed. -/
def tdcCalibrationDone (ch ln : Nat) (hits : List Nat) (s : State) : State :=
  let t := s.tdcOf ch
  let bins := tdcBins hits
  if !(t.line ln).calibrating || sumN bins != 2 ^ 20 then s
  else
    let l : TdcLine := { t.line ln with calibrating := false, redo := false, calAt := some s.now, calTemp := s.tDie }
    if tdcFails bins then s.setTdc ch (t.setLine ln { l with failed := true })
    else s.setTdc ch { t.setLine ln { l with table := tdcTable 0 0 bins, failed := false } with inService := ln }

/-- Calibrations in progress are discarded at the start of ride-through, to begin again at its end (R89). -/
def State.tdcDiscard (s : State) : State :=
  let stop := fun l : TdcLine => { l with calibrating := false, redo := l.calibrating || l.redo }
  { s with tbu := { s.tbu with tdc := s.tbu.tdc.map (fun p => (p.1, { p.2 with line0 := stop p.2.line0, line1 := stop p.2.line1 })) } }

/-- Discarded calibrations begin again when ride-through ends (R89). -/
def State.tdcResume (s : State) : State :=
  let go := fun l : TdcLine => { l with calibrating := l.calibrating || l.redo, redo := false }
  { s with tbu := { s.tbu with tdc := s.tbu.tdc.map (fun p => (p.1, { p.2 with line0 := go p.2.line0, line1 := go p.2.line1 })) } }

/-! ### Clock states (R94, R95, R97) -/

/-- STATE of the clock: 0 FREERUN, 1 ACQUIRE, 2 LOCKED, 3 HOLDOVER, 4 MASTER. -/
def State.clk (s : State) : Nat := s.get F.TBU_STATUS_STATE

/-- The ports of the attachment (R91). -/
def State.attach (s : State) : List Nat :=
  let a := s.get F.TBU_CTL_ATTACH
  if !s.flag F.TBU_CTL_EN then []
  else if a < 8 then [a] else if a < 12 then [2 * (a - 8), 2 * (a - 8) + 1] else []

/-- clockClass announced as fallback grandmaster (R95). -/
def State.ownClass (s : State) : Nat :=
  if !s.flag F.TBU_STATUS_TIME_VALID || s.tbu.lostClass != 6 then 248 else if s.tbu.holdDone then 187 else 7

/-- priority2 announced: 1 more with PAIRSEL high, at most 255 (R95). -/
def State.ownPrio2 (s : State) : Nat :=
  min 255 (s.get F.TBU_CLOCK_DS_PRIORITY2 + b2n (s.sup.pairsel))

/-- SYNCH as R97 gives it for the present state; ACQUIRE keeps what it held, but entered from FREERUN it is none. -/
def State.synchNow (s : State) : Nat :=
  let cls := s.get F.TBU_STATUS_GM_CLASS
  match s.clk with
  | 0 => 0
  | 1 => s.get F.TBU_STATUS_SYNCH
  | 2 => if cls = 6 ∨ cls = 7 then 2 else 1
  | 3 => if (s.tbu.lostClass = 6 ∨ s.tbu.lostClass = 7) ∧ !s.tbu.holdDone then 2
         else if s.flag F.TBU_STATUS_TIME_VALID then 1 else 0
  | _ => if s.ownClass = 7 then 2 else 1

/-- The clock's attributes follow its state: own class and identity in MASTER, and SYNCH. -/
def State.clockView (s : State) : State :=
  let s := if s.clk = 4 then (s.setF F.TBU_STATUS_GM_CLASS s.ownClass).setF F.TBU_GM_ID_GM_ID Config.clockId else s
  s.setF F.TBU_STATUS_SYNCH s.synchNow

/-- The count towards HOLD_SPEC runs since the loss of a master, and stops while PPS_IN disciplines HOLDOVER (R95, R96). -/
def State.holdCount (s : State) : State :=
  let stopped := s.clk == 3 && s.get F.TBU_PPS_CFG_IN_MODE == 2 && s.flag F.TBU_STATUS_PPS_IN_OK
  match s.tbu.holdFrom with
  | some t => if stopped then { s with tbu := { s.tbu with holdAcc := s.tbu.holdAcc + (s.now - t), holdFrom := none } } else s
  | none => if stopped then s else { s with tbu := { s.tbu with holdFrom := some s.now } }

/-- Entry to a clock state; out of ACQUIRE no offset is being slewed (R94, R99). -/
def State.toClock (s : State) (st : Nat) : State :=
  let s := { s.setF F.TBU_STATUS_STATE st with tbu := { s.tbu with firstOffset := true, fineRun := 0, coarseRun := 0 } }
  let s := if st = 2 then s.setF F.TBU_STATUS_TIME_VALID 1 else s
  let s := if st = 0 then { s with tbu := { s.tbu with masterAt := s.now } } else s
  ((if st = 1 then s else s.setF F.TBU_STATUS_SLEWING 0).holdCount).clockView

/-- What follows a write of the Timebase's configuration: the rate stays within RATE_LIMIT, PPS_OUT stays low under OUT_MODE 0,
the count towards HOLD_SPEC follows IN_MODE, and the coarse channels are shown (R82, R88, R96, R98). -/
def State.tbuFollow (s : State) : State :=
  let v := s.getI F.TBU_RATE_ADJ_RATE_ADJ
  let s := if s.rateClamp v = v then s else s.setRate v
  let s := if s.get F.TBU_PPS_CFG_OUT_MODE = 0 then { s with sup := { s.sup with ppsHigh := false } } else s
  s.holdCount.tdcView

/-- The attributes a master is compared by under the default best master clock algorithm, then its steps removed (R90). -/
def annKey (a : PtpAnnounce) : List Nat := [a.prio1, a.clockClass, a.accuracy, a.variance, a.prio2, a.gmId, a.steps, a.source]

/-- The better of two masters, the first in a tie. -/
def better (a b : PtpAnnounce) : PtpAnnounce := if lexLt (annKey b) (annKey a) then b else a

/-- A master sends from this port and source. -/
def FMaster.is (x : FMaster) (port source : Nat) : Bool := x.ann.port == port && x.ann.source == source

/-- When a master is lost: after announceReceiptTimeout, three intervals of 1 s, or four Sync intervals (R90, R94; DEDUCED: log 264). -/
def FMaster.lostAt (x : FMaster) : Time := match x.due with | some d => min d (x.at_ + secs 3) | none => x.at_ + secs 3

/-- The foreign masters whose announceReceiptTimeout runs, and the one followed now, which MASTER_LOST removes (R90, R94). -/
def State.qualified (s : State) : List FMaster :=
  s.tbu.masters.filter (fun x => decide (s.now < x.at_ + secs 3)
    || (match s.tbu.master with | some m => x.is m.port m.source | none => false))

/-- The master that the best master clock algorithm selects: the one followed now, unless another is better (R91, R94). -/
def State.bestMaster (s : State) : Option PtpAnnounce :=
  let now := match s.tbu.master with
    | some m => s.qualified.find? (fun x => x.is m.port m.source)
    | none => none
  let all := match now with | some m => m :: s.qualified | none => s.qualified
  match all with
  | [] => none
  | m :: t => some ((t.map (·.ann)).foldl better m.ann)

/-- The module's own attributes as a clock (R95); the spec gives no offsetScaledLogVariance, and the model takes 0xFFFF:
PRESUMED, log 221. -/
def State.ownKey (s : State) : List Nat :=
  [s.get F.TBU_CLOCK_DS_PRIORITY1, s.ownClass, 0xFE, 0xFFFF, s.ownPrio2, Config.clockId, 0, 0]

/-- A selected master: GM_CLASS and GM_ID, and the state it leads to; out of HOLDOVER the servo starts from the frozen
RATE_ADJ (R94). -/
def State.selectMaster (s : State) (m : PtpAnnounce) : State :=
  let other := match s.tbu.master with | some o => o.source != m.source | none => true
  if s.clk = 4 ∧ !lexLt (annKey m) s.ownKey then s
  else
    let st := s.clk
    let s := { s with tbu := { s.tbu with master := some m, lostClass := m.clockClass, holdDone := false, masterAt := s.now
                                          acc := if st = 3 then -(s.getI F.TBU_RATE_ADJ_RATE_ADJ) * 2 ^ s.get F.TBU_SERVO_CFG_KI_SH
                                                 else s.tbu.acc } }
    let s := (s.setF F.TBU_STATUS_GM_CLASS m.clockClass).setF F.TBU_GM_ID_GM_ID m.gmId
    if st = 1 then s else if st = 2 ∧ !other then s.clockView
    else s.toClock 1

/-- The qualified masters after an Announce; one that is not qualified is none of them (R94). -/
def State.announced (s : State) (m : PtpAnnounce) : State :=
  let rest := s.tbu.masters.filter (fun x => !x.is m.port m.source)
  let due := (s.tbu.masters.find? (fun x => x.is m.port m.source)).bind (·.due)
  { s with tbu := { s.tbu with masters := if m.qualified then rest ++ [⟨m, s.now, due⟩] else rest } }

/-- A Sync came from a master: its four Sync intervals run from now (R94). -/
def State.syncHeard (s : State) (m : PtpSync) : State :=
  let due := s.now + secs 1 * 2 ^ (m.logInt + 4).toNat / 4
  { s with tbu := { s.tbu with masters := s.tbu.masters.map (fun x => if x.is m.port m.source then { x with due := some due } else x) } }

/-- PTP_ANNOUNCE_RX (R90, R94): the offset to UTC, qualification, and the best master clock algorithm. -/
def ptpAnnounceRx (m : PtpAnnounce) (s : State) : State :=
  if !s.attach.contains m.port then s
  else if m.domain != s.get F.TBU_CTL_DOMAIN then s.bump F.TBU_EVT_CNT_PTP_DISCARD
  else
    let s := ((s.setF F.TBU_STATUS_UTC_OFFSET m.utcOffset).setF F.TBU_STATUS_UTC_VALID 1).announced m
    match s.bestMaster with
    | some b => s.selectMaster b
    | none => s

/-- The moment at which the master followed now is lost comes, and with it go all others that are lost by then (R94). -/
def State.mastersLost (s : State) : State :=
  let cur := fun (x : FMaster) => match s.tbu.master with | some m => x.is m.port m.source | none => false
  let s := match s.tbu.masters.find? cur with | some x => s.advanceTo x.lostAt | none => s
  let left := s.tbu.masters.filter (fun x => !cur x && decide (s.now < x.lostAt))
  { s with tbu := { s.tbu with masters := left, pendSync := s.tbu.pendSync.filter (fun y => left.any (·.is y.1.port y.1.source)) } }

/-- MASTER_LOST (R91, R94): the master followed now is lost. With another left, on the other LAN too, the clock follows that
one; with none on any port RATE_ADJ is frozen, the class of the lost master kept, and the next state taken. GM_CLASS and GM_ID then
show the lost master on in HOLDOVER and FREERUN, where the spec names no current grandmaster (DESIGN CHOICE, log 269). -/
def masterLost (s : State) : State :=
  let st := s.clk
  if st != 1 && st != 2 then s
  else
    let s := s.mastersLost
    match s.bestMaster with
    | some b => s.selectMaster b
    | none =>
    let s := s.bump F.TBU_EVT_CNT_ANN_TIMEOUT
    let s := if st = 2 then s.freezeMean else s
    let s := { s with tbu := { s.tbu with
      master := none, lostClass := s.get F.TBU_STATUS_GM_CLASS, holdDone := false, holdAcc := 0, holdFrom := some s.now } }
    s.toClock (if s.flag F.TBU_CTL_FALLBACK then 4 else if st = 2 ∨ s.flag F.TBU_STATUS_TIME_VALID then 3 else 0)

/-- FALLBACK_MASTER (R94): FREERUN with FALLBACK and no qualified master for 3 announce intervals. -/
def fallbackMaster (s : State) : State :=
  if s.clk = 0 ∧ s.flag F.TBU_CTL_FALLBACK ∧ s.flag F.TBU_CTL_EN ∧ s.qualified.isEmpty then
    (s.advanceTo (s.tbu.masterAt + secs 3)).toClock 4
  else s

/-- HOLD_SPEC_EXPIRY (R95, R97): once the count reaches HOLD_SPEC seconds, class and synchronisation degrade; it does not while
PPS_IN disciplines HOLDOVER. -/
def holdSpecExpiry (s : State) : State :=
  match s.tbu.holdFrom with
  | none => s
  | some t =>
    if (s.clk != 3 && s.clk != 4) || s.tbu.holdDone then s
    else
      let s := s.advanceTo (t + (secs (s.get F.TBU_CLOCK_DS_HOLD_SPEC) - s.tbu.holdAcc))
      { s with tbu := { s.tbu with holdDone := true } }.clockView

/-! ### Servo (R92) -/

/-- The servo on an offset: acc and RATE_ADJ; acc stands while the result is clamped. -/
def State.servo (s : State) (o : Int) : State :=
  let acc := s.tbu.acc + o
  let kp := s.get F.TBU_SERVO_CFG_KP_SH
  let ki := s.get F.TBU_SERVO_CFG_KI_SH
  let q := s.openDiv (-(o * 2 ^ ki + acc * 2 ^ kp)) (2 ^ (kp + ki))
  let v := s.rateClamp q.1
  let s := q.2.setRate v
  if v = q.1 then { s with tbu := { s.tbu with acc := acc } } else s

/-- The moments of a delay line, moved by `f`. -/
def TdcLine.moved (l : TdcLine) (f : Time → Time) : TdcLine := { l with calAt := l.calAt.map f }

/-- The moments of a MAC, moved by `f`. -/
def Mac.moved (m : Mac) (f : Time → Time) : Mac :=
  { m with lockAt := m.lockAt.map f, curAt := f m.curAt, idleAt := f m.idleAt, pauseUntil := m.pauseUntil.map f
           pausedAt := f m.pausedAt, ignFrom := f m.ignFrom, pauseTxAt := f m.pauseTxAt, wvlTill := m.wvlTill.map f
           readyAt := m.readyAt.map f
           txDelay := m.txDelay.map (fun (x : Time × TxFrame) => (f x.1, x.2)) }

/-- The moments of a pair, moved by `f`. -/
def Pair.moved (p : Pair) (f : Time → Time) : Pair :=
  { p with fwd := p.fwd.map (fun (x : Nat × Nat × Time) => (x.1, x.2.1, f x.2.2))
           dup := p.dup.map (fun (d : DupEntry) => { d with at_ := f d.at_ }), supAt := p.supAt.map f }

/-- The moments of a context, moved by `f`. -/
def Ctx.moved (c : Ctx) (f : Time → Time) : Ctx :=
  { c with heardAt := f c.heardAt, cleanFrom := c.cleanFrom.map f, tagFails := c.tagFails.map f, liveSince := c.liveSince.map f }

/-- The moments of the Pair Controller, moved by `f`. -/
def Prc.moved (p : Prc) (f : Time → Time) : Prc :=
  { p with lastHeard := f p.lastHeard, heardK := p.heardK.map f, heardC := p.heardC.map f, lastSending := p.lastSending.map f
           renewed := f p.renewed, gapFrom := f p.gapFrom, dropAt := f p.dropAt, handAt := p.handAt.map f
           pubSeen := p.pubSeen.map f, cicTxAt := f p.cicTxAt, lineAt := p.lineAt.map f, cicFrom := f p.cicFrom
           own := p.own.map (fun (d : Digest) => { d with at_ := f d.at_ }), peer := p.peer.map (fun (d : Digest) => { d with at_ := f d.at_ })
           parts := p.parts.map (fun (x : PartSet) => { x with at_ := f x.at_ }) }

/-- The moments from which intervals run, moved by `f`; stamps and records keep theirs. -/
def State.moved (s : State) (f : Time → Time) : State :=
  let u := s.sup
  let row := fun {α : Type} (g : α → α) (l : Tbl α) => l.map (fun (p : Nat × α) => (p.1, g p.2))
  { s with
    tbu := { s.tbu with
      rates := s.tbu.rates.map (fun (r : Time × Int) => (f r.1, r.2)), loadedAt := f s.tbu.loadedAt, masterAt := f s.tbu.masterAt
      masters := s.tbu.masters.map (fun (x : FMaster) => { x with at_ := f x.at_, due := x.due.map f })
      holdFrom := s.tbu.holdFrom.map f, ppsLast := s.tbu.ppsLast.map f
      tdc := row (fun c : Tdc => { c with line0 := c.line0.moved f, line1 := c.line1.moved f }) s.tbu.tdc
      txAt := s.tbu.txAt.map (fun (r : Nat × Time) => (r.1, max 1 (f r.2))) }
    keep := { s.keep with fallAt := f s.keep.fallAt }
    sup := { u with vioSince := f u.vioSince, rideStart := f u.rideStart, rideEnd := if u.rideEnd = 0 then 0 else max 1 (f u.rideEnd)
                    rideDue := f u.rideDue, downAt := u.downAt.map f }
    mac := row (fun m : Mac => m.moved f) s.mac, pairs := row (fun p : Pair => p.moved f) s.pairs
    ing := { s.ing with ctx := row (fun c : Ctx => c.moved f) s.ing.ctx }
    pub := { s.pub with st := row (fun y : PubSt => { y with due := f y.due }) s.pub.st }
    slt := { s.slt with
      slices := row (fun x : Slice => { x with refEvt := x.refEvt.map f, quiesceAt := f x.quiesceAt }) s.slt.slices
      rings := row (fun r : Ring => { r with modTill := f r.modTill, nobufAt := r.nobufAt.map f }) s.slt.rings }
    prc := s.prc.moved f
    dom := { s.dom with challenge := s.dom.challenge.map (fun (c : Nat × Time) => (c.1, f c.2)) }
    tmc := { s.tmc with
      sess := row (fun x : Session => { x with lastAt := f x.lastAt }) s.tmc.sess
      resetDue := s.tmc.resetDue.map (fun (r : Nat × Time) => (r.1, f r.2)), groupAt := f s.tmc.groupAt }
    hlt := { s.hlt with coolFrom := s.hlt.coolFrom.map f, stepAt := s.hlt.stepAt.map f, measDue := s.hlt.measDue.map f } }

/-- TIME_STEP: module time steps by −o at one tick, with one Belfry entry; a high PPS_OUT pulse ends (R84, R98), and the tests on
group keys act (R421). What runs since a moment goes on from the moment as stepped. -/
def State.timeStep (s : State) (o : Int) : State :=
  let t := ((s.tbu.t48 : Int) - o * 2 ^ 32).toNat
  let s := s.moved (fun x => ((x : Int) - o).toNat)
  let s := { s with tbu := { s.tbu with t48 := t, acc := 0 }, sup := { s.sup with ppsHigh := false } }
  (s.belfry 1 0x0002 0 [unsigned 64 (-o)]).keyTimes

/-- The clock states on an offset (R94). 'First offset with |o| > 1 µs' is read as the first offset after ACQUIRE was entered, where
that one is beyond 1 µs; a later one is slewed (DEDUCED, log 270). -/
def State.clockOffset (s : State) (o : Int) : State :=
  let big := decide (65536 * 1000 < |o|)
  if s.clk = 1 then
    let first := s.tbu.firstOffset
    let run := if |o| ≤ 65536 * 100 then s.tbu.fineRun + 1 else 0
    let s := { s with tbu := { s.tbu with firstOffset := false, fineRun := run } }
    if big then
      if first ∧ s.flag F.TBU_CTL_STEP_EN ∧ !s.anyLattice then s.timeStep o else s.setF F.TBU_STATUS_SLEWING 1
    else if run = 16 then s.toClock 2 else s
  else if s.clk = 2 then
    let run := if big then s.tbu.coarseRun + 1 else 0
    let s := { s with tbu := { s.tbu with coarseRun := run } }
    if run = 3 then s.toClock 1 else s
  else s

/-- The mean link delay of a port: the mean of its last eight measurements (R92). -/
def State.linkDelay (s : State) (p : Nat) : Int × State :=
  let l := Tbl.get [] p s.tbu.delays
  if l.isEmpty then (0, s) else s.openDiv (sumI l) l.length

/-- MEAN_LINK_DELAY shows a delay (R99); one that its 32 unsigned bits do not hold leaves a free value (DESIGN CHOICE, log 271). -/
def State.showDelay (s : State) (v : Int) : State :=
  if 0 ≤ v ∧ v < 2 ^ 32 then s.setF F.TBU_MEAN_LINK_DELAY_DELAY v.toNat
  else (s.setF F.TBU_MEAN_LINK_DELAY_DELAY (s.freeVal 32)).drawn

/-- PTP_SERVO on an accepted Sync with its precise origin and correction (R92, R94). On a PRP pair the Sync of the selected
master's LAN makes that LAN the one followed (R91). -/
def State.syncAccepted (s : State) (m : PtpSync) (rx origin : Time) (corr : Int) : State :=
  let d := s.linkDelay m.port
  let o := (rx : Int) - ((origin : Int) + corr + d.1)
  let s := d.2.setI F.TBU_OFFSET_OFFSET o
  let s := (s.showDelay d.1).setF F.TBU_STATUS_LAN (if s.redun m.port = 1 then m.port % 2 else 0)
  (s.servo o).clockOffset o

/-- Whether a Sync or Follow_Up comes from the master in force while the servo runs. -/
def State.syncOurs (s : State) (m : PtpSync) : Bool :=
  (s.clk == 1 || s.clk == 2) &&
    (match s.tbu.master with | some a => a.port == m.port && a.source == m.source | none => false)

/-- Message intervals that the clock accepts (R90). -/
def intervalOk (i : Int) : Bool := decide (-4 ≤ i) && decide (i ≤ 1)

/-- PTP_SYNC_RX (R86, R90, R92): a one-step Sync is used at once, a two-step one waits for its Follow_Up. One whose interval is
not accepted is dropped, and no counter names it: DEDUCED, log 222. -/
def ptpSyncRx (m : PtpSync) (s : State) : State :=
  if !s.attach.contains m.port then s
  else if m.domain != s.get F.TBU_CTL_DOMAIN then s.bump F.TBU_EVT_CNT_PTP_DISCARD
  else if !intervalOk m.logInt then s
  else if !s.syncOurs m then s.syncHeard m
  else
    let s := s.syncHeard m
    let rx := (s.rxStamp m.port m.code).1
    if m.twoStep then { s with tbu := { s.tbu with pendSync := some (m, rx) } }
    else { s with tbu := { s.tbu with pendSync := none } }.syncAccepted m rx m.origin m.corr

/-- PTP_FOLLOW_UP_RX (R92): the precise origin of the two-step Sync of the same sequence number. -/
def ptpFollowUpRx (m : PtpSync) (s : State) : State :=
  if !s.attach.contains m.port then s
  else if m.domain != s.get F.TBU_CTL_DOMAIN then s.bump F.TBU_EVT_CNT_PTP_DISCARD
  else match s.tbu.pendSync with
    | some (y, rx) =>
      if s.syncOurs m && y.seq == m.seq && y.port == m.port && y.source == m.source then
        { s with tbu := { s.tbu with pendSync := none } }.syncAccepted y rx m.origin (y.corr + m.corr)
      else s
    | none => s

/-- A peer-delay measurement of a port enters the mean of the last eight, or is discarded beyond 100 ns of it; the eighth
discarded in a row restarts the mean (R92). -/
def State.delayMeasured (s : State) (p : Nat) (d : Int) : State :=
  let l := Tbl.get [] p s.tbu.delays
  let q := s.linkDelay p
  let s := q.2
  let put := fun (s : State) (l : List Int) (n : Nat) =>
    { s with tbu := { s.tbu with delays := Tbl.set [] p l s.tbu.delays, discards := Tbl.set 0 p n s.tbu.discards } }
  let n := Tbl.get 0 p s.tbu.discards + 1
  let s := if l.isEmpty || decide (|d - q.1| ≤ 100 * 65536) then put s ((d :: l).take 8) 0
    else if n = 8 then put s [d] 0 else put s l n
  let r := s.linkDelay p
  match s.tbu.master with
  | some a => if a.port = p then r.2.showDelay r.1 else s
  | none => s

/-- Half of a peer-delay turnaround goes to the mean (R92). -/
def State.turnaround (s : State) (p : Nat) (x : Int) : State :=
  let q := s.openDiv x 2
  q.2.delayMeasured p q.1

/-- The transmit time of the Pdelay_Req that a response answers. -/
def State.reqTime (s : State) (m : PtpPdelay) : Option Time :=
  (s.tbu.reqs.find? (fun r => r.1 == m.port && r.2.1 == m.seq)).map (fun r => r.2.2)

/-- PTP_PDELAY_RESP_RX (R90, R92): a one-step response completes a measurement, a two-step one waits. -/
def ptpPdelayRespRx (m : PtpPdelay) (s : State) : State :=
  if !s.attach.contains m.port then s
  else if m.domain != s.get F.TBU_CTL_DOMAIN then s.bump F.TBU_EVT_CNT_PTP_DISCARD
  else match s.reqTime m with
    | none => s
    | some t1 =>
      let rx := (s.rxStamp m.port m.code).1
      if m.twoStep then
        { s with tbu := { s.tbu with resps := (m, rx) :: s.tbu.resps.filter (fun r => r.1.port != m.port) } }
      else s.turnaround m.port ((rx : Int) - t1 - m.corr)

/-- PDELAY_RESP_FOLLOW_UP_RX (R90, R92): the response's transmit time completes the measurement. -/
def pdelayRespFollowUpRx (m : PtpPdelay) (s : State) : State :=
  if !s.attach.contains m.port then s
  else if m.domain != s.get F.TBU_CTL_DOMAIN then s.bump F.TBU_EVT_CNT_PTP_DISCARD
  else match s.tbu.resps.find? (fun r => r.1.port == m.port && r.1.seq == m.seq), s.reqTime m with
    | some (r, rx), some t1 =>
      let s := { s with tbu := { s.tbu with resps := s.tbu.resps.filter (fun r => r.1.port != m.port) } }
      s.turnaround m.port ((rx : Int) - t1 - ((m.t : Int) - r.t) - r.corr - m.corr)
    | _, _ => s

/-! ### Messages sent (R90, R91, R95) -/

/-- The attributes of the Announce that the fallback grandmaster sends, timeSource 0xA0 last (R95). -/
def State.announceAttrs (s : State) : List Nat := s.ownKey.take 7 ++ [0xA0]

/-- A PTP message of a port with the time it carries; peer-delay messages go to their own group address. On an HSR ring a Sync and
an Announce go out as two copies, and a Follow_Up with the tag of the port whose Sync it follows. -/
def State.ptpSend (s : State) (p kind seq : Nat) (time : Time) : State :=
  let hsr := s.redun p == 2
  let pdu : PtpPdu := { kind, domain := s.get F.TBU_CTL_DOMAIN, seq, twoStep := kind == 1 || kind == 4, time, corr := 0
                        attrs := if kind = 0 then s.announceAttrs else [] }
  let f : Frame := { da := if 3 ≤ kind then 0x0180C200000E else 0x011B19000000, sa := s.portAddr p, vlan := none
                     doubleTag := false, etype := 0x88F7, len := Config.encLen (20 + kind) 0, red := none
                     body := .ptp (kind == 1 || kind == 3 || kind == 4) false pdu, raw := [] }
  let x : TxFrame := { src := .ptp kind seq, frame := f, cls := 1 }
  if hsr ∧ kind < 3 then s.txPair p x else s.txSubmit p x

/-- A message on every port of the attachment; once on an HSR ring, whose pair sends both copies (R91). -/
def State.ptpSendAll (s : State) (kind seq : Nat) : State :=
  (s.attach.filter (fun p => !(s.redun p == 2 && decide (kind < 3) && p % 2 == 1))).foldl (fun s p => s.ptpSend p kind seq s.now) s

/-- Messages of a kind go out at log interval 0: the next one 1 s after the last (R90). -/
def State.ptpPace (s : State) (kind : Nat) : State :=
  let last := Tbl.get 0 kind s.tbu.txAt
  let s := if last = 0 then s else s.advanceTo (last + secs 1)
  { s with tbu := { s.tbu with txAt := Tbl.set 0 kind s.now s.tbu.txAt } }

/-- PTP_PDELAY_REQ_RX (R86, R90): answered with a two-step Pdelay_Resp that carries the receive time. -/
def ptpPdelayReqRx (port domain seq : Nat) (logInt : Int) (code : Nat) (s : State) : State :=
  if !s.attach.contains port then s
  else if domain != s.get F.TBU_CTL_DOMAIN then s.bump F.TBU_EVT_CNT_PTP_DISCARD
  else if !intervalOk logInt then s
  else s.ptpSend port 4 seq (s.rxStamp port code).1

/-- PTP_ANNOUNCE_TX (R90, R95): the fallback grandmaster announces its own clock. -/
def ptpAnnounceTx (s : State) : State :=
  if s.clk != 4 then s
  else
    let s := s.ptpPace 0
    { s.ptpSendAll 0 s.tbu.annSeq with tbu := { s.tbu with annSeq := (s.tbu.annSeq + 1) % 65536 } }

/-- PTP_SYNC_TX (R90): the fallback grandmaster sends a two-step Sync; its Follow_Up goes out when it starts. -/
def ptpSyncTx (s : State) : State :=
  if s.clk != 4 then s
  else
    let s := s.ptpPace 1
    { s.ptpSendAll 1 s.tbu.syncSeq with tbu := { s.tbu with syncSeq := (s.tbu.syncSeq + 1) % 65536 } }

/-- PTP_PDELAY_REQ_TX (R90, R94): peer delay runs from the first qualified master on. -/
def ptpPdelayReqTx (s : State) : State :=
  if s.clk = 0 then s
  else
    let s := s.ptpPace 3
    { s.ptpSendAll 3 s.tbu.reqSeq with tbu := { s.tbu with reqSeq := (s.tbu.reqSeq + 1) % 65536 } }

/-- What the clock does when a message of its own starts on the line at time `t`: the transmit time of a request is kept, and
a two-step message is followed up with its transmit time (R90). -/
def State.ptpStarted (s : State) (p kind seq : Nat) (t : Time) : State :=
  if kind = 3 then { s with tbu := { s.tbu with reqs := (p, seq, t) :: s.tbu.reqs.filter (fun r => r.1 != p) } }
  else if kind = 1 then s.ptpSend p 2 seq t
  else if kind = 4 then s.ptpSend p 5 seq t
  else s

/-! ### PPS (R83, R96, R98) -/

/-- The signed distance of a time from the nearest second boundary. -/
def secOffset (t : Time) : Int :=
  let r := t % secUnits
  if 2 * r < secUnits then (r : Int) else (r : Int) - secUnits

/-- PPS_IN_EDGE (R96): accepted within 1 ms of a second boundary and 500 ms after the last accepted one. -/
def ppsInEdge (code : Nat) (s : State) : State :=
  if s.get F.TBU_PPS_CFG_IN_MODE = 0 then s
  else
    let t := (s.tdcCapture 20 code).1
    let o := secOffset t
    let spaced := match s.tbu.ppsLast with | some l => decide (l + ms 500 ≤ t) | none => true
    if !(decide (|o| ≤ (ms 1 : Nat)) && spaced) then s.bump F.TBU_EVT_CNT_PPS_IN_REJ
    else
      let s := { s with tbu := { s.tbu with ppsLast := some t } }
      let q := s.openDiv o 256
      let s := (q.2.setF F.TBU_PPS_IN_TS_GT64 (Time.gt64 t)).setI F.TBU_PPS_IN_OFFSET_OFFSET q.1
      let s := (s.setF F.TBU_STATUS_PPS_IN_OK 1).holdCount
      if s.clk = 3 ∧ s.get F.TBU_PPS_CFG_IN_MODE = 2 then s.servo o else s

/-- PPS_IN_TIMEOUT (R96): 1.5 s after the last accepted edge. -/
def ppsInTimeout (s : State) : State :=
  match s.tbu.ppsLast with
  | some t => ((s.advanceTo (t + ms 1500)).setF F.TBU_STATUS_PPS_IN_OK 0).holdCount
  | none => s.setF F.TBU_STATUS_PPS_IN_OK 0

/-- Whether PPS_OUT sends pulses (R98): from the TBU's enable in group A on (R496). -/
def State.ppsSends (s : State) : Bool :=
  let p := s.get F.TMC_START_STATUS_PHASE
  decide (4 ≤ p) && p != 7 && match s.get F.TBU_PPS_CFG_OUT_MODE with
  | 0 => false
  | 1 => s.flag F.TBU_STATUS_TIME_VALID && (s.clk == 2 || s.clk == 3 || s.clk == 4)
  | _ => true

/-- The rising edge of PPS_OUT for a second boundary at `t`: shifted by OUT_COMP and placed by channel 21 to 12.5 ps, or on a
capture tick while the channel runs coarse (R85, R88, R98); which of the two steps around it is taken is open (log 223). -/
def State.ppsPlace (s : State) (t : Time) : Time × State :=
  let step : Nat := if (s.tdcOf 21).coarse then 1048576 else 4096
  let q := s.openDiv (((t : Int) + s.getI F.TBU_PPS_CFG_OUT_COMP * 256) * 5) step
  ((divUp (q.1 * step) 5).toNat, q.2)

/-- SECOND_BOUNDARY (R83, R98): the Keep fallback is written while TIME_VALID is 1, OP_SEC counts, PPS_OUT rises. -/
def secondBoundary (s : State) : State :=
  let s := s.advanceTo ((s.now / secUnits + 1) * secUnits)
  let s := if s.flag F.TBU_STATUS_TIME_VALID then
      { s with keep := { s.keep with fallSec := Time.sec s.now, fallTick := 0, fallAt := s.now } } else s
  let s := if s.sup.pwrok then s.bump F.PHM_KEEP_CNT_OP_SEC else s
  if s.ppsSends then
    let x := s.ppsPlace s.now
    { x.2 with sup := { x.2.sup with ppsHigh := true }, tbu := { x.2.tbu with ppsAt := x.1 } }
  else s

/-- PPS_OUT_FALL (R98): OUT_WIDTH × 10 ms after the rise. -/
def ppsOutFall (s : State) : State :=
  if s.sup.ppsHigh then
    let s := s.advanceTo (s.tbu.ppsAt + ms (10 * s.get F.TBU_PPS_CFG_OUT_WIDTH))
    { s with sup := { s.sup with ppsHigh := false } }
  else s

/-! ### Commands -/

/-- TDC_CALIBRATION_START. -/
def execTdcCalibrationStart (ch line : Nat) (s : State) : Result := .next (tdcCalibrationStart ch line s)
/-- TDC_CALIBRATION_DONE. -/
def execTdcCalibrationDone (ch line : Nat) (hits : List Nat) (s : State) : Result := .next (tdcCalibrationDone ch line hits s)
/-- PTP_ANNOUNCE_TX. -/
def execPtpAnnounceTx (s : State) : Result := .next (ptpAnnounceTx s)
/-- PTP_SYNC_TX. -/
def execPtpSyncTx (s : State) : Result := .next (ptpSyncTx s)
/-- PTP_PDELAY_REQ_TX. -/
def execPtpPdelayReqTx (s : State) : Result := .next (ptpPdelayReqTx s)
/-- MASTER_LOST. -/
def execMasterLost (s : State) : Result := .next (masterLost s)
/-- FALLBACK_MASTER. -/
def execFallbackMaster (s : State) : Result := .next (fallbackMaster s)
/-- HOLD_SPEC_EXPIRY. -/
def execHoldSpecExpiry (s : State) : Result := .next (holdSpecExpiry s)
/-- PPS_IN_EDGE. -/
def execPpsInEdge (code : Nat) (s : State) : Result := .next (ppsInEdge code s)
/-- PPS_IN_TIMEOUT. -/
def execPpsInTimeout (s : State) : Result := .next (ppsInTimeout s)
/-- SECOND_BOUNDARY. -/
def execSecondBoundary (s : State) : Result := .next (secondBoundary s)
/-- PPS_OUT_FALL. -/
def execPpsOutFall (s : State) : Result := .next (ppsOutFall s)

end Sys2Proof.Machine
end

