-- ==== Sys2Proof/Machine/Pair.lean ====
section
/-! DEFINITION. The Pair Controller (R358 to R379) and READY (R497): roles and Epochs, heartbeats, the send lease, the controlled
switch-over, digests and images. -/
namespace Sys2Proof.Machine

/-! ### READY (R497) -/

/-- The valid cycle classes (R250). -/
def State.classes (s : State) : List Nat := (List.range 16).filter (fun c => clValid (s.clsEnt c))

/-- C1: every running lattice has CONFIRMED 2 × W instants from N0. -/
def State.c1Now (s : State) : Bool :=
  (List.range 4).all (fun l =>
    let x := s.lattice l
    !x.running || decide (x.n0 + 2 * s.winLen l ≤ x.conf + 1))

/-- C2: every valid class has completed a cycle. -/
def State.c2Now (s : State) : Bool := s.classes.all (fun c => (s.clsOf c).ready)

/-- The conditions C0 to C5, bit n for Cn. -/
def State.conds (s : State) : Nat :=
  b2n s.tmc.locked + 2 * b2n s.tmc.c1 + 4 * b2n s.tmc.c2 + 8 * b2n (s.get F.DOM_STATUS_DSTATE == 1)
    + 16 * b2n (s.get F.PHM_SUPPLY_STATUS_VIO_CAR_STATE == 1)
    + 32 * b2n (!(s.flag F.PHM_FAULT_ROOT_LOCK || s.flag F.PHM_FAULT_ROOT_RATIO || s.flag F.PHM_FAULT_RAIL || s.flag F.PHM_FAULT_THERM))

/-- READY of this module. -/
def State.ready (s : State) : Bool := s.flag F.PRC_STATUS_READY

/-! ### Roles (R358, R359, R364) -/

/-- Whether a is newer than b, modulo 2^32 (R359). -/
def newer (a b : Nat) : Bool :=
  let d := (a + 2 ^ 32 - b % 2 ^ 32) % 2 ^ 32
  decide (1 ≤ d) && decide (d < 2 ^ 31)

/-- The own Epoch. -/
def State.epoch (s : State) : Nat := s.get F.PRC_EPOCH_EPOCH
/-- The own role. -/
def State.role (s : State) : Nat := s.get F.PRC_STATUS_ROLE
/-- MEMBER: true for B. -/
def State.memberB (s : State) : Bool := s.sup.pairsel
/-- Count one event of the Pair Controller. -/
def State.prcBump (s : State) (n : Nat) : State := s.bump (F.PRC_CNT_COUNT.nth n)

/-- PEER_PUB_SEEN in [47:0] and TAKEOVER_UNALIGNED in [63:48] of counter 15, each saturating. -/
def State.cnt15 (s : State) (seen unaligned : Nat) : State :=
  let f := F.PRC_CNT_COUNT.nth 15
  let v := s.get f
  s.setF f (min (v % 2 ^ 48 + seen) (2 ^ 48 - 1) + min (v / 2 ^ 48 + unaligned) (2 ^ 16 - 1) * 2 ^ 48)

/-- The Epoch of a module that takes a sending role by any route other than Alone to Active. -/
def State.nextEpoch (s : State) : Nat :=
  let m := if s.prc.heard && !newer s.epoch s.prc.peerEpoch then s.prc.peerEpoch else s.epoch
  if m = 0xFFFFFFFF then 1 else m + 1

/-- Sending begins or ends where R288 says so: `s0` is the state before. -/
def State.sendEdge (s0 s : State) : State :=
  if s0.sends && !s.sends then s.pubSilence
  else if !s0.sends && s.sends then s.pubTakeover
  else s

/-- Own numbers kept as handed-over state through a gap or a lapse in which the role stays (DESIGN CHOICE 41). -/
def State.handOwn (s : State) : State :=
  { s with pub := { s.pub with st := s.pub.st.map (fun p => (p.1,
      if p.2.numbered then { p.2 with handed := some ⟨p.1, 0, p.2.sentSt, p.2.sentSq, p.2.sentCrc⟩ } else p.2)) } }

/-- The lease dropped: a valid lease lapses at once, which counts (R365). -/
def State.dropLease (s : State) : State :=
  if s.flag F.PRC_STATUS_LEASE then (s.setF F.PRC_STATUS_LEASE 0).prcBump 14 else s
/-- The lease granted or renewed. -/
def State.renewLease (s : State) : State := { s.setF F.PRC_STATUS_LEASE 1 with prc := { s.prc with renewed := s.now } }

/-- Incomplete messages of an old Epoch or role are discarded whole (R371). -/
def State.dropParts (s : State) : State := { s with prc := { s.prc with parts := [] } }

/-- A role entered with its fence reason. -/
def State.setRole (s : State) (r reason : Nat) : State :=
  let old := s.role
  let s := (s.setF F.PRC_STATUS_ROLE r).setF F.PRC_STATUS_FENCE_REASON (if r = 3 then reason else 0)
  let s := if r = 3 ∧ old ≠ 3 then s.prcBump 5 else s
  let s := if r = 1 then s else s.setF F.PRC_STATUS_ALIGNED 0
  let s := if r = 0 ∨ r = 2 then s
    else { s with pub := { s.pub with st := s.pub.st.map (fun p => (p.1, { p.2 with handed := none })) } }
  { s.dropParts with prc := { s.dropParts.prc with watchRun := 0, fencedRun := 0, matchRun := [], imaged := [], own := [], peer := [], reqs := [] } }

/-- A reply owed to PAIR_SWITCH (R370, R382). -/
def State.switchReply (s : State) (status : Nat) : State :=
  match s.prc.switchReq with
  | none => s
  | some q =>
    let s := { s with prc := { s.prc with switchReq := none } }
    s.answer q 0x0902 1 status (if status = stOk then [] else detail 0x0E 0 0) true true

/-- A controlled switch-over is over: SWITCHING clears, PAIR_SWITCH replies. -/
def State.endSwitch (s : State) (status : Nat) : State :=
  let s := { s.setF F.PRC_STATUS_SWITCHING 0 with prc := { s.prc with armed := false, handAt := none } }
  s.switchReply status

/-- The module fences itself (R364). -/
def State.fence (s : State) (reason : Nat) : State :=
  s.sendEdge (((s.dropLease.setF F.PRC_STATUS_GAP 0).setRole 3 reason).endSwitch stAborted)

/-- A sending role taken: the Epoch moves on, the lease is granted at once, or after a gap. -/
def State.takeSending (s : State) (r : Nat) (gap : Bool) : State :=
  let e := s.nextEpoch
  let t := s.setF F.PRC_EPOCH_EPOCH e
  let t := if gap then { t.setF F.PRC_STATUS_GAP 1 with prc := { t.prc with gapFrom := t.now } }
    else t.renewLease
  s.sendEdge (t.setRole r 0)

/-- A takeover by a Watch, counted (R364). -/
def State.takeover (s : State) (gap : Bool) : State :=
  let s := s.prcBump 6
  let s := if s.flag F.PRC_STATUS_ALIGNED then s else s.cnt15 0 1
  s.takeSending 2 gap

/-- A single module takes Alone once READY is 1 (R358). -/
def State.singleAlone (s : State) : State :=
  if s.flag F.PRC_CTL_EN && !s.flag F.PRC_CTL_PAIRED && s.role == 3 && s.ready
      && s.get F.PRC_STATUS_FENCE_REASON != 5 && s.get F.PRC_STATUS_FENCE_REASON != 4
  then s.takeSending 2 false else s

/-- READY_RISE: the conditions of R497 as they stand, and what a single module does on READY. -/
def State.refreshReady (s : State) : State :=
  let c1 := s.tmc.c1 || (s.running && s.c1Now)
  let c2 := s.tmc.c2 || (s.running && s.c2Now)
  let s := { s with tmc := { s.tmc with c1, c2 } }
  let k := s.conds
  let r := decide (k = 63)
  (((s.setF F.TMC_START_STATUS_COND k).setB F.TMC_START_STATUS_READY r).setB F.PRC_STATUS_READY r).singleAlone

/-- READY evaluated where an event may have changed a condition (R497), and what a new sending role sends. -/
def State.evalReady (s : State) : State := s.refreshReady.pubFlush

/-! ### Heartbeat blocks (R360) -/

/-- The CRC of a heartbeat block. -/
def hbCrc (o : Octets) : Nat := crc16 ((o.take 14).flatMap (fun b => lsbFirst 8 b.toNat))

/-- The heartbeat block as it stands. -/
def State.hbBlock (s : State) : Octets :=
  let body := le 1 0x10
    ++ le 1 (place 1 0 s.role + place 2 2 (b2n s.memberB) + place 3 3 (b2n s.ready)
      + place 4 4 (b2n (s.role == 1 && s.flag F.PRC_STATUS_ALIGNED)) + place 5 5 (s.get F.PRC_STATUS_GAP)
      + place 6 6 (b2n (s.sup.mode == .rideThrough)) + place 7 7 (b2n s.wvlOn))
    ++ le 4 s.epoch ++ le 2 s.prc.tick ++ le 4 s.bundleId ++ le 2 (place 15 12 (s.get F.PRC_STATUS_FENCE_REASON))
  body ++ le 2 (hbCrc body)

/-- Octet `i` of a block. -/
def octet (o : Octets) (i : Nat) : Nat := (o.getD i 0).toNat
/-- ROLE of a block. -/
def hbRole (o : Octets) : Nat := octet o 1 % 4
/-- MEMBER of a block. -/
def hbMember (o : Octets) : Bool := bit 2 (octet o 1)
/-- READY of a block. -/
def hbReady (o : Octets) : Bool := bit 3 (octet o 1)
/-- ALIGNED of a block. -/
def hbAligned (o : Octets) : Bool := bit 4 (octet o 1)
/-- RIDE of a block. -/
def hbRide (o : Octets) : Bool := bit 6 (octet o 1)
/-- EPOCH of a block. -/
def hbEpoch (o : Octets) : Nat := ofLe ((o.drop 2).take 4)
/-- BUNDLE_ID of a block. -/
def hbBundle (o : Octets) : Nat := ofLe ((o.drop 8).take 4)

/-! ### Messages sent (R362) -/

/-- A payload cut into parts of at most 1,472 octets; an empty one is one part. -/
def cutParts : Nat → Octets → List Octets
  | 0, o => [o]
  | k + 1, o => if o.length ≤ 1472 then [o] else o.take 1472 :: cutParts k (o.drop 1472)

/-- A pair message on both K0 and K1. -/
def State.pairSend (s : State) (kind : Nat) (payload : Octets) : State :=
  let ps := cutParts 256 payload
  let m := s.prc.mseq
  let s := { s with prc := { s.prc with mseq := (m + 1) % 2 ^ 32 } }
  let block := s.hbBlock
  ps.zipIdx.foldl (fun s p =>
    let raw := block ++ le 1 kind ++ le 1 p.2 ++ le 1 ps.length ++ le 1 0 ++ le 4 m ++ p.1
    [8, 9].foldl (fun s k =>
      let f : Frame := { da := 0x0F0000000009, sa := s.portAddr k, vlan := none, doubleTag := false, etype := 0x88B5
                         len := max 64 (18 + raw.length), red := none, body := .pairMsg, raw }
      s.txSubmit k { src := .pair, frame := f, cls := 1 }) s) s

/-- One record of PUB_SYNC or HANDOVER (R375). -/
def State.pubRec (s : State) (p : Nat) (final : Bool) : Octets :=
  let y := s.pubOf p
  le 2 p ++ le 2 (b2n y.sentSim + 2 * b2n y.sentTest + 4 * b2n final + 8 * b2n y.noKey) ++ le 4 y.sentSt ++ le 4 y.sentSq
    ++ le 4 y.sentCrc

/-- The request for a class's image (R373). -/
def State.imageReq (s : State) (c : Nat) : State :=
  let s := s.pairSend 3 (le 1 c)
  { s with prc := { s.prc with reqAt := Tbl.put c s.now s.prc.reqAt } }

/-- A module becomes Watch: the Epoch is adopted and every class's image requested (R364, R373). -/
def State.joinWatch (s : State) (e : Nat) : State :=
  let t := ((s.dropLease.setF F.PRC_STATUS_GAP 0).setF F.PRC_EPOCH_EPOCH e).setRole 1 0
  let t := (s.sendEdge t).setB F.PRC_STATUS_ALIGNED s.classes.isEmpty
  t.classes.foldl State.imageReq t

/-! ### Images and digests (R372 to R374) -/

/-- Flags packed 64 to a word and written as octets. -/
def bitOctets (bs : List Bool) : Octets := wordsOctets (packWords 1 ((bs.length + 63) / 64) (bs.map b2n))

/-- The digests without a partner yet. -/
def State.setDigests (s : State) (own peer : List Digest) : State := { s with prc := { s.prc with own, peer } }

/-- The octets of a timer in an image. -/
def timerOctets (t : Timer) : Octets :=
  le 8 t.et ++ le 8 (match t.last with | some l => Time.gt64 l | none => 0)
    ++ le 8 (4 * b2n t.q + 2 * b2n t.inPrev + b2n t.run)
/-- The octets of a counter in an image. -/
def counterOctets (c : Counter) : Octets := le 4 c.cv ++ le 1 (2 * b2n c.q + b2n c.eprev) ++ le 3 0

/-- The image of a class over an operand state (R372). -/
def State.classImage (s : State) (x : Slp) (c : Nat) : Octets :=
  (s.classSlots c).flatMap (fun k =>
    let w := s.slpEnt 0 k
    bitOctets ((soIndices w .q).map (fun i => Tbl.get false i x.q))
      ++ bitOctets ((soIndices w .m).map (fun i => Tbl.get false i x.m))
      ++ bitOctets ((soIndices w .e).map (fun i => (Tbl.get ({} : Edge) i x.e).b))
      ++ (soIndices w .t).flatMap (fun i => timerOctets (Tbl.get {} i x.t))
      ++ (soIndices w .c).flatMap (fun i => counterOctets (Tbl.get {} i x.c)))

/-- The operand state after cycle n of class c: what its later cycles and every other class's open cycles wrote is undone. -/
def State.afterCycle (s : State) (c n : Nat) : Slp :=
  s.slp.undo (s.slp.journal.filter (fun j => j.cls == c && decide (n < j.n)))

/-- ALIGNED evaluated: the last three paired digests of every class matched, and every class was replaced by an image since the
module joined (R374, R377). -/
def State.evalAligned (s : State) : State :=
  s.setB F.PRC_STATUS_ALIGNED (s.classes.all (fun k => decide (3 ≤ Tbl.get 0 k s.prc.matchRun) && s.prc.imaged.contains k))

/-- Digests that found no partner within their 20 ms decide nothing and are counted (R374). -/
def State.expireDigests (s : State) : State :=
  let live := fun (d : Digest) => decide (s.now ≤ d.at_ + ms 20)
  let gone := ((s.prc.own ++ s.prc.peer).filter (fun d => !live d)).length
  (s.bumpBy (F.PRC_CNT_COUNT.nth 11) gone).setDigests (s.prc.own.filter live) (s.prc.peer.filter live)

/-- A pair of digests of one class and stamp compared (R374). -/
def State.digestPair (s : State) (c : Nat) (same : Bool) : State :=
  if same then
    { s with prc := { s.prc with matchRun := Tbl.put c (Tbl.get 0 c s.prc.matchRun + 1) s.prc.matchRun } }.evalAligned
  else
    let s := { s with prc := { s.prc with matchRun := Tbl.put c 0 s.prc.matchRun } }
    let s := (s.prcBump 10).setF F.PRC_STATUS_ALIGNED 0
    if !Tbl.has c s.prc.reqAt || decide (Tbl.get 0 c s.prc.reqAt + ms 100 ≤ s.now) then s.imageReq c else s

/-- DIGEST_TX and IMAGE_TX at a confirmed cycle of a class: the first whose stamp is at or after a multiple of 10 ms (R373). -/
def State.digestPoint (s : State) (c n : Nat) (stamp : Time) : State :=
  if !s.flag F.PRC_CTL_EN || !s.flag F.PRC_CTL_PAIRED then s
  else if Tbl.has c s.prc.lastDig && decide (stamp / ms 10 ≤ Tbl.get 0 c s.prc.lastDig / ms 10) then s
  else
    let s := { s with prc := { s.prc with lastDig := Tbl.put c stamp s.prc.lastDig } }
    let img := s.classImage (s.afterCycle c n) c
    let d := crc32c img
    let g := Time.gt64 stamp
    if s.role = 0 then
      let s := s.pairSend 2 (le 1 c ++ le 3 0 ++ le 4 d ++ le 8 g)
      if s.prc.reqs.contains c then
        { s with prc := { s.prc with reqs := s.prc.reqs.filter (fun k => k != c) } }.pairSend 4 (le 1 c ++ le 7 0 ++ le 8 g ++ img)
      else s
    else if s.role = 1 then
      let s := s.expireDigests
      match s.prc.peer.find? (fun x => x.cls == c && x.stamp == g) with
      | some x => { s with prc := { s.prc with peer := s.prc.peer.filter (fun y => !(y.cls == c && y.stamp == g)) } }.digestPair c (x.val == d)
      | none => { s with prc := { s.prc with own := s.prc.own ++ [⟨c, g, d, s.now⟩] } }
    else s

/-- The time that a GT64 names. -/
def gt64Time (g : Nat) : Time := g / 2 ^ 32 * secUnits + g % 2 ^ 32 * 65536

/-- Bits of an image's octets for a range. -/
def readBits (o : Octets) (n : Nat) : List Bool := (List.range n).map (fun i => bit (i % 8) (octet o (i / 8)))
/-- Octets that n bits take in an image. -/
def bitLen (n : Nat) : Nat := (n + 63) / 64 * 8

/-- One slot's part of an image written into the live operands; the answer is the rest of the image. -/
def slotImage (w : List Nat) (x : Slp) (o : Octets) : Slp × Octets :=
  let q := soIndices w .q
  let m := soIndices w .m
  let e := soIndices w .e
  let t := soIndices w .t
  let c := soIndices w .c
  let x := (q.zip (readBits o q.length)).foldl (fun x p => x.put p.1 (.q p.2)) x
  let o := o.drop (bitLen q.length)
  let x := (m.zip (readBits o m.length)).foldl (fun x p => x.put p.1 (.m p.2)) x
  let o := o.drop (bitLen m.length)
  let x := (e.zip (readBits o e.length)).foldl (fun x p => x.put p.1 (.e { Tbl.get ({} : Edge) p.1 x.e with b := p.2 })) x
  let o := o.drop (bitLen e.length)
  let x := t.zipIdx.foldl (fun x p =>
    let b := o.drop (24 * p.2)
    let l := ofLe ((b.drop 8).take 8)
    let f := octet b 16
    x.put p.1 (.t { et := ofLe (b.take 8), q := bit 2 f, inPrev := bit 1 f, run := bit 0 f
                    last := if l = 0 then none else some (gt64Time l) })) x
  let o := o.drop (24 * t.length)
  let x := c.zipIdx.foldl (fun x p =>
    let b := o.drop (8 * p.2)
    x.put p.1 (.c { Tbl.get ({} : Counter) p.1 x.c with cv := ofLe (b.take 4), q := bit 1 (octet b 4), eprev := bit 0 (octet b 4) })) x
  (x, o.drop (8 * c.length))

/-! ### Peer publications (R379) -/

/-- PEER_PUBLICATION_SEEN: counted, with the time it was seen. -/
def State.peerPublication (s : State) : State := { s.cnt15 1 0 with prc := { s.prc with pubSeen := some s.now } }

/-! ### Heartbeats sent: HEARTBEAT_TICK (R360, R365, R370, R375) -/

/-- The bits of a heartbeat frame on the Cicada line: 16 alternating bits from 1, the octet 0xD5, and the block, every octet least
significant bit first (R361). -/
def cicadaBits (block : Octets) : List Bool :=
  (List.range 16).map (fun i => i % 2 == 0) ++ lsbFirst 8 0xD5 ++ block.flatMap (fun b => lsbFirst 8 b.toNat)

/-- Manchester code: the levels of the half bits of 250 ns; a 1 rises at mid-bit, a 0 falls (R361). -/
def manchester (bits : List Bool) : List Bool := bits.flatMap (fun b => [!b, b])

/-- The level of CIC_TX+ as the newest heartbeat drives it: the half bit under way, after the frame its last level with no
transitions; low before the first frame (log 286). -/
def Prc.cicLevel (p : Prc) (now : Time) : Bool :=
  if p.cicSent.isEmpty then false
  else
    let h := manchester (cicadaBits p.cicSent)
    h.getD (min ((now - p.cicFrom) / ns 250) (h.length - 1)) false

/-- The heartbeat frame on the Cicada line with the stamp of its start on channel 23 (R85), unless the Weevil suppresses it
(R129). -/
def State.cicadaSend (s : State) : State :=
  let f : Frame := { da := 0, sa := 0, vlan := none, doubleTag := false, etype := 0, len := 19, red := none, body := .plain, raw := s.hbBlock }
  let s := s.setF F.PRC_CIC_STATUS_TX_ON 1
  let go := fun (s : State) => let t := (s.tdcCapture 23 (s.freeVal 8)).1
    { s.drawn with prc := { s.drawn.prc with cicTxAt := t, cicSent := f.raw, cicFrom := s.now } }
  match s.wvlRule 11 true f with
  | none => go s
  | some r =>
    if s.get (F.WVL_RULE_ACTION_ACTION.nth r) ≠ 1 then
      go { s with wvl := { s.wvl with seen := Tbl.set 0 r (Tbl.get 0 r s.wvl.seen + 1) s.wvl.seen } }
    else
      let x := s.wvlCount r
      if x.1.isSome then x.2.bump (F.PRC_CIC_CNT_COUNT.nth 3) else go x.2

/-- A heartbeat on every carrier (R360). -/
def State.heartbeat (s : State) : State := (s.pairSend 1 []).cicadaSend

/-- PUB_SYNC_TX: one record for each GOOSE publication that has sent a frame since the last one (R375). -/
def State.pubSyncTx (s : State) : State :=
  let ps := (s.pub.ent.filter (fun p => pbValid p.2 && !pbSv p.2 && (s.pubOf p.1).sinceSync)).map Prod.fst
  if s.role != 0 || ps.isEmpty then s
  else
    let s := s.pairSend 5 (ps.flatMap (fun p => s.pubRec p false))
    ps.foldl (fun s p => s.modPub p (fun y => { y with sinceSync := false })) s

/-- This module wins against a Fenced peer (R378). -/
def State.winsFenced (s : State) : Bool :=
  newer s.epoch s.prc.peerEpoch || (!newer s.prc.peerEpoch s.epoch && !s.memberB)

/-- The newest heartbeat names this module's bundle. -/
def State.sameBundle (s : State) : Bool := s.prc.heard && hbBundle s.prc.peerBlock == s.bundleId

/-- A fence that only a reset or a command ends. -/
def State.hardFence (s : State) : Bool :=
  s.get F.PRC_STATUS_FENCE_REASON == 4 || s.get F.PRC_STATUS_FENCE_REASON == 5

/-- The rows of R364 that count ticks. -/
def State.tickRows (s : State) : State :=
  let w := if s.prc.peerRole = some 1 then s.prc.watchRun + 1 else 0
  let f := if s.prc.peerRole = some 3 ∧ hbReady s.prc.peerBlock ∧ s.sameBundle then s.prc.fencedRun + 1 else 0
  let s := { s with prc := { s.prc with watchRun := w, fencedRun := f } }
  if s.role = 1 ∧ 4 ≤ w ∧ !s.memberB then s.takeSending 0 false
  else if s.role = 3 ∧ !s.hardFence ∧ s.ready ∧ 4 ≤ f ∧ s.winsFenced then s.takeSending 0 false
  else s

/-- Step 1 of a controlled switch-over at the tick after PAIR_SWITCH (R370). -/
def State.switchStart (s : State) : State :=
  if s.prc.armed && s.role == 0 then
    let s1 := s.handOwn
    let t := ((s1.dropLease.setF F.PRC_STATUS_GAP 1).setF F.PRC_STATUS_SWITCHING 1)
    s1.sendEdge { t with prc := { t.prc with armed := false, dropAt := t.now, gapFrom := t.now, handAt := none } }
  else s

/-- The lease renewed at a tick (R365). -/
def State.tickLease (s : State) : State :=
  if (s.role == 0 || s.role == 2) && !s.flag F.PRC_STATUS_GAP then s.sendEdge s.renewLease else s

/-- HEARTBEAT_TICK: module time reaches the next multiple of 125 µs. -/
def heartbeatTick (s : State) : State :=
  if !s.flag F.PRC_CTL_EN then s
  else
    let s := s.advanceTo ((s.now / us 125 + 1) * us 125)
    let s := { s with prc := { s.prc with tick := (s.prc.tick + 1) % 65536 } }
    if !s.flag F.PRC_CTL_PAIRED then s.singleAlone.tickLease
    else ((s.tickRows.switchStart.heartbeat).tickLease).pubSyncTx

/-- HEARTBEAT_TICK. -/
def execHeartbeatTick (s : State) : Result := .next (heartbeatTick s)

/-! ### Heartbeats received (R363, R364) -/

/-- The rows of R364 on a newly accepted heartbeat, tried in order. -/
def State.peerRows (s : State) (o : Octets) : State :=
  let r := hbRole o
  let e := hbEpoch o
  let up := r == 0 || r == 2
  let older := newer s.epoch e
  let win := newer e s.epoch || (!older && s.memberB)
  match s.role with
  | 0 =>
    if s.flag F.PRC_STATUS_SWITCHING && r == 0 && newer e s.epoch then
      (((s.joinWatch e).prcBump 7)).endSwitch stOk
    else if up && win then s.fence 3
    else if up && older then s.prcBump 9
    else if r = 3 then
      let t := if s.flag F.PRC_STATUS_SWITCHING then (s.setF F.PRC_STATUS_GAP 0).renewLease else s
      s.sendEdge ((t.setRole 2 0).endSwitch stAborted)
    else s
  | 2 =>
    if up && win then s.fence 3
    else if r = 1 ∧ s.sameBundle then s.setRole 0 0
    else s
  | 1 =>
    if r = 3 then s.takeover false
    else if up then (if e = s.epoch then s else { (s.setF F.PRC_EPOCH_EPOCH e).dropParts with
      pub := { s.pub with st := s.pub.st.map (fun p => (p.1, { p.2 with handed := none })) } })
    else s
  | _ =>
    let s := if up then (s.setF F.PRC_EPOCH_EPOCH e) else s
    if s.hardFence then s
    else if hbBundle o != s.bundleId then s.setF F.PRC_STATUS_FENCE_REASON 6
    else if up && s.ready then s.joinWatch e
    else s

/-- A heartbeat that is not accepted fences a Fenced or joining module (R363, R364). -/
def State.refuseHb (s : State) (cnt reason : Nat) : State :=
  let s := s.prcBump cnt
  if s.role = 3 ∧ !s.hardFence then s.setF F.PRC_STATUS_FENCE_REASON reason
  else if s.role = 1 ∧ !s.flag F.PRC_STATUS_ALIGNED then s.fence reason
  else s

/-- The start of a heartbeat frame on the Cicada line from own tick, in ns: the frame has just ended and lasts 76 µs, the tick is the
nearest (R361, R381). -/
def State.arrOffset (s : State) (code : Nat) : Int :=
  let t := (s.tdcCapture 22 code).1 - us 76
  let k := (t + us 125 / 2) / us 125 * us 125
  divUp ((t : Int) - k) 65536

/-- A message of the pair marked as taken, by its MSEQ (R362). -/
def State.markSeen (s : State) (m : Nat) : State := { s with prc := { s.prc with seen := (m :: s.prc.seen).take 16 } }

/-- HEARTBEAT_RX. The second K copy of a heartbeat is dropped without counting (R362). -/
def heartbeatRx (h : HbRx) (s : State) : State :=
  let cic := h.path == 2
  if !s.flag F.PRC_CTL_EN || !s.flag F.PRC_CTL_PAIRED then s
  else
    let s := if cic then { s.bump (F.PRC_CIC_CNT_COUNT.nth 0) with prc := { s.prc with lineAt := some s.now } } else s
    let s := if cic then s.setF F.PRC_CIC_STATUS_ARR_OFFSET (unsigned 16 (satInt 16 (s.arrOffset h.code))) else s
    let o := h.block.take 16
    if cic && !h.codeOk then s.bump (F.PRC_CIC_CNT_COUNT.nth 1)
    else if o.length != 16 || ofLe (o.drop 14) != hbCrc o then (if cic then s.bump (F.PRC_CIC_CNT_COUNT.nth 2) else s)
    else if !cic && s.prc.seen.contains h.mseq then s
    else
    let s := if cic then s else s.markSeen h.mseq
    if octet o 0 / 16 != 1 then s.refuseHb 2 7
    else if hbMember o == s.memberB then s.refuseHb 3 8
    else
      let s := s.prcBump (if cic then 1 else 0)
      let t := s.now
      let up := hbRole o == 0 || hbRole o == 2
      let s := { s with prc := { s.prc with
        heard := true, peerRole := some (hbRole o), peerEpoch := hbEpoch o, peerBlock := o, lastHeard := t
        heardK := if cic then s.prc.heardK else some t, heardC := if cic then some t else s.prc.heardC
        lastSending := if up then some t else s.prc.lastSending } }
      let s := (s.setF (F.PRC_PEER_BLOCK.nth 0) (ofLe (o.take 8))).setF (F.PRC_PEER_BLOCK.nth 1) (ofLe (o.drop 8))
      s.peerRows o

/-! ### Silence, lease and gap (R364, R365, R367) -/

/-- LOSS_TIME. -/
def State.lossTime (s : State) : Time := us (100 * s.get F.PRC_CTL_LOSS_TIME)

/-- PEER_SILENCE (R364): silence for LOSS_TIME fences an Active, and a Watch declares the loss and takes Alone with a gap. -/
def peerSilence (s : State) : State :=
  if !s.flag F.PRC_CTL_EN || !s.flag F.PRC_CTL_PAIRED || (s.role != 0 && s.role != 1) then s
  else
    let s := s.advanceTo (s.prc.lastHeard + s.lossTime)
    if s.role = 0 then s.fence 2 else (s.prcBump 4).takeover true

/-- PEER_SILENCE. -/
def execPeerSilence (s : State) : Result := .next (peerSilence s)

/-- SOLO_WAIT_EXPIRY (R364, R379). -/
def soloWaitExpiry (s : State) : State :=
  let w := ms (s.get F.PRC_CTL_SOLO_WAIT)
  if !s.flag F.PRC_CTL_EN || !s.flag F.PRC_CTL_PAIRED || w == 0 || s.role != 3 || s.hardFence || !s.ready then s
  else
    let t := max s.now (s.prc.lastHeard + w)
    if (match s.prc.pubSeen with | some p => decide (t < p + w) | none => false) then s
    else (s.advanceTo t).takeSending 2 false

/-- SOLO_WAIT_EXPIRY. -/
def execSoloWaitExpiry (s : State) : Result := .next (soloWaitExpiry s)

/-- LEASE_LAPSE (R365): 1.5 ms after the last renewal. -/
def leaseLapse (s : State) : State :=
  if !s.flag F.PRC_STATUS_LEASE then s
  else
    let s := (s.advanceTo (s.prc.renewed + us 1500)).handOwn
    s.sendEdge s.dropLease

/-- LEASE_LAPSE. -/
def execLeaseLapse (s : State) : Result := .next (leaseLapse s)

/-- TAKEOVER_GAP_END (R367): 250 µs after the declaration the lease becomes valid, also where the module has gone on from Alone to
Active by then. -/
def takeoverGapEnd (s : State) : State :=
  if s.flag F.PRC_STATUS_GAP && !s.flag F.PRC_STATUS_SWITCHING && (s.role == 0 || s.role == 2) then
    let s := s.advanceTo (s.prc.gapFrom + us 250)
    s.sendEdge (s.setF F.PRC_STATUS_GAP 0).renewLease
  else s

/-- TAKEOVER_GAP_END. -/
def execTakeoverGapEnd (s : State) : Result := .next (takeoverGapEnd s)

/-! ### Controlled switch-over (R370) -/

/-- Whether a publication frame is in transmission. -/
def State.pubOnWire (s : State) : Bool :=
  s.mac.any (fun p => match p.2.cur with | some f => (match f.src with | .pub _ => true | _ => false) | none => false)

/-- HANDOVER_TX: 20 µs after the lease was dropped, with no frame of its own in transmission. -/
def handoverTx (s : State) : State :=
  if !s.flag F.PRC_STATUS_SWITCHING || s.prc.handAt.isSome || s.pubOnWire then s
  else
    let s := s.advanceTo (s.prc.dropAt + us 20)
    let ps := (s.pubsOn.filter (fun p => !pbSv p.2)).map Prod.fst
    let s := s.pairSend 6 (ps.flatMap (fun p => s.pubRec p true))
    { s with prc := { s.prc with handAt := some s.now } }

/-- HANDOVER_TX. -/
def execHandoverTx (s : State) : Result := .next (handoverTx s)

/-- SWITCH_TIMEOUT: 1 ms after HANDOVER the peer is still Watch with the old Epoch, as a heartbeat accepted since HANDOVER says;
where none was, silence decides under R364 (DEDUCED, log 285). -/
def switchTimeout (s : State) : State :=
  match s.prc.handAt with
  | none => s
  | some t =>
    if s.flag F.PRC_STATUS_SWITCHING && decide (t < s.prc.lastHeard) && s.prc.peerRole == some 1 && !newer s.prc.peerEpoch s.epoch then
      let s := (s.advanceTo (t + ms 1)).prcBump 8
      (s.sendEdge (s.setF F.PRC_STATUS_GAP 0).renewLease).endSwitch stAborted
    else s

/-- SWITCH_TIMEOUT. -/
def execSwitchTimeout (s : State) : Result := .next (switchTimeout s)

/-! ### Messages received (R362, R371, R373 to R375) -/

/-- A message of several parts discarded: it counts, and what else comes of it is dropped (R362). -/
def State.partLost (s : State) (m : Nat) : State :=
  { s.markSeen m with prc := { (s.markSeen m).prc with parts := s.prc.parts.filter (fun p => p.mseq != m) } }.prcBump 13

/-- One part of a message: the whole payload once every part is there, none until then or when it was taken before. A part that
comes later than 5 ms after the first one ends its message (R362). -/
def State.takePart (s : State) (h : PairHdr) (o : Octets) (rs : List PubSyncRec) : Option (Octets × List PubSyncRec) × State :=
  if s.prc.seen.contains h.mseq then (none, s)
  else
    let done := fun (s : State) => { s.markSeen h.mseq with prc := { (s.markSeen h.mseq).prc with
      parts := s.prc.parts.filter (fun p => p.mseq != h.mseq) } }
    if h.parts ≤ 1 then (some (o, rs), done s)
    else
      let old := match s.prc.parts.find? (fun p => p.mseq == h.mseq) with | some p => p | none => ⟨h.mseq, h.parts, [], s.now⟩
      if decide (old.at_ + ms 5 < s.now) then (none, s.partLost h.mseq)
      else
      let new := { old with got := (old.got.filter (fun g => g.1 != h.part)) ++ [(h.part, o, rs)] }
      let all := (List.range h.parts).filterMap (fun i => new.got.find? (fun g => g.1 == i))
      if all.length = h.parts then
        (some (all.flatMap (fun g => g.2.1), all.flatMap (fun g => g.2.2)), done s)
      else
        (none, { s with prc := { s.prc with parts := s.prc.parts.filter (fun p => p.mseq != h.mseq) ++ [new] } })

/-- A message that is not accepted is discarded, and its second copy not counted (R362, R371). -/
def State.stale (s : State) (h : PairHdr) : State :=
  if s.prc.seen.contains h.mseq then s else (s.markSeen h.mseq).prcBump 9

/-- A message that only a Watch of the same Epoch takes from an Active (R371); any other is discarded and counted. -/
def State.asWatch (s : State) (h : PairHdr) (f : State → State) : State :=
  if s.role = 1 ∧ h.role = 0 ∧ h.epoch = s.epoch then f s else s.stale h

/-- HANDOVER_RX (R370): the Watch takes Active, the records are handed-over state, a heartbeat goes out at once. -/
def handoverRx (h : PairHdr) (recs : List PubSyncRec) (s : State) : State :=
  if s.role = 1 ∧ h.epoch = s.epoch ∧ s.flag F.PRC_STATUS_ALIGNED then
    let t := s.takePart h [] recs
    match t.1 with
    | none => t.2
    | some p =>
      let s := p.2.foldl (fun s r => s.modPub r.index (fun y => { y with handed := some r })) t.2
      (s.takeSending 0 false).heartbeat
  else s.stale h

/-- DIGEST_RX (R374). -/
def digestRx (h : PairHdr) (es : List DigestEntry) (s : State) : State :=
  s.asWatch h (fun s =>
    if s.prc.seen.contains h.mseq then s
    else
      let s := (s.markSeen h.mseq).expireDigests
      es.foldl (fun s e =>
        match s.prc.own.find? (fun x => x.cls == e.cls && x.stamp == e.stamp) with
        | some x => { s with prc := { s.prc with own := s.prc.own.filter (fun y => !(y.cls == e.cls && y.stamp == e.stamp)) } }.digestPair e.cls (x.val == e.digest)
        | none => { s with prc := { s.prc with peer := s.prc.peer ++ [⟨e.cls, e.stamp, e.digest, s.now⟩] } }) s)

/-- DIGEST_UNPAIRED (R374): 20 ms without a partner at the same stamp. -/
def digestUnpaired (c stamp : Nat) (s : State) : State :=
  let mine := fun (d : Digest) => d.cls == c && d.stamp == stamp
  match (s.prc.own ++ s.prc.peer).find? mine with
  | none => s
  | some d =>
    let s := s.advanceTo (d.at_ + ms 20)
    { s with prc := { s.prc with own := s.prc.own.filter (fun d => !mine d), peer := s.prc.peer.filter (fun d => !mine d) } }.prcBump 11

/-- DIGEST_UNPAIRED. -/
def execDigestUnpaired (cls stamp : Nat) (s : State) : Result := .next (digestUnpaired cls stamp s)

/-- IMAGE_REQ_RX (R371, R373). -/
def imageReqRx (h : PairHdr) (c : Nat) (s : State) : State :=
  if s.role = 0 ∧ h.epoch = s.epoch then
    if s.prc.seen.contains h.mseq then s
    else { s.markSeen h.mseq with prc := { (s.markSeen h.mseq).prc with
      reqs := if s.prc.reqs.contains c then s.prc.reqs else s.prc.reqs ++ [c] } }
  else s.stale h

/-- IMAGE_RX (R373, R374): a complete image waits for the class's first cycle start with a later stamp. -/
def imageRx (h : PairHdr) (c stamp : Nat) (o : Octets) (s : State) : State :=
  s.asWatch h (fun s =>
    let t := s.takePart h o []
    match t.1 with
    | none => t.2
    | some p => { t.2 with prc := { t.2.prc with images := t.2.prc.images.filter (fun i => i.cls != c) ++ [⟨c, stamp, p.1⟩] } })

/-- PUB_SYNC_RX (R375): the newest record of each publication is kept. -/
def pubSyncRx (h : PairHdr) (recs : List PubSyncRec) (s : State) : State :=
  s.asWatch h (fun s =>
    let t := s.takePart h [] recs
    match t.1 with
    | none => t.2
    | some p => p.2.foldl (fun s r => s.modPub r.index (fun y => { y with handed := some r })) t.2)

/-- PART_TIMEOUT (R362): a part is missing 5 ms after the first one came. -/
def partTimeout (m : Nat) (s : State) : State :=
  match s.prc.parts.find? (fun p => p.mseq == m) with
  | none => s
  | some p =>
    (s.advanceTo (p.at_ + ms 5)).partLost m

/-- PART_TIMEOUT. -/
def execPartTimeout (mseq : Nat) (s : State) : Result := .next (partTimeout mseq s)

end Sys2Proof.Machine
end

