-- ==== Sys2Proof/Machine/Dome.lean ====
section
/-! DEFINITION. The Dome (R408 to R436): root regeneration, the key tree, group keys, measurements, attestation, anchors and the
debug port. -/
namespace Sys2Proof.Machine

/-- The order of the P-384 group (R412). -/
def p384n : Nat := 0xFFFFFFFFFFFFFFFFFFFFFFFFFFFFFFFFFFFFFFFFFFFFFFFFC7634D81F4372DDF581A0DB248B0A77AECEC196ACCC52973

/-- A private key from a parent key (R412, R415). -/
def ecKey (prk : Nat) (info : String) : Nat := Config.hkdf prk info [] % (p384n - 1) + 1
/-- The private DIK (R412), of the working copy of the root. -/
def State.dikKey (s : State) : Nat := ecKey (s.dom.root.getD 0) "SK9-DIK"
/-- DIK_FP (R412). -/
def State.dikFp (s : State) : Nat := Config.sha384 (octs 97 s.dom.dikPub) % 2 ^ 384

/-! ### The key tree (R413 to R418) -/

/-- The private key of a SIGN node. -/
def State.signKey (s : State) (i : Nat) : Nat := if i = 1 then s.dikKey else ecKey (s.nodeKey 7 i) "SK9-SIGN"

/-- Whether a node is destroyed or lies below one that is: it awaits its sweep (R417). -/
def State.doomed (s : State) : Nat → Nat → Bool
  | 0, _ => false
  | fuel + 1, i =>
    let n := s.node i
    n.destroyed || (i != 0 && n.kind != 0 && s.doomed fuel n.parent)

/-- The AK statement, signed by the DIK (R425). -/
def State.makeAkStmt (s : State) : List Nat :=
  let b := octs 4 0x4B41394B ++ octs 2 0x0100 ++ octs 2 164 ++ octs 4 (s.node 7).gen ++ octs 4 s.dom.fuses ++ octs 48 s.dikFp
    ++ octs 97 (Config.ecPublic (s.signKey 7)) ++ octs 3 0
  b ++ octs 96 (Config.ecSign s.dikKey b)

/-- Nodes 2, 7 and 8 created, with the AK statement (R414, R425). -/
def State.createTop (s : State) : State :=
  let s := s.modNode 2 (fun n => { gen := n.gen, kind := 2, depth := 1 })
  let s := [7, 8].foldl (fun (s : State) i => s.modNode i (fun n => { gen := n.gen, kind := 3, parent := 2, depth := 2 })) s
  { s with dom := { s.dom with akStmt := s.makeAkStmt } }

/-- A TLS session ends; its commands go on without their replies (R454), and what was sent stays sent. -/
def State.tlsClose (s : State) (n : Nat) : State :=
  let s := (s.modSess n (fun x => { sent := x.sent })).undeliver n
  { s with prc := { s.prc with switchReq := s.prc.switchReq.filter (fun q => q.sess != n) } }

/-- Every TLS session ends. -/
def State.tlsCloseAll (s : State) : State := [128, 129, 130, 131].foldl State.tlsClose s

/-- The sweep: every record of a destroyed subtree zeroised and FREE, under a new GEN, and counted (R417). -/
def State.sweep (s : State) : State :=
  let gone := s.dom.nodes.filter (fun (p : Nat × Node) => s.doomed 7 p.1)
  let t := gone.foldl (fun (t : State) (p : Nat × Node) =>
    t.modNode p.1 (fun n => { gen := if n.destroyed then n.gen else (n.gen + 1) % 2 ^ 32 })) s
  t.bumpBy (F.DOM_CNT_COUNT.nth 1) gone.length

/-- KEY_SWEEP_DONE: nodes 2, 7 and 8 are recreated where they are absent and the Dome is READY; then every TLS session ends
(R414, R417, R429). -/
def keySweepDone (s : State) : State :=
  if s.dom.nodes.any (fun (p : Nat × Node) => s.doomed 7 p.1) then
    let t := s.sweep
    if (t.node 2).kind = 0 ∧ t.dstate = 1 then t.createTop.tlsCloseAll
    else if (t.node 8).kind = 0 then t.tlsCloseAll else t
  else s

/-- A node destroyed: the record, and the count; the consumers' caches hold live nodes alone (R417). -/
def State.destroyNode (s : State) (i : Nat) : State :=
  (s.modNode i (fun n => { gen := (n.gen + 1) % 2 ^ 32, destroyed := true })).bump (F.DOM_CNT_COUNT.nth 0)

/-- The DOM registers that follow the state (R434). -/
def State.showDom (s : State) : State :=
  let d := s.dstate
  let held := s.dom.nodes.filter (fun (p : Nat × Node) => 3 < p.1 || p.1 == 2)
  let fixed := ([0, 1, 3].filter s.nodeLive).length
  let s := s.setF F.DOM_NODES_LIVE (fixed + (held.filter (fun (p : Nat × Node) => s.nodeLive p.1)).length)
  let s := s.setF F.DOM_NODES_SWEEP (held.filter (fun (p : Nat × Node) => s.doomed 7 p.1)).length
  let s := s.setF F.DOM_STATUS_ANCHORS
    (sumN ((List.range 4).map (fun i => b2n (s.nodeLive (3 + i) && (s.node (3 + i)).kind == 5) * 2 ^ i)))
  let s := (s.setB F.DOM_DEBUG_DBG_EN s.sup.dbgEn).setB F.DOM_DEBUG_DBG_SEL s.sup.dbgSel
  let s := s.setB F.DOM_DEBUG_CHALLENGE s.dom.challenge.isSome
  let s := forN 6 (fun s i => s.setF (F.DOM_DIK_FP_FP.nth i) (if d = 1 ∨ d = 3 then s.dikFp / 2 ^ (64 * i) else 0)) s
  forN 32 (fun s i =>
    let v := Tbl.get 0 i s.dom.ms
    (forN 6 (fun s k => s.setF (F.DOM_MS_VALUE.nth (8 * i + k)) (v / 2 ^ (64 * k))) s).setF (F.DOM_MS_VALUE.nth (8 * i + 6))
      (Tbl.get 0 i s.dom.msCount)) s

/-! ### Restart (R409 to R411, R423, R424, R473) -/

/-- Whether the fit of the last 32 MAX_CORR values against the operating day reaches 15 within 365 days of `day` (R473): least
squares in exact integers, scaled by the positive determinant. -/
def pufReaches (day : Nat) (l : List (Nat × Nat)) : Bool :=
  let n : Int := l.length
  let sx := sumI (l.map (fun p => (p.1 : Int)))
  let sy := sumI (l.map (fun p => (p.2 : Int)))
  let sxx := sumI (l.map (fun p => (p.1 * p.1 : Int)))
  let sxy := sumI (l.map (fun p => (p.1 * p.2 : Int)))
  let det := n * sxx - sx * sx
  if det ≤ 0 then decide (15 * n ≤ sy)
  else
    let at_ := fun t : Int => sy * sxx - sx * sxy + t * (n * sxy - sx * sy)
    decide (15 * det ≤ at_ day) || decide (15 * det ≤ at_ (day + 365))

/-- The present operating day (R468). -/
def State.opDay (s : State) : Nat := s.get F.PHM_KEEP_CNT_OP_SEC / 86400

/-- The PUF record and the trend of MAX_CORR (R473). -/
def State.pufRecord (s : State) (mx total attempts : Nat) : State :=
  let log := ((s.opDay, mx) :: s.hlt.pufLog).take 32
  let s := { s with hlt := { s.hlt with pufLog := log } }
  (s.setB F.PHM_AGE_STATUS_PUF_AGEING (pufReaches s.opDay log)).belfry 2 0x0005 0 [mx, total, attempts]

/-- The firmware measurements of the boot chain (R423). -/
def State.bootMeasure (s : State) (slots : List Nat) : State :=
  slots.foldl (fun (s : State) i => s.extendMs i (Config.firmwareDigest i)) s

/-- The bits set in a 255-bit word. -/
def weight (v : Nat) : Nat := sumN ((List.range 255).map (fun i => b2n (bit i v)))

/-- A block decoded against its helper syndrome: the bits corrected and the corrected block; none where the decoder finds no pattern
of at most 18 errors that gives the syndrome (R410, step 2). -/
def pufDecode (b : PufBlock) (helper : Nat) : Option (Nat × Nat) :=
  match b.err with
  | none => none
  | some e =>
    if decide (weight e ≤ 18) && Config.bchSyndrome (b.resp ^^^ e) == helper then some (weight e, b.resp ^^^ e) else none

/-- The blocks of an attempt that decode, each with the bits it corrected. -/
def State.decoded (s : State) (a : List PufBlock) : List (Nat × Nat) := (a.zip s.dom.helper).filterMap (fun p => pufDecode p.1 p.2)

/-- ROOT from the corrected blocks: HKDF-Extract over their 131 secret bits each, block 0 lowest (R410, step 3). -/
def rootOf (l : List (Nat × Nat)) : Nat :=
  Config.hkdfExtract "SK9-ROOT" (sumN (l.zipIdx.map (fun p => Config.bchSecret p.1.2 % 2 ^ 131 * 2 ^ (131 * p.2))))

/-- The value that step 4 of R410 compares with the fused one: the first 8 octets of SHA-384(ROOT). -/
def checkOf (root : Nat) : Nat := Config.sha384 (octs 48 root) % 2 ^ 64

/-- An attempt that yields the root: all 8 blocks decode and the check value agrees. -/
def State.attemptOk (s : State) (a : List PufBlock) : Bool :=
  a.length == 8 && (s.decoded a).length == 8 && checkOf (rootOf (s.decoded a)) == s.dom.check

/-- DOME_RESTART: up to three attempts at the root, each the 8 blocks read from the PUF (R410, R411). -/
def domeRestart (l : List (List PufBlock)) (s : State) : State :=
  let tries := l.take 3
  let won := (tries.filter s.attemptOk).head?
  if s.dstate ≠ 0 ∨ !s.sup.pwrok ∨ s.sup.inCold ∨ (won = none ∧ tries.length < 3) then s
  else
    let n := match tries.findIdx? s.attemptOk with | some i => i + 1 | none => 3
    let blocks := s.decoded (won.getD (tries.getLastD []))
    let bits := blocks.map Prod.fst
    let s0 := s
    let mx := bits.foldl max 0
    let s := { s with dom := { s.dom with ms := [], msCount := [], challenge := none, akStmt := [], openStatus := none } }
    let s := s.bootMeasure [0, 1, 2, 3]
    let s := (s.setF F.DOM_STATUS_DEBUG_CNT s.dom.fuses).setF F.DOM_ROOT_STAT_MAX_CORR mx
    let s := (s.setF F.DOM_ROOT_STAT_TOTAL_CORR (sumN bits)).setF F.DOM_ROOT_STAT_ATTEMPTS n
    let s := s.bumpBy (F.DOM_CNT_COUNT.nth 7) (n - 1)
    let s := match won with
      | none => s.setF F.DOM_STATUS_DSTATE 2
      | some _ =>
        let r := rootOf blocks
        let s := { s with dom := { s.dom with
          root := some r, anchorKey := Config.anchorKey r, dikPub := Config.ecPublic (ecKey r "SK9-DIK") } }
        let s := ((s.setF F.DOM_STATUS_DSTATE 1).setB F.DOM_STATUS_ROOT_MARGINAL (decide (12 < mx))).sweep.createTop
        if 12 < mx then s.belfry 1 0x0007 0 [mx, sumN bits] else s
    (s0.keysFollow (s.pufRecord mx (sumN bits) n)).evalReady

/-- The Dome stops for a restart (R409): its working secrets and the measurements go; the store and the fuses stay. -/
def State.domeStop (s : State) : State :=
  { s.clearPage 0x5000120000 0x5000130000 with dom := { s.dom with
      root := none, anchorKey := 0, dikPub := 0, ms := [], msCount := [], challenge := none, akStmt := [], openStatus := none } }

/-! ### Group keys (R419 to R421) -/

/-- KEY_ACTIVATE: module time reaches START of NEXT. -/
def keyActivate (i : Nat) (s : State) : State :=
  match (s.groupNode i).nxt with
  | none => s
  | some k =>
    s.keysFollow (((s.advanceTo (secs k.start)).modKeys i (fun n => { n with cur := some k, nxt := none })).bump (F.DOM_CNT_COUNT.nth 3))

/-- KEY_EXPIRE: module time reaches START + LIFETIME of CURRENT. -/
def keyExpire (i : Nat) (s : State) : State :=
  match (s.groupNode i).cur with
  | none => s
  | some k =>
    let t := s.advanceTo (secs (k.start + k.lifetime))
    t.keysFollow ((t.modKeys i (fun n => { n with cur := none })).bump (F.DOM_CNT_COUNT.nth 4))

/-- The octets of a key that an algorithm takes (R419): 32 for HMAC-SHA256, 16 or 32 for AES-GMAC. -/
def keyLenOk (alg n : Nat) : Bool := n == 32 || (decide (4 ≤ alg) && n == 16)

/-- A key into the slot of the node named for it, or the status that refuses it (R420). -/
def State.installKey (s : State) (dest : Option Nat) (b : KeyBlob) : Option Nat × State :=
  match dest with
  | none => (some stConsistency, s)
  | some i =>
    let n := s.groupNode i
    let k : KeySlot := ⟨b.alg, b.keyId, b.key, b.start, b.lifetime⟩
    let same := fun (o : Option KeySlot) => match o with | some o => o.keyId == b.keyId | none => false
    let reached := !s.flag F.TBU_STATUS_TIME_VALID || decide (secs b.start ≤ s.now)
    if n.kind ≠ 4 then (some stWrongState, s)
    else if b.alg = 0 ∨ 5 < b.alg ∨ !keyLenOk b.alg b.key.length then (some stUnsupportedAlg, s)
    else if b.lifetime = 0 ∨ 2 ^ 31 ≤ b.lifetime then (some stBadParam, s)
    else if (if reached then same n.nxt else same n.cur) then (some stConsistency, s)
    else (none, (s.modKeys i (fun n => if reached then { n with cur := some k } else { n with nxt := some k })).bump
      (F.DOM_CNT_COUNT.nth 2))

/-! ### Commands (R411, R431, R435) -/

/-- Whether the parameters of a request lie in the request area of the Dome mailbox, where it names a place there (R433). -/
def reqInBox (s : State) (q : Req) : Bool := match q.box with | some b => (s.boxed b).isSome | none => true

/-- A Security command: refused unless the Dome is READY (R411, R431) and its parameters lie in the request area (R433). -/
def State.security (s : State) (q : Req) (op : Nat) (ps : Octets) (long : Bool) (act : State → Ans × State) : Result :=
  s.patchaif q op ps long false (fun s => match s.dstate with
    | 1 => if reqInBox s q then act s else (.fail stBadParam 0x12 0 0, s)
    | 2 => (.fail stRootFail 0x12 0 0, s)
    | 3 => (.fail stDestroyed 0x12 0 0, s)
    | _ => (.fail stWrongState 0x12 0 0, s))

/-- A result in the response area of the Dome mailbox, which the reply names by offset and length (R433). -/
def State.domeResult (s : State) (o : Octets) : Ans × State :=
  (.done (le 4 0x8000 ++ le 4 o.length), s.wrOctets (domeBase + 0x8000) o)

/-- DOM_STATUS. -/
def domStatusAct (clear : Bool) (s : State) : Ans × State :=
  let v := s.showDom
  let o := v.regOctets 4 [F.DOM_STATUS_DSTATE, F.DOM_STATUS_ROOT_MARGINAL, F.DOM_STATUS_ANCHORS, F.DOM_STATUS_DEBUG_CNT]
    ++ v.regOctets 4 [F.DOM_ROOT_STAT_MAX_CORR, F.DOM_ROOT_STAT_TOTAL_CORR, F.DOM_ROOT_STAT_ATTEMPTS]
    ++ v.regOctets 4 [F.DOM_DEBUG_DBG_EN, F.DOM_DEBUG_DBG_SEL, F.DOM_DEBUG_PORT_OPEN, F.DOM_DEBUG_CHALLENGE]
    ++ v.regOctets 4 [F.DOM_NODES_LIVE, F.DOM_NODES_SWEEP]
    ++ v.cntOctets F.DOM_DIK_FP_FP 0 6 ++ v.cntOctets F.DOM_MS_VALUE 0 256 ++ v.cntOctets F.DOM_CNT_COUNT 0 8
  (.done o, s.clearCnt F.DOM_CNT_COUNT 0 8 clear)

/-- DOM_IDENTITY. -/
def domIdentityAct (s : State) : Ans × State :=
  s.domeResult (ofNats (octs 97 s.dom.dikPub ++ octs 48 s.dikFp) ++ Config.dikCert)

/-- KEY_CREATE (R416). -/
def keyCreateAct (i kind parent : Nat) (s : State) : Ans × State :=
  let p := s.node parent
  if i < 16 ∨ 8192 ≤ i ∨ 8192 ≤ parent ∨ !(kind == 2 || kind == 3 || kind == 4) then (.fail stBadParam 0x12 0 i, s)
  else if (s.node i).kind ≠ 0 ∨ s.doomed 7 i then (.fail stWrongState 0x12 0 i, s)
  else if !s.nodeLive parent ∨ !(p.kind == 1 || p.kind == 2) then (.fail stWrongState 0x12 0 parent, s)
  else if 6 ≤ p.depth then (.fail stConsistency 0x12 0 i, s)
  else (.done [], s.modNode i (fun n => { gen := n.gen, kind, parent, depth := p.depth + 1 }))

/-- KEY_DESTROY, with an extend of MS6 for node 2 (R417, R423). -/
def keyDestroyAct (i : Nat) (s : State) : Ans × State :=
  if 8192 ≤ i then (.fail stBadParam 0x12 0 i, s)
  else if i = 0 ∨ i = 1 ∨ i = 3 then (.fail stNotPermitted 0x12 0 i, s)
  else if (s.node i).kind = 0 ∨ s.doomed 7 i then (.fail stWrongState 0x12 0 i, s)
  else
    let t := s.keysFollow (s.destroyNode i)
    (.done [], if i = 2 then t.extendMs 6 (Config.eventDigest 6 [(s.node 2).gen]) else t)

/-- The key that opens a blob: the first 32 octets of the TRANSPORT node's key in format 0, the whole of it in format 1 (R420). -/
def State.blobKey (s : State) (fmt transport : Nat) : Nat :=
  if fmt = 0 then s.nodeKey 7 transport % 2 ^ 256 else s.nodeKey 7 transport

/-- Whether a blob opens under the TRANSPORT node's key as the keys named: it is what that key seals them to (R420). -/
def State.blobOpens (s : State) (fmt transport : Nat) (blob : SealedKeys) (keys : List KeyBlob) : Bool :=
  blob.body == Config.sealKeys fmt (s.blobKey fmt transport) blob.iv keys

/-- KEY_PUT: in format 0 one key into the GROUP node named, in format 1 each key into the node that the map gives its SPI; the
reply tells of the first refused (R420, R435). -/
def keyPutAct (fmt group transport : Nat) (map : List (Nat × Nat)) (blob : SealedKeys) (algOk : Bool) (keys : List KeyBlob) (s : State) :
    Ans × State :=
  if 1 < fmt ∨ 16 < map.length ∨ 8192 ≤ transport ∨ (fmt = 0 ∧ (8192 ≤ group ∨ keys.length ≠ 1)) then (.fail stBadParam 0x12 0 transport, s)
  else if !s.nodeLive transport ∨ (s.node transport).kind ≠ 6 then (.fail stWrongState 0x12 0 transport, s)
  else if !algOk then (.fail stUnsupportedAlg 0x12 0 transport, s)
  else if !s.blobOpens fmt transport blob keys then (.fail stConsistency 0x12 0 transport, s)
  else
    let r := keys.foldl (fun (a : Option (Nat × Nat) × State) (b : KeyBlob) =>
      let x := a.2.installKey (if fmt = 0 then some group else (map.find? (fun m => m.1 == b.spi)).map (·.2)) b
      (a.1.orElse (fun _ => x.1.map (fun st => (st, b.spi))), x.2)) (none, s)
    match r.1 with
    | none => (.done [], s.keysFollow r.2)
    | some (st, spi) => (.failWith st 0x12 0 (spi % 2 ^ 32), s.keysFollow r.2)

/-- KEY_AGREE: a fresh Dome key with the peer's into a new TRANSPORT node; the public key, signed (R435). -/
def keyAgreeAct (i signer peer : Nat) (info : List Nat) (s : State) : Ans × State :=
  if i < 16 ∨ 8192 ≤ i ∨ 8192 ≤ signer then (.fail stBadParam 0x12 0 i, s)
  else if (s.node i).kind ≠ 0 ∨ s.doomed 7 i ∨ !s.nodeLive 2 then (.fail stWrongState 0x12 0 i, s)
  else if !s.nodeLive signer ∨ (s.node signer).kind ≠ 3 ∨ signer = 1 then (.fail stWrongState 0x12 0 signer, s)
  else
    let d := s.freeVal 384 % (p384n - 1) + 1
    let s := s.drawn
    let pub := octs 97 (Config.ecPublic d)
    let key := Config.hkdf (Config.ecdh d peer) "" info % 2 ^ 384
    let t := s.modKeys i (fun n => { gen := n.gen, kind := 6, parent := 2, depth := 2, key })
    t.domeResult (ofNats (pub ++ octs 96 (Config.ecSign (s.signKey signer) pub)))

/-- KEY_INFO: type, parent, depth, GEN, state; the public key of a SIGN node; the slots of a GROUP node. -/
def keyInfoAct (i : Nat) (s : State) : Ans × State :=
  if 8192 ≤ i then (.fail stBadParam 0x12 0 i, s)
  else
    let n := s.node i
    let slot := fun (k : Option KeySlot) => match k with
      | some k => le 1 1 ++ le 1 k.alg ++ le 4 k.keyId ++ le 8 k.start ++ le 4 k.lifetime
      | none => le 18 0
    let st := if s.doomed 7 i then 2 else if n.kind = 0 then 0 else 1
    let more := if n.kind = 3 ∧ s.nodeLive i then ofNats (octs 97 (Config.ecPublic (s.signKey i)))
      else if n.kind = 4 then slot n.cur ++ slot n.nxt else []
    (.done (le 1 n.kind ++ le 2 n.parent ++ le 1 n.depth ++ le 4 n.gen ++ le 1 st ++ more), s)

/-- The anchors in nodes `l` whose usage has bit `u`: 0 BUNDLE, 1 DEBUG (R413, R428). -/
def State.anchors (s : State) (u : Nat) (l : List Nat) : List Nat :=
  (l.filter (fun i => s.nodeLive i && (s.node i).kind == 5 && bit u (s.node i).usage)).map (fun i => (s.node i).key)

/-- ANCHOR_SET, with an extend of MS7 (R423, R428). -/
def anchorSetAct (i pub usage : Nat) (stmt : List Nat) (sig : Nat) (s : State) : Ans × State :=
  if i < 4 ∨ 6 < i ∨ 4 ≤ usage then (.fail stBadParam 0x12 0 i, s)
  else if s.doomed 7 i then (.fail stWrongState 0x12 0 i, s)
  else
    let none_ := [4, 5, 6].all (fun j => !s.nodeLive j)
    if none_ || (s.anchors 0 [4, 5, 6]).any (fun k => Config.ecVerify k stmt sig) then
      let t := s.modNode i (fun n => { gen := n.gen, kind := 5, depth := 1, key := pub, usage
                                       mac := Config.hmac384 s.dom.anchorKey [i, pub, usage] })
      (.done [], t.extendMs 7 (Config.eventDigest 7 [i, pub, usage]))
    else (.fail stSignature 0x12 0 i, s)

/-- MEAS_EXTEND: MS8 to MS31 (R423). -/
def measExtendAct (i d : Nat) (s : State) : Ans × State :=
  if 32 ≤ i then (.fail stBadParam 0x12 0 i, s)
  else if i < 8 then (.fail stNotPermitted 0x12 0 i, s)
  else (.done [], s.extendMs i d)

/-- The value of a measurement slot with its count. -/
def State.msSlot (s : State) (i : Nat) : Nat × Nat := (Tbl.get 0 i s.dom.ms, Tbl.get 0 i s.dom.msCount)

/-- MEAS_READ: every slot with its count. -/
def measReadAct (s : State) : Ans × State :=
  (.done ((List.range 32).flatMap (fun i => le 48 (s.msSlot i).1 ++ le 4 (s.msSlot i).2)), s)

/-- The body of a quote (R426). -/
def State.quoteBody (s : State) (nonce : Octets) (mask : Nat) : List Nat :=
  let sel := (List.range 32).filter (fun i => bit i mask)
  let flags := b2n (s.flag F.TBU_STATUS_TIME_VALID) + 2 * b2n (s.flag F.DOM_STATUS_ROOT_MARGINAL)
    + 4 * b2n (s.flag F.WVL_CTL_ARM && s.flag F.WVL_CTL_ALLOW) + 8 * b2n (!s.slp.forces.isEmpty)
    + 16 * s.get F.PRC_STATUS_ROLE
  let id := s.regWord [F.TMC_MODULE_ID_MEMBER, F.TMC_MODULE_ID_HW_REV, F.TMC_MODULE_ID_STEPPING, F.TMC_MODULE_ID_SAFETY_EN]
  octs 4 0x5451394B ++ octs 2 0x0100 ++ octs 2 (160 + 52 * sel.length) ++ octs 4 id ++ octs 4 s.bundleId ++ octs 48 s.dikFp
    ++ octs 12 (Time.gt96 s.now) ++ octs 4 flags ++ octs 4 (s.node 7).gen ++ octs 4 s.dom.fuses ++ octs 4 mask
    ++ octs 1 nonce.length ++ octs 3 0 ++ (List.range 64).map (fun i => (nonce.getD i 0).toNat)
    ++ sel.flatMap (fun i => octs 48 (s.msSlot i).1) ++ sel.flatMap (fun i => octs 4 (s.msSlot i).2)

/-- ATTEST_QUOTE. -/
def attestQuoteAct (nonce : Octets) (mask : Nat) (s : State) : Ans × State :=
  if nonce.isEmpty ∨ 64 < nonce.length ∨ 2 ^ 32 ≤ mask then (.fail stBadParam 0x12 0 0, s)
  else if !s.nodeLive 7 then (.fail stDestroyed 0x12 0 7, s)
  else
    let b := s.quoteBody nonce mask
    (s.bump (F.DOM_CNT_COUNT.nth 5)).domeResult (ofNats (b ++ octs 96 (Config.ecSign (s.signKey 7) b)))

/-- ATTEST_AK_CERT. -/
def attestAkCertAct (s : State) : Ans × State :=
  if s.nodeLive 7 then s.domeResult (ofNats s.dom.akStmt) else (.fail stDestroyed 0x12 0 7, s)

/-- DEBUG_CHALLENGE: 32 octets that nothing foretells, valid for 60 s. -/
def debugChallengeAct (s : State) : Ans × State :=
  let v := s.freeVal 256
  let s := s.drawn
  (.done (le 32 v), { s with dom := { s.dom with challenge := some (v, s.now) } })

/-- DEBUG_CHALLENGE_EXPIRY. -/
def debugChallengeExpiry (s : State) : State :=
  match s.dom.challenge with
  | none => s
  | some (_, t) => let s := s.advanceTo (t + secs 60); { s with dom := { s.dom with challenge := none } }

/-- DEBUG_PORT_CLOSE: DBG_EN falls (R432). -/
def debugPortClose (s : State) : State :=
  { s.setF F.DOM_DEBUG_PORT_OPEN 0 with sup := { s.sup with dbgEn := false } }

/-- The levels of DBG_EN and DBG_SEL found at their pins; the port closes where DBG_EN is low (R432, R434). -/
def State.debugPins (s : State) (en sel : Bool) : State :=
  let s : State := { s with sup := { s.sup with dbgEn := en, dbgSel := sel } }
  if en then s else debugPortClose s

/-- An accepted DEBUG_OPEN (R431): node 2 destroyed, the working copies cleared, a fuse blown and read back, MS6 extended, and
the port open. Where the fuse fails MS6 is extended for the destruction of node 2 alone (R423, log 254). -/
def State.debugOpened (s : State) (token : List Nat) (fuseOk : Bool) : State :=
  let gen := (s.node 2).gen
  let s := (s.destroyNode 2).tlsCloseAll
  let s := { s with dom := { s.dom with root := none, akStmt := [] } }.setF F.DOM_STATUS_DSTATE 3
  if !fuseOk then { s with dom := { s.dom with openStatus := some stFuseFail } }.extendMs 6 (Config.eventDigest 6 [gen])
  else
    let s := { s with dom := { s.dom with fuses := s.dom.fuses + 1, openStatus := some stOk } }
    let s := (s.setF F.DOM_STATUS_DEBUG_CNT s.dom.fuses).extendMs 6 (Config.sha384 token)
    (s.setF F.DOM_DEBUG_PORT_OPEN 1).belfry 1 0x0008 0 [s.dom.fuses]

/-- DEBUG_OPEN: `enMs` how long DBG_EN has been high, `sel` the level of DBG_SEL, the token with what it names, and whether the
fuse reads back (R430, R431). -/
def debugOpenAct (enMs : Option Nat) (sel : Bool) (token : List Nat) (challenge fp sig signer : Nat) (fuseOk : Bool) (s : State) :
    Ans × State :=
  let t := s.debugPins enMs.isSome sel
  let held := match s.dom.challenge with | some (v, at_) => v == challenge && decide (s.now ≤ at_ + secs 60) | none => false
  let t := { t with dom := { t.dom with challenge := none } }
  let long := match enMs with | some n => decide (100 ≤ n) | none => false
  if !long ∨ sel ∨ s.get F.PRC_STATUS_ROLE ≠ 3 then (.failWith stWrongState 0x12 0 0, t)
  else if 32 ≤ s.dom.fuses then (.failWith stFuseFail 0x12 0 0, t)
  else if held && fp == s.dikFp && decide (3 ≤ signer) && decide (signer ≤ 6)
      && (s.anchors 1 [signer]).any (fun k => Config.ecVerify k token sig) then
    (.accepted 0 [], (t.keysFollow (t.debugOpened token fuseOk)).evalReady)
  else (.failWith stTokenRejected 0x12 0 signer, t.bump (F.DOM_CNT_COUNT.nth 6))

/-- DOME_RESTART. -/
def execDomeRestart (tries : List (List PufBlock)) (s : State) : Result := .next (domeRestart tries s)
/-- KEY_SWEEP_DONE. -/
def execKeySweepDone (s : State) : Result := .next (keySweepDone s)
/-- KEY_ACTIVATE. -/
def execKeyActivate (node : Nat) (s : State) : Result := .next (keyActivate node s)
/-- KEY_EXPIRE. -/
def execKeyExpire (node : Nat) (s : State) : Result := .next (keyExpire node s)
/-- DEBUG_CHALLENGE_EXPIRY. -/
def execDebugChallengeExpiry (s : State) : Result := .next (debugChallengeExpiry s)
/-- DEBUG_PORT_CLOSE. -/
def execDebugPortClose (s : State) : Result := .next (debugPortClose s)
/-- DOM_STATUS. -/
def execDomStatus (q : Req) (clear : Bool) (s : State) : Result := s.patchaif q 0x0B01 (flagOctets clear) false false (domStatusAct clear)
/-- DOM_IDENTITY. -/
def execDomIdentity (q : Req) (s : State) : Result := s.security q 0x0B02 [] false domIdentityAct
/-- KEY_CREATE. -/
def execKeyCreate (q : Req) (node kind parent : Nat) (s : State) : Result :=
  s.security q 0x0B03 (le 4 node ++ le 1 kind ++ le 4 parent) false (keyCreateAct node kind parent)
/-- KEY_DESTROY. -/
def execKeyDestroy (q : Req) (node : Nat) (s : State) : Result := s.security q 0x0B04 (le 4 node) false (keyDestroyAct node)
/-- KEY_PUT. -/
def execKeyPut (q : Req) (fmt : KeyForm) (transport : Nat) (map : List (Nat × Nat)) (blob : SealedKeys) (algOk : Bool) (keys : List KeyBlob)
    (s : State) : Result :=
  s.security q 0x0B05 (le 1 fmt.fmt ++ le 4 fmt.group ++ le 4 transport ++ listOctets (fun m => le 4 m.1 ++ le 4 m.2) map ++ strOctets (ofNats (blob.iv ++ blob.body))) false
    (keyPutAct fmt.fmt fmt.group transport map blob algOk keys)
/-- KEY_AGREE. -/
def execKeyAgree (q : Req) (node signer peer : Nat) (info : List Nat) (s : State) : Result :=
  s.security q 0x0B06 (le 4 node ++ le 4 signer ++ le 97 peer ++ strOctets (ofNats info)) false (keyAgreeAct node signer peer info)
/-- KEY_INFO. -/
def execKeyInfo (q : Req) (node : Nat) (s : State) : Result := s.security q 0x0B07 (le 4 node) false (keyInfoAct node)
/-- ANCHOR_SET. -/
def execAnchorSet (q : Req) (node pub usage : Nat) (stmt : List Nat) (sig : Nat) (s : State) : Result :=
  s.security q 0x0B08 (le 4 node ++ le 97 pub ++ le 1 usage ++ strOctets (ofNats stmt) ++ le 96 sig) false
    (anchorSetAct node pub usage stmt sig)
/-- MEAS_EXTEND. -/
def execMeasExtend (q : Req) (slot digest : Nat) (s : State) : Result :=
  s.security q 0x0B09 (le 4 slot ++ le 48 digest) false (measExtendAct slot digest)
/-- MEAS_READ. -/
def execMeasRead (q : Req) (s : State) : Result := s.patchaif q 0x0B0A [] false false measReadAct
/-- ATTEST_QUOTE. -/
def execAttestQuote (q : Req) (nonce : Octets) (mask : Nat) (s : State) : Result :=
  s.security q 0x0B0B (strOctets nonce ++ le 4 mask) false (attestQuoteAct nonce mask)
/-- ATTEST_AK_CERT. -/
def execAttestAkCert (q : Req) (s : State) : Result := s.security q 0x0B0C [] false attestAkCertAct
/-- DEBUG_CHALLENGE. -/
def execDebugChallenge (q : Req) (s : State) : Result := s.security q 0x0B0D [] false debugChallengeAct
/-- DEBUG_OPEN. -/
def execDebugOpen (q : Req) (enMs : Option Nat) (sel : Bool) (token : List Nat) (challenge dikFp sig signer : Nat) (fuseOk : Bool)
    (s : State) : Result :=
  s.security q 0x0B0E (strOctets (ofNats token) ++ le 96 sig ++ le 4 signer) true
    (debugOpenAct enMs sel token challenge dikFp sig signer fuseOk)

end Sys2Proof.Machine
end

