-- ==== Sys2Proof/Machine/Health.lean ====
section
/-! DEFINITION. Health and ageing (R461 to R485): scrubbing, the archive flash, telemetry, gauges, the VCORE plan, the core step,
and the Belfry's readers. -/
namespace Sys2Proof.Machine

/-- Count one event of the PHM (R482). -/
def State.phmBump (s : State) (n : Nat) : State := s.bump (F.PHM_CNT_COUNT.nth n)
/-- The state with the health record changed. -/
def State.modHlt (s : State) (f : Health → Health) : State := { s with hlt := f s.hlt }

/-! ### Scrubbing (R461, R462) -/

/-- An ECC correction in the present second (R465, quantity 11). -/
def State.corrected (s : State) : State := s.modHlt (fun h => { h with eccSec := h.eccSec + 1 })

/-- A word that cannot be corrected: it reads as an error until it is written. -/
def State.poison (s : State) (a : Nat) : State :=
  s.modHlt (fun h => { h with poisoned := a :: h.poisoned.filter (fun p => p != a) })

/-- A scrubbed word: by memory, what a correction counts, and what an error that cannot be corrected does (R197, R461). -/
def State.scrubWord (s : State) (mem : ScrubMem) (addr : Nat) (find : ScrubFind) : State :=
  let a := addr / 8 * 8
  match find, mem with
  | .clean, _ => s
  | .corrected, .smem => s.corrected.bump (F.SMEM_CNT_COUNT.nth 0)
  | .corrected, .dram => s.corrected.phmBump 4
  | .corrected, .prog => s.corrected.bump (F.SLP_CNT_COUNT.nth 6)
  | .corrected, .mram => s.corrected.bump (F.DRE_CNT_COUNT.nth 8)
  | .uncorrectable, .smem =>
    let w := (a - smemBase) / 8
    (((s.poison a).bump (F.SMEM_CNT_COUNT.nth 1)).setF F.SMEM_ERR_ADDR_LINE (w / 8)).setF F.SMEM_ERR_ADDR_WORD (w % 8)
  | .uncorrectable, .dram => ((s.poison a).phmBump 5).belfry 1 0x000E 0 [1, a]
  | .uncorrectable, .prog => { s with slp := { s.slp with badWords := addr :: s.slp.badWords.filter (fun p => p != addr) } }
  | .uncorrectable, .mram => ((s.poison a).bump (F.DRE_CNT_COUNT.nth 9)).belfry 1 0x000E 0 [3, a]

/-- The counter of full passes of a scrubber. -/
def passCnt : ScrubMem → Nat
  | .smem => 0 | .dram => 1 | .prog => 2 | .mram => 3

/-- Whether the address a scrubber reports lies in its memory. -/
def scrubIn (mem : ScrubMem) (a : Nat) : Bool :=
  match mem with
  | .smem => decide (smemBase ≤ a) && decide (a < smemBase + smemSize)
  | .dram => decide (a < dramEnd)
  | .prog => decide (a < 262144)
  | .mram => decide (mramBase ≤ a) && decide (a < mramBase + mramSize)

/-- SCRUB_PASS. -/
def scrubPass (mem : ScrubMem) (addr : Nat) (find : ScrubFind) (passEnd : Bool) (s : State) : State :=
  if !s.background || !scrubIn mem addr then s
  else
    let s := s.scrubWord mem addr find
    if passEnd then s.phmBump (passCnt mem) else s

/-! ### Archive flash (R463, R464) -/

/-- FLASH_STAT and FLASH_RO. -/
def State.showFlash (s : State) : State :=
  let e := s.hlt.erases.map Prod.snd
  let s := (s.setF F.PHM_FLASH_STAT_SPARE_FREE (1536 - s.hlt.retired.length)).setF F.PHM_FLASH_STAT_RETIRED s.hlt.retired.length
  let s := (s.setF F.PHM_FLASH_STAT_EC_MAX (e.foldl max 0)).setF F.PHM_FLASH_STAT_EC_MEAN (sumN e / 61035)
  s.setB F.PHM_BG_STATUS_FLASH_RO (decide (1536 ≤ s.hlt.retired.length))

/-- The flash takes writes: a spare remains (R463). -/
def State.flashOk (s : State) : Bool := decide (s.hlt.retired.length < 1536)

/-- A write of the archive flash, deferred in ride-through (R63). -/
def State.flashWrite (s : State) : State :=
  if s.sup.mode = .rideThrough then s.setF F.PHM_BG_STATUS_FLASH_DEFERRED 1 else s

/-- What the flash holds of the bundle slots: as the controller has them, unless a write of them is deferred. -/
def Tmc.flash (t : Tmc) : Slots := t.stored.getD ⟨t.active, t.pending, t.mark⟩

/-- A write of the bundle slots (R464): in ride-through it is deferred, and until it is made the flash holds what it held (R63). -/
def State.slotWrite (s : State) (f : Tmc → Tmc) : State :=
  let kept := if s.sup.mode = .rideThrough then some s.tmc.flash else none
  let s := s.flashWrite
  { s with tmc := { f s.tmc with stored := kept } }

/-- Levelling (R463): where one block has come to `n` erasures, static data moves until no block has had more than 1,000 fewer. -/
def levelled (n : Nat) (e : Tbl Nat) : Tbl Nat :=
  if n ≤ 1000 then e else (List.range 61035).map (fun b => (b, max (Tbl.get 0 b e) (n - 1000)))

/-- A block erased. -/
def State.eraseBlock (s : State) (b : Nat) : State :=
  let n := Tbl.get 0 b s.hlt.erases + 1
  s.modHlt (fun h => { h with erases := levelled n (Tbl.set 0 b n h.erases) })

/-- The fresh block to which a block is rewritten: a free choice among the others that are not retired (DESIGN CHOICE, log 206). -/
def State.freshBlock (s : State) (b : Nat) : Nat :=
  let x := b + 1 + s.freeVal 16 % 61034
  (((List.range (s.hlt.retired.length + 2)).map (fun i => (x + i) % 61035)).find? (fun y => y != b && !s.hlt.retired.contains y)).getD b

/-- FLASH_REFRESH: a block needing more than 24 corrections is rewritten to a fresh block; one that fails or needs more than 40 is
retired. -/
def flashRefresh (b corrections : Nat) (failed : Bool) (s : State) : State :=
  if !s.background || decide (61035 ≤ b) || s.hlt.retired.contains b || !s.flashOk then s
  else if failed || decide (40 < corrections) then
    ((s.modHlt (fun h => { h with retired := b :: h.retired })).belfry 1 0x000D 0 [b]).showFlash
  else if 24 < corrections then (s.eraseBlock (s.freshBlock b)).drawn.showFlash
  else s

/-! ### Telemetry (R465, R479) -/

/-- LO and STEP of a quantity. -/
def telemScale : Nat → Int × Int
  | 0 => (-4000, 250) | 1 => (-4000, 200) | 2 => (70000, 1500) | 3 => (70000, 1500) | 4 => (70000, 1500) | 5 => (0, 200)
  | 6 => (7000, 25) | 7 => (17200, 25) | 8 => (11500, 25) | 9 => (-4000, 250) | 10 => (-3100, 100) | _ => (0, 1)

/-- First word of the block of quantity q (R474). -/
def telemBlock (q : Nat) : Nat := blfBase + 0x105000 + q * 0x400

/-- The bin that counts the mean of `n` values of a sum, compared exactly (R465). -/
def telemBin (q : Nat) (sum : Int) (n : Nat) : Nat :=
  let (lo, step) := telemScale q
  if sum < lo * n then 0 else min 63 (((sum - lo * n) / (step * n)).toNat + 1)

/-- An extreme replaced: words `w` and `w + 1` of the block; a record where it differs from the last recorded by a STEP. -/
def State.extreme (s : State) (q w : Nat) (mx : Bool) (v last : Int) : State :=
  let s := (s.wr64 (telemBlock q + 8 * w) (unsigned 64 v)).wr64 (telemBlock q + 8 * (w + 1)) s.gt64
  if (telemScale q).2 ≤ |v - last| then
    let s := s.modHlt (fun h => { h with telem := Tbl.mod {} q (fun t =>
      if mx then { t with lastMax := v } else { t with lastMin := v }) h.telem })
    (s.belfry 3 q 0 [b2n mx, unsigned 64 v, unsigned 64 last]).bump (F.BLF_CNT_COUNT.nth 3)
  else s

/-- One 10 ms sample of a quantity: TELEM, the sums and the extremes. -/
def State.telemOne (s : State) (q : Nat) (v : Int) : State :=
  let s := s.setF (F.PHM_TELEM_VALUE.nth q) (unsigned 32 v)
  let t := Tbl.get ({} : Telem) q s.hlt.telem
  let first := t.dayCount == 0
  let s := s.modHlt (fun h => { h with telem := Tbl.set {} q { t with
    recent := (v :: t.recent).take 100, minuteSum := t.minuteSum + v, minuteCount := t.minuteCount + 1, daySum := t.daySum + v, dayCount := t.dayCount + 1
    dayMin := if first then v else min t.dayMin v, dayMax := if first then v else max t.dayMax v } h.telem })
  let at_ := fun (w : Nat) => s.rd64 (telemBlock q + 8 * w)
  let s := if at_ 65 = 0 ∨ v < signed 64 (at_ 64) then s.extreme q 64 false v t.lastMin else s
  if at_ 67 = 0 ∨ signed 64 (at_ 66) < v then s.extreme q 66 true v t.lastMax else s

/-- Since when T_PLATE has stayed 3 °C below the threshold of the thermal step (R472). -/
def State.trackCool (s : State) (plate : Int) : State :=
  let low := s.hlt.thermal != 0 && decide (plate ≤ 7000 + 500 * s.hlt.thermal - 300)
  s.modHlt (fun h => { h with coolFrom := if low then some (h.coolFrom.getD s.now) else none })

/-- TELEMETRY_SAMPLE: quantities 0 to 9 as measured, RATE_ADJ and the ECC corrections from the module itself; recalibrations that
are now due begin (R89). -/
def telemetrySample (vals : List Int) (s : State) : State :=
  if !s.background then s
  else
    let r := s.openDiv (s.getI F.TBU_RATE_ADJ_RATE_ADJ * 1000000000) (2 ^ 42)
    let all := (List.range 10).map (fun q => vals.getD q 0) ++ [r.1, (s.hlt.eccLast : Int)]
    let s := all.zipIdx.foldl (fun (s : State) (p : Int × Nat) => s.telemOne p.2 p.1) r.2
    let s := { s with sup := { s.sup with dieHot := decide (11500 ≤ vals.getD 0 0) } }
    (s.trackCool (vals.getD 1 0)).tdcKeep

/-- One quantity at the end of a second: the bin of the mean of its last 100 samples, SECONDS, and a second of the minute. -/
def State.histOne (s : State) (q : Nat) : State :=
  let t := Tbl.get ({} : Telem) q s.hlt.telem
  if t.recent.isEmpty then s
  else
    let bump := fun (s : State) (w : Nat) =>
      let a := telemBlock q + 8 * w
      s.wr64 a (satInc 64 (s.rd64 a))
    let s := bump (bump s (telemBin q (sumI t.recent) t.recent.length)) 68
    s.modHlt (fun h => { h with telem := Tbl.set {} q { t with minuteSecs := t.minuteSecs + 1 } h.telem })

/-- The archive takes the 1-minute means of every quantity; its ring covers 20 years (R464). A read-only flash takes none (R463). -/
def State.archiveMinute (s : State) : State :=
  if (Tbl.get ({} : Telem) 0 s.hlt.telem).minuteSecs < 60 then s
  else
    let r := (List.range 12).foldl (fun (a : List Int × State) q =>
      let t := Tbl.get ({} : Telem) q a.2.hlt.telem
      let m := a.2.openDiv t.minuteSum (max 1 t.minuteCount)
      (a.1 ++ [m.1], m.2.modHlt (fun h => { h with telem := Tbl.set {} q { t with minuteSum := 0, minuteCount := 0, minuteSecs := 0 } h.telem })))
      ([], s)
    if r.2.flashOk then r.2.modHlt (fun h => { h with archive := (r.1 :: h.archive).take 10519200 }) else r.2

/-- HISTOGRAM_UPDATE. -/
def histogramUpdate (s : State) : State :=
  if !s.background then s
  else
    let s := (forN 12 State.histOne s).archiveMinute
    s.modHlt (fun h => { h with eccLast := h.eccSec, eccSec := 0 })

/-! ### Ageing (R466 to R472) -/

/-- Gauges of the engine group (R466). -/
def engineGauges : List Nat := (List.range 96).filter (fun g => decide (g < 56) || decide (80 ≤ g))
/-- Gauges of the core group (R466). -/
def coreGauges : List Nat := (List.range 96).filter (fun g => decide (56 ≤ g) && decide (g < 80))

/-- S_n of a gauge from its captured elements (R467), in units of 0.1 ps; VCORE in 0.1 mV and T_DIE in 0.01 °C as the 10 ms sample
before its launch burst holds them (R465). -/
def State.slack (s : State) (g n vcore : Nat) (tdie : Int) : Int × State :=
  s.openDiv (1250000 * n - 10 * Config.gaugeKv g * ((vcore : Int) - 8500) - Config.gaugeKt g * (11500 - tdie)) 10000

/-- A gauge's measurement: its register, its history in the state and in the Belfry (R469, R474, R482). -/
def State.gaugeDone (s : State) (g n vcore : Nat) (tdie : Int) (day : Nat) : State :=
  let r := s.slack g n vcore tdie
  let v := satInt 16 r.1
  let s := (r.2.setI (F.PHM_GAUGE_S_N.nth g) v).setF (F.PHM_GAUGE_S_M.nth g) (125 * n)
  let c := s.openDiv tdie 100
  let m := c.2.openDiv vcore 10
  let s := (m.2.setI (F.PHM_GAUGE_T_DIE.nth g) c.1).setF (F.PHM_GAUGE_VCORE.nth g) m.1.toNat
  let s := s.wr64 (blfBase + 0x109000 + g * 0x1000 + s.hlt.histN % 512 * 8) (place 63 32 day + unsigned 16 v)
  s.modHlt (fun h => { h with hist := Tbl.set [] g (((day, v) :: Tbl.get [] g h.hist).take 512) h.hist })

/-- S_n of a gauge now. -/
def State.sn (s : State) (g : Nat) : Int := s.getI (F.PHM_GAUGE_S_N.nth g)

/-- ⌊√n⌋ of a number below 4^k, bit by bit. -/
def rootBits : Nat → Nat → Nat → Nat
  | 0, _, r => r
  | k + 1, n, r => rootBits k n (if (r + 2 ^ k) * (r + 2 ^ k) ≤ n then r + 2 ^ k else r)

/-- d^0.25 of a day in units of 2^-64. -/
def fourthRoot (d : Nat) : Nat := rootBits 80 (rootBits 160 (d * 2 ^ 256) 0) 0

/-- The least-squares line through the stored values of a gauge (R469): with x = d^0.25 in units of 2^-64 and y = S_n in units of
0.1 ps, `a` and `b` over the common denominator `den`; none where every value has the same day, so that no one line fits best. The
rounding of the real-valued fit is not stated: DESIGN CHOICE, log 202. -/
structure Fit where
  a : Int
  b : Int
  den : Int
  deriving DecidableEq, Repr

/-- The fit of R469 over stored values, each with its operating day. -/
def fitOf (h : List (Nat × Int)) : Option Fit :=
  let xs := h.map (fun p => (fourthRoot p.1 : Int))
  let ys := h.map Prod.snd
  let sx := sumI xs
  let sy := sumI ys
  let sxx := sumI (xs.map (fun x => x * x))
  let sxy := sumI ((xs.zip ys).map (fun p => p.1 * p.2))
  let den := h.length * sxx - sx * sx
  if den ≤ 0 then none else some ⟨sy * sxx - sx * sxy, h.length * sxy - sx * sy, den⟩

/-- The day on which a gauge's margin runs out, as a fraction, from 30 values and with b < 0: ((MARGIN_REQ − a) / b)^4 (R469); where
no one line fits best, a free value. -/
def State.dStar (s : State) (g : Nat) : Option (Nat × Nat) :=
  let h := Tbl.get [] g s.hlt.hist
  let req := s.get F.PHM_AGE_CFG_MARGIN_REQ
  if h.length < 30 then none
  else match fitOf h with
    | none => (Config.fitDay req h).map (fun d => (d, 1))
    | some f =>
      if 0 ≤ f.b then none
      else some (((10 * (req : Int) * f.den - f.a).natAbs) ^ 4, (f.b.natAbs * 2 ^ 64) ^ 4)

/-- The earliest projection of the engine gauges, with its gauge. -/
def State.worst (s : State) : Option ((Nat × Nat) × Nat) :=
  engineGauges.foldl (fun (a : Option ((Nat × Nat) × Nat)) g => match s.dStar g, a with
    | some d, some (d0, g0) => if d.1 * d0.2 < d0.1 * d.2 then some (d, g) else some (d0, g0)
    | some d, none => some (d, g)
    | none, a => a) none

/-- The projection (R469); the rounding to a day is open. -/
def State.project (s : State) (day : Nat) : State :=
  match s.worst with
  | none => (s.setF F.PHM_AGE_PROJ_PROJ_DAYS 0xFFFFFFFF).setF F.PHM_AGE_PROJ_PROJ_SEC 0
  | some (d, g) =>
    let q := s.openDiv ((d.1 : Int) - day * d.2) d.2
    let n := min 0xFFFFFFFE q.1.toNat
    ((q.2.setF F.PHM_AGE_PROJ_PROJ_DAYS n).setF F.PHM_AGE_PROJ_PROJ_SEC (Time.sec s.now + n * 86400)).setF
      F.PHM_AGE_STATUS_WORST_GAUGE g

/-- The fit a and b of stored values as binary32, in ps and ps per day^0.25 (R484). -/
def fitOctets (h : List (Nat × Int)) : Octets :=
  match fitOf h with
  | none => le 4 (Config.fitA h).toNat ++ le 4 (Config.fitB h).toNat
  | some f => le 4 (fmt32.round (decide (f.a < 0)) f.a.natAbs (10 * f.den).natAbs)
      ++ le 4 (fmt32.round (decide (f.b < 0)) (f.b.natAbs * 2 ^ 64) (10 * f.den).natAbs)

/-- Whether every engine gauge keeps MARGIN_REQ and HEADROOM at a supply of `v` mV (R470), in units of 0.001 ps. -/
def State.planFits (s : State) (v : Nat) : Bool :=
  engineGauges.all (fun g => decide
    (1000 * ((s.get F.PHM_AGE_CFG_MARGIN_REQ : Int) + s.get F.PHM_AGE_CFG_HEADROOM)
      ≤ 100 * s.sn g - Config.gaugeKv g * (850 - (v : Int))))

/-- The stored plan; VCORE_INIT before the first measurement (R470). -/
def State.vcorePlan (s : State) : Nat := if s.hlt.hdrPlan = 0 then Config.vcoreInit else s.hlt.hdrPlan

/-- The plan after a measurement: the smallest step at or above the present one that fits, 850 mV with MARGIN_LOW where none does;
each raise makes a record and ramps VCORE (R470, R471). -/
def State.planVcore (s : State) : State :=
  let old := s.vcorePlan
  let steps := (List.range ((850 - old) / 5 + 1)).map (fun k => old + 5 * k)
  let fit := steps.find? s.planFits
  let new := fit.getD 850
  let s := if fit.isNone && !s.planFits 850 then s.setF F.PHM_AGE_STATUS_MARGIN_LOW 1 else s
  let s := s.setF F.PHM_AGE_STATUS_VCORE_PLAN new
  if old < new then
    ((({ s with sup := { s.sup with vcore := new } }.modHlt (fun h => { h with hdrPlan := new })).phmBump 7).belfry 2 0x0002 0
      [old, new, 0])
  else s.modHlt (fun h => { h with hdrPlan := new })

/-- MARGIN_EXHAUSTED: an engine gauge below MARGIN_REQ (R471). -/
def State.exhausted (s : State) : State :=
  match engineGauges.find? (fun g => decide (s.sn g < 10 * (s.get F.PHM_AGE_CFG_MARGIN_REQ : Int))) with
  | none => s
  | some g =>
    if s.flag F.PHM_AGE_STATUS_MARGIN_EXHAUSTED then s
    else (s.setF F.PHM_AGE_STATUS_MARGIN_EXHAUSTED 1).belfry 2 0x0004 0 [0, 1, g]

/-- The step in force follows its components, at most once in 100 ms, with one CORE_STEP record; `cause` 0 thermal, 1 ageing
(R472). -/
def State.coreStep (s : State) (cause : Nat) : State :=
  let old := s.get F.PHM_AGE_STATUS_CORE_STEP
  let new := max s.hlt.thermal (s.get F.PHM_AGE_STATUS_AGE_STEP)
  if old = new then s
  else
    let s := match s.hlt.stepAt with | some t => s.advanceTo (t + ms 100) | none => s
    let s := s.modHlt (fun h => { h with stepAt := some s.now, hdrCore := new })
    (s.setF F.PHM_AGE_STATUS_CORE_STEP new).belfry 2 0x0003 0 [old, new, cause]

/-- Slack gained per core path at a step, in units of 0.1 ps. -/
def stepGain : Nat → Int
  | 0 => 0 | 1 => 1000 | 2 => 2000 | _ => 4000

/-- The ageing step after a measurement; it never moves down (R472). -/
def State.ageStep (s : State) : State :=
  let need := 10 * ((s.get F.PHM_AGE_CFG_MARGIN_REQ : Int) + s.get F.PHM_AGE_CFG_HEADROOM)
  let old := s.get F.PHM_AGE_STATUS_AGE_STEP
  let fits := fun n => decide (old ≤ n) && coreGauges.all (fun g => decide (need ≤ s.sn g + stepGain n))
  let new := ((List.range 4).find? fits).getD 3
  ((s.modHlt (fun h => { h with hdrAge := new })).setF F.PHM_AGE_STATUS_AGE_STEP new).coreStep 1

/-- A measurement starts, or is deferred and counted in ride-through (R468); before the end of start-up it waits for that
(R461; DEDUCED, log 272). -/
def State.startMeasure (s : State) (byCmd : Bool) (day : Nat) : State :=
  let s := s.modHlt (fun h => { h with meas := some (byCmd, day) })
  if s.sup.mode = .rideThrough then (s.modHlt (fun h => { h with measDue := some 0 })).phmBump 6
  else if !s.background then s.modHlt (fun h => { h with measDue := some (max 1 s.now) })
  else s.setF F.PHM_BG_STATUS_MEAS_RUNNING 1

/-- The DAILY record: minimum, maximum and mean of each quantity, 4 octets each (R468, R476). -/
def State.dailyRecord (s : State) : State :=
  let r := (List.range 12).foldl (fun (a : List Nat × State) q =>
    let t := Tbl.get ({} : Telem) q a.2.hlt.telem
    let m := a.2.openDiv t.daySum (max 1 t.dayCount)
    (a.1 ++ [unsigned 32 t.dayMin, unsigned 32 t.dayMax, unsigned 32 m.1],
      m.2.modHlt (fun h => { h with telem := Tbl.set {} q { t with dayMin := 0, dayMax := 0, daySum := 0, dayCount := 0 } h.telem })))
    ([], s)
  r.2.belfry 4 0x0001 0 ((List.range 18).map (fun i => word r.1 (2 * i) + word r.1 (2 * i + 1) * 2 ^ 32))

/-- OPERATING_DAY_END: the DAILY record and the measurement of the day that ended, unless a command has made it (R468). -/
def operatingDayEnd (s : State) : State :=
  let day := s.get F.PHM_KEEP_CNT_OP_SEC / 86400
  if day ≤ s.hlt.dayDone then s
  else
    let s := (s.modHlt (fun h => { h with dayDone := day })).dailyRecord
    if s.hlt.cmdDay = some (day - 1) ∨ s.hlt.meas ≠ none then s else s.startMeasure false (day - 1)

/-- DEFERRED_MEASUREMENT: 10 s after ride-through ended (R468), or once start-up has ended. -/
def deferredMeasurement (s : State) : State :=
  match s.hlt.measDue with
  | none => s
  | some t =>
    if t = 0 ∨ !s.background then s
    else (((s.advanceTo t).modHlt (fun h => { h with measDue := none }))).setF F.PHM_BG_STATUS_MEAS_RUNNING 1

/-- MEASUREMENT_COMPLETE: every gauge measured, each with VCORE and T_DIE of the sample before its launch burst; trends, the plan and the core step follow, and the MEASURE record (R468 to
R472). -/
def measurementComplete (slacks vcore : List Nat) (tdie : List Int) (s : State) : State :=
  match s.hlt.meas with
  | none => s
  | some (byCmd, day) =>
    if !s.flag F.PHM_BG_STATUS_MEAS_RUNNING then s
    else
      let s := forN 96 (fun s g => s.gaugeDone g (min 255 (word slacks g)) (word vcore g) (tdie.getD g 0) day) s
      let s := (s.modHlt (fun h => { h with
        histN := h.histN + 1, meas := none, cmdDay := if byCmd then some day else h.cmdDay })).setF F.PHM_BG_STATUS_MEAS_RUNNING 0
      let s := (((s.project day).planVcore).exhausted).ageStep
      let s := s.setF F.PHM_AGE_STATUS_LAST_DAY day
      let g := s.get F.PHM_AGE_STATUS_WORST_GAUGE
      s.belfry 2 0x0001 0 [s.get F.PHM_AGE_STATUS_VCORE_PLAN, s.get F.PHM_AGE_STATUS_CORE_STEP, g,
        unsigned 64 (s.sn g), s.get F.PHM_AGE_PROJ_PROJ_DAYS]

/-- Ride-through begins: background work pauses, and a measurement under way is discarded to run again (R63, R468). -/
def State.pauseWork (s : State) : State :=
  let s := s.setF F.PHM_BG_STATUS_PAUSED 1
  if s.flag F.PHM_BG_STATUS_MEAS_RUNNING then
    (s.setF F.PHM_BG_STATUS_MEAS_RUNNING 0).modHlt (fun h => { h with measDue := some 0 })
  else s.modHlt (fun h => { h with measDue := h.measDue.map (fun _ => 0) })

/-- Ride-through ends: deferred flash writes start, and a deferred measurement waits 10 s. -/
def State.resumeWork (s : State) : State :=
  let s := (s.setF F.PHM_BG_STATUS_PAUSED 0).setF F.PHM_BG_STATUS_FLASH_DEFERRED 0
  let s := { s with tmc := { s.tmc with stored := none } }
  s.modHlt (fun h => { h with measDue := h.measDue.map (fun _ => s.now + secs 10) })

/-- The thermal step that a 1 s mean of T_PLATE asks for (R472). -/
def thermalOf (mean : Int) : Nat := if 8500 < mean then 3 else if 8000 < mean then 2 else if 7500 < mean then 1 else 0

/-- THERMAL_STEP. -/
def thermalStep (mean : Int) (s : State) : State :=
  if s.hlt.thermal < thermalOf mean then (s.modHlt (fun h => { h with thermal := thermalOf mean, coolFrom := none })).coreStep 0
  else s

/-- THERMAL_STEP_DOWN: 10 s at 3 °C below the threshold of the step (R472). -/
def thermalStepDown (mean : Int) (s : State) : State :=
  match s.hlt.coolFrom with
  | none => s
  | some t =>
    if s.hlt.thermal = 0 ∨ 7000 + 500 * s.hlt.thermal - 300 < mean then s
    else ((s.advanceTo (t + secs 10)).modHlt (fun h => { h with thermal := h.thermal - 1, coolFrom := none })).coreStep 0

/-! ### The Belfry's counters and readers (R478, R480, R483) -/

/-- OP_SEC and POWER_CYCLES mirrored into the header (R478). -/
def State.mirror (s : State) : State :=
  s.modHlt (fun h => { h with hdrOpSec := s.get F.PHM_KEEP_CNT_OP_SEC, hdrCycles := s.get F.PHM_KEEP_CNT_POWER_CYCLES })

/-- A write of BLF.CURSOR: the snapshot of the record named. -/
def State.cursorWrite (s : State) (v : Nat) : State :=
  ((s.setF F.BLF_CURSOR_FIRST (bits 63 63 v)).setF F.BLF_CURSOR_RSEQ (bits 47 0 v)).snapshot

/-- A write of BLF.STEP: NEXT goes to the following record. -/
def State.cursorStep (s : State) (v : Nat) : State :=
  if bit 0 v then (s.setF F.BLF_CURSOR_RSEQ (s.get F.BLF_CURSOR_RSEQ + 1)).snapshot else s

/-- STAGED of BLF.STATUS. -/
def State.showBlf (s : State) : State := s.setF F.BLF_STATUS_STAGED s.keep.staged.length

/-! ### Commands (R455, R484) -/

/-- The bits of PHM.FAULT from bit 0 up. -/
def faultFields : List Field := [F.PHM_FAULT_ROOT_LOCK, F.PHM_FAULT_ROOT_RATIO, F.PHM_FAULT_FEED_A_LOST, F.PHM_FAULT_FEED_B_LOST,
  F.PHM_FAULT_RAIL, F.PHM_FAULT_VIO_CAR, F.PHM_FAULT_BROWNOUT, F.PHM_FAULT_THERM]

/-- A mask of 1s written to PHM.FAULT (R67). -/
def State.clearFaults (s : State) (mask : Nat) : State :=
  faultFields.foldl (fun (s : State) f => if bit f.lo mask then s.setF f 0 else s) s

/-- HEALTH_STATUS. -/
def healthStatusAct (clear : Bool) (s : State) : Ans × State :=
  let o := s.regOctets 8 [F.PHM_KEEP_CNT_OP_SEC, F.PHM_KEEP_CNT_POWER_CYCLES]
    ++ s.regOctets 4 [F.PHM_SUPPLY_STATUS_VBUS, F.PHM_SUPPLY_STATUS_IOSEL, F.PHM_SUPPLY_STATUS_PAIRSEL,
      F.PHM_SUPPLY_STATUS_VIO_CAR_STATE, F.PHM_SUPPLY_STATUS_FEED_B_OK, F.PHM_SUPPLY_STATUS_FEED_A_OK,
      F.PHM_SUPPLY_STATUS_VANA_OK, F.PHM_SUPPLY_STATUS_VIO_OK, F.PHM_SUPPLY_STATUS_VCORE_OK,
      F.PHM_SUPPLY_STATUS_RETURN_PENDING, F.PHM_SUPPLY_STATUS_RIDE]
    ++ s.regOctets 4 faultFields ++ s.regOctets 4 [F.PHM_RIDE_STATS_LAST_MIN_VBUS, F.PHM_RIDE_STATS_RIDE_CNT]
    ++ (List.range 16).flatMap (fun q => le 4 (s.get (F.PHM_TELEM_VALUE.nth q))) ++ s.cntOctets F.PHM_CNT_COUNT 0 8
  let t := s.clearCnt F.PHM_CNT_COUNT 0 8 clear
  (.done o, if clear then t.setF F.PHM_RIDE_STATS_RIDE_CNT 0 else t)

/-- FAULT_CLEAR. -/
def faultClearAct (mask : Nat) (s : State) : Ans × State :=
  if 256 ≤ mask then (.fail stBadParam 0x01 0 0, s) else (.done [], (s.clearFaults mask).evalReady)

/-- The ageing status register. -/
def ageFields : List Field := [F.PHM_AGE_STATUS_VCORE_PLAN, F.PHM_AGE_STATUS_CORE_STEP, F.PHM_AGE_STATUS_AGE_STEP,
  F.PHM_AGE_STATUS_MARGIN_LOW, F.PHM_AGE_STATUS_MARGIN_EXHAUSTED, F.PHM_AGE_STATUS_PUF_AGEING, F.PHM_AGE_STATUS_WORST_GAUGE,
  F.PHM_AGE_STATUS_LAST_DAY]

/-- AGEING_STATUS. -/
def ageingStatusAct (s : State) : Ans × State :=
  let gauge := fun (g : Nat) => s.regOctets 8 (([F.PHM_GAUGE_S_N, F.PHM_GAUGE_S_M, F.PHM_GAUGE_T_DIE, F.PHM_GAUGE_VCORE]
    : List Field).map (Field.nth · g))
  let fit := fun (g : Nat) => fitOctets (Tbl.get [] g s.hlt.hist)
  (.done (s.regOctets 8 ageFields ++ s.regOctets 8 [F.PHM_AGE_PROJ_PROJ_DAYS, F.PHM_AGE_PROJ_PROJ_SEC]
    ++ s.regOctets 4 [F.PHM_AGE_CFG_MARGIN_REQ, F.PHM_AGE_CFG_HEADROOM] ++ (List.range 96).flatMap gauge
    ++ (List.range 96).flatMap fit), s)

/-- AGEING_MEASURE: the sequence of R468 on demand. -/
def ageingMeasureAct (s : State) : Ans × State :=
  if s.hlt.meas ≠ none then (.fail stBusy 0x01 0 0, s)
  else (.accepted 0 [], s.startMeasure true (s.get F.PHM_KEEP_CNT_OP_SEC / 86400))

/-- BELFRY_READ: up to 56 records with their WIN_STATE, or the blocks of up to 15 quantities. -/
def belfryReadAct (area start count : Nat) (s : State) : Ans × State :=
  if area = 0 ∧ count ≤ 56 then
    (.done (le 2 count ++ (List.range count).flatMap (fun i =>
      le 1 (s.winState false (start + i)) ++ wordsOctets (s.recordWords false (start + i)))), s)
  else if area = 1 ∧ count ≤ 15 ∧ start + count ≤ 16 then
    (.done (le 2 count ++ (List.range count).flatMap (fun i => wordsOctets (s.rdWords (telemBlock (start + i)) 128))), s)
  else (.fail stBadParam 0x0D 0 0, s)

/-- FLASH_STATUS. -/
def flashStatusAct (s : State) : Ans × State :=
  let v := s.showFlash
  (.done (v.regOctets 4 [F.PHM_BG_STATUS_FLASH_RO, F.PHM_BG_STATUS_MEAS_RUNNING, F.PHM_BG_STATUS_FLASH_DEFERRED,
      F.PHM_BG_STATUS_PAUSED] ++ v.regOctets 8 [F.PHM_FLASH_STAT_SPARE_FREE, F.PHM_FLASH_STAT_RETIRED, F.PHM_FLASH_STAT_EC_MAX,
      F.PHM_FLASH_STAT_EC_MEAN]), s)

/-- SCRUB_PASS. -/
def execScrubPass (mem : ScrubMem) (addr : Nat) (find : ScrubFind) (passEnd : Bool) (s : State) : Result :=
  .next (scrubPass mem addr find passEnd s)
/-- FLASH_REFRESH. -/
def execFlashRefresh (block corrections : Nat) (failed : Bool) (s : State) : Result :=
  .next (flashRefresh block corrections failed s)
/-- TELEMETRY_SAMPLE. -/
def execTelemetrySample (vals : List Int) (s : State) : Result := .next (telemetrySample vals s)
/-- HISTOGRAM_UPDATE. -/
def execHistogramUpdate (s : State) : Result := .next (histogramUpdate s)
/-- OPERATING_DAY_END. -/
def execOperatingDayEnd (s : State) : Result := .next (operatingDayEnd s)
/-- DEFERRED_MEASUREMENT. -/
def execDeferredMeasurement (s : State) : Result := .next (deferredMeasurement s)
/-- MEASUREMENT_COMPLETE. -/
def execMeasurementComplete (slacks vcore : List Nat) (tdie : List Int) (s : State) : Result :=
  .next (measurementComplete slacks vcore tdie s)
/-- THERMAL_STEP. -/
def execThermalStep (mean : Int) (s : State) : Result := .next (thermalStep mean s)
/-- THERMAL_STEP_DOWN. -/
def execThermalStepDown (mean : Int) (s : State) : Result := .next (thermalStepDown mean s)
/-- BELFRY_MIRROR: an hour of OP_SEC after the last one (R478). -/
def belfryMirror (s : State) : State := if s.hlt.hdrOpSec + 3600 ≤ s.get F.PHM_KEEP_CNT_OP_SEC then s.mirror else s

/-- BELFRY_MIRROR. -/
def execBelfryMirror (s : State) : Result := .next (belfryMirror s)
/-- BLF_CURSOR_WRITE. -/
def execBlfCursorWrite (m : Master) (value : Nat) (s : State) : Result :=
  .next (s.granted m F.BLF_CURSOR_RSEQ.addr (fun s => s.cursorWrite value))
/-- BLF_STEP_NEXT. -/
def execBlfStepNext (m : Master) (value : Nat) (s : State) : Result :=
  .next (s.granted m F.BLF_STEP_NEXT.addr (fun s => s.cursorStep value))
/-- HEALTH_STATUS. -/
def execHealthStatus (q : Req) (clear : Bool) (s : State) : Result :=
  s.patchaif q 0x0C01 (flagOctets clear) false false (healthStatusAct clear)
/-- FAULT_CLEAR. -/
def execFaultClear (q : Req) (mask : Nat) (s : State) : Result := s.patchaif q 0x0C02 (le 4 mask) false false (faultClearAct mask)
/-- AGEING_STATUS. -/
def execAgeingStatus (q : Req) (s : State) : Result := s.patchaif q 0x0C03 [] false false ageingStatusAct
/-- AGEING_MEASURE. -/
def execAgeingMeasure (q : Req) (s : State) : Result := s.patchaif q 0x0C04 [] true false ageingMeasureAct
/-- BELFRY_READ. -/
def execBelfryRead (q : Req) (area start count : Nat) (s : State) : Result :=
  s.patchaif q 0x0C05 (le 1 area ++ le 8 start ++ le 2 count) false false (belfryReadAct area start count)
/-- FLASH_STATUS. -/
def execFlashStatus (q : Req) (s : State) : Result := s.patchaif q 0x0C06 [] false false flashStatusAct

end Sys2Proof.Machine
end

