-- ==== Sys2Proof/Machine/Logic.lean ====
section
/-! DEFINITION. The Scarab's instructions (R243 to R249): each acts on the running class when the word at its program counter
is that instruction, and ends the slot instead when that word holds an uncorrectable error (R262). -/
namespace Sys2Proof.Machine

/-- One instruction: `word` is fetched by the running class `c`, slot `k`, and acts; anything else changes nothing. -/
def State.scRun (s : State) (word : Nat) (act : (c k : Nat) → ClassSt → State → Result) : Result :=
  match s.slp.cur with
  | none => .next s
  | some c =>
    let x := s.clsOf c
    match x.slots with
    | [] => .next s
    | k :: _ =>
      let p := s.progAt k x.n
      if x.running && !x.ended && decide (x.pc < p.2) then
        if s.slp.badWords.contains (p.1 + x.pc) then .next (s.slotFault c k (p.1 + x.pc))
        else if s.progWord (p.1 + x.pc) = word then act c k x s
        else .next s
      else .next s

/-- ACC takes a value and the program counter moves on by one; `n` LOG_CLK cycles pass. -/
def State.scNext (s : State) (c : Nat) (acc : Bool) (n : Nat) : State :=
  (s.modCls c (fun x => { x with acc := acc, pc := x.pc + 1 })).spend n

/-- The program counter moves to an address of the slot; `n` LOG_CLK cycles pass. -/
def State.scGoto (s : State) (c : Nat) (pc n : Nat) : State := (s.modCls c (fun x => { x with pc := pc })).spend n

/-- An instruction of one read operand: ACC takes `f` of the class and the operand. -/
def State.scRead1 (s : State) (op : Nat) (sp : RdSpace) (ix : Nat) (f : ClassSt → Bool → Bool) : Result :=
  s.scRun (scWord op (rdCode sp) ix) (fun c k x s => .next (s.scNext c (f x (s.scRead c k sp ix)) 1))

/-- An instruction that opens a branch: (ACC, o) is pushed and ACC takes `f` of the operand; 32 entries hold no more. -/
def State.scPush (s : State) (op : Nat) (sp : RdSpace) (ix : Nat) (o : StackOp) (f : Bool → Bool) : Result :=
  s.scRun (scWord op (rdCode sp) ix) (fun c k x s =>
    if 32 ≤ x.stack.length then .fault .scarabStack
    else .next ((s.modCls c (fun y => { y with stack := (x.acc, o) :: y.stack })).scNext c (f (s.scRead c k sp ix)) 1))

/-- The value a branch yields. -/
def StackOp.join : StackOp → Bool → Bool → Bool
  | .and, v, a => v && a
  | .or, v, a => v || a
  | .xor, v, a => v ^^ a

/-- A write of Q or M by the running class. -/
def State.scWrite (s : State) (c : Nat) (sp : WrSpace) (ix : Nat) (v : Bool) : State :=
  s.opPut c ix (match sp with | .q => .q v | .m => .m v)

/-- An instruction that writes Q or M: `f` of ACC, or nothing. -/
def State.scStore (s : State) (op : Nat) (sp : WrSpace) (ix : Nat) (f : Bool → Option Bool) : Result :=
  s.scRun (scWord op (wrCode sp) ix) (fun c _ x s =>
    .next ((match f x.acc with | some v => s.scWrite c sp ix v | none => s).scNext c x.acc 1))

/-! ### Timers (R246, R247) -/

/-- ET moves on by dt and saturates (R246). -/
def etAdd (et dt : Nat) : Nat := min (et + dt) (2 ^ 64 - 1)

/-- TON. -/
def tonStep (t : Timer) (i : Bool) (dt pt : Nat) : Timer :=
  let et := if i && t.inPrev then etAdd t.et dt else 0
  { t with et, q := i && decide (pt ≤ et) }
/-- TOF. -/
def tofStep (t : Timer) (i : Bool) (dt pt : Nat) : Timer :=
  if i then { t with et := 0, q := true, run := false }
  else
    let t := if t.inPrev then { t with et := 0, run := t.q } else if t.run then { t with et := etAdd t.et dt } else t
    if t.run && decide (pt ≤ t.et) then { t with q := false, run := false } else t
/-- TP. -/
def tpStep (t : Timer) (i : Bool) (dt pt : Nat) : Timer :=
  let t := if t.run then
      let et := etAdd t.et dt
      if pt ≤ et then { t with et, q := false, run := false } else { t with et }
    else t
  if i && !t.inPrev && !t.run then { t with et := 0, q := decide (0 < pt), run := decide (0 < pt) } else t
/-- TRET. -/
def tretStep (t : Timer) (i : Bool) (dt pt : Nat) : Timer :=
  let et := if i && t.inPrev then etAdd t.et dt else t.et
  { t with et, q := decide (pt ≤ et) }

/-- A timer instruction: dt from the stamps, the timer's step, IN_PREV and ACC (R246, R247). -/
def State.scTimer (s : State) (op ix : Nat) (f : Timer → Bool → Nat → Nat → Timer) : Result :=
  s.scRun (scWord op 3 ix) (fun c _ x s =>
    let t := Tbl.get ({} : Timer) ix s.slp.t
    let dt := x.stamp - t.last.getD x.stamp
    let t := { f t x.acc dt (s.prmAt 2 ix x.n * 1000 * 65536) with inPrev := x.acc, last := some x.stamp }
    .next ((s.opPut c ix (.t t)).scNext c t.q 3))

/-! ### Counters and edges (R248, R249) -/

/-- The count of a counter on its input: one more or one less on a rising edge, nothing at its first execution. -/
def ctrStep (k : Counter) (i down : Bool) (pv : Nat) : Counter :=
  let edge := i && !k.eprev && !k.primed
  let cv := if !edge then k.cv else if down then k.cv - 1 else min (k.cv + 1) 0xFFFFFFFF
  { cv, q := if down then cv == 0 else decide (pv ≤ cv), eprev := i, primed := false }

/-- A counter instruction. -/
def State.scCount (s : State) (op ix : Nat) (down : Bool) : Result :=
  s.scRun (scWord op 4 ix) (fun c _ x s =>
    let k := ctrStep (Tbl.get {} ix s.slp.c) x.acc down (s.prmAt 3 ix x.n)
    .next ((s.opPut c ix (.c k)).scNext c k.q 3))

/-- An edge instruction: `f` of ACC and the stored bit; a primed memory yields 0. -/
def State.scEdge (s : State) (op ix : Nat) (f : Bool → Bool → Bool) : Result :=
  s.scRun (scWord op 5 ix) (fun c _ x s =>
    let e := Tbl.get ({} : Edge) ix s.slp.e
    .next ((s.opPut c ix (.e ⟨x.acc, false⟩)).scNext c (!e.primed && f x.acc e.b) 2))

/-! ### Instructions -/

/-- NOP (R243). -/
def execScNop (s : State) : Result := s.scRun (scWord 0x00 0 0) (fun c _ x s => .next (s.scNext c x.acc 1))

/-- LD (R243). -/
def execScLd (sp : RdSpace) (ix : Nat) (s : State) : Result :=
  s.scRead1 0x01 sp ix (fun _ op => op)

/-- LDN (R243). -/
def execScLdn (sp : RdSpace) (ix : Nat) (s : State) : Result :=
  s.scRead1 0x02 sp ix (fun _ op => !op)

/-- AND (R243). -/
def execScAnd (sp : RdSpace) (ix : Nat) (s : State) : Result :=
  s.scRead1 0x03 sp ix (fun x op => x.acc && op)

/-- ANDN (R243). -/
def execScAndn (sp : RdSpace) (ix : Nat) (s : State) : Result :=
  s.scRead1 0x04 sp ix (fun x op => x.acc && !op)

/-- OR (R243). -/
def execScOr (sp : RdSpace) (ix : Nat) (s : State) : Result :=
  s.scRead1 0x05 sp ix (fun x op => x.acc || op)

/-- ORN (R243). -/
def execScOrn (sp : RdSpace) (ix : Nat) (s : State) : Result :=
  s.scRead1 0x06 sp ix (fun x op => x.acc || !op)

/-- XOR (R243). -/
def execScXor (sp : RdSpace) (ix : Nat) (s : State) : Result :=
  s.scRead1 0x07 sp ix (fun x op => x.acc ^^ op)

/-- XORN (R243). -/
def execScXorn (sp : RdSpace) (ix : Nat) (s : State) : Result :=
  s.scRead1 0x08 sp ix (fun x op => x.acc ^^ !op)

/-- AND( (R243): pushes (ACC, AND). -/
def execScAndParen (sp : RdSpace) (ix : Nat) (s : State) : Result :=
  s.scPush 0x09 sp ix .and (fun op => op)

/-- ANDN( (R243): pushes (ACC, AND). -/
def execScAndnParen (sp : RdSpace) (ix : Nat) (s : State) : Result :=
  s.scPush 0x0A sp ix .and (fun op => !op)

/-- OR( (R243): pushes (ACC, OR). -/
def execScOrParen (sp : RdSpace) (ix : Nat) (s : State) : Result :=
  s.scPush 0x0B sp ix .or (fun op => op)

/-- ORN( (R243): pushes (ACC, OR). -/
def execScOrnParen (sp : RdSpace) (ix : Nat) (s : State) : Result :=
  s.scPush 0x0C sp ix .or (fun op => !op)

/-- XOR( (R243): pushes (ACC, XOR). -/
def execScXorParen (sp : RdSpace) (ix : Nat) (s : State) : Result :=
  s.scPush 0x0D sp ix .xor (fun op => op)

/-- ) (R243): pops (v, o); ACC becomes v o ACC. An empty stack, which every commit shuts out, has no effect to give. -/
def execScCloseParen (s : State) : Result :=
  s.scRun (scWord 0x0E 0 0) (fun c _ x s =>
    match x.stack with
    | [] => .fault .scarabStack
    | (v, o) :: rest => .next ((s.modCls c (fun y => { y with stack := rest })).scNext c (o.join v x.acc) 1))

/-- NOT (R243). -/
def execScNot (s : State) : Result := s.scRun (scWord 0x0F 0 0) (fun c _ x s => .next (s.scNext c (!x.acc) 1))

/-- ST (R243). -/
def execScSt (sp : WrSpace) (ix : Nat) (s : State) : Result := s.scStore 0x10 sp ix (fun a => some a)

/-- STN (R243). -/
def execScStn (sp : WrSpace) (ix : Nat) (s : State) : Result := s.scStore 0x11 sp ix (fun a => some (!a))

/-- SET (R243). -/
def execScSet (sp : WrSpace) (ix : Nat) (s : State) : Result := s.scStore 0x12 sp ix (fun a => if a then some true else none)

/-- RST (R243). -/
def execScRst (sp : WrSpace) (ix : Nat) (s : State) : Result := s.scStore 0x13 sp ix (fun a => if a then some false else none)

/-- EDGR (R249). -/
def execScEdgr (ix : Nat) (s : State) : Result := s.scEdge 0x14 ix (fun a e => a && !e)

/-- EDGF (R249). -/
def execScEdgf (ix : Nat) (s : State) : Result := s.scEdge 0x15 ix (fun a e => !a && e)

/-- TON (R247). -/
def execScTon (ix : Nat) (s : State) : Result := s.scTimer 0x16 ix tonStep

/-- TOF (R247). -/
def execScTof (ix : Nat) (s : State) : Result := s.scTimer 0x17 ix tofStep

/-- TP (R247). -/
def execScTp (ix : Nat) (s : State) : Result := s.scTimer 0x18 ix tpStep

/-- TRET (R247). -/
def execScTret (ix : Nat) (s : State) : Result := s.scTimer 0x19 ix tretStep

/-- TRST (R247): with ACC the timer is reset; IN_PREV and T_LAST stay. -/
def execScTrst (ix : Nat) (s : State) : Result :=
  s.scRun (scWord 0x1A 3 ix) (fun c _ x s =>
    let s := if x.acc then
        s.opPut c ix (.t { Tbl.get ({} : Timer) ix s.slp.t with et := 0, q := false, run := false }) else s
    .next (s.scNext c x.acc 3))

/-- CTU (R248). -/
def execScCtu (ix : Nat) (s : State) : Result := s.scCount 0x1B ix false

/-- CTD (R248). -/
def execScCtd (ix : Nat) (s : State) : Result := s.scCount 0x1C ix true

/-- CRST (R248): with ACC the counter goes to its start value and Q follows; EPREV stays. -/
def execScCrst (ix : Nat) (s : State) : Result :=
  s.scRun (scWord 0x1D 4 ix) (fun c k x s =>
    let s := if x.acc then
        let down := (ctrDown (s.progWords (s.progAt k x.n)) ix).getD false
        let pv := s.prmAt 3 ix x.n
        let cv := if down then pv else 0
        s.opPut c ix (.c { Tbl.get ({} : Counter) ix s.slp.c with cv, q := if down then cv == 0 else decide (pv ≤ cv) })
      else s
    .next (s.scNext c x.acc 3))

/-- JMP (R244). -/
def execScJmp (target : Nat) (s : State) : Result :=
  s.scRun (scWord 0x1E 0 target) (fun c _ _ s => .next (s.scGoto c target 3))

/-- JMPC (R244). -/
def execScJmpc (target : Nat) (s : State) : Result :=
  s.scRun (scWord 0x1F 0 target) (fun c _ x s =>
    .next (if x.acc then s.scGoto c target 3 else s.scNext c x.acc 1))

/-- JMPCN (R244). -/
def execScJmpcn (target : Nat) (s : State) : Result :=
  s.scRun (scWord 0x20 0 target) (fun c _ x s =>
    .next (if x.acc then s.scNext c x.acc 1 else s.scGoto c target 3))

/-- END (R243): the slot's program ends and the class's next slot begins (R250). -/
def execScEnd (s : State) : Result :=
  s.scRun (scWord 0x21 0 0) (fun c _ x s => .next ((s.spend 2).nextSlot c (x.slots.drop 1)))

/-- ENDC (R243). -/
def execScEndc (s : State) : Result :=
  s.scRun (scWord 0x22 0 0) (fun c _ x s =>
    .next (if x.acc then (s.spend 2).nextSlot c (x.slots.drop 1) else s.scNext c x.acc 1))

end Sys2Proof.Machine
end

