-- ==== Sys2Proof/Machine/Cycles.lean ====
section
/-! DEFINITION. Cycles of the Scarab's classes (R250 to R261, R374): their starts, skips, pre-emption and ends, and a Watch's
images. -/
namespace Sys2Proof.Machine

/-- The length of a timed class's period. -/
def clTime (w : List Nat) : Time := us (10 * clPeriod w)

/-- Where a timed class counts its start times from: any second where PERIOD divides 1 s, else t_0 (R251). -/
def startOrigin (w : List Nat) (x : ClassSt) : Time := if 100000 % max 1 (clPeriod w) = 0 then 0 else x.t0

/-- The first start time of a timed class at or after `t`. -/
def startFrom (w : List Nat) (x : ClassSt) (t : Time) : Time :=
  let o := startOrigin w x
  let p := max 1 (clTime w)
  if t ≤ o then o else o + (t - o + p - 1) / p * p

/-- The start time that is due at or after now: the one after the last where that one is now. -/
def State.dueStart (s : State) (c : Nat) : Time :=
  let w := s.clsEnt c
  let x := s.clsOf c
  let t := startFrom w x s.now
  if x.lastStart = some t then t + max 1 (clTime w) else t

/-- Starts of a timed class after the last one counted and before now. -/
def State.missedStarts (s : State) (c : Nat) : Nat :=
  let w := s.clsEnt c
  let x := s.clsOf c
  match x.lastStart with
  | none => 0
  | some t => if s.now ≤ t then 0 else (s.now - t - 1) / max 1 (clTime w)

/-- CYCLE_SKIP: `k` starts or instants without a cycle (R259). -/
def State.skip (s : State) (c k : Nat) : State :=
  if k = 0 then s else (s.bumpBy (F.SLP_CLASS_CNT_SKIP.nth c) k).modCls c (fun x => { x with nextOver := true })

/-- Step 1 of R374: the provisional cycles of a class end as steps 1 to 3 of R261 say. -/
def State.endProvisional (s : State) (c : Nat) : State :=
  let mine := fun (o : OutSet) => o.cls == c && o.dep.isSome
  let gone := s.slp.held.filter mine
  let s : State := { s with slp := { s.slp.undo (s.slp.journal.filter (fun j => j.cls == c)) with
    journal := s.slp.journal.filter (fun j => j.cls != c), held := s.slp.held.filter (fun o => !mine o) } }
  (s.bumpBy (F.SLP_CNT_COUNT.nth 2) gone.length).pubDiscardSets gone

/-- IMAGE_APPLY: at the first cycle start with a later stamp the Watch takes the newest image of the class (R374). -/
def State.imageApply (s : State) (c : Nat) (stamp : Time) : State :=
  match ((s.prc.images.filter (fun i => i.cls == c && decide (gt64Ns i.stamp < gt64Ns (Time.gt64 stamp)))).getLast?) with
  | none => s
  | some i =>
    let s := { s with prc := { s.prc with
      images := s.prc.images.filter (fun j => !(j.cls == c && decide (gt64Ns j.stamp ≤ gt64Ns i.stamp))) } }
    if s.role != 1 then s
    else
      let s := s.endProvisional c
      let x := (s.classSlots c).foldl (fun (a : Slp × Octets) k => slotImage (s.slpEnt 0 k) a.1 a.2) (s.slp, i.octets)
      let s := { s with slp := x.1, prc := { s.prc with imaged := if s.prc.imaged.contains c then s.prc.imaged else s.prc.imaged ++ [c] } }
      let ran := (s.clsOf c).stamps.filter (fun t => decide (gt64Ns i.stamp < gt64Ns (Time.gt64 t)))
      ((s.modCls c (fun x => { x with stamps := [] })).skip c ran.length).prcBump 12 |>.evalAligned

/-- The class of highest priority whose start time has come starts its cycle, once no class of higher priority runs or is due
(R252). -/
def State.startDue (s : State) : State :=
  match s.topOf (fun x => x.due.isSome) with
  | none => s
  | some c =>
    match s.outranked c || s.instDue c, (s.clsOf c).due with
    | false, some t =>
      let s := (s.modCls c (fun x => { x with due := none })).imageApply c t
      (s.startCycle c ((s.clsOf c).n + 1) t false false).swapFinish
    | _, _ => s

/-- TIMED_CYCLE_START: a start time of a timed class arrives; the class starts, waits for classes of higher priority, or skips the
start where its cycle has not ended (R251, R252, R259). -/
def timedCycleStart (c : Nat) (s : State) : State :=
  let w := s.clsEnt c
  if !s.slpOn || !clValid w || clInst w || clPeriod w == 0 || decide (16 ≤ c) then s
  else
    let t := s.dueStart c
    let s := s.advanceTo t
    if (s.clsOf c).running || (s.clsOf c).due.isSome then (s.skip c 1).modCls c (fun x => { x with lastStart := some t })
    else (s.modCls c (fun x => { x with lastStart := some t, due := some t })).startDue

/-- PER_INSTANT_CYCLE_START: the newest waiting instant gets the class's cycle, where no class of higher priority runs or is due;
older ones get none. -/
def perInstantCycleStart (c : Nat) (s : State) : State :=
  let w := s.clsEnt c
  let x := s.clsOf c
  if !s.slpOn || !clValid w || !clInst w || decide (16 ≤ c) || x.running || s.outranked c || s.instDue c then s
  else
    match s.waiting c with
    | [] => s
    | n0 :: t =>
      let n := t.foldl max n0
      let old := ((n0 :: t).filter (fun k => decide (k < n))).dedup
      let stamp := tOf (s.latRate (clLat w)) n
      let again := match x.reTop with | some k => decide (n ≤ k) | none => false
      let s := (s.skip c old.length).imageApply c stamp
      let s := if again then s.bump (F.SLP_CNT_COUNT.nth 1) else s
      s.startCycle c n stamp (decide (s.confN (clLat w) < n)) again

/-- CYCLE_RESUME: with no class running, the pre-empted class of highest priority goes on. -/
def cycleResume (c : Nat) (s : State) : State :=
  if s.slp.cur.isNone && s.topClass == some c then { s with slp := { s.slp with cur := some c } } else s

/-- Whether a cycle took longer than WARN_PCT of its period: LOG_CLK cycles of 1.6 ns (R259). -/
def State.cycleLong (s : State) (c k : Nat) : Bool :=
  let w := s.clsEnt c
  if clInst w then decide (clWarn w * 100000000 < 16 * k * s.latRate (clLat w)) else decide (1000 * clWarn w * clPeriod w < 16 * k)

/-- The output set of a cycle formed and released, or held for its instant (R258). -/
def State.formSet (s : State) (c : Nat) : State :=
  let x := s.clsOf c
  let w := s.clsEnt c
  let dep := if clInst w then some (clLat w, x.n) else none
  let o : OutSet := { cls := c, id := s.slp.setId, qs := x.written.map (fun p => (p.1, p.2 == 2)), dep, stamp := x.stamp }
  let s : State := { s with slp := { s.slp with setId := s.slp.setId + 1 } }
  if s.setFree o && !s.slp.held.any (fun h => h.cls == c) then s.releaseSet o false
  else { s.pubStage o with slp := { (s.pubStage o).slp with held := (s.pubStage o).slp.held ++ [o] } }

/-- CYCLE_END. -/
def cycleEnd (c : Nat) (s : State) : State :=
  let x := s.clsOf c
  let w := s.clsEnt c
  if !x.running || !x.ended || s.slp.cur != some c then s
  else
    let s := s.spend 32
    let k := (s.clsOf c).cycles
    let s := (s.setF (F.SLP_CLASS_STAT_LAST_EXEC.nth c) (min k (2 ^ 32 - 1))).setF (F.SLP_CLASS_STAT_MAX_EXEC.nth c)
      (max (s.get (F.SLP_CLASS_STAT_MAX_EXEC.nth c)) (min k (2 ^ 32 - 1)))
    let s := s.bump (F.SLP_CLASS_CNT_CYCLES.nth c)
    let long := s.cycleLong c k
    let s := if long then s.bump (F.SLP_CLASS_CNT_WARN.nth c) else s
    let miss := if clInst w then 0 else s.missedStarts c
    let s := s.skip c miss
    let s := s.formSet c
    let confirmed := !clInst w || decide (x.n ≤ s.confN (clLat w))
    let s := s.modCls c (fun x => { x with
      running := false, ended := false, slots := [], nextWarn := x.nextWarn || long, ready := x.ready || confirmed
      lastN := if clInst w then some x.n else x.lastN
      lastStart := x.lastStart.map (fun t => t + miss * max 1 (clTime w))
      stamps := if s.role = 1 then (if x.stamps.contains x.stamp then x.stamps else x.stamps ++ [x.stamp]) else [] })
    let s := (s.yieldCur c).freeJournal.swapFinish
    let s := if confirmed then s.digestPoint c x.n x.stamp else s
    s.startDue.refreshReady.pubFlush

/-- TIMED_CYCLE_START. -/
def execTimedCycleStart (cls : Nat) (s : State) : Result := .next (timedCycleStart cls s)
/-- PER_INSTANT_CYCLE_START. -/
def execPerInstantCycleStart (cls : Nat) (s : State) : Result := .next (perInstantCycleStart cls s)
/-- CYCLE_RESUME. -/
def execCycleResume (cls : Nat) (s : State) : Result := .next (cycleResume cls s)
/-- CYCLE_END. -/
def execCycleEnd (cls : Nat) (s : State) : Result := .next (cycleEnd cls s)

end Sys2Proof.Machine
end

