-- ==== Sys2Proof/Machine/Lattice.lean ====
section
/-! DEFINITION. The Sample Lattice Engine (R158 to R188): contributions and the resampling filter, closing, prediction, confirmation,
refutation, and the notices that release or discard what was derived. -/
namespace Sys2Proof.Machine

/-! ### The resampling filter (R164, R165) -/

/-- Source position p = num / den as m0 and the phase in 1/1,024 (R164). -/
def filterPhase (num : Int) (den : Nat) : Int × Nat :=
  let m0 := num / den
  let mu := ((2 * 1024 * (num - m0 * den) + den) / (2 * den)).toNat
  if mu = 1024 then (m0 + 1, 0) else (m0, mu)

/-- Taps of the filter from rate `fs` to `fl` (R165). -/
def filterTaps (fs fl : Nat) : Nat := if fs ≤ fl then 4 else 2 * ((2 * fs + fl - 1) / fl)

/-- The windowed sinc at distance x = d / 1,024 source periods, up to the factor 2c that the normalisation removes; scale
2^400 (R165). -/
def filterTap (fs fl l : Nat) (d : Int) : Int :=
  let rn : Int := if fs ≤ fl then 1 else fl
  let rd : Int := if fs ≤ fl then 1 else fs
  let u := fxPi * (9 * rn * d) / (10 * rd * 1024)
  let sinc := if d = 0 then fxOne else fxDiv (fxSin u) u
  let w := if 2 * d.natAbs < l * 1024 then (fxOne + fxCos (fxPi * (2 * d) / (l * 1024))) / 2 else 0
  fxMul sinc w

/-- The index of the least entry, the lowest on a tie. -/
def leastAt : List Nat → Nat
  | [] => 0
  | a :: t => (t.foldl (fun (r : Nat × Nat × Nat) b => if b < r.1 then (b, r.2.2, r.2.2 + 1) else (r.1, r.2.1, r.2.2 + 1)) (a, 0, 1)).2.1

/-- The coefficients q of the filter for a phase (R165). -/
def filterCoefs (fs fl mu : Nat) : List Int :=
  let l := filterTaps fs fl
  let ds := (List.range l).map (fun i => ((i : Int) - (l / 2 : Nat) + 1) * 1024 - mu)
  let gs := ds.map (filterTap fs fl l)
  let sum := sumI gs
  let qs := gs.map (fun g => divAway (65536 * (fxDiv g sum)) fxOne.toNat)
  let j := leastAt (ds.map Int.natAbs)
  qs.zipIdx.map (fun p => if p.2 = j then p.1 + (65536 - sumI qs) else p.1)

/-! ### Contributions (R162, R163, R166, R183) -/

/-- What a stream gives an instant: the values by channel offset, and the frames whose samples entered. -/
structure Contrib where
  vals : List (Nat × LVal)
  fids : List Nat

/-- The stream rate of a context. -/
def State.cxRate (s : State) (c : Nat) : Nat := rateHz (cxRateCode (s.ctx c).words)

/-- The path that the stream's current alignment class gives (R163): 0 direct, 1 and 2 resampled, count- and
timestamp-aligned. -/
def State.pathNow (s : State) (l c : Nat) : Nat :=
  if (s.ctx c).track.aligned then (if s.cxRate c = s.latRate l then 0 else 1) else 2

/-- The anchor of an instant not yet closed: the highest index held when the instant before first closed; for the first instant
that the stream feeds, its first accepted sample (R164). -/
def State.anchorNow (s : State) (l c : Nat) : Option (Int × Int) :=
  let x := s.lattice l
  let kept := if x.fed.contains (c, (s.ctx c).gen) then x.anchors.find? (fun a => a.1 == c) else none
  match kept with
  | some a => some (a.2.1, a.2.2)
  | none => ((s.ctx c).first).map (fun m => (m.k, m.t))

/-- The newest number of a window among samples. -/
def newestWin (ms : List Smp) : Nat := ms.foldl (fun a m => max a m.win) 0

/-- The samples of a stream's window: those accepted since it last restarted (R141, R163). -/
def Ctx.window (x : Ctx) : List Smp :=
  let w := newestWin x.samples
  x.samples.filter (fun m => m.win == w)

/-- The sample of an index, if the window holds it. -/
def Ctx.smp (x : Ctx) (k : Int) : Option Smp := x.window.find? (fun m => m.k == k)

/-- The source samples of a resampled instant with their coefficients, those of 0 left out (R165). -/
def State.tapsAt (s : State) (l n path : Nat) (anchor : Option (Int × Int)) (c : Nat) : Option (List (Int × Int)) :=
  let fs := s.cxRate c
  let fl := s.latRate l
  let tn : Int := (tOf fl n : Nat)
  let pos : Option Int :=
    if path = 1 then some (tn * fs)
    else anchor.map (fun a => a.1 * secUnits + (tn - a.2) * fs)
  pos.map (fun num =>
    let p := filterPhase num secUnits
    let qs := filterCoefs fs fl p.2
    (qs.zipIdx.filter (fun q => q.1 != 0)).map (fun q => (p.1 - (qs.length / 2 : Nat) + 1 + (q.2 : Nat), q.1)))

/-- Every element present, or none. -/
def allSome {α β : Type} (f : α → Option β) : List α → Option (List β)
  | [] => some []
  | a :: t => match f a, allSome f t with
    | some b, some r => some (b :: r)
    | _, _ => none

/-- The value of a resampled channel over its taps (R165, R183). -/
def tapValue (f : Feed) (ms : List (Smp × Int)) : LVal :=
  let vs := ms.map (fun p => (p.1.chans.getD f.chan (LVal.none f.volt), p.2, p.1.unver))
  let any := fun (g : LVal → Bool) => vs.any (fun v => g v.1)
  { v := satInt 32 (divAway (sumI (vs.map (fun v => v.2.1 * v.1.v))) 65536)
    cls := vs.foldl (fun a v => max a v.1.cls) 0, dq := vs.foldl (fun a v => a ||| v.1.dq) 0
    subst := any (fun v => v.subst), derived := any (fun v => v.derived), test := any (fun v => v.test)
    coarse := any (fun v => v.coarse), alt := f.alt, unver := vs.any (fun v => v.2.2), pred := false, resamp := true, volt := f.volt }

/-- The contribution of a stream to instant N, none while it is missing (R166). -/
def State.contrib (s : State) (l n path : Nat) (anchor : Option (Int × Int)) (c : Nat) (feeds : List Feed) : Option Contrib :=
  let x := s.ctx c
  let mine := feeds.filter (fun f => f.ctx == c)
  if path = 0 then
    (x.smp n).map (fun m =>
      { vals := mine.map (fun f => (f.off,
          { m.chans.getD f.chan (LVal.none f.volt) with alt := f.alt, unver := m.unver, pred := false, resamp := false, volt := f.volt }))
        fids := [m.fid] })
  else
    match s.tapsAt l n path anchor c with
    | none => none
    | some ts => (allSome (fun (t : Int × Int) => (x.smp t.1).map (fun m => (m, t.2))) ts).map (fun ms =>
        { vals := mine.map (fun f => (f.off, tapValue f ms)), fids := (ms.map (fun p => p.1.fid)).dedup })

/-- The contribution of a stream to a closed instant, on the path and anchor it keeps. -/
def State.contribOf (s : State) (l : Nat) (i : Instant) (c : Nat) : Option Contrib :=
  s.contrib l i.n (Tbl.get 0 c i.paths) ((i.anchors.find? (fun a => a.1 == c)).map (fun a => (a.2.1, a.2.2))) c i.feeds

/-! ### Prediction and tolerance (R172 to R174) -/

/-- The frequency group of a lattice channel, 64 for none. -/
def State.chanGroup (s : State) (c : Nat) : Nat := (pcGroup (s.pheEnt 0 c)).getD 64

/-- The coefficient p of a frequency group at this moment (R172). -/
def State.predCoef (s : State) (l g : Nat) : Int :=
  let f := if g = 64 then fmt64.ofInt (s.fNom l) 0 else fmt32.conv fmt64 (s.get (F.PHE_GRP_F_F.nth g))
  let x := fmt64.div (fmt64.mul (fmt64.ofFx (2 * fxPi)) f) (fmt64.ofInt (s.latRate l) 0)
  let a := fmt64.mul (fmt64.ofInt 2 0) (fmt64.cos x)
  let b := fmt64.add (fmt64.ofInt 1 0) a
  match fmt64.dec b with
  | .fin neg m e =>
    let v : Int := if neg then -(m : Int) else m
    let e := e + 30
    if 0 ≤ e then v * 2 ^ e.toNat else divAway v (2 ^ (-e).toNat)
  | _ => 0

/-- Predicted instants in a row before N for a channel (R173). -/
def State.predBefore (s : State) (l n j : Nat) : Nat :=
  let x := s.lattice l
  let back := (x.insts.filter (fun i => decide (i.n < n))).reverse.map (fun i => i.vals.any (fun v => v.1 == j && v.2.pred))
  let run := (back.takeWhile id).length
  if run = back.length then run + Tbl.get 0 j x.predRun else run

/-- The prediction of a channel at N (R172, R173). -/
def State.predict (s : State) (l n path : Nat) (coefs : Tbl Int) (f : Feed) : LVal :=
  let x1 := s.valAt l (n - 1) f.off
  let x2 := s.valAt l (n - 2) f.off
  let x3 := s.valAt l (n - 3) f.off
  let m := s.get (F.SLE_LAT_CFG_SUBST_MAX.nth l)
  let p := Tbl.get 0 (s.chanGroup (s.chBase l + f.off)) coefs
  let base : LVal := { v := 0, cls := x1.cls, dq := 0, subst := false, derived := false, test := x1.test, coarse := false, alt := f.alt
                       unver := false, pred := true, resamp := path != 0, volt := f.volt }
  if x1.cls = 2 ∨ x2.cls = 2 ∨ x3.cls = 2 ∨ m ≤ s.predBefore l n f.off then { base with cls := 2 }
  else { base with v := satInt 32 (divAway (p * (x1.v - x2.v)) (2 ^ 30) + x3.v) }

/-- R174 on one channel: none within tolerance, else the counter of the cause. -/
def tolerance (i : Instant) (pred v : LVal) : Option Nat :=
  if pred.cls = 2 ∧ v.cls = 2 then none
  else if pred.cls ≠ v.cls ∨ pred.test ≠ v.test then some 6
  else
    let tol := (if pred.volt then i.tolV else i.tolI) + pred.v.natAbs * i.tolRel / 256
    if tol < (v.v - pred.v).natAbs then some 5 else none

/-! ### Closing (R168 to R171) -/

/-- The values of an instant with what is present, predictions of what is missing, and Invalid for what is not awaited. -/
def State.closeVals (s : State) (l : Nat) (i : Instant) : Instant :=
  let cs := (i.feeds.map (fun f => f.ctx)).dedup
  let got := cs.filterMap (fun c => if i.awaited.contains c && !(i.final && i.missing.contains c)
    then (s.contribOf l i c).map (fun k => (c, k)) else none)
  let missing := i.awaited.filter (fun c => !got.any (fun g => g.1 == c))
  let val := fun (f : Feed) =>
    match got.find? (fun g => g.1 == f.ctx) with
    | some g => ((g.2.vals.find? (fun v => v.1 == f.off)).map Prod.snd).getD (LVal.none f.volt)
    | none => if i.awaited.contains f.ctx then s.predict l i.n (Tbl.get 0 f.ctx i.paths) i.coefs f
              else { LVal.none f.volt with alt := f.alt }
  { i with vals := i.feeds.map (fun f => (f.off, val f)), missing, spec := !missing.isEmpty
           used := (got.flatMap (fun g => g.2.fids)).dedup }

/-- The lowest open instant as it would close now: what it keeps from its first close on (R163, R164, R172, R178). -/
def State.openInstant (s : State) (l : Nat) : Instant :=
  let x := s.lattice l
  let feeds := s.feeders l
  let cs := (feeds.map (fun f => f.ctx)).dedup
  let paths : Tbl Nat := cs.foldl (fun t c => Tbl.set 0 c (s.pathNow l c) t) []
  let groups := (feeds.map (fun f => s.chanGroup (s.chBase l + f.off))).dedup
  { n := x.next, stalled := x.stalled.contains x.next, tClose := s.gt64, feeds
    awaited := cs.filter (fun c => (s.ctx c).health == hLive || (s.ctx c).health == hDegr)
    paths, anchors := cs.filterMap (fun c => (s.anchorNow l c).map (fun a => (c, a.1, a.2)))
    coefs := groups.foldl (fun t g => Tbl.put g (s.predCoef l g) t) []
    tolI := s.get (F.SLE_LAT_TOL_TOL_I.nth l), tolV := s.get (F.SLE_LAT_TOL_TOL_V.nth l), tolRel := s.get (F.SLE_LAT_TOL_TOL_REL.nth l) }

/-- Whether a value of the instant awaits its tag result. -/
def Instant.unver (i : Instant) : Bool := i.vals.any (fun v => v.2.unver)

/-- The samples of a context that the Classifier has accepted and that are still on their way to the Lattice. -/
def State.onWay (s : State) (c : Nat) : List Smp :=
  (s.ing.writes.filter (fun w => w.ctx == c && w.gen == (s.ctx c).gen)).flatMap (fun w => w.smps)

/-- The newest sample that every stream has accepted, written already or on its way (R164). -/
def State.newestSamples (s : State) : List (Nat × Int × Int) :=
  s.ing.ctx.filterMap (fun p => match ({ p.2 with samples := p.2.samples ++ s.onWay p.1 } : Ctx).window with
    | [] => none
    | m :: t => let b := t.foldl (fun (a : Smp) m => if a.k < m.k then m else a) m
                some (p.1, b.k, b.t))

/-- The streams that have fed an instant of a lattice, once one that closes has these feeders (R164). -/
def State.fedNow (s : State) (l : Nat) (i : Instant) : List (Nat × Nat) :=
  let mine := ((i.feeds.map (fun f => f.ctx)).filter (fun c => (s.ctx c).first.isSome)).map (fun c => (c, (s.ctx c).gen))
  ((s.lattice l).fed.filter (fun q => (s.ctx q.1).gen == q.2) ++ mine).dedup

/-- An instant closes: its slot of the provisional area, and its values to the Phasor Engine. -/
def State.closeInto (s : State) (l : Nat) (i : Instant) : State :=
  let s := s.modLat l (fun x => { x with insts := x.insts ++ [i] })
  let s := (s.writeSlot l i false).pheFeed l i.n i.vals
  if s.flag F.PHE_CTL_EN then s else (s.dreLevels l i.n {}).dreClosed l i.n

/-- The first close of the lowest open instant, counted under `cnt`. -/
def State.firstClose (s : State) (l : Nat) (i : Instant) (cnt : Nat) (final : Bool) : State :=
  let s := (s.bump (latCnt l cnt)).modLat l (fun x => { x with
    next := i.n + 1, stalled := x.stalled.filter (fun k => k != i.n), specAt := x.specAt.filter (fun p => decide (i.n < p.1)) })
  let s := s.closeInto l { i with final }
  s.modLat l (fun x => { x with anchors := s.newestSamples, fed := s.fedNow l i })

/-! ### Confirmation (R176, R179) -/

/-- RETIRING_FREE: a removed context becomes FREE once every lattice it fed has confirmed the first instant closed after
(R154). -/
def State.retireFree (s : State) : State :=
  (s.ing.ctx.filter (fun p => p.2.health == hRetiring && p.2.retireAt.all (fun r => decide (r.2 ≤ s.confN r.1)))).foldl
    (fun s p => s.modCtx p.1 (fun x => { gen := x.gen })) s

/-- The per-instant class of a lattice at CONFIRM for N: its cycle for N, if completed, is a digest point and counts for C2. -/
def State.clsConfirm (s : State) (l n : Nat) : State :=
  match s.instClass l with
  | none => s
  | some c =>
    match s.slp.held.find? (fun o => o.cls == c && o.dep == some (l, n)) with
    | none => s
    | some o => (s.modCls c (fun x => { x with ready := true })).digestPoint c n o.stamp

/-- Held acts released at every holding block, again and again: those of a pass wait for the ones on earlier instants that the
passes before it released (R41). -/
def State.releaseAll : Nat → State → State
  | 0, s => s
  | k + 1, s => State.releaseAll k (s.releaseHeld.ringsConfirm.txConfirm.fConfirm.svRelease)

/-- CONFIRM for (l, N) at every engine and holding block (R179). -/
def State.confirmNotice (s : State) (l n : Nat) : State :=
  let s := ((s.pheConfirm l n).gcmConfirm l n).clsConfirm l n
  let s := s.freeJournal.swapFinish.svConfirm l n
  let s := State.releaseAll (s.heldDeps.length + 1) s
  let s := if s.flag F.DRE_CTL_EN then s.dreAdvance l 64 else s
  s.retireFree.refreshReady.pubFlush

/-- An instant becomes CONFIRMED: PRED_RUN counts the confirmed instants that were predicted, one after another (DESIGN CHOICE,
log 277); the confirmed-ring slot, the counts of R198, and the CONFIRM notice. CONF_DEADLINE counts it
once its deadline has come, as after a wait for a tag result (R168, R198). -/
def State.confirmInst (s : State) (l : Nat) (i : Instant) : State :=
  let vs := fullVals (s.chCount l) i.vals
  let subst := i.vals.filter (fun v => v.2.pred && v.2.cls != 2)
  let i := { i with tConf := s.gt64 }
  let s := s.bump (latCnt l (if i.n < (s.lattice l).dl then 4 else 3))
  let s := (s.bumpBy (latCnt l 8) subst.length).bumpBy (latCnt l 9) (vs.filter (fun v => v.cls == 2)).length
  let s := s.modLat l (fun x => { x with
    conf := i.n, insts := x.insts.drop 1, done := i :: x.done.take 255
    predRun := (i.vals.filter (fun v => v.2.pred)).foldl (fun t v => Tbl.set 0 v.1 (min 15 (Tbl.get 0 v.1 x.predRun + 1)) t) []
    substTotal := subst.foldl (fun t v => Tbl.set 0 v.1 (satInc 32 (Tbl.get 0 v.1 t)) t) x.substTotal })
  (s.writeSlot l i true).confirmNotice l i.n

/-! ### Refutation (R177, R178) -/

/-- REFUTE for (l, N) at every engine and holding block; `top` is the newest closed instant. What waited behind a discarded act goes
(R41, R119). -/
def State.refuteNotice (s : State) (l n top : Nat) : State :=
  let s := (s.pheRefute l n).gcmRefute l n
  let r := s.slpRefute l n top
  let s := r.2.pubDiscardSets r.1
  let s := (((s.bellsRefute l n).ringsRefute l n).txRefute l n).fWithdraw l n
  let s := (State.releaseAll (s.heldDeps.length + 1) s).pubFlush
  (if s.flag F.DRE_CTL_EN then s.dreRefute l n else s).startDue

/-- REFUTATION of a PROVISIONAL instant under a cause: notice, restoration, the slots of N and of every later closed instant marked
as refuted, and the re-close of each in order (R178, R192, R193). -/
def State.refute (s : State) (l n cause : Nat) : State :=
  let old := (s.lattice l).insts
  let s := s.bump (latCnt l cause)
  let s := s.refuteNotice l n ((old.getLast?.map (fun i => i.n)).getD n)
  let s := s.modLat l (fun x => { x with insts := old.filter (fun i => decide (i.n < n)) })
  let gone := (old.filter (fun i => decide (n ≤ i.n))).map (fun i => if i.n = n then { i with refutes := i.refutes + 1 } else i)
  let s := gone.foldl (fun s i => s.writeSlotAs l i 3) s
  gone.foldl (fun s i => s.closeInto l (s.closeVals l i)) s

/-! ### Arrivals (R174, R175, R180) -/

/-- LATE_DISCARD, once for a contribution and instant. -/
def lateMark (c : Nat) (i : Instant) : Instant := { i with late := c :: i.late }

/-- Whether a contribution now present comes too late for an instant. -/
def State.lateFor (s : State) (l c : Nat) (i : Instant) (closed : Bool) : Bool :=
  i.feeds.any (fun f => f.ctx == c) && !i.late.contains c
    && (!i.awaited.contains c || (closed && i.missing.contains c)) && (s.contribOf l i c).isSome

/-- A contribution arrives for a closed instant: late, within tolerance, or out of it (R174, R175). -/
def State.arriveAt (s : State) (l c n : Nat) : State :=
  match (s.lattice l).insts.find? (fun i => i.n == n) with
  | none => s
  | some i =>
    let put := fun (s : State) (j : Instant) => s.modLat l (fun x => { x with insts := x.insts.map (fun k => if k.n = n then j else k) })
    if s.lateFor l c i i.final then put (s.bump (latCnt l 10)) (lateMark c i)
    else if !i.missing.contains c || i.final then s
    else
      match s.contribOf l i c with
      | none => s
      | some k =>
        let old := fun (off : Nat) => ((i.vals.find? (fun v => v.1 == off)).map Prod.snd).getD (LVal.none false)
        match (k.vals.filterMap (fun v => tolerance i (old v.1) v.2)).head? with
        | some cause => s.refute l n cause
        | none =>
          let j := { i with
            vals := i.vals.map (fun v => ((k.vals.find? (fun w => w.1 == v.1)).getD v)), missing := i.missing.filter (fun d => d != c)
            used := (i.used ++ k.fids).dedup }
          let fs : List Fold := (k.vals.filter (fun v => (old v.1).entering != v.2.entering)).map
            (fun v => ⟨l, n, s.chBase l + v.1, (old v.1).entering, v.2.entering⟩)
          let s := (put s j).writeSlot l j false
          if s.flag F.PHE_CTL_EN then { s with phe := { s.phe with folds := s.phe.folds ++ fs } } else s

/-- New samples of a stream meet every closed instant of a lattice that waited for them. -/
def State.arrive (s : State) (l c : Nat) : State :=
  let done := (s.lattice l).done.map (fun i => (i, s.lateFor l c i true))
  let k := (done.filter (fun p => p.2)).length
  let s := if k = 0 then s else
    (s.bumpBy (latCnt l 10) k).modLat l (fun x => { x with done := done.map (fun p => if p.2 then lateMark c p.1 else p.1) })
  ((s.lattice l).insts.map (fun i => i.n)).foldl (fun s n => s.arriveAt l c n) s

/-! ### One event of a lattice (R168 to R171) -/

/-- What the lattice does next, if anything: confirm its oldest closed instant, or decide its lowest open one, which closes only
while fewer than SPEC_DEPTH instants are PROVISIONAL (R171; log 92). -/
def State.latNext (s : State) (l : Nat) : Option State :=
  let x := s.lattice l
  let head := match x.insts with
    | i :: _ => if !i.unver && (i.missing.isEmpty || i.final || decide (i.n < x.dl)) then some i else none
    | [] => none
  match head with
  | some i => some (s.confirmInst l i)
  | none =>
    let i := s.closeVals l (s.openInstant l)
    let pcPast := decide (i.n < x.pc)
    let dlPast := decide (i.n < x.dl)
    let spec := match x.specAt.find? (fun p => p.1 == i.n) with
      | some p => p.2
      | none => s.flag (F.SLE_LAT_CFG_SPEC_EN.nth l)
    let once := !spec || i.stalled
    let room := decide (x.insts.length < s.specDepth l)
    if room && i.missing.isEmpty && !i.unver && (!i.awaited.isEmpty || pcPast) then some (s.firstClose l i 0 once)
    else if room && dlPast then (if i.unver then none else some (s.firstClose l i 2 true))
    else if !pcPast || once then none
    else if room then some (s.firstClose l i 1 false)
    else some ((s.bump (latCnt l 11)).modLat l (fun x => { x with stalled := x.stalled ++ [i.n] }))

/-- Everything that follows from an event, one act at a time. -/
def State.latRun (s : State) (l : Nat) : Nat → State
  | 0 => s
  | k + 1 =>
    match s.latNext l with
    | none => s
    | some t => t.latRun l k

/-- The status registers of a lattice (R198). -/
def State.latView (s : State) (l : Nat) : State :=
  let x := s.lattice l
  let k := x.insts.length
  let openUnver := (s.closeVals l (s.openInstant l)).unver
  let wait := (x.insts.any (fun i => decide (i.n < x.dl) && i.unver)) || (decide (x.next < x.dl) && openUnver)
  let s := (s.setF (F.SLE_LAT_STAT_PROV_CNT.nth l) k).setB (F.SLE_LAT_STAT_STALL.nth l) (s.latStall l)
  let s := (s.setB (F.SLE_LAT_STAT_WAIT_TAG.nth l) wait).setF F.SLE_STATUS_PROV_CNT
    (putBits (4 * l + 3) (4 * l) k (s.get F.SLE_STATUS_PROV_CNT))
  let s := if x.n0 ≤ x.conf then s.setF (F.SLE_LAT_LAST_CONF_N.nth l) x.conf else s
  if x.n0 < x.next then s.setF (F.SLE_LAT_LAST_CLOSE_N.nth l) (x.next - 1) else s

/-- An event of a running lattice with everything that follows. -/
def State.settle (s : State) (l : Nat) : State := if (s.lattice l).running then (s.latRun l 1024).latView l else s

/-! ### The commands -/

/-- A stream's samples join its window of 64 indices (R163). Those of a window before a restart stay only while every sample since
awaits its tag result, whose failure takes the restart back (R137). A stream's first accepted sample is the first one written: an
alternate's samples are accepted but not written while its primary feeds (DESIGN CHOICE, log 276). -/
def Ctx.addSamples (x : Ctx) (ms : List Smp) : Ctx :=
  let all := x.samples ++ ms
  let w := newestWin all
  let sure := all.any (fun m => m.win == w && !m.unver)
  let top := fun (n : Nat) => match all.filter (fun m => m.win == n) with
    | [] => (0 : Int)
    | m :: t => t.foldl (fun (a : Int) m => max a m.k) m.k
  { x with samples := all.filter (fun m => (m.win == w || !sure) && decide (top m.win - 64 < m.k)), first := x.first <|> ms.head? }

/-- LATTICE_WRITE: the oldest samples on their way reach the Lattice; those of an older generation are dropped (R153). -/
def latticeWrite (s : State) : State :=
  match s.ing.writes with
  | [] => s
  | w :: rest =>
    let s := { s with ing := { s.ing with writes := rest } }
    if (s.ctx w.ctx).gen != w.gen then s.bump (F.ICL_CNT_COUNT.nth 12)
    else
      let s := s.modCtx w.ctx (fun x => x.addSamples w.smps)
      (List.range 4).foldl (fun s l => if (s.lattice l).running then (s.arrive l w.ctx).settle l else s) s

/-- PROVISIONAL_CLOSE: the next provisional close time of a lattice comes. -/
def provisionalClose (l : Nat) (s : State) : State :=
  let x := s.lattice l
  if !x.running then s
  else
    let s := s.advanceTo (s.tPclose l x.pc)
    (s.modLat l (fun x => { x with pc := x.pc + 1, specAt := if x.next ≤ x.pc then x.specAt ++ [(x.pc, s.flag (F.SLE_LAT_CFG_SPEC_EN.nth l))]
      else x.specAt })).settle l

/-- INSTANT_DEADLINE: the next deadline of a lattice comes; its provisional close time has come before it. -/
def instantDeadline (l : Nat) (s : State) : State :=
  if !(s.lattice l).running then s
  else
    let s := if (s.lattice l).pc ≤ (s.lattice l).dl then provisionalClose l s else s
    let s := s.advanceTo (s.tDeadline l (s.lattice l).dl)
    (s.modLat l (fun x => { x with dl := x.dl + 1 })).settle l

/-- A tag result for a frame whose samples were written early: verified, they stop waiting; failed, they are withdrawn and the lowest
instant they entered is refuted (R137, R177). -/
def State.samplesResult (s : State) (c fid : Nat) (pass : Bool) : State :=
  let after := fun (ms : List Smp) => if pass then ms.map (fun m => if m.fid = fid then { m with unver := false } else m)
    else ms.filter (fun m => m.fid != fid)
  let s := s.modCtx c (fun x =>
    let ms := after x.samples
    { x with samples := ms, first := if !pass && x.first.any (fun m => m.fid == fid) then ms.head? else x.first })
  (List.range 4).foldl (fun s l =>
    if !(s.lattice l).running then s
    else if pass then
      (((s.lattice l).insts.filter (fun i => i.used.contains fid)).foldl (fun s i =>
        let vs := match s.contribOf l i c with | some k => k.vals | none => []
        let j := { i with vals := i.vals.map (fun v => match vs.find? (fun w => w.1 == v.1) with
          | some w => (v.1, { v.2 with unver := w.2.unver })
          | none => v) }
        (s.modLat l (fun x => { x with insts := x.insts.map (fun k => if k.n = i.n then j else k) })).writeSlot l j false) s).settle l
    else match (s.lattice l).insts.find? (fun i => i.used.contains fid) with
      | some i => (s.refute l i.n 7).settle l
      | none => s.settle l) s

/-- PHE_FOLD: the oldest difference of a lattice whose instant is computed enters the sums (R206). -/
def pheFold (l : Nat) (s : State) : State :=
  match s.phe.folds.find? (fun f => f.lat == l && decide (f.n ≤ Tbl.get 0 l s.phe.done)) with
  | none => s
  | some f => { s with phe := { s.phe with folds := s.phe.folds.erase f } }.applyFold f

/-- PHASORS_READY: the records of the next closed instant are complete; guards and level triggers evaluate it. -/
def phasorsReady (l n : Nat) (s : State) : State :=
  match s.pheRun l n with
  | none => s
  | some r =>
    let s := (r.1.gcmRun l n r.2).dreLevels l n r.2
    if s.flag F.GCM_CTL_EN then s else s.dreClosed l n

/-- GUARD_RESULTS_READY: the guard flags of N become visible in G (R230), and with them the recorder's binaries (R298). -/
def guardsVisible (l n : Nat) (s : State) : State :=
  if s.gcm.ready.any (fun u => u.lat == l && u.n == n) then (guardResultsReady l n s).dreClosed l n else s

/-- LATTICE_START: a lattice starts at the smallest N whose nominal time is 1 ms or more away (R494). -/
def State.latStart (s : State) (l : Nat) : State :=
  let f := s.latRate l
  let t := s.now + ms 1
  let d := us (s.get (F.SLE_LAT_TIME_ALIGN_DELAY.nth l))
  let n1 := (t - d) * f / secUnits
  let n0 := if t ≤ s.tNominal l (n1 - 1) then n1 - 1 else if t ≤ s.tNominal l n1 then n1 else if t ≤ s.tNominal l (n1 + 1) then n1 + 1 else n1 + 2
  let next := (s.lattice l).next
  let s := s.modLat l (fun x => { ({} : Lattice) with
    running := true, n0, next := n0, conf := n0 - 1, pc := n0, dl := n0, seqs := x.seqs, substTotal := x.substTotal })
  let s := s.setF F.SLE_STATUS_RUN (putBits l l 1 (s.get F.SLE_STATUS_RUN))
  (((if s.flag F.PHE_CTL_EN then s.pheStart l n0 else s).gcmStart l n0).dreStart l n0 next).settle l

/-- What a write of EN in SLE.CTL does: its rise starts every lattice in use (R494), its fall stops them. -/
def State.sleSwitch (s : State) (was : Bool) : State :=
  if s.flag F.SLE_CTL_EN then
    if was then s else ((List.range 4).filter (fun l => s.flag (F.SLE_LAT_CFG_EN.nth l))).foldl (fun s l => s.latStart l) s
  else ((List.range 4).foldl (fun (s : State) l => s.modLat l (fun x => { x with running := false })) s).setF F.SLE_STATUS_RUN 0

/-- LATTICE_WRITE. -/
def execLatticeWrite (s : State) : Result := .next (latticeWrite s)
/-- PROVISIONAL_CLOSE. -/
def execProvisionalClose (lat : Nat) (s : State) : Result := .next (provisionalClose lat s)
/-- INSTANT_DEADLINE. -/
def execInstantDeadline (lat : Nat) (s : State) : Result := .next (instantDeadline lat s)
/-- PHE_FOLD. -/
def execPheFold (lat : Nat) (s : State) : Result := .next (pheFold lat s)
/-- PHASORS_READY. -/
def execPhasorsReady (lat n : Nat) (s : State) : Result := .next (phasorsReady lat n s)
/-- GUARD_RESULTS_READY. -/
def execGuardResultsReady (lat n : Nat) (s : State) : Result := .next (guardsVisible lat n s)

end Sys2Proof.Machine
end

