-- ==== Sys2Proof/Machine/Ingress.lean ====
section
/-! DEFINITION. The Ingress Classifier (R114, R130 to R156): steering into receive staging, duplicate discard, matching, the checks of
SV and GOOSE frames, sample indices and times, health, feeders, GOOSE members and foreign streams. -/
namespace Sys2Proof.Machine

/-! ### Receive staging and steering (R114, R115, R122) -/

/-- Octets held in a port's receive staging. -/
def Mac.staged (m : Mac) : Nat := sumN (m.staging.map (fun g => g.frame.len))

/-- A pause frame of `q` quanta sent by a port (R122). It counts in TX_PAUSE alone, not in TX_OK and TX_OCTETS; DESIGN CHOICE,
log 229. -/
def State.pauseSend (s : State) (p q : Nat) : State :=
  (s.modMac p (fun m => { m with pauseOut := some q, pauseTxAt := s.now })).macBump p 23

/-- PAUSE_TX: each time staging passes 75 % full a pause frame goes out, and one of zero quanta when it falls below 25 % after
one. `pauseHigh` holds that it stands above 75 %, `pauseStay` that it has stayed above 50 % since the last pause frame (R122). -/
def State.pauseLevel (s : State) (p : Nat) : State :=
  let m := s.macOf p
  let q := s.get (F.MAC_PAUSE_CFG_TX_QUANTA.pg p)
  let high := decide (196608 < m.staged)
  let may := s.flag (F.MAC_CTL_TX_PAUSE_EN.pg p) && q != 0 && p != 8 && p != 9
  let pass := may && high && !m.pauseHigh
  let fall := may && m.pauseSent && decide (m.staged < 65536)
  let s := if pass then s.pauseSend p q else if fall then s.pauseSend p 0 else s
  s.modMac p (fun x => { x with
    pauseHigh := high, pauseSent := pass || (x.pauseSent && !fall)
    pauseStay := pass || (x.pauseStay && decide (131072 < m.staged)) })

/-- A frame dropped for want of descriptors: the count, and one event of the ring in each 1 ms (R115, R338). -/
def State.ringNobuf (s : State) (p r : Nat) : State :=
  let w := s.sltEnt 2 r
  let n := rgSlice w
  let s := (s.macBump p 9).modRing r (fun g => { g with nobuf := g.nobuf + 1 })
  let s := s.modSlice n (fun x => { x with rxNobuf := satInc 32 x.rxNobuf })
  let g := s.ring r
  if (match g.nobufAt with | some t => decide (t + ms 1 ≤ s.now) | none => true) then
    (s.event n 0x0003 (rgLocal w) g.nobuf 0).modRing r (fun g => { g with nobuf := 0, nobufAt := some s.now })
  else s

/-- A frame into a port's receive staging for a ring, or dropped for want of room; at its end it claims every descriptor it
needs, or is dropped whole (R115). -/
def State.stage (s : State) (p ring : Nat) (f : Frame) (ts : Time) (coarse : Bool) (copy : Option Nat) : State :=
  if 262144 < (s.macOf p).staged + f.len then s.macBump p 10
  else
    let w := s.sltEnt 2 ring
    let x := s.ring ring
    let k := (f.len + max 1 (rgBuf w) - 1) / max 1 (rgBuf w)
    if !seValid w then s.macBump p 9
    else if rgKind w != 0 || s.ringState ring != 1 || rgBuf w == 0 || decide (x.posted - x.claimed < k) then s.ringNobuf p ring
    else
      let g : Staged := ⟨ring, x.head + x.claimed, k, f, ts, coarse, copy, (s.slice (rgSlice w)).gen⟩
      ((s.modRing ring (fun x => { x with claimed := x.claimed + k })).modMac p (fun m => { m with staging := m.staging ++ [g] })).pauseLevel p

/-- The tag of a frame as the MAC parses it: a frame with a second tag is untagged (R113). -/
def Frame.tag (f : Frame) : Option Vlan := if f.doubleTag then none else f.vlan

/-- The VID that a port's steering sees. -/
def Frame.seenVid (f : Frame) : Option Nat := (Frame.tag f).map (fun v => v.vid)

/-- Whether a steering entry of a port matches (R114). -/
def State.steers (s : State) (p n : Nat) (f : Frame) : Bool :=
  let e := fun (x : Field) => s.get ((x.nth n).pg p)
  let bcast := f.da == 0xFFFFFFFFFFFF
  let multi := bit 40 f.da
  e F.MAC_RX_STEER_VALID == 1
    && (match e F.MAC_RX_STEER_DA_CLASS with
        | 0 => true
        | 1 => f.da == s.portAddr p
        | 2 => multi && !bcast
        | _ => bcast)
    && (e F.MAC_RX_STEER_VID_EN == 0 || Frame.seenVid f == some (e F.MAC_RX_STEER_VID))
    && (e F.MAC_RX_STEER_ETYPE_EN == 0 || f.etype == e F.MAC_RX_STEER_ETYPE)

/-- RX_STEER: the first matching entry, else the default entry, names the ring (R114). -/
def State.steer (s : State) (p : Nat) (f : Frame) (ts : Time) (coarse : Bool) : State :=
  match (List.range 16).find? (fun n => s.steers p n f) with
  | some n => s.stage p (s.get ((F.MAC_RX_STEER_RING.nth n).pg p)) f ts coarse none
  | none =>
    if s.flag (F.MAC_RX_DEFAULT_VALID.pg p) then s.stage p (s.get (F.MAC_RX_DEFAULT_RING.pg p)) f ts coarse none
    else s.macBump p 8

/-! ### Counters and status bits (R150, R155, R156) -/

/-- Count one event of the Classifier. -/
def State.iclBump (s : State) (n : Nat) : State := s.bump (F.ICL_CNT_COUNT.nth n)

/-- The four status bits of a context (R150). -/
def State.ctxBits (s : State) (c : Nat) : State :=
  let x := s.ctx c
  let i := cxStatI x.words
  if i = 0xFFFF ∨ x.words.isEmpty then s
  else
    let live := x.health == hLive
    if cxGoose x.words then
      (((s.setI1 i live).setI1 (i + 1) (x.sim && x.health != hRetiring)).setI1 (i + 2) (x.gooseTest && x.health != hRetiring)).setI1
        (i + 3) (x.gooseConf && x.health != hRetiring)
    else (((s.setI1 i live).setI1 (i + 1) (x.health == hDegr)).setI1 (i + 2) (x.health == hLost)).setI1 (i + 3)
      (x.altFeeds && x.health != hRetiring)

/-! ### Health and feeders of SV contexts (R144 to R146) -/

/-- A rate step of a context in Hz. -/
def Ctx.rate (x : Ctx) : Nat := rateHz (cxRateCode x.words)

/-- Indices of the last 64 never accepted, counted from where the window restarted. -/
def CtxTrack.missing (t : CtxTrack) : Nat :=
  match t.kHigh with
  | none => 0
  | some h =>
    let lo := max t.start (h - 63)
    (h - lo + 1).toNat - (t.win.filter (fun j => decide (lo ≤ j))).length

/-- The moment until which two tag failures lie within 1 s (condition 0x4). -/
def Ctx.tagUntil (x : Ctx) : Time := match x.tagFails with
  | _ :: b :: _ => b + secs 1
  | _ => 0

/-- The lowest condition of degradation that is true at a moment, 0 for none (R144). -/
def State.degraded (s : State) (c : Nat) (now : Time) : Nat :=
  let x := s.ctx c
  let w := x.words
  if (s.cxMap w).zipIdx.any (fun m => mpValid m.1 && decide (8 ≤ Tbl.get 0 m.2 x.invRun)) then 1
  else if cxDelayLimit w != 0 && decide ((us (10 * cxDelayLimit w) : Int) < x.track.dEst) then 2
  else if 4 ≤ x.track.missing then 3
  else if now < x.tagUntil then 4
  else if 8 ≤ x.badRun then 5
  else 0

/-- The feeder of a primary under R145; a change sends an event to slice 0 (R146). -/
def State.feederTo (s : State) (p : Nat) (alt : Bool) : State :=
  let x := s.ctx p
  if x.altFeeds = alt then s
  else
    let s := s.modCtx p (fun x => { x with altFeeds := alt, switches := satInc 8 x.switches })
    let s := if alt then s.iclBump 15 else s
    (s.ctxBits p).event 0 0x0101 p (if alt then cxAltIdx x.words else p) 0

/-- The rules of R145 on a primary. -/
def State.chooseFeeder (s : State) (p : Nat) : State :=
  let x := s.ctx p
  if cxGoose x.words || !cxAltEn x.words || x.health == hRetiring || x.health == hFree then s
  else
    let a := s.ctx (cxAltIdx x.words)
    if x.altFeeds then
      if a.health == hLive then s
      else if x.health == hLive || (x.health == hDegr && a.health != hDegr) || a.health == hFree || a.health == hRetiring then s.feederTo p false
      else s
    else if (x.health == hDegr || x.health == hLost) && a.health == hLive then s.feederTo p true
    else if x.health == hLost && a.health == hDegr then s.feederTo p true
    else s

/-- Everything that follows a change of a context's health: its bits and the feeders it is part of. -/
def State.healthChanged (s : State) (c : Nat) : State :=
  let s := (s.ctxBits c).chooseFeeder c
  match s.primaryOf c with
  | some p => s.chooseFeeder p
  | none => s

/-- The health of an SV context looked at after a frame (R144). -/
def State.healthEval (s : State) (c : Nat) : State :=
  let x := s.ctx c
  let d := s.degraded c s.now
  let clean := d == 0 || (d == 4 && decide (x.badRun < 8))
  let s := s.modCtx c (fun x => { x with cleanFrom := if clean then (if x.cleanFrom.isSome then x.cleanFrom else some s.now) else none })
  if x.health = hLive ∧ d ≠ 0 then (s.modCtx c (fun x => { x with health := hDegr, reason := d, liveSince := none })).healthChanged c
  else if x.health = hDegr ∧ d ≠ 0 then s.modCtx c (fun x => { x with reason := d })
  else s

/-! ### Sample indices and times (R140 to R142, R502) -/

/-- The nominal sample period in units of 2^-16 ns. -/
def period (rate : Nat) : Int := divUp secUnits rate

/-- The alignment class of an ASDU: true for count-aligned (R140). -/
def State.countAligned (s : State) (w : List Nat) (a : Asdu) : Bool :=
  a.smpSynch == 2 && s.get F.TBU_STATUS_SYNCH == 2 && !cxForceTs w
    && (match a.gmId with | some g => g == s.get F.TBU_GM_ID_GM_ID | none => true)

/-- The step of smpCnt from one ASDU to a later one (R141). -/
def cntStep (rate : Nat) (before after : Nat) : Int :=
  let d := (after + rate - before % rate) % rate
  if rate < 2 * d then (d : Int) - rate else d

/-- The nominal time and index of a count-aligned sample (R141). -/
def countTime (rate : Nat) (a : Int) (cnt : Nat) : Int × Int :=
  let off := divUp (cnt * secUnits) rate
  let sec := (a - off) / secUnits
  (sec * secUnits + off, sec * rate + cnt)

/-- One index into the window (R141): whether it is accepted, and the track after. -/
def CtxTrack.index (t : CtxTrack) (rate : Nat) (k : Int) : Bool × CtxTrack :=
  match t.kHigh with
  | none => (true, { t with kHigh := some k, win := [k], start := k, winNo := t.winNo + 1 })
  | some h =>
    if h < k then
      if 2 * (k - h) ≤ rate then
        (true, { t with kHigh := some k, win := k :: t.win.filter (fun j => decide (k - 64 < j)), seqGap := min 65535 (t.seqGap + (k - h - 1).toNat) })
      else (true, { t with kHigh := some k, win := [k], start := k, winNo := t.winNo + 1, seqGap := satInc 16 t.seqGap })
    else if k ≤ h - 64 ∨ t.win.contains k then (false, { t with dupStale := satInc 16 t.dupStale })
    else (true, { t with win := k :: t.win })

/-- An ASDU placed: its index, class, whether it is accepted, its nominal time where count-aligned, and the nominal time and index
of the count-aligned ASDU before it where the tracker has not run since (R502). -/
structure Placed where
  k : Int
  cnt : Bool
  ok : Bool
  t : Int
  pre : Option (Int × Int)

/-- The ASDUs of a frame placed in the order sent (R141, R502). `first` is the index of the frame's last ASDU where the context has
no previous index; with `restart` each ASDU counts back from that one, so that the last takes it whatever the steps between. -/
def placeAsdus (rate : Nat) (a first : Int) (cntL : Nat) (restart : Bool) :
    List (Asdu × Bool) → Option (Int × Int) → CtxTrack → List Placed × CtxTrack
  | [], _, t => ([], t)
  | (x, cls) :: rest, pre, t =>
    let t := if t.counted && t.aligned != cls then { t with alignResync := satInc 8 t.alignResync } else t
    let ct := countTime rate a x.smpCnt
    let k := if cls then ct.2
      else match if restart then none else t.kPrev with
        | some p => p + cntStep rate t.prevCnt x.smpCnt
        | none => first - cntStep rate x.smpCnt cntL
    let r := t.index rate k
    let t := { r.2 with counted := true, aligned := cls, kPrev := some k, prevCnt := x.smpCnt, lastCnt := if r.1 then x.smpCnt else r.2.lastCnt }
    -- on a change to timestamp alignment the tracker starts from the last count-aligned sample
    let t := if cls then { t with lastT := ct.1, kLast := k, running := false }
      else t
    let u := placeAsdus rate a first cntL restart rest (if cls then some (ct.1, k) else pre) t
    (⟨k, cls, r.1, ct.1, pre⟩ :: u.1, u.2)

/-- After a restart the window ends at the index of the frame's last ASDU (R141). -/
def CtxTrack.endAt (t : CtxTrack) (k : Int) : CtxTrack :=
  { t with kHigh := some k, win := t.win.filter (fun j => decide (k - 64 < j) && decide (j ≤ k)) }

/-- The tracker moved to index `k` by an arrival (R142). -/
def CtxTrack.follow (t : CtxTrack) (rate : Nat) (a fixed k : Int) : CtxTrack :=
  let nom := period rate
  let pred := t.tau + (k - t.kLast) * t.per
  let e := a - fixed - pred
  let tau := if e < 0 then pred + divAway e 4 else pred + divAway e 256
  let lo := divAway (nom * 999800) 1000000
  let hi := divAway (nom * 1000200) 1000000
  let per := max lo (min hi (t.per + divAway e 16384))
  { t with tau, per, kLast := k, dEst := t.dEst + divAway (a - tau - t.dEst) 64
           eRun := if 4 * t.per < (e.natAbs : Int) then t.eRun + 1 else 0 }

/-- The tracker started at the first accepted frame or after a restart. -/
def CtxTrack.begin_ (t : CtxTrack) (rate : Nat) (a fixed k : Int) : CtxTrack :=
  { t with tau := a - fixed, per := period rate, kLast := k, dEst := fixed, running := true, eRun := 0 }

/-- A delay d enters D_MIN and D_MAX, the extremes over the last complete second (R142). -/
def CtxTrack.extreme (t : CtxTrack) (sec : Nat) (d : Int) : CtxTrack :=
  if t.dSec = sec then { t with dMinNow := min t.dMinNow d, dMaxNow := max t.dMaxNow d }
  else { t with dMin := t.dMinNow, dMax := t.dMaxNow, dMinNow := d, dMaxNow := d, dSec := sec }

/-- The indices and sample times of a frame (R141, R142, R502): the samples accepted with their index, class and time, and the track
after; a frame none of whose ASDUs is accepted leaves only its count. -/
def State.placeFrame (s : State) (c : Nat) (p : SvPdu) (ts : Time) : List (Asdu × Placed) × CtxTrack :=
  let x := s.ctx c
  let w := x.words
  let rate := x.rate
  let a : Int := (ts : Nat)
  let fixed : Int := (us (cxFixedDelay w) : Nat)
  -- D_EST is set to FIXED_DELAY each time the context leaves LOST (R142)
  let t0 := if x.health = hLost then { x.track with dEst := fixed } else x.track
  let as := p.asdus.map (fun d => (d, s.countAligned w d))
  let cntL := (p.asdus.getLast?.map (fun d => d.smpCnt)).getD 0
  let first := divUp ((a - fixed) * rate) secUnits
  let fresh := t0.kPrev.isNone
  let t1 := if fresh && !((as.head?.map (fun d => d.2)).getD true) then { t0 with kHigh := none, win := [], running := false } else t0
  let restart := fresh && as.all (fun d => !d.2)
  let pre := if t1.counted && t1.aligned && !t1.running && !fresh then some (t1.lastT, t1.kLast) else none
  let r := placeAsdus rate a first cntL restart as pre t1
  let ps := r.1
  match ps.getLast? with
  | none => ([], x.track)
  | some last =>
    let t := if restart then r.2.endAt last.k else r.2
    if !ps.any (fun q => q.ok) then ([], { x.track with dupStale := t.dupStale })
    else
      -- the tracker before its update: running before the frame, or started from the count-aligned ASDU before, or started now
      let runs := t1.running && !ps.any (fun q => q.cnt)
      let began := !runs && last.pre.isNone
      let from_ := fun (p : Int × Int) => { t with tau := p.1, kLast := p.2, per := period rate, running := true, eRun := 0 }
      let base : CtxTrack :=
        if runs then t else match last.pre with
          | some p => from_ p
          | none => t.begin_ rate a fixed last.k
      let u : CtxTrack :=
        if last.cnt then
          let d := a - last.t
          ({ t with dEst := t.dEst + divAway (d - t.dEst) 64, running := false }).extreme (Time.sec ts) d
        else
          let m := if began then base else base.follow rate a fixed last.k
          m.extreme (Time.sec ts) (a - m.tau)
      let time := fun (q : Placed) =>
        if q.cnt then q.t
        else if last.cnt then
          let b := if t1.running then t1 else match q.pre with
            | some p => from_ p
            | none => t.begin_ rate a fixed last.k
          b.tau + (q.k - b.kLast) * b.per
        else u.tau - (last.k - q.k) * u.per
      let u := if 8 ≤ u.eRun then { u with running := false, kPrev := none, eRun := 0, alignResync := satInc 8 u.alignResync } else u
      (((p.asdus.zip ps).filter (fun q => q.2.ok)).map (fun q => (q.1, { q.2 with t := time q.2 })), u)

/-! ### SV frames (R138, R139) -/

/-- A channel of an ASDU with its quality class and flags (R138). The last row's flag column says TEST alone, where the row of its
validity says SUBST and DERIVED: such a sample carries them all, since it is classed 'by validity, as above' (DEDUCED, log 84). -/
def svValue (w : List Nat) (coarse unver : Bool) (v : SvChan) : LVal :=
  let q := v.q
  let bad := q.validity == .invalid || q.validity == .reserved || q.blocked || (q.test && !cxTestAccept w)
  let cls := if bad then 2 else if q.validity == .questionable then 1 else 0
  { v := v.val, cls, dq := q.detail % 256, subst := q.subst && !bad, derived := q.derived && !bad
    test := q.test && cxTestAccept w, coarse, alt := false, unver, pred := false, resamp := false, volt := false }

/-- Whether an SV context's samples go to the Lattice: it feeds, or an instant not yet confirmed kept it as a feeder. -/
def State.writesTo (s : State) (c : Nat) : Bool :=
  s.feeding c || s.lat.any (fun l => l.2.insts.any (fun i => i.feeds.any (fun f => f.ctx == c)))

/-- The samples of a frame indexed and, where the context feeds, sent to the Lattice (R141, R157). -/
def State.svIndex (s : State) (c : Nat) (p : SvPdu) (ts : Time) (coarse unver : Bool) (fid : Nat) : List Smp × State :=
  let x := s.ctx c
  let r := s.placeFrame c p ts
  let smps : List Smp := r.1.map (fun q =>
    { k := q.2.k, t := q.2.t, cnt := q.2.cnt, chans := q.1.chans.map (svValue x.words coarse unver), fid, unver, win := r.2.winNo })
  let stale := p.asdus.length - smps.length
  let s := (s.bumpBy (F.ICL_CNT_COUNT.nth 13) stale).modCtx c (fun x => { x with track := r.2 })
  (smps, if smps.isEmpty || !s.writesTo c then s
    else { s with ing := { s.ing with writes := s.ing.writes ++ [(⟨c, x.gen, smps⟩ : LWrite)] } })

/-- Whether every mapped channel of every ASDU, of which there is one, is INVALID for its test flag (R144, 0x5). -/
def State.allTest (s : State) (w : List Nat) (p : SvPdu) : Bool :=
  !cxTestAccept w && (s.cxMap w).any mpValid && p.asdus.all (fun a => (s.cxMap w).zipIdx.all (fun m =>
    !mpValid m.1 || (match a.chans[m.2]? with | some v => v.q.test | none => false)))

/-- An SV frame accepted (R144): counts, runs, health, and a copy for software. -/
def State.svAccept (s : State) (c : Nat) (e : RxEvent) (p : SvPdu) (ts : Time) (coarse : Bool) (smps : List Smp) : State :=
  if smps.isEmpty then s
  else
    let x := s.ctx c
    let w := x.words
    let run := smps.foldl (fun t m => (s.cxMap w).zipIdx.foldl (fun (t : Tbl Nat) q =>
      if mpValid q.1 then Tbl.set 0 q.2 (if (m.chans.getD q.2 (LVal.none false)).cls = 2 then Tbl.get 0 q.2 t + 1 else 0) t else t) t) x.invRun
    let test := s.allTest w p
    let left := x.health == hLost
    let s := s.modCtx c (fun x => { x with
      accepted := satInc 32 x.accepted, lastRx := Time.gt64 ts, coarseTs := coarse, heardAt := s.now, invRun := run
      badRun := if test then x.badRun + 1 else 0
      health := if x.health = hWait then hLive else if left then hDegr else x.health
      liveSince := if x.health = hWait then some s.now else x.liveSince, cleanFrom := if left then none else x.cleanFrom })
    let s := if x.health = hWait ∨ left then s.healthChanged c else s
    let s := s.healthEval c
    if cxCopyEn w then s.stage e.port (cxCopyRing w) e.frame ts coarse (some c) else s

/-- A discard that the checks of a context count (R138, R147): counter, and the runs of R144 and R147. -/
def State.ctxDiscard (s : State) (c cnt : Nat) : State :=
  let s := s.iclBump cnt
  let s := s.modCtx c (fun x => { x with
    confErr := if cnt = 6 then satInc 16 x.confErr else x.confErr
    simTest := if cnt = 9 then satInc 16 x.simTest else x.simTest
    tagFail := if cnt = 7 ∨ cnt = 8 then satInc 16 x.tagFail else x.tagFail
    tagFails := if cnt = 7 ∨ cnt = 8 then (s.now :: x.tagFails).take 2 else x.tagFails
    badRun := if cnt = 6 ∨ cnt = 9 then x.badRun + 1 else x.badRun, lastConf := cnt == 6 })
  if cxGoose (s.ctx c).words then s else s.healthEval c

/-- Whether a GROUP node holds the key that an extension names, under the algorithm of AUTH (R137, R419). -/
def State.tagKey (s : State) (w : List Nat) (x : SecExt) : Bool :=
  let n := s.groupNode (cxKeyNode w)
  let has := fun (k : Option KeySlot) => match k with | some k => k.alg == cxAuth w && k.keyId == x.keyId | none => false
  has n.cur || has n.nxt

/-- What the tag check decides at once (R137): a counter to discard under, a tag result to wait for, or no check. -/
inductive TagCheck
  | discard (cnt : Nat)
  | wait
  | free

/-- The tag check of a frame (R137). -/
def State.tagCheck (s : State) (w : List Nat) (ext : Option SecExt) : TagCheck :=
  if cxAuth w = 0 then .free
  else match ext with
    | none => .discard 7
    | some x => if x.alg != cxAuth w then .discard 7 else if s.tagKey w x then .wait else .discard 8

/-- The simulation rule of R139: whether the frame is discarded. -/
def Ctx.simDrops (x : Ctx) (sim : Bool) : Bool := if sim then !cxSimAccept x.words else x.sim

/-- The first of checks 1 to 3 of R138 that fails, if any. -/
def svFails (x : Ctx) (p : SvPdu) : Option Nat :=
  let w := x.words
  if !p.wellFormed || p.noAsdu == 0 || decide (8 < p.noAsdu) || p.asdus.length != p.noAsdu then some 5
  else if p.noAsdu != cxNoAsdu w || p.asdus.any (fun a => a.confRev != cxConfRev w
      || (match a.smpRate with | some r => r != x.rate | none => false) || a.seqLen != cxNChan w * 8 || a.chans.length != cxNChan w)
  then some 6
  else if p.asdus.any (fun a => a.svId != ((p.asdus.head?.map (fun b => b.svId)).getD []) || decide (x.rate ≤ a.smpCnt)) then some 5
  else none

/-! ### GOOSE frames (R147, R148) -/

/-- Bits of operand space I that a map entry's member takes. -/
def mpWidth (m : Nat) : Nat :=
  match mpType m with
  | 0 => 1
  | 1 => mpBits m
  | 2 => 2
  | 3 => 2
  | _ => 0

/-- The bits that a member gives its map entry, none where it is skipped (R148). -/
def memberBits (m : Nat) (v : GooseVal) : List Bool :=
  match mpType m, v with
  | 0, .bool b => [b]
  | 1, .bitString bs => (List.range (mpBits m)).map (fun i => bs.getD i false)
  | 2, .quality q => [q.validity == .good && !q.blocked, q.test]
  | 3, .dbpos b c => [b, c]
  | _, _ => []

/-- Bits into consecutive places of I. -/
def State.putI (s : State) (i : Nat) (bs : List Bool) : State := bs.zipIdx.foldl (fun s b => s.setI1 (i + b.2) b.1) s

/-- Every member of a GOOSE frame into I as one update (R148, R240). -/
def State.gooseMembers (s : State) (w : List Nat) (vals : List GooseVal) : State :=
  ((s.cxMap w).zip vals).foldl (fun s p => if mpValid p.1 then s.putI (mpI p.1) (memberBits p.1 p.2) else s) s

/-- The fallback of R148. -/
def State.gooseFallback (s : State) (w : List Nat) : State :=
  if cxFallback w then
    (s.cxMap w).foldl (fun s m => if mpValid m then s.putI (mpI m) (List.replicate (mpWidth m) (mpDefault m)) else s) s
  else s

/-- The first of checks 1 to 3 of R147 that fails, if any. -/
def gooseFails (x : Ctx) (p : GoosePdu) : Option Nat :=
  let w := x.words
  if !p.wellFormed || p.vals.length != cxNPrim w then some 5
  else if p.confRev != cxConfRev w || p.ndsCom || p.numEntries != cxNEnt w then some 6
  else if x.simDrops p.sim || (p.test && !cxTestAccept w) then some 9
  else none

/-- Check 5 and the state table of R147 on a frame that passed checks 1 to 4. In EXPIRED reached from WAIT, with no frame accepted
before, ordering compares with stNum 0 and sqNum 0 (DESIGN CHOICE, log 230); the run of frames discarded as older ends at an
accepted frame alone (DEDUCED, log 231). -/
def State.gooseAccept (s : State) (c : Nat) (e : RxEvent) (p : GoosePdu) (ts : Time) (coarse : Bool) : State :=
  let x := s.ctx c
  let w := x.words
  let fresher := newer p.stNum x.stNum || (p.stNum == x.stNum && newer p.sqNum x.sqNum)
  let first := x.health == hWait
  let restart := !first && ((p.stNum == 1 && decide (p.sqNum ≤ 1) && x.stNum != 1) || (!fresher && decide (3 ≤ x.olderRun)))
  if !first && !restart && !fresher then
    (s.iclBump 14).modCtx c (fun x => { x with olderRun := x.olderRun + 1, track := { x.track with dupStale := satInc 16 x.track.dupStale } })
  else
    let same := !first && !restart && p.stNum == x.stNum && x.health == hLive
    let gap := !first && !restart && x.health == hLive && p.stNum != x.stNum && p.stNum != (x.stNum + 1) % 2 ^ 32
    let s := if same then s else s.gooseMembers w p.vals
    let s := s.modCtx c (fun x => { x with
      health := hLive, stNum := p.stNum, sqNum := p.sqNum, tal := p.tal, heardAt := s.now, olderRun := 0, confRun := 0, gooseConf := false
      gooseTest := p.test, accepted := satInc 32 x.accepted, lastRx := Time.gt64 ts, coarseTs := coarse
      track := if gap then { x.track with seqGap := satInc 16 x.track.seqGap } else x.track })
    let s := s.ctxBits c
    if cxCopyEn w then s.stage e.port (cxCopyRing w) e.frame ts coarse (some c) else s

/-- A GOOSE frame that fails check 2: the eighth in a row takes the context to EXPIRED with CONF (R147). -/
def State.gooseConfErr (s : State) (c : Nat) : State :=
  let s := (s.ctxDiscard c 6).modCtx c (fun x => { x with confRun := x.confRun + 1 })
  let x := s.ctx c
  if x.confRun < 8 then s
  else ((s.gooseFallback x.words).modCtx c (fun x => { x with health := hLost, gooseConf := true, confRun := 0 })).ctxBits c

/-! ### Foreign streams (R151) -/

/-- The key of a foreign entry. -/
def ForeignEntry.key (x : ForeignEntry) : List Nat := [b2n x.goose, x.da, x.sa, x.appid, x.idCrc]

/-- One frame into the foreign-stream table, at its arrival time. -/
def State.foreignRecord (s : State) (e : RxEvent) (ts : Time) (goose : Bool) (appid : Nat) (ident : Octets) : State :=
  let f := e.frame
  let rec0 : ForeignEntry := { valid := true, goose, port := e.port, tagged := f.vlan.isSome && !f.doubleTag, sa := f.sa, appid, da := f.da
                               idCrc := crc32c ident, idLen := ident.length, vid := (Frame.seenVid f).getD 0, lastSeen := Time.gt64 ts, frames := 1
                               firstSec := Time.sec ts % 2 ^ 32 }
  let s := s.iclBump 10
  let put := fun (s : State) (i : Nat) (x : ForeignEntry) => { s with ing := { s.ing with foreign := Tbl.set {} i x s.ing.foreign } }
  match s.ing.foreign.find? (fun p => p.2.valid && p.2.key == rec0.key) with
  | some p => put s p.1 { rec0 with frames := satInc 32 p.2.frames, firstSec := p.2.firstSec }
  | none =>
    let free := (List.range 256).find? (fun i => !(Tbl.get ({} : ForeignEntry) i s.ing.foreign).valid)
    let old := (s.ing.foreign.foldl (fun (a : Option (Nat × Nat)) p => match a with
      | none => some (p.1, p.2.lastSeen)
      | some b => if gt64Ns p.2.lastSeen < gt64Ns b.2 then some (p.1, p.2.lastSeen) else a) none)
    let i := match free with | some i => i | none => (old.map Prod.fst).getD 0
    let s := put (if free.isSome then s else s.iclBump 11) i rec0
    let sec := Time.sec s.now
    let n := if s.ing.fevtSec = sec then s.ing.fevtCount else 0
    if n < s.get F.ICL_CTL_FEVT_RATE then
      { s with ing := { s.ing with fevtSec := sec, fevtCount := n + 1 } }.event 0 0x0102 i 0 0
    else s

/-- A frame of a stream nobody subscribes to. -/
def State.foreign (s : State) (e : RxEvent) (ts : Time) (goose ok : Bool) (appid : Nat) (ident : Octets) : State :=
  if !s.flag F.ICL_CTL_FOREIGN_EN then s.iclBump 10
  else if !ok then s.iclBump 5
  else s.foreignRecord e ts goose appid ident

/-! ### Classification (R130, R131, R136) -/

/-- Whether a context matches a frame (R131). -/
def Ctx.matches_ (x : Ctx) (goose : Bool) (port : Nat) (f : Frame) (appid : Nat) (ident : Octets) : Bool :=
  let w := x.words
  x.health != hFree && cxValid w && cxGoose w == goose && bit port (cxPorts w) && cxDa w == f.da && cxAppid w == appid
    && (!cxVidEn w || Frame.seenVid f == some (cxVid w)) && cxIdLen w == ident.length && cxIdCrc w == crc32c ident

/-- The context that matches a frame: a RETIRING entry takes it only where no other does (R131, R152, R154). -/
def State.matchCtx (s : State) (goose : Bool) (port : Nat) (f : Frame) (appid : Nat) (ident : Octets) : Option Nat :=
  let hits := (s.ing.ctx.filter (fun p => p.2.matches_ goose port f appid ident))
  ((hits.find? (fun p => p.2.health != hRetiring)).or hits.head?).map Prod.fst

/-- Whether an entry of a duplicate store is that of a frame's source and sequence (R136). -/
def DupEntry.names (d : DupEntry) (f : Frame) : Bool := d.sa == f.sa && f.red.map (fun r => r.seq) == some d.seq

/-- A frame entered in its pair's duplicate store (R136): an entry made before keeps its place and its moment; one 400 ms old is
forgotten, and neither names a frame nor takes a place. -/
def State.dupEnter (s : State) (e : RxEvent) (st : DupStatus) : State :=
  match e.frame.red with
  | none => s
  | some r =>
    if s.redun e.port = 0 then s
    else
      let k := e.port / 2
      let d := (s.pairOf k).dup.filter (fun x => decide (s.now < x.at_ + ms 400))
      if d.any (fun x => x.names e.frame) then
        s.modPair k (fun p => { p with dup := d.map (fun x => if x.names e.frame then { x with st } else x) })
      else
        let s := if d.length < 16384 then s else s.iclBump 4
        s.modPair k (fun p => { p with dup := (if d.length < 16384 then d else d.drop 1) ++ [(⟨e.frame.sa, r.seq, st, s.now⟩ : DupEntry)] })

/-- The status of a copy's entry in the store; an entry is forgotten 400 ms after it was made. -/
def State.dupStatus (s : State) (e : RxEvent) : Option DupStatus :=
  if s.redun e.port = 0 then none
  else ((s.pairOf (e.port / 2)).dup.find? (fun x => x.names e.frame && decide (s.now < x.at_ + ms 400))).map (fun x => x.st)

/-- A copy discarded as a duplicate. -/
def State.dupDiscard (s : State) (port : Nat) : State := s.iclBump (if s.redun port = 2 then 3 else 2)

/-- The oldest frame of a context that awaits its tag is written early where the context asks for it, unless the context has changed
since (R137, R153). -/
def State.earlyWrite (s : State) (c : Nat) : State :=
  match s.ing.tags.find? (fun t => t.ctx == c) with
  | none => s
  | some t =>
    match t.early && !t.written && (s.ctx c).gen == t.gen, t.ev.frame.body with
    | true, .sv p =>
      let saved := (s.ctx c).track
      let r := s.svIndex c p t.ts t.coarse true t.fid
      { r.2 with ing := { r.2.ing with
        tags := r.2.ing.tags.map (fun u => if u.fid = t.fid then { u with written := true, saved, smps := r.1 } else u) } }
    | _, _ => s

/-- A frame waits for its tag result. -/
def State.tagWait (s : State) (c : Nat) (e : RxEvent) (ts : Time) (coarse early : Bool) : State :=
  let s := s.dupEnter e .pending
  let s := { s with ing := { s.ing with
    fid := s.ing.fid + 1
    tags := s.ing.tags ++ [(⟨c, (s.ctx c).gen, e, ts, coarse, early, false, {}, [], s.ing.fid + 1⟩ : TagWait)] } }
  s.earlyWrite c

/-- An SV frame matched to a context (R138). -/
def State.svFrame (s : State) (c : Nat) (e : RxEvent) (p : SvPdu) (ts : Time) (coarse : Bool) : State :=
  let s := s.iclBump 0
  let x := s.ctx c
  let w := x.words
  match svFails x p with
  | some n => s.ctxDiscard c n
  | none =>
    let s := if p.sim && cxSimAccept w then s.modCtx c (fun x => { x with sim := true }) else s
    if (s.ctx c).simDrops p.sim then s.ctxDiscard c 9
    else match s.tagCheck w p.ext with
      | .discard n => s.ctxDiscard c n
      | .wait => s.tagWait c e ts coarse (cxEarly w)
      | .free =>
        let s := s.dupEnter e .accepted
        let s := { s with ing := { s.ing with fid := s.ing.fid + 1 } }
        let r := s.svIndex c p ts coarse false s.ing.fid
        r.2.svAccept c e p ts coarse r.1

/-- A GOOSE frame matched to a context (R147). A frame that fails check 1 leaves the run of eight failures of check 2 as it is
(DEDUCED, log 231). -/
def State.gooseFrame (s : State) (c : Nat) (e : RxEvent) (p : GoosePdu) (ts : Time) (coarse : Bool) : State :=
  let s := s.iclBump 1
  let x := s.ctx c
  match gooseFails x p with
  | some 6 => s.gooseConfErr c
  | some n => (s.ctxDiscard c n).modCtx c (fun x => { x with confRun := if n = 5 then x.confRun else 0 })
  | none =>
    let s := (s.modCtx c (fun x => { x with confRun := 0, sim := x.sim || (p.sim && cxSimAccept x.words) })).ctxBits c
    match s.tagCheck x.words p.ext with
    | .discard n => s.ctxDiscard c n
    | .wait => s.tagWait c e ts coarse false
    | .free => (s.dupEnter e .accepted).gooseAccept c e p ts coarse

/-- A frame for the foreign-stream table (R151). One that fails order 1 makes no ACCEPTED entry in the duplicate store, so that
its copy is processed too (R136; DEDUCED, log 232). -/
def State.foreignNew (s : State) (e : RxEvent) (ts : Time) (goose ok : Bool) (appid : Nat) (ident : Octets) : State :=
  (if ok then s.dupEnter e .accepted else s).foreign e ts goose ok appid ident

/-- A frame past the duplicate store, by what it carries (R130). -/
def State.classifyNew (s : State) (e : RxEvent) (ts : Time) (coarse : Bool) : State :=
  let f := e.frame
  let on := s.flag F.ICL_CTL_EN && !f.doubleTag
  let other := fun (s : State) => (s.dupEnter e .accepted).steer e.port f ts coarse
  let retiring := fun (c : Nat) => (s.ctx c).health == hRetiring
  match f.body with
  | .sv p =>
    let ident := (p.asdus.head?.map (fun a => a.svId)).getD []
    let ok := p.wellFormed && p.noAsdu != 0 && decide (p.noAsdu ≤ 8) && p.asdus.length == p.noAsdu
    if !on then other s
    else match s.matchCtx false e.port f p.appid ident with
      | some c => if retiring c then s.foreignNew e ts false ok p.appid ident else s.svFrame c e p ts coarse
      | none => s.foreignNew e ts false ok p.appid ident
  | .goose p =>
    if !on then other s
    else match s.matchCtx true e.port f p.appid p.gocbRef with
      | some c => if retiring c then s.foreignNew e ts true p.wellFormed p.appid p.gocbRef else s.gooseFrame c e p ts coarse
      | none => s.foreignNew e ts true p.wellFormed p.appid p.gocbRef
  | .ptp _ discard _ =>
    if s.attach.contains e.port && s.flag F.TBU_CTL_EN && !f.doubleTag then
      let s := s.dupEnter e .accepted
      if discard then s.bump F.TBU_EVT_CNT_PTP_DISCARD else s
    else other s
  | _ => other s

/-- Whether a GOOSE frame is the peer's publication of one of the module's own (R379). -/
def State.ownPublication (s : State) (f : Frame) : Bool :=
  match f.body with
  | .goose p => s.pubsOn.any (fun q => pbSystem q.2 && wbits q.2 1 47 0 == f.da && wbits q.2 0 34 19 == p.appid
      && crc32c (s.textOf 0 q.1) == crc32c p.gocbRef)
  | _ => false

/-- A copy of a frame at the Classifier: the duplicate store, then the sorting of R130. -/
def State.classifyCopy (s : State) (e : RxEvent) (ts : Time) (coarse : Bool) : State :=
  match s.dupStatus e with
  | some .accepted => s.dupDiscard e.port
  | some .pending => { s with ing := { s.ing with held := s.ing.held ++ [(⟨e.port / 2, e, ts, coarse⟩ : DupHeld)] } }
  | none => s.classifyNew e ts coarse

/-- A frame reaches the Classifier: looked at for the peer's publications, once (R379), and sorted. -/
def State.classify (s : State) (e : RxEvent) (ts : Time) (coarse : Bool) : State :=
  (if s.ownPublication e.frame then s.peerPublication else s).classifyCopy e ts coarse

/-! ### TAG_RESULT (R136, R137) -/

/-- Copies held behind a pending one leave: discarded after a pass, processed after a failure (R136). -/
def State.heldCopies (s : State) (e : RxEvent) (pass : Bool) : State :=
  match e.frame.red with
  | none => s
  | some r =>
    let mine := fun (h : DupHeld) => h.pair == e.port / 2 && h.ev.frame.sa == e.frame.sa && h.ev.frame.red.map (fun x => x.seq) == some r.seq
    let hs := s.ing.held.filter mine
    let s := { s with ing := { s.ing with held := s.ing.held.filter (fun h => !mine h) } }
    if pass then
      hs.foldl (fun s h => s.dupDiscard h.ev.port) (s.dupEnter e .accepted)
    else
      let s := s.modPair (e.port / 2) (fun p => { p with dup := p.dup.filter (fun x => !x.names e.frame) })
      hs.foldl (fun s h => s.classifyCopy h.ev h.ts h.coarse) s

/-- The result of a frame whose samples were written early follows them to the Lattice, to those on their way as to those that
entered instants, whether or not the context is still there (R137, R154). -/
def State.tagFollows (s : State) (t : TagWait) (pass : Bool) : State :=
  if !t.written then s
  else
    let told := fun (l : List Smp) =>
      if pass then l.map (fun m => if m.fid = t.fid then ({ m with unver := false } : Smp) else m)
      else l.filter (fun m => m.fid != t.fid)
    let after := fun (w : LWrite) => ({ w with smps := told w.smps } : LWrite)
    let s := { s with ing := { s.ing with writes := (s.ing.writes.map after).filter (fun w => !w.smps.isEmpty) } }
    s.samplesResult t.ctx t.fid pass

/-- A failed frame whose samples were written leaves no trace in its context's indexing and counters (R137). -/
def State.untrack (s : State) (t : TagWait) : State :=
  if !t.written then s
  else
    let d := (match t.ev.frame.body with | .sv p => p.asdus.length | _ => 0) - t.smps.length
    let f := F.ICL_CNT_COUNT.nth 13
    ((s.setF f (s.get f - d)).modCtx t.ctx (fun x => { x with track := t.saved })).tagFollows t false

/-- TAG_RESULT: the verification of the oldest waiting frame of a context completes. -/
def tagResult (c : Nat) (pass : Bool) (s : State) : State :=
  match s.ing.tags.find? (fun t => t.ctx == c) with
  | none => s
  | some t =>
    let s := { s with ing := { s.ing with tags := s.ing.tags.filter (fun u => u.fid != t.fid) } }
    if (s.ctx c).gen != t.gen then
      let s := if !t.written then s.iclBump 12 else if pass then s.tagFollows t true else (s.tagFollows t false).iclBump 7
      (s.heldCopies t.ev pass).earlyWrite c
    else if pass then
      let s := s.heldCopies t.ev true
      let s := match t.ev.frame.body with
        | .sv p =>
          if t.written then (s.svAccept c t.ev p t.ts t.coarse t.smps).tagFollows t true
          else
            let r := s.svIndex c p t.ts t.coarse false t.fid
            r.2.svAccept c t.ev p t.ts t.coarse r.1
        | .goose p => s.gooseAccept c t.ev p t.ts t.coarse
        | _ => s
      s.earlyWrite c
    else
      let s := (s.untrack t).ctxDiscard c 7
      (s.heldCopies t.ev false).earlyWrite c

/-! ### Expiries and restorations -/

/-- DUP_ENTRY_EXPIRY: 400 ms after it was made, an entry of the duplicate store is forgotten (R136). -/
def dupEntryExpiry (k sa seq : Nat) (s : State) : State :=
  let mine := fun (x : DupEntry) => x.sa == sa && x.seq == seq
  match (s.pairOf k).dup.find? mine with
  | none => s
  | some x => (s.advanceTo (x.at_ + ms 400)).modPair k (fun p => { p with dup := p.dup.filter (fun x => !mine x) })

/-- GOOSE_TAL_EXPIRY: the supervision timer of a VALID context runs out (R147). -/
def gooseTalExpiry (c : Nat) (s : State) : State :=
  let x := s.ctx c
  if !cxGoose x.words || x.health != hLive then s
  else
    let s := s.advanceTo (x.heardAt + ms (x.tal + cxTalMargin x.words))
    ((s.gooseFallback x.words).modCtx c (fun x => { x with health := hLost })).ctxBits c

/-- SV_LOSS: no frame accepted for LOSS_TIME; a context in WAIT counts only while EN is 1 (R144). -/
def svLoss (c : Nat) (s : State) : State :=
  let x := s.ctx c
  if cxGoose x.words || !((x.health == hWait && s.flag F.ICL_CTL_EN) || x.health == hLive || x.health == hDegr) then s
  else
    let s := s.advanceTo (x.heardAt + us (100 * cxLossTime x.words))
    (s.modCtx c (fun x => { x with
      health := hLost, reason := if x.lastConf then 6 else 7, liveSince := none, cleanFrom := none
      track := { x.track with kPrev := none, running := false } })).healthChanged c

/-- SV_HEALTH_RESTORE: 100 ms with every condition false (R144). -/
def svHealthRestore (c : Nat) (s : State) : State :=
  let x := s.ctx c
  match x.health == hDegr, x.cleanFrom with
  | true, some t =>
    let s := s.advanceTo (max t x.tagUntil + ms 100)
    (s.modCtx c (fun x => { x with health := hLive, liveSince := some s.now })).healthChanged c
  | _, _ => s

/-- ALT_RESTORE: a primary LIVE for RESTORE_TIME feeds again (R145). -/
def altRestore (c : Nat) (s : State) : State :=
  let x := s.ctx c
  match x.altFeeds && x.health == hLive && cxRestore x.words != 0, x.liveSince with
  | true, some t => (s.advanceTo (t + secs (cxRestore x.words))).feederTo c false
  | _, _ => s

/-- TAG_RESULT. -/
def execTagResult (ctx : Nat) (pass : Bool) (s : State) : Result := .next (tagResult ctx pass s)
/-- DUP_ENTRY_EXPIRY. -/
def execDupEntryExpiry (pair sa seq : Nat) (s : State) : Result := .next (dupEntryExpiry pair sa seq s)
/-- GOOSE_TAL_EXPIRY. -/
def execGooseTalExpiry (ctx : Nat) (s : State) : Result := .next (gooseTalExpiry ctx s)
/-- SV_LOSS. -/
def execSvLoss (ctx : Nat) (s : State) : Result := .next (svLoss ctx s)
/-- SV_HEALTH_RESTORE. -/
def execSvHealthRestore (ctx : Nat) (s : State) : Result := .next (svHealthRestore ctx s)
/-- ALT_RESTORE. -/
def execAltRestore (ctx : Nat) (s : State) : Result := .next (altRestore ctx s)

end Sys2Proof.Machine
end

