-- ==== Sys2Proof/Machine/Slices.lean ====
section
/-! DEFINITION. The Slice Table at work (R324 to R357): doorbells, tenant flags, transmit descriptors, the states of a slice,
the Slice commands of Patchaif and the SLT's command register. -/
namespace Sys2Proof.Machine

/-! ### The slice page (R332, R334, R344, R347) -/

/-- The address of a slice-page register. -/
def spAddr (page off : Nat) : Nat := sliceBase + page * 0x10000 + off

/-- A write into a slice page that acts as the slice's own: the grant of R29, then the state table of R347. -/
def State.pageWrite (s : State) (m : Master) (page off : Nat) (states : List Nat) (f : State → State) : State :=
  if !s.masterUp m then s
  else if 128 ≤ page then s.busError
  else if !regGrant (s.actor m) (spAddr page off) true then (s.refused (s.actor m) (spAddr page off)).busError
  else if states.contains (s.sliceState page) then { f s with bus := .done }
  else (s.refuse page (spAddr page off)).busError

/-- Whether a new INDEX keeps a ring within its SIZE and does not move backward; the consumer index of an EVENT ring stays
within HEAD (R334). -/
def doorbellOk (kind size : Nat) (g : Ring) (v : Nat) : Bool :=
  let d := fun a b : Nat => (a % 65536 + 65536 - b % 65536) % 65536
  if kind = 3 then decide (d v g.index ≤ d g.head g.index)
  else decide (d v g.head ≤ size) && decide (d g.index g.head ≤ d v g.head)

/-- A doorbell of a slice's local ring (R334). -/
def State.doorbell (s : State) (n k v : Nat) : State :=
  match s.localRing n k with
  | none => s
  | some r =>
    let w := s.sltEnt 2 r
    let g := s.ring r
    let v := v % 65536
    if doorbellOk (rgKind w) (rgSize w) g v then
      let keep := g.deps.filter (fun d => g.live d.1)
      let deps := if (rgKind w = 1 ∨ rgKind w = 2) ∧ v ≠ g.index then keep ++ [(v, s.viewDep n)] else keep
      s.modRing r (fun g => { g with index := v, deps := deps, gone := g.gone.filter g.live })
    else
      let s := (s.modSlice n (fun x => { x with dbErr := satInc 32 x.dbErr })).bump (F.SLT_SP_ERR_DB_ERR.pg n)
      (s.event n 0x0004 k v 0).sliceError n

/-- DOORBELL_WRITE: a write of SP_DB[k] on a slice page. -/
def doorbellWrite (m : Master) (page k value : Nat) (s : State) : State :=
  if 64 ≤ k then s.busError
  else s.pageWrite m page (0x400 + k * 16) [1, 2, 3, 4] (fun s => s.doorbell page k value)

/-- F_WRITE: a write of SP_F[w]. -/
def fWrite (m : Master) (page w value : Nat) (s : State) : State :=
  if 64 ≤ w then s.busError
  else if slFWords (s.sltEnt 0 page) ≤ w ∧ s.sliceState page = 2 ∧ s.masterUp m ∧ regGrant (s.actor m) (spAddr page (0x1000 + w * 8)) true then
    s.busError
  else s.pageWrite m page (0x1000 + w * 8) [2] (fun s =>
    s.fStore page (slFBase (s.sltEnt 0 page) + w) value (s.viewDep page))

/-- FTAG_WRITE: HS-mode and M-mode write the CSR; another PASID flushes the L1 caches. From VS-mode or VU-mode it is a
virtual-instruction exception and nothing is written (R328). -/
def ftagWrite (core : Nat) (hyp valid : Bool) (pasid : Nat) (s : State) : State :=
  if decide (24 ≤ core) || !s.sup.coresUp then s
  else if !hyp then { s with bus := .virtualInstruction }
  else
    let k := Tbl.get ({} : Core) core s.slt.cores
    let p := pasid % 2 ^ 20
    let k' : Core := { valid := valid, pasid := p, flushes := if k.pasid = p then k.flushes else k.flushes + 1 }
    { s with bus := .done, slt := { s.slt with cores := Tbl.set {} core k' s.slt.cores } }

/-- IRQ_MODERATION_END: MOD_US after the interrupt, one more where HEAD advanced within the interval, which opens the next
(R339). -/
def irqModerationEnd (r : Nat) (s : State) : State :=
  let g := s.ring r
  if !g.modRun then s
  else
    let s := s.advanceTo g.modTill
    if g.modAdv then (s.sendIrq r).modRing r (fun g => { g with modAdv := false, modTill := s.now + us (rgModUs (s.sltEnt 2 r)) })
    else s.modRing r (fun g => { g with modRun := false, modTill := 0 })

/-! ### Transmit descriptors (R118, R336, R340, R341) -/

/-- The descriptors of a ring's next frame, read from descriptor `i`, `left` of them posted: none while it is incomplete, else
its STATUS so far and how many descriptors it takes. The first outside the slice's windows ends it with ADDR (R330), inconsistent marks
with FORMAT; a frame with no LAST in eight is cut after eight. -/
def State.txSpan (s : State) (r i : Nat) : Nat → Nat → Nat → Option (Nat × Nat)
  | 0, _, _ => none
  | left + 1, k, fuel + 1 =>
    let a := s.descAddr r (i + k)
    let w := s.rd64 (a + 8)
    if !s.dramOwned (rgSlice (s.sltEnt 2 r)) a 32 then some (1, k + 1)
    else if k = 0 ∧ !bit 62 w then some (3, 1)
    else if k ≠ 0 ∧ bit 62 w then some (3, k)
    else if bit 61 w then some (0, k + 1)
    else if k = 7 then some (3, 8)
    else s.txSpan r i left (k + 1) fuel
  | _, _, 0 => none

/-- What the next frame of a transmit ring is: its first descriptor, its descriptors, its length and the STATUS that stops
it. -/
structure TxNext where
  first : Nat
  n : Nat
  len : Nat
  status : Nat
  deriving DecidableEq, Repr

/-- The next frame of a transmit ring that is not fetched, where it is complete. -/
def State.txNext (s : State) (r : Nat) : Option TxNext :=
  let w := s.sltEnt 2 r
  let g := s.ring r
  let i := g.head + g.fetched
  match s.txSpan r i (g.posted - g.fetched) 0 9 with
  | none => none
  | some (st, n) =>
    let at_ := fun j => (s.rd64 (s.descAddr r (i + j)), s.rd64 (s.descAddr r (i + j) + 8) % 65536)
    let ds := (List.range n).map at_
    let len := sumN (ds.map Prod.snd)
    let sl := rgSlice w
    let status :=
      if (List.range n).any (fun j => g.goneAt (i + j)) then 4
      else if st ≠ 0 then st
      else if ds.any (fun d => d.2 == 0 || decide (2048 < d.2)) || decide (s.get (F.MAC_CTL_MAX_FRAME.pg (rgPort w)) < len) then 2
      else if ds.any (fun d => !s.dramOwned sl d.1 d.2) then 1
      else if ds.any (fun d => s.dramBad d.1 d.2) then 7
      else 0
    some ⟨i, n, if st = 0 then len else 0, status⟩

/-- Whether a transmit ring has a frame waiting for its port (R340). -/
def State.txWaits (s : State) (r : Nat) : Bool :=
  let w := s.sltEnt 2 r
  seValid w && rgKind w == 1 && s.ringState r == 1 && s.sliceState (rgSlice w) == 2 && (s.txNext r).isSome

/-- Whether a slice's in-flight count is below its INFLIGHT (R340). -/
def State.hasCredit (s : State) (n : Nat) : Bool := decide ((s.slice n).inflightNow < slInflight (s.sltEnt 0 n))

/-- The rings with a frame waiting for a port. -/
def State.txRings (s : State) (p : Nat) : List Nat :=
  ((s.sltAll 2).map Prod.fst).filter (fun r => rgPort (s.sltEnt 2 r) == p && s.txWaits r)

/-- The ring of a slice whose turn it is at a port: the next waiting one after the last served, round robin (R340). -/
def State.txTurn (s : State) (p n : Nat) (rs : List Nat) : Option Nat :=
  let own := rs.filter (fun r => rgSlice (s.sltEnt 2 r) == n)
  let last := Tbl.get 0 p (s.slice n).lastRing
  match own.find? (fun r => decide (last < r + 1)) with
  | some r => some r
  | none => own.head?

/-- The deficit of a slice at a port (R341). -/
def State.txDeficit (s : State) (p n : Nat) : Nat := Tbl.get 0 p (s.slice n).deficit

/-- Rounds of R341 until a waiting slice with credit can be served. -/
def State.txRounds (s : State) (p : Nat) (rs ns : List Nat) : Nat → State
  | 0 => s
  | k + 1 =>
    let fits := ns.any (fun n => s.hasCredit n && match s.txTurn p n rs with
      | some r => (match s.txNext r with | some f => decide (f.len ≤ s.txDeficit p n) | none => false)
      | none => false)
    if fits then s
    else
      (ns.foldl (fun s n => s.modSlice n (fun x => { x with
        deficit := Tbl.set 0 p (Tbl.get 0 p x.deficit + slTxWeight (s.sltEnt 0 n) * 256) x.deficit })) s).txRounds p rs ns k

/-- A number from octets, the first highest. -/
def octetsBe (o : Octets) : Nat := o.foldl (fun a b => a * 256 + b.toNat) 0

/-- A frame from the octets of a ring's buffers (R102). -/
def frameOf (len : Nat) (o : Octets) : Frame :=
  let u16 := fun a => octetsBe ((o.drop a).take 2)
  let tagged := u16 12 == 0x8100
  { da := octetsBe (o.take 6), sa := octetsBe ((o.drop 6).take 6)
    vlan := if tagged then some ⟨u16 14 / 8192, u16 14 / 4096 % 2 == 1, u16 14 % 4096⟩ else none
    doubleTag := tagged && u16 16 == 0x8100
    etype := if tagged then u16 16 else u16 12
    len := max 64 len, red := none, body := .plain, raw := o }

/-- A frame of a ring is fetched whole: a bad one ends with its STATUS, one whose instant was refuted is discarded, a good one goes to
class 3 of its port (R39, R118, R330, R337). -/
def State.txFetch (s : State) (r : Nat) (f : TxNext) : State :=
  let w := s.sltEnt 2 r
  let n := rgSlice w
  let p := rgPort w
  let deps := ((List.range f.n).flatMap (fun j => (s.ring r).depOf (f.first + j))).eraseDups
  let octets := (List.range f.n).flatMap (fun j =>
    let a := s.descAddr r (f.first + j)
    memTake s.mem (s.rd64 (a + 8) % 65536) (s.rd64 a))
  let tsReq := bit 60 (s.rd64 (s.descAddr r (f.first + f.n - 1) + 8))
  let s := s.modSlice n (fun x => { x with inflightNow := x.inflightNow + f.n, lastRing := Tbl.set 0 p (r + 1) x.lastRing })
  let s := s.modRing r (fun g => { g with fetched := g.fetched + f.n })
  let gen := (s.slice n).gen
  let first := f.first % 65536
  if f.status = 0 then
    s.txPair p { src := .ring n r gen first f.n tsReq, frame := frameOf f.len octets, cls := 3, dep := deps }
  else
    let s := if f.status = 2 ∧ s.get (F.MAC_CTL_MAX_FRAME.pg p) < f.len then s.macBump p 21
      else if f.status = 4 then (s.macBump p 24).frameWithdrawn n r first else s
    s.txComplete n r gen first f.n f.status 0 none

/-- At a port, slices with nothing waiting keep no deficit (R341). -/
def State.dropDeficits (s : State) (p : Nat) : State :=
  let ns := ((s.txRings p).map (fun r => rgSlice (s.sltEnt 2 r))).eraseDups
  ((List.range 128).filter (fun k => !ns.contains k && Tbl.get 0 p (s.slice k).deficit != 0)).foldl
    (fun s k => s.modSlice k (fun x => { x with deficit := Tbl.set 0 p 0 x.deficit })) s

/-- TX_DESCRIPTOR_FETCH: the next frame of a ring is fetched where credit, its turn in the slice and, with several slices
waiting for the port, its slice's deficit allow (R340, R341). -/
def txDescriptorFetch (r : Nat) (s : State) : State :=
  let w := s.sltEnt 2 r
  let n := rgSlice w
  let p := rgPort w
  match s.txNext r with
  | none => s
  | some f =>
    let rs := s.txRings p
    if !s.txWaits r || !s.hasCredit n || s.txTurn p n rs != some r then s
    else
      let ns := ((rs.map (fun r => rgSlice (s.sltEnt 2 r))).eraseDups)
      let s0 := s.dropDeficits p
      if ns.length ≤ 1 then (s0.txFetch r f).dropDeficits p
      else
        let s1 := s0.txRounds p rs ns 2049
        if s1.txDeficit p n < f.len then s
        else ((s1.modSlice n (fun x => { x with
          deficit := Tbl.set 0 p (Tbl.get 0 p x.deficit - f.len) x.deficit })).txFetch r f).dropDeficits p

/-- Whether the head descriptor of a ring waits for its dependency (R119, R282). -/
def State.ringHeld (s : State) (r : Nat) : Bool :=
  let g := s.ring r
  if rgKind (s.sltEnt 2 r) = 2 then g.held
  else s.mac.any (fun p => p.2.q.any (fun f => match f.src with
    | .ring _ r' _ first _ _ => !f.rel && r' == r && first == g.head % 65536
    | _ => false))

/-! ### The states of a slice (R347 to R350) -/

/-- Whether a frame waiting at a MAC is a slice's. -/
def TxFrame.ofSlice (n : Nat) (f : TxFrame) : Bool :=
  match f.src with
  | .ring sl _ _ _ _ _ => sl == n
  | _ => false

/-- One item of work abandoned or discarded (R349). -/
def State.abandonOne (s : State) (n : Nat) : State :=
  (s.modSlice n (fun x => { x with abandoned := satInc 32 x.abandoned })).bump (F.SLT_CNT_COUNT.nth 2)

/-- Work of a slice that has not started leaves the engines, each item counted; at the quiesce limit it completes with
ABANDONED, at a reset its generation is old (R349). -/
def State.abandon (s : State) (n : Nat) : State :=
  let mine := fun f : TxFrame => f.ofSlice n
  let tx := s.mac.flatMap (fun p => (p.2.q ++ p.2.txDelay.map (·.2)).filter mine)
  let rxMine := fun g : Staged => rgSlice (s.sltEnt 2 g.ring) == n
  let rx := s.mac.flatMap (fun p => p.2.staging.filter rxMine)
  let pubs := s.pub.held.filter (fun h => h.slice == n)
  let s := (s.ringsOf n).foldl (fun s r => s.modRing r (fun g => { g with claimed := 0 })) s
  let s : State := { s with
    mac := s.mac.map (fun p => (p.1, { p.2 with
      q := p.2.q.filter (fun f => !mine f), txDelay := p.2.txDelay.filter (fun f => !mine f.2)
      staging := p.2.staging.filter (fun g => !rxMine g) }))
    pub := { s.pub with held := s.pub.held.filter (fun h => !(h.slice == n)) } }
  let frames := tx.foldl (fun l f => if l.any (fun g : TxFrame => decide (g.src = f.src)) then l else l ++ [f]) []
  let s := rx.foldl (fun s _ => s.abandonOne n) s
  let s := frames.foldl (fun s f => (s.abandonOne n).txFail f 6) s
  pubs.foldl (fun s h => (s.abandonOne n).txComplete h.slice h.ring h.gen h.desc 1 6 0 (some 0)) s

/-- The state with a slice in another state, its event written (R338, R348). -/
def State.toSliceState (s : State) (n st cause : Nat) : State :=
  (s.modSlice n (fun x => { x with state := st })).stateEvent n st cause

/-- QUIESCE_DRAINED: no work of a QUIESCING slice is in flight, and no claim of a received frame outstanding. -/
def quiesceDrained (n : Nat) (s : State) : State :=
  if s.sliceState n = 3 ∧ (s.slice n).inflightNow = 0 ∧ (s.ringsOf n).all (fun r => (s.ring r).claimed == 0) then s.toSliceState n 4 2 else s

/-- QUIESCE_LIMIT: 50 ms after SLICE_QUIESCE the remaining work is abandoned. -/
def quiesceLimit (n : Nat) (s : State) : State :=
  if s.sliceState n = 3 then
    ((s.advanceTo ((s.slice n).quiesceAt + ms 50)).abandon n).toSliceState n 4 3
  else s

/-- A mode asked for of a slot, from the next cycle of its class (R262). -/
def State.modeReq (s : State) (k mode : Nat) (clear : Bool) : State :=
  let w := s.slpEnt 0 k
  if (s.progAt k (s.nextCycle (soClass w))).2 = 0 then s
  else { s with slp := { s.slp with
    reqs := Tbl.mod [] k (fun l => l ++ [(⟨s.nextCycle (soClass w), mode, clear⟩ : ModeReq)]) s.slp.reqs } }

/-- The cycle start at which the images see the F range of a slice cleared: the next one of its slot's class, none to wait for where
no cycle of the slot comes (R350). -/
def State.fClearAt (s : State) (n : Nat) : Option FStart :=
  let c := soClass (s.slpEnt 0 (1 + n))
  let w := s.clsEnt c
  let inst := clInst w
  if s.slpOn && clValid w && (s.progAt (1 + n) (s.nextCycle c)).2 != 0 && (!inst || (s.lattice (clLat w)).running) then
    some ⟨c, if inst then some (clLat w) else none, s.nextCycle c, false⟩
  else none

/-- What SLICE_CREATE and SLICE_RESET leave of a slice: rings DISABLED with indices 0, F range 0, slot in STOP with its state
at the start values (R348, R350). -/
def State.sliceFresh (s : State) (n : Nat) : State :=
  let s := (s.ringsOf n).foldl (fun s r => s.modRing r (fun g => { placed := g.placed })) s
  let s : State := { s with slp := { s.slp with fPend := s.slp.fPend.filter (fun p => !(p.slice == n)) } }
  ((s.fClear n (s.fClearAt n)).modeReq (1 + n) 0 true).modSlice n (fun x => { x with inflightNow := 0, deficit := [], lastRing := [] })

/-- The mailbox of a reset slice: its queued replies and request area go; replies to commands taken are not delivered
(R441). -/
def State.mailboxReset (s : State) (n : Nat) : State :=
  let s := ({ s with mem := memClear (mbxBase n + 0x100) (mbxBase n + 0x4000) s.mem }).undeliver n
  ((s.modSess n (fun x => { x with tags := [], replies := [] })).setF (F.TMC_MBX_STATUS_REQ_BUSY.pg n) 0).setF
    (F.TMC_MBX_STATUS_QUEUED.pg n) 0

/-- The running SLICE_QUIESCE of a slice ends with the aborted status (R348). -/
def State.quiesceAbort (s : State) (n : Nat) : State :=
  match s.tmc.jobs.find? (fun j => j.op == 0x0205 && j.obj == n) with
  | some j => s.complete j stAborted (detail 0x03 0 n)
  | none => s

/-- SLICE_RESET's effect: GEN, the work in flight, the slice as created; the command of a QUIESCING slice aborted. -/
def State.sliceReset (s : State) (n st : Nat) : State :=
  let s := if s.sliceState n = 3 then s.quiesceAbort n else s
  let s := (s.modSlice n (fun x => { x with gen := (x.gen + 1) % 256 })).abandon n
  let s := (s.ringPubs n false).statusBit n false
  ((s.sliceFresh n).mailboxReset n).toSliceState n st 0

/-- SLICE_REMOVE's effect: reset, then bindings, windows and credits return to the pool (R348). -/
def State.sliceRemove (s : State) (n : Nat) : State :=
  let s := s.sliceReset n 0
  let gone := fun (t : Nat) (s : State) =>
    (s.sltAll t).foldl (fun s p => if seValid p.2 && seSlice p.2 == n then s.setSltEnt t p.1 [] else s) s
  let s := gone 3 (gone 1 s)
  let s := (s.ringsOf n).foldl (fun s r =>
    (s.modRing r (fun _ => {})).setSltEnt 2 r (listSet 0 1 0 (s.sltEnt 2 r))) s
  let w := s.sltEnt 0 n
  s.setSltEnt 0 n [putBits 15 0 0 (putBits 50 46 0 (word w 0)), 0, word w 2]

/-- A free index of an SLT table. -/
def State.sltFree (s : State) (t size : Nat) : Option Nat :=
  (List.range size).find? (fun i => !seValid (s.sltEnt t i))

/-- A PASID bound to a slice in a free entry. -/
def State.bindPasid (s : State) (n pasid : Nat) : State :=
  match s.sltFree 1 4096 with
  | some i => s.setSltEnt 1 i [2 ^ 63 + place 62 56 n + place 19 0 pasid]
  | none => s

/-- A DRAM window of a slice in a free entry; base and size in units of 2 MiB. -/
def State.bindWindow (s : State) (n : Nat) (b : Nat × Nat) : State :=
  match s.sltFree 3 1024 with
  | some i => s.setSltEnt 3 i [2 ^ 63 + place 62 56 n + place 46 32 b.1 + place 30 16 b.2]
  | none => s

/-- Whether a DRAM window lies in DRAM and meets no window of another tenant slice (R331). -/
def State.windowOk (s : State) (n : Nat) (b : Nat × Nat) : Bool :=
  decide ((b.1 + b.2) * 0x200000 ≤ dramEnd) && !(s.sltAll 3).any (fun p => seValid p.2 && seSlice p.2 != n && seSlice p.2 != 0
    && decide (dwLo p.2 < (b.1 + b.2) * 0x200000) && decide (b.1 * 0x200000 < dwHi p.2))

/-! ### The Slice commands (R355) -/

/-- Whether the octets of SLICE_CREATE lie in their fields' ranges. -/
def SliceParams.ok (p : SliceParams) : Bool :=
  decide (1 ≤ p.slice) && decide (p.slice ≤ 127) && decide (1 ≤ p.pasids.length) && decide (p.pasids.length ≤ 32)
    && p.pasids.all (fun x => decide (x < 2 ^ 20)) && decide (1 ≤ p.windows.length) && decide (p.windows.length ≤ 8)
    && p.windows.all (fun b => decide (1 ≤ b.2) && decide (b.2 < 32768) && decide (b.1 < 32768))
    && decide (1 ≤ p.inflight) && decide (p.inflight ≤ 16384) && decide (1 ≤ p.weight) && decide (p.weight ≤ 255)
    && decide (p.cores < 2 ^ 24) && decide (p.errLimit < 65536) && decide (p.irqCore < 24) && decide (p.irqFile < 64)

/-- SLICE_CREATE. -/
def sliceCreateAct (p : SliceParams) (s : State) : Ans × State :=
  let n := p.slice
  let w := s.sltEnt 0 n
  if !SliceParams.ok p then (.fail stBadParam 0x03 1 n, s)
  else if s.sliceState n != 0 then (.fail stWrongState 0x03 0 n, s)
  else if !slProfile w || p.pasids.any (fun x => (s.boundSlice x).isSome) || !decide p.pasids.Nodup
      || p.windows.any (fun b => !s.windowOk n b) then (.fail stConsistency 0x03 5 n, s)
  else if s.pasidFree < p.pasids.length ∨ s.dwinFree < p.windows.length ∨ s.creditFree < p.inflight then
    (.fail stNoResources 0x03 0 n, s)
  else
    let w1 := place 63 40 p.cores + place 39 24 p.inflight + place 23 16 p.weight + place 15 11 p.irqCore + place 10 5 p.irqFile
    let s := s.setSltEnt 0 n [putBits 15 0 p.errLimit (word w 0), w1, word w 2]
    let s := p.windows.foldl (fun s b => s.bindWindow n b) (p.pasids.foldl (fun s x => s.bindPasid n x) s)
    (.done [], (s.sliceFresh n).toSliceState n 1 0)

/-- SLICE_RING. -/
def sliceRingAct (n k base : Nat) (s : State) : Ans × State :=
  if 128 ≤ n then (.fail stBadParam 0x03 1 n, s)
  else match s.localRing n k with
    | none => (.fail stBadParam 0x03 1 k, s)
    | some r =>
      if s.sliceState n != 1 && s.sliceState n != 4 then (.fail stWrongState 0x03 0 n, s)
      else if base % 4096 != 0 then (.fail stBadParam 0x03 1 r, s)
      else if !s.dramOwned n base (rgSize (s.sltEnt 2 r) * 32) then (.fail stConsistency 0x03 5 r, s)
      else (.done [], (s.setSltEnt 2 r (listSet 0 1 base (s.sltEnt 2 r))).modRing r (fun g => { g with placed := true }))

/-- SLICE_BIND. -/
def sliceBindAct (n : Nat) (add : Bool) (pasid : Nat) (s : State) : Ans × State :=
  let own := (s.sltAll 1).filter (fun p => seValid p.2 && seSlice p.2 == n)
  if 128 ≤ n ∨ 2 ^ 20 ≤ pasid then (.fail stBadParam 0x03 1 n, s)
  else if s.sliceState n = 0 then (.fail stWrongState 0x03 0 n, s)
  else if s.sliceState n = 3 then (.fail stBusy 0x03 0 n, s)
  else if add then
    if (s.boundSlice pasid).isSome then (.fail stConsistency 0x03 5 pasid, s)
    else if 32 ≤ own.length ∨ s.pasidFree = 0 then (.fail stNoResources 0x03 0 n, s)
    else (.done [], s.bindPasid n pasid)
  else match own.find? (fun p => bdPasid p.2 == pasid) with
    | none => (.fail stBadParam 0x03 1 pasid, s)
    | some p => if own.length ≤ 1 ∧ n ≠ 0 then (.fail stConsistency 0x03 5 pasid, s) else (.done [], s.setSltEnt 1 p.1 [])

/-- SLICE_START. -/
def sliceStartAct (n : Nat) (s : State) : Ans × State :=
  let st := s.sliceState n
  if 128 ≤ n then (.fail stBadParam 0x03 1 n, s)
  else if n ≠ 0 ∧ st = 1 ∧ (s.ringsOf n).all (fun r => (s.ring r).placed) then
    let s := ((s.ringsTo n 1).ringPubs n true).modeReq (1 + n) (soInit (s.slpEnt 0 (1 + n))) false
    (.done [], (s.statusBit n true).toSliceState n 2 0)
  else if n ≠ 0 ∧ st = 4 then (.done [], ((s.ringsTo n 1).statusBit n true).toSliceState n 2 0)
  else (.fail stWrongState 0x03 0 n, s)

/-- SLICE_QUIESCE. -/
def sliceQuiesceAct (n : Nat) (s : State) : Ans × State :=
  if 128 ≤ n then (.fail stBadParam 0x03 1 n, s)
  else if n = 0 ∨ s.sliceState n ≠ 2 then (.fail stWrongState 0x03 0 n, s)
  else
    let s := ((s.ringsTo n 2).statusBit n false).modSlice n (fun x => { x with quiesceAt := s.now })
    (.accepted n [], s.toSliceState n 3 0)

/-- SLICE_RESET and SLICE_REMOVE. -/
def sliceResetAct (n : Nat) (remove : Bool) (s : State) : Ans × State :=
  if 128 ≤ n then (.fail stBadParam 0x03 1 n, s)
  else if n = 0 ∨ s.sliceState n = 0 then (.fail stWrongState 0x03 0 n, s)
  else (.done [], if remove then s.sliceRemove n else s.sliceReset n 1)

/-- SLICE_FAULT. -/
def sliceFaultAct (n : Nat) (s : State) : Ans × State :=
  let st := s.sliceState n
  if 128 ≤ n then (.fail stBadParam 0x03 1 n, s)
  else if n ≠ 0 ∧ (st = 2 ∨ st = 3 ∨ st = 4) then (.done [], s.sliceToFaulted n 0)
  else (.fail stWrongState 0x03 0 n, s)

/-- SLICE_SHARE. -/
def sliceShareAct (n inflight weight : Nat) (s : State) : Ans × State :=
  let w := s.sltEnt 0 n
  if 128 ≤ n ∨ inflight = 0 ∨ 16384 < inflight ∨ weight = 0 ∨ 255 < weight then (.fail stBadParam 0x03 1 n, s)
  else if s.sliceState n = 0 then (.fail stWrongState 0x03 0 n, s)
  else if s.sliceState n = 3 then (.fail stBusy 0x03 0 n, s)
  else if slInflight w < inflight ∧ s.creditFree < max inflight (s.slice n).inflightNow - s.charge n then
    (.fail stNoResources 0x03 0 n, s)
  else (.done [], s.setSltEnt 0 n (listSet 0 1 (putBits 39 24 inflight (putBits 23 16 weight (word w 1))) w))

/-- SLICE_PV. -/
def slicePvAct (n : Nat) (en : Bool) (lats : Nat) (s : State) : Ans × State :=
  let w := s.sltEnt 0 n
  if 128 ≤ n ∨ 16 ≤ lats then (.fail stBadParam 0x03 1 n, s)
  else if s.sliceState n = 0 then (.fail stWrongState 0x03 0 n, s)
  else if s.sliceState n = 3 then (.fail stBusy 0x03 0 n, s)
  else if !slPvAllow w then (.fail stConsistency 0x03 5 n, s)
  else (.done [], s.setSltEnt 0 n (listSet 0 0 (putBits 50 50 (b2n en) (putBits 49 46 lats (word w 0))) w))

/-- The words of an SLT entry as READ returns them, with the live fields in place (R353). -/
def State.sltView (s : State) (t i : Nat) : List Nat :=
  let w := s.sltEnt t i
  if t = 0 then listSet 0 0 (putBits 63 61 (s.sliceState i) (putBits 60 53 (s.slice i).gen (word w 0))) w
  else if t = 2 then
    let g := s.ring i
    [word w 0, word w 1, place 63 48 g.head + place 47 32 g.index
      + place 31 29 (s.ringState i) + place 28 28 (b2n (s.ringHeld i))]
  else w

/-- The four words of STAT (R354). -/
def State.sliceStat (s : State) (n : Nat) : List Nat :=
  let x := s.slice n
  [place 63 48 x.inflightNow + place 47 32 (s.charge n) + place 31 0 x.refused,
   place 63 32 x.dbErr + place 31 0 x.descErr, place 63 32 x.withdrawn + place 31 0 x.abandoned,
   place 63 32 x.evtLost + place 31 0 x.rxNobuf]

/-- The counters of STAT back at zero. -/
def State.sliceStatClear (s : State) (n : Nat) : State :=
  s.modSlice n (fun x => { x with
    refused := 0, dbErr := 0, descErr := 0, withdrawn := 0, abandoned := 0, evtLost := 0, rxNobuf := 0 })

/-- SLICE_STATUS. -/
def sliceStatusAct (clear : Bool) (n : Nat) (s : State) : Ans × State :=
  if 128 ≤ n then (.fail stBadParam 0x03 1 n, s)
  else
    let v := s.sltView 0 n
    let o := wordsOctets ([word v 0, word v 1, word v 2] ++ s.sliceStat n)
    (.done o, if clear then s.sliceStatClear n else s)

/-! ### The SLT's command register (R353, R354, R500) -/

/-- Entries of an SLT table. -/
def sltSize : Nat → Nat
  | 0 => 128 | 1 => 4096 | 2 => 1024 | 3 => 1024 | 4 => 1024 | 5 => 1024 | _ => 0

/-- Whether the values of an SLT entry lie in the ranges of R353. -/
def sltOk (t : Nat) (w : List Nat) : Bool :=
  match t with
  | 0 => decide (slFBase w + slFWords w ≤ 512) && decide (slFWords w ≤ 64)
  | 2 => !seValid w || (decide (4 ≤ wbits w 0 43 40) && decide (wbits w 0 43 40 ≤ 12)
      && (rgKind w != 0 || (decide (1 ≤ wbits w 0 39 36) && decide (wbits w 0 39 36 ≤ 8)))
      && (rgKind w != 1 || decide (rgPort w ≤ 7) || rgPort w == 10) && rgBase w % 4096 == 0)
  | 3 => !seValid w || (decide (dwLo w < dwHi w) && decide (dwHi w ≤ dramEnd))
  | _ => true

/-- The words that WRITE stores: read-only fields stay as they are, and after the commit the fields that a profile fixes and what is
drawn from the pool, which only the commands of R355 write: PASID bindings, DRAM windows, word 1 of a slice, BASE of a ring
(R353; DEDUCED, log 141). -/
def State.sltMerge (s : State) (t i : Nat) (d : List Nat) : List Nat :=
  let o := s.sltEnt t i
  let w0 := word d 0
  match t with
  | 0 =>
    let w0 := putBits 63 52 (wbits o 0 63 52) w0
    if s.tmc.locked then
      [putBits 51 51 (b2n (slPvAllow o)) (putBits 45 43 (wbits o 0 45 43) (putBits 31 16 (wbits o 0 31 16) w0)), word o 1, word o 2]
    else [w0, word d 1, word d 2]
  | 2 => if s.tmc.locked then [word o 0, word o 1] else [w0, word d 1]
  | _ => if s.tmc.locked then o else [w0]

/-- SLT_WRITE. -/
def sltWriteAct (t i : Nat) (s : State) : Nat × Option (List Nat) × State :=
  if sltSize t ≤ i then (1, none, s)
  else
    let w := s.sltMerge t i (s.dataWords .slt)
    if !sltOk t w then (5, none, s) else (0, none, s.setSltEnt t i w)

/-- SLT_READ. -/
def sltReadAct (t i : Nat) (s : State) : Nat × Option (List Nat) × State :=
  if sltSize t ≤ i then (1, none, s) else (0, some (s.sltView t i), s)

/-- SLT_STAT. -/
def sltStatAct (i : Nat) (clr : Bool) (s : State) : Nat × Option (List Nat) × State :=
  if 128 ≤ i then (1, none, s) else (0, some (s.sliceStat i), if clr then s.sliceStatClear i else s)

/-- The fields of SLT.CMD written beside OP. -/
def sltFields (t i : Nat) (clr : Bool) : List (Field × Nat) :=
  [(F.SLT_CMD_TABLE, t), (F.SLT_CMD_INDEX, i), (F.SLT_CMD_CLR, b2n clr)]

/-! ### The meanings -/

/-- TX_DESCRIPTOR_FETCH. -/
def execTxDescriptorFetch (ring : Nat) (s : State) : Result := .next (txDescriptorFetch ring s)
/-- DOORBELL_WRITE. -/
def execDoorbellWrite (m : Master) (page k value : Nat) (s : State) : Result := .next (doorbellWrite m page k value s)
/-- F_WRITE. -/
def execFWrite (m : Master) (page w value : Nat) (s : State) : Result := .next (fWrite m page w value s)
/-- FTAG_WRITE. -/
def execFtagWrite (core : Nat) (hyp : Bool) (valid : Bool) (pasid : Nat) (s : State) : Result := .next (ftagWrite core hyp valid pasid s)
/-- IRQ_MODERATION_END. -/
def execIrqModerationEnd (ring : Nat) (s : State) : Result := .next (irqModerationEnd ring s)
/-- QUIESCE_DRAINED. -/
def execQuiesceDrained (slice : Nat) (s : State) : Result := .next (quiesceDrained slice s)
/-- QUIESCE_LIMIT. -/
def execQuiesceLimit (slice : Nat) (s : State) : Result := .next (quiesceLimit slice s)
/-- SLICE_CREATE. -/
def execSliceCreate (q : Req) (p : SliceParams) (s : State) : Result := s.patchaif q 0x0201 (sliceOctets p) false false (sliceCreateAct p)
/-- SLICE_RING. -/
def execSliceRing (q : Req) (slice loc base : Nat) (s : State) : Result :=
  s.patchaif q 0x0202 (le 4 slice ++ le 4 loc ++ le 8 base) false false (sliceRingAct slice loc base)
/-- SLICE_BIND. -/
def execSliceBind (q : Req) (slice : Nat) (add : Bool) (pasid : Nat) (s : State) : Result :=
  s.patchaif q 0x0203 (le 4 slice ++ flagOctets add ++ le 4 pasid) false false (sliceBindAct slice add pasid)
/-- SLICE_START. -/
def execSliceStart (q : Req) (slice : Nat) (s : State) : Result := s.patchaif q 0x0204 (le 4 slice) false false (sliceStartAct slice)
/-- SLICE_QUIESCE. -/
def execSliceQuiesce (q : Req) (slice : Nat) (s : State) : Result := s.patchaif q 0x0205 (le 4 slice) true false (sliceQuiesceAct slice)
/-- SLICE_RESET. -/
def execSliceReset (q : Req) (slice : Nat) (s : State) : Result := s.patchaif q 0x0206 (le 4 slice) false false (sliceResetAct slice false)
/-- SLICE_REMOVE. -/
def execSliceRemove (q : Req) (slice : Nat) (s : State) : Result := s.patchaif q 0x0207 (le 4 slice) false false (sliceResetAct slice true)
/-- SLICE_FAULT. -/
def execSliceFault (q : Req) (slice : Nat) (s : State) : Result := s.patchaif q 0x0208 (le 4 slice) false false (sliceFaultAct slice)
/-- SLICE_SHARE. -/
def execSliceShare (q : Req) (slice inflight weight : Nat) (s : State) : Result :=
  s.patchaif q 0x0209 (le 4 slice ++ le 2 inflight ++ le 1 weight) false false (sliceShareAct slice inflight weight)
/-- SLICE_PV. -/
def execSlicePv (q : Req) (slice : Nat) (en : Bool) (lats : Nat) (s : State) : Result :=
  s.patchaif q 0x020A (le 4 slice ++ flagOctets en ++ le 1 lats) false false (slicePvAct slice en lats)
/-- SLICE_STATUS: a tenant has it for itself (R356). -/
def execSliceStatus (q : Req) (clear : Bool) (slice : Nat) (s : State) : Result :=
  s.patchaif q 0x020B (flagOctets clear ++ le 4 slice) false (slice == sessSlice q.sess) (sliceStatusAct clear slice)
/-- SLT_WRITE. -/
def execSltWrite (m : Master) (table index : Nat) (s : State) : Result :=
  s.cmdRun m .slt (sltFields table index false) true (sltWriteAct table index)
/-- SLT_READ. -/
def execSltRead (m : Master) (table index : Nat) (s : State) : Result :=
  s.cmdRun m .slt (sltFields table index false) false (sltReadAct table index)
/-- SLT_STAT. -/
def execSltStat (m : Master) (index : Nat) (clr : Bool) (s : State) : Result :=
  s.cmdRun m .slt (sltFields 0 index clr) false (sltStatAct index clr)

end Sys2Proof.Machine
end

