-- ==== Sys2Proof/Machine/Streams.lean ====
section
/-! DEFINITION. Changes of the Stream Context Table: the checks of R132 to R145, the operations of SCT.CMD (R133 to R135, R151,
R154, R155) and the Stream commands of Patchaif (R152 to R154). -/
namespace Sys2Proof.Machine

/-! ### Checks -/

/-- Whether two runs of indices, given as start and length, meet. -/
def runsMeet (a b : Nat × Nat) : Bool := a.2 != 0 && b.2 != 0 && decide (a.1 < b.1 + b.2) && decide (b.1 < a.1 + a.2)

/-- Whether every field of a context has a meaning (R134, R140, R148). -/
def ctxValueOk (w : List Nat) : Bool :=
  decide (cxAuth w ≤ 5) && decide (1 ≤ cxIdLen w) && decide (cxIdLen w ≤ 129) && decide (cxMapBase w + cxMapLen w ≤ 32768)
    && (cxStatI w == 0xFFFF || decide (cxStatI w + 4 ≤ 65536))
    && (if cxGoose w then decide (1 ≤ cxNPrim w)
        else decide (cxRateCode w ≤ 4) && decide (1 ≤ cxNoAsdu w) && decide (cxNoAsdu w ≤ 8)
          && decide (1 ≤ cxNChan w) && decide (cxNChan w ≤ 32))

/-- Whether the reserved bits of a context's words are 0 (R134, R447). -/
def ctxReservedOk (w : List Nat) : Bool :=
  wbits w 0 9 0 == 0 && wbits w 1 55 48 == 0 && wbits w 3 59 56 == 0 && wbits w 3 31 0 == 0
    && (if cxGoose w then wbits w 4 38 15 == 0 else wbits w 4 29 15 == 0) && wbits w 5 31 0 == 0

/-- The bits of operand space I that a context's members take, and its status bits, as runs (R148, R150). -/
def State.cxRuns (s : State) (w : List Nat) : List (Nat × Nat) :=
  if cxGoose w then ((s.cxMap w).filter mpValid).map (fun m => (mpI m, mpWidth m)) else []
/-- The status bits of a context as runs. -/
def cxStatRuns (w : List Nat) : List (Nat × Nat) := if cxStatI w = 0xFFFF then [] else [(cxStatI w, 4)]

/-- The contexts in use beside `c`, with their indices. -/
def State.others (s : State) (c : Nat) : List (Nat × Ctx) :=
  s.ing.ctx.filter (fun p => p.1 != c && cxValid p.2.words && p.2.health != hFree && p.2.health != hRetiring)

/-- The lattice channels that an SV context names, with MEAS. -/
def State.cxChans (s : State) (w : List Nat) : List (Nat × Nat × Bool) :=
  if cxGoose w then [] else ((s.cxMap w).filter mpValid).map (fun m => (mpLat m, mpChan m, mpVolt m))

/-- Lists with the same members. -/
def sameSet {α : Type} [BEq α] (a b : List α) : Bool := a.all (fun x => b.contains x) && b.all (fun x => a.contains x)

/-- R132 and the port rule of R134: pairs whole, no second context with the same match, at most eight with one KIND, DA and
APPID, frames within MAX_FRAME. -/
def State.ctxMatchOk (s : State) (c : Nat) (w : List Nat) : Bool :=
  let os := s.others c
  let key := fun v : List Nat => [b2n (cxGoose v), cxDa v, cxAppid v]
  let full := fun v : List Nat => key v ++ [b2n (cxVidEn v), cxVid v, cxIdLen v, cxIdCrc v]
  (List.range 4).all (fun k => s.redun (2 * k) == 0 || bit (2 * k) (cxPorts w) == bit (2 * k + 1) (cxPorts w))
    && os.all (fun p => full p.2.words != full w || cxPorts p.2.words &&& cxPorts w == 0)
    && decide ((os.filter (fun p => key p.2.words == key w)).length ≤ 7)
    && (cxGoose w || (List.range 8).all (fun p => !bit p (cxPorts w)
      || decide (cxNoAsdu w * cxNChan w * 8 ≤ s.get (F.MAC_CTL_MAX_FRAME.pg p))))

/-- The map rules of R134 and R135: own map range, own bits of I, lattice channels that run and that no other context feeds but
an alternate or its primary. -/
def State.ctxMapOk (s : State) (c : Nat) (w : List Nat) : Bool :=
  let os := s.others c
  let bits_ := s.cxRuns w ++ cxStatRuns w
  let qbc := (s.get F.QBC_MAP_IN_BASE, 256)
  let related := fun p : Nat × Ctx => (cxAltEn w && cxAltIdx w == p.1) || (cxAltEn p.2.words && !cxGoose p.2.words && cxAltIdx p.2.words == c)
  os.all (fun p => !runsMeet (cxMapBase w, cxMapLen w) (cxMapBase p.2.words, cxMapLen p.2.words))
    && bits_.all (fun r => decide (r.1 + r.2 ≤ 65536) && !runsMeet r qbc
      && os.all (fun p => (s.cxRuns p.2.words ++ cxStatRuns p.2.words).all (fun q => !runsMeet r q)))
    && (s.cxRuns w).all (fun r => (cxStatRuns w).all (fun q => !runsMeet r q))
    && (s.cxChans w).all (fun m => s.flag (F.SLE_LAT_CFG_EN.nth m.1) && decide (s.chBase m.1 ≤ m.2.1)
      && decide (m.2.1 < s.chBase m.1 + s.chCount m.1)
      && os.all (fun p => related p || (s.cxChans p.2.words).all (fun x => !(x.1 == m.1 && x.2.1 == m.2.1))))

/-- The alternates of R145: an alternate names none itself, serves one primary, is of KIND SV and names the same lattice
channels. -/
def State.ctxAltOk (s : State) (c : Nat) (w : List Nat) : Bool :=
  let os := s.others c
  let prims := os.filter (fun p => cxAltEn p.2.words && !cxGoose p.2.words && cxAltIdx p.2.words == c)
  let asAlt := prims.isEmpty || (!cxGoose w && !cxAltEn w && decide (prims.length ≤ 1)
    && prims.all (fun p => sameSet (s.cxChans p.2.words) (s.cxChans w)))
  let asPrim := cxGoose w || !cxAltEn w ||
    match os.find? (fun p => p.1 == cxAltIdx w) with
    | none => false
    | some a => !cxGoose a.2.words && !cxAltEn a.2.words && sameSet (s.cxChans a.2.words) (s.cxChans w)
        && os.all (fun p => !(cxAltEn p.2.words && !cxGoose p.2.words && cxAltIdx p.2.words == cxAltIdx w))
  asAlt && asPrim

/-- R167 for one lattice that a context feeds: FIXED_DELAY and the look-ahead of R165 within ALIGN_DELAY and DEADLINE; the look-ahead
is 0 for a stream of the lattice's RATE without FORCE_TS. -/
def State.ctxOnTime (s : State) (w : List Nat) (l : Nat) : Bool :=
  let room := s.get (F.SLE_LAT_TIME_ALIGN_DELAY.nth l) + s.get (F.SLE_LAT_TIME_DEADLINE.nth l)
  let fs := rateHz (cxRateCode w)
  let ahead := if cxRateCode w = s.get (F.SLE_LAT_CFG_RATE.nth l) ∧ !cxForceTs w then 0 else filterTaps fs (s.latRate l)
  decide (cxFixedDelay w ≤ room) && decide (ahead * 1000000 ≤ 2 * fs * (room - cxFixedDelay w))

/-- R167 for every lattice that a context feeds. -/
def State.ctxTimely (s : State) (w : List Nat) : Bool := (s.cxChans w).all (fun m => s.ctxOnTime w m.1)

/-- Every check on a context beside those in use. -/
def State.ctxOk (s : State) (c : Nat) (w : List Nat) : Bool :=
  ctxValueOk w && s.ctxMatchOk c w && s.ctxMapOk c w && s.ctxAltOk c w

/-- The channel-sample rate of a context (R32). -/
def State.cxLoad (s : State) (w : List Nat) : Nat :=
  if cxGoose w then 0 else ((s.cxMap w).filter mpValid).length * rateHz (cxRateCode w)

/-- The capacities of R31 with a context beside those in use. -/
def State.ctxFits (s : State) (c : Nat) (w : List Nat) : Bool :=
  let os := s.others c
  (cxGoose w || decide ((os.filter (fun p => !cxGoose p.2.words)).length ≤ 1023))
    && decide (sumN (os.map (fun p => s.cxLoad p.2.words)) + s.cxLoad w ≤ 65536000)

/-! ### Entries written and removed (R134, R144, R153, R154) -/

/-- The six words of a context with their reserved bits at zero, as they read (R11, R134). -/
def ctxStored (w : List Nat) : List Nat :=
  [word w 0 / 2 ^ 10 * 2 ^ 10, putBits 55 48 0 (word w 1), word w 2, putBits 59 56 0 (putBits 31 0 0 (word w 3)),
   if cxGoose w then putBits 38 15 0 (word w 4) else putBits 29 15 0 (word w 4), putBits 31 0 0 (word w 5)]

/-- WRITE of an entry: a new context in WAIT, its silence counted from now (R144). -/
def State.ctxInstall (s : State) (c : Nat) (w : List Nat) : State :=
  let x := s.ctx c
  let fixed : Int := if cxGoose w then 0 else (us (cxFixedDelay w) : Nat)
  let new : Ctx := { words := if cxValid w then ctxStored w else [], health := if cxValid w then hWait else hFree
                     gen := (x.gen + 1) % 16, heardAt := s.now, track := { dEst := fixed } }
  ({ s with ing := { s.ing with ctx := Tbl.set {} c new s.ing.ctx } }).ctxBits c

/-- REMOVE of an entry (R154). -/
def State.ctxRemove (s : State) (c : Nat) : State :=
  let x := s.ctx c
  let w := x.words
  let s := match s.primaryOf c with
    | some p => s.feederTo p false
    | none => s
  let s := if !cxGoose w && cxAltEn w then s.modCtx (cxAltIdx w) (fun a => { a with orphan := true }) else s
  let retire := if cxGoose w then [] else ((s.latsOf c).filter (fun l => (s.lattice l).running)).map (fun l => (l, (s.lattice l).next))
  let s := s.modCtx c (fun x => { x with health := hRetiring, gen := (x.gen + 1) % 16, sim := false, retireAt := retire })
  let s := s.ctxBits c
  let s := if cxGoose w then s.gooseFallback w else s
  (s.ing.ctx.filter (fun p => p.2.health == hRetiring && p.2.retireAt.all (fun r => decide (r.2 ≤ s.confN r.1)))).foldl
    (fun s p => s.modCtx p.1 (fun x => { gen := x.gen })) s

/-- The units of D_EST in SCT.STAT: 2^-8 ns, rounded to the nearest with ties away from zero (R142). -/
def dUnits (d : Int) : Nat := unsigned 32 (satInt 32 (divAway d 256))

/-- The five words of SCT.STAT (R155). D_MIN and D_MAX are those of the last second that held an accepted frame, also where the
last complete second held none (R142; DESIGN CHOICE, log 233). -/
def State.ctxStat (s : State) (c : Nat) : List Nat :=
  let x := s.ctx c
  let g := cxGoose x.words
  let t := x.track
  let fresh := decide (t.dSec < Time.sec s.now)
  let w0 := place 63 61 x.health + place 60 57 x.reason + place 56 56 (b2n (x.altFeeds && x.health != hRetiring)) + place 55 55 (b2n x.sim)
    + place 54 54 (b2n (!g && t.aligned)) + place 53 53 (b2n x.coarseTs) + place 52 49 x.gen
    + place 47 32 (if g then 0 else t.lastCnt) + place 31 0 (if g then x.stNum else dUnits t.dEst)
  let w2 := place 63 32 x.accepted + place 31 16 t.seqGap + place 15 0 x.tagFail
  let w3 := place 63 48 x.confErr + place 47 32 x.simTest + place 31 16 t.dupStale + place 15 8 x.switches + place 7 0 t.alignResync
  let w4 := if g then place 63 32 x.sqNum + place 31 0 (if x.health = hWait then 0 else min (2 ^ 32 - 1) ((x.tal + cxTalMargin x.words) * 1000))
    else place 63 32 (dUnits (if fresh then t.dMinNow else t.dMin)) + place 31 0 (dUnits (if fresh then t.dMaxNow else t.dMax))
  [w0, x.lastRx, w2, w3, w4]

/-- The counters of words 2 and 3 of an entry back at zero. -/
def State.ctxStatClear (s : State) (c : Nat) : State :=
  s.modCtx c (fun x => { x with
    accepted := 0, tagFail := 0, confErr := 0, simTest := 0, switches := 0
    track := { x.track with seqGap := 0, dupStale := 0, alignResync := 0 } })

/-- The words of a context as READ returns them. -/
def State.ctxWords (s : State) (c : Nat) : List Nat := (List.range 6).map (word (s.ctx c).words)

/-- MODE: SIM_ACCEPT and TEST_ACCEPT alone; SIM_ACCEPT = 0 clears the latch of R139. -/
def State.ctxMode (s : State) (c : Nat) (sim test : Bool) : State :=
  (s.modCtx c (fun x => { x with
    words := listSet 0 0 (putBits 61 61 (b2n sim) (putBits 60 60 (b2n test) (word x.words 0))) x.words
    sim := x.sim && sim })).ctxBits c

/-- Whether a map entry lies in the range of an entry in use (R135). A RETIRING entry counts here, since its samples are still
read under its map, and not in the overlap checks of a new context (`State.others`); DEDUCED, log 234. -/
def State.mapUsed (s : State) (i : Nat) : Bool :=
  s.ing.ctx.any (fun p => cxValid p.2.words && p.2.health != hFree && decide (cxMapBase p.2.words ≤ i)
    && decide (i < cxMapBase p.2.words + cxMapLen p.2.words))

/-- The state with a map entry written. -/
def State.setMap (s : State) (i v : Nat) : State :=
  { s with ing := { s.ing with map := Tbl.set 0 i (v % 2 ^ 32) s.ing.map } }

/-- The five words of SCT.FSTAT (R151). -/
def ForeignEntry.words (x : ForeignEntry) : List Nat :=
  [place 63 63 (b2n x.valid) + place 62 62 (b2n x.goose) + place 61 58 x.port + place 57 57 (b2n x.tagged) + place 47 0 x.sa,
   place 63 48 x.appid + place 47 0 x.da, place 63 32 x.idCrc + place 31 24 x.idLen + place 23 12 x.vid, x.lastSeen,
   place 63 32 x.frames + place 31 0 x.firstSec]

/-- FOREIGN_CLEAR: one entry, or with 0x7FFF the whole table. -/
def State.foreignFree (s : State) (i : Nat) : State :=
  { s with ing := { s.ing with foreign := if i = 0x7FFF then [] else Tbl.set {} i {} s.ing.foreign } }

/-! ### Operations of SCT.CMD -/

/-- SCT_WRITE. -/
def sctWriteAct (i : Nat) (s : State) : Nat × Option (List Nat) × State :=
  let w := s.dataWords .sct
  let x := s.ctx i
  if 4096 ≤ i then (1, none, s)
  else if x.health = hRetiring then (6, none, s)
  else if x.health ≠ hFree then (3, none, s)
  else if !cxValid w then (0, none, s.ctxInstall i w)
  else if !s.ctxOk i w then (5, none, s)
  else if !s.ctxFits i w then (4, none, s)
  else (0, none, s.ctxInstall i w)

/-- SCT_REMOVE; an entry FREE or RETIRING completes with 0b110. -/
def sctRemoveAct (i : Nat) (s : State) : Nat × Option (List Nat) × State :=
  let x := s.ctx i
  if 4096 ≤ i then (1, none, s)
  else if x.health = hRetiring ∨ x.health = hFree then (6, none, s)
  else (0, none, s.ctxRemove i)

/-- SCT_READ: the words into DATA, the status into STAT. -/
def sctReadAct (i : Nat) (clr : Bool) (s : State) : Nat × Option (List Nat) × State :=
  if 4096 ≤ i then (1, none, s)
  else
    let s := (s.ctxStat i).zipIdx.foldl (fun s p => s.setF (F.SCT_STAT_WORD.nth p.2) p.1) s
    (0, some (s.ctxWords i), if clr then s.ctxStatClear i else s)

/-- SCT_MAP_WRITE. -/
def sctMapWriteAct (i : Nat) (s : State) : Nat × Option (List Nat) × State :=
  if 32768 ≤ i then (1, none, s)
  else if s.mapUsed i then (3, none, s)
  else (0, none, s.setMap i (word (s.dataWords .sct) 0))

/-- SCT_MAP_READ. -/
def sctMapReadAct (i : Nat) (s : State) : Nat × Option (List Nat) × State :=
  if 32768 ≤ i then (1, none, s)
  else (0, some (listSet 0 0 (putBits 31 0 (Tbl.get 0 i s.ing.map) (word (s.dataWords .sct) 0)) (s.dataWords .sct)), s)

/-- SCT_FOREIGN_READ. -/
def sctForeignReadAct (i : Nat) (s : State) : Nat × Option (List Nat) × State :=
  if 256 ≤ i then (1, none, s)
  else (0, none, (ForeignEntry.words (Tbl.get {} i s.ing.foreign)).zipIdx.foldl (fun s p => s.setF (F.SCT_FSTAT_WORD.nth p.2) p.1) s)

/-- SCT_FOREIGN_CLEAR. -/
def sctForeignClearAct (i : Nat) (s : State) : Nat × Option (List Nat) × State :=
  if i ≠ 0x7FFF ∧ 256 ≤ i then (1, none, s) else (0, none, s.foreignFree i)

/-- SCT_MODE. -/
def sctModeAct (i : Nat) (s : State) : Nat × Option (List Nat) × State :=
  let w := s.dataWords .sct
  if 4096 ≤ i then (1, none, s)
  else if (s.ctx i).health = hFree then (6, none, s)
  else (0, none, s.ctxMode i (cxSimAccept w) (cxTestAccept w))

/-- The fields of SCT.CMD written beside OP. -/
def sctFields (i : Nat) (clr : Bool) : List (Field × Nat) := [(F.SCT_CMD_INDEX, i), (F.SCT_CMD_CLR, b2n clr)]

/-! ### Stream commands (R152 to R154) -/

/-- A failure with the RESULT of the SCT. -/
def sctFail (r item : Nat) : Ans := .fail (resultStatus r) 0x05 r item

/-- STREAM_ADD: the lowest FREE index takes the context after its map entries. -/
def streamAddAct (w maps : List Nat) (s : State) : Ans × State :=
  match (List.range 4096).find? (fun i => (s.ctx i).health == hFree) with
  | none => (sctFail 4 0, s)
  | some i =>
    if w.length ≠ 6 ∨ maps.length ≠ cxMapLen w ∨ !ctxReservedOk w ∨ !cxValid w ∨ maps.any (fun m => decide (2 ^ 32 ≤ m))
        ∨ (!cxGoose w && maps.any (fun m => bit 30 m || bits 13 0 m != 0)) ∨ (cxGoose w && maps.any (fun m => bits 21 16 m != 0)) then
      (.fail stBadParam 0x05 0 i, s)
    else
      let t := maps.zipIdx.foldl (fun s m => s.setMap (cxMapBase w + m.2) m.1) s
      if (List.range maps.length).any (fun j => s.mapUsed (cxMapBase w + j)) || !t.ctxOk i w || !t.ctxTimely w then (sctFail 5 i, s)
      else if !t.ctxFits i w then (sctFail 4 i, s)
      else (.done (le 4 i), t.ctxInstall i w)

/-- STREAM_REMOVE. -/
def streamRemoveAct (i : Nat) (s : State) : Ans × State :=
  let r := sctRemoveAct i s
  if r.1 = 0 then (.done [], r.2.2) else (sctFail r.1 i, s)

/-- STREAM_MODE. -/
def streamModeAct (i : Nat) (sim test : Bool) (s : State) : Ans × State :=
  if 4096 ≤ i then (sctFail 1 i, s)
  else if (s.ctx i).health = hFree then (sctFail 6 i, s)
  else (.done [], s.ctxMode i sim test)

/-- STREAM_STATUS. -/
def streamStatusAct (clear : Bool) (i : Nat) (s : State) : Ans × State :=
  if 4096 ≤ i then (sctFail 1 i, s)
  else (.done (wordsOctets (s.ctxWords i ++ s.ctxStat i)), if clear then s.ctxStatClear i else s)

/-- FOREIGN_LIST: every valid entry. -/
def foreignListAct (s : State) : Ans × State :=
  (.done (listOctets (fun p : Nat × ForeignEntry => wordsOctets (ForeignEntry.words p.2)) (s.ing.foreign.filter (fun p => p.2.valid))), s)

/-- FOREIGN_CLEAR. -/
def foreignClearAct (i : Nat) (s : State) : Ans × State :=
  if i ≠ 0x7FFF ∧ 256 ≤ i then (sctFail 1 i, s) else (.done [], s.foreignFree i)

/-! ### The meanings -/

/-- SCT_WRITE. -/
def execSctWrite (m : Master) (index : Nat) (s : State) : Result := s.cmdRun m .sct (sctFields index false) true (sctWriteAct index)
/-- SCT_REMOVE. -/
def execSctRemove (m : Master) (index : Nat) (s : State) : Result := s.cmdRun m .sct (sctFields index false) true (sctRemoveAct index)
/-- SCT_READ. -/
def execSctRead (m : Master) (index : Nat) (clr : Bool) (s : State) : Result :=
  s.cmdRun m .sct (sctFields index clr) false (sctReadAct index clr)
/-- SCT_MAP_WRITE. -/
def execSctMapWrite (m : Master) (index : Nat) (s : State) : Result := s.cmdRun m .sct (sctFields index false) true (sctMapWriteAct index)
/-- SCT_MAP_READ. -/
def execSctMapRead (m : Master) (index : Nat) (s : State) : Result := s.cmdRun m .sct (sctFields index false) false (sctMapReadAct index)
/-- SCT_FOREIGN_READ. -/
def execSctForeignRead (m : Master) (index : Nat) (s : State) : Result :=
  s.cmdRun m .sct (sctFields index false) false (sctForeignReadAct index)
/-- SCT_FOREIGN_CLEAR. -/
def execSctForeignClear (m : Master) (index : Nat) (s : State) : Result :=
  s.cmdRun m .sct (sctFields index false) true (sctForeignClearAct index)
/-- SCT_MODE. -/
def execSctMode (m : Master) (index : Nat) (s : State) : Result := s.cmdRun m .sct (sctFields index false) true (sctModeAct index)
/-- STREAM_ADD. -/
def execStreamAdd (q : Req) (words : List Nat) (maps : List Nat) (s : State) : Result :=
  s.patchaif q 0x0301 (words.flatMap (le 8) ++ listOctets (le 8) maps) false false (streamAddAct words maps)
/-- STREAM_REMOVE. -/
def execStreamRemove (q : Req) (ctx : Nat) (s : State) : Result := s.patchaif q 0x0302 (le 4 ctx) false false (streamRemoveAct ctx)
/-- STREAM_MODE. -/
def execStreamMode (q : Req) (ctx : Nat) (sim test : Bool) (s : State) : Result :=
  s.patchaif q 0x0303 (le 4 ctx ++ flagOctets sim ++ flagOctets test) false false (streamModeAct ctx sim test)
/-- STREAM_STATUS. -/
def execStreamStatus (q : Req) (clear : Bool) (ctx : Nat) (s : State) : Result :=
  s.patchaif q 0x0304 (flagOctets clear ++ le 4 ctx) false false (streamStatusAct clear ctx)
/-- FOREIGN_LIST. -/
def execForeignList (q : Req) (s : State) : Result := s.patchaif q 0x0305 [] false false foreignListAct
/-- FOREIGN_CLEAR. -/
def execForeignClear (q : Req) (index : Nat) (s : State) : Result := s.patchaif q 0x0306 (le 4 index) false false (foreignClearAct index)

end Sys2Proof.Machine
end

