-- ==== Sys2Proof/Machine/Programs.lean ====
section
/-! DEFINITION. The checks on Scarab programs and classes that the bundle commit and LOGIC_LOAD apply (R238, R242, R244, R245,
R251, R253, R260, R345). -/
namespace Sys2Proof.Machine

/-- The size of an operand space by its code (R237). -/
def spaceSize : Nat → Nat
  | 0 => 65536 | 1 => 65536 | 2 => 131072 | 3 => 8192 | 4 => 4096
  | 5 => 65536 | 6 => 4096 | 7 => 1024 | 8 => 32768 | 9 => 256 | _ => 0

/-- The operand kinds of an opcode (R243): none, a read space, Q or M, E, T, C, a jump; none for an undefined opcode. -/
inductive OpKind | plain | read | write | edge | timer | counter | jump
  deriving DecidableEq, Repr

/-- What an opcode takes (R243). -/
def opKind (op : Nat) : Option OpKind :=
  if op = 0x00 ∨ op = 0x0E ∨ op = 0x0F ∨ op = 0x21 ∨ op = 0x22 then some .plain
  else if op ≤ 0x0D then some .read
  else if op ≤ 0x13 then some .write
  else if op ≤ 0x15 then some .edge
  else if op ≤ 0x1A then some .timer
  else if op ≤ 0x1D then some .counter
  else if op ≤ 0x20 then some .jump
  else none

/-- Whether opcode, space and index of a word go together; an unused field is 0 (R242, R243). -/
def wordOk (w : Nat) : Bool :=
  let sp := scSpace w
  decide (w < 2 ^ 32) && (match opKind (scOp w) with
    | none => false
    | some .plain => sp == 0 && scIx w == 0
    | some .jump => sp == 0
    | some .read => decide (scIx w < spaceSize sp)
    | some .write => (sp == 1 || sp == 2) && decide (scIx w < spaceSize sp)
    | some .edge => sp == 5 && decide (scIx w < 65536)
    | some .timer => sp == 3 && decide (scIx w < 8192)
    | some .counter => sp == 4 && decide (scIx w < 4096))

/-- The largest count of LOG_CLK cycles that an instruction takes (R243, R245). -/
def opCycles (op : Nat) : Nat :=
  if op = 0x14 ∨ op = 0x15 ∨ op = 0x21 ∨ op = 0x22 then 2
  else if 0x16 ≤ op ∧ op ≤ 0x20 then 3
  else 1

/-- The stack depth before each instruction, counted along the order; none where it leaves 0 to 32 (R242). -/
def depths : Nat → List Nat → Option (List Nat)
  | _, [] => some []
  | d, w :: t =>
    let op := scOp w
    if 0x09 ≤ op ∧ op ≤ 0x0D then (if d < 32 then (depths (d + 1) t).map (d :: ·) else none)
    else if op = 0x0E then (if d = 0 then none else (depths (d - 1) t).map (d :: ·))
    else (depths d t).map (d :: ·)

/-- The branch-stack and jump checks of R242 and R244. -/
def flowOk (ws : List Nat) : Bool :=
  match depths 0 ws with
  | none => false
  | some ds =>
    ws.getLast?.map scOp == some 0x21 &&
    (ws.zip ds).zipIdx.all (fun p =>
      let op := scOp p.1.1
      let t := scIx p.1.1
      if op = 0x21 ∨ op = 0x22 then p.1.2 == 0
      else if 0x1E ≤ op ∧ op ≤ 0x20 then decide (p.2 < t) && decide (t < ws.length) && ds.getD t 33 == p.1.2
      else true)

/-- The family an instruction writes in, with its index (R238). -/
def writeOf (w : Nat) : Option (OwnSpace × Nat) :=
  match opKind (scOp w) with
  | some .write => some (if scSpace w = 1 then .q else .m, scIx w)
  | some .edge => some (.e, scIx w)
  | some .timer => some (.t, scIx w)
  | some .counter => some (.c, scIx w)
  | _ => none

/-- Whether a slot's slice may read an operand (R345); slot 0 may read every one. -/
def State.readOk (s : State) (k sp ix : Nat) : Bool :=
  let w := s.slpEnt 0 k
  let sl := s.sltEnt 0 (k - 1)
  k == 0 || sp == 9
    || (sp == 1 && soOwns w .q ix) || (sp == 2 && soOwns w .m ix) || (sp == 3 && soOwns w .t ix) || (sp == 4 && soOwns w .c ix)
    || (sp == 5 && soOwns w .e ix)
    || (sp == 8 && decide (slFBase sl * 64 ≤ ix) && decide (ix < (slFBase sl + slFWords sl) * 64))
    || (s.sltAll 5).any (fun p => seValid p.2 && seSlice p.2 == k - 1 && gtSpace p.2 == sp
        && decide (gtBase p.2 ≤ ix) && decide (ix ≤ gtLast p.2))

/-- The instructions of a family with an index. -/
def usesOf (lo hi : Nat) (ws : List Nat) : List Nat := (ws.filter (fun w => decide (lo ≤ scOp w) && decide (scOp w ≤ hi))).map scIx

/-- Whether a slot's program passes the checks on it alone (R238, R242, R244, R345). -/
def State.slotProgOk (s : State) (k : Nat) (ws : List Nat) : Bool :=
  let w := s.slpEnt 0 k
  ws.all wordOk && flowOk ws
    && ws.all (fun x => match writeOf x with | some (sp, ix) => soOwns w sp ix | none => true)
    && ws.all (fun x => opKind (scOp x) != some .read || s.readOk k (scSpace x) (scIx x))
    && (usesOf 0x1A 0x1A ws).all (fun i => (usesOf 0x16 0x19 ws).contains i)
    && (usesOf 0x1D 0x1D ws).all (fun i => (usesOf 0x1B 0x1C ws).contains i)

/-- The program words of a slot's entry. -/
def State.slotWords (s : State) (k : Nat) : List Nat := s.progWords (soBase (s.slpEnt 0 k), soLen (s.slpEnt 0 k))

/-- The slots with a program. -/
def State.progSlots (s : State) : List Nat := (List.range slotCount).filter (fun k => soLen (s.slpEnt 0 k) != 0)

/-- Whether no timer, counter or edge memory has two of its instructions in the whole Scarab (R242). -/
def State.usesUnique (s : State) : Bool :=
  let all := s.progSlots.flatMap s.slotWords
  decide (usesOf 0x16 0x19 all).Nodup && decide (usesOf 0x1B 0x1C all).Nodup && decide (usesOf 0x14 0x15 all).Nodup

/-- The WCET of a slot's program (R245). -/
def slotWcet (ws : List Nat) : Nat := 16 + sumN (ws.map (fun w => opCycles (scOp w)))

/-- The WCET of a class (R245). -/
def State.classWcet (s : State) (c : Nat) : Nat := 80 + sumN ((s.classSlots c).map (fun k => slotWcet (s.slotWords k)))

/-- BUDGET of a class. -/
def clBudget (w : List Nat) : Nat := wbits w 1 63 32

/-- The classes in use. -/
def State.classesOn (s : State) : List Nat := (List.range 16).filter (fun c => clValid (s.clsEnt c))

/-- The starts of class `j` within `t` LOG_CLK cycles: ceil(t / p_j) (R253). -/
def State.startsIn (s : State) (j t : Nat) : Nat :=
  let w := s.clsEnt j
  if clInst w then (t * s.latRate (clLat w) + 624999999) / 625000000 else (t + clPeriod w * 6250 - 1) / (clPeriod w * 6250)

/-- The fixed point of R253, sought from below; none past `lim`. -/
def State.respFrom (s : State) (c : Nat) (lim : Nat) : Nat → Nat → Option Nat
  | 0, _ => none
  | k + 1, t =>
    let hi := s.classesOn.filter (fun j => lexLt (s.clsKey j) (s.clsKey c))
    let n := s.classWcet c + sumN (hi.map (fun j => s.startsIn j t * (if clInst (s.clsEnt j) then 2 * s.classWcet j else s.classWcet j)))
    if lim < n then none else if n = t then some n else s.respFrom c lim k n

/-- Whether every class meets resp ≤ BUDGET (R253): c_i itself counts once. -/
def State.respOk (s : State) : Bool :=
  s.classesOn.all (fun c => (s.respFrom c (clBudget (s.clsEnt c)) (clBudget (s.clsEnt c) + 1) (s.classWcet c)).isSome)

/-- The operands that a class's programs write, each once (R260). -/
def State.classWrites (s : State) (c : Nat) : Nat :=
  (((s.classSlots c).flatMap (fun k => (s.slotWords k).filterMap writeOf)).dedup).length

/-- Whether the journal can hold every per-instant class at full depth (R260). -/
def State.journalOk (s : State) : Bool :=
  decide (sumN ((s.classesOn.filter (fun c => clInst (s.clsEnt c))).map (fun c => s.classWrites c * s.specDepth (clLat (s.clsEnt c))))
    ≤ 131072)

/-- Segments of program memory in use: base and length. -/
def State.segments (s : State) : List (Nat × Nat) :=
  (s.progSlots.map (fun k => (soBase (s.slpEnt 0 k), soLen (s.slpEnt 0 k))))
    ++ (match s.slp.staged with | some p => if 2 ≤ p.stage then [(p.base, p.prog.words.length)] else [] | none => [])

/-- Words of program memory. -/
def progSize : Nat := 262144

/-- The lowest free segment of program memory that holds `n` words. -/
def State.freeSegment (s : State) (n : Nat) : Option Nat :=
  let cands := 0 :: s.segments.map (fun g => g.1 + g.2)
  let fit := cands.filter (fun b => decide (b + n ≤ progSize) && !s.segments.any (fun g => runsMeet (b, n) g))
  fit.foldl (fun a b => match a with | none => some b | some x => some (min x b)) none

/-- The first failure of the checks that LOGIC_LOAD and the commit share: a slot, or the classes together. -/
def State.programsFail (s : State) : Option Nat :=
  match s.progSlots.find? (fun k => !s.slotProgOk k (s.slotWords k)) with
  | some k => some k
  | none => if s.usesUnique && s.respOk && s.journalOk then none else some 0

/-- Whether a write range shares an operand with another (R238). -/
def rangesCross (a b : Nat × Nat) : Bool := decide (max a.1 b.1 ≤ min a.2 b.2)

/-- The checks of the commit alone (R238, R251, R253): write ranges apart, the carrier outputs kept from tenants, classes. -/
def State.classesFail (s : State) : Option Nat :=
  let used := (List.range slotCount).filter (fun k => soUsed (s.slpEnt 0 k))
  let meets := fun (k : Nat) => used.any (fun j => decide (j < k) &&
    [OwnSpace.q, .e, .m, .t, .c].any (fun sp => rangesCross (soRange (s.slpEnt 0 j) sp) (soRange (s.slpEnt 0 k) sp)))
  let out := s.get F.QBC_MAP_OUT_BASE
  let carrier := fun (k : Nat) => k != 0 && decide (out ≤ 65408) && rangesCross (soRange (s.slpEnt 0 k) .q) (out, out + 127)
  match used.find? (fun k => meets k || carrier k) with
  | some k => some k
  | none =>
    s.classesOn.find? (fun c =>
      let w := s.clsEnt c
      if clInst w then
        !s.flag (F.SLE_LAT_CFG_EN.nth (clLat w)) || decide (625000000 < clBudget w * s.latRate (clLat w))
          || s.classesOn.any (fun d => decide (d < c) && clInst (s.clsEnt d) && clLat (s.clsEnt d) == clLat w)
      else clPeriod w == 0 || decide (100000 < clPeriod w) || decide (clPeriod w * 6250 < clBudget w))

/-- Whether the programs fit program memory, each in a segment of its own (R31, R250). -/
def State.progFits (s : State) : Bool :=
  let g := s.segments
  g.all (fun x => decide (x.1 + x.2 ≤ progSize)) && g.zipIdx.all (fun a => g.zipIdx.all (fun b => a.2 == b.2 || !runsMeet a.1 b.1))

end Sys2Proof.Machine
end

