-- ==== Sys2Proof/Machine/LogicCmds.lean ====
section
/-! DEFINITION. The Logic commands of Patchaif (R262 to R273) and the operations of SLP.CMD (R271). -/
namespace Sys2Proof.Machine

/-! ### Views (R270, R271) -/

/-- SLP.STATUS with its live fields (R270). -/
def State.showSlp (s : State) : State :=
  let p := s.slp.staged.map (fun p => (p.slot, p.stage))
  ((s.setF F.SLP_STATUS_FORCES s.slp.forces.length).setF F.SLP_STATUS_LOAD_SLOT ((p.map Prod.fst).getD 0)).setF
    F.SLP_STATUS_LOAD_STATE ((p.map Prod.snd).getD 0)

/-- A slot entry with MODE of the confirmed image and FAULT. -/
def State.slotView (s : State) (k : Nat) : List Nat :=
  let w := s.slpEnt 0 k
  let m := (Tbl.get ({} : SlotSt) k s.slp.confirmed.slots).mode
  putBits 61 61 (b2n (s.slp.faults.contains k)) (putBits 63 62 m (word w 0)) :: (List.range 3).map (fun i => word w (i + 1))

/-- The force of a table entry (R271). -/
def State.forceWord (s : State) (i : Nat) : Nat :=
  match Tbl.get 0 i s.slp.forceAt with
  | 0 => 0
  | k + 1 => 2 ^ 63 + place 62 59 (k / 2 ^ 18) + place 58 42 (k % 2 ^ 18) + place 41 41 (b2n (Tbl.get 0 k s.slp.forces == 2))

/-- The entries of a Scarab table. -/
def slpSize : Nat → Nat
  | 0 => 129 | 1 => 16 | 2 => 8192 | 3 => 4096 | 4 => 1024 | 5 => 262144 | 6 => 1 | _ => 0

/-- The newest preset or limit of table 2 or 3. -/
def State.prmNow (s : State) (t i : Nat) : Nat := (((Tbl.get [] (2 ^ 18 * t + i) s.slp.prm).head?).getD (0, 0)).2

/-- A Scarab table entry as READ returns it. -/
def State.slpView (s : State) (t i : Nat) : List Nat :=
  match t with
  | 0 => s.slotView i
  | 2 => [s.prmNow 2 i]
  | 3 => [s.prmNow 3 i]
  | 4 => [s.forceWord i]
  | _ => s.slpEnt t i

/-- STATE of a timer: ET, flags, T_LAST; of a counter: CV and flags (R271), in the confirmed image. -/
def State.opState (s : State) (t i : Nat) : List Nat :=
  let x := s.slp.confirmed
  if t = 2 then
    let y := Tbl.get ({} : Timer) i x.t
    [y.et, b2n y.q * 4 + b2n y.inPrev * 2 + b2n y.run, (y.last.map Time.gt64).getD 0]
  else
    let y := Tbl.get ({} : Counter) i x.c
    [y.cv * 2 ^ 32 + b2n y.q * 2 + b2n y.eprev]

/-- The underlying value of an operand: the newest image, or the confirmed one of its class (R265, R450). -/
def State.underlying (s : State) (sp ix : Nat) : Bool :=
  let x := s.slp.confirmed
  match sp with
  | 0 => Tbl.get false ix s.slp.i
  | 1 => Tbl.get false ix x.q
  | 2 => Tbl.get false ix x.m
  | 3 => (Tbl.get ({} : Timer) ix x.t).q
  | 4 => (Tbl.get ({} : Counter) ix x.c).q
  | 5 => (Tbl.get ({} : Edge) ix x.e).b
  | 6 => (List.range 4).any (fun l => (s.gConf l).contains ix)
  | 7 => s.flag F.TMC_MODULE_ID_SAFETY_EN && Tbl.get false ix s.slp.s
  | 8 => bit (ix % 64) (Tbl.get 0 (ix / 64) (s.fImage none 0))
  | 9 => bit ix (s.kImage { stamp := s.now })
  | _ => false

/-- OPND: READ, UNDERLYING, FORCED, RELEASED (R271). -/
def State.opnd (s : State) (sp ix : Nat) : Nat :=
  let u := s.underlying sp ix
  2 ^ 63 * b2n (forced s.slp.forces sp ix u) + 2 ^ 62 * b2n u + 2 ^ 61 * b2n (Tbl.has (forceKey sp ix) s.slp.forces)
    + 2 ^ 60 * b2n (sp == 1 && s.relQ ix)

/-! ### Forces (R264, R265) -/

/-- The spaces that may be forced: I, Q, M, G, F. -/
def forceable (sp : Nat) : Bool := sp == 0 || sp == 1 || sp == 2 || sp == 6 || sp == 8

/-- The table of forces with an operand taken out of its entry, or put into entry `i` of it (R271). -/
def forceMove (t : Tbl Nat) (key : Nat) (i : Option Nat) : Tbl Nat :=
  let t := t.filter (fun p => p.2 != key + 1)
  match i with
  | some i => Tbl.set 0 i (key + 1) t
  | none => t

/-- The entry that an operand takes: its own, or the lowest one free. -/
def State.forceEntry (s : State) (key : Nat) : Option Nat :=
  match s.slp.forceAt.find? (fun p => p.2 == key + 1) with
  | some p => some p.1
  | none => (List.range 1024).find? (fun i => Tbl.get 0 i s.slp.forceAt == 0)

/-- A force set (1 for 0, 2 for 1) or removed (0): counted, recorded, and the released Q image and the publications follow. -/
def State.setForce (s : State) (sp ix v : Nat) : State :=
  let key := forceKey sp ix
  let val := b2n ((if v = 0 then Tbl.get 0 key s.slp.forces else v) == 2)
  let t : State := { s with slp := { s.slp with
    forces := Tbl.set 0 key v s.slp.forces, forceAt := forceMove s.slp.forceAt key (if v = 0 then none else s.forceEntry key) } }
  let t := (t.bump (F.SLP_CNT_COUNT.nth 5)).belfry 1 0x0005 0 [place 63 32 ix + place 31 16 sp + place 15 8 val + b2n (v != 0)]
  if sp = 1 then (s.pubForced t).pubFlush else t

/-- Every force removed, as a reset or a commit does. -/
def State.unforceAll (s : State) : State :=
  s.slp.forces.foldl (fun s f => s.setForce (f.1 / 2 ^ 18) (f.1 % 2 ^ 18) 0) s

/-! ### Operations of SLP.CMD (R271) -/

/-- Whether the values of a Scarab entry have a meaning. -/
def slpEntOk (t : Nat) (w : List Nat) : Bool :=
  match t with
  | 0 => decide (soLen w ≤ 262144) && decide (soInit w ≤ 2)
  | 1 => !clValid w || (decide (1 ≤ clWarn w) && decide (clWarn w ≤ 100)
      && (clInst w || (decide (1 ≤ clPeriod w) && decide (clPeriod w ≤ 100000))))
  | 4 => !wbit w 0 63 || (forceable (wbits w 0 62 59) && decide (wbits w 0 58 42 < spaceSize (wbits w 0 62 59)))
  | _ => true

/-- WRITE of a force entry: the force that it held ends, and EN sets one in it (R271). -/
def State.forcePut (s : State) (i : Nat) (d : List Nat) : State :=
  let sp := wbits d 0 62 59
  let ix := wbits d 0 58 42
  let s := match Tbl.get 0 i s.slp.forceAt with
    | 0 => s
    | k + 1 => if wbit d 0 63 && k == forceKey sp ix then s else s.setForce (k / 2 ^ 18) (k % 2 ^ 18) 0
  if !wbit d 0 63 then s
  else
    let s := s.setForce sp ix (1 + wbits d 0 41 41)
    { s with slp := { s.slp with forceAt := forceMove s.slp.forceAt (forceKey sp ix) (some i) } }

/-- An entry written before the commit completes. -/
def State.slpPut (s : State) (t i : Nat) (d : List Nat) : State :=
  match t with
  | 0 => s.setSlpEnt 0 i [putBits 63 61 0 (word d 0), word d 1, word d 2, word d 3]
  | 1 => s.setSlpEnt 1 i [word d 0, putBits 31 0 (wbits (s.slpEnt 1 i) 1 31 0) (word d 1)]
  | 2 => s.setPrm 2 i 0 (word d 0 % 2 ^ 32)
  | 3 => s.setPrm 3 i 0 (word d 0 % 2 ^ 32)
  | 4 => s.forcePut i d
  | 5 => { s.setSlpEnt 5 i [word d 0 % 2 ^ 32] with slp := { (s.setSlpEnt 5 i [word d 0 % 2 ^ 32]).slp with
      badWords := s.slp.badWords.filter (fun a => a != i) } }
  | _ => s.setSlpEnt 6 i [word d 0, word d 1]

/-- SLP_WRITE. -/
def slpWriteAct (t i : Nat) (s : State) : Nat × Option (List Nat) × State :=
  if s.tmc.locked then (7, none, s)
  else if slpSize t ≤ i then (1, none, s)
  else if !slpEntOk t (s.dataWords .slp) then (5, none, s)
  else (0, none, s.slpPut t i (s.dataWords .slp))

/-- SLP_READ. -/
def slpReadAct (t i : Nat) (s : State) : Nat × Option (List Nat) × State :=
  if slpSize t ≤ i then (1, none, s) else (0, some (s.slpView t i), s)

/-- SLP_STATE. -/
def slpStateAct (t i : Nat) (s : State) : Nat × Option (List Nat) × State :=
  if (t != 2 && t != 3) || decide (slpSize t ≤ i) then (1, none, s) else (0, some (s.opState t i), s)

/-- SLP_OPND. -/
def slpOpndAct (t i : Nat) (s : State) : Nat × Option (List Nat) × State :=
  if spaceSize t ≤ i then (1, none, s) else (0, some [s.opnd t i], s)

/-- The fields of SLP.CMD. -/
def slpFields (t i : Nat) : List (Field × Nat) := [(F.SLP_CMD_TABLE, t), (F.SLP_CMD_INDEX, i)]

/-! ### Commands (R273) -/

/-- A failure of a Logic command. -/
def slpFail (st check item : Nat) : Ans := .fail st 0x0A check item

/-- LOGIC_STATUS: SLP.STATUS, the slot and its class, the counters. -/
def logicStatusAct (clear : Bool) (k : Nat) (s : State) : Ans × State :=
  if slotCount ≤ k then (slpFail stBadParam 1 k, s)
  else
    let v := s.showSlp
    let c := soClass (s.slpEnt 0 k)
    let o := v.regOctets 4 [F.SLP_STATUS_FORCES, F.SLP_STATUS_LOAD_SLOT, F.SLP_STATUS_LOAD_STATE]
      ++ (s.slotView k).flatMap (le 8) ++ (List.range 2).flatMap (fun i => le 8 (word (s.clsEnt c) i))
      ++ (List.range 16).flatMap (fun i =>
        s.regOctets 8 [F.SLP_CLASS_STAT_MAX_EXEC.nth i, F.SLP_CLASS_STAT_LAST_EXEC.nth i]
          ++ s.regOctets 8 [F.SLP_CLASS_CNT_CYCLES.nth i, F.SLP_CLASS_CNT_SKIP.nth i, F.SLP_CLASS_CNT_WARN.nth i])
      ++ s.cntOctets F.SLP_CNT_COUNT 0 8
    let t := [F.SLP_CLASS_STAT_MAX_EXEC, F.SLP_CLASS_CNT_CYCLES, F.SLP_CLASS_CNT_SKIP, F.SLP_CLASS_CNT_WARN].foldl
      (fun s f => s.clearCnt f 0 16 clear) s
    (.done o, t.clearCnt F.SLP_CNT_COUNT 0 8 clear)

/-- Whether an item of LOGIC_READ names an operand: an OPND by its space code, or a STATE by 16 + its table. -/
def readItemOk (o : Nat × Nat) : Bool :=
  if o.1 < 10 then decide (o.2 < spaceSize o.1) else (o.1 == 18 || o.1 == 19) && decide (o.2 < slpSize (o.1 - 16))

/-- Whether a session's slice may read an item of LOGIC_READ (R345, R356). -/
def State.readItemAllowed (s : State) (q : Req) (o : Nat × Nat) : Bool :=
  sessSlice q.sess == 0 || s.readOk (1 + sessSlice q.sess) (if o.1 < 10 then o.1 else if o.1 = 18 then 3 else 4) o.2

/-- LOGIC_READ: OPND or STATE of up to 256 operands. -/
def logicReadAct (ops : List (Nat × Nat)) (s : State) : Ans × State :=
  if 256 < ops.length then (slpFail stBadParam 0 0, s)
  else match ops.find? (fun o => !readItemOk o) with
    | some o => (slpFail stBadParam 1 o.2, s)
    | none => (.done (listOctets (fun o =>
        if o.1 < 10 then le 8 (s.opnd o.1 o.2) else (s.opState (o.1 - 16) o.2).flatMap (le 8)) ops), s)

/-- The mode last asked of a slot. -/
def State.lastMode (s : State) (k : Nat) : Nat :=
  match (Tbl.get [] k s.slp.reqs).getLast? with
  | some r => r.mode
  | none => (s.slotOf k).mode

/-- Whether a slot has a program: resident, or past its swap point. -/
def State.hasProg (s : State) (k : Nat) : Bool := (s.progAt k (s.nextCycle (soClass (s.slpEnt 0 k)))).2 != 0

/-- LOGIC_MODE (R262, R503). -/
def logicModeAct (k mode : Nat) (s : State) : Ans × State :=
  if slotCount ≤ k ∨ 2 < mode then (slpFail stBadParam 1 k, s)
  else if !s.hasProg k then (slpFail stWrongState 0 k, s)
  else if mode = 1 ∧ s.slp.faults.contains k ∧ s.lastMode k = 0 then (slpFail stSlotFault 0 k, s)
  else (.done [], s.modeReq k mode false)

/-- LOGIC_PARAM (R273, R503). -/
def logicParamAct (k : Nat) (counters : Bool) (vals : List (Nat × Nat)) (s : State) : Ans × State :=
  let t := if counters then 3 else 2
  let c := soClass (s.slpEnt 0 k)
  let n := s.nextCycle c
  let used := if counters then usesOf 0x1B 0x1D (s.progWords (s.progAt k n)) else usesOf 0x16 0x1A (s.progWords (s.progAt k n))
  if slotCount ≤ k then (slpFail stBadParam 1 k, s)
  else match vals.find? (fun v => decide (slpSize t ≤ v.1) || decide (2 ^ 32 ≤ v.2)) with
    | some v => (slpFail stBadParam 1 v.1, s)
    | none => match vals.find? (fun v => !used.contains v.1) with
      | some v => (slpFail stConsistency 5 v.1, s)
      | none => (.done [], vals.foldl (fun s v => s.setPrm t v.1 n v.2) s)

/-- LOGIC_FORCE (R264). -/
def logicForceAct (sp ix : Nat) (v : Bool) (s : State) : Ans × State :=
  if !s.flag F.SLP_CTL_FORCE_ALLOW then (slpFail stDisabled 0 ix, s)
  else if !forceable sp ∨ spaceSize sp ≤ ix then (slpFail stBadParam 1 ix, s)
  else if !Tbl.has (forceKey sp ix) s.slp.forces ∧ 1024 ≤ s.slp.forces.length then (slpFail stCapacity 0 ix, s)
  else (.done [], s.setForce sp ix (1 + b2n v))

/-- LOGIC_UNFORCE (R265, R503). -/
def logicUnforceAct (sp ix : Nat) (s : State) : Ans × State :=
  if 10 ≤ sp ∨ spaceSize sp ≤ ix then (slpFail stBadParam 1 ix, s)
  else if !Tbl.has (forceKey sp ix) s.slp.forces then (slpFail stWrongState 0 ix, s)
  else (.done [], s.setForce sp ix 0)

/-! ### Online program change (R266) -/

/-- The state with a staged program set. -/
def State.setStaged (s : State) (p : Option StagedProg) : State := { s with slp := { s.slp with staged := p } }

/-- LOGIC_LOAD is accepted; the program is checked and written when the command completes. -/
def logicLoadAct (q : Req) (k : Nat) (buf : BufRef) (p : ProgramImage) (s : State) : Ans × State :=
  if !s.flag F.SLP_CTL_ONLINE_ALLOW then (slpFail stDisabled 0 k, s)
  else if slotCount ≤ k ∨ !s.bufOk q buf then (slpFail stBadParam 1 k, s)
  else if s.slp.staged.isSome then (slpFail stWrongState 0 k, s)
  else (.accepted k (heldBy [buf]), s.setStaged (some ⟨k, p, 0, 1, 0⟩))

/-- Whether presets and limits of a program name what it uses, in 32 bits. -/
def paramsOk (p : ProgramImage) : Bool :=
  p.presets.all (fun v => (usesOf 0x16 0x19 p.words).contains v.1 && decide (v.2 < 2 ^ 32))
    && p.limits.all (fun v => (usesOf 0x1B 0x1C p.words).contains v.1 && decide (v.2 < 2 ^ 32))

/-- A slot's program replaced by words at a segment, for the checks alone and for the load. -/
def State.placeWords (s : State) (b : Nat) (ws : List Nat) : State :=
  ws.zipIdx.foldl (fun s p => s.slpPut 5 (b + p.2) [p.1]) s

/-- The slot's entry pointed at a segment. -/
def State.pointSlot (s : State) (k b n : Nat) : State :=
  let w := s.slpEnt 0 k
  s.setSlpEnt 0 k (listSet 0 0 (putBits 37 19 n (putBits 55 38 b (word w 0))) w)

/-- The end of LOGIC_LOAD: its status, and the state with the program STAGED or gone (R266). -/
def State.loadEnd (s : State) : (Nat × Nat × Nat) × State :=
  match s.slp.staged with
  | none => ((stAborted, 0, 0), s)
  | some p =>
    let ws := p.prog.words
    match s.freeSegment ws.length with
    | none => ((stCapacity, 0, p.slot), s.setStaged none)
    | some b =>
      let t := s.placeWords b ws
      let w := s.slpEnt 0 p.slot
      let moved := p.prog.cls != soClass w || p.prog.ranges != [word w 1, word w 2, word w 3 / 2 ^ 40 * 2 ^ 40]
      if ws.isEmpty || moved || !paramsOk p.prog || (t.pointSlot p.slot b ws.length).programsFail.isSome then
        ((stConsistency, 5, p.slot), s.setStaged none)
      else ((stOk, 0, 0), t.setStaged (some { p with base := b, stage := 2 }))

/-- LOGIC_SWAP: the swap point is set; a FAULT of the slot is cleared (R262, R266). -/
def logicSwapAct (k : Nat) (s : State) : Ans × State :=
  if !s.flag F.SLP_CTL_ONLINE_ALLOW then (slpFail stDisabled 0 k, s)
  else if slotCount ≤ k then (slpFail stBadParam 1 k, s)
  else match s.slp.staged with
    | none => (slpFail stWrongState 0 k, s)
    | some p =>
      if p.stage = 1 ∧ p.slot = k then (slpFail stBusy 0 k, s)
      else if p.stage != 2 || p.slot != k then (slpFail stWrongState 0 k, s)
      else
        let n := s.nextCycle (soClass (s.slpEnt 0 k))
        let s := p.prog.presets.foldl (fun s v => s.setPrm 2 v.1 n v.2) s
        let s := p.prog.limits.foldl (fun s v => s.setPrm 3 v.1 n v.2) s
        let s : State := { s with slp := { s.slp with faults := s.slp.faults.filter (fun j => j != k) } }
        (.done [], s.setStaged (some { p with stage := 3, swapAt := n }))

/-- LOGIC_ABORT: a STAGED program is discarded; refused once a swap point is set (R266). -/
def logicAbortAct (s : State) : Ans × State :=
  match s.slp.staged with
  | none => (slpFail stWrongState 0 0, s)
  | some p =>
    if p.stage = 1 then (slpFail stBusy 0 p.slot, s)
    else if p.stage != 2 then (slpFail stWrongState 0 p.slot, s)
    else (.done [], ((List.range p.prog.words.length).foldl (fun s j => s.setSlpEnt 5 (p.base + j) []) s).setStaged none)

/-- SLP_WRITE. -/
def execSlpWrite (m : Master) (table index : Nat) (s : State) : Result := s.cmdRun m .slp (slpFields table index) true (slpWriteAct table index)
/-- SLP_READ. -/
def execSlpRead (m : Master) (table index : Nat) (s : State) : Result := s.cmdRun m .slp (slpFields table index) false (slpReadAct table index)
/-- SLP_STATE. -/
def execSlpState (m : Master) (table index : Nat) (s : State) : Result :=
  s.cmdRun m .slp (slpFields table index) false (slpStateAct table index)
/-- SLP_OPND. -/
def execSlpOpnd (m : Master) (table index : Nat) (s : State) : Result := s.cmdRun m .slp (slpFields table index) false (slpOpndAct table index)
/-- LOGIC_STATUS: a tenant reads its own slot. -/
def execLogicStatus (q : Req) (clear : Bool) (slot : Nat) (s : State) : Result :=
  s.patchaif q 0x0601 (flagOctets clear ++ le 4 slot) false (slot == 1 + sessSlice q.sess) (logicStatusAct clear slot)
/-- LOGIC_READ: a tenant reads within R345. -/
def execLogicRead (q : Req) (ops : List (Nat × Nat)) (s : State) : Result :=
  s.patchaif q 0x0602 (listOctets (fun o => le 1 o.1 ++ le 4 o.2) ops) false (ops.all (s.readItemAllowed q)) (logicReadAct ops)
/-- LOGIC_MODE: a tenant with SELF_MODE sets its own slot. -/
def execLogicMode (q : Req) (slot mode : Nat) (s : State) : Result :=
  s.patchaif q 0x0603 (le 4 slot ++ le 1 mode) false (slot == 1 + sessSlice q.sess && slSelfMode (s.sltEnt 0 (sessSlice q.sess)))
    (logicModeAct slot mode)
/-- LOGIC_PARAM. -/
def execLogicParam (q : Req) (slot : Nat) (counters : Bool) (vals : List (Nat × Nat)) (s : State) : Result :=
  s.patchaif q 0x0604 (le 4 slot ++ flagOctets counters ++ listOctets (fun v => le 4 v.1 ++ le 4 v.2) vals) false false
    (logicParamAct slot counters vals)
/-- LOGIC_FORCE. -/
def execLogicForce (q : Req) (space index : Nat) (value : Bool) (s : State) : Result :=
  s.patchaif q 0x0605 (le 4 index ++ le 1 space ++ flagOctets value) false false (logicForceAct space index value)
/-- LOGIC_UNFORCE. -/
def execLogicUnforce (q : Req) (space index : Nat) (s : State) : Result :=
  s.patchaif q 0x0606 (le 4 index ++ le 1 space) false false (logicUnforceAct space index)
/-- LOGIC_LOAD. -/
def execLogicLoad (q : Req) (slot : Nat) (buf : BufRef) (p : ProgramImage) (s : State) : Result :=
  s.patchaif q 0x0607 (le 4 slot ++ bufOctets buf) true false (logicLoadAct q slot buf p)
/-- LOGIC_SWAP. -/
def execLogicSwap (q : Req) (slot : Nat) (s : State) : Result := s.patchaif q 0x0608 (le 4 slot) false false (logicSwapAct slot)
/-- LOGIC_ABORT. -/
def execLogicAbort (q : Req) (s : State) : Result := s.patchaif q 0x0609 [] false false logicAbortAct

end Sys2Proof.Machine
end

