-- ==== Sys2Proof/Machine/Ports.lean ====
section
/-! DEFINITION. The commands of the ports and of the Weevil fault injector (R100 to R129): reception and refusal, receive rings,
HSR forwarding, transmission, pause, low-power idle, links, and the injector's rules. -/
namespace Sys2Proof.Machine

/-- Whether a number names a port. -/
def isPort (p : Nat) : Bool := decide (p < 11)

/-- The time of `n` bits on the line of a port. -/
def State.bitTime (s : State) (p n : Nat) : Time := (divUp (n * 65536) (s.gbit p)).toNat

/-! ### Pause received (R120) -/

/-- PAUSE_RX: a valid pause frame honoured or ignored. -/
def State.pauseRx (s : State) (p q : Nat) : State :=
  if !s.flag (F.MAC_CTL_RX_PAUSE_EN.pg p) || s.flag (F.MAC_STATUS_PAUSE_IGN.pg p) || p == 8 || p == 9 then s.macBump p 12
  else
    let s := s.macBump p 11
    if q = 0 then (s.modMac p (fun m => { m with pauseUntil := none })).setF (F.MAC_STATUS_PAUSED.pg p) 0
    else
      let till := s.now + s.bitTime p (q * 512)
      let paused := s.flag (F.MAC_STATUS_PAUSED.pg p)
      let s := s.modMac p (fun m => { m with pauseUntil := some till, pausedAt := if !paused && m.cur.isNone then s.now else m.pausedAt })
      if (s.macOf p).cur.isNone then s.setF (F.MAC_STATUS_PAUSED.pg p) 1 else s

/-! ### Reception (R110 to R113) -/

/-- Whether a frame may pass a ring port without an HSR tag (R110). -/
def Frame.untaggedOk (f : Frame) : Bool :=
  match f.body with
  | .pause _ => true
  | .lldp _ => true
  | .ptp _ _ _ => f.da == 0x0180C200000E
  | _ => false

/-- Whether a ring frame is to be forwarded (R110). -/
def State.forwards (s : State) (p : Nat) (f : Frame) : Bool :=
  s.redun p == 2 && f.red.isSome && f.sa != s.portAddr p && f.da != s.portAddr p

/-- The other port of a pair. -/
def otherPort (p : Nat) : Nat := if p % 2 = 0 then p + 1 else p - 1

/-- The sequence number of a frame's tag or trailer. -/
def Frame.rseq (f : Frame) : Nat := (f.red.map (fun r => r.seq)).getD 0

/-- Whether a pair has forwarded a frame within the last 400 ms (R111). -/
def State.remembered (s : State) (k : Nat) (f : Frame) : Bool :=
  (s.pairOf k).fwd.any (fun e => e.1 == f.sa && e.2.1 == Frame.rseq f && decide (s.now < e.2.2 + ms 400))

/-- A frame forwarded is remembered, in place of the oldest of 4,096, and counted (R111). -/
def State.remember (s : State) (p : Nat) (f : Frame) : State :=
  (s.modPair (p / 2) (fun x => { x with
    fwd := (if x.fwd.length < 4096 then x.fwd else x.fwd.drop 1) ++ [(f.sa, Frame.rseq f, s.now)] })).macBump p 16

/-- HSR_FORWARD: a frame goes on to the other ring port unless it is remembered (R111). Forwarding is cut-through, so one found
bad at its end has gone on too: it is sent there like any other, and ended with an invalid frame check sequence (DEDUCED,
log 226). -/
def State.hsrForward (s : State) (p : Nat) (f : Frame) (rxAt : Time) (bad : Bool) : State :=
  if s.remembered (p / 2) f then s.macBump p 17
  else
    let high := match Frame.tag f with
      | some v => decide (4 ≤ v.pcp)
      | none => f.etype == 0x88B8 || f.etype == 0x88BA
    (s.remember p f).txSubmit (otherPort p)
      { src := .forwarded, frame := f, cls := if high then 2 else 3, rxAt := some rxAt, badFcs := bad }

/-- A frame as the pair of its port reads it (R109, R110): on an HSR pair a PRP trailer is no HSR tag, on a PRP pair and on a single
port an HSR tag is an EtherType like another, and a single port takes no trailer. The EtherType of the tag is IEC 62439-3's
(PRESUMED, log 274). -/
def State.asPair (s : State) (p : Nat) (f : Frame) : Frame :=
  match f.red with
  | none => f
  | some r =>
    if r.hsr then if s.redun p = 2 then f else { f with red := none, etype := 0x892F, body := .plain }
    else if s.redun p = 1 then f else { f with red := none }

/-- The row of R113 that refuses a frame, by its counter; none passes. A pause frame is row 5, handled apart; a frame that a ring
brings back to its source is for R110 (DEDUCED, log 225). -/
def State.rxRefuses (s : State) (e : RxEvent) : Option Nat :=
  let p := e.port
  let f := e.frame
  let pause := match f.body with | .pause _ => true | _ => false
  let ctl := match f.body with | .macControl => true | _ => false
  if e.pcsErr || decide (0 < e.fecUncorr) then some 5
  else if f.len < 64 then some 3
  else if s.maxFrame p < f.len then some 4
  else if e.fcsErr then some 2
  else if ctl then some 13
  else if pause then none
  else if s.redun p == 2 && f.red.isNone && !Frame.untaggedOk f then some 15
  else if !bit 40 f.da && f.da != s.portAddr p && !s.forwards p f
      && !(s.redun p == 2 && f.red.isSome && f.sa == s.portAddr p) then some 8
  else none

/-- A good frame on its way from the MAC, behind the Weevil (R114). -/
def State.passOn (s : State) (h : RxHeld) : State :=
  let p := h.ev.port
  let f := h.ev.frame
  let s := match f.body with
    | .lldp (some tw) =>
      if s.flag (F.MAC_CTL_EEE_EN.pg p) then (s.setF (F.MAC_STATUS_TW_TX.pg p) tw).setF (F.MAC_STATUS_LLDP_EEE.pg p) 1 else s
    | .supervision =>
      if s.redun p = 0 then s
      else s.modPair (p / 2) (fun x => { x with nodes := if x.nodes.contains f.sa then x.nodes else x.nodes ++ [f.sa] })
    | _ => s
  if p < 8 then s.classify h.ev h.ts h.coarse
  else match f.body with
    | .pairMsg => if p = 10 then s.steer p f h.ts h.coarse else s
    | _ => s.steer p f h.ts h.coarse

/-- Four octets of a frame XORed with a mask, first octet in the high bits (R129). -/
def xorMask (off mask : Nat) (o : Octets) : Octets :=
  o.zipIdx.map (fun p => if off ≤ p.2 ∧ p.2 < off + 4 then p.1 ^^^ BitVec.ofNat 8 (mask / 2 ^ (8 * (3 - (p.2 - off)))) else p.1)

/-- LINK forced to 0 for `d` µs from now (R129). -/
def State.forceDown (s : State) (p d : Nat) : State := (s.linkFall p).modMac p (fun m => { m with wvlTill := some (s.now + us d) })

/-- A frame whose octets a PAYLOAD rule changed, read again from them: addresses, tag, EtherType and content (R129). One that holds
too few octets for a header keeps the one it had. -/
def Frame.reread (f : Frame) (raw : Octets) : Frame :=
  let w := fun i n => ofLe ((raw.drop i).take n).reverse
  let tagged := w 12 2 == 0x8100
  let double := w 12 2 == 0x88A8 || (tagged && (w 16 2 == 0x8100 || w 16 2 == 0x88A8))
  let f := { f with raw, body := Config.parseBody raw }
  if raw.length < 18 then f else { f with
    da := w 0 6, sa := w 6 6, doubleTag := double, etype := if tagged && !double then w 16 2 else w 12 2
    vlan := if tagged then some ⟨bits 15 13 (w 14 2), bit 12 (w 14 2), bits 11 0 (w 14 2)⟩ else none }

/-- Whether a command of its own brings a good frame to its block: a PTP message of the attachment, a message on the pair link. -/
def State.ownCommand (s : State) (p : Nat) (f : Frame) : Bool :=
  match f.body with
  | .ptp _ discard _ => !discard && s.attach.contains p && s.flag F.TBU_CTL_EN && !f.doubleTag
  | .pairMsg => p == 8 || p == 9
  | _ => false

/-- A good frame meets the Weevil's receive rules (R129). A message that its own command brings to its block meets them there, in
`weevilMsg` (DESIGN CHOICE, log 57). -/
def State.weevilRx (s : State) (h : RxHeld) : State :=
  let p := h.ev.port
  if s.ownCommand p h.ev.frame then s.passOn h else
  match s.wvlRule p false h.ev.frame with
  | none => s.passOn h
  | some r =>
    let x := s.wvlCount r
    match x.1 with
    | some 1 => x.2
    | some 2 => x.2
    | some 3 =>
      let off := s.get (F.WVL_RULE_ACTION_OFFSET.nth r)
      if h.ev.frame.len < off + 4 then x.2.passOn h
      else
        let raw := xorMask off (s.get (F.WVL_RULE_ACTION_MASK.nth r)) h.ev.frame.raw
        x.2.passOn { h with ev := { h.ev with frame := Frame.reread h.ev.frame raw } }
    | some 4 => x.2.modMac p (fun m => { m with rxDelay := m.rxDelay ++ [{ h with ts := h.ts + s.wvlDelay r }] })
    | some 5 => (x.2.passOn h).modMac p (fun m => { m with rxDup := m.rxDup ++ [{ h with ts := h.ts + us 1 }] })
    | some 6 => (x.2.passOn h).forceDown p (s.get (F.WVL_RULE_ACTION_DELAY.nth r))
    | some 7 => (x.2.passOn h).pauseRx p (s.get (F.WVL_RULE_ACTION_MASK.nth r) % 65536)
    | _ => x.2.passOn h

/-- A message of EtherType `e` on port `p` whose own command brings it to its block, `act`, under the Weevil's receive rules (R129):
dropped, held DELAY µs before it acts, taken again 1 µs later, or followed by a forced LINK 0 or a pause. Its operands are the
message as its block takes it, so a PAYLOAD rule's change is in them already (DESIGN CHOICE, log 57). -/
def State.weevilMsg (s : State) (p e : Nat) (act : State → State) : State :=
  let f : Frame := { da := 0, sa := 0, vlan := none, doubleTag := false, etype := e, len := 64, red := none, body := .plain, raw := [] }
  match s.wvlRule p false f with
  | none => act s
  | some r =>
    let x := s.wvlCount r
    match x.1 with
    | some 1 => x.2
    | some 2 => x.2
    | some 4 => act (x.2.advanceTo (s.now + s.wvlDelay r))
    | some 5 =>
      let t := act x.2
      act (t.advanceTo (s.now + us 1))
    | some 6 => (act x.2).forceDown p (s.get (F.WVL_RULE_ACTION_DELAY.nth r))
    | some 7 => (act x.2).pauseRx p (s.get (F.WVL_RULE_ACTION_MASK.nth r) % 65536)
    | _ => act x.2

/-- A PTP message on a port: on one of the attachment it meets the Weevil (R129). -/
def State.ptpMsg (s : State) (p : Nat) (act : State → State) : State :=
  if s.attach.contains p && s.flag F.TBU_CTL_EN then s.weevilMsg p 0x88F7 act else act s

/-- A message on the pair link meets the Weevil on the K port of this copy (R129). -/
def State.pairMsg (s : State) (p : Nat) (act : State → State) : State := s.weevilMsg p 0x88B5 act

/-- A frame as a PRP or HSR pair passes it on: the 6 octets of its trailer or tag are stripped (R109; of the tag DEDUCED,
log 224). -/
def State.stripped (s : State) (p : Nat) (f : Frame) : Frame :=
  if s.redun p != 0 && f.red.isSome then { f with len := f.len - 6 } else f

/-- A frame that passed every row of R113. -/
def State.rxGood (s : State) (e : RxEvent) : State :=
  let p := e.port
  let f := e.frame
  let s := (s.macBump p 0).bumpBy (macCnt p 1) f.len
  let s := match f.red with
    | some r => if s.redun p = 1 ∧ r.lan ≠ p % 2 then s.macBump p 14 else s
    | none => s
  let t := s.rxStamp p e.code
  let ring := s.redun p == 2 && f.red.isSome
  if ring && f.sa == s.portAddr p then s.macBump p 18
  else
    let s := if s.forwards p f then s.hsrForward p f t.1 false else s
    if ring && !bit 40 f.da && f.da != s.portAddr p then s
    else s.weevilRx ⟨{ e with frame := s.stripped p f }, t.1, t.2⟩

/-- MAC_RX_FRAME: a frame arrives; a disabled port discards it without counting (R104, R113). A pause frame addressed neither to
the group address nor to ADDR is not valid (R120), and row 5 of R113 names no counter for it: the model drops it uncounted
(DESIGN CHOICE, log 227). -/
def macRxFrame (e : RxEvent) (s : State) : State :=
  let p := e.port
  if !isPort p || !s.portEn p then s
  else
    let e := { e with frame := s.asPair p e.frame }
    let s := (s.bumpBy (macCnt p 6) e.fecCorr).bumpBy (macCnt p 7) e.fecUncorr |>.setB (F.MAC_STATUS_RX_LPI.pg p) e.lpi
    match s.rxRefuses e with
    | some n =>
      let s := s.macBump p n
      if (n == 5 || n == 2 || n == 3 || n == 4) && s.forwards p e.frame then s.hsrForward p e.frame (s.rxStamp p e.code).1 true else s
    | none =>
      match e.frame.body with
      | .pause q => if e.frame.da = 0x0180C2000001 ∨ e.frame.da = s.portAddr p then s.pauseRx p q else s
      | _ => s.rxGood e

/-! ### Receive rings (R115, R116, R336) -/

/-- The words 1 to 3 of descriptor `i` of `k` of a frame in a ring (R336). -/
def rxWords (g : Staged) (port red : Nat) (i k bytes status : Nat) : List Nat :=
  let f := g.frame
  let seq := if red = 0 then none else f.red
  let tag := Frame.tag f
  let tci := match tag with | some v => place 15 13 v.pcp + place 12 12 (b2n v.dei) + place 11 0 v.vid | none => 0
  [place 63 63 1 + place 62 62 (b2n (i == 0)) + place 61 61 (b2n (i + 1 == k)) + place 60 57 port + place 56 56 (b2n tag.isSome)
     + place 55 55 (b2n g.coarse) + place 54 54 (b2n seq.isSome) + place 53 53 (if seq.isSome then port % 2 else 0)
     + place 52 52 (b2n g.copyCtx.isSome) + place 47 32 ((seq.map (fun x => x.seq)).getD 0) + place 31 16 tci + place 15 0 bytes,
   Time.gt64 g.ts,
   place 63 48 (if i + 1 = k then f.len else 0) + place 47 36 (g.copyCtx.getD 0) + place 31 24 status]

/-- RX_DESCRIPTORS_COMPLETE: the oldest staged frame of a port goes into the descriptors claimed for it, once those before them
in the ring are completed (R115, R116); of an old generation nothing is written (R349). -/
def rxDescriptorsComplete (p : Nat) (s : State) : State :=
  match (s.macOf p).staging with
  | [] => s
  | g :: rest =>
    let r := g.ring
    let w := s.sltEnt 2 r
    let n := rgSlice w
    let drop := (s.modMac p (fun m => { m with staging := rest })).pauseLevel p
    if (s.slice n).gen != g.gen then drop
    else if g.first % 65536 != (s.ring r).head % 65536 then s
    else
      let part := fun i => min (rgBuf w) (g.frame.len - i * rgBuf w)
      let s := forN g.n (fun s i =>
        let a := s.descAddr r (g.first + i)
        let buf := s.rd64 a
        let good := s.dramOwned n a 32 && s.dramOwned n buf (part i)
        let s := if good then s.wrOctets buf ((g.frame.raw.drop (i * rgBuf w)).take (part i)) else s
        s.sliceWr n (a + 8) (rxWords g p (s.redun p) i g.n (part i) (if good then 0 else 1))) drop
      let bad := (List.range g.n).any (fun i =>
        let a := s.descAddr r (g.first + i)
        !(s.dramOwned n a 32 && s.dramOwned n (s.rd64 a) (part i)))
      let s := (s.modRing r (fun x => { x with claimed := x.claimed - g.n })).advanceHead r g.n
      if bad then (s.modSlice n (fun x => { x with descErr := satInc 32 x.descErr })).sliceError n else s

/-! ### Links (R106, R107, R129) -/

/-- LINK_UP (R101, R106): block lock is gained, with alignment lock where the port runs RS-FEC; once it has `held` for 10 ms,
LINK rises. On M0 LINK follows the SGMII control word: up at 1000 Mbit/s full duplex alone. BLOCK_LOCK of M0 shows that a control
word came: the spec says of the SGMII port no more than of the others (DESIGN CHOICE, log 275). -/
def linkUp (p : Nat) (held : Bool) (speed : Nat) (full : Bool) (s : State) : State :=
  if !isPort p then s
  else
    let s := s.setF (F.MAC_STATUS_BLOCK_LOCK.pg p) 1
    if p = 10 then
      let ok := decide (speed = 1000) && full
      let s := s.modMac p (fun m => { m with lock := ok })
      if !ok then s.linkFall p else if (s.macOf p).wvlTill.isSome then s else s.setF (F.MAC_STATUS_LINK.pg p) 1
    else
      let s := s.setB (F.MAC_STATUS_FEC_LOCK.pg p) (s.flag (F.MAC_CTL_FEC.pg p))
      if !held then s.modMac p (fun m => { m with lockAt := if m.lock then none else some (m.lockAt.getD s.now) })
      else
        let s := match (s.macOf p).lockAt with | some t => s.advanceTo (t + ms 10) | none => s
        let s := s.modMac p (fun m => { m with lock := true, lockAt := none })
        if (s.macOf p).wvlTill.isSome then s else s.setF (F.MAC_STATUS_LINK.pg p) 1

/-- LINK_DOWN (R106): block lock (0) or alignment lock (1) is lost, or the bit error rate is high (2). -/
def linkDown (p cause : Nat) (s : State) : State :=
  if !isPort p then s
  else
    let s := s.modMac p (fun m => { m with lock := false, lockAt := none })
    let s := if cause = 0 then s.setF (F.MAC_STATUS_BLOCK_LOCK.pg p) 0 else s
    (if cause ≤ 1 then s.setF (F.MAC_STATUS_FEC_LOCK.pg p) 0 else s).linkFall p

/-- WEEVIL_LINK_DOWN_END: DELAY µs after it was forced, LINK is released (R129). -/
def weevilLinkDownEnd (p : Nat) (s : State) : State :=
  match (s.macOf p).wvlTill with
  | none => s
  | some t =>
    let s := (s.advanceTo t).modMac p (fun m => { m with wvlTill := none })
    if (s.macOf p).lock then s.setF (F.MAC_STATUS_LINK.pg p) 1 else s

/-! ### Transmission (R107, R117, R119) -/

/-- The next frame of a port: the lowest class first, the oldest of its class (R117). -/
def Mac.next (m : Mac) : Option TxFrame :=
  let rel := m.q.filter (fun f => f.rel)
  match rel.find? (fun f => f.cls == 1), rel.find? (fun f => f.cls == 2) with
  | some f, _ => some f
  | none, some f => some f
  | none, none => rel.head?

/-- The queue without a frame. -/
def Mac.without (m : Mac) (f : TxFrame) : Mac := { m with q := m.q.erase f }

/-- A forwarded PTP event message with its residence time added to correctionField (R91). -/
def TxFrame.resident (f : TxFrame) (t : Time) : TxFrame :=
  match f.rxAt, f.frame.body with
  | some r, .ptp true d m => { f with frame := { f.frame with body := .ptp true d { m with corr := m.corr + ((t : Int) - r) } } }
  | _, _ => f

/-- The next frame starts, or, with LINK at 0, is discarded at the head of its queue. The fine code of
the transmit capture is open (R87, log 54). -/
def State.startNext (s : State) (p : Nat) : State :=
  match (s.macOf p).next with
  | none => s
  | some f =>
    let s := s.modMac p (fun m => m.without f)
    if !s.link p then (s.macBump p 22).txFail f 5
    else
      let t := (s.txStamp p (s.freeVal 8)).1
      let s := s.drawn.modMac p (fun m => { m with cur := some (f.resident t), curAt := s.now, curTs := t })
      match f.src with
      | .ptp kind seq => s.ptpStarted p kind seq t
      | _ => s

/-- MAC_TX_START: the line is free, not paused and not in low-power idle. With LINK at 0 the frame at the head of its queue is
discarded, paused or not: a pause keeps frames from starting, and this one does not start (R107, R120). -/
def macTxStart (p : Nat) (s : State) : State :=
  let m := s.macOf p
  let waits := s.flag (F.MAC_STATUS_PAUSED.pg p) || s.flag (F.MAC_STATUS_TX_LPI.pg p)
  if !isPort p || !s.portEn p || m.stopped || m.cur.isSome || (s.link p && waits) then s
  else s.startNext p

/-- MAC_TX_END: the frame in transmission ends: its counts, its ring's write-back, and a pause or a forced link that waited for
it (R117, R120, R129). -/
def macTxEnd (p : Nat) (s : State) : State :=
  let m := s.macOf p
  match m.cur with
  | none => s
  | some f =>
    let len := max 64 f.frame.len
    let s := s.advanceTo (m.curAt + s.bitTime p ((len + 8) * 8))
    let s := s.modMac p (fun m => { m with cur := none, sent := some f, idleAt := s.now })
    let s := if f.badFcs then s.macBump p 21 else (s.macBump p 19).bumpBy (macCnt p 20) len
    let s := s.txCopyEnd f 0 (Time.gt64 m.curTs)
    let s := s.pauseRise p
    if f.wvlDown = 0 then s else s.forceDown p (f.wvlDown - 1)

/-- HSR_ENTRY_EXPIRY: 400 ms after it was made, an entry of the forwarding memory is forgotten (R111). -/
def hsrEntryExpiry (k sa seq : Nat) (s : State) : State :=
  let mine := fun (e : Nat × Nat × Time) => e.1 == sa && e.2.1 == seq
  match (s.pairOf k).fwd.find? mine with
  | none => s
  | some e => (s.advanceTo (e.2.2 + ms 400)).modPair k (fun x => { x with fwd := x.fwd.filter (fun e => !mine e) })

/-- SUPERVISION_TX: a pair sends its supervision frame with the tag configured for it, 2,000 ms after the last (R112), on each of
its ports that is enabled. -/
def supervisionTx (k : Nat) (s : State) : State :=
  let p := 2 * k
  if !decide (k < 4) || s.redun p == 0 || !(s.portEn p || s.portEn (p + 1)) then s
  else
    let s := match (s.pairOf k).supAt with | some t => s.advanceTo (t + ms 2000) | none => s
    let f : Frame := { da := 0x01154E000100, sa := s.portAddr p, vlan := (s.pairOf k).tag, doubleTag := false, etype := 0x88FB
                       len := Config.encLen 1 k, red := none, body := .supervision, raw := [] }
    (s.modPair k (fun x => { x with supAt := some s.now })).txPair p { src := .supervision, frame := f, cls := 2 }

/-! ### Pause timers (R120 to R122) -/

/-- PAUSE_END: the pause time runs out. -/
def pauseEnd (p : Nat) (s : State) : State :=
  match (s.macOf p).pauseUntil with
  | none => s
  | some t => ((s.advanceTo t).modMac p (fun m => { m with pauseUntil := none })).setF (F.MAC_STATUS_PAUSED.pg p) 0

/-- PAUSE_WD: paused for WD_TIME without a break (R121). -/
def pauseWd (p : Nat) (s : State) : State :=
  let wd := s.get (F.MAC_PAUSE_CFG_WD_TIME.pg p)
  let m := s.macOf p
  let t := m.pausedAt + us (10 * wd)
  match s.flag (F.MAC_STATUS_PAUSED.pg p) && wd != 0, m.pauseUntil with
  | true, some u =>
    if u < t then s
    else
      let s := s.advanceTo t
      let s := (s.modMac p (fun m => { m with pauseUntil := none, ignFrom := s.now })).setF (F.MAC_STATUS_PAUSED.pg p) 0
      ((s.setF (F.MAC_STATUS_PAUSE_IGN.pg p) 1).macBump p 26).belfry 1 0x0003 p []
  | _, _ => s

/-- PAUSE_IGNORE_END: IGN_TIME after a trip (R121). -/
def pauseIgnoreEnd (p : Nat) (s : State) : State :=
  if !s.flag (F.MAC_STATUS_PAUSE_IGN.pg p) then s
  else (s.advanceTo ((s.macOf p).ignFrom + ms (max 1 (s.get (F.MAC_PAUSE_CFG_IGN_TIME.pg p))))).setF (F.MAC_STATUS_PAUSE_IGN.pg p) 0

/-- PAUSE_REPEAT: half the pause time after the last pause frame, staging still above 50 % (R122). -/
def pauseRepeat (p : Nat) (s : State) : State :=
  let m := s.macOf p
  let q := s.get (F.MAC_PAUSE_CFG_TX_QUANTA.pg p)
  if !m.pauseStay || decide (m.staged ≤ 131072) || !s.flag (F.MAC_CTL_TX_PAUSE_EN.pg p) || q == 0 then s
  else (s.advanceTo (m.pauseTxAt + s.bitTime p (q * 512) / 2)).pauseSend p q

/-! ### Energy-Efficient Ethernet (R123, R124) -/

/-- Whether low-power idle is used on a port at all: a station port or M0 (R123). -/
def State.eeeRole (s : State) (p : Nat) : Bool := p == 10 || (decide (p < 8) && s.flag (F.MAC_CTL_ROLE.pg p))

/-- Whether a port may enter low-power idle: a station port or M0 with EEE_EN, its wake times negotiated. -/
def State.eeePort (s : State) (p : Nat) : Bool :=
  s.flag (F.MAC_CTL_EEE_EN.pg p) && s.flag (F.MAC_STATUS_LLDP_EEE.pg p) && s.eeeRole p

/-- LPI_ENTRY: nothing to send for IDLE_ENTRY × 10 µs. -/
def lpiEntry (p : Nat) (s : State) : State :=
  let m := s.macOf p
  if !isPort p || !s.portEn p || !s.eeePort p || m.cur.isSome || m.next.isSome || s.flag (F.MAC_STATUS_TX_LPI.pg p) then s
  else
    let s := s.advanceTo (m.idleAt + us (10 * max 1 (s.get (F.MAC_EEE_CFG_IDLE_ENTRY.pg p))))
    ((s.macBump p 27).modMac p (fun m => { m with readyAt := none })).setF (F.MAC_STATUS_TX_LPI.pg p) 1

/-- LPI_WAKE_END: TW_TX after a frame became ready, the port sends it. -/
def lpiWakeEnd (p : Nat) (s : State) : State :=
  let m := s.macOf p
  if !isPort p || !s.flag (F.MAC_STATUS_TX_LPI.pg p) || m.next.isNone || m.stopped then s
  else
    let ready := m.readyAt.getD s.now
    let s := (s.advanceTo (ready + us (s.get (F.MAC_STATUS_TW_TX.pg p)))).setF (F.MAC_STATUS_TX_LPI.pg p) 0
    let s := s.modMac p (fun m => { m with readyAt := none })
    if s.flag (F.MAC_STATUS_PAUSED.pg p) then s else s.startNext p

/-- LLDP_TX: the TMC's agent sends an LLDPDU: the chassis and port TLVs of the bundle, here the frame's octets, and the EEE TLV,
which a process port never advertises (R123, R124). -/
def lldpTx (p : Nat) (s : State) : State :=
  if !isPort p || p == 8 || p == 9 || !s.flag (F.MAC_CTL_EEE_EN.pg p) then s
  else
    let f : Frame := { da := 0x0180C200000E, sa := s.portAddr p, vlan := none, doubleTag := false, etype := 0x88CC
                       len := Config.encLen 2 p, red := none, raw := s.textOf 3 p
                       body := .lldp (if s.eeeRole p then some (s.get (F.MAC_EEE_CFG_TW_RX_REQ.pg p)) else none) }
    (s.modMac p (fun m => { m with lldpSent := m.lldpSent + 1 })).txPair p { src := .lldp, frame := f, cls := 2 }

/-! ### Weevil (R128, R129) -/

/-- WEEVIL_DELAY_END: the oldest delayed frame of a port and direction goes on. -/
def weevilDelayEnd (p : Nat) (tx : Bool) (s : State) : State :=
  let m := s.macOf p
  if tx then
    match m.txDelay with
    | [] => s
    | f :: rest => ((s.advanceTo f.1).modMac p (fun m => { m with txDelay := rest })).toClass p f.2
  else
    match m.rxDelay with
    | [] => s
    | h :: rest => ((s.advanceTo h.ts).modMac p (fun m => { m with rxDelay := rest })).passOn h

/-- WEEVIL_DUPLICATE_COPY: the second copy follows 1 µs later. -/
def weevilDuplicateCopy (p : Nat) (s : State) : State :=
  match (s.macOf p).rxDup with
  | [] => s
  | h :: rest => ((s.advanceTo h.ts).modMac p (fun m => { m with rxDup := rest })).passOn h

/-- The Weevil armed or disarmed, with its Belfry entry and an extend of MS7; arming is ignored while ALLOW is 0 (R128, R423). -/
def State.wvlArm (s : State) (on : Bool) : State :=
  if on && !s.flag F.WVL_CTL_ALLOW then s
  else if s.flag F.WVL_CTL_ARM == on then s
  else ((s.setB F.WVL_CTL_ARM on).belfry 1 0x0004 0 [b2n on]).extendMs 7 (Config.eventDigest 7 [b2n on])

/-- A write of RULE_COUNT restarts the rule's counts (R129). -/
def State.wvlRestart (s : State) (r v : Nat) : State :=
  let s := (s.setF (F.WVL_RULE_COUNT_EVERY.nth r) (bits 31 16 v)).setF (F.WVL_RULE_COUNT_LIMIT.nth r) (bits 15 0 v)
  { s with wvl := { seen := Tbl.set 0 r 0 s.wvl.seen, acted := Tbl.set 0 r 0 s.wvl.acted } }

/-- WVL_ARM_WRITE: a fabric write of WVL.CTL; ALLOW is locked after commit. -/
def wvlArmWrite (m : Master) (v : Nat) (s : State) : State :=
  s.granted m F.WVL_CTL_ARM.addr (fun s =>
    let t := s.wvlArm (bit 0 v)
    if s.tmc.locked then t else t.setB F.WVL_CTL_ALLOW (bit 1 v))

/-- WVL_RULE_COUNT_WRITE: a fabric write of WVL.RULE_COUNT. -/
def wvlRuleCountWrite (m : Master) (r v : Nat) (s : State) : State :=
  if r < 16 then s.granted m (F.WVL_RULE_COUNT_EVERY.nth r).addr (fun s => s.wvlRestart r v) else s.busError

/-- MAC_RX_FRAME. -/
def execMacRxFrame (e : RxEvent) (s : State) : Result := .next (macRxFrame e s)
/-- RX_DESCRIPTORS_COMPLETE. -/
def execRxDescriptorsComplete (port : Nat) (s : State) : Result := .next (rxDescriptorsComplete port s)
/-- LINK_UP. -/
def execLinkUp (l : LinkReport) (s : State) : Result := .next (linkUp l.port l.held l.speed l.full s)
/-- LINK_DOWN. -/
def execLinkDown (l : LinkLoss) (s : State) : Result := .next (linkDown l.port l.cause s)
/-- MAC_TX_START. -/
def execMacTxStart (port : Nat) (s : State) : Result := .next (macTxStart port s)
/-- MAC_TX_END. -/
def execMacTxEnd (port : Nat) (s : State) : Result := .next (macTxEnd port s)
/-- HSR_ENTRY_EXPIRY. -/
def execHsrEntryExpiry (pair sa seq : Nat) (s : State) : Result := .next (hsrEntryExpiry pair sa seq s)
/-- SUPERVISION_TX. -/
def execSupervisionTx (pair : Nat) (s : State) : Result := .next (supervisionTx pair s)
/-- PAUSE_END. -/
def execPauseEnd (port : Nat) (s : State) : Result := .next (pauseEnd port s)
/-- PAUSE_WD. -/
def execPauseWd (port : Nat) (s : State) : Result := .next (pauseWd port s)
/-- PAUSE_IGNORE_END. -/
def execPauseIgnoreEnd (port : Nat) (s : State) : Result := .next (pauseIgnoreEnd port s)
/-- PAUSE_REPEAT. -/
def execPauseRepeat (port : Nat) (s : State) : Result := .next (pauseRepeat port s)
/-- LPI_ENTRY. -/
def execLpiEntry (port : Nat) (s : State) : Result := .next (lpiEntry port s)
/-- LPI_WAKE_END. -/
def execLpiWakeEnd (port : Nat) (s : State) : Result := .next (lpiWakeEnd port s)
/-- LLDP_TX. -/
def execLldpTx (port : Nat) (s : State) : Result := .next (lldpTx port s)
/-- WEEVIL_DELAY_END. -/
def execWeevilDelayEnd (port : Nat) (tx : Bool) (s : State) : Result := .next (weevilDelayEnd port tx s)
/-- WEEVIL_DUPLICATE_COPY. -/
def execWeevilDuplicateCopy (port : Nat) (s : State) : Result := .next (weevilDuplicateCopy port s)
/-- WEEVIL_LINK_DOWN_END. -/
def execWeevilLinkDownEnd (port : Nat) (s : State) : Result := .next (weevilLinkDownEnd port s)
/-- WVL_ARM_WRITE. -/
def execWvlArmWrite (m : Master) (value : Nat) (s : State) : Result := .next (wvlArmWrite m value s)
/-- WVL_RULE_COUNT_WRITE. -/
def execWvlRuleCountWrite (m : Master) (rule value : Nat) (s : State) : Result := .next (wvlRuleCountWrite m rule value s)

/-- The state after a command of the timebase, the publications following where a step of time changed a group key (R421, R422). -/
def State.keysAfter (s t : State) : State := if t.dom.nodes = s.dom.nodes then t else s.keysFollow t

/-- PTP_SYNC_RX. -/
def execPtpSyncRx (m : PtpSync) (s : State) : Result := .next (s.ptpMsg m.port (fun s => s.keysAfter (ptpSyncRx m s)))
/-- PTP_FOLLOW_UP_RX. -/
def execPtpFollowUpRx (m : PtpSync) (s : State) : Result := .next (s.ptpMsg m.port (fun s => s.keysAfter (ptpFollowUpRx m s)))
/-- PTP_ANNOUNCE_RX. -/
def execPtpAnnounceRx (m : PtpAnnounce) (s : State) : Result := .next (s.ptpMsg m.port (ptpAnnounceRx m))
/-- PTP_PDELAY_REQ_RX. -/
def execPtpPdelayReqRx (port domain seq : Nat) (rx : PdelayMark) (s : State) : Result :=
  .next (s.ptpMsg port (ptpPdelayReqRx port domain seq rx.logInt rx.code))
/-- PTP_PDELAY_RESP_RX. -/
def execPtpPdelayRespRx (m : PtpPdelay) (s : State) : Result := .next (s.ptpMsg m.port (ptpPdelayRespRx m))
/-- PDELAY_RESP_FOLLOW_UP_RX. -/
def execPdelayRespFollowUpRx (m : PtpPdelay) (s : State) : Result := .next (s.ptpMsg m.port (pdelayRespFollowUpRx m))

end Sys2Proof.Machine
end

