-- ==== Sys2Proof/Machine/WeevilCmds.lean ====
section
/-! DEFINITION. The Test and Weevil commands of Patchaif (R128, R129, R455). -/
namespace Sys2Proof.Machine

/-- WEEVIL_STATUS: the WVL registers in ascending offset, the HITS counters last, cleared where asked (R447). -/
def weevilStatusAct (clear : Bool) (s : State) : Ans × State :=
  let rule := fun (r : Nat) =>
    s.regOctets 8 (([F.WVL_RULE_MATCH_EN, F.WVL_RULE_MATCH_DIR, F.WVL_RULE_MATCH_PORT, F.WVL_RULE_MATCH_ETYPE_EN,
        F.WVL_RULE_MATCH_APPID_EN, F.WVL_RULE_MATCH_ETYPE, F.WVL_RULE_MATCH_APPID] : List Field).map (Field.nth · r))
      ++ s.regOctets 8 (([F.WVL_RULE_ACTION_ACTION, F.WVL_RULE_ACTION_OFFSET, F.WVL_RULE_ACTION_DELAY,
        F.WVL_RULE_ACTION_MASK] : List Field).map (Field.nth · r))
      ++ s.regOctets 4 (([F.WVL_RULE_COUNT_EVERY, F.WVL_RULE_COUNT_LIMIT] : List Field).map (Field.nth · r))
  let o := s.regOctets 4 [F.WVL_CTL_ALLOW, F.WVL_CTL_ARM] ++ (List.range 16).flatMap rule
    ++ (List.range 16).flatMap (fun r => le 4 (s.get (F.WVL_RULE_HITS_HITS.nth r)))
  (.done o, s.clearCnt F.WVL_RULE_HITS_HITS 0 16 clear)

/-- WEEVIL_RULE: RULE_MATCH, RULE_ACTION and RULE_COUNT of one rule; a write of RULE_COUNT restarts its counts. -/
def weevilRuleAct (r m a c : Nat) (s : State) : Ans × State :=
  if 16 ≤ r ∨ m % 2 ^ 24 ≠ 0 then (.fail stBadParam 0x14 0 r, s)
  else
    let put := fun (s : State) (p : Field × Nat) => s.setF (p.1.nth r) p.2
    let s := ([(F.WVL_RULE_MATCH_EN, bits 63 63 m), (F.WVL_RULE_MATCH_DIR, bits 62 62 m), (F.WVL_RULE_MATCH_PORT, bits 61 58 m),
      (F.WVL_RULE_MATCH_ETYPE_EN, bits 57 57 m), (F.WVL_RULE_MATCH_APPID_EN, bits 56 56 m),
      (F.WVL_RULE_MATCH_ETYPE, bits 55 40 m), (F.WVL_RULE_MATCH_APPID, bits 39 24 m),
      (F.WVL_RULE_ACTION_ACTION, bits 63 60 a), (F.WVL_RULE_ACTION_OFFSET, bits 59 48 a),
      (F.WVL_RULE_ACTION_DELAY, bits 47 32 a), (F.WVL_RULE_ACTION_MASK, bits 31 0 a)] : List (Field × Nat)).foldl put s
    (.done [], s.wvlRestart r c)

/-- WEEVIL_ARM: arming while ALLOW is 0 is disabled (R456). -/
def weevilArmAct (arm : Bool) (s : State) : Ans × State :=
  if arm && !s.flag F.WVL_CTL_ALLOW then (.fail stDisabled 0x14 0 0, s) else (.done [], s.wvlArm arm)

/-- WEEVIL_STATUS. -/
def execWeevilStatus (q : Req) (clear : Bool) (s : State) : Result :=
  s.patchaif q 0x0D01 (flagOctets clear) false false (weevilStatusAct clear)
/-- WEEVIL_RULE. -/
def execWeevilRule (q : Req) (rule mtch action count : Nat) (s : State) : Result :=
  s.patchaif q 0x0D02 (le 4 rule ++ le 8 mtch ++ le 8 action ++ le 4 count) false false (weevilRuleAct rule mtch action count)
/-- WEEVIL_ARM. -/
def execWeevilArm (q : Req) (arm : Bool) (s : State) : Result := s.patchaif q 0x0D03 (flagOctets arm) false false (weevilArmAct arm)

end Sys2Proof.Machine
end

