-- ==== Sys2Proof/Machine/Management.lean ====
section
/-! DEFINITION. The management transports and the System commands (R437 to R454): packets, the mailbox, TLS sessions, jobs, the
reset command and transfer objects. -/
namespace Sys2Proof.Machine

/-! ### Packets (R437, R438, R446, R455) -/

/-- FRAME. -/
def stFrame : Nat := 0x0101
/-- VERSION. -/
def stVersion : Nat := 0x0102
/-- TAG_IN_USE. -/
def stTagInUse : Nat := 0x0103
/-- UNKNOWN_OPCODE. -/
def stUnknownOpcode : Nat := 0x0201
/-- UNSUPPORTED_FIELD. -/
def stUnsupportedField : Nat := 0x0203

/-- The opcodes of each group: the group, the lowest and the highest command (R455). -/
def opRanges : List (Nat × Nat × Nat) :=
  [(0x01, 0x01, 0x08), (0x01, 0x10, 0x14), (0x02, 0x01, 0x0B), (0x03, 0x01, 0x06), (0x04, 0x01, 0x04), (0x05, 0x01, 0x03),
    (0x06, 0x01, 0x09), (0x07, 0x01, 0x03), (0x08, 0x01, 0x07), (0x09, 0x01, 0x05), (0x0A, 0x01, 0x04), (0x0B, 0x01, 0x0E),
    (0x0C, 0x01, 0x06), (0x0D, 0x01, 0x03)]

/-- Whether R455 lists an opcode. -/
def knownOp (op : Nat) : Bool :=
  opRanges.any (fun r => r.1 == op / 256 && decide (r.2.1 ≤ op % 256) && decide (op % 256 ≤ r.2.2))

/-- Whether parameters of their layout's length hold a value without a meaning: a buffer beside 'all' in REC_RELEASE, a source of
REC_EXPORT that is neither a stored record nor a buffer reference. -/
def meaningless (op : Nat) (ps : Octets) : Bool :=
  if op = 0x0806 then ofLe ((ps.drop 4).take 1) == 1 && ofLe ((ps.drop 5).take 4) != 0
  else if op = 0x0807 then
    (List.range (ofLe ((ps.drop 33).take 2))).any (fun i =>
      let e := ps.drop (35 + 17 * i)
      let kind := ofLe (e.take 1)
      decide (1 < kind) || (kind == 0 && ofLe ((e.drop 9).take 8) != 0) || (kind == 1 && !(Part.buf.read (e.drop 1)).2))
  else false

/-- The parameters at minor 0: the status and ITEM that refuse them, or the octets of the 1.0 layout (R446, R447). -/
def paramsAt0 (op minor : Nat) (ps : Octets) : (Nat × Nat) ⊕ Octets :=
  match layoutLen (layoutOf op) ps with
  | none => .inl (stBadParam, 0)
  | some (n, clean) =>
    if minor = 0 ∧ n < ps.length then .inl (stBadParam, 0)
    else match (ps.drop n).findIdx? (fun b => b != 0) with
      | some i => .inl (stUnsupportedField, n + i)
      | none => if !clean || meaningless op (ps.take n) then .inl (stBadParam, 0) else .inr (ps.take n)

/-- The place in the Dome mailbox that a packet names in place of its parameters: 8 octets, offset and length, for a Security command
whose parameters a packet may be too short for (R433; DESIGN CHOICE, log 292). -/
def boxOf (op : Nat) (ps : Octets) : Option (Nat × Nat) :=
  if [0x0B05, 0x0B06, 0x0B08, 0x0B0E].contains op && ps.length == 8 then some (ofLe (ps.take 4), ofLe (ps.drop 4)) else none

/-- The parameters of a packet with the place that held them, or what refuses them (R433, R446). -/
def State.params (s : State) (op minor : Nat) (ps : Octets) : (Nat × Nat) ⊕ (Octets × Option (Nat × Nat)) :=
  match boxOf op ps with
  | none => match paramsAt0 op minor ps with
    | .inl e => .inl e
    | .inr o => .inr (o, none)
  | some b => match s.boxed b with
    | none => .inl (stBadParam, 0)
    | some o => match paramsAt0 op 0 o with
      | .inl e => .inl e
      | .inr o => .inr (o, some b)

/-- A reply decided by a packet's octets alone: it ends no tag, and follows the replies of the packets before it. -/
def State.reject (s : State) (n op tag status item : Nat) : State :=
  s.putReplies n (fun l => l ++ [⟨tag, status, replyPacket op tag (sessSlice n) 1 status (detail 0xFF 0 item)⟩])

/-- Row 1 of R438: a packet that is none; `limit` is the transport's. -/
def badFrame (o : Octets) (limit : Nat) : Bool :=
  let len := hdr o 12 4
  decide (o.length < 20) || hdr o 0 2 != 0x5046 || decide (limit < 20 + len) || o.length != 20 + len
    || crc32c (o.take (16 + len)) != hdr o (16 + len) 4

/-- A frame error counted: over TLS, which acts with the rights of slice 0, in its mailbox's register (R438, R444). -/
def State.frameErr (s : State) (n : Nat) : State := s.bump (F.TMC_MBX_CNT_FRAME_ERR.pg (sessSlice n))

/-- A received packet decided in the order of R438; one that is executed waits in the TMC under its tag (R449, R451). -/
def State.packet (s : State) (n : Nat) (o : Octets) (limit : Nat) : State :=
  let op := hdr o 4 2
  let tag := hdr o 6 2
  let x := s.session n
  if badFrame o limit then (s.frameErr n).reject n op 0xFFFF stFrame 0
  else if hdr o 2 1 ≠ 1 then s.reject n op tag stVersion 0
  else if hdr o 9 1 ≠ 0 ∨ 128 ≤ hdr o 8 1 then s.reject n op tag stBadParam 0
  else if tag = 0xFFFF ∨ x.tags.contains tag then s.reject n op tag stTagInUse 0
  else if 16 ≤ x.tags.length then s.reject n op tag stBusy 0
  else if hdr o 8 1 ≠ sessSlice n then s.reject n op tag stNotPermitted 0
  else if !knownOp op then s.reject n op tag stUnknownOpcode 0
  else match s.params op (hdr o 3 1) ((o.drop 16).take (hdr o 12 4)) with
    | .inl e => s.reject n op tag e.1 e.2
    | .inr r =>
      let s := s.accept n tag
      { s with tmc := { s.tmc with taken := s.tmc.taken ++ [⟨n, tag, op, r.1, r.2, true⟩] } }

/-! ### The mailbox (R439 to R441) -/

/-- Octets of the packet in a mailbox's request area, cut at the transport limit. -/
def State.mbxPacket (s : State) (n : Nat) : Octets :=
  memTake s.mem (min 16128 (20 + s.rd (mbxBase n + 0x10C) 4)) (mbxBase n + 0x100)

/-- MBX_DOORBELL: REQ written 1 takes the packet; REQ_BUSY falls when it is copied. The mailboxes are served from PREPARE on
(R491). -/
def mbxDoorbell (m : Master) (page value : Nat) (s : State) : State :=
  if !s.sup.coresUp then s
  else s.pageWrite m page 0x8000 [1, 2, 3, 4, 5] (fun s =>
    if value % 2 = 0 then s
    else if s.flag (F.TMC_MBX_STATUS_REQ_BUSY.pg page) then s.bump (F.TMC_MBX_CNT_DB_IGNORED.pg page)
    else s.packet page (s.mbxPacket page) 16128)

/-- MBX_ACK: DONE written 1 ends the posted reply; the next is posted. -/
def mbxAck (m : Master) (page value : Nat) (s : State) : State :=
  s.pageWrite m page 0x8008 [1, 2, 3, 4, 5] (fun s =>
    if value % 2 = 0 ∨ (s.session page).posted.isNone then s
    else
      ((s.modSess page (fun x => { x with posted := none })).setF (F.TMC_MBX_STATUS_REPLY_READY.pg page) 0).postReply page)

/-! ### TLS (R442 to R444) -/

/-- The keys under one of which a client's certificate must be signed: the tool CA keys of the committed bundle, before the first
commit the anchors of usage BUNDLE. -/
def State.clientKeys (s : State) : List Nat :=
  match s.tmc.active with
  | some b => bundleCas b
  | none => s.anchors 0 [4, 5, 6]

/-- The IPv6 link-local address of a MAC address (R442; RFC 4291). -/
def linkLocal (mac : Nat) : Nat :=
  0xFE80 * 2 ^ 112 + (mac / 2 ^ 24 % 2 ^ 24 ^^^ 0x020000) * 2 ^ 40 + 0xFFFE * 2 ^ 24 + mac % 2 ^ 24

/-- The addresses and the port of M0: of the committed bundle, before the first commit the link-local address alone (R442). -/
def State.net (s : State) : NetCfg :=
  match s.tmc.active with
  | some b => bundleNet b
  | none => ⟨none, linkLocal (Config.factoryMac % 2 ^ 48), 7447⟩

/-- Whether a handshake is one that M0 serves: at its address and port, within the subset (R442). -/
def State.offerOk (s : State) (o : TlsOffer) : Bool :=
  o.port == s.net.port && (if o.v6 then o.dst == s.net.ip6 else s.net.ip4 == some o.dst)
    && o.suiteOk && o.groupOk && o.sigOk && o.clientCertOk && !o.psk && !o.resumption && !o.earlyData && !o.postAuth

/-- Whether the TCP port accepts connections. -/
def State.tlsPort (s : State) : Bool := s.dstate == 1 && (!s.clientKeys.isEmpty || !(s.anchors 0 [4, 5, 6]).isEmpty)

/-- TLS_CONNECT: a session for a tool inside the subset; the Dome signs the handshake with node 8 (R429). -/
def tlsConnect (o : TlsOffer) (s : State) : State :=
  if !s.tlsPort || !s.offerOk o || !s.clientKeys.contains o.clientKey || !s.nodeLive 8 then s
  else match [128, 129, 130, 131].find? (fun n => !(s.session n).opened) with
    | none => s
    | some n => s.modSess n (fun _ => { opened := true, lastAt := s.now, certVerify := Config.ecSign (s.signKey 8) o.transcript })

/-- A TLS session closed after a frame error: the replies formed, with FRAME the last, are sent first (R438). -/
def State.frameClose (s : State) (n : Nat) : State :=
  (s.putReplies n (fun l => l.filter Reply.ready)).tlsClose n

/-- The whole packets at the front of a stream, at most `fuel` of them; a frame error closes the session. -/
def State.stream (s : State) (n : Nat) : Nat → State
  | 0 => s
  | fuel + 1 =>
    let b := (s.session n).buffer
    let len := 20 + hdr b 12 4
    if b.length < 16 then s
    else if hdr b 0 2 ≠ 0x5046 ∨ 65536 < len then (s.packet n (b.take 16) 65536).frameClose n
    else if b.length < len then s
    else
      let o := b.take len
      let s := s.modSess n (fun x => { x with buffer := b.drop len, lastAt := s.now })
      let s := s.packet n o 65536
      if badFrame o 65536 then s.frameClose n else s.stream n fuel

/-- TLS_PACKET: octets of a session's stream; packets follow back to back and may span records. -/
def tlsPacket (n : Nat) (o : Octets) (s : State) : State :=
  if n < 128 ∨ 132 ≤ n ∨ !(s.session n).opened then s
  else
    let s := s.modSess n (fun x => { x with buffer := x.buffer ++ o })
    s.stream n ((s.session n).buffer.length / 20 + 1)

/-- TLS_IDLE_TIMEOUT: 300 s without a packet. -/
def tlsIdleTimeout (n : Nat) (s : State) : State :=
  if n < 128 ∨ 132 ≤ n ∨ !(s.session n).opened then s
  else (s.advanceTo ((s.session n).lastAt + secs 300)).tlsClose n

/-- TLS_SESSION_CLOSE: the tool closes its session (R454). -/
def tlsSessionClose (n : Nat) (s : State) : State :=
  if n < 128 ∨ 132 ≤ n ∨ !(s.session n).opened then s else s.tlsClose n

/-! ### System commands (R445, R453, R454) -/

/-- FEATURES. -/
def State.features (s : State) : Nat :=
  b2n (s.flag F.TMC_MODULE_ID_SAFETY_EN) + 2 * b2n s.tmc.locked + 4 * b2n (s.flag F.SLP_CTL_FORCE_ALLOW)
    + 8 * b2n (s.flag F.SLP_CTL_ONLINE_ALLOW) + 16 * b2n (s.flag F.WVL_CTL_ALLOW) + 32 * b2n (s.flag F.PRC_CTL_PAIRED)
    + 64 * b2n (s.flag F.PRC_CTL_SWITCH_EN) + 128 * b2n (decide (s.dom.fuses < 32) && s.dstate == 1) + 256 * b2n (s.dstate == 1)
    + 512 * b2n s.tlsPort

/-- SYS_HELLO. -/
def sysHelloAct (s : State) : Ans × State :=
  (.done (le 1 1 ++ le 1 0 ++ le 1 1 ++ le 1 0
    ++ s.regOctets 4 [F.TMC_MODULE_ID_MEMBER, F.TMC_MODULE_ID_HW_REV, F.TMC_MODULE_ID_STEPPING, F.TMC_MODULE_ID_SAFETY_EN]
    ++ s.regOctets 4 [F.TMC_FAMILY_CAP_SV_STREAMS, F.TMC_FAMILY_CAP_SLICES, F.TMC_FAMILY_CAP_APP_CORES]
    ++ le 4 s.bundleId ++ le 4 Config.tmcVersion ++ le 4 0 ++ le 8 s.features), s)

/-- SYS_JOBS: opcode, session, tag, start and progress of each running long command; the progress is free. -/
def sysJobsAct (s : State) : Ans × State :=
  let r := s.tmc.jobs.foldl (fun (a : Octets × State) j =>
    (a.1 ++ le 2 j.op ++ le 1 j.q.sess ++ le 2 j.q.tag ++ le 8 (Time.gt64 j.start) ++ le 2 (a.2.freeVal 10 % 1001), a.2.drawn)) ([], s)
  (.done (le 2 s.tmc.jobs.length ++ r.1), r.2)

/-- The running command of the session's own tag that SYS_CANCEL can end: an ageing measurement until its plan is applied (R453,
R484). -/
def State.cancellable (s : State) (q : Req) (tag : Nat) : Option Job :=
  s.tmc.jobs.find? (fun j => j.q.sess == q.sess && j.q.tag == tag
    && ([0x0110, 0x0607, 0x0807].contains j.op || (j.op == 0x0C04 && s.hlt.meas.map Prod.fst == some true)))

/-- What a cancelled command, or one without its effect, leaves: nothing. -/
def State.undoJob (s : State) (op : Nat) : State :=
  match op with
  | 0x0110 => { s with tmc := { s.tmc with staging := none } }
  | 0x0607 => s.setStaged none
  | 0x0807 => { s with tmc := { s.tmc with exp := none } }
  | 0x0C04 => (s.modHlt (fun h => { h with meas := none, measDue := none })).setF F.PHM_BG_STATUS_MEAS_RUNNING 0
  | _ => s

/-- SYS_CANCEL. -/
def sysCancelAct (q : Req) (tag : Nat) (s : State) : Ans × State :=
  match s.cancellable q tag with
  | none => (.fail stWrongState 0xFF 0 0, s)
  | some j => (.done [], { s with tmc := { s.tmc with jobs := s.tmc.jobs.filter (fun k => k != j) } }.undoJob j.op)

/-- A commanded reset begins 1 to 5 ms after the reply, freely; those already due stay due. -/
def State.resetAt (s : State) (c : Nat) : State :=
  { s.drawn with tmc := { s.tmc with resetDue := s.tmc.resetDue ++ [(c, s.now + ms 1 + s.freeVal 64 % (ms 4 + 1))] } }

/-- SYS_RESET; a warm reset asked for in a cold reset or the start-up after one is ignored (R487). -/
def sysResetAct (kind : Nat) (s : State) : Ans × State :=
  if kind = 0 then (.done [], if s.warmIgnored then s else s.resetAt 0)
  else if kind = 1 then (.done [], s.resetAt 8)
  else (.fail stBadParam 0xFF 0 0, s)

/-! ### Transfer objects (R448) -/

/-- XFER_OPEN. -/
def xferOpenAct (size : Nat) (s : State) : Ans × State :=
  if 2 ^ 30 < size then (.fail stBadParam 0xFF 0 0, s)
  else if 4 ≤ s.tmc.xfer.length ∨ !s.flashOk then (.fail stNoResources 0xFF 0 0, s)
  else
    let h := s.tmc.handles + 1
    (.done (le 8 h), { s with tmc := { s.tmc with handles := h, xfer := Tbl.put h ⟨size, []⟩ s.tmc.xfer } })

/-- Whether a running long command uses a transfer object (R452). -/
def State.xferHeld (s : State) (h : Nat) : Bool := s.tmc.jobs.any (fun j => j.held.contains h)

/-- XFER_WRITE. -/
def xferWriteAct (h off : Nat) (data : Octets) (s : State) : Ans × State :=
  match s.xferOf h with
  | none => (.fail stBadParam 0xFF 0 h, s)
  | some x =>
    if 16000 < data.length ∨ x.size < off + data.length then (.fail stBadParam 0xFF 0 h, s)
    else if s.xferHeld h then (.fail stBusy 0xFF 0 h, s)
    else (.done [], { s.flashWrite with tmc := { s.tmc with xfer := Tbl.put h (x.write off data) s.tmc.xfer } })

/-- XFER_READ. -/
def xferReadAct (h off len : Nat) (s : State) : Ans × State :=
  match s.xferOf h with
  | none => (.fail stBadParam 0xFF 0 h, s)
  | some x =>
    if 16000 < len ∨ x.size < off + len then (.fail stBadParam 0xFF 0 h, s)
    else (.done (le 2 len ++ (List.range len).map (fun i => BitVec.ofNat 8 (Tbl.get 0 (off + i) x.data))), s)

/-- XFER_CLOSE. -/
def xferCloseAct (h : Nat) (s : State) : Ans × State :=
  match s.xferOf h with
  | none => (.fail stBadParam 0xFF 0 h, s)
  | some _ =>
    if s.xferHeld h then (.fail stBusy 0xFF 0 h, s)
    else (.done [], { s with tmc := { s.tmc with xfer := Tbl.del h s.tmc.xfer } })

/-! ### Commands -/

/-- MBX_DOORBELL. -/
def execMbxDoorbell (m : Master) (page value : Nat) (s : State) : Result := .next (mbxDoorbell m page value s)
/-- MBX_ACK. -/
def execMbxAck (m : Master) (page value : Nat) (s : State) : Result := .next (mbxAck m page value s)
/-- TLS_CONNECT. -/
def execTlsConnect (o : TlsOffer) (s : State) : Result := .next (tlsConnect o s)
/-- TLS_PACKET. -/
def execTlsPacket (sess : Nat) (octets : Octets) (s : State) : Result := .next (tlsPacket sess octets s)
/-- TLS_IDLE_TIMEOUT. -/
def execTlsIdleTimeout (sess : Nat) (s : State) : Result := .next (tlsIdleTimeout sess s)
/-- TLS_SESSION_CLOSE. -/
def execTlsSessionClose (sess : Nat) (s : State) : Result := .next (tlsSessionClose sess s)
/-- SYS_HELLO. -/
def execSysHello (q : Req) (s : State) : Result := s.patchaif q 0x0101 [] false false sysHelloAct
/-- SYS_JOBS. -/
def execSysJobs (q : Req) (s : State) : Result := s.patchaif q 0x0102 [] false false sysJobsAct
/-- SYS_CANCEL: the cancelled command completes after the cancel's reply. -/
def execSysCancel (q : Req) (tag : Nat) (s : State) : Result :=
  match s.patchaif q 0x0103 (le 2 tag) false false (sysCancelAct q tag), s.cancellable q tag with
  | .next t, some j =>
    if t.tmc.jobs.contains j then .next t
    else .next (t.answer j.q j.op 3 stCancelled (detail (groupPage j.group) 0 0) true j.deliver)
  | r, _ => r
/-- SYS_RESET. -/
def execSysReset (q : Req) (kind : Nat) (s : State) : Result := s.patchaif q 0x0104 (le 1 kind) false false (sysResetAct kind)
/-- XFER_OPEN. -/
def execXferOpen (q : Req) (size : Nat) (s : State) : Result := s.patchaif q 0x0105 (le 4 size) false false (xferOpenAct size)
/-- XFER_WRITE. -/
def execXferWrite (q : Req) (handle offset : Nat) (data : Octets) (s : State) : Result :=
  s.patchaif q 0x0106 (le 8 handle ++ le 4 offset ++ strOctets data) false false (xferWriteAct handle offset data)
/-- XFER_READ. -/
def execXferRead (q : Req) (handle offset len : Nat) (s : State) : Result :=
  s.patchaif q 0x0107 (le 8 handle ++ le 4 offset ++ le 2 len) false false (xferReadAct handle offset len)
/-- XFER_CLOSE. -/
def execXferClose (q : Req) (handle : Nat) (s : State) : Result := s.patchaif q 0x0108 (le 8 handle) false false (xferCloseAct handle)

end Sys2Proof.Machine
end

