-- ==== Sys2Proof/Machine/PubCmds.lean ====
section
/-! DEFINITION. The Publication commands of Patchaif (R294) and the operations of PUB.CMD (R292, R293), with the commit's checks
on publications (R275). -/
namespace Sys2Proof.Machine

/-- PUB.STATUS with its live fields (R292). -/
def State.showPub (s : State) : State :=
  ((s.setF F.PUB_STATUS_STAGED s.pub.staged.length).setF F.PUB_STATUS_GAP (s.get F.PRC_STATUS_GAP)).setB F.PUB_STATUS_SEND s.sends

/-- The three words of STAT (R293). -/
def State.pubStatWords (s : State) (p : Nat) : List Nat :=
  let y := s.pubOf p
  let w := s.pubEnt p
  let st := if !(s.flag F.PUB_CTL_EN && pbValid w && pbEn w) then 0 else if !s.sends then 1
    else if y.noKey || !s.pubKeyed w then 3 else 2
  [place 63 32 y.sentSt + place 31 0 y.sentSq, y.lastTx,
   place 63 61 st + place 60 47 (s.pub.staged.filter (fun f => f.pub == p)).length + place 31 0 y.frames]

/-- Publication entries. -/
def pubCount : Nat := 576
/-- Member entries. -/
def membCount : Nat := 16384

/-- Whether the values of a publication entry have a meaning (R275, R292). -/
def pubEntOk (i : Nat) (w : List Nat) : Bool :=
  !pbValid w || (pbSv w == decide (512 ≤ i) && decide (i < pubCount) && decide (pbAuth w ≤ 5) && decide (1 ≤ pbNMemb w)
    && decide (pbMembBase w + pbNMemb w ≤ membCount)
    && (if pbSv w then decide (1 ≤ pbNoAsdu w) && decide (pbNoAsdu w ≤ 8) && decide (pbNMemb w ≤ 32)
        else decide (1 ≤ wbits w 3 63 56) && decide (1 ≤ wbits w 3 52 37) && decide (wbits w 3 52 37 ≤ 60000)))

/-- Whether a member's TYPE has a meaning (R293). -/
def membOk (m : Nat) : Bool := decide (mbType m ≤ 5)

/-- The first publication that R275 rejects. -/
def State.pubFail (s : State) : Option Nat :=
  let es := s.pub.ent.filter (fun p => pbValid p.2)
  (es.find? (fun p =>
    let w := p.2
    let ms := s.pubMembs w
    !pubEntOk p.1 w
      || (List.range 4).any (fun k => s.redun (2 * k) != 0 && bit (2 * k) (pbPorts w) != bit (2 * k + 1) (pbPorts w))
      || (List.range 8).any (fun k => bit k (pbPorts w) && decide (s.get (F.MAC_CTL_MAX_FRAME.pg k) < s.pubLen p.1 w))
      || es.any (fun o => decide (o.1 < p.1) && runsMeet (pbMembBase w, pbNMemb w) (pbMembBase o.2, pbNMemb o.2))
      || ms.any (fun m => !bit 31 m)
      || (!pbSv w && pbRing w && !(seValid (s.sltEnt 2 (pbRingIx w)) && rgKind (s.sltEnt 2 (pbRingIx w)) == 2
            && rgSlice (s.sltEnt 2 (pbRingIx w)) == pbSlice w))
      || (pbSv w && (!s.flag (F.SLE_LAT_CFG_EN.nth (pbLat w)) || ms.any (fun m => mbType m != 5 || !s.inLat (pbLat w) (mbIdx m % 8192)))))).map
    Prod.fst

/-! ### Operations (R292) -/

/-- PUB_WRITE. -/
def pubWriteAct (i : Nat) (s : State) : Nat × Option (List Nat) × State :=
  if s.tmc.locked then (7, none, s)
  else if pubCount ≤ i then (1, none, s)
  else
    let w := s.dataWords .pub
    if !pubEntOk i w then (5, none, s) else (0, none, s.setPubEnt i w)

/-- PUB_READ. -/
def pubReadAct (i : Nat) (s : State) : Nat × Option (List Nat) × State :=
  if pubCount ≤ i then (1, none, s) else (0, some ((List.range 4).map (word (s.pubEnt i))), s)

/-- PUB_MEMB_WRITE. -/
def pubMembWriteAct (i : Nat) (s : State) : Nat × Option (List Nat) × State :=
  if s.tmc.locked then (7, none, s)
  else if membCount ≤ i then (1, none, s)
  else
    let m := wbits (s.dataWords .pub) 0 31 0 &&& 0xFF80FFFF
    if !membOk m then (5, none, s) else (0, none, { s with pub := { s.pub with memb := Tbl.set 0 i m s.pub.memb } })

/-- PUB_MEMB_READ. -/
def pubMembReadAct (i : Nat) (s : State) : Nat × Option (List Nat) × State :=
  if membCount ≤ i then (1, none, s) else (0, some [s.pubMemb i], s)

/-- SIM and TEST of an entry (R280). -/
def State.pubModeSet (s : State) (p sim test : Nat) : State :=
  let w := s.pubEnt p
  (s.setPubEnt p (listSet 0 1 (putBits 62 62 sim (putBits 61 61 test (word w 1))) w)).pubModeNow p

/-- ENABLE: DATA[1][63]. -/
def pubEnableAct (i : Nat) (s : State) : Nat × Option (List Nat) × State :=
  if pubCount ≤ i then (1, none, s)
  else if !pbValid (s.pubEnt i) then (5, none, s)
  else (0, none, (s.pubEnableSet i (wbit (s.dataWords .pub) 1 63)).pubFlush)

/-- MODE: DATA[1][62:61]. -/
def pubModeAct (i : Nat) (s : State) : Nat × Option (List Nat) × State :=
  if pubCount ≤ i then (1, none, s)
  else if !pbValid (s.pubEnt i) then (5, none, s)
  else (0, none, s.pubModeSet i (wbits (s.dataWords .pub) 1 62 62) (wbits (s.dataWords .pub) 1 61 61))

/-- STAT: one snapshot into PUB.STAT (R293). -/
def pubStatAct (i : Nat) (s : State) : Nat × Option (List Nat) × State :=
  if pubCount ≤ i then (1, none, s)
  else
    let ws := s.pubStatWords i
    (0, none, forN 3 (fun s k => s.setF (F.PUB_STAT_WORD.nth k) (word ws k)) s)

/-! ### Commands (R294, R503) -/

/-- A failure of a Publication command. -/
def pubFailAns (st p : Nat) : Ans := .fail st 0x0B 0 p

/-- Whether a publication is a ring publication of a slice (R356). -/
def State.pubOwned (s : State) (n p : Nat) : Bool := pbRing (s.pubEnt p) && !pbSv (s.pubEnt p) && pbSlice (s.pubEnt p) == n

/-- The identifier strings of a publication, each after its length: gocbRef, datSet and goID, or svID and datSet (R281, R283). -/
def State.pubStrings (s : State) (p : Nat) : Octets :=
  (if pbSv (s.pubEnt p) then [0, 1] else [0, 1, 2]).flatMap (fun k => le 2 (s.textOf k p).length ++ s.textOf k p)

/-- PUB_STATUS: STATUS, entry, STAT, identifier strings, counters. -/
def pubStatusAct (clear : Bool) (p : Nat) (s : State) : Ans × State :=
  if pubCount ≤ p then (.fail stBadParam 0x0B 1 p, s)
  else
    let o := (List.range 4).flatMap (fun i => le 8 (word (s.pubEnt p) i)) ++ (s.pubStatWords p).flatMap (le 8)
      ++ s.pubStrings p ++ s.cntOctets F.PUB_CNT_COUNT 0 8
    (.done o, s.clearCnt F.PUB_CNT_COUNT 0 8 clear)

/-- PUB_ENABLE. -/
def pubEnableCmd (p : Nat) (en : Bool) (s : State) : Ans × State :=
  if pubCount ≤ p then (.fail stBadParam 0x0B 1 p, s)
  else if !pbValid (s.pubEnt p) then (pubFailAns stWrongState p, s)
  else (.done [], (s.pubEnableSet p en).pubFlush)

/-- PUB_MODE. -/
def pubModeCmd (p : Nat) (sim test : Bool) (s : State) : Ans × State :=
  if pubCount ≤ p then (.fail stBadParam 0x0B 1 p, s)
  else if !pbValid (s.pubEnt p) then (pubFailAns stWrongState p, s)
  else (.done [], s.pubModeSet p (b2n sim) (b2n test))

/-- PUB_WRITE. -/
def execPubWrite (m : Master) (index : Nat) (s : State) : Result := s.cmdRun m .pub [(F.PUB_CMD_INDEX, index)] true (pubWriteAct index)
/-- PUB_READ. -/
def execPubRead (m : Master) (index : Nat) (s : State) : Result := s.cmdRun m .pub [(F.PUB_CMD_INDEX, index)] false (pubReadAct index)
/-- MEMB_WRITE. -/
def execPubMembWrite (m : Master) (index : Nat) (s : State) : Result :=
  s.cmdRun m .pub [(F.PUB_CMD_INDEX, index)] true (pubMembWriteAct index)
/-- MEMB_READ. -/
def execPubMembRead (m : Master) (index : Nat) (s : State) : Result :=
  s.cmdRun m .pub [(F.PUB_CMD_INDEX, index)] false (pubMembReadAct index)
/-- ENABLE. -/
def execPubCmdEnable (m : Master) (index : Nat) (s : State) : Result := s.cmdRun m .pub [(F.PUB_CMD_INDEX, index)] true (pubEnableAct index)
/-- MODE. -/
def execPubCmdMode (m : Master) (index : Nat) (s : State) : Result := s.cmdRun m .pub [(F.PUB_CMD_INDEX, index)] true (pubModeAct index)
/-- STAT. -/
def execPubStat (m : Master) (index : Nat) (s : State) : Result := s.cmdRun m .pub [(F.PUB_CMD_INDEX, index)] false (pubStatAct index)
/-- PUB_STATUS: a tenant reads its ring publications. -/
def execPubStatus (q : Req) (clear : Bool) (pub : Nat) (s : State) : Result :=
  s.patchaif q 0x0701 (flagOctets clear ++ le 4 pub) false (s.pubOwned (sessSlice q.sess) pub) (pubStatusAct clear pub)
/-- PUB_ENABLE. -/
def execPubEnable (q : Req) (pub : Nat) (en : Bool) (s : State) : Result :=
  s.patchaif q 0x0702 (le 4 pub ++ flagOctets en) false false (pubEnableCmd pub en)
/-- PUB_MODE. -/
def execPubMode (q : Req) (pub : Nat) (sim test : Bool) (s : State) : Result :=
  s.patchaif q 0x0703 (le 4 pub ++ flagOctets sim ++ flagOctets test) false false (pubModeCmd pub sim test)

end Sys2Proof.Machine
end

