-- ==== Sys2Proof/Machine/EngineCmds.lean ====
section
/-! DEFINITION. The lattice, phasor and guard commands: LATTICE, PHASOR and GUARD commands of Patchaif (R200, R235) and the
operations of PHE.CMD and GCM.CMD (R233, R234). -/
namespace Sys2Proof.Machine

/-! ### Lattices (R198, R200) -/

/-- The SLE fields of the channel that CH_SEL names (R198). -/
def State.showSle (s : State) : State :=
  let c := s.get F.SLE_CH_SEL_CH
  let runs := (List.range 4).filter (fun l => (s.lattice l).running)
  match (runs ++ List.range 4).find? (fun l => s.inLat l c) with
  | none => s
  | some l =>
    let x := s.lattice l
    let j := c - s.chBase l
    let feed := (s.feeders l).find? (fun f => f.off == j)
    let newest := match x.insts.getLast? with | some i => some i | none => x.done.head?
    let aw := match newest with
      | some i => (match i.feeds.find? (fun f => f.off == j) with | some f => i.awaited.contains f.ctx | none => false)
      | none => false
    let last := match x.done.head? with
      | some i => (match i.vals.find? (fun v => v.1 == j) with | some v => v.2.state true | none => 3)
      | none => 0
    let s := (s.setB F.SLE_CH_STAT_FED feed.isSome).setB F.SLE_CH_STAT_AWAITED aw
    let s := (s.setF F.SLE_CH_STAT_LAST_STATE last).setF F.SLE_CH_STAT_PRED_RUN (Tbl.get 0 j x.predRun)
    (s.setF F.SLE_CH_STAT_FEEDER ((feed.map (fun f => f.ctx)).getD 0)).setF F.SLE_CH_STAT_SUBST_TOTAL (Tbl.get 0 j x.substTotal)

/-- A failure of a lattice command. -/
def sleFail (l : Nat) : Ans := .fail stBadParam 0x06 0 l

/-- LATTICE_STATUS. -/
def latticeStatusAct (clear : Bool) (l : Nat) (s : State) : Ans × State :=
  if 4 ≤ l then (sleFail l, s)
  else
    let o := s.regOctets 4 [F.SLE_LAT_STAT_PROV_CNT.nth l, F.SLE_LAT_STAT_STALL.nth l, F.SLE_LAT_STAT_WAIT_TAG.nth l]
      ++ s.regOctets 8 [F.SLE_LAT_LAST_CONF_N.nth l] ++ s.regOctets 8 [F.SLE_LAT_LAST_CLOSE_N.nth l]
      ++ s.cntOctets F.SLE_LAT_CNT_COUNT (16 * l) 16
    (.done o, s.clearCnt F.SLE_LAT_CNT_COUNT (16 * l) 16 clear)

/-- LATTICE_SPEC. -/
def latticeSpecAct (l : Nat) (en : Bool) (s : State) : Ans × State :=
  if 4 ≤ l then (sleFail l, s) else (.done [], s.setB (F.SLE_LAT_CFG_SPEC_EN.nth l) en)

/-- LATTICE_TOL: an instant takes the tolerances in force at its first close (R30). -/
def latticeTolAct (l tolI tolV tolRel : Nat) (s : State) : Ans × State :=
  if 4 ≤ l ∨ 65536 ≤ tolI ∨ 256 ≤ tolV ∨ 256 ≤ tolRel then (sleFail l, s)
  else (.done [], ((s.setF (F.SLE_LAT_TOL_TOL_I.nth l) tolI).setF (F.SLE_LAT_TOL_TOL_V.nth l) tolV).setF (F.SLE_LAT_TOL_TOL_REL.nth l) tolRel)

/-! ### Phasor Engine (R233, R235) -/

/-- PHASOR_STATUS. -/
def phasorStatusAct (clear : Bool) (s : State) : Ans × State :=
  let o := (List.range 64).flatMap (fun g => le 4 (s.get (F.PHE_GRP_F_F.nth g))) ++ s.cntOctets F.PHE_CNT_COUNT 0 8
  (.done o, s.clearCnt F.PHE_CNT_COUNT 0 8 clear)

/-- The first index and the entries of a PHE table. -/
def pheSize : Nat → Nat × Nat
  | 0 => (0, 8192) | 1 => (1, 15) | 2 => (0, 2048) | 3 => (0, 256) | 4 => (0, 8192) | 5 => (0, 1024) | 6 => (0, 64) | _ => (0, 0)
/-- The words of a PHE table's entry. -/
def pheLen : Nat → Nat
  | 5 => 3
  | _ => 1
/-- Whether an index lies in a PHE table. -/
def pheIx (t i : Nat) : Bool := decide ((pheSize t).1 ≤ i) && decide (i < (pheSize t).1 + (pheSize t).2)

/-- Whether the values of a PHE entry have a meaning (R212, R215, R233). -/
def pheEntOk (t : Nat) (w : List Nat) : Bool :=
  match t with
  | 1 =>
    let os := (hsOrders w).filter (fun o => o != 0)
    os.all (fun o => decide (2 ≤ o)) && (os.zip (os.drop 1)).all (fun p => decide (p.1 < p.2))
      && decide (os = (hsOrders w).take os.length)
  | 3 => !wbit w 0 63 || (znHord w != 1 && decide (wbits w 0 49 37 + znTerms w ≤ 8192))
  | 4 => (!wbit w 0 63 || decide (wbits w 0 62 59 ≤ 11)) && decide (wbits w 0 58 57 ≤ 2) && (!wbit w 0 63 || decide (wbits w 0 56 44 < 2048))
  | 5 => !wbit w 0 63 || decide (wbits w 0 61 60 ≤ 2)
  | 6 => !wbit w 0 63 || (!wbit w 0 60 || decide (wbits w 0 59 47 < 2048))
  | _ => true

/-- The state with a PHE entry written. -/
def State.setPheEnt (s : State) (t i : Nat) (ws : List Nat) : State :=
  { s with phe := { s.phe with tab := Tbl.set [] (8192 * t + i) (maskWords (pheBits t) ws) s.phe.tab } }

/-- PHE_WRITE. -/
def pheWriteAct (t i : Nat) (s : State) : Nat × Option (List Nat) × State :=
  if s.tmc.locked then (7, none, s)
  else if !pheIx t i then (1, none, s)
  else
    let w := (s.dataWords .phe).take (pheLen t)
    if !pheEntOk t w then (5, none, s) else (0, none, s.setPheEnt t i w)

/-- PHE_READ. -/
def pheReadAct (t i : Nat) (s : State) : Nat × Option (List Nat) × State :=
  if !pheIx t i then (1, none, s) else (0, some (s.pheEnt t i), s)

/-! ### Guard Comparators (R234, R235) -/

/-- Whether a guard's QSRC, SUB and TYPE go together (R223). -/
def gdKindOk (w : List Nat) : Bool :=
  let ty := gdType w
  let plain := ty == 0 || ty == 4
  match gdSrc w with
  | 2 => plain || ty == 5
  | 3 => plain && decide (gdSub w ≤ 2)
  | 4 => plain || ty == 1
  | 6 => plain || ty == 5
  | 7 => plain || ty == 2 || ty == 3
  | 0 => plain | 1 => plain | 5 => plain | 8 => plain | 9 => plain | 10 => plain
  | _ => false

/-- Whether the values that PARAM writes have a meaning (R224, R226, R234). -/
def gdParamOk (w : List Nat) : Bool :=
  decide (gdInv w ≤ 2) && (gdType w != 4 || (decide (1 ≤ gdRocD w) && decide (gdRocD w ≤ 64)))

/-- Words 0 to 4 of a guard with PARAM's part replaced: DATA[0][38:0] and DATA[1] to DATA[4]. -/
def gdParam (old d : List Nat) : List Nat := putBits 38 0 (wbits d 0 38 0) (word old 0) :: (List.range 4).map (fun i => word d (i + 1))

/-- The five words of a guard's configuration. -/
def State.gcmWords (s : State) (g : Nat) : List Nat := (List.range 5).map (word (s.gcmEnt g))

/-- PARAM on a guard: RESULT and the state. -/
def State.gcmParamSet (s : State) (g : Nat) (d : List Nat) : Nat × State :=
  let w := gdParam (s.gcmWords g) d
  if 4096 ≤ g then (1, s) else if !gdParamOk w then (5, s) else (0, s.gcmFrom g w)

/-- ENABLE on a guard. -/
def State.gcmEnableSet (s : State) (g : Nat) (en : Bool) : Nat × State :=
  if 4096 ≤ g then (1, s)
  else (0, s.gcmFrom g (putBits 63 63 (b2n en) (word (s.gcmWords g) 0) :: (s.gcmWords g).drop 1))

/-- GCM_WRITE. -/
def gcmWriteAct (g : Nat) (s : State) : Nat × Option (List Nat) × State :=
  let w := s.dataWords .gcm
  if s.tmc.locked then (7, none, s)
  else if 4096 ≤ g then (1, none, s)
  else if !(gdKindOk w && gdParamOk w) then (5, none, s)
  else (0, none, s.setGcmEnt g w)

/-- GCM_PARAM. -/
def gcmParamAct (g : Nat) (s : State) : Nat × Option (List Nat) × State :=
  let r := s.gcmParamSet g (s.dataWords .gcm)
  (r.1, none, r.2)

/-- GCM_READ. -/
def gcmReadAct (g : Nat) (s : State) : Nat × Option (List Nat) × State :=
  if 4096 ≤ g then (1, none, s) else (0, some (s.gcmWords g), s)

/-- GCM_ENABLE. -/
def gcmEnableAct (g : Nat) (s : State) : Nat × Option (List Nat) × State :=
  let r := s.gcmEnableSet g (wbit (s.dataWords .gcm) 0 63)
  (r.1, none, r.2)

/-- GCM_STATE: CNT, DCNT, OUT and PU where word 1 of a guard record holds them. -/
def gcmStateAct (g : Nat) (s : State) : Nat × Option (List Nat) × State :=
  let x := Tbl.get ({} : Guard) g s.gcm.st
  if 4096 ≤ g then (1, none, s)
  else (0, some (listSet 0 0 (place 55 40 x.cnt + place 39 32 x.dcnt + place 7 7 (b2n x.out) + place 6 6 (b2n x.pu))
    (s.dataWords .gcm)), s)

/-- A failure with the RESULT of the GCM. -/
def gcmFail (r g : Nat) : Ans := .fail (resultStatus r) 0x09 r g

/-- GUARD_SET: PARAM with five words. -/
def guardSetAct (g : Nat) (d : List Nat) (s : State) : Ans × State :=
  if d.length ≠ 5 ∨ wbits d 0 35 32 ≠ 0 ∨ wbits d 4 47 0 ≠ 0 then (.fail stBadParam 0x09 0 g, s)
  else
    let r := s.gcmParamSet g d
    if r.1 = 0 then (.done [], r.2) else (gcmFail r.1 g, s)

/-- GUARD_ENABLE. -/
def guardEnableAct (g : Nat) (en : Bool) (s : State) : Ans × State :=
  let r := s.gcmEnableSet g en
  if r.1 = 0 then (.done [], r.2) else (gcmFail r.1 g, s)

/-- The newest CONFIRMED instant of a lattice whose guard records are complete. -/
def State.gcmConfN (s : State) (l : Nat) : Option Nat :=
  ((s.gcm.saved.filter (fun x => x.1 == l && decide (x.2.1 ≤ s.confN l))).getLast?).map (fun x => x.2.1)

/-- GUARD_STATUS: the configuration, the STATE and the newest confirmed guard record; STATE from that record (R450). -/
def guardStatusAct (g : Nat) (s : State) : Ans × State :=
  if 4096 ≤ g then (gcmFail 1 g, s)
  else
    let n := (s.guardLat g).bind s.gcmConfN
    let r := match n with
      | some n => (Tbl.get ({} : GRec) g s.gcm.confRec).words n
      | none => [0, 0]
    let st := place 55 32 (wbits r 1 55 32) + place 7 6 (wbits r 1 7 6)
    (.done (wordsOctets (s.gcmWords g ++ [st] ++ r)), s)

/-! ### The meanings -/

/-- The fields of PHE.CMD written beside OP. -/
def pheFields (t i : Nat) : List (Field × Nat) := [(F.PHE_CMD_TABLE, t), (F.PHE_CMD_INDEX, i)]
/-- The fields of GCM.CMD written beside OP. -/
def gcmFields (g : Nat) : List (Field × Nat) := [(F.GCM_CMD_INDEX, g)]

/-- LATTICE_STATUS. -/
def execLatticeStatus (q : Req) (clear : Bool) (lat : Nat) (s : State) : Result :=
  s.patchaif q 0x0401 (flagOctets clear ++ le 4 lat) false false (latticeStatusAct clear lat)
/-- LATTICE_SPEC. -/
def execLatticeSpec (q : Req) (lat : Nat) (en : Bool) (s : State) : Result :=
  s.patchaif q 0x0402 (le 4 lat ++ flagOctets en) false false (latticeSpecAct lat en)
/-- LATTICE_TOL. -/
def execLatticeTol (q : Req) (lat tolI tolV tolRel : Nat) (s : State) : Result :=
  s.patchaif q 0x0403 (le 4 lat ++ le 2 tolI ++ le 1 tolV ++ le 1 tolRel) false false (latticeTolAct lat tolI tolV tolRel)
/-- PHASOR_STATUS. -/
def execPhasorStatus (q : Req) (clear : Bool) (s : State) : Result :=
  s.patchaif q 0x0404 (flagOctets clear) false false (phasorStatusAct clear)
/-- PHE_WRITE. -/
def execPheWrite (m : Master) (table index : Nat) (s : State) : Result :=
  s.cmdRun m .phe (pheFields table index) true (pheWriteAct table index)
/-- PHE_READ. -/
def execPheRead (m : Master) (table index : Nat) (s : State) : Result :=
  s.cmdRun m .phe (pheFields table index) false (pheReadAct table index)
/-- GCM_WRITE. -/
def execGcmWrite (m : Master) (index : Nat) (s : State) : Result := s.cmdRun m .gcm (gcmFields index) true (gcmWriteAct index)
/-- GCM_PARAM. -/
def execGcmParam (m : Master) (index : Nat) (s : State) : Result := s.cmdRun m .gcm (gcmFields index) true (gcmParamAct index)
/-- GCM_READ. -/
def execGcmRead (m : Master) (index : Nat) (s : State) : Result := s.cmdRun m .gcm (gcmFields index) false (gcmReadAct index)
/-- GCM_ENABLE. -/
def execGcmEnable (m : Master) (index : Nat) (s : State) : Result := s.cmdRun m .gcm (gcmFields index) true (gcmEnableAct index)
/-- GCM_STATE. -/
def execGcmState (m : Master) (index : Nat) (s : State) : Result := s.cmdRun m .gcm (gcmFields index) false (gcmStateAct index)
/-- GUARD_SET. -/
def execGuardSet (q : Req) (g : Nat) (words : List Nat) (s : State) : Result :=
  s.patchaif q 0x0501 (le 4 g ++ words.flatMap (le 8)) false false (guardSetAct g words)
/-- GUARD_ENABLE. -/
def execGuardEnable (q : Req) (g : Nat) (en : Bool) (s : State) : Result :=
  s.patchaif q 0x0502 (le 4 g ++ flagOctets en) false false (guardEnableAct g en)
/-- GUARD_STATUS. -/
def execGuardStatus (q : Req) (g : Nat) (s : State) : Result := s.patchaif q 0x0503 (le 4 g) false false (guardStatusAct g)

end Sys2Proof.Machine
end

