-- ==== Sys2Proof/Machine/RecExport.lean ====
section
/-! DEFINITION. REC_EXPORT: COMTRADE files and RAW images of records, merged where more than one is named (R317, R318). -/
namespace Sys2Proof.Machine

/-- A record as its RAW image: the 48 words of its directory entry, then its rows. -/
abbrev RecImg := List Nat

/-- The 64-bit words that octets hold. -/
def octetsWords (o : Octets) : List Nat := (List.range (o.length / 8)).map (fun i => ofLe ((o.drop (8 * i)).take 8))

/-- NROWS of an image. -/
def riRows (r : RecImg) : Nat := wbits r 3 39 16
/-- Words of a row. -/
def riRowWords (r : RecImg) : Nat := wbits r 5 63 48
/-- DECIM as a count. -/
def riDecim (r : RecImg) : Nat := wbits r 4 39 36 + 1
/-- f_lat. -/
def riRate (r : RecImg) : Nat := rateHz (wbits r 4 35 33)
/-- A_COUNT. -/
def riA (r : RecImg) : Nat := wbits r 4 32 20
/-- B_COUNT. -/
def riB (r : RecImg) : Nat := wbits r 4 19 5
/-- FIRST_N. -/
def riFirst (r : RecImg) : Nat := word r 2
/-- The first row's number in units of DECIM, in which rows of modules are matched. -/
def riLo (r : RecImg) : Nat := riFirst r / riDecim r
/-- One past the last row's number. -/
def riHi (r : RecImg) : Nat := riLo r + riRows r
/-- GT96 of the first trigger. -/
def riTrig (r : RecImg) : Nat := word r 16 + wbits r 17 31 0 * 2 ^ 64
/-- The words of row `j`. -/
def riRow (r : RecImg) (j : Nat) : List Nat := (r.drop (48 + j * riRowWords r)).take (riRowWords r)

/-- The words of a row's analogue values, their quality, and its binaries (R301). -/
def riParts (r : RecImg) : Nat × Nat := (1 + (riA r + 1) / 2, 1 + (riA r + 1) / 2 + (riA r + 15) / 16)

/-- Analogue channel `c` of a row: none where it is Invalid (R301, R317). -/
def riVal (r : RecImg) (row : List Nat) (c : Nat) : Option Int :=
  let q := word row ((riParts r).1 + c / 16) / 16 ^ (c % 16)
  if q % 4 = 3 then none else some (signed 32 (word row (1 + c / 2) / 2 ^ (32 * (c % 2)) % 2 ^ 32))

/-- Binary channel `c` of a row. -/
def riBin (r : RecImg) (row : List Nat) (c : Nat) : Bool := bit (c % 64) (word row ((riParts r).2 + c / 64))

/-- One sample of the merged record: analogue values and binaries in record order; a record without the row gives missing data
and 0 (R318). -/
def mergedRow (rs : List RecImg) (m : Nat) : List (Option Int) × List Bool :=
  let one := fun (r : RecImg) =>
    if riLo r ≤ m ∧ m < riHi r then
      let row := riRow r (m - riLo r)
      ((List.range (riA r)).map (riVal r row), (List.range (riB r)).map (riBin r row))
    else (List.replicate (riA r) none, List.replicate (riB r) false)
  ((rs.map one).flatMap Prod.fst, (rs.map one).flatMap Prod.snd)

/-- Decimal digits of a number as octets. -/
def decimal (n : Nat) : Octets := (Nat.toDigits 10 n).map (fun c => BitVec.ofNat 8 c.toNat)
/-- Decimal digits of an integer as octets. -/
def decimalI (v : Int) : Octets := (if v < 0 then [BitVec.ofNat 8 0x2D] else []) ++ decimal v.natAbs

/-- The timestamp of sample k in µs: the nearest to k × 10^6 × DECIM / f_lat (R317). -/
def sampleUs (r : RecImg) (k : Nat) : Nat := (2 * k * 1000000 * riDecim r + riRate r) / (2 * riRate r)

/-- Bits in 16-bit words, the first lowest. -/
def words16 (bs : List Bool) : List Nat :=
  (List.range ((bs.length + 15) / 16)).map (fun i => sumN (((bs.drop (16 * i)).take 16).zipIdx.map (fun b => b2n b.1 * 2 ^ b.2)))

/-- One sample of the .dat file in BINARY32. -/
def datBinary (r : RecImg) (k : Nat) (x : List (Option Int) × List Bool) : Octets :=
  le 4 (k + 1) ++ le 4 (sampleUs r k)
    ++ x.1.flatMap (fun v => le 4 (match v with | some v => unsigned 32 v | none => 0x80000000)) ++ (words16 x.2).flatMap (le 2)

/-- One sample of the .dat file in ASCII. -/
def datAscii (r : RecImg) (k : Nat) (x : List (Option Int) × List Bool) : Octets :=
  let sep : Octets := [BitVec.ofNat 8 0x2C]
  decimal (k + 1) ++ sep ++ decimal (sampleUs r k)
    ++ x.1.flatMap (fun v => sep ++ (match v with | some v => decimalI v | none => []))
    ++ x.2.flatMap (fun b => sep ++ decimal (b2n b)) ++ [BitVec.ofNat 8 0x0D, BitVec.ofNat 8 0x0A]

/-- First and one past the last row number of the merged record (R318). -/
def mergedSpan (rs : List RecImg) : Nat × Nat :=
  (rs.foldl (fun a r => min a (riLo r)) (riLo (rs.headD [])), rs.foldl (fun a r => max a (riHi r)) 0)

/-- The .dat file of format 0 ASCII or 1 BINARY32. -/
def datFile (fmt : Nat) (rs : List RecImg) : Octets :=
  let sp := mergedSpan rs
  (List.range (sp.2 - sp.1)).flatMap (fun k =>
    (if fmt = 0 then datAscii else datBinary) (rs.headD []) k (mergedRow rs (sp.1 + k)))

/-- The instance whose strings and channels a record's files take: the one it is stored under, else one of its CFG_ID (R317). -/
def State.recInst (s : State) (x : RecSrc) (r : RecImg) : Nat :=
  match x with
  | .stored i _ => i
  | .raw _ => ((List.range 64).find? (fun i => dvValid (s.dreEnt 0 i) && dvCfgId (s.dreEnt 0 i) == wbits r 1 31 0)).getD 64

/-- MEAS of a lattice channel: that of a map entry which names it (R135, R145). -/
def State.chanVolt (s : State) (c : Nat) : Bool :=
  s.ing.ctx.any (fun p => cxValid p.2.words && !cxGoose p.2.words
    && (s.cxMap p.2.words).any (fun m => mpValid m && mpChan m == c && mpVolt m))

/-- The analogue channels that a record contributes to a .cfg file. -/
def State.cfgAnalogues (s : State) (i : Nat) (r : RecImg) : List Config.CfgAnalogue :=
  let w := s.dreEnt 0 i
  (List.range (riA r)).map (fun j =>
    let e := wbits w 1 63 52 + j
    let volt := s.chanVolt (wbits (s.dreEnt 2 e) 0 12 0)
    { chId := s.textOf 6 e, ph := s.textOf 7 e, ccbm := s.textOf 8 e, volt, milli := if volt then 10 else 1, b := 0, skew := 0
      min := -2147483647, max := 2147483647, primary := 1, secondary := 1, ps := 'P' })

/-- The digital channels that a record contributes to a .cfg file. -/
def State.cfgDigitals (s : State) (i : Nat) (r : RecImg) : List Config.CfgDigital :=
  let w := s.dreEnt 0 i
  (List.range (riB r)).map (fun j =>
    let e := wbits w 1 38 25 + j
    { chId := s.textOf 9 e, ph := s.textOf 10 e, ccbm := s.textOf 11 e, y := 0 })

/-- A module time as UTC in µs, rounded to the nearest (R317). -/
def utcMicros (offset : Nat) (t : Time) : Int := ((2 * t + us 1) / (2 * us 1) : Nat) - (offset * 1000000 : Nat)

/-- The module time that a GT96 word names. -/
def Time.ofGt96 (v : Nat) : Time := v / 2 ^ 48 * secUnits + v / 2 ^ 16 % 2 ^ 32 * 65536 + v % 65536

/-- The .cfg fields of an export in format 0 ASCII or 1 BINARY32 (R317, R318). -/
def State.cfgFields (s : State) (fmt : Nat) (srcs : List RecSrc) (rs : List RecImg) : Config.ComtradeCfg :=
  let r := rs.headD []
  let is := (srcs.zip rs).map (fun p => (s.recInst p.1 p.2, p.2))
  let sp := mergedSpan rs
  let off := wbits r 5 44 37
  { station := s.textOf 4 0, recDev := s.textOf 5 ((is.map Prod.fst).headD 64), revYear := 2013
    analogue := is.flatMap (fun p => s.cfgAnalogues p.1 p.2), digital := is.flatMap (fun p => s.cfgDigitals p.1 p.2)
    lf := if wbits r 4 4 4 = 0 then 50 else 60, nrates := 1, samp := (riRate r, riDecim r), endsamp := sp.2 - sp.1
    first := utcMicros off (tOf (riRate r) (sp.1 * riDecim r))
    trigger := utcMicros off (Time.ofGt96 ((rs.map riTrig).foldl min (riTrig r)))
    binary32 := fmt != 0, timemult := 1, timeCode := 0, localCode := 0
    tmqCode := if rs.all (fun x => wbits x 5 47 46 == 2) then 0 else 0xF, leapsec := 0 }

/-- The RAW image of a stored record (R317). -/
def State.rawImage (s : State) (w : List Nat) (k : Nat) : RecImg :=
  let d := s.rdWords (dirAddr w k) 48
  d ++ (List.range (riRows d)).flatMap (fun j =>
    s.rdWords (rowAddr w k ((wbits d 3 63 40 + j) % max 1 (dvLenMax w))) (riRowWords d))

/-- The image that a source names. -/
def State.recImage (s : State) : RecSrc → RecImg
  | .stored i k => s.rawImage (s.dreEnt 0 i) k
  | .raw b => octetsWords (s.bufRead b)

/-- Whether a source may be exported by a session: 0, or the status of the failure. -/
def State.recSrcFail (s : State) (q : Req) : RecSrc → Option (Nat × Nat)
  | .stored i k =>
    let w := s.dreEnt 0 i
    if 64 ≤ i ∨ dvNbuf w ≤ k then some (stBadParam, i)
    else if !dvValid w || s.dirState w k != 3 then some (stWrongState, i)
    else none
  | .raw b => if s.bufOk q b then none else some (stBadParam, 0)

/-- Formats of REC_EXPORT: 0 ASCII, 1 BINARY32, 2 RAW. -/
def exportOk (fmt n : Nat) : Bool := decide (fmt ≤ 2) && decide (1 ≤ n) && decide (n ≤ if fmt = 2 then 1 else 8)

/-- The end of REC_EXPORT: the files written, or the failure (R317, R318). -/
def State.exportEnd (s : State) : Nat × State :=
  match s.tmc.exp with
  | none => (stAborted, s)
  | some x =>
    let t : State := { s with tmc := { s.tmc with exp := none } }
    let rs := x.recs.map s.recImage
    let r := rs.headD []
    if rs.any (fun y => riRate y * riDecim r != riRate r * riDecim y) then (stConsistency, t)
    else
      let dat := if x.fmt = 2 then wordsOctets r else datFile x.fmt rs
      let cfg := if x.fmt = 2 then [] else Config.comtradeCfg (s.cfgFields x.fmt x.recs rs)
      if x.dat.len < dat.length ∨ (x.fmt ≠ 2 ∧ x.cfg.len < cfg.length) then (stBadParam, t)
      else (stOk, (if x.fmt = 2 then t else t.bufWrite x.cfg cfg).bufWrite x.dat dat)

end Sys2Proof.Machine
end

