-- ==== Sys2Proof/Machine/RecCmds.lean ====
section
/-! DEFINITION. The Recorder commands of Patchaif (R322), the operations of DRE.CMD (R320, R321), and the commit's checks on
instances (R296, R300, R307). -/
namespace Sys2Proof.Machine

/-- The entries of a recorder table. -/
def dreSize : Nat → Nat
  | 0 => 64 | 1 => 1024 | 2 => 4096 | 3 => 16384 | _ => 0

/-- DRE.STATUS with its live fields (R320). -/
def State.showDre (s : State) : State :=
  let n := fun (f : Nat → Bool) => ((List.range 64).filter (fun i => dvValid (s.dreEnt 0 i) && f (s.recOf i).state)).length
  ((s.setF F.DRE_STATUS_RECORDING (n (fun x => x == 2))).setF F.DRE_STATUS_ARMED (n (fun x => x == 1 || x == 3))).setF
    F.DRE_STATUS_FULL (n (fun x => x == 4))

/-- The four words of STAT (R321). -/
def State.recStatWords (s : State) (i : Nat) : List Nat :=
  let x := s.recOf i
  let w := s.dreEnt 0 i
  let com := ((List.range (dvNbuf w)).filter (fun k => s.dirState w k == 3)).length
  [place 63 61 x.state + place 59 48 x.buf + place 47 24 (min x.history (dvLenMax w)) + place 23 12 com,
   place 63 32 x.nextRec, x.lastN, if x.state = 3 then Time.gt64 (x.tEnd + ms (dvHoldoff w)) else 0]

/-! ### Checks -/

/-- Whether the values of a recorder entry have a meaning (R296, R305, R307, R320). -/
def dreEntOk (t : Nat) (w : List Nat) : Bool :=
  match t with
  | 0 => !dvValid w || (decide (dvACount w ≤ 4096) && decide (dvBCount w ≤ 16384) && decide (1 ≤ dvNbuf w)
      && decide (wbits w 1 63 52 + dvACount w ≤ 4096) && decide (wbits w 1 38 25 + dvBCount w ≤ 16384))
  | 1 => !dtEn w || (decide (dtType w ≤ 2) && decide (dtMode w ≤ if dtType w = 1 then 1 else 2)
      && (dtType w != 1 || gdKindOk [place 59 56 (wbits w 0 39 36) + place 55 54 (wbits w 0 35 34)]))
  | 3 => !wbit w 0 31 || (decide (wbits w 0 24 21 ≤ 9) && decide (wbits w 0 16 0 < spaceSize (wbits w 0 24 21)))
  | _ => true

/-- The first instance or trigger that R296, R300 or R307 rejects. -/
def State.dreFail (s : State) (run : Bool) : Option Nat :=
  let is := (List.range 64).filter (fun i => dvValid (s.dreEnt 0 i))
  let bad := fun (i : Nat) =>
    let w := s.dreEnt 0 i
    let rate := s.latRate (dvLat w)
    !(run && s.flag (F.SLE_LAT_CFG_EN.nth (dvLat w))) || !dreEntOk 0 w
      || (s.dvChans w).any (fun c => !s.inLat (dvLat w) c)
      || (List.range (dvBCount w)).any (fun j => !dreEntOk 3 (s.dreEnt 3 (wbits w 1 38 25 + j)))
      || decide (16352 * 0x10000 < dvBase w + dvSize w)
      || decide (dvSize w < dvNbuf w * (384 + dvLenMax w * dvRowBytes w))
      || decide (dvLenMax w < dvPre w + dvPost w + 1)
      || decide (60 * rate < dvLenMax w * dvDecim w)
      || is.any (fun j => decide (j < i) &&
        (runsMeet (dvBase w, dvSize w) (dvBase (s.dreEnt 0 j), dvSize (s.dreEnt 0 j))
          || runsMeet (wbits w 1 63 52, dvACount w) (wbits (s.dreEnt 0 j) 1 63 52, dvACount (s.dreEnt 0 j))
          || runsMeet (wbits w 1 38 25, dvBCount w) (wbits (s.dreEnt 0 j) 1 38 25, dvBCount (s.dreEnt 0 j))))
  match is.find? bad with
  | some i => some i
  | none => (List.range 1024).find? (fun t =>
      let w := s.dreEnt 1 t
      dtEn w && dtType w == 2 && decide (dvBCount (s.dreEnt 0 (dtInst w)) ≤ wbits w 0 33 19))

/-! ### Operations (R320): each answers RESULT and the state -/

/-- Whether an instance may be acted on: 1 out of range, 6 not in use. -/
def State.recCheck (s : State) (i : Nat) : Nat := if 64 ≤ i then 1 else if !dvValid (s.dreEnt 0 i) then 6 else 0

/-- ARM of an IDLE instance (R310). -/
def State.recArm (s : State) (i : Nat) : Nat × State :=
  if s.recCheck i ≠ 0 then (s.recCheck i, s) else if (s.recOf i).state ≠ 0 then (6, s) else (0, s.recArmNow i)

/-- DISARM of an instance that is not IDLE (R310). -/
def State.recDisarm (s : State) (i : Nat) : Nat × State :=
  if s.recCheck i ≠ 0 then (s.recCheck i, s) else if (s.recOf i).state = 0 then (6, s) else (0, s.recDisarmNow i)

/-- TRIGGER: a manual trigger at the first instant closed from now on (R308). -/
def State.recTrigger (s : State) (i : Nat) : Nat × State :=
  if s.recCheck i ≠ 0 then (s.recCheck i, s)
  else if (s.recOf i).state = 0 then (6, s)
  else (0, s.modRec i (fun x => { x with manual := x.manual ++ [(s.lattice (dvLat (s.dreEnt 0 i))).next] }))

/-- RELEASE of a COMMITTED buffer (R316). -/
def State.recRelease (s : State) (i k : Nat) : Nat × State :=
  if s.recCheck i ≠ 0 then (s.recCheck i, s)
  else if dvNbuf (s.dreEnt 0 i) ≤ k then (1, s)
  else if s.dirState (s.dreEnt 0 i) k ≠ 3 then (6, s)
  else (0, s.recReleaseBuf i k)

/-- An operation of DRE.CMD without data. -/
def dreOp (f : State → Nat × State) (s : State) : Nat × Option (List Nat) × State := ((f s).1, none, (f s).2)

/-- DRE_WRITE. -/
def dreWriteAct (t i : Nat) (s : State) : Nat × Option (List Nat) × State :=
  if s.tmc.locked then (7, none, s)
  else if dreSize t ≤ i then (1, none, s)
  else
    let w := (s.dataWords .dre).take (if t = 0 then 5 else if t = 1 then 4 else 1)
    if !dreEntOk t w then (5, none, s) else (0, none, s.setDreEnt t i w)

/-- DRE_READ. -/
def dreReadAct (t i : Nat) (s : State) : Nat × Option (List Nat) × State :=
  if dreSize t ≤ i then (1, none, s) else (0, some (s.dreEnt t i), s)

/-- STAT: one snapshot into DRE.STAT (R321). -/
def dreStatAct (i : Nat) (s : State) : Nat × Option (List Nat) × State :=
  if 64 ≤ i then (1, none, s)
  else
    let ws := s.recStatWords i
    (0, none, forN 4 (fun s k => s.setF (F.DRE_STAT_WORD.nth k) (word ws k)) s)

/-- The fields of DRE.CMD. -/
def dreFields (t i : Nat) : List (Field × Nat) := [(F.DRE_CMD_TABLE, t), (F.DRE_CMD_INDEX, i)]

/-! ### Commands (R322) -/

/-- The answer of a command that runs an operation. -/
def recAns (i : Nat) (r : Nat × State) (s : State) : Ans × State :=
  if r.1 = 0 then (.done [], r.2) else (.fail (resultStatus r.1) 0x0C r.1 i, s)

/-- Whether a tenant may act on an instance (R322, R345). -/
def State.recOwned (s : State) (n i : Nat) : Bool := dvValid (s.dreEnt 0 i) && dvSlice (s.dreEnt 0 i) == n && slSelfRec (s.sltEnt 0 n)

/-- Whether a running REC_EXPORT holds a buffer (R452). -/
def State.exportHolds (s : State) (i k : Nat) : Bool :=
  match s.tmc.exp with
  | some x => x.recs.contains (.stored i k)
  | none => false

/-- REC_STATUS. -/
def recStatusAct (clear : Bool) (i : Nat) (s : State) : Ans × State :=
  if 64 ≤ i then (.fail stBadParam 0x0C 1 i, s)
  else (.done ((s.recStatWords i).flatMap (le 8) ++ s.cntOctets F.DRE_CNT_COUNT 0 10), s.clearCnt F.DRE_CNT_COUNT 0 10 clear)

/-- REC_LIST: the directory headers of an instance. -/
def recListAct (i : Nat) (s : State) : Ans × State :=
  if 64 ≤ i then (.fail stBadParam 0x0C 1 i, s)
  else
    let w := s.dreEnt 0 i
    (.done (listOctets (fun k => (s.rdWords (dirAddr w k) 16).flatMap (le 8)) (List.range (if dvValid w then dvNbuf w else 0))), s)

/-- REC_RELEASE of one buffer, or of every COMMITTED one. -/
def recReleaseAct (i : Nat) (buf : Option Nat) (s : State) : Ans × State :=
  match buf with
  | some k => if s.exportHolds i k then (.fail stBusy 0x0C 0 i, s) else recAns i (s.recRelease i k) s
  | none =>
    if s.recCheck i ≠ 0 then recAns i (s.recCheck i, s) s
    else
      let ks := (List.range (dvNbuf (s.dreEnt 0 i))).filter (fun k => s.dirState (s.dreEnt 0 i) k == 3)
      if ks.any (s.exportHolds i) then (.fail stBusy 0x0C 0 i, s)
      else (.done [], ks.foldl (fun s k => s.recReleaseBuf i k) s)

/-- REC_EXPORT: accepted when its records and buffers may be used; the files are written at its end. -/
def recExportAct (q : Req) (fmt : Nat) (cfg dat : BufRef) (recs : List RecSrc) (s : State) : Ans × State :=
  if !exportOk fmt recs.length || !s.bufOk q dat || (fmt != 2 && !s.bufOk q cfg) then (.fail stBadParam 0x0C 0 0, s)
  else match recs.findSome? (s.recSrcFail q) with
    | some f => (.fail f.1 0x0C 0 f.2, s)
    | none => (.accepted 0 (heldBy ([cfg, dat] ++ recs.filterMap (fun (r : RecSrc) => match r with | .raw b => some b | _ => none))), { s with tmc := { s.tmc with exp := some ⟨fmt, cfg, dat, recs⟩ } })

/-- Whether every stored record of an export is the tenant's own. -/
def State.exportOwned (s : State) (n : Nat) (recs : List RecSrc) : Bool :=
  slSelfRec (s.sltEnt 0 n) && recs.all (fun r => match r with | .stored i _ => s.recOwned n i | .raw _ => true)

/-- DRE_WRITE. -/
def execDreWrite (m : Master) (table index : Nat) (s : State) : Result := s.cmdRun m .dre (dreFields table index) true (dreWriteAct table index)
/-- DRE_READ. -/
def execDreRead (m : Master) (table index : Nat) (s : State) : Result := s.cmdRun m .dre (dreFields table index) false (dreReadAct table index)
/-- DRE_ARM. -/
def execDreArm (m : Master) (index : Nat) (s : State) : Result :=
  s.cmdRun m .dre [(F.DRE_CMD_INDEX, index)] true (dreOp (fun s => s.recArm index))
/-- DRE_DISARM. -/
def execDreDisarm (m : Master) (index : Nat) (s : State) : Result :=
  s.cmdRun m .dre [(F.DRE_CMD_INDEX, index)] true (dreOp (fun s => s.recDisarm index))
/-- DRE_TRIGGER. -/
def execDreTrigger (m : Master) (index : Nat) (s : State) : Result :=
  s.cmdRun m .dre [(F.DRE_CMD_INDEX, index)] true (dreOp (fun s => s.recTrigger index))
/-- DRE_RELEASE: the buffer in DATA[0][11:0]. -/
def execDreRelease (m : Master) (index : Nat) (s : State) : Result :=
  s.cmdRun m .dre [(F.DRE_CMD_INDEX, index)] true (dreOp (fun s => s.recRelease index (wbits (s.dataWords .dre) 0 11 0)))
/-- DRE_STAT. -/
def execDreStat (m : Master) (index : Nat) (s : State) : Result := s.cmdRun m .dre [(F.DRE_CMD_INDEX, index)] false (dreStatAct index)
/-- REC_STATUS. -/
def execRecStatus (q : Req) (clear : Bool) (inst : Nat) (s : State) : Result :=
  s.patchaif q 0x0801 (flagOctets clear ++ le 4 inst) false (s.recOwned (sessSlice q.sess) inst) (recStatusAct clear inst)
/-- REC_LIST. -/
def execRecList (q : Req) (inst : Nat) (s : State) : Result :=
  s.patchaif q 0x0802 (le 4 inst) false (s.recOwned (sessSlice q.sess) inst) (recListAct inst)
/-- REC_ARM. -/
def execRecArm (q : Req) (inst : Nat) (s : State) : Result :=
  s.patchaif q 0x0803 (le 4 inst) false (s.recOwned (sessSlice q.sess) inst) (fun s => recAns inst (s.recArm inst) s)
/-- REC_DISARM. -/
def execRecDisarm (q : Req) (inst : Nat) (s : State) : Result :=
  s.patchaif q 0x0804 (le 4 inst) false (s.recOwned (sessSlice q.sess) inst) (fun s => recAns inst (s.recDisarm inst) s)
/-- REC_TRIGGER. -/
def execRecTrigger (q : Req) (inst : Nat) (s : State) : Result :=
  s.patchaif q 0x0805 (le 4 inst) false (s.recOwned (sessSlice q.sess) inst) (fun s => recAns inst (s.recTrigger inst) s)
/-- REC_RELEASE. -/
def execRecRelease (q : Req) (inst : Nat) (buf : Option Nat) (s : State) : Result :=
  s.patchaif q 0x0806 (le 4 inst ++ flagOctets buf.isNone ++ le 4 (buf.getD 0)) false (s.recOwned (sessSlice q.sess) inst)
    (recReleaseAct inst buf)
/-- REC_EXPORT. -/
def execRecExport (q : Req) (fmt : Nat) (cfg dat : BufRef) (recs : List RecSrc) (s : State) : Result :=
  s.patchaif q 0x0807 (le 1 fmt ++ bufOctets cfg ++ bufOctets dat ++ listOctets srcOctets recs) true (s.exportOwned (sessSlice q.sess) recs)
    (recExportAct q fmt cfg dat recs)

end Sys2Proof.Machine
end

