-- ==== Sys2Proof/Machine/RegStore.lean ====
section
/-! DEFINITION. Registers by address (R9 to R11): which register an address names, what a write of a word does to its fields, and
what a read returns and clears. -/
namespace Sys2Proof.Machine

/-- The page instance and the element of a register at an address. -/
def Register.at_ (r : Register) (a : Nat) : Option (Nat × Nat) :=
  if a < r.addr then none
  else
    let p := (a - r.addr) / 0x10000
    let o := (a - r.addr) % 0x10000
    if r.pages ≤ p then none
    else if r.stride = 0 then (if o = 0 then some (p, 0) else none)
    else if o % r.stride = 0 ∧ o / r.stride < r.count then some (p, o / r.stride) else none

/-- The register at an address, with page instance and element; none where the pages define none (R9). -/
def regAt (a : Nat) : Option (Register × Nat × Nat) := registers.findSome? (fun r => (r.at_ a).map (fun x => (r, x)))

/-- The fields of an element of a register on a page instance. -/
def Register.inst (r : Register) (p k : Nat) : List Field :=
  r.fields.map (fun f => if r.pages = 1 then f.nth k else (f.nth k).pg p)

/-- The part of a word that a field takes. -/
def Field.part (f : Field) (v : Nat) : Nat := v / 2 ^ f.lo % 2 ^ f.width

/-- A write of a word to one field by its access code (R10, R11): a value without a function leaves it unchanged, and after the
commit an RWL field discards the write. -/
def State.storeField (s : State) (locked : Bool) (v : Nat) (f : Field) : State :=
  let x := f.part v
  let ok := f.legal x
  match f.acc with
  | .rw => if ok then s.setF f x else s
  | .rwl => if ok && !locked then s.setF f x else s
  | .w1c => s.setF f (s.get f - (s.get f &&& x))
  | _ => s

/-- A write of a word to a register. -/
def State.storeReg (s : State) (fs : List Field) (locked : Bool) (v : Nat) : State := fs.foldl (fun s f => s.storeField locked v f) s

/-- The word that a read of a register returns: write-only fields read as zero (R10). -/
def State.loadReg (s : State) (fs : List Field) : Nat :=
  sumN (fs.map (fun f => if f.acc = .wo then 0 else s.get f * 2 ^ f.lo))

/-- RC fields of a register that was read go to zero (R10). -/
def State.clearRead (s : State) (fs : List Field) : State := fs.foldl (fun s f => if f.acc = .rc then s.setF f 0 else s) s

end Sys2Proof.Machine
end

