-- ==== Sys2Proof/Machine/Island.lean ====
section
/-! DEFINITION. The Personnel Safety Channel (R384 to R407): inputs, functions, arc evaluation, outputs, the states of the
island, and operand space S. -/
namespace Sys2Proof.Machine

/-! ### State of the island -/

/-- ISTATE: 0 OFF, 1 SELFTEST, 2 WAIT_PARAM, 3 PROOF, 4 RUN, 5 FAULT. -/
def State.ist (s : State) : Nat := s.get F.PSC_STATUS_ISTATE
/-- The island of an SK9M-AS with its rails up (R2, R386). -/
def State.islandOn (s : State) : Bool := s.flag F.TMC_MODULE_ID_SAFETY_EN && s.psc.powered
/-- Test pulses and input evaluation run once the parameters are accepted (R400). -/
def State.islandEval (s : State) : Bool := s.ist == 3 || s.ist == 4
/-- The state with the island changed. -/
def State.modPsc (s : State) (f : Island → Island) : State := { s with psc := f s.psc }
/-- A safety input. -/
def State.sin (s : State) (n : Nat) : SafeIn := Tbl.get {} n s.psc.ins
/-- A safety function. -/
def State.sfn (s : State) (m : Nat) : SafeFn := Tbl.get {} m s.psc.fns
/-- An arc channel. -/
def State.arcCh (s : State) (c : Nat) : ArcCh := Tbl.get {} c s.psc.arc
/-- A safety output. -/
def State.sout (s : State) (k : Nat) : SafeOut := Tbl.get {} k s.psc.outs
/-- The state with a safety output changed. -/
def State.modSout (s : State) (k : Nat) (f : SafeOut → SafeOut) : State :=
  s.modPsc (fun p => { p with outs := Tbl.mod {} k f p.outs })
/-- Count one event of the PSC (R405). -/
def State.pscBump (s : State) (n : Nat) : State := s.bump (F.PSC_CNT_COUNT.nth n)
/-- Count one event of the arc evaluator (R406). -/
def State.arcBump (s : State) (n : Nat) : State := s.bump (F.PSC_ARC_CNT_COUNT.nth n)
/-- FB_TIME in samples; 0 is taken as 1 ms. -/
def State.fbTime (s : State) (k : Nat) : Nat := max 1 (s.get (F.PSC_OUT_CFG_FB_TIME.nth k)) * 40

/-! ### Safety inputs (R388 to R390) -/

/-- Whether sample `t` lies in the check window of the pulse that began at `p`: from 50 µs after its start to its end. -/
def inWindow (p : Option Nat) (t : Nat) : Bool :=
  match p with
  | some p => decide (p + 2 ≤ t) && decide (t < p + 8)
  | none => false

/-- A channel reads closed or open at sample `t`; `filt` samples of the same reading change its state (R389). -/
def SafeCh.sample (c : SafeCh) (closed tp : Bool) (filt t : Nat) : SafeCh :=
  let same := c.reads == closed && c.run != 0
  let c := { c with reads := closed, since := if same then c.since else t, run := if same then min 2 (c.run + 1) else 1
                    returned := closed && c.returned }
  if c.run < 2 ∨ t < c.since + filt then c
  else if closed then { c with closed := c.closed || !tp || c.returned }
  else { c with closed := false }

/-- A channel at a sample inside its check window: low is a pulse returned (R388). -/
def SafeCh.window (c : SafeCh) (high : Bool) : SafeCh := if high then c else { c with returned := true }

/-- Both channels have read open for 100 ms (R390). -/
def SafeIn.cleared (x : SafeIn) (t : Nat) : Bool :=
  let quiet := fun c : SafeCh => !c.reads && c.run != 0 && decide (c.since + 4000 ≤ t)
  quiet x.a && quiet x.b

/-- One sample of an enabled input, which is taken as open while VIO_CAR is out of range (R401): the input after, and whether it took FAULT from a test pulse or from a disagreement. -/
def State.inputSample (s : State) (n : Nat) (x : SafeIn) (ha hb : Bool) (t : Nat) : SafeIn × Bool × Bool :=
  let live := s.sup.vioDriven
  let tp := s.flag (F.PSC_IN_CFG_TP_EN.nth n)
  let filt := s.get (F.PSC_IN_CFG_FILT.nth n) * 40
  let wa := live && tp && inWindow s.psc.tpA t
  let wb := live && tp && inWindow s.psc.tpB t
  let ch := fun (w : Bool) (c : SafeCh) (h : Bool) => if w then c.window h else c.sample (live && h) tp filt t
  let x := { x with a := ch wa x.a ha, b := ch wb x.b hb }
  let pulse := (wa && ha) || (wb && hb)
  let from_ := if x.a.closed == x.b.closed then none else some (x.disFrom.getD t)
  let disc := match from_ with
    | some f => decide (f + max 1 (s.get (F.PSC_IN_CFG_DISC.nth n)) * 400 ≤ t)
    | none => false
  let fault := pulse || disc || (x.fault && !x.cleared t)
  let closed := live && x.a.closed && x.b.closed && !fault
  let fell := x.was && !closed && decide (x.closedAt + 4000 ≤ t) && decide (t ≤ x.closedAt + 200000)
  ({ x with disFrom := from_, fault, was := closed, closedAt := if closed && !x.was then t else x.closedAt
            reset := x.reset || fell }, pulse && !x.fault, disc && !pulse && !x.fault)

/-- The inputs of a function. -/
def State.fnInputs (s : State) (m : Nat) : List Nat :=
  (List.range 16).filter (fun n => bit n (s.get (F.PSC_FUNC_CFG_INPUTS.nth m)))

/-- A function at one sample: an open input, and for a two-hand instance both inputs open and the end of the permit (R391,
R392). -/
def State.fnSample (s : State) (m : Nat) (f : SafeFn) : SafeFn :=
  let ins := (s.fnInputs m).map (fun n => (s.sin n).was)
  let anyOpen := ins.any (!·)
  let f := { f with opened := f.opened || anyOpen }
  if m < 16 then f
  else
    let f := if f.ok && anyOpen then { f with ok := false, bothOpen := false } else f
    { f with bothOpen := f.bothOpen || ins.all (!·) }

/-- ISLAND_SAMPLE: the channels of every input at one sample. -/
def State.islandSample (s : State) (wa wb t : Nat) : State :=
  let s := forN 16 (fun s n =>
    if s.flag (F.PSC_IN_CFG_EN.nth n) then
      let r := s.inputSample n (s.sin n) (bit n wa) (bit n wb) t
      let s := s.modPsc (fun p => { p with ins := Tbl.set {} n r.1 p.ins })
      let s := if r.2.1 then s.pscBump 0 else s
      if r.2.2 then s.pscBump 1 else s
    else s.modPsc (fun p => { p with ins := Tbl.set {} n {} p.ins })) s
  forN 20 (fun s m => s.modPsc (fun p => { p with fns := Tbl.set {} m (s.fnSample m (s.sfn m)) p.fns })) s

/-! ### Functions (R391 to R393) -/

/-- Whether every input of a function is CLOSED. -/
def State.fnClosed (s : State) (m : Nat) : Bool := (s.fnInputs m).all (fun n => (s.sin n).was)

/-- Whether the reset input of an instance has acted in the cycle, under RESET_MODE 1 or 2 (R393). -/
def State.resetHit (s : State) (mode n : Nat) : Bool := (mode == 1 || mode == 2) && (s.sin n).reset

/-- A latching function at the end of a cycle, counting a demand at `cnt`. -/
def State.latchFn (s : State) (m cnt : Nat) : State :=
  let f := s.sfn m
  let closed := s.fnClosed m
  let hit := s.resetHit (s.get (F.PSC_FUNC_CFG_RESET_MODE.nth m)) (s.get (F.PSC_FUNC_CFG_RESET_IN.nth m))
  let kept := f.latched && !(hit && closed)
  let latched := kept || f.opened
  let s := s.modPsc (fun p => { p with fns := Tbl.set {} m { f with latched, ok := !latched && closed } p.fns })
  if f.opened && !kept then s.pscBump cnt else s

/-- A two-hand instance at the end of a cycle: a permit is granted (R392). -/
def State.twoHand (s : State) (m : Nat) : State :=
  let f := s.sfn m
  let near := match s.fnInputs m with
    | [i, j] => decide ((s.sin i).closedAt ≤ (s.sin j).closedAt + 20000) && decide ((s.sin j).closedAt ≤ (s.sin i).closedAt + 20000)
    | _ => false
  if !f.ok && f.bothOpen && near && s.fnClosed m then
    (s.modPsc (fun p => { p with fns := Tbl.set {} m { f with ok := true } p.fns })).pscBump 5
  else s

/-- A function's decision at the end of a cycle (R391). -/
def State.fnDecide (s : State) (m : Nat) : State :=
  if !s.flag (F.PSC_FUNC_CFG_EN.nth m) then s.modPsc (fun p => { p with fns := Tbl.set {} m {} p.fns })
  else if m < 8 then s.latchFn m 3
  else if 16 ≤ m then s.twoHand m
  else if s.get (F.PSC_FUNC_CFG_RESET_MODE.nth m) = 0 then
    let f := s.sfn m
    let ok := s.fnClosed m && !f.opened
    let s := s.modPsc (fun p => { p with fns := Tbl.set {} m { f with ok } p.fns })
    if f.ok && !ok then s.pscBump 4 else s
  else s.latchFn m 4

/-! ### Arc evaluation (R394 to R396) -/

/-- The current-presence bits of the MODE 1 instances that watch a channel. -/
def State.arcMask (s : State) (c : Nat) : Nat :=
  ((List.range 4).filter (fun i => s.flag (F.PSC_ARC_INST_CFG_EN.nth i) && s.flag (F.PSC_ARC_INST_CFG_MODE.nth i)
    && bit c (s.get (F.PSC_ARC_INST_CFG_CH.nth i)))).foldl (fun m i => m ||| s.get (F.PSC_ARC_INST_CFG_CPW_MASK.nth i)) 0

/-- A channel over one cycle that ends at `t` with `l` edges: confirmed light, light seen, and its end (R394). The self-test
cycle is not counted. The Bool is whether a light ended without current. -/
def State.arcCycle (s : State) (c l t : Nat) (x : ArcCh) : ArcCh × Bool :=
  let x := match x.testing with
    | some _ => { x with testing := none }
    | none =>
      if s.get (F.PSC_ARC_CH_CFG_LTH.nth c) ≤ l then
        let run := x.run + 1
        if x.seen then { x with run, lastLight := t }
        else if s.get (F.PSC_ARC_CH_CFG_LCONF.nth c) ≤ run then { x with run, seen := true, lastLight := t, cur := 0 }
        else { x with run }
      else { x with run := 0 }
  if x.seen && decide (x.lastLight + s.get F.PSC_ARC_CTL_LHOLD * 40 ≤ t) then
    ({ x with seen := false }, s.arcMask c != 0 && x.cur &&& s.arcMask c == 0)
  else (x, false)

/-- Every channel over one cycle. -/
def State.arcChannels (s : State) (edges : List Nat) (t : Nat) : State :=
  forN 4 (fun s c =>
    if !s.flag (F.PSC_ARC_CH_CFG_EN.nth c) then s.modPsc (fun p => { p with arc := Tbl.set {} c {} p.arc })
    else
      let x := s.arcCh c
      let l := x.testing.getD (min 1250 (word edges c))
      let r := s.arcCycle c l t x
      let s := s.modPsc (fun p => { p with arc := Tbl.set {} c r.1 p.arc })
      let s := (s.setF (F.PSC_ARC_CH_STAT_L_LAST.nth c) l).setF (F.PSC_ARC_CH_STAT_L_MAX.nth c)
        (max l (s.get (F.PSC_ARC_CH_STAT_L_MAX.nth c)))
      if r.2 then s.arcBump 3 else s) s

/-- The channels an instance watches. -/
def State.arcChans (s : State) (i : Nat) : List Nat :=
  (List.range 4).filter (fun c => bit c (s.get (F.PSC_ARC_INST_CFG_CH.nth i)))

/-- Light seen on a channel of an instance. -/
def State.arcLight (s : State) (i : Nat) : Bool := (s.arcChans i).any (fun c => (s.arcCh c).seen)

/-- Whether the light of an instance trips it: alone, with current proved by a fresh update, or under CUR_FALLBACK (R396). -/
def State.arcTrips (s : State) (i : Nat) : Bool :=
  if !s.flag (F.PSC_ARC_INST_CFG_MODE.nth i) then s.arcLight i
  else if s.flag F.PSC_STATUS_CPW_STALE then !s.flag F.PSC_ARC_CTL_CUR_FALLBACK && s.arcLight i
  else (s.arcChans i).any (fun c =>
    (s.arcCh c).seen && (s.arcCh c).cur &&& s.get (F.PSC_ARC_INST_CFG_CPW_MASK.nth i) != 0)

/-- An ARC instance's decision at the end of a cycle (R395, R396). -/
def State.arcDecide (s : State) (i : Nat) : State :=
  let was := bit i s.psc.arcLatched
  if !s.flag (F.PSC_ARC_INST_CFG_EN.nth i) then s
  else
    let hit := s.resetHit (s.get (F.PSC_ARC_INST_CFG_RESET_MODE.nth i)) (s.get (F.PSC_ARC_INST_CFG_RESET_IN.nth i))
    let kept := was && !(hit && !s.arcLight i)
    let sens := s.flag (F.PSC_ARC_INST_CFG_SENS_TRIP.nth i) && (s.arcChans i).any (fun c => (s.arcCh c).sens)
    let trips := s.arcTrips i
    let s := s.modPsc (fun p => { p with arcLatched := putBits i i (b2n (kept || trips || sens)) p.arcLatched })
    if trips && !kept then s.arcBump 0 else s

/-- An ARC instance is OK: in use and not latched. -/
def State.arcOk (s : State) (i : Nat) : Bool := s.flag (F.PSC_ARC_INST_CFG_EN.nth i) && !bit i s.psc.arcLatched

/-! ### Outputs (R397, R398) -/

/-- Whether the instance of a MAP bit is OK. -/
def State.instOk (s : State) (b : Nat) : Bool := if b < 20 then (s.sfn b).ok else s.arcOk (b - 20)

/-- Whether output `k` is to be energised. -/
def State.energise (s : State) (k : Nat) : Bool :=
  s.ist == 4 && s.sup.vioDriven && !s.psc.mustProof && s.flag F.PSC_CTL_EN && s.flag (F.PSC_OUT_CFG_EN.nth k)
    && !(s.sout k).fault && !(s.psc.proof.isSome && s.psc.proofK == k)
    && (List.range 24).all (fun b => !bit b (s.get (F.PSC_OUT_CFG_MAP.nth k)) || s.instOk b)

/-- An output driven as decided; a change awaits its check. -/
def State.driveOut (s : State) (k : Nat) (on : Bool) : State :=
  if (s.sout k).on = on then s
  else s.modSout k (fun o => { o with on, a := on, b := on, changedAt := if s.sup.vioDriven then some s.psc.time else none })

/-- ENERGISED and OUT_FAULT. -/
def State.showOuts (s : State) : State :=
  let m := fun (f : SafeOut → Bool) => sumN ((List.range 4).map (fun k => b2n (f (s.sout k)) * 2 ^ k))
  (s.setF F.PSC_STATUS_ENERGISED (m (·.on))).setF F.PSC_STATUS_OUT_FAULT (m (·.fault))

/-! ### What the island shows (R402, R405, R406) -/

/-- The status registers. -/
def State.showPsc (s : State) : State :=
  let m := fun (n : Nat) (f : Nat → Bool) => sumN ((List.range n).map (fun i => b2n (f i) * 2 ^ i))
  let s := (s.setF F.PSC_IN_STAT_FAULT (m 16 (fun n => (s.sin n).fault))).setF F.PSC_IN_STAT_CLOSED (m 16 (fun n => (s.sin n).was))
  let s := (s.setF F.PSC_FUNC_STAT_ETP_OK (m 8 (fun i => (s.sfn i).ok))).setF F.PSC_FUNC_STAT_DOOR_OK
    (m 8 (fun i => (s.sfn (8 + i)).ok))
  let s := s.setF F.PSC_FUNC_STAT_THL_PERMIT (m 4 (fun i => (s.sfn (16 + i)).ok))
  let s := forN 4 (fun s c => (s.setB (F.PSC_ARC_CH_STAT_LIGHT.nth c) (s.arcCh c).seen).setB (F.PSC_ARC_CH_STAT_SENS_FAULT.nth c)
    (s.arcCh c).sens) s
  let s := s.setF F.PSC_ARC_INST_STAT_OK (m 4 s.arcOk)
  (s.setF F.PSC_ARC_INST_STAT_WAIT_CUR (m 4 (fun i => s.flag (F.PSC_ARC_INST_CFG_EN.nth i)
    && s.flag (F.PSC_ARC_INST_CFG_MODE.nth i) && s.arcLight i && !bit i s.psc.arcLatched))).showOuts

/-- Operand space S (R402): the index of each bit that is 1. -/
def State.sBits (s : State) : List Nat :=
  let run := fun (b n : Nat) (f : Nat → Bool) => ((List.range n).filter f).map (b + ·)
  run 0 16 (fun n => (s.sin n).was) ++ run 16 16 (fun n => (s.sin n).fault) ++ run 32 20 (fun m => (s.sfn m).ok)
    ++ run 52 4 s.arcOk ++ run 56 4 (fun c => (s.arcCh c).seen) ++ run 60 4 (fun c => (s.arcCh c).sens)
    ++ run 64 4 (fun k => (s.sout k).on) ++ run 68 4 (fun k => (s.sout k).fault)
    ++ run 72 1 (fun _ => s.flag F.PSC_STATUS_CPW_STALE) ++ run 73 1 (fun _ => s.ist == 4)
    ++ run 74 1 (fun _ => s.flag F.PSC_STATUS_ROOT_FAULT)

/-- One update of operand space S. -/
def State.sendS (s : State) : State := { s with slp := { s.slp with s := s.sBits.map (fun i => (i, true)) } }

/-! ### States (R385, R400) -/

/-- Every output driven low at once, with its fault kept: the change of an energised one awaits its check, as a change before it
does (R398). -/
def State.outsLow (s : State) : Tbl SafeOut :=
  s.psc.outs.filterMap (fun (q : Nat × SafeOut) =>
    let o := { q.2 with on := false, a := false, b := false
                        changedAt := if q.2.on then (if s.sup.vioDriven then some s.psc.time else none) else q.2.changedAt }
    if o = {} then none else some (q.1, o))

/-- The outcome of a SAFETY_PROOF that is cut short: it has not passed. -/
def Island.proofCut (p : Island) : Option Bool := if p.proof = some .command then some false else p.proofOk

/-- An island fault: every pin low, latched, one Belfry entry (R385). -/
def State.islandFault (s : State) (cause : Nat) : State :=
  let s := s.modPsc (fun p => { p with
    outs := s.outsLow, tpA := none, tpB := none, arct := 0, proof := none, proofOk := p.proofCut })
  (((s.setF F.PSC_STATUS_ISTATE 5).setF F.PSC_STATUS_FAULT_CAUSE cause).showOuts).belfry 1 0x0006 0 [cause]

/-- The configuration words of the island in ascending address order: its safety parameters (R400). -/
def State.paramWords (s : State) : List Nat :=
  let regs := fun (n : Nat) (fs : List Field) => (List.range n).map (fun i => s.regWord (fs.map (Field.nth · i)))
  regs 1 [F.PSC_CTL_EN] ++ regs 16 [F.PSC_IN_CFG_EN, F.PSC_IN_CFG_TP_EN, F.PSC_IN_CFG_DISC, F.PSC_IN_CFG_FILT]
    ++ regs 20 [F.PSC_FUNC_CFG_EN, F.PSC_FUNC_CFG_RESET_MODE, F.PSC_FUNC_CFG_RESET_IN, F.PSC_FUNC_CFG_INPUTS]
    ++ regs 4 [F.PSC_OUT_CFG_EN, F.PSC_OUT_CFG_FB_TIME, F.PSC_OUT_CFG_MAP]
    ++ regs 1 [F.PSC_ARC_CTL_CPW_TIMEOUT, F.PSC_ARC_CTL_CUR_FALLBACK, F.PSC_ARC_CTL_LHOLD, F.PSC_ARC_CTL_ARCT_PERIOD]
    ++ regs 4 [F.PSC_ARC_CH_CFG_EN, F.PSC_ARC_CH_CFG_LTEST, F.PSC_ARC_CH_CFG_LCONF, F.PSC_ARC_CH_CFG_LTH]
    ++ regs 4 [F.PSC_ARC_INST_CFG_EN, F.PSC_ARC_INST_CFG_MODE, F.PSC_ARC_INST_CFG_SENS_TRIP, F.PSC_ARC_INST_CFG_RESET_MODE,
      F.PSC_ARC_INST_CFG_RESET_IN, F.PSC_ARC_INST_CFG_CH, F.PSC_ARC_INST_CFG_CPW_MASK]

/-- The octets over which PARAM_CRC is computed. -/
def State.paramOctets (s : State) : Octets := s.paramWords.flatMap (le 4)

/-- The proof-open test goes on at the first enabled output from `k` up; with none left, RUN (R400). A test that begins answers
the need of one; an outage of VIO_CAR during it asks for another. -/
def State.proofFrom (s : State) (w : ProofFor) (k : Nat) : State :=
  let s := s.modPsc (fun p => { p with mustProof := p.mustProof && k != 0 })
  match (List.range 4).find? (fun i => decide (k ≤ i) && s.flag (F.PSC_OUT_CFG_EN.nth i)) with
  | some i => s.setF F.PSC_STATUS_ISTATE 3 |>.modPsc (fun p => { p with proof := some w, proofK := i, proofStep := 0, proofAt := p.time, proofLow := false })
  | none => s.setF F.PSC_STATUS_ISTATE 4 |>.modPsc (fun p => { p with proof := none })

/-- ISLAND_PARAMETERS: the parameters are checked against PARAM_CRC; MS5 is extended with them (R400, R423). -/
def State.takeParams (s : State) : State :=
  if s.ist != 2 || !s.psc.haveParam then s
  else if crc32c s.paramOctets = s.get F.PSC_PARAM_CRC_CRC then
    (s.extendMs 5 (Config.sha384 (s.paramOctets.map (·.toNat)))).proofFrom .start 0
  else s.islandFault 4

/-- The island starts: SELFTEST with every pin low (R400). Its time runs on; an output keeps its fault until its test passes (R398),
and a change its check; a SAFETY_PROOF under way ends without passing. -/
def State.islandStart (s : State) : State :=
  let s := { s with psc := { powered := true, haveParam := s.psc.haveParam, cpwQueue := s.psc.cpwQueue, time := s.psc.time
                             cpwAt := s.psc.time, outs := s.outsLow, proofOk := s.psc.proofCut } }
  let s := s.clearFields [F.PSC_STATUS_FAULT_CAUSE, F.PSC_STATUS_CPW_STALE, F.PSC_STATUS_ROOT_FAULT]
  (s.setF F.PSC_STATUS_ISTATE 1).showPsc

/-- The island loses its rails: registers and parameters go (R386, R401). -/
def State.islandOff (s : State) : State :=
  { s.clearPage 0x5000100000 0x5000120000 with psc := {}, slp := { s.slp with s := [] } }

/-- The current-presence word becomes stale (R387). -/
def State.goStale (s : State) : State :=
  if s.flag F.PSC_STATUS_CPW_STALE then s else (s.setF F.PSC_STATUS_CPW_STALE 1).pscBump 7

/-- The island finds the root ratio out of range (R387). -/
def State.islandRoot (s : State) : State :=
  if s.islandOn then (s.setF F.PSC_STATUS_ROOT_FAULT 1).goStale else s

/-! ### Events -/

/-- The samples of a cycle. -/
def State.islandSamples (s : State) (x : IslandInputs) : State :=
  let s := s.modPsc (fun p => { p with
    ins := p.ins.map (fun (q : Nat × SafeIn) => (q.1, { q.2 with reset := false }))
    fns := p.fns.map (fun (q : Nat × SafeFn) => (q.1, { q.2 with opened := false })) })
  forN 4 (fun s i => s.islandSample (word x.a i) (word x.b i) (s.psc.time + i)) s

/-- Decisions at the end of a cycle: functions and ARC instances in RUN and while the test of R400 is repeated, and the outputs
(R384, R397). In the test of a start they begin with RUN, as no instance starts latched. -/
def State.islandDecide (s : State) : State :=
  let s := if s.ist = 4 ∨ s.psc.proof = some .again then forN 4 State.arcDecide (forN 20 State.fnDecide s) else s
  forN 4 (fun s k => s.driveOut k (s.energise k)) s

/-- ISLAND_CYCLE: 100 µs of island time (R384). -/
def islandCycle (x : IslandInputs) (s : State) : State :=
  if !s.islandOn then s
  else
    let run := s.islandEval
    let s := if run then s.islandSamples x else s
    let s := s.modPsc (fun p => { p with
      proofLow := p.proofLow || (p.proof.isSome && p.proofStep == 0 && x.sfb.any (fun w => !bit p.proofK w)) })
    let t := s.psc.time + 4
    let ends := fun (p : Option Nat) => match p with | some b => if b + 8 ≤ t then none else some b | none => none
    let s := s.modPsc (fun p => { p with time := t, tpA := ends p.tpA, tpB := ends p.tpB, arct := 0 })
    let s := if run then s.arcChannels x.arc t else s
    let s := if run && !s.sup.vioDriven then s.modPsc (fun p => { p with mustProof := true }) else s
    let s := if run then s.islandDecide else s
    let s := if s.ist == 4 && s.psc.mustProof && s.sup.vioDriven && s.psc.proof.isNone then s.proofFrom .again 0 else s
    ((s.setF F.PSC_STATUS_SFB (word x.sfb 3 % 16)).showPsc).sendS

/-- ISLAND_FAULT: a cause of R385 found; a parameter failure only where the check fails. -/
def islandFaultEvent (c : IslandCause) (s : State) : State :=
  if !s.islandOn || s.ist == 5 || s.ist == 0 then s
  else match c with
    | .lockstep => s.islandFault 1
    | .memory => s.islandFault 2
    | .clock => s.islandFault 3
    | .paramCrc => if s.psc.haveParam ∧ crc32c s.paramOctets ≠ s.get F.PSC_PARAM_CRC_CRC then s.islandFault 4 else s

/-- TEST_PULSE: TP_A at offset 0 and TP_B at offset 5 ms of every 10 ms of island time (R388). -/
def testPulse (b : Bool) (s : State) : State :=
  if s.islandOn && s.islandEval && s.psc.time % 400 == (if b then 200 else 0) then
    s.modPsc (fun p => if b then { p with tpB := some p.time } else { p with tpA := some p.time })
  else s

/-- CPW_UPDATE: the next update of the current-presence word arrives (R387). -/
def cpwUpdate (s : State) : State :=
  match s.psc.cpwQueue with
  | [] => s
  | (seq, w) :: rest =>
    let s := s.modPsc (fun p => { p with cpwQueue := rest })
    if !s.islandOn then s
    else
      let s := if seq = (s.get F.PSC_STATUS_CPW_SEQ + 1) % 16 then s else s.pscBump 6
      let s := (s.setF F.PSC_STATUS_CPW_SEQ seq).setF F.PSC_STATUS_CPW_STALE 0
      s.modPsc (fun p => { p with cpwAt := p.time, arc := p.arc.map (fun (q : Nat × ArcCh) =>
        (q.1, if q.2.seen then { q.2 with cur := q.2.cur ||| w } else q.2)) })

/-- CPW_TIMEOUT (R387). -/
def cpwTimeout (s : State) : State :=
  if s.islandOn && decide (s.psc.cpwAt + s.get F.PSC_ARC_CTL_CPW_TIMEOUT * 40 ≤ s.psc.time) then s.goStale else s

/-- ARC_SELFTEST: channel c at offset c × ARCT_PERIOD × 2.5 ms of every ARCT_PERIOD × 10 ms; the next cycle is its self-test cycle,
with `edges` rising edges (R395). -/
def arcSelftest (c edges : Nat) (s : State) : State :=
  let p := s.get F.PSC_ARC_CTL_ARCT_PERIOD
  if s.islandOn && s.islandEval && decide (c < 4) && s.flag (F.PSC_ARC_CH_CFG_EN.nth c)
      && s.psc.time % (p * 400) == c * p * 100 then
    let l := min 1250 edges
    let x := s.arcCh c
    let pass := decide (s.get (F.PSC_ARC_CH_CFG_LTEST.nth c) ≤ l)
    let fails := if pass then 0 else x.fails + 1
    let sens := !pass && (x.sens || decide (2 ≤ fails))
    let s := s.modPsc (fun q => { q with
      arc := Tbl.set {} c { x with testing := some l, fails, sens } q.arc, arct := putBits c c 1 q.arct })
    let s := if pass then s.arcBump 2 else s
    if sens && !x.sens then s.arcBump 1 else s
  else s

/-- FEEDBACK_CHECK: FB_TIME after a change of output k, SFBk must be low when energised and high when not (R398). -/
def feedbackCheck (k sfb : Nat) (s : State) : State :=
  let o := s.sout k
  match o.changedAt with
  | none => s
  | some t =>
    if !s.islandOn || decide (s.psc.time < t + s.fbTime k) then s
    else if !s.sup.vioDriven || (sfb == 0) == o.on then s.modSout k (fun o => { o with changedAt := none })
    else
      let s := s.modSout k (fun o => { o with
        fault := true, on := false, a := false, b := false, changedAt := if o.on then some s.psc.time else none })
      (s.pscBump 2).showOuts

/-- ISLAND_SELFTEST_DONE (R400). -/
def islandSelftestDone (s : State) : State :=
  if s.islandOn && s.ist == 1 then (s.setF F.PSC_STATUS_ISTATE 2).takeParams else s

/-- The end of the test of output k: a failure is the output's fault; one of a start, with which SAFETY_RESTART passes, and
SAFETY_PROOF clear it, the one repeated after an outage of VIO_CAR does not (R398, R400). -/
def State.proofDone (s : State) (k : Nat) (ok : Bool) : State :=
  let s := s.modSout k (fun o => { o with a := false, b := false })
  match s.psc.proof with
  | some .command =>
    (s.modSout k (fun o => { o with fault := !ok })).modPsc (fun p => { p with proof := none, proofOk := some ok }) |>.showOuts
  | w =>
    let was := (s.sout k).fault && w == some .again
    ((s.modSout k (fun o => { o with fault := was || !ok })).showOuts).proofFrom (w.getD .start) (k + 1)

/-- A step of the proof-open test: none where it still runs, else whether it passed. In step 0 SFBk reads high for 10 ms; then SOkA is
driven, SFBk falls within FB_TIME, SOkA is released and SFBk rises within FB_TIME, and the same with SOkB (R400). -/
def State.proofStepEnds (s : State) (k : Nat) (sfb : Bool) : Option Bool :=
  let p := s.psc
  if p.proofStep = 0 then
    if !sfb || p.proofLow then some false
    else if decide (p.proofAt + 400 ≤ p.time) then some true
    else none
  else
    let due := p.proofAt + s.fbTime k
    if decide (due < p.time) then some false
    else if sfb == (p.proofStep % 2 == 0) then some true
    else if p.time = due then some false
    else none

/-- PROOF_TEST_STEP: the level of SFBk as the island reads it, or the time limit, completes a step of the test of output k. -/
def proofTestStep (k : Nat) (sfb : Bool) (s : State) : State :=
  if !s.islandOn || s.psc.proof.isNone || s.psc.proofK != k then s
  else match s.proofStepEnds k sfb with
    | none => s
    | some false => s.proofDone k false
    | some true =>
      let n := s.psc.proofStep
      if 4 ≤ n then s.proofDone k true
      else
        let s := s.modSout k (fun o => { o with a := n == 0 && s.sup.vioDriven, b := n == 2 && s.sup.vioDriven })
        s.modPsc (fun p => { p with proofStep := n + 1, proofAt := p.time })

/-! ### What the bundle commit rejects (R405, R406) -/

/-- The first PSC entry that the commit rejects. -/
def State.pscFail (s : State) : Option Nat :=
  let on := fun (m : Nat) => s.flag (F.PSC_FUNC_CFG_EN.nth m)
  let mode := fun (m : Nat) => s.get (F.PSC_FUNC_CFG_RESET_MODE.nth m)
  let enabled := fun (n : Nat) => s.flag (F.PSC_IN_CFG_EN.nth n)
  let resetOf := fun (m : Nat) => if m < 16 ∧ mode m ≠ 0 then [s.get (F.PSC_FUNC_CFG_RESET_IN.nth m)] else []
  let arcReset := ((List.range 4).filter (fun i => s.flag (F.PSC_ARC_INST_CFG_EN.nth i))).map
    (fun i => s.get (F.PSC_ARC_INST_CFG_RESET_IN.nth i))
  let named := (List.range 20).flatMap s.fnInputs
  match (List.range 20).find? (fun m => on m &&
      ((decide (m < 8) && mode m == 0) || (decide (16 ≤ m) && (s.fnInputs m).length != 2)
        || (s.fnInputs m ++ resetOf m).any (fun n => !enabled n) || (resetOf m).any named.contains)) with
  | some m => some m
  | none =>
    if arcReset.any (fun n => !enabled n || named.contains n) then some 20
    else ((List.range 4).find? (fun k => s.flag (F.PSC_OUT_CFG_EN.nth k) && s.get (F.PSC_OUT_CFG_MAP.nth k) == 0)).map (32 + ·)

/-- The first PSC_ARC entry that the commit rejects: an instance, or 16 and a channel. -/
def State.arcFail (s : State) : Option Nat :=
  let bad := fun (i : Nat) =>
    let m := s.get (F.PSC_ARC_INST_CFG_RESET_MODE.nth i)
    let mask := s.get (F.PSC_ARC_INST_CFG_CPW_MASK.nth i)
    m == 0 || m == 3 || (s.flag (F.PSC_ARC_INST_CFG_MODE.nth i) && mask == 0)
      || (List.range 16).any (fun k => bit k mask && !s.flag (F.GCM_CPW_MAP_EN.nth k))
  match (List.range 4).find? (fun i => s.flag (F.PSC_ARC_INST_CFG_EN.nth i) && bad i) with
  | some i => some i
  | none => ((List.range 4).find? (fun c =>
      let conf := s.get (F.PSC_ARC_CH_CFG_LCONF.nth c)
      let lth := s.get (F.PSC_ARC_CH_CFG_LTH.nth c)
      s.flag (F.PSC_ARC_CH_CFG_EN.nth c) && (conf == 0 || decide (8 < conf) || lth == 0 || decide (1250 < lth)))).map (16 + ·)

/-! ### Commands (R407) -/

/-- SAFETY_STATUS. -/
def safetyStatusAct (clear : Bool) (s : State) : Ans × State :=
  let ch := fun (c : Nat) => s.regOctets 4 (([F.PSC_ARC_CH_STAT_LIGHT, F.PSC_ARC_CH_STAT_SENS_FAULT, F.PSC_ARC_CH_STAT_L_MAX,
    F.PSC_ARC_CH_STAT_L_LAST] : List Field).map (Field.nth · c))
  let o := s.regOctets 4 [F.PSC_STATUS_ISTATE, F.PSC_STATUS_FAULT_CAUSE, F.PSC_STATUS_CPW_STALE, F.PSC_STATUS_ROOT_FAULT,
      F.PSC_STATUS_OUT_FAULT, F.PSC_STATUS_ENERGISED, F.PSC_STATUS_SFB, F.PSC_STATUS_CPW_SEQ]
    ++ s.regOctets 4 [F.PSC_IN_STAT_FAULT, F.PSC_IN_STAT_CLOSED]
    ++ s.regOctets 4 [F.PSC_FUNC_STAT_THL_PERMIT, F.PSC_FUNC_STAT_DOOR_OK, F.PSC_FUNC_STAT_ETP_OK]
    ++ (List.range 4).flatMap ch ++ s.regOctets 4 [F.PSC_ARC_INST_STAT_WAIT_CUR, F.PSC_ARC_INST_STAT_OK]
    ++ s.cntOctets F.PSC_CNT_COUNT 0 8 ++ s.cntOctets F.PSC_ARC_CNT_COUNT 0 4
  let t := (s.clearCnt F.PSC_CNT_COUNT 0 8 clear).clearCnt F.PSC_ARC_CNT_COUNT 0 4 clear
  (.done o, t.clearCnt F.PSC_ARC_CH_STAT_L_MAX 0 4 clear)

/-- SAFETY_ACK: a reset by command of an instance with RESET_MODE 2; without effect where R393 withholds it. -/
def safetyAckAct (i : Nat) (s : State) : Ans × State :=
  if 24 ≤ i then (.fail stBadParam 0x10 0 i, s)
  else if s.ist ≠ 4 then (.fail stWrongState 0x10 0 i, s)
  else if i < 20 then
    if s.flag (F.PSC_FUNC_CFG_EN.nth i) ∧ i < 16 ∧ s.get (F.PSC_FUNC_CFG_RESET_MODE.nth i) = 2 then
      if s.fnClosed i then
        (.done [], s.modPsc (fun p => { p with fns := Tbl.mod {} i (fun f => { f with latched := false }) p.fns }))
      else (.done [], s)
    else (.fail stWrongState 0x10 0 i, s)
  else
    let a := i - 20
    if s.flag (F.PSC_ARC_INST_CFG_EN.nth a) ∧ s.get (F.PSC_ARC_INST_CFG_RESET_MODE.nth a) = 2 then
      if s.arcLight a then (.done [], s)
      else (.done [], s.modPsc (fun p => { p with arcLatched := putBits a a 0 p.arcLatched }))
    else (.fail stWrongState 0x10 0 i, s)

/-- SAFETY_PROOF: the test of one output that is not energised. -/
def safetyProofAct (k : Nat) (s : State) : Ans × State :=
  if 4 ≤ k then (.fail stBadParam 0x10 0 k, s)
  else if s.ist ≠ 4 ∨ (s.sout k).on ∨ s.psc.proof ≠ none ∨ s.psc.mustProof ∨ !s.flag (F.PSC_OUT_CFG_EN.nth k) then
    (.fail stWrongState 0x10 0 k, s)
  else (.accepted k [], s.modPsc (fun p => { p with proof := some .command, proofK := k, proofStep := 0, proofAt := p.time, proofLow := false, proofOk := none }))

/-- SAFETY_RESTART. -/
def safetyRestartAct (s : State) : Ans × State :=
  if s.islandOn then (.accepted 0 [], s.islandStart) else (.fail stWrongState 0x10 0 0, s)

/-- The status with which a long Safety command ends, none while it still runs. -/
def State.safetyEnd (s : State) (op : Nat) : Option Nat :=
  if op = 0x0A03 then s.psc.proofOk.map (fun ok => if ok then stOk else stConsistency)
  else if s.ist = 4 ∨ (s.ist = 2 ∧ !s.psc.haveParam) then some stOk
  else if s.ist = 5 ∨ s.ist = 0 then some stConsistency
  else none

/-- ISLAND_CYCLE. -/
def execIslandCycle (x : IslandInputs) (s : State) : Result := .next (islandCycle x s)
/-- ISLAND_FAULT. -/
def execIslandFault (c : IslandCause) (s : State) : Result := .next (islandFaultEvent c s)
/-- TEST_PULSE. -/
def execTestPulse (b : Bool) (s : State) : Result := .next (testPulse b s)
/-- CPW_UPDATE. -/
def execCpwUpdate (s : State) : Result := .next (cpwUpdate s)
/-- CPW_TIMEOUT. -/
def execCpwTimeout (s : State) : Result := .next (cpwTimeout s)
/-- ARC_SELFTEST. -/
def execArcSelftest (ch edges : Nat) (s : State) : Result := .next (arcSelftest ch edges s)
/-- FEEDBACK_CHECK. -/
def execFeedbackCheck (k sfb : Nat) (s : State) : Result := .next (feedbackCheck k sfb s)
/-- ISLAND_SELFTEST_DONE. -/
def execIslandSelftestDone (s : State) : Result := .next (islandSelftestDone s)
/-- PROOF_TEST_STEP. -/
def execProofTestStep (k : Nat) (sfb : Bool) (s : State) : Result := .next (proofTestStep k sfb s)
/-- SAFETY_STATUS. -/
def execSafetyStatus (q : Req) (clear : Bool) (s : State) : Result :=
  s.patchaif q 0x0A01 (flagOctets clear) false false (safetyStatusAct clear)
/-- SAFETY_ACK. -/
def execSafetyAck (q : Req) (inst : Nat) (s : State) : Result := s.patchaif q 0x0A02 (le 4 inst) false false (safetyAckAct inst)
/-- SAFETY_PROOF. -/
def execSafetyProof (q : Req) (k : Nat) (s : State) : Result := s.patchaif q 0x0A03 (le 4 k) true false (safetyProofAct k)
/-- SAFETY_RESTART. -/
def execSafetyRestart (q : Req) (s : State) : Result := s.patchaif q 0x0A04 [] true false safetyRestartAct

end Sys2Proof.Machine
end

