-- ==== Sys2Proof/Machine/Qbc.lean ====
section
/-! DEFINITION. The carrier I/O bus (R69 to R76): the frame that goes out, the frame that comes in, and the input image. -/
namespace Sys2Proof.Machine

/-- The first cause of R74 that holds, as HOLD codes it: ride-through, role, gap; a lease lapse acts as a gap (R365). -/
def State.qbHold (s : State) : Nat :=
  let r := s.get F.PRC_STATUS_ROLE
  if s.sup.mode = .rideThrough then 1
  else if r ≠ 0 ∧ r ≠ 2 then 2
  else if s.flag F.PRC_STATUS_GAP || !s.flag F.PRC_STATUS_LEASE then 3
  else 0

/-- The newest released output word: output n in bit n (R73). -/
def State.qbWord (s : State) : Nat :=
  sumN ((List.range 128).map (fun n => b2n (s.relQ (s.get F.QBC_MAP_OUT_BASE + n)) * 2 ^ n))

/-- The 160 bits of QB_DO up to its CRC, in the order sent (R70). -/
def qbOut (upd : Bool) (seq w : Nat) : List Bool :=
  let body := [upd] ++ List.replicate 7 false ++ msbFirst 8 seq ++ lsbFirst 128 w
  body ++ msbFirst 16 (crc16 body)

/-- Whether the CRC of a QB_DI frame is correct; bit k of `di` is frame bit k (R70). -/
def qbInOk (di : Nat) : Bool := msbFirst 16 (crc16 (lsbFirst 272 di)) == lsbFirst 16 (di / 2 ^ 272)

/-- ECHO of a QB_DI frame. -/
def qbEcho (di : Nat) : Nat := ofLsb (lsbFirst 8 (di / 2 ^ 8)).reverse

/-- The inputs of an accepted frame under IN_FILT: the image after, and how often each changed input has read so (R72). -/
def State.qbInputs (s : State) (di : Nat) : State :=
  let base := s.get F.QBC_MAP_IN_BASE
  let need := s.get F.QBC_CTL_IN_FILT + 1
  (List.range 256).foldl (fun s n =>
    let v := bit (16 + n) di
    if v == Tbl.get false (base + n) s.slp.i then { s with qbc := { s.qbc with cand := Tbl.set 0 n 0 s.qbc.cand } }
    else
      let k := Tbl.get 0 n s.qbc.cand + 1
      if need ≤ k then { s with
        slp := { s.slp with i := Tbl.set false (base + n) v s.slp.i }, qbc := { s.qbc with cand := Tbl.set 0 n 0 s.qbc.cand } }
      else { s with qbc := { s.qbc with cand := Tbl.set 0 n k s.qbc.cand } }) s

/-- A QB_DI frame received during a frame with `upd`; `skip` in the first frame after UPD returned to 1, `ref` the reference
SEQ (R72). -/
def State.qbReceive (s : State) (di : Nat) (ref : Option Nat) (skip : Bool) : State :=
  if !qbInOk di then
    let s : State := { s with qbc := { s.qbc with badRun := s.qbc.badRun + 1, goodRun := 0 } }
    let s := s.bump F.QBC_ERR_CNT_IN_CRC_ERR
    if 3 ≤ s.qbc.badRun then s.setF F.QBC_STATUS_IN_VALID 0 else s
  else
    let s : State := { s with qbc := { s.qbc with badRun := 0, goodRun := s.qbc.goodRun + 1 } }
    let s := if 3 ≤ s.qbc.goodRun then s.setF F.QBC_STATUS_IN_VALID 1 else s
    let s := s.setF F.QBC_STATUS_ECHO_SEQ (qbEcho di)
    let bad := match ref with
      | some r => s.flag F.QBC_CTL_ECHO_CHK && !skip && qbEcho di != r
      | none => false
    (if bad then s.bump F.QBC_ERR_CNT_ECHO_ERR else s).qbInputs di

/-- The start of the next frame: a module time whose NS is a multiple of 10,000 (R69). -/
def nextFrame (t : Time) : Time := (t + us 10 - 1) / us 10 * us 10

/-- QB_FRAME: a whole frame, from its start to its last falling edge. -/
def qbFrame (di : Nat) (s : State) : State :=
  if !s.qbc.running || s.qbc.stopped || !s.flag F.QBC_CTL_EN then s
  else
    let t := nextFrame s.now
    let s := s.advanceTo t
    let hold := s.qbHold
    let upd := hold == 0
    let seq := if s.qbc.sentAny then (s.get F.QBC_STATUS_LAST_SEQ + 1) % 256 else 0
    let w := s.qbWord
    let ref := s.qbc.refSeq
    let skip := upd && !s.flag F.QBC_STATUS_UPD
    let s : State := { s with qbc := { s.qbc with
      sentAny := true, outWord := w, lastDo := ofLsb (qbOut upd seq w), refSeq := if upd then some seq else ref } }
    let s := ((s.setF F.QBC_STATUS_LAST_SEQ seq).setB F.QBC_STATUS_UPD upd).setF F.QBC_STATUS_HOLD hold
    (s.advanceTo (t + ns 5760)).qbReceive di ref skip

/-- QB_CLK at `t` ns from a frame start: high in the second half of each of the 288 bits, low between frames (R69). -/
def qbClkAt (t : Nat) : Bool := decide (t < 5760) && decide (10 ≤ t % 20)

/-- QB_SYNC at `t` ns from a frame start: high in the first clock (R69). -/
def qbSyncAt (t : Nat) : Bool := decide (t < 20)

/-- QB_DO at `t` ns from the start of the frame sent last: bit k from 20 k ns on, bits 160 to 287 sent as 0 (R69, R70). -/
def State.qbDoAt (s : State) (t : Nat) : Bool := bit (t / 20) s.qbc.lastDo

/-- QBC_START: with VIO_CAR in range for 1 ms, MOD_RST_OUT_N rises and frames may start (R60, R492). -/
def qbcStart (s : State) : State :=
  if !s.qbc.waiting || s.qbc.stopped || s.sup.vioStop || s.get F.PHM_SUPPLY_STATUS_VIO_CAR_STATE != 1 then s
  else
    let s := s.advanceTo (s.sup.vioSince + ms 1)
    { s with qbc := { s.qbc with waiting := false, running := s.flag F.QBC_CTL_EN }
             sup := { s.sup with vioDriven := true, released := true } }

/-- The QBC stops sending until the next reset (R26, R58, R64). -/
def State.stopQbc (s : State) : State := { s with qbc := { s.qbc with running := false, waiting := false, stopped := true } }

/-- QB_FRAME. -/
def execQbFrame (di : Nat) (s : State) : Result := .next (qbFrame di s)
/-- QBC_START. -/
def execQbcStart (s : State) : Result := .next (qbcStart s)

end Sys2Proof.Machine
end

