-- ==== Sys2Proof/Machine/Supply.lean ====
section
/-! DEFINITION. Supplies, ride-through, faults and resets (R46 to R68, R26, R79, R486 to R491): what the PHM measures, how a
reset starts, what it keeps, and how it ends in PREPARE. -/
namespace Sys2Proof.Machine

/-! ### What the PHM measures (R58, R66) -/

/-- VIO_CAR_STATE of a level in mV: 0 absent, 1 in the window that IOSEL selects, 2 out of range (R51, R58). -/
def State.vioState (s : State) (mv : Nat) : Nat :=
  if mv < 500 then 0
  else if s.sup.iosel then (if 2970 ≤ mv ∧ mv ≤ 3630 then 1 else 2)
  else if 1620 ≤ mv ∧ mv ≤ 1980 then 1 else 2

/-- The state with the supply record changed. -/
def State.modSup (s : State) (f : Supply → Supply) : State := { s with sup := f s.sup }

/-- Whether a condition of R58 holds, its time apart. -/
def State.vioBad (s : State) : Bool :=
  let v := s.vioState s.sup.vioCar
  if s.sup.vioEver then v != 1 else v == 2

/-- VIO_CAR measured: when it came into range, and whether it has been. -/
def State.vioMeasured (s : State) (mv : Nat) : State :=
  let was := s.vioState s.sup.vioCar
  let v := s.vioState mv
  s.modSup (fun u => { u with
    vioCar := mv, vioSince := if v = 1 ∧ was ≠ 1 then s.now else u.vioSince, vioEver := u.vioEver || (v == 1 && u.pwrok) })

/-- VIO-class pins are driven from 100 µs after VIO_CAR came into range, with MOD_PWROK high and no fault of R58 since the
last reset (R46, R57, R58). -/
def State.drivePins (s : State) : State :=
  s.modSup (fun u => { u with
    vioDriven := u.pwrok && !u.vioStop && s.vioState u.vioCar == 1 && decide (u.vioSince + us 100 ≤ s.now) })

/-- Whether a level of VBUS is above the return threshold, nominally 9.0 V (R61); DEDUCED, log 219. -/
def vbusBack (mv : Nat) : Bool := decide (8850 < mv)

/-- The straps are sampled (R57). -/
def State.sampleStraps (s : State) : State :=
  s.modSup (fun u => { u with iosel := u.pinIosel, pairsel := u.pinPairsel, strapped := true })

/-- VBUS found at a level: a cold reset that has seen it below 9.0 V samples the straps when it is back (R57), and a
ride-through keeps its lowest value (R63). -/
def State.vbusAt (s : State) (mv : Nat) : State :=
  let s := s.modSup (fun u => { u with
    vbus := mv, strapLow := u.strapLow || (u.inCold && !vbusBack mv)
    rideMin := if u.mode = .rideThrough then min u.rideMin mv else u.rideMin })
  if s.sup.inCold && s.sup.strapLow && !s.sup.strapped && vbusBack mv then s.sampleStraps else s

/-- A measurement of the supplies. -/
def State.measured (s : State) (x : SupplySample) : State :=
  ((s.modSup (fun u => { u with feedA := x.feedA, feedB := x.feedB, railsOk := x.rails })).vbusAt x.vbus).vioMeasured x.vioCar |>.debugPins x.dbgEn x.dbgSel

/-- A level in units of 10 mV in a field of `w` bits; the rounding is open. -/
def State.tenMv (s : State) (w mv : Nat) : Nat × State :=
  let q := s.openDiv mv 10
  (min q.1.toNat (2 ^ w - 1), q.2)

/-- PHM.SUPPLY_STATUS shows what was measured; it keeps its reset value through a cold reset (R66). -/
def State.showSupply (s : State) : State :=
  if s.sup.inCold then s
  else
    let u := s.sup
    let q := s.tenMv 11 u.vbus
    let s := (q.2.setF F.PHM_SUPPLY_STATUS_VBUS q.1).setF F.PHM_SUPPLY_STATUS_VIO_CAR_STATE (s.vioState u.vioCar)
    let s := (s.setB F.PHM_SUPPLY_STATUS_FEED_A_OK (decide (8500 ≤ u.feedA))).setB F.PHM_SUPPLY_STATUS_FEED_B_OK (decide (8500 ≤ u.feedB))
    let s := (s.setB F.PHM_SUPPLY_STATUS_VCORE_OK (bit 0 u.railsOk)).setB F.PHM_SUPPLY_STATUS_VIO_OK (bit 1 u.railsOk)
    let s := (s.setB F.PHM_SUPPLY_STATUS_VANA_OK (bit 2 u.railsOk)).setB F.PHM_SUPPLY_STATUS_RIDE (u.mode == .rideThrough)
    let s := (s.setB F.PHM_SUPPLY_STATUS_IOSEL u.iosel).setB F.PHM_SUPPLY_STATUS_PAIRSEL u.pairsel
    s.setB F.PHM_SUPPLY_STATUS_RETURN_PENDING (u.rideEnd != 0)

/-! ### Faults (R67) -/

/-- A bit of PHM.FAULT. -/
def faultField (b : Nat) : Field := faultFields.getD b F.PHM_FAULT_ROOT_LOCK

/-- A bit of PHM.FAULT set, with a FAULT record and its snapshot of TELEM when it was 0 (R67, R476). -/
def State.setFault (s : State) (b : Nat) : State :=
  if s.flag (faultField b) then s
  else ((s.setF (faultField b) 1).belfry 1 0x0009 0 (b :: (List.range 12).map (fun q => s.get (F.PHM_TELEM_VALUE.nth q)))).evalReady

/-- The condition of a FEED bit, its 1 ms apart: that feed below 8.5 V, VBUS and the other feed not (R67). -/
def State.feedBad (s : State) (b : Bool) : Bool :=
  let u := s.sup
  decide ((if b then u.feedB else u.feedA) < 8500) && decide (8500 ≤ (if b then u.feedA else u.feedB)) && decide (8500 ≤ u.vbus)

/-- Whether the cause of a bit persists (R67). The lock of the root PLL and the ratio are no measured value: for them the
event itself is the report of the cause. -/
def State.causeHolds (s : State) (b : Nat) : Bool :=
  match b with
  | 0 | 1 => true
  | 2 => s.feedBad false
  | 3 => s.feedBad true
  | 4 => (List.range s.sup.rails).any (fun r => !bit r s.sup.railsOk)
  | 5 => s.sup.pwrok && s.vioBad
  | 7 => s.sup.dieHot
  | _ => false

/-- A root-fault response is due, with the cause of its cold reset (R26, R79). -/
def State.rootDue (s : State) (c : Nat) : State := s.modSup (fun u => { u with rootPending := c })

/-- FEED_LOST (R67): `b` names PWR_B. -/
def feedLost (b : Bool) (s : State) : State := if s.feedBad b then s.setFault (if b then 3 else 2) else s

/-- THERM (R79): the bit, and the root-fault response with cause THERM. -/
def therm (s : State) : State := ((s.modSup (fun u => { u with dieHot := true })).rootDue 6).setFault 7

/-- ROOT_LOCK (R26). -/
def rootLock (s : State) : State := (s.rootDue 5).setFault 0

/-- ROOT_RATIO (R26, R387). -/
def rootRatio (s : State) : State := ((s.rootDue 5).setFault 1).islandRoot

/-- VIO_CAR_FAULT (R58): the pins go high-impedance until a reset, the bit is set, the bus stops, the module fences itself. -/
def vioCarFault (mv : Nat) (s : State) : State :=
  let s := s.vioMeasured mv
  if !s.sup.pwrok || !s.vioBad then s
  else
    let s := s.modSup (fun u => { u with vioStop := true, vioDriven := false })
    let s := { s with psc := { s.psc with mustProof := s.psc.mustProof || s.psc.powered } }
    ((s.showSupply.setFault 5).stopQbc.fence 5).evalReady

/-! ### What a reset keeps (R488 to R490) -/

/-- Register fields that every reset but a Keep reset leaves: identity and the Keep domain. -/
def keptFields : List Field :=
  [F.TMC_MODULE_ID_MEMBER, F.TMC_MODULE_ID_HW_REV, F.TMC_MODULE_ID_STEPPING, F.TMC_MODULE_ID_SAFETY_EN, F.TMC_FAMILY_CAP_SV_STREAMS,
    F.TMC_FAMILY_CAP_SLICES, F.TMC_FAMILY_CAP_APP_CORES, F.PRC_EPOCH_EPOCH, F.PHM_KEEP_CNT_OP_SEC, F.PHM_KEEP_CNT_POWER_CYCLES]
    ++ faultFields

/-- Register fields that a warm reset leaves beside those: RATE_ADJ, the clock state with UTC_OFFSET and TIME_VALID, and the
live supply state, which returns to its reset value with a cold reset (R66). -/
def warmFields : List Field :=
  [F.PHM_SUPPLY_STATUS_VBUS, F.PHM_SUPPLY_STATUS_IOSEL, F.PHM_SUPPLY_STATUS_PAIRSEL, F.PHM_SUPPLY_STATUS_VIO_CAR_STATE,
    F.PHM_SUPPLY_STATUS_FEED_B_OK, F.PHM_SUPPLY_STATUS_FEED_A_OK, F.PHM_SUPPLY_STATUS_VANA_OK, F.PHM_SUPPLY_STATUS_VIO_OK,
    F.PHM_SUPPLY_STATUS_VCORE_OK, F.PHM_SUPPLY_STATUS_RETURN_PENDING, F.PHM_SUPPLY_STATUS_RIDE,
    F.TBU_RATE_ADJ_RATE_ADJ, F.TBU_STATUS_GM_CLASS, F.TBU_STATUS_UTC_OFFSET, F.TBU_STATUS_UTC_VALID, F.TBU_STATUS_SYNCH,
    F.TBU_STATUS_TIME_VALID, F.TBU_STATUS_SLEWING, F.TBU_STATUS_STATE, F.TBU_GM_ID_GM_ID]

/-- Whether a register field outlives a reset: the island's pages always, the Dome's page through a warm one. -/
def keptKey (warm : Bool) (k : Nat) : Bool :=
  let a := k / 64
  keptFields.any (fun f => f.key == k) || (decide (0x5000100000 ≤ a) && decide (a < 0x5000120000))
    || (warm && (warmFields.any (fun f => f.key == k) || (decide (0x5000120000 ≤ a) && decide (a < 0x5000130000))))

/-- Whether an octet of memory outlives a reset: the MRAM window always, DRAM through a warm one. -/
def keptAddr (warm : Bool) (a : Nat) : Bool :=
  (decide (mramBase ≤ a) && decide (a < mramBase + mramSize)) || (warm && decide (a < dramEnd))

/-- The management controller after a reset: the archive flash with its mark, as it is stored; a warm reset keeps the transfer
objects and the other resets that are due. -/
def Tmc.afterReset (t : Tmc) (warm : Bool) : Tmc :=
  let f := t.flash
  { active := f.active, pending := f.pending, mark := f.mark, lastFail := t.lastFail
    xfer := if warm then t.xfer else [], handles := if warm then t.handles else 0, resetDue := if warm then t.resetDue else [] }

/-- The health record after a reset: what runs stops, what is stored stays. -/
def Health.afterReset (h : Health) (warm : Bool) : Health :=
  { h with
    eccSec := 0, eccLast := 0, thermal := 0, coolFrom := none, stepAt := none, meas := none, measDue := none
    poisoned := h.poisoned.filter (keptAddr warm)
    telem := h.telem.map (fun (p : Nat × Telem) => (p.1, { p.2 with recent := [], minuteSum := 0, minuteCount := 0, minuteSecs := 0 })) }

/-- A lattice after a warm or an engine reset: SUBST_TOTAL counts since cold reset (R198; log 235). -/
def latsKept (t : Tbl Lattice) : Tbl Lattice :=
  (t.filter (fun p => !p.2.substTotal.isEmpty)).map (fun p => (p.1, { substTotal := p.2.substTotal }))

/-- Every block at its reset state, but for what R488 keeps; RWL locks clear (R489). -/
def State.blocksReset (s : State) (warm : Bool) : State :=
  { s with
    regs := s.regs.filter (fun p => keptKey warm p.1)
    mem := s.mem.filter (fun c => keptAddr warm c.1)
    bus := .idle, qbc := {}, mac := [], pairs := [], wvl := {}, ing := {}, lat := if warm then latsKept s.lat else [], phe := {}, gcm := {}, slp := {}, pub := {}
    dre := { last := s.dre.last }, slt := {}, prc := {}, cmds := []
    tmc := s.tmc.afterReset warm, hlt := s.hlt.afterReset warm }

/-- The staged entry of a ride-through episode completed, once: duration, lowest VBUS, and how it ended (R63, R476). -/
def State.endEpisode (s : State) (byReset : Bool) : State :=
  if s.sup.mode ≠ .rideThrough then s
  else
    let q := s.tenMv 64 s.sup.rideMin
    let pay := [(s.now - s.sup.rideStart) / 65536, q.1, b2n byReset]
    { q.2 with keep := { q.2.keep with
      staged := q.2.keep.staged.map (fun (e : BelEntry) => if e.kind = 1 ∧ e.code = 1 ∧ e.payload = [0, 0, 0] then { e with payload := pay } else e) } }

/-! ### Cold reset (R486 to R491) -/

/-- The reset cause registers (R498). -/
def State.cause (s : State) (kind c : Nat) : State := (s.setF F.TMC_RESET_CAUSE_KIND kind).setF F.TMC_RESET_CAUSE_CAUSE c

/-- ARM of the Weevil and forces go with every reset, each with its entry, in the order of their codes (R128, R265, R477, R488). -/
def State.disarm (s : State) : State := (s.wvlArm false).unforceAll

/-- COLD_RESET entered: every block resets, the Dome stops, the counter is loaded from the Keep fallback. A ride-through goes on,
with its entry completed (R62, R63; log 33). -/
def State.coldStart (s : State) (c : Nat) : State :=
  let s := ((s.endEpisode true).disarm.blocksReset false).domeStop
  let s := ({ s with tbu := { t48 := s.tbu.t48 } }.loadTime s.keepTicks).cause (if s.keep.lost then 3 else 2) c
  (s.modSup (fun u => { u with
    strapped := false, strapLow := !vbusBack u.vbus, released := false, ppsHigh := false, inCold := true
    warmFrom := false, rootPending := 0, coresUp := false, vioStop := false }))

/-- The actions of R64 with a cold reset: ports and the carrier bus stop, MOD_PWROK falls, the pins go high-impedance, the rails
go down 2 ms later, and the module stays in Reset until VBUS is back. Entries that it makes are staged (R478). -/
def State.supplyReset (s : State) (c : Nat) : State :=
  let s := s.stopMacs.stopQbc.endEpisode true
  let s := (s.modSup (fun u => { u with mode := .reset })).coldStart c
  s.modSup (fun u => { u with
    rideEnd := 0, pwrok := false, vioDriven := false, vioEver := false
    downAt := if u.started = 0 then none else some (s.now + ms 2) })

/-- MOD_PWROK rises (R57, R478). -/
def State.pwrokRise (s : State) : State :=
  (s.modSup (fun u => { u with pwrok := true, vioEver := s.vioState u.vioCar == 1 })).bump F.PHM_KEEP_CNT_POWER_CYCLES

/-- PREPARE (R491): VCORE at the stored plan, the registers that show the Belfry header, the record store's directories, staged
records, the RESET record and after a Keep reset KEEP_LOST; the cores run. -/
def State.enterPrepare (s : State) : State :=
  let s := s.setF F.TMC_START_STATUS_PHASE 2
  let s := if s.sup.mode = .rideThrough then s.pauseWork else s
  let s := (s.modSup (fun u => { u with vcore := s.vcorePlan, coresUp := true })).setF F.PHM_AGE_STATUS_VCORE_PLAN s.vcorePlan
  let s := (s.setF F.PHM_AGE_STATUS_AGE_STEP s.hlt.hdrAge).setF F.PHM_AGE_STATUS_CORE_STEP s.hlt.hdrAge
  let s := (s.setF F.BLF_NEXT_RSEQ_RSEQ s.hlt.hdrNext).setB F.BLF_STATUS_FIRST_FULL (decide (64 ≤ s.hlt.hdrNext))
  let s := s.dreRecover.flushStaged
  let s := s.belfry 1 0x000A 0 [s.get F.TMC_RESET_CAUSE_KIND, s.get F.TMC_RESET_CAUSE_CAUSE]
  let s := if s.keep.lost then
    { s with keep := { s.keep with lost := false } }.belfry 1 0x000B 0 [s.keep.lostOp, s.keep.lostCycles]
    else s
  s.showFlash

/-- Whether something holds a cold reset: MOD_PWROK low, CAR_RST_N low, VKEEP absent, the Reset state, or straps that wait for
VBUS to be back (R57, R59, R486; DEDUCED, log 219). -/
def State.resetHeld (s : State) : Bool :=
  !s.sup.pwrok || s.sup.carRstLow || s.sup.vkeepLow || s.sup.mode == .reset || (s.sup.strapLow && !s.sup.strapped)

/-- The cold reset ends where nothing holds it: straps not yet sampled are sampled (R57), and PREPARE follows. -/
def State.tryEndReset (s : State) : State :=
  if !s.sup.inCold || s.resetHeld then s
  else
    let s := if s.sup.strapped then s else s.sampleStraps
    (s.modSup (fun u => { u with inCold := false })).drivePins.enterPrepare

/-- SUPPLY_STATUS_UPDATE (R66): what was measured, the reset that it may end, the pins that follow, and READY (R497, C4). -/
def supplyStatusUpdate (x : SupplySample) (s : State) : State := (s.measured x).tryEndReset.showSupply.drivePins.evalReady

/-- A cold reset whose supplies stand: it starts, and ends unless something holds it. -/
def State.coldReset (s : State) (c : Nat) : State := (s.coldStart c).tryEndReset

/-- POWER_UP (R57): from the Reset state, with VBUS above the return threshold and VKEEP present, the straps are sampled, the
counter is loaded and the sequencer starts VCORE; the island starts with the rails (R400). How long the Keep fallback has run
meanwhile is free. -/
def powerUp (feedA : Bool) (x : SupplySample) (s : State) : State :=
  if s.sup.started ≠ 0 ∨ s.sup.mode ≠ .reset ∨ s.sup.vkeepLow ∨ (if feedA then x.feedA else x.feedB) < 9000 ∨ x.vbus ≤ 8850 then s
  else
    let s := ((s.measured x).sampleStraps.loadTime (s.freeVal 48)).drawn
    let s := (s.setF F.TMC_START_STATUS_PHASE 1).modSup (fun u => { u with
      started := 1, rails := 0, railsOk := 0, downAt := none, vcore := Config.vcoreInit })
    if s.flag F.TMC_MODULE_ID_SAFETY_EN then s.islandStart else s

/-- The rails by place in the sequence. -/
def railPlace : Rail → Nat
  | .vcore => 0 | .vio => 1 | .vana => 2

/-- RAIL_IN_REGULATION (R54): the next rail starts; after VANA, MOD_PWROK rises and the supply state is Normal. While the rails wait
to be taken down, none starts and the module stays in Reset (R64). -/
def railInRegulation (r : Rail) (s : State) : State :=
  if s.sup.rails ≠ railPlace r ∨ s.sup.started ≠ railPlace r + 1 then s
  else
    let down := s.sup.downAt.isSome
    let s := s.modSup (fun u => { u with
      rails := u.rails + 1, started := if down then u.started else min 3 (u.started + 1)
      railsOk := putBits (railPlace r) (railPlace r) 1 u.railsOk })
    if s.sup.rails < 3 ∨ s.sup.vkeepLow ∨ down then s
    else ((s.modSup (fun u => { u with mode := .normal })).pwrokRise).tryEndReset

/-- RAIL_FAULT (R54): a rail that is up leaves regulation. -/
def railFault (r : Rail) (s : State) : State :=
  if s.sup.rails ≤ railPlace r ∨ !s.sup.pwrok then s
  else ((s.modSup (fun u => { u with railsOk := putBits (railPlace r) (railPlace r) 0 u.railsOk })).setFault 4).coldReset 4

/-- RAIL_TAKEDOWN (R64): after a reset of R64, at once with VBUS below 6.0 V and else 2 ms after it started, the rails go down,
and the island with them. -/
def railTakedown (s : State) : State :=
  match s.sup.downAt with
  | none => s
  | some t =>
    if s.sup.mode ≠ .reset ∨ s.sup.started = 0 then s
    else
      let s := if s.sup.vbus < 6000 then s else s.advanceTo t
      (s.modSup (fun u => { u with started := 0, rails := 0, railsOk := 0, downAt := none, vcore := 0 })).islandOff

/-! ### Ride-through (R61 to R64) -/

/-- A ride-through field of PHM.SUPPLY_STATUS; it keeps its reset value through a cold reset (R66). -/
def State.showRide (s : State) (f : Field) (v : Nat) : State := if s.sup.inCold then s else s.setF f v

/-- RIDE_THROUGH_ENTRY. -/
def rideThroughEntry (mv : Nat) (s : State) : State :=
  if s.sup.mode ≠ .normal ∨ 8500 < mv ∨ mv < 6900 then s
  else
    let s := (s.modSup (fun u => { u with mode := .rideThrough, rideMin := mv, rideStart := s.now, rideEnd := 0, rideDue := s.now + ms 250 })).vbusAt mv
    let s := (s.showRide F.PHM_SUPPLY_STATUS_RIDE 1).bump F.PHM_RIDE_STATS_RIDE_CNT
    ((s.stageEntry (s.entry 1 0x0001 0 [0, 0, 0])).mirror.pauseWork).tdcDiscard

/-- RETURN_THRESHOLD: the return timer starts. -/
def returnThreshold (mv : Nat) (s : State) : State :=
  if s.sup.mode ≠ .rideThrough ∨ s.sup.rideEnd ≠ 0 ∨ !vbusBack mv then s
  else
    let s := (s.modSup (fun u => { u with rideEnd := s.now + ms 10 })).vbusAt mv
    (s.showRide F.PHM_SUPPLY_STATUS_RETURN_PENDING 1).tryEndReset

/-- BROWNOUT: 250 ms after entry with no return timer running. -/
def brownout (s : State) : State :=
  if s.sup.mode ≠ .rideThrough ∨ s.sup.rideEnd ≠ 0 then s
  else ((s.advanceTo s.sup.rideDue).setFault 6).supplyReset 3

/-- RETURN_TIMER_STOP; BROWNOUT follows at once where the 250 ms have passed. -/
def returnTimerStop (mv : Nat) (s : State) : State :=
  if s.sup.mode ≠ .rideThrough ∨ s.sup.rideEnd = 0 ∨ 8950 ≤ mv then s
  else
    let s := ((s.modSup (fun u => { u with rideEnd := 0 })).vbusAt mv).showRide F.PHM_SUPPLY_STATUS_RETURN_PENDING 0
    if s.sup.rideDue ≤ s.now then brownout s else s

/-- RETURN_TIMER_EXPIRY: ride-through ends, its entry is completed, staged entries are written (R62, R63, R68, R478). -/
def returnTimerExpiry (s : State) : State :=
  if s.sup.mode ≠ .rideThrough ∨ s.sup.rideEnd = 0 then s
  else
    let s := (s.advanceTo s.sup.rideEnd).endEpisode false
    let q := s.tenMv 12 s.sup.rideMin
    let s := q.2.setF F.PHM_RIDE_STATS_LAST_MIN_VBUS q.1
    let s := (s.showRide F.PHM_SUPPLY_STATUS_RIDE 0).showRide F.PHM_SUPPLY_STATUS_RETURN_PENDING 0
    (((s.modSup (fun u => { u with mode := .normal, rideEnd := 0 })).flushStaged).resumeWork).tdcResume

/-- RESET_THRESHOLD (R62, R64). -/
def resetThreshold (mv : Nat) (s : State) : State :=
  if s.sup.started = 0 ∨ 7000 ≤ mv then s
  else (s.vbusAt mv).supplyReset 2

/-! ### The other resets -/

/-- FAULT_BIT_REASSERT (R67): the bit is set again, with the response of R26, R54 or R79. -/
def faultBitReassert (b : Nat) (s : State) : State :=
  if 8 ≤ b ∨ s.flag (faultField b) ∨ !s.causeHolds b then s
  else
    let s := s.setFault b
    match b with
    | 0 | 1 => s.rootDue 5
    | 4 => s.coldReset 4
    | 7 => s.rootDue 6
    | _ => s

/-- ROOT_FAULT_RESPONSE (R26): MACs and carrier bus stop, the module fences itself, and a cold reset starts. -/
def rootFaultResponse (s : State) : State :=
  if s.sup.rootPending = 0 then s
  else (s.stopMacs.stopQbc.fence 5).coldReset s.sup.rootPending

/-- CAR_RST (R59): the cold reset lasts until the pin is released. -/
def carRst (s : State) : State :=
  let s := s.modSup (fun u => { u with carRstLow := true })
  if s.sup.started = 0 then s else s.coldStart 7

/-- CAR_RST_N_RELEASE (R59). -/
def carRstNRelease (s : State) : State := (s.modSup (fun u => { u with carRstLow := false })).tryEndReset

/-- COLD_RESET by cause (R486, R498): the causes of a command wait for its moment (R454, R459). -/
def coldReset (c : Nat) (s : State) : State :=
  if c = 2 ∨ c = 3 then (if s.sup.started = 0 then s else s.supplyReset c)
  else if c = 8 ∨ c = 9 then
    match s.tmc.resetDue.find? (fun r => r.1 == c) with
    | some r => (s.advanceTo r.2).coldReset c
    | none => s
  else if c = 0 ∨ 10 ≤ c then s
  else if s.sup.started = 0 then s.coldStart c
  else if c = 1 then s
  else s.coldReset c

/-- WARM_RESET (R486 to R488): at its moment, unless a cold reset or the start-up after one is under way. Resets that commands have
asked for besides stay due. -/
def warmReset (s : State) : State :=
  match s.tmc.resetDue.find? (fun r => r.1 == 0) with
  | some r =>
    let s := { s.advanceTo r.2 with tmc := { s.tmc with resetDue := s.tmc.resetDue.erase r } }
    if s.warmIgnored then s
    else
      let s := (((s.endEpisode true).disarm.blocksReset true).tbuFollow).cause 1 8
      let s := s.modSup (fun u => { u with
        released := false, ppsHigh := false, warmFrom := true, vioStop := false, rootPending := 0 })
      let s := { s with dom := { s.dom with
        ms := s.dom.ms.filter (fun p => p.1 != 3 && decide (p.1 < 8)), msCount := s.dom.msCount.filter (fun p => p.1 != 3 && decide (p.1 < 8)) } }
      ((s.bootMeasure [3]).drivePins).enterPrepare
  | none => s

/-- VKEEP_LOW (R486): cold reset with MOD_PWROK low until VKEEP returns. -/
def vkeepLow (s : State) : State :=
  let s := if s.sup.started = 0 then s else s.coldStart 0x0A
  s.modSup (fun u => { u with vkeepLow := true, pwrok := false, vioDriven := false, vioEver := false })

/-- KEEP_RESET (R486, R490): the Keep domain clears, its counters come back from the header mirror, the counter starts at zero,
and the cold reset proceeds. -/
def keepReset (s : State) : State :=
  if !s.sup.vkeepLow then s
  else
    let s := { s.clearFields (F.PRC_EPOCH_EPOCH :: faultFields) with
      keep := { lostOp := s.hlt.hdrOpSec, lostCycles := s.hlt.hdrCycles }, tbu := { t48 := s.tbu.t48 } }.loadTime 0
    let s := (s.setF F.PHM_KEEP_CNT_OP_SEC s.hlt.hdrOpSec).setF F.PHM_KEEP_CNT_POWER_CYCLES s.hlt.hdrCycles
    let s := (s.cause 3 0x0A).modSup (fun u => { u with vkeepLow := false })
    if s.sup.rails < 3 ∨ s.sup.downAt.isSome then s
    else ((s.modSup (fun u => { u with mode := if u.mode = .reset then .normal else u.mode })).pwrokRise).tryEndReset

/-! ### Commands -/

/-- POWER_UP. -/
def execPowerUp (feedA : Bool) (sm : SupplySample) (s : State) : Result := .next (powerUp feedA sm s)
/-- RAIL_IN_REGULATION. -/
def execRailInRegulation (r : Rail) (s : State) : Result := .next (railInRegulation r s)
/-- RAIL_FAULT. -/
def execRailFault (r : Rail) (s : State) : Result := .next (railFault r s)
/-- RIDE_THROUGH_ENTRY. -/
def execRideThroughEntry (mv : Nat) (s : State) : Result := .next (rideThroughEntry mv s)
/-- RETURN_THRESHOLD. -/
def execReturnThreshold (mv : Nat) (s : State) : Result := .next (returnThreshold mv s)
/-- RETURN_TIMER_STOP. -/
def execReturnTimerStop (mv : Nat) (s : State) : Result := .next (returnTimerStop mv s)
/-- RETURN_TIMER_EXPIRY. -/
def execReturnTimerExpiry (s : State) : Result := .next (returnTimerExpiry s)
/-- BROWNOUT. -/
def execBrownout (s : State) : Result := .next (brownout s)
/-- RESET_THRESHOLD. -/
def execResetThreshold (mv : Nat) (s : State) : Result := .next (resetThreshold mv s)
/-- RAIL_TAKEDOWN. -/
def execRailTakedown (s : State) : Result := .next (railTakedown s)
/-- VIO_CAR_FAULT. -/
def execVioCarFault (mv : Nat) (s : State) : Result := .next (vioCarFault mv s)
/-- CAR_RST. -/
def execCarRst (s : State) : Result := .next (carRst s)
/-- CAR_RST_N_RELEASE. -/
def execCarRstNRelease (s : State) : Result := .next (carRstNRelease s)
/-- FEED_LOST. -/
def execFeedLost (b : Bool) (s : State) : Result := .next (feedLost b s)
/-- FAULT_BIT_REASSERT. -/
def execFaultBitReassert (b : Nat) (s : State) : Result := .next (faultBitReassert b s)
/-- THERM. -/
def execTherm (s : State) : Result := .next (therm s)
/-- SUPPLY_STATUS_UPDATE. -/
def execSupplyStatusUpdate (sm : SupplySample) (s : State) : Result := .next (supplyStatusUpdate sm s)
/-- ROOT_LOCK. -/
def execRootLock (s : State) : Result := .next (rootLock s)
/-- ROOT_RATIO. -/
def execRootRatio (s : State) : Result := .next (rootRatio s)
/-- ROOT_FAULT_RESPONSE. -/
def execRootFaultResponse (s : State) : Result := .next (rootFaultResponse s)
/-- COLD_RESET. -/
def execColdReset (cause : Nat) (s : State) : Result := .next (coldReset cause s)
/-- WARM_RESET. -/
def execWarmReset (s : State) : Result := .next (warmReset s)
/-- VKEEP_LOW. -/
def execVkeepLow (s : State) : Result := .next (vkeepLow s)
/-- KEEP_RESET. -/
def execKeepReset (s : State) : Result := .next (keepReset s)

end Sys2Proof.Machine
end

