-- ==== Sys2Proof/Machine/Bundle.lean ====
section
/-! DEFINITION. The Limelle bundle (R457 to R459): the format and signature checks, the configuration it writes, every check by
which a commit rejects it, the derived tables, the commit point, and the Bundle commands of Patchaif. -/
namespace Sys2Proof.Machine

/-! ### Format, signature, identifier (R428, R457) -/

/-- Whether a bundle passes the format checks of R457: the header, every section's place and CRC, its type or OPTIONAL. -/
def State.formatOk (s : State) (b : Bundle) : Bool :=
  let o := b.raw
  let n := o.length
  decide (128 ≤ n) && hdr o 12 4 == n && decide (n ≤ 2 ^ 28) && decide (32 + 16 * hdr o 16 4 + 96 ≤ n)
    && hdr o 0 4 == 0x4C42394B && hdr o 4 1 == 1 && hdr o 6 1 == 9 && decide (hdr o 7 1 ≤ 3)
    && (sectTable o).all (fun x => decide (x.off + x.len ≤ n - 96) && crc32c ((o.drop x.off).take x.len) == x.crc
      && (knownSection x.kind || x.optional))
    && (!bit 0 (hdr o 8 4) || s.flag F.TMC_MODULE_ID_SAFETY_EN)

/-- Octets as numbers. -/
def toNats (o : Octets) : List Nat := o.map BitVec.toNat

/-- BUNDLE_ID: the first four octets of the digest, 0 replaced by 1. -/
def bundleIdOf (b : Bundle) : Nat :=
  let d := Config.sha384 (toNats b.raw) % 2 ^ 32
  if d = 0 then 1 else d

/-- Whether an integrator anchor of usage BUNDLE verifies the signature in the last 96 octets over those before it (R428). -/
def State.bundleSigned (s : State) (b : Bundle) : Bool :=
  let n := b.raw.length - 96
  (s.anchors 0 [4, 5, 6]).any (fun k => Config.ecVerify k (toNats (b.raw.take n)) (ofLe (b.raw.drop n)))

/-! ### What a commit writes (R458, steps 4 and 5; R486, R488) -/

/-- The register pages `lo` to `hi` at their Reset columns, but for some fields. -/
def State.resetPages (s : State) (lo hi : Nat) (keep : List Field) : State :=
  { s with regs := s.regs.filter (fun p =>
      p.1 < (regBase + lo * 0x10000) * 64 || (regBase + (hi + 1) * 0x10000) * 64 ≤ p.1 || keep.any (fun f => f.key == p.1)) }

/-- The pair's role and what goes with it, which an engine reset keeps (R488). -/
def roleFields : List Field :=
  [F.PRC_EPOCH_EPOCH, F.PRC_STATUS_ROLE, F.PRC_STATUS_FENCE_REASON, F.PRC_STATUS_READY]

/-- The safety parameters: every RWL field of the island's pages. -/
def islandParams : List Field :=
  (registers.filter (fun r => decide (0x5000100000 ≤ r.addr) && decide (r.addr < 0x5000120000))).flatMap (fun r =>
    (List.range r.count).flatMap (fun k => (r.inst 0 k).filter (fun f => f.acc == .rwl)))

/-- The strings of kinds `lo` to `hi` − 1 removed. -/
def Tmc.dropTexts (t : Tmc) (lo hi : Nat) : Tmc :=
  { t with texts := t.texts.filter (fun p => decide (p.1 < 65536 * lo) || decide (65536 * hi ≤ p.1)) }

/-- ENGINE_RESET of the blocks that a section configures (R486, R488). -/
def State.engineReset (s : State) (t : Nat) : State :=
  match t with
  | 0x01 => { s.resetPages 0x18 0x21 [] with
      mac := s.mac.filter (fun p => decide (10 ≤ p.1)), pairs := [], tmc := s.tmc.dropTexts 3 4 }
  | 0x02 => s.resetPages 0x02 0x02 warmFields
  | 0x03 => { s.resetPages 0x04 0x05 [] with ing := {} }
  | 0x04 =>
    let s := s.resetPages 0x06 0x07 []
    { s with lat := latsKept s.lat, mem := memClear smemBase (smemBase + smemSize) s.mem
             hlt := { s.hlt with poisoned := s.hlt.poisoned.filter (fun a => a < smemBase || smemBase + smemSize ≤ a) } }
  | 0x05 => { s.resetPages 0x08 0x08 [] with phe := {} }
  | 0x06 => { s.resetPages 0x09 0x09 [] with gcm := {} }
  | 0x07 => { s.resetPages 0x0A 0x0A [] with slp := { s := s.slp.s } }
  | 0x08 => { s.resetPages 0x0B 0x0B [] with pub := {}, tmc := s.tmc.dropTexts 0 3 }
  | 0x09 => { s.resetPages 0x0C 0x0C [] with dre := { last := s.dre.last } }
  | 0x0A => { s.resetPages 0x03 0x03 [] with slt := { cores := s.slt.cores, irqs := s.slt.irqs } }
  | 0x0B => { s.resetPages 0x0E 0x0F roleFields with prc := {} }
  | 0x0C => s.clearFields islandParams
  | 0x0D => { s.resetPages 0x13 0x13 [] with qbc := {} }
  | 0x0F => { s.resetPages 0x22 0x22 [] with mac := s.mac.filter (fun p => p.1 != 10) }
  | _ => s

/-- The EN fields of the engines of group B, 0 until the group is enabled (R458, R493). -/
def groupBFields : List Field :=
  [F.PHE_CTL_EN, F.GCM_CTL_EN, F.SLP_CTL_EN, F.DRE_CTL_EN, F.PUB_CTL_EN, F.SLE_CTL_EN]

/-- The fields that a register item writes; none where the address names no register. -/
def itemFields (page off : Nat) : List Field :=
  match regAt (regBase + page * 0x10000 + off) with
  | some (r, p, k) => r.inst p k
  | none => []

/-- One item of configuration written; the strings of a publication, of an LLDP port and the tag of a pair's supervision frames
stand in the bundle (R281, R283, R124, R112). -/
def State.cfgItem (s : State) (i : CfgItem) : State :=
  match i with
  | .field page off v => s.storeReg ((itemFields page off).filter (fun f => !groupBFields.contains f && f.acc != .w1c)) false v
  | .sct i ws => s.ctxInstall i ws
  | .sctMap i v => s.setMap i v
  | .phe t i ws => s.setPheEnt t i ws
  | .gcm i ws => s.setGcmEnt i ws
  | .slp t i ws => s.slpPut t i ws
  | .pub i ws => s.setPubEnt i ws
  | .pubMember i v => { s with pub := { s.pub with memb := Tbl.set 0 i (v &&& 0xFF80FFFF) s.pub.memb } }
  | .dre t i ws => s.setDreEnt t i ws
  | .text what i o => { s with tmc := { s.tmc with texts := Tbl.set [] (65536 * what + i) o s.tmc.texts } }
  | .pairTag p v => s.modPair p (fun x => { x with tag := some v })
  | .slt t i ws => s.setSltEnt t i (if t = 0 then putBits 63 52 1 (word ws 0) :: ws.drop 1 else ws)

/-- Whether an item is a stream context, which is written once its map is. -/
def isContext : CfgItem → Bool
  | .sct _ _ => true
  | _ => false

/-- The tables that the commit computes: section offsets and windows of the Phasor Engine, WCETs (R203, R219, R245). -/
def State.derived (s : State) : State :=
  let s := ((List.range 4).filter (fun l => s.flag (F.SLE_LAT_CFG_EN.nth l))).foldl (fun (s : State) l =>
    let o := s.pheLayout l
    let s := (s.setF (F.PHE_LAT_SECT_SET_OFF.nth l) (word o 0)).setF (F.PHE_LAT_SECT_ZONE_OFF.nth l) (word o 1)
    let s := (s.setF (F.PHE_LAT_SECT_LOOP_OFF.nth l) (word o 2)).setF (F.PHE_LAT_SECT_GRP_OFF.nth l) (word o 3)
    (s.setF (F.PHE_LAT_INFO_SLOT_LINES.nth l) (word o 4)).setF (F.PHE_LAT_INFO_W.nth l) (s.winLen l)) s
  s.classesOn.foldl (fun s c =>
    let w := s.clsEnt c
    s.setSlpEnt 1 c [word w 0, putBits 31 0 (s.classWcet c) (word w 1)]) s

/-- The configuration of a bundle in the blocks, each block reset before it is written; forces and Weevil ARM go with the reset. -/
def State.configured (s : State) (b : Bundle) : State :=
  let s := (bundleSections b).foldl (fun s x => s.engineReset x.1) s.disarm
  let s := ((bundleItems b).filter (fun i => !isContext i)).foldl (fun s i => s.cfgItem i) s
  (((bundleItems b).filter isContext).foldl (fun s i => s.cfgItem i) s).derived.tbuFollow

/-- Whether the bundle sets a field that group B's enable waits for: the last item of its register decides. -/
def bundleAsks (b : Bundle) (f : Field) : Bool :=
  (bundleItems b).foldl (fun a i => match i with
    | .field page off v => if regBase + page * 0x10000 + off = f.addr then bit f.lo v else a
    | _ => a) false

/-! ### Rejections (R458, step 3), each as status, page and item -/

/-- The first failing item of a list. -/
def firstBad (l : List Nat) (st page : Nat) (bad : Nat → Bool) : Option (Nat × Nat × Nat) := (l.find? bad).map (fun i => (st, page, i))

/-- The first failure of a list of checks. -/
def firstOf (l : List (Option (Nat × Nat × Nat))) : Option (Nat × Nat × Nat) := l.findSome? id

/-- Whether two of some runs, each under its index, meet the one at index `i`. -/
def meetsOther (l : List (Nat × Nat × Nat)) (i : Nat) : Bool :=
  l.any (fun a => a.1 == i && l.any (fun b => b.1 != i && runsMeet a.2 b.2))

/-- The lattices in use. -/
def State.latsOn (s : State) : List Nat := (List.range 4).filter (fun l => s.flag (F.SLE_LAT_CFG_EN.nth l))

/-- The Sample Memory regions in use. -/
def State.regions (s : State) : List Nat := (List.range 32).filter (fun r => s.flag (F.SMEM_REGION_VALID.nth r))

/-- First line and length of a region. -/
def State.regionRun (s : State) (r : Nat) : Nat × Nat := (s.get (F.SMEM_REGION_BASE.nth r), s.get (F.SMEM_REGION_SIZE.nth r))

/-- Whether lines lie inside a run of lines. -/
def runWithin (a b : Nat × Nat) : Bool := decide (b.1 ≤ a.1) && decide (a.1 + a.2 ≤ b.1 + b.2)

/-- Whether an area lies inside a region of its owner, with PROV as it needs (R190, R191, R218). -/
def State.areaOk (s : State) (owner : Nat) (prov : Bool) (a : Nat × Nat) : Bool :=
  s.regions.any (fun r => s.get (F.SMEM_REGION_OWNER.nth r) == owner && s.flag (F.SMEM_REGION_PROV.nth r) == prov
    && runWithin a (s.regionRun r))

/-- The provisional areas of a lattice: of the SLE, the Phasor Engine and the Guard Comparators. -/
def State.provAreas (s : State) (l : Nat) : List Nat :=
  [s.get (F.SLE_LAT_PMEM_PROV_BASE.nth l), s.get (F.PHE_LAT_RES_PROV_BASE.nth l), s.get (F.GCM_LAT_RES_PROV_BASE.nth l)]

/-- The entries of a slice in one SLT table. -/
def State.sltCount (s : State) (t n : Nat) (own : List Nat → Nat) : Nat :=
  ((s.sltAll t).filter (fun p => seValid p.2 && own p.2 == n)).length

/-- A sample window against the regions (R325). -/
def State.windowBad (s : State) (w : List Nat) : Bool :=
  let run := (swBase w, swSize w)
  let prov := s.regions.filter (fun r => s.flag (F.SMEM_REGION_PROV.nth r))
  if swProv w then !slPvAllow (s.sltEnt 0 (seSlice w)) || !prov.any (fun r => runWithin run (s.regionRun r)
      && (s.provAreas (swLat w)).any (fun a => decide ((s.regionRun r).1 ≤ a) && decide (a < (s.regionRun r).1 + (s.regionRun r).2)))
  else prov.any (fun r => runsMeet run (s.regionRun r))

/-- Slice profiles (R325, R346, R353). -/
def State.sltReject (s : State) (b : Bundle) : Option (Nat × Nat × Nat) :=
  let prof := (s.sltAll 0).filter (fun p => slProfile p.2)
  let fRuns := prof.map (fun p => (p.1, slFBase p.2, slFWords p.2))
  let rings := (bundleItems b).filterMap (fun i => match i with
    | .slt t k ws => if t = 2 ∧ seValid ws then some (k, rgSlice ws) else none
    | _ => none)
  let st := s.get F.SLT_CTL_STAT_I
  let icl := s.ing.ctx.flatMap (fun p => s.cxRuns p.2.words ++ cxStatRuns p.2.words)
  firstOf
    [ (s.slt.tab.find? (fun p => !sltOk (p.1 / 4096) p.2)).map (fun p => (stConsistency, 0x03, p.1 % 4096)),
      firstBad (prof.map Prod.fst) stCapacity 0x03 (fun n => decide (8 < s.sltCount 4 n seSlice) || decide (8 < s.sltCount 5 n seSlice)
        || decide (64 < s.sltCount 2 n rgSlice)),
      firstBad (prof.map Prod.fst) stConsistency 0x03 (fun n => meetsOther fRuns n || rings.any (fun r => r.2 == n && rings.any (fun q => q.1 == r.1 && q.2 != n))
        || ((s.sltAll 2).filter (fun p => seValid p.2 && rgSlice p.2 == n && rgKind p.2 == 3)).map Prod.fst != [slEvtRing (s.sltEnt 0 n)]),
      ((s.sltAll 4).find? (fun p => seValid p.2 && s.windowBad p.2)).map (fun p => (stConsistency, 0x03, p.1)),
      if st != 0xFFFF && (runsMeet (st, 128) (s.get F.QBC_MAP_IN_BASE, 256) || icl.any (fun r => runsMeet (st, 128) r)) then
        some (stConsistency, 0x03, st) else none ]

/-- Stream contexts (R132, R134, R135, R145, R158, R167, R31). -/
def State.sctReject (s : State) : Option (Nat × Nat × Nat) :=
  let cs := (s.ing.ctx.filter (fun p => cxValid p.2.words)).map Prod.fst
  let w := fun (c : Nat) => (s.ctx c).words
  firstOf [ firstBad cs stConsistency 0x05 (fun c => decide (4096 ≤ c) || !ctxReservedOk (w c) || !s.ctxOk c (w c) || !s.ctxTimely (w c)),
    firstBad cs stCapacity 0x05 (fun c => !s.ctxFits c (w c)) ]

/-- The field items that give a field the commit judges a value outside its range. -/
def rawBad (b : Bundle) (page : Nat) (fs : List Field) : Bool :=
  (bundleItems b).any (fun i => match i with
    | .field p off v => p == page && (itemFields p off).any (fun f => fs.any (fun g => g.lo == f.lo && g.width == f.width
        && decide (g.addr ≤ f.addr) && (f.addr - g.addr) % max 1 g.stride == 0 && decide (f.addr - g.addr < 64 * max 1 g.stride))
        && (decide (f.part v < f.minV) || decide (f.maxV < f.part v)))
    | _ => false)

/-- Lattices (R31, R158, R160, R191, R221). -/
def State.sleReject (s : State) (b : Bundle) : Option (Nat × Nat × Nat) :=
  let ls := s.latsOn
  let runs := ls.map (fun l => (l, s.chBase l, s.chCount l))
  firstOf
    [ firstBad ls stCapacity 0x06 (fun l => decide (8192 < s.chBase l + s.chCount l)
        || decide (8192 < sumN (ls.map s.chCount)) || decide (2048 < sumN ((ls.filter (fun k => decide (12800 ≤ s.latRate k))).map s.chCount))),
      if rawBad b 0x06 [F.SLE_LAT_TIME_DEADLINE, F.SLE_LAT_MEM_HIST] then some (stConsistency, 0x06, 0) else none,
      firstBad ls stConsistency 0x06 (fun l => meetsOther runs l || decide (4 < s.get (F.SLE_LAT_CFG_RATE.nth l))
        || decide (s.get (F.SLE_LAT_TIME_DEADLINE.nth l) ≤ s.get (F.SLE_LAT_TIME_PCLOSE.nth l))
        || decide (s.get (F.SLE_LAT_MEM_HIST.nth l) < max 64 (s.winLen l + s.specDepth l))) ]

/-- Lines of a lattice's areas: HIST slots, SPEC_DEPTH slots. -/
def State.sleAreas (s : State) (l : Nat) : Bool :=
  s.areaOk 1 false (s.get (F.SLE_LAT_MEM_CONF_BASE.nth l), s.get (F.SLE_LAT_MEM_HIST.nth l) * s.slotLines l)
    && s.areaOk 1 true (s.get (F.SLE_LAT_PMEM_PROV_BASE.nth l), s.specDepth l * s.slotLines l)

/-- Sample Memory regions (R31, R190). -/
def State.smemReject (s : State) : Option (Nat × Nat × Nat) :=
  let runs := s.regions.map (fun r => (r, s.regionRun r))
  firstOf [ firstBad s.regions stCapacity 0x07 (fun r => decide (smemSize / 64 < (s.regionRun r).1 + (s.regionRun r).2)),
    firstBad s.regions stConsistency 0x07 (fun r => meetsOther runs r), firstBad s.latsOn stConsistency 0x07 (fun l => !s.sleAreas l) ]

/-- The lattice of a channel. -/
def State.chanLat (s : State) (c : Nat) : Option Nat := s.latsOn.find? (fun l => s.inLat l c)

/-- The one lattice in which every channel of a list lies. -/
def State.oneLat (s : State) (cs : List Nat) : Option Nat :=
  match cs with
  | [] => none
  | c :: t => if t.all (fun d => s.chanLat d == s.chanLat c) then s.chanLat c else none

/-- The lattice of a phasor object: phase set (2), zone (3), loop (5), group (6). -/
def State.objLat (s : State) (t : Nat) (w : List Nat) : Option Nat :=
  match t with
  | 2 => s.oneLat (psChans w)
  | 3 => s.oneLat ((s.zoneTerms w).flatMap s.termChans)
  | 5 => s.oneLat (psChans (s.pheEnt 2 (wbits w 0 59 49)) ++ psChans (s.pheEnt 2 (wbits w 0 48 38)))
  | _ =>
    let l := s.oneLat (if wbit w 0 60 then psChans (s.pheEnt 2 (wbits w 0 59 47)) else [wbits w 0 59 47])
    if l = some (wbits w 0 62 61) then l else none

/-- The channel orders of R212. -/
def State.chanOrders (s : State) : Nat :=
  sumN (((s.pheAll 0).filter (fun p => pcEn p.2)).map (fun p =>
    ((s.ordersOf p.1).filter (fun o => o != 0)).length
      * (match s.chanLat p.1 with | some l => if 12800 ≤ s.latRate l then 3 else 1 | none => 1)))

/-- Lines of a lattice's phasor areas. -/
def State.pheAreas (s : State) (l : Nat) : Bool :=
  let n := word (s.pheLayout l) 4
  s.areaOk 2 false (s.get (F.PHE_LAT_RES_CONF_BASE.nth l), s.get (F.PHE_LAT_RES_PHIST.nth l) * n)
    && s.areaOk 2 true (s.get (F.PHE_LAT_RES_PROV_BASE.nth l), s.specDepth l * n)

/-- Phasor tables (R31, R212, R215, R221); the areas where the bundle enables the engine. -/
def State.pheReject (s : State) (b : Bundle) : Option (Nat × Nat × Nat) :=
  let used := fun (t : Nat) => (s.pheAll t).filter (fun p => wbit p.2 0 63)
  let bad := fun (t : Nat) => (used t).find? (fun p => (s.objLat t p.2).isNone)
  let hord := (used 3).find? (fun p => znHord p.2 != 0
    && ((s.zoneTerms p.2).flatMap s.termChans).any (fun c => !(s.ordersOf c).contains (znHord p.2)))
  let on := if bundleAsks b F.PHE_CTL_EN then s.latsOn else []
  let item := fun (o : Option (Nat × List Nat)) => o.map (fun p => (stConsistency, 0x08, p.1))
  firstOf
    [ if 16384 < s.chanOrders then some (stCapacity, 0x08, 0) else none,
      if 8192 < sumN ((used 3).map (fun p => znTerms p.2)) then some (stCapacity, 0x08, 0) else none,
      (s.phe.tab.find? (fun p => !pheIx (p.1 / 8192) (p.1 % 8192) || !pheEntOk (p.1 / 8192) p.2)).map (fun p => (stConsistency, 0x08, p.1 % 8192)),
      item (bad 2), item (bad 3), item (bad 5), item (bad 6), item hord,
      if rawBad b 0x08 [F.PHE_LAT_RES_PHIST] then some (stConsistency, 0x08, 0) else none,
      firstBad on stConsistency 0x08 (fun l => decide (s.get (F.PHE_LAT_RES_PHIST.nth l) < 16) || !s.pheAreas l) ]

/-- The lattice of a guard's input, none where the input is not one record of one lattice (R222, R223). -/
def State.guardInLat (s : State) (w : List Nat) : Option Nat :=
  let i := gdIdx w
  let obj := fun (t : Nat) => if wbit (s.pheEnt t i) 0 63 then s.objLat t (s.pheEnt t i) else none
  match gdSrc w with
  | 2 => if (hsOrders (s.pheEnt 1 (pcHset (s.pheEnt 0 i)))).getD (gdSub w) 0 = 0 ∨ pcHset (s.pheEnt 0 i) = 0 then none else s.chanLat i
  | 3 => obj 2
  | 4 => obj 3
  | 5 => obj 3
  | 6 => obj 3
  | 7 => obj 5
  | 8 => obj 5
  | 9 => obj 6
  | 10 => obj 6
  | _ => s.chanLat i

/-- Lines of a lattice's guard areas. -/
def State.gcmAreas (s : State) (l : Nat) : Bool :=
  let n := 1 + (s.gCount l + 3) / 4
  s.areaOk 3 false (s.get (F.GCM_LAT_RES_CONF_BASE.nth l), s.get (F.GCM_LAT_RES_GHIST.nth l) * n)
    && s.areaOk 3 true (s.get (F.GCM_LAT_RES_PROV_BASE.nth l), s.specDepth l * n)

/-- Guards, the disabled ones as well (R221 to R224); the areas where the bundle enables the comparators. -/
def State.gcmReject (s : State) (b : Bundle) : Option (Nat × Nat × Nat) :=
  let gs := (s.gcm.cfg.filter (fun p => (s.gcmEnt p.1).any (fun w => w != 0))).map Prod.fst
  let ranged := (List.range 4).filter (fun l => s.gCount l != 0)
  let runs := ranged.map (fun l => (l, s.gBase l, s.gCount l))
  let on := if bundleAsks b F.GCM_CTL_EN then s.latsOn else []
  firstOf
    [ firstBad gs stConsistency 0x09 (fun g => decide (4096 ≤ g) || !gdKindOk (s.gcmEnt g) || !gdParamOk (s.gcmEnt g)
        || !(match s.guardInLat (s.gcmEnt g) with | some l => s.inGuards l g | none => false)),
      firstBad ranged stConsistency 0x09 (fun l => meetsOther runs l || decide (4096 < s.gBase l + s.gCount l)),
      if rawBad b 0x09 [F.GCM_LAT_RES_GHIST] then some (stConsistency, 0x09, 0) else none,
      firstBad on stConsistency 0x09 (fun l => decide (s.get (F.GCM_LAT_RES_GHIST.nth l) < 16) || !s.gcmAreas l) ]

/-- Scarab slots, classes and programs (R31, R238, R242, R244, R251, R253, R260). -/
def State.slpReject (s : State) : Option (Nat × Nat × Nat) :=
  let item := fun (o : Option Nat) => o.map (fun i => (stConsistency, 0x0A, i))
  firstOf
    [ if s.progFits then none else some (stCapacity, 0x0A, 0),
      (s.slp.tab.find? (fun p => decide (slpSize (p.1 / 2 ^ 18) ≤ p.1 % 2 ^ 18) || !slpEntOk (p.1 / 2 ^ 18) p.2)).map
        (fun p => (stConsistency, 0x0A, p.1 % 2 ^ 18)),
      item s.programsFail, item s.classesFail ]

/-- The Pair Controller (R379, R380). -/
def State.prcReject (s : State) (b : Bundle) : Option (Nat × Nat × Nat) :=
  let goose := s.pub.ent.filter (fun p => pbValid p.2 && pbEn p.2 && !pbSv p.2 && !pbRing p.2)
  let top := goose.foldl (fun a p => max a (wbits p.2 3 52 37)) 0
  let w := s.get F.PRC_CTL_SOLO_WAIT
  if rawBad b 0x0E [F.PRC_CTL_LOSS_TIME] || (w != 0 && decide (w < 2 * top)) then some (stConsistency, 0x0E, 0) else none

/-- Port p against R103. -/
def State.portBad (s : State) (p : Nat) : Bool :=
  let f := fun (x : Field) => s.get (x.pg p)
  let process := f F.MAC_CTL_ROLE == 0
  let wd := f F.MAC_PAUSE_CFG_WD_TIME
  (process && (f F.MAC_CTL_EEE_EN == 1 || f F.MAC_CTL_TX_PAUSE_EN == 1
      || (f F.MAC_CTL_RX_PAUSE_EN == 1 && (wd == 0 || decide (10 < wd)))))
    || (f F.MAC_CTL_FEC == 1 && f F.MAC_CTL_SPEED == 1)
    || (p % 2 == 1 && s.redun p != 0 && [F.MAC_CTL_SPEED, F.MAC_CTL_FEC, F.MAC_CTL_ROLE, F.MAC_CTL_MAX_FRAME].any
      (fun x => s.get (x.pg (p - 1)) != f x))

/-- Ports (R103); REDUN given to an odd port is rejected in the bundle itself. -/
def State.portReject (s : State) (b : Bundle) : Option (Nat × Nat × Nat) :=
  let odd := fun (p : Nat) => p % 2 == 1 && (bundleItems b).any (fun i => match i with
    | .field page off v => page == 0x18 + p && off == 0 && bits 17 16 v != 0
    | _ => false)
  (firstBad (List.range 8) stConsistency 0 (fun p => s.portBad p || odd p)).map (fun x => (x.1, 0x18 + x.2.2, x.2.2))

/-- The table page and the index of an item that names an entry beyond its table's capacity (R31). -/
def itemBeyond : CfgItem → Option (Nat × Nat)
  | .sct i _ => if 4096 ≤ i then some (0x05, i) else none
  | .sctMap i _ => if 32768 ≤ i then some (0x05, i) else none
  | .phe t i _ => if pheIx t i then none else some (0x08, i)
  | .gcm i _ => if 4096 ≤ i then some (0x09, i) else none
  | .slp t i _ => if slpSize t ≤ i then some (0x0A, i) else none
  | .pub i _ => if pubCount ≤ i then some (0x0B, i) else none
  | .pubMember i _ => if membCount ≤ i then some (0x0B, i) else none
  | .dre t i _ => if dreSize t ≤ i then some (0x0C, i) else none
  | .slt t i _ => if sltSize t ≤ i then some (0x03, i) else none
  | _ => none

/-- The first item of a bundle beyond the capacity of a page's tables (R31). -/
def beyond (b : Bundle) (page : Nat) : Option (Nat × Nat × Nat) :=
  ((bundleItems b).filterMap itemBeyond).findSome? (fun e => if e.1 = page then some (stCapacity, page, e.2) else none)

/-- Every rejection, in ascending page order (R458, step 3), on the configuration as the commit would write it. -/
def State.rejects (s : State) (b : Bundle) : Option (Nat × Nat × Nat) :=
  let at_ := fun (page : Nat) (o : Option Nat) => o.map (fun i => (stConsistency, page, i))
  firstOf [ beyond b 0x03, s.sltReject b, beyond b 0x05, s.sctReject, s.sleReject b, s.smemReject, beyond b 0x08, s.pheReject b,
    beyond b 0x09, s.gcmReject b, beyond b 0x0A, s.slpReject, beyond b 0x0B, at_ 0x0B s.pubFail, beyond b 0x0C, at_ 0x0C (s.dreFail (bundleAsks b F.SLE_CTL_EN)),
    s.prcReject b, at_ 0x10 s.pscFail, at_ 0x11 s.arcFail, s.portReject b ]

/-- Steps 1 to 4 of a commit: the failure as status, page and item, else the blocks as step 5 would leave them. -/
def State.checked (s : State) (b : Bundle) : (Nat × Nat × Nat) ⊕ State :=
  if !s.formatOk b then .inl (stFormat, 0xFF, 0)
  else if !s.bundleSigned b then .inl (stSignature, 0x12, 0)
  else
    let t := s.configured b
    match t.rejects b with
    | some e => .inl e
    | none => .inr t

/-! ### The commit point and group A (R458, R492) -/

/-- The island takes the safety parameters; a change of them restarts it (R400). -/
def State.islandCommit (s : State) (changed : Bool) : State :=
  if !s.islandOn then s
  else
    let s := s.modPsc (fun p => { p with haveParam := true })
    if s.ist = 2 then s.takeParams else if changed then s.islandStart else s

/-- Steps 5 and 6: the configuration stands in the blocks, RWL fields lock, BUNDLE_ID is set, MS4 is extended, records are kept or
freed, the island takes its parameters. `pend` names the PENDING slot, which becomes ACTIVE. -/
def State.commitPoint (s t : State) (b : Bundle) (pend : Bool) : State :=
  let changed := s.paramWords != t.paramWords || s.get F.PSC_PARAM_CRC_CRC != t.get F.PSC_PARAM_CRC_CRC
  let u := if pend then t.slotWrite (fun c => { c with active := some b, pending := none, mark := false }) else t
  let u : State := { u with tmc := { u.tmc with locked := true, bundleId := bundleIdOf b } }
  let u := (u.extendMs 4 (Config.sha384 (toNats b.raw))).belfry 1 0x000F 0 [bundleIdOf b, b2n u.tmc.fallback]
  let u := u.dreCommit.statusBit 0 true
  if changed || bundleHas b 0x0C then u.islandCommit changed else u

/-- The silence of every context in WAIT is counted from now (R144). -/
def State.waitFromNow (s : State) : State :=
  { s with ing := { s.ing with
      ctx := s.ing.ctx.map (fun (p : Nat × Ctx) => (p.1, if p.2.health = hWait then { p.2 with heardAt := s.now } else p.2)) } }

/-- GROUP_A_ENABLE (R492): MACs, Timebase Unit, Classifier, carrier bus and Pair Controller run by the EN fields that the commit
wrote; the carrier bus and MOD_RST_OUT_N wait until VIO_CAR has been in range for 1 ms. -/
def State.groupA (s : State) : State :=
  let s := s.setF F.TMC_START_STATUS_PHASE 4
  let s : State := { s with
    tmc := { s.tmc with groupAt := s.now }
    qbc := { s.qbc with waiting := !s.sup.released }
    prc := { s.prc with lastHeard := s.now } }
  let s := s.waitFromNow
  (if s.sup.vioSince + ms 1 ≤ s.now then qbcStart s else s).evalReady

/-- CHECK of a commit's rejection: the RESULT code of the block's command register for its status, or 0 where the register has none
(R449, R456). -/
def failCheck (page st : Nat) : Nat :=
  if st = stConsistency ∧ [0x03, 0x05, 0x08, 0x09, 0x0A, 0x0B, 0x0C].contains page then 5
  else if st = stCapacity ∧ [0x05, 0x08, 0x09].contains page then 4
  else 0

/-- The detail of the last failure (R449, R459). -/
def State.failed (s : State) (e : Nat × Nat × Nat) : State :=
  { s with tmc := { s.tmc with lastFail := [e.2.1, 0] ++ octs 2 (failCheck e.2.1 e.1) ++ octs 4 e.2.2 } }

/-- The state on which a staged bundle is checked: as a reset that clears the locks leaves it (R459). -/
def State.stageBase (s : State) : State := if s.tmc.locked then s.blocksReset true else s

/-! ### Bundle commands (R459) -/

/-- The bundle at the front of a buffer: the LENGTH octets that its header names. -/
def State.bundleIn (s : State) (buf : BufRef) (c : BundleContent) : Bundle :=
  let o := s.bufRead buf
  ⟨o.take (hdr o 12 4), c⟩

/-- BUNDLE_STAGE: the bundle is read from the buffer. -/
def bundleStageAct (q : Req) (buf : BufRef) (c : BundleContent) (s : State) : Ans × State :=
  if !s.bufOk q buf then (.fail stBadParam 0x00 0 0, s)
  else if !s.flashOk then (.fail stNoResources 0x00 0 0, s)
  else (.accepted 0 (heldBy [buf]), { s with tmc := { s.tmc with staging := some (s.bundleIn buf c) } })

/-- Whether a BUNDLE_STAGE runs, which holds the PENDING slot (R452). -/
def State.stageRuns (s : State) : Bool := s.tmc.jobs.any (fun j => j.op == 0x0110)

/-- The end of BUNDLE_STAGE: the bundle replaces PENDING, whose mark goes with it, or the failure is kept. -/
def State.stageEnd (s : State) : (Nat × Nat × Nat) × State :=
  match s.tmc.staging with
  | none => ((stAborted, 0, 0), s)
  | some b =>
    let s := { s with tmc := { s.tmc with staging := none } }
    match s.stageBase.checked b with
    | .inl e => (e, s.failed e)
    | .inr _ => ((stOk, 0, 0), { s.flashWrite with tmc := { s.tmc with pending := some b, mark := false } })

/-- BUNDLE_ACTIVATE. -/
def bundleActivateAct (reset : Nat) (s : State) : Ans × State :=
  if 2 ≤ reset then (.fail stBadParam 0x00 0 0, s)
  else if s.stageRuns then (.fail stBusy 0x00 0 0, s)
  else if s.tmc.pending.isNone then (.fail stWrongState 0x00 0 0, s)
  else
    let s := s.slotWrite (fun c => { c with mark := true })
    (.done [], if reset = 1 then s.resetAt 9 else s)

/-- BUNDLE_COMMIT. -/
def bundleCommitAct (s : State) : Ans × State :=
  if s.tmc.locked || s.tmc.pending.isNone then (.fail stWrongState 0x00 0 0, s) else (.accepted 0 [], s)

/-- The end of BUNDLE_COMMIT: PENDING is committed and the start-up goes on at group A, or the failure is kept; where the start-up has
committed a bundle meanwhile, the locks shut the commit out (R459, R489). -/
def State.commitEnd (s : State) : (Nat × Nat × Nat) × State :=
  match if s.tmc.locked then none else s.tmc.pending with
  | none => ((stWrongState, 0, 0), s)
  | some b =>
    match s.checked b with
    | .inl e => (e, s.failed e)
    | .inr t =>
      let u := s.commitPoint t b true
      ((stOk, 0, 0), if u.get F.TMC_START_STATUS_PHASE = 7 then u.groupA else u)

/-- BUNDLE_DISCARD. -/
def bundleDiscardAct (s : State) : Ans × State :=
  if s.stageRuns then (.fail stBusy 0x00 0 0, s)
  else (.done [], s.slotWrite (fun c => { c with pending := none, mark := false }))

/-- BUNDLE_STATUS: BUNDLE_ID of ACTIVE and PENDING, the mark, FALLBACK, the detail of the last failure. -/
def bundleStatusAct (s : State) : Ans × State :=
  (.done (le 4 ((s.tmc.active.map bundleIdOf).getD 0) ++ le 4 ((s.tmc.pending.map bundleIdOf).getD 0) ++ le 1 (b2n s.tmc.mark)
    ++ le 1 (b2n s.tmc.fallback) ++ (List.range 8).map (fun i => BitVec.ofNat 8 (s.tmc.lastFail.getD i 0))), s)

/-- BUNDLE_STAGE. -/
def execBundleStage (q : Req) (buf : BufRef) (b : BundleContent) (s : State) : Result :=
  s.patchaif q 0x0110 (bufOctets buf) true false (bundleStageAct q buf b)
/-- BUNDLE_ACTIVATE. -/
def execBundleActivate (q : Req) (reset : Nat) (s : State) : Result :=
  s.patchaif q 0x0111 (le 1 reset) false false (bundleActivateAct reset)
/-- BUNDLE_COMMIT. -/
def execBundleCommit (q : Req) (s : State) : Result := s.patchaif q 0x0112 [] true false bundleCommitAct
/-- BUNDLE_DISCARD. -/
def execBundleDiscard (q : Req) (s : State) : Result := s.patchaif q 0x0113 [] false false bundleDiscardAct
/-- BUNDLE_STATUS. -/
def execBundleStatus (q : Req) (s : State) : Result := s.patchaif q 0x0114 [] false false bundleStatusAct

end Sys2Proof.Machine
end

