-- ==== Sys2Proof/Machine/PairCmds.lean ====
section
/-! DEFINITION. The Pair commands of Patchaif (R364, R370, R382) and the live fields of the PRC pages (R380, R381). -/
namespace Sys2Proof.Machine

/-- Microseconds since a moment, saturating at 16 bits. -/
def State.age (s : State) (t : Option Time) : Nat :=
  match t with
  | none => 0xFFFF
  | some t => min 0xFFFF ((s.now - t) / us 1)

/-- The PRC and PRC_CIC fields that follow time: heartbeats within LOSS_TIME, ages, transitions within 125 µs (R380, R381). -/
def State.showPrc (s : State) : State :=
  let heard := fun t : Option Time => match t with | some t => decide (s.now ≤ t + s.lossTime) | none => false
  let s := (s.setB F.PRC_STATUS_HEARD_CIC (heard s.prc.heardC)).setB F.PRC_STATUS_HEARD_K (heard s.prc.heardK)
  let s := (s.setF F.PRC_PEER_AGE_AGE_K (s.age s.prc.heardK)).setF F.PRC_PEER_AGE_AGE_CIC (s.age s.prc.heardC)
  let s := s.setB F.PRC_CIC_STATUS_TX_ON (s.flag F.PRC_CTL_EN && s.flag F.PRC_CTL_PAIRED)
  s.setB F.PRC_CIC_STATUS_LINE_ACTIVE (match s.prc.lineAt with | some t => decide (s.now ≤ t + us 125) | none => false)

/-- PAIR_STATUS. -/
def pairStatusAct (clear : Bool) (s : State) : Ans × State :=
  let v := s.showPrc
  let o := v.regOctets 4 [F.PRC_STATUS_FENCE_REASON, F.PRC_STATUS_SWITCHING, F.PRC_STATUS_LEASE, F.PRC_STATUS_GAP,
      F.PRC_STATUS_ALIGNED, F.PRC_STATUS_READY, F.PRC_STATUS_HEARD_CIC, F.PRC_STATUS_HEARD_K, F.PRC_STATUS_ROLE]
    ++ v.regOctets 4 [F.PRC_EPOCH_EPOCH] ++ v.cntOctets F.PRC_PEER_BLOCK 0 2
    ++ v.regOctets 4 [F.PRC_PEER_AGE_AGE_K, F.PRC_PEER_AGE_AGE_CIC]
    ++ v.regOctets 4 [F.PRC_CIC_STATUS_ARR_OFFSET, F.PRC_CIC_STATUS_LINE_ACTIVE, F.PRC_CIC_STATUS_TX_ON]
    ++ v.cntOctets F.PRC_CNT_COUNT 0 16 ++ v.cntOctets F.PRC_CIC_CNT_COUNT 0 4
  (.done o, (s.clearCnt F.PRC_CNT_COUNT 0 16 clear).clearCnt F.PRC_CIC_CNT_COUNT 0 4 clear)

/-- Whether R370 accepts a controlled switch-over. -/
def State.switchOk (s : State) : Bool :=
  let o := s.prc.peerBlock
  s.flag F.PRC_CTL_EN && s.flag F.PRC_CTL_PAIRED && s.flag F.PRC_CTL_SWITCH_EN && s.role == 0
    && !s.flag F.PRC_STATUS_SWITCHING && !s.prc.armed && s.prc.peerRole == some 1 && hbAligned o && hbReady o
    && !hbRide o && s.sup.mode != .rideThrough && s.sameBundle

/-- PAIR_SWITCH: the reply comes with the outcome. -/
def pairSwitchAct (q : Req) (s : State) : Ans × State :=
  if s.switchOk then (.later, { s with prc := { s.prc with armed := true, switchReq := some q } })
  else (.fail stWrongState 0x0E 0 0, s)

/-- PAIR_FENCE: a module fenced with FAULT keeps that reason (R364). -/
def pairFenceAct (s : State) : Ans × State :=
  if s.role = 3 ∧ s.get F.PRC_STATUS_FENCE_REASON = 5 then (.done [], s) else (.done [], s.fence 4)

/-- PAIR_RELEASE: a COMMAND fence becomes START; a single module then takes Alone under R358. -/
def pairReleaseAct (s : State) : Ans × State :=
  if s.role = 3 ∧ s.get F.PRC_STATUS_FENCE_REASON = 4 then
    (.done [], (s.setF F.PRC_STATUS_FENCE_REASON 1).singleAlone)
  else (.fail stWrongState 0x0E 0 0, s)

/-- PAIR_ALONE: refused while the peer was Active or Alone within LOSS_TIME, and without READY (R382, R497). -/
def pairAloneAct (s : State) : Ans × State :=
  let near := match s.prc.lastSending with | some t => decide (s.now ≤ t + s.lossTime) | none => false
  if s.role = 3 ∧ s.get F.PRC_STATUS_FENCE_REASON ≠ 5 ∧ !near ∧ s.ready then (.done [], s.takeSending 2 false)
  else (.fail stWrongState 0x0E 0 0, s)

/-- HEARTBEAT_RX: a copy on a K port meets the Weevil there; the Cicada line has no receive rules (R129). -/
def execHeartbeatRx (h : HbRx) (s : State) : Result :=
  .next (if h.path < 2 then s.pairMsg (8 + h.path) (heartbeatRx h) else heartbeatRx h s)
/-- HANDOVER_RX. -/
def execHandoverRx (h : PairHdr) (recs : List PubSyncRec) (s : State) : Result := .next (s.pairMsg h.port (handoverRx h recs))
/-- DIGEST_RX. -/
def execDigestRx (h : PairHdr) (entries : List DigestEntry) (s : State) : Result := .next (s.pairMsg h.port (digestRx h entries))
/-- IMAGE_REQ_RX. -/
def execImageReqRx (h : PairHdr) (cls : Nat) (s : State) : Result := .next (s.pairMsg h.port (imageReqRx h cls))
/-- IMAGE_RX. -/
def execImageRx (h : PairHdr) (cls stamp : Nat) (octets : Octets) (s : State) : Result :=
  .next (s.pairMsg h.port (imageRx h cls stamp octets))
/-- PUB_SYNC_RX. -/
def execPubSyncRx (h : PairHdr) (recs : List PubSyncRec) (s : State) : Result := .next (s.pairMsg h.port (pubSyncRx h recs))
/-- PAIR_STATUS. -/
def execPairStatus (q : Req) (clear : Bool) (s : State) : Result := s.patchaif q 0x0901 (flagOctets clear) false false (pairStatusAct clear)
/-- PAIR_SWITCH. -/
def execPairSwitch (q : Req) (s : State) : Result := s.patchaif q 0x0902 [] false false (pairSwitchAct q)
/-- PAIR_FENCE. -/
def execPairFence (q : Req) (s : State) : Result := s.patchaif q 0x0903 [] false false pairFenceAct
/-- PAIR_RELEASE. -/
def execPairRelease (q : Req) (s : State) : Result := s.patchaif q 0x0904 [] false false pairReleaseAct
/-- PAIR_ALONE. -/
def execPairAlone (q : Req) (s : State) : Result := s.patchaif q 0x0905 [] false false pairAloneAct

end Sys2Proof.Machine
end

