-- ==== Sys2Proof/Machine/Startup.lean ====
section
/-! DEFINITION. Start-up from PREPARE on (R491 to R495): the commit of a stored bundle, the engines of group B, and the end of
long commands (R452). -/
namespace Sys2Proof.Machine

/-! ### COMMIT (R459, R491) -/

/-- No slot committed: the module runs without a bundle. -/
def State.noBundle (s : State) : State := (s.setF F.TMC_START_STATUS_PHASE 7).evalReady

/-- ACTIVE committed, or none. -/
def State.commitActive (s : State) : State :=
  match s.tmc.active with
  | none => s.noBundle
  | some b =>
    match s.checked b with
    | .inl e => (s.failed e).noBundle
    | .inr t => (s.commitPoint t b false).groupA

/-- PREPARE_COMPLETE: with the Dome READY or without a root, the marked PENDING is committed, or else ACTIVE; a marked PENDING that
fails gives FALLBACK and loses its mark. -/
def prepareComplete (s : State) : State :=
  if s.get F.TMC_START_STATUS_PHASE ≠ 2 ∨ s.dstate = 0 then s
  else if s.tmc.locked then s.groupA
  else
    let s := s.setF F.TMC_START_STATUS_PHASE 3
    match s.tmc.pending with
    | none => s.commitActive
    | some b =>
      if !s.tmc.mark then s.commitActive
      else match s.checked b with
        | .inl e =>
          let u := (s.failed e).slotWrite (fun c => { c with mark := false })
          { u with tmc := { u.tmc with fallback := true } }.commitActive
        | .inr t => (s.commitPoint t b true).groupA

/-! ### Group B (R493 to R495) -/

/-- Whether the time condition of R493 holds, LAT_WAIT apart: LOCKED, HOLDOVER or MASTER, or no time to wait for. -/
def State.timeMet (s : State) : Bool :=
  let k := s.get F.TBU_STATUS_STATE
  k == 2 || k == 3 || k == 4 || !s.flag F.TBU_CTL_EN || s.get F.TBU_CTL_ATTACH == 15

/-- The Scarab as it starts: every operand at its start value, CTD counters at PV, INIT_MODE asked for each slot with a program,
t_0 of the timed classes (R248, R251, R262, R495). Forces and a program staged in PHASE GROUP_A stay (R265, R266); a mode asked for
there gives way to INIT_MODE (DESIGN CHOICE, log 278). -/
def State.slpStart (s : State) : State :=
  let x := s.slp
  let new : Slp := { tab := x.tab, prm := x.prm, badWords := x.badWords, i := x.i, s := x.s, fConf := x.fConf
                     fPend := x.fPend.map (fun p => { p with start := none })
                     forces := x.forces, forceAt := x.forceAt, staged := x.staged }
  let ks := s.progSlots
  let s : State := { s with slp := new }
  let s := ks.foldl (fun (s : State) k =>
    let ws := s.slotWords k
    let cs := (soIndices (s.slpEnt 0 k) .c).filter (fun ix => ctrDown ws ix == some true)
    let s : State := { s with slp := { s.slp with
      c := cs.foldl (fun t ix => Tbl.set {} ix (startCounter true (s.prmAt 3 ix 0)) t) s.slp.c } }
    { s with slp := { s.slp with reqs := Tbl.set [] k [(⟨0, soInit (s.slpEnt 0 k), false⟩ : ModeReq)] s.slp.reqs } }) s
  s.classesOn.foldl (fun s c => s.modCls c (fun x => { x with t0 := (Time.sec s.now + 1) * secUnits })) s

/-- An EN field of group B that the committed bundle sets. -/
def State.enableB (s : State) (f : Field) : State :=
  match s.tmc.active with
  | some b => if bundleAsks b f then s.setF f 1 else s
  | none => s

/-- GROUP_B_ENABLE: at the time condition, or LAT_WAIT seconds after group A, the Phasor Engine, the Guard Comparators, the Scarab,
the recorder, publications and the SLE run, and the lattices start. -/
def groupBEnable (s : State) : State :=
  if s.get F.TMC_START_STATUS_PHASE ≠ 4 then s
  else
    let s := if s.timeMet then s else s.advanceTo (s.tmc.groupAt + secs (s.get F.TMC_START_CFG_LAT_WAIT))
    let s := groupBFields.foldl (fun s f => s.enableB f) s
    let s := (if s.flag F.SLP_CTL_EN then s.slpStart else s).setF F.TMC_START_STATUS_PHASE 6
    let s := if s.flag F.SLE_CTL_EN then s.latsOn.foldl (fun s l => s.latStart l) s else s
    (if s.flag F.DRE_CTL_EN then s.armInit else s).evalReady

/-! ### Long commands (R452) -/

/-- A staged bundle that passes its checks waits for its flash write through a ride-through (R63). -/
def State.stageWaits (s : State) : Bool :=
  s.sup.mode == .rideThrough && s.tmc.staging.any (fun b => (s.stageBase.checked b).isRight)

/-- The end of a running long command: status, page, check and item of its detail, and its effect; none while its work goes on. A
BUNDLE_COMMIT accepted in PREPARE ends once the start-up has made its own commit (R491, R492; DEDUCED, log 273). -/
def State.jobEnd (s : State) (j : Job) : Option ((Nat × Nat × Nat × Nat) × State) :=
  let with_ := fun (page : Nat) (r : (Nat × Nat × Nat) × State) => some ((r.1.1, page, r.1.2.1, r.1.2.2), r.2)
  if j.op = 0x0110 then if s.stageWaits then none else (let r := s.stageEnd; some ((r.1.1, r.1.2.1, failCheck r.1.2.1 r.1.1, r.1.2.2), r.2))
  else if j.op = 0x0112 ∧ s.get F.TMC_START_STATUS_PHASE < 4 then none
  else if j.op = 0x0112 then (let r := s.commitEnd; some ((r.1.1, r.1.2.1, failCheck r.1.2.1 r.1.1, r.1.2.2), r.2))
  else if j.op = 0x0205 then
    (if s.sliceState j.obj = 3 then none
     else some ((if s.sliceState j.obj = 5 then stAborted else stOk, 0x03, 0, j.obj), s))
  else if j.op = 0x0607 then with_ 0x0A s.loadEnd
  else if j.op = 0x0807 then (let r := s.exportEnd; some ((r.1, 0x0C, 0, 0), r.2))
  else if j.op = 0x0A03 ∨ j.op = 0x0A04 then (s.safetyEnd j.op).map (fun st => ((st, 0x10, 0, j.obj), s))
  else if j.op = 0x0B0E then
    s.dom.openStatus.map (fun st => ((st, 0x12, 0, 0), { s with dom := { s.dom with openStatus := none } }))
  else if s.hlt.meas.isSome then none else some ((stOk, 0x01, 0, 0), s)

/-- A command in which the TMC found an internal fault: whether it has its effect is open, and the owning status command tells
(R456; log 294). -/
def State.jobBroken (s : State) (j : Job) : State :=
  if s.freeVal 1 % 2 = 0 then s.drawn.undoJob j.op else ((s.drawn.jobEnd j).map Prod.snd).getD s.drawn

/-- LONG_COMMAND_COMPLETION of a group's running command: its effect and its COMPLETION reply. -/
def longCommandCompletion (e : LongEnd) (s : State) : State :=
  match s.tmc.jobs.find? (fun j => j.group == e.group) with
  | none => s
  | some j =>
    if e.internal then (s.jobBroken j).complete j stInternal (detail (groupPage j.group) 0 0)
    else match s.jobEnd j with
    | none => if j.op = 0x0110 then s.flashWrite else s
    | some (r, t) => t.complete j r.1 (if r.1 = stOk then [] else detail r.2.1 r.2.2.1 r.2.2.2)

/-- PREPARE_COMPLETE. -/
def execPrepareComplete (s : State) : Result := .next (prepareComplete s)
/-- GROUP_B_ENABLE. -/
def execGroupBEnable (s : State) : Result := .next (groupBEnable s)
/-- LONG_COMMAND_COMPLETION. -/
def execLongCommandCompletion (e : LongEnd) (s : State) : Result := .next (longCommandCompletion e s)

end Sys2Proof.Machine
end

