-- ==== Sys2Proof/Machine/Fabric.lean ====
section
/-! DEFINITION. The fabric (R9 to R11, R27 to R29, R329, R332, R347, R501): reads and writes by a master, of register pages, of
slice pages and of the memories. -/
namespace Sys2Proof.Machine

/-! ### What a read of a register shows -/

/-- Word 0 of the `j`-th sample window of a slice (R332). -/
def State.sampleWin (s : State) (n j : Nat) : Nat :=
  match ((s.sltAll 4).filter (fun (p : Nat × List Nat) => seValid p.2 && seSlice p.2 == n))[j]? with
  | some p => word p.2 0
  | none => 0

/-- SP_RSTAT of a local ring; zero where the slice has none (R332). -/
def State.rstat (s : State) (n k : Nat) : Nat :=
  match s.localRing n k with
  | none => 0
  | some r => place 31 29 (s.ringState r) + place 28 28 (b2n (s.ringHeld r)) + place 27 26 (rgKind (s.sltEnt 2 r))
      + place 25 16 r + place 15 0 (s.ring r).head

/-- The slice-page registers that the Slice Table's own state gives (R332): the word, none for a register of the field file. -/
def State.slicePageWord (s : State) (n k base : Nat) : Option Nat :=
  let w := s.sltEnt 0 n
  if base = F.SLT_SP_ID_SLICE.addr then some (place 22 16 n + place 15 8 (s.slice n).gen + place 2 0 (s.sliceState n))
  else if base = F.SLT_SP_STATUS_PV_EN.addr then
    some (place 31 16 (s.slice n).inflightNow + place 15 15 (b2n (slPvEn w)) + place 14 11 (slPvLat w))
  else if base = F.SLT_SP_DB_INDEX.addr then some (match s.localRing n k with | none => 0 | some r => (s.ring r).index % 65536)
  else if base = F.SLT_SP_RSTAT_HEAD.addr then some (s.rstat n k)
  else if base = F.SLT_SP_F_FLAGS.addr then some (s.fWord (slFBase w + k))
  else if base = F.SLT_SP_WIN_WINDOW.addr then some (s.sampleWin n k)
  else none

/-- The fields of the SLT page and the timebase that the state gives (R99, R353). -/
def State.showPool (s : State) : State :=
  ((s.setF F.SLT_POOL_CREDIT_FREE s.creditFree).setF F.SLT_POOL_PASID_FREE s.pasidFree).setF F.SLT_POOL_WIN_DWIN_FREE s.dwinFree

/-- TBU.NOW and its upper seconds (R99). -/
def State.showNow (s : State) : State :=
  (s.setF F.TBU_NOW_GT64 s.gt64).setF F.TBU_NOW_SEC_HI_SEC_HI (Time.sec s.now / 2 ^ 32)

/-- The register file with the live fields of the page of an address. -/
def State.shown (s : State) (a : Nat) : State :=
  match (a - regBase) / 0x10000 with
  | 0x01 => s.showFlash
  | 0x02 => s.showNow
  | 0x03 => s.showPool
  | 0x06 => s.showSle
  | 0x0A => s.showSlp
  | 0x0B => s.showPub
  | 0x0C => s.showDre
  | 0x0D => s.showBlf
  | 0x0E => s.showPrc
  | 0x0F => s.showPrc
  | 0x10 => s.showPsc
  | 0x11 => s.showPsc
  | 0x12 => s.showDom
  | _ => s

/-- The word a register reads as: its base address, page instance and element, with its fields. -/
def State.readWord (s : State) (base p k : Nat) (fs : List Field) : Nat :=
  if sliceBase ≤ base then
    match s.slicePageWord p k base with
    | some v => v
    | none => s.loadReg fs
  else (s.shown base).loadReg fs

/-! ### Register pages -/

/-- The slice whose page holds an address. -/
def pageOf (a : Nat) : Nat := (a - sliceBase) / 0x10000

/-- Whether a request to a slice page runs against a slice whose state grants none (R347): a tenant's to a FREE slice. -/
def State.pageShut (s : State) (a : Actor) (addr : Nat) : Bool :=
  match a with
  | .tenant n => decide (sliceBase ≤ addr) && s.sliceState n == 0
  | _ => false

/-- A refused request: counted against whom it acts for, and a bus error (R28, R29, R351). -/
def State.turnAway (s : State) (a : Actor) (addr : Nat) : State := (s.refused a addr).busError

/-- A read of a register page: R29, then R9 and R10. -/
def State.regRead (s : State) (m : Master) (a size : Nat) : State :=
  let who := s.actor m
  if !regGrant who a false || s.pageShut who a then s.turnAway who a
  else match regAt a with
    | none => s.busError
    | some (r, p, k) =>
      if size ≠ r.bytes then s.busError
      else if r.addr = F.SLT_SP_F_FLAGS.addr ∧ slFWords (s.sltEnt 0 p) ≤ k then s.busError
      else
        let fs := r.inst p k
        { s.clearRead fs with bus := .data (s.readWord r.addr p k fs) }

/-- The state a result leaves. -/
def leaves (s : State) : Result → State
  | .next t => t
  | _ => s

/-- The operation that a word written to a command register names (R133, R233, R234, R271, R292, R320, R353); none where OP names
none. -/
def cmdOf (m : Master) (b : CmdBlock) (v : Nat) (s : State) : Option Result :=
  let op := bits 27 24 v
  let clr := bit 23 v
  match b with
  | .sct =>
    let i := bits 14 0 v
    match op with
    | 1 => some (execSctWrite m i s)
    | 2 => some (execSctRemove m i s)
    | 3 => some (execSctRead m i clr s)
    | 4 => some (execSctMapWrite m i s)
    | 5 => some (execSctMapRead m i s)
    | 6 => some (execSctForeignRead m i s)
    | 7 => some (execSctForeignClear m i s)
    | 8 => some (execSctMode m i s)
    | _ => none
  | .phe =>
    match op with
    | 1 => some (execPheWrite m (bits 23 20 v) (bits 12 0 v) s)
    | 3 => some (execPheRead m (bits 23 20 v) (bits 12 0 v) s)
    | _ => none
  | .gcm =>
    let i := bits 11 0 v
    match op with
    | 1 => some (execGcmWrite m i s)
    | 2 => some (execGcmParam m i s)
    | 3 => some (execGcmRead m i s)
    | 4 => some (execGcmEnable m i s)
    | 5 => some (execGcmState m i s)
    | _ => none
  | .slp =>
    let t := bits 23 20 v
    let i := bits 17 0 v
    match op with
    | 1 => some (execSlpWrite m t i s)
    | 3 => some (execSlpRead m t i s)
    | 5 => some (execSlpState m t i s)
    | 6 => some (execSlpOpnd m t i s)
    | _ => none
  | .pub =>
    let i := bits 14 0 v
    match op with
    | 1 => some (execPubWrite m i s)
    | 3 => some (execPubRead m i s)
    | 4 => some (execPubMembWrite m i s)
    | 5 => some (execPubMembRead m i s)
    | 6 => some (execPubCmdEnable m i s)
    | 7 => some (execPubCmdMode m i s)
    | 8 => some (execPubStat m i s)
    | _ => none
  | .dre =>
    let t := bits 23 20 v
    let i := bits 13 0 v
    match op with
    | 1 => some (execDreWrite m t i s)
    | 3 => some (execDreRead m t i s)
    | 4 => some (execDreArm m i s)
    | 5 => some (execDreDisarm m i s)
    | 6 => some (execDreTrigger m i s)
    | 7 => some (execDreRelease m i s)
    | 8 => some (execDreStat m i s)
    | _ => none
  | .slt =>
    let t := bits 22 20 v
    let i := bits 11 0 v
    match op with
    | 1 => some (execSltWrite m t i s)
    | 3 => some (execSltRead m t i s)
    | 8 => some (execSltStat m i clr s)
    | _ => none

/-- The command blocks. -/
def cmdBlocks : List CmdBlock := [.sct, .phe, .gcm, .slp, .pub, .dre, .slt]

/-- A write of a command register: ignored while BUSY; an operation where OP names one, its other fields as written (R500). -/
def State.cmdWrite (s : State) (m : Master) (b : CmdBlock) (fs : List Field) (v : Nat) : State :=
  if s.flag (blkBusy b) then { s with bus := .done }
  else match cmdOf m b v s with
    | some r => (leaves s r).storeReg fs s.tmc.locked v
    | none => { s.storeReg fs s.tmc.locked v with bus := .done }

/-- A write of SLE.LAT_TIME (R198): ALIGN_DELAY and DEADLINE by their own ranges, then PCLOSE, whose Meaning 'below DEADLINE' gives a
value not below the DEADLINE then in force no function (R11, DEDUCED: log 238). -/
def State.storeTimes (s : State) (fs : List Field) (v : Nat) : State :=
  let t := s.storeReg (fs.filter (fun f => f.lo != F.SLE_LAT_TIME_PCLOSE.lo)) s.tmc.locked v
  let above := fun f : Field => fs.all (fun d => d.lo != F.SLE_LAT_TIME_DEADLINE.lo || decide (f.part v < t.get d))
  t.storeReg (fs.filter (fun f => f.lo == F.SLE_LAT_TIME_PCLOSE.lo && above f)) s.tmc.locked v

/-- What follows a write of a register's value into the machine: the Timebase's configuration (R82, R96, R98), and ICL.CTL.EN,
whose rise begins the silence of WAIT anew (R144), SLE.CTL.EN, which starts and stops the lattices (R494), and DRE.CTL.EN, whose rise finds those that run (R302). -/
def State.written (s : State) (base : Nat) (fs : List Field) (v : Nat) : State :=
  let t := if base = F.SLE_LAT_TIME_PCLOSE.addr then s.storeTimes fs v else s.storeReg fs s.tmc.locked v
  if decide (F.TBU_STATUS_STATE.addr / 0x10000 = base / 0x10000) then t.tbuFollow
  else if base = F.ICL_CTL_EN.addr && t.flag F.ICL_CTL_EN && !s.flag F.ICL_CTL_EN then t.waitFromNow
  else if base = F.SLE_CTL_EN.addr then t.sleSwitch (s.flag F.SLE_CTL_EN)
  else if base = F.DRE_CTL_EN.addr then t.dreSwitch (s.flag F.DRE_CTL_EN)
  else t

/-- Whether a register stands on the pages of the island, which writes reach only through the bundle commit (R29, R405). -/
def islandPage (base : Nat) : Bool := decide (F.PSC_CTL_EN.addr ≤ base) && decide (base < F.PSC_CTL_EN.addr + 0x20000)

/-- A write of a register of a global page that R29 granted, by what the register is: its base address and element. -/
def State.globalWrite (s : State) (m : Master) (base k : Nat) (fs : List Field) (v : Nat) : State :=
  match cmdBlocks.find? (fun b => (blkBusy b).addr == base) with
  | some b => s.cmdWrite m b fs v
  | none =>
    if cmdBlocks.any (fun b => (blkData b).addr == base && s.flag (blkBusy b)) then { s with bus := .done }
    else if islandPage base then { s with bus := .done }
    else if base = F.WVL_CTL_ARM.addr then wvlArmWrite m v s
    else if base = F.WVL_RULE_COUNT_EVERY.addr then wvlRuleCountWrite m k v s
    else if base = F.BLF_CURSOR_RSEQ.addr then { s.cursorWrite v with bus := .done }
    else if base = F.BLF_STEP_NEXT.addr then { s.cursorStep v with bus := .done }
    else if base = F.PHM_FAULT_THERM.addr then { (s.clearFaults v).evalReady with bus := .done }
    else
      let v := match cmdBlocks.find? (fun b => (blkData b).addr == base) with
        | some b => dataKept b k v
        | none => v
      { s.written base fs v with bus := .done }

/-- A write of a register of a slice page, by what the register is (R332, R347, R439). -/
def State.slicePageWrite (s : State) (m : Master) (base p k a v : Nat) : State :=
  if base = F.SLT_SP_DB_INDEX.addr then doorbellWrite m p k v s
  else if base = F.SLT_SP_F_FLAGS.addr then fWrite m p k v s
  else if base = F.TMC_MBX_DOORBELL_REQ.addr then mbxDoorbell m p v s
  else if base = F.TMC_MBX_ACK_DONE.addr then mbxAck m p v s
  else s.pageWrite m p (a % 0x10000) [1, 2, 3, 4, 5] (fun s => s)

/-- A write of a register page: R29, then R9 to R11. -/
def State.regWrite (s : State) (m : Master) (a size v : Nat) : State :=
  let who := s.actor m
  if !regGrant who a true || s.pageShut who a then s.turnAway who a
  else match regAt a with
    | none => s.busError
    | some (r, p, k) =>
      if size ≠ r.bytes then s.busError
      else if sliceBase ≤ a then s.slicePageWrite m r.addr p k a v
      else s.globalWrite m r.addr k (r.inst p k) v

/-! ### Memories (R29, R329, R343, R347, R439, R501) -/

/-- The regions of R27, with the mailbox areas of the slice pages apart from their registers. -/
inductive Region | dram | sample | register | mailbox | mram | dome | none_
  deriving DecidableEq, Repr

/-- The region of an address. -/
def regionAt (a : Nat) : Region :=
  if a < dramEnd then .dram
  else if smemBase ≤ a ∧ a < smemBase + smemSize then .sample
  else if regBase ≤ a ∧ a < regBase + 0x1000000 then .register
  else if sliceBase ≤ a ∧ a < sliceBase + 0x800000 then (if 0x8100 ≤ a % 0x10000 then .mailbox else .register)
  else if mramBase ≤ a ∧ a < mramBase + mramSize then .mram
  else if domeBase ≤ a ∧ a < domeBase + 0x10000 then .dome
  else .none_

/-- An access of 1, 2, 4 or 8 octets, naturally aligned (R501). -/
def natural (a size : Nat) : Bool := (size == 1 || size == 2 || size == 4 || size == 8) && a % size == 0

/-- Whether a line of Sample Memory lies in a region with PROV = 1 (R187). -/
def State.lineProv (s : State) (line : Nat) : Bool :=
  match s.regionOf line with
  | some r => s.flag (F.SMEM_REGION_PROV.nth r)
  | none => false

/-- Whether a slice may read a line of Sample Memory: a window with PROV = 0, or one with PROV = 1 whose lattice its provisional
view covers; none while FREE or FAULTED (R329, R343, R347). -/
def State.lineRead (s : State) (n line : Nat) : Bool :=
  let w := s.sltEnt 0 n
  let st := s.sliceState n
  decide (1 ≤ st) && decide (st ≤ 4)
    && (s.sltAll 4).any (fun (p : Nat × List Nat) => seValid p.2 && seSlice p.2 == n
      && decide (swBase p.2 ≤ line) && decide (line < swBase p.2 + swSize p.2)
      && (if swProv p.2 then slPvEn w && bit (swLat p.2) (slPvLat w) else !s.lineProv line))

/-- Whether octets of the record store belong to recorder instances of a slice (R29). -/
def State.recordRead (s : State) (n a size : Nat) : Bool :=
  s.sliceState n != 0 && (List.range 64).any (fun i =>
    let w := s.dreEnt 0 i
    dvValid w && dvSlice w == n && decide (mramBase + dvBase w ≤ a) && decide (a + size ≤ mramBase + dvBase w + dvSize w))

/-- Whether R29 grants an actor a read (`w` false) or a write of a memory region. -/
def State.memGrant (s : State) (who : Actor) (r : Region) (a size : Nat) (w : Bool) : Bool :=
  let system := who == .sys || who == .tmc
  match r with
  | .dram => match who with
    | .tenant n => s.sliceState n != 0 && s.dramOwned n a size
    | _ => system
  | .sample => !w && (match who with
    | .tenant n => s.lineRead n ((a - smemBase) / 64)
    | _ => system && !s.lineProv ((a - smemBase) / 64))
  | .mailbox => match who with
    | .tenant n => n == pageOf a && s.sliceState n != 0
    | _ => system
  | .mram => !w && (match who with
    | .tenant n => s.recordRead n a size
    | _ => system)
  | .dome => system
  | _ => false

/-- Whether an access keeps to its region's forms (R501): any in DRAM, else natural. -/
def memForm (r : Region) (a size : Nat) : Bool :=
  match r with
  | .dram => decide (a + size ≤ dramEnd)
  | _ => natural a size

/-- Octets of the Belfry header, whose layout the spec does not give (R474). -/
def inHeader (a : Nat) : Bool := decide (blfBase ≤ a) && decide (a < blfBase + 0x1000)

/-- A load from a memory region: a word with an uncorrectable error gives a bus error (R197, R299, R461). -/
def State.memRead (s : State) (who : Actor) (r : Region) (a size : Nat) : State :=
  if !s.memGrant who r a size false then s.turnAway who a
  else if !memForm r a size || s.dramBad a size then s.busError
  else if inHeader a then { s.drawn with bus := .data (s.freeVal (8 * size)) }
  else { s with bus := .data (s.rd a size) }

/-- A store into a memory region; a word of DRAM written whole is no longer poisoned. -/
def State.memWrite (s : State) (who : Actor) (r : Region) (a size v : Nat) : State :=
  if !s.memGrant who r a size true then s.turnAway who a
  else if !memForm r a size then s.busError
  else
    { s.wr a size v with
      bus := .done
      hlt := { s.hlt with poisoned := s.hlt.poisoned.filter (fun p => !(decide (a ≤ p) && decide (p + 8 ≤ a + size))) } }

/-- What an atomic operation stores: octets as signed or unsigned numbers of the access's size, in the meaning that the RISC-V
architecture gives the operation's name (PRESUMED, log 237). -/
def atomicVal (f : AtomicOp) (size old v : Nat) : Nat :=
  let m := 2 ^ (8 * size)
  let sg := fun x : Nat => if 2 * (x % m) < m then ((x % m : Nat) : Int) else (x % m : Nat) - (m : Nat)
  match f with
  | .swap => v % m
  | .add => (old + v) % m
  | .and => old &&& v % m
  | .or => old ||| v % m
  | .xor => old ^^^ v % m
  | .min => if sg v < sg old then v % m else old
  | .max => if sg old < sg v then v % m else old
  | .minu => if v % m < old then v % m else old
  | .maxu => if old < v % m then v % m else old

/-- Whether R29 grants an actor a store at an address of any region. -/
def State.storeGrant (s : State) (who : Actor) (a size : Nat) : Bool :=
  match regionAt a with
  | .register => regGrant who a true && !s.pageShut who a
  | .none_ => false
  | r => s.memGrant who r a size true

/-- An atomic operation (R501): in DRAM the value read is answered and the result stored; elsewhere it is no accepted access. -/
def State.fabricAtomic (s : State) (m : Master) (a size : Nat) (f : AtomicOp) (v : Nat) : State :=
  let who := s.actor m
  if !s.storeGrant who a size then s.turnAway who a
  else if regionAt a ≠ .dram ∨ !memForm .dram a size ∨ s.dramBad a size then s.busError
  else { s.memWrite who .dram a size (atomicVal f size (s.rd a size) v) with bus := .data (s.rd a size) }

/-! ### The three commands -/

/-- A fabric load (R27, R28). -/
def State.fabricRead (s : State) (m : Master) (a size : Nat) : State :=
  match regionAt a with
  | .register => s.regRead m a size
  | .none_ => s.turnAway (s.actor m) a
  | r => s.memRead (s.actor m) r a size

/-- A fabric store (R27, R28). -/
def State.fabricWrite (s : State) (m : Master) (a size v : Nat) : State :=
  match regionAt a with
  | .register => s.regWrite m a size v
  | .none_ => s.turnAway (s.actor m) a
  | r => s.memWrite (s.actor m) r a size v

/-- REGISTER_WRITE; a core that is held in reset makes none. -/
def execRegisterWrite (m : Master) (addr size value : Nat) (s : State) : Result :=
  .next (if s.masterUp m then s.fabricWrite m addr size value else s)

/-- CLEARING_READ; a core that is held in reset makes none. -/
def execClearingRead (m : Master) (addr size : Nat) (s : State) : Result :=
  .next (if s.masterUp m then s.fabricRead m addr size else s)

/-- CORE_REQUEST; a core that is held in reset makes none. -/
def execCoreRequest (q : CoreReq) (s : State) : Result :=
  .next (if !s.masterUp (.core q.core q.hyp) then s else match q.op with
    | .load => s.fabricRead (.core q.core q.hyp) q.addr q.size
    | .store v => s.fabricWrite (.core q.core q.hyp) q.addr q.size v
    | .atomic f v => s.fabricAtomic (.core q.core q.hyp) q.addr q.size f v)

end Sys2Proof.Machine
end

