-- ==== Sys2Proof/Machine/Dispatch.lean ====
section
/-! DEFINITION. What each command does: one arm per constructor of `Instr`. -/
namespace Sys2Proof.Machine

/-- The effect of a command on everything but the queue of commands. -/
def exec (i : Instr) (s : State) : Host.Outcome State Fault Refusal :=
  match i with
  | .registerWrite m addr size value => Sys2Proof.Machine.execRegisterWrite m addr size value s
  | .clearingRead m addr size => Sys2Proof.Machine.execClearingRead m addr size s
  | .commandOperationEnd b => Sys2Proof.Machine.execCommandOperationEnd b s
  | .coreRequest r => Sys2Proof.Machine.execCoreRequest r s
  | .powerUp feedA sm => Sys2Proof.Machine.execPowerUp feedA sm s
  | .railInRegulation r => Sys2Proof.Machine.execRailInRegulation r s
  | .railFault r => Sys2Proof.Machine.execRailFault r s
  | .rideThroughEntry mv => Sys2Proof.Machine.execRideThroughEntry mv s
  | .returnThreshold mv => Sys2Proof.Machine.execReturnThreshold mv s
  | .returnTimerStop mv => Sys2Proof.Machine.execReturnTimerStop mv s
  | .returnTimerExpiry => Sys2Proof.Machine.execReturnTimerExpiry s
  | .brownout => Sys2Proof.Machine.execBrownout s
  | .resetThreshold mv => Sys2Proof.Machine.execResetThreshold mv s
  | .railTakedown => Sys2Proof.Machine.execRailTakedown s
  | .vioCarFault mv => Sys2Proof.Machine.execVioCarFault mv s
  | .carRst => Sys2Proof.Machine.execCarRst s
  | .feedLost b => Sys2Proof.Machine.execFeedLost b s
  | .faultBitReassert b => Sys2Proof.Machine.execFaultBitReassert b s
  | .therm => Sys2Proof.Machine.execTherm s
  | .supplyStatusUpdate sm => Sys2Proof.Machine.execSupplyStatusUpdate sm s
  | .rootLock => Sys2Proof.Machine.execRootLock s
  | .rootRatio => Sys2Proof.Machine.execRootRatio s
  | .rootFaultResponse => Sys2Proof.Machine.execRootFaultResponse s
  | .coldReset cause => Sys2Proof.Machine.execColdReset cause s
  | .warmReset => Sys2Proof.Machine.execWarmReset s
  | .vkeepLow => Sys2Proof.Machine.execVkeepLow s
  | .keepReset => Sys2Proof.Machine.execKeepReset s
  | .prepareComplete => Sys2Proof.Machine.execPrepareComplete s
  | .qbcStart => Sys2Proof.Machine.execQbcStart s
  | .groupBEnable => Sys2Proof.Machine.execGroupBEnable s
  | .qbFrame di => Sys2Proof.Machine.execQbFrame di s
  | .secondBoundary => Sys2Proof.Machine.execSecondBoundary s
  | .ppsOutFall => Sys2Proof.Machine.execPpsOutFall s
  | .tdcCalibrationStart ch line => Sys2Proof.Machine.execTdcCalibrationStart ch line s
  | .tdcCalibrationDone ch line hits => Sys2Proof.Machine.execTdcCalibrationDone ch line hits s
  | .ptpSyncRx m => Sys2Proof.Machine.execPtpSyncRx m s
  | .ptpFollowUpRx m => Sys2Proof.Machine.execPtpFollowUpRx m s
  | .ptpAnnounceRx m => Sys2Proof.Machine.execPtpAnnounceRx m s
  | .ptpPdelayReqRx port domain seq rx => Sys2Proof.Machine.execPtpPdelayReqRx port domain seq rx s
  | .ptpPdelayRespRx m => Sys2Proof.Machine.execPtpPdelayRespRx m s
  | .ptpAnnounceTx => Sys2Proof.Machine.execPtpAnnounceTx s
  | .ptpSyncTx => Sys2Proof.Machine.execPtpSyncTx s
  | .ptpPdelayReqTx => Sys2Proof.Machine.execPtpPdelayReqTx s
  | .masterLost => Sys2Proof.Machine.execMasterLost s
  | .fallbackMaster => Sys2Proof.Machine.execFallbackMaster s
  | .holdSpecExpiry => Sys2Proof.Machine.execHoldSpecExpiry s
  | .ppsInEdge code => Sys2Proof.Machine.execPpsInEdge code s
  | .ppsInTimeout => Sys2Proof.Machine.execPpsInTimeout s
  | .macRxFrame e => Sys2Proof.Machine.execMacRxFrame e s
  | .rxDescriptorsComplete port => Sys2Proof.Machine.execRxDescriptorsComplete port s
  | .linkUp l => Sys2Proof.Machine.execLinkUp l s
  | .linkDown l => Sys2Proof.Machine.execLinkDown l s
  | .macTxStart port => Sys2Proof.Machine.execMacTxStart port s
  | .macTxEnd port => Sys2Proof.Machine.execMacTxEnd port s
  | .hsrEntryExpiry pair sa seq => Sys2Proof.Machine.execHsrEntryExpiry pair sa seq s
  | .supervisionTx pair => Sys2Proof.Machine.execSupervisionTx pair s
  | .pauseEnd port => Sys2Proof.Machine.execPauseEnd port s
  | .pauseWd port => Sys2Proof.Machine.execPauseWd port s
  | .pauseIgnoreEnd port => Sys2Proof.Machine.execPauseIgnoreEnd port s
  | .pauseRepeat port => Sys2Proof.Machine.execPauseRepeat port s
  | .lpiEntry port => Sys2Proof.Machine.execLpiEntry port s
  | .lpiWakeEnd port => Sys2Proof.Machine.execLpiWakeEnd port s
  | .lldpTx port => Sys2Proof.Machine.execLldpTx port s
  | .weevilDelayEnd port tx => Sys2Proof.Machine.execWeevilDelayEnd port tx s
  | .weevilDuplicateCopy port => Sys2Proof.Machine.execWeevilDuplicateCopy port s
  | .weevilLinkDownEnd port => Sys2Proof.Machine.execWeevilLinkDownEnd port s
  | .wvlArmWrite m value => Sys2Proof.Machine.execWvlArmWrite m value s
  | .wvlRuleCountWrite m rule value => Sys2Proof.Machine.execWvlRuleCountWrite m rule value s
  | .dupEntryExpiry pair sa seq => Sys2Proof.Machine.execDupEntryExpiry pair sa seq s
  | .gooseTalExpiry ctx => Sys2Proof.Machine.execGooseTalExpiry ctx s
  | .tagResult ctx pass => Sys2Proof.Machine.execTagResult ctx pass s
  | .svLoss ctx => Sys2Proof.Machine.execSvLoss ctx s
  | .svHealthRestore ctx => Sys2Proof.Machine.execSvHealthRestore ctx s
  | .altRestore ctx => Sys2Proof.Machine.execAltRestore ctx s
  | .latticeWrite => Sys2Proof.Machine.execLatticeWrite s
  | .provisionalClose lat => Sys2Proof.Machine.execProvisionalClose lat s
  | .instantDeadline lat => Sys2Proof.Machine.execInstantDeadline lat s
  | .pheFold lat => Sys2Proof.Machine.execPheFold lat s
  | .phasorsReady lat n => Sys2Proof.Machine.execPhasorsReady lat n s
  | .guardResultsReady lat n => Sys2Proof.Machine.execGuardResultsReady lat n s
  | .timedCycleStart cls => Sys2Proof.Machine.execTimedCycleStart cls s
  | .perInstantCycleStart cls => Sys2Proof.Machine.execPerInstantCycleStart cls s
  | .cycleResume cls => Sys2Proof.Machine.execCycleResume cls s
  | .cycleEnd cls => Sys2Proof.Machine.execCycleEnd cls s
  | .scNop => Sys2Proof.Machine.execScNop s
  | .scLd sp ix => Sys2Proof.Machine.execScLd sp ix s
  | .scLdn sp ix => Sys2Proof.Machine.execScLdn sp ix s
  | .scAnd sp ix => Sys2Proof.Machine.execScAnd sp ix s
  | .scAndn sp ix => Sys2Proof.Machine.execScAndn sp ix s
  | .scOr sp ix => Sys2Proof.Machine.execScOr sp ix s
  | .scOrn sp ix => Sys2Proof.Machine.execScOrn sp ix s
  | .scXor sp ix => Sys2Proof.Machine.execScXor sp ix s
  | .scXorn sp ix => Sys2Proof.Machine.execScXorn sp ix s
  | .scAndParen sp ix => Sys2Proof.Machine.execScAndParen sp ix s
  | .scAndnParen sp ix => Sys2Proof.Machine.execScAndnParen sp ix s
  | .scOrParen sp ix => Sys2Proof.Machine.execScOrParen sp ix s
  | .scOrnParen sp ix => Sys2Proof.Machine.execScOrnParen sp ix s
  | .scXorParen sp ix => Sys2Proof.Machine.execScXorParen sp ix s
  | .scCloseParen => Sys2Proof.Machine.execScCloseParen s
  | .scNot => Sys2Proof.Machine.execScNot s
  | .scSt sp ix => Sys2Proof.Machine.execScSt sp ix s
  | .scStn sp ix => Sys2Proof.Machine.execScStn sp ix s
  | .scSet sp ix => Sys2Proof.Machine.execScSet sp ix s
  | .scRst sp ix => Sys2Proof.Machine.execScRst sp ix s
  | .scEdgr ix => Sys2Proof.Machine.execScEdgr ix s
  | .scEdgf ix => Sys2Proof.Machine.execScEdgf ix s
  | .scTon ix => Sys2Proof.Machine.execScTon ix s
  | .scTof ix => Sys2Proof.Machine.execScTof ix s
  | .scTp ix => Sys2Proof.Machine.execScTp ix s
  | .scTret ix => Sys2Proof.Machine.execScTret ix s
  | .scTrst ix => Sys2Proof.Machine.execScTrst ix s
  | .scCtu ix => Sys2Proof.Machine.execScCtu ix s
  | .scCtd ix => Sys2Proof.Machine.execScCtd ix s
  | .scCrst ix => Sys2Proof.Machine.execScCrst ix s
  | .scJmp target => Sys2Proof.Machine.execScJmp target s
  | .scJmpc target => Sys2Proof.Machine.execScJmpc target s
  | .scJmpcn target => Sys2Proof.Machine.execScJmpcn target s
  | .scEnd => Sys2Proof.Machine.execScEnd s
  | .scEndc => Sys2Proof.Machine.execScEndc s
  | .gooseRetransmit pub => Sys2Proof.Machine.execGooseRetransmit pub s
  | .pubDescriptorFetch ring => Sys2Proof.Machine.execPubDescriptorFetch ring s
  | .txDescriptorFetch ring => Sys2Proof.Machine.execTxDescriptorFetch ring s
  | .doorbellWrite m page k value => Sys2Proof.Machine.execDoorbellWrite m page k value s
  | .fWrite m page w value => Sys2Proof.Machine.execFWrite m page w value s
  | .ftagWrite core hyp valid pasid => Sys2Proof.Machine.execFtagWrite core hyp valid pasid s
  | .irqModerationEnd ring => Sys2Proof.Machine.execIrqModerationEnd ring s
  | .quiesceDrained slice => Sys2Proof.Machine.execQuiesceDrained slice s
  | .quiesceLimit slice => Sys2Proof.Machine.execQuiesceLimit slice s
  | .heartbeatTick => Sys2Proof.Machine.execHeartbeatTick s
  | .heartbeatRx h => Sys2Proof.Machine.execHeartbeatRx h s
  | .peerSilence => Sys2Proof.Machine.execPeerSilence s
  | .soloWaitExpiry => Sys2Proof.Machine.execSoloWaitExpiry s
  | .leaseLapse => Sys2Proof.Machine.execLeaseLapse s
  | .takeoverGapEnd => Sys2Proof.Machine.execTakeoverGapEnd s
  | .handoverTx => Sys2Proof.Machine.execHandoverTx s
  | .switchTimeout => Sys2Proof.Machine.execSwitchTimeout s
  | .handoverRx h recs => Sys2Proof.Machine.execHandoverRx h recs s
  | .digestRx h entries => Sys2Proof.Machine.execDigestRx h entries s
  | .digestUnpaired cls stamp => Sys2Proof.Machine.execDigestUnpaired cls stamp s
  | .imageReqRx h cls => Sys2Proof.Machine.execImageReqRx h cls s
  | .imageRx h cls stamp octets => Sys2Proof.Machine.execImageRx h cls stamp octets s
  | .pubSyncRx h recs => Sys2Proof.Machine.execPubSyncRx h recs s
  | .partTimeout mseq => Sys2Proof.Machine.execPartTimeout mseq s
  | .islandCycle x => Sys2Proof.Machine.execIslandCycle x s
  | .islandFault c => Sys2Proof.Machine.execIslandFault c s
  | .testPulse b => Sys2Proof.Machine.execTestPulse b s
  | .cpwUpdate => Sys2Proof.Machine.execCpwUpdate s
  | .cpwTimeout => Sys2Proof.Machine.execCpwTimeout s
  | .arcSelftest ch edges => Sys2Proof.Machine.execArcSelftest ch edges s
  | .feedbackCheck k sfb => Sys2Proof.Machine.execFeedbackCheck k sfb s
  | .islandSelftestDone => Sys2Proof.Machine.execIslandSelftestDone s
  | .proofTestStep k ok => Sys2Proof.Machine.execProofTestStep k ok s
  | .domeRestart corr => Sys2Proof.Machine.execDomeRestart corr s
  | .keySweepDone => Sys2Proof.Machine.execKeySweepDone s
  | .keyActivate node => Sys2Proof.Machine.execKeyActivate node s
  | .keyExpire node => Sys2Proof.Machine.execKeyExpire node s
  | .debugChallengeExpiry => Sys2Proof.Machine.execDebugChallengeExpiry s
  | .debugPortClose => Sys2Proof.Machine.execDebugPortClose s
  | .mbxDoorbell m page value => Sys2Proof.Machine.execMbxDoorbell m page value s
  | .mbxAck m page value => Sys2Proof.Machine.execMbxAck m page value s
  | .tlsConnect o => Sys2Proof.Machine.execTlsConnect o s
  | .tlsPacket sess octets => Sys2Proof.Machine.execTlsPacket sess octets s
  | .tlsIdleTimeout sess => Sys2Proof.Machine.execTlsIdleTimeout sess s
  | .longCommandCompletion e => Sys2Proof.Machine.execLongCommandCompletion e s
  | .sysHello q => Sys2Proof.Machine.execSysHello q s
  | .sysJobs q => Sys2Proof.Machine.execSysJobs q s
  | .sysCancel q tag => Sys2Proof.Machine.execSysCancel q tag s
  | .sysReset q kind => Sys2Proof.Machine.execSysReset q kind s
  | .xferOpen q size => Sys2Proof.Machine.execXferOpen q size s
  | .xferWrite q handle offset data => Sys2Proof.Machine.execXferWrite q handle offset data s
  | .xferRead q handle offset len => Sys2Proof.Machine.execXferRead q handle offset len s
  | .xferClose q handle => Sys2Proof.Machine.execXferClose q handle s
  | .bundleStage q buf b => Sys2Proof.Machine.execBundleStage q buf b s
  | .bundleActivate q reset => Sys2Proof.Machine.execBundleActivate q reset s
  | .bundleCommit q => Sys2Proof.Machine.execBundleCommit q s
  | .bundleDiscard q => Sys2Proof.Machine.execBundleDiscard q s
  | .bundleStatus q => Sys2Proof.Machine.execBundleStatus q s
  | .sliceCreate q p => Sys2Proof.Machine.execSliceCreate q p s
  | .sliceRing q slice loc base => Sys2Proof.Machine.execSliceRing q slice loc base s
  | .sliceBind q slice add pasid => Sys2Proof.Machine.execSliceBind q slice add pasid s
  | .sliceStart q slice => Sys2Proof.Machine.execSliceStart q slice s
  | .sliceQuiesce q slice => Sys2Proof.Machine.execSliceQuiesce q slice s
  | .sliceReset q slice => Sys2Proof.Machine.execSliceReset q slice s
  | .sliceRemove q slice => Sys2Proof.Machine.execSliceRemove q slice s
  | .sliceFault q slice => Sys2Proof.Machine.execSliceFault q slice s
  | .sliceShare q slice inflight weight => Sys2Proof.Machine.execSliceShare q slice inflight weight s
  | .slicePv q slice en lats => Sys2Proof.Machine.execSlicePv q slice en lats s
  | .sliceStatus q clear slice => Sys2Proof.Machine.execSliceStatus q clear slice s
  | .streamAdd q words maps => Sys2Proof.Machine.execStreamAdd q words maps s
  | .streamRemove q ctx => Sys2Proof.Machine.execStreamRemove q ctx s
  | .streamMode q ctx sim test => Sys2Proof.Machine.execStreamMode q ctx sim test s
  | .streamStatus q clear ctx => Sys2Proof.Machine.execStreamStatus q clear ctx s
  | .foreignList q => Sys2Proof.Machine.execForeignList q s
  | .foreignClear q index => Sys2Proof.Machine.execForeignClear q index s
  | .latticeStatus q clear lat => Sys2Proof.Machine.execLatticeStatus q clear lat s
  | .latticeSpec q lat en => Sys2Proof.Machine.execLatticeSpec q lat en s
  | .latticeTol q lat tolI tolV tolRel => Sys2Proof.Machine.execLatticeTol q lat tolI tolV tolRel s
  | .phasorStatus q clear => Sys2Proof.Machine.execPhasorStatus q clear s
  | .guardSet q g words => Sys2Proof.Machine.execGuardSet q g words s
  | .guardEnable q g en => Sys2Proof.Machine.execGuardEnable q g en s
  | .guardStatus q g => Sys2Proof.Machine.execGuardStatus q g s
  | .logicStatus q clear slot => Sys2Proof.Machine.execLogicStatus q clear slot s
  | .logicRead q ops => Sys2Proof.Machine.execLogicRead q ops s
  | .logicMode q slot mode => Sys2Proof.Machine.execLogicMode q slot mode s
  | .logicParam q slot counters vals => Sys2Proof.Machine.execLogicParam q slot counters vals s
  | .logicForce q space index value => Sys2Proof.Machine.execLogicForce q space index value s
  | .logicUnforce q space index => Sys2Proof.Machine.execLogicUnforce q space index s
  | .logicLoad q slot buf p => Sys2Proof.Machine.execLogicLoad q slot buf p s
  | .logicSwap q slot => Sys2Proof.Machine.execLogicSwap q slot s
  | .logicAbort q => Sys2Proof.Machine.execLogicAbort q s
  | .pubStatus q clear pub => Sys2Proof.Machine.execPubStatus q clear pub s
  | .pubEnable q pub en => Sys2Proof.Machine.execPubEnable q pub en s
  | .pubMode q pub sim test => Sys2Proof.Machine.execPubMode q pub sim test s
  | .recStatus q clear inst => Sys2Proof.Machine.execRecStatus q clear inst s
  | .recList q inst => Sys2Proof.Machine.execRecList q inst s
  | .recArm q inst => Sys2Proof.Machine.execRecArm q inst s
  | .recDisarm q inst => Sys2Proof.Machine.execRecDisarm q inst s
  | .recTrigger q inst => Sys2Proof.Machine.execRecTrigger q inst s
  | .recRelease q inst buf => Sys2Proof.Machine.execRecRelease q inst buf s
  | .recExport q fmt cfg dat recs => Sys2Proof.Machine.execRecExport q fmt cfg dat recs s
  | .pairStatus q clear => Sys2Proof.Machine.execPairStatus q clear s
  | .pairSwitch q => Sys2Proof.Machine.execPairSwitch q s
  | .pairFence q => Sys2Proof.Machine.execPairFence q s
  | .pairRelease q => Sys2Proof.Machine.execPairRelease q s
  | .pairAlone q => Sys2Proof.Machine.execPairAlone q s
  | .safetyStatus q clear => Sys2Proof.Machine.execSafetyStatus q clear s
  | .safetyAck q inst => Sys2Proof.Machine.execSafetyAck q inst s
  | .safetyProof q k => Sys2Proof.Machine.execSafetyProof q k s
  | .safetyRestart q => Sys2Proof.Machine.execSafetyRestart q s
  | .domStatus q clear => Sys2Proof.Machine.execDomStatus q clear s
  | .domIdentity q => Sys2Proof.Machine.execDomIdentity q s
  | .keyCreate q node kind parent => Sys2Proof.Machine.execKeyCreate q node kind parent s
  | .keyDestroy q node => Sys2Proof.Machine.execKeyDestroy q node s
  | .keyPut q fmt transport map integrityOk algOk keys => Sys2Proof.Machine.execKeyPut q fmt transport map integrityOk algOk keys s
  | .keyAgree q node signer peer info => Sys2Proof.Machine.execKeyAgree q node signer peer info s
  | .keyInfo q node => Sys2Proof.Machine.execKeyInfo q node s
  | .anchorSet q node pub usage stmt sig => Sys2Proof.Machine.execAnchorSet q node pub usage stmt sig s
  | .measExtend q slot digest => Sys2Proof.Machine.execMeasExtend q slot digest s
  | .measRead q => Sys2Proof.Machine.execMeasRead q s
  | .attestQuote q nonce mask => Sys2Proof.Machine.execAttestQuote q nonce mask s
  | .attestAkCert q => Sys2Proof.Machine.execAttestAkCert q s
  | .debugChallenge q => Sys2Proof.Machine.execDebugChallenge q s
  | .debugOpen q enMs sel token challenge dikFp sig signer fuseOk => Sys2Proof.Machine.execDebugOpen q enMs sel token challenge dikFp sig signer fuseOk s
  | .healthStatus q clear => Sys2Proof.Machine.execHealthStatus q clear s
  | .faultClear q mask => Sys2Proof.Machine.execFaultClear q mask s
  | .ageingStatus q => Sys2Proof.Machine.execAgeingStatus q s
  | .ageingMeasure q => Sys2Proof.Machine.execAgeingMeasure q s
  | .belfryRead q area start count => Sys2Proof.Machine.execBelfryRead q area start count s
  | .flashStatus q => Sys2Proof.Machine.execFlashStatus q s
  | .weevilStatus q clear => Sys2Proof.Machine.execWeevilStatus q clear s
  | .weevilRule q rule mtch action count => Sys2Proof.Machine.execWeevilRule q rule mtch action count s
  | .weevilArm q arm => Sys2Proof.Machine.execWeevilArm q arm s
  | .sctWrite m index => Sys2Proof.Machine.execSctWrite m index s
  | .sctRemove m index => Sys2Proof.Machine.execSctRemove m index s
  | .sctRead m index clr => Sys2Proof.Machine.execSctRead m index clr s
  | .sctMapWrite m index => Sys2Proof.Machine.execSctMapWrite m index s
  | .sctMapRead m index => Sys2Proof.Machine.execSctMapRead m index s
  | .sctForeignRead m index => Sys2Proof.Machine.execSctForeignRead m index s
  | .sctForeignClear m index => Sys2Proof.Machine.execSctForeignClear m index s
  | .sctMode m index => Sys2Proof.Machine.execSctMode m index s
  | .pheWrite m table index => Sys2Proof.Machine.execPheWrite m table index s
  | .pheRead m table index => Sys2Proof.Machine.execPheRead m table index s
  | .gcmWrite m index => Sys2Proof.Machine.execGcmWrite m index s
  | .gcmParam m index => Sys2Proof.Machine.execGcmParam m index s
  | .gcmRead m index => Sys2Proof.Machine.execGcmRead m index s
  | .gcmEnable m index => Sys2Proof.Machine.execGcmEnable m index s
  | .gcmState m index => Sys2Proof.Machine.execGcmState m index s
  | .slpWrite m table index => Sys2Proof.Machine.execSlpWrite m table index s
  | .slpRead m table index => Sys2Proof.Machine.execSlpRead m table index s
  | .slpState m table index => Sys2Proof.Machine.execSlpState m table index s
  | .slpOpnd m table index => Sys2Proof.Machine.execSlpOpnd m table index s
  | .pubWrite m index => Sys2Proof.Machine.execPubWrite m index s
  | .pubRead m index => Sys2Proof.Machine.execPubRead m index s
  | .pubMembWrite m index => Sys2Proof.Machine.execPubMembWrite m index s
  | .pubMembRead m index => Sys2Proof.Machine.execPubMembRead m index s
  | .pubCmdEnable m index => Sys2Proof.Machine.execPubCmdEnable m index s
  | .pubCmdMode m index => Sys2Proof.Machine.execPubCmdMode m index s
  | .pubStat m index => Sys2Proof.Machine.execPubStat m index s
  | .dreWrite m table index => Sys2Proof.Machine.execDreWrite m table index s
  | .dreRead m table index => Sys2Proof.Machine.execDreRead m table index s
  | .dreArm m index => Sys2Proof.Machine.execDreArm m index s
  | .dreDisarm m index => Sys2Proof.Machine.execDreDisarm m index s
  | .dreTrigger m index => Sys2Proof.Machine.execDreTrigger m index s
  | .dreRelease m index => Sys2Proof.Machine.execDreRelease m index s
  | .dreStat m index => Sys2Proof.Machine.execDreStat m index s
  | .sltWrite m table index => Sys2Proof.Machine.execSltWrite m table index s
  | .sltRead m table index => Sys2Proof.Machine.execSltRead m table index s
  | .sltStat m index clr => Sys2Proof.Machine.execSltStat m index clr s
  | .scrubPass mem addr find passEnd => Sys2Proof.Machine.execScrubPass mem addr find passEnd s
  | .flashRefresh block corrections failed => Sys2Proof.Machine.execFlashRefresh block corrections failed s
  | .telemetrySample vals => Sys2Proof.Machine.execTelemetrySample vals s
  | .histogramUpdate => Sys2Proof.Machine.execHistogramUpdate s
  | .operatingDayEnd => Sys2Proof.Machine.execOperatingDayEnd s
  | .deferredMeasurement => Sys2Proof.Machine.execDeferredMeasurement s
  | .measurementComplete slacks vcore tdie => Sys2Proof.Machine.execMeasurementComplete slacks vcore tdie s
  | .thermalStep mean => Sys2Proof.Machine.execThermalStep mean s
  | .thermalStepDown mean => Sys2Proof.Machine.execThermalStepDown mean s
  | .belfryMirror => Sys2Proof.Machine.execBelfryMirror s
  | .blfCursorWrite m value => Sys2Proof.Machine.execBlfCursorWrite m value s
  | .blfStepNext m value => Sys2Proof.Machine.execBlfStepNext m value s
  | .carRstNRelease => Sys2Proof.Machine.execCarRstNRelease s
  | .pdelayRespFollowUpRx m => Sys2Proof.Machine.execPdelayRespFollowUpRx m s
  | .tlsSessionClose sess => Sys2Proof.Machine.execTlsSessionClose sess s

end Sys2Proof.Machine
end

