-- ==== Sys2Proof/Machine/Pins.lean ====
section
/-! DEFINITION. The levels of the low-speed output pins of J1 (R43, R46, R47, R60, R77) as the state drives them. The levels
of QB_CLK, QB_SYNC and QB_DO within a frame are `qbClkAt`, `qbSyncAt` and `State.qbDoAt` (R69). -/
namespace Sys2Proof.Machine

/-- A pin level: high-impedance, low or high (R46, R77). -/
inductive Pin | hiz | low | high
  deriving DecidableEq, Repr

/-- The low-speed outputs of R43 that show a level; `so k b` is SOkB where `b`, else SOkA. -/
inductive OutPin
  | pwrok | faultN | rstOutN | ppsOut | conTx | dbgIo | qbClk | qbSync | qbDo | tpA | tpB
  | arct (c : Nat)
  | so (k : Nat) (b : Bool)
  deriving DecidableEq, Repr

/-- A driven level. -/
def Pin.of (b : Bool) : Pin := if b then .high else .low

/-- VIO-class pins are driven: VIO_CAR in range and nothing that holds them high-impedance (R46, R57, R58). -/
def State.vioLive (s : State) : Bool := s.sup.vioDriven && s.vioState s.sup.vioCar == 1

/-- A cold reset or a root-fault response is under way (R77). -/
def State.pinsReset (s : State) : Bool := s.sup.inCold || s.sup.rootPending != 0

/-- The island drives its pins: an SK9M-AS with its rails up; on an SK9M-A they are not driven (R2). -/
def State.safetyPins (s : State) : Bool := s.flag F.TMC_MODULE_ID_SAFETY_EN

/-- A test-pulse pin: low while the island is in reset, in self-test or in fault, and during its pulse; else high (R385,
R388, R400). -/
def State.testPin (s : State) (p : Option Nat) : Pin := Pin.of (s.psc.powered && s.islandEval && p.isNone)

/-- The level of a VIO-class output while VIO-class pins are driven (R69, R77). The Carrier I/O bus rests low between frames and
while stopped. DBG_IO carries the levels of a debug transfer only, which is outside the model (R432). -/
def State.vioPin (s : State) : OutPin → Pin
  | .rstOutN => Pin.of (s.sup.released && !s.pinsReset)
  | .ppsOut => Pin.of (s.sup.ppsHigh && !s.pinsReset)
  | .conTx => .high
  | .tpA => if s.safetyPins then s.testPin s.psc.tpA else .hiz
  | .tpB => if s.safetyPins then s.testPin s.psc.tpB else .hiz
  | .arct c => if s.safetyPins then Pin.of (s.psc.powered && bit c s.psc.arct) else .hiz
  | .so k b => Pin.of (s.safetyPins && s.psc.powered && (if b then (s.sout k).b else (s.sout k).a))
  | .dbgIo => .hiz
  | .qbClk | .qbSync | .qbDo => .low
  | .pwrok | .faultN => .hiz

/-- The level of a low-speed output: Keep-class pins whenever VKEEP is present, MOD_FAULT_N open-drain and low while a bit of
PHM.FAULT is 1 (R47, R67); VIO-class pins high-impedance while they are not driven. -/
def State.pin (s : State) : OutPin → Pin
  | .pwrok => if s.sup.vkeepLow then .hiz else Pin.of s.sup.pwrok
  | .faultN => if !s.sup.vkeepLow && faultFields.any (fun f => s.flag f) then .low else .hiz
  | p => if s.vioLive then s.vioPin p else .hiz

/-- Heartbeats go out on the pair ports and CIC_TX; else CIC_TX is driven without transitions (R26, R77, R360). -/
def State.cicSends (s : State) : Bool := !s.pinsReset && s.flag F.PRC_CTL_EN && s.flag F.PRC_CTL_PAIRED

/-- The level of CIC_TX+: the frame of the newest heartbeat and its rest; driven without transitions in reset (R77, R361). -/
def State.cicTx (s : State) : Bool := !s.pinsReset && s.prc.cicLevel s.now

end Sys2Proof.Machine
end

