-- ==== Sys2Proof/WellFormed.lean ====
section
/-! DEFINITION. Which commands are well formed: every operand within the width or the count that its rule gives the row. A value
within its width that the receiving block refuses is well formed: the refusal is the command's effect. -/
namespace Sys2Proof

/-- A number of at most `w` bits. -/
def fits (w n : Nat) : Bool := decide (n < 2 ^ w)
/-- An index below a count. -/
def below (k n : Nat) : Bool := decide (n < k)
/-- A port: P0 to P7, K0, K1, M0 (R101). -/
def ports (p : Nat) : Bool := below 11 p
/-- A port pair of R109. -/
def pairs (p : Nat) : Bool := below 4 p
/-- A session: a mailbox or a TLS session (R437). -/
def sessions (n : Nat) : Bool := below 132 n
/-- A TLS session (R437). -/
def tlsSess (n : Nat) : Bool := decide (128 ≤ n) && below 132 n
/-- The sizes of an aligned access (R501). -/
def sizes (n : Nat) : Bool := n == 1 || n == 2 || n == 4 || n == 8
/-- A list that a 2-octet count precedes (R447). -/
def counted {α : Type} (l : List α) : Bool := fits 16 l.length
/-- A counted list of pairs of numbers of 4 octets each. -/
def pairsOk (l : List (Nat × Nat)) : Bool := counted l && l.all (fun p => fits 32 p.1 && fits 32 p.2)
/-- A string of octets, with its 2-octet length (R447). -/
def octetsOk (l : List Nat) : Bool := counted l && l.all (fits 8)

/-- A master (R21, R29): one of the 24 application cores, the TMC or an engine. -/
def Master.ok : Master → Bool
  | .core n _ => below 24 n
  | .tmc => true
  | .engine => true

/-- A core's request: its octets and its value. -/
def CoreReq.ok (q : CoreReq) : Bool := below 24 q.core && fits 64 q.addr && decide (0 < q.size) &&
    (match q.op with | .load => true | .store v => fits (8 * q.size) v | .atomic _ v => fits (8 * q.size) v)

/-- A command's issuer: tag 0xFFFF names none (R438). -/
def Req.ok (q : Req) : Bool :=
  sessions q.sess && below 0xFFFF q.tag && (match q.box with | some (o, n) => fits 32 o && fits 32 n | none => true)

/-- Measured supplies in mV. -/
def SupplySample.ok (x : SupplySample) : Bool := fits 16 x.vbus && fits 16 x.feedA && fits 16 x.feedB && fits 16 x.vioCar && fits 3 x.rails

/-- A Sync or Follow_Up. -/
def PtpSync.ok (m : PtpSync) : Bool := ports m.port && fits 8 m.domain && fits 80 m.source && fits 16 m.seq && fits 16 m.code

/-- An Announce. -/
def PtpAnnounce.ok (m : PtpAnnounce) : Bool :=
  ports m.port && fits 8 m.domain && fits 80 m.source && fits 64 m.gmId && fits 8 m.prio1 && fits 8 m.prio2 && fits 8 m.clockClass
    && fits 8 m.accuracy && fits 16 m.variance && fits 16 m.steps && fits 16 m.utcOffset

/-- A Pdelay_Resp or its follow-up. -/
def PtpPdelay.ok (m : PtpPdelay) : Bool := ports m.port && fits 8 m.domain && fits 16 m.seq && fits 16 m.code

/-- A frame as a port receives it (R102): 64 to 9,018 octets pass the length check of R113; any length may arrive. -/
def RxEvent.ok (e : RxEvent) : Bool :=
  ports e.port && fits 48 e.frame.da && fits 48 e.frame.sa && fits 16 e.frame.etype && fits 16 e.frame.len && fits 16 e.code
    && (match e.frame.vlan with | some v => below 8 v.pcp && below 4096 v.vid | none => true)
    && (match e.frame.red with | some r => fits 16 r.seq && below 16 r.lan | none => true)

/-- A heartbeat: its carrier and its 16 octets (R360). -/
def HbRx.ok (h : HbRx) : Bool := below 3 h.path && h.block.length == 16 && below 256 h.code && fits 32 h.mseq

/-- A pair message's header (R362). -/
def PairHdr.ok (h : PairHdr) : Bool := fits 32 h.epoch && fits 8 h.role && fits 32 h.mseq && fits 16 h.part && fits 16 h.parts
  && (h.port == 8 || h.port == 9)

/-- An entry of DIGEST (R373). -/
def DigestEntry.ok (e : DigestEntry) : Bool := below 16 e.cls && fits 32 e.digest && fits 64 e.stamp

/-- A record of PUB_SYNC (R375). -/
def PubSyncRec.ok (r : PubSyncRec) : Bool := fits 16 r.index && fits 16 r.flags && fits 32 r.stNum && fits 32 r.sqNum && fits 64 r.content

/-- The island's samples of one cycle: four of each channel (R384). -/
def IslandInputs.ok (x : IslandInputs) : Bool :=
  x.a.length == 4 && x.b.length == 4 && x.a.all (fits 16) && x.b.all (fits 16) && x.sfb.length == 4 && x.sfb.all (below 16) && x.arc.length == 4

/-- A buffer reference (R448). -/
def BufRef.ok (b : BufRef) : Bool := fits 64 b.addr && fits 32 b.len

/-- A source of REC_EXPORT. -/
def RecSrc.ok : RecSrc → Bool
  | .stored inst buf => fits 32 inst && fits 32 buf
  | .raw b => b.ok

/-- What a bundle's sections mean: IPv4 and IPv6 addresses, a TCP port, keys as points of P-384 (R442, R457). -/
def BundleContent.ok (b : BundleContent) : Bool :=
  fits 32 (b.ip4.getD 0) && fits 128 b.ip6 && fits 16 (b.port.getD 0) && b.toolCas.all (fits 776)

/-- A TLS offer: an IPv4 or IPv6 address and a TCP port. -/
def TlsOffer.ok (o : TlsOffer) : Bool := fits (if o.v6 then 128 else 32) o.dst && fits 16 o.port

/-- The parameters of SLICE_CREATE. -/
def SliceParams.ok (p : SliceParams) : Bool :=
  fits 32 p.slice && counted p.pasids && p.pasids.all (fits 20) && counted p.windows && p.windows.all (fun w => fits 16 w.1 && fits 16 w.2) && fits 24 p.cores && fits 16 p.inflight && fits 8 p.weight && fits 16 p.errLimit
    && fits 5 p.irqCore && fits 6 p.irqFile

/-- A program for LOGIC_LOAD: 32-bit words (R243). -/
def ProgramImage.ok (p : ProgramImage) : Bool := p.words.all (fits 32) && fits 32 p.progId

/-- A key of a blob (R420). -/
def KeyBlob.ok (k : KeyBlob) : Bool := fits 32 k.spi && fits 32 k.keyId

/-- Every operand of a command within the width or the count its rule gives. -/
def Instr.wellFormed : Instr → Bool
  | .registerWrite m addr size value => m.ok && fits 40 addr && sizes size && fits (8 * size) value
  | .clearingRead m addr size => m.ok && fits 40 addr && sizes size
  | .commandOperationEnd _ => true
  | .coreRequest r => r.ok
  | .powerUp _ s => s.ok
  | .railInRegulation _ | .railFault _ => true
  | .rideThroughEntry mv | .returnThreshold mv | .returnTimerStop mv => fits 16 mv
  | .returnTimerExpiry | .brownout => true
  | .resetThreshold mv => fits 16 mv
  | .railTakedown => true
  | .vioCarFault mv => fits 16 mv
  | .carRst | .feedLost _ => true
  | .faultBitReassert b => below 8 b
  | .therm => true
  | .supplyStatusUpdate s => s.ok
  | .rootLock | .rootRatio | .rootFaultResponse => true
  | .coldReset cause => fits 8 cause
  | .warmReset | .vkeepLow | .keepReset | .prepareComplete | .qbcStart | .groupBEnable => true
  | .qbFrame di => fits 288 di
  | .secondBoundary | .ppsOutFall => true
  | .tdcCalibrationStart ch line => below 24 ch && below 2 line
  | .tdcCalibrationDone ch line hits => below 24 ch && below 2 line && hits.all (fits 32)
  | .ptpSyncRx m | .ptpFollowUpRx m | .ptpAnnounceRx m => m.ok
  | .ptpPdelayReqRx port domain seq rx => ports port && fits 8 domain && fits 16 seq && fits 16 rx.code
  | .ptpPdelayRespRx m => m.ok
  | .ptpAnnounceTx | .ptpSyncTx | .ptpPdelayReqTx => true
  | .masterLost | .fallbackMaster | .holdSpecExpiry => true
  | .ppsInEdge code => fits 16 code
  | .ppsInTimeout => true
  | .macRxFrame e => e.ok
  | .rxDescriptorsComplete port => ports port
  | .linkUp l => ports l.port && fits 32 l.speed
  | .linkDown l => ports l.port && below 3 l.cause
  | .macTxStart port | .macTxEnd port => ports port
  | .hsrEntryExpiry pair sa seq => pairs pair && fits 48 sa && fits 16 seq
  | .supervisionTx pair => pairs pair
  | .pauseEnd port | .pauseWd port | .pauseIgnoreEnd port | .pauseRepeat port | .lpiEntry port | .lpiWakeEnd port
  | .lldpTx port | .weevilDelayEnd port _ | .weevilDuplicateCopy port | .weevilLinkDownEnd port => ports port
  | .wvlArmWrite m value => m.ok && fits 32 value
  | .wvlRuleCountWrite m rule value => m.ok && below 16 rule && fits 32 value
  | .dupEntryExpiry pair sa seq => pairs pair && fits 48 sa && fits 16 seq
  | .gooseTalExpiry ctx | .tagResult ctx _ | .svLoss ctx | .svHealthRestore ctx | .altRestore ctx => below 4096 ctx
  | .latticeWrite => true
  | .provisionalClose lat | .instantDeadline lat | .pheFold lat => below 4 lat
  | .phasorsReady lat n | .guardResultsReady lat n => below 4 lat && fits 64 n
  | .timedCycleStart cls | .perInstantCycleStart cls | .cycleResume cls | .cycleEnd cls => below 16 cls
  | .scNop => true
  | .scLd _ ix | .scLdn _ ix | .scAnd _ ix | .scAndn _ ix | .scOr _ ix | .scOrn _ ix | .scXor _ ix | .scXorn _ ix
  | .scAndParen _ ix | .scAndnParen _ ix | .scOrParen _ ix | .scOrnParen _ ix | .scXorParen _ ix => fits 22 ix
  | .scCloseParen | .scNot => true
  | .scSt _ ix | .scStn _ ix | .scSet _ ix | .scRst _ ix | .scEdgr ix | .scEdgf ix | .scTon ix | .scTof ix | .scTp ix
  | .scTret ix | .scTrst ix | .scCtu ix | .scCtd ix | .scCrst ix => fits 22 ix
  | .scJmp target | .scJmpc target | .scJmpcn target => fits 22 target
  | .scEnd | .scEndc => true
  | .gooseRetransmit pub => below 576 pub
  | .pubDescriptorFetch ring | .txDescriptorFetch ring => below 1024 ring
  | .doorbellWrite m page k value => m.ok && below 128 page && below 64 k && fits 32 value
  | .fWrite m page w value => m.ok && below 128 page && below 64 w && fits 64 value
  | .ftagWrite core _ _ pasid => below 24 core && fits 20 pasid
  | .irqModerationEnd ring => below 1024 ring
  | .quiesceDrained slice | .quiesceLimit slice => below 128 slice
  | .heartbeatTick => true
  | .heartbeatRx h => h.ok
  | .peerSilence | .soloWaitExpiry | .leaseLapse | .takeoverGapEnd | .handoverTx | .switchTimeout => true
  | .handoverRx h recs => h.ok && recs.all PubSyncRec.ok
  | .digestRx h entries => h.ok && entries.all DigestEntry.ok
  | .digestUnpaired cls stamp => below 16 cls && fits 64 stamp
  | .imageReqRx h cls => h.ok && below 16 cls
  | .imageRx h cls stamp _ => h.ok && below 16 cls && fits 64 stamp
  | .pubSyncRx h recs => h.ok && recs.all PubSyncRec.ok
  | .partTimeout mseq => fits 32 mseq
  | .islandCycle x => x.ok
  | .islandFault _ | .testPulse _ | .cpwUpdate | .cpwTimeout => true
  | .arcSelftest ch edges => below 4 ch && fits 32 edges
  | .feedbackCheck k sfb => below 4 k && below 2 sfb
  | .islandSelftestDone => true
  | .proofTestStep k _ => below 4 k
  | .domeRestart tries => decide (1 ≤ tries.length) && decide (tries.length ≤ 3)
      && tries.all (fun a => a.all (fun b => fits 255 b.resp && fits 255 (b.err.getD 0)))
  | .keySweepDone => true
  | .keyActivate node | .keyExpire node => below 8192 node
  | .debugChallengeExpiry | .debugPortClose => true
  | .mbxDoorbell m page value | .mbxAck m page value => m.ok && below 128 page && fits 32 value
  | .tlsConnect o => o.ok
  | .tlsPacket sess _ | .tlsIdleTimeout sess => tlsSess sess
  | .longCommandCompletion e => below 16 e.group
  | .sysHello q | .sysJobs q => q.ok
  | .sysCancel q tag => q.ok && fits 16 tag
  | .sysReset q kind => q.ok && fits 8 kind
  | .xferOpen q size => q.ok && fits 32 size
  | .xferWrite q handle offset data => q.ok && fits 64 handle && fits 32 offset && counted data
  | .xferRead q handle offset len => q.ok && fits 64 handle && fits 32 offset && fits 16 len
  | .xferClose q handle => q.ok && fits 64 handle
  | .bundleStage q buf b => q.ok && buf.ok && b.ok
  | .bundleActivate q reset => q.ok && fits 8 reset
  | .bundleCommit q | .bundleDiscard q | .bundleStatus q => q.ok
  | .sliceCreate q p => q.ok && p.ok
  | .sliceRing q slice loc base => q.ok && fits 32 slice && fits 32 loc && fits 64 base
  | .sliceBind q slice _ pasid => q.ok && fits 32 slice && fits 20 pasid
  | .sliceStart q slice | .sliceQuiesce q slice | .sliceReset q slice | .sliceRemove q slice | .sliceFault q slice =>
    q.ok && fits 32 slice
  | .sliceShare q slice inflight weight => q.ok && fits 32 slice && fits 16 inflight && fits 8 weight
  | .slicePv q slice _ lats => q.ok && fits 32 slice && fits 4 lats
  | .sliceStatus q _ slice => q.ok && fits 32 slice
  | .streamAdd q words maps => q.ok && words.length == 6 && words.all (fits 64) && counted maps && maps.all (fits 64)
  | .streamRemove q ctx | .streamMode q ctx _ _ | .streamStatus q _ ctx => q.ok && fits 32 ctx
  | .foreignList q => q.ok
  | .foreignClear q index => q.ok && fits 32 index
  | .latticeStatus q _ lat | .latticeSpec q lat _ => q.ok && fits 32 lat
  | .latticeTol q lat tolI tolV tolRel => q.ok && fits 32 lat && fits 16 tolI && fits 8 tolV && fits 8 tolRel
  | .phasorStatus q _ => q.ok
  | .guardSet q g words => q.ok && fits 32 g && words.length == 5 && words.all (fits 64)
  | .guardEnable q g _ | .guardStatus q g => q.ok && fits 32 g
  | .logicStatus q _ slot => q.ok && fits 32 slot
  | .logicRead q ops => q.ok && pairsOk ops && ops.all (fun o => fits 8 o.1)
  | .logicMode q slot mode => q.ok && fits 32 slot && fits 8 mode
  | .logicParam q slot _ vals => q.ok && fits 32 slot && pairsOk vals
  | .logicForce q space index _ | .logicUnforce q space index => q.ok && fits 8 space && fits 32 index
  | .logicLoad q slot buf p => q.ok && fits 32 slot && buf.ok && p.ok
  | .logicSwap q slot => q.ok && fits 32 slot
  | .logicAbort q => q.ok
  | .pubStatus q _ pub | .pubEnable q pub _ | .pubMode q pub _ _ => q.ok && fits 32 pub
  | .recStatus q _ inst | .recList q inst | .recArm q inst | .recDisarm q inst | .recTrigger q inst =>
    q.ok && fits 32 inst
  | .recRelease q inst buf => q.ok && fits 32 inst && (buf.getD 0 |> fits 32)
  | .recExport q fmt cfg dat recs => q.ok && fits 8 fmt && cfg.ok && dat.ok && counted recs && recs.all RecSrc.ok
  | .pairStatus q _ | .pairSwitch q | .pairFence q | .pairRelease q | .pairAlone q | .safetyStatus q _ => q.ok
  | .safetyAck q inst => q.ok && fits 32 inst
  | .safetyProof q k => q.ok && fits 32 k
  | .safetyRestart q | .domStatus q _ | .domIdentity q => q.ok
  | .keyCreate q node kind parent => q.ok && fits 32 node && fits 8 kind && fits 32 parent
  | .keyDestroy q node => q.ok && fits 32 node
  | .keyPut q fmt transport map blob _ keys =>
    q.ok && fits 8 fmt.fmt && fits 32 fmt.group && fits 32 transport && pairsOk map && octetsOk (blob.iv ++ blob.body)
      && keys.all KeyBlob.ok
  | .keyAgree q node signer peer info => q.ok && fits 32 node && fits 32 signer && fits 776 peer && octetsOk info
  | .keyInfo q node => q.ok && fits 32 node
  | .anchorSet q node pub usage stmt sig =>
    q.ok && fits 32 node && fits 776 pub && fits 8 usage && octetsOk stmt && fits 768 sig
  | .measExtend q slot digest => q.ok && fits 32 slot && fits 384 digest
  | .measRead q => q.ok
  | .attestQuote q nonce mask => q.ok && counted nonce && fits 32 mask
  | .attestAkCert q | .debugChallenge q => q.ok
  | .debugOpen q enMs _ token challenge dikFp sig signer _ =>
    q.ok && (enMs.getD 0 |> fits 32) && octetsOk token && fits 256 challenge && fits 384 dikFp && fits 768 sig && fits 32 signer
  | .healthStatus q _ => q.ok
  | .faultClear q mask => q.ok && fits 32 mask
  | .ageingStatus q | .ageingMeasure q => q.ok
  | .belfryRead q area start count => q.ok && fits 8 area && fits 64 start && fits 16 count
  | .flashStatus q | .weevilStatus q _ => q.ok
  | .weevilRule q rule mtch action count => q.ok && fits 32 rule && fits 64 mtch && fits 64 action && fits 32 count
  | .weevilArm q _ => q.ok
  | .sctWrite m index | .sctRemove m index | .sctRead m index _ | .sctMapWrite m index | .sctMapRead m index
  | .sctForeignRead m index | .sctForeignClear m index | .sctMode m index => m.ok && below 32768 index
  | .pheWrite m table index | .pheRead m table index => m.ok && below 16 table && below 8192 index
  | .gcmWrite m index | .gcmParam m index | .gcmRead m index | .gcmEnable m index | .gcmState m index =>
    m.ok && below 4096 index
  | .slpWrite m table index | .slpRead m table index | .slpState m table index | .slpOpnd m table index =>
    m.ok && below 16 table && below 262144 index
  | .pubWrite m index | .pubRead m index | .pubMembWrite m index | .pubMembRead m index | .pubCmdEnable m index
  | .pubCmdMode m index | .pubStat m index => m.ok && below 32768 index
  | .dreWrite m table index | .dreRead m table index => m.ok && below 16 table && below 16384 index
  | .dreArm m index | .dreDisarm m index | .dreTrigger m index | .dreRelease m index | .dreStat m index =>
    m.ok && below 16384 index
  | .sltWrite m table index | .sltRead m table index => m.ok && below 8 table && below 4096 index
  | .sltStat m index _ => m.ok && below 4096 index
  | .scrubPass _ addr _ _ => fits 40 addr
  | .flashRefresh block corrections _ => below 65536 block && fits 32 corrections
  | .telemetrySample vals => vals.length == 10
  | .histogramUpdate | .operatingDayEnd | .deferredMeasurement => true
  | .measurementComplete slacks vcore tdie =>
    slacks.length == 96 && vcore.length == 96 && vcore.all (fits 16) && tdie.length == 96
  | .thermalStep _ | .thermalStepDown _ | .belfryMirror => true
  | .blfCursorWrite m value => m.ok && fits 64 value
  | .blfStepNext m value => m.ok && fits 32 value
  | .carRstNRelease => true
  | .pdelayRespFollowUpRx m => m.ok
  | .tlsSessionClose sess => tlsSess sess

end Sys2Proof
end

