-- ==== Sys2Proof/Safety.lean ====
section
/-! DEFINITION. The terms in which claims speak of the module: safe states and safe steps, frames, and when a command is let
through by what its group shares. -/
namespace Sys2Proof.Machine

/-! ### Safe states and runs -/

/-- The canonical form of a state: memory (R27) and the register file list each key once, in rising order, and memory lists no
octet that reads as an unlisted one does. Equal contents are then equal data. -/
def State.Canonical (s : State) : Prop := Memory.wf s.mem = true ∧ Tbl.rising none s.regs = true

/-- A step is safe when it answers a next state: no fault, no refusal. -/
def SafeStep (s : State) : Prop := ∃ t, step s = .next t

/-- The state with a command at the front of its queue. -/
def State.queued (s : State) (c : Instr) (rest : List Instr) : State := { s with pending := c :: rest }

/-! ### Frames -/

/-- Every octet of memory reads as before. -/
def SameMemory (s t : State) : Prop := ∀ a, memGet a t.mem = memGet a s.mem

/-- Every octet outside `n` octets from `a` reads as before. -/
def SameMemoryBut (a n : Nat) (s t : State) : Prop := ∀ b, b < a ∨ a + n ≤ b → memGet b t.mem = memGet b s.mem

/-- Every register field but those listed reads as before. -/
def SameFieldsBut (fs : List Field) (s t : State) : Prop := ∀ g : Field, (∀ f ∈ fs, f.key ≠ g.key) → t.get g = s.get g

/-- Everything but the class states of the Scarab is as before. -/
def OnlyClasses (s t : State) : Prop := t = { s with slp := { s.slp with cls := t.slp.cls } }

/-! ### The command registers (R500) -/

/-- A fabric write by `m` that starts an operation of block `b`: the master runs, R29 grants it, and no operation runs. -/
def Opens (m : Master) (b : CmdBlock) (s : State) : Prop :=
  s.masterUp m = true ∧ regGrant (s.actor m) (blkBusy b).addr true = true ∧ s.flag (blkBusy b) = false

/-- The state with the fields of a command register written, by the rule of R11 for a value without a function. -/
def State.withFields (s : State) (fs : List (Field × Nat)) : State := fs.foldl (fun s p => s.writeField p.1 p.2) s

/-- A command starts an operation of block `b` whose end will deliver RESULT `r` and the data words `ws`, with the effect `u`. -/
def Starts (c : Instr) (s : State) (b : CmdBlock) (r : Nat) (ws : List Nat) (u : State) : Prop :=
  exec c s = .next { u.cmdStart b r ws with bus := .done }

/-- The command-register operations: master, block, the fields written beside OP, and whether only the TMC may. -/
def cmdOpOf : Instr → Option (Master × CmdBlock × List (Field × Nat) × Bool)
  | .sctWrite m i => some (m, .sct, sctFields i false, true)
  | .sctRemove m i => some (m, .sct, sctFields i false, true)
  | .sctRead m i clr => some (m, .sct, sctFields i clr, false)
  | .sctMapWrite m i => some (m, .sct, sctFields i false, true)
  | .sctMapRead m i => some (m, .sct, sctFields i false, false)
  | .sctForeignRead m i => some (m, .sct, sctFields i false, false)
  | .sctForeignClear m i => some (m, .sct, sctFields i false, true)
  | .sctMode m i => some (m, .sct, sctFields i false, true)
  | .pheWrite m t i => some (m, .phe, pheFields t i, true)
  | .pheRead m t i => some (m, .phe, pheFields t i, false)
  | .gcmWrite m i => some (m, .gcm, gcmFields i, true)
  | .gcmParam m i => some (m, .gcm, gcmFields i, true)
  | .gcmRead m i => some (m, .gcm, gcmFields i, false)
  | .gcmEnable m i => some (m, .gcm, gcmFields i, true)
  | .gcmState m i => some (m, .gcm, gcmFields i, false)
  | .slpWrite m t i => some (m, .slp, slpFields t i, true)
  | .slpRead m t i => some (m, .slp, slpFields t i, false)
  | .slpState m t i => some (m, .slp, slpFields t i, false)
  | .slpOpnd m t i => some (m, .slp, slpFields t i, false)
  | .pubWrite m i => some (m, .pub, [(F.PUB_CMD_INDEX, i)], true)
  | .pubRead m i => some (m, .pub, [(F.PUB_CMD_INDEX, i)], false)
  | .pubMembWrite m i => some (m, .pub, [(F.PUB_CMD_INDEX, i)], true)
  | .pubMembRead m i => some (m, .pub, [(F.PUB_CMD_INDEX, i)], false)
  | .pubCmdEnable m i => some (m, .pub, [(F.PUB_CMD_INDEX, i)], true)
  | .pubCmdMode m i => some (m, .pub, [(F.PUB_CMD_INDEX, i)], true)
  | .pubStat m i => some (m, .pub, [(F.PUB_CMD_INDEX, i)], false)
  | .dreWrite m t i => some (m, .dre, dreFields t i, true)
  | .dreRead m t i => some (m, .dre, dreFields t i, false)
  | .dreArm m i => some (m, .dre, [(F.DRE_CMD_INDEX, i)], true)
  | .dreDisarm m i => some (m, .dre, [(F.DRE_CMD_INDEX, i)], true)
  | .dreTrigger m i => some (m, .dre, [(F.DRE_CMD_INDEX, i)], true)
  | .dreRelease m i => some (m, .dre, [(F.DRE_CMD_INDEX, i)], true)
  | .dreStat m i => some (m, .dre, [(F.DRE_CMD_INDEX, i)], false)
  | .sltWrite m t i => some (m, .slt, sltFields t i false, true)
  | .sltRead m t i => some (m, .slt, sltFields t i false, false)
  | .sltStat m i clr => some (m, .slt, sltFields 0 i clr, false)
  | _ => none

/-! ### Patchaif (R437 to R456) -/

/-- The state in which a request has been taken. -/
def State.taken (s : State) (q : Req) : State := (s.takeReq q).2

/-- It is the turn of a request with parameters `ps` (R433, R447, R451, R491), and the shared checks let it through (R2, R356, R451,
R452). -/
def Admits (s : State) (q : Req) (op : Nat) (ps : Octets) (long tenant : Bool) : Prop :=
  s.inTurn q op ps = true ∧ (s.taken q).refusal q op long tenant = none

/-- A command is executed: its effect `u`, and the final reply OK with parameters `ps`. -/
def Answers (c : Instr) (s : State) (q : Req) (op : Nat) (ps : Octets) (u : State) : Prop :=
  exec c s = .next (u.answer q op 1 stOk ps true (s.takeReq q).1)

/-- A long command is accepted: its effect `u`, a running job over `obj` that holds transfer objects, and the reply ACCEPTED. -/
def Accepts (c : Instr) (s : State) (q : Req) (op obj : Nat) (held : List Nat) (u : State) : Prop :=
  exec c s = .next (({ u with tmc := { u.tmc with jobs := u.tmc.jobs ++
    [({ group := opGroup op, op, q, start := (s.taken q).now, obj, deliver := (s.takeReq q).1, held } : Job)] } }).answer
      q op 1 stAccepted [] false (s.takeReq q).1)

/-! ### The Scarab (R241 to R252) -/

/-- The running class `c`, at slot `k`, fetches `word` next and the word is intact. -/
def Fetches (s : State) (c k word : Nat) : Prop :=
  s.slp.cur = some c ∧ (s.clsOf c).slots.head? = some k ∧ (s.clsOf c).running = true ∧ (s.clsOf c).ended = false ∧
    (s.clsOf c).pc < (s.progAt k (s.clsOf c).n).2 ∧
    s.slp.badWords.contains ((s.progAt k (s.clsOf c).n).1 + (s.clsOf c).pc) = false ∧
    s.progWord ((s.progAt k (s.clsOf c).n).1 + (s.clsOf c).pc) = word

/-- The class `c` has moved on by one word with `v` in ACC, its branch stack as given; its other slots wait as before. -/
def Advances (s t : State) (c : Nat) (v : Bool) (stack : List (Bool × StackOp)) : Prop :=
  (t.clsOf c).acc = v ∧ (t.clsOf c).pc = (s.clsOf c).pc + 1 ∧ (t.clsOf c).stack = stack ∧
    (t.clsOf c).slots = (s.clsOf c).slots ∧ (t.clsOf c).running = true ∧ (t.clsOf c).ended = false

end Sys2Proof.Machine
end

