-- ==== Sys2Proof/Certificates/Slice0/Obligations.lean ====
section
/-! DEFINITION. The statements about the model. -/
open Sys2Proof Sys2Proof.Machine

/-! ### The machine as a whole -/

/-- A step on a queue that starts with a command is that command's `exec` on the state with the queue's rest. The model's own
readings and choices that this rests on: log 1. -/
def Obligations.StepRunsTheFrontCommand : Prop :=
  ∀ (s : State) (c : Instr) (rest : List Instr), step (s.queued c rest) = exec c { s with pending := rest }

/-- On an empty queue a step is one tick of module time, DESIGN CHOICE 2: a safe step that leaves everything but the timebase
and the next free value. The model's own readings and choices that this rests on: log 1, 2, 3, 6. -/
def Obligations.IdleStepOnlyPassesTime : Prop :=
  ∀ s : State, s.pending = [] → ∃ t, step s = .next t ∧ t = { s with tbu := t.tbu, free := t.free }

/-- Every step from a canonical state leaves a canonical state, whatever command is at the front. The model's own readings and
choices that this rests on: log 8, 13. -/
def Obligations.StepKeepsStatesCanonical : Prop :=
  ∀ s t : State, s.Canonical → step s = .next t → t.Canonical

/-- The state after reset is canonical. The model's own readings and choices that this rests on: log 8, 10. -/
def Obligations.ResetStateIsCanonical : Prop :=
  State.reset.Canonical

/-- Commands run in the order in which they wait: no command adds to the queue, drops from it or reorders it. The model's own
readings and choices that this rests on: log 1. -/
def Obligations.NoCommandTouchesTheQueue : Prop :=
  ∀ (c : Instr) (s t : State), exec c s = .next t → t.pending = s.pending

/-- The only stop: a command either answers a next state, or it is a Scarab push or pop that faults on the branch stack. The
model's own readings and choices that this rests on: log 5, 106, 108, 212. -/
def Obligations.OnlyTheBranchStackStopsARun : Prop :=
  ∀ (c : Instr) (s : State),
    (∃ t, exec c s = .next t) ∨
    (exec c s = .fault .scarabStack ∧ ∃ k, s.slp.cur = some k ∧
      ((c = .scCloseParen ∧ (s.clsOf k).stack = []) ∨
       ((∃ sp ix, c = .scAndParen sp ix ∨ c = .scAndnParen sp ix ∨ c = .scOrParen sp ix ∨ c = .scOrnParen sp ix ∨
          c = .scXorParen sp ix) ∧ 32 ≤ (s.clsOf k).stack.length)))

/-! ### The Scarab -/

/-- The Scarab's instruction words (R241, R243): the word of a well-formed instruction decodes to it, with every operand, and
a word that decodes to an instruction is that instruction's word, so that no two words spell one instruction and no word
spells two. The model's own readings and choices that this rests on: log 116, 211. -/
def Obligations.ScarabWordsAndInstructionsAgree : Prop :=
  (∀ (i : Instr) (w : Nat), encodeScarab i = some w → i.wellFormed = true → decodeTableWord 32 w = some i) ∧
  (∀ (i : Instr) (w : Nat), decodeTableWord 32 w = some i → encodeScarab i = some w ∧ i.wellFormed = true)

/-- LD, LDN and the logic instructions of R243: ACC takes the operand, its complement, or the operation of ACC with either.
NOP and NOT: ACC stays, or is inverted. The model's own readings and choices that this rests on: log 106, 107, 114, 116. -/
def Obligations.LogicInstructionsSetAcc : Prop :=
  (∀ (s : State) (c k ix : Nat) (sp : RdSpace) (op : Nat) (i : Instr) (f : Bool → Bool → Bool),
    (op, i, f) ∈ ([(0x01, .scLd sp ix, fun _ b => b), (0x02, .scLdn sp ix, fun _ b => !b), (0x03, .scAnd sp ix, fun a b => a && b),
      (0x04, .scAndn sp ix, fun a b => a && !b), (0x05, .scOr sp ix, fun a b => a || b), (0x06, .scOrn sp ix, fun a b => a || !b),
      (0x07, .scXor sp ix, fun a b => a ^^ b), (0x08, .scXorn sp ix, fun a b => a ^^ (!b))] :
      List (Nat × Instr × (Bool → Bool → Bool))) →
    Fetches s c k (scWord op (rdCode sp) ix) →
    ∃ t, exec i s = .next t ∧
      Advances s t c (f (s.clsOf c).acc (s.scRead c k sp ix)) (s.clsOf c).stack ∧ OnlyClasses s t) ∧
  (∀ (s : State) (c k : Nat),
    (Fetches s c k (scWord 0x00 0 0) → ∃ t, exec .scNop s = .next t ∧ Advances s t c (s.clsOf c).acc (s.clsOf c).stack ∧ OnlyClasses s t) ∧
    (Fetches s c k (scWord 0x0F 0 0) → ∃ t, exec .scNot s = .next t ∧ Advances s t c (!(s.clsOf c).acc) (s.clsOf c).stack ∧ OnlyClasses s t))

/-- The branch instructions: an opening one pushes ACC with its operation and loads the operand or its complement, `)` pops
and joins; they stop exactly where the stack holds 32 entries or none. The model's own readings and choices that this rests
on: log 106, 107, 108, 116. -/
def Obligations.BranchInstructionsPushAndPop : Prop :=
  (∀ (s : State) (c k ix : Nat) (sp : RdSpace) (op : Nat) (i : Instr) (o : StackOp) (inv : Bool),
    (op, i, o, inv) ∈ ([(0x09, .scAndParen sp ix, .and, false), (0x0A, .scAndnParen sp ix, .and, true), (0x0B, .scOrParen sp ix, .or, false),
      (0x0C, .scOrnParen sp ix, .or, true), (0x0D, .scXorParen sp ix, .xor, false)] : List (Nat × Instr × StackOp × Bool)) →
    Fetches s c k (scWord op (rdCode sp) ix) →
    ((s.clsOf c).stack.length < 32 → ∃ t, exec i s = .next t ∧
      Advances s t c (s.scRead c k sp ix ^^ inv) (((s.clsOf c).acc, o) :: (s.clsOf c).stack) ∧ OnlyClasses s t) ∧
    (32 ≤ (s.clsOf c).stack.length → exec i s = .fault .scarabStack)) ∧
  (∀ (s : State) (c k : Nat), Fetches s c k (scWord 0x0E 0 0) →
    (∀ v o rest, (s.clsOf c).stack = (v, o) :: rest → ∃ t, exec .scCloseParen s = .next t ∧
      Advances s t c (match o with | .and => v && (s.clsOf c).acc | .or => v || (s.clsOf c).acc | .xor => v ^^ (s.clsOf c).acc) rest ∧
      OnlyClasses s t) ∧
    ((s.clsOf c).stack = [] → exec .scCloseParen s = .fault .scarabStack))

/-- ST, STN, SET and RST: the Q or M bit takes ACC, its complement, 1 or 0, the last two only while ACC is 1; every other Q
and M bit and every timer, counter and edge memory stays, and ACC stays. EDGR and EDGF: ACC is 1 exactly on a rising or
falling edge against the stored bit, 0 on a primed memory; the memory takes ACC, and it starts primed (R249). The model's own
readings and choices that this rests on: log 106, 107, 116. -/
def Obligations.StoreAndEdgeInstructionsWriteTheirBit : Prop :=
  (∀ (s : State) (c k ix : Nat) (sp : WrSpace) (op : Nat) (i : Instr) (f : Bool → Bool → Bool),
    (op, i, f) ∈ ([(0x10, .scSt sp ix, fun a _ => a), (0x11, .scStn sp ix, fun a _ => !a), (0x12, .scSet sp ix, fun a b => a || b),
      (0x13, .scRst sp ix, fun a b => !a && b)] : List (Nat × Instr × (Bool → Bool → Bool))) →
    Fetches s c k (scWord op (wrCode sp) ix) →
    ∃ t, exec i s = .next t ∧ Advances s t c (s.clsOf c).acc (s.clsOf c).stack ∧
      (∀ j, Tbl.get false j t.slp.q =
        if sp = .q ∧ j = ix then f (s.clsOf c).acc (Tbl.get false j s.slp.q) else Tbl.get false j s.slp.q) ∧
      (∀ j, Tbl.get false j t.slp.m =
        if sp = .m ∧ j = ix then f (s.clsOf c).acc (Tbl.get false j s.slp.m) else Tbl.get false j s.slp.m) ∧
      t.slp.t = s.slp.t ∧ t.slp.c = s.slp.c ∧ t.slp.e = s.slp.e ∧ t.regs = s.regs ∧ t.mem = s.mem) ∧
  (∀ (s : State) (c k ix : Nat),
    let e := Tbl.get ({} : Edge) ix s.slp.e
    let a := (s.clsOf c).acc
    (Fetches s c k (scWord 0x14 5 ix) → ∃ t, exec (.scEdgr ix) s = .next t ∧
      Advances s t c (!e.primed && a && !e.b) (s.clsOf c).stack ∧ Tbl.get ({} : Edge) ix t.slp.e = ⟨a, false⟩ ∧
      (∀ j, j ≠ ix → Tbl.get ({} : Edge) j t.slp.e = Tbl.get ({} : Edge) j s.slp.e) ∧
      t.slp.q = s.slp.q ∧ t.slp.m = s.slp.m ∧ t.slp.t = s.slp.t ∧ t.slp.c = s.slp.c) ∧
    (Fetches s c k (scWord 0x15 5 ix) → ∃ t, exec (.scEdgf ix) s = .next t ∧
      Advances s t c (!e.primed && !a && e.b) (s.clsOf c).stack ∧ Tbl.get ({} : Edge) ix t.slp.e = ⟨a, false⟩ ∧
      (∀ j, j ≠ ix → Tbl.get ({} : Edge) j t.slp.e = Tbl.get ({} : Edge) j s.slp.e) ∧
      t.slp.q = s.slp.q ∧ t.slp.m = s.slp.m ∧ t.slp.t = s.slp.t ∧ t.slp.c = s.slp.c) ∧
    (∀ j, (Tbl.get ({} : Edge) j State.reset.slp.e).primed = true))

/-- The timers of R246 and R247: TON, TOF, TP and TRET move ET, Q and RUN by the stamps, with IN_PREV, T_LAST and ACC; TRST
resets with ACC and leaves ACC. The counters of R248: CTU and CTD count a rising edge of ACC, none while primed, saturating at
both ends; CRST takes the start value with ACC, Q following it. The model's own readings and choices that this rests on: log
106, 107, 116, 118. -/
def Obligations.TimersAndCountersFollowStampsAndEdges : Prop :=
  (∀ (s : State) (c k ix : Nat),
    let x := s.clsOf c
    let m := Tbl.get ({} : Timer) ix s.slp.t
    let a := x.acc
    let on := min (m.et + (x.stamp - m.last.getD x.stamp)) (2 ^ 64 - 1)
    let pt := s.prmAt 2 ix x.n * (1000 * 65536)
    let e1 := if a && m.inPrev then on else 0
    let r2 := if m.inPrev then m.q else m.run
    let e2 := if m.inPrev then 0 else if m.run then on else m.et
    let e3 := if m.run then on else m.et
    let done := m.run && decide (pt ≤ e3)
    let fire := a && !m.inPrev && !(m.run && !done)
    let e4 := if a && m.inPrev then on else m.et
    (∀ (op : Nat) (i : Instr) (et : Nat) (q run : Bool),
      (op, i, et, q, run) ∈ ([
        (0x16, .scTon ix, e1, a && decide (pt ≤ e1), m.run),
        (0x17, .scTof ix, (if a then 0 else e2), (if a then true else m.q && !(r2 && decide (pt ≤ e2))),
          !a && r2 && !decide (pt ≤ e2)),
        (0x18, .scTp ix, (if fire then 0 else e3), (if fire then decide (0 < pt) else m.q && !done),
          (if fire then decide (0 < pt) else m.run && !done)),
        (0x19, .scTret ix, e4, decide (pt ≤ e4), m.run)] : List (Nat × Instr × Nat × Bool × Bool)) →
      Fetches s c k (scWord op 3 ix) →
      ∃ t, exec i s = .next t ∧ Advances s t c q x.stack ∧
        (∀ j, Tbl.get ({} : Timer) j t.slp.t =
          if j = ix then { et := et, q := q, inPrev := a, run := run, last := some x.stamp } else Tbl.get {} j s.slp.t) ∧
        t.slp.q = s.slp.q ∧ t.slp.m = s.slp.m ∧ t.slp.c = s.slp.c ∧ t.slp.e = s.slp.e) ∧
    (Fetches s c k (scWord 0x1A 3 ix) →
      ∃ t, exec (.scTrst ix) s = .next t ∧ Advances s t c a x.stack ∧
        (∀ j, Tbl.get ({} : Timer) j t.slp.t =
          if j = ix ∧ a then { m with et := 0, q := false, run := false } else Tbl.get {} j s.slp.t) ∧
        t.slp.q = s.slp.q ∧ t.slp.m = s.slp.m ∧ t.slp.c = s.slp.c ∧ t.slp.e = s.slp.e)) ∧
  (∀ (s : State) (c k ix : Nat),
    let x := s.clsOf c
    let m := Tbl.get ({} : Counter) ix s.slp.c
    let a := x.acc
    let pv := s.prmAt 3 ix x.n
    let edge := a && !m.eprev && !m.primed
    let up := if edge then min (m.cv + 1) 0xFFFFFFFF else m.cv
    let dn := if edge then m.cv - 1 else m.cv
    (Fetches s c k (scWord 0x1B 4 ix) →
      ∃ t, exec (.scCtu ix) s = .next t ∧ Advances s t c (decide (pv ≤ up)) x.stack ∧
        (∀ j, Tbl.get ({} : Counter) j t.slp.c =
          if j = ix then { cv := up, q := decide (pv ≤ up), eprev := a, primed := false } else Tbl.get {} j s.slp.c) ∧
        t.slp.q = s.slp.q ∧ t.slp.m = s.slp.m ∧ t.slp.t = s.slp.t ∧ t.slp.e = s.slp.e) ∧
    (Fetches s c k (scWord 0x1C 4 ix) →
      ∃ t, exec (.scCtd ix) s = .next t ∧ Advances s t c (decide (dn = 0)) x.stack ∧
        (∀ j, Tbl.get ({} : Counter) j t.slp.c =
          if j = ix then { cv := dn, q := decide (dn = 0), eprev := a, primed := false } else Tbl.get {} j s.slp.c) ∧
        t.slp.q = s.slp.q ∧ t.slp.m = s.slp.m ∧ t.slp.t = s.slp.t ∧ t.slp.e = s.slp.e) ∧
    (Fetches s c k (scWord 0x1D 4 ix) →
      let down := ctrDown (s.progWords (s.progAt k x.n)) ix = some true
      let cv := if down then pv else 0
      ∃ t, exec (.scCrst ix) s = .next t ∧ Advances s t c a x.stack ∧
        (∀ j, Tbl.get ({} : Counter) j t.slp.c =
          if j = ix ∧ a then { m with cv := cv, q := if down then decide (cv = 0) else decide (pv ≤ cv) }
          else Tbl.get {} j s.slp.c) ∧
        t.slp.q = s.slp.q ∧ t.slp.m = s.slp.m ∧ t.slp.t = s.slp.t ∧ t.slp.e = s.slp.e))

/-- Jumps and ends: a taken jump moves the program counter to its target, a jump or ENDC not taken to the next word, ACC and
the stack staying; END and a taken ENDC enter the class's next slot with ACC 0 and an empty stack, or end its programs. A word
of program memory with an uncorrectable error ends its slot, whichever instruction stood there (R262): every Q bit in the
slot's write range is 0 in the output set under construction and no other Q bit and no M bit moves, the slot has FAULT and
mode STOP, the fault is counted, and the class goes on with its next slot. The model's own readings and choices that this
rests on: log 106, 107, 114, 116, 117. -/
def Obligations.JumpsEndsAndBadWordsMoveTheProgramCounter : Prop :=
  (∀ (s : State) (c k : Nat),
    let x := s.clsOf c
    (∀ (op target : Nat) (i : Instr) (taken : Bool),
      (op, i, taken) ∈ ([(0x1E, .scJmp target, true), (0x1F, .scJmpc target, x.acc), (0x20, .scJmpcn target, !x.acc)] :
        List (Nat × Instr × Bool)) →
      Fetches s c k (scWord op 0 target) →
      ∃ t, exec i s = .next t ∧ OnlyClasses s t ∧
        t.clsOf c = { x with pc := if taken then target else x.pc + 1, cycles := x.cycles + if taken then 3 else 1 }) ∧
    (∀ (op : Nat) (i : Instr) (taken : Bool),
      (op, i, taken) ∈ ([(0x21, .scEnd, true), (0x22, .scEndc, x.acc)] : List (Nat × Instr × Bool)) →
      Fetches s c k (scWord op 0 0) →
      ∃ t, exec i s = .next t ∧ OnlyClasses s t ∧
        t.clsOf c = (if !taken then { x with pc := x.pc + 1, cycles := x.cycles + 1 }
          else if x.slots.tail = [] then
            { x with slots := [], pc := 0, acc := false, stack := [], ended := true, cycles := x.cycles + 2 }
          else { x with slots := x.slots.tail, pc := 0, acc := false, stack := [], ended := false, cycles := x.cycles + 18 }))) ∧
  (∀ (s : State) (c k : Nat) (i : Instr),
    s.slp.cur = some c → (s.clsOf c).slots.head? = some k → (s.clsOf c).running = true → (s.clsOf c).ended = false →
    (s.clsOf c).pc < (s.progAt k (s.clsOf c).n).2 →
    s.slp.badWords.contains ((s.progAt k (s.clsOf c).n).1 + (s.clsOf c).pc) = true →
    (encodeScarab i).isSome = true →
    ∃ t, exec i s = .next t ∧ t = s.slotFault c k ((s.progAt k (s.clsOf c).n).1 + (s.clsOf c).pc) ∧
      (∀ j, Tbl.get false j t.slp.q = if (soIndices (s.slpEnt 0 k) .q).contains j then false else Tbl.get false j s.slp.q) ∧
      t.slp.m = s.slp.m ∧ t.slp.faults = k :: s.slp.faults.filter (fun j => j != k) ∧ (t.slotOf k).mode = 0 ∧
      t.get (F.SLP_CNT_COUNT.nth 3) =
        min (s.get (F.SLP_CNT_COUNT.nth 3) + 1) (2 ^ (F.SLP_CNT_COUNT.nth 3).width - 1) % 2 ^ (F.SLP_CNT_COUNT.nth 3).width ∧
      (t.clsOf c).slots = (s.clsOf c).slots.drop 1 ∧ (t.clsOf c).pc = 0 ∧ (t.clsOf c).acc = false ∧ (t.clsOf c).stack = [] ∧
      (t.clsOf c).ended = ((s.clsOf c).slots.drop 1).isEmpty)

/-- TIMED_CYCLE_START at the due start time: a class whose cycle has not ended, or has not begun yet, skips the start; any
other waits for its turn and starts in it with that stamp, unless a class of higher priority runs (R251, R252, R259).
PER_INSTANT_CYCLE_START: the newest waiting instant gets the cycle, at its sample time; nothing waiting, or a class of higher
priority running, changes nothing (R251, R252, R259). CYCLE_RESUME gives the Scarab to the pre-empted class of highest
priority, its images unchanged; CYCLE_END closes the cycle that runs once its programs have ended: the class no longer runs,
and where no start waits the Scarab is free (R252, R258). The model's own readings and choices that this rests on: log 4, 5,
109, 110, 114, 123. -/
def Obligations.CyclesStartResumeAndEnd : Prop :=
  (∀ (s : State) (c : Nat),
    let w := s.clsEnt c
    let due := s.dueStart c
    let v := (s.advanceTo due).modCls c (fun x => { x with lastStart := some due, due := some due })
    s.slpOn = true → clValid w = true → clInst w = false → clPeriod w ≠ 0 → c < 16 →
    ((s.clsOf c).running = false → (s.clsOf c).due = none → exec (.timedCycleStart c) s = .next v.startDue) ∧
    ((s.clsOf c).running = false → (s.clsOf c).due = none → v.topOf (fun x => x.due.isSome) = some c → v.outranked c = true →
      exec (.timedCycleStart c) s = .next v) ∧
    ((s.clsOf c).running = false → (s.clsOf c).due = none → v.topOf (fun x => x.due.isSome) = some c → v.outranked c = false →
      ∃ t, exec (.timedCycleStart c) s = .next t ∧ t.tbu.t48 = max s.tbu.t48 (due * 2 ^ 32) ∧ t.slp.cur = some c ∧
        (t.clsOf c).running = true ∧ (t.clsOf c).stamp = due ∧ (t.clsOf c).n = (s.clsOf c).n + 1 ∧
        (t.clsOf c).due = none ∧ (t.clsOf c).lastStart = some due) ∧
    ((s.clsOf c).running = true ∨ (s.clsOf c).due ≠ none →
      ∃ t, exec (.timedCycleStart c) s = .next t ∧ t.tbu.t48 = max s.tbu.t48 (due * 2 ^ 32) ∧
        t.clsOf c = { s.clsOf c with nextOver := true, lastStart := some due } ∧
        t.get (F.SLP_CLASS_CNT_SKIP.nth c) =
          min (s.get (F.SLP_CLASS_CNT_SKIP.nth c) + 1) (2 ^ F.SLP_CLASS_CNT_SKIP.width - 1) % 2 ^ F.SLP_CLASS_CNT_SKIP.width)) ∧
  (∀ (s : State) (c : Nat),
    let w := s.clsEnt c
    s.slpOn = true → clValid w = true → clInst w = true → c < 16 → (s.clsOf c).running = false →
    (s.waiting c = [] ∨ s.outranked c = true → exec (.perInstantCycleStart c) s = .next s) ∧
    (∀ n ∈ s.waiting c, (∀ m ∈ s.waiting c, m ≤ n) → s.outranked c = false →
      ∃ t, exec (.perInstantCycleStart c) s = .next t ∧ t.slp.cur = some c ∧
        (t.clsOf c).running = true ∧ (t.clsOf c).n = n ∧ (t.clsOf c).stamp = tOf (s.latRate (clLat w)) n)) ∧
  ((∀ (s : State) (c : Nat), s.slp.cur = none → s.topClass = some c →
    exec (.cycleResume c) s = .next { s with slp := { s.slp with cur := some c } }) ∧
  (∀ (s : State) (c : Nat), (s.clsOf c).running = true → (s.clsOf c).ended = true → s.slp.cur = some c →
    (∀ p ∈ s.slp.cls, p.2.due = none) →
    ∃ t, exec (.cycleEnd c) s = .next t ∧ (t.clsOf c).running = false ∧ (t.clsOf c).slots = [] ∧ t.slp.cur = none))

/-! ### Supplies, faults and resets -/

/-- The rails of R54, R57 and R64: POWER_UP starts VCORE with the feed at 9.0 V and VBUS above the return threshold; each rail
in regulation starts the next; after VANA, MOD_PWROK rises and the reset ends; while the rails wait to be taken down none
starts and the module stays in Reset; RAIL_TAKEDOWN takes all of them down, at once below 6.0 V and else at its time.
SUPPLY_STATUS_UPDATE shows what was measured, in the units and windows of R66, outside a cold reset. The model's own readings
and choices that this rests on: log 5, 10, 14, 34, 39, 45, 219. -/
def Obligations.RailsComeUpInOrder : Prop :=
  (∀ s : State,
    (∀ (fa : Bool) (x : SupplySample), s.sup.started = 0 → s.sup.mode = .reset → s.sup.vkeepLow = false →
      9000 ≤ (if fa then x.feedA else x.feedB) → 8850 < x.vbus →
      ∃ t, exec (.powerUp fa x) s = .next t ∧ t.sup.started = 1 ∧ t.sup.rails = 0 ∧ t.sup.railsOk = 0 ∧ t.sup.downAt = none ∧
        t.sup.vcore = Config.vcoreInit ∧ t.sup.vbus = x.vbus ∧ t.sup.vioCar = x.vioCar ∧ t.sup.strapped = true ∧
        t.get F.TMC_START_STATUS_PHASE = 1 ∧ t.mem = s.mem) ∧
    (∀ r : Rail, r ≠ .vana → s.sup.rails = railPlace r → s.sup.started = railPlace r + 1 → s.sup.downAt = none →
      exec (.railInRegulation r) s =
        .next { s with sup := { s.sup with rails := railPlace r + 1, started := railPlace r + 2
                                           railsOk := putBits (railPlace r) (railPlace r) 1 s.sup.railsOk } }) ∧
    (s.sup.rails = 2 → s.sup.started = 3 → s.sup.vkeepLow = false → s.sup.downAt = none →
      ∃ t, exec (.railInRegulation .vana) s = .next t ∧ t.sup.pwrok = true ∧ t.sup.mode = .normal ∧ t.sup.rails = 3 ∧
        t = { s with sup := { s.sup with rails := 3, railsOk := putBits 2 2 1 s.sup.railsOk, mode := .normal } }.pwrokRise.tryEndReset) ∧
    (∀ (r : Rail) (d : Time), s.sup.rails = railPlace r → s.sup.started = railPlace r + 1 → s.sup.downAt = some d →
      exec (.railInRegulation r) s =
        .next { s with sup := { s.sup with rails := railPlace r + 1
                                           railsOk := putBits (railPlace r) (railPlace r) 1 s.sup.railsOk } }) ∧
    (∀ at_, s.sup.mode = .reset → s.sup.started ≠ 0 → s.sup.downAt = some at_ →
      let down := fun (u : State) =>
        { u with sup := { u.sup with started := 0, rails := 0, railsOk := 0, downAt := none, vcore := 0 } }.islandOff
      (s.sup.vbus < 6000 → exec .railTakedown s = .next (down s)) ∧
      (6000 ≤ s.sup.vbus → exec .railTakedown s = .next (down (s.advanceTo at_))))) ∧
  (∀ (s : State) (x : SupplySample),
    (exec (.supplyStatusUpdate x) s = .next (s.measured x).tryEndReset.showSupply.drivePins.evalReady) ∧
    (s.sup.inCold = false →
    ∃ u : State, exec (.supplyStatusUpdate x) s = .next u.drivePins.evalReady ∧
      u.sup.vbus = x.vbus ∧ u.sup.feedA = x.feedA ∧ u.sup.feedB = x.feedB ∧ u.sup.vioCar = x.vioCar ∧
      u.flag F.PHM_SUPPLY_STATUS_FEED_A_OK = decide (8500 ≤ x.feedA) ∧ u.flag F.PHM_SUPPLY_STATUS_FEED_B_OK = decide (8500 ≤ x.feedB) ∧
      u.flag F.PHM_SUPPLY_STATUS_VCORE_OK = bit 0 x.rails ∧ u.flag F.PHM_SUPPLY_STATUS_VIO_OK = bit 1 x.rails ∧
      u.flag F.PHM_SUPPLY_STATUS_VANA_OK = bit 2 x.rails ∧
      u.get F.PHM_SUPPLY_STATUS_VIO_CAR_STATE = s.vioState x.vioCar ∧
      u.flag F.PHM_SUPPLY_STATUS_RIDE = (s.sup.mode == .rideThrough) ∧
      u.flag F.PHM_SUPPLY_STATUS_RETURN_PENDING = (s.sup.rideEnd != 0) ∧
      (10 ∣ x.vbus → u.get F.PHM_SUPPLY_STATUS_VBUS = min (x.vbus / 10) (2 ^ 11 - 1)) ∧ u.mem = s.mem))

/-- Ride-through (R61 to R64) at its thresholds: entry at 8.5 V, the return timer above 8.85 V, its stop below 8.95 V, its
expiry after 10 ms; BROWNOUT at 250 ms with no return timer, and the reset below 7.0 V. The model's own readings and choices
that this rests on: log 4, 5, 33, 39, 44, 219. -/
def Obligations.RideThroughFollowsItsThresholds : Prop :=
  ∀ (s : State) (mv : Nat),
    (s.sup.mode = .normal → 6900 ≤ mv → mv ≤ 8500 →
      ∃ t, exec (.rideThroughEntry mv) s = .next t ∧ t.sup.mode = .rideThrough ∧ t.sup.vbus = mv ∧ t.sup.rideMin = mv ∧
        t.sup.rideStart = s.now ∧ t.sup.rideEnd = 0 ∧ t.sup.rideDue = s.now + ms 250 ∧ (s.sup.inCold = false → t.get F.PHM_SUPPLY_STATUS_RIDE = 1) ∧
        t.get F.PHM_BG_STATUS_PAUSED = 1 ∧ t.mem = s.mem) ∧
    (s.sup.mode = .rideThrough → s.sup.rideEnd = 0 → 8850 < mv →
      (s.sup.inCold = false → ∃ t, exec (.returnThreshold mv) s = .next t ∧ t.sup.rideEnd = s.now + ms 10 ∧ t.sup.vbus = mv ∧
        t.sup.mode = .rideThrough ∧ t.get F.PHM_SUPPLY_STATUS_RETURN_PENDING = 1 ∧ t.mem = s.mem) ∧
      exec (.returnThreshold mv) s = .next
        ((({ s with sup := { s.sup with rideEnd := s.now + ms 10 } }.vbusAt mv).showRide F.PHM_SUPPLY_STATUS_RETURN_PENDING 1).tryEndReset)) ∧
    (s.sup.mode = .rideThrough → s.sup.rideEnd ≠ 0 → mv < 8950 →
      let u := ({ s with sup := { s.sup with rideEnd := 0 } }.vbusAt mv).showRide F.PHM_SUPPLY_STATUS_RETURN_PENDING 0
      (s.now < s.sup.rideDue → ∃ t, exec (.returnTimerStop mv) s = .next t ∧ t = u ∧ t.sup.rideEnd = 0 ∧ t.sup.vbus = mv ∧
        t.sup.rideMin = min s.sup.rideMin mv) ∧
      (s.sup.rideDue ≤ s.now → exec (.returnTimerStop mv) s = exec .brownout u)) ∧
    (s.sup.mode = .rideThrough → s.sup.rideEnd ≠ 0 →
      ∃ t, exec .returnTimerExpiry s = .next t ∧ t.sup.mode = .normal ∧ t.sup.rideEnd = 0 ∧
        (s.sup.inCold = false → t.get F.PHM_SUPPLY_STATUS_RIDE = 0 ∧ t.get F.PHM_SUPPLY_STATUS_RETURN_PENDING = 0) ∧
        t.get F.PHM_BG_STATUS_PAUSED = 0 ∧ t.keep.staged = []) ∧
    (s.sup.mode = .rideThrough → s.sup.rideEnd = 0 →
      ∃ t, exec .brownout s = .next t ∧ t.sup.mode = .reset ∧ t.sup.pwrok = false ∧ t.sup.inCold = true ∧
        t.get F.TMC_RESET_CAUSE_CAUSE = 3) ∧
    (s.sup.started ≠ 0 → mv < 7000 →
      ∃ t, exec (.resetThreshold mv) s = .next t ∧ t.sup.mode = .reset ∧ t.sup.pwrok = false ∧ t.sup.inCold = true ∧
        t.sup.vbus = mv ∧ t.get F.TMC_RESET_CAUSE_CAUSE = 2)

/-- The events that set a bit of PHM.FAULT (R26, R54, R58, R67, R79), with the response each starts; while a bit is 1 and
VKEEP is there MOD_FAULT_N is low. The model's own readings and choices that this rests on: log 5, 36, 37, 38. -/
def Obligations.FaultEventsSetTheirBits : Prop :=
  (∀ (s : State) (b : Nat), b < 8 → (s.setFault b).flag (faultField b) = true) ∧
  (∀ (s : State) (b : Nat), b < 8 → s.flag (faultField b) = true → s.sup.vkeepLow = false → s.pin .faultN = .low) ∧
  ∀ s : State,
    (∀ b : Bool, s.feedBad b = true → exec (.feedLost b) s = .next (s.setFault (if b then 3 else 2))) ∧
    (exec .therm s = .next ({ s with sup := { s.sup with dieHot := true, rootPending := 6 } }.setFault 7)) ∧
    (exec .rootLock s = .next ({ s with sup := { s.sup with rootPending := 5 } }.setFault 0)) ∧
    (exec .rootRatio s = .next ({ s with sup := { s.sup with rootPending := 5 } }.setFault 1).islandRoot) ∧
    (∀ r : Rail, s.sup.pwrok = true → railPlace r < s.sup.rails →
      exec (.railFault r) s = .next
        (({ s with sup := { s.sup with railsOk := putBits (railPlace r) (railPlace r) 0 s.sup.railsOk } }.setFault 4).coldReset 4)) ∧
    (∀ mv : Nat, s.sup.pwrok = true → (s.vioMeasured mv).vioBad = true →
      exec (.vioCarFault mv) s = .next
        (({ (s.vioMeasured mv).modSup (fun u => { u with vioStop := true, vioDriven := false }) with
              psc := { s.psc with mustProof := s.psc.mustProof || s.psc.powered } }.showSupply.setFault 5).stopQbc.fence 5).evalReady) ∧
    (∀ b : Nat, b < 8 → s.flag (faultField b) = false → s.causeHolds b = true →
      exec (.faultBitReassert b) s = .next
        (if b < 2 then (s.setFault b).modSup (fun u => { u with rootPending := 5 })
         else if b = 4 then (s.setFault b).coldReset 4
         else if b = 7 then (s.setFault b).modSup (fun u => { u with rootPending := 6 })
         else s.setFault b))

/-- A cold reset (R486 to R488) held by CAR_RST_N: its cause, no operation on the bus, no job, no octet of memory outside the
MRAM window, every octet of the window but for the Belfry entries of what it disarms, and the archive flash; VKEEP_LOW does
the same with MOD_PWROK low. The model's own readings and choices that this rests on: log 8, 33, 34, 35, 40, 214, 219, 259. -/
def Obligations.ColdResetsKeepOnlyMramAndFlash : Prop :=
  (∀ s : State, s.slp.forces = [] → s.flag F.WVL_CTL_ARM = false → s.disarm = s) ∧
  ∀ (s : State) (i : Instr) (c : Nat),
    (i, c) ∈ ([(.carRst, 7), (.vkeepLow, 0x0A)] : List (Instr × Nat)) → s.sup.started ≠ 0 →
    let u := if i = .carRst then { s with sup := { s.sup with carRstLow := true } } else s
    ∃ t, exec i s = .next t ∧ t.sup.inCold = true ∧ t.get F.TMC_RESET_CAUSE_CAUSE = c ∧
      (i = .carRst → t.sup.carRstLow = true) ∧ (i = .vkeepLow → t.sup.vkeepLow = true ∧ t.sup.pwrok = false) ∧
      (∀ a, memGet a t.mem = if mramBase ≤ a ∧ a < mramBase + mramSize then memGet a (u.endEpisode true).disarm.mem else 0) ∧
      t.bus = .idle ∧ t.tmc.jobs = [] ∧ t.tmc.active = s.tmc.flash.active ∧ t.tmc.pending = s.tmc.flash.pending ∧
      t.pending = s.pending

/-- The output pins when the module goes down (R26, R46, R58, R64, R67, R77): in a cold reset, and once a root fault is
reported, no pin of the carrier's reset, of the pulse output or of the carrier bus is high; a reset of the supplies and a
fault of VIO_CAR leave every VIO-class pin high-impedance, the one with MOD_PWROK low, the other with MOD_FAULT_N low. The
model's own readings and choices that this rests on: log 5, 33, 36, 46. -/
def Obligations.PinsGoDownWithTheModule : Prop :=
  let quiet := fun (t : State) => ∀ p ∈ ([.rstOutN, .ppsOut, .qbClk, .qbSync, .qbDo] : List OutPin), t.pin p ≠ .high
  let off := fun (t : State) => ∀ p : OutPin, p ≠ .pwrok → p ≠ .faultN → t.pin p = .hiz
  ∀ s : State,
    (s.sup.started ≠ 0 → ∃ t, exec .carRst s = .next t ∧ quiet t) ∧
    (∀ c : Nat, c ∈ [4, 5, 6, 7] → s.sup.started ≠ 0 → ∃ t, exec (.coldReset c) s = .next t ∧ quiet t) ∧
    (∀ i ∈ ([.therm, .rootLock, .rootRatio] : List Instr), ∃ t, exec i s = .next t ∧ quiet t ∧
      (s.sup.vkeepLow = false → t.pin .faultN = .low)) ∧
    (s.sup.mode = .rideThrough → s.sup.rideEnd = 0 → ∃ t, exec .brownout s = .next t ∧ off t ∧
      (s.sup.vkeepLow = false → t.pin .pwrok = .low)) ∧
    (∀ mv : Nat, s.sup.started ≠ 0 → mv < 7000 → ∃ t, exec (.resetThreshold mv) s = .next t ∧ off t ∧
      (s.sup.vkeepLow = false → t.pin .pwrok = .low)) ∧
    (∀ mv : Nat, s.sup.pwrok = true → (s.vioMeasured mv).vioBad = true → ∃ t, exec (.vioCarFault mv) s = .next t ∧ off t ∧
      (s.sup.vkeepLow = false → t.pin .faultN = .low))

/-- The resets that end, each with what it does first: CAR_RST_N released, the root-fault response, KEEP_RESET, a cold reset
by cause, and a warm reset, which a cold reset and the start-up after one ignore (R26, R59, R486, R487, R490). The model's own
readings and choices that this rests on: log 33, 35, 36, 40, 43, 214, 219, 259. -/
def Obligations.ResetsProceedByCause : Prop :=
  ∀ s : State,
    (exec .carRstNRelease s = .next { s with sup := { s.sup with carRstLow := false } }.tryEndReset) ∧
    (s.sup.rootPending ≠ 0 →
      exec .rootFaultResponse s = .next ((s.stopMacs.stopQbc.fence 5).coldReset s.sup.rootPending)) ∧
    (s.sup.vkeepLow = true → s.sup.rails < 3 →
      ∃ t, exec .keepReset s = .next t ∧ t.keep = { lostOp := s.hlt.hdrOpSec, lostCycles := s.hlt.hdrCycles } ∧ t.now = 0 ∧ t.sup.vkeepLow = false ∧
        t.get F.PRC_EPOCH_EPOCH = F.PRC_EPOCH_EPOCH.reset ∧ t.get F.TMC_RESET_CAUSE_KIND = 3 ∧
        t.get F.TMC_RESET_CAUSE_CAUSE = 0x0A ∧ t.get F.PHM_KEEP_CNT_OP_SEC = s.hlt.hdrOpSec % 2 ^ 32 ∧ t.mem = s.mem) ∧
    (∀ c : Nat, c ∈ [2, 3] → s.sup.started ≠ 0 → exec (.coldReset c) s = .next (s.supplyReset c)) ∧
    (∀ c : Nat, c ∈ [4, 5, 6, 7] → s.sup.started ≠ 0 → exec (.coldReset c) s = .next (s.coldReset c)) ∧
    (∀ (c : Nat) (t : Time), c ∈ [8, 9] → s.tmc.resetDue.find? (fun r => r.1 == c) = some (c, t) →
      exec (.coldReset c) s = .next ((s.advanceTo t).coldReset c)) ∧
    (∀ t : Time, s.tmc.resetDue.find? (fun r => r.1 == 0) = some (0, t) → (s.sup.inCold = true ∨
        s.sup.warmFrom = false ∧ s.get F.TMC_START_STATUS_PHASE < 6) →
      exec .warmReset s = .next { s.advanceTo t with tmc := { s.tmc with resetDue := s.tmc.resetDue.erase (0, t) } }) ∧
    (∀ t : Time, s.tmc.resetDue.find? (fun r => r.1 == 0) = some (0, t) → s.sup.inCold = false →
      s.sup.warmFrom = true ∨ 6 ≤ s.get F.TMC_START_STATUS_PHASE →
      let d := ({ s.advanceTo t with tmc := { s.tmc with resetDue := s.tmc.resetDue.erase (0, t) } }.endEpisode true).disarm
      ∃ u : State, exec .warmReset s = .next (u.bootMeasure [3]).drivePins.enterPrepare ∧
        u.get F.TMC_RESET_CAUSE_KIND = 1 ∧ u.get F.TMC_RESET_CAUSE_CAUSE = 8 ∧ u.bus = .idle ∧ u.tmc.jobs = [] ∧
        u.tmc.xfer = s.tmc.xfer ∧ u.tmc.resetDue = s.tmc.resetDue.erase (0, t) ∧
        (∀ a, memGet a u.mem = if a < dramEnd ∨ (mramBase ≤ a ∧ a < mramBase + mramSize) then memGet a d.mem else 0))

/-- Start-up from PREPARE on (R491 to R494): with no bundle to commit the module runs without one; a marked PENDING that
passes the checks is committed, and becomes ACTIVE; group B starts at the time condition, or LAT_WAIT seconds after group A.
The model's own readings and choices that this rests on: log 5, 186, 188, 193, 194, 196, 245. -/
def Obligations.StartUpCommitsAndStartsGroupB : Prop :=
  ∀ s : State,
    (s.get F.TMC_START_STATUS_PHASE = 2 → s.dstate ≠ 0 → s.tmc.locked = false →
      (s.tmc.active = none → s.tmc.pending = none →
        exec .prepareComplete s = .next ((s.setF F.TMC_START_STATUS_PHASE 3).setF F.TMC_START_STATUS_PHASE 7).evalReady) ∧
      (∀ b t, s.tmc.pending = some b → s.tmc.mark = true → (s.setF F.TMC_START_STATUS_PHASE 3).checked b = .inr t →
        exec .prepareComplete s = .next ((s.setF F.TMC_START_STATUS_PHASE 3).commitPoint t b true).groupA) ∧
      (∀ b t, s.tmc.active = some b → s.tmc.mark = false → (s.setF F.TMC_START_STATUS_PHASE 3).checked b = .inr t →
        exec .prepareComplete s = .next ((s.setF F.TMC_START_STATUS_PHASE 3).commitPoint t b false).groupA)) ∧
    (s.get F.TMC_START_STATUS_PHASE = 4 →
      let u := if s.timeMet then s else s.advanceTo (s.tmc.groupAt + secs (s.get F.TMC_START_CFG_LAT_WAIT))
      let u := groupBFields.foldl (fun (s : State) f => s.enableB f) u
      let u := (if u.flag F.SLP_CTL_EN then u.slpStart else u).setF F.TMC_START_STATUS_PHASE 6
      let u := if u.flag F.SLE_CTL_EN then u.latsOn.foldl (fun (s : State) l => s.latStart l) u else u
      exec .groupBEnable s = .next (if u.flag F.DRE_CTL_EN then u.armInit else u).evalReady)

/-- The carrier bus (R60, R69 to R74): QBC_START 1 ms after VIO_CAR came into range releases MOD_RST_OUT_N; a frame starts on
a 10 µs boundary, carries the next SEQ and HOLD, and ends 5.76 µs later; an input frame whose CRC fails changes no input, and
the third in a row clears IN_VALID. The model's own readings and choices that this rests on: log 4, 5, 46, 47. -/
def Obligations.CarrierFramesFollowTheirSchedule : Prop :=
  ∀ s : State,
    (s.qbc.waiting = true → s.qbc.stopped = false → s.sup.vioStop = false → s.get F.PHM_SUPPLY_STATUS_VIO_CAR_STATE = 1 →
      ∃ t, exec .qbcStart s = .next t ∧ t.tbu.t48 = max s.tbu.t48 ((s.sup.vioSince + ms 1) * 2 ^ 32) ∧ t.qbc.waiting = false ∧
        t.qbc.running = s.flag F.QBC_CTL_EN ∧ t.sup.vioDriven = true ∧ t.sup.released = true ∧ t.regs = s.regs ∧ t.mem = s.mem ∧
        (s.vioState s.sup.vioCar = 1 → s.pinsReset = false → t.pin .rstOutN = .high)) ∧
    (∀ di : Nat, s.qbc.running = true → s.qbc.stopped = false → s.flag F.QBC_CTL_EN = true → qbInOk di = false →
      ∃ t, exec (.qbFrame di) s = .next t ∧
        t.tbu.t48 = max (max s.tbu.t48 (nextFrame s.now * 2 ^ 32)) ((nextFrame s.now + ns 5760) * 2 ^ 32) ∧
        t.get F.QBC_STATUS_HOLD = s.qbHold ∧ t.flag F.QBC_STATUS_UPD = (s.qbHold == 0) ∧
        t.get F.QBC_STATUS_LAST_SEQ = (if s.qbc.sentAny then (s.get F.QBC_STATUS_LAST_SEQ + 1) % 256 else 0) ∧
        t.qbc.outWord = s.qbWord ∧ t.slp.i = s.slp.i ∧ t.qbc.badRun = s.qbc.badRun + 1 ∧
        (3 ≤ s.qbc.badRun + 1 → t.get F.QBC_STATUS_IN_VALID = 0)) ∧
    (∀ di : Nat, s.qbc.running = true → s.qbc.stopped = false → s.flag F.QBC_CTL_EN = true → qbInOk di = true →
      s.get F.QBC_CTL_IN_FILT = 0 →
      ∃ t, exec (.qbFrame di) s = .next t ∧ t.get F.QBC_STATUS_ECHO_SEQ = qbEcho di ∧ t.qbc.badRun = 0 ∧
        ∀ n, n < 256 → Tbl.get false (s.get F.QBC_MAP_IN_BASE + n) t.slp.i = bit (16 + n) di)

/-! ### The timebase -/

/-- Seconds and pulses (R83, R96, R98): a second boundary writes the Keep fallback while TIME_VALID, counts OP_SEC, and raises
PPS_OUT while it sends; PPS_OUT falls after its width; an edge on PPS_IN is accepted within 1 ms of a second and 500 ms after
the last, and rejected otherwise; 1.5 s without one clear PPS_IN_OK. TDC calibration (R87 to R89): a line starts that is out
of service, or whose other line has failed, and only after start-up with the supply Normal; after 2^20 events the line
exchanges roles with its table, or has failed on a bin wider than 40 ps or eight bins without a hit; a count of other events
ends nothing. With the die temperature of each 10 ms sample a line's recalibration begins 9 s after its last one, or 2 °C from
the temperature of that one. The model's own readings and choices that this rests on: log 4, 5, 53, 58, 220, 223. -/
def Obligations.SecondsPulsesAndTdcLinesKeepTime : Prop :=
  (∀ s : State,
    (∃ t, exec .secondBoundary s = .next t ∧
      t.tbu.t48 = max s.tbu.t48 ((s.now / secUnits + 1) * secUnits * 2 ^ 32) ∧
      (s.flag F.TBU_STATUS_TIME_VALID = true → t.keep.fallSec = Time.sec t.now ∧ t.keep.fallTick = 0) ∧
      (s.flag F.TBU_STATUS_TIME_VALID = false → t.keep = s.keep) ∧
      (s.sup.pwrok = true → t.get F.PHM_KEEP_CNT_OP_SEC = min (s.get F.PHM_KEEP_CNT_OP_SEC + 1) (2 ^ F.PHM_KEEP_CNT_OP_SEC.width - 1)
        % 2 ^ F.PHM_KEEP_CNT_OP_SEC.width) ∧
      t.sup = { s.sup with ppsHigh := s.sup.ppsHigh || s.ppsSends } ∧
      SameFieldsBut [F.PHM_KEEP_CNT_OP_SEC] s t ∧ t.mem = s.mem ∧ t.slp = s.slp) ∧
    (s.sup.ppsHigh = true →
      exec .ppsOutFall s = .next { s.advanceTo (s.tbu.ppsAt + ms (10 * s.get F.TBU_PPS_CFG_OUT_WIDTH)) with
        sup := { s.sup with ppsHigh := false } }) ∧
    (∀ l, s.tbu.ppsLast = some l → ∃ t, exec .ppsInTimeout s = .next t ∧ t.flag F.TBU_STATUS_PPS_IN_OK = false ∧
      t.tbu.t48 = max s.tbu.t48 ((l + ms 1500) * 2 ^ 32) ∧ SameFieldsBut [F.TBU_STATUS_PPS_IN_OK] s t ∧ t.mem = s.mem ∧ t.slp = s.slp) ∧
    (∀ code : Nat, s.get F.TBU_PPS_CFG_IN_MODE ≠ 0 →
      let at_ := (s.tdcCapture 20 code).1
      (|secOffset at_| ≤ (ms 1 : Nat) → (∀ l, s.tbu.ppsLast = some l → l + ms 500 ≤ at_) →
        ∃ t, exec (.ppsInEdge code) s = .next t ∧ t.tbu.ppsLast = some at_ ∧ t.flag F.TBU_STATUS_PPS_IN_OK = true ∧
          t.get F.TBU_PPS_IN_TS_GT64 = Time.gt64 at_ % 2 ^ 64 ∧ t.mem = s.mem ∧ t.slp = s.slp) ∧
      ((ms 1 : Nat) < |secOffset at_| ∨ (∃ l, s.tbu.ppsLast = some l ∧ at_ < l + ms 500) →
        exec (.ppsInEdge code) s = .next (s.bump F.TBU_EVT_CNT_PPS_IN_REJ)))) ∧
  (∀ (s : State) (ch ln : Nat),
    let c := s.tdcOf ch
    (s.sup.mode = .normal → 6 ≤ s.get F.TMC_START_STATUS_PHASE → ch < 24 → ln < 2 → ln ≠ c.inService ∨ (c.line (1 - ln)).failed = true →
      ∃ t, exec (.tdcCalibrationStart ch ln) s = .next t ∧ ((t.tdcOf ch).line ln).calibrating = true ∧
        (∀ n < 2, n ≠ ln → (t.tdcOf ch).line n = c.line n) ∧ (∀ d, d ≠ ch → t.tdcOf d = s.tdcOf d) ∧ t.mem = s.mem) ∧
    (∀ hits : List Nat, (c.line ln).calibrating = true → ln < 2 → sumN (tdcBins hits) = 2 ^ 20 →
      ((∃ h ∈ tdcBins hits, 2 ^ 20 < h * 80) ∨ 8 ≤ ((tdcBins hits).filter (fun h => h == 0)).length →
        ∃ t, exec (.tdcCalibrationDone ch ln hits) s = .next t ∧ ((t.tdcOf ch).line ln).failed = true ∧
          ((t.tdcOf ch).line ln).calibrating = false ∧ (t.tdcOf ch).inService = c.inService) ∧
      ((∀ h ∈ tdcBins hits, h * 80 ≤ 2 ^ 20) → ((tdcBins hits).filter (fun h => h == 0)).length < 8 →
        ∃ t, exec (.tdcCalibrationDone ch ln hits) s = .next t ∧ (t.tdcOf ch).inService = ln ∧
          (t.tdcOf ch).line ln = ⟨tdcTable 0 0 (tdcBins hits), false, false, false, some s.now, s.tDie⟩ ∧ (∀ d, d ≠ ch → t.tdcOf d = s.tdcOf d))) ∧
    (∀ hits : List Nat, sumN (tdcBins hits) ≠ 2 ^ 20 → exec (.tdcCalibrationDone ch ln hits) s = .next s) ∧
    (let o := c.line (1 - c.inService)
     let i := c.line c.inService
     let due := fun (l : TdcLine) => ∃ at_, l.calAt = some at_ ∧ (at_ + secs 9 ≤ s.now ∨ 200 ≤ |s.tDie - l.calTemp|)
     ((s.tdcKeep.tdcOf ch).line (1 - c.inService)).calibrating = true ↔
       o.calibrating = true ∨ due o ∨ (due i ∧ o.failed = false)))

/-- PTP messages received on a port of the attachment (R90 to R92, R129): each meets the Weevil and, where no rule of it acts,
its own rule; one of another domain is counted and changes nothing else; a one-step Sync of the master is used at once, a two-
step one with its Follow_Up, each at its own receive time; a peer-delay response completes its measurement, and a request is
answered with its receive time. The model's own readings and choices that this rests on: log 5, 49, 50, 51, 52, 55, 56, 222. -/
def Obligations.PtpMessagesAreTakenByDomain : Prop :=
  (∀ (u : State) (p : Nat) (act : State → State), u.wvlOn = false → u.weevilMsg p 0x88F7 act = act u) ∧
  ∀ s : State,
    (∀ (i : Instr) (port dom : Nat),
      ((∃ m : PtpSync, (i = .ptpSyncRx m ∨ i = .ptpFollowUpRx m) ∧ m.port = port ∧ m.domain = dom) ∨
       (∃ m : PtpAnnounce, i = .ptpAnnounceRx m ∧ m.port = port ∧ m.domain = dom) ∨
       (∃ m : PtpPdelay, (i = .ptpPdelayRespRx m ∨ i = .pdelayRespFollowUpRx m) ∧ m.port = port ∧ m.domain = dom) ∨
       (∃ q r, i = .ptpPdelayReqRx port dom q r)) →
      s.attach.contains port = true →
      ∃ act : State → State, exec i s = .next (s.weevilMsg port 0x88F7 act) ∧
        ∀ u : State, u.attach.contains port = true → dom ≠ u.get F.TBU_CTL_DOMAIN → act u = u.bump F.TBU_EVT_CNT_PTP_DISCARD) ∧
    (∀ m : PtpSync, s.attach.contains m.port = true →
      (∃ act : State → State, exec (.ptpSyncRx m) s = .next (s.weevilMsg m.port 0x88F7 act) ∧
        ∀ u : State, u.attach.contains m.port = true → m.domain = u.get F.TBU_CTL_DOMAIN → u.syncOurs m = true → intervalOk m.logInt = true →
          (m.twoStep = false → act u = u.keysAfter
            ({ u.syncHeard m with tbu := { (u.syncHeard m).tbu with pendSync := none } }.syncAccepted m (u.rxStamp m.port m.code).1
              m.origin m.corr)) ∧
          (m.twoStep = true → act u = { u.syncHeard m with tbu := { (u.syncHeard m).tbu with
            pendSync := some (m, (u.rxStamp m.port m.code).1) } })) ∧
      (∃ act : State → State, exec (.ptpFollowUpRx m) s = .next (s.weevilMsg m.port 0x88F7 act) ∧
        ∀ (u : State) y rx, u.attach.contains m.port = true → m.domain = u.get F.TBU_CTL_DOMAIN → u.syncOurs m = true →
          u.tbu.pendSync = some (y, rx) → y.seq = m.seq → y.port = m.port → y.source = m.source →
          act u = u.keysAfter
            ({ u with tbu := { u.tbu with pendSync := none } }.syncAccepted y rx m.origin (y.corr + m.corr)))) ∧
    (∀ m : PtpAnnounce, s.attach.contains m.port = true →
      ∃ act : State → State, exec (.ptpAnnounceRx m) s = .next (s.weevilMsg m.port 0x88F7 act) ∧
        ∀ v : State, v.attach.contains m.port = true → m.domain = v.get F.TBU_CTL_DOMAIN →
          ∃ u : State, u.get F.TBU_STATUS_UTC_OFFSET = m.utcOffset % 2 ^ F.TBU_STATUS_UTC_OFFSET.width ∧
            u.flag F.TBU_STATUS_UTC_VALID = true ∧ (m.qualified = true → ∃ x ∈ u.tbu.masters, x.ann = m ∧ x.at_ = v.now) ∧
            (m.qualified = false → ∀ x ∈ u.tbu.masters, x ∈ v.tbu.masters ∧ x.is m.port m.source = false) ∧
            act v = (match u.bestMaster with | some b => u.selectMaster b | none => u)) ∧
    (∀ m : PtpPdelay, s.attach.contains m.port = true →
      (∃ act : State → State, exec (.ptpPdelayRespRx m) s = .next (s.weevilMsg m.port 0x88F7 act) ∧
        ∀ (u : State) (t1 : Time), u.attach.contains m.port = true → m.domain = u.get F.TBU_CTL_DOMAIN → u.reqTime m = some t1 →
          let rx := (u.rxStamp m.port m.code).1
          (m.twoStep = false → act u = u.turnaround m.port ((rx : Int) - t1 - m.corr)) ∧
          (m.twoStep = true → (m, rx) ∈ (act u).tbu.resps ∧ (act u).tbu.delays = u.tbu.delays)) ∧
      (∃ act : State → State, exec (.pdelayRespFollowUpRx m) s = .next (s.weevilMsg m.port 0x88F7 act) ∧
        ∀ (u : State) (t1 : Time) r at_, u.attach.contains m.port = true → m.domain = u.get F.TBU_CTL_DOMAIN → u.reqTime m = some t1 →
          u.tbu.resps.find? (fun r => r.1.port == m.port && r.1.seq == m.seq) = some (r, at_) →
          act u = { u with tbu := { u.tbu with resps := u.tbu.resps.filter (fun r => r.1.port != m.port) } }.turnaround m.port
            ((at_ : Int) - t1 - ((m.t : Int) - r.t) - r.corr - m.corr))) ∧
    (∀ (port seq : Nat) (r : PdelayMark), s.attach.contains port = true → intervalOk r.logInt = true →
      ∃ act : State → State, exec (.ptpPdelayReqRx port (s.get F.TBU_CTL_DOMAIN) seq r) s = .next (s.weevilMsg port 0x88F7 act) ∧
        ∀ u : State, u.attach.contains port = true → u.get F.TBU_CTL_DOMAIN = s.get F.TBU_CTL_DOMAIN →
          act u = u.ptpSend port 4 seq (u.rxStamp port r.code).1)

/-- Messages of the clock and its states (R90, R94, R95): the fallback grandmaster alone sends Announce and Sync, peer delay
runs out of FREERUN; each goes out 1 s after the last of its kind and takes the next sequence number. A master is lost three
seconds after its last Announce or four Sync intervals after its last Sync, and leads to the best of those left, else to
MASTER, HOLDOVER or FREERUN, FREERUN with FALLBACK to MASTER, and the end of HOLD_SPEC degrades the class. None is selected
whose announceReceiptTimeout has passed, but for the one followed, which MASTER_LOST removes. The model's own readings and
choices that this rests on: log 4, 5, 49, 50, 221, 264. -/
def Obligations.ClockMessagesAndStates : Prop :=
  ∀ s : State,
    (∀ k, (s.ptpPace k).tbu.t48 = if Tbl.get 0 k s.tbu.txAt = 0 then s.tbu.t48
      else max s.tbu.t48 ((Tbl.get 0 k s.tbu.txAt + secs 1) * 2 ^ 32)) ∧
    (s.clk = 4 → exec .ptpAnnounceTx s =
      .next { (s.ptpPace 0).ptpSendAll 0 s.tbu.annSeq with tbu := { (s.ptpPace 0).tbu with annSeq := (s.tbu.annSeq + 1) % 65536 } }) ∧
    (s.clk = 4 → exec .ptpSyncTx s =
      .next { (s.ptpPace 1).ptpSendAll 1 s.tbu.syncSeq with tbu := { (s.ptpPace 1).tbu with syncSeq := (s.tbu.syncSeq + 1) % 65536 } }) ∧
    (s.clk ≠ 0 → exec .ptpPdelayReqTx s =
      .next { (s.ptpPace 3).ptpSendAll 3 s.tbu.reqSeq with tbu := { (s.ptpPace 3).tbu with reqSeq := (s.tbu.reqSeq + 1) % 65536 } }) ∧
    (s.clk = 1 ∨ s.clk = 2 →
      (∀ b, s.mastersLost.bestMaster = some b → exec .masterLost s = .next (s.mastersLost.selectMaster b)) ∧
      (∀ x m, s.tbu.masters = [x] → s.tbu.master = some m → x.is m.port m.source = true →
        ∃ t, exec .masterLost s = .next t ∧ t.tbu.masters = [] ∧ t.tbu.master = none ∧
          t.tbu.t48 = max s.tbu.t48 (x.lostAt * 2 ^ 32) ∧
          t.clk = (if s.flag F.TBU_CTL_FALLBACK then 4 else if s.clk = 2 ∨ s.flag F.TBU_STATUS_TIME_VALID = true then 3 else 0) ∧
          t.mem = s.mem ∧ t.slp = s.slp) ∧
      (∀ x ∈ s.mastersLost.tbu.masters, x ∈ s.tbu.masters ∧ s.mastersLost.now < x.lostAt ∧
        ∀ m, s.tbu.master = some m → x.is m.port m.source = false)) ∧
    (∀ b, s.bestMaster = some b → ∃ x ∈ s.tbu.masters, x.ann = b ∧
      (s.now < x.at_ + secs 3 ∨ ∃ m, s.tbu.master = some m ∧ x.is m.port m.source = true)) ∧
    (s.clk = 0 → s.flag F.TBU_CTL_FALLBACK = true → s.flag F.TBU_CTL_EN = true → s.qualified = [] →
      ∃ t, exec .fallbackMaster s = .next t ∧ t.clk = 4 ∧ t.get F.TBU_GM_ID_GM_ID = Config.clockId % 2 ^ F.TBU_GM_ID_GM_ID.width ∧
        t.tbu.t48 = max s.tbu.t48 ((s.tbu.masterAt + secs 3) * 2 ^ 32) ∧ t.mem = s.mem ∧ t.slp = s.slp) ∧
    (∀ from_, s.tbu.holdFrom = some from_ → s.clk = 3 ∨ s.clk = 4 → s.tbu.holdDone = false →
      let u := s.advanceTo (from_ + (secs (s.get F.TBU_CLOCK_DS_HOLD_SPEC) - s.tbu.holdAcc))
      exec .holdSpecExpiry s = .next { u with tbu := { u.tbu with holdDone := true } }.clockView)

/-! ### Ports -/

/-- MAC_RX_FRAME (R104, R111, R113, R120): a disabled port discards without counting; the first row of R113 that holds counts
and changes nothing but counters, unless the frame had gone on along a ring, where it is sent on and ended badly; a pause
frame is honoured or ignored; any other frame goes on. The model's own readings and choices that this rests on: log 5, 54, 57,
60, 62, 224, 225, 226, 227. -/
def Obligations.ReceptionFollowsItsRows : Prop :=
  ∀ (s : State) (e₀ : RxEvent),
    let p := e₀.port
    let e : RxEvent := { e₀ with frame := s.asPair p e₀.frame }
    let u := ((s.bumpBy (macCnt p 6) e.fecCorr).bumpBy (macCnt p 7) e.fecUncorr).setB (F.MAC_STATUS_RX_LPI.pg p) e.lpi
    (p < 11 → s.portEn p = false → exec (.macRxFrame e₀) s = .next s) ∧
    (∀ n, p < 11 → s.portEn p = true → u.rxRefuses e = some n →
      (n ∉ [2, 3, 4, 5] ∨ (u.macBump p n).forwards p e.frame = false →
        ∃ t, exec (.macRxFrame e₀) s = .next t ∧ t = { s with regs := t.regs } ∧
          t.get (macCnt p n) = (u.macBump p n).get (macCnt p n)) ∧
      (n ∈ [2, 3, 4, 5] → (u.macBump p n).forwards p e.frame = true →
        exec (.macRxFrame e₀) s = .next ((u.macBump p n).hsrForward p e.frame ((u.macBump p n).rxStamp p e.code).1 true))) ∧
    (∀ q, p < 11 → s.portEn p = true → u.rxRefuses e = none → e.frame.body = .pause q →
      e.frame.da = 0x0180C2000001 ∨ e.frame.da = u.portAddr p → exec (.macRxFrame e₀) s = .next (u.pauseRx p q)) ∧
    (∀ q, p < 11 → s.portEn p = true → u.rxRefuses e = none → e.frame.body = .pause q →
      e.frame.da ≠ 0x0180C2000001 → e.frame.da ≠ u.portAddr p → exec (.macRxFrame e₀) s = .next u) ∧
    (p < 11 → s.portEn p = true → u.rxRefuses e = none → (∀ q, e.frame.body ≠ .pause q) →
      exec (.macRxFrame e₀) s = .next (u.rxGood e))

/-- RX_DESCRIPTORS_COMPLETE (R115, R116, R336, R349): the oldest staged frame of a port leaves staging for the descriptors
claimed for it, once the frames before it in its ring have theirs; the ring's head moves on by them, and a buffer outside the
slice's windows is counted; a frame of an old generation writes nothing. The model's own readings and choices that this rests
on: log 5, 67, 70, 224, 240. -/
def Obligations.StagedFramesEnterTheirRingWhole : Prop :=
  ∀ (s : State) (p : Nat) (g : Staged) (rest : List Staged), (s.macOf p).staging = g :: rest →
    let r := g.ring
    let w := s.sltEnt 2 r
    let n := rgSlice w
    let drop := (s.modMac p (fun m => { m with staging := rest })).pauseLevel p
    ((s.slice n).gen ≠ g.gen → exec (.rxDescriptorsComplete p) s = .next drop) ∧
    ((s.slice n).gen = g.gen → g.first % 65536 ≠ (s.ring r).head % 65536 → exec (.rxDescriptorsComplete p) s = .next s) ∧
    ((s.slice n).gen = g.gen → g.first % 65536 = (s.ring r).head % 65536 →
      let size := fun i => min (rgBuf w) (g.frame.len - i * rgBuf w)
      let owned := fun (s : State) i =>
        s.dramOwned n (s.descAddr r (g.first + i)) 32 && s.dramOwned n (s.rd64 (s.descAddr r (g.first + i))) (size i)
      let v := forN g.n (fun (s : State) i =>
        let a := s.descAddr r (g.first + i)
        (if owned s i then s.wrOctets (s.rd64 a) ((g.frame.raw.drop (i * rgBuf w)).take (size i)) else s).sliceWr n (a + 8)
          (rxWords g p (s.redun p) i g.n (size i) (if owned s i then 0 else 1))) drop
      let t := (v.modRing r (fun x => { x with claimed := x.claimed - g.n })).advanceHead r g.n
      ((∀ i < g.n, owned v i = true) → exec (.rxDescriptorsComplete p) s = .next t) ∧
      ((∃ i < g.n, owned v i = false) → exec (.rxDescriptorsComplete p) s = .next
        ((t.modSlice n (fun x => { x with descErr := satInc 32 x.descErr })).sliceError n)))

/-- Links (R101, R106, R107, R129): LINK_UP raises LINK once its lock has held for 10 ms, on M0 at 1000 Mbit/s full duplex
alone, and never while the Weevil forces it down; LINK_DOWN drops it with the locks lost, and the end of a forced fall gives
LINK back while the lock holds. The timers of a port (R111, R112, R120 to R124): pause, its watchdog and its ignore time,
repeated pause frames, low-power idle, LLDP with its EEE TLV on a station port or M0 alone, the forwarding memory, and
supervision frames. The model's own readings and choices that this rests on: log 4, 5, 62, 72, 74, 229, 245. -/
def Obligations.LinksAndPortTimersActAtTheirMoments : Prop :=
  (∀ (s : State) (p : Nat), p < 11 →
    (∀ speed full, p ≠ 10 →
      (∃ t, exec (.linkUp ⟨p, true, speed, full⟩) s = .next t ∧ t.flag (F.MAC_STATUS_BLOCK_LOCK.pg p) = true ∧
        t.flag (F.MAC_STATUS_FEC_LOCK.pg p) = s.flag (F.MAC_CTL_FEC.pg p) ∧ (t.macOf p).lock = true ∧
        (∀ a, (s.macOf p).lockAt = some a → t.tbu.t48 = max s.tbu.t48 ((a + ms 10) * 2 ^ 32)) ∧
        t.link p = (s.link p || (s.macOf p).wvlTill.isNone) ∧ t.mem = s.mem ∧ t.slp = s.slp) ∧
      (∃ t, exec (.linkUp ⟨p, false, speed, full⟩) s = .next t ∧ t.flag (F.MAC_STATUS_BLOCK_LOCK.pg p) = true ∧
        t.link p = s.link p ∧ (t.macOf p).lockAt = (if (s.macOf p).lock then none else some ((s.macOf p).lockAt.getD s.now)) ∧
        t.mem = s.mem ∧ t.slp = s.slp)) ∧
    (∀ held speed full, p = 10 →
      (speed = 1000 → full = true → ∃ t, exec (.linkUp ⟨p, held, speed, full⟩) s = .next t ∧ (t.macOf p).lock = true ∧
        t.link p = (s.link p || (s.macOf p).wvlTill.isNone) ∧ t.mem = s.mem ∧ t.slp = s.slp) ∧
      (speed ≠ 1000 ∨ full = false → ∃ t, exec (.linkUp ⟨p, held, speed, full⟩) s = .next t ∧ (t.macOf p).lock = false ∧ t.link p = false)) ∧
    (∀ cause,
      let u := s.modMac p (fun m => { m with lock := false, lockAt := none })
      let v := if cause = 0 then u.setF (F.MAC_STATUS_BLOCK_LOCK.pg p) 0 else u
      exec (.linkDown ⟨p, cause⟩) s = .next ((if cause ≤ 1 then v.setF (F.MAC_STATUS_FEC_LOCK.pg p) 0 else v).linkFall p)) ∧
    (∀ till, (s.macOf p).wvlTill = some till →
      ∃ t, exec (.weevilLinkDownEnd p) s = .next t ∧ (t.macOf p).wvlTill = none ∧ t.tbu.t48 = max s.tbu.t48 (till * 2 ^ 32) ∧
        t.link p = (s.link p || (s.macOf p).lock) ∧ t.mem = s.mem ∧ t.slp = s.slp)) ∧
  (∀ (s : State) (p : Nat),
    (∀ u, (s.macOf p).pauseUntil = some u →
      exec (.pauseEnd p) s = .next
        (((s.advanceTo u).modMac p (fun m => { m with pauseUntil := none })).setF (F.MAC_STATUS_PAUSED.pg p) 0)) ∧
    (∀ u, s.flag (F.MAC_STATUS_PAUSED.pg p) = true → s.get (F.MAC_PAUSE_CFG_WD_TIME.pg p) ≠ 0 → (s.macOf p).pauseUntil = some u →
      let at_ := (s.macOf p).pausedAt + us (10 * s.get (F.MAC_PAUSE_CFG_WD_TIME.pg p))
      let v := s.advanceTo at_
      at_ ≤ u → exec (.pauseWd p) s = .next
        ((((v.modMac p (fun m => { m with pauseUntil := none, ignFrom := v.now })).setF (F.MAC_STATUS_PAUSED.pg p) 0).setF
          (F.MAC_STATUS_PAUSE_IGN.pg p) 1).macBump p 26 |>.belfry 1 0x0003 p [])) ∧
    (s.flag (F.MAC_STATUS_PAUSE_IGN.pg p) = true →
      exec (.pauseIgnoreEnd p) s = .next
        ((s.advanceTo ((s.macOf p).ignFrom + ms (max 1 (s.get (F.MAC_PAUSE_CFG_IGN_TIME.pg p))))).setF (F.MAC_STATUS_PAUSE_IGN.pg p) 0)) ∧
    ((s.macOf p).pauseStay = true → 131072 < (s.macOf p).staged → s.flag (F.MAC_CTL_TX_PAUSE_EN.pg p) = true →
      s.get (F.MAC_PAUSE_CFG_TX_QUANTA.pg p) ≠ 0 →
      exec (.pauseRepeat p) s = .next
        ((s.advanceTo ((s.macOf p).pauseTxAt + s.bitTime p (s.get (F.MAC_PAUSE_CFG_TX_QUANTA.pg p) * 512) / 2)).pauseSend p
          (s.get (F.MAC_PAUSE_CFG_TX_QUANTA.pg p)))) ∧
    (p < 11 → s.portEn p = true → s.eeePort p = true → (s.macOf p).cur = none → (s.macOf p).next = none →
      s.flag (F.MAC_STATUS_TX_LPI.pg p) = false →
      exec (.lpiEntry p) s = .next
        (((s.advanceTo ((s.macOf p).idleAt + us (10 * max 1 (s.get (F.MAC_EEE_CFG_IDLE_ENTRY.pg p))))).macBump p 27 |>.modMac p
          (fun m => { m with readyAt := none })).setF (F.MAC_STATUS_TX_LPI.pg p) 1)) ∧
    (p < 11 → s.flag (F.MAC_STATUS_TX_LPI.pg p) = true → (s.macOf p).next ≠ none → (s.macOf p).stopped = false →
      let ready := (s.macOf p).readyAt.getD s.now
      let u := ((s.advanceTo (ready + us (s.get (F.MAC_STATUS_TW_TX.pg p)))).setF (F.MAC_STATUS_TX_LPI.pg p) 0).modMac p
        (fun m => { m with readyAt := none })
      exec (.lpiWakeEnd p) s = .next (if s.flag (F.MAC_STATUS_PAUSED.pg p) then u else u.startNext p)) ∧
    (p < 11 → p ≠ 8 → p ≠ 9 → s.flag (F.MAC_CTL_EEE_EN.pg p) = true →
      ∃ f : TxFrame, f.src = .lldp ∧ f.cls = 2 ∧ f.frame.da = 0x0180C200000E ∧ f.frame.raw = s.textOf 3 p ∧
        f.frame.body = .lldp (if p = 10 ∨ s.flag (F.MAC_CTL_ROLE.pg p) = true then some (s.get (F.MAC_EEE_CFG_TW_RX_REQ.pg p)) else none) ∧
        exec (.lldpTx p) s = .next ((s.modMac p (fun m => { m with lldpSent := m.lldpSent + 1 })).txPair p f)) ∧
    (∀ sa seq made, (s.pairOf p).fwd.find? (fun e => e.1 == sa && e.2.1 == seq) = some (sa, seq, made) →
      ∃ t, exec (.hsrEntryExpiry p sa seq) s = .next t ∧ t.tbu.t48 = max s.tbu.t48 ((made + ms 400) * 2 ^ 32) ∧
        (∀ e, e ∈ (t.pairOf p).fwd ↔ e ∈ (s.pairOf p).fwd ∧ ¬(e.1 = sa ∧ e.2.1 = seq)) ∧ t.regs = s.regs ∧ t.mem = s.mem) ∧
    (p < 4 → s.redun (2 * p) ≠ 0 → s.portEn (2 * p) = true ∨ s.portEn (2 * p + 1) = true →
      let u := match (s.pairOf p).supAt with | some t => s.advanceTo (t + ms 2000) | none => s
      ∃ f : TxFrame, f.src = .supervision ∧ f.cls = 2 ∧ f.frame.da = 0x01154E000100 ∧ f.frame.sa = s.portAddr (2 * p) ∧
        f.frame.vlan = (s.pairOf p).tag ∧
        exec (.supervisionTx p) s = .next ((u.modPair p (fun x => { x with supAt := some u.now })).txPair (2 * p) f)))

/-- Transmission (R86, R107, R117, R119, R120, R129): the next frame starts on a free line with its transmit time, or is
discarded with status 5 while LINK is 0, paused or not; the frame on the line ends after its bits and counts; a delayed frame,
at its time, or a second copy goes on. The model's own readings and choices that this rests on: log 4, 5, 54, 59, 71, 72, 228,
242, 263. -/
def Obligations.FramesStartAndEndOnTheLine : Prop :=
  ∀ (s : State) (p : Nat),
    (p < 11 → s.portEn p = true → (s.macOf p).stopped = false → (s.macOf p).cur = none →
      s.link p = false ∨ s.flag (F.MAC_STATUS_PAUSED.pg p) = false ∧ s.flag (F.MAC_STATUS_TX_LPI.pg p) = false →
      ∀ f, (s.macOf p).next = some f →
        let u := s.modMac p (fun m => m.without f)
        let t := (u.txStamp p (u.freeVal 8)).1
        let v := u.drawn.modMac p (fun m => { m with cur := some (f.resident t), curAt := s.now, curTs := t })
        (s.link p = false → exec (.macTxStart p) s = .next ((u.macBump p 22).txFail f 5)) ∧
        (s.link p = true → (∀ k n, f.src ≠ .ptp k n) → exec (.macTxStart p) s = .next v) ∧
        (s.link p = true → ∀ k n, f.src = .ptp k n → exec (.macTxStart p) s = .next (v.ptpStarted p k n t))) ∧
    (∀ f, (s.macOf p).cur = some f →
      let u := (s.advanceTo ((s.macOf p).curAt + s.bitTime p ((max 64 f.frame.len + 8) * 8)))
      let v := u.modMac p (fun m => { m with cur := none, sent := some f, idleAt := u.now })
      let e := ((if f.badFcs then v.macBump p 21 else (v.macBump p 19).bumpBy (macCnt p 20) (max 64 f.frame.len)).txCopyEnd f 0
        (Time.gt64 (s.macOf p).curTs)).pauseRise p
      exec (.macTxEnd p) s = .next (if f.wvlDown = 0 then e else e.forceDown p (f.wvlDown - 1))) ∧
    (∀ at_ f rest, (s.macOf p).txDelay = (at_, f) :: rest →
      exec (.weevilDelayEnd p true) s = .next (((s.advanceTo at_).modMac p (fun m => { m with txDelay := rest })).toClass p f)) ∧
    (∀ h rest, (s.macOf p).rxDelay = h :: rest →
      exec (.weevilDelayEnd p false) s = .next (((s.advanceTo h.ts).modMac p (fun m => { m with rxDelay := rest })).passOn h)) ∧
    (∀ h rest, (s.macOf p).rxDup = h :: rest →
      exec (.weevilDuplicateCopy p) s = .next (((s.advanceTo h.ts).modMac p (fun m => { m with rxDup := rest })).passOn h))

/-! ### The classifier -/

/-- TAG_RESULT (R136, R137, R153): the oldest waiting frame of the context leaves the wait; a pass accepts it, a failure
discards it with reason 7 and takes back what its samples wrote; of a context that has changed since it only follows the
samples already written, a failure of theirs counted; the copies held behind it go the same way. Expiries at the Classifier
(R136, R144, R145, R147): a duplicate entry forgotten 400 ms after it was made, a GOOSE context past its time, an SV context
without frames, 100 ms without a condition of degradation, and a primary that feeds again after RESTORE_TIME. The model's own
readings and choices that this rests on: log 4, 5, 75, 76, 79, 81, 85, 86, 230, 231. -/
def Obligations.TagResultsAndContextsFollowTheirRules : Prop :=
  (∀ (s : State) (c : Nat) (w : TagWait), s.ing.tags.find? (fun t => t.ctx == c) = some w →
    let u := { s with ing := { s.ing with tags := s.ing.tags.filter (fun t => t.fid != w.fid) } }
    (∀ pass, (s.ctx c).gen ≠ w.gen →
      exec (.tagResult c pass) s = .next
        (((if w.written = false then u.iclBump 12 else if pass then u.tagFollows w true else (u.tagFollows w false).iclBump 7).heldCopies
          w.ev pass).earlyWrite c)) ∧
    ((s.ctx c).gen = w.gen →
      (exec (.tagResult c false) s = .next ((((u.untrack w).ctxDiscard c 7).heldCopies w.ev false).earlyWrite c)) ∧
      (∀ p, w.ev.frame.body = .goose p →
        exec (.tagResult c true) s = .next (((u.heldCopies w.ev true).gooseAccept c w.ev p w.ts w.coarse).earlyWrite c)) ∧
      (∀ p, w.ev.frame.body = .sv p → w.written = false →
        let r := (u.heldCopies w.ev true).svIndex c p w.ts w.coarse false w.fid
        exec (.tagResult c true) s = .next ((r.2.svAccept c w.ev p w.ts w.coarse r.1).earlyWrite c)) ∧
      (∀ p, w.ev.frame.body = .sv p → w.written = true →
        exec (.tagResult c true) s = .next
          ((((u.heldCopies w.ev true).svAccept c w.ev p w.ts w.coarse w.smps).tagFollows w true).earlyWrite c)))) ∧
  (∀ (s : State) (c : Nat),
    let x := s.ctx c
    (∀ sa seq d, (s.pairOf c).dup.find? (fun x => x.sa == sa && x.seq == seq) = some d →
      ∃ t, exec (.dupEntryExpiry c sa seq) s = .next t ∧ t.tbu.t48 = max s.tbu.t48 ((d.at_ + ms 400) * 2 ^ 32) ∧
        (∀ e, e ∈ (t.pairOf c).dup ↔ e ∈ (s.pairOf c).dup ∧ ¬(e.sa = sa ∧ e.seq = seq)) ∧ t.regs = s.regs ∧ t.mem = s.mem) ∧
    (cxGoose x.words = true → x.health = hLive →
      exec (.gooseTalExpiry c) s = .next
        ((((s.advanceTo (x.heardAt + ms (x.tal + cxTalMargin x.words))).gooseFallback x.words).modCtx c
          (fun y => { y with health := hLost })).ctxBits c)) ∧
    (cxGoose x.words = false → x.health = hWait ∧ s.flag F.ICL_CTL_EN = true ∨ x.health = hLive ∨ x.health = hDegr →
      ∃ u : State, exec (.svLoss c) s = .next (u.healthChanged c) ∧
        u.tbu.t48 = max s.tbu.t48 ((x.heardAt + us (100 * cxLossTime x.words)) * 2 ^ 32) ∧
        (u.ctx c).health = hLost ∧ (u.ctx c).reason = (if x.lastConf then 6 else 7) ∧ (u.ctx c).words = x.words ∧
        (∀ d, d ≠ c → u.ctx d = s.ctx d) ∧ u.regs = s.regs ∧ u.mem = s.mem) ∧
    (∀ from_, x.health = hDegr → x.cleanFrom = some from_ →
      let u := s.advanceTo (max from_ x.tagUntil + ms 100)
      exec (.svHealthRestore c) s = .next ((u.modCtx c (fun y => { y with health := hLive, liveSince := some u.now })).healthChanged c)) ∧
    (∀ from_, x.altFeeds = true → x.health = hLive → cxRestore x.words ≠ 0 → x.liveSince = some from_ →
      exec (.altRestore c) s = .next ((s.advanceTo (from_ + secs (cxRestore x.words))).feederTo c false)))

/-! ### The lattice, the phasor engine and the guards -/

/-- The Lattice's times (R164 to R168, R153): samples on their way enter unless their context has changed since; a provisional
close and a deadline come at their times, each once, the close before the deadline, and the lattice settles. The engines
behind the lattice (R200 to R206, R217 to R230, R298): a fold enters the sums once its instant is computed; complete records
run the guards and the level triggers; guard flags become visible in G as one update, and leave the ready list. The model's
own readings and choices that this rests on: log 4, 5, 92, 93, 97, 105, 131, 235, 246. -/
def Obligations.LatticesFeedPhasorsAndGuards : Prop :=
  (∀ (s : State),
    (∀ w rest, s.ing.writes = w :: rest →
      let u := { s with ing := { s.ing with writes := rest } }
      ((s.ctx w.ctx).gen ≠ w.gen → exec .latticeWrite s = .next (u.bump (F.ICL_CNT_COUNT.nth 12))) ∧
      ((s.ctx w.ctx).gen = w.gen → exec .latticeWrite s = .next
        ((List.range 4).foldl (fun (s : State) l => if (s.lattice l).running then (s.arrive l w.ctx).settle l else s)
          (u.modCtx w.ctx (fun x => x.addSamples w.smps))))) ∧
    (∀ l, (s.lattice l).running = true →
      ∃ u : State, exec (.provisionalClose l) s = .next (u.settle l) ∧
        u.tbu.t48 = max s.tbu.t48 (s.tPclose l (s.lattice l).pc * 2 ^ 32) ∧ (u.lattice l).pc = (s.lattice l).pc + 1 ∧
        (u.lattice l).insts = (s.lattice l).insts ∧ (u.lattice l).next = (s.lattice l).next ∧
        (∀ k, k ≠ l → u.lattice k = s.lattice k) ∧ u.regs = s.regs ∧ u.mem = s.mem) ∧
    (∀ l, (s.lattice l).running = true →
      let v := if (s.lattice l).pc ≤ (s.lattice l).dl then provisionalClose l s else s
      exec (.instantDeadline l) s = .next
        (((v.advanceTo (v.tDeadline l (v.lattice l).dl)).modLat l (fun x => { x with dl := x.dl + 1 })).settle l)) ∧
    (∀ l, (s.lattice l).running = true → (s.lattice l).dl < (s.lattice l).pc →
      ∃ u : State, exec (.instantDeadline l) s = .next (u.settle l) ∧
        u.tbu.t48 = max s.tbu.t48 (s.tDeadline l (s.lattice l).dl * 2 ^ 32) ∧ (u.lattice l).dl = (s.lattice l).dl + 1 ∧
        (u.lattice l).insts = (s.lattice l).insts ∧ (∀ k, k ≠ l → u.lattice k = s.lattice k) ∧ u.regs = s.regs ∧ u.mem = s.mem)) ∧
  (∀ (s : State) (l n : Nat),
    (∀ f, s.phe.folds.find? (fun f => f.lat == l && decide (f.n ≤ Tbl.get 0 l s.phe.done)) = some f →
      exec (.pheFold l) s = .next ({ s with phe := { s.phe with folds := s.phe.folds.erase f } }.applyFold f)) ∧
    (∀ r, s.pheRun l n = some r →
      let u := (r.1.gcmRun l n r.2).dreLevels l n r.2
      exec (.phasorsReady l n) s = .next (if u.flag F.GCM_CTL_EN then u else u.dreClosed l n)) ∧
    (∀ u, s.gcm.ready.find? (fun y => y.lat == l && y.n == n) = some u →
      ∃ v : State, exec (.guardResultsReady l n) s = .next (v.dreClosed l n) ∧ u ∈ v.slp.gUpd ∧
        (∀ y ∈ v.gcm.ready, ¬(y.lat = l ∧ y.n = n)) ∧ (∀ y ∈ s.gcm.ready, ¬(y.lat = l ∧ y.n = n) → y ∈ v.gcm.ready) ∧
        v.slp.q = s.slp.q ∧ v.slp.cls = s.slp.cls ∧ v.regs = s.regs ∧ v.mem = s.mem))

/-! ### Publications and slices -/

/-- Frames of the Publication Engine (R39, R279, R280, R282, R287, R288, R340): the next retransmission comes at its time with
sqNum one more, and none without a key; a PUB ring's descriptor is taken by an ACTIVE slice with credit, is discarded where
its instant was refuted, and completes at once with 2, 1 or 7 for a wrong length, foreign memory or an uncorrectable word.
TX_DESCRIPTOR_FETCH (R118, R340, R341): a ring in its turn, its slice with credit, sends its next frame; with several slices
waiting for the port, only within its slice's deficit, which the frame's length is taken from; slices with nothing left to
send have no deficit before it or after it. The model's own readings and choices that this rests on: log 4, 5, 67, 69, 70,
127, 239, 240, 242, 244, 249. -/
def Obligations.PublicationsAndRingsSendInTurn : Prop :=
  (∀ s : State,
    (∀ p w, s.pubIfOn p = some w → pbSv w = false → (s.pubOf p).scheduled = true → s.sends = true →
      (s.pubKeyed w = true → exec (.gooseRetransmit p) s = .next
        ((((s.advanceTo (s.pubOf p).due).modPub p (fun y => { y with
          sqNum := numInc y.sqNum, j := y.j + 1, due := y.due + pbInterval w (y.j + 1) })).gooseSend p w).pubFlush)) ∧
      (s.pubKeyed w = false → exec (.gooseRetransmit p) s = .next (s.modPub p (fun y => { y with noKey := true, scheduled := false })))) ∧
    (∀ r pw, s.ringPub r = some pw → seValid (s.sltEnt 2 r) = true → rgKind (s.sltEnt 2 r) = 2 → s.ringState r = 1 →
      (s.ring r).posted ≠ 0 → (s.ring r).held = false →
      let n := rgSlice (s.sltEnt 2 r)
      s.sliceState n = 2 → (s.slice n).inflightNow < slInflight (s.sltEnt 0 n) →
      let i := (s.ring r).head
      let a := s.descAddr r i
      let va := s.rd64 a
      let vb := s.rd64 (a + 8) % 65536
      let need := (sumN ((s.pubMembs pw.2).map mbWidth) + 7) / 8
      let u := s.modSlice n (fun x => { x with inflightNow := x.inflightNow + 1 })
      let g := (u.slice n).gen
      let h : PubHeld := ⟨r, n, g, i, pw.1, (s.ring r).depOf i,
        (octetBits (memTake u.mem vb va)).take (sumN ((u.pubMembs pw.2).map mbWidth))⟩
      exec (.pubDescriptorFetch r) s = .next
        (if (s.ring r).goneAt i then ((u.pubBump 7).frameWithdrawn n r i).txComplete n r g i 1 4 0 (some 0)
         else if u.dramOwned n a 32 = false then u.txComplete n r g i 1 1 0 (some 0)
         else if vb ≠ need then u.txComplete n r g i 1 2 0 (some 0)
         else if u.dramOwned n va vb = false then u.txComplete n r g i 1 1 0 (some 0)
         else if u.dramBad va vb = true then u.txComplete n r g i 1 7 0 (some 0)
         else if u.depFree h.dep = true then (u.ringRelease h).pubFlush
         else { u with pub := { u.pub with held := u.pub.held ++ [h] } }.modRing r (fun y => { y with held := true })))) ∧
  (∀ (s : State) (r : Nat) (f : TxNext), s.txNext r = some f → s.txWaits r = true →
    let n := rgSlice (s.sltEnt 2 r)
    let p := rgPort (s.sltEnt 2 r)
    let rs := s.txRings p
    let ns := (rs.map (fun r => rgSlice (s.sltEnt 2 r))).eraseDups
    s.hasCredit n = true → s.txTurn p n rs = some r →
    let u := s.dropDeficits p
    let v := u.txRounds p rs ns 2049
    (ns.length ≤ 1 → exec (.txDescriptorFetch r) s = .next ((u.txFetch r f).dropDeficits p)) ∧
    (1 < ns.length → f.len ≤ v.txDeficit p n → exec (.txDescriptorFetch r) s = .next
      (((v.modSlice n (fun x => { x with deficit := Tbl.set 0 p (Tbl.get 0 p x.deficit - f.len) x.deficit })).txFetch r f).dropDeficits p)) ∧
    (1 < ns.length → v.txDeficit p n < f.len → exec (.txDescriptorFetch r) s = .next s))

/-- Writes of a slice's own page (R332, R334, R347): a doorbell within its ring moves INDEX, one that does not is counted with
an event; F words are stored by an ACTIVE slice alone; a slice in another state, or a master without the grant, gets a bus
error. The model's own readings and choices that this rests on: log 23, 64, 65, 68, 239. -/
def Obligations.SlicePagesTakeOnlyTheirOwnWrites : Prop :=
  ∀ (s : State) (m : Master) (page k v : Nat), page < 128 → k < 64 → s.masterUp m = true →
    let st := s.sliceState page
    (regGrant (s.actor m) (spAddr page (0x400 + k * 16)) true = true → st ∈ [1, 2, 3, 4] →
      ∀ r, s.localRing page k = some r →
        (doorbellOk (rgKind (s.sltEnt 2 r)) (rgSize (s.sltEnt 2 r)) (s.ring r) (v % 65536) = true →
          ∃ t, exec (.doorbellWrite m page k v) s = .next t ∧ t.bus = .done ∧ (t.ring r).index = v % 65536 ∧
            (t.ring r).head = (s.ring r).head ∧ (∀ q, q ≠ r → t.ring q = s.ring q) ∧ t.regs = s.regs ∧ t.mem = s.mem) ∧
        (doorbellOk (rgKind (s.sltEnt 2 r)) (rgSize (s.sltEnt 2 r)) (s.ring r) (v % 65536) = false →
          exec (.doorbellWrite m page k v) s = .next { ((((s.modSlice page (fun x => { x with dbErr := satInc 32 x.dbErr })).bump
            (F.SLT_SP_ERR_DB_ERR.pg page)).event page 0x0004 k (v % 65536) 0).sliceError page) with bus := .done })) ∧
    (regGrant (s.actor m) (spAddr page (0x1000 + k * 8)) true = true → st = 2 → k < slFWords (s.sltEnt 0 page) →
      exec (.fWrite m page k v) s =
        .next { s.fStore page (slFBase (s.sltEnt 0 page) + k) v (s.viewDep page) with bus := .done }) ∧
    (regGrant (s.actor m) (spAddr page (0x1000 + k * 8)) true = true → st = 2 → slFWords (s.sltEnt 0 page) ≤ k →
      exec (.fWrite m page k v) s = .next s.busError) ∧
    (regGrant (s.actor m) (spAddr page (0x1000 + k * 8)) true = true → st ≠ 2 →
      exec (.fWrite m page k v) s = .next (s.refuse page (spAddr page (0x1000 + k * 8))).busError) ∧
    (regGrant (s.actor m) (spAddr page (0x400 + k * 16)) true = true → st ∉ [1, 2, 3, 4] →
      exec (.doorbellWrite m page k v) s = .next (s.refuse page (spAddr page (0x400 + k * 16))).busError) ∧
    (regGrant (s.actor m) (spAddr page (0x400 + k * 16)) true = false →
      exec (.doorbellWrite m page k v) s =
        .next (s.refused (s.actor m) (spAddr page (0x400 + k * 16))).busError)

/-- FTAG, interrupt moderation and the end of a quiesce (R328, R339, R348): FTAG is written by the hypervisor modes alone, for
which another mode takes a virtual-instruction exception, and a new PASID flushes; the moderation interval ends at its time
with one more interrupt if HEAD advanced; a QUIESCING slice with nothing in flight and no RX claim, or past 50 ms, becomes
QUIESCED. The model's own readings and choices that this rests on: log 4, 5, 66, 142. -/
def Obligations.SliceEventsFollowTheirStates : Prop :=
  ∀ s : State,
    (∀ core v pasid, core < 24 → s.sup.coresUp = true →
      (exec (.ftagWrite core false v pasid) s = .next { s with bus := .virtualInstruction }) ∧
      ∃ t, exec (.ftagWrite core true v pasid) s = .next t ∧ t.bus = .done ∧
        (Tbl.get ({} : Core) core t.slt.cores).valid = v ∧ (Tbl.get ({} : Core) core t.slt.cores).pasid = pasid % 2 ^ 20 ∧
        (Tbl.get ({} : Core) core t.slt.cores).flushes = (Tbl.get ({} : Core) core s.slt.cores).flushes +
          (if (Tbl.get ({} : Core) core s.slt.cores).pasid = pasid % 2 ^ 20 then 0 else 1) ∧
        (∀ c, c ≠ core → Tbl.get ({} : Core) c t.slt.cores = Tbl.get ({} : Core) c s.slt.cores) ∧ t.regs = s.regs ∧ t.mem = s.mem) ∧
    (∀ r, (s.ring r).modRun = true →
      let u := s.advanceTo (s.ring r).modTill
      ((s.ring r).modAdv = true → exec (.irqModerationEnd r) s = .next ((u.sendIrq r).modRing r (fun g => { g with
        modAdv := false, modTill := u.now + us (rgModUs (s.sltEnt 2 r)) }))) ∧
      ((s.ring r).modAdv = false → exec (.irqModerationEnd r) s = .next (u.modRing r (fun g => { g with modRun := false, modTill := 0 })))) ∧
    (∀ n, s.sliceState n = 3 →
      ((s.slice n).inflightNow = 0 → (∀ r ∈ s.ringsOf n, (s.ring r).claimed = 0) →
        exec (.quiesceDrained n) s = .next (s.toSliceState n 4 2)) ∧
      ((s.slice n).inflightNow ≠ 0 ∨ (∃ r ∈ s.ringsOf n, (s.ring r).claimed ≠ 0) → exec (.quiesceDrained n) s = .next s) ∧
      exec (.quiesceLimit n) s =
        .next (((s.advanceTo ((s.slice n).quiesceAt + ms 50)).abandon n).toSliceState n 4 3))

/-! ### The pair -/

/-- Heartbeats (R360 to R364, R381): a tick falls on a multiple of 125 µs and counts TICK; a heartbeat is refused for its
version or its member, counted for its code or its block check, dropped as a second copy, and otherwise taken into PEER_BLOCK
and judged by the rows of R364; one on the Cicada line shows its offset from the nearest own tick. The model's own readings
and choices that this rests on: log 4, 5, 146, 148, 151, 242, 243. -/
def Obligations.HeartbeatsTickAndAreJudged : Prop :=
  ∀ s : State, s.flag F.PRC_CTL_EN = true →
    (let u := s.advanceTo ((s.now / us 125 + 1) * us 125)
     let v := { u with prc := { u.prc with tick := (s.prc.tick + 1) % 65536 } }
     (s.flag F.PRC_CTL_PAIRED = false → exec .heartbeatTick s = .next v.singleAlone.tickLease) ∧
     (s.flag F.PRC_CTL_PAIRED = true → exec .heartbeatTick s = .next (v.tickRows.switchStart.heartbeat.tickLease).pubSyncTx)) ∧
    (∀ h : HbRx, ∃ act : State → State,
      exec (.heartbeatRx h) s = .next (if h.path < 2 then s.pairMsg (8 + h.path) act else act s) ∧
      ∀ r : State, r.flag F.PRC_CTL_EN = true →
        let o := h.block.take 16
        let b := { r.bump (F.PRC_CIC_CNT_COUNT.nth 0) with prc := { r.prc with lineAt := some r.now } }
        let u := if h.path = 2 then b.setF F.PRC_CIC_STATUS_ARR_OFFSET (unsigned 16 (satInt 16 (b.arrOffset h.code))) else r
        let m := if h.path = 2 then u else u.markSeen h.mseq
        let good := o.length = 16 ∧ ofLe (o.drop 14) = hbCrc o
        (r.flag F.PRC_CTL_PAIRED = false → act r = r) ∧
        (r.flag F.PRC_CTL_PAIRED = true →
          (h.path = 2 → h.codeOk = false → act r = u.bump (F.PRC_CIC_CNT_COUNT.nth 1)) ∧
          (h.path = 2 → h.codeOk = true → ¬good → act r = u.bump (F.PRC_CIC_CNT_COUNT.nth 2)) ∧
          (h.path ≠ 2 → ¬good → act r = r) ∧
          (h.path ≠ 2 → good → r.prc.seen.contains h.mseq = true → act r = r) ∧
          (good → (h.path = 2 ∧ h.codeOk = true) ∨ (h.path ≠ 2 ∧ r.prc.seen.contains h.mseq = false) →
            (octet o 0 / 16 ≠ 1 → act r = m.refuseHb 2 7) ∧
            (octet o 0 / 16 = 1 → hbMember o = r.memberB → act r = m.refuseHb 3 8) ∧
            (octet o 0 / 16 = 1 → hbMember o ≠ r.memberB →
              ∃ v : State, act r = v.peerRows o ∧ v.prc.heard = true ∧ v.prc.peerRole = some (hbRole o) ∧
                v.prc.peerEpoch = hbEpoch o ∧ v.prc.lastHeard = r.now ∧ v.prc.peerBlock = o ∧
                v.get (F.PRC_PEER_BLOCK.nth 0) = ofLe (o.take 8) % 2 ^ 64 ∧ v.mem = r.mem ∧ v.slp = r.slp))))

/-- Silence, leases and gaps (R364, R365, R367, R379): an Active that hears nothing for LOSS_TIME fences itself, a Watch takes
Alone with a gap; a Fenced module takes Alone after SOLO_WAIT; the lease lapses 1.5 ms after its renewal; the gap ends after
250 µs. The controlled switch-over (R370): HANDOVER goes out 20 µs after the lease was dropped, its records follow every GOOSE
publication; an aligned Watch of the same Epoch takes Active with them, and sends a heartbeat, and any other module discards
it; with no answer for 1 ms the switch is undone, if a heartbeat since HANDOVER shows the peer still Watch. The model's own
readings and choices that this rests on: log 4, 5, 41, 145, 147, 265, 266. -/
def Obligations.SilenceLeasesAndSwitchOverHandTheRole : Prop :=
  (∀ s : State,
    (s.flag F.PRC_CTL_EN = true → s.flag F.PRC_CTL_PAIRED = true → s.role = 0 →
      exec .peerSilence s = .next ((s.advanceTo (s.prc.lastHeard + s.lossTime)).fence 2)) ∧
    (s.flag F.PRC_CTL_EN = true → s.flag F.PRC_CTL_PAIRED = true → s.role = 1 →
      exec .peerSilence s = .next (((s.advanceTo (s.prc.lastHeard + s.lossTime)).prcBump 4).takeover true)) ∧
    (s.flag F.PRC_CTL_EN = true → s.flag F.PRC_CTL_PAIRED = true → s.get F.PRC_CTL_SOLO_WAIT ≠ 0 → s.role = 3 →
      s.hardFence = false → s.ready = true →
      let w := ms (s.get F.PRC_CTL_SOLO_WAIT)
      let t := max s.now (s.prc.lastHeard + w)
      (∀ p, s.prc.pubSeen = some p → p + w ≤ t) → exec .soloWaitExpiry s = .next ((s.advanceTo t).takeSending 2 false)) ∧
    (s.flag F.PRC_STATUS_LEASE = true →
      let u := (s.advanceTo (s.prc.renewed + us 1500)).handOwn
      exec .leaseLapse s = .next (u.sendEdge ((u.setF F.PRC_STATUS_LEASE 0).prcBump 14))) ∧
    (s.flag F.PRC_STATUS_GAP = true → s.flag F.PRC_STATUS_SWITCHING = false → s.role = 0 ∨ s.role = 2 →
      let u := s.advanceTo (s.prc.gapFrom + us 250)
      exec .takeoverGapEnd s = .next (u.sendEdge (u.setF F.PRC_STATUS_GAP 0).renewLease))) ∧
  (∀ s : State,
    (s.flag F.PRC_STATUS_SWITCHING = true → s.prc.handAt = none → s.pubOnWire = false →
      let u := s.advanceTo (s.prc.dropAt + us 20)
      let ps := (u.pubsOn.filter (fun p => !pbSv p.2)).map Prod.fst
      let v := u.pairSend 6 (ps.flatMap (fun p => u.pubRec p true))
      exec .handoverTx s = .next { v with prc := { v.prc with handAt := some v.now } }) ∧
    (∀ t, s.prc.handAt = some t → s.flag F.PRC_STATUS_SWITCHING = true → s.prc.lastHeard ≤ t →
      exec .switchTimeout s = .next s) ∧
    (∀ t, s.prc.handAt = some t → s.flag F.PRC_STATUS_SWITCHING = true → t < s.prc.lastHeard → s.prc.peerRole = some 1 →
      newer s.prc.peerEpoch s.epoch = false →
      let u := (s.advanceTo (t + ms 1)).prcBump 8
      exec .switchTimeout s = .next ((u.sendEdge (u.setF F.PRC_STATUS_GAP 0).renewLease).endSwitch stAborted)) ∧
    (∀ h recs, ∃ act : State → State, exec (.handoverRx h recs) s = .next (s.pairMsg h.port act) ∧
      ∀ u : State,
        (h.parts ≤ 1 → u.prc.seen.contains h.mseq = false → u.role = 1 → h.epoch = u.epoch → u.flag F.PRC_STATUS_ALIGNED = true →
          act u = ((recs.foldl (fun (s : State) r => s.modPub r.index (fun y => { y with handed := some r })) (u.takePart h [] recs).2).takeSending
            0 false).heartbeat) ∧
        (¬(u.role = 1 ∧ h.epoch = u.epoch ∧ u.flag F.PRC_STATUS_ALIGNED = true) →
          act u = if u.prc.seen.contains h.mseq then u else (u.markSeen h.mseq).prcBump 9)))

/-- Messages between the modules (R362, R371, R373 to R375): only a Watch takes them, from an Active of its own Epoch, and any
other is discarded and counted, its second copy not; each meets the Weevil first, where a rule of it acts; a complete image
waits for its class, PUB_SYNC records are kept, digests are paired by class and stamp, and what stays unpaired for 20 ms or
incomplete for 5 ms is dropped and counted. The model's own readings and choices that this rests on: log 5, 123, 149, 150,
153. -/
def Obligations.PairMessagesAreTakenByRole : Prop :=
  (∀ (u : State) (p : Nat) (act : State → State), u.wvlOn = false → u.pairMsg p act = act u) ∧
  ∀ (s : State) (h : PairHdr),
    let refused := fun (u : State) => if u.prc.seen.contains h.mseq then u else (u.markSeen h.mseq).prcBump 9
    (∀ c st o, ∃ act : State → State, exec (.imageRx h c st o) s = .next (s.pairMsg h.port act) ∧
      ∀ u : State, (¬(u.role = 1 ∧ h.role = 0 ∧ h.epoch = u.epoch) → act u = refused u) ∧
        (u.role = 1 → h.role = 0 → h.epoch = u.epoch → u.prc.seen.contains h.mseq = false → h.parts ≤ 1 →
          ∃ t, act u = t ∧ (⟨c, st, o⟩ : Image) ∈ t.prc.images ∧
            (∀ i ∈ t.prc.images, i.cls = c → i = ⟨c, st, o⟩) ∧ (∀ i, i.cls ≠ c → (i ∈ t.prc.images ↔ i ∈ u.prc.images)) ∧
            h.mseq ∈ t.prc.seen ∧ t.slp = u.slp ∧ t.regs = u.regs ∧ t.mem = u.mem) ∧
        (∀ p, u.role = 1 → h.role = 0 → h.epoch = u.epoch → u.prc.seen.contains h.mseq = false → 1 < h.parts →
          u.prc.parts.find? (fun q => q.mseq == h.mseq) = some p → p.at_ + ms 5 < u.now → act u = u.partLost h.mseq)) ∧
    (∀ rs, ∃ act : State → State, exec (.pubSyncRx h rs) s = .next (s.pairMsg h.port act) ∧
      ∀ u : State, (¬(u.role = 1 ∧ h.role = 0 ∧ h.epoch = u.epoch) → act u = refused u) ∧
        (∀ r : PubSyncRec, rs = [r] → u.role = 1 → h.role = 0 → h.epoch = u.epoch → u.prc.seen.contains h.mseq = false → h.parts ≤ 1 →
          ∃ t, act u = t ∧ (t.pubOf r.index).handed = some r ∧
            (∀ p, p ≠ r.index → t.pubOf p = u.pubOf p) ∧ t.slp = u.slp ∧ t.regs = u.regs ∧ t.mem = u.mem)) ∧
    (∀ es, ∃ act : State → State, exec (.digestRx h es) s = .next (s.pairMsg h.port act) ∧
      ∀ u : State, (¬(u.role = 1 ∧ h.role = 0 ∧ h.epoch = u.epoch) → act u = refused u) ∧
        (∀ e : DigestEntry, es = [e] → u.role = 1 → h.role = 0 → h.epoch = u.epoch → u.prc.seen.contains h.mseq = false →
          (∀ d ∈ u.prc.own ++ u.prc.peer, u.now ≤ d.at_ + ms 20) →
          u.prc.own.find? (fun x => x.cls == e.cls && x.stamp == e.stamp) = none →
          ∃ t, act u = t ∧ t.prc.peer = u.prc.peer ++ [⟨e.cls, e.stamp, e.digest, u.now⟩] ∧ t.prc.own = u.prc.own ∧
            h.mseq ∈ t.prc.seen ∧ t.slp = u.slp ∧ SameFieldsBut [F.PRC_CNT_COUNT.nth 11] u t ∧ t.mem = u.mem)) ∧
    (∀ u : State, (∀ d ∈ u.expireDigests.prc.own ++ u.expireDigests.prc.peer, u.now ≤ d.at_ + ms 20) ∧
      (∀ d ∈ u.prc.own, u.now ≤ d.at_ + ms 20 → d ∈ u.expireDigests.prc.own) ∧
      (∀ d ∈ u.prc.peer, u.now ≤ d.at_ + ms 20 → d ∈ u.expireDigests.prc.peer)) ∧
    (∀ c st d₀, (s.prc.own ++ s.prc.peer).find? (fun d => d.cls == c && d.stamp == st) = some d₀ →
      ∃ u : State, exec (.digestUnpaired c st) s = .next (u.prcBump 11) ∧
        u.tbu.t48 = max s.tbu.t48 ((d₀.at_ + ms 20) * 2 ^ 32) ∧ u.mem = s.mem ∧ u.slp = s.slp ∧
        (∀ d, d ∈ u.prc.own ↔ d ∈ s.prc.own ∧ ¬(d.cls = c ∧ d.stamp = st)) ∧
        (∀ d, d ∈ u.prc.peer ↔ d ∈ s.prc.peer ∧ ¬(d.cls = c ∧ d.stamp = st))) ∧
    (∀ c, ∃ act : State → State, exec (.imageReqRx h c) s = .next (s.pairMsg h.port act) ∧
      ∀ u : State, (¬(u.role = 0 ∧ h.epoch = u.epoch) → act u = refused u) ∧
        (u.role = 0 → h.epoch = u.epoch → u.prc.seen.contains h.mseq = false →
          ∃ t, act u = t ∧ c ∈ t.prc.reqs ∧ (∀ d ∈ u.prc.reqs, d ∈ t.prc.reqs) ∧ h.mseq ∈ t.prc.seen ∧
            t.regs = u.regs ∧ t.mem = u.mem)) ∧
    (∀ m p₀, s.prc.parts.find? (fun p => p.mseq == m) = some p₀ →
      let u := s.advanceTo (p₀.at_ + ms 5)
      exec (.partTimeout m) s = .next (u.partLost m)) ∧
    (∀ (u : State) m, (∀ p ∈ (u.partLost m).prc.parts, p ∈ u.prc.parts ∧ p.mseq ≠ m) ∧ m ∈ (u.partLost m).prc.seen ∧
      (u.partLost m).get (F.PRC_CNT_COUNT.nth 13) =
        min (u.get (F.PRC_CNT_COUNT.nth 13) + 1) (2 ^ (F.PRC_CNT_COUNT.nth 13).width - 1) % 2 ^ (F.PRC_CNT_COUNT.nth 13).width)

/-! ### The island -/

/-- The island's cycle and its parameters (R384 to R387, R400): a cycle adds four samples of its time, a stopped island only
its time; a cause of R385 stops it; a passed self-test goes on to the parameters. Pulses, current presence, arc and output
tests (R387, R388, R395, R398, R400): each acts at its place in island time. A step of the proof-open test ends with SFBk high
for 10 ms, then low and high in turn within FB_TIME; a level in the wrong or no time fails it. The model's own readings and
choices that this rests on: log 5, 154, 155, 156, 157, 158, 160, 251, 252, 253. -/
def Obligations.IslandCyclesFaultsAndTests : Prop :=
  (∀ s : State, s.islandOn = true →
    (∀ x : IslandInputs, s.islandEval = false →
      ∃ u : State, exec (.islandCycle x) s = .next u.showPsc.sendS ∧ u.psc.time = s.psc.time + 4 ∧ u.psc.outs = s.psc.outs ∧
        u.get F.PSC_STATUS_SFB = word x.sfb 3 % 16 ∧ u.mem = s.mem) ∧
    (∀ x : IslandInputs, s.islandEval = true →
      let t := (s.islandSamples x).psc.time + 4
      let ends := fun (p : Option Nat) => match p with | some b => if b + 8 ≤ t then none else some b | none => none
      let u := (s.islandSamples x).modPsc (fun p => { p with
        proofLow := p.proofLow || (p.proof.isSome && p.proofStep == 0 && x.sfb.any (fun w => !bit p.proofK w)) })
      let u := (u.modPsc (fun p => { p with time := t, tpA := ends p.tpA, tpB := ends p.tpB, arct := 0 })).arcChannels x.arc t
      let u := (if u.sup.vioDriven then u else u.modPsc (fun p => { p with mustProof := true })).islandDecide
      let u := if u.ist = 4 ∧ u.psc.mustProof = true ∧ u.sup.vioDriven = true ∧ u.psc.proof = none then u.proofFrom .again 0 else u
      exec (.islandCycle x) s = .next ((u.setF F.PSC_STATUS_SFB (word x.sfb 3 % 16)).showPsc).sendS) ∧
    (s.ist ≠ 5 → s.ist ≠ 0 →
      (exec (.islandFault .lockstep) s = .next (s.islandFault 1)) ∧ (exec (.islandFault .memory) s = .next (s.islandFault 2)) ∧
      (exec (.islandFault .clock) s = .next (s.islandFault 3)) ∧
      (s.psc.haveParam = true → crc32c s.paramOctets ≠ s.get F.PSC_PARAM_CRC_CRC →
        exec (.islandFault .paramCrc) s = .next (s.islandFault 4))) ∧
    (s.ist = 1 → exec .islandSelftestDone s = .next ((s.setF F.PSC_STATUS_ISTATE 2).takeParams))) ∧
  (∀ s : State, s.islandOn = true →
    (∀ b : Bool, s.islandEval = true → s.psc.time % 400 = (if b then 200 else 0) →
      exec (.testPulse b) s =
        .next { s with psc := if b then { s.psc with tpB := some s.psc.time } else { s.psc with tpA := some s.psc.time } }) ∧
    (∀ seq w rest, s.psc.cpwQueue = (seq, w) :: rest →
      ∃ t, exec .cpwUpdate s = .next t ∧ t.get F.PSC_STATUS_CPW_SEQ = seq % 2 ^ F.PSC_STATUS_CPW_SEQ.width ∧
        t.get F.PSC_STATUS_CPW_STALE = 0 ∧ t.psc.cpwQueue = rest ∧ t.psc.cpwAt = s.psc.time ∧ t.psc.outs = s.psc.outs ∧ t.mem = s.mem) ∧
    (s.psc.cpwAt + s.get F.PSC_ARC_CTL_CPW_TIMEOUT * 40 ≤ s.psc.time → exec .cpwTimeout s = .next s.goStale) ∧
    (∀ c edges, s.islandEval = true → c < 4 → s.flag (F.PSC_ARC_CH_CFG_EN.nth c) = true →
      s.psc.time % (s.get F.PSC_ARC_CTL_ARCT_PERIOD * 400) = c * s.get F.PSC_ARC_CTL_ARCT_PERIOD * 100 →
      ∃ t, exec (.arcSelftest c edges) s = .next t ∧ (t.arcCh c).testing = some (min 1250 edges) ∧
        (t.arcCh c).fails = (if s.get (F.PSC_ARC_CH_CFG_LTEST.nth c) ≤ min 1250 edges then 0 else (s.arcCh c).fails + 1) ∧
        (s.get (F.PSC_ARC_CH_CFG_LTEST.nth c) ≤ min 1250 edges → (t.arcCh c).sens = false) ∧
        t.psc.outs = s.psc.outs ∧ t.mem = s.mem) ∧
    (∀ k sfb at_, (s.sout k).changedAt = some at_ → at_ + s.fbTime k ≤ s.psc.time →
      (s.sup.vioDriven = false ∨ (sfb == 0) = (s.sout k).on → exec (.feedbackCheck k sfb) s = .next (s.modSout k (fun o => { o with changedAt := none }))) ∧
      ((sfb == 0) ≠ (s.sout k).on → s.sup.vioDriven = true →
        ∃ u : State, exec (.feedbackCheck k sfb) s = .next (u.pscBump 2).showOuts ∧ (u.sout k).fault = true ∧ (u.sout k).on = false ∧
          (u.sout k).a = false ∧ (u.sout k).b = false ∧ (∀ j, j ≠ k → u.sout j = s.sout j) ∧ u.regs = s.regs)) ∧
    (∀ k sfb, s.psc.proof ≠ none → s.psc.proofK = k →
      let p := s.psc
      let due := p.proofAt + s.fbTime k
      let fails := if p.proofStep = 0 then sfb = false ∨ p.proofLow = true
        else due < p.time ∨ (p.time = due ∧ sfb ≠ (p.proofStep % 2 == 0))
      let ends := if p.proofStep = 0 then p.proofAt + 400 ≤ p.time else p.time ≤ due ∧ sfb = (p.proofStep % 2 == 0)
      (fails → exec (.proofTestStep k sfb) s = .next (s.proofDone k false)) ∧
      (¬fails → ¬ends → exec (.proofTestStep k sfb) s = .next s) ∧
      (¬fails → ends → 4 ≤ p.proofStep → exec (.proofTestStep k sfb) s = .next (s.proofDone k true)) ∧
      (¬fails → ends → p.proofStep < 4 → ∃ t, exec (.proofTestStep k sfb) s = .next t ∧ t.psc.proofStep = p.proofStep + 1 ∧
        t.psc.proofAt = p.time ∧
        (t.sout k).a = (p.proofStep == 0 && s.sup.vioDriven) ∧ (t.sout k).b = (p.proofStep == 2 && s.sup.vioDriven) ∧
        (∀ j, j ≠ k → t.sout j = s.sout j) ∧ t.regs = s.regs ∧ t.mem = s.mem)))

/-! ### The Dome -/

/-- Events of the Dome (R410, R414, R417, R419, R420, R430, R432): DOME_RESTART ends READY with an attempt whose 8 blocks
decode to a root of the fused check value, else without a root; a group key starts and ends at its times; a challenge ends
after 60 s; the debug port closes. The model's own readings and choices that this rests on: log 4, 5, 168, 170, 249, 257. -/
def Obligations.DomeEventsChangeItsState : Prop :=
  ∀ s : State,
    (∀ corr : List (List PufBlock), s.dstate = 0 → s.sup.pwrok = true → s.sup.inCold = false →
      (∃ a ∈ corr.take 3, s.attemptOk a = true) ∨ 3 ≤ corr.length →
      ∃ (u : State) (mx total n : Nat), exec (.domeRestart corr) s = .next (s.keysFollow (u.pufRecord mx total n)).evalReady ∧
        u.get F.DOM_STATUS_DSTATE = (if ∃ a ∈ corr.take 3, s.attemptOk a = true then 1 else 2) ∧
        (∀ a, ((corr.take 3).filter s.attemptOk).head? = some a → u.dom.root = some (rootOf (s.decoded a)) ∧
          checkOf (rootOf (s.decoded a)) = s.dom.check) ∧
        u.dom.challenge = none ∧ u.dom.openStatus = none) ∧
    (∀ i k, (s.groupNode i).nxt = some k →
      let u := ((s.advanceTo (secs k.start)).modKeys i (fun n => { n with cur := some k, nxt := none })).bump (F.DOM_CNT_COUNT.nth 3)
      exec (.keyActivate i) s = .next (s.keysFollow u) ∧ (u.groupNode i).cur = some k ∧ (u.groupNode i).nxt = none ∧
        u.tbu.t48 = max s.tbu.t48 (secs k.start * 2 ^ 32) ∧ u.mem = s.mem ∧ u.slp = s.slp) ∧
    (∀ i k, (s.groupNode i).cur = some k →
      let v := s.advanceTo (secs (k.start + k.lifetime))
      let u := (v.modKeys i (fun n => { n with cur := none })).bump (F.DOM_CNT_COUNT.nth 4)
      exec (.keyExpire i) s = .next (v.keysFollow u) ∧ (u.groupNode i).cur = none ∧ (u.groupNode i).nxt = (s.groupNode i).nxt ∧
        u.tbu.t48 = max s.tbu.t48 (secs (k.start + k.lifetime) * 2 ^ 32) ∧ u.mem = s.mem ∧ u.slp = s.slp) ∧
    (∀ v at_, s.dom.challenge = some (v, at_) →
      exec .debugChallengeExpiry s = .next { s.advanceTo (at_ + secs 60) with dom := { s.dom with challenge := none } }) ∧
    (∃ t, exec .debugPortClose s = .next t ∧ t.sup = { s.sup with dbgEn := false } ∧ t.get F.DOM_DEBUG_PORT_OPEN = 0 ∧
      SameFieldsBut [F.DOM_DEBUG_PORT_OPEN] s t ∧ t.mem = s.mem) ∧
    ((∃ p ∈ s.dom.nodes, s.doomed 7 p.1 = true) →
      exec .keySweepDone s = .next
        (if (s.sweep.node 2).kind = 0 ∧ s.sweep.dstate = 1 then s.sweep.createTop.tlsCloseAll
         else if (s.sweep.node 8).kind = 0 then s.sweep.tlsCloseAll else s.sweep))

/-! ### Transports and Patchaif -/

/-- The mailbox (R439 to R441): a doorbell takes the packet of the request area, is counted while REQ_BUSY, and an
acknowledgement ends the posted reply and posts the next; both only where the slice's page grants the write. Before PREPARE no
mailbox is served. TLS sessions (R442 to R444): a tool inside the subset, with a certificate under an accepted key, gets the
lowest free session while the Dome can sign, at the port and an address of the committed bundle, before it the link-local one;
octets join the session's stream; 300 s of silence, or the tool, closes it. The model's own readings and choices that this
rests on: log 5, 15, 23, 172, 175, 176, 180, 181, 182, 256, 261. -/
def Obligations.MailboxAndTlsCarryRequests : Prop :=
  (∀ (s : State) (m : Master) (n v : Nat), n < 128 → s.sliceState n ∈ [1, 2, 3, 4, 5] → s.masterUp m = true →
    (s.sup.coresUp = false → exec (.mbxDoorbell m n v) s = .next s) ∧
    (s.sup.coresUp = true → regGrant (s.actor m) (spAddr n 0x8000) true = true →
      (v % 2 = 1 → s.flag (F.TMC_MBX_STATUS_REQ_BUSY.pg n) = false →
        exec (.mbxDoorbell m n v) s = .next { s.packet n (s.mbxPacket n) 16128 with bus := .done }) ∧
      (v % 2 = 1 → s.flag (F.TMC_MBX_STATUS_REQ_BUSY.pg n) = true →
        exec (.mbxDoorbell m n v) s = .next { s.bump (F.TMC_MBX_CNT_DB_IGNORED.pg n) with bus := .done }) ∧
      (v % 2 = 0 → exec (.mbxDoorbell m n v) s = .next { s with bus := .done })) ∧
    (regGrant (s.actor m) (spAddr n 0x8008) true = true →
      (v % 2 = 1 → (s.session n).posted ≠ none →
        exec (.mbxAck m n v) s = .next { (((s.modSess n (fun x => { x with posted := none })).setF
          (F.TMC_MBX_STATUS_REPLY_READY.pg n) 0).postReply n) with bus := .done }) ∧
      (v % 2 = 0 ∨ (s.session n).posted = none → exec (.mbxAck m n v) s = .next { s with bus := .done }))) ∧
  (∀ s : State,
    (∀ (o : TlsOffer) (n : Nat), s.tlsPort = true → o.suiteOk = true → o.groupOk = true → o.sigOk = true → o.clientCertOk = true →
      o.psk = false → o.resumption = false → o.earlyData = false → o.postAuth = false → o.port = s.net.port →
      (if o.v6 then o.dst = s.net.ip6 else s.net.ip4 = some o.dst) → s.clientKeys.contains o.clientKey = true → s.nodeLive 8 = true →
      [128, 129, 130, 131].find? (fun n => !(s.session n).opened) = some n →
      ∃ t, exec (.tlsConnect o) s = .next t ∧ (t.session n).opened = true ∧ (t.session n).lastAt = s.now ∧
        (t.session n).tags = [] ∧ (t.session n).buffer = [] ∧
        (∀ k, k ≠ n → t.session k = s.session k) ∧ t.regs = s.regs ∧ t.mem = s.mem) ∧
    (∀ n, 128 ≤ n → n < 132 → (s.session n).opened = true →
      (∀ o : Octets, ((s.session n).buffer ++ o).length < 16 →
        ∃ t, exec (.tlsPacket n o) s = .next t ∧ (t.session n).buffer = (s.session n).buffer ++ o ∧
          (∀ k, k ≠ n → t.session k = s.session k) ∧ t.regs = s.regs ∧ t.mem = s.mem) ∧
      (∀ o : Octets, 16 ≤ ((s.session n).buffer ++ o).length →
        exec (.tlsPacket n o) s = .next ((s.modSess n (fun x => { x with buffer := x.buffer ++ o })).stream n
          (((s.session n).buffer ++ o).length / 20 + 1))) ∧
      (exec (.tlsIdleTimeout n) s = .next ((s.advanceTo ((s.session n).lastAt + secs 300)).tlsClose n)) ∧
      (exec (.tlsSessionClose n) s = .next (s.tlsClose n))) ∧
    (∀ o : TlsOffer, s.offerOk o = false → exec (.tlsConnect o) s = .next s) ∧
    (s.tmc.active = none → s.net = ⟨none, linkLocal (Config.factoryMac % 2 ^ 48), 7447⟩) ∧
    (∀ n, (s.tlsClose n).session n = { sent := (s.session n).sent }))

/-- The order in which R438, R441, R451 and R452 refuse a Patchaif command before its own checks: during BUNDLE_COMMIT all but
three, a tenant without the right, the Safety group on SK9M-A, and a long command while one of its group runs; a refusal only
replies. Out of its turn, or before PREPARE, a command does nothing. The model's own readings and choices that this rests on:
log 174, 177. -/
def Obligations.SharedChecksRefuseInOrder : Prop :=
  ∀ (s : State) (q : Req) (st : Nat) (i : Instr) (op : Nat) (ps : Octets) (long : Bool),
    (i, op, ps, long) ∈ ([(.sysHello q, 0x0101, [], false), (.xferOpen q 0, 0x0105, le 4 0, false), (.bundleCommit q, 0x0112, [], true),
      (.bundleDiscard q, 0x0113, [], false), (.foreignList q, 0x0305, [], false), (.logicAbort q, 0x0609, [], false),
      (.pairFence q, 0x0903, [], false), (.safetyRestart q, 0x0A04, [], true), (.domIdentity q, 0x0B02, [], false),
      (.ageingMeasure q, 0x0C04, [], true), (.measRead q, 0x0B0A, [], false)] : List (Instr × Nat × Octets × Bool)) →
    (s.inTurn q op ps = false → exec i s = .next s) ∧
    (s.inTurn q op ps = true →
    (s.taken q).refusal q op long false = some st →
    (st = if (s.taken q).tmc.jobs.any (fun j => j.op == 0x0112) && !(op == 0x0101) then stBusy
          else if sessSlice q.sess ≠ 0 then stNotPermitted
          else if opGroup op = 0x0A ∧ s.flag F.TMC_MODULE_ID_SAFETY_EN = false then stUnsupported else stBusy) ∧
    exec i s = .next ((s.taken q).answer q op 1 st (detail (groupPage (opGroup op)) 0 0) true (s.takeReq q).1))

/-- The System commands (R445, R448, R453, R454): HELLO names version 1.0, JOBS lists what runs, CANCEL ends a running command
of its own session, RESET is begun 1 to 5 ms after its reply, a warm one unless a cold reset or the start-up after one is
under way, and transfer objects are opened, written, read and closed. The Bundle commands (R459): STAGE is accepted as a long
command over its buffer, ACTIVATE marks PENDING and may ask for the reset, COMMIT needs no bundle committed yet, DISCARD
clears PENDING with its mark, STATUS names both bundles. A write of the slots in a ride-through is deferred: until it is made
the flash holds what it held. The model's own readings and choices that this rests on: log 42, 172, 178, 179, 183, 184, 193,
194, 198. -/
def Obligations.SystemAndBundleCommandsComplete : Prop :=
  (∀ (s : State) (q : Req),
    (Admits s q 0x0101 [] false false → ∃ ps : Octets, ps.take 4 = [1, 0, 1, 0] ∧ Answers (.sysHello q) s q 0x0101 ps (s.taken q)) ∧
    (Admits s q 0x0102 [] false false → ∃ (ps : Octets) (n : Nat), ps.take 2 = le 2 s.tmc.jobs.length ∧
      ps.length = 2 + 15 * s.tmc.jobs.length ∧ Answers (.sysJobs q) s q 0x0102 ps { s.taken q with free := n }) ∧
    (∀ tag, Admits s q 0x0103 (le 2 tag) false false → (s.taken q).cancellable q tag = none →
      ∃ u : State, exec (.sysCancel q tag) s = .next (u.answer q 0x0103 1 stWrongState (detail 0xFF 0 0) true (s.takeReq q).1) ∧
        u = s.taken q) ∧
    (∀ tag j, Admits s q 0x0103 (le 2 tag) false false → s.cancellable q tag = some j →
      let u := s.taken q
      let v := { u with tmc := { u.tmc with jobs := u.tmc.jobs.filter (fun k => k != j) } }.undoJob j.op
      exec (.sysCancel q tag) s = .next ((v.answer q 0x0103 1 stOk [] true (s.takeReq q).1).answer j.q j.op 3 stCancelled
        (detail (groupPage j.group) 0 0) true j.deliver)) ∧
    (Admits s q 0x0104 (le 1 0) false false →
      Answers (.sysReset q 0) s q 0x0104 [] (if s.sup.inCold = true ∨ s.sup.warmFrom = false ∧ s.get F.TMC_START_STATUS_PHASE < 6
        then s.taken q else (s.taken q).resetAt 0)) ∧
    (Admits s q 0x0104 (le 1 1) false false → Answers (.sysReset q 1) s q 0x0104 [] ((s.taken q).resetAt 8)) ∧
    (∀ c, ∃ at_, ((s.resetAt c).tmc.resetDue = s.tmc.resetDue ++ [(c, at_)]) ∧ s.now + ms 1 ≤ at_ ∧ at_ ≤ s.now + ms 5) ∧
    (∀ size, Admits s q 0x0105 (le 4 size) false false → size ≤ 2 ^ 30 → s.tmc.xfer.length < 4 → s.flashOk = true →
      let u := s.taken q
      Answers (.xferOpen q size) s q 0x0105 (le 8 (s.tmc.handles + 1))
        { u with tmc := { u.tmc with handles := s.tmc.handles + 1, xfer := Tbl.put (s.tmc.handles + 1) ⟨size, []⟩ u.tmc.xfer } }) ∧
    (∀ h off data x, Admits s q 0x0106 (le 8 h ++ le 4 off ++ strOctets data) false false → s.xferOf h = some x → data.length ≤ 16000 → off + data.length ≤ x.size →
      s.xferHeld h = false →
      let u := s.taken q
      Answers (.xferWrite q h off data) s q 0x0106 []
        { u.flashWrite with tmc := { u.tmc with xfer := Tbl.put h (x.write off data) u.tmc.xfer } }) ∧
    (∀ h off len x, Admits s q 0x0107 (le 8 h ++ le 4 off ++ le 2 len) false false → s.xferOf h = some x → len ≤ 16000 → off + len ≤ x.size →
      Answers (.xferRead q h off len) s q 0x0107
        (le 2 len ++ (List.range len).map (fun i => BitVec.ofNat 8 (Tbl.get 0 (off + i) x.data))) (s.taken q)) ∧
    (∀ h x, Admits s q 0x0108 (le 8 h) false false → s.xferOf h = some x → s.xferHeld h = false →
      let u := s.taken q
      Answers (.xferClose q h) s q 0x0108 [] { u with tmc := { u.tmc with xfer := Tbl.del h u.tmc.xfer } })) ∧
  (∀ (s : State) (q : Req),
    (∀ buf b, Admits s q 0x0110 (bufOctets buf) true false → (s.taken q).bufOk q buf = true → s.flashOk = true →
      let u := s.taken q
      Accepts (.bundleStage q buf b) s q 0x0110 0 (heldBy [buf]) { u with tmc := { u.tmc with staging := some (u.bundleIn buf b) } }) ∧
    (∀ r, Admits s q 0x0111 (le 1 r) false false → s.tmc.pending ≠ none → (∀ j ∈ s.tmc.jobs, j.op ≠ 0x0110) →
      let v := (s.taken q).slotWrite (fun c => { c with mark := true })
      (r = 0 → Answers (.bundleActivate q r) s q 0x0111 [] v) ∧ (r = 1 → Answers (.bundleActivate q r) s q 0x0111 [] (v.resetAt 9))) ∧
    (Admits s q 0x0112 [] true false → s.tmc.locked = false → s.tmc.pending ≠ none →
      Accepts (.bundleCommit q) s q 0x0112 0 [] (s.taken q)) ∧
    (Admits s q 0x0113 [] false false → (∀ j ∈ s.tmc.jobs, j.op ≠ 0x0110) →
      Answers (.bundleDiscard q) s q 0x0113 [] ((s.taken q).slotWrite (fun c => { c with pending := none, mark := false }))) ∧
    (∀ f : Tmc → Tmc,
      (s.sup.mode = .rideThrough → (s.slotWrite f).tmc.flash = s.tmc.flash ∧ (s.slotWrite f).get F.PHM_BG_STATUS_FLASH_DEFERRED = 1) ∧
      (s.sup.mode ≠ .rideThrough → (s.slotWrite f).tmc.flash = ⟨(f s.tmc).active, (f s.tmc).pending, (f s.tmc).mark⟩) ∧
      (s.slotWrite f).tmc.active = (f s.tmc).active ∧ (s.slotWrite f).tmc.pending = (f s.tmc).pending) ∧
    (Admits s q 0x0114 [] false false → ∃ ps : Octets, ps.length = 18 ∧
      ps.take 10 = le 4 ((s.tmc.active.map bundleIdOf).getD 0) ++ le 4 ((s.tmc.pending.map bundleIdOf).getD 0) ++
        [BitVec.ofNat 8 (b2n s.tmc.mark), BitVec.ofNat 8 (b2n s.tmc.fallback)] ∧
      Answers (.bundleStatus q) s q 0x0114 ps (s.taken q)))

/-- The Slice commands (R347, R348, R350 to R353): each with the states it starts from and the state it leads to. SLICE_SHARE,
SLICE_PV and SLICE_STATUS (R350 to R356): shares and windows are written into the slice's entry; a tenant may read its own
status, and CLEAR zeroes the counts of STAT. The model's own readings and choices that this rests on: log 137, 138, 139, 140,
142, 143, 183, 250. -/
def Obligations.SliceCommandsComplete : Prop :=
  (∀ (s : State) (q : Req) (n : Nat), n < 128 →
    (∀ p : SliceParams, p.slice = n → Admits s q 0x0201 (sliceOctets p) false false → Sys2Proof.Machine.SliceParams.ok p = true → s.sliceState n = 0 →
      slProfile (s.sltEnt 0 n) = true → (∀ x ∈ p.pasids, s.boundSlice x = none) → p.pasids.Nodup →
      (∀ b ∈ p.windows, s.windowOk n b = true) → p.pasids.length ≤ s.pasidFree → p.windows.length ≤ s.dwinFree →
      p.inflight ≤ s.creditFree →
      ∃ t : State, Answers (.sliceCreate q p) s q 0x0201 [] (t.toSliceState n 1 0) ∧ t.tmc = (s.taken q).tmc ∧ t.mem = s.mem) ∧
    (∀ k base r, Admits s q 0x0202 (le 4 n ++ le 4 k ++ le 8 base) false false → s.localRing n k = some r → s.sliceState n = 1 ∨ s.sliceState n = 4 →
      base % 4096 = 0 → s.dramOwned n base (rgSize (s.sltEnt 2 r) * 32) = true →
      let u := s.taken q
      Answers (.sliceRing q n k base) s q 0x0202 []
        ((u.setSltEnt 2 r (listSet 0 1 base (u.sltEnt 2 r))).modRing r (fun g => { g with placed := true }))) ∧
    (∀ add pasid, Admits s q 0x0203 (le 4 n ++ flagOctets add ++ le 4 pasid) false false → pasid < 2 ^ 20 → s.sliceState n ≠ 0 →
      s.sliceState n ≠ 3 →
      let own := (s.sltAll 1).filter (fun p => seValid p.2 && seSlice p.2 == n)
      (add = true → s.boundSlice pasid = none → own.length < 32 → s.pasidFree ≠ 0 →
        Answers (.sliceBind q n add pasid) s q 0x0203 [] ((s.taken q).bindPasid n pasid)) ∧
      (∀ p, add = false → own.find? (fun p => bdPasid p.2 == pasid) = some p → 1 < own.length ∨ n = 0 →
        Answers (.sliceBind q n add pasid) s q 0x0203 [] ((s.taken q).setSltEnt 1 p.1 []))) ∧
    (∀ add pasid, Admits s q 0x0203 (le 4 n ++ flagOctets add ++ le 4 pasid) false false → pasid < 2 ^ 20 → s.sliceState n = 3 →
      exec (.sliceBind q n add pasid) s =
        .next ((s.taken q).answer q 0x0203 1 stBusy (detail 0x03 0 n) true (s.takeReq q).1)) ∧
    (Admits s q 0x0204 (le 4 n) false false → n ≠ 0 →
      let u := s.taken q
      (s.sliceState n = 1 → (∀ r ∈ s.ringsOf n, (s.ring r).placed = true) →
        Answers (.sliceStart q n) s q 0x0204 [] (((((u.ringsTo n 1).ringPubs n true).modeReq (1 + n)
          (soInit (u.slpEnt 0 (1 + n))) false).statusBit n true).toSliceState n 2 0)) ∧
      (s.sliceState n = 4 → Answers (.sliceStart q n) s q 0x0204 [] (((u.ringsTo n 1).statusBit n true).toSliceState n 2 0))) ∧
    (Admits s q 0x0205 (le 4 n) true false → n ≠ 0 → s.sliceState n = 2 →
      let v := ((s.taken q).ringsTo n 2).statusBit n false
      Accepts (.sliceQuiesce q n) s q 0x0205 n [] ((v.modSlice n (fun x => { x with quiesceAt := v.now })).toSliceState n 3 0)) ∧
    (Admits s q 0x0206 (le 4 n) false false → n ≠ 0 → s.sliceState n ≠ 0 →
      Answers (.sliceReset q n) s q 0x0206 [] ((s.taken q).sliceReset n 1)) ∧
    (Admits s q 0x0207 (le 4 n) false false → n ≠ 0 → s.sliceState n ≠ 0 →
      Answers (.sliceRemove q n) s q 0x0207 [] ((s.taken q).sliceRemove n)) ∧
    (Admits s q 0x0208 (le 4 n) false false → n ≠ 0 → s.sliceState n ∈ [2, 3, 4] →
      Answers (.sliceFault q n) s q 0x0208 [] ((s.taken q).sliceToFaulted n 0))) ∧
  (∀ (s : State) (q : Req) (n : Nat), n < 128 →
    (∀ fl wt, Admits s q 0x0209 (le 4 n ++ le 2 fl ++ le 1 wt) false false → 1 ≤ fl → fl ≤ 16384 → 1 ≤ wt → wt ≤ 255 → s.sliceState n ≠ 0 → s.sliceState n ≠ 3 →
      fl ≤ slInflight (s.sltEnt 0 n) ∨ max fl (s.slice n).inflightNow - s.charge n ≤ s.creditFree →
      let u := s.taken q
      Answers (.sliceShare q n fl wt) s q 0x0209 []
        (u.setSltEnt 0 n (listSet 0 1 (putBits 39 24 fl (putBits 23 16 wt (word (u.sltEnt 0 n) 1))) (u.sltEnt 0 n)))) ∧
    (∀ en lats, Admits s q 0x020A (le 4 n ++ flagOctets en ++ le 1 lats) false false → lats < 16 → s.sliceState n ≠ 0 → s.sliceState n ≠ 3 → slPvAllow (s.sltEnt 0 n) = true →
      let u := s.taken q
      Answers (.slicePv q n en lats) s q 0x020A []
        (u.setSltEnt 0 n (listSet 0 0 (putBits 50 50 (b2n en) (putBits 49 46 lats (word (u.sltEnt 0 n) 0))) (u.sltEnt 0 n)))) ∧
    (∀ clear, Admits s q 0x020B (flagOctets clear ++ le 4 n) false (n == sessSlice q.sess) →
      let u := s.taken q
      let v := u.sltView 0 n
      Answers (.sliceStatus q clear n) s q 0x020B (wordsOctets ([word v 0, word v 1, word v 2] ++ u.sliceStat n))
        (if clear then u.sliceStatClear n else u)))

/-- The Stream commands (R152 to R156): ADD fills the lowest FREE context after its checks, REMOVE and MODE act on one that is
not FREE, STATUS and FOREIGN_LIST read, FOREIGN_CLEAR frees one entry or all. The Lattice, Phasor and Guard commands (R186,
R188, R231, R235): status with CLEAR, speculation, tolerances, and a guard's parameters, enable and status. The model's own
readings and choices that this rests on: log 88, 90, 91, 96, 101, 104, 183, 233, 234. -/
def Obligations.StreamLatticeAndGuardCommandsComplete : Prop :=
  (∀ (s : State) (q : Req) (i : Nat),
    (∀ w maps, Admits s q 0x0301 (w.flatMap (le 8) ++ listOctets (le 8) maps) false false → (List.range 4096).find? (fun k => (s.ctx k).health == hFree) = some i →
      let u := s.taken q
      let t := maps.zipIdx.foldl (fun (s : State) m => s.setMap (cxMapBase w + m.2) m.1) u
      w.length = 6 → maps.length = cxMapLen w → ctxReservedOk w = true → cxValid w = true → (∀ m ∈ maps, m < 2 ^ 32) →
      (cxGoose w = false → ∀ m ∈ maps, bit 30 m = false ∧ bits 13 0 m = 0) → (cxGoose w = true → ∀ m ∈ maps, bits 21 16 m = 0) →
      (∀ j < maps.length, u.mapUsed (cxMapBase w + j) = false) → t.ctxOk i w = true → t.ctxTimely w = true → t.ctxFits i w = true →
      Answers (.streamAdd q w maps) s q 0x0301 (le 4 i) (t.ctxInstall i w)) ∧
    (i < 4096 → (s.ctx i).health ≠ hFree → (s.ctx i).health ≠ hRetiring → Admits s q 0x0302 (le 4 i) false false →
      Answers (.streamRemove q i) s q 0x0302 [] ((s.taken q).ctxRemove i)) ∧
    (i < 4096 → (s.ctx i).health ≠ hFree → ∀ sim test, Admits s q 0x0303 (le 4 i ++ flagOctets sim ++ flagOctets test) false false →
      Answers (.streamMode q i sim test) s q 0x0303 [] ((s.taken q).ctxMode i sim test)) ∧
    (i < 4096 → ∀ clear, Admits s q 0x0304 (flagOctets clear ++ le 4 i) false false →
      let u := s.taken q
      Answers (.streamStatus q clear i) s q 0x0304 (wordsOctets (u.ctxWords i ++ u.ctxStat i)) (if clear then u.ctxStatClear i else u)) ∧
    (Admits s q 0x0305 [] false false →
      Answers (.foreignList q) s q 0x0305 (listOctets (fun p : Nat × ForeignEntry => wordsOctets (ForeignEntry.words p.2))
        (s.ing.foreign.filter (fun p => p.2.valid))) (s.taken q)) ∧
    (i = 0x7FFF ∨ i < 256 → Admits s q 0x0306 (le 4 i) false false →
      Answers (.foreignClear q i) s q 0x0306 [] ((s.taken q).foreignFree i))) ∧
  (∀ (s : State) (q : Req) (l : Nat),
    (l < 4 → ∀ clear, Admits s q 0x0401 (flagOctets clear ++ le 4 l) false false →
      ∃ ps : Octets, ps.length = 148 ∧ ps.drop 20 = (s.taken q).cntOctets F.SLE_LAT_CNT_COUNT (16 * l) 16 ∧
        Answers (.latticeStatus q clear l) s q 0x0401 ps ((s.taken q).clearCnt F.SLE_LAT_CNT_COUNT (16 * l) 16 clear)) ∧
    (l < 4 → ∀ en, Admits s q 0x0402 (le 4 l ++ flagOctets en) false false →
      Answers (.latticeSpec q l en) s q 0x0402 [] ((s.taken q).setB (F.SLE_LAT_CFG_SPEC_EN.nth l) en)) ∧
    (l < 4 → ∀ i v r, Admits s q 0x0403 (le 4 l ++ le 2 i ++ le 1 v ++ le 1 r) false false → i < 65536 → v < 256 → r < 256 →
      Answers (.latticeTol q l i v r) s q 0x0403 []
        ((((s.taken q).setF (F.SLE_LAT_TOL_TOL_I.nth l) i).setF (F.SLE_LAT_TOL_TOL_V.nth l) v).setF (F.SLE_LAT_TOL_TOL_REL.nth l) r)) ∧
    (∀ clear, Admits s q 0x0404 (flagOctets clear) false false →
      ∃ ps : Octets, ps.length = 320 ∧ ps.drop 256 = (s.taken q).cntOctets F.PHE_CNT_COUNT 0 8 ∧
        Answers (.phasorStatus q clear) s q 0x0404 ps ((s.taken q).clearCnt F.PHE_CNT_COUNT 0 8 clear)) ∧
    (∀ g d, Admits s q 0x0501 (le 4 g ++ d.flatMap (le 8)) false false → g < 4096 → d.length = 5 → wbits d 0 35 32 = 0 → wbits d 4 47 0 = 0 →
      gdParamOk (gdParam (s.gcmWords g) d) = true →
      Answers (.guardSet q g d) s q 0x0501 [] ((s.taken q).gcmFrom g (gdParam (s.gcmWords g) d))) ∧
    (∀ g en, Admits s q 0x0502 (le 4 g ++ flagOctets en) false false → g < 4096 →
      Answers (.guardEnable q g en) s q 0x0502 []
        ((s.taken q).gcmFrom g (putBits 63 63 (b2n en) (word (s.gcmWords g) 0) :: (s.gcmWords g).drop 1))) ∧
    (∀ g, Admits s q 0x0503 (le 4 g) false false → g < 4096 →
      let u := s.taken q
      let r := match (u.guardLat g).bind u.gcmConfN with
        | some n => (Tbl.get ({} : GRec) g u.gcm.confRec).words n
        | none => [0, 0]
      Answers (.guardStatus q g) s q 0x0503
        (wordsOctets (u.gcmWords g ++ [place 55 32 (wbits r 1 55 32) + place 7 6 (wbits r 1 7 6)] ++ r)) u))

/-- The Logic commands (R260, R262, R264 to R267, R269): reads, modes from the next cycle on, presets and limits that the
program uses, forces where FORCE_ALLOW lets them, and the load, swap and abort of a program where ONLINE_ALLOW does. The
model's own readings and choices that this rests on: log 112, 113, 117, 118, 119, 120, 122, 183. -/
def Obligations.LogicCommandsComplete : Prop :=
  ∀ (s : State) (q : Req) (k : Nat), k < 129 →
    (∀ clear, Admits s q 0x0601 (flagOctets clear ++ le 4 k) false (k == 1 + sessSlice q.sess) →
      ∃ (ps : Octets) (t : State), Answers (.logicStatus q clear k) s q 0x0601 ps t ∧ (clear = false → t = s.taken q) ∧
        t.slp = s.slp ∧ t.mem = s.mem) ∧
    (∀ ops, Admits s q 0x0602 (listOctets (fun o => le 1 o.1 ++ le 4 o.2) ops) false (ops.all (s.readItemAllowed q)) → ops.length ≤ 256 → (∀ o ∈ ops, readItemOk o = true) →
      ∃ ps : Octets, ps.take 2 = le 2 ops.length ∧ Answers (.logicRead q ops) s q 0x0602 ps (s.taken q)) ∧
    (∀ mode, Admits s q 0x0603 (le 4 k ++ le 1 mode) false (k == 1 + sessSlice q.sess && slSelfMode (s.sltEnt 0 (sessSlice q.sess))) → mode < 3 →
      s.hasProg k = true → mode ≠ 1 ∨ s.slp.faults.contains k = false ∨ s.lastMode k ≠ 0 →
      Answers (.logicMode q k mode) s q 0x0603 [] ((s.taken q).modeReq k mode false)) ∧
    (∀ ctr vals, Admits s q 0x0604 (le 4 k ++ flagOctets ctr ++ listOctets (fun v => le 4 v.1 ++ le 4 v.2) vals) false false →
      let n := s.nextCycle (soClass (s.slpEnt 0 k))
      let ws := s.progWords (s.progAt k n)
      (∀ v ∈ vals, v.1 < slpSize (if ctr then 3 else 2) ∧ v.2 < 2 ^ 32 ∧
        (if ctr then usesOf 0x1B 0x1D ws else usesOf 0x16 0x1A ws).contains v.1 = true) →
      Answers (.logicParam q k ctr vals) s q 0x0604 []
        (vals.foldl (fun (s : State) v => s.setPrm (if ctr then 3 else 2) v.1 n v.2) (s.taken q))) ∧
    (∀ sp ix v, Admits s q 0x0605 (le 4 ix ++ le 1 sp ++ flagOctets v) false false → s.flag F.SLP_CTL_FORCE_ALLOW = true → forceable sp = true → ix < spaceSize sp →
      Tbl.has (forceKey sp ix) s.slp.forces = true ∨ s.slp.forces.length < 1024 →
      Answers (.logicForce q sp ix v) s q 0x0605 [] ((s.taken q).setForce sp ix (1 + b2n v))) ∧
    (∀ sp ix, Admits s q 0x0606 (le 4 ix ++ le 1 sp) false false → sp < 10 → ix < spaceSize sp → Tbl.has (forceKey sp ix) s.slp.forces = true →
      Answers (.logicUnforce q sp ix) s q 0x0606 [] ((s.taken q).setForce sp ix 0)) ∧
    (∀ buf p, Admits s q 0x0607 (le 4 k ++ bufOctets buf) true false → s.flag F.SLP_CTL_ONLINE_ALLOW = true → s.bufOk q buf = true → s.slp.staged = none →
      Accepts (.logicLoad q k buf p) s q 0x0607 k (heldBy [buf]) ((s.taken q).setStaged (some ⟨k, p, 0, 1, 0⟩))) ∧
    (∀ p, Admits s q 0x0608 (le 4 k) false false → s.flag F.SLP_CTL_ONLINE_ALLOW = true → s.slp.staged = some p → p.stage = 2 → p.slot = k →
      let n := s.nextCycle (soClass (s.slpEnt 0 k))
      let u := p.prog.limits.foldl (fun (s : State) v => s.setPrm 3 v.1 n v.2)
        (p.prog.presets.foldl (fun (s : State) v => s.setPrm 2 v.1 n v.2) (s.taken q))
      Answers (.logicSwap q k) s q 0x0608 []
        ({ u with slp := { u.slp with faults := u.slp.faults.filter (fun j => j != k) } }.setStaged (some { p with stage := 3, swapAt := n }))) ∧
    (∀ p, Admits s q 0x0609 [] false false → s.slp.staged = some p → p.stage = 2 →
      Answers (.logicAbort q) s q 0x0609 []
        (((List.range p.prog.words.length).foldl (fun (s : State) j => s.setSlpEnt 5 (p.base + j) []) (s.taken q)).setStaged none))

/-- The Publication and Record commands (R293 to R295, R308, R310, R316, R322 to R324): status with CLEAR, ENABLE and MODE of
a VALID publication; ARM of an IDLE instance, DISARM and TRIGGER of one that is not, RELEASE of a COMMITTED buffer, the list
of directories, and an export accepted over its buffers. The model's own readings and choices that this rests on: log 126,
128, 132, 133, 134, 135, 136, 183, 241, 245, 248. -/
def Obligations.PublicationAndRecordCommandsComplete : Prop :=
  ∀ (s : State) (q : Req) (i : Nat),
    (i < pubCount → ∀ clear, Admits s q 0x0701 (flagOctets clear ++ le 4 i) false (s.pubOwned (sessSlice q.sess) i) →
      ∃ ps : Octets, ps.take 32 = (List.range 4).flatMap (fun k => le 8 (word (s.pubEnt i) k)) ∧
        Answers (.pubStatus q clear i) s q 0x0701 ps ((s.taken q).clearCnt F.PUB_CNT_COUNT 0 8 clear)) ∧
    (i < pubCount → pbValid (s.pubEnt i) = true → ∀ en, Admits s q 0x0702 (le 4 i ++ flagOctets en) false false →
      Answers (.pubEnable q i en) s q 0x0702 [] ((s.taken q).pubEnableSet i en).pubFlush) ∧
    (i < pubCount → pbValid (s.pubEnt i) = true → ∀ sim test, Admits s q 0x0703 (le 4 i ++ flagOctets sim ++ flagOctets test) false false →
      Answers (.pubMode q i sim test) s q 0x0703 [] ((s.taken q).pubModeSet i (b2n sim) (b2n test))) ∧
    (i < 64 →
      let ten := s.recOwned (sessSlice q.sess) i
      (∀ clear, Admits s q 0x0801 (flagOctets clear ++ le 4 i) false ten →
        Answers (.recStatus q clear i) s q 0x0801
          (((s.taken q).recStatWords i).flatMap (le 8) ++ (s.taken q).cntOctets F.DRE_CNT_COUNT 0 10)
          ((s.taken q).clearCnt F.DRE_CNT_COUNT 0 10 clear)) ∧
      (Admits s q 0x0802 (le 4 i) false ten → dvValid (s.dreEnt 0 i) = true →
        Answers (.recList q i) s q 0x0802
          (listOctets (fun k => (s.rdWords (dirAddr (s.dreEnt 0 i) k) 16).flatMap (le 8)) (List.range (dvNbuf (s.dreEnt 0 i))))
          (s.taken q)) ∧
      (Admits s q 0x0803 (le 4 i) false ten → dvValid (s.dreEnt 0 i) = true → (s.recOf i).state = 0 →
        Answers (.recArm q i) s q 0x0803 [] ((s.taken q).recArmNow i)) ∧
      (Admits s q 0x0804 (le 4 i) false ten → dvValid (s.dreEnt 0 i) = true → (s.recOf i).state ≠ 0 →
        Answers (.recDisarm q i) s q 0x0804 [] ((s.taken q).recDisarmNow i)) ∧
      (Admits s q 0x0805 (le 4 i) false ten → dvValid (s.dreEnt 0 i) = true → (s.recOf i).state ≠ 0 →
        Answers (.recTrigger q i) s q 0x0805 []
          ((s.taken q).modRec i (fun x => { x with manual := x.manual ++ [(s.lattice (dvLat (s.dreEnt 0 i))).next] }))) ∧
      (∀ k, Admits s q 0x0806 (le 4 i ++ flagOctets false ++ le 4 k) false ten → dvValid (s.dreEnt 0 i) = true → k < dvNbuf (s.dreEnt 0 i) →
        s.dirState (s.dreEnt 0 i) k = 3 → s.exportHolds i k = false →
        Answers (.recRelease q i (some k)) s q 0x0806 [] ((s.taken q).recReleaseBuf i k)) ∧
      (Admits s q 0x0806 (le 4 i ++ flagOctets true ++ le 4 0) false ten → dvValid (s.dreEnt 0 i) = true →
        let ks := (List.range (dvNbuf (s.dreEnt 0 i))).filter (fun k => s.dirState (s.dreEnt 0 i) k == 3)
        (∀ k ∈ ks, s.exportHolds i k = false) →
        Answers (.recRelease q i none) s q 0x0806 [] (ks.foldl (fun (s : State) k => s.recReleaseBuf i k) (s.taken q)))) ∧
    (∀ fmt cfg dat recs, Admits s q 0x0807 (le 1 fmt ++ bufOctets cfg ++ bufOctets dat ++ listOctets srcOctets recs) true (s.exportOwned (sessSlice q.sess) recs) → exportOk fmt recs.length = true →
      s.bufOk q dat = true → fmt = 2 ∨ s.bufOk q cfg = true → recs.findSome? ((s.taken q).recSrcFail q) = none →
      let u := s.taken q
      Accepts (.recExport q fmt cfg dat recs) s q 0x0807 0
        (heldBy ([cfg, dat] ++ recs.filterMap (fun (r : RecSrc) => match r with | .raw b => some b | _ => none)))
        { u with tmc := { u.tmc with exp := some ⟨fmt, cfg, dat, recs⟩ } })

/-- The Pair commands (R370, R364, R382, R497): SWITCH waits for its outcome, FENCE fences with COMMAND unless a FAULT stands,
RELEASE ends a COMMAND fence, ALONE is taken by a Fenced, ready module whose peer was not sending lately. The Safety commands
(R391, R393, R398, R400, R407): status on any module; an acknowledgement resets a latched instance whose inputs allow it; a
proof test of an output that is off, and a restart of the island, are accepted as long commands. The model's own readings and
choices that this rests on: log 147, 152, 156, 160, 161, 183. -/
def Obligations.PairAndSafetyCommandsComplete : Prop :=
  (∀ (s : State) (q : Req),
    (∀ clear, Admits s q 0x0901 (flagOctets clear) false false → ∃ ps : Octets, ps.length = 192 ∧
      Answers (.pairStatus q clear) s q 0x0901 ps
        (((s.taken q).clearCnt F.PRC_CNT_COUNT 0 16 clear).clearCnt F.PRC_CIC_CNT_COUNT 0 4 clear)) ∧
    (Admits s q 0x0902 [] false false → s.switchOk = true →
      let u := s.taken q
      exec (.pairSwitch q) s = .next { u with prc := { u.prc with armed := true, switchReq := some q } }) ∧
    (Admits s q 0x0902 [] false false → s.switchOk = false →
      exec (.pairSwitch q) s =
        .next ((s.taken q).answer q 0x0902 1 stWrongState (detail 0x0E 0 0) true (s.takeReq q).1)) ∧
    (Admits s q 0x0903 [] false false → ¬(s.role = 3 ∧ s.get F.PRC_STATUS_FENCE_REASON = 5) →
      Answers (.pairFence q) s q 0x0903 [] ((s.taken q).fence 4)) ∧
    (Admits s q 0x0903 [] false false → s.role = 3 → s.get F.PRC_STATUS_FENCE_REASON = 5 →
      Answers (.pairFence q) s q 0x0903 [] (s.taken q)) ∧
    (Admits s q 0x0904 [] false false → s.role = 3 → s.get F.PRC_STATUS_FENCE_REASON = 4 →
      Answers (.pairRelease q) s q 0x0904 [] ((s.taken q).setF F.PRC_STATUS_FENCE_REASON 1).singleAlone) ∧
    (Admits s q 0x0905 [] false false → s.role = 3 → s.get F.PRC_STATUS_FENCE_REASON ≠ 5 → s.ready = true →
      (∀ t, s.prc.lastSending = some t → t + s.lossTime < s.now) →
      Answers (.pairAlone q) s q 0x0905 [] ((s.taken q).takeSending 2 false))) ∧
  (∀ (s : State) (q : Req),
    (∀ clear, Admits s q 0x0A01 (flagOctets clear) false false →
      ∃ (ps : Octets) (t : State), Answers (.safetyStatus q clear) s q 0x0A01 ps t ∧ (clear = false → t = s.taken q) ∧
        t.psc = s.psc ∧ t.mem = s.mem) ∧
    (∀ i, Admits s q 0x0A02 (le 4 i) false false → s.ist = 4 → i < 16 → s.flag (F.PSC_FUNC_CFG_EN.nth i) = true →
      s.get (F.PSC_FUNC_CFG_RESET_MODE.nth i) = 2 →
      (s.fnClosed i = true → Answers (.safetyAck q i) s q 0x0A02 []
        ((s.taken q).modPsc (fun p => { p with fns := Tbl.mod {} i (fun f => { f with latched := false }) p.fns }))) ∧
      (s.fnClosed i = false → Answers (.safetyAck q i) s q 0x0A02 [] (s.taken q))) ∧
    (∀ i, Admits s q 0x0A02 (le 4 (20 + i)) false false → s.ist = 4 → i < 4 → s.flag (F.PSC_ARC_INST_CFG_EN.nth i) = true →
      s.get (F.PSC_ARC_INST_CFG_RESET_MODE.nth i) = 2 →
      (s.arcLight i = false → Answers (.safetyAck q (20 + i)) s q 0x0A02 []
        ((s.taken q).modPsc (fun p => { p with arcLatched := putBits i i 0 p.arcLatched }))) ∧
      (s.arcLight i = true → Answers (.safetyAck q (20 + i)) s q 0x0A02 [] (s.taken q))) ∧
    (∀ k, Admits s q 0x0A03 (le 4 k) true false → k < 4 → s.ist = 4 → (s.sout k).on = false → s.psc.proof = none → s.psc.mustProof = false →
      s.flag (F.PSC_OUT_CFG_EN.nth k) = true →
      Accepts (.safetyProof q k) s q 0x0A03 k []
        ((s.taken q).modPsc (fun p => { p with proof := some .command, proofK := k, proofStep := 0, proofOk := none, proofAt := p.time, proofLow := false }))) ∧
    (Admits s q 0x0A04 [] true false → s.islandOn = true →
      Accepts (.safetyRestart q) s q 0x0A04 0 [] (s.taken q).islandStart))

/-- The key commands of a READY Dome (R411, R413 to R421, R428, R435): a node is created under a live ROOT or DERIVE node,
destroyed, described; keys are put through a live TRANSPORT node or agreed into a new one; an anchor is set by a signature
under an old one. The model's own readings and choices that this rests on: log 15, 164, 166, 168, 171, 183, 255, 256. -/
def Obligations.KeyCommandsComplete : Prop :=
  ∀ (s : State) (q : Req) (i : Nat), s.dstate = 1 → reqInBox s q = true →
    (∀ kind parent, Admits s q 0x0B03 (le 4 i ++ le 1 kind ++ le 4 parent) false false → 16 ≤ i → i < 8192 → parent < 8192 → kind = 2 ∨ kind = 3 ∨ kind = 4 →
      (s.node i).kind = 0 → s.doomed 7 i = false → s.nodeLive parent = true → (s.node parent).kind = 1 ∨ (s.node parent).kind = 2 →
      (s.node parent).depth < 6 →
      Answers (.keyCreate q i kind parent) s q 0x0B03 []
        ((s.taken q).modNode i (fun n => { gen := n.gen, kind, parent, depth := (s.node parent).depth + 1 }))) ∧
    (Admits s q 0x0B04 (le 4 i) false false → i < 8192 → i ≠ 0 → i ≠ 1 → i ≠ 3 → (s.node i).kind ≠ 0 → s.doomed 7 i = false →
      let u := s.taken q
      let t := u.keysFollow (u.destroyNode i)
      Answers (.keyDestroy q i) s q 0x0B04 [] (if i = 2 then t.extendMs 6 (Config.eventDigest 6 [(s.node 2).gen]) else t)) ∧
    (∀ fmt group (map : List (Nat × Nat)) (blob : SealedKeys) keys, Admits s q 0x0B05 (le 1 fmt ++ le 4 group ++ le 4 i ++ listOctets (fun (m : Nat × Nat) => le 4 m.1 ++ le 4 m.2) map ++
        strOctets (ofNats (blob.iv ++ blob.body))) false false → s.blobOpens fmt i blob keys = true → fmt ≤ 1 → map.length ≤ 16 → i < 8192 →
      fmt = 1 ∨ (group < 8192 ∧ keys.length = 1) → s.nodeLive i = true → (s.node i).kind = 6 →
      let u := s.taken q
      let r := keys.foldl (fun (a : Option (Nat × Nat) × State) (b : KeyBlob) =>
        let x := a.2.installKey (if fmt = 0 then some group else (map.find? (fun m => m.1 == b.spi)).map (·.2)) b
        (a.1.orElse (fun _ => x.1.map (fun st => (st, b.spi))), x.2)) (none, u)
      r.1 = none → Answers (.keyPut q ⟨fmt, group⟩ i map blob true keys) s q 0x0B05 [] (u.keysFollow r.2)) ∧
    (∀ group (blob : SealedKeys) (b : KeyBlob), Admits s q 0x0B05 (le 1 0 ++ le 4 group ++ le 4 i ++ listOctets (fun (m : Nat × Nat) => le 4 m.1 ++ le 4 m.2) [] ++
        strOctets (ofNats (blob.iv ++ blob.body))) false false →
      blob.body = Config.sealKeys 0 (s.nodeKey 7 i % 2 ^ 256) blob.iv [b] → i < 8192 → group < 8192 → s.nodeLive i = true → (s.node i).kind = 6 →
      s.nodeLive group = true → (s.node group).kind = 4 → 1 ≤ b.alg → b.alg ≤ 5 → b.key.length = 32 → 1 ≤ b.lifetime → b.lifetime < 2 ^ 31 →
      (s.node group).cur = none → (s.node group).nxt = none → s.flag F.TBU_STATUS_TIME_VALID = false →
      let u := s.taken q
      Answers (.keyPut q ⟨0, group⟩ i [] blob true [b]) s q 0x0B05 [] (u.keysFollow
        ((u.modKeys group (fun n => { n with cur := some ⟨b.alg, b.keyId, b.key, b.start, b.lifetime⟩ })).bump (F.DOM_CNT_COUNT.nth 2)))) ∧
    (∀ signer peer info, Admits s q 0x0B06 (le 4 i ++ le 4 signer ++ le 97 peer ++ strOctets (ofNats info)) false false → 16 ≤ i → i < 8192 → signer < 8192 → (s.node i).kind = 0 →
      s.doomed 7 i = false → s.nodeLive 2 = true → s.nodeLive signer = true → (s.node signer).kind = 3 → signer ≠ 1 →
      let u := s.taken q
      let d := u.freeVal 384 % (p384n - 1) + 1
      let pub := octs 97 (Config.ecPublic d)
      let key := Config.hkdf (Config.ecdh d peer) "" info % 2 ^ 384
      let t := u.drawn.modKeys i (fun n => { gen := n.gen, kind := 6, parent := 2, depth := 2, key })
      Answers (.keyAgree q i signer peer info) s q 0x0B06 (le 4 0x8000 ++ le 4 193)
        (t.wrOctets (domeBase + 0x8000) (ofNats (pub ++ octs 96 (Config.ecSign (u.drawn.signKey signer) pub))))) ∧
    (Admits s q 0x0B07 (le 4 i) false false → i < 8192 →
      ∃ ps : Octets, ps.take 1 = le 1 (s.node i).kind ∧ Answers (.keyInfo q i) s q 0x0B07 ps (s.taken q)) ∧
    (∀ pub usage stmt sig, Admits s q 0x0B08 (le 4 i ++ le 97 pub ++ le 1 usage ++ strOctets (ofNats stmt) ++ le 96 sig) false false → 4 ≤ i → i ≤ 6 → usage < 4 → s.doomed 7 i = false →
      (∀ j ∈ [4, 5, 6], s.nodeLive j = false) ∨ (∃ k ∈ s.anchors 0 [4, 5, 6], Config.ecVerify k stmt sig = true) →
      Answers (.anchorSet q i pub usage stmt sig) s q 0x0B08 []
        (((s.taken q).modNode i (fun n => { gen := n.gen, kind := 5, depth := 1, key := pub, usage,
                                            mac := Config.hmac384 s.dom.anchorKey [i, pub, usage] })).extendMs 7
          (Config.eventDigest 7 [i, pub, usage])))

/-- Identity, measurement, attestation and debug (R411, R412, R423 to R427, R430 to R433): results go to the response area of
the Dome mailbox; MS8 to MS31 are extended; a challenge is drawn freely; an accepted token opens the port for good. The
model's own readings and choices that this rests on: log 15, 164, 165, 166, 167, 169, 183, 254, 256. -/
def Obligations.AttestationCommandsComplete : Prop :=
  ∀ (s : State) (q : Req),
    (∀ clear, Admits s q 0x0B01 (flagOctets clear) false false → ∃ ps : Octets, ps.length = 2176 ∧
      Answers (.domStatus q clear) s q 0x0B01 ps ((s.taken q).clearCnt F.DOM_CNT_COUNT 0 8 clear)) ∧
    (s.dstate = 1 → reqInBox s q = true → Admits s q 0x0B02 [] false false →
      let o := ofNats (octs 97 s.dom.dikPub ++ octs 48 s.dikFp) ++ Config.dikCert
      Answers (.domIdentity q) s q 0x0B02 (le 4 0x8000 ++ le 4 o.length) ((s.taken q).wrOctets (domeBase + 0x8000) o)) ∧
    (s.dstate = 1 → reqInBox s q = true → ∀ i d, Admits s q 0x0B09 (le 4 i ++ le 48 d) false false → 8 ≤ i → i < 32 →
      Answers (.measExtend q i d) s q 0x0B09 [] ((s.taken q).extendMs i d)) ∧
    (Admits s q 0x0B0A [] false false →
      Answers (.measRead q) s q 0x0B0A ((List.range 32).flatMap (fun i => le 48 (s.msSlot i).1 ++ le 4 (s.msSlot i).2)) (s.taken q)) ∧
    (s.dstate = 1 → reqInBox s q = true → s.nodeLive 7 = true → ∀ nonce mask, Admits s q 0x0B0B (strOctets nonce ++ le 4 mask) false false →
      nonce ≠ [] → nonce.length ≤ 64 → mask < 2 ^ 32 →
      let u := s.taken q
      let b := u.quoteBody nonce mask
      Answers (.attestQuote q nonce mask) s q 0x0B0B (le 4 0x8000 ++ le 4 (b.length + 96))
        ((u.bump (F.DOM_CNT_COUNT.nth 5)).wrOctets (domeBase + 0x8000)
          (ofNats (b ++ octs 96 (Config.ecSign (u.signKey 7) b))))) ∧
    (s.dstate = 1 → reqInBox s q = true → s.nodeLive 7 = true → Admits s q 0x0B0C [] false false →
      Answers (.attestAkCert q) s q 0x0B0C (le 4 0x8000 ++ le 4 s.dom.akStmt.length)
        ((s.taken q).wrOctets (domeBase + 0x8000) (ofNats s.dom.akStmt))) ∧
    (s.dstate = 1 → reqInBox s q = true → Admits s q 0x0B0D [] false false →
      let u := s.taken q
      Answers (.debugChallenge q) s q 0x0B0D (le 32 (u.freeVal 256))
        { u.drawn with dom := { u.dom with challenge := some (u.freeVal 256, u.now) } }) ∧
    (s.dstate = 1 → reqInBox s q = true → ∀ enMs token ch at_ sig signer fuseOk k, Admits s q 0x0B0E (strOctets (ofNats token) ++ le 96 sig ++ le 4 signer) true false → 100 ≤ enMs →
      s.get F.PRC_STATUS_ROLE = 3 → s.dom.fuses < 32 → s.dom.challenge = some (ch, at_) →
      (s.taken q).now ≤ at_ + secs 60 → 3 ≤ signer → signer ≤ 6 →
      k ∈ s.anchors 1 [signer] → Config.ecVerify k token sig = true →
      let u := s.taken q
      let t := u.debugPins true false
      let v := { t with dom := { t.dom with challenge := none } }
      Accepts (.debugOpen q (some enMs) false token ch s.dikFp sig signer fuseOk) s q 0x0B0E 0 []
        ((v.keysFollow (v.debugOpened token fuseOk)).evalReady))

/-- The Health, Belfry and Weevil commands (R58, R67, R455, R463, R468, R480, R484, R128, R129): status with CLEAR, fault bits
cleared by mask, a measurement on demand, records and telemetry read, and the injector's rules and arming. The model's own
readings and choices that this rests on: log 63, 162, 183, 199, 200, 205, 259, 260. -/
def Obligations.HealthAndWeevilCommandsComplete : Prop :=
  ∀ (s : State) (q : Req),
    (∀ clear, Admits s q 0x0C01 (flagOctets clear) false false → ∃ ps : Octets, ps.length = 148 ∧
      Answers (.healthStatus q clear) s q 0x0C01 ps
        (if clear then ((s.taken q).clearCnt F.PHM_CNT_COUNT 0 8 true).setF F.PHM_RIDE_STATS_RIDE_CNT 0 else s.taken q)) ∧
    (∀ mask, Admits s q 0x0C02 (le 4 mask) false false → mask < 256 →
      ∃ u : State, Answers (.faultClear q mask) s q 0x0C02 [] u.evalReady ∧
        (∀ b < 8, u.get (faultField b) = if bit b mask then 0 else s.get (faultField b)) ∧
        SameFieldsBut faultFields s u ∧ u.mem = s.mem) ∧
    (Admits s q 0x0C03 [] false false → ∃ ps : Octets, ps.length = 1556 ∧ Answers (.ageingStatus q) s q 0x0C03 ps (s.taken q)) ∧
    (Admits s q 0x0C04 [] true false → s.hlt.meas = none →
      Accepts (.ageingMeasure q) s q 0x0C04 0 [] ((s.taken q).startMeasure true (s.get F.PHM_KEEP_CNT_OP_SEC / 86400))) ∧
    (∀ start count,
      (Admits s q 0x0C05 (le 1 0 ++ le 8 start ++ le 2 count) false false → count ≤ 56 → Answers (.belfryRead q 0 start count) s q 0x0C05
        (le 2 count ++ (List.range count).flatMap (fun i =>
          le 1 (s.winState false (start + i)) ++ wordsOctets (s.recordWords false (start + i)))) (s.taken q)) ∧
      (Admits s q 0x0C05 (le 1 1 ++ le 8 start ++ le 2 count) false false → count ≤ 15 → start + count ≤ 16 → Answers (.belfryRead q 1 start count) s q 0x0C05
        (le 2 count ++ (List.range count).flatMap (fun i => wordsOctets (s.rdWords (telemBlock (start + i)) 128))) (s.taken q))) ∧
    (Admits s q 0x0C06 [] false false → ∃ ps : Octets, ps.length = 12 ∧ Answers (.flashStatus q) s q 0x0C06 ps (s.taken q)) ∧
    (∀ clear, Admits s q 0x0D01 (flagOctets clear) false false → ∃ ps : Octets, ps.length = 388 ∧
      Answers (.weevilStatus q clear) s q 0x0D01 ps ((s.taken q).clearCnt F.WVL_RULE_HITS_HITS 0 16 clear)) ∧
    (∀ r m a c, Admits s q 0x0D02 (le 4 r ++ le 8 m ++ le 8 a ++ le 4 c) false false → r < 16 → m % 2 ^ 24 = 0 →
      ∃ t : State, Answers (.weevilRule q r m a c) s q 0x0D02 [] t ∧ t.get (F.WVL_RULE_MATCH_EN.nth r) = bits 63 63 m ∧
        t.get (F.WVL_RULE_MATCH_APPID.nth r) = bits 39 24 m ∧ t.get (F.WVL_RULE_ACTION_ACTION.nth r) = bits 63 60 a ∧
        t.get (F.WVL_RULE_ACTION_MASK.nth r) = bits 31 0 a ∧ t.get (F.WVL_RULE_COUNT_EVERY.nth r) = bits 31 16 c ∧
        t.get (F.WVL_RULE_COUNT_LIMIT.nth r) = bits 15 0 c ∧ Tbl.get 0 r t.wvl.seen = 0 ∧ Tbl.get 0 r t.wvl.acted = 0 ∧ t.mem = s.mem) ∧
    (∀ arm, Admits s q 0x0D03 (flagOctets arm) false false → arm = false ∨ s.flag F.WVL_CTL_ALLOW = true →
      Answers (.weevilArm q arm) s q 0x0D03 [] ((s.taken q).wvlArm arm))

/-! ### The command registers -/

/-- R500 on every command register: without the grant of R29 a write of CMD is a bus error, while BUSY it is ignored, and an
operation only for the TMC completes with 0b010 for another master, its tables unchanged; a core held in reset writes nothing.
R500, an operation of a command register and its end: it starts with BUSY 1, keeping its outcome; at the end of a running
operation BUSY is 0, RESULT and the data registers hold that outcome, and memory and every other register field stay; with
none running the end changes nothing. The model's own readings and choices that this rests on: log 20, 21, 22, 23. -/
def Obligations.CommandRegistersRefuseWaitAndDeliver : Prop :=
  (∀ (c : Instr) (s : State) (m : Master) (b : CmdBlock) (fs : List (Field × Nat)) (only : Bool), cmdOpOf c = some (m, b, fs, only) →
    (s.masterUp m = false → exec c s = .next s) ∧
    (s.masterUp m = true → regGrant (s.actor m) (blkBusy b).addr true = false →
      exec c s = .next (s.refused (s.actor m) (blkBusy b).addr).busError) ∧
    (s.masterUp m = true → regGrant (s.actor m) (blkBusy b).addr true = true → s.flag (blkBusy b) = true →
      exec c s = .next { s with bus := .done }) ∧
    (Opens m b s → only = true → m ≠ .tmc →
      exec c s = .next { (s.withFields fs).cmdStart b 2 ((s.withFields fs).dataWords b) with bus := .done })) ∧
  ((∀ (u : State) (b : CmdBlock) (r : Nat) (ws : List Nat),
    (u.cmdStart b r ws).flag (blkBusy b) = true ∧ Tbl.get {} (blkKey b) (u.cmdStart b r ws).cmds = ⟨r, ws⟩ ∧
    SameFieldsBut ([blkBusy b, blkResult b] ++ (List.range (blkWords b)).map ((blkData b).nth ·)) u (u.cmdStart b r ws) ∧
    (u.cmdStart b r ws).mem = u.mem) ∧
  (∀ (s : State) (b : CmdBlock), s.flag (blkBusy b) = true →
    ∃ v, exec (.commandOperationEnd b) s = .next v ∧ v.flag (blkBusy b) = false ∧
      v.get (blkResult b) = (Tbl.get {} (blkKey b) s.cmds).result % 8 ∧
      (∀ i < blkWords b, v.get ((blkData b).nth i) = word (Tbl.get {} (blkKey b) s.cmds).data i % 2 ^ 64) ∧
      SameFieldsBut ([blkBusy b, blkResult b] ++ (List.range (blkWords b)).map ((blkData b).nth ·)) s v ∧ v.mem = s.mem) ∧
  (∀ (s : State) (b : CmdBlock), s.flag (blkBusy b) = false → exec (.commandOperationEnd b) s = .next s))

/-- The operations of SCT.CMD and SLT.CMD (R149 to R151, R353, R354), each where its checks pass. The model's own readings and
choices that this rests on: log 20, 21, 89, 90, 141, 233, 234. -/
def Obligations.StreamAndSliceTablesAreReachedByCommand : Prop :=
  ∀ (s : State) (m : Master) (i : Nat),
    (Opens m .sct s →
      let u := s.withFields (sctFields i false)
      let d := u.dataWords .sct
      (m = .tmc → i < 4096 → (s.ctx i).health = hFree → cxValid d = true → u.ctxOk i d = true → u.ctxFits i d = true →
        exec (.sctWrite m i) s = .next { (u.ctxInstall i d).cmdStart .sct 0 d with bus := .done }) ∧
      (m = .tmc → i < 4096 → (s.ctx i).health = hFree → cxValid d = false → exec (.sctWrite m i) s = .next { (u.ctxInstall i d).cmdStart .sct 0 d with bus := .done }) ∧
      (m = .tmc → i < 4096 → (s.ctx i).health ≠ hRetiring → (s.ctx i).health ≠ hFree →
        exec (.sctRemove m i) s = .next { (u.ctxRemove i).cmdStart .sct 0 d with bus := .done }) ∧
      (m = .tmc → i < 4096 → (s.ctx i).health ≠ hFree →
        exec (.sctMode m i) s = .next { (u.ctxMode i (cxSimAccept d) (cxTestAccept d)).cmdStart .sct 0 d with bus := .done }) ∧
      (m = .tmc → i < 32768 → u.mapUsed i = false → exec (.sctMapWrite m i) s = .next { (u.setMap i (word d 0)).cmdStart .sct 0 d with bus := .done }) ∧
      (i < 32768 → exec (.sctMapRead m i) s = .next { u.cmdStart .sct 0 (listSet 0 0 (putBits 31 0 (Tbl.get 0 i s.ing.map) (word d 0)) d) with bus := .done }) ∧
      (i < 256 → exec (.sctForeignRead m i) s = .next { ((ForeignEntry.words (Tbl.get {} i s.ing.foreign)).zipIdx.foldl (fun (s : State) p => s.setF (F.SCT_FSTAT_WORD.nth p.2) p.1) u).cmdStart .sct 0 d with bus := .done }) ∧
      (m = .tmc → i = 0x7FFF ∨ i < 256 → exec (.sctForeignClear m i) s = .next { (u.foreignFree i).cmdStart .sct 0 d with bus := .done }) ∧
      (∀ clr, i < 4096 →
        let w := s.withFields (sctFields i clr)
        let t := (w.ctxStat i).zipIdx.foldl (fun (s : State) p => s.setF (F.SCT_STAT_WORD.nth p.2) p.1) w
        exec (.sctRead m i clr) s = .next { (if clr then t.ctxStatClear i else t).cmdStart .sct 0 (t.ctxWords i) with bus := .done })) ∧
    (Opens m .slt s →
      (∀ t, i < sltSize t →
        let u := s.withFields (sltFields t i false)
        let w := u.sltMerge t i (u.dataWords .slt)
        (m = .tmc → sltOk t w = true → exec (.sltWrite m t i) s = .next { (u.setSltEnt t i w).cmdStart .slt 0 (u.dataWords .slt) with bus := .done }) ∧
        exec (.sltRead m t i) s = .next { u.cmdStart .slt 0 (u.sltView t i) with bus := .done }) ∧
      (∀ clr, i < 128 →
        let u := s.withFields (sltFields 0 i clr)
        exec (.sltStat m i clr) s = .next { (if clr then u.sliceStatClear i else u).cmdStart .slt 0 (u.sliceStat i) with bus := .done }))

/-- The operations of PHE.CMD, GCM.CMD and SLP.CMD (R233, R234, R271, R272): writes before the commit alone, PARAM and ENABLE
of a guard at any time, reads, states and operands. The operations of PUB.CMD and DRE.CMD (R292, R293, R320, R321). The
model's own readings and choices that this rests on: log 20, 21, 101, 104, 120, 128, 133, 245, 248. -/
def Obligations.EngineAndRecorderTablesAreReachedByCommand : Prop :=
  (∀ (s : State) (m : Master) (i : Nat),
    (∀ t, Opens m .phe s → pheIx t i = true →
      let u := s.withFields (pheFields t i)
      let d := u.dataWords .phe
      (m = .tmc → s.tmc.locked = true → exec (.pheWrite m t i) s = .next { u.cmdStart .phe 7 d with bus := .done }) ∧
      (m = .tmc → s.tmc.locked = false → pheEntOk t (d.take (pheLen t)) = true →
        exec (.pheWrite m t i) s = .next { (u.setPheEnt t i (d.take (pheLen t))).cmdStart .phe 0 d with bus := .done }) ∧
      exec (.pheRead m t i) s = .next { u.cmdStart .phe 0 (s.pheEnt t i) with bus := .done }) ∧
    (Opens m .gcm s → i < 4096 →
      let u := s.withFields (gcmFields i)
      let d := u.dataWords .gcm
      let x := Tbl.get ({} : Guard) i s.gcm.st
      (m = .tmc → s.tmc.locked = false → gdKindOk d = true → gdParamOk d = true →
        exec (.gcmWrite m i) s = .next { (u.setGcmEnt i d).cmdStart .gcm 0 d with bus := .done }) ∧
      (m = .tmc → gdParamOk (gdParam (s.gcmWords i) d) = true →
        exec (.gcmParam m i) s = .next { (u.gcmFrom i (gdParam (s.gcmWords i) d)).cmdStart .gcm 0 d with bus := .done }) ∧
      (m = .tmc → exec (.gcmEnable m i) s = .next { (u.gcmFrom i (putBits 63 63 (b2n (wbit d 0 63)) (word (s.gcmWords i) 0) :: (s.gcmWords i).drop 1)).cmdStart .gcm 0 d with bus := .done }) ∧
      exec (.gcmRead m i) s = .next { u.cmdStart .gcm 0 (s.gcmWords i) with bus := .done } ∧
      exec (.gcmState m i) s = .next { u.cmdStart .gcm 0 (listSet 0 0 (place 55 40 x.cnt + place 39 32 x.dcnt + place 7 7 (b2n x.out) + place 6 6 (b2n x.pu)) d) with bus := .done }) ∧
    (∀ t, Opens m .slp s →
      let u := s.withFields (slpFields t i)
      let d := u.dataWords .slp
      (m = .tmc → s.tmc.locked = false → i < slpSize t → slpEntOk t d = true → exec (.slpWrite m t i) s = .next { (u.slpPut t i d).cmdStart .slp 0 d with bus := .done }) ∧
      (i < slpSize t → exec (.slpRead m t i) s = .next { u.cmdStart .slp 0 (u.slpView t i) with bus := .done }) ∧
      (t = 2 ∨ t = 3 → i < slpSize t → exec (.slpState m t i) s = .next { u.cmdStart .slp 0 (u.opState t i) with bus := .done }) ∧
      (i < spaceSize t → exec (.slpOpnd m t i) s = .next { u.cmdStart .slp 0 [u.opnd t i] with bus := .done }))) ∧
  (∀ (s : State) (m : Master) (i : Nat),
    (Opens m .pub s →
      let u := s.withFields [(F.PUB_CMD_INDEX, i)]
      let d := u.dataWords .pub
      (m = .tmc → s.tmc.locked = false → i < pubCount → pubEntOk i d = true →
        exec (.pubWrite m i) s = .next { (u.setPubEnt i d).cmdStart .pub 0 d with bus := .done }) ∧
      (i < pubCount → exec (.pubRead m i) s = .next { u.cmdStart .pub 0 ((List.range 4).map (word (s.pubEnt i))) with bus := .done }) ∧
      (m = .tmc → s.tmc.locked = false → i < membCount → membOk (wbits d 0 31 0 &&& 0xFF80FFFF) = true →
        exec (.pubMembWrite m i) s = .next { { u with pub := { u.pub with memb := Tbl.set 0 i (wbits d 0 31 0 &&& 0xFF80FFFF) u.pub.memb } }.cmdStart .pub 0 d with bus := .done }) ∧
      (i < membCount → exec (.pubMembRead m i) s = .next { u.cmdStart .pub 0 [s.pubMemb i] with bus := .done }) ∧
      (m = .tmc → i < pubCount → pbValid (s.pubEnt i) = true →
        exec (.pubCmdEnable m i) s = .next { (u.pubEnableSet i (wbit d 1 63)).pubFlush.cmdStart .pub 0 d with bus := .done } ∧
        exec (.pubCmdMode m i) s = .next { (u.pubModeSet i (wbits d 1 62 62) (wbits d 1 61 61)).cmdStart .pub 0 d with bus := .done }) ∧
      (i < pubCount → exec (.pubStat m i) s = .next { (forN 3 (fun (s : State) k => s.setF (F.PUB_STAT_WORD.nth k) (word (u.pubStatWords i) k)) u).cmdStart .pub 0 d with bus := .done })) ∧
    (Opens m .dre s →
      (∀ t, i < dreSize t →
        let u := s.withFields (dreFields t i)
        let d := u.dataWords .dre
        let w := d.take (if t = 0 then 5 else if t = 1 then 4 else 1)
        (m = .tmc → s.tmc.locked = false → dreEntOk t w = true → exec (.dreWrite m t i) s = .next { (u.setDreEnt t i w).cmdStart .dre 0 d with bus := .done }) ∧
        exec (.dreRead m t i) s = .next { u.cmdStart .dre 0 (s.dreEnt t i) with bus := .done }) ∧
      (i < 64 →
        let u := s.withFields [(F.DRE_CMD_INDEX, i)]
        let d := u.dataWords .dre
        (m = .tmc → dvValid (s.dreEnt 0 i) = true →
          ((s.recOf i).state = 0 → exec (.dreArm m i) s = .next { (u.recArmNow i).cmdStart .dre 0 d with bus := .done }) ∧
          ((s.recOf i).state ≠ 0 → exec (.dreDisarm m i) s = .next { (u.recDisarmNow i).cmdStart .dre 0 d with bus := .done }) ∧
          ((s.recOf i).state ≠ 0 → exec (.dreTrigger m i) s = .next { (u.modRec i (fun x => { x with manual := x.manual ++ [(s.lattice (dvLat (s.dreEnt 0 i))).next] })).cmdStart .dre 0 d with bus := .done }) ∧
          (wbits d 0 11 0 < dvNbuf (s.dreEnt 0 i) → s.dirState (s.dreEnt 0 i) (wbits d 0 11 0) = 3 →
            exec (.dreRelease m i) s = .next { (u.recReleaseBuf i (wbits d 0 11 0)).cmdStart .dre 0 d with bus := .done })) ∧
        exec (.dreStat m i) s = .next { (forN 4 (fun (s : State) k => s.setF (F.DRE_STAT_WORD.nth k) (word (u.recStatWords i) k)) u).cmdStart .dre 0 d with bus := .done })))

/-! ### The fabric and the register pages -/

/-- TMC.FAMILY_CAP (R5) reads 0x0400_8018 after reset, and in every state that has not changed it: 1,024 SV streams, 128
slices and 24 application cores; a write of it changes nothing. -/
def Obligations.FamilyCapReportsTheMember : Prop :=
  (exec (.clearingRead .tmc 0x5000000004 4) State.reset = .next { State.reset with bus := .data 0x04008018 }) ∧
  (∀ s : State, s.get F.TMC_FAMILY_CAP_SV_STREAMS = 1024 → s.get F.TMC_FAMILY_CAP_SLICES = 128 → s.get F.TMC_FAMILY_CAP_APP_CORES = 24 →
    exec (.clearingRead .tmc 0x5000000004 4) s = .next { s with bus := .data 0x04008018 }) ∧
  (∀ (s : State) (v : Nat), exec (.registerWrite .tmc 0x5000000004 4 v) s = .next { s with bus := .done })

/-- R28: an access outside every region of R27, whatever its master, size and direction, ends in a bus error that writes
nothing and returns no data; for an application core that is the access fault of a load, a store or an atomic operation. But
for what the SLT counts of a slice's refusal, slice 0 among them, the state stays. -/
def Obligations.AccessesOutsideEveryRegionAreBusErrors : Prop :=
  ∀ (s : State) (m : Master) (a size v : Nat),
    (0x1000000000 ≤ a ∧ a < 0x4000000000) ∨ (0x4003000000 ≤ a ∧ a < 0x5000000000) ∨ (0x5001000000 ≤ a ∧ a < 0x5100000000) ∨
      (0x5100800000 ≤ a ∧ a < 0x6000000000) ∨ (0x6040000000 ≤ a ∧ a < 0x7000000000) ∨ 0x7000010000 ≤ a →
    s.masterUp m = true → ∃ t, exec (.registerWrite m a size v) s = .next t ∧ exec (.clearingRead m a size) s = .next t ∧
      (∀ core hyp, m = .core core hyp →
        ∀ op : CoreOp, exec (.coreRequest ⟨core, hyp, a, size, op⟩) s = .next t) ∧
      t.bus = .error ∧ t = (s.refused (s.actor m) a).busError ∧
      (s.actor m = .tmc ∨ s.actor m = .engine → t = { s with bus := .error })

/-- Register pages under R9 and R29: no grant, no register, or another width than the register's, is a bus error that writes
nothing and returns no data; a slice's refusal is counted, against that slice alone, and neither the TMC's nor an engine's is.
The model's own readings and choices that this rests on: log 25, 144, 209. -/
def Obligations.UngrantedRegisterAccessesAreBusErrors : Prop :=
  ∀ (s : State) (m : Master) (a size v : Nat), s.masterUp m = true →
    (0x5000000000 ≤ a → a < 0x5001000000 →
      (regGrant (s.actor m) a true = false → exec (.registerWrite m a size v) s = .next (s.refused (s.actor m) a).busError) ∧
      (regGrant (s.actor m) a false = false → exec (.clearingRead m a size) s = .next (s.refused (s.actor m) a).busError) ∧
      (regGrant (s.actor m) a true = true → regAt a = none ∨ (∃ r p k, regAt a = some (r, p, k) ∧ size ≠ r.bytes) →
        exec (.registerWrite m a size v) s = .next s.busError ∧ exec (.clearingRead m a size) s = .next s.busError)) ∧
    (s.actor m = .tmc ∨ s.actor m = .engine → s.refused (s.actor m) a = s) ∧
    (∀ n, s.actor m = .tenant n ∨ (s.actor m = .sys ∧ n = 0) → ((s.refused (s.actor m) a).slice n).refused = min ((s.slice n).refused + 1) (2 ^ 32 - 1) ∧
      (∀ k, k ≠ n → (s.refused (s.actor m) a).slice k = s.slice k))

/-- A granted access to a register of a global page (R10, R11): a write reaches each field by its access code where the value
has a function, a data register's reserved bits as zeros, and moves the machine with it for the Timebase's registers,
ICL.CTL.EN, SLE.CTL.EN, DRE.CTL.EN and SLE.LAT_TIME, whose PCLOSE stays below DEADLINE; on the island's pages it changes
nothing; a read returns the word and clears the RC fields alone; neither touches memory. The model's own readings and choices
that this rests on: log 13, 14, 209, 238. -/
def Obligations.RegisterFieldsFollowTheirAccessCodes : Prop :=
  ∀ (s : State) (m : Master) (a v : Nat) (r : Register) (p k : Nat), s.masterUp m = true →
    0x5000000000 ≤ a → a < 0x5001000000 → regAt a = some (r, p, k) →
    (let w := match cmdBlocks.find? (fun b => (blkData b).addr == r.addr) with | some b => dataKept b k v | none => v
     let t := s.storeReg (r.inst p k) s.tmc.locked w
     SameFieldsBut (r.inst p k) s t ∧ t.mem = s.mem ∧ t.slp = s.slp ∧ t.ing = s.ing ∧
      (∀ f ∈ r.inst p k, t.get f =
        (match f.acc with
        | .rw => if f.legal (f.part w) = true then f.part w else s.get f
        | .rwl => if f.legal (f.part w) = true ∧ s.tmc.locked = false then f.part w else s.get f
        | .w1c => (s.get f - (s.get f &&& f.part w)) % 2 ^ f.width
        | _ => s.get f)) ∧
      (regGrant (s.actor m) a true = true →
        r.addr ∉ [(blkBusy .sct).addr, (blkBusy .phe).addr, (blkBusy .gcm).addr, (blkBusy .slp).addr, (blkBusy .pub).addr, (blkBusy .dre).addr,
          (blkBusy .slt).addr, F.WVL_CTL_ARM.addr, F.WVL_RULE_COUNT_EVERY.addr, F.BLF_CURSOR_RSEQ.addr, F.BLF_STEP_NEXT.addr,
          F.PHM_FAULT_THERM.addr] →
        (∀ b : CmdBlock, (blkData b).addr = r.addr → s.flag (blkBusy b) = false) →
        let ends (u : State) : Prop := exec (.registerWrite m a r.bytes v) s = .next { u with bus := .done }
        (islandPage r.addr = true → ends s) ∧
        (r.addr / 0x10000 = F.TBU_STATUS_STATE.addr / 0x10000 → ends t.tbuFollow) ∧
        (r.addr = F.ICL_CTL_EN.addr → ends (if t.flag F.ICL_CTL_EN && !s.flag F.ICL_CTL_EN then t.waitFromNow else t)) ∧
        (r.addr = F.SLE_CTL_EN.addr → ends (t.sleSwitch (s.flag F.SLE_CTL_EN))) ∧
        (r.addr = F.DRE_CTL_EN.addr → ends (t.dreSwitch (s.flag F.DRE_CTL_EN))) ∧
        (r.addr = F.SLE_LAT_TIME_PCLOSE.addr → ∃ u, ends u ∧ SameFieldsBut (r.inst p k) s u ∧ u.mem = s.mem ∧
          ∀ f ∈ r.inst p k, let below := ∀ d ∈ r.inst p k, d.lo = F.SLE_LAT_TIME_DEADLINE.lo → f.part v < t.get d
            (f.lo ≠ F.SLE_LAT_TIME_PCLOSE.lo ∨ below → u.get f = t.get f) ∧
            (f.lo = F.SLE_LAT_TIME_PCLOSE.lo → ¬below → u.get f = s.get f)) ∧
        (islandPage r.addr = false → r.addr / 0x10000 ≠ F.TBU_STATUS_STATE.addr / 0x10000 → r.addr ≠ F.ICL_CTL_EN.addr →
          r.addr ≠ F.SLE_CTL_EN.addr → r.addr ≠ F.DRE_CTL_EN.addr → r.addr ≠ F.SLE_LAT_TIME_PCLOSE.addr → ends t))) ∧
    (regGrant (s.actor m) a false = true →
      ∃ t, exec (.clearingRead m a r.bytes) s = .next t ∧ t.bus = .data (s.readWord r.addr p k (r.inst p k)) ∧ t.mem = s.mem ∧
        SameFieldsBut (r.inst p k) s t ∧ ∀ f ∈ r.inst p k, t.get f = if f.acc = .rc then 0 else s.get f)

/-- Loads, stores and atomic operations of an application core (R29, R330, R501): a granted store to DRAM puts its octets,
little-endian, a load after it returns them, and an atomic operation, in the meaning that RISC-V gives its name (log 237),
returns what stood there and puts its result; outside the slice's windows they change nothing, nor does a store into the MRAM
window, into Sample Memory, or by a tenant into the Dome mailbox. The model's own readings and choices that this rests on: log
26, 27, 29, 209, 237. -/
def Obligations.CoreRequestsReachTheMemoryTheirSliceOwns : Prop :=
  ∀ (s : State) (core : Nat) (hyp : Bool) (a size v : Nat) (f : AtomicOp),
    let who := s.actor (.core core hyp)
    let store : Instr := .coreRequest ⟨core, hyp, a, size, .store v⟩
    let load : Instr := .coreRequest ⟨core, hyp, a, size, .load⟩
    let atomic : Instr := .coreRequest ⟨core, hyp, a, size, .atomic f v⟩
    (s.sup.coresUp = false → exec store s = .next s ∧ exec load s = .next s ∧ exec atomic s = .next s) ∧
    (s.sup.coresUp = true →
    (a + size ≤ 0x1000000000 → 0 < size → who = .sys ∨ (∃ n, who = .tenant n ∧ s.sliceState n ≠ 0 ∧ s.dramOwned n a size = true) →
      s.dramBad a size = false →
      (∃ t, exec store s = .next t ∧ t.bus = .done ∧ (∀ i < size, memGet (a + i) t.mem = BitVec.ofNat 8 (v / 256 ^ i)) ∧
        SameMemoryBut a size s t ∧ t.regs = s.regs ∧ t.slt = s.slt ∧ t.slp = s.slp ∧
        exec load t = .next { t with bus := .data (v % 256 ^ size) }) ∧
      (let w := atomicVal f size (s.rd a size) v
       ∃ t, exec atomic s = .next t ∧ t.bus = .data (s.rd a size) ∧ (∀ i < size, memGet (a + i) t.mem = BitVec.ofNat 8 (w / 256 ^ i)) ∧
        SameMemoryBut a size s t ∧ t.regs = s.regs ∧ t.slt = s.slt ∧ t.slp = s.slp)) ∧
    (∀ n, a < 0x1000000000 → who = .tenant n → s.sliceState n = 0 ∨ s.dramOwned n a size = false →
      exec store s = .next (s.refuse n a).busError ∧ exec load s = .next (s.refuse n a).busError ∧
        exec atomic s = .next (s.refuse n a).busError) ∧
    (smemBase ≤ a ∧ a < smemBase + smemSize ∨ mramBase ≤ a ∧ a < mramBase + mramSize →
      exec store s = .next (s.refused who a).busError ∧ exec atomic s = .next (s.refused who a).busError ∧
      (who = .sys → (a < mramBase → s.lineProv ((a - smemBase) / 64) = false) → inHeader a = false →
        (natural a size = true → s.dramBad a size = false → exec load s = .next { s with bus := .data (s.rd a size) }) ∧
        (natural a size = false → exec load s = .next s.busError))) ∧
    (0x7000000000 ≤ a → a < 0x7000010000 →
      (who = .sys → natural a size = true →
        ∃ t, exec store s = .next t ∧ t.bus = .done ∧ (∀ i < size, memGet (a + i) t.mem = BitVec.ofNat 8 (v / 256 ^ i)) ∧
          SameMemoryBut a size s t ∧ t.regs = s.regs) ∧
      (who = .sys → exec atomic s = .next s.busError) ∧
      (∀ n, who = .tenant n → exec store s = .next (s.refuse n a).busError ∧ exec load s = .next (s.refuse n a).busError)))

/-- Registers whose write acts (R128, R129, R480, R483): ARM of the Weevil while ALLOW stands, with ALLOW itself unlocked; a
rule's counts restart; the cursor of the Belfry takes a snapshot of the record named, or of the next one. The model's own
readings and choices that this rests on: log 23, 30, 63, 199. -/
def Obligations.ActingRegistersActWhereGranted : Prop :=
  ∀ (s : State) (m : Master), s.masterUp m = true →
    (regGrant (s.actor m) F.WVL_CTL_ARM.addr true = true → ∀ v,
      (s.tmc.locked = true → exec (.wvlArmWrite m v) s = .next { s.wvlArm (bit 0 v) with bus := .done }) ∧
      (s.tmc.locked = false → exec (.wvlArmWrite m v) s = .next { (s.wvlArm (bit 0 v)).setB F.WVL_CTL_ALLOW (bit 1 v) with bus := .done }) ∧
      (s.flag F.WVL_CTL_ALLOW = false → (s.wvlArm true) = s) ∧
      (s.flag F.WVL_CTL_ALLOW = true → (s.wvlArm true).flag F.WVL_CTL_ARM = true)) ∧
    (∀ r v, r < 16 → regGrant (s.actor m) (F.WVL_RULE_COUNT_EVERY.nth r).addr true = true →
      ∃ t, exec (.wvlRuleCountWrite m r v) s = .next t ∧ t.bus = .done ∧ t.get (F.WVL_RULE_COUNT_EVERY.nth r) = bits 31 16 v ∧
        t.get (F.WVL_RULE_COUNT_LIMIT.nth r) = bits 15 0 v ∧ Tbl.get 0 r t.wvl.seen = 0 ∧ Tbl.get 0 r t.wvl.acted = 0 ∧
        (∀ q, q ≠ r → Tbl.get 0 q t.wvl.seen = Tbl.get 0 q s.wvl.seen ∧ Tbl.get 0 q t.wvl.acted = Tbl.get 0 q s.wvl.acted) ∧ t.mem = s.mem) ∧
    (regGrant (s.actor m) F.BLF_CURSOR_RSEQ.addr true = true → ∀ v,
      let first := bit 63 v
      let r := v % 2 ^ 48
      ∃ t, exec (.blfCursorWrite m v) s = .next t ∧ t.bus = .done ∧ t.get F.BLF_CURSOR_RSEQ = r ∧ t.flag F.BLF_CURSOR_FIRST = first ∧
        t.get F.BLF_WIN_STAT_WIN_STATE = s.winState first r ∧
        (∀ i < 32, t.get (F.BLF_WIN_WORD.nth i) = if s.winState first r = 0
          then s.rd64 ((if first then blfFirst r else blfLast r) + 8 * i) else 0) ∧ t.mem = s.mem) ∧
    (regGrant (s.actor m) F.BLF_STEP_NEXT.addr true = true → ∀ v,
      let first := s.flag F.BLF_CURSOR_FIRST
      let r := (s.get F.BLF_CURSOR_RSEQ + 1) % 2 ^ 48
      (bit 0 v = false → exec (.blfStepNext m v) s = .next { s with bus := .done }) ∧
      (bit 0 v = true → ∃ t, exec (.blfStepNext m v) s = .next t ∧ t.bus = .done ∧ t.get F.BLF_CURSOR_RSEQ = r ∧
        t.get F.BLF_WIN_STAT_WIN_STATE = s.winState first r ∧
        (∀ i < 32, t.get (F.BLF_WIN_WORD.nth i) = if s.winState first r = 0
          then s.rd64 ((if first then blfFirst r else blfLast r) + 8 * i) else 0) ∧ t.mem = s.mem)) ∧
    (∀ i addr, (i, addr) ∈ ([(.wvlArmWrite m 0, F.WVL_CTL_ARM.addr), (.wvlRuleCountWrite m 0 0, F.WVL_RULE_COUNT_EVERY.addr),
        (.blfCursorWrite m 0, F.BLF_CURSOR_RSEQ.addr), (.blfStepNext m 1, F.BLF_STEP_NEXT.addr)] : List (Instr × Nat)) →
      regGrant (s.actor m) addr true = false → exec i s = .next (s.refused (s.actor m) addr).busError)

/-! ### Health -/

/-- Background work (R461 to R465, R478): what each scrubber counts and poisons, when a flash block is retired or rewritten,
what a sample and a second of telemetry leave, and the hourly mirror; nothing of it runs outside Normal or before group B.
Ageing (R467 to R472): the day's end starts a measurement that no command has made, one that fell in ride-through runs when it
is due, and its end gives every gauge its values, raises no step back and leaves CORE_STEP at the larger component; the
thermal step rises at once and falls by one after 10 s. The model's own readings and choices that this rests on: log 5, 19,
44, 45, 200, 202, 203, 205, 206, 207, 260. -/
def Obligations.HealthWorkAndAgeingFollowTheirRows : Prop :=
  (∀ s : State,
    (s.background = false → ∀ i : Instr, (∃ mem a f e, i = .scrubPass mem a f e) ∨ (∃ b c f, i = .flashRefresh b c f) ∨
      (∃ v, i = .telemetrySample v) ∨ i = .histogramUpdate → exec i s = .next s) ∧
    (s.background = true →
      (∀ mem a, scrubIn mem a = true → exec (.scrubPass mem a .clean false) s = .next s ∧
        exec (.scrubPass mem a .clean true) s = .next (s.phmBump (passCnt mem))) ∧
      (∀ mem a (f : Field), (mem, f) ∈ ([(.smem, F.SMEM_CNT_COUNT), (.dram, F.PHM_CNT_COUNT.nth 4), (.prog, F.SLP_CNT_COUNT.nth 6),
          (.mram, F.DRE_CNT_COUNT.nth 8)] : List (ScrubMem × Field)) → scrubIn mem a = true →
        exec (.scrubPass mem a .corrected false) s =
          .next ({ s with hlt := { s.hlt with eccSec := s.hlt.eccSec + 1 } }.bump f)) ∧
      (∀ mem a, mem ≠ .prog → scrubIn mem a = true →
        ∃ t, exec (.scrubPass mem a .uncorrectable false) s = .next t ∧ a / 8 * 8 ∈ t.hlt.poisoned ∧
          (∀ p ∈ s.hlt.poisoned, p ∈ t.hlt.poisoned) ∧ t.slp = s.slp) ∧
      (∀ a, a < 262144 → ∃ t, exec (.scrubPass .prog a .uncorrectable false) s = .next t ∧ a ∈ t.slp.badWords ∧
        (∀ b, b ≠ a → (b ∈ t.slp.badWords ↔ b ∈ s.slp.badWords)) ∧ t.regs = s.regs ∧ t.mem = s.mem) ∧
      (∀ b c failed, b < 61035 → b ∉ s.hlt.retired → s.hlt.retired.length < 1536 →
        (failed = true ∨ 40 < c → ∃ t, exec (.flashRefresh b c failed) s = .next t ∧ t.hlt.retired = b :: s.hlt.retired ∧
          t.get F.PHM_FLASH_STAT_SPARE_FREE = 1536 - (s.hlt.retired.length + 1) ∧
          t.get F.PHM_FLASH_STAT_RETIRED = s.hlt.retired.length + 1 ∧
          t.flag F.PHM_BG_STATUS_FLASH_RO = (s.hlt.retired.length == 1535)) ∧
        (failed = false → 24 < c → c ≤ 40 → ∃ t, exec (.flashRefresh b c failed) s = .next t ∧ t.hlt.retired = s.hlt.retired ∧ t.mem = s.mem ∧
          ∃ e < 61035, e ≠ b ∧ e ∉ s.hlt.retired ∧ Tbl.get 0 e t.hlt.erases = Tbl.get 0 e s.hlt.erases + 1 ∧
          (∀ d < 61035, Tbl.get 0 e t.hlt.erases ≤ Tbl.get 0 d t.hlt.erases + 1000 ∧
            Tbl.get 0 d s.hlt.erases ≤ Tbl.get 0 d t.hlt.erases)) ∧
        (failed = false → c ≤ 24 → exec (.flashRefresh b c failed) s = .next s)) ∧
      (∀ vals : List Int, ∃ t, exec (.telemetrySample vals) s = .next t ∧
        (∀ q < 10, t.get (F.PHM_TELEM_VALUE.nth q) = unsigned 32 (vals.getD q 0)) ∧
        t.get (F.PHM_TELEM_VALUE.nth 11) = unsigned 32 s.hlt.eccLast ∧ t.sup.dieHot = decide (11500 ≤ vals.getD 0 0) ∧
        t.hlt.thermal = s.hlt.thermal ∧ t.slp = s.slp) ∧
      (∃ t, exec .histogramUpdate s = .next t ∧ t.hlt.eccLast = s.hlt.eccSec ∧ t.hlt.eccSec = 0 ∧ t.regs = s.regs ∧ t.slp = s.slp ∧
        (∀ a, a < telemBlock 0 ∨ telemBlock 12 ≤ a → memGet a t.mem = memGet a s.mem))) ∧
    (s.hlt.hdrOpSec + 3600 ≤ s.get F.PHM_KEEP_CNT_OP_SEC → exec .belfryMirror s = .next { s with hlt := { s.hlt with
      hdrOpSec := s.get F.PHM_KEEP_CNT_OP_SEC, hdrCycles := s.get F.PHM_KEEP_CNT_POWER_CYCLES } }) ∧
    (s.get F.PHM_KEEP_CNT_OP_SEC < s.hlt.hdrOpSec + 3600 → exec .belfryMirror s = .next s)) ∧
  (∀ s : State,
    (let day := s.get F.PHM_KEEP_CNT_OP_SEC / 86400
     (day ≤ s.hlt.dayDone → exec .operatingDayEnd s = .next s) ∧
     (s.hlt.dayDone < day → s.hlt.meas = none →
       ∃ t, exec .operatingDayEnd s = .next t ∧ t.hlt.dayDone = day ∧ t.slp = s.slp ∧
         (s.hlt.cmdDay = some (day - 1) → t.hlt.meas = none) ∧
         (s.hlt.cmdDay ≠ some (day - 1) → t.hlt.meas = some (false, day - 1) ∧
           (s.background = true → t.get F.PHM_BG_STATUS_MEAS_RUNNING = 1) ∧
           (s.background = false → s.sup.mode ≠ .rideThrough → t.hlt.measDue = some (max 1 s.now)) ∧
           (s.sup.mode = .rideThrough → t.hlt.measDue = some 0)))) ∧
    (∀ t, s.hlt.measDue = some t → t ≠ 0 → s.background = true →
      exec .deferredMeasurement s = .next
        (({ s.advanceTo t with hlt := { s.hlt with measDue := none } }).setF F.PHM_BG_STATUS_MEAS_RUNNING 1)) ∧
    (∀ (slacks vcore : List Nat) (tdie : List Int) (byCmd : Bool) (day : Nat), s.hlt.meas = some (byCmd, day) →
      s.flag F.PHM_BG_STATUS_MEAS_RUNNING = true → s.get F.PHM_AGE_STATUS_AGE_STEP ≤ 3 → s.hlt.thermal ≤ 3 →
      ∃ t, exec (.measurementComplete slacks vcore tdie) s = .next t ∧ t.hlt.meas = none ∧ t.hlt.histN = s.hlt.histN + 1 ∧
        t.get F.PHM_BG_STATUS_MEAS_RUNNING = 0 ∧ t.get F.PHM_AGE_STATUS_LAST_DAY = day % 2 ^ 32 ∧
        (∀ g < 96, t.get (F.PHM_GAUGE_S_M.nth g) = 125 * min 255 (word slacks g) % 2 ^ 16 ∧
          ∃ e ≤ 1, t.get (F.PHM_GAUGE_VCORE.nth g) = (word vcore g / 10 + e) % 2 ^ 12 ∧ (word vcore g % 10 = 0 → e = 0)) ∧
        s.get F.PHM_AGE_STATUS_AGE_STEP ≤ t.get F.PHM_AGE_STATUS_AGE_STEP ∧ t.hlt.thermal = s.hlt.thermal ∧
        t.get F.PHM_AGE_STATUS_CORE_STEP = max s.hlt.thermal (t.get F.PHM_AGE_STATUS_AGE_STEP) ∧ t.slp = s.slp) ∧
    (∀ mean : Int, s.get F.PHM_AGE_STATUS_AGE_STEP ≤ 3 →
      let want := if 8500 < mean then 3 else if 8000 < mean then 2 else if 7500 < mean then 1 else 0
      (want ≤ s.hlt.thermal → exec (.thermalStep mean) s = .next s) ∧
      (s.hlt.thermal < want → ∃ t, exec (.thermalStep mean) s = .next t ∧ t.hlt.thermal = want ∧
        t.get F.PHM_AGE_STATUS_CORE_STEP = max want (s.get F.PHM_AGE_STATUS_AGE_STEP) ∧ t.slp = s.slp) ∧
      (∀ t, s.hlt.coolFrom = some t → s.hlt.thermal ≠ 0 → s.hlt.thermal ≤ 3 → mean ≤ 7000 + 500 * s.hlt.thermal - 300 →
        ∃ u, exec (.thermalStepDown mean) s = .next u ∧ u.hlt.thermal = s.hlt.thermal - 1 ∧ s.now ≤ u.now ∧ t + secs 10 ≤ u.now ∧
          u.get F.PHM_AGE_STATUS_CORE_STEP = max (s.hlt.thermal - 1) (s.get F.PHM_AGE_STATUS_AGE_STEP) ∧ u.slp = s.slp)))

/-- The end of a running long command (R452, R459, R348): its COMPLETION and its effect at once, and the group is free again;
while its work goes on nothing happens, in ride-through a bundle that would be written to flash waits, shown as deferred
(R63), and a commit accepted in PREPARE ends after the start-up's own (log 273). Where the TMC finds an internal fault the
status is INTERNAL (R456, log 294). The model's own readings and choices that this rests on: log 142, 169, 178, 194. -/
def Obligations.LongCommandsCompleteOnce : Prop :=
  ∀ (s : State) (g : Nat) (j : Job), s.tmc.jobs.find? (fun j => j.group == g) = some j →
    let ends (st page check item : Nat) (t : State) : Prop := exec (.longCommandCompletion ⟨g, false⟩) s =
      .next (t.complete j st (if st = stOk then [] else detail page check item))
    let waits : Prop := exec (.longCommandCompletion ⟨g, false⟩) s = .next s
    (j.op = 0x0205 → s.sliceState j.obj = 3 → waits) ∧
    (j.op = 0x0205 → s.sliceState j.obj = 4 → ends stOk 0 0 0 s) ∧
    (j.op = 0x0205 → s.sliceState j.obj = 5 → ends stAborted 0x03 0 j.obj s) ∧
    (j.op = 0x0C04 → s.hlt.meas ≠ none → waits) ∧
    (j.op = 0x0C04 → s.hlt.meas = none → ends stOk 0 0 0 s) ∧
    (∀ st, j.op = 0x0B0E → s.dom.openStatus = some st → ends st 0x12 0 0 { s with dom := { s.dom with openStatus := none } }) ∧
    (j.op = 0x0110 → s.stageWaits = true → exec (.longCommandCompletion ⟨g, false⟩) s = .next s.flashWrite) ∧
    (∀ st page item t, j.op = 0x0110 → s.stageWaits = false → s.stageEnd = ((st, page, item), t) → ends st page (failCheck page st) item t) ∧
    (j.op = 0x0112 → s.get F.TMC_START_STATUS_PHASE < 4 → waits) ∧
    (∀ st page item t, j.op = 0x0112 → 4 ≤ s.get F.TMC_START_STATUS_PHASE → s.commitEnd = ((st, page, item), t) →
      ends st page (failCheck page st) item t) ∧
    (∀ st check item t, j.op = 0x0607 → s.loadEnd = ((st, check, item), t) → ends st 0x0A check item t) ∧
    (∀ st t, j.op = 0x0807 → s.exportEnd = (st, t) → ends st 0x0C 0 0 t) ∧
    (j.op = 0x0A03 ∨ j.op = 0x0A04 → (s.safetyEnd j.op = none → waits) ∧ (∀ st, s.safetyEnd j.op = some st → ends st 0x10 0 j.obj s)) ∧
    (∃ t : State, exec (.longCommandCompletion ⟨g, true⟩) s = .next (t.complete j stInternal (detail (groupPage j.group) 0 0))) ∧
    (∀ (u : State) st p, ∀ k ∈ (u.complete j st p).tmc.jobs, k.group ≠ j.group ∧ k ∈ u.tmc.jobs)
end

