-- ==== Sys2Proof/Laws/Dispatch.lean ====
section
/-! SUPPORT. The meaning that each command dispatches to, one lemma per command, so that no later proof opens the dispatch. -/
namespace Sys2Proof.Machine

@[simp] theorem exec_registerWrite (m : Master) (addr : Nat) (size : Nat) (value : Nat) (s : State) : exec (.registerWrite m addr size value) s = execRegisterWrite m addr size value s := rfl
@[simp] theorem exec_clearingRead (m : Master) (addr : Nat) (size : Nat) (s : State) : exec (.clearingRead m addr size) s = execClearingRead m addr size s := rfl
@[simp] theorem exec_commandOperationEnd (b : CmdBlock) (s : State) : exec (.commandOperationEnd b) s = execCommandOperationEnd b s := rfl
@[simp] theorem exec_coreRequest (r : CoreReq) (s : State) : exec (.coreRequest r) s = execCoreRequest r s := rfl
@[simp] theorem exec_powerUp (feedA : Bool) (sm : SupplySample) (s : State) : exec (.powerUp feedA sm) s = execPowerUp feedA sm s := rfl
@[simp] theorem exec_railInRegulation (r : Rail) (s : State) : exec (.railInRegulation r) s = execRailInRegulation r s := rfl
@[simp] theorem exec_railFault (r : Rail) (s : State) : exec (.railFault r) s = execRailFault r s := rfl
@[simp] theorem exec_rideThroughEntry (mv : Nat) (s : State) : exec (.rideThroughEntry mv) s = execRideThroughEntry mv s := rfl
@[simp] theorem exec_returnThreshold (mv : Nat) (s : State) : exec (.returnThreshold mv) s = execReturnThreshold mv s := rfl
@[simp] theorem exec_returnTimerStop (mv : Nat) (s : State) : exec (.returnTimerStop mv) s = execReturnTimerStop mv s := rfl
@[simp] theorem exec_returnTimerExpiry (s : State) : exec .returnTimerExpiry s = execReturnTimerExpiry s := rfl
@[simp] theorem exec_brownout (s : State) : exec .brownout s = execBrownout s := rfl
@[simp] theorem exec_resetThreshold (mv : Nat) (s : State) : exec (.resetThreshold mv) s = execResetThreshold mv s := rfl
@[simp] theorem exec_railTakedown (s : State) : exec .railTakedown s = execRailTakedown s := rfl
@[simp] theorem exec_vioCarFault (mv : Nat) (s : State) : exec (.vioCarFault mv) s = execVioCarFault mv s := rfl
@[simp] theorem exec_carRst (s : State) : exec .carRst s = execCarRst s := rfl
@[simp] theorem exec_feedLost (b : Bool) (s : State) : exec (.feedLost b) s = execFeedLost b s := rfl
@[simp] theorem exec_faultBitReassert (b : Nat) (s : State) : exec (.faultBitReassert b) s = execFaultBitReassert b s := rfl
@[simp] theorem exec_therm (s : State) : exec .therm s = execTherm s := rfl
@[simp] theorem exec_supplyStatusUpdate (sm : SupplySample) (s : State) : exec (.supplyStatusUpdate sm) s = execSupplyStatusUpdate sm s := rfl
@[simp] theorem exec_rootLock (s : State) : exec .rootLock s = execRootLock s := rfl
@[simp] theorem exec_rootRatio (s : State) : exec .rootRatio s = execRootRatio s := rfl
@[simp] theorem exec_rootFaultResponse (s : State) : exec .rootFaultResponse s = execRootFaultResponse s := rfl
@[simp] theorem exec_coldReset (cause : Nat) (s : State) : exec (.coldReset cause) s = execColdReset cause s := rfl
@[simp] theorem exec_warmReset (s : State) : exec .warmReset s = execWarmReset s := rfl
@[simp] theorem exec_vkeepLow (s : State) : exec .vkeepLow s = execVkeepLow s := rfl
@[simp] theorem exec_keepReset (s : State) : exec .keepReset s = execKeepReset s := rfl
@[simp] theorem exec_prepareComplete (s : State) : exec .prepareComplete s = execPrepareComplete s := rfl
@[simp] theorem exec_qbcStart (s : State) : exec .qbcStart s = execQbcStart s := rfl
@[simp] theorem exec_groupBEnable (s : State) : exec .groupBEnable s = execGroupBEnable s := rfl
@[simp] theorem exec_qbFrame (di : Nat) (s : State) : exec (.qbFrame di) s = execQbFrame di s := rfl
@[simp] theorem exec_secondBoundary (s : State) : exec .secondBoundary s = execSecondBoundary s := rfl
@[simp] theorem exec_ppsOutFall (s : State) : exec .ppsOutFall s = execPpsOutFall s := rfl
@[simp] theorem exec_tdcCalibrationStart (ch : Nat) (line : Nat) (s : State) : exec (.tdcCalibrationStart ch line) s = execTdcCalibrationStart ch line s := rfl
@[simp] theorem exec_tdcCalibrationDone (ch : Nat) (line : Nat) (hits : List Nat) (s : State) : exec (.tdcCalibrationDone ch line hits) s = execTdcCalibrationDone ch line hits s := rfl
@[simp] theorem exec_ptpSyncRx (m : PtpSync) (s : State) : exec (.ptpSyncRx m) s = execPtpSyncRx m s := rfl
@[simp] theorem exec_ptpFollowUpRx (m : PtpSync) (s : State) : exec (.ptpFollowUpRx m) s = execPtpFollowUpRx m s := rfl
@[simp] theorem exec_ptpAnnounceRx (m : PtpAnnounce) (s : State) : exec (.ptpAnnounceRx m) s = execPtpAnnounceRx m s := rfl
@[simp] theorem exec_ptpPdelayReqRx (port : Nat) (domain : Nat) (seq : Nat) (rx : PdelayMark) (s : State) : exec (.ptpPdelayReqRx port domain seq rx) s = execPtpPdelayReqRx port domain seq rx s := rfl
@[simp] theorem exec_ptpPdelayRespRx (m : PtpPdelay) (s : State) : exec (.ptpPdelayRespRx m) s = execPtpPdelayRespRx m s := rfl
@[simp] theorem exec_ptpAnnounceTx (s : State) : exec .ptpAnnounceTx s = execPtpAnnounceTx s := rfl
@[simp] theorem exec_ptpSyncTx (s : State) : exec .ptpSyncTx s = execPtpSyncTx s := rfl
@[simp] theorem exec_ptpPdelayReqTx (s : State) : exec .ptpPdelayReqTx s = execPtpPdelayReqTx s := rfl
@[simp] theorem exec_masterLost (s : State) : exec .masterLost s = execMasterLost s := rfl
@[simp] theorem exec_fallbackMaster (s : State) : exec .fallbackMaster s = execFallbackMaster s := rfl
@[simp] theorem exec_holdSpecExpiry (s : State) : exec .holdSpecExpiry s = execHoldSpecExpiry s := rfl
@[simp] theorem exec_ppsInEdge (code : Nat) (s : State) : exec (.ppsInEdge code) s = execPpsInEdge code s := rfl
@[simp] theorem exec_ppsInTimeout (s : State) : exec .ppsInTimeout s = execPpsInTimeout s := rfl
@[simp] theorem exec_macRxFrame (e : RxEvent) (s : State) : exec (.macRxFrame e) s = execMacRxFrame e s := rfl
@[simp] theorem exec_rxDescriptorsComplete (port : Nat) (s : State) : exec (.rxDescriptorsComplete port) s = execRxDescriptorsComplete port s := rfl
@[simp] theorem exec_linkUp (l : LinkReport) (s : State) : exec (.linkUp l) s = execLinkUp l s := rfl
@[simp] theorem exec_linkDown (l : LinkLoss) (s : State) : exec (.linkDown l) s = execLinkDown l s := rfl
@[simp] theorem exec_macTxStart (port : Nat) (s : State) : exec (.macTxStart port) s = execMacTxStart port s := rfl
@[simp] theorem exec_macTxEnd (port : Nat) (s : State) : exec (.macTxEnd port) s = execMacTxEnd port s := rfl
@[simp] theorem exec_hsrEntryExpiry (pair : Nat) (sa : Nat) (seq : Nat) (s : State) : exec (.hsrEntryExpiry pair sa seq) s = execHsrEntryExpiry pair sa seq s := rfl
@[simp] theorem exec_supervisionTx (pair : Nat) (s : State) : exec (.supervisionTx pair) s = execSupervisionTx pair s := rfl
@[simp] theorem exec_pauseEnd (port : Nat) (s : State) : exec (.pauseEnd port) s = execPauseEnd port s := rfl
@[simp] theorem exec_pauseWd (port : Nat) (s : State) : exec (.pauseWd port) s = execPauseWd port s := rfl
@[simp] theorem exec_pauseIgnoreEnd (port : Nat) (s : State) : exec (.pauseIgnoreEnd port) s = execPauseIgnoreEnd port s := rfl
@[simp] theorem exec_pauseRepeat (port : Nat) (s : State) : exec (.pauseRepeat port) s = execPauseRepeat port s := rfl
@[simp] theorem exec_lpiEntry (port : Nat) (s : State) : exec (.lpiEntry port) s = execLpiEntry port s := rfl
@[simp] theorem exec_lpiWakeEnd (port : Nat) (s : State) : exec (.lpiWakeEnd port) s = execLpiWakeEnd port s := rfl
@[simp] theorem exec_lldpTx (port : Nat) (s : State) : exec (.lldpTx port) s = execLldpTx port s := rfl
@[simp] theorem exec_weevilDelayEnd (port : Nat) (tx : Bool) (s : State) : exec (.weevilDelayEnd port tx) s = execWeevilDelayEnd port tx s := rfl
@[simp] theorem exec_weevilDuplicateCopy (port : Nat) (s : State) : exec (.weevilDuplicateCopy port) s = execWeevilDuplicateCopy port s := rfl
@[simp] theorem exec_weevilLinkDownEnd (port : Nat) (s : State) : exec (.weevilLinkDownEnd port) s = execWeevilLinkDownEnd port s := rfl
@[simp] theorem exec_wvlArmWrite (m : Master) (value : Nat) (s : State) : exec (.wvlArmWrite m value) s = execWvlArmWrite m value s := rfl
@[simp] theorem exec_wvlRuleCountWrite (m : Master) (rule : Nat) (value : Nat) (s : State) : exec (.wvlRuleCountWrite m rule value) s = execWvlRuleCountWrite m rule value s := rfl
@[simp] theorem exec_dupEntryExpiry (pair : Nat) (sa : Nat) (seq : Nat) (s : State) : exec (.dupEntryExpiry pair sa seq) s = execDupEntryExpiry pair sa seq s := rfl
@[simp] theorem exec_gooseTalExpiry (ctx : Nat) (s : State) : exec (.gooseTalExpiry ctx) s = execGooseTalExpiry ctx s := rfl
@[simp] theorem exec_tagResult (ctx : Nat) (pass : Bool) (s : State) : exec (.tagResult ctx pass) s = execTagResult ctx pass s := rfl
@[simp] theorem exec_svLoss (ctx : Nat) (s : State) : exec (.svLoss ctx) s = execSvLoss ctx s := rfl
@[simp] theorem exec_svHealthRestore (ctx : Nat) (s : State) : exec (.svHealthRestore ctx) s = execSvHealthRestore ctx s := rfl
@[simp] theorem exec_altRestore (ctx : Nat) (s : State) : exec (.altRestore ctx) s = execAltRestore ctx s := rfl
@[simp] theorem exec_latticeWrite (s : State) : exec .latticeWrite s = execLatticeWrite s := rfl
@[simp] theorem exec_provisionalClose (lat : Nat) (s : State) : exec (.provisionalClose lat) s = execProvisionalClose lat s := rfl
@[simp] theorem exec_instantDeadline (lat : Nat) (s : State) : exec (.instantDeadline lat) s = execInstantDeadline lat s := rfl
@[simp] theorem exec_pheFold (lat : Nat) (s : State) : exec (.pheFold lat) s = execPheFold lat s := rfl
@[simp] theorem exec_phasorsReady (lat : Nat) (n : Nat) (s : State) : exec (.phasorsReady lat n) s = execPhasorsReady lat n s := rfl
@[simp] theorem exec_guardResultsReady (lat : Nat) (n : Nat) (s : State) : exec (.guardResultsReady lat n) s = execGuardResultsReady lat n s := rfl
@[simp] theorem exec_timedCycleStart (cls : Nat) (s : State) : exec (.timedCycleStart cls) s = execTimedCycleStart cls s := rfl
@[simp] theorem exec_perInstantCycleStart (cls : Nat) (s : State) : exec (.perInstantCycleStart cls) s = execPerInstantCycleStart cls s := rfl
@[simp] theorem exec_cycleResume (cls : Nat) (s : State) : exec (.cycleResume cls) s = execCycleResume cls s := rfl
@[simp] theorem exec_cycleEnd (cls : Nat) (s : State) : exec (.cycleEnd cls) s = execCycleEnd cls s := rfl
@[simp] theorem exec_scNop (s : State) : exec .scNop s = execScNop s := rfl
@[simp] theorem exec_scLd (sp : RdSpace) (ix : Nat) (s : State) : exec (.scLd sp ix) s = execScLd sp ix s := rfl
@[simp] theorem exec_scLdn (sp : RdSpace) (ix : Nat) (s : State) : exec (.scLdn sp ix) s = execScLdn sp ix s := rfl
@[simp] theorem exec_scAnd (sp : RdSpace) (ix : Nat) (s : State) : exec (.scAnd sp ix) s = execScAnd sp ix s := rfl
@[simp] theorem exec_scAndn (sp : RdSpace) (ix : Nat) (s : State) : exec (.scAndn sp ix) s = execScAndn sp ix s := rfl
@[simp] theorem exec_scOr (sp : RdSpace) (ix : Nat) (s : State) : exec (.scOr sp ix) s = execScOr sp ix s := rfl
@[simp] theorem exec_scOrn (sp : RdSpace) (ix : Nat) (s : State) : exec (.scOrn sp ix) s = execScOrn sp ix s := rfl
@[simp] theorem exec_scXor (sp : RdSpace) (ix : Nat) (s : State) : exec (.scXor sp ix) s = execScXor sp ix s := rfl
@[simp] theorem exec_scXorn (sp : RdSpace) (ix : Nat) (s : State) : exec (.scXorn sp ix) s = execScXorn sp ix s := rfl
@[simp] theorem exec_scAndParen (sp : RdSpace) (ix : Nat) (s : State) : exec (.scAndParen sp ix) s = execScAndParen sp ix s := rfl
@[simp] theorem exec_scAndnParen (sp : RdSpace) (ix : Nat) (s : State) : exec (.scAndnParen sp ix) s = execScAndnParen sp ix s := rfl
@[simp] theorem exec_scOrParen (sp : RdSpace) (ix : Nat) (s : State) : exec (.scOrParen sp ix) s = execScOrParen sp ix s := rfl
@[simp] theorem exec_scOrnParen (sp : RdSpace) (ix : Nat) (s : State) : exec (.scOrnParen sp ix) s = execScOrnParen sp ix s := rfl
@[simp] theorem exec_scXorParen (sp : RdSpace) (ix : Nat) (s : State) : exec (.scXorParen sp ix) s = execScXorParen sp ix s := rfl
@[simp] theorem exec_scCloseParen (s : State) : exec .scCloseParen s = execScCloseParen s := rfl
@[simp] theorem exec_scNot (s : State) : exec .scNot s = execScNot s := rfl
@[simp] theorem exec_scSt (sp : WrSpace) (ix : Nat) (s : State) : exec (.scSt sp ix) s = execScSt sp ix s := rfl
@[simp] theorem exec_scStn (sp : WrSpace) (ix : Nat) (s : State) : exec (.scStn sp ix) s = execScStn sp ix s := rfl
@[simp] theorem exec_scSet (sp : WrSpace) (ix : Nat) (s : State) : exec (.scSet sp ix) s = execScSet sp ix s := rfl
@[simp] theorem exec_scRst (sp : WrSpace) (ix : Nat) (s : State) : exec (.scRst sp ix) s = execScRst sp ix s := rfl
@[simp] theorem exec_scEdgr (ix : Nat) (s : State) : exec (.scEdgr ix) s = execScEdgr ix s := rfl
@[simp] theorem exec_scEdgf (ix : Nat) (s : State) : exec (.scEdgf ix) s = execScEdgf ix s := rfl
@[simp] theorem exec_scTon (ix : Nat) (s : State) : exec (.scTon ix) s = execScTon ix s := rfl
@[simp] theorem exec_scTof (ix : Nat) (s : State) : exec (.scTof ix) s = execScTof ix s := rfl
@[simp] theorem exec_scTp (ix : Nat) (s : State) : exec (.scTp ix) s = execScTp ix s := rfl
@[simp] theorem exec_scTret (ix : Nat) (s : State) : exec (.scTret ix) s = execScTret ix s := rfl
@[simp] theorem exec_scTrst (ix : Nat) (s : State) : exec (.scTrst ix) s = execScTrst ix s := rfl
@[simp] theorem exec_scCtu (ix : Nat) (s : State) : exec (.scCtu ix) s = execScCtu ix s := rfl
@[simp] theorem exec_scCtd (ix : Nat) (s : State) : exec (.scCtd ix) s = execScCtd ix s := rfl
@[simp] theorem exec_scCrst (ix : Nat) (s : State) : exec (.scCrst ix) s = execScCrst ix s := rfl
@[simp] theorem exec_scJmp (target : Nat) (s : State) : exec (.scJmp target) s = execScJmp target s := rfl
@[simp] theorem exec_scJmpc (target : Nat) (s : State) : exec (.scJmpc target) s = execScJmpc target s := rfl
@[simp] theorem exec_scJmpcn (target : Nat) (s : State) : exec (.scJmpcn target) s = execScJmpcn target s := rfl
@[simp] theorem exec_scEnd (s : State) : exec .scEnd s = execScEnd s := rfl
@[simp] theorem exec_scEndc (s : State) : exec .scEndc s = execScEndc s := rfl
@[simp] theorem exec_gooseRetransmit (pub : Nat) (s : State) : exec (.gooseRetransmit pub) s = execGooseRetransmit pub s := rfl
@[simp] theorem exec_pubDescriptorFetch (ring : Nat) (s : State) : exec (.pubDescriptorFetch ring) s = execPubDescriptorFetch ring s := rfl
@[simp] theorem exec_txDescriptorFetch (ring : Nat) (s : State) : exec (.txDescriptorFetch ring) s = execTxDescriptorFetch ring s := rfl
@[simp] theorem exec_doorbellWrite (m : Master) (page : Nat) (k : Nat) (value : Nat) (s : State) : exec (.doorbellWrite m page k value) s = execDoorbellWrite m page k value s := rfl
@[simp] theorem exec_fWrite (m : Master) (page : Nat) (w : Nat) (value : Nat) (s : State) : exec (.fWrite m page w value) s = execFWrite m page w value s := rfl
@[simp] theorem exec_ftagWrite (core : Nat) (hyp : Bool) (valid : Bool) (pasid : Nat) (s : State) : exec (.ftagWrite core hyp valid pasid) s = execFtagWrite core hyp valid pasid s := rfl
@[simp] theorem exec_irqModerationEnd (ring : Nat) (s : State) : exec (.irqModerationEnd ring) s = execIrqModerationEnd ring s := rfl
@[simp] theorem exec_quiesceDrained (slice : Nat) (s : State) : exec (.quiesceDrained slice) s = execQuiesceDrained slice s := rfl
@[simp] theorem exec_quiesceLimit (slice : Nat) (s : State) : exec (.quiesceLimit slice) s = execQuiesceLimit slice s := rfl
@[simp] theorem exec_heartbeatTick (s : State) : exec .heartbeatTick s = execHeartbeatTick s := rfl
@[simp] theorem exec_heartbeatRx (h : HbRx) (s : State) : exec (.heartbeatRx h) s = execHeartbeatRx h s := rfl
@[simp] theorem exec_peerSilence (s : State) : exec .peerSilence s = execPeerSilence s := rfl
@[simp] theorem exec_soloWaitExpiry (s : State) : exec .soloWaitExpiry s = execSoloWaitExpiry s := rfl
@[simp] theorem exec_leaseLapse (s : State) : exec .leaseLapse s = execLeaseLapse s := rfl
@[simp] theorem exec_takeoverGapEnd (s : State) : exec .takeoverGapEnd s = execTakeoverGapEnd s := rfl
@[simp] theorem exec_handoverTx (s : State) : exec .handoverTx s = execHandoverTx s := rfl
@[simp] theorem exec_switchTimeout (s : State) : exec .switchTimeout s = execSwitchTimeout s := rfl
@[simp] theorem exec_handoverRx (h : PairHdr) (recs : List PubSyncRec) (s : State) : exec (.handoverRx h recs) s = execHandoverRx h recs s := rfl
@[simp] theorem exec_digestRx (h : PairHdr) (entries : List DigestEntry) (s : State) : exec (.digestRx h entries) s = execDigestRx h entries s := rfl
@[simp] theorem exec_digestUnpaired (cls : Nat) (stamp : Nat) (s : State) : exec (.digestUnpaired cls stamp) s = execDigestUnpaired cls stamp s := rfl
@[simp] theorem exec_imageReqRx (h : PairHdr) (cls : Nat) (s : State) : exec (.imageReqRx h cls) s = execImageReqRx h cls s := rfl
@[simp] theorem exec_imageRx (h : PairHdr) (cls : Nat) (stamp : Nat) (octets : Octets) (s : State) : exec (.imageRx h cls stamp octets) s = execImageRx h cls stamp octets s := rfl
@[simp] theorem exec_pubSyncRx (h : PairHdr) (recs : List PubSyncRec) (s : State) : exec (.pubSyncRx h recs) s = execPubSyncRx h recs s := rfl
@[simp] theorem exec_partTimeout (mseq : Nat) (s : State) : exec (.partTimeout mseq) s = execPartTimeout mseq s := rfl
@[simp] theorem exec_islandCycle (x : IslandInputs) (s : State) : exec (.islandCycle x) s = execIslandCycle x s := rfl
@[simp] theorem exec_islandFault (c : IslandCause) (s : State) : exec (.islandFault c) s = execIslandFault c s := rfl
@[simp] theorem exec_testPulse (b : Bool) (s : State) : exec (.testPulse b) s = execTestPulse b s := rfl
@[simp] theorem exec_cpwUpdate (s : State) : exec .cpwUpdate s = execCpwUpdate s := rfl
@[simp] theorem exec_cpwTimeout (s : State) : exec .cpwTimeout s = execCpwTimeout s := rfl
@[simp] theorem exec_arcSelftest (ch : Nat) (edges : Nat) (s : State) : exec (.arcSelftest ch edges) s = execArcSelftest ch edges s := rfl
@[simp] theorem exec_feedbackCheck (k : Nat) (sfb : Nat) (s : State) : exec (.feedbackCheck k sfb) s = execFeedbackCheck k sfb s := rfl
@[simp] theorem exec_islandSelftestDone (s : State) : exec .islandSelftestDone s = execIslandSelftestDone s := rfl
@[simp] theorem exec_proofTestStep (k : Nat) (ok : Bool) (s : State) : exec (.proofTestStep k ok) s = execProofTestStep k ok s := rfl
@[simp] theorem exec_domeRestart (corr : List (List PufBlock)) (s : State) : exec (.domeRestart corr) s = execDomeRestart corr s := rfl
@[simp] theorem exec_keySweepDone (s : State) : exec .keySweepDone s = execKeySweepDone s := rfl
@[simp] theorem exec_keyActivate (node : Nat) (s : State) : exec (.keyActivate node) s = execKeyActivate node s := rfl
@[simp] theorem exec_keyExpire (node : Nat) (s : State) : exec (.keyExpire node) s = execKeyExpire node s := rfl
@[simp] theorem exec_debugChallengeExpiry (s : State) : exec .debugChallengeExpiry s = execDebugChallengeExpiry s := rfl
@[simp] theorem exec_debugPortClose (s : State) : exec .debugPortClose s = execDebugPortClose s := rfl
@[simp] theorem exec_mbxDoorbell (m : Master) (page : Nat) (value : Nat) (s : State) : exec (.mbxDoorbell m page value) s = execMbxDoorbell m page value s := rfl
@[simp] theorem exec_mbxAck (m : Master) (page : Nat) (value : Nat) (s : State) : exec (.mbxAck m page value) s = execMbxAck m page value s := rfl
@[simp] theorem exec_tlsConnect (o : TlsOffer) (s : State) : exec (.tlsConnect o) s = execTlsConnect o s := rfl
@[simp] theorem exec_tlsPacket (sess : Nat) (octets : Octets) (s : State) : exec (.tlsPacket sess octets) s = execTlsPacket sess octets s := rfl
@[simp] theorem exec_tlsIdleTimeout (sess : Nat) (s : State) : exec (.tlsIdleTimeout sess) s = execTlsIdleTimeout sess s := rfl
@[simp] theorem exec_longCommandCompletion (e : LongEnd) (s : State) : exec (.longCommandCompletion e) s = execLongCommandCompletion e s := rfl
@[simp] theorem exec_sysHello (q : Req) (s : State) : exec (.sysHello q) s = execSysHello q s := rfl
@[simp] theorem exec_sysJobs (q : Req) (s : State) : exec (.sysJobs q) s = execSysJobs q s := rfl
@[simp] theorem exec_sysCancel (q : Req) (tag : Nat) (s : State) : exec (.sysCancel q tag) s = execSysCancel q tag s := rfl
@[simp] theorem exec_sysReset (q : Req) (kind : Nat) (s : State) : exec (.sysReset q kind) s = execSysReset q kind s := rfl
@[simp] theorem exec_xferOpen (q : Req) (size : Nat) (s : State) : exec (.xferOpen q size) s = execXferOpen q size s := rfl
@[simp] theorem exec_xferWrite (q : Req) (handle : Nat) (offset : Nat) (data : Octets) (s : State) : exec (.xferWrite q handle offset data) s = execXferWrite q handle offset data s := rfl
@[simp] theorem exec_xferRead (q : Req) (handle : Nat) (offset : Nat) (len : Nat) (s : State) : exec (.xferRead q handle offset len) s = execXferRead q handle offset len s := rfl
@[simp] theorem exec_xferClose (q : Req) (handle : Nat) (s : State) : exec (.xferClose q handle) s = execXferClose q handle s := rfl
@[simp] theorem exec_bundleStage (q : Req) (buf : BufRef) (b : BundleContent) (s : State) : exec (.bundleStage q buf b) s = execBundleStage q buf b s := rfl
@[simp] theorem exec_bundleActivate (q : Req) (reset : Nat) (s : State) : exec (.bundleActivate q reset) s = execBundleActivate q reset s := rfl
@[simp] theorem exec_bundleCommit (q : Req) (s : State) : exec (.bundleCommit q) s = execBundleCommit q s := rfl
@[simp] theorem exec_bundleDiscard (q : Req) (s : State) : exec (.bundleDiscard q) s = execBundleDiscard q s := rfl
@[simp] theorem exec_bundleStatus (q : Req) (s : State) : exec (.bundleStatus q) s = execBundleStatus q s := rfl
@[simp] theorem exec_sliceCreate (q : Req) (p : SliceParams) (s : State) : exec (.sliceCreate q p) s = execSliceCreate q p s := rfl
@[simp] theorem exec_sliceRing (q : Req) (slice : Nat) (loc : Nat) (base : Nat) (s : State) : exec (.sliceRing q slice loc base) s = execSliceRing q slice loc base s := rfl
@[simp] theorem exec_sliceBind (q : Req) (slice : Nat) (add : Bool) (pasid : Nat) (s : State) : exec (.sliceBind q slice add pasid) s = execSliceBind q slice add pasid s := rfl
@[simp] theorem exec_sliceStart (q : Req) (slice : Nat) (s : State) : exec (.sliceStart q slice) s = execSliceStart q slice s := rfl
@[simp] theorem exec_sliceQuiesce (q : Req) (slice : Nat) (s : State) : exec (.sliceQuiesce q slice) s = execSliceQuiesce q slice s := rfl
@[simp] theorem exec_sliceReset (q : Req) (slice : Nat) (s : State) : exec (.sliceReset q slice) s = execSliceReset q slice s := rfl
@[simp] theorem exec_sliceRemove (q : Req) (slice : Nat) (s : State) : exec (.sliceRemove q slice) s = execSliceRemove q slice s := rfl
@[simp] theorem exec_sliceFault (q : Req) (slice : Nat) (s : State) : exec (.sliceFault q slice) s = execSliceFault q slice s := rfl
@[simp] theorem exec_sliceShare (q : Req) (slice : Nat) (inflight : Nat) (weight : Nat) (s : State) : exec (.sliceShare q slice inflight weight) s = execSliceShare q slice inflight weight s := rfl
@[simp] theorem exec_slicePv (q : Req) (slice : Nat) (en : Bool) (lats : Nat) (s : State) : exec (.slicePv q slice en lats) s = execSlicePv q slice en lats s := rfl
@[simp] theorem exec_sliceStatus (q : Req) (clear : Bool) (slice : Nat) (s : State) : exec (.sliceStatus q clear slice) s = execSliceStatus q clear slice s := rfl
@[simp] theorem exec_streamAdd (q : Req) (words : List Nat) (maps : List Nat) (s : State) : exec (.streamAdd q words maps) s = execStreamAdd q words maps s := rfl
@[simp] theorem exec_streamRemove (q : Req) (ctx : Nat) (s : State) : exec (.streamRemove q ctx) s = execStreamRemove q ctx s := rfl
@[simp] theorem exec_streamMode (q : Req) (ctx : Nat) (sim : Bool) (test : Bool) (s : State) : exec (.streamMode q ctx sim test) s = execStreamMode q ctx sim test s := rfl
@[simp] theorem exec_streamStatus (q : Req) (clear : Bool) (ctx : Nat) (s : State) : exec (.streamStatus q clear ctx) s = execStreamStatus q clear ctx s := rfl
@[simp] theorem exec_foreignList (q : Req) (s : State) : exec (.foreignList q) s = execForeignList q s := rfl
@[simp] theorem exec_foreignClear (q : Req) (index : Nat) (s : State) : exec (.foreignClear q index) s = execForeignClear q index s := rfl
@[simp] theorem exec_latticeStatus (q : Req) (clear : Bool) (lat : Nat) (s : State) : exec (.latticeStatus q clear lat) s = execLatticeStatus q clear lat s := rfl
@[simp] theorem exec_latticeSpec (q : Req) (lat : Nat) (en : Bool) (s : State) : exec (.latticeSpec q lat en) s = execLatticeSpec q lat en s := rfl
@[simp] theorem exec_latticeTol (q : Req) (lat : Nat) (tolI : Nat) (tolV : Nat) (tolRel : Nat) (s : State) : exec (.latticeTol q lat tolI tolV tolRel) s = execLatticeTol q lat tolI tolV tolRel s := rfl
@[simp] theorem exec_phasorStatus (q : Req) (clear : Bool) (s : State) : exec (.phasorStatus q clear) s = execPhasorStatus q clear s := rfl
@[simp] theorem exec_guardSet (q : Req) (g : Nat) (words : List Nat) (s : State) : exec (.guardSet q g words) s = execGuardSet q g words s := rfl
@[simp] theorem exec_guardEnable (q : Req) (g : Nat) (en : Bool) (s : State) : exec (.guardEnable q g en) s = execGuardEnable q g en s := rfl
@[simp] theorem exec_guardStatus (q : Req) (g : Nat) (s : State) : exec (.guardStatus q g) s = execGuardStatus q g s := rfl
@[simp] theorem exec_logicStatus (q : Req) (clear : Bool) (slot : Nat) (s : State) : exec (.logicStatus q clear slot) s = execLogicStatus q clear slot s := rfl
@[simp] theorem exec_logicRead (q : Req) (ops : List (Nat × Nat)) (s : State) : exec (.logicRead q ops) s = execLogicRead q ops s := rfl
@[simp] theorem exec_logicMode (q : Req) (slot : Nat) (mode : Nat) (s : State) : exec (.logicMode q slot mode) s = execLogicMode q slot mode s := rfl
@[simp] theorem exec_logicParam (q : Req) (slot : Nat) (counters : Bool) (vals : List (Nat × Nat)) (s : State) : exec (.logicParam q slot counters vals) s = execLogicParam q slot counters vals s := rfl
@[simp] theorem exec_logicForce (q : Req) (space : Nat) (index : Nat) (value : Bool) (s : State) : exec (.logicForce q space index value) s = execLogicForce q space index value s := rfl
@[simp] theorem exec_logicUnforce (q : Req) (space : Nat) (index : Nat) (s : State) : exec (.logicUnforce q space index) s = execLogicUnforce q space index s := rfl
@[simp] theorem exec_logicLoad (q : Req) (slot : Nat) (buf : BufRef) (p : ProgramImage) (s : State) : exec (.logicLoad q slot buf p) s = execLogicLoad q slot buf p s := rfl
@[simp] theorem exec_logicSwap (q : Req) (slot : Nat) (s : State) : exec (.logicSwap q slot) s = execLogicSwap q slot s := rfl
@[simp] theorem exec_logicAbort (q : Req) (s : State) : exec (.logicAbort q) s = execLogicAbort q s := rfl
@[simp] theorem exec_pubStatus (q : Req) (clear : Bool) (pub : Nat) (s : State) : exec (.pubStatus q clear pub) s = execPubStatus q clear pub s := rfl
@[simp] theorem exec_pubEnable (q : Req) (pub : Nat) (en : Bool) (s : State) : exec (.pubEnable q pub en) s = execPubEnable q pub en s := rfl
@[simp] theorem exec_pubMode (q : Req) (pub : Nat) (sim : Bool) (test : Bool) (s : State) : exec (.pubMode q pub sim test) s = execPubMode q pub sim test s := rfl
@[simp] theorem exec_recStatus (q : Req) (clear : Bool) (inst : Nat) (s : State) : exec (.recStatus q clear inst) s = execRecStatus q clear inst s := rfl
@[simp] theorem exec_recList (q : Req) (inst : Nat) (s : State) : exec (.recList q inst) s = execRecList q inst s := rfl
@[simp] theorem exec_recArm (q : Req) (inst : Nat) (s : State) : exec (.recArm q inst) s = execRecArm q inst s := rfl
@[simp] theorem exec_recDisarm (q : Req) (inst : Nat) (s : State) : exec (.recDisarm q inst) s = execRecDisarm q inst s := rfl
@[simp] theorem exec_recTrigger (q : Req) (inst : Nat) (s : State) : exec (.recTrigger q inst) s = execRecTrigger q inst s := rfl
@[simp] theorem exec_recRelease (q : Req) (inst : Nat) (buf : Option Nat) (s : State) : exec (.recRelease q inst buf) s = execRecRelease q inst buf s := rfl
@[simp] theorem exec_recExport (q : Req) (fmt : Nat) (cfg : BufRef) (dat : BufRef) (recs : List RecSrc) (s : State) : exec (.recExport q fmt cfg dat recs) s = execRecExport q fmt cfg dat recs s := rfl
@[simp] theorem exec_pairStatus (q : Req) (clear : Bool) (s : State) : exec (.pairStatus q clear) s = execPairStatus q clear s := rfl
@[simp] theorem exec_pairSwitch (q : Req) (s : State) : exec (.pairSwitch q) s = execPairSwitch q s := rfl
@[simp] theorem exec_pairFence (q : Req) (s : State) : exec (.pairFence q) s = execPairFence q s := rfl
@[simp] theorem exec_pairRelease (q : Req) (s : State) : exec (.pairRelease q) s = execPairRelease q s := rfl
@[simp] theorem exec_pairAlone (q : Req) (s : State) : exec (.pairAlone q) s = execPairAlone q s := rfl
@[simp] theorem exec_safetyStatus (q : Req) (clear : Bool) (s : State) : exec (.safetyStatus q clear) s = execSafetyStatus q clear s := rfl
@[simp] theorem exec_safetyAck (q : Req) (inst : Nat) (s : State) : exec (.safetyAck q inst) s = execSafetyAck q inst s := rfl
@[simp] theorem exec_safetyProof (q : Req) (k : Nat) (s : State) : exec (.safetyProof q k) s = execSafetyProof q k s := rfl
@[simp] theorem exec_safetyRestart (q : Req) (s : State) : exec (.safetyRestart q) s = execSafetyRestart q s := rfl
@[simp] theorem exec_domStatus (q : Req) (clear : Bool) (s : State) : exec (.domStatus q clear) s = execDomStatus q clear s := rfl
@[simp] theorem exec_domIdentity (q : Req) (s : State) : exec (.domIdentity q) s = execDomIdentity q s := rfl
@[simp] theorem exec_keyCreate (q : Req) (node : Nat) (kind : Nat) (parent : Nat) (s : State) : exec (.keyCreate q node kind parent) s = execKeyCreate q node kind parent s := rfl
@[simp] theorem exec_keyDestroy (q : Req) (node : Nat) (s : State) : exec (.keyDestroy q node) s = execKeyDestroy q node s := rfl
@[simp] theorem exec_keyPut (q : Req) (fmt : KeyForm) (transport : Nat) (map : List (Nat × Nat)) (integrityOk : SealedKeys) (algOk : Bool) (keys : List KeyBlob) (s : State) : exec (.keyPut q fmt transport map integrityOk algOk keys) s = execKeyPut q fmt transport map integrityOk algOk keys s := rfl
@[simp] theorem exec_keyAgree (q : Req) (node : Nat) (signer : Nat) (peer : Nat) (info : List Nat) (s : State) : exec (.keyAgree q node signer peer info) s = execKeyAgree q node signer peer info s := rfl
@[simp] theorem exec_keyInfo (q : Req) (node : Nat) (s : State) : exec (.keyInfo q node) s = execKeyInfo q node s := rfl
@[simp] theorem exec_anchorSet (q : Req) (node : Nat) (pub : Nat) (usage : Nat) (stmt : List Nat) (sig : Nat) (s : State) : exec (.anchorSet q node pub usage stmt sig) s = execAnchorSet q node pub usage stmt sig s := rfl
@[simp] theorem exec_measExtend (q : Req) (slot : Nat) (digest : Nat) (s : State) : exec (.measExtend q slot digest) s = execMeasExtend q slot digest s := rfl
@[simp] theorem exec_measRead (q : Req) (s : State) : exec (.measRead q) s = execMeasRead q s := rfl
@[simp] theorem exec_attestQuote (q : Req) (nonce : Octets) (mask : Nat) (s : State) : exec (.attestQuote q nonce mask) s = execAttestQuote q nonce mask s := rfl
@[simp] theorem exec_attestAkCert (q : Req) (s : State) : exec (.attestAkCert q) s = execAttestAkCert q s := rfl
@[simp] theorem exec_debugChallenge (q : Req) (s : State) : exec (.debugChallenge q) s = execDebugChallenge q s := rfl
@[simp] theorem exec_debugOpen (q : Req) (enMs : Option Nat) (sel : Bool) (token : List Nat) (challenge : Nat) (dikFp : Nat) (sig : Nat) (signer : Nat) (fuseOk : Bool) (s : State) : exec (.debugOpen q enMs sel token challenge dikFp sig signer fuseOk) s = execDebugOpen q enMs sel token challenge dikFp sig signer fuseOk s := rfl
@[simp] theorem exec_healthStatus (q : Req) (clear : Bool) (s : State) : exec (.healthStatus q clear) s = execHealthStatus q clear s := rfl
@[simp] theorem exec_faultClear (q : Req) (mask : Nat) (s : State) : exec (.faultClear q mask) s = execFaultClear q mask s := rfl
@[simp] theorem exec_ageingStatus (q : Req) (s : State) : exec (.ageingStatus q) s = execAgeingStatus q s := rfl
@[simp] theorem exec_ageingMeasure (q : Req) (s : State) : exec (.ageingMeasure q) s = execAgeingMeasure q s := rfl
@[simp] theorem exec_belfryRead (q : Req) (area : Nat) (start : Nat) (count : Nat) (s : State) : exec (.belfryRead q area start count) s = execBelfryRead q area start count s := rfl
@[simp] theorem exec_flashStatus (q : Req) (s : State) : exec (.flashStatus q) s = execFlashStatus q s := rfl
@[simp] theorem exec_weevilStatus (q : Req) (clear : Bool) (s : State) : exec (.weevilStatus q clear) s = execWeevilStatus q clear s := rfl
@[simp] theorem exec_weevilRule (q : Req) (rule : Nat) (mtch : Nat) (action : Nat) (count : Nat) (s : State) : exec (.weevilRule q rule mtch action count) s = execWeevilRule q rule mtch action count s := rfl
@[simp] theorem exec_weevilArm (q : Req) (arm : Bool) (s : State) : exec (.weevilArm q arm) s = execWeevilArm q arm s := rfl
@[simp] theorem exec_sctWrite (m : Master) (index : Nat) (s : State) : exec (.sctWrite m index) s = execSctWrite m index s := rfl
@[simp] theorem exec_sctRemove (m : Master) (index : Nat) (s : State) : exec (.sctRemove m index) s = execSctRemove m index s := rfl
@[simp] theorem exec_sctRead (m : Master) (index : Nat) (clr : Bool) (s : State) : exec (.sctRead m index clr) s = execSctRead m index clr s := rfl
@[simp] theorem exec_sctMapWrite (m : Master) (index : Nat) (s : State) : exec (.sctMapWrite m index) s = execSctMapWrite m index s := rfl
@[simp] theorem exec_sctMapRead (m : Master) (index : Nat) (s : State) : exec (.sctMapRead m index) s = execSctMapRead m index s := rfl
@[simp] theorem exec_sctForeignRead (m : Master) (index : Nat) (s : State) : exec (.sctForeignRead m index) s = execSctForeignRead m index s := rfl
@[simp] theorem exec_sctForeignClear (m : Master) (index : Nat) (s : State) : exec (.sctForeignClear m index) s = execSctForeignClear m index s := rfl
@[simp] theorem exec_sctMode (m : Master) (index : Nat) (s : State) : exec (.sctMode m index) s = execSctMode m index s := rfl
@[simp] theorem exec_pheWrite (m : Master) (table : Nat) (index : Nat) (s : State) : exec (.pheWrite m table index) s = execPheWrite m table index s := rfl
@[simp] theorem exec_pheRead (m : Master) (table : Nat) (index : Nat) (s : State) : exec (.pheRead m table index) s = execPheRead m table index s := rfl
@[simp] theorem exec_gcmWrite (m : Master) (index : Nat) (s : State) : exec (.gcmWrite m index) s = execGcmWrite m index s := rfl
@[simp] theorem exec_gcmParam (m : Master) (index : Nat) (s : State) : exec (.gcmParam m index) s = execGcmParam m index s := rfl
@[simp] theorem exec_gcmRead (m : Master) (index : Nat) (s : State) : exec (.gcmRead m index) s = execGcmRead m index s := rfl
@[simp] theorem exec_gcmEnable (m : Master) (index : Nat) (s : State) : exec (.gcmEnable m index) s = execGcmEnable m index s := rfl
@[simp] theorem exec_gcmState (m : Master) (index : Nat) (s : State) : exec (.gcmState m index) s = execGcmState m index s := rfl
@[simp] theorem exec_slpWrite (m : Master) (table : Nat) (index : Nat) (s : State) : exec (.slpWrite m table index) s = execSlpWrite m table index s := rfl
@[simp] theorem exec_slpRead (m : Master) (table : Nat) (index : Nat) (s : State) : exec (.slpRead m table index) s = execSlpRead m table index s := rfl
@[simp] theorem exec_slpState (m : Master) (table : Nat) (index : Nat) (s : State) : exec (.slpState m table index) s = execSlpState m table index s := rfl
@[simp] theorem exec_slpOpnd (m : Master) (table : Nat) (index : Nat) (s : State) : exec (.slpOpnd m table index) s = execSlpOpnd m table index s := rfl
@[simp] theorem exec_pubWrite (m : Master) (index : Nat) (s : State) : exec (.pubWrite m index) s = execPubWrite m index s := rfl
@[simp] theorem exec_pubRead (m : Master) (index : Nat) (s : State) : exec (.pubRead m index) s = execPubRead m index s := rfl
@[simp] theorem exec_pubMembWrite (m : Master) (index : Nat) (s : State) : exec (.pubMembWrite m index) s = execPubMembWrite m index s := rfl
@[simp] theorem exec_pubMembRead (m : Master) (index : Nat) (s : State) : exec (.pubMembRead m index) s = execPubMembRead m index s := rfl
@[simp] theorem exec_pubCmdEnable (m : Master) (index : Nat) (s : State) : exec (.pubCmdEnable m index) s = execPubCmdEnable m index s := rfl
@[simp] theorem exec_pubCmdMode (m : Master) (index : Nat) (s : State) : exec (.pubCmdMode m index) s = execPubCmdMode m index s := rfl
@[simp] theorem exec_pubStat (m : Master) (index : Nat) (s : State) : exec (.pubStat m index) s = execPubStat m index s := rfl
@[simp] theorem exec_dreWrite (m : Master) (table : Nat) (index : Nat) (s : State) : exec (.dreWrite m table index) s = execDreWrite m table index s := rfl
@[simp] theorem exec_dreRead (m : Master) (table : Nat) (index : Nat) (s : State) : exec (.dreRead m table index) s = execDreRead m table index s := rfl
@[simp] theorem exec_dreArm (m : Master) (index : Nat) (s : State) : exec (.dreArm m index) s = execDreArm m index s := rfl
@[simp] theorem exec_dreDisarm (m : Master) (index : Nat) (s : State) : exec (.dreDisarm m index) s = execDreDisarm m index s := rfl
@[simp] theorem exec_dreTrigger (m : Master) (index : Nat) (s : State) : exec (.dreTrigger m index) s = execDreTrigger m index s := rfl
@[simp] theorem exec_dreRelease (m : Master) (index : Nat) (s : State) : exec (.dreRelease m index) s = execDreRelease m index s := rfl
@[simp] theorem exec_dreStat (m : Master) (index : Nat) (s : State) : exec (.dreStat m index) s = execDreStat m index s := rfl
@[simp] theorem exec_sltWrite (m : Master) (table : Nat) (index : Nat) (s : State) : exec (.sltWrite m table index) s = execSltWrite m table index s := rfl
@[simp] theorem exec_sltRead (m : Master) (table : Nat) (index : Nat) (s : State) : exec (.sltRead m table index) s = execSltRead m table index s := rfl
@[simp] theorem exec_sltStat (m : Master) (index : Nat) (clr : Bool) (s : State) : exec (.sltStat m index clr) s = execSltStat m index clr s := rfl
@[simp] theorem exec_scrubPass (mem : ScrubMem) (addr : Nat) (find : ScrubFind) (passEnd : Bool) (s : State) : exec (.scrubPass mem addr find passEnd) s = execScrubPass mem addr find passEnd s := rfl
@[simp] theorem exec_flashRefresh (block : Nat) (corrections : Nat) (failed : Bool) (s : State) : exec (.flashRefresh block corrections failed) s = execFlashRefresh block corrections failed s := rfl
@[simp] theorem exec_telemetrySample (vals : List Int) (s : State) : exec (.telemetrySample vals) s = execTelemetrySample vals s := rfl
@[simp] theorem exec_histogramUpdate (s : State) : exec .histogramUpdate s = execHistogramUpdate s := rfl
@[simp] theorem exec_operatingDayEnd (s : State) : exec .operatingDayEnd s = execOperatingDayEnd s := rfl
@[simp] theorem exec_deferredMeasurement (s : State) : exec .deferredMeasurement s = execDeferredMeasurement s := rfl
@[simp] theorem exec_measurementComplete (slacks : List Nat) (vcore : List Nat) (tdie : List Int) (s : State) : exec (.measurementComplete slacks vcore tdie) s = execMeasurementComplete slacks vcore tdie s := rfl
@[simp] theorem exec_thermalStep (mean : Int) (s : State) : exec (.thermalStep mean) s = execThermalStep mean s := rfl
@[simp] theorem exec_thermalStepDown (mean : Int) (s : State) : exec (.thermalStepDown mean) s = execThermalStepDown mean s := rfl
@[simp] theorem exec_belfryMirror (s : State) : exec .belfryMirror s = execBelfryMirror s := rfl
@[simp] theorem exec_blfCursorWrite (m : Master) (value : Nat) (s : State) : exec (.blfCursorWrite m value) s = execBlfCursorWrite m value s := rfl
@[simp] theorem exec_blfStepNext (m : Master) (value : Nat) (s : State) : exec (.blfStepNext m value) s = execBlfStepNext m value s := rfl
@[simp] theorem exec_carRstNRelease (s : State) : exec .carRstNRelease s = execCarRstNRelease s := rfl
@[simp] theorem exec_pdelayRespFollowUpRx (m : PtpPdelay) (s : State) : exec (.pdelayRespFollowUpRx m) s = execPdelayRespFollowUpRx m s := rfl
@[simp] theorem exec_tlsSessionClose (sess : Nat) (s : State) : exec (.tlsSessionClose sess) s = execTlsSessionClose sess s := rfl

end Sys2Proof.Machine
end

