-- ==== Sys2Proof/Laws/Tbl.lean ====
section
/-! SUPPORT. Laws of the sparse tables and of memory: what a read gives after a write, and that every operation on them keeps their
canonical form. -/
namespace Sys2Proof.Machine

/-! ### Reads after writes -/

theorem Tbl.get_del_same {α : Type} (d : α) (k : Nat) (t : Tbl α) : Tbl.get d k (Tbl.del k t) = d := by
  induction t with
  | nil => rfl
  | cons p t ih => obtain ⟨j, v⟩ := p; simp only [Tbl.del]; split <;> simp_all [Tbl.get]

theorem Tbl.get_del_ne {α : Type} (d : α) {k l : Nat} (h : l ≠ k) (t : Tbl α) : Tbl.get d l (Tbl.del k t) = Tbl.get d l t := by
  induction t with
  | nil => rfl
  | cons p t ih =>
    obtain ⟨j, v⟩ := p
    simp only [Tbl.del]
    split <;> simp_all [Tbl.get]
    intro hh; exact absurd hh.symm h

theorem Tbl.get_put_same {α : Type} (d : α) (k : Nat) (v : α) (t : Tbl α) : Tbl.get d k (Tbl.put k v t) = v := by
  induction t with
  | nil => simp [Tbl.put, Tbl.get]
  | cons p t ih =>
    obtain ⟨j, w⟩ := p
    simp only [Tbl.put]
    split
    · simp [Tbl.get]
    · split <;> simp_all [Tbl.get]

theorem Tbl.get_put_ne {α : Type} (d : α) {k l : Nat} (h : l ≠ k) (v : α) (t : Tbl α) :
    Tbl.get d l (Tbl.put k v t) = Tbl.get d l t := by
  induction t with
  | nil => simp [Tbl.put, Tbl.get]; omega
  | cons p t ih =>
    obtain ⟨j, w⟩ := p
    simp only [Tbl.put]
    split
    · simp [Tbl.get]; omega
    · split <;> simp_all [Tbl.get]
      rw [if_neg (Ne.symm h), if_neg (Ne.symm h)]

@[simp] theorem Tbl.get_set_same {α : Type} [DecidableEq α] (d : α) (k : Nat) (v : α) (t : Tbl α) :
    Tbl.get d k (Tbl.set d k v t) = v := by
  unfold Tbl.set; split <;> simp_all [Tbl.get_del_same, Tbl.get_put_same]

theorem Tbl.get_set_ne {α : Type} [DecidableEq α] (d e : α) {k l : Nat} (h : l ≠ k) (v : α) (t : Tbl α) :
    Tbl.get e l (Tbl.set d k v t) = Tbl.get e l t := by
  unfold Tbl.set; split <;> simp_all [Tbl.get_del_ne, Tbl.get_put_ne]

/-- A table read after a write. -/
theorem Tbl.get_set {α : Type} [DecidableEq α] (d : α) (k l : Nat) (v : α) (t : Tbl α) :
    Tbl.get d l (Tbl.set d k v t) = if l = k then v else Tbl.get d l t := by
  split <;> simp_all [Tbl.get_set_ne]

/-- A table read after an update of one entry. -/
theorem Tbl.get_mod {α : Type} [DecidableEq α] (d : α) (k l : Nat) (f : α → α) (t : Tbl α) :
    Tbl.get d l (Tbl.mod d k f t) = if l = k then f (Tbl.get d k t) else Tbl.get d l t := by
  simp only [Tbl.mod, Tbl.get_set]

/-- A table read after every entry was mapped. -/
theorem Tbl.get_map {α : Type} (d : α) (f : α → α) (hd : f d = d) (k : Nat) (t : Tbl α) :
    Tbl.get d k (t.map (fun p => (p.1, f p.2))) = f (Tbl.get d k t) := by
  induction t with
  | nil => simp [Tbl.get, hd]
  | cons p t ih => obtain ⟨j, v⟩ := p; simp only [List.map, Tbl.get]; split <;> simp_all

/-- A table that lists every key below `n` from a function. -/
theorem Tbl.get_range_map {α : Type} (d : α) (f : Nat → α) (n k : Nat) :
    Tbl.get d k ((List.range n).map (fun i => (i, f i))) = if k < n then f k else d := by
  have app : ∀ (t u : Tbl α), Tbl.get d k (t ++ u) = if Tbl.has k t then Tbl.get d k t else Tbl.get d k u := by
    intro t u
    induction t with
    | nil => simp [Tbl.get, Tbl.has]
    | cons p t ih =>
      obtain ⟨j, v⟩ := p
      simp only [List.cons_append, Tbl.get, Tbl.has]
      by_cases hj : j = k <;> simp [hj, ih]
  have has : ∀ n, Tbl.has k ((List.range n).map (fun i => (i, f i))) = decide (k < n) := by
    intro n
    have happ : ∀ (t u : Tbl α), Tbl.has k (t ++ u) = (Tbl.has k t || Tbl.has k u) := by
      intro t u
      induction t with
      | nil => simp [Tbl.has]
      | cons p t ih => obtain ⟨j, v⟩ := p; simp [Tbl.has, ih, Bool.or_assoc]
    induction n with
    | zero => simp [Tbl.has]
    | succ n ih =>
      rw [List.range_succ, List.map_append, happ, ih]
      simp only [List.map, Tbl.has, Bool.or_false, ← Bool.decide_or]
      exact decide_eq_decide.mpr (by omega)
  induction n with
  | zero => simp [Tbl.get]
  | succ n ih =>
    rw [List.range_succ, List.map_append, app, has, ih]
    simp only [List.map, Tbl.get, decide_eq_true_eq]
    by_cases h : k < n
    · simp [h, Nat.lt_succ_of_lt h]
    · by_cases e : n = k
      · subst e; simp
      · have : ¬ k < n + 1 := by omega
        simp [h, e, this]

/-! ### The canonical form -/

theorem Tbl.rising_mono {α : Type} {t : Tbl α} {a b : Option Nat} (h : Tbl.rising b t = true)
    (hab : ∀ i, a = some i → ∃ j, b = some j ∧ i ≤ j) : Tbl.rising a t = true := by
  cases t with
  | nil => cases a <;> rfl
  | cons p t =>
    obtain ⟨k, v⟩ := p
    cases a with
    | none => cases b <;> simp_all [Tbl.rising]
    | some i =>
      obtain ⟨j, rfl, hij⟩ := hab i rfl
      simp only [Tbl.rising, Bool.and_eq_true, decide_eq_true_eq] at h ⊢
      exact ⟨by omega, h.2⟩

theorem Tbl.rising_del {α : Type} {t : Tbl α} {a : Option Nat} (k : Nat) (h : Tbl.rising a t = true) :
    Tbl.rising a (Tbl.del k t) = true := by
  induction t generalizing a with
  | nil => simpa [Tbl.del] using h
  | cons p t ih =>
    obtain ⟨j, v⟩ := p
    simp only [Tbl.del]
    split
    · refine ih (Tbl.rising_mono (b := some j) ?_ ?_)
      · cases a <;> simp_all [Tbl.rising]
      · intro i hi; subst hi; simp only [Tbl.rising, Bool.and_eq_true, decide_eq_true_eq] at h; exact ⟨j, rfl, by omega⟩
    · cases a <;> simp_all [Tbl.rising]

theorem Tbl.rising_put {α : Type} {t : Tbl α} {a : Option Nat} (k : Nat) (v : α) (h : Tbl.rising a t = true)
    (ha : ∀ i, a = some i → i < k) : Tbl.rising a (Tbl.put k v t) = true := by
  induction t generalizing a with
  | nil => cases a <;> simp_all [Tbl.put, Tbl.rising]
  | cons p t ih =>
    obtain ⟨j, w⟩ := p
    simp only [Tbl.put]
    split
    · cases a <;> simp_all [Tbl.rising]
    · split
      · cases a <;> simp_all [Tbl.rising]
      · have h2 : Tbl.rising (some j) t = true := by cases a <;> simp_all [Tbl.rising]
        have := ih h2 (by intro i hi; cases hi; omega)
        cases a <;> simp_all [Tbl.rising]

/-- A write keeps keys rising. -/
theorem Tbl.rising_set {α : Type} [DecidableEq α] {t : Tbl α} (d : α) (k : Nat) (v : α) (h : Tbl.rising none t = true) :
    Tbl.rising none (Tbl.set d k v t) = true := by
  unfold Tbl.set; split
  · exact Tbl.rising_del k h
  · exact Tbl.rising_put k v h (by intro i hi; cases hi)

theorem Tbl.rising_filter {α : Type} {t : Tbl α} {a : Option Nat} (f : Nat × α → Bool) (h : Tbl.rising a t = true) :
    Tbl.rising a (t.filter f) = true := by
  induction t generalizing a with
  | nil => simpa using h
  | cons p t ih =>
    obtain ⟨j, v⟩ := p
    have h2 : Tbl.rising (some j) t = true := by cases a <;> simp_all [Tbl.rising]
    simp only [List.filter]
    split
    · have := ih h2
      cases a <;> simp_all [Tbl.rising]
    · refine ih (Tbl.rising_mono h2 ?_)
      intro i hi; subst hi; simp only [Tbl.rising, Bool.and_eq_true, decide_eq_true_eq] at h; exact ⟨j, rfl, by omega⟩

theorem Tbl.mem_del {α : Type} {k : Nat} {t : Tbl α} {p : Nat × α} (h : p ∈ Tbl.del k t) : p ∈ t := by
  induction t with
  | nil => simp [Tbl.del] at h
  | cons q t ih => obtain ⟨j, v⟩ := q; simp only [Tbl.del] at h; split at h <;> simp_all; tauto

theorem Tbl.mem_put {α : Type} {k : Nat} {v : α} {t : Tbl α} {p : Nat × α} (h : p ∈ Tbl.put k v t) : p = (k, v) ∨ p ∈ t := by
  induction t with
  | nil => simp_all [Tbl.put]
  | cons q t ih => obtain ⟨j, w⟩ := q; simp only [Tbl.put] at h; split at h <;> simp_all; split at h <;> simp_all <;> tauto

/-- A write keeps the canonical form. -/
theorem Tbl.wf_set {α : Type} [DecidableEq α] {t : Tbl α} (d : α) (k : Nat) (v : α) (h : Tbl.wf d t = true) :
    Tbl.wf d (Tbl.set d k v t) = true := by
  simp only [Tbl.wf, Bool.and_eq_true, List.all_eq_true, decide_eq_true_eq] at h ⊢
  refine ⟨Tbl.rising_set d k v h.1, fun p hp => ?_⟩
  unfold Tbl.set at hp; split at hp
  · exact h.2 p (Tbl.mem_del hp)
  · rcases Tbl.mem_put hp with rfl | hp
    · assumption
    · exact h.2 p hp

theorem Tbl.wf_filter {α : Type} [DecidableEq α] {t : Tbl α} (d : α) (f : Nat × α → Bool) (h : Tbl.wf d t = true) :
    Tbl.wf d (t.filter f) = true := by
  simp only [Tbl.wf, Bool.and_eq_true, List.all_eq_true, decide_eq_true_eq] at h ⊢
  exact ⟨Tbl.rising_filter f h.1, fun p hp => h.2 p (List.mem_filter.1 hp).1⟩

/-! ### Memory (R8, R27) -/

/-- An octet written keeps memory canonical. -/
theorem memSet_wf {m : List Host.Cell} (a : Nat) (b : Byte) (h : Memory.wf m = true) : Memory.wf (memSet a b m) = true :=
  Tbl.wf_set 0 a b h

/-- Octets written keep memory canonical. -/
theorem memPut_wf {m : List Host.Cell} (a : Nat) (o : Octets) (h : Memory.wf m = true) : Memory.wf (memPut a o m) = true := by
  induction o generalizing a m with
  | nil => exact h
  | cons b t ih => exact ih _ (memSet_wf a b h)

/-- An area zeroed keeps memory canonical. -/
theorem memClear_wf {m : List Host.Cell} (lo hi : Nat) (h : Memory.wf m = true) : Memory.wf (memClear lo hi m) = true :=
  Tbl.wf_filter 0 _ h

/-- An octet read after octets were written. -/
theorem memGet_memPut (a b : Nat) (o : Octets) (m : List Host.Cell) :
    memGet b (memPut a o m) = if a ≤ b ∧ b < a + o.length then o.getD (b - a) 0 else memGet b m := by
  induction o generalizing a m with
  | nil => simp [memPut]
  | cons x t ih =>
    simp only [memPut, ih, List.length_cons]
    by_cases h : b = a
    · subst h; simp [memGet, memSet]
    · rw [show memGet b (memSet a x m) = memGet b m from Tbl.get_set_ne _ _ h _ _]
      by_cases h2 : a ≤ b ∧ b < a + (t.length + 1)
      · rw [if_pos (by omega), if_pos h2]
        obtain ⟨k, hk⟩ : ∃ k, b - a = k + 1 := ⟨b - a - 1, by omega⟩
        rw [show b - (a + 1) = k from by omega, hk]
        simp
      · rw [if_neg (by omega), if_neg h2]

/-- Octets read after octets were written over exactly that area. -/
theorem memTake_memPut (a : Nat) (o : Octets) (m : List Host.Cell) : memTake (memPut a o m) o.length a = o := by
  have key : ∀ (n b : Nat) (l : Octets), l.length = n → (∀ i < n, memGet (b + i) (memPut a o m) = l.getD i 0) →
      memTake (memPut a o m) n b = l := by
    intro n
    induction n with
    | zero => intro b l hl _; simp [memTake, List.length_eq_zero_iff.1 hl]
    | succ n ih =>
      intro b l hl hg
      cases l with
      | nil => simp at hl
      | cons x t =>
        simp only [memTake]
        rw [ih (b + 1) t (by simpa using hl) (fun i hi => by have := hg (i + 1) (by omega); simpa [Nat.add_assoc, Nat.add_comm 1] using this)]
        have := hg 0 (by omega)
        simp at this; rw [this]
  refine key _ _ _ rfl (fun i hi => ?_)
  rw [memGet_memPut, if_pos (by omega)]; congr 1; omega

@[simp] theorem le_length (n v : Nat) : (le n v).length = n := by
  induction n generalizing v with
  | zero => rfl
  | succ n ih => simp [le, ih]

/-- The number that the octets of a number spell. -/
theorem ofLe_le (n v : Nat) : ofLe (le n v) = v % 256 ^ n := by
  induction n generalizing v with
  | zero => simp [le, ofLe, Nat.mod_one]
  | succ n ih =>
    simp only [le, ofLe, ih, BitVec.toNat_ofNat]
    have h : (2 : Nat) ^ 8 = 256 := rfl
    rw [h, Nat.pow_succ, Nat.mul_comm (256 ^ n) 256, Nat.mod_mul]

/-- A little-endian number read where one of the same width was stored (R8). -/
theorem rd_wr_same (s : State) (a n v : Nat) : (s.wr a n v).rd a n = v % 256 ^ n := by
  simp only [State.rd, State.wr]
  rw [show memTake (memPut a (le n v) s.mem) n a = le n v from by simpa using memTake_memPut a (le n v) s.mem, ofLe_le]

end Sys2Proof.Machine
end

