-- ==== Sys2Proof/Laws/Keeps.lean ====
section
/-! SUPPORT. The relation that every operation keeps: memory and the register file stay canonical, and the queue of waiting commands
stays as it is; with the rules that carry it through conditionals, folds and record updates. -/
namespace Sys2Proof.Machine

/-- From `s` to `t` memory and the register file stay canonical and the queue is untouched. -/
def Keeps (s t : State) : Prop :=
  (Memory.wf s.mem = true → Memory.wf t.mem = true) ∧ (Tbl.rising none s.regs = true → Tbl.rising none t.regs = true) ∧
    t.pending = s.pending

/-- `Keeps` of an answer: of the next state, where there is one. -/
def KeepsR (s : State) (r : Result) : Prop := ∀ t, r = .next t → Keeps s t

/-- `Keeps` of an optional state. -/
def KeepsO (s : State) (o : Option State) : Prop := ∀ t, o = some t → Keeps s t

theorem Keeps.refl (s : State) : Keeps s s := ⟨id, id, rfl⟩

theorem Keeps.cut {s t : State} {G : Prop} (h : Keeps s t) (k : Keeps s t → G) : G := k h

theorem Keeps.cut2 {α : Type} {s : State} {x : α × State} {G : Prop} (h : Keeps s x.2) (k : Keeps s x.2 → G) : G := k h

theorem Keeps.cut1 {α : Type} {s : State} {x : State × α} {G : Prop} (h : Keeps s x.1) (k : Keeps s x.1 → G) : G := k h

theorem Keeps.cutF1 {s : State} {f : State → State} {G : Prop} (h : ∀ u, Keeps s u → Keeps s (f u))
    (k : (∀ u, Keeps s u → Keeps s (f u)) → G) : G := k h

theorem Keeps.cutF2 {α : Type} {s : State} {f : State → α → State} {G : Prop} (h : ∀ u a, Keeps s u → Keeps s (f u a))
    (k : (∀ u a, Keeps s u → Keeps s (f u a)) → G) : G := k h

theorem Keeps.cutG2 {α : Type} {s : State} {f : α → State → State} {G : Prop} (h : ∀ a u, Keeps s u → Keeps s (f a u))
    (k : (∀ a u, Keeps s u → Keeps s (f a u)) → G) : G := k h

theorem Keeps.cutF3 {α β : Type} {s : State} {f : State → α → β → State} {G : Prop} (h : ∀ u a b, Keeps s u → Keeps s (f u a b))
    (k : (∀ u a b, Keeps s u → Keeps s (f u a b)) → G) : G := k h

theorem Keeps.cutF4 {α β γ δ : Type} {s : State} {f : α → β → γ → δ → State} {G : Prop} (h : ∀ a b c d, Keeps s (f a b c d))
    (k : (∀ a b c d, Keeps s (f a b c d)) → G) : G := k h

theorem Keeps.ite {s a b : State} {c : Prop} [Decidable c] (ha : Keeps s a) (hb : Keeps s b) : Keeps s (if c then a else b) := by
  split <;> assumption

theorem Keeps.ite2 {α : Type} {s : State} {a b : α × State} {c : Prop} [Decidable c] (ha : Keeps s a.2) (hb : Keeps s b.2) :
    Keeps s (if c then a else b).2 := by
  split <;> assumption

theorem Keeps.ite22 {α β : Type} {s : State} {a b : α × β × State} {c : Prop} [Decidable c] (ha : Keeps s a.2.2) (hb : Keeps s b.2.2) :
    Keeps s (if c then a else b).2.2 := by
  split <;> assumption

theorem KeepsR.ite {s : State} {a b : Result} {c : Prop} [Decidable c] (ha : KeepsR s a) (hb : KeepsR s b) :
    KeepsR s (if c then a else b) := by
  split <;> assumption

theorem KeepsO.ite {s : State} {a b : Option State} {c : Prop} [Decidable c] (ha : KeepsO s a) (hb : KeepsO s b) :
    KeepsO s (if c then a else b) := by
  split <;> assumption

theorem KeepsR.next {s t : State} (h : Keeps s t) : KeepsR s (.next t) := by intro u hu; cases hu; exact h

theorem KeepsR.fault {s : State} {f : Fault} : KeepsR s (.fault f) := by intro u hu; cases hu

theorem KeepsO.some {s t : State} (h : Keeps s t) : KeepsO s (some t) := by intro u hu; cases hu; exact h

theorem KeepsO.none {s : State} : KeepsO s none := by intro u hu; cases hu

theorem Keeps.foldl {β : Type} {s₀ s : State} {f : State → β → State} {l : List β} (h : Keeps s₀ s)
    (hf : ∀ t x, Keeps s₀ t → Keeps s₀ (f t x)) : Keeps s₀ (l.foldl f s) := by
  induction l generalizing s with
  | nil => exact h
  | cons a l ih => exact ih (hf _ _ h)

theorem Keeps.foldl2 {α β : Type} {s₀ : State} {f : α × State → β → α × State} {l : List β} {x : α × State} (h : Keeps s₀ x.2)
    (hf : ∀ t b, Keeps s₀ t.2 → Keeps s₀ (f t b).2) : Keeps s₀ (l.foldl f x).2 := by
  induction l generalizing x with
  | nil => exact h
  | cons a l ih => exact ih (hf _ _ h)

theorem Keeps.forN {s₀ s : State} {n : Nat} {f : State → Nat → State} (h : Keeps s₀ s)
    (hf : ∀ t x, Keeps s₀ t → Keeps s₀ (f t x)) : Keeps s₀ (forN n f s) := Keeps.foldl h hf

/-- `Keeps`, of the three fields it speaks of. -/
def KeepsD (s : State) (regs : Tbl Nat) (mem : List Host.Cell) (pending : List Instr) : Prop :=
  (Memory.wf s.mem = true → Memory.wf mem = true) ∧ (Tbl.rising none s.regs = true → Tbl.rising none regs = true) ∧
    pending = s.pending

theorem Keeps.mk_eq {s : State} {regs : Tbl Nat} {mem : List Host.Cell} {bus : BusResp} {sup : Supply} {keep : Keep} {qbc : Qbc}
    {tbu : Tbu} {mac : Tbl Mac} {pairs : Tbl Pair} {wvl : Wvl} {ing : Ingress} {lat : Tbl Lattice} {phe : Phe} {gcm : Gcm} {slp : Slp}
    {pub : Pub} {dre : Dre} {slt : Slt} {prc : Prc} {psc : Island} {dom : Dome} {tmc : Tmc} {hlt : Health} {cmds : Tbl CmdOut} {free :
    Nat} {pending : List Instr} :
    Keeps s ⟨regs, mem, bus, sup, keep, qbc, tbu, mac, pairs, wvl, ing, lat, phe, gcm, slp, pub, dre, slt, prc, psc, dom, tmc,
    hlt, cmds, free, pending⟩ = KeepsD s regs mem pending := rfl

theorem KeepsD.of {s t : State} (h : Keeps s t) : KeepsD s t.regs t.mem t.pending := h

theorem KeepsD.clear {s t : State} {lo hi : Nat} (h : Keeps s t) : KeepsD s t.regs (memClear lo hi t.mem) t.pending :=
  ⟨fun hm => memClear_wf _ _ (h.1 hm), h.2⟩

theorem KeepsD.filter {s t : State} {f : Nat × Nat → Bool} {g : Host.Cell → Bool} (h : Keeps s t) :
    KeepsD s (t.regs.filter f) (t.mem.filter g) t.pending :=
  ⟨fun hm => Tbl.wf_filter 0 _ (h.1 hm), fun hr => Tbl.rising_filter _ (h.2.1 hr), h.2.2⟩

theorem KeepsD.filterRegs {s t : State} {f : Nat × Nat → Bool} (h : Keeps s t) : KeepsD s (t.regs.filter f) t.mem t.pending :=
  ⟨h.1, fun hr => Tbl.rising_filter _ (h.2.1 hr), h.2.2⟩

/-! ### The primitives -/

theorem State.setF_keeps {s₀ s : State} {f : Field} {v : Nat} (h : Keeps s₀ s) : Keeps s₀ (s.setF f v) :=
  ⟨h.1, fun hr => Tbl.rising_set _ _ _ (h.2.1 hr), h.2.2⟩

theorem State.clearPage_keeps {s₀ s : State} {lo hi : Nat} (h : Keeps s₀ s) : Keeps s₀ (s.clearPage lo hi) :=
  ⟨h.1, fun hr => Tbl.rising_filter _ (h.2.1 hr), h.2.2⟩

theorem State.wr_keeps {s₀ s : State} {a n v : Nat} (h : Keeps s₀ s) : Keeps s₀ (s.wr a n v) :=
  ⟨fun hm => memPut_wf _ _ (h.1 hm), h.2⟩

theorem State.wrOctets_keeps {s₀ s : State} {a : Nat} {o : Octets} (h : Keeps s₀ s) : Keeps s₀ (s.wrOctets a o) :=
  ⟨fun hm => memPut_wf _ _ (h.1 hm), h.2⟩

theorem State.wrWords_keeps {s₀ s : State} {a : Nat} {ws : List Nat} (h : Keeps s₀ s) : Keeps s₀ (s.wrWords a ws) := by
  induction ws generalizing s a with
  | nil => exact h
  | cons w t ih => exact ih (State.wr_keeps h)

end Sys2Proof.Machine
end

