-- ==== Sys2Proof/Laws/KeepsOps.lean ====
section
/-! SUPPORT. What the operations keep: each leaves memory and the register file canonical and the queue as it is. -/
namespace Sys2Proof.Machine

/-! ### Ops -/

theorem State.writeField_keeps {s₀ : State} {s : State} {f : Field} {v : Nat} (hk : Keeps s₀ s) :
    Keeps s₀ (State.writeField s f v) := by
  unfold State.writeField
  repeat' first
    | with_reducible assumption
    | with_reducible apply Keeps.ite
    | with_reducible apply State.setF_keeps
    | split

theorem State.setB_keeps {s₀ : State} {s : State} {f : Field} {b : Bool} (hk : Keeps s₀ s) :
    Keeps s₀ (State.setB s f b) := by
  unfold State.setB
  repeat' first
    | with_reducible assumption
    | with_reducible apply State.setF_keeps

theorem State.setI_keeps {s₀ : State} {s : State} {f : Field} {v : Int} (hk : Keeps s₀ s) :
    Keeps s₀ (State.setI s f v) := by
  unfold State.setI
  repeat' first
    | with_reducible assumption
    | with_reducible apply State.setF_keeps

theorem State.bumpBy_keeps {s₀ : State} {s : State} {f : Field} {n : Nat} (hk : Keeps s₀ s) :
    Keeps s₀ (State.bumpBy s f n) := by
  unfold State.bumpBy
  repeat' first
    | with_reducible assumption
    | with_reducible apply State.setF_keeps

theorem State.bump_keeps {s₀ : State} {s : State} {f : Field} (hk : Keeps s₀ s) :
    Keeps s₀ (State.bump s f) := by
  exact State.bumpBy_keeps hk

theorem State.clearFields_keeps {s₀ : State} {s : State} {fs : List Field} (hk : Keeps s₀ s) :
    Keeps s₀ (State.clearFields s fs) := by
  unfold State.clearFields
  repeat' first
    | with_reducible assumption
    | with_reducible apply State.setF_keeps
    | with_reducible apply Keeps.foldl
    | with_reducible apply Keeps.foldl2
    | (intro _; intros; try beta_reduce)

theorem State.wr64_keeps {s₀ : State} {s : State} {a v : Nat} (hk : Keeps s₀ s) :
    Keeps s₀ (State.wr64 s a v) := by
  exact State.wr_keeps hk

theorem State.advanceTo_keeps {s₀ : State} {s : State} {t : Time} (hk : Keeps s₀ s) :
    Keeps s₀ (State.advanceTo s t) := by
  unfold State.advanceTo
  repeat' first
    | with_reducible assumption
    | (dsimp only [Keeps.mk_eq]; with_reducible apply KeepsD.of)

theorem State.drawn_keeps {s₀ : State} {s : State} (hk : Keeps s₀ s) :
    Keeps s₀ (State.drawn s) := by
  unfold State.drawn
  repeat' first
    | with_reducible assumption
    | (dsimp only [Keeps.mk_eq]; with_reducible apply KeepsD.of)

theorem State.openDiv_keeps {s₀ : State} {s : State} {a : Int} {b : Nat} (hk : Keeps s₀ s) :
    Keeps s₀ (State.openDiv s a b).2 := by
  unfold State.openDiv
  repeat' first
    | with_reducible assumption
    | with_reducible apply Keeps.ite
    | with_reducible apply Keeps.ite2
    | with_reducible apply State.drawn_keeps
    | split

/-! ### Belfry -/

theorem State.mergeInto_keeps {s₀ : State} {s : State} {e : BelEntry} (hk : Keeps s₀ s) :
    Keeps s₀ (State.mergeInto s e) := by
  unfold State.mergeInto
  repeat' first
    | with_reducible assumption
    | (extract_lets +onlyGivenNames x; refine Keeps.cut (s := s₀) (t := x) ?_ (fun hx => ?_); (on_goal 1 => (unfold x; clear x)); (on_goal 2 => clear_value x))
    | (extract_lets +onlyGivenNames x; refine Keeps.cut2 (s := s₀) (x := x) ?_ (fun hx => ?_); (on_goal 1 => (unfold x; clear x)); (on_goal 2 => clear_value x))
    | (extract_lets +onlyGivenNames x; refine Keeps.cut2 (s := s₀) (x := x.2) ?_ (fun hx => ?_); (on_goal 1 => (unfold x; clear x)); (on_goal 2 => clear_value x))
    | (extract_lets +onlyGivenNames x; (have hv : x = x := by unfold x; exact Eq.refl _); clear hv; clear_value x)
    | with_reducible apply State.wr64_keeps
    | with_reducible apply State.bump_keeps

theorem State.newRecord_keeps {s₀ : State} {s : State} {e : BelEntry} {staged : Bool} (hk : Keeps s₀ s) :
    Keeps s₀ (State.newRecord s e staged) := by
  unfold State.newRecord
  repeat' first
    | with_reducible assumption
    | (dsimp only [Keeps.mk_eq]; with_reducible apply KeepsD.of)
    | (extract_lets +onlyGivenNames x; refine Keeps.cut (s := s₀) (t := x) ?_ (fun hx => ?_); (on_goal 1 => (unfold x; clear x)); (on_goal 2 => clear_value x))
    | (extract_lets +onlyGivenNames x; refine Keeps.cut2 (s := s₀) (x := x) ?_ (fun hx => ?_); (on_goal 1 => (unfold x; clear x)); (on_goal 2 => clear_value x))
    | (extract_lets +onlyGivenNames x; refine Keeps.cut2 (s := s₀) (x := x.2) ?_ (fun hx => ?_); (on_goal 1 => (unfold x; clear x)); (on_goal 2 => clear_value x))
    | (extract_lets +onlyGivenNames x; (have hv : x = x := by unfold x; exact Eq.refl _); clear hv; clear_value x)
    | with_reducible apply Keeps.ite
    | with_reducible apply State.wrWords_keeps
    | with_reducible apply State.setF_keeps
    | with_reducible apply State.setB_keeps
    | with_reducible apply State.bump_keeps
    | split

theorem State.writeEntry_keeps {s₀ : State} {s : State} {e : BelEntry} {staged : Bool} (hk : Keeps s₀ s) :
    Keeps s₀ (State.writeEntry s e staged) := by
  unfold State.writeEntry
  repeat' first
    | with_reducible assumption
    | with_reducible apply Keeps.ite
    | with_reducible apply State.mergeInto_keeps
    | with_reducible apply State.newRecord_keeps
    | split

theorem State.stageEntry_keeps {s₀ : State} {s : State} {e : BelEntry} (hk : Keeps s₀ s) :
    Keeps s₀ (State.stageEntry s e) := by
  unfold State.stageEntry
  repeat' first
    | with_reducible assumption
    | (dsimp only [Keeps.mk_eq]; with_reducible apply KeepsD.of)
    | (extract_lets +onlyGivenNames x; refine Keeps.cut (s := s₀) (t := x) ?_ (fun hx => ?_); (on_goal 1 => (unfold x; clear x)); (on_goal 2 => clear_value x))
    | (extract_lets +onlyGivenNames x; refine Keeps.cut2 (s := s₀) (x := x) ?_ (fun hx => ?_); (on_goal 1 => (unfold x; clear x)); (on_goal 2 => clear_value x))
    | (extract_lets +onlyGivenNames x; refine Keeps.cut2 (s := s₀) (x := x.2) ?_ (fun hx => ?_); (on_goal 1 => (unfold x; clear x)); (on_goal 2 => clear_value x))
    | (extract_lets +onlyGivenNames x; (have hv : x = x := by unfold x; exact Eq.refl _); clear hv; clear_value x)
    | with_reducible apply Keeps.ite
    | with_reducible apply State.bump_keeps
    | split

theorem State.flushStaged_keeps {s₀ : State} {s : State} (hk : Keeps s₀ s) :
    Keeps s₀ (State.flushStaged s) := by
  unfold State.flushStaged
  repeat' first
    | with_reducible assumption
    | (dsimp only [Keeps.mk_eq]; with_reducible apply KeepsD.of)
    | (extract_lets +onlyGivenNames x; refine Keeps.cut (s := s₀) (t := x) ?_ (fun hx => ?_); (on_goal 1 => (unfold x; clear x)); (on_goal 2 => clear_value x))
    | (extract_lets +onlyGivenNames x; refine Keeps.cut2 (s := s₀) (x := x) ?_ (fun hx => ?_); (on_goal 1 => (unfold x; clear x)); (on_goal 2 => clear_value x))
    | (extract_lets +onlyGivenNames x; refine Keeps.cut2 (s := s₀) (x := x.2) ?_ (fun hx => ?_); (on_goal 1 => (unfold x; clear x)); (on_goal 2 => clear_value x))
    | (extract_lets +onlyGivenNames x; (have hv : x = x := by unfold x; exact Eq.refl _); clear hv; clear_value x)
    | with_reducible apply Keeps.ite
    | with_reducible apply State.writeEntry_keeps
    | with_reducible apply Keeps.foldl
    | with_reducible apply Keeps.foldl2
    | split
    | (intro _; intros; try beta_reduce)

theorem State.belfry_keeps {s₀ : State} {s : State} {kind code source : Nat} {payload : List Nat} (hk : Keeps s₀ s) :
    Keeps s₀ (State.belfry s kind code source payload) := by
  unfold State.belfry
  repeat' first
    | with_reducible assumption
    | (extract_lets +onlyGivenNames x; refine Keeps.cut (s := s₀) (t := x) ?_ (fun hx => ?_); (on_goal 1 => (unfold x; clear x)); (on_goal 2 => clear_value x))
    | (extract_lets +onlyGivenNames x; refine Keeps.cut2 (s := s₀) (x := x) ?_ (fun hx => ?_); (on_goal 1 => (unfold x; clear x)); (on_goal 2 => clear_value x))
    | (extract_lets +onlyGivenNames x; refine Keeps.cut2 (s := s₀) (x := x.2) ?_ (fun hx => ?_); (on_goal 1 => (unfold x; clear x)); (on_goal 2 => clear_value x))
    | (extract_lets +onlyGivenNames x; (have hv : x = x := by unfold x; exact Eq.refl _); clear hv; clear_value x)
    | with_reducible apply Keeps.ite
    | with_reducible apply State.stageEntry_keeps
    | with_reducible apply State.writeEntry_keeps
    | split

theorem State.snapshot_keeps {s₀ : State} {s : State} (hk : Keeps s₀ s) :
    Keeps s₀ (State.snapshot s) := by
  unfold State.snapshot
  repeat' first
    | with_reducible assumption
    | (extract_lets +onlyGivenNames x; refine Keeps.cut (s := s₀) (t := x) ?_ (fun hx => ?_); (on_goal 1 => (unfold x; clear x)); (on_goal 2 => clear_value x))
    | (extract_lets +onlyGivenNames x; refine Keeps.cut2 (s := s₀) (x := x) ?_ (fun hx => ?_); (on_goal 1 => (unfold x; clear x)); (on_goal 2 => clear_value x))
    | (extract_lets +onlyGivenNames x; refine Keeps.cut2 (s := s₀) (x := x.2) ?_ (fun hx => ?_); (on_goal 1 => (unfold x; clear x)); (on_goal 2 => clear_value x))
    | (extract_lets +onlyGivenNames x; (have hv : x = x := by unfold x; exact Eq.refl _); clear hv; clear_value x)
    | with_reducible apply State.setF_keeps
    | with_reducible apply Keeps.forN
    | (intro _; intros; try beta_reduce)

/-! ### Keys -/

theorem State.modNode_keeps {s₀ : State} {s : State} {i : Nat} {f : Node → Node} (hk : Keeps s₀ s) :
    Keeps s₀ (State.modNode s i f) := by
  unfold State.modNode
  repeat' first
    | with_reducible assumption
    | (dsimp only [Keeps.mk_eq]; with_reducible apply KeepsD.of)

theorem State.modKeys_keeps {s₀ : State} {s : State} {i : Nat} {f : Node → Node} (hk : Keeps s₀ s) :
    Keeps s₀ (State.modKeys s i f) := by
  unfold State.modKeys
  repeat' first
    | with_reducible assumption
    | (dsimp only [Keeps.mk_eq]; with_reducible apply KeepsD.of)
    | (extract_lets +onlyGivenNames x; refine Keeps.cut (s := s₀) (t := x) ?_ (fun hx => ?_); (on_goal 1 => (unfold x; clear x)); (on_goal 2 => clear_value x))
    | (extract_lets +onlyGivenNames x; refine Keeps.cut2 (s := s₀) (x := x) ?_ (fun hx => ?_); (on_goal 1 => (unfold x; clear x)); (on_goal 2 => clear_value x))
    | (extract_lets +onlyGivenNames x; refine Keeps.cut2 (s := s₀) (x := x.2) ?_ (fun hx => ?_); (on_goal 1 => (unfold x; clear x)); (on_goal 2 => clear_value x))
    | (extract_lets +onlyGivenNames x; (have hv : x = x := by unfold x; exact Eq.refl _); clear hv; clear_value x)
    | with_reducible apply State.modNode_keeps
    | (intro _; intros; try beta_reduce)

theorem State.keyTimes_keeps {s₀ : State} {s : State} (hk : Keeps s₀ s) :
    Keeps s₀ (State.keyTimes s) := by
  unfold State.keyTimes
  repeat' first
    | with_reducible assumption
    | (dsimp only [Keeps.mk_eq]; with_reducible apply KeepsD.of)
    | (extract_lets +onlyGivenNames x; refine Keeps.cut (s := s₀) (t := x) ?_ (fun hx => ?_); (on_goal 1 => (unfold x; clear x)); (on_goal 2 => clear_value x))
    | (extract_lets +onlyGivenNames x; refine Keeps.cut2 (s := s₀) (x := x) ?_ (fun hx => ?_); (on_goal 1 => (unfold x; clear x)); (on_goal 2 => clear_value x))
    | (extract_lets +onlyGivenNames x; refine Keeps.cut2 (s := s₀) (x := x.2) ?_ (fun hx => ?_); (on_goal 1 => (unfold x; clear x)); (on_goal 2 => clear_value x))
    | (extract_lets +onlyGivenNames x; (have hv : x = x := by unfold x; exact Eq.refl _); clear hv; clear_value x)
    | with_reducible apply Keeps.ite
    | with_reducible apply State.modKeys_keeps
    | with_reducible apply State.bump_keeps
    | with_reducible apply Keeps.foldl
    | with_reducible apply Keeps.foldl2
    | split
    | (intro _; intros; try beta_reduce)

theorem State.extendMs_keeps {s₀ : State} {s : State} {i d : Nat} (hk : Keeps s₀ s) :
    Keeps s₀ (State.extendMs s i d) := by
  unfold State.extendMs
  repeat' first
    | with_reducible assumption
    | (dsimp only [Keeps.mk_eq]; with_reducible apply KeepsD.of)

/-! ### Operands -/

theorem State.setSltEnt_keeps {s₀ : State} {s : State} {t i : Nat} {ws : List Nat} (hk : Keeps s₀ s) :
    Keeps s₀ (State.setSltEnt s t i ws) := by
  unfold State.setSltEnt
  repeat' first
    | with_reducible assumption
    | (dsimp only [Keeps.mk_eq]; with_reducible apply KeepsD.of)

theorem State.setPubEnt_keeps {s₀ : State} {s : State} {i : Nat} {ws : List Nat} (hk : Keeps s₀ s) :
    Keeps s₀ (State.setPubEnt s i ws) := by
  unfold State.setPubEnt
  repeat' first
    | with_reducible assumption
    | (dsimp only [Keeps.mk_eq]; with_reducible apply KeepsD.of)

theorem State.modCtx_keeps {s₀ : State} {s : State} {i : Nat} {f : Ctx → Ctx} (hk : Keeps s₀ s) :
    Keeps s₀ (State.modCtx s i f) := by
  unfold State.modCtx
  repeat' first
    | with_reducible assumption
    | (dsimp only [Keeps.mk_eq]; with_reducible apply KeepsD.of)

/-! ### SliceOps -/

theorem State.modSlice_keeps {s₀ : State} {s : State} {n : Nat} {f : Slice → Slice} (hk : Keeps s₀ s) :
    Keeps s₀ (State.modSlice s n f) := by
  unfold State.modSlice
  repeat' first
    | with_reducible assumption
    | (dsimp only [Keeps.mk_eq]; with_reducible apply KeepsD.of)

theorem State.modRing_keeps {s₀ : State} {s : State} {r : Nat} {f : Ring → Ring} (hk : Keeps s₀ s) :
    Keeps s₀ (State.modRing s r f) := by
  unfold State.modRing
  repeat' first
    | with_reducible assumption
    | (dsimp only [Keeps.mk_eq]; with_reducible apply KeepsD.of)

theorem State.sliceWr_keeps {s₀ : State} {s : State} {n a : Nat} {ws : List Nat} (hk : Keeps s₀ s) :
    Keeps s₀ (State.sliceWr s n a ws) := by
  unfold State.sliceWr
  repeat' first
    | with_reducible assumption
    | with_reducible apply Keeps.ite
    | with_reducible apply State.wrWords_keeps
    | split

theorem State.bellsRefute_keeps {s₀ : State} {s : State} {l n : Nat} (hk : Keeps s₀ s) :
    Keeps s₀ (State.bellsRefute s l n) := by
  unfold State.bellsRefute
  repeat' first
    | with_reducible assumption
    | (dsimp only [Keeps.mk_eq]; with_reducible apply KeepsD.of)
    | (intro _; intros; try beta_reduce)

theorem State.sendIrq_keeps {s₀ : State} {s : State} {r : Nat} (hk : Keeps s₀ s) :
    Keeps s₀ (State.sendIrq s r) := by
  unfold State.sendIrq
  repeat' first
    | with_reducible assumption
    | (dsimp only [Keeps.mk_eq]; with_reducible apply KeepsD.of)
    | (extract_lets +onlyGivenNames x; refine Keeps.cut (s := s₀) (t := x) ?_ (fun hx => ?_); (on_goal 1 => (unfold x; clear x)); (on_goal 2 => clear_value x))
    | (extract_lets +onlyGivenNames x; refine Keeps.cut2 (s := s₀) (x := x) ?_ (fun hx => ?_); (on_goal 1 => (unfold x; clear x)); (on_goal 2 => clear_value x))
    | (extract_lets +onlyGivenNames x; refine Keeps.cut2 (s := s₀) (x := x.2) ?_ (fun hx => ?_); (on_goal 1 => (unfold x; clear x)); (on_goal 2 => clear_value x))
    | (extract_lets +onlyGivenNames x; (have hv : x = x := by unfold x; exact Eq.refl _); clear hv; clear_value x)

theorem State.headIrq_keeps {s₀ : State} {s : State} {r : Nat} (hk : Keeps s₀ s) :
    Keeps s₀ (State.headIrq s r) := by
  unfold State.headIrq
  repeat' first
    | with_reducible assumption
    | (dsimp only [Keeps.mk_eq]; with_reducible apply KeepsD.of)
    | (extract_lets +onlyGivenNames x; refine Keeps.cut (s := s₀) (t := x) ?_ (fun hx => ?_); (on_goal 1 => (unfold x; clear x)); (on_goal 2 => clear_value x))
    | (extract_lets +onlyGivenNames x; refine Keeps.cut2 (s := s₀) (x := x) ?_ (fun hx => ?_); (on_goal 1 => (unfold x; clear x)); (on_goal 2 => clear_value x))
    | (extract_lets +onlyGivenNames x; refine Keeps.cut2 (s := s₀) (x := x.2) ?_ (fun hx => ?_); (on_goal 1 => (unfold x; clear x)); (on_goal 2 => clear_value x))
    | (extract_lets +onlyGivenNames x; (have hv : x = x := by unfold x; exact Eq.refl _); clear hv; clear_value x)
    | with_reducible apply Keeps.ite
    | with_reducible apply State.modRing_keeps
    | with_reducible apply State.sendIrq_keeps
    | split
    | (intro _; intros; try beta_reduce)

theorem State.advanceHead_keeps {s₀ : State} {s : State} {r k : Nat} (hk : Keeps s₀ s) :
    Keeps s₀ (State.advanceHead s r k) := by
  unfold State.advanceHead
  repeat' first
    | with_reducible assumption
    | (dsimp only [Keeps.mk_eq]; with_reducible apply KeepsD.of)
    | with_reducible apply State.modRing_keeps
    | with_reducible apply State.headIrq_keeps
    | (intro _; intros; try beta_reduce)

theorem State.event_keeps {s₀ : State} {s : State} {n code source param param2 : Nat} (hk : Keeps s₀ s) :
    Keeps s₀ (State.event s n code source param param2) := by
  unfold State.event
  repeat' first
    | with_reducible assumption
    | (dsimp only [Keeps.mk_eq]; with_reducible apply KeepsD.of)
    | (extract_lets +onlyGivenNames x; refine Keeps.cut (s := s₀) (t := x) ?_ (fun hx => ?_); (on_goal 1 => (unfold x; clear x)); (on_goal 2 => clear_value x))
    | (extract_lets +onlyGivenNames x; refine Keeps.cut2 (s := s₀) (x := x) ?_ (fun hx => ?_); (on_goal 1 => (unfold x; clear x)); (on_goal 2 => clear_value x))
    | (extract_lets +onlyGivenNames x; refine Keeps.cut2 (s := s₀) (x := x.2) ?_ (fun hx => ?_); (on_goal 1 => (unfold x; clear x)); (on_goal 2 => clear_value x))
    | (extract_lets +onlyGivenNames x; (have hv : x = x := by unfold x; exact Eq.refl _); clear hv; clear_value x)
    | with_reducible apply Keeps.ite
    | with_reducible apply State.modSlice_keeps
    | with_reducible apply State.wrWords_keeps
    | with_reducible apply State.bump_keeps
    | with_reducible apply State.advanceHead_keeps
    | split
    | (intro _; intros; try beta_reduce)

theorem State.stateEvent_keeps {s₀ : State} {s : State} {n st cause : Nat} (hk : Keeps s₀ s) :
    Keeps s₀ (State.stateEvent s n st cause) := by
  unfold State.stateEvent
  repeat' first
    | with_reducible assumption
    | with_reducible apply State.event_keeps

theorem State.setI1_keeps {s₀ : State} {s : State} {i : Nat} {b : Bool} (hk : Keeps s₀ s) :
    Keeps s₀ (State.setI1 s i b) := by
  unfold State.setI1
  repeat' first
    | with_reducible assumption
    | (dsimp only [Keeps.mk_eq]; with_reducible apply KeepsD.of)

theorem State.statusBit_keeps {s₀ : State} {s : State} {n : Nat} {b : Bool} (hk : Keeps s₀ s) :
    Keeps s₀ (State.statusBit s n b) := by
  unfold State.statusBit
  repeat' first
    | with_reducible assumption
    | with_reducible apply Keeps.ite
    | with_reducible apply State.setI1_keeps
    | split

theorem State.frameWithdrawn_keeps {s₀ : State} {s : State} {sl r desc : Nat} (hk : Keeps s₀ s) :
    Keeps s₀ (State.frameWithdrawn s sl r desc) := by
  unfold State.frameWithdrawn
  repeat' first
    | with_reducible assumption
    | (dsimp only [Keeps.mk_eq]; with_reducible apply KeepsD.of)
    | with_reducible apply State.event_keeps
    | with_reducible apply State.modSlice_keeps
    | (intro _; intros; try beta_reduce)

theorem State.fConfirm_keeps {s₀ : State} {s : State} (hk : Keeps s₀ s) :
    Keeps s₀ (State.fConfirm s) := by
  unfold State.fConfirm
  repeat' first
    | with_reducible assumption
    | (dsimp only [Keeps.mk_eq]; with_reducible apply KeepsD.of)
    | (extract_lets +onlyGivenNames x; refine Keeps.cut (s := s₀) (t := x) ?_ (fun hx => ?_); (on_goal 1 => (unfold x; clear x)); (on_goal 2 => clear_value x))
    | (extract_lets +onlyGivenNames x; refine Keeps.cut2 (s := s₀) (x := x) ?_ (fun hx => ?_); (on_goal 1 => (unfold x; clear x)); (on_goal 2 => clear_value x))
    | (extract_lets +onlyGivenNames x; refine Keeps.cut2 (s := s₀) (x := x.2) ?_ (fun hx => ?_); (on_goal 1 => (unfold x; clear x)); (on_goal 2 => clear_value x))
    | (extract_lets +onlyGivenNames x; (have hv : x = x := by unfold x; exact Eq.refl _); clear hv; clear_value x)
    | with_reducible apply Keeps.foldl
    | with_reducible apply Keeps.foldl2
    | (intro _; intros; try beta_reduce)

theorem State.fPut_keeps {s₀ : State} {s : State} {p : FWrite} (hk : Keeps s₀ s) :
    Keeps s₀ (State.fPut s p) := by
  unfold State.fPut
  repeat' first
    | with_reducible assumption
    | (dsimp only [Keeps.mk_eq]; with_reducible apply KeepsD.of)
    | with_reducible apply State.fConfirm_keeps
    | (intro _; intros; try beta_reduce)

theorem State.fStore_keeps {s₀ : State} {s : State} {n w v : Nat} {d : Dep} (hk : Keeps s₀ s) :
    Keeps s₀ (State.fStore s n w v d) := by
  unfold State.fStore
  repeat' first
    | with_reducible assumption
    | with_reducible apply State.fPut_keeps

theorem State.fWithdraw_keeps {s₀ : State} {s : State} {l n : Nat} (hk : Keeps s₀ s) :
    Keeps s₀ (State.fWithdraw s l n) := by
  unfold State.fWithdraw
  repeat' first
    | with_reducible assumption
    | (dsimp only [Keeps.mk_eq]; with_reducible apply KeepsD.of)
    | (extract_lets +onlyGivenNames x; refine Keeps.cut (s := s₀) (t := x) ?_ (fun hx => ?_); (on_goal 1 => (unfold x; clear x)); (on_goal 2 => clear_value x))
    | (extract_lets +onlyGivenNames x; refine Keeps.cut2 (s := s₀) (x := x) ?_ (fun hx => ?_); (on_goal 1 => (unfold x; clear x)); (on_goal 2 => clear_value x))
    | (extract_lets +onlyGivenNames x; refine Keeps.cut2 (s := s₀) (x := x.2) ?_ (fun hx => ?_); (on_goal 1 => (unfold x; clear x)); (on_goal 2 => clear_value x))
    | (extract_lets +onlyGivenNames x; refine Keeps.cutF1 (s := s₀) (f := x) ?_ (fun kx => ?_); (on_goal 1 => (unfold x; clear x; intros; beta_reduce)); (on_goal 2 => clear_value x))
    | (extract_lets +onlyGivenNames x; refine Keeps.cutF2 (s := s₀) (f := x) ?_ (fun kx => ?_); (on_goal 1 => (unfold x; clear x; intros; beta_reduce)); (on_goal 2 => clear_value x))
    | (extract_lets +onlyGivenNames x; refine Keeps.cutG2 (s := s₀) (f := x) ?_ (fun kx => ?_); (on_goal 1 => (unfold x; clear x; intros; beta_reduce)); (on_goal 2 => clear_value x))
    | (extract_lets +onlyGivenNames x; refine Keeps.cutF3 (s := s₀) (f := x) ?_ (fun kx => ?_); (on_goal 1 => (unfold x; clear x; intros; beta_reduce)); (on_goal 2 => clear_value x))
    | (extract_lets +onlyGivenNames x; refine Keeps.cutF4 (s := s₀) (f := x) ?_ (fun kx => ?_); (on_goal 1 => (unfold x; clear x; intros; beta_reduce)); (on_goal 2 => clear_value x))
    | (extract_lets +onlyGivenNames x; (have hv : x = x := by unfold x; exact Eq.refl _); clear hv; clear_value x)
    | with_reducible apply State.event_keeps
    | with_reducible apply State.modSlice_keeps
    | with_reducible apply Keeps.foldl
    | with_reducible apply Keeps.foldl2
    | apply kx
    | (intro _; intros; try beta_reduce)

theorem State.fClear_keeps {s₀ : State} {s : State} {n : Nat} {t : Option FStart} (hk : Keeps s₀ s) :
    Keeps s₀ (State.fClear s n t) := by
  unfold State.fClear
  repeat' first
    | with_reducible assumption
    | (extract_lets +onlyGivenNames x; refine Keeps.cut (s := s₀) (t := x) ?_ (fun hx => ?_); (on_goal 1 => (unfold x; clear x)); (on_goal 2 => clear_value x))
    | (extract_lets +onlyGivenNames x; refine Keeps.cut2 (s := s₀) (x := x) ?_ (fun hx => ?_); (on_goal 1 => (unfold x; clear x)); (on_goal 2 => clear_value x))
    | (extract_lets +onlyGivenNames x; refine Keeps.cut2 (s := s₀) (x := x.2) ?_ (fun hx => ?_); (on_goal 1 => (unfold x; clear x)); (on_goal 2 => clear_value x))
    | (extract_lets +onlyGivenNames x; (have hv : x = x := by unfold x; exact Eq.refl _); clear hv; clear_value x)
    | with_reducible apply State.fPut_keeps
    | with_reducible apply Keeps.forN
    | (intro _; intros; try beta_reduce)

theorem State.fBegin_keeps {s₀ : State} {s : State} {c n : Nat} (hk : Keeps s₀ s) :
    Keeps s₀ (State.fBegin s c n) := by
  unfold State.fBegin
  repeat' first
    | with_reducible assumption
    | (dsimp only [Keeps.mk_eq]; with_reducible apply KeepsD.of)
    | (extract_lets +onlyGivenNames x; refine Keeps.cut (s := s₀) (t := x) ?_ (fun hx => ?_); (on_goal 1 => (unfold x; clear x)); (on_goal 2 => clear_value x))
    | (extract_lets +onlyGivenNames x; refine Keeps.cut2 (s := s₀) (x := x) ?_ (fun hx => ?_); (on_goal 1 => (unfold x; clear x)); (on_goal 2 => clear_value x))
    | (extract_lets +onlyGivenNames x; refine Keeps.cut2 (s := s₀) (x := x.2) ?_ (fun hx => ?_); (on_goal 1 => (unfold x; clear x)); (on_goal 2 => clear_value x))
    | (extract_lets +onlyGivenNames x; refine Keeps.cutF1 (s := s₀) (f := x) ?_ (fun kx => ?_); (on_goal 1 => (unfold x; clear x; intros; beta_reduce)); (on_goal 2 => clear_value x))
    | (extract_lets +onlyGivenNames x; refine Keeps.cutF2 (s := s₀) (f := x) ?_ (fun kx => ?_); (on_goal 1 => (unfold x; clear x; intros; beta_reduce)); (on_goal 2 => clear_value x))
    | (extract_lets +onlyGivenNames x; refine Keeps.cutG2 (s := s₀) (f := x) ?_ (fun kx => ?_); (on_goal 1 => (unfold x; clear x; intros; beta_reduce)); (on_goal 2 => clear_value x))
    | (extract_lets +onlyGivenNames x; refine Keeps.cutF3 (s := s₀) (f := x) ?_ (fun kx => ?_); (on_goal 1 => (unfold x; clear x; intros; beta_reduce)); (on_goal 2 => clear_value x))
    | (extract_lets +onlyGivenNames x; refine Keeps.cutF4 (s := s₀) (f := x) ?_ (fun kx => ?_); (on_goal 1 => (unfold x; clear x; intros; beta_reduce)); (on_goal 2 => clear_value x))
    | (extract_lets +onlyGivenNames x; (have hv : x = x := by unfold x; exact Eq.refl _); clear hv; clear_value x)
    | with_reducible apply Keeps.ite
    | with_reducible apply State.fConfirm_keeps
    | apply kx
    | split
    | (intro _; intros; try beta_reduce)

theorem State.ringPubs_keeps {s₀ : State} {s : State} {n : Nat} {en : Bool} (hk : Keeps s₀ s) :
    Keeps s₀ (State.ringPubs s n en) := by
  unfold State.ringPubs
  repeat' first
    | with_reducible assumption
    | (dsimp only [Keeps.mk_eq]; with_reducible apply KeepsD.of)
    | (extract_lets +onlyGivenNames x; refine Keeps.cut (s := s₀) (t := x) ?_ (fun hx => ?_); (on_goal 1 => (unfold x; clear x)); (on_goal 2 => clear_value x))
    | (extract_lets +onlyGivenNames x; refine Keeps.cut2 (s := s₀) (x := x) ?_ (fun hx => ?_); (on_goal 1 => (unfold x; clear x)); (on_goal 2 => clear_value x))
    | (extract_lets +onlyGivenNames x; refine Keeps.cut2 (s := s₀) (x := x.2) ?_ (fun hx => ?_); (on_goal 1 => (unfold x; clear x)); (on_goal 2 => clear_value x))
    | (extract_lets +onlyGivenNames x; (have hv : x = x := by unfold x; exact Eq.refl _); clear hv; clear_value x)
    | with_reducible apply Keeps.ite
    | with_reducible apply State.setPubEnt_keeps
    | with_reducible apply Keeps.foldl
    | with_reducible apply Keeps.foldl2
    | split
    | (intro _; intros; try beta_reduce)

theorem State.ringsTo_keeps {s₀ : State} {s : State} {n st : Nat} (hk : Keeps s₀ s) :
    Keeps s₀ (State.ringsTo s n st) := by
  unfold State.ringsTo
  repeat' first
    | with_reducible assumption
    | (dsimp only [Keeps.mk_eq]; with_reducible apply KeepsD.of)
    | (extract_lets +onlyGivenNames x; refine Keeps.cut (s := s₀) (t := x) ?_ (fun hx => ?_); (on_goal 1 => (unfold x; clear x)); (on_goal 2 => clear_value x))
    | (extract_lets +onlyGivenNames x; refine Keeps.cut2 (s := s₀) (x := x) ?_ (fun hx => ?_); (on_goal 1 => (unfold x; clear x)); (on_goal 2 => clear_value x))
    | (extract_lets +onlyGivenNames x; refine Keeps.cut2 (s := s₀) (x := x.2) ?_ (fun hx => ?_); (on_goal 1 => (unfold x; clear x)); (on_goal 2 => clear_value x))
    | (extract_lets +onlyGivenNames x; (have hv : x = x := by unfold x; exact Eq.refl _); clear hv; clear_value x)
    | with_reducible apply Keeps.ite
    | with_reducible apply State.modRing_keeps
    | with_reducible apply State.modSlice_keeps
    | with_reducible apply Keeps.foldl
    | with_reducible apply Keeps.foldl2
    | split
    | (intro _; intros; try beta_reduce)

theorem State.sliceToFaulted_keeps {s₀ : State} {s : State} {n cause : Nat} (hk : Keeps s₀ s) :
    Keeps s₀ (State.sliceToFaulted s n cause) := by
  unfold State.sliceToFaulted
  repeat' first
    | with_reducible assumption
    | (dsimp only [Keeps.mk_eq]; with_reducible apply KeepsD.of)
    | (extract_lets +onlyGivenNames x; refine Keeps.cut (s := s₀) (t := x) ?_ (fun hx => ?_); (on_goal 1 => (unfold x; clear x)); (on_goal 2 => clear_value x))
    | (extract_lets +onlyGivenNames x; refine Keeps.cut2 (s := s₀) (x := x) ?_ (fun hx => ?_); (on_goal 1 => (unfold x; clear x)); (on_goal 2 => clear_value x))
    | (extract_lets +onlyGivenNames x; refine Keeps.cut2 (s := s₀) (x := x.2) ?_ (fun hx => ?_); (on_goal 1 => (unfold x; clear x)); (on_goal 2 => clear_value x))
    | (extract_lets +onlyGivenNames x; (have hv : x = x := by unfold x; exact Eq.refl _); clear hv; clear_value x)
    | with_reducible apply Keeps.ite
    | with_reducible apply State.ringsTo_keeps
    | with_reducible apply State.fClear_keeps
    | with_reducible apply State.statusBit_keeps
    | with_reducible apply State.stateEvent_keeps
    | with_reducible apply State.ringPubs_keeps
    | with_reducible apply State.modSlice_keeps
    | split
    | (intro _; intros; try beta_reduce)

theorem State.sliceError_keeps {s₀ : State} {s : State} {n : Nat} (hk : Keeps s₀ s) :
    Keeps s₀ (State.sliceError s n) := by
  unfold State.sliceError
  repeat' first
    | with_reducible assumption
    | (dsimp only [Keeps.mk_eq]; with_reducible apply KeepsD.of)
    | (extract_lets +onlyGivenNames x; refine Keeps.cut (s := s₀) (t := x) ?_ (fun hx => ?_); (on_goal 1 => (unfold x; clear x)); (on_goal 2 => clear_value x))
    | (extract_lets +onlyGivenNames x; refine Keeps.cut2 (s := s₀) (x := x) ?_ (fun hx => ?_); (on_goal 1 => (unfold x; clear x)); (on_goal 2 => clear_value x))
    | (extract_lets +onlyGivenNames x; refine Keeps.cut2 (s := s₀) (x := x.2) ?_ (fun hx => ?_); (on_goal 1 => (unfold x; clear x)); (on_goal 2 => clear_value x))
    | (extract_lets +onlyGivenNames x; (have hv : x = x := by unfold x; exact Eq.refl _); clear hv; clear_value x)
    | with_reducible apply Keeps.ite
    | with_reducible apply State.modSlice_keeps
    | with_reducible apply State.sliceToFaulted_keeps
    | split
    | (intro _; intros; try beta_reduce)

theorem State.refuse_keeps {s₀ : State} {s : State} {n addr : Nat} (hk : Keeps s₀ s) :
    Keeps s₀ (State.refuse s n addr) := by
  unfold State.refuse
  repeat' first
    | with_reducible assumption
    | (dsimp only [Keeps.mk_eq]; with_reducible apply KeepsD.of)
    | (extract_lets +onlyGivenNames x; refine Keeps.cut (s := s₀) (t := x) ?_ (fun hx => ?_); (on_goal 1 => (unfold x; clear x)); (on_goal 2 => clear_value x))
    | (extract_lets +onlyGivenNames x; refine Keeps.cut2 (s := s₀) (x := x) ?_ (fun hx => ?_); (on_goal 1 => (unfold x; clear x)); (on_goal 2 => clear_value x))
    | (extract_lets +onlyGivenNames x; refine Keeps.cut2 (s := s₀) (x := x.2) ?_ (fun hx => ?_); (on_goal 1 => (unfold x; clear x)); (on_goal 2 => clear_value x))
    | (extract_lets +onlyGivenNames x; (have hv : x = x := by unfold x; exact Eq.refl _); clear hv; clear_value x)
    | with_reducible apply Keeps.ite
    | with_reducible apply State.modSlice_keeps
    | with_reducible apply State.refused_keeps
    | with_reducible apply State.event_keeps
    | with_reducible apply State.sliceError_keeps
    | with_reducible apply State.bump_keeps
    | split
    | (intro _; intros; try beta_reduce)

theorem State.refused_keeps {s₀ : State} {s : State} {a : Actor} {addr : Nat} (hk : Keeps s₀ s) :
    Keeps s₀ (State.refused s a addr) := by
  unfold State.refused
  repeat' first
    | with_reducible assumption
    | (dsimp only [Keeps.mk_eq]; with_reducible apply KeepsD.of)
    | with_reducible apply State.bump_keeps
    | with_reducible apply State.refuse_keeps
    | split

theorem State.busError_keeps {s₀ : State} {s : State} (hk : Keeps s₀ s) :
    Keeps s₀ (State.busError s) := by
  unfold State.busError
  repeat' first
    | with_reducible assumption
    | (dsimp only [Keeps.mk_eq]; with_reducible apply KeepsD.of)

theorem State.granted_keeps {s₀ : State} {s : State} {m : Master} {addr : Nat} {f : State → State} (hk : Keeps s₀ s) (kf : ∀ u, Keeps s₀ u → Keeps s₀ (f u)) :
    Keeps s₀ (State.granted s m addr f) := by
  unfold State.granted
  repeat' first
    | with_reducible assumption
    | (dsimp only [Keeps.mk_eq]; with_reducible apply KeepsD.of)
    | with_reducible apply Keeps.ite
    | with_reducible apply State.refused_keeps
    | with_reducible apply State.busError_keeps
    | split
    | apply kf
    | (intro _; intros; try beta_reduce)

end Sys2Proof.Machine
end

