-- ==== Sys2Proof/Laws/KeepsEngines.lean ====
section
/-! SUPPORT. What the operations keep: each leaves memory and the register file canonical and the queue as it is. -/
namespace Sys2Proof.Machine

/-! ### MacOps -/

theorem State.modMac_keeps {s₀ : State} {s : State} {p : Nat} {f : Mac → Mac} (hk : Keeps s₀ s) :
    Keeps s₀ (State.modMac s p f) := by
  unfold State.modMac
  repeat' first
    | with_reducible assumption
    | (dsimp only [Keeps.mk_eq]; with_reducible apply KeepsD.of)

theorem State.modPair_keeps {s₀ : State} {s : State} {p : Nat} {f : Pair → Pair} (hk : Keeps s₀ s) :
    Keeps s₀ (State.modPair s p f) := by
  unfold State.modPair
  repeat' first
    | with_reducible assumption
    | (dsimp only [Keeps.mk_eq]; with_reducible apply KeepsD.of)

theorem State.macBump_keeps {s₀ : State} {s : State} {p n : Nat} (hk : Keeps s₀ s) :
    Keeps s₀ (State.macBump s p n) := by
  unfold State.macBump
  repeat' first
    | with_reducible assumption
    | with_reducible apply State.bump_keeps

theorem State.wvlCount_keeps {s₀ : State} {s : State} {r : Nat} (hk : Keeps s₀ s) :
    Keeps s₀ (State.wvlCount s r).2 := by
  unfold State.wvlCount
  repeat' first
    | with_reducible assumption
    | (dsimp only [Keeps.mk_eq]; with_reducible apply KeepsD.of)
    | (extract_lets +onlyGivenNames x; refine Keeps.cut (s := s₀) (t := x) ?_ (fun hx => ?_); (on_goal 1 => (unfold x; clear x)); (on_goal 2 => clear_value x))
    | (extract_lets +onlyGivenNames x; refine Keeps.cut2 (s := s₀) (x := x) ?_ (fun hx => ?_); (on_goal 1 => (unfold x; clear x)); (on_goal 2 => clear_value x))
    | (extract_lets +onlyGivenNames x; refine Keeps.cut2 (s := s₀) (x := x.2) ?_ (fun hx => ?_); (on_goal 1 => (unfold x; clear x)); (on_goal 2 => clear_value x))
    | (extract_lets +onlyGivenNames x; (have hv : x = x := by unfold x; exact Eq.refl _); clear hv; clear_value x)
    | with_reducible apply Keeps.ite
    | with_reducible apply Keeps.ite2
    | with_reducible apply State.bump_keeps
    | split

theorem State.ringEnd_keeps {s₀ : State} {s : State} {sl r : Nat} {e : RingEnd} (hk : Keeps s₀ s) :
    Keeps s₀ (State.ringEnd s sl r e) := by
  unfold State.ringEnd
  repeat' first
    | with_reducible assumption
    | (dsimp only [Keeps.mk_eq]; with_reducible apply KeepsD.of)
    | (extract_lets +onlyGivenNames x; refine Keeps.cut (s := s₀) (t := x) ?_ (fun hx => ?_); (on_goal 1 => (unfold x; clear x)); (on_goal 2 => clear_value x))
    | (extract_lets +onlyGivenNames x; refine Keeps.cut2 (s := s₀) (x := x) ?_ (fun hx => ?_); (on_goal 1 => (unfold x; clear x)); (on_goal 2 => clear_value x))
    | (extract_lets +onlyGivenNames x; refine Keeps.cut2 (s := s₀) (x := x.2) ?_ (fun hx => ?_); (on_goal 1 => (unfold x; clear x)); (on_goal 2 => clear_value x))
    | (extract_lets +onlyGivenNames x; (have hv : x = x := by unfold x; exact Eq.refl _); clear hv; clear_value x)
    | with_reducible apply Keeps.ite
    | with_reducible apply State.wr64_keeps
    | with_reducible apply State.modSlice_keeps
    | with_reducible apply State.modRing_keeps
    | with_reducible apply State.advanceHead_keeps
    | with_reducible apply State.sliceError_keeps
    | with_reducible apply Keeps.forN
    | split
    | (intro _; intros; try beta_reduce)

theorem State.ringDrain_keeps {s₀ : State} {s : State} {sl r n : Nat} (hk : Keeps s₀ s) :
    Keeps s₀ (State.ringDrain s sl r n) := by
  induction n generalizing s with
  | zero => exact hk
  | succ n ih =>
    unfold State.ringDrain
    split
    · exact hk
    · exact ih (State.ringEnd_keeps (State.modRing_keeps hk))

theorem State.txComplete_keeps {s₀ : State} {s : State} {sl r gen first n status ts : Nat} {st : Option Nat} (hk : Keeps s₀ s) :
    Keeps s₀ (State.txComplete s sl r gen first n status ts st) := by
  unfold State.txComplete
  repeat' first
    | with_reducible assumption
    | (dsimp only [Keeps.mk_eq]; with_reducible apply KeepsD.of)
    | with_reducible apply Keeps.ite
    | with_reducible apply State.modRing_keeps
    | with_reducible apply State.ringDrain_keeps
    | split
    | (intro _; intros; try beta_reduce)

theorem State.markCopies_keeps {s₀ : State} {s : State} {src : TxSource} {ts : Nat} (hk : Keeps s₀ s) :
    Keeps s₀ (State.markCopies s src ts) := by
  unfold State.markCopies
  repeat' first
    | with_reducible assumption
    | (dsimp only [Keeps.mk_eq]; with_reducible apply KeepsD.of)
    | (extract_lets +onlyGivenNames x; refine Keeps.cut (s := s₀) (t := x) ?_ (fun hx => ?_); (on_goal 1 => (unfold x; clear x)); (on_goal 2 => clear_value x))
    | (extract_lets +onlyGivenNames x; refine Keeps.cut2 (s := s₀) (x := x) ?_ (fun hx => ?_); (on_goal 1 => (unfold x; clear x)); (on_goal 2 => clear_value x))
    | (extract_lets +onlyGivenNames x; refine Keeps.cut2 (s := s₀) (x := x.2) ?_ (fun hx => ?_); (on_goal 1 => (unfold x; clear x)); (on_goal 2 => clear_value x))
    | (extract_lets +onlyGivenNames x; refine Keeps.cutF1 (s := s₀) (f := x) ?_ (fun kx => ?_); (on_goal 1 => (unfold x; clear x; intros; beta_reduce)); (on_goal 2 => clear_value x))
    | (extract_lets +onlyGivenNames x; refine Keeps.cutF2 (s := s₀) (f := x) ?_ (fun kx => ?_); (on_goal 1 => (unfold x; clear x; intros; beta_reduce)); (on_goal 2 => clear_value x))
    | (extract_lets +onlyGivenNames x; refine Keeps.cutG2 (s := s₀) (f := x) ?_ (fun kx => ?_); (on_goal 1 => (unfold x; clear x; intros; beta_reduce)); (on_goal 2 => clear_value x))
    | (extract_lets +onlyGivenNames x; refine Keeps.cutF3 (s := s₀) (f := x) ?_ (fun kx => ?_); (on_goal 1 => (unfold x; clear x; intros; beta_reduce)); (on_goal 2 => clear_value x))
    | (extract_lets +onlyGivenNames x; refine Keeps.cutF4 (s := s₀) (f := x) ?_ (fun kx => ?_); (on_goal 1 => (unfold x; clear x; intros; beta_reduce)); (on_goal 2 => clear_value x))
    | (extract_lets +onlyGivenNames x; (have hv : x = x := by unfold x; exact Eq.refl _); clear hv; clear_value x)
    | with_reducible apply Keeps.ite
    | apply kx
    | split
    | (intro _; intros; try beta_reduce)

theorem State.txCopyEnd_keeps {s₀ : State} {s : State} {f : TxFrame} {status ts : Nat} (hk : Keeps s₀ s) :
    Keeps s₀ (State.txCopyEnd s f status ts) := by
  unfold State.txCopyEnd
  repeat' first
    | with_reducible assumption
    | (dsimp only [Keeps.mk_eq]; with_reducible apply KeepsD.of)
    | (extract_lets +onlyGivenNames x; refine Keeps.cut (s := s₀) (t := x) ?_ (fun hx => ?_); (on_goal 1 => (unfold x; clear x)); (on_goal 2 => clear_value x))
    | (extract_lets +onlyGivenNames x; refine Keeps.cut2 (s := s₀) (x := x) ?_ (fun hx => ?_); (on_goal 1 => (unfold x; clear x)); (on_goal 2 => clear_value x))
    | (extract_lets +onlyGivenNames x; refine Keeps.cut2 (s := s₀) (x := x.2) ?_ (fun hx => ?_); (on_goal 1 => (unfold x; clear x)); (on_goal 2 => clear_value x))
    | (extract_lets +onlyGivenNames x; (have hv : x = x := by unfold x; exact Eq.refl _); clear hv; clear_value x)
    | with_reducible apply Keeps.ite
    | with_reducible apply State.markCopies_keeps
    | with_reducible apply State.txComplete_keeps
    | split

theorem State.txFail_keeps {s₀ : State} {s : State} {f : TxFrame} {status : Nat} (hk : Keeps s₀ s) :
    Keeps s₀ (State.txFail s f status) := by
  exact State.txCopyEnd_keeps hk

theorem State.toClass_keeps {s₀ : State} {s : State} {p : Nat} {f : TxFrame} (hk : Keeps s₀ s) :
    Keeps s₀ (State.toClass s p f) := by
  unfold State.toClass
  repeat' first
    | with_reducible assumption
    | (dsimp only [Keeps.mk_eq]; with_reducible apply KeepsD.of)
    | (extract_lets +onlyGivenNames x; refine Keeps.cut (s := s₀) (t := x) ?_ (fun hx => ?_); (on_goal 1 => (unfold x; clear x)); (on_goal 2 => clear_value x))
    | (extract_lets +onlyGivenNames x; refine Keeps.cut2 (s := s₀) (x := x) ?_ (fun hx => ?_); (on_goal 1 => (unfold x; clear x)); (on_goal 2 => clear_value x))
    | (extract_lets +onlyGivenNames x; refine Keeps.cut2 (s := s₀) (x := x.2) ?_ (fun hx => ?_); (on_goal 1 => (unfold x; clear x)); (on_goal 2 => clear_value x))
    | (extract_lets +onlyGivenNames x; (have hv : x = x := by unfold x; exact Eq.refl _); clear hv; clear_value x)
    | with_reducible apply Keeps.ite
    | with_reducible apply State.modMac_keeps
    | split
    | (intro _; intros; try beta_reduce)

theorem State.txRelease_keeps {s₀ : State} {s : State} {p : Nat} {f : TxFrame} (hk : Keeps s₀ s) :
    Keeps s₀ (State.txRelease s p f) := by
  unfold State.txRelease
  repeat' first
    | with_reducible assumption
    | (dsimp only [Keeps.mk_eq]; with_reducible apply KeepsD.of)
    | (extract_lets +onlyGivenNames x; refine Keeps.cut (s := s₀) (t := x) ?_ (fun hx => ?_); (on_goal 1 => (unfold x; clear x)); (on_goal 2 => clear_value x))
    | (extract_lets +onlyGivenNames x; refine Keeps.cut2 (s := s₀) (x := x) ?_ (fun hx => ?_); (on_goal 1 => (unfold x; clear x)); (on_goal 2 => clear_value x))
    | (extract_lets +onlyGivenNames x; refine Keeps.cut2 (s := s₀) (x := x.2) ?_ (fun hx => ?_); (on_goal 1 => (unfold x; clear x)); (on_goal 2 => clear_value x))
    | (extract_lets +onlyGivenNames x; (have hv : x = x := by unfold x; exact Eq.refl _); clear hv; clear_value x)
    | with_reducible apply State.toClass_keeps
    | with_reducible apply State.wvlCount_keeps
    | with_reducible apply State.txFail_keeps
    | with_reducible apply State.modMac_keeps
    | split
    | (intro _; intros; try beta_reduce)

theorem State.txSubmit_keeps {s₀ : State} {s : State} {p : Nat} {f : TxFrame} (hk : Keeps s₀ s) :
    Keeps s₀ (State.txSubmit s p f) := by
  unfold State.txSubmit
  repeat' first
    | with_reducible assumption
    | (dsimp only [Keeps.mk_eq]; with_reducible apply KeepsD.of)
    | with_reducible apply Keeps.ite
    | with_reducible apply State.txRelease_keeps
    | with_reducible apply State.modMac_keeps
    | split
    | (intro _; intros; try beta_reduce)

theorem State.txPair_keeps {s₀ : State} {s : State} {p : Nat} {f : TxFrame} (hk : Keeps s₀ s) :
    Keeps s₀ (State.txPair s p f) := by
  unfold State.txPair
  repeat' first
    | with_reducible assumption
    | (dsimp only [Keeps.mk_eq]; with_reducible apply KeepsD.of)
    | (extract_lets +onlyGivenNames x; refine Keeps.cut (s := s₀) (t := x) ?_ (fun hx => ?_); (on_goal 1 => (unfold x; clear x)); (on_goal 2 => clear_value x))
    | (extract_lets +onlyGivenNames x; refine Keeps.cut2 (s := s₀) (x := x) ?_ (fun hx => ?_); (on_goal 1 => (unfold x; clear x)); (on_goal 2 => clear_value x))
    | (extract_lets +onlyGivenNames x; refine Keeps.cut2 (s := s₀) (x := x.2) ?_ (fun hx => ?_); (on_goal 1 => (unfold x; clear x)); (on_goal 2 => clear_value x))
    | (extract_lets +onlyGivenNames x; refine Keeps.cutF1 (s := s₀) (f := x) ?_ (fun kx => ?_); (on_goal 1 => (unfold x; clear x; intros; beta_reduce)); (on_goal 2 => clear_value x))
    | (extract_lets +onlyGivenNames x; refine Keeps.cutF2 (s := s₀) (f := x) ?_ (fun kx => ?_); (on_goal 1 => (unfold x; clear x; intros; beta_reduce)); (on_goal 2 => clear_value x))
    | (extract_lets +onlyGivenNames x; refine Keeps.cutG2 (s := s₀) (f := x) ?_ (fun kx => ?_); (on_goal 1 => (unfold x; clear x; intros; beta_reduce)); (on_goal 2 => clear_value x))
    | (extract_lets +onlyGivenNames x; refine Keeps.cutF3 (s := s₀) (f := x) ?_ (fun kx => ?_); (on_goal 1 => (unfold x; clear x; intros; beta_reduce)); (on_goal 2 => clear_value x))
    | (extract_lets +onlyGivenNames x; refine Keeps.cutF4 (s := s₀) (f := x) ?_ (fun kx => ?_); (on_goal 1 => (unfold x; clear x; intros; beta_reduce)); (on_goal 2 => clear_value x))
    | (extract_lets +onlyGivenNames x; (have hv : x = x := by unfold x; exact Eq.refl _); clear hv; clear_value x)
    | with_reducible apply Keeps.ite
    | with_reducible apply State.txSubmit_keeps
    | with_reducible apply State.modPair_keeps
    | apply kx
    | split
    | (intro _; intros; try beta_reduce)

theorem State.txPorts_keeps {s₀ : State} {s : State} {ports : Nat} {f : TxFrame} (hk : Keeps s₀ s) :
    Keeps s₀ (State.txPorts s ports f) := by
  unfold State.txPorts
  repeat' first
    | with_reducible assumption
    | (dsimp only [Keeps.mk_eq]; with_reducible apply KeepsD.of)
    | with_reducible apply State.txPair_keeps
    | with_reducible apply Keeps.foldl
    | with_reducible apply Keeps.foldl2
    | (intro _; intros; try beta_reduce)

theorem State.pauseRise_keeps {s₀ : State} {s : State} {p : Nat} (hk : Keeps s₀ s) :
    Keeps s₀ (State.pauseRise s p) := by
  unfold State.pauseRise
  repeat' first
    | with_reducible assumption
    | (dsimp only [Keeps.mk_eq]; with_reducible apply KeepsD.of)
    | with_reducible apply Keeps.ite
    | with_reducible apply State.modMac_keeps
    | with_reducible apply State.setF_keeps
    | split
    | (intro _; intros; try beta_reduce)

theorem State.txAbort_keeps {s₀ : State} {s : State} {p : Nat} (hk : Keeps s₀ s) :
    Keeps s₀ (State.txAbort s p) := by
  unfold State.txAbort
  repeat' first
    | with_reducible assumption
    | (dsimp only [Keeps.mk_eq]; with_reducible apply KeepsD.of)
    | with_reducible apply State.modMac_keeps
    | with_reducible apply State.macBump_keeps
    | with_reducible apply State.txFail_keeps
    | with_reducible apply State.pauseRise_keeps
    | split
    | (intro _; intros; try beta_reduce)

theorem State.linkFall_keeps {s₀ : State} {s : State} {p : Nat} (hk : Keeps s₀ s) :
    Keeps s₀ (State.linkFall s p) := by
  unfold State.linkFall
  repeat' first
    | with_reducible assumption
    | (extract_lets +onlyGivenNames x; refine Keeps.cut (s := s₀) (t := x) ?_ (fun hx => ?_); (on_goal 1 => (unfold x; clear x)); (on_goal 2 => clear_value x))
    | (extract_lets +onlyGivenNames x; refine Keeps.cut2 (s := s₀) (x := x) ?_ (fun hx => ?_); (on_goal 1 => (unfold x; clear x)); (on_goal 2 => clear_value x))
    | (extract_lets +onlyGivenNames x; refine Keeps.cut2 (s := s₀) (x := x.2) ?_ (fun hx => ?_); (on_goal 1 => (unfold x; clear x)); (on_goal 2 => clear_value x))
    | (extract_lets +onlyGivenNames x; (have hv : x = x := by unfold x; exact Eq.refl _); clear hv; clear_value x)
    | with_reducible apply Keeps.ite
    | with_reducible apply State.macBump_keeps
    | with_reducible apply State.setF_keeps
    | with_reducible apply State.txAbort_keeps
    | split

theorem State.stopMacs_keeps {s₀ : State} {s : State} (hk : Keeps s₀ s) :
    Keeps s₀ (State.stopMacs s) := by
  unfold State.stopMacs
  repeat' first
    | with_reducible assumption
    | (dsimp only [Keeps.mk_eq]; with_reducible apply KeepsD.of)
    | with_reducible apply State.txAbort_keeps
    | with_reducible apply State.modMac_keeps
    | with_reducible apply Keeps.forN
    | (intro _; intros; try beta_reduce)

theorem relHeld_keeps {s₀ : State} {hd : List Dep} {b l : List TxFrame} {s : State} {p : Nat} (hk : Keeps s₀ s) :
    Keeps s₀ (relHeld hd b l s p).2 := by
  induction l generalizing b s with
  | nil => exact hk
  | cons f t ih =>
    unfold relHeld
    split
    · exact ih hk
    · split
      · exact ih (State.txRelease_keeps hk)
      · exact ih hk

theorem State.txConfirm_keeps {s₀ : State} {s : State} (hk : Keeps s₀ s) :
    Keeps s₀ (State.txConfirm s) := by
  unfold State.txConfirm
  repeat' first
    | with_reducible assumption
    | (dsimp only [Keeps.mk_eq]; with_reducible apply KeepsD.of)
    | (extract_lets +onlyGivenNames x; refine Keeps.cut (s := s₀) (t := x) ?_ (fun hx => ?_); (on_goal 1 => (unfold x; clear x)); (on_goal 2 => clear_value x))
    | (extract_lets +onlyGivenNames x; refine Keeps.cut2 (s := s₀) (x := x) ?_ (fun hx => ?_); (on_goal 1 => (unfold x; clear x)); (on_goal 2 => clear_value x))
    | (extract_lets +onlyGivenNames x; refine Keeps.cut2 (s := s₀) (x := x.2) ?_ (fun hx => ?_); (on_goal 1 => (unfold x; clear x)); (on_goal 2 => clear_value x))
    | (extract_lets +onlyGivenNames x; (have hv : x = x := by unfold x; exact Eq.refl _); clear hv; clear_value x)
    | with_reducible apply Keeps.ite
    | with_reducible apply State.modMac_keeps
    | with_reducible apply relHeld_keeps
    | with_reducible apply Keeps.forN
    | split
    | (intro _; intros; try beta_reduce)

theorem State.txRefute_keeps {s₀ : State} {s : State} {l n : Nat} (hk : Keeps s₀ s) :
    Keeps s₀ (State.txRefute s l n) := by
  unfold State.txRefute
  repeat' first
    | with_reducible assumption
    | (dsimp only [Keeps.mk_eq]; with_reducible apply KeepsD.of)
    | (extract_lets +onlyGivenNames x; refine Keeps.cut (s := s₀) (t := x) ?_ (fun hx => ?_); (on_goal 1 => (unfold x; clear x)); (on_goal 2 => clear_value x))
    | (extract_lets +onlyGivenNames x; refine Keeps.cut2 (s := s₀) (x := x) ?_ (fun hx => ?_); (on_goal 1 => (unfold x; clear x)); (on_goal 2 => clear_value x))
    | (extract_lets +onlyGivenNames x; refine Keeps.cut2 (s := s₀) (x := x.2) ?_ (fun hx => ?_); (on_goal 1 => (unfold x; clear x)); (on_goal 2 => clear_value x))
    | (extract_lets +onlyGivenNames x; refine Keeps.cutF1 (s := s₀) (f := x) ?_ (fun kx => ?_); (on_goal 1 => (unfold x; clear x; intros; beta_reduce)); (on_goal 2 => clear_value x))
    | (extract_lets +onlyGivenNames x; refine Keeps.cutF2 (s := s₀) (f := x) ?_ (fun kx => ?_); (on_goal 1 => (unfold x; clear x; intros; beta_reduce)); (on_goal 2 => clear_value x))
    | (extract_lets +onlyGivenNames x; refine Keeps.cutG2 (s := s₀) (f := x) ?_ (fun kx => ?_); (on_goal 1 => (unfold x; clear x; intros; beta_reduce)); (on_goal 2 => clear_value x))
    | (extract_lets +onlyGivenNames x; refine Keeps.cutF3 (s := s₀) (f := x) ?_ (fun kx => ?_); (on_goal 1 => (unfold x; clear x; intros; beta_reduce)); (on_goal 2 => clear_value x))
    | (extract_lets +onlyGivenNames x; refine Keeps.cutF4 (s := s₀) (f := x) ?_ (fun kx => ?_); (on_goal 1 => (unfold x; clear x; intros; beta_reduce)); (on_goal 2 => clear_value x))
    | (extract_lets +onlyGivenNames x; (have hv : x = x := by unfold x; exact Eq.refl _); clear hv; clear_value x)
    | with_reducible apply Keeps.ite
    | with_reducible apply State.modMac_keeps
    | with_reducible apply State.macBump_keeps
    | with_reducible apply State.frameWithdrawn_keeps
    | with_reducible apply State.txFail_keeps
    | with_reducible apply Keeps.foldl
    | with_reducible apply Keeps.foldl2
    | with_reducible apply Keeps.forN
    | apply kx
    | split
    | (intro _; intros; try beta_reduce)

/-! ### Sample -/

theorem State.modLat_keeps {s₀ : State} {s : State} {l : Nat} {f : Lattice → Lattice} (hk : Keeps s₀ s) :
    Keeps s₀ (State.modLat s l f) := by
  unfold State.modLat
  repeat' first
    | with_reducible assumption
    | (dsimp only [Keeps.mk_eq]; with_reducible apply KeepsD.of)

theorem State.smemWr_keeps {s₀ : State} {s : State} {owner line w v : Nat} (hk : Keeps s₀ s) :
    Keeps s₀ (State.smemWr s owner line w v) := by
  unfold State.smemWr
  repeat' first
    | with_reducible assumption
    | (dsimp only [Keeps.mk_eq]; with_reducible apply KeepsD.of)
    | with_reducible apply Keeps.ite
    | with_reducible apply State.wr64_keeps
    | with_reducible apply State.bump_keeps
    | split
    | (intro _; intros; try beta_reduce)

theorem State.smemWrAll_keeps {s₀ : State} {s : State} {owner line : Nat} {ws : List Nat} (hk : Keeps s₀ s) :
    Keeps s₀ (State.smemWrAll s owner line ws) := by
  unfold State.smemWrAll
  repeat' first
    | with_reducible assumption
    | with_reducible apply State.smemWr_keeps
    | with_reducible apply Keeps.foldl
    | with_reducible apply Keeps.foldl2
    | (intro _; intros; try beta_reduce)

theorem State.writeSlotAs_keeps {s₀ : State} {s : State} {l : Nat} {i : Instant} {istate : Nat} (hk : Keeps s₀ s) :
    Keeps s₀ (State.writeSlotAs s l i istate) := by
  unfold State.writeSlotAs
  repeat' first
    | with_reducible assumption
    | (dsimp only [Keeps.mk_eq]; with_reducible apply KeepsD.of)
    | (extract_lets +onlyGivenNames x; refine Keeps.cut (s := s₀) (t := x) ?_ (fun hx => ?_); (on_goal 1 => (unfold x; clear x)); (on_goal 2 => clear_value x))
    | (extract_lets +onlyGivenNames x; refine Keeps.cut2 (s := s₀) (x := x) ?_ (fun hx => ?_); (on_goal 1 => (unfold x; clear x)); (on_goal 2 => clear_value x))
    | (extract_lets +onlyGivenNames x; refine Keeps.cut2 (s := s₀) (x := x.2) ?_ (fun hx => ?_); (on_goal 1 => (unfold x; clear x)); (on_goal 2 => clear_value x))
    | (extract_lets +onlyGivenNames x; (have hv : x = x := by unfold x; exact Eq.refl _); clear hv; clear_value x)
    | with_reducible apply Keeps.ite
    | with_reducible apply State.modLat_keeps
    | with_reducible apply State.smemWrAll_keeps
    | split
    | (intro _; intros; try beta_reduce)

theorem State.writeSlot_keeps {s₀ : State} {s : State} {l : Nat} {i : Instant} {conf : Bool} (hk : Keeps s₀ s) :
    Keeps s₀ (State.writeSlot s l i conf) := by
  unfold State.writeSlot
  repeat' first
    | with_reducible assumption
    | with_reducible apply Keeps.ite
    | with_reducible apply State.writeSlotAs_keeps
    | split

/-! ### Phasor -/

theorem State.pheSlot_keeps {s₀ : State} {s : State} {l n : Nat} {o : PheOut} {conf : Bool} (hk : Keeps s₀ s) :
    Keeps s₀ (State.pheSlot s l n o conf) := by
  unfold State.pheSlot
  repeat' first
    | with_reducible assumption
    | (dsimp only [Keeps.mk_eq]; with_reducible apply KeepsD.of)
    | (extract_lets +onlyGivenNames x; refine Keeps.cut (s := s₀) (t := x) ?_ (fun hx => ?_); (on_goal 1 => (unfold x; clear x)); (on_goal 2 => clear_value x))
    | (extract_lets +onlyGivenNames x; refine Keeps.cut2 (s := s₀) (x := x) ?_ (fun hx => ?_); (on_goal 1 => (unfold x; clear x)); (on_goal 2 => clear_value x))
    | (extract_lets +onlyGivenNames x; refine Keeps.cut2 (s := s₀) (x := x.2) ?_ (fun hx => ?_); (on_goal 1 => (unfold x; clear x)); (on_goal 2 => clear_value x))
    | (extract_lets +onlyGivenNames x; (have hv : x = x := by unfold x; exact Eq.refl _); clear hv; clear_value x)
    | with_reducible apply Keeps.ite
    | with_reducible apply State.smemWrAll_keeps
    | split
    | (intro _; intros; try beta_reduce)

theorem State.grpConf_keeps {s₀ : State} {s : State} {o : PheOut} (hk : Keeps s₀ s) :
    Keeps s₀ (State.grpConf s o) := by
  unfold State.grpConf
  repeat' first
    | with_reducible assumption
    | with_reducible apply State.setF_keeps
    | with_reducible apply Keeps.foldl
    | with_reducible apply Keeps.foldl2
    | (intro _; intros; try beta_reduce)

theorem State.pheStart_keeps {s₀ : State} {s : State} {l n0 : Nat} (hk : Keeps s₀ s) :
    Keeps s₀ (State.pheStart s l n0) := by
  unfold State.pheStart
  repeat' first
    | with_reducible assumption
    | (dsimp only [Keeps.mk_eq]; with_reducible apply KeepsD.of)
    | (extract_lets +onlyGivenNames x; refine Keeps.cut (s := s₀) (t := x) ?_ (fun hx => ?_); (on_goal 1 => (unfold x; clear x)); (on_goal 2 => clear_value x))
    | (extract_lets +onlyGivenNames x; refine Keeps.cut2 (s := s₀) (x := x) ?_ (fun hx => ?_); (on_goal 1 => (unfold x; clear x)); (on_goal 2 => clear_value x))
    | (extract_lets +onlyGivenNames x; refine Keeps.cut2 (s := s₀) (x := x.2) ?_ (fun hx => ?_); (on_goal 1 => (unfold x; clear x)); (on_goal 2 => clear_value x))
    | (extract_lets +onlyGivenNames x; (have hv : x = x := by unfold x; exact Eq.refl _); clear hv; clear_value x)
    | with_reducible apply State.setF_keeps
    | with_reducible apply Keeps.foldl
    | with_reducible apply Keeps.foldl2
    | (intro _; intros; try beta_reduce)

theorem State.pheFeed_keeps {s₀ : State} {s : State} {l n : Nat} {vals : List (Nat × LVal)} (hk : Keeps s₀ s) :
    Keeps s₀ (State.pheFeed s l n vals) := by
  unfold State.pheFeed
  repeat' first
    | with_reducible assumption
    | (dsimp only [Keeps.mk_eq]; with_reducible apply KeepsD.of)
    | with_reducible apply Keeps.ite
    | split

theorem State.pheRun_keeps {s₀ : State} {s : State} {l n : Nat} {r : State × PheOut} (hk : Keeps s₀ s)
    (hr : s.pheRun l n = some r) : Keeps s₀ r.1 := by
  unfold State.pheRun at hr
  split at hr
  · cases hr
  · split at hr
    · cases hr
    · cases hr
      repeat' first
        | with_reducible assumption
        | (dsimp only [Keeps.mk_eq]; with_reducible apply KeepsD.of)
        | with_reducible apply Keeps.ite
        | with_reducible apply State.bumpBy_keeps
        | with_reducible apply State.bump_keeps
        | with_reducible apply State.grpConf_keeps
        | with_reducible apply State.pheSlot_keeps

theorem State.applyFold_keeps {s₀ : State} {s : State} {f : Fold} (hk : Keeps s₀ s) :
    Keeps s₀ (State.applyFold s f) := by
  unfold State.applyFold
  repeat' first
    | with_reducible assumption
    | (dsimp only [Keeps.mk_eq]; with_reducible apply KeepsD.of)
    | (extract_lets +onlyGivenNames x; refine Keeps.cut (s := s₀) (t := x) ?_ (fun hx => ?_); (on_goal 1 => (unfold x; clear x)); (on_goal 2 => clear_value x))
    | (extract_lets +onlyGivenNames x; refine Keeps.cut2 (s := s₀) (x := x) ?_ (fun hx => ?_); (on_goal 1 => (unfold x; clear x)); (on_goal 2 => clear_value x))
    | (extract_lets +onlyGivenNames x; refine Keeps.cut2 (s := s₀) (x := x.2) ?_ (fun hx => ?_); (on_goal 1 => (unfold x; clear x)); (on_goal 2 => clear_value x))
    | (extract_lets +onlyGivenNames x; (have hv : x = x := by unfold x; exact Eq.refl _); clear hv; clear_value x)
    | with_reducible apply Keeps.ite
    | with_reducible apply State.bump_keeps
    | split
    | (intro _; intros; try beta_reduce)

theorem State.pheConfirm_keeps {s₀ : State} {s : State} {l n : Nat} (hk : Keeps s₀ s) :
    Keeps s₀ (State.pheConfirm s l n) := by
  unfold State.pheConfirm
  repeat' first
    | with_reducible assumption
    | (dsimp only [Keeps.mk_eq]; with_reducible apply KeepsD.of)
    | (extract_lets +onlyGivenNames x; refine Keeps.cut (s := s₀) (t := x) ?_ (fun hx => ?_); (on_goal 1 => (unfold x; clear x)); (on_goal 2 => clear_value x))
    | (extract_lets +onlyGivenNames x; refine Keeps.cut2 (s := s₀) (x := x) ?_ (fun hx => ?_); (on_goal 1 => (unfold x; clear x)); (on_goal 2 => clear_value x))
    | (extract_lets +onlyGivenNames x; refine Keeps.cut2 (s := s₀) (x := x.2) ?_ (fun hx => ?_); (on_goal 1 => (unfold x; clear x)); (on_goal 2 => clear_value x))
    | (extract_lets +onlyGivenNames x; (have hv : x = x := by unfold x; exact Eq.refl _); clear hv; clear_value x)
    | with_reducible apply State.pheSlot_keeps
    | with_reducible apply State.grpConf_keeps
    | split
    | (intro _; intros; try beta_reduce)

theorem State.pheRefute_keeps {s₀ : State} {s : State} {l n : Nat} (hk : Keeps s₀ s) :
    Keeps s₀ (State.pheRefute s l n) := by
  unfold State.pheRefute
  repeat' first
    | with_reducible assumption
    | (dsimp only [Keeps.mk_eq]; with_reducible apply KeepsD.of)
    | (extract_lets +onlyGivenNames x; refine Keeps.cut (s := s₀) (t := x) ?_ (fun hx => ?_); (on_goal 1 => (unfold x; clear x)); (on_goal 2 => clear_value x))
    | (extract_lets +onlyGivenNames x; refine Keeps.cut2 (s := s₀) (x := x) ?_ (fun hx => ?_); (on_goal 1 => (unfold x; clear x)); (on_goal 2 => clear_value x))
    | (extract_lets +onlyGivenNames x; refine Keeps.cut2 (s := s₀) (x := x.2) ?_ (fun hx => ?_); (on_goal 1 => (unfold x; clear x)); (on_goal 2 => clear_value x))
    | (extract_lets +onlyGivenNames x; (have hv : x = x := by unfold x; exact Eq.refl _); clear hv; clear_value x)
    | with_reducible apply Keeps.ite
    | with_reducible apply State.bump_keeps
    | split
    | (intro _; intros; try beta_reduce)

/-! ### Timebase -/

theorem idle_keeps {s₀ : State} {s : State} (hk : Keeps s₀ s) :
    Keeps s₀ (idle s) := by
  unfold idle
  repeat' first
    | with_reducible assumption
    | (dsimp only [Keeps.mk_eq]; with_reducible apply KeepsD.of)
    | (extract_lets +onlyGivenNames x; refine Keeps.cut (s := s₀) (t := x) ?_ (fun hx => ?_); (on_goal 1 => (unfold x; clear x)); (on_goal 2 => clear_value x))
    | (extract_lets +onlyGivenNames x; refine Keeps.cut2 (s := s₀) (x := x) ?_ (fun hx => ?_); (on_goal 1 => (unfold x; clear x)); (on_goal 2 => clear_value x))
    | (extract_lets +onlyGivenNames x; refine Keeps.cut2 (s := s₀) (x := x.2) ?_ (fun hx => ?_); (on_goal 1 => (unfold x; clear x)); (on_goal 2 => clear_value x))
    | (extract_lets +onlyGivenNames x; (have hv : x = x := by unfold x; exact Eq.refl _); clear hv; clear_value x)
    | with_reducible apply Keeps.ite
    | split

theorem State.loadTime_keeps {s₀ : State} {s : State} {n : Nat} (hk : Keeps s₀ s) :
    Keeps s₀ (State.loadTime s n) := by
  unfold State.loadTime
  repeat' first
    | with_reducible assumption
    | (dsimp only [Keeps.mk_eq]; with_reducible apply KeepsD.of)
    | (extract_lets +onlyGivenNames x; refine Keeps.cut (s := s₀) (t := x) ?_ (fun hx => ?_); (on_goal 1 => (unfold x; clear x)); (on_goal 2 => clear_value x))
    | (extract_lets +onlyGivenNames x; refine Keeps.cut2 (s := s₀) (x := x) ?_ (fun hx => ?_); (on_goal 1 => (unfold x; clear x)); (on_goal 2 => clear_value x))
    | (extract_lets +onlyGivenNames x; refine Keeps.cut2 (s := s₀) (x := x.2) ?_ (fun hx => ?_); (on_goal 1 => (unfold x; clear x)); (on_goal 2 => clear_value x))
    | (extract_lets +onlyGivenNames x; (have hv : x = x := by unfold x; exact Eq.refl _); clear hv; clear_value x)
    | with_reducible apply Keeps.ite
    | split
    | (intro _; intros; try beta_reduce)

theorem State.setRate_keeps {s₀ : State} {s : State} {v : Int} (hk : Keeps s₀ s) :
    Keeps s₀ (State.setRate s v) := by
  unfold State.setRate
  repeat' first
    | with_reducible assumption
    | (dsimp only [Keeps.mk_eq]; with_reducible apply KeepsD.of)
    | (extract_lets +onlyGivenNames x; refine Keeps.cut (s := s₀) (t := x) ?_ (fun hx => ?_); (on_goal 1 => (unfold x; clear x)); (on_goal 2 => clear_value x))
    | (extract_lets +onlyGivenNames x; refine Keeps.cut2 (s := s₀) (x := x) ?_ (fun hx => ?_); (on_goal 1 => (unfold x; clear x)); (on_goal 2 => clear_value x))
    | (extract_lets +onlyGivenNames x; refine Keeps.cut2 (s := s₀) (x := x.2) ?_ (fun hx => ?_); (on_goal 1 => (unfold x; clear x)); (on_goal 2 => clear_value x))
    | (extract_lets +onlyGivenNames x; (have hv : x = x := by unfold x; exact Eq.refl _); clear hv; clear_value x)
    | with_reducible apply State.setI_keeps

theorem State.freezeMean_keeps {s₀ : State} {s : State} (hk : Keeps s₀ s) :
    Keeps s₀ (State.freezeMean s) := by
  unfold State.freezeMean
  repeat' first
    | with_reducible assumption
    | (extract_lets +onlyGivenNames x; refine Keeps.cut (s := s₀) (t := x) ?_ (fun hx => ?_); (on_goal 1 => (unfold x; clear x)); (on_goal 2 => clear_value x))
    | (extract_lets +onlyGivenNames x; refine Keeps.cut2 (s := s₀) (x := x) ?_ (fun hx => ?_); (on_goal 1 => (unfold x; clear x)); (on_goal 2 => clear_value x))
    | (extract_lets +onlyGivenNames x; refine Keeps.cut2 (s := s₀) (x := x.2) ?_ (fun hx => ?_); (on_goal 1 => (unfold x; clear x)); (on_goal 2 => clear_value x))
    | (extract_lets +onlyGivenNames x; (have hv : x = x := by unfold x; exact Eq.refl _); clear hv; clear_value x)
    | with_reducible apply Keeps.ite
    | with_reducible apply State.openDiv_keeps
    | with_reducible apply State.setRate_keeps
    | split

theorem State.tdcView_keeps {s₀ : State} {s : State} (hk : Keeps s₀ s) :
    Keeps s₀ (State.tdcView s) := by
  unfold State.tdcView
  repeat' first
    | with_reducible assumption
    | (dsimp only [Keeps.mk_eq]; with_reducible apply KeepsD.of)
    | (extract_lets +onlyGivenNames x; refine Keeps.cut (s := s₀) (t := x) ?_ (fun hx => ?_); (on_goal 1 => (unfold x; clear x)); (on_goal 2 => clear_value x))
    | (extract_lets +onlyGivenNames x; refine Keeps.cut2 (s := s₀) (x := x) ?_ (fun hx => ?_); (on_goal 1 => (unfold x; clear x)); (on_goal 2 => clear_value x))
    | (extract_lets +onlyGivenNames x; refine Keeps.cut2 (s := s₀) (x := x.2) ?_ (fun hx => ?_); (on_goal 1 => (unfold x; clear x)); (on_goal 2 => clear_value x))
    | (extract_lets +onlyGivenNames x; (have hv : x = x := by unfold x; exact Eq.refl _); clear hv; clear_value x)
    | with_reducible apply State.setF_keeps
    | with_reducible apply State.setB_keeps
    | with_reducible apply Keeps.foldl
    | with_reducible apply Keeps.foldl2
    | (intro _; intros; try beta_reduce)

theorem State.setTdc_keeps {s₀ : State} {s : State} {ch : Nat} {t : Tdc} (hk : Keeps s₀ s) :
    Keeps s₀ (State.setTdc s ch t) := by
  unfold State.setTdc
  repeat' first
    | with_reducible assumption
    | (dsimp only [Keeps.mk_eq]; with_reducible apply KeepsD.of)
    | with_reducible apply State.tdcView_keeps

theorem State.tdcKeep_keeps {s₀ : State} {s : State} (hk : Keeps s₀ s) :
    Keeps s₀ (State.tdcKeep s) := by
  unfold State.tdcKeep
  repeat' first
    | with_reducible assumption
    | (dsimp only [Keeps.mk_eq]; with_reducible apply KeepsD.of)
    | (intro _; intros; try beta_reduce)

theorem tdcCalibrationStart_keeps {s₀ : State} {ch ln : Nat} {s : State} (hk : Keeps s₀ s) :
    Keeps s₀ (tdcCalibrationStart ch ln s) := by
  unfold tdcCalibrationStart
  repeat' first
    | with_reducible assumption
    | (dsimp only [Keeps.mk_eq]; with_reducible apply KeepsD.of)
    | (extract_lets +onlyGivenNames x; refine Keeps.cut (s := s₀) (t := x) ?_ (fun hx => ?_); (on_goal 1 => (unfold x; clear x)); (on_goal 2 => clear_value x))
    | (extract_lets +onlyGivenNames x; refine Keeps.cut2 (s := s₀) (x := x) ?_ (fun hx => ?_); (on_goal 1 => (unfold x; clear x)); (on_goal 2 => clear_value x))
    | (extract_lets +onlyGivenNames x; refine Keeps.cut2 (s := s₀) (x := x.2) ?_ (fun hx => ?_); (on_goal 1 => (unfold x; clear x)); (on_goal 2 => clear_value x))
    | (extract_lets +onlyGivenNames x; (have hv : x = x := by unfold x; exact Eq.refl _); clear hv; clear_value x)
    | with_reducible apply Keeps.ite
    | with_reducible apply State.setTdc_keeps
    | with_reducible apply State.failed_keeps
    | split

theorem tdcCalibrationDone_keeps {s₀ : State} {ch ln : Nat} {hits : List Nat} {s : State} (hk : Keeps s₀ s) :
    Keeps s₀ (tdcCalibrationDone ch ln hits s) := by
  unfold tdcCalibrationDone
  repeat' first
    | with_reducible assumption
    | (dsimp only [Keeps.mk_eq]; with_reducible apply KeepsD.of)
    | (extract_lets +onlyGivenNames x; refine Keeps.cut (s := s₀) (t := x) ?_ (fun hx => ?_); (on_goal 1 => (unfold x; clear x)); (on_goal 2 => clear_value x))
    | (extract_lets +onlyGivenNames x; refine Keeps.cut2 (s := s₀) (x := x) ?_ (fun hx => ?_); (on_goal 1 => (unfold x; clear x)); (on_goal 2 => clear_value x))
    | (extract_lets +onlyGivenNames x; refine Keeps.cut2 (s := s₀) (x := x.2) ?_ (fun hx => ?_); (on_goal 1 => (unfold x; clear x)); (on_goal 2 => clear_value x))
    | (extract_lets +onlyGivenNames x; (have hv : x = x := by unfold x; exact Eq.refl _); clear hv; clear_value x)
    | with_reducible apply Keeps.ite
    | with_reducible apply State.setTdc_keeps
    | split

theorem State.tdcDiscard_keeps {s₀ : State} {s : State} (hk : Keeps s₀ s) :
    Keeps s₀ (State.tdcDiscard s) := by
  unfold State.tdcDiscard
  repeat' first
    | with_reducible assumption
    | (dsimp only [Keeps.mk_eq]; with_reducible apply KeepsD.of)
    | (extract_lets +onlyGivenNames x; refine Keeps.cut (s := s₀) (t := x) ?_ (fun hx => ?_); (on_goal 1 => (unfold x; clear x)); (on_goal 2 => clear_value x))
    | (extract_lets +onlyGivenNames x; refine Keeps.cut2 (s := s₀) (x := x) ?_ (fun hx => ?_); (on_goal 1 => (unfold x; clear x)); (on_goal 2 => clear_value x))
    | (extract_lets +onlyGivenNames x; refine Keeps.cut2 (s := s₀) (x := x.2) ?_ (fun hx => ?_); (on_goal 1 => (unfold x; clear x)); (on_goal 2 => clear_value x))
    | (extract_lets +onlyGivenNames x; refine Keeps.cutF1 (s := s₀) (f := x) ?_ (fun kx => ?_); (on_goal 1 => (unfold x; clear x; intros; beta_reduce)); (on_goal 2 => clear_value x))
    | (extract_lets +onlyGivenNames x; refine Keeps.cutF2 (s := s₀) (f := x) ?_ (fun kx => ?_); (on_goal 1 => (unfold x; clear x; intros; beta_reduce)); (on_goal 2 => clear_value x))
    | (extract_lets +onlyGivenNames x; refine Keeps.cutG2 (s := s₀) (f := x) ?_ (fun kx => ?_); (on_goal 1 => (unfold x; clear x; intros; beta_reduce)); (on_goal 2 => clear_value x))
    | (extract_lets +onlyGivenNames x; refine Keeps.cutF3 (s := s₀) (f := x) ?_ (fun kx => ?_); (on_goal 1 => (unfold x; clear x; intros; beta_reduce)); (on_goal 2 => clear_value x))
    | (extract_lets +onlyGivenNames x; refine Keeps.cutF4 (s := s₀) (f := x) ?_ (fun kx => ?_); (on_goal 1 => (unfold x; clear x; intros; beta_reduce)); (on_goal 2 => clear_value x))
    | (extract_lets +onlyGivenNames x; (have hv : x = x := by unfold x; exact Eq.refl _); clear hv; clear_value x)
    | apply kx
    | (intro _; intros; try beta_reduce)

theorem State.tdcResume_keeps {s₀ : State} {s : State} (hk : Keeps s₀ s) :
    Keeps s₀ (State.tdcResume s) := by
  unfold State.tdcResume
  repeat' first
    | with_reducible assumption
    | (dsimp only [Keeps.mk_eq]; with_reducible apply KeepsD.of)
    | (extract_lets +onlyGivenNames x; refine Keeps.cut (s := s₀) (t := x) ?_ (fun hx => ?_); (on_goal 1 => (unfold x; clear x)); (on_goal 2 => clear_value x))
    | (extract_lets +onlyGivenNames x; refine Keeps.cut2 (s := s₀) (x := x) ?_ (fun hx => ?_); (on_goal 1 => (unfold x; clear x)); (on_goal 2 => clear_value x))
    | (extract_lets +onlyGivenNames x; refine Keeps.cut2 (s := s₀) (x := x.2) ?_ (fun hx => ?_); (on_goal 1 => (unfold x; clear x)); (on_goal 2 => clear_value x))
    | (extract_lets +onlyGivenNames x; refine Keeps.cutF1 (s := s₀) (f := x) ?_ (fun kx => ?_); (on_goal 1 => (unfold x; clear x; intros; beta_reduce)); (on_goal 2 => clear_value x))
    | (extract_lets +onlyGivenNames x; refine Keeps.cutF2 (s := s₀) (f := x) ?_ (fun kx => ?_); (on_goal 1 => (unfold x; clear x; intros; beta_reduce)); (on_goal 2 => clear_value x))
    | (extract_lets +onlyGivenNames x; refine Keeps.cutG2 (s := s₀) (f := x) ?_ (fun kx => ?_); (on_goal 1 => (unfold x; clear x; intros; beta_reduce)); (on_goal 2 => clear_value x))
    | (extract_lets +onlyGivenNames x; refine Keeps.cutF3 (s := s₀) (f := x) ?_ (fun kx => ?_); (on_goal 1 => (unfold x; clear x; intros; beta_reduce)); (on_goal 2 => clear_value x))
    | (extract_lets +onlyGivenNames x; refine Keeps.cutF4 (s := s₀) (f := x) ?_ (fun kx => ?_); (on_goal 1 => (unfold x; clear x; intros; beta_reduce)); (on_goal 2 => clear_value x))
    | (extract_lets +onlyGivenNames x; (have hv : x = x := by unfold x; exact Eq.refl _); clear hv; clear_value x)
    | apply kx
    | (intro _; intros; try beta_reduce)

theorem State.clockView_keeps {s₀ : State} {s : State} (hk : Keeps s₀ s) :
    Keeps s₀ (State.clockView s) := by
  unfold State.clockView
  repeat' first
    | with_reducible assumption
    | (extract_lets +onlyGivenNames x; refine Keeps.cut (s := s₀) (t := x) ?_ (fun hx => ?_); (on_goal 1 => (unfold x; clear x)); (on_goal 2 => clear_value x))
    | (extract_lets +onlyGivenNames x; refine Keeps.cut2 (s := s₀) (x := x) ?_ (fun hx => ?_); (on_goal 1 => (unfold x; clear x)); (on_goal 2 => clear_value x))
    | (extract_lets +onlyGivenNames x; refine Keeps.cut2 (s := s₀) (x := x.2) ?_ (fun hx => ?_); (on_goal 1 => (unfold x; clear x)); (on_goal 2 => clear_value x))
    | (extract_lets +onlyGivenNames x; (have hv : x = x := by unfold x; exact Eq.refl _); clear hv; clear_value x)
    | with_reducible apply Keeps.ite
    | with_reducible apply State.setF_keeps
    | split

theorem State.holdCount_keeps {s₀ : State} {s : State} (hk : Keeps s₀ s) :
    Keeps s₀ (State.holdCount s) := by
  unfold State.holdCount
  repeat' first
    | with_reducible assumption
    | (dsimp only [Keeps.mk_eq]; with_reducible apply KeepsD.of)
    | (extract_lets +onlyGivenNames x; refine Keeps.cut (s := s₀) (t := x) ?_ (fun hx => ?_); (on_goal 1 => (unfold x; clear x)); (on_goal 2 => clear_value x))
    | (extract_lets +onlyGivenNames x; refine Keeps.cut2 (s := s₀) (x := x) ?_ (fun hx => ?_); (on_goal 1 => (unfold x; clear x)); (on_goal 2 => clear_value x))
    | (extract_lets +onlyGivenNames x; refine Keeps.cut2 (s := s₀) (x := x.2) ?_ (fun hx => ?_); (on_goal 1 => (unfold x; clear x)); (on_goal 2 => clear_value x))
    | (extract_lets +onlyGivenNames x; (have hv : x = x := by unfold x; exact Eq.refl _); clear hv; clear_value x)
    | with_reducible apply Keeps.ite
    | split

theorem State.toClock_keeps {s₀ : State} {s : State} {st : Nat} (hk : Keeps s₀ s) :
    Keeps s₀ (State.toClock s st) := by
  unfold State.toClock
  repeat' first
    | with_reducible assumption
    | (dsimp only [Keeps.mk_eq]; with_reducible apply KeepsD.of)
    | (extract_lets +onlyGivenNames x; refine Keeps.cut (s := s₀) (t := x) ?_ (fun hx => ?_); (on_goal 1 => (unfold x; clear x)); (on_goal 2 => clear_value x))
    | (extract_lets +onlyGivenNames x; refine Keeps.cut2 (s := s₀) (x := x) ?_ (fun hx => ?_); (on_goal 1 => (unfold x; clear x)); (on_goal 2 => clear_value x))
    | (extract_lets +onlyGivenNames x; refine Keeps.cut2 (s := s₀) (x := x.2) ?_ (fun hx => ?_); (on_goal 1 => (unfold x; clear x)); (on_goal 2 => clear_value x))
    | (extract_lets +onlyGivenNames x; (have hv : x = x := by unfold x; exact Eq.refl _); clear hv; clear_value x)
    | with_reducible apply Keeps.ite
    | with_reducible apply State.setF_keeps
    | with_reducible apply State.holdCount_keeps
    | with_reducible apply State.clockView_keeps
    | split

theorem State.tbuFollow_keeps {s₀ : State} {s : State} (hk : Keeps s₀ s) :
    Keeps s₀ (State.tbuFollow s) := by
  unfold State.tbuFollow
  repeat' first
    | with_reducible assumption
    | (dsimp only [Keeps.mk_eq]; with_reducible apply KeepsD.of)
    | (extract_lets +onlyGivenNames x; refine Keeps.cut (s := s₀) (t := x) ?_ (fun hx => ?_); (on_goal 1 => (unfold x; clear x)); (on_goal 2 => clear_value x))
    | (extract_lets +onlyGivenNames x; refine Keeps.cut2 (s := s₀) (x := x) ?_ (fun hx => ?_); (on_goal 1 => (unfold x; clear x)); (on_goal 2 => clear_value x))
    | (extract_lets +onlyGivenNames x; refine Keeps.cut2 (s := s₀) (x := x.2) ?_ (fun hx => ?_); (on_goal 1 => (unfold x; clear x)); (on_goal 2 => clear_value x))
    | (extract_lets +onlyGivenNames x; (have hv : x = x := by unfold x; exact Eq.refl _); clear hv; clear_value x)
    | with_reducible apply Keeps.ite
    | with_reducible apply State.setRate_keeps
    | with_reducible apply State.tdcView_keeps
    | with_reducible apply State.holdCount_keeps
    | split

theorem State.selectMaster_keeps {s₀ : State} {s : State} {m : PtpAnnounce} (hk : Keeps s₀ s) :
    Keeps s₀ (State.selectMaster s m) := by
  unfold State.selectMaster
  repeat' first
    | with_reducible assumption
    | (dsimp only [Keeps.mk_eq]; with_reducible apply KeepsD.of)
    | (extract_lets +onlyGivenNames x; refine Keeps.cut (s := s₀) (t := x) ?_ (fun hx => ?_); (on_goal 1 => (unfold x; clear x)); (on_goal 2 => clear_value x))
    | (extract_lets +onlyGivenNames x; refine Keeps.cut2 (s := s₀) (x := x) ?_ (fun hx => ?_); (on_goal 1 => (unfold x; clear x)); (on_goal 2 => clear_value x))
    | (extract_lets +onlyGivenNames x; refine Keeps.cut2 (s := s₀) (x := x.2) ?_ (fun hx => ?_); (on_goal 1 => (unfold x; clear x)); (on_goal 2 => clear_value x))
    | (extract_lets +onlyGivenNames x; (have hv : x = x := by unfold x; exact Eq.refl _); clear hv; clear_value x)
    | with_reducible apply Keeps.ite
    | with_reducible apply State.setF_keeps
    | with_reducible apply State.clockView_keeps
    | with_reducible apply State.toClock_keeps
    | split

theorem State.announced_keeps {s₀ : State} {m : PtpAnnounce} {s : State} (hk : Keeps s₀ s) :
    Keeps s₀ (s.announced m) := by
  unfold State.announced
  repeat' first
    | with_reducible assumption
    | (dsimp only [Keeps.mk_eq]; with_reducible apply KeepsD.of)
    | (extract_lets +onlyGivenNames x; refine Keeps.cut (s := s₀) (t := x) ?_ (fun hx => ?_); (on_goal 1 => (unfold x; clear x)); (on_goal 2 => clear_value x))
    | (extract_lets +onlyGivenNames x; (have hv : x = x := by unfold x; exact Eq.refl _); clear hv; clear_value x)
    | with_reducible apply State.advanceTo_keeps
    | split

theorem State.syncHeard_keeps {s₀ : State} {m : PtpSync} {s : State} (hk : Keeps s₀ s) :
    Keeps s₀ (s.syncHeard m) := by
  unfold State.syncHeard
  repeat' first
    | with_reducible assumption
    | (dsimp only [Keeps.mk_eq]; with_reducible apply KeepsD.of)
    | (extract_lets +onlyGivenNames x; refine Keeps.cut (s := s₀) (t := x) ?_ (fun hx => ?_); (on_goal 1 => (unfold x; clear x)); (on_goal 2 => clear_value x))
    | (extract_lets +onlyGivenNames x; (have hv : x = x := by unfold x; exact Eq.refl _); clear hv; clear_value x)
    | with_reducible apply State.advanceTo_keeps
    | split

theorem ptpAnnounceRx_keeps {s₀ : State} {m : PtpAnnounce} {s : State} (hk : Keeps s₀ s) :
    Keeps s₀ (ptpAnnounceRx m s) := by
  unfold ptpAnnounceRx
  repeat' first
    | with_reducible assumption
    | (dsimp only [Keeps.mk_eq]; with_reducible apply KeepsD.of)
    | (extract_lets +onlyGivenNames x; refine Keeps.cut (s := s₀) (t := x) ?_ (fun hx => ?_); (on_goal 1 => (unfold x; clear x)); (on_goal 2 => clear_value x))
    | (extract_lets +onlyGivenNames x; refine Keeps.cut2 (s := s₀) (x := x) ?_ (fun hx => ?_); (on_goal 1 => (unfold x; clear x)); (on_goal 2 => clear_value x))
    | (extract_lets +onlyGivenNames x; refine Keeps.cut2 (s := s₀) (x := x.2) ?_ (fun hx => ?_); (on_goal 1 => (unfold x; clear x)); (on_goal 2 => clear_value x))
    | (extract_lets +onlyGivenNames x; (have hv : x = x := by unfold x; exact Eq.refl _); clear hv; clear_value x)
    | with_reducible apply Keeps.ite
    | with_reducible apply State.announced_keeps
    | with_reducible apply State.bump_keeps
    | with_reducible apply State.setF_keeps
    | with_reducible apply State.selectMaster_keeps
    | split
    | (intro _; intros; try beta_reduce)

theorem State.mastersLost_keeps {s₀ : State} {s : State} (hk : Keeps s₀ s) :
    Keeps s₀ (s.mastersLost) := by
  unfold State.mastersLost
  repeat' first
    | with_reducible assumption
    | (dsimp only [Keeps.mk_eq]; with_reducible apply KeepsD.of)
    | (extract_lets +onlyGivenNames x; refine Keeps.cut (s := s₀) (t := x) ?_ (fun hx => ?_); (on_goal 1 => (unfold x; clear x)); (on_goal 2 => clear_value x))
    | (extract_lets +onlyGivenNames x; (have hv : x = x := by unfold x; exact Eq.refl _); clear hv; clear_value x)
    | with_reducible apply State.advanceTo_keeps
    | split

theorem masterLost_keeps {s₀ : State} {s : State} (hk : Keeps s₀ s) :
    Keeps s₀ (masterLost s) := by
  unfold masterLost
  repeat' first
    | with_reducible assumption
    | (dsimp only [Keeps.mk_eq]; with_reducible apply KeepsD.of)
    | (extract_lets +onlyGivenNames x; refine Keeps.cut (s := s₀) (t := x) ?_ (fun hx => ?_); (on_goal 1 => (unfold x; clear x)); (on_goal 2 => clear_value x))
    | (extract_lets +onlyGivenNames x; refine Keeps.cut2 (s := s₀) (x := x) ?_ (fun hx => ?_); (on_goal 1 => (unfold x; clear x)); (on_goal 2 => clear_value x))
    | (extract_lets +onlyGivenNames x; refine Keeps.cut2 (s := s₀) (x := x.2) ?_ (fun hx => ?_); (on_goal 1 => (unfold x; clear x)); (on_goal 2 => clear_value x))
    | (extract_lets +onlyGivenNames x; (have hv : x = x := by unfold x; exact Eq.refl _); clear hv; clear_value x)
    | with_reducible apply Keeps.ite
    | with_reducible apply State.mastersLost_keeps
    | with_reducible apply State.selectMaster_keeps
    | with_reducible apply State.bump_keeps
    | with_reducible apply State.freezeMean_keeps
    | with_reducible apply State.toClock_keeps
    | split
    | (intro _; intros; try beta_reduce)

theorem fallbackMaster_keeps {s₀ : State} {s : State} (hk : Keeps s₀ s) :
    Keeps s₀ (fallbackMaster s) := by
  unfold fallbackMaster
  repeat' first
    | with_reducible assumption
    | with_reducible apply Keeps.ite
    | with_reducible apply State.advanceTo_keeps
    | with_reducible apply State.toClock_keeps
    | split

theorem holdSpecExpiry_keeps {s₀ : State} {s : State} (hk : Keeps s₀ s) :
    Keeps s₀ (holdSpecExpiry s) := by
  unfold holdSpecExpiry
  repeat' first
    | with_reducible assumption
    | (dsimp only [Keeps.mk_eq]; with_reducible apply KeepsD.of)
    | (extract_lets +onlyGivenNames x; refine Keeps.cut (s := s₀) (t := x) ?_ (fun hx => ?_); (on_goal 1 => (unfold x; clear x)); (on_goal 2 => clear_value x))
    | (extract_lets +onlyGivenNames x; refine Keeps.cut2 (s := s₀) (x := x) ?_ (fun hx => ?_); (on_goal 1 => (unfold x; clear x)); (on_goal 2 => clear_value x))
    | (extract_lets +onlyGivenNames x; refine Keeps.cut2 (s := s₀) (x := x.2) ?_ (fun hx => ?_); (on_goal 1 => (unfold x; clear x)); (on_goal 2 => clear_value x))
    | (extract_lets +onlyGivenNames x; (have hv : x = x := by unfold x; exact Eq.refl _); clear hv; clear_value x)
    | with_reducible apply Keeps.ite
    | with_reducible apply State.advanceTo_keeps
    | with_reducible apply State.clockView_keeps
    | split

theorem State.servo_keeps {s₀ : State} {s : State} {o : Int} (hk : Keeps s₀ s) :
    Keeps s₀ (State.servo s o) := by
  unfold State.servo
  repeat' first
    | with_reducible assumption
    | (dsimp only [Keeps.mk_eq]; with_reducible apply KeepsD.of)
    | (extract_lets +onlyGivenNames x; refine Keeps.cut (s := s₀) (t := x) ?_ (fun hx => ?_); (on_goal 1 => (unfold x; clear x)); (on_goal 2 => clear_value x))
    | (extract_lets +onlyGivenNames x; refine Keeps.cut2 (s := s₀) (x := x) ?_ (fun hx => ?_); (on_goal 1 => (unfold x; clear x)); (on_goal 2 => clear_value x))
    | (extract_lets +onlyGivenNames x; refine Keeps.cut2 (s := s₀) (x := x.2) ?_ (fun hx => ?_); (on_goal 1 => (unfold x; clear x)); (on_goal 2 => clear_value x))
    | (extract_lets +onlyGivenNames x; (have hv : x = x := by unfold x; exact Eq.refl _); clear hv; clear_value x)
    | with_reducible apply Keeps.ite
    | with_reducible apply State.openDiv_keeps
    | with_reducible apply State.setRate_keeps
    | split

theorem State.moved_keeps {s₀ : State} {s : State} {f : Time → Time} (hk : Keeps s₀ s) :
    Keeps s₀ (State.moved s f) := by
  unfold State.moved
  repeat' first
    | with_reducible assumption
    | (dsimp only [Keeps.mk_eq]; with_reducible apply KeepsD.of)
    | (extract_lets +onlyGivenNames x; refine Keeps.cut (s := s₀) (t := x) ?_ (fun hx => ?_); (on_goal 1 => (unfold x; clear x)); (on_goal 2 => clear_value x))
    | (extract_lets +onlyGivenNames x; refine Keeps.cut2 (s := s₀) (x := x) ?_ (fun hx => ?_); (on_goal 1 => (unfold x; clear x)); (on_goal 2 => clear_value x))
    | (extract_lets +onlyGivenNames x; refine Keeps.cut2 (s := s₀) (x := x.2) ?_ (fun hx => ?_); (on_goal 1 => (unfold x; clear x)); (on_goal 2 => clear_value x))
    | (extract_lets +onlyGivenNames x; refine Keeps.cutF1 (s := s₀) (f := x) ?_ (fun kx => ?_); (on_goal 1 => (unfold x; clear x; intros; beta_reduce)); (on_goal 2 => clear_value x))
    | (extract_lets +onlyGivenNames x; refine Keeps.cutF2 (s := s₀) (f := x) ?_ (fun kx => ?_); (on_goal 1 => (unfold x; clear x; intros; beta_reduce)); (on_goal 2 => clear_value x))
    | (extract_lets +onlyGivenNames x; refine Keeps.cutG2 (s := s₀) (f := x) ?_ (fun kx => ?_); (on_goal 1 => (unfold x; clear x; intros; beta_reduce)); (on_goal 2 => clear_value x))
    | (extract_lets +onlyGivenNames x; refine Keeps.cutF3 (s := s₀) (f := x) ?_ (fun kx => ?_); (on_goal 1 => (unfold x; clear x; intros; beta_reduce)); (on_goal 2 => clear_value x))
    | (extract_lets +onlyGivenNames x; refine Keeps.cutF4 (s := s₀) (f := x) ?_ (fun kx => ?_); (on_goal 1 => (unfold x; clear x; intros; beta_reduce)); (on_goal 2 => clear_value x))
    | (extract_lets +onlyGivenNames x; (have hv : x = x := by unfold x; exact Eq.refl _); clear hv; clear_value x)
    | with_reducible apply Keeps.ite
    | apply kx
    | split
    | (intro _; intros; try beta_reduce)

theorem State.timeStep_keeps {s₀ : State} {s : State} {o : Int} (hk : Keeps s₀ s) :
    Keeps s₀ (State.timeStep s o) := by
  unfold State.timeStep
  repeat' first
    | with_reducible assumption
    | (dsimp only [Keeps.mk_eq]; with_reducible apply KeepsD.of)
    | (extract_lets +onlyGivenNames x; refine Keeps.cut (s := s₀) (t := x) ?_ (fun hx => ?_); (on_goal 1 => (unfold x; clear x)); (on_goal 2 => clear_value x))
    | (extract_lets +onlyGivenNames x; refine Keeps.cut2 (s := s₀) (x := x) ?_ (fun hx => ?_); (on_goal 1 => (unfold x; clear x)); (on_goal 2 => clear_value x))
    | (extract_lets +onlyGivenNames x; refine Keeps.cut2 (s := s₀) (x := x.2) ?_ (fun hx => ?_); (on_goal 1 => (unfold x; clear x)); (on_goal 2 => clear_value x))
    | (extract_lets +onlyGivenNames x; (have hv : x = x := by unfold x; exact Eq.refl _); clear hv; clear_value x)
    | with_reducible apply State.moved_keeps
    | with_reducible apply State.belfry_keeps
    | with_reducible apply State.keyTimes_keeps
    | (intro _; intros; try beta_reduce)

theorem State.clockOffset_keeps {s₀ : State} {s : State} {o : Int} (hk : Keeps s₀ s) :
    Keeps s₀ (State.clockOffset s o) := by
  unfold State.clockOffset
  repeat' first
    | with_reducible assumption
    | (dsimp only [Keeps.mk_eq]; with_reducible apply KeepsD.of)
    | (extract_lets +onlyGivenNames x; refine Keeps.cut (s := s₀) (t := x) ?_ (fun hx => ?_); (on_goal 1 => (unfold x; clear x)); (on_goal 2 => clear_value x))
    | (extract_lets +onlyGivenNames x; refine Keeps.cut2 (s := s₀) (x := x) ?_ (fun hx => ?_); (on_goal 1 => (unfold x; clear x)); (on_goal 2 => clear_value x))
    | (extract_lets +onlyGivenNames x; refine Keeps.cut2 (s := s₀) (x := x.2) ?_ (fun hx => ?_); (on_goal 1 => (unfold x; clear x)); (on_goal 2 => clear_value x))
    | (extract_lets +onlyGivenNames x; (have hv : x = x := by unfold x; exact Eq.refl _); clear hv; clear_value x)
    | with_reducible apply Keeps.ite
    | with_reducible apply State.timeStep_keeps
    | with_reducible apply State.setF_keeps
    | with_reducible apply State.toClock_keeps
    | split

theorem State.linkDelay_keeps {s₀ : State} {s : State} {p : Nat} (hk : Keeps s₀ s) :
    Keeps s₀ (State.linkDelay s p).2 := by
  unfold State.linkDelay
  repeat' first
    | with_reducible assumption
    | (extract_lets +onlyGivenNames x; refine Keeps.cut (s := s₀) (t := x) ?_ (fun hx => ?_); (on_goal 1 => (unfold x; clear x)); (on_goal 2 => clear_value x))
    | (extract_lets +onlyGivenNames x; refine Keeps.cut2 (s := s₀) (x := x) ?_ (fun hx => ?_); (on_goal 1 => (unfold x; clear x)); (on_goal 2 => clear_value x))
    | (extract_lets +onlyGivenNames x; refine Keeps.cut2 (s := s₀) (x := x.2) ?_ (fun hx => ?_); (on_goal 1 => (unfold x; clear x)); (on_goal 2 => clear_value x))
    | (extract_lets +onlyGivenNames x; (have hv : x = x := by unfold x; exact Eq.refl _); clear hv; clear_value x)
    | with_reducible apply Keeps.ite
    | with_reducible apply Keeps.ite2
    | with_reducible apply State.openDiv_keeps
    | split

theorem State.showDelay_keeps {s₀ : State} {s : State} {v : Int} (hk : Keeps s₀ s) :
    Keeps s₀ (State.showDelay s v) := by
  unfold State.showDelay
  repeat' first
    | with_reducible assumption
    | with_reducible apply Keeps.ite
    | with_reducible apply State.setF_keeps
    | with_reducible apply State.drawn_keeps
    | split

theorem State.syncAccepted_keeps {s₀ : State} {s : State} {m : PtpSync} {rx origin : Time} {corr : Int} (hk : Keeps s₀ s) :
    Keeps s₀ (State.syncAccepted s m rx origin corr) := by
  unfold State.syncAccepted
  repeat' first
    | with_reducible assumption
    | (extract_lets +onlyGivenNames x; refine Keeps.cut (s := s₀) (t := x) ?_ (fun hx => ?_); (on_goal 1 => (unfold x; clear x)); (on_goal 2 => clear_value x))
    | (extract_lets +onlyGivenNames x; refine Keeps.cut2 (s := s₀) (x := x) ?_ (fun hx => ?_); (on_goal 1 => (unfold x; clear x)); (on_goal 2 => clear_value x))
    | (extract_lets +onlyGivenNames x; refine Keeps.cut2 (s := s₀) (x := x.2) ?_ (fun hx => ?_); (on_goal 1 => (unfold x; clear x)); (on_goal 2 => clear_value x))
    | (extract_lets +onlyGivenNames x; (have hv : x = x := by unfold x; exact Eq.refl _); clear hv; clear_value x)
    | with_reducible apply Keeps.ite
    | with_reducible apply State.linkDelay_keeps
    | with_reducible apply State.showDelay_keeps
    | with_reducible apply State.servo_keeps
    | with_reducible apply State.setI_keeps
    | with_reducible apply State.setF_keeps
    | with_reducible apply State.clockOffset_keeps
    | split

theorem ptpSyncRx_keeps {s₀ : State} {m : PtpSync} {s : State} (hk : Keeps s₀ s) :
    Keeps s₀ (ptpSyncRx m s) := by
  unfold ptpSyncRx
  repeat' first
    | with_reducible assumption
    | (dsimp only [Keeps.mk_eq]; with_reducible apply KeepsD.of)
    | (extract_lets +onlyGivenNames x; refine Keeps.cut (s := s₀) (t := x) ?_ (fun hx => ?_); (on_goal 1 => (unfold x; clear x)); (on_goal 2 => clear_value x))
    | (extract_lets +onlyGivenNames x; refine Keeps.cut2 (s := s₀) (x := x) ?_ (fun hx => ?_); (on_goal 1 => (unfold x; clear x)); (on_goal 2 => clear_value x))
    | (extract_lets +onlyGivenNames x; refine Keeps.cut2 (s := s₀) (x := x.2) ?_ (fun hx => ?_); (on_goal 1 => (unfold x; clear x)); (on_goal 2 => clear_value x))
    | (extract_lets +onlyGivenNames x; (have hv : x = x := by unfold x; exact Eq.refl _); clear hv; clear_value x)
    | with_reducible apply Keeps.ite
    | with_reducible apply State.syncHeard_keeps
    | with_reducible apply State.bump_keeps
    | with_reducible apply State.syncAccepted_keeps
    | split

theorem ptpFollowUpRx_keeps {s₀ : State} {m : PtpSync} {s : State} (hk : Keeps s₀ s) :
    Keeps s₀ (ptpFollowUpRx m s) := by
  unfold ptpFollowUpRx
  repeat' first
    | with_reducible assumption
    | (dsimp only [Keeps.mk_eq]; with_reducible apply KeepsD.of)
    | with_reducible apply Keeps.ite
    | with_reducible apply State.bump_keeps
    | with_reducible apply State.syncAccepted_keeps
    | split

theorem State.delayMeasured_keeps {s₀ : State} {s : State} {p : Nat} {d : Int} (hk : Keeps s₀ s) :
    Keeps s₀ (State.delayMeasured s p d) := by
  unfold State.delayMeasured
  repeat' first
    | with_reducible assumption
    | (dsimp only [Keeps.mk_eq]; with_reducible apply KeepsD.of)
    | (extract_lets +onlyGivenNames x; refine Keeps.cut (s := s₀) (t := x) ?_ (fun hx => ?_); (on_goal 1 => (unfold x; clear x)); (on_goal 2 => clear_value x))
    | (extract_lets +onlyGivenNames x; refine Keeps.cut2 (s := s₀) (x := x) ?_ (fun hx => ?_); (on_goal 1 => (unfold x; clear x)); (on_goal 2 => clear_value x))
    | (extract_lets +onlyGivenNames x; refine Keeps.cut2 (s := s₀) (x := x.2) ?_ (fun hx => ?_); (on_goal 1 => (unfold x; clear x)); (on_goal 2 => clear_value x))
    | (extract_lets +onlyGivenNames x; refine Keeps.cutF1 (s := s₀) (f := x) ?_ (fun kx => ?_); (on_goal 1 => (unfold x; clear x; intros; beta_reduce)); (on_goal 2 => clear_value x))
    | (extract_lets +onlyGivenNames x; refine Keeps.cutF2 (s := s₀) (f := x) ?_ (fun kx => ?_); (on_goal 1 => (unfold x; clear x; intros; beta_reduce)); (on_goal 2 => clear_value x))
    | (extract_lets +onlyGivenNames x; refine Keeps.cutG2 (s := s₀) (f := x) ?_ (fun kx => ?_); (on_goal 1 => (unfold x; clear x; intros; beta_reduce)); (on_goal 2 => clear_value x))
    | (extract_lets +onlyGivenNames x; refine Keeps.cutF3 (s := s₀) (f := x) ?_ (fun kx => ?_); (on_goal 1 => (unfold x; clear x; intros; beta_reduce)); (on_goal 2 => clear_value x))
    | (extract_lets +onlyGivenNames x; refine Keeps.cutF4 (s := s₀) (f := x) ?_ (fun kx => ?_); (on_goal 1 => (unfold x; clear x; intros; beta_reduce)); (on_goal 2 => clear_value x))
    | (extract_lets +onlyGivenNames x; (have hv : x = x := by unfold x; exact Eq.refl _); clear hv; clear_value x)
    | with_reducible apply Keeps.ite
    | with_reducible apply State.linkDelay_keeps
    | with_reducible apply State.showDelay_keeps
    | apply kx
    | split
    | (intro _; intros; try beta_reduce)

theorem State.turnaround_keeps {s₀ : State} {s : State} {p : Nat} {x : Int} (hk : Keeps s₀ s) :
    Keeps s₀ (State.turnaround s p x) := by
  unfold State.turnaround
  repeat' first
    | with_reducible assumption
    | (extract_lets +onlyGivenNames x; refine Keeps.cut (s := s₀) (t := x) ?_ (fun hx => ?_); (on_goal 1 => (unfold x; clear x)); (on_goal 2 => clear_value x))
    | (extract_lets +onlyGivenNames x; refine Keeps.cut2 (s := s₀) (x := x) ?_ (fun hx => ?_); (on_goal 1 => (unfold x; clear x)); (on_goal 2 => clear_value x))
    | (extract_lets +onlyGivenNames x; refine Keeps.cut2 (s := s₀) (x := x.2) ?_ (fun hx => ?_); (on_goal 1 => (unfold x; clear x)); (on_goal 2 => clear_value x))
    | (extract_lets +onlyGivenNames x; (have hv : x = x := by unfold x; exact Eq.refl _); clear hv; clear_value x)
    | with_reducible apply State.openDiv_keeps
    | with_reducible apply State.delayMeasured_keeps

theorem ptpPdelayRespRx_keeps {s₀ : State} {m : PtpPdelay} {s : State} (hk : Keeps s₀ s) :
    Keeps s₀ (ptpPdelayRespRx m s) := by
  unfold ptpPdelayRespRx
  repeat' first
    | with_reducible assumption
    | (dsimp only [Keeps.mk_eq]; with_reducible apply KeepsD.of)
    | (extract_lets +onlyGivenNames x; refine Keeps.cut (s := s₀) (t := x) ?_ (fun hx => ?_); (on_goal 1 => (unfold x; clear x)); (on_goal 2 => clear_value x))
    | (extract_lets +onlyGivenNames x; refine Keeps.cut2 (s := s₀) (x := x) ?_ (fun hx => ?_); (on_goal 1 => (unfold x; clear x)); (on_goal 2 => clear_value x))
    | (extract_lets +onlyGivenNames x; refine Keeps.cut2 (s := s₀) (x := x.2) ?_ (fun hx => ?_); (on_goal 1 => (unfold x; clear x)); (on_goal 2 => clear_value x))
    | (extract_lets +onlyGivenNames x; (have hv : x = x := by unfold x; exact Eq.refl _); clear hv; clear_value x)
    | with_reducible apply Keeps.ite
    | with_reducible apply State.bump_keeps
    | with_reducible apply State.turnaround_keeps
    | split
    | (intro _; intros; try beta_reduce)

theorem pdelayRespFollowUpRx_keeps {s₀ : State} {m : PtpPdelay} {s : State} (hk : Keeps s₀ s) :
    Keeps s₀ (pdelayRespFollowUpRx m s) := by
  unfold pdelayRespFollowUpRx
  repeat' first
    | with_reducible assumption
    | (dsimp only [Keeps.mk_eq]; with_reducible apply KeepsD.of)
    | (extract_lets +onlyGivenNames x; refine Keeps.cut (s := s₀) (t := x) ?_ (fun hx => ?_); (on_goal 1 => (unfold x; clear x)); (on_goal 2 => clear_value x))
    | (extract_lets +onlyGivenNames x; refine Keeps.cut2 (s := s₀) (x := x) ?_ (fun hx => ?_); (on_goal 1 => (unfold x; clear x)); (on_goal 2 => clear_value x))
    | (extract_lets +onlyGivenNames x; refine Keeps.cut2 (s := s₀) (x := x.2) ?_ (fun hx => ?_); (on_goal 1 => (unfold x; clear x)); (on_goal 2 => clear_value x))
    | (extract_lets +onlyGivenNames x; (have hv : x = x := by unfold x; exact Eq.refl _); clear hv; clear_value x)
    | with_reducible apply Keeps.ite
    | with_reducible apply State.bump_keeps
    | with_reducible apply State.turnaround_keeps
    | split
    | (intro _; intros; try beta_reduce)

theorem State.ptpSend_keeps {s₀ : State} {s : State} {p kind seq : Nat} {time : Time} (hk : Keeps s₀ s) :
    Keeps s₀ (State.ptpSend s p kind seq time) := by
  unfold State.ptpSend
  repeat' first
    | with_reducible assumption
    | (extract_lets +onlyGivenNames x; refine Keeps.cut (s := s₀) (t := x) ?_ (fun hx => ?_); (on_goal 1 => (unfold x; clear x)); (on_goal 2 => clear_value x))
    | (extract_lets +onlyGivenNames x; refine Keeps.cut2 (s := s₀) (x := x) ?_ (fun hx => ?_); (on_goal 1 => (unfold x; clear x)); (on_goal 2 => clear_value x))
    | (extract_lets +onlyGivenNames x; refine Keeps.cut2 (s := s₀) (x := x.2) ?_ (fun hx => ?_); (on_goal 1 => (unfold x; clear x)); (on_goal 2 => clear_value x))
    | (extract_lets +onlyGivenNames x; (have hv : x = x := by unfold x; exact Eq.refl _); clear hv; clear_value x)
    | with_reducible apply Keeps.ite
    | with_reducible apply State.txPair_keeps
    | with_reducible apply State.txSubmit_keeps
    | split

theorem State.ptpSendAll_keeps {s₀ : State} {s : State} {kind seq : Nat} (hk : Keeps s₀ s) :
    Keeps s₀ (State.ptpSendAll s kind seq) := by
  unfold State.ptpSendAll
  repeat' first
    | with_reducible assumption
    | (dsimp only [Keeps.mk_eq]; with_reducible apply KeepsD.of)
    | with_reducible apply State.ptpSend_keeps
    | with_reducible apply Keeps.foldl
    | with_reducible apply Keeps.foldl2
    | (intro _; intros; try beta_reduce)

theorem State.ptpPace_keeps {s₀ : State} {s : State} {kind : Nat} (hk : Keeps s₀ s) :
    Keeps s₀ (State.ptpPace s kind) := by
  unfold State.ptpPace
  repeat' first
    | with_reducible assumption
    | (dsimp only [Keeps.mk_eq]; with_reducible apply KeepsD.of)
    | (extract_lets +onlyGivenNames x; refine Keeps.cut (s := s₀) (t := x) ?_ (fun hx => ?_); (on_goal 1 => (unfold x; clear x)); (on_goal 2 => clear_value x))
    | (extract_lets +onlyGivenNames x; refine Keeps.cut2 (s := s₀) (x := x) ?_ (fun hx => ?_); (on_goal 1 => (unfold x; clear x)); (on_goal 2 => clear_value x))
    | (extract_lets +onlyGivenNames x; refine Keeps.cut2 (s := s₀) (x := x.2) ?_ (fun hx => ?_); (on_goal 1 => (unfold x; clear x)); (on_goal 2 => clear_value x))
    | (extract_lets +onlyGivenNames x; (have hv : x = x := by unfold x; exact Eq.refl _); clear hv; clear_value x)
    | with_reducible apply Keeps.ite
    | with_reducible apply State.advanceTo_keeps
    | split

theorem ptpPdelayReqRx_keeps {s₀ : State} {port domain seq : Nat} {logInt : Int} {code : Nat} {s : State} (hk : Keeps s₀ s) :
    Keeps s₀ (ptpPdelayReqRx port domain seq logInt code s) := by
  unfold ptpPdelayReqRx
  repeat' first
    | with_reducible assumption
    | with_reducible apply Keeps.ite
    | with_reducible apply State.bump_keeps
    | with_reducible apply State.ptpSend_keeps
    | split

theorem ptpAnnounceTx_keeps {s₀ : State} {s : State} (hk : Keeps s₀ s) :
    Keeps s₀ (ptpAnnounceTx s) := by
  unfold ptpAnnounceTx
  repeat' first
    | with_reducible assumption
    | (dsimp only [Keeps.mk_eq]; with_reducible apply KeepsD.of)
    | (extract_lets +onlyGivenNames x; refine Keeps.cut (s := s₀) (t := x) ?_ (fun hx => ?_); (on_goal 1 => (unfold x; clear x)); (on_goal 2 => clear_value x))
    | (extract_lets +onlyGivenNames x; refine Keeps.cut2 (s := s₀) (x := x) ?_ (fun hx => ?_); (on_goal 1 => (unfold x; clear x)); (on_goal 2 => clear_value x))
    | (extract_lets +onlyGivenNames x; refine Keeps.cut2 (s := s₀) (x := x.2) ?_ (fun hx => ?_); (on_goal 1 => (unfold x; clear x)); (on_goal 2 => clear_value x))
    | (extract_lets +onlyGivenNames x; (have hv : x = x := by unfold x; exact Eq.refl _); clear hv; clear_value x)
    | with_reducible apply Keeps.ite
    | with_reducible apply State.ptpPace_keeps
    | with_reducible apply State.ptpSendAll_keeps
    | split

theorem ptpSyncTx_keeps {s₀ : State} {s : State} (hk : Keeps s₀ s) :
    Keeps s₀ (ptpSyncTx s) := by
  unfold ptpSyncTx
  repeat' first
    | with_reducible assumption
    | (dsimp only [Keeps.mk_eq]; with_reducible apply KeepsD.of)
    | (extract_lets +onlyGivenNames x; refine Keeps.cut (s := s₀) (t := x) ?_ (fun hx => ?_); (on_goal 1 => (unfold x; clear x)); (on_goal 2 => clear_value x))
    | (extract_lets +onlyGivenNames x; refine Keeps.cut2 (s := s₀) (x := x) ?_ (fun hx => ?_); (on_goal 1 => (unfold x; clear x)); (on_goal 2 => clear_value x))
    | (extract_lets +onlyGivenNames x; refine Keeps.cut2 (s := s₀) (x := x.2) ?_ (fun hx => ?_); (on_goal 1 => (unfold x; clear x)); (on_goal 2 => clear_value x))
    | (extract_lets +onlyGivenNames x; (have hv : x = x := by unfold x; exact Eq.refl _); clear hv; clear_value x)
    | with_reducible apply Keeps.ite
    | with_reducible apply State.ptpPace_keeps
    | with_reducible apply State.ptpSendAll_keeps
    | split

theorem ptpPdelayReqTx_keeps {s₀ : State} {s : State} (hk : Keeps s₀ s) :
    Keeps s₀ (ptpPdelayReqTx s) := by
  unfold ptpPdelayReqTx
  repeat' first
    | with_reducible assumption
    | (dsimp only [Keeps.mk_eq]; with_reducible apply KeepsD.of)
    | (extract_lets +onlyGivenNames x; refine Keeps.cut (s := s₀) (t := x) ?_ (fun hx => ?_); (on_goal 1 => (unfold x; clear x)); (on_goal 2 => clear_value x))
    | (extract_lets +onlyGivenNames x; refine Keeps.cut2 (s := s₀) (x := x) ?_ (fun hx => ?_); (on_goal 1 => (unfold x; clear x)); (on_goal 2 => clear_value x))
    | (extract_lets +onlyGivenNames x; refine Keeps.cut2 (s := s₀) (x := x.2) ?_ (fun hx => ?_); (on_goal 1 => (unfold x; clear x)); (on_goal 2 => clear_value x))
    | (extract_lets +onlyGivenNames x; (have hv : x = x := by unfold x; exact Eq.refl _); clear hv; clear_value x)
    | with_reducible apply Keeps.ite
    | with_reducible apply State.ptpPace_keeps
    | with_reducible apply State.ptpSendAll_keeps
    | split

theorem State.ptpStarted_keeps {s₀ : State} {s : State} {p kind seq : Nat} {t : Time} (hk : Keeps s₀ s) :
    Keeps s₀ (State.ptpStarted s p kind seq t) := by
  unfold State.ptpStarted
  repeat' first
    | with_reducible assumption
    | (dsimp only [Keeps.mk_eq]; with_reducible apply KeepsD.of)
    | with_reducible apply Keeps.ite
    | with_reducible apply State.ptpSend_keeps
    | split
    | (intro _; intros; try beta_reduce)

theorem ppsInEdge_keeps {s₀ : State} {code : Nat} {s : State} (hk : Keeps s₀ s) :
    Keeps s₀ (ppsInEdge code s) := by
  unfold ppsInEdge
  dsimp only
  repeat' first
    | with_reducible assumption
    | (dsimp only [Keeps.mk_eq]; with_reducible apply KeepsD.of)
    | with_reducible apply Keeps.ite
    | with_reducible apply State.bump_keeps
    | with_reducible apply State.openDiv_keeps
    | with_reducible apply State.setF_keeps
    | with_reducible apply State.servo_keeps
    | with_reducible apply State.setI_keeps
    | with_reducible apply State.holdCount_keeps

theorem ppsInTimeout_keeps {s₀ : State} {s : State} (hk : Keeps s₀ s) :
    Keeps s₀ (ppsInTimeout s) := by
  unfold ppsInTimeout
  repeat' first
    | with_reducible assumption
    | (dsimp only [Keeps.mk_eq]; with_reducible apply KeepsD.of)
    | with_reducible apply State.advanceTo_keeps
    | with_reducible apply State.setF_keeps
    | with_reducible apply State.holdCount_keeps
    | split

theorem State.ppsPlace_keeps {s₀ : State} {s : State} {t : Time} (hk : Keeps s₀ s) :
    Keeps s₀ (State.ppsPlace s t).2 := by
  unfold State.ppsPlace
  repeat' first
    | with_reducible assumption
    | (extract_lets +onlyGivenNames x; refine Keeps.cut (s := s₀) (t := x) ?_ (fun hx => ?_); (on_goal 1 => (unfold x; clear x)); (on_goal 2 => clear_value x))
    | (extract_lets +onlyGivenNames x; refine Keeps.cut2 (s := s₀) (x := x) ?_ (fun hx => ?_); (on_goal 1 => (unfold x; clear x)); (on_goal 2 => clear_value x))
    | (extract_lets +onlyGivenNames x; refine Keeps.cut2 (s := s₀) (x := x.2) ?_ (fun hx => ?_); (on_goal 1 => (unfold x; clear x)); (on_goal 2 => clear_value x))
    | (extract_lets +onlyGivenNames x; (have hv : x = x := by unfold x; exact Eq.refl _); clear hv; clear_value x)
    | with_reducible apply Keeps.ite
    | with_reducible apply Keeps.ite2
    | with_reducible apply step_keeps
    | with_reducible apply State.openDiv_keeps
    | split

theorem secondBoundary_keeps {s₀ : State} {s : State} (hk : Keeps s₀ s) :
    Keeps s₀ (secondBoundary s) := by
  unfold secondBoundary
  repeat' first
    | with_reducible assumption
    | (dsimp only [Keeps.mk_eq]; with_reducible apply KeepsD.of)
    | (extract_lets +onlyGivenNames x; refine Keeps.cut (s := s₀) (t := x) ?_ (fun hx => ?_); (on_goal 1 => (unfold x; clear x)); (on_goal 2 => clear_value x))
    | (extract_lets +onlyGivenNames x; refine Keeps.cut2 (s := s₀) (x := x) ?_ (fun hx => ?_); (on_goal 1 => (unfold x; clear x)); (on_goal 2 => clear_value x))
    | (extract_lets +onlyGivenNames x; refine Keeps.cut2 (s := s₀) (x := x.2) ?_ (fun hx => ?_); (on_goal 1 => (unfold x; clear x)); (on_goal 2 => clear_value x))
    | (extract_lets +onlyGivenNames x; (have hv : x = x := by unfold x; exact Eq.refl _); clear hv; clear_value x)
    | with_reducible apply Keeps.ite
    | with_reducible apply State.advanceTo_keeps
    | with_reducible apply State.bump_keeps
    | with_reducible apply State.ppsPlace_keeps
    | split

theorem ppsOutFall_keeps {s₀ : State} {s : State} (hk : Keeps s₀ s) :
    Keeps s₀ (ppsOutFall s) := by
  unfold ppsOutFall
  repeat' first
    | with_reducible assumption
    | (dsimp only [Keeps.mk_eq]; with_reducible apply KeepsD.of)
    | (extract_lets +onlyGivenNames x; refine Keeps.cut (s := s₀) (t := x) ?_ (fun hx => ?_); (on_goal 1 => (unfold x; clear x)); (on_goal 2 => clear_value x))
    | (extract_lets +onlyGivenNames x; refine Keeps.cut2 (s := s₀) (x := x) ?_ (fun hx => ?_); (on_goal 1 => (unfold x; clear x)); (on_goal 2 => clear_value x))
    | (extract_lets +onlyGivenNames x; refine Keeps.cut2 (s := s₀) (x := x.2) ?_ (fun hx => ?_); (on_goal 1 => (unfold x; clear x)); (on_goal 2 => clear_value x))
    | (extract_lets +onlyGivenNames x; (have hv : x = x := by unfold x; exact Eq.refl _); clear hv; clear_value x)
    | with_reducible apply Keeps.ite
    | with_reducible apply State.advanceTo_keeps
    | split

theorem execTdcCalibrationStart_keeps {s₀ : State} {ch line : Nat} {s : State} (hk : Keeps s₀ s) :
    KeepsR s₀ (execTdcCalibrationStart ch line s) := by
  exact KeepsR.next (tdcCalibrationStart_keeps hk)

theorem execTdcCalibrationDone_keeps {s₀ : State} {ch line : Nat} {hits : List Nat} {s : State} (hk : Keeps s₀ s) :
    KeepsR s₀ (execTdcCalibrationDone ch line hits s) := by
  exact KeepsR.next (tdcCalibrationDone_keeps hk)

theorem execPtpAnnounceTx_keeps {s₀ : State} {s : State} (hk : Keeps s₀ s) :
    KeepsR s₀ (execPtpAnnounceTx s) := by
  exact KeepsR.next (ptpAnnounceTx_keeps hk)

theorem execPtpSyncTx_keeps {s₀ : State} {s : State} (hk : Keeps s₀ s) :
    KeepsR s₀ (execPtpSyncTx s) := by
  exact KeepsR.next (ptpSyncTx_keeps hk)

theorem execPtpPdelayReqTx_keeps {s₀ : State} {s : State} (hk : Keeps s₀ s) :
    KeepsR s₀ (execPtpPdelayReqTx s) := by
  exact KeepsR.next (ptpPdelayReqTx_keeps hk)

theorem execMasterLost_keeps {s₀ : State} {s : State} (hk : Keeps s₀ s) :
    KeepsR s₀ (execMasterLost s) := by
  exact KeepsR.next (masterLost_keeps hk)

theorem execFallbackMaster_keeps {s₀ : State} {s : State} (hk : Keeps s₀ s) :
    KeepsR s₀ (execFallbackMaster s) := by
  exact KeepsR.next (fallbackMaster_keeps hk)

theorem execHoldSpecExpiry_keeps {s₀ : State} {s : State} (hk : Keeps s₀ s) :
    KeepsR s₀ (execHoldSpecExpiry s) := by
  exact KeepsR.next (holdSpecExpiry_keeps hk)

theorem execPpsInEdge_keeps {s₀ : State} {code : Nat} {s : State} (hk : Keeps s₀ s) :
    KeepsR s₀ (execPpsInEdge code s) := by
  exact KeepsR.next (ppsInEdge_keeps hk)

theorem execPpsInTimeout_keeps {s₀ : State} {s : State} (hk : Keeps s₀ s) :
    KeepsR s₀ (execPpsInTimeout s) := by
  exact KeepsR.next (ppsInTimeout_keeps hk)

theorem execSecondBoundary_keeps {s₀ : State} {s : State} (hk : Keeps s₀ s) :
    KeepsR s₀ (execSecondBoundary s) := by
  exact KeepsR.next (secondBoundary_keeps hk)

theorem execPpsOutFall_keeps {s₀ : State} {s : State} (hk : Keeps s₀ s) :
    KeepsR s₀ (execPpsOutFall s) := by
  exact KeepsR.next (ppsOutFall_keeps hk)

/-! ### Guards -/

theorem State.setGcmEnt_keeps {s₀ : State} {s : State} {g : Nat} {ws : List Nat} (hk : Keeps s₀ s) :
    Keeps s₀ (State.setGcmEnt s g ws) := by
  unfold State.setGcmEnt
  repeat' first
    | with_reducible assumption
    | (dsimp only [Keeps.mk_eq]; with_reducible apply KeepsD.of)

theorem State.gcmFrom_keeps {s₀ : State} {s : State} {g : Nat} {ws : List Nat} (hk : Keeps s₀ s) :
    Keeps s₀ (State.gcmFrom s g ws) := by
  unfold State.gcmFrom
  repeat' first
    | with_reducible assumption
    | (dsimp only [Keeps.mk_eq]; with_reducible apply KeepsD.of)
    | (extract_lets +onlyGivenNames x; refine Keeps.cut (s := s₀) (t := x) ?_ (fun hx => ?_); (on_goal 1 => (unfold x; clear x)); (on_goal 2 => clear_value x))
    | (extract_lets +onlyGivenNames x; refine Keeps.cut2 (s := s₀) (x := x) ?_ (fun hx => ?_); (on_goal 1 => (unfold x; clear x)); (on_goal 2 => clear_value x))
    | (extract_lets +onlyGivenNames x; refine Keeps.cut2 (s := s₀) (x := x.2) ?_ (fun hx => ?_); (on_goal 1 => (unfold x; clear x)); (on_goal 2 => clear_value x))
    | (extract_lets +onlyGivenNames x; (have hv : x = x := by unfold x; exact Eq.refl _); clear hv; clear_value x)
    | with_reducible apply Keeps.ite
    | with_reducible apply State.setGcmEnt_keeps
    | split
    | (intro _; intros; try beta_reduce)

theorem State.gcmSlot_keeps {s₀ : State} {s : State} {l n : Nat} {rs : Tbl GRec} {conf : Bool} (hk : Keeps s₀ s) :
    Keeps s₀ (State.gcmSlot s l n rs conf) := by
  unfold State.gcmSlot
  repeat' first
    | with_reducible assumption
    | (dsimp only [Keeps.mk_eq]; with_reducible apply KeepsD.of)
    | (extract_lets +onlyGivenNames x; refine Keeps.cut (s := s₀) (t := x) ?_ (fun hx => ?_); (on_goal 1 => (unfold x; clear x)); (on_goal 2 => clear_value x))
    | (extract_lets +onlyGivenNames x; refine Keeps.cut2 (s := s₀) (x := x) ?_ (fun hx => ?_); (on_goal 1 => (unfold x; clear x)); (on_goal 2 => clear_value x))
    | (extract_lets +onlyGivenNames x; refine Keeps.cut2 (s := s₀) (x := x.2) ?_ (fun hx => ?_); (on_goal 1 => (unfold x; clear x)); (on_goal 2 => clear_value x))
    | (extract_lets +onlyGivenNames x; (have hv : x = x := by unfold x; exact Eq.refl _); clear hv; clear_value x)
    | with_reducible apply Keeps.ite
    | with_reducible apply State.smemWrAll_keeps
    | split
    | (intro _; intros; try beta_reduce)

theorem State.cpwPublish_keeps {s₀ : State} {s : State} {l : Nat} (hk : Keeps s₀ s) :
    Keeps s₀ (State.cpwPublish s l) := by
  unfold State.cpwPublish
  repeat' first
    | with_reducible assumption
    | (dsimp only [Keeps.mk_eq]; with_reducible apply KeepsD.of)
    | (extract_lets +onlyGivenNames x; refine Keeps.cut (s := s₀) (t := x) ?_ (fun hx => ?_); (on_goal 1 => (unfold x; clear x)); (on_goal 2 => clear_value x))
    | (extract_lets +onlyGivenNames x; refine Keeps.cut2 (s := s₀) (x := x) ?_ (fun hx => ?_); (on_goal 1 => (unfold x; clear x)); (on_goal 2 => clear_value x))
    | (extract_lets +onlyGivenNames x; refine Keeps.cut2 (s := s₀) (x := x.2) ?_ (fun hx => ?_); (on_goal 1 => (unfold x; clear x)); (on_goal 2 => clear_value x))
    | (extract_lets +onlyGivenNames x; (have hv : x = x := by unfold x; exact Eq.refl _); clear hv; clear_value x)
    | with_reducible apply Keeps.ite
    | with_reducible apply State.setF_keeps
    | with_reducible apply Keeps.foldl
    | with_reducible apply Keeps.foldl2
    | split
    | (intro _; intros; try beta_reduce)

theorem State.gcmConfirmed_keeps {s₀ : State} {s : State} {l n : Nat} {rs : Tbl GRec} (hk : Keeps s₀ s) :
    Keeps s₀ (State.gcmConfirmed s l n rs) := by
  unfold State.gcmConfirmed
  repeat' first
    | with_reducible assumption
    | (dsimp only [Keeps.mk_eq]; with_reducible apply KeepsD.of)
    | (extract_lets +onlyGivenNames x; refine Keeps.cut (s := s₀) (t := x) ?_ (fun hx => ?_); (on_goal 1 => (unfold x; clear x)); (on_goal 2 => clear_value x))
    | (extract_lets +onlyGivenNames x; refine Keeps.cut2 (s := s₀) (x := x) ?_ (fun hx => ?_); (on_goal 1 => (unfold x; clear x)); (on_goal 2 => clear_value x))
    | (extract_lets +onlyGivenNames x; refine Keeps.cut2 (s := s₀) (x := x.2) ?_ (fun hx => ?_); (on_goal 1 => (unfold x; clear x)); (on_goal 2 => clear_value x))
    | (extract_lets +onlyGivenNames x; (have hv : x = x := by unfold x; exact Eq.refl _); clear hv; clear_value x)
    | with_reducible apply State.gcmSlot_keeps
    | with_reducible apply State.cpwPublish_keeps
    | with_reducible apply State.bumpBy_keeps
    | with_reducible apply Keeps.foldl
    | with_reducible apply Keeps.foldl2
    | (intro _; intros; try beta_reduce)

theorem State.gcmRun_keeps {s₀ : State} {s : State} {l n : Nat} {o : PheOut} (hk : Keeps s₀ s) :
    Keeps s₀ (State.gcmRun s l n o) := by
  unfold State.gcmRun
  repeat' first
    | with_reducible assumption
    | (dsimp only [Keeps.mk_eq]; with_reducible apply KeepsD.of)
    | (extract_lets +onlyGivenNames x; refine Keeps.cut (s := s₀) (t := x) ?_ (fun hx => ?_); (on_goal 1 => (unfold x; clear x)); (on_goal 2 => clear_value x))
    | (extract_lets +onlyGivenNames x; refine Keeps.cut2 (s := s₀) (x := x) ?_ (fun hx => ?_); (on_goal 1 => (unfold x; clear x)); (on_goal 2 => clear_value x))
    | (extract_lets +onlyGivenNames x; refine Keeps.cut2 (s := s₀) (x := x.2) ?_ (fun hx => ?_); (on_goal 1 => (unfold x; clear x)); (on_goal 2 => clear_value x))
    | (extract_lets +onlyGivenNames x; (have hv : x = x := by unfold x; exact Eq.refl _); clear hv; clear_value x)
    | with_reducible apply Keeps.ite
    | with_reducible apply State.bump_keeps
    | with_reducible apply State.bumpBy_keeps
    | with_reducible apply State.gcmConfirmed_keeps
    | with_reducible apply State.gcmSlot_keeps
    | with_reducible apply Keeps.foldl
    | with_reducible apply Keeps.foldl2
    | split
    | (intro _; intros; try beta_reduce)

theorem State.gcmStart_keeps {s₀ : State} {s : State} {l n0 : Nat} (hk : Keeps s₀ s) :
    Keeps s₀ (State.gcmStart s l n0) := by
  unfold State.gcmStart
  repeat' first
    | with_reducible assumption
    | (dsimp only [Keeps.mk_eq]; with_reducible apply KeepsD.of)
    | (intro _; intros; try beta_reduce)

theorem State.gcmConfirm_keeps {s₀ : State} {s : State} {l n : Nat} (hk : Keeps s₀ s) :
    Keeps s₀ (State.gcmConfirm s l n) := by
  unfold State.gcmConfirm
  repeat' first
    | with_reducible assumption
    | (dsimp only [Keeps.mk_eq]; with_reducible apply KeepsD.of)
    | (extract_lets +onlyGivenNames x; refine Keeps.cut (s := s₀) (t := x) ?_ (fun hx => ?_); (on_goal 1 => (unfold x; clear x)); (on_goal 2 => clear_value x))
    | (extract_lets +onlyGivenNames x; refine Keeps.cut2 (s := s₀) (x := x) ?_ (fun hx => ?_); (on_goal 1 => (unfold x; clear x)); (on_goal 2 => clear_value x))
    | (extract_lets +onlyGivenNames x; refine Keeps.cut2 (s := s₀) (x := x.2) ?_ (fun hx => ?_); (on_goal 1 => (unfold x; clear x)); (on_goal 2 => clear_value x))
    | (extract_lets +onlyGivenNames x; (have hv : x = x := by unfold x; exact Eq.refl _); clear hv; clear_value x)
    | with_reducible apply State.gcmConfirmed_keeps
    | split
    | (intro _; intros; try beta_reduce)

theorem State.gcmRefute_keeps {s₀ : State} {s : State} {l n : Nat} (hk : Keeps s₀ s) :
    Keeps s₀ (State.gcmRefute s l n) := by
  unfold State.gcmRefute
  repeat' first
    | with_reducible assumption
    | (dsimp only [Keeps.mk_eq]; with_reducible apply KeepsD.of)
    | (extract_lets +onlyGivenNames x; refine Keeps.cut (s := s₀) (t := x) ?_ (fun hx => ?_); (on_goal 1 => (unfold x; clear x)); (on_goal 2 => clear_value x))
    | (extract_lets +onlyGivenNames x; refine Keeps.cut2 (s := s₀) (x := x) ?_ (fun hx => ?_); (on_goal 1 => (unfold x; clear x)); (on_goal 2 => clear_value x))
    | (extract_lets +onlyGivenNames x; refine Keeps.cut2 (s := s₀) (x := x.2) ?_ (fun hx => ?_); (on_goal 1 => (unfold x; clear x)); (on_goal 2 => clear_value x))
    | (extract_lets +onlyGivenNames x; (have hv : x = x := by unfold x; exact Eq.refl _); clear hv; clear_value x)
    | with_reducible apply Keeps.ite
    | with_reducible apply State.bump_keeps
    | with_reducible apply Keeps.foldl
    | with_reducible apply Keeps.foldl2
    | split
    | (intro _; intros; try beta_reduce)

theorem guardResultsReady_keeps {s₀ : State} {l n : Nat} {s : State} (hk : Keeps s₀ s) :
    Keeps s₀ (guardResultsReady l n s) := by
  unfold guardResultsReady
  repeat' first
    | with_reducible assumption
    | (dsimp only [Keeps.mk_eq]; with_reducible apply KeepsD.of)
    | split
    | (intro _; intros; try beta_reduce)

/-! ### Scarab -/

theorem State.setSlpEnt_keeps {s₀ : State} {s : State} {t i : Nat} {ws : List Nat} (hk : Keeps s₀ s) :
    Keeps s₀ (State.setSlpEnt s t i ws) := by
  unfold State.setSlpEnt
  repeat' first
    | with_reducible assumption
    | (dsimp only [Keeps.mk_eq]; with_reducible apply KeepsD.of)

theorem State.modCls_keeps {s₀ : State} {s : State} {c : Nat} {f : ClassSt → ClassSt} (hk : Keeps s₀ s) :
    Keeps s₀ (State.modCls s c f) := by
  unfold State.modCls
  repeat' first
    | with_reducible assumption
    | (dsimp only [Keeps.mk_eq]; with_reducible apply KeepsD.of)

theorem State.setPrm_keeps {s₀ : State} {s : State} {t ix n v : Nat} (hk : Keeps s₀ s) :
    Keeps s₀ (State.setPrm s t ix n v) := by
  unfold State.setPrm
  repeat' first
    | with_reducible assumption
    | (dsimp only [Keeps.mk_eq]; with_reducible apply KeepsD.of)
    | (extract_lets +onlyGivenNames x; refine Keeps.cut (s := s₀) (t := x) ?_ (fun hx => ?_); (on_goal 1 => (unfold x; clear x)); (on_goal 2 => clear_value x))
    | (extract_lets +onlyGivenNames x; refine Keeps.cut2 (s := s₀) (x := x) ?_ (fun hx => ?_); (on_goal 1 => (unfold x; clear x)); (on_goal 2 => clear_value x))
    | (extract_lets +onlyGivenNames x; refine Keeps.cut2 (s := s₀) (x := x.2) ?_ (fun hx => ?_); (on_goal 1 => (unfold x; clear x)); (on_goal 2 => clear_value x))
    | (extract_lets +onlyGivenNames x; (have hv : x = x := by unfold x; exact Eq.refl _); clear hv; clear_value x)
    | (intro _; intros; try beta_reduce)

theorem State.opPut_keeps {s₀ : State} {s : State} {c ix : Nat} {v : OpVal} (hk : Keeps s₀ s) :
    Keeps s₀ (State.opPut s c ix v) := by
  unfold State.opPut
  repeat' first
    | with_reducible assumption
    | (dsimp only [Keeps.mk_eq]; with_reducible apply KeepsD.of)
    | (extract_lets +onlyGivenNames x; refine Keeps.cut (s := s₀) (t := x) ?_ (fun hx => ?_); (on_goal 1 => (unfold x; clear x)); (on_goal 2 => clear_value x))
    | (extract_lets +onlyGivenNames x; refine Keeps.cut2 (s := s₀) (x := x) ?_ (fun hx => ?_); (on_goal 1 => (unfold x; clear x)); (on_goal 2 => clear_value x))
    | (extract_lets +onlyGivenNames x; refine Keeps.cut2 (s := s₀) (x := x.2) ?_ (fun hx => ?_); (on_goal 1 => (unfold x; clear x)); (on_goal 2 => clear_value x))
    | (extract_lets +onlyGivenNames x; (have hv : x = x := by unfold x; exact Eq.refl _); clear hv; clear_value x)
    | with_reducible apply Keeps.ite
    | with_reducible apply State.modCls_keeps
    | with_reducible apply State.written_keeps
    | split
    | (intro _; intros; try beta_reduce)

theorem State.spend_keeps {s₀ : State} {s : State} {k : Nat} (hk : Keeps s₀ s) :
    Keeps s₀ (State.spend s k) := by
  unfold State.spend
  repeat' first
    | with_reducible assumption
    | (dsimp only [Keeps.mk_eq]; with_reducible apply KeepsD.of)
    | with_reducible apply Keeps.ite
    | split
    | (intro _; intros; try beta_reduce)

theorem State.nextSlot_keeps {s₀ : State} {s : State} {c : Nat} {rest : List Nat} (hk : Keeps s₀ s) :
    Keeps s₀ (State.nextSlot s c rest) := by
  unfold State.nextSlot
  repeat' first
    | with_reducible assumption
    | (dsimp only [Keeps.mk_eq]; with_reducible apply KeepsD.of)
    | (extract_lets +onlyGivenNames x; refine Keeps.cut (s := s₀) (t := x) ?_ (fun hx => ?_); (on_goal 1 => (unfold x; clear x)); (on_goal 2 => clear_value x))
    | (extract_lets +onlyGivenNames x; refine Keeps.cut2 (s := s₀) (x := x) ?_ (fun hx => ?_); (on_goal 1 => (unfold x; clear x)); (on_goal 2 => clear_value x))
    | (extract_lets +onlyGivenNames x; refine Keeps.cut2 (s := s₀) (x := x.2) ?_ (fun hx => ?_); (on_goal 1 => (unfold x; clear x)); (on_goal 2 => clear_value x))
    | (extract_lets +onlyGivenNames x; (have hv : x = x := by unfold x; exact Eq.refl _); clear hv; clear_value x)
    | with_reducible apply Keeps.ite
    | with_reducible apply State.modCls_keeps
    | with_reducible apply State.spend_keeps
    | split
    | (intro _; intros; try beta_reduce)

theorem State.clearQ_keeps {s₀ : State} {s : State} {c : Nat} {w : List Nat} (hk : Keeps s₀ s) :
    Keeps s₀ (State.clearQ s c w) := by
  unfold State.clearQ
  repeat' first
    | with_reducible assumption
    | with_reducible apply State.opPut_keeps
    | with_reducible apply Keeps.foldl
    | with_reducible apply Keeps.foldl2
    | (intro _; intros; try beta_reduce)

theorem State.slotStop_keeps {s₀ : State} {s : State} {c k : Nat} {clear : Bool} (hk : Keeps s₀ s) :
    Keeps s₀ (State.slotStop s c k clear) := by
  unfold State.slotStop
  repeat' first
    | with_reducible assumption
    | (dsimp only [Keeps.mk_eq]; with_reducible apply KeepsD.of)
    | (extract_lets +onlyGivenNames x; refine Keeps.cut (s := s₀) (t := x) ?_ (fun hx => ?_); (on_goal 1 => (unfold x; clear x)); (on_goal 2 => clear_value x))
    | (extract_lets +onlyGivenNames x; refine Keeps.cut2 (s := s₀) (x := x) ?_ (fun hx => ?_); (on_goal 1 => (unfold x; clear x)); (on_goal 2 => clear_value x))
    | (extract_lets +onlyGivenNames x; refine Keeps.cut2 (s := s₀) (x := x.2) ?_ (fun hx => ?_); (on_goal 1 => (unfold x; clear x)); (on_goal 2 => clear_value x))
    | (extract_lets +onlyGivenNames x; (have hv : x = x := by unfold x; exact Eq.refl _); clear hv; clear_value x)
    | with_reducible apply Keeps.ite
    | with_reducible apply State.clearQ_keeps
    | with_reducible apply State.opPut_keeps
    | with_reducible apply Keeps.foldl
    | with_reducible apply Keeps.foldl2
    | split
    | (intro _; intros; try beta_reduce)

theorem State.applyMode_keeps {s₀ : State} {s : State} {c k : Nat} {r : ModeReq} (hk : Keeps s₀ s) :
    Keeps s₀ (State.applyMode s c k r) := by
  unfold State.applyMode
  repeat' first
    | with_reducible assumption
    | (dsimp only [Keeps.mk_eq]; with_reducible apply KeepsD.of)
    | (extract_lets +onlyGivenNames x; refine Keeps.cut (s := s₀) (t := x) ?_ (fun hx => ?_); (on_goal 1 => (unfold x; clear x)); (on_goal 2 => clear_value x))
    | (extract_lets +onlyGivenNames x; refine Keeps.cut2 (s := s₀) (x := x) ?_ (fun hx => ?_); (on_goal 1 => (unfold x; clear x)); (on_goal 2 => clear_value x))
    | (extract_lets +onlyGivenNames x; refine Keeps.cut2 (s := s₀) (x := x.2) ?_ (fun hx => ?_); (on_goal 1 => (unfold x; clear x)); (on_goal 2 => clear_value x))
    | (extract_lets +onlyGivenNames x; (have hv : x = x := by unfold x; exact Eq.refl _); clear hv; clear_value x)
    | with_reducible apply Keeps.ite
    | with_reducible apply State.slotStop_keeps
    | with_reducible apply State.opPut_keeps
    | with_reducible apply Keeps.foldl
    | with_reducible apply Keeps.foldl2
    | split
    | (intro _; intros; try beta_reduce)

theorem State.carryOver_keeps {s₀ : State} {s : State} {c k : Nat} {old new : List Nat} (hk : Keeps s₀ s) :
    Keeps s₀ (State.carryOver s c k old new) := by
  unfold State.carryOver
  repeat' first
    | with_reducible assumption
    | (extract_lets +onlyGivenNames x; refine Keeps.cut (s := s₀) (t := x) ?_ (fun hx => ?_); (on_goal 1 => (unfold x; clear x)); (on_goal 2 => clear_value x))
    | (extract_lets +onlyGivenNames x; refine Keeps.cut2 (s := s₀) (x := x) ?_ (fun hx => ?_); (on_goal 1 => (unfold x; clear x)); (on_goal 2 => clear_value x))
    | (extract_lets +onlyGivenNames x; refine Keeps.cut2 (s := s₀) (x := x.2) ?_ (fun hx => ?_); (on_goal 1 => (unfold x; clear x)); (on_goal 2 => clear_value x))
    | (extract_lets +onlyGivenNames x; (have hv : x = x := by unfold x; exact Eq.refl _); clear hv; clear_value x)
    | with_reducible apply Keeps.ite
    | with_reducible apply State.opPut_keeps
    | with_reducible apply Keeps.foldl
    | with_reducible apply Keeps.foldl2
    | split
    | (intro _; intros; try beta_reduce)

theorem State.swapPoint_keeps {s₀ : State} {s : State} {c k : Nat} (hk : Keeps s₀ s) :
    Keeps s₀ (State.swapPoint s c k) := by
  unfold State.swapPoint
  repeat' first
    | with_reducible assumption
    | (dsimp only [Keeps.mk_eq]; with_reducible apply KeepsD.of)
    | (extract_lets +onlyGivenNames x; refine Keeps.cut (s := s₀) (t := x) ?_ (fun hx => ?_); (on_goal 1 => (unfold x; clear x)); (on_goal 2 => clear_value x))
    | (extract_lets +onlyGivenNames x; refine Keeps.cut2 (s := s₀) (x := x) ?_ (fun hx => ?_); (on_goal 1 => (unfold x; clear x)); (on_goal 2 => clear_value x))
    | (extract_lets +onlyGivenNames x; refine Keeps.cut2 (s := s₀) (x := x.2) ?_ (fun hx => ?_); (on_goal 1 => (unfold x; clear x)); (on_goal 2 => clear_value x))
    | (extract_lets +onlyGivenNames x; (have hv : x = x := by unfold x; exact Eq.refl _); clear hv; clear_value x)
    | with_reducible apply Keeps.ite
    | with_reducible apply State.stage_keeps
    | with_reducible apply State.opPut_keeps
    | with_reducible apply State.bump_keeps
    | split

theorem State.slotEnter_keeps {s₀ : State} {s : State} {c k : Nat} (hk : Keeps s₀ s) :
    Keeps s₀ (State.slotEnter s c k) := by
  unfold State.slotEnter
  repeat' first
    | with_reducible assumption
    | (dsimp only [Keeps.mk_eq]; with_reducible apply KeepsD.of)
    | (extract_lets +onlyGivenNames x; refine Keeps.cut (s := s₀) (t := x) ?_ (fun hx => ?_); (on_goal 1 => (unfold x; clear x)); (on_goal 2 => clear_value x))
    | (extract_lets +onlyGivenNames x; refine Keeps.cut2 (s := s₀) (x := x) ?_ (fun hx => ?_); (on_goal 1 => (unfold x; clear x)); (on_goal 2 => clear_value x))
    | (extract_lets +onlyGivenNames x; refine Keeps.cut2 (s := s₀) (x := x.2) ?_ (fun hx => ?_); (on_goal 1 => (unfold x; clear x)); (on_goal 2 => clear_value x))
    | (extract_lets +onlyGivenNames x; (have hv : x = x := by unfold x; exact Eq.refl _); clear hv; clear_value x)
    | with_reducible apply Keeps.ite
    | with_reducible apply State.swapPoint_keeps
    | with_reducible apply State.applyMode_keeps
    | with_reducible apply State.carryOver_keeps
    | with_reducible apply State.opPut_keeps
    | with_reducible apply Keeps.foldl
    | with_reducible apply Keeps.foldl2
    | split
    | (intro _; intros; try beta_reduce)

theorem State.startCycle_keeps {s₀ : State} {s : State} {c n : Nat} {stamp : Time} {prov reexec : Bool} (hk : Keeps s₀ s) :
    Keeps s₀ (State.startCycle s c n stamp prov reexec) := by
  unfold State.startCycle
  repeat' first
    | with_reducible assumption
    | (dsimp only [Keeps.mk_eq]; with_reducible apply KeepsD.of)
    | (extract_lets +onlyGivenNames x; refine Keeps.cut (s := s₀) (t := x) ?_ (fun hx => ?_); (on_goal 1 => (unfold x; clear x)); (on_goal 2 => clear_value x))
    | (extract_lets +onlyGivenNames x; refine Keeps.cut2 (s := s₀) (x := x) ?_ (fun hx => ?_); (on_goal 1 => (unfold x; clear x)); (on_goal 2 => clear_value x))
    | (extract_lets +onlyGivenNames x; refine Keeps.cut2 (s := s₀) (x := x.2) ?_ (fun hx => ?_); (on_goal 1 => (unfold x; clear x)); (on_goal 2 => clear_value x))
    | (extract_lets +onlyGivenNames x; (have hv : x = x := by unfold x; exact Eq.refl _); clear hv; clear_value x)
    | with_reducible apply Keeps.ite
    | with_reducible apply State.modCls_keeps
    | with_reducible apply State.fBegin_keeps
    | with_reducible apply State.spend_keeps
    | with_reducible apply State.stage_keeps
    | with_reducible apply State.slotEnter_keeps
    | with_reducible apply State.nextSlot_keeps
    | with_reducible apply Keeps.foldl
    | with_reducible apply Keeps.foldl2
    | split
    | (intro _; intros; try beta_reduce)

theorem State.yieldCur_keeps {s₀ : State} {s : State} {c : Nat} (hk : Keeps s₀ s) :
    Keeps s₀ (State.yieldCur s c) := by
  unfold State.yieldCur
  repeat' first
    | with_reducible assumption
    | (dsimp only [Keeps.mk_eq]; with_reducible apply KeepsD.of)
    | with_reducible apply Keeps.ite
    | split

theorem State.slotFault_keeps {s₀ : State} {s : State} {c k addr : Nat} (hk : Keeps s₀ s) :
    Keeps s₀ (State.slotFault s c k addr) := by
  unfold State.slotFault
  repeat' first
    | with_reducible assumption
    | (dsimp only [Keeps.mk_eq]; with_reducible apply KeepsD.of)
    | (extract_lets +onlyGivenNames x; refine Keeps.cut (s := s₀) (t := x) ?_ (fun hx => ?_); (on_goal 1 => (unfold x; clear x)); (on_goal 2 => clear_value x))
    | (extract_lets +onlyGivenNames x; refine Keeps.cut2 (s := s₀) (x := x) ?_ (fun hx => ?_); (on_goal 1 => (unfold x; clear x)); (on_goal 2 => clear_value x))
    | (extract_lets +onlyGivenNames x; refine Keeps.cut2 (s := s₀) (x := x.2) ?_ (fun hx => ?_); (on_goal 1 => (unfold x; clear x)); (on_goal 2 => clear_value x))
    | (extract_lets +onlyGivenNames x; (have hv : x = x := by unfold x; exact Eq.refl _); clear hv; clear_value x)
    | with_reducible apply Keeps.ite
    | with_reducible apply State.clearQ_keeps
    | with_reducible apply State.bump_keeps
    | with_reducible apply State.event_keeps
    | with_reducible apply State.nextSlot_keeps
    | with_reducible apply State.opPut_keeps
    | split
    | (intro _; intros; try beta_reduce)

theorem State.freeJournal_keeps {s₀ : State} {s : State} (hk : Keeps s₀ s) :
    Keeps s₀ (State.freeJournal s) := by
  unfold State.freeJournal
  repeat' first
    | with_reducible assumption
    | (dsimp only [Keeps.mk_eq]; with_reducible apply KeepsD.of)
    | (extract_lets +onlyGivenNames x; refine Keeps.cut (s := s₀) (t := x) ?_ (fun hx => ?_); (on_goal 1 => (unfold x; clear x)); (on_goal 2 => clear_value x))
    | (extract_lets +onlyGivenNames x; refine Keeps.cut2 (s := s₀) (x := x) ?_ (fun hx => ?_); (on_goal 1 => (unfold x; clear x)); (on_goal 2 => clear_value x))
    | (extract_lets +onlyGivenNames x; refine Keeps.cut2 (s := s₀) (x := x.2) ?_ (fun hx => ?_); (on_goal 1 => (unfold x; clear x)); (on_goal 2 => clear_value x))
    | (extract_lets +onlyGivenNames x; (have hv : x = x := by unfold x; exact Eq.refl _); clear hv; clear_value x)
    | (intro _; intros; try beta_reduce)

theorem State.swapFinish_keeps {s₀ : State} {s : State} (hk : Keeps s₀ s) :
    Keeps s₀ (State.swapFinish s) := by
  unfold State.swapFinish
  repeat' first
    | with_reducible assumption
    | (dsimp only [Keeps.mk_eq]; with_reducible apply KeepsD.of)
    | (extract_lets +onlyGivenNames x; refine Keeps.cut (s := s₀) (t := x) ?_ (fun hx => ?_); (on_goal 1 => (unfold x; clear x)); (on_goal 2 => clear_value x))
    | (extract_lets +onlyGivenNames x; refine Keeps.cut2 (s := s₀) (x := x) ?_ (fun hx => ?_); (on_goal 1 => (unfold x; clear x)); (on_goal 2 => clear_value x))
    | (extract_lets +onlyGivenNames x; refine Keeps.cut2 (s := s₀) (x := x.2) ?_ (fun hx => ?_); (on_goal 1 => (unfold x; clear x)); (on_goal 2 => clear_value x))
    | (extract_lets +onlyGivenNames x; refine Keeps.cutF1 (s := s₀) (f := x) ?_ (fun kx => ?_); (on_goal 1 => (unfold x; clear x; intros; beta_reduce)); (on_goal 2 => clear_value x))
    | (extract_lets +onlyGivenNames x; refine Keeps.cutF2 (s := s₀) (f := x) ?_ (fun kx => ?_); (on_goal 1 => (unfold x; clear x; intros; beta_reduce)); (on_goal 2 => clear_value x))
    | (extract_lets +onlyGivenNames x; refine Keeps.cutG2 (s := s₀) (f := x) ?_ (fun kx => ?_); (on_goal 1 => (unfold x; clear x; intros; beta_reduce)); (on_goal 2 => clear_value x))
    | (extract_lets +onlyGivenNames x; refine Keeps.cutF3 (s := s₀) (f := x) ?_ (fun kx => ?_); (on_goal 1 => (unfold x; clear x; intros; beta_reduce)); (on_goal 2 => clear_value x))
    | (extract_lets +onlyGivenNames x; refine Keeps.cutF4 (s := s₀) (f := x) ?_ (fun kx => ?_); (on_goal 1 => (unfold x; clear x; intros; beta_reduce)); (on_goal 2 => clear_value x))
    | (extract_lets +onlyGivenNames x; (have hv : x = x := by unfold x; exact Eq.refl _); clear hv; clear_value x)
    | with_reducible apply Keeps.ite
    | with_reducible apply State.stage_keeps
    | with_reducible apply State.setSlpEnt_keeps
    | with_reducible apply Keeps.foldl
    | with_reducible apply Keeps.foldl2
    | apply kx
    | split
    | (intro _; intros; try beta_reduce)

theorem State.releaseQ_keeps {s₀ : State} {s : State} {o : OutSet} (hk : Keeps s₀ s) :
    Keeps s₀ (State.releaseQ s o) := by
  unfold State.releaseQ
  repeat' first
    | with_reducible assumption
    | (dsimp only [Keeps.mk_eq]; with_reducible apply KeepsD.of)
    | with_reducible apply Keeps.foldl
    | with_reducible apply Keeps.foldl2
    | (intro _; intros; try beta_reduce)

theorem State.slpRefute_keeps {s₀ : State} {s : State} {l n top : Nat} (hk : Keeps s₀ s) :
    Keeps s₀ (State.slpRefute s l n top).2 := by
  unfold State.slpRefute
  repeat' first
    | with_reducible assumption
    | (dsimp only [Keeps.mk_eq]; with_reducible apply KeepsD.of)
    | (extract_lets +onlyGivenNames x; refine Keeps.cut (s := s₀) (t := x) ?_ (fun hx => ?_); (on_goal 1 => (unfold x; clear x)); (on_goal 2 => clear_value x))
    | (extract_lets +onlyGivenNames x; refine Keeps.cut2 (s := s₀) (x := x) ?_ (fun hx => ?_); (on_goal 1 => (unfold x; clear x)); (on_goal 2 => clear_value x))
    | (extract_lets +onlyGivenNames x; refine Keeps.cut2 (s := s₀) (x := x.2) ?_ (fun hx => ?_); (on_goal 1 => (unfold x; clear x)); (on_goal 2 => clear_value x))
    | (extract_lets +onlyGivenNames x; refine Keeps.cutF1 (s := s₀) (f := x) ?_ (fun kx => ?_); (on_goal 1 => (unfold x; clear x; intros; beta_reduce)); (on_goal 2 => clear_value x))
    | (extract_lets +onlyGivenNames x; refine Keeps.cutF2 (s := s₀) (f := x) ?_ (fun kx => ?_); (on_goal 1 => (unfold x; clear x; intros; beta_reduce)); (on_goal 2 => clear_value x))
    | (extract_lets +onlyGivenNames x; refine Keeps.cutG2 (s := s₀) (f := x) ?_ (fun kx => ?_); (on_goal 1 => (unfold x; clear x; intros; beta_reduce)); (on_goal 2 => clear_value x))
    | (extract_lets +onlyGivenNames x; refine Keeps.cutF3 (s := s₀) (f := x) ?_ (fun kx => ?_); (on_goal 1 => (unfold x; clear x; intros; beta_reduce)); (on_goal 2 => clear_value x))
    | (extract_lets +onlyGivenNames x; refine Keeps.cutF4 (s := s₀) (f := x) ?_ (fun kx => ?_); (on_goal 1 => (unfold x; clear x; intros; beta_reduce)); (on_goal 2 => clear_value x))
    | (extract_lets +onlyGivenNames x; (have hv : x = x := by unfold x; exact Eq.refl _); clear hv; clear_value x)
    | with_reducible apply Keeps.ite
    | with_reducible apply Keeps.ite2
    | with_reducible apply State.modCls_keeps
    | with_reducible apply State.bump_keeps
    | with_reducible apply State.yieldCur_keeps
    | with_reducible apply State.bumpBy_keeps
    | apply kx
    | split
    | (intro _; intros; try beta_reduce)

/-! ### Logic -/

theorem State.scRun_keeps {s₀ : State} {s : State} {word : Nat} {act : (c k : Nat) → ClassSt → State → Result} (hk : Keeps s₀ s) (kact : ∀ c k y u, Keeps s₀ u → KeepsR s₀ (act c k y u)) :
    KeepsR s₀ (State.scRun s word act) := by
  unfold State.scRun
  repeat' first
    | with_reducible assumption
    | (dsimp only [Keeps.mk_eq]; with_reducible apply KeepsD.of)
    | (extract_lets +onlyGivenNames x; refine Keeps.cut (s := s₀) (t := x) ?_ (fun hx => ?_); (on_goal 1 => (unfold x; clear x)); (on_goal 2 => clear_value x))
    | (extract_lets +onlyGivenNames x; refine Keeps.cut2 (s := s₀) (x := x) ?_ (fun hx => ?_); (on_goal 1 => (unfold x; clear x)); (on_goal 2 => clear_value x))
    | (extract_lets +onlyGivenNames x; refine Keeps.cut2 (s := s₀) (x := x.2) ?_ (fun hx => ?_); (on_goal 1 => (unfold x; clear x)); (on_goal 2 => clear_value x))
    | (extract_lets +onlyGivenNames x; (have hv : x = x := by unfold x; exact Eq.refl _); clear hv; clear_value x)
    | with_reducible apply KeepsR.next
    | with_reducible apply KeepsR.ite
    | with_reducible apply Keeps.ite
    | with_reducible apply State.slotFault_keeps
    | split
    | apply kact
    | (intro _; intros; try beta_reduce)

theorem State.scNext_keeps {s₀ : State} {s : State} {c : Nat} {acc : Bool} {n : Nat} (hk : Keeps s₀ s) :
    Keeps s₀ (State.scNext s c acc n) := by
  unfold State.scNext
  repeat' first
    | with_reducible assumption
    | (dsimp only [Keeps.mk_eq]; with_reducible apply KeepsD.of)
    | with_reducible apply State.modCls_keeps
    | with_reducible apply State.spend_keeps
    | (intro _; intros; try beta_reduce)

theorem State.scGoto_keeps {s₀ : State} {s : State} {c : Nat} {pc n : Nat} (hk : Keeps s₀ s) :
    Keeps s₀ (State.scGoto s c pc n) := by
  unfold State.scGoto
  repeat' first
    | with_reducible assumption
    | (dsimp only [Keeps.mk_eq]; with_reducible apply KeepsD.of)
    | with_reducible apply State.modCls_keeps
    | with_reducible apply State.spend_keeps
    | (intro _; intros; try beta_reduce)

theorem State.scRead1_keeps {s₀ : State} {s : State} {op : Nat} {sp : RdSpace} {ix : Nat} {f : ClassSt → Bool → Bool} (hk : Keeps s₀ s) :
    KeepsR s₀ (State.scRead1 s op sp ix f) := by
  unfold State.scRead1
  repeat' first
    | with_reducible assumption
    | with_reducible apply KeepsR.next
    | with_reducible apply State.scRun_keeps
    | with_reducible apply State.scNext_keeps
    | (intro _; intros; try beta_reduce)

theorem State.scPush_keeps {s₀ : State} {s : State} {op : Nat} {sp : RdSpace} {ix : Nat} {o : StackOp} {f : Bool → Bool} (hk : Keeps s₀ s) :
    KeepsR s₀ (State.scPush s op sp ix o f) := by
  unfold State.scPush
  repeat' first
    | with_reducible assumption
    | (dsimp only [Keeps.mk_eq]; with_reducible apply KeepsD.of)
    | with_reducible exact KeepsR.fault
    | with_reducible apply KeepsR.next
    | with_reducible apply KeepsR.ite
    | with_reducible apply Keeps.ite
    | with_reducible apply State.scRun_keeps
    | with_reducible apply State.modCls_keeps
    | with_reducible apply State.scNext_keeps
    | split
    | (intro _; intros; try beta_reduce)

theorem State.scWrite_keeps {s₀ : State} {s : State} {c : Nat} {sp : WrSpace} {ix : Nat} {v : Bool} (hk : Keeps s₀ s) :
    Keeps s₀ (State.scWrite s c sp ix v) := by
  unfold State.scWrite
  repeat' first
    | with_reducible assumption
    | (dsimp only [Keeps.mk_eq]; with_reducible apply KeepsD.of)
    | with_reducible apply State.opPut_keeps
    | split

theorem State.scStore_keeps {s₀ : State} {s : State} {op : Nat} {sp : WrSpace} {ix : Nat} {f : Bool → Option Bool} (hk : Keeps s₀ s) :
    KeepsR s₀ (State.scStore s op sp ix f) := by
  unfold State.scStore
  repeat' first
    | with_reducible assumption
    | (dsimp only [Keeps.mk_eq]; with_reducible apply KeepsD.of)
    | with_reducible apply KeepsR.next
    | with_reducible apply State.scRun_keeps
    | with_reducible apply State.scWrite_keeps
    | with_reducible apply State.scNext_keeps
    | split
    | (intro _; intros; try beta_reduce)

theorem State.scTimer_keeps {s₀ : State} {s : State} {op ix : Nat} {f : Timer → Bool → Nat → Nat → Timer} (hk : Keeps s₀ s) :
    KeepsR s₀ (State.scTimer s op ix f) := by
  unfold State.scTimer
  repeat' first
    | with_reducible assumption
    | (dsimp only [Keeps.mk_eq]; with_reducible apply KeepsD.of)
    | (extract_lets +onlyGivenNames x; refine Keeps.cut (s := s₀) (t := x) ?_ (fun hx => ?_); (on_goal 1 => (unfold x; clear x)); (on_goal 2 => clear_value x))
    | (extract_lets +onlyGivenNames x; refine Keeps.cut2 (s := s₀) (x := x) ?_ (fun hx => ?_); (on_goal 1 => (unfold x; clear x)); (on_goal 2 => clear_value x))
    | (extract_lets +onlyGivenNames x; refine Keeps.cut2 (s := s₀) (x := x.2) ?_ (fun hx => ?_); (on_goal 1 => (unfold x; clear x)); (on_goal 2 => clear_value x))
    | (extract_lets +onlyGivenNames x; (have hv : x = x := by unfold x; exact Eq.refl _); clear hv; clear_value x)
    | with_reducible apply KeepsR.next
    | with_reducible apply State.scRun_keeps
    | with_reducible apply State.opPut_keeps
    | with_reducible apply State.scNext_keeps
    | (intro _; intros; try beta_reduce)

theorem State.scCount_keeps {s₀ : State} {s : State} {op ix : Nat} {down : Bool} (hk : Keeps s₀ s) :
    KeepsR s₀ (State.scCount s op ix down) := by
  unfold State.scCount
  repeat' first
    | with_reducible assumption
    | (extract_lets +onlyGivenNames x; refine Keeps.cut (s := s₀) (t := x) ?_ (fun hx => ?_); (on_goal 1 => (unfold x; clear x)); (on_goal 2 => clear_value x))
    | (extract_lets +onlyGivenNames x; refine Keeps.cut2 (s := s₀) (x := x) ?_ (fun hx => ?_); (on_goal 1 => (unfold x; clear x)); (on_goal 2 => clear_value x))
    | (extract_lets +onlyGivenNames x; refine Keeps.cut2 (s := s₀) (x := x.2) ?_ (fun hx => ?_); (on_goal 1 => (unfold x; clear x)); (on_goal 2 => clear_value x))
    | (extract_lets +onlyGivenNames x; (have hv : x = x := by unfold x; exact Eq.refl _); clear hv; clear_value x)
    | with_reducible apply KeepsR.next
    | with_reducible apply State.scRun_keeps
    | with_reducible apply State.opPut_keeps
    | with_reducible apply State.scNext_keeps
    | (intro _; intros; try beta_reduce)

theorem State.scEdge_keeps {s₀ : State} {s : State} {op ix : Nat} {f : Bool → Bool → Bool} (hk : Keeps s₀ s) :
    KeepsR s₀ (State.scEdge s op ix f) := by
  unfold State.scEdge
  repeat' first
    | with_reducible assumption
    | (extract_lets +onlyGivenNames x; refine Keeps.cut (s := s₀) (t := x) ?_ (fun hx => ?_); (on_goal 1 => (unfold x; clear x)); (on_goal 2 => clear_value x))
    | (extract_lets +onlyGivenNames x; refine Keeps.cut2 (s := s₀) (x := x) ?_ (fun hx => ?_); (on_goal 1 => (unfold x; clear x)); (on_goal 2 => clear_value x))
    | (extract_lets +onlyGivenNames x; refine Keeps.cut2 (s := s₀) (x := x.2) ?_ (fun hx => ?_); (on_goal 1 => (unfold x; clear x)); (on_goal 2 => clear_value x))
    | (extract_lets +onlyGivenNames x; (have hv : x = x := by unfold x; exact Eq.refl _); clear hv; clear_value x)
    | with_reducible apply KeepsR.next
    | with_reducible apply State.scRun_keeps
    | with_reducible apply State.opPut_keeps
    | with_reducible apply State.scNext_keeps
    | (intro _; intros; try beta_reduce)

theorem execScNop_keeps {s₀ : State} {s : State} (hk : Keeps s₀ s) :
    KeepsR s₀ (execScNop s) := by
  unfold execScNop
  repeat' first
    | with_reducible assumption
    | with_reducible apply KeepsR.next
    | with_reducible apply State.scRun_keeps
    | with_reducible apply State.scNext_keeps
    | (intro _; intros; try beta_reduce)

theorem execScLd_keeps {s₀ : State} {sp : RdSpace} {ix : Nat} {s : State} (hk : Keeps s₀ s) :
    KeepsR s₀ (execScLd sp ix s) := by
  unfold execScLd
  repeat' first
    | with_reducible assumption
    | with_reducible apply State.scRead1_keeps
    | (intro _; intros; try beta_reduce)

theorem execScLdn_keeps {s₀ : State} {sp : RdSpace} {ix : Nat} {s : State} (hk : Keeps s₀ s) :
    KeepsR s₀ (execScLdn sp ix s) := by
  unfold execScLdn
  repeat' first
    | with_reducible assumption
    | with_reducible apply State.scRead1_keeps
    | (intro _; intros; try beta_reduce)

theorem execScAnd_keeps {s₀ : State} {sp : RdSpace} {ix : Nat} {s : State} (hk : Keeps s₀ s) :
    KeepsR s₀ (execScAnd sp ix s) := by
  unfold execScAnd
  repeat' first
    | with_reducible assumption
    | with_reducible apply State.scRead1_keeps
    | (intro _; intros; try beta_reduce)

theorem execScAndn_keeps {s₀ : State} {sp : RdSpace} {ix : Nat} {s : State} (hk : Keeps s₀ s) :
    KeepsR s₀ (execScAndn sp ix s) := by
  unfold execScAndn
  repeat' first
    | with_reducible assumption
    | with_reducible apply State.scRead1_keeps
    | (intro _; intros; try beta_reduce)

theorem execScOr_keeps {s₀ : State} {sp : RdSpace} {ix : Nat} {s : State} (hk : Keeps s₀ s) :
    KeepsR s₀ (execScOr sp ix s) := by
  unfold execScOr
  repeat' first
    | with_reducible assumption
    | with_reducible apply State.scRead1_keeps
    | (intro _; intros; try beta_reduce)

theorem execScOrn_keeps {s₀ : State} {sp : RdSpace} {ix : Nat} {s : State} (hk : Keeps s₀ s) :
    KeepsR s₀ (execScOrn sp ix s) := by
  unfold execScOrn
  repeat' first
    | with_reducible assumption
    | with_reducible apply State.scRead1_keeps
    | (intro _; intros; try beta_reduce)

theorem execScXor_keeps {s₀ : State} {sp : RdSpace} {ix : Nat} {s : State} (hk : Keeps s₀ s) :
    KeepsR s₀ (execScXor sp ix s) := by
  unfold execScXor
  repeat' first
    | with_reducible assumption
    | with_reducible apply State.scRead1_keeps
    | (intro _; intros; try beta_reduce)

theorem execScXorn_keeps {s₀ : State} {sp : RdSpace} {ix : Nat} {s : State} (hk : Keeps s₀ s) :
    KeepsR s₀ (execScXorn sp ix s) := by
  unfold execScXorn
  repeat' first
    | with_reducible assumption
    | with_reducible apply State.scRead1_keeps
    | (intro _; intros; try beta_reduce)

theorem execScAndParen_keeps {s₀ : State} {sp : RdSpace} {ix : Nat} {s : State} (hk : Keeps s₀ s) :
    KeepsR s₀ (execScAndParen sp ix s) := by
  unfold execScAndParen
  repeat' first
    | with_reducible assumption
    | with_reducible apply State.scPush_keeps
    | (intro _; intros; try beta_reduce)

theorem execScAndnParen_keeps {s₀ : State} {sp : RdSpace} {ix : Nat} {s : State} (hk : Keeps s₀ s) :
    KeepsR s₀ (execScAndnParen sp ix s) := by
  unfold execScAndnParen
  repeat' first
    | with_reducible assumption
    | with_reducible apply State.scPush_keeps
    | (intro _; intros; try beta_reduce)

theorem execScOrParen_keeps {s₀ : State} {sp : RdSpace} {ix : Nat} {s : State} (hk : Keeps s₀ s) :
    KeepsR s₀ (execScOrParen sp ix s) := by
  unfold execScOrParen
  repeat' first
    | with_reducible assumption
    | with_reducible apply State.scPush_keeps
    | (intro _; intros; try beta_reduce)

theorem execScOrnParen_keeps {s₀ : State} {sp : RdSpace} {ix : Nat} {s : State} (hk : Keeps s₀ s) :
    KeepsR s₀ (execScOrnParen sp ix s) := by
  unfold execScOrnParen
  repeat' first
    | with_reducible assumption
    | with_reducible apply State.scPush_keeps
    | (intro _; intros; try beta_reduce)

theorem execScXorParen_keeps {s₀ : State} {sp : RdSpace} {ix : Nat} {s : State} (hk : Keeps s₀ s) :
    KeepsR s₀ (execScXorParen sp ix s) := by
  unfold execScXorParen
  repeat' first
    | with_reducible assumption
    | with_reducible apply State.scPush_keeps
    | (intro _; intros; try beta_reduce)

theorem execScCloseParen_keeps {s₀ : State} {s : State} (hk : Keeps s₀ s) :
    KeepsR s₀ (execScCloseParen s) := by
  unfold execScCloseParen
  repeat' first
    | with_reducible assumption
    | (dsimp only [Keeps.mk_eq]; with_reducible apply KeepsD.of)
    | with_reducible exact KeepsR.fault
    | with_reducible apply KeepsR.next
    | with_reducible apply State.scRun_keeps
    | with_reducible apply State.modCls_keeps
    | with_reducible apply State.scNext_keeps
    | split
    | (intro _; intros; try beta_reduce)

theorem execScNot_keeps {s₀ : State} {s : State} (hk : Keeps s₀ s) :
    KeepsR s₀ (execScNot s) := by
  unfold execScNot
  repeat' first
    | with_reducible assumption
    | with_reducible apply KeepsR.next
    | with_reducible apply State.scRun_keeps
    | with_reducible apply State.scNext_keeps
    | (intro _; intros; try beta_reduce)

theorem execScSt_keeps {s₀ : State} {sp : WrSpace} {ix : Nat} {s : State} (hk : Keeps s₀ s) :
    KeepsR s₀ (execScSt sp ix s) := by
  unfold execScSt
  repeat' first
    | with_reducible assumption
    | with_reducible apply State.scStore_keeps
    | (intro _; intros; try beta_reduce)

theorem execScStn_keeps {s₀ : State} {sp : WrSpace} {ix : Nat} {s : State} (hk : Keeps s₀ s) :
    KeepsR s₀ (execScStn sp ix s) := by
  unfold execScStn
  repeat' first
    | with_reducible assumption
    | with_reducible apply State.scStore_keeps
    | (intro _; intros; try beta_reduce)

theorem execScSet_keeps {s₀ : State} {sp : WrSpace} {ix : Nat} {s : State} (hk : Keeps s₀ s) :
    KeepsR s₀ (execScSet sp ix s) := by
  unfold execScSet
  repeat' first
    | with_reducible assumption
    | with_reducible apply KeepsR.ite
    | with_reducible apply Keeps.ite
    | with_reducible apply State.scStore_keeps
    | split
    | (intro _; intros; try beta_reduce)

theorem execScRst_keeps {s₀ : State} {sp : WrSpace} {ix : Nat} {s : State} (hk : Keeps s₀ s) :
    KeepsR s₀ (execScRst sp ix s) := by
  unfold execScRst
  repeat' first
    | with_reducible assumption
    | with_reducible apply KeepsR.ite
    | with_reducible apply Keeps.ite
    | with_reducible apply State.scStore_keeps
    | split
    | (intro _; intros; try beta_reduce)

theorem execScEdgr_keeps {s₀ : State} {ix : Nat} {s : State} (hk : Keeps s₀ s) :
    KeepsR s₀ (execScEdgr ix s) := by
  unfold execScEdgr
  repeat' first
    | with_reducible assumption
    | with_reducible apply State.scEdge_keeps
    | (intro _; intros; try beta_reduce)

theorem execScEdgf_keeps {s₀ : State} {ix : Nat} {s : State} (hk : Keeps s₀ s) :
    KeepsR s₀ (execScEdgf ix s) := by
  unfold execScEdgf
  repeat' first
    | with_reducible assumption
    | with_reducible apply State.scEdge_keeps
    | (intro _; intros; try beta_reduce)

theorem execScTon_keeps {s₀ : State} {ix : Nat} {s : State} (hk : Keeps s₀ s) :
    KeepsR s₀ (execScTon ix s) := by
  unfold execScTon
  repeat' first
    | with_reducible assumption
    | with_reducible apply State.scTimer_keeps

theorem execScTof_keeps {s₀ : State} {ix : Nat} {s : State} (hk : Keeps s₀ s) :
    KeepsR s₀ (execScTof ix s) := by
  unfold execScTof
  repeat' first
    | with_reducible assumption
    | with_reducible apply State.scTimer_keeps

theorem execScTp_keeps {s₀ : State} {ix : Nat} {s : State} (hk : Keeps s₀ s) :
    KeepsR s₀ (execScTp ix s) := by
  unfold execScTp
  repeat' first
    | with_reducible assumption
    | with_reducible apply State.scTimer_keeps

theorem execScTret_keeps {s₀ : State} {ix : Nat} {s : State} (hk : Keeps s₀ s) :
    KeepsR s₀ (execScTret ix s) := by
  unfold execScTret
  repeat' first
    | with_reducible assumption
    | with_reducible apply State.scTimer_keeps

theorem execScTrst_keeps {s₀ : State} {ix : Nat} {s : State} (hk : Keeps s₀ s) :
    KeepsR s₀ (execScTrst ix s) := by
  unfold execScTrst
  repeat' first
    | with_reducible assumption
    | (dsimp only [Keeps.mk_eq]; with_reducible apply KeepsD.of)
    | (extract_lets +onlyGivenNames x; refine Keeps.cut (s := s₀) (t := x) ?_ (fun hx => ?_); (on_goal 1 => (unfold x; clear x)); (on_goal 2 => clear_value x))
    | (extract_lets +onlyGivenNames x; refine Keeps.cut2 (s := s₀) (x := x) ?_ (fun hx => ?_); (on_goal 1 => (unfold x; clear x)); (on_goal 2 => clear_value x))
    | (extract_lets +onlyGivenNames x; refine Keeps.cut2 (s := s₀) (x := x.2) ?_ (fun hx => ?_); (on_goal 1 => (unfold x; clear x)); (on_goal 2 => clear_value x))
    | (extract_lets +onlyGivenNames x; (have hv : x = x := by unfold x; exact Eq.refl _); clear hv; clear_value x)
    | with_reducible apply KeepsR.next
    | with_reducible apply KeepsR.ite
    | with_reducible apply Keeps.ite
    | with_reducible apply State.scRun_keeps
    | with_reducible apply State.opPut_keeps
    | with_reducible apply State.scNext_keeps
    | split
    | (intro _; intros; try beta_reduce)

theorem execScCtu_keeps {s₀ : State} {ix : Nat} {s : State} (hk : Keeps s₀ s) :
    KeepsR s₀ (execScCtu ix s) := by
  unfold execScCtu
  repeat' first
    | with_reducible assumption
    | with_reducible apply State.scCount_keeps

theorem execScCtd_keeps {s₀ : State} {ix : Nat} {s : State} (hk : Keeps s₀ s) :
    KeepsR s₀ (execScCtd ix s) := by
  unfold execScCtd
  repeat' first
    | with_reducible assumption
    | with_reducible apply State.scCount_keeps

theorem execScCrst_keeps {s₀ : State} {ix : Nat} {s : State} (hk : Keeps s₀ s) :
    KeepsR s₀ (execScCrst ix s) := by
  unfold execScCrst
  repeat' first
    | with_reducible assumption
    | (dsimp only [Keeps.mk_eq]; with_reducible apply KeepsD.of)
    | (extract_lets +onlyGivenNames x; refine Keeps.cut (s := s₀) (t := x) ?_ (fun hx => ?_); (on_goal 1 => (unfold x; clear x)); (on_goal 2 => clear_value x))
    | (extract_lets +onlyGivenNames x; refine Keeps.cut2 (s := s₀) (x := x) ?_ (fun hx => ?_); (on_goal 1 => (unfold x; clear x)); (on_goal 2 => clear_value x))
    | (extract_lets +onlyGivenNames x; refine Keeps.cut2 (s := s₀) (x := x.2) ?_ (fun hx => ?_); (on_goal 1 => (unfold x; clear x)); (on_goal 2 => clear_value x))
    | (extract_lets +onlyGivenNames x; (have hv : x = x := by unfold x; exact Eq.refl _); clear hv; clear_value x)
    | with_reducible apply KeepsR.next
    | with_reducible apply KeepsR.ite
    | with_reducible apply Keeps.ite
    | with_reducible apply State.scRun_keeps
    | with_reducible apply State.opPut_keeps
    | with_reducible apply State.scNext_keeps
    | split
    | (intro _; intros; try beta_reduce)

theorem execScJmp_keeps {s₀ : State} {target : Nat} {s : State} (hk : Keeps s₀ s) :
    KeepsR s₀ (execScJmp target s) := by
  unfold execScJmp
  repeat' first
    | with_reducible assumption
    | with_reducible apply KeepsR.next
    | with_reducible apply State.scRun_keeps
    | with_reducible apply State.scGoto_keeps
    | (intro _; intros; try beta_reduce)

theorem execScJmpc_keeps {s₀ : State} {target : Nat} {s : State} (hk : Keeps s₀ s) :
    KeepsR s₀ (execScJmpc target s) := by
  unfold execScJmpc
  repeat' first
    | with_reducible assumption
    | with_reducible apply KeepsR.next
    | with_reducible apply KeepsR.ite
    | with_reducible apply Keeps.ite
    | with_reducible apply State.scRun_keeps
    | with_reducible apply State.scGoto_keeps
    | with_reducible apply State.scNext_keeps
    | split
    | (intro _; intros; try beta_reduce)

theorem execScJmpcn_keeps {s₀ : State} {target : Nat} {s : State} (hk : Keeps s₀ s) :
    KeepsR s₀ (execScJmpcn target s) := by
  unfold execScJmpcn
  repeat' first
    | with_reducible assumption
    | with_reducible apply KeepsR.next
    | with_reducible apply KeepsR.ite
    | with_reducible apply Keeps.ite
    | with_reducible apply State.scRun_keeps
    | with_reducible apply State.scNext_keeps
    | with_reducible apply State.scGoto_keeps
    | split
    | (intro _; intros; try beta_reduce)

theorem execScEnd_keeps {s₀ : State} {s : State} (hk : Keeps s₀ s) :
    KeepsR s₀ (execScEnd s) := by
  unfold execScEnd
  repeat' first
    | with_reducible assumption
    | with_reducible apply KeepsR.next
    | with_reducible apply State.scRun_keeps
    | with_reducible apply State.spend_keeps
    | with_reducible apply State.nextSlot_keeps
    | (intro _; intros; try beta_reduce)

theorem execScEndc_keeps {s₀ : State} {s : State} (hk : Keeps s₀ s) :
    KeepsR s₀ (execScEndc s) := by
  unfold execScEndc
  repeat' first
    | with_reducible assumption
    | with_reducible apply KeepsR.next
    | with_reducible apply KeepsR.ite
    | with_reducible apply Keeps.ite
    | with_reducible apply State.scRun_keeps
    | with_reducible apply State.spend_keeps
    | with_reducible apply State.scNext_keeps
    | with_reducible apply State.nextSlot_keeps
    | split
    | (intro _; intros; try beta_reduce)

/-! ### Publication -/

theorem State.modPub_keeps {s₀ : State} {s : State} {p : Nat} {f : PubSt → PubSt} (hk : Keeps s₀ s) :
    Keeps s₀ (State.modPub s p f) := by
  unfold State.modPub
  repeat' first
    | with_reducible assumption
    | (dsimp only [Keeps.mk_eq]; with_reducible apply KeepsD.of)

theorem State.pubBump_keeps {s₀ : State} {s : State} {n : Nat} (hk : Keeps s₀ s) :
    Keeps s₀ (State.pubBump s n) := by
  unfold State.pubBump
  repeat' first
    | with_reducible assumption
    | with_reducible apply State.bump_keeps

theorem State.pubSend_keeps {s₀ : State} {s : State} {p : Nat} {w : List Nat} {body : Body} {etype st sq : Nat} (hk : Keeps s₀ s) :
    Keeps s₀ (State.pubSend s p w body etype st sq) := by
  unfold State.pubSend
  repeat' first
    | with_reducible assumption
    | (dsimp only [Keeps.mk_eq]; with_reducible apply KeepsD.of)
    | (extract_lets +onlyGivenNames x; refine Keeps.cut (s := s₀) (t := x) ?_ (fun hx => ?_); (on_goal 1 => (unfold x; clear x)); (on_goal 2 => clear_value x))
    | (extract_lets +onlyGivenNames x; refine Keeps.cut2 (s := s₀) (x := x) ?_ (fun hx => ?_); (on_goal 1 => (unfold x; clear x)); (on_goal 2 => clear_value x))
    | (extract_lets +onlyGivenNames x; refine Keeps.cut2 (s := s₀) (x := x.2) ?_ (fun hx => ?_); (on_goal 1 => (unfold x; clear x)); (on_goal 2 => clear_value x))
    | (extract_lets +onlyGivenNames x; (have hv : x = x := by unfold x; exact Eq.refl _); clear hv; clear_value x)
    | with_reducible apply Keeps.ite
    | with_reducible apply State.pubBump_keeps
    | with_reducible apply State.modPub_keeps
    | split
    | (intro _; intros; try beta_reduce)

theorem State.pubFlush_keeps {s₀ : State} {s : State} (hk : Keeps s₀ s) :
    Keeps s₀ (State.pubFlush s) := by
  unfold State.pubFlush
  repeat' first
    | with_reducible assumption
    | (dsimp only [Keeps.mk_eq]; with_reducible apply KeepsD.of)
    | (extract_lets +onlyGivenNames x; refine Keeps.cut (s := s₀) (t := x) ?_ (fun hx => ?_); (on_goal 1 => (unfold x; clear x)); (on_goal 2 => clear_value x))
    | (extract_lets +onlyGivenNames x; refine Keeps.cut2 (s := s₀) (x := x) ?_ (fun hx => ?_); (on_goal 1 => (unfold x; clear x)); (on_goal 2 => clear_value x))
    | (extract_lets +onlyGivenNames x; refine Keeps.cut2 (s := s₀) (x := x.2) ?_ (fun hx => ?_); (on_goal 1 => (unfold x; clear x)); (on_goal 2 => clear_value x))
    | (extract_lets +onlyGivenNames x; (have hv : x = x := by unfold x; exact Eq.refl _); clear hv; clear_value x)
    | with_reducible apply State.txPorts_keeps
    | with_reducible apply Keeps.foldl
    | with_reducible apply Keeps.foldl2
    | (intro _; intros; try beta_reduce)

theorem State.gooseSend_keeps {s₀ : State} {s : State} {p : Nat} {w : List Nat} (hk : Keeps s₀ s) :
    Keeps s₀ (State.gooseSend s p w) := by
  unfold State.gooseSend
  repeat' first
    | with_reducible assumption
    | (dsimp only [Keeps.mk_eq]; with_reducible apply KeepsD.of)
    | (extract_lets +onlyGivenNames x; refine Keeps.cut (s := s₀) (t := x) ?_ (fun hx => ?_); (on_goal 1 => (unfold x; clear x)); (on_goal 2 => clear_value x))
    | (extract_lets +onlyGivenNames x; refine Keeps.cut2 (s := s₀) (x := x) ?_ (fun hx => ?_); (on_goal 1 => (unfold x; clear x)); (on_goal 2 => clear_value x))
    | (extract_lets +onlyGivenNames x; refine Keeps.cut2 (s := s₀) (x := x.2) ?_ (fun hx => ?_); (on_goal 1 => (unfold x; clear x)); (on_goal 2 => clear_value x))
    | (extract_lets +onlyGivenNames x; (have hv : x = x := by unfold x; exact Eq.refl _); clear hv; clear_value x)
    | with_reducible apply State.pubSend_keeps
    | with_reducible apply State.modPub_keeps
    | (intro _; intros; try beta_reduce)

theorem State.pubMuted_keeps {s₀ : State} {s : State} {w : List Nat} (hk : Keeps s₀ s) :
    Keeps s₀ (State.pubMuted s w) := by
  unfold State.pubMuted
  repeat' first
    | with_reducible assumption
    | (extract_lets +onlyGivenNames x; refine Keeps.cut (s := s₀) (t := x) ?_ (fun hx => ?_); (on_goal 1 => (unfold x; clear x)); (on_goal 2 => clear_value x))
    | (extract_lets +onlyGivenNames x; refine Keeps.cut2 (s := s₀) (x := x) ?_ (fun hx => ?_); (on_goal 1 => (unfold x; clear x)); (on_goal 2 => clear_value x))
    | (extract_lets +onlyGivenNames x; refine Keeps.cut2 (s := s₀) (x := x.2) ?_ (fun hx => ?_); (on_goal 1 => (unfold x; clear x)); (on_goal 2 => clear_value x))
    | (extract_lets +onlyGivenNames x; (have hv : x = x := by unfold x; exact Eq.refl _); clear hv; clear_value x)
    | with_reducible apply Keeps.ite
    | with_reducible apply State.pubBump_keeps
    | split

theorem State.pubPut_keeps {s₀ : State} {s : State} {p : Nat} {w : List Nat} {x : Nat × Nat × Nat} (hk : Keeps s₀ s) :
    Keeps s₀ (State.pubPut s p w x) := by
  unfold State.pubPut
  repeat' first
    | with_reducible assumption
    | (dsimp only [Keeps.mk_eq]; with_reducible apply KeepsD.of)
    | with_reducible apply State.modPub_keeps
    | with_reducible apply State.gooseSend_keeps
    | (intro _; intros; try beta_reduce)

theorem State.pubNumber_keeps {s₀ : State} {s : State} {p : Nat} {w : List Nat} (hk : Keeps s₀ s) :
    Keeps s₀ (State.pubNumber s p w) := by
  unfold State.pubNumber
  repeat' first
    | with_reducible assumption
    | (dsimp only [Keeps.mk_eq]; with_reducible apply KeepsD.of)
    | (extract_lets +onlyGivenNames x; refine Keeps.cut (s := s₀) (t := x) ?_ (fun hx => ?_); (on_goal 1 => (unfold x; clear x)); (on_goal 2 => clear_value x))
    | (extract_lets +onlyGivenNames x; refine Keeps.cut2 (s := s₀) (x := x) ?_ (fun hx => ?_); (on_goal 1 => (unfold x; clear x)); (on_goal 2 => clear_value x))
    | (extract_lets +onlyGivenNames x; refine Keeps.cut2 (s := s₀) (x := x.2) ?_ (fun hx => ?_); (on_goal 1 => (unfold x; clear x)); (on_goal 2 => clear_value x))
    | (extract_lets +onlyGivenNames x; (have hv : x = x := by unfold x; exact Eq.refl _); clear hv; clear_value x)
    | with_reducible apply Keeps.ite
    | with_reducible apply State.modPub_keeps
    | with_reducible apply State.pubPut_keeps
    | split
    | (intro _; intros; try beta_reduce)

theorem State.pubRelease_keeps {s₀ : State} {s : State} {p : Nat} {w : List Nat} {content : List Bool} {stamp : Time} (hk : Keeps s₀ s) :
    Keeps s₀ (State.pubRelease s p w content stamp).2 := by
  unfold State.pubRelease
  repeat' first
    | with_reducible assumption
    | (dsimp only [Keeps.mk_eq]; with_reducible apply KeepsD.of)
    | (extract_lets +onlyGivenNames x; refine Keeps.cut (s := s₀) (t := x) ?_ (fun hx => ?_); (on_goal 1 => (unfold x; clear x)); (on_goal 2 => clear_value x))
    | (extract_lets +onlyGivenNames x; refine Keeps.cut2 (s := s₀) (x := x) ?_ (fun hx => ?_); (on_goal 1 => (unfold x; clear x)); (on_goal 2 => clear_value x))
    | (extract_lets +onlyGivenNames x; refine Keeps.cut2 (s := s₀) (x := x.2) ?_ (fun hx => ?_); (on_goal 1 => (unfold x; clear x)); (on_goal 2 => clear_value x))
    | (extract_lets +onlyGivenNames x; (have hv : x = x := by unfold x; exact Eq.refl _); clear hv; clear_value x)
    | with_reducible apply Keeps.ite
    | with_reducible apply Keeps.ite2
    | with_reducible apply State.pubBump_keeps
    | with_reducible apply State.pubMuted_keeps
    | with_reducible apply State.pubNumber_keeps
    | with_reducible apply State.modPub_keeps
    | split
    | (intro _; intros; try beta_reduce)

theorem State.pubStage_keeps {s₀ : State} {s : State} {o : OutSet} (hk : Keeps s₀ s) :
    Keeps s₀ (State.pubStage s o) := by
  unfold State.pubStage
  repeat' first
    | with_reducible assumption
    | (dsimp only [Keeps.mk_eq]; with_reducible apply KeepsD.of)
    | (extract_lets +onlyGivenNames x; refine Keeps.cut (s := s₀) (t := x) ?_ (fun hx => ?_); (on_goal 1 => (unfold x; clear x)); (on_goal 2 => clear_value x))
    | (extract_lets +onlyGivenNames x; refine Keeps.cut2 (s := s₀) (x := x) ?_ (fun hx => ?_); (on_goal 1 => (unfold x; clear x)); (on_goal 2 => clear_value x))
    | (extract_lets +onlyGivenNames x; refine Keeps.cut2 (s := s₀) (x := x.2) ?_ (fun hx => ?_); (on_goal 1 => (unfold x; clear x)); (on_goal 2 => clear_value x))
    | (extract_lets +onlyGivenNames x; (have hv : x = x := by unfold x; exact Eq.refl _); clear hv; clear_value x)
    | with_reducible apply State.pubBump_keeps
    | with_reducible apply Keeps.foldl
    | with_reducible apply Keeps.foldl2
    | (intro _; intros; try beta_reduce)

theorem State.pubReleaseSet_keeps {s₀ : State} {s : State} {id : Nat} (hk : Keeps s₀ s) :
    Keeps s₀ (State.pubReleaseSet s id) := by
  unfold State.pubReleaseSet
  repeat' first
    | with_reducible assumption
    | (dsimp only [Keeps.mk_eq]; with_reducible apply KeepsD.of)
    | (extract_lets +onlyGivenNames x; refine Keeps.cut (s := s₀) (t := x) ?_ (fun hx => ?_); (on_goal 1 => (unfold x; clear x)); (on_goal 2 => clear_value x))
    | (extract_lets +onlyGivenNames x; refine Keeps.cut2 (s := s₀) (x := x) ?_ (fun hx => ?_); (on_goal 1 => (unfold x; clear x)); (on_goal 2 => clear_value x))
    | (extract_lets +onlyGivenNames x; refine Keeps.cut2 (s := s₀) (x := x.2) ?_ (fun hx => ?_); (on_goal 1 => (unfold x; clear x)); (on_goal 2 => clear_value x))
    | (extract_lets +onlyGivenNames x; (have hv : x = x := by unfold x; exact Eq.refl _); clear hv; clear_value x)
    | with_reducible apply State.pubRelease_keeps
    | with_reducible apply Keeps.foldl
    | with_reducible apply Keeps.foldl2
    | split
    | (intro _; intros; try beta_reduce)

theorem State.pubDiscardSets_keeps {s₀ : State} {s : State} {gone : List OutSet} (hk : Keeps s₀ s) :
    Keeps s₀ (State.pubDiscardSets s gone) := by
  unfold State.pubDiscardSets
  repeat' first
    | with_reducible assumption
    | (dsimp only [Keeps.mk_eq]; with_reducible apply KeepsD.of)
    | (extract_lets +onlyGivenNames x; refine Keeps.cut (s := s₀) (t := x) ?_ (fun hx => ?_); (on_goal 1 => (unfold x; clear x)); (on_goal 2 => clear_value x))
    | (extract_lets +onlyGivenNames x; refine Keeps.cut2 (s := s₀) (x := x) ?_ (fun hx => ?_); (on_goal 1 => (unfold x; clear x)); (on_goal 2 => clear_value x))
    | (extract_lets +onlyGivenNames x; refine Keeps.cut2 (s := s₀) (x := x.2) ?_ (fun hx => ?_); (on_goal 1 => (unfold x; clear x)); (on_goal 2 => clear_value x))
    | (extract_lets +onlyGivenNames x; refine Keeps.cutF1 (s := s₀) (f := x) ?_ (fun kx => ?_); (on_goal 1 => (unfold x; clear x; intros; beta_reduce)); (on_goal 2 => clear_value x))
    | (extract_lets +onlyGivenNames x; refine Keeps.cutF2 (s := s₀) (f := x) ?_ (fun kx => ?_); (on_goal 1 => (unfold x; clear x; intros; beta_reduce)); (on_goal 2 => clear_value x))
    | (extract_lets +onlyGivenNames x; refine Keeps.cutG2 (s := s₀) (f := x) ?_ (fun kx => ?_); (on_goal 1 => (unfold x; clear x; intros; beta_reduce)); (on_goal 2 => clear_value x))
    | (extract_lets +onlyGivenNames x; refine Keeps.cutF3 (s := s₀) (f := x) ?_ (fun kx => ?_); (on_goal 1 => (unfold x; clear x; intros; beta_reduce)); (on_goal 2 => clear_value x))
    | (extract_lets +onlyGivenNames x; refine Keeps.cutF4 (s := s₀) (f := x) ?_ (fun kx => ?_); (on_goal 1 => (unfold x; clear x; intros; beta_reduce)); (on_goal 2 => clear_value x))
    | (extract_lets +onlyGivenNames x; (have hv : x = x := by unfold x; exact Eq.refl _); clear hv; clear_value x)
    | with_reducible apply State.bumpBy_keeps
    | apply kx
    | (intro _; intros; try beta_reduce)

theorem State.releaseSet_keeps {s₀ : State} {s : State} {o : OutSet} {held : Bool} (hk : Keeps s₀ s) :
    Keeps s₀ (State.releaseSet s o held) := by
  unfold State.releaseSet
  repeat' first
    | with_reducible assumption
    | (dsimp only [Keeps.mk_eq]; with_reducible apply KeepsD.of)
    | (extract_lets +onlyGivenNames x; refine Keeps.cut (s := s₀) (t := x) ?_ (fun hx => ?_); (on_goal 1 => (unfold x; clear x)); (on_goal 2 => clear_value x))
    | (extract_lets +onlyGivenNames x; refine Keeps.cut2 (s := s₀) (x := x) ?_ (fun hx => ?_); (on_goal 1 => (unfold x; clear x)); (on_goal 2 => clear_value x))
    | (extract_lets +onlyGivenNames x; refine Keeps.cut2 (s := s₀) (x := x.2) ?_ (fun hx => ?_); (on_goal 1 => (unfold x; clear x)); (on_goal 2 => clear_value x))
    | (extract_lets +onlyGivenNames x; (have hv : x = x := by unfold x; exact Eq.refl _); clear hv; clear_value x)
    | with_reducible apply Keeps.ite
    | with_reducible apply State.releaseQ_keeps
    | with_reducible apply State.pubRelease_keeps
    | with_reducible apply State.pubReleaseSet_keeps
    | with_reducible apply Keeps.foldl
    | with_reducible apply Keeps.foldl2
    | split
    | (intro _; intros; try beta_reduce)

theorem State.releaseHeld_keeps {s₀ : State} {s : State} (hk : Keeps s₀ s) :
    Keeps s₀ (State.releaseHeld s) := by
  unfold State.releaseHeld
  repeat' first
    | with_reducible assumption
    | (dsimp only [Keeps.mk_eq]; with_reducible apply KeepsD.of)
    | (extract_lets +onlyGivenNames x; refine Keeps.cut (s := s₀) (t := x) ?_ (fun hx => ?_); (on_goal 1 => (unfold x; clear x)); (on_goal 2 => clear_value x))
    | (extract_lets +onlyGivenNames x; refine Keeps.cut2 (s := s₀) (x := x) ?_ (fun hx => ?_); (on_goal 1 => (unfold x; clear x)); (on_goal 2 => clear_value x))
    | (extract_lets +onlyGivenNames x; refine Keeps.cut2 (s := s₀) (x := x.2) ?_ (fun hx => ?_); (on_goal 1 => (unfold x; clear x)); (on_goal 2 => clear_value x))
    | (extract_lets +onlyGivenNames x; (have hv : x = x := by unfold x; exact Eq.refl _); clear hv; clear_value x)
    | with_reducible apply State.releaseSet_keeps
    | with_reducible apply Keeps.foldl
    | with_reducible apply Keeps.foldl2
    | (intro _; intros; try beta_reduce)

theorem State.pubForced_keeps {s₀ : State} {s0 s : State} (hk0 : Keeps s₀ s0) (hk1 : Keeps s₀ s) :
    Keeps s₀ (State.pubForced s0 s) := by
  unfold State.pubForced
  repeat' first
    | with_reducible assumption
    | (dsimp only [Keeps.mk_eq]; with_reducible apply KeepsD.of)
    | with_reducible apply Keeps.ite
    | with_reducible apply State.pubRelease_keeps
    | with_reducible apply Keeps.foldl
    | with_reducible apply Keeps.foldl2
    | split
    | (intro _; intros; try beta_reduce)

theorem gooseRetransmit_keeps {s₀ : State} {p : Nat} {s : State} (hk : Keeps s₀ s) :
    Keeps s₀ (gooseRetransmit p s) := by
  unfold gooseRetransmit
  repeat' first
    | with_reducible assumption
    | (dsimp only [Keeps.mk_eq]; with_reducible apply KeepsD.of)
    | (extract_lets +onlyGivenNames x; refine Keeps.cut (s := s₀) (t := x) ?_ (fun hx => ?_); (on_goal 1 => (unfold x; clear x)); (on_goal 2 => clear_value x))
    | (extract_lets +onlyGivenNames x; refine Keeps.cut2 (s := s₀) (x := x) ?_ (fun hx => ?_); (on_goal 1 => (unfold x; clear x)); (on_goal 2 => clear_value x))
    | (extract_lets +onlyGivenNames x; refine Keeps.cut2 (s := s₀) (x := x.2) ?_ (fun hx => ?_); (on_goal 1 => (unfold x; clear x)); (on_goal 2 => clear_value x))
    | (extract_lets +onlyGivenNames x; (have hv : x = x := by unfold x; exact Eq.refl _); clear hv; clear_value x)
    | with_reducible apply Keeps.ite
    | with_reducible apply State.modPub_keeps
    | with_reducible apply State.advanceTo_keeps
    | with_reducible apply State.gooseSend_keeps
    | with_reducible apply State.pubFlush_keeps
    | split
    | (intro _; intros; try beta_reduce)

theorem State.pubModeNow_keeps {s₀ : State} {s : State} {p : Nat} (hk : Keeps s₀ s) :
    Keeps s₀ (State.pubModeNow s p) := by
  unfold State.pubModeNow
  repeat' first
    | with_reducible assumption
    | (dsimp only [Keeps.mk_eq]; with_reducible apply KeepsD.of)
    | with_reducible apply Keeps.ite
    | with_reducible apply State.pubRelease_keeps
    | with_reducible apply State.modPub_keeps
    | with_reducible apply State.pubFlush_keeps
    | split
    | (intro _; intros; try beta_reduce)

theorem State.pubEnableSet_keeps {s₀ : State} {s : State} {p : Nat} {en : Bool} (hk : Keeps s₀ s) :
    Keeps s₀ (State.pubEnableSet s p en) := by
  unfold State.pubEnableSet
  repeat' first
    | with_reducible assumption
    | (dsimp only [Keeps.mk_eq]; with_reducible apply KeepsD.of)
    | (extract_lets +onlyGivenNames x; refine Keeps.cut (s := s₀) (t := x) ?_ (fun hx => ?_); (on_goal 1 => (unfold x; clear x)); (on_goal 2 => clear_value x))
    | (extract_lets +onlyGivenNames x; refine Keeps.cut2 (s := s₀) (x := x) ?_ (fun hx => ?_); (on_goal 1 => (unfold x; clear x)); (on_goal 2 => clear_value x))
    | (extract_lets +onlyGivenNames x; refine Keeps.cut2 (s := s₀) (x := x.2) ?_ (fun hx => ?_); (on_goal 1 => (unfold x; clear x)); (on_goal 2 => clear_value x))
    | (extract_lets +onlyGivenNames x; (have hv : x = x := by unfold x; exact Eq.refl _); clear hv; clear_value x)
    | with_reducible apply Keeps.ite
    | with_reducible apply State.setPubEnt_keeps
    | with_reducible apply State.modPub_keeps
    | split
    | (intro _; intros; try beta_reduce)

theorem State.keysFollow_keeps {s₀ : State} {s0 s : State} (hk0 : Keeps s₀ s0) (hk1 : Keeps s₀ s) :
    Keeps s₀ (State.keysFollow s0 s) := by
  unfold State.keysFollow
  repeat' first
    | with_reducible assumption
    | (dsimp only [Keeps.mk_eq]; with_reducible apply KeepsD.of)
    | (extract_lets +onlyGivenNames x; refine Keeps.cut (s := s₀) (t := x) ?_ (fun hx => ?_); (on_goal 1 => (unfold x; clear x)); (on_goal 2 => clear_value x))
    | (extract_lets +onlyGivenNames x; refine Keeps.cut2 (s := s₀) (x := x) ?_ (fun hx => ?_); (on_goal 1 => (unfold x; clear x)); (on_goal 2 => clear_value x))
    | (extract_lets +onlyGivenNames x; refine Keeps.cut2 (s := s₀) (x := x.2) ?_ (fun hx => ?_); (on_goal 1 => (unfold x; clear x)); (on_goal 2 => clear_value x))
    | (extract_lets +onlyGivenNames x; (have hv : x = x := by unfold x; exact Eq.refl _); clear hv; clear_value x)
    | with_reducible apply Keeps.ite
    | with_reducible apply State.modPub_keeps
    | with_reducible apply State.pubNumber_keeps
    | with_reducible apply State.pubFlush_keeps
    | with_reducible apply Keeps.foldl
    | with_reducible apply Keeps.foldl2
    | split
    | (intro _; intros; try beta_reduce)

theorem State.ringRelease_keeps {s₀ : State} {s : State} {h : PubHeld} (hk : Keeps s₀ s) :
    Keeps s₀ (State.ringRelease s h) := by
  unfold State.ringRelease
  repeat' first
    | with_reducible assumption
    | (dsimp only [Keeps.mk_eq]; with_reducible apply KeepsD.of)
    | (extract_lets +onlyGivenNames x; refine Keeps.cut (s := s₀) (t := x) ?_ (fun hx => ?_); (on_goal 1 => (unfold x; clear x)); (on_goal 2 => clear_value x))
    | (extract_lets +onlyGivenNames x; refine Keeps.cut2 (s := s₀) (x := x) ?_ (fun hx => ?_); (on_goal 1 => (unfold x; clear x)); (on_goal 2 => clear_value x))
    | (extract_lets +onlyGivenNames x; refine Keeps.cut2 (s := s₀) (x := x.2) ?_ (fun hx => ?_); (on_goal 1 => (unfold x; clear x)); (on_goal 2 => clear_value x))
    | (extract_lets +onlyGivenNames x; (have hv : x = x := by unfold x; exact Eq.refl _); clear hv; clear_value x)
    | with_reducible apply Keeps.ite
    | with_reducible apply State.txComplete_keeps
    | with_reducible apply State.pubRelease_keeps
    | split

theorem pubDescriptorFetch_keeps {s₀ : State} {r : Nat} {s : State} (hk : Keeps s₀ s) :
    Keeps s₀ (pubDescriptorFetch r s) := by
  unfold pubDescriptorFetch
  repeat' first
    | with_reducible assumption
    | (dsimp only [Keeps.mk_eq]; with_reducible apply KeepsD.of)
    | (extract_lets +onlyGivenNames x; refine Keeps.cut (s := s₀) (t := x) ?_ (fun hx => ?_); (on_goal 1 => (unfold x; clear x)); (on_goal 2 => clear_value x))
    | (extract_lets +onlyGivenNames x; refine Keeps.cut2 (s := s₀) (x := x) ?_ (fun hx => ?_); (on_goal 1 => (unfold x; clear x)); (on_goal 2 => clear_value x))
    | (extract_lets +onlyGivenNames x; refine Keeps.cut2 (s := s₀) (x := x.2) ?_ (fun hx => ?_); (on_goal 1 => (unfold x; clear x)); (on_goal 2 => clear_value x))
    | (extract_lets +onlyGivenNames x; (have hv : x = x := by unfold x; exact Eq.refl _); clear hv; clear_value x)
    | with_reducible apply Keeps.ite
    | with_reducible apply State.modSlice_keeps
    | with_reducible apply State.pubBump_keeps
    | with_reducible apply State.txComplete_keeps
    | with_reducible apply State.ringRelease_keeps
    | with_reducible apply State.frameWithdrawn_keeps
    | with_reducible apply State.pubFlush_keeps
    | with_reducible apply State.modRing_keeps
    | split
    | (intro _; intros; try beta_reduce)

theorem State.ringsConfirm_keeps {s₀ : State} {s : State} (hk : Keeps s₀ s) :
    Keeps s₀ (State.ringsConfirm s) := by
  unfold State.ringsConfirm
  repeat' first
    | with_reducible assumption
    | (dsimp only [Keeps.mk_eq]; with_reducible apply KeepsD.of)
    | (extract_lets +onlyGivenNames x; refine Keeps.cut (s := s₀) (t := x) ?_ (fun hx => ?_); (on_goal 1 => (unfold x; clear x)); (on_goal 2 => clear_value x))
    | (extract_lets +onlyGivenNames x; refine Keeps.cut2 (s := s₀) (x := x) ?_ (fun hx => ?_); (on_goal 1 => (unfold x; clear x)); (on_goal 2 => clear_value x))
    | (extract_lets +onlyGivenNames x; refine Keeps.cut2 (s := s₀) (x := x.2) ?_ (fun hx => ?_); (on_goal 1 => (unfold x; clear x)); (on_goal 2 => clear_value x))
    | (extract_lets +onlyGivenNames x; (have hv : x = x := by unfold x; exact Eq.refl _); clear hv; clear_value x)
    | with_reducible apply State.ringRelease_keeps
    | with_reducible apply Keeps.foldl
    | with_reducible apply Keeps.foldl2
    | (intro _; intros; try beta_reduce)

theorem State.ringsRefute_keeps {s₀ : State} {s : State} {l n : Nat} (hk : Keeps s₀ s) :
    Keeps s₀ (State.ringsRefute s l n) := by
  unfold State.ringsRefute
  repeat' first
    | with_reducible assumption
    | (dsimp only [Keeps.mk_eq]; with_reducible apply KeepsD.of)
    | (extract_lets +onlyGivenNames x; refine Keeps.cut (s := s₀) (t := x) ?_ (fun hx => ?_); (on_goal 1 => (unfold x; clear x)); (on_goal 2 => clear_value x))
    | (extract_lets +onlyGivenNames x; refine Keeps.cut2 (s := s₀) (x := x) ?_ (fun hx => ?_); (on_goal 1 => (unfold x; clear x)); (on_goal 2 => clear_value x))
    | (extract_lets +onlyGivenNames x; refine Keeps.cut2 (s := s₀) (x := x.2) ?_ (fun hx => ?_); (on_goal 1 => (unfold x; clear x)); (on_goal 2 => clear_value x))
    | (extract_lets +onlyGivenNames x; refine Keeps.cutF1 (s := s₀) (f := x) ?_ (fun kx => ?_); (on_goal 1 => (unfold x; clear x; intros; beta_reduce)); (on_goal 2 => clear_value x))
    | (extract_lets +onlyGivenNames x; refine Keeps.cutF2 (s := s₀) (f := x) ?_ (fun kx => ?_); (on_goal 1 => (unfold x; clear x; intros; beta_reduce)); (on_goal 2 => clear_value x))
    | (extract_lets +onlyGivenNames x; refine Keeps.cutG2 (s := s₀) (f := x) ?_ (fun kx => ?_); (on_goal 1 => (unfold x; clear x; intros; beta_reduce)); (on_goal 2 => clear_value x))
    | (extract_lets +onlyGivenNames x; refine Keeps.cutF3 (s := s₀) (f := x) ?_ (fun kx => ?_); (on_goal 1 => (unfold x; clear x; intros; beta_reduce)); (on_goal 2 => clear_value x))
    | (extract_lets +onlyGivenNames x; refine Keeps.cutF4 (s := s₀) (f := x) ?_ (fun kx => ?_); (on_goal 1 => (unfold x; clear x; intros; beta_reduce)); (on_goal 2 => clear_value x))
    | (extract_lets +onlyGivenNames x; (have hv : x = x := by unfold x; exact Eq.refl _); clear hv; clear_value x)
    | with_reducible apply State.pubBump_keeps
    | with_reducible apply State.frameWithdrawn_keeps
    | with_reducible apply State.txComplete_keeps
    | with_reducible apply Keeps.foldl
    | with_reducible apply Keeps.foldl2
    | apply kx
    | (intro _; intros; try beta_reduce)

theorem State.svConfirm_keeps {s₀ : State} {s : State} {l n : Nat} (hk : Keeps s₀ s) :
    Keeps s₀ (State.svConfirm s l n) := by
  unfold State.svConfirm
  repeat' first
    | with_reducible assumption
    | (dsimp only [Keeps.mk_eq]; with_reducible apply KeepsD.of)
    | (extract_lets +onlyGivenNames x; refine Keeps.cut (s := s₀) (t := x) ?_ (fun hx => ?_); (on_goal 1 => (unfold x; clear x)); (on_goal 2 => clear_value x))
    | (extract_lets +onlyGivenNames x; refine Keeps.cut2 (s := s₀) (x := x) ?_ (fun hx => ?_); (on_goal 1 => (unfold x; clear x)); (on_goal 2 => clear_value x))
    | (extract_lets +onlyGivenNames x; refine Keeps.cut2 (s := s₀) (x := x.2) ?_ (fun hx => ?_); (on_goal 1 => (unfold x; clear x)); (on_goal 2 => clear_value x))
    | (extract_lets +onlyGivenNames x; (have hv : x = x := by unfold x; exact Eq.refl _); clear hv; clear_value x)
    | with_reducible apply Keeps.ite
    | with_reducible apply State.modPub_keeps
    | with_reducible apply State.pubMuted_keeps
    | with_reducible apply Keeps.foldl
    | with_reducible apply Keeps.foldl2
    | split
    | (intro _; intros; try beta_reduce)

theorem State.svSend_keeps {s₀ : State} {s : State} {h : SvHeld} (hk : Keeps s₀ s) :
    Keeps s₀ (State.svSend s h) := by
  unfold State.svSend
  repeat' first
    | with_reducible assumption
    | (dsimp only [Keeps.mk_eq]; with_reducible apply KeepsD.of)
    | with_reducible apply Keeps.ite
    | with_reducible apply State.pubSend_keeps
    | split

theorem State.svRelease_keeps {s₀ : State} {s : State} (hk : Keeps s₀ s) :
    Keeps s₀ (State.svRelease s) := by
  unfold State.svRelease
  repeat' first
    | with_reducible assumption
    | (dsimp only [Keeps.mk_eq]; with_reducible apply KeepsD.of)
    | (extract_lets +onlyGivenNames x; refine Keeps.cut (s := s₀) (t := x) ?_ (fun hx => ?_); (on_goal 1 => (unfold x; clear x)); (on_goal 2 => clear_value x))
    | (extract_lets +onlyGivenNames x; refine Keeps.cut2 (s := s₀) (x := x) ?_ (fun hx => ?_); (on_goal 1 => (unfold x; clear x)); (on_goal 2 => clear_value x))
    | (extract_lets +onlyGivenNames x; refine Keeps.cut2 (s := s₀) (x := x.2) ?_ (fun hx => ?_); (on_goal 1 => (unfold x; clear x)); (on_goal 2 => clear_value x))
    | (extract_lets +onlyGivenNames x; refine Keeps.cutF1 (s := s₀) (f := x) ?_ (fun kx => ?_); (on_goal 1 => (unfold x; clear x; intros; beta_reduce)); (on_goal 2 => clear_value x))
    | (extract_lets +onlyGivenNames x; refine Keeps.cutF2 (s := s₀) (f := x) ?_ (fun kx => ?_); (on_goal 1 => (unfold x; clear x; intros; beta_reduce)); (on_goal 2 => clear_value x))
    | (extract_lets +onlyGivenNames x; refine Keeps.cutG2 (s := s₀) (f := x) ?_ (fun kx => ?_); (on_goal 1 => (unfold x; clear x; intros; beta_reduce)); (on_goal 2 => clear_value x))
    | (extract_lets +onlyGivenNames x; refine Keeps.cutF3 (s := s₀) (f := x) ?_ (fun kx => ?_); (on_goal 1 => (unfold x; clear x; intros; beta_reduce)); (on_goal 2 => clear_value x))
    | (extract_lets +onlyGivenNames x; refine Keeps.cutF4 (s := s₀) (f := x) ?_ (fun kx => ?_); (on_goal 1 => (unfold x; clear x; intros; beta_reduce)); (on_goal 2 => clear_value x))
    | (extract_lets +onlyGivenNames x; (have hv : x = x := by unfold x; exact Eq.refl _); clear hv; clear_value x)
    | with_reducible apply State.svSend_keeps
    | with_reducible apply Keeps.foldl
    | with_reducible apply Keeps.foldl2
    | apply kx
    | (intro _; intros; try beta_reduce)

theorem State.pubSilence_keeps {s₀ : State} {s : State} (hk : Keeps s₀ s) :
    Keeps s₀ (State.pubSilence s) := by
  unfold State.pubSilence
  repeat' first
    | with_reducible assumption
    | (dsimp only [Keeps.mk_eq]; with_reducible apply KeepsD.of)
    | (extract_lets +onlyGivenNames x; refine Keeps.cut (s := s₀) (t := x) ?_ (fun hx => ?_); (on_goal 1 => (unfold x; clear x)); (on_goal 2 => clear_value x))
    | (extract_lets +onlyGivenNames x; refine Keeps.cut2 (s := s₀) (x := x) ?_ (fun hx => ?_); (on_goal 1 => (unfold x; clear x)); (on_goal 2 => clear_value x))
    | (extract_lets +onlyGivenNames x; refine Keeps.cut2 (s := s₀) (x := x.2) ?_ (fun hx => ?_); (on_goal 1 => (unfold x; clear x)); (on_goal 2 => clear_value x))
    | (extract_lets +onlyGivenNames x; (have hv : x = x := by unfold x; exact Eq.refl _); clear hv; clear_value x)
    | with_reducible apply State.modMac_keeps
    | with_reducible apply Keeps.forN
    | split
    | (intro _; intros; try beta_reduce)

theorem State.pubTakeover_keeps {s₀ : State} {s : State} (hk : Keeps s₀ s) :
    Keeps s₀ (State.pubTakeover s) := by
  unfold State.pubTakeover
  repeat' first
    | with_reducible assumption
    | (dsimp only [Keeps.mk_eq]; with_reducible apply KeepsD.of)
    | (extract_lets +onlyGivenNames x; refine Keeps.cut (s := s₀) (t := x) ?_ (fun hx => ?_); (on_goal 1 => (unfold x; clear x)); (on_goal 2 => clear_value x))
    | (extract_lets +onlyGivenNames x; refine Keeps.cut2 (s := s₀) (x := x) ?_ (fun hx => ?_); (on_goal 1 => (unfold x; clear x)); (on_goal 2 => clear_value x))
    | (extract_lets +onlyGivenNames x; refine Keeps.cut2 (s := s₀) (x := x.2) ?_ (fun hx => ?_); (on_goal 1 => (unfold x; clear x)); (on_goal 2 => clear_value x))
    | (extract_lets +onlyGivenNames x; (have hv : x = x := by unfold x; exact Eq.refl _); clear hv; clear_value x)
    | with_reducible apply Keeps.ite
    | with_reducible apply State.modPub_keeps
    | with_reducible apply State.pubFlush_keeps
    | with_reducible apply State.pubPut_keeps
    | with_reducible apply Keeps.foldl
    | with_reducible apply Keeps.foldl2
    | split
    | (intro _; intros; try beta_reduce)

theorem execGooseRetransmit_keeps {s₀ : State} {pub : Nat} {s : State} (hk : Keeps s₀ s) :
    KeepsR s₀ (execGooseRetransmit pub s) := by
  exact KeepsR.next (gooseRetransmit_keeps hk)

theorem execPubDescriptorFetch_keeps {s₀ : State} {ring : Nat} {s : State} (hk : Keeps s₀ s) :
    KeepsR s₀ (execPubDescriptorFetch ring s) := by
  exact KeepsR.next (pubDescriptorFetch_keeps hk)

/-! ### Recorder -/

theorem State.setDreEnt_keeps {s₀ : State} {s : State} {t i : Nat} {ws : List Nat} (hk : Keeps s₀ s) :
    Keeps s₀ (State.setDreEnt s t i ws) := by
  unfold State.setDreEnt
  repeat' first
    | with_reducible assumption
    | (dsimp only [Keeps.mk_eq]; with_reducible apply KeepsD.of)

theorem State.modRec_keeps {s₀ : State} {s : State} {i : Nat} {f : RecInst → RecInst} (hk : Keeps s₀ s) :
    Keeps s₀ (State.modRec s i f) := by
  unfold State.modRec
  repeat' first
    | with_reducible assumption
    | (dsimp only [Keeps.mk_eq]; with_reducible apply KeepsD.of)

theorem State.dreBump_keeps {s₀ : State} {s : State} {n : Nat} (hk : Keeps s₀ s) :
    Keeps s₀ (State.dreBump s n) := by
  unfold State.dreBump
  repeat' first
    | with_reducible assumption
    | with_reducible apply State.bump_keeps

theorem State.mramWr_keeps {s₀ : State} {s : State} {a v : Nat} (hk : Keeps s₀ s) :
    Keeps s₀ (State.mramWr s a v) := by
  unfold State.mramWr
  repeat' first
    | with_reducible assumption
    | (dsimp only [Keeps.mk_eq]; with_reducible apply KeepsD.of)
    | with_reducible apply State.wr64_keeps
    | (intro _; intros; try beta_reduce)

theorem State.mramWrAll_keeps {s₀ : State} {s : State} {a : Nat} {ws : List Nat} (hk : Keeps s₀ s) :
    Keeps s₀ (State.mramWrAll s a ws) := by
  unfold State.mramWrAll
  repeat' first
    | with_reducible assumption
    | with_reducible apply State.mramWr_keeps
    | with_reducible apply Keeps.foldl
    | with_reducible apply Keeps.foldl2
    | (intro _; intros; try beta_reduce)

theorem State.dirTo_keeps {s₀ : State} {s : State} {w : List Nat} {k st : Nat} (hk : Keeps s₀ s) :
    Keeps s₀ (State.dirTo s w k st) := by
  unfold State.dirTo
  repeat' first
    | with_reducible assumption
    | (extract_lets +onlyGivenNames x; refine Keeps.cut (s := s₀) (t := x) ?_ (fun hx => ?_); (on_goal 1 => (unfold x; clear x)); (on_goal 2 => clear_value x))
    | (extract_lets +onlyGivenNames x; refine Keeps.cut2 (s := s₀) (x := x) ?_ (fun hx => ?_); (on_goal 1 => (unfold x; clear x)); (on_goal 2 => clear_value x))
    | (extract_lets +onlyGivenNames x; refine Keeps.cut2 (s := s₀) (x := x.2) ?_ (fun hx => ?_); (on_goal 1 => (unfold x; clear x)); (on_goal 2 => clear_value x))
    | (extract_lets +onlyGivenNames x; (have hv : x = x := by unfold x; exact Eq.refl _); clear hv; clear_value x)
    | with_reducible apply State.mramWr_keeps

theorem State.dirWrite_keeps {s₀ : State} {s : State} {i : Nat} {w : List Nat} {dst : Nat} {trunc abort : Bool} (hk : Keeps s₀ s) :
    Keeps s₀ (State.dirWrite s i w dst trunc abort) := by
  unfold State.dirWrite
  repeat' first
    | with_reducible assumption
    | (dsimp only [Keeps.mk_eq]; with_reducible apply KeepsD.of)
    | (extract_lets +onlyGivenNames x; refine Keeps.cut (s := s₀) (t := x) ?_ (fun hx => ?_); (on_goal 1 => (unfold x; clear x)); (on_goal 2 => clear_value x))
    | (extract_lets +onlyGivenNames x; refine Keeps.cut2 (s := s₀) (x := x) ?_ (fun hx => ?_); (on_goal 1 => (unfold x; clear x)); (on_goal 2 => clear_value x))
    | (extract_lets +onlyGivenNames x; refine Keeps.cut2 (s := s₀) (x := x.2) ?_ (fun hx => ?_); (on_goal 1 => (unfold x; clear x)); (on_goal 2 => clear_value x))
    | (extract_lets +onlyGivenNames x; (have hv : x = x := by unfold x; exact Eq.refl _); clear hv; clear_value x)
    | with_reducible apply Keeps.ite
    | with_reducible apply State.mramWrAll_keeps
    | split
    | (intro _; intros; try beta_reduce)

theorem State.recEvent_keeps {s₀ : State} {s : State} {i : Nat} {w : List Nat} {code param param2 : Nat} (hk : Keeps s₀ s) :
    Keeps s₀ (State.recEvent s i w code param param2) := by
  unfold State.recEvent
  repeat' first
    | with_reducible assumption
    | (extract_lets +onlyGivenNames x; refine Keeps.cut (s := s₀) (t := x) ?_ (fun hx => ?_); (on_goal 1 => (unfold x; clear x)); (on_goal 2 => clear_value x))
    | (extract_lets +onlyGivenNames x; refine Keeps.cut2 (s := s₀) (x := x) ?_ (fun hx => ?_); (on_goal 1 => (unfold x; clear x)); (on_goal 2 => clear_value x))
    | (extract_lets +onlyGivenNames x; refine Keeps.cut2 (s := s₀) (x := x.2) ?_ (fun hx => ?_); (on_goal 1 => (unfold x; clear x)); (on_goal 2 => clear_value x))
    | (extract_lets +onlyGivenNames x; (have hv : x = x := by unfold x; exact Eq.refl _); clear hv; clear_value x)
    | with_reducible apply Keeps.ite
    | with_reducible apply State.event_keeps
    | split

theorem State.takeBuffer_keeps {s₀ : State} {s : State} {i : Nat} {w : List Nat} {st : Nat} (hk : Keeps s₀ s) :
    Keeps s₀ (State.takeBuffer s i w st) := by
  unfold State.takeBuffer
  repeat' first
    | with_reducible assumption
    | (dsimp only [Keeps.mk_eq]; with_reducible apply KeepsD.of)
    | (extract_lets +onlyGivenNames x; refine Keeps.cut (s := s₀) (t := x) ?_ (fun hx => ?_); (on_goal 1 => (unfold x; clear x)); (on_goal 2 => clear_value x))
    | (extract_lets +onlyGivenNames x; refine Keeps.cut2 (s := s₀) (x := x) ?_ (fun hx => ?_); (on_goal 1 => (unfold x; clear x)); (on_goal 2 => clear_value x))
    | (extract_lets +onlyGivenNames x; refine Keeps.cut2 (s := s₀) (x := x.2) ?_ (fun hx => ?_); (on_goal 1 => (unfold x; clear x)); (on_goal 2 => clear_value x))
    | (extract_lets +onlyGivenNames x; refine Keeps.cutF1 (s := s₀) (f := x) ?_ (fun kx => ?_); (on_goal 1 => (unfold x; clear x; intros; beta_reduce)); (on_goal 2 => clear_value x))
    | (extract_lets +onlyGivenNames x; refine Keeps.cutF2 (s := s₀) (f := x) ?_ (fun kx => ?_); (on_goal 1 => (unfold x; clear x; intros; beta_reduce)); (on_goal 2 => clear_value x))
    | (extract_lets +onlyGivenNames x; refine Keeps.cutG2 (s := s₀) (f := x) ?_ (fun kx => ?_); (on_goal 1 => (unfold x; clear x; intros; beta_reduce)); (on_goal 2 => clear_value x))
    | (extract_lets +onlyGivenNames x; refine Keeps.cutF3 (s := s₀) (f := x) ?_ (fun kx => ?_); (on_goal 1 => (unfold x; clear x; intros; beta_reduce)); (on_goal 2 => clear_value x))
    | (extract_lets +onlyGivenNames x; refine Keeps.cutF4 (s := s₀) (f := x) ?_ (fun kx => ?_); (on_goal 1 => (unfold x; clear x; intros; beta_reduce)); (on_goal 2 => clear_value x))
    | (extract_lets +onlyGivenNames x; (have hv : x = x := by unfold x; exact Eq.refl _); clear hv; clear_value x)
    | with_reducible apply Keeps.ite
    | with_reducible apply State.dirTo_keeps
    | with_reducible apply State.dreBump_keeps
    | with_reducible apply State.modRec_keeps
    | with_reducible apply State.recEvent_keeps
    | with_reducible apply Keeps.foldl
    | with_reducible apply Keeps.foldl2
    | apply kx
    | split
    | (intro _; intros; try beta_reduce)

theorem State.recCommit_keeps {s₀ : State} {s : State} {i : Nat} {w : List Nat} {trunc abort : Bool} (hk : Keeps s₀ s) :
    Keeps s₀ (State.recCommit s i w trunc abort) := by
  unfold State.recCommit
  repeat' first
    | with_reducible assumption
    | (dsimp only [Keeps.mk_eq]; with_reducible apply KeepsD.of)
    | (extract_lets +onlyGivenNames x; refine Keeps.cut (s := s₀) (t := x) ?_ (fun hx => ?_); (on_goal 1 => (unfold x; clear x)); (on_goal 2 => clear_value x))
    | (extract_lets +onlyGivenNames x; refine Keeps.cut2 (s := s₀) (x := x) ?_ (fun hx => ?_); (on_goal 1 => (unfold x; clear x)); (on_goal 2 => clear_value x))
    | (extract_lets +onlyGivenNames x; refine Keeps.cut2 (s := s₀) (x := x.2) ?_ (fun hx => ?_); (on_goal 1 => (unfold x; clear x)); (on_goal 2 => clear_value x))
    | (extract_lets +onlyGivenNames x; (have hv : x = x := by unfold x; exact Eq.refl _); clear hv; clear_value x)
    | with_reducible apply Keeps.ite
    | with_reducible apply State.dirWrite_keeps
    | with_reducible apply State.modRec_keeps
    | with_reducible apply State.takeBuffer_keeps
    | with_reducible apply State.dreBump_keeps
    | with_reducible apply State.recEvent_keeps
    | split
    | (intro _; intros; try beta_reduce)

theorem State.recOpen_keeps {s₀ : State} {s : State} {i : Nat} {w : List Nat} {r : Nat} {t : Time} {source : Nat} (hk : Keeps s₀ s) :
    Keeps s₀ (State.recOpen s i w r t source) := by
  unfold State.recOpen
  repeat' first
    | with_reducible assumption
    | (dsimp only [Keeps.mk_eq]; with_reducible apply KeepsD.of)
    | (extract_lets +onlyGivenNames x; refine Keeps.cut (s := s₀) (t := x) ?_ (fun hx => ?_); (on_goal 1 => (unfold x; clear x)); (on_goal 2 => clear_value x))
    | (extract_lets +onlyGivenNames x; refine Keeps.cut2 (s := s₀) (x := x) ?_ (fun hx => ?_); (on_goal 1 => (unfold x; clear x)); (on_goal 2 => clear_value x))
    | (extract_lets +onlyGivenNames x; refine Keeps.cut2 (s := s₀) (x := x.2) ?_ (fun hx => ?_); (on_goal 1 => (unfold x; clear x)); (on_goal 2 => clear_value x))
    | (extract_lets +onlyGivenNames x; (have hv : x = x := by unfold x; exact Eq.refl _); clear hv; clear_value x)
    | with_reducible apply Keeps.ite
    | with_reducible apply State.modRec_keeps
    | with_reducible apply State.dirWrite_keeps
    | split
    | (intro _; intros; try beta_reduce)

theorem State.recEnd_keeps {s₀ : State} {s : State} {i : Nat} {w : List Nat} (hk : Keeps s₀ s) :
    Keeps s₀ (State.recEnd s i w) := by
  unfold State.recEnd
  repeat' first
    | with_reducible assumption
    | (dsimp only [Keeps.mk_eq]; with_reducible apply KeepsD.of)
    | (extract_lets +onlyGivenNames x; refine Keeps.cut (s := s₀) (t := x) ?_ (fun hx => ?_); (on_goal 1 => (unfold x; clear x)); (on_goal 2 => clear_value x))
    | (extract_lets +onlyGivenNames x; refine Keeps.cut2 (s := s₀) (x := x) ?_ (fun hx => ?_); (on_goal 1 => (unfold x; clear x)); (on_goal 2 => clear_value x))
    | (extract_lets +onlyGivenNames x; refine Keeps.cut2 (s := s₀) (x := x.2) ?_ (fun hx => ?_); (on_goal 1 => (unfold x; clear x)); (on_goal 2 => clear_value x))
    | (extract_lets +onlyGivenNames x; (have hv : x = x := by unfold x; exact Eq.refl _); clear hv; clear_value x)
    | with_reducible apply Keeps.ite
    | with_reducible apply State.modRec_keeps
    | with_reducible apply State.recCommit_keeps
    | split
    | (intro _; intros; try beta_reduce)

theorem State.crossSend_keeps {s₀ : State} {s : State} {i : Nat} {w : List Nat} {t : Time} (hk : Keeps s₀ s) :
    Keeps s₀ (State.crossSend s i w t) := by
  unfold State.crossSend
  repeat' first
    | with_reducible assumption
    | (dsimp only [Keeps.mk_eq]; with_reducible apply KeepsD.of)
    | (extract_lets +onlyGivenNames x; refine Keeps.cut (s := s₀) (t := x) ?_ (fun hx => ?_); (on_goal 1 => (unfold x; clear x)); (on_goal 2 => clear_value x))
    | (extract_lets +onlyGivenNames x; refine Keeps.cut2 (s := s₀) (x := x) ?_ (fun hx => ?_); (on_goal 1 => (unfold x; clear x)); (on_goal 2 => clear_value x))
    | (extract_lets +onlyGivenNames x; refine Keeps.cut2 (s := s₀) (x := x.2) ?_ (fun hx => ?_); (on_goal 1 => (unfold x; clear x)); (on_goal 2 => clear_value x))
    | (extract_lets +onlyGivenNames x; (have hv : x = x := by unfold x; exact Eq.refl _); clear hv; clear_value x)
    | with_reducible apply Keeps.ite
    | split
    | (intro _; intros; try beta_reduce)

theorem State.trigEffect_keeps {s₀ : State} {s : State} {g : Trig} (hk : Keeps s₀ s) :
    Keeps s₀ (State.trigEffect s g) := by
  unfold State.trigEffect
  repeat' first
    | with_reducible assumption
    | (dsimp only [Keeps.mk_eq]; with_reducible apply KeepsD.of)
    | (extract_lets +onlyGivenNames x; refine Keeps.cut (s := s₀) (t := x) ?_ (fun hx => ?_); (on_goal 1 => (unfold x; clear x)); (on_goal 2 => clear_value x))
    | (extract_lets +onlyGivenNames x; refine Keeps.cut2 (s := s₀) (x := x) ?_ (fun hx => ?_); (on_goal 1 => (unfold x; clear x)); (on_goal 2 => clear_value x))
    | (extract_lets +onlyGivenNames x; refine Keeps.cut2 (s := s₀) (x := x.2) ?_ (fun hx => ?_); (on_goal 1 => (unfold x; clear x)); (on_goal 2 => clear_value x))
    | (extract_lets +onlyGivenNames x; (have hv : x = x := by unfold x; exact Eq.refl _); clear hv; clear_value x)
    | with_reducible apply Keeps.ite
    | with_reducible apply State.dreBump_keeps
    | with_reducible apply State.crossSend_keeps
    | with_reducible apply State.recOpen_keeps
    | with_reducible apply State.modRec_keeps
    | with_reducible apply State.dirWrite_keeps
    | with_reducible apply State.recEvent_keeps
    | split
    | (intro _; intros; try beta_reduce)

theorem State.recArmNow_keeps {s₀ : State} {s : State} {i : Nat} (hk : Keeps s₀ s) :
    Keeps s₀ (State.recArmNow s i) := by
  unfold State.recArmNow
  repeat' first
    | with_reducible assumption
    | (dsimp only [Keeps.mk_eq]; with_reducible apply KeepsD.of)
    | (extract_lets +onlyGivenNames x; refine Keeps.cut (s := s₀) (t := x) ?_ (fun hx => ?_); (on_goal 1 => (unfold x; clear x)); (on_goal 2 => clear_value x))
    | (extract_lets +onlyGivenNames x; refine Keeps.cut2 (s := s₀) (x := x) ?_ (fun hx => ?_); (on_goal 1 => (unfold x; clear x)); (on_goal 2 => clear_value x))
    | (extract_lets +onlyGivenNames x; refine Keeps.cut2 (s := s₀) (x := x.2) ?_ (fun hx => ?_); (on_goal 1 => (unfold x; clear x)); (on_goal 2 => clear_value x))
    | (extract_lets +onlyGivenNames x; refine Keeps.cutF1 (s := s₀) (f := x) ?_ (fun kx => ?_); (on_goal 1 => (unfold x; clear x; intros; beta_reduce)); (on_goal 2 => clear_value x))
    | (extract_lets +onlyGivenNames x; refine Keeps.cutF2 (s := s₀) (f := x) ?_ (fun kx => ?_); (on_goal 1 => (unfold x; clear x; intros; beta_reduce)); (on_goal 2 => clear_value x))
    | (extract_lets +onlyGivenNames x; refine Keeps.cutG2 (s := s₀) (f := x) ?_ (fun kx => ?_); (on_goal 1 => (unfold x; clear x; intros; beta_reduce)); (on_goal 2 => clear_value x))
    | (extract_lets +onlyGivenNames x; refine Keeps.cutF3 (s := s₀) (f := x) ?_ (fun kx => ?_); (on_goal 1 => (unfold x; clear x; intros; beta_reduce)); (on_goal 2 => clear_value x))
    | (extract_lets +onlyGivenNames x; refine Keeps.cutF4 (s := s₀) (f := x) ?_ (fun kx => ?_); (on_goal 1 => (unfold x; clear x; intros; beta_reduce)); (on_goal 2 => clear_value x))
    | (extract_lets +onlyGivenNames x; (have hv : x = x := by unfold x; exact Eq.refl _); clear hv; clear_value x)
    | with_reducible apply Keeps.ite
    | with_reducible apply State.takeBuffer_keeps
    | apply kx
    | split
    | (intro _; intros; try beta_reduce)

theorem State.recDisarmNow_keeps {s₀ : State} {s : State} {i : Nat} (hk : Keeps s₀ s) :
    Keeps s₀ (State.recDisarmNow s i) := by
  unfold State.recDisarmNow
  repeat' first
    | with_reducible assumption
    | (dsimp only [Keeps.mk_eq]; with_reducible apply KeepsD.of)
    | (extract_lets +onlyGivenNames x; refine Keeps.cut (s := s₀) (t := x) ?_ (fun hx => ?_); (on_goal 1 => (unfold x; clear x)); (on_goal 2 => clear_value x))
    | (extract_lets +onlyGivenNames x; refine Keeps.cut2 (s := s₀) (x := x) ?_ (fun hx => ?_); (on_goal 1 => (unfold x; clear x)); (on_goal 2 => clear_value x))
    | (extract_lets +onlyGivenNames x; refine Keeps.cut2 (s := s₀) (x := x.2) ?_ (fun hx => ?_); (on_goal 1 => (unfold x; clear x)); (on_goal 2 => clear_value x))
    | (extract_lets +onlyGivenNames x; (have hv : x = x := by unfold x; exact Eq.refl _); clear hv; clear_value x)
    | with_reducible apply State.recCommit_keeps
    | with_reducible apply State.modRec_keeps
    | with_reducible apply State.dirTo_keeps
    | split
    | (intro _; intros; try beta_reduce)

theorem State.recReleaseBuf_keeps {s₀ : State} {s : State} {i k : Nat} (hk : Keeps s₀ s) :
    Keeps s₀ (State.recReleaseBuf s i k) := by
  unfold State.recReleaseBuf
  repeat' first
    | with_reducible assumption
    | (extract_lets +onlyGivenNames x; refine Keeps.cut (s := s₀) (t := x) ?_ (fun hx => ?_); (on_goal 1 => (unfold x; clear x)); (on_goal 2 => clear_value x))
    | (extract_lets +onlyGivenNames x; refine Keeps.cut2 (s := s₀) (x := x) ?_ (fun hx => ?_); (on_goal 1 => (unfold x; clear x)); (on_goal 2 => clear_value x))
    | (extract_lets +onlyGivenNames x; refine Keeps.cut2 (s := s₀) (x := x.2) ?_ (fun hx => ?_); (on_goal 1 => (unfold x; clear x)); (on_goal 2 => clear_value x))
    | (extract_lets +onlyGivenNames x; (have hv : x = x := by unfold x; exact Eq.refl _); clear hv; clear_value x)
    | with_reducible apply Keeps.ite
    | with_reducible apply State.dirTo_keeps
    | with_reducible apply State.takeBuffer_keeps
    | split

theorem State.takeBins_keeps {s₀ : State} {s : State} {l n : Nat} (hk : Keeps s₀ s) :
    Keeps s₀ (State.takeBins s l n) := by
  unfold State.takeBins
  repeat' first
    | with_reducible assumption
    | (dsimp only [Keeps.mk_eq]; with_reducible apply KeepsD.of)
    | (extract_lets +onlyGivenNames x; refine Keeps.cut (s := s₀) (t := x) ?_ (fun hx => ?_); (on_goal 1 => (unfold x; clear x)); (on_goal 2 => clear_value x))
    | (extract_lets +onlyGivenNames x; refine Keeps.cut2 (s := s₀) (x := x) ?_ (fun hx => ?_); (on_goal 1 => (unfold x; clear x)); (on_goal 2 => clear_value x))
    | (extract_lets +onlyGivenNames x; refine Keeps.cut2 (s := s₀) (x := x.2) ?_ (fun hx => ?_); (on_goal 1 => (unfold x; clear x)); (on_goal 2 => clear_value x))
    | (extract_lets +onlyGivenNames x; (have hv : x = x := by unfold x; exact Eq.refl _); clear hv; clear_value x)
    | (intro _; intros; try beta_reduce)

theorem State.rowWrite_keeps {s₀ : State} {s : State} {i : Nat} {w : List Nat} {n : Nat} (hk : Keeps s₀ s) :
    Keeps s₀ (State.rowWrite s i w n) := by
  unfold State.rowWrite
  repeat' first
    | with_reducible assumption
    | (dsimp only [Keeps.mk_eq]; with_reducible apply KeepsD.of)
    | (extract_lets +onlyGivenNames x; refine Keeps.cut (s := s₀) (t := x) ?_ (fun hx => ?_); (on_goal 1 => (unfold x; clear x)); (on_goal 2 => clear_value x))
    | (extract_lets +onlyGivenNames x; refine Keeps.cut2 (s := s₀) (x := x) ?_ (fun hx => ?_); (on_goal 1 => (unfold x; clear x)); (on_goal 2 => clear_value x))
    | (extract_lets +onlyGivenNames x; refine Keeps.cut2 (s := s₀) (x := x.2) ?_ (fun hx => ?_); (on_goal 1 => (unfold x; clear x)); (on_goal 2 => clear_value x))
    | (extract_lets +onlyGivenNames x; (have hv : x = x := by unfold x; exact Eq.refl _); clear hv; clear_value x)
    | with_reducible apply Keeps.ite
    | with_reducible apply State.mramWrAll_keeps
    | with_reducible apply State.modRec_keeps
    | with_reducible apply State.dirWrite_keeps
    | with_reducible apply State.dreBump_keeps
    | with_reducible apply State.recEnd_keeps
    | split
    | (intro _; intros; try beta_reduce)

theorem State.dreLevels_keeps {s₀ : State} {s : State} {l n : Nat} {o : PheOut} (hk : Keeps s₀ s) :
    Keeps s₀ (State.dreLevels s l n o) := by
  unfold State.dreLevels
  repeat' first
    | with_reducible assumption
    | (dsimp only [Keeps.mk_eq]; with_reducible apply KeepsD.of)
    | (extract_lets +onlyGivenNames x; refine Keeps.cut (s := s₀) (t := x) ?_ (fun hx => ?_); (on_goal 1 => (unfold x; clear x)); (on_goal 2 => clear_value x))
    | (extract_lets +onlyGivenNames x; refine Keeps.cut2 (s := s₀) (x := x) ?_ (fun hx => ?_); (on_goal 1 => (unfold x; clear x)); (on_goal 2 => clear_value x))
    | (extract_lets +onlyGivenNames x; refine Keeps.cut2 (s := s₀) (x := x.2) ?_ (fun hx => ?_); (on_goal 1 => (unfold x; clear x)); (on_goal 2 => clear_value x))
    | (extract_lets +onlyGivenNames x; (have hv : x = x := by unfold x; exact Eq.refl _); clear hv; clear_value x)
    | with_reducible apply Keeps.ite
    | with_reducible apply Keeps.foldl
    | with_reducible apply Keeps.foldl2
    | split
    | (intro _; intros; try beta_reduce)

theorem State.drePatterns_keeps {s₀ : State} {s : State} {l n : Nat} (hk : Keeps s₀ s) :
    Keeps s₀ (State.drePatterns s l n) := by
  unfold State.drePatterns
  repeat' first
    | with_reducible assumption
    | (dsimp only [Keeps.mk_eq]; with_reducible apply KeepsD.of)
    | (extract_lets +onlyGivenNames x; refine Keeps.cut (s := s₀) (t := x) ?_ (fun hx => ?_); (on_goal 1 => (unfold x; clear x)); (on_goal 2 => clear_value x))
    | (extract_lets +onlyGivenNames x; refine Keeps.cut2 (s := s₀) (x := x) ?_ (fun hx => ?_); (on_goal 1 => (unfold x; clear x)); (on_goal 2 => clear_value x))
    | (extract_lets +onlyGivenNames x; refine Keeps.cut2 (s := s₀) (x := x.2) ?_ (fun hx => ?_); (on_goal 1 => (unfold x; clear x)); (on_goal 2 => clear_value x))
    | (extract_lets +onlyGivenNames x; (have hv : x = x := by unfold x; exact Eq.refl _); clear hv; clear_value x)
    | with_reducible apply Keeps.ite
    | with_reducible apply Keeps.foldl
    | with_reducible apply Keeps.foldl2
    | split
    | (intro _; intros; try beta_reduce)

theorem State.takeTrigs_keeps {s₀ : State} {s : State} {l n k : Nat} {ts : List Trig} (hk : Keeps s₀ s) :
    Keeps s₀ (State.takeTrigs l n k ts s) := by
  induction k generalizing ts s with
  | zero => exact hk
  | succ k ih =>
    unfold State.takeTrigs
    dsimp only
    split
    · exact hk
    · refine ih ?_
      split
      · exact State.recEnd_keeps (State.trigEffect_keeps (KeepsD.of hk))
      · exact State.trigEffect_keeps (KeepsD.of hk)

theorem State.holdoffEnd_keeps {s₀ : State} {s : State} {i : Nat} {w : List Nat} {n : Nat} (hk : Keeps s₀ s) :
    Keeps s₀ (State.holdoffEnd s i w n) := by
  unfold State.holdoffEnd
  repeat' first
    | with_reducible assumption
    | (dsimp only [Keeps.mk_eq]; with_reducible apply KeepsD.of)
    | (extract_lets +onlyGivenNames x; refine Keeps.cut (s := s₀) (t := x) ?_ (fun hx => ?_); (on_goal 1 => (unfold x; clear x)); (on_goal 2 => clear_value x))
    | (extract_lets +onlyGivenNames x; refine Keeps.cut2 (s := s₀) (x := x) ?_ (fun hx => ?_); (on_goal 1 => (unfold x; clear x)); (on_goal 2 => clear_value x))
    | (extract_lets +onlyGivenNames x; refine Keeps.cut2 (s := s₀) (x := x.2) ?_ (fun hx => ?_); (on_goal 1 => (unfold x; clear x)); (on_goal 2 => clear_value x))
    | (extract_lets +onlyGivenNames x; (have hv : x = x := by unfold x; exact Eq.refl _); clear hv; clear_value x)
    | with_reducible apply Keeps.ite
    | with_reducible apply State.modRec_keeps
    | split
    | (intro _; intros; try beta_reduce)

theorem State.dreInstant_keeps {s₀ : State} {s : State} {l n : Nat} (hk : Keeps s₀ s) :
    Keeps s₀ (State.dreInstant s l n) := by
  unfold State.dreInstant
  repeat' first
    | with_reducible assumption
    | (dsimp only [Keeps.mk_eq]; with_reducible apply KeepsD.of)
    | (extract_lets +onlyGivenNames x; refine Keeps.cut (s := s₀) (t := x) ?_ (fun hx => ?_); (on_goal 1 => (unfold x; clear x)); (on_goal 2 => clear_value x))
    | (extract_lets +onlyGivenNames x; refine Keeps.cut2 (s := s₀) (x := x) ?_ (fun hx => ?_); (on_goal 1 => (unfold x; clear x)); (on_goal 2 => clear_value x))
    | (extract_lets +onlyGivenNames x; refine Keeps.cut2 (s := s₀) (x := x.2) ?_ (fun hx => ?_); (on_goal 1 => (unfold x; clear x)); (on_goal 2 => clear_value x))
    | (extract_lets +onlyGivenNames x; (have hv : x = x := by unfold x; exact Eq.refl _); clear hv; clear_value x)
    | with_reducible apply State.holdoffEnd_keeps
    | with_reducible apply State.modRec_keeps
    | with_reducible apply State.takeTrigs_keeps
    | with_reducible apply State.rowWrite_keeps
    | with_reducible apply Keeps.foldl
    | with_reducible apply Keeps.foldl2
    | (intro _; intros; try beta_reduce)

theorem State.dreAdvance_keeps {s₀ : State} {s : State} {l n : Nat} (hk : Keeps s₀ s) :
    Keeps s₀ (State.dreAdvance s l n) := by
  induction n generalizing s with
  | zero => exact hk
  | succ n ih =>
    unfold State.dreAdvance
    dsimp only
    split
    · exact ih (State.dreInstant_keeps hk)
    · exact hk

theorem State.dreClosed_keeps {s₀ : State} {s : State} {l n : Nat} (hk : Keeps s₀ s) :
    Keeps s₀ (State.dreClosed s l n) := by
  unfold State.dreClosed
  repeat' first
    | with_reducible assumption
    | with_reducible apply Keeps.ite
    | with_reducible apply State.takeBins_keeps
    | with_reducible apply State.drePatterns_keeps
    | with_reducible apply State.dreAdvance_keeps
    | split

theorem State.dreStart_keeps {s₀ : State} {s : State} {l n0 next : Nat} (hk : Keeps s₀ s) :
    Keeps s₀ (State.dreStart s l n0 next) := by
  unfold State.dreStart
  repeat' first
    | with_reducible assumption
    | (dsimp only [Keeps.mk_eq]; with_reducible apply KeepsD.of)
    | (extract_lets +onlyGivenNames x; refine Keeps.cut (s := s₀) (t := x) ?_ (fun hx => ?_); (on_goal 1 => (unfold x; clear x)); (on_goal 2 => clear_value x))
    | (extract_lets +onlyGivenNames x; refine Keeps.cut2 (s := s₀) (x := x) ?_ (fun hx => ?_); (on_goal 1 => (unfold x; clear x)); (on_goal 2 => clear_value x))
    | (extract_lets +onlyGivenNames x; refine Keeps.cut2 (s := s₀) (x := x.2) ?_ (fun hx => ?_); (on_goal 1 => (unfold x; clear x)); (on_goal 2 => clear_value x))
    | (extract_lets +onlyGivenNames x; refine Keeps.cutF1 (s := s₀) (f := x) ?_ (fun kx => ?_); (on_goal 1 => (unfold x; clear x; intros; beta_reduce)); (on_goal 2 => clear_value x))
    | (extract_lets +onlyGivenNames x; refine Keeps.cutF2 (s := s₀) (f := x) ?_ (fun kx => ?_); (on_goal 1 => (unfold x; clear x; intros; beta_reduce)); (on_goal 2 => clear_value x))
    | (extract_lets +onlyGivenNames x; refine Keeps.cutG2 (s := s₀) (f := x) ?_ (fun kx => ?_); (on_goal 1 => (unfold x; clear x; intros; beta_reduce)); (on_goal 2 => clear_value x))
    | (extract_lets +onlyGivenNames x; refine Keeps.cutF3 (s := s₀) (f := x) ?_ (fun kx => ?_); (on_goal 1 => (unfold x; clear x; intros; beta_reduce)); (on_goal 2 => clear_value x))
    | (extract_lets +onlyGivenNames x; refine Keeps.cutF4 (s := s₀) (f := x) ?_ (fun kx => ?_); (on_goal 1 => (unfold x; clear x; intros; beta_reduce)); (on_goal 2 => clear_value x))
    | (extract_lets +onlyGivenNames x; (have hv : x = x := by unfold x; exact Eq.refl _); clear hv; clear_value x)
    | with_reducible apply State.modRec_keeps
    | with_reducible apply Keeps.foldl
    | with_reducible apply Keeps.foldl2
    | apply kx
    | (intro _; intros; try beta_reduce)

theorem State.dreJoin_keeps {s₀ : State} {s : State} {l : Nat} (hk : Keeps s₀ s) :
    Keeps s₀ (State.dreJoin s l) := by
  unfold State.dreJoin
  repeat' first
    | with_reducible assumption
    | (dsimp only [Keeps.mk_eq]; with_reducible apply KeepsD.of)
    | (extract_lets +onlyGivenNames x; refine Keeps.cut (s := s₀) (t := x) ?_ (fun hx => ?_); (on_goal 1 => (unfold x; clear x)); (on_goal 2 => clear_value x))
    | (extract_lets +onlyGivenNames x; refine Keeps.cut2 (s := s₀) (x := x) ?_ (fun hx => ?_); (on_goal 1 => (unfold x; clear x)); (on_goal 2 => clear_value x))
    | (extract_lets +onlyGivenNames x; refine Keeps.cut2 (s := s₀) (x := x.2) ?_ (fun hx => ?_); (on_goal 1 => (unfold x; clear x)); (on_goal 2 => clear_value x))
    | (extract_lets +onlyGivenNames x; (have hv : x = x := by unfold x; exact Eq.refl _); clear hv; clear_value x)
    | with_reducible apply Keeps.ite
    | split
    | (intro _; intros; try beta_reduce)

theorem State.dreSwitch_keeps {s₀ : State} {s : State} {was : Bool} (hk : Keeps s₀ s) :
    Keeps s₀ (State.dreSwitch s was) := by
  unfold State.dreSwitch
  repeat' first
    | with_reducible assumption
    | with_reducible apply Keeps.ite
    | with_reducible apply State.dreJoin_keeps
    | with_reducible apply Keeps.foldl
    | with_reducible apply Keeps.foldl2
    | split
    | (intro _; intros; try beta_reduce)

theorem State.trigsBack_keeps {s₀ : State} {s : State} {l : Nat} {pattern : Bool} {kept : List (Nat × Nat × Tbl TrigSt)} (hk : Keeps s₀ s) :
    Keeps s₀ (State.trigsBack s l pattern kept) := by
  unfold State.trigsBack
  repeat' first
    | with_reducible assumption
    | (dsimp only [Keeps.mk_eq]; with_reducible apply KeepsD.of)
    | (extract_lets +onlyGivenNames x; refine Keeps.cut (s := s₀) (t := x) ?_ (fun hx => ?_); (on_goal 1 => (unfold x; clear x)); (on_goal 2 => clear_value x))
    | (extract_lets +onlyGivenNames x; refine Keeps.cut2 (s := s₀) (x := x) ?_ (fun hx => ?_); (on_goal 1 => (unfold x; clear x)); (on_goal 2 => clear_value x))
    | (extract_lets +onlyGivenNames x; refine Keeps.cut2 (s := s₀) (x := x.2) ?_ (fun hx => ?_); (on_goal 1 => (unfold x; clear x)); (on_goal 2 => clear_value x))
    | (extract_lets +onlyGivenNames x; (have hv : x = x := by unfold x; exact Eq.refl _); clear hv; clear_value x)
    | with_reducible apply Keeps.foldl
    | with_reducible apply Keeps.foldl2
    | split
    | (intro _; intros; try beta_reduce)

theorem State.dreRefute_keeps {s₀ : State} {s : State} {l n : Nat} (hk : Keeps s₀ s) :
    Keeps s₀ (State.dreRefute s l n) := by
  unfold State.dreRefute
  repeat' first
    | with_reducible assumption
    | (dsimp only [Keeps.mk_eq]; with_reducible apply KeepsD.of)
    | (extract_lets +onlyGivenNames x; refine Keeps.cut (s := s₀) (t := x) ?_ (fun hx => ?_); (on_goal 1 => (unfold x; clear x)); (on_goal 2 => clear_value x))
    | (extract_lets +onlyGivenNames x; refine Keeps.cut2 (s := s₀) (x := x) ?_ (fun hx => ?_); (on_goal 1 => (unfold x; clear x)); (on_goal 2 => clear_value x))
    | (extract_lets +onlyGivenNames x; refine Keeps.cut2 (s := s₀) (x := x.2) ?_ (fun hx => ?_); (on_goal 1 => (unfold x; clear x)); (on_goal 2 => clear_value x))
    | (extract_lets +onlyGivenNames x; refine Keeps.cutF1 (s := s₀) (f := x) ?_ (fun kx => ?_); (on_goal 1 => (unfold x; clear x; intros; beta_reduce)); (on_goal 2 => clear_value x))
    | (extract_lets +onlyGivenNames x; refine Keeps.cutF2 (s := s₀) (f := x) ?_ (fun kx => ?_); (on_goal 1 => (unfold x; clear x; intros; beta_reduce)); (on_goal 2 => clear_value x))
    | (extract_lets +onlyGivenNames x; refine Keeps.cutG2 (s := s₀) (f := x) ?_ (fun kx => ?_); (on_goal 1 => (unfold x; clear x; intros; beta_reduce)); (on_goal 2 => clear_value x))
    | (extract_lets +onlyGivenNames x; refine Keeps.cutF3 (s := s₀) (f := x) ?_ (fun kx => ?_); (on_goal 1 => (unfold x; clear x; intros; beta_reduce)); (on_goal 2 => clear_value x))
    | (extract_lets +onlyGivenNames x; refine Keeps.cutF4 (s := s₀) (f := x) ?_ (fun kx => ?_); (on_goal 1 => (unfold x; clear x; intros; beta_reduce)); (on_goal 2 => clear_value x))
    | (extract_lets +onlyGivenNames x; (have hv : x = x := by unfold x; exact Eq.refl _); clear hv; clear_value x)
    | with_reducible apply State.modRec_keeps
    | with_reducible apply State.bumpBy_keeps
    | with_reducible apply State.trigsBack_keeps
    | with_reducible apply Keeps.foldl
    | with_reducible apply Keeps.foldl2
    | apply kx
    | (intro _; intros; try beta_reduce)

theorem State.dirRecover_keeps {s₀ : State} {s : State} {w : List Nat} {k : Nat} (hk : Keeps s₀ s) :
    Keeps s₀ (State.dirRecover s w k) := by
  unfold State.dirRecover
  repeat' first
    | with_reducible assumption
    | (dsimp only [Keeps.mk_eq]; with_reducible apply KeepsD.of)
    | (extract_lets +onlyGivenNames x; refine Keeps.cut (s := s₀) (t := x) ?_ (fun hx => ?_); (on_goal 1 => (unfold x; clear x)); (on_goal 2 => clear_value x))
    | (extract_lets +onlyGivenNames x; refine Keeps.cut2 (s := s₀) (x := x) ?_ (fun hx => ?_); (on_goal 1 => (unfold x; clear x)); (on_goal 2 => clear_value x))
    | (extract_lets +onlyGivenNames x; refine Keeps.cut2 (s := s₀) (x := x.2) ?_ (fun hx => ?_); (on_goal 1 => (unfold x; clear x)); (on_goal 2 => clear_value x))
    | (extract_lets +onlyGivenNames x; (have hv : x = x := by unfold x; exact Eq.refl _); clear hv; clear_value x)
    | with_reducible apply State.dirTo_keeps
    | with_reducible apply State.mramWr_keeps
    | split

theorem State.dreRecover_keeps {s₀ : State} {s : State} (hk : Keeps s₀ s) :
    Keeps s₀ (State.dreRecover s) := by
  unfold State.dreRecover
  repeat' first
    | with_reducible assumption
    | with_reducible apply State.dirRecover_keeps
    | with_reducible apply Keeps.foldl
    | with_reducible apply Keeps.foldl2
    | with_reducible apply Keeps.forN
    | (intro _; intros; try beta_reduce)

theorem State.dreCommit_keeps {s₀ : State} {s : State} (hk : Keeps s₀ s) :
    Keeps s₀ (State.dreCommit s) := by
  unfold State.dreCommit
  repeat' first
    | with_reducible assumption
    | (dsimp only [Keeps.mk_eq]; with_reducible apply KeepsD.of)
    | (extract_lets +onlyGivenNames x; refine Keeps.cut (s := s₀) (t := x) ?_ (fun hx => ?_); (on_goal 1 => (unfold x; clear x)); (on_goal 2 => clear_value x))
    | (extract_lets +onlyGivenNames x; refine Keeps.cut2 (s := s₀) (x := x) ?_ (fun hx => ?_); (on_goal 1 => (unfold x; clear x)); (on_goal 2 => clear_value x))
    | (extract_lets +onlyGivenNames x; refine Keeps.cut2 (s := s₀) (x := x.2) ?_ (fun hx => ?_); (on_goal 1 => (unfold x; clear x)); (on_goal 2 => clear_value x))
    | (extract_lets +onlyGivenNames x; (have hv : x = x := by unfold x; exact Eq.refl _); clear hv; clear_value x)
    | with_reducible apply Keeps.ite
    | with_reducible apply State.modRec_keeps
    | with_reducible apply State.dirTo_keeps
    | with_reducible apply Keeps.foldl
    | with_reducible apply Keeps.foldl2
    | split
    | (intro _; intros; try beta_reduce)

theorem State.armInit_keeps {s₀ : State} {s : State} (hk : Keeps s₀ s) :
    Keeps s₀ (State.armInit s) := by
  unfold State.armInit
  repeat' first
    | with_reducible assumption
    | with_reducible apply Keeps.ite
    | with_reducible apply State.recArmNow_keeps
    | with_reducible apply Keeps.foldl
    | with_reducible apply Keeps.foldl2
    | split
    | (intro _; intros; try beta_reduce)

/-! ### Patchaif -/

theorem State.modSess_keeps {s₀ : State} {s : State} {n : Nat} {f : Session → Session} (hk : Keeps s₀ s) :
    Keeps s₀ (State.modSess s n f) := by
  unfold State.modSess
  repeat' first
    | with_reducible assumption
    | (dsimp only [Keeps.mk_eq]; with_reducible apply KeepsD.of)

theorem State.postReply_keeps {s₀ : State} {s : State} {n : Nat} (hk : Keeps s₀ s) :
    Keeps s₀ (State.postReply s n) := by
  unfold State.postReply
  repeat' first
    | with_reducible assumption
    | (dsimp only [Keeps.mk_eq]; with_reducible apply KeepsD.of)
    | (extract_lets +onlyGivenNames x; refine Keeps.cut (s := s₀) (t := x) ?_ (fun hx => ?_); (on_goal 1 => (unfold x; clear x)); (on_goal 2 => clear_value x))
    | (extract_lets +onlyGivenNames x; refine Keeps.cut2 (s := s₀) (x := x) ?_ (fun hx => ?_); (on_goal 1 => (unfold x; clear x)); (on_goal 2 => clear_value x))
    | (extract_lets +onlyGivenNames x; refine Keeps.cut2 (s := s₀) (x := x.2) ?_ (fun hx => ?_); (on_goal 1 => (unfold x; clear x)); (on_goal 2 => clear_value x))
    | (extract_lets +onlyGivenNames x; (have hv : x = x := by unfold x; exact Eq.refl _); clear hv; clear_value x)
    | with_reducible apply Keeps.ite
    | with_reducible apply State.setF_keeps
    | with_reducible apply State.modSess_keeps
    | with_reducible apply State.wrOctets_keeps
    | with_reducible apply State.event_keeps
    | split
    | (intro _; intros; try beta_reduce)

theorem State.putReplies_keeps {s₀ : State} {s : State} {n : Nat} {f : List Reply → List Reply} (hk : Keeps s₀ s) :
    Keeps s₀ (State.putReplies s n f) := by
  unfold State.putReplies
  repeat' first
    | with_reducible assumption
    | (dsimp only [Keeps.mk_eq]; with_reducible apply KeepsD.of)
    | with_reducible apply Keeps.ite
    | with_reducible apply State.modSess_keeps
    | with_reducible apply State.postReply_keeps
    | split
    | (intro _; intros; try beta_reduce)

theorem State.accept_keeps {s₀ : State} {s : State} {n tag : Nat} (hk : Keeps s₀ s) :
    Keeps s₀ (State.accept s n tag) := by
  unfold State.accept
  repeat' first
    | with_reducible assumption
    | (dsimp only [Keeps.mk_eq]; with_reducible apply KeepsD.of)
    | with_reducible apply Keeps.ite
    | with_reducible apply State.modSess_keeps
    | split
    | (intro _; intros; try beta_reduce)

theorem State.answer_keeps {s₀ : State} {s : State} {q : Req} {op flags status : Nat} {params : Octets} {final deliver : Bool} (hk : Keeps s₀ s) :
    Keeps s₀ (State.answer s q op flags status params final deliver) := by
  unfold State.answer
  repeat' first
    | with_reducible assumption
    | (dsimp only [Keeps.mk_eq]; with_reducible apply KeepsD.of)
    | (extract_lets +onlyGivenNames x; refine Keeps.cut (s := s₀) (t := x) ?_ (fun hx => ?_); (on_goal 1 => (unfold x; clear x)); (on_goal 2 => clear_value x))
    | (extract_lets +onlyGivenNames x; refine Keeps.cut2 (s := s₀) (x := x) ?_ (fun hx => ?_); (on_goal 1 => (unfold x; clear x)); (on_goal 2 => clear_value x))
    | (extract_lets +onlyGivenNames x; refine Keeps.cut2 (s := s₀) (x := x.2) ?_ (fun hx => ?_); (on_goal 1 => (unfold x; clear x)); (on_goal 2 => clear_value x))
    | (extract_lets +onlyGivenNames x; (have hv : x = x := by unfold x; exact Eq.refl _); clear hv; clear_value x)
    | with_reducible apply Keeps.ite
    | with_reducible apply State.modSess_keeps
    | with_reducible apply State.putReplies_keeps
    | split
    | (intro _; intros; try beta_reduce)

theorem State.takeReq_keeps {s₀ : State} {s : State} {q : Req} (hk : Keeps s₀ s) :
    Keeps s₀ (State.takeReq s q).2 := by
  unfold State.takeReq
  repeat' first
    | with_reducible assumption
    | (dsimp only [Keeps.mk_eq]; with_reducible apply KeepsD.of)
    | with_reducible apply State.accept_keeps
    | split

theorem State.patchaif_keeps {s₀ : State} {s : State} {q : Req} {op : Nat} {ps : Octets} {long tenant : Bool} {act : State → Ans × State} (hk : Keeps s₀ s) (kact : ∀ u, Keeps s₀ u → Keeps s₀ (act u).2) :
    KeepsR s₀ (State.patchaif s q op ps long tenant act) := by
  unfold State.patchaif
  repeat' first
    | with_reducible assumption
    | (dsimp only [Keeps.mk_eq]; with_reducible apply KeepsD.of)
    | (extract_lets +onlyGivenNames x; refine Keeps.cut (s := s₀) (t := x) ?_ (fun hx => ?_); (on_goal 1 => (unfold x; clear x)); (on_goal 2 => clear_value x))
    | (extract_lets +onlyGivenNames x; refine Keeps.cut2 (s := s₀) (x := x) ?_ (fun hx => ?_); (on_goal 1 => (unfold x; clear x)); (on_goal 2 => clear_value x))
    | (extract_lets +onlyGivenNames x; refine Keeps.cut2 (s := s₀) (x := x.2) ?_ (fun hx => ?_); (on_goal 1 => (unfold x; clear x)); (on_goal 2 => clear_value x))
    | (extract_lets +onlyGivenNames x; (have hv : x = x := by unfold x; exact Eq.refl _); clear hv; clear_value x)
    | with_reducible apply KeepsR.next
    | with_reducible apply KeepsR.ite
    | with_reducible apply Keeps.ite
    | with_reducible apply State.takeReq_keeps
    | with_reducible apply State.answer_keeps
    | split
    | apply kact
    | (intro _; intros; try beta_reduce)

theorem State.undeliver_keeps {s₀ : State} {s : State} {n : Nat} (hk : Keeps s₀ s) :
    Keeps s₀ (State.undeliver s n) := by
  unfold State.undeliver
  repeat' first
    | with_reducible assumption
    | (dsimp only [Keeps.mk_eq]; with_reducible apply KeepsD.of)
    | with_reducible apply Keeps.ite
    | split
    | (intro _; intros; try beta_reduce)

theorem State.complete_keeps {s₀ : State} {s : State} {j : Job} {status : Nat} {params : Octets} (hk : Keeps s₀ s) :
    Keeps s₀ (State.complete s j status params) := by
  unfold State.complete
  repeat' first
    | with_reducible assumption
    | (dsimp only [Keeps.mk_eq]; with_reducible apply KeepsD.of)
    | with_reducible apply State.answer_keeps
    | (intro _; intros; try beta_reduce)

theorem State.clearCnt_keeps {s₀ : State} {s : State} {f : Field} {lo n : Nat} {clear : Bool} (hk : Keeps s₀ s) :
    Keeps s₀ (State.clearCnt s f lo n clear) := by
  unfold State.clearCnt
  repeat' first
    | with_reducible assumption
    | with_reducible apply Keeps.ite
    | with_reducible apply State.setF_keeps
    | with_reducible apply Keeps.forN
    | split
    | (intro _; intros; try beta_reduce)

theorem State.bufWrite_keeps {s₀ : State} {s : State} {b : BufRef} {o : Octets} (hk : Keeps s₀ s) :
    Keeps s₀ (State.bufWrite s b o) := by
  unfold State.bufWrite
  repeat' first
    | with_reducible assumption
    | (dsimp only [Keeps.mk_eq]; with_reducible apply KeepsD.of)
    | with_reducible apply Keeps.ite
    | with_reducible apply State.wrOctets_keeps
    | split

/-! ### Pair -/

theorem State.prcBump_keeps {s₀ : State} {s : State} {n : Nat} (hk : Keeps s₀ s) :
    Keeps s₀ (State.prcBump s n) := by
  unfold State.prcBump
  repeat' first
    | with_reducible assumption
    | with_reducible apply State.bump_keeps

theorem State.cnt15_keeps {s₀ : State} {s : State} {seen unaligned : Nat} (hk : Keeps s₀ s) :
    Keeps s₀ (State.cnt15 s seen unaligned) := by
  unfold State.cnt15
  repeat' first
    | with_reducible assumption
    | (extract_lets +onlyGivenNames x; refine Keeps.cut (s := s₀) (t := x) ?_ (fun hx => ?_); (on_goal 1 => (unfold x; clear x)); (on_goal 2 => clear_value x))
    | (extract_lets +onlyGivenNames x; refine Keeps.cut2 (s := s₀) (x := x) ?_ (fun hx => ?_); (on_goal 1 => (unfold x; clear x)); (on_goal 2 => clear_value x))
    | (extract_lets +onlyGivenNames x; refine Keeps.cut2 (s := s₀) (x := x.2) ?_ (fun hx => ?_); (on_goal 1 => (unfold x; clear x)); (on_goal 2 => clear_value x))
    | (extract_lets +onlyGivenNames x; (have hv : x = x := by unfold x; exact Eq.refl _); clear hv; clear_value x)
    | with_reducible apply State.setF_keeps

theorem State.sendEdge_keeps {s₀ : State} {s0 s : State} (hk0 : Keeps s₀ s0) (hk1 : Keeps s₀ s) :
    Keeps s₀ (State.sendEdge s0 s) := by
  unfold State.sendEdge
  repeat' first
    | with_reducible assumption
    | with_reducible apply Keeps.ite
    | with_reducible apply State.pubSilence_keeps
    | with_reducible apply State.pubTakeover_keeps
    | split

theorem State.handOwn_keeps {s₀ : State} {s : State} (hk : Keeps s₀ s) :
    Keeps s₀ (State.handOwn s) := by
  unfold State.handOwn
  repeat' first
    | with_reducible assumption
    | (dsimp only [Keeps.mk_eq]; with_reducible apply KeepsD.of)
    | with_reducible apply Keeps.ite
    | split
    | (intro _; intros; try beta_reduce)

theorem State.dropLease_keeps {s₀ : State} {s : State} (hk : Keeps s₀ s) :
    Keeps s₀ (State.dropLease s) := by
  unfold State.dropLease
  repeat' first
    | with_reducible assumption
    | with_reducible apply Keeps.ite
    | with_reducible apply State.setF_keeps
    | with_reducible apply State.prcBump_keeps
    | split

theorem State.renewLease_keeps {s₀ : State} {s : State} (hk : Keeps s₀ s) :
    Keeps s₀ (State.renewLease s) := by
  unfold State.renewLease
  repeat' first
    | with_reducible assumption
    | (dsimp only [Keeps.mk_eq]; with_reducible apply KeepsD.of)
    | with_reducible apply State.setF_keeps

theorem State.dropParts_keeps {s₀ : State} {s : State} (hk : Keeps s₀ s) :
    Keeps s₀ (State.dropParts s) := by
  unfold State.dropParts
  repeat' first
    | with_reducible assumption
    | (dsimp only [Keeps.mk_eq]; with_reducible apply KeepsD.of)

theorem State.setRole_keeps {s₀ : State} {s : State} {r reason : Nat} (hk : Keeps s₀ s) :
    Keeps s₀ (State.setRole s r reason) := by
  unfold State.setRole
  repeat' first
    | with_reducible assumption
    | (dsimp only [Keeps.mk_eq]; with_reducible apply KeepsD.of)
    | (extract_lets +onlyGivenNames x; refine Keeps.cut (s := s₀) (t := x) ?_ (fun hx => ?_); (on_goal 1 => (unfold x; clear x)); (on_goal 2 => clear_value x))
    | (extract_lets +onlyGivenNames x; refine Keeps.cut2 (s := s₀) (x := x) ?_ (fun hx => ?_); (on_goal 1 => (unfold x; clear x)); (on_goal 2 => clear_value x))
    | (extract_lets +onlyGivenNames x; refine Keeps.cut2 (s := s₀) (x := x.2) ?_ (fun hx => ?_); (on_goal 1 => (unfold x; clear x)); (on_goal 2 => clear_value x))
    | (extract_lets +onlyGivenNames x; (have hv : x = x := by unfold x; exact Eq.refl _); clear hv; clear_value x)
    | with_reducible apply Keeps.ite
    | with_reducible apply State.setF_keeps
    | with_reducible apply State.prcBump_keeps
    | with_reducible apply State.dropParts_keeps
    | split
    | (intro _; intros; try beta_reduce)

theorem State.switchReply_keeps {s₀ : State} {s : State} {status : Nat} (hk : Keeps s₀ s) :
    Keeps s₀ (State.switchReply s status) := by
  unfold State.switchReply
  repeat' first
    | with_reducible assumption
    | (dsimp only [Keeps.mk_eq]; with_reducible apply KeepsD.of)
    | (extract_lets +onlyGivenNames x; refine Keeps.cut (s := s₀) (t := x) ?_ (fun hx => ?_); (on_goal 1 => (unfold x; clear x)); (on_goal 2 => clear_value x))
    | (extract_lets +onlyGivenNames x; refine Keeps.cut2 (s := s₀) (x := x) ?_ (fun hx => ?_); (on_goal 1 => (unfold x; clear x)); (on_goal 2 => clear_value x))
    | (extract_lets +onlyGivenNames x; refine Keeps.cut2 (s := s₀) (x := x.2) ?_ (fun hx => ?_); (on_goal 1 => (unfold x; clear x)); (on_goal 2 => clear_value x))
    | (extract_lets +onlyGivenNames x; (have hv : x = x := by unfold x; exact Eq.refl _); clear hv; clear_value x)
    | with_reducible apply Keeps.ite
    | with_reducible apply State.answer_keeps
    | split

theorem State.endSwitch_keeps {s₀ : State} {s : State} {status : Nat} (hk : Keeps s₀ s) :
    Keeps s₀ (State.endSwitch s status) := by
  unfold State.endSwitch
  repeat' first
    | with_reducible assumption
    | (dsimp only [Keeps.mk_eq]; with_reducible apply KeepsD.of)
    | (extract_lets +onlyGivenNames x; refine Keeps.cut (s := s₀) (t := x) ?_ (fun hx => ?_); (on_goal 1 => (unfold x; clear x)); (on_goal 2 => clear_value x))
    | (extract_lets +onlyGivenNames x; refine Keeps.cut2 (s := s₀) (x := x) ?_ (fun hx => ?_); (on_goal 1 => (unfold x; clear x)); (on_goal 2 => clear_value x))
    | (extract_lets +onlyGivenNames x; refine Keeps.cut2 (s := s₀) (x := x.2) ?_ (fun hx => ?_); (on_goal 1 => (unfold x; clear x)); (on_goal 2 => clear_value x))
    | (extract_lets +onlyGivenNames x; (have hv : x = x := by unfold x; exact Eq.refl _); clear hv; clear_value x)
    | with_reducible apply State.setF_keeps
    | with_reducible apply State.switchReply_keeps

theorem State.fence_keeps {s₀ : State} {s : State} {reason : Nat} (hk : Keeps s₀ s) :
    Keeps s₀ (State.fence s reason) := by
  unfold State.fence
  repeat' first
    | with_reducible assumption
    | with_reducible apply State.sendEdge_keeps
    | with_reducible apply State.setF_keeps
    | with_reducible apply State.dropLease_keeps
    | with_reducible apply State.setRole_keeps
    | with_reducible apply State.endSwitch_keeps

theorem State.takeSending_keeps {s₀ : State} {s : State} {r : Nat} {gap : Bool} (hk : Keeps s₀ s) :
    Keeps s₀ (State.takeSending s r gap) := by
  unfold State.takeSending
  repeat' first
    | with_reducible assumption
    | (dsimp only [Keeps.mk_eq]; with_reducible apply KeepsD.of)
    | (extract_lets +onlyGivenNames x; refine Keeps.cut (s := s₀) (t := x) ?_ (fun hx => ?_); (on_goal 1 => (unfold x; clear x)); (on_goal 2 => clear_value x))
    | (extract_lets +onlyGivenNames x; refine Keeps.cut2 (s := s₀) (x := x) ?_ (fun hx => ?_); (on_goal 1 => (unfold x; clear x)); (on_goal 2 => clear_value x))
    | (extract_lets +onlyGivenNames x; refine Keeps.cut2 (s := s₀) (x := x.2) ?_ (fun hx => ?_); (on_goal 1 => (unfold x; clear x)); (on_goal 2 => clear_value x))
    | (extract_lets +onlyGivenNames x; (have hv : x = x := by unfold x; exact Eq.refl _); clear hv; clear_value x)
    | with_reducible apply Keeps.ite
    | with_reducible apply State.setF_keeps
    | with_reducible apply State.renewLease_keeps
    | with_reducible apply State.sendEdge_keeps
    | with_reducible apply State.setRole_keeps
    | split

theorem State.takeover_keeps {s₀ : State} {s : State} {gap : Bool} (hk : Keeps s₀ s) :
    Keeps s₀ (State.takeover s gap) := by
  unfold State.takeover
  repeat' first
    | with_reducible assumption
    | (extract_lets +onlyGivenNames x; refine Keeps.cut (s := s₀) (t := x) ?_ (fun hx => ?_); (on_goal 1 => (unfold x; clear x)); (on_goal 2 => clear_value x))
    | (extract_lets +onlyGivenNames x; refine Keeps.cut2 (s := s₀) (x := x) ?_ (fun hx => ?_); (on_goal 1 => (unfold x; clear x)); (on_goal 2 => clear_value x))
    | (extract_lets +onlyGivenNames x; refine Keeps.cut2 (s := s₀) (x := x.2) ?_ (fun hx => ?_); (on_goal 1 => (unfold x; clear x)); (on_goal 2 => clear_value x))
    | (extract_lets +onlyGivenNames x; (have hv : x = x := by unfold x; exact Eq.refl _); clear hv; clear_value x)
    | with_reducible apply Keeps.ite
    | with_reducible apply State.prcBump_keeps
    | with_reducible apply State.cnt15_keeps
    | with_reducible apply State.takeSending_keeps
    | split

theorem State.singleAlone_keeps {s₀ : State} {s : State} (hk : Keeps s₀ s) :
    Keeps s₀ (State.singleAlone s) := by
  unfold State.singleAlone
  repeat' first
    | with_reducible assumption
    | with_reducible apply Keeps.ite
    | with_reducible apply State.takeSending_keeps
    | split

theorem State.refreshReady_keeps {s₀ : State} {s : State} (hk : Keeps s₀ s) :
    Keeps s₀ (State.refreshReady s) := by
  unfold State.refreshReady
  repeat' first
    | with_reducible assumption
    | (dsimp only [Keeps.mk_eq]; with_reducible apply KeepsD.of)
    | (extract_lets +onlyGivenNames x; refine Keeps.cut (s := s₀) (t := x) ?_ (fun hx => ?_); (on_goal 1 => (unfold x; clear x)); (on_goal 2 => clear_value x))
    | (extract_lets +onlyGivenNames x; refine Keeps.cut2 (s := s₀) (x := x) ?_ (fun hx => ?_); (on_goal 1 => (unfold x; clear x)); (on_goal 2 => clear_value x))
    | (extract_lets +onlyGivenNames x; refine Keeps.cut2 (s := s₀) (x := x.2) ?_ (fun hx => ?_); (on_goal 1 => (unfold x; clear x)); (on_goal 2 => clear_value x))
    | (extract_lets +onlyGivenNames x; (have hv : x = x := by unfold x; exact Eq.refl _); clear hv; clear_value x)
    | with_reducible apply State.setF_keeps
    | with_reducible apply State.setB_keeps
    | with_reducible apply State.singleAlone_keeps

theorem State.evalReady_keeps {s₀ : State} {s : State} (hk : Keeps s₀ s) :
    Keeps s₀ (State.evalReady s) := by
  unfold State.evalReady
  repeat' first
    | with_reducible assumption
    | with_reducible apply State.pubFlush_keeps
    | with_reducible apply State.refreshReady_keeps

theorem State.pairSend_keeps {s₀ : State} {s : State} {kind : Nat} {payload : Octets} (hk : Keeps s₀ s) :
    Keeps s₀ (State.pairSend s kind payload) := by
  unfold State.pairSend
  repeat' first
    | with_reducible assumption
    | (dsimp only [Keeps.mk_eq]; with_reducible apply KeepsD.of)
    | (extract_lets +onlyGivenNames x; refine Keeps.cut (s := s₀) (t := x) ?_ (fun hx => ?_); (on_goal 1 => (unfold x; clear x)); (on_goal 2 => clear_value x))
    | (extract_lets +onlyGivenNames x; refine Keeps.cut2 (s := s₀) (x := x) ?_ (fun hx => ?_); (on_goal 1 => (unfold x; clear x)); (on_goal 2 => clear_value x))
    | (extract_lets +onlyGivenNames x; refine Keeps.cut2 (s := s₀) (x := x.2) ?_ (fun hx => ?_); (on_goal 1 => (unfold x; clear x)); (on_goal 2 => clear_value x))
    | (extract_lets +onlyGivenNames x; (have hv : x = x := by unfold x; exact Eq.refl _); clear hv; clear_value x)
    | with_reducible apply State.txSubmit_keeps
    | with_reducible apply Keeps.foldl
    | with_reducible apply Keeps.foldl2
    | (intro _; intros; try beta_reduce)

theorem State.imageReq_keeps {s₀ : State} {s : State} {c : Nat} (hk : Keeps s₀ s) :
    Keeps s₀ (State.imageReq s c) := by
  unfold State.imageReq
  repeat' first
    | with_reducible assumption
    | (dsimp only [Keeps.mk_eq]; with_reducible apply KeepsD.of)
    | (extract_lets +onlyGivenNames x; refine Keeps.cut (s := s₀) (t := x) ?_ (fun hx => ?_); (on_goal 1 => (unfold x; clear x)); (on_goal 2 => clear_value x))
    | (extract_lets +onlyGivenNames x; refine Keeps.cut2 (s := s₀) (x := x) ?_ (fun hx => ?_); (on_goal 1 => (unfold x; clear x)); (on_goal 2 => clear_value x))
    | (extract_lets +onlyGivenNames x; refine Keeps.cut2 (s := s₀) (x := x.2) ?_ (fun hx => ?_); (on_goal 1 => (unfold x; clear x)); (on_goal 2 => clear_value x))
    | (extract_lets +onlyGivenNames x; (have hv : x = x := by unfold x; exact Eq.refl _); clear hv; clear_value x)
    | with_reducible apply State.pairSend_keeps

theorem State.joinWatch_keeps {s₀ : State} {s : State} {e : Nat} (hk : Keeps s₀ s) :
    Keeps s₀ (State.joinWatch s e) := by
  unfold State.joinWatch
  repeat' first
    | with_reducible assumption
    | (extract_lets +onlyGivenNames x; refine Keeps.cut (s := s₀) (t := x) ?_ (fun hx => ?_); (on_goal 1 => (unfold x; clear x)); (on_goal 2 => clear_value x))
    | (extract_lets +onlyGivenNames x; refine Keeps.cut2 (s := s₀) (x := x) ?_ (fun hx => ?_); (on_goal 1 => (unfold x; clear x)); (on_goal 2 => clear_value x))
    | (extract_lets +onlyGivenNames x; refine Keeps.cut2 (s := s₀) (x := x.2) ?_ (fun hx => ?_); (on_goal 1 => (unfold x; clear x)); (on_goal 2 => clear_value x))
    | (extract_lets +onlyGivenNames x; (have hv : x = x := by unfold x; exact Eq.refl _); clear hv; clear_value x)
    | with_reducible apply State.setF_keeps
    | with_reducible apply State.sendEdge_keeps
    | with_reducible apply State.imageReq_keeps
    | with_reducible apply State.dropLease_keeps
    | with_reducible apply State.setRole_keeps
    | with_reducible apply State.setB_keeps
    | with_reducible apply Keeps.foldl
    | with_reducible apply Keeps.foldl2
    | (intro _; intros; try beta_reduce)

theorem State.setDigests_keeps {s₀ : State} {s : State} {own peer : List Digest} (hk : Keeps s₀ s) :
    Keeps s₀ (State.setDigests s own peer) := by
  unfold State.setDigests
  repeat' first
    | with_reducible assumption
    | (dsimp only [Keeps.mk_eq]; with_reducible apply KeepsD.of)

theorem State.evalAligned_keeps {s₀ : State} {s : State} (hk : Keeps s₀ s) :
    Keeps s₀ (State.evalAligned s) := by
  unfold State.evalAligned
  repeat' first
    | with_reducible assumption
    | with_reducible apply State.setB_keeps
    | split
    | (intro _; intros; try beta_reduce)

theorem State.expireDigests_keeps {s₀ : State} {s : State} (hk : Keeps s₀ s) :
    Keeps s₀ (State.expireDigests s) := by
  unfold State.expireDigests
  repeat' first
    | with_reducible assumption
    | (dsimp only [Keeps.mk_eq]; with_reducible apply KeepsD.of)
    | (extract_lets +onlyGivenNames x; refine Keeps.cut (s := s₀) (t := x) ?_ (fun hx => ?_); (on_goal 1 => (unfold x; clear x)); (on_goal 2 => clear_value x))
    | (extract_lets +onlyGivenNames x; refine Keeps.cut2 (s := s₀) (x := x) ?_ (fun hx => ?_); (on_goal 1 => (unfold x; clear x)); (on_goal 2 => clear_value x))
    | (extract_lets +onlyGivenNames x; refine Keeps.cut2 (s := s₀) (x := x.2) ?_ (fun hx => ?_); (on_goal 1 => (unfold x; clear x)); (on_goal 2 => clear_value x))
    | (extract_lets +onlyGivenNames x; refine Keeps.cutF1 (s := s₀) (f := x) ?_ (fun kx => ?_); (on_goal 1 => (unfold x; clear x; intros; beta_reduce)); (on_goal 2 => clear_value x))
    | (extract_lets +onlyGivenNames x; refine Keeps.cutF2 (s := s₀) (f := x) ?_ (fun kx => ?_); (on_goal 1 => (unfold x; clear x; intros; beta_reduce)); (on_goal 2 => clear_value x))
    | (extract_lets +onlyGivenNames x; refine Keeps.cutG2 (s := s₀) (f := x) ?_ (fun kx => ?_); (on_goal 1 => (unfold x; clear x; intros; beta_reduce)); (on_goal 2 => clear_value x))
    | (extract_lets +onlyGivenNames x; refine Keeps.cutF3 (s := s₀) (f := x) ?_ (fun kx => ?_); (on_goal 1 => (unfold x; clear x; intros; beta_reduce)); (on_goal 2 => clear_value x))
    | (extract_lets +onlyGivenNames x; refine Keeps.cutF4 (s := s₀) (f := x) ?_ (fun kx => ?_); (on_goal 1 => (unfold x; clear x; intros; beta_reduce)); (on_goal 2 => clear_value x))
    | (extract_lets +onlyGivenNames x; (have hv : x = x := by unfold x; exact Eq.refl _); clear hv; clear_value x)
    | with_reducible apply State.bumpBy_keeps
    | with_reducible apply State.setDigests_keeps
    | apply kx
    | (intro _; intros; try beta_reduce)

theorem State.digestPair_keeps {s₀ : State} {s : State} {c : Nat} {same : Bool} (hk : Keeps s₀ s) :
    Keeps s₀ (State.digestPair s c same) := by
  unfold State.digestPair
  repeat' first
    | with_reducible assumption
    | (dsimp only [Keeps.mk_eq]; with_reducible apply KeepsD.of)
    | (extract_lets +onlyGivenNames x; refine Keeps.cut (s := s₀) (t := x) ?_ (fun hx => ?_); (on_goal 1 => (unfold x; clear x)); (on_goal 2 => clear_value x))
    | (extract_lets +onlyGivenNames x; refine Keeps.cut2 (s := s₀) (x := x) ?_ (fun hx => ?_); (on_goal 1 => (unfold x; clear x)); (on_goal 2 => clear_value x))
    | (extract_lets +onlyGivenNames x; refine Keeps.cut2 (s := s₀) (x := x.2) ?_ (fun hx => ?_); (on_goal 1 => (unfold x; clear x)); (on_goal 2 => clear_value x))
    | (extract_lets +onlyGivenNames x; (have hv : x = x := by unfold x; exact Eq.refl _); clear hv; clear_value x)
    | with_reducible apply Keeps.ite
    | with_reducible apply State.prcBump_keeps
    | with_reducible apply State.imageReq_keeps
    | with_reducible apply State.evalAligned_keeps
    | with_reducible apply State.setF_keeps
    | split

theorem State.digestPoint_keeps {s₀ : State} {s : State} {c n : Nat} {stamp : Time} (hk : Keeps s₀ s) :
    Keeps s₀ (State.digestPoint s c n stamp) := by
  unfold State.digestPoint
  dsimp only
  repeat' first
    | with_reducible assumption
    | (dsimp only [Keeps.mk_eq]; with_reducible apply KeepsD.of)
    | with_reducible apply Keeps.ite
    | with_reducible apply State.pairSend_keeps
    | with_reducible apply State.digestPair_keeps
    | with_reducible apply State.expireDigests_keeps
    | with_reducible apply State.setDigests_keeps
    | with_reducible apply State.evalAligned_keeps
    | split

theorem State.peerPublication_keeps {s₀ : State} {s : State} (hk : Keeps s₀ s) :
    Keeps s₀ (State.peerPublication s) := by
  unfold State.peerPublication
  repeat' first
    | with_reducible assumption
    | (dsimp only [Keeps.mk_eq]; with_reducible apply KeepsD.of)
    | with_reducible apply State.cnt15_keeps

theorem State.cicadaSend_keeps {s₀ : State} {s : State} (hk : Keeps s₀ s) :
    Keeps s₀ (State.cicadaSend s) := by
  unfold State.cicadaSend
  repeat' first
    | with_reducible assumption
    | (dsimp only [Keeps.mk_eq]; with_reducible apply KeepsD.of)
    | (extract_lets +onlyGivenNames x; refine Keeps.cut (s := s₀) (t := x) ?_ (fun hx => ?_); (on_goal 1 => (unfold x; clear x)); (on_goal 2 => clear_value x))
    | (extract_lets +onlyGivenNames x; refine Keeps.cut2 (s := s₀) (x := x) ?_ (fun hx => ?_); (on_goal 1 => (unfold x; clear x)); (on_goal 2 => clear_value x))
    | (extract_lets +onlyGivenNames x; refine Keeps.cut2 (s := s₀) (x := x.2) ?_ (fun hx => ?_); (on_goal 1 => (unfold x; clear x)); (on_goal 2 => clear_value x))
    | (extract_lets +onlyGivenNames x; refine Keeps.cutF1 (s := s₀) (f := x) ?_ (fun kx => ?_); (on_goal 1 => (unfold x; clear x; intros; beta_reduce)); (on_goal 2 => clear_value x))
    | (extract_lets +onlyGivenNames x; refine Keeps.cutF2 (s := s₀) (f := x) ?_ (fun kx => ?_); (on_goal 1 => (unfold x; clear x; intros; beta_reduce)); (on_goal 2 => clear_value x))
    | (extract_lets +onlyGivenNames x; refine Keeps.cutG2 (s := s₀) (f := x) ?_ (fun kx => ?_); (on_goal 1 => (unfold x; clear x; intros; beta_reduce)); (on_goal 2 => clear_value x))
    | (extract_lets +onlyGivenNames x; refine Keeps.cutF3 (s := s₀) (f := x) ?_ (fun kx => ?_); (on_goal 1 => (unfold x; clear x; intros; beta_reduce)); (on_goal 2 => clear_value x))
    | (extract_lets +onlyGivenNames x; refine Keeps.cutF4 (s := s₀) (f := x) ?_ (fun kx => ?_); (on_goal 1 => (unfold x; clear x; intros; beta_reduce)); (on_goal 2 => clear_value x))
    | (extract_lets +onlyGivenNames x; (have hv : x = x := by unfold x; exact Eq.refl _); clear hv; clear_value x)
    | with_reducible apply Keeps.ite
    | with_reducible apply State.setF_keeps
    | with_reducible apply State.drawn_keeps
    | with_reducible apply State.wvlCount_keeps
    | with_reducible apply State.bump_keeps
    | apply kx
    | split
    | (intro _; intros; try beta_reduce)

theorem State.heartbeat_keeps {s₀ : State} {s : State} (hk : Keeps s₀ s) :
    Keeps s₀ (State.heartbeat s) := by
  unfold State.heartbeat
  repeat' first
    | with_reducible assumption
    | with_reducible apply State.pairSend_keeps
    | with_reducible apply State.cicadaSend_keeps

theorem State.pubSyncTx_keeps {s₀ : State} {s : State} (hk : Keeps s₀ s) :
    Keeps s₀ (State.pubSyncTx s) := by
  unfold State.pubSyncTx
  repeat' first
    | with_reducible assumption
    | (dsimp only [Keeps.mk_eq]; with_reducible apply KeepsD.of)
    | (extract_lets +onlyGivenNames x; refine Keeps.cut (s := s₀) (t := x) ?_ (fun hx => ?_); (on_goal 1 => (unfold x; clear x)); (on_goal 2 => clear_value x))
    | (extract_lets +onlyGivenNames x; refine Keeps.cut2 (s := s₀) (x := x) ?_ (fun hx => ?_); (on_goal 1 => (unfold x; clear x)); (on_goal 2 => clear_value x))
    | (extract_lets +onlyGivenNames x; refine Keeps.cut2 (s := s₀) (x := x.2) ?_ (fun hx => ?_); (on_goal 1 => (unfold x; clear x)); (on_goal 2 => clear_value x))
    | (extract_lets +onlyGivenNames x; (have hv : x = x := by unfold x; exact Eq.refl _); clear hv; clear_value x)
    | with_reducible apply Keeps.ite
    | with_reducible apply State.pairSend_keeps
    | with_reducible apply State.modPub_keeps
    | with_reducible apply Keeps.foldl
    | with_reducible apply Keeps.foldl2
    | split
    | (intro _; intros; try beta_reduce)

theorem State.tickRows_keeps {s₀ : State} {s : State} (hk : Keeps s₀ s) :
    Keeps s₀ (State.tickRows s) := by
  unfold State.tickRows
  repeat' first
    | with_reducible assumption
    | (dsimp only [Keeps.mk_eq]; with_reducible apply KeepsD.of)
    | (extract_lets +onlyGivenNames x; refine Keeps.cut (s := s₀) (t := x) ?_ (fun hx => ?_); (on_goal 1 => (unfold x; clear x)); (on_goal 2 => clear_value x))
    | (extract_lets +onlyGivenNames x; refine Keeps.cut2 (s := s₀) (x := x) ?_ (fun hx => ?_); (on_goal 1 => (unfold x; clear x)); (on_goal 2 => clear_value x))
    | (extract_lets +onlyGivenNames x; refine Keeps.cut2 (s := s₀) (x := x.2) ?_ (fun hx => ?_); (on_goal 1 => (unfold x; clear x)); (on_goal 2 => clear_value x))
    | (extract_lets +onlyGivenNames x; (have hv : x = x := by unfold x; exact Eq.refl _); clear hv; clear_value x)
    | with_reducible apply Keeps.ite
    | with_reducible apply State.takeSending_keeps
    | split

theorem State.switchStart_keeps {s₀ : State} {s : State} (hk : Keeps s₀ s) :
    Keeps s₀ (State.switchStart s) := by
  unfold State.switchStart
  repeat' first
    | with_reducible assumption
    | (dsimp only [Keeps.mk_eq]; with_reducible apply KeepsD.of)
    | (extract_lets +onlyGivenNames x; refine Keeps.cut (s := s₀) (t := x) ?_ (fun hx => ?_); (on_goal 1 => (unfold x; clear x)); (on_goal 2 => clear_value x))
    | (extract_lets +onlyGivenNames x; refine Keeps.cut2 (s := s₀) (x := x) ?_ (fun hx => ?_); (on_goal 1 => (unfold x; clear x)); (on_goal 2 => clear_value x))
    | (extract_lets +onlyGivenNames x; refine Keeps.cut2 (s := s₀) (x := x.2) ?_ (fun hx => ?_); (on_goal 1 => (unfold x; clear x)); (on_goal 2 => clear_value x))
    | (extract_lets +onlyGivenNames x; (have hv : x = x := by unfold x; exact Eq.refl _); clear hv; clear_value x)
    | with_reducible apply Keeps.ite
    | with_reducible apply State.handOwn_keeps
    | with_reducible apply State.setF_keeps
    | with_reducible apply State.sendEdge_keeps
    | with_reducible apply State.dropLease_keeps
    | split

theorem State.tickLease_keeps {s₀ : State} {s : State} (hk : Keeps s₀ s) :
    Keeps s₀ (State.tickLease s) := by
  unfold State.tickLease
  repeat' first
    | with_reducible assumption
    | with_reducible apply Keeps.ite
    | with_reducible apply State.sendEdge_keeps
    | with_reducible apply State.renewLease_keeps
    | split

theorem heartbeatTick_keeps {s₀ : State} {s : State} (hk : Keeps s₀ s) :
    Keeps s₀ (heartbeatTick s) := by
  unfold heartbeatTick
  repeat' first
    | with_reducible assumption
    | (dsimp only [Keeps.mk_eq]; with_reducible apply KeepsD.of)
    | (extract_lets +onlyGivenNames x; refine Keeps.cut (s := s₀) (t := x) ?_ (fun hx => ?_); (on_goal 1 => (unfold x; clear x)); (on_goal 2 => clear_value x))
    | (extract_lets +onlyGivenNames x; refine Keeps.cut2 (s := s₀) (x := x) ?_ (fun hx => ?_); (on_goal 1 => (unfold x; clear x)); (on_goal 2 => clear_value x))
    | (extract_lets +onlyGivenNames x; refine Keeps.cut2 (s := s₀) (x := x.2) ?_ (fun hx => ?_); (on_goal 1 => (unfold x; clear x)); (on_goal 2 => clear_value x))
    | (extract_lets +onlyGivenNames x; (have hv : x = x := by unfold x; exact Eq.refl _); clear hv; clear_value x)
    | with_reducible apply Keeps.ite
    | with_reducible apply State.advanceTo_keeps
    | with_reducible apply State.tickLease_keeps
    | with_reducible apply State.heartbeat_keeps
    | with_reducible apply State.singleAlone_keeps
    | with_reducible apply State.tickRows_keeps
    | with_reducible apply State.switchStart_keeps
    | with_reducible apply State.pubSyncTx_keeps
    | split

theorem execHeartbeatTick_keeps {s₀ : State} {s : State} (hk : Keeps s₀ s) :
    KeepsR s₀ (execHeartbeatTick s) := by
  exact KeepsR.next (heartbeatTick_keeps hk)

theorem State.peerRows_keeps {s₀ : State} {s : State} {o : Octets} (hk : Keeps s₀ s) :
    Keeps s₀ (State.peerRows s o) := by
  unfold State.peerRows
  repeat' first
    | with_reducible assumption
    | (dsimp only [Keeps.mk_eq]; with_reducible apply KeepsD.of)
    | (extract_lets +onlyGivenNames x; refine Keeps.cut (s := s₀) (t := x) ?_ (fun hx => ?_); (on_goal 1 => (unfold x; clear x)); (on_goal 2 => clear_value x))
    | (extract_lets +onlyGivenNames x; refine Keeps.cut2 (s := s₀) (x := x) ?_ (fun hx => ?_); (on_goal 1 => (unfold x; clear x)); (on_goal 2 => clear_value x))
    | (extract_lets +onlyGivenNames x; refine Keeps.cut2 (s := s₀) (x := x.2) ?_ (fun hx => ?_); (on_goal 1 => (unfold x; clear x)); (on_goal 2 => clear_value x))
    | (extract_lets +onlyGivenNames x; (have hv : x = x := by unfold x; exact Eq.refl _); clear hv; clear_value x)
    | with_reducible apply Keeps.ite
    | with_reducible apply State.joinWatch_keeps
    | with_reducible apply State.fence_keeps
    | with_reducible apply State.prcBump_keeps
    | with_reducible apply State.setF_keeps
    | with_reducible apply State.sendEdge_keeps
    | with_reducible apply State.setRole_keeps
    | with_reducible apply State.takeover_keeps
    | with_reducible apply State.endSwitch_keeps
    | with_reducible apply State.renewLease_keeps
    | with_reducible apply State.dropParts_keeps
    | split
    | (intro _; intros; try beta_reduce)

theorem State.refuseHb_keeps {s₀ : State} {s : State} {cnt reason : Nat} (hk : Keeps s₀ s) :
    Keeps s₀ (State.refuseHb s cnt reason) := by
  unfold State.refuseHb
  repeat' first
    | with_reducible assumption
    | (extract_lets +onlyGivenNames x; refine Keeps.cut (s := s₀) (t := x) ?_ (fun hx => ?_); (on_goal 1 => (unfold x; clear x)); (on_goal 2 => clear_value x))
    | (extract_lets +onlyGivenNames x; refine Keeps.cut2 (s := s₀) (x := x) ?_ (fun hx => ?_); (on_goal 1 => (unfold x; clear x)); (on_goal 2 => clear_value x))
    | (extract_lets +onlyGivenNames x; refine Keeps.cut2 (s := s₀) (x := x.2) ?_ (fun hx => ?_); (on_goal 1 => (unfold x; clear x)); (on_goal 2 => clear_value x))
    | (extract_lets +onlyGivenNames x; (have hv : x = x := by unfold x; exact Eq.refl _); clear hv; clear_value x)
    | with_reducible apply Keeps.ite
    | with_reducible apply State.prcBump_keeps
    | with_reducible apply State.setF_keeps
    | with_reducible apply State.fence_keeps
    | split

theorem State.markSeen_keeps {s₀ : State} {s : State} {m : Nat} (hk : Keeps s₀ s) :
    Keeps s₀ (State.markSeen s m) := by
  unfold State.markSeen
  repeat' first
    | with_reducible assumption
    | (dsimp only [Keeps.mk_eq]; with_reducible apply KeepsD.of)

theorem heartbeatRx_keeps {s₀ : State} {h : HbRx} {s : State} (hk : Keeps s₀ s) :
    Keeps s₀ (heartbeatRx h s) := by
  unfold heartbeatRx
  repeat' first
    | with_reducible assumption
    | (dsimp only [Keeps.mk_eq]; with_reducible apply KeepsD.of)
    | (extract_lets +onlyGivenNames x; refine Keeps.cut (s := s₀) (t := x) ?_ (fun hx => ?_); (on_goal 1 => (unfold x; clear x)); (on_goal 2 => clear_value x))
    | (extract_lets +onlyGivenNames x; refine Keeps.cut2 (s := s₀) (x := x) ?_ (fun hx => ?_); (on_goal 1 => (unfold x; clear x)); (on_goal 2 => clear_value x))
    | (extract_lets +onlyGivenNames x; refine Keeps.cut2 (s := s₀) (x := x.2) ?_ (fun hx => ?_); (on_goal 1 => (unfold x; clear x)); (on_goal 2 => clear_value x))
    | (extract_lets +onlyGivenNames x; (have hv : x = x := by unfold x; exact Eq.refl _); clear hv; clear_value x)
    | with_reducible apply Keeps.ite
    | with_reducible apply State.bump_keeps
    | with_reducible apply State.setF_keeps
    | with_reducible apply State.markSeen_keeps
    | with_reducible apply State.refuseHb_keeps
    | with_reducible apply State.prcBump_keeps
    | with_reducible apply State.peerRows_keeps
    | split

theorem peerSilence_keeps {s₀ : State} {s : State} (hk : Keeps s₀ s) :
    Keeps s₀ (peerSilence s) := by
  unfold peerSilence
  repeat' first
    | with_reducible assumption
    | (extract_lets +onlyGivenNames x; refine Keeps.cut (s := s₀) (t := x) ?_ (fun hx => ?_); (on_goal 1 => (unfold x; clear x)); (on_goal 2 => clear_value x))
    | (extract_lets +onlyGivenNames x; refine Keeps.cut2 (s := s₀) (x := x) ?_ (fun hx => ?_); (on_goal 1 => (unfold x; clear x)); (on_goal 2 => clear_value x))
    | (extract_lets +onlyGivenNames x; refine Keeps.cut2 (s := s₀) (x := x.2) ?_ (fun hx => ?_); (on_goal 1 => (unfold x; clear x)); (on_goal 2 => clear_value x))
    | (extract_lets +onlyGivenNames x; (have hv : x = x := by unfold x; exact Eq.refl _); clear hv; clear_value x)
    | with_reducible apply Keeps.ite
    | with_reducible apply State.advanceTo_keeps
    | with_reducible apply State.prcBump_keeps
    | with_reducible apply State.fence_keeps
    | with_reducible apply State.takeover_keeps
    | split

theorem execPeerSilence_keeps {s₀ : State} {s : State} (hk : Keeps s₀ s) :
    KeepsR s₀ (execPeerSilence s) := by
  exact KeepsR.next (peerSilence_keeps hk)

theorem soloWaitExpiry_keeps {s₀ : State} {s : State} (hk : Keeps s₀ s) :
    Keeps s₀ (soloWaitExpiry s) := by
  unfold soloWaitExpiry
  repeat' first
    | with_reducible assumption
    | (dsimp only [Keeps.mk_eq]; with_reducible apply KeepsD.of)
    | (extract_lets +onlyGivenNames x; refine Keeps.cut (s := s₀) (t := x) ?_ (fun hx => ?_); (on_goal 1 => (unfold x; clear x)); (on_goal 2 => clear_value x))
    | (extract_lets +onlyGivenNames x; refine Keeps.cut2 (s := s₀) (x := x) ?_ (fun hx => ?_); (on_goal 1 => (unfold x; clear x)); (on_goal 2 => clear_value x))
    | (extract_lets +onlyGivenNames x; refine Keeps.cut2 (s := s₀) (x := x.2) ?_ (fun hx => ?_); (on_goal 1 => (unfold x; clear x)); (on_goal 2 => clear_value x))
    | (extract_lets +onlyGivenNames x; (have hv : x = x := by unfold x; exact Eq.refl _); clear hv; clear_value x)
    | with_reducible apply Keeps.ite
    | with_reducible apply State.advanceTo_keeps
    | with_reducible apply State.takeSending_keeps
    | split

theorem execSoloWaitExpiry_keeps {s₀ : State} {s : State} (hk : Keeps s₀ s) :
    KeepsR s₀ (execSoloWaitExpiry s) := by
  exact KeepsR.next (soloWaitExpiry_keeps hk)

theorem leaseLapse_keeps {s₀ : State} {s : State} (hk : Keeps s₀ s) :
    Keeps s₀ (leaseLapse s) := by
  unfold leaseLapse
  repeat' first
    | with_reducible assumption
    | (extract_lets +onlyGivenNames x; refine Keeps.cut (s := s₀) (t := x) ?_ (fun hx => ?_); (on_goal 1 => (unfold x; clear x)); (on_goal 2 => clear_value x))
    | (extract_lets +onlyGivenNames x; refine Keeps.cut2 (s := s₀) (x := x) ?_ (fun hx => ?_); (on_goal 1 => (unfold x; clear x)); (on_goal 2 => clear_value x))
    | (extract_lets +onlyGivenNames x; refine Keeps.cut2 (s := s₀) (x := x.2) ?_ (fun hx => ?_); (on_goal 1 => (unfold x; clear x)); (on_goal 2 => clear_value x))
    | (extract_lets +onlyGivenNames x; (have hv : x = x := by unfold x; exact Eq.refl _); clear hv; clear_value x)
    | with_reducible apply Keeps.ite
    | with_reducible apply State.advanceTo_keeps
    | with_reducible apply State.sendEdge_keeps
    | with_reducible apply State.dropLease_keeps
    | with_reducible apply State.handOwn_keeps
    | split

theorem execLeaseLapse_keeps {s₀ : State} {s : State} (hk : Keeps s₀ s) :
    KeepsR s₀ (execLeaseLapse s) := by
  exact KeepsR.next (leaseLapse_keeps hk)

theorem takeoverGapEnd_keeps {s₀ : State} {s : State} (hk : Keeps s₀ s) :
    Keeps s₀ (takeoverGapEnd s) := by
  unfold takeoverGapEnd
  repeat' first
    | with_reducible assumption
    | (extract_lets +onlyGivenNames x; refine Keeps.cut (s := s₀) (t := x) ?_ (fun hx => ?_); (on_goal 1 => (unfold x; clear x)); (on_goal 2 => clear_value x))
    | (extract_lets +onlyGivenNames x; refine Keeps.cut2 (s := s₀) (x := x) ?_ (fun hx => ?_); (on_goal 1 => (unfold x; clear x)); (on_goal 2 => clear_value x))
    | (extract_lets +onlyGivenNames x; refine Keeps.cut2 (s := s₀) (x := x.2) ?_ (fun hx => ?_); (on_goal 1 => (unfold x; clear x)); (on_goal 2 => clear_value x))
    | (extract_lets +onlyGivenNames x; (have hv : x = x := by unfold x; exact Eq.refl _); clear hv; clear_value x)
    | with_reducible apply Keeps.ite
    | with_reducible apply State.advanceTo_keeps
    | with_reducible apply State.sendEdge_keeps
    | with_reducible apply State.setF_keeps
    | with_reducible apply State.renewLease_keeps
    | split

theorem execTakeoverGapEnd_keeps {s₀ : State} {s : State} (hk : Keeps s₀ s) :
    KeepsR s₀ (execTakeoverGapEnd s) := by
  exact KeepsR.next (takeoverGapEnd_keeps hk)

theorem handoverTx_keeps {s₀ : State} {s : State} (hk : Keeps s₀ s) :
    Keeps s₀ (handoverTx s) := by
  unfold handoverTx
  repeat' first
    | with_reducible assumption
    | (dsimp only [Keeps.mk_eq]; with_reducible apply KeepsD.of)
    | (extract_lets +onlyGivenNames x; refine Keeps.cut (s := s₀) (t := x) ?_ (fun hx => ?_); (on_goal 1 => (unfold x; clear x)); (on_goal 2 => clear_value x))
    | (extract_lets +onlyGivenNames x; refine Keeps.cut2 (s := s₀) (x := x) ?_ (fun hx => ?_); (on_goal 1 => (unfold x; clear x)); (on_goal 2 => clear_value x))
    | (extract_lets +onlyGivenNames x; refine Keeps.cut2 (s := s₀) (x := x.2) ?_ (fun hx => ?_); (on_goal 1 => (unfold x; clear x)); (on_goal 2 => clear_value x))
    | (extract_lets +onlyGivenNames x; (have hv : x = x := by unfold x; exact Eq.refl _); clear hv; clear_value x)
    | with_reducible apply Keeps.ite
    | with_reducible apply State.advanceTo_keeps
    | with_reducible apply State.pairSend_keeps
    | split
    | (intro _; intros; try beta_reduce)

theorem execHandoverTx_keeps {s₀ : State} {s : State} (hk : Keeps s₀ s) :
    KeepsR s₀ (execHandoverTx s) := by
  exact KeepsR.next (handoverTx_keeps hk)

theorem switchTimeout_keeps {s₀ : State} {s : State} (hk : Keeps s₀ s) :
    Keeps s₀ (switchTimeout s) := by
  unfold switchTimeout
  repeat' first
    | with_reducible assumption
    | (dsimp only [Keeps.mk_eq]; with_reducible apply KeepsD.of)
    | (extract_lets +onlyGivenNames x; refine Keeps.cut (s := s₀) (t := x) ?_ (fun hx => ?_); (on_goal 1 => (unfold x; clear x)); (on_goal 2 => clear_value x))
    | (extract_lets +onlyGivenNames x; refine Keeps.cut2 (s := s₀) (x := x) ?_ (fun hx => ?_); (on_goal 1 => (unfold x; clear x)); (on_goal 2 => clear_value x))
    | (extract_lets +onlyGivenNames x; refine Keeps.cut2 (s := s₀) (x := x.2) ?_ (fun hx => ?_); (on_goal 1 => (unfold x; clear x)); (on_goal 2 => clear_value x))
    | (extract_lets +onlyGivenNames x; (have hv : x = x := by unfold x; exact Eq.refl _); clear hv; clear_value x)
    | with_reducible apply Keeps.ite
    | with_reducible apply State.advanceTo_keeps
    | with_reducible apply State.sendEdge_keeps
    | with_reducible apply State.setF_keeps
    | with_reducible apply State.prcBump_keeps
    | with_reducible apply State.renewLease_keeps
    | with_reducible apply State.endSwitch_keeps
    | split

theorem execSwitchTimeout_keeps {s₀ : State} {s : State} (hk : Keeps s₀ s) :
    KeepsR s₀ (execSwitchTimeout s) := by
  exact KeepsR.next (switchTimeout_keeps hk)

theorem State.partLost_keeps {s₀ : State} {s : State} {m : Nat} (hk : Keeps s₀ s) :
    Keeps s₀ (State.partLost s m) := by
  unfold State.partLost
  repeat' first
    | with_reducible assumption
    | (dsimp only [Keeps.mk_eq]; with_reducible apply KeepsD.of)
    | with_reducible apply State.markSeen_keeps
    | with_reducible apply State.prcBump_keeps
    | (intro _; intros; try beta_reduce)

theorem State.takePart_keeps {s₀ : State} {s : State} {h : PairHdr} {o : Octets} {rs : List PubSyncRec} (hk : Keeps s₀ s) :
    Keeps s₀ (State.takePart s h o rs).2 := by
  unfold State.takePart
  repeat' first
    | with_reducible assumption
    | (dsimp only [Keeps.mk_eq]; with_reducible apply KeepsD.of)
    | (extract_lets +onlyGivenNames x; refine Keeps.cut (s := s₀) (t := x) ?_ (fun hx => ?_); (on_goal 1 => (unfold x; clear x)); (on_goal 2 => clear_value x))
    | (extract_lets +onlyGivenNames x; refine Keeps.cut2 (s := s₀) (x := x) ?_ (fun hx => ?_); (on_goal 1 => (unfold x; clear x)); (on_goal 2 => clear_value x))
    | (extract_lets +onlyGivenNames x; refine Keeps.cut2 (s := s₀) (x := x.2) ?_ (fun hx => ?_); (on_goal 1 => (unfold x; clear x)); (on_goal 2 => clear_value x))
    | (extract_lets +onlyGivenNames x; refine Keeps.cutF1 (s := s₀) (f := x) ?_ (fun kx => ?_); (on_goal 1 => (unfold x; clear x; intros; beta_reduce)); (on_goal 2 => clear_value x))
    | (extract_lets +onlyGivenNames x; refine Keeps.cutF2 (s := s₀) (f := x) ?_ (fun kx => ?_); (on_goal 1 => (unfold x; clear x; intros; beta_reduce)); (on_goal 2 => clear_value x))
    | (extract_lets +onlyGivenNames x; refine Keeps.cutG2 (s := s₀) (f := x) ?_ (fun kx => ?_); (on_goal 1 => (unfold x; clear x; intros; beta_reduce)); (on_goal 2 => clear_value x))
    | (extract_lets +onlyGivenNames x; refine Keeps.cutF3 (s := s₀) (f := x) ?_ (fun kx => ?_); (on_goal 1 => (unfold x; clear x; intros; beta_reduce)); (on_goal 2 => clear_value x))
    | (extract_lets +onlyGivenNames x; refine Keeps.cutF4 (s := s₀) (f := x) ?_ (fun kx => ?_); (on_goal 1 => (unfold x; clear x; intros; beta_reduce)); (on_goal 2 => clear_value x))
    | (extract_lets +onlyGivenNames x; (have hv : x = x := by unfold x; exact Eq.refl _); clear hv; clear_value x)
    | with_reducible apply Keeps.ite
    | with_reducible apply Keeps.ite2
    | with_reducible apply State.markSeen_keeps
    | with_reducible apply State.partLost_keeps
    | apply kx
    | split
    | (intro _; intros; try beta_reduce)

theorem State.stale_keeps {s₀ : State} {s : State} {h : PairHdr} (hk : Keeps s₀ s) :
    Keeps s₀ (State.stale s h) := by
  unfold State.stale
  repeat' first
    | with_reducible assumption
    | with_reducible apply Keeps.ite
    | with_reducible apply State.markSeen_keeps
    | with_reducible apply State.prcBump_keeps
    | split

theorem State.asWatch_keeps {s₀ : State} {s : State} {h : PairHdr} {f : State → State} (hk : Keeps s₀ s) (kf : ∀ u, Keeps s₀ u → Keeps s₀ (f u)) :
    Keeps s₀ (State.asWatch s h f) := by
  unfold State.asWatch
  repeat' first
    | with_reducible assumption
    | with_reducible apply Keeps.ite
    | with_reducible apply State.stale_keeps
    | split
    | apply kf
    | (intro _; intros; try beta_reduce)

theorem handoverRx_keeps {s₀ : State} {h : PairHdr} {recs : List PubSyncRec} {s : State} (hk : Keeps s₀ s) :
    Keeps s₀ (handoverRx h recs s) := by
  unfold handoverRx
  repeat' first
    | with_reducible assumption
    | (dsimp only [Keeps.mk_eq]; with_reducible apply KeepsD.of)
    | (extract_lets +onlyGivenNames x; refine Keeps.cut (s := s₀) (t := x) ?_ (fun hx => ?_); (on_goal 1 => (unfold x; clear x)); (on_goal 2 => clear_value x))
    | (extract_lets +onlyGivenNames x; refine Keeps.cut2 (s := s₀) (x := x) ?_ (fun hx => ?_); (on_goal 1 => (unfold x; clear x)); (on_goal 2 => clear_value x))
    | (extract_lets +onlyGivenNames x; refine Keeps.cut2 (s := s₀) (x := x.2) ?_ (fun hx => ?_); (on_goal 1 => (unfold x; clear x)); (on_goal 2 => clear_value x))
    | (extract_lets +onlyGivenNames x; (have hv : x = x := by unfold x; exact Eq.refl _); clear hv; clear_value x)
    | with_reducible apply Keeps.ite
    | with_reducible apply State.takePart_keeps
    | with_reducible apply State.modPub_keeps
    | with_reducible apply State.takeSending_keeps
    | with_reducible apply State.stale_keeps
    | with_reducible apply State.heartbeat_keeps
    | with_reducible apply Keeps.foldl
    | with_reducible apply Keeps.foldl2
    | split
    | (intro _; intros; try beta_reduce)

theorem digestRx_keeps {s₀ : State} {h : PairHdr} {es : List DigestEntry} {s : State} (hk : Keeps s₀ s) :
    Keeps s₀ (digestRx h es s) := by
  unfold digestRx
  repeat' first
    | with_reducible assumption
    | (dsimp only [Keeps.mk_eq]; with_reducible apply KeepsD.of)
    | (extract_lets +onlyGivenNames x; refine Keeps.cut (s := s₀) (t := x) ?_ (fun hx => ?_); (on_goal 1 => (unfold x; clear x)); (on_goal 2 => clear_value x))
    | (extract_lets +onlyGivenNames x; refine Keeps.cut2 (s := s₀) (x := x) ?_ (fun hx => ?_); (on_goal 1 => (unfold x; clear x)); (on_goal 2 => clear_value x))
    | (extract_lets +onlyGivenNames x; refine Keeps.cut2 (s := s₀) (x := x.2) ?_ (fun hx => ?_); (on_goal 1 => (unfold x; clear x)); (on_goal 2 => clear_value x))
    | (extract_lets +onlyGivenNames x; (have hv : x = x := by unfold x; exact Eq.refl _); clear hv; clear_value x)
    | with_reducible apply Keeps.ite
    | with_reducible apply State.asWatch_keeps
    | with_reducible apply State.markSeen_keeps
    | with_reducible apply State.expireDigests_keeps
    | with_reducible apply State.digestPair_keeps
    | with_reducible apply Keeps.foldl
    | with_reducible apply Keeps.foldl2
    | split
    | (intro _; intros; try beta_reduce)

theorem digestUnpaired_keeps {s₀ : State} {c stamp : Nat} {s : State} (hk : Keeps s₀ s) :
    Keeps s₀ (digestUnpaired c stamp s) := by
  unfold digestUnpaired
  repeat' first
    | with_reducible assumption
    | (dsimp only [Keeps.mk_eq]; with_reducible apply KeepsD.of)
    | (extract_lets +onlyGivenNames x; refine Keeps.cut (s := s₀) (t := x) ?_ (fun hx => ?_); (on_goal 1 => (unfold x; clear x)); (on_goal 2 => clear_value x))
    | (extract_lets +onlyGivenNames x; refine Keeps.cut2 (s := s₀) (x := x) ?_ (fun hx => ?_); (on_goal 1 => (unfold x; clear x)); (on_goal 2 => clear_value x))
    | (extract_lets +onlyGivenNames x; refine Keeps.cut2 (s := s₀) (x := x.2) ?_ (fun hx => ?_); (on_goal 1 => (unfold x; clear x)); (on_goal 2 => clear_value x))
    | (extract_lets +onlyGivenNames x; refine Keeps.cutF1 (s := s₀) (f := x) ?_ (fun kx => ?_); (on_goal 1 => (unfold x; clear x; intros; beta_reduce)); (on_goal 2 => clear_value x))
    | (extract_lets +onlyGivenNames x; refine Keeps.cutF2 (s := s₀) (f := x) ?_ (fun kx => ?_); (on_goal 1 => (unfold x; clear x; intros; beta_reduce)); (on_goal 2 => clear_value x))
    | (extract_lets +onlyGivenNames x; refine Keeps.cutG2 (s := s₀) (f := x) ?_ (fun kx => ?_); (on_goal 1 => (unfold x; clear x; intros; beta_reduce)); (on_goal 2 => clear_value x))
    | (extract_lets +onlyGivenNames x; refine Keeps.cutF3 (s := s₀) (f := x) ?_ (fun kx => ?_); (on_goal 1 => (unfold x; clear x; intros; beta_reduce)); (on_goal 2 => clear_value x))
    | (extract_lets +onlyGivenNames x; refine Keeps.cutF4 (s := s₀) (f := x) ?_ (fun kx => ?_); (on_goal 1 => (unfold x; clear x; intros; beta_reduce)); (on_goal 2 => clear_value x))
    | (extract_lets +onlyGivenNames x; (have hv : x = x := by unfold x; exact Eq.refl _); clear hv; clear_value x)
    | with_reducible apply Keeps.ite
    | with_reducible apply State.advanceTo_keeps
    | with_reducible apply State.prcBump_keeps
    | apply kx
    | split
    | (intro _; intros; try beta_reduce)

theorem execDigestUnpaired_keeps {s₀ : State} {cls stamp : Nat} {s : State} (hk : Keeps s₀ s) :
    KeepsR s₀ (execDigestUnpaired cls stamp s) := by
  exact KeepsR.next (digestUnpaired_keeps hk)

theorem imageReqRx_keeps {s₀ : State} {h : PairHdr} {c : Nat} {s : State} (hk : Keeps s₀ s) :
    Keeps s₀ (imageReqRx h c s) := by
  unfold imageReqRx
  repeat' first
    | with_reducible assumption
    | (dsimp only [Keeps.mk_eq]; with_reducible apply KeepsD.of)
    | with_reducible apply Keeps.ite
    | with_reducible apply State.markSeen_keeps
    | with_reducible apply State.stale_keeps
    | split

theorem imageRx_keeps {s₀ : State} {h : PairHdr} {c stamp : Nat} {o : Octets} {s : State} (hk : Keeps s₀ s) :
    Keeps s₀ (imageRx h c stamp o s) := by
  unfold imageRx
  repeat' first
    | with_reducible assumption
    | (dsimp only [Keeps.mk_eq]; with_reducible apply KeepsD.of)
    | (extract_lets +onlyGivenNames x; refine Keeps.cut (s := s₀) (t := x) ?_ (fun hx => ?_); (on_goal 1 => (unfold x; clear x)); (on_goal 2 => clear_value x))
    | (extract_lets +onlyGivenNames x; refine Keeps.cut2 (s := s₀) (x := x) ?_ (fun hx => ?_); (on_goal 1 => (unfold x; clear x)); (on_goal 2 => clear_value x))
    | (extract_lets +onlyGivenNames x; refine Keeps.cut2 (s := s₀) (x := x.2) ?_ (fun hx => ?_); (on_goal 1 => (unfold x; clear x)); (on_goal 2 => clear_value x))
    | (extract_lets +onlyGivenNames x; (have hv : x = x := by unfold x; exact Eq.refl _); clear hv; clear_value x)
    | with_reducible apply State.asWatch_keeps
    | with_reducible apply State.takePart_keeps
    | split
    | (intro _; intros; try beta_reduce)

theorem pubSyncRx_keeps {s₀ : State} {h : PairHdr} {recs : List PubSyncRec} {s : State} (hk : Keeps s₀ s) :
    Keeps s₀ (pubSyncRx h recs s) := by
  unfold pubSyncRx
  repeat' first
    | with_reducible assumption
    | (dsimp only [Keeps.mk_eq]; with_reducible apply KeepsD.of)
    | (extract_lets +onlyGivenNames x; refine Keeps.cut (s := s₀) (t := x) ?_ (fun hx => ?_); (on_goal 1 => (unfold x; clear x)); (on_goal 2 => clear_value x))
    | (extract_lets +onlyGivenNames x; refine Keeps.cut2 (s := s₀) (x := x) ?_ (fun hx => ?_); (on_goal 1 => (unfold x; clear x)); (on_goal 2 => clear_value x))
    | (extract_lets +onlyGivenNames x; refine Keeps.cut2 (s := s₀) (x := x.2) ?_ (fun hx => ?_); (on_goal 1 => (unfold x; clear x)); (on_goal 2 => clear_value x))
    | (extract_lets +onlyGivenNames x; (have hv : x = x := by unfold x; exact Eq.refl _); clear hv; clear_value x)
    | with_reducible apply State.asWatch_keeps
    | with_reducible apply State.takePart_keeps
    | with_reducible apply State.modPub_keeps
    | with_reducible apply Keeps.foldl
    | with_reducible apply Keeps.foldl2
    | split
    | (intro _; intros; try beta_reduce)

theorem partTimeout_keeps {s₀ : State} {m : Nat} {s : State} (hk : Keeps s₀ s) :
    Keeps s₀ (partTimeout m s) := by
  unfold partTimeout
  repeat' first
    | with_reducible assumption
    | (dsimp only [Keeps.mk_eq]; with_reducible apply KeepsD.of)
    | with_reducible apply State.advanceTo_keeps
    | with_reducible apply State.partLost_keeps
    | split
    | (intro _; intros; try beta_reduce)

theorem execPartTimeout_keeps {s₀ : State} {mseq : Nat} {s : State} (hk : Keeps s₀ s) :
    KeepsR s₀ (execPartTimeout mseq s) := by
  exact KeepsR.next (partTimeout_keeps hk)

end Sys2Proof.Machine
end

