-- ==== Sys2Proof/Laws/KeepsLattice.lean ====
section
/-! SUPPORT. What the operations keep: each leaves memory and the register file canonical and the queue as it is. -/
namespace Sys2Proof.Machine

/-! ### Cycles -/

theorem State.skip_keeps {s₀ : State} {s : State} {c k : Nat} (hk : Keeps s₀ s) :
    Keeps s₀ (State.skip s c k) := by
  unfold State.skip
  repeat' first
    | with_reducible assumption
    | (dsimp only [Keeps.mk_eq]; with_reducible apply KeepsD.of)
    | with_reducible apply Keeps.ite
    | with_reducible apply State.bumpBy_keeps
    | with_reducible apply State.modCls_keeps
    | split
    | (intro _; intros; try beta_reduce)

theorem State.endProvisional_keeps {s₀ : State} {s : State} {c : Nat} (hk : Keeps s₀ s) :
    Keeps s₀ (State.endProvisional s c) := by
  unfold State.endProvisional
  repeat' first
    | with_reducible assumption
    | (dsimp only [Keeps.mk_eq]; with_reducible apply KeepsD.of)
    | (extract_lets +onlyGivenNames x; refine Keeps.cut (s := s₀) (t := x) ?_ (fun hx => ?_); (on_goal 1 => (unfold x; clear x)); (on_goal 2 => clear_value x))
    | (extract_lets +onlyGivenNames x; refine Keeps.cut2 (s := s₀) (x := x) ?_ (fun hx => ?_); (on_goal 1 => (unfold x; clear x)); (on_goal 2 => clear_value x))
    | (extract_lets +onlyGivenNames x; refine Keeps.cut2 (s := s₀) (x := x.2) ?_ (fun hx => ?_); (on_goal 1 => (unfold x; clear x)); (on_goal 2 => clear_value x))
    | (extract_lets +onlyGivenNames x; refine Keeps.cutF1 (s := s₀) (f := x) ?_ (fun kx => ?_); (on_goal 1 => (unfold x; clear x; intros; beta_reduce)); (on_goal 2 => clear_value x))
    | (extract_lets +onlyGivenNames x; refine Keeps.cutF2 (s := s₀) (f := x) ?_ (fun kx => ?_); (on_goal 1 => (unfold x; clear x; intros; beta_reduce)); (on_goal 2 => clear_value x))
    | (extract_lets +onlyGivenNames x; refine Keeps.cutG2 (s := s₀) (f := x) ?_ (fun kx => ?_); (on_goal 1 => (unfold x; clear x; intros; beta_reduce)); (on_goal 2 => clear_value x))
    | (extract_lets +onlyGivenNames x; refine Keeps.cutF3 (s := s₀) (f := x) ?_ (fun kx => ?_); (on_goal 1 => (unfold x; clear x; intros; beta_reduce)); (on_goal 2 => clear_value x))
    | (extract_lets +onlyGivenNames x; refine Keeps.cutF4 (s := s₀) (f := x) ?_ (fun kx => ?_); (on_goal 1 => (unfold x; clear x; intros; beta_reduce)); (on_goal 2 => clear_value x))
    | (extract_lets +onlyGivenNames x; (have hv : x = x := by unfold x; exact Eq.refl _); clear hv; clear_value x)
    | with_reducible apply State.bumpBy_keeps
    | with_reducible apply State.pubDiscardSets_keeps
    | apply kx
    | (intro _; intros; try beta_reduce)

theorem State.imageApply_keeps {s₀ : State} {s : State} {c : Nat} {stamp : Time} (hk : Keeps s₀ s) :
    Keeps s₀ (State.imageApply s c stamp) := by
  unfold State.imageApply
  repeat' first
    | with_reducible assumption
    | (dsimp only [Keeps.mk_eq]; with_reducible apply KeepsD.of)
    | (extract_lets +onlyGivenNames x; refine Keeps.cut (s := s₀) (t := x) ?_ (fun hx => ?_); (on_goal 1 => (unfold x; clear x)); (on_goal 2 => clear_value x))
    | (extract_lets +onlyGivenNames x; refine Keeps.cut2 (s := s₀) (x := x) ?_ (fun hx => ?_); (on_goal 1 => (unfold x; clear x)); (on_goal 2 => clear_value x))
    | (extract_lets +onlyGivenNames x; refine Keeps.cut2 (s := s₀) (x := x.2) ?_ (fun hx => ?_); (on_goal 1 => (unfold x; clear x)); (on_goal 2 => clear_value x))
    | (extract_lets +onlyGivenNames x; (have hv : x = x := by unfold x; exact Eq.refl _); clear hv; clear_value x)
    | with_reducible apply Keeps.ite
    | with_reducible apply State.endProvisional_keeps
    | with_reducible apply State.modCls_keeps
    | with_reducible apply State.skip_keeps
    | with_reducible apply State.prcBump_keeps
    | with_reducible apply State.evalAligned_keeps
    | with_reducible apply Keeps.foldl
    | with_reducible apply Keeps.foldl2
    | split
    | (intro _; intros; try beta_reduce)

theorem State.startDue_keeps {s₀ : State} {s : State} (hk : Keeps s₀ s) :
    Keeps s₀ (State.startDue s) := by
  unfold State.startDue
  repeat' first
    | with_reducible assumption
    | (dsimp only [Keeps.mk_eq]; with_reducible apply KeepsD.of)
    | (extract_lets +onlyGivenNames x; refine Keeps.cut (s := s₀) (t := x) ?_ (fun hx => ?_); (on_goal 1 => (unfold x; clear x)); (on_goal 2 => clear_value x))
    | (extract_lets +onlyGivenNames x; refine Keeps.cut2 (s := s₀) (x := x) ?_ (fun hx => ?_); (on_goal 1 => (unfold x; clear x)); (on_goal 2 => clear_value x))
    | (extract_lets +onlyGivenNames x; refine Keeps.cut2 (s := s₀) (x := x.2) ?_ (fun hx => ?_); (on_goal 1 => (unfold x; clear x)); (on_goal 2 => clear_value x))
    | (extract_lets +onlyGivenNames x; (have hv : x = x := by unfold x; exact Eq.refl _); clear hv; clear_value x)
    | with_reducible apply State.modCls_keeps
    | with_reducible apply State.startCycle_keeps
    | with_reducible apply State.imageApply_keeps
    | with_reducible apply State.swapFinish_keeps
    | split
    | (intro _; intros; try beta_reduce)

theorem timedCycleStart_keeps {s₀ : State} {c : Nat} {s : State} (hk : Keeps s₀ s) :
    Keeps s₀ (timedCycleStart c s) := by
  unfold timedCycleStart
  repeat' first
    | with_reducible assumption
    | (dsimp only [Keeps.mk_eq]; with_reducible apply KeepsD.of)
    | (extract_lets +onlyGivenNames x; refine Keeps.cut (s := s₀) (t := x) ?_ (fun hx => ?_); (on_goal 1 => (unfold x; clear x)); (on_goal 2 => clear_value x))
    | (extract_lets +onlyGivenNames x; refine Keeps.cut2 (s := s₀) (x := x) ?_ (fun hx => ?_); (on_goal 1 => (unfold x; clear x)); (on_goal 2 => clear_value x))
    | (extract_lets +onlyGivenNames x; refine Keeps.cut2 (s := s₀) (x := x.2) ?_ (fun hx => ?_); (on_goal 1 => (unfold x; clear x)); (on_goal 2 => clear_value x))
    | (extract_lets +onlyGivenNames x; (have hv : x = x := by unfold x; exact Eq.refl _); clear hv; clear_value x)
    | with_reducible apply Keeps.ite
    | with_reducible apply State.advanceTo_keeps
    | with_reducible apply State.skip_keeps
    | with_reducible apply State.modCls_keeps
    | with_reducible apply State.startDue_keeps
    | split
    | (intro _; intros; try beta_reduce)

theorem perInstantCycleStart_keeps {s₀ : State} {c : Nat} {s : State} (hk : Keeps s₀ s) :
    Keeps s₀ (perInstantCycleStart c s) := by
  unfold perInstantCycleStart
  repeat' first
    | with_reducible assumption
    | (dsimp only [Keeps.mk_eq]; with_reducible apply KeepsD.of)
    | (extract_lets +onlyGivenNames x; refine Keeps.cut (s := s₀) (t := x) ?_ (fun hx => ?_); (on_goal 1 => (unfold x; clear x)); (on_goal 2 => clear_value x))
    | (extract_lets +onlyGivenNames x; refine Keeps.cut2 (s := s₀) (x := x) ?_ (fun hx => ?_); (on_goal 1 => (unfold x; clear x)); (on_goal 2 => clear_value x))
    | (extract_lets +onlyGivenNames x; refine Keeps.cut2 (s := s₀) (x := x.2) ?_ (fun hx => ?_); (on_goal 1 => (unfold x; clear x)); (on_goal 2 => clear_value x))
    | (extract_lets +onlyGivenNames x; (have hv : x = x := by unfold x; exact Eq.refl _); clear hv; clear_value x)
    | with_reducible apply Keeps.ite
    | with_reducible apply State.skip_keeps
    | with_reducible apply State.bump_keeps
    | with_reducible apply State.startCycle_keeps
    | with_reducible apply State.imageApply_keeps
    | with_reducible apply Keeps.foldl
    | with_reducible apply Keeps.foldl2
    | split
    | (intro _; intros; try beta_reduce)

theorem cycleResume_keeps {s₀ : State} {c : Nat} {s : State} (hk : Keeps s₀ s) :
    Keeps s₀ (cycleResume c s) := by
  unfold cycleResume
  repeat' first
    | with_reducible assumption
    | (dsimp only [Keeps.mk_eq]; with_reducible apply KeepsD.of)
    | with_reducible apply Keeps.ite
    | split

theorem State.formSet_keeps {s₀ : State} {s : State} {c : Nat} (hk : Keeps s₀ s) :
    Keeps s₀ (State.formSet s c) := by
  unfold State.formSet
  repeat' first
    | with_reducible assumption
    | (dsimp only [Keeps.mk_eq]; with_reducible apply KeepsD.of)
    | (extract_lets +onlyGivenNames x; refine Keeps.cut (s := s₀) (t := x) ?_ (fun hx => ?_); (on_goal 1 => (unfold x; clear x)); (on_goal 2 => clear_value x))
    | (extract_lets +onlyGivenNames x; refine Keeps.cut2 (s := s₀) (x := x) ?_ (fun hx => ?_); (on_goal 1 => (unfold x; clear x)); (on_goal 2 => clear_value x))
    | (extract_lets +onlyGivenNames x; refine Keeps.cut2 (s := s₀) (x := x.2) ?_ (fun hx => ?_); (on_goal 1 => (unfold x; clear x)); (on_goal 2 => clear_value x))
    | (extract_lets +onlyGivenNames x; (have hv : x = x := by unfold x; exact Eq.refl _); clear hv; clear_value x)
    | with_reducible apply Keeps.ite
    | with_reducible apply State.releaseSet_keeps
    | with_reducible apply State.pubStage_keeps
    | with_reducible apply State.written_keeps
    | split
    | (intro _; intros; try beta_reduce)

theorem cycleEnd_keeps {s₀ : State} {c : Nat} {s : State} (hk : Keeps s₀ s) :
    Keeps s₀ (cycleEnd c s) := by
  unfold cycleEnd
  repeat' first
    | with_reducible assumption
    | (dsimp only [Keeps.mk_eq]; with_reducible apply KeepsD.of)
    | (extract_lets +onlyGivenNames x; refine Keeps.cut (s := s₀) (t := x) ?_ (fun hx => ?_); (on_goal 1 => (unfold x; clear x)); (on_goal 2 => clear_value x))
    | (extract_lets +onlyGivenNames x; refine Keeps.cut2 (s := s₀) (x := x) ?_ (fun hx => ?_); (on_goal 1 => (unfold x; clear x)); (on_goal 2 => clear_value x))
    | (extract_lets +onlyGivenNames x; refine Keeps.cut2 (s := s₀) (x := x.2) ?_ (fun hx => ?_); (on_goal 1 => (unfold x; clear x)); (on_goal 2 => clear_value x))
    | (extract_lets +onlyGivenNames x; (have hv : x = x := by unfold x; exact Eq.refl _); clear hv; clear_value x)
    | with_reducible apply Keeps.ite
    | with_reducible apply State.spend_keeps
    | with_reducible apply State.setF_keeps
    | with_reducible apply State.bump_keeps
    | with_reducible apply State.skip_keeps
    | with_reducible apply State.formSet_keeps
    | with_reducible apply State.modCls_keeps
    | with_reducible apply State.yieldCur_keeps
    | with_reducible apply State.swapFinish_keeps
    | with_reducible apply State.digestPoint_keeps
    | with_reducible apply State.pubFlush_keeps
    | with_reducible apply State.freeJournal_keeps
    | with_reducible apply State.startDue_keeps
    | with_reducible apply State.refreshReady_keeps
    | split
    | (intro _; intros; try beta_reduce)

theorem execTimedCycleStart_keeps {s₀ : State} {cls : Nat} {s : State} (hk : Keeps s₀ s) :
    KeepsR s₀ (execTimedCycleStart cls s) := by
  exact KeepsR.next (timedCycleStart_keeps hk)

theorem execPerInstantCycleStart_keeps {s₀ : State} {cls : Nat} {s : State} (hk : Keeps s₀ s) :
    KeepsR s₀ (execPerInstantCycleStart cls s) := by
  exact KeepsR.next (perInstantCycleStart_keeps hk)

theorem execCycleResume_keeps {s₀ : State} {cls : Nat} {s : State} (hk : Keeps s₀ s) :
    KeepsR s₀ (execCycleResume cls s) := by
  exact KeepsR.next (cycleResume_keeps hk)

theorem execCycleEnd_keeps {s₀ : State} {cls : Nat} {s : State} (hk : Keeps s₀ s) :
    KeepsR s₀ (execCycleEnd cls s) := by
  exact KeepsR.next (cycleEnd_keeps hk)

/-! ### Lattice -/

theorem State.closeInto_keeps {s₀ : State} {s : State} {l : Nat} {i : Instant} (hk : Keeps s₀ s) :
    Keeps s₀ (State.closeInto s l i) := by
  unfold State.closeInto
  repeat' first
    | with_reducible assumption
    | (dsimp only [Keeps.mk_eq]; with_reducible apply KeepsD.of)
    | (extract_lets +onlyGivenNames x; refine Keeps.cut (s := s₀) (t := x) ?_ (fun hx => ?_); (on_goal 1 => (unfold x; clear x)); (on_goal 2 => clear_value x))
    | (extract_lets +onlyGivenNames x; refine Keeps.cut2 (s := s₀) (x := x) ?_ (fun hx => ?_); (on_goal 1 => (unfold x; clear x)); (on_goal 2 => clear_value x))
    | (extract_lets +onlyGivenNames x; refine Keeps.cut2 (s := s₀) (x := x.2) ?_ (fun hx => ?_); (on_goal 1 => (unfold x; clear x)); (on_goal 2 => clear_value x))
    | (extract_lets +onlyGivenNames x; (have hv : x = x := by unfold x; exact Eq.refl _); clear hv; clear_value x)
    | with_reducible apply Keeps.ite
    | with_reducible apply State.modLat_keeps
    | with_reducible apply State.writeSlot_keeps
    | with_reducible apply State.dreLevels_keeps
    | with_reducible apply State.pheFeed_keeps
    | with_reducible apply State.dreClosed_keeps
    | split
    | (intro _; intros; try beta_reduce)

theorem State.firstClose_keeps {s₀ : State} {s : State} {l : Nat} {i : Instant} {cnt : Nat} {final : Bool} (hk : Keeps s₀ s) :
    Keeps s₀ (State.firstClose s l i cnt final) := by
  unfold State.firstClose
  repeat' first
    | with_reducible assumption
    | (dsimp only [Keeps.mk_eq]; with_reducible apply KeepsD.of)
    | (extract_lets +onlyGivenNames x; refine Keeps.cut (s := s₀) (t := x) ?_ (fun hx => ?_); (on_goal 1 => (unfold x; clear x)); (on_goal 2 => clear_value x))
    | (extract_lets +onlyGivenNames x; refine Keeps.cut2 (s := s₀) (x := x) ?_ (fun hx => ?_); (on_goal 1 => (unfold x; clear x)); (on_goal 2 => clear_value x))
    | (extract_lets +onlyGivenNames x; refine Keeps.cut2 (s := s₀) (x := x.2) ?_ (fun hx => ?_); (on_goal 1 => (unfold x; clear x)); (on_goal 2 => clear_value x))
    | (extract_lets +onlyGivenNames x; (have hv : x = x := by unfold x; exact Eq.refl _); clear hv; clear_value x)
    | with_reducible apply State.bump_keeps
    | with_reducible apply State.closeInto_keeps
    | with_reducible apply State.modLat_keeps
    | (intro _; intros; try beta_reduce)

theorem State.retireFree_keeps {s₀ : State} {s : State} (hk : Keeps s₀ s) :
    Keeps s₀ (State.retireFree s) := by
  unfold State.retireFree
  repeat' first
    | with_reducible assumption
    | (dsimp only [Keeps.mk_eq]; with_reducible apply KeepsD.of)
    | with_reducible apply State.modCtx_keeps
    | with_reducible apply Keeps.foldl
    | with_reducible apply Keeps.foldl2
    | (intro _; intros; try beta_reduce)

theorem State.clsConfirm_keeps {s₀ : State} {s : State} {l n : Nat} (hk : Keeps s₀ s) :
    Keeps s₀ (State.clsConfirm s l n) := by
  unfold State.clsConfirm
  repeat' first
    | with_reducible assumption
    | (dsimp only [Keeps.mk_eq]; with_reducible apply KeepsD.of)
    | with_reducible apply State.modCls_keeps
    | with_reducible apply State.digestPoint_keeps
    | split
    | (intro _; intros; try beta_reduce)

theorem State.releaseAll_keeps {s₀ : State} {s : State} {k : Nat} (hk : Keeps s₀ s) : Keeps s₀ (State.releaseAll k s) := by
  induction k generalizing s with
  | zero => exact hk
  | succ k ih => exact ih (State.svRelease_keeps (State.fConfirm_keeps (State.txConfirm_keeps (State.ringsConfirm_keeps
      (State.releaseHeld_keeps hk)))))

theorem State.confirmNotice_keeps {s₀ : State} {s : State} {l n : Nat} (hk : Keeps s₀ s) :
    Keeps s₀ (State.confirmNotice s l n) := by
  unfold State.confirmNotice
  repeat' first
    | with_reducible assumption
    | (extract_lets +onlyGivenNames x; refine Keeps.cut (s := s₀) (t := x) ?_ (fun hx => ?_); (on_goal 1 => (unfold x; clear x)); (on_goal 2 => clear_value x))
    | (extract_lets +onlyGivenNames x; refine Keeps.cut2 (s := s₀) (x := x) ?_ (fun hx => ?_); (on_goal 1 => (unfold x; clear x)); (on_goal 2 => clear_value x))
    | (extract_lets +onlyGivenNames x; refine Keeps.cut2 (s := s₀) (x := x.2) ?_ (fun hx => ?_); (on_goal 1 => (unfold x; clear x)); (on_goal 2 => clear_value x))
    | (extract_lets +onlyGivenNames x; (have hv : x = x := by unfold x; exact Eq.refl _); clear hv; clear_value x)
    | with_reducible apply Keeps.ite
    | with_reducible apply State.pheConfirm_keeps
    | with_reducible apply State.svConfirm_keeps
    | with_reducible apply State.releaseAll_keeps
    | with_reducible apply State.dreAdvance_keeps
    | with_reducible apply State.pubFlush_keeps
    | with_reducible apply State.gcmConfirm_keeps
    | with_reducible apply State.clsConfirm_keeps
    | with_reducible apply State.freeJournal_keeps
    | with_reducible apply State.swapFinish_keeps
    | with_reducible apply State.retireFree_keeps
    | with_reducible apply State.refreshReady_keeps
    | split

theorem State.confirmInst_keeps {s₀ : State} {s : State} {l : Nat} {i : Instant} (hk : Keeps s₀ s) :
    Keeps s₀ (State.confirmInst s l i) := by
  unfold State.confirmInst
  repeat' first
    | with_reducible assumption
    | (dsimp only [Keeps.mk_eq]; with_reducible apply KeepsD.of)
    | (extract_lets +onlyGivenNames x; refine Keeps.cut (s := s₀) (t := x) ?_ (fun hx => ?_); (on_goal 1 => (unfold x; clear x)); (on_goal 2 => clear_value x))
    | (extract_lets +onlyGivenNames x; refine Keeps.cut2 (s := s₀) (x := x) ?_ (fun hx => ?_); (on_goal 1 => (unfold x; clear x)); (on_goal 2 => clear_value x))
    | (extract_lets +onlyGivenNames x; refine Keeps.cut2 (s := s₀) (x := x.2) ?_ (fun hx => ?_); (on_goal 1 => (unfold x; clear x)); (on_goal 2 => clear_value x))
    | (extract_lets +onlyGivenNames x; (have hv : x = x := by unfold x; exact Eq.refl _); clear hv; clear_value x)
    | with_reducible apply Keeps.ite
    | with_reducible apply State.bump_keeps
    | with_reducible apply State.bumpBy_keeps
    | with_reducible apply State.modLat_keeps
    | with_reducible apply State.writeSlot_keeps
    | with_reducible apply State.confirmNotice_keeps
    | with_reducible apply Keeps.foldl
    | with_reducible apply Keeps.foldl2
    | split
    | (intro _; intros; try beta_reduce)

theorem State.refuteNotice_keeps {s₀ : State} {s : State} {l n top : Nat} (hk : Keeps s₀ s) :
    Keeps s₀ (State.refuteNotice s l n top) := by
  unfold State.refuteNotice
  repeat' first
    | with_reducible assumption
    | (extract_lets +onlyGivenNames x; refine Keeps.cut (s := s₀) (t := x) ?_ (fun hx => ?_); (on_goal 1 => (unfold x; clear x)); (on_goal 2 => clear_value x))
    | (extract_lets +onlyGivenNames x; refine Keeps.cut2 (s := s₀) (x := x) ?_ (fun hx => ?_); (on_goal 1 => (unfold x; clear x)); (on_goal 2 => clear_value x))
    | (extract_lets +onlyGivenNames x; refine Keeps.cut2 (s := s₀) (x := x.2) ?_ (fun hx => ?_); (on_goal 1 => (unfold x; clear x)); (on_goal 2 => clear_value x))
    | (extract_lets +onlyGivenNames x; (have hv : x = x := by unfold x; exact Eq.refl _); clear hv; clear_value x)
    | with_reducible apply Keeps.ite
    | with_reducible apply State.pheRefute_keeps
    | with_reducible apply State.slpRefute_keeps
    | with_reducible apply State.bellsRefute_keeps
    | with_reducible apply State.releaseAll_keeps
    | with_reducible apply State.dreRefute_keeps
    | with_reducible apply State.gcmRefute_keeps
    | with_reducible apply State.pubDiscardSets_keeps
    | with_reducible apply State.ringsRefute_keeps
    | with_reducible apply State.txRefute_keeps
    | with_reducible apply State.fWithdraw_keeps
    | with_reducible apply State.pubFlush_keeps
    | with_reducible apply State.startDue_keeps
    | split

theorem State.refute_keeps {s₀ : State} {s : State} {l n cause : Nat} (hk : Keeps s₀ s) :
    Keeps s₀ (State.refute s l n cause) := by
  unfold State.refute
  repeat' first
    | with_reducible assumption
    | (dsimp only [Keeps.mk_eq]; with_reducible apply KeepsD.of)
    | (extract_lets +onlyGivenNames x; refine Keeps.cut (s := s₀) (t := x) ?_ (fun hx => ?_); (on_goal 1 => (unfold x; clear x)); (on_goal 2 => clear_value x))
    | (extract_lets +onlyGivenNames x; refine Keeps.cut2 (s := s₀) (x := x) ?_ (fun hx => ?_); (on_goal 1 => (unfold x; clear x)); (on_goal 2 => clear_value x))
    | (extract_lets +onlyGivenNames x; refine Keeps.cut2 (s := s₀) (x := x.2) ?_ (fun hx => ?_); (on_goal 1 => (unfold x; clear x)); (on_goal 2 => clear_value x))
    | (extract_lets +onlyGivenNames x; (have hv : x = x := by unfold x; exact Eq.refl _); clear hv; clear_value x)
    | with_reducible apply Keeps.ite
    | with_reducible apply State.bump_keeps
    | with_reducible apply State.refuteNotice_keeps
    | with_reducible apply State.modLat_keeps
    | with_reducible apply State.writeSlotAs_keeps
    | with_reducible apply State.closeInto_keeps
    | with_reducible apply Keeps.foldl
    | with_reducible apply Keeps.foldl2
    | split
    | (intro _; intros; try beta_reduce)

theorem State.arriveAt_keeps {s₀ : State} {s : State} {l c n : Nat} (hk : Keeps s₀ s) :
    Keeps s₀ (State.arriveAt s l c n) := by
  unfold State.arriveAt
  repeat' first
    | with_reducible assumption
    | (dsimp only [Keeps.mk_eq]; with_reducible apply KeepsD.of)
    | (extract_lets +onlyGivenNames x; refine Keeps.cut (s := s₀) (t := x) ?_ (fun hx => ?_); (on_goal 1 => (unfold x; clear x)); (on_goal 2 => clear_value x))
    | (extract_lets +onlyGivenNames x; refine Keeps.cut2 (s := s₀) (x := x) ?_ (fun hx => ?_); (on_goal 1 => (unfold x; clear x)); (on_goal 2 => clear_value x))
    | (extract_lets +onlyGivenNames x; refine Keeps.cut2 (s := s₀) (x := x.2) ?_ (fun hx => ?_); (on_goal 1 => (unfold x; clear x)); (on_goal 2 => clear_value x))
    | (extract_lets +onlyGivenNames x; refine Keeps.cutF1 (s := s₀) (f := x) ?_ (fun kx => ?_); (on_goal 1 => (unfold x; clear x; intros; beta_reduce)); (on_goal 2 => clear_value x))
    | (extract_lets +onlyGivenNames x; refine Keeps.cutF2 (s := s₀) (f := x) ?_ (fun kx => ?_); (on_goal 1 => (unfold x; clear x; intros; beta_reduce)); (on_goal 2 => clear_value x))
    | (extract_lets +onlyGivenNames x; refine Keeps.cutG2 (s := s₀) (f := x) ?_ (fun kx => ?_); (on_goal 1 => (unfold x; clear x; intros; beta_reduce)); (on_goal 2 => clear_value x))
    | (extract_lets +onlyGivenNames x; refine Keeps.cutF3 (s := s₀) (f := x) ?_ (fun kx => ?_); (on_goal 1 => (unfold x; clear x; intros; beta_reduce)); (on_goal 2 => clear_value x))
    | (extract_lets +onlyGivenNames x; refine Keeps.cutF4 (s := s₀) (f := x) ?_ (fun kx => ?_); (on_goal 1 => (unfold x; clear x; intros; beta_reduce)); (on_goal 2 => clear_value x))
    | (extract_lets +onlyGivenNames x; (have hv : x = x := by unfold x; exact Eq.refl _); clear hv; clear_value x)
    | with_reducible apply Keeps.ite
    | with_reducible apply State.modLat_keeps
    | with_reducible apply State.bump_keeps
    | with_reducible apply State.refute_keeps
    | with_reducible apply State.writeSlot_keeps
    | apply kx
    | split
    | (intro _; intros; try beta_reduce)

theorem State.arrive_keeps {s₀ : State} {s : State} {l c : Nat} (hk : Keeps s₀ s) :
    Keeps s₀ (State.arrive s l c) := by
  unfold State.arrive
  repeat' first
    | with_reducible assumption
    | (dsimp only [Keeps.mk_eq]; with_reducible apply KeepsD.of)
    | (extract_lets +onlyGivenNames x; refine Keeps.cut (s := s₀) (t := x) ?_ (fun hx => ?_); (on_goal 1 => (unfold x; clear x)); (on_goal 2 => clear_value x))
    | (extract_lets +onlyGivenNames x; refine Keeps.cut2 (s := s₀) (x := x) ?_ (fun hx => ?_); (on_goal 1 => (unfold x; clear x)); (on_goal 2 => clear_value x))
    | (extract_lets +onlyGivenNames x; refine Keeps.cut2 (s := s₀) (x := x.2) ?_ (fun hx => ?_); (on_goal 1 => (unfold x; clear x)); (on_goal 2 => clear_value x))
    | (extract_lets +onlyGivenNames x; (have hv : x = x := by unfold x; exact Eq.refl _); clear hv; clear_value x)
    | with_reducible apply Keeps.ite
    | with_reducible apply State.bumpBy_keeps
    | with_reducible apply State.arriveAt_keeps
    | with_reducible apply State.modLat_keeps
    | with_reducible apply Keeps.foldl
    | with_reducible apply Keeps.foldl2
    | split
    | (intro _; intros; try beta_reduce)

theorem State.latNext_keeps {s₀ : State} {s : State} {l : Nat} (hk : Keeps s₀ s) :
    KeepsO s₀ (State.latNext s l) := by
  unfold State.latNext
  repeat' first
    | with_reducible assumption
    | (dsimp only [Keeps.mk_eq]; with_reducible apply KeepsD.of)
    | (extract_lets +onlyGivenNames x; refine Keeps.cut (s := s₀) (t := x) ?_ (fun hx => ?_); (on_goal 1 => (unfold x; clear x)); (on_goal 2 => clear_value x))
    | (extract_lets +onlyGivenNames x; refine Keeps.cut2 (s := s₀) (x := x) ?_ (fun hx => ?_); (on_goal 1 => (unfold x; clear x)); (on_goal 2 => clear_value x))
    | (extract_lets +onlyGivenNames x; refine Keeps.cut2 (s := s₀) (x := x.2) ?_ (fun hx => ?_); (on_goal 1 => (unfold x; clear x)); (on_goal 2 => clear_value x))
    | (extract_lets +onlyGivenNames x; (have hv : x = x := by unfold x; exact Eq.refl _); clear hv; clear_value x)
    | with_reducible exact KeepsO.none
    | with_reducible apply KeepsO.some
    | with_reducible apply KeepsO.ite
    | with_reducible apply Keeps.ite
    | with_reducible apply State.confirmInst_keeps
    | with_reducible apply State.firstClose_keeps
    | with_reducible apply State.bump_keeps
    | with_reducible apply State.modLat_keeps
    | split
    | (intro _; intros; try beta_reduce)

theorem State.latRun_keeps {s₀ : State} {s : State} {l n : Nat} (hk : Keeps s₀ s) : Keeps s₀ (State.latRun s l n) := by
  induction n generalizing s with
  | zero => exact hk
  | succ n ih =>
    unfold State.latRun
    split
    · exact hk
    · exact ih (State.latNext_keeps hk _ (by assumption))

theorem State.latView_keeps {s₀ : State} {s : State} {l : Nat} (hk : Keeps s₀ s) :
    Keeps s₀ (State.latView s l) := by
  unfold State.latView
  repeat' first
    | with_reducible assumption
    | (extract_lets +onlyGivenNames x; refine Keeps.cut (s := s₀) (t := x) ?_ (fun hx => ?_); (on_goal 1 => (unfold x; clear x)); (on_goal 2 => clear_value x))
    | (extract_lets +onlyGivenNames x; refine Keeps.cut2 (s := s₀) (x := x) ?_ (fun hx => ?_); (on_goal 1 => (unfold x; clear x)); (on_goal 2 => clear_value x))
    | (extract_lets +onlyGivenNames x; refine Keeps.cut2 (s := s₀) (x := x.2) ?_ (fun hx => ?_); (on_goal 1 => (unfold x; clear x)); (on_goal 2 => clear_value x))
    | (extract_lets +onlyGivenNames x; (have hv : x = x := by unfold x; exact Eq.refl _); clear hv; clear_value x)
    | with_reducible apply Keeps.ite
    | with_reducible apply State.setF_keeps
    | with_reducible apply State.setB_keeps
    | split
    | (intro _; intros; try beta_reduce)

theorem State.settle_keeps {s₀ : State} {s : State} {l : Nat} (hk : Keeps s₀ s) :
    Keeps s₀ (State.settle s l) := by
  unfold State.settle
  repeat' first
    | with_reducible assumption
    | with_reducible apply Keeps.ite
    | with_reducible apply State.latRun_keeps
    | with_reducible apply State.latView_keeps
    | split

theorem latticeWrite_keeps {s₀ : State} {s : State} (hk : Keeps s₀ s) :
    Keeps s₀ (latticeWrite s) := by
  unfold latticeWrite
  repeat' first
    | with_reducible assumption
    | (dsimp only [Keeps.mk_eq]; with_reducible apply KeepsD.of)
    | (extract_lets +onlyGivenNames x; refine Keeps.cut (s := s₀) (t := x) ?_ (fun hx => ?_); (on_goal 1 => (unfold x; clear x)); (on_goal 2 => clear_value x))
    | (extract_lets +onlyGivenNames x; refine Keeps.cut2 (s := s₀) (x := x) ?_ (fun hx => ?_); (on_goal 1 => (unfold x; clear x)); (on_goal 2 => clear_value x))
    | (extract_lets +onlyGivenNames x; refine Keeps.cut2 (s := s₀) (x := x.2) ?_ (fun hx => ?_); (on_goal 1 => (unfold x; clear x)); (on_goal 2 => clear_value x))
    | (extract_lets +onlyGivenNames x; (have hv : x = x := by unfold x; exact Eq.refl _); clear hv; clear_value x)
    | with_reducible apply Keeps.ite
    | with_reducible apply State.bump_keeps
    | with_reducible apply State.modCtx_keeps
    | with_reducible apply State.arrive_keeps
    | with_reducible apply State.settle_keeps
    | with_reducible apply Keeps.foldl
    | with_reducible apply Keeps.foldl2
    | split
    | (intro _; intros; try beta_reduce)

theorem provisionalClose_keeps {s₀ : State} {l : Nat} {s : State} (hk : Keeps s₀ s) :
    Keeps s₀ (provisionalClose l s) := by
  unfold provisionalClose
  repeat' first
    | with_reducible assumption
    | (dsimp only [Keeps.mk_eq]; with_reducible apply KeepsD.of)
    | (extract_lets +onlyGivenNames x; refine Keeps.cut (s := s₀) (t := x) ?_ (fun hx => ?_); (on_goal 1 => (unfold x; clear x)); (on_goal 2 => clear_value x))
    | (extract_lets +onlyGivenNames x; refine Keeps.cut2 (s := s₀) (x := x) ?_ (fun hx => ?_); (on_goal 1 => (unfold x; clear x)); (on_goal 2 => clear_value x))
    | (extract_lets +onlyGivenNames x; refine Keeps.cut2 (s := s₀) (x := x.2) ?_ (fun hx => ?_); (on_goal 1 => (unfold x; clear x)); (on_goal 2 => clear_value x))
    | (extract_lets +onlyGivenNames x; (have hv : x = x := by unfold x; exact Eq.refl _); clear hv; clear_value x)
    | with_reducible apply Keeps.ite
    | with_reducible apply State.advanceTo_keeps
    | with_reducible apply State.modLat_keeps
    | with_reducible apply State.settle_keeps
    | split
    | (intro _; intros; try beta_reduce)

theorem instantDeadline_keeps {s₀ : State} {l : Nat} {s : State} (hk : Keeps s₀ s) :
    Keeps s₀ (instantDeadline l s) := by
  unfold instantDeadline
  repeat' first
    | with_reducible assumption
    | (dsimp only [Keeps.mk_eq]; with_reducible apply KeepsD.of)
    | (extract_lets +onlyGivenNames x; refine Keeps.cut (s := s₀) (t := x) ?_ (fun hx => ?_); (on_goal 1 => (unfold x; clear x)); (on_goal 2 => clear_value x))
    | (extract_lets +onlyGivenNames x; refine Keeps.cut2 (s := s₀) (x := x) ?_ (fun hx => ?_); (on_goal 1 => (unfold x; clear x)); (on_goal 2 => clear_value x))
    | (extract_lets +onlyGivenNames x; refine Keeps.cut2 (s := s₀) (x := x.2) ?_ (fun hx => ?_); (on_goal 1 => (unfold x; clear x)); (on_goal 2 => clear_value x))
    | (extract_lets +onlyGivenNames x; (have hv : x = x := by unfold x; exact Eq.refl _); clear hv; clear_value x)
    | with_reducible apply Keeps.ite
    | with_reducible apply provisionalClose_keeps
    | with_reducible apply State.advanceTo_keeps
    | with_reducible apply State.modLat_keeps
    | with_reducible apply State.settle_keeps
    | split
    | (intro _; intros; try beta_reduce)

theorem State.samplesResult_keeps {s₀ : State} {s : State} {c fid : Nat} {pass : Bool} (hk : Keeps s₀ s) :
    Keeps s₀ (State.samplesResult s c fid pass) := by
  unfold State.samplesResult
  repeat' first
    | with_reducible assumption
    | (dsimp only [Keeps.mk_eq]; with_reducible apply KeepsD.of)
    | (extract_lets +onlyGivenNames x; refine Keeps.cut (s := s₀) (t := x) ?_ (fun hx => ?_); (on_goal 1 => (unfold x; clear x)); (on_goal 2 => clear_value x))
    | (extract_lets +onlyGivenNames x; refine Keeps.cut2 (s := s₀) (x := x) ?_ (fun hx => ?_); (on_goal 1 => (unfold x; clear x)); (on_goal 2 => clear_value x))
    | (extract_lets +onlyGivenNames x; refine Keeps.cut2 (s := s₀) (x := x.2) ?_ (fun hx => ?_); (on_goal 1 => (unfold x; clear x)); (on_goal 2 => clear_value x))
    | (extract_lets +onlyGivenNames x; refine Keeps.cutF1 (s := s₀) (f := x) ?_ (fun kx => ?_); (on_goal 1 => (unfold x; clear x; intros; beta_reduce)); (on_goal 2 => clear_value x))
    | (extract_lets +onlyGivenNames x; refine Keeps.cutF2 (s := s₀) (f := x) ?_ (fun kx => ?_); (on_goal 1 => (unfold x; clear x; intros; beta_reduce)); (on_goal 2 => clear_value x))
    | (extract_lets +onlyGivenNames x; refine Keeps.cutG2 (s := s₀) (f := x) ?_ (fun kx => ?_); (on_goal 1 => (unfold x; clear x; intros; beta_reduce)); (on_goal 2 => clear_value x))
    | (extract_lets +onlyGivenNames x; refine Keeps.cutF3 (s := s₀) (f := x) ?_ (fun kx => ?_); (on_goal 1 => (unfold x; clear x; intros; beta_reduce)); (on_goal 2 => clear_value x))
    | (extract_lets +onlyGivenNames x; refine Keeps.cutF4 (s := s₀) (f := x) ?_ (fun kx => ?_); (on_goal 1 => (unfold x; clear x; intros; beta_reduce)); (on_goal 2 => clear_value x))
    | (extract_lets +onlyGivenNames x; (have hv : x = x := by unfold x; exact Eq.refl _); clear hv; clear_value x)
    | with_reducible apply Keeps.ite
    | with_reducible apply State.modCtx_keeps
    | with_reducible apply State.modLat_keeps
    | with_reducible apply State.refute_keeps
    | with_reducible apply State.settle_keeps
    | with_reducible apply State.writeSlot_keeps
    | with_reducible apply Keeps.foldl
    | with_reducible apply Keeps.foldl2
    | apply kx
    | split
    | (intro _; intros; try beta_reduce)

theorem pheFold_keeps {s₀ : State} {l : Nat} {s : State} (hk : Keeps s₀ s) :
    Keeps s₀ (pheFold l s) := by
  unfold pheFold
  repeat' first
    | with_reducible assumption
    | (dsimp only [Keeps.mk_eq]; with_reducible apply KeepsD.of)
    | with_reducible apply State.applyFold_keeps
    | split
    | (intro _; intros; try beta_reduce)

theorem phasorsReady_keeps {s₀ : State} {l n : Nat} {s : State} (hk : Keeps s₀ s) :
    Keeps s₀ (phasorsReady l n s) := by
  unfold phasorsReady
  repeat' first
    | with_reducible assumption
    | (dsimp only [Keeps.mk_eq]; with_reducible apply KeepsD.of)
    | (extract_lets +onlyGivenNames x; refine Keeps.cut (s := s₀) (t := x) ?_ (fun hx => ?_); (on_goal 1 => (unfold x; clear x)); (on_goal 2 => clear_value x))
    | (extract_lets +onlyGivenNames x; refine Keeps.cut2 (s := s₀) (x := x) ?_ (fun hx => ?_); (on_goal 1 => (unfold x; clear x)); (on_goal 2 => clear_value x))
    | (extract_lets +onlyGivenNames x; refine Keeps.cut2 (s := s₀) (x := x.2) ?_ (fun hx => ?_); (on_goal 1 => (unfold x; clear x)); (on_goal 2 => clear_value x))
    | (extract_lets +onlyGivenNames x; (have hv : x = x := by unfold x; exact Eq.refl _); clear hv; clear_value x)
    | with_reducible apply Keeps.ite
    | with_reducible apply State.dreClosed_keeps
    | with_reducible apply State.gcmRun_keeps
    | with_reducible apply State.dreLevels_keeps
    | split
    | with_reducible refine State.pheRun_keeps ?_ (by with_reducible assumption)

theorem guardsVisible_keeps {s₀ : State} {l n : Nat} {s : State} (hk : Keeps s₀ s) :
    Keeps s₀ (guardsVisible l n s) := by
  unfold guardsVisible
  repeat' first
    | with_reducible assumption
    | with_reducible apply Keeps.ite
    | with_reducible apply guardResultsReady_keeps
    | with_reducible apply State.dreClosed_keeps
    | split
    | (intro _; intros; try beta_reduce)

theorem State.latStart_keeps {s₀ : State} {s : State} {l : Nat} (hk : Keeps s₀ s) :
    Keeps s₀ (State.latStart s l) := by
  unfold State.latStart
  repeat' first
    | with_reducible assumption
    | (dsimp only [Keeps.mk_eq]; with_reducible apply KeepsD.of)
    | (extract_lets +onlyGivenNames x; refine Keeps.cut (s := s₀) (t := x) ?_ (fun hx => ?_); (on_goal 1 => (unfold x; clear x)); (on_goal 2 => clear_value x))
    | (extract_lets +onlyGivenNames x; refine Keeps.cut2 (s := s₀) (x := x) ?_ (fun hx => ?_); (on_goal 1 => (unfold x; clear x)); (on_goal 2 => clear_value x))
    | (extract_lets +onlyGivenNames x; refine Keeps.cut2 (s := s₀) (x := x.2) ?_ (fun hx => ?_); (on_goal 1 => (unfold x; clear x)); (on_goal 2 => clear_value x))
    | (extract_lets +onlyGivenNames x; (have hv : x = x := by unfold x; exact Eq.refl _); clear hv; clear_value x)
    | with_reducible apply Keeps.ite
    | with_reducible apply State.modLat_keeps
    | with_reducible apply State.setF_keeps
    | with_reducible apply State.pheStart_keeps
    | with_reducible apply State.gcmStart_keeps
    | with_reducible apply State.dreStart_keeps
    | with_reducible apply State.settle_keeps
    | split
    | (intro _; intros; try beta_reduce)

theorem State.sleSwitch_keeps {s₀ : State} {s : State} {was : Bool} (hk : Keeps s₀ s) :
    Keeps s₀ (State.sleSwitch s was) := by
  unfold State.sleSwitch
  repeat' first
    | with_reducible assumption
    | (dsimp only [Keeps.mk_eq]; with_reducible apply KeepsD.of)
    | with_reducible apply Keeps.ite
    | with_reducible apply State.latStart_keeps
    | with_reducible apply State.modLat_keeps
    | with_reducible apply State.setF_keeps
    | with_reducible apply Keeps.foldl
    | with_reducible apply Keeps.foldl2
    | split
    | (intro _; intros; try beta_reduce)

theorem execLatticeWrite_keeps {s₀ : State} {s : State} (hk : Keeps s₀ s) :
    KeepsR s₀ (execLatticeWrite s) := by
  exact KeepsR.next (latticeWrite_keeps hk)

theorem execProvisionalClose_keeps {s₀ : State} {lat : Nat} {s : State} (hk : Keeps s₀ s) :
    KeepsR s₀ (execProvisionalClose lat s) := by
  exact KeepsR.next (provisionalClose_keeps hk)

theorem execInstantDeadline_keeps {s₀ : State} {lat : Nat} {s : State} (hk : Keeps s₀ s) :
    KeepsR s₀ (execInstantDeadline lat s) := by
  exact KeepsR.next (instantDeadline_keeps hk)

theorem execPheFold_keeps {s₀ : State} {lat : Nat} {s : State} (hk : Keeps s₀ s) :
    KeepsR s₀ (execPheFold lat s) := by
  exact KeepsR.next (pheFold_keeps hk)

theorem execPhasorsReady_keeps {s₀ : State} {lat n : Nat} {s : State} (hk : Keeps s₀ s) :
    KeepsR s₀ (execPhasorsReady lat n s) := by
  exact KeepsR.next (phasorsReady_keeps hk)

theorem execGuardResultsReady_keeps {s₀ : State} {lat n : Nat} {s : State} (hk : Keeps s₀ s) :
    KeepsR s₀ (execGuardResultsReady lat n s) := by
  exact KeepsR.next (guardsVisible_keeps hk)

/-! ### Ingress -/

theorem State.pauseSend_keeps {s₀ : State} {s : State} {p q : Nat} (hk : Keeps s₀ s) :
    Keeps s₀ (State.pauseSend s p q) := by
  unfold State.pauseSend
  repeat' first
    | with_reducible assumption
    | (dsimp only [Keeps.mk_eq]; with_reducible apply KeepsD.of)
    | with_reducible apply State.modMac_keeps
    | with_reducible apply State.macBump_keeps
    | (intro _; intros; try beta_reduce)

theorem State.pauseLevel_keeps {s₀ : State} {s : State} {p : Nat} (hk : Keeps s₀ s) :
    Keeps s₀ (State.pauseLevel s p) := by
  unfold State.pauseLevel
  repeat' first
    | with_reducible assumption
    | (dsimp only [Keeps.mk_eq]; with_reducible apply KeepsD.of)
    | (extract_lets +onlyGivenNames x; refine Keeps.cut (s := s₀) (t := x) ?_ (fun hx => ?_); (on_goal 1 => (unfold x; clear x)); (on_goal 2 => clear_value x))
    | (extract_lets +onlyGivenNames x; refine Keeps.cut2 (s := s₀) (x := x) ?_ (fun hx => ?_); (on_goal 1 => (unfold x; clear x)); (on_goal 2 => clear_value x))
    | (extract_lets +onlyGivenNames x; refine Keeps.cut2 (s := s₀) (x := x.2) ?_ (fun hx => ?_); (on_goal 1 => (unfold x; clear x)); (on_goal 2 => clear_value x))
    | (extract_lets +onlyGivenNames x; (have hv : x = x := by unfold x; exact Eq.refl _); clear hv; clear_value x)
    | with_reducible apply Keeps.ite
    | with_reducible apply State.pauseSend_keeps
    | with_reducible apply State.modMac_keeps
    | split
    | (intro _; intros; try beta_reduce)

theorem State.ringNobuf_keeps {s₀ : State} {s : State} {p r : Nat} (hk : Keeps s₀ s) :
    Keeps s₀ (State.ringNobuf s p r) := by
  unfold State.ringNobuf
  repeat' first
    | with_reducible assumption
    | (dsimp only [Keeps.mk_eq]; with_reducible apply KeepsD.of)
    | (extract_lets +onlyGivenNames x; refine Keeps.cut (s := s₀) (t := x) ?_ (fun hx => ?_); (on_goal 1 => (unfold x; clear x)); (on_goal 2 => clear_value x))
    | (extract_lets +onlyGivenNames x; refine Keeps.cut2 (s := s₀) (x := x) ?_ (fun hx => ?_); (on_goal 1 => (unfold x; clear x)); (on_goal 2 => clear_value x))
    | (extract_lets +onlyGivenNames x; refine Keeps.cut2 (s := s₀) (x := x.2) ?_ (fun hx => ?_); (on_goal 1 => (unfold x; clear x)); (on_goal 2 => clear_value x))
    | (extract_lets +onlyGivenNames x; (have hv : x = x := by unfold x; exact Eq.refl _); clear hv; clear_value x)
    | with_reducible apply Keeps.ite
    | with_reducible apply State.macBump_keeps
    | with_reducible apply State.modSlice_keeps
    | with_reducible apply State.event_keeps
    | with_reducible apply State.modRing_keeps
    | split
    | (intro _; intros; try beta_reduce)

theorem State.stage_keeps {s₀ : State} {s : State} {p ring : Nat} {f : Frame} {ts : Time} {coarse : Bool} {copy : Option Nat} (hk : Keeps s₀ s) :
    Keeps s₀ (State.stage s p ring f ts coarse copy) := by
  unfold State.stage
  repeat' first
    | with_reducible assumption
    | (dsimp only [Keeps.mk_eq]; with_reducible apply KeepsD.of)
    | (extract_lets +onlyGivenNames x; refine Keeps.cut (s := s₀) (t := x) ?_ (fun hx => ?_); (on_goal 1 => (unfold x; clear x)); (on_goal 2 => clear_value x))
    | (extract_lets +onlyGivenNames x; refine Keeps.cut2 (s := s₀) (x := x) ?_ (fun hx => ?_); (on_goal 1 => (unfold x; clear x)); (on_goal 2 => clear_value x))
    | (extract_lets +onlyGivenNames x; refine Keeps.cut2 (s := s₀) (x := x.2) ?_ (fun hx => ?_); (on_goal 1 => (unfold x; clear x)); (on_goal 2 => clear_value x))
    | (extract_lets +onlyGivenNames x; (have hv : x = x := by unfold x; exact Eq.refl _); clear hv; clear_value x)
    | with_reducible apply Keeps.ite
    | with_reducible apply State.macBump_keeps
    | with_reducible apply State.ringNobuf_keeps
    | with_reducible apply State.modRing_keeps
    | with_reducible apply State.modMac_keeps
    | with_reducible apply State.pauseLevel_keeps
    | split
    | (intro _; intros; try beta_reduce)

theorem State.steer_keeps {s₀ : State} {s : State} {p : Nat} {f : Frame} {ts : Time} {coarse : Bool} (hk : Keeps s₀ s) :
    Keeps s₀ (State.steer s p f ts coarse) := by
  unfold State.steer
  repeat' first
    | with_reducible assumption
    | (dsimp only [Keeps.mk_eq]; with_reducible apply KeepsD.of)
    | with_reducible apply Keeps.ite
    | with_reducible apply State.stage_keeps
    | with_reducible apply State.macBump_keeps
    | split
    | (intro _; intros; try beta_reduce)

theorem State.iclBump_keeps {s₀ : State} {s : State} {n : Nat} (hk : Keeps s₀ s) :
    Keeps s₀ (State.iclBump s n) := by
  unfold State.iclBump
  repeat' first
    | with_reducible assumption
    | with_reducible apply State.bump_keeps

theorem State.ctxBits_keeps {s₀ : State} {s : State} {c : Nat} (hk : Keeps s₀ s) :
    Keeps s₀ (State.ctxBits s c) := by
  unfold State.ctxBits
  repeat' first
    | with_reducible assumption
    | (extract_lets +onlyGivenNames x; refine Keeps.cut (s := s₀) (t := x) ?_ (fun hx => ?_); (on_goal 1 => (unfold x; clear x)); (on_goal 2 => clear_value x))
    | (extract_lets +onlyGivenNames x; refine Keeps.cut2 (s := s₀) (x := x) ?_ (fun hx => ?_); (on_goal 1 => (unfold x; clear x)); (on_goal 2 => clear_value x))
    | (extract_lets +onlyGivenNames x; refine Keeps.cut2 (s := s₀) (x := x.2) ?_ (fun hx => ?_); (on_goal 1 => (unfold x; clear x)); (on_goal 2 => clear_value x))
    | (extract_lets +onlyGivenNames x; (have hv : x = x := by unfold x; exact Eq.refl _); clear hv; clear_value x)
    | with_reducible apply Keeps.ite
    | with_reducible apply State.setI1_keeps
    | split

theorem State.feederTo_keeps {s₀ : State} {s : State} {p : Nat} {alt : Bool} (hk : Keeps s₀ s) :
    Keeps s₀ (State.feederTo s p alt) := by
  unfold State.feederTo
  repeat' first
    | with_reducible assumption
    | (dsimp only [Keeps.mk_eq]; with_reducible apply KeepsD.of)
    | (extract_lets +onlyGivenNames x; refine Keeps.cut (s := s₀) (t := x) ?_ (fun hx => ?_); (on_goal 1 => (unfold x; clear x)); (on_goal 2 => clear_value x))
    | (extract_lets +onlyGivenNames x; refine Keeps.cut2 (s := s₀) (x := x) ?_ (fun hx => ?_); (on_goal 1 => (unfold x; clear x)); (on_goal 2 => clear_value x))
    | (extract_lets +onlyGivenNames x; refine Keeps.cut2 (s := s₀) (x := x.2) ?_ (fun hx => ?_); (on_goal 1 => (unfold x; clear x)); (on_goal 2 => clear_value x))
    | (extract_lets +onlyGivenNames x; (have hv : x = x := by unfold x; exact Eq.refl _); clear hv; clear_value x)
    | with_reducible apply Keeps.ite
    | with_reducible apply State.modCtx_keeps
    | with_reducible apply State.iclBump_keeps
    | with_reducible apply State.ctxBits_keeps
    | with_reducible apply State.event_keeps
    | split
    | (intro _; intros; try beta_reduce)

theorem State.chooseFeeder_keeps {s₀ : State} {s : State} {p : Nat} (hk : Keeps s₀ s) :
    Keeps s₀ (State.chooseFeeder s p) := by
  unfold State.chooseFeeder
  repeat' first
    | with_reducible assumption
    | (extract_lets +onlyGivenNames x; refine Keeps.cut (s := s₀) (t := x) ?_ (fun hx => ?_); (on_goal 1 => (unfold x; clear x)); (on_goal 2 => clear_value x))
    | (extract_lets +onlyGivenNames x; refine Keeps.cut2 (s := s₀) (x := x) ?_ (fun hx => ?_); (on_goal 1 => (unfold x; clear x)); (on_goal 2 => clear_value x))
    | (extract_lets +onlyGivenNames x; refine Keeps.cut2 (s := s₀) (x := x.2) ?_ (fun hx => ?_); (on_goal 1 => (unfold x; clear x)); (on_goal 2 => clear_value x))
    | (extract_lets +onlyGivenNames x; (have hv : x = x := by unfold x; exact Eq.refl _); clear hv; clear_value x)
    | with_reducible apply Keeps.ite
    | with_reducible apply State.feederTo_keeps
    | split

theorem State.healthChanged_keeps {s₀ : State} {s : State} {c : Nat} (hk : Keeps s₀ s) :
    Keeps s₀ (State.healthChanged s c) := by
  unfold State.healthChanged
  repeat' first
    | with_reducible assumption
    | (dsimp only [Keeps.mk_eq]; with_reducible apply KeepsD.of)
    | (extract_lets +onlyGivenNames x; refine Keeps.cut (s := s₀) (t := x) ?_ (fun hx => ?_); (on_goal 1 => (unfold x; clear x)); (on_goal 2 => clear_value x))
    | (extract_lets +onlyGivenNames x; refine Keeps.cut2 (s := s₀) (x := x) ?_ (fun hx => ?_); (on_goal 1 => (unfold x; clear x)); (on_goal 2 => clear_value x))
    | (extract_lets +onlyGivenNames x; refine Keeps.cut2 (s := s₀) (x := x.2) ?_ (fun hx => ?_); (on_goal 1 => (unfold x; clear x)); (on_goal 2 => clear_value x))
    | (extract_lets +onlyGivenNames x; (have hv : x = x := by unfold x; exact Eq.refl _); clear hv; clear_value x)
    | with_reducible apply State.ctxBits_keeps
    | with_reducible apply State.chooseFeeder_keeps
    | split

theorem State.healthEval_keeps {s₀ : State} {s : State} {c : Nat} (hk : Keeps s₀ s) :
    Keeps s₀ (State.healthEval s c) := by
  unfold State.healthEval
  repeat' first
    | with_reducible assumption
    | (dsimp only [Keeps.mk_eq]; with_reducible apply KeepsD.of)
    | (extract_lets +onlyGivenNames x; refine Keeps.cut (s := s₀) (t := x) ?_ (fun hx => ?_); (on_goal 1 => (unfold x; clear x)); (on_goal 2 => clear_value x))
    | (extract_lets +onlyGivenNames x; refine Keeps.cut2 (s := s₀) (x := x) ?_ (fun hx => ?_); (on_goal 1 => (unfold x; clear x)); (on_goal 2 => clear_value x))
    | (extract_lets +onlyGivenNames x; refine Keeps.cut2 (s := s₀) (x := x.2) ?_ (fun hx => ?_); (on_goal 1 => (unfold x; clear x)); (on_goal 2 => clear_value x))
    | (extract_lets +onlyGivenNames x; (have hv : x = x := by unfold x; exact Eq.refl _); clear hv; clear_value x)
    | with_reducible apply Keeps.ite
    | with_reducible apply State.modCtx_keeps
    | with_reducible apply State.healthChanged_keeps
    | split
    | (intro _; intros; try beta_reduce)

theorem State.svIndex_keeps {s₀ : State} {s : State} {c : Nat} {p : SvPdu} {ts : Time} {coarse unver : Bool} {fid : Nat} (hk : Keeps s₀ s) :
    Keeps s₀ (State.svIndex s c p ts coarse unver fid).2 := by
  unfold State.svIndex
  repeat' first
    | with_reducible assumption
    | (dsimp only [Keeps.mk_eq]; with_reducible apply KeepsD.of)
    | (extract_lets +onlyGivenNames x; refine Keeps.cut (s := s₀) (t := x) ?_ (fun hx => ?_); (on_goal 1 => (unfold x; clear x)); (on_goal 2 => clear_value x))
    | (extract_lets +onlyGivenNames x; refine Keeps.cut2 (s := s₀) (x := x) ?_ (fun hx => ?_); (on_goal 1 => (unfold x; clear x)); (on_goal 2 => clear_value x))
    | (extract_lets +onlyGivenNames x; refine Keeps.cut2 (s := s₀) (x := x.2) ?_ (fun hx => ?_); (on_goal 1 => (unfold x; clear x)); (on_goal 2 => clear_value x))
    | (extract_lets +onlyGivenNames x; (have hv : x = x := by unfold x; exact Eq.refl _); clear hv; clear_value x)
    | with_reducible apply Keeps.ite
    | with_reducible apply Keeps.ite2
    | with_reducible apply State.bumpBy_keeps
    | with_reducible apply State.modCtx_keeps
    | split
    | (intro _; intros; try beta_reduce)

theorem State.svAccept_keeps {s₀ : State} {s : State} {c : Nat} {e : RxEvent} {p : SvPdu} {ts : Time} {coarse : Bool} {smps : List Smp} (hk : Keeps s₀ s) :
    Keeps s₀ (State.svAccept s c e p ts coarse smps) := by
  unfold State.svAccept
  repeat' first
    | with_reducible assumption
    | (dsimp only [Keeps.mk_eq]; with_reducible apply KeepsD.of)
    | (extract_lets +onlyGivenNames x; refine Keeps.cut (s := s₀) (t := x) ?_ (fun hx => ?_); (on_goal 1 => (unfold x; clear x)); (on_goal 2 => clear_value x))
    | (extract_lets +onlyGivenNames x; refine Keeps.cut2 (s := s₀) (x := x) ?_ (fun hx => ?_); (on_goal 1 => (unfold x; clear x)); (on_goal 2 => clear_value x))
    | (extract_lets +onlyGivenNames x; refine Keeps.cut2 (s := s₀) (x := x.2) ?_ (fun hx => ?_); (on_goal 1 => (unfold x; clear x)); (on_goal 2 => clear_value x))
    | (extract_lets +onlyGivenNames x; (have hv : x = x := by unfold x; exact Eq.refl _); clear hv; clear_value x)
    | with_reducible apply Keeps.ite
    | with_reducible apply State.modCtx_keeps
    | with_reducible apply State.healthChanged_keeps
    | with_reducible apply State.healthEval_keeps
    | with_reducible apply State.stage_keeps
    | with_reducible apply Keeps.foldl
    | with_reducible apply Keeps.foldl2
    | split
    | (intro _; intros; try beta_reduce)

theorem State.ctxDiscard_keeps {s₀ : State} {s : State} {c cnt : Nat} (hk : Keeps s₀ s) :
    Keeps s₀ (State.ctxDiscard s c cnt) := by
  unfold State.ctxDiscard
  repeat' first
    | with_reducible assumption
    | (dsimp only [Keeps.mk_eq]; with_reducible apply KeepsD.of)
    | (extract_lets +onlyGivenNames x; refine Keeps.cut (s := s₀) (t := x) ?_ (fun hx => ?_); (on_goal 1 => (unfold x; clear x)); (on_goal 2 => clear_value x))
    | (extract_lets +onlyGivenNames x; refine Keeps.cut2 (s := s₀) (x := x) ?_ (fun hx => ?_); (on_goal 1 => (unfold x; clear x)); (on_goal 2 => clear_value x))
    | (extract_lets +onlyGivenNames x; refine Keeps.cut2 (s := s₀) (x := x.2) ?_ (fun hx => ?_); (on_goal 1 => (unfold x; clear x)); (on_goal 2 => clear_value x))
    | (extract_lets +onlyGivenNames x; (have hv : x = x := by unfold x; exact Eq.refl _); clear hv; clear_value x)
    | with_reducible apply Keeps.ite
    | with_reducible apply State.iclBump_keeps
    | with_reducible apply State.modCtx_keeps
    | with_reducible apply State.healthEval_keeps
    | split
    | (intro _; intros; try beta_reduce)

theorem State.putI_keeps {s₀ : State} {s : State} {i : Nat} {bs : List Bool} (hk : Keeps s₀ s) :
    Keeps s₀ (State.putI s i bs) := by
  unfold State.putI
  repeat' first
    | with_reducible assumption
    | with_reducible apply State.setI1_keeps
    | with_reducible apply Keeps.foldl
    | with_reducible apply Keeps.foldl2
    | (intro _; intros; try beta_reduce)

theorem State.gooseMembers_keeps {s₀ : State} {s : State} {w : List Nat} {vals : List GooseVal} (hk : Keeps s₀ s) :
    Keeps s₀ (State.gooseMembers s w vals) := by
  unfold State.gooseMembers
  repeat' first
    | with_reducible assumption
    | with_reducible apply Keeps.ite
    | with_reducible apply State.putI_keeps
    | with_reducible apply Keeps.foldl
    | with_reducible apply Keeps.foldl2
    | split
    | (intro _; intros; try beta_reduce)

theorem State.gooseFallback_keeps {s₀ : State} {s : State} {w : List Nat} (hk : Keeps s₀ s) :
    Keeps s₀ (State.gooseFallback s w) := by
  unfold State.gooseFallback
  repeat' first
    | with_reducible assumption
    | with_reducible apply Keeps.ite
    | with_reducible apply State.putI_keeps
    | with_reducible apply Keeps.foldl
    | with_reducible apply Keeps.foldl2
    | split
    | (intro _; intros; try beta_reduce)

theorem State.gooseAccept_keeps {s₀ : State} {s : State} {c : Nat} {e : RxEvent} {p : GoosePdu} {ts : Time} {coarse : Bool} (hk : Keeps s₀ s) :
    Keeps s₀ (State.gooseAccept s c e p ts coarse) := by
  unfold State.gooseAccept
  repeat' first
    | with_reducible assumption
    | (dsimp only [Keeps.mk_eq]; with_reducible apply KeepsD.of)
    | (extract_lets +onlyGivenNames x; refine Keeps.cut (s := s₀) (t := x) ?_ (fun hx => ?_); (on_goal 1 => (unfold x; clear x)); (on_goal 2 => clear_value x))
    | (extract_lets +onlyGivenNames x; refine Keeps.cut2 (s := s₀) (x := x) ?_ (fun hx => ?_); (on_goal 1 => (unfold x; clear x)); (on_goal 2 => clear_value x))
    | (extract_lets +onlyGivenNames x; refine Keeps.cut2 (s := s₀) (x := x.2) ?_ (fun hx => ?_); (on_goal 1 => (unfold x; clear x)); (on_goal 2 => clear_value x))
    | (extract_lets +onlyGivenNames x; (have hv : x = x := by unfold x; exact Eq.refl _); clear hv; clear_value x)
    | with_reducible apply Keeps.ite
    | with_reducible apply State.iclBump_keeps
    | with_reducible apply State.gooseMembers_keeps
    | with_reducible apply State.modCtx_keeps
    | with_reducible apply State.ctxBits_keeps
    | with_reducible apply State.stage_keeps
    | split
    | (intro _; intros; try beta_reduce)

theorem State.gooseConfErr_keeps {s₀ : State} {s : State} {c : Nat} (hk : Keeps s₀ s) :
    Keeps s₀ (State.gooseConfErr s c) := by
  unfold State.gooseConfErr
  repeat' first
    | with_reducible assumption
    | (dsimp only [Keeps.mk_eq]; with_reducible apply KeepsD.of)
    | (extract_lets +onlyGivenNames x; refine Keeps.cut (s := s₀) (t := x) ?_ (fun hx => ?_); (on_goal 1 => (unfold x; clear x)); (on_goal 2 => clear_value x))
    | (extract_lets +onlyGivenNames x; refine Keeps.cut2 (s := s₀) (x := x) ?_ (fun hx => ?_); (on_goal 1 => (unfold x; clear x)); (on_goal 2 => clear_value x))
    | (extract_lets +onlyGivenNames x; refine Keeps.cut2 (s := s₀) (x := x.2) ?_ (fun hx => ?_); (on_goal 1 => (unfold x; clear x)); (on_goal 2 => clear_value x))
    | (extract_lets +onlyGivenNames x; (have hv : x = x := by unfold x; exact Eq.refl _); clear hv; clear_value x)
    | with_reducible apply Keeps.ite
    | with_reducible apply State.ctxDiscard_keeps
    | with_reducible apply State.gooseFallback_keeps
    | with_reducible apply State.modCtx_keeps
    | with_reducible apply State.ctxBits_keeps
    | split
    | (intro _; intros; try beta_reduce)

theorem State.foreignRecord_keeps {s₀ : State} {s : State} {e : RxEvent} {ts : Time} {goose : Bool} {appid : Nat} {ident : Octets} (hk : Keeps s₀ s) :
    Keeps s₀ (State.foreignRecord s e ts goose appid ident) := by
  unfold State.foreignRecord
  repeat' first
    | with_reducible assumption
    | (dsimp only [Keeps.mk_eq]; with_reducible apply KeepsD.of)
    | (extract_lets +onlyGivenNames x; refine Keeps.cut (s := s₀) (t := x) ?_ (fun hx => ?_); (on_goal 1 => (unfold x; clear x)); (on_goal 2 => clear_value x))
    | (extract_lets +onlyGivenNames x; refine Keeps.cut2 (s := s₀) (x := x) ?_ (fun hx => ?_); (on_goal 1 => (unfold x; clear x)); (on_goal 2 => clear_value x))
    | (extract_lets +onlyGivenNames x; refine Keeps.cut2 (s := s₀) (x := x.2) ?_ (fun hx => ?_); (on_goal 1 => (unfold x; clear x)); (on_goal 2 => clear_value x))
    | (extract_lets +onlyGivenNames x; refine Keeps.cutF1 (s := s₀) (f := x) ?_ (fun kx => ?_); (on_goal 1 => (unfold x; clear x; intros; beta_reduce)); (on_goal 2 => clear_value x))
    | (extract_lets +onlyGivenNames x; refine Keeps.cutF2 (s := s₀) (f := x) ?_ (fun kx => ?_); (on_goal 1 => (unfold x; clear x; intros; beta_reduce)); (on_goal 2 => clear_value x))
    | (extract_lets +onlyGivenNames x; refine Keeps.cutG2 (s := s₀) (f := x) ?_ (fun kx => ?_); (on_goal 1 => (unfold x; clear x; intros; beta_reduce)); (on_goal 2 => clear_value x))
    | (extract_lets +onlyGivenNames x; refine Keeps.cutF3 (s := s₀) (f := x) ?_ (fun kx => ?_); (on_goal 1 => (unfold x; clear x; intros; beta_reduce)); (on_goal 2 => clear_value x))
    | (extract_lets +onlyGivenNames x; refine Keeps.cutF4 (s := s₀) (f := x) ?_ (fun kx => ?_); (on_goal 1 => (unfold x; clear x; intros; beta_reduce)); (on_goal 2 => clear_value x))
    | (extract_lets +onlyGivenNames x; (have hv : x = x := by unfold x; exact Eq.refl _); clear hv; clear_value x)
    | with_reducible apply Keeps.ite
    | with_reducible apply State.iclBump_keeps
    | with_reducible apply State.foreign_keeps
    | with_reducible apply State.event_keeps
    | with_reducible apply Keeps.foldl
    | with_reducible apply Keeps.foldl2
    | apply kx
    | split
    | (intro _; intros; try beta_reduce)

theorem State.foreign_keeps {s₀ : State} {s : State} {e : RxEvent} {ts : Time} {goose ok : Bool} {appid : Nat} {ident : Octets} (hk : Keeps s₀ s) :
    Keeps s₀ (State.foreign s e ts goose ok appid ident) := by
  unfold State.foreign
  repeat' first
    | with_reducible assumption
    | with_reducible apply Keeps.ite
    | with_reducible apply State.iclBump_keeps
    | with_reducible apply State.foreignRecord_keeps
    | split

theorem State.dupEnter_keeps {s₀ : State} {s : State} {e : RxEvent} {st : DupStatus} (hk : Keeps s₀ s) :
    Keeps s₀ (State.dupEnter s e st) := by
  unfold State.dupEnter
  repeat' first
    | with_reducible assumption
    | (dsimp only [Keeps.mk_eq]; with_reducible apply KeepsD.of)
    | (extract_lets +onlyGivenNames x; refine Keeps.cut (s := s₀) (t := x) ?_ (fun hx => ?_); (on_goal 1 => (unfold x; clear x)); (on_goal 2 => clear_value x))
    | (extract_lets +onlyGivenNames x; refine Keeps.cut2 (s := s₀) (x := x) ?_ (fun hx => ?_); (on_goal 1 => (unfold x; clear x)); (on_goal 2 => clear_value x))
    | (extract_lets +onlyGivenNames x; refine Keeps.cut2 (s := s₀) (x := x.2) ?_ (fun hx => ?_); (on_goal 1 => (unfold x; clear x)); (on_goal 2 => clear_value x))
    | (extract_lets +onlyGivenNames x; (have hv : x = x := by unfold x; exact Eq.refl _); clear hv; clear_value x)
    | with_reducible apply Keeps.ite
    | with_reducible apply State.modPair_keeps
    | with_reducible apply State.iclBump_keeps
    | split
    | (intro _; intros; try beta_reduce)

theorem State.dupDiscard_keeps {s₀ : State} {s : State} {port : Nat} (hk : Keeps s₀ s) :
    Keeps s₀ (State.dupDiscard s port) := by
  unfold State.dupDiscard
  repeat' first
    | with_reducible assumption
    | with_reducible apply Keeps.ite
    | with_reducible apply State.iclBump_keeps
    | split

theorem State.earlyWrite_keeps {s₀ : State} {s : State} {c : Nat} (hk : Keeps s₀ s) :
    Keeps s₀ (State.earlyWrite s c) := by
  unfold State.earlyWrite
  repeat' first
    | with_reducible assumption
    | (dsimp only [Keeps.mk_eq]; with_reducible apply KeepsD.of)
    | (extract_lets +onlyGivenNames x; refine Keeps.cut (s := s₀) (t := x) ?_ (fun hx => ?_); (on_goal 1 => (unfold x; clear x)); (on_goal 2 => clear_value x))
    | (extract_lets +onlyGivenNames x; refine Keeps.cut2 (s := s₀) (x := x) ?_ (fun hx => ?_); (on_goal 1 => (unfold x; clear x)); (on_goal 2 => clear_value x))
    | (extract_lets +onlyGivenNames x; refine Keeps.cut2 (s := s₀) (x := x.2) ?_ (fun hx => ?_); (on_goal 1 => (unfold x; clear x)); (on_goal 2 => clear_value x))
    | (extract_lets +onlyGivenNames x; (have hv : x = x := by unfold x; exact Eq.refl _); clear hv; clear_value x)
    | with_reducible apply Keeps.ite
    | with_reducible apply State.written_keeps
    | with_reducible apply State.svIndex_keeps
    | split
    | (intro _; intros; try beta_reduce)

theorem State.tagWait_keeps {s₀ : State} {s : State} {c : Nat} {e : RxEvent} {ts : Time} {coarse early : Bool} (hk : Keeps s₀ s) :
    Keeps s₀ (State.tagWait s c e ts coarse early) := by
  unfold State.tagWait
  repeat' first
    | with_reducible assumption
    | (dsimp only [Keeps.mk_eq]; with_reducible apply KeepsD.of)
    | (extract_lets +onlyGivenNames x; refine Keeps.cut (s := s₀) (t := x) ?_ (fun hx => ?_); (on_goal 1 => (unfold x; clear x)); (on_goal 2 => clear_value x))
    | (extract_lets +onlyGivenNames x; refine Keeps.cut2 (s := s₀) (x := x) ?_ (fun hx => ?_); (on_goal 1 => (unfold x; clear x)); (on_goal 2 => clear_value x))
    | (extract_lets +onlyGivenNames x; refine Keeps.cut2 (s := s₀) (x := x.2) ?_ (fun hx => ?_); (on_goal 1 => (unfold x; clear x)); (on_goal 2 => clear_value x))
    | (extract_lets +onlyGivenNames x; (have hv : x = x := by unfold x; exact Eq.refl _); clear hv; clear_value x)
    | with_reducible apply State.dupEnter_keeps
    | with_reducible apply State.earlyWrite_keeps

theorem State.svFrame_keeps {s₀ : State} {s : State} {c : Nat} {e : RxEvent} {p : SvPdu} {ts : Time} {coarse : Bool} (hk : Keeps s₀ s) :
    Keeps s₀ (State.svFrame s c e p ts coarse) := by
  unfold State.svFrame
  repeat' first
    | with_reducible assumption
    | (dsimp only [Keeps.mk_eq]; with_reducible apply KeepsD.of)
    | (extract_lets +onlyGivenNames x; refine Keeps.cut (s := s₀) (t := x) ?_ (fun hx => ?_); (on_goal 1 => (unfold x; clear x)); (on_goal 2 => clear_value x))
    | (extract_lets +onlyGivenNames x; refine Keeps.cut2 (s := s₀) (x := x) ?_ (fun hx => ?_); (on_goal 1 => (unfold x; clear x)); (on_goal 2 => clear_value x))
    | (extract_lets +onlyGivenNames x; refine Keeps.cut2 (s := s₀) (x := x.2) ?_ (fun hx => ?_); (on_goal 1 => (unfold x; clear x)); (on_goal 2 => clear_value x))
    | (extract_lets +onlyGivenNames x; (have hv : x = x := by unfold x; exact Eq.refl _); clear hv; clear_value x)
    | with_reducible apply Keeps.ite
    | with_reducible apply State.iclBump_keeps
    | with_reducible apply State.ctxDiscard_keeps
    | with_reducible apply State.modCtx_keeps
    | with_reducible apply State.tagWait_keeps
    | with_reducible apply State.dupEnter_keeps
    | with_reducible apply State.svIndex_keeps
    | with_reducible apply State.svAccept_keeps
    | split
    | (intro _; intros; try beta_reduce)

theorem State.gooseFrame_keeps {s₀ : State} {s : State} {c : Nat} {e : RxEvent} {p : GoosePdu} {ts : Time} {coarse : Bool} (hk : Keeps s₀ s) :
    Keeps s₀ (State.gooseFrame s c e p ts coarse) := by
  unfold State.gooseFrame
  repeat' first
    | with_reducible assumption
    | (dsimp only [Keeps.mk_eq]; with_reducible apply KeepsD.of)
    | (extract_lets +onlyGivenNames x; refine Keeps.cut (s := s₀) (t := x) ?_ (fun hx => ?_); (on_goal 1 => (unfold x; clear x)); (on_goal 2 => clear_value x))
    | (extract_lets +onlyGivenNames x; refine Keeps.cut2 (s := s₀) (x := x) ?_ (fun hx => ?_); (on_goal 1 => (unfold x; clear x)); (on_goal 2 => clear_value x))
    | (extract_lets +onlyGivenNames x; refine Keeps.cut2 (s := s₀) (x := x.2) ?_ (fun hx => ?_); (on_goal 1 => (unfold x; clear x)); (on_goal 2 => clear_value x))
    | (extract_lets +onlyGivenNames x; (have hv : x = x := by unfold x; exact Eq.refl _); clear hv; clear_value x)
    | with_reducible apply Keeps.ite
    | with_reducible apply State.iclBump_keeps
    | with_reducible apply State.gooseConfErr_keeps
    | with_reducible apply State.ctxDiscard_keeps
    | with_reducible apply State.modCtx_keeps
    | with_reducible apply State.tagWait_keeps
    | with_reducible apply State.dupEnter_keeps
    | with_reducible apply State.ctxBits_keeps
    | with_reducible apply State.gooseAccept_keeps
    | split
    | (intro _; intros; try beta_reduce)

theorem State.foreignNew_keeps {s₀ : State} {s : State} {e : RxEvent} {ts : Time} {goose ok : Bool} {appid : Nat} {ident : Octets} (hk : Keeps s₀ s) :
    Keeps s₀ (State.foreignNew s e ts goose ok appid ident) := by
  unfold State.foreignNew
  repeat' first
    | with_reducible assumption
    | with_reducible apply Keeps.ite
    | with_reducible apply State.dupEnter_keeps
    | with_reducible apply State.foreign_keeps
    | split

theorem State.classifyNew_keeps {s₀ : State} {s : State} {e : RxEvent} {ts : Time} {coarse : Bool} (hk : Keeps s₀ s) :
    Keeps s₀ (State.classifyNew s e ts coarse) := by
  unfold State.classifyNew
  repeat' first
    | with_reducible assumption
    | (dsimp only [Keeps.mk_eq]; with_reducible apply KeepsD.of)
    | (extract_lets +onlyGivenNames x; refine Keeps.cut (s := s₀) (t := x) ?_ (fun hx => ?_); (on_goal 1 => (unfold x; clear x)); (on_goal 2 => clear_value x))
    | (extract_lets +onlyGivenNames x; refine Keeps.cut2 (s := s₀) (x := x) ?_ (fun hx => ?_); (on_goal 1 => (unfold x; clear x)); (on_goal 2 => clear_value x))
    | (extract_lets +onlyGivenNames x; refine Keeps.cut2 (s := s₀) (x := x.2) ?_ (fun hx => ?_); (on_goal 1 => (unfold x; clear x)); (on_goal 2 => clear_value x))
    | (extract_lets +onlyGivenNames x; refine Keeps.cutF1 (s := s₀) (f := x) ?_ (fun kx => ?_); (on_goal 1 => (unfold x; clear x; intros; beta_reduce)); (on_goal 2 => clear_value x))
    | (extract_lets +onlyGivenNames x; refine Keeps.cutF2 (s := s₀) (f := x) ?_ (fun kx => ?_); (on_goal 1 => (unfold x; clear x; intros; beta_reduce)); (on_goal 2 => clear_value x))
    | (extract_lets +onlyGivenNames x; refine Keeps.cutG2 (s := s₀) (f := x) ?_ (fun kx => ?_); (on_goal 1 => (unfold x; clear x; intros; beta_reduce)); (on_goal 2 => clear_value x))
    | (extract_lets +onlyGivenNames x; refine Keeps.cutF3 (s := s₀) (f := x) ?_ (fun kx => ?_); (on_goal 1 => (unfold x; clear x; intros; beta_reduce)); (on_goal 2 => clear_value x))
    | (extract_lets +onlyGivenNames x; refine Keeps.cutF4 (s := s₀) (f := x) ?_ (fun kx => ?_); (on_goal 1 => (unfold x; clear x; intros; beta_reduce)); (on_goal 2 => clear_value x))
    | (extract_lets +onlyGivenNames x; (have hv : x = x := by unfold x; exact Eq.refl _); clear hv; clear_value x)
    | with_reducible apply Keeps.ite
    | with_reducible apply State.dupEnter_keeps
    | with_reducible apply State.foreignNew_keeps
    | with_reducible apply State.svFrame_keeps
    | with_reducible apply State.gooseFrame_keeps
    | with_reducible apply State.bump_keeps
    | with_reducible apply State.steer_keeps
    | apply kx
    | split
    | (intro _; intros; try beta_reduce)

theorem State.classifyCopy_keeps {s₀ : State} {s : State} {e : RxEvent} {ts : Time} {coarse : Bool} (hk : Keeps s₀ s) :
    Keeps s₀ (State.classifyCopy s e ts coarse) := by
  unfold State.classifyCopy
  repeat' first
    | with_reducible assumption
    | (dsimp only [Keeps.mk_eq]; with_reducible apply KeepsD.of)
    | with_reducible apply State.dupDiscard_keeps
    | with_reducible apply State.classifyNew_keeps
    | split

theorem State.classify_keeps {s₀ : State} {s : State} {e : RxEvent} {ts : Time} {coarse : Bool} (hk : Keeps s₀ s) :
    Keeps s₀ (State.classify s e ts coarse) := by
  unfold State.classify
  repeat' first
    | with_reducible assumption
    | with_reducible apply Keeps.ite
    | with_reducible apply State.peerPublication_keeps
    | with_reducible apply State.classifyCopy_keeps
    | split

theorem State.heldCopies_keeps {s₀ : State} {s : State} {e : RxEvent} {pass : Bool} (hk : Keeps s₀ s) :
    Keeps s₀ (State.heldCopies s e pass) := by
  unfold State.heldCopies
  repeat' first
    | with_reducible assumption
    | (dsimp only [Keeps.mk_eq]; with_reducible apply KeepsD.of)
    | (extract_lets +onlyGivenNames x; refine Keeps.cut (s := s₀) (t := x) ?_ (fun hx => ?_); (on_goal 1 => (unfold x; clear x)); (on_goal 2 => clear_value x))
    | (extract_lets +onlyGivenNames x; refine Keeps.cut2 (s := s₀) (x := x) ?_ (fun hx => ?_); (on_goal 1 => (unfold x; clear x)); (on_goal 2 => clear_value x))
    | (extract_lets +onlyGivenNames x; refine Keeps.cut2 (s := s₀) (x := x.2) ?_ (fun hx => ?_); (on_goal 1 => (unfold x; clear x)); (on_goal 2 => clear_value x))
    | (extract_lets +onlyGivenNames x; refine Keeps.cutF1 (s := s₀) (f := x) ?_ (fun kx => ?_); (on_goal 1 => (unfold x; clear x; intros; beta_reduce)); (on_goal 2 => clear_value x))
    | (extract_lets +onlyGivenNames x; refine Keeps.cutF2 (s := s₀) (f := x) ?_ (fun kx => ?_); (on_goal 1 => (unfold x; clear x; intros; beta_reduce)); (on_goal 2 => clear_value x))
    | (extract_lets +onlyGivenNames x; refine Keeps.cutG2 (s := s₀) (f := x) ?_ (fun kx => ?_); (on_goal 1 => (unfold x; clear x; intros; beta_reduce)); (on_goal 2 => clear_value x))
    | (extract_lets +onlyGivenNames x; refine Keeps.cutF3 (s := s₀) (f := x) ?_ (fun kx => ?_); (on_goal 1 => (unfold x; clear x; intros; beta_reduce)); (on_goal 2 => clear_value x))
    | (extract_lets +onlyGivenNames x; refine Keeps.cutF4 (s := s₀) (f := x) ?_ (fun kx => ?_); (on_goal 1 => (unfold x; clear x; intros; beta_reduce)); (on_goal 2 => clear_value x))
    | (extract_lets +onlyGivenNames x; (have hv : x = x := by unfold x; exact Eq.refl _); clear hv; clear_value x)
    | with_reducible apply Keeps.ite
    | with_reducible apply State.dupDiscard_keeps
    | with_reducible apply State.dupEnter_keeps
    | with_reducible apply State.modPair_keeps
    | with_reducible apply State.classifyCopy_keeps
    | with_reducible apply Keeps.foldl
    | with_reducible apply Keeps.foldl2
    | apply kx
    | split
    | (intro _; intros; try beta_reduce)

theorem State.tagFollows_keeps {s₀ : State} {s : State} {t : TagWait} {pass : Bool} (hk : Keeps s₀ s) :
    Keeps s₀ (State.tagFollows s t pass) := by
  unfold State.tagFollows
  repeat' first
    | with_reducible assumption
    | (dsimp only [Keeps.mk_eq]; with_reducible apply KeepsD.of)
    | (extract_lets +onlyGivenNames x; refine Keeps.cut (s := s₀) (t := x) ?_ (fun hx => ?_); (on_goal 1 => (unfold x; clear x)); (on_goal 2 => clear_value x))
    | (extract_lets +onlyGivenNames x; refine Keeps.cut2 (s := s₀) (x := x) ?_ (fun hx => ?_); (on_goal 1 => (unfold x; clear x)); (on_goal 2 => clear_value x))
    | (extract_lets +onlyGivenNames x; refine Keeps.cut2 (s := s₀) (x := x.2) ?_ (fun hx => ?_); (on_goal 1 => (unfold x; clear x)); (on_goal 2 => clear_value x))
    | (extract_lets +onlyGivenNames x; refine Keeps.cutF1 (s := s₀) (f := x) ?_ (fun kx => ?_); (on_goal 1 => (unfold x; clear x; intros; beta_reduce)); (on_goal 2 => clear_value x))
    | (extract_lets +onlyGivenNames x; refine Keeps.cutF2 (s := s₀) (f := x) ?_ (fun kx => ?_); (on_goal 1 => (unfold x; clear x; intros; beta_reduce)); (on_goal 2 => clear_value x))
    | (extract_lets +onlyGivenNames x; refine Keeps.cutG2 (s := s₀) (f := x) ?_ (fun kx => ?_); (on_goal 1 => (unfold x; clear x; intros; beta_reduce)); (on_goal 2 => clear_value x))
    | (extract_lets +onlyGivenNames x; refine Keeps.cutF3 (s := s₀) (f := x) ?_ (fun kx => ?_); (on_goal 1 => (unfold x; clear x; intros; beta_reduce)); (on_goal 2 => clear_value x))
    | (extract_lets +onlyGivenNames x; refine Keeps.cutF4 (s := s₀) (f := x) ?_ (fun kx => ?_); (on_goal 1 => (unfold x; clear x; intros; beta_reduce)); (on_goal 2 => clear_value x))
    | (extract_lets +onlyGivenNames x; (have hv : x = x := by unfold x; exact Eq.refl _); clear hv; clear_value x)
    | with_reducible apply Keeps.ite
    | with_reducible apply State.written_keeps
    | with_reducible apply State.samplesResult_keeps
    | apply kx
    | split
    | (intro _; intros; try beta_reduce)

theorem State.untrack_keeps {s₀ : State} {s : State} {t : TagWait} (hk : Keeps s₀ s) :
    Keeps s₀ (State.untrack s t) := by
  unfold State.untrack
  repeat' first
    | with_reducible assumption
    | (dsimp only [Keeps.mk_eq]; with_reducible apply KeepsD.of)
    | (extract_lets +onlyGivenNames x; refine Keeps.cut (s := s₀) (t := x) ?_ (fun hx => ?_); (on_goal 1 => (unfold x; clear x)); (on_goal 2 => clear_value x))
    | (extract_lets +onlyGivenNames x; refine Keeps.cut2 (s := s₀) (x := x) ?_ (fun hx => ?_); (on_goal 1 => (unfold x; clear x)); (on_goal 2 => clear_value x))
    | (extract_lets +onlyGivenNames x; refine Keeps.cut2 (s := s₀) (x := x.2) ?_ (fun hx => ?_); (on_goal 1 => (unfold x; clear x)); (on_goal 2 => clear_value x))
    | (extract_lets +onlyGivenNames x; (have hv : x = x := by unfold x; exact Eq.refl _); clear hv; clear_value x)
    | with_reducible apply Keeps.ite
    | with_reducible apply State.written_keeps
    | with_reducible apply State.setF_keeps
    | with_reducible apply State.modCtx_keeps
    | with_reducible apply State.tagFollows_keeps
    | split
    | (intro _; intros; try beta_reduce)

theorem tagResult_keeps {s₀ : State} {c : Nat} {pass : Bool} {s : State} (hk : Keeps s₀ s) :
    Keeps s₀ (tagResult c pass s) := by
  unfold tagResult
  repeat' first
    | with_reducible assumption
    | (dsimp only [Keeps.mk_eq]; with_reducible apply KeepsD.of)
    | (extract_lets +onlyGivenNames x; refine Keeps.cut (s := s₀) (t := x) ?_ (fun hx => ?_); (on_goal 1 => (unfold x; clear x)); (on_goal 2 => clear_value x))
    | (extract_lets +onlyGivenNames x; refine Keeps.cut2 (s := s₀) (x := x) ?_ (fun hx => ?_); (on_goal 1 => (unfold x; clear x)); (on_goal 2 => clear_value x))
    | (extract_lets +onlyGivenNames x; refine Keeps.cut2 (s := s₀) (x := x.2) ?_ (fun hx => ?_); (on_goal 1 => (unfold x; clear x)); (on_goal 2 => clear_value x))
    | (extract_lets +onlyGivenNames x; (have hv : x = x := by unfold x; exact Eq.refl _); clear hv; clear_value x)
    | with_reducible apply Keeps.ite
    | with_reducible apply State.written_keeps
    | with_reducible apply State.iclBump_keeps
    | with_reducible apply State.tagFollows_keeps
    | with_reducible apply State.heldCopies_keeps
    | with_reducible apply State.svAccept_keeps
    | with_reducible apply State.svIndex_keeps
    | with_reducible apply State.gooseAccept_keeps
    | with_reducible apply State.earlyWrite_keeps
    | with_reducible apply State.untrack_keeps
    | with_reducible apply State.ctxDiscard_keeps
    | split
    | (intro _; intros; try beta_reduce)

theorem dupEntryExpiry_keeps {s₀ : State} {k sa seq : Nat} {s : State} (hk : Keeps s₀ s) :
    Keeps s₀ (dupEntryExpiry k sa seq s) := by
  unfold dupEntryExpiry
  repeat' first
    | with_reducible assumption
    | (dsimp only [Keeps.mk_eq]; with_reducible apply KeepsD.of)
    | (extract_lets +onlyGivenNames x; refine Keeps.cut (s := s₀) (t := x) ?_ (fun hx => ?_); (on_goal 1 => (unfold x; clear x)); (on_goal 2 => clear_value x))
    | (extract_lets +onlyGivenNames x; refine Keeps.cut2 (s := s₀) (x := x) ?_ (fun hx => ?_); (on_goal 1 => (unfold x; clear x)); (on_goal 2 => clear_value x))
    | (extract_lets +onlyGivenNames x; refine Keeps.cut2 (s := s₀) (x := x.2) ?_ (fun hx => ?_); (on_goal 1 => (unfold x; clear x)); (on_goal 2 => clear_value x))
    | (extract_lets +onlyGivenNames x; refine Keeps.cutF1 (s := s₀) (f := x) ?_ (fun kx => ?_); (on_goal 1 => (unfold x; clear x; intros; beta_reduce)); (on_goal 2 => clear_value x))
    | (extract_lets +onlyGivenNames x; refine Keeps.cutF2 (s := s₀) (f := x) ?_ (fun kx => ?_); (on_goal 1 => (unfold x; clear x; intros; beta_reduce)); (on_goal 2 => clear_value x))
    | (extract_lets +onlyGivenNames x; refine Keeps.cutG2 (s := s₀) (f := x) ?_ (fun kx => ?_); (on_goal 1 => (unfold x; clear x; intros; beta_reduce)); (on_goal 2 => clear_value x))
    | (extract_lets +onlyGivenNames x; refine Keeps.cutF3 (s := s₀) (f := x) ?_ (fun kx => ?_); (on_goal 1 => (unfold x; clear x; intros; beta_reduce)); (on_goal 2 => clear_value x))
    | (extract_lets +onlyGivenNames x; refine Keeps.cutF4 (s := s₀) (f := x) ?_ (fun kx => ?_); (on_goal 1 => (unfold x; clear x; intros; beta_reduce)); (on_goal 2 => clear_value x))
    | (extract_lets +onlyGivenNames x; (have hv : x = x := by unfold x; exact Eq.refl _); clear hv; clear_value x)
    | with_reducible apply State.advanceTo_keeps
    | with_reducible apply State.modPair_keeps
    | apply kx
    | split
    | (intro _; intros; try beta_reduce)

theorem gooseTalExpiry_keeps {s₀ : State} {c : Nat} {s : State} (hk : Keeps s₀ s) :
    Keeps s₀ (gooseTalExpiry c s) := by
  unfold gooseTalExpiry
  repeat' first
    | with_reducible assumption
    | (dsimp only [Keeps.mk_eq]; with_reducible apply KeepsD.of)
    | (extract_lets +onlyGivenNames x; refine Keeps.cut (s := s₀) (t := x) ?_ (fun hx => ?_); (on_goal 1 => (unfold x; clear x)); (on_goal 2 => clear_value x))
    | (extract_lets +onlyGivenNames x; refine Keeps.cut2 (s := s₀) (x := x) ?_ (fun hx => ?_); (on_goal 1 => (unfold x; clear x)); (on_goal 2 => clear_value x))
    | (extract_lets +onlyGivenNames x; refine Keeps.cut2 (s := s₀) (x := x.2) ?_ (fun hx => ?_); (on_goal 1 => (unfold x; clear x)); (on_goal 2 => clear_value x))
    | (extract_lets +onlyGivenNames x; (have hv : x = x := by unfold x; exact Eq.refl _); clear hv; clear_value x)
    | with_reducible apply Keeps.ite
    | with_reducible apply State.advanceTo_keeps
    | with_reducible apply State.gooseFallback_keeps
    | with_reducible apply State.modCtx_keeps
    | with_reducible apply State.ctxBits_keeps
    | split
    | (intro _; intros; try beta_reduce)

theorem svLoss_keeps {s₀ : State} {c : Nat} {s : State} (hk : Keeps s₀ s) :
    Keeps s₀ (svLoss c s) := by
  unfold svLoss
  repeat' first
    | with_reducible assumption
    | (dsimp only [Keeps.mk_eq]; with_reducible apply KeepsD.of)
    | (extract_lets +onlyGivenNames x; refine Keeps.cut (s := s₀) (t := x) ?_ (fun hx => ?_); (on_goal 1 => (unfold x; clear x)); (on_goal 2 => clear_value x))
    | (extract_lets +onlyGivenNames x; refine Keeps.cut2 (s := s₀) (x := x) ?_ (fun hx => ?_); (on_goal 1 => (unfold x; clear x)); (on_goal 2 => clear_value x))
    | (extract_lets +onlyGivenNames x; refine Keeps.cut2 (s := s₀) (x := x.2) ?_ (fun hx => ?_); (on_goal 1 => (unfold x; clear x)); (on_goal 2 => clear_value x))
    | (extract_lets +onlyGivenNames x; (have hv : x = x := by unfold x; exact Eq.refl _); clear hv; clear_value x)
    | with_reducible apply Keeps.ite
    | with_reducible apply State.advanceTo_keeps
    | with_reducible apply State.modCtx_keeps
    | with_reducible apply State.healthChanged_keeps
    | split
    | (intro _; intros; try beta_reduce)

theorem svHealthRestore_keeps {s₀ : State} {c : Nat} {s : State} (hk : Keeps s₀ s) :
    Keeps s₀ (svHealthRestore c s) := by
  unfold svHealthRestore
  repeat' first
    | with_reducible assumption
    | (dsimp only [Keeps.mk_eq]; with_reducible apply KeepsD.of)
    | (extract_lets +onlyGivenNames x; refine Keeps.cut (s := s₀) (t := x) ?_ (fun hx => ?_); (on_goal 1 => (unfold x; clear x)); (on_goal 2 => clear_value x))
    | (extract_lets +onlyGivenNames x; refine Keeps.cut2 (s := s₀) (x := x) ?_ (fun hx => ?_); (on_goal 1 => (unfold x; clear x)); (on_goal 2 => clear_value x))
    | (extract_lets +onlyGivenNames x; refine Keeps.cut2 (s := s₀) (x := x.2) ?_ (fun hx => ?_); (on_goal 1 => (unfold x; clear x)); (on_goal 2 => clear_value x))
    | (extract_lets +onlyGivenNames x; (have hv : x = x := by unfold x; exact Eq.refl _); clear hv; clear_value x)
    | with_reducible apply State.advanceTo_keeps
    | with_reducible apply State.modCtx_keeps
    | with_reducible apply State.healthChanged_keeps
    | split
    | (intro _; intros; try beta_reduce)

theorem altRestore_keeps {s₀ : State} {c : Nat} {s : State} (hk : Keeps s₀ s) :
    Keeps s₀ (altRestore c s) := by
  unfold altRestore
  repeat' first
    | with_reducible assumption
    | (dsimp only [Keeps.mk_eq]; with_reducible apply KeepsD.of)
    | (extract_lets +onlyGivenNames x; refine Keeps.cut (s := s₀) (t := x) ?_ (fun hx => ?_); (on_goal 1 => (unfold x; clear x)); (on_goal 2 => clear_value x))
    | (extract_lets +onlyGivenNames x; refine Keeps.cut2 (s := s₀) (x := x) ?_ (fun hx => ?_); (on_goal 1 => (unfold x; clear x)); (on_goal 2 => clear_value x))
    | (extract_lets +onlyGivenNames x; refine Keeps.cut2 (s := s₀) (x := x.2) ?_ (fun hx => ?_); (on_goal 1 => (unfold x; clear x)); (on_goal 2 => clear_value x))
    | (extract_lets +onlyGivenNames x; (have hv : x = x := by unfold x; exact Eq.refl _); clear hv; clear_value x)
    | with_reducible apply State.advanceTo_keeps
    | with_reducible apply State.feederTo_keeps
    | split

theorem execTagResult_keeps {s₀ : State} {ctx : Nat} {pass : Bool} {s : State} (hk : Keeps s₀ s) :
    KeepsR s₀ (execTagResult ctx pass s) := by
  exact KeepsR.next (tagResult_keeps hk)

theorem execDupEntryExpiry_keeps {s₀ : State} {pair sa seq : Nat} {s : State} (hk : Keeps s₀ s) :
    KeepsR s₀ (execDupEntryExpiry pair sa seq s) := by
  exact KeepsR.next (dupEntryExpiry_keeps hk)

theorem execGooseTalExpiry_keeps {s₀ : State} {ctx : Nat} {s : State} (hk : Keeps s₀ s) :
    KeepsR s₀ (execGooseTalExpiry ctx s) := by
  exact KeepsR.next (gooseTalExpiry_keeps hk)

theorem execSvLoss_keeps {s₀ : State} {ctx : Nat} {s : State} (hk : Keeps s₀ s) :
    KeepsR s₀ (execSvLoss ctx s) := by
  exact KeepsR.next (svLoss_keeps hk)

theorem execSvHealthRestore_keeps {s₀ : State} {ctx : Nat} {s : State} (hk : Keeps s₀ s) :
    KeepsR s₀ (execSvHealthRestore ctx s) := by
  exact KeepsR.next (svHealthRestore_keeps hk)

theorem execAltRestore_keeps {s₀ : State} {ctx : Nat} {s : State} (hk : Keeps s₀ s) :
    KeepsR s₀ (execAltRestore ctx s) := by
  exact KeepsR.next (altRestore_keeps hk)

/-! ### Ports -/

theorem State.pauseRx_keeps {s₀ : State} {s : State} {p q : Nat} (hk : Keeps s₀ s) :
    Keeps s₀ (State.pauseRx s p q) := by
  unfold State.pauseRx
  repeat' first
    | with_reducible assumption
    | (dsimp only [Keeps.mk_eq]; with_reducible apply KeepsD.of)
    | (extract_lets +onlyGivenNames x; refine Keeps.cut (s := s₀) (t := x) ?_ (fun hx => ?_); (on_goal 1 => (unfold x; clear x)); (on_goal 2 => clear_value x))
    | (extract_lets +onlyGivenNames x; refine Keeps.cut2 (s := s₀) (x := x) ?_ (fun hx => ?_); (on_goal 1 => (unfold x; clear x)); (on_goal 2 => clear_value x))
    | (extract_lets +onlyGivenNames x; refine Keeps.cut2 (s := s₀) (x := x.2) ?_ (fun hx => ?_); (on_goal 1 => (unfold x; clear x)); (on_goal 2 => clear_value x))
    | (extract_lets +onlyGivenNames x; (have hv : x = x := by unfold x; exact Eq.refl _); clear hv; clear_value x)
    | with_reducible apply Keeps.ite
    | with_reducible apply State.macBump_keeps
    | with_reducible apply State.modMac_keeps
    | with_reducible apply State.setF_keeps
    | split
    | (intro _; intros; try beta_reduce)

theorem State.remember_keeps {s₀ : State} {s : State} {p : Nat} {f : Frame} (hk : Keeps s₀ s) :
    Keeps s₀ (State.remember s p f) := by
  unfold State.remember
  repeat' first
    | with_reducible assumption
    | (dsimp only [Keeps.mk_eq]; with_reducible apply KeepsD.of)
    | with_reducible apply Keeps.ite
    | with_reducible apply State.modPair_keeps
    | with_reducible apply State.macBump_keeps
    | split
    | (intro _; intros; try beta_reduce)

theorem State.hsrForward_keeps {s₀ : State} {s : State} {p : Nat} {f : Frame} {rxAt : Time} {bad : Bool} (hk : Keeps s₀ s) :
    Keeps s₀ (State.hsrForward s p f rxAt bad) := by
  unfold State.hsrForward
  repeat' first
    | with_reducible assumption
    | (dsimp only [Keeps.mk_eq]; with_reducible apply KeepsD.of)
    | (extract_lets +onlyGivenNames x; refine Keeps.cut (s := s₀) (t := x) ?_ (fun hx => ?_); (on_goal 1 => (unfold x; clear x)); (on_goal 2 => clear_value x))
    | (extract_lets +onlyGivenNames x; refine Keeps.cut2 (s := s₀) (x := x) ?_ (fun hx => ?_); (on_goal 1 => (unfold x; clear x)); (on_goal 2 => clear_value x))
    | (extract_lets +onlyGivenNames x; refine Keeps.cut2 (s := s₀) (x := x.2) ?_ (fun hx => ?_); (on_goal 1 => (unfold x; clear x)); (on_goal 2 => clear_value x))
    | (extract_lets +onlyGivenNames x; (have hv : x = x := by unfold x; exact Eq.refl _); clear hv; clear_value x)
    | with_reducible apply Keeps.ite
    | with_reducible apply State.macBump_keeps
    | with_reducible apply State.remember_keeps
    | with_reducible apply State.txSubmit_keeps
    | split

theorem State.passOn_keeps {s₀ : State} {s : State} {h : RxHeld} (hk : Keeps s₀ s) :
    Keeps s₀ (State.passOn s h) := by
  unfold State.passOn
  repeat' first
    | with_reducible assumption
    | (dsimp only [Keeps.mk_eq]; with_reducible apply KeepsD.of)
    | (extract_lets +onlyGivenNames x; refine Keeps.cut (s := s₀) (t := x) ?_ (fun hx => ?_); (on_goal 1 => (unfold x; clear x)); (on_goal 2 => clear_value x))
    | (extract_lets +onlyGivenNames x; refine Keeps.cut2 (s := s₀) (x := x) ?_ (fun hx => ?_); (on_goal 1 => (unfold x; clear x)); (on_goal 2 => clear_value x))
    | (extract_lets +onlyGivenNames x; refine Keeps.cut2 (s := s₀) (x := x.2) ?_ (fun hx => ?_); (on_goal 1 => (unfold x; clear x)); (on_goal 2 => clear_value x))
    | (extract_lets +onlyGivenNames x; (have hv : x = x := by unfold x; exact Eq.refl _); clear hv; clear_value x)
    | with_reducible apply Keeps.ite
    | with_reducible apply State.setF_keeps
    | with_reducible apply State.modPair_keeps
    | with_reducible apply State.classify_keeps
    | with_reducible apply State.steer_keeps
    | split
    | (intro _; intros; try beta_reduce)

theorem State.forceDown_keeps {s₀ : State} {s : State} {p d : Nat} (hk : Keeps s₀ s) :
    Keeps s₀ (State.forceDown s p d) := by
  unfold State.forceDown
  repeat' first
    | with_reducible assumption
    | (dsimp only [Keeps.mk_eq]; with_reducible apply KeepsD.of)
    | with_reducible apply State.linkFall_keeps
    | with_reducible apply State.modMac_keeps
    | (intro _; intros; try beta_reduce)

theorem State.weevilRx_keeps {s₀ : State} {s : State} {h : RxHeld} (hk : Keeps s₀ s) :
    Keeps s₀ (State.weevilRx s h) := by
  unfold State.weevilRx
  repeat' first
    | with_reducible assumption
    | (dsimp only [Keeps.mk_eq]; with_reducible apply KeepsD.of)
    | (extract_lets +onlyGivenNames x; refine Keeps.cut (s := s₀) (t := x) ?_ (fun hx => ?_); (on_goal 1 => (unfold x; clear x)); (on_goal 2 => clear_value x))
    | (extract_lets +onlyGivenNames x; refine Keeps.cut2 (s := s₀) (x := x) ?_ (fun hx => ?_); (on_goal 1 => (unfold x; clear x)); (on_goal 2 => clear_value x))
    | (extract_lets +onlyGivenNames x; refine Keeps.cut2 (s := s₀) (x := x.2) ?_ (fun hx => ?_); (on_goal 1 => (unfold x; clear x)); (on_goal 2 => clear_value x))
    | (extract_lets +onlyGivenNames x; (have hv : x = x := by unfold x; exact Eq.refl _); clear hv; clear_value x)
    | with_reducible apply Keeps.ite
    | with_reducible apply State.passOn_keeps
    | with_reducible apply State.wvlCount_keeps
    | with_reducible apply State.modMac_keeps
    | with_reducible apply State.forceDown_keeps
    | with_reducible apply State.pauseRx_keeps
    | split
    | (intro _; intros; try beta_reduce)

theorem State.weevilMsg_keeps {s₀ : State} {s : State} {p e : Nat} {act : State → State} (hk : Keeps s₀ s) (kact : ∀ u, Keeps s₀ u → Keeps s₀ (act u)) :
    Keeps s₀ (State.weevilMsg s p e act) := by
  unfold State.weevilMsg
  repeat' first
    | with_reducible assumption
    | (dsimp only [Keeps.mk_eq]; with_reducible apply KeepsD.of)
    | (extract_lets +onlyGivenNames x; refine Keeps.cut (s := s₀) (t := x) ?_ (fun hx => ?_); (on_goal 1 => (unfold x; clear x)); (on_goal 2 => clear_value x))
    | (extract_lets +onlyGivenNames x; refine Keeps.cut2 (s := s₀) (x := x) ?_ (fun hx => ?_); (on_goal 1 => (unfold x; clear x)); (on_goal 2 => clear_value x))
    | (extract_lets +onlyGivenNames x; refine Keeps.cut2 (s := s₀) (x := x.2) ?_ (fun hx => ?_); (on_goal 1 => (unfold x; clear x)); (on_goal 2 => clear_value x))
    | (extract_lets +onlyGivenNames x; (have hv : x = x := by unfold x; exact Eq.refl _); clear hv; clear_value x)
    | with_reducible apply State.wvlCount_keeps
    | with_reducible apply State.advanceTo_keeps
    | with_reducible apply State.forceDown_keeps
    | with_reducible apply State.pauseRx_keeps
    | split
    | apply kact
    | (intro _; intros; try beta_reduce)

theorem State.ptpMsg_keeps {s₀ : State} {s : State} {p : Nat} {act : State → State} (hk : Keeps s₀ s) (kact : ∀ u, Keeps s₀ u → Keeps s₀ (act u)) :
    Keeps s₀ (State.ptpMsg s p act) := by
  unfold State.ptpMsg
  repeat' first
    | with_reducible assumption
    | with_reducible apply Keeps.ite
    | with_reducible apply State.weevilMsg_keeps
    | split
    | apply kact
    | (intro _; intros; try beta_reduce)

theorem State.pairMsg_keeps {s₀ : State} {s : State} {p : Nat} {act : State → State} (hk : Keeps s₀ s) (kact : ∀ u, Keeps s₀ u → Keeps s₀ (act u)) :
    Keeps s₀ (State.pairMsg s p act) := by
  unfold State.pairMsg
  repeat' first
    | with_reducible assumption
    | with_reducible apply State.weevilMsg_keeps
    | apply kact
    | (intro _; intros; try beta_reduce)

theorem State.rxGood_keeps {s₀ : State} {s : State} {e : RxEvent} (hk : Keeps s₀ s) :
    Keeps s₀ (State.rxGood s e) := by
  unfold State.rxGood
  repeat' first
    | with_reducible assumption
    | (dsimp only [Keeps.mk_eq]; with_reducible apply KeepsD.of)
    | (extract_lets +onlyGivenNames x; refine Keeps.cut (s := s₀) (t := x) ?_ (fun hx => ?_); (on_goal 1 => (unfold x; clear x)); (on_goal 2 => clear_value x))
    | (extract_lets +onlyGivenNames x; refine Keeps.cut2 (s := s₀) (x := x) ?_ (fun hx => ?_); (on_goal 1 => (unfold x; clear x)); (on_goal 2 => clear_value x))
    | (extract_lets +onlyGivenNames x; refine Keeps.cut2 (s := s₀) (x := x.2) ?_ (fun hx => ?_); (on_goal 1 => (unfold x; clear x)); (on_goal 2 => clear_value x))
    | (extract_lets +onlyGivenNames x; (have hv : x = x := by unfold x; exact Eq.refl _); clear hv; clear_value x)
    | with_reducible apply Keeps.ite
    | with_reducible apply State.macBump_keeps
    | with_reducible apply State.hsrForward_keeps
    | with_reducible apply State.weevilRx_keeps
    | with_reducible apply State.bumpBy_keeps
    | split

theorem macRxFrame_keeps {s₀ : State} {e : RxEvent} {s : State} (hk : Keeps s₀ s) :
    Keeps s₀ (macRxFrame e s) := by
  unfold macRxFrame
  repeat' first
    | with_reducible assumption
    | (dsimp only [Keeps.mk_eq]; with_reducible apply KeepsD.of)
    | (extract_lets +onlyGivenNames x; refine Keeps.cut (s := s₀) (t := x) ?_ (fun hx => ?_); (on_goal 1 => (unfold x; clear x)); (on_goal 2 => clear_value x))
    | (extract_lets +onlyGivenNames x; refine Keeps.cut2 (s := s₀) (x := x) ?_ (fun hx => ?_); (on_goal 1 => (unfold x; clear x)); (on_goal 2 => clear_value x))
    | (extract_lets +onlyGivenNames x; refine Keeps.cut2 (s := s₀) (x := x.2) ?_ (fun hx => ?_); (on_goal 1 => (unfold x; clear x)); (on_goal 2 => clear_value x))
    | (extract_lets +onlyGivenNames x; (have hv : x = x := by unfold x; exact Eq.refl _); clear hv; clear_value x)
    | with_reducible apply Keeps.ite
    | with_reducible apply State.bumpBy_keeps
    | with_reducible apply State.macBump_keeps
    | with_reducible apply State.hsrForward_keeps
    | with_reducible apply State.pauseRx_keeps
    | with_reducible apply State.rxGood_keeps
    | with_reducible apply State.setB_keeps
    | split

theorem rxDescriptorsComplete_keeps {s₀ : State} {p : Nat} {s : State} (hk : Keeps s₀ s) :
    Keeps s₀ (rxDescriptorsComplete p s) := by
  unfold rxDescriptorsComplete
  repeat' first
    | with_reducible assumption
    | (dsimp only [Keeps.mk_eq]; with_reducible apply KeepsD.of)
    | (extract_lets +onlyGivenNames x; refine Keeps.cut (s := s₀) (t := x) ?_ (fun hx => ?_); (on_goal 1 => (unfold x; clear x)); (on_goal 2 => clear_value x))
    | (extract_lets +onlyGivenNames x; refine Keeps.cut2 (s := s₀) (x := x) ?_ (fun hx => ?_); (on_goal 1 => (unfold x; clear x)); (on_goal 2 => clear_value x))
    | (extract_lets +onlyGivenNames x; refine Keeps.cut2 (s := s₀) (x := x.2) ?_ (fun hx => ?_); (on_goal 1 => (unfold x; clear x)); (on_goal 2 => clear_value x))
    | (extract_lets +onlyGivenNames x; refine Keeps.cutF1 (s := s₀) (f := x) ?_ (fun kx => ?_); (on_goal 1 => (unfold x; clear x; intros; beta_reduce)); (on_goal 2 => clear_value x))
    | (extract_lets +onlyGivenNames x; refine Keeps.cutF2 (s := s₀) (f := x) ?_ (fun kx => ?_); (on_goal 1 => (unfold x; clear x; intros; beta_reduce)); (on_goal 2 => clear_value x))
    | (extract_lets +onlyGivenNames x; refine Keeps.cutG2 (s := s₀) (f := x) ?_ (fun kx => ?_); (on_goal 1 => (unfold x; clear x; intros; beta_reduce)); (on_goal 2 => clear_value x))
    | (extract_lets +onlyGivenNames x; refine Keeps.cutF3 (s := s₀) (f := x) ?_ (fun kx => ?_); (on_goal 1 => (unfold x; clear x; intros; beta_reduce)); (on_goal 2 => clear_value x))
    | (extract_lets +onlyGivenNames x; refine Keeps.cutF4 (s := s₀) (f := x) ?_ (fun kx => ?_); (on_goal 1 => (unfold x; clear x; intros; beta_reduce)); (on_goal 2 => clear_value x))
    | (extract_lets +onlyGivenNames x; (have hv : x = x := by unfold x; exact Eq.refl _); clear hv; clear_value x)
    | with_reducible apply Keeps.ite
    | with_reducible apply State.modMac_keeps
    | with_reducible apply State.wrOctets_keeps
    | with_reducible apply State.sliceWr_keeps
    | with_reducible apply State.modRing_keeps
    | with_reducible apply State.modSlice_keeps
    | with_reducible apply State.pauseLevel_keeps
    | with_reducible apply State.advanceHead_keeps
    | with_reducible apply State.sliceError_keeps
    | with_reducible apply Keeps.forN
    | apply kx
    | split
    | (intro _; intros; try beta_reduce)

theorem linkUp_keeps {s₀ : State} {p : Nat} {held : Bool} {speed : Nat} {full : Bool} {s : State} (hk : Keeps s₀ s) :
    Keeps s₀ (linkUp p held speed full s) := by
  unfold linkUp
  repeat' first
    | with_reducible assumption
    | (dsimp only [Keeps.mk_eq]; with_reducible apply KeepsD.of)
    | (extract_lets +onlyGivenNames x; refine Keeps.cut (s := s₀) (t := x) ?_ (fun hx => ?_); (on_goal 1 => (unfold x; clear x)); (on_goal 2 => clear_value x))
    | (extract_lets +onlyGivenNames x; refine Keeps.cut2 (s := s₀) (x := x) ?_ (fun hx => ?_); (on_goal 1 => (unfold x; clear x)); (on_goal 2 => clear_value x))
    | (extract_lets +onlyGivenNames x; refine Keeps.cut2 (s := s₀) (x := x.2) ?_ (fun hx => ?_); (on_goal 1 => (unfold x; clear x)); (on_goal 2 => clear_value x))
    | (extract_lets +onlyGivenNames x; (have hv : x = x := by unfold x; exact Eq.refl _); clear hv; clear_value x)
    | with_reducible apply Keeps.ite
    | with_reducible apply State.setF_keeps
    | with_reducible apply State.modMac_keeps
    | with_reducible apply State.linkFall_keeps
    | with_reducible apply State.setB_keeps
    | with_reducible apply State.advanceTo_keeps
    | split
    | (intro _; intros; try beta_reduce)

theorem linkDown_keeps {s₀ : State} {p cause : Nat} {s : State} (hk : Keeps s₀ s) :
    Keeps s₀ (linkDown p cause s) := by
  unfold linkDown
  repeat' first
    | with_reducible assumption
    | (dsimp only [Keeps.mk_eq]; with_reducible apply KeepsD.of)
    | (extract_lets +onlyGivenNames x; refine Keeps.cut (s := s₀) (t := x) ?_ (fun hx => ?_); (on_goal 1 => (unfold x; clear x)); (on_goal 2 => clear_value x))
    | (extract_lets +onlyGivenNames x; refine Keeps.cut2 (s := s₀) (x := x) ?_ (fun hx => ?_); (on_goal 1 => (unfold x; clear x)); (on_goal 2 => clear_value x))
    | (extract_lets +onlyGivenNames x; refine Keeps.cut2 (s := s₀) (x := x.2) ?_ (fun hx => ?_); (on_goal 1 => (unfold x; clear x)); (on_goal 2 => clear_value x))
    | (extract_lets +onlyGivenNames x; (have hv : x = x := by unfold x; exact Eq.refl _); clear hv; clear_value x)
    | with_reducible apply Keeps.ite
    | with_reducible apply State.modMac_keeps
    | with_reducible apply State.setF_keeps
    | with_reducible apply State.linkFall_keeps
    | split
    | (intro _; intros; try beta_reduce)

theorem weevilLinkDownEnd_keeps {s₀ : State} {p : Nat} {s : State} (hk : Keeps s₀ s) :
    Keeps s₀ (weevilLinkDownEnd p s) := by
  unfold weevilLinkDownEnd
  repeat' first
    | with_reducible assumption
    | (dsimp only [Keeps.mk_eq]; with_reducible apply KeepsD.of)
    | (extract_lets +onlyGivenNames x; refine Keeps.cut (s := s₀) (t := x) ?_ (fun hx => ?_); (on_goal 1 => (unfold x; clear x)); (on_goal 2 => clear_value x))
    | (extract_lets +onlyGivenNames x; refine Keeps.cut2 (s := s₀) (x := x) ?_ (fun hx => ?_); (on_goal 1 => (unfold x; clear x)); (on_goal 2 => clear_value x))
    | (extract_lets +onlyGivenNames x; refine Keeps.cut2 (s := s₀) (x := x.2) ?_ (fun hx => ?_); (on_goal 1 => (unfold x; clear x)); (on_goal 2 => clear_value x))
    | (extract_lets +onlyGivenNames x; (have hv : x = x := by unfold x; exact Eq.refl _); clear hv; clear_value x)
    | with_reducible apply Keeps.ite
    | with_reducible apply State.advanceTo_keeps
    | with_reducible apply State.setF_keeps
    | with_reducible apply State.modMac_keeps
    | split
    | (intro _; intros; try beta_reduce)

theorem State.startNext_keeps {s₀ : State} {s : State} {p : Nat} (hk : Keeps s₀ s) :
    Keeps s₀ (State.startNext s p) := by
  unfold State.startNext
  repeat' first
    | with_reducible assumption
    | (dsimp only [Keeps.mk_eq]; with_reducible apply KeepsD.of)
    | (extract_lets +onlyGivenNames x; refine Keeps.cut (s := s₀) (t := x) ?_ (fun hx => ?_); (on_goal 1 => (unfold x; clear x)); (on_goal 2 => clear_value x))
    | (extract_lets +onlyGivenNames x; refine Keeps.cut2 (s := s₀) (x := x) ?_ (fun hx => ?_); (on_goal 1 => (unfold x; clear x)); (on_goal 2 => clear_value x))
    | (extract_lets +onlyGivenNames x; refine Keeps.cut2 (s := s₀) (x := x.2) ?_ (fun hx => ?_); (on_goal 1 => (unfold x; clear x)); (on_goal 2 => clear_value x))
    | (extract_lets +onlyGivenNames x; (have hv : x = x := by unfold x; exact Eq.refl _); clear hv; clear_value x)
    | with_reducible apply Keeps.ite
    | with_reducible apply State.modMac_keeps
    | with_reducible apply State.macBump_keeps
    | with_reducible apply State.ptpStarted_keeps
    | with_reducible apply State.txFail_keeps
    | with_reducible apply State.drawn_keeps
    | split
    | (intro _; intros; try beta_reduce)

theorem macTxStart_keeps {s₀ : State} {p : Nat} {s : State} (hk : Keeps s₀ s) :
    Keeps s₀ (macTxStart p s) := by
  unfold macTxStart
  repeat' first
    | with_reducible assumption
    | (extract_lets +onlyGivenNames x; refine Keeps.cut (s := s₀) (t := x) ?_ (fun hx => ?_); (on_goal 1 => (unfold x; clear x)); (on_goal 2 => clear_value x))
    | (extract_lets +onlyGivenNames x; refine Keeps.cut2 (s := s₀) (x := x) ?_ (fun hx => ?_); (on_goal 1 => (unfold x; clear x)); (on_goal 2 => clear_value x))
    | (extract_lets +onlyGivenNames x; refine Keeps.cut2 (s := s₀) (x := x.2) ?_ (fun hx => ?_); (on_goal 1 => (unfold x; clear x)); (on_goal 2 => clear_value x))
    | (extract_lets +onlyGivenNames x; (have hv : x = x := by unfold x; exact Eq.refl _); clear hv; clear_value x)
    | with_reducible apply Keeps.ite
    | with_reducible apply State.startNext_keeps
    | split

theorem macTxEnd_keeps {s₀ : State} {p : Nat} {s : State} (hk : Keeps s₀ s) :
    Keeps s₀ (macTxEnd p s) := by
  unfold macTxEnd
  repeat' first
    | with_reducible assumption
    | (dsimp only [Keeps.mk_eq]; with_reducible apply KeepsD.of)
    | (extract_lets +onlyGivenNames x; refine Keeps.cut (s := s₀) (t := x) ?_ (fun hx => ?_); (on_goal 1 => (unfold x; clear x)); (on_goal 2 => clear_value x))
    | (extract_lets +onlyGivenNames x; refine Keeps.cut2 (s := s₀) (x := x) ?_ (fun hx => ?_); (on_goal 1 => (unfold x; clear x)); (on_goal 2 => clear_value x))
    | (extract_lets +onlyGivenNames x; refine Keeps.cut2 (s := s₀) (x := x.2) ?_ (fun hx => ?_); (on_goal 1 => (unfold x; clear x)); (on_goal 2 => clear_value x))
    | (extract_lets +onlyGivenNames x; (have hv : x = x := by unfold x; exact Eq.refl _); clear hv; clear_value x)
    | with_reducible apply Keeps.ite
    | with_reducible apply State.advanceTo_keeps
    | with_reducible apply State.modMac_keeps
    | with_reducible apply State.macBump_keeps
    | with_reducible apply State.txCopyEnd_keeps
    | with_reducible apply State.pauseRise_keeps
    | with_reducible apply State.forceDown_keeps
    | with_reducible apply State.bumpBy_keeps
    | split
    | (intro _; intros; try beta_reduce)

theorem hsrEntryExpiry_keeps {s₀ : State} {k sa seq : Nat} {s : State} (hk : Keeps s₀ s) :
    Keeps s₀ (hsrEntryExpiry k sa seq s) := by
  unfold hsrEntryExpiry
  repeat' first
    | with_reducible assumption
    | (dsimp only [Keeps.mk_eq]; with_reducible apply KeepsD.of)
    | (extract_lets +onlyGivenNames x; refine Keeps.cut (s := s₀) (t := x) ?_ (fun hx => ?_); (on_goal 1 => (unfold x; clear x)); (on_goal 2 => clear_value x))
    | (extract_lets +onlyGivenNames x; refine Keeps.cut2 (s := s₀) (x := x) ?_ (fun hx => ?_); (on_goal 1 => (unfold x; clear x)); (on_goal 2 => clear_value x))
    | (extract_lets +onlyGivenNames x; refine Keeps.cut2 (s := s₀) (x := x.2) ?_ (fun hx => ?_); (on_goal 1 => (unfold x; clear x)); (on_goal 2 => clear_value x))
    | (extract_lets +onlyGivenNames x; refine Keeps.cutF1 (s := s₀) (f := x) ?_ (fun kx => ?_); (on_goal 1 => (unfold x; clear x; intros; beta_reduce)); (on_goal 2 => clear_value x))
    | (extract_lets +onlyGivenNames x; refine Keeps.cutF2 (s := s₀) (f := x) ?_ (fun kx => ?_); (on_goal 1 => (unfold x; clear x; intros; beta_reduce)); (on_goal 2 => clear_value x))
    | (extract_lets +onlyGivenNames x; refine Keeps.cutG2 (s := s₀) (f := x) ?_ (fun kx => ?_); (on_goal 1 => (unfold x; clear x; intros; beta_reduce)); (on_goal 2 => clear_value x))
    | (extract_lets +onlyGivenNames x; refine Keeps.cutF3 (s := s₀) (f := x) ?_ (fun kx => ?_); (on_goal 1 => (unfold x; clear x; intros; beta_reduce)); (on_goal 2 => clear_value x))
    | (extract_lets +onlyGivenNames x; refine Keeps.cutF4 (s := s₀) (f := x) ?_ (fun kx => ?_); (on_goal 1 => (unfold x; clear x; intros; beta_reduce)); (on_goal 2 => clear_value x))
    | (extract_lets +onlyGivenNames x; (have hv : x = x := by unfold x; exact Eq.refl _); clear hv; clear_value x)
    | with_reducible apply State.advanceTo_keeps
    | with_reducible apply State.modPair_keeps
    | apply kx
    | split
    | (intro _; intros; try beta_reduce)

theorem supervisionTx_keeps {s₀ : State} {k : Nat} {s : State} (hk : Keeps s₀ s) :
    Keeps s₀ (supervisionTx k s) := by
  unfold supervisionTx
  repeat' first
    | with_reducible assumption
    | (dsimp only [Keeps.mk_eq]; with_reducible apply KeepsD.of)
    | (extract_lets +onlyGivenNames x; refine Keeps.cut (s := s₀) (t := x) ?_ (fun hx => ?_); (on_goal 1 => (unfold x; clear x)); (on_goal 2 => clear_value x))
    | (extract_lets +onlyGivenNames x; refine Keeps.cut2 (s := s₀) (x := x) ?_ (fun hx => ?_); (on_goal 1 => (unfold x; clear x)); (on_goal 2 => clear_value x))
    | (extract_lets +onlyGivenNames x; refine Keeps.cut2 (s := s₀) (x := x.2) ?_ (fun hx => ?_); (on_goal 1 => (unfold x; clear x)); (on_goal 2 => clear_value x))
    | (extract_lets +onlyGivenNames x; (have hv : x = x := by unfold x; exact Eq.refl _); clear hv; clear_value x)
    | with_reducible apply Keeps.ite
    | with_reducible apply State.advanceTo_keeps
    | with_reducible apply State.modPair_keeps
    | with_reducible apply State.txPair_keeps
    | split
    | (intro _; intros; try beta_reduce)

theorem pauseEnd_keeps {s₀ : State} {p : Nat} {s : State} (hk : Keeps s₀ s) :
    Keeps s₀ (pauseEnd p s) := by
  unfold pauseEnd
  repeat' first
    | with_reducible assumption
    | (dsimp only [Keeps.mk_eq]; with_reducible apply KeepsD.of)
    | with_reducible apply State.advanceTo_keeps
    | with_reducible apply State.modMac_keeps
    | with_reducible apply State.setF_keeps
    | split
    | (intro _; intros; try beta_reduce)

theorem pauseWd_keeps {s₀ : State} {p : Nat} {s : State} (hk : Keeps s₀ s) :
    Keeps s₀ (pauseWd p s) := by
  unfold pauseWd
  repeat' first
    | with_reducible assumption
    | (dsimp only [Keeps.mk_eq]; with_reducible apply KeepsD.of)
    | (extract_lets +onlyGivenNames x; refine Keeps.cut (s := s₀) (t := x) ?_ (fun hx => ?_); (on_goal 1 => (unfold x; clear x)); (on_goal 2 => clear_value x))
    | (extract_lets +onlyGivenNames x; refine Keeps.cut2 (s := s₀) (x := x) ?_ (fun hx => ?_); (on_goal 1 => (unfold x; clear x)); (on_goal 2 => clear_value x))
    | (extract_lets +onlyGivenNames x; refine Keeps.cut2 (s := s₀) (x := x.2) ?_ (fun hx => ?_); (on_goal 1 => (unfold x; clear x)); (on_goal 2 => clear_value x))
    | (extract_lets +onlyGivenNames x; (have hv : x = x := by unfold x; exact Eq.refl _); clear hv; clear_value x)
    | with_reducible apply Keeps.ite
    | with_reducible apply State.advanceTo_keeps
    | with_reducible apply State.modMac_keeps
    | with_reducible apply State.setF_keeps
    | with_reducible apply State.macBump_keeps
    | with_reducible apply State.belfry_keeps
    | split
    | (intro _; intros; try beta_reduce)

theorem pauseIgnoreEnd_keeps {s₀ : State} {p : Nat} {s : State} (hk : Keeps s₀ s) :
    Keeps s₀ (pauseIgnoreEnd p s) := by
  unfold pauseIgnoreEnd
  repeat' first
    | with_reducible assumption
    | with_reducible apply Keeps.ite
    | with_reducible apply State.advanceTo_keeps
    | with_reducible apply State.setF_keeps
    | split

theorem pauseRepeat_keeps {s₀ : State} {p : Nat} {s : State} (hk : Keeps s₀ s) :
    Keeps s₀ (pauseRepeat p s) := by
  unfold pauseRepeat
  repeat' first
    | with_reducible assumption
    | (extract_lets +onlyGivenNames x; refine Keeps.cut (s := s₀) (t := x) ?_ (fun hx => ?_); (on_goal 1 => (unfold x; clear x)); (on_goal 2 => clear_value x))
    | (extract_lets +onlyGivenNames x; refine Keeps.cut2 (s := s₀) (x := x) ?_ (fun hx => ?_); (on_goal 1 => (unfold x; clear x)); (on_goal 2 => clear_value x))
    | (extract_lets +onlyGivenNames x; refine Keeps.cut2 (s := s₀) (x := x.2) ?_ (fun hx => ?_); (on_goal 1 => (unfold x; clear x)); (on_goal 2 => clear_value x))
    | (extract_lets +onlyGivenNames x; (have hv : x = x := by unfold x; exact Eq.refl _); clear hv; clear_value x)
    | with_reducible apply Keeps.ite
    | with_reducible apply State.advanceTo_keeps
    | with_reducible apply State.pauseSend_keeps
    | split

theorem lpiEntry_keeps {s₀ : State} {p : Nat} {s : State} (hk : Keeps s₀ s) :
    Keeps s₀ (lpiEntry p s) := by
  unfold lpiEntry
  repeat' first
    | with_reducible assumption
    | (dsimp only [Keeps.mk_eq]; with_reducible apply KeepsD.of)
    | (extract_lets +onlyGivenNames x; refine Keeps.cut (s := s₀) (t := x) ?_ (fun hx => ?_); (on_goal 1 => (unfold x; clear x)); (on_goal 2 => clear_value x))
    | (extract_lets +onlyGivenNames x; refine Keeps.cut2 (s := s₀) (x := x) ?_ (fun hx => ?_); (on_goal 1 => (unfold x; clear x)); (on_goal 2 => clear_value x))
    | (extract_lets +onlyGivenNames x; refine Keeps.cut2 (s := s₀) (x := x.2) ?_ (fun hx => ?_); (on_goal 1 => (unfold x; clear x)); (on_goal 2 => clear_value x))
    | (extract_lets +onlyGivenNames x; (have hv : x = x := by unfold x; exact Eq.refl _); clear hv; clear_value x)
    | with_reducible apply Keeps.ite
    | with_reducible apply State.advanceTo_keeps
    | with_reducible apply State.macBump_keeps
    | with_reducible apply State.modMac_keeps
    | with_reducible apply State.setF_keeps
    | split
    | (intro _; intros; try beta_reduce)

theorem lpiWakeEnd_keeps {s₀ : State} {p : Nat} {s : State} (hk : Keeps s₀ s) :
    Keeps s₀ (lpiWakeEnd p s) := by
  unfold lpiWakeEnd
  repeat' first
    | with_reducible assumption
    | (dsimp only [Keeps.mk_eq]; with_reducible apply KeepsD.of)
    | (extract_lets +onlyGivenNames x; refine Keeps.cut (s := s₀) (t := x) ?_ (fun hx => ?_); (on_goal 1 => (unfold x; clear x)); (on_goal 2 => clear_value x))
    | (extract_lets +onlyGivenNames x; refine Keeps.cut2 (s := s₀) (x := x) ?_ (fun hx => ?_); (on_goal 1 => (unfold x; clear x)); (on_goal 2 => clear_value x))
    | (extract_lets +onlyGivenNames x; refine Keeps.cut2 (s := s₀) (x := x.2) ?_ (fun hx => ?_); (on_goal 1 => (unfold x; clear x)); (on_goal 2 => clear_value x))
    | (extract_lets +onlyGivenNames x; (have hv : x = x := by unfold x; exact Eq.refl _); clear hv; clear_value x)
    | with_reducible apply Keeps.ite
    | with_reducible apply State.advanceTo_keeps
    | with_reducible apply State.modMac_keeps
    | with_reducible apply State.startNext_keeps
    | with_reducible apply State.setF_keeps
    | split
    | (intro _; intros; try beta_reduce)

theorem lldpTx_keeps {s₀ : State} {p : Nat} {s : State} (hk : Keeps s₀ s) :
    Keeps s₀ (lldpTx p s) := by
  unfold lldpTx
  repeat' first
    | with_reducible assumption
    | (dsimp only [Keeps.mk_eq]; with_reducible apply KeepsD.of)
    | (extract_lets +onlyGivenNames x; refine Keeps.cut (s := s₀) (t := x) ?_ (fun hx => ?_); (on_goal 1 => (unfold x; clear x)); (on_goal 2 => clear_value x))
    | (extract_lets +onlyGivenNames x; refine Keeps.cut2 (s := s₀) (x := x) ?_ (fun hx => ?_); (on_goal 1 => (unfold x; clear x)); (on_goal 2 => clear_value x))
    | (extract_lets +onlyGivenNames x; refine Keeps.cut2 (s := s₀) (x := x.2) ?_ (fun hx => ?_); (on_goal 1 => (unfold x; clear x)); (on_goal 2 => clear_value x))
    | (extract_lets +onlyGivenNames x; (have hv : x = x := by unfold x; exact Eq.refl _); clear hv; clear_value x)
    | with_reducible apply Keeps.ite
    | with_reducible apply State.modMac_keeps
    | with_reducible apply State.txPair_keeps
    | split
    | (intro _; intros; try beta_reduce)

theorem weevilDelayEnd_keeps {s₀ : State} {p : Nat} {tx : Bool} {s : State} (hk : Keeps s₀ s) :
    Keeps s₀ (weevilDelayEnd p tx s) := by
  unfold weevilDelayEnd
  repeat' first
    | with_reducible assumption
    | (dsimp only [Keeps.mk_eq]; with_reducible apply KeepsD.of)
    | (extract_lets +onlyGivenNames x; refine Keeps.cut (s := s₀) (t := x) ?_ (fun hx => ?_); (on_goal 1 => (unfold x; clear x)); (on_goal 2 => clear_value x))
    | (extract_lets +onlyGivenNames x; refine Keeps.cut2 (s := s₀) (x := x) ?_ (fun hx => ?_); (on_goal 1 => (unfold x; clear x)); (on_goal 2 => clear_value x))
    | (extract_lets +onlyGivenNames x; refine Keeps.cut2 (s := s₀) (x := x.2) ?_ (fun hx => ?_); (on_goal 1 => (unfold x; clear x)); (on_goal 2 => clear_value x))
    | (extract_lets +onlyGivenNames x; (have hv : x = x := by unfold x; exact Eq.refl _); clear hv; clear_value x)
    | with_reducible apply Keeps.ite
    | with_reducible apply State.advanceTo_keeps
    | with_reducible apply State.modMac_keeps
    | with_reducible apply State.toClass_keeps
    | with_reducible apply State.passOn_keeps
    | split
    | (intro _; intros; try beta_reduce)

theorem weevilDuplicateCopy_keeps {s₀ : State} {p : Nat} {s : State} (hk : Keeps s₀ s) :
    Keeps s₀ (weevilDuplicateCopy p s) := by
  unfold weevilDuplicateCopy
  repeat' first
    | with_reducible assumption
    | (dsimp only [Keeps.mk_eq]; with_reducible apply KeepsD.of)
    | with_reducible apply State.advanceTo_keeps
    | with_reducible apply State.modMac_keeps
    | with_reducible apply State.passOn_keeps
    | split
    | (intro _; intros; try beta_reduce)

theorem State.wvlArm_keeps {s₀ : State} {s : State} {on : Bool} (hk : Keeps s₀ s) :
    Keeps s₀ (State.wvlArm s on) := by
  unfold State.wvlArm
  repeat' first
    | with_reducible assumption
    | with_reducible apply Keeps.ite
    | with_reducible apply State.setB_keeps
    | with_reducible apply State.belfry_keeps
    | with_reducible apply State.extendMs_keeps
    | split

theorem State.wvlRestart_keeps {s₀ : State} {s : State} {r v : Nat} (hk : Keeps s₀ s) :
    Keeps s₀ (State.wvlRestart s r v) := by
  unfold State.wvlRestart
  repeat' first
    | with_reducible assumption
    | (dsimp only [Keeps.mk_eq]; with_reducible apply KeepsD.of)
    | (extract_lets +onlyGivenNames x; refine Keeps.cut (s := s₀) (t := x) ?_ (fun hx => ?_); (on_goal 1 => (unfold x; clear x)); (on_goal 2 => clear_value x))
    | (extract_lets +onlyGivenNames x; refine Keeps.cut2 (s := s₀) (x := x) ?_ (fun hx => ?_); (on_goal 1 => (unfold x; clear x)); (on_goal 2 => clear_value x))
    | (extract_lets +onlyGivenNames x; refine Keeps.cut2 (s := s₀) (x := x.2) ?_ (fun hx => ?_); (on_goal 1 => (unfold x; clear x)); (on_goal 2 => clear_value x))
    | (extract_lets +onlyGivenNames x; (have hv : x = x := by unfold x; exact Eq.refl _); clear hv; clear_value x)
    | with_reducible apply State.setF_keeps

theorem wvlArmWrite_keeps {s₀ : State} {m : Master} {v : Nat} {s : State} (hk : Keeps s₀ s) :
    Keeps s₀ (wvlArmWrite m v s) := by
  unfold wvlArmWrite
  repeat' first
    | with_reducible assumption
    | (extract_lets +onlyGivenNames x; refine Keeps.cut (s := s₀) (t := x) ?_ (fun hx => ?_); (on_goal 1 => (unfold x; clear x)); (on_goal 2 => clear_value x))
    | (extract_lets +onlyGivenNames x; refine Keeps.cut2 (s := s₀) (x := x) ?_ (fun hx => ?_); (on_goal 1 => (unfold x; clear x)); (on_goal 2 => clear_value x))
    | (extract_lets +onlyGivenNames x; refine Keeps.cut2 (s := s₀) (x := x.2) ?_ (fun hx => ?_); (on_goal 1 => (unfold x; clear x)); (on_goal 2 => clear_value x))
    | (extract_lets +onlyGivenNames x; (have hv : x = x := by unfold x; exact Eq.refl _); clear hv; clear_value x)
    | with_reducible apply Keeps.ite
    | with_reducible apply State.granted_keeps
    | with_reducible apply State.wvlArm_keeps
    | with_reducible apply State.setB_keeps
    | split
    | (intro _; intros; try beta_reduce)

theorem wvlRuleCountWrite_keeps {s₀ : State} {m : Master} {r v : Nat} {s : State} (hk : Keeps s₀ s) :
    Keeps s₀ (wvlRuleCountWrite m r v s) := by
  unfold wvlRuleCountWrite
  repeat' first
    | with_reducible assumption
    | with_reducible apply Keeps.ite
    | with_reducible apply State.granted_keeps
    | with_reducible apply State.wvlRestart_keeps
    | with_reducible apply State.busError_keeps
    | split
    | (intro _; intros; try beta_reduce)

theorem execMacRxFrame_keeps {s₀ : State} {e : RxEvent} {s : State} (hk : Keeps s₀ s) :
    KeepsR s₀ (execMacRxFrame e s) := by
  exact KeepsR.next (macRxFrame_keeps hk)

theorem execRxDescriptorsComplete_keeps {s₀ : State} {port : Nat} {s : State} (hk : Keeps s₀ s) :
    KeepsR s₀ (execRxDescriptorsComplete port s) := by
  exact KeepsR.next (rxDescriptorsComplete_keeps hk)

theorem execLinkUp_keeps {s₀ : State} {l : LinkReport} {s : State} (hk : Keeps s₀ s) :
    KeepsR s₀ (execLinkUp l s) := by
  exact KeepsR.next (linkUp_keeps hk)

theorem execLinkDown_keeps {s₀ : State} {l : LinkLoss} {s : State} (hk : Keeps s₀ s) :
    KeepsR s₀ (execLinkDown l s) := by
  exact KeepsR.next (linkDown_keeps hk)

theorem execMacTxStart_keeps {s₀ : State} {port : Nat} {s : State} (hk : Keeps s₀ s) :
    KeepsR s₀ (execMacTxStart port s) := by
  exact KeepsR.next (macTxStart_keeps hk)

theorem execMacTxEnd_keeps {s₀ : State} {port : Nat} {s : State} (hk : Keeps s₀ s) :
    KeepsR s₀ (execMacTxEnd port s) := by
  exact KeepsR.next (macTxEnd_keeps hk)

theorem execHsrEntryExpiry_keeps {s₀ : State} {pair sa seq : Nat} {s : State} (hk : Keeps s₀ s) :
    KeepsR s₀ (execHsrEntryExpiry pair sa seq s) := by
  exact KeepsR.next (hsrEntryExpiry_keeps hk)

theorem execSupervisionTx_keeps {s₀ : State} {pair : Nat} {s : State} (hk : Keeps s₀ s) :
    KeepsR s₀ (execSupervisionTx pair s) := by
  exact KeepsR.next (supervisionTx_keeps hk)

theorem execPauseEnd_keeps {s₀ : State} {port : Nat} {s : State} (hk : Keeps s₀ s) :
    KeepsR s₀ (execPauseEnd port s) := by
  exact KeepsR.next (pauseEnd_keeps hk)

theorem execPauseWd_keeps {s₀ : State} {port : Nat} {s : State} (hk : Keeps s₀ s) :
    KeepsR s₀ (execPauseWd port s) := by
  exact KeepsR.next (pauseWd_keeps hk)

theorem execPauseIgnoreEnd_keeps {s₀ : State} {port : Nat} {s : State} (hk : Keeps s₀ s) :
    KeepsR s₀ (execPauseIgnoreEnd port s) := by
  exact KeepsR.next (pauseIgnoreEnd_keeps hk)

theorem execPauseRepeat_keeps {s₀ : State} {port : Nat} {s : State} (hk : Keeps s₀ s) :
    KeepsR s₀ (execPauseRepeat port s) := by
  exact KeepsR.next (pauseRepeat_keeps hk)

theorem execLpiEntry_keeps {s₀ : State} {port : Nat} {s : State} (hk : Keeps s₀ s) :
    KeepsR s₀ (execLpiEntry port s) := by
  exact KeepsR.next (lpiEntry_keeps hk)

theorem execLpiWakeEnd_keeps {s₀ : State} {port : Nat} {s : State} (hk : Keeps s₀ s) :
    KeepsR s₀ (execLpiWakeEnd port s) := by
  exact KeepsR.next (lpiWakeEnd_keeps hk)

theorem execLldpTx_keeps {s₀ : State} {port : Nat} {s : State} (hk : Keeps s₀ s) :
    KeepsR s₀ (execLldpTx port s) := by
  exact KeepsR.next (lldpTx_keeps hk)

theorem execWeevilDelayEnd_keeps {s₀ : State} {port : Nat} {tx : Bool} {s : State} (hk : Keeps s₀ s) :
    KeepsR s₀ (execWeevilDelayEnd port tx s) := by
  exact KeepsR.next (weevilDelayEnd_keeps hk)

theorem execWeevilDuplicateCopy_keeps {s₀ : State} {port : Nat} {s : State} (hk : Keeps s₀ s) :
    KeepsR s₀ (execWeevilDuplicateCopy port s) := by
  exact KeepsR.next (weevilDuplicateCopy_keeps hk)

theorem execWeevilLinkDownEnd_keeps {s₀ : State} {port : Nat} {s : State} (hk : Keeps s₀ s) :
    KeepsR s₀ (execWeevilLinkDownEnd port s) := by
  exact KeepsR.next (weevilLinkDownEnd_keeps hk)

theorem execWvlArmWrite_keeps {s₀ : State} {m : Master} {value : Nat} {s : State} (hk : Keeps s₀ s) :
    KeepsR s₀ (execWvlArmWrite m value s) := by
  exact KeepsR.next (wvlArmWrite_keeps hk)

theorem execWvlRuleCountWrite_keeps {s₀ : State} {m : Master} {rule value : Nat} {s : State} (hk : Keeps s₀ s) :
    KeepsR s₀ (execWvlRuleCountWrite m rule value s) := by
  exact KeepsR.next (wvlRuleCountWrite_keeps hk)

theorem State.keysAfter_keeps {s₀ : State} {s t : State} (hk0 : Keeps s₀ s) (hk1 : Keeps s₀ t) :
    Keeps s₀ (State.keysAfter s t) := by
  unfold State.keysAfter
  repeat' first
    | with_reducible assumption
    | with_reducible apply Keeps.ite
    | with_reducible apply State.keysFollow_keeps
    | split

theorem execPtpSyncRx_keeps {s₀ : State} {m : PtpSync} {s : State} (hk : Keeps s₀ s) :
    KeepsR s₀ (execPtpSyncRx m s) := by
  unfold execPtpSyncRx
  repeat' first
    | with_reducible assumption
    | with_reducible apply KeepsR.next
    | with_reducible apply State.ptpMsg_keeps
    | with_reducible apply State.keysAfter_keeps
    | with_reducible apply ptpSyncRx_keeps
    | (intro _; intros; try beta_reduce)

theorem execPtpFollowUpRx_keeps {s₀ : State} {m : PtpSync} {s : State} (hk : Keeps s₀ s) :
    KeepsR s₀ (execPtpFollowUpRx m s) := by
  unfold execPtpFollowUpRx
  repeat' first
    | with_reducible assumption
    | with_reducible apply KeepsR.next
    | with_reducible apply State.ptpMsg_keeps
    | with_reducible apply State.keysAfter_keeps
    | with_reducible apply ptpFollowUpRx_keeps
    | (intro _; intros; try beta_reduce)

theorem execPtpAnnounceRx_keeps {s₀ : State} {m : PtpAnnounce} {s : State} (hk : Keeps s₀ s) :
    KeepsR s₀ (execPtpAnnounceRx m s) := by
  unfold execPtpAnnounceRx
  repeat' first
    | with_reducible assumption
    | with_reducible apply KeepsR.next
    | with_reducible apply State.ptpMsg_keeps
    | with_reducible apply ptpAnnounceRx_keeps

theorem execPtpPdelayReqRx_keeps {s₀ : State} {port domain seq : Nat} {rx : PdelayMark} {s : State} (hk : Keeps s₀ s) :
    KeepsR s₀ (execPtpPdelayReqRx port domain seq rx s) := by
  unfold execPtpPdelayReqRx
  repeat' first
    | with_reducible assumption
    | with_reducible apply KeepsR.next
    | with_reducible apply State.ptpMsg_keeps
    | with_reducible apply ptpPdelayReqRx_keeps

theorem execPtpPdelayRespRx_keeps {s₀ : State} {m : PtpPdelay} {s : State} (hk : Keeps s₀ s) :
    KeepsR s₀ (execPtpPdelayRespRx m s) := by
  unfold execPtpPdelayRespRx
  repeat' first
    | with_reducible assumption
    | with_reducible apply KeepsR.next
    | with_reducible apply State.ptpMsg_keeps
    | with_reducible apply ptpPdelayRespRx_keeps

theorem execPdelayRespFollowUpRx_keeps {s₀ : State} {m : PtpPdelay} {s : State} (hk : Keeps s₀ s) :
    KeepsR s₀ (execPdelayRespFollowUpRx m s) := by
  unfold execPdelayRespFollowUpRx
  repeat' first
    | with_reducible assumption
    | with_reducible apply KeepsR.next
    | with_reducible apply State.ptpMsg_keeps
    | with_reducible apply pdelayRespFollowUpRx_keeps

/-! ### BlockCmd -/

theorem State.putData_keeps {s₀ : State} {s : State} {b : CmdBlock} {ws : List Nat} (hk : Keeps s₀ s) :
    Keeps s₀ (State.putData s b ws) := by
  unfold State.putData
  repeat' first
    | with_reducible assumption
    | with_reducible apply State.setF_keeps
    | with_reducible apply Keeps.forN
    | (intro _; intros; try beta_reduce)

theorem State.scramble_keeps {s₀ : State} {s : State} {b : CmdBlock} (hk : Keeps s₀ s) :
    Keeps s₀ (State.scramble s b) := by
  unfold State.scramble
  repeat' first
    | with_reducible assumption
    | (extract_lets +onlyGivenNames x; refine Keeps.cut (s := s₀) (t := x) ?_ (fun hx => ?_); (on_goal 1 => (unfold x; clear x)); (on_goal 2 => clear_value x))
    | (extract_lets +onlyGivenNames x; refine Keeps.cut2 (s := s₀) (x := x) ?_ (fun hx => ?_); (on_goal 1 => (unfold x; clear x)); (on_goal 2 => clear_value x))
    | (extract_lets +onlyGivenNames x; refine Keeps.cut2 (s := s₀) (x := x.2) ?_ (fun hx => ?_); (on_goal 1 => (unfold x; clear x)); (on_goal 2 => clear_value x))
    | (extract_lets +onlyGivenNames x; (have hv : x = x := by unfold x; exact Eq.refl _); clear hv; clear_value x)
    | with_reducible apply State.setF_keeps
    | with_reducible apply State.drawn_keeps
    | with_reducible apply Keeps.forN
    | (intro _; intros; try beta_reduce)

theorem State.cmdStart_keeps {s₀ : State} {s : State} {b : CmdBlock} {r : Nat} {ws : List Nat} (hk : Keeps s₀ s) :
    Keeps s₀ (State.cmdStart s b r ws) := by
  unfold State.cmdStart
  repeat' first
    | with_reducible assumption
    | (dsimp only [Keeps.mk_eq]; with_reducible apply KeepsD.of)
    | with_reducible apply State.setF_keeps
    | with_reducible apply State.scramble_keeps

theorem State.cmdRun_keeps {s₀ : State} {s : State} {m : Master} {b : CmdBlock} {fs : List (Field × Nat)} {tmcOnly : Bool} {act : State → Nat × Option (List Nat) × State} (hk : Keeps s₀ s) (kact : ∀ u, Keeps s₀ u → Keeps s₀ (act u).2.2) :
    KeepsR s₀ (State.cmdRun s m b fs tmcOnly act) := by
  unfold State.cmdRun
  repeat' first
    | with_reducible assumption
    | (extract_lets +onlyGivenNames x; refine Keeps.cut (s := s₀) (t := x) ?_ (fun hx => ?_); (on_goal 1 => (unfold x; clear x)); (on_goal 2 => clear_value x))
    | (extract_lets +onlyGivenNames x; refine Keeps.cut2 (s := s₀) (x := x) ?_ (fun hx => ?_); (on_goal 1 => (unfold x; clear x)); (on_goal 2 => clear_value x))
    | (extract_lets +onlyGivenNames x; refine Keeps.cut2 (s := s₀) (x := x.2) ?_ (fun hx => ?_); (on_goal 1 => (unfold x; clear x)); (on_goal 2 => clear_value x))
    | (extract_lets +onlyGivenNames x; (have hv : x = x := by unfold x; exact Eq.refl _); clear hv; clear_value x)
    | with_reducible apply KeepsR.next
    | with_reducible apply KeepsR.ite
    | with_reducible apply Keeps.ite
    | with_reducible apply State.granted_keeps
    | with_reducible apply State.writeField_keeps
    | with_reducible apply State.cmdStart_keeps
    | with_reducible apply Keeps.foldl
    | with_reducible apply Keeps.foldl2
    | split
    | apply kact
    | (intro _; intros; try beta_reduce)

theorem State.cmdEnd_keeps {s₀ : State} {s : State} {b : CmdBlock} (hk : Keeps s₀ s) :
    Keeps s₀ (State.cmdEnd s b) := by
  unfold State.cmdEnd
  repeat' first
    | with_reducible assumption
    | (dsimp only [Keeps.mk_eq]; with_reducible apply KeepsD.of)
    | (extract_lets +onlyGivenNames x; refine Keeps.cut (s := s₀) (t := x) ?_ (fun hx => ?_); (on_goal 1 => (unfold x; clear x)); (on_goal 2 => clear_value x))
    | (extract_lets +onlyGivenNames x; refine Keeps.cut2 (s := s₀) (x := x) ?_ (fun hx => ?_); (on_goal 1 => (unfold x; clear x)); (on_goal 2 => clear_value x))
    | (extract_lets +onlyGivenNames x; refine Keeps.cut2 (s := s₀) (x := x.2) ?_ (fun hx => ?_); (on_goal 1 => (unfold x; clear x)); (on_goal 2 => clear_value x))
    | (extract_lets +onlyGivenNames x; (have hv : x = x := by unfold x; exact Eq.refl _); clear hv; clear_value x)
    | with_reducible apply Keeps.ite
    | with_reducible apply State.setF_keeps
    | with_reducible apply State.putData_keeps
    | split

theorem execCommandOperationEnd_keeps {s₀ : State} {b : CmdBlock} {s : State} (hk : Keeps s₀ s) :
    KeepsR s₀ (execCommandOperationEnd b s) := by
  exact KeepsR.next (State.cmdEnd_keeps hk)

/-! ### Slices -/

theorem State.pageWrite_keeps {s₀ : State} {s : State} {m : Master} {page off : Nat} {states : List Nat} {f : State → State} (hk : Keeps s₀ s) (kf : ∀ u, Keeps s₀ u → Keeps s₀ (f u)) :
    Keeps s₀ (State.pageWrite s m page off states f) := by
  unfold State.pageWrite
  repeat' first
    | with_reducible assumption
    | (dsimp only [Keeps.mk_eq]; with_reducible apply KeepsD.of)
    | with_reducible apply Keeps.ite
    | with_reducible apply State.busError_keeps
    | with_reducible apply State.refused_keeps
    | with_reducible apply State.refuse_keeps
    | split
    | apply kf
    | (intro _; intros; try beta_reduce)

theorem State.doorbell_keeps {s₀ : State} {s : State} {n k v : Nat} (hk : Keeps s₀ s) :
    Keeps s₀ (State.doorbell s n k v) := by
  unfold State.doorbell
  repeat' first
    | with_reducible assumption
    | (dsimp only [Keeps.mk_eq]; with_reducible apply KeepsD.of)
    | (extract_lets +onlyGivenNames x; refine Keeps.cut (s := s₀) (t := x) ?_ (fun hx => ?_); (on_goal 1 => (unfold x; clear x)); (on_goal 2 => clear_value x))
    | (extract_lets +onlyGivenNames x; refine Keeps.cut2 (s := s₀) (x := x) ?_ (fun hx => ?_); (on_goal 1 => (unfold x; clear x)); (on_goal 2 => clear_value x))
    | (extract_lets +onlyGivenNames x; refine Keeps.cut2 (s := s₀) (x := x.2) ?_ (fun hx => ?_); (on_goal 1 => (unfold x; clear x)); (on_goal 2 => clear_value x))
    | (extract_lets +onlyGivenNames x; (have hv : x = x := by unfold x; exact Eq.refl _); clear hv; clear_value x)
    | with_reducible apply Keeps.ite
    | with_reducible apply State.modRing_keeps
    | with_reducible apply State.modSlice_keeps
    | with_reducible apply State.event_keeps
    | with_reducible apply State.bump_keeps
    | with_reducible apply State.sliceError_keeps
    | split
    | (intro _; intros; try beta_reduce)

theorem doorbellWrite_keeps {s₀ : State} {m : Master} {page k value : Nat} {s : State} (hk : Keeps s₀ s) :
    Keeps s₀ (doorbellWrite m page k value s) := by
  unfold doorbellWrite
  repeat' first
    | with_reducible assumption
    | with_reducible apply Keeps.ite
    | with_reducible apply State.busError_keeps
    | with_reducible apply State.pageWrite_keeps
    | with_reducible apply State.doorbell_keeps
    | split
    | (intro _; intros; try beta_reduce)

theorem fWrite_keeps {s₀ : State} {m : Master} {page w value : Nat} {s : State} (hk : Keeps s₀ s) :
    Keeps s₀ (fWrite m page w value s) := by
  unfold fWrite
  repeat' first
    | with_reducible assumption
    | with_reducible apply Keeps.ite
    | with_reducible apply State.busError_keeps
    | with_reducible apply State.pageWrite_keeps
    | with_reducible apply State.fStore_keeps
    | split
    | (intro _; intros; try beta_reduce)

theorem ftagWrite_keeps {s₀ : State} {core : Nat} {hyp valid : Bool} {pasid : Nat} {s : State} (hk : Keeps s₀ s) :
    Keeps s₀ (ftagWrite core hyp valid pasid s) := by
  unfold ftagWrite
  repeat' first
    | with_reducible assumption
    | (dsimp only [Keeps.mk_eq]; with_reducible apply KeepsD.of)
    | (extract_lets +onlyGivenNames x; refine Keeps.cut (s := s₀) (t := x) ?_ (fun hx => ?_); (on_goal 1 => (unfold x; clear x)); (on_goal 2 => clear_value x))
    | (extract_lets +onlyGivenNames x; refine Keeps.cut2 (s := s₀) (x := x) ?_ (fun hx => ?_); (on_goal 1 => (unfold x; clear x)); (on_goal 2 => clear_value x))
    | (extract_lets +onlyGivenNames x; refine Keeps.cut2 (s := s₀) (x := x.2) ?_ (fun hx => ?_); (on_goal 1 => (unfold x; clear x)); (on_goal 2 => clear_value x))
    | (extract_lets +onlyGivenNames x; (have hv : x = x := by unfold x; exact Eq.refl _); clear hv; clear_value x)
    | with_reducible apply Keeps.ite
    | split

theorem irqModerationEnd_keeps {s₀ : State} {r : Nat} {s : State} (hk : Keeps s₀ s) :
    Keeps s₀ (irqModerationEnd r s) := by
  unfold irqModerationEnd
  repeat' first
    | with_reducible assumption
    | (dsimp only [Keeps.mk_eq]; with_reducible apply KeepsD.of)
    | (extract_lets +onlyGivenNames x; refine Keeps.cut (s := s₀) (t := x) ?_ (fun hx => ?_); (on_goal 1 => (unfold x; clear x)); (on_goal 2 => clear_value x))
    | (extract_lets +onlyGivenNames x; refine Keeps.cut2 (s := s₀) (x := x) ?_ (fun hx => ?_); (on_goal 1 => (unfold x; clear x)); (on_goal 2 => clear_value x))
    | (extract_lets +onlyGivenNames x; refine Keeps.cut2 (s := s₀) (x := x.2) ?_ (fun hx => ?_); (on_goal 1 => (unfold x; clear x)); (on_goal 2 => clear_value x))
    | (extract_lets +onlyGivenNames x; (have hv : x = x := by unfold x; exact Eq.refl _); clear hv; clear_value x)
    | with_reducible apply Keeps.ite
    | with_reducible apply State.advanceTo_keeps
    | with_reducible apply State.sendIrq_keeps
    | with_reducible apply State.modRing_keeps
    | split
    | (intro _; intros; try beta_reduce)

theorem State.txRounds_keeps {s₀ : State} {s : State} {p : Nat} {rs ns : List Nat} {n : Nat} (hk : Keeps s₀ s) :
    Keeps s₀ (State.txRounds s p rs ns n) := by
  induction n generalizing s with
  | zero => exact hk
  | succ n ih =>
    unfold State.txRounds
    dsimp only
    split
    · exact hk
    · exact ih (Keeps.foldl hk (fun _ _ h => State.modSlice_keeps h))

theorem State.txFetch_keeps {s₀ : State} {s : State} {r : Nat} {f : TxNext} (hk : Keeps s₀ s) :
    Keeps s₀ (State.txFetch s r f) := by
  unfold State.txFetch
  repeat' first
    | with_reducible assumption
    | (dsimp only [Keeps.mk_eq]; with_reducible apply KeepsD.of)
    | (extract_lets +onlyGivenNames x; refine Keeps.cut (s := s₀) (t := x) ?_ (fun hx => ?_); (on_goal 1 => (unfold x; clear x)); (on_goal 2 => clear_value x))
    | (extract_lets +onlyGivenNames x; refine Keeps.cut2 (s := s₀) (x := x) ?_ (fun hx => ?_); (on_goal 1 => (unfold x; clear x)); (on_goal 2 => clear_value x))
    | (extract_lets +onlyGivenNames x; refine Keeps.cut2 (s := s₀) (x := x.2) ?_ (fun hx => ?_); (on_goal 1 => (unfold x; clear x)); (on_goal 2 => clear_value x))
    | (extract_lets +onlyGivenNames x; (have hv : x = x := by unfold x; exact Eq.refl _); clear hv; clear_value x)
    | with_reducible apply Keeps.ite
    | with_reducible apply State.modSlice_keeps
    | with_reducible apply State.modRing_keeps
    | with_reducible apply State.txPair_keeps
    | with_reducible apply State.macBump_keeps
    | with_reducible apply State.txComplete_keeps
    | with_reducible apply State.frameWithdrawn_keeps
    | split
    | (intro _; intros; try beta_reduce)

theorem State.dropDeficits_keeps {s₀ : State} {s : State} {p : Nat} (hk : Keeps s₀ s) :
    Keeps s₀ (State.dropDeficits s p) := by
  unfold State.dropDeficits
  repeat' first
    | with_reducible assumption
    | (dsimp only [Keeps.mk_eq]; with_reducible apply KeepsD.of)
    | (extract_lets +onlyGivenNames x; refine Keeps.cut (s := s₀) (t := x) ?_ (fun hx => ?_); (on_goal 1 => (unfold x; clear x)); (on_goal 2 => clear_value x))
    | (extract_lets +onlyGivenNames x; refine Keeps.cut2 (s := s₀) (x := x) ?_ (fun hx => ?_); (on_goal 1 => (unfold x; clear x)); (on_goal 2 => clear_value x))
    | (extract_lets +onlyGivenNames x; refine Keeps.cut2 (s := s₀) (x := x.2) ?_ (fun hx => ?_); (on_goal 1 => (unfold x; clear x)); (on_goal 2 => clear_value x))
    | (extract_lets +onlyGivenNames x; (have hv : x = x := by unfold x; exact Eq.refl _); clear hv; clear_value x)
    | with_reducible apply State.modSlice_keeps
    | with_reducible apply Keeps.foldl
    | with_reducible apply Keeps.foldl2
    | (intro _; intros; try beta_reduce)

theorem txDescriptorFetch_keeps {s₀ : State} {r : Nat} {s : State} (hk : Keeps s₀ s) :
    Keeps s₀ (txDescriptorFetch r s) := by
  unfold txDescriptorFetch
  repeat' first
    | with_reducible assumption
    | (dsimp only [Keeps.mk_eq]; with_reducible apply KeepsD.of)
    | (extract_lets +onlyGivenNames x; refine Keeps.cut (s := s₀) (t := x) ?_ (fun hx => ?_); (on_goal 1 => (unfold x; clear x)); (on_goal 2 => clear_value x))
    | (extract_lets +onlyGivenNames x; refine Keeps.cut2 (s := s₀) (x := x) ?_ (fun hx => ?_); (on_goal 1 => (unfold x; clear x)); (on_goal 2 => clear_value x))
    | (extract_lets +onlyGivenNames x; refine Keeps.cut2 (s := s₀) (x := x.2) ?_ (fun hx => ?_); (on_goal 1 => (unfold x; clear x)); (on_goal 2 => clear_value x))
    | (extract_lets +onlyGivenNames x; (have hv : x = x := by unfold x; exact Eq.refl _); clear hv; clear_value x)
    | with_reducible apply Keeps.ite
    | with_reducible apply State.dropDeficits_keeps
    | with_reducible apply State.txFetch_keeps
    | with_reducible apply State.txRounds_keeps
    | with_reducible apply State.modSlice_keeps
    | split
    | (intro _; intros; try beta_reduce)

theorem State.abandonOne_keeps {s₀ : State} {s : State} {n : Nat} (hk : Keeps s₀ s) :
    Keeps s₀ (State.abandonOne s n) := by
  unfold State.abandonOne
  repeat' first
    | with_reducible assumption
    | (dsimp only [Keeps.mk_eq]; with_reducible apply KeepsD.of)
    | with_reducible apply State.modSlice_keeps
    | with_reducible apply State.bump_keeps
    | (intro _; intros; try beta_reduce)

theorem State.abandon_keeps {s₀ : State} {s : State} {n : Nat} (hk : Keeps s₀ s) :
    Keeps s₀ (State.abandon s n) := by
  unfold State.abandon
  repeat' first
    | with_reducible assumption
    | (dsimp only [Keeps.mk_eq]; with_reducible apply KeepsD.of)
    | (extract_lets +onlyGivenNames x; refine Keeps.cut (s := s₀) (t := x) ?_ (fun hx => ?_); (on_goal 1 => (unfold x; clear x)); (on_goal 2 => clear_value x))
    | (extract_lets +onlyGivenNames x; refine Keeps.cut2 (s := s₀) (x := x) ?_ (fun hx => ?_); (on_goal 1 => (unfold x; clear x)); (on_goal 2 => clear_value x))
    | (extract_lets +onlyGivenNames x; refine Keeps.cut2 (s := s₀) (x := x.2) ?_ (fun hx => ?_); (on_goal 1 => (unfold x; clear x)); (on_goal 2 => clear_value x))
    | (extract_lets +onlyGivenNames x; refine Keeps.cutF1 (s := s₀) (f := x) ?_ (fun kx => ?_); (on_goal 1 => (unfold x; clear x; intros; beta_reduce)); (on_goal 2 => clear_value x))
    | (extract_lets +onlyGivenNames x; refine Keeps.cutF2 (s := s₀) (f := x) ?_ (fun kx => ?_); (on_goal 1 => (unfold x; clear x; intros; beta_reduce)); (on_goal 2 => clear_value x))
    | (extract_lets +onlyGivenNames x; refine Keeps.cutG2 (s := s₀) (f := x) ?_ (fun kx => ?_); (on_goal 1 => (unfold x; clear x; intros; beta_reduce)); (on_goal 2 => clear_value x))
    | (extract_lets +onlyGivenNames x; refine Keeps.cutF3 (s := s₀) (f := x) ?_ (fun kx => ?_); (on_goal 1 => (unfold x; clear x; intros; beta_reduce)); (on_goal 2 => clear_value x))
    | (extract_lets +onlyGivenNames x; refine Keeps.cutF4 (s := s₀) (f := x) ?_ (fun kx => ?_); (on_goal 1 => (unfold x; clear x; intros; beta_reduce)); (on_goal 2 => clear_value x))
    | (extract_lets +onlyGivenNames x; (have hv : x = x := by unfold x; exact Eq.refl _); clear hv; clear_value x)
    | with_reducible apply Keeps.ite
    | with_reducible apply State.modRing_keeps
    | with_reducible apply State.abandonOne_keeps
    | with_reducible apply State.txFail_keeps
    | with_reducible apply State.txComplete_keeps
    | with_reducible apply Keeps.foldl
    | with_reducible apply Keeps.foldl2
    | apply kx
    | split
    | (intro _; intros; try beta_reduce)

theorem State.toSliceState_keeps {s₀ : State} {s : State} {n st cause : Nat} (hk : Keeps s₀ s) :
    Keeps s₀ (State.toSliceState s n st cause) := by
  unfold State.toSliceState
  repeat' first
    | with_reducible assumption
    | (dsimp only [Keeps.mk_eq]; with_reducible apply KeepsD.of)
    | with_reducible apply State.modSlice_keeps
    | with_reducible apply State.stateEvent_keeps
    | (intro _; intros; try beta_reduce)

theorem quiesceDrained_keeps {s₀ : State} {n : Nat} {s : State} (hk : Keeps s₀ s) :
    Keeps s₀ (quiesceDrained n s) := by
  unfold quiesceDrained
  repeat' first
    | with_reducible assumption
    | with_reducible apply Keeps.ite
    | with_reducible apply State.toSliceState_keeps
    | split
    | (intro _; intros; try beta_reduce)

theorem quiesceLimit_keeps {s₀ : State} {n : Nat} {s : State} (hk : Keeps s₀ s) :
    Keeps s₀ (quiesceLimit n s) := by
  unfold quiesceLimit
  repeat' first
    | with_reducible assumption
    | with_reducible apply Keeps.ite
    | with_reducible apply State.advanceTo_keeps
    | with_reducible apply State.abandon_keeps
    | with_reducible apply State.toSliceState_keeps
    | split

theorem State.modeReq_keeps {s₀ : State} {s : State} {k mode : Nat} {clear : Bool} (hk : Keeps s₀ s) :
    Keeps s₀ (State.modeReq s k mode clear) := by
  unfold State.modeReq
  repeat' first
    | with_reducible assumption
    | (dsimp only [Keeps.mk_eq]; with_reducible apply KeepsD.of)
    | (extract_lets +onlyGivenNames x; refine Keeps.cut (s := s₀) (t := x) ?_ (fun hx => ?_); (on_goal 1 => (unfold x; clear x)); (on_goal 2 => clear_value x))
    | (extract_lets +onlyGivenNames x; refine Keeps.cut2 (s := s₀) (x := x) ?_ (fun hx => ?_); (on_goal 1 => (unfold x; clear x)); (on_goal 2 => clear_value x))
    | (extract_lets +onlyGivenNames x; refine Keeps.cut2 (s := s₀) (x := x.2) ?_ (fun hx => ?_); (on_goal 1 => (unfold x; clear x)); (on_goal 2 => clear_value x))
    | (extract_lets +onlyGivenNames x; (have hv : x = x := by unfold x; exact Eq.refl _); clear hv; clear_value x)
    | with_reducible apply Keeps.ite
    | split
    | (intro _; intros; try beta_reduce)

theorem State.sliceFresh_keeps {s₀ : State} {s : State} {n : Nat} (hk : Keeps s₀ s) :
    Keeps s₀ (State.sliceFresh s n) := by
  unfold State.sliceFresh
  repeat' first
    | with_reducible assumption
    | (dsimp only [Keeps.mk_eq]; with_reducible apply KeepsD.of)
    | (extract_lets +onlyGivenNames x; refine Keeps.cut (s := s₀) (t := x) ?_ (fun hx => ?_); (on_goal 1 => (unfold x; clear x)); (on_goal 2 => clear_value x))
    | (extract_lets +onlyGivenNames x; refine Keeps.cut2 (s := s₀) (x := x) ?_ (fun hx => ?_); (on_goal 1 => (unfold x; clear x)); (on_goal 2 => clear_value x))
    | (extract_lets +onlyGivenNames x; refine Keeps.cut2 (s := s₀) (x := x.2) ?_ (fun hx => ?_); (on_goal 1 => (unfold x; clear x)); (on_goal 2 => clear_value x))
    | (extract_lets +onlyGivenNames x; (have hv : x = x := by unfold x; exact Eq.refl _); clear hv; clear_value x)
    | with_reducible apply State.modRing_keeps
    | with_reducible apply State.fClear_keeps
    | with_reducible apply State.modeReq_keeps
    | with_reducible apply State.modSlice_keeps
    | with_reducible apply Keeps.foldl
    | with_reducible apply Keeps.foldl2
    | (intro _; intros; try beta_reduce)

theorem State.mailboxReset_keeps {s₀ : State} {s : State} {n : Nat} (hk : Keeps s₀ s) :
    Keeps s₀ (State.mailboxReset s n) := by
  unfold State.mailboxReset
  repeat' first
    | with_reducible assumption
    | (dsimp only [Keeps.mk_eq]; with_reducible apply KeepsD.of)
    | (dsimp only [Keeps.mk_eq]; with_reducible apply KeepsD.clear)
    | (extract_lets +onlyGivenNames x; refine Keeps.cut (s := s₀) (t := x) ?_ (fun hx => ?_); (on_goal 1 => (unfold x; clear x)); (on_goal 2 => clear_value x))
    | (extract_lets +onlyGivenNames x; refine Keeps.cut2 (s := s₀) (x := x) ?_ (fun hx => ?_); (on_goal 1 => (unfold x; clear x)); (on_goal 2 => clear_value x))
    | (extract_lets +onlyGivenNames x; refine Keeps.cut2 (s := s₀) (x := x.2) ?_ (fun hx => ?_); (on_goal 1 => (unfold x; clear x)); (on_goal 2 => clear_value x))
    | (extract_lets +onlyGivenNames x; (have hv : x = x := by unfold x; exact Eq.refl _); clear hv; clear_value x)
    | with_reducible apply State.modSess_keeps
    | with_reducible apply State.undeliver_keeps
    | with_reducible apply State.setF_keeps
    | (intro _; intros; try beta_reduce)

theorem State.quiesceAbort_keeps {s₀ : State} {s : State} {n : Nat} (hk : Keeps s₀ s) :
    Keeps s₀ (State.quiesceAbort s n) := by
  unfold State.quiesceAbort
  repeat' first
    | with_reducible assumption
    | (dsimp only [Keeps.mk_eq]; with_reducible apply KeepsD.of)
    | with_reducible apply State.complete_keeps
    | split
    | (intro _; intros; try beta_reduce)

theorem State.sliceReset_keeps {s₀ : State} {s : State} {n st : Nat} (hk : Keeps s₀ s) :
    Keeps s₀ (State.sliceReset s n st) := by
  unfold State.sliceReset
  repeat' first
    | with_reducible assumption
    | (dsimp only [Keeps.mk_eq]; with_reducible apply KeepsD.of)
    | (extract_lets +onlyGivenNames x; refine Keeps.cut (s := s₀) (t := x) ?_ (fun hx => ?_); (on_goal 1 => (unfold x; clear x)); (on_goal 2 => clear_value x))
    | (extract_lets +onlyGivenNames x; refine Keeps.cut2 (s := s₀) (x := x) ?_ (fun hx => ?_); (on_goal 1 => (unfold x; clear x)); (on_goal 2 => clear_value x))
    | (extract_lets +onlyGivenNames x; refine Keeps.cut2 (s := s₀) (x := x.2) ?_ (fun hx => ?_); (on_goal 1 => (unfold x; clear x)); (on_goal 2 => clear_value x))
    | (extract_lets +onlyGivenNames x; (have hv : x = x := by unfold x; exact Eq.refl _); clear hv; clear_value x)
    | with_reducible apply Keeps.ite
    | with_reducible apply State.quiesceAbort_keeps
    | with_reducible apply State.modSlice_keeps
    | with_reducible apply State.ringPubs_keeps
    | with_reducible apply State.sliceFresh_keeps
    | with_reducible apply State.abandon_keeps
    | with_reducible apply State.statusBit_keeps
    | with_reducible apply State.mailboxReset_keeps
    | with_reducible apply State.toSliceState_keeps
    | split
    | (intro _; intros; try beta_reduce)

theorem State.sliceRemove_keeps {s₀ : State} {s : State} {n : Nat} (hk : Keeps s₀ s) :
    Keeps s₀ (State.sliceRemove s n) := by
  unfold State.sliceRemove
  repeat' first
    | with_reducible assumption
    | (extract_lets +onlyGivenNames x; refine Keeps.cut (s := s₀) (t := x) ?_ (fun hx => ?_); (on_goal 1 => (unfold x; clear x)); (on_goal 2 => clear_value x))
    | (extract_lets +onlyGivenNames x; refine Keeps.cut2 (s := s₀) (x := x) ?_ (fun hx => ?_); (on_goal 1 => (unfold x; clear x)); (on_goal 2 => clear_value x))
    | (extract_lets +onlyGivenNames x; refine Keeps.cut2 (s := s₀) (x := x.2) ?_ (fun hx => ?_); (on_goal 1 => (unfold x; clear x)); (on_goal 2 => clear_value x))
    | (extract_lets +onlyGivenNames x; refine Keeps.cutF1 (s := s₀) (f := x) ?_ (fun kx => ?_); (on_goal 1 => (unfold x; clear x; intros; beta_reduce)); (on_goal 2 => clear_value x))
    | (extract_lets +onlyGivenNames x; refine Keeps.cutF2 (s := s₀) (f := x) ?_ (fun kx => ?_); (on_goal 1 => (unfold x; clear x; intros; beta_reduce)); (on_goal 2 => clear_value x))
    | (extract_lets +onlyGivenNames x; refine Keeps.cutG2 (s := s₀) (f := x) ?_ (fun kx => ?_); (on_goal 1 => (unfold x; clear x; intros; beta_reduce)); (on_goal 2 => clear_value x))
    | (extract_lets +onlyGivenNames x; refine Keeps.cutF3 (s := s₀) (f := x) ?_ (fun kx => ?_); (on_goal 1 => (unfold x; clear x; intros; beta_reduce)); (on_goal 2 => clear_value x))
    | (extract_lets +onlyGivenNames x; refine Keeps.cutF4 (s := s₀) (f := x) ?_ (fun kx => ?_); (on_goal 1 => (unfold x; clear x; intros; beta_reduce)); (on_goal 2 => clear_value x))
    | (extract_lets +onlyGivenNames x; (have hv : x = x := by unfold x; exact Eq.refl _); clear hv; clear_value x)
    | with_reducible apply Keeps.ite
    | with_reducible apply State.sliceReset_keeps
    | with_reducible apply State.setSltEnt_keeps
    | with_reducible apply State.modRing_keeps
    | with_reducible apply Keeps.foldl
    | with_reducible apply Keeps.foldl2
    | apply kx
    | split
    | (intro _; intros; try beta_reduce)

theorem State.bindPasid_keeps {s₀ : State} {s : State} {n pasid : Nat} (hk : Keeps s₀ s) :
    Keeps s₀ (State.bindPasid s n pasid) := by
  unfold State.bindPasid
  repeat' first
    | with_reducible assumption
    | (dsimp only [Keeps.mk_eq]; with_reducible apply KeepsD.of)
    | with_reducible apply State.setSltEnt_keeps
    | split

theorem State.bindWindow_keeps {s₀ : State} {s : State} {n : Nat} {b : Nat × Nat} (hk : Keeps s₀ s) :
    Keeps s₀ (State.bindWindow s n b) := by
  unfold State.bindWindow
  repeat' first
    | with_reducible assumption
    | (dsimp only [Keeps.mk_eq]; with_reducible apply KeepsD.of)
    | with_reducible apply State.setSltEnt_keeps
    | split

theorem sliceCreateAct_keeps {s₀ : State} {p : SliceParams} {s : State} (hk : Keeps s₀ s) :
    Keeps s₀ (sliceCreateAct p s).2 := by
  unfold sliceCreateAct
  repeat' first
    | with_reducible assumption
    | (extract_lets +onlyGivenNames x; refine Keeps.cut (s := s₀) (t := x) ?_ (fun hx => ?_); (on_goal 1 => (unfold x; clear x)); (on_goal 2 => clear_value x))
    | (extract_lets +onlyGivenNames x; refine Keeps.cut2 (s := s₀) (x := x) ?_ (fun hx => ?_); (on_goal 1 => (unfold x; clear x)); (on_goal 2 => clear_value x))
    | (extract_lets +onlyGivenNames x; refine Keeps.cut2 (s := s₀) (x := x.2) ?_ (fun hx => ?_); (on_goal 1 => (unfold x; clear x)); (on_goal 2 => clear_value x))
    | (extract_lets +onlyGivenNames x; (have hv : x = x := by unfold x; exact Eq.refl _); clear hv; clear_value x)
    | with_reducible apply Keeps.ite
    | with_reducible apply Keeps.ite2
    | with_reducible apply State.setSltEnt_keeps
    | with_reducible apply State.bindWindow_keeps
    | with_reducible apply State.bindPasid_keeps
    | with_reducible apply State.sliceFresh_keeps
    | with_reducible apply State.toSliceState_keeps
    | with_reducible apply Keeps.foldl
    | with_reducible apply Keeps.foldl2
    | split
    | (intro _; intros; try beta_reduce)

theorem sliceRingAct_keeps {s₀ : State} {n k base : Nat} {s : State} (hk : Keeps s₀ s) :
    Keeps s₀ (sliceRingAct n k base s).2 := by
  unfold sliceRingAct
  repeat' first
    | with_reducible assumption
    | (dsimp only [Keeps.mk_eq]; with_reducible apply KeepsD.of)
    | with_reducible apply Keeps.ite
    | with_reducible apply Keeps.ite2
    | with_reducible apply State.setSltEnt_keeps
    | with_reducible apply State.modRing_keeps
    | split
    | (intro _; intros; try beta_reduce)

theorem sliceBindAct_keeps {s₀ : State} {n : Nat} {add : Bool} {pasid : Nat} {s : State} (hk : Keeps s₀ s) :
    Keeps s₀ (sliceBindAct n add pasid s).2 := by
  unfold sliceBindAct
  repeat' first
    | with_reducible assumption
    | (dsimp only [Keeps.mk_eq]; with_reducible apply KeepsD.of)
    | (extract_lets +onlyGivenNames x; refine Keeps.cut (s := s₀) (t := x) ?_ (fun hx => ?_); (on_goal 1 => (unfold x; clear x)); (on_goal 2 => clear_value x))
    | (extract_lets +onlyGivenNames x; refine Keeps.cut2 (s := s₀) (x := x) ?_ (fun hx => ?_); (on_goal 1 => (unfold x; clear x)); (on_goal 2 => clear_value x))
    | (extract_lets +onlyGivenNames x; refine Keeps.cut2 (s := s₀) (x := x.2) ?_ (fun hx => ?_); (on_goal 1 => (unfold x; clear x)); (on_goal 2 => clear_value x))
    | (extract_lets +onlyGivenNames x; (have hv : x = x := by unfold x; exact Eq.refl _); clear hv; clear_value x)
    | with_reducible apply Keeps.ite
    | with_reducible apply Keeps.ite2
    | with_reducible apply State.bindPasid_keeps
    | with_reducible apply State.setSltEnt_keeps
    | split
    | (intro _; intros; try beta_reduce)

theorem sliceStartAct_keeps {s₀ : State} {n : Nat} {s : State} (hk : Keeps s₀ s) :
    Keeps s₀ (sliceStartAct n s).2 := by
  unfold sliceStartAct
  repeat' first
    | with_reducible assumption
    | (extract_lets +onlyGivenNames x; refine Keeps.cut (s := s₀) (t := x) ?_ (fun hx => ?_); (on_goal 1 => (unfold x; clear x)); (on_goal 2 => clear_value x))
    | (extract_lets +onlyGivenNames x; refine Keeps.cut2 (s := s₀) (x := x) ?_ (fun hx => ?_); (on_goal 1 => (unfold x; clear x)); (on_goal 2 => clear_value x))
    | (extract_lets +onlyGivenNames x; refine Keeps.cut2 (s := s₀) (x := x.2) ?_ (fun hx => ?_); (on_goal 1 => (unfold x; clear x)); (on_goal 2 => clear_value x))
    | (extract_lets +onlyGivenNames x; (have hv : x = x := by unfold x; exact Eq.refl _); clear hv; clear_value x)
    | with_reducible apply Keeps.ite
    | with_reducible apply Keeps.ite2
    | with_reducible apply State.ringsTo_keeps
    | with_reducible apply State.statusBit_keeps
    | with_reducible apply State.ringPubs_keeps
    | with_reducible apply State.modeReq_keeps
    | with_reducible apply State.toSliceState_keeps
    | split
    | (intro _; intros; try beta_reduce)

theorem sliceQuiesceAct_keeps {s₀ : State} {n : Nat} {s : State} (hk : Keeps s₀ s) :
    Keeps s₀ (sliceQuiesceAct n s).2 := by
  unfold sliceQuiesceAct
  repeat' first
    | with_reducible assumption
    | (dsimp only [Keeps.mk_eq]; with_reducible apply KeepsD.of)
    | (extract_lets +onlyGivenNames x; refine Keeps.cut (s := s₀) (t := x) ?_ (fun hx => ?_); (on_goal 1 => (unfold x; clear x)); (on_goal 2 => clear_value x))
    | (extract_lets +onlyGivenNames x; refine Keeps.cut2 (s := s₀) (x := x) ?_ (fun hx => ?_); (on_goal 1 => (unfold x; clear x)); (on_goal 2 => clear_value x))
    | (extract_lets +onlyGivenNames x; refine Keeps.cut2 (s := s₀) (x := x.2) ?_ (fun hx => ?_); (on_goal 1 => (unfold x; clear x)); (on_goal 2 => clear_value x))
    | (extract_lets +onlyGivenNames x; (have hv : x = x := by unfold x; exact Eq.refl _); clear hv; clear_value x)
    | with_reducible apply Keeps.ite
    | with_reducible apply Keeps.ite2
    | with_reducible apply State.ringsTo_keeps
    | with_reducible apply State.toSliceState_keeps
    | with_reducible apply State.statusBit_keeps
    | with_reducible apply State.modSlice_keeps
    | split
    | (intro _; intros; try beta_reduce)

theorem sliceResetAct_keeps {s₀ : State} {n : Nat} {remove : Bool} {s : State} (hk : Keeps s₀ s) :
    Keeps s₀ (sliceResetAct n remove s).2 := by
  unfold sliceResetAct
  repeat' first
    | with_reducible assumption
    | with_reducible apply Keeps.ite
    | with_reducible apply Keeps.ite2
    | with_reducible apply State.sliceRemove_keeps
    | with_reducible apply State.sliceReset_keeps
    | split

theorem sliceFaultAct_keeps {s₀ : State} {n : Nat} {s : State} (hk : Keeps s₀ s) :
    Keeps s₀ (sliceFaultAct n s).2 := by
  unfold sliceFaultAct
  repeat' first
    | with_reducible assumption
    | (extract_lets +onlyGivenNames x; refine Keeps.cut (s := s₀) (t := x) ?_ (fun hx => ?_); (on_goal 1 => (unfold x; clear x)); (on_goal 2 => clear_value x))
    | (extract_lets +onlyGivenNames x; refine Keeps.cut2 (s := s₀) (x := x) ?_ (fun hx => ?_); (on_goal 1 => (unfold x; clear x)); (on_goal 2 => clear_value x))
    | (extract_lets +onlyGivenNames x; refine Keeps.cut2 (s := s₀) (x := x.2) ?_ (fun hx => ?_); (on_goal 1 => (unfold x; clear x)); (on_goal 2 => clear_value x))
    | (extract_lets +onlyGivenNames x; (have hv : x = x := by unfold x; exact Eq.refl _); clear hv; clear_value x)
    | with_reducible apply Keeps.ite
    | with_reducible apply Keeps.ite2
    | with_reducible apply State.sliceToFaulted_keeps
    | split

theorem sliceShareAct_keeps {s₀ : State} {n inflight weight : Nat} {s : State} (hk : Keeps s₀ s) :
    Keeps s₀ (sliceShareAct n inflight weight s).2 := by
  unfold sliceShareAct
  repeat' first
    | with_reducible assumption
    | (extract_lets +onlyGivenNames x; refine Keeps.cut (s := s₀) (t := x) ?_ (fun hx => ?_); (on_goal 1 => (unfold x; clear x)); (on_goal 2 => clear_value x))
    | (extract_lets +onlyGivenNames x; refine Keeps.cut2 (s := s₀) (x := x) ?_ (fun hx => ?_); (on_goal 1 => (unfold x; clear x)); (on_goal 2 => clear_value x))
    | (extract_lets +onlyGivenNames x; refine Keeps.cut2 (s := s₀) (x := x.2) ?_ (fun hx => ?_); (on_goal 1 => (unfold x; clear x)); (on_goal 2 => clear_value x))
    | (extract_lets +onlyGivenNames x; (have hv : x = x := by unfold x; exact Eq.refl _); clear hv; clear_value x)
    | with_reducible apply Keeps.ite
    | with_reducible apply Keeps.ite2
    | with_reducible apply State.setSltEnt_keeps
    | split

theorem slicePvAct_keeps {s₀ : State} {n : Nat} {en : Bool} {lats : Nat} {s : State} (hk : Keeps s₀ s) :
    Keeps s₀ (slicePvAct n en lats s).2 := by
  unfold slicePvAct
  repeat' first
    | with_reducible assumption
    | (extract_lets +onlyGivenNames x; refine Keeps.cut (s := s₀) (t := x) ?_ (fun hx => ?_); (on_goal 1 => (unfold x; clear x)); (on_goal 2 => clear_value x))
    | (extract_lets +onlyGivenNames x; refine Keeps.cut2 (s := s₀) (x := x) ?_ (fun hx => ?_); (on_goal 1 => (unfold x; clear x)); (on_goal 2 => clear_value x))
    | (extract_lets +onlyGivenNames x; refine Keeps.cut2 (s := s₀) (x := x.2) ?_ (fun hx => ?_); (on_goal 1 => (unfold x; clear x)); (on_goal 2 => clear_value x))
    | (extract_lets +onlyGivenNames x; (have hv : x = x := by unfold x; exact Eq.refl _); clear hv; clear_value x)
    | with_reducible apply Keeps.ite
    | with_reducible apply Keeps.ite2
    | with_reducible apply State.setSltEnt_keeps
    | split

theorem State.sliceStatClear_keeps {s₀ : State} {s : State} {n : Nat} (hk : Keeps s₀ s) :
    Keeps s₀ (State.sliceStatClear s n) := by
  unfold State.sliceStatClear
  repeat' first
    | with_reducible assumption
    | (dsimp only [Keeps.mk_eq]; with_reducible apply KeepsD.of)
    | with_reducible apply State.modSlice_keeps
    | (intro _; intros; try beta_reduce)

theorem sliceStatusAct_keeps {s₀ : State} {clear : Bool} {n : Nat} {s : State} (hk : Keeps s₀ s) :
    Keeps s₀ (sliceStatusAct clear n s).2 := by
  unfold sliceStatusAct
  repeat' first
    | with_reducible assumption
    | (extract_lets +onlyGivenNames x; refine Keeps.cut (s := s₀) (t := x) ?_ (fun hx => ?_); (on_goal 1 => (unfold x; clear x)); (on_goal 2 => clear_value x))
    | (extract_lets +onlyGivenNames x; refine Keeps.cut2 (s := s₀) (x := x) ?_ (fun hx => ?_); (on_goal 1 => (unfold x; clear x)); (on_goal 2 => clear_value x))
    | (extract_lets +onlyGivenNames x; refine Keeps.cut2 (s := s₀) (x := x.2) ?_ (fun hx => ?_); (on_goal 1 => (unfold x; clear x)); (on_goal 2 => clear_value x))
    | (extract_lets +onlyGivenNames x; (have hv : x = x := by unfold x; exact Eq.refl _); clear hv; clear_value x)
    | with_reducible apply Keeps.ite
    | with_reducible apply Keeps.ite2
    | with_reducible apply State.sliceStatClear_keeps
    | split

theorem sltWriteAct_keeps {s₀ : State} {t i : Nat} {s : State} (hk : Keeps s₀ s) :
    Keeps s₀ (sltWriteAct t i s).2.2 := by
  unfold sltWriteAct
  repeat' first
    | with_reducible assumption
    | (extract_lets +onlyGivenNames x; refine Keeps.cut (s := s₀) (t := x) ?_ (fun hx => ?_); (on_goal 1 => (unfold x; clear x)); (on_goal 2 => clear_value x))
    | (extract_lets +onlyGivenNames x; refine Keeps.cut2 (s := s₀) (x := x) ?_ (fun hx => ?_); (on_goal 1 => (unfold x; clear x)); (on_goal 2 => clear_value x))
    | (extract_lets +onlyGivenNames x; refine Keeps.cut2 (s := s₀) (x := x.2) ?_ (fun hx => ?_); (on_goal 1 => (unfold x; clear x)); (on_goal 2 => clear_value x))
    | (extract_lets +onlyGivenNames x; (have hv : x = x := by unfold x; exact Eq.refl _); clear hv; clear_value x)
    | with_reducible apply Keeps.ite
    | with_reducible apply Keeps.ite22
    | with_reducible apply State.setSltEnt_keeps
    | split

theorem sltReadAct_keeps {s₀ : State} {t i : Nat} {s : State} (hk : Keeps s₀ s) :
    Keeps s₀ (sltReadAct t i s).2.2 := by
  unfold sltReadAct
  repeat' first
    | with_reducible assumption
    | with_reducible apply Keeps.ite
    | with_reducible apply Keeps.ite22
    | split

theorem sltStatAct_keeps {s₀ : State} {i : Nat} {clr : Bool} {s : State} (hk : Keeps s₀ s) :
    Keeps s₀ (sltStatAct i clr s).2.2 := by
  unfold sltStatAct
  repeat' first
    | with_reducible assumption
    | with_reducible apply Keeps.ite
    | with_reducible apply Keeps.ite22
    | with_reducible apply State.sliceStatClear_keeps
    | split

theorem execTxDescriptorFetch_keeps {s₀ : State} {ring : Nat} {s : State} (hk : Keeps s₀ s) :
    KeepsR s₀ (execTxDescriptorFetch ring s) := by
  exact KeepsR.next (txDescriptorFetch_keeps hk)

theorem execDoorbellWrite_keeps {s₀ : State} {m : Master} {page k value : Nat} {s : State} (hk : Keeps s₀ s) :
    KeepsR s₀ (execDoorbellWrite m page k value s) := by
  exact KeepsR.next (doorbellWrite_keeps hk)

theorem execFWrite_keeps {s₀ : State} {m : Master} {page w value : Nat} {s : State} (hk : Keeps s₀ s) :
    KeepsR s₀ (execFWrite m page w value s) := by
  exact KeepsR.next (fWrite_keeps hk)

theorem execFtagWrite_keeps {s₀ : State} {core : Nat} {hyp : Bool} {valid : Bool} {pasid : Nat} {s : State} (hk : Keeps s₀ s) :
    KeepsR s₀ (execFtagWrite core hyp valid pasid s) := by
  exact KeepsR.next (ftagWrite_keeps hk)

theorem execIrqModerationEnd_keeps {s₀ : State} {ring : Nat} {s : State} (hk : Keeps s₀ s) :
    KeepsR s₀ (execIrqModerationEnd ring s) := by
  exact KeepsR.next (irqModerationEnd_keeps hk)

theorem execQuiesceDrained_keeps {s₀ : State} {slice : Nat} {s : State} (hk : Keeps s₀ s) :
    KeepsR s₀ (execQuiesceDrained slice s) := by
  exact KeepsR.next (quiesceDrained_keeps hk)

theorem execQuiesceLimit_keeps {s₀ : State} {slice : Nat} {s : State} (hk : Keeps s₀ s) :
    KeepsR s₀ (execQuiesceLimit slice s) := by
  exact KeepsR.next (quiesceLimit_keeps hk)

theorem execSliceCreate_keeps {s₀ : State} {q : Req} {p : SliceParams} {s : State} (hk : Keeps s₀ s) :
    KeepsR s₀ (execSliceCreate q p s) := by
  exact State.patchaif_keeps hk (fun _ h => sliceCreateAct_keeps h)

theorem execSliceRing_keeps {s₀ : State} {q : Req} {slice loc base : Nat} {s : State} (hk : Keeps s₀ s) :
    KeepsR s₀ (execSliceRing q slice loc base s) := by
  exact State.patchaif_keeps hk (fun _ h => sliceRingAct_keeps h)

theorem execSliceBind_keeps {s₀ : State} {q : Req} {slice : Nat} {add : Bool} {pasid : Nat} {s : State} (hk : Keeps s₀ s) :
    KeepsR s₀ (execSliceBind q slice add pasid s) := by
  exact State.patchaif_keeps hk (fun _ h => sliceBindAct_keeps h)

theorem execSliceStart_keeps {s₀ : State} {q : Req} {slice : Nat} {s : State} (hk : Keeps s₀ s) :
    KeepsR s₀ (execSliceStart q slice s) := by
  exact State.patchaif_keeps hk (fun _ h => sliceStartAct_keeps h)

theorem execSliceQuiesce_keeps {s₀ : State} {q : Req} {slice : Nat} {s : State} (hk : Keeps s₀ s) :
    KeepsR s₀ (execSliceQuiesce q slice s) := by
  exact State.patchaif_keeps hk (fun _ h => sliceQuiesceAct_keeps h)

theorem execSliceReset_keeps {s₀ : State} {q : Req} {slice : Nat} {s : State} (hk : Keeps s₀ s) :
    KeepsR s₀ (execSliceReset q slice s) := by
  exact State.patchaif_keeps hk (fun _ h => sliceResetAct_keeps h)

theorem execSliceRemove_keeps {s₀ : State} {q : Req} {slice : Nat} {s : State} (hk : Keeps s₀ s) :
    KeepsR s₀ (execSliceRemove q slice s) := by
  exact State.patchaif_keeps hk (fun _ h => sliceResetAct_keeps h)

theorem execSliceFault_keeps {s₀ : State} {q : Req} {slice : Nat} {s : State} (hk : Keeps s₀ s) :
    KeepsR s₀ (execSliceFault q slice s) := by
  exact State.patchaif_keeps hk (fun _ h => sliceFaultAct_keeps h)

theorem execSliceShare_keeps {s₀ : State} {q : Req} {slice inflight weight : Nat} {s : State} (hk : Keeps s₀ s) :
    KeepsR s₀ (execSliceShare q slice inflight weight s) := by
  exact State.patchaif_keeps hk (fun _ h => sliceShareAct_keeps h)

theorem execSlicePv_keeps {s₀ : State} {q : Req} {slice : Nat} {en : Bool} {lats : Nat} {s : State} (hk : Keeps s₀ s) :
    KeepsR s₀ (execSlicePv q slice en lats s) := by
  exact State.patchaif_keeps hk (fun _ h => slicePvAct_keeps h)

theorem execSliceStatus_keeps {s₀ : State} {q : Req} {clear : Bool} {slice : Nat} {s : State} (hk : Keeps s₀ s) :
    KeepsR s₀ (execSliceStatus q clear slice s) := by
  exact State.patchaif_keeps hk (fun _ h => sliceStatusAct_keeps h)

theorem execSltWrite_keeps {s₀ : State} {m : Master} {table index : Nat} {s : State} (hk : Keeps s₀ s) :
    KeepsR s₀ (execSltWrite m table index s) := by
  exact State.cmdRun_keeps hk (fun _ h => sltWriteAct_keeps h)

theorem execSltRead_keeps {s₀ : State} {m : Master} {table index : Nat} {s : State} (hk : Keeps s₀ s) :
    KeepsR s₀ (execSltRead m table index s) := by
  exact State.cmdRun_keeps hk (fun _ h => sltReadAct_keeps h)

theorem execSltStat_keeps {s₀ : State} {m : Master} {index : Nat} {clr : Bool} {s : State} (hk : Keeps s₀ s) :
    KeepsR s₀ (execSltStat m index clr s) := by
  exact State.cmdRun_keeps hk (fun _ h => sltStatAct_keeps h)

/-! ### PairCmds -/

theorem State.showPrc_keeps {s₀ : State} {s : State} (hk : Keeps s₀ s) :
    Keeps s₀ (State.showPrc s) := by
  unfold State.showPrc
  repeat' first
    | with_reducible assumption
    | (dsimp only [Keeps.mk_eq]; with_reducible apply KeepsD.of)
    | (extract_lets +onlyGivenNames x; refine Keeps.cut (s := s₀) (t := x) ?_ (fun hx => ?_); (on_goal 1 => (unfold x; clear x)); (on_goal 2 => clear_value x))
    | (extract_lets +onlyGivenNames x; refine Keeps.cut2 (s := s₀) (x := x) ?_ (fun hx => ?_); (on_goal 1 => (unfold x; clear x)); (on_goal 2 => clear_value x))
    | (extract_lets +onlyGivenNames x; refine Keeps.cut2 (s := s₀) (x := x.2) ?_ (fun hx => ?_); (on_goal 1 => (unfold x; clear x)); (on_goal 2 => clear_value x))
    | (extract_lets +onlyGivenNames x; refine Keeps.cutF1 (s := s₀) (f := x) ?_ (fun kx => ?_); (on_goal 1 => (unfold x; clear x; intros; beta_reduce)); (on_goal 2 => clear_value x))
    | (extract_lets +onlyGivenNames x; refine Keeps.cutF2 (s := s₀) (f := x) ?_ (fun kx => ?_); (on_goal 1 => (unfold x; clear x; intros; beta_reduce)); (on_goal 2 => clear_value x))
    | (extract_lets +onlyGivenNames x; refine Keeps.cutG2 (s := s₀) (f := x) ?_ (fun kx => ?_); (on_goal 1 => (unfold x; clear x; intros; beta_reduce)); (on_goal 2 => clear_value x))
    | (extract_lets +onlyGivenNames x; refine Keeps.cutF3 (s := s₀) (f := x) ?_ (fun kx => ?_); (on_goal 1 => (unfold x; clear x; intros; beta_reduce)); (on_goal 2 => clear_value x))
    | (extract_lets +onlyGivenNames x; refine Keeps.cutF4 (s := s₀) (f := x) ?_ (fun kx => ?_); (on_goal 1 => (unfold x; clear x; intros; beta_reduce)); (on_goal 2 => clear_value x))
    | (extract_lets +onlyGivenNames x; (have hv : x = x := by unfold x; exact Eq.refl _); clear hv; clear_value x)
    | with_reducible apply State.setB_keeps
    | with_reducible apply State.setF_keeps
    | apply kx
    | split
    | (intro _; intros; try beta_reduce)

theorem pairStatusAct_keeps {s₀ : State} {clear : Bool} {s : State} (hk : Keeps s₀ s) :
    Keeps s₀ (pairStatusAct clear s).2 := by
  unfold pairStatusAct
  repeat' first
    | with_reducible assumption
    | (extract_lets +onlyGivenNames x; refine Keeps.cut (s := s₀) (t := x) ?_ (fun hx => ?_); (on_goal 1 => (unfold x; clear x)); (on_goal 2 => clear_value x))
    | (extract_lets +onlyGivenNames x; refine Keeps.cut2 (s := s₀) (x := x) ?_ (fun hx => ?_); (on_goal 1 => (unfold x; clear x)); (on_goal 2 => clear_value x))
    | (extract_lets +onlyGivenNames x; refine Keeps.cut2 (s := s₀) (x := x.2) ?_ (fun hx => ?_); (on_goal 1 => (unfold x; clear x)); (on_goal 2 => clear_value x))
    | (extract_lets +onlyGivenNames x; (have hv : x = x := by unfold x; exact Eq.refl _); clear hv; clear_value x)
    | with_reducible apply State.showPrc_keeps
    | with_reducible apply State.clearCnt_keeps

theorem pairSwitchAct_keeps {s₀ : State} {q : Req} {s : State} (hk : Keeps s₀ s) :
    Keeps s₀ (pairSwitchAct q s).2 := by
  unfold pairSwitchAct
  repeat' first
    | with_reducible assumption
    | (dsimp only [Keeps.mk_eq]; with_reducible apply KeepsD.of)
    | with_reducible apply Keeps.ite
    | with_reducible apply Keeps.ite2
    | split

theorem pairFenceAct_keeps {s₀ : State} {s : State} (hk : Keeps s₀ s) :
    Keeps s₀ (pairFenceAct s).2 := by
  unfold pairFenceAct
  repeat' first
    | with_reducible assumption
    | with_reducible apply Keeps.ite
    | with_reducible apply Keeps.ite2
    | with_reducible apply State.fence_keeps
    | split

theorem pairReleaseAct_keeps {s₀ : State} {s : State} (hk : Keeps s₀ s) :
    Keeps s₀ (pairReleaseAct s).2 := by
  unfold pairReleaseAct
  repeat' first
    | with_reducible assumption
    | with_reducible apply Keeps.ite
    | with_reducible apply Keeps.ite2
    | with_reducible apply State.setF_keeps
    | with_reducible apply State.singleAlone_keeps
    | split

theorem pairAloneAct_keeps {s₀ : State} {s : State} (hk : Keeps s₀ s) :
    Keeps s₀ (pairAloneAct s).2 := by
  unfold pairAloneAct
  repeat' first
    | with_reducible assumption
    | (dsimp only [Keeps.mk_eq]; with_reducible apply KeepsD.of)
    | (extract_lets +onlyGivenNames x; refine Keeps.cut (s := s₀) (t := x) ?_ (fun hx => ?_); (on_goal 1 => (unfold x; clear x)); (on_goal 2 => clear_value x))
    | (extract_lets +onlyGivenNames x; refine Keeps.cut2 (s := s₀) (x := x) ?_ (fun hx => ?_); (on_goal 1 => (unfold x; clear x)); (on_goal 2 => clear_value x))
    | (extract_lets +onlyGivenNames x; refine Keeps.cut2 (s := s₀) (x := x.2) ?_ (fun hx => ?_); (on_goal 1 => (unfold x; clear x)); (on_goal 2 => clear_value x))
    | (extract_lets +onlyGivenNames x; (have hv : x = x := by unfold x; exact Eq.refl _); clear hv; clear_value x)
    | with_reducible apply Keeps.ite
    | with_reducible apply Keeps.ite2
    | with_reducible apply State.takeSending_keeps
    | split

theorem execHeartbeatRx_keeps {s₀ : State} {h : HbRx} {s : State} (hk : Keeps s₀ s) :
    KeepsR s₀ (execHeartbeatRx h s) := by
  unfold execHeartbeatRx
  repeat' first
    | with_reducible assumption
    | with_reducible apply KeepsR.next
    | with_reducible apply KeepsR.ite
    | with_reducible apply Keeps.ite
    | with_reducible apply State.pairMsg_keeps
    | with_reducible apply heartbeatRx_keeps
    | split

theorem execHandoverRx_keeps {s₀ : State} {h : PairHdr} {recs : List PubSyncRec} {s : State} (hk : Keeps s₀ s) :
    KeepsR s₀ (execHandoverRx h recs s) := by
  unfold execHandoverRx
  repeat' first
    | with_reducible assumption
    | with_reducible apply KeepsR.next
    | with_reducible apply State.pairMsg_keeps
    | with_reducible apply handoverRx_keeps

theorem execDigestRx_keeps {s₀ : State} {h : PairHdr} {entries : List DigestEntry} {s : State} (hk : Keeps s₀ s) :
    KeepsR s₀ (execDigestRx h entries s) := by
  unfold execDigestRx
  repeat' first
    | with_reducible assumption
    | with_reducible apply KeepsR.next
    | with_reducible apply State.pairMsg_keeps
    | with_reducible apply digestRx_keeps

theorem execImageReqRx_keeps {s₀ : State} {h : PairHdr} {cls : Nat} {s : State} (hk : Keeps s₀ s) :
    KeepsR s₀ (execImageReqRx h cls s) := by
  unfold execImageReqRx
  repeat' first
    | with_reducible assumption
    | with_reducible apply KeepsR.next
    | with_reducible apply State.pairMsg_keeps
    | with_reducible apply imageReqRx_keeps

theorem execImageRx_keeps {s₀ : State} {h : PairHdr} {cls stamp : Nat} {octets : Octets} {s : State} (hk : Keeps s₀ s) :
    KeepsR s₀ (execImageRx h cls stamp octets s) := by
  unfold execImageRx
  repeat' first
    | with_reducible assumption
    | with_reducible apply KeepsR.next
    | with_reducible apply State.pairMsg_keeps
    | with_reducible apply imageRx_keeps

theorem execPubSyncRx_keeps {s₀ : State} {h : PairHdr} {recs : List PubSyncRec} {s : State} (hk : Keeps s₀ s) :
    KeepsR s₀ (execPubSyncRx h recs s) := by
  unfold execPubSyncRx
  repeat' first
    | with_reducible assumption
    | with_reducible apply KeepsR.next
    | with_reducible apply State.pairMsg_keeps
    | with_reducible apply pubSyncRx_keeps

theorem execPairStatus_keeps {s₀ : State} {q : Req} {clear : Bool} {s : State} (hk : Keeps s₀ s) :
    KeepsR s₀ (execPairStatus q clear s) := by
  exact State.patchaif_keeps hk (fun _ h => pairStatusAct_keeps h)

theorem execPairSwitch_keeps {s₀ : State} {q : Req} {s : State} (hk : Keeps s₀ s) :
    KeepsR s₀ (execPairSwitch q s) := by
  exact State.patchaif_keeps hk (fun _ h => pairSwitchAct_keeps h)

theorem execPairFence_keeps {s₀ : State} {q : Req} {s : State} (hk : Keeps s₀ s) :
    KeepsR s₀ (execPairFence q s) := by
  exact State.patchaif_keeps hk (fun _ h => pairFenceAct_keeps h)

theorem execPairRelease_keeps {s₀ : State} {q : Req} {s : State} (hk : Keeps s₀ s) :
    KeepsR s₀ (execPairRelease q s) := by
  exact State.patchaif_keeps hk (fun _ h => pairReleaseAct_keeps h)

theorem execPairAlone_keeps {s₀ : State} {q : Req} {s : State} (hk : Keeps s₀ s) :
    KeepsR s₀ (execPairAlone q s) := by
  exact State.patchaif_keeps hk (fun _ h => pairAloneAct_keeps h)

/-! ### Streams -/

theorem State.ctxInstall_keeps {s₀ : State} {s : State} {c : Nat} {w : List Nat} (hk : Keeps s₀ s) :
    Keeps s₀ (State.ctxInstall s c w) := by
  unfold State.ctxInstall
  repeat' first
    | with_reducible assumption
    | (dsimp only [Keeps.mk_eq]; with_reducible apply KeepsD.of)
    | (extract_lets +onlyGivenNames x; refine Keeps.cut (s := s₀) (t := x) ?_ (fun hx => ?_); (on_goal 1 => (unfold x; clear x)); (on_goal 2 => clear_value x))
    | (extract_lets +onlyGivenNames x; refine Keeps.cut2 (s := s₀) (x := x) ?_ (fun hx => ?_); (on_goal 1 => (unfold x; clear x)); (on_goal 2 => clear_value x))
    | (extract_lets +onlyGivenNames x; refine Keeps.cut2 (s := s₀) (x := x.2) ?_ (fun hx => ?_); (on_goal 1 => (unfold x; clear x)); (on_goal 2 => clear_value x))
    | (extract_lets +onlyGivenNames x; (have hv : x = x := by unfold x; exact Eq.refl _); clear hv; clear_value x)
    | with_reducible apply Keeps.ite
    | with_reducible apply State.ctxBits_keeps
    | split

theorem State.ctxRemove_keeps {s₀ : State} {s : State} {c : Nat} (hk : Keeps s₀ s) :
    Keeps s₀ (State.ctxRemove s c) := by
  unfold State.ctxRemove
  repeat' first
    | with_reducible assumption
    | (dsimp only [Keeps.mk_eq]; with_reducible apply KeepsD.of)
    | (extract_lets +onlyGivenNames x; refine Keeps.cut (s := s₀) (t := x) ?_ (fun hx => ?_); (on_goal 1 => (unfold x; clear x)); (on_goal 2 => clear_value x))
    | (extract_lets +onlyGivenNames x; refine Keeps.cut2 (s := s₀) (x := x) ?_ (fun hx => ?_); (on_goal 1 => (unfold x; clear x)); (on_goal 2 => clear_value x))
    | (extract_lets +onlyGivenNames x; refine Keeps.cut2 (s := s₀) (x := x.2) ?_ (fun hx => ?_); (on_goal 1 => (unfold x; clear x)); (on_goal 2 => clear_value x))
    | (extract_lets +onlyGivenNames x; (have hv : x = x := by unfold x; exact Eq.refl _); clear hv; clear_value x)
    | with_reducible apply Keeps.ite
    | with_reducible apply State.feederTo_keeps
    | with_reducible apply State.modCtx_keeps
    | with_reducible apply State.ctxBits_keeps
    | with_reducible apply State.gooseFallback_keeps
    | with_reducible apply Keeps.foldl
    | with_reducible apply Keeps.foldl2
    | split
    | (intro _; intros; try beta_reduce)

theorem State.ctxStatClear_keeps {s₀ : State} {s : State} {c : Nat} (hk : Keeps s₀ s) :
    Keeps s₀ (State.ctxStatClear s c) := by
  unfold State.ctxStatClear
  repeat' first
    | with_reducible assumption
    | (dsimp only [Keeps.mk_eq]; with_reducible apply KeepsD.of)
    | with_reducible apply State.modCtx_keeps
    | (intro _; intros; try beta_reduce)

theorem State.ctxMode_keeps {s₀ : State} {s : State} {c : Nat} {sim test : Bool} (hk : Keeps s₀ s) :
    Keeps s₀ (State.ctxMode s c sim test) := by
  unfold State.ctxMode
  repeat' first
    | with_reducible assumption
    | (dsimp only [Keeps.mk_eq]; with_reducible apply KeepsD.of)
    | with_reducible apply State.modCtx_keeps
    | with_reducible apply State.ctxBits_keeps
    | (intro _; intros; try beta_reduce)

theorem State.setMap_keeps {s₀ : State} {s : State} {i v : Nat} (hk : Keeps s₀ s) :
    Keeps s₀ (State.setMap s i v) := by
  unfold State.setMap
  repeat' first
    | with_reducible assumption
    | (dsimp only [Keeps.mk_eq]; with_reducible apply KeepsD.of)

theorem State.foreignFree_keeps {s₀ : State} {s : State} {i : Nat} (hk : Keeps s₀ s) :
    Keeps s₀ (State.foreignFree s i) := by
  unfold State.foreignFree
  repeat' first
    | with_reducible assumption
    | (dsimp only [Keeps.mk_eq]; with_reducible apply KeepsD.of)
    | with_reducible apply Keeps.ite
    | with_reducible apply State.foreign_keeps
    | split

theorem sctWriteAct_keeps {s₀ : State} {i : Nat} {s : State} (hk : Keeps s₀ s) :
    Keeps s₀ (sctWriteAct i s).2.2 := by
  unfold sctWriteAct
  repeat' first
    | with_reducible assumption
    | (extract_lets +onlyGivenNames x; refine Keeps.cut (s := s₀) (t := x) ?_ (fun hx => ?_); (on_goal 1 => (unfold x; clear x)); (on_goal 2 => clear_value x))
    | (extract_lets +onlyGivenNames x; refine Keeps.cut2 (s := s₀) (x := x) ?_ (fun hx => ?_); (on_goal 1 => (unfold x; clear x)); (on_goal 2 => clear_value x))
    | (extract_lets +onlyGivenNames x; refine Keeps.cut2 (s := s₀) (x := x.2) ?_ (fun hx => ?_); (on_goal 1 => (unfold x; clear x)); (on_goal 2 => clear_value x))
    | (extract_lets +onlyGivenNames x; (have hv : x = x := by unfold x; exact Eq.refl _); clear hv; clear_value x)
    | with_reducible apply Keeps.ite
    | with_reducible apply Keeps.ite22
    | with_reducible apply State.ctxInstall_keeps
    | split

theorem sctRemoveAct_keeps {s₀ : State} {i : Nat} {s : State} (hk : Keeps s₀ s) :
    Keeps s₀ (sctRemoveAct i s).2.2 := by
  unfold sctRemoveAct
  repeat' first
    | with_reducible assumption
    | (extract_lets +onlyGivenNames x; refine Keeps.cut (s := s₀) (t := x) ?_ (fun hx => ?_); (on_goal 1 => (unfold x; clear x)); (on_goal 2 => clear_value x))
    | (extract_lets +onlyGivenNames x; refine Keeps.cut2 (s := s₀) (x := x) ?_ (fun hx => ?_); (on_goal 1 => (unfold x; clear x)); (on_goal 2 => clear_value x))
    | (extract_lets +onlyGivenNames x; refine Keeps.cut2 (s := s₀) (x := x.2) ?_ (fun hx => ?_); (on_goal 1 => (unfold x; clear x)); (on_goal 2 => clear_value x))
    | (extract_lets +onlyGivenNames x; (have hv : x = x := by unfold x; exact Eq.refl _); clear hv; clear_value x)
    | with_reducible apply Keeps.ite
    | with_reducible apply Keeps.ite22
    | with_reducible apply State.ctxRemove_keeps
    | split

theorem sctReadAct_keeps {s₀ : State} {i : Nat} {clr : Bool} {s : State} (hk : Keeps s₀ s) :
    Keeps s₀ (sctReadAct i clr s).2.2 := by
  unfold sctReadAct
  repeat' first
    | with_reducible assumption
    | (extract_lets +onlyGivenNames x; refine Keeps.cut (s := s₀) (t := x) ?_ (fun hx => ?_); (on_goal 1 => (unfold x; clear x)); (on_goal 2 => clear_value x))
    | (extract_lets +onlyGivenNames x; refine Keeps.cut2 (s := s₀) (x := x) ?_ (fun hx => ?_); (on_goal 1 => (unfold x; clear x)); (on_goal 2 => clear_value x))
    | (extract_lets +onlyGivenNames x; refine Keeps.cut2 (s := s₀) (x := x.2) ?_ (fun hx => ?_); (on_goal 1 => (unfold x; clear x)); (on_goal 2 => clear_value x))
    | (extract_lets +onlyGivenNames x; (have hv : x = x := by unfold x; exact Eq.refl _); clear hv; clear_value x)
    | with_reducible apply Keeps.ite
    | with_reducible apply Keeps.ite22
    | with_reducible apply State.setF_keeps
    | with_reducible apply State.ctxStatClear_keeps
    | with_reducible apply Keeps.foldl
    | with_reducible apply Keeps.foldl2
    | split
    | (intro _; intros; try beta_reduce)

theorem sctMapWriteAct_keeps {s₀ : State} {i : Nat} {s : State} (hk : Keeps s₀ s) :
    Keeps s₀ (sctMapWriteAct i s).2.2 := by
  unfold sctMapWriteAct
  repeat' first
    | with_reducible assumption
    | with_reducible apply Keeps.ite
    | with_reducible apply Keeps.ite22
    | with_reducible apply State.setMap_keeps
    | split

theorem sctMapReadAct_keeps {s₀ : State} {i : Nat} {s : State} (hk : Keeps s₀ s) :
    Keeps s₀ (sctMapReadAct i s).2.2 := by
  unfold sctMapReadAct
  repeat' first
    | with_reducible assumption
    | with_reducible apply Keeps.ite
    | with_reducible apply Keeps.ite22
    | split

theorem sctForeignReadAct_keeps {s₀ : State} {i : Nat} {s : State} (hk : Keeps s₀ s) :
    Keeps s₀ (sctForeignReadAct i s).2.2 := by
  unfold sctForeignReadAct
  repeat' first
    | with_reducible assumption
    | with_reducible apply Keeps.ite
    | with_reducible apply Keeps.ite22
    | with_reducible apply State.foreign_keeps
    | with_reducible apply State.setF_keeps
    | with_reducible apply Keeps.foldl
    | with_reducible apply Keeps.foldl2
    | split
    | (intro _; intros; try beta_reduce)

theorem sctForeignClearAct_keeps {s₀ : State} {i : Nat} {s : State} (hk : Keeps s₀ s) :
    Keeps s₀ (sctForeignClearAct i s).2.2 := by
  unfold sctForeignClearAct
  repeat' first
    | with_reducible assumption
    | with_reducible apply Keeps.ite
    | with_reducible apply Keeps.ite22
    | with_reducible apply State.foreignFree_keeps
    | split

theorem sctModeAct_keeps {s₀ : State} {i : Nat} {s : State} (hk : Keeps s₀ s) :
    Keeps s₀ (sctModeAct i s).2.2 := by
  unfold sctModeAct
  repeat' first
    | with_reducible assumption
    | (extract_lets +onlyGivenNames x; refine Keeps.cut (s := s₀) (t := x) ?_ (fun hx => ?_); (on_goal 1 => (unfold x; clear x)); (on_goal 2 => clear_value x))
    | (extract_lets +onlyGivenNames x; refine Keeps.cut2 (s := s₀) (x := x) ?_ (fun hx => ?_); (on_goal 1 => (unfold x; clear x)); (on_goal 2 => clear_value x))
    | (extract_lets +onlyGivenNames x; refine Keeps.cut2 (s := s₀) (x := x.2) ?_ (fun hx => ?_); (on_goal 1 => (unfold x; clear x)); (on_goal 2 => clear_value x))
    | (extract_lets +onlyGivenNames x; (have hv : x = x := by unfold x; exact Eq.refl _); clear hv; clear_value x)
    | with_reducible apply Keeps.ite
    | with_reducible apply Keeps.ite22
    | with_reducible apply State.ctxMode_keeps
    | split

theorem streamAddAct_keeps {s₀ : State} {w maps : List Nat} {s : State} (hk : Keeps s₀ s) :
    Keeps s₀ (streamAddAct w maps s).2 := by
  unfold streamAddAct
  repeat' first
    | with_reducible assumption
    | (dsimp only [Keeps.mk_eq]; with_reducible apply KeepsD.of)
    | (extract_lets +onlyGivenNames x; refine Keeps.cut (s := s₀) (t := x) ?_ (fun hx => ?_); (on_goal 1 => (unfold x; clear x)); (on_goal 2 => clear_value x))
    | (extract_lets +onlyGivenNames x; refine Keeps.cut2 (s := s₀) (x := x) ?_ (fun hx => ?_); (on_goal 1 => (unfold x; clear x)); (on_goal 2 => clear_value x))
    | (extract_lets +onlyGivenNames x; refine Keeps.cut2 (s := s₀) (x := x.2) ?_ (fun hx => ?_); (on_goal 1 => (unfold x; clear x)); (on_goal 2 => clear_value x))
    | (extract_lets +onlyGivenNames x; (have hv : x = x := by unfold x; exact Eq.refl _); clear hv; clear_value x)
    | with_reducible apply Keeps.ite
    | with_reducible apply Keeps.ite2
    | with_reducible apply State.setMap_keeps
    | with_reducible apply State.ctxInstall_keeps
    | with_reducible apply Keeps.foldl
    | with_reducible apply Keeps.foldl2
    | split
    | (intro _; intros; try beta_reduce)

theorem streamRemoveAct_keeps {s₀ : State} {i : Nat} {s : State} (hk : Keeps s₀ s) :
    Keeps s₀ (streamRemoveAct i s).2 := by
  unfold streamRemoveAct
  repeat' first
    | with_reducible assumption
    | (extract_lets +onlyGivenNames x; refine Keeps.cut (s := s₀) (t := x) ?_ (fun hx => ?_); (on_goal 1 => (unfold x; clear x)); (on_goal 2 => clear_value x))
    | (extract_lets +onlyGivenNames x; refine Keeps.cut2 (s := s₀) (x := x) ?_ (fun hx => ?_); (on_goal 1 => (unfold x; clear x)); (on_goal 2 => clear_value x))
    | (extract_lets +onlyGivenNames x; refine Keeps.cut2 (s := s₀) (x := x.2) ?_ (fun hx => ?_); (on_goal 1 => (unfold x; clear x)); (on_goal 2 => clear_value x))
    | (extract_lets +onlyGivenNames x; (have hv : x = x := by unfold x; exact Eq.refl _); clear hv; clear_value x)
    | with_reducible apply Keeps.ite
    | with_reducible apply Keeps.ite2
    | with_reducible apply sctRemoveAct_keeps
    | split

theorem streamModeAct_keeps {s₀ : State} {i : Nat} {sim test : Bool} {s : State} (hk : Keeps s₀ s) :
    Keeps s₀ (streamModeAct i sim test s).2 := by
  unfold streamModeAct
  repeat' first
    | with_reducible assumption
    | with_reducible apply Keeps.ite
    | with_reducible apply Keeps.ite2
    | with_reducible apply State.ctxMode_keeps
    | split

theorem streamStatusAct_keeps {s₀ : State} {clear : Bool} {i : Nat} {s : State} (hk : Keeps s₀ s) :
    Keeps s₀ (streamStatusAct clear i s).2 := by
  unfold streamStatusAct
  repeat' first
    | with_reducible assumption
    | with_reducible apply Keeps.ite
    | with_reducible apply Keeps.ite2
    | with_reducible apply State.ctxStatClear_keeps
    | split

theorem foreignListAct_keeps {s₀ : State} {s : State} (hk : Keeps s₀ s) :
    Keeps s₀ (foreignListAct s).2 := by
  unfold foreignListAct
  repeat' first
    | with_reducible assumption
    | (dsimp only [Keeps.mk_eq]; with_reducible apply KeepsD.of)
    | with_reducible apply State.foreign_keeps
    | (intro _; intros; try beta_reduce)

theorem foreignClearAct_keeps {s₀ : State} {i : Nat} {s : State} (hk : Keeps s₀ s) :
    Keeps s₀ (foreignClearAct i s).2 := by
  unfold foreignClearAct
  repeat' first
    | with_reducible assumption
    | with_reducible apply Keeps.ite
    | with_reducible apply Keeps.ite2
    | with_reducible apply State.foreignFree_keeps
    | split

theorem execSctWrite_keeps {s₀ : State} {m : Master} {index : Nat} {s : State} (hk : Keeps s₀ s) :
    KeepsR s₀ (execSctWrite m index s) := by
  exact State.cmdRun_keeps hk (fun _ h => sctWriteAct_keeps h)

theorem execSctRemove_keeps {s₀ : State} {m : Master} {index : Nat} {s : State} (hk : Keeps s₀ s) :
    KeepsR s₀ (execSctRemove m index s) := by
  exact State.cmdRun_keeps hk (fun _ h => sctRemoveAct_keeps h)

theorem execSctRead_keeps {s₀ : State} {m : Master} {index : Nat} {clr : Bool} {s : State} (hk : Keeps s₀ s) :
    KeepsR s₀ (execSctRead m index clr s) := by
  exact State.cmdRun_keeps hk (fun _ h => sctReadAct_keeps h)

theorem execSctMapWrite_keeps {s₀ : State} {m : Master} {index : Nat} {s : State} (hk : Keeps s₀ s) :
    KeepsR s₀ (execSctMapWrite m index s) := by
  exact State.cmdRun_keeps hk (fun _ h => sctMapWriteAct_keeps h)

theorem execSctMapRead_keeps {s₀ : State} {m : Master} {index : Nat} {s : State} (hk : Keeps s₀ s) :
    KeepsR s₀ (execSctMapRead m index s) := by
  exact State.cmdRun_keeps hk (fun _ h => sctMapReadAct_keeps h)

theorem execSctForeignRead_keeps {s₀ : State} {m : Master} {index : Nat} {s : State} (hk : Keeps s₀ s) :
    KeepsR s₀ (execSctForeignRead m index s) := by
  exact State.cmdRun_keeps hk (fun _ h => sctForeignReadAct_keeps h)

theorem execSctForeignClear_keeps {s₀ : State} {m : Master} {index : Nat} {s : State} (hk : Keeps s₀ s) :
    KeepsR s₀ (execSctForeignClear m index s) := by
  exact State.cmdRun_keeps hk (fun _ h => sctForeignClearAct_keeps h)

theorem execSctMode_keeps {s₀ : State} {m : Master} {index : Nat} {s : State} (hk : Keeps s₀ s) :
    KeepsR s₀ (execSctMode m index s) := by
  exact State.cmdRun_keeps hk (fun _ h => sctModeAct_keeps h)

theorem execStreamAdd_keeps {s₀ : State} {q : Req} {words : List Nat} {maps : List Nat} {s : State} (hk : Keeps s₀ s) :
    KeepsR s₀ (execStreamAdd q words maps s) := by
  exact State.patchaif_keeps hk (fun _ h => streamAddAct_keeps h)

theorem execStreamRemove_keeps {s₀ : State} {q : Req} {ctx : Nat} {s : State} (hk : Keeps s₀ s) :
    KeepsR s₀ (execStreamRemove q ctx s) := by
  exact State.patchaif_keeps hk (fun _ h => streamRemoveAct_keeps h)

theorem execStreamMode_keeps {s₀ : State} {q : Req} {ctx : Nat} {sim test : Bool} {s : State} (hk : Keeps s₀ s) :
    KeepsR s₀ (execStreamMode q ctx sim test s) := by
  exact State.patchaif_keeps hk (fun _ h => streamModeAct_keeps h)

theorem execStreamStatus_keeps {s₀ : State} {q : Req} {clear : Bool} {ctx : Nat} {s : State} (hk : Keeps s₀ s) :
    KeepsR s₀ (execStreamStatus q clear ctx s) := by
  exact State.patchaif_keeps hk (fun _ h => streamStatusAct_keeps h)

theorem execForeignList_keeps {s₀ : State} {q : Req} {s : State} (hk : Keeps s₀ s) :
    KeepsR s₀ (execForeignList q s) := by
  exact State.patchaif_keeps hk (fun _ h => foreignListAct_keeps h)

theorem execForeignClear_keeps {s₀ : State} {q : Req} {index : Nat} {s : State} (hk : Keeps s₀ s) :
    KeepsR s₀ (execForeignClear q index s) := by
  exact State.patchaif_keeps hk (fun _ h => foreignClearAct_keeps h)

end Sys2Proof.Machine
end

