-- ==== Sys2Proof/Laws/KeepsCmds.lean ====
section
/-! SUPPORT. What the operations keep: each leaves memory and the register file canonical and the queue as it is. -/
namespace Sys2Proof.Machine

/-! ### EngineCmds -/

theorem State.showSle_keeps {s₀ : State} {s : State} (hk : Keeps s₀ s) :
    Keeps s₀ (State.showSle s) := by
  unfold State.showSle
  repeat' first
    | with_reducible assumption
    | (dsimp only [Keeps.mk_eq]; with_reducible apply KeepsD.of)
    | (extract_lets +onlyGivenNames x; refine Keeps.cut (s := s₀) (t := x) ?_ (fun hx => ?_); (on_goal 1 => (unfold x; clear x)); (on_goal 2 => clear_value x))
    | (extract_lets +onlyGivenNames x; refine Keeps.cut2 (s := s₀) (x := x) ?_ (fun hx => ?_); (on_goal 1 => (unfold x; clear x)); (on_goal 2 => clear_value x))
    | (extract_lets +onlyGivenNames x; refine Keeps.cut2 (s := s₀) (x := x.2) ?_ (fun hx => ?_); (on_goal 1 => (unfold x; clear x)); (on_goal 2 => clear_value x))
    | (extract_lets +onlyGivenNames x; (have hv : x = x := by unfold x; exact Eq.refl _); clear hv; clear_value x)
    | with_reducible apply State.setB_keeps
    | with_reducible apply State.setF_keeps
    | split
    | (intro _; intros; try beta_reduce)

theorem latticeStatusAct_keeps {s₀ : State} {clear : Bool} {l : Nat} {s : State} (hk : Keeps s₀ s) :
    Keeps s₀ (latticeStatusAct clear l s).2 := by
  unfold latticeStatusAct
  repeat' first
    | with_reducible assumption
    | (extract_lets +onlyGivenNames x; refine Keeps.cut (s := s₀) (t := x) ?_ (fun hx => ?_); (on_goal 1 => (unfold x; clear x)); (on_goal 2 => clear_value x))
    | (extract_lets +onlyGivenNames x; refine Keeps.cut2 (s := s₀) (x := x) ?_ (fun hx => ?_); (on_goal 1 => (unfold x; clear x)); (on_goal 2 => clear_value x))
    | (extract_lets +onlyGivenNames x; refine Keeps.cut2 (s := s₀) (x := x.2) ?_ (fun hx => ?_); (on_goal 1 => (unfold x; clear x)); (on_goal 2 => clear_value x))
    | (extract_lets +onlyGivenNames x; (have hv : x = x := by unfold x; exact Eq.refl _); clear hv; clear_value x)
    | with_reducible apply Keeps.ite
    | with_reducible apply Keeps.ite2
    | with_reducible apply State.clearCnt_keeps
    | split

theorem latticeSpecAct_keeps {s₀ : State} {l : Nat} {en : Bool} {s : State} (hk : Keeps s₀ s) :
    Keeps s₀ (latticeSpecAct l en s).2 := by
  unfold latticeSpecAct
  repeat' first
    | with_reducible assumption
    | with_reducible apply Keeps.ite
    | with_reducible apply Keeps.ite2
    | with_reducible apply State.setB_keeps
    | split

theorem latticeTolAct_keeps {s₀ : State} {l tolI tolV tolRel : Nat} {s : State} (hk : Keeps s₀ s) :
    Keeps s₀ (latticeTolAct l tolI tolV tolRel s).2 := by
  unfold latticeTolAct
  repeat' first
    | with_reducible assumption
    | with_reducible apply Keeps.ite
    | with_reducible apply Keeps.ite2
    | with_reducible apply State.setF_keeps
    | split

theorem phasorStatusAct_keeps {s₀ : State} {clear : Bool} {s : State} (hk : Keeps s₀ s) :
    Keeps s₀ (phasorStatusAct clear s).2 := by
  unfold phasorStatusAct
  repeat' first
    | with_reducible assumption
    | (extract_lets +onlyGivenNames x; refine Keeps.cut (s := s₀) (t := x) ?_ (fun hx => ?_); (on_goal 1 => (unfold x; clear x)); (on_goal 2 => clear_value x))
    | (extract_lets +onlyGivenNames x; refine Keeps.cut2 (s := s₀) (x := x) ?_ (fun hx => ?_); (on_goal 1 => (unfold x; clear x)); (on_goal 2 => clear_value x))
    | (extract_lets +onlyGivenNames x; refine Keeps.cut2 (s := s₀) (x := x.2) ?_ (fun hx => ?_); (on_goal 1 => (unfold x; clear x)); (on_goal 2 => clear_value x))
    | (extract_lets +onlyGivenNames x; (have hv : x = x := by unfold x; exact Eq.refl _); clear hv; clear_value x)
    | with_reducible apply State.clearCnt_keeps
    | (intro _; intros; try beta_reduce)

theorem State.setPheEnt_keeps {s₀ : State} {s : State} {t i : Nat} {ws : List Nat} (hk : Keeps s₀ s) :
    Keeps s₀ (State.setPheEnt s t i ws) := by
  unfold State.setPheEnt
  repeat' first
    | with_reducible assumption
    | (dsimp only [Keeps.mk_eq]; with_reducible apply KeepsD.of)

theorem pheWriteAct_keeps {s₀ : State} {t i : Nat} {s : State} (hk : Keeps s₀ s) :
    Keeps s₀ (pheWriteAct t i s).2.2 := by
  unfold pheWriteAct
  repeat' first
    | with_reducible assumption
    | (extract_lets +onlyGivenNames x; refine Keeps.cut (s := s₀) (t := x) ?_ (fun hx => ?_); (on_goal 1 => (unfold x; clear x)); (on_goal 2 => clear_value x))
    | (extract_lets +onlyGivenNames x; refine Keeps.cut2 (s := s₀) (x := x) ?_ (fun hx => ?_); (on_goal 1 => (unfold x; clear x)); (on_goal 2 => clear_value x))
    | (extract_lets +onlyGivenNames x; refine Keeps.cut2 (s := s₀) (x := x.2) ?_ (fun hx => ?_); (on_goal 1 => (unfold x; clear x)); (on_goal 2 => clear_value x))
    | (extract_lets +onlyGivenNames x; (have hv : x = x := by unfold x; exact Eq.refl _); clear hv; clear_value x)
    | with_reducible apply Keeps.ite
    | with_reducible apply Keeps.ite22
    | with_reducible apply State.setPheEnt_keeps
    | split

theorem pheReadAct_keeps {s₀ : State} {t i : Nat} {s : State} (hk : Keeps s₀ s) :
    Keeps s₀ (pheReadAct t i s).2.2 := by
  unfold pheReadAct
  repeat' first
    | with_reducible assumption
    | with_reducible apply Keeps.ite
    | with_reducible apply Keeps.ite22
    | split

theorem State.gcmParamSet_keeps {s₀ : State} {s : State} {g : Nat} {d : List Nat} (hk : Keeps s₀ s) :
    Keeps s₀ (State.gcmParamSet s g d).2 := by
  unfold State.gcmParamSet
  repeat' first
    | with_reducible assumption
    | (extract_lets +onlyGivenNames x; refine Keeps.cut (s := s₀) (t := x) ?_ (fun hx => ?_); (on_goal 1 => (unfold x; clear x)); (on_goal 2 => clear_value x))
    | (extract_lets +onlyGivenNames x; refine Keeps.cut2 (s := s₀) (x := x) ?_ (fun hx => ?_); (on_goal 1 => (unfold x; clear x)); (on_goal 2 => clear_value x))
    | (extract_lets +onlyGivenNames x; refine Keeps.cut2 (s := s₀) (x := x.2) ?_ (fun hx => ?_); (on_goal 1 => (unfold x; clear x)); (on_goal 2 => clear_value x))
    | (extract_lets +onlyGivenNames x; (have hv : x = x := by unfold x; exact Eq.refl _); clear hv; clear_value x)
    | with_reducible apply Keeps.ite
    | with_reducible apply Keeps.ite2
    | with_reducible apply State.gcmFrom_keeps
    | split

theorem State.gcmEnableSet_keeps {s₀ : State} {s : State} {g : Nat} {en : Bool} (hk : Keeps s₀ s) :
    Keeps s₀ (State.gcmEnableSet s g en).2 := by
  unfold State.gcmEnableSet
  repeat' first
    | with_reducible assumption
    | with_reducible apply Keeps.ite
    | with_reducible apply Keeps.ite2
    | with_reducible apply State.gcmFrom_keeps
    | split

theorem gcmWriteAct_keeps {s₀ : State} {g : Nat} {s : State} (hk : Keeps s₀ s) :
    Keeps s₀ (gcmWriteAct g s).2.2 := by
  unfold gcmWriteAct
  repeat' first
    | with_reducible assumption
    | (extract_lets +onlyGivenNames x; refine Keeps.cut (s := s₀) (t := x) ?_ (fun hx => ?_); (on_goal 1 => (unfold x; clear x)); (on_goal 2 => clear_value x))
    | (extract_lets +onlyGivenNames x; refine Keeps.cut2 (s := s₀) (x := x) ?_ (fun hx => ?_); (on_goal 1 => (unfold x; clear x)); (on_goal 2 => clear_value x))
    | (extract_lets +onlyGivenNames x; refine Keeps.cut2 (s := s₀) (x := x.2) ?_ (fun hx => ?_); (on_goal 1 => (unfold x; clear x)); (on_goal 2 => clear_value x))
    | (extract_lets +onlyGivenNames x; (have hv : x = x := by unfold x; exact Eq.refl _); clear hv; clear_value x)
    | with_reducible apply Keeps.ite
    | with_reducible apply Keeps.ite22
    | with_reducible apply State.setGcmEnt_keeps
    | split

theorem gcmParamAct_keeps {s₀ : State} {g : Nat} {s : State} (hk : Keeps s₀ s) :
    Keeps s₀ (gcmParamAct g s).2.2 := by
  unfold gcmParamAct
  repeat' first
    | with_reducible assumption
    | (extract_lets +onlyGivenNames x; refine Keeps.cut (s := s₀) (t := x) ?_ (fun hx => ?_); (on_goal 1 => (unfold x; clear x)); (on_goal 2 => clear_value x))
    | (extract_lets +onlyGivenNames x; refine Keeps.cut2 (s := s₀) (x := x) ?_ (fun hx => ?_); (on_goal 1 => (unfold x; clear x)); (on_goal 2 => clear_value x))
    | (extract_lets +onlyGivenNames x; refine Keeps.cut2 (s := s₀) (x := x.2) ?_ (fun hx => ?_); (on_goal 1 => (unfold x; clear x)); (on_goal 2 => clear_value x))
    | (extract_lets +onlyGivenNames x; (have hv : x = x := by unfold x; exact Eq.refl _); clear hv; clear_value x)
    | with_reducible apply State.gcmParamSet_keeps

theorem gcmReadAct_keeps {s₀ : State} {g : Nat} {s : State} (hk : Keeps s₀ s) :
    Keeps s₀ (gcmReadAct g s).2.2 := by
  unfold gcmReadAct
  repeat' first
    | with_reducible assumption
    | with_reducible apply Keeps.ite
    | with_reducible apply Keeps.ite22
    | split

theorem gcmEnableAct_keeps {s₀ : State} {g : Nat} {s : State} (hk : Keeps s₀ s) :
    Keeps s₀ (gcmEnableAct g s).2.2 := by
  unfold gcmEnableAct
  repeat' first
    | with_reducible assumption
    | (extract_lets +onlyGivenNames x; refine Keeps.cut (s := s₀) (t := x) ?_ (fun hx => ?_); (on_goal 1 => (unfold x; clear x)); (on_goal 2 => clear_value x))
    | (extract_lets +onlyGivenNames x; refine Keeps.cut2 (s := s₀) (x := x) ?_ (fun hx => ?_); (on_goal 1 => (unfold x; clear x)); (on_goal 2 => clear_value x))
    | (extract_lets +onlyGivenNames x; refine Keeps.cut2 (s := s₀) (x := x.2) ?_ (fun hx => ?_); (on_goal 1 => (unfold x; clear x)); (on_goal 2 => clear_value x))
    | (extract_lets +onlyGivenNames x; (have hv : x = x := by unfold x; exact Eq.refl _); clear hv; clear_value x)
    | with_reducible apply State.gcmEnableSet_keeps

theorem gcmStateAct_keeps {s₀ : State} {g : Nat} {s : State} (hk : Keeps s₀ s) :
    Keeps s₀ (gcmStateAct g s).2.2 := by
  unfold gcmStateAct
  repeat' first
    | with_reducible assumption
    | (extract_lets +onlyGivenNames x; refine Keeps.cut (s := s₀) (t := x) ?_ (fun hx => ?_); (on_goal 1 => (unfold x; clear x)); (on_goal 2 => clear_value x))
    | (extract_lets +onlyGivenNames x; refine Keeps.cut2 (s := s₀) (x := x) ?_ (fun hx => ?_); (on_goal 1 => (unfold x; clear x)); (on_goal 2 => clear_value x))
    | (extract_lets +onlyGivenNames x; refine Keeps.cut2 (s := s₀) (x := x.2) ?_ (fun hx => ?_); (on_goal 1 => (unfold x; clear x)); (on_goal 2 => clear_value x))
    | (extract_lets +onlyGivenNames x; (have hv : x = x := by unfold x; exact Eq.refl _); clear hv; clear_value x)
    | with_reducible apply Keeps.ite
    | with_reducible apply Keeps.ite22
    | split

theorem guardSetAct_keeps {s₀ : State} {g : Nat} {d : List Nat} {s : State} (hk : Keeps s₀ s) :
    Keeps s₀ (guardSetAct g d s).2 := by
  unfold guardSetAct
  repeat' first
    | with_reducible assumption
    | (extract_lets +onlyGivenNames x; refine Keeps.cut (s := s₀) (t := x) ?_ (fun hx => ?_); (on_goal 1 => (unfold x; clear x)); (on_goal 2 => clear_value x))
    | (extract_lets +onlyGivenNames x; refine Keeps.cut2 (s := s₀) (x := x) ?_ (fun hx => ?_); (on_goal 1 => (unfold x; clear x)); (on_goal 2 => clear_value x))
    | (extract_lets +onlyGivenNames x; refine Keeps.cut2 (s := s₀) (x := x.2) ?_ (fun hx => ?_); (on_goal 1 => (unfold x; clear x)); (on_goal 2 => clear_value x))
    | (extract_lets +onlyGivenNames x; (have hv : x = x := by unfold x; exact Eq.refl _); clear hv; clear_value x)
    | with_reducible apply Keeps.ite
    | with_reducible apply Keeps.ite2
    | with_reducible apply State.gcmParamSet_keeps
    | split

theorem guardEnableAct_keeps {s₀ : State} {g : Nat} {en : Bool} {s : State} (hk : Keeps s₀ s) :
    Keeps s₀ (guardEnableAct g en s).2 := by
  unfold guardEnableAct
  repeat' first
    | with_reducible assumption
    | (extract_lets +onlyGivenNames x; refine Keeps.cut (s := s₀) (t := x) ?_ (fun hx => ?_); (on_goal 1 => (unfold x; clear x)); (on_goal 2 => clear_value x))
    | (extract_lets +onlyGivenNames x; refine Keeps.cut2 (s := s₀) (x := x) ?_ (fun hx => ?_); (on_goal 1 => (unfold x; clear x)); (on_goal 2 => clear_value x))
    | (extract_lets +onlyGivenNames x; refine Keeps.cut2 (s := s₀) (x := x.2) ?_ (fun hx => ?_); (on_goal 1 => (unfold x; clear x)); (on_goal 2 => clear_value x))
    | (extract_lets +onlyGivenNames x; (have hv : x = x := by unfold x; exact Eq.refl _); clear hv; clear_value x)
    | with_reducible apply Keeps.ite
    | with_reducible apply Keeps.ite2
    | with_reducible apply State.gcmEnableSet_keeps
    | split

theorem guardStatusAct_keeps {s₀ : State} {g : Nat} {s : State} (hk : Keeps s₀ s) :
    Keeps s₀ (guardStatusAct g s).2 := by
  unfold guardStatusAct
  repeat' first
    | with_reducible assumption
    | (dsimp only [Keeps.mk_eq]; with_reducible apply KeepsD.of)
    | (extract_lets +onlyGivenNames x; refine Keeps.cut (s := s₀) (t := x) ?_ (fun hx => ?_); (on_goal 1 => (unfold x; clear x)); (on_goal 2 => clear_value x))
    | (extract_lets +onlyGivenNames x; refine Keeps.cut2 (s := s₀) (x := x) ?_ (fun hx => ?_); (on_goal 1 => (unfold x; clear x)); (on_goal 2 => clear_value x))
    | (extract_lets +onlyGivenNames x; refine Keeps.cut2 (s := s₀) (x := x.2) ?_ (fun hx => ?_); (on_goal 1 => (unfold x; clear x)); (on_goal 2 => clear_value x))
    | (extract_lets +onlyGivenNames x; (have hv : x = x := by unfold x; exact Eq.refl _); clear hv; clear_value x)
    | with_reducible apply Keeps.ite
    | with_reducible apply Keeps.ite2
    | split

theorem execLatticeStatus_keeps {s₀ : State} {q : Req} {clear : Bool} {lat : Nat} {s : State} (hk : Keeps s₀ s) :
    KeepsR s₀ (execLatticeStatus q clear lat s) := by
  exact State.patchaif_keeps hk (fun _ h => latticeStatusAct_keeps h)

theorem execLatticeSpec_keeps {s₀ : State} {q : Req} {lat : Nat} {en : Bool} {s : State} (hk : Keeps s₀ s) :
    KeepsR s₀ (execLatticeSpec q lat en s) := by
  exact State.patchaif_keeps hk (fun _ h => latticeSpecAct_keeps h)

theorem execLatticeTol_keeps {s₀ : State} {q : Req} {lat tolI tolV tolRel : Nat} {s : State} (hk : Keeps s₀ s) :
    KeepsR s₀ (execLatticeTol q lat tolI tolV tolRel s) := by
  exact State.patchaif_keeps hk (fun _ h => latticeTolAct_keeps h)

theorem execPhasorStatus_keeps {s₀ : State} {q : Req} {clear : Bool} {s : State} (hk : Keeps s₀ s) :
    KeepsR s₀ (execPhasorStatus q clear s) := by
  exact State.patchaif_keeps hk (fun _ h => phasorStatusAct_keeps h)

theorem execPheWrite_keeps {s₀ : State} {m : Master} {table index : Nat} {s : State} (hk : Keeps s₀ s) :
    KeepsR s₀ (execPheWrite m table index s) := by
  exact State.cmdRun_keeps hk (fun _ h => pheWriteAct_keeps h)

theorem execPheRead_keeps {s₀ : State} {m : Master} {table index : Nat} {s : State} (hk : Keeps s₀ s) :
    KeepsR s₀ (execPheRead m table index s) := by
  exact State.cmdRun_keeps hk (fun _ h => pheReadAct_keeps h)

theorem execGcmWrite_keeps {s₀ : State} {m : Master} {index : Nat} {s : State} (hk : Keeps s₀ s) :
    KeepsR s₀ (execGcmWrite m index s) := by
  exact State.cmdRun_keeps hk (fun _ h => gcmWriteAct_keeps h)

theorem execGcmParam_keeps {s₀ : State} {m : Master} {index : Nat} {s : State} (hk : Keeps s₀ s) :
    KeepsR s₀ (execGcmParam m index s) := by
  exact State.cmdRun_keeps hk (fun _ h => gcmParamAct_keeps h)

theorem execGcmRead_keeps {s₀ : State} {m : Master} {index : Nat} {s : State} (hk : Keeps s₀ s) :
    KeepsR s₀ (execGcmRead m index s) := by
  exact State.cmdRun_keeps hk (fun _ h => gcmReadAct_keeps h)

theorem execGcmEnable_keeps {s₀ : State} {m : Master} {index : Nat} {s : State} (hk : Keeps s₀ s) :
    KeepsR s₀ (execGcmEnable m index s) := by
  exact State.cmdRun_keeps hk (fun _ h => gcmEnableAct_keeps h)

theorem execGcmState_keeps {s₀ : State} {m : Master} {index : Nat} {s : State} (hk : Keeps s₀ s) :
    KeepsR s₀ (execGcmState m index s) := by
  exact State.cmdRun_keeps hk (fun _ h => gcmStateAct_keeps h)

theorem execGuardSet_keeps {s₀ : State} {q : Req} {g : Nat} {words : List Nat} {s : State} (hk : Keeps s₀ s) :
    KeepsR s₀ (execGuardSet q g words s) := by
  exact State.patchaif_keeps hk (fun _ h => guardSetAct_keeps h)

theorem execGuardEnable_keeps {s₀ : State} {q : Req} {g : Nat} {en : Bool} {s : State} (hk : Keeps s₀ s) :
    KeepsR s₀ (execGuardEnable q g en s) := by
  exact State.patchaif_keeps hk (fun _ h => guardEnableAct_keeps h)

theorem execGuardStatus_keeps {s₀ : State} {q : Req} {g : Nat} {s : State} (hk : Keeps s₀ s) :
    KeepsR s₀ (execGuardStatus q g s) := by
  exact State.patchaif_keeps hk (fun _ h => guardStatusAct_keeps h)

/-! ### Programs -/

/-! ### LogicCmds -/

theorem State.showSlp_keeps {s₀ : State} {s : State} (hk : Keeps s₀ s) :
    Keeps s₀ (State.showSlp s) := by
  unfold State.showSlp
  repeat' first
    | with_reducible assumption
    | (extract_lets +onlyGivenNames x; refine Keeps.cut (s := s₀) (t := x) ?_ (fun hx => ?_); (on_goal 1 => (unfold x; clear x)); (on_goal 2 => clear_value x))
    | (extract_lets +onlyGivenNames x; refine Keeps.cut2 (s := s₀) (x := x) ?_ (fun hx => ?_); (on_goal 1 => (unfold x; clear x)); (on_goal 2 => clear_value x))
    | (extract_lets +onlyGivenNames x; refine Keeps.cut2 (s := s₀) (x := x.2) ?_ (fun hx => ?_); (on_goal 1 => (unfold x; clear x)); (on_goal 2 => clear_value x))
    | (extract_lets +onlyGivenNames x; (have hv : x = x := by unfold x; exact Eq.refl _); clear hv; clear_value x)
    | with_reducible apply State.stage_keeps
    | with_reducible apply State.setF_keeps
    | (intro _; intros; try beta_reduce)

theorem State.setForce_keeps {s₀ : State} {s : State} {sp ix v : Nat} (hk : Keeps s₀ s) :
    Keeps s₀ (State.setForce s sp ix v) := by
  unfold State.setForce
  repeat' first
    | with_reducible assumption
    | (dsimp only [Keeps.mk_eq]; with_reducible apply KeepsD.of)
    | (extract_lets +onlyGivenNames x; refine Keeps.cut (s := s₀) (t := x) ?_ (fun hx => ?_); (on_goal 1 => (unfold x; clear x)); (on_goal 2 => clear_value x))
    | (extract_lets +onlyGivenNames x; refine Keeps.cut2 (s := s₀) (x := x) ?_ (fun hx => ?_); (on_goal 1 => (unfold x; clear x)); (on_goal 2 => clear_value x))
    | (extract_lets +onlyGivenNames x; refine Keeps.cut2 (s := s₀) (x := x.2) ?_ (fun hx => ?_); (on_goal 1 => (unfold x; clear x)); (on_goal 2 => clear_value x))
    | (extract_lets +onlyGivenNames x; (have hv : x = x := by unfold x; exact Eq.refl _); clear hv; clear_value x)
    | with_reducible apply Keeps.ite
    | with_reducible apply State.bump_keeps
    | with_reducible apply State.pubForced_keeps
    | with_reducible apply State.belfry_keeps
    | with_reducible apply State.pubFlush_keeps
    | split

theorem State.unforceAll_keeps {s₀ : State} {s : State} (hk : Keeps s₀ s) :
    Keeps s₀ (State.unforceAll s) := by
  unfold State.unforceAll
  repeat' first
    | with_reducible assumption
    | with_reducible apply State.setForce_keeps
    | with_reducible apply Keeps.foldl
    | with_reducible apply Keeps.foldl2
    | (intro _; intros; try beta_reduce)

theorem State.forcePut_keeps {s₀ : State} {s : State} {i : Nat} {d : List Nat} (hk : Keeps s₀ s) :
    Keeps s₀ (State.forcePut s i d) := by
  unfold State.forcePut
  repeat' first
    | with_reducible assumption
    | (dsimp only [Keeps.mk_eq]; with_reducible apply KeepsD.of)
    | (extract_lets +onlyGivenNames x; refine Keeps.cut (s := s₀) (t := x) ?_ (fun hx => ?_); (on_goal 1 => (unfold x; clear x)); (on_goal 2 => clear_value x))
    | (extract_lets +onlyGivenNames x; refine Keeps.cut2 (s := s₀) (x := x) ?_ (fun hx => ?_); (on_goal 1 => (unfold x; clear x)); (on_goal 2 => clear_value x))
    | (extract_lets +onlyGivenNames x; refine Keeps.cut2 (s := s₀) (x := x.2) ?_ (fun hx => ?_); (on_goal 1 => (unfold x; clear x)); (on_goal 2 => clear_value x))
    | (extract_lets +onlyGivenNames x; (have hv : x = x := by unfold x; exact Eq.refl _); clear hv; clear_value x)
    | with_reducible apply Keeps.ite
    | with_reducible apply State.setForce_keeps
    | split

theorem State.slpPut_keeps {s₀ : State} {s : State} {t i : Nat} {d : List Nat} (hk : Keeps s₀ s) :
    Keeps s₀ (State.slpPut s t i d) := by
  unfold State.slpPut
  repeat' first
    | with_reducible assumption
    | (dsimp only [Keeps.mk_eq]; with_reducible apply KeepsD.of)
    | with_reducible apply State.setSlpEnt_keeps
    | with_reducible apply State.setPrm_keeps
    | with_reducible apply State.forcePut_keeps
    | split
    | (intro _; intros; try beta_reduce)

theorem slpWriteAct_keeps {s₀ : State} {t i : Nat} {s : State} (hk : Keeps s₀ s) :
    Keeps s₀ (slpWriteAct t i s).2.2 := by
  unfold slpWriteAct
  repeat' first
    | with_reducible assumption
    | with_reducible apply Keeps.ite
    | with_reducible apply Keeps.ite22
    | with_reducible apply State.slpPut_keeps
    | split

theorem slpReadAct_keeps {s₀ : State} {t i : Nat} {s : State} (hk : Keeps s₀ s) :
    Keeps s₀ (slpReadAct t i s).2.2 := by
  unfold slpReadAct
  repeat' first
    | with_reducible assumption
    | with_reducible apply Keeps.ite
    | with_reducible apply Keeps.ite22
    | split

theorem slpStateAct_keeps {s₀ : State} {t i : Nat} {s : State} (hk : Keeps s₀ s) :
    Keeps s₀ (slpStateAct t i s).2.2 := by
  unfold slpStateAct
  repeat' first
    | with_reducible assumption
    | with_reducible apply Keeps.ite
    | with_reducible apply Keeps.ite22
    | split

theorem slpOpndAct_keeps {s₀ : State} {t i : Nat} {s : State} (hk : Keeps s₀ s) :
    Keeps s₀ (slpOpndAct t i s).2.2 := by
  unfold slpOpndAct
  repeat' first
    | with_reducible assumption
    | with_reducible apply Keeps.ite
    | with_reducible apply Keeps.ite22
    | split

theorem logicStatusAct_keeps {s₀ : State} {clear : Bool} {k : Nat} {s : State} (hk : Keeps s₀ s) :
    Keeps s₀ (logicStatusAct clear k s).2 := by
  unfold logicStatusAct
  repeat' first
    | with_reducible assumption
    | (extract_lets +onlyGivenNames x; refine Keeps.cut (s := s₀) (t := x) ?_ (fun hx => ?_); (on_goal 1 => (unfold x; clear x)); (on_goal 2 => clear_value x))
    | (extract_lets +onlyGivenNames x; refine Keeps.cut2 (s := s₀) (x := x) ?_ (fun hx => ?_); (on_goal 1 => (unfold x; clear x)); (on_goal 2 => clear_value x))
    | (extract_lets +onlyGivenNames x; refine Keeps.cut2 (s := s₀) (x := x.2) ?_ (fun hx => ?_); (on_goal 1 => (unfold x; clear x)); (on_goal 2 => clear_value x))
    | (extract_lets +onlyGivenNames x; (have hv : x = x := by unfold x; exact Eq.refl _); clear hv; clear_value x)
    | with_reducible apply Keeps.ite
    | with_reducible apply Keeps.ite2
    | with_reducible apply State.showSlp_keeps
    | with_reducible apply State.clearCnt_keeps
    | with_reducible apply Keeps.foldl
    | with_reducible apply Keeps.foldl2
    | split
    | (intro _; intros; try beta_reduce)

theorem logicReadAct_keeps {s₀ : State} {ops : List (Nat × Nat)} {s : State} (hk : Keeps s₀ s) :
    Keeps s₀ (logicReadAct ops s).2 := by
  unfold logicReadAct
  repeat' first
    | with_reducible assumption
    | (dsimp only [Keeps.mk_eq]; with_reducible apply KeepsD.of)
    | with_reducible apply Keeps.ite
    | with_reducible apply Keeps.ite2
    | split
    | (intro _; intros; try beta_reduce)

theorem logicModeAct_keeps {s₀ : State} {k mode : Nat} {s : State} (hk : Keeps s₀ s) :
    Keeps s₀ (logicModeAct k mode s).2 := by
  unfold logicModeAct
  repeat' first
    | with_reducible assumption
    | with_reducible apply Keeps.ite
    | with_reducible apply Keeps.ite2
    | with_reducible apply State.modeReq_keeps
    | split

theorem logicParamAct_keeps {s₀ : State} {k : Nat} {counters : Bool} {vals : List (Nat × Nat)} {s : State} (hk : Keeps s₀ s) :
    Keeps s₀ (logicParamAct k counters vals s).2 := by
  unfold logicParamAct
  repeat' first
    | with_reducible assumption
    | (dsimp only [Keeps.mk_eq]; with_reducible apply KeepsD.of)
    | (extract_lets +onlyGivenNames x; refine Keeps.cut (s := s₀) (t := x) ?_ (fun hx => ?_); (on_goal 1 => (unfold x; clear x)); (on_goal 2 => clear_value x))
    | (extract_lets +onlyGivenNames x; refine Keeps.cut2 (s := s₀) (x := x) ?_ (fun hx => ?_); (on_goal 1 => (unfold x; clear x)); (on_goal 2 => clear_value x))
    | (extract_lets +onlyGivenNames x; refine Keeps.cut2 (s := s₀) (x := x.2) ?_ (fun hx => ?_); (on_goal 1 => (unfold x; clear x)); (on_goal 2 => clear_value x))
    | (extract_lets +onlyGivenNames x; (have hv : x = x := by unfold x; exact Eq.refl _); clear hv; clear_value x)
    | with_reducible apply Keeps.ite
    | with_reducible apply Keeps.ite2
    | with_reducible apply State.setPrm_keeps
    | with_reducible apply Keeps.foldl
    | with_reducible apply Keeps.foldl2
    | split
    | (intro _; intros; try beta_reduce)

theorem logicForceAct_keeps {s₀ : State} {sp ix : Nat} {v : Bool} {s : State} (hk : Keeps s₀ s) :
    Keeps s₀ (logicForceAct sp ix v s).2 := by
  unfold logicForceAct
  repeat' first
    | with_reducible assumption
    | with_reducible apply Keeps.ite
    | with_reducible apply Keeps.ite2
    | with_reducible apply State.setForce_keeps
    | split

theorem logicUnforceAct_keeps {s₀ : State} {sp ix : Nat} {s : State} (hk : Keeps s₀ s) :
    Keeps s₀ (logicUnforceAct sp ix s).2 := by
  unfold logicUnforceAct
  repeat' first
    | with_reducible assumption
    | with_reducible apply Keeps.ite
    | with_reducible apply Keeps.ite2
    | with_reducible apply State.setForce_keeps
    | split

theorem State.setStaged_keeps {s₀ : State} {s : State} {p : Option StagedProg} (hk : Keeps s₀ s) :
    Keeps s₀ (State.setStaged s p) := by
  unfold State.setStaged
  repeat' first
    | with_reducible assumption
    | (dsimp only [Keeps.mk_eq]; with_reducible apply KeepsD.of)

theorem logicLoadAct_keeps {s₀ : State} {q : Req} {k : Nat} {buf : BufRef} {p : ProgramImage} {s : State} (hk : Keeps s₀ s) :
    Keeps s₀ (logicLoadAct q k buf p s).2 := by
  unfold logicLoadAct
  repeat' first
    | with_reducible assumption
    | with_reducible apply Keeps.ite
    | with_reducible apply Keeps.ite2
    | with_reducible apply State.setStaged_keeps
    | split

theorem State.placeWords_keeps {s₀ : State} {s : State} {b : Nat} {ws : List Nat} (hk : Keeps s₀ s) :
    Keeps s₀ (State.placeWords s b ws) := by
  unfold State.placeWords
  repeat' first
    | with_reducible assumption
    | with_reducible apply State.slpPut_keeps
    | with_reducible apply Keeps.foldl
    | with_reducible apply Keeps.foldl2
    | (intro _; intros; try beta_reduce)

theorem State.pointSlot_keeps {s₀ : State} {s : State} {k b n : Nat} (hk : Keeps s₀ s) :
    Keeps s₀ (State.pointSlot s k b n) := by
  unfold State.pointSlot
  repeat' first
    | with_reducible assumption
    | (extract_lets +onlyGivenNames x; refine Keeps.cut (s := s₀) (t := x) ?_ (fun hx => ?_); (on_goal 1 => (unfold x; clear x)); (on_goal 2 => clear_value x))
    | (extract_lets +onlyGivenNames x; refine Keeps.cut2 (s := s₀) (x := x) ?_ (fun hx => ?_); (on_goal 1 => (unfold x; clear x)); (on_goal 2 => clear_value x))
    | (extract_lets +onlyGivenNames x; refine Keeps.cut2 (s := s₀) (x := x.2) ?_ (fun hx => ?_); (on_goal 1 => (unfold x; clear x)); (on_goal 2 => clear_value x))
    | (extract_lets +onlyGivenNames x; (have hv : x = x := by unfold x; exact Eq.refl _); clear hv; clear_value x)
    | with_reducible apply State.setSlpEnt_keeps

theorem State.loadEnd_keeps {s₀ : State} {s : State} (hk : Keeps s₀ s) :
    Keeps s₀ (State.loadEnd s).2 := by
  unfold State.loadEnd
  repeat' first
    | with_reducible assumption
    | (dsimp only [Keeps.mk_eq]; with_reducible apply KeepsD.of)
    | (extract_lets +onlyGivenNames x; refine Keeps.cut (s := s₀) (t := x) ?_ (fun hx => ?_); (on_goal 1 => (unfold x; clear x)); (on_goal 2 => clear_value x))
    | (extract_lets +onlyGivenNames x; refine Keeps.cut2 (s := s₀) (x := x) ?_ (fun hx => ?_); (on_goal 1 => (unfold x; clear x)); (on_goal 2 => clear_value x))
    | (extract_lets +onlyGivenNames x; refine Keeps.cut2 (s := s₀) (x := x.2) ?_ (fun hx => ?_); (on_goal 1 => (unfold x; clear x)); (on_goal 2 => clear_value x))
    | (extract_lets +onlyGivenNames x; (have hv : x = x := by unfold x; exact Eq.refl _); clear hv; clear_value x)
    | with_reducible apply Keeps.ite
    | with_reducible apply Keeps.ite2
    | with_reducible apply State.setStaged_keeps
    | with_reducible apply State.placeWords_keeps
    | with_reducible apply State.pointSlot_keeps
    | split

theorem logicSwapAct_keeps {s₀ : State} {k : Nat} {s : State} (hk : Keeps s₀ s) :
    Keeps s₀ (logicSwapAct k s).2 := by
  unfold logicSwapAct
  repeat' first
    | with_reducible assumption
    | (dsimp only [Keeps.mk_eq]; with_reducible apply KeepsD.of)
    | (extract_lets +onlyGivenNames x; refine Keeps.cut (s := s₀) (t := x) ?_ (fun hx => ?_); (on_goal 1 => (unfold x; clear x)); (on_goal 2 => clear_value x))
    | (extract_lets +onlyGivenNames x; refine Keeps.cut2 (s := s₀) (x := x) ?_ (fun hx => ?_); (on_goal 1 => (unfold x; clear x)); (on_goal 2 => clear_value x))
    | (extract_lets +onlyGivenNames x; refine Keeps.cut2 (s := s₀) (x := x.2) ?_ (fun hx => ?_); (on_goal 1 => (unfold x; clear x)); (on_goal 2 => clear_value x))
    | (extract_lets +onlyGivenNames x; (have hv : x = x := by unfold x; exact Eq.refl _); clear hv; clear_value x)
    | with_reducible apply Keeps.ite
    | with_reducible apply Keeps.ite2
    | with_reducible apply State.stage_keeps
    | with_reducible apply State.setPrm_keeps
    | with_reducible apply State.setStaged_keeps
    | with_reducible apply Keeps.foldl
    | with_reducible apply Keeps.foldl2
    | split
    | (intro _; intros; try beta_reduce)

theorem logicAbortAct_keeps {s₀ : State} {s : State} (hk : Keeps s₀ s) :
    Keeps s₀ (logicAbortAct s).2 := by
  unfold logicAbortAct
  repeat' first
    | with_reducible assumption
    | (dsimp only [Keeps.mk_eq]; with_reducible apply KeepsD.of)
    | with_reducible apply Keeps.ite
    | with_reducible apply Keeps.ite2
    | with_reducible apply State.stage_keeps
    | with_reducible apply State.setSlpEnt_keeps
    | with_reducible apply State.setStaged_keeps
    | with_reducible apply Keeps.foldl
    | with_reducible apply Keeps.foldl2
    | split
    | (intro _; intros; try beta_reduce)

theorem execSlpWrite_keeps {s₀ : State} {m : Master} {table index : Nat} {s : State} (hk : Keeps s₀ s) :
    KeepsR s₀ (execSlpWrite m table index s) := by
  exact State.cmdRun_keeps hk (fun _ h => slpWriteAct_keeps h)

theorem execSlpRead_keeps {s₀ : State} {m : Master} {table index : Nat} {s : State} (hk : Keeps s₀ s) :
    KeepsR s₀ (execSlpRead m table index s) := by
  exact State.cmdRun_keeps hk (fun _ h => slpReadAct_keeps h)

theorem execSlpState_keeps {s₀ : State} {m : Master} {table index : Nat} {s : State} (hk : Keeps s₀ s) :
    KeepsR s₀ (execSlpState m table index s) := by
  exact State.cmdRun_keeps hk (fun _ h => slpStateAct_keeps h)

theorem execSlpOpnd_keeps {s₀ : State} {m : Master} {table index : Nat} {s : State} (hk : Keeps s₀ s) :
    KeepsR s₀ (execSlpOpnd m table index s) := by
  exact State.cmdRun_keeps hk (fun _ h => slpOpndAct_keeps h)

theorem execLogicStatus_keeps {s₀ : State} {q : Req} {clear : Bool} {slot : Nat} {s : State} (hk : Keeps s₀ s) :
    KeepsR s₀ (execLogicStatus q clear slot s) := by
  exact State.patchaif_keeps hk (fun _ h => logicStatusAct_keeps h)

theorem execLogicRead_keeps {s₀ : State} {q : Req} {ops : List (Nat × Nat)} {s : State} (hk : Keeps s₀ s) :
    KeepsR s₀ (execLogicRead q ops s) := by
  exact State.patchaif_keeps hk (fun _ h => logicReadAct_keeps h)

theorem execLogicMode_keeps {s₀ : State} {q : Req} {slot mode : Nat} {s : State} (hk : Keeps s₀ s) :
    KeepsR s₀ (execLogicMode q slot mode s) := by
  exact State.patchaif_keeps hk (fun _ h => logicModeAct_keeps h)

theorem execLogicParam_keeps {s₀ : State} {q : Req} {slot : Nat} {counters : Bool} {vals : List (Nat × Nat)} {s : State} (hk : Keeps s₀ s) :
    KeepsR s₀ (execLogicParam q slot counters vals s) := by
  exact State.patchaif_keeps hk (fun _ h => logicParamAct_keeps h)

theorem execLogicForce_keeps {s₀ : State} {q : Req} {space index : Nat} {value : Bool} {s : State} (hk : Keeps s₀ s) :
    KeepsR s₀ (execLogicForce q space index value s) := by
  exact State.patchaif_keeps hk (fun _ h => logicForceAct_keeps h)

theorem execLogicUnforce_keeps {s₀ : State} {q : Req} {space index : Nat} {s : State} (hk : Keeps s₀ s) :
    KeepsR s₀ (execLogicUnforce q space index s) := by
  exact State.patchaif_keeps hk (fun _ h => logicUnforceAct_keeps h)

theorem execLogicLoad_keeps {s₀ : State} {q : Req} {slot : Nat} {buf : BufRef} {p : ProgramImage} {s : State} (hk : Keeps s₀ s) :
    KeepsR s₀ (execLogicLoad q slot buf p s) := by
  exact State.patchaif_keeps hk (fun _ h => logicLoadAct_keeps h)

theorem execLogicSwap_keeps {s₀ : State} {q : Req} {slot : Nat} {s : State} (hk : Keeps s₀ s) :
    KeepsR s₀ (execLogicSwap q slot s) := by
  exact State.patchaif_keeps hk (fun _ h => logicSwapAct_keeps h)

theorem execLogicAbort_keeps {s₀ : State} {q : Req} {s : State} (hk : Keeps s₀ s) :
    KeepsR s₀ (execLogicAbort q s) := by
  exact State.patchaif_keeps hk (fun _ h => logicAbortAct_keeps h)

/-! ### PubCmds -/

theorem State.showPub_keeps {s₀ : State} {s : State} (hk : Keeps s₀ s) :
    Keeps s₀ (State.showPub s) := by
  unfold State.showPub
  repeat' first
    | with_reducible assumption
    | with_reducible apply State.setF_keeps
    | with_reducible apply State.setB_keeps

theorem pubWriteAct_keeps {s₀ : State} {i : Nat} {s : State} (hk : Keeps s₀ s) :
    Keeps s₀ (pubWriteAct i s).2.2 := by
  unfold pubWriteAct
  repeat' first
    | with_reducible assumption
    | (extract_lets +onlyGivenNames x; refine Keeps.cut (s := s₀) (t := x) ?_ (fun hx => ?_); (on_goal 1 => (unfold x; clear x)); (on_goal 2 => clear_value x))
    | (extract_lets +onlyGivenNames x; refine Keeps.cut2 (s := s₀) (x := x) ?_ (fun hx => ?_); (on_goal 1 => (unfold x; clear x)); (on_goal 2 => clear_value x))
    | (extract_lets +onlyGivenNames x; refine Keeps.cut2 (s := s₀) (x := x.2) ?_ (fun hx => ?_); (on_goal 1 => (unfold x; clear x)); (on_goal 2 => clear_value x))
    | (extract_lets +onlyGivenNames x; (have hv : x = x := by unfold x; exact Eq.refl _); clear hv; clear_value x)
    | with_reducible apply Keeps.ite
    | with_reducible apply Keeps.ite22
    | with_reducible apply State.setPubEnt_keeps
    | split

theorem pubReadAct_keeps {s₀ : State} {i : Nat} {s : State} (hk : Keeps s₀ s) :
    Keeps s₀ (pubReadAct i s).2.2 := by
  unfold pubReadAct
  repeat' first
    | with_reducible assumption
    | with_reducible apply Keeps.ite
    | with_reducible apply Keeps.ite22
    | split

theorem pubMembWriteAct_keeps {s₀ : State} {i : Nat} {s : State} (hk : Keeps s₀ s) :
    Keeps s₀ (pubMembWriteAct i s).2.2 := by
  unfold pubMembWriteAct
  repeat' first
    | with_reducible assumption
    | (dsimp only [Keeps.mk_eq]; with_reducible apply KeepsD.of)
    | (extract_lets +onlyGivenNames x; refine Keeps.cut (s := s₀) (t := x) ?_ (fun hx => ?_); (on_goal 1 => (unfold x; clear x)); (on_goal 2 => clear_value x))
    | (extract_lets +onlyGivenNames x; refine Keeps.cut2 (s := s₀) (x := x) ?_ (fun hx => ?_); (on_goal 1 => (unfold x; clear x)); (on_goal 2 => clear_value x))
    | (extract_lets +onlyGivenNames x; refine Keeps.cut2 (s := s₀) (x := x.2) ?_ (fun hx => ?_); (on_goal 1 => (unfold x; clear x)); (on_goal 2 => clear_value x))
    | (extract_lets +onlyGivenNames x; (have hv : x = x := by unfold x; exact Eq.refl _); clear hv; clear_value x)
    | with_reducible apply Keeps.ite
    | with_reducible apply Keeps.ite22
    | split

theorem pubMembReadAct_keeps {s₀ : State} {i : Nat} {s : State} (hk : Keeps s₀ s) :
    Keeps s₀ (pubMembReadAct i s).2.2 := by
  unfold pubMembReadAct
  repeat' first
    | with_reducible assumption
    | with_reducible apply Keeps.ite
    | with_reducible apply Keeps.ite22
    | split

theorem State.pubModeSet_keeps {s₀ : State} {s : State} {p sim test : Nat} (hk : Keeps s₀ s) :
    Keeps s₀ (State.pubModeSet s p sim test) := by
  unfold State.pubModeSet
  repeat' first
    | with_reducible assumption
    | (extract_lets +onlyGivenNames x; refine Keeps.cut (s := s₀) (t := x) ?_ (fun hx => ?_); (on_goal 1 => (unfold x; clear x)); (on_goal 2 => clear_value x))
    | (extract_lets +onlyGivenNames x; refine Keeps.cut2 (s := s₀) (x := x) ?_ (fun hx => ?_); (on_goal 1 => (unfold x; clear x)); (on_goal 2 => clear_value x))
    | (extract_lets +onlyGivenNames x; refine Keeps.cut2 (s := s₀) (x := x.2) ?_ (fun hx => ?_); (on_goal 1 => (unfold x; clear x)); (on_goal 2 => clear_value x))
    | (extract_lets +onlyGivenNames x; (have hv : x = x := by unfold x; exact Eq.refl _); clear hv; clear_value x)
    | with_reducible apply State.setPubEnt_keeps
    | with_reducible apply State.pubModeNow_keeps

theorem pubEnableAct_keeps {s₀ : State} {i : Nat} {s : State} (hk : Keeps s₀ s) :
    Keeps s₀ (pubEnableAct i s).2.2 := by
  unfold pubEnableAct
  repeat' first
    | with_reducible assumption
    | with_reducible apply Keeps.ite
    | with_reducible apply Keeps.ite22
    | with_reducible apply State.pubEnableSet_keeps
    | with_reducible apply State.pubFlush_keeps
    | split

theorem pubModeAct_keeps {s₀ : State} {i : Nat} {s : State} (hk : Keeps s₀ s) :
    Keeps s₀ (pubModeAct i s).2.2 := by
  unfold pubModeAct
  repeat' first
    | with_reducible assumption
    | with_reducible apply Keeps.ite
    | with_reducible apply Keeps.ite22
    | with_reducible apply State.pubModeSet_keeps
    | split

theorem pubStatAct_keeps {s₀ : State} {i : Nat} {s : State} (hk : Keeps s₀ s) :
    Keeps s₀ (pubStatAct i s).2.2 := by
  unfold pubStatAct
  repeat' first
    | with_reducible assumption
    | (extract_lets +onlyGivenNames x; refine Keeps.cut (s := s₀) (t := x) ?_ (fun hx => ?_); (on_goal 1 => (unfold x; clear x)); (on_goal 2 => clear_value x))
    | (extract_lets +onlyGivenNames x; refine Keeps.cut2 (s := s₀) (x := x) ?_ (fun hx => ?_); (on_goal 1 => (unfold x; clear x)); (on_goal 2 => clear_value x))
    | (extract_lets +onlyGivenNames x; refine Keeps.cut2 (s := s₀) (x := x.2) ?_ (fun hx => ?_); (on_goal 1 => (unfold x; clear x)); (on_goal 2 => clear_value x))
    | (extract_lets +onlyGivenNames x; (have hv : x = x := by unfold x; exact Eq.refl _); clear hv; clear_value x)
    | with_reducible apply Keeps.ite
    | with_reducible apply Keeps.ite22
    | with_reducible apply State.setF_keeps
    | with_reducible apply Keeps.forN
    | split
    | (intro _; intros; try beta_reduce)

theorem pubStatusAct_keeps {s₀ : State} {clear : Bool} {p : Nat} {s : State} (hk : Keeps s₀ s) :
    Keeps s₀ (pubStatusAct clear p s).2 := by
  unfold pubStatusAct
  repeat' first
    | with_reducible assumption
    | (extract_lets +onlyGivenNames x; refine Keeps.cut (s := s₀) (t := x) ?_ (fun hx => ?_); (on_goal 1 => (unfold x; clear x)); (on_goal 2 => clear_value x))
    | (extract_lets +onlyGivenNames x; refine Keeps.cut2 (s := s₀) (x := x) ?_ (fun hx => ?_); (on_goal 1 => (unfold x; clear x)); (on_goal 2 => clear_value x))
    | (extract_lets +onlyGivenNames x; refine Keeps.cut2 (s := s₀) (x := x.2) ?_ (fun hx => ?_); (on_goal 1 => (unfold x; clear x)); (on_goal 2 => clear_value x))
    | (extract_lets +onlyGivenNames x; (have hv : x = x := by unfold x; exact Eq.refl _); clear hv; clear_value x)
    | with_reducible apply Keeps.ite
    | with_reducible apply Keeps.ite2
    | with_reducible apply State.clearCnt_keeps
    | split
    | (intro _; intros; try beta_reduce)

theorem pubEnableCmd_keeps {s₀ : State} {p : Nat} {en : Bool} {s : State} (hk : Keeps s₀ s) :
    Keeps s₀ (pubEnableCmd p en s).2 := by
  unfold pubEnableCmd
  repeat' first
    | with_reducible assumption
    | with_reducible apply Keeps.ite
    | with_reducible apply Keeps.ite2
    | with_reducible apply State.pubEnableSet_keeps
    | with_reducible apply State.pubFlush_keeps
    | split

theorem pubModeCmd_keeps {s₀ : State} {p : Nat} {sim test : Bool} {s : State} (hk : Keeps s₀ s) :
    Keeps s₀ (pubModeCmd p sim test s).2 := by
  unfold pubModeCmd
  repeat' first
    | with_reducible assumption
    | with_reducible apply Keeps.ite
    | with_reducible apply Keeps.ite2
    | with_reducible apply State.pubModeSet_keeps
    | split

theorem execPubWrite_keeps {s₀ : State} {m : Master} {index : Nat} {s : State} (hk : Keeps s₀ s) :
    KeepsR s₀ (execPubWrite m index s) := by
  exact State.cmdRun_keeps hk (fun _ h => pubWriteAct_keeps h)

theorem execPubRead_keeps {s₀ : State} {m : Master} {index : Nat} {s : State} (hk : Keeps s₀ s) :
    KeepsR s₀ (execPubRead m index s) := by
  exact State.cmdRun_keeps hk (fun _ h => pubReadAct_keeps h)

theorem execPubMembWrite_keeps {s₀ : State} {m : Master} {index : Nat} {s : State} (hk : Keeps s₀ s) :
    KeepsR s₀ (execPubMembWrite m index s) := by
  exact State.cmdRun_keeps hk (fun _ h => pubMembWriteAct_keeps h)

theorem execPubMembRead_keeps {s₀ : State} {m : Master} {index : Nat} {s : State} (hk : Keeps s₀ s) :
    KeepsR s₀ (execPubMembRead m index s) := by
  exact State.cmdRun_keeps hk (fun _ h => pubMembReadAct_keeps h)

theorem execPubCmdEnable_keeps {s₀ : State} {m : Master} {index : Nat} {s : State} (hk : Keeps s₀ s) :
    KeepsR s₀ (execPubCmdEnable m index s) := by
  exact State.cmdRun_keeps hk (fun _ h => pubEnableAct_keeps h)

theorem execPubCmdMode_keeps {s₀ : State} {m : Master} {index : Nat} {s : State} (hk : Keeps s₀ s) :
    KeepsR s₀ (execPubCmdMode m index s) := by
  exact State.cmdRun_keeps hk (fun _ h => pubModeAct_keeps h)

theorem execPubStat_keeps {s₀ : State} {m : Master} {index : Nat} {s : State} (hk : Keeps s₀ s) :
    KeepsR s₀ (execPubStat m index s) := by
  exact State.cmdRun_keeps hk (fun _ h => pubStatAct_keeps h)

theorem execPubStatus_keeps {s₀ : State} {q : Req} {clear : Bool} {pub : Nat} {s : State} (hk : Keeps s₀ s) :
    KeepsR s₀ (execPubStatus q clear pub s) := by
  exact State.patchaif_keeps hk (fun _ h => pubStatusAct_keeps h)

theorem execPubEnable_keeps {s₀ : State} {q : Req} {pub : Nat} {en : Bool} {s : State} (hk : Keeps s₀ s) :
    KeepsR s₀ (execPubEnable q pub en s) := by
  exact State.patchaif_keeps hk (fun _ h => pubEnableCmd_keeps h)

theorem execPubMode_keeps {s₀ : State} {q : Req} {pub : Nat} {sim test : Bool} {s : State} (hk : Keeps s₀ s) :
    KeepsR s₀ (execPubMode q pub sim test s) := by
  exact State.patchaif_keeps hk (fun _ h => pubModeCmd_keeps h)

/-! ### RecExport -/

theorem State.exportEnd_keeps {s₀ : State} {s : State} (hk : Keeps s₀ s) :
    Keeps s₀ (State.exportEnd s).2 := by
  unfold State.exportEnd
  repeat' first
    | with_reducible assumption
    | (dsimp only [Keeps.mk_eq]; with_reducible apply KeepsD.of)
    | (extract_lets +onlyGivenNames x; refine Keeps.cut (s := s₀) (t := x) ?_ (fun hx => ?_); (on_goal 1 => (unfold x; clear x)); (on_goal 2 => clear_value x))
    | (extract_lets +onlyGivenNames x; refine Keeps.cut2 (s := s₀) (x := x) ?_ (fun hx => ?_); (on_goal 1 => (unfold x; clear x)); (on_goal 2 => clear_value x))
    | (extract_lets +onlyGivenNames x; refine Keeps.cut2 (s := s₀) (x := x.2) ?_ (fun hx => ?_); (on_goal 1 => (unfold x; clear x)); (on_goal 2 => clear_value x))
    | (extract_lets +onlyGivenNames x; (have hv : x = x := by unfold x; exact Eq.refl _); clear hv; clear_value x)
    | with_reducible apply Keeps.ite
    | with_reducible apply Keeps.ite2
    | with_reducible apply State.bufWrite_keeps
    | split
    | (intro _; intros; try beta_reduce)

/-! ### RecCmds -/

theorem State.showDre_keeps {s₀ : State} {s : State} (hk : Keeps s₀ s) :
    Keeps s₀ (State.showDre s) := by
  unfold State.showDre
  repeat' first
    | with_reducible assumption
    | (dsimp only [Keeps.mk_eq]; with_reducible apply KeepsD.of)
    | (extract_lets +onlyGivenNames x; refine Keeps.cut (s := s₀) (t := x) ?_ (fun hx => ?_); (on_goal 1 => (unfold x; clear x)); (on_goal 2 => clear_value x))
    | (extract_lets +onlyGivenNames x; refine Keeps.cut2 (s := s₀) (x := x) ?_ (fun hx => ?_); (on_goal 1 => (unfold x; clear x)); (on_goal 2 => clear_value x))
    | (extract_lets +onlyGivenNames x; refine Keeps.cut2 (s := s₀) (x := x.2) ?_ (fun hx => ?_); (on_goal 1 => (unfold x; clear x)); (on_goal 2 => clear_value x))
    | (extract_lets +onlyGivenNames x; refine Keeps.cutF1 (s := s₀) (f := x) ?_ (fun kx => ?_); (on_goal 1 => (unfold x; clear x; intros; beta_reduce)); (on_goal 2 => clear_value x))
    | (extract_lets +onlyGivenNames x; refine Keeps.cutF2 (s := s₀) (f := x) ?_ (fun kx => ?_); (on_goal 1 => (unfold x; clear x; intros; beta_reduce)); (on_goal 2 => clear_value x))
    | (extract_lets +onlyGivenNames x; refine Keeps.cutG2 (s := s₀) (f := x) ?_ (fun kx => ?_); (on_goal 1 => (unfold x; clear x; intros; beta_reduce)); (on_goal 2 => clear_value x))
    | (extract_lets +onlyGivenNames x; refine Keeps.cutF3 (s := s₀) (f := x) ?_ (fun kx => ?_); (on_goal 1 => (unfold x; clear x; intros; beta_reduce)); (on_goal 2 => clear_value x))
    | (extract_lets +onlyGivenNames x; refine Keeps.cutF4 (s := s₀) (f := x) ?_ (fun kx => ?_); (on_goal 1 => (unfold x; clear x; intros; beta_reduce)); (on_goal 2 => clear_value x))
    | (extract_lets +onlyGivenNames x; (have hv : x = x := by unfold x; exact Eq.refl _); clear hv; clear_value x)
    | with_reducible apply State.setF_keeps
    | apply kx
    | (intro _; intros; try beta_reduce)

theorem State.recArm_keeps {s₀ : State} {s : State} {i : Nat} (hk : Keeps s₀ s) :
    Keeps s₀ (State.recArm s i).2 := by
  unfold State.recArm
  repeat' first
    | with_reducible assumption
    | with_reducible apply Keeps.ite
    | with_reducible apply Keeps.ite2
    | with_reducible apply State.recArmNow_keeps
    | split

theorem State.recDisarm_keeps {s₀ : State} {s : State} {i : Nat} (hk : Keeps s₀ s) :
    Keeps s₀ (State.recDisarm s i).2 := by
  unfold State.recDisarm
  repeat' first
    | with_reducible assumption
    | with_reducible apply Keeps.ite
    | with_reducible apply Keeps.ite2
    | with_reducible apply State.recDisarmNow_keeps
    | split

theorem State.recTrigger_keeps {s₀ : State} {s : State} {i : Nat} (hk : Keeps s₀ s) :
    Keeps s₀ (State.recTrigger s i).2 := by
  unfold State.recTrigger
  repeat' first
    | with_reducible assumption
    | (dsimp only [Keeps.mk_eq]; with_reducible apply KeepsD.of)
    | with_reducible apply Keeps.ite
    | with_reducible apply Keeps.ite2
    | with_reducible apply State.modRec_keeps
    | split
    | (intro _; intros; try beta_reduce)

theorem State.recRelease_keeps {s₀ : State} {s : State} {i k : Nat} (hk : Keeps s₀ s) :
    Keeps s₀ (State.recRelease s i k).2 := by
  unfold State.recRelease
  repeat' first
    | with_reducible assumption
    | with_reducible apply Keeps.ite
    | with_reducible apply Keeps.ite2
    | with_reducible apply State.recReleaseBuf_keeps
    | split

theorem dreOp_keeps {s₀ : State} {f : State → Nat × State} {s : State} (hk : Keeps s₀ s) (kf : ∀ u, Keeps s₀ u → Keeps s₀ (f u).2) :
    Keeps s₀ (dreOp f s).2.2 := by
  unfold dreOp
  repeat' first
    | with_reducible assumption
    | apply kf
    | (intro _; intros; try beta_reduce)

theorem dreWriteAct_keeps {s₀ : State} {t i : Nat} {s : State} (hk : Keeps s₀ s) :
    Keeps s₀ (dreWriteAct t i s).2.2 := by
  unfold dreWriteAct
  repeat' first
    | with_reducible assumption
    | (extract_lets +onlyGivenNames x; refine Keeps.cut (s := s₀) (t := x) ?_ (fun hx => ?_); (on_goal 1 => (unfold x; clear x)); (on_goal 2 => clear_value x))
    | (extract_lets +onlyGivenNames x; refine Keeps.cut2 (s := s₀) (x := x) ?_ (fun hx => ?_); (on_goal 1 => (unfold x; clear x)); (on_goal 2 => clear_value x))
    | (extract_lets +onlyGivenNames x; refine Keeps.cut2 (s := s₀) (x := x.2) ?_ (fun hx => ?_); (on_goal 1 => (unfold x; clear x)); (on_goal 2 => clear_value x))
    | (extract_lets +onlyGivenNames x; (have hv : x = x := by unfold x; exact Eq.refl _); clear hv; clear_value x)
    | with_reducible apply Keeps.ite
    | with_reducible apply Keeps.ite22
    | with_reducible apply State.setDreEnt_keeps
    | split

theorem dreReadAct_keeps {s₀ : State} {t i : Nat} {s : State} (hk : Keeps s₀ s) :
    Keeps s₀ (dreReadAct t i s).2.2 := by
  unfold dreReadAct
  repeat' first
    | with_reducible assumption
    | with_reducible apply Keeps.ite
    | with_reducible apply Keeps.ite22
    | split

theorem dreStatAct_keeps {s₀ : State} {i : Nat} {s : State} (hk : Keeps s₀ s) :
    Keeps s₀ (dreStatAct i s).2.2 := by
  unfold dreStatAct
  repeat' first
    | with_reducible assumption
    | (extract_lets +onlyGivenNames x; refine Keeps.cut (s := s₀) (t := x) ?_ (fun hx => ?_); (on_goal 1 => (unfold x; clear x)); (on_goal 2 => clear_value x))
    | (extract_lets +onlyGivenNames x; refine Keeps.cut2 (s := s₀) (x := x) ?_ (fun hx => ?_); (on_goal 1 => (unfold x; clear x)); (on_goal 2 => clear_value x))
    | (extract_lets +onlyGivenNames x; refine Keeps.cut2 (s := s₀) (x := x.2) ?_ (fun hx => ?_); (on_goal 1 => (unfold x; clear x)); (on_goal 2 => clear_value x))
    | (extract_lets +onlyGivenNames x; (have hv : x = x := by unfold x; exact Eq.refl _); clear hv; clear_value x)
    | with_reducible apply Keeps.ite
    | with_reducible apply Keeps.ite22
    | with_reducible apply State.setF_keeps
    | with_reducible apply Keeps.forN
    | split
    | (intro _; intros; try beta_reduce)

theorem recAns_keeps {s₀ : State} {i : Nat} {r : Nat × State} {s : State} (hk : Keeps s₀ s) (hr : Keeps s₀ r.2) :
    Keeps s₀ (recAns i r s).2 := by
  unfold recAns
  split <;> assumption

theorem recStatusAct_keeps {s₀ : State} {clear : Bool} {i : Nat} {s : State} (hk : Keeps s₀ s) :
    Keeps s₀ (recStatusAct clear i s).2 := by
  unfold recStatusAct
  repeat' first
    | with_reducible assumption
    | with_reducible apply Keeps.ite
    | with_reducible apply Keeps.ite2
    | with_reducible apply State.clearCnt_keeps
    | split

theorem recListAct_keeps {s₀ : State} {i : Nat} {s : State} (hk : Keeps s₀ s) :
    Keeps s₀ (recListAct i s).2 := by
  unfold recListAct
  repeat' first
    | with_reducible assumption
    | (extract_lets +onlyGivenNames x; refine Keeps.cut (s := s₀) (t := x) ?_ (fun hx => ?_); (on_goal 1 => (unfold x; clear x)); (on_goal 2 => clear_value x))
    | (extract_lets +onlyGivenNames x; refine Keeps.cut2 (s := s₀) (x := x) ?_ (fun hx => ?_); (on_goal 1 => (unfold x; clear x)); (on_goal 2 => clear_value x))
    | (extract_lets +onlyGivenNames x; refine Keeps.cut2 (s := s₀) (x := x.2) ?_ (fun hx => ?_); (on_goal 1 => (unfold x; clear x)); (on_goal 2 => clear_value x))
    | (extract_lets +onlyGivenNames x; (have hv : x = x := by unfold x; exact Eq.refl _); clear hv; clear_value x)
    | with_reducible apply Keeps.ite
    | with_reducible apply Keeps.ite2
    | split
    | (intro _; intros; try beta_reduce)

theorem recReleaseAct_keeps {s₀ : State} {i : Nat} {buf : Option Nat} {s : State} (hk : Keeps s₀ s) :
    Keeps s₀ (recReleaseAct i buf s).2 := by
  unfold recReleaseAct
  repeat' first
    | with_reducible assumption
    | (dsimp only [Keeps.mk_eq]; with_reducible apply KeepsD.of)
    | (extract_lets +onlyGivenNames x; refine Keeps.cut (s := s₀) (t := x) ?_ (fun hx => ?_); (on_goal 1 => (unfold x; clear x)); (on_goal 2 => clear_value x))
    | (extract_lets +onlyGivenNames x; refine Keeps.cut2 (s := s₀) (x := x) ?_ (fun hx => ?_); (on_goal 1 => (unfold x; clear x)); (on_goal 2 => clear_value x))
    | (extract_lets +onlyGivenNames x; refine Keeps.cut2 (s := s₀) (x := x.2) ?_ (fun hx => ?_); (on_goal 1 => (unfold x; clear x)); (on_goal 2 => clear_value x))
    | (extract_lets +onlyGivenNames x; (have hv : x = x := by unfold x; exact Eq.refl _); clear hv; clear_value x)
    | with_reducible apply Keeps.ite
    | with_reducible apply Keeps.ite2
    | with_reducible apply recAns_keeps
    | with_reducible apply State.recRelease_keeps
    | with_reducible apply State.recReleaseBuf_keeps
    | with_reducible apply Keeps.foldl
    | with_reducible apply Keeps.foldl2
    | split
    | (intro _; intros; try beta_reduce)

theorem recExportAct_keeps {s₀ : State} {q : Req} {fmt : Nat} {cfg dat : BufRef} {recs : List RecSrc} {s : State} (hk : Keeps s₀ s) :
    Keeps s₀ (recExportAct q fmt cfg dat recs s).2 := by
  unfold recExportAct
  repeat' first
    | with_reducible assumption
    | (dsimp only [Keeps.mk_eq]; with_reducible apply KeepsD.of)
    | with_reducible apply Keeps.ite
    | with_reducible apply Keeps.ite2
    | split
    | (intro _; intros; try beta_reduce)

theorem execDreWrite_keeps {s₀ : State} {m : Master} {table index : Nat} {s : State} (hk : Keeps s₀ s) :
    KeepsR s₀ (execDreWrite m table index s) := by
  exact State.cmdRun_keeps hk (fun _ h => dreWriteAct_keeps h)

theorem execDreRead_keeps {s₀ : State} {m : Master} {table index : Nat} {s : State} (hk : Keeps s₀ s) :
    KeepsR s₀ (execDreRead m table index s) := by
  exact State.cmdRun_keeps hk (fun _ h => dreReadAct_keeps h)

theorem execDreArm_keeps {s₀ : State} {m : Master} {index : Nat} {s : State} (hk : Keeps s₀ s) :
    KeepsR s₀ (execDreArm m index s) := by
  unfold execDreArm
  repeat' first
    | with_reducible assumption
    | with_reducible apply State.cmdRun_keeps
    | with_reducible apply dreOp_keeps
    | with_reducible apply State.recArm_keeps
    | (intro _; intros; try beta_reduce)

theorem execDreDisarm_keeps {s₀ : State} {m : Master} {index : Nat} {s : State} (hk : Keeps s₀ s) :
    KeepsR s₀ (execDreDisarm m index s) := by
  unfold execDreDisarm
  repeat' first
    | with_reducible assumption
    | with_reducible apply State.cmdRun_keeps
    | with_reducible apply dreOp_keeps
    | with_reducible apply State.recDisarm_keeps
    | (intro _; intros; try beta_reduce)

theorem execDreTrigger_keeps {s₀ : State} {m : Master} {index : Nat} {s : State} (hk : Keeps s₀ s) :
    KeepsR s₀ (execDreTrigger m index s) := by
  unfold execDreTrigger
  repeat' first
    | with_reducible assumption
    | with_reducible apply State.cmdRun_keeps
    | with_reducible apply dreOp_keeps
    | with_reducible apply State.recTrigger_keeps
    | (intro _; intros; try beta_reduce)

theorem execDreRelease_keeps {s₀ : State} {m : Master} {index : Nat} {s : State} (hk : Keeps s₀ s) :
    KeepsR s₀ (execDreRelease m index s) := by
  unfold execDreRelease
  repeat' first
    | with_reducible assumption
    | with_reducible apply State.cmdRun_keeps
    | with_reducible apply dreOp_keeps
    | with_reducible apply State.recRelease_keeps
    | (intro _; intros; try beta_reduce)

theorem execDreStat_keeps {s₀ : State} {m : Master} {index : Nat} {s : State} (hk : Keeps s₀ s) :
    KeepsR s₀ (execDreStat m index s) := by
  exact State.cmdRun_keeps hk (fun _ h => dreStatAct_keeps h)

theorem execRecStatus_keeps {s₀ : State} {q : Req} {clear : Bool} {inst : Nat} {s : State} (hk : Keeps s₀ s) :
    KeepsR s₀ (execRecStatus q clear inst s) := by
  exact State.patchaif_keeps hk (fun _ h => recStatusAct_keeps h)

theorem execRecList_keeps {s₀ : State} {q : Req} {inst : Nat} {s : State} (hk : Keeps s₀ s) :
    KeepsR s₀ (execRecList q inst s) := by
  exact State.patchaif_keeps hk (fun _ h => recListAct_keeps h)

theorem execRecArm_keeps {s₀ : State} {q : Req} {inst : Nat} {s : State} (hk : Keeps s₀ s) :
    KeepsR s₀ (execRecArm q inst s) := by
  unfold execRecArm
  repeat' first
    | with_reducible assumption
    | with_reducible apply KeepsR.ite
    | with_reducible apply Keeps.ite
    | with_reducible apply State.patchaif_keeps
    | with_reducible apply recAns_keeps
    | with_reducible apply State.recArm_keeps
    | split
    | (intro _; intros; try beta_reduce)

theorem execRecDisarm_keeps {s₀ : State} {q : Req} {inst : Nat} {s : State} (hk : Keeps s₀ s) :
    KeepsR s₀ (execRecDisarm q inst s) := by
  unfold execRecDisarm
  repeat' first
    | with_reducible assumption
    | with_reducible apply KeepsR.ite
    | with_reducible apply Keeps.ite
    | with_reducible apply State.patchaif_keeps
    | with_reducible apply recAns_keeps
    | with_reducible apply State.recDisarm_keeps
    | split
    | (intro _; intros; try beta_reduce)

theorem execRecTrigger_keeps {s₀ : State} {q : Req} {inst : Nat} {s : State} (hk : Keeps s₀ s) :
    KeepsR s₀ (execRecTrigger q inst s) := by
  unfold execRecTrigger
  repeat' first
    | with_reducible assumption
    | with_reducible apply KeepsR.ite
    | with_reducible apply Keeps.ite
    | with_reducible apply State.patchaif_keeps
    | with_reducible apply recAns_keeps
    | with_reducible apply State.recTrigger_keeps
    | split
    | (intro _; intros; try beta_reduce)

theorem execRecRelease_keeps {s₀ : State} {q : Req} {inst : Nat} {buf : Option Nat} {s : State} (hk : Keeps s₀ s) :
    KeepsR s₀ (execRecRelease q inst buf s) := by
  exact State.patchaif_keeps hk (fun _ h => recReleaseAct_keeps h)

theorem execRecExport_keeps {s₀ : State} {q : Req} {fmt : Nat} {cfg dat : BufRef} {recs : List RecSrc} {s : State} (hk : Keeps s₀ s) :
    KeepsR s₀ (execRecExport q fmt cfg dat recs s) := by
  exact State.patchaif_keeps hk (fun _ h => recExportAct_keeps h)

/-! ### Qbc -/

theorem State.qbInputs_keeps {s₀ : State} {s : State} {di : Nat} (hk : Keeps s₀ s) :
    Keeps s₀ (State.qbInputs s di) := by
  unfold State.qbInputs
  repeat' first
    | with_reducible assumption
    | (dsimp only [Keeps.mk_eq]; with_reducible apply KeepsD.of)
    | (extract_lets +onlyGivenNames x; refine Keeps.cut (s := s₀) (t := x) ?_ (fun hx => ?_); (on_goal 1 => (unfold x; clear x)); (on_goal 2 => clear_value x))
    | (extract_lets +onlyGivenNames x; refine Keeps.cut2 (s := s₀) (x := x) ?_ (fun hx => ?_); (on_goal 1 => (unfold x; clear x)); (on_goal 2 => clear_value x))
    | (extract_lets +onlyGivenNames x; refine Keeps.cut2 (s := s₀) (x := x.2) ?_ (fun hx => ?_); (on_goal 1 => (unfold x; clear x)); (on_goal 2 => clear_value x))
    | (extract_lets +onlyGivenNames x; (have hv : x = x := by unfold x; exact Eq.refl _); clear hv; clear_value x)
    | with_reducible apply Keeps.ite
    | with_reducible apply Keeps.foldl
    | with_reducible apply Keeps.foldl2
    | split
    | (intro _; intros; try beta_reduce)

theorem State.qbReceive_keeps {s₀ : State} {s : State} {di : Nat} {ref : Option Nat} {skip : Bool} (hk : Keeps s₀ s) :
    Keeps s₀ (State.qbReceive s di ref skip) := by
  unfold State.qbReceive
  repeat' first
    | with_reducible assumption
    | (dsimp only [Keeps.mk_eq]; with_reducible apply KeepsD.of)
    | (extract_lets +onlyGivenNames x; refine Keeps.cut (s := s₀) (t := x) ?_ (fun hx => ?_); (on_goal 1 => (unfold x; clear x)); (on_goal 2 => clear_value x))
    | (extract_lets +onlyGivenNames x; refine Keeps.cut2 (s := s₀) (x := x) ?_ (fun hx => ?_); (on_goal 1 => (unfold x; clear x)); (on_goal 2 => clear_value x))
    | (extract_lets +onlyGivenNames x; refine Keeps.cut2 (s := s₀) (x := x.2) ?_ (fun hx => ?_); (on_goal 1 => (unfold x; clear x)); (on_goal 2 => clear_value x))
    | (extract_lets +onlyGivenNames x; (have hv : x = x := by unfold x; exact Eq.refl _); clear hv; clear_value x)
    | with_reducible apply Keeps.ite
    | with_reducible apply State.bump_keeps
    | with_reducible apply State.setF_keeps
    | with_reducible apply State.qbInputs_keeps
    | split

theorem qbFrame_keeps {s₀ : State} {di : Nat} {s : State} (hk : Keeps s₀ s) :
    Keeps s₀ (qbFrame di s) := by
  unfold qbFrame
  repeat' first
    | with_reducible assumption
    | (dsimp only [Keeps.mk_eq]; with_reducible apply KeepsD.of)
    | (extract_lets +onlyGivenNames x; refine Keeps.cut (s := s₀) (t := x) ?_ (fun hx => ?_); (on_goal 1 => (unfold x; clear x)); (on_goal 2 => clear_value x))
    | (extract_lets +onlyGivenNames x; refine Keeps.cut2 (s := s₀) (x := x) ?_ (fun hx => ?_); (on_goal 1 => (unfold x; clear x)); (on_goal 2 => clear_value x))
    | (extract_lets +onlyGivenNames x; refine Keeps.cut2 (s := s₀) (x := x.2) ?_ (fun hx => ?_); (on_goal 1 => (unfold x; clear x)); (on_goal 2 => clear_value x))
    | (extract_lets +onlyGivenNames x; (have hv : x = x := by unfold x; exact Eq.refl _); clear hv; clear_value x)
    | with_reducible apply Keeps.ite
    | with_reducible apply State.advanceTo_keeps
    | with_reducible apply State.setF_keeps
    | with_reducible apply State.setB_keeps
    | with_reducible apply State.qbReceive_keeps
    | split

theorem qbcStart_keeps {s₀ : State} {s : State} (hk : Keeps s₀ s) :
    Keeps s₀ (qbcStart s) := by
  unfold qbcStart
  repeat' first
    | with_reducible assumption
    | (dsimp only [Keeps.mk_eq]; with_reducible apply KeepsD.of)
    | (extract_lets +onlyGivenNames x; refine Keeps.cut (s := s₀) (t := x) ?_ (fun hx => ?_); (on_goal 1 => (unfold x; clear x)); (on_goal 2 => clear_value x))
    | (extract_lets +onlyGivenNames x; refine Keeps.cut2 (s := s₀) (x := x) ?_ (fun hx => ?_); (on_goal 1 => (unfold x; clear x)); (on_goal 2 => clear_value x))
    | (extract_lets +onlyGivenNames x; refine Keeps.cut2 (s := s₀) (x := x.2) ?_ (fun hx => ?_); (on_goal 1 => (unfold x; clear x)); (on_goal 2 => clear_value x))
    | (extract_lets +onlyGivenNames x; (have hv : x = x := by unfold x; exact Eq.refl _); clear hv; clear_value x)
    | with_reducible apply Keeps.ite
    | with_reducible apply State.advanceTo_keeps
    | split

theorem State.stopQbc_keeps {s₀ : State} {s : State} (hk : Keeps s₀ s) :
    Keeps s₀ (State.stopQbc s) := by
  unfold State.stopQbc
  repeat' first
    | with_reducible assumption
    | (dsimp only [Keeps.mk_eq]; with_reducible apply KeepsD.of)

theorem execQbFrame_keeps {s₀ : State} {di : Nat} {s : State} (hk : Keeps s₀ s) :
    KeepsR s₀ (execQbFrame di s) := by
  exact KeepsR.next (qbFrame_keeps hk)

theorem execQbcStart_keeps {s₀ : State} {s : State} (hk : Keeps s₀ s) :
    KeepsR s₀ (execQbcStart s) := by
  exact KeepsR.next (qbcStart_keeps hk)

/-! ### WeevilCmds -/

theorem weevilStatusAct_keeps {s₀ : State} {clear : Bool} {s : State} (hk : Keeps s₀ s) :
    Keeps s₀ (weevilStatusAct clear s).2 := by
  unfold weevilStatusAct
  repeat' first
    | with_reducible assumption
    | (extract_lets +onlyGivenNames x; refine Keeps.cut (s := s₀) (t := x) ?_ (fun hx => ?_); (on_goal 1 => (unfold x; clear x)); (on_goal 2 => clear_value x))
    | (extract_lets +onlyGivenNames x; refine Keeps.cut2 (s := s₀) (x := x) ?_ (fun hx => ?_); (on_goal 1 => (unfold x; clear x)); (on_goal 2 => clear_value x))
    | (extract_lets +onlyGivenNames x; refine Keeps.cut2 (s := s₀) (x := x.2) ?_ (fun hx => ?_); (on_goal 1 => (unfold x; clear x)); (on_goal 2 => clear_value x))
    | (extract_lets +onlyGivenNames x; refine Keeps.cutF1 (s := s₀) (f := x) ?_ (fun kx => ?_); (on_goal 1 => (unfold x; clear x; intros; beta_reduce)); (on_goal 2 => clear_value x))
    | (extract_lets +onlyGivenNames x; refine Keeps.cutF2 (s := s₀) (f := x) ?_ (fun kx => ?_); (on_goal 1 => (unfold x; clear x; intros; beta_reduce)); (on_goal 2 => clear_value x))
    | (extract_lets +onlyGivenNames x; refine Keeps.cutG2 (s := s₀) (f := x) ?_ (fun kx => ?_); (on_goal 1 => (unfold x; clear x; intros; beta_reduce)); (on_goal 2 => clear_value x))
    | (extract_lets +onlyGivenNames x; refine Keeps.cutF3 (s := s₀) (f := x) ?_ (fun kx => ?_); (on_goal 1 => (unfold x; clear x; intros; beta_reduce)); (on_goal 2 => clear_value x))
    | (extract_lets +onlyGivenNames x; refine Keeps.cutF4 (s := s₀) (f := x) ?_ (fun kx => ?_); (on_goal 1 => (unfold x; clear x; intros; beta_reduce)); (on_goal 2 => clear_value x))
    | (extract_lets +onlyGivenNames x; (have hv : x = x := by unfold x; exact Eq.refl _); clear hv; clear_value x)
    | with_reducible apply State.clearCnt_keeps
    | apply kx
    | (intro _; intros; try beta_reduce)

theorem weevilRuleAct_keeps {s₀ : State} {r m a c : Nat} {s : State} (hk : Keeps s₀ s) :
    Keeps s₀ (weevilRuleAct r m a c s).2 := by
  unfold weevilRuleAct
  repeat' first
    | with_reducible assumption
    | (extract_lets +onlyGivenNames x; refine Keeps.cut (s := s₀) (t := x) ?_ (fun hx => ?_); (on_goal 1 => (unfold x; clear x)); (on_goal 2 => clear_value x))
    | (extract_lets +onlyGivenNames x; refine Keeps.cut2 (s := s₀) (x := x) ?_ (fun hx => ?_); (on_goal 1 => (unfold x; clear x)); (on_goal 2 => clear_value x))
    | (extract_lets +onlyGivenNames x; refine Keeps.cut2 (s := s₀) (x := x.2) ?_ (fun hx => ?_); (on_goal 1 => (unfold x; clear x)); (on_goal 2 => clear_value x))
    | (extract_lets +onlyGivenNames x; refine Keeps.cutF1 (s := s₀) (f := x) ?_ (fun kx => ?_); (on_goal 1 => (unfold x; clear x; intros; beta_reduce)); (on_goal 2 => clear_value x))
    | (extract_lets +onlyGivenNames x; refine Keeps.cutF2 (s := s₀) (f := x) ?_ (fun kx => ?_); (on_goal 1 => (unfold x; clear x; intros; beta_reduce)); (on_goal 2 => clear_value x))
    | (extract_lets +onlyGivenNames x; refine Keeps.cutG2 (s := s₀) (f := x) ?_ (fun kx => ?_); (on_goal 1 => (unfold x; clear x; intros; beta_reduce)); (on_goal 2 => clear_value x))
    | (extract_lets +onlyGivenNames x; refine Keeps.cutF3 (s := s₀) (f := x) ?_ (fun kx => ?_); (on_goal 1 => (unfold x; clear x; intros; beta_reduce)); (on_goal 2 => clear_value x))
    | (extract_lets +onlyGivenNames x; refine Keeps.cutF4 (s := s₀) (f := x) ?_ (fun kx => ?_); (on_goal 1 => (unfold x; clear x; intros; beta_reduce)); (on_goal 2 => clear_value x))
    | (extract_lets +onlyGivenNames x; (have hv : x = x := by unfold x; exact Eq.refl _); clear hv; clear_value x)
    | with_reducible apply Keeps.ite
    | with_reducible apply Keeps.ite2
    | with_reducible apply State.setF_keeps
    | with_reducible apply State.wvlRestart_keeps
    | with_reducible apply Keeps.foldl
    | with_reducible apply Keeps.foldl2
    | apply kx
    | split
    | (intro _; intros; try beta_reduce)

theorem weevilArmAct_keeps {s₀ : State} {arm : Bool} {s : State} (hk : Keeps s₀ s) :
    Keeps s₀ (weevilArmAct arm s).2 := by
  unfold weevilArmAct
  repeat' first
    | with_reducible assumption
    | with_reducible apply Keeps.ite
    | with_reducible apply Keeps.ite2
    | with_reducible apply State.wvlArm_keeps
    | split

theorem execWeevilStatus_keeps {s₀ : State} {q : Req} {clear : Bool} {s : State} (hk : Keeps s₀ s) :
    KeepsR s₀ (execWeevilStatus q clear s) := by
  exact State.patchaif_keeps hk (fun _ h => weevilStatusAct_keeps h)

theorem execWeevilRule_keeps {s₀ : State} {q : Req} {rule mtch action count : Nat} {s : State} (hk : Keeps s₀ s) :
    KeepsR s₀ (execWeevilRule q rule mtch action count s) := by
  exact State.patchaif_keeps hk (fun _ h => weevilRuleAct_keeps h)

theorem execWeevilArm_keeps {s₀ : State} {q : Req} {arm : Bool} {s : State} (hk : Keeps s₀ s) :
    KeepsR s₀ (execWeevilArm q arm s) := by
  exact State.patchaif_keeps hk (fun _ h => weevilArmAct_keeps h)

/-! ### Island -/

theorem State.modPsc_keeps {s₀ : State} {s : State} {f : Island → Island} (hk : Keeps s₀ s) :
    Keeps s₀ (State.modPsc s f) := by
  unfold State.modPsc
  repeat' first
    | with_reducible assumption
    | (dsimp only [Keeps.mk_eq]; with_reducible apply KeepsD.of)

theorem State.modSout_keeps {s₀ : State} {s : State} {k : Nat} {f : SafeOut → SafeOut} (hk : Keeps s₀ s) :
    Keeps s₀ (State.modSout s k f) := by
  unfold State.modSout
  repeat' first
    | with_reducible assumption
    | (dsimp only [Keeps.mk_eq]; with_reducible apply KeepsD.of)
    | with_reducible apply State.modPsc_keeps
    | (intro _; intros; try beta_reduce)

theorem State.pscBump_keeps {s₀ : State} {s : State} {n : Nat} (hk : Keeps s₀ s) :
    Keeps s₀ (State.pscBump s n) := by
  unfold State.pscBump
  repeat' first
    | with_reducible assumption
    | with_reducible apply State.bump_keeps

theorem State.arcBump_keeps {s₀ : State} {s : State} {n : Nat} (hk : Keeps s₀ s) :
    Keeps s₀ (State.arcBump s n) := by
  unfold State.arcBump
  repeat' first
    | with_reducible assumption
    | with_reducible apply State.bump_keeps

theorem State.islandSample_keeps {s₀ : State} {s : State} {wa wb t : Nat} (hk : Keeps s₀ s) :
    Keeps s₀ (State.islandSample s wa wb t) := by
  unfold State.islandSample
  repeat' first
    | with_reducible assumption
    | (dsimp only [Keeps.mk_eq]; with_reducible apply KeepsD.of)
    | (extract_lets +onlyGivenNames x; refine Keeps.cut (s := s₀) (t := x) ?_ (fun hx => ?_); (on_goal 1 => (unfold x; clear x)); (on_goal 2 => clear_value x))
    | (extract_lets +onlyGivenNames x; refine Keeps.cut2 (s := s₀) (x := x) ?_ (fun hx => ?_); (on_goal 1 => (unfold x; clear x)); (on_goal 2 => clear_value x))
    | (extract_lets +onlyGivenNames x; refine Keeps.cut2 (s := s₀) (x := x.2) ?_ (fun hx => ?_); (on_goal 1 => (unfold x; clear x)); (on_goal 2 => clear_value x))
    | (extract_lets +onlyGivenNames x; (have hv : x = x := by unfold x; exact Eq.refl _); clear hv; clear_value x)
    | with_reducible apply Keeps.ite
    | with_reducible apply State.modPsc_keeps
    | with_reducible apply State.pscBump_keeps
    | with_reducible apply Keeps.forN
    | split
    | (intro _; intros; try beta_reduce)

theorem State.latchFn_keeps {s₀ : State} {s : State} {m cnt : Nat} (hk : Keeps s₀ s) :
    Keeps s₀ (State.latchFn s m cnt) := by
  unfold State.latchFn
  repeat' first
    | with_reducible assumption
    | (dsimp only [Keeps.mk_eq]; with_reducible apply KeepsD.of)
    | (extract_lets +onlyGivenNames x; refine Keeps.cut (s := s₀) (t := x) ?_ (fun hx => ?_); (on_goal 1 => (unfold x; clear x)); (on_goal 2 => clear_value x))
    | (extract_lets +onlyGivenNames x; refine Keeps.cut2 (s := s₀) (x := x) ?_ (fun hx => ?_); (on_goal 1 => (unfold x; clear x)); (on_goal 2 => clear_value x))
    | (extract_lets +onlyGivenNames x; refine Keeps.cut2 (s := s₀) (x := x.2) ?_ (fun hx => ?_); (on_goal 1 => (unfold x; clear x)); (on_goal 2 => clear_value x))
    | (extract_lets +onlyGivenNames x; (have hv : x = x := by unfold x; exact Eq.refl _); clear hv; clear_value x)
    | with_reducible apply Keeps.ite
    | with_reducible apply State.modPsc_keeps
    | with_reducible apply State.pscBump_keeps
    | split
    | (intro _; intros; try beta_reduce)

theorem State.twoHand_keeps {s₀ : State} {s : State} {m : Nat} (hk : Keeps s₀ s) :
    Keeps s₀ (State.twoHand s m) := by
  unfold State.twoHand
  repeat' first
    | with_reducible assumption
    | (dsimp only [Keeps.mk_eq]; with_reducible apply KeepsD.of)
    | (extract_lets +onlyGivenNames x; refine Keeps.cut (s := s₀) (t := x) ?_ (fun hx => ?_); (on_goal 1 => (unfold x; clear x)); (on_goal 2 => clear_value x))
    | (extract_lets +onlyGivenNames x; refine Keeps.cut2 (s := s₀) (x := x) ?_ (fun hx => ?_); (on_goal 1 => (unfold x; clear x)); (on_goal 2 => clear_value x))
    | (extract_lets +onlyGivenNames x; refine Keeps.cut2 (s := s₀) (x := x.2) ?_ (fun hx => ?_); (on_goal 1 => (unfold x; clear x)); (on_goal 2 => clear_value x))
    | (extract_lets +onlyGivenNames x; (have hv : x = x := by unfold x; exact Eq.refl _); clear hv; clear_value x)
    | with_reducible apply Keeps.ite
    | with_reducible apply State.modPsc_keeps
    | with_reducible apply State.pscBump_keeps
    | split
    | (intro _; intros; try beta_reduce)

theorem State.fnDecide_keeps {s₀ : State} {s : State} {m : Nat} (hk : Keeps s₀ s) :
    Keeps s₀ (State.fnDecide s m) := by
  unfold State.fnDecide
  repeat' first
    | with_reducible assumption
    | (dsimp only [Keeps.mk_eq]; with_reducible apply KeepsD.of)
    | (extract_lets +onlyGivenNames x; refine Keeps.cut (s := s₀) (t := x) ?_ (fun hx => ?_); (on_goal 1 => (unfold x; clear x)); (on_goal 2 => clear_value x))
    | (extract_lets +onlyGivenNames x; refine Keeps.cut2 (s := s₀) (x := x) ?_ (fun hx => ?_); (on_goal 1 => (unfold x; clear x)); (on_goal 2 => clear_value x))
    | (extract_lets +onlyGivenNames x; refine Keeps.cut2 (s := s₀) (x := x.2) ?_ (fun hx => ?_); (on_goal 1 => (unfold x; clear x)); (on_goal 2 => clear_value x))
    | (extract_lets +onlyGivenNames x; (have hv : x = x := by unfold x; exact Eq.refl _); clear hv; clear_value x)
    | with_reducible apply Keeps.ite
    | with_reducible apply State.modPsc_keeps
    | with_reducible apply State.latchFn_keeps
    | with_reducible apply State.twoHand_keeps
    | with_reducible apply State.pscBump_keeps
    | split
    | (intro _; intros; try beta_reduce)

theorem State.arcChannels_keeps {s₀ : State} {s : State} {edges : List Nat} {t : Nat} (hk : Keeps s₀ s) :
    Keeps s₀ (State.arcChannels s edges t) := by
  unfold State.arcChannels
  repeat' first
    | with_reducible assumption
    | (dsimp only [Keeps.mk_eq]; with_reducible apply KeepsD.of)
    | (extract_lets +onlyGivenNames x; refine Keeps.cut (s := s₀) (t := x) ?_ (fun hx => ?_); (on_goal 1 => (unfold x; clear x)); (on_goal 2 => clear_value x))
    | (extract_lets +onlyGivenNames x; refine Keeps.cut2 (s := s₀) (x := x) ?_ (fun hx => ?_); (on_goal 1 => (unfold x; clear x)); (on_goal 2 => clear_value x))
    | (extract_lets +onlyGivenNames x; refine Keeps.cut2 (s := s₀) (x := x.2) ?_ (fun hx => ?_); (on_goal 1 => (unfold x; clear x)); (on_goal 2 => clear_value x))
    | (extract_lets +onlyGivenNames x; (have hv : x = x := by unfold x; exact Eq.refl _); clear hv; clear_value x)
    | with_reducible apply Keeps.ite
    | with_reducible apply State.modPsc_keeps
    | with_reducible apply State.setF_keeps
    | with_reducible apply State.arcBump_keeps
    | with_reducible apply Keeps.forN
    | split
    | (intro _; intros; try beta_reduce)

theorem State.arcDecide_keeps {s₀ : State} {s : State} {i : Nat} (hk : Keeps s₀ s) :
    Keeps s₀ (State.arcDecide s i) := by
  unfold State.arcDecide
  repeat' first
    | with_reducible assumption
    | (dsimp only [Keeps.mk_eq]; with_reducible apply KeepsD.of)
    | (extract_lets +onlyGivenNames x; refine Keeps.cut (s := s₀) (t := x) ?_ (fun hx => ?_); (on_goal 1 => (unfold x; clear x)); (on_goal 2 => clear_value x))
    | (extract_lets +onlyGivenNames x; refine Keeps.cut2 (s := s₀) (x := x) ?_ (fun hx => ?_); (on_goal 1 => (unfold x; clear x)); (on_goal 2 => clear_value x))
    | (extract_lets +onlyGivenNames x; refine Keeps.cut2 (s := s₀) (x := x.2) ?_ (fun hx => ?_); (on_goal 1 => (unfold x; clear x)); (on_goal 2 => clear_value x))
    | (extract_lets +onlyGivenNames x; (have hv : x = x := by unfold x; exact Eq.refl _); clear hv; clear_value x)
    | with_reducible apply Keeps.ite
    | with_reducible apply State.modPsc_keeps
    | with_reducible apply State.arcBump_keeps
    | split
    | (intro _; intros; try beta_reduce)

theorem State.driveOut_keeps {s₀ : State} {s : State} {k : Nat} {on : Bool} (hk : Keeps s₀ s) :
    Keeps s₀ (State.driveOut s k on) := by
  unfold State.driveOut
  repeat' first
    | with_reducible assumption
    | (dsimp only [Keeps.mk_eq]; with_reducible apply KeepsD.of)
    | with_reducible apply Keeps.ite
    | with_reducible apply State.modSout_keeps
    | split
    | (intro _; intros; try beta_reduce)

theorem State.showOuts_keeps {s₀ : State} {s : State} (hk : Keeps s₀ s) :
    Keeps s₀ (State.showOuts s) := by
  unfold State.showOuts
  repeat' first
    | with_reducible assumption
    | (extract_lets +onlyGivenNames x; refine Keeps.cut (s := s₀) (t := x) ?_ (fun hx => ?_); (on_goal 1 => (unfold x; clear x)); (on_goal 2 => clear_value x))
    | (extract_lets +onlyGivenNames x; refine Keeps.cut2 (s := s₀) (x := x) ?_ (fun hx => ?_); (on_goal 1 => (unfold x; clear x)); (on_goal 2 => clear_value x))
    | (extract_lets +onlyGivenNames x; refine Keeps.cut2 (s := s₀) (x := x.2) ?_ (fun hx => ?_); (on_goal 1 => (unfold x; clear x)); (on_goal 2 => clear_value x))
    | (extract_lets +onlyGivenNames x; refine Keeps.cutF1 (s := s₀) (f := x) ?_ (fun kx => ?_); (on_goal 1 => (unfold x; clear x; intros; beta_reduce)); (on_goal 2 => clear_value x))
    | (extract_lets +onlyGivenNames x; refine Keeps.cutF2 (s := s₀) (f := x) ?_ (fun kx => ?_); (on_goal 1 => (unfold x; clear x; intros; beta_reduce)); (on_goal 2 => clear_value x))
    | (extract_lets +onlyGivenNames x; refine Keeps.cutG2 (s := s₀) (f := x) ?_ (fun kx => ?_); (on_goal 1 => (unfold x; clear x; intros; beta_reduce)); (on_goal 2 => clear_value x))
    | (extract_lets +onlyGivenNames x; refine Keeps.cutF3 (s := s₀) (f := x) ?_ (fun kx => ?_); (on_goal 1 => (unfold x; clear x; intros; beta_reduce)); (on_goal 2 => clear_value x))
    | (extract_lets +onlyGivenNames x; refine Keeps.cutF4 (s := s₀) (f := x) ?_ (fun kx => ?_); (on_goal 1 => (unfold x; clear x; intros; beta_reduce)); (on_goal 2 => clear_value x))
    | (extract_lets +onlyGivenNames x; (have hv : x = x := by unfold x; exact Eq.refl _); clear hv; clear_value x)
    | with_reducible apply State.setF_keeps
    | apply kx
    | (intro _; intros; try beta_reduce)

theorem State.showPsc_keeps {s₀ : State} {s : State} (hk : Keeps s₀ s) :
    Keeps s₀ (State.showPsc s) := by
  unfold State.showPsc
  repeat' first
    | with_reducible assumption
    | (extract_lets +onlyGivenNames x; refine Keeps.cut (s := s₀) (t := x) ?_ (fun hx => ?_); (on_goal 1 => (unfold x; clear x)); (on_goal 2 => clear_value x))
    | (extract_lets +onlyGivenNames x; refine Keeps.cut2 (s := s₀) (x := x) ?_ (fun hx => ?_); (on_goal 1 => (unfold x; clear x)); (on_goal 2 => clear_value x))
    | (extract_lets +onlyGivenNames x; refine Keeps.cut2 (s := s₀) (x := x.2) ?_ (fun hx => ?_); (on_goal 1 => (unfold x; clear x)); (on_goal 2 => clear_value x))
    | (extract_lets +onlyGivenNames x; refine Keeps.cutF1 (s := s₀) (f := x) ?_ (fun kx => ?_); (on_goal 1 => (unfold x; clear x; intros; beta_reduce)); (on_goal 2 => clear_value x))
    | (extract_lets +onlyGivenNames x; refine Keeps.cutF2 (s := s₀) (f := x) ?_ (fun kx => ?_); (on_goal 1 => (unfold x; clear x; intros; beta_reduce)); (on_goal 2 => clear_value x))
    | (extract_lets +onlyGivenNames x; refine Keeps.cutG2 (s := s₀) (f := x) ?_ (fun kx => ?_); (on_goal 1 => (unfold x; clear x; intros; beta_reduce)); (on_goal 2 => clear_value x))
    | (extract_lets +onlyGivenNames x; refine Keeps.cutF3 (s := s₀) (f := x) ?_ (fun kx => ?_); (on_goal 1 => (unfold x; clear x; intros; beta_reduce)); (on_goal 2 => clear_value x))
    | (extract_lets +onlyGivenNames x; refine Keeps.cutF4 (s := s₀) (f := x) ?_ (fun kx => ?_); (on_goal 1 => (unfold x; clear x; intros; beta_reduce)); (on_goal 2 => clear_value x))
    | (extract_lets +onlyGivenNames x; (have hv : x = x := by unfold x; exact Eq.refl _); clear hv; clear_value x)
    | with_reducible apply State.setF_keeps
    | with_reducible apply State.setB_keeps
    | with_reducible apply State.showOuts_keeps
    | with_reducible apply Keeps.forN
    | apply kx
    | (intro _; intros; try beta_reduce)

theorem State.sendS_keeps {s₀ : State} {s : State} (hk : Keeps s₀ s) :
    Keeps s₀ (State.sendS s) := by
  unfold State.sendS
  repeat' first
    | with_reducible assumption
    | (dsimp only [Keeps.mk_eq]; with_reducible apply KeepsD.of)
    | (intro _; intros; try beta_reduce)

theorem State.islandFault_keeps {s₀ : State} {s : State} {cause : Nat} (hk : Keeps s₀ s) :
    Keeps s₀ (State.islandFault s cause) := by
  unfold State.islandFault
  repeat' first
    | with_reducible assumption
    | (dsimp only [Keeps.mk_eq]; with_reducible apply KeepsD.of)
    | (extract_lets +onlyGivenNames x; refine Keeps.cut (s := s₀) (t := x) ?_ (fun hx => ?_); (on_goal 1 => (unfold x; clear x)); (on_goal 2 => clear_value x))
    | (extract_lets +onlyGivenNames x; refine Keeps.cut2 (s := s₀) (x := x) ?_ (fun hx => ?_); (on_goal 1 => (unfold x; clear x)); (on_goal 2 => clear_value x))
    | (extract_lets +onlyGivenNames x; refine Keeps.cut2 (s := s₀) (x := x.2) ?_ (fun hx => ?_); (on_goal 1 => (unfold x; clear x)); (on_goal 2 => clear_value x))
    | (extract_lets +onlyGivenNames x; (have hv : x = x := by unfold x; exact Eq.refl _); clear hv; clear_value x)
    | with_reducible apply State.modPsc_keeps
    | with_reducible apply State.setF_keeps
    | with_reducible apply State.showOuts_keeps
    | with_reducible apply State.belfry_keeps
    | (intro _; intros; try beta_reduce)

theorem State.proofFrom_keeps {s₀ : State} {s : State} {w : ProofFor} {k : Nat} (hk : Keeps s₀ s) :
    Keeps s₀ (State.proofFrom s w k) := by
  unfold State.proofFrom
  repeat' first
    | with_reducible assumption
    | (dsimp only [Keeps.mk_eq]; with_reducible apply KeepsD.of)
    | (extract_lets +onlyGivenNames x; refine Keeps.cut (s := s₀) (t := x) ?_ (fun hx => ?_); (on_goal 1 => (unfold x; clear x)); (on_goal 2 => clear_value x))
    | (extract_lets +onlyGivenNames x; refine Keeps.cut2 (s := s₀) (x := x) ?_ (fun hx => ?_); (on_goal 1 => (unfold x; clear x)); (on_goal 2 => clear_value x))
    | (extract_lets +onlyGivenNames x; refine Keeps.cut2 (s := s₀) (x := x.2) ?_ (fun hx => ?_); (on_goal 1 => (unfold x; clear x)); (on_goal 2 => clear_value x))
    | (extract_lets +onlyGivenNames x; (have hv : x = x := by unfold x; exact Eq.refl _); clear hv; clear_value x)
    | with_reducible apply State.modPsc_keeps
    | with_reducible apply State.setF_keeps
    | split
    | (intro _; intros; try beta_reduce)

theorem State.takeParams_keeps {s₀ : State} {s : State} (hk : Keeps s₀ s) :
    Keeps s₀ (State.takeParams s) := by
  unfold State.takeParams
  repeat' first
    | with_reducible assumption
    | with_reducible apply Keeps.ite
    | with_reducible apply State.extendMs_keeps
    | with_reducible apply State.islandFault_keeps
    | with_reducible apply State.proofFrom_keeps
    | split

theorem State.islandStart_keeps {s₀ : State} {s : State} (hk : Keeps s₀ s) :
    Keeps s₀ (State.islandStart s) := by
  unfold State.islandStart
  repeat' first
    | with_reducible assumption
    | (dsimp only [Keeps.mk_eq]; with_reducible apply KeepsD.of)
    | (extract_lets +onlyGivenNames x; refine Keeps.cut (s := s₀) (t := x) ?_ (fun hx => ?_); (on_goal 1 => (unfold x; clear x)); (on_goal 2 => clear_value x))
    | (extract_lets +onlyGivenNames x; refine Keeps.cut2 (s := s₀) (x := x) ?_ (fun hx => ?_); (on_goal 1 => (unfold x; clear x)); (on_goal 2 => clear_value x))
    | (extract_lets +onlyGivenNames x; refine Keeps.cut2 (s := s₀) (x := x.2) ?_ (fun hx => ?_); (on_goal 1 => (unfold x; clear x)); (on_goal 2 => clear_value x))
    | (extract_lets +onlyGivenNames x; (have hv : x = x := by unfold x; exact Eq.refl _); clear hv; clear_value x)
    | with_reducible apply State.clearFields_keeps
    | with_reducible apply State.setF_keeps
    | with_reducible apply State.showPsc_keeps

theorem State.islandOff_keeps {s₀ : State} {s : State} (hk : Keeps s₀ s) :
    Keeps s₀ (State.islandOff s) := by
  unfold State.islandOff
  repeat' first
    | with_reducible assumption
    | (dsimp only [Keeps.mk_eq]; with_reducible apply KeepsD.of)
    | with_reducible apply State.clearPage_keeps

theorem State.goStale_keeps {s₀ : State} {s : State} (hk : Keeps s₀ s) :
    Keeps s₀ (State.goStale s) := by
  unfold State.goStale
  repeat' first
    | with_reducible assumption
    | with_reducible apply Keeps.ite
    | with_reducible apply State.setF_keeps
    | with_reducible apply State.pscBump_keeps
    | split

theorem State.islandRoot_keeps {s₀ : State} {s : State} (hk : Keeps s₀ s) :
    Keeps s₀ (State.islandRoot s) := by
  unfold State.islandRoot
  repeat' first
    | with_reducible assumption
    | with_reducible apply Keeps.ite
    | with_reducible apply State.setF_keeps
    | with_reducible apply State.goStale_keeps
    | split

theorem State.islandSamples_keeps {s₀ : State} {s : State} {x : IslandInputs} (hk : Keeps s₀ s) :
    Keeps s₀ (State.islandSamples s x) := by
  unfold State.islandSamples
  repeat' first
    | with_reducible assumption
    | (dsimp only [Keeps.mk_eq]; with_reducible apply KeepsD.of)
    | (extract_lets +onlyGivenNames x; refine Keeps.cut (s := s₀) (t := x) ?_ (fun hx => ?_); (on_goal 1 => (unfold x; clear x)); (on_goal 2 => clear_value x))
    | (extract_lets +onlyGivenNames x; refine Keeps.cut2 (s := s₀) (x := x) ?_ (fun hx => ?_); (on_goal 1 => (unfold x; clear x)); (on_goal 2 => clear_value x))
    | (extract_lets +onlyGivenNames x; refine Keeps.cut2 (s := s₀) (x := x.2) ?_ (fun hx => ?_); (on_goal 1 => (unfold x; clear x)); (on_goal 2 => clear_value x))
    | (extract_lets +onlyGivenNames x; (have hv : x = x := by unfold x; exact Eq.refl _); clear hv; clear_value x)
    | with_reducible apply State.modPsc_keeps
    | with_reducible apply State.islandSample_keeps
    | with_reducible apply Keeps.forN
    | (intro _; intros; try beta_reduce)

theorem State.islandDecide_keeps {s₀ : State} {s : State} (hk : Keeps s₀ s) :
    Keeps s₀ (State.islandDecide s) := by
  unfold State.islandDecide
  repeat' first
    | with_reducible assumption
    | (extract_lets +onlyGivenNames x; refine Keeps.cut (s := s₀) (t := x) ?_ (fun hx => ?_); (on_goal 1 => (unfold x; clear x)); (on_goal 2 => clear_value x))
    | (extract_lets +onlyGivenNames x; refine Keeps.cut2 (s := s₀) (x := x) ?_ (fun hx => ?_); (on_goal 1 => (unfold x; clear x)); (on_goal 2 => clear_value x))
    | (extract_lets +onlyGivenNames x; refine Keeps.cut2 (s := s₀) (x := x.2) ?_ (fun hx => ?_); (on_goal 1 => (unfold x; clear x)); (on_goal 2 => clear_value x))
    | (extract_lets +onlyGivenNames x; (have hv : x = x := by unfold x; exact Eq.refl _); clear hv; clear_value x)
    | with_reducible apply Keeps.ite
    | with_reducible apply State.arcDecide_keeps
    | with_reducible apply State.fnDecide_keeps
    | with_reducible apply State.driveOut_keeps
    | with_reducible apply Keeps.forN
    | split
    | (intro _; intros; try beta_reduce)

theorem islandCycle_keeps {s₀ : State} {x : IslandInputs} {s : State} (hk : Keeps s₀ s) :
    Keeps s₀ (islandCycle x s) := by
  unfold islandCycle
  repeat' first
    | with_reducible assumption
    | (dsimp only [Keeps.mk_eq]; with_reducible apply KeepsD.of)
    | (extract_lets +onlyGivenNames x; refine Keeps.cut (s := s₀) (t := x) ?_ (fun hx => ?_); (on_goal 1 => (unfold x; clear x)); (on_goal 2 => clear_value x))
    | (extract_lets +onlyGivenNames x; refine Keeps.cut2 (s := s₀) (x := x) ?_ (fun hx => ?_); (on_goal 1 => (unfold x; clear x)); (on_goal 2 => clear_value x))
    | (extract_lets +onlyGivenNames x; refine Keeps.cut2 (s := s₀) (x := x.2) ?_ (fun hx => ?_); (on_goal 1 => (unfold x; clear x)); (on_goal 2 => clear_value x))
    | (extract_lets +onlyGivenNames x; refine Keeps.cutF1 (s := s₀) (f := x) ?_ (fun kx => ?_); (on_goal 1 => (unfold x; clear x; intros; beta_reduce)); (on_goal 2 => clear_value x))
    | (extract_lets +onlyGivenNames x; refine Keeps.cutF2 (s := s₀) (f := x) ?_ (fun kx => ?_); (on_goal 1 => (unfold x; clear x; intros; beta_reduce)); (on_goal 2 => clear_value x))
    | (extract_lets +onlyGivenNames x; refine Keeps.cutG2 (s := s₀) (f := x) ?_ (fun kx => ?_); (on_goal 1 => (unfold x; clear x; intros; beta_reduce)); (on_goal 2 => clear_value x))
    | (extract_lets +onlyGivenNames x; refine Keeps.cutF3 (s := s₀) (f := x) ?_ (fun kx => ?_); (on_goal 1 => (unfold x; clear x; intros; beta_reduce)); (on_goal 2 => clear_value x))
    | (extract_lets +onlyGivenNames x; refine Keeps.cutF4 (s := s₀) (f := x) ?_ (fun kx => ?_); (on_goal 1 => (unfold x; clear x; intros; beta_reduce)); (on_goal 2 => clear_value x))
    | (extract_lets +onlyGivenNames x; (have hv : x = x := by unfold x; exact Eq.refl _); clear hv; clear_value x)
    | with_reducible apply Keeps.ite
    | with_reducible apply State.islandSamples_keeps
    | with_reducible apply State.modPsc_keeps
    | with_reducible apply State.arcChannels_keeps
    | with_reducible apply State.islandDecide_keeps
    | with_reducible apply State.proofFrom_keeps
    | with_reducible apply State.setF_keeps
    | with_reducible apply State.showPsc_keeps
    | with_reducible apply State.sendS_keeps
    | apply kx
    | split
    | (intro _; intros; try beta_reduce)

theorem islandFaultEvent_keeps {s₀ : State} {c : IslandCause} {s : State} (hk : Keeps s₀ s) :
    Keeps s₀ (islandFaultEvent c s) := by
  unfold islandFaultEvent
  repeat' first
    | with_reducible assumption
    | (dsimp only [Keeps.mk_eq]; with_reducible apply KeepsD.of)
    | with_reducible apply Keeps.ite
    | with_reducible apply State.islandFault_keeps
    | split

theorem testPulse_keeps {s₀ : State} {b : Bool} {s : State} (hk : Keeps s₀ s) :
    Keeps s₀ (testPulse b s) := by
  unfold testPulse
  repeat' first
    | with_reducible assumption
    | (dsimp only [Keeps.mk_eq]; with_reducible apply KeepsD.of)
    | with_reducible apply Keeps.ite
    | with_reducible apply State.modPsc_keeps
    | split
    | (intro _; intros; try beta_reduce)

theorem cpwUpdate_keeps {s₀ : State} {s : State} (hk : Keeps s₀ s) :
    Keeps s₀ (cpwUpdate s) := by
  unfold cpwUpdate
  repeat' first
    | with_reducible assumption
    | (dsimp only [Keeps.mk_eq]; with_reducible apply KeepsD.of)
    | (extract_lets +onlyGivenNames x; refine Keeps.cut (s := s₀) (t := x) ?_ (fun hx => ?_); (on_goal 1 => (unfold x; clear x)); (on_goal 2 => clear_value x))
    | (extract_lets +onlyGivenNames x; refine Keeps.cut2 (s := s₀) (x := x) ?_ (fun hx => ?_); (on_goal 1 => (unfold x; clear x)); (on_goal 2 => clear_value x))
    | (extract_lets +onlyGivenNames x; refine Keeps.cut2 (s := s₀) (x := x.2) ?_ (fun hx => ?_); (on_goal 1 => (unfold x; clear x)); (on_goal 2 => clear_value x))
    | (extract_lets +onlyGivenNames x; (have hv : x = x := by unfold x; exact Eq.refl _); clear hv; clear_value x)
    | with_reducible apply Keeps.ite
    | with_reducible apply State.modPsc_keeps
    | with_reducible apply State.pscBump_keeps
    | with_reducible apply State.setF_keeps
    | split
    | (intro _; intros; try beta_reduce)

theorem cpwTimeout_keeps {s₀ : State} {s : State} (hk : Keeps s₀ s) :
    Keeps s₀ (cpwTimeout s) := by
  unfold cpwTimeout
  repeat' first
    | with_reducible assumption
    | with_reducible apply Keeps.ite
    | with_reducible apply State.goStale_keeps
    | split

theorem arcSelftest_keeps {s₀ : State} {c edges : Nat} {s : State} (hk : Keeps s₀ s) :
    Keeps s₀ (arcSelftest c edges s) := by
  unfold arcSelftest
  repeat' first
    | with_reducible assumption
    | (dsimp only [Keeps.mk_eq]; with_reducible apply KeepsD.of)
    | (extract_lets +onlyGivenNames x; refine Keeps.cut (s := s₀) (t := x) ?_ (fun hx => ?_); (on_goal 1 => (unfold x; clear x)); (on_goal 2 => clear_value x))
    | (extract_lets +onlyGivenNames x; refine Keeps.cut2 (s := s₀) (x := x) ?_ (fun hx => ?_); (on_goal 1 => (unfold x; clear x)); (on_goal 2 => clear_value x))
    | (extract_lets +onlyGivenNames x; refine Keeps.cut2 (s := s₀) (x := x.2) ?_ (fun hx => ?_); (on_goal 1 => (unfold x; clear x)); (on_goal 2 => clear_value x))
    | (extract_lets +onlyGivenNames x; (have hv : x = x := by unfold x; exact Eq.refl _); clear hv; clear_value x)
    | with_reducible apply Keeps.ite
    | with_reducible apply State.modPsc_keeps
    | with_reducible apply State.arcBump_keeps
    | split
    | (intro _; intros; try beta_reduce)

theorem feedbackCheck_keeps {s₀ : State} {k sfb : Nat} {s : State} (hk : Keeps s₀ s) :
    Keeps s₀ (feedbackCheck k sfb s) := by
  unfold feedbackCheck
  repeat' first
    | with_reducible assumption
    | (dsimp only [Keeps.mk_eq]; with_reducible apply KeepsD.of)
    | (extract_lets +onlyGivenNames x; refine Keeps.cut (s := s₀) (t := x) ?_ (fun hx => ?_); (on_goal 1 => (unfold x; clear x)); (on_goal 2 => clear_value x))
    | (extract_lets +onlyGivenNames x; refine Keeps.cut2 (s := s₀) (x := x) ?_ (fun hx => ?_); (on_goal 1 => (unfold x; clear x)); (on_goal 2 => clear_value x))
    | (extract_lets +onlyGivenNames x; refine Keeps.cut2 (s := s₀) (x := x.2) ?_ (fun hx => ?_); (on_goal 1 => (unfold x; clear x)); (on_goal 2 => clear_value x))
    | (extract_lets +onlyGivenNames x; (have hv : x = x := by unfold x; exact Eq.refl _); clear hv; clear_value x)
    | with_reducible apply Keeps.ite
    | with_reducible apply State.modSout_keeps
    | with_reducible apply State.pscBump_keeps
    | with_reducible apply State.showOuts_keeps
    | split
    | (intro _; intros; try beta_reduce)

theorem islandSelftestDone_keeps {s₀ : State} {s : State} (hk : Keeps s₀ s) :
    Keeps s₀ (islandSelftestDone s) := by
  unfold islandSelftestDone
  repeat' first
    | with_reducible assumption
    | with_reducible apply Keeps.ite
    | with_reducible apply State.setF_keeps
    | with_reducible apply State.takeParams_keeps
    | split

theorem State.proofDone_keeps {s₀ : State} {s : State} {k : Nat} {ok : Bool} (hk : Keeps s₀ s) :
    Keeps s₀ (State.proofDone s k ok) := by
  unfold State.proofDone
  repeat' first
    | with_reducible assumption
    | (dsimp only [Keeps.mk_eq]; with_reducible apply KeepsD.of)
    | (extract_lets +onlyGivenNames x; refine Keeps.cut (s := s₀) (t := x) ?_ (fun hx => ?_); (on_goal 1 => (unfold x; clear x)); (on_goal 2 => clear_value x))
    | (extract_lets +onlyGivenNames x; refine Keeps.cut2 (s := s₀) (x := x) ?_ (fun hx => ?_); (on_goal 1 => (unfold x; clear x)); (on_goal 2 => clear_value x))
    | (extract_lets +onlyGivenNames x; refine Keeps.cut2 (s := s₀) (x := x.2) ?_ (fun hx => ?_); (on_goal 1 => (unfold x; clear x)); (on_goal 2 => clear_value x))
    | (extract_lets +onlyGivenNames x; (have hv : x = x := by unfold x; exact Eq.refl _); clear hv; clear_value x)
    | with_reducible apply State.modSout_keeps
    | with_reducible apply State.modPsc_keeps
    | with_reducible apply State.showOuts_keeps
    | with_reducible apply State.proofFrom_keeps
    | split
    | (intro _; intros; try beta_reduce)

theorem proofTestStep_keeps {s₀ : State} {k : Nat} {sfb : Bool} {s : State} (hk : Keeps s₀ s) :
    Keeps s₀ (proofTestStep k sfb s) := by
  unfold proofTestStep
  repeat' first
    | with_reducible assumption
    | (dsimp only [Keeps.mk_eq]; with_reducible apply KeepsD.of)
    | (extract_lets +onlyGivenNames x; refine Keeps.cut (s := s₀) (t := x) ?_ (fun hx => ?_); (on_goal 1 => (unfold x; clear x)); (on_goal 2 => clear_value x))
    | (extract_lets +onlyGivenNames x; refine Keeps.cut2 (s := s₀) (x := x) ?_ (fun hx => ?_); (on_goal 1 => (unfold x; clear x)); (on_goal 2 => clear_value x))
    | (extract_lets +onlyGivenNames x; refine Keeps.cut2 (s := s₀) (x := x.2) ?_ (fun hx => ?_); (on_goal 1 => (unfold x; clear x)); (on_goal 2 => clear_value x))
    | (extract_lets +onlyGivenNames x; (have hv : x = x := by unfold x; exact Eq.refl _); clear hv; clear_value x)
    | with_reducible apply Keeps.ite
    | with_reducible apply State.proofDone_keeps
    | with_reducible apply State.modSout_keeps
    | with_reducible apply State.modPsc_keeps
    | split
    | (intro _; intros; try beta_reduce)

theorem safetyStatusAct_keeps {s₀ : State} {clear : Bool} {s : State} (hk : Keeps s₀ s) :
    Keeps s₀ (safetyStatusAct clear s).2 := by
  unfold safetyStatusAct
  repeat' first
    | with_reducible assumption
    | (extract_lets +onlyGivenNames x; refine Keeps.cut (s := s₀) (t := x) ?_ (fun hx => ?_); (on_goal 1 => (unfold x; clear x)); (on_goal 2 => clear_value x))
    | (extract_lets +onlyGivenNames x; refine Keeps.cut2 (s := s₀) (x := x) ?_ (fun hx => ?_); (on_goal 1 => (unfold x; clear x)); (on_goal 2 => clear_value x))
    | (extract_lets +onlyGivenNames x; refine Keeps.cut2 (s := s₀) (x := x.2) ?_ (fun hx => ?_); (on_goal 1 => (unfold x; clear x)); (on_goal 2 => clear_value x))
    | (extract_lets +onlyGivenNames x; refine Keeps.cutF1 (s := s₀) (f := x) ?_ (fun kx => ?_); (on_goal 1 => (unfold x; clear x; intros; beta_reduce)); (on_goal 2 => clear_value x))
    | (extract_lets +onlyGivenNames x; refine Keeps.cutF2 (s := s₀) (f := x) ?_ (fun kx => ?_); (on_goal 1 => (unfold x; clear x; intros; beta_reduce)); (on_goal 2 => clear_value x))
    | (extract_lets +onlyGivenNames x; refine Keeps.cutG2 (s := s₀) (f := x) ?_ (fun kx => ?_); (on_goal 1 => (unfold x; clear x; intros; beta_reduce)); (on_goal 2 => clear_value x))
    | (extract_lets +onlyGivenNames x; refine Keeps.cutF3 (s := s₀) (f := x) ?_ (fun kx => ?_); (on_goal 1 => (unfold x; clear x; intros; beta_reduce)); (on_goal 2 => clear_value x))
    | (extract_lets +onlyGivenNames x; refine Keeps.cutF4 (s := s₀) (f := x) ?_ (fun kx => ?_); (on_goal 1 => (unfold x; clear x; intros; beta_reduce)); (on_goal 2 => clear_value x))
    | (extract_lets +onlyGivenNames x; (have hv : x = x := by unfold x; exact Eq.refl _); clear hv; clear_value x)
    | with_reducible apply State.clearCnt_keeps
    | apply kx
    | (intro _; intros; try beta_reduce)

theorem safetyAckAct_keeps {s₀ : State} {i : Nat} {s : State} (hk : Keeps s₀ s) :
    Keeps s₀ (safetyAckAct i s).2 := by
  unfold safetyAckAct
  repeat' first
    | with_reducible assumption
    | (dsimp only [Keeps.mk_eq]; with_reducible apply KeepsD.of)
    | (extract_lets +onlyGivenNames x; refine Keeps.cut (s := s₀) (t := x) ?_ (fun hx => ?_); (on_goal 1 => (unfold x; clear x)); (on_goal 2 => clear_value x))
    | (extract_lets +onlyGivenNames x; refine Keeps.cut2 (s := s₀) (x := x) ?_ (fun hx => ?_); (on_goal 1 => (unfold x; clear x)); (on_goal 2 => clear_value x))
    | (extract_lets +onlyGivenNames x; refine Keeps.cut2 (s := s₀) (x := x.2) ?_ (fun hx => ?_); (on_goal 1 => (unfold x; clear x)); (on_goal 2 => clear_value x))
    | (extract_lets +onlyGivenNames x; (have hv : x = x := by unfold x; exact Eq.refl _); clear hv; clear_value x)
    | with_reducible apply Keeps.ite
    | with_reducible apply Keeps.ite2
    | with_reducible apply State.modPsc_keeps
    | split
    | (intro _; intros; try beta_reduce)

theorem safetyProofAct_keeps {s₀ : State} {k : Nat} {s : State} (hk : Keeps s₀ s) :
    Keeps s₀ (safetyProofAct k s).2 := by
  unfold safetyProofAct
  repeat' first
    | with_reducible assumption
    | (dsimp only [Keeps.mk_eq]; with_reducible apply KeepsD.of)
    | with_reducible apply Keeps.ite
    | with_reducible apply Keeps.ite2
    | with_reducible apply State.modPsc_keeps
    | split
    | (intro _; intros; try beta_reduce)

theorem safetyRestartAct_keeps {s₀ : State} {s : State} (hk : Keeps s₀ s) :
    Keeps s₀ (safetyRestartAct s).2 := by
  unfold safetyRestartAct
  repeat' first
    | with_reducible assumption
    | with_reducible apply Keeps.ite
    | with_reducible apply Keeps.ite2
    | with_reducible apply State.islandStart_keeps
    | split

theorem execIslandCycle_keeps {s₀ : State} {x : IslandInputs} {s : State} (hk : Keeps s₀ s) :
    KeepsR s₀ (execIslandCycle x s) := by
  exact KeepsR.next (islandCycle_keeps hk)

theorem execIslandFault_keeps {s₀ : State} {c : IslandCause} {s : State} (hk : Keeps s₀ s) :
    KeepsR s₀ (execIslandFault c s) := by
  exact KeepsR.next (islandFaultEvent_keeps hk)

theorem execTestPulse_keeps {s₀ : State} {b : Bool} {s : State} (hk : Keeps s₀ s) :
    KeepsR s₀ (execTestPulse b s) := by
  exact KeepsR.next (testPulse_keeps hk)

theorem execCpwUpdate_keeps {s₀ : State} {s : State} (hk : Keeps s₀ s) :
    KeepsR s₀ (execCpwUpdate s) := by
  exact KeepsR.next (cpwUpdate_keeps hk)

theorem execCpwTimeout_keeps {s₀ : State} {s : State} (hk : Keeps s₀ s) :
    KeepsR s₀ (execCpwTimeout s) := by
  exact KeepsR.next (cpwTimeout_keeps hk)

theorem execArcSelftest_keeps {s₀ : State} {ch edges : Nat} {s : State} (hk : Keeps s₀ s) :
    KeepsR s₀ (execArcSelftest ch edges s) := by
  exact KeepsR.next (arcSelftest_keeps hk)

theorem execFeedbackCheck_keeps {s₀ : State} {k sfb : Nat} {s : State} (hk : Keeps s₀ s) :
    KeepsR s₀ (execFeedbackCheck k sfb s) := by
  exact KeepsR.next (feedbackCheck_keeps hk)

theorem execIslandSelftestDone_keeps {s₀ : State} {s : State} (hk : Keeps s₀ s) :
    KeepsR s₀ (execIslandSelftestDone s) := by
  exact KeepsR.next (islandSelftestDone_keeps hk)

theorem execProofTestStep_keeps {s₀ : State} {k : Nat} {sfb : Bool} {s : State} (hk : Keeps s₀ s) :
    KeepsR s₀ (execProofTestStep k sfb s) := by
  exact KeepsR.next (proofTestStep_keeps hk)

theorem execSafetyStatus_keeps {s₀ : State} {q : Req} {clear : Bool} {s : State} (hk : Keeps s₀ s) :
    KeepsR s₀ (execSafetyStatus q clear s) := by
  exact State.patchaif_keeps hk (fun _ h => safetyStatusAct_keeps h)

theorem execSafetyAck_keeps {s₀ : State} {q : Req} {inst : Nat} {s : State} (hk : Keeps s₀ s) :
    KeepsR s₀ (execSafetyAck q inst s) := by
  exact State.patchaif_keeps hk (fun _ h => safetyAckAct_keeps h)

theorem execSafetyProof_keeps {s₀ : State} {q : Req} {k : Nat} {s : State} (hk : Keeps s₀ s) :
    KeepsR s₀ (execSafetyProof q k s) := by
  exact State.patchaif_keeps hk (fun _ h => safetyProofAct_keeps h)

theorem execSafetyRestart_keeps {s₀ : State} {q : Req} {s : State} (hk : Keeps s₀ s) :
    KeepsR s₀ (execSafetyRestart q s) := by
  exact State.patchaif_keeps hk (fun _ h => safetyRestartAct_keeps h)

/-! ### Dome -/

theorem State.createTop_keeps {s₀ : State} {s : State} (hk : Keeps s₀ s) :
    Keeps s₀ (State.createTop s) := by
  unfold State.createTop
  repeat' first
    | with_reducible assumption
    | (dsimp only [Keeps.mk_eq]; with_reducible apply KeepsD.of)
    | (extract_lets +onlyGivenNames x; refine Keeps.cut (s := s₀) (t := x) ?_ (fun hx => ?_); (on_goal 1 => (unfold x; clear x)); (on_goal 2 => clear_value x))
    | (extract_lets +onlyGivenNames x; refine Keeps.cut2 (s := s₀) (x := x) ?_ (fun hx => ?_); (on_goal 1 => (unfold x; clear x)); (on_goal 2 => clear_value x))
    | (extract_lets +onlyGivenNames x; refine Keeps.cut2 (s := s₀) (x := x.2) ?_ (fun hx => ?_); (on_goal 1 => (unfold x; clear x)); (on_goal 2 => clear_value x))
    | (extract_lets +onlyGivenNames x; (have hv : x = x := by unfold x; exact Eq.refl _); clear hv; clear_value x)
    | with_reducible apply State.modNode_keeps
    | with_reducible apply Keeps.foldl
    | with_reducible apply Keeps.foldl2
    | (intro _; intros; try beta_reduce)

theorem State.tlsClose_keeps {s₀ : State} {s : State} {n : Nat} (hk : Keeps s₀ s) :
    Keeps s₀ (State.tlsClose s n) := by
  unfold State.tlsClose
  repeat' first
    | with_reducible assumption
    | (dsimp only [Keeps.mk_eq]; with_reducible apply KeepsD.of)
    | (extract_lets +onlyGivenNames x; refine Keeps.cut (s := s₀) (t := x) ?_ (fun hx => ?_); (on_goal 1 => (unfold x; clear x)); (on_goal 2 => clear_value x))
    | (extract_lets +onlyGivenNames x; refine Keeps.cut2 (s := s₀) (x := x) ?_ (fun hx => ?_); (on_goal 1 => (unfold x; clear x)); (on_goal 2 => clear_value x))
    | (extract_lets +onlyGivenNames x; refine Keeps.cut2 (s := s₀) (x := x.2) ?_ (fun hx => ?_); (on_goal 1 => (unfold x; clear x)); (on_goal 2 => clear_value x))
    | (extract_lets +onlyGivenNames x; (have hv : x = x := by unfold x; exact Eq.refl _); clear hv; clear_value x)
    | with_reducible apply State.modSess_keeps
    | with_reducible apply State.undeliver_keeps
    | (intro _; intros; try beta_reduce)

theorem State.tlsCloseAll_keeps {s₀ : State} {s : State} (hk : Keeps s₀ s) :
    Keeps s₀ (State.tlsCloseAll s) := by
  unfold State.tlsCloseAll
  repeat' first
    | with_reducible assumption
    | with_reducible apply State.tlsClose_keeps
    | with_reducible apply Keeps.foldl
    | with_reducible apply Keeps.foldl2
    | (intro _; intros; try beta_reduce)

theorem State.sweep_keeps {s₀ : State} {s : State} (hk : Keeps s₀ s) :
    Keeps s₀ (State.sweep s) := by
  unfold State.sweep
  repeat' first
    | with_reducible assumption
    | (dsimp only [Keeps.mk_eq]; with_reducible apply KeepsD.of)
    | (extract_lets +onlyGivenNames x; refine Keeps.cut (s := s₀) (t := x) ?_ (fun hx => ?_); (on_goal 1 => (unfold x; clear x)); (on_goal 2 => clear_value x))
    | (extract_lets +onlyGivenNames x; refine Keeps.cut2 (s := s₀) (x := x) ?_ (fun hx => ?_); (on_goal 1 => (unfold x; clear x)); (on_goal 2 => clear_value x))
    | (extract_lets +onlyGivenNames x; refine Keeps.cut2 (s := s₀) (x := x.2) ?_ (fun hx => ?_); (on_goal 1 => (unfold x; clear x)); (on_goal 2 => clear_value x))
    | (extract_lets +onlyGivenNames x; (have hv : x = x := by unfold x; exact Eq.refl _); clear hv; clear_value x)
    | with_reducible apply Keeps.ite
    | with_reducible apply State.modNode_keeps
    | with_reducible apply State.bumpBy_keeps
    | with_reducible apply Keeps.foldl
    | with_reducible apply Keeps.foldl2
    | split
    | (intro _; intros; try beta_reduce)

theorem keySweepDone_keeps {s₀ : State} {s : State} (hk : Keeps s₀ s) :
    Keeps s₀ (keySweepDone s) := by
  unfold keySweepDone
  repeat' first
    | with_reducible assumption
    | (extract_lets +onlyGivenNames x; refine Keeps.cut (s := s₀) (t := x) ?_ (fun hx => ?_); (on_goal 1 => (unfold x; clear x)); (on_goal 2 => clear_value x))
    | (extract_lets +onlyGivenNames x; refine Keeps.cut2 (s := s₀) (x := x) ?_ (fun hx => ?_); (on_goal 1 => (unfold x; clear x)); (on_goal 2 => clear_value x))
    | (extract_lets +onlyGivenNames x; refine Keeps.cut2 (s := s₀) (x := x.2) ?_ (fun hx => ?_); (on_goal 1 => (unfold x; clear x)); (on_goal 2 => clear_value x))
    | (extract_lets +onlyGivenNames x; (have hv : x = x := by unfold x; exact Eq.refl _); clear hv; clear_value x)
    | with_reducible apply Keeps.ite
    | with_reducible apply State.sweep_keeps
    | with_reducible apply State.tlsCloseAll_keeps
    | with_reducible apply State.createTop_keeps
    | split
    | (intro _; intros; try beta_reduce)

theorem State.destroyNode_keeps {s₀ : State} {s : State} {i : Nat} (hk : Keeps s₀ s) :
    Keeps s₀ (State.destroyNode s i) := by
  unfold State.destroyNode
  repeat' first
    | with_reducible assumption
    | with_reducible apply State.modNode_keeps
    | with_reducible apply State.bump_keeps
    | (intro _; intros; try beta_reduce)

theorem State.showDom_keeps {s₀ : State} {s : State} (hk : Keeps s₀ s) :
    Keeps s₀ (State.showDom s) := by
  unfold State.showDom
  repeat' first
    | with_reducible assumption
    | (dsimp only [Keeps.mk_eq]; with_reducible apply KeepsD.of)
    | (extract_lets +onlyGivenNames x; refine Keeps.cut (s := s₀) (t := x) ?_ (fun hx => ?_); (on_goal 1 => (unfold x; clear x)); (on_goal 2 => clear_value x))
    | (extract_lets +onlyGivenNames x; refine Keeps.cut2 (s := s₀) (x := x) ?_ (fun hx => ?_); (on_goal 1 => (unfold x; clear x)); (on_goal 2 => clear_value x))
    | (extract_lets +onlyGivenNames x; refine Keeps.cut2 (s := s₀) (x := x.2) ?_ (fun hx => ?_); (on_goal 1 => (unfold x; clear x)); (on_goal 2 => clear_value x))
    | (extract_lets +onlyGivenNames x; (have hv : x = x := by unfold x; exact Eq.refl _); clear hv; clear_value x)
    | with_reducible apply Keeps.ite
    | with_reducible apply State.setF_keeps
    | with_reducible apply State.setB_keeps
    | with_reducible apply Keeps.forN
    | split
    | (intro _; intros; try beta_reduce)

theorem State.pufRecord_keeps {s₀ : State} {s : State} {mx total attempts : Nat} (hk : Keeps s₀ s) :
    Keeps s₀ (State.pufRecord s mx total attempts) := by
  unfold State.pufRecord
  repeat' first
    | with_reducible assumption
    | (dsimp only [Keeps.mk_eq]; with_reducible apply KeepsD.of)
    | (extract_lets +onlyGivenNames x; refine Keeps.cut (s := s₀) (t := x) ?_ (fun hx => ?_); (on_goal 1 => (unfold x; clear x)); (on_goal 2 => clear_value x))
    | (extract_lets +onlyGivenNames x; refine Keeps.cut2 (s := s₀) (x := x) ?_ (fun hx => ?_); (on_goal 1 => (unfold x; clear x)); (on_goal 2 => clear_value x))
    | (extract_lets +onlyGivenNames x; refine Keeps.cut2 (s := s₀) (x := x.2) ?_ (fun hx => ?_); (on_goal 1 => (unfold x; clear x)); (on_goal 2 => clear_value x))
    | (extract_lets +onlyGivenNames x; (have hv : x = x := by unfold x; exact Eq.refl _); clear hv; clear_value x)
    | with_reducible apply State.setB_keeps
    | with_reducible apply State.belfry_keeps

theorem State.bootMeasure_keeps {s₀ : State} {s : State} {slots : List Nat} (hk : Keeps s₀ s) :
    Keeps s₀ (State.bootMeasure s slots) := by
  unfold State.bootMeasure
  repeat' first
    | with_reducible assumption
    | with_reducible apply State.extendMs_keeps
    | with_reducible apply Keeps.foldl
    | with_reducible apply Keeps.foldl2
    | (intro _; intros; try beta_reduce)

theorem domeRestart_keeps {s₀ : State} {l : List (List PufBlock)} {s : State} (hk : Keeps s₀ s) :
    Keeps s₀ (domeRestart l s) := by
  unfold domeRestart
  repeat' first
    | with_reducible assumption
    | (dsimp only [Keeps.mk_eq]; with_reducible apply KeepsD.of)
    | (extract_lets +onlyGivenNames x; refine Keeps.cut (s := s₀) (t := x) ?_ (fun hx => ?_); (on_goal 1 => (unfold x; clear x)); (on_goal 2 => clear_value x))
    | (extract_lets +onlyGivenNames x; refine Keeps.cut2 (s := s₀) (x := x) ?_ (fun hx => ?_); (on_goal 1 => (unfold x; clear x)); (on_goal 2 => clear_value x))
    | (extract_lets +onlyGivenNames x; refine Keeps.cut2 (s := s₀) (x := x.2) ?_ (fun hx => ?_); (on_goal 1 => (unfold x; clear x)); (on_goal 2 => clear_value x))
    | (extract_lets +onlyGivenNames x; (have hv : x = x := by unfold x; exact Eq.refl _); clear hv; clear_value x)
    | with_reducible apply Keeps.ite
    | with_reducible apply State.bootMeasure_keeps
    | with_reducible apply State.setF_keeps
    | with_reducible apply State.bumpBy_keeps
    | with_reducible apply State.createTop_keeps
    | with_reducible apply State.belfry_keeps
    | with_reducible apply State.keysFollow_keeps
    | with_reducible apply State.pufRecord_keeps
    | with_reducible apply State.setB_keeps
    | with_reducible apply State.sweep_keeps
    | with_reducible apply State.evalReady_keeps
    | with_reducible apply Keeps.foldl
    | with_reducible apply Keeps.foldl2
    | split
    | (intro _; intros; try beta_reduce)

theorem State.domeStop_keeps {s₀ : State} {s : State} (hk : Keeps s₀ s) :
    Keeps s₀ (State.domeStop s) := by
  unfold State.domeStop
  repeat' first
    | with_reducible assumption
    | (dsimp only [Keeps.mk_eq]; with_reducible apply KeepsD.of)
    | with_reducible apply State.clearPage_keeps

theorem keyActivate_keeps {s₀ : State} {i : Nat} {s : State} (hk : Keeps s₀ s) :
    Keeps s₀ (keyActivate i s) := by
  unfold keyActivate
  repeat' first
    | with_reducible assumption
    | (dsimp only [Keeps.mk_eq]; with_reducible apply KeepsD.of)
    | with_reducible apply State.keysFollow_keeps
    | with_reducible apply State.advanceTo_keeps
    | with_reducible apply State.modKeys_keeps
    | with_reducible apply State.bump_keeps
    | split
    | (intro _; intros; try beta_reduce)

theorem keyExpire_keeps {s₀ : State} {i : Nat} {s : State} (hk : Keeps s₀ s) :
    Keeps s₀ (keyExpire i s) := by
  unfold keyExpire
  repeat' first
    | with_reducible assumption
    | (dsimp only [Keeps.mk_eq]; with_reducible apply KeepsD.of)
    | (extract_lets +onlyGivenNames x; refine Keeps.cut (s := s₀) (t := x) ?_ (fun hx => ?_); (on_goal 1 => (unfold x; clear x)); (on_goal 2 => clear_value x))
    | (extract_lets +onlyGivenNames x; refine Keeps.cut2 (s := s₀) (x := x) ?_ (fun hx => ?_); (on_goal 1 => (unfold x; clear x)); (on_goal 2 => clear_value x))
    | (extract_lets +onlyGivenNames x; refine Keeps.cut2 (s := s₀) (x := x.2) ?_ (fun hx => ?_); (on_goal 1 => (unfold x; clear x)); (on_goal 2 => clear_value x))
    | (extract_lets +onlyGivenNames x; (have hv : x = x := by unfold x; exact Eq.refl _); clear hv; clear_value x)
    | with_reducible apply State.advanceTo_keeps
    | with_reducible apply State.keysFollow_keeps
    | with_reducible apply State.modKeys_keeps
    | with_reducible apply State.bump_keeps
    | split
    | (intro _; intros; try beta_reduce)

theorem State.installKey_keeps {s₀ : State} {s : State} {dest : Option Nat} {b : KeyBlob} (hk : Keeps s₀ s) :
    Keeps s₀ (State.installKey s dest b).2 := by
  unfold State.installKey
  repeat' first
    | with_reducible assumption
    | (dsimp only [Keeps.mk_eq]; with_reducible apply KeepsD.of)
    | (extract_lets +onlyGivenNames x; refine Keeps.cut (s := s₀) (t := x) ?_ (fun hx => ?_); (on_goal 1 => (unfold x; clear x)); (on_goal 2 => clear_value x))
    | (extract_lets +onlyGivenNames x; refine Keeps.cut2 (s := s₀) (x := x) ?_ (fun hx => ?_); (on_goal 1 => (unfold x; clear x)); (on_goal 2 => clear_value x))
    | (extract_lets +onlyGivenNames x; refine Keeps.cut2 (s := s₀) (x := x.2) ?_ (fun hx => ?_); (on_goal 1 => (unfold x; clear x)); (on_goal 2 => clear_value x))
    | (extract_lets +onlyGivenNames x; refine Keeps.cutF1 (s := s₀) (f := x) ?_ (fun kx => ?_); (on_goal 1 => (unfold x; clear x; intros; beta_reduce)); (on_goal 2 => clear_value x))
    | (extract_lets +onlyGivenNames x; refine Keeps.cutF2 (s := s₀) (f := x) ?_ (fun kx => ?_); (on_goal 1 => (unfold x; clear x; intros; beta_reduce)); (on_goal 2 => clear_value x))
    | (extract_lets +onlyGivenNames x; refine Keeps.cutG2 (s := s₀) (f := x) ?_ (fun kx => ?_); (on_goal 1 => (unfold x; clear x; intros; beta_reduce)); (on_goal 2 => clear_value x))
    | (extract_lets +onlyGivenNames x; refine Keeps.cutF3 (s := s₀) (f := x) ?_ (fun kx => ?_); (on_goal 1 => (unfold x; clear x; intros; beta_reduce)); (on_goal 2 => clear_value x))
    | (extract_lets +onlyGivenNames x; refine Keeps.cutF4 (s := s₀) (f := x) ?_ (fun kx => ?_); (on_goal 1 => (unfold x; clear x; intros; beta_reduce)); (on_goal 2 => clear_value x))
    | (extract_lets +onlyGivenNames x; (have hv : x = x := by unfold x; exact Eq.refl _); clear hv; clear_value x)
    | with_reducible apply Keeps.ite
    | with_reducible apply Keeps.ite2
    | with_reducible apply State.modKeys_keeps
    | with_reducible apply State.bump_keeps
    | apply kx
    | split
    | (intro _; intros; try beta_reduce)

theorem State.security_keeps {s₀ : State} {s : State} {q : Req} {op : Nat} {ps : Octets} {long : Bool} {act : State → Ans × State} (hk : Keeps s₀ s) (kact : ∀ u, Keeps s₀ u → Keeps s₀ (act u).2) :
    KeepsR s₀ (State.security s q op ps long act) := by
  unfold State.security
  repeat' first
    | with_reducible assumption
    | (dsimp only [Keeps.mk_eq]; with_reducible apply KeepsD.of)
    | with_reducible apply KeepsR.ite
    | with_reducible apply Keeps.ite
    | with_reducible apply State.patchaif_keeps
    | split
    | apply kact
    | (intro _; intros; try beta_reduce)

theorem State.domeResult_keeps {s₀ : State} {s : State} {o : Octets} (hk : Keeps s₀ s) :
    Keeps s₀ (State.domeResult s o).2 := by
  unfold State.domeResult
  repeat' first
    | with_reducible assumption
    | with_reducible apply State.wrOctets_keeps

theorem domStatusAct_keeps {s₀ : State} {clear : Bool} {s : State} (hk : Keeps s₀ s) :
    Keeps s₀ (domStatusAct clear s).2 := by
  unfold domStatusAct
  repeat' first
    | with_reducible assumption
    | (extract_lets +onlyGivenNames x; refine Keeps.cut (s := s₀) (t := x) ?_ (fun hx => ?_); (on_goal 1 => (unfold x; clear x)); (on_goal 2 => clear_value x))
    | (extract_lets +onlyGivenNames x; refine Keeps.cut2 (s := s₀) (x := x) ?_ (fun hx => ?_); (on_goal 1 => (unfold x; clear x)); (on_goal 2 => clear_value x))
    | (extract_lets +onlyGivenNames x; refine Keeps.cut2 (s := s₀) (x := x.2) ?_ (fun hx => ?_); (on_goal 1 => (unfold x; clear x)); (on_goal 2 => clear_value x))
    | (extract_lets +onlyGivenNames x; (have hv : x = x := by unfold x; exact Eq.refl _); clear hv; clear_value x)
    | with_reducible apply State.showDom_keeps
    | with_reducible apply State.clearCnt_keeps

theorem domIdentityAct_keeps {s₀ : State} {s : State} (hk : Keeps s₀ s) :
    Keeps s₀ (domIdentityAct s).2 := by
  unfold domIdentityAct
  repeat' first
    | with_reducible assumption
    | with_reducible apply State.domeResult_keeps

theorem keyCreateAct_keeps {s₀ : State} {i kind parent : Nat} {s : State} (hk : Keeps s₀ s) :
    Keeps s₀ (keyCreateAct i kind parent s).2 := by
  unfold keyCreateAct
  repeat' first
    | with_reducible assumption
    | (extract_lets +onlyGivenNames x; refine Keeps.cut (s := s₀) (t := x) ?_ (fun hx => ?_); (on_goal 1 => (unfold x; clear x)); (on_goal 2 => clear_value x))
    | (extract_lets +onlyGivenNames x; refine Keeps.cut2 (s := s₀) (x := x) ?_ (fun hx => ?_); (on_goal 1 => (unfold x; clear x)); (on_goal 2 => clear_value x))
    | (extract_lets +onlyGivenNames x; refine Keeps.cut2 (s := s₀) (x := x.2) ?_ (fun hx => ?_); (on_goal 1 => (unfold x; clear x)); (on_goal 2 => clear_value x))
    | (extract_lets +onlyGivenNames x; (have hv : x = x := by unfold x; exact Eq.refl _); clear hv; clear_value x)
    | with_reducible apply Keeps.ite
    | with_reducible apply Keeps.ite2
    | with_reducible apply State.modNode_keeps
    | split
    | (intro _; intros; try beta_reduce)

theorem keyDestroyAct_keeps {s₀ : State} {i : Nat} {s : State} (hk : Keeps s₀ s) :
    Keeps s₀ (keyDestroyAct i s).2 := by
  unfold keyDestroyAct
  repeat' first
    | with_reducible assumption
    | (extract_lets +onlyGivenNames x; refine Keeps.cut (s := s₀) (t := x) ?_ (fun hx => ?_); (on_goal 1 => (unfold x; clear x)); (on_goal 2 => clear_value x))
    | (extract_lets +onlyGivenNames x; refine Keeps.cut2 (s := s₀) (x := x) ?_ (fun hx => ?_); (on_goal 1 => (unfold x; clear x)); (on_goal 2 => clear_value x))
    | (extract_lets +onlyGivenNames x; refine Keeps.cut2 (s := s₀) (x := x.2) ?_ (fun hx => ?_); (on_goal 1 => (unfold x; clear x)); (on_goal 2 => clear_value x))
    | (extract_lets +onlyGivenNames x; (have hv : x = x := by unfold x; exact Eq.refl _); clear hv; clear_value x)
    | with_reducible apply Keeps.ite
    | with_reducible apply Keeps.ite2
    | with_reducible apply State.keysFollow_keeps
    | with_reducible apply State.destroyNode_keeps
    | with_reducible apply State.extendMs_keeps
    | split

theorem keyPutAct_keeps {s₀ : State} {fmt group transport : Nat} {map : List (Nat × Nat)} {blob : SealedKeys} {algOk : Bool} {keys : List KeyBlob} {s : State} (hk : Keeps s₀ s) :
    Keeps s₀ (keyPutAct fmt group transport map blob algOk keys s).2 := by
  unfold keyPutAct
  repeat' first
    | with_reducible assumption
    | (dsimp only [Keeps.mk_eq]; with_reducible apply KeepsD.of)
    | (extract_lets +onlyGivenNames x; refine Keeps.cut (s := s₀) (t := x) ?_ (fun hx => ?_); (on_goal 1 => (unfold x; clear x)); (on_goal 2 => clear_value x))
    | (extract_lets +onlyGivenNames x; refine Keeps.cut2 (s := s₀) (x := x) ?_ (fun hx => ?_); (on_goal 1 => (unfold x; clear x)); (on_goal 2 => clear_value x))
    | (extract_lets +onlyGivenNames x; refine Keeps.cut2 (s := s₀) (x := x.2) ?_ (fun hx => ?_); (on_goal 1 => (unfold x; clear x)); (on_goal 2 => clear_value x))
    | (extract_lets +onlyGivenNames x; (have hv : x = x := by unfold x; exact Eq.refl _); clear hv; clear_value x)
    | with_reducible apply Keeps.ite
    | with_reducible apply Keeps.ite2
    | with_reducible apply State.keysFollow_keeps
    | with_reducible apply State.installKey_keeps
    | with_reducible apply Keeps.foldl
    | with_reducible apply Keeps.foldl2
    | split
    | (intro _; intros; try beta_reduce)

theorem keyAgreeAct_keeps {s₀ : State} {i signer peer : Nat} {info : List Nat} {s : State} (hk : Keeps s₀ s) :
    Keeps s₀ (keyAgreeAct i signer peer info s).2 := by
  unfold keyAgreeAct
  repeat' first
    | with_reducible assumption
    | (extract_lets +onlyGivenNames x; refine Keeps.cut (s := s₀) (t := x) ?_ (fun hx => ?_); (on_goal 1 => (unfold x; clear x)); (on_goal 2 => clear_value x))
    | (extract_lets +onlyGivenNames x; refine Keeps.cut2 (s := s₀) (x := x) ?_ (fun hx => ?_); (on_goal 1 => (unfold x; clear x)); (on_goal 2 => clear_value x))
    | (extract_lets +onlyGivenNames x; refine Keeps.cut2 (s := s₀) (x := x.2) ?_ (fun hx => ?_); (on_goal 1 => (unfold x; clear x)); (on_goal 2 => clear_value x))
    | (extract_lets +onlyGivenNames x; (have hv : x = x := by unfold x; exact Eq.refl _); clear hv; clear_value x)
    | with_reducible apply Keeps.ite
    | with_reducible apply Keeps.ite2
    | with_reducible apply State.drawn_keeps
    | with_reducible apply State.modKeys_keeps
    | with_reducible apply State.domeResult_keeps
    | split
    | (intro _; intros; try beta_reduce)

theorem keyInfoAct_keeps {s₀ : State} {i : Nat} {s : State} (hk : Keeps s₀ s) :
    Keeps s₀ (keyInfoAct i s).2 := by
  unfold keyInfoAct
  repeat' first
    | with_reducible assumption
    | (dsimp only [Keeps.mk_eq]; with_reducible apply KeepsD.of)
    | (extract_lets +onlyGivenNames x; refine Keeps.cut (s := s₀) (t := x) ?_ (fun hx => ?_); (on_goal 1 => (unfold x; clear x)); (on_goal 2 => clear_value x))
    | (extract_lets +onlyGivenNames x; refine Keeps.cut2 (s := s₀) (x := x) ?_ (fun hx => ?_); (on_goal 1 => (unfold x; clear x)); (on_goal 2 => clear_value x))
    | (extract_lets +onlyGivenNames x; refine Keeps.cut2 (s := s₀) (x := x.2) ?_ (fun hx => ?_); (on_goal 1 => (unfold x; clear x)); (on_goal 2 => clear_value x))
    | (extract_lets +onlyGivenNames x; refine Keeps.cutF1 (s := s₀) (f := x) ?_ (fun kx => ?_); (on_goal 1 => (unfold x; clear x; intros; beta_reduce)); (on_goal 2 => clear_value x))
    | (extract_lets +onlyGivenNames x; refine Keeps.cutF2 (s := s₀) (f := x) ?_ (fun kx => ?_); (on_goal 1 => (unfold x; clear x; intros; beta_reduce)); (on_goal 2 => clear_value x))
    | (extract_lets +onlyGivenNames x; refine Keeps.cutG2 (s := s₀) (f := x) ?_ (fun kx => ?_); (on_goal 1 => (unfold x; clear x; intros; beta_reduce)); (on_goal 2 => clear_value x))
    | (extract_lets +onlyGivenNames x; refine Keeps.cutF3 (s := s₀) (f := x) ?_ (fun kx => ?_); (on_goal 1 => (unfold x; clear x; intros; beta_reduce)); (on_goal 2 => clear_value x))
    | (extract_lets +onlyGivenNames x; refine Keeps.cutF4 (s := s₀) (f := x) ?_ (fun kx => ?_); (on_goal 1 => (unfold x; clear x; intros; beta_reduce)); (on_goal 2 => clear_value x))
    | (extract_lets +onlyGivenNames x; (have hv : x = x := by unfold x; exact Eq.refl _); clear hv; clear_value x)
    | with_reducible apply Keeps.ite
    | with_reducible apply Keeps.ite2
    | apply kx
    | split
    | (intro _; intros; try beta_reduce)

theorem anchorSetAct_keeps {s₀ : State} {i pub usage : Nat} {stmt : List Nat} {sig : Nat} {s : State} (hk : Keeps s₀ s) :
    Keeps s₀ (anchorSetAct i pub usage stmt sig s).2 := by
  unfold anchorSetAct
  repeat' first
    | with_reducible assumption
    | (extract_lets +onlyGivenNames x; refine Keeps.cut (s := s₀) (t := x) ?_ (fun hx => ?_); (on_goal 1 => (unfold x; clear x)); (on_goal 2 => clear_value x))
    | (extract_lets +onlyGivenNames x; refine Keeps.cut2 (s := s₀) (x := x) ?_ (fun hx => ?_); (on_goal 1 => (unfold x; clear x)); (on_goal 2 => clear_value x))
    | (extract_lets +onlyGivenNames x; refine Keeps.cut2 (s := s₀) (x := x.2) ?_ (fun hx => ?_); (on_goal 1 => (unfold x; clear x)); (on_goal 2 => clear_value x))
    | (extract_lets +onlyGivenNames x; (have hv : x = x := by unfold x; exact Eq.refl _); clear hv; clear_value x)
    | with_reducible apply Keeps.ite
    | with_reducible apply Keeps.ite2
    | with_reducible apply State.modNode_keeps
    | with_reducible apply State.extendMs_keeps
    | split
    | (intro _; intros; try beta_reduce)

theorem measExtendAct_keeps {s₀ : State} {i d : Nat} {s : State} (hk : Keeps s₀ s) :
    Keeps s₀ (measExtendAct i d s).2 := by
  unfold measExtendAct
  repeat' first
    | with_reducible assumption
    | with_reducible apply Keeps.ite
    | with_reducible apply Keeps.ite2
    | with_reducible apply State.extendMs_keeps
    | split

theorem measReadAct_keeps {s₀ : State} {s : State} (hk : Keeps s₀ s) :
    Keeps s₀ (measReadAct s).2 := by
  unfold measReadAct
  repeat' first
    | with_reducible assumption
    | (intro _; intros; try beta_reduce)

theorem attestQuoteAct_keeps {s₀ : State} {nonce : Octets} {mask : Nat} {s : State} (hk : Keeps s₀ s) :
    Keeps s₀ (attestQuoteAct nonce mask s).2 := by
  unfold attestQuoteAct
  repeat' first
    | with_reducible assumption
    | (extract_lets +onlyGivenNames x; refine Keeps.cut (s := s₀) (t := x) ?_ (fun hx => ?_); (on_goal 1 => (unfold x; clear x)); (on_goal 2 => clear_value x))
    | (extract_lets +onlyGivenNames x; refine Keeps.cut2 (s := s₀) (x := x) ?_ (fun hx => ?_); (on_goal 1 => (unfold x; clear x)); (on_goal 2 => clear_value x))
    | (extract_lets +onlyGivenNames x; refine Keeps.cut2 (s := s₀) (x := x.2) ?_ (fun hx => ?_); (on_goal 1 => (unfold x; clear x)); (on_goal 2 => clear_value x))
    | (extract_lets +onlyGivenNames x; (have hv : x = x := by unfold x; exact Eq.refl _); clear hv; clear_value x)
    | with_reducible apply Keeps.ite
    | with_reducible apply Keeps.ite2
    | with_reducible apply State.bump_keeps
    | with_reducible apply State.domeResult_keeps
    | split

theorem attestAkCertAct_keeps {s₀ : State} {s : State} (hk : Keeps s₀ s) :
    Keeps s₀ (attestAkCertAct s).2 := by
  unfold attestAkCertAct
  repeat' first
    | with_reducible assumption
    | with_reducible apply Keeps.ite
    | with_reducible apply Keeps.ite2
    | with_reducible apply State.domeResult_keeps
    | split

theorem debugChallengeAct_keeps {s₀ : State} {s : State} (hk : Keeps s₀ s) :
    Keeps s₀ (debugChallengeAct s).2 := by
  unfold debugChallengeAct
  repeat' first
    | with_reducible assumption
    | (dsimp only [Keeps.mk_eq]; with_reducible apply KeepsD.of)
    | (extract_lets +onlyGivenNames x; refine Keeps.cut (s := s₀) (t := x) ?_ (fun hx => ?_); (on_goal 1 => (unfold x; clear x)); (on_goal 2 => clear_value x))
    | (extract_lets +onlyGivenNames x; refine Keeps.cut2 (s := s₀) (x := x) ?_ (fun hx => ?_); (on_goal 1 => (unfold x; clear x)); (on_goal 2 => clear_value x))
    | (extract_lets +onlyGivenNames x; refine Keeps.cut2 (s := s₀) (x := x.2) ?_ (fun hx => ?_); (on_goal 1 => (unfold x; clear x)); (on_goal 2 => clear_value x))
    | (extract_lets +onlyGivenNames x; (have hv : x = x := by unfold x; exact Eq.refl _); clear hv; clear_value x)
    | with_reducible apply State.drawn_keeps

theorem debugChallengeExpiry_keeps {s₀ : State} {s : State} (hk : Keeps s₀ s) :
    Keeps s₀ (debugChallengeExpiry s) := by
  unfold debugChallengeExpiry
  repeat' first
    | with_reducible assumption
    | (dsimp only [Keeps.mk_eq]; with_reducible apply KeepsD.of)
    | (extract_lets +onlyGivenNames x; refine Keeps.cut (s := s₀) (t := x) ?_ (fun hx => ?_); (on_goal 1 => (unfold x; clear x)); (on_goal 2 => clear_value x))
    | (extract_lets +onlyGivenNames x; refine Keeps.cut2 (s := s₀) (x := x) ?_ (fun hx => ?_); (on_goal 1 => (unfold x; clear x)); (on_goal 2 => clear_value x))
    | (extract_lets +onlyGivenNames x; refine Keeps.cut2 (s := s₀) (x := x.2) ?_ (fun hx => ?_); (on_goal 1 => (unfold x; clear x)); (on_goal 2 => clear_value x))
    | (extract_lets +onlyGivenNames x; (have hv : x = x := by unfold x; exact Eq.refl _); clear hv; clear_value x)
    | with_reducible apply State.advanceTo_keeps
    | split

theorem debugPortClose_keeps {s₀ : State} {s : State} (hk : Keeps s₀ s) :
    Keeps s₀ (debugPortClose s) := by
  unfold debugPortClose
  repeat' first
    | with_reducible assumption
    | (dsimp only [Keeps.mk_eq]; with_reducible apply KeepsD.of)
    | with_reducible apply State.setF_keeps

theorem State.debugPins_keeps {s₀ : State} {s : State} {en sel : Bool} (hk : Keeps s₀ s) :
    Keeps s₀ (State.debugPins s en sel) := by
  unfold State.debugPins
  repeat' first
    | with_reducible assumption
    | (dsimp only [Keeps.mk_eq]; with_reducible apply KeepsD.of)
    | (extract_lets +onlyGivenNames x; refine Keeps.cut (s := s₀) (t := x) ?_ (fun hx => ?_); (on_goal 1 => (unfold x; clear x)); (on_goal 2 => clear_value x))
    | (extract_lets +onlyGivenNames x; refine Keeps.cut2 (s := s₀) (x := x) ?_ (fun hx => ?_); (on_goal 1 => (unfold x; clear x)); (on_goal 2 => clear_value x))
    | (extract_lets +onlyGivenNames x; refine Keeps.cut2 (s := s₀) (x := x.2) ?_ (fun hx => ?_); (on_goal 1 => (unfold x; clear x)); (on_goal 2 => clear_value x))
    | (extract_lets +onlyGivenNames x; (have hv : x = x := by unfold x; exact Eq.refl _); clear hv; clear_value x)
    | with_reducible apply Keeps.ite
    | with_reducible apply debugPortClose_keeps
    | split

theorem State.debugOpened_keeps {s₀ : State} {s : State} {token : List Nat} {fuseOk : Bool} (hk : Keeps s₀ s) :
    Keeps s₀ (State.debugOpened s token fuseOk) := by
  unfold State.debugOpened
  repeat' first
    | with_reducible assumption
    | (dsimp only [Keeps.mk_eq]; with_reducible apply KeepsD.of)
    | (extract_lets +onlyGivenNames x; refine Keeps.cut (s := s₀) (t := x) ?_ (fun hx => ?_); (on_goal 1 => (unfold x; clear x)); (on_goal 2 => clear_value x))
    | (extract_lets +onlyGivenNames x; refine Keeps.cut2 (s := s₀) (x := x) ?_ (fun hx => ?_); (on_goal 1 => (unfold x; clear x)); (on_goal 2 => clear_value x))
    | (extract_lets +onlyGivenNames x; refine Keeps.cut2 (s := s₀) (x := x.2) ?_ (fun hx => ?_); (on_goal 1 => (unfold x; clear x)); (on_goal 2 => clear_value x))
    | (extract_lets +onlyGivenNames x; (have hv : x = x := by unfold x; exact Eq.refl _); clear hv; clear_value x)
    | with_reducible apply Keeps.ite
    | with_reducible apply State.destroyNode_keeps
    | with_reducible apply State.setF_keeps
    | with_reducible apply State.tlsCloseAll_keeps
    | with_reducible apply State.extendMs_keeps
    | with_reducible apply State.belfry_keeps
    | split

theorem debugOpenAct_keeps {s₀ : State} {enMs : Option Nat} {sel : Bool} {token : List Nat} {challenge fp sig signer : Nat} {fuseOk : Bool} {s : State} (hk : Keeps s₀ s) :
    Keeps s₀ (debugOpenAct enMs sel token challenge fp sig signer fuseOk s).2 := by
  unfold debugOpenAct
  repeat' first
    | with_reducible assumption
    | (dsimp only [Keeps.mk_eq]; with_reducible apply KeepsD.of)
    | (extract_lets +onlyGivenNames x; refine Keeps.cut (s := s₀) (t := x) ?_ (fun hx => ?_); (on_goal 1 => (unfold x; clear x)); (on_goal 2 => clear_value x))
    | (extract_lets +onlyGivenNames x; refine Keeps.cut2 (s := s₀) (x := x) ?_ (fun hx => ?_); (on_goal 1 => (unfold x; clear x)); (on_goal 2 => clear_value x))
    | (extract_lets +onlyGivenNames x; refine Keeps.cut2 (s := s₀) (x := x.2) ?_ (fun hx => ?_); (on_goal 1 => (unfold x; clear x)); (on_goal 2 => clear_value x))
    | (extract_lets +onlyGivenNames x; (have hv : x = x := by unfold x; exact Eq.refl _); clear hv; clear_value x)
    | with_reducible apply Keeps.ite
    | with_reducible apply Keeps.ite2
    | with_reducible apply State.debugPins_keeps
    | with_reducible apply State.keysFollow_keeps
    | with_reducible apply State.debugOpened_keeps
    | with_reducible apply State.bump_keeps
    | with_reducible apply State.evalReady_keeps
    | split
    | (intro _; intros; try beta_reduce)

theorem execDomeRestart_keeps {s₀ : State} {tries : List (List PufBlock)} {s : State} (hk : Keeps s₀ s) :
    KeepsR s₀ (execDomeRestart tries s) := by
  exact KeepsR.next (domeRestart_keeps hk)

theorem execKeySweepDone_keeps {s₀ : State} {s : State} (hk : Keeps s₀ s) :
    KeepsR s₀ (execKeySweepDone s) := by
  exact KeepsR.next (keySweepDone_keeps hk)

theorem execKeyActivate_keeps {s₀ : State} {node : Nat} {s : State} (hk : Keeps s₀ s) :
    KeepsR s₀ (execKeyActivate node s) := by
  exact KeepsR.next (keyActivate_keeps hk)

theorem execKeyExpire_keeps {s₀ : State} {node : Nat} {s : State} (hk : Keeps s₀ s) :
    KeepsR s₀ (execKeyExpire node s) := by
  exact KeepsR.next (keyExpire_keeps hk)

theorem execDebugChallengeExpiry_keeps {s₀ : State} {s : State} (hk : Keeps s₀ s) :
    KeepsR s₀ (execDebugChallengeExpiry s) := by
  exact KeepsR.next (debugChallengeExpiry_keeps hk)

theorem execDebugPortClose_keeps {s₀ : State} {s : State} (hk : Keeps s₀ s) :
    KeepsR s₀ (execDebugPortClose s) := by
  exact KeepsR.next (debugPortClose_keeps hk)

theorem execDomStatus_keeps {s₀ : State} {q : Req} {clear : Bool} {s : State} (hk : Keeps s₀ s) :
    KeepsR s₀ (execDomStatus q clear s) := by
  exact State.patchaif_keeps hk (fun _ h => domStatusAct_keeps h)

theorem execDomIdentity_keeps {s₀ : State} {q : Req} {s : State} (hk : Keeps s₀ s) :
    KeepsR s₀ (execDomIdentity q s) := by
  exact State.security_keeps hk (fun _ h => domIdentityAct_keeps h)

theorem execKeyCreate_keeps {s₀ : State} {q : Req} {node kind parent : Nat} {s : State} (hk : Keeps s₀ s) :
    KeepsR s₀ (execKeyCreate q node kind parent s) := by
  exact State.security_keeps hk (fun _ h => keyCreateAct_keeps h)

theorem execKeyDestroy_keeps {s₀ : State} {q : Req} {node : Nat} {s : State} (hk : Keeps s₀ s) :
    KeepsR s₀ (execKeyDestroy q node s) := by
  exact State.security_keeps hk (fun _ h => keyDestroyAct_keeps h)

theorem execKeyPut_keeps {s₀ : State} {q : Req} {fmt : KeyForm} {transport : Nat} {map : List (Nat × Nat)} {blob : SealedKeys} {algOk : Bool} {keys : List KeyBlob} {s : State} (hk : Keeps s₀ s) :
    KeepsR s₀ (execKeyPut q fmt transport map blob algOk keys s) := by
  exact State.security_keeps hk (fun _ h => keyPutAct_keeps h)

theorem execKeyAgree_keeps {s₀ : State} {q : Req} {node signer peer : Nat} {info : List Nat} {s : State} (hk : Keeps s₀ s) :
    KeepsR s₀ (execKeyAgree q node signer peer info s) := by
  exact State.security_keeps hk (fun _ h => keyAgreeAct_keeps h)

theorem execKeyInfo_keeps {s₀ : State} {q : Req} {node : Nat} {s : State} (hk : Keeps s₀ s) :
    KeepsR s₀ (execKeyInfo q node s) := by
  exact State.security_keeps hk (fun _ h => keyInfoAct_keeps h)

theorem execAnchorSet_keeps {s₀ : State} {q : Req} {node pub usage : Nat} {stmt : List Nat} {sig : Nat} {s : State} (hk : Keeps s₀ s) :
    KeepsR s₀ (execAnchorSet q node pub usage stmt sig s) := by
  exact State.security_keeps hk (fun _ h => anchorSetAct_keeps h)

theorem execMeasExtend_keeps {s₀ : State} {q : Req} {slot digest : Nat} {s : State} (hk : Keeps s₀ s) :
    KeepsR s₀ (execMeasExtend q slot digest s) := by
  exact State.security_keeps hk (fun _ h => measExtendAct_keeps h)

theorem execMeasRead_keeps {s₀ : State} {q : Req} {s : State} (hk : Keeps s₀ s) :
    KeepsR s₀ (execMeasRead q s) := by
  exact State.patchaif_keeps hk (fun _ h => measReadAct_keeps h)

theorem execAttestQuote_keeps {s₀ : State} {q : Req} {nonce : Octets} {mask : Nat} {s : State} (hk : Keeps s₀ s) :
    KeepsR s₀ (execAttestQuote q nonce mask s) := by
  exact State.security_keeps hk (fun _ h => attestQuoteAct_keeps h)

theorem execAttestAkCert_keeps {s₀ : State} {q : Req} {s : State} (hk : Keeps s₀ s) :
    KeepsR s₀ (execAttestAkCert q s) := by
  exact State.security_keeps hk (fun _ h => attestAkCertAct_keeps h)

theorem execDebugChallenge_keeps {s₀ : State} {q : Req} {s : State} (hk : Keeps s₀ s) :
    KeepsR s₀ (execDebugChallenge q s) := by
  exact State.security_keeps hk (fun _ h => debugChallengeAct_keeps h)

theorem execDebugOpen_keeps {s₀ : State} {q : Req} {enMs : Option Nat} {sel : Bool} {token : List Nat} {challenge dikFp sig signer : Nat} {fuseOk : Bool} {s : State} (hk : Keeps s₀ s) :
    KeepsR s₀ (execDebugOpen q enMs sel token challenge dikFp sig signer fuseOk s) := by
  exact State.security_keeps hk (fun _ h => debugOpenAct_keeps h)

/-! ### Health -/

theorem State.phmBump_keeps {s₀ : State} {s : State} {n : Nat} (hk : Keeps s₀ s) :
    Keeps s₀ (State.phmBump s n) := by
  unfold State.phmBump
  repeat' first
    | with_reducible assumption
    | with_reducible apply State.bump_keeps

theorem State.modHlt_keeps {s₀ : State} {s : State} {f : Health → Health} (hk : Keeps s₀ s) :
    Keeps s₀ (State.modHlt s f) := by
  unfold State.modHlt
  repeat' first
    | with_reducible assumption
    | (dsimp only [Keeps.mk_eq]; with_reducible apply KeepsD.of)

theorem State.corrected_keeps {s₀ : State} {s : State} (hk : Keeps s₀ s) :
    Keeps s₀ (State.corrected s) := by
  unfold State.corrected
  repeat' first
    | with_reducible assumption
    | (dsimp only [Keeps.mk_eq]; with_reducible apply KeepsD.of)
    | with_reducible apply State.modHlt_keeps
    | (intro _; intros; try beta_reduce)

theorem State.poison_keeps {s₀ : State} {s : State} {a : Nat} (hk : Keeps s₀ s) :
    Keeps s₀ (State.poison s a) := by
  unfold State.poison
  repeat' first
    | with_reducible assumption
    | (dsimp only [Keeps.mk_eq]; with_reducible apply KeepsD.of)
    | with_reducible apply State.modHlt_keeps
    | (intro _; intros; try beta_reduce)

theorem State.scrubWord_keeps {s₀ : State} {s : State} {mem : ScrubMem} {addr : Nat} {find : ScrubFind} (hk : Keeps s₀ s) :
    Keeps s₀ (State.scrubWord s mem addr find) := by
  unfold State.scrubWord
  repeat' first
    | with_reducible assumption
    | (dsimp only [Keeps.mk_eq]; with_reducible apply KeepsD.of)
    | (extract_lets +onlyGivenNames x; refine Keeps.cut (s := s₀) (t := x) ?_ (fun hx => ?_); (on_goal 1 => (unfold x; clear x)); (on_goal 2 => clear_value x))
    | (extract_lets +onlyGivenNames x; refine Keeps.cut2 (s := s₀) (x := x) ?_ (fun hx => ?_); (on_goal 1 => (unfold x; clear x)); (on_goal 2 => clear_value x))
    | (extract_lets +onlyGivenNames x; refine Keeps.cut2 (s := s₀) (x := x.2) ?_ (fun hx => ?_); (on_goal 1 => (unfold x; clear x)); (on_goal 2 => clear_value x))
    | (extract_lets +onlyGivenNames x; (have hv : x = x := by unfold x; exact Eq.refl _); clear hv; clear_value x)
    | with_reducible apply State.bump_keeps
    | with_reducible apply State.phmBump_keeps
    | with_reducible apply State.poison_keeps
    | with_reducible apply State.corrected_keeps
    | with_reducible apply State.setF_keeps
    | with_reducible apply State.belfry_keeps
    | split
    | (intro _; intros; try beta_reduce)

theorem scrubPass_keeps {s₀ : State} {mem : ScrubMem} {addr : Nat} {find : ScrubFind} {passEnd : Bool} {s : State} (hk : Keeps s₀ s) :
    Keeps s₀ (scrubPass mem addr find passEnd s) := by
  unfold scrubPass
  repeat' first
    | with_reducible assumption
    | (extract_lets +onlyGivenNames x; refine Keeps.cut (s := s₀) (t := x) ?_ (fun hx => ?_); (on_goal 1 => (unfold x; clear x)); (on_goal 2 => clear_value x))
    | (extract_lets +onlyGivenNames x; refine Keeps.cut2 (s := s₀) (x := x) ?_ (fun hx => ?_); (on_goal 1 => (unfold x; clear x)); (on_goal 2 => clear_value x))
    | (extract_lets +onlyGivenNames x; refine Keeps.cut2 (s := s₀) (x := x.2) ?_ (fun hx => ?_); (on_goal 1 => (unfold x; clear x)); (on_goal 2 => clear_value x))
    | (extract_lets +onlyGivenNames x; (have hv : x = x := by unfold x; exact Eq.refl _); clear hv; clear_value x)
    | with_reducible apply Keeps.ite
    | with_reducible apply State.scrubWord_keeps
    | with_reducible apply State.phmBump_keeps
    | split

theorem State.showFlash_keeps {s₀ : State} {s : State} (hk : Keeps s₀ s) :
    Keeps s₀ (State.showFlash s) := by
  unfold State.showFlash
  repeat' first
    | with_reducible assumption
    | (extract_lets +onlyGivenNames x; refine Keeps.cut (s := s₀) (t := x) ?_ (fun hx => ?_); (on_goal 1 => (unfold x; clear x)); (on_goal 2 => clear_value x))
    | (extract_lets +onlyGivenNames x; refine Keeps.cut2 (s := s₀) (x := x) ?_ (fun hx => ?_); (on_goal 1 => (unfold x; clear x)); (on_goal 2 => clear_value x))
    | (extract_lets +onlyGivenNames x; refine Keeps.cut2 (s := s₀) (x := x.2) ?_ (fun hx => ?_); (on_goal 1 => (unfold x; clear x)); (on_goal 2 => clear_value x))
    | (extract_lets +onlyGivenNames x; (have hv : x = x := by unfold x; exact Eq.refl _); clear hv; clear_value x)
    | with_reducible apply State.setF_keeps
    | with_reducible apply State.setB_keeps
    | with_reducible apply Keeps.foldl
    | with_reducible apply Keeps.foldl2
    | (intro _; intros; try beta_reduce)

theorem State.flashWrite_keeps {s₀ : State} {s : State} (hk : Keeps s₀ s) :
    Keeps s₀ (State.flashWrite s) := by
  unfold State.flashWrite
  repeat' first
    | with_reducible assumption
    | with_reducible apply Keeps.ite
    | with_reducible apply State.setF_keeps
    | split

theorem State.slotWrite_keeps {s₀ : State} {s : State} {f : Tmc → Tmc} (hk : Keeps s₀ s) :
    Keeps s₀ (State.slotWrite s f) := by
  unfold State.slotWrite
  repeat' first
    | with_reducible assumption
    | (dsimp only [Keeps.mk_eq]; with_reducible apply KeepsD.of)
    | (extract_lets +onlyGivenNames x; refine Keeps.cut (s := s₀) (t := x) ?_ (fun hx => ?_); (on_goal 1 => (unfold x; clear x)); (on_goal 2 => clear_value x))
    | (extract_lets +onlyGivenNames x; refine Keeps.cut2 (s := s₀) (x := x) ?_ (fun hx => ?_); (on_goal 1 => (unfold x; clear x)); (on_goal 2 => clear_value x))
    | (extract_lets +onlyGivenNames x; refine Keeps.cut2 (s := s₀) (x := x.2) ?_ (fun hx => ?_); (on_goal 1 => (unfold x; clear x)); (on_goal 2 => clear_value x))
    | (extract_lets +onlyGivenNames x; (have hv : x = x := by unfold x; exact Eq.refl _); clear hv; clear_value x)
    | with_reducible apply Keeps.ite
    | with_reducible apply State.flashWrite_keeps
    | split

theorem State.eraseBlock_keeps {s₀ : State} {s : State} {b : Nat} (hk : Keeps s₀ s) :
    Keeps s₀ (State.eraseBlock s b) := by
  unfold State.eraseBlock
  repeat' first
    | with_reducible assumption
    | (dsimp only [Keeps.mk_eq]; with_reducible apply KeepsD.of)
    | with_reducible apply State.modHlt_keeps
    | (intro _; intros; try beta_reduce)

theorem flashRefresh_keeps {s₀ : State} {b corrections : Nat} {failed : Bool} {s : State} (hk : Keeps s₀ s) :
    Keeps s₀ (flashRefresh b corrections failed s) := by
  unfold flashRefresh
  repeat' first
    | with_reducible assumption
    | (dsimp only [Keeps.mk_eq]; with_reducible apply KeepsD.of)
    | with_reducible apply Keeps.ite
    | with_reducible apply State.modHlt_keeps
    | with_reducible apply State.eraseBlock_keeps
    | with_reducible apply State.showFlash_keeps
    | with_reducible apply State.belfry_keeps
    | with_reducible apply State.drawn_keeps
    | split
    | (intro _; intros; try beta_reduce)

theorem State.extreme_keeps {s₀ : State} {s : State} {q w : Nat} {mx : Bool} {v last : Int} (hk : Keeps s₀ s) :
    Keeps s₀ (State.extreme s q w mx v last) := by
  unfold State.extreme
  repeat' first
    | with_reducible assumption
    | (dsimp only [Keeps.mk_eq]; with_reducible apply KeepsD.of)
    | (extract_lets +onlyGivenNames x; refine Keeps.cut (s := s₀) (t := x) ?_ (fun hx => ?_); (on_goal 1 => (unfold x; clear x)); (on_goal 2 => clear_value x))
    | (extract_lets +onlyGivenNames x; refine Keeps.cut2 (s := s₀) (x := x) ?_ (fun hx => ?_); (on_goal 1 => (unfold x; clear x)); (on_goal 2 => clear_value x))
    | (extract_lets +onlyGivenNames x; refine Keeps.cut2 (s := s₀) (x := x.2) ?_ (fun hx => ?_); (on_goal 1 => (unfold x; clear x)); (on_goal 2 => clear_value x))
    | (extract_lets +onlyGivenNames x; (have hv : x = x := by unfold x; exact Eq.refl _); clear hv; clear_value x)
    | with_reducible apply Keeps.ite
    | with_reducible apply State.wr64_keeps
    | with_reducible apply State.modHlt_keeps
    | with_reducible apply State.belfry_keeps
    | with_reducible apply State.bump_keeps
    | split
    | (intro _; intros; try beta_reduce)

theorem State.telemOne_keeps {s₀ : State} {s : State} {q : Nat} {v : Int} (hk : Keeps s₀ s) :
    Keeps s₀ (State.telemOne s q v) := by
  unfold State.telemOne
  repeat' first
    | with_reducible assumption
    | (dsimp only [Keeps.mk_eq]; with_reducible apply KeepsD.of)
    | (extract_lets +onlyGivenNames x; refine Keeps.cut (s := s₀) (t := x) ?_ (fun hx => ?_); (on_goal 1 => (unfold x; clear x)); (on_goal 2 => clear_value x))
    | (extract_lets +onlyGivenNames x; refine Keeps.cut2 (s := s₀) (x := x) ?_ (fun hx => ?_); (on_goal 1 => (unfold x; clear x)); (on_goal 2 => clear_value x))
    | (extract_lets +onlyGivenNames x; refine Keeps.cut2 (s := s₀) (x := x.2) ?_ (fun hx => ?_); (on_goal 1 => (unfold x; clear x)); (on_goal 2 => clear_value x))
    | (extract_lets +onlyGivenNames x; refine Keeps.cutF1 (s := s₀) (f := x) ?_ (fun kx => ?_); (on_goal 1 => (unfold x; clear x; intros; beta_reduce)); (on_goal 2 => clear_value x))
    | (extract_lets +onlyGivenNames x; refine Keeps.cutF2 (s := s₀) (f := x) ?_ (fun kx => ?_); (on_goal 1 => (unfold x; clear x; intros; beta_reduce)); (on_goal 2 => clear_value x))
    | (extract_lets +onlyGivenNames x; refine Keeps.cutG2 (s := s₀) (f := x) ?_ (fun kx => ?_); (on_goal 1 => (unfold x; clear x; intros; beta_reduce)); (on_goal 2 => clear_value x))
    | (extract_lets +onlyGivenNames x; refine Keeps.cutF3 (s := s₀) (f := x) ?_ (fun kx => ?_); (on_goal 1 => (unfold x; clear x; intros; beta_reduce)); (on_goal 2 => clear_value x))
    | (extract_lets +onlyGivenNames x; refine Keeps.cutF4 (s := s₀) (f := x) ?_ (fun kx => ?_); (on_goal 1 => (unfold x; clear x; intros; beta_reduce)); (on_goal 2 => clear_value x))
    | (extract_lets +onlyGivenNames x; (have hv : x = x := by unfold x; exact Eq.refl _); clear hv; clear_value x)
    | with_reducible apply Keeps.ite
    | with_reducible apply State.setF_keeps
    | with_reducible apply State.modHlt_keeps
    | with_reducible apply State.extreme_keeps
    | apply kx
    | split
    | (intro _; intros; try beta_reduce)

theorem State.trackCool_keeps {s₀ : State} {s : State} {plate : Int} (hk : Keeps s₀ s) :
    Keeps s₀ (State.trackCool s plate) := by
  unfold State.trackCool
  repeat' first
    | with_reducible assumption
    | (dsimp only [Keeps.mk_eq]; with_reducible apply KeepsD.of)
    | (extract_lets +onlyGivenNames x; refine Keeps.cut (s := s₀) (t := x) ?_ (fun hx => ?_); (on_goal 1 => (unfold x; clear x)); (on_goal 2 => clear_value x))
    | (extract_lets +onlyGivenNames x; refine Keeps.cut2 (s := s₀) (x := x) ?_ (fun hx => ?_); (on_goal 1 => (unfold x; clear x)); (on_goal 2 => clear_value x))
    | (extract_lets +onlyGivenNames x; refine Keeps.cut2 (s := s₀) (x := x.2) ?_ (fun hx => ?_); (on_goal 1 => (unfold x; clear x)); (on_goal 2 => clear_value x))
    | (extract_lets +onlyGivenNames x; (have hv : x = x := by unfold x; exact Eq.refl _); clear hv; clear_value x)
    | with_reducible apply Keeps.ite
    | with_reducible apply State.modHlt_keeps
    | split
    | (intro _; intros; try beta_reduce)

theorem telemetrySample_keeps {s₀ : State} {vals : List Int} {s : State} (hk : Keeps s₀ s) :
    Keeps s₀ (telemetrySample vals s) := by
  unfold telemetrySample
  repeat' first
    | with_reducible assumption
    | (dsimp only [Keeps.mk_eq]; with_reducible apply KeepsD.of)
    | (extract_lets +onlyGivenNames x; refine Keeps.cut (s := s₀) (t := x) ?_ (fun hx => ?_); (on_goal 1 => (unfold x; clear x)); (on_goal 2 => clear_value x))
    | (extract_lets +onlyGivenNames x; refine Keeps.cut2 (s := s₀) (x := x) ?_ (fun hx => ?_); (on_goal 1 => (unfold x; clear x)); (on_goal 2 => clear_value x))
    | (extract_lets +onlyGivenNames x; refine Keeps.cut2 (s := s₀) (x := x.2) ?_ (fun hx => ?_); (on_goal 1 => (unfold x; clear x)); (on_goal 2 => clear_value x))
    | (extract_lets +onlyGivenNames x; (have hv : x = x := by unfold x; exact Eq.refl _); clear hv; clear_value x)
    | with_reducible apply Keeps.ite
    | with_reducible apply State.openDiv_keeps
    | with_reducible apply State.telemOne_keeps
    | with_reducible apply State.trackCool_keeps
    | with_reducible apply State.tdcKeep_keeps
    | with_reducible apply Keeps.foldl
    | with_reducible apply Keeps.foldl2
    | split
    | (intro _; intros; try beta_reduce)

theorem State.histOne_keeps {s₀ : State} {s : State} {q : Nat} (hk : Keeps s₀ s) :
    Keeps s₀ (State.histOne s q) := by
  unfold State.histOne
  repeat' first
    | with_reducible assumption
    | (dsimp only [Keeps.mk_eq]; with_reducible apply KeepsD.of)
    | (extract_lets +onlyGivenNames x; refine Keeps.cut (s := s₀) (t := x) ?_ (fun hx => ?_); (on_goal 1 => (unfold x; clear x)); (on_goal 2 => clear_value x))
    | (extract_lets +onlyGivenNames x; refine Keeps.cut2 (s := s₀) (x := x) ?_ (fun hx => ?_); (on_goal 1 => (unfold x; clear x)); (on_goal 2 => clear_value x))
    | (extract_lets +onlyGivenNames x; refine Keeps.cut2 (s := s₀) (x := x.2) ?_ (fun hx => ?_); (on_goal 1 => (unfold x; clear x)); (on_goal 2 => clear_value x))
    | (extract_lets +onlyGivenNames x; refine Keeps.cutF1 (s := s₀) (f := x) ?_ (fun kx => ?_); (on_goal 1 => (unfold x; clear x; intros; beta_reduce)); (on_goal 2 => clear_value x))
    | (extract_lets +onlyGivenNames x; refine Keeps.cutF2 (s := s₀) (f := x) ?_ (fun kx => ?_); (on_goal 1 => (unfold x; clear x; intros; beta_reduce)); (on_goal 2 => clear_value x))
    | (extract_lets +onlyGivenNames x; refine Keeps.cutG2 (s := s₀) (f := x) ?_ (fun kx => ?_); (on_goal 1 => (unfold x; clear x; intros; beta_reduce)); (on_goal 2 => clear_value x))
    | (extract_lets +onlyGivenNames x; refine Keeps.cutF3 (s := s₀) (f := x) ?_ (fun kx => ?_); (on_goal 1 => (unfold x; clear x; intros; beta_reduce)); (on_goal 2 => clear_value x))
    | (extract_lets +onlyGivenNames x; refine Keeps.cutF4 (s := s₀) (f := x) ?_ (fun kx => ?_); (on_goal 1 => (unfold x; clear x; intros; beta_reduce)); (on_goal 2 => clear_value x))
    | (extract_lets +onlyGivenNames x; (have hv : x = x := by unfold x; exact Eq.refl _); clear hv; clear_value x)
    | with_reducible apply Keeps.ite
    | with_reducible apply State.wr64_keeps
    | with_reducible apply State.modHlt_keeps
    | apply kx
    | split
    | (intro _; intros; try beta_reduce)

theorem State.archiveMinute_keeps {s₀ : State} {s : State} (hk : Keeps s₀ s) :
    Keeps s₀ (State.archiveMinute s) := by
  unfold State.archiveMinute
  repeat' first
    | with_reducible assumption
    | (dsimp only [Keeps.mk_eq]; with_reducible apply KeepsD.of)
    | (extract_lets +onlyGivenNames x; refine Keeps.cut (s := s₀) (t := x) ?_ (fun hx => ?_); (on_goal 1 => (unfold x; clear x)); (on_goal 2 => clear_value x))
    | (extract_lets +onlyGivenNames x; refine Keeps.cut2 (s := s₀) (x := x) ?_ (fun hx => ?_); (on_goal 1 => (unfold x; clear x)); (on_goal 2 => clear_value x))
    | (extract_lets +onlyGivenNames x; refine Keeps.cut2 (s := s₀) (x := x.2) ?_ (fun hx => ?_); (on_goal 1 => (unfold x; clear x)); (on_goal 2 => clear_value x))
    | (extract_lets +onlyGivenNames x; (have hv : x = x := by unfold x; exact Eq.refl _); clear hv; clear_value x)
    | with_reducible apply Keeps.ite
    | with_reducible apply State.openDiv_keeps
    | with_reducible apply State.modHlt_keeps
    | with_reducible apply Keeps.foldl
    | with_reducible apply Keeps.foldl2
    | split
    | (intro _; intros; try beta_reduce)

theorem histogramUpdate_keeps {s₀ : State} {s : State} (hk : Keeps s₀ s) :
    Keeps s₀ (histogramUpdate s) := by
  unfold histogramUpdate
  repeat' first
    | with_reducible assumption
    | (dsimp only [Keeps.mk_eq]; with_reducible apply KeepsD.of)
    | (extract_lets +onlyGivenNames x; refine Keeps.cut (s := s₀) (t := x) ?_ (fun hx => ?_); (on_goal 1 => (unfold x; clear x)); (on_goal 2 => clear_value x))
    | (extract_lets +onlyGivenNames x; refine Keeps.cut2 (s := s₀) (x := x) ?_ (fun hx => ?_); (on_goal 1 => (unfold x; clear x)); (on_goal 2 => clear_value x))
    | (extract_lets +onlyGivenNames x; refine Keeps.cut2 (s := s₀) (x := x.2) ?_ (fun hx => ?_); (on_goal 1 => (unfold x; clear x)); (on_goal 2 => clear_value x))
    | (extract_lets +onlyGivenNames x; (have hv : x = x := by unfold x; exact Eq.refl _); clear hv; clear_value x)
    | with_reducible apply Keeps.ite
    | with_reducible apply State.histOne_keeps
    | with_reducible apply State.modHlt_keeps
    | with_reducible apply State.archiveMinute_keeps
    | with_reducible apply Keeps.forN
    | split
    | (intro _; intros; try beta_reduce)

theorem State.slack_keeps {s₀ : State} {s : State} {g n vcore : Nat} {tdie : Int} (hk : Keeps s₀ s) :
    Keeps s₀ (State.slack s g n vcore tdie).2 := by
  unfold State.slack
  repeat' first
    | with_reducible assumption
    | with_reducible apply State.openDiv_keeps

theorem State.gaugeDone_keeps {s₀ : State} {s : State} {g n vcore : Nat} {tdie : Int} {day : Nat} (hk : Keeps s₀ s) :
    Keeps s₀ (State.gaugeDone s g n vcore tdie day) := by
  unfold State.gaugeDone
  repeat' first
    | with_reducible assumption
    | (dsimp only [Keeps.mk_eq]; with_reducible apply KeepsD.of)
    | (extract_lets +onlyGivenNames x; refine Keeps.cut (s := s₀) (t := x) ?_ (fun hx => ?_); (on_goal 1 => (unfold x; clear x)); (on_goal 2 => clear_value x))
    | (extract_lets +onlyGivenNames x; refine Keeps.cut2 (s := s₀) (x := x) ?_ (fun hx => ?_); (on_goal 1 => (unfold x; clear x)); (on_goal 2 => clear_value x))
    | (extract_lets +onlyGivenNames x; refine Keeps.cut2 (s := s₀) (x := x.2) ?_ (fun hx => ?_); (on_goal 1 => (unfold x; clear x)); (on_goal 2 => clear_value x))
    | (extract_lets +onlyGivenNames x; (have hv : x = x := by unfold x; exact Eq.refl _); clear hv; clear_value x)
    | with_reducible apply State.slack_keeps
    | with_reducible apply State.openDiv_keeps
    | with_reducible apply State.wr64_keeps
    | with_reducible apply State.modHlt_keeps
    | with_reducible apply State.setI_keeps
    | with_reducible apply State.setF_keeps
    | (intro _; intros; try beta_reduce)

theorem State.project_keeps {s₀ : State} {s : State} {day : Nat} (hk : Keeps s₀ s) :
    Keeps s₀ (State.project s day) := by
  unfold State.project
  repeat' first
    | with_reducible assumption
    | (dsimp only [Keeps.mk_eq]; with_reducible apply KeepsD.of)
    | (extract_lets +onlyGivenNames x; refine Keeps.cut (s := s₀) (t := x) ?_ (fun hx => ?_); (on_goal 1 => (unfold x; clear x)); (on_goal 2 => clear_value x))
    | (extract_lets +onlyGivenNames x; refine Keeps.cut2 (s := s₀) (x := x) ?_ (fun hx => ?_); (on_goal 1 => (unfold x; clear x)); (on_goal 2 => clear_value x))
    | (extract_lets +onlyGivenNames x; refine Keeps.cut2 (s := s₀) (x := x.2) ?_ (fun hx => ?_); (on_goal 1 => (unfold x; clear x)); (on_goal 2 => clear_value x))
    | (extract_lets +onlyGivenNames x; (have hv : x = x := by unfold x; exact Eq.refl _); clear hv; clear_value x)
    | with_reducible apply State.setF_keeps
    | with_reducible apply State.openDiv_keeps
    | split

theorem State.planVcore_keeps {s₀ : State} {s : State} (hk : Keeps s₀ s) :
    Keeps s₀ (State.planVcore s) := by
  unfold State.planVcore
  repeat' first
    | with_reducible assumption
    | (dsimp only [Keeps.mk_eq]; with_reducible apply KeepsD.of)
    | (extract_lets +onlyGivenNames x; refine Keeps.cut (s := s₀) (t := x) ?_ (fun hx => ?_); (on_goal 1 => (unfold x; clear x)); (on_goal 2 => clear_value x))
    | (extract_lets +onlyGivenNames x; refine Keeps.cut2 (s := s₀) (x := x) ?_ (fun hx => ?_); (on_goal 1 => (unfold x; clear x)); (on_goal 2 => clear_value x))
    | (extract_lets +onlyGivenNames x; refine Keeps.cut2 (s := s₀) (x := x.2) ?_ (fun hx => ?_); (on_goal 1 => (unfold x; clear x)); (on_goal 2 => clear_value x))
    | (extract_lets +onlyGivenNames x; (have hv : x = x := by unfold x; exact Eq.refl _); clear hv; clear_value x)
    | with_reducible apply Keeps.ite
    | with_reducible apply State.setF_keeps
    | with_reducible apply State.modHlt_keeps
    | with_reducible apply State.phmBump_keeps
    | with_reducible apply State.belfry_keeps
    | split
    | (intro _; intros; try beta_reduce)

theorem State.exhausted_keeps {s₀ : State} {s : State} (hk : Keeps s₀ s) :
    Keeps s₀ (State.exhausted s) := by
  unfold State.exhausted
  repeat' first
    | with_reducible assumption
    | (dsimp only [Keeps.mk_eq]; with_reducible apply KeepsD.of)
    | with_reducible apply Keeps.ite
    | with_reducible apply State.setF_keeps
    | with_reducible apply State.belfry_keeps
    | split
    | (intro _; intros; try beta_reduce)

theorem State.coreStep_keeps {s₀ : State} {s : State} {cause : Nat} (hk : Keeps s₀ s) :
    Keeps s₀ (State.coreStep s cause) := by
  unfold State.coreStep
  repeat' first
    | with_reducible assumption
    | (dsimp only [Keeps.mk_eq]; with_reducible apply KeepsD.of)
    | (extract_lets +onlyGivenNames x; refine Keeps.cut (s := s₀) (t := x) ?_ (fun hx => ?_); (on_goal 1 => (unfold x; clear x)); (on_goal 2 => clear_value x))
    | (extract_lets +onlyGivenNames x; refine Keeps.cut2 (s := s₀) (x := x) ?_ (fun hx => ?_); (on_goal 1 => (unfold x; clear x)); (on_goal 2 => clear_value x))
    | (extract_lets +onlyGivenNames x; refine Keeps.cut2 (s := s₀) (x := x.2) ?_ (fun hx => ?_); (on_goal 1 => (unfold x; clear x)); (on_goal 2 => clear_value x))
    | (extract_lets +onlyGivenNames x; (have hv : x = x := by unfold x; exact Eq.refl _); clear hv; clear_value x)
    | with_reducible apply Keeps.ite
    | with_reducible apply State.advanceTo_keeps
    | with_reducible apply State.modHlt_keeps
    | with_reducible apply State.setF_keeps
    | with_reducible apply State.belfry_keeps
    | split
    | (intro _; intros; try beta_reduce)

theorem State.ageStep_keeps {s₀ : State} {s : State} (hk : Keeps s₀ s) :
    Keeps s₀ (State.ageStep s) := by
  unfold State.ageStep
  repeat' first
    | with_reducible assumption
    | (dsimp only [Keeps.mk_eq]; with_reducible apply KeepsD.of)
    | (extract_lets +onlyGivenNames x; refine Keeps.cut (s := s₀) (t := x) ?_ (fun hx => ?_); (on_goal 1 => (unfold x; clear x)); (on_goal 2 => clear_value x))
    | (extract_lets +onlyGivenNames x; refine Keeps.cut2 (s := s₀) (x := x) ?_ (fun hx => ?_); (on_goal 1 => (unfold x; clear x)); (on_goal 2 => clear_value x))
    | (extract_lets +onlyGivenNames x; refine Keeps.cut2 (s := s₀) (x := x.2) ?_ (fun hx => ?_); (on_goal 1 => (unfold x; clear x)); (on_goal 2 => clear_value x))
    | (extract_lets +onlyGivenNames x; refine Keeps.cutF1 (s := s₀) (f := x) ?_ (fun kx => ?_); (on_goal 1 => (unfold x; clear x; intros; beta_reduce)); (on_goal 2 => clear_value x))
    | (extract_lets +onlyGivenNames x; refine Keeps.cutF2 (s := s₀) (f := x) ?_ (fun kx => ?_); (on_goal 1 => (unfold x; clear x; intros; beta_reduce)); (on_goal 2 => clear_value x))
    | (extract_lets +onlyGivenNames x; refine Keeps.cutG2 (s := s₀) (f := x) ?_ (fun kx => ?_); (on_goal 1 => (unfold x; clear x; intros; beta_reduce)); (on_goal 2 => clear_value x))
    | (extract_lets +onlyGivenNames x; refine Keeps.cutF3 (s := s₀) (f := x) ?_ (fun kx => ?_); (on_goal 1 => (unfold x; clear x; intros; beta_reduce)); (on_goal 2 => clear_value x))
    | (extract_lets +onlyGivenNames x; refine Keeps.cutF4 (s := s₀) (f := x) ?_ (fun kx => ?_); (on_goal 1 => (unfold x; clear x; intros; beta_reduce)); (on_goal 2 => clear_value x))
    | (extract_lets +onlyGivenNames x; (have hv : x = x := by unfold x; exact Eq.refl _); clear hv; clear_value x)
    | with_reducible apply State.modHlt_keeps
    | with_reducible apply State.setF_keeps
    | with_reducible apply State.coreStep_keeps
    | apply kx
    | (intro _; intros; try beta_reduce)

theorem State.startMeasure_keeps {s₀ : State} {s : State} {byCmd : Bool} {day : Nat} (hk : Keeps s₀ s) :
    Keeps s₀ (State.startMeasure s byCmd day) := by
  unfold State.startMeasure
  repeat' first
    | with_reducible assumption
    | (dsimp only [Keeps.mk_eq]; with_reducible apply KeepsD.of)
    | (extract_lets +onlyGivenNames x; refine Keeps.cut (s := s₀) (t := x) ?_ (fun hx => ?_); (on_goal 1 => (unfold x; clear x)); (on_goal 2 => clear_value x))
    | (extract_lets +onlyGivenNames x; refine Keeps.cut2 (s := s₀) (x := x) ?_ (fun hx => ?_); (on_goal 1 => (unfold x; clear x)); (on_goal 2 => clear_value x))
    | (extract_lets +onlyGivenNames x; refine Keeps.cut2 (s := s₀) (x := x.2) ?_ (fun hx => ?_); (on_goal 1 => (unfold x; clear x)); (on_goal 2 => clear_value x))
    | (extract_lets +onlyGivenNames x; (have hv : x = x := by unfold x; exact Eq.refl _); clear hv; clear_value x)
    | with_reducible apply Keeps.ite
    | with_reducible apply State.modHlt_keeps
    | with_reducible apply State.setF_keeps
    | with_reducible apply State.phmBump_keeps
    | split
    | (intro _; intros; try beta_reduce)

theorem State.dailyRecord_keeps {s₀ : State} {s : State} (hk : Keeps s₀ s) :
    Keeps s₀ (State.dailyRecord s) := by
  unfold State.dailyRecord
  repeat' first
    | with_reducible assumption
    | (dsimp only [Keeps.mk_eq]; with_reducible apply KeepsD.of)
    | (extract_lets +onlyGivenNames x; refine Keeps.cut (s := s₀) (t := x) ?_ (fun hx => ?_); (on_goal 1 => (unfold x; clear x)); (on_goal 2 => clear_value x))
    | (extract_lets +onlyGivenNames x; refine Keeps.cut2 (s := s₀) (x := x) ?_ (fun hx => ?_); (on_goal 1 => (unfold x; clear x)); (on_goal 2 => clear_value x))
    | (extract_lets +onlyGivenNames x; refine Keeps.cut2 (s := s₀) (x := x.2) ?_ (fun hx => ?_); (on_goal 1 => (unfold x; clear x)); (on_goal 2 => clear_value x))
    | (extract_lets +onlyGivenNames x; (have hv : x = x := by unfold x; exact Eq.refl _); clear hv; clear_value x)
    | with_reducible apply State.openDiv_keeps
    | with_reducible apply State.modHlt_keeps
    | with_reducible apply State.belfry_keeps
    | with_reducible apply Keeps.foldl
    | with_reducible apply Keeps.foldl2
    | (intro _; intros; try beta_reduce)

theorem operatingDayEnd_keeps {s₀ : State} {s : State} (hk : Keeps s₀ s) :
    Keeps s₀ (operatingDayEnd s) := by
  unfold operatingDayEnd
  repeat' first
    | with_reducible assumption
    | (dsimp only [Keeps.mk_eq]; with_reducible apply KeepsD.of)
    | (extract_lets +onlyGivenNames x; refine Keeps.cut (s := s₀) (t := x) ?_ (fun hx => ?_); (on_goal 1 => (unfold x; clear x)); (on_goal 2 => clear_value x))
    | (extract_lets +onlyGivenNames x; refine Keeps.cut2 (s := s₀) (x := x) ?_ (fun hx => ?_); (on_goal 1 => (unfold x; clear x)); (on_goal 2 => clear_value x))
    | (extract_lets +onlyGivenNames x; refine Keeps.cut2 (s := s₀) (x := x.2) ?_ (fun hx => ?_); (on_goal 1 => (unfold x; clear x)); (on_goal 2 => clear_value x))
    | (extract_lets +onlyGivenNames x; (have hv : x = x := by unfold x; exact Eq.refl _); clear hv; clear_value x)
    | with_reducible apply Keeps.ite
    | with_reducible apply State.modHlt_keeps
    | with_reducible apply State.startMeasure_keeps
    | with_reducible apply State.dailyRecord_keeps
    | split
    | (intro _; intros; try beta_reduce)

theorem deferredMeasurement_keeps {s₀ : State} {s : State} (hk : Keeps s₀ s) :
    Keeps s₀ (deferredMeasurement s) := by
  unfold deferredMeasurement
  repeat' first
    | with_reducible assumption
    | (dsimp only [Keeps.mk_eq]; with_reducible apply KeepsD.of)
    | with_reducible apply Keeps.ite
    | with_reducible apply State.advanceTo_keeps
    | with_reducible apply State.modHlt_keeps
    | with_reducible apply State.setF_keeps
    | split
    | (intro _; intros; try beta_reduce)

theorem measurementComplete_keeps {s₀ : State} {slacks vcore : List Nat} {tdie : List Int} {s : State} (hk : Keeps s₀ s) :
    Keeps s₀ (measurementComplete slacks vcore tdie s) := by
  unfold measurementComplete
  repeat' first
    | with_reducible assumption
    | (dsimp only [Keeps.mk_eq]; with_reducible apply KeepsD.of)
    | (extract_lets +onlyGivenNames x; refine Keeps.cut (s := s₀) (t := x) ?_ (fun hx => ?_); (on_goal 1 => (unfold x; clear x)); (on_goal 2 => clear_value x))
    | (extract_lets +onlyGivenNames x; refine Keeps.cut2 (s := s₀) (x := x) ?_ (fun hx => ?_); (on_goal 1 => (unfold x; clear x)); (on_goal 2 => clear_value x))
    | (extract_lets +onlyGivenNames x; refine Keeps.cut2 (s := s₀) (x := x.2) ?_ (fun hx => ?_); (on_goal 1 => (unfold x; clear x)); (on_goal 2 => clear_value x))
    | (extract_lets +onlyGivenNames x; (have hv : x = x := by unfold x; exact Eq.refl _); clear hv; clear_value x)
    | with_reducible apply Keeps.ite
    | with_reducible apply State.gaugeDone_keeps
    | with_reducible apply State.modHlt_keeps
    | with_reducible apply State.project_keeps
    | with_reducible apply State.setF_keeps
    | with_reducible apply State.belfry_keeps
    | with_reducible apply State.planVcore_keeps
    | with_reducible apply State.exhausted_keeps
    | with_reducible apply State.ageStep_keeps
    | with_reducible apply Keeps.forN
    | split
    | (intro _; intros; try beta_reduce)

theorem State.pauseWork_keeps {s₀ : State} {s : State} (hk : Keeps s₀ s) :
    Keeps s₀ (State.pauseWork s) := by
  unfold State.pauseWork
  repeat' first
    | with_reducible assumption
    | (dsimp only [Keeps.mk_eq]; with_reducible apply KeepsD.of)
    | (extract_lets +onlyGivenNames x; refine Keeps.cut (s := s₀) (t := x) ?_ (fun hx => ?_); (on_goal 1 => (unfold x; clear x)); (on_goal 2 => clear_value x))
    | (extract_lets +onlyGivenNames x; refine Keeps.cut2 (s := s₀) (x := x) ?_ (fun hx => ?_); (on_goal 1 => (unfold x; clear x)); (on_goal 2 => clear_value x))
    | (extract_lets +onlyGivenNames x; refine Keeps.cut2 (s := s₀) (x := x.2) ?_ (fun hx => ?_); (on_goal 1 => (unfold x; clear x)); (on_goal 2 => clear_value x))
    | (extract_lets +onlyGivenNames x; (have hv : x = x := by unfold x; exact Eq.refl _); clear hv; clear_value x)
    | with_reducible apply Keeps.ite
    | with_reducible apply State.setF_keeps
    | with_reducible apply State.modHlt_keeps
    | split
    | (intro _; intros; try beta_reduce)

theorem State.resumeWork_keeps {s₀ : State} {s : State} (hk : Keeps s₀ s) :
    Keeps s₀ (State.resumeWork s) := by
  unfold State.resumeWork
  repeat' first
    | with_reducible assumption
    | (dsimp only [Keeps.mk_eq]; with_reducible apply KeepsD.of)
    | (extract_lets +onlyGivenNames x; refine Keeps.cut (s := s₀) (t := x) ?_ (fun hx => ?_); (on_goal 1 => (unfold x; clear x)); (on_goal 2 => clear_value x))
    | (extract_lets +onlyGivenNames x; refine Keeps.cut2 (s := s₀) (x := x) ?_ (fun hx => ?_); (on_goal 1 => (unfold x; clear x)); (on_goal 2 => clear_value x))
    | (extract_lets +onlyGivenNames x; refine Keeps.cut2 (s := s₀) (x := x.2) ?_ (fun hx => ?_); (on_goal 1 => (unfold x; clear x)); (on_goal 2 => clear_value x))
    | (extract_lets +onlyGivenNames x; (have hv : x = x := by unfold x; exact Eq.refl _); clear hv; clear_value x)
    | with_reducible apply State.setF_keeps
    | with_reducible apply State.modHlt_keeps
    | (intro _; intros; try beta_reduce)

theorem thermalStep_keeps {s₀ : State} {mean : Int} {s : State} (hk : Keeps s₀ s) :
    Keeps s₀ (thermalStep mean s) := by
  unfold thermalStep
  repeat' first
    | with_reducible assumption
    | (dsimp only [Keeps.mk_eq]; with_reducible apply KeepsD.of)
    | with_reducible apply Keeps.ite
    | with_reducible apply State.modHlt_keeps
    | with_reducible apply State.coreStep_keeps
    | split
    | (intro _; intros; try beta_reduce)

theorem thermalStepDown_keeps {s₀ : State} {mean : Int} {s : State} (hk : Keeps s₀ s) :
    Keeps s₀ (thermalStepDown mean s) := by
  unfold thermalStepDown
  repeat' first
    | with_reducible assumption
    | (dsimp only [Keeps.mk_eq]; with_reducible apply KeepsD.of)
    | with_reducible apply Keeps.ite
    | with_reducible apply State.advanceTo_keeps
    | with_reducible apply State.modHlt_keeps
    | with_reducible apply State.coreStep_keeps
    | split
    | (intro _; intros; try beta_reduce)

theorem State.mirror_keeps {s₀ : State} {s : State} (hk : Keeps s₀ s) :
    Keeps s₀ (State.mirror s) := by
  unfold State.mirror
  repeat' first
    | with_reducible assumption
    | (dsimp only [Keeps.mk_eq]; with_reducible apply KeepsD.of)
    | with_reducible apply State.modHlt_keeps
    | (intro _; intros; try beta_reduce)

theorem State.cursorWrite_keeps {s₀ : State} {s : State} {v : Nat} (hk : Keeps s₀ s) :
    Keeps s₀ (State.cursorWrite s v) := by
  unfold State.cursorWrite
  repeat' first
    | with_reducible assumption
    | with_reducible apply State.setF_keeps
    | with_reducible apply State.snapshot_keeps

theorem State.cursorStep_keeps {s₀ : State} {s : State} {v : Nat} (hk : Keeps s₀ s) :
    Keeps s₀ (State.cursorStep s v) := by
  unfold State.cursorStep
  repeat' first
    | with_reducible assumption
    | with_reducible apply Keeps.ite
    | with_reducible apply State.setF_keeps
    | with_reducible apply State.snapshot_keeps
    | split

theorem State.showBlf_keeps {s₀ : State} {s : State} (hk : Keeps s₀ s) :
    Keeps s₀ (State.showBlf s) := by
  exact State.setF_keeps hk

theorem State.clearFaults_keeps {s₀ : State} {s : State} {mask : Nat} (hk : Keeps s₀ s) :
    Keeps s₀ (State.clearFaults s mask) := by
  unfold State.clearFaults
  repeat' first
    | with_reducible assumption
    | with_reducible apply Keeps.ite
    | with_reducible apply State.setF_keeps
    | with_reducible apply Keeps.foldl
    | with_reducible apply Keeps.foldl2
    | split
    | (intro _; intros; try beta_reduce)

theorem healthStatusAct_keeps {s₀ : State} {clear : Bool} {s : State} (hk : Keeps s₀ s) :
    Keeps s₀ (healthStatusAct clear s).2 := by
  unfold healthStatusAct
  repeat' first
    | with_reducible assumption
    | (extract_lets +onlyGivenNames x; refine Keeps.cut (s := s₀) (t := x) ?_ (fun hx => ?_); (on_goal 1 => (unfold x; clear x)); (on_goal 2 => clear_value x))
    | (extract_lets +onlyGivenNames x; refine Keeps.cut2 (s := s₀) (x := x) ?_ (fun hx => ?_); (on_goal 1 => (unfold x; clear x)); (on_goal 2 => clear_value x))
    | (extract_lets +onlyGivenNames x; refine Keeps.cut2 (s := s₀) (x := x.2) ?_ (fun hx => ?_); (on_goal 1 => (unfold x; clear x)); (on_goal 2 => clear_value x))
    | (extract_lets +onlyGivenNames x; (have hv : x = x := by unfold x; exact Eq.refl _); clear hv; clear_value x)
    | with_reducible apply Keeps.ite
    | with_reducible apply Keeps.ite2
    | with_reducible apply State.clearCnt_keeps
    | with_reducible apply State.setF_keeps
    | split
    | (intro _; intros; try beta_reduce)

theorem faultClearAct_keeps {s₀ : State} {mask : Nat} {s : State} (hk : Keeps s₀ s) :
    Keeps s₀ (faultClearAct mask s).2 := by
  unfold faultClearAct
  repeat' first
    | with_reducible assumption
    | with_reducible apply Keeps.ite
    | with_reducible apply Keeps.ite2
    | with_reducible apply State.clearFaults_keeps
    | with_reducible apply State.evalReady_keeps
    | split

theorem ageingStatusAct_keeps {s₀ : State} {s : State} (hk : Keeps s₀ s) :
    Keeps s₀ (ageingStatusAct s).2 := by
  unfold ageingStatusAct
  repeat' first
    | with_reducible assumption
    | (extract_lets +onlyGivenNames x; refine Keeps.cut (s := s₀) (t := x) ?_ (fun hx => ?_); (on_goal 1 => (unfold x; clear x)); (on_goal 2 => clear_value x))
    | (extract_lets +onlyGivenNames x; refine Keeps.cut2 (s := s₀) (x := x) ?_ (fun hx => ?_); (on_goal 1 => (unfold x; clear x)); (on_goal 2 => clear_value x))
    | (extract_lets +onlyGivenNames x; refine Keeps.cut2 (s := s₀) (x := x.2) ?_ (fun hx => ?_); (on_goal 1 => (unfold x; clear x)); (on_goal 2 => clear_value x))
    | (extract_lets +onlyGivenNames x; refine Keeps.cutF1 (s := s₀) (f := x) ?_ (fun kx => ?_); (on_goal 1 => (unfold x; clear x; intros; beta_reduce)); (on_goal 2 => clear_value x))
    | (extract_lets +onlyGivenNames x; refine Keeps.cutF2 (s := s₀) (f := x) ?_ (fun kx => ?_); (on_goal 1 => (unfold x; clear x; intros; beta_reduce)); (on_goal 2 => clear_value x))
    | (extract_lets +onlyGivenNames x; refine Keeps.cutG2 (s := s₀) (f := x) ?_ (fun kx => ?_); (on_goal 1 => (unfold x; clear x; intros; beta_reduce)); (on_goal 2 => clear_value x))
    | (extract_lets +onlyGivenNames x; refine Keeps.cutF3 (s := s₀) (f := x) ?_ (fun kx => ?_); (on_goal 1 => (unfold x; clear x; intros; beta_reduce)); (on_goal 2 => clear_value x))
    | (extract_lets +onlyGivenNames x; refine Keeps.cutF4 (s := s₀) (f := x) ?_ (fun kx => ?_); (on_goal 1 => (unfold x; clear x; intros; beta_reduce)); (on_goal 2 => clear_value x))
    | (extract_lets +onlyGivenNames x; (have hv : x = x := by unfold x; exact Eq.refl _); clear hv; clear_value x)
    | apply kx
    | (intro _; intros; try beta_reduce)

theorem ageingMeasureAct_keeps {s₀ : State} {s : State} (hk : Keeps s₀ s) :
    Keeps s₀ (ageingMeasureAct s).2 := by
  unfold ageingMeasureAct
  repeat' first
    | with_reducible assumption
    | with_reducible apply Keeps.ite
    | with_reducible apply Keeps.ite2
    | with_reducible apply State.startMeasure_keeps
    | split

theorem belfryReadAct_keeps {s₀ : State} {area start count : Nat} {s : State} (hk : Keeps s₀ s) :
    Keeps s₀ (belfryReadAct area start count s).2 := by
  unfold belfryReadAct
  repeat' first
    | with_reducible assumption
    | with_reducible apply Keeps.ite
    | with_reducible apply Keeps.ite2
    | split
    | (intro _; intros; try beta_reduce)

theorem flashStatusAct_keeps {s₀ : State} {s : State} (hk : Keeps s₀ s) :
    Keeps s₀ (flashStatusAct s).2 := by
  unfold flashStatusAct
  repeat' first
    | with_reducible assumption
    | (extract_lets +onlyGivenNames x; refine Keeps.cut (s := s₀) (t := x) ?_ (fun hx => ?_); (on_goal 1 => (unfold x; clear x)); (on_goal 2 => clear_value x))
    | (extract_lets +onlyGivenNames x; refine Keeps.cut2 (s := s₀) (x := x) ?_ (fun hx => ?_); (on_goal 1 => (unfold x; clear x)); (on_goal 2 => clear_value x))
    | (extract_lets +onlyGivenNames x; refine Keeps.cut2 (s := s₀) (x := x.2) ?_ (fun hx => ?_); (on_goal 1 => (unfold x; clear x)); (on_goal 2 => clear_value x))
    | (extract_lets +onlyGivenNames x; (have hv : x = x := by unfold x; exact Eq.refl _); clear hv; clear_value x)
    | with_reducible apply State.showFlash_keeps

theorem execScrubPass_keeps {s₀ : State} {mem : ScrubMem} {addr : Nat} {find : ScrubFind} {passEnd : Bool} {s : State} (hk : Keeps s₀ s) :
    KeepsR s₀ (execScrubPass mem addr find passEnd s) := by
  exact KeepsR.next (scrubPass_keeps hk)

theorem execFlashRefresh_keeps {s₀ : State} {block corrections : Nat} {failed : Bool} {s : State} (hk : Keeps s₀ s) :
    KeepsR s₀ (execFlashRefresh block corrections failed s) := by
  exact KeepsR.next (flashRefresh_keeps hk)

theorem execTelemetrySample_keeps {s₀ : State} {vals : List Int} {s : State} (hk : Keeps s₀ s) :
    KeepsR s₀ (execTelemetrySample vals s) := by
  exact KeepsR.next (telemetrySample_keeps hk)

theorem execHistogramUpdate_keeps {s₀ : State} {s : State} (hk : Keeps s₀ s) :
    KeepsR s₀ (execHistogramUpdate s) := by
  exact KeepsR.next (histogramUpdate_keeps hk)

theorem execOperatingDayEnd_keeps {s₀ : State} {s : State} (hk : Keeps s₀ s) :
    KeepsR s₀ (execOperatingDayEnd s) := by
  exact KeepsR.next (operatingDayEnd_keeps hk)

theorem execDeferredMeasurement_keeps {s₀ : State} {s : State} (hk : Keeps s₀ s) :
    KeepsR s₀ (execDeferredMeasurement s) := by
  exact KeepsR.next (deferredMeasurement_keeps hk)

theorem execMeasurementComplete_keeps {s₀ : State} {slacks vcore : List Nat} {tdie : List Int} {s : State} (hk : Keeps s₀ s) :
    KeepsR s₀ (execMeasurementComplete slacks vcore tdie s) := by
  exact KeepsR.next (measurementComplete_keeps hk)

theorem execThermalStep_keeps {s₀ : State} {mean : Int} {s : State} (hk : Keeps s₀ s) :
    KeepsR s₀ (execThermalStep mean s) := by
  exact KeepsR.next (thermalStep_keeps hk)

theorem execThermalStepDown_keeps {s₀ : State} {mean : Int} {s : State} (hk : Keeps s₀ s) :
    KeepsR s₀ (execThermalStepDown mean s) := by
  exact KeepsR.next (thermalStepDown_keeps hk)

theorem belfryMirror_keeps {s₀ : State} {s : State} (hk : Keeps s₀ s) :
    Keeps s₀ (belfryMirror s) := by
  unfold belfryMirror
  repeat' first
    | with_reducible assumption
    | with_reducible apply Keeps.ite
    | with_reducible apply State.mirror_keeps
    | split

theorem execBelfryMirror_keeps {s₀ : State} {s : State} (hk : Keeps s₀ s) :
    KeepsR s₀ (execBelfryMirror s) := by
  exact KeepsR.next (belfryMirror_keeps hk)

theorem execBlfCursorWrite_keeps {s₀ : State} {m : Master} {value : Nat} {s : State} (hk : Keeps s₀ s) :
    KeepsR s₀ (execBlfCursorWrite m value s) := by
  unfold execBlfCursorWrite
  repeat' first
    | with_reducible assumption
    | with_reducible apply KeepsR.next
    | with_reducible apply State.granted_keeps
    | with_reducible apply State.cursorWrite_keeps
    | (intro _; intros; try beta_reduce)

theorem execBlfStepNext_keeps {s₀ : State} {m : Master} {value : Nat} {s : State} (hk : Keeps s₀ s) :
    KeepsR s₀ (execBlfStepNext m value s) := by
  unfold execBlfStepNext
  repeat' first
    | with_reducible assumption
    | with_reducible apply KeepsR.next
    | with_reducible apply State.granted_keeps
    | with_reducible apply State.cursorStep_keeps
    | (intro _; intros; try beta_reduce)

theorem execHealthStatus_keeps {s₀ : State} {q : Req} {clear : Bool} {s : State} (hk : Keeps s₀ s) :
    KeepsR s₀ (execHealthStatus q clear s) := by
  exact State.patchaif_keeps hk (fun _ h => healthStatusAct_keeps h)

theorem execFaultClear_keeps {s₀ : State} {q : Req} {mask : Nat} {s : State} (hk : Keeps s₀ s) :
    KeepsR s₀ (execFaultClear q mask s) := by
  exact State.patchaif_keeps hk (fun _ h => faultClearAct_keeps h)

theorem execAgeingStatus_keeps {s₀ : State} {q : Req} {s : State} (hk : Keeps s₀ s) :
    KeepsR s₀ (execAgeingStatus q s) := by
  exact State.patchaif_keeps hk (fun _ h => ageingStatusAct_keeps h)

theorem execAgeingMeasure_keeps {s₀ : State} {q : Req} {s : State} (hk : Keeps s₀ s) :
    KeepsR s₀ (execAgeingMeasure q s) := by
  exact State.patchaif_keeps hk (fun _ h => ageingMeasureAct_keeps h)

theorem execBelfryRead_keeps {s₀ : State} {q : Req} {area start count : Nat} {s : State} (hk : Keeps s₀ s) :
    KeepsR s₀ (execBelfryRead q area start count s) := by
  exact State.patchaif_keeps hk (fun _ h => belfryReadAct_keeps h)

theorem execFlashStatus_keeps {s₀ : State} {q : Req} {s : State} (hk : Keeps s₀ s) :
    KeepsR s₀ (execFlashStatus q s) := by
  exact State.patchaif_keeps hk (fun _ h => flashStatusAct_keeps h)

/-! ### Supply -/

theorem State.modSup_keeps {s₀ : State} {s : State} {f : Supply → Supply} (hk : Keeps s₀ s) :
    Keeps s₀ (State.modSup s f) := by
  unfold State.modSup
  repeat' first
    | with_reducible assumption
    | (dsimp only [Keeps.mk_eq]; with_reducible apply KeepsD.of)

theorem State.vioMeasured_keeps {s₀ : State} {s : State} {mv : Nat} (hk : Keeps s₀ s) :
    Keeps s₀ (State.vioMeasured s mv) := by
  unfold State.vioMeasured
  repeat' first
    | with_reducible assumption
    | (dsimp only [Keeps.mk_eq]; with_reducible apply KeepsD.of)
    | (extract_lets +onlyGivenNames x; refine Keeps.cut (s := s₀) (t := x) ?_ (fun hx => ?_); (on_goal 1 => (unfold x; clear x)); (on_goal 2 => clear_value x))
    | (extract_lets +onlyGivenNames x; refine Keeps.cut2 (s := s₀) (x := x) ?_ (fun hx => ?_); (on_goal 1 => (unfold x; clear x)); (on_goal 2 => clear_value x))
    | (extract_lets +onlyGivenNames x; refine Keeps.cut2 (s := s₀) (x := x.2) ?_ (fun hx => ?_); (on_goal 1 => (unfold x; clear x)); (on_goal 2 => clear_value x))
    | (extract_lets +onlyGivenNames x; (have hv : x = x := by unfold x; exact Eq.refl _); clear hv; clear_value x)
    | with_reducible apply Keeps.ite
    | with_reducible apply State.modSup_keeps
    | split
    | (intro _; intros; try beta_reduce)

theorem State.drivePins_keeps {s₀ : State} {s : State} (hk : Keeps s₀ s) :
    Keeps s₀ (State.drivePins s) := by
  unfold State.drivePins
  repeat' first
    | with_reducible assumption
    | (dsimp only [Keeps.mk_eq]; with_reducible apply KeepsD.of)
    | with_reducible apply State.modSup_keeps
    | (intro _; intros; try beta_reduce)

theorem State.sampleStraps_keeps {s₀ : State} {s : State} (hk : Keeps s₀ s) :
    Keeps s₀ (State.sampleStraps s) := by
  unfold State.sampleStraps
  repeat' first
    | with_reducible assumption
    | (dsimp only [Keeps.mk_eq]; with_reducible apply KeepsD.of)
    | with_reducible apply State.modSup_keeps
    | (intro _; intros; try beta_reduce)

theorem State.vbusAt_keeps {s₀ : State} {s : State} {mv : Nat} (hk : Keeps s₀ s) :
    Keeps s₀ (State.vbusAt s mv) := by
  unfold State.vbusAt
  repeat' first
    | with_reducible assumption
    | (dsimp only [Keeps.mk_eq]; with_reducible apply KeepsD.of)
    | (extract_lets +onlyGivenNames x; refine Keeps.cut (s := s₀) (t := x) ?_ (fun hx => ?_); (on_goal 1 => (unfold x; clear x)); (on_goal 2 => clear_value x))
    | (extract_lets +onlyGivenNames x; refine Keeps.cut2 (s := s₀) (x := x) ?_ (fun hx => ?_); (on_goal 1 => (unfold x; clear x)); (on_goal 2 => clear_value x))
    | (extract_lets +onlyGivenNames x; refine Keeps.cut2 (s := s₀) (x := x.2) ?_ (fun hx => ?_); (on_goal 1 => (unfold x; clear x)); (on_goal 2 => clear_value x))
    | (extract_lets +onlyGivenNames x; (have hv : x = x := by unfold x; exact Eq.refl _); clear hv; clear_value x)
    | with_reducible apply Keeps.ite
    | with_reducible apply State.modSup_keeps
    | with_reducible apply State.sampleStraps_keeps
    | split
    | (intro _; intros; try beta_reduce)

theorem State.measured_keeps {s₀ : State} {s : State} {x : SupplySample} (hk : Keeps s₀ s) :
    Keeps s₀ (State.measured s x) := by
  unfold State.measured
  repeat' first
    | with_reducible assumption
    | (dsimp only [Keeps.mk_eq]; with_reducible apply KeepsD.of)
    | with_reducible apply State.modSup_keeps
    | with_reducible apply State.vbusAt_keeps
    | with_reducible apply State.vioMeasured_keeps
    | with_reducible apply State.debugPins_keeps
    | (intro _; intros; try beta_reduce)

theorem State.tenMv_keeps {s₀ : State} {s : State} {w mv : Nat} (hk : Keeps s₀ s) :
    Keeps s₀ (State.tenMv s w mv).2 := by
  unfold State.tenMv
  repeat' first
    | with_reducible assumption
    | (extract_lets +onlyGivenNames x; refine Keeps.cut (s := s₀) (t := x) ?_ (fun hx => ?_); (on_goal 1 => (unfold x; clear x)); (on_goal 2 => clear_value x))
    | (extract_lets +onlyGivenNames x; refine Keeps.cut2 (s := s₀) (x := x) ?_ (fun hx => ?_); (on_goal 1 => (unfold x; clear x)); (on_goal 2 => clear_value x))
    | (extract_lets +onlyGivenNames x; refine Keeps.cut2 (s := s₀) (x := x.2) ?_ (fun hx => ?_); (on_goal 1 => (unfold x; clear x)); (on_goal 2 => clear_value x))
    | (extract_lets +onlyGivenNames x; (have hv : x = x := by unfold x; exact Eq.refl _); clear hv; clear_value x)
    | with_reducible apply State.openDiv_keeps

theorem State.showSupply_keeps {s₀ : State} {s : State} (hk : Keeps s₀ s) :
    Keeps s₀ (State.showSupply s) := by
  unfold State.showSupply
  repeat' first
    | with_reducible assumption
    | (extract_lets +onlyGivenNames x; refine Keeps.cut (s := s₀) (t := x) ?_ (fun hx => ?_); (on_goal 1 => (unfold x; clear x)); (on_goal 2 => clear_value x))
    | (extract_lets +onlyGivenNames x; refine Keeps.cut2 (s := s₀) (x := x) ?_ (fun hx => ?_); (on_goal 1 => (unfold x; clear x)); (on_goal 2 => clear_value x))
    | (extract_lets +onlyGivenNames x; refine Keeps.cut2 (s := s₀) (x := x.2) ?_ (fun hx => ?_); (on_goal 1 => (unfold x; clear x)); (on_goal 2 => clear_value x))
    | (extract_lets +onlyGivenNames x; (have hv : x = x := by unfold x; exact Eq.refl _); clear hv; clear_value x)
    | with_reducible apply Keeps.ite
    | with_reducible apply State.tenMv_keeps
    | with_reducible apply State.setB_keeps
    | with_reducible apply State.setF_keeps
    | split

theorem State.setFault_keeps {s₀ : State} {s : State} {b : Nat} (hk : Keeps s₀ s) :
    Keeps s₀ (State.setFault s b) := by
  unfold State.setFault
  repeat' first
    | with_reducible assumption
    | with_reducible apply Keeps.ite
    | with_reducible apply State.setF_keeps
    | with_reducible apply State.belfry_keeps
    | with_reducible apply State.evalReady_keeps
    | split
    | (intro _; intros; try beta_reduce)

theorem State.rootDue_keeps {s₀ : State} {s : State} {c : Nat} (hk : Keeps s₀ s) :
    Keeps s₀ (State.rootDue s c) := by
  unfold State.rootDue
  repeat' first
    | with_reducible assumption
    | (dsimp only [Keeps.mk_eq]; with_reducible apply KeepsD.of)
    | with_reducible apply State.modSup_keeps
    | (intro _; intros; try beta_reduce)

theorem feedLost_keeps {s₀ : State} {b : Bool} {s : State} (hk : Keeps s₀ s) :
    Keeps s₀ (feedLost b s) := by
  unfold feedLost
  repeat' first
    | with_reducible assumption
    | with_reducible apply Keeps.ite
    | with_reducible apply State.setFault_keeps
    | split

theorem therm_keeps {s₀ : State} {s : State} (hk : Keeps s₀ s) :
    Keeps s₀ (therm s) := by
  unfold therm
  repeat' first
    | with_reducible assumption
    | (dsimp only [Keeps.mk_eq]; with_reducible apply KeepsD.of)
    | with_reducible apply State.modSup_keeps
    | with_reducible apply State.rootDue_keeps
    | with_reducible apply State.setFault_keeps
    | (intro _; intros; try beta_reduce)

theorem rootLock_keeps {s₀ : State} {s : State} (hk : Keeps s₀ s) :
    Keeps s₀ (rootLock s) := by
  unfold rootLock
  repeat' first
    | with_reducible assumption
    | with_reducible apply State.rootDue_keeps
    | with_reducible apply State.setFault_keeps

theorem rootRatio_keeps {s₀ : State} {s : State} (hk : Keeps s₀ s) :
    Keeps s₀ (rootRatio s) := by
  unfold rootRatio
  repeat' first
    | with_reducible assumption
    | with_reducible apply State.rootDue_keeps
    | with_reducible apply State.setFault_keeps
    | with_reducible apply State.islandRoot_keeps

theorem vioCarFault_keeps {s₀ : State} {mv : Nat} {s : State} (hk : Keeps s₀ s) :
    Keeps s₀ (vioCarFault mv s) := by
  unfold vioCarFault
  repeat' first
    | with_reducible assumption
    | (dsimp only [Keeps.mk_eq]; with_reducible apply KeepsD.of)
    | (extract_lets +onlyGivenNames x; refine Keeps.cut (s := s₀) (t := x) ?_ (fun hx => ?_); (on_goal 1 => (unfold x; clear x)); (on_goal 2 => clear_value x))
    | (extract_lets +onlyGivenNames x; refine Keeps.cut2 (s := s₀) (x := x) ?_ (fun hx => ?_); (on_goal 1 => (unfold x; clear x)); (on_goal 2 => clear_value x))
    | (extract_lets +onlyGivenNames x; refine Keeps.cut2 (s := s₀) (x := x.2) ?_ (fun hx => ?_); (on_goal 1 => (unfold x; clear x)); (on_goal 2 => clear_value x))
    | (extract_lets +onlyGivenNames x; (have hv : x = x := by unfold x; exact Eq.refl _); clear hv; clear_value x)
    | with_reducible apply Keeps.ite
    | with_reducible apply State.vioMeasured_keeps
    | with_reducible apply State.modSup_keeps
    | with_reducible apply State.setFault_keeps
    | with_reducible apply State.fence_keeps
    | with_reducible apply State.showSupply_keeps
    | with_reducible apply State.stopQbc_keeps
    | with_reducible apply State.evalReady_keeps
    | split
    | (intro _; intros; try beta_reduce)

theorem State.blocksReset_keeps {s₀ : State} {s : State} {warm : Bool} (hk : Keeps s₀ s) :
    Keeps s₀ (State.blocksReset s warm) := by
  unfold State.blocksReset
  repeat' first
    | with_reducible assumption
    | (dsimp only [Keeps.mk_eq]; with_reducible apply KeepsD.of)
    | (dsimp only [Keeps.mk_eq]; with_reducible apply KeepsD.filter)
    | with_reducible apply Keeps.ite
    | with_reducible apply idle_keeps
    | split
    | (intro _; intros; try beta_reduce)

theorem State.endEpisode_keeps {s₀ : State} {s : State} {byReset : Bool} (hk : Keeps s₀ s) :
    Keeps s₀ (State.endEpisode s byReset) := by
  unfold State.endEpisode
  repeat' first
    | with_reducible assumption
    | (dsimp only [Keeps.mk_eq]; with_reducible apply KeepsD.of)
    | (extract_lets +onlyGivenNames x; refine Keeps.cut (s := s₀) (t := x) ?_ (fun hx => ?_); (on_goal 1 => (unfold x; clear x)); (on_goal 2 => clear_value x))
    | (extract_lets +onlyGivenNames x; refine Keeps.cut2 (s := s₀) (x := x) ?_ (fun hx => ?_); (on_goal 1 => (unfold x; clear x)); (on_goal 2 => clear_value x))
    | (extract_lets +onlyGivenNames x; refine Keeps.cut2 (s := s₀) (x := x.2) ?_ (fun hx => ?_); (on_goal 1 => (unfold x; clear x)); (on_goal 2 => clear_value x))
    | (extract_lets +onlyGivenNames x; (have hv : x = x := by unfold x; exact Eq.refl _); clear hv; clear_value x)
    | with_reducible apply Keeps.ite
    | with_reducible apply State.tenMv_keeps
    | split
    | (intro _; intros; try beta_reduce)

theorem State.cause_keeps {s₀ : State} {s : State} {kind c : Nat} (hk : Keeps s₀ s) :
    Keeps s₀ (State.cause s kind c) := by
  unfold State.cause
  repeat' first
    | with_reducible assumption
    | with_reducible apply State.setF_keeps

theorem State.disarm_keeps {s₀ : State} {s : State} (hk : Keeps s₀ s) :
    Keeps s₀ (State.disarm s) := by
  unfold State.disarm
  repeat' first
    | with_reducible assumption
    | with_reducible apply State.wvlArm_keeps
    | with_reducible apply State.unforceAll_keeps

theorem State.coldStart_keeps {s₀ : State} {s : State} {c : Nat} (hk : Keeps s₀ s) :
    Keeps s₀ (State.coldStart s c) := by
  unfold State.coldStart
  repeat' first
    | with_reducible assumption
    | (dsimp only [Keeps.mk_eq]; with_reducible apply KeepsD.of)
    | (extract_lets +onlyGivenNames x; refine Keeps.cut (s := s₀) (t := x) ?_ (fun hx => ?_); (on_goal 1 => (unfold x; clear x)); (on_goal 2 => clear_value x))
    | (extract_lets +onlyGivenNames x; refine Keeps.cut2 (s := s₀) (x := x) ?_ (fun hx => ?_); (on_goal 1 => (unfold x; clear x)); (on_goal 2 => clear_value x))
    | (extract_lets +onlyGivenNames x; refine Keeps.cut2 (s := s₀) (x := x.2) ?_ (fun hx => ?_); (on_goal 1 => (unfold x; clear x)); (on_goal 2 => clear_value x))
    | (extract_lets +onlyGivenNames x; (have hv : x = x := by unfold x; exact Eq.refl _); clear hv; clear_value x)
    | with_reducible apply Keeps.ite
    | with_reducible apply State.endEpisode_keeps
    | with_reducible apply State.blocksReset_keeps
    | with_reducible apply State.modSup_keeps
    | with_reducible apply State.disarm_keeps
    | with_reducible apply State.domeStop_keeps
    | with_reducible apply State.loadTime_keeps
    | with_reducible apply State.cause_keeps
    | split
    | (intro _; intros; try beta_reduce)

theorem State.supplyReset_keeps {s₀ : State} {s : State} {c : Nat} (hk : Keeps s₀ s) :
    Keeps s₀ (State.supplyReset s c) := by
  unfold State.supplyReset
  repeat' first
    | with_reducible assumption
    | (dsimp only [Keeps.mk_eq]; with_reducible apply KeepsD.of)
    | (extract_lets +onlyGivenNames x; refine Keeps.cut (s := s₀) (t := x) ?_ (fun hx => ?_); (on_goal 1 => (unfold x; clear x)); (on_goal 2 => clear_value x))
    | (extract_lets +onlyGivenNames x; refine Keeps.cut2 (s := s₀) (x := x) ?_ (fun hx => ?_); (on_goal 1 => (unfold x; clear x)); (on_goal 2 => clear_value x))
    | (extract_lets +onlyGivenNames x; refine Keeps.cut2 (s := s₀) (x := x.2) ?_ (fun hx => ?_); (on_goal 1 => (unfold x; clear x)); (on_goal 2 => clear_value x))
    | (extract_lets +onlyGivenNames x; (have hv : x = x := by unfold x; exact Eq.refl _); clear hv; clear_value x)
    | with_reducible apply Keeps.ite
    | with_reducible apply State.endEpisode_keeps
    | with_reducible apply State.modSup_keeps
    | with_reducible apply State.stopMacs_keeps
    | with_reducible apply State.stopQbc_keeps
    | with_reducible apply State.coldStart_keeps
    | split
    | (intro _; intros; try beta_reduce)

theorem State.pwrokRise_keeps {s₀ : State} {s : State} (hk : Keeps s₀ s) :
    Keeps s₀ (State.pwrokRise s) := by
  unfold State.pwrokRise
  repeat' first
    | with_reducible assumption
    | (dsimp only [Keeps.mk_eq]; with_reducible apply KeepsD.of)
    | with_reducible apply State.modSup_keeps
    | with_reducible apply State.bump_keeps
    | (intro _; intros; try beta_reduce)

theorem State.enterPrepare_keeps {s₀ : State} {s : State} (hk : Keeps s₀ s) :
    Keeps s₀ (State.enterPrepare s) := by
  unfold State.enterPrepare
  repeat' first
    | with_reducible assumption
    | (dsimp only [Keeps.mk_eq]; with_reducible apply KeepsD.of)
    | (extract_lets +onlyGivenNames x; refine Keeps.cut (s := s₀) (t := x) ?_ (fun hx => ?_); (on_goal 1 => (unfold x; clear x)); (on_goal 2 => clear_value x))
    | (extract_lets +onlyGivenNames x; refine Keeps.cut2 (s := s₀) (x := x) ?_ (fun hx => ?_); (on_goal 1 => (unfold x; clear x)); (on_goal 2 => clear_value x))
    | (extract_lets +onlyGivenNames x; refine Keeps.cut2 (s := s₀) (x := x.2) ?_ (fun hx => ?_); (on_goal 1 => (unfold x; clear x)); (on_goal 2 => clear_value x))
    | (extract_lets +onlyGivenNames x; (have hv : x = x := by unfold x; exact Eq.refl _); clear hv; clear_value x)
    | with_reducible apply Keeps.ite
    | with_reducible apply State.setF_keeps
    | with_reducible apply State.pauseWork_keeps
    | with_reducible apply State.modSup_keeps
    | with_reducible apply State.flushStaged_keeps
    | with_reducible apply State.belfry_keeps
    | with_reducible apply State.showFlash_keeps
    | with_reducible apply State.setB_keeps
    | with_reducible apply State.dreRecover_keeps
    | split
    | (intro _; intros; try beta_reduce)

theorem State.tryEndReset_keeps {s₀ : State} {s : State} (hk : Keeps s₀ s) :
    Keeps s₀ (State.tryEndReset s) := by
  unfold State.tryEndReset
  repeat' first
    | with_reducible assumption
    | (dsimp only [Keeps.mk_eq]; with_reducible apply KeepsD.of)
    | (extract_lets +onlyGivenNames x; refine Keeps.cut (s := s₀) (t := x) ?_ (fun hx => ?_); (on_goal 1 => (unfold x; clear x)); (on_goal 2 => clear_value x))
    | (extract_lets +onlyGivenNames x; refine Keeps.cut2 (s := s₀) (x := x) ?_ (fun hx => ?_); (on_goal 1 => (unfold x; clear x)); (on_goal 2 => clear_value x))
    | (extract_lets +onlyGivenNames x; refine Keeps.cut2 (s := s₀) (x := x.2) ?_ (fun hx => ?_); (on_goal 1 => (unfold x; clear x)); (on_goal 2 => clear_value x))
    | (extract_lets +onlyGivenNames x; (have hv : x = x := by unfold x; exact Eq.refl _); clear hv; clear_value x)
    | with_reducible apply Keeps.ite
    | with_reducible apply State.sampleStraps_keeps
    | with_reducible apply State.modSup_keeps
    | with_reducible apply State.enterPrepare_keeps
    | with_reducible apply State.drivePins_keeps
    | split
    | (intro _; intros; try beta_reduce)

theorem supplyStatusUpdate_keeps {s₀ : State} {x : SupplySample} {s : State} (hk : Keeps s₀ s) :
    Keeps s₀ (supplyStatusUpdate x s) := by
  unfold supplyStatusUpdate
  repeat' first
    | with_reducible assumption
    | with_reducible apply State.measured_keeps
    | with_reducible apply State.evalReady_keeps
    | with_reducible apply State.tryEndReset_keeps
    | with_reducible apply State.showSupply_keeps
    | with_reducible apply State.drivePins_keeps

theorem State.coldReset_keeps {s₀ : State} {s : State} {c : Nat} (hk : Keeps s₀ s) :
    Keeps s₀ (State.coldReset s c) := by
  unfold State.coldReset
  repeat' first
    | with_reducible assumption
    | with_reducible apply State.coldStart_keeps
    | with_reducible apply State.tryEndReset_keeps

theorem powerUp_keeps {s₀ : State} {feedA : Bool} {x : SupplySample} {s : State} (hk : Keeps s₀ s) :
    Keeps s₀ (powerUp feedA x s) := by
  unfold powerUp
  repeat' first
    | with_reducible assumption
    | (dsimp only [Keeps.mk_eq]; with_reducible apply KeepsD.of)
    | (extract_lets +onlyGivenNames x; refine Keeps.cut (s := s₀) (t := x) ?_ (fun hx => ?_); (on_goal 1 => (unfold x; clear x)); (on_goal 2 => clear_value x))
    | (extract_lets +onlyGivenNames x; refine Keeps.cut2 (s := s₀) (x := x) ?_ (fun hx => ?_); (on_goal 1 => (unfold x; clear x)); (on_goal 2 => clear_value x))
    | (extract_lets +onlyGivenNames x; refine Keeps.cut2 (s := s₀) (x := x.2) ?_ (fun hx => ?_); (on_goal 1 => (unfold x; clear x)); (on_goal 2 => clear_value x))
    | (extract_lets +onlyGivenNames x; (have hv : x = x := by unfold x; exact Eq.refl _); clear hv; clear_value x)
    | with_reducible apply Keeps.ite
    | with_reducible apply State.measured_keeps
    | with_reducible apply State.loadTime_keeps
    | with_reducible apply State.setF_keeps
    | with_reducible apply State.islandStart_keeps
    | with_reducible apply State.sampleStraps_keeps
    | with_reducible apply State.drawn_keeps
    | with_reducible apply State.modSup_keeps
    | split
    | (intro _; intros; try beta_reduce)

theorem railInRegulation_keeps {s₀ : State} {r : Rail} {s : State} (hk : Keeps s₀ s) :
    Keeps s₀ (railInRegulation r s) := by
  unfold railInRegulation
  repeat' first
    | with_reducible assumption
    | (dsimp only [Keeps.mk_eq]; with_reducible apply KeepsD.of)
    | (extract_lets +onlyGivenNames x; refine Keeps.cut (s := s₀) (t := x) ?_ (fun hx => ?_); (on_goal 1 => (unfold x; clear x)); (on_goal 2 => clear_value x))
    | (extract_lets +onlyGivenNames x; refine Keeps.cut2 (s := s₀) (x := x) ?_ (fun hx => ?_); (on_goal 1 => (unfold x; clear x)); (on_goal 2 => clear_value x))
    | (extract_lets +onlyGivenNames x; refine Keeps.cut2 (s := s₀) (x := x.2) ?_ (fun hx => ?_); (on_goal 1 => (unfold x; clear x)); (on_goal 2 => clear_value x))
    | (extract_lets +onlyGivenNames x; (have hv : x = x := by unfold x; exact Eq.refl _); clear hv; clear_value x)
    | with_reducible apply Keeps.ite
    | with_reducible apply State.modSup_keeps
    | with_reducible apply State.pwrokRise_keeps
    | with_reducible apply State.tryEndReset_keeps
    | split
    | (intro _; intros; try beta_reduce)

theorem railFault_keeps {s₀ : State} {r : Rail} {s : State} (hk : Keeps s₀ s) :
    Keeps s₀ (railFault r s) := by
  unfold railFault
  repeat' first
    | with_reducible assumption
    | (dsimp only [Keeps.mk_eq]; with_reducible apply KeepsD.of)
    | with_reducible apply Keeps.ite
    | with_reducible apply State.modSup_keeps
    | with_reducible apply coldReset_keeps
    | with_reducible apply State.setFault_keeps
    | with_reducible apply State.coldReset_keeps
    | split
    | (intro _; intros; try beta_reduce)

theorem railTakedown_keeps {s₀ : State} {s : State} (hk : Keeps s₀ s) :
    Keeps s₀ (railTakedown s) := by
  unfold railTakedown
  repeat' first
    | with_reducible assumption
    | (dsimp only [Keeps.mk_eq]; with_reducible apply KeepsD.of)
    | (extract_lets +onlyGivenNames x; refine Keeps.cut (s := s₀) (t := x) ?_ (fun hx => ?_); (on_goal 1 => (unfold x; clear x)); (on_goal 2 => clear_value x))
    | (extract_lets +onlyGivenNames x; refine Keeps.cut2 (s := s₀) (x := x) ?_ (fun hx => ?_); (on_goal 1 => (unfold x; clear x)); (on_goal 2 => clear_value x))
    | (extract_lets +onlyGivenNames x; refine Keeps.cut2 (s := s₀) (x := x.2) ?_ (fun hx => ?_); (on_goal 1 => (unfold x; clear x)); (on_goal 2 => clear_value x))
    | (extract_lets +onlyGivenNames x; (have hv : x = x := by unfold x; exact Eq.refl _); clear hv; clear_value x)
    | with_reducible apply Keeps.ite
    | with_reducible apply State.advanceTo_keeps
    | with_reducible apply State.modSup_keeps
    | with_reducible apply State.islandOff_keeps
    | split
    | (intro _; intros; try beta_reduce)

theorem State.showRide_keeps {s₀ : State} {s : State} {f : Field} {v : Nat} (hk : Keeps s₀ s) :
    Keeps s₀ (State.showRide s f v) := by
  unfold State.showRide
  repeat' first
    | with_reducible assumption
    | with_reducible apply Keeps.ite
    | with_reducible apply State.setF_keeps
    | split

theorem rideThroughEntry_keeps {s₀ : State} {mv : Nat} {s : State} (hk : Keeps s₀ s) :
    Keeps s₀ (rideThroughEntry mv s) := by
  unfold rideThroughEntry
  repeat' first
    | with_reducible assumption
    | (dsimp only [Keeps.mk_eq]; with_reducible apply KeepsD.of)
    | (extract_lets +onlyGivenNames x; refine Keeps.cut (s := s₀) (t := x) ?_ (fun hx => ?_); (on_goal 1 => (unfold x; clear x)); (on_goal 2 => clear_value x))
    | (extract_lets +onlyGivenNames x; refine Keeps.cut2 (s := s₀) (x := x) ?_ (fun hx => ?_); (on_goal 1 => (unfold x; clear x)); (on_goal 2 => clear_value x))
    | (extract_lets +onlyGivenNames x; refine Keeps.cut2 (s := s₀) (x := x.2) ?_ (fun hx => ?_); (on_goal 1 => (unfold x; clear x)); (on_goal 2 => clear_value x))
    | (extract_lets +onlyGivenNames x; (have hv : x = x := by unfold x; exact Eq.refl _); clear hv; clear_value x)
    | with_reducible apply Keeps.ite
    | with_reducible apply State.modSup_keeps
    | with_reducible apply State.showRide_keeps
    | with_reducible apply State.stageEntry_keeps
    | with_reducible apply State.pauseWork_keeps
    | with_reducible apply State.vbusAt_keeps
    | with_reducible apply State.bump_keeps
    | with_reducible apply State.mirror_keeps
    | with_reducible apply State.tdcDiscard_keeps
    | split
    | (intro _; intros; try beta_reduce)

theorem returnThreshold_keeps {s₀ : State} {mv : Nat} {s : State} (hk : Keeps s₀ s) :
    Keeps s₀ (returnThreshold mv s) := by
  unfold returnThreshold
  repeat' first
    | with_reducible assumption
    | (dsimp only [Keeps.mk_eq]; with_reducible apply KeepsD.of)
    | (extract_lets +onlyGivenNames x; refine Keeps.cut (s := s₀) (t := x) ?_ (fun hx => ?_); (on_goal 1 => (unfold x; clear x)); (on_goal 2 => clear_value x))
    | (extract_lets +onlyGivenNames x; refine Keeps.cut2 (s := s₀) (x := x) ?_ (fun hx => ?_); (on_goal 1 => (unfold x; clear x)); (on_goal 2 => clear_value x))
    | (extract_lets +onlyGivenNames x; refine Keeps.cut2 (s := s₀) (x := x.2) ?_ (fun hx => ?_); (on_goal 1 => (unfold x; clear x)); (on_goal 2 => clear_value x))
    | (extract_lets +onlyGivenNames x; (have hv : x = x := by unfold x; exact Eq.refl _); clear hv; clear_value x)
    | with_reducible apply Keeps.ite
    | with_reducible apply State.modSup_keeps
    | with_reducible apply State.showRide_keeps
    | with_reducible apply State.vbusAt_keeps
    | with_reducible apply State.tryEndReset_keeps
    | split
    | (intro _; intros; try beta_reduce)

theorem brownout_keeps {s₀ : State} {s : State} (hk : Keeps s₀ s) :
    Keeps s₀ (brownout s) := by
  unfold brownout
  repeat' first
    | with_reducible assumption
    | with_reducible apply Keeps.ite
    | with_reducible apply State.advanceTo_keeps
    | with_reducible apply State.setFault_keeps
    | with_reducible apply State.supplyReset_keeps
    | split

theorem returnTimerStop_keeps {s₀ : State} {mv : Nat} {s : State} (hk : Keeps s₀ s) :
    Keeps s₀ (returnTimerStop mv s) := by
  unfold returnTimerStop
  repeat' first
    | with_reducible assumption
    | (dsimp only [Keeps.mk_eq]; with_reducible apply KeepsD.of)
    | (extract_lets +onlyGivenNames x; refine Keeps.cut (s := s₀) (t := x) ?_ (fun hx => ?_); (on_goal 1 => (unfold x; clear x)); (on_goal 2 => clear_value x))
    | (extract_lets +onlyGivenNames x; refine Keeps.cut2 (s := s₀) (x := x) ?_ (fun hx => ?_); (on_goal 1 => (unfold x; clear x)); (on_goal 2 => clear_value x))
    | (extract_lets +onlyGivenNames x; refine Keeps.cut2 (s := s₀) (x := x.2) ?_ (fun hx => ?_); (on_goal 1 => (unfold x; clear x)); (on_goal 2 => clear_value x))
    | (extract_lets +onlyGivenNames x; (have hv : x = x := by unfold x; exact Eq.refl _); clear hv; clear_value x)
    | with_reducible apply Keeps.ite
    | with_reducible apply State.modSup_keeps
    | with_reducible apply brownout_keeps
    | with_reducible apply State.vbusAt_keeps
    | with_reducible apply State.showRide_keeps
    | split
    | (intro _; intros; try beta_reduce)

theorem returnTimerExpiry_keeps {s₀ : State} {s : State} (hk : Keeps s₀ s) :
    Keeps s₀ (returnTimerExpiry s) := by
  unfold returnTimerExpiry
  repeat' first
    | with_reducible assumption
    | (dsimp only [Keeps.mk_eq]; with_reducible apply KeepsD.of)
    | (extract_lets +onlyGivenNames x; refine Keeps.cut (s := s₀) (t := x) ?_ (fun hx => ?_); (on_goal 1 => (unfold x; clear x)); (on_goal 2 => clear_value x))
    | (extract_lets +onlyGivenNames x; refine Keeps.cut2 (s := s₀) (x := x) ?_ (fun hx => ?_); (on_goal 1 => (unfold x; clear x)); (on_goal 2 => clear_value x))
    | (extract_lets +onlyGivenNames x; refine Keeps.cut2 (s := s₀) (x := x.2) ?_ (fun hx => ?_); (on_goal 1 => (unfold x; clear x)); (on_goal 2 => clear_value x))
    | (extract_lets +onlyGivenNames x; (have hv : x = x := by unfold x; exact Eq.refl _); clear hv; clear_value x)
    | with_reducible apply Keeps.ite
    | with_reducible apply State.advanceTo_keeps
    | with_reducible apply State.tenMv_keeps
    | with_reducible apply State.showRide_keeps
    | with_reducible apply State.modSup_keeps
    | with_reducible apply State.endEpisode_keeps
    | with_reducible apply State.setF_keeps
    | with_reducible apply State.flushStaged_keeps
    | with_reducible apply State.resumeWork_keeps
    | with_reducible apply State.tdcResume_keeps
    | split
    | (intro _; intros; try beta_reduce)

theorem resetThreshold_keeps {s₀ : State} {mv : Nat} {s : State} (hk : Keeps s₀ s) :
    Keeps s₀ (resetThreshold mv s) := by
  unfold resetThreshold
  repeat' first
    | with_reducible assumption
    | with_reducible apply Keeps.ite
    | with_reducible apply State.vbusAt_keeps
    | with_reducible apply State.supplyReset_keeps
    | split

theorem faultBitReassert_keeps {s₀ : State} {b : Nat} {s : State} (hk : Keeps s₀ s) :
    Keeps s₀ (faultBitReassert b s) := by
  unfold faultBitReassert
  repeat' first
    | with_reducible assumption
    | (dsimp only [Keeps.mk_eq]; with_reducible apply KeepsD.of)
    | (extract_lets +onlyGivenNames x; refine Keeps.cut (s := s₀) (t := x) ?_ (fun hx => ?_); (on_goal 1 => (unfold x; clear x)); (on_goal 2 => clear_value x))
    | (extract_lets +onlyGivenNames x; refine Keeps.cut2 (s := s₀) (x := x) ?_ (fun hx => ?_); (on_goal 1 => (unfold x; clear x)); (on_goal 2 => clear_value x))
    | (extract_lets +onlyGivenNames x; refine Keeps.cut2 (s := s₀) (x := x.2) ?_ (fun hx => ?_); (on_goal 1 => (unfold x; clear x)); (on_goal 2 => clear_value x))
    | (extract_lets +onlyGivenNames x; (have hv : x = x := by unfold x; exact Eq.refl _); clear hv; clear_value x)
    | with_reducible apply Keeps.ite
    | with_reducible apply State.setFault_keeps
    | with_reducible apply State.rootDue_keeps
    | with_reducible apply State.coldReset_keeps
    | split

theorem rootFaultResponse_keeps {s₀ : State} {s : State} (hk : Keeps s₀ s) :
    Keeps s₀ (rootFaultResponse s) := by
  unfold rootFaultResponse
  repeat' first
    | with_reducible assumption
    | with_reducible apply Keeps.ite
    | with_reducible apply State.fence_keeps
    | with_reducible apply coldReset_keeps
    | with_reducible apply State.stopMacs_keeps
    | with_reducible apply State.stopQbc_keeps
    | with_reducible apply State.coldReset_keeps
    | split

theorem carRst_keeps {s₀ : State} {s : State} (hk : Keeps s₀ s) :
    Keeps s₀ (carRst s) := by
  unfold carRst
  repeat' first
    | with_reducible assumption
    | (dsimp only [Keeps.mk_eq]; with_reducible apply KeepsD.of)
    | (extract_lets +onlyGivenNames x; refine Keeps.cut (s := s₀) (t := x) ?_ (fun hx => ?_); (on_goal 1 => (unfold x; clear x)); (on_goal 2 => clear_value x))
    | (extract_lets +onlyGivenNames x; refine Keeps.cut2 (s := s₀) (x := x) ?_ (fun hx => ?_); (on_goal 1 => (unfold x; clear x)); (on_goal 2 => clear_value x))
    | (extract_lets +onlyGivenNames x; refine Keeps.cut2 (s := s₀) (x := x.2) ?_ (fun hx => ?_); (on_goal 1 => (unfold x; clear x)); (on_goal 2 => clear_value x))
    | (extract_lets +onlyGivenNames x; (have hv : x = x := by unfold x; exact Eq.refl _); clear hv; clear_value x)
    | with_reducible apply Keeps.ite
    | with_reducible apply State.modSup_keeps
    | with_reducible apply State.coldStart_keeps
    | split
    | (intro _; intros; try beta_reduce)

theorem carRstNRelease_keeps {s₀ : State} {s : State} (hk : Keeps s₀ s) :
    Keeps s₀ (carRstNRelease s) := by
  unfold carRstNRelease
  repeat' first
    | with_reducible assumption
    | (dsimp only [Keeps.mk_eq]; with_reducible apply KeepsD.of)
    | with_reducible apply State.modSup_keeps
    | with_reducible apply State.tryEndReset_keeps
    | (intro _; intros; try beta_reduce)

theorem coldReset_keeps {s₀ : State} {c : Nat} {s : State} (hk : Keeps s₀ s) :
    Keeps s₀ (coldReset c s) := by
  unfold coldReset
  repeat' first
    | with_reducible assumption
    | (dsimp only [Keeps.mk_eq]; with_reducible apply KeepsD.of)
    | with_reducible apply Keeps.ite
    | with_reducible apply State.supplyReset_keeps
    | with_reducible apply State.advanceTo_keeps
    | with_reducible apply State.coldStart_keeps
    | with_reducible apply State.coldReset_keeps
    | split
    | (intro _; intros; try beta_reduce)

theorem warmReset_keeps {s₀ : State} {s : State} (hk : Keeps s₀ s) :
    Keeps s₀ (warmReset s) := by
  unfold warmReset
  repeat' first
    | with_reducible assumption
    | (dsimp only [Keeps.mk_eq]; with_reducible apply KeepsD.of)
    | (extract_lets +onlyGivenNames x; refine Keeps.cut (s := s₀) (t := x) ?_ (fun hx => ?_); (on_goal 1 => (unfold x; clear x)); (on_goal 2 => clear_value x))
    | (extract_lets +onlyGivenNames x; refine Keeps.cut2 (s := s₀) (x := x) ?_ (fun hx => ?_); (on_goal 1 => (unfold x; clear x)); (on_goal 2 => clear_value x))
    | (extract_lets +onlyGivenNames x; refine Keeps.cut2 (s := s₀) (x := x.2) ?_ (fun hx => ?_); (on_goal 1 => (unfold x; clear x)); (on_goal 2 => clear_value x))
    | (extract_lets +onlyGivenNames x; (have hv : x = x := by unfold x; exact Eq.refl _); clear hv; clear_value x)
    | with_reducible apply Keeps.ite
    | with_reducible apply State.advanceTo_keeps
    | with_reducible apply State.endEpisode_keeps
    | with_reducible apply State.blocksReset_keeps
    | with_reducible apply State.modSup_keeps
    | with_reducible apply State.bootMeasure_keeps
    | with_reducible apply State.disarm_keeps
    | with_reducible apply State.tbuFollow_keeps
    | with_reducible apply State.cause_keeps
    | with_reducible apply State.drivePins_keeps
    | with_reducible apply State.enterPrepare_keeps
    | split
    | (intro _; intros; try beta_reduce)

theorem vkeepLow_keeps {s₀ : State} {s : State} (hk : Keeps s₀ s) :
    Keeps s₀ (vkeepLow s) := by
  unfold vkeepLow
  repeat' first
    | with_reducible assumption
    | (dsimp only [Keeps.mk_eq]; with_reducible apply KeepsD.of)
    | (extract_lets +onlyGivenNames x; refine Keeps.cut (s := s₀) (t := x) ?_ (fun hx => ?_); (on_goal 1 => (unfold x; clear x)); (on_goal 2 => clear_value x))
    | (extract_lets +onlyGivenNames x; refine Keeps.cut2 (s := s₀) (x := x) ?_ (fun hx => ?_); (on_goal 1 => (unfold x; clear x)); (on_goal 2 => clear_value x))
    | (extract_lets +onlyGivenNames x; refine Keeps.cut2 (s := s₀) (x := x.2) ?_ (fun hx => ?_); (on_goal 1 => (unfold x; clear x)); (on_goal 2 => clear_value x))
    | (extract_lets +onlyGivenNames x; (have hv : x = x := by unfold x; exact Eq.refl _); clear hv; clear_value x)
    | with_reducible apply Keeps.ite
    | with_reducible apply State.coldStart_keeps
    | with_reducible apply State.modSup_keeps
    | split
    | (intro _; intros; try beta_reduce)

theorem keepReset_keeps {s₀ : State} {s : State} (hk : Keeps s₀ s) :
    Keeps s₀ (keepReset s) := by
  unfold keepReset
  repeat' first
    | with_reducible assumption
    | (dsimp only [Keeps.mk_eq]; with_reducible apply KeepsD.of)
    | (extract_lets +onlyGivenNames x; refine Keeps.cut (s := s₀) (t := x) ?_ (fun hx => ?_); (on_goal 1 => (unfold x; clear x)); (on_goal 2 => clear_value x))
    | (extract_lets +onlyGivenNames x; refine Keeps.cut2 (s := s₀) (x := x) ?_ (fun hx => ?_); (on_goal 1 => (unfold x; clear x)); (on_goal 2 => clear_value x))
    | (extract_lets +onlyGivenNames x; refine Keeps.cut2 (s := s₀) (x := x.2) ?_ (fun hx => ?_); (on_goal 1 => (unfold x; clear x)); (on_goal 2 => clear_value x))
    | (extract_lets +onlyGivenNames x; (have hv : x = x := by unfold x; exact Eq.refl _); clear hv; clear_value x)
    | with_reducible apply Keeps.ite
    | with_reducible apply State.clearFields_keeps
    | with_reducible apply State.setF_keeps
    | with_reducible apply State.cause_keeps
    | with_reducible apply vkeepLow_keeps
    | with_reducible apply State.modSup_keeps
    | with_reducible apply State.loadTime_keeps
    | with_reducible apply State.pwrokRise_keeps
    | with_reducible apply State.tryEndReset_keeps
    | split
    | (intro _; intros; try beta_reduce)

theorem execPowerUp_keeps {s₀ : State} {feedA : Bool} {sm : SupplySample} {s : State} (hk : Keeps s₀ s) :
    KeepsR s₀ (execPowerUp feedA sm s) := by
  exact KeepsR.next (powerUp_keeps hk)

theorem execRailInRegulation_keeps {s₀ : State} {r : Rail} {s : State} (hk : Keeps s₀ s) :
    KeepsR s₀ (execRailInRegulation r s) := by
  exact KeepsR.next (railInRegulation_keeps hk)

theorem execRailFault_keeps {s₀ : State} {r : Rail} {s : State} (hk : Keeps s₀ s) :
    KeepsR s₀ (execRailFault r s) := by
  exact KeepsR.next (railFault_keeps hk)

theorem execRideThroughEntry_keeps {s₀ : State} {mv : Nat} {s : State} (hk : Keeps s₀ s) :
    KeepsR s₀ (execRideThroughEntry mv s) := by
  exact KeepsR.next (rideThroughEntry_keeps hk)

theorem execReturnThreshold_keeps {s₀ : State} {mv : Nat} {s : State} (hk : Keeps s₀ s) :
    KeepsR s₀ (execReturnThreshold mv s) := by
  exact KeepsR.next (returnThreshold_keeps hk)

theorem execReturnTimerStop_keeps {s₀ : State} {mv : Nat} {s : State} (hk : Keeps s₀ s) :
    KeepsR s₀ (execReturnTimerStop mv s) := by
  exact KeepsR.next (returnTimerStop_keeps hk)

theorem execReturnTimerExpiry_keeps {s₀ : State} {s : State} (hk : Keeps s₀ s) :
    KeepsR s₀ (execReturnTimerExpiry s) := by
  exact KeepsR.next (returnTimerExpiry_keeps hk)

theorem execBrownout_keeps {s₀ : State} {s : State} (hk : Keeps s₀ s) :
    KeepsR s₀ (execBrownout s) := by
  exact KeepsR.next (brownout_keeps hk)

theorem execResetThreshold_keeps {s₀ : State} {mv : Nat} {s : State} (hk : Keeps s₀ s) :
    KeepsR s₀ (execResetThreshold mv s) := by
  exact KeepsR.next (resetThreshold_keeps hk)

theorem execRailTakedown_keeps {s₀ : State} {s : State} (hk : Keeps s₀ s) :
    KeepsR s₀ (execRailTakedown s) := by
  exact KeepsR.next (railTakedown_keeps hk)

theorem execVioCarFault_keeps {s₀ : State} {mv : Nat} {s : State} (hk : Keeps s₀ s) :
    KeepsR s₀ (execVioCarFault mv s) := by
  exact KeepsR.next (vioCarFault_keeps hk)

theorem execCarRst_keeps {s₀ : State} {s : State} (hk : Keeps s₀ s) :
    KeepsR s₀ (execCarRst s) := by
  exact KeepsR.next (carRst_keeps hk)

theorem execCarRstNRelease_keeps {s₀ : State} {s : State} (hk : Keeps s₀ s) :
    KeepsR s₀ (execCarRstNRelease s) := by
  exact KeepsR.next (carRstNRelease_keeps hk)

theorem execFeedLost_keeps {s₀ : State} {b : Bool} {s : State} (hk : Keeps s₀ s) :
    KeepsR s₀ (execFeedLost b s) := by
  exact KeepsR.next (feedLost_keeps hk)

theorem execFaultBitReassert_keeps {s₀ : State} {b : Nat} {s : State} (hk : Keeps s₀ s) :
    KeepsR s₀ (execFaultBitReassert b s) := by
  exact KeepsR.next (faultBitReassert_keeps hk)

theorem execTherm_keeps {s₀ : State} {s : State} (hk : Keeps s₀ s) :
    KeepsR s₀ (execTherm s) := by
  exact KeepsR.next (therm_keeps hk)

theorem execSupplyStatusUpdate_keeps {s₀ : State} {sm : SupplySample} {s : State} (hk : Keeps s₀ s) :
    KeepsR s₀ (execSupplyStatusUpdate sm s) := by
  exact KeepsR.next (supplyStatusUpdate_keeps hk)

theorem execRootLock_keeps {s₀ : State} {s : State} (hk : Keeps s₀ s) :
    KeepsR s₀ (execRootLock s) := by
  exact KeepsR.next (rootLock_keeps hk)

theorem execRootRatio_keeps {s₀ : State} {s : State} (hk : Keeps s₀ s) :
    KeepsR s₀ (execRootRatio s) := by
  exact KeepsR.next (rootRatio_keeps hk)

theorem execRootFaultResponse_keeps {s₀ : State} {s : State} (hk : Keeps s₀ s) :
    KeepsR s₀ (execRootFaultResponse s) := by
  exact KeepsR.next (rootFaultResponse_keeps hk)

theorem execColdReset_keeps {s₀ : State} {cause : Nat} {s : State} (hk : Keeps s₀ s) :
    KeepsR s₀ (execColdReset cause s) := by
  exact KeepsR.next (coldReset_keeps hk)

theorem execWarmReset_keeps {s₀ : State} {s : State} (hk : Keeps s₀ s) :
    KeepsR s₀ (execWarmReset s) := by
  exact KeepsR.next (warmReset_keeps hk)

theorem execVkeepLow_keeps {s₀ : State} {s : State} (hk : Keeps s₀ s) :
    KeepsR s₀ (execVkeepLow s) := by
  exact KeepsR.next (vkeepLow_keeps hk)

theorem execKeepReset_keeps {s₀ : State} {s : State} (hk : Keeps s₀ s) :
    KeepsR s₀ (execKeepReset s) := by
  exact KeepsR.next (keepReset_keeps hk)

/-! ### Pins -/

/-! ### Management -/

theorem State.reject_keeps {s₀ : State} {s : State} {n op tag status item : Nat} (hk : Keeps s₀ s) :
    Keeps s₀ (State.reject s n op tag status item) := by
  unfold State.reject
  repeat' first
    | with_reducible assumption
    | with_reducible apply State.putReplies_keeps
    | (intro _; intros; try beta_reduce)

theorem State.frameErr_keeps {s₀ : State} {s : State} {n : Nat} (hk : Keeps s₀ s) :
    Keeps s₀ (State.frameErr s n) := by
  unfold State.frameErr
  repeat' first
    | with_reducible assumption
    | with_reducible apply State.bump_keeps

theorem State.packet_keeps {s₀ : State} {s : State} {n : Nat} {o : Octets} {limit : Nat} (hk : Keeps s₀ s) :
    Keeps s₀ (State.packet s n o limit) := by
  unfold State.packet
  repeat' first
    | with_reducible assumption
    | (dsimp only [Keeps.mk_eq]; with_reducible apply KeepsD.of)
    | (extract_lets +onlyGivenNames x; refine Keeps.cut (s := s₀) (t := x) ?_ (fun hx => ?_); (on_goal 1 => (unfold x; clear x)); (on_goal 2 => clear_value x))
    | (extract_lets +onlyGivenNames x; refine Keeps.cut2 (s := s₀) (x := x) ?_ (fun hx => ?_); (on_goal 1 => (unfold x; clear x)); (on_goal 2 => clear_value x))
    | (extract_lets +onlyGivenNames x; refine Keeps.cut2 (s := s₀) (x := x.2) ?_ (fun hx => ?_); (on_goal 1 => (unfold x; clear x)); (on_goal 2 => clear_value x))
    | (extract_lets +onlyGivenNames x; (have hv : x = x := by unfold x; exact Eq.refl _); clear hv; clear_value x)
    | with_reducible apply Keeps.ite
    | with_reducible apply State.frameErr_keeps
    | with_reducible apply State.reject_keeps
    | with_reducible apply State.accept_keeps
    | split

theorem mbxDoorbell_keeps {s₀ : State} {m : Master} {page value : Nat} {s : State} (hk : Keeps s₀ s) :
    Keeps s₀ (mbxDoorbell m page value s) := by
  unfold mbxDoorbell
  repeat' first
    | with_reducible assumption
    | with_reducible apply Keeps.ite
    | with_reducible apply State.pageWrite_keeps
    | with_reducible apply State.bump_keeps
    | with_reducible apply State.packet_keeps
    | split
    | (intro _; intros; try beta_reduce)

theorem mbxAck_keeps {s₀ : State} {m : Master} {page value : Nat} {s : State} (hk : Keeps s₀ s) :
    Keeps s₀ (mbxAck m page value s) := by
  unfold mbxAck
  repeat' first
    | with_reducible assumption
    | (dsimp only [Keeps.mk_eq]; with_reducible apply KeepsD.of)
    | with_reducible apply Keeps.ite
    | with_reducible apply State.pageWrite_keeps
    | with_reducible apply State.modSess_keeps
    | with_reducible apply State.setF_keeps
    | with_reducible apply State.postReply_keeps
    | split
    | (intro _; intros; try beta_reduce)

theorem tlsConnect_keeps {s₀ : State} {o : TlsOffer} {s : State} (hk : Keeps s₀ s) :
    Keeps s₀ (tlsConnect o s) := by
  unfold tlsConnect
  repeat' first
    | with_reducible assumption
    | (dsimp only [Keeps.mk_eq]; with_reducible apply KeepsD.of)
    | with_reducible apply Keeps.ite
    | with_reducible apply State.modSess_keeps
    | split
    | (intro _; intros; try beta_reduce)

theorem State.frameClose_keeps {s₀ : State} {s : State} {n : Nat} (hk : Keeps s₀ s) :
    Keeps s₀ (State.frameClose s n) := by
  unfold State.frameClose
  repeat' first
    | with_reducible assumption
    | (dsimp only [Keeps.mk_eq]; with_reducible apply KeepsD.of)
    | with_reducible apply State.putReplies_keeps
    | with_reducible apply State.tlsClose_keeps
    | (intro _; intros; try beta_reduce)

theorem State.stream_keeps {s₀ : State} {s : State} {n k : Nat} (hk : Keeps s₀ s) : Keeps s₀ (State.stream s n k) := by
  induction k generalizing s with
  | zero => exact hk
  | succ k ih =>
    unfold State.stream
    dsimp only
    refine Keeps.ite hk (Keeps.ite (State.frameClose_keeps (State.packet_keeps hk)) (Keeps.ite hk (Keeps.ite ?_ ?_)))
    · exact State.frameClose_keeps (State.packet_keeps (State.modSess_keeps hk))
    · exact ih (State.packet_keeps (State.modSess_keeps hk))

theorem tlsPacket_keeps {s₀ : State} {n : Nat} {o : Octets} {s : State} (hk : Keeps s₀ s) :
    Keeps s₀ (tlsPacket n o s) := by
  unfold tlsPacket
  repeat' first
    | with_reducible assumption
    | (dsimp only [Keeps.mk_eq]; with_reducible apply KeepsD.of)
    | (extract_lets +onlyGivenNames x; refine Keeps.cut (s := s₀) (t := x) ?_ (fun hx => ?_); (on_goal 1 => (unfold x; clear x)); (on_goal 2 => clear_value x))
    | (extract_lets +onlyGivenNames x; refine Keeps.cut2 (s := s₀) (x := x) ?_ (fun hx => ?_); (on_goal 1 => (unfold x; clear x)); (on_goal 2 => clear_value x))
    | (extract_lets +onlyGivenNames x; refine Keeps.cut2 (s := s₀) (x := x.2) ?_ (fun hx => ?_); (on_goal 1 => (unfold x; clear x)); (on_goal 2 => clear_value x))
    | (extract_lets +onlyGivenNames x; (have hv : x = x := by unfold x; exact Eq.refl _); clear hv; clear_value x)
    | with_reducible apply Keeps.ite
    | with_reducible apply State.modSess_keeps
    | with_reducible apply State.stream_keeps
    | split
    | (intro _; intros; try beta_reduce)

theorem tlsIdleTimeout_keeps {s₀ : State} {n : Nat} {s : State} (hk : Keeps s₀ s) :
    Keeps s₀ (tlsIdleTimeout n s) := by
  unfold tlsIdleTimeout
  repeat' first
    | with_reducible assumption
    | with_reducible apply Keeps.ite
    | with_reducible apply State.advanceTo_keeps
    | with_reducible apply State.tlsClose_keeps
    | split

theorem tlsSessionClose_keeps {s₀ : State} {n : Nat} {s : State} (hk : Keeps s₀ s) :
    Keeps s₀ (tlsSessionClose n s) := by
  unfold tlsSessionClose
  repeat' first
    | with_reducible assumption
    | with_reducible apply Keeps.ite
    | with_reducible apply State.tlsClose_keeps
    | split

theorem sysHelloAct_keeps {s₀ : State} {s : State} (hk : Keeps s₀ s) :
    Keeps s₀ (sysHelloAct s).2 := by
  exact KeepsD.of hk

theorem sysJobsAct_keeps {s₀ : State} {s : State} (hk : Keeps s₀ s) :
    Keeps s₀ (sysJobsAct s).2 := by
  unfold sysJobsAct
  repeat' first
    | with_reducible assumption
    | (extract_lets +onlyGivenNames x; refine Keeps.cut (s := s₀) (t := x) ?_ (fun hx => ?_); (on_goal 1 => (unfold x; clear x)); (on_goal 2 => clear_value x))
    | (extract_lets +onlyGivenNames x; refine Keeps.cut2 (s := s₀) (x := x) ?_ (fun hx => ?_); (on_goal 1 => (unfold x; clear x)); (on_goal 2 => clear_value x))
    | (extract_lets +onlyGivenNames x; refine Keeps.cut2 (s := s₀) (x := x.2) ?_ (fun hx => ?_); (on_goal 1 => (unfold x; clear x)); (on_goal 2 => clear_value x))
    | (extract_lets +onlyGivenNames x; (have hv : x = x := by unfold x; exact Eq.refl _); clear hv; clear_value x)
    | with_reducible apply State.drawn_keeps
    | with_reducible apply Keeps.foldl
    | with_reducible apply Keeps.foldl2
    | (intro _; intros; try beta_reduce)

theorem State.undoJob_keeps {s₀ : State} {s : State} {op : Nat} (hk : Keeps s₀ s) :
    Keeps s₀ (State.undoJob s op) := by
  unfold State.undoJob
  repeat' first
    | with_reducible assumption
    | (dsimp only [Keeps.mk_eq]; with_reducible apply KeepsD.of)
    | with_reducible apply State.setStaged_keeps
    | with_reducible apply State.modHlt_keeps
    | with_reducible apply State.setF_keeps
    | split
    | (intro _; intros; try beta_reduce)

theorem sysCancelAct_keeps {s₀ : State} {q : Req} {tag : Nat} {s : State} (hk : Keeps s₀ s) :
    Keeps s₀ (sysCancelAct q tag s).2 := by
  unfold sysCancelAct
  repeat' first
    | with_reducible assumption
    | (dsimp only [Keeps.mk_eq]; with_reducible apply KeepsD.of)
    | with_reducible apply State.undoJob_keeps
    | split
    | (intro _; intros; try beta_reduce)

theorem State.resetAt_keeps {s₀ : State} {s : State} {c : Nat} (hk : Keeps s₀ s) :
    Keeps s₀ (State.resetAt s c) := by
  unfold State.resetAt
  repeat' first
    | with_reducible assumption
    | (dsimp only [Keeps.mk_eq]; with_reducible apply KeepsD.of)
    | with_reducible apply State.drawn_keeps

theorem sysResetAct_keeps {s₀ : State} {kind : Nat} {s : State} (hk : Keeps s₀ s) :
    Keeps s₀ (sysResetAct kind s).2 := by
  unfold sysResetAct
  repeat' first
    | with_reducible assumption
    | with_reducible apply Keeps.ite
    | with_reducible apply Keeps.ite2
    | with_reducible apply State.resetAt_keeps
    | split

theorem xferOpenAct_keeps {s₀ : State} {size : Nat} {s : State} (hk : Keeps s₀ s) :
    Keeps s₀ (xferOpenAct size s).2 := by
  unfold xferOpenAct
  repeat' first
    | with_reducible assumption
    | (dsimp only [Keeps.mk_eq]; with_reducible apply KeepsD.of)
    | (extract_lets +onlyGivenNames x; refine Keeps.cut (s := s₀) (t := x) ?_ (fun hx => ?_); (on_goal 1 => (unfold x; clear x)); (on_goal 2 => clear_value x))
    | (extract_lets +onlyGivenNames x; refine Keeps.cut2 (s := s₀) (x := x) ?_ (fun hx => ?_); (on_goal 1 => (unfold x; clear x)); (on_goal 2 => clear_value x))
    | (extract_lets +onlyGivenNames x; refine Keeps.cut2 (s := s₀) (x := x.2) ?_ (fun hx => ?_); (on_goal 1 => (unfold x; clear x)); (on_goal 2 => clear_value x))
    | (extract_lets +onlyGivenNames x; (have hv : x = x := by unfold x; exact Eq.refl _); clear hv; clear_value x)
    | with_reducible apply Keeps.ite
    | with_reducible apply Keeps.ite2
    | split

theorem xferWriteAct_keeps {s₀ : State} {h off : Nat} {data : Octets} {s : State} (hk : Keeps s₀ s) :
    Keeps s₀ (xferWriteAct h off data s).2 := by
  unfold xferWriteAct
  repeat' first
    | with_reducible assumption
    | (dsimp only [Keeps.mk_eq]; with_reducible apply KeepsD.of)
    | with_reducible apply Keeps.ite
    | with_reducible apply Keeps.ite2
    | with_reducible apply State.flashWrite_keeps
    | split

theorem xferReadAct_keeps {s₀ : State} {h off len : Nat} {s : State} (hk : Keeps s₀ s) :
    Keeps s₀ (xferReadAct h off len s).2 := by
  unfold xferReadAct
  repeat' first
    | with_reducible assumption
    | (dsimp only [Keeps.mk_eq]; with_reducible apply KeepsD.of)
    | with_reducible apply Keeps.ite
    | with_reducible apply Keeps.ite2
    | split
    | (intro _; intros; try beta_reduce)

theorem xferCloseAct_keeps {s₀ : State} {h : Nat} {s : State} (hk : Keeps s₀ s) :
    Keeps s₀ (xferCloseAct h s).2 := by
  unfold xferCloseAct
  repeat' first
    | with_reducible assumption
    | (dsimp only [Keeps.mk_eq]; with_reducible apply KeepsD.of)
    | with_reducible apply Keeps.ite
    | with_reducible apply Keeps.ite2
    | split

theorem execMbxDoorbell_keeps {s₀ : State} {m : Master} {page value : Nat} {s : State} (hk : Keeps s₀ s) :
    KeepsR s₀ (execMbxDoorbell m page value s) := by
  exact KeepsR.next (mbxDoorbell_keeps hk)

theorem execMbxAck_keeps {s₀ : State} {m : Master} {page value : Nat} {s : State} (hk : Keeps s₀ s) :
    KeepsR s₀ (execMbxAck m page value s) := by
  exact KeepsR.next (mbxAck_keeps hk)

theorem execTlsConnect_keeps {s₀ : State} {o : TlsOffer} {s : State} (hk : Keeps s₀ s) :
    KeepsR s₀ (execTlsConnect o s) := by
  exact KeepsR.next (tlsConnect_keeps hk)

theorem execTlsPacket_keeps {s₀ : State} {sess : Nat} {octets : Octets} {s : State} (hk : Keeps s₀ s) :
    KeepsR s₀ (execTlsPacket sess octets s) := by
  exact KeepsR.next (tlsPacket_keeps hk)

theorem execTlsIdleTimeout_keeps {s₀ : State} {sess : Nat} {s : State} (hk : Keeps s₀ s) :
    KeepsR s₀ (execTlsIdleTimeout sess s) := by
  exact KeepsR.next (tlsIdleTimeout_keeps hk)

theorem execTlsSessionClose_keeps {s₀ : State} {sess : Nat} {s : State} (hk : Keeps s₀ s) :
    KeepsR s₀ (execTlsSessionClose sess s) := by
  exact KeepsR.next (tlsSessionClose_keeps hk)

theorem execSysHello_keeps {s₀ : State} {q : Req} {s : State} (hk : Keeps s₀ s) :
    KeepsR s₀ (execSysHello q s) := by
  exact State.patchaif_keeps hk (fun _ h => sysHelloAct_keeps h)

theorem execSysJobs_keeps {s₀ : State} {q : Req} {s : State} (hk : Keeps s₀ s) :
    KeepsR s₀ (execSysJobs q s) := by
  exact State.patchaif_keeps hk (fun _ h => sysJobsAct_keeps h)

theorem execSysCancel_keeps {s₀ : State} {q : Req} {tag : Nat} {s : State} (hk : Keeps s₀ s) :
    KeepsR s₀ (execSysCancel q tag s) := by
  have h := State.patchaif_keeps (q := q) (op := 0x0103) (ps := le 2 tag) (long := false) (tenant := false) (act := sysCancelAct q tag) hk
    (fun _ hu => sysCancelAct_keeps hu)
  unfold execSysCancel
  split
  · rename_i t j ht _
    have ht := h t ht
    exact KeepsR.ite (KeepsR.next ht) (KeepsR.next (State.answer_keeps ht))
  · exact h

theorem execSysReset_keeps {s₀ : State} {q : Req} {kind : Nat} {s : State} (hk : Keeps s₀ s) :
    KeepsR s₀ (execSysReset q kind s) := by
  exact State.patchaif_keeps hk (fun _ h => sysResetAct_keeps h)

theorem execXferOpen_keeps {s₀ : State} {q : Req} {size : Nat} {s : State} (hk : Keeps s₀ s) :
    KeepsR s₀ (execXferOpen q size s) := by
  exact State.patchaif_keeps hk (fun _ h => xferOpenAct_keeps h)

theorem execXferWrite_keeps {s₀ : State} {q : Req} {handle offset : Nat} {data : Octets} {s : State} (hk : Keeps s₀ s) :
    KeepsR s₀ (execXferWrite q handle offset data s) := by
  exact State.patchaif_keeps hk (fun _ h => xferWriteAct_keeps h)

theorem execXferRead_keeps {s₀ : State} {q : Req} {handle offset len : Nat} {s : State} (hk : Keeps s₀ s) :
    KeepsR s₀ (execXferRead q handle offset len s) := by
  exact State.patchaif_keeps hk (fun _ h => xferReadAct_keeps h)

theorem execXferClose_keeps {s₀ : State} {q : Req} {handle : Nat} {s : State} (hk : Keeps s₀ s) :
    KeepsR s₀ (execXferClose q handle s) := by
  exact State.patchaif_keeps hk (fun _ h => xferCloseAct_keeps h)

/-! ### RegStore -/

theorem State.storeField_keeps {s₀ : State} {s : State} {locked : Bool} {v : Nat} {f : Field} (hk : Keeps s₀ s) :
    Keeps s₀ (State.storeField s locked v f) := by
  unfold State.storeField
  repeat' first
    | with_reducible assumption
    | (dsimp only [Keeps.mk_eq]; with_reducible apply KeepsD.of)
    | (extract_lets +onlyGivenNames x; refine Keeps.cut (s := s₀) (t := x) ?_ (fun hx => ?_); (on_goal 1 => (unfold x; clear x)); (on_goal 2 => clear_value x))
    | (extract_lets +onlyGivenNames x; refine Keeps.cut2 (s := s₀) (x := x) ?_ (fun hx => ?_); (on_goal 1 => (unfold x; clear x)); (on_goal 2 => clear_value x))
    | (extract_lets +onlyGivenNames x; refine Keeps.cut2 (s := s₀) (x := x.2) ?_ (fun hx => ?_); (on_goal 1 => (unfold x; clear x)); (on_goal 2 => clear_value x))
    | (extract_lets +onlyGivenNames x; (have hv : x = x := by unfold x; exact Eq.refl _); clear hv; clear_value x)
    | with_reducible apply Keeps.ite
    | with_reducible apply State.setF_keeps
    | split

theorem State.storeReg_keeps {s₀ : State} {s : State} {fs : List Field} {locked : Bool} {v : Nat} (hk : Keeps s₀ s) :
    Keeps s₀ (State.storeReg s fs locked v) := by
  unfold State.storeReg
  repeat' first
    | with_reducible assumption
    | with_reducible apply State.storeField_keeps
    | with_reducible apply Keeps.foldl
    | with_reducible apply Keeps.foldl2
    | (intro _; intros; try beta_reduce)

theorem State.clearRead_keeps {s₀ : State} {s : State} {fs : List Field} (hk : Keeps s₀ s) :
    Keeps s₀ (State.clearRead s fs) := by
  unfold State.clearRead
  repeat' first
    | with_reducible assumption
    | with_reducible apply Keeps.ite
    | with_reducible apply State.setF_keeps
    | with_reducible apply Keeps.foldl
    | with_reducible apply Keeps.foldl2
    | split
    | (intro _; intros; try beta_reduce)

/-! ### Bundle -/

theorem State.resetPages_keeps {s₀ : State} {s : State} {lo hi : Nat} {keep : List Field} (hk : Keeps s₀ s) :
    Keeps s₀ (State.resetPages s lo hi keep) := by
  unfold State.resetPages
  repeat' first
    | with_reducible assumption
    | (dsimp only [Keeps.mk_eq]; with_reducible apply KeepsD.of)
    | (dsimp only [Keeps.mk_eq]; with_reducible apply KeepsD.filterRegs)
    | (intro _; intros; try beta_reduce)

theorem State.engineReset_keeps {s₀ : State} {s : State} {t : Nat} (hk : Keeps s₀ s) :
    Keeps s₀ (State.engineReset s t) := by
  unfold State.engineReset
  repeat' first
    | with_reducible assumption
    | (dsimp only [Keeps.mk_eq]; with_reducible apply KeepsD.of)
    | (dsimp only [Keeps.mk_eq]; with_reducible apply KeepsD.clear)
    | (extract_lets +onlyGivenNames x; refine Keeps.cut (s := s₀) (t := x) ?_ (fun hx => ?_); (on_goal 1 => (unfold x; clear x)); (on_goal 2 => clear_value x))
    | (extract_lets +onlyGivenNames x; refine Keeps.cut2 (s := s₀) (x := x) ?_ (fun hx => ?_); (on_goal 1 => (unfold x; clear x)); (on_goal 2 => clear_value x))
    | (extract_lets +onlyGivenNames x; refine Keeps.cut2 (s := s₀) (x := x.2) ?_ (fun hx => ?_); (on_goal 1 => (unfold x; clear x)); (on_goal 2 => clear_value x))
    | (extract_lets +onlyGivenNames x; (have hv : x = x := by unfold x; exact Eq.refl _); clear hv; clear_value x)
    | with_reducible apply State.resetPages_keeps
    | with_reducible apply State.clearFields_keeps
    | split
    | (intro _; intros; try beta_reduce)

theorem State.cfgItem_keeps {s₀ : State} {s : State} {i : CfgItem} (hk : Keeps s₀ s) :
    Keeps s₀ (State.cfgItem s i) := by
  unfold State.cfgItem
  repeat' first
    | with_reducible assumption
    | (dsimp only [Keeps.mk_eq]; with_reducible apply KeepsD.of)
    | with_reducible apply Keeps.ite
    | with_reducible apply State.storeReg_keeps
    | with_reducible apply State.ctxInstall_keeps
    | with_reducible apply State.setMap_keeps
    | with_reducible apply State.setPheEnt_keeps
    | with_reducible apply State.setGcmEnt_keeps
    | with_reducible apply State.slpPut_keeps
    | with_reducible apply State.setPubEnt_keeps
    | with_reducible apply State.setDreEnt_keeps
    | with_reducible apply State.modPair_keeps
    | with_reducible apply State.setSltEnt_keeps
    | split
    | (intro _; intros; try beta_reduce)

theorem State.derived_keeps {s₀ : State} {s : State} (hk : Keeps s₀ s) :
    Keeps s₀ (State.derived s) := by
  unfold State.derived
  repeat' first
    | with_reducible assumption
    | (dsimp only [Keeps.mk_eq]; with_reducible apply KeepsD.of)
    | (extract_lets +onlyGivenNames x; refine Keeps.cut (s := s₀) (t := x) ?_ (fun hx => ?_); (on_goal 1 => (unfold x; clear x)); (on_goal 2 => clear_value x))
    | (extract_lets +onlyGivenNames x; refine Keeps.cut2 (s := s₀) (x := x) ?_ (fun hx => ?_); (on_goal 1 => (unfold x; clear x)); (on_goal 2 => clear_value x))
    | (extract_lets +onlyGivenNames x; refine Keeps.cut2 (s := s₀) (x := x.2) ?_ (fun hx => ?_); (on_goal 1 => (unfold x; clear x)); (on_goal 2 => clear_value x))
    | (extract_lets +onlyGivenNames x; (have hv : x = x := by unfold x; exact Eq.refl _); clear hv; clear_value x)
    | with_reducible apply State.setF_keeps
    | with_reducible apply State.setSlpEnt_keeps
    | with_reducible apply Keeps.foldl
    | with_reducible apply Keeps.foldl2
    | (intro _; intros; try beta_reduce)

theorem State.configured_keeps {s₀ : State} {s : State} {b : Bundle} (hk : Keeps s₀ s) :
    Keeps s₀ (State.configured s b) := by
  unfold State.configured
  repeat' first
    | with_reducible assumption
    | (dsimp only [Keeps.mk_eq]; with_reducible apply KeepsD.of)
    | (extract_lets +onlyGivenNames x; refine Keeps.cut (s := s₀) (t := x) ?_ (fun hx => ?_); (on_goal 1 => (unfold x; clear x)); (on_goal 2 => clear_value x))
    | (extract_lets +onlyGivenNames x; refine Keeps.cut2 (s := s₀) (x := x) ?_ (fun hx => ?_); (on_goal 1 => (unfold x; clear x)); (on_goal 2 => clear_value x))
    | (extract_lets +onlyGivenNames x; refine Keeps.cut2 (s := s₀) (x := x.2) ?_ (fun hx => ?_); (on_goal 1 => (unfold x; clear x)); (on_goal 2 => clear_value x))
    | (extract_lets +onlyGivenNames x; (have hv : x = x := by unfold x; exact Eq.refl _); clear hv; clear_value x)
    | with_reducible apply State.engineReset_keeps
    | with_reducible apply State.disarm_keeps
    | with_reducible apply State.cfgItem_keeps
    | with_reducible apply State.tbuFollow_keeps
    | with_reducible apply State.derived_keeps
    | with_reducible apply Keeps.foldl
    | with_reducible apply Keeps.foldl2
    | (intro _; intros; try beta_reduce)

theorem State.checked_keeps {s₀ : State} {s t : State} {b : Bundle} (hk : Keeps s₀ s) (hr : s.checked b = .inr t) :
    Keeps s₀ t := by
  unfold State.checked at hr
  split at hr
  · cases hr
  · split at hr
    · cases hr
    · dsimp only at hr
      split at hr <;> cases hr
      exact State.configured_keeps hk

theorem State.islandCommit_keeps {s₀ : State} {s : State} {changed : Bool} (hk : Keeps s₀ s) :
    Keeps s₀ (State.islandCommit s changed) := by
  unfold State.islandCommit
  repeat' first
    | with_reducible assumption
    | (dsimp only [Keeps.mk_eq]; with_reducible apply KeepsD.of)
    | (extract_lets +onlyGivenNames x; refine Keeps.cut (s := s₀) (t := x) ?_ (fun hx => ?_); (on_goal 1 => (unfold x; clear x)); (on_goal 2 => clear_value x))
    | (extract_lets +onlyGivenNames x; refine Keeps.cut2 (s := s₀) (x := x) ?_ (fun hx => ?_); (on_goal 1 => (unfold x; clear x)); (on_goal 2 => clear_value x))
    | (extract_lets +onlyGivenNames x; refine Keeps.cut2 (s := s₀) (x := x.2) ?_ (fun hx => ?_); (on_goal 1 => (unfold x; clear x)); (on_goal 2 => clear_value x))
    | (extract_lets +onlyGivenNames x; (have hv : x = x := by unfold x; exact Eq.refl _); clear hv; clear_value x)
    | with_reducible apply Keeps.ite
    | with_reducible apply State.modPsc_keeps
    | with_reducible apply State.takeParams_keeps
    | with_reducible apply State.islandStart_keeps
    | split
    | (intro _; intros; try beta_reduce)

theorem State.commitPoint_keeps {s₀ : State} {s t : State} {b : Bundle} {pend : Bool} (hk0 : Keeps s₀ s) (hk1 : Keeps s₀ t) :
    Keeps s₀ (State.commitPoint s t b pend) := by
  unfold State.commitPoint
  repeat' first
    | with_reducible assumption
    | (dsimp only [Keeps.mk_eq]; with_reducible apply KeepsD.of)
    | (extract_lets +onlyGivenNames x; refine Keeps.cut (s := s₀) (t := x) ?_ (fun hx => ?_); (on_goal 1 => (unfold x; clear x)); (on_goal 2 => clear_value x))
    | (extract_lets +onlyGivenNames x; refine Keeps.cut2 (s := s₀) (x := x) ?_ (fun hx => ?_); (on_goal 1 => (unfold x; clear x)); (on_goal 2 => clear_value x))
    | (extract_lets +onlyGivenNames x; refine Keeps.cut2 (s := s₀) (x := x.2) ?_ (fun hx => ?_); (on_goal 1 => (unfold x; clear x)); (on_goal 2 => clear_value x))
    | (extract_lets +onlyGivenNames x; (have hv : x = x := by unfold x; exact Eq.refl _); clear hv; clear_value x)
    | with_reducible apply Keeps.ite
    | with_reducible apply State.slotWrite_keeps
    | with_reducible apply State.extendMs_keeps
    | with_reducible apply State.statusBit_keeps
    | with_reducible apply State.islandCommit_keeps
    | with_reducible apply State.belfry_keeps
    | with_reducible apply State.dreCommit_keeps
    | split
    | (intro _; intros; try beta_reduce)

theorem State.waitFromNow_keeps {s₀ : State} {s : State} (hk : Keeps s₀ s) :
    Keeps s₀ (State.waitFromNow s) := by
  unfold State.waitFromNow
  repeat' first
    | with_reducible assumption
    | (dsimp only [Keeps.mk_eq]; with_reducible apply KeepsD.of)
    | with_reducible apply Keeps.ite
    | split
    | (intro _; intros; try beta_reduce)

theorem State.groupA_keeps {s₀ : State} {s : State} (hk : Keeps s₀ s) :
    Keeps s₀ (State.groupA s) := by
  unfold State.groupA
  repeat' first
    | with_reducible assumption
    | (dsimp only [Keeps.mk_eq]; with_reducible apply KeepsD.of)
    | (extract_lets +onlyGivenNames x; refine Keeps.cut (s := s₀) (t := x) ?_ (fun hx => ?_); (on_goal 1 => (unfold x; clear x)); (on_goal 2 => clear_value x))
    | (extract_lets +onlyGivenNames x; refine Keeps.cut2 (s := s₀) (x := x) ?_ (fun hx => ?_); (on_goal 1 => (unfold x; clear x)); (on_goal 2 => clear_value x))
    | (extract_lets +onlyGivenNames x; refine Keeps.cut2 (s := s₀) (x := x.2) ?_ (fun hx => ?_); (on_goal 1 => (unfold x; clear x)); (on_goal 2 => clear_value x))
    | (extract_lets +onlyGivenNames x; (have hv : x = x := by unfold x; exact Eq.refl _); clear hv; clear_value x)
    | with_reducible apply Keeps.ite
    | with_reducible apply State.setF_keeps
    | with_reducible apply State.waitFromNow_keeps
    | with_reducible apply qbcStart_keeps
    | with_reducible apply State.evalReady_keeps
    | split

theorem State.failed_keeps {s₀ : State} {s : State} {e : Nat × Nat × Nat} (hk : Keeps s₀ s) :
    Keeps s₀ (State.failed s e) := by
  unfold State.failed
  repeat' first
    | with_reducible assumption
    | (dsimp only [Keeps.mk_eq]; with_reducible apply KeepsD.of)

theorem State.stageBase_keeps {s₀ : State} {s : State} (hk : Keeps s₀ s) :
    Keeps s₀ (State.stageBase s) := by
  unfold State.stageBase
  repeat' first
    | with_reducible assumption
    | with_reducible apply Keeps.ite
    | with_reducible apply State.blocksReset_keeps
    | split

theorem bundleStageAct_keeps {s₀ : State} {q : Req} {buf : BufRef} {c : BundleContent} {s : State} (hk : Keeps s₀ s) :
    Keeps s₀ (bundleStageAct q buf c s).2 := by
  unfold bundleStageAct
  repeat' first
    | with_reducible assumption
    | (dsimp only [Keeps.mk_eq]; with_reducible apply KeepsD.of)
    | with_reducible apply Keeps.ite
    | with_reducible apply Keeps.ite2
    | split

theorem State.stageEnd_keeps {s₀ : State} {s : State} (hk : Keeps s₀ s) :
    Keeps s₀ (State.stageEnd s).2 := by
  unfold State.stageEnd
  repeat' first
    | with_reducible assumption
    | (dsimp only [Keeps.mk_eq]; with_reducible apply KeepsD.of)
    | (extract_lets +onlyGivenNames x; refine Keeps.cut (s := s₀) (t := x) ?_ (fun hx => ?_); (on_goal 1 => (unfold x; clear x)); (on_goal 2 => clear_value x))
    | (extract_lets +onlyGivenNames x; refine Keeps.cut2 (s := s₀) (x := x) ?_ (fun hx => ?_); (on_goal 1 => (unfold x; clear x)); (on_goal 2 => clear_value x))
    | (extract_lets +onlyGivenNames x; refine Keeps.cut2 (s := s₀) (x := x.2) ?_ (fun hx => ?_); (on_goal 1 => (unfold x; clear x)); (on_goal 2 => clear_value x))
    | (extract_lets +onlyGivenNames x; (have hv : x = x := by unfold x; exact Eq.refl _); clear hv; clear_value x)
    | with_reducible apply State.failed_keeps
    | with_reducible apply State.flashWrite_keeps
    | with_reducible apply State.stageBase_keeps
    | split
    | with_reducible refine State.checked_keeps ?_ (by with_reducible assumption)

theorem bundleActivateAct_keeps {s₀ : State} {reset : Nat} {s : State} (hk : Keeps s₀ s) :
    Keeps s₀ (bundleActivateAct reset s).2 := by
  unfold bundleActivateAct
  repeat' first
    | with_reducible assumption
    | (dsimp only [Keeps.mk_eq]; with_reducible apply KeepsD.of)
    | (extract_lets +onlyGivenNames x; refine Keeps.cut (s := s₀) (t := x) ?_ (fun hx => ?_); (on_goal 1 => (unfold x; clear x)); (on_goal 2 => clear_value x))
    | (extract_lets +onlyGivenNames x; refine Keeps.cut2 (s := s₀) (x := x) ?_ (fun hx => ?_); (on_goal 1 => (unfold x; clear x)); (on_goal 2 => clear_value x))
    | (extract_lets +onlyGivenNames x; refine Keeps.cut2 (s := s₀) (x := x.2) ?_ (fun hx => ?_); (on_goal 1 => (unfold x; clear x)); (on_goal 2 => clear_value x))
    | (extract_lets +onlyGivenNames x; (have hv : x = x := by unfold x; exact Eq.refl _); clear hv; clear_value x)
    | with_reducible apply Keeps.ite
    | with_reducible apply Keeps.ite2
    | with_reducible apply State.slotWrite_keeps
    | with_reducible apply State.resetAt_keeps
    | split
    | (intro _; intros; try beta_reduce)

theorem bundleCommitAct_keeps {s₀ : State} {s : State} (hk : Keeps s₀ s) :
    Keeps s₀ (bundleCommitAct s).2 := by
  unfold bundleCommitAct
  repeat' first
    | with_reducible assumption
    | with_reducible apply Keeps.ite
    | with_reducible apply Keeps.ite2
    | split

theorem State.commitEnd_keeps {s₀ : State} {s : State} (hk : Keeps s₀ s) :
    Keeps s₀ (State.commitEnd s).2 := by
  unfold State.commitEnd
  repeat' first
    | with_reducible assumption
    | (dsimp only [Keeps.mk_eq]; with_reducible apply KeepsD.of)
    | (extract_lets +onlyGivenNames x; refine Keeps.cut (s := s₀) (t := x) ?_ (fun hx => ?_); (on_goal 1 => (unfold x; clear x)); (on_goal 2 => clear_value x))
    | (extract_lets +onlyGivenNames x; refine Keeps.cut2 (s := s₀) (x := x) ?_ (fun hx => ?_); (on_goal 1 => (unfold x; clear x)); (on_goal 2 => clear_value x))
    | (extract_lets +onlyGivenNames x; refine Keeps.cut2 (s := s₀) (x := x.2) ?_ (fun hx => ?_); (on_goal 1 => (unfold x; clear x)); (on_goal 2 => clear_value x))
    | (extract_lets +onlyGivenNames x; (have hv : x = x := by unfold x; exact Eq.refl _); clear hv; clear_value x)
    | with_reducible apply Keeps.ite
    | with_reducible apply Keeps.ite2
    | with_reducible apply State.failed_keeps
    | with_reducible apply State.commitPoint_keeps
    | with_reducible apply State.groupA_keeps
    | split
    | with_reducible refine State.checked_keeps ?_ (by with_reducible assumption)

theorem bundleDiscardAct_keeps {s₀ : State} {s : State} (hk : Keeps s₀ s) :
    Keeps s₀ (bundleDiscardAct s).2 := by
  unfold bundleDiscardAct
  repeat' first
    | with_reducible assumption
    | (dsimp only [Keeps.mk_eq]; with_reducible apply KeepsD.of)
    | with_reducible apply Keeps.ite
    | with_reducible apply Keeps.ite2
    | with_reducible apply State.slotWrite_keeps
    | split
    | (intro _; intros; try beta_reduce)

theorem bundleStatusAct_keeps {s₀ : State} {s : State} (hk : Keeps s₀ s) :
    Keeps s₀ (bundleStatusAct s).2 := by
  unfold bundleStatusAct
  repeat' first
    | with_reducible assumption
    | (intro _; intros; try beta_reduce)

theorem execBundleStage_keeps {s₀ : State} {q : Req} {buf : BufRef} {b : BundleContent} {s : State} (hk : Keeps s₀ s) :
    KeepsR s₀ (execBundleStage q buf b s) := by
  exact State.patchaif_keeps hk (fun _ h => bundleStageAct_keeps h)

theorem execBundleActivate_keeps {s₀ : State} {q : Req} {reset : Nat} {s : State} (hk : Keeps s₀ s) :
    KeepsR s₀ (execBundleActivate q reset s) := by
  exact State.patchaif_keeps hk (fun _ h => bundleActivateAct_keeps h)

theorem execBundleCommit_keeps {s₀ : State} {q : Req} {s : State} (hk : Keeps s₀ s) :
    KeepsR s₀ (execBundleCommit q s) := by
  exact State.patchaif_keeps hk (fun _ h => bundleCommitAct_keeps h)

theorem execBundleDiscard_keeps {s₀ : State} {q : Req} {s : State} (hk : Keeps s₀ s) :
    KeepsR s₀ (execBundleDiscard q s) := by
  exact State.patchaif_keeps hk (fun _ h => bundleDiscardAct_keeps h)

theorem execBundleStatus_keeps {s₀ : State} {q : Req} {s : State} (hk : Keeps s₀ s) :
    KeepsR s₀ (execBundleStatus q s) := by
  exact State.patchaif_keeps hk (fun _ h => bundleStatusAct_keeps h)

/-! ### Startup -/

theorem State.noBundle_keeps {s₀ : State} {s : State} (hk : Keeps s₀ s) :
    Keeps s₀ (State.noBundle s) := by
  unfold State.noBundle
  repeat' first
    | with_reducible assumption
    | with_reducible apply State.setF_keeps
    | with_reducible apply State.evalReady_keeps

theorem State.commitActive_keeps {s₀ : State} {s : State} (hk : Keeps s₀ s) :
    Keeps s₀ (State.commitActive s) := by
  unfold State.commitActive
  repeat' first
    | with_reducible assumption
    | (dsimp only [Keeps.mk_eq]; with_reducible apply KeepsD.of)
    | with_reducible apply State.noBundle_keeps
    | with_reducible apply State.failed_keeps
    | with_reducible apply State.commitPoint_keeps
    | with_reducible apply State.groupA_keeps
    | split
    | with_reducible refine State.checked_keeps ?_ (by with_reducible assumption)

theorem prepareComplete_keeps {s₀ : State} {s : State} (hk : Keeps s₀ s) :
    Keeps s₀ (prepareComplete s) := by
  unfold prepareComplete
  repeat' first
    | with_reducible assumption
    | (dsimp only [Keeps.mk_eq]; with_reducible apply KeepsD.of)
    | (extract_lets +onlyGivenNames x; refine Keeps.cut (s := s₀) (t := x) ?_ (fun hx => ?_); (on_goal 1 => (unfold x; clear x)); (on_goal 2 => clear_value x))
    | (extract_lets +onlyGivenNames x; refine Keeps.cut2 (s := s₀) (x := x) ?_ (fun hx => ?_); (on_goal 1 => (unfold x; clear x)); (on_goal 2 => clear_value x))
    | (extract_lets +onlyGivenNames x; refine Keeps.cut2 (s := s₀) (x := x.2) ?_ (fun hx => ?_); (on_goal 1 => (unfold x; clear x)); (on_goal 2 => clear_value x))
    | (extract_lets +onlyGivenNames x; (have hv : x = x := by unfold x; exact Eq.refl _); clear hv; clear_value x)
    | with_reducible apply Keeps.ite
    | with_reducible apply State.groupA_keeps
    | with_reducible apply State.setF_keeps
    | with_reducible apply State.commitActive_keeps
    | with_reducible apply State.failed_keeps
    | with_reducible apply State.commitPoint_keeps
    | with_reducible apply State.slotWrite_keeps
    | split
    | (intro _; intros; try beta_reduce)
    | with_reducible refine State.checked_keeps ?_ (by with_reducible assumption)

theorem State.slpStart_keeps {s₀ : State} {s : State} (hk : Keeps s₀ s) :
    Keeps s₀ (State.slpStart s) := by
  unfold State.slpStart
  repeat' first
    | with_reducible assumption
    | (dsimp only [Keeps.mk_eq]; with_reducible apply KeepsD.of)
    | (extract_lets +onlyGivenNames x; refine Keeps.cut (s := s₀) (t := x) ?_ (fun hx => ?_); (on_goal 1 => (unfold x; clear x)); (on_goal 2 => clear_value x))
    | (extract_lets +onlyGivenNames x; refine Keeps.cut2 (s := s₀) (x := x) ?_ (fun hx => ?_); (on_goal 1 => (unfold x; clear x)); (on_goal 2 => clear_value x))
    | (extract_lets +onlyGivenNames x; refine Keeps.cut2 (s := s₀) (x := x.2) ?_ (fun hx => ?_); (on_goal 1 => (unfold x; clear x)); (on_goal 2 => clear_value x))
    | (extract_lets +onlyGivenNames x; (have hv : x = x := by unfold x; exact Eq.refl _); clear hv; clear_value x)
    | with_reducible apply State.modCls_keeps
    | with_reducible apply Keeps.foldl
    | with_reducible apply Keeps.foldl2
    | (intro _; intros; try beta_reduce)

theorem State.enableB_keeps {s₀ : State} {s : State} {f : Field} (hk : Keeps s₀ s) :
    Keeps s₀ (State.enableB s f) := by
  unfold State.enableB
  repeat' first
    | with_reducible assumption
    | (dsimp only [Keeps.mk_eq]; with_reducible apply KeepsD.of)
    | with_reducible apply Keeps.ite
    | with_reducible apply State.setF_keeps
    | split

theorem groupBEnable_keeps {s₀ : State} {s : State} (hk : Keeps s₀ s) :
    Keeps s₀ (groupBEnable s) := by
  unfold groupBEnable
  repeat' first
    | with_reducible assumption
    | (extract_lets +onlyGivenNames x; refine Keeps.cut (s := s₀) (t := x) ?_ (fun hx => ?_); (on_goal 1 => (unfold x; clear x)); (on_goal 2 => clear_value x))
    | (extract_lets +onlyGivenNames x; refine Keeps.cut2 (s := s₀) (x := x) ?_ (fun hx => ?_); (on_goal 1 => (unfold x; clear x)); (on_goal 2 => clear_value x))
    | (extract_lets +onlyGivenNames x; refine Keeps.cut2 (s := s₀) (x := x.2) ?_ (fun hx => ?_); (on_goal 1 => (unfold x; clear x)); (on_goal 2 => clear_value x))
    | (extract_lets +onlyGivenNames x; (have hv : x = x := by unfold x; exact Eq.refl _); clear hv; clear_value x)
    | with_reducible apply Keeps.ite
    | with_reducible apply State.advanceTo_keeps
    | with_reducible apply State.enableB_keeps
    | with_reducible apply State.slpStart_keeps
    | with_reducible apply State.latStart_keeps
    | with_reducible apply State.armInit_keeps
    | with_reducible apply State.setF_keeps
    | with_reducible apply State.evalReady_keeps
    | with_reducible apply Keeps.foldl
    | with_reducible apply Keeps.foldl2
    | split
    | (intro _; intros; try beta_reduce)

theorem State.jobEnd_keeps {s₀ : State} {s : State} {j : Job} {r : (Nat × Nat × Nat × Nat) × State} (hk : Keeps s₀ s)
    (hr : s.jobEnd j = some r) : Keeps s₀ r.2 := by
  unfold State.jobEnd at hr
  dsimp only at hr
  split at hr
  · split at hr
    · cases hr
    · cases hr; exact State.stageEnd_keeps hk
  · split at hr
    · cases hr
    · split at hr
      · cases hr; exact State.commitEnd_keeps hk
      · split at hr
        · split at hr <;> cases hr <;> exact hk
        · split at hr
          · cases hr; exact State.loadEnd_keeps hk
          · split at hr
            · cases hr; exact State.exportEnd_keeps hk
            · split at hr
              · simp only [Option.map_eq_some_iff] at hr
                obtain ⟨_, _, rfl⟩ := hr; exact hk
              · split at hr
                · simp only [Option.map_eq_some_iff] at hr
                  obtain ⟨_, _, rfl⟩ := hr; exact hk
                · split at hr <;> cases hr <;> exact hk

theorem State.jobBroken_keeps {s₀ : State} {s : State} {j : Job} (hk : Keeps s₀ s) :
    Keeps s₀ (State.jobBroken s j) := by
  unfold State.jobBroken
  refine Keeps.ite (State.undoJob_keeps (State.drawn_keeps hk)) ?_
  cases hj : s.drawn.jobEnd j with
  | none => exact State.drawn_keeps hk
  | some r => exact State.jobEnd_keeps (State.drawn_keeps hk) hj

theorem longCommandCompletion_keeps {s₀ : State} {e : LongEnd} {s : State} (hk : Keeps s₀ s) :
    Keeps s₀ (longCommandCompletion e s) := by
  unfold longCommandCompletion
  repeat' first
    | with_reducible assumption
    | (dsimp only [Keeps.mk_eq]; with_reducible apply KeepsD.of)
    | with_reducible apply Keeps.ite
    | with_reducible apply State.jobBroken_keeps
    | with_reducible apply State.flashWrite_keeps
    | with_reducible apply State.complete_keeps
    | split
    | (intro _; intros; try beta_reduce)
    | with_reducible refine State.jobEnd_keeps ?_ (by with_reducible assumption)

theorem execPrepareComplete_keeps {s₀ : State} {s : State} (hk : Keeps s₀ s) :
    KeepsR s₀ (execPrepareComplete s) := by
  exact KeepsR.next (prepareComplete_keeps hk)

theorem execGroupBEnable_keeps {s₀ : State} {s : State} (hk : Keeps s₀ s) :
    KeepsR s₀ (execGroupBEnable s) := by
  exact KeepsR.next (groupBEnable_keeps hk)

theorem execLongCommandCompletion_keeps {s₀ : State} {e : LongEnd} {s : State} (hk : Keeps s₀ s) :
    KeepsR s₀ (execLongCommandCompletion e s) := by
  exact KeepsR.next (longCommandCompletion_keeps hk)

/-! ### Fabric -/

theorem State.showPool_keeps {s₀ : State} {s : State} (hk : Keeps s₀ s) :
    Keeps s₀ (State.showPool s) := by
  unfold State.showPool
  repeat' first
    | with_reducible assumption
    | with_reducible apply State.setF_keeps

theorem State.showNow_keeps {s₀ : State} {s : State} (hk : Keeps s₀ s) :
    Keeps s₀ (State.showNow s) := by
  unfold State.showNow
  repeat' first
    | with_reducible assumption
    | with_reducible apply State.setF_keeps

theorem State.shown_keeps {s₀ : State} {s : State} {a : Nat} (hk : Keeps s₀ s) :
    Keeps s₀ (State.shown s a) := by
  unfold State.shown
  repeat' first
    | with_reducible assumption
    | (dsimp only [Keeps.mk_eq]; with_reducible apply KeepsD.of)
    | with_reducible apply State.showFlash_keeps
    | with_reducible apply State.showNow_keeps
    | with_reducible apply State.showPool_keeps
    | with_reducible apply State.showSle_keeps
    | with_reducible apply State.showSlp_keeps
    | with_reducible apply State.showPub_keeps
    | with_reducible apply State.showDre_keeps
    | with_reducible apply State.showBlf_keeps
    | with_reducible apply State.showPrc_keeps
    | with_reducible apply State.showPsc_keeps
    | with_reducible apply State.showDom_keeps
    | split

theorem State.turnAway_keeps {s₀ : State} {s : State} {a : Actor} {addr : Nat} (hk : Keeps s₀ s) :
    Keeps s₀ (State.turnAway s a addr) := by
  unfold State.turnAway
  repeat' first
    | with_reducible assumption
    | with_reducible apply State.refused_keeps
    | with_reducible apply State.busError_keeps

theorem State.regRead_keeps {s₀ : State} {s : State} {m : Master} {a size : Nat} (hk : Keeps s₀ s) :
    Keeps s₀ (State.regRead s m a size) := by
  unfold State.regRead
  repeat' first
    | with_reducible assumption
    | (dsimp only [Keeps.mk_eq]; with_reducible apply KeepsD.of)
    | (extract_lets +onlyGivenNames x; refine Keeps.cut (s := s₀) (t := x) ?_ (fun hx => ?_); (on_goal 1 => (unfold x; clear x)); (on_goal 2 => clear_value x))
    | (extract_lets +onlyGivenNames x; refine Keeps.cut2 (s := s₀) (x := x) ?_ (fun hx => ?_); (on_goal 1 => (unfold x; clear x)); (on_goal 2 => clear_value x))
    | (extract_lets +onlyGivenNames x; refine Keeps.cut2 (s := s₀) (x := x.2) ?_ (fun hx => ?_); (on_goal 1 => (unfold x; clear x)); (on_goal 2 => clear_value x))
    | (extract_lets +onlyGivenNames x; (have hv : x = x := by unfold x; exact Eq.refl _); clear hv; clear_value x)
    | with_reducible apply Keeps.ite
    | with_reducible apply State.turnAway_keeps
    | with_reducible apply State.busError_keeps
    | with_reducible apply State.clearRead_keeps
    | split

theorem leaves_keeps {s₀ : State} {s : State} {r : Result} (hk : Keeps s₀ s) (hr : KeepsR s₀ r) : Keeps s₀ (leaves s r) := by
  unfold leaves
  split
  · exact hr _ rfl
  · exact hk

theorem cmdOf_keeps {s₀ : State} {s : State} {m : Master} {b : CmdBlock} {v : Nat} {r : Result} (hk : Keeps s₀ s)
    (hr : cmdOf m b v s = some r) : KeepsR s₀ r := by
  unfold cmdOf at hr
  dsimp only at hr
  split at hr <;> split at hr <;> cases hr
  · exact execSctWrite_keeps hk
  · exact execSctRemove_keeps hk
  · exact execSctRead_keeps hk
  · exact execSctMapWrite_keeps hk
  · exact execSctMapRead_keeps hk
  · exact execSctForeignRead_keeps hk
  · exact execSctForeignClear_keeps hk
  · exact execSctMode_keeps hk
  · exact execPheWrite_keeps hk
  · exact execPheRead_keeps hk
  · exact execGcmWrite_keeps hk
  · exact execGcmParam_keeps hk
  · exact execGcmRead_keeps hk
  · exact execGcmEnable_keeps hk
  · exact execGcmState_keeps hk
  · exact execSlpWrite_keeps hk
  · exact execSlpRead_keeps hk
  · exact execSlpState_keeps hk
  · exact execSlpOpnd_keeps hk
  · exact execPubWrite_keeps hk
  · exact execPubRead_keeps hk
  · exact execPubMembWrite_keeps hk
  · exact execPubMembRead_keeps hk
  · exact execPubCmdEnable_keeps hk
  · exact execPubCmdMode_keeps hk
  · exact execPubStat_keeps hk
  · exact execDreWrite_keeps hk
  · exact execDreRead_keeps hk
  · exact execDreArm_keeps hk
  · exact execDreDisarm_keeps hk
  · exact execDreTrigger_keeps hk
  · exact execDreRelease_keeps hk
  · exact execDreStat_keeps hk
  · exact execSltWrite_keeps hk
  · exact execSltRead_keeps hk
  · exact execSltStat_keeps hk

theorem State.cmdWrite_keeps {s₀ : State} {s : State} {m : Master} {b : CmdBlock} {fs : List Field} {v : Nat} (hk : Keeps s₀ s) :
    Keeps s₀ (State.cmdWrite s m b fs v) := by
  unfold State.cmdWrite
  repeat' first
    | with_reducible assumption
    | (dsimp only [Keeps.mk_eq]; with_reducible apply KeepsD.of)
    | with_reducible apply Keeps.ite
    | with_reducible apply leaves_keeps
    | with_reducible apply State.storeReg_keeps
    | split
    | with_reducible refine cmdOf_keeps ?_ (by with_reducible assumption)

theorem State.storeTimes_keeps {s₀ : State} {s : State} {fs : List Field} {v : Nat} (hk : Keeps s₀ s) :
    Keeps s₀ (State.storeTimes s fs v) := by
  unfold State.storeTimes
  repeat' first
    | with_reducible assumption
    | (dsimp only [Keeps.mk_eq]; with_reducible apply KeepsD.of)
    | (extract_lets +onlyGivenNames x; refine Keeps.cut (s := s₀) (t := x) ?_ (fun hx => ?_); (on_goal 1 => (unfold x; clear x)); (on_goal 2 => clear_value x))
    | (extract_lets +onlyGivenNames x; refine Keeps.cut2 (s := s₀) (x := x) ?_ (fun hx => ?_); (on_goal 1 => (unfold x; clear x)); (on_goal 2 => clear_value x))
    | (extract_lets +onlyGivenNames x; refine Keeps.cut2 (s := s₀) (x := x.2) ?_ (fun hx => ?_); (on_goal 1 => (unfold x; clear x)); (on_goal 2 => clear_value x))
    | (extract_lets +onlyGivenNames x; refine Keeps.cutF1 (s := s₀) (f := x) ?_ (fun kx => ?_); (on_goal 1 => (unfold x; clear x; intros; beta_reduce)); (on_goal 2 => clear_value x))
    | (extract_lets +onlyGivenNames x; refine Keeps.cutF2 (s := s₀) (f := x) ?_ (fun kx => ?_); (on_goal 1 => (unfold x; clear x; intros; beta_reduce)); (on_goal 2 => clear_value x))
    | (extract_lets +onlyGivenNames x; refine Keeps.cutG2 (s := s₀) (f := x) ?_ (fun kx => ?_); (on_goal 1 => (unfold x; clear x; intros; beta_reduce)); (on_goal 2 => clear_value x))
    | (extract_lets +onlyGivenNames x; refine Keeps.cutF3 (s := s₀) (f := x) ?_ (fun kx => ?_); (on_goal 1 => (unfold x; clear x; intros; beta_reduce)); (on_goal 2 => clear_value x))
    | (extract_lets +onlyGivenNames x; refine Keeps.cutF4 (s := s₀) (f := x) ?_ (fun kx => ?_); (on_goal 1 => (unfold x; clear x; intros; beta_reduce)); (on_goal 2 => clear_value x))
    | (extract_lets +onlyGivenNames x; (have hv : x = x := by unfold x; exact Eq.refl _); clear hv; clear_value x)
    | with_reducible apply State.storeReg_keeps
    | apply kx
    | (intro _; intros; try beta_reduce)

theorem State.written_keeps {s₀ : State} {s : State} {base : Nat} {fs : List Field} {v : Nat} (hk : Keeps s₀ s) :
    Keeps s₀ (State.written s base fs v) := by
  unfold State.written
  repeat' first
    | with_reducible assumption
    | (extract_lets +onlyGivenNames x; refine Keeps.cut (s := s₀) (t := x) ?_ (fun hx => ?_); (on_goal 1 => (unfold x; clear x)); (on_goal 2 => clear_value x))
    | (extract_lets +onlyGivenNames x; refine Keeps.cut2 (s := s₀) (x := x) ?_ (fun hx => ?_); (on_goal 1 => (unfold x; clear x)); (on_goal 2 => clear_value x))
    | (extract_lets +onlyGivenNames x; refine Keeps.cut2 (s := s₀) (x := x.2) ?_ (fun hx => ?_); (on_goal 1 => (unfold x; clear x)); (on_goal 2 => clear_value x))
    | (extract_lets +onlyGivenNames x; (have hv : x = x := by unfold x; exact Eq.refl _); clear hv; clear_value x)
    | with_reducible apply Keeps.ite
    | with_reducible apply State.storeTimes_keeps
    | with_reducible apply State.storeReg_keeps
    | with_reducible apply State.tbuFollow_keeps
    | with_reducible apply State.waitFromNow_keeps
    | with_reducible apply State.sleSwitch_keeps
    | with_reducible apply State.dreSwitch_keeps
    | split

theorem State.globalWrite_keeps {s₀ : State} {s : State} {m : Master} {base k : Nat} {fs : List Field} {v : Nat} (hk : Keeps s₀ s) :
    Keeps s₀ (State.globalWrite s m base k fs v) := by
  unfold State.globalWrite
  repeat' first
    | with_reducible assumption
    | (dsimp only [Keeps.mk_eq]; with_reducible apply KeepsD.of)
    | (extract_lets +onlyGivenNames x; refine Keeps.cut (s := s₀) (t := x) ?_ (fun hx => ?_); (on_goal 1 => (unfold x; clear x)); (on_goal 2 => clear_value x))
    | (extract_lets +onlyGivenNames x; refine Keeps.cut2 (s := s₀) (x := x) ?_ (fun hx => ?_); (on_goal 1 => (unfold x; clear x)); (on_goal 2 => clear_value x))
    | (extract_lets +onlyGivenNames x; refine Keeps.cut2 (s := s₀) (x := x.2) ?_ (fun hx => ?_); (on_goal 1 => (unfold x; clear x)); (on_goal 2 => clear_value x))
    | (extract_lets +onlyGivenNames x; (have hv : x = x := by unfold x; exact Eq.refl _); clear hv; clear_value x)
    | with_reducible apply Keeps.ite
    | with_reducible apply State.cmdWrite_keeps
    | with_reducible apply wvlArmWrite_keeps
    | with_reducible apply wvlRuleCountWrite_keeps
    | with_reducible apply State.cursorWrite_keeps
    | with_reducible apply State.cursorStep_keeps
    | with_reducible apply State.clearFaults_keeps
    | with_reducible apply State.written_keeps
    | with_reducible apply State.evalReady_keeps
    | split
    | (intro _; intros; try beta_reduce)

theorem State.slicePageWrite_keeps {s₀ : State} {s : State} {m : Master} {base p k a v : Nat} (hk : Keeps s₀ s) :
    Keeps s₀ (State.slicePageWrite s m base p k a v) := by
  unfold State.slicePageWrite
  repeat' first
    | with_reducible assumption
    | with_reducible apply Keeps.ite
    | with_reducible apply doorbellWrite_keeps
    | with_reducible apply fWrite_keeps
    | with_reducible apply mbxDoorbell_keeps
    | with_reducible apply mbxAck_keeps
    | with_reducible apply State.pageWrite_keeps
    | split
    | (intro _; intros; try beta_reduce)

theorem State.regWrite_keeps {s₀ : State} {s : State} {m : Master} {a size v : Nat} (hk : Keeps s₀ s) :
    Keeps s₀ (State.regWrite s m a size v) := by
  unfold State.regWrite
  repeat' first
    | with_reducible assumption
    | (dsimp only [Keeps.mk_eq]; with_reducible apply KeepsD.of)
    | (extract_lets +onlyGivenNames x; refine Keeps.cut (s := s₀) (t := x) ?_ (fun hx => ?_); (on_goal 1 => (unfold x; clear x)); (on_goal 2 => clear_value x))
    | (extract_lets +onlyGivenNames x; refine Keeps.cut2 (s := s₀) (x := x) ?_ (fun hx => ?_); (on_goal 1 => (unfold x; clear x)); (on_goal 2 => clear_value x))
    | (extract_lets +onlyGivenNames x; refine Keeps.cut2 (s := s₀) (x := x.2) ?_ (fun hx => ?_); (on_goal 1 => (unfold x; clear x)); (on_goal 2 => clear_value x))
    | (extract_lets +onlyGivenNames x; (have hv : x = x := by unfold x; exact Eq.refl _); clear hv; clear_value x)
    | with_reducible apply Keeps.ite
    | with_reducible apply State.turnAway_keeps
    | with_reducible apply State.busError_keeps
    | with_reducible apply State.slicePageWrite_keeps
    | with_reducible apply State.globalWrite_keeps
    | split

theorem State.memRead_keeps {s₀ : State} {s : State} {who : Actor} {r : Region} {a size : Nat} (hk : Keeps s₀ s) :
    Keeps s₀ (State.memRead s who r a size) := by
  unfold State.memRead
  repeat' first
    | with_reducible assumption
    | (dsimp only [Keeps.mk_eq]; with_reducible apply KeepsD.of)
    | with_reducible apply Keeps.ite
    | with_reducible apply State.turnAway_keeps
    | with_reducible apply State.busError_keeps
    | with_reducible apply State.drawn_keeps
    | split

theorem State.memWrite_keeps {s₀ : State} {s : State} {who : Actor} {r : Region} {a size v : Nat} (hk : Keeps s₀ s) :
    Keeps s₀ (State.memWrite s who r a size v) := by
  unfold State.memWrite
  repeat' first
    | with_reducible assumption
    | (dsimp only [Keeps.mk_eq]; with_reducible apply KeepsD.of)
    | with_reducible apply Keeps.ite
    | with_reducible apply State.turnAway_keeps
    | with_reducible apply State.busError_keeps
    | with_reducible apply State.wr_keeps
    | split
    | (intro _; intros; try beta_reduce)

theorem State.fabricAtomic_keeps {s₀ : State} {s : State} {m : Master} {a size : Nat} {f : AtomicOp} {v : Nat} (hk : Keeps s₀ s) :
    Keeps s₀ (State.fabricAtomic s m a size f v) := by
  unfold State.fabricAtomic
  repeat' first
    | with_reducible assumption
    | (dsimp only [Keeps.mk_eq]; with_reducible apply KeepsD.of)
    | (extract_lets +onlyGivenNames x; refine Keeps.cut (s := s₀) (t := x) ?_ (fun hx => ?_); (on_goal 1 => (unfold x; clear x)); (on_goal 2 => clear_value x))
    | (extract_lets +onlyGivenNames x; refine Keeps.cut2 (s := s₀) (x := x) ?_ (fun hx => ?_); (on_goal 1 => (unfold x; clear x)); (on_goal 2 => clear_value x))
    | (extract_lets +onlyGivenNames x; refine Keeps.cut2 (s := s₀) (x := x.2) ?_ (fun hx => ?_); (on_goal 1 => (unfold x; clear x)); (on_goal 2 => clear_value x))
    | (extract_lets +onlyGivenNames x; (have hv : x = x := by unfold x; exact Eq.refl _); clear hv; clear_value x)
    | with_reducible apply Keeps.ite
    | with_reducible apply State.turnAway_keeps
    | with_reducible apply State.busError_keeps
    | with_reducible apply State.memWrite_keeps
    | split

theorem State.fabricRead_keeps {s₀ : State} {s : State} {m : Master} {a size : Nat} (hk : Keeps s₀ s) :
    Keeps s₀ (State.fabricRead s m a size) := by
  unfold State.fabricRead
  repeat' first
    | with_reducible assumption
    | (dsimp only [Keeps.mk_eq]; with_reducible apply KeepsD.of)
    | with_reducible apply State.regRead_keeps
    | with_reducible apply State.turnAway_keeps
    | with_reducible apply State.memRead_keeps
    | split

theorem State.fabricWrite_keeps {s₀ : State} {s : State} {m : Master} {a size v : Nat} (hk : Keeps s₀ s) :
    Keeps s₀ (State.fabricWrite s m a size v) := by
  unfold State.fabricWrite
  repeat' first
    | with_reducible assumption
    | (dsimp only [Keeps.mk_eq]; with_reducible apply KeepsD.of)
    | with_reducible apply State.regWrite_keeps
    | with_reducible apply State.turnAway_keeps
    | with_reducible apply State.memWrite_keeps
    | split

theorem execRegisterWrite_keeps {s₀ : State} {m : Master} {addr size value : Nat} {s : State} (hk : Keeps s₀ s) :
    KeepsR s₀ (execRegisterWrite m addr size value s) := by
  unfold execRegisterWrite
  repeat' first
    | with_reducible assumption
    | with_reducible apply KeepsR.next
    | with_reducible apply KeepsR.ite
    | with_reducible apply Keeps.ite
    | with_reducible apply State.fabricWrite_keeps
    | split

theorem execClearingRead_keeps {s₀ : State} {m : Master} {addr size : Nat} {s : State} (hk : Keeps s₀ s) :
    KeepsR s₀ (execClearingRead m addr size s) := by
  unfold execClearingRead
  repeat' first
    | with_reducible assumption
    | with_reducible apply KeepsR.next
    | with_reducible apply KeepsR.ite
    | with_reducible apply Keeps.ite
    | with_reducible apply State.fabricRead_keeps
    | split

theorem execCoreRequest_keeps {s₀ : State} {q : CoreReq} {s : State} (hk : Keeps s₀ s) :
    KeepsR s₀ (execCoreRequest q s) := by
  unfold execCoreRequest
  repeat' first
    | with_reducible assumption
    | (dsimp only [Keeps.mk_eq]; with_reducible apply KeepsD.of)
    | with_reducible apply KeepsR.next
    | with_reducible apply KeepsR.ite
    | with_reducible apply Keeps.ite
    | with_reducible apply State.fabricRead_keeps
    | with_reducible apply State.fabricWrite_keeps
    | with_reducible apply State.fabricAtomic_keeps
    | split

end Sys2Proof.Machine
end

