-- ==== Sys2Proof/Laws/Ops.lean ====
section
/-! SUPPORT. What the operations that many commands share can do: the shared checks and answers of Patchaif, an operation of a command
register, and a fabric write under the grant of R29. -/
namespace Sys2Proof.Machine

/-! ### The archive flash (R463) -/

/-- The erasures of a block after levelling. -/
theorem levelled_get {n b : Nat} (e : Tbl Nat) (hb : b < 61035) :
    Tbl.get 0 b (levelled n e) = if n ≤ 1000 then Tbl.get 0 b e else max (Tbl.get 0 b e) (n - 1000) := by
  unfold levelled
  split
  · rfl
  · rw [Tbl.get_range_map, if_pos hb]

/-! ### Patchaif (R451, R452) -/

/-- Taking a request touches the management state alone. -/
theorem State.taken_only (s : State) (q : Req) : s.taken q = { s with tmc := (s.taken q).tmc } := by
  simp only [State.taken, State.takeReq]
  split <;> rfl

@[simp] theorem State.taken_regs (s : State) (q : Req) : (s.taken q).regs = s.regs := by rw [State.taken_only]
@[simp] theorem State.taken_mem (s : State) (q : Req) : (s.taken q).mem = s.mem := by rw [State.taken_only]
@[simp] theorem State.taken_bus (s : State) (q : Req) : (s.taken q).bus = s.bus := by rw [State.taken_only]
@[simp] theorem State.taken_sup (s : State) (q : Req) : (s.taken q).sup = s.sup := by rw [State.taken_only]
@[simp] theorem State.taken_keep (s : State) (q : Req) : (s.taken q).keep = s.keep := by rw [State.taken_only]
@[simp] theorem State.taken_qbc (s : State) (q : Req) : (s.taken q).qbc = s.qbc := by rw [State.taken_only]
@[simp] theorem State.taken_tbu (s : State) (q : Req) : (s.taken q).tbu = s.tbu := by rw [State.taken_only]
@[simp] theorem State.taken_mac (s : State) (q : Req) : (s.taken q).mac = s.mac := by rw [State.taken_only]
@[simp] theorem State.taken_pairs (s : State) (q : Req) : (s.taken q).pairs = s.pairs := by rw [State.taken_only]
@[simp] theorem State.taken_wvl (s : State) (q : Req) : (s.taken q).wvl = s.wvl := by rw [State.taken_only]
@[simp] theorem State.taken_ing (s : State) (q : Req) : (s.taken q).ing = s.ing := by rw [State.taken_only]
@[simp] theorem State.taken_lat (s : State) (q : Req) : (s.taken q).lat = s.lat := by rw [State.taken_only]
@[simp] theorem State.taken_phe (s : State) (q : Req) : (s.taken q).phe = s.phe := by rw [State.taken_only]
@[simp] theorem State.taken_gcm (s : State) (q : Req) : (s.taken q).gcm = s.gcm := by rw [State.taken_only]
@[simp] theorem State.taken_slp (s : State) (q : Req) : (s.taken q).slp = s.slp := by rw [State.taken_only]
@[simp] theorem State.taken_pub (s : State) (q : Req) : (s.taken q).pub = s.pub := by rw [State.taken_only]
@[simp] theorem State.taken_dre (s : State) (q : Req) : (s.taken q).dre = s.dre := by rw [State.taken_only]
@[simp] theorem State.taken_slt (s : State) (q : Req) : (s.taken q).slt = s.slt := by rw [State.taken_only]
@[simp] theorem State.taken_prc (s : State) (q : Req) : (s.taken q).prc = s.prc := by rw [State.taken_only]
@[simp] theorem State.taken_psc (s : State) (q : Req) : (s.taken q).psc = s.psc := by rw [State.taken_only]
@[simp] theorem State.taken_dom (s : State) (q : Req) : (s.taken q).dom = s.dom := by rw [State.taken_only]
@[simp] theorem State.taken_hlt (s : State) (q : Req) : (s.taken q).hlt = s.hlt := by rw [State.taken_only]
@[simp] theorem State.taken_cmds (s : State) (q : Req) : (s.taken q).cmds = s.cmds := by rw [State.taken_only]
@[simp] theorem State.taken_free (s : State) (q : Req) : (s.taken q).free = s.free := by rw [State.taken_only]
@[simp] theorem State.taken_pending (s : State) (q : Req) : (s.taken q).pending = s.pending := by rw [State.taken_only]
@[simp] theorem State.taken_tmc_jobs (s : State) (q : Req) : (s.taken q).tmc.jobs = s.tmc.jobs := by
  simp only [State.taken, State.takeReq]; split <;> rfl
@[simp] theorem State.taken_tmc_xfer (s : State) (q : Req) : (s.taken q).tmc.xfer = s.tmc.xfer := by
  simp only [State.taken, State.takeReq]; split <;> rfl
@[simp] theorem State.taken_tmc_handles (s : State) (q : Req) : (s.taken q).tmc.handles = s.tmc.handles := by
  simp only [State.taken, State.takeReq]; split <;> rfl
@[simp] theorem State.taken_tmc_active (s : State) (q : Req) : (s.taken q).tmc.active = s.tmc.active := by
  simp only [State.taken, State.takeReq]; split <;> rfl
@[simp] theorem State.taken_tmc_pending (s : State) (q : Req) : (s.taken q).tmc.pending = s.tmc.pending := by
  simp only [State.taken, State.takeReq]; split <;> rfl
@[simp] theorem State.taken_tmc_staging (s : State) (q : Req) : (s.taken q).tmc.staging = s.tmc.staging := by
  simp only [State.taken, State.takeReq]; split <;> rfl
@[simp] theorem State.taken_tmc_exp (s : State) (q : Req) : (s.taken q).tmc.exp = s.tmc.exp := by
  simp only [State.taken, State.takeReq]; split <;> rfl
@[simp] theorem State.taken_tmc_mark (s : State) (q : Req) : (s.taken q).tmc.mark = s.tmc.mark := by
  simp only [State.taken, State.takeReq]; split <;> rfl
@[simp] theorem State.taken_tmc_fallback (s : State) (q : Req) : (s.taken q).tmc.fallback = s.tmc.fallback := by
  simp only [State.taken, State.takeReq]; split <;> rfl
@[simp] theorem State.taken_tmc_lastFail (s : State) (q : Req) : (s.taken q).tmc.lastFail = s.tmc.lastFail := by
  simp only [State.taken, State.takeReq]; split <;> rfl
@[simp] theorem State.taken_tmc_bundleId (s : State) (q : Req) : (s.taken q).tmc.bundleId = s.tmc.bundleId := by
  simp only [State.taken, State.takeReq]; split <;> rfl
@[simp] theorem State.taken_tmc_locked (s : State) (q : Req) : (s.taken q).tmc.locked = s.tmc.locked := by
  simp only [State.taken, State.takeReq]; split <;> rfl
@[simp] theorem State.taken_tmc_resetDue (s : State) (q : Req) : (s.taken q).tmc.resetDue = s.tmc.resetDue := by
  simp only [State.taken, State.takeReq]; split <;> rfl
@[simp] theorem State.taken_tmc_groupAt (s : State) (q : Req) : (s.taken q).tmc.groupAt = s.tmc.groupAt := by
  simp only [State.taken, State.takeReq]; split <;> rfl
@[simp] theorem State.taken_tmc_c1 (s : State) (q : Req) : (s.taken q).tmc.c1 = s.tmc.c1 := by
  simp only [State.taken, State.takeReq]; split <;> rfl
@[simp] theorem State.taken_tmc_c2 (s : State) (q : Req) : (s.taken q).tmc.c2 = s.tmc.c2 := by
  simp only [State.taken, State.takeReq]; split <;> rfl
@[simp] theorem State.taken_get (s : State) (q : Req) (f : Field) : (s.taken q).get f = s.get f := by
  simp only [State.get, State.taken_regs]
@[simp] theorem State.taken_now (s : State) (q : Req) : (s.taken q).now = s.now := by
  simp only [State.now, State.taken_tbu]

/-- Out of its turn a command does nothing. -/
theorem State.patchaif_waits {s : State} {q : Req} {op : Nat} {os : Octets} {long tenant : Bool} {act : State → Ans × State}
    (h : s.inTurn q op os = false) : s.patchaif q op os long tenant act = .next s := by
  simp [State.patchaif, h]

/-- A request that the shared checks refuse gets that status, and nothing else happens. -/
theorem State.patchaif_refused {s : State} {q : Req} {op st : Nat} {os : Octets} {long tenant : Bool} {act : State → Ans × State}
    (ht : s.inTurn q op os = true) (h : (s.taken q).refusal q op long tenant = some st) :
    s.patchaif q op os long tenant act =
      .next ((s.taken q).answer q op 1 st (detail (groupPage (opGroup op)) 0 0) true (s.takeReq q).1) := by
  simp only [State.taken] at h
  simp [State.patchaif, ht, h, State.taken]

/-- A request let through: what its own act answers decides. -/
theorem State.patchaif_let {s u : State} {q : Req} {op : Nat} {os : Octets} {long tenant : Bool} {act : State → Ans × State} {a : Ans}
    (h : Admits s q op os long tenant) (ha : act (s.taken q) = (a, u)) :
    s.patchaif q op os long tenant act = (match a with
      | .done ps => .next (u.answer q op 1 stOk ps true (s.takeReq q).1)
      | .fail st page check item => .next ((s.taken q).answer q op 1 st (detail page check item) true (s.takeReq q).1)
      | .failWith st page check item => .next (u.answer q op 1 st (detail page check item) true (s.takeReq q).1)
      | .accepted obj held => .next (({ u with tmc := { u.tmc with jobs := u.tmc.jobs ++
          [({ group := opGroup op, op, q, start := (s.taken q).now, obj, deliver := (s.takeReq q).1, held } : Job)] } }).answer
            q op 1 stAccepted [] false (s.takeReq q).1)
      | .later => .next u) := by
  obtain ⟨ht, h⟩ := h
  have hn := State.taken_now s q
  simp only [State.taken] at h ha hn
  cases a <;> simp [State.patchaif, ht, h, ha, State.taken, hn]

/-- A request let through whose command is done. -/
theorem State.patchaif_done {s u : State} {q : Req} {op : Nat} {os : Octets} {long tenant : Bool} {act : State → Ans × State}
    {ps : Octets} (h : Admits s q op os long tenant) (ha : act (s.taken q) = (.done ps, u)) :
    s.patchaif q op os long tenant act = .next (u.answer q op 1 stOk ps true (s.takeReq q).1) := State.patchaif_let h ha

/-- A request let through whose command fails: nothing changes but the reply. -/
theorem State.patchaif_fail {s u : State} {q : Req} {op st page check item : Nat} {os : Octets} {long tenant : Bool}
    {act : State → Ans × State} (h : Admits s q op os long tenant) (ha : act (s.taken q) = (.fail st page check item, u)) :
    s.patchaif q op os long tenant act =
      .next ((s.taken q).answer q op 1 st (detail page check item) true (s.takeReq q).1) := State.patchaif_let h ha

/-- A request let through whose command fails with an effect. -/
theorem State.patchaif_failWith {s u : State} {q : Req} {op st page check item : Nat} {os : Octets} {long tenant : Bool}
    {act : State → Ans × State} (h : Admits s q op os long tenant) (ha : act (s.taken q) = (.failWith st page check item, u)) :
    s.patchaif q op os long tenant act = .next (u.answer q op 1 st (detail page check item) true (s.takeReq q).1) :=
  State.patchaif_let h ha

/-- A request let through whose command is accepted as a long one. -/
theorem State.patchaif_accepted {s u : State} {q : Req} {op obj : Nat} {os : Octets} {long tenant : Bool} {act : State → Ans × State}
    {held : List Nat} (h : Admits s q op os long tenant) (ha : act (s.taken q) = (.accepted obj held, u)) :
    s.patchaif q op os long tenant act = .next (({ u with tmc := { u.tmc with jobs := u.tmc.jobs ++
      [({ group := opGroup op, op, q, start := (s.taken q).now, obj, deliver := (s.takeReq q).1, held } : Job)] } }).answer
        q op 1 stAccepted [] false (s.takeReq q).1) := State.patchaif_let h ha

/-- A request let through whose reply waits. -/
theorem State.patchaif_later {s u : State} {q : Req} {op : Nat} {os : Octets} {long tenant : Bool} {act : State → Ans × State}
    (h : Admits s q op os long tenant) (ha : act (s.taken q) = (.later, u)) :
    s.patchaif q op os long tenant act = .next u := State.patchaif_let h ha

/-- A command that answers, from its own act. -/
theorem Answers.of {c : Instr} {s u : State} {q : Req} {op : Nat} {os : Octets} {long tenant : Bool} {act : State → Ans × State}
    {ps : Octets} (he : exec c s = s.patchaif q op os long tenant act) (h : Admits s q op os long tenant)
    (ha : act (s.taken q) = (.done ps, u)) : Answers c s q op ps u := by
  rw [Answers, he]; exact State.patchaif_done h ha

/-- A long command that is accepted, from its own act. -/
theorem Accepts.of {c : Instr} {s u : State} {q : Req} {op obj : Nat} {os : Octets} {long tenant : Bool} {act : State → Ans × State}
    {held : List Nat} (he : exec c s = s.patchaif q op os long tenant act) (h : Admits s q op os long tenant)
    (ha : act (s.taken q) = (.accepted obj held, u)) : Accepts c s q op obj held u := by
  rw [Accepts, he]; exact State.patchaif_accepted h ha

/-! ### Command registers (R500) -/

/-- A write of a command register without the grant of R29. -/
theorem State.cmdRun_ungranted {s : State} {m : Master} {b : CmdBlock} {fs : List (Field × Nat)} {only : Bool}
    {act : State → Nat × Option (List Nat) × State} (hm : s.masterUp m = true)
    (h : regGrant (s.actor m) (blkBusy b).addr true = false) :
    s.cmdRun m b fs only act = .next (s.refused (s.actor m) (blkBusy b).addr).busError := by
  simp [State.cmdRun, State.granted, hm, h]

/-- A write of a command register by a core that is held in reset. -/
theorem State.cmdRun_down {s : State} {m : Master} {b : CmdBlock} {fs : List (Field × Nat)} {only : Bool}
    {act : State → Nat × Option (List Nat) × State} (hm : s.masterUp m = false) : s.cmdRun m b fs only act = .next s := by
  simp [State.cmdRun, State.granted, hm]

/-- A write of a command register while BUSY. -/
theorem State.cmdRun_busy {s : State} {m : Master} {b : CmdBlock} {fs : List (Field × Nat)} {only : Bool}
    {act : State → Nat × Option (List Nat) × State} (hm : s.masterUp m = true)
    (h : regGrant (s.actor m) (blkBusy b).addr true = true)
    (hb : s.flag (blkBusy b) = true) : s.cmdRun m b fs only act = .next { s with bus := .done } := by
  simp [State.cmdRun, State.granted, hm, h, hb]

/-- An operation for the TMC alone, from another master. -/
theorem State.cmdRun_tmcOnly {s : State} {m : Master} {b : CmdBlock} {fs : List (Field × Nat)}
    {act : State → Nat × Option (List Nat) × State} (h : Opens m b s) (hm : m ≠ .tmc) :
    s.cmdRun m b fs true act =
      .next { (s.withFields fs).cmdStart b 2 ((s.withFields fs).dataWords b) with bus := .done } := by
  simp [State.cmdRun, State.granted, h.1, h.2.1, h.2.2, hm, State.withFields]

/-- An operation that starts, with what it will deliver. -/
theorem State.cmdRun_starts {s u : State} {m : Master} {b : CmdBlock} {fs : List (Field × Nat)} {only : Bool} {r : Nat}
    {ws : Option (List Nat)} {act : State → Nat × Option (List Nat) × State} (h : Opens m b s) (hm : only = true → m = .tmc)
    (ha : act (s.withFields fs) = (r, ws, u)) :
    s.cmdRun m b fs only act = .next { u.cmdStart b r (ws.getD ((s.withFields fs).dataWords b)) with bus := .done } := by
  have hc : (only && m != .tmc) = false := by cases only <;> simp_all
  simp only [State.withFields] at ha
  simp [State.cmdRun, State.granted, h.1, h.2.1, h.2.2, hc, State.withFields, ha]

/-- An operation of a command register, from its own act. -/
theorem Starts.of {c : Instr} {s u : State} {m : Master} {b : CmdBlock} {fs : List (Field × Nat)} {only : Bool} {r : Nat}
    {ws : Option (List Nat)} {vs : List Nat} {act : State → Nat × Option (List Nat) × State}
    (he : exec c s = s.cmdRun m b fs only act) (h : Opens m b s) (hm : only = true → m = .tmc)
    (ha : act (s.withFields fs) = (r, ws, u)) (hv : ws.getD ((s.withFields fs).dataWords b) = vs) : Starts c s b r vs u := by
  rw [Starts, he, State.cmdRun_starts h hm ha, hv]

/-! ### Fabric writes (R28, R29) -/

theorem State.granted_yes {s : State} {m : Master} {a : Nat} {f : State → State} (hm : s.masterUp m = true)
    (h : regGrant (s.actor m) a true = true) : s.granted m a f = { f s with bus := .done } := by
  simp [State.granted, hm, h]

theorem State.granted_no {s : State} {m : Master} {a : Nat} {f : State → State} (hm : s.masterUp m = true)
    (h : regGrant (s.actor m) a true = false) : s.granted m a f = (s.refused (s.actor m) a).busError := by
  simp [State.granted, hm, h]

theorem State.granted_down {s : State} {m : Master} {a : Nat} {f : State → State} (hm : s.masterUp m = false) :
    s.granted m a f = s := by
  simp [State.granted, hm]

end Sys2Proof.Machine
end

