-- ==== Sys2Proof/Laws/State.lean ====
section
/-! SUPPORT. What each update of the state leaves as it was, one lemma per field, and what it writes. -/
namespace Sys2Proof.Machine

/-! `State.setF` writes `regs` alone. -/

@[simp] theorem State.setF_mem (s : State) (f : Field) (v : Nat) : (s.setF f v).mem = s.mem := rfl
@[simp] theorem State.setF_bus (s : State) (f : Field) (v : Nat) : (s.setF f v).bus = s.bus := rfl
@[simp] theorem State.setF_sup (s : State) (f : Field) (v : Nat) : (s.setF f v).sup = s.sup := rfl
@[simp] theorem State.setF_keep (s : State) (f : Field) (v : Nat) : (s.setF f v).keep = s.keep := rfl
@[simp] theorem State.setF_qbc (s : State) (f : Field) (v : Nat) : (s.setF f v).qbc = s.qbc := rfl
@[simp] theorem State.setF_tbu (s : State) (f : Field) (v : Nat) : (s.setF f v).tbu = s.tbu := rfl
@[simp] theorem State.setF_mac (s : State) (f : Field) (v : Nat) : (s.setF f v).mac = s.mac := rfl
@[simp] theorem State.setF_pairs (s : State) (f : Field) (v : Nat) : (s.setF f v).pairs = s.pairs := rfl
@[simp] theorem State.setF_wvl (s : State) (f : Field) (v : Nat) : (s.setF f v).wvl = s.wvl := rfl
@[simp] theorem State.setF_ing (s : State) (f : Field) (v : Nat) : (s.setF f v).ing = s.ing := rfl
@[simp] theorem State.setF_lat (s : State) (f : Field) (v : Nat) : (s.setF f v).lat = s.lat := rfl
@[simp] theorem State.setF_phe (s : State) (f : Field) (v : Nat) : (s.setF f v).phe = s.phe := rfl
@[simp] theorem State.setF_gcm (s : State) (f : Field) (v : Nat) : (s.setF f v).gcm = s.gcm := rfl
@[simp] theorem State.setF_slp (s : State) (f : Field) (v : Nat) : (s.setF f v).slp = s.slp := rfl
@[simp] theorem State.setF_pub (s : State) (f : Field) (v : Nat) : (s.setF f v).pub = s.pub := rfl
@[simp] theorem State.setF_dre (s : State) (f : Field) (v : Nat) : (s.setF f v).dre = s.dre := rfl
@[simp] theorem State.setF_slt (s : State) (f : Field) (v : Nat) : (s.setF f v).slt = s.slt := rfl
@[simp] theorem State.setF_prc (s : State) (f : Field) (v : Nat) : (s.setF f v).prc = s.prc := rfl
@[simp] theorem State.setF_psc (s : State) (f : Field) (v : Nat) : (s.setF f v).psc = s.psc := rfl
@[simp] theorem State.setF_dom (s : State) (f : Field) (v : Nat) : (s.setF f v).dom = s.dom := rfl
@[simp] theorem State.setF_tmc (s : State) (f : Field) (v : Nat) : (s.setF f v).tmc = s.tmc := rfl
@[simp] theorem State.setF_hlt (s : State) (f : Field) (v : Nat) : (s.setF f v).hlt = s.hlt := rfl
@[simp] theorem State.setF_cmds (s : State) (f : Field) (v : Nat) : (s.setF f v).cmds = s.cmds := rfl
@[simp] theorem State.setF_free (s : State) (f : Field) (v : Nat) : (s.setF f v).free = s.free := rfl
@[simp] theorem State.setF_pending (s : State) (f : Field) (v : Nat) : (s.setF f v).pending = s.pending := rfl

/-! `State.setB` writes `regs` alone. -/

@[simp] theorem State.setB_mem (s : State) (f : Field) (b : Bool) : (s.setB f b).mem = s.mem := rfl
@[simp] theorem State.setB_bus (s : State) (f : Field) (b : Bool) : (s.setB f b).bus = s.bus := rfl
@[simp] theorem State.setB_sup (s : State) (f : Field) (b : Bool) : (s.setB f b).sup = s.sup := rfl
@[simp] theorem State.setB_keep (s : State) (f : Field) (b : Bool) : (s.setB f b).keep = s.keep := rfl
@[simp] theorem State.setB_qbc (s : State) (f : Field) (b : Bool) : (s.setB f b).qbc = s.qbc := rfl
@[simp] theorem State.setB_tbu (s : State) (f : Field) (b : Bool) : (s.setB f b).tbu = s.tbu := rfl
@[simp] theorem State.setB_mac (s : State) (f : Field) (b : Bool) : (s.setB f b).mac = s.mac := rfl
@[simp] theorem State.setB_pairs (s : State) (f : Field) (b : Bool) : (s.setB f b).pairs = s.pairs := rfl
@[simp] theorem State.setB_wvl (s : State) (f : Field) (b : Bool) : (s.setB f b).wvl = s.wvl := rfl
@[simp] theorem State.setB_ing (s : State) (f : Field) (b : Bool) : (s.setB f b).ing = s.ing := rfl
@[simp] theorem State.setB_lat (s : State) (f : Field) (b : Bool) : (s.setB f b).lat = s.lat := rfl
@[simp] theorem State.setB_phe (s : State) (f : Field) (b : Bool) : (s.setB f b).phe = s.phe := rfl
@[simp] theorem State.setB_gcm (s : State) (f : Field) (b : Bool) : (s.setB f b).gcm = s.gcm := rfl
@[simp] theorem State.setB_slp (s : State) (f : Field) (b : Bool) : (s.setB f b).slp = s.slp := rfl
@[simp] theorem State.setB_pub (s : State) (f : Field) (b : Bool) : (s.setB f b).pub = s.pub := rfl
@[simp] theorem State.setB_dre (s : State) (f : Field) (b : Bool) : (s.setB f b).dre = s.dre := rfl
@[simp] theorem State.setB_slt (s : State) (f : Field) (b : Bool) : (s.setB f b).slt = s.slt := rfl
@[simp] theorem State.setB_prc (s : State) (f : Field) (b : Bool) : (s.setB f b).prc = s.prc := rfl
@[simp] theorem State.setB_psc (s : State) (f : Field) (b : Bool) : (s.setB f b).psc = s.psc := rfl
@[simp] theorem State.setB_dom (s : State) (f : Field) (b : Bool) : (s.setB f b).dom = s.dom := rfl
@[simp] theorem State.setB_tmc (s : State) (f : Field) (b : Bool) : (s.setB f b).tmc = s.tmc := rfl
@[simp] theorem State.setB_hlt (s : State) (f : Field) (b : Bool) : (s.setB f b).hlt = s.hlt := rfl
@[simp] theorem State.setB_cmds (s : State) (f : Field) (b : Bool) : (s.setB f b).cmds = s.cmds := rfl
@[simp] theorem State.setB_free (s : State) (f : Field) (b : Bool) : (s.setB f b).free = s.free := rfl
@[simp] theorem State.setB_pending (s : State) (f : Field) (b : Bool) : (s.setB f b).pending = s.pending := rfl

/-! `State.setI` writes `regs` alone. -/

@[simp] theorem State.setI_mem (s : State) (f : Field) (v : Int) : (s.setI f v).mem = s.mem := rfl
@[simp] theorem State.setI_bus (s : State) (f : Field) (v : Int) : (s.setI f v).bus = s.bus := rfl
@[simp] theorem State.setI_sup (s : State) (f : Field) (v : Int) : (s.setI f v).sup = s.sup := rfl
@[simp] theorem State.setI_keep (s : State) (f : Field) (v : Int) : (s.setI f v).keep = s.keep := rfl
@[simp] theorem State.setI_qbc (s : State) (f : Field) (v : Int) : (s.setI f v).qbc = s.qbc := rfl
@[simp] theorem State.setI_tbu (s : State) (f : Field) (v : Int) : (s.setI f v).tbu = s.tbu := rfl
@[simp] theorem State.setI_mac (s : State) (f : Field) (v : Int) : (s.setI f v).mac = s.mac := rfl
@[simp] theorem State.setI_pairs (s : State) (f : Field) (v : Int) : (s.setI f v).pairs = s.pairs := rfl
@[simp] theorem State.setI_wvl (s : State) (f : Field) (v : Int) : (s.setI f v).wvl = s.wvl := rfl
@[simp] theorem State.setI_ing (s : State) (f : Field) (v : Int) : (s.setI f v).ing = s.ing := rfl
@[simp] theorem State.setI_lat (s : State) (f : Field) (v : Int) : (s.setI f v).lat = s.lat := rfl
@[simp] theorem State.setI_phe (s : State) (f : Field) (v : Int) : (s.setI f v).phe = s.phe := rfl
@[simp] theorem State.setI_gcm (s : State) (f : Field) (v : Int) : (s.setI f v).gcm = s.gcm := rfl
@[simp] theorem State.setI_slp (s : State) (f : Field) (v : Int) : (s.setI f v).slp = s.slp := rfl
@[simp] theorem State.setI_pub (s : State) (f : Field) (v : Int) : (s.setI f v).pub = s.pub := rfl
@[simp] theorem State.setI_dre (s : State) (f : Field) (v : Int) : (s.setI f v).dre = s.dre := rfl
@[simp] theorem State.setI_slt (s : State) (f : Field) (v : Int) : (s.setI f v).slt = s.slt := rfl
@[simp] theorem State.setI_prc (s : State) (f : Field) (v : Int) : (s.setI f v).prc = s.prc := rfl
@[simp] theorem State.setI_psc (s : State) (f : Field) (v : Int) : (s.setI f v).psc = s.psc := rfl
@[simp] theorem State.setI_dom (s : State) (f : Field) (v : Int) : (s.setI f v).dom = s.dom := rfl
@[simp] theorem State.setI_tmc (s : State) (f : Field) (v : Int) : (s.setI f v).tmc = s.tmc := rfl
@[simp] theorem State.setI_hlt (s : State) (f : Field) (v : Int) : (s.setI f v).hlt = s.hlt := rfl
@[simp] theorem State.setI_cmds (s : State) (f : Field) (v : Int) : (s.setI f v).cmds = s.cmds := rfl
@[simp] theorem State.setI_free (s : State) (f : Field) (v : Int) : (s.setI f v).free = s.free := rfl
@[simp] theorem State.setI_pending (s : State) (f : Field) (v : Int) : (s.setI f v).pending = s.pending := rfl

/-! `State.bumpBy` writes `regs` alone. -/

@[simp] theorem State.bumpBy_mem (s : State) (f : Field) (n : Nat) : (s.bumpBy f n).mem = s.mem := rfl
@[simp] theorem State.bumpBy_bus (s : State) (f : Field) (n : Nat) : (s.bumpBy f n).bus = s.bus := rfl
@[simp] theorem State.bumpBy_sup (s : State) (f : Field) (n : Nat) : (s.bumpBy f n).sup = s.sup := rfl
@[simp] theorem State.bumpBy_keep (s : State) (f : Field) (n : Nat) : (s.bumpBy f n).keep = s.keep := rfl
@[simp] theorem State.bumpBy_qbc (s : State) (f : Field) (n : Nat) : (s.bumpBy f n).qbc = s.qbc := rfl
@[simp] theorem State.bumpBy_tbu (s : State) (f : Field) (n : Nat) : (s.bumpBy f n).tbu = s.tbu := rfl
@[simp] theorem State.bumpBy_mac (s : State) (f : Field) (n : Nat) : (s.bumpBy f n).mac = s.mac := rfl
@[simp] theorem State.bumpBy_pairs (s : State) (f : Field) (n : Nat) : (s.bumpBy f n).pairs = s.pairs := rfl
@[simp] theorem State.bumpBy_wvl (s : State) (f : Field) (n : Nat) : (s.bumpBy f n).wvl = s.wvl := rfl
@[simp] theorem State.bumpBy_ing (s : State) (f : Field) (n : Nat) : (s.bumpBy f n).ing = s.ing := rfl
@[simp] theorem State.bumpBy_lat (s : State) (f : Field) (n : Nat) : (s.bumpBy f n).lat = s.lat := rfl
@[simp] theorem State.bumpBy_phe (s : State) (f : Field) (n : Nat) : (s.bumpBy f n).phe = s.phe := rfl
@[simp] theorem State.bumpBy_gcm (s : State) (f : Field) (n : Nat) : (s.bumpBy f n).gcm = s.gcm := rfl
@[simp] theorem State.bumpBy_slp (s : State) (f : Field) (n : Nat) : (s.bumpBy f n).slp = s.slp := rfl
@[simp] theorem State.bumpBy_pub (s : State) (f : Field) (n : Nat) : (s.bumpBy f n).pub = s.pub := rfl
@[simp] theorem State.bumpBy_dre (s : State) (f : Field) (n : Nat) : (s.bumpBy f n).dre = s.dre := rfl
@[simp] theorem State.bumpBy_slt (s : State) (f : Field) (n : Nat) : (s.bumpBy f n).slt = s.slt := rfl
@[simp] theorem State.bumpBy_prc (s : State) (f : Field) (n : Nat) : (s.bumpBy f n).prc = s.prc := rfl
@[simp] theorem State.bumpBy_psc (s : State) (f : Field) (n : Nat) : (s.bumpBy f n).psc = s.psc := rfl
@[simp] theorem State.bumpBy_dom (s : State) (f : Field) (n : Nat) : (s.bumpBy f n).dom = s.dom := rfl
@[simp] theorem State.bumpBy_tmc (s : State) (f : Field) (n : Nat) : (s.bumpBy f n).tmc = s.tmc := rfl
@[simp] theorem State.bumpBy_hlt (s : State) (f : Field) (n : Nat) : (s.bumpBy f n).hlt = s.hlt := rfl
@[simp] theorem State.bumpBy_cmds (s : State) (f : Field) (n : Nat) : (s.bumpBy f n).cmds = s.cmds := rfl
@[simp] theorem State.bumpBy_free (s : State) (f : Field) (n : Nat) : (s.bumpBy f n).free = s.free := rfl
@[simp] theorem State.bumpBy_pending (s : State) (f : Field) (n : Nat) : (s.bumpBy f n).pending = s.pending := rfl

/-! `State.bump` writes `regs` alone. -/

@[simp] theorem State.bump_mem (s : State) (f : Field) : (s.bump f).mem = s.mem := rfl
@[simp] theorem State.bump_bus (s : State) (f : Field) : (s.bump f).bus = s.bus := rfl
@[simp] theorem State.bump_sup (s : State) (f : Field) : (s.bump f).sup = s.sup := rfl
@[simp] theorem State.bump_keep (s : State) (f : Field) : (s.bump f).keep = s.keep := rfl
@[simp] theorem State.bump_qbc (s : State) (f : Field) : (s.bump f).qbc = s.qbc := rfl
@[simp] theorem State.bump_tbu (s : State) (f : Field) : (s.bump f).tbu = s.tbu := rfl
@[simp] theorem State.bump_mac (s : State) (f : Field) : (s.bump f).mac = s.mac := rfl
@[simp] theorem State.bump_pairs (s : State) (f : Field) : (s.bump f).pairs = s.pairs := rfl
@[simp] theorem State.bump_wvl (s : State) (f : Field) : (s.bump f).wvl = s.wvl := rfl
@[simp] theorem State.bump_ing (s : State) (f : Field) : (s.bump f).ing = s.ing := rfl
@[simp] theorem State.bump_lat (s : State) (f : Field) : (s.bump f).lat = s.lat := rfl
@[simp] theorem State.bump_phe (s : State) (f : Field) : (s.bump f).phe = s.phe := rfl
@[simp] theorem State.bump_gcm (s : State) (f : Field) : (s.bump f).gcm = s.gcm := rfl
@[simp] theorem State.bump_slp (s : State) (f : Field) : (s.bump f).slp = s.slp := rfl
@[simp] theorem State.bump_pub (s : State) (f : Field) : (s.bump f).pub = s.pub := rfl
@[simp] theorem State.bump_dre (s : State) (f : Field) : (s.bump f).dre = s.dre := rfl
@[simp] theorem State.bump_slt (s : State) (f : Field) : (s.bump f).slt = s.slt := rfl
@[simp] theorem State.bump_prc (s : State) (f : Field) : (s.bump f).prc = s.prc := rfl
@[simp] theorem State.bump_psc (s : State) (f : Field) : (s.bump f).psc = s.psc := rfl
@[simp] theorem State.bump_dom (s : State) (f : Field) : (s.bump f).dom = s.dom := rfl
@[simp] theorem State.bump_tmc (s : State) (f : Field) : (s.bump f).tmc = s.tmc := rfl
@[simp] theorem State.bump_hlt (s : State) (f : Field) : (s.bump f).hlt = s.hlt := rfl
@[simp] theorem State.bump_cmds (s : State) (f : Field) : (s.bump f).cmds = s.cmds := rfl
@[simp] theorem State.bump_free (s : State) (f : Field) : (s.bump f).free = s.free := rfl
@[simp] theorem State.bump_pending (s : State) (f : Field) : (s.bump f).pending = s.pending := rfl

/-! `State.clearPage` writes `regs` alone. -/

@[simp] theorem State.clearPage_mem (s : State) (lo hi : Nat) : (s.clearPage lo hi).mem = s.mem := rfl
@[simp] theorem State.clearPage_bus (s : State) (lo hi : Nat) : (s.clearPage lo hi).bus = s.bus := rfl
@[simp] theorem State.clearPage_sup (s : State) (lo hi : Nat) : (s.clearPage lo hi).sup = s.sup := rfl
@[simp] theorem State.clearPage_keep (s : State) (lo hi : Nat) : (s.clearPage lo hi).keep = s.keep := rfl
@[simp] theorem State.clearPage_qbc (s : State) (lo hi : Nat) : (s.clearPage lo hi).qbc = s.qbc := rfl
@[simp] theorem State.clearPage_tbu (s : State) (lo hi : Nat) : (s.clearPage lo hi).tbu = s.tbu := rfl
@[simp] theorem State.clearPage_mac (s : State) (lo hi : Nat) : (s.clearPage lo hi).mac = s.mac := rfl
@[simp] theorem State.clearPage_pairs (s : State) (lo hi : Nat) : (s.clearPage lo hi).pairs = s.pairs := rfl
@[simp] theorem State.clearPage_wvl (s : State) (lo hi : Nat) : (s.clearPage lo hi).wvl = s.wvl := rfl
@[simp] theorem State.clearPage_ing (s : State) (lo hi : Nat) : (s.clearPage lo hi).ing = s.ing := rfl
@[simp] theorem State.clearPage_lat (s : State) (lo hi : Nat) : (s.clearPage lo hi).lat = s.lat := rfl
@[simp] theorem State.clearPage_phe (s : State) (lo hi : Nat) : (s.clearPage lo hi).phe = s.phe := rfl
@[simp] theorem State.clearPage_gcm (s : State) (lo hi : Nat) : (s.clearPage lo hi).gcm = s.gcm := rfl
@[simp] theorem State.clearPage_slp (s : State) (lo hi : Nat) : (s.clearPage lo hi).slp = s.slp := rfl
@[simp] theorem State.clearPage_pub (s : State) (lo hi : Nat) : (s.clearPage lo hi).pub = s.pub := rfl
@[simp] theorem State.clearPage_dre (s : State) (lo hi : Nat) : (s.clearPage lo hi).dre = s.dre := rfl
@[simp] theorem State.clearPage_slt (s : State) (lo hi : Nat) : (s.clearPage lo hi).slt = s.slt := rfl
@[simp] theorem State.clearPage_prc (s : State) (lo hi : Nat) : (s.clearPage lo hi).prc = s.prc := rfl
@[simp] theorem State.clearPage_psc (s : State) (lo hi : Nat) : (s.clearPage lo hi).psc = s.psc := rfl
@[simp] theorem State.clearPage_dom (s : State) (lo hi : Nat) : (s.clearPage lo hi).dom = s.dom := rfl
@[simp] theorem State.clearPage_tmc (s : State) (lo hi : Nat) : (s.clearPage lo hi).tmc = s.tmc := rfl
@[simp] theorem State.clearPage_hlt (s : State) (lo hi : Nat) : (s.clearPage lo hi).hlt = s.hlt := rfl
@[simp] theorem State.clearPage_cmds (s : State) (lo hi : Nat) : (s.clearPage lo hi).cmds = s.cmds := rfl
@[simp] theorem State.clearPage_free (s : State) (lo hi : Nat) : (s.clearPage lo hi).free = s.free := rfl
@[simp] theorem State.clearPage_pending (s : State) (lo hi : Nat) : (s.clearPage lo hi).pending = s.pending := rfl

/-! `State.wr` writes `mem` alone. -/

@[simp] theorem State.wr_regs (s : State) (a n v : Nat) : (s.wr a n v).regs = s.regs := rfl
@[simp] theorem State.wr_bus (s : State) (a n v : Nat) : (s.wr a n v).bus = s.bus := rfl
@[simp] theorem State.wr_sup (s : State) (a n v : Nat) : (s.wr a n v).sup = s.sup := rfl
@[simp] theorem State.wr_keep (s : State) (a n v : Nat) : (s.wr a n v).keep = s.keep := rfl
@[simp] theorem State.wr_qbc (s : State) (a n v : Nat) : (s.wr a n v).qbc = s.qbc := rfl
@[simp] theorem State.wr_tbu (s : State) (a n v : Nat) : (s.wr a n v).tbu = s.tbu := rfl
@[simp] theorem State.wr_mac (s : State) (a n v : Nat) : (s.wr a n v).mac = s.mac := rfl
@[simp] theorem State.wr_pairs (s : State) (a n v : Nat) : (s.wr a n v).pairs = s.pairs := rfl
@[simp] theorem State.wr_wvl (s : State) (a n v : Nat) : (s.wr a n v).wvl = s.wvl := rfl
@[simp] theorem State.wr_ing (s : State) (a n v : Nat) : (s.wr a n v).ing = s.ing := rfl
@[simp] theorem State.wr_lat (s : State) (a n v : Nat) : (s.wr a n v).lat = s.lat := rfl
@[simp] theorem State.wr_phe (s : State) (a n v : Nat) : (s.wr a n v).phe = s.phe := rfl
@[simp] theorem State.wr_gcm (s : State) (a n v : Nat) : (s.wr a n v).gcm = s.gcm := rfl
@[simp] theorem State.wr_slp (s : State) (a n v : Nat) : (s.wr a n v).slp = s.slp := rfl
@[simp] theorem State.wr_pub (s : State) (a n v : Nat) : (s.wr a n v).pub = s.pub := rfl
@[simp] theorem State.wr_dre (s : State) (a n v : Nat) : (s.wr a n v).dre = s.dre := rfl
@[simp] theorem State.wr_slt (s : State) (a n v : Nat) : (s.wr a n v).slt = s.slt := rfl
@[simp] theorem State.wr_prc (s : State) (a n v : Nat) : (s.wr a n v).prc = s.prc := rfl
@[simp] theorem State.wr_psc (s : State) (a n v : Nat) : (s.wr a n v).psc = s.psc := rfl
@[simp] theorem State.wr_dom (s : State) (a n v : Nat) : (s.wr a n v).dom = s.dom := rfl
@[simp] theorem State.wr_tmc (s : State) (a n v : Nat) : (s.wr a n v).tmc = s.tmc := rfl
@[simp] theorem State.wr_hlt (s : State) (a n v : Nat) : (s.wr a n v).hlt = s.hlt := rfl
@[simp] theorem State.wr_cmds (s : State) (a n v : Nat) : (s.wr a n v).cmds = s.cmds := rfl
@[simp] theorem State.wr_free (s : State) (a n v : Nat) : (s.wr a n v).free = s.free := rfl
@[simp] theorem State.wr_pending (s : State) (a n v : Nat) : (s.wr a n v).pending = s.pending := rfl
@[simp] theorem State.wr_get (s : State) (a n v : Nat) (g : Field) : (s.wr a n v).get g = s.get g := rfl
@[simp] theorem State.wr_flag (s : State) (a n v : Nat) (g : Field) : (s.wr a n v).flag g = s.flag g := rfl

/-! `State.wr64` writes `mem` alone. -/

@[simp] theorem State.wr64_regs (s : State) (a v : Nat) : (s.wr64 a v).regs = s.regs := rfl
@[simp] theorem State.wr64_bus (s : State) (a v : Nat) : (s.wr64 a v).bus = s.bus := rfl
@[simp] theorem State.wr64_sup (s : State) (a v : Nat) : (s.wr64 a v).sup = s.sup := rfl
@[simp] theorem State.wr64_keep (s : State) (a v : Nat) : (s.wr64 a v).keep = s.keep := rfl
@[simp] theorem State.wr64_qbc (s : State) (a v : Nat) : (s.wr64 a v).qbc = s.qbc := rfl
@[simp] theorem State.wr64_tbu (s : State) (a v : Nat) : (s.wr64 a v).tbu = s.tbu := rfl
@[simp] theorem State.wr64_mac (s : State) (a v : Nat) : (s.wr64 a v).mac = s.mac := rfl
@[simp] theorem State.wr64_pairs (s : State) (a v : Nat) : (s.wr64 a v).pairs = s.pairs := rfl
@[simp] theorem State.wr64_wvl (s : State) (a v : Nat) : (s.wr64 a v).wvl = s.wvl := rfl
@[simp] theorem State.wr64_ing (s : State) (a v : Nat) : (s.wr64 a v).ing = s.ing := rfl
@[simp] theorem State.wr64_lat (s : State) (a v : Nat) : (s.wr64 a v).lat = s.lat := rfl
@[simp] theorem State.wr64_phe (s : State) (a v : Nat) : (s.wr64 a v).phe = s.phe := rfl
@[simp] theorem State.wr64_gcm (s : State) (a v : Nat) : (s.wr64 a v).gcm = s.gcm := rfl
@[simp] theorem State.wr64_slp (s : State) (a v : Nat) : (s.wr64 a v).slp = s.slp := rfl
@[simp] theorem State.wr64_pub (s : State) (a v : Nat) : (s.wr64 a v).pub = s.pub := rfl
@[simp] theorem State.wr64_dre (s : State) (a v : Nat) : (s.wr64 a v).dre = s.dre := rfl
@[simp] theorem State.wr64_slt (s : State) (a v : Nat) : (s.wr64 a v).slt = s.slt := rfl
@[simp] theorem State.wr64_prc (s : State) (a v : Nat) : (s.wr64 a v).prc = s.prc := rfl
@[simp] theorem State.wr64_psc (s : State) (a v : Nat) : (s.wr64 a v).psc = s.psc := rfl
@[simp] theorem State.wr64_dom (s : State) (a v : Nat) : (s.wr64 a v).dom = s.dom := rfl
@[simp] theorem State.wr64_tmc (s : State) (a v : Nat) : (s.wr64 a v).tmc = s.tmc := rfl
@[simp] theorem State.wr64_hlt (s : State) (a v : Nat) : (s.wr64 a v).hlt = s.hlt := rfl
@[simp] theorem State.wr64_cmds (s : State) (a v : Nat) : (s.wr64 a v).cmds = s.cmds := rfl
@[simp] theorem State.wr64_free (s : State) (a v : Nat) : (s.wr64 a v).free = s.free := rfl
@[simp] theorem State.wr64_pending (s : State) (a v : Nat) : (s.wr64 a v).pending = s.pending := rfl
@[simp] theorem State.wr64_get (s : State) (a v : Nat) (g : Field) : (s.wr64 a v).get g = s.get g := rfl
@[simp] theorem State.wr64_flag (s : State) (a v : Nat) (g : Field) : (s.wr64 a v).flag g = s.flag g := rfl

/-! `State.wrOctets` writes `mem` alone. -/

@[simp] theorem State.wrOctets_regs (s : State) (a : Nat) (o : Octets) : (s.wrOctets a o).regs = s.regs := rfl
@[simp] theorem State.wrOctets_bus (s : State) (a : Nat) (o : Octets) : (s.wrOctets a o).bus = s.bus := rfl
@[simp] theorem State.wrOctets_sup (s : State) (a : Nat) (o : Octets) : (s.wrOctets a o).sup = s.sup := rfl
@[simp] theorem State.wrOctets_keep (s : State) (a : Nat) (o : Octets) : (s.wrOctets a o).keep = s.keep := rfl
@[simp] theorem State.wrOctets_qbc (s : State) (a : Nat) (o : Octets) : (s.wrOctets a o).qbc = s.qbc := rfl
@[simp] theorem State.wrOctets_tbu (s : State) (a : Nat) (o : Octets) : (s.wrOctets a o).tbu = s.tbu := rfl
@[simp] theorem State.wrOctets_mac (s : State) (a : Nat) (o : Octets) : (s.wrOctets a o).mac = s.mac := rfl
@[simp] theorem State.wrOctets_pairs (s : State) (a : Nat) (o : Octets) : (s.wrOctets a o).pairs = s.pairs := rfl
@[simp] theorem State.wrOctets_wvl (s : State) (a : Nat) (o : Octets) : (s.wrOctets a o).wvl = s.wvl := rfl
@[simp] theorem State.wrOctets_ing (s : State) (a : Nat) (o : Octets) : (s.wrOctets a o).ing = s.ing := rfl
@[simp] theorem State.wrOctets_lat (s : State) (a : Nat) (o : Octets) : (s.wrOctets a o).lat = s.lat := rfl
@[simp] theorem State.wrOctets_phe (s : State) (a : Nat) (o : Octets) : (s.wrOctets a o).phe = s.phe := rfl
@[simp] theorem State.wrOctets_gcm (s : State) (a : Nat) (o : Octets) : (s.wrOctets a o).gcm = s.gcm := rfl
@[simp] theorem State.wrOctets_slp (s : State) (a : Nat) (o : Octets) : (s.wrOctets a o).slp = s.slp := rfl
@[simp] theorem State.wrOctets_pub (s : State) (a : Nat) (o : Octets) : (s.wrOctets a o).pub = s.pub := rfl
@[simp] theorem State.wrOctets_dre (s : State) (a : Nat) (o : Octets) : (s.wrOctets a o).dre = s.dre := rfl
@[simp] theorem State.wrOctets_slt (s : State) (a : Nat) (o : Octets) : (s.wrOctets a o).slt = s.slt := rfl
@[simp] theorem State.wrOctets_prc (s : State) (a : Nat) (o : Octets) : (s.wrOctets a o).prc = s.prc := rfl
@[simp] theorem State.wrOctets_psc (s : State) (a : Nat) (o : Octets) : (s.wrOctets a o).psc = s.psc := rfl
@[simp] theorem State.wrOctets_dom (s : State) (a : Nat) (o : Octets) : (s.wrOctets a o).dom = s.dom := rfl
@[simp] theorem State.wrOctets_tmc (s : State) (a : Nat) (o : Octets) : (s.wrOctets a o).tmc = s.tmc := rfl
@[simp] theorem State.wrOctets_hlt (s : State) (a : Nat) (o : Octets) : (s.wrOctets a o).hlt = s.hlt := rfl
@[simp] theorem State.wrOctets_cmds (s : State) (a : Nat) (o : Octets) : (s.wrOctets a o).cmds = s.cmds := rfl
@[simp] theorem State.wrOctets_free (s : State) (a : Nat) (o : Octets) : (s.wrOctets a o).free = s.free := rfl
@[simp] theorem State.wrOctets_pending (s : State) (a : Nat) (o : Octets) : (s.wrOctets a o).pending = s.pending := rfl
@[simp] theorem State.wrOctets_get (s : State) (a : Nat) (o : Octets) (g : Field) : (s.wrOctets a o).get g = s.get g := rfl
@[simp] theorem State.wrOctets_flag (s : State) (a : Nat) (o : Octets) (g : Field) : (s.wrOctets a o).flag g = s.flag g := rfl

/-! `State.advanceTo` writes `tbu` alone. -/

@[simp] theorem State.advanceTo_regs (s : State) (t : Time) : (s.advanceTo t).regs = s.regs := rfl
@[simp] theorem State.advanceTo_mem (s : State) (t : Time) : (s.advanceTo t).mem = s.mem := rfl
@[simp] theorem State.advanceTo_bus (s : State) (t : Time) : (s.advanceTo t).bus = s.bus := rfl
@[simp] theorem State.advanceTo_sup (s : State) (t : Time) : (s.advanceTo t).sup = s.sup := rfl
@[simp] theorem State.advanceTo_keep (s : State) (t : Time) : (s.advanceTo t).keep = s.keep := rfl
@[simp] theorem State.advanceTo_qbc (s : State) (t : Time) : (s.advanceTo t).qbc = s.qbc := rfl
@[simp] theorem State.advanceTo_mac (s : State) (t : Time) : (s.advanceTo t).mac = s.mac := rfl
@[simp] theorem State.advanceTo_pairs (s : State) (t : Time) : (s.advanceTo t).pairs = s.pairs := rfl
@[simp] theorem State.advanceTo_wvl (s : State) (t : Time) : (s.advanceTo t).wvl = s.wvl := rfl
@[simp] theorem State.advanceTo_ing (s : State) (t : Time) : (s.advanceTo t).ing = s.ing := rfl
@[simp] theorem State.advanceTo_lat (s : State) (t : Time) : (s.advanceTo t).lat = s.lat := rfl
@[simp] theorem State.advanceTo_phe (s : State) (t : Time) : (s.advanceTo t).phe = s.phe := rfl
@[simp] theorem State.advanceTo_gcm (s : State) (t : Time) : (s.advanceTo t).gcm = s.gcm := rfl
@[simp] theorem State.advanceTo_slp (s : State) (t : Time) : (s.advanceTo t).slp = s.slp := rfl
@[simp] theorem State.advanceTo_pub (s : State) (t : Time) : (s.advanceTo t).pub = s.pub := rfl
@[simp] theorem State.advanceTo_dre (s : State) (t : Time) : (s.advanceTo t).dre = s.dre := rfl
@[simp] theorem State.advanceTo_slt (s : State) (t : Time) : (s.advanceTo t).slt = s.slt := rfl
@[simp] theorem State.advanceTo_prc (s : State) (t : Time) : (s.advanceTo t).prc = s.prc := rfl
@[simp] theorem State.advanceTo_psc (s : State) (t : Time) : (s.advanceTo t).psc = s.psc := rfl
@[simp] theorem State.advanceTo_dom (s : State) (t : Time) : (s.advanceTo t).dom = s.dom := rfl
@[simp] theorem State.advanceTo_tmc (s : State) (t : Time) : (s.advanceTo t).tmc = s.tmc := rfl
@[simp] theorem State.advanceTo_hlt (s : State) (t : Time) : (s.advanceTo t).hlt = s.hlt := rfl
@[simp] theorem State.advanceTo_cmds (s : State) (t : Time) : (s.advanceTo t).cmds = s.cmds := rfl
@[simp] theorem State.advanceTo_free (s : State) (t : Time) : (s.advanceTo t).free = s.free := rfl
@[simp] theorem State.advanceTo_pending (s : State) (t : Time) : (s.advanceTo t).pending = s.pending := rfl
@[simp] theorem State.advanceTo_get (s : State) (t : Time) (g : Field) : (s.advanceTo t).get g = s.get g := rfl
@[simp] theorem State.advanceTo_flag (s : State) (t : Time) (g : Field) : (s.advanceTo t).flag g = s.flag g := rfl

/-! `State.drawn` writes `free` alone. -/

@[simp] theorem State.drawn_regs (s : State) : (s.drawn).regs = s.regs := rfl
@[simp] theorem State.drawn_mem (s : State) : (s.drawn).mem = s.mem := rfl
@[simp] theorem State.drawn_bus (s : State) : (s.drawn).bus = s.bus := rfl
@[simp] theorem State.drawn_sup (s : State) : (s.drawn).sup = s.sup := rfl
@[simp] theorem State.drawn_keep (s : State) : (s.drawn).keep = s.keep := rfl
@[simp] theorem State.drawn_qbc (s : State) : (s.drawn).qbc = s.qbc := rfl
@[simp] theorem State.drawn_tbu (s : State) : (s.drawn).tbu = s.tbu := rfl
@[simp] theorem State.drawn_mac (s : State) : (s.drawn).mac = s.mac := rfl
@[simp] theorem State.drawn_pairs (s : State) : (s.drawn).pairs = s.pairs := rfl
@[simp] theorem State.drawn_wvl (s : State) : (s.drawn).wvl = s.wvl := rfl
@[simp] theorem State.drawn_ing (s : State) : (s.drawn).ing = s.ing := rfl
@[simp] theorem State.drawn_lat (s : State) : (s.drawn).lat = s.lat := rfl
@[simp] theorem State.drawn_phe (s : State) : (s.drawn).phe = s.phe := rfl
@[simp] theorem State.drawn_gcm (s : State) : (s.drawn).gcm = s.gcm := rfl
@[simp] theorem State.drawn_slp (s : State) : (s.drawn).slp = s.slp := rfl
@[simp] theorem State.drawn_pub (s : State) : (s.drawn).pub = s.pub := rfl
@[simp] theorem State.drawn_dre (s : State) : (s.drawn).dre = s.dre := rfl
@[simp] theorem State.drawn_slt (s : State) : (s.drawn).slt = s.slt := rfl
@[simp] theorem State.drawn_prc (s : State) : (s.drawn).prc = s.prc := rfl
@[simp] theorem State.drawn_psc (s : State) : (s.drawn).psc = s.psc := rfl
@[simp] theorem State.drawn_dom (s : State) : (s.drawn).dom = s.dom := rfl
@[simp] theorem State.drawn_tmc (s : State) : (s.drawn).tmc = s.tmc := rfl
@[simp] theorem State.drawn_hlt (s : State) : (s.drawn).hlt = s.hlt := rfl
@[simp] theorem State.drawn_cmds (s : State) : (s.drawn).cmds = s.cmds := rfl
@[simp] theorem State.drawn_pending (s : State) : (s.drawn).pending = s.pending := rfl
@[simp] theorem State.drawn_get (s : State) (g : Field) : (s.drawn).get g = s.get g := rfl
@[simp] theorem State.drawn_flag (s : State) (g : Field) : (s.drawn).flag g = s.flag g := rfl

/-! `State.busError` writes `bus` alone. -/

@[simp] theorem State.busError_regs (s : State) : (s.busError).regs = s.regs := rfl
@[simp] theorem State.busError_mem (s : State) : (s.busError).mem = s.mem := rfl
@[simp] theorem State.busError_sup (s : State) : (s.busError).sup = s.sup := rfl
@[simp] theorem State.busError_keep (s : State) : (s.busError).keep = s.keep := rfl
@[simp] theorem State.busError_qbc (s : State) : (s.busError).qbc = s.qbc := rfl
@[simp] theorem State.busError_tbu (s : State) : (s.busError).tbu = s.tbu := rfl
@[simp] theorem State.busError_mac (s : State) : (s.busError).mac = s.mac := rfl
@[simp] theorem State.busError_pairs (s : State) : (s.busError).pairs = s.pairs := rfl
@[simp] theorem State.busError_wvl (s : State) : (s.busError).wvl = s.wvl := rfl
@[simp] theorem State.busError_ing (s : State) : (s.busError).ing = s.ing := rfl
@[simp] theorem State.busError_lat (s : State) : (s.busError).lat = s.lat := rfl
@[simp] theorem State.busError_phe (s : State) : (s.busError).phe = s.phe := rfl
@[simp] theorem State.busError_gcm (s : State) : (s.busError).gcm = s.gcm := rfl
@[simp] theorem State.busError_slp (s : State) : (s.busError).slp = s.slp := rfl
@[simp] theorem State.busError_pub (s : State) : (s.busError).pub = s.pub := rfl
@[simp] theorem State.busError_dre (s : State) : (s.busError).dre = s.dre := rfl
@[simp] theorem State.busError_slt (s : State) : (s.busError).slt = s.slt := rfl
@[simp] theorem State.busError_prc (s : State) : (s.busError).prc = s.prc := rfl
@[simp] theorem State.busError_psc (s : State) : (s.busError).psc = s.psc := rfl
@[simp] theorem State.busError_dom (s : State) : (s.busError).dom = s.dom := rfl
@[simp] theorem State.busError_tmc (s : State) : (s.busError).tmc = s.tmc := rfl
@[simp] theorem State.busError_hlt (s : State) : (s.busError).hlt = s.hlt := rfl
@[simp] theorem State.busError_cmds (s : State) : (s.busError).cmds = s.cmds := rfl
@[simp] theorem State.busError_free (s : State) : (s.busError).free = s.free := rfl
@[simp] theorem State.busError_pending (s : State) : (s.busError).pending = s.pending := rfl
@[simp] theorem State.busError_get (s : State) (g : Field) : (s.busError).get g = s.get g := rfl
@[simp] theorem State.busError_flag (s : State) (g : Field) : (s.busError).flag g = s.flag g := rfl

/-! `State.modNode` writes `dom` alone. -/

@[simp] theorem State.modNode_regs (s : State) (i : Nat) (f : Node → Node) : (s.modNode i f).regs = s.regs := rfl
@[simp] theorem State.modNode_mem (s : State) (i : Nat) (f : Node → Node) : (s.modNode i f).mem = s.mem := rfl
@[simp] theorem State.modNode_bus (s : State) (i : Nat) (f : Node → Node) : (s.modNode i f).bus = s.bus := rfl
@[simp] theorem State.modNode_sup (s : State) (i : Nat) (f : Node → Node) : (s.modNode i f).sup = s.sup := rfl
@[simp] theorem State.modNode_keep (s : State) (i : Nat) (f : Node → Node) : (s.modNode i f).keep = s.keep := rfl
@[simp] theorem State.modNode_qbc (s : State) (i : Nat) (f : Node → Node) : (s.modNode i f).qbc = s.qbc := rfl
@[simp] theorem State.modNode_tbu (s : State) (i : Nat) (f : Node → Node) : (s.modNode i f).tbu = s.tbu := rfl
@[simp] theorem State.modNode_mac (s : State) (i : Nat) (f : Node → Node) : (s.modNode i f).mac = s.mac := rfl
@[simp] theorem State.modNode_pairs (s : State) (i : Nat) (f : Node → Node) : (s.modNode i f).pairs = s.pairs := rfl
@[simp] theorem State.modNode_wvl (s : State) (i : Nat) (f : Node → Node) : (s.modNode i f).wvl = s.wvl := rfl
@[simp] theorem State.modNode_ing (s : State) (i : Nat) (f : Node → Node) : (s.modNode i f).ing = s.ing := rfl
@[simp] theorem State.modNode_lat (s : State) (i : Nat) (f : Node → Node) : (s.modNode i f).lat = s.lat := rfl
@[simp] theorem State.modNode_phe (s : State) (i : Nat) (f : Node → Node) : (s.modNode i f).phe = s.phe := rfl
@[simp] theorem State.modNode_gcm (s : State) (i : Nat) (f : Node → Node) : (s.modNode i f).gcm = s.gcm := rfl
@[simp] theorem State.modNode_slp (s : State) (i : Nat) (f : Node → Node) : (s.modNode i f).slp = s.slp := rfl
@[simp] theorem State.modNode_pub (s : State) (i : Nat) (f : Node → Node) : (s.modNode i f).pub = s.pub := rfl
@[simp] theorem State.modNode_dre (s : State) (i : Nat) (f : Node → Node) : (s.modNode i f).dre = s.dre := rfl
@[simp] theorem State.modNode_slt (s : State) (i : Nat) (f : Node → Node) : (s.modNode i f).slt = s.slt := rfl
@[simp] theorem State.modNode_prc (s : State) (i : Nat) (f : Node → Node) : (s.modNode i f).prc = s.prc := rfl
@[simp] theorem State.modNode_psc (s : State) (i : Nat) (f : Node → Node) : (s.modNode i f).psc = s.psc := rfl
@[simp] theorem State.modNode_tmc (s : State) (i : Nat) (f : Node → Node) : (s.modNode i f).tmc = s.tmc := rfl
@[simp] theorem State.modNode_hlt (s : State) (i : Nat) (f : Node → Node) : (s.modNode i f).hlt = s.hlt := rfl
@[simp] theorem State.modNode_cmds (s : State) (i : Nat) (f : Node → Node) : (s.modNode i f).cmds = s.cmds := rfl
@[simp] theorem State.modNode_free (s : State) (i : Nat) (f : Node → Node) : (s.modNode i f).free = s.free := rfl
@[simp] theorem State.modNode_pending (s : State) (i : Nat) (f : Node → Node) : (s.modNode i f).pending = s.pending := rfl
@[simp] theorem State.modNode_get (s : State) (i : Nat) (f : Node → Node) (g : Field) : (s.modNode i f).get g = s.get g := rfl
@[simp] theorem State.modNode_flag (s : State) (i : Nat) (f : Node → Node) (g : Field) : (s.modNode i f).flag g = s.flag g := rfl

/-! `State.modCtx` writes `ing` alone. -/

@[simp] theorem State.modCtx_regs (s : State) (i : Nat) (f : Ctx → Ctx) : (s.modCtx i f).regs = s.regs := rfl
@[simp] theorem State.modCtx_mem (s : State) (i : Nat) (f : Ctx → Ctx) : (s.modCtx i f).mem = s.mem := rfl
@[simp] theorem State.modCtx_bus (s : State) (i : Nat) (f : Ctx → Ctx) : (s.modCtx i f).bus = s.bus := rfl
@[simp] theorem State.modCtx_sup (s : State) (i : Nat) (f : Ctx → Ctx) : (s.modCtx i f).sup = s.sup := rfl
@[simp] theorem State.modCtx_keep (s : State) (i : Nat) (f : Ctx → Ctx) : (s.modCtx i f).keep = s.keep := rfl
@[simp] theorem State.modCtx_qbc (s : State) (i : Nat) (f : Ctx → Ctx) : (s.modCtx i f).qbc = s.qbc := rfl
@[simp] theorem State.modCtx_tbu (s : State) (i : Nat) (f : Ctx → Ctx) : (s.modCtx i f).tbu = s.tbu := rfl
@[simp] theorem State.modCtx_mac (s : State) (i : Nat) (f : Ctx → Ctx) : (s.modCtx i f).mac = s.mac := rfl
@[simp] theorem State.modCtx_pairs (s : State) (i : Nat) (f : Ctx → Ctx) : (s.modCtx i f).pairs = s.pairs := rfl
@[simp] theorem State.modCtx_wvl (s : State) (i : Nat) (f : Ctx → Ctx) : (s.modCtx i f).wvl = s.wvl := rfl
@[simp] theorem State.modCtx_lat (s : State) (i : Nat) (f : Ctx → Ctx) : (s.modCtx i f).lat = s.lat := rfl
@[simp] theorem State.modCtx_phe (s : State) (i : Nat) (f : Ctx → Ctx) : (s.modCtx i f).phe = s.phe := rfl
@[simp] theorem State.modCtx_gcm (s : State) (i : Nat) (f : Ctx → Ctx) : (s.modCtx i f).gcm = s.gcm := rfl
@[simp] theorem State.modCtx_slp (s : State) (i : Nat) (f : Ctx → Ctx) : (s.modCtx i f).slp = s.slp := rfl
@[simp] theorem State.modCtx_pub (s : State) (i : Nat) (f : Ctx → Ctx) : (s.modCtx i f).pub = s.pub := rfl
@[simp] theorem State.modCtx_dre (s : State) (i : Nat) (f : Ctx → Ctx) : (s.modCtx i f).dre = s.dre := rfl
@[simp] theorem State.modCtx_slt (s : State) (i : Nat) (f : Ctx → Ctx) : (s.modCtx i f).slt = s.slt := rfl
@[simp] theorem State.modCtx_prc (s : State) (i : Nat) (f : Ctx → Ctx) : (s.modCtx i f).prc = s.prc := rfl
@[simp] theorem State.modCtx_psc (s : State) (i : Nat) (f : Ctx → Ctx) : (s.modCtx i f).psc = s.psc := rfl
@[simp] theorem State.modCtx_dom (s : State) (i : Nat) (f : Ctx → Ctx) : (s.modCtx i f).dom = s.dom := rfl
@[simp] theorem State.modCtx_tmc (s : State) (i : Nat) (f : Ctx → Ctx) : (s.modCtx i f).tmc = s.tmc := rfl
@[simp] theorem State.modCtx_hlt (s : State) (i : Nat) (f : Ctx → Ctx) : (s.modCtx i f).hlt = s.hlt := rfl
@[simp] theorem State.modCtx_cmds (s : State) (i : Nat) (f : Ctx → Ctx) : (s.modCtx i f).cmds = s.cmds := rfl
@[simp] theorem State.modCtx_free (s : State) (i : Nat) (f : Ctx → Ctx) : (s.modCtx i f).free = s.free := rfl
@[simp] theorem State.modCtx_pending (s : State) (i : Nat) (f : Ctx → Ctx) : (s.modCtx i f).pending = s.pending := rfl
@[simp] theorem State.modCtx_get (s : State) (i : Nat) (f : Ctx → Ctx) (g : Field) : (s.modCtx i f).get g = s.get g := rfl
@[simp] theorem State.modCtx_flag (s : State) (i : Nat) (f : Ctx → Ctx) (g : Field) : (s.modCtx i f).flag g = s.flag g := rfl

/-! `State.modSlice` writes `slt` alone. -/

@[simp] theorem State.modSlice_regs (s : State) (n : Nat) (f : Slice → Slice) : (s.modSlice n f).regs = s.regs := rfl
@[simp] theorem State.modSlice_mem (s : State) (n : Nat) (f : Slice → Slice) : (s.modSlice n f).mem = s.mem := rfl
@[simp] theorem State.modSlice_bus (s : State) (n : Nat) (f : Slice → Slice) : (s.modSlice n f).bus = s.bus := rfl
@[simp] theorem State.modSlice_sup (s : State) (n : Nat) (f : Slice → Slice) : (s.modSlice n f).sup = s.sup := rfl
@[simp] theorem State.modSlice_keep (s : State) (n : Nat) (f : Slice → Slice) : (s.modSlice n f).keep = s.keep := rfl
@[simp] theorem State.modSlice_qbc (s : State) (n : Nat) (f : Slice → Slice) : (s.modSlice n f).qbc = s.qbc := rfl
@[simp] theorem State.modSlice_tbu (s : State) (n : Nat) (f : Slice → Slice) : (s.modSlice n f).tbu = s.tbu := rfl
@[simp] theorem State.modSlice_mac (s : State) (n : Nat) (f : Slice → Slice) : (s.modSlice n f).mac = s.mac := rfl
@[simp] theorem State.modSlice_pairs (s : State) (n : Nat) (f : Slice → Slice) : (s.modSlice n f).pairs = s.pairs := rfl
@[simp] theorem State.modSlice_wvl (s : State) (n : Nat) (f : Slice → Slice) : (s.modSlice n f).wvl = s.wvl := rfl
@[simp] theorem State.modSlice_ing (s : State) (n : Nat) (f : Slice → Slice) : (s.modSlice n f).ing = s.ing := rfl
@[simp] theorem State.modSlice_lat (s : State) (n : Nat) (f : Slice → Slice) : (s.modSlice n f).lat = s.lat := rfl
@[simp] theorem State.modSlice_phe (s : State) (n : Nat) (f : Slice → Slice) : (s.modSlice n f).phe = s.phe := rfl
@[simp] theorem State.modSlice_gcm (s : State) (n : Nat) (f : Slice → Slice) : (s.modSlice n f).gcm = s.gcm := rfl
@[simp] theorem State.modSlice_slp (s : State) (n : Nat) (f : Slice → Slice) : (s.modSlice n f).slp = s.slp := rfl
@[simp] theorem State.modSlice_pub (s : State) (n : Nat) (f : Slice → Slice) : (s.modSlice n f).pub = s.pub := rfl
@[simp] theorem State.modSlice_dre (s : State) (n : Nat) (f : Slice → Slice) : (s.modSlice n f).dre = s.dre := rfl
@[simp] theorem State.modSlice_prc (s : State) (n : Nat) (f : Slice → Slice) : (s.modSlice n f).prc = s.prc := rfl
@[simp] theorem State.modSlice_psc (s : State) (n : Nat) (f : Slice → Slice) : (s.modSlice n f).psc = s.psc := rfl
@[simp] theorem State.modSlice_dom (s : State) (n : Nat) (f : Slice → Slice) : (s.modSlice n f).dom = s.dom := rfl
@[simp] theorem State.modSlice_tmc (s : State) (n : Nat) (f : Slice → Slice) : (s.modSlice n f).tmc = s.tmc := rfl
@[simp] theorem State.modSlice_hlt (s : State) (n : Nat) (f : Slice → Slice) : (s.modSlice n f).hlt = s.hlt := rfl
@[simp] theorem State.modSlice_cmds (s : State) (n : Nat) (f : Slice → Slice) : (s.modSlice n f).cmds = s.cmds := rfl
@[simp] theorem State.modSlice_free (s : State) (n : Nat) (f : Slice → Slice) : (s.modSlice n f).free = s.free := rfl
@[simp] theorem State.modSlice_pending (s : State) (n : Nat) (f : Slice → Slice) : (s.modSlice n f).pending = s.pending := rfl
@[simp] theorem State.modSlice_get (s : State) (n : Nat) (f : Slice → Slice) (g : Field) : (s.modSlice n f).get g = s.get g := rfl
@[simp] theorem State.modSlice_flag (s : State) (n : Nat) (f : Slice → Slice) (g : Field) : (s.modSlice n f).flag g = s.flag g := rfl

/-! `State.modRing` writes `slt` alone. -/

@[simp] theorem State.modRing_regs (s : State) (r : Nat) (f : Ring → Ring) : (s.modRing r f).regs = s.regs := rfl
@[simp] theorem State.modRing_mem (s : State) (r : Nat) (f : Ring → Ring) : (s.modRing r f).mem = s.mem := rfl
@[simp] theorem State.modRing_bus (s : State) (r : Nat) (f : Ring → Ring) : (s.modRing r f).bus = s.bus := rfl
@[simp] theorem State.modRing_sup (s : State) (r : Nat) (f : Ring → Ring) : (s.modRing r f).sup = s.sup := rfl
@[simp] theorem State.modRing_keep (s : State) (r : Nat) (f : Ring → Ring) : (s.modRing r f).keep = s.keep := rfl
@[simp] theorem State.modRing_qbc (s : State) (r : Nat) (f : Ring → Ring) : (s.modRing r f).qbc = s.qbc := rfl
@[simp] theorem State.modRing_tbu (s : State) (r : Nat) (f : Ring → Ring) : (s.modRing r f).tbu = s.tbu := rfl
@[simp] theorem State.modRing_mac (s : State) (r : Nat) (f : Ring → Ring) : (s.modRing r f).mac = s.mac := rfl
@[simp] theorem State.modRing_pairs (s : State) (r : Nat) (f : Ring → Ring) : (s.modRing r f).pairs = s.pairs := rfl
@[simp] theorem State.modRing_wvl (s : State) (r : Nat) (f : Ring → Ring) : (s.modRing r f).wvl = s.wvl := rfl
@[simp] theorem State.modRing_ing (s : State) (r : Nat) (f : Ring → Ring) : (s.modRing r f).ing = s.ing := rfl
@[simp] theorem State.modRing_lat (s : State) (r : Nat) (f : Ring → Ring) : (s.modRing r f).lat = s.lat := rfl
@[simp] theorem State.modRing_phe (s : State) (r : Nat) (f : Ring → Ring) : (s.modRing r f).phe = s.phe := rfl
@[simp] theorem State.modRing_gcm (s : State) (r : Nat) (f : Ring → Ring) : (s.modRing r f).gcm = s.gcm := rfl
@[simp] theorem State.modRing_slp (s : State) (r : Nat) (f : Ring → Ring) : (s.modRing r f).slp = s.slp := rfl
@[simp] theorem State.modRing_pub (s : State) (r : Nat) (f : Ring → Ring) : (s.modRing r f).pub = s.pub := rfl
@[simp] theorem State.modRing_dre (s : State) (r : Nat) (f : Ring → Ring) : (s.modRing r f).dre = s.dre := rfl
@[simp] theorem State.modRing_prc (s : State) (r : Nat) (f : Ring → Ring) : (s.modRing r f).prc = s.prc := rfl
@[simp] theorem State.modRing_psc (s : State) (r : Nat) (f : Ring → Ring) : (s.modRing r f).psc = s.psc := rfl
@[simp] theorem State.modRing_dom (s : State) (r : Nat) (f : Ring → Ring) : (s.modRing r f).dom = s.dom := rfl
@[simp] theorem State.modRing_tmc (s : State) (r : Nat) (f : Ring → Ring) : (s.modRing r f).tmc = s.tmc := rfl
@[simp] theorem State.modRing_hlt (s : State) (r : Nat) (f : Ring → Ring) : (s.modRing r f).hlt = s.hlt := rfl
@[simp] theorem State.modRing_cmds (s : State) (r : Nat) (f : Ring → Ring) : (s.modRing r f).cmds = s.cmds := rfl
@[simp] theorem State.modRing_free (s : State) (r : Nat) (f : Ring → Ring) : (s.modRing r f).free = s.free := rfl
@[simp] theorem State.modRing_pending (s : State) (r : Nat) (f : Ring → Ring) : (s.modRing r f).pending = s.pending := rfl
@[simp] theorem State.modRing_get (s : State) (r : Nat) (f : Ring → Ring) (g : Field) : (s.modRing r f).get g = s.get g := rfl
@[simp] theorem State.modRing_flag (s : State) (r : Nat) (f : Ring → Ring) (g : Field) : (s.modRing r f).flag g = s.flag g := rfl

/-! `State.modMac` writes `mac` alone. -/

@[simp] theorem State.modMac_regs (s : State) (p : Nat) (f : Mac → Mac) : (s.modMac p f).regs = s.regs := rfl
@[simp] theorem State.modMac_mem (s : State) (p : Nat) (f : Mac → Mac) : (s.modMac p f).mem = s.mem := rfl
@[simp] theorem State.modMac_bus (s : State) (p : Nat) (f : Mac → Mac) : (s.modMac p f).bus = s.bus := rfl
@[simp] theorem State.modMac_sup (s : State) (p : Nat) (f : Mac → Mac) : (s.modMac p f).sup = s.sup := rfl
@[simp] theorem State.modMac_keep (s : State) (p : Nat) (f : Mac → Mac) : (s.modMac p f).keep = s.keep := rfl
@[simp] theorem State.modMac_qbc (s : State) (p : Nat) (f : Mac → Mac) : (s.modMac p f).qbc = s.qbc := rfl
@[simp] theorem State.modMac_tbu (s : State) (p : Nat) (f : Mac → Mac) : (s.modMac p f).tbu = s.tbu := rfl
@[simp] theorem State.modMac_pairs (s : State) (p : Nat) (f : Mac → Mac) : (s.modMac p f).pairs = s.pairs := rfl
@[simp] theorem State.modMac_wvl (s : State) (p : Nat) (f : Mac → Mac) : (s.modMac p f).wvl = s.wvl := rfl
@[simp] theorem State.modMac_ing (s : State) (p : Nat) (f : Mac → Mac) : (s.modMac p f).ing = s.ing := rfl
@[simp] theorem State.modMac_lat (s : State) (p : Nat) (f : Mac → Mac) : (s.modMac p f).lat = s.lat := rfl
@[simp] theorem State.modMac_phe (s : State) (p : Nat) (f : Mac → Mac) : (s.modMac p f).phe = s.phe := rfl
@[simp] theorem State.modMac_gcm (s : State) (p : Nat) (f : Mac → Mac) : (s.modMac p f).gcm = s.gcm := rfl
@[simp] theorem State.modMac_slp (s : State) (p : Nat) (f : Mac → Mac) : (s.modMac p f).slp = s.slp := rfl
@[simp] theorem State.modMac_pub (s : State) (p : Nat) (f : Mac → Mac) : (s.modMac p f).pub = s.pub := rfl
@[simp] theorem State.modMac_dre (s : State) (p : Nat) (f : Mac → Mac) : (s.modMac p f).dre = s.dre := rfl
@[simp] theorem State.modMac_slt (s : State) (p : Nat) (f : Mac → Mac) : (s.modMac p f).slt = s.slt := rfl
@[simp] theorem State.modMac_prc (s : State) (p : Nat) (f : Mac → Mac) : (s.modMac p f).prc = s.prc := rfl
@[simp] theorem State.modMac_psc (s : State) (p : Nat) (f : Mac → Mac) : (s.modMac p f).psc = s.psc := rfl
@[simp] theorem State.modMac_dom (s : State) (p : Nat) (f : Mac → Mac) : (s.modMac p f).dom = s.dom := rfl
@[simp] theorem State.modMac_tmc (s : State) (p : Nat) (f : Mac → Mac) : (s.modMac p f).tmc = s.tmc := rfl
@[simp] theorem State.modMac_hlt (s : State) (p : Nat) (f : Mac → Mac) : (s.modMac p f).hlt = s.hlt := rfl
@[simp] theorem State.modMac_cmds (s : State) (p : Nat) (f : Mac → Mac) : (s.modMac p f).cmds = s.cmds := rfl
@[simp] theorem State.modMac_free (s : State) (p : Nat) (f : Mac → Mac) : (s.modMac p f).free = s.free := rfl
@[simp] theorem State.modMac_pending (s : State) (p : Nat) (f : Mac → Mac) : (s.modMac p f).pending = s.pending := rfl
@[simp] theorem State.modMac_get (s : State) (p : Nat) (f : Mac → Mac) (g : Field) : (s.modMac p f).get g = s.get g := rfl
@[simp] theorem State.modMac_flag (s : State) (p : Nat) (f : Mac → Mac) (g : Field) : (s.modMac p f).flag g = s.flag g := rfl

/-! `State.modPair` writes `pairs` alone. -/

@[simp] theorem State.modPair_regs (s : State) (p : Nat) (f : Pair → Pair) : (s.modPair p f).regs = s.regs := rfl
@[simp] theorem State.modPair_mem (s : State) (p : Nat) (f : Pair → Pair) : (s.modPair p f).mem = s.mem := rfl
@[simp] theorem State.modPair_bus (s : State) (p : Nat) (f : Pair → Pair) : (s.modPair p f).bus = s.bus := rfl
@[simp] theorem State.modPair_sup (s : State) (p : Nat) (f : Pair → Pair) : (s.modPair p f).sup = s.sup := rfl
@[simp] theorem State.modPair_keep (s : State) (p : Nat) (f : Pair → Pair) : (s.modPair p f).keep = s.keep := rfl
@[simp] theorem State.modPair_qbc (s : State) (p : Nat) (f : Pair → Pair) : (s.modPair p f).qbc = s.qbc := rfl
@[simp] theorem State.modPair_tbu (s : State) (p : Nat) (f : Pair → Pair) : (s.modPair p f).tbu = s.tbu := rfl
@[simp] theorem State.modPair_mac (s : State) (p : Nat) (f : Pair → Pair) : (s.modPair p f).mac = s.mac := rfl
@[simp] theorem State.modPair_wvl (s : State) (p : Nat) (f : Pair → Pair) : (s.modPair p f).wvl = s.wvl := rfl
@[simp] theorem State.modPair_ing (s : State) (p : Nat) (f : Pair → Pair) : (s.modPair p f).ing = s.ing := rfl
@[simp] theorem State.modPair_lat (s : State) (p : Nat) (f : Pair → Pair) : (s.modPair p f).lat = s.lat := rfl
@[simp] theorem State.modPair_phe (s : State) (p : Nat) (f : Pair → Pair) : (s.modPair p f).phe = s.phe := rfl
@[simp] theorem State.modPair_gcm (s : State) (p : Nat) (f : Pair → Pair) : (s.modPair p f).gcm = s.gcm := rfl
@[simp] theorem State.modPair_slp (s : State) (p : Nat) (f : Pair → Pair) : (s.modPair p f).slp = s.slp := rfl
@[simp] theorem State.modPair_pub (s : State) (p : Nat) (f : Pair → Pair) : (s.modPair p f).pub = s.pub := rfl
@[simp] theorem State.modPair_dre (s : State) (p : Nat) (f : Pair → Pair) : (s.modPair p f).dre = s.dre := rfl
@[simp] theorem State.modPair_slt (s : State) (p : Nat) (f : Pair → Pair) : (s.modPair p f).slt = s.slt := rfl
@[simp] theorem State.modPair_prc (s : State) (p : Nat) (f : Pair → Pair) : (s.modPair p f).prc = s.prc := rfl
@[simp] theorem State.modPair_psc (s : State) (p : Nat) (f : Pair → Pair) : (s.modPair p f).psc = s.psc := rfl
@[simp] theorem State.modPair_dom (s : State) (p : Nat) (f : Pair → Pair) : (s.modPair p f).dom = s.dom := rfl
@[simp] theorem State.modPair_tmc (s : State) (p : Nat) (f : Pair → Pair) : (s.modPair p f).tmc = s.tmc := rfl
@[simp] theorem State.modPair_hlt (s : State) (p : Nat) (f : Pair → Pair) : (s.modPair p f).hlt = s.hlt := rfl
@[simp] theorem State.modPair_cmds (s : State) (p : Nat) (f : Pair → Pair) : (s.modPair p f).cmds = s.cmds := rfl
@[simp] theorem State.modPair_free (s : State) (p : Nat) (f : Pair → Pair) : (s.modPair p f).free = s.free := rfl
@[simp] theorem State.modPair_pending (s : State) (p : Nat) (f : Pair → Pair) : (s.modPair p f).pending = s.pending := rfl
@[simp] theorem State.modPair_get (s : State) (p : Nat) (f : Pair → Pair) (g : Field) : (s.modPair p f).get g = s.get g := rfl
@[simp] theorem State.modPair_flag (s : State) (p : Nat) (f : Pair → Pair) (g : Field) : (s.modPair p f).flag g = s.flag g := rfl

/-! `State.modLat` writes `lat` alone. -/

@[simp] theorem State.modLat_regs (s : State) (l : Nat) (f : Lattice → Lattice) : (s.modLat l f).regs = s.regs := rfl
@[simp] theorem State.modLat_mem (s : State) (l : Nat) (f : Lattice → Lattice) : (s.modLat l f).mem = s.mem := rfl
@[simp] theorem State.modLat_bus (s : State) (l : Nat) (f : Lattice → Lattice) : (s.modLat l f).bus = s.bus := rfl
@[simp] theorem State.modLat_sup (s : State) (l : Nat) (f : Lattice → Lattice) : (s.modLat l f).sup = s.sup := rfl
@[simp] theorem State.modLat_keep (s : State) (l : Nat) (f : Lattice → Lattice) : (s.modLat l f).keep = s.keep := rfl
@[simp] theorem State.modLat_qbc (s : State) (l : Nat) (f : Lattice → Lattice) : (s.modLat l f).qbc = s.qbc := rfl
@[simp] theorem State.modLat_tbu (s : State) (l : Nat) (f : Lattice → Lattice) : (s.modLat l f).tbu = s.tbu := rfl
@[simp] theorem State.modLat_mac (s : State) (l : Nat) (f : Lattice → Lattice) : (s.modLat l f).mac = s.mac := rfl
@[simp] theorem State.modLat_pairs (s : State) (l : Nat) (f : Lattice → Lattice) : (s.modLat l f).pairs = s.pairs := rfl
@[simp] theorem State.modLat_wvl (s : State) (l : Nat) (f : Lattice → Lattice) : (s.modLat l f).wvl = s.wvl := rfl
@[simp] theorem State.modLat_ing (s : State) (l : Nat) (f : Lattice → Lattice) : (s.modLat l f).ing = s.ing := rfl
@[simp] theorem State.modLat_phe (s : State) (l : Nat) (f : Lattice → Lattice) : (s.modLat l f).phe = s.phe := rfl
@[simp] theorem State.modLat_gcm (s : State) (l : Nat) (f : Lattice → Lattice) : (s.modLat l f).gcm = s.gcm := rfl
@[simp] theorem State.modLat_slp (s : State) (l : Nat) (f : Lattice → Lattice) : (s.modLat l f).slp = s.slp := rfl
@[simp] theorem State.modLat_pub (s : State) (l : Nat) (f : Lattice → Lattice) : (s.modLat l f).pub = s.pub := rfl
@[simp] theorem State.modLat_dre (s : State) (l : Nat) (f : Lattice → Lattice) : (s.modLat l f).dre = s.dre := rfl
@[simp] theorem State.modLat_slt (s : State) (l : Nat) (f : Lattice → Lattice) : (s.modLat l f).slt = s.slt := rfl
@[simp] theorem State.modLat_prc (s : State) (l : Nat) (f : Lattice → Lattice) : (s.modLat l f).prc = s.prc := rfl
@[simp] theorem State.modLat_psc (s : State) (l : Nat) (f : Lattice → Lattice) : (s.modLat l f).psc = s.psc := rfl
@[simp] theorem State.modLat_dom (s : State) (l : Nat) (f : Lattice → Lattice) : (s.modLat l f).dom = s.dom := rfl
@[simp] theorem State.modLat_tmc (s : State) (l : Nat) (f : Lattice → Lattice) : (s.modLat l f).tmc = s.tmc := rfl
@[simp] theorem State.modLat_hlt (s : State) (l : Nat) (f : Lattice → Lattice) : (s.modLat l f).hlt = s.hlt := rfl
@[simp] theorem State.modLat_cmds (s : State) (l : Nat) (f : Lattice → Lattice) : (s.modLat l f).cmds = s.cmds := rfl
@[simp] theorem State.modLat_free (s : State) (l : Nat) (f : Lattice → Lattice) : (s.modLat l f).free = s.free := rfl
@[simp] theorem State.modLat_pending (s : State) (l : Nat) (f : Lattice → Lattice) : (s.modLat l f).pending = s.pending := rfl
@[simp] theorem State.modLat_get (s : State) (l : Nat) (f : Lattice → Lattice) (g : Field) : (s.modLat l f).get g = s.get g := rfl
@[simp] theorem State.modLat_flag (s : State) (l : Nat) (f : Lattice → Lattice) (g : Field) : (s.modLat l f).flag g = s.flag g := rfl

/-! `State.modCls` writes `slp` alone. -/

@[simp] theorem State.modCls_regs (s : State) (c : Nat) (f : ClassSt → ClassSt) : (s.modCls c f).regs = s.regs := rfl
@[simp] theorem State.modCls_mem (s : State) (c : Nat) (f : ClassSt → ClassSt) : (s.modCls c f).mem = s.mem := rfl
@[simp] theorem State.modCls_bus (s : State) (c : Nat) (f : ClassSt → ClassSt) : (s.modCls c f).bus = s.bus := rfl
@[simp] theorem State.modCls_sup (s : State) (c : Nat) (f : ClassSt → ClassSt) : (s.modCls c f).sup = s.sup := rfl
@[simp] theorem State.modCls_keep (s : State) (c : Nat) (f : ClassSt → ClassSt) : (s.modCls c f).keep = s.keep := rfl
@[simp] theorem State.modCls_qbc (s : State) (c : Nat) (f : ClassSt → ClassSt) : (s.modCls c f).qbc = s.qbc := rfl
@[simp] theorem State.modCls_tbu (s : State) (c : Nat) (f : ClassSt → ClassSt) : (s.modCls c f).tbu = s.tbu := rfl
@[simp] theorem State.modCls_mac (s : State) (c : Nat) (f : ClassSt → ClassSt) : (s.modCls c f).mac = s.mac := rfl
@[simp] theorem State.modCls_pairs (s : State) (c : Nat) (f : ClassSt → ClassSt) : (s.modCls c f).pairs = s.pairs := rfl
@[simp] theorem State.modCls_wvl (s : State) (c : Nat) (f : ClassSt → ClassSt) : (s.modCls c f).wvl = s.wvl := rfl
@[simp] theorem State.modCls_ing (s : State) (c : Nat) (f : ClassSt → ClassSt) : (s.modCls c f).ing = s.ing := rfl
@[simp] theorem State.modCls_lat (s : State) (c : Nat) (f : ClassSt → ClassSt) : (s.modCls c f).lat = s.lat := rfl
@[simp] theorem State.modCls_phe (s : State) (c : Nat) (f : ClassSt → ClassSt) : (s.modCls c f).phe = s.phe := rfl
@[simp] theorem State.modCls_gcm (s : State) (c : Nat) (f : ClassSt → ClassSt) : (s.modCls c f).gcm = s.gcm := rfl
@[simp] theorem State.modCls_pub (s : State) (c : Nat) (f : ClassSt → ClassSt) : (s.modCls c f).pub = s.pub := rfl
@[simp] theorem State.modCls_dre (s : State) (c : Nat) (f : ClassSt → ClassSt) : (s.modCls c f).dre = s.dre := rfl
@[simp] theorem State.modCls_slt (s : State) (c : Nat) (f : ClassSt → ClassSt) : (s.modCls c f).slt = s.slt := rfl
@[simp] theorem State.modCls_prc (s : State) (c : Nat) (f : ClassSt → ClassSt) : (s.modCls c f).prc = s.prc := rfl
@[simp] theorem State.modCls_psc (s : State) (c : Nat) (f : ClassSt → ClassSt) : (s.modCls c f).psc = s.psc := rfl
@[simp] theorem State.modCls_dom (s : State) (c : Nat) (f : ClassSt → ClassSt) : (s.modCls c f).dom = s.dom := rfl
@[simp] theorem State.modCls_tmc (s : State) (c : Nat) (f : ClassSt → ClassSt) : (s.modCls c f).tmc = s.tmc := rfl
@[simp] theorem State.modCls_hlt (s : State) (c : Nat) (f : ClassSt → ClassSt) : (s.modCls c f).hlt = s.hlt := rfl
@[simp] theorem State.modCls_cmds (s : State) (c : Nat) (f : ClassSt → ClassSt) : (s.modCls c f).cmds = s.cmds := rfl
@[simp] theorem State.modCls_free (s : State) (c : Nat) (f : ClassSt → ClassSt) : (s.modCls c f).free = s.free := rfl
@[simp] theorem State.modCls_pending (s : State) (c : Nat) (f : ClassSt → ClassSt) : (s.modCls c f).pending = s.pending := rfl
@[simp] theorem State.modCls_get (s : State) (c : Nat) (f : ClassSt → ClassSt) (g : Field) : (s.modCls c f).get g = s.get g := rfl
@[simp] theorem State.modCls_flag (s : State) (c : Nat) (f : ClassSt → ClassSt) (g : Field) : (s.modCls c f).flag g = s.flag g := rfl

/-! `State.modPub` writes `pub` alone. -/

@[simp] theorem State.modPub_regs (s : State) (p : Nat) (f : PubSt → PubSt) : (s.modPub p f).regs = s.regs := rfl
@[simp] theorem State.modPub_mem (s : State) (p : Nat) (f : PubSt → PubSt) : (s.modPub p f).mem = s.mem := rfl
@[simp] theorem State.modPub_bus (s : State) (p : Nat) (f : PubSt → PubSt) : (s.modPub p f).bus = s.bus := rfl
@[simp] theorem State.modPub_sup (s : State) (p : Nat) (f : PubSt → PubSt) : (s.modPub p f).sup = s.sup := rfl
@[simp] theorem State.modPub_keep (s : State) (p : Nat) (f : PubSt → PubSt) : (s.modPub p f).keep = s.keep := rfl
@[simp] theorem State.modPub_qbc (s : State) (p : Nat) (f : PubSt → PubSt) : (s.modPub p f).qbc = s.qbc := rfl
@[simp] theorem State.modPub_tbu (s : State) (p : Nat) (f : PubSt → PubSt) : (s.modPub p f).tbu = s.tbu := rfl
@[simp] theorem State.modPub_mac (s : State) (p : Nat) (f : PubSt → PubSt) : (s.modPub p f).mac = s.mac := rfl
@[simp] theorem State.modPub_pairs (s : State) (p : Nat) (f : PubSt → PubSt) : (s.modPub p f).pairs = s.pairs := rfl
@[simp] theorem State.modPub_wvl (s : State) (p : Nat) (f : PubSt → PubSt) : (s.modPub p f).wvl = s.wvl := rfl
@[simp] theorem State.modPub_ing (s : State) (p : Nat) (f : PubSt → PubSt) : (s.modPub p f).ing = s.ing := rfl
@[simp] theorem State.modPub_lat (s : State) (p : Nat) (f : PubSt → PubSt) : (s.modPub p f).lat = s.lat := rfl
@[simp] theorem State.modPub_phe (s : State) (p : Nat) (f : PubSt → PubSt) : (s.modPub p f).phe = s.phe := rfl
@[simp] theorem State.modPub_gcm (s : State) (p : Nat) (f : PubSt → PubSt) : (s.modPub p f).gcm = s.gcm := rfl
@[simp] theorem State.modPub_slp (s : State) (p : Nat) (f : PubSt → PubSt) : (s.modPub p f).slp = s.slp := rfl
@[simp] theorem State.modPub_dre (s : State) (p : Nat) (f : PubSt → PubSt) : (s.modPub p f).dre = s.dre := rfl
@[simp] theorem State.modPub_slt (s : State) (p : Nat) (f : PubSt → PubSt) : (s.modPub p f).slt = s.slt := rfl
@[simp] theorem State.modPub_prc (s : State) (p : Nat) (f : PubSt → PubSt) : (s.modPub p f).prc = s.prc := rfl
@[simp] theorem State.modPub_psc (s : State) (p : Nat) (f : PubSt → PubSt) : (s.modPub p f).psc = s.psc := rfl
@[simp] theorem State.modPub_dom (s : State) (p : Nat) (f : PubSt → PubSt) : (s.modPub p f).dom = s.dom := rfl
@[simp] theorem State.modPub_tmc (s : State) (p : Nat) (f : PubSt → PubSt) : (s.modPub p f).tmc = s.tmc := rfl
@[simp] theorem State.modPub_hlt (s : State) (p : Nat) (f : PubSt → PubSt) : (s.modPub p f).hlt = s.hlt := rfl
@[simp] theorem State.modPub_cmds (s : State) (p : Nat) (f : PubSt → PubSt) : (s.modPub p f).cmds = s.cmds := rfl
@[simp] theorem State.modPub_free (s : State) (p : Nat) (f : PubSt → PubSt) : (s.modPub p f).free = s.free := rfl
@[simp] theorem State.modPub_pending (s : State) (p : Nat) (f : PubSt → PubSt) : (s.modPub p f).pending = s.pending := rfl
@[simp] theorem State.modPub_get (s : State) (p : Nat) (f : PubSt → PubSt) (g : Field) : (s.modPub p f).get g = s.get g := rfl
@[simp] theorem State.modPub_flag (s : State) (p : Nat) (f : PubSt → PubSt) (g : Field) : (s.modPub p f).flag g = s.flag g := rfl

/-! `State.modRec` writes `dre` alone. -/

@[simp] theorem State.modRec_regs (s : State) (i : Nat) (f : RecInst → RecInst) : (s.modRec i f).regs = s.regs := rfl
@[simp] theorem State.modRec_mem (s : State) (i : Nat) (f : RecInst → RecInst) : (s.modRec i f).mem = s.mem := rfl
@[simp] theorem State.modRec_bus (s : State) (i : Nat) (f : RecInst → RecInst) : (s.modRec i f).bus = s.bus := rfl
@[simp] theorem State.modRec_sup (s : State) (i : Nat) (f : RecInst → RecInst) : (s.modRec i f).sup = s.sup := rfl
@[simp] theorem State.modRec_keep (s : State) (i : Nat) (f : RecInst → RecInst) : (s.modRec i f).keep = s.keep := rfl
@[simp] theorem State.modRec_qbc (s : State) (i : Nat) (f : RecInst → RecInst) : (s.modRec i f).qbc = s.qbc := rfl
@[simp] theorem State.modRec_tbu (s : State) (i : Nat) (f : RecInst → RecInst) : (s.modRec i f).tbu = s.tbu := rfl
@[simp] theorem State.modRec_mac (s : State) (i : Nat) (f : RecInst → RecInst) : (s.modRec i f).mac = s.mac := rfl
@[simp] theorem State.modRec_pairs (s : State) (i : Nat) (f : RecInst → RecInst) : (s.modRec i f).pairs = s.pairs := rfl
@[simp] theorem State.modRec_wvl (s : State) (i : Nat) (f : RecInst → RecInst) : (s.modRec i f).wvl = s.wvl := rfl
@[simp] theorem State.modRec_ing (s : State) (i : Nat) (f : RecInst → RecInst) : (s.modRec i f).ing = s.ing := rfl
@[simp] theorem State.modRec_lat (s : State) (i : Nat) (f : RecInst → RecInst) : (s.modRec i f).lat = s.lat := rfl
@[simp] theorem State.modRec_phe (s : State) (i : Nat) (f : RecInst → RecInst) : (s.modRec i f).phe = s.phe := rfl
@[simp] theorem State.modRec_gcm (s : State) (i : Nat) (f : RecInst → RecInst) : (s.modRec i f).gcm = s.gcm := rfl
@[simp] theorem State.modRec_slp (s : State) (i : Nat) (f : RecInst → RecInst) : (s.modRec i f).slp = s.slp := rfl
@[simp] theorem State.modRec_pub (s : State) (i : Nat) (f : RecInst → RecInst) : (s.modRec i f).pub = s.pub := rfl
@[simp] theorem State.modRec_slt (s : State) (i : Nat) (f : RecInst → RecInst) : (s.modRec i f).slt = s.slt := rfl
@[simp] theorem State.modRec_prc (s : State) (i : Nat) (f : RecInst → RecInst) : (s.modRec i f).prc = s.prc := rfl
@[simp] theorem State.modRec_psc (s : State) (i : Nat) (f : RecInst → RecInst) : (s.modRec i f).psc = s.psc := rfl
@[simp] theorem State.modRec_dom (s : State) (i : Nat) (f : RecInst → RecInst) : (s.modRec i f).dom = s.dom := rfl
@[simp] theorem State.modRec_tmc (s : State) (i : Nat) (f : RecInst → RecInst) : (s.modRec i f).tmc = s.tmc := rfl
@[simp] theorem State.modRec_hlt (s : State) (i : Nat) (f : RecInst → RecInst) : (s.modRec i f).hlt = s.hlt := rfl
@[simp] theorem State.modRec_cmds (s : State) (i : Nat) (f : RecInst → RecInst) : (s.modRec i f).cmds = s.cmds := rfl
@[simp] theorem State.modRec_free (s : State) (i : Nat) (f : RecInst → RecInst) : (s.modRec i f).free = s.free := rfl
@[simp] theorem State.modRec_pending (s : State) (i : Nat) (f : RecInst → RecInst) : (s.modRec i f).pending = s.pending := rfl
@[simp] theorem State.modRec_get (s : State) (i : Nat) (f : RecInst → RecInst) (g : Field) : (s.modRec i f).get g = s.get g := rfl
@[simp] theorem State.modRec_flag (s : State) (i : Nat) (f : RecInst → RecInst) (g : Field) : (s.modRec i f).flag g = s.flag g := rfl

/-! `State.modSess` writes `tmc` alone. -/

@[simp] theorem State.modSess_regs (s : State) (n : Nat) (f : Session → Session) : (s.modSess n f).regs = s.regs := rfl
@[simp] theorem State.modSess_mem (s : State) (n : Nat) (f : Session → Session) : (s.modSess n f).mem = s.mem := rfl
@[simp] theorem State.modSess_bus (s : State) (n : Nat) (f : Session → Session) : (s.modSess n f).bus = s.bus := rfl
@[simp] theorem State.modSess_sup (s : State) (n : Nat) (f : Session → Session) : (s.modSess n f).sup = s.sup := rfl
@[simp] theorem State.modSess_keep (s : State) (n : Nat) (f : Session → Session) : (s.modSess n f).keep = s.keep := rfl
@[simp] theorem State.modSess_qbc (s : State) (n : Nat) (f : Session → Session) : (s.modSess n f).qbc = s.qbc := rfl
@[simp] theorem State.modSess_tbu (s : State) (n : Nat) (f : Session → Session) : (s.modSess n f).tbu = s.tbu := rfl
@[simp] theorem State.modSess_mac (s : State) (n : Nat) (f : Session → Session) : (s.modSess n f).mac = s.mac := rfl
@[simp] theorem State.modSess_pairs (s : State) (n : Nat) (f : Session → Session) : (s.modSess n f).pairs = s.pairs := rfl
@[simp] theorem State.modSess_wvl (s : State) (n : Nat) (f : Session → Session) : (s.modSess n f).wvl = s.wvl := rfl
@[simp] theorem State.modSess_ing (s : State) (n : Nat) (f : Session → Session) : (s.modSess n f).ing = s.ing := rfl
@[simp] theorem State.modSess_lat (s : State) (n : Nat) (f : Session → Session) : (s.modSess n f).lat = s.lat := rfl
@[simp] theorem State.modSess_phe (s : State) (n : Nat) (f : Session → Session) : (s.modSess n f).phe = s.phe := rfl
@[simp] theorem State.modSess_gcm (s : State) (n : Nat) (f : Session → Session) : (s.modSess n f).gcm = s.gcm := rfl
@[simp] theorem State.modSess_slp (s : State) (n : Nat) (f : Session → Session) : (s.modSess n f).slp = s.slp := rfl
@[simp] theorem State.modSess_pub (s : State) (n : Nat) (f : Session → Session) : (s.modSess n f).pub = s.pub := rfl
@[simp] theorem State.modSess_dre (s : State) (n : Nat) (f : Session → Session) : (s.modSess n f).dre = s.dre := rfl
@[simp] theorem State.modSess_slt (s : State) (n : Nat) (f : Session → Session) : (s.modSess n f).slt = s.slt := rfl
@[simp] theorem State.modSess_prc (s : State) (n : Nat) (f : Session → Session) : (s.modSess n f).prc = s.prc := rfl
@[simp] theorem State.modSess_psc (s : State) (n : Nat) (f : Session → Session) : (s.modSess n f).psc = s.psc := rfl
@[simp] theorem State.modSess_dom (s : State) (n : Nat) (f : Session → Session) : (s.modSess n f).dom = s.dom := rfl
@[simp] theorem State.modSess_hlt (s : State) (n : Nat) (f : Session → Session) : (s.modSess n f).hlt = s.hlt := rfl
@[simp] theorem State.modSess_cmds (s : State) (n : Nat) (f : Session → Session) : (s.modSess n f).cmds = s.cmds := rfl
@[simp] theorem State.modSess_free (s : State) (n : Nat) (f : Session → Session) : (s.modSess n f).free = s.free := rfl
@[simp] theorem State.modSess_pending (s : State) (n : Nat) (f : Session → Session) : (s.modSess n f).pending = s.pending := rfl
@[simp] theorem State.modSess_get (s : State) (n : Nat) (f : Session → Session) (g : Field) : (s.modSess n f).get g = s.get g := rfl
@[simp] theorem State.modSess_flag (s : State) (n : Nat) (f : Session → Session) (g : Field) : (s.modSess n f).flag g = s.flag g := rfl

/-! `State.modPsc` writes `psc` alone. -/

@[simp] theorem State.modPsc_regs (s : State) (f : Island → Island) : (s.modPsc f).regs = s.regs := rfl
@[simp] theorem State.modPsc_mem (s : State) (f : Island → Island) : (s.modPsc f).mem = s.mem := rfl
@[simp] theorem State.modPsc_bus (s : State) (f : Island → Island) : (s.modPsc f).bus = s.bus := rfl
@[simp] theorem State.modPsc_sup (s : State) (f : Island → Island) : (s.modPsc f).sup = s.sup := rfl
@[simp] theorem State.modPsc_keep (s : State) (f : Island → Island) : (s.modPsc f).keep = s.keep := rfl
@[simp] theorem State.modPsc_qbc (s : State) (f : Island → Island) : (s.modPsc f).qbc = s.qbc := rfl
@[simp] theorem State.modPsc_tbu (s : State) (f : Island → Island) : (s.modPsc f).tbu = s.tbu := rfl
@[simp] theorem State.modPsc_mac (s : State) (f : Island → Island) : (s.modPsc f).mac = s.mac := rfl
@[simp] theorem State.modPsc_pairs (s : State) (f : Island → Island) : (s.modPsc f).pairs = s.pairs := rfl
@[simp] theorem State.modPsc_wvl (s : State) (f : Island → Island) : (s.modPsc f).wvl = s.wvl := rfl
@[simp] theorem State.modPsc_ing (s : State) (f : Island → Island) : (s.modPsc f).ing = s.ing := rfl
@[simp] theorem State.modPsc_lat (s : State) (f : Island → Island) : (s.modPsc f).lat = s.lat := rfl
@[simp] theorem State.modPsc_phe (s : State) (f : Island → Island) : (s.modPsc f).phe = s.phe := rfl
@[simp] theorem State.modPsc_gcm (s : State) (f : Island → Island) : (s.modPsc f).gcm = s.gcm := rfl
@[simp] theorem State.modPsc_slp (s : State) (f : Island → Island) : (s.modPsc f).slp = s.slp := rfl
@[simp] theorem State.modPsc_pub (s : State) (f : Island → Island) : (s.modPsc f).pub = s.pub := rfl
@[simp] theorem State.modPsc_dre (s : State) (f : Island → Island) : (s.modPsc f).dre = s.dre := rfl
@[simp] theorem State.modPsc_slt (s : State) (f : Island → Island) : (s.modPsc f).slt = s.slt := rfl
@[simp] theorem State.modPsc_prc (s : State) (f : Island → Island) : (s.modPsc f).prc = s.prc := rfl
@[simp] theorem State.modPsc_dom (s : State) (f : Island → Island) : (s.modPsc f).dom = s.dom := rfl
@[simp] theorem State.modPsc_tmc (s : State) (f : Island → Island) : (s.modPsc f).tmc = s.tmc := rfl
@[simp] theorem State.modPsc_hlt (s : State) (f : Island → Island) : (s.modPsc f).hlt = s.hlt := rfl
@[simp] theorem State.modPsc_cmds (s : State) (f : Island → Island) : (s.modPsc f).cmds = s.cmds := rfl
@[simp] theorem State.modPsc_free (s : State) (f : Island → Island) : (s.modPsc f).free = s.free := rfl
@[simp] theorem State.modPsc_pending (s : State) (f : Island → Island) : (s.modPsc f).pending = s.pending := rfl
@[simp] theorem State.modPsc_get (s : State) (f : Island → Island) (g : Field) : (s.modPsc f).get g = s.get g := rfl
@[simp] theorem State.modPsc_flag (s : State) (f : Island → Island) (g : Field) : (s.modPsc f).flag g = s.flag g := rfl

/-! `State.modSout` writes `psc` alone. -/

@[simp] theorem State.modSout_regs (s : State) (k : Nat) (f : SafeOut → SafeOut) : (s.modSout k f).regs = s.regs := rfl
@[simp] theorem State.modSout_mem (s : State) (k : Nat) (f : SafeOut → SafeOut) : (s.modSout k f).mem = s.mem := rfl
@[simp] theorem State.modSout_bus (s : State) (k : Nat) (f : SafeOut → SafeOut) : (s.modSout k f).bus = s.bus := rfl
@[simp] theorem State.modSout_sup (s : State) (k : Nat) (f : SafeOut → SafeOut) : (s.modSout k f).sup = s.sup := rfl
@[simp] theorem State.modSout_keep (s : State) (k : Nat) (f : SafeOut → SafeOut) : (s.modSout k f).keep = s.keep := rfl
@[simp] theorem State.modSout_qbc (s : State) (k : Nat) (f : SafeOut → SafeOut) : (s.modSout k f).qbc = s.qbc := rfl
@[simp] theorem State.modSout_tbu (s : State) (k : Nat) (f : SafeOut → SafeOut) : (s.modSout k f).tbu = s.tbu := rfl
@[simp] theorem State.modSout_mac (s : State) (k : Nat) (f : SafeOut → SafeOut) : (s.modSout k f).mac = s.mac := rfl
@[simp] theorem State.modSout_pairs (s : State) (k : Nat) (f : SafeOut → SafeOut) : (s.modSout k f).pairs = s.pairs := rfl
@[simp] theorem State.modSout_wvl (s : State) (k : Nat) (f : SafeOut → SafeOut) : (s.modSout k f).wvl = s.wvl := rfl
@[simp] theorem State.modSout_ing (s : State) (k : Nat) (f : SafeOut → SafeOut) : (s.modSout k f).ing = s.ing := rfl
@[simp] theorem State.modSout_lat (s : State) (k : Nat) (f : SafeOut → SafeOut) : (s.modSout k f).lat = s.lat := rfl
@[simp] theorem State.modSout_phe (s : State) (k : Nat) (f : SafeOut → SafeOut) : (s.modSout k f).phe = s.phe := rfl
@[simp] theorem State.modSout_gcm (s : State) (k : Nat) (f : SafeOut → SafeOut) : (s.modSout k f).gcm = s.gcm := rfl
@[simp] theorem State.modSout_slp (s : State) (k : Nat) (f : SafeOut → SafeOut) : (s.modSout k f).slp = s.slp := rfl
@[simp] theorem State.modSout_pub (s : State) (k : Nat) (f : SafeOut → SafeOut) : (s.modSout k f).pub = s.pub := rfl
@[simp] theorem State.modSout_dre (s : State) (k : Nat) (f : SafeOut → SafeOut) : (s.modSout k f).dre = s.dre := rfl
@[simp] theorem State.modSout_slt (s : State) (k : Nat) (f : SafeOut → SafeOut) : (s.modSout k f).slt = s.slt := rfl
@[simp] theorem State.modSout_prc (s : State) (k : Nat) (f : SafeOut → SafeOut) : (s.modSout k f).prc = s.prc := rfl
@[simp] theorem State.modSout_dom (s : State) (k : Nat) (f : SafeOut → SafeOut) : (s.modSout k f).dom = s.dom := rfl
@[simp] theorem State.modSout_tmc (s : State) (k : Nat) (f : SafeOut → SafeOut) : (s.modSout k f).tmc = s.tmc := rfl
@[simp] theorem State.modSout_hlt (s : State) (k : Nat) (f : SafeOut → SafeOut) : (s.modSout k f).hlt = s.hlt := rfl
@[simp] theorem State.modSout_cmds (s : State) (k : Nat) (f : SafeOut → SafeOut) : (s.modSout k f).cmds = s.cmds := rfl
@[simp] theorem State.modSout_free (s : State) (k : Nat) (f : SafeOut → SafeOut) : (s.modSout k f).free = s.free := rfl
@[simp] theorem State.modSout_pending (s : State) (k : Nat) (f : SafeOut → SafeOut) : (s.modSout k f).pending = s.pending := rfl
@[simp] theorem State.modSout_get (s : State) (k : Nat) (f : SafeOut → SafeOut) (g : Field) : (s.modSout k f).get g = s.get g := rfl
@[simp] theorem State.modSout_flag (s : State) (k : Nat) (f : SafeOut → SafeOut) (g : Field) : (s.modSout k f).flag g = s.flag g := rfl

/-! `State.modHlt` writes `hlt` alone. -/

@[simp] theorem State.modHlt_regs (s : State) (f : Health → Health) : (s.modHlt f).regs = s.regs := rfl
@[simp] theorem State.modHlt_mem (s : State) (f : Health → Health) : (s.modHlt f).mem = s.mem := rfl
@[simp] theorem State.modHlt_bus (s : State) (f : Health → Health) : (s.modHlt f).bus = s.bus := rfl
@[simp] theorem State.modHlt_sup (s : State) (f : Health → Health) : (s.modHlt f).sup = s.sup := rfl
@[simp] theorem State.modHlt_keep (s : State) (f : Health → Health) : (s.modHlt f).keep = s.keep := rfl
@[simp] theorem State.modHlt_qbc (s : State) (f : Health → Health) : (s.modHlt f).qbc = s.qbc := rfl
@[simp] theorem State.modHlt_tbu (s : State) (f : Health → Health) : (s.modHlt f).tbu = s.tbu := rfl
@[simp] theorem State.modHlt_mac (s : State) (f : Health → Health) : (s.modHlt f).mac = s.mac := rfl
@[simp] theorem State.modHlt_pairs (s : State) (f : Health → Health) : (s.modHlt f).pairs = s.pairs := rfl
@[simp] theorem State.modHlt_wvl (s : State) (f : Health → Health) : (s.modHlt f).wvl = s.wvl := rfl
@[simp] theorem State.modHlt_ing (s : State) (f : Health → Health) : (s.modHlt f).ing = s.ing := rfl
@[simp] theorem State.modHlt_lat (s : State) (f : Health → Health) : (s.modHlt f).lat = s.lat := rfl
@[simp] theorem State.modHlt_phe (s : State) (f : Health → Health) : (s.modHlt f).phe = s.phe := rfl
@[simp] theorem State.modHlt_gcm (s : State) (f : Health → Health) : (s.modHlt f).gcm = s.gcm := rfl
@[simp] theorem State.modHlt_slp (s : State) (f : Health → Health) : (s.modHlt f).slp = s.slp := rfl
@[simp] theorem State.modHlt_pub (s : State) (f : Health → Health) : (s.modHlt f).pub = s.pub := rfl
@[simp] theorem State.modHlt_dre (s : State) (f : Health → Health) : (s.modHlt f).dre = s.dre := rfl
@[simp] theorem State.modHlt_slt (s : State) (f : Health → Health) : (s.modHlt f).slt = s.slt := rfl
@[simp] theorem State.modHlt_prc (s : State) (f : Health → Health) : (s.modHlt f).prc = s.prc := rfl
@[simp] theorem State.modHlt_psc (s : State) (f : Health → Health) : (s.modHlt f).psc = s.psc := rfl
@[simp] theorem State.modHlt_dom (s : State) (f : Health → Health) : (s.modHlt f).dom = s.dom := rfl
@[simp] theorem State.modHlt_tmc (s : State) (f : Health → Health) : (s.modHlt f).tmc = s.tmc := rfl
@[simp] theorem State.modHlt_cmds (s : State) (f : Health → Health) : (s.modHlt f).cmds = s.cmds := rfl
@[simp] theorem State.modHlt_free (s : State) (f : Health → Health) : (s.modHlt f).free = s.free := rfl
@[simp] theorem State.modHlt_pending (s : State) (f : Health → Health) : (s.modHlt f).pending = s.pending := rfl
@[simp] theorem State.modHlt_get (s : State) (f : Health → Health) (g : Field) : (s.modHlt f).get g = s.get g := rfl
@[simp] theorem State.modHlt_flag (s : State) (f : Health → Health) (g : Field) : (s.modHlt f).flag g = s.flag g := rfl

/-! `State.modSup` writes `sup` alone. -/

@[simp] theorem State.modSup_regs (s : State) (f : Supply → Supply) : (s.modSup f).regs = s.regs := rfl
@[simp] theorem State.modSup_mem (s : State) (f : Supply → Supply) : (s.modSup f).mem = s.mem := rfl
@[simp] theorem State.modSup_bus (s : State) (f : Supply → Supply) : (s.modSup f).bus = s.bus := rfl
@[simp] theorem State.modSup_keep (s : State) (f : Supply → Supply) : (s.modSup f).keep = s.keep := rfl
@[simp] theorem State.modSup_qbc (s : State) (f : Supply → Supply) : (s.modSup f).qbc = s.qbc := rfl
@[simp] theorem State.modSup_tbu (s : State) (f : Supply → Supply) : (s.modSup f).tbu = s.tbu := rfl
@[simp] theorem State.modSup_mac (s : State) (f : Supply → Supply) : (s.modSup f).mac = s.mac := rfl
@[simp] theorem State.modSup_pairs (s : State) (f : Supply → Supply) : (s.modSup f).pairs = s.pairs := rfl
@[simp] theorem State.modSup_wvl (s : State) (f : Supply → Supply) : (s.modSup f).wvl = s.wvl := rfl
@[simp] theorem State.modSup_ing (s : State) (f : Supply → Supply) : (s.modSup f).ing = s.ing := rfl
@[simp] theorem State.modSup_lat (s : State) (f : Supply → Supply) : (s.modSup f).lat = s.lat := rfl
@[simp] theorem State.modSup_phe (s : State) (f : Supply → Supply) : (s.modSup f).phe = s.phe := rfl
@[simp] theorem State.modSup_gcm (s : State) (f : Supply → Supply) : (s.modSup f).gcm = s.gcm := rfl
@[simp] theorem State.modSup_slp (s : State) (f : Supply → Supply) : (s.modSup f).slp = s.slp := rfl
@[simp] theorem State.modSup_pub (s : State) (f : Supply → Supply) : (s.modSup f).pub = s.pub := rfl
@[simp] theorem State.modSup_dre (s : State) (f : Supply → Supply) : (s.modSup f).dre = s.dre := rfl
@[simp] theorem State.modSup_slt (s : State) (f : Supply → Supply) : (s.modSup f).slt = s.slt := rfl
@[simp] theorem State.modSup_prc (s : State) (f : Supply → Supply) : (s.modSup f).prc = s.prc := rfl
@[simp] theorem State.modSup_psc (s : State) (f : Supply → Supply) : (s.modSup f).psc = s.psc := rfl
@[simp] theorem State.modSup_dom (s : State) (f : Supply → Supply) : (s.modSup f).dom = s.dom := rfl
@[simp] theorem State.modSup_tmc (s : State) (f : Supply → Supply) : (s.modSup f).tmc = s.tmc := rfl
@[simp] theorem State.modSup_hlt (s : State) (f : Supply → Supply) : (s.modSup f).hlt = s.hlt := rfl
@[simp] theorem State.modSup_cmds (s : State) (f : Supply → Supply) : (s.modSup f).cmds = s.cmds := rfl
@[simp] theorem State.modSup_free (s : State) (f : Supply → Supply) : (s.modSup f).free = s.free := rfl
@[simp] theorem State.modSup_pending (s : State) (f : Supply → Supply) : (s.modSup f).pending = s.pending := rfl
@[simp] theorem State.modSup_get (s : State) (f : Supply → Supply) (g : Field) : (s.modSup f).get g = s.get g := rfl
@[simp] theorem State.modSup_flag (s : State) (f : Supply → Supply) (g : Field) : (s.modSup f).flag g = s.flag g := rfl

/-! `State.setSltEnt` writes `slt` alone. -/

@[simp] theorem State.setSltEnt_regs (s : State) (t i : Nat) (ws : List Nat) : (s.setSltEnt t i ws).regs = s.regs := rfl
@[simp] theorem State.setSltEnt_mem (s : State) (t i : Nat) (ws : List Nat) : (s.setSltEnt t i ws).mem = s.mem := rfl
@[simp] theorem State.setSltEnt_bus (s : State) (t i : Nat) (ws : List Nat) : (s.setSltEnt t i ws).bus = s.bus := rfl
@[simp] theorem State.setSltEnt_sup (s : State) (t i : Nat) (ws : List Nat) : (s.setSltEnt t i ws).sup = s.sup := rfl
@[simp] theorem State.setSltEnt_keep (s : State) (t i : Nat) (ws : List Nat) : (s.setSltEnt t i ws).keep = s.keep := rfl
@[simp] theorem State.setSltEnt_qbc (s : State) (t i : Nat) (ws : List Nat) : (s.setSltEnt t i ws).qbc = s.qbc := rfl
@[simp] theorem State.setSltEnt_tbu (s : State) (t i : Nat) (ws : List Nat) : (s.setSltEnt t i ws).tbu = s.tbu := rfl
@[simp] theorem State.setSltEnt_mac (s : State) (t i : Nat) (ws : List Nat) : (s.setSltEnt t i ws).mac = s.mac := rfl
@[simp] theorem State.setSltEnt_pairs (s : State) (t i : Nat) (ws : List Nat) : (s.setSltEnt t i ws).pairs = s.pairs := rfl
@[simp] theorem State.setSltEnt_wvl (s : State) (t i : Nat) (ws : List Nat) : (s.setSltEnt t i ws).wvl = s.wvl := rfl
@[simp] theorem State.setSltEnt_ing (s : State) (t i : Nat) (ws : List Nat) : (s.setSltEnt t i ws).ing = s.ing := rfl
@[simp] theorem State.setSltEnt_lat (s : State) (t i : Nat) (ws : List Nat) : (s.setSltEnt t i ws).lat = s.lat := rfl
@[simp] theorem State.setSltEnt_phe (s : State) (t i : Nat) (ws : List Nat) : (s.setSltEnt t i ws).phe = s.phe := rfl
@[simp] theorem State.setSltEnt_gcm (s : State) (t i : Nat) (ws : List Nat) : (s.setSltEnt t i ws).gcm = s.gcm := rfl
@[simp] theorem State.setSltEnt_slp (s : State) (t i : Nat) (ws : List Nat) : (s.setSltEnt t i ws).slp = s.slp := rfl
@[simp] theorem State.setSltEnt_pub (s : State) (t i : Nat) (ws : List Nat) : (s.setSltEnt t i ws).pub = s.pub := rfl
@[simp] theorem State.setSltEnt_dre (s : State) (t i : Nat) (ws : List Nat) : (s.setSltEnt t i ws).dre = s.dre := rfl
@[simp] theorem State.setSltEnt_prc (s : State) (t i : Nat) (ws : List Nat) : (s.setSltEnt t i ws).prc = s.prc := rfl
@[simp] theorem State.setSltEnt_psc (s : State) (t i : Nat) (ws : List Nat) : (s.setSltEnt t i ws).psc = s.psc := rfl
@[simp] theorem State.setSltEnt_dom (s : State) (t i : Nat) (ws : List Nat) : (s.setSltEnt t i ws).dom = s.dom := rfl
@[simp] theorem State.setSltEnt_tmc (s : State) (t i : Nat) (ws : List Nat) : (s.setSltEnt t i ws).tmc = s.tmc := rfl
@[simp] theorem State.setSltEnt_hlt (s : State) (t i : Nat) (ws : List Nat) : (s.setSltEnt t i ws).hlt = s.hlt := rfl
@[simp] theorem State.setSltEnt_cmds (s : State) (t i : Nat) (ws : List Nat) : (s.setSltEnt t i ws).cmds = s.cmds := rfl
@[simp] theorem State.setSltEnt_free (s : State) (t i : Nat) (ws : List Nat) : (s.setSltEnt t i ws).free = s.free := rfl
@[simp] theorem State.setSltEnt_pending (s : State) (t i : Nat) (ws : List Nat) : (s.setSltEnt t i ws).pending = s.pending := rfl
@[simp] theorem State.setSltEnt_get (s : State) (t i : Nat) (ws : List Nat) (g : Field) : (s.setSltEnt t i ws).get g = s.get g := rfl
@[simp] theorem State.setSltEnt_flag (s : State) (t i : Nat) (ws : List Nat) (g : Field) : (s.setSltEnt t i ws).flag g = s.flag g := rfl

/-! `State.sendIrq` writes `slt` alone. -/

@[simp] theorem State.sendIrq_regs (s : State) (r : Nat) : (s.sendIrq r).regs = s.regs := rfl
@[simp] theorem State.sendIrq_mem (s : State) (r : Nat) : (s.sendIrq r).mem = s.mem := rfl
@[simp] theorem State.sendIrq_bus (s : State) (r : Nat) : (s.sendIrq r).bus = s.bus := rfl
@[simp] theorem State.sendIrq_sup (s : State) (r : Nat) : (s.sendIrq r).sup = s.sup := rfl
@[simp] theorem State.sendIrq_keep (s : State) (r : Nat) : (s.sendIrq r).keep = s.keep := rfl
@[simp] theorem State.sendIrq_qbc (s : State) (r : Nat) : (s.sendIrq r).qbc = s.qbc := rfl
@[simp] theorem State.sendIrq_tbu (s : State) (r : Nat) : (s.sendIrq r).tbu = s.tbu := rfl
@[simp] theorem State.sendIrq_mac (s : State) (r : Nat) : (s.sendIrq r).mac = s.mac := rfl
@[simp] theorem State.sendIrq_pairs (s : State) (r : Nat) : (s.sendIrq r).pairs = s.pairs := rfl
@[simp] theorem State.sendIrq_wvl (s : State) (r : Nat) : (s.sendIrq r).wvl = s.wvl := rfl
@[simp] theorem State.sendIrq_ing (s : State) (r : Nat) : (s.sendIrq r).ing = s.ing := rfl
@[simp] theorem State.sendIrq_lat (s : State) (r : Nat) : (s.sendIrq r).lat = s.lat := rfl
@[simp] theorem State.sendIrq_phe (s : State) (r : Nat) : (s.sendIrq r).phe = s.phe := rfl
@[simp] theorem State.sendIrq_gcm (s : State) (r : Nat) : (s.sendIrq r).gcm = s.gcm := rfl
@[simp] theorem State.sendIrq_slp (s : State) (r : Nat) : (s.sendIrq r).slp = s.slp := rfl
@[simp] theorem State.sendIrq_pub (s : State) (r : Nat) : (s.sendIrq r).pub = s.pub := rfl
@[simp] theorem State.sendIrq_dre (s : State) (r : Nat) : (s.sendIrq r).dre = s.dre := rfl
@[simp] theorem State.sendIrq_prc (s : State) (r : Nat) : (s.sendIrq r).prc = s.prc := rfl
@[simp] theorem State.sendIrq_psc (s : State) (r : Nat) : (s.sendIrq r).psc = s.psc := rfl
@[simp] theorem State.sendIrq_dom (s : State) (r : Nat) : (s.sendIrq r).dom = s.dom := rfl
@[simp] theorem State.sendIrq_tmc (s : State) (r : Nat) : (s.sendIrq r).tmc = s.tmc := rfl
@[simp] theorem State.sendIrq_hlt (s : State) (r : Nat) : (s.sendIrq r).hlt = s.hlt := rfl
@[simp] theorem State.sendIrq_cmds (s : State) (r : Nat) : (s.sendIrq r).cmds = s.cmds := rfl
@[simp] theorem State.sendIrq_free (s : State) (r : Nat) : (s.sendIrq r).free = s.free := rfl
@[simp] theorem State.sendIrq_pending (s : State) (r : Nat) : (s.sendIrq r).pending = s.pending := rfl
@[simp] theorem State.sendIrq_get (s : State) (r : Nat) (g : Field) : (s.sendIrq r).get g = s.get g := rfl
@[simp] theorem State.sendIrq_flag (s : State) (r : Nat) (g : Field) : (s.sendIrq r).flag g = s.flag g := rfl

/-! `State.extendMs` writes `dom` alone. -/

@[simp] theorem State.extendMs_regs (s : State) (i d : Nat) : (s.extendMs i d).regs = s.regs := rfl
@[simp] theorem State.extendMs_mem (s : State) (i d : Nat) : (s.extendMs i d).mem = s.mem := rfl
@[simp] theorem State.extendMs_bus (s : State) (i d : Nat) : (s.extendMs i d).bus = s.bus := rfl
@[simp] theorem State.extendMs_sup (s : State) (i d : Nat) : (s.extendMs i d).sup = s.sup := rfl
@[simp] theorem State.extendMs_keep (s : State) (i d : Nat) : (s.extendMs i d).keep = s.keep := rfl
@[simp] theorem State.extendMs_qbc (s : State) (i d : Nat) : (s.extendMs i d).qbc = s.qbc := rfl
@[simp] theorem State.extendMs_tbu (s : State) (i d : Nat) : (s.extendMs i d).tbu = s.tbu := rfl
@[simp] theorem State.extendMs_mac (s : State) (i d : Nat) : (s.extendMs i d).mac = s.mac := rfl
@[simp] theorem State.extendMs_pairs (s : State) (i d : Nat) : (s.extendMs i d).pairs = s.pairs := rfl
@[simp] theorem State.extendMs_wvl (s : State) (i d : Nat) : (s.extendMs i d).wvl = s.wvl := rfl
@[simp] theorem State.extendMs_ing (s : State) (i d : Nat) : (s.extendMs i d).ing = s.ing := rfl
@[simp] theorem State.extendMs_lat (s : State) (i d : Nat) : (s.extendMs i d).lat = s.lat := rfl
@[simp] theorem State.extendMs_phe (s : State) (i d : Nat) : (s.extendMs i d).phe = s.phe := rfl
@[simp] theorem State.extendMs_gcm (s : State) (i d : Nat) : (s.extendMs i d).gcm = s.gcm := rfl
@[simp] theorem State.extendMs_slp (s : State) (i d : Nat) : (s.extendMs i d).slp = s.slp := rfl
@[simp] theorem State.extendMs_pub (s : State) (i d : Nat) : (s.extendMs i d).pub = s.pub := rfl
@[simp] theorem State.extendMs_dre (s : State) (i d : Nat) : (s.extendMs i d).dre = s.dre := rfl
@[simp] theorem State.extendMs_slt (s : State) (i d : Nat) : (s.extendMs i d).slt = s.slt := rfl
@[simp] theorem State.extendMs_prc (s : State) (i d : Nat) : (s.extendMs i d).prc = s.prc := rfl
@[simp] theorem State.extendMs_psc (s : State) (i d : Nat) : (s.extendMs i d).psc = s.psc := rfl
@[simp] theorem State.extendMs_tmc (s : State) (i d : Nat) : (s.extendMs i d).tmc = s.tmc := rfl
@[simp] theorem State.extendMs_hlt (s : State) (i d : Nat) : (s.extendMs i d).hlt = s.hlt := rfl
@[simp] theorem State.extendMs_cmds (s : State) (i d : Nat) : (s.extendMs i d).cmds = s.cmds := rfl
@[simp] theorem State.extendMs_free (s : State) (i d : Nat) : (s.extendMs i d).free = s.free := rfl
@[simp] theorem State.extendMs_pending (s : State) (i d : Nat) : (s.extendMs i d).pending = s.pending := rfl
@[simp] theorem State.extendMs_get (s : State) (i d : Nat) (g : Field) : (s.extendMs i d).get g = s.get g := rfl
@[simp] theorem State.extendMs_flag (s : State) (i d : Nat) (g : Field) : (s.extendMs i d).flag g = s.flag g := rfl

end Sys2Proof.Machine
end

