-- ==== Sys2Proof/Laws/Regs.lean ====
section
/-! SUPPORT. Laws of the register fields: what a field reads after a field was written, and the frames of the operations that write
registers. -/
namespace Sys2Proof.Machine

/-- A register field read after it was written. -/
@[simp] theorem State.get_setF_same (s : State) (f : Field) (v : Nat) : (s.setF f v).get f = v % 2 ^ f.width :=
  Tbl.get_set_same (α := Nat) f.reset f.key (v % 2 ^ f.width) s.regs

/-- Another register field read after a write. -/
theorem State.get_setF_ne (s : State) {f g : Field} (v : Nat) (h : g.key ≠ f.key) : (s.setF f v).get g = s.get g := by
  simp only [State.get, State.setF]
  exact Tbl.get_set_ne (α := Nat) _ _ h _ _

theorem State.flag_setF_ne (s : State) {f g : Field} (v : Nat) (h : g.key ≠ f.key) : (s.setF f v).flag g = s.flag g := by
  simp only [State.flag, State.get_setF_ne s v h]

@[simp] theorem State.get_setB_same (s : State) (f : Field) (b : Bool) : (s.setB f b).get f = b2n b % 2 ^ f.width :=
  State.get_setF_same s f _

theorem State.get_setB_ne (s : State) {f g : Field} (b : Bool) (h : g.key ≠ f.key) : (s.setB f b).get g = s.get g :=
  State.get_setF_ne s _ h

theorem State.flag_setB_same (s : State) {f : Field} (b : Bool) (h : 0 < f.width) : (s.setB f b).flag f = b := by
  have h2 : 1 < 2 ^ f.width := Nat.one_lt_two_pow (by omega)
  simp only [State.flag, State.get_setB_same]
  cases b <;> simp [b2n, Nat.mod_eq_of_lt h2]

@[simp] theorem State.get_setI_same (s : State) (f : Field) (v : Int) :
    (s.setI f v).get f = unsigned f.width (satInt f.width v) % 2 ^ f.width := State.get_setF_same s f _

theorem State.get_setI_ne (s : State) {f g : Field} (v : Int) (h : g.key ≠ f.key) : (s.setI f v).get g = s.get g :=
  State.get_setF_ne s _ h

/-- A counter after `n` events saturates at all ones (R13). -/
theorem State.get_bumpBy_same (s : State) (f : Field) (n : Nat) :
    (s.bumpBy f n).get f = min (s.get f + n) (2 ^ f.width - 1) := by
  simp only [State.bumpBy, State.get_setF_same]
  exact Nat.mod_eq_of_lt (lt_of_le_of_lt (Nat.min_le_right _ _) (Nat.sub_lt (Nat.two_pow_pos _) Nat.one_pos))

theorem State.get_bump_same (s : State) (f : Field) : (s.bump f).get f = min (s.get f + 1) (2 ^ f.width - 1) :=
  State.get_bumpBy_same s f 1

theorem State.get_bumpBy_ne (s : State) {f g : Field} (n : Nat) (h : g.key ≠ f.key) : (s.bumpBy f n).get g = s.get g :=
  State.get_setF_ne s _ h

theorem State.get_bump_ne (s : State) {f g : Field} (h : g.key ≠ f.key) : (s.bump f).get g = s.get g :=
  State.get_bumpBy_ne s 1 h

/-- What a list of field writes leaves of a field that none of them names. -/
theorem State.get_foldl_setF_ne (fs : List (Field × Nat)) (s : State) {g : Field} (h : ∀ p ∈ fs, g.key ≠ p.1.key) :
    (fs.foldl (fun (s : State) p => s.setF p.1 p.2) s).get g = s.get g := by
  induction fs generalizing s with
  | nil => rfl
  | cons p t ih =>
    rw [List.foldl_cons, ih _ (fun q hq => h q (List.mem_cons_of_mem _ hq))]
    exact State.get_setF_ne s _ (h p List.mem_cons_self)

/-- A list of field writes leaves everything but the register file. -/
theorem State.foldl_setF_regs (fs : List (Field × Nat)) (s : State) :
    fs.foldl (fun (s : State) p => s.setF p.1 p.2) s =
      { s with regs := (fs.foldl (fun (s : State) p => s.setF p.1 p.2) s).regs } := by
  induction fs generalizing s with
  | nil => rfl
  | cons p t ih => rw [List.foldl_cons]; exact ih (s.setF p.1 p.2)

end Sys2Proof.Machine
end

