-- ==== Sys2Proof/Laws/Scarab.lean ====
section
/-! SUPPORT. Laws of the Scarab's shared operations: fetching, moving on, and writing an operand. -/
namespace Sys2Proof.Machine

/-- Cycles spent run on in every running class. -/
theorem spend_cls (s : State) (n c : Nat) : (s.spend n).clsOf c = (if (s.clsOf c).running then { s.clsOf c with cycles := (s.clsOf c).cycles + n } else s.clsOf c) := by
  have h := Tbl.get_map ({} : ClassSt) (fun x => if x.running then { x with cycles := x.cycles + n } else x) (by simp) c s.slp.cls
  refine Eq.trans ?_ h
  unfold State.clsOf State.spend
  dsimp only
  congr 1; apply List.map_congr_left; intro p _; split <;> rfl

/-- A class read after a class was changed. -/
theorem modCls_cls (s : State) (c j : Nat) (f) : (s.modCls c f).clsOf j = if j = c then f (s.clsOf c) else s.clsOf j := by
  simp only [State.modCls, State.clsOf, Tbl.mod, Tbl.get_set]

/-- The step to the next word leaves the class advanced by it. -/
theorem scNext_adv (s : State) (c : Nat) (v : Bool) (n : Nat) (hr : (s.clsOf c).running = true) (he : (s.clsOf c).ended = false) :
   Advances s (s.scNext c v n) c v (s.clsOf c).stack := by
  simp [Advances, State.scNext, spend_cls, modCls_cls, hr, he]

/-- A fetched word runs its instruction on its class and slot. -/
theorem scRun_fetch {s : State} {c k w : Nat} (h : Fetches s c k w) (act) : s.scRun w act = act c k (s.clsOf c) s := by
  obtain ⟨h1, h2, h3, h4, h5, h6, h7⟩ := h
  simp only [State.scRun, h1]
  cases hs : (s.clsOf c).slots with
  | nil => simp [hs] at h2
  | cons a l => simp [hs] at h2; subst h2; simp only [h3, h4, h5, h7]; simp_all

theorem scRead1_fetch {s : State} {c k op ix : Nat} {sp} (h : Fetches s c k (scWord op (rdCode sp) ix)) (f) :
  s.scRead1 op sp ix f = .next (s.scNext c (f (s.clsOf c) (s.scRead c k sp ix)) 1) := scRun_fetch h _

theorem scPush_fetch {s : State} {c k op ix : Nat} {sp} (h : Fetches s c k (scWord op (rdCode sp) ix)) (o f) :
  s.scPush op sp ix o f = if 32 ≤ (s.clsOf c).stack.length then .fault .scarabStack
    else .next ((s.modCls c (fun y => { y with stack := ((s.clsOf c).acc, o) :: y.stack })).scNext c (f (s.scRead c k sp ix)) 1) := scRun_fetch h _

theorem scStore_fetch {s : State} {c k op ix : Nat} {sp} (h : Fetches s c k (scWord op (wrCode sp) ix)) (f) :
  s.scStore op sp ix f = .next ((match f (s.clsOf c).acc with | some v => s.scWrite c sp ix v | none => s).scNext c (s.clsOf c).acc 1) := scRun_fetch h _

theorem scEdge_fetch {s : State} {c k op ix : Nat} (h : Fetches s c k (scWord op 5 ix)) (f) :
  s.scEdge op ix f = .next ((s.opPut c ix (.e ⟨(s.clsOf c).acc, false⟩)).scNext c (!(Tbl.get ({} : Edge) ix s.slp.e).primed && f (s.clsOf c).acc (Tbl.get ({} : Edge) ix s.slp.e).b) 2) := scRun_fetch h _

theorem opPut_q (s : State) (c ix : Nat) (v : OpVal) : (s.opPut c ix v).slp.q = ((s.slp.put ix v).q) := by
  unfold State.opPut; cases v <;> simp only [State.modCls] <;> split <;> rfl

theorem opPut_m (s : State) (c ix : Nat) (v : OpVal) : (s.opPut c ix v).slp.m = ((s.slp.put ix v).m) := by
  unfold State.opPut; cases v <;> simp only [State.modCls] <;> split <;> rfl

theorem opPut_e (s : State) (c ix : Nat) (v : OpVal) : (s.opPut c ix v).slp.e = ((s.slp.put ix v).e) := by
  unfold State.opPut; cases v <;> simp only [State.modCls] <;> split <;> rfl

theorem opPut_t (s : State) (c ix : Nat) (v : OpVal) : (s.opPut c ix v).slp.t = ((s.slp.put ix v).t) := by
  unfold State.opPut; cases v <;> simp only [State.modCls] <;> split <;> rfl

theorem opPut_c (s : State) (c ix : Nat) (v : OpVal) : (s.opPut c ix v).slp.c = ((s.slp.put ix v).c) := by
  unfold State.opPut; cases v <;> simp only [State.modCls] <;> split <;> rfl

theorem opPut_regs (s : State) (c ix : Nat) (v : OpVal) : (s.opPut c ix v).regs = s.regs := by
  unfold State.opPut; cases v <;> rfl

theorem opPut_mem (s : State) (c ix : Nat) (v : OpVal) : (s.opPut c ix v).mem = s.mem := by
  unfold State.opPut; cases v <;> rfl

theorem opPut_cls (s : State) (c ix : Nat) (v : OpVal) (j : Nat) : ∃ wr, (s.opPut c ix v).clsOf j = { s.clsOf j with written := wr } := by
  unfold State.opPut; cases v <;> simp only [modCls_cls]
  case q b => 
    by_cases h : j = c
    · subst h; simp only [if_true]; split <;> exact ⟨_, rfl⟩
    · simp only [h, if_false]; split <;> exact ⟨_, rfl⟩
  all_goals (split <;> exact ⟨_, rfl⟩)

theorem opPut_adv {s : State} (c ix : Nat) (v : OpVal) (a : Bool) (n : Nat) (hr : (s.clsOf c).running = true) (he : (s.clsOf c).ended = false) :
   Advances s ((s.opPut c ix v).scNext c a n) c a (s.clsOf c).stack := by
  obtain ⟨wr, hw⟩ := opPut_cls s c ix v c
  have := scNext_adv (s.opPut c ix v) c a n (by rw [hw]; exact hr) (by rw [hw]; exact he)
  simp only [Advances, hw] at *; exact this

end Sys2Proof.Machine
end

