-- ==== Sys2Proof/Tests/Slice0.lean ====
section
/-! SUPPORT. Small tests of the model: the checks of well-formed commands, and for every statement with hypotheses commands and
states that meet them. Such a test takes the statement as its hypothesis and applies it to a concrete command and state, so that the
statement says that command answers a next state there. -/
namespace Sys2Proof.Tests

open Sys2Proof Sys2Proof.Machine
set_option Elab.async false

/-! ## Well-formed commands: for every check a term that it refuses -/

/-- Every command of a list is refused as ill formed. -/
def ill (l : List Instr) : Bool := l.all (fun i => !i.wellFormed)

def gs : SupplySample := ⟨12000, 24000, 24000, 3300, 7, false, false⟩
def gsync : PtpSync := ⟨10, 0, 1, 1, true, 0, 0, 0, 0⟩
def gann : PtpAnnounce := ⟨10, 0, 1, 2, 128, 128, 6, 0x21, 100, 0, 37, true⟩
def gpd : PtpPdelay := ⟨10, 0, 1, true, 0, 0, 0⟩
def gfr : Frame := ⟨1, 2, some ⟨7, false, 4095⟩, false, 0x88B8, 64, some ⟨false, 1, 10⟩, .plain, []⟩
def grx : RxEvent := ⟨10, gfr, false, false, 0, 0, 5, false⟩
def ghdr : PairHdr := ⟨1, 1, 1, 0, 1, 8⟩
def grec : PubSyncRec := ⟨1, 0, 1, 1, 0⟩
def gisl : IslandInputs := ⟨[0, 0, 0, 0], [0, 0, 0, 0], [15, 15, 15, 15], [0, 0, 0, 0]⟩
def gbuf : BufRef := ⟨true, 0, 64⟩
def gbun : BundleContent := ⟨[], [2 ^ 776 - 1], some (2 ^ 32 - 1), 2 ^ 128 - 1, some 65535⟩
def gtls : TlsOffer := ⟨false, 2 ^ 32 - 1, 65535, false, false, false, false, true, true, true, 0, true, []⟩
def gblob : SealedKeys := ⟨[], []⟩
def gpar : SliceParams := ⟨1, [1], 7, [], 1, 1, 1, 3, 1⟩
def gprog : ProgramImage := ⟨0, [], [], [], [], 0⟩
def gq : Req := ⟨131, 0xFFFE, some (0, 64)⟩

theorem test_wf_accepts_bounds : ([.registerWrite (.core 23 true) (2 ^ 40 - 1) 8 (2 ^ 64 - 1), .clearingRead .engine 0 1,
    .coreRequest ⟨23, false, 2 ^ 64 - 1, 3, .store (2 ^ 24 - 1)⟩, .powerUp true gs, .ptpSyncRx gsync, .ptpAnnounceRx gann,
    .ptpPdelayRespRx gpd, .macRxFrame grx, .handoverRx ghdr [grec], .digestRx ghdr [⟨15, 0, 0⟩], .islandCycle gisl,
    .bundleStage gq gbuf gbun, .sliceCreate gq gpar, .scLd .f (2 ^ 22 - 1), .scJmp (2 ^ 22 - 1), .faultBitReassert 7,
    .hsrEntryExpiry 3 0 65535, .wvlRuleCountWrite .tmc 15 0, .tagResult 4095 true, .timedCycleStart 15, .gooseRetransmit 575,
    .txDescriptorFetch 1023, .fWrite .tmc 127 63 0, .quiesceLimit 127, .keyExpire 8191, .tlsIdleTimeout 131,
    .longCommandCompletion ⟨15, true⟩, .tlsConnect gtls, .telemetrySample [0, 0, 0, 0, 0, 0, 0, 0, 0, 0],
    .measurementComplete (List.replicate 96 0) (List.replicate 96 700) (List.replicate 96 25)] : List Instr).all Instr.wellFormed = true := by decide +kernel

theorem test_wf_registers : ill [.registerWrite (.core 24 true) 0 8 0, .registerWrite .tmc (2 ^ 40) 8 0, .registerWrite .tmc 0 3 0,
    .registerWrite .tmc 0 1 256, .clearingRead (.core 24 true) 0 8, .clearingRead .tmc (2 ^ 40) 8, .clearingRead .tmc 0 16,
    .coreRequest ⟨24, false, 0, 8, .load⟩, .coreRequest ⟨0, false, 2 ^ 64, 8, .load⟩, .coreRequest ⟨0, false, 0, 0, .load⟩,
    .coreRequest ⟨0, false, 0, 1, .store 256⟩, .coreRequest ⟨0, false, 0, 1, .atomic .swap 256⟩] = true := by decide

theorem test_wf_supplies : ill [.powerUp true { gs with vbus := 65536 }, .powerUp true { gs with feedA := 65536 },
    .powerUp true { gs with feedB := 65536 }, .powerUp true { gs with rails := 8 }, .supplyStatusUpdate { gs with vioCar := 65536 }, .rideThroughEntry 65536,
    .returnThreshold 65536, .returnTimerStop 65536, .resetThreshold 65536, .vioCarFault 65536, .faultBitReassert 8,
    .coldReset 256, .qbFrame (2 ^ 288)] = true := by decide +kernel

theorem test_wf_timebase : ill [.tdcCalibrationStart 24 0, .tdcCalibrationStart 0 2, .tdcCalibrationDone 24 0 [],
    .tdcCalibrationDone 0 2 [], .tdcCalibrationDone 0 0 [2 ^ 32], .ptpSyncRx { gsync with port := 11 },
    .ptpSyncRx { gsync with domain := 256 }, .ptpFollowUpRx { gsync with source := 2 ^ 80 }, .ptpFollowUpRx { gsync with seq := 65536 },
    .ptpPdelayReqRx 11 0 0 ⟨0, 0⟩, .ptpPdelayReqRx 0 256 0 ⟨0, 0⟩, .ptpPdelayReqRx 0 0 65536 ⟨0, 0⟩, .ptpPdelayReqRx 0 0 0 ⟨0, 65536⟩,
    .ptpSyncRx { gsync with code := 65536 }, .ptpPdelayRespRx { gpd with code := 65536 }, .ptpPdelayRespRx { gpd with port := 11 },
    .ptpPdelayRespRx { gpd with domain := 256 }, .pdelayRespFollowUpRx { gpd with seq := 65536 }, .ppsInEdge 65536] = true := by decide

theorem test_wf_announce : ill [.ptpAnnounceRx { gann with port := 11 }, .ptpAnnounceRx { gann with domain := 256 },
    .ptpAnnounceRx { gann with source := 2 ^ 80 }, .ptpAnnounceRx { gann with gmId := 2 ^ 64 }, .ptpAnnounceRx { gann with prio1 := 256 },
    .ptpAnnounceRx { gann with prio2 := 256 }, .ptpAnnounceRx { gann with clockClass := 256 },
    .ptpAnnounceRx { gann with accuracy := 256 }, .ptpAnnounceRx { gann with variance := 65536 },
    .ptpAnnounceRx { gann with steps := 65536 }, .ptpAnnounceRx { gann with utcOffset := 65536 }] = true := by decide

theorem test_wf_frames : ill [.macRxFrame { grx with port := 11 }, .macRxFrame { grx with code := 65536 },
    .macRxFrame { grx with frame := { gfr with da := 2 ^ 48 } }, .macRxFrame { grx with frame := { gfr with sa := 2 ^ 48 } },
    .macRxFrame { grx with frame := { gfr with etype := 65536 } }, .macRxFrame { grx with frame := { gfr with len := 65536 } },
    .macRxFrame { grx with frame := { gfr with vlan := some ⟨8, false, 1⟩ } }, .macRxFrame { grx with frame := { gfr with vlan := some ⟨0, false, 4096⟩ } },
    .macRxFrame { grx with frame := { gfr with red := some ⟨false, 65536, 10⟩ } },
    .macRxFrame { grx with frame := { gfr with red := some ⟨false, 1, 16⟩ } }] = true := by decide

theorem test_wf_ports : ill [.rxDescriptorsComplete 11, .linkUp ⟨11, true, 1000, true⟩, .linkUp ⟨0, true, 2 ^ 32, true⟩, .linkDown ⟨11, 0⟩, .linkDown ⟨0, 3⟩, .macTxStart 11, .macTxEnd 11, .pauseEnd 11,
    .pauseWd 11, .pauseIgnoreEnd 11, .pauseRepeat 11, .lpiEntry 11, .lpiWakeEnd 11, .lldpTx 11, .weevilDelayEnd 11 true,
    .weevilDuplicateCopy 11, .weevilLinkDownEnd 11, .hsrEntryExpiry 4 0 0, .hsrEntryExpiry 0 (2 ^ 48) 0, .hsrEntryExpiry 0 0 65536,
    .supervisionTx 4, .wvlArmWrite (.core 24 true) 0, .wvlArmWrite .tmc (2 ^ 32), .wvlRuleCountWrite (.core 24 true) 0 0,
    .wvlRuleCountWrite .tmc 16 0, .wvlRuleCountWrite .tmc 0 (2 ^ 32), .dupEntryExpiry 4 0 0, .dupEntryExpiry 0 (2 ^ 48) 0,
    .dupEntryExpiry 0 0 65536] = true := by decide

theorem test_wf_engines : ill [.gooseTalExpiry 4096, .tagResult 4096 true, .svLoss 4096, .svHealthRestore 4096, .altRestore 4096,
    .provisionalClose 4, .instantDeadline 4, .pheFold 4, .phasorsReady 4 0, .phasorsReady 0 (2 ^ 64), .guardResultsReady 4 0,
    .guardResultsReady 0 (2 ^ 64), .timedCycleStart 16, .perInstantCycleStart 16, .cycleResume 16, .cycleEnd 16] = true := by decide

theorem test_wf_scarab : ill ([.scLd .i, .scLdn .i, .scAnd .i, .scAndn .i, .scOr .i, .scOrn .i, .scXor .i, .scXorn .i,
    .scAndParen .i, .scAndnParen .i, .scOrParen .i, .scOrnParen .i, .scXorParen .i, .scSt .q, .scStn .q, .scSet .q, .scRst .q,
    .scEdgr, .scEdgf, .scTon, .scTof, .scTp, .scTret, .scTrst, .scCtu, .scCtd, .scCrst, .scJmp, .scJmpc, .scJmpcn].map
    (fun (f : Nat → Instr) => f (2 ^ 22))) = true := by decide

theorem test_wf_slices : ill [.gooseRetransmit 576, .pubDescriptorFetch 1024, .txDescriptorFetch 1024,
    .doorbellWrite (.core 24 true) 0 0 0, .doorbellWrite .tmc 128 0 0, .doorbellWrite .tmc 0 64 0, .doorbellWrite .tmc 0 0 (2 ^ 32),
    .fWrite (.core 24 true) 0 0 0, .fWrite .tmc 128 0 0, .fWrite .tmc 0 64 0, .fWrite .tmc 0 0 (2 ^ 64), .ftagWrite 24 true true 0,
    .ftagWrite 0 true true (2 ^ 20), .irqModerationEnd 1024, .quiesceDrained 128, .quiesceLimit 128] = true := by decide

theorem test_wf_pair : ill [.heartbeatRx ⟨3, List.replicate 16 0, true, 0, 0⟩, .heartbeatRx ⟨0, [], true, 0, 0⟩,
    .heartbeatRx ⟨0, List.replicate 16 0, true, 256, 0⟩, .heartbeatRx ⟨0, List.replicate 16 0, true, 0, 2 ^ 32⟩,
    .handoverRx { ghdr with epoch := 2 ^ 32 } [], .handoverRx { ghdr with role := 256 } [], .handoverRx { ghdr with mseq := 2 ^ 32 } [],
    .handoverRx { ghdr with port := 10 } [], .handoverRx { ghdr with part := 65536 } [], .handoverRx { ghdr with parts := 65536 } [],
    .handoverRx ghdr [{ grec with index := 65536 }], .pubSyncRx { ghdr with role := 256 } [], .pubSyncRx ghdr [{ grec with flags := 65536 }],
    .pubSyncRx ghdr [{ grec with stNum := 2 ^ 32 }], .pubSyncRx ghdr [{ grec with sqNum := 2 ^ 32 }],
    .pubSyncRx ghdr [{ grec with content := 2 ^ 64 }], .digestRx { ghdr with role := 256 } [], .digestRx ghdr [⟨16, 0, 0⟩],
    .digestRx ghdr [⟨0, 2 ^ 32, 0⟩], .digestRx ghdr [⟨0, 0, 2 ^ 64⟩], .digestUnpaired 16 0, .digestUnpaired 0 (2 ^ 64),
    .imageReqRx { ghdr with role := 256 } 0, .imageReqRx ghdr 16, .imageRx { ghdr with role := 256 } 0 0 [], .imageRx ghdr 16 0 [],
    .imageRx ghdr 0 (2 ^ 64) [], .partTimeout (2 ^ 32)] = true := by decide +kernel

theorem test_wf_island_and_dome : ill [.islandCycle { gisl with a := [] }, .islandCycle { gisl with b := [] },
    .islandCycle { gisl with a := [65536, 0, 0, 0] }, .islandCycle { gisl with b := [65536, 0, 0, 0] }, .islandCycle { gisl with sfb := [16, 0, 0, 0] }, .islandCycle { gisl with sfb := [0] },
    .islandCycle { gisl with arc := [] }, .arcSelftest 4 0, .arcSelftest 0 (2 ^ 32), .feedbackCheck 4 0, .feedbackCheck 0 2,
    .proofTestStep 4 true, .domeRestart [], .domeRestart [[], [], [], []],
    .domeRestart [[⟨2 ^ 255, none⟩]], .domeRestart [[⟨0, some (2 ^ 255)⟩]], .keyActivate 8192, .keyExpire 8192] = true := by decide

theorem test_wf_transports : ill [.mbxDoorbell (.core 24 true) 0 0, .mbxDoorbell .tmc 128 0, .mbxDoorbell .tmc 0 (2 ^ 32),
    .mbxAck (.core 24 true) 0 0, .mbxAck .tmc 128 0, .mbxAck .tmc 0 (2 ^ 32), .tlsPacket 127 [], .tlsPacket 132 [],
    .tlsIdleTimeout 127, .tlsIdleTimeout 132, .tlsSessionClose 127, .tlsSessionClose 132, .longCommandCompletion ⟨16, false⟩,
    .tlsConnect { gtls with dst := 2 ^ 32 }, .tlsConnect { gtls with v6 := true, dst := 2 ^ 128 }, .tlsConnect { gtls with port := 65536 }] = true := by decide

theorem test_wf_issuers : ill ([.sysHello, .sysJobs, (.sysCancel · 0), (.sysReset · 0), (.xferOpen · 0), (.xferWrite · 0 0 []),
    (.xferRead · 0 0 0), (.xferClose · 0), (.bundleStage · gbuf gbun), (.bundleActivate · 0), .bundleCommit, .bundleDiscard,
    .bundleStatus, (.sliceCreate · gpar), (.sliceRing · 0 0 0), (.sliceBind · 0 true 0), (.sliceStart · 0), (.sliceQuiesce · 0),
    (.sliceReset · 0), (.sliceRemove · 0), (.sliceFault · 0), (.sliceShare · 0 0 0), (.slicePv · 0 true 0), (.sliceStatus · true 0),
    (.streamAdd · [] []), (.streamRemove · 0), (.streamMode · 0 true true), (.streamStatus · true 0), .foreignList, (.foreignClear · 0),
    (.latticeStatus · true 0), (.latticeSpec · 0 true), (.latticeTol · 0 0 0 0), (.phasorStatus · true), (.guardSet · 0 []),
    (.guardEnable · 0 true), (.guardStatus · 0), (.logicStatus · true 0), (.logicRead · []), (.logicMode · 0 0),
    (.logicParam · 0 true []), (.logicForce · 0 0 true), (.logicUnforce · 0 0), (.logicLoad · 0 gbuf gprog), (.logicSwap · 0),
    .logicAbort, (.pubStatus · true 0), (.pubEnable · 0 true), (.pubMode · 0 true true), (.recStatus · true 0), (.recList · 0),
    (.recArm · 0), (.recDisarm · 0), (.recTrigger · 0), (.recRelease · 0 none), (.recExport · 0 gbuf gbuf [])].map
    (fun (f : Req → Instr) => f { gq with sess := 132 })) = true := by decide

theorem test_wf_issuers_more : ill ([(.pairStatus · true), .pairSwitch, .pairFence, .pairRelease, .pairAlone, (.safetyStatus · true),
    (.safetyAck · 0), (.safetyProof · 0), .safetyRestart, (.domStatus · true), .domIdentity, (.keyCreate · 0 0 0), (.keyDestroy · 0),
    (.keyPut · ⟨0, 0⟩ 0 [] gblob true []), (.keyAgree · 0 0 0 []), (.keyInfo · 0), (.anchorSet · 0 0 0 [] 0), (.measExtend · 0 0), .measRead,
    (.attestQuote · [] 0), .attestAkCert, .debugChallenge, (.debugOpen · none true [] 0 0 0 0 true), (.healthStatus · true),
    (.faultClear · 0), .ageingStatus, .ageingMeasure, (.belfryRead · 0 0 0), .flashStatus, (.weevilStatus · true),
    (.weevilRule · 0 0 0 0), (.weevilArm · true)].map (fun (f : Req → Instr) => f { gq with tag := 0xFFFF })) = true := by decide

theorem test_wf_transfers : ill [.sysCancel gq 65536, .sysReset gq 256, .xferOpen gq (2 ^ 32), .xferWrite gq (2 ^ 64) 0 [],
    .xferWrite gq 0 (2 ^ 32) [], .xferRead gq (2 ^ 64) 0 0, .xferRead gq 0 (2 ^ 32) 0, .xferRead gq 0 0 65536,
    .xferClose gq (2 ^ 64), .bundleStage gq { gbuf with addr := 2 ^ 64 } gbun, .bundleStage gq { gbuf with len := 2 ^ 32 } gbun,
    .bundleStage gq gbuf { gbun with toolCas := [2 ^ 776] }, .bundleStage gq gbuf { gbun with ip4 := some (2 ^ 32) },
    .bundleStage gq gbuf { gbun with ip6 := 2 ^ 128 }, .bundleStage gq gbuf { gbun with port := some 65536 }, .bundleActivate gq 256] = true := by decide +kernel

theorem test_wf_slice_commands : ill [.sliceCreate gq { gpar with slice := 2 ^ 32 }, .sliceCreate gq { gpar with pasids := [2 ^ 20] }, .sliceCreate gq { gpar with windows := [(65536, 0)] },
    .sliceCreate gq { gpar with cores := 2 ^ 24 }, .sliceCreate gq { gpar with inflight := 65536 }, .sliceCreate gq { gpar with weight := 256 },
    .sliceCreate gq { gpar with errLimit := 65536 }, .sliceCreate gq { gpar with irqCore := 32 }, .sliceCreate gq { gpar with irqFile := 64 },
    .sliceRing gq (2 ^ 32) 0 0, .sliceRing gq 0 (2 ^ 32) 0, .sliceRing gq 0 0 (2 ^ 64), .sliceBind gq (2 ^ 32) true 0,
    .sliceBind gq 0 true (2 ^ 20), .sliceStart gq (2 ^ 32), .sliceQuiesce gq (2 ^ 32), .sliceReset gq (2 ^ 32), .sliceRemove gq (2 ^ 32),
    .sliceFault gq (2 ^ 32), .sliceShare gq (2 ^ 32) 0 0, .sliceShare gq 0 65536 0, .sliceShare gq 0 0 256,
    .slicePv gq (2 ^ 32) true 0, .slicePv gq 0 true 16, .sliceStatus gq true (2 ^ 32)] = true := by decide

theorem test_wf_stream_commands : ill [.streamAdd gq [2 ^ 64, 0, 0, 0, 0, 0] [], .streamAdd gq [0] [], .streamAdd gq [0, 0, 0, 0, 0, 0] [2 ^ 64], .streamRemove gq (2 ^ 32),
    .streamMode gq (2 ^ 32) true true, .streamStatus gq true (2 ^ 32), .foreignClear gq (2 ^ 32), .latticeStatus gq true (2 ^ 32),
    .latticeSpec gq (2 ^ 32) true, .latticeTol gq (2 ^ 32) 0 0 0, .latticeTol gq 0 65536 0 0, .latticeTol gq 0 0 256 0,
    .latticeTol gq 0 0 0 256, .guardSet gq (2 ^ 32) [0, 0, 0, 0, 0], .guardSet gq 0 [2 ^ 64, 0, 0, 0, 0], .guardSet gq 0 [0], .guardEnable gq (2 ^ 32) true,
    .guardStatus gq (2 ^ 32)] = true := by decide

theorem test_wf_logic_commands : ill [.logicStatus gq true (2 ^ 32), .logicRead gq [(256, 0)], .logicRead gq [(0, 2 ^ 32)],
    .logicMode gq (2 ^ 32) 0, .logicMode gq 0 256, .logicParam gq (2 ^ 32) true [], .logicParam gq 0 true [(2 ^ 32, 0)],
    .logicForce gq 256 0 true, .logicForce gq 0 (2 ^ 32) true, .logicUnforce gq 256 0, .logicUnforce gq 0 (2 ^ 32),
    .logicLoad gq (2 ^ 32) gbuf gprog, .logicLoad gq 0 { gbuf with addr := 2 ^ 64 } gprog,
    .logicLoad gq 0 gbuf { gprog with words := [2 ^ 32] }, .logicLoad gq 0 gbuf { gprog with progId := 2 ^ 32 }, .logicSwap gq (2 ^ 32)] = true := by decide

theorem test_wf_record_commands : ill [.pubStatus gq true (2 ^ 32), .pubEnable gq (2 ^ 32) true, .pubMode gq (2 ^ 32) true true,
    .recStatus gq true (2 ^ 32), .recList gq (2 ^ 32), .recArm gq (2 ^ 32), .recDisarm gq (2 ^ 32), .recTrigger gq (2 ^ 32),
    .recRelease gq (2 ^ 32) none, .recRelease gq 0 (some (2 ^ 32)), .recExport gq 256 gbuf gbuf [],
    .recExport gq 0 { gbuf with addr := 2 ^ 64 } gbuf [], .recExport gq 0 gbuf { gbuf with len := 2 ^ 32 } [], .safetyAck gq (2 ^ 32),
    .safetyProof gq (2 ^ 32)] = true := by decide

theorem test_wf_key_commands : ill [.keyCreate gq (2 ^ 32) 0 0, .keyCreate gq 0 256 0, .keyCreate gq 0 0 (2 ^ 32),
    .keyDestroy gq (2 ^ 32), .keyPut gq ⟨256, 0⟩ 0 [] gblob true [], .keyPut gq ⟨0, (2 ^ 32)⟩ 0 [] gblob true [],
    .keyPut gq ⟨0, 0⟩ (2 ^ 32) [] gblob true [], .keyPut gq ⟨0, 0⟩ 0 [] { gblob with body := [256] } true [],
    .keyPut gq ⟨0, 0⟩ 0 [(2 ^ 32, 0)] gblob true [], .keyPut gq ⟨0, 0⟩ 0 [] gblob true [⟨2 ^ 32, 0, 0, [], 0, 0⟩],
    .keyPut gq ⟨0, 0⟩ 0 [] gblob true [⟨0, 0, 2 ^ 32, [], 0, 0⟩], .keyAgree gq (2 ^ 32) 0 0 [], .keyAgree gq 0 (2 ^ 32) 0 [],
    .keyAgree gq 0 0 (2 ^ 776) [], .keyAgree gq 0 0 0 [256], .keyInfo gq (2 ^ 32), .anchorSet gq (2 ^ 32) 0 0 [] 0,
    .anchorSet gq 0 (2 ^ 776) 0 [] 0, .anchorSet gq 0 0 256 [] 0, .anchorSet gq 0 0 0 [256] 0, .anchorSet gq 0 0 0 [] (2 ^ 768)] =
    true := by decide +kernel

theorem test_wf_attestation : ill [.measExtend gq (2 ^ 32) 0, .measExtend gq 0 (2 ^ 384), .attestQuote gq [] (2 ^ 32),
    .debugOpen gq (some (2 ^ 32)) true [] 0 0 0 0 true, .debugOpen gq none true [256] 0 0 0 0 true,
    .debugOpen gq none true [] (2 ^ 256) 0 0 0 true, .debugOpen gq none true [] 0 (2 ^ 384) 0 0 true,
    .debugOpen gq none true [] 0 0 (2 ^ 768) 0 true, .debugOpen gq none true [] 0 0 0 (2 ^ 32) true] = true := by decide +kernel

theorem test_wf_health_commands : ill [.faultClear gq (2 ^ 32), .belfryRead gq 256 0 0, .belfryRead gq 0 (2 ^ 64) 0,
    .belfryRead gq 0 0 65536, .weevilRule gq (2 ^ 32) 0 0 0, .weevilRule gq 0 (2 ^ 64) 0 0, .weevilRule gq 0 0 (2 ^ 64) 0,
    .weevilRule gq 0 0 0 (2 ^ 32), .scrubPass .dram (2 ^ 40) .clean true, .flashRefresh 65536 0 true, .flashRefresh 0 (2 ^ 32) true,
    .telemetrySample [], .measurementComplete [] (List.replicate 96 0) (List.replicate 96 0), .measurementComplete (List.replicate 96 0) [] (List.replicate 96 0),
    .measurementComplete (List.replicate 96 0) (65536 :: List.replicate 95 0) (List.replicate 96 0), .measurementComplete (List.replicate 96 0) (List.replicate 96 0) [],
    .blfCursorWrite (.core 24 true) 0, .blfCursorWrite .tmc (2 ^ 64), .blfStepNext (.core 24 true) 0, .blfStepNext .tmc (2 ^ 32)] =
    true := by decide

theorem test_wf_block_commands : ill ([(.sctWrite · 32768), (.sctRemove · 32768), (.sctRead · 32768 true), (.sctMapWrite · 32768),
    (.sctMapRead · 32768), (.sctForeignRead · 32768), (.sctForeignClear · 32768), (.sctMode · 32768), (.pheWrite · 16 0), (.pheWrite · 0 8192),
    (.pheRead · 16 0), (.pheRead · 0 8192), (.gcmWrite · 4096), (.gcmParam · 4096), (.gcmRead · 4096), (.gcmEnable · 4096),
    (.gcmState · 4096), (.slpWrite · 16 0), (.slpWrite · 0 262144), (.slpRead · 16 0), (.slpRead · 0 262144), (.slpState · 16 0),
    (.slpState · 0 262144), (.slpOpnd · 16 0), (.slpOpnd · 0 262144), (.pubWrite · 32768), (.pubRead · 32768), (.pubMembWrite · 32768),
    (.pubMembRead · 32768), (.pubCmdEnable · 32768), (.pubCmdMode · 32768), (.pubStat · 32768), (.dreWrite · 16 0), (.dreWrite · 0 16384),
    (.dreRead · 16 0), (.dreRead · 0 16384), (.dreArm · 16384), (.dreDisarm · 16384), (.dreTrigger · 16384), (.dreRelease · 16384),
    (.dreStat · 16384), (.sltWrite · 8 0), (.sltWrite · 0 4096), (.sltRead · 8 0), (.sltRead · 0 4096), (.sltStat · 4096 true)].map
    (fun (f : Master → Instr) => f .tmc)) = true := by decide

theorem test_wf_block_masters : ill ([(.sctWrite · 0), (.sctRemove · 0), (.sctRead · 0 true), (.sctMapWrite · 0), (.sctMapRead · 0),
    (.sctForeignRead · 0), (.sctForeignClear · 0), (.sctMode · 0), (.pheWrite · 0 0), (.pheRead · 0 0), (.gcmWrite · 0), (.gcmParam · 0),
    (.gcmRead · 0), (.gcmEnable · 0), (.gcmState · 0), (.slpWrite · 0 0), (.slpRead · 0 0), (.slpState · 0 0), (.slpOpnd · 0 0),
    (.pubWrite · 0), (.pubRead · 0), (.pubMembWrite · 0), (.pubMembRead · 0), (.pubCmdEnable · 0), (.pubCmdMode · 0), (.pubStat · 0),
    (.dreWrite · 0 0), (.dreRead · 0 0), (.dreArm · 0), (.dreDisarm · 0), (.dreTrigger · 0), (.dreRelease · 0), (.dreStat · 0),
    (.sltWrite · 0 0), (.sltRead · 0 0), (.sltStat · 0 true)].map (fun (f : Master → Instr) => f (.core 24 true))) = true := by decide

/-! ## Statements met -/

/-- A command answers a next state. -/
def Runs (c : Instr) (s : State) : Prop := ∃ t, exec c s = .next t

theorem Runs.of {c : Instr} {s : State} {P : State → Prop} (h : ∃ t, exec c s = .next t ∧ P t) : Runs c s := h.elim fun t h => ⟨t, h.1⟩

theorem Runs.eq {c : Instr} {s t : State} (h : exec c s = .next t) : Runs c s := ⟨t, h⟩

/-- A request from a TLS session. -/
def q0 : Req := ⟨128, 1, none⟩

/-- The shared checks pass where they are computed to. -/
theorem adm {s : State} {q : Req} {op : Nat} {os : Octets} {long tenant : Bool} (hu : s.sup.coresUp = true)
    (hq : s.tmc.taken = []) (hb : q.box = none)
    (h : ((s.taken q).refusal q op long tenant).isNone = true) : Admits s q op os long tenant :=
  ⟨by simp [State.inTurn, hu, hq, hb], Option.isNone_iff_eq_none.mp h⟩

/-- A state with the timebase at a time. -/
def at_ (t : Nat) (s : State) : State := { s with tbu := { s.tbu with t48 := t * 2 ^ 32 } }

/-- Fields of the register file set. -/
def fld (l : List (Field × Nat)) (s : State) : State := l.foldl (fun (s : State) p => s.setF p.1 p.2) s

theorem Runs.ofU {c : Instr} {s : State} {α : Type} {f : α → State} {P : α → Prop} (h : ∃ u, exec c s = .next (f u) ∧ P u) :
    Runs c s := h.elim fun u h => ⟨f u, h.1⟩

/-- A state with the supply changed. -/
def sup (f : Supply → Supply) (s : State) : State := { s with sup := f s.sup }

/-- A message that meets no rule of the Weevil is acted on at once. -/
theorem Runs.thru {c : Instr} {s v t : State} {act : State → State} (k : exec c s = .next v) (w : v = act s) (e : act s = t) : Runs c s :=
  ⟨t, k.trans (by rw [w, e])⟩

/-- With no rule of the Weevil armed a pair message is acted on at once. -/
theorem pairMsg_off (u : State) (p : Nat) (act : State → State) (h : u.wvlOn = false) : u.pairMsg p act = act u := by
  simp [State.pairMsg, State.weevilMsg, State.wvlRule, h]
/-- A Scarab whose class 0 runs slot 1 at a word, with ACC and a branch stack. -/
def sc (w : Nat) (acc : Bool) (st : List (Bool × StackOp)) : State :=
  { State.reset with slp := { State.reset.slp with
    tab := [(1, [4 * 2 ^ 19]), (2 ^ 18 * 5, [w])], cur := some 0
    cls := [(0, { ({} : ClassSt) with running := true, slots := [1], acc := acc, stack := st })] } }
/-- Thirty-two entries. -/
def full32 : List (Bool × StackOp) := List.replicate 32 (true, .and)
theorem fet {s : State} {c k w : Nat} (h : (s.slp.cur == some c && (s.clsOf c).slots.head? == some k && (s.clsOf c).running
    && !(s.clsOf c).ended && decide ((s.clsOf c).pc < (s.progAt k (s.clsOf c).n).2)
    && !s.slp.badWords.contains ((s.progAt k (s.clsOf c).n).1 + (s.clsOf c).pc)
    && s.progWord ((s.progAt k (s.clsOf c).n).1 + (s.clsOf c).pc) == w) = true) : Fetches s c k w := by
  simp only [Bool.and_eq_true, beq_iff_eq, decide_eq_true_eq, Bool.not_eq_true'] at h
  exact ⟨h.1.1.1.1.1.1, h.1.1.1.1.1.2, h.1.1.1.1.2, h.1.1.1.2, h.1.1.2, h.1.2, h.2⟩
theorem test_ld (h : Obligations.LogicInstructionsSetAcc) : Runs (.scLd .i 3) (sc (scWord 1 0 3) true []) :=
  Runs.of (h.1 (sc (scWord 1 0 3) true []) 0 1 3 .i 1 _ _ (.head _) (fet (by decide)))
theorem test_xorn (h : Obligations.LogicInstructionsSetAcc) : Runs (.scXorn .k 0x3FFFFF) (sc (scWord 8 9 0x3FFFFF) true full32) :=
  Runs.of (h.1 (sc (scWord 8 9 0x3FFFFF) true full32) 0 1 0x3FFFFF .k 8 _ _ (.tail _ (.tail _ (.tail _ (.tail _ (.tail _ (.tail _ (.tail _ (.head _)))))))) (fet (by decide)))
theorem test_ldn (h : Obligations.LogicInstructionsSetAcc) : Runs (.scLdn .q 3) (sc (scWord 2 1 3) true []) :=
  Runs.of (h.1 (sc (scWord 2 1 3) true []) 0 1 3 .q 2 _ _ (.tail _ (.head _)) (fet (by decide)))
theorem test_and (h : Obligations.LogicInstructionsSetAcc) : Runs (.scAnd .m 3) (sc (scWord 3 2 3) true []) :=
  Runs.of (h.1 (sc (scWord 3 2 3) true []) 0 1 3 .m 3 _ _ (.tail _ (.tail _ (.head _))) (fet (by decide)))
theorem test_andn (h : Obligations.LogicInstructionsSetAcc) : Runs (.scAndn .t 3) (sc (scWord 4 3 3) true []) :=
  Runs.of (h.1 (sc (scWord 4 3 3) true []) 0 1 3 .t 4 _ _ (.tail _ (.tail _ (.tail _ (.head _)))) (fet (by decide)))
theorem test_or (h : Obligations.LogicInstructionsSetAcc) : Runs (.scOr .c 3) (sc (scWord 5 4 3) true []) :=
  Runs.of (h.1 (sc (scWord 5 4 3) true []) 0 1 3 .c 5 _ _ (.tail _ (.tail _ (.tail _ (.tail _ (.head _))))) (fet (by decide)))
theorem test_orn (h : Obligations.LogicInstructionsSetAcc) : Runs (.scOrn .e 3) (sc (scWord 6 5 3) true []) :=
  Runs.of (h.1 (sc (scWord 6 5 3) true []) 0 1 3 .e 6 _ _ (.tail _ (.tail _ (.tail _ (.tail _ (.tail _ (.head _)))))) (fet (by decide)))
theorem test_xor (h : Obligations.LogicInstructionsSetAcc) : Runs (.scXor .g 3) (sc (scWord 7 6 3) true []) :=
  Runs.of (h.1 (sc (scWord 7 6 3) true []) 0 1 3 .g 7 _ _ (.tail _ (.tail _ (.tail _ (.tail _ (.tail _ (.tail _ (.head _))))))) (fet (by decide)))
theorem test_nop (h : Obligations.LogicInstructionsSetAcc) : Runs (.scNop) (sc (scWord 0 0 0) true []) :=
  Runs.of ((h.2 (sc (scWord 0 0 0) true []) 0 1).1 (fet (by decide)))
theorem test_not (h : Obligations.LogicInstructionsSetAcc) : Runs (.scNot) (sc (scWord 0x0F 0 0) false []) :=
  Runs.of ((h.2 (sc (scWord 0x0F 0 0) false []) 0 1).2 (fet (by decide)))
theorem test_push31 (h : Obligations.BranchInstructionsPushAndPop) : Runs (.scAndParen .q 7) (sc (scWord 9 1 7) true (full32.drop 1)) :=
  Runs.of ((h.1 (sc (scWord 9 1 7) true (full32.drop 1)) 0 1 7 .q 9 _ _ _ (.head _) (fet (by decide))).1 (by decide))
theorem test_pushandn (h : Obligations.BranchInstructionsPushAndPop) : Runs (.scAndnParen .i 7) (sc (scWord 10 0 7) true (full32.drop 1)) :=
  Runs.of ((h.1 (sc (scWord 10 0 7) true (full32.drop 1)) 0 1 7 .i 10 _ _ _ (.tail _ (.head _)) (fet (by decide))).1 (by decide))
theorem test_pushor (h : Obligations.BranchInstructionsPushAndPop) : Runs (.scOrParen .i 7) (sc (scWord 11 0 7) true (full32.drop 1)) :=
  Runs.of ((h.1 (sc (scWord 11 0 7) true (full32.drop 1)) 0 1 7 .i 11 _ _ _ (.tail _ (.tail _ (.head _))) (fet (by decide))).1 (by decide))
theorem test_pushorn (h : Obligations.BranchInstructionsPushAndPop) : Runs (.scOrnParen .i 7) (sc (scWord 12 0 7) true (full32.drop 1)) :=
  Runs.of ((h.1 (sc (scWord 12 0 7) true (full32.drop 1)) 0 1 7 .i 12 _ _ _ (.tail _ (.tail _ (.tail _ (.head _)))) (fet (by decide))).1 (by decide))
theorem test_pushxor (h : Obligations.BranchInstructionsPushAndPop) : Runs (.scXorParen .i 7) (sc (scWord 13 0 7) true (full32.drop 1)) :=
  Runs.of ((h.1 (sc (scWord 13 0 7) true (full32.drop 1)) 0 1 7 .i 13 _ _ _ (.tail _ (.tail _ (.tail _ (.tail _ (.head _))))) (fet (by decide))).1 (by decide))
theorem test_push32 (h : Obligations.BranchInstructionsPushAndPop) : exec (.scXorParen .q 7) (sc (scWord 13 1 7) true full32) = .fault .scarabStack :=
  (h.1 (sc (scWord 13 1 7) true full32) 0 1 7 .q 13 _ _ _ (.tail _ (.tail _ (.tail _ (.tail _ (.head _))))) (fet (by decide))).2 (by decide)
theorem test_pop (h : Obligations.BranchInstructionsPushAndPop) : Runs (.scCloseParen) (sc (scWord 14 0 0) true full32) :=
  Runs.of ((h.2 (sc (scWord 14 0 0) true full32) 0 1 (fet (by decide))).1 _ _ _ rfl)
theorem test_popnone (h : Obligations.BranchInstructionsPushAndPop) : exec .scCloseParen (sc (scWord 14 0 0) true []) = .fault .scarabStack :=
  (h.2 (sc (scWord 14 0 0) true []) 0 1 (fet (by decide))).2 rfl
theorem test_st (h : Obligations.StoreAndEdgeInstructionsWriteTheirBit) : Runs (.scSt .q 0) (sc (scWord 0x10 1 0) true []) :=
  Runs.of (h.1 (sc (scWord 0x10 1 0) true []) 0 1 0 .q 0x10 _ _ (.head _) (fet (by decide)))
theorem test_rst (h : Obligations.StoreAndEdgeInstructionsWriteTheirBit) : Runs (.scRst .m 131071) (sc (scWord 0x13 2 131071) true []) :=
  Runs.of (h.1 (sc (scWord 0x13 2 131071) true []) 0 1 131071 .m 0x13 _ _ (.tail _ (.tail _ (.tail _ (.head _)))) (fet (by decide)))
theorem test_stn (h : Obligations.StoreAndEdgeInstructionsWriteTheirBit) : Runs (.scStn .q 5) (sc (scWord 17 1 5) true []) :=
  Runs.of (h.1 (sc (scWord 17 1 5) true []) 0 1 5 .q 17 _ _ (.tail _ (.head _)) (fet (by decide)))
theorem test_set (h : Obligations.StoreAndEdgeInstructionsWriteTheirBit) : Runs (.scSet .q 5) (sc (scWord 18 1 5) true []) :=
  Runs.of (h.1 (sc (scWord 18 1 5) true []) 0 1 5 .q 18 _ _ (.tail _ (.tail _ (.head _))) (fet (by decide)))
theorem test_edgr (h : Obligations.StoreAndEdgeInstructionsWriteTheirBit) : Runs (.scEdgr 5) (sc (scWord 0x14 5 5) true []) :=
  Runs.of ((h.2 (sc (scWord 0x14 5 5) true []) 0 1 5).1 (fet (by decide)))
theorem test_edgf (h : Obligations.StoreAndEdgeInstructionsWriteTheirBit) : Runs (.scEdgf 5) (sc (scWord 0x15 5 5) true []) :=
  Runs.of ((h.2 (sc (scWord 0x15 5 5) true []) 0 1 5).2.1 (fet (by decide)))
theorem test_ton (h : Obligations.TimersAndCountersFollowStampsAndEdges) : Runs (.scTon 2) (sc (scWord 0x16 3 2) true []) :=
  Runs.of ((h.1 (sc (scWord 0x16 3 2) true []) 0 1 2).1 0x16 _ _ _ _ (.head _) (fet (by decide)))
theorem test_tof (h : Obligations.TimersAndCountersFollowStampsAndEdges) : Runs (.scTof 2) (sc (scWord 0x17 3 2) true []) :=
  Runs.of ((h.1 (sc (scWord 0x17 3 2) true []) 0 1 2).1 0x17 _ _ _ _ (.tail _ (.head _)) (fet (by decide)))
theorem test_tp (h : Obligations.TimersAndCountersFollowStampsAndEdges) : Runs (.scTp 2) (sc (scWord 0x18 3 2) true []) :=
  Runs.of ((h.1 (sc (scWord 0x18 3 2) true []) 0 1 2).1 0x18 _ _ _ _ (.tail _ (.tail _ (.head _))) (fet (by decide)))
theorem test_tret (h : Obligations.TimersAndCountersFollowStampsAndEdges) : Runs (.scTret 2) (sc (scWord 0x19 3 2) false []) :=
  Runs.of ((h.1 (sc (scWord 0x19 3 2) false []) 0 1 2).1 0x19 _ _ _ _ (.tail _ (.tail _ (.tail _ (.head _)))) (fet (by decide)))
theorem test_trst (h : Obligations.TimersAndCountersFollowStampsAndEdges) : Runs (.scTrst 2) (sc (scWord 0x1A 3 2) true []) :=
  Runs.of ((h.1 (sc (scWord 0x1A 3 2) true []) 0 1 2).2 (fet (by decide)))
theorem test_ctu (h : Obligations.TimersAndCountersFollowStampsAndEdges) : Runs (.scCtu 8) (sc (scWord 0x1B 4 8) true []) :=
  Runs.of ((h.2 (sc (scWord 0x1B 4 8) true []) 0 1 8).1 (fet (by decide)))
theorem test_ctd (h : Obligations.TimersAndCountersFollowStampsAndEdges) : Runs (.scCtd 8) (sc (scWord 0x1C 4 8) true []) :=
  Runs.of ((h.2 (sc (scWord 0x1C 4 8) true []) 0 1 8).2.1 (fet (by decide)))
theorem test_crst (h : Obligations.TimersAndCountersFollowStampsAndEdges) : Runs (.scCrst 8) (sc (scWord 0x1D 4 8) true []) :=
  Runs.of ((h.2 (sc (scWord 0x1D 4 8) true []) 0 1 8).2.2 (fet (by decide)))
theorem test_jmp (h : Obligations.JumpsEndsAndBadWordsMoveTheProgramCounter) : Runs (.scJmp 3) (sc (scWord 0x1E 0 3) true []) :=
  Runs.of ((h.1 (sc (scWord 0x1E 0 3) true []) 0 1).1 0x1E 3 _ _ (.head _) (fet (by decide)))
theorem test_jmpcn (h : Obligations.JumpsEndsAndBadWordsMoveTheProgramCounter) : Runs (.scJmpcn 3) (sc (scWord 0x20 0 3) true []) :=
  Runs.of ((h.1 (sc (scWord 0x20 0 3) true []) 0 1).1 0x20 3 _ _ (.tail _ (.tail _ (.head _))) (fet (by decide)))
theorem test_jmpc (h : Obligations.JumpsEndsAndBadWordsMoveTheProgramCounter) : Runs (.scJmpc 3) (sc (scWord 0x1F 0 3) true []) :=
  Runs.of ((h.1 (sc (scWord 0x1F 0 3) true []) 0 1).1 0x1F 3 _ _ (.tail _ (.head _)) (fet (by decide)))
theorem test_end (h : Obligations.JumpsEndsAndBadWordsMoveTheProgramCounter) : Runs (.scEnd) (sc (scWord 0x21 0 0) true []) :=
  Runs.of ((h.1 (sc (scWord 0x21 0 0) true []) 0 1).2 0x21 _ _ (.head _) (fet (by decide)))
theorem test_endc (h : Obligations.JumpsEndsAndBadWordsMoveTheProgramCounter) : Runs (.scEndc) (sc (scWord 0x22 0 0) false []) :=
  Runs.of ((h.1 (sc (scWord 0x22 0 0) false []) 0 1).2 0x22 _ _ (.tail _ (.head _)) (fet (by decide)))
/-- The same with its word bad. -/
def scBad : State := { sc 0 true [] with slp := { (sc 0 true []).slp with badWords := [0] } }
theorem test_bad (h : Obligations.JumpsEndsAndBadWordsMoveTheProgramCounter) : Runs (.scEnd) (scBad) :=
  Runs.of (h.2 scBad 0 1 .scEnd rfl rfl rfl rfl (by decide) (by decide) rfl)
/-- Group B with a timed class 0 of 10 µs, idle or running. -/
def scTimed (run : Bool) : State :=
  let s := fld [(F.SLP_CTL_EN, 1), (F.TMC_START_STATUS_PHASE, 6)] State.reset
  { s with slp := { s.slp with tab := [(2 ^ 18, [2 ^ 63 + 2 ^ 43])], cls := [(0, { ({} : ClassSt) with running := run, lastStart := some 0 })] } }
theorem test_timeddue (h : Obligations.CyclesStartResumeAndEnd) : Runs (.timedCycleStart 0) (scTimed false) :=
  Runs.eq ((h.1 (scTimed false) 0 (by decide) (by decide) (by decide) (by decide) (by decide)).1 rfl rfl)
theorem test_timed (h : Obligations.CyclesStartResumeAndEnd) : Runs (.timedCycleStart 0) (scTimed false) :=
  Runs.of ((h.1 (scTimed false) 0 (by decide) (by decide) (by decide) (by decide) (by decide)).2.2.1 rfl rfl (by decide) (by decide))
/-- The same with class 1 of a higher priority running on the Scarab. -/
def scUnder : State :=
  let s := scTimed false
  { s with slp := { s.slp with cls := s.slp.cls ++ [(1, { ({} : ClassSt) with running := true })], tab := [(2 ^ 18, [2 ^ 63 + 2 ^ 44]), (2 ^ 18 + 1, [2 ^ 63 + 2 ^ 43])], cur := some 1 } }
theorem test_timedwait (h : Obligations.CyclesStartResumeAndEnd) : Runs (.timedCycleStart 0) (scUnder) :=
  Runs.eq ((h.1 scUnder 0 (by decide) (by decide) (by decide) (by decide) (by decide)).2.1 rfl rfl (by decide) (by decide))
theorem test_timedskip (h : Obligations.CyclesStartResumeAndEnd) : Runs (.timedCycleStart 0) (scTimed true) :=
  Runs.of ((h.1 (scTimed true) 0 (by decide) (by decide) (by decide) (by decide) (by decide)).2.2.2 (.inl rfl))
/-- Group B with a per-instant class 15 of lattice 0 and the given instants waiting. -/
def scInst (ns : List Nat) : State :=
  let s := fld [(F.SLP_CTL_EN, 1), (F.TMC_START_STATUS_PHASE, 6)] State.reset
  { s with slp := { s.slp with tab := [(2 ^ 18 + 15, [2 ^ 63 + 2 ^ 62])], gUpd := ns.map (fun n => ⟨0, n, []⟩) } }
theorem test_inst0 (h : Obligations.CyclesStartResumeAndEnd) : Runs (.perInstantCycleStart 15) (scInst []) :=
  Runs.eq ((h.2.1 (scInst []) 15 (by decide) (by decide) (by decide) (by decide) rfl).1 (.inl rfl))
theorem test_inst (h : Obligations.CyclesStartResumeAndEnd) : Runs (.perInstantCycleStart 15) (scInst [4, 7, 5]) :=
  Runs.of ((h.2.1 (scInst [4, 7, 5]) 15 (by decide) (by decide) (by decide) (by decide) rfl).2 7 (by decide) (by decide) (by decide))
/-- A class whose programs have ended. -/
def scEnded : State := { State.reset with slp := { State.reset.slp with cls := [(3, { ({} : ClassSt) with running := true, ended := true })], cur := some 3 } }
theorem test_resume (h : Obligations.CyclesStartResumeAndEnd) : Runs (.cycleResume 0) ({ sc 0 true [] with slp := { (sc 0 true []).slp with cur := none } }) :=
  Runs.eq (h.2.2.1 ({ sc 0 true [] with slp := { (sc 0 true []).slp with cur := none } }) 0 rfl (by decide))
theorem test_cend (h : Obligations.CyclesStartResumeAndEnd) : Runs (.cycleEnd 3) (scEnded) :=
  Runs.of (h.2.2.2 scEnded 3 rfl rfl rfl (by decide))
/-- Supplies with rails up and MOD_PWROK high in Normal, out of the cold reset. -/
def on : State := sup (fun x => { x with coresUp := true, started := 3, rails := 3, railsOk := 7, strapped := true, mode := .normal, pwrok := true, inCold := false, vbus := 12000, feedA := 12000, feedB := 12000, vioCar := 3300 }) State.reset
/-- The same in ride-through, its return timer ending at `e`. -/
def ride (e : Nat) : State := sup (fun x => { x with mode := .rideThrough, rideEnd := e, rideDue := ms 250 }) on
/-- A supply smp0le. -/
def smp0 : SupplySample := ⟨12340, 8500, 8499, 3300, 7, true, false⟩
theorem test_up (h : Obligations.RailsComeUpInOrder) : Runs (.powerUp false ⟨8851, 0, 9000, 3300, 0, false, false⟩) (State.reset) :=
  Runs.of ((h.1 (State.reset)).1 false ⟨8851, 0, 9000, 3300, 0, false, false⟩ (by decide) (by decide) (by decide) (by decide) (by decide))
theorem test_upA (h : Obligations.RailsComeUpInOrder) : Runs (.powerUp true ⟨8851, 9000, 0, 3300, 0, false, false⟩) (State.reset) :=
  Runs.of ((h.1 (State.reset)).1 true ⟨8851, 9000, 0, 3300, 0, false, false⟩ (by decide) (by decide) (by decide) (by decide) (by decide))
theorem test_rail0 (h : Obligations.RailsComeUpInOrder) : Runs (.railInRegulation .vcore) (sup (fun x => { x with started := 1 }) State.reset) :=
  Runs.eq ((h.1 (sup (fun x => { x with started := 1 }) State.reset)).2.1 .vcore (by decide) (by decide) (by decide) rfl)
theorem test_rail2 (h : Obligations.RailsComeUpInOrder) : Runs (.railInRegulation .vana) (sup (fun x => { x with started := 3, rails := 2 }) State.reset) :=
  Runs.of ((h.1 (sup (fun x => { x with started := 3, rails := 2 }) State.reset)).2.2.1 (by decide) (by decide) (by decide) rfl)
theorem test_raild (h : Obligations.RailsComeUpInOrder) : Runs (.railInRegulation .vana) (sup (fun x => { x with started := 3, rails := 2, downAt := some (ms 2) }) State.reset) :=
  Runs.eq ((h.1 (sup (fun x => { x with started := 3, rails := 2, downAt := some (ms 2) }) State.reset)).2.2.2.1 .vana (ms 2) (by decide) (by decide) rfl)
theorem test_down (h : Obligations.RailsComeUpInOrder) : Runs (.railTakedown) (sup (fun x => { x with started := 3, rails := 3, downAt := some (ms 2) }) State.reset) :=
  Runs.eq (((h.1 (sup (fun x => { x with started := 3, rails := 3, downAt := some (ms 2) }) State.reset)).2.2.2.2 (ms 2) (by decide) (by decide) rfl).1 (by decide))
theorem test_down2 (h : Obligations.RailsComeUpInOrder) : Runs (.railTakedown) (sup (fun x => { x with started := 3, rails := 3, vbus := 6000, downAt := some (ms 2) }) State.reset) :=
  Runs.eq (((h.1 (sup (fun x => { x with started := 3, rails := 3, vbus := 6000, downAt := some (ms 2) }) State.reset)).2.2.2.2 (ms 2) (by decide) (by decide) rfl).2 (by decide))
theorem test_entry (h : Obligations.RideThroughFollowsItsThresholds) : Runs (.rideThroughEntry 8500) (on) :=
  Runs.of ((h (on) 8500).1 (by decide) (by decide) (by decide))
theorem test_entry69 (h : Obligations.RideThroughFollowsItsThresholds) : Runs (.rideThroughEntry 6900) (on) :=
  Runs.of ((h (on) 6900).1 (by decide) (by decide) (by decide))
theorem test_ret (h : Obligations.RideThroughFollowsItsThresholds) : Runs (.returnThreshold 8851) (ride 0) :=
  Runs.of (((h (ride 0) 8851).2.1 (by decide) (by decide) (by decide)).1 (by decide))
theorem test_retq (h : Obligations.RideThroughFollowsItsThresholds) : Runs (.returnThreshold 8851) (ride 0) :=
  Runs.eq (((h (ride 0) 8851).2.1 (by decide) (by decide) (by decide)).2)
theorem test_stop (h : Obligations.RideThroughFollowsItsThresholds) : Runs (.returnTimerStop 8949) (ride 7) :=
  Runs.of (((h (ride 7) 8949).2.2.1 (by decide) (by decide) (by decide)).1 (by decide))
theorem test_stop2 (h : Obligations.RideThroughFollowsItsThresholds) : exec (.returnTimerStop 8949) (at_ (ms 250) (ride 7)) = exec .brownout (({ at_ (ms 250) (ride 7) with sup := { (at_ (ms 250) (ride 7)).sup with rideEnd := 0 } }.vbusAt 8949).showRide F.PHM_SUPPLY_STATUS_RETURN_PENDING 0) :=
  ((h (at_ (ms 250) (ride 7)) 8949).2.2.1 (by decide) (by decide) (by decide)).2 (by decide)
theorem test_expiry (h : Obligations.RideThroughFollowsItsThresholds) : Runs (.returnTimerExpiry) (ride 7) :=
  Runs.of ((h (ride 7) 0).2.2.2.1 (by decide) (by decide))
theorem test_brown (h : Obligations.RideThroughFollowsItsThresholds) : Runs (.brownout) (ride 0) :=
  Runs.of ((h (ride 0) 0).2.2.2.2.1 (by decide) (by decide))
theorem test_reset (h : Obligations.RideThroughFollowsItsThresholds) : Runs (.resetThreshold 6999) (on) :=
  Runs.of ((h (on) 6999).2.2.2.2.2 (by decide) (by decide))
theorem test_feed (h : Obligations.FaultEventsSetTheirBits) : Runs (.feedLost true) (sup (fun x => { x with feedB := 0 }) on) :=
  Runs.eq ((h.2.2 (sup (fun x => { x with feedB := 0 }) on)).1 true (by decide))
theorem test_therm (h : Obligations.FaultEventsSetTheirBits) : Runs (.therm) (on) :=
  Runs.eq ((h.2.2 (on)).2.1)
theorem test_rlock (h : Obligations.FaultEventsSetTheirBits) : Runs (.rootLock) (on) :=
  Runs.eq ((h.2.2 (on)).2.2.1)
theorem test_rratio (h : Obligations.FaultEventsSetTheirBits) : Runs (.rootRatio) (on) :=
  Runs.eq ((h.2.2 (on)).2.2.2.1)
theorem test_rfault (h : Obligations.FaultEventsSetTheirBits) : Runs (.railFault .vana) (on) :=
  Runs.eq ((h.2.2 (on)).2.2.2.2.1 .vana (by decide) (by decide))
theorem test_vio (h : Obligations.FaultEventsSetTheirBits) : Runs (.vioCarFault 100) (sup (fun x => { x with vioEver := true, released := true, vioDriven := true }) on) :=
  Runs.eq ((h.2.2 (sup (fun x => { x with vioEver := true, released := true, vioDriven := true }) on)).2.2.2.2.2.1 100 (by decide) (by decide))
theorem test_reassert (h : Obligations.FaultEventsSetTheirBits) : Runs (.faultBitReassert 7) (sup (fun x => { x with dieHot := true }) on) :=
  Runs.eq ((h.2.2 (sup (fun x => { x with dieHot := true }) on)).2.2.2.2.2.2 7 (by decide) (by decide) (by decide))
theorem test_faultset (h : Obligations.FaultEventsSetTheirBits) : (on.setFault 7).flag (faultField 7) = true :=
  h.1 on 7 (by decide)
theorem test_faultpin (h : Obligations.FaultEventsSetTheirBits) : (on.setFault 0).pin .faultN = .low :=
  h.2.1 (on.setFault 0) 0 (by decide) (by decide) (by decide)
theorem test_car (h : Obligations.ColdResetsKeepOnlyMramAndFlash) : Runs (.carRst) (on) :=
  Runs.of (h.2 (on) .carRst 7 (.head _) (by decide))
theorem test_vkeep (h : Obligations.ColdResetsKeepOnlyMramAndFlash) : Runs (.vkeepLow) (on) :=
  Runs.of (h.2 (on) .vkeepLow 0x0A (.tail _ (.head _)) (by decide))
theorem test_disarmed (h : Obligations.ColdResetsKeepOnlyMramAndFlash) : on.disarm = on :=
  h.1 on (by decide) (by decide)
theorem test_carrel (h : Obligations.ResetsProceedByCause) : Runs (.carRstNRelease) (on) :=
  Runs.eq ((h (on)).1)
theorem test_rootresp (h : Obligations.ResetsProceedByCause) : Runs (.rootFaultResponse) (sup (fun x => { x with rootPending := 5 }) on) :=
  Runs.eq ((h (sup (fun x => { x with rootPending := 5 }) on)).2.1 (by decide))
theorem test_keepres (h : Obligations.ResetsProceedByCause) : Runs (.keepReset) (sup (fun x => { x with vkeepLow := true, rails := 2 }) on) :=
  Runs.of ((h (sup (fun x => { x with vkeepLow := true, rails := 2 }) on)).2.2.1 (by decide) (by decide))
theorem test_cold2 (h : Obligations.ResetsProceedByCause) : Runs (.coldReset 3) (on) :=
  Runs.eq ((h (on)).2.2.2.1 3 (.tail _ (.head _)) (by decide))
theorem test_cold4 (h : Obligations.ResetsProceedByCause) : Runs (.coldReset 4) (on) :=
  Runs.eq ((h (on)).2.2.2.2.1 4 (.head _) (by decide))
theorem test_cold8 (h : Obligations.ResetsProceedByCause) : Runs (.coldReset 9) ({ on with tmc := { on.tmc with resetDue := [(0, 4), (9, 5)] } }) :=
  Runs.eq ((h ({ on with tmc := { on.tmc with resetDue := [(0, 4), (9, 5)] } })).2.2.2.2.2.1 9 5 (.tail _ (.head _)) (by decide))
theorem test_warmno (h : Obligations.ResetsProceedByCause) : Runs (.warmReset) ({ on with tmc := { on.tmc with resetDue := [(0, 5)] } }) :=
  Runs.eq ((h ({ on with tmc := { on.tmc with resetDue := [(0, 5)] } })).2.2.2.2.2.2.1 5 (by decide) (.inr ⟨by decide, by decide⟩))
theorem test_warm (h : Obligations.ResetsProceedByCause) : Runs (.warmReset) ({ fld [(F.TMC_START_STATUS_PHASE, 6)] on with tmc := { on.tmc with resetDue := [(0, 5)] } }) :=
  Runs.ofU ((h ({ fld [(F.TMC_START_STATUS_PHASE, 6)] on with tmc := { on.tmc with resetDue := [(0, 5)] } })).2.2.2.2.2.2.2 5 (by decide) (by decide) (.inr (by decide)))
theorem test_status (h : Obligations.RailsComeUpInOrder) : Runs (.supplyStatusUpdate smp0) (on) :=
  Runs.ofU ((h.2 (on) smp0).2 (by decide))
/-- PREPARE with the Dome READY. -/
def prep : State := fld [(F.TMC_START_STATUS_PHASE, 2), (F.DOM_STATUS_DSTATE, 1)] on
theorem test_nobundle (h : Obligations.StartUpCommitsAndStartsGroupB) : Runs (.prepareComplete) (prep) :=
  Runs.eq (((h (prep)).1 (by decide) (by decide) (by decide)).1 (by decide) (by decide))
theorem test_groupB (h : Obligations.StartUpCommitsAndStartsGroupB) : Runs (.groupBEnable) (fld [(F.TMC_START_STATUS_PHASE, 4)] on) :=
  Runs.eq ((h (fld [(F.TMC_START_STATUS_PHASE, 4)] on)).2 (by decide))
/-- The carrier bus running. -/
def bus (bad : Nat) : State := { fld [(F.QBC_CTL_EN, 1), (F.PHM_SUPPLY_STATUS_VIO_CAR_STATE, 1)] on with qbc := { State.reset.qbc with running := true, badRun := bad } }
theorem test_qstart (h : Obligations.CarrierFramesFollowTheirSchedule) : Runs (.qbcStart) ({ bus 0 with qbc := { (bus 0).qbc with waiting := true, running := false } }) :=
  Runs.of ((h ({ bus 0 with qbc := { (bus 0).qbc with waiting := true, running := false } })).1 (by decide) (by decide) (by decide) (by decide))
theorem test_qbad (h : Obligations.CarrierFramesFollowTheirSchedule) : Runs (.qbFrame 1) (bus 2) :=
  Runs.of ((h (bus 2)).2.1 1 (by decide) (by decide) (by decide) (by decide +kernel))
/-- A carrier word whose CRC holds. -/
def goodWord : Nat := ofLsb (msbFirst 16 (crc16 (lsbFirst 272 0))) * 2 ^ 272
theorem test_qgood (h : Obligations.CarrierFramesFollowTheirSchedule) : Runs (.qbFrame goodWord) (bus 2) :=
  Runs.of ((h (bus 2)).2.2 goodWord (by decide) (by decide) (by decide) (by decide +kernel) (by decide))
/-- A bundle with no section: its header and a signature of zeros. -/
def bundle0 : Bundle := ⟨le 4 0x4C42394B ++ [1, 0, 9, 3] ++ le 4 0 ++ le 4 128 ++ List.replicate 112 0, ⟨[], [], none, 0, none⟩⟩
/-- Anchor `k` has signed the bundle. -/
def Signs (k : Nat) (b : Bundle) : Prop :=
  Config.ecVerify k (toNats (b.raw.take (b.raw.length - 96))) (ofLe (b.raw.drop (b.raw.length - 96))) = true
theorem checked_of {s : State} {b : Bundle} (hv : s.bundleSigned b = true)
    (h : (s.formatOk b && ((s.configured b).rejects b).isNone) = true) : s.checked b = .inr (s.configured b) := by
  simp only [Bool.and_eq_true, Option.isNone_iff_eq_none] at h
  simp [State.checked, h, hv]
theorem signed_of {s : State} {b : Bundle} {k : Nat} {l : List Nat} (hv : Signs k b) (h : s.anchors 0 [4, 5, 6] = k :: l) :
    s.bundleSigned b = true := by
  rw [Signs] at hv
  rw [State.bundleSigned, h]; simp [hv]
/-- The one anchor, in node 4, where its record's HMAC agrees. -/
theorem anchor_of {s : State} {u : Nat} (m : (s.node 4).mac = Config.hmac384 s.dom.anchorKey (anchorRecord 4 (s.node 4)))
    (h : (s.chainLive 7 4 && (s.dstate == 1 || s.dstate == 3) && (s.node 4).kind == 5 &&
      bit u (s.node 4).usage && (s.node 5).kind != 5 && (s.node 6).kind != 5) = true) :
    s.anchors u [4, 5, 6] = [(s.node 4).key] := by
  have r : s.recordOk 4 = true := by simp [State.recordOk, m]
  simp only [Bool.and_eq_true, bne_iff_ne, ne_eq] at h
  obtain ⟨⟨⟨⟨⟨a, b⟩, c⟩, d⟩, e⟩, f⟩ := h
  simp [State.anchors, List.filter, State.nodeLive, a, b, c, r, d, beq_eq_false_iff_ne.mpr e, beq_eq_false_iff_ne.mpr f]
/-- PREPARE with a bundle PENDING and marked, and with one ACTIVE, under the platform anchor 7. -/
def prepK : State := { prep with dom := { prep.dom with nodes := [(0, { ({} : Node) with kind := 1 }), (4, { ({} : Node) with kind := 5, depth := 1, key := 7, usage := 1, mac := Config.hmac384 prep.dom.anchorKey [4, 7, 1] })] } }
def prepP : State := { prepK with tmc := { prep.tmc with pending := some bundle0, mark := true } }
def prepA : State := { prepK with tmc := { prep.tmc with active := some bundle0 } }
theorem test_bpend (hv : Signs 7 bundle0) (h : Obligations.StartUpCommitsAndStartsGroupB) : Runs .prepareComplete prepP := Runs.eq (((h prepP).1 (by decide) (by decide) (by decide)).2.1 bundle0 _ rfl rfl (checked_of (signed_of (l := []) hv (anchor_of rfl (by decide))) (by decide +kernel)))
theorem test_bact (hv : Signs 7 bundle0) (h : Obligations.StartUpCommitsAndStartsGroupB) : Runs .prepareComplete prepA := Runs.eq (((h prepA).1 (by decide) (by decide) (by decide)).2.2 bundle0 _ rfl rfl (checked_of (signed_of (l := []) hv (anchor_of rfl (by decide))) (by decide +kernel)))
theorem test_idle (h : Obligations.IdleStepOnlyPassesTime) : ∃ t, step State.reset = .next t :=
  (h State.reset rfl).elim fun t h => ⟨t, h.1⟩
theorem test_canon (h : Obligations.StepKeepsStatesCanonical) : (idle State.reset).Canonical :=
  h State.reset _ ⟨rfl, rfl⟩ rfl
theorem test_queue (h : Obligations.NoCommandTouchesTheQueue) : (coldReset 1 { State.reset with pending := [.therm] }).pending = [.therm] :=
  h (.coldReset 1) { State.reset with pending := [.therm] } _ rfl
theorem test_second (h : Obligations.SecondsPulsesAndTdcLinesKeepTime) : Runs (.secondBoundary) (on) :=
  Runs.of ((h.1 (on)).1)
theorem test_ppsfall (h : Obligations.SecondsPulsesAndTdcLinesKeepTime) : Runs (.ppsOutFall) (sup (fun x => { x with ppsHigh := true }) on) :=
  Runs.eq ((h.1 (sup (fun x => { x with ppsHigh := true }) on)).2.1 (by decide))
/-- PPS_IN in use, a little after a second. -/
def pps (last : Option Time) (t : Nat) : State := at_ t { fld [(F.TBU_PPS_CFG_IN_MODE, 1)] on with tbu := { on.tbu with ppsLast := last, tdc := [(20, { ({} : Tdc) with line0 := { ({} : TdcLine) with table := [(0, 1)] } })] } }
theorem test_ppsto (h : Obligations.SecondsPulsesAndTdcLinesKeepTime) : Runs (.ppsInTimeout) (pps (some 50) 100) :=
  Runs.of ((h.1 (pps (some 50) 100)).2.2.1 50 rfl)
theorem test_ppsin (h : Obligations.SecondsPulsesAndTdcLinesKeepTime) : Runs (.ppsInEdge 0) (pps none 100) :=
  Runs.of (((h.1 (pps none 100)).2.2.2 0 (by decide)).1 (by decide) (by decide))
theorem test_ppsrej (h : Obligations.SecondsPulsesAndTdcLinesKeepTime) : Runs (.ppsInEdge 0) (pps none (secUnits / 2)) :=
  Runs.eq (((h.1 (pps none (secUnits / 2))).2.2.2 0 (by decide)).2 (.inl (by decide)))
theorem test_ppsrej2 (h : Obligations.SecondsPulsesAndTdcLinesKeepTime) : Runs (.ppsInEdge 0) (pps (some 50) 100) :=
  Runs.eq (((h.1 (pps (some 50) 100)).2.2.2 0 (by decide)).2 (.inr ⟨50, rfl, by decide⟩))
/-- A module past start-up. -/
def opn : State := on.setF F.TMC_START_STATUS_PHASE 7
/-- Line 1 of channel 23 under calibration. -/
def calib : State := { on with tbu := { on.tbu with tdc := [(23, { ({} : Tdc) with line1 := { ({} : TdcLine) with calibrating := true } })] } }
theorem test_tdcs (h : Obligations.SecondsPulsesAndTdcLinesKeepTime) : Runs (.tdcCalibrationStart 23 1) (opn) :=
  Runs.of ((h.2 (opn) 23 1).1 rfl (by decide) (by decide) (by decide) (.inl (by decide)))
theorem test_tdcs2 (h : Obligations.SecondsPulsesAndTdcLinesKeepTime) : Runs (.tdcCalibrationStart 23 0) ({ opn with tbu := { opn.tbu with tdc := [(23, { ({} : Tdc) with line1 := { ({} : TdcLine) with failed := true } })] } }) :=
  Runs.of ((h.2 ({ opn with tbu := { opn.tbu with tdc := [(23, { ({} : Tdc) with line1 := { ({} : TdcLine) with failed := true } })] } }) 23 0).1 rfl (by decide) (by decide) (by decide) (.inr (by decide)))
theorem test_tdcfail (h : Obligations.SecondsPulsesAndTdcLinesKeepTime) : Runs (.tdcCalibrationDone 23 1 [1048576]) (calib) :=
  Runs.of (((h.2 (calib) 23 1).2.1 [1048576] (by decide) (by decide) (by decide +kernel)).1 (.inl (by decide +kernel)))
theorem test_tdcok (h : Obligations.SecondsPulsesAndTdcLinesKeepTime) : Runs (.tdcCalibrationDone 23 1 (List.replicate 256 4096)) (calib) :=
  Runs.of (((h.2 (calib) 23 1).2.1 (List.replicate 256 4096) (by decide) (by decide) (by decide +kernel)).2 (by decide +kernel) (by decide +kernel))
theorem test_tdcshort (h : Obligations.SecondsPulsesAndTdcLinesKeepTime) : Runs (.tdcCalibrationDone 23 1 [7]) (calib) :=
  Runs.eq ((h.2 (calib) 23 1).2.2.1 [7] (by decide +kernel))
/-- The clock attached to port 0, TRACKING a master with source 5, an Announce and a Sync of it. -/
def ann (prio : Nat) (ok : Bool) : PtpAnnounce := ⟨0, 0, 5, 7, prio, 128, 6, 0x20, 100, 0, 37, ok⟩
def sync (two : Bool) : PtpSync := ⟨0, 0, 5, 9, two, 1000, 0, 0, 9⟩
def ptp : State := { fld [(F.TBU_CTL_ATTACH, 0), (F.TBU_CTL_EN, 1), (F.TBU_STATUS_STATE, 2)] on with tbu := { on.tbu with masters := [⟨ann 1 true, 0, none⟩], master := some (ann 1 true) } }
theorem test_ptpdom (h : Obligations.PtpMessagesAreTakenByDomain) : Runs (.ptpSyncRx { sync false with domain := 3 }) (ptp) :=
  ((h.2 (ptp)).1 _ 0 3 (.inl ⟨{ sync false with domain := 3 }, .inl rfl, rfl, rfl⟩) (by decide)).elim fun a k => Runs.thru k.1 (h.1 (ptp) _ a (by decide)) (k.2 (ptp) (by decide) (by decide))
theorem test_ptpdom2 (h : Obligations.PtpMessagesAreTakenByDomain) : Runs (.ptpPdelayReqRx 0 3 1 ⟨0, 5⟩) (ptp) :=
  ((h.2 (ptp)).1 _ 0 3 (.inr (.inr (.inr ⟨1, ⟨0, 5⟩, rfl⟩))) (by decide)).elim fun a k => Runs.thru k.1 (h.1 (ptp) _ a (by decide)) (k.2 (ptp) (by decide) (by decide))
theorem test_sync1 (h : Obligations.PtpMessagesAreTakenByDomain) : Runs (.ptpSyncRx (sync false)) (ptp) :=
  (((h.2 (ptp)).2.1 (sync false) (by decide)).1).elim fun a k => Runs.thru k.1 (h.1 (ptp) _ a (by decide)) ((k.2 (ptp) (by decide) (by decide) (by decide) (by decide)).1 rfl)
theorem test_sync2 (h : Obligations.PtpMessagesAreTakenByDomain) : Runs (.ptpSyncRx (sync true)) (ptp) :=
  (((h.2 (ptp)).2.1 (sync true) (by decide)).1).elim fun a k => Runs.thru k.1 (h.1 (ptp) _ a (by decide)) ((k.2 (ptp) (by decide) (by decide) (by decide) (by decide)).2 rfl)
theorem test_fup (h : Obligations.PtpMessagesAreTakenByDomain) : Runs (.ptpFollowUpRx (sync false)) ({ ptp with tbu := { ptp.tbu with pendSync := some (sync true, 2000) } }) :=
  (((h.2 ({ ptp with tbu := { ptp.tbu with pendSync := some (sync true, 2000) } })).2.1 (sync false) (by decide)).2).elim fun a k => Runs.thru k.1 (h.1 ({ ptp with tbu := { ptp.tbu with pendSync := some (sync true, 2000) } }) _ a (by decide)) (k.2 ({ ptp with tbu := { ptp.tbu with pendSync := some (sync true, 2000) } }) (sync true) 2000 (by decide) (by decide) (by decide) rfl rfl rfl rfl)
theorem test_ann (h : Obligations.PtpMessagesAreTakenByDomain) : Runs (.ptpAnnounceRx (ann 1 true)) (ptp) :=
  ((h.2 (ptp)).2.2.1 (ann 1 true) (by decide)).elim fun a k => (k.2 (ptp) (by decide) (by decide)).elim fun _ l => Runs.thru k.1 (h.1 (ptp) _ a (by decide)) l.2.2.2.2
theorem test_annq (h : Obligations.PtpMessagesAreTakenByDomain) : Runs (.ptpAnnounceRx (ann 1 false)) (ptp) :=
  ((h.2 (ptp)).2.2.1 (ann 1 false) (by decide)).elim fun a k => (k.2 (ptp) (by decide) (by decide)).elim fun _ l => Runs.thru k.1 (h.1 (ptp) _ a (by decide)) l.2.2.2.2
/-- A request sent on port 0, and its response. -/
def pdel (two : Bool) : PtpPdelay := ⟨0, 0, 4, two, 500, 0, 9⟩
def ptpReq (rs : List (PtpPdelay × Time)) : State := { ptp with tbu := { ptp.tbu with reqs := [(0, 4, 300)], resps := rs } }
theorem test_presp (h : Obligations.PtpMessagesAreTakenByDomain) : Runs (.ptpPdelayRespRx (pdel false)) (ptpReq []) :=
  (((h.2 (ptpReq [])).2.2.2.1 (pdel false) (by decide)).1).elim fun a k => Runs.thru k.1 (h.1 (ptpReq []) _ a (by decide)) ((k.2 (ptpReq []) 300 (by decide) (by decide) (by decide)).1 rfl)
theorem test_presp2 (h : Obligations.PtpMessagesAreTakenByDomain) : Runs (.ptpPdelayRespRx (pdel true)) (ptpReq []) :=
  (((h.2 (ptpReq [])).2.2.2.1 (pdel true) (by decide)).1).elim fun _ k => have _ := (k.2 (ptpReq []) 300 (by decide) (by decide) (by decide)).2 rfl; ⟨_, k.1⟩
theorem test_pfup (h : Obligations.PtpMessagesAreTakenByDomain) : Runs (.pdelayRespFollowUpRx (pdel false)) (ptpReq [(pdel true, 900)]) :=
  (((h.2 (ptpReq [(pdel true, 900)])).2.2.2.1 (pdel false) (by decide)).2).elim fun a k => Runs.thru k.1 (h.1 (ptpReq [(pdel true, 900)]) _ a (by decide)) (k.2 (ptpReq [(pdel true, 900)]) 300 (pdel true) 900 (by decide) (by decide) (by decide) rfl)
theorem test_preq (h : Obligations.PtpMessagesAreTakenByDomain) : Runs (.ptpPdelayReqRx 0 0 1 ⟨0, 5⟩) (ptp) :=
  ((h.2 (ptp)).2.2.2.2 0 1 ⟨0, 5⟩ (by decide) (by decide)).elim fun a k => Runs.thru k.1 (h.1 (ptp) _ a (by decide)) (k.2 (ptp) (by decide) rfl)
/-- The clock in a state, port 0 attached. -/
def clock (k : Nat) : State := fld [(F.TBU_STATUS_STATE, k), (F.TBU_CTL_FALLBACK, 1), (F.TBU_CTL_EN, 1), (F.TBU_CTL_ATTACH, 0)] on
theorem test_atx (h : Obligations.ClockMessagesAndStates) : Runs (.ptpAnnounceTx) (clock 4) :=
  Runs.eq ((h (clock 4)).2.1 (by decide))
theorem test_stx (h : Obligations.ClockMessagesAndStates) : Runs (.ptpSyncTx) (clock 4) :=
  Runs.eq ((h (clock 4)).2.2.1 (by decide))
theorem test_ptx (h : Obligations.ClockMessagesAndStates) : Runs (.ptpPdelayReqTx) (clock 1) :=
  Runs.eq ((h (clock 1)).2.2.2.1 (by decide))
theorem test_mlost (h : Obligations.ClockMessagesAndStates) : Runs (.masterLost) (ptp) :=
  Runs.of (((h (ptp)).2.2.2.2.1 (.inr (by decide))).2.1 ⟨ann 1 true, 0, none⟩ (ann 1 true) rfl rfl (by decide))
/-- Masters on both LANs of a pair, the one followed on the first and heard last a second before the other. -/
def twoLans : State := { fld [(F.TBU_CTL_ATTACH, 8)] ptp with tbu := { ptp.tbu with masters := [⟨ann 1 true, 0, none⟩, ⟨{ ann 2 true with port := 1 }, secs 1, some (secs 9)⟩] } }
theorem test_mlost2 (h : Obligations.ClockMessagesAndStates) : Runs (.masterLost) (twoLans) :=
  Runs.eq (((h (twoLans)).2.2.2.2.1 (.inr (by decide))).1 { ann 2 true with port := 1 } (by decide))
theorem masters_kept (h : Obligations.ClockMessagesAndStates) : twoLans.mastersLost.now < secs 4 :=
  (((h twoLans).2.2.2.2.1 (.inr (by decide))).2.2 ⟨{ ann 2 true with port := 1 }, secs 1, some (secs 9)⟩ (by decide)).2.1
theorem test_fallb (h : Obligations.ClockMessagesAndStates) : Runs (.fallbackMaster) (clock 0) :=
  Runs.of ((h (clock 0)).2.2.2.2.2.2.1 (by decide) (by decide) (by decide) (by decide))
theorem test_best (h : Obligations.ClockMessagesAndStates) : ptp.tbu.masters ≠ [] :=
  ((h (ptp)).2.2.2.2.2.1 (ann 1 true) (by decide)).elim fun _ k => List.ne_nil_of_mem k.1
theorem test_holdx (h : Obligations.ClockMessagesAndStates) : Runs (.holdSpecExpiry) ({ clock 3 with tbu := { (clock 3).tbu with holdFrom := some 5 } }) :=
  Runs.eq ((h ({ clock 3 with tbu := { (clock 3).tbu with holdFrom := some 5 } })).2.2.2.2.2.2.2 5 rfl (.inl (by decide)) (by decide))
/-- A frame of 100 octets with a body. -/
def frm (b : Body) (da : Nat) : Frame := ⟨da, 7, none, false, 0x88B8, 100, none, b, []⟩
/-- It arrives at port 3. -/
def rxe (b : Body) (da : Nat) : RxEvent := ⟨3, frm b da, false, false, 0, 0, 0, false⟩
/-- Port 3 enabled. -/
def p3 : State := fld [(F.MAC_CTL_EN.pg 3, 1), (F.MAC_STATUS_LINK.pg 3, 1)] on
/-- A MAC of port 3. -/
def mac (f : Mac → Mac) (s : State) : State := s.modMac 3 f
theorem test_rxdis (h : Obligations.ReceptionFollowsItsRows) : Runs (.macRxFrame (rxe .plain 1)) (on) :=
  Runs.eq ((h (on) (rxe .plain 1)).1 (by decide) (by decide))
theorem test_rxfcs (h : Obligations.ReceptionFollowsItsRows) : Runs (.macRxFrame { rxe .plain 1 with fcsErr := true }) (p3) :=
  Runs.of (((h (p3) { rxe .plain 1 with fcsErr := true }).2.1 2 (by decide) (by decide) (by decide)).1 (.inr (by decide)))
theorem test_rxpause (h : Obligations.ReceptionFollowsItsRows) : Runs (.macRxFrame (rxe (.pause 5) 0x0180C2000001)) (p3) :=
  Runs.eq ((h (p3) (rxe (.pause 5) 0x0180C2000001)).2.2.1 5 (by decide) (by decide) (by decide) rfl (.inl rfl))
theorem test_rxpauseign (h : Obligations.ReceptionFollowsItsRows) : Runs (.macRxFrame (rxe (.pause 5) 9)) (p3) :=
  Runs.eq ((h (p3) (rxe (.pause 5) 9)).2.2.2.1 5 (by decide) (by decide) (by decide) rfl (by decide) (by decide))
/-- Port 6 of an HSR ring, and a frame of the ring from the peer. -/
def hsr6 : State := fld [(F.MAC_CTL_EN.pg 6, 1), (F.MAC_CTL_EN.pg 7, 1), (F.MAC_CTL_REDUN.pg 6, 2), (F.MAC_CTL_REDUN.pg 7, 2), (F.MAC_STATUS_LINK.pg 6, 1), (F.MAC_STATUS_LINK.pg 7, 1)] on
def rxh : RxEvent := { rxe .plain 0x0100000000FF with port := 6, fcsErr := true, frame := { frm .plain 0x0100000000FF with red := some ⟨true, 4, 0⟩ } }
theorem test_rxbad (h : Obligations.ReceptionFollowsItsRows) : Runs (.macRxFrame rxh) (hsr6) :=
  Runs.eq (((h (hsr6) rxh).2.1 2 (by decide) (by decide) (by decide)).2 (by decide) (by decide))
theorem test_rxgood (h : Obligations.ReceptionFollowsItsRows) : Runs (.macRxFrame (rxe .plain 0x0100000000FF)) (p3) :=
  Runs.eq ((h (p3) (rxe .plain 0x0100000000FF)).2.2.2.2 (by decide) (by decide) (by decide) (by intro q h; cases h))
/-- A frame staged at port 3 with descriptor 0 of ring 5 claimed for it, which belongs to slice 0; `w` its words. -/
def staged (w : List Nat) (first gen : Nat) : State :=
  { mac (fun m => { m with staging := [⟨5, first, 1, frm .plain 1, 0, false, none, gen⟩] }) p3 with slt :=
    { p3.slt with tab := [(2 * 4096 + 5, w)], rings := [(5, { ({} : Ring) with index := 1, claimed := 1, rstate := 1, placed := true })] } }
/-- An RX ring of slice `n`: 64 descriptors at DRAM address 65,536, buffers of 256 octets. -/
def rxRing (n : Nat) : List Nat := [2 ^ 63 + place 60 54 n + place 43 40 6 + place 39 36 1, 65536, 0]
theorem test_whole (h : Obligations.StagedFramesEnterTheirRingWhole) : Runs (.rxDescriptorsComplete 3) (staged (rxRing 0) 0 0) :=
  Runs.eq (((h (staged (rxRing 0) 0 0) 3 _ _ rfl).2.2 (by decide) (by decide)).1 (by decide))
theorem test_notowned (h : Obligations.StagedFramesEnterTheirRingWhole) : Runs (.rxDescriptorsComplete 3) (staged (rxRing 5) 0 0) :=
  Runs.eq (((h (staged (rxRing 5) 0 0) 3 _ _ rfl).2.2 (by decide) (by decide)).2 (by decide))
theorem test_oldgen (h : Obligations.StagedFramesEnterTheirRingWhole) : Runs (.rxDescriptorsComplete 3) (staged (rxRing 0) 0 9) :=
  Runs.eq ((h (staged (rxRing 0) 0 9) 3 _ _ rfl).1 (by decide))
theorem test_later (h : Obligations.StagedFramesEnterTheirRingWhole) : Runs (.rxDescriptorsComplete 3) (staged (rxRing 0) 1 0) :=
  Runs.eq ((h (staged (rxRing 0) 1 0) 3 _ _ rfl).2.1 (by decide) (by decide))
theorem test_lup (h : Obligations.LinksAndPortTimersActAtTheirMoments) : Runs (.linkUp ⟨0, true, 1000, true⟩) (on) :=
  Runs.of (((h.1 (on) 0 (by decide)).1 1000 true (by decide)).1)
theorem test_lup2 (h : Obligations.LinksAndPortTimersActAtTheirMoments) : Runs (.linkUp ⟨0, false, 1000, true⟩) (on) :=
  Runs.of (((h.1 (on) 0 (by decide)).1 1000 true (by decide)).2)
theorem test_lupm (h : Obligations.LinksAndPortTimersActAtTheirMoments) : Runs (.linkUp ⟨10, true, 1000, true⟩) (on) :=
  Runs.of (((h.1 (on) 10 (by decide)).2.1 true 1000 true rfl).1 rfl rfl)
theorem test_lupm2 (h : Obligations.LinksAndPortTimersActAtTheirMoments) : Runs (.linkUp ⟨10, true, 100, true⟩) (on) :=
  Runs.of (((h.1 (on) 10 (by decide)).2.1 true 100 true rfl).2 (.inl (by decide)))
theorem test_ldown (h : Obligations.LinksAndPortTimersActAtTheirMoments) : Runs (.linkDown ⟨0, 0⟩) (on) :=
  Runs.eq ((h.1 (on) 0 (by decide)).2.2.1 0)
theorem test_lforce (h : Obligations.LinksAndPortTimersActAtTheirMoments) : Runs (.weevilLinkDownEnd 3) (mac (fun m => { m with wvlTill := some 9, lock := true }) p3) :=
  Runs.of ((h.1 (mac (fun m => { m with wvlTill := some 9, lock := true }) p3) 3 (by decide)).2.2.2 9 rfl)
/-- A frame to send. -/
def txf (s : TxSource) : TxFrame := { src := s, frame := frm .plain 1, cls := 2 }
theorem test_txst (h : Obligations.FramesStartAndEndOnTheLine) : Runs (.macTxStart 3) (mac (fun m => { m with q := [txf .lldp] }) p3) :=
  Runs.eq (((h (mac (fun m => { m with q := [txf .lldp] }) p3) 3).1 (by decide) (by decide) (by decide) (by decide) (.inr (by decide)) (txf .lldp) (by decide)).2.1 (by decide) (by intro k n h; cases h))
theorem test_txst0 (h : Obligations.FramesStartAndEndOnTheLine) : Runs (.macTxStart 3) ((mac (fun m => { m with q := [txf .lldp] }) p3).setF (F.MAC_STATUS_LINK.pg 3) 0) :=
  Runs.eq (((h ((mac (fun m => { m with q := [txf .lldp] }) p3).setF (F.MAC_STATUS_LINK.pg 3) 0) 3).1 (by decide) (by decide) (by decide) (by decide) (.inl (by decide)) (txf .lldp) (by decide)).1 (by decide))
theorem test_txstp (h : Obligations.FramesStartAndEndOnTheLine) : Runs (.macTxStart 3) (mac (fun m => { m with q := [txf (.ptp 1 4)] }) p3) :=
  Runs.eq (((h (mac (fun m => { m with q := [txf (.ptp 1 4)] }) p3) 3).1 (by decide) (by decide) (by decide) (by decide) (.inr (by decide)) (txf (.ptp 1 4)) (by decide)).2.2 (by decide) 1 4 rfl)
theorem test_txend (h : Obligations.FramesStartAndEndOnTheLine) : Runs (.macTxEnd 3) (mac (fun m => { m with cur := some (txf .lldp) }) p3) :=
  Runs.eq ((h (mac (fun m => { m with cur := some (txf .lldp) }) p3) 3).2.1 (txf .lldp) rfl)
theorem test_txdel (h : Obligations.FramesStartAndEndOnTheLine) : Runs (.weevilDelayEnd 3 true) (mac (fun m => { m with txDelay := [(5, txf .lldp)] }) p3) :=
  Runs.eq ((h (mac (fun m => { m with txDelay := [(5, txf .lldp)] }) p3) 3).2.2.1 5 _ _ rfl)
theorem test_rxdel (h : Obligations.FramesStartAndEndOnTheLine) : Runs (.weevilDelayEnd 3 false) (mac (fun m => { m with rxDelay := [⟨rxe .plain 1, 5, false⟩] }) p3) :=
  Runs.eq ((h (mac (fun m => { m with rxDelay := [⟨rxe .plain 1, 5, false⟩] }) p3) 3).2.2.2.1 _ _ rfl)
theorem test_rxdup (h : Obligations.FramesStartAndEndOnTheLine) : Runs (.weevilDuplicateCopy 3) (mac (fun m => { m with rxDup := [⟨rxe .plain 1, 5, false⟩] }) p3) :=
  Runs.eq ((h (mac (fun m => { m with rxDup := [⟨rxe .plain 1, 5, false⟩] }) p3) 3).2.2.2.2 _ _ rfl)
def pausing : State := (mac (fun m => { m with pauseUntil := some (us 200), pauseSent := true, pauseStay := true, staging := List.replicate 2 ⟨5, 0, 1, { frm .plain 1 with len := 65537 }, 0, false, none, 0⟩ }) p3).setF (F.MAC_STATUS_PAUSED.pg 3) 1
theorem test_pend (h : Obligations.LinksAndPortTimersActAtTheirMoments) : Runs (.pauseEnd 3) (pausing) :=
  Runs.eq ((h.2 (pausing) 3).1 _ rfl)
theorem test_pwd (h : Obligations.LinksAndPortTimersActAtTheirMoments) : Runs (.pauseWd 3) (fld [(F.MAC_PAUSE_CFG_WD_TIME.pg 3, 10)] pausing) :=
  Runs.eq ((h.2 (fld [(F.MAC_PAUSE_CFG_WD_TIME.pg 3, 10)] pausing) 3).2.1 _ (by decide) (by decide) rfl (by decide))
theorem test_pign (h : Obligations.LinksAndPortTimersActAtTheirMoments) : Runs (.pauseIgnoreEnd 3) (fld [(F.MAC_STATUS_PAUSE_IGN.pg 3, 1)] p3) :=
  Runs.eq ((h.2 (fld [(F.MAC_STATUS_PAUSE_IGN.pg 3, 1)] p3) 3).2.2.1 (by decide))
theorem test_prep (h : Obligations.LinksAndPortTimersActAtTheirMoments) : Runs (.pauseRepeat 3) (fld [(F.MAC_CTL_TX_PAUSE_EN.pg 3, 1), (F.MAC_PAUSE_CFG_TX_QUANTA.pg 3, 9)] pausing) :=
  Runs.eq ((h.2 (fld [(F.MAC_CTL_TX_PAUSE_EN.pg 3, 1), (F.MAC_PAUSE_CFG_TX_QUANTA.pg 3, 9)] pausing) 3).2.2.2.1 (by decide) (by decide) (by decide) (by decide))
/-- Port 3 in EEE. -/
def eee : State := fld [(F.MAC_CTL_EEE_EN.pg 3, 1), (F.MAC_STATUS_LLDP_EEE.pg 3, 1), (F.MAC_CTL_ROLE.pg 3, 1)] p3
theorem test_lpi (h : Obligations.LinksAndPortTimersActAtTheirMoments) : Runs (.lpiEntry 3) (eee) :=
  Runs.eq ((h.2 (eee) 3).2.2.2.2.1 (by decide) (by decide) (by decide) (by decide) (by decide) (by decide))
theorem test_wake (h : Obligations.LinksAndPortTimersActAtTheirMoments) : Runs (.lpiWakeEnd 3) (fld [(F.MAC_STATUS_TX_LPI.pg 3, 1)] (mac (fun m => { m with q := [txf .lldp] }) eee)) :=
  Runs.eq ((h.2 (fld [(F.MAC_STATUS_TX_LPI.pg 3, 1)] (mac (fun m => { m with q := [txf .lldp] }) eee)) 3).2.2.2.2.2.1 (by decide) (by decide) (by decide) (by decide))
theorem test_lldp (h : Obligations.LinksAndPortTimersActAtTheirMoments) : Runs (.lldpTx 3) (eee) :=
  ((h.2 (eee) 3).2.2.2.2.2.2.1 (by decide) (by decide) (by decide) (by decide)).elim fun _ k => ⟨_, k.2.2.2.2.2⟩
theorem test_hsr (h : Obligations.LinksAndPortTimersActAtTheirMoments) : Runs (.hsrEntryExpiry 3 5 3) ({ on with pairs := [(3, { ({} : Pair) with fwd := [(5, 3, 7), (2, 9, 8)] })] }) :=
  Runs.of ((h.2 ({ on with pairs := [(3, { ({} : Pair) with fwd := [(5, 3, 7), (2, 9, 8)] })] }) 3).2.2.2.2.2.2.2.1 5 3 7 (by decide))
theorem test_super (h : Obligations.LinksAndPortTimersActAtTheirMoments) : Runs (.supervisionTx 3) (fld [(F.MAC_CTL_EN.pg 6, 1), (F.MAC_CTL_REDUN.pg 6, 1)] on) :=
  ((h.2 (fld [(F.MAC_CTL_EN.pg 6, 1), (F.MAC_CTL_REDUN.pg 6, 1)] on) 3).2.2.2.2.2.2.2.2 (by decide) (by decide) (by decide)).elim fun _ k => ⟨_, k.2.2.2.2.2⟩
/-- Context 3 with the words `w`, and fields changed. -/
def cxs (w : List Nat) (f : Ctx → Ctx) (s : State) : State := { s with ing := { s.ing with ctx := [(3, f { words := w })] } }
/-- The words of a valid GOOSE context, and of a valid SV context whose primary feeds again after 2 s. -/
def gWords : List Nat := [2 ^ 63 + 2 ^ 62, 0, 0, 0, 5 * 2 ^ 40, 0]
/-- The words of an SV context. -/
def vWords : List Nat := [2 ^ 63, 0, 0, 0, 0, place 47 40 3 + place 39 32 2]
/-- A GOOSE frame and an SV frame of one ASDU without channels. -/
def gPdu : GoosePdu := { wellFormed := true, sim := false, test := false, appid := 1, gocbRef := [65], datSet := [66], goID := [67], confRev := 1, ndsCom := false, numEntries := 0, stNum := 1, sqNum := 0, tal := 10, t := 0, vals := [], ext := none }
/-- The SV frame. -/
def vPdu : SvPdu := { wellFormed := true, sim := false, appid := 0x4000, noAsdu := 0, asdus := [], ext := none }
/-- A frame with body `b` of context 3 waits for its tag. -/
def waiting (b : Body) (gen : Nat) (written : Bool) : TagWait := ⟨3, gen, rxe b 0x0100000000FF, 0, false, written, written, {}, [], 9⟩
/-- The state with that frame waiting. -/
def tagged (b : Body) (w : List Nat) (gen : Nat) (written : Bool) : State := cxs w id { on with ing := { on.ing with tags := [waiting b gen written] } }
theorem test_taggen (h : Obligations.TagResultsAndContextsFollowTheirRules) : Runs (.tagResult 3 true) (tagged (.sv vPdu) vWords 1 false) :=
  Runs.eq ((h.1 (tagged (.sv vPdu) vWords 1 false) 3 _ rfl).1 true (by decide))
theorem test_tagfail (h : Obligations.TagResultsAndContextsFollowTheirRules) : Runs (.tagResult 3 false) (tagged (.sv vPdu) vWords 0 true) :=
  Runs.eq (((h.1 (tagged (.sv vPdu) vWords 0 true) 3 _ rfl).2 (by decide)).1)
theorem test_taggoose (h : Obligations.TagResultsAndContextsFollowTheirRules) : Runs (.tagResult 3 true) (tagged (.goose gPdu) gWords 0 false) :=
  Runs.eq (((h.1 (tagged (.goose gPdu) gWords 0 false) 3 _ rfl).2 (by decide)).2.1 gPdu rfl)
theorem test_tagsv (h : Obligations.TagResultsAndContextsFollowTheirRules) : Runs (.tagResult 3 true) (tagged (.sv vPdu) vWords 0 false) :=
  Runs.eq (((h.1 (tagged (.sv vPdu) vWords 0 false) 3 _ rfl).2 (by decide)).2.2.1 vPdu rfl rfl)
theorem test_tagsvw (h : Obligations.TagResultsAndContextsFollowTheirRules) : Runs (.tagResult 3 true) (tagged (.sv vPdu) vWords 0 true) :=
  Runs.eq (((h.1 (tagged (.sv vPdu) vWords 0 true) 3 _ rfl).2 (by decide)).2.2.2 vPdu rfl rfl)
theorem test_dupexp (h : Obligations.TagResultsAndContextsFollowTheirRules) : Runs (.dupEntryExpiry 2 7 1) (on.modPair 2 (fun p => { p with dup := [⟨7, 1, .accepted, 4⟩, ⟨7, 2, .accepted, 6⟩] })) :=
  Runs.of ((h.2 (on.modPair 2 (fun p => { p with dup := [⟨7, 1, .accepted, 4⟩, ⟨7, 2, .accepted, 6⟩] })) 2).1 7 1 _ rfl)
theorem test_talexp (h : Obligations.TagResultsAndContextsFollowTheirRules) : Runs (.gooseTalExpiry 3) (cxs gWords (fun x => { x with health := 2, tal := 10 }) on) :=
  Runs.eq ((h.2 (cxs gWords (fun x => { x with health := 2, tal := 10 }) on) 3).2.1 (by decide) (by decide))
theorem test_svloss (h : Obligations.TagResultsAndContextsFollowTheirRules) : Runs (.svLoss 3) ((cxs vWords (fun x => { x with health := 2 }) on).setF F.ICL_CTL_EN 1) :=
  Runs.ofU ((h.2 ((cxs vWords (fun x => { x with health := 2 }) on).setF F.ICL_CTL_EN 1) 3).2.2.1 (by decide) (.inr (.inl (by decide))))
theorem test_svrest (h : Obligations.TagResultsAndContextsFollowTheirRules) : Runs (.svHealthRestore 3) (cxs vWords (fun x => { x with health := 3, cleanFrom := some 0 }) on) :=
  Runs.eq ((h.2 (cxs vWords (fun x => { x with health := 3, cleanFrom := some 0 }) on) 3).2.2.2.1 0 (by decide) (by decide))
theorem test_altrest (h : Obligations.TagResultsAndContextsFollowTheirRules) : Runs (.altRestore 3) (cxs vWords (fun x => { x with health := 2, altFeeds := true, liveSince := some 0 }) on) :=
  Runs.eq ((h.2 (cxs vWords (fun x => { x with health := 2, altFeeds := true, liveSince := some 0 }) on) 3).2.2.2.2 0 (by decide) (by decide) (by decide) (by decide))
/-- Lattice 0 running. -/
def run0 (f : Lattice → Lattice) (s : State) : State := s.modLat 0 (fun x => f { x with running := true })
theorem test_latwold (h : Obligations.LatticesFeedPhasorsAndGuards) : Runs (.latticeWrite) (cxs vWords id { on with ing := { on.ing with writes := [⟨3, 1, []⟩] } }) :=
  Runs.eq (((h.1 (cxs vWords id { on with ing := { on.ing with writes := [⟨3, 1, []⟩] } })).1 _ [] rfl).1 (by decide))
theorem test_latw (h : Obligations.LatticesFeedPhasorsAndGuards) : Runs (.latticeWrite) (cxs vWords id { on with ing := { on.ing with writes := [⟨3, 0, []⟩] } }) :=
  Runs.eq (((h.1 (cxs vWords id { on with ing := { on.ing with writes := [⟨3, 0, []⟩] } })).1 _ [] rfl).2 (by decide))
theorem test_pclose (h : Obligations.LatticesFeedPhasorsAndGuards) : Runs (.provisionalClose 0) (run0 id on) :=
  Runs.ofU ((h.1 (run0 id on)).2.1 0 (by decide))
theorem test_ddl (h : Obligations.LatticesFeedPhasorsAndGuards) : Runs (.instantDeadline 0) (run0 id on) :=
  Runs.eq ((h.1 (run0 id on)).2.2.1 0 (by decide))
theorem test_ddl2 (h : Obligations.LatticesFeedPhasorsAndGuards) : Runs (.instantDeadline 0) (run0 (fun x => { x with pc := 1 }) on) :=
  Runs.ofU ((h.1 (run0 (fun x => { x with pc := 1 }) on)).2.2.2 0 (by decide) (by decide))
theorem test_pfold (h : Obligations.LatticesFeedPhasorsAndGuards) : Runs (.pheFold 0) ({ on with phe := { on.phe with folds := [⟨0, 5, 2, 1, 4⟩], done := [(0, 5)] } }) :=
  Runs.eq ((h.2 ({ on with phe := { on.phe with folds := [⟨0, 5, 2, 1, 4⟩], done := [(0, 5)] } }) 0 0).1 _ rfl)
theorem test_pready (h : Obligations.LatticesFeedPhasorsAndGuards) : Runs (.phasorsReady 0 5) ({ on with phe := { on.phe with ins := [⟨0, 5, []⟩] } }) :=
  Runs.eq ((h.2 ({ on with phe := { on.phe with ins := [⟨0, 5, []⟩] } }) 0 5).2.1 _ rfl)
theorem test_gready (h : Obligations.LatticesFeedPhasorsAndGuards) : Runs (.guardResultsReady 0 5) ({ on with gcm := { on.gcm with ready := [⟨0, 5, [1]⟩] } }) :=
  Runs.ofU ((h.2 ({ on with gcm := { on.gcm with ready := [⟨0, 5, [1]⟩] } }) 0 5).2.2 _ rfl)
/-- GOOSE publication 2, enabled, without authentication: ring publication of ring 5 of slice 1 with one BOOL member where `r`. -/
def pubWords (r : Bool) : List Nat := [2 ^ 63 + place 61 61 (b2n r) + place 18 12 1 + place 9 0 5 + place 58 51 1, 2 ^ 63, 0, place 63 56 10 + place 52 37 1000 + place 13 6 1, 0, 0, 0, 0]
/-- The Publication Engine enabled with that publication, the lease valid. -/
def pubOn (r : Bool) (f : PubSt → PubSt) (s : State) : State := (fld [(F.PUB_CTL_EN, 1), (F.PRC_STATUS_LEASE, 1), (F.PRC_STATUS_ROLE, 2)] { s with pub := { s.pub with ent := [(2, pubWords r)], st := [(2, f {})] } })
/-- A Slice Table entry written. -/
def sltw (t i : Nat) (w : List Nat) (s : State) : State := { s with slt := { s.slt with tab := Tbl.set [] (4096 * t + i) w s.slt.tab } }
/-- Slice `n` ACTIVE with 16 credits and 2 F words. -/
def active (n : Nat) (s : State) : State := (sltw 0 n [place 22 16 2 + place 31 23 3 + place 15 0 9, place 39 24 16 + place 23 16 8, 0] s).modSlice n (fun x => { x with state := 2 })
/-- A DRAM window over the whole of DRAM for slice 1. -/
def wide (s : State) : State := sltw 3 0 [2 ^ 63 + place 62 56 1 + place 30 16 0x4000] s
/-- Two windows over the whole of DRAM, for slices 1 and 2. -/
def wide2 (s : State) : State := sltw 3 1 [2 ^ 63 + place 62 56 2 + place 30 16 0x4000] (wide s)
/-- Ring `r` of kind `kd` and slice `n`, local number `r`, port 3, 64 descriptors at DRAM address 65,536, ENABLED with one descriptor posted. -/
def ringAt (r kd n : Nat) (s : State) : State := (sltw 2 r [2 ^ 63 + place 62 61 kd + place 60 54 n + place 53 48 r + place 47 44 3 + place 43 40 6, 65536, 0] s).modRing r (fun g => { g with rstate := 1, placed := true, index := 1 })
/-- A word of DRAM. -/
def wr (l : List (Nat × Nat)) (s : State) : State := l.foldl (fun (s : State) p => s.wr64 p.1 p.2) s
/-- Ring 5 of slice 1 feeds the publication, its descriptor of `len` octets at 131,072. -/
def ringPub (len : Nat) (f : State → State) : State := f (wr [(65536, 131072), (65544, len)] (ringAt 5 2 1 (active 1 (pubOn true id on))))
theorem test_goretr (h : Obligations.PublicationsAndRingsSendInTurn) : Runs (.gooseRetransmit 2) (pubOn false (fun y => { y with has := true, scheduled := true, stNum := 1, due := ms 3 }) on) :=
  Runs.eq (((h.1 (pubOn false (fun y => { y with has := true, scheduled := true, stNum := 1, due := ms 3 }) on)).1 2 _ rfl (by decide) (by decide) (by decide)).1 (by decide))
/-- The same with AUTH 1 and no key in node 0. -/
def pubKeyless : State := let s := pubOn false (fun y => { y with has := true, scheduled := true, stNum := 1, due := ms 3 }) on; { s with pub := { s.pub with ent := [(2, [word (pubWords false) 0, word (pubWords false) 1, place 31 29 1] ++ (pubWords false).drop 3)] } }
theorem test_gonokey (h : Obligations.PublicationsAndRingsSendInTurn) : Runs (.gooseRetransmit 2) (pubKeyless) :=
  Runs.eq (((h.1 (pubKeyless)).1 2 _ rfl (by decide) (by decide) (by decide)).2 (by decide))
theorem test_pubdlen (h : Obligations.PublicationsAndRingsSendInTurn) : Runs (.pubDescriptorFetch 5) (ringPub 9 id) :=
  Runs.eq ((h.1 (ringPub 9 id)).2 5 _ rfl (by decide) (by decide) (by decide) (by decide) (by decide) (by decide) (by decide))
theorem test_pubdbad (h : Obligations.PublicationsAndRingsSendInTurn) : Runs (.pubDescriptorFetch 5) (ringPub 1 (fun s => { wide s with hlt := { s.hlt with poisoned := [131072] } })) :=
  Runs.eq ((h.1 (ringPub 1 (fun s => { wide s with hlt := { s.hlt with poisoned := [131072] } }))).2 5 _ rfl (by decide) (by decide) (by decide) (by decide) (by decide) (by decide) (by decide))
theorem test_pubd (h : Obligations.PublicationsAndRingsSendInTurn) : Runs (.pubDescriptorFetch 5) (ringPub 1 wide) :=
  Runs.eq ((h.1 (ringPub 1 wide)).2 5 _ rfl (by decide) (by decide) (by decide) (by decide) (by decide) (by decide) (by decide))
theorem test_pubdheld (h : Obligations.PublicationsAndRingsSendInTurn) : Runs (.pubDescriptorFetch 5) (ringPub 1 (fun s => (wide s).modRing 5 (fun g => { g with deps := [(1, [(0, 7)])] }))) :=
  Runs.eq ((h.1 (ringPub 1 (fun s => (wide s).modRing 5 (fun g => { g with deps := [(1, [(0, 7)])] })))).2 5 _ rfl (by decide) (by decide) (by decide) (by decide) (by decide) (by decide) (by decide))
/-- A descriptor of `len` octets, one frame, at 131,072 for each transmit ring. -/
def txd (len : Nat) : State → State := wr [(65536, 131072), (65544, 2 ^ 62 + 2 ^ 61 + len)]
theorem test_txone (h : Obligations.PublicationsAndRingsSendInTurn) : Runs (.txDescriptorFetch 5) (txd 64 (ringAt 5 1 1 (active 1 (wide on)))) :=
  Runs.eq ((h.2 (txd 64 (ringAt 5 1 1 (active 1 (wide on)))) 5 ⟨0, 1, 64, 0⟩ (by decide +kernel) (by decide +kernel) (by decide +kernel) (by decide +kernel)).1 (by decide +kernel))
theorem test_txtwo (h : Obligations.PublicationsAndRingsSendInTurn) : Runs (.txDescriptorFetch 5) (txd 64 (ringAt 6 1 2 (active 2 (ringAt 5 1 1 (active 1 (wide2 on)))))) :=
  Runs.eq ((h.2 (txd 64 (ringAt 6 1 2 (active 2 (ringAt 5 1 1 (active 1 (wide2 on)))))) 5 ⟨0, 1, 64, 0⟩ (by decide +kernel) (by decide +kernel) (by decide +kernel) (by decide +kernel)).2.1 (by decide +kernel) (by decide +kernel))
theorem test_txshort (h : Obligations.PublicationsAndRingsSendInTurn) : Runs (.txDescriptorFetch 5) (txd 900 ((ringAt 6 1 2 (active 2 (ringAt 5 1 1 (active 1 (wide2 on))))).modSlice 2 (fun x => { x with deficit := [(3, 900)] }))) :=
  Runs.eq ((h.2 (txd 900 ((ringAt 6 1 2 (active 2 (ringAt 5 1 1 (active 1 (wide2 on))))).modSlice 2 (fun x => { x with deficit := [(3, 900)] }))) 5 ⟨0, 1, 900, 0⟩ (by decide +kernel) (by decide +kernel) (by decide +kernel) (by decide +kernel)).2.2 (by decide +kernel) (by decide +kernel))
theorem test_dbok (h : Obligations.SlicePagesTakeOnlyTheirOwnWrites) : Runs (.doorbellWrite .tmc 1 5 63) (ringAt 5 1 1 (active 1 on)) :=
  Runs.of (((h (ringAt 5 1 1 (active 1 on)) .tmc 1 5 63 (by decide +kernel) (by decide +kernel) (by decide +kernel)).1 (by decide +kernel) (by decide +kernel) 5 (by decide +kernel)).1 (by decide +kernel))
theorem test_dbbad (h : Obligations.SlicePagesTakeOnlyTheirOwnWrites) : Runs (.doorbellWrite .tmc 1 5 66) (ringAt 5 1 1 (active 1 on)) :=
  Runs.eq (((h (ringAt 5 1 1 (active 1 on)) .tmc 1 5 66 (by decide +kernel) (by decide +kernel) (by decide +kernel)).1 (by decide +kernel) (by decide +kernel) 5 (by decide +kernel)).2 (by decide +kernel))
theorem test_fwr (h : Obligations.SlicePagesTakeOnlyTheirOwnWrites) : Runs (.fWrite .tmc 1 1 7) (active 1 on) :=
  Runs.eq ((h (active 1 on) .tmc 1 1 7 (by decide +kernel) (by decide +kernel) (by decide +kernel)).2.1 (by decide +kernel) (by decide +kernel) (by decide +kernel))
theorem test_fwrno (h : Obligations.SlicePagesTakeOnlyTheirOwnWrites) : Runs (.fWrite .tmc 1 60 7) (active 1 on) :=
  Runs.eq ((h (active 1 on) .tmc 1 60 7 (by decide +kernel) (by decide +kernel) (by decide +kernel)).2.2.1 (by decide +kernel) (by decide +kernel) (by decide +kernel))
theorem test_fwrst (h : Obligations.SlicePagesTakeOnlyTheirOwnWrites) : Runs (.fWrite .tmc 2 0 7) (on) :=
  Runs.eq ((h (on) .tmc 2 0 7 (by decide +kernel) (by decide +kernel) (by decide +kernel)).2.2.2.1 (by decide +kernel) (by decide +kernel))
theorem test_dbst (h : Obligations.SlicePagesTakeOnlyTheirOwnWrites) : Runs (.doorbellWrite .tmc 2 0 7) (on) :=
  Runs.eq ((h (on) .tmc 2 0 7 (by decide +kernel) (by decide +kernel) (by decide +kernel)).2.2.2.2.1 (by decide +kernel) (by decide +kernel))
theorem test_dbno (h : Obligations.SlicePagesTakeOnlyTheirOwnWrites) : Runs (.doorbellWrite (.core 3 false) 2 0 7) (on) :=
  Runs.eq ((h (on) (.core 3 false) 2 0 7 (by decide +kernel) (by decide +kernel) (by decide +kernel)).2.2.2.2.2 (by decide +kernel))
theorem test_dbten (h : Obligations.SlicePagesTakeOnlyTheirOwnWrites) : Runs (.doorbellWrite (.core 3 false) 2 0 7) (sltw 1 0 [2 ^ 63 + place 62 56 1 + 77] { active 1 on with slt := { (active 1 on).slt with cores := [(3, ⟨true, 77, 0⟩)] } }) :=
  Runs.eq ((h (sltw 1 0 [2 ^ 63 + place 62 56 1 + 77] { active 1 on with slt := { (active 1 on).slt with cores := [(3, ⟨true, 77, 0⟩)] } }) (.core 3 false) 2 0 7 (by decide +kernel) (by decide +kernel) (by decide +kernel)).2.2.2.2.2 (by decide +kernel))
theorem test_ftagvs (h : Obligations.SliceEventsFollowTheirStates) : Runs (.ftagWrite 3 false true 77) (on) :=
  Runs.eq (((h (on)).1 3 true 77 (by decide) rfl).1)
theorem test_ftag (h : Obligations.SliceEventsFollowTheirStates) : Runs (.ftagWrite 3 true true 77) (on) :=
  Runs.of (((h (on)).1 3 true 77 (by decide) rfl).2)
theorem test_irqadv (h : Obligations.SliceEventsFollowTheirStates) : Runs (.irqModerationEnd 5) ((ringAt 5 1 1 on).modRing 5 (fun g => { g with modRun := true, modAdv := true })) :=
  Runs.eq (((h ((ringAt 5 1 1 on).modRing 5 (fun g => { g with modRun := true, modAdv := true }))).2.1 5 (by decide)).1 (by decide))
theorem test_irqend (h : Obligations.SliceEventsFollowTheirStates) : Runs (.irqModerationEnd 5) ((ringAt 5 1 1 on).modRing 5 (fun g => { g with modRun := true })) :=
  Runs.eq (((h ((ringAt 5 1 1 on).modRing 5 (fun g => { g with modRun := true }))).2.1 5 (by decide)).2 (by decide))
theorem test_qdrain (h : Obligations.SliceEventsFollowTheirStates) : Runs (.quiesceDrained 1) ((active 1 on).modSlice 1 (fun x => { x with state := 3 })) :=
  Runs.eq (((h ((active 1 on).modSlice 1 (fun x => { x with state := 3 }))).2.2 1 (by decide)).1 (by decide) (by decide))
theorem test_qbusy (h : Obligations.SliceEventsFollowTheirStates) : Runs (.quiesceDrained 1) ((active 1 on).modSlice 1 (fun x => { x with state := 3, inflightNow := 2 })) :=
  Runs.eq (((h ((active 1 on).modSlice 1 (fun x => { x with state := 3, inflightNow := 2 }))).2.2 1 (by decide)).2.1 (.inl (by decide)))
theorem test_qlim (h : Obligations.SliceEventsFollowTheirStates) : Runs (.quiesceLimit 1) ((active 1 on).modSlice 1 (fun x => { x with state := 3, inflightNow := 2 })) :=
  Runs.eq (((h ((active 1 on).modSlice 1 (fun x => { x with state := 3, inflightNow := 2 }))).2.2 1 (by decide)).2.2)
/-- The pair control running, paired, in a role. -/
def prcOn (role : Nat) (f : Prc → Prc) (l : List (Field × Nat)) : State := fld ([(F.PRC_CTL_EN, 1), (F.PRC_CTL_PAIRED, 1), (F.PRC_STATUS_ROLE, role), (F.PRC_STATUS_FENCE_REASON, 2)] ++ l) { on with prc := f on.prc }
/-- A heartbeat block with its first two octets, and its block check. -/
def hbb (v m : Nat) : Octets := let o := le 1 v ++ le 1 m ++ le 12 0; o ++ le 2 (hbCrc o)
/-- Heartbeats over the Cicada and over K, of version `v`. -/
def hbc (v m : Nat) : HbRx := ⟨2, hbb v m, true, 5, 0⟩
/-- Over K. -/
def hbk (v m : Nat) : HbRx := ⟨0, hbb v m, true, 0, 6⟩
theorem test_tick1 (h : Obligations.HeartbeatsTickAndAreJudged) : Runs (.heartbeatTick) (fld [(F.PRC_CTL_EN, 1)] on) :=
  Runs.eq ((h (fld [(F.PRC_CTL_EN, 1)] on) (by decide)).1.1 (by decide))
theorem test_tick2 (h : Obligations.HeartbeatsTickAndAreJudged) : Runs (.heartbeatTick) (prcOn 3 id []) :=
  Runs.eq ((h (prcOn 3 id []) (by decide)).1.2 (by decide))
theorem test_hbcode (h : Obligations.HeartbeatsTickAndAreJudged) : Runs (.heartbeatRx { hbc 16 5 with codeOk := false }) (prcOn 3 id []) :=
  ((h (prcOn 3 id []) (by decide)).2 { hbc 16 5 with codeOk := false }).elim fun a k => Runs.thru k.1 rfl (((k.2 (prcOn 3 id []) (by decide)).2 (by decide)).1 rfl rfl)
theorem test_hbcrc (h : Obligations.HeartbeatsTickAndAreJudged) : Runs (.heartbeatRx { hbc 16 5 with block := [1] }) (prcOn 3 id []) :=
  ((h (prcOn 3 id []) (by decide)).2 { hbc 16 5 with block := [1] }).elim fun a k => Runs.thru k.1 rfl (((k.2 (prcOn 3 id []) (by decide)).2 (by decide)).2.1 rfl rfl (by decide))
theorem test_hbcrck (h : Obligations.HeartbeatsTickAndAreJudged) : Runs (.heartbeatRx { hbk 16 5 with block := [1] }) (prcOn 3 id []) :=
  ((h (prcOn 3 id []) (by decide)).2 { hbk 16 5 with block := [1] }).elim fun a k => Runs.thru k.1 (pairMsg_off _ _ a (by decide)) (((k.2 (prcOn 3 id []) (by decide)).2 (by decide)).2.2.1 (by decide) (by decide))
theorem test_hbsecond (h : Obligations.HeartbeatsTickAndAreJudged) : Runs (.heartbeatRx (hbk 16 5)) (prcOn 3 (fun p => { p with seen := [6] }) []) :=
  ((h (prcOn 3 (fun p => { p with seen := [6] }) []) (by decide)).2 (hbk 16 5)).elim fun a k => Runs.thru k.1 (pairMsg_off _ _ a (by decide)) (((k.2 (prcOn 3 (fun p => { p with seen := [6] }) []) (by decide)).2 (by decide)).2.2.2.1 (by decide) (by decide +kernel) rfl)
theorem test_hbver (h : Obligations.HeartbeatsTickAndAreJudged) : Runs (.heartbeatRx (hbc 32 5)) (prcOn 3 id []) :=
  ((h (prcOn 3 id []) (by decide)).2 (hbc 32 5)).elim fun a k => Runs.thru k.1 rfl ((((k.2 (prcOn 3 id []) (by decide)).2 (by decide)).2.2.2.2 (by decide +kernel) (.inl ⟨rfl, rfl⟩)).1 (by decide +kernel))
theorem test_hbmemb (h : Obligations.HeartbeatsTickAndAreJudged) : Runs (.heartbeatRx (hbc 16 1)) (prcOn 3 id []) :=
  ((h (prcOn 3 id []) (by decide)).2 (hbc 16 1)).elim fun a k => Runs.thru k.1 rfl ((((k.2 (prcOn 3 id []) (by decide)).2 (by decide)).2.2.2.2 (by decide +kernel) (.inl ⟨rfl, rfl⟩)).2.1 (by decide +kernel) (by decide +kernel))
theorem test_hbgood (h : Obligations.HeartbeatsTickAndAreJudged) : Runs (.heartbeatRx (hbc 16 5)) (prcOn 3 id []) :=
  ((h (prcOn 3 id []) (by decide)).2 (hbc 16 5)).elim fun a k => ((((k.2 (prcOn 3 id []) (by decide)).2 (by decide)).2.2.2.2 (by decide +kernel) (.inl ⟨rfl, rfl⟩)).2.2 (by decide +kernel) (by decide +kernel)).elim fun _ l => Runs.thru k.1 rfl l.1
theorem test_hbgoodk (h : Obligations.HeartbeatsTickAndAreJudged) : Runs (.heartbeatRx (hbk 16 5)) (prcOn 1 id []) :=
  ((h (prcOn 1 id []) (by decide)).2 (hbk 16 5)).elim fun a k => ((((k.2 (prcOn 1 id []) (by decide)).2 (by decide)).2.2.2.2 (by decide +kernel) (.inr ⟨by decide, rfl⟩)).2.2 (by decide +kernel) (by decide +kernel)).elim fun _ l => Runs.thru k.1 (pairMsg_off _ _ a (by decide)) l.1
theorem test_hbsingle (h : Obligations.HeartbeatsTickAndAreJudged) : Runs (.heartbeatRx (hbk 16 5)) (fld [(F.PRC_CTL_EN, 1)] on) :=
  ((h (fld [(F.PRC_CTL_EN, 1)] on) (by decide)).2 (hbk 16 5)).elim fun a k => Runs.thru k.1 (pairMsg_off _ _ a (by decide)) ((k.2 (fld [(F.PRC_CTL_EN, 1)] on) (by decide)).1 (by decide))
theorem test_silA (h : Obligations.SilenceLeasesAndSwitchOverHandTheRole) : Runs (.peerSilence) (prcOn 0 id []) :=
  Runs.eq ((h.1 (prcOn 0 id [])).1 (by decide) (by decide) (by decide))
theorem test_silW (h : Obligations.SilenceLeasesAndSwitchOverHandTheRole) : Runs (.peerSilence) (prcOn 1 id []) :=
  Runs.eq ((h.1 (prcOn 1 id [])).2.1 (by decide) (by decide) (by decide))
theorem test_solo (h : Obligations.SilenceLeasesAndSwitchOverHandTheRole) : Runs (.soloWaitExpiry) (prcOn 3 id [(F.PRC_CTL_SOLO_WAIT, 4), (F.PRC_STATUS_READY, 1)]) :=
  Runs.eq ((h.1 (prcOn 3 id [(F.PRC_CTL_SOLO_WAIT, 4), (F.PRC_STATUS_READY, 1)])).2.2.1 (by decide) (by decide) (by decide) (by decide) (by decide) (by decide) (by intro p k; cases k))
theorem test_lapse (h : Obligations.SilenceLeasesAndSwitchOverHandTheRole) : Runs (.leaseLapse) (prcOn 0 id [(F.PRC_STATUS_LEASE, 1)]) :=
  Runs.eq ((h.1 (prcOn 0 id [(F.PRC_STATUS_LEASE, 1)])).2.2.2.1 (by decide))
theorem test_gapend (h : Obligations.SilenceLeasesAndSwitchOverHandTheRole) : Runs (.takeoverGapEnd) (prcOn 2 id [(F.PRC_STATUS_GAP, 1)]) :=
  Runs.eq ((h.1 (prcOn 2 id [(F.PRC_STATUS_GAP, 1)])).2.2.2.2 (by decide) (by decide) (.inr (by decide)))
/-- A message of an Active in one part. -/
def msg (role parts : Nat) : PairHdr := ⟨0, role, 7, 0, parts, 8⟩
/-- A record of publication 2. -/
def rec2 : PubSyncRec := ⟨2, 0, 4, 5, 0⟩
theorem test_hotx (h : Obligations.SilenceLeasesAndSwitchOverHandTheRole) : Runs (.handoverTx) (prcOn 0 id [(F.PRC_STATUS_SWITCHING, 1)]) :=
  Runs.eq ((h.2 (prcOn 0 id [(F.PRC_STATUS_SWITCHING, 1)])).1 (by decide) rfl (by decide))
theorem test_swtono (h : Obligations.SilenceLeasesAndSwitchOverHandTheRole) : Runs (.switchTimeout) (prcOn 0 (fun p => { p with handAt := some 5 }) [(F.PRC_STATUS_SWITCHING, 1)]) :=
  Runs.eq ((h.2 (prcOn 0 (fun p => { p with handAt := some 5 }) [(F.PRC_STATUS_SWITCHING, 1)])).2.1 5 rfl (by decide) (by decide))
theorem test_swto (h : Obligations.SilenceLeasesAndSwitchOverHandTheRole) : Runs (.switchTimeout) (prcOn 0 (fun p => { p with handAt := some 5, lastHeard := 6, peerRole := some 1 }) [(F.PRC_STATUS_SWITCHING, 1)]) :=
  Runs.eq ((h.2 (prcOn 0 (fun p => { p with handAt := some 5, lastHeard := 6, peerRole := some 1 }) [(F.PRC_STATUS_SWITCHING, 1)])).2.2.1 5 rfl (by decide) (by decide) rfl (by decide))
theorem test_horx (h : Obligations.SilenceLeasesAndSwitchOverHandTheRole) : Runs (.handoverRx (msg 0 1) [rec2]) (prcOn 1 id [(F.PRC_STATUS_ALIGNED, 1)]) :=
  ((h.2 (prcOn 1 id [(F.PRC_STATUS_ALIGNED, 1)])).2.2.2 (msg 0 1) [rec2]).elim fun a k => Runs.thru k.1 (pairMsg_off _ _ a (by decide)) ((k.2 (prcOn 1 id [(F.PRC_STATUS_ALIGNED, 1)])).1 (by decide) (by decide) (by decide) (by decide) (by decide))
theorem test_horxno (h : Obligations.SilenceLeasesAndSwitchOverHandTheRole) : Runs (.handoverRx (msg 0 1) [rec2]) (prcOn 1 id []) :=
  ((h.2 (prcOn 1 id [])).2.2.2 (msg 0 1) [rec2]).elim fun a k => Runs.thru k.1 (pairMsg_off _ _ a (by decide)) ((k.2 (prcOn 1 id [])).2 (by decide))
theorem test_digno (h : Obligations.PairMessagesAreTakenByRole) : Runs (.digestRx (msg 0 1) []) (prcOn 0 id []) :=
  ((h.2 (prcOn 0 id []) (msg 0 1)).2.2.1 []).elim fun a k => Runs.thru k.1 (h.1 (prcOn 0 id []) _ a (by decide)) ((k.2 (prcOn 0 id [])).1 (by decide))
theorem test_imgno (h : Obligations.PairMessagesAreTakenByRole) : Runs (.imageRx (msg 0 1) 0 5 []) (prcOn 0 id []) :=
  ((h.2 (prcOn 0 id []) (msg 0 1)).1 0 5 []).elim fun a k => Runs.thru k.1 (h.1 (prcOn 0 id []) _ a (by decide)) ((k.2 (prcOn 0 id [])).1 (by decide))
theorem test_psno (h : Obligations.PairMessagesAreTakenByRole) : Runs (.pubSyncRx (msg 0 1) [rec2]) (prcOn 0 id []) :=
  ((h.2 (prcOn 0 id []) (msg 0 1)).2.1 [rec2]).elim fun a k => Runs.thru k.1 (h.1 (prcOn 0 id []) _ a (by decide)) ((k.2 (prcOn 0 id [])).1 (by decide))
theorem test_img (h : Obligations.PairMessagesAreTakenByRole) : Runs (.imageRx (msg 0 1) 0 5 [1]) (prcOn 1 (fun p => { p with images := [⟨0, 1, []⟩, ⟨1, 1, []⟩] }) []) :=
  ((h.2 (prcOn 1 (fun p => { p with images := [⟨0, 1, []⟩, ⟨1, 1, []⟩] }) []) (msg 0 1)).1 0 5 [1]).elim fun a k => ((k.2 (prcOn 1 (fun p => { p with images := [⟨0, 1, []⟩, ⟨1, 1, []⟩] }) [])).2.1 (by decide) (by decide) (by decide) (by decide) (by decide)).elim fun _ l => Runs.thru k.1 (h.1 (prcOn 1 (fun p => { p with images := [⟨0, 1, []⟩, ⟨1, 1, []⟩] }) []) _ a (by decide)) l.1
theorem test_imgpart (h : Obligations.PairMessagesAreTakenByRole) : Runs (.imageRx (msg 0 2) 0 5 [1]) (at_ (ms 6) (prcOn 1 (fun p => { p with parts := [⟨7, 2, [], 3⟩] }) [])) :=
  ((h.2 (at_ (ms 6) (prcOn 1 (fun p => { p with parts := [⟨7, 2, [], 3⟩] }) [])) (msg 0 2)).1 0 5 [1]).elim fun a k => Runs.thru k.1 (h.1 (at_ (ms 6) (prcOn 1 (fun p => { p with parts := [⟨7, 2, [], 3⟩] }) [])) _ a (by decide)) ((k.2 (at_ (ms 6) (prcOn 1 (fun p => { p with parts := [⟨7, 2, [], 3⟩] }) []))).2.2 ⟨7, 2, [], 3⟩ (by decide) (by decide) (by decide) (by decide) (by decide) (by decide) (by decide))
theorem test_ps (h : Obligations.PairMessagesAreTakenByRole) : Runs (.pubSyncRx (msg 0 1) [rec2]) (prcOn 1 id []) :=
  ((h.2 (prcOn 1 id []) (msg 0 1)).2.1 [rec2]).elim fun a k => ((k.2 (prcOn 1 id [])).2 rec2 rfl (by decide) (by decide) (by decide) (by decide) (by decide)).elim fun _ l => Runs.thru k.1 (h.1 (prcOn 1 id []) _ a (by decide)) l.1
theorem test_dig (h : Obligations.PairMessagesAreTakenByRole) : Runs (.digestRx (msg 0 1) [⟨0, 9, 5⟩]) (prcOn 1 id []) :=
  ((h.2 (prcOn 1 id []) (msg 0 1)).2.2.1 [⟨0, 9, 5⟩]).elim fun a k => ((k.2 (prcOn 1 id [])).2 ⟨0, 9, 5⟩ rfl (by decide) (by decide) (by decide) (by decide) (by decide) (by decide)).elim fun _ l => Runs.thru k.1 (h.1 (prcOn 1 id []) _ a (by decide)) l.1
theorem test_digunp (h : Obligations.PairMessagesAreTakenByRole) : Runs (.digestUnpaired 0 5) (prcOn 0 (fun p => { p with own := [⟨0, 5, 9, 3⟩] }) []) :=
  ((h.2 (prcOn 0 (fun p => { p with own := [⟨0, 5, 9, 3⟩] }) []) (msg 0 1)).2.2.2.2.1 0 5 ⟨0, 5, 9, 3⟩ (by decide)).elim fun u k => ⟨_, k.1⟩
theorem test_imreq (h : Obligations.PairMessagesAreTakenByRole) : Runs (.imageReqRx (msg 1 1) 3) (prcOn 0 id []) :=
  ((h.2 (prcOn 0 id []) (msg 1 1)).2.2.2.2.2.1 3).elim fun a k => ((k.2 (prcOn 0 id [])).2 (by decide) (by decide) (by decide)).elim fun _ l => Runs.thru k.1 (h.1 (prcOn 0 id []) _ a (by decide)) l.1
theorem test_imreqno (h : Obligations.PairMessagesAreTakenByRole) : Runs (.imageReqRx (msg 1 1) 3) (prcOn 1 id []) :=
  ((h.2 (prcOn 1 id []) (msg 1 1)).2.2.2.2.2.1 3).elim fun a k => Runs.thru k.1 (h.1 (prcOn 1 id []) _ a (by decide)) ((k.2 (prcOn 1 id [])).1 (by decide))
theorem test_parto (h : Obligations.PairMessagesAreTakenByRole) : Runs (.partTimeout 7) (prcOn 1 (fun p => { p with parts := [⟨7, 2, [], 3⟩] }) []) :=
  Runs.eq ((h.2 (prcOn 1 (fun p => { p with parts := [⟨7, 2, [], 3⟩] }) []) (msg 1 1)).2.2.2.2.2.2.1 7 ⟨7, 2, [], 3⟩ (by decide))
/-- The island running in a state, its record changed. -/
def isl (ist : Nat) (f : Island → Island) (l : List (Field × Nat)) : State := fld ([(F.TMC_MODULE_ID_SAFETY_EN, 1), (F.PSC_STATUS_ISTATE, ist)] ++ l) (sup (fun p => { p with vioDriven := true }) { on with psc := f { powered := true } })
/-- Samples with nothing driven. -/
def inp : IslandInputs := ⟨[0, 0, 0, 0], [0, 0, 0, 0], [3, 3, 3, 3], []⟩
theorem test_iscy0 (h : Obligations.IslandCyclesFaultsAndTests) : Runs (.islandCycle inp) (isl 1 id []) :=
  Runs.ofU ((h.1 (isl 1 id []) (by decide)).1 inp (by decide))
theorem test_iscy (h : Obligations.IslandCyclesFaultsAndTests) : Runs (.islandCycle inp) (isl 4 id []) :=
  Runs.eq ((h.1 (isl 4 id []) (by decide)).2.1 inp (by decide))
theorem test_iscyp (h : Obligations.IslandCyclesFaultsAndTests) : Runs (.islandCycle inp) (isl 4 (fun p => { p with mustProof := true }) []) :=
  Runs.eq ((h.1 (isl 4 (fun p => { p with mustProof := true }) []) (by decide)).2.1 inp (by decide))
theorem test_isfl (h : Obligations.IslandCyclesFaultsAndTests) : Runs (.islandFault .lockstep) (isl 4 id []) :=
  Runs.eq (((h.1 (isl 4 id []) (by decide)).2.2.1 (by decide) (by decide)).1)
theorem test_isfm (h : Obligations.IslandCyclesFaultsAndTests) : Runs (.islandFault .memory) (isl 4 id []) :=
  Runs.eq (((h.1 (isl 4 id []) (by decide)).2.2.1 (by decide) (by decide)).2.1)
theorem test_isfc (h : Obligations.IslandCyclesFaultsAndTests) : Runs (.islandFault .clock) (isl 4 id []) :=
  Runs.eq (((h.1 (isl 4 id []) (by decide)).2.2.1 (by decide) (by decide)).2.2.1)
theorem test_isfp (h : Obligations.IslandCyclesFaultsAndTests) : Runs (.islandFault .paramCrc) (isl 4 (fun p => { p with haveParam := true }) []) :=
  Runs.eq (((h.1 (isl 4 (fun p => { p with haveParam := true }) []) (by decide)).2.2.1 (by decide) (by decide)).2.2.2 rfl (by decide +kernel))
theorem test_isdone (h : Obligations.IslandCyclesFaultsAndTests) : Runs (.islandSelftestDone) (isl 1 id []) :=
  Runs.eq ((h.1 (isl 1 id []) (by decide)).2.2.2 (by decide))
theorem test_isdonep (h : Obligations.IslandCyclesFaultsAndTests) : Runs (.islandSelftestDone) (isl 1 (fun p => { p with haveParam := true }) []) :=
  Runs.eq ((h.1 (isl 1 (fun p => { p with haveParam := true }) []) (by decide)).2.2.2 (by decide))
theorem test_tpa (h : Obligations.IslandCyclesFaultsAndTests) : Runs (.testPulse false) (isl 4 id []) :=
  Runs.eq ((h.2 (isl 4 id []) (by decide)).1 false (by decide) (by decide))
theorem test_tpb (h : Obligations.IslandCyclesFaultsAndTests) : Runs (.testPulse true) (isl 4 (fun p => { p with time := 600 }) []) :=
  Runs.eq ((h.2 (isl 4 (fun p => { p with time := 600 }) []) (by decide)).1 true (by decide) (by decide))
theorem test_cpw (h : Obligations.IslandCyclesFaultsAndTests) : Runs (.cpwUpdate) (isl 4 (fun p => { p with cpwQueue := [(5, 3), (6, 2)] }) []) :=
  Runs.of ((h.2 (isl 4 (fun p => { p with cpwQueue := [(5, 3), (6, 2)] }) []) (by decide)).2.1 5 3 [(6, 2)] rfl)
theorem test_cpwto (h : Obligations.IslandCyclesFaultsAndTests) : Runs (.cpwTimeout) (isl 4 id [(F.PSC_ARC_CTL_CPW_TIMEOUT, 0)]) :=
  Runs.eq ((h.2 (isl 4 id [(F.PSC_ARC_CTL_CPW_TIMEOUT, 0)]) (by decide)).2.2.1 (by decide))
theorem test_arct (h : Obligations.IslandCyclesFaultsAndTests) : Runs (.arcSelftest 0 3000) (isl 4 id [(F.PSC_ARC_CH_CFG_EN.nth 0, 1), (F.PSC_ARC_CTL_ARCT_PERIOD, 1), (F.PSC_ARC_CH_CFG_LTEST.nth 0, 7)]) :=
  Runs.of ((h.2 (isl 4 id [(F.PSC_ARC_CH_CFG_EN.nth 0, 1), (F.PSC_ARC_CTL_ARCT_PERIOD, 1), (F.PSC_ARC_CH_CFG_LTEST.nth 0, 7)]) (by decide)).2.2.2.1 0 3000 (by decide) (by decide) (by decide) (by decide))
theorem test_arctf (h : Obligations.IslandCyclesFaultsAndTests) : Runs (.arcSelftest 1 3) (isl 4 (fun p => { p with time := 100, arc := [(1, { fails := 1 })] }) [(F.PSC_ARC_CH_CFG_EN.nth 1, 1), (F.PSC_ARC_CTL_ARCT_PERIOD, 1), (F.PSC_ARC_CH_CFG_LTEST.nth 1, 7)]) :=
  Runs.of ((h.2 (isl 4 (fun p => { p with time := 100, arc := [(1, { fails := 1 })] }) [(F.PSC_ARC_CH_CFG_EN.nth 1, 1), (F.PSC_ARC_CTL_ARCT_PERIOD, 1), (F.PSC_ARC_CH_CFG_LTEST.nth 1, 7)]) (by decide)).2.2.2.1 1 3 (by decide) (by decide) (by decide) (by decide))
theorem test_fbok (h : Obligations.IslandCyclesFaultsAndTests) : Runs (.feedbackCheck 1 1) (isl 4 (fun p => { p with time := 900, outs := [(1, { changedAt := some 3 })] }) []) :=
  Runs.eq (((h.2 (isl 4 (fun p => { p with time := 900, outs := [(1, { changedAt := some 3 })] }) []) (by decide)).2.2.2.2.1 1 1 3 rfl (by decide)).1 (.inr (by decide)))
theorem test_fbbad (h : Obligations.IslandCyclesFaultsAndTests) : Runs (.feedbackCheck 1 1) (isl 4 (fun p => { p with time := 900, outs := [(1, { on := true, a := true, b := true, changedAt := some 3 })] }) []) :=
  (((h.2 (isl 4 (fun p => { p with time := 900, outs := [(1, { on := true, a := true, b := true, changedAt := some 3 })] }) []) (by decide)).2.2.2.2.1 1 1 3 rfl (by decide)).2 (by decide) (by decide)).elim fun u k => ⟨_, k.1⟩
theorem test_pfno (h : Obligations.IslandCyclesFaultsAndTests) : Runs (.proofTestStep 1 false) (isl 3 (fun p => { p with proof := some .start, proofK := 1 }) []) :=
  Runs.eq (((h.2 (isl 3 (fun p => { p with proof := some .start, proofK := 1 }) []) (by decide)).2.2.2.2.2 1 false (by decide) rfl).1 (.inl rfl))
theorem test_pfend (h : Obligations.IslandCyclesFaultsAndTests) : Runs (.proofTestStep 1 true) (isl 3 (fun p => { p with proof := some .start, proofK := 1, proofStep := 4 }) []) :=
  Runs.eq (((h.2 (isl 3 (fun p => { p with proof := some .start, proofK := 1, proofStep := 4 }) []) (by decide)).2.2.2.2.2 1 true (by decide) rfl).2.2.1 (by decide) (by decide) (by decide))
theorem test_pfwait (h : Obligations.IslandCyclesFaultsAndTests) : Runs (.proofTestStep 1 true) (isl 3 (fun p => { p with proof := some .start, proofK := 1 }) []) :=
  Runs.eq (((h.2 (isl 3 (fun p => { p with proof := some .start, proofK := 1 }) []) (by decide)).2.2.2.2.2 1 true (by decide) rfl).2.1 (by decide) (by decide))
theorem test_pfst (h : Obligations.IslandCyclesFaultsAndTests) : Runs (.proofTestStep 1 true) (isl 3 (fun p => { p with proof := some .start, proofK := 1, time := 400 }) []) :=
  (((h.2 (isl 3 (fun p => { p with proof := some .start, proofK := 1, time := 400 }) []) (by decide)).2.2.2.2.2 1 true (by decide) rfl).2.2.2 (by decide) (by decide) (by decide)).elim fun t k => ⟨t, k.1⟩
/-- A group key. -/
def gk : KeySlot := ⟨1, 5, List.replicate 32 9, 100, 3600⟩
/-- A node of the Dome store changed. -/
def dnode (i : Nat) (n : Node) (s : State) : State := s.modNode i (fun _ => n)
/-- An attempt in which every block decodes with one error, and its root; the Dome of a cold start fused for it. -/
def pufTry : List PufBlock := List.replicate 8 ⟨7, some 2⟩
def pufDom : State := sup (fun p => { p with inCold := false, pwrok := true }) ((dnode 2 { kind := 2 } { on with dom := { on.dom with helper := List.replicate 8 (Config.bchSyndrome 5), check := checkOf (rootOf (List.replicate 8 (1, 5))) } }).setF F.DOM_STATUS_DSTATE 0)
theorem pufTry_ok : pufDom.attemptOk pufTry = true := by
  have d : pufDom.decoded pufTry = List.replicate 8 (1, 5) := by
    have w : weight 2 = 1 := by decide +kernel
    have p : pufDecode ⟨7, some 2⟩ (Config.bchSyndrome 5) = some (1, 5) := by simp [pufDecode, w]
    show ((List.replicate 8 (⟨7, some 2⟩ : PufBlock)).zip (List.replicate 8 (Config.bchSyndrome 5))).filterMap _ = _
    simp [List.replicate, p]
  have c : pufDom.dom.check = checkOf (rootOf (List.replicate 8 (1, 5))) := rfl
  rw [State.attemptOk, d, c]; simp [pufTry]
theorem test_dome1 (h : Obligations.DomeEventsChangeItsState) : Runs (.domeRestart [[⟨1, some 1⟩, ⟨0, none⟩], pufTry]) (pufDom) :=
  ((h (pufDom)).1 [[⟨1, some 1⟩, ⟨0, none⟩], pufTry] (by decide) rfl rfl (.inl ⟨pufTry, .tail _ (.head _), pufTry_ok⟩)).elim fun u k => k.elim fun mx k => k.elim fun tt k => k.elim fun n k => ⟨_, k.1⟩
theorem test_dome3 (h : Obligations.DomeEventsChangeItsState) : Runs (.domeRestart [[], [], []]) (sup (fun p => { p with inCold := false, pwrok := true }) ((dnode 2 { kind := 2 } on).setF F.DOM_STATUS_DSTATE 0)) :=
  ((h (sup (fun p => { p with inCold := false, pwrok := true }) ((dnode 2 { kind := 2 } on).setF F.DOM_STATUS_DSTATE 0))).1 [[], [], []] (by decide) rfl rfl (.inr (by decide))).elim fun u k => k.elim fun mx k => k.elim fun tt k => k.elim fun n k => ⟨_, k.1⟩
theorem test_kact (h : Obligations.DomeEventsChangeItsState) : Runs (.keyActivate 20) (dnode 20 { kind := 4, nxt := some gk } (on.setF F.DOM_STATUS_DSTATE 1)) :=
  Runs.eq (((h (dnode 20 { kind := 4, nxt := some gk } (on.setF F.DOM_STATUS_DSTATE 1))).2.1 20 gk (by decide +kernel)).1)
theorem test_kexp (h : Obligations.DomeEventsChangeItsState) : Runs (.keyExpire 20) (dnode 20 { kind := 4, cur := some gk } (on.setF F.DOM_STATUS_DSTATE 1)) :=
  Runs.eq (((h (dnode 20 { kind := 4, cur := some gk } (on.setF F.DOM_STATUS_DSTATE 1))).2.2.1 20 gk (by decide +kernel)).1)
theorem test_chexp (h : Obligations.DomeEventsChangeItsState) : Runs (.debugChallengeExpiry) ({ on with dom := { on.dom with challenge := some (4, 0) } }) :=
  Runs.eq ((h ({ on with dom := { on.dom with challenge := some (4, 0) } })).2.2.2.1 4 0 rfl)
theorem test_dpc (h : Obligations.DomeEventsChangeItsState) : Runs (.debugPortClose) (on) :=
  (h (on)).2.2.2.2.1.elim fun t k => ⟨t, k.1⟩
theorem test_sweep (h : Obligations.DomeEventsChangeItsState) : Runs (.keySweepDone) (dnode 20 { kind := 4, destroyed := true } on) :=
  Runs.eq ((h (dnode 20 { kind := 4, destroyed := true } on)).2.2.2.2.2 ⟨(20, { kind := 4, destroyed := true }), by decide +kernel, by decide +kernel⟩)
theorem test_mbxdown (h : Obligations.MailboxAndTlsCarryRequests) : Runs (.mbxDoorbell .tmc 0 1) (sup (fun p => { p with coresUp := false }) on) :=
  Runs.eq ((h.1 (sup (fun p => { p with coresUp := false }) on) .tmc 0 1 (by decide) (by decide) (by decide)).1 rfl)
theorem test_mbxdb (h : Obligations.MailboxAndTlsCarryRequests) : Runs (.mbxDoorbell .tmc 0 1) (on) :=
  Runs.eq (((h.1 (on) .tmc 0 1 (by decide) (by decide) (by decide)).2.1 rfl (by decide)).1 (by decide) (by decide))
theorem test_mbxign (h : Obligations.MailboxAndTlsCarryRequests) : Runs (.mbxDoorbell .tmc 0 1) (on.setF (F.TMC_MBX_STATUS_REQ_BUSY.pg 0) 1) :=
  Runs.eq (((h.1 (on.setF (F.TMC_MBX_STATUS_REQ_BUSY.pg 0) 1) .tmc 0 1 (by decide) (by decide) (by decide)).2.1 rfl (by decide)).2.1 (by decide) (by decide))
theorem test_mbx0 (h : Obligations.MailboxAndTlsCarryRequests) : Runs (.mbxDoorbell .tmc 0 2) (on) :=
  Runs.eq (((h.1 (on) .tmc 0 2 (by decide) (by decide) (by decide)).2.1 rfl (by decide)).2.2 (by decide))
theorem test_mbxack (h : Obligations.MailboxAndTlsCarryRequests) : Runs (.mbxAck .tmc 0 1) (on.modSess 0 (fun x => { x with posted := some ⟨1, 0, [1]⟩, replies := [⟨2, 0, [7, 8]⟩] })) :=
  Runs.eq (((h.1 (on.modSess 0 (fun x => { x with posted := some ⟨1, 0, [1]⟩, replies := [⟨2, 0, [7, 8]⟩] })) .tmc 0 1 (by decide) (by decide) (by decide)).2.2 (by decide)).1 (by decide) (by decide))
theorem test_mbxack0 (h : Obligations.MailboxAndTlsCarryRequests) : Runs (.mbxAck .tmc 0 1) (on) :=
  Runs.eq (((h.1 (on) .tmc 0 1 (by decide) (by decide) (by decide)).2.2 (by decide)).2 (.inr rfl))
/-- The Dome READY with the transport node, and an anchor of usage BUNDLE at node 4. -/
def domUp : State := (on.createTop.modNode 4 (fun _ => { kind := 5, depth := 1, key := 55, usage := 1, mac := Config.hmac384 on.dom.anchorKey [4, 55, 1] })).setF F.DOM_STATUS_DSTATE 1
/-- A tool's offer. -/
def offer : TlsOffer := ⟨true, linkLocal (Config.factoryMac % 2 ^ 48), 7447, false, false, false, false, true, true, true, 55, true, [1]⟩
/-- An open TLS session. -/
def tlsOpen (b : Octets) (s : State) : State := s.modSess 129 (fun _ => { opened := true, buffer := b })
theorem domUp_anchors : domUp.anchors 0 [4, 5, 6] = [55] := anchor_of rfl (by decide +kernel)
theorem domUp_keys : domUp.clientKeys = [55] := by
  have a : domUp.tmc.active = none := rfl
  simp [State.clientKeys, a, domUp_anchors]
theorem domUp_port : domUp.tlsPort = true := by
  have d : domUp.dstate = 1 := by decide +kernel
  simp [State.tlsPort, d, domUp_keys]
theorem test_tlscon (h : Obligations.MailboxAndTlsCarryRequests) : Runs (.tlsConnect offer) (domUp) :=
  Runs.of ((h.2 (domUp)).1 offer 128 domUp_port rfl rfl rfl rfl rfl rfl rfl rfl rfl rfl (by simp [domUp_keys, offer]) (by decide +kernel) (by decide +kernel))
theorem test_tlsno (h : Obligations.MailboxAndTlsCarryRequests) : Runs (.tlsConnect { offer with psk := true }) (domUp) :=
  Runs.eq ((h.2 (domUp)).2.2.1 { offer with psk := true } (by simp [State.offerOk]))
theorem test_tlspk (h : Obligations.MailboxAndTlsCarryRequests) : Runs (.tlsPacket 129 [5]) (tlsOpen [4] on) :=
  Runs.of (((h.2 (tlsOpen [4] on)).2.1 129 (by decide) (by decide) (by decide)).1 [5] (by decide))
theorem test_tlspk2 (h : Obligations.MailboxAndTlsCarryRequests) : Runs (.tlsPacket 129 (le 13 5)) (tlsOpen (le 4 0x15046) on) :=
  Runs.eq (((h.2 (tlsOpen (le 4 0x15046) on)).2.1 129 (by decide) (by decide) (by decide)).2.1 (le 13 5) (by decide))
theorem test_tlsidle (h : Obligations.MailboxAndTlsCarryRequests) : Runs (.tlsIdleTimeout 129) (tlsOpen [4] on) :=
  Runs.eq (((h.2 (tlsOpen [4] on)).2.1 129 (by decide) (by decide) (by decide)).2.2.1)
theorem test_tlscl (h : Obligations.MailboxAndTlsCarryRequests) : Runs (.tlsSessionClose 129) (tlsOpen [4] on) :=
  Runs.eq (((h.2 (tlsOpen [4] on)).2.1 129 (by decide) (by decide) (by decide)).2.2.2)
/-- A request of slice 5's mailbox. -/
def q5 : Req := ⟨5, 1, none⟩
/-- A running long command. -/
def job (g op : Nat) : Job := ⟨g, op, q0, 0, 0, true, []⟩
/-- The state with it running. -/
def busy (g op : Nat) (s : State) : State := { s with tmc := { s.tmc with jobs := [job g op] } }
theorem test_shcommit (h : Obligations.SharedChecksRefuseInOrder) : Runs (.xferOpen q0 0) (busy 1 0x0112 on) :=
  Runs.eq (((h (busy 1 0x0112 on) q0 stBusy (.xferOpen q0 0) 0x0105 (le 4 0) false (by decide)).2 (by decide) (by decide)).2)
theorem test_shten (h : Obligations.SharedChecksRefuseInOrder) : Runs (.logicAbort q5) (on) :=
  Runs.eq (((h (on) q5 stNotPermitted (.logicAbort q5) 0x0609 [] false (by decide)).2 (by decide) (by decide)).2)
theorem test_shten2 (h : Obligations.SharedChecksRefuseInOrder) : Runs (.domIdentity q5) (on) :=
  Runs.eq (((h (on) q5 stNotPermitted (.domIdentity q5) 0x0B02 [] false (by decide)).2 (by decide) (by decide)).2)
theorem test_shsafe (h : Obligations.SharedChecksRefuseInOrder) : Runs (.safetyRestart q0) (on.setF F.TMC_MODULE_ID_SAFETY_EN 0) :=
  Runs.eq (((h (on.setF F.TMC_MODULE_ID_SAFETY_EN 0) q0 stUnsupported (.safetyRestart q0) 0x0A04 [] true (by decide)).2 (by decide) (by decide)).2)
theorem test_shbusy (h : Obligations.SharedChecksRefuseInOrder) : Runs (.ageingMeasure q0) (busy 12 0x0C04 on) :=
  Runs.eq (((h (busy 12 0x0C04 on) q0 stBusy (.ageingMeasure q0) 0x0C04 [] true (by decide)).2 (by decide) (by decide)).2)
theorem test_shdown (h : Obligations.SharedChecksRefuseInOrder) : Runs (.measRead q0) (sup (fun p => { p with coresUp := false }) on) :=
  Runs.eq ((h (sup (fun p => { p with coresUp := false }) on) q0 stBusy (.measRead q0) 0x0B0A [] false (by decide)).1 (by decide))
/-- A transfer object of 100 octets. -/
def xf (s : State) : State := { s with tmc := { s.tmc with handles := 3, xfer := [(3, ⟨100, []⟩)] } }
theorem test_hello (h : Obligations.SystemAndBundleCommandsComplete) : Runs (.sysHello q0) (on) :=
  ((h.1 (on) q0).1 (adm rfl rfl rfl (by decide))).elim fun ps k => ⟨_, k.2⟩
theorem test_jobs (h : Obligations.SystemAndBundleCommandsComplete) : Runs (.sysJobs q0) (busy 1 0x0110 on) :=
  ((h.1 (busy 1 0x0110 on) q0).2.1 (adm rfl rfl rfl (by decide))).elim fun ps k => k.elim fun n k => ⟨_, k.2.2⟩
theorem test_cancelno (h : Obligations.SystemAndBundleCommandsComplete) : Runs (.sysCancel q0 1) (on) :=
  ((h.1 (on) q0).2.2.1 1 (adm rfl rfl rfl (by decide)) (by decide)).elim fun u k => ⟨_, k.1⟩
theorem test_cancel (h : Obligations.SystemAndBundleCommandsComplete) : Runs (.sysCancel q0 1) (busy 1 0x0110 on) :=
  Runs.eq ((h.1 (busy 1 0x0110 on) q0).2.2.2.1 1 (job 1 0x0110) (adm rfl rfl rfl (by decide)) (by decide))
theorem test_reset0 (h : Obligations.SystemAndBundleCommandsComplete) : Runs (.sysReset q0 0) (on) :=
  Runs.eq (((h.1 (on) q0).2.2.2.2.1 (adm rfl rfl rfl (by decide))))
theorem test_reset1 (h : Obligations.SystemAndBundleCommandsComplete) : Runs (.sysReset q0 1) (on) :=
  Runs.eq ((h.1 (on) q0).2.2.2.2.2.1 (adm rfl rfl rfl (by decide)))
theorem test_xopen (h : Obligations.SystemAndBundleCommandsComplete) : Runs (.xferOpen q0 9) (on) :=
  Runs.eq ((h.1 (on) q0).2.2.2.2.2.2.2.1 9 (adm rfl rfl rfl (by decide)) (by decide) (by decide) (by decide))
theorem test_xwr (h : Obligations.SystemAndBundleCommandsComplete) : Runs (.xferWrite q0 3 1 [7, 8]) (xf on) :=
  Runs.eq ((h.1 (xf on) q0).2.2.2.2.2.2.2.2.1 3 1 [7, 8] _ (adm rfl rfl rfl (by decide)) rfl (by decide) (by decide) (by decide))
theorem test_xrd (h : Obligations.SystemAndBundleCommandsComplete) : Runs (.xferRead q0 3 0 4) (xf on) :=
  Runs.eq ((h.1 (xf on) q0).2.2.2.2.2.2.2.2.2.1 3 0 4 _ (adm rfl rfl rfl (by decide)) rfl (by decide) (by decide))
theorem test_xcl (h : Obligations.SystemAndBundleCommandsComplete) : Runs (.xferClose q0 3) (xf on) :=
  Runs.eq ((h.1 (xf on) q0).2.2.2.2.2.2.2.2.2.2 3 _ (adm rfl rfl rfl (by decide)) rfl (by decide))
/-- A pending bundle. -/
def pend (s : State) : State := { s with tmc := { s.tmc with pending := some bundle0 } }
theorem test_bstage (h : Obligations.SystemAndBundleCommandsComplete) : Runs (.bundleStage q0 ⟨false, 3, 50⟩ ⟨[], [], none, 0, none⟩) (xf on) :=
  Runs.eq ((h.2 (xf on) q0).1 ⟨false, 3, 50⟩ ⟨[], [], none, 0, none⟩ (adm rfl rfl rfl (by decide)) (by decide) (by decide))
theorem test_bact0 (h : Obligations.SystemAndBundleCommandsComplete) : Runs (.bundleActivate q0 0) (pend on) :=
  Runs.eq (((h.2 (pend on) q0).2.1 0 (adm rfl rfl rfl (by decide)) (by decide) (by decide)).1 rfl)
theorem test_bact1 (h : Obligations.SystemAndBundleCommandsComplete) : Runs (.bundleActivate q0 1) (pend on) :=
  Runs.eq (((h.2 (pend on) q0).2.1 1 (adm rfl rfl rfl (by decide)) (by decide) (by decide)).2 rfl)
theorem test_bcommit (h : Obligations.SystemAndBundleCommandsComplete) : Runs (.bundleCommit q0) (pend on) :=
  Runs.eq ((h.2 (pend on) q0).2.2.1 (adm rfl rfl rfl (by decide)) (by decide) (by decide))
theorem test_bdisc (h : Obligations.SystemAndBundleCommandsComplete) : Runs (.bundleDiscard q0) (pend on) :=
  Runs.eq ((h.2 (pend on) q0).2.2.2.1 (adm rfl rfl rfl (by decide)) (by decide))
theorem test_bstat (h : Obligations.SystemAndBundleCommandsComplete) : Runs (.bundleStatus q0) (pend on) :=
  ((h.2 (pend on) q0).2.2.2.2.2 (adm rfl rfl rfl (by decide))).elim fun ps k => ⟨_, k.2.2⟩
/-- Parameters of slice 1. -/
def sp1 : SliceParams := ⟨1, [77, 78], 1, [(0, 4)], 16, 8, 9, 0, 0⟩
/-- Slice 1 with its profile, unconfigured. -/
def prof (s : State) : State := sltw 0 1 [2 ^ 52 + 2 ^ 51] s
/-- Slice 1 in a state. -/
def sst (n : Nat) (s : State) : State := s.modSlice 1 (fun x => { x with state := n })
theorem test_scr (h : Obligations.SliceCommandsComplete) : Runs (.sliceCreate q0 sp1) (prof on) :=
  ((h.1 (prof on) q0 1 (by decide)).1 sp1 rfl (adm rfl rfl rfl (by decide)) (by decide) (by decide) (by decide) (by decide) (by decide) (by decide) (by decide) (by decide) (by decide +kernel)).elim fun t k => ⟨_, k.1⟩
theorem test_sring (h : Obligations.SliceCommandsComplete) : Runs (.sliceRing q0 1 5 131072) (sst 1 (wide (ringAt 5 1 1 on))) :=
  Runs.eq ((h.1 (sst 1 (wide (ringAt 5 1 1 on))) q0 1 (by decide)).2.1 5 131072 5 (adm rfl rfl rfl (by decide)) (by decide) (by decide) (by decide) (by decide))
theorem test_sbind (h : Obligations.SliceCommandsComplete) : Runs (.sliceBind q0 1 true 99) (sst 1 on) :=
  Runs.eq (((h.1 (sst 1 on) q0 1 (by decide)).2.2.1 true 99 (adm rfl rfl rfl (by decide)) (by decide) (by decide) (by decide)).1 rfl (by decide) (by decide) (by decide))
theorem test_sbusy (h : Obligations.SliceCommandsComplete) : Runs (.sliceBind q0 1 true 99) (sst 3 on) :=
  Runs.eq ((h.1 (sst 3 on) q0 1 (by decide)).2.2.2.1 true 99 (adm rfl rfl rfl (by decide)) (by decide) (by decide))
theorem test_sunb (h : Obligations.SliceCommandsComplete) : Runs (.sliceBind q0 1 false 99) (sst 1 (sltw 1 4 [2 ^ 63 + place 62 56 1 + 99] (sltw 1 3 [2 ^ 63 + place 62 56 1 + 98] on))) :=
  Runs.eq (((h.1 (sst 1 (sltw 1 4 [2 ^ 63 + place 62 56 1 + 99] (sltw 1 3 [2 ^ 63 + place 62 56 1 + 98] on))) q0 1 (by decide)).2.2.1 false 99 (adm rfl rfl rfl (by decide)) (by decide) (by decide) (by decide)).2 _ rfl rfl (.inl (by decide)))
theorem test_sstart (h : Obligations.SliceCommandsComplete) : Runs (.sliceStart q0 1) (sst 1 (ringAt 5 1 1 on)) :=
  Runs.eq (((h.1 (sst 1 (ringAt 5 1 1 on)) q0 1 (by decide)).2.2.2.2.1 (adm rfl rfl rfl (by decide)) (by decide)).1 (by decide) (by decide))
theorem test_sstart4 (h : Obligations.SliceCommandsComplete) : Runs (.sliceStart q0 1) (sst 4 (ringAt 5 1 1 on)) :=
  Runs.eq (((h.1 (sst 4 (ringAt 5 1 1 on)) q0 1 (by decide)).2.2.2.2.1 (adm rfl rfl rfl (by decide)) (by decide)).2 (by decide))
theorem test_squi (h : Obligations.SliceCommandsComplete) : Runs (.sliceQuiesce q0 1) (sst 2 (ringAt 5 1 1 on)) :=
  Runs.eq ((h.1 (sst 2 (ringAt 5 1 1 on)) q0 1 (by decide)).2.2.2.2.2.1 (adm rfl rfl rfl (by decide)) (by decide) (by decide))
theorem test_sres (h : Obligations.SliceCommandsComplete) : Runs (.sliceReset q0 1) (sst 3 (ringAt 5 1 1 on)) :=
  Runs.eq ((h.1 (sst 3 (ringAt 5 1 1 on)) q0 1 (by decide)).2.2.2.2.2.2.1 (adm rfl rfl rfl (by decide)) (by decide) (by decide))
theorem test_srem (h : Obligations.SliceCommandsComplete) : Runs (.sliceRemove q0 1) (sst 2 (ringAt 5 1 1 on)) :=
  Runs.eq ((h.1 (sst 2 (ringAt 5 1 1 on)) q0 1 (by decide)).2.2.2.2.2.2.2.1 (adm rfl rfl rfl (by decide)) (by decide) (by decide))
theorem test_sfau (h : Obligations.SliceCommandsComplete) : Runs (.sliceFault q0 1) (sst 2 (ringAt 5 1 1 on)) :=
  Runs.eq ((h.1 (sst 2 (ringAt 5 1 1 on)) q0 1 (by decide)).2.2.2.2.2.2.2.2 (adm rfl rfl rfl (by decide)) (by decide) (by decide))
theorem test_sshare (h : Obligations.SliceCommandsComplete) : Runs (.sliceShare q0 1 20 7) (active 1 on) :=
  Runs.eq ((h.2 (active 1 on) q0 1 (by decide)).1 20 7 (adm rfl rfl rfl (by decide)) (by decide) (by decide) (by decide) (by decide) (by decide) (by decide) (.inr (by decide +kernel)))
theorem test_spv (h : Obligations.SliceCommandsComplete) : Runs (.slicePv q0 1 true 5) (sst 2 (prof on)) :=
  Runs.eq ((h.2 (sst 2 (prof on)) q0 1 (by decide)).2.1 true 5 (adm rfl rfl rfl (by decide)) (by decide) (by decide) (by decide) (by decide))
theorem test_sstat (h : Obligations.SliceCommandsComplete) : Runs (.sliceStatus q0 true 1) (active 1 on) :=
  Runs.eq ((h.2 (active 1 on) q0 1 (by decide)).2.2 true (adm rfl rfl rfl (by decide)))
theorem test_sstat5 (h : Obligations.SliceCommandsComplete) : Runs (.sliceStatus ⟨1, 4, none⟩ false 1) (active 1 on) :=
  Runs.eq ((h.2 (active 1 on) ⟨1, 4, none⟩ 1 (by decide)).2.2 false (adm rfl rfl rfl (by decide)))
/-- A GOOSE context of one member at I 1,000, with its map. -/
def newGoose : List Nat := [2 ^ 63 + 2 ^ 62, 2 ^ 56 + 1, 0, 0, place 63 56 1 + place 55 48 1, 0xFFFF * 2 ^ 48]
theorem test_sadd (h : Obligations.StreamLatticeAndGuardCommandsComplete) : Runs (.streamAdd q0 newGoose [2 ^ 31 + 1000]) (on) :=
  Runs.eq ((h.1 (on) q0 0).1 newGoose [2 ^ 31 + 1000] (adm rfl rfl rfl (by decide)) (by decide +kernel) (by decide) (by decide) (by decide) (by decide) (by decide) (by decide) (by decide) (by decide) (by decide) (by decide) (by decide))
theorem test_srm (h : Obligations.StreamLatticeAndGuardCommandsComplete) : Runs (.streamRemove q0 3) (cxs vWords (fun x => { x with health := 2 }) on) :=
  Runs.eq ((h.1 (cxs vWords (fun x => { x with health := 2 }) on) q0 3).2.1 (by decide) (by decide) (by decide) (adm rfl rfl rfl (by decide)))
theorem test_smode (h : Obligations.StreamLatticeAndGuardCommandsComplete) : Runs (.streamMode q0 3 true false) (cxs vWords (fun x => { x with health := 2 }) on) :=
  Runs.eq ((h.1 (cxs vWords (fun x => { x with health := 2 }) on) q0 3).2.2.1 (by decide) (by decide) true false (adm rfl rfl rfl (by decide)))
theorem test_sstatus (h : Obligations.StreamLatticeAndGuardCommandsComplete) : Runs (.streamStatus q0 true 3) (cxs vWords (fun x => { x with health := 2 }) on) :=
  Runs.eq ((h.1 (cxs vWords (fun x => { x with health := 2 }) on) q0 3).2.2.2.1 (by decide) true (adm rfl rfl rfl (by decide)))
theorem test_flist (h : Obligations.StreamLatticeAndGuardCommandsComplete) : Runs (.foreignList q0) ({ on with ing := { on.ing with foreign := [(7, { valid := true })] } }) :=
  Runs.eq ((h.1 ({ on with ing := { on.ing with foreign := [(7, { valid := true })] } }) q0 0).2.2.2.2.1 (adm rfl rfl rfl (by decide)))
theorem test_fclear (h : Obligations.StreamLatticeAndGuardCommandsComplete) : Runs (.foreignClear q0 7) ({ on with ing := { on.ing with foreign := [(7, { valid := true })] } }) :=
  Runs.eq ((h.1 ({ on with ing := { on.ing with foreign := [(7, { valid := true })] } }) q0 7).2.2.2.2.2 (.inr (by decide)) (adm rfl rfl rfl (by decide)))
theorem test_fclearall (h : Obligations.StreamLatticeAndGuardCommandsComplete) : Runs (.foreignClear q0 0x7FFF) ({ on with ing := { on.ing with foreign := [(7, { valid := true })] } }) :=
  Runs.eq ((h.1 ({ on with ing := { on.ing with foreign := [(7, { valid := true })] } }) q0 0x7FFF).2.2.2.2.2 (.inl rfl) (adm rfl rfl rfl (by decide)))
theorem test_lstat (h : Obligations.StreamLatticeAndGuardCommandsComplete) : Runs (.latticeStatus q0 true 1) (on) :=
  ((h.2 (on) q0 1).1 (by decide) true (adm rfl rfl rfl (by decide))).elim fun ps k => ⟨_, k.2.2⟩
theorem test_lspec (h : Obligations.StreamLatticeAndGuardCommandsComplete) : Runs (.latticeSpec q0 1 true) (on) :=
  Runs.eq ((h.2 (on) q0 1).2.1 (by decide) true (adm rfl rfl rfl (by decide)))
theorem test_ltol (h : Obligations.StreamLatticeAndGuardCommandsComplete) : Runs (.latticeTol q0 1 65535 255 255) (on) :=
  Runs.eq ((h.2 (on) q0 1).2.2.1 (by decide) 65535 255 255 (adm rfl rfl rfl (by decide)) (by decide) (by decide) (by decide))
theorem test_pstat (h : Obligations.StreamLatticeAndGuardCommandsComplete) : Runs (.phasorStatus q0 false) (on) :=
  ((h.2 (on) q0 1).2.2.2.1 false (adm rfl rfl rfl (by decide))).elim fun ps k => ⟨_, k.2.2⟩
theorem test_gset (h : Obligations.StreamLatticeAndGuardCommandsComplete) : Runs (.guardSet q0 7 [1, 2, 3, 4, 2 ^ 48]) (on) :=
  Runs.eq ((h.2 (on) q0 1).2.2.2.2.1 7 [1, 2, 3, 4, 2 ^ 48] (adm rfl rfl rfl (by decide)) (by decide) (by decide) (by decide) (by decide) (by decide))
theorem test_gen (h : Obligations.StreamLatticeAndGuardCommandsComplete) : Runs (.guardEnable q0 4095 true) (on) :=
  Runs.eq ((h.2 (on) q0 1).2.2.2.2.2.1 4095 true (adm rfl rfl rfl (by decide)) (by decide))
theorem test_gstat (h : Obligations.StreamLatticeAndGuardCommandsComplete) : Runs (.guardStatus q0 7) (on) :=
  Runs.eq ((h.2 (on) q0 1).2.2.2.2.2.2 7 (adm rfl rfl rfl (by decide)) (by decide))
/-- Slot 0 with a program of one word, which uses timer 5. -/
def slot0 (s : State) : State := (s.setSlpEnt 0 0 [place 37 19 1, 0, 0, 0]).setSlpEnt 5 0 [0x16 * 2 ^ 26 + 5]
/-- A staged program at slot 0. -/
def stg (n : Nat) : StagedProg := ⟨0, ⟨0, [], [0], [(5, 7)], [], 1⟩, 8, n, 0⟩
/-- Online change allowed, with that program. -/
def onl (n : Nat) (s : State) : State := { s with slp := { s.slp with staged := some (stg n), faults := [0] } }.setF F.SLP_CTL_ONLINE_ALLOW 1
theorem test_lgst (h : Obligations.LogicCommandsComplete) : Runs (.logicStatus q0 true 0) (slot0 on) :=
  ((h (slot0 on) q0 0 (by decide)).1 true (adm rfl rfl rfl (by decide))).elim fun ps k => k.elim fun t k => ⟨_, k.1⟩
theorem test_lgrd (h : Obligations.LogicCommandsComplete) : Runs (.logicRead q0 [(0, 65535), (18, 5), (1, 3)]) (slot0 on) :=
  ((h (slot0 on) q0 0 (by decide)).2.1 [(0, 65535), (18, 5), (1, 3)] (adm rfl rfl rfl (by decide)) (by decide) (by decide)).elim fun ps k => ⟨_, k.2⟩
theorem test_lgmode (h : Obligations.LogicCommandsComplete) : Runs (.logicMode q0 0 1) (slot0 on) :=
  Runs.eq ((h (slot0 on) q0 0 (by decide)).2.2.1 1 (adm rfl rfl rfl (by decide)) (by decide) (by decide) (.inr (.inl (by decide))))
theorem test_lgmode2 (h : Obligations.LogicCommandsComplete) : Runs (.logicMode q0 0 2) (slot0 on) :=
  Runs.eq ((h (slot0 on) q0 0 (by decide)).2.2.1 2 (adm rfl rfl rfl (by decide)) (by decide) (by decide) (.inl (by decide)))
theorem test_lgpar (h : Obligations.LogicCommandsComplete) : Runs (.logicParam q0 0 false [(5, 900)]) (slot0 on) :=
  Runs.eq ((h (slot0 on) q0 0 (by decide)).2.2.2.1 false [(5, 900)] (adm rfl rfl rfl (by decide)) (by decide))
theorem test_lgfor (h : Obligations.LogicCommandsComplete) : Runs (.logicForce q0 6 9 true) (on.setF F.SLP_CTL_FORCE_ALLOW 1) :=
  Runs.eq ((h (on.setF F.SLP_CTL_FORCE_ALLOW 1) q0 0 (by decide)).2.2.2.2.1 6 9 true (adm rfl rfl rfl (by decide)) (by decide) (by decide) (by decide) (.inr (by decide)))
theorem test_lgunf (h : Obligations.LogicCommandsComplete) : Runs (.logicUnforce q0 6 9) ({ on with slp := { on.slp with forces := [(forceKey 6 9, 1)] } }) :=
  Runs.eq ((h ({ on with slp := { on.slp with forces := [(forceKey 6 9, 1)] } }) q0 0 (by decide)).2.2.2.2.2.1 6 9 (adm rfl rfl rfl (by decide)) (by decide) (by decide) (by decide))
theorem test_lgload (h : Obligations.LogicCommandsComplete) : Runs (.logicLoad q0 0 ⟨false, 3, 50⟩ ⟨0, [], [0], [], [], 1⟩) ((xf on).setF F.SLP_CTL_ONLINE_ALLOW 1) :=
  Runs.eq ((h ((xf on).setF F.SLP_CTL_ONLINE_ALLOW 1) q0 0 (by decide)).2.2.2.2.2.2.1 ⟨false, 3, 50⟩ ⟨0, [], [0], [], [], 1⟩ (adm rfl rfl rfl (by decide)) (by decide) (by decide) rfl)
theorem test_lgswap (h : Obligations.LogicCommandsComplete) : Runs (.logicSwap q0 0) (onl 2 (slot0 on)) :=
  Runs.eq ((h (onl 2 (slot0 on)) q0 0 (by decide)).2.2.2.2.2.2.2.1 (stg 2) (adm rfl rfl rfl (by decide)) (by decide) rfl rfl rfl)
theorem test_lgabort (h : Obligations.LogicCommandsComplete) : Runs (.logicAbort q0) (onl 2 (slot0 on)) :=
  Runs.eq ((h (onl 2 (slot0 on)) q0 0 (by decide)).2.2.2.2.2.2.2.2 (stg 2) (adm rfl rfl rfl (by decide)) rfl rfl)
theorem test_pubst (h : Obligations.PublicationAndRecordCommandsComplete) : Runs (.pubStatus q0 true 2) (pubOn false id on) :=
  ((h (pubOn false id on) q0 2).1 (by decide) true (adm rfl rfl rfl (by decide))).elim fun ps k => ⟨_, k.2⟩
theorem test_puben (h : Obligations.PublicationAndRecordCommandsComplete) : Runs (.pubEnable q0 2 false) (pubOn false id on) :=
  Runs.eq ((h (pubOn false id on) q0 2).2.1 (by decide) (by decide) false (adm rfl rfl rfl (by decide)))
theorem test_pubmd (h : Obligations.PublicationAndRecordCommandsComplete) : Runs (.pubMode q0 2 true true) (pubOn false id on) :=
  Runs.eq ((h (pubOn false id on) q0 2).2.2.1 (by decide) (by decide) true true (adm rfl rfl rfl (by decide)))
/-- Instance 3 of two buffers at the base of the record store, in a state. -/
def recs (st : Nat) (s : State) : State := (s.setDreEnt 0 3 [2 ^ 63, 0, 0, place 47 32 1, place 63 40 4 + place 39 28 2]).modRec 3 (fun x => { x with state := st })
/-- Buffer 1 of it COMMITTED. -/
def committed (s : State) : State := (recs 1 s).wr64 (mramBase + 384) (3 * 2 ^ 62)
theorem test_rstat (h : Obligations.PublicationAndRecordCommandsComplete) : Runs (.recStatus q0 true 3) (recs 1 on) :=
  Runs.eq (((h (recs 1 on) q0 3).2.2.2.1 (by decide)).1 true (adm rfl rfl rfl (by decide)))
theorem test_rlist (h : Obligations.PublicationAndRecordCommandsComplete) : Runs (.recList q0 3) (recs 1 on) :=
  Runs.eq (((h (recs 1 on) q0 3).2.2.2.1 (by decide)).2.1 (adm rfl rfl rfl (by decide)) (by decide))
theorem test_rarm (h : Obligations.PublicationAndRecordCommandsComplete) : Runs (.recArm q0 3) (recs 0 on) :=
  Runs.eq (((h (recs 0 on) q0 3).2.2.2.1 (by decide)).2.2.1 (adm rfl rfl rfl (by decide)) (by decide) (by decide))
theorem test_rdis (h : Obligations.PublicationAndRecordCommandsComplete) : Runs (.recDisarm q0 3) (recs 1 on) :=
  Runs.eq (((h (recs 1 on) q0 3).2.2.2.1 (by decide)).2.2.2.1 (adm rfl rfl rfl (by decide)) (by decide) (by decide))
theorem test_rtrg (h : Obligations.PublicationAndRecordCommandsComplete) : Runs (.recTrigger q0 3) (recs 1 on) :=
  Runs.eq (((h (recs 1 on) q0 3).2.2.2.1 (by decide)).2.2.2.2.1 (adm rfl rfl rfl (by decide)) (by decide) (by decide))
theorem test_rrel (h : Obligations.PublicationAndRecordCommandsComplete) : Runs (.recRelease q0 3 (some 1)) (committed on) :=
  Runs.eq (((h (committed on) q0 3).2.2.2.1 (by decide)).2.2.2.2.2.1 1 (adm rfl rfl rfl (by decide)) (by decide) (by decide) (by decide) (by decide))
theorem test_rrela (h : Obligations.PublicationAndRecordCommandsComplete) : Runs (.recRelease q0 3 none) (committed on) :=
  Runs.eq (((h (committed on) q0 3).2.2.2.1 (by decide)).2.2.2.2.2.2 (adm rfl rfl rfl (by decide)) (by decide) (by decide))
theorem test_rexp (h : Obligations.PublicationAndRecordCommandsComplete) : Runs (.recExport q0 1 ⟨false, 3, 40⟩ ⟨false, 3, 100⟩ [.stored 3 1, .raw ⟨false, 3, 7⟩]) (xf (committed on)) :=
  Runs.eq ((h (xf (committed on)) q0 3).2.2.2.2 1 ⟨false, 3, 40⟩ ⟨false, 3, 100⟩ [.stored 3 1, .raw ⟨false, 3, 7⟩] (adm rfl rfl rfl (by decide)) (by decide) (by decide) (.inr (by decide)) (by decide))
/-- An Active that may switch. -/
def swOk : State := (prcOn 0 (fun p => { p with peerRole := some 1, peerBlock := hbb 16 0x1D, heard := true }) [(F.PRC_CTL_SWITCH_EN, 1)])
theorem test_prst (h : Obligations.PairAndSafetyCommandsComplete) : Runs (.pairStatus q0 true) (prcOn 0 id []) :=
  ((h.1 (prcOn 0 id []) q0).1 true (adm rfl rfl rfl (by decide))).elim fun ps k => ⟨_, k.2⟩
theorem test_prsw (h : Obligations.PairAndSafetyCommandsComplete) : Runs (.pairSwitch q0) (swOk) :=
  Runs.eq ((h.1 (swOk) q0).2.1 (adm rfl rfl rfl (by decide)) (by decide +kernel))
theorem test_prswno (h : Obligations.PairAndSafetyCommandsComplete) : Runs (.pairSwitch q0) (prcOn 0 id []) :=
  Runs.eq ((h.1 (prcOn 0 id []) q0).2.2.1 (adm rfl rfl rfl (by decide)) (by decide))
theorem test_prfe (h : Obligations.PairAndSafetyCommandsComplete) : Runs (.pairFence q0) (prcOn 0 id []) :=
  Runs.eq ((h.1 (prcOn 0 id []) q0).2.2.2.1 (adm rfl rfl rfl (by decide)) (by decide))
theorem test_prfef (h : Obligations.PairAndSafetyCommandsComplete) : Runs (.pairFence q0) (prcOn 3 id [(F.PRC_STATUS_FENCE_REASON, 5)]) :=
  Runs.eq ((h.1 (prcOn 3 id [(F.PRC_STATUS_FENCE_REASON, 5)]) q0).2.2.2.2.1 (adm rfl rfl rfl (by decide)) (by decide) (by decide))
theorem test_prre (h : Obligations.PairAndSafetyCommandsComplete) : Runs (.pairRelease q0) (prcOn 3 id [(F.PRC_STATUS_FENCE_REASON, 4)]) :=
  Runs.eq ((h.1 (prcOn 3 id [(F.PRC_STATUS_FENCE_REASON, 4)]) q0).2.2.2.2.2.1 (adm rfl rfl rfl (by decide)) (by decide) (by decide))
theorem test_pral (h : Obligations.PairAndSafetyCommandsComplete) : Runs (.pairAlone q0) (prcOn 3 id [(F.PRC_STATUS_READY, 1)]) :=
  Runs.eq ((h.1 (prcOn 3 id [(F.PRC_STATUS_READY, 1)]) q0).2.2.2.2.2.2 (adm rfl rfl rfl (by decide)) (by decide) (by decide) (by decide) (by intro t k; cases k))
theorem test_sfst (h : Obligations.PairAndSafetyCommandsComplete) : Runs (.safetyStatus q0 true) (isl 4 id []) :=
  ((h.2 (isl 4 id []) q0).1 true (adm rfl rfl rfl (by decide))).elim fun ps k => k.elim fun t k => ⟨_, k.1⟩
theorem test_sfack (h : Obligations.PairAndSafetyCommandsComplete) : Runs (.safetyAck q0 3) (isl 4 (fun p => { p with fns := [(3, { latched := true })] }) [(F.PSC_FUNC_CFG_EN.nth 3, 1), (F.PSC_FUNC_CFG_RESET_MODE.nth 3, 2)]) :=
  Runs.eq (((h.2 (isl 4 (fun p => { p with fns := [(3, { latched := true })] }) [(F.PSC_FUNC_CFG_EN.nth 3, 1), (F.PSC_FUNC_CFG_RESET_MODE.nth 3, 2)]) q0).2.1 3 (adm rfl rfl rfl (by decide)) (by decide) (by decide) (by decide) (by decide)).1 (by decide))
theorem test_sfackno (h : Obligations.PairAndSafetyCommandsComplete) : Runs (.safetyAck q0 3) (isl 4 id [(F.PSC_FUNC_CFG_EN.nth 3, 1), (F.PSC_FUNC_CFG_RESET_MODE.nth 3, 2), (F.PSC_FUNC_CFG_INPUTS.nth 3, 1)]) :=
  Runs.eq (((h.2 (isl 4 id [(F.PSC_FUNC_CFG_EN.nth 3, 1), (F.PSC_FUNC_CFG_RESET_MODE.nth 3, 2), (F.PSC_FUNC_CFG_INPUTS.nth 3, 1)]) q0).2.1 3 (adm rfl rfl rfl (by decide)) (by decide) (by decide) (by decide) (by decide)).2 (by decide))
theorem test_sfarc (h : Obligations.PairAndSafetyCommandsComplete) : Runs (.safetyAck q0 21) (isl 4 (fun p => { p with arcLatched := 2 }) [(F.PSC_ARC_INST_CFG_EN.nth 1, 1), (F.PSC_ARC_INST_CFG_RESET_MODE.nth 1, 2)]) :=
  Runs.eq (((h.2 (isl 4 (fun p => { p with arcLatched := 2 }) [(F.PSC_ARC_INST_CFG_EN.nth 1, 1), (F.PSC_ARC_INST_CFG_RESET_MODE.nth 1, 2)]) q0).2.2.1 1 (adm rfl rfl rfl (by decide)) (by decide) (by decide) (by decide) (by decide)).1 (by decide))
theorem test_sfarcl (h : Obligations.PairAndSafetyCommandsComplete) : Runs (.safetyAck q0 21) (isl 4 (fun p => { p with arcLatched := 2, arc := [(0, { seen := true })] }) [(F.PSC_ARC_INST_CFG_EN.nth 1, 1), (F.PSC_ARC_INST_CFG_RESET_MODE.nth 1, 2), (F.PSC_ARC_INST_CFG_CH.nth 1, 1)]) :=
  Runs.eq (((h.2 (isl 4 (fun p => { p with arcLatched := 2, arc := [(0, { seen := true })] }) [(F.PSC_ARC_INST_CFG_EN.nth 1, 1), (F.PSC_ARC_INST_CFG_RESET_MODE.nth 1, 2), (F.PSC_ARC_INST_CFG_CH.nth 1, 1)]) q0).2.2.1 1 (adm rfl rfl rfl (by decide)) (by decide) (by decide) (by decide) (by decide)).2 (by decide))
theorem test_sfpf (h : Obligations.PairAndSafetyCommandsComplete) : Runs (.safetyProof q0 2) (isl 4 id [(F.PSC_OUT_CFG_EN.nth 2, 1)]) :=
  Runs.eq ((h.2 (isl 4 id [(F.PSC_OUT_CFG_EN.nth 2, 1)]) q0).2.2.2.1 2 (adm rfl rfl rfl (by decide)) (by decide) (by decide) (by decide) (by decide) (by decide) (by decide))
theorem test_sfre (h : Obligations.PairAndSafetyCommandsComplete) : Runs (.safetyRestart q0) (isl 5 id []) :=
  Runs.eq ((h.2 (isl 5 id []) q0).2.2.2.2 (adm rfl rfl rfl (by decide)) (by decide))
/-- The Dome READY with its top nodes. -/
def rdy (s : State) : State := s.createTop.setF F.DOM_STATUS_DSTATE 1
theorem test_kcr (h : Obligations.KeyCommandsComplete) : Runs (.keyCreate q0 20 4 0) (rdy on) :=
  Runs.eq ((h (rdy on) q0 20 (by decide) (by decide)).1 4 0 (adm rfl rfl rfl (by decide +kernel)) (by decide) (by decide) (by decide) (.inr (.inr rfl)) (by decide +kernel) (by decide +kernel) (by decide +kernel) (.inl (by decide)) (by decide))
theorem test_kde (h : Obligations.KeyCommandsComplete) : Runs (.keyDestroy q0 2) (rdy on) :=
  Runs.eq ((h (rdy on) q0 2 (by decide) (by decide)).2.1 (adm rfl rfl rfl (by decide +kernel)) (by decide) (by decide) (by decide) (by decide) (by decide +kernel) (by decide +kernel))
theorem test_kde20 (h : Obligations.KeyCommandsComplete) : Runs (.keyDestroy q0 20) (dnode 20 { kind := 4 } (rdy on)) :=
  Runs.eq ((h (dnode 20 { kind := 4 } (rdy on)) q0 20 (by decide) (by decide)).2.1 (adm rfl rfl rfl (by decide +kernel)) (by decide) (by decide) (by decide) (by decide) (by decide +kernel) (by decide +kernel))
/-- A TRANSPORT node 30 and a GROUP node 20, a key of SPI 9, and its blob in a format. -/
def kpS : State := dnode 30 { kind := 6, parent := 2 } (dnode 20 { kind := 4 } (rdy on))
def key9 : KeyBlob := ⟨9, 1, 4, List.replicate 32 7, 0, 60⟩
def blob9 (fmt : Nat) : SealedKeys := ⟨[3], Config.sealKeys fmt (kpS.blobKey fmt 30) [3] [key9]⟩
theorem test_kput (h : Obligations.KeyCommandsComplete) : Runs (.keyPut q0 ⟨1, 0⟩ 30 [(9, 20)] (blob9 1) true [key9]) (kpS) :=
  Runs.eq ((h (kpS) q0 30 (by decide) (by decide)).2.2.1 1 0 [(9, 20)] (blob9 1) [key9] (adm rfl rfl rfl (by decide +kernel)) (by simp [State.blobOpens, blob9]) (by decide) (by decide) (by decide) (.inl rfl) (by decide +kernel) (by decide +kernel) (by decide +kernel))
theorem test_kput0 (h : Obligations.KeyCommandsComplete) : Runs (.keyPut q0 ⟨0, 20⟩ 30 [] (blob9 0) true [key9]) (kpS) :=
  Runs.eq ((h (kpS) q0 30 (by decide) (by decide)).2.2.2.1 20 (blob9 0) key9 (adm rfl rfl rfl (by decide +kernel)) rfl (by decide) (by decide) (by decide +kernel) (by decide +kernel) (by decide +kernel) (by decide +kernel) (by decide) (by decide) (by decide) (by decide) (by decide) (by decide +kernel) (by decide +kernel) (by decide))
theorem test_kagr (h : Obligations.KeyCommandsComplete) : Runs (.keyAgree q0 30 7 5 [1]) (rdy on) :=
  Runs.eq ((h (rdy on) q0 30 (by decide) (by decide)).2.2.2.2.1 7 5 [1] (adm rfl rfl rfl (by decide +kernel)) (by decide) (by decide) (by decide) (by decide +kernel) (by decide +kernel) (by decide +kernel) (by decide +kernel) (by decide +kernel) (by decide))
theorem test_kinf (h : Obligations.KeyCommandsComplete) : Runs (.keyInfo q0 20) (dnode 20 { kind := 4, cur := some gk } (rdy on)) :=
  ((h (dnode 20 { kind := 4, cur := some gk } (rdy on)) q0 20 (by decide) (by decide)).2.2.2.2.2.1 (adm rfl rfl rfl (by decide +kernel)) (by decide)).elim fun ps k => ⟨_, k.2⟩
theorem test_kanc (h : Obligations.KeyCommandsComplete) : Runs (.anchorSet q0 4 55 1 [1] 2) (rdy on) :=
  Runs.eq ((h (rdy on) q0 4 (by decide) (by decide)).2.2.2.2.2.2 55 1 [1] 2 (adm rfl rfl rfl (by decide +kernel)) (by decide) (by decide) (by decide) (by decide +kernel) (.inl (by decide +kernel)))
theorem test_dmst (h : Obligations.AttestationCommandsComplete) : Runs (.domStatus q0 true) (on) :=
  ((h (on) q0).1 true (adm rfl rfl rfl (by decide))).elim fun ps k => ⟨_, k.2⟩
theorem test_dmid (h : Obligations.AttestationCommandsComplete) : Runs (.domIdentity q0) (rdy on) :=
  Runs.eq ((h (rdy on) q0).2.1 (by decide) (by decide) (adm rfl rfl rfl (by decide +kernel)))
theorem test_mext (h : Obligations.AttestationCommandsComplete) : Runs (.measExtend q0 8 5) (rdy on) :=
  Runs.eq ((h (rdy on) q0).2.2.1 (by decide) (by decide) 8 5 (adm rfl rfl rfl (by decide +kernel)) (by decide) (by decide))
theorem test_mrd (h : Obligations.AttestationCommandsComplete) : Runs (.measRead q0) (on) :=
  Runs.eq ((h (on) q0).2.2.2.1 (adm rfl rfl rfl (by decide)))
theorem test_atq (h : Obligations.AttestationCommandsComplete) : Runs (.attestQuote q0 [1, 2] 5) (rdy on) :=
  Runs.eq ((h (rdy on) q0).2.2.2.2.1 (by decide) (by decide) (by decide +kernel) [1, 2] 5 (adm rfl rfl rfl (by decide +kernel)) (by decide) (by decide) (by decide))
theorem test_atak (h : Obligations.AttestationCommandsComplete) : Runs (.attestAkCert q0) (rdy on) :=
  Runs.eq ((h (rdy on) q0).2.2.2.2.2.1 (by decide) (by decide) (by decide +kernel) (adm rfl rfl rfl (by decide +kernel)))
theorem test_dbch (h : Obligations.AttestationCommandsComplete) : Runs (.debugChallenge q0) (rdy on) :=
  Runs.eq ((h (rdy on) q0).2.2.2.2.2.2.1 (by decide) (by decide) (adm rfl rfl rfl (by decide +kernel)))
/-- A Fenced module with a challenge open and an anchor of usage DEBUG. -/
def dbg : State := (dnode 4 { kind := 5, depth := 1, key := 55, usage := 2, mac := Config.hmac384 (rdy on).dom.anchorKey [4, 55, 2] } { rdy on with dom := { (rdy on).dom with challenge := some (9, 0) } }).setF F.PRC_STATUS_ROLE 3
theorem dbg_anchor : 55 ∈ dbg.anchors 1 [4] := by
  have r : dbg.recordOk 4 = true := by
    have m : (dbg.node 4).mac = Config.hmac384 dbg.dom.anchorKey (anchorRecord 4 (dbg.node 4)) := rfl
    simp [State.recordOk, m]
  have c : dbg.chainLive 7 4 = true := by decide +kernel
  have d : dbg.dstate = 1 := by decide +kernel
  have k : (dbg.node 4).kind = 5 := rfl
  have u : bit 1 (dbg.node 4).usage = true := by decide
  have y : (dbg.node 4).key = 55 := rfl
  simp [State.anchors, List.filter, State.nodeLive, r, c, d, k, u, y]
theorem test_dbopen (h : Obligations.AttestationCommandsComplete) (v : Config.ecVerify 55 [1] 2 = true) : Runs (.debugOpen q0 (some 100) false [1] 9 dbg.dikFp 2 4 true) dbg := Runs.eq ((h dbg q0).2.2.2.2.2.2.2 (by decide +kernel) (by decide) 100 [1] 9 0 2 4 true 55 (adm rfl rfl rfl (by decide +kernel)) (by decide) (by decide +kernel) (by decide +kernel) rfl (by decide +kernel) (by decide) (by decide) dbg_anchor v)
theorem test_hst (h : Obligations.HealthAndWeevilCommandsComplete) : Runs (.healthStatus q0 true) (on) :=
  ((h (on) q0).1 true (adm rfl rfl rfl (by decide))).elim fun ps k => ⟨_, k.2⟩
theorem test_fcl (h : Obligations.HealthAndWeevilCommandsComplete) : Runs (.faultClear q0 255) (on.setF F.PHM_FAULT_THERM 1) :=
  ((h (on.setF F.PHM_FAULT_THERM 1) q0).2.1 255 (adm rfl rfl rfl (by decide)) (by decide)).elim fun u k => ⟨_, k.1⟩
theorem test_ags (h : Obligations.HealthAndWeevilCommandsComplete) : Runs (.ageingStatus q0) (on) :=
  ((h (on) q0).2.2.1 (adm rfl rfl rfl (by decide))).elim fun ps k => ⟨_, k.2⟩
theorem test_agm (h : Obligations.HealthAndWeevilCommandsComplete) : Runs (.ageingMeasure q0) (on) :=
  Runs.eq ((h (on) q0).2.2.2.1 (adm rfl rfl rfl (by decide)) rfl)
theorem test_blr (h : Obligations.HealthAndWeevilCommandsComplete) : Runs (.belfryRead q0 0 5 56) (on) :=
  Runs.eq (((h (on) q0).2.2.2.2.1 5 56).1 (adm rfl rfl rfl (by decide)) (by decide))
theorem test_blt (h : Obligations.HealthAndWeevilCommandsComplete) : Runs (.belfryRead q0 1 1 15) (on) :=
  Runs.eq (((h (on) q0).2.2.2.2.1 1 15).2 (adm rfl rfl rfl (by decide)) (by decide) (by decide))
theorem test_fls (h : Obligations.HealthAndWeevilCommandsComplete) : Runs (.flashStatus q0) (on) :=
  ((h (on) q0).2.2.2.2.2.1 (adm rfl rfl rfl (by decide))).elim fun ps k => ⟨_, k.2⟩
theorem test_wvs (h : Obligations.HealthAndWeevilCommandsComplete) : Runs (.weevilStatus q0 true) (on) :=
  ((h (on) q0).2.2.2.2.2.2.1 true (adm rfl rfl rfl (by decide))).elim fun ps k => ⟨_, k.2⟩
theorem test_wvr (h : Obligations.HealthAndWeevilCommandsComplete) : Runs (.weevilRule q0 15 (2 ^ 63 + 2 ^ 24) (2 ^ 60 + 7) 65537) (on) :=
  ((h (on) q0).2.2.2.2.2.2.2.1 15 (2 ^ 63 + 2 ^ 24) (2 ^ 60 + 7) 65537 (adm rfl rfl rfl (by decide)) (by decide) (by decide)).elim fun t k => ⟨_, k.1⟩
theorem test_wva (h : Obligations.HealthAndWeevilCommandsComplete) : Runs (.weevilArm q0 true) (on.setF F.WVL_CTL_ALLOW 1) :=
  Runs.eq ((h (on.setF F.WVL_CTL_ALLOW 1) q0).2.2.2.2.2.2.2.2 true (adm rfl rfl rfl (by decide)) (.inr (by decide)))
theorem test_crno (h : Obligations.CommandRegistersRefuseWaitAndDeliver) : Runs (.pheWrite (.core 3 false) 0 0) (on) :=
  Runs.eq ((h.1 (.pheWrite (.core 3 false) 0 0) (on) (.core 3 false) .phe (pheFields 0 0) true rfl).2.1 (by decide) (by decide))
theorem test_crdown (h : Obligations.CommandRegistersRefuseWaitAndDeliver) : Runs (.pheWrite (.core 3 true) 0 0) (sup (fun p => { p with coresUp := false }) on) :=
  Runs.eq ((h.1 (.pheWrite (.core 3 true) 0 0) (sup (fun p => { p with coresUp := false }) on) (.core 3 true) .phe (pheFields 0 0) true rfl).1 (by decide))
theorem test_crbusy (h : Obligations.CommandRegistersRefuseWaitAndDeliver) : Runs (.dreArm .tmc 0) (on.setF F.DRE_CMD_BUSY 1) :=
  Runs.eq ((h.1 (.dreArm .tmc 0) (on.setF F.DRE_CMD_BUSY 1) .tmc .dre [(F.DRE_CMD_INDEX, 0)] true rfl).2.2.1 (by decide) (by decide) (by decide))
theorem test_crperm (h : Obligations.CommandRegistersRefuseWaitAndDeliver) : Runs (.gcmWrite (.core 3 true) 0) (on) :=
  Runs.eq ((h.1 (.gcmWrite (.core 3 true) 0) (on) (.core 3 true) .gcm (gcmFields 0) true rfl).2.2.2 ⟨by decide, by decide, by decide⟩ rfl (by decide))
theorem test_crperm2 (h : Obligations.CommandRegistersRefuseWaitAndDeliver) : Runs (.sctMode (.core 3 true) 5) (on) :=
  Runs.eq ((h.1 (.sctMode (.core 3 true) 5) (on) (.core 3 true) .sct (sctFields 5 false) true rfl).2.2.2 ⟨by decide, by decide, by decide⟩ rfl (by decide))
theorem test_crperm3 (h : Obligations.CommandRegistersRefuseWaitAndDeliver) : Runs (.pubCmdMode (.core 3 true) 5) (on) :=
  Runs.eq ((h.1 (.pubCmdMode (.core 3 true) 5) (on) (.core 3 true) .pub [(F.PUB_CMD_INDEX, 5)] true rfl).2.2.2 ⟨by decide, by decide, by decide⟩ rfl (by decide))
/-- The state of an operation's start. -/
def opened : State := on.withFields (dreFields 9 9)
theorem test_ceend (h : Obligations.CommandRegistersRefuseWaitAndDeliver) : Runs (.commandOperationEnd .dre) (opened.cmdStart .dre 1 (opened.dataWords .dre)) :=
  (h.2.2.1 (opened.cmdStart .dre 1 (opened.dataWords .dre)) .dre (h.2.1 opened .dre 1 (opened.dataWords .dre)).1).elim fun v k => ⟨v, k.1⟩
theorem test_cenone (h : Obligations.CommandRegistersRefuseWaitAndDeliver) : Runs (.commandOperationEnd .sct) (on) :=
  Runs.eq (h.2.2.2 (on) .sct (by decide))
/-- Data words in a command register's data registers. -/
def dat (b : CmdBlock) (l : List Nat) (s : State) : State := s.putData b l
/-- A map entry. -/
def mapE (s : State) : State := s.setMap 0 (2 ^ 31 + 1000)
theorem test_tsw (h : Obligations.StreamAndSliceTablesAreReachedByCommand) : Runs (.sctWrite .tmc 5) (mapE (dat .sct newGoose on)) :=
  Runs.eq (((h (mapE (dat .sct newGoose on)) .tmc 5).1 ⟨by decide, by decide, by decide⟩).1 rfl (by decide) (by decide) (by decide) (by decide) (by decide))
theorem test_tsw0 (h : Obligations.StreamAndSliceTablesAreReachedByCommand) : Runs (.sctWrite .tmc 5) (dat .sct [0] on) :=
  Runs.eq (((h (dat .sct [0] on) .tmc 5).1 ⟨by decide, by decide, by decide⟩).2.1 rfl (by decide) (by decide) (by decide))
theorem test_tsr (h : Obligations.StreamAndSliceTablesAreReachedByCommand) : Runs (.sctRemove .tmc 3) (cxs vWords (fun x => { x with health := 2 }) on) :=
  Runs.eq (((h (cxs vWords (fun x => { x with health := 2 }) on) .tmc 3).1 ⟨by decide, by decide, by decide⟩).2.2.1 rfl (by decide) (by decide) (by decide))
theorem test_tsm (h : Obligations.StreamAndSliceTablesAreReachedByCommand) : Runs (.sctMode .tmc 3) (dat .sct [2 ^ 61] (cxs vWords (fun x => { x with health := 2 }) on)) :=
  Runs.eq (((h (dat .sct [2 ^ 61] (cxs vWords (fun x => { x with health := 2 }) on)) .tmc 3).1 ⟨by decide, by decide, by decide⟩).2.2.2.1 rfl (by decide) (by decide))
theorem test_tsmw (h : Obligations.StreamAndSliceTablesAreReachedByCommand) : Runs (.sctMapWrite .tmc 9) (dat .sct [2 ^ 33 + 77] on) :=
  Runs.eq (((h (dat .sct [2 ^ 33 + 77] on) .tmc 9).1 ⟨by decide, by decide, by decide⟩).2.2.2.2.1 rfl (by decide) (by decide))
theorem test_tsmr (h : Obligations.StreamAndSliceTablesAreReachedByCommand) : Runs (.sctMapRead (.core 3 true) 0) (mapE (dat .sct [2 ^ 40, 2, 3] on)) :=
  Runs.eq (((h (mapE (dat .sct [2 ^ 40, 2, 3] on)) (.core 3 true) 0).1 ⟨by decide, by decide, by decide⟩).2.2.2.2.2.1 (by decide))
theorem test_tsfr (h : Obligations.StreamAndSliceTablesAreReachedByCommand) : Runs (.sctForeignRead .tmc 7) ({ on with ing := { on.ing with foreign := [(7, { valid := true, frames := 4 })] } }) :=
  Runs.eq (((h ({ on with ing := { on.ing with foreign := [(7, { valid := true, frames := 4 })] } }) .tmc 7).1 ⟨by decide, by decide, by decide⟩).2.2.2.2.2.2.1 (by decide))
theorem test_tsfc (h : Obligations.StreamAndSliceTablesAreReachedByCommand) : Runs (.sctForeignClear .tmc 7) ({ on with ing := { on.ing with foreign := [(7, { valid := true, frames := 4 })] } }) :=
  Runs.eq (((h ({ on with ing := { on.ing with foreign := [(7, { valid := true, frames := 4 })] } }) .tmc 7).1 ⟨by decide, by decide, by decide⟩).2.2.2.2.2.2.2.1 rfl (.inr (by decide)))
theorem test_tsrd (h : Obligations.StreamAndSliceTablesAreReachedByCommand) : Runs (.sctRead .tmc 3 true) (cxs vWords (fun x => { x with health := 2, accepted := 9 }) on) :=
  Runs.eq (((h (cxs vWords (fun x => { x with health := 2, accepted := 9 }) on) .tmc 3).1 ⟨by decide, by decide, by decide⟩).2.2.2.2.2.2.2.2 true (by decide))
theorem test_tlw (h : Obligations.StreamAndSliceTablesAreReachedByCommand) : Runs (.sltWrite .tmc 3 1023) (dat .slt [2 ^ 63 + place 62 56 1 + 2 ^ 16] on) :=
  Runs.eq ((((h (dat .slt [2 ^ 63 + place 62 56 1 + 2 ^ 16] on) .tmc 1023).2 ⟨by decide, by decide, by decide⟩).1 3 (by decide)).1 rfl (by decide))
theorem test_tlr (h : Obligations.StreamAndSliceTablesAreReachedByCommand) : Runs (.sltRead .tmc 2 5) (ringAt 5 1 1 on) :=
  Runs.eq ((((h (ringAt 5 1 1 on) .tmc 5).2 ⟨by decide, by decide, by decide⟩).1 2 (by decide)).2)
theorem test_tls (h : Obligations.StreamAndSliceTablesAreReachedByCommand) : Runs (.sltStat .tmc 1 true) (active 1 on) :=
  Runs.eq (((h (active 1 on) .tmc 1).2 ⟨by decide, by decide, by decide⟩).2 true (by decide))
/-- After the commit. -/
def locked (s : State) : State := { s with tmc := { s.tmc with locked := true } }
theorem test_tpl (h : Obligations.EngineAndRecorderTablesAreReachedByCommand) : Runs (.pheWrite .tmc 3 255) (locked on) :=
  Runs.eq (((h.1 (locked on) .tmc 255).1 3 ⟨by decide, by decide, by decide⟩ (by decide)).1 rfl rfl)
theorem test_tpw (h : Obligations.EngineAndRecorderTablesAreReachedByCommand) : Runs (.pheWrite .tmc 5 1023) (dat .phe [5, 6, 7, 8] on) :=
  Runs.eq (((h.1 (dat .phe [5, 6, 7, 8] on) .tmc 1023).1 5 ⟨by decide, by decide, by decide⟩ (by decide)).2.1 rfl rfl (by decide))
theorem test_tpr (h : Obligations.EngineAndRecorderTablesAreReachedByCommand) : Runs (.pheRead .tmc 5 7) (on.setPheEnt 5 7 [1, 2, 3]) :=
  Runs.eq (((h.1 (on.setPheEnt 5 7 [1, 2, 3]) .tmc 7).1 5 ⟨by decide, by decide, by decide⟩ (by decide)).2.2)
theorem test_tgw (h : Obligations.EngineAndRecorderTablesAreReachedByCommand) : Runs (.gcmWrite .tmc 7) (dat .gcm [5] on) :=
  Runs.eq (((h.1 (dat .gcm [5] on) .tmc 7).2.1 ⟨by decide, by decide, by decide⟩ (by decide)).1 rfl rfl (by decide) (by decide))
theorem test_tgp (h : Obligations.EngineAndRecorderTablesAreReachedByCommand) : Runs (.gcmParam .tmc 7) (dat .gcm [5] on) :=
  Runs.eq (((h.1 (dat .gcm [5] on) .tmc 7).2.1 ⟨by decide, by decide, by decide⟩ (by decide)).2.1 rfl (by decide))
theorem test_tge (h : Obligations.EngineAndRecorderTablesAreReachedByCommand) : Runs (.gcmEnable .tmc 7) (dat .gcm [2 ^ 63] on) :=
  Runs.eq (((h.1 (dat .gcm [2 ^ 63] on) .tmc 7).2.1 ⟨by decide, by decide, by decide⟩ (by decide)).2.2.1 rfl)
theorem test_tgr (h : Obligations.EngineAndRecorderTablesAreReachedByCommand) : Runs (.gcmRead .tmc 7) (on) :=
  Runs.eq (((h.1 (on) .tmc 7).2.1 ⟨by decide, by decide, by decide⟩ (by decide)).2.2.2.1)
theorem test_tgs (h : Obligations.EngineAndRecorderTablesAreReachedByCommand) : Runs (.gcmState .tmc 7) ({ on with gcm := { on.gcm with st := [(7, { cnt := 4, out := true })] } }) :=
  Runs.eq (((h.1 ({ on with gcm := { on.gcm with st := [(7, { cnt := 4, out := true })] } }) .tmc 7).2.1 ⟨by decide, by decide, by decide⟩ (by decide)).2.2.2.2)
theorem test_tcw (h : Obligations.EngineAndRecorderTablesAreReachedByCommand) : Runs (.slpWrite .tmc 5 262143) (dat .slp [2 ^ 33 + 77] on) :=
  Runs.eq (((h.1 (dat .slp [2 ^ 33 + 77] on) .tmc 262143).2.2 5 ⟨by decide, by decide, by decide⟩).1 rfl rfl (by decide) (by decide))
theorem test_tcr (h : Obligations.EngineAndRecorderTablesAreReachedByCommand) : Runs (.slpRead .tmc 0 128) (on) :=
  Runs.eq (((h.1 (on) .tmc 128).2.2 0 ⟨by decide, by decide, by decide⟩).2.1 (by decide))
theorem test_tcs (h : Obligations.EngineAndRecorderTablesAreReachedByCommand) : Runs (.slpState .tmc 3 4095) (on) :=
  Runs.eq (((h.1 (on) .tmc 4095).2.2 3 ⟨by decide, by decide, by decide⟩).2.2.1 (.inr rfl) (by decide))
theorem test_tco (h : Obligations.EngineAndRecorderTablesAreReachedByCommand) : Runs (.slpOpnd .tmc 2 131071) (on) :=
  Runs.eq (((h.1 (on) .tmc 131071).2.2 2 ⟨by decide, by decide, by decide⟩).2.2.2 (by decide))
theorem test_tbw (h : Obligations.EngineAndRecorderTablesAreReachedByCommand) : Runs (.pubWrite .tmc 7) (dat .pub [5] on) :=
  Runs.eq (((h.2 (dat .pub [5] on) .tmc 7).1 ⟨by decide, by decide, by decide⟩).1 rfl (by decide) (by decide) (by decide))
theorem test_tbr (h : Obligations.EngineAndRecorderTablesAreReachedByCommand) : Runs (.pubRead .tmc 2) (pubOn false id on) :=
  Runs.eq (((h.2 (pubOn false id on) .tmc 2).1 ⟨by decide, by decide, by decide⟩).2.1 (by decide))
theorem test_tbmw (h : Obligations.EngineAndRecorderTablesAreReachedByCommand) : Runs (.pubMembWrite .tmc 16383) (dat .pub [2 ^ 31 + 5] on) :=
  Runs.eq (((h.2 (dat .pub [2 ^ 31 + 5] on) .tmc 16383).1 ⟨by decide, by decide, by decide⟩).2.2.1 rfl rfl (by decide) (by decide))
theorem test_tbmr (h : Obligations.EngineAndRecorderTablesAreReachedByCommand) : Runs (.pubMembRead .tmc 5) (on) :=
  Runs.eq (((h.2 (on) .tmc 5).1 ⟨by decide, by decide, by decide⟩).2.2.2.1 (by decide))
theorem test_tbe (h : Obligations.EngineAndRecorderTablesAreReachedByCommand) : Runs (.pubCmdEnable .tmc 2) (dat .pub [0, 0] (pubOn false id on)) :=
  Runs.eq ((((h.2 (dat .pub [0, 0] (pubOn false id on)) .tmc 2).1 ⟨by decide, by decide, by decide⟩).2.2.2.2.1 rfl (by decide) (by decide)).1)
theorem test_tbm (h : Obligations.EngineAndRecorderTablesAreReachedByCommand) : Runs (.pubCmdMode .tmc 2) (dat .pub [0, 2 ^ 62] (pubOn false id on)) :=
  Runs.eq ((((h.2 (dat .pub [0, 2 ^ 62] (pubOn false id on)) .tmc 2).1 ⟨by decide, by decide, by decide⟩).2.2.2.2.1 rfl (by decide) (by decide)).2)
theorem test_tbs (h : Obligations.EngineAndRecorderTablesAreReachedByCommand) : Runs (.pubStat .tmc 2) (pubOn false id on) :=
  Runs.eq (((h.2 (pubOn false id on) .tmc 2).1 ⟨by decide, by decide, by decide⟩).2.2.2.2.2 (by decide))
theorem test_tdw (h : Obligations.EngineAndRecorderTablesAreReachedByCommand) : Runs (.dreWrite .tmc 3 16383) (dat .dre [5, 6] on) :=
  Runs.eq ((((h.2 (dat .dre [5, 6] on) .tmc 16383).2 ⟨by decide, by decide, by decide⟩).1 3 (by decide)).1 rfl rfl (by decide))
theorem test_tdr (h : Obligations.EngineAndRecorderTablesAreReachedByCommand) : Runs (.dreRead .tmc 0 3) (recs 1 on) :=
  Runs.eq ((((h.2 (recs 1 on) .tmc 3).2 ⟨by decide, by decide, by decide⟩).1 0 (by decide)).2)
theorem test_tda (h : Obligations.EngineAndRecorderTablesAreReachedByCommand) : Runs (.dreArm .tmc 3) (recs 0 on) :=
  Runs.eq (((((h.2 (recs 0 on) .tmc 3).2 ⟨by decide, by decide, by decide⟩).2 (by decide)).1 rfl (by decide)).1 (by decide))
theorem test_tdd (h : Obligations.EngineAndRecorderTablesAreReachedByCommand) : Runs (.dreDisarm .tmc 3) (recs 1 on) :=
  Runs.eq (((((h.2 (recs 1 on) .tmc 3).2 ⟨by decide, by decide, by decide⟩).2 (by decide)).1 rfl (by decide)).2.1 (by decide))
theorem test_tdt (h : Obligations.EngineAndRecorderTablesAreReachedByCommand) : Runs (.dreTrigger .tmc 3) (recs 1 on) :=
  Runs.eq (((((h.2 (recs 1 on) .tmc 3).2 ⟨by decide, by decide, by decide⟩).2 (by decide)).1 rfl (by decide)).2.2.1 (by decide))
theorem test_tdl (h : Obligations.EngineAndRecorderTablesAreReachedByCommand) : Runs (.dreRelease .tmc 3) (dat .dre [1] (committed on)) :=
  Runs.eq (((((h.2 (dat .dre [1] (committed on)) .tmc 3).2 ⟨by decide, by decide, by decide⟩).2 (by decide)).1 rfl (by decide)).2.2.2 (by decide) (by decide))
theorem test_tds (h : Obligations.EngineAndRecorderTablesAreReachedByCommand) : Runs (.dreStat .tmc 3) (recs 1 on) :=
  Runs.eq ((((h.2 (recs 1 on) .tmc 3).2 ⟨by decide, by decide, by decide⟩).2 (by decide)).2)
theorem test_fcap (h : Obligations.FamilyCapReportsTheMember) : Runs (.clearingRead .tmc 0x5000000004 4) (State.reset) :=
  Runs.eq (h.1)
theorem test_fcap2 (h : Obligations.FamilyCapReportsTheMember) : Runs (.clearingRead .tmc 0x5000000004 4) (on) :=
  Runs.eq (h.2.1 (on) (by decide) (by decide) (by decide))
theorem test_fcapw (h : Obligations.FamilyCapReportsTheMember) : Runs (.registerWrite .tmc 0x5000000004 4 7) (on) :=
  Runs.eq (h.2.2 (on) 7)
theorem test_unm (h : Obligations.AccessesOutsideEveryRegionAreBusErrors) : Runs (.registerWrite .tmc 0x1000000000 8 1) (on) :=
  (h (on) .tmc 0x1000000000 8 1 (.inl (by decide)) (by decide)).elim fun t k => ⟨t, k.1⟩
theorem test_unm2 (h : Obligations.AccessesOutsideEveryRegionAreBusErrors) : Runs (.clearingRead (.core 3 false) 0x7000010000 8) (on) :=
  (h (on) (.core 3 false) 0x7000010000 8 1 (by decide) (by decide)).elim fun t k => ⟨t, k.2.1⟩
theorem test_unm3 (h : Obligations.AccessesOutsideEveryRegionAreBusErrors) : Runs (.coreRequest ⟨3, false, 0x4003000000, 8, .store 1⟩) (on) :=
  (h (on) (.core 3 false) 0x4003000000 8 1 (by decide) (by decide)).elim fun t k => ⟨t, k.2.2.1 3 false rfl (.store 1)⟩
theorem test_unm4 (h : Obligations.AccessesOutsideEveryRegionAreBusErrors) : Runs (.coreRequest ⟨3, false, 0x4003000000, 8, .load⟩) (on) :=
  (h (on) (.core 3 false) 0x4003000000 8 1 (by decide) (by decide)).elim fun t k => ⟨t, k.2.2.1 3 false rfl .load⟩
theorem test_ungw (h : Obligations.UngrantedRegisterAccessesAreBusErrors) : Runs (.registerWrite (.core 3 false) 0x5000010000 8 1) (on) :=
  Runs.eq (((h (on) (.core 3 false) 0x5000010000 8 1 (by decide)).1 (by decide) (by decide)).1 (by decide))
theorem test_ungr (h : Obligations.UngrantedRegisterAccessesAreBusErrors) : Runs (.clearingRead (.core 3 false) 0x5000010000 8) (on) :=
  Runs.eq (((h (on) (.core 3 false) 0x5000010000 8 1 (by decide)).1 (by decide) (by decide)).2.1 (by decide))
theorem test_unreg (h : Obligations.UngrantedRegisterAccessesAreBusErrors) : Runs (.registerWrite .tmc 0x5000FF0000 8 1) (on) :=
  Runs.eq ((((h (on) .tmc 0x5000FF0000 8 1 (by decide)).1 (by decide) (by decide)).2.2 (by decide) (.inl (by decide +kernel))).1)
theorem test_unwid (h : Obligations.UngrantedRegisterAccessesAreBusErrors) : Runs (.clearingRead .tmc 0x5000000004 8) (on) :=
  Runs.eq ((((h (on) .tmc 0x5000000004 8 1 (by decide)).1 (by decide) (by decide)).2.2 (by decide) (.inr ((Option.isSome_iff_exists.mp (by decide +kernel : (regAt 0x5000000004).isSome = true)).elim fun x k => ⟨x.1, x.2.1, x.2.2, k, fun e => absurd ((congrArg (Option.map fun y => y.1.bytes) k).symm.trans (by decide +kernel : _ = some 4)) (by rw [Option.map_some, ← e]; decide)⟩))).2)
theorem test_unref (h : Obligations.UngrantedRegisterAccessesAreBusErrors) : (((Sys2Proof.Machine.State.refused on (on.actor .tmc) 5)) = on) :=
  (h on .tmc 5 8 1 (by decide)).2.1 (.inl rfl)
/-- Core 3 bound to slice 1, ACTIVE, with the whole of DRAM. -/
def ten1 : State := let s := sltw 1 0 [2 ^ 63 + place 62 56 1 + 77] (wide (active 1 on)); { s with slt := { s.slt with cores := [(3, ⟨true, 77, 0⟩)] } }
theorem test_unten (h : Obligations.UngrantedRegisterAccessesAreBusErrors) : (∀ k, k ≠ 1 → (Sys2Proof.Machine.State.refused ten1 (ten1.actor (.core 3 false)) 5).slice k = ten1.slice k) :=
  ((h ten1 (.core 3 false) 5 8 1 (by decide)).2.2 1 (by decide)).2
/-- A register with its instance and element, as the register map finds it at a field's address. -/
def regOf (f : Field) : Register × Nat × Nat := (regAt f.addr).getD (⟨"", 0, 0, 0, 0, 0, []⟩, 0, 0)
theorem test_rgw (h : Obligations.RegisterFieldsFollowTheirAccessCodes) : Runs (.registerWrite .tmc (F.MAC_CTL_EN.pg 3).addr (regOf (F.MAC_CTL_EN.pg 3)).1.bytes 1) (on) :=
  Runs.eq (((h (on) .tmc (F.MAC_CTL_EN.pg 3).addr 1 (regOf (F.MAC_CTL_EN.pg 3)).1 (regOf (F.MAC_CTL_EN.pg 3)).2.1 (regOf (F.MAC_CTL_EN.pg 3)).2.2 (by decide) (by decide) (by decide) (by decide +kernel)).1.2.2.2.2.2 (by decide) (by decide +kernel) (by intro b; cases b <;> decide +kernel)).2.2.2.2.2.2 (by decide +kernel) (by decide +kernel) (by decide +kernel) (by decide +kernel) (by decide +kernel) (by decide +kernel))
theorem test_rgtb (h : Obligations.RegisterFieldsFollowTheirAccessCodes) : Runs (.registerWrite .tmc (F.TBU_CTL_ATTACH).addr (regOf (F.TBU_CTL_ATTACH)).1.bytes 1) (on) :=
  Runs.eq (((h (on) .tmc (F.TBU_CTL_ATTACH).addr 1 (regOf (F.TBU_CTL_ATTACH)).1 (regOf (F.TBU_CTL_ATTACH)).2.1 (regOf (F.TBU_CTL_ATTACH)).2.2 (by decide) (by decide) (by decide) (by decide +kernel)).1.2.2.2.2.2 (by decide) (by decide +kernel) (by intro b; cases b <;> decide +kernel)).2.1 (by decide +kernel))
theorem test_rgic (h : Obligations.RegisterFieldsFollowTheirAccessCodes) : Runs (.registerWrite .tmc (F.ICL_CTL_EN).addr (regOf (F.ICL_CTL_EN)).1.bytes 1) (on) :=
  Runs.eq (((h (on) .tmc (F.ICL_CTL_EN).addr 1 (regOf (F.ICL_CTL_EN)).1 (regOf (F.ICL_CTL_EN)).2.1 (regOf (F.ICL_CTL_EN)).2.2 (by decide) (by decide) (by decide) (by decide +kernel)).1.2.2.2.2.2 (by decide) (by decide +kernel) (by intro b; cases b <;> decide +kernel)).2.2.1 (by decide +kernel))
theorem test_rgsl (h : Obligations.RegisterFieldsFollowTheirAccessCodes) : Runs (.registerWrite .tmc (F.SLE_CTL_EN).addr (regOf (F.SLE_CTL_EN)).1.bytes 1) (on) :=
  Runs.eq (((h (on) .tmc (F.SLE_CTL_EN).addr 1 (regOf (F.SLE_CTL_EN)).1 (regOf (F.SLE_CTL_EN)).2.1 (regOf (F.SLE_CTL_EN)).2.2 (by decide) (by decide) (by decide) (by decide +kernel)).1.2.2.2.2.2 (by decide) (by decide +kernel) (by intro b; cases b <;> decide +kernel)).2.2.2.1 (by decide +kernel))
theorem test_rgdr (h : Obligations.RegisterFieldsFollowTheirAccessCodes) : Runs (.registerWrite .tmc (F.DRE_CTL_EN).addr (regOf (F.DRE_CTL_EN)).1.bytes 1) (on) :=
  Runs.eq (((h (on) .tmc (F.DRE_CTL_EN).addr 1 (regOf (F.DRE_CTL_EN)).1 (regOf (F.DRE_CTL_EN)).2.1 (regOf (F.DRE_CTL_EN)).2.2 (by decide) (by decide) (by decide) (by decide +kernel)).1.2.2.2.2.2 (by decide) (by decide +kernel) (by intro b; cases b <;> decide +kernel)).2.2.2.2.1 (by decide +kernel))
theorem test_rgis (h : Obligations.RegisterFieldsFollowTheirAccessCodes) : Runs (.registerWrite .tmc (F.PSC_ARC_CTL_CPW_TIMEOUT).addr (regOf (F.PSC_ARC_CTL_CPW_TIMEOUT)).1.bytes 1) (on) :=
  Runs.eq (((h (on) .tmc (F.PSC_ARC_CTL_CPW_TIMEOUT).addr 1 (regOf (F.PSC_ARC_CTL_CPW_TIMEOUT)).1 (regOf (F.PSC_ARC_CTL_CPW_TIMEOUT)).2.1 (regOf (F.PSC_ARC_CTL_CPW_TIMEOUT)).2.2 (by decide) (by decide) (by decide) (by decide +kernel)).1.2.2.2.2.2 (by decide) (by decide +kernel) (by intro b; cases b <;> decide +kernel)).1 (by decide +kernel))
theorem test_rgpc (h : Obligations.RegisterFieldsFollowTheirAccessCodes) : Runs (.registerWrite .tmc (F.SLE_LAT_TIME_PCLOSE.nth 0).addr (regOf (F.SLE_LAT_TIME_PCLOSE.nth 0)).1.bytes 5) (on) :=
  (((h (on) .tmc (F.SLE_LAT_TIME_PCLOSE.nth 0).addr 5 (regOf (F.SLE_LAT_TIME_PCLOSE.nth 0)).1 (regOf (F.SLE_LAT_TIME_PCLOSE.nth 0)).2.1 (regOf (F.SLE_LAT_TIME_PCLOSE.nth 0)).2.2 (by decide) (by decide) (by decide) (by decide +kernel)).1.2.2.2.2.2 (by decide) (by decide +kernel) (by intro b; cases b <;> decide +kernel)).2.2.2.2.2.1 (by decide +kernel)).elim fun _ k => ⟨_, k.1⟩
theorem test_rgr (h : Obligations.RegisterFieldsFollowTheirAccessCodes) : Runs (.clearingRead .tmc (F.MAC_CTL_EN.pg 3).addr (regOf (F.MAC_CTL_EN.pg 3)).1.bytes) (on) :=
  ((h (on) .tmc (F.MAC_CTL_EN.pg 3).addr 1 (regOf (F.MAC_CTL_EN.pg 3)).1 (regOf (F.MAC_CTL_EN.pg 3)).2.1 (regOf (F.MAC_CTL_EN.pg 3)).2.2 (by decide) (by decide) (by decide) (by decide +kernel)).2 (by decide)).elim fun t k => ⟨t, k.1⟩
theorem test_cqdn (h : Obligations.CoreRequestsReachTheMemoryTheirSliceOwns) : Runs (.coreRequest ⟨3, false, 65536, 8, .load⟩) (sup (fun p => { p with coresUp := false }) ten1) :=
  Runs.eq (((h (sup (fun p => { p with coresUp := false }) ten1) 3 false 65536 8 0 .add).1 rfl).2.1)
theorem test_cqst (h : Obligations.CoreRequestsReachTheMemoryTheirSliceOwns) : Runs (.coreRequest ⟨3, false, 65533, 7, .store 0x1234567890⟩) (ten1) :=
  (((h (ten1) 3 false 65533 7 0x1234567890 .add).2 rfl).1 (by decide) (by decide) (.inr ⟨1, by decide, by decide, by decide⟩) (by decide)).1.elim fun t k => ⟨t, k.1⟩
theorem test_cqat (h : Obligations.CoreRequestsReachTheMemoryTheirSliceOwns) : Runs (.coreRequest ⟨3, false, 65536, 4, .atomic .max 0x90000000⟩) ((ten1.wr 65536 4 5)) :=
  (((h ((ten1.wr 65536 4 5)) 3 false 65536 4 0x90000000 .max).2 rfl).1 (by decide) (by decide) (.inr ⟨1, by decide, by decide, by decide⟩) (by decide)).2.elim fun t k => ⟨t, k.1⟩
theorem test_cqno (h : Obligations.CoreRequestsReachTheMemoryTheirSliceOwns) : Runs (.coreRequest ⟨3, false, 65536, 8, .load⟩) (sltw 3 0 [] ten1) :=
  Runs.eq ((((h (sltw 3 0 [] ten1) 3 false 65536 8 0 .add).2 rfl).2.1 1 (by decide) (by decide) (.inr (by decide))).2.1)
theorem test_cqnost (h : Obligations.CoreRequestsReachTheMemoryTheirSliceOwns) : Runs (.coreRequest ⟨3, false, 65536, 8, .store 4⟩) (sltw 3 0 [] ten1) :=
  Runs.eq ((((h (sltw 3 0 [] ten1) 3 false 65536 8 4 .add).2 rfl).2.1 1 (by decide) (by decide) (.inr (by decide))).1)
theorem test_cqnoat (h : Obligations.CoreRequestsReachTheMemoryTheirSliceOwns) : Runs (.coreRequest ⟨3, false, 65536, 8, .atomic .add 4⟩) (sltw 3 0 [] ten1) :=
  Runs.eq ((((h (sltw 3 0 [] ten1) 3 false 65536 8 4 .add).2 rfl).2.1 1 (by decide) (by decide) (.inr (by decide))).2.2)
theorem test_cqsm (h : Obligations.CoreRequestsReachTheMemoryTheirSliceOwns) : Runs (.coreRequest ⟨3, true, smemBase, 8, .store 4⟩) (on) :=
  Runs.eq ((((h (on) 3 true smemBase 8 4 .add).2 rfl).2.2.1 (.inl ⟨by decide, by decide⟩)).1)
theorem test_cqsma (h : Obligations.CoreRequestsReachTheMemoryTheirSliceOwns) : Runs (.coreRequest ⟨3, true, smemBase, 8, .atomic .swap 4⟩) (on) :=
  Runs.eq ((((h (on) 3 true smemBase 8 4 .swap).2 rfl).2.2.1 (.inl ⟨by decide, by decide⟩)).2.1)
theorem test_cqsml (h : Obligations.CoreRequestsReachTheMemoryTheirSliceOwns) : Runs (.coreRequest ⟨3, true, smemBase, 8, .load⟩) (on) :=
  Runs.eq (((((h (on) 3 true smemBase 8 4 .add).2 rfl).2.2.1 (.inl ⟨by decide, by decide⟩)).2.2 (by decide) (fun _ => by decide +kernel) (by decide)).1 (by decide) (by decide))
theorem test_cqsmu (h : Obligations.CoreRequestsReachTheMemoryTheirSliceOwns) : Runs (.coreRequest ⟨3, true, smemBase + 4, 8, .load⟩) (on) :=
  Runs.eq (((((h (on) 3 true (smemBase + 4) 8 4 .add).2 rfl).2.2.1 (.inl ⟨by decide, by decide⟩)).2.2 (by decide) (fun _ => by decide +kernel) (by decide)).2 (by decide))
theorem test_cqmr (h : Obligations.CoreRequestsReachTheMemoryTheirSliceOwns) : Runs (.coreRequest ⟨3, true, mramBase + 64, 4, .load⟩) (on) :=
  Runs.eq (((((h (on) 3 true (mramBase + 64) 4 4 .add).2 rfl).2.2.1 (.inr ⟨by decide, by decide⟩)).2.2 (by decide) (fun k => absurd k (by decide)) (by decide)).1 (by decide) (by decide))
theorem test_cqdo (h : Obligations.CoreRequestsReachTheMemoryTheirSliceOwns) : Runs (.coreRequest ⟨3, true, 0x7000008000, 8, .store 5⟩) (on) :=
  ((((h (on) 3 true 0x7000008000 8 5 .add).2 rfl).2.2.2 (by decide) (by decide)).1 (by decide) (by decide)).elim fun t k => ⟨t, k.1⟩
theorem test_cqdoa (h : Obligations.CoreRequestsReachTheMemoryTheirSliceOwns) : Runs (.coreRequest ⟨3, true, 0x7000008000, 8, .atomic .add 5⟩) (on) :=
  Runs.eq ((((h (on) 3 true 0x7000008000 8 5 .add).2 rfl).2.2.2 (by decide) (by decide)).2.1 (by decide))
theorem test_cqdot (h : Obligations.CoreRequestsReachTheMemoryTheirSliceOwns) : Runs (.coreRequest ⟨3, false, 0x7000008000, 8, .store 5⟩) (ten1) :=
  Runs.eq (((((h (ten1) 3 false 0x7000008000 8 5 .add).2 rfl).2.2.2 (by decide) (by decide)).2.2 1 (by decide)).1)
theorem test_arwl (h : Obligations.ActingRegistersActWhereGranted) : Runs (.wvlArmWrite .tmc 1) (locked (on.setF F.WVL_CTL_ALLOW 1)) :=
  Runs.eq (((h (locked (on.setF F.WVL_CTL_ALLOW 1)) .tmc (by decide)).1 (by decide) 1).1 (by decide))
theorem test_arwu (h : Obligations.ActingRegistersActWhereGranted) : Runs (.wvlArmWrite .tmc 3) (on) :=
  Runs.eq (((h (on) .tmc (by decide)).1 (by decide) 3).2.1 (by decide))
theorem test_arst (h : Obligations.ActingRegistersActWhereGranted) : ((Sys2Proof.Machine.State.wvlArm on true) = on) :=
  ((h on .tmc (by decide)).1 (by decide) 3).2.2.1 (by decide)
theorem test_arst2 (h : Obligations.ActingRegistersActWhereGranted) : ((Sys2Proof.Machine.State.wvlArm (on.setF F.WVL_CTL_ALLOW 1) true).flag F.WVL_CTL_ARM = true) :=
  ((h (on.setF F.WVL_CTL_ALLOW 1) .tmc (by decide)).1 (by decide) 3).2.2.2 (by decide)
theorem test_arrc (h : Obligations.ActingRegistersActWhereGranted) : Runs (.wvlRuleCountWrite .tmc 15 65537) (on) :=
  Runs.of ((h (on) .tmc (by decide)).2.1 15 65537 (by decide) (by decide))
theorem test_arcu (h : Obligations.ActingRegistersActWhereGranted) : Runs (.blfCursorWrite .tmc (2 ^ 63 + 5)) (on) :=
  Runs.of ((h (on) .tmc (by decide)).2.2.1 (by decide) (2 ^ 63 + 5))
theorem test_arsn (h : Obligations.ActingRegistersActWhereGranted) : Runs (.blfStepNext .tmc 0) (on) :=
  Runs.eq (((h (on) .tmc (by decide)).2.2.2.1 (by decide) 0).1 (by decide))
theorem test_arsy (h : Obligations.ActingRegistersActWhereGranted) : Runs (.blfStepNext .tmc 1) (on) :=
  Runs.of (((h (on) .tmc (by decide)).2.2.2.1 (by decide) 1).2 (by decide))
theorem test_arno (h : Obligations.ActingRegistersActWhereGranted) : Runs (.blfStepNext (.core 3 false) 1) (on) :=
  Runs.eq ((h (on) (.core 3 false) (by decide)).2.2.2.2 (.blfStepNext (.core 3 false) 1) F.BLF_STEP_NEXT.addr (by simp) (by decide))
/-- Background work runs: Normal, group B enabled. -/
def bg : State := on.setF F.TMC_START_STATUS_PHASE 6
theorem test_bgno (h : Obligations.HealthWorkAndAgeingFollowTheirRows) : Runs (.histogramUpdate) (State.reset) :=
  Runs.eq ((h.1 (State.reset)).1 (by decide) .histogramUpdate (.inr (.inr (.inr rfl))))
theorem test_bgcl (h : Obligations.HealthWorkAndAgeingFollowTheirRows) : Runs (.scrubPass .dram 64 .clean false) (bg) :=
  Runs.eq ((((h.1 (bg)).2.1 (by decide)).1 .dram 64 (by decide)).1)
theorem test_bgpe (h : Obligations.HealthWorkAndAgeingFollowTheirRows) : Runs (.scrubPass .dram 64 .clean true) (bg) :=
  Runs.eq ((((h.1 (bg)).2.1 (by decide)).1 .dram 64 (by decide)).2)
theorem test_bgco (h : Obligations.HealthWorkAndAgeingFollowTheirRows) : Runs (.scrubPass .smem smemBase .corrected false) (bg) :=
  Runs.eq (((h.1 (bg)).2.1 (by decide)).2.1 .smem smemBase F.SMEM_CNT_COUNT (.head _) (by decide))
theorem test_bgco2 (h : Obligations.HealthWorkAndAgeingFollowTheirRows) : Runs (.scrubPass .prog 262143 .corrected false) (bg) :=
  Runs.eq (((h.1 (bg)).2.1 (by decide)).2.1 .prog 262143 (F.SLP_CNT_COUNT.nth 6) (.tail _ (.tail _ (.head _))) (by decide))
theorem test_bgun (h : Obligations.HealthWorkAndAgeingFollowTheirRows) : Runs (.scrubPass .mram (mramBase + 9) .uncorrectable false) (bg) :=
  Runs.of (((h.1 (bg)).2.1 (by decide)).2.2.1 .mram (mramBase + 9) (by decide) (by decide))
theorem test_bgun2 (h : Obligations.HealthWorkAndAgeingFollowTheirRows) : Runs (.scrubPass .smem (smemBase + 100) .uncorrectable false) (bg) :=
  Runs.of (((h.1 (bg)).2.1 (by decide)).2.2.1 .smem (smemBase + 100) (by decide) (by decide))
theorem test_bgup (h : Obligations.HealthWorkAndAgeingFollowTheirRows) : Runs (.scrubPass .prog 7 .uncorrectable false) (bg) :=
  Runs.of (((h.1 (bg)).2.1 (by decide)).2.2.2.1 7 (by decide))
theorem test_bgfl (h : Obligations.HealthWorkAndAgeingFollowTheirRows) : Runs (.flashRefresh 61034 41 false) (bg) :=
  Runs.of ((((h.1 (bg)).2.1 (by decide)).2.2.2.2.1 61034 41 false (by decide) (by decide) (by decide)).1 (.inr (by decide)))
theorem test_bgfr (h : Obligations.HealthWorkAndAgeingFollowTheirRows) : Runs (.flashRefresh 61034 40 false) (bg) :=
  Runs.of ((((h.1 (bg)).2.1 (by decide)).2.2.2.2.1 61034 40 false (by decide) (by decide) (by decide)).2.1 rfl (by decide) (by decide))
theorem test_bgfn (h : Obligations.HealthWorkAndAgeingFollowTheirRows) : Runs (.flashRefresh 61034 24 false) (bg) :=
  Runs.eq ((((h.1 (bg)).2.1 (by decide)).2.2.2.2.1 61034 24 false (by decide) (by decide) (by decide)).2.2 rfl (by decide))
theorem test_bgte (h : Obligations.HealthWorkAndAgeingFollowTheirRows) : Runs (.telemetrySample [11500, -5, 3]) (bg) :=
  Runs.of (((h.1 (bg)).2.1 (by decide)).2.2.2.2.2.1 [11500, -5, 3])
theorem test_bghi (h : Obligations.HealthWorkAndAgeingFollowTheirRows) : Runs (.histogramUpdate) ({ bg with hlt := { bg.hlt with eccSec := 4, telem := [(0, { recent := [200, 300] })] } }) :=
  (((h.1 ({ bg with hlt := { bg.hlt with eccSec := 4, telem := [(0, { recent := [200, 300] })] } })).2.1 (by decide)).2.2.2.2.2.2).elim fun t k => ⟨t, k.1⟩
theorem test_bgmi (h : Obligations.HealthWorkAndAgeingFollowTheirRows) : Runs (.belfryMirror) (bg.setF F.PHM_KEEP_CNT_OP_SEC 3600) :=
  Runs.eq ((h.1 (bg.setF F.PHM_KEEP_CNT_OP_SEC 3600)).2.2.1 (by decide))
theorem test_bgmi0 (h : Obligations.HealthWorkAndAgeingFollowTheirRows) : Runs (.belfryMirror) (bg) :=
  Runs.eq ((h.1 (bg)).2.2.2 (by decide))
/-- The first operating day has ended. -/
def day1 (f : Health → Health) : State := { bg with hlt := f bg.hlt }.setF F.PHM_KEEP_CNT_OP_SEC 86400
theorem test_mdno (h : Obligations.HealthWorkAndAgeingFollowTheirRows) : Runs (.operatingDayEnd) (day1 (fun x => { x with dayDone := 1 })) :=
  Runs.eq ((h.2 (day1 (fun x => { x with dayDone := 1 }))).1.1 (by decide))
theorem test_mdye (h : Obligations.HealthWorkAndAgeingFollowTheirRows) : Runs (.operatingDayEnd) (day1 id) :=
  ((h.2 (day1 id)).1.2 (by decide) (by decide)).elim fun t k => ⟨t, k.1⟩
theorem test_mdef (h : Obligations.HealthWorkAndAgeingFollowTheirRows) : Runs (.deferredMeasurement) (day1 (fun x => { x with measDue := some 7 })) :=
  Runs.eq ((h.2 (day1 (fun x => { x with measDue := some 7 }))).2.1 7 rfl (by decide) rfl)
theorem test_mdon (h : Obligations.HealthWorkAndAgeingFollowTheirRows) : Runs (.measurementComplete [3, 4] [700] [25]) ((day1 (fun x => { x with meas := some (true, 5) })).setF F.PHM_BG_STATUS_MEAS_RUNNING 1) :=
  ((h.2 ((day1 (fun x => { x with meas := some (true, 5) })).setF F.PHM_BG_STATUS_MEAS_RUNNING 1)).2.2.1 [3, 4] [700] [25] true 5 rfl (by decide) (by decide) (by decide)).elim fun t k => ⟨t, k.1⟩
theorem test_mtno (h : Obligations.HealthWorkAndAgeingFollowTheirRows) : Runs (.thermalStep 7500) (bg) :=
  Runs.eq (((h.2 (bg)).2.2.2 7500 (by decide)).1 (by decide))
theorem test_mtup (h : Obligations.HealthWorkAndAgeingFollowTheirRows) : Runs (.thermalStep 8001) (bg) :=
  Runs.of (((h.2 (bg)).2.2.2 8001 (by decide)).2.1 (by decide))
theorem test_mtdn (h : Obligations.HealthWorkAndAgeingFollowTheirRows) : Runs (.thermalStepDown 7700) (day1 (fun x => { x with thermal := 2, coolFrom := some 4 })) :=
  Runs.of (((h.2 (day1 (fun x => { x with thermal := 2, coolFrom := some 4 }))).2.2.2 7700 (by decide)).2.2 4 rfl (by decide) (by decide) (by decide))
/-- A long command runs. -/
def runs (j : Job) (s : State) : State := { s with tmc := { s.tmc with jobs := [j] } }
/-- A job of an operation over an object. -/
def jb (op obj : Nat) : Job := ⟨opGroup op, op, q0, 0, obj, true, []⟩
theorem test_lcq3 (h : Obligations.LongCommandsCompleteOnce) : Runs (.longCommandCompletion ⟨2, false⟩) (runs (jb 0x0205 1) (sst 3 on)) :=
  Runs.eq ((h (runs (jb 0x0205 1) (sst 3 on)) 2 (jb 0x0205 1) rfl).1 rfl (by decide))
theorem test_lcq4 (h : Obligations.LongCommandsCompleteOnce) : Runs (.longCommandCompletion ⟨2, false⟩) (runs (jb 0x0205 1) (sst 4 on)) :=
  Runs.eq ((h (runs (jb 0x0205 1) (sst 4 on)) 2 (jb 0x0205 1) rfl).2.1 rfl (by decide))
theorem test_lcq5 (h : Obligations.LongCommandsCompleteOnce) : Runs (.longCommandCompletion ⟨2, false⟩) (runs (jb 0x0205 1) (sst 5 on)) :=
  Runs.eq ((h (runs (jb 0x0205 1) (sst 5 on)) 2 (jb 0x0205 1) rfl).2.2.1 rfl (by decide))
theorem test_lcm (h : Obligations.LongCommandsCompleteOnce) : Runs (.longCommandCompletion ⟨12, false⟩) (runs (jb 0x0C04 0) (day1 (fun x => { x with meas := some (true, 5) }))) :=
  Runs.eq ((h (runs (jb 0x0C04 0) (day1 (fun x => { x with meas := some (true, 5) }))) 12 (jb 0x0C04 0) rfl).2.2.2.1 rfl (by decide))
theorem test_lcmd (h : Obligations.LongCommandsCompleteOnce) : Runs (.longCommandCompletion ⟨12, false⟩) (runs (jb 0x0C04 0) on) :=
  Runs.eq ((h (runs (jb 0x0C04 0) on) 12 (jb 0x0C04 0) rfl).2.2.2.2.1 rfl rfl)
theorem test_lcd (h : Obligations.LongCommandsCompleteOnce) : Runs (.longCommandCompletion ⟨11, false⟩) (runs (jb 0x0B0E 0) { on with dom := { on.dom with openStatus := some stFuseFail } }) :=
  Runs.eq ((h (runs (jb 0x0B0E 0) { on with dom := { on.dom with openStatus := some stFuseFail } }) 11 (jb 0x0B0E 0) rfl).2.2.2.2.2.1 stFuseFail rfl rfl)
/-- It is staged in ride-through. -/
def stgRide : State := runs (jb 0x0110 0) (sup (fun p => { p with mode := .rideThrough }) { domUp with tmc := { domUp.tmc with staging := some bundle0 } })
theorem stgRide_waits (v : Signs 55 bundle0) : stgRide.stageWaits = true := by
  have a : stgRide.stageBase.anchors 0 [4, 5, 6] = [55] := anchor_of rfl (by decide +kernel)
  have c : stgRide.stageBase.checked bundle0 = .inr (stgRide.stageBase.configured bundle0) := checked_of (signed_of v a) (by decide +kernel)
  have d : stgRide.tmc.staging = some bundle0 := rfl
  have e : stgRide.sup.mode = .rideThrough := rfl
  simp only [State.stageWaits, d, e, Option.any, c]; rfl
theorem test_lcsw (h : Obligations.LongCommandsCompleteOnce) (v : Signs 55 bundle0) :
    Runs (.longCommandCompletion ⟨1, false⟩) stgRide := Runs.eq ((h stgRide 1 (jb 0x0110 0) rfl).2.2.2.2.2.2.1 rfl (stgRide_waits v))
theorem test_lcs (h : Obligations.LongCommandsCompleteOnce) : Runs (.longCommandCompletion ⟨1, false⟩) (runs (jb 0x0110 0) on) :=
  Runs.eq ((h (runs (jb 0x0110 0) on) 1 (jb 0x0110 0) rfl).2.2.2.2.2.2.2.1 _ _ _ _ rfl (by decide) rfl)
theorem test_lccw (h : Obligations.LongCommandsCompleteOnce) : Runs (.longCommandCompletion ⟨1, false⟩) (runs (jb 0x0112 0) on) :=
  Runs.eq ((h (runs (jb 0x0112 0) on) 1 (jb 0x0112 0) rfl).2.2.2.2.2.2.2.2.1 rfl (by decide))
theorem test_lcc (h : Obligations.LongCommandsCompleteOnce) : Runs (.longCommandCompletion ⟨1, false⟩) (runs (jb 0x0112 0) opn) :=
  Runs.eq ((h (runs (jb 0x0112 0) opn) 1 (jb 0x0112 0) rfl).2.2.2.2.2.2.2.2.2.1 _ _ _ _ rfl (by decide) rfl)
theorem test_lcl (h : Obligations.LongCommandsCompleteOnce) : Runs (.longCommandCompletion ⟨6, false⟩) (runs (jb 0x0607 0) on) :=
  Runs.eq ((h (runs (jb 0x0607 0) on) 6 (jb 0x0607 0) rfl).2.2.2.2.2.2.2.2.2.2.1 _ _ _ _ rfl rfl)
theorem test_lce (h : Obligations.LongCommandsCompleteOnce) : Runs (.longCommandCompletion ⟨8, false⟩) (runs (jb 0x0807 0) on) :=
  Runs.eq ((h (runs (jb 0x0807 0) on) 8 (jb 0x0807 0) rfl).2.2.2.2.2.2.2.2.2.2.2.1 _ _ rfl rfl)
theorem test_lcsf (h : Obligations.LongCommandsCompleteOnce) : Runs (.longCommandCompletion ⟨10, false⟩) (runs (jb 0x0A04 0) (isl 1 id [])) :=
  Runs.eq (((h (runs (jb 0x0A04 0) (isl 1 id [])) 10 (jb 0x0A04 0) rfl).2.2.2.2.2.2.2.2.2.2.2.2.1 (.inr rfl)).1 (by decide))
theorem test_lcsd (h : Obligations.LongCommandsCompleteOnce) : Runs (.longCommandCompletion ⟨10, false⟩) (runs (jb 0x0A04 0) (isl 5 id [])) :=
  Runs.eq (((h (runs (jb 0x0A04 0) (isl 5 id [])) 10 (jb 0x0A04 0) rfl).2.2.2.2.2.2.2.2.2.2.2.2.1 (.inr rfl)).2 stConsistency (by decide))
theorem test_lcin (h : Obligations.LongCommandsCompleteOnce) : Runs (.longCommandCompletion ⟨12, true⟩) (runs (jb 0x0C04 0) on) :=
  ((h (runs (jb 0x0C04 0) on) 12 (jb 0x0C04 0) rfl).2.2.2.2.2.2.2.2.2.2.2.2.2.1).elim fun t k => ⟨_, k⟩
/-- A module that drives its pins. -/
def live : State := sup (fun x => { x with vioDriven := true, released := true, ppsHigh := true, vioEver := true, vioCar := 1800, inCold := false, rootPending := 0 }) on
theorem test_pins_live : live.pin .rstOutN = .high ∧ live.pin .ppsOut = .high ∧ live.pin .conTx = .high ∧ live.pin .faultN = .hiz := by decide
theorem test_pincar (h : Obligations.PinsGoDownWithTheModule) : Runs (.carRst) (live) :=
  Runs.of ((h (live)).1 (by decide))
theorem test_pincold (h : Obligations.PinsGoDownWithTheModule) : Runs (.coldReset 7) (live) :=
  Runs.of ((h (live)).2.1 7 (by decide) (by decide))
theorem test_pinth (h : Obligations.PinsGoDownWithTheModule) : Runs (.therm) (live) :=
  Runs.of ((h (live)).2.2.1 .therm (by decide))
theorem test_pinlk (h : Obligations.PinsGoDownWithTheModule) : Runs (.rootLock) (live) :=
  Runs.of ((h (live)).2.2.1 .rootLock (by decide))
theorem test_pinra (h : Obligations.PinsGoDownWithTheModule) : Runs (.rootRatio) (live) :=
  Runs.of ((h (live)).2.2.1 .rootRatio (by decide))
theorem test_pinbr (h : Obligations.PinsGoDownWithTheModule) : Runs (.brownout) (sup (fun x => { x with mode := .rideThrough }) live) :=
  Runs.of ((h (sup (fun x => { x with mode := .rideThrough }) live)).2.2.2.1 rfl (by decide))
theorem test_pinrs (h : Obligations.PinsGoDownWithTheModule) : Runs (.resetThreshold 6000) (live) :=
  Runs.of ((h (live)).2.2.2.2.1 6000 (by decide) (by decide))
theorem test_pinvi (h : Obligations.PinsGoDownWithTheModule) : Runs (.vioCarFault 100) (live) :=
  Runs.of ((h (live)).2.2.2.2.2 100 (by decide) (by decide))
theorem test_scenc (h : Obligations.ScarabWordsAndInstructionsAgree) : decodeTableWord 32 (0x01 * 2 ^ 26 + 5 * 2 ^ 22 + 77) = some (.scLd .e 77) :=
  h.1 (.scLd .e 77) _ rfl (by decide)
theorem test_scdec (h : Obligations.ScarabWordsAndInstructionsAgree) : encodeScarab (.scTof 9) = some (0x17 * 2 ^ 26 + 3 * 2 ^ 22 + 9) :=
  (h.2 (.scTof 9) (0x17 * 2 ^ 26 + 3 * 2 ^ 22 + 9) (by decide)).1

end Sys2Proof.Tests
end

section
/-! Accesses of the TMC to a register of a global page, and TMC.FAMILY_CAP (R5, R9 to R11). -/
namespace Sys2Proof.Machine

/-! ### Registers whose fields an access leaves alone (R10) -/

/-- R10: a read changes RC fields alone. -/
theorem State.clearRead_eq_self {s : State} {fs : List Field} (h : ∀ f ∈ fs, f.acc ≠ .rc) : s.clearRead fs = s := by
  induction fs with
  | nil => rfl
  | cons f fs ih =>
    obtain ⟨hf, hfs⟩ := List.forall_mem_cons.mp h
    rw [State.clearRead, List.foldl_cons, if_neg hf]
    exact ih hfs

theorem State.storeField_of_ro (s : State) (locked : Bool) (v : Nat) {f : Field} (h : f.acc = .ro) :
    s.storeField locked v f = s := by
  simp only [State.storeField, h]

/-- R10: a write changes no RO field. -/
theorem State.storeReg_eq_self {s : State} {fs : List Field} (locked : Bool) (v : Nat) (h : ∀ f ∈ fs, f.acc = .ro) :
    s.storeReg fs locked v = s := by
  induction fs with
  | nil => rfl
  | cons f fs ih =>
    obtain ⟨hf, hfs⟩ := List.forall_mem_cons.mp h
    rw [State.storeReg, List.foldl_cons, State.storeField_of_ro s locked v hf]
    exact ih hfs

/-! ### The TMC's accesses to the global pages: R29 grants them all -/

@[simp] theorem State.masterUp_tmc (s : State) : s.masterUp .tmc = true := rfl

/-- A read by the TMC of a global register at its own width. -/
theorem State.fabricRead_tmc_of_regAt {s : State} {a p k : Nat} {r : Register} (ha : regionAt a = .register)
    (hr : regAt a = some (r, p, k)) (hg : r.addr < sliceBase) :
    s.fabricRead .tmc a r.bytes =
      { s.clearRead (r.inst p k) with bus := .data ((s.shown r.addr).loadReg (r.inst p k)) } := by
  have hF : r.addr ≠ F.SLT_SP_F_FLAGS.addr := fun e => absurd (e ▸ hg) (by decide)
  simp [State.fabricRead, ha, State.regRead, State.actor, regGrant, State.pageShut, hr, hF, State.readWord,
    Nat.not_le.mpr hg]

/-- A write by the TMC of a global register at its own width. -/
theorem State.fabricWrite_tmc_of_regAt {s : State} {a p k v : Nat} {r : Register} (ha : regionAt a = .register)
    (hr : regAt a = some (r, p, k)) (hg : a < sliceBase) :
    s.fabricWrite .tmc a r.bytes v = s.globalWrite .tmc r.addr k (r.inst p k) v := by
  simp [State.fabricWrite, ha, State.regWrite, State.actor, regGrant, State.pageShut, hr, Nat.not_le.mpr hg]

/-- Registers that are neither a command or data register, nor the island's, nor one whose write is a command of its own. -/
def plainWrite (base : Nat) : Bool :=
  cmdBlocks.all (fun b => (blkBusy b).addr != base && (blkData b).addr != base) && !islandPage base &&
    decide (base ∉ [F.WVL_CTL_ARM.addr, F.WVL_RULE_COUNT_EVERY.addr, F.BLF_CURSOR_RSEQ.addr, F.BLF_STEP_NEXT.addr,
      F.PHM_FAULT_THERM.addr])

theorem State.globalWrite_of_plainWrite {s : State} {m : Master} {base k v : Nat} {fs : List Field}
    (h : plainWrite base = true) : s.globalWrite m base k fs v = { s.written base fs v with bus := .done } := by
  simp only [plainWrite, Bool.and_eq_true, List.all_eq_true, bne_iff_ne, Bool.not_eq_true', decide_eq_true_eq,
    List.mem_cons, List.not_mem_nil, or_false, not_or] at h
  obtain ⟨⟨hcmd, hisland⟩, harm, hrule, hcursor, hstep, hfault⟩ := h
  have hbusy : cmdBlocks.find? (fun b => (blkBusy b).addr == base) = none := by simpa using fun b hb => (hcmd b hb).1
  have hdata : cmdBlocks.find? (fun b => (blkData b).addr == base) = none := by simpa using fun b hb => (hcmd b hb).2
  have hwait : cmdBlocks.any (fun b => (blkData b).addr == base && s.flag (blkBusy b)) = false := by
    simpa using fun b hb e => absurd e (hcmd b hb).2
  simp [State.globalWrite, hbusy, hdata, hwait, hisland, harm, hrule, hcursor, hstep, hfault]

/-- A write that moves nothing in the machine but the register's own fields. -/
theorem State.written_eq_storeReg {s : State} {base v : Nat} {fs : List Field}
    (hpage : F.TBU_STATUS_STATE.addr / 0x10000 ≠ base / 0x10000)
    (hbase : base ∉ [F.SLE_LAT_TIME_PCLOSE.addr, F.ICL_CTL_EN.addr, F.SLE_CTL_EN.addr, F.DRE_CTL_EN.addr]) :
    s.written base fs v = s.storeReg fs s.tmc.locked v := by
  simp only [List.mem_cons, List.not_mem_nil, or_false, not_or] at hbase
  obtain ⟨htime, hicl, hsle, hdre⟩ := hbase
  simp [State.written, hpage, htime, hicl, hsle, hdre]

/-! ### TMC.FAMILY_CAP (R5) -/

/-- TMC.FAMILY_CAP as the register map lists it. -/
def familyCap : Register :=
  ⟨"TMC.FAMILY_CAP", 0x5000000004, 1, 0, 1, 4,
    [F.TMC_FAMILY_CAP_SV_STREAMS, F.TMC_FAMILY_CAP_SLICES, F.TMC_FAMILY_CAP_APP_CORES]⟩

theorem regAt_familyCap : regAt familyCap.addr = some (familyCap, 0, 0) := rfl

theorem familyCap_inst :
    familyCap.inst 0 0 = [F.TMC_FAMILY_CAP_SV_STREAMS, F.TMC_FAMILY_CAP_SLICES, F.TMC_FAMILY_CAP_APP_CORES] := rfl

/-- R5: every field of TMC.FAMILY_CAP is read-only. -/
theorem familyCap_ro : ∀ f ∈ familyCap.inst 0 0, f.acc = .ro := by decide

theorem State.loadReg_familyCap (s : State) :
    s.loadReg (familyCap.inst 0 0) = s.get F.TMC_FAMILY_CAP_SV_STREAMS * 2 ^ 16 + s.get F.TMC_FAMILY_CAP_SLICES * 2 ^ 8 +
      s.get F.TMC_FAMILY_CAP_APP_CORES := by
  simp [State.loadReg, familyCap_inst, sumN, F.TMC_FAMILY_CAP_SV_STREAMS, F.TMC_FAMILY_CAP_SLICES,
    F.TMC_FAMILY_CAP_APP_CORES]

/-- A read of TMC.FAMILY_CAP answers its three fields and changes nothing. -/
theorem exec_clearingRead_familyCap (s : State) :
    exec (.clearingRead .tmc familyCap.addr familyCap.bytes) s =
      .next { s with bus := .data (s.get F.TMC_FAMILY_CAP_SV_STREAMS * 2 ^ 16 + s.get F.TMC_FAMILY_CAP_SLICES * 2 ^ 8 +
        s.get F.TMC_FAMILY_CAP_APP_CORES) } := by
  have hrc : ∀ f ∈ familyCap.inst 0 0, f.acc ≠ .rc := fun f hf => by simp [familyCap_ro f hf]
  have hshown : s.shown familyCap.addr = s := by simp [State.shown, familyCap, regBase]
  rw [exec_clearingRead, execClearingRead, if_pos (State.masterUp_tmc s),
    State.fabricRead_tmc_of_regAt (by decide) regAt_familyCap (by decide), State.clearRead_eq_self hrc, hshown,
    State.loadReg_familyCap]

/-- R5, R10: a write of TMC.FAMILY_CAP ends and changes nothing. -/
theorem exec_registerWrite_familyCap (s : State) (v : Nat) :
    exec (.registerWrite .tmc familyCap.addr familyCap.bytes v) s = .next { s with bus := .done } := by
  rw [exec_registerWrite, execRegisterWrite, if_pos (State.masterUp_tmc s),
    State.fabricWrite_tmc_of_regAt (by decide) regAt_familyCap (by decide), State.globalWrite_of_plainWrite (by decide),
    State.written_eq_storeReg (by decide) (by decide), State.storeReg_eq_self _ v familyCap_ro]

/-- Settles O53: the three fields make the word 0x0400_8018, as the Reset columns do, and all are read-only. -/
theorem familyCapReportsTheMember : Obligations.FamilyCapReportsTheMember := by
  unfold Obligations.FamilyCapReportsTheMember
  have hread : ∀ s : State, s.get F.TMC_FAMILY_CAP_SV_STREAMS = 1024 → s.get F.TMC_FAMILY_CAP_SLICES = 128 →
      s.get F.TMC_FAMILY_CAP_APP_CORES = 24 →
      exec (.clearingRead .tmc 0x5000000004 4) s = .next { s with bus := .data 0x04008018 } := by
    intro s hstreams hslices hcores
    have h := exec_clearingRead_familyCap s
    rwa [hstreams, hslices, hcores] at h
  exact ⟨hread State.reset rfl rfl rfl, hread, exec_registerWrite_familyCap⟩

end Sys2Proof.Machine
end

section
/-! Accesses to addresses outside every region of the address map (R27, R28). -/
namespace Sys2Proof.Machine

/-- R27: the addresses outside every region are the gaps between the regions and what lies above the last of them. -/
theorem regionAt_eq_none_iff (a : Nat) :
    regionAt a = .none_ ↔
      (0x1000000000 ≤ a ∧ a < 0x4000000000) ∨ (0x4003000000 ≤ a ∧ a < 0x5000000000) ∨ (0x5001000000 ≤ a ∧ a < 0x5100000000) ∨
      (0x5100800000 ≤ a ∧ a < 0x6000000000) ∨ (0x6040000000 ≤ a ∧ a < 0x7000000000) ∨ 0x7000010000 ≤ a := by
  unfold regionAt dramEnd smemBase smemSize regBase sliceBase mramBase mramSize domeBase
  split_ifs <;> simp only [false_iff, true_iff] <;> omega

/-! ### What an access of each direction does there (R28) -/

section
variable {a : Nat} (ha : regionAt a = .none_) (s : State) (m : Master) (size v : Nat)
include ha

theorem State.fabricRead_outside : s.fabricRead m a size = s.turnAway (s.actor m) a := by
  simp only [State.fabricRead, ha]

theorem State.fabricWrite_outside : s.fabricWrite m a size v = s.turnAway (s.actor m) a := by
  simp only [State.fabricWrite, ha]

theorem State.storeGrant_outside (who : Actor) : s.storeGrant who a size = false := by
  simp only [State.storeGrant, ha]

theorem State.fabricAtomic_outside (f : AtomicOp) : s.fabricAtomic m a size f v = s.turnAway (s.actor m) a := by
  simp [State.fabricAtomic, State.storeGrant_outside ha]

/-- R28: of an application core, a load, a store and an atomic operation end alike. -/
theorem exec_coreRequest_outside {core : Nat} {hyp : Bool} (hup : s.masterUp (.core core hyp) = true) (op : CoreOp) :
    exec (.coreRequest ⟨core, hyp, a, size, op⟩) s = .next (s.turnAway (s.actor (.core core hyp)) a) := by
  rw [exec_coreRequest, execCoreRequest, hup]
  cases op with
  | load => simp [State.fabricRead_outside ha]
  | store v => simp [State.fabricWrite_outside ha]
  | atomic f v => simp [State.fabricAtomic_outside ha]

end

/-- R29, R351: the Slice Table counts no refused request of the TMC and none of an engine. -/
theorem State.refused_of_tmc_or_engine (s : State) {who : Actor} (h : who = .tmc ∨ who = .engine) (a : Nat) :
    s.refused who a = s := by
  obtain rfl | rfl := h <;> rfl

/-- Settles O54: the address has no region, so every access is turned away: refused with a bus error. -/
theorem accessesOutsideEveryRegionAreBusErrors : Obligations.AccessesOutsideEveryRegionAreBusErrors := by
  unfold Obligations.AccessesOutsideEveryRegionAreBusErrors
  intro s m a size v houtside hup
  have ha : regionAt a = .none_ := (regionAt_eq_none_iff a).mpr houtside
  refine ⟨s.turnAway (s.actor m) a, ?write, ?read, ?core, rfl, rfl, ?uncounted⟩
  case write => rw [exec_registerWrite, execRegisterWrite, if_pos hup, State.fabricWrite_outside ha]
  case read => rw [exec_clearingRead, execClearingRead, if_pos hup, State.fabricRead_outside ha]
  case core =>
    rintro core hyp rfl op
    exact exec_coreRequest_outside ha s size hup op
  case uncounted =>
    intro hwho
    rw [State.turnAway, State.refused_of_tmc_or_engine s hwho, State.busError]

end Sys2Proof.Machine
end

section
/-! Which parts of the state an operation writes: the frame of every operation, in one relation that composes. -/
namespace Sys2Proof.Machine

-- one proof after the other: started together they wait on each other's results, each in a thread of its own
set_option Elab.async false

/-- The parts of the state, one per field of `State`. -/
inductive StatePart
  | regs | mem | bus | sup | keep | qbc | tbu | mac | pairs | wvl | ing | lat | phe | gcm | slp | pub | dre | slt | prc | psc | dom | tmc | hlt | cmds | free | pending
  deriving DecidableEq

/-- A part of the state is the same in two states. -/
def StatePart.Same : StatePart → State → State → Prop
  | .regs, s, t => t.regs = s.regs
  | .mem, s, t => t.mem = s.mem
  | .bus, s, t => t.bus = s.bus
  | .sup, s, t => t.sup = s.sup
  | .keep, s, t => t.keep = s.keep
  | .qbc, s, t => t.qbc = s.qbc
  | .tbu, s, t => t.tbu = s.tbu
  | .mac, s, t => t.mac = s.mac
  | .pairs, s, t => t.pairs = s.pairs
  | .wvl, s, t => t.wvl = s.wvl
  | .ing, s, t => t.ing = s.ing
  | .lat, s, t => t.lat = s.lat
  | .phe, s, t => t.phe = s.phe
  | .gcm, s, t => t.gcm = s.gcm
  | .slp, s, t => t.slp = s.slp
  | .pub, s, t => t.pub = s.pub
  | .dre, s, t => t.dre = s.dre
  | .slt, s, t => t.slt = s.slt
  | .prc, s, t => t.prc = s.prc
  | .psc, s, t => t.psc = s.psc
  | .dom, s, t => t.dom = s.dom
  | .tmc, s, t => t.tmc = s.tmc
  | .hlt, s, t => t.hlt = s.hlt
  | .cmds, s, t => t.cmds = s.cmds
  | .free, s, t => t.free = s.free
  | .pending, s, t => t.pending = s.pending

/-- From `s` to `t` the parts listed may change, and no other. -/
structure Touches (l : List StatePart) (s t : State) : Prop where
  same : ∀ p, p ∉ l → p.Same s t

section
variable {l : List StatePart} {s t u : State}

theorem Touches.refl (l : List StatePart) (s : State) : Touches l s s := by
  constructor
  intro p _
  cases p <;> rfl

theorem Touches.trans (h : Touches l s t) (k : Touches l t u) : Touches l s u := by
  constructor
  intro p hp
  have hst := h.same p hp
  have htu := k.same p hp
  cases p <;> exact Eq.trans htu hst

theorem Touches.mono {m : List StatePart} (h : Touches l s t) (hlm : l ⊆ m) : Touches m s t :=
  ⟨fun p hp => h.same p (fun hl => hp (hlm hl))⟩

theorem Touches.ite {c : Prop} [Decidable c] (ht : Touches l s t) (hu : Touches l s u) : Touches l s (if c then t else u) := by
  split <;> assumption

theorem Touches.foldl {β : Type} {f : State → β → State} (hf : ∀ u b, Touches l s u → Touches l s (f u b)) (bs : List β)
    (h : Touches l s t) : Touches l s (bs.foldl f t) := by
  induction bs generalizing t with
  | nil => exact h
  | cons b bs ih => exact ih (hf t b h)

/-! ### What a part outside the list is -/

theorem Touches.regs_eq (h : Touches l s t) (hp : StatePart.regs ∉ l := by simp) : t.regs = s.regs := h.same .regs hp
theorem Touches.mem_eq (h : Touches l s t) (hp : StatePart.mem ∉ l := by simp) : t.mem = s.mem := h.same .mem hp
theorem Touches.bus_eq (h : Touches l s t) (hp : StatePart.bus ∉ l := by simp) : t.bus = s.bus := h.same .bus hp
theorem Touches.sup_eq (h : Touches l s t) (hp : StatePart.sup ∉ l := by simp) : t.sup = s.sup := h.same .sup hp
theorem Touches.keep_eq (h : Touches l s t) (hp : StatePart.keep ∉ l := by simp) : t.keep = s.keep := h.same .keep hp
theorem Touches.qbc_eq (h : Touches l s t) (hp : StatePart.qbc ∉ l := by simp) : t.qbc = s.qbc := h.same .qbc hp
theorem Touches.tbu_eq (h : Touches l s t) (hp : StatePart.tbu ∉ l := by simp) : t.tbu = s.tbu := h.same .tbu hp
theorem Touches.mac_eq (h : Touches l s t) (hp : StatePart.mac ∉ l := by simp) : t.mac = s.mac := h.same .mac hp
theorem Touches.pairs_eq (h : Touches l s t) (hp : StatePart.pairs ∉ l := by simp) : t.pairs = s.pairs := h.same .pairs hp
theorem Touches.wvl_eq (h : Touches l s t) (hp : StatePart.wvl ∉ l := by simp) : t.wvl = s.wvl := h.same .wvl hp
theorem Touches.ing_eq (h : Touches l s t) (hp : StatePart.ing ∉ l := by simp) : t.ing = s.ing := h.same .ing hp
theorem Touches.lat_eq (h : Touches l s t) (hp : StatePart.lat ∉ l := by simp) : t.lat = s.lat := h.same .lat hp
theorem Touches.phe_eq (h : Touches l s t) (hp : StatePart.phe ∉ l := by simp) : t.phe = s.phe := h.same .phe hp
theorem Touches.gcm_eq (h : Touches l s t) (hp : StatePart.gcm ∉ l := by simp) : t.gcm = s.gcm := h.same .gcm hp
theorem Touches.slp_eq (h : Touches l s t) (hp : StatePart.slp ∉ l := by simp) : t.slp = s.slp := h.same .slp hp
theorem Touches.pub_eq (h : Touches l s t) (hp : StatePart.pub ∉ l := by simp) : t.pub = s.pub := h.same .pub hp
theorem Touches.dre_eq (h : Touches l s t) (hp : StatePart.dre ∉ l := by simp) : t.dre = s.dre := h.same .dre hp
theorem Touches.slt_eq (h : Touches l s t) (hp : StatePart.slt ∉ l := by simp) : t.slt = s.slt := h.same .slt hp
theorem Touches.prc_eq (h : Touches l s t) (hp : StatePart.prc ∉ l := by simp) : t.prc = s.prc := h.same .prc hp
theorem Touches.psc_eq (h : Touches l s t) (hp : StatePart.psc ∉ l := by simp) : t.psc = s.psc := h.same .psc hp
theorem Touches.dom_eq (h : Touches l s t) (hp : StatePart.dom ∉ l := by simp) : t.dom = s.dom := h.same .dom hp
theorem Touches.tmc_eq (h : Touches l s t) (hp : StatePart.tmc ∉ l := by simp) : t.tmc = s.tmc := h.same .tmc hp
theorem Touches.hlt_eq (h : Touches l s t) (hp : StatePart.hlt ∉ l := by simp) : t.hlt = s.hlt := h.same .hlt hp
theorem Touches.cmds_eq (h : Touches l s t) (hp : StatePart.cmds ∉ l := by simp) : t.cmds = s.cmds := h.same .cmds hp
theorem Touches.free_eq (h : Touches l s t) (hp : StatePart.free ∉ l := by simp) : t.free = s.free := h.same .free hp
theorem Touches.pending_eq (h : Touches l s t) (hp : StatePart.pending ∉ l := by simp) : t.pending = s.pending := h.same .pending hp

theorem Touches.get_eq (h : Touches l s t) (g : Field) (hp : StatePart.regs ∉ l := by simp) : t.get g = s.get g := by
  rw [State.get, State.get, h.regs_eq hp]

theorem Touches.flag_eq (h : Touches l s t) (g : Field) (hp : StatePart.regs ∉ l := by simp) : t.flag g = s.flag g := by
  rw [State.flag, State.flag, h.get_eq g hp]

theorem Touches.now_eq (h : Touches l s t) (hp : StatePart.tbu ∉ l := by simp) : t.now = s.now := by
  rw [State.now, State.now, h.tbu_eq hp]

/-! ### A part written -/

theorem Touches.set_regs (h : Touches l s t) (x : Tbl Nat) (hp : StatePart.regs ∈ l := by simp) : Touches l s { t with regs := x } := by
  constructor
  intro q hq
  cases q
  case regs => exact absurd hp hq
  all_goals exact h.same _ hq

theorem Touches.set_mem (h : Touches l s t) (x : List Host.Cell) (hp : StatePart.mem ∈ l := by simp) : Touches l s { t with mem := x } := by
  constructor
  intro q hq
  cases q
  case mem => exact absurd hp hq
  all_goals exact h.same _ hq

theorem Touches.set_bus (h : Touches l s t) (x : BusResp) (hp : StatePart.bus ∈ l := by simp) : Touches l s { t with bus := x } := by
  constructor
  intro q hq
  cases q
  case bus => exact absurd hp hq
  all_goals exact h.same _ hq

theorem Touches.set_sup (h : Touches l s t) (x : Supply) (hp : StatePart.sup ∈ l := by simp) : Touches l s { t with sup := x } := by
  constructor
  intro q hq
  cases q
  case sup => exact absurd hp hq
  all_goals exact h.same _ hq

theorem Touches.set_keep (h : Touches l s t) (x : Keep) (hp : StatePart.keep ∈ l := by simp) : Touches l s { t with keep := x } := by
  constructor
  intro q hq
  cases q
  case keep => exact absurd hp hq
  all_goals exact h.same _ hq

theorem Touches.set_qbc (h : Touches l s t) (x : Qbc) (hp : StatePart.qbc ∈ l := by simp) : Touches l s { t with qbc := x } := by
  constructor
  intro q hq
  cases q
  case qbc => exact absurd hp hq
  all_goals exact h.same _ hq

theorem Touches.set_tbu (h : Touches l s t) (x : Tbu) (hp : StatePart.tbu ∈ l := by simp) : Touches l s { t with tbu := x } := by
  constructor
  intro q hq
  cases q
  case tbu => exact absurd hp hq
  all_goals exact h.same _ hq

theorem Touches.set_mac (h : Touches l s t) (x : Tbl Mac) (hp : StatePart.mac ∈ l := by simp) : Touches l s { t with mac := x } := by
  constructor
  intro q hq
  cases q
  case mac => exact absurd hp hq
  all_goals exact h.same _ hq

theorem Touches.set_pairs (h : Touches l s t) (x : Tbl Pair) (hp : StatePart.pairs ∈ l := by simp) : Touches l s { t with pairs := x } := by
  constructor
  intro q hq
  cases q
  case pairs => exact absurd hp hq
  all_goals exact h.same _ hq

theorem Touches.set_wvl (h : Touches l s t) (x : Wvl) (hp : StatePart.wvl ∈ l := by simp) : Touches l s { t with wvl := x } := by
  constructor
  intro q hq
  cases q
  case wvl => exact absurd hp hq
  all_goals exact h.same _ hq

theorem Touches.set_ing (h : Touches l s t) (x : Ingress) (hp : StatePart.ing ∈ l := by simp) : Touches l s { t with ing := x } := by
  constructor
  intro q hq
  cases q
  case ing => exact absurd hp hq
  all_goals exact h.same _ hq

theorem Touches.set_lat (h : Touches l s t) (x : Tbl Lattice) (hp : StatePart.lat ∈ l := by simp) : Touches l s { t with lat := x } := by
  constructor
  intro q hq
  cases q
  case lat => exact absurd hp hq
  all_goals exact h.same _ hq

theorem Touches.set_phe (h : Touches l s t) (x : Phe) (hp : StatePart.phe ∈ l := by simp) : Touches l s { t with phe := x } := by
  constructor
  intro q hq
  cases q
  case phe => exact absurd hp hq
  all_goals exact h.same _ hq

theorem Touches.set_gcm (h : Touches l s t) (x : Gcm) (hp : StatePart.gcm ∈ l := by simp) : Touches l s { t with gcm := x } := by
  constructor
  intro q hq
  cases q
  case gcm => exact absurd hp hq
  all_goals exact h.same _ hq

theorem Touches.set_slp (h : Touches l s t) (x : Slp) (hp : StatePart.slp ∈ l := by simp) : Touches l s { t with slp := x } := by
  constructor
  intro q hq
  cases q
  case slp => exact absurd hp hq
  all_goals exact h.same _ hq

theorem Touches.set_pub (h : Touches l s t) (x : Pub) (hp : StatePart.pub ∈ l := by simp) : Touches l s { t with pub := x } := by
  constructor
  intro q hq
  cases q
  case pub => exact absurd hp hq
  all_goals exact h.same _ hq

theorem Touches.set_dre (h : Touches l s t) (x : Dre) (hp : StatePart.dre ∈ l := by simp) : Touches l s { t with dre := x } := by
  constructor
  intro q hq
  cases q
  case dre => exact absurd hp hq
  all_goals exact h.same _ hq

theorem Touches.set_slt (h : Touches l s t) (x : Slt) (hp : StatePart.slt ∈ l := by simp) : Touches l s { t with slt := x } := by
  constructor
  intro q hq
  cases q
  case slt => exact absurd hp hq
  all_goals exact h.same _ hq

theorem Touches.set_prc (h : Touches l s t) (x : Prc) (hp : StatePart.prc ∈ l := by simp) : Touches l s { t with prc := x } := by
  constructor
  intro q hq
  cases q
  case prc => exact absurd hp hq
  all_goals exact h.same _ hq

theorem Touches.set_psc (h : Touches l s t) (x : Island) (hp : StatePart.psc ∈ l := by simp) : Touches l s { t with psc := x } := by
  constructor
  intro q hq
  cases q
  case psc => exact absurd hp hq
  all_goals exact h.same _ hq

theorem Touches.set_dom (h : Touches l s t) (x : Dome) (hp : StatePart.dom ∈ l := by simp) : Touches l s { t with dom := x } := by
  constructor
  intro q hq
  cases q
  case dom => exact absurd hp hq
  all_goals exact h.same _ hq

theorem Touches.set_tmc (h : Touches l s t) (x : Tmc) (hp : StatePart.tmc ∈ l := by simp) : Touches l s { t with tmc := x } := by
  constructor
  intro q hq
  cases q
  case tmc => exact absurd hp hq
  all_goals exact h.same _ hq

theorem Touches.set_hlt (h : Touches l s t) (x : Health) (hp : StatePart.hlt ∈ l := by simp) : Touches l s { t with hlt := x } := by
  constructor
  intro q hq
  cases q
  case hlt => exact absurd hp hq
  all_goals exact h.same _ hq

theorem Touches.set_cmds (h : Touches l s t) (x : Tbl CmdOut) (hp : StatePart.cmds ∈ l := by simp) : Touches l s { t with cmds := x } := by
  constructor
  intro q hq
  cases q
  case cmds => exact absurd hp hq
  all_goals exact h.same _ hq

theorem Touches.set_free (h : Touches l s t) (x : Nat) (hp : StatePart.free ∈ l := by simp) : Touches l s { t with free := x } := by
  constructor
  intro q hq
  cases q
  case free => exact absurd hp hq
  all_goals exact h.same _ hq

theorem Touches.set_pending (h : Touches l s t) (x : List Instr) (hp : StatePart.pending ∈ l := by simp) : Touches l s { t with pending := x } := by
  constructor
  intro q hq
  cases q
  case pending => exact absurd hp hq
  all_goals exact h.same _ hq

/-! ### The operations that blocks share -/

section
variable (h : Touches l s t)
include h

theorem Touches.setF (f : Field) (v : Nat) (hp : StatePart.regs ∈ l := by simp) : Touches l s (t.setF f v) := h.set_regs _ hp

theorem Touches.setB (f : Field) (b : Bool) (hp : StatePart.regs ∈ l := by simp) : Touches l s (t.setB f b) := h.set_regs _ hp

theorem Touches.setI (f : Field) (v : Int) (hp : StatePart.regs ∈ l := by simp) : Touches l s (t.setI f v) := h.set_regs _ hp

theorem Touches.bumpBy (f : Field) (n : Nat) (hp : StatePart.regs ∈ l := by simp) : Touches l s (t.bumpBy f n) := h.set_regs _ hp

theorem Touches.bump (f : Field) (hp : StatePart.regs ∈ l := by simp) : Touches l s (t.bump f) := h.set_regs _ hp

theorem Touches.writeField (f : Field) (v : Nat) (hp : StatePart.regs ∈ l := by simp) : Touches l s (t.writeField f v) := by
  unfold State.writeField
  exact Touches.ite (h.setF f v hp) h

theorem Touches.clearPage (lo hi : Nat) (hp : StatePart.regs ∈ l := by simp) : Touches l s (t.clearPage lo hi) := h.set_regs _ hp

theorem Touches.wr (a n v : Nat) (hp : StatePart.mem ∈ l := by simp) : Touches l s (t.wr a n v) := h.set_mem _ hp

theorem Touches.wr64 (a v : Nat) (hp : StatePart.mem ∈ l := by simp) : Touches l s (t.wr64 a v) := h.set_mem _ hp

theorem Touches.wrOctets (a : Nat) (o : Octets) (hp : StatePart.mem ∈ l := by simp) : Touches l s (t.wrOctets a o) := h.set_mem _ hp

theorem Touches.wrWords (a : Nat) (ws : List Nat) (hp : StatePart.mem ∈ l := by simp) : Touches l s (t.wrWords a ws) := by
  induction ws generalizing t a with
  | nil => exact h
  | cons w ws ih => exact ih (h.wr64 a w hp) (a + 8)

theorem Touches.advanceTo (at_ : Time) (hp : StatePart.tbu ∈ l := by simp) : Touches l s (t.advanceTo at_) := h.set_tbu _ hp

theorem Touches.drawn (hp : StatePart.free ∈ l := by simp) : Touches l s t.drawn := h.set_free _ hp

theorem Touches.modSlice (n : Nat) (f : Slice → Slice) (hp : StatePart.slt ∈ l := by simp) : Touches l s (t.modSlice n f) := h.set_slt _ hp

theorem Touches.modRing (r : Nat) (f : Ring → Ring) (hp : StatePart.slt ∈ l := by simp) : Touches l s (t.modRing r f) := h.set_slt _ hp

theorem Touches.sendIrq (r : Nat) (hp : StatePart.slt ∈ l := by simp) : Touches l s (t.sendIrq r) := h.set_slt _ hp

/-- A ring's head that moves on writes the Slice Table's structures alone. -/
theorem Touches.advanceHead (r k : Nat) (hp : StatePart.slt ∈ l := by simp) : Touches l s (t.advanceHead r k) := by
  unfold State.advanceHead State.headIrq
  have hk := h.modRing r (fun g => { g with head := (g.head + k) % 65536 }) hp
  exact Touches.ite hk (Touches.ite (hk.modRing _ _ hp) ((hk.sendIrq _ hp).modRing _ _ hp))

/-- R338: an event writes its ring in memory, the Slice Table's structures, and the count of lost events. -/
theorem Touches.event (n code source param param2 : Nat) (hr : StatePart.regs ∈ l := by simp) (hm : StatePart.mem ∈ l := by decide)
    (hs : StatePart.slt ∈ l := by simp) : Touches l s (t.event n code source param param2) := by
  unfold State.event
  exact Touches.ite ((h.modSlice _ _ hs).bump _ hr) (((h.wrWords _ _ hm).modSlice _ _ hs).advanceHead _ _ hs)

end

end

/-! ### The register fields that an operation writes -/

theorem SameFieldsBut.refl (fs : List Field) (s : State) : SameFieldsBut fs s s := fun _ _ => rfl

theorem SameFieldsBut.trans {fs : List Field} {s t u : State} (h : SameFieldsBut fs s t) (k : SameFieldsBut fs t u) :
    SameFieldsBut fs s u := fun g hg => (k g hg).trans (h g hg)

theorem SameFieldsBut.mono {fs gs : List Field} {s t : State} (h : SameFieldsBut fs s t) (hsub : fs ⊆ gs) : SameFieldsBut gs s t :=
  fun g hg => h g (fun f hf => hg f (hsub hf))

theorem SameFieldsBut.of_regs {fs : List Field} {s t : State} (h : t.regs = s.regs) : SameFieldsBut fs s t := by
  intro g _
  rw [State.get, State.get, h]

theorem Touches.sameFieldsBut {l : List StatePart} {s t : State} (h : Touches l s t) (fs : List Field) (hp : StatePart.regs ∉ l := by simp) :
    SameFieldsBut fs s t := .of_regs (h.regs_eq hp)

theorem sameFieldsBut_setF (s : State) (f : Field) (v : Nat) : SameFieldsBut [f] s (s.setF f v) := by
  intro g hg
  exact State.get_setF_ne s v (Ne.symm (hg f (List.mem_singleton.mpr rfl)))

theorem sameFieldsBut_setB (s : State) (f : Field) (b : Bool) : SameFieldsBut [f] s (s.setB f b) := sameFieldsBut_setF s f _

theorem sameFieldsBut_bump (s : State) (f : Field) : SameFieldsBut [f] s (s.bump f) := sameFieldsBut_setF s f _

/-- R338: of the registers an event touches the count of lost events alone. -/
theorem sameFieldsBut_event (s : State) (n code source param param2 : Nat) :
    SameFieldsBut [F.SLT_CNT_COUNT.nth 3] s (s.event n code source param param2) := by
  unfold State.event
  dsimp only
  split
  · exact sameFieldsBut_bump _ _
  · exact ((((Touches.refl [.mem, .slt] s).wrWords _ _).modSlice _ _).advanceHead _ _).sameFieldsBut _

/-- The value of a saturating count fits its field. -/
theorem min_mod_width (n w : Nat) : min n (2 ^ w - 1) % 2 ^ w = min n (2 ^ w - 1) :=
  Nat.mod_eq_of_lt (by have := Nat.two_pow_pos w; omega)

end Sys2Proof.Machine
end

section
/-! What every step keeps (R8, R27, log 1, log 8, log 13): the canonical form of memory and of the register file, and the queue. -/
namespace Sys2Proof.Machine

-- one proof after the other: started together they wait on each other's results, each in a thread of its own
set_option Elab.async false

/-- Whatever command it is, its next state keeps what `Keeps` names: one case per constructor, each by that command's own law. -/
theorem exec_keeps (c : Instr) (s : State) : KeepsR s (exec c s) := by
  have hr := Keeps.refl s
  cases c with
  | registerWrite _ _ _ _ => exact execRegisterWrite_keeps hr
  | clearingRead _ _ _ => exact execClearingRead_keeps hr
  | commandOperationEnd _ => exact execCommandOperationEnd_keeps hr
  | coreRequest _ => exact execCoreRequest_keeps hr
  | powerUp _ _ => exact execPowerUp_keeps hr
  | railInRegulation _ => exact execRailInRegulation_keeps hr
  | railFault _ => exact execRailFault_keeps hr
  | rideThroughEntry _ => exact execRideThroughEntry_keeps hr
  | returnThreshold _ => exact execReturnThreshold_keeps hr
  | returnTimerStop _ => exact execReturnTimerStop_keeps hr
  | returnTimerExpiry => exact execReturnTimerExpiry_keeps hr
  | brownout => exact execBrownout_keeps hr
  | resetThreshold _ => exact execResetThreshold_keeps hr
  | railTakedown => exact execRailTakedown_keeps hr
  | vioCarFault _ => exact execVioCarFault_keeps hr
  | carRst => exact execCarRst_keeps hr
  | feedLost _ => exact execFeedLost_keeps hr
  | faultBitReassert _ => exact execFaultBitReassert_keeps hr
  | therm => exact execTherm_keeps hr
  | supplyStatusUpdate _ => exact execSupplyStatusUpdate_keeps hr
  | rootLock => exact execRootLock_keeps hr
  | rootRatio => exact execRootRatio_keeps hr
  | rootFaultResponse => exact execRootFaultResponse_keeps hr
  | coldReset _ => exact execColdReset_keeps hr
  | warmReset => exact execWarmReset_keeps hr
  | vkeepLow => exact execVkeepLow_keeps hr
  | keepReset => exact execKeepReset_keeps hr
  | prepareComplete => exact execPrepareComplete_keeps hr
  | qbcStart => exact execQbcStart_keeps hr
  | groupBEnable => exact execGroupBEnable_keeps hr
  | qbFrame _ => exact execQbFrame_keeps hr
  | secondBoundary => exact execSecondBoundary_keeps hr
  | ppsOutFall => exact execPpsOutFall_keeps hr
  | tdcCalibrationStart _ _ => exact execTdcCalibrationStart_keeps hr
  | tdcCalibrationDone _ _ _ => exact execTdcCalibrationDone_keeps hr
  | ptpSyncRx _ => exact execPtpSyncRx_keeps hr
  | ptpFollowUpRx _ => exact execPtpFollowUpRx_keeps hr
  | ptpAnnounceRx _ => exact execPtpAnnounceRx_keeps hr
  | ptpPdelayReqRx _ _ _ _ => exact execPtpPdelayReqRx_keeps hr
  | ptpPdelayRespRx _ => exact execPtpPdelayRespRx_keeps hr
  | ptpAnnounceTx => exact execPtpAnnounceTx_keeps hr
  | ptpSyncTx => exact execPtpSyncTx_keeps hr
  | ptpPdelayReqTx => exact execPtpPdelayReqTx_keeps hr
  | masterLost => exact execMasterLost_keeps hr
  | fallbackMaster => exact execFallbackMaster_keeps hr
  | holdSpecExpiry => exact execHoldSpecExpiry_keeps hr
  | ppsInEdge _ => exact execPpsInEdge_keeps hr
  | ppsInTimeout => exact execPpsInTimeout_keeps hr
  | macRxFrame _ => exact execMacRxFrame_keeps hr
  | rxDescriptorsComplete _ => exact execRxDescriptorsComplete_keeps hr
  | linkUp _ => exact execLinkUp_keeps hr
  | linkDown _ => exact execLinkDown_keeps hr
  | macTxStart _ => exact execMacTxStart_keeps hr
  | macTxEnd _ => exact execMacTxEnd_keeps hr
  | hsrEntryExpiry _ _ _ => exact execHsrEntryExpiry_keeps hr
  | supervisionTx _ => exact execSupervisionTx_keeps hr
  | pauseEnd _ => exact execPauseEnd_keeps hr
  | pauseWd _ => exact execPauseWd_keeps hr
  | pauseIgnoreEnd _ => exact execPauseIgnoreEnd_keeps hr
  | pauseRepeat _ => exact execPauseRepeat_keeps hr
  | lpiEntry _ => exact execLpiEntry_keeps hr
  | lpiWakeEnd _ => exact execLpiWakeEnd_keeps hr
  | lldpTx _ => exact execLldpTx_keeps hr
  | weevilDelayEnd _ _ => exact execWeevilDelayEnd_keeps hr
  | weevilDuplicateCopy _ => exact execWeevilDuplicateCopy_keeps hr
  | weevilLinkDownEnd _ => exact execWeevilLinkDownEnd_keeps hr
  | wvlArmWrite _ _ => exact execWvlArmWrite_keeps hr
  | wvlRuleCountWrite _ _ _ => exact execWvlRuleCountWrite_keeps hr
  | dupEntryExpiry _ _ _ => exact execDupEntryExpiry_keeps hr
  | gooseTalExpiry _ => exact execGooseTalExpiry_keeps hr
  | tagResult _ _ => exact execTagResult_keeps hr
  | svLoss _ => exact execSvLoss_keeps hr
  | svHealthRestore _ => exact execSvHealthRestore_keeps hr
  | altRestore _ => exact execAltRestore_keeps hr
  | latticeWrite => exact execLatticeWrite_keeps hr
  | provisionalClose _ => exact execProvisionalClose_keeps hr
  | instantDeadline _ => exact execInstantDeadline_keeps hr
  | pheFold _ => exact execPheFold_keeps hr
  | phasorsReady _ _ => exact execPhasorsReady_keeps hr
  | guardResultsReady _ _ => exact execGuardResultsReady_keeps hr
  | timedCycleStart _ => exact execTimedCycleStart_keeps hr
  | perInstantCycleStart _ => exact execPerInstantCycleStart_keeps hr
  | cycleResume _ => exact execCycleResume_keeps hr
  | cycleEnd _ => exact execCycleEnd_keeps hr
  | scNop => exact execScNop_keeps hr
  | scLd _ _ => exact execScLd_keeps hr
  | scLdn _ _ => exact execScLdn_keeps hr
  | scAnd _ _ => exact execScAnd_keeps hr
  | scAndn _ _ => exact execScAndn_keeps hr
  | scOr _ _ => exact execScOr_keeps hr
  | scOrn _ _ => exact execScOrn_keeps hr
  | scXor _ _ => exact execScXor_keeps hr
  | scXorn _ _ => exact execScXorn_keeps hr
  | scAndParen _ _ => exact execScAndParen_keeps hr
  | scAndnParen _ _ => exact execScAndnParen_keeps hr
  | scOrParen _ _ => exact execScOrParen_keeps hr
  | scOrnParen _ _ => exact execScOrnParen_keeps hr
  | scXorParen _ _ => exact execScXorParen_keeps hr
  | scCloseParen => exact execScCloseParen_keeps hr
  | scNot => exact execScNot_keeps hr
  | scSt _ _ => exact execScSt_keeps hr
  | scStn _ _ => exact execScStn_keeps hr
  | scSet _ _ => exact execScSet_keeps hr
  | scRst _ _ => exact execScRst_keeps hr
  | scEdgr _ => exact execScEdgr_keeps hr
  | scEdgf _ => exact execScEdgf_keeps hr
  | scTon _ => exact execScTon_keeps hr
  | scTof _ => exact execScTof_keeps hr
  | scTp _ => exact execScTp_keeps hr
  | scTret _ => exact execScTret_keeps hr
  | scTrst _ => exact execScTrst_keeps hr
  | scCtu _ => exact execScCtu_keeps hr
  | scCtd _ => exact execScCtd_keeps hr
  | scCrst _ => exact execScCrst_keeps hr
  | scJmp _ => exact execScJmp_keeps hr
  | scJmpc _ => exact execScJmpc_keeps hr
  | scJmpcn _ => exact execScJmpcn_keeps hr
  | scEnd => exact execScEnd_keeps hr
  | scEndc => exact execScEndc_keeps hr
  | gooseRetransmit _ => exact execGooseRetransmit_keeps hr
  | pubDescriptorFetch _ => exact execPubDescriptorFetch_keeps hr
  | txDescriptorFetch _ => exact execTxDescriptorFetch_keeps hr
  | doorbellWrite _ _ _ _ => exact execDoorbellWrite_keeps hr
  | fWrite _ _ _ _ => exact execFWrite_keeps hr
  | ftagWrite _ _ _ _ => exact execFtagWrite_keeps hr
  | irqModerationEnd _ => exact execIrqModerationEnd_keeps hr
  | quiesceDrained _ => exact execQuiesceDrained_keeps hr
  | quiesceLimit _ => exact execQuiesceLimit_keeps hr
  | heartbeatTick => exact execHeartbeatTick_keeps hr
  | heartbeatRx _ => exact execHeartbeatRx_keeps hr
  | peerSilence => exact execPeerSilence_keeps hr
  | soloWaitExpiry => exact execSoloWaitExpiry_keeps hr
  | leaseLapse => exact execLeaseLapse_keeps hr
  | takeoverGapEnd => exact execTakeoverGapEnd_keeps hr
  | handoverTx => exact execHandoverTx_keeps hr
  | switchTimeout => exact execSwitchTimeout_keeps hr
  | handoverRx _ _ => exact execHandoverRx_keeps hr
  | digestRx _ _ => exact execDigestRx_keeps hr
  | digestUnpaired _ _ => exact execDigestUnpaired_keeps hr
  | imageReqRx _ _ => exact execImageReqRx_keeps hr
  | imageRx _ _ _ _ => exact execImageRx_keeps hr
  | pubSyncRx _ _ => exact execPubSyncRx_keeps hr
  | partTimeout _ => exact execPartTimeout_keeps hr
  | islandCycle _ => exact execIslandCycle_keeps hr
  | islandFault _ => exact execIslandFault_keeps hr
  | testPulse _ => exact execTestPulse_keeps hr
  | cpwUpdate => exact execCpwUpdate_keeps hr
  | cpwTimeout => exact execCpwTimeout_keeps hr
  | arcSelftest _ _ => exact execArcSelftest_keeps hr
  | feedbackCheck _ _ => exact execFeedbackCheck_keeps hr
  | islandSelftestDone => exact execIslandSelftestDone_keeps hr
  | proofTestStep _ _ => exact execProofTestStep_keeps hr
  | domeRestart _ => exact execDomeRestart_keeps hr
  | keySweepDone => exact execKeySweepDone_keeps hr
  | keyActivate _ => exact execKeyActivate_keeps hr
  | keyExpire _ => exact execKeyExpire_keeps hr
  | debugChallengeExpiry => exact execDebugChallengeExpiry_keeps hr
  | debugPortClose => exact execDebugPortClose_keeps hr
  | mbxDoorbell _ _ _ => exact execMbxDoorbell_keeps hr
  | mbxAck _ _ _ => exact execMbxAck_keeps hr
  | tlsConnect _ => exact execTlsConnect_keeps hr
  | tlsPacket _ _ => exact execTlsPacket_keeps hr
  | tlsIdleTimeout _ => exact execTlsIdleTimeout_keeps hr
  | longCommandCompletion _ => exact execLongCommandCompletion_keeps hr
  | sysHello _ => exact execSysHello_keeps hr
  | sysJobs _ => exact execSysJobs_keeps hr
  | sysCancel _ _ => exact execSysCancel_keeps hr
  | sysReset _ _ => exact execSysReset_keeps hr
  | xferOpen _ _ => exact execXferOpen_keeps hr
  | xferWrite _ _ _ _ => exact execXferWrite_keeps hr
  | xferRead _ _ _ _ => exact execXferRead_keeps hr
  | xferClose _ _ => exact execXferClose_keeps hr
  | bundleStage _ _ _ => exact execBundleStage_keeps hr
  | bundleActivate _ _ => exact execBundleActivate_keeps hr
  | bundleCommit _ => exact execBundleCommit_keeps hr
  | bundleDiscard _ => exact execBundleDiscard_keeps hr
  | bundleStatus _ => exact execBundleStatus_keeps hr
  | sliceCreate _ _ => exact execSliceCreate_keeps hr
  | sliceRing _ _ _ _ => exact execSliceRing_keeps hr
  | sliceBind _ _ _ _ => exact execSliceBind_keeps hr
  | sliceStart _ _ => exact execSliceStart_keeps hr
  | sliceQuiesce _ _ => exact execSliceQuiesce_keeps hr
  | sliceReset _ _ => exact execSliceReset_keeps hr
  | sliceRemove _ _ => exact execSliceRemove_keeps hr
  | sliceFault _ _ => exact execSliceFault_keeps hr
  | sliceShare _ _ _ _ => exact execSliceShare_keeps hr
  | slicePv _ _ _ _ => exact execSlicePv_keeps hr
  | sliceStatus _ _ _ => exact execSliceStatus_keeps hr
  | streamAdd _ _ _ => exact execStreamAdd_keeps hr
  | streamRemove _ _ => exact execStreamRemove_keeps hr
  | streamMode _ _ _ _ => exact execStreamMode_keeps hr
  | streamStatus _ _ _ => exact execStreamStatus_keeps hr
  | foreignList _ => exact execForeignList_keeps hr
  | foreignClear _ _ => exact execForeignClear_keeps hr
  | latticeStatus _ _ _ => exact execLatticeStatus_keeps hr
  | latticeSpec _ _ _ => exact execLatticeSpec_keeps hr
  | latticeTol _ _ _ _ _ => exact execLatticeTol_keeps hr
  | phasorStatus _ _ => exact execPhasorStatus_keeps hr
  | guardSet _ _ _ => exact execGuardSet_keeps hr
  | guardEnable _ _ _ => exact execGuardEnable_keeps hr
  | guardStatus _ _ => exact execGuardStatus_keeps hr
  | logicStatus _ _ _ => exact execLogicStatus_keeps hr
  | logicRead _ _ => exact execLogicRead_keeps hr
  | logicMode _ _ _ => exact execLogicMode_keeps hr
  | logicParam _ _ _ _ => exact execLogicParam_keeps hr
  | logicForce _ _ _ _ => exact execLogicForce_keeps hr
  | logicUnforce _ _ _ => exact execLogicUnforce_keeps hr
  | logicLoad _ _ _ _ => exact execLogicLoad_keeps hr
  | logicSwap _ _ => exact execLogicSwap_keeps hr
  | logicAbort _ => exact execLogicAbort_keeps hr
  | pubStatus _ _ _ => exact execPubStatus_keeps hr
  | pubEnable _ _ _ => exact execPubEnable_keeps hr
  | pubMode _ _ _ _ => exact execPubMode_keeps hr
  | recStatus _ _ _ => exact execRecStatus_keeps hr
  | recList _ _ => exact execRecList_keeps hr
  | recArm _ _ => exact execRecArm_keeps hr
  | recDisarm _ _ => exact execRecDisarm_keeps hr
  | recTrigger _ _ => exact execRecTrigger_keeps hr
  | recRelease _ _ _ => exact execRecRelease_keeps hr
  | recExport _ _ _ _ _ => exact execRecExport_keeps hr
  | pairStatus _ _ => exact execPairStatus_keeps hr
  | pairSwitch _ => exact execPairSwitch_keeps hr
  | pairFence _ => exact execPairFence_keeps hr
  | pairRelease _ => exact execPairRelease_keeps hr
  | pairAlone _ => exact execPairAlone_keeps hr
  | safetyStatus _ _ => exact execSafetyStatus_keeps hr
  | safetyAck _ _ => exact execSafetyAck_keeps hr
  | safetyProof _ _ => exact execSafetyProof_keeps hr
  | safetyRestart _ => exact execSafetyRestart_keeps hr
  | domStatus _ _ => exact execDomStatus_keeps hr
  | domIdentity _ => exact execDomIdentity_keeps hr
  | keyCreate _ _ _ _ => exact execKeyCreate_keeps hr
  | keyDestroy _ _ => exact execKeyDestroy_keeps hr
  | keyPut _ _ _ _ _ _ _ => exact execKeyPut_keeps hr
  | keyAgree _ _ _ _ _ => exact execKeyAgree_keeps hr
  | keyInfo _ _ => exact execKeyInfo_keeps hr
  | anchorSet _ _ _ _ _ _ => exact execAnchorSet_keeps hr
  | measExtend _ _ _ => exact execMeasExtend_keeps hr
  | measRead _ => exact execMeasRead_keeps hr
  | attestQuote _ _ _ => exact execAttestQuote_keeps hr
  | attestAkCert _ => exact execAttestAkCert_keeps hr
  | debugChallenge _ => exact execDebugChallenge_keeps hr
  | debugOpen _ _ _ _ _ _ _ _ _ => exact execDebugOpen_keeps hr
  | healthStatus _ _ => exact execHealthStatus_keeps hr
  | faultClear _ _ => exact execFaultClear_keeps hr
  | ageingStatus _ => exact execAgeingStatus_keeps hr
  | ageingMeasure _ => exact execAgeingMeasure_keeps hr
  | belfryRead _ _ _ _ => exact execBelfryRead_keeps hr
  | flashStatus _ => exact execFlashStatus_keeps hr
  | weevilStatus _ _ => exact execWeevilStatus_keeps hr
  | weevilRule _ _ _ _ _ => exact execWeevilRule_keeps hr
  | weevilArm _ _ => exact execWeevilArm_keeps hr
  | sctWrite _ _ => exact execSctWrite_keeps hr
  | sctRemove _ _ => exact execSctRemove_keeps hr
  | sctRead _ _ _ => exact execSctRead_keeps hr
  | sctMapWrite _ _ => exact execSctMapWrite_keeps hr
  | sctMapRead _ _ => exact execSctMapRead_keeps hr
  | sctForeignRead _ _ => exact execSctForeignRead_keeps hr
  | sctForeignClear _ _ => exact execSctForeignClear_keeps hr
  | sctMode _ _ => exact execSctMode_keeps hr
  | pheWrite _ _ _ => exact execPheWrite_keeps hr
  | pheRead _ _ _ => exact execPheRead_keeps hr
  | gcmWrite _ _ => exact execGcmWrite_keeps hr
  | gcmParam _ _ => exact execGcmParam_keeps hr
  | gcmRead _ _ => exact execGcmRead_keeps hr
  | gcmEnable _ _ => exact execGcmEnable_keeps hr
  | gcmState _ _ => exact execGcmState_keeps hr
  | slpWrite _ _ _ => exact execSlpWrite_keeps hr
  | slpRead _ _ _ => exact execSlpRead_keeps hr
  | slpState _ _ _ => exact execSlpState_keeps hr
  | slpOpnd _ _ _ => exact execSlpOpnd_keeps hr
  | pubWrite _ _ => exact execPubWrite_keeps hr
  | pubRead _ _ => exact execPubRead_keeps hr
  | pubMembWrite _ _ => exact execPubMembWrite_keeps hr
  | pubMembRead _ _ => exact execPubMembRead_keeps hr
  | pubCmdEnable _ _ => exact execPubCmdEnable_keeps hr
  | pubCmdMode _ _ => exact execPubCmdMode_keeps hr
  | pubStat _ _ => exact execPubStat_keeps hr
  | dreWrite _ _ _ => exact execDreWrite_keeps hr
  | dreRead _ _ _ => exact execDreRead_keeps hr
  | dreArm _ _ => exact execDreArm_keeps hr
  | dreDisarm _ _ => exact execDreDisarm_keeps hr
  | dreTrigger _ _ => exact execDreTrigger_keeps hr
  | dreRelease _ _ => exact execDreRelease_keeps hr
  | dreStat _ _ => exact execDreStat_keeps hr
  | sltWrite _ _ _ => exact execSltWrite_keeps hr
  | sltRead _ _ _ => exact execSltRead_keeps hr
  | sltStat _ _ _ => exact execSltStat_keeps hr
  | scrubPass _ _ _ _ => exact execScrubPass_keeps hr
  | flashRefresh _ _ _ => exact execFlashRefresh_keeps hr
  | telemetrySample _ => exact execTelemetrySample_keeps hr
  | histogramUpdate => exact execHistogramUpdate_keeps hr
  | operatingDayEnd => exact execOperatingDayEnd_keeps hr
  | deferredMeasurement => exact execDeferredMeasurement_keeps hr
  | measurementComplete _ _ _ => exact execMeasurementComplete_keeps hr
  | thermalStep _ => exact execThermalStep_keeps hr
  | thermalStepDown _ => exact execThermalStepDown_keeps hr
  | belfryMirror => exact execBelfryMirror_keeps hr
  | blfCursorWrite _ _ => exact execBlfCursorWrite_keeps hr
  | blfStepNext _ _ => exact execBlfStepNext_keeps hr
  | carRstNRelease => exact execCarRstNRelease_keeps hr
  | pdelayRespFollowUpRx _ => exact execPdelayRespFollowUpRx_keeps hr
  | tlsSessionClose _ => exact execTlsSessionClose_keeps hr

theorem Keeps.canonical {s t : State} (h : Keeps s t) (hs : s.Canonical) : t.Canonical :=
  ⟨h.1 hs.1, h.2.1 hs.2⟩

theorem step_of_nil {s : State} (h : s.pending = []) : step s = .next (idle s) := by
  simp [step, h]

theorem step_of_cons {s : State} {c : Instr} {rest : List Instr} (h : s.pending = c :: rest) :
    step s = exec c { s with pending := rest } := by
  simp [step, h]

/-- Settles O1: `step` takes the front of the queue. -/
theorem stepRunsTheFrontCommand : Obligations.StepRunsTheFrontCommand := by
  unfold Obligations.StepRunsTheFrontCommand
  intro s c rest
  exact step_of_cons rfl

/-- Settles O2: `idle` writes the timebase and the free-value counter alone. -/
theorem idleStepOnlyPassesTime : Obligations.IdleStepOnlyPassesTime := by
  unfold Obligations.IdleStepOnlyPassesTime
  intro s h
  refine ⟨idle s, step_of_nil h, ?_⟩
  unfold idle
  split <;> rfl

/-- Settles O4: nothing stands in memory after reset, and the register file lists no key out of order. -/
theorem resetStateIsCanonical : Obligations.ResetStateIsCanonical := by
  unfold Obligations.ResetStateIsCanonical State.Canonical
  decide

/-- Settles O5, from `exec_keeps`. -/
theorem noCommandTouchesTheQueue : Obligations.NoCommandTouchesTheQueue := by
  unfold Obligations.NoCommandTouchesTheQueue
  intro c s t h
  obtain ⟨-, -, hqueue⟩ := exec_keeps c s t h
  exact hqueue

/-- Settles O3: the command at the front keeps the canonical form, and so does a tick on an empty queue. -/
theorem stepKeepsStatesCanonical : Obligations.StepKeepsStatesCanonical := by
  unfold Obligations.StepKeepsStatesCanonical
  intro s t hs h
  cases hq : s.pending with
  | nil =>
    rw [step_of_nil hq] at h
    cases h
    exact (idle_keeps (Keeps.refl s)).canonical hs
  | cons c rest =>
    rw [step_of_cons hq] at h
    exact (exec_keeps c _ t h).canonical hs

end Sys2Proof.Machine
end

section
/-! Where a run stops (R242, log 5, log 108, log 212): only at the Scarab's branch stack. -/
namespace Sys2Proof.Machine

-- one proof after the other: started together they wait on each other's results, each in a thread of its own
set_option Elab.async false

/-- A Patchaif command answers a next state, whatever its act answers. -/
theorem State.patchaif_next (s : State) (q : Req) (op : Nat) (ps : Octets) (long tenant : Bool) (act : State → Ans × State) :
    ∃ t, s.patchaif q op ps long tenant act = .next t := by
  unfold State.patchaif
  split
  · exact ⟨_, rfl⟩
  · dsimp only
    split
    · exact ⟨_, rfl⟩
    · split <;> exact ⟨_, rfl⟩

theorem State.security_next (s : State) (q : Req) (op : Nat) (ps : Octets) (long : Bool) (act : State → Ans × State) :
    ∃ t, s.security q op ps long act = .next t := s.patchaif_next ..

theorem execSysCancel_next (q : Req) (tag : Nat) (s : State) : ∃ t, execSysCancel q tag s = .next t := by
  obtain ⟨t, ht⟩ := s.patchaif_next q 0x0103 (le 2 tag) false false (sysCancelAct q tag)
  rw [execSysCancel, ht]
  cases s.cancellable q tag with
  | none => exact ⟨t, rfl⟩
  | some j => dsimp only; split <;> exact ⟨_, rfl⟩

/-- A Scarab instruction either answers a next state, or it runs on a class that has it as its next word. -/
theorem State.scRun_cases (s : State) (w : Nat) (act : Nat → Nat → ClassSt → State → Result) :
    (∃ t, s.scRun w act = .next t) ∨ ∃ c k, s.slp.cur = some c ∧ s.scRun w act = act c k (s.clsOf c) s := by
  unfold State.scRun
  cases hcur : s.slp.cur with
  | none => exact .inl ⟨_, rfl⟩
  | some c =>
    dsimp only
    cases (s.clsOf c).slots with
    | nil => exact .inl ⟨_, rfl⟩
    | cons k _ =>
      dsimp only
      split_ifs
      · exact .inl ⟨_, rfl⟩
      · exact .inr ⟨c, k, rfl, rfl⟩
      · exact .inl ⟨_, rfl⟩
      · exact .inl ⟨_, rfl⟩

theorem State.scRun_next {act : Nat → Nat → ClassSt → State → Result} (s : State) (w : Nat)
    (h : ∀ c k x, ∃ t, act c k x s = .next t) : ∃ t, s.scRun w act = .next t := by
  obtain hnext | ⟨c, k, -, hact⟩ := s.scRun_cases w act
  · exact hnext
  · rw [hact]
    exact h c k _

theorem State.scRead1_next (s : State) (op : Nat) (sp : RdSpace) (ix : Nat) (f : ClassSt → Bool → Bool) :
    ∃ t, s.scRead1 op sp ix f = .next t := s.scRun_next _ fun _ _ _ => ⟨_, rfl⟩

theorem State.scStore_next (s : State) (op : Nat) (sp : WrSpace) (ix : Nat) (f : Bool → Option Bool) :
    ∃ t, s.scStore op sp ix f = .next t := s.scRun_next _ fun _ _ _ => ⟨_, rfl⟩

theorem State.scTimer_next (s : State) (op ix : Nat) (f : Timer → Bool → Nat → Nat → Timer) :
    ∃ t, s.scTimer op ix f = .next t := s.scRun_next _ fun _ _ _ => ⟨_, rfl⟩

theorem State.scCount_next (s : State) (op ix : Nat) (down : Bool) :
    ∃ t, s.scCount op ix down = .next t := s.scRun_next _ fun _ _ _ => ⟨_, rfl⟩

theorem State.scEdge_next (s : State) (op ix : Nat) (f : Bool → Bool → Bool) :
    ∃ t, s.scEdge op ix f = .next t := s.scRun_next _ fun _ _ _ => ⟨_, rfl⟩

/-- R242: an opening branch instruction stops exactly where the running class's branch stack holds 32 entries. -/
theorem State.scPush_next_or_full (s : State) (op : Nat) (sp : RdSpace) (ix : Nat) (o : StackOp) (f : Bool → Bool) :
    (∃ t, s.scPush op sp ix o f = .next t) ∨
      (s.scPush op sp ix o f = .fault .scarabStack ∧ ∃ k, s.slp.cur = some k ∧ 32 ≤ (s.clsOf k).stack.length) := by
  obtain hnext | ⟨c, k, hcur, hact⟩ := s.scRun_cases (scWord op (rdCode sp) ix) _
  · exact .inl hnext
  · rw [State.scPush, hact]
    split
    next hfull => exact .inr ⟨rfl, c, hcur, hfull⟩
    next => exact .inl ⟨_, rfl⟩

/-- R242: `)` stops exactly where the running class's branch stack is empty. -/
theorem execScCloseParen_next_or_empty (s : State) :
    (∃ t, execScCloseParen s = .next t) ∨
      (execScCloseParen s = .fault .scarabStack ∧ ∃ k, s.slp.cur = some k ∧ (s.clsOf k).stack = []) := by
  obtain hnext | ⟨c, k, hcur, hact⟩ := s.scRun_cases (scWord 0x0E 0 0) _
  · exact .inl hnext
  · rw [execScCloseParen, hact]
    cases hstack : (s.clsOf c).stack with
    | nil => exact .inr ⟨rfl, c, hcur, hstack⟩
    | cons p rest => exact .inl ⟨_, rfl⟩

/-- What O6 says of one command. -/
def StopsOnlyAtTheStack (c : Instr) (s : State) : Prop :=
  (∃ t, exec c s = .next t) ∨
    (exec c s = .fault .scarabStack ∧ ∃ k, s.slp.cur = some k ∧
      ((c = .scCloseParen ∧ (s.clsOf k).stack = []) ∨
       ((∃ sp ix, c = .scAndParen sp ix ∨ c = .scAndnParen sp ix ∨ c = .scOrParen sp ix ∨ c = .scOrnParen sp ix ∨
          c = .scXorParen sp ix) ∧ 32 ≤ (s.clsOf k).stack.length)))

/-- An opening branch instruction, from what it does to the stack. -/
theorem StopsOnlyAtTheStack.of_push {c : Instr} {s : State} {op ix : Nat} {sp : RdSpace} {o : StackOp} {f : Bool → Bool}
    (he : exec c s = s.scPush op sp ix o f)
    (hc : c = .scAndParen sp ix ∨ c = .scAndnParen sp ix ∨ c = .scOrParen sp ix ∨ c = .scOrnParen sp ix ∨ c = .scXorParen sp ix) :
    StopsOnlyAtTheStack c s := by
  rw [StopsOnlyAtTheStack, he]
  obtain hnext | ⟨hfault, k, hcur, hfull⟩ := s.scPush_next_or_full op sp ix o f
  · exact .inl hnext
  · exact .inr ⟨hfault, k, hcur, .inr ⟨⟨sp, ix, hc⟩, hfull⟩⟩

/-- `)`, from what it does to the stack. -/
theorem stopsOnlyAtTheStack_scCloseParen (s : State) : StopsOnlyAtTheStack .scCloseParen s := by
  obtain hnext | ⟨hfault, k, hcur, hempty⟩ := execScCloseParen_next_or_empty s
  · exact .inl hnext
  · exact .inr ⟨hfault, k, hcur, .inl ⟨rfl, hempty⟩⟩

/-- A command whose meaning answers a next state. -/
theorem StopsOnlyAtTheStack.of_next {c : Instr} {s : State} {r : Result} (he : exec c s = r) (h : ∃ t, r = .next t) :
    StopsOnlyAtTheStack c s := by
  rw [StopsOnlyAtTheStack, he]
  exact .inl h

/-- A Patchaif command. -/
theorem StopsOnlyAtTheStack.of_patchaif {c : Instr} {s : State} {q : Req} {op : Nat} {ps : Octets} {long tenant : Bool}
    {act : State → Ans × State} (he : exec c s = s.patchaif q op ps long tenant act) : StopsOnlyAtTheStack c s := by
  rw [StopsOnlyAtTheStack, he]
  exact .inl (s.patchaif_next q op ps long tenant act)

/-- Settles O6: the branch instructions stop at their stack, the Scarab's other instructions and the Patchaif commands go on by
the laws above, and every other command's meaning is a next state as it stands. -/
theorem onlyTheBranchStackStopsARun : Obligations.OnlyTheBranchStackStopsARun := by
  unfold Obligations.OnlyTheBranchStackStopsARun
  intro c s
  change StopsOnlyAtTheStack c s
  cases c with
  | scCloseParen => exact stopsOnlyAtTheStack_scCloseParen s
  | scAndParen sp ix => exact .of_push (exec_scAndParen sp ix s) (.inl rfl)
  | scAndnParen sp ix => exact .of_push (exec_scAndnParen sp ix s) (.inr (.inl rfl))
  | scOrParen sp ix => exact .of_push (exec_scOrParen sp ix s) (.inr (.inr (.inl rfl)))
  | scOrnParen sp ix => exact .of_push (exec_scOrnParen sp ix s) (.inr (.inr (.inr (.inl rfl))))
  | scXorParen sp ix => exact .of_push (exec_scXorParen sp ix s) (.inr (.inr (.inr (.inr rfl))))
  | scNop => exact .of_next (exec_scNop s) (s.scRun_next _ fun _ _ _ => ⟨_, rfl⟩)
  | scLd sp ix => exact .of_next (exec_scLd sp ix s) (s.scRead1_next ..)
  | scLdn sp ix => exact .of_next (exec_scLdn sp ix s) (s.scRead1_next ..)
  | scAnd sp ix => exact .of_next (exec_scAnd sp ix s) (s.scRead1_next ..)
  | scAndn sp ix => exact .of_next (exec_scAndn sp ix s) (s.scRead1_next ..)
  | scOr sp ix => exact .of_next (exec_scOr sp ix s) (s.scRead1_next ..)
  | scOrn sp ix => exact .of_next (exec_scOrn sp ix s) (s.scRead1_next ..)
  | scXor sp ix => exact .of_next (exec_scXor sp ix s) (s.scRead1_next ..)
  | scXorn sp ix => exact .of_next (exec_scXorn sp ix s) (s.scRead1_next ..)
  | scNot => exact .of_next (exec_scNot s) (s.scRun_next _ fun _ _ _ => ⟨_, rfl⟩)
  | scSt sp ix => exact .of_next (exec_scSt sp ix s) (s.scStore_next ..)
  | scStn sp ix => exact .of_next (exec_scStn sp ix s) (s.scStore_next ..)
  | scSet sp ix => exact .of_next (exec_scSet sp ix s) (s.scStore_next ..)
  | scRst sp ix => exact .of_next (exec_scRst sp ix s) (s.scStore_next ..)
  | scEdgr ix => exact .of_next (exec_scEdgr ix s) (s.scEdge_next ..)
  | scEdgf ix => exact .of_next (exec_scEdgf ix s) (s.scEdge_next ..)
  | scTon ix => exact .of_next (exec_scTon ix s) (s.scTimer_next ..)
  | scTof ix => exact .of_next (exec_scTof ix s) (s.scTimer_next ..)
  | scTp ix => exact .of_next (exec_scTp ix s) (s.scTimer_next ..)
  | scTret ix => exact .of_next (exec_scTret ix s) (s.scTimer_next ..)
  | scTrst ix => exact .of_next (exec_scTrst ix s) (s.scRun_next _ fun _ _ _ => ⟨_, rfl⟩)
  | scCtu ix => exact .of_next (exec_scCtu ix s) (s.scCount_next ..)
  | scCtd ix => exact .of_next (exec_scCtd ix s) (s.scCount_next ..)
  | scCrst ix => exact .of_next (exec_scCrst ix s) (s.scRun_next _ fun _ _ _ => ⟨_, rfl⟩)
  | scJmp target => exact .of_next (exec_scJmp target s) (s.scRun_next _ fun _ _ _ => ⟨_, rfl⟩)
  | scJmpc target => exact .of_next (exec_scJmpc target s) (s.scRun_next _ fun _ _ _ => ⟨_, rfl⟩)
  | scJmpcn target => exact .of_next (exec_scJmpcn target s) (s.scRun_next _ fun _ _ _ => ⟨_, rfl⟩)
  | scEnd => exact .of_next (exec_scEnd s) (s.scRun_next _ fun _ _ _ => ⟨_, rfl⟩)
  | scEndc => exact .of_next (exec_scEndc s) (s.scRun_next _ fun _ _ _ => ⟨_, rfl⟩)
  | sysHello q => exact .of_patchaif (exec_sysHello q s)
  | sysJobs q => exact .of_patchaif (exec_sysJobs q s)
  | sysCancel q tag => exact .of_next (exec_sysCancel q tag s) (execSysCancel_next q tag s)
  | sysReset q kind => exact .of_patchaif (exec_sysReset q kind s)
  | xferOpen q size => exact .of_patchaif (exec_xferOpen q size s)
  | xferWrite q handle offset data => exact .of_patchaif (exec_xferWrite q handle offset data s)
  | xferRead q handle offset len => exact .of_patchaif (exec_xferRead q handle offset len s)
  | xferClose q handle => exact .of_patchaif (exec_xferClose q handle s)
  | bundleStage q buf b => exact .of_patchaif (exec_bundleStage q buf b s)
  | bundleActivate q reset => exact .of_patchaif (exec_bundleActivate q reset s)
  | bundleCommit q => exact .of_patchaif (exec_bundleCommit q s)
  | bundleDiscard q => exact .of_patchaif (exec_bundleDiscard q s)
  | bundleStatus q => exact .of_patchaif (exec_bundleStatus q s)
  | sliceCreate q p => exact .of_patchaif (exec_sliceCreate q p s)
  | sliceRing q slice loc base => exact .of_patchaif (exec_sliceRing q slice loc base s)
  | sliceBind q slice add pasid => exact .of_patchaif (exec_sliceBind q slice add pasid s)
  | sliceStart q slice => exact .of_patchaif (exec_sliceStart q slice s)
  | sliceQuiesce q slice => exact .of_patchaif (exec_sliceQuiesce q slice s)
  | sliceReset q slice => exact .of_patchaif (exec_sliceReset q slice s)
  | sliceRemove q slice => exact .of_patchaif (exec_sliceRemove q slice s)
  | sliceFault q slice => exact .of_patchaif (exec_sliceFault q slice s)
  | sliceShare q slice inflight weight => exact .of_patchaif (exec_sliceShare q slice inflight weight s)
  | slicePv q slice en lats => exact .of_patchaif (exec_slicePv q slice en lats s)
  | sliceStatus q clear slice => exact .of_patchaif (exec_sliceStatus q clear slice s)
  | streamAdd q words maps => exact .of_patchaif (exec_streamAdd q words maps s)
  | streamRemove q ctx => exact .of_patchaif (exec_streamRemove q ctx s)
  | streamMode q ctx sim test => exact .of_patchaif (exec_streamMode q ctx sim test s)
  | streamStatus q clear ctx => exact .of_patchaif (exec_streamStatus q clear ctx s)
  | foreignList q => exact .of_patchaif (exec_foreignList q s)
  | foreignClear q index => exact .of_patchaif (exec_foreignClear q index s)
  | latticeStatus q clear lat => exact .of_patchaif (exec_latticeStatus q clear lat s)
  | latticeSpec q lat en => exact .of_patchaif (exec_latticeSpec q lat en s)
  | latticeTol q lat tolI tolV tolRel => exact .of_patchaif (exec_latticeTol q lat tolI tolV tolRel s)
  | phasorStatus q clear => exact .of_patchaif (exec_phasorStatus q clear s)
  | guardSet q g words => exact .of_patchaif (exec_guardSet q g words s)
  | guardEnable q g en => exact .of_patchaif (exec_guardEnable q g en s)
  | guardStatus q g => exact .of_patchaif (exec_guardStatus q g s)
  | logicStatus q clear slot => exact .of_patchaif (exec_logicStatus q clear slot s)
  | logicRead q ops => exact .of_patchaif (exec_logicRead q ops s)
  | logicMode q slot mode => exact .of_patchaif (exec_logicMode q slot mode s)
  | logicParam q slot counters vals => exact .of_patchaif (exec_logicParam q slot counters vals s)
  | logicForce q space index value => exact .of_patchaif (exec_logicForce q space index value s)
  | logicUnforce q space index => exact .of_patchaif (exec_logicUnforce q space index s)
  | logicLoad q slot buf p => exact .of_patchaif (exec_logicLoad q slot buf p s)
  | logicSwap q slot => exact .of_patchaif (exec_logicSwap q slot s)
  | logicAbort q => exact .of_patchaif (exec_logicAbort q s)
  | pubStatus q clear pub => exact .of_patchaif (exec_pubStatus q clear pub s)
  | pubEnable q pub en => exact .of_patchaif (exec_pubEnable q pub en s)
  | pubMode q pub sim test => exact .of_patchaif (exec_pubMode q pub sim test s)
  | recStatus q clear inst => exact .of_patchaif (exec_recStatus q clear inst s)
  | recList q inst => exact .of_patchaif (exec_recList q inst s)
  | recArm q inst => exact .of_patchaif (exec_recArm q inst s)
  | recDisarm q inst => exact .of_patchaif (exec_recDisarm q inst s)
  | recTrigger q inst => exact .of_patchaif (exec_recTrigger q inst s)
  | recRelease q inst buf => exact .of_patchaif (exec_recRelease q inst buf s)
  | recExport q fmt cfg dat recs => exact .of_patchaif (exec_recExport q fmt cfg dat recs s)
  | pairStatus q clear => exact .of_patchaif (exec_pairStatus q clear s)
  | pairSwitch q => exact .of_patchaif (exec_pairSwitch q s)
  | pairFence q => exact .of_patchaif (exec_pairFence q s)
  | pairRelease q => exact .of_patchaif (exec_pairRelease q s)
  | pairAlone q => exact .of_patchaif (exec_pairAlone q s)
  | safetyStatus q clear => exact .of_patchaif (exec_safetyStatus q clear s)
  | safetyAck q inst => exact .of_patchaif (exec_safetyAck q inst s)
  | safetyProof q k => exact .of_patchaif (exec_safetyProof q k s)
  | safetyRestart q => exact .of_patchaif (exec_safetyRestart q s)
  | domStatus q clear => exact .of_patchaif (exec_domStatus q clear s)
  | domIdentity q => exact .of_next (exec_domIdentity q s) (s.security_next ..)
  | keyCreate q node kind parent => exact .of_next (exec_keyCreate q node kind parent s) (s.security_next ..)
  | keyDestroy q node => exact .of_next (exec_keyDestroy q node s) (s.security_next ..)
  | keyPut q fmt transport map integrityOk algOk keys => exact .of_next (exec_keyPut q fmt transport map integrityOk algOk keys s) (s.security_next ..)
  | keyAgree q node signer peer info => exact .of_next (exec_keyAgree q node signer peer info s) (s.security_next ..)
  | keyInfo q node => exact .of_next (exec_keyInfo q node s) (s.security_next ..)
  | anchorSet q node pub usage stmt sig => exact .of_next (exec_anchorSet q node pub usage stmt sig s) (s.security_next ..)
  | measExtend q slot digest => exact .of_next (exec_measExtend q slot digest s) (s.security_next ..)
  | measRead q => exact .of_patchaif (exec_measRead q s)
  | attestQuote q nonce mask => exact .of_next (exec_attestQuote q nonce mask s) (s.security_next ..)
  | attestAkCert q => exact .of_next (exec_attestAkCert q s) (s.security_next ..)
  | debugChallenge q => exact .of_next (exec_debugChallenge q s) (s.security_next ..)
  | debugOpen q enMs sel token challenge dikFp sig signer fuseOk => exact .of_next (exec_debugOpen q enMs sel token challenge dikFp sig signer fuseOk s) (s.security_next ..)
  | healthStatus q clear => exact .of_patchaif (exec_healthStatus q clear s)
  | faultClear q mask => exact .of_patchaif (exec_faultClear q mask s)
  | ageingStatus q => exact .of_patchaif (exec_ageingStatus q s)
  | ageingMeasure q => exact .of_patchaif (exec_ageingMeasure q s)
  | belfryRead q area start count => exact .of_patchaif (exec_belfryRead q area start count s)
  | flashStatus q => exact .of_patchaif (exec_flashStatus q s)
  | weevilStatus q clear => exact .of_patchaif (exec_weevilStatus q clear s)
  | weevilRule q rule mtch action count => exact .of_patchaif (exec_weevilRule q rule mtch action count s)
  | weevilArm q arm => exact .of_patchaif (exec_weevilArm q arm s)
  | _ => exact .inl ⟨_, rfl⟩

end Sys2Proof.Machine
end

section
/-! The Scarab's instruction words (R241, R243): encoding and decoding are inverse to each other. -/
namespace Sys2Proof.Machine

-- one proof after the other: started together they wait on each other's results, each in a thread of its own
set_option Elab.async false

/-- The instruction of an opcode, a space code and an index: `decodeScarab` on a word cut into its fields. -/
def decodeFields (op sp ix : Nat) : Option Instr :=
  match plainOf op with
  | some i => if sp = 0 ∧ ix = 0 then some i else none
  | none =>
    if op = 0 then none
    else if op < 0x10 then
      match readOf op, rdSpaceOf sp with
      | some f, some x => some (f x ix)
      | _, _ => none
    else if op < 0x14 then
      match Sys2Proof.writeOf op, wrSpaceOf sp with
      | some f, some x => some (f x ix)
      | _, _ => none
    else
      match indexOf op with
      | some p => if sp = p.1 then some (p.2 ix) else none
      | none => none

theorem decodeScarab_eq (w : Nat) : decodeScarab w = decodeFields (w / 2 ^ 26) (w / 2 ^ 22 % 2 ^ 4) (w % 2 ^ 22) := by
  unfold decodeScarab
  generalize w / 2 ^ 26 = op, w / 2 ^ 22 % 2 ^ 4 = sp, w % 2 ^ 22 = ix
  rfl

/-- The three fields of a word are what it was put together from (R241). -/
theorem decodeTableWord_scWord {op sp ix : Nat} (hop : op < 64) (hsp : sp < 16) (hix : ix < 2 ^ 22) :
    decodeTableWord 32 (scWord op sp ix) = decodeFields op sp ix := by
  unfold scWord
  have hw : op * 2 ^ 26 + sp * 2 ^ 22 + ix < 2 ^ 32 := by omega
  have hop' : (op * 2 ^ 26 + sp * 2 ^ 22 + ix) / 2 ^ 26 = op := by omega
  have hsp' : (op * 2 ^ 26 + sp * 2 ^ 22 + ix) / 2 ^ 22 % 2 ^ 4 = sp := by omega
  have hix' : (op * 2 ^ 26 + sp * 2 ^ 22 + ix) % 2 ^ 22 = ix := by omega
  rw [decodeTableWord, if_pos ⟨rfl, hw⟩, decodeScarab_eq, hop', hsp', hix']

/-- A word is put together from its three fields. -/
theorem scWord_fields (w : Nat) : scWord (w / 2 ^ 26) (w / 2 ^ 22 % 2 ^ 4) (w % 2 ^ 22) = w := by
  unfold scWord
  omega

theorem rdCode_lt (x : RdSpace) : rdCode x < 16 := by cases x <;> decide

theorem wrCode_lt (x : WrSpace) : wrCode x < 16 := by cases x <;> decide

theorem rdSpaceOf_eq_some {sp : Nat} {x : RdSpace} (h : rdSpaceOf sp = some x) : sp = rdCode x := by
  have hlt : sp < 10 := by
    by_contra hge
    rw [rdSpaceOf, List.getElem?_eq_none (by simpa using hge)] at h
    cases h
  interval_cases sp <;> cases h <;> rfl

theorem wrSpaceOf_eq_some {sp : Nat} {x : WrSpace} (h : wrSpaceOf sp = some x) : sp = wrCode x := by
  unfold wrSpaceOf at h
  split at h <;> cases h <;> rfl

theorem fits_iff (w n : Nat) : fits w n = true ↔ n < 2 ^ w := by simp [fits]

/-- A command and the word that spells it. -/
def Spells (w : Nat) (i : Instr) : Prop := encodeScarab i = some w ∧ i.wellFormed = true

theorem spells_of_plainOf {op : Nat} {i : Instr} (h : plainOf op = some i) : Spells (scWord op 0 0) i := by
  unfold plainOf at h
  split at h <;> cases h <;> exact ⟨rfl, rfl⟩

section
variable {op ix : Nat} (hix : ix < 2 ^ 22)
include hix

theorem spells_of_readOf {f : RdSpace → Nat → Instr} (x : RdSpace) (hop : op ≠ 0) (h : readOf op = some f) :
    Spells (scWord op (rdCode x) ix) (f x ix) := by
  have hfit := (fits_iff 22 ix).mpr hix
  have hlt : op < 14 := by
    by_contra hge
    rw [readOf, List.getElem?_eq_none (by simp; omega)] at h
    cases h
  have hpos : 1 ≤ op := Nat.one_le_iff_ne_zero.mpr hop
  interval_cases op <;> cases h <;> cases x <;> exact ⟨rfl, hfit⟩

theorem spells_of_writeOf {f : WrSpace → Nat → Instr} (x : WrSpace) (hop : 0x10 ≤ op) (h : Sys2Proof.writeOf op = some f) :
    Spells (scWord op (wrCode x) ix) (f x ix) := by
  have hfit := (fits_iff 22 ix).mpr hix
  have hlt : op < 0x14 := by
    by_contra hge
    rw [Sys2Proof.writeOf, List.getElem?_eq_none (by simp; omega)] at h
    cases h
  interval_cases op <;> cases h <;> cases x <;> exact ⟨rfl, hfit⟩

theorem spells_of_indexOf {p : Nat × (Nat → Instr)} (hop : 0x14 ≤ op) (h : indexOf op = some p) :
    Spells (scWord op p.1 ix) (p.2 ix) := by
  have hfit := (fits_iff 22 ix).mpr hix
  have hlt : op < 0x21 := by
    by_contra hge
    rw [indexOf, List.getElem?_eq_none (by simp; omega)] at h
    cases h
  interval_cases op <;> cases h <;> exact ⟨rfl, hfit⟩

/-- R243: fields that decode spell what they decode to. -/
theorem spells_of_decodeFields {sp : Nat} {i : Instr} (h : decodeFields op sp ix = some i) : Spells (scWord op sp ix) i := by
  unfold decodeFields at h
  split at h
  next j hplain =>
    split at h
    next hzero =>
      obtain ⟨rfl, rfl⟩ := hzero
      cases h
      exact spells_of_plainOf hplain
    next => cases h
  next =>
    split_ifs at h with hzero hread hwrite
    · split at h
      next f x hf hx =>
        cases h
        rw [rdSpaceOf_eq_some hx]
        exact spells_of_readOf hix x hzero hf
      next => cases h
    · split at h
      next f x hf hx =>
        cases h
        rw [wrSpaceOf_eq_some hx]
        exact spells_of_writeOf hix x (Nat.le_of_not_lt hread) hf
      next => cases h
    · split at h
      next p hp =>
        split at h
        next hsp =>
          cases h
          rw [hsp]
          exact spells_of_indexOf hix (Nat.le_of_not_lt hwrite) hp
        next => cases h
      next => cases h

end

/-- R243: an instruction put together from fields that decode to it decodes from its word. -/
theorem decodeTableWord_of_fields {i : Instr} {w : Nat} (op sp ix : Nat) (hop : op < 64) (hsp : sp < 16) (hix : fits 22 ix = true)
    (he : some (scWord op sp ix) = some w) (hd : decodeFields op sp ix = some i) : decodeTableWord 32 w = some i := by
  obtain rfl := Option.some.inj he
  rw [decodeTableWord_scWord hop hsp ((fits_iff 22 ix).mp hix), hd]

/-- R241, R243: the word of a well-formed instruction decodes to it. -/
theorem decodeTableWord_of_encodeScarab {i : Instr} {w : Nat} (he : encodeScarab i = some w) (hwf : i.wellFormed = true) :
    decodeTableWord 32 w = some i := by
  cases i with
  | scNop => exact decodeTableWord_of_fields 0x00 0 0 (by decide) (by decide) rfl he rfl
  | scCloseParen => exact decodeTableWord_of_fields 0x0E 0 0 (by decide) (by decide) rfl he rfl
  | scNot => exact decodeTableWord_of_fields 0x0F 0 0 (by decide) (by decide) rfl he rfl
  | scEnd => exact decodeTableWord_of_fields 0x21 0 0 (by decide) (by decide) rfl he rfl
  | scEndc => exact decodeTableWord_of_fields 0x22 0 0 (by decide) (by decide) rfl he rfl
  | scLd x ix => exact decodeTableWord_of_fields 0x01 (rdCode x) ix (by decide) (rdCode_lt x) hwf he (by cases x <;> rfl)
  | scLdn x ix => exact decodeTableWord_of_fields 0x02 (rdCode x) ix (by decide) (rdCode_lt x) hwf he (by cases x <;> rfl)
  | scAnd x ix => exact decodeTableWord_of_fields 0x03 (rdCode x) ix (by decide) (rdCode_lt x) hwf he (by cases x <;> rfl)
  | scAndn x ix => exact decodeTableWord_of_fields 0x04 (rdCode x) ix (by decide) (rdCode_lt x) hwf he (by cases x <;> rfl)
  | scOr x ix => exact decodeTableWord_of_fields 0x05 (rdCode x) ix (by decide) (rdCode_lt x) hwf he (by cases x <;> rfl)
  | scOrn x ix => exact decodeTableWord_of_fields 0x06 (rdCode x) ix (by decide) (rdCode_lt x) hwf he (by cases x <;> rfl)
  | scXor x ix => exact decodeTableWord_of_fields 0x07 (rdCode x) ix (by decide) (rdCode_lt x) hwf he (by cases x <;> rfl)
  | scXorn x ix => exact decodeTableWord_of_fields 0x08 (rdCode x) ix (by decide) (rdCode_lt x) hwf he (by cases x <;> rfl)
  | scAndParen x ix => exact decodeTableWord_of_fields 0x09 (rdCode x) ix (by decide) (rdCode_lt x) hwf he (by cases x <;> rfl)
  | scAndnParen x ix => exact decodeTableWord_of_fields 0x0A (rdCode x) ix (by decide) (rdCode_lt x) hwf he (by cases x <;> rfl)
  | scOrParen x ix => exact decodeTableWord_of_fields 0x0B (rdCode x) ix (by decide) (rdCode_lt x) hwf he (by cases x <;> rfl)
  | scOrnParen x ix => exact decodeTableWord_of_fields 0x0C (rdCode x) ix (by decide) (rdCode_lt x) hwf he (by cases x <;> rfl)
  | scXorParen x ix => exact decodeTableWord_of_fields 0x0D (rdCode x) ix (by decide) (rdCode_lt x) hwf he (by cases x <;> rfl)
  | scSt x ix => exact decodeTableWord_of_fields 0x10 (wrCode x) ix (by decide) (wrCode_lt x) hwf he (by cases x <;> rfl)
  | scStn x ix => exact decodeTableWord_of_fields 0x11 (wrCode x) ix (by decide) (wrCode_lt x) hwf he (by cases x <;> rfl)
  | scSet x ix => exact decodeTableWord_of_fields 0x12 (wrCode x) ix (by decide) (wrCode_lt x) hwf he (by cases x <;> rfl)
  | scRst x ix => exact decodeTableWord_of_fields 0x13 (wrCode x) ix (by decide) (wrCode_lt x) hwf he (by cases x <;> rfl)
  | scEdgr ix => exact decodeTableWord_of_fields 0x14 5 ix (by decide) (by decide) hwf he rfl
  | scEdgf ix => exact decodeTableWord_of_fields 0x15 5 ix (by decide) (by decide) hwf he rfl
  | scTon ix => exact decodeTableWord_of_fields 0x16 3 ix (by decide) (by decide) hwf he rfl
  | scTof ix => exact decodeTableWord_of_fields 0x17 3 ix (by decide) (by decide) hwf he rfl
  | scTp ix => exact decodeTableWord_of_fields 0x18 3 ix (by decide) (by decide) hwf he rfl
  | scTret ix => exact decodeTableWord_of_fields 0x19 3 ix (by decide) (by decide) hwf he rfl
  | scTrst ix => exact decodeTableWord_of_fields 0x1A 3 ix (by decide) (by decide) hwf he rfl
  | scCtu ix => exact decodeTableWord_of_fields 0x1B 4 ix (by decide) (by decide) hwf he rfl
  | scCtd ix => exact decodeTableWord_of_fields 0x1C 4 ix (by decide) (by decide) hwf he rfl
  | scCrst ix => exact decodeTableWord_of_fields 0x1D 4 ix (by decide) (by decide) hwf he rfl
  | scJmp ix => exact decodeTableWord_of_fields 0x1E 0 ix (by decide) (by decide) hwf he rfl
  | scJmpc ix => exact decodeTableWord_of_fields 0x1F 0 ix (by decide) (by decide) hwf he rfl
  | scJmpcn ix => exact decodeTableWord_of_fields 0x20 0 ix (by decide) (by decide) hwf he rfl
  | _ => cases he

/-- Settles O7: a well-formed instruction is put together from fields that decode to it, one case per instruction, and back by
`spells_of_decodeFields`. -/
theorem scarabWordsAndInstructionsAgree : Obligations.ScarabWordsAndInstructionsAgree := by
  unfold Obligations.ScarabWordsAndInstructionsAgree
  constructor
  · intro i w he hwf
    exact decodeTableWord_of_encodeScarab he hwf
  · intro i w h
    unfold decodeTableWord at h
    split at h
    next =>
      rw [decodeScarab_eq] at h
      have hs := spells_of_decodeFields (Nat.mod_lt w (by decide)) h
      rwa [scWord_fields] at hs
    next => cases h

end Sys2Proof.Machine
end

section
/-! The Scarab's bit instructions and branches (R242, R243, R249): each by the law of its shared operation on a fetched word. -/
namespace Sys2Proof.Machine

-- one proof after the other: started together they wait on each other's results, each in a thread of its own
set_option Elab.async false

/-- Of a fetched word, the class runs and its programs have not ended. -/
theorem Fetches.running {s : State} {c k w : Nat} (h : Fetches s c k w) :
    (s.clsOf c).running = true ∧ (s.clsOf c).ended = false := by
  obtain ⟨-, -, hrunning, hended, -⟩ := h
  exact ⟨hrunning, hended⟩

/-- Moving on by a word touches class states alone. -/
theorem scNext_onlyClasses (s : State) (c : Nat) (v : Bool) (n : Nat) : OnlyClasses s (s.scNext c v n) := rfl

theorem modCls_onlyClasses (s : State) (c : Nat) (f : ClassSt → ClassSt) : OnlyClasses s (s.modCls c f) := rfl

theorem OnlyClasses.trans {s t u : State} (h : OnlyClasses s t) (k : OnlyClasses t u) : OnlyClasses s u := by
  rw [OnlyClasses] at *
  rw [k, h]

/-- A fetched word that moves on by a word with `v` in ACC. -/
theorem scNext_advances {s : State} {c k w : Nat} (h : Fetches s c k w) (v : Bool) (n : Nat) :
    Advances s (s.scNext c v n) c v (s.clsOf c).stack :=
  scNext_adv s c v n h.running.1 h.running.2

/-- An instruction of one read operand: ACC takes `f` of ACC and the operand. -/
theorem scRead1_sets {s : State} {c k op ix : Nat} {sp : RdSpace} {i : Instr} {f : Bool → Bool → Bool}
    (he : exec i s = s.scRead1 op sp ix (fun x b => f x.acc b)) (h : Fetches s c k (scWord op (rdCode sp) ix)) :
    ∃ t, exec i s = .next t ∧ Advances s t c (f (s.clsOf c).acc (s.scRead c k sp ix)) (s.clsOf c).stack ∧ OnlyClasses s t :=
  ⟨_, he.trans (scRead1_fetch h _), scNext_advances h _ 1, scNext_onlyClasses ..⟩

/-- Settles O8: the eight reading instructions are one operation, and NOP and NOT move on by a word. -/
theorem logicInstructionsSetAcc : Obligations.LogicInstructionsSetAcc := by
  unfold Obligations.LogicInstructionsSetAcc
  refine ⟨?reads, fun s c k => ⟨?nop, ?not⟩⟩
  case reads =>
    intro s c k ix sp op i f hmem h
    simp only [List.mem_cons, Prod.mk.injEq, List.not_mem_nil, or_false] at hmem
    obtain ⟨rfl, rfl, rfl⟩ | ⟨rfl, rfl, rfl⟩ | ⟨rfl, rfl, rfl⟩ | ⟨rfl, rfl, rfl⟩ | ⟨rfl, rfl, rfl⟩ | ⟨rfl, rfl, rfl⟩ | ⟨rfl, rfl, rfl⟩ |
      ⟨rfl, rfl, rfl⟩ := hmem
    · exact scRead1_sets (f := fun _ b => b) rfl h
    · exact scRead1_sets (f := fun _ b => !b) rfl h
    · exact scRead1_sets (f := fun a b => a && b) rfl h
    · exact scRead1_sets (f := fun a b => a && !b) rfl h
    · exact scRead1_sets (f := fun a b => a || b) rfl h
    · exact scRead1_sets (f := fun a b => a || !b) rfl h
    · exact scRead1_sets (f := fun a b => a ^^ b) rfl h
    · exact scRead1_sets (f := fun a b => a ^^ !b) rfl h
  case nop =>
    intro h
    rw [exec_scNop, execScNop, scRun_fetch h]
    exact ⟨_, rfl, scNext_advances h _ 1, scNext_onlyClasses ..⟩
  case not =>
    intro h
    rw [exec_scNot, execScNot, scRun_fetch h]
    exact ⟨_, rfl, scNext_advances h _ 1, scNext_onlyClasses ..⟩

/-! ### Branches -/

/-- A class whose branch stack was replaced, moved on by a word. -/
theorem scNext_modStack_advances {s : State} {c k w : Nat} (h : Fetches s c k w) (f : List (Bool × StackOp) → List (Bool × StackOp))
    (v : Bool) (n : Nat) :
    Advances s ((s.modCls c (fun y => { y with stack := f y.stack })).scNext c v n) c v (f (s.clsOf c).stack) := by
  obtain ⟨hrunning, hended⟩ := h.running
  have hadv := scNext_adv (s.modCls c (fun y => { y with stack := f y.stack })) c v n
    (by rw [modCls_cls, if_pos rfl]; exact hrunning) (by rw [modCls_cls, if_pos rfl]; exact hended)
  simpa only [Advances, modCls_cls, if_true] using hadv

theorem scNext_modStack_onlyClasses (s : State) (c : Nat) (f : List (Bool × StackOp) → List (Bool × StackOp)) (v : Bool) (n : Nat) :
    OnlyClasses s ((s.modCls c (fun y => { y with stack := f y.stack })).scNext c v n) :=
  (modCls_onlyClasses ..).trans (scNext_onlyClasses ..)

/-- An opening branch instruction: (ACC, o) is pushed and ACC takes the operand, inverted or not; a full stack stops the run. -/
theorem scPush_pushes {s : State} {c k op ix : Nat} {sp : RdSpace} {i : Instr} {o : StackOp} {inv : Bool}
    (he : exec i s = s.scPush op sp ix o (fun b => b ^^ inv)) (h : Fetches s c k (scWord op (rdCode sp) ix)) :
    ((s.clsOf c).stack.length < 32 → ∃ t, exec i s = .next t ∧
      Advances s t c (s.scRead c k sp ix ^^ inv) (((s.clsOf c).acc, o) :: (s.clsOf c).stack) ∧ OnlyClasses s t) ∧
    (32 ≤ (s.clsOf c).stack.length → exec i s = .fault .scarabStack) := by
  rw [he, scPush_fetch h]
  constructor
  · intro hroom
    rw [if_neg (by omega)]
    exact ⟨_, rfl, scNext_modStack_advances h (((s.clsOf c).acc, o) :: ·) _ 1,
      scNext_modStack_onlyClasses s c (((s.clsOf c).acc, o) :: ·) _ 1⟩
  · intro hfull
    rw [if_pos hfull]

/-- Settles O9: the five opening instructions are one push, and `)` pops what was pushed last. -/
theorem branchInstructionsPushAndPop : Obligations.BranchInstructionsPushAndPop := by
  unfold Obligations.BranchInstructionsPushAndPop
  constructor
  · intro s c k ix sp op i o inv hmem h
    simp only [List.mem_cons, Prod.mk.injEq, List.not_mem_nil, or_false] at hmem
    have hid : (fun b : Bool => b) = (fun b => b ^^ false) := by funext b; cases b <;> rfl
    have hnot : (fun b : Bool => !b) = (fun b => b ^^ true) := by funext b; cases b <;> rfl
    obtain ⟨rfl, rfl, rfl, rfl⟩ | ⟨rfl, rfl, rfl, rfl⟩ | ⟨rfl, rfl, rfl, rfl⟩ | ⟨rfl, rfl, rfl, rfl⟩ | ⟨rfl, rfl, rfl, rfl⟩ := hmem
    · exact scPush_pushes (by rw [exec_scAndParen, execScAndParen, hid]) h
    · exact scPush_pushes (by rw [exec_scAndnParen, execScAndnParen, hnot]) h
    · exact scPush_pushes (by rw [exec_scOrParen, execScOrParen, hid]) h
    · exact scPush_pushes (by rw [exec_scOrnParen, execScOrnParen, hnot]) h
    · exact scPush_pushes (by rw [exec_scXorParen, execScXorParen, hid]) h
  · intro s c k h
    rw [exec_scCloseParen, execScCloseParen, scRun_fetch h]
    constructor
    · intro v o rest hstack
      rw [hstack]
      refine ⟨_, rfl, ?_, scNext_modStack_onlyClasses s c (fun _ => rest) _ 1⟩
      have hadv := scNext_modStack_advances h (fun _ => rest) (o.join v (s.clsOf c).acc) 1
      cases o <;> exact hadv
    · intro hempty
      rw [hempty]

/-! ### Stores and edges -/

/-! Moving on by a word writes class states alone. -/

@[simp] theorem scNext_q (s : State) (c : Nat) (v : Bool) (n : Nat) : (s.scNext c v n).slp.q = s.slp.q := rfl
@[simp] theorem scNext_m (s : State) (c : Nat) (v : Bool) (n : Nat) : (s.scNext c v n).slp.m = s.slp.m := rfl
@[simp] theorem scNext_t (s : State) (c : Nat) (v : Bool) (n : Nat) : (s.scNext c v n).slp.t = s.slp.t := rfl
@[simp] theorem scNext_c (s : State) (c : Nat) (v : Bool) (n : Nat) : (s.scNext c v n).slp.c = s.slp.c := rfl
@[simp] theorem scNext_e (s : State) (c : Nat) (v : Bool) (n : Nat) : (s.scNext c v n).slp.e = s.slp.e := rfl
@[simp] theorem scNext_regs (s : State) (c : Nat) (v : Bool) (n : Nat) : (s.scNext c v n).regs = s.regs := rfl
@[simp] theorem scNext_mem (s : State) (c : Nat) (v : Bool) (n : Nat) : (s.scNext c v n).mem = s.mem := rfl

/-- An instruction that writes Q or M: the one bit takes `f` of ACC and its value, or stays. -/
theorem scStore_writes {s : State} {c k op ix : Nat} {sp : WrSpace} {i : Instr} {g : Bool → Option Bool} {f : Bool → Bool → Bool}
    (he : exec i s = s.scStore op sp ix g) (hg : ∀ a b, f a b = (g a).getD b) (h : Fetches s c k (scWord op (wrCode sp) ix)) :
    ∃ t, exec i s = .next t ∧ Advances s t c (s.clsOf c).acc (s.clsOf c).stack ∧
      (∀ j, Tbl.get false j t.slp.q =
        if sp = .q ∧ j = ix then f (s.clsOf c).acc (Tbl.get false j s.slp.q) else Tbl.get false j s.slp.q) ∧
      (∀ j, Tbl.get false j t.slp.m =
        if sp = .m ∧ j = ix then f (s.clsOf c).acc (Tbl.get false j s.slp.m) else Tbl.get false j s.slp.m) ∧
      t.slp.t = s.slp.t ∧ t.slp.c = s.slp.c ∧ t.slp.e = s.slp.e ∧ t.regs = s.regs ∧ t.mem = s.mem := by
  obtain ⟨hrunning, hended⟩ := h.running
  rw [he, scStore_fetch h]
  simp only [hg]
  cases g (s.clsOf c).acc with
  | none => exact ⟨_, rfl, scNext_advances h _ 1, by simp, by simp, rfl, rfl, rfl, rfl, rfl⟩
  | some v =>
    refine ⟨_, rfl, opPut_adv c ix _ _ 1 hrunning hended, ?_⟩
    cases sp <;>
      simp [State.scWrite, opPut_q, opPut_m, opPut_t, opPut_c, opPut_e, opPut_regs, opPut_mem, Slp.put, Tbl.get_set]

/-- An edge instruction: ACC is the edge, 0 on a primed memory, and the memory takes ACC. -/
theorem scEdge_writes {s : State} {c k op ix : Nat} {i : Instr} {f : Bool → Bool → Bool} (he : exec i s = s.scEdge op ix f)
    (h : Fetches s c k (scWord op 5 ix)) :
    ∃ t, exec i s = .next t ∧
      Advances s t c (!(Tbl.get ({} : Edge) ix s.slp.e).primed && f (s.clsOf c).acc (Tbl.get ({} : Edge) ix s.slp.e).b)
        (s.clsOf c).stack ∧
      Tbl.get ({} : Edge) ix t.slp.e = ⟨(s.clsOf c).acc, false⟩ ∧
      (∀ j, j ≠ ix → Tbl.get ({} : Edge) j t.slp.e = Tbl.get ({} : Edge) j s.slp.e) ∧
      t.slp.q = s.slp.q ∧ t.slp.m = s.slp.m ∧ t.slp.t = s.slp.t ∧ t.slp.c = s.slp.c := by
  obtain ⟨hrunning, hended⟩ := h.running
  refine ⟨_, he.trans (scEdge_fetch h f), opPut_adv c ix _ _ 2 hrunning hended, ?_⟩
  simp only [scNext_q, scNext_m, scNext_t, scNext_c, scNext_e, opPut_q, opPut_m, opPut_t, opPut_c, opPut_e, Slp.put, Tbl.get_set,
    if_true, true_and, and_true]
  intro j hj
  rw [if_neg hj]

/-- Settles O10: the four stores are one write of a bit and the two edges one write of a memory; after reset every memory reads as
an unlisted one, which is primed. -/
theorem storeAndEdgeInstructionsWriteTheirBit : Obligations.StoreAndEdgeInstructionsWriteTheirBit := by
  unfold Obligations.StoreAndEdgeInstructionsWriteTheirBit
  refine ⟨?stores, fun s c k ix => ⟨?rising, ?falling, fun j => rfl⟩⟩
  case stores =>
    intro s c k ix sp op i f hmem h
    simp only [List.mem_cons, Prod.mk.injEq, List.not_mem_nil, or_false] at hmem
    obtain ⟨rfl, rfl, rfl⟩ | ⟨rfl, rfl, rfl⟩ | ⟨rfl, rfl, rfl⟩ | ⟨rfl, rfl, rfl⟩ := hmem
    · exact scStore_writes (exec_scSt sp ix s) (fun _ _ => rfl) h
    · exact scStore_writes (exec_scStn sp ix s) (fun _ _ => rfl) h
    · exact scStore_writes (f := fun a b => a || b) (exec_scSet sp ix s) (by decide) h
    · exact scStore_writes (f := fun a b => !a && b) (exec_scRst sp ix s) (by decide) h
  case rising =>
    intro h
    simpa only [Bool.and_assoc] using scEdge_writes (exec_scEdgr ix s) h
  case falling =>
    intro h
    simpa only [Bool.and_assoc] using scEdge_writes (exec_scEdgf ix s) h

end Sys2Proof.Machine
end

section
/-! The Scarab's timers and counters (R246 to R248). -/
namespace Sys2Proof.Machine

-- one proof after the other: started together they wait on each other's results, each in a thread of its own
set_option Elab.async false

/-! ### Timers -/

/-- What a timer's operand write leaves of the other operand arrays, with every timer's value after it. -/
theorem opPut_timer {s : State} {c k w ix : Nat} (h : Fetches s c k w) (x : Timer) (a : Bool) (n : Nat) :
    Advances s ((s.opPut c ix (.t x)).scNext c a n) c a (s.clsOf c).stack ∧
      (∀ j, Tbl.get ({} : Timer) j ((s.opPut c ix (.t x)).scNext c a n).slp.t = if j = ix then x else Tbl.get {} j s.slp.t) ∧
      ((s.opPut c ix (.t x)).scNext c a n).slp.q = s.slp.q ∧ ((s.opPut c ix (.t x)).scNext c a n).slp.m = s.slp.m ∧
      ((s.opPut c ix (.t x)).scNext c a n).slp.c = s.slp.c ∧ ((s.opPut c ix (.t x)).scNext c a n).slp.e = s.slp.e := by
  obtain ⟨hrunning, hended⟩ := h.running
  refine ⟨opPut_adv c ix _ a n hrunning hended, ?_⟩
  simp [opPut_q, opPut_m, opPut_t, opPut_c, opPut_e, Slp.put, Tbl.get_set]

/-- A timer instruction whose step gives `et`, `q` and `run`. -/
theorem scTimer_writes {s : State} {c k op ix et : Nat} {i : Instr} {f : Timer → Bool → Nat → Nat → Timer} {q run : Bool}
    (he : exec i s = s.scTimer op ix f) (h : Fetches s c k (scWord op 3 ix))
    (hf : let m := Tbl.get ({} : Timer) ix s.slp.t
      f m (s.clsOf c).acc ((s.clsOf c).stamp - m.last.getD (s.clsOf c).stamp) (s.prmAt 2 ix (s.clsOf c).n * (1000 * 65536)) =
        { m with et, q, run }) :
    ∃ t, exec i s = .next t ∧ Advances s t c q (s.clsOf c).stack ∧
      (∀ j, Tbl.get ({} : Timer) j t.slp.t =
        if j = ix then { et, q, inPrev := (s.clsOf c).acc, run, last := some (s.clsOf c).stamp } else Tbl.get {} j s.slp.t) ∧
      t.slp.q = s.slp.q ∧ t.slp.m = s.slp.m ∧ t.slp.c = s.slp.c ∧ t.slp.e = s.slp.e := by
  rw [he, State.scTimer, scRun_fetch h]
  dsimp only at hf ⊢
  rw [Nat.mul_assoc, hf]
  exact ⟨_, rfl, opPut_timer h _ q 3⟩

section
variable (m : Timer) (a : Bool) (dt pt : Nat)

theorem tonStep_eq :
    let et := if a && m.inPrev then etAdd m.et dt else 0
    tonStep m a dt pt = { m with et, q := a && decide (pt ≤ et) } := rfl

theorem tretStep_eq :
    let et := if a && m.inPrev then etAdd m.et dt else m.et
    tretStep m a dt pt = { m with et, q := decide (pt ≤ et) } := rfl

/-- TOF: on a 0 the timer runs from the fall of a set Q until ET reaches PT. -/
theorem tofStep_eq :
    let r := if m.inPrev then m.q else m.run
    let et := if m.inPrev then 0 else if m.run then etAdd m.et dt else m.et
    tofStep m a dt pt = { m with
      et := if a then 0 else et, q := if a then true else m.q && !(r && decide (pt ≤ et)), run := !a && r && !decide (pt ≤ et) } := by
  unfold tofStep
  cases a
  · obtain ⟨et, q, inPrev, run, last⟩ := m
    cases inPrev <;> cases run <;> cases q <;> simp <;> split_ifs <;> simp_all
  · rfl

/-- TP: a running pulse ends once ET reaches PT, and a rising edge while none runs starts one. -/
theorem tpStep_eq :
    let et := if m.run then etAdd m.et dt else m.et
    let done := m.run && decide (pt ≤ et)
    let fire := a && !m.inPrev && !(m.run && !done)
    tpStep m a dt pt = { m with
      et := if fire then 0 else et, q := if fire then decide (0 < pt) else m.q && !done
      run := if fire then decide (0 < pt) else m.run && !done } := by
  unfold tpStep
  obtain ⟨et, q, inPrev, run, last⟩ := m
  cases run
  · cases a <;> cases inPrev <;> simp
  · by_cases hdone : pt ≤ etAdd et dt <;> cases a <;> cases inPrev <;> simp [hdone]

end

/-! ### Counters -/

/-- What a counter's operand write leaves of the other operand arrays, with every counter's value after it. -/
theorem opPut_counter {s : State} {c k w ix : Nat} (h : Fetches s c k w) (x : Counter) (a : Bool) (n : Nat) :
    Advances s ((s.opPut c ix (.c x)).scNext c a n) c a (s.clsOf c).stack ∧
      (∀ j, Tbl.get ({} : Counter) j ((s.opPut c ix (.c x)).scNext c a n).slp.c = if j = ix then x else Tbl.get {} j s.slp.c) ∧
      ((s.opPut c ix (.c x)).scNext c a n).slp.q = s.slp.q ∧ ((s.opPut c ix (.c x)).scNext c a n).slp.m = s.slp.m ∧
      ((s.opPut c ix (.c x)).scNext c a n).slp.t = s.slp.t ∧ ((s.opPut c ix (.c x)).scNext c a n).slp.e = s.slp.e := by
  obtain ⟨hrunning, hended⟩ := h.running
  refine ⟨opPut_adv c ix _ a n hrunning hended, ?_⟩
  simp [opPut_q, opPut_m, opPut_t, opPut_c, opPut_e, Slp.put, Tbl.get_set]

/-- A counting instruction whose step gives `x`. -/
theorem scCount_writes {s : State} {c k op ix : Nat} {i : Instr} {down : Bool} {x : Counter} (he : exec i s = s.scCount op ix down)
    (h : Fetches s c k (scWord op 4 ix))
    (hx : ctrStep (Tbl.get {} ix s.slp.c) (s.clsOf c).acc down (s.prmAt 3 ix (s.clsOf c).n) = x) :
    ∃ t, exec i s = .next t ∧ Advances s t c x.q (s.clsOf c).stack ∧
      (∀ j, Tbl.get ({} : Counter) j t.slp.c = if j = ix then x else Tbl.get {} j s.slp.c) ∧
      t.slp.q = s.slp.q ∧ t.slp.m = s.slp.m ∧ t.slp.t = s.slp.t ∧ t.slp.e = s.slp.e := by
  rw [he, State.scCount, scRun_fetch h]
  dsimp only
  rw [hx]
  exact ⟨_, rfl, opPut_counter h _ _ 3⟩

/-- CTU: one more on a counted edge, saturating. -/
theorem ctrStep_up (m : Counter) (a : Bool) (pv : Nat) :
    let cv := if a && !m.eprev && !m.primed then min (m.cv + 1) 0xFFFFFFFF else m.cv
    ctrStep m a false pv = { cv, q := decide (pv ≤ cv), eprev := a, primed := false } := by
  unfold ctrStep
  by_cases hedge : (a && !m.eprev && !m.primed) = true <;> simp [hedge]

/-- CTD: one less on a counted edge, down to 0. -/
theorem ctrStep_down (m : Counter) (a : Bool) (pv : Nat) :
    let cv := if a && !m.eprev && !m.primed then m.cv - 1 else m.cv
    ctrStep m a true pv = { cv, q := decide (cv = 0), eprev := a, primed := false } := by
  unfold ctrStep
  by_cases hedge : (a && !m.eprev && !m.primed) = true <;> simp [hedge] <;> rfl

/-- CRST's direction: a program counts an operand down where it has a CTD for it. -/
theorem ctrDown_getD (ws : List Nat) (ix : Nat) : (ctrDown ws ix).getD false = decide (ctrDown ws ix = some true) := by
  cases ctrDown ws ix with
  | none => rfl
  | some b => cases b <;> rfl

/-! ### The instructions -/

/-- TRST: with ACC the timer stands at 0, and stops. -/
theorem scTrst_writes {s : State} {c k ix : Nat} (h : Fetches s c k (scWord 0x1A 3 ix)) :
    ∃ t, exec (.scTrst ix) s = .next t ∧ Advances s t c (s.clsOf c).acc (s.clsOf c).stack ∧
      (∀ j, Tbl.get ({} : Timer) j t.slp.t = if j = ix ∧ (s.clsOf c).acc then
        { Tbl.get ({} : Timer) ix s.slp.t with et := 0, q := false, run := false } else Tbl.get {} j s.slp.t) ∧
      t.slp.q = s.slp.q ∧ t.slp.m = s.slp.m ∧ t.slp.c = s.slp.c ∧ t.slp.e = s.slp.e := by
  rw [exec_scTrst, execScTrst, scRun_fetch h]
  dsimp only
  cases hacc : (s.clsOf c).acc with
  | false => exact ⟨_, rfl, scNext_advances h _ 3, by simp, rfl, rfl, rfl, rfl⟩
  | true =>
    obtain ⟨hadv, htimer, hrest⟩ :=
      opPut_timer (ix := ix) h { Tbl.get ({} : Timer) ix s.slp.t with et := 0, q := false, run := false } true 3
    exact ⟨_, rfl, hadv, fun j => by rw [if_pos rfl, htimer j]; simp, hrest⟩

/-- CRST: with ACC the counter takes its start value `cv`, and Q follows. -/
theorem scCrst_writes {s : State} {c k ix : Nat} (h : Fetches s c k (scWord 0x1D 4 ix)) :
    let pv := s.prmAt 3 ix (s.clsOf c).n
    let down := ctrDown (s.progWords (s.progAt k (s.clsOf c).n)) ix = some true
    let cv := if down then pv else 0
    ∃ t, exec (.scCrst ix) s = .next t ∧ Advances s t c (s.clsOf c).acc (s.clsOf c).stack ∧
      (∀ j, Tbl.get ({} : Counter) j t.slp.c = if j = ix ∧ (s.clsOf c).acc then
        { Tbl.get ({} : Counter) ix s.slp.c with cv, q := if down then decide (cv = 0) else decide (pv ≤ cv) }
        else Tbl.get {} j s.slp.c) ∧
      t.slp.q = s.slp.q ∧ t.slp.m = s.slp.m ∧ t.slp.t = s.slp.t ∧ t.slp.e = s.slp.e := by
  rw [exec_scCrst, execScCrst, scRun_fetch h]
  dsimp only
  simp only [ctrDown_getD, decide_eq_true_eq]
  cases hacc : (s.clsOf c).acc with
  | false => exact ⟨_, rfl, scNext_advances h _ 3, by simp, rfl, rfl, rfl, rfl⟩
  | true =>
    obtain ⟨hadv, hcounter, hrest⟩ := opPut_counter (ix := ix) h _ true 3
    exact ⟨_, rfl, hadv, fun j => by rw [if_pos rfl, hcounter j]; simp only [and_true]; rfl, hrest⟩

/-- Settles O11: the four timers are one operation with its own step each, and so are the two counters. -/
theorem timersAndCountersFollowStampsAndEdges : Obligations.TimersAndCountersFollowStampsAndEdges := by
  unfold Obligations.TimersAndCountersFollowStampsAndEdges
  refine ⟨fun s c k ix => ⟨?timers, scTrst_writes⟩, fun s c k ix => ⟨?ctu, ?ctd, scCrst_writes⟩⟩
  case timers =>
    intro op i et q run hmem h
    simp only [List.mem_cons, Prod.mk.injEq, List.not_mem_nil, or_false] at hmem
    obtain ⟨rfl, rfl, rfl, rfl, rfl⟩ | ⟨rfl, rfl, rfl, rfl, rfl⟩ | ⟨rfl, rfl, rfl, rfl, rfl⟩ | ⟨rfl, rfl, rfl, rfl, rfl⟩ := hmem
    · exact scTimer_writes (exec_scTon ix s) h (tonStep_eq ..)
    · exact scTimer_writes (exec_scTof ix s) h (tofStep_eq ..)
    · exact scTimer_writes (exec_scTp ix s) h (tpStep_eq ..)
    · exact scTimer_writes (exec_scTret ix s) h (tretStep_eq ..)
  case ctu =>
    intro h
    exact scCount_writes (exec_scCtu ix s) h (ctrStep_up ..)
  case ctd =>
    intro h
    exact scCount_writes (exec_scCtd ix s) h (ctrStep_down ..)

end Sys2Proof.Machine
end

section
/-! Jumps, ends and bad program words (R244, R250, R262). -/
namespace Sys2Proof.Machine

-- one proof after the other: started together they wait on each other's results, each in a thread of its own
set_option Elab.async false

/-! ### Jumps -/

/-- A class whose state was changed and whose cycle goes on, after `n` more cycles. -/
theorem spend_modCls_cls {s : State} {c : Nat} {f : ClassSt → ClassSt} {y : ClassSt} (n : Nat)
    (hf : f (s.clsOf c) = y) (hy : y.running = true) :
    ((s.modCls c f).spend n).clsOf c = { y with cycles := y.cycles + n } := by
  rw [spend_cls, modCls_cls, if_pos rfl, hf, if_pos hy]

/-- A jump that is taken. -/
theorem scGoto_takes {s : State} {c k w : Nat} (h : Fetches s c k w) (target : Nat) :
    OnlyClasses s (s.scGoto c target 3) ∧
      (s.scGoto c target 3).clsOf c = { s.clsOf c with pc := target, cycles := (s.clsOf c).cycles + 3 } :=
  ⟨rfl, spend_modCls_cls 3 rfl h.running.1⟩

/-- A jump or ENDC that is not taken. -/
theorem scNext_passes {s : State} {c k w : Nat} (h : Fetches s c k w) :
    OnlyClasses s (s.scNext c (s.clsOf c).acc 1) ∧
      (s.scNext c (s.clsOf c).acc 1).clsOf c = { s.clsOf c with pc := (s.clsOf c).pc + 1, cycles := (s.clsOf c).cycles + 1 } :=
  ⟨rfl, spend_modCls_cls 1 rfl h.running.1⟩

/-- The three jumps: to the target where taken, else to the next word. -/
theorem scJump_moves {s : State} {c k op target : Nat} {i : Instr} {taken : Bool}
    (he : exec i s = s.scRun (scWord op 0 target) (fun c _ x s => .next (if taken then s.scGoto c target 3 else s.scNext c x.acc 1)))
    (h : Fetches s c k (scWord op 0 target)) :
    ∃ t, exec i s = .next t ∧ OnlyClasses s t ∧ t.clsOf c = { s.clsOf c with
      pc := if taken then target else (s.clsOf c).pc + 1, cycles := (s.clsOf c).cycles + if taken then 3 else 1 } := by
  rw [he, scRun_fetch h]
  refine ⟨_, rfl, ?_⟩
  cases taken
  · exact scNext_passes h
  · exact scGoto_takes h target

/-- The act of a fetched word may be given in any form that agrees with it there. -/
theorem scRun_congr {s : State} {c k w : Nat} (h : Fetches s c k w) {act act' : Nat → Nat → ClassSt → State → Result}
    (hact : act c k (s.clsOf c) s = act' c k (s.clsOf c) s) : s.scRun w act = s.scRun w act' := by
  rw [scRun_fetch h, scRun_fetch h, hact]

/-! ### Ends -/

/-- R242, R250: the class's next slot begins, or its programs end. -/
theorem nextSlot_onlyClasses (s : State) (c : Nat) (rest : List Nat) : OnlyClasses s (s.nextSlot c rest) := by
  unfold State.nextSlot
  dsimp only
  split <;> rfl

theorem spend_onlyClasses (s : State) (n : Nat) : OnlyClasses s (s.spend n) := rfl

/-- A slot that ends where its class runs: 2 cycles, and 16 more for the next slot's entry. -/
theorem nextSlot_enters {s : State} {c k w : Nat} (h : Fetches s c k w) (rest : List Nat) :
    ((s.spend 2).nextSlot c rest).clsOf c = if rest = [] then
        { s.clsOf c with slots := [], pc := 0, acc := false, stack := [], ended := true, cycles := (s.clsOf c).cycles + 2 }
      else { s.clsOf c with
        slots := rest, pc := 0, acc := false, stack := [], ended := false, cycles := (s.clsOf c).cycles + 18 } := by
  obtain ⟨hrunning, -⟩ := h.running
  unfold State.nextSlot
  cases rest with
  | nil => simp [modCls_cls, spend_cls, hrunning]
  | cons a l => simp [modCls_cls, spend_cls, hrunning]

/-- END and ENDC: the slot ends where taken. -/
theorem scEnd_moves {s : State} {c k op : Nat} {i : Instr} {taken : Bool}
    (he : exec i s = s.scRun (scWord op 0 0) (fun c _ x s =>
      .next (if taken then (s.spend 2).nextSlot c (x.slots.drop 1) else s.scNext c x.acc 1)))
    (h : Fetches s c k (scWord op 0 0)) :
    ∃ t, exec i s = .next t ∧ OnlyClasses s t ∧
      t.clsOf c = (if !taken then { s.clsOf c with pc := (s.clsOf c).pc + 1, cycles := (s.clsOf c).cycles + 1 }
        else if (s.clsOf c).slots.tail = [] then { s.clsOf c with
          slots := [], pc := 0, acc := false, stack := [], ended := true, cycles := (s.clsOf c).cycles + 2 }
        else { s.clsOf c with slots := (s.clsOf c).slots.tail, pc := 0, acc := false, stack := [], ended := false
                              cycles := (s.clsOf c).cycles + 18 }) := by
  rw [he, scRun_fetch h]
  refine ⟨_, rfl, ?_⟩
  cases taken
  · exact scNext_passes h
  · exact ⟨(spend_onlyClasses s 2).trans (nextSlot_onlyClasses ..), by rw [← List.drop_one]; exact nextSlot_enters h _⟩

/-! ### Bad program words -/

/-- A meaning that is a Scarab instruction's. -/
def RunsWord (s : State) (r : Result) : Prop := ∃ w act, r = s.scRun w act

theorem State.scRun_runsWord (s : State) (w : Nat) (act : Nat → Nat → ClassSt → State → Result) : RunsWord s (s.scRun w act) := ⟨_, _, rfl⟩

theorem State.scRead1_runsWord (s : State) (op : Nat) (sp : RdSpace) (ix : Nat) (f : ClassSt → Bool → Bool) : RunsWord s (s.scRead1 op sp ix f) := ⟨_, _, rfl⟩

theorem State.scPush_runsWord (s : State) (op : Nat) (sp : RdSpace) (ix : Nat) (o : StackOp) (f : Bool → Bool) : RunsWord s (s.scPush op sp ix o f) := ⟨_, _, rfl⟩

theorem State.scStore_runsWord (s : State) (op : Nat) (sp : WrSpace) (ix : Nat) (f : Bool → Option Bool) : RunsWord s (s.scStore op sp ix f) := ⟨_, _, rfl⟩

theorem State.scTimer_runsWord (s : State) (op ix : Nat) (f : Timer → Bool → Nat → Nat → Timer) : RunsWord s (s.scTimer op ix f) := ⟨_, _, rfl⟩

theorem State.scCount_runsWord (s : State) (op ix : Nat) (down : Bool) : RunsWord s (s.scCount op ix down) := ⟨_, _, rfl⟩

theorem State.scEdge_runsWord (s : State) (op ix : Nat) (f : Bool → Bool → Bool) : RunsWord s (s.scEdge op ix f) := ⟨_, _, rfl⟩

/-- Every instruction that has a word runs as a Scarab instruction. -/
theorem exec_runsWord {i : Instr} (h : (encodeScarab i).isSome = true) (s : State) : RunsWord s (exec i s) := by
  cases i with
  | scNop => rw [exec_scNop]; exact s.scRun_runsWord ..
  | scLd sp ix => rw [exec_scLd]; exact s.scRead1_runsWord ..
  | scLdn sp ix => rw [exec_scLdn]; exact s.scRead1_runsWord ..
  | scAnd sp ix => rw [exec_scAnd]; exact s.scRead1_runsWord ..
  | scAndn sp ix => rw [exec_scAndn]; exact s.scRead1_runsWord ..
  | scOr sp ix => rw [exec_scOr]; exact s.scRead1_runsWord ..
  | scOrn sp ix => rw [exec_scOrn]; exact s.scRead1_runsWord ..
  | scXor sp ix => rw [exec_scXor]; exact s.scRead1_runsWord ..
  | scXorn sp ix => rw [exec_scXorn]; exact s.scRead1_runsWord ..
  | scAndParen sp ix => rw [exec_scAndParen]; exact s.scPush_runsWord ..
  | scAndnParen sp ix => rw [exec_scAndnParen]; exact s.scPush_runsWord ..
  | scOrParen sp ix => rw [exec_scOrParen]; exact s.scPush_runsWord ..
  | scOrnParen sp ix => rw [exec_scOrnParen]; exact s.scPush_runsWord ..
  | scXorParen sp ix => rw [exec_scXorParen]; exact s.scPush_runsWord ..
  | scCloseParen => rw [exec_scCloseParen]; exact s.scRun_runsWord ..
  | scNot => rw [exec_scNot]; exact s.scRun_runsWord ..
  | scSt sp ix => rw [exec_scSt]; exact s.scStore_runsWord ..
  | scStn sp ix => rw [exec_scStn]; exact s.scStore_runsWord ..
  | scSet sp ix => rw [exec_scSet]; exact s.scStore_runsWord ..
  | scRst sp ix => rw [exec_scRst]; exact s.scStore_runsWord ..
  | scEdgr ix => rw [exec_scEdgr]; exact s.scEdge_runsWord ..
  | scEdgf ix => rw [exec_scEdgf]; exact s.scEdge_runsWord ..
  | scTon ix => rw [exec_scTon]; exact s.scTimer_runsWord ..
  | scTof ix => rw [exec_scTof]; exact s.scTimer_runsWord ..
  | scTp ix => rw [exec_scTp]; exact s.scTimer_runsWord ..
  | scTret ix => rw [exec_scTret]; exact s.scTimer_runsWord ..
  | scTrst ix => rw [exec_scTrst]; exact s.scRun_runsWord ..
  | scCtu ix => rw [exec_scCtu]; exact s.scCount_runsWord ..
  | scCtd ix => rw [exec_scCtd]; exact s.scCount_runsWord ..
  | scCrst ix => rw [exec_scCrst]; exact s.scRun_runsWord ..
  | scJmp target => rw [exec_scJmp]; exact s.scRun_runsWord ..
  | scJmpc target => rw [exec_scJmpc]; exact s.scRun_runsWord ..
  | scJmpcn target => rw [exec_scJmpcn]; exact s.scRun_runsWord ..
  | scEnd => rw [exec_scEnd]; exact s.scRun_runsWord ..
  | scEndc => rw [exec_scEndc]; exact s.scRun_runsWord ..
  | _ => cases h

theorem opPut_slots (s : State) (c ix : Nat) (v : OpVal) : (s.opPut c ix v).slp.slots = (s.slp.put ix v).slots := by
  unfold State.opPut
  cases v <;> simp only [State.modCls] <;> split <;> rfl

theorem opPut_faults (s : State) (c ix : Nat) (v : OpVal) : (s.opPut c ix v).slp.faults = s.slp.faults := by
  unfold State.opPut
  cases v <;> simp only [State.modCls] <;> split <;> rfl

/-- What clearing the Q bits of a slot leaves: every other Q bit, every M bit, the slots' own state, and the registers. -/
theorem clearQ_writes (s : State) (c : Nat) (w : List Nat) :
    (∀ j, Tbl.get false j (s.clearQ c w).slp.q = if (soIndices w .q).contains j then false else Tbl.get false j s.slp.q) ∧
      (s.clearQ c w).slp.m = s.slp.m ∧ (s.clearQ c w).slp.faults = s.slp.faults ∧ (s.clearQ c w).regs = s.regs := by
  unfold State.clearQ
  generalize soIndices w .q = ixs
  induction ixs generalizing s with
  | nil => simp
  | cons ix ixs ih =>
    obtain ⟨hq, hm, hfaults, hregs⟩ := ih (s.opPut c ix (.q false))
    refine ⟨fun j => ?_, hm.trans (opPut_m ..), hfaults.trans (opPut_faults ..), hregs.trans (opPut_regs ..)⟩
    rw [List.foldl_cons, hq j, opPut_q, Slp.put, Tbl.get_set, List.contains_cons]
    by_cases hj : j = ix <;> simp [hj]

theorem clearQ_cls (s : State) (c : Nat) (w : List Nat) (j : Nat) :
    ∃ wr, (s.clearQ c w).clsOf j = { s.clsOf j with written := wr } := by
  unfold State.clearQ
  generalize soIndices w .q = ixs
  induction ixs generalizing s with
  | nil => exact ⟨_, rfl⟩
  | cons ix ixs ih =>
    obtain ⟨wr, hwr⟩ := ih (s.opPut c ix (.q false))
    obtain ⟨_, hput⟩ := opPut_cls s c ix (.q false) j
    exact ⟨wr, by rw [List.foldl_cons, hwr, hput]⟩

/-- The class whose slot ends by a fault goes on with its next slot, whatever the state. -/
theorem nextSlot_fields (s : State) (c : Nat) (rest : List Nat) :
    ((s.nextSlot c rest).clsOf c).slots = rest ∧ ((s.nextSlot c rest).clsOf c).pc = 0 ∧
      ((s.nextSlot c rest).clsOf c).acc = false ∧ ((s.nextSlot c rest).clsOf c).stack = [] ∧
      ((s.nextSlot c rest).clsOf c).ended = rest.isEmpty := by
  unfold State.nextSlot
  dsimp only
  split
  · simp [modCls_cls]
  · rw [spend_cls, modCls_cls, if_pos rfl]
    split <;> exact ⟨rfl, rfl, rfl, rfl, rfl⟩

section
variable {s t : State} (h : OnlyClasses s t)
include h

theorem OnlyClasses.q_eq : t.slp.q = s.slp.q := by rw [h]

theorem OnlyClasses.m_eq : t.slp.m = s.slp.m := by rw [h]

theorem OnlyClasses.faults_eq : t.slp.faults = s.slp.faults := by rw [h]

theorem OnlyClasses.slots_eq : t.slp.slots = s.slp.slots := by rw [h]

theorem OnlyClasses.regs_eq : t.regs = s.regs := by rw [h]

end

/-- The Q bits of the slot cleared and its mode STOP: the first of what a bad word does. -/
def State.faultStopped (s : State) (c k : Nat) : State :=
  (s.clearQ c (s.slpEnt 0 k)).opPut c k (.slot { s.slotOf k with mode := 0 })

/-- FAULT of a slot, with the STOP that holds from the next cycle on. -/
def State.faultMarked (s : State) (c k : Nat) : State :=
  { s with slp := { s.slp with
    faults := k :: s.slp.faults.filter (fun j => j != k)
    reqs := Tbl.mod [] k (insertReq ⟨(s.clsOf c).n + 1, 0, false⟩) s.slp.reqs } }

/-- The events of a slot's fault, to its slice and to slice 0. -/
def State.faultEvents (s : State) (k addr : Nat) : State :=
  let s := if k = 0 then s else s.event (k - 1) 0x0006 k addr 0
  if k = 1 then s else s.event 0 0x0006 k addr 0

/-- A bad word noted: all that `slotFault` does before the class's next slot. -/
def State.faultNoted (s : State) (c k addr : Nat) : State :=
  (((s.faultStopped c k).faultMarked c k).bump (F.SLP_CNT_COUNT.nth 3)).faultEvents k addr

theorem slotFault_eq (s : State) (c k addr : Nat) :
    s.slotFault c k addr = (s.faultNoted c k addr).nextSlot c (((s.faultNoted c k addr).clsOf c).slots.drop 1) := rfl

theorem faultEvents_touches (s : State) (k addr : Nat) : Touches [.regs, .mem, .slt] s (s.faultEvents k addr) := by
  have hslice : Touches [.regs, .mem, .slt] s (if k = 0 then s else s.event (k - 1) 0x0006 k addr 0) :=
    .ite (.refl ..) ((Touches.refl ..).event ..)
  exact .ite hslice (hslice.event ..)

theorem sameFieldsBut_faultEvents (s : State) (k addr : Nat) :
    SameFieldsBut [F.SLT_CNT_COUNT.nth 3] s (s.faultEvents k addr) := by
  have hslice : SameFieldsBut [F.SLT_CNT_COUNT.nth 3] s (if k = 0 then s else s.event (k - 1) 0x0006 k addr 0) := by
    split
    · exact .refl _ _
    · exact sameFieldsBut_event _ _ _ _ _ _
  unfold State.faultEvents
  dsimp only
  split
  · exact hslice
  · exact hslice.trans (sameFieldsBut_event _ _ _ _ _ _)

theorem faultNoted_slp (s : State) (c k addr : Nat) : (s.faultNoted c k addr).slp = ((s.faultStopped c k).faultMarked c k).slp :=
  (faultEvents_touches ..).slp_eq

theorem faultNoted_count (s : State) (c k addr : Nat) :
    (s.faultNoted c k addr).get (F.SLP_CNT_COUNT.nth 3) =
      min (s.get (F.SLP_CNT_COUNT.nth 3) + 1) (2 ^ (F.SLP_CNT_COUNT.nth 3).width - 1) := by
  have hregs : ((s.faultStopped c k).faultMarked c k).regs = s.regs := (opPut_regs ..).trans (clearQ_writes s c (s.slpEnt 0 k)).2.2.2
  rw [State.faultNoted, sameFieldsBut_faultEvents _ _ _ _ (by decide), State.get_bump_same, State.get, hregs, State.get]

/-- R262: what a bad word does to the Scarab. -/
theorem slotFault_writes (s : State) (c k addr : Nat) :
    (∀ j, Tbl.get false j (s.slotFault c k addr).slp.q =
      if (soIndices (s.slpEnt 0 k) .q).contains j then false else Tbl.get false j s.slp.q) ∧
    (s.slotFault c k addr).slp.m = s.slp.m ∧
    (s.slotFault c k addr).slp.faults = k :: s.slp.faults.filter (fun j => j != k) ∧
    ((s.slotFault c k addr).slotOf k).mode = 0 ∧
    (s.slotFault c k addr).get (F.SLP_CNT_COUNT.nth 3) =
      min (s.get (F.SLP_CNT_COUNT.nth 3) + 1) (2 ^ (F.SLP_CNT_COUNT.nth 3).width - 1) := by
  obtain ⟨hq, hm, hfaults, -⟩ := clearQ_writes s c (s.slpEnt 0 k)
  rw [slotFault_eq]
  have hnext := nextSlot_onlyClasses (s.faultNoted c k addr) c (((s.faultNoted c k addr).clsOf c).slots.drop 1)
  rw [State.slotOf, hnext.q_eq, hnext.m_eq, hnext.faults_eq, hnext.slots_eq, State.get, hnext.regs_eq, faultNoted_slp]
  refine ⟨fun j => ?_, (opPut_m ..).trans hm, ?_, ?_, faultNoted_count s c k addr⟩
  · rw [← hq j]
    exact congrArg _ (opPut_q ..)
  · rw [← hfaults]
    exact congrArg (fun l => k :: l.filter (fun j => j != k)) (opPut_faults ..)
  · rw [State.faultMarked, State.faultStopped, opPut_slots, Slp.put, Tbl.get_set_same]

/-- The class after a bad word. -/
theorem slotFault_cls (s : State) (c k addr : Nat) :
    ((s.slotFault c k addr).clsOf c).slots = (s.clsOf c).slots.drop 1 ∧ ((s.slotFault c k addr).clsOf c).pc = 0 ∧
      ((s.slotFault c k addr).clsOf c).acc = false ∧ ((s.slotFault c k addr).clsOf c).stack = [] ∧
      ((s.slotFault c k addr).clsOf c).ended = ((s.clsOf c).slots.drop 1).isEmpty := by
  obtain ⟨_, hcleared⟩ := clearQ_cls s c (s.slpEnt 0 k) c
  obtain ⟨_, hput⟩ := opPut_cls (s.clearQ c (s.slpEnt 0 k)) c k (.slot { s.slotOf k with mode := 0 }) c
  have hslots : ((s.faultNoted c k addr).clsOf c).slots = (s.clsOf c).slots := by
    have hcls : (s.faultNoted c k addr).clsOf c = ((s.faultStopped c k).faultMarked c k).clsOf c :=
      congrArg (fun x : Slp => Tbl.get ({} : ClassSt) c x.cls) (faultNoted_slp s c k addr)
    have hmarked : ((s.faultStopped c k).faultMarked c k).clsOf c = (s.faultStopped c k).clsOf c := rfl
    rw [hcls, hmarked, State.faultStopped, hput, hcleared]
  rw [slotFault_eq, hslots]
  exact nextSlot_fields ..

/-- A bad word at the running class's next place ends its slot, whatever instruction is asked for. -/
theorem scRun_bad {s : State} {c k : Nat} (w : Nat) (act : Nat → Nat → ClassSt → State → Result) (hcur : s.slp.cur = some c)
    (hslot : (s.clsOf c).slots.head? = some k) (hrunning : (s.clsOf c).running = true) (hended : (s.clsOf c).ended = false)
    (hpc : (s.clsOf c).pc < (s.progAt k (s.clsOf c).n).2)
    (hbad : s.slp.badWords.contains ((s.progAt k (s.clsOf c).n).1 + (s.clsOf c).pc) = true) :
    s.scRun w act = .next (s.slotFault c k ((s.progAt k (s.clsOf c).n).1 + (s.clsOf c).pc)) := by
  obtain ⟨rest, hslots⟩ : ∃ rest, (s.clsOf c).slots = k :: rest := List.head?_eq_some_iff.mp hslot
  simp only [State.scRun, hcur, hslots, hrunning, hended, hpc, hbad, Bool.not_false, Bool.and_self, decide_true, if_true]

/-- Settles O12: jumps and ends by the two laws above; a bad word takes every instruction that has a word to `slotFault`. -/
theorem jumpsEndsAndBadWordsMoveTheProgramCounter : Obligations.JumpsEndsAndBadWordsMoveTheProgramCounter := by
  unfold Obligations.JumpsEndsAndBadWordsMoveTheProgramCounter
  refine ⟨fun s c k => ⟨?jumps, ?ends⟩, ?badWord⟩
  case jumps =>
    intro op target i taken hmem h
    simp only [List.mem_cons, Prod.mk.injEq, List.not_mem_nil, or_false] at hmem
    obtain ⟨rfl, rfl, rfl⟩ | ⟨rfl, rfl, rfl⟩ | ⟨rfl, rfl, rfl⟩ := hmem
    · exact scJump_moves (exec_scJmp target s) h
    · exact scJump_moves ((exec_scJmpc target s).trans (scRun_congr h rfl)) h
    · refine scJump_moves ((exec_scJmpcn target s).trans (scRun_congr h ?_)) h
      cases (s.clsOf c).acc <;> rfl
  case ends =>
    intro op i taken hmem h
    simp only [List.mem_cons, Prod.mk.injEq, List.not_mem_nil, or_false] at hmem
    obtain ⟨rfl, rfl, rfl⟩ | ⟨rfl, rfl, rfl⟩ := hmem
    · exact scEnd_moves (exec_scEnd s) h
    · exact scEnd_moves ((exec_scEndc s).trans (scRun_congr h rfl)) h
  case badWord =>
    intro s c k i hcur hslot hrunning hended hpc hbad hword
    obtain ⟨w, act, hrun⟩ := exec_runsWord hword s
    obtain ⟨hq, hm, hfaults, hmode, hcount⟩ := slotFault_writes s c k ((s.progAt k (s.clsOf c).n).1 + (s.clsOf c).pc)
    refine ⟨_, hrun.trans (scRun_bad w act hcur hslot hrunning hended hpc hbad), rfl, hq, hm, hfaults, hmode, ?_, ?_⟩
    · rw [hcount, min_mod_width]
    · exact slotFault_cls ..

end Sys2Proof.Machine
end

section
/-! Why O13 fails: a due start also waits for a per-instant class that has an instant waiting (`State.instDue`, R252). -/
namespace Sys2Proof.Machine

-- one proof after the other: started together they wait on each other's results, each in a thread of its own
set_option Elab.async false

/-- The Scarab on with class 0 per-instant and class 1 timed, none of them running, and one G update waiting for class 0. -/
def contendedScarab : State :=
  let s : State := { State.reset with slp := { State.reset.slp with gUpd := [⟨0, 0, []⟩] } }
  (((s.setF F.TMC_START_STATUS_PHASE 6).setF F.SLP_CTL_EN 1).setSlpEnt 1 0 [2 ^ 63 + 2 ^ 62]).setSlpEnt 1 1 [2 ^ 63 + 2 ^ 43]

/-- Class 0 is due, and class 1, whose start comes, stays without a cycle. -/
theorem contendedScarab_waits : (timedCycleStart 1 contendedScarab).slp.cur = none := by decide

/-- Refutes O13: no class of higher priority runs, and still the timed start gets no cycle, as the per-instant class before it has an
instant waiting. -/
theorem not_cyclesStartResumeAndEnd : ¬ Obligations.CyclesStartResumeAndEnd := by
  unfold Obligations.CyclesStartResumeAndEnd
  intro h
  obtain ⟨-, -, hstarts, -⟩ := h.1 contendedScarab 1 (by decide) (by decide) (by decide) (by decide) (by decide)
  obtain ⟨t, hexec, -, hcur, -⟩ := hstarts (by decide) (by decide) (by decide) (by decide)
  obtain rfl : timedCycleStart 1 contendedScarab = t := Host.Outcome.next.inj hexec
  rw [contendedScarab_waits] at hcur
  cases hcur

end Sys2Proof.Machine
end

section
/-! The frame of the operations of the supplies, of start-up and of the engines they move: which parts of the state each one writes. -/
namespace Sys2Proof.Machine

-- one proof after the other: started together they wait on each other's results, each in a thread of its own
set_option Elab.async false

section
variable {l : List StatePart} {s t u : State}

/-- An operation whose parts are all listed, after others. -/
theorem Touches.via {m : List StatePart} (k : Touches m t u) (h : Touches l s t) (hml : m ⊆ l := by simp) : Touches l s u :=
  h.trans (k.mono hml)

theorem Touches.ite2 {α : Type} {c : Prop} [Decidable c] {x y : α × State} (hx : Touches l s x.2) (hy : Touches l s y.2) :
    Touches l s (if c then x else y).2 := by
  split <;> assumption

theorem Touches.foldl2 {α β : Type} {f : α × State → β → α × State} (hf : ∀ x b, Touches l s x.2 → Touches l s (f x b).2)
    (bs : List β) {x : α × State} (h : Touches l s x.2) : Touches l s (bs.foldl f x).2 := by
  induction bs generalizing x with
  | nil => exact h
  | cons b bs ih => exact ih (hf x b h)

theorem Touches.forN {n : Nat} {f : State → Nat → State} (hf : ∀ u k, Touches l s u → Touches l s (f u k)) (h : Touches l s t) :
    Touches l s (forN n f t) := Touches.foldl hf _ h

/-- `Touches`, of the parts that a state is made of. -/
def TouchesD (l : List StatePart) (s : State) (regs : Tbl Nat) (mem : List Host.Cell) (bus : BusResp) (sup : Supply) (keep : Keep) (qbc
    : Qbc) (tbu : Tbu) (mac : Tbl Mac) (pairs : Tbl Pair) (wvl : Wvl) (ing : Ingress) (lat : Tbl Lattice) (phe : Phe) (gcm : Gcm) (slp :
    Slp) (pub : Pub) (dre : Dre) (slt : Slt) (prc : Prc) (psc : Island) (dom : Dome) (tmc : Tmc) (hlt : Health) (cmds : Tbl CmdOut)
    (free : Nat) (pending : List Instr) : Prop :=
  Touches l s ⟨regs, mem, bus, sup, keep, qbc, tbu, mac, pairs, wvl, ing, lat, phe, gcm, slp, pub, dre, slt, prc, psc, dom, tmc, hlt,
    cmds, free, pending⟩

theorem Touches.mk_eq {regs : Tbl Nat} {mem : List Host.Cell} {bus : BusResp} {sup : Supply} {keep : Keep} {qbc : Qbc} {tbu : Tbu} {mac
    : Tbl Mac} {pairs : Tbl Pair} {wvl : Wvl} {ing : Ingress} {lat : Tbl Lattice} {phe : Phe} {gcm : Gcm} {slp : Slp} {pub : Pub} {dre :
    Dre} {slt : Slt} {prc : Prc} {psc : Island} {dom : Dome} {tmc : Tmc} {hlt : Health} {cmds : Tbl CmdOut} {free : Nat} {pending : List
    Instr} :
    Touches l s ⟨regs, mem, bus, sup, keep, qbc, tbu, mac, pairs, wvl, ing, lat, phe, gcm, slp, pub, dre, slt, prc, psc, dom, tmc, hlt,
    cmds, free, pending⟩ = TouchesD l s regs mem bus sup keep qbc tbu mac pairs wvl ing lat phe gcm slp pub dre slt prc psc dom tmc hlt
    cmds free pending := rfl

/-! A value bound in the middle of an operation: what holds of it is carried on, and its value is forgotten. -/

theorem Touches.cut {G : Prop} (h : Touches l s t) (k : Touches l s t → G) : G := k h

theorem Touches.cut2 {α : Type} {x : α × State} {G : Prop} (h : Touches l s x.2) (k : Touches l s x.2 → G) : G := k h

theorem Touches.cut1 {α : Type} {x : State × α} {G : Prop} (h : Touches l s x.1) (k : Touches l s x.1 → G) : G := k h

theorem Touches.cutF1 {f : State → State} {G : Prop} (h : ∀ u, Touches l s u → Touches l s (f u))
    (k : (∀ u, Touches l s u → Touches l s (f u)) → G) : G := k h

theorem Touches.cutF2 {α : Type} {f : State → α → State} {G : Prop} (h : ∀ u a, Touches l s u → Touches l s (f u a))
    (k : (∀ u a, Touches l s u → Touches l s (f u a)) → G) : G := k h

theorem Touches.cutG2 {α : Type} {f : α → State → State} {G : Prop} (h : ∀ a u, Touches l s u → Touches l s (f a u))
    (k : (∀ a u, Touches l s u → Touches l s (f a u)) → G) : G := k h

theorem Touches.cutF3 {α β : Type} {f : State → α → β → State} {G : Prop} (h : ∀ u a b, Touches l s u → Touches l s (f u a b))
    (k : (∀ u a b, Touches l s u → Touches l s (f u a b)) → G) : G := k h

theorem Touches.cutF4 {α β γ δ : Type} {f : α → β → γ → δ → State} {G : Prop} (h : ∀ a b c d, Touches l s (f a b c d))
    (k : (∀ a b c d, Touches l s (f a b c d)) → G) : G := k h

end

theorem setF_touches {s : State} {f : Field} {v : Nat} : Touches [.regs] s (s.setF f v) := (Touches.refl _ s).setF _ _

theorem setB_touches {s : State} {f : Field} {b : Bool} : Touches [.regs] s (s.setB f b) := (Touches.refl _ s).setB _ _

theorem setI_touches {s : State} {f : Field} {v : Int} : Touches [.regs] s (s.setI f v) := (Touches.refl _ s).setI _ _

theorem bumpBy_touches {s : State} {f : Field} {n : Nat} : Touches [.regs] s (s.bumpBy f n) := (Touches.refl _ s).bumpBy _ _

theorem bump_touches {s : State} {f : Field} : Touches [.regs] s (s.bump f) := (Touches.refl _ s).bump _

theorem writeField_touches {s : State} {f : Field} {v : Nat} : Touches [.regs] s (s.writeField f v) :=
  (Touches.refl _ s).writeField _ _

theorem clearPage_touches {s : State} {lo hi : Nat} : Touches [.regs] s (s.clearPage lo hi) := (Touches.refl _ s).clearPage _ _

theorem wr_touches {s : State} {a n v : Nat} : Touches [.mem] s (s.wr a n v) := (Touches.refl _ s).wr _ _ _

theorem wr64_touches {s : State} {a v : Nat} : Touches [.mem] s (s.wr64 a v) := (Touches.refl _ s).wr64 _ _

theorem wrOctets_touches {s : State} {a : Nat} {o : Octets} : Touches [.mem] s (s.wrOctets a o) := (Touches.refl _ s).wrOctets _ _

theorem wrWords_touches {s : State} {a : Nat} {ws : List Nat} : Touches [.mem] s (s.wrWords a ws) := (Touches.refl _ s).wrWords _ _

theorem advanceTo_touches {s : State} {t : Time} : Touches [.tbu] s (s.advanceTo t) := (Touches.refl _ s).advanceTo _

theorem drawn_touches {s : State} : Touches [.free] s s.drawn := (Touches.refl _ s).drawn

theorem modSlice_touches {s : State} {n : Nat} {f : Slice → Slice} : Touches [.slt] s (s.modSlice n f) := (Touches.refl _ s).modSlice _ _

theorem modRing_touches {s : State} {r : Nat} {f : Ring → Ring} : Touches [.slt] s (s.modRing r f) := (Touches.refl _ s).modRing _ _

theorem sendIrq_touches {s : State} {r : Nat} : Touches [.slt] s (s.sendIrq r) := (Touches.refl _ s).sendIrq _

theorem advanceHead_touches {s : State} {r k : Nat} : Touches [.slt] s (s.advanceHead r k) := (Touches.refl _ s).advanceHead _ _

theorem event_touches {s : State} {n code source param param2 : Nat} : Touches [.regs, .mem, .slt] s (s.event n code source param param2) :=
  (Touches.refl _ s).event _ _ _ _ _

theorem Touches.set_slp_psc {l : List StatePart} {s t : State} (h : Touches l s t) (x0 : Slp) (x1 : Island) (h0 : StatePart.slp ∈ l := by simp) (h1 : StatePart.psc ∈ l := by simp) :
    Touches l s { t with slp := x0, psc := x1 } := by
  constructor
  intro q hq
  cases q
  case slp => exact absurd h0 hq
  case psc => exact absurd h1 hq
  all_goals exact h.same _ hq

theorem Touches.set_sup_keep_tbu {l : List StatePart} {s t : State} (h : Touches l s t) (x0 : Supply) (x1 : Keep) (x2 : Tbu) (h0 : StatePart.sup ∈ l := by simp) (h1 : StatePart.keep ∈ l := by simp) (h2 : StatePart.tbu ∈ l := by simp) :
    Touches l s { t with sup := x0, keep := x1, tbu := x2 } := by
  constructor
  intro q hq
  cases q
  case sup => exact absurd h0 hq
  case keep => exact absurd h1 hq
  case tbu => exact absurd h2 hq
  all_goals exact h.same _ hq

theorem clearFields_touches {s : State} {fs : List Field} :
    Touches [.regs] s (State.clearFields s fs) := by
  unfold State.clearFields
  repeat' first
    | with_reducible assumption
    | with_reducible exact Touches.refl _ _
    | with_reducible apply Touches.via setF_touches
    | with_reducible apply Touches.foldl
    | with_reducible apply Touches.foldl2
    | (intro _; intros; try beta_reduce)

theorem openDiv_touches {s : State} {a : Int} {b : Nat} :
    Touches [.free] s (State.openDiv s a b).2 := by
  unfold State.openDiv
  repeat' first
    | with_reducible assumption
    | with_reducible exact Touches.refl _ _
    | with_reducible apply Touches.ite
    | with_reducible apply Touches.ite2
    | with_reducible apply Touches.via drawn_touches

theorem mergeInto_touches {s : State} {e : BelEntry} :
    Touches [.regs, .mem] s (State.mergeInto s e) := by
  unfold State.mergeInto
  repeat' first
    | with_reducible assumption
    | with_reducible exact Touches.refl _ _
    | (extract_lets +onlyGivenNames x; refine Touches.cut (l := [.regs, .mem]) (s := s) (t := x) ?_ (fun hx => ?_); (on_goal 1 => (unfold x; clear x)); (on_goal 2 => clear_value x))
    | (extract_lets +onlyGivenNames x; (have hv : x = x := by unfold x; exact Eq.refl _); clear hv; clear_value x)
    | with_reducible apply Touches.via wr64_touches
    | with_reducible apply Touches.via bump_touches

theorem newRecord_touches {s : State} {e : BelEntry} {staged : Bool} :
    Touches [.regs, .mem, .hlt] s (State.newRecord s e staged) := by
  unfold State.newRecord
  repeat' first
    | with_reducible assumption
    | with_reducible exact Touches.refl _ _
    | (extract_lets +onlyGivenNames x; refine Touches.cut (l := [.regs, .mem, .hlt]) (s := s) (t := x) ?_ (fun hx => ?_); (on_goal 1 => (unfold x; clear x)); (on_goal 2 => clear_value x))
    | (extract_lets +onlyGivenNames x; (have hv : x = x := by unfold x; exact Eq.refl _); clear hv; clear_value x)
    | with_reducible apply Touches.ite
    | with_reducible apply Touches.via wrWords_touches
    | with_reducible apply Touches.via setF_touches
    | with_reducible apply Touches.via setB_touches
    | with_reducible apply Touches.via bump_touches
    | (dsimp only [Touches.mk_eq]; dsimp only [TouchesD]; with_reducible apply Touches.set_hlt (x := _))

theorem writeEntry_touches {s : State} {e : BelEntry} {staged : Bool} :
    Touches [.regs, .mem, .hlt] s (State.writeEntry s e staged) := by
  unfold State.writeEntry
  repeat' first
    | with_reducible assumption
    | with_reducible exact Touches.refl _ _
    | with_reducible apply Touches.ite
    | with_reducible apply Touches.via mergeInto_touches
    | with_reducible apply Touches.via newRecord_touches

theorem stageEntry_touches {s : State} {e : BelEntry} :
    Touches [.regs, .keep] s (State.stageEntry s e) := by
  unfold State.stageEntry
  repeat' first
    | with_reducible assumption
    | with_reducible exact Touches.refl _ _
    | (extract_lets +onlyGivenNames x; (have hv : x = x := by unfold x; exact Eq.refl _); clear hv; clear_value x)
    | with_reducible apply Touches.ite
    | with_reducible apply Touches.via bump_touches
    | (dsimp only [Touches.mk_eq]; dsimp only [TouchesD]; with_reducible apply Touches.set_keep (x := _))

theorem flushStaged_touches {s : State} :
    Touches [.regs, .mem, .keep, .hlt] s (State.flushStaged s) := by
  unfold State.flushStaged
  repeat' first
    | with_reducible assumption
    | with_reducible exact Touches.refl _ _
    | (extract_lets +onlyGivenNames x; refine Touches.cut (l := [.regs, .mem, .keep, .hlt]) (s := s) (t := x) ?_ (fun hx => ?_); (on_goal 1 => (unfold x; clear x)); (on_goal 2 => clear_value x))
    | (extract_lets +onlyGivenNames x; (have hv : x = x := by unfold x; exact Eq.refl _); clear hv; clear_value x)
    | with_reducible apply Touches.ite
    | with_reducible apply Touches.via writeEntry_touches
    | with_reducible apply Touches.foldl
    | with_reducible apply Touches.foldl2
    | (intro _; intros; try beta_reduce)
    | (dsimp only [Touches.mk_eq]; dsimp only [TouchesD]; with_reducible apply Touches.set_keep (x := _))

theorem belfry_touches {s : State} {kind code source : Nat} {payload : List Nat} :
    Touches [.regs, .mem, .keep, .hlt] s (State.belfry s kind code source payload) := by
  unfold State.belfry
  repeat' first
    | with_reducible assumption
    | with_reducible exact Touches.refl _ _
    | (extract_lets +onlyGivenNames x; (have hv : x = x := by unfold x; exact Eq.refl _); clear hv; clear_value x)
    | with_reducible apply Touches.ite
    | with_reducible apply Touches.via stageEntry_touches
    | with_reducible apply Touches.via writeEntry_touches

theorem setPubEnt_touches {s : State} {i : Nat} {ws : List Nat} :
    Touches [.pub] s (State.setPubEnt s i ws) := by
  unfold State.setPubEnt
  repeat' first
    | with_reducible assumption
    | with_reducible exact Touches.refl _ _
    | (dsimp only [Touches.mk_eq]; dsimp only [TouchesD]; with_reducible apply Touches.set_pub (x := _))

theorem stateEvent_touches {s : State} {n st cause : Nat} :
    Touches [.regs, .mem, .slt] s (State.stateEvent s n st cause) := by
  unfold State.stateEvent
  repeat' first
    | with_reducible assumption
    | with_reducible exact Touches.refl _ _
    | with_reducible apply Touches.via event_touches

theorem setI1_touches {s : State} {i : Nat} {b : Bool} :
    Touches [.slp] s (State.setI1 s i b) := by
  unfold State.setI1
  repeat' first
    | with_reducible assumption
    | with_reducible exact Touches.refl _ _
    | (dsimp only [Touches.mk_eq]; dsimp only [TouchesD]; with_reducible apply Touches.set_slp (x := _))

theorem statusBit_touches {s : State} {n : Nat} {b : Bool} :
    Touches [.slp] s (State.statusBit s n b) := by
  unfold State.statusBit
  repeat' first
    | with_reducible assumption
    | with_reducible exact Touches.refl _ _
    | with_reducible apply Touches.ite
    | with_reducible apply Touches.via setI1_touches

theorem fConfirm_touches {s : State} :
    Touches [.slp] s (State.fConfirm s) := by
  unfold State.fConfirm
  repeat' first
    | with_reducible assumption
    | with_reducible exact Touches.refl _ _
    | (extract_lets +onlyGivenNames x; (have hv : x = x := by unfold x; exact Eq.refl _); clear hv; clear_value x)
    | with_reducible apply Touches.foldl
    | with_reducible apply Touches.foldl2
    | (intro _)
    | (dsimp only [Touches.mk_eq]; dsimp only [TouchesD]; with_reducible apply Touches.set_slp (x := _))

theorem fPut_touches {s : State} {p : FWrite} :
    Touches [.slp] s (State.fPut s p) := by
  unfold State.fPut
  repeat' first
    | with_reducible assumption
    | with_reducible exact Touches.refl _ _
    | with_reducible apply Touches.via fConfirm_touches
    | (intro _)
    | (dsimp only [Touches.mk_eq]; dsimp only [TouchesD]; with_reducible apply Touches.set_slp (x := _))

theorem fClear_touches {s : State} {n : Nat} {t : Option FStart} :
    Touches [.slp] s (State.fClear s n t) := by
  unfold State.fClear
  repeat' first
    | with_reducible assumption
    | with_reducible exact Touches.refl _ _
    | (extract_lets +onlyGivenNames x; (have hv : x = x := by unfold x; exact Eq.refl _); clear hv; clear_value x)
    | with_reducible apply Touches.via fPut_touches
    | with_reducible apply Touches.forN
    | (intro _; intros; try beta_reduce)

theorem ringPubs_touches {s : State} {n : Nat} {en : Bool} :
    Touches [.pub] s (State.ringPubs s n en) := by
  unfold State.ringPubs
  repeat' first
    | with_reducible assumption
    | with_reducible exact Touches.refl _ _
    | (extract_lets +onlyGivenNames x; refine Touches.cut (l := [.pub]) (s := s) (t := x) ?_ (fun hx => ?_); (on_goal 1 => (unfold x; clear x)); (on_goal 2 => clear_value x))
    | (extract_lets +onlyGivenNames x; (have hv : x = x := by unfold x; exact Eq.refl _); clear hv; clear_value x)
    | with_reducible apply Touches.ite
    | with_reducible apply Touches.via setPubEnt_touches
    | with_reducible apply Touches.foldl
    | with_reducible apply Touches.foldl2
    | (intro _; intros; try beta_reduce)
    | (dsimp only [Touches.mk_eq]; dsimp only [TouchesD]; with_reducible apply Touches.set_pub (x := _))

theorem ringsTo_touches {s : State} {n st : Nat} :
    Touches [.slt] s (State.ringsTo s n st) := by
  unfold State.ringsTo
  repeat' first
    | with_reducible assumption
    | with_reducible exact Touches.refl _ _
    | (extract_lets +onlyGivenNames x; refine Touches.cut (l := [.slt]) (s := s) (t := x) ?_ (fun hx => ?_); (on_goal 1 => (unfold x; clear x)); (on_goal 2 => clear_value x))
    | with_reducible apply Touches.ite
    | with_reducible apply Touches.via modRing_touches
    | with_reducible apply Touches.via modSlice_touches
    | with_reducible apply Touches.foldl
    | with_reducible apply Touches.foldl2
    | (intro _; intros; try beta_reduce)

theorem sliceToFaulted_touches {s : State} {n cause : Nat} :
    Touches [.regs, .mem, .slp, .pub, .slt] s (State.sliceToFaulted s n cause) := by
  unfold State.sliceToFaulted
  repeat' first
    | with_reducible assumption
    | with_reducible exact Touches.refl _ _
    | (extract_lets +onlyGivenNames x; refine Touches.cut (l := [.regs, .mem, .slp, .pub, .slt]) (s := s) (t := x) ?_ (fun hx => ?_); (on_goal 1 => (unfold x; clear x)); (on_goal 2 => clear_value x))
    | with_reducible apply Touches.ite
    | with_reducible apply Touches.via ringsTo_touches
    | with_reducible apply Touches.via fClear_touches
    | with_reducible apply Touches.via statusBit_touches
    | with_reducible apply Touches.via stateEvent_touches
    | with_reducible apply Touches.via ringPubs_touches
    | with_reducible apply Touches.via modSlice_touches

theorem sliceError_touches {s : State} {n : Nat} :
    Touches [.regs, .mem, .slp, .pub, .slt] s (State.sliceError s n) := by
  unfold State.sliceError
  repeat' first
    | with_reducible assumption
    | with_reducible exact Touches.refl _ _
    | (extract_lets +onlyGivenNames x; refine Touches.cut (l := [.regs, .mem, .slp, .pub, .slt]) (s := s) (t := x) ?_ (fun hx => ?_); (on_goal 1 => (unfold x; clear x)); (on_goal 2 => clear_value x))
    | (extract_lets +onlyGivenNames x; (have hv : x = x := by unfold x; exact Eq.refl _); clear hv; clear_value x)
    | with_reducible apply Touches.ite
    | with_reducible apply Touches.via modSlice_touches
    | with_reducible apply Touches.via sliceToFaulted_touches

theorem modMac_touches {s : State} {p : Nat} {f : Mac → Mac} :
    Touches [.mac] s (State.modMac s p f) := by
  unfold State.modMac
  repeat' first
    | with_reducible assumption
    | with_reducible exact Touches.refl _ _
    | (dsimp only [Touches.mk_eq]; dsimp only [TouchesD]; with_reducible apply Touches.set_mac (x := _))

theorem modPair_touches {s : State} {p : Nat} {f : Pair → Pair} :
    Touches [.pairs] s (State.modPair s p f) := by
  unfold State.modPair
  repeat' first
    | with_reducible assumption
    | with_reducible exact Touches.refl _ _
    | (dsimp only [Touches.mk_eq]; dsimp only [TouchesD]; with_reducible apply Touches.set_pairs (x := _))

theorem wvlCount_touches {s : State} {r : Nat} :
    Touches [.regs, .wvl] s (State.wvlCount s r).2 := by
  unfold State.wvlCount
  repeat' first
    | with_reducible assumption
    | with_reducible exact Touches.refl _ _
    | (extract_lets +onlyGivenNames x; refine Touches.cut (l := [.regs, .wvl]) (s := s) (t := x) ?_ (fun hx => ?_); (on_goal 1 => (unfold x; clear x)); (on_goal 2 => clear_value x))
    | (extract_lets +onlyGivenNames x; (have hv : x = x := by unfold x; exact Eq.refl _); clear hv; clear_value x)
    | with_reducible apply Touches.ite
    | with_reducible apply Touches.ite2
    | with_reducible apply Touches.via bump_touches
    | (dsimp only [Touches.mk_eq]; dsimp only [TouchesD]; with_reducible apply Touches.set_wvl (x := _))

theorem ringEnd_touches {s : State} {sl r : Nat} {e : RingEnd} :
    Touches [.regs, .mem, .slp, .pub, .slt] s (State.ringEnd s sl r e) := by
  unfold State.ringEnd
  repeat' first
    | with_reducible assumption
    | with_reducible exact Touches.refl _ _
    | (extract_lets +onlyGivenNames x; refine Touches.cut (l := [.regs, .mem, .slp, .pub, .slt]) (s := s) (t := x) ?_ (fun hx => ?_); (on_goal 1 => (unfold x; clear x)); (on_goal 2 => clear_value x))
    | (extract_lets +onlyGivenNames x; (have hv : x = x := by unfold x; exact Eq.refl _); clear hv; clear_value x)
    | with_reducible apply Touches.ite
    | with_reducible apply Touches.via wr64_touches
    | with_reducible apply Touches.via modSlice_touches
    | with_reducible apply Touches.via modRing_touches
    | with_reducible apply Touches.via advanceHead_touches
    | with_reducible apply Touches.via sliceError_touches
    | with_reducible apply Touches.forN
    | (intro _; intros; try beta_reduce)

theorem ringDrain_touches {s : State} {sl r n : Nat} :
    Touches [.regs, .mem, .slp, .pub, .slt] s (State.ringDrain s sl r n) := by
  induction n generalizing s with
  | zero => exact Touches.refl _ _
  | succ n ih =>
    unfold State.ringDrain
    split
    · exact Touches.refl _ _
    · exact .via ih (.via ringEnd_touches (.via modRing_touches (Touches.refl _ s)))

theorem txComplete_touches {s : State} {sl r gen first n status ts : Nat} {st : Option Nat} :
    Touches [.regs, .mem, .slp, .pub, .slt] s (State.txComplete s sl r gen first n status ts st) := by
  unfold State.txComplete
  repeat' first
    | with_reducible assumption
    | with_reducible exact Touches.refl _ _
    | with_reducible apply Touches.ite
    | with_reducible apply Touches.via modRing_touches
    | with_reducible apply Touches.via ringDrain_touches

theorem markCopies_touches {s : State} {src : TxSource} {ts : Nat} :
    Touches [.mac] s (State.markCopies s src ts) := by
  unfold State.markCopies
  repeat' first
    | with_reducible assumption
    | with_reducible exact Touches.refl _ _
    | (extract_lets +onlyGivenNames x; (have hv : x = x := by unfold x; exact Eq.refl _); clear hv; clear_value x)
    | with_reducible apply Touches.ite
    | apply kx
    | (intro _)
    | (dsimp only [Touches.mk_eq]; dsimp only [TouchesD]; with_reducible apply Touches.set_mac (x := _))

theorem txCopyEnd_touches {s : State} {f : TxFrame} {status ts : Nat} :
    Touches [.regs, .mem, .mac, .slp, .pub, .slt] s (State.txCopyEnd s f status ts) := by
  unfold State.txCopyEnd
  repeat' first
    | with_reducible assumption
    | with_reducible exact Touches.refl _ _
    | (extract_lets +onlyGivenNames x; (have hv : x = x := by unfold x; exact Eq.refl _); clear hv; clear_value x)
    | with_reducible apply Touches.ite
    | with_reducible apply Touches.via markCopies_touches
    | with_reducible apply Touches.via txComplete_touches
    | split

theorem txFail_touches {s : State} {f : TxFrame} {status : Nat} :
    Touches [.regs, .mem, .mac, .slp, .pub, .slt] s (State.txFail s f status) := by
  unfold State.txFail
  repeat' first
    | with_reducible refine Touches.via txCopyEnd_touches ?_
    | with_reducible exact Touches.refl _ _

theorem toClass_touches {s : State} {p : Nat} {f : TxFrame} :
    Touches [.mac] s (State.toClass s p f) := by
  unfold State.toClass
  repeat' first
    | with_reducible assumption
    | with_reducible exact Touches.refl _ _
    | (extract_lets +onlyGivenNames x; (have hv : x = x := by unfold x; exact Eq.refl _); clear hv; clear_value x)
    | with_reducible apply Touches.ite
    | with_reducible apply Touches.via modMac_touches

theorem txRelease_touches {s : State} {p : Nat} {f : TxFrame} :
    Touches [.regs, .mem, .mac, .wvl, .slp, .pub, .slt] s (State.txRelease s p f) := by
  unfold State.txRelease
  repeat' first
    | with_reducible assumption
    | with_reducible exact Touches.refl _ _
    | (extract_lets +onlyGivenNames x; refine Touches.cut2 (l := [.regs, .mem, .mac, .wvl, .slp, .pub, .slt]) (s := s) (x := x) ?_ (fun hx => ?_); (on_goal 1 => (unfold x; clear x)); (on_goal 2 => clear_value x))
    | with_reducible apply Touches.via toClass_touches
    | with_reducible apply Touches.via wvlCount_touches
    | with_reducible apply Touches.via txFail_touches
    | with_reducible apply Touches.via modMac_touches
    | (intro _)
    | split

theorem txSubmit_touches {s : State} {p : Nat} {f : TxFrame} :
    Touches [.regs, .mem, .mac, .wvl, .slp, .pub, .slt] s (State.txSubmit s p f) := by
  unfold State.txSubmit
  repeat' first
    | with_reducible assumption
    | with_reducible exact Touches.refl _ _
    | with_reducible apply Touches.ite
    | with_reducible apply Touches.via txRelease_touches
    | with_reducible apply Touches.via modMac_touches

theorem txPair_touches {s : State} {p : Nat} {f : TxFrame} :
    Touches [.regs, .mem, .mac, .pairs, .wvl, .slp, .pub, .slt] s (State.txPair s p f) := by
  unfold State.txPair
  repeat' first
    | with_reducible assumption
    | with_reducible exact Touches.refl _ _
    | (extract_lets +onlyGivenNames x; refine Touches.cut (l := [.regs, .mem, .mac, .pairs, .wvl, .slp, .pub, .slt]) (s := s) (t := x) ?_ (fun hx => ?_); (on_goal 1 => (unfold x; clear x)); (on_goal 2 => clear_value x))
    | (extract_lets +onlyGivenNames x; (have hv : x = x := by unfold x; exact Eq.refl _); clear hv; clear_value x)
    | with_reducible apply Touches.ite
    | with_reducible apply Touches.via txSubmit_touches
    | with_reducible apply Touches.via modPair_touches

theorem txPorts_touches {s : State} {ports : Nat} {f : TxFrame} :
    Touches [.regs, .mem, .mac, .pairs, .wvl, .slp, .pub, .slt] s (State.txPorts s ports f) := by
  unfold State.txPorts
  repeat' first
    | with_reducible assumption
    | with_reducible exact Touches.refl _ _
    | with_reducible apply Touches.via txPair_touches
    | with_reducible apply Touches.foldl
    | with_reducible apply Touches.foldl2
    | (intro _; intros; try beta_reduce)

theorem loadTime_touches {s : State} {n : Nat} :
    Touches [.sup, .keep, .tbu] s (State.loadTime s n) := by
  unfold State.loadTime
  repeat' first
    | with_reducible assumption
    | with_reducible exact Touches.refl _ _
    | (extract_lets +onlyGivenNames x; (have hv : x = x := by unfold x; exact Eq.refl _); clear hv; clear_value x)
    | with_reducible apply Touches.ite
    | (intro _)
    | (dsimp only [Touches.mk_eq]; dsimp only [TouchesD]; with_reducible apply Touches.set_sup_keep_tbu (x0 := _) (x1 := _) (x2 := _))

theorem modPub_touches {s : State} {p : Nat} {f : PubSt → PubSt} :
    Touches [.pub] s (State.modPub s p f) := by
  unfold State.modPub
  repeat' first
    | with_reducible assumption
    | with_reducible exact Touches.refl _ _
    | (dsimp only [Touches.mk_eq]; dsimp only [TouchesD]; with_reducible apply Touches.set_pub (x := _))

theorem pubBump_touches {s : State} {n : Nat} :
    Touches [.regs] s (State.pubBump s n) := by
  unfold State.pubBump
  repeat' first
    | with_reducible assumption
    | with_reducible exact Touches.refl _ _
    | with_reducible apply Touches.via bump_touches

theorem pubSend_touches {s : State} {p : Nat} {w : List Nat} {body : Body} {etype st sq : Nat} :
    Touches [.regs, .pub] s (State.pubSend s p w body etype st sq) := by
  unfold State.pubSend
  repeat' first
    | with_reducible assumption
    | with_reducible exact Touches.refl _ _
    | (extract_lets +onlyGivenNames x; refine Touches.cut (l := [.regs, .pub]) (s := s) (t := x) ?_ (fun hx => ?_); (on_goal 1 => (unfold x; clear x)); (on_goal 2 => clear_value x))
    | (extract_lets +onlyGivenNames x; (have hv : x = x := by unfold x; exact Eq.refl _); clear hv; clear_value x)
    | with_reducible apply Touches.ite
    | with_reducible apply Touches.via pubBump_touches
    | with_reducible apply Touches.via modPub_touches
    | (intro _)
    | (dsimp only [Touches.mk_eq]; dsimp only [TouchesD]; with_reducible apply Touches.set_pub (x := _))

theorem pubFlush_touches {s : State} :
    Touches [.regs, .mem, .mac, .pairs, .wvl, .slp, .pub, .slt] s (State.pubFlush s) := by
  unfold State.pubFlush
  repeat' first
    | with_reducible assumption
    | with_reducible exact Touches.refl _ _
    | (extract_lets +onlyGivenNames x; (have hv : x = x := by unfold x; exact Eq.refl _); clear hv; clear_value x)
    | with_reducible apply Touches.via txPorts_touches
    | with_reducible apply Touches.foldl
    | with_reducible apply Touches.foldl2
    | (intro _; intros; try beta_reduce)
    | (dsimp only [Touches.mk_eq]; dsimp only [TouchesD]; with_reducible apply Touches.set_pub (x := _))

theorem gooseSend_touches {s : State} {p : Nat} {w : List Nat} :
    Touches [.regs, .pub] s (State.gooseSend s p w) := by
  unfold State.gooseSend
  repeat' first
    | with_reducible assumption
    | with_reducible exact Touches.refl _ _
    | (extract_lets +onlyGivenNames x; (have hv : x = x := by unfold x; exact Eq.refl _); clear hv; clear_value x)
    | with_reducible apply Touches.via pubSend_touches
    | with_reducible apply Touches.via modPub_touches

theorem pubPut_touches {s : State} {p : Nat} {w : List Nat} {x : Nat × Nat × Nat} :
    Touches [.regs, .pub] s (State.pubPut s p w x) := by
  unfold State.pubPut
  repeat' first
    | with_reducible assumption
    | with_reducible exact Touches.refl _ _
    | with_reducible apply Touches.via modPub_touches
    | with_reducible apply Touches.via gooseSend_touches

theorem pubSilence_touches {s : State} :
    Touches [.mac, .pub] s (State.pubSilence s) := by
  unfold State.pubSilence
  repeat' first
    | with_reducible assumption
    | with_reducible exact Touches.refl _ _
    | (extract_lets +onlyGivenNames x; refine Touches.cut (l := [.mac, .pub]) (s := s) (t := x) ?_ (fun hx => ?_); (on_goal 1 => (unfold x; clear x)); (on_goal 2 => clear_value x))
    | (extract_lets +onlyGivenNames x; (have hv : x = x := by unfold x; exact Eq.refl _); clear hv; clear_value x)
    | with_reducible apply Touches.via modMac_touches
    | with_reducible apply Touches.forN
    | (intro _; intros; try beta_reduce)
    | (dsimp only [Touches.mk_eq]; dsimp only [TouchesD]; with_reducible apply Touches.set_pub (x := _))

theorem pubTakeover_touches {s : State} :
    Touches [.regs, .mem, .mac, .pairs, .wvl, .slp, .pub, .slt] s (State.pubTakeover s) := by
  unfold State.pubTakeover
  repeat' first
    | with_reducible assumption
    | with_reducible exact Touches.refl _ _
    | (extract_lets +onlyGivenNames x; refine Touches.cut (l := [.regs, .mem, .mac, .pairs, .wvl, .slp, .pub, .slt]) (s := s) (t := x) ?_ (fun hx => ?_); (on_goal 1 => (unfold x; clear x)); (on_goal 2 => clear_value x))
    | (extract_lets +onlyGivenNames x; (have hv : x = x := by unfold x; exact Eq.refl _); clear hv; clear_value x)
    | with_reducible apply Touches.ite
    | with_reducible apply Touches.via modPub_touches
    | with_reducible apply Touches.via pubFlush_touches
    | with_reducible apply Touches.via pubPut_touches
    | with_reducible apply Touches.foldl
    | with_reducible apply Touches.foldl2
    | (intro _; intros; try beta_reduce)

theorem mramWr_touches {s : State} {a v : Nat} :
    Touches [.mem, .hlt] s (State.mramWr s a v) := by
  unfold State.mramWr
  repeat' first
    | with_reducible assumption
    | with_reducible exact Touches.refl _ _
    | with_reducible apply Touches.via wr64_touches
    | (intro _)
    | (dsimp only [Touches.mk_eq]; dsimp only [TouchesD]; with_reducible apply Touches.set_hlt (x := _))

theorem dirTo_touches {s : State} {w : List Nat} {k st : Nat} :
    Touches [.mem, .hlt] s (State.dirTo s w k st) := by
  unfold State.dirTo
  repeat' first
    | with_reducible assumption
    | with_reducible exact Touches.refl _ _
    | (extract_lets +onlyGivenNames x; (have hv : x = x := by unfold x; exact Eq.refl _); clear hv; clear_value x)
    | with_reducible apply Touches.via mramWr_touches

theorem dirRecover_touches {s : State} {w : List Nat} {k : Nat} :
    Touches [.mem, .hlt] s (State.dirRecover s w k) := by
  unfold State.dirRecover
  repeat' first
    | with_reducible assumption
    | with_reducible exact Touches.refl _ _
    | (extract_lets +onlyGivenNames x; refine Touches.cut (l := [.mem, .hlt]) (s := s) (t := x) ?_ (fun hx => ?_); (on_goal 1 => (unfold x; clear x)); (on_goal 2 => clear_value x))
    | (extract_lets +onlyGivenNames x; (have hv : x = x := by unfold x; exact Eq.refl _); clear hv; clear_value x)
    | with_reducible apply Touches.via dirTo_touches
    | with_reducible apply Touches.via mramWr_touches
    | split

theorem dreRecover_touches {s : State} :
    Touches [.mem, .hlt] s (State.dreRecover s) := by
  unfold State.dreRecover
  repeat' first
    | with_reducible assumption
    | with_reducible exact Touches.refl _ _
    | with_reducible apply Touches.via dirRecover_touches
    | with_reducible apply Touches.foldl
    | with_reducible apply Touches.foldl2
    | with_reducible apply Touches.forN
    | (intro _; intros; try beta_reduce)

theorem prcBump_touches {s : State} {n : Nat} :
    Touches [.regs] s (State.prcBump s n) := by
  unfold State.prcBump
  repeat' first
    | with_reducible assumption
    | with_reducible exact Touches.refl _ _
    | with_reducible apply Touches.via bump_touches

theorem sendEdge_touches {s0 s : State} :
    Touches [.regs, .mem, .mac, .pairs, .wvl, .slp, .pub, .slt] s (State.sendEdge s0 s) := by
  unfold State.sendEdge
  repeat' first
    | with_reducible assumption
    | with_reducible exact Touches.refl _ _
    | with_reducible apply Touches.ite
    | with_reducible apply Touches.via pubSilence_touches
    | with_reducible apply Touches.via pubTakeover_touches

theorem renewLease_touches {s : State} :
    Touches [.regs, .prc] s (State.renewLease s) := by
  unfold State.renewLease
  repeat' first
    | with_reducible assumption
    | with_reducible exact Touches.refl _ _
    | with_reducible apply Touches.via setF_touches
    | (dsimp only [Touches.mk_eq]; dsimp only [TouchesD]; with_reducible apply Touches.set_prc (x := _))

theorem dropParts_touches {s : State} :
    Touches [.prc] s (State.dropParts s) := by
  unfold State.dropParts
  repeat' first
    | with_reducible assumption
    | with_reducible exact Touches.refl _ _
    | (dsimp only [Touches.mk_eq]; dsimp only [TouchesD]; with_reducible apply Touches.set_prc (x := _))

theorem setRole_touches {s : State} {r reason : Nat} :
    Touches [.regs, .pub, .prc] s (State.setRole s r reason) := by
  unfold State.setRole
  repeat' first
    | with_reducible assumption
    | with_reducible exact Touches.refl _ _
    | (extract_lets +onlyGivenNames x; refine Touches.cut (l := [.regs, .pub, .prc]) (s := s) (t := x) ?_ (fun hx => ?_); (on_goal 1 => (unfold x; clear x)); (on_goal 2 => clear_value x))
    | (extract_lets +onlyGivenNames x; (have hv : x = x := by unfold x; exact Eq.refl _); clear hv; clear_value x)
    | with_reducible apply Touches.ite
    | with_reducible apply Touches.via setF_touches
    | with_reducible apply Touches.via prcBump_touches
    | with_reducible apply Touches.via dropParts_touches
    | (intro _)
    | (dsimp only [Touches.mk_eq]; dsimp only [TouchesD]; with_reducible apply Touches.set_prc (x := _))
    | (dsimp only [Touches.mk_eq]; dsimp only [TouchesD]; with_reducible apply Touches.set_pub (x := _))

theorem takeSending_touches {s : State} {r : Nat} {gap : Bool} :
    Touches [.regs, .mem, .mac, .pairs, .wvl, .slp, .pub, .slt, .prc] s (State.takeSending s r gap) := by
  unfold State.takeSending
  repeat' first
    | with_reducible assumption
    | with_reducible exact Touches.refl _ _
    | (extract_lets +onlyGivenNames x; refine Touches.cut (l := [.regs, .mem, .mac, .pairs, .wvl, .slp, .pub, .slt, .prc]) (s := s) (t := x) ?_ (fun hx => ?_); (on_goal 1 => (unfold x; clear x)); (on_goal 2 => clear_value x))
    | (extract_lets +onlyGivenNames x; (have hv : x = x := by unfold x; exact Eq.refl _); clear hv; clear_value x)
    | with_reducible apply Touches.ite
    | with_reducible apply Touches.via setF_touches
    | with_reducible apply Touches.via renewLease_touches
    | with_reducible apply Touches.via sendEdge_touches
    | with_reducible apply Touches.via setRole_touches
    | (dsimp only [Touches.mk_eq]; dsimp only [TouchesD]; with_reducible apply Touches.set_prc (x := _))

theorem singleAlone_touches {s : State} :
    Touches [.regs, .mem, .mac, .pairs, .wvl, .slp, .pub, .slt, .prc] s (State.singleAlone s) := by
  unfold State.singleAlone
  repeat' first
    | with_reducible assumption
    | with_reducible exact Touches.refl _ _
    | with_reducible apply Touches.ite
    | with_reducible apply Touches.via takeSending_touches

theorem refreshReady_touches {s : State} :
    Touches [.regs, .mem, .mac, .pairs, .wvl, .slp, .pub, .slt, .prc, .tmc] s (State.refreshReady s) := by
  unfold State.refreshReady
  repeat' first
    | with_reducible assumption
    | with_reducible exact Touches.refl _ _
    | (extract_lets +onlyGivenNames x; (have hv : x = x := by unfold x; exact Eq.refl _); clear hv; clear_value x)
    | with_reducible apply Touches.via setF_touches
    | with_reducible apply Touches.via setB_touches
    | with_reducible apply Touches.via singleAlone_touches
    | (dsimp only [Touches.mk_eq]; dsimp only [TouchesD]; with_reducible apply Touches.set_tmc (x := _))

theorem evalReady_touches {s : State} :
    Touches [.regs, .mem, .mac, .pairs, .wvl, .slp, .pub, .slt, .prc, .tmc] s (State.evalReady s) := by
  unfold State.evalReady
  repeat' first
    | with_reducible assumption
    | with_reducible exact Touches.refl _ _
    | with_reducible apply Touches.via pubFlush_touches
    | with_reducible apply Touches.via refreshReady_touches

theorem showOuts_touches {s : State} :
    Touches [.regs] s (State.showOuts s) := by
  unfold State.showOuts
  repeat' first
    | with_reducible assumption
    | with_reducible exact Touches.refl _ _
    | (extract_lets +onlyGivenNames x; (have hv : x = x := by unfold x; exact Eq.refl _); clear hv; clear_value x)
    | with_reducible apply Touches.via setF_touches

theorem showPsc_touches {s : State} :
    Touches [.regs] s (State.showPsc s) := by
  unfold State.showPsc
  repeat' first
    | with_reducible assumption
    | with_reducible exact Touches.refl _ _
    | (extract_lets +onlyGivenNames x; refine Touches.cut (l := [.regs]) (s := s) (t := x) ?_ (fun hx => ?_); (on_goal 1 => (unfold x; clear x)); (on_goal 2 => clear_value x))
    | (extract_lets +onlyGivenNames x; (have hv : x = x := by unfold x; exact Eq.refl _); clear hv; clear_value x)
    | with_reducible apply Touches.via setF_touches
    | with_reducible apply Touches.via setB_touches
    | with_reducible apply Touches.via showOuts_touches
    | with_reducible apply Touches.forN
    | apply kx
    | (intro _; intros; try beta_reduce)

theorem islandStart_touches {s : State} :
    Touches [.regs, .psc] s (State.islandStart s) := by
  unfold State.islandStart
  repeat' first
    | with_reducible assumption
    | with_reducible exact Touches.refl _ _
    | (extract_lets +onlyGivenNames x; refine Touches.cut (l := [.regs, .psc]) (s := s) (t := x) ?_ (fun hx => ?_); (on_goal 1 => (unfold x; clear x)); (on_goal 2 => clear_value x))
    | with_reducible apply Touches.via clearFields_touches
    | with_reducible apply Touches.via setF_touches
    | with_reducible apply Touches.via showPsc_touches
    | (dsimp only [Touches.mk_eq]; dsimp only [TouchesD]; with_reducible apply Touches.set_psc (x := _))

theorem islandOff_touches {s : State} :
    Touches [.regs, .slp, .psc] s (State.islandOff s) := by
  unfold State.islandOff
  repeat' first
    | with_reducible assumption
    | with_reducible exact Touches.refl _ _
    | with_reducible apply Touches.via clearPage_touches
    | (dsimp only [Touches.mk_eq]; dsimp only [TouchesD]; with_reducible apply Touches.set_slp_psc (x0 := _) (x1 := _))

theorem debugPortClose_touches {s : State} :
    Touches [.regs, .sup] s (debugPortClose s) := by
  unfold debugPortClose
  repeat' first
    | with_reducible assumption
    | with_reducible exact Touches.refl _ _
    | with_reducible apply Touches.via setF_touches
    | (dsimp only [Touches.mk_eq]; dsimp only [TouchesD]; with_reducible apply Touches.set_sup (x := _))

theorem debugPins_touches {s : State} {en sel : Bool} :
    Touches [.regs, .sup] s (State.debugPins s en sel) := by
  unfold State.debugPins
  repeat' first
    | with_reducible assumption
    | with_reducible exact Touches.refl _ _
    | (extract_lets +onlyGivenNames x; refine Touches.cut (l := [.regs, .sup]) (s := s) (t := x) ?_ (fun hx => ?_); (on_goal 1 => (unfold x; clear x)); (on_goal 2 => clear_value x))
    | (extract_lets +onlyGivenNames x; (have hv : x = x := by unfold x; exact Eq.refl _); clear hv; clear_value x)
    | with_reducible apply Touches.ite
    | with_reducible apply Touches.via debugPortClose_touches
    | (dsimp only [Touches.mk_eq]; dsimp only [TouchesD]; with_reducible apply Touches.set_sup (x := _))

theorem modHlt_touches {s : State} {f : Health → Health} :
    Touches [.hlt] s (State.modHlt s f) := by
  unfold State.modHlt
  repeat' first
    | with_reducible assumption
    | with_reducible exact Touches.refl _ _
    | (dsimp only [Touches.mk_eq]; dsimp only [TouchesD]; with_reducible apply Touches.set_hlt (x := _))

theorem showFlash_touches {s : State} :
    Touches [.regs] s (State.showFlash s) := by
  unfold State.showFlash
  repeat' first
    | with_reducible assumption
    | with_reducible exact Touches.refl _ _
    | (extract_lets +onlyGivenNames x; refine Touches.cut (l := [.regs]) (s := s) (t := x) ?_ (fun hx => ?_); (on_goal 1 => (unfold x; clear x)); (on_goal 2 => clear_value x))
    | (extract_lets +onlyGivenNames x; (have hv : x = x := by unfold x; exact Eq.refl _); clear hv; clear_value x)
    | with_reducible apply Touches.via setF_touches
    | with_reducible apply Touches.via setB_touches

theorem pauseWork_touches {s : State} :
    Touches [.regs, .hlt] s (State.pauseWork s) := by
  unfold State.pauseWork
  repeat' first
    | with_reducible assumption
    | with_reducible exact Touches.refl _ _
    | (extract_lets +onlyGivenNames x; refine Touches.cut (l := [.regs, .hlt]) (s := s) (t := x) ?_ (fun hx => ?_); (on_goal 1 => (unfold x; clear x)); (on_goal 2 => clear_value x))
    | with_reducible apply Touches.ite
    | with_reducible apply Touches.via setF_touches
    | with_reducible apply Touches.via modHlt_touches

theorem modSup_touches {s : State} {f : Supply → Supply} :
    Touches [.sup] s (State.modSup s f) := by
  unfold State.modSup
  repeat' first
    | with_reducible assumption
    | with_reducible exact Touches.refl _ _
    | (dsimp only [Touches.mk_eq]; dsimp only [TouchesD]; with_reducible apply Touches.set_sup (x := _))

theorem vioMeasured_touches {s : State} {mv : Nat} :
    Touches [.sup] s (State.vioMeasured s mv) := by
  unfold State.vioMeasured
  repeat' first
    | with_reducible assumption
    | with_reducible exact Touches.refl _ _
    | (extract_lets +onlyGivenNames x; (have hv : x = x := by unfold x; exact Eq.refl _); clear hv; clear_value x)
    | with_reducible apply Touches.ite
    | with_reducible apply Touches.via modSup_touches

theorem drivePins_touches {s : State} :
    Touches [.sup] s (State.drivePins s) := by
  unfold State.drivePins
  repeat' first
    | with_reducible assumption
    | with_reducible exact Touches.refl _ _
    | with_reducible apply Touches.via modSup_touches

theorem sampleStraps_touches {s : State} :
    Touches [.sup] s (State.sampleStraps s) := by
  unfold State.sampleStraps
  repeat' first
    | with_reducible assumption
    | with_reducible exact Touches.refl _ _
    | with_reducible apply Touches.via modSup_touches

theorem vbusAt_touches {s : State} {mv : Nat} :
    Touches [.sup] s (State.vbusAt s mv) := by
  unfold State.vbusAt
  repeat' first
    | with_reducible assumption
    | with_reducible exact Touches.refl _ _
    | (extract_lets +onlyGivenNames x; refine Touches.cut (l := [.sup]) (s := s) (t := x) ?_ (fun hx => ?_); (on_goal 1 => (unfold x; clear x)); (on_goal 2 => clear_value x))
    | with_reducible apply Touches.ite
    | with_reducible apply Touches.via modSup_touches
    | with_reducible apply Touches.via sampleStraps_touches

theorem measured_touches {s : State} {x : SupplySample} :
    Touches [.regs, .sup] s (State.measured s x) := by
  unfold State.measured
  repeat' first
    | with_reducible assumption
    | with_reducible exact Touches.refl _ _
    | with_reducible apply Touches.via modSup_touches
    | with_reducible apply Touches.via vbusAt_touches
    | with_reducible apply Touches.via vioMeasured_touches
    | with_reducible apply Touches.via debugPins_touches

theorem tenMv_touches {s : State} {w mv : Nat} :
    Touches [.free] s (State.tenMv s w mv).2 := by
  unfold State.tenMv
  repeat' first
    | with_reducible assumption
    | with_reducible exact Touches.refl _ _
    | (extract_lets +onlyGivenNames x; refine Touches.cut2 (l := [.free]) (s := s) (x := x) ?_ (fun hx => ?_); (on_goal 1 => (unfold x; clear x)); (on_goal 2 => clear_value x))
    | with_reducible apply Touches.via openDiv_touches

theorem showSupply_touches {s : State} :
    Touches [.regs, .free] s (State.showSupply s) := by
  unfold State.showSupply
  repeat' first
    | with_reducible assumption
    | with_reducible exact Touches.refl _ _
    | (extract_lets +onlyGivenNames x; refine Touches.cut (l := [.regs, .free]) (s := s) (t := x) ?_ (fun hx => ?_); (on_goal 1 => (unfold x; clear x)); (on_goal 2 => clear_value x))
    | (extract_lets +onlyGivenNames x; refine Touches.cut2 (l := [.regs, .free]) (s := s) (x := x) ?_ (fun hx => ?_); (on_goal 1 => (unfold x; clear x)); (on_goal 2 => clear_value x))
    | (extract_lets +onlyGivenNames x; (have hv : x = x := by unfold x; exact Eq.refl _); clear hv; clear_value x)
    | with_reducible apply Touches.ite
    | with_reducible apply Touches.via tenMv_touches
    | with_reducible apply Touches.via setB_touches
    | with_reducible apply Touches.via setF_touches

theorem pwrokRise_touches {s : State} :
    Touches [.regs, .sup] s (State.pwrokRise s) := by
  unfold State.pwrokRise
  repeat' first
    | with_reducible assumption
    | with_reducible exact Touches.refl _ _
    | with_reducible apply Touches.via modSup_touches
    | with_reducible apply Touches.via bump_touches

theorem enterPrepare_touches {s : State} :
    Touches [.regs, .mem, .sup, .keep, .hlt] s (State.enterPrepare s) := by
  unfold State.enterPrepare
  repeat' first
    | with_reducible assumption
    | with_reducible exact Touches.refl _ _
    | (extract_lets +onlyGivenNames x; refine Touches.cut (l := [.regs, .mem, .sup, .keep, .hlt]) (s := s) (t := x) ?_ (fun hx => ?_); (on_goal 1 => (unfold x; clear x)); (on_goal 2 => clear_value x))
    | (extract_lets +onlyGivenNames x; (have hv : x = x := by unfold x; exact Eq.refl _); clear hv; clear_value x)
    | with_reducible apply Touches.ite
    | with_reducible apply Touches.via setF_touches
    | with_reducible apply Touches.via pauseWork_touches
    | with_reducible apply Touches.via modSup_touches
    | with_reducible apply Touches.via flushStaged_touches
    | with_reducible apply Touches.via belfry_touches
    | with_reducible apply Touches.via showFlash_touches
    | with_reducible apply Touches.via setB_touches
    | with_reducible apply Touches.via dreRecover_touches
    | (intro _)
    | (dsimp only [Touches.mk_eq]; dsimp only [TouchesD]; with_reducible apply Touches.set_keep (x := _))

theorem tryEndReset_touches {s : State} :
    Touches [.regs, .mem, .sup, .keep, .hlt] s (State.tryEndReset s) := by
  unfold State.tryEndReset
  repeat' first
    | with_reducible assumption
    | with_reducible exact Touches.refl _ _
    | (extract_lets +onlyGivenNames x; refine Touches.cut (l := [.regs, .mem, .sup, .keep, .hlt]) (s := s) (t := x) ?_ (fun hx => ?_); (on_goal 1 => (unfold x; clear x)); (on_goal 2 => clear_value x))
    | with_reducible apply Touches.ite
    | with_reducible apply Touches.via sampleStraps_touches
    | with_reducible apply Touches.via modSup_touches
    | with_reducible apply Touches.via enterPrepare_touches
    | with_reducible apply Touches.via drivePins_touches

theorem supplyStatusUpdate_touches {x : SupplySample} {s : State} :
    Touches [.regs, .mem, .sup, .keep, .mac, .pairs, .wvl, .slp, .pub, .slt, .prc, .tmc, .hlt, .free] s (supplyStatusUpdate x s) := by
  unfold supplyStatusUpdate
  repeat' first
    | with_reducible assumption
    | with_reducible exact Touches.refl _ _
    | with_reducible apply Touches.via measured_touches
    | with_reducible apply Touches.via evalReady_touches
    | with_reducible apply Touches.via tryEndReset_touches
    | with_reducible apply Touches.via showSupply_touches
    | with_reducible apply Touches.via drivePins_touches

theorem powerUp_touches {feedA : Bool} {x : SupplySample} {s : State} :
    Touches [.regs, .sup, .keep, .tbu, .psc, .free] s (powerUp feedA x s) := by
  unfold powerUp
  repeat' first
    | with_reducible assumption
    | with_reducible exact Touches.refl _ _
    | (extract_lets +onlyGivenNames x; refine Touches.cut (l := [.regs, .sup, .keep, .tbu, .psc, .free]) (s := s) (t := x) ?_ (fun hx => ?_); (on_goal 1 => (unfold x; clear x)); (on_goal 2 => clear_value x))
    | with_reducible apply Touches.ite
    | with_reducible apply Touches.via measured_touches
    | with_reducible apply Touches.via loadTime_touches
    | with_reducible apply Touches.via setF_touches
    | with_reducible apply Touches.via islandStart_touches
    | with_reducible apply Touches.via sampleStraps_touches
    | with_reducible apply Touches.via drawn_touches
    | with_reducible apply Touches.via modSup_touches

theorem railInRegulation_touches {r : Rail} {s : State} :
    Touches [.regs, .mem, .sup, .keep, .hlt] s (railInRegulation r s) := by
  unfold railInRegulation
  repeat' first
    | with_reducible assumption
    | with_reducible exact Touches.refl _ _
    | (extract_lets +onlyGivenNames x; refine Touches.cut (l := [.regs, .mem, .sup, .keep, .hlt]) (s := s) (t := x) ?_ (fun hx => ?_); (on_goal 1 => (unfold x; clear x)); (on_goal 2 => clear_value x))
    | (extract_lets +onlyGivenNames x; (have hv : x = x := by unfold x; exact Eq.refl _); clear hv; clear_value x)
    | with_reducible apply Touches.ite
    | with_reducible apply Touches.via modSup_touches
    | with_reducible apply Touches.via pwrokRise_touches
    | with_reducible apply Touches.via tryEndReset_touches

theorem railTakedown_touches {s : State} :
    Touches [.regs, .sup, .tbu, .slp, .psc] s (railTakedown s) := by
  unfold railTakedown
  repeat' first
    | with_reducible assumption
    | with_reducible exact Touches.refl _ _
    | (extract_lets +onlyGivenNames x; refine Touches.cut (l := [.regs, .sup, .tbu, .slp, .psc]) (s := s) (t := x) ?_ (fun hx => ?_); (on_goal 1 => (unfold x; clear x)); (on_goal 2 => clear_value x))
    | with_reducible apply Touches.ite
    | with_reducible apply Touches.via advanceTo_touches
    | with_reducible apply Touches.via modSup_touches
    | with_reducible apply Touches.via islandOff_touches
    | (intro _)
    | split

end Sys2Proof.Machine
end

section
/-! The frame of the operations of resets, faults and ride-through: which parts of the state each one writes. -/
namespace Sys2Proof.Machine

-- one proof after the other: started together they wait on each other's results, each in a thread of its own
set_option Elab.async false

theorem Touches.set_keep_tbu {l : List StatePart} {s t : State} (h : Touches l s t) (x0 : Keep) (x1 : Tbu) (h0 : StatePart.keep ∈ l := by simp) (h1 : StatePart.tbu ∈ l := by simp) :
    Touches l s { t with keep := x0, tbu := x1 } := by
  constructor
  intro q hq
  cases q
  case keep => exact absurd h0 hq
  case tbu => exact absurd h1 hq
  all_goals exact h.same _ hq

theorem Touches.set_regs_mem_bus_qbc_mac_pairs_wvl_ing_lat_phe_gcm_slp_pub_dre_slt_prc_tmc_hlt_cmds {l : List StatePart} {s t : State} (h : Touches l s t) (x0 : Tbl Nat) (x1 : List Host.Cell) (x2 : BusResp) (x3 : Qbc) (x4 : Tbl Mac) (x5 : Tbl Pair) (x6 : Wvl) (x7 : Ingress) (x8 : Tbl Lattice) (x9 : Phe) (x10 : Gcm) (x11 : Slp) (x12 : Pub) (x13 : Dre) (x14 : Slt) (x15 : Prc) (x16 : Tmc) (x17 : Health) (x18 : Tbl CmdOut) (h0 : StatePart.regs ∈ l := by simp) (h1 : StatePart.mem ∈ l := by simp) (h2 : StatePart.bus ∈ l := by simp) (h3 : StatePart.qbc ∈ l := by simp) (h4 : StatePart.mac ∈ l := by simp) (h5 : StatePart.pairs ∈ l := by simp) (h6 : StatePart.wvl ∈ l := by simp) (h7 : StatePart.ing ∈ l := by simp) (h8 : StatePart.lat ∈ l := by simp) (h9 : StatePart.phe ∈ l := by simp) (h10 : StatePart.gcm ∈ l := by simp) (h11 : StatePart.slp ∈ l := by simp) (h12 : StatePart.pub ∈ l := by simp) (h13 : StatePart.dre ∈ l := by simp) (h14 : StatePart.slt ∈ l := by simp) (h15 : StatePart.prc ∈ l := by simp) (h16 : StatePart.tmc ∈ l := by simp) (h17 : StatePart.hlt ∈ l := by simp) (h18 : StatePart.cmds ∈ l := by simp) :
    Touches l s { t with regs := x0, mem := x1, bus := x2, qbc := x3, mac := x4, pairs := x5, wvl := x6, ing := x7, lat := x8, phe := x9, gcm := x10, slp := x11, pub := x12, dre := x13, slt := x14, prc := x15, tmc := x16, hlt := x17, cmds := x18 } := by
  constructor
  intro q hq
  cases q
  case regs => exact absurd h0 hq
  case mem => exact absurd h1 hq
  case bus => exact absurd h2 hq
  case qbc => exact absurd h3 hq
  case mac => exact absurd h4 hq
  case pairs => exact absurd h5 hq
  case wvl => exact absurd h6 hq
  case ing => exact absurd h7 hq
  case lat => exact absurd h8 hq
  case phe => exact absurd h9 hq
  case gcm => exact absurd h10 hq
  case slp => exact absurd h11 hq
  case pub => exact absurd h12 hq
  case dre => exact absurd h13 hq
  case slt => exact absurd h14 hq
  case prc => exact absurd h15 hq
  case tmc => exact absurd h16 hq
  case hlt => exact absurd h17 hq
  case cmds => exact absurd h18 hq
  all_goals exact h.same _ hq

theorem extendMs_touches {s : State} {i d : Nat} :
    Touches [.dom] s (State.extendMs s i d) := by
  unfold State.extendMs
  repeat' first
    | with_reducible assumption
    | with_reducible exact Touches.refl _ _
    | (dsimp only [Touches.mk_eq]; dsimp only [TouchesD]; with_reducible apply Touches.set_dom (x := _))

theorem macBump_touches {s : State} {p n : Nat} :
    Touches [.regs] s (State.macBump s p n) := by
  unfold State.macBump
  repeat' first
    | with_reducible assumption
    | with_reducible exact Touches.refl _ _
    | with_reducible apply Touches.via bump_touches

theorem pauseRise_touches {s : State} {p : Nat} :
    Touches [.regs, .mac] s (State.pauseRise s p) := by
  unfold State.pauseRise
  repeat' first
    | with_reducible assumption
    | with_reducible exact Touches.refl _ _
    | with_reducible apply Touches.ite
    | with_reducible apply Touches.via modMac_touches
    | with_reducible apply Touches.via setF_touches
    | (intro _)
    | split

theorem txAbort_touches {s : State} {p : Nat} :
    Touches [.regs, .mem, .mac, .slp, .pub, .slt] s (State.txAbort s p) := by
  unfold State.txAbort
  repeat' first
    | with_reducible assumption
    | with_reducible exact Touches.refl _ _
    | with_reducible apply Touches.via modMac_touches
    | with_reducible apply Touches.via macBump_touches
    | with_reducible apply Touches.via txFail_touches
    | with_reducible apply Touches.via pauseRise_touches
    | (intro _)
    | split

theorem stopMacs_touches {s : State} :
    Touches [.regs, .mem, .mac, .slp, .pub, .slt] s (State.stopMacs s) := by
  unfold State.stopMacs
  repeat' first
    | with_reducible assumption
    | with_reducible exact Touches.refl _ _
    | with_reducible apply Touches.via txAbort_touches
    | with_reducible apply Touches.via modMac_touches
    | with_reducible apply Touches.forN
    | (intro _; intros; try beta_reduce)

theorem setRate_touches {s : State} {v : Int} :
    Touches [.regs, .tbu] s (State.setRate s v) := by
  unfold State.setRate
  repeat' first
    | with_reducible assumption
    | with_reducible exact Touches.refl _ _
    | (dsimp only [Touches.mk_eq]; dsimp only [TouchesD]; with_reducible apply Touches.set_tbu (x := _))
    | with_reducible apply Touches.via setI_touches

theorem tdcView_touches {s : State} :
    Touches [.regs] s (State.tdcView s) := by
  unfold State.tdcView
  repeat' first
    | with_reducible assumption
    | with_reducible exact Touches.refl _ _
    | (extract_lets +onlyGivenNames x; (have hv : x = x := by unfold x; exact Eq.refl _); clear hv; clear_value x)
    | with_reducible apply Touches.via setF_touches
    | with_reducible apply Touches.via setB_touches

theorem tdcDiscard_touches {s : State} :
    Touches [.tbu] s (State.tdcDiscard s) := by
  unfold State.tdcDiscard
  repeat' first
    | with_reducible assumption
    | with_reducible exact Touches.refl _ _
    | (dsimp only [Touches.mk_eq]; dsimp only [TouchesD]; with_reducible apply Touches.set_tbu (x := _))

theorem tdcResume_touches {s : State} :
    Touches [.tbu] s (State.tdcResume s) := by
  unfold State.tdcResume
  repeat' first
    | with_reducible assumption
    | with_reducible exact Touches.refl _ _
    | (dsimp only [Touches.mk_eq]; dsimp only [TouchesD]; with_reducible apply Touches.set_tbu (x := _))

theorem holdCount_touches {s : State} :
    Touches [.tbu] s (State.holdCount s) := by
  unfold State.holdCount
  repeat' first
    | with_reducible assumption
    | with_reducible exact Touches.refl _ _
    | (dsimp only [Touches.mk_eq]; dsimp only [TouchesD]; with_reducible apply Touches.set_tbu (x := _))
    | (extract_lets +onlyGivenNames x; (have hv : x = x := by unfold x; exact Eq.refl _); clear hv; clear_value x)
    | with_reducible apply Touches.ite
    | split

theorem tbuFollow_touches {s : State} :
    Touches [.regs, .sup, .tbu] s (State.tbuFollow s) := by
  unfold State.tbuFollow
  repeat' first
    | with_reducible assumption
    | with_reducible exact Touches.refl _ _
    | (dsimp only [Touches.mk_eq]; dsimp only [TouchesD]; with_reducible apply Touches.set_sup (x := _))
    | (extract_lets +onlyGivenNames x; refine Touches.cut (l := [.regs, .sup, .tbu]) (s := s) (t := x) ?_ (fun hx => ?_); (on_goal 1 => (unfold x; clear x)); (on_goal 2 => clear_value x))
    | (extract_lets +onlyGivenNames x; (have hv : x = x := by unfold x; exact Eq.refl _); clear hv; clear_value x)
    | with_reducible apply Touches.ite
    | with_reducible apply Touches.via setRate_touches
    | with_reducible apply Touches.via tdcView_touches
    | with_reducible apply Touches.via holdCount_touches

theorem pubMuted_touches {s : State} {w : List Nat} :
    Touches [.regs] s (State.pubMuted s w) := by
  unfold State.pubMuted
  repeat' first
    | with_reducible assumption
    | with_reducible exact Touches.refl _ _
    | (extract_lets +onlyGivenNames x; refine Touches.cut (l := [.regs]) (s := s) (t := x) ?_ (fun hx => ?_); (on_goal 1 => (unfold x; clear x)); (on_goal 2 => clear_value x))
    | with_reducible apply Touches.ite
    | with_reducible apply Touches.via pubBump_touches

theorem pubNumber_touches {s : State} {p : Nat} {w : List Nat} :
    Touches [.regs, .pub] s (State.pubNumber s p w) := by
  unfold State.pubNumber
  repeat' first
    | with_reducible assumption
    | with_reducible exact Touches.refl _ _
    | (extract_lets +onlyGivenNames x; (have hv : x = x := by unfold x; exact Eq.refl _); clear hv; clear_value x)
    | with_reducible apply Touches.ite
    | with_reducible apply Touches.via modPub_touches
    | with_reducible apply Touches.via pubPut_touches

theorem pubRelease_touches {s : State} {p : Nat} {w : List Nat} {content : List Bool} {stamp : Time} :
    Touches [.regs, .pub] s (State.pubRelease s p w content stamp).2 := by
  unfold State.pubRelease
  repeat' first
    | with_reducible assumption
    | with_reducible exact Touches.refl _ _
    | (extract_lets +onlyGivenNames x; refine Touches.cut (l := [.regs, .pub]) (s := s) (t := x) ?_ (fun hx => ?_); (on_goal 1 => (unfold x; clear x)); (on_goal 2 => clear_value x))
    | (extract_lets +onlyGivenNames x; (have hv : x = x := by unfold x; exact Eq.refl _); clear hv; clear_value x)
    | with_reducible apply Touches.ite
    | with_reducible apply Touches.ite2
    | with_reducible apply Touches.via pubBump_touches
    | with_reducible apply Touches.via pubMuted_touches
    | with_reducible apply Touches.via pubNumber_touches
    | with_reducible apply Touches.via modPub_touches

theorem pubForced_touches {s0 s : State} :
    Touches [.regs, .pub] s (State.pubForced s0 s) := by
  unfold State.pubForced
  repeat' first
    | with_reducible assumption
    | with_reducible exact Touches.refl _ _
    | with_reducible apply Touches.ite
    | with_reducible apply Touches.via pubRelease_touches
    | with_reducible apply Touches.foldl
    | with_reducible apply Touches.foldl2
    | (intro _; intros; try beta_reduce)

theorem modSess_touches {s : State} {n : Nat} {f : Session → Session} :
    Touches [.tmc] s (State.modSess s n f) := by
  unfold State.modSess
  repeat' first
    | with_reducible assumption
    | with_reducible exact Touches.refl _ _
    | (dsimp only [Touches.mk_eq]; dsimp only [TouchesD]; with_reducible apply Touches.set_tmc (x := _))

theorem postReply_touches {s : State} {n : Nat} :
    Touches [.regs, .mem, .slt, .tmc] s (State.postReply s n) := by
  unfold State.postReply
  repeat' first
    | with_reducible assumption
    | with_reducible exact Touches.refl _ _
    | (extract_lets +onlyGivenNames x; refine Touches.cut (l := [.regs, .mem, .slt, .tmc]) (s := s) (t := x) ?_ (fun hx => ?_); (on_goal 1 => (unfold x; clear x)); (on_goal 2 => clear_value x))
    | (extract_lets +onlyGivenNames x; (have hv : x = x := by unfold x; exact Eq.refl _); clear hv; clear_value x)
    | with_reducible apply Touches.ite
    | with_reducible apply Touches.via setF_touches
    | with_reducible apply Touches.via modSess_touches
    | with_reducible apply Touches.via wrOctets_touches
    | with_reducible apply Touches.via event_touches
    | (intro _)
    | split

theorem putReplies_touches {s : State} {n : Nat} {f : List Reply → List Reply} :
    Touches [.regs, .mem, .slt, .tmc] s (State.putReplies s n f) := by
  unfold State.putReplies
  repeat' first
    | with_reducible assumption
    | with_reducible exact Touches.refl _ _
    | with_reducible apply Touches.ite
    | with_reducible apply Touches.via modSess_touches
    | with_reducible apply Touches.via postReply_touches

theorem answer_touches {s : State} {q : Req} {op flags status : Nat} {params : Octets} {final deliver : Bool} :
    Touches [.regs, .mem, .slt, .tmc] s (State.answer s q op flags status params final deliver) := by
  unfold State.answer
  repeat' first
    | with_reducible assumption
    | with_reducible exact Touches.refl _ _
    | (extract_lets +onlyGivenNames x; refine Touches.cut (l := [.regs, .mem, .slt, .tmc]) (s := s) (t := x) ?_ (fun hx => ?_); (on_goal 1 => (unfold x; clear x)); (on_goal 2 => clear_value x))
    | with_reducible apply Touches.ite
    | with_reducible apply Touches.via modSess_touches
    | with_reducible apply Touches.via putReplies_touches

theorem dropLease_touches {s : State} :
    Touches [.regs] s (State.dropLease s) := by
  unfold State.dropLease
  repeat' first
    | with_reducible assumption
    | with_reducible exact Touches.refl _ _
    | with_reducible apply Touches.ite
    | with_reducible apply Touches.via setF_touches
    | with_reducible apply Touches.via prcBump_touches

theorem switchReply_touches {s : State} {status : Nat} :
    Touches [.regs, .mem, .slt, .prc, .tmc] s (State.switchReply s status) := by
  unfold State.switchReply
  repeat' first
    | with_reducible assumption
    | with_reducible exact Touches.refl _ _
    | (dsimp only [Touches.mk_eq]; dsimp only [TouchesD]; with_reducible apply Touches.set_prc (x := _))
    | (extract_lets +onlyGivenNames x; refine Touches.cut (l := [.regs, .mem, .slt, .prc, .tmc]) (s := s) (t := x) ?_ (fun hx => ?_); (on_goal 1 => (unfold x; clear x)); (on_goal 2 => clear_value x))
    | (extract_lets +onlyGivenNames x; (have hv : x = x := by unfold x; exact Eq.refl _); clear hv; clear_value x)
    | with_reducible apply Touches.ite
    | with_reducible apply Touches.via answer_touches
    | split

theorem endSwitch_touches {s : State} {status : Nat} :
    Touches [.regs, .mem, .slt, .prc, .tmc] s (State.endSwitch s status) := by
  unfold State.endSwitch
  repeat' first
    | with_reducible assumption
    | with_reducible exact Touches.refl _ _
    | (dsimp only [Touches.mk_eq]; dsimp only [TouchesD]; with_reducible apply Touches.set_prc (x := _))
    | (extract_lets +onlyGivenNames x; refine Touches.cut (l := [.regs, .mem, .slt, .prc, .tmc]) (s := s) (t := x) ?_ (fun hx => ?_); (on_goal 1 => (unfold x; clear x)); (on_goal 2 => clear_value x))
    | (extract_lets +onlyGivenNames x; (have hv : x = x := by unfold x; exact Eq.refl _); clear hv; clear_value x)
    | with_reducible apply Touches.via setF_touches
    | with_reducible apply Touches.via switchReply_touches

theorem fence_touches {s : State} {reason : Nat} :
    Touches [.regs, .mem, .mac, .pairs, .wvl, .slp, .pub, .slt, .prc, .tmc] s (State.fence s reason) := by
  unfold State.fence
  repeat' first
    | with_reducible assumption
    | with_reducible exact Touches.refl _ _
    | with_reducible apply Touches.via sendEdge_touches
    | with_reducible apply Touches.via setF_touches
    | with_reducible apply Touches.via dropLease_touches
    | with_reducible apply Touches.via setRole_touches
    | with_reducible apply Touches.via endSwitch_touches

theorem wvlArm_touches {s : State} {on : Bool} :
    Touches [.regs, .mem, .keep, .dom, .hlt] s (State.wvlArm s on) := by
  unfold State.wvlArm
  repeat' first
    | with_reducible assumption
    | with_reducible exact Touches.refl _ _
    | with_reducible apply Touches.ite
    | with_reducible apply Touches.via setB_touches
    | with_reducible apply Touches.via belfry_touches
    | with_reducible apply Touches.via extendMs_touches

theorem setForce_touches {s : State} {sp ix v : Nat} :
    Touches [.regs, .mem, .keep, .mac, .pairs, .wvl, .slp, .pub, .slt, .hlt] s (State.setForce s sp ix v) := by
  unfold State.setForce
  repeat' first
    | with_reducible assumption
    | with_reducible exact Touches.refl _ _
    | (dsimp only [Touches.mk_eq]; dsimp only [TouchesD]; with_reducible apply Touches.set_slp (x := _))
    | (extract_lets +onlyGivenNames x; refine Touches.cut (l := [.regs, .mem, .keep, .mac, .pairs, .wvl, .slp, .pub, .slt, .hlt]) (s := s) (t := x) ?_ (fun hx => ?_); (on_goal 1 => (unfold x; clear x)); (on_goal 2 => clear_value x))
    | (extract_lets +onlyGivenNames x; (have hv : x = x := by unfold x; exact Eq.refl _); clear hv; clear_value x)
    | with_reducible apply Touches.ite
    | with_reducible apply Touches.via bump_touches
    | with_reducible apply Touches.via pubForced_touches
    | with_reducible apply Touches.via belfry_touches
    | with_reducible apply Touches.via pubFlush_touches

theorem unforceAll_touches {s : State} :
    Touches [.regs, .mem, .keep, .mac, .pairs, .wvl, .slp, .pub, .slt, .hlt] s (State.unforceAll s) := by
  unfold State.unforceAll
  repeat' first
    | with_reducible assumption
    | with_reducible exact Touches.refl _ _
    | with_reducible apply Touches.via setForce_touches
    | with_reducible apply Touches.foldl
    | with_reducible apply Touches.foldl2
    | (intro _; intros; try beta_reduce)

theorem stopQbc_touches {s : State} :
    Touches [.qbc] s (State.stopQbc s) := by
  unfold State.stopQbc
  repeat' first
    | with_reducible assumption
    | with_reducible exact Touches.refl _ _
    | (dsimp only [Touches.mk_eq]; dsimp only [TouchesD]; with_reducible apply Touches.set_qbc (x := _))

theorem pscBump_touches {s : State} {n : Nat} :
    Touches [.regs] s (State.pscBump s n) := by
  unfold State.pscBump
  repeat' first
    | with_reducible assumption
    | with_reducible exact Touches.refl _ _
    | with_reducible apply Touches.via bump_touches

theorem goStale_touches {s : State} :
    Touches [.regs] s (State.goStale s) := by
  unfold State.goStale
  repeat' first
    | with_reducible assumption
    | with_reducible exact Touches.refl _ _
    | with_reducible apply Touches.ite
    | with_reducible apply Touches.via setF_touches
    | with_reducible apply Touches.via pscBump_touches

theorem islandRoot_touches {s : State} :
    Touches [.regs] s (State.islandRoot s) := by
  unfold State.islandRoot
  repeat' first
    | with_reducible assumption
    | with_reducible exact Touches.refl _ _
    | with_reducible apply Touches.ite
    | with_reducible apply Touches.via setF_touches
    | with_reducible apply Touches.via goStale_touches

theorem bootMeasure_touches {s : State} {slots : List Nat} :
    Touches [.dom] s (State.bootMeasure s slots) := by
  unfold State.bootMeasure
  repeat' first
    | with_reducible assumption
    | with_reducible exact Touches.refl _ _
    | with_reducible apply Touches.via extendMs_touches
    | with_reducible apply Touches.foldl
    | with_reducible apply Touches.foldl2
    | (intro _; intros; try beta_reduce)

theorem domeStop_touches {s : State} :
    Touches [.regs, .dom] s (State.domeStop s) := by
  unfold State.domeStop
  repeat' first
    | with_reducible assumption
    | with_reducible exact Touches.refl _ _
    | (dsimp only [Touches.mk_eq]; dsimp only [TouchesD]; with_reducible apply Touches.set_dom (x := _))
    | with_reducible apply Touches.via clearPage_touches

theorem resumeWork_touches {s : State} :
    Touches [.regs, .tmc, .hlt] s (State.resumeWork s) := by
  unfold State.resumeWork
  repeat' first
    | with_reducible assumption
    | with_reducible exact Touches.refl _ _
    | (dsimp only [Touches.mk_eq]; dsimp only [TouchesD]; with_reducible apply Touches.set_tmc (x := _))
    | (extract_lets +onlyGivenNames x; refine Touches.cut (l := [.regs, .tmc, .hlt]) (s := s) (t := x) ?_ (fun hx => ?_); (on_goal 1 => (unfold x; clear x)); (on_goal 2 => clear_value x))
    | (extract_lets +onlyGivenNames x; (have hv : x = x := by unfold x; exact Eq.refl _); clear hv; clear_value x)
    | with_reducible apply Touches.via setF_touches
    | with_reducible apply Touches.via modHlt_touches

theorem mirror_touches {s : State} :
    Touches [.hlt] s (State.mirror s) := by
  unfold State.mirror
  repeat' first
    | with_reducible assumption
    | with_reducible exact Touches.refl _ _
    | with_reducible apply Touches.via modHlt_touches

theorem setFault_touches {s : State} {b : Nat} :
    Touches [.regs, .mem, .keep, .mac, .pairs, .wvl, .slp, .pub, .slt, .prc, .tmc, .hlt] s (State.setFault s b) := by
  unfold State.setFault
  repeat' first
    | with_reducible assumption
    | with_reducible exact Touches.refl _ _
    | with_reducible apply Touches.ite
    | with_reducible apply Touches.via setF_touches
    | with_reducible apply Touches.via belfry_touches
    | with_reducible apply Touches.via evalReady_touches

theorem rootDue_touches {s : State} {c : Nat} :
    Touches [.sup] s (State.rootDue s c) := by
  unfold State.rootDue
  repeat' first
    | with_reducible assumption
    | with_reducible exact Touches.refl _ _
    | with_reducible apply Touches.via modSup_touches

theorem rootRatio_touches {s : State} :
    Touches [.regs, .mem, .sup, .keep, .mac, .pairs, .wvl, .slp, .pub, .slt, .prc, .tmc, .hlt] s (rootRatio s) := by
  unfold rootRatio
  repeat' first
    | with_reducible assumption
    | with_reducible exact Touches.refl _ _
    | with_reducible apply Touches.via rootDue_touches
    | with_reducible apply Touches.via setFault_touches
    | with_reducible apply Touches.via islandRoot_touches

theorem vioCarFault_touches {mv : Nat} {s : State} :
    Touches [.regs, .mem, .sup, .keep, .qbc, .mac, .pairs, .wvl, .slp, .pub, .slt, .prc, .psc, .tmc, .hlt, .free] s (vioCarFault mv s) := by
  unfold vioCarFault
  repeat' first
    | with_reducible assumption
    | with_reducible exact Touches.refl _ _
    | (dsimp only [Touches.mk_eq]; dsimp only [TouchesD]; with_reducible apply Touches.set_psc (x := _))
    | (extract_lets +onlyGivenNames x; refine Touches.cut (l := [.regs, .mem, .sup, .keep, .qbc, .mac, .pairs, .wvl, .slp, .pub, .slt, .prc, .psc, .tmc, .hlt, .free]) (s := s) (t := x) ?_ (fun hx => ?_); (on_goal 1 => (unfold x; clear x)); (on_goal 2 => clear_value x))
    | (extract_lets +onlyGivenNames x; (have hv : x = x := by unfold x; exact Eq.refl _); clear hv; clear_value x)
    | with_reducible apply Touches.ite
    | with_reducible apply Touches.via vioMeasured_touches
    | with_reducible apply Touches.via modSup_touches
    | with_reducible apply Touches.via setFault_touches
    | with_reducible apply Touches.via fence_touches
    | with_reducible apply Touches.via showSupply_touches
    | with_reducible apply Touches.via stopQbc_touches
    | with_reducible apply Touches.via evalReady_touches

theorem blocksReset_touches {s : State} {warm : Bool} :
    Touches [.regs, .mem, .bus, .qbc, .mac, .pairs, .wvl, .ing, .lat, .phe, .gcm, .slp, .pub, .dre, .slt, .prc, .tmc, .hlt, .cmds] s (State.blocksReset s warm) := by
  unfold State.blocksReset
  repeat' first
    | with_reducible assumption
    | with_reducible exact Touches.refl _ _
    | (dsimp only [Touches.mk_eq]; dsimp only [TouchesD]; with_reducible apply Touches.set_regs_mem_bus_qbc_mac_pairs_wvl_ing_lat_phe_gcm_slp_pub_dre_slt_prc_tmc_hlt_cmds (x0 := _) (x1 := _) (x2 := _) (x3 := _) (x4 := _) (x5 := _) (x6 := _) (x7 := _) (x8 := _) (x9 := _) (x10 := _) (x11 := _) (x12 := _) (x13 := _) (x14 := _) (x15 := _) (x16 := _) (x17 := _) (x18 := _))

theorem endEpisode_touches {s : State} {byReset : Bool} :
    Touches [.keep, .free] s (State.endEpisode s byReset) := by
  unfold State.endEpisode
  repeat' first
    | with_reducible assumption
    | with_reducible exact Touches.refl _ _
    | (dsimp only [Touches.mk_eq]; dsimp only [TouchesD]; with_reducible apply Touches.set_keep (x := _))
    | (extract_lets +onlyGivenNames x; refine Touches.cut (l := [.keep, .free]) (s := s) (t := x) ?_ (fun hx => ?_); (on_goal 1 => (unfold x; clear x)); (on_goal 2 => clear_value x))
    | (extract_lets +onlyGivenNames x; refine Touches.cut2 (l := [.keep, .free]) (s := s) (x := x) ?_ (fun hx => ?_); (on_goal 1 => (unfold x; clear x)); (on_goal 2 => clear_value x))
    | (extract_lets +onlyGivenNames x; (have hv : x = x := by unfold x; exact Eq.refl _); clear hv; clear_value x)
    | with_reducible apply Touches.ite
    | with_reducible apply Touches.via tenMv_touches

theorem cause_touches {s : State} {kind c : Nat} :
    Touches [.regs] s (State.cause s kind c) := by
  unfold State.cause
  repeat' first
    | with_reducible assumption
    | with_reducible exact Touches.refl _ _
    | with_reducible apply Touches.via setF_touches

theorem disarm_touches {s : State} :
    Touches [.regs, .mem, .keep, .mac, .pairs, .wvl, .slp, .pub, .slt, .dom, .hlt] s (State.disarm s) := by
  unfold State.disarm
  repeat' first
    | with_reducible assumption
    | with_reducible exact Touches.refl _ _
    | with_reducible apply Touches.via wvlArm_touches
    | with_reducible apply Touches.via unforceAll_touches

theorem coldStart_touches {s : State} {c : Nat} :
    Touches [.regs, .mem, .bus, .sup, .keep, .qbc, .tbu, .mac, .pairs, .wvl, .ing, .lat, .phe, .gcm, .slp, .pub, .dre, .slt, .prc, .dom, .tmc, .hlt, .cmds, .free] s (State.coldStart s c) := by
  unfold State.coldStart
  repeat' first
    | with_reducible assumption
    | with_reducible exact Touches.refl _ _
    | (dsimp only [Touches.mk_eq]; dsimp only [TouchesD]; with_reducible apply Touches.set_tbu (x := _))
    | (extract_lets +onlyGivenNames x; refine Touches.cut (l := [.regs, .mem, .bus, .sup, .keep, .qbc, .tbu, .mac, .pairs, .wvl, .ing, .lat, .phe, .gcm, .slp, .pub, .dre, .slt, .prc, .dom, .tmc, .hlt, .cmds, .free]) (s := s) (t := x) ?_ (fun hx => ?_); (on_goal 1 => (unfold x; clear x)); (on_goal 2 => clear_value x))
    | with_reducible apply Touches.ite
    | with_reducible apply Touches.via endEpisode_touches
    | with_reducible apply Touches.via blocksReset_touches
    | with_reducible apply Touches.via modSup_touches
    | with_reducible apply Touches.via disarm_touches
    | with_reducible apply Touches.via domeStop_touches
    | with_reducible apply Touches.via loadTime_touches
    | with_reducible apply Touches.via cause_touches

theorem supplyReset_touches {s : State} {c : Nat} :
    Touches [.regs, .mem, .bus, .sup, .keep, .qbc, .tbu, .mac, .pairs, .wvl, .ing, .lat, .phe, .gcm, .slp, .pub, .dre, .slt, .prc, .dom, .tmc, .hlt, .cmds, .free] s (State.supplyReset s c) := by
  unfold State.supplyReset
  repeat' first
    | with_reducible assumption
    | with_reducible exact Touches.refl _ _
    | (extract_lets +onlyGivenNames x; refine Touches.cut (l := [.regs, .mem, .bus, .sup, .keep, .qbc, .tbu, .mac, .pairs, .wvl, .ing, .lat, .phe, .gcm, .slp, .pub, .dre, .slt, .prc, .dom, .tmc, .hlt, .cmds, .free]) (s := s) (t := x) ?_ (fun hx => ?_); (on_goal 1 => (unfold x; clear x)); (on_goal 2 => clear_value x))
    | with_reducible apply Touches.ite
    | with_reducible apply Touches.via endEpisode_touches
    | with_reducible apply Touches.via modSup_touches
    | with_reducible apply Touches.via stopMacs_touches
    | with_reducible apply Touches.via stopQbc_touches
    | with_reducible apply Touches.via coldStart_touches

theorem coldReset_touches {s : State} {c : Nat} :
    Touches [.regs, .mem, .bus, .sup, .keep, .qbc, .tbu, .mac, .pairs, .wvl, .ing, .lat, .phe, .gcm, .slp, .pub, .dre, .slt, .prc, .dom, .tmc, .hlt, .cmds, .free] s (State.coldReset s c) := by
  unfold State.coldReset
  repeat' first
    | with_reducible assumption
    | with_reducible exact Touches.refl _ _
    | with_reducible apply Touches.via coldStart_touches
    | with_reducible apply Touches.via tryEndReset_touches

theorem railFault_touches {r : Rail} {s : State} :
    Touches [.regs, .mem, .bus, .sup, .keep, .qbc, .tbu, .mac, .pairs, .wvl, .ing, .lat, .phe, .gcm, .slp, .pub, .dre, .slt, .prc, .dom, .tmc, .hlt, .cmds, .free] s (railFault r s) := by
  unfold railFault
  repeat' first
    | with_reducible assumption
    | with_reducible exact Touches.refl _ _
    | with_reducible apply Touches.ite
    | with_reducible apply Touches.via modSup_touches
    | with_reducible apply Touches.via coldResetCmd_touches
    | with_reducible apply Touches.via setFault_touches
    | with_reducible apply Touches.via coldReset_touches

theorem showRide_touches {s : State} {f : Field} {v : Nat} :
    Touches [.regs] s (State.showRide s f v) := by
  unfold State.showRide
  repeat' first
    | with_reducible assumption
    | with_reducible exact Touches.refl _ _
    | with_reducible apply Touches.ite
    | with_reducible apply Touches.via setF_touches

theorem rideThroughEntry_touches {mv : Nat} {s : State} :
    Touches [.regs, .sup, .keep, .tbu, .hlt] s (rideThroughEntry mv s) := by
  unfold rideThroughEntry
  repeat' first
    | with_reducible assumption
    | with_reducible exact Touches.refl _ _
    | (extract_lets +onlyGivenNames x; refine Touches.cut (l := [.regs, .sup, .keep, .tbu, .hlt]) (s := s) (t := x) ?_ (fun hx => ?_); (on_goal 1 => (unfold x; clear x)); (on_goal 2 => clear_value x))
    | with_reducible apply Touches.ite
    | with_reducible apply Touches.via modSup_touches
    | with_reducible apply Touches.via showRide_touches
    | with_reducible apply Touches.via stageEntry_touches
    | with_reducible apply Touches.via pauseWork_touches
    | with_reducible apply Touches.via vbusAt_touches
    | with_reducible apply Touches.via bump_touches
    | with_reducible apply Touches.via mirror_touches
    | with_reducible apply Touches.via tdcDiscard_touches

theorem returnThreshold_touches {mv : Nat} {s : State} :
    Touches [.regs, .mem, .sup, .keep, .hlt] s (returnThreshold mv s) := by
  unfold returnThreshold
  repeat' first
    | with_reducible assumption
    | with_reducible exact Touches.refl _ _
    | (extract_lets +onlyGivenNames x; refine Touches.cut (l := [.regs, .mem, .sup, .keep, .hlt]) (s := s) (t := x) ?_ (fun hx => ?_); (on_goal 1 => (unfold x; clear x)); (on_goal 2 => clear_value x))
    | with_reducible apply Touches.ite
    | with_reducible apply Touches.via modSup_touches
    | with_reducible apply Touches.via showRide_touches
    | with_reducible apply Touches.via vbusAt_touches
    | with_reducible apply Touches.via tryEndReset_touches

theorem brownout_touches {s : State} :
    Touches [.regs, .mem, .bus, .sup, .keep, .qbc, .tbu, .mac, .pairs, .wvl, .ing, .lat, .phe, .gcm, .slp, .pub, .dre, .slt, .prc, .dom, .tmc, .hlt, .cmds, .free] s (brownout s) := by
  unfold brownout
  repeat' first
    | with_reducible assumption
    | with_reducible exact Touches.refl _ _
    | with_reducible apply Touches.ite
    | with_reducible apply Touches.via advanceTo_touches
    | with_reducible apply Touches.via setFault_touches
    | with_reducible apply Touches.via supplyReset_touches

theorem returnTimerStop_touches {mv : Nat} {s : State} :
    Touches [.regs, .mem, .bus, .sup, .keep, .qbc, .tbu, .mac, .pairs, .wvl, .ing, .lat, .phe, .gcm, .slp, .pub, .dre, .slt, .prc, .dom, .tmc, .hlt, .cmds, .free] s (returnTimerStop mv s) := by
  unfold returnTimerStop
  repeat' first
    | with_reducible assumption
    | with_reducible exact Touches.refl _ _
    | (extract_lets +onlyGivenNames x; refine Touches.cut (l := [.regs, .mem, .bus, .sup, .keep, .qbc, .tbu, .mac, .pairs, .wvl, .ing, .lat, .phe, .gcm, .slp, .pub, .dre, .slt, .prc, .dom, .tmc, .hlt, .cmds, .free]) (s := s) (t := x) ?_ (fun hx => ?_); (on_goal 1 => (unfold x; clear x)); (on_goal 2 => clear_value x))
    | with_reducible apply Touches.ite
    | with_reducible apply Touches.via modSup_touches
    | with_reducible apply Touches.via brownout_touches
    | with_reducible apply Touches.via vbusAt_touches
    | with_reducible apply Touches.via showRide_touches

theorem returnTimerExpiry_touches {s : State} :
    Touches [.regs, .mem, .sup, .keep, .tbu, .tmc, .hlt, .free] s (returnTimerExpiry s) := by
  unfold returnTimerExpiry
  repeat' first
    | with_reducible assumption
    | with_reducible exact Touches.refl _ _
    | (extract_lets +onlyGivenNames x; refine Touches.cut (l := [.regs, .mem, .sup, .keep, .tbu, .tmc, .hlt, .free]) (s := s) (t := x) ?_ (fun hx => ?_); (on_goal 1 => (unfold x; clear x)); (on_goal 2 => clear_value x))
    | (extract_lets +onlyGivenNames x; refine Touches.cut2 (l := [.regs, .mem, .sup, .keep, .tbu, .tmc, .hlt, .free]) (s := s) (x := x) ?_ (fun hx => ?_); (on_goal 1 => (unfold x; clear x)); (on_goal 2 => clear_value x))
    | with_reducible apply Touches.ite
    | with_reducible apply Touches.via advanceTo_touches
    | with_reducible apply Touches.via tenMv_touches
    | with_reducible apply Touches.via showRide_touches
    | with_reducible apply Touches.via modSup_touches
    | with_reducible apply Touches.via endEpisode_touches
    | with_reducible apply Touches.via setF_touches
    | with_reducible apply Touches.via flushStaged_touches
    | with_reducible apply Touches.via resumeWork_touches
    | with_reducible apply Touches.via tdcResume_touches

theorem resetThreshold_touches {mv : Nat} {s : State} :
    Touches [.regs, .mem, .bus, .sup, .keep, .qbc, .tbu, .mac, .pairs, .wvl, .ing, .lat, .phe, .gcm, .slp, .pub, .dre, .slt, .prc, .dom, .tmc, .hlt, .cmds, .free] s (resetThreshold mv s) := by
  unfold resetThreshold
  repeat' first
    | with_reducible assumption
    | with_reducible exact Touches.refl _ _
    | with_reducible apply Touches.ite
    | with_reducible apply Touches.via vbusAt_touches
    | with_reducible apply Touches.via supplyReset_touches

theorem faultBitReassert_touches {b : Nat} {s : State} :
    Touches [.regs, .mem, .bus, .sup, .keep, .qbc, .tbu, .mac, .pairs, .wvl, .ing, .lat, .phe, .gcm, .slp, .pub, .dre, .slt, .prc, .dom, .tmc, .hlt, .cmds, .free] s (faultBitReassert b s) := by
  unfold faultBitReassert
  repeat' first
    | with_reducible assumption
    | with_reducible exact Touches.refl _ _
    | (extract_lets +onlyGivenNames x; refine Touches.cut (l := [.regs, .mem, .bus, .sup, .keep, .qbc, .tbu, .mac, .pairs, .wvl, .ing, .lat, .phe, .gcm, .slp, .pub, .dre, .slt, .prc, .dom, .tmc, .hlt, .cmds, .free]) (s := s) (t := x) ?_ (fun hx => ?_); (on_goal 1 => (unfold x; clear x)); (on_goal 2 => clear_value x))
    | with_reducible apply Touches.ite
    | with_reducible apply Touches.via setFault_touches
    | with_reducible apply Touches.via rootDue_touches
    | with_reducible apply Touches.via coldReset_touches
    | split

theorem rootFaultResponse_touches {s : State} :
    Touches [.regs, .mem, .bus, .sup, .keep, .qbc, .tbu, .mac, .pairs, .wvl, .ing, .lat, .phe, .gcm, .slp, .pub, .dre, .slt, .prc, .dom, .tmc, .hlt, .cmds, .free] s (rootFaultResponse s) := by
  unfold rootFaultResponse
  repeat' first
    | with_reducible assumption
    | with_reducible exact Touches.refl _ _
    | with_reducible apply Touches.ite
    | with_reducible apply Touches.via fence_touches
    | with_reducible apply Touches.via coldResetCmd_touches
    | with_reducible apply Touches.via stopMacs_touches
    | with_reducible apply Touches.via stopQbc_touches
    | with_reducible apply Touches.via coldReset_touches

theorem carRst_touches {s : State} :
    Touches [.regs, .mem, .bus, .sup, .keep, .qbc, .tbu, .mac, .pairs, .wvl, .ing, .lat, .phe, .gcm, .slp, .pub, .dre, .slt, .prc, .dom, .tmc, .hlt, .cmds, .free] s (carRst s) := by
  unfold carRst
  repeat' first
    | with_reducible assumption
    | with_reducible exact Touches.refl _ _
    | (extract_lets +onlyGivenNames x; refine Touches.cut (l := [.regs, .mem, .bus, .sup, .keep, .qbc, .tbu, .mac, .pairs, .wvl, .ing, .lat, .phe, .gcm, .slp, .pub, .dre, .slt, .prc, .dom, .tmc, .hlt, .cmds, .free]) (s := s) (t := x) ?_ (fun hx => ?_); (on_goal 1 => (unfold x; clear x)); (on_goal 2 => clear_value x))
    | with_reducible apply Touches.ite
    | with_reducible apply Touches.via modSup_touches
    | with_reducible apply Touches.via coldStart_touches

theorem carRstNRelease_touches {s : State} :
    Touches [.regs, .mem, .sup, .keep, .hlt] s (carRstNRelease s) := by
  unfold carRstNRelease
  repeat' first
    | with_reducible assumption
    | with_reducible exact Touches.refl _ _
    | with_reducible apply Touches.via modSup_touches
    | with_reducible apply Touches.via tryEndReset_touches

theorem coldResetCmd_touches {c : Nat} {s : State} :
    Touches [.regs, .mem, .bus, .sup, .keep, .qbc, .tbu, .mac, .pairs, .wvl, .ing, .lat, .phe, .gcm, .slp, .pub, .dre, .slt, .prc, .dom, .tmc, .hlt, .cmds, .free] s (coldReset c s) := by
  unfold coldReset
  repeat' first
    | with_reducible assumption
    | with_reducible exact Touches.refl _ _
    | with_reducible apply Touches.ite
    | with_reducible apply Touches.via supplyReset_touches
    | with_reducible apply Touches.via advanceTo_touches
    | with_reducible apply Touches.via coldStart_touches
    | with_reducible apply Touches.via coldReset_touches
    | (intro _)
    | split

theorem warmReset_touches {s : State} :
    Touches [.regs, .mem, .bus, .sup, .keep, .qbc, .tbu, .mac, .pairs, .wvl, .ing, .lat, .phe, .gcm, .slp, .pub, .dre, .slt, .prc, .dom, .tmc, .hlt, .cmds, .free] s (warmReset s) := by
  unfold warmReset
  repeat' first
    | with_reducible assumption
    | with_reducible exact Touches.refl _ _
    | (dsimp only [Touches.mk_eq]; dsimp only [TouchesD]; with_reducible apply Touches.set_dom (x := _))
    | (dsimp only [Touches.mk_eq]; dsimp only [TouchesD]; with_reducible apply Touches.set_tmc (x := _))
    | (extract_lets +onlyGivenNames x; refine Touches.cut (l := [.regs, .mem, .bus, .sup, .keep, .qbc, .tbu, .mac, .pairs, .wvl, .ing, .lat, .phe, .gcm, .slp, .pub, .dre, .slt, .prc, .dom, .tmc, .hlt, .cmds, .free]) (s := s) (t := x) ?_ (fun hx => ?_); (on_goal 1 => (unfold x; clear x)); (on_goal 2 => clear_value x))
    | (extract_lets +onlyGivenNames x; (have hv : x = x := by unfold x; exact Eq.refl _); clear hv; clear_value x)
    | with_reducible apply Touches.ite
    | with_reducible apply Touches.via advanceTo_touches
    | with_reducible apply Touches.via endEpisode_touches
    | with_reducible apply Touches.via blocksReset_touches
    | with_reducible apply Touches.via modSup_touches
    | with_reducible apply Touches.via bootMeasure_touches
    | with_reducible apply Touches.via disarm_touches
    | with_reducible apply Touches.via tbuFollow_touches
    | with_reducible apply Touches.via cause_touches
    | with_reducible apply Touches.via drivePins_touches
    | with_reducible apply Touches.via enterPrepare_touches
    | (intro _)
    | split

theorem vkeepLow_touches {s : State} :
    Touches [.regs, .mem, .bus, .sup, .keep, .qbc, .tbu, .mac, .pairs, .wvl, .ing, .lat, .phe, .gcm, .slp, .pub, .dre, .slt, .prc, .dom, .tmc, .hlt, .cmds, .free] s (vkeepLow s) := by
  unfold vkeepLow
  repeat' first
    | with_reducible assumption
    | with_reducible exact Touches.refl _ _
    | (extract_lets +onlyGivenNames x; refine Touches.cut (l := [.regs, .mem, .bus, .sup, .keep, .qbc, .tbu, .mac, .pairs, .wvl, .ing, .lat, .phe, .gcm, .slp, .pub, .dre, .slt, .prc, .dom, .tmc, .hlt, .cmds, .free]) (s := s) (t := x) ?_ (fun hx => ?_); (on_goal 1 => (unfold x; clear x)); (on_goal 2 => clear_value x))
    | with_reducible apply Touches.ite
    | with_reducible apply Touches.via coldStart_touches
    | with_reducible apply Touches.via modSup_touches

theorem keepReset_touches {s : State} :
    Touches [.regs, .mem, .sup, .keep, .tbu, .hlt] s (keepReset s) := by
  unfold keepReset
  repeat' first
    | with_reducible assumption
    | with_reducible exact Touches.refl _ _
    | (dsimp only [Touches.mk_eq]; dsimp only [TouchesD]; with_reducible apply Touches.set_keep_tbu (x0 := _) (x1 := _))
    | (extract_lets +onlyGivenNames x; refine Touches.cut (l := [.regs, .mem, .sup, .keep, .tbu, .hlt]) (s := s) (t := x) ?_ (fun hx => ?_); (on_goal 1 => (unfold x; clear x)); (on_goal 2 => clear_value x))
    | (extract_lets +onlyGivenNames x; (have hv : x = x := by unfold x; exact Eq.refl _); clear hv; clear_value x)
    | with_reducible apply Touches.ite
    | with_reducible apply Touches.via clearFields_touches
    | with_reducible apply Touches.via setF_touches
    | with_reducible apply Touches.via cause_touches
    | with_reducible apply Touches.via vkeepLow_touches
    | with_reducible apply Touches.via modSup_touches
    | with_reducible apply Touches.via loadTime_touches
    | with_reducible apply Touches.via pwrokRise_touches
    | with_reducible apply Touches.via tryEndReset_touches

end Sys2Proof.Machine
end

section
/-! Which register fields an operation writes: from a key on any, below it those of a list. The pages of the TMC and of PHM stand
lowest, so that an operation of an engine spares them. -/
namespace Sys2Proof.Machine

-- one proof after the other: started together they wait on each other's results, each in a thread of its own
set_option Elab.async false

/-- `WritesFields`, of the register files. -/
structure WritesRegs (k : Nat) (W : List Field) (s : State) (regs : Tbl Nat) : Prop where
  spares : ∀ g : Field, g.key < k → (∀ f ∈ W, g.key ≠ f.key) → Tbl.get g.reset g.key regs = s.get g

/-- From `s` to `t` no field is written whose key is below `k`, but for those of `W`. -/
def WritesFields (k : Nat) (W : List Field) (s t : State) : Prop := WritesRegs k W s t.regs

section
variable {k : Nat} {W : List Field} {s t u : State}

theorem WritesFields.get_eq (h : WritesFields k W s t) {g : Field} (hk : g.key < k) (hW : ∀ f ∈ W, g.key ≠ f.key) :
    t.get g = s.get g := h.spares g hk hW

theorem WritesFields.flag_eq (h : WritesFields k W s t) {g : Field} (hk : g.key < k) (hW : ∀ f ∈ W, g.key ≠ f.key) :
    t.flag g = s.flag g := congrArg (· != 0) (h.get_eq hk hW)

theorem WritesFields.refl (k : Nat) (W : List Field) (s : State) : WritesFields k W s s := ⟨fun _ _ _ => rfl⟩

theorem WritesFields.trans (h : WritesFields k W s t) (h' : WritesFields k W t u) : WritesFields k W s u :=
  ⟨fun g hk hW => (h'.get_eq hk hW).trans (h.get_eq hk hW)⟩

theorem WritesFields.mono {V : List Field} (h : WritesFields k V s t) (hVW : V ⊆ W) : WritesFields k W s t :=
  ⟨fun _ hk hW => h.get_eq hk (fun f hf => hW f (hVW hf))⟩

/-- An operation whose fields are all listed, after others. -/
theorem WritesFields.via {V : List Field} (h' : WritesFields k V t u) (h : WritesFields k W s t) (hVW : V ⊆ W := by simp) :
    WritesFields k W s u := h.trans (h'.mono hVW)

theorem Touches.writesFields {l : List StatePart} (h : Touches l s t) (k : Nat) (hp : StatePart.regs ∉ l := by simp) :
    WritesFields k [] s t := ⟨fun g _ _ => h.get_eq g hp⟩

theorem WritesRegs.of (h : WritesFields k W s t) : WritesRegs k W s t.regs := h

theorem WritesFields.mk_eq {regs : Tbl Nat} {mem : List Host.Cell} {bus : BusResp} {sup : Supply} {keep : Keep} {qbc : Qbc} {tbu : Tbu}
    {mac : Tbl Mac} {pairs : Tbl Pair} {wvl : Wvl} {ing : Ingress} {lat : Tbl Lattice} {phe : Phe} {gcm : Gcm} {slp : Slp} {pub : Pub}
    {dre : Dre} {slt : Slt} {prc : Prc} {psc : Island} {dom : Dome} {tmc : Tmc} {hlt : Health} {cmds : Tbl CmdOut} {free : Nat}
    {pending : List Instr} :
    WritesFields k W s ⟨regs, mem, bus, sup, keep, qbc, tbu, mac, pairs, wvl, ing, lat, phe, gcm, slp, pub, dre, slt, prc, psc, dom,
      tmc, hlt, cmds, free, pending⟩ = WritesRegs k W s regs := rfl

theorem WritesFields.of_regs (h : WritesFields k W s t) (hr : u.regs = t.regs) : WritesFields k W s u := by
  rw [WritesFields, hr]
  exact h

theorem WritesFields.ite {c : Prop} [Decidable c] (ht : WritesFields k W s t) (hu : WritesFields k W s u) :
    WritesFields k W s (if c then t else u) := by
  split <;> assumption

theorem WritesFields.ite2 {α : Type} {c : Prop} [Decidable c] {x y : α × State} (hx : WritesFields k W s x.2)
    (hy : WritesFields k W s y.2) : WritesFields k W s (if c then x else y).2 := by
  split <;> assumption

theorem WritesFields.foldl {β : Type} {f : State → β → State} (hf : ∀ u b, WritesFields k W s u → WritesFields k W s (f u b))
    (bs : List β) (h : WritesFields k W s t) : WritesFields k W s (bs.foldl f t) := by
  induction bs generalizing t with
  | nil => exact h
  | cons b bs ih => exact ih (hf t b h)

theorem WritesFields.foldl2 {α β : Type} {f : α × State → β → α × State}
    (hf : ∀ x b, WritesFields k W s x.2 → WritesFields k W s (f x b).2) (bs : List β) {x : α × State} (h : WritesFields k W s x.2) :
    WritesFields k W s (bs.foldl f x).2 := by
  induction bs generalizing x with
  | nil => exact h
  | cons b bs ih => exact ih (hf x b h)

theorem WritesFields.forN {n : Nat} {f : State → Nat → State} (hf : ∀ u i, WritesFields k W s u → WritesFields k W s (f u i))
    (h : WritesFields k W s t) : WritesFields k W s (forN n f t) := WritesFields.foldl hf _ h

/-! A value bound in the middle of an operation: what holds of it is carried on, and its value is forgotten. -/

theorem WritesFields.cut {G : Prop} (h : WritesFields k W s t) (c : WritesFields k W s t → G) : G := c h

theorem WritesFields.cut2 {α : Type} {x : α × State} {G : Prop} (h : WritesFields k W s x.2) (c : WritesFields k W s x.2 → G) : G := c h

theorem WritesFields.cutF1 {f : State → State} {G : Prop} (h : ∀ u, WritesFields k W s u → WritesFields k W s (f u))
    (c : (∀ u, WritesFields k W s u → WritesFields k W s (f u)) → G) : G := c h

theorem WritesFields.cutF2 {α : Type} {f : State → α → State} {G : Prop}
    (h : ∀ u a, WritesFields k W s u → WritesFields k W s (f u a)) (c : (∀ u a, WritesFields k W s u → WritesFields k W s (f u a)) → G) :
    G := c h

end

section
variable {k : Nat} {s : State} {f : Field}

theorem setF_writes {v : Nat} : WritesFields k [f] s (s.setF f v) :=
  ⟨fun _ _ hW => State.get_setF_ne s v (hW f (List.mem_singleton.mpr rfl))⟩

theorem setB_writes {b : Bool} : WritesFields k [f] s (s.setB f b) := setF_writes

theorem setI_writes {v : Int} : WritesFields k [f] s (s.setI f v) := setF_writes

theorem bumpBy_writes {n : Nat} : WritesFields k [f] s (s.bumpBy f n) := setF_writes

theorem bump_writes : WritesFields k [f] s (s.bump f) := setF_writes

theorem writeField_writes {v : Nat} : WritesFields k [f] s (s.writeField f v) := by
  unfold State.writeField
  exact .ite setF_writes (.refl _ _ _)

theorem setF_above {v : Nat} (hf : k ≤ f.key) : WritesFields k [] s (s.setF f v) :=
  ⟨fun _ hg _ => State.get_setF_ne s v (by omega)⟩

theorem setB_above {b : Bool} (hf : k ≤ f.key) : WritesFields k [] s (s.setB f b) := setF_above hf

theorem setI_above {v : Int} (hf : k ≤ f.key) : WritesFields k [] s (s.setI f v) := setF_above hf

theorem bumpBy_above {n : Nat} (hf : k ≤ f.key) : WritesFields k [] s (s.bumpBy f n) := setF_above hf

theorem bump_above (hf : k ≤ f.key) : WritesFields k [] s (s.bump f) := setF_above hf

theorem writeField_above {v : Nat} (hf : k ≤ f.key) : WritesFields k [] s (s.writeField f v) := by
  unfold State.writeField
  exact .ite (setF_above hf) (.refl _ _ _)

theorem event_writes {n code source param param2 : Nat} :
    WritesFields k [F.SLT_CNT_COUNT.nth 3] s (s.event n code source param param2) :=
  ⟨fun g _ hW => sameFieldsBut_event s n code source param param2 g (fun f hf => (hW f hf).symm)⟩

theorem le_key_nth (hf : k ≤ f.key) (n : Nat) : k ≤ (f.nth n).key := by
  have hkey : (f.nth n).key = f.key + n * f.stride * 64 := by
    simp only [Field.nth, Field.key]; omega
  omega

theorem fix_key (f : Field) (p : Nat) : (f.fix p).key = f.key := by
  unfold Field.fix
  split_ifs <;> rfl

theorem le_key_pg (hf : k ≤ f.key) (p : Nat) : k ≤ (f.pg p).key := by
  have hkey : (f.pg p).key = f.key + p * 0x10000 * 64 := by
    rw [Field.pg, fix_key]
    simp only [Field.key]; omega
  omega

theorem le_key_macCnt (hf : k ≤ F.MAC_CNT_COUNT.key) (p n : Nat) : k ≤ (macCnt p n).key := le_key_pg (le_key_nth hf n) p

theorem le_key_latCnt (hf : k ≤ F.SLE_LAT_CNT_COUNT.key) (l n : Nat) : k ≤ (latCnt l n).key := le_key_nth hf _

end

/-- The key that follows the pages of the TMC and of PHM. -/
abbrev lowPages : Nat := 0x5000020000 * 64

theorem event_low {s : State} {n code source param param2 : Nat} : WritesFields lowPages [] s (s.event n code source param param2) :=
  ⟨fun _ hk _ => event_writes.get_eq hk (fun f hf => by
    have hfk : lowPages ≤ f.key := List.mem_singleton.mp hf ▸ le_key_nth (by decide) 3
    omega)⟩

theorem mergeInto_low {s : State} {e : BelEntry} :
    WritesFields lowPages [] s (State.mergeInto s e) := by
  unfold State.mergeInto
  repeat' first
    | with_reducible assumption
    | with_reducible exact WritesFields.refl _ _ _
    | (extract_lets +onlyGivenNames x; refine WritesFields.cut (k := lowPages) (W := []) (s := s) (t := x) ?_ (fun hx => ?_); (on_goal 1 => (unfold x; clear x)); (on_goal 2 => clear_value x))
    | (extract_lets +onlyGivenNames x; (have hv : x = x := by unfold x; exact Eq.refl _); clear hv; clear_value x)
    | with_reducible apply WritesFields.via ((wr64_touches).writesFields _)
    | with_reducible apply WritesFields.via (bump_above (f := F.BLF_CNT_COUNT.nth _) (le_key_nth (by decide) _))

theorem newRecord_low {s : State} {e : BelEntry} {staged : Bool} :
    WritesFields lowPages [] s (State.newRecord s e staged) := by
  unfold State.newRecord
  repeat' first
    | with_reducible assumption
    | with_reducible exact WritesFields.refl _ _ _
    | (dsimp only [WritesFields.mk_eq]; with_reducible apply WritesRegs.of)
    | (extract_lets +onlyGivenNames x; refine WritesFields.cut (k := lowPages) (W := []) (s := s) (t := x) ?_ (fun hx => ?_); (on_goal 1 => (unfold x; clear x)); (on_goal 2 => clear_value x))
    | (extract_lets +onlyGivenNames x; (have hv : x = x := by unfold x; exact Eq.refl _); clear hv; clear_value x)
    | with_reducible apply WritesFields.ite
    | with_reducible apply WritesFields.via ((wrWords_touches).writesFields _)
    | with_reducible apply WritesFields.via (bump_above (f := F.BLF_CNT_COUNT.nth _) (le_key_nth (by decide) _))
    | with_reducible apply WritesFields.via (setB_above (f := F.BLF_STATUS_FIRST_FULL) (by decide))
    | with_reducible apply WritesFields.via (setF_above (f := F.BLF_NEXT_RSEQ_RSEQ) (by decide))

theorem writeEntry_low {s : State} {e : BelEntry} {staged : Bool} :
    WritesFields lowPages [] s (State.writeEntry s e staged) := by
  unfold State.writeEntry
  repeat' first
    | with_reducible assumption
    | with_reducible exact WritesFields.refl _ _ _
    | with_reducible apply WritesFields.ite
    | with_reducible apply WritesFields.via mergeInto_low
    | with_reducible apply WritesFields.via newRecord_low

theorem stageEntry_low {s : State} {e : BelEntry} :
    WritesFields lowPages [] s (State.stageEntry s e) := by
  unfold State.stageEntry
  repeat' first
    | with_reducible assumption
    | with_reducible exact WritesFields.refl _ _ _
    | (dsimp only [WritesFields.mk_eq]; with_reducible apply WritesRegs.of)
    | (extract_lets +onlyGivenNames x; (have hv : x = x := by unfold x; exact Eq.refl _); clear hv; clear_value x)
    | with_reducible apply WritesFields.ite
    | with_reducible apply WritesFields.via (bump_above (f := F.BLF_CNT_COUNT.nth _) (le_key_nth (by decide) _))

theorem flushStaged_low {s : State} :
    WritesFields lowPages [] s (State.flushStaged s) := by
  unfold State.flushStaged
  repeat' first
    | with_reducible assumption
    | with_reducible exact WritesFields.refl _ _ _
    | (dsimp only [WritesFields.mk_eq]; with_reducible apply WritesRegs.of)
    | (extract_lets +onlyGivenNames x; refine WritesFields.cut (k := lowPages) (W := []) (s := s) (t := x) ?_ (fun hx => ?_); (on_goal 1 => (unfold x; clear x)); (on_goal 2 => clear_value x))
    | (extract_lets +onlyGivenNames x; (have hv : x = x := by unfold x; exact Eq.refl _); clear hv; clear_value x)
    | with_reducible apply WritesFields.ite
    | with_reducible apply WritesFields.via writeEntry_low
    | with_reducible apply WritesFields.foldl
    | with_reducible apply WritesFields.foldl2
    | (intro _; intros; try beta_reduce)

theorem belfry_low {s : State} {kind code source : Nat} {payload : List Nat} :
    WritesFields lowPages [] s (State.belfry s kind code source payload) := by
  unfold State.belfry
  repeat' first
    | with_reducible assumption
    | with_reducible exact WritesFields.refl _ _ _
    | (extract_lets +onlyGivenNames x; (have hv : x = x := by unfold x; exact Eq.refl _); clear hv; clear_value x)
    | with_reducible apply WritesFields.ite
    | with_reducible apply WritesFields.via stageEntry_low
    | with_reducible apply WritesFields.via writeEntry_low

theorem stateEvent_low {s : State} {n st cause : Nat} :
    WritesFields lowPages [] s (State.stateEvent s n st cause) := by
  unfold State.stateEvent
  repeat' first
    | with_reducible assumption
    | with_reducible exact WritesFields.refl _ _ _
    | with_reducible apply WritesFields.via event_low

theorem sliceToFaulted_low {s : State} {n cause : Nat} :
    WritesFields lowPages [] s (State.sliceToFaulted s n cause) := by
  unfold State.sliceToFaulted
  repeat' first
    | with_reducible assumption
    | with_reducible exact WritesFields.refl _ _ _
    | (extract_lets +onlyGivenNames x; refine WritesFields.cut (k := lowPages) (W := []) (s := s) (t := x) ?_ (fun hx => ?_); (on_goal 1 => (unfold x; clear x)); (on_goal 2 => clear_value x))
    | with_reducible apply WritesFields.ite
    | with_reducible apply WritesFields.via ((ringsTo_touches).writesFields _)
    | with_reducible apply WritesFields.via ((fClear_touches).writesFields _)
    | with_reducible apply WritesFields.via ((statusBit_touches).writesFields _)
    | with_reducible apply WritesFields.via stateEvent_low
    | with_reducible apply WritesFields.via ((ringPubs_touches).writesFields _)
    | with_reducible apply WritesFields.via ((modSlice_touches).writesFields _)

theorem sliceError_low {s : State} {n : Nat} :
    WritesFields lowPages [] s (State.sliceError s n) := by
  unfold State.sliceError
  repeat' first
    | with_reducible assumption
    | with_reducible exact WritesFields.refl _ _ _
    | (extract_lets +onlyGivenNames x; refine WritesFields.cut (k := lowPages) (W := []) (s := s) (t := x) ?_ (fun hx => ?_); (on_goal 1 => (unfold x; clear x)); (on_goal 2 => clear_value x))
    | (extract_lets +onlyGivenNames x; (have hv : x = x := by unfold x; exact Eq.refl _); clear hv; clear_value x)
    | with_reducible apply WritesFields.ite
    | with_reducible apply WritesFields.via ((modSlice_touches).writesFields _)
    | with_reducible apply WritesFields.via sliceToFaulted_low

theorem macBump_low {s : State} {p n : Nat} :
    WritesFields lowPages [] s (State.macBump s p n) := by
  unfold State.macBump
  repeat' first
    | with_reducible assumption
    | with_reducible exact WritesFields.refl _ _ _
    | with_reducible apply WritesFields.via (bump_above (f := macCnt _ _) (le_key_macCnt (by decide) _ _))

theorem wvlCount_low {s : State} {r : Nat} :
    WritesFields lowPages [] s (State.wvlCount s r).2 := by
  unfold State.wvlCount
  repeat' first
    | with_reducible assumption
    | with_reducible exact WritesFields.refl _ _ _
    | (dsimp only [WritesFields.mk_eq]; with_reducible apply WritesRegs.of)
    | (extract_lets +onlyGivenNames x; refine WritesFields.cut (k := lowPages) (W := []) (s := s) (t := x) ?_ (fun hx => ?_); (on_goal 1 => (unfold x; clear x)); (on_goal 2 => clear_value x))
    | (extract_lets +onlyGivenNames x; (have hv : x = x := by unfold x; exact Eq.refl _); clear hv; clear_value x)
    | with_reducible apply WritesFields.ite
    | with_reducible apply WritesFields.ite2
    | with_reducible apply WritesFields.via (bump_above (f := F.WVL_RULE_HITS_HITS.nth _) (le_key_nth (by decide) _))

theorem ringEnd_low {s : State} {sl r : Nat} {e : RingEnd} :
    WritesFields lowPages [] s (State.ringEnd s sl r e) := by
  unfold State.ringEnd
  repeat' first
    | with_reducible assumption
    | with_reducible exact WritesFields.refl _ _ _
    | (extract_lets +onlyGivenNames x; refine WritesFields.cut (k := lowPages) (W := []) (s := s) (t := x) ?_ (fun hx => ?_); (on_goal 1 => (unfold x; clear x)); (on_goal 2 => clear_value x))
    | (extract_lets +onlyGivenNames x; (have hv : x = x := by unfold x; exact Eq.refl _); clear hv; clear_value x)
    | with_reducible apply WritesFields.ite
    | with_reducible apply WritesFields.via ((wr64_touches).writesFields _)
    | with_reducible apply WritesFields.via ((modSlice_touches).writesFields _)
    | with_reducible apply WritesFields.via ((modRing_touches).writesFields _)
    | with_reducible apply WritesFields.via ((advanceHead_touches).writesFields _)
    | with_reducible apply WritesFields.via sliceError_low
    | with_reducible apply WritesFields.forN
    | (intro _; intros; try beta_reduce)

theorem ringDrain_low {s : State} {sl r n : Nat} : WritesFields lowPages [] s (State.ringDrain s sl r n) := by
  induction n generalizing s with
  | zero => exact .refl _ _ _
  | succ n ih =>
    unfold State.ringDrain
    split
    · exact .refl _ _ _
    · exact .via ih (.via ringEnd_low (.via (modRing_touches.writesFields _) (.refl _ _ s)))

theorem txComplete_low {s : State} {sl r gen first n status ts : Nat} {st : Option Nat} :
    WritesFields lowPages [] s (State.txComplete s sl r gen first n status ts st) := by
  unfold State.txComplete
  repeat' first
    | with_reducible assumption
    | with_reducible exact WritesFields.refl _ _ _
    | with_reducible apply WritesFields.ite
    | with_reducible apply WritesFields.via ((modRing_touches).writesFields _)
    | with_reducible apply WritesFields.via ringDrain_low

theorem txCopyEnd_low {s : State} {f : TxFrame} {status ts : Nat} :
    WritesFields lowPages [] s (State.txCopyEnd s f status ts) := by
  unfold State.txCopyEnd
  repeat' first
    | with_reducible assumption
    | with_reducible exact WritesFields.refl _ _ _
    | (extract_lets +onlyGivenNames x; (have hv : x = x := by unfold x; exact Eq.refl _); clear hv; clear_value x)
    | with_reducible apply WritesFields.ite
    | with_reducible apply WritesFields.via ((markCopies_touches).writesFields _)
    | with_reducible apply WritesFields.via txComplete_low
    | split

theorem txFail_low {s : State} {f : TxFrame} {status : Nat} :
    WritesFields lowPages [] s (State.txFail s f status) := by
  unfold State.txFail
  repeat' first
    | with_reducible apply WritesFields.via txCopyEnd_low
    | with_reducible exact WritesFields.refl _ _ _

theorem txRelease_low {s : State} {p : Nat} {f : TxFrame} :
    WritesFields lowPages [] s (State.txRelease s p f) := by
  unfold State.txRelease
  repeat' first
    | with_reducible assumption
    | with_reducible exact WritesFields.refl _ _ _
    | (extract_lets +onlyGivenNames x; refine WritesFields.cut2 (k := lowPages) (W := []) (s := s) (x := x) ?_ (fun hx => ?_); (on_goal 1 => (unfold x; clear x)); (on_goal 2 => clear_value x))
    | with_reducible apply WritesFields.via ((toClass_touches).writesFields _)
    | with_reducible apply WritesFields.via wvlCount_low
    | with_reducible apply WritesFields.via txFail_low
    | with_reducible apply WritesFields.via ((modMac_touches).writesFields _)
    | (intro _)
    | split

theorem txSubmit_low {s : State} {p : Nat} {f : TxFrame} :
    WritesFields lowPages [] s (State.txSubmit s p f) := by
  unfold State.txSubmit
  repeat' first
    | with_reducible assumption
    | with_reducible exact WritesFields.refl _ _ _
    | with_reducible apply WritesFields.ite
    | with_reducible apply WritesFields.via txRelease_low
    | with_reducible apply WritesFields.via ((modMac_touches).writesFields _)

theorem txPair_low {s : State} {p : Nat} {f : TxFrame} :
    WritesFields lowPages [] s (State.txPair s p f) := by
  unfold State.txPair
  repeat' first
    | with_reducible assumption
    | with_reducible exact WritesFields.refl _ _ _
    | (extract_lets +onlyGivenNames x; refine WritesFields.cut (k := lowPages) (W := []) (s := s) (t := x) ?_ (fun hx => ?_); (on_goal 1 => (unfold x; clear x)); (on_goal 2 => clear_value x))
    | (extract_lets +onlyGivenNames x; (have hv : x = x := by unfold x; exact Eq.refl _); clear hv; clear_value x)
    | with_reducible apply WritesFields.ite
    | with_reducible apply WritesFields.via txSubmit_low
    | with_reducible apply WritesFields.via ((modPair_touches).writesFields _)

theorem txPorts_low {s : State} {ports : Nat} {f : TxFrame} :
    WritesFields lowPages [] s (State.txPorts s ports f) := by
  unfold State.txPorts
  repeat' first
    | with_reducible assumption
    | with_reducible exact WritesFields.refl _ _ _
    | with_reducible apply WritesFields.via txPair_low
    | with_reducible apply WritesFields.foldl
    | with_reducible apply WritesFields.foldl2
    | (intro _; intros; try beta_reduce)

theorem pauseRise_low {s : State} {p : Nat} :
    WritesFields lowPages [] s (State.pauseRise s p) := by
  unfold State.pauseRise
  repeat' first
    | with_reducible assumption
    | with_reducible exact WritesFields.refl _ _ _
    | with_reducible apply WritesFields.ite
    | with_reducible apply WritesFields.via ((modMac_touches).writesFields _)
    | with_reducible apply WritesFields.via (setF_above (f := F.MAC_STATUS_PAUSED.pg _) (le_key_pg (by decide) _))
    | (intro _)
    | split

theorem txAbort_low {s : State} {p : Nat} :
    WritesFields lowPages [] s (State.txAbort s p) := by
  unfold State.txAbort
  repeat' first
    | with_reducible assumption
    | with_reducible exact WritesFields.refl _ _ _
    | with_reducible apply WritesFields.via ((modMac_touches).writesFields _)
    | with_reducible apply WritesFields.via macBump_low
    | with_reducible apply WritesFields.via txFail_low
    | with_reducible apply WritesFields.via pauseRise_low
    | (intro _)
    | split

theorem stopMacs_low {s : State} :
    WritesFields lowPages [] s (State.stopMacs s) := by
  unfold State.stopMacs
  repeat' first
    | with_reducible assumption
    | with_reducible exact WritesFields.refl _ _ _
    | with_reducible apply WritesFields.via txAbort_low
    | with_reducible apply WritesFields.via ((modMac_touches).writesFields _)
    | with_reducible apply WritesFields.forN
    | (intro _; intros; try beta_reduce)

theorem pubBump_low {s : State} {n : Nat} :
    WritesFields lowPages [] s (State.pubBump s n) := by
  unfold State.pubBump
  repeat' first
    | with_reducible assumption
    | with_reducible exact WritesFields.refl _ _ _
    | with_reducible apply WritesFields.via (bump_above (f := F.PUB_CNT_COUNT.nth _) (le_key_nth (by decide) _))

theorem pubSend_low {s : State} {p : Nat} {w : List Nat} {body : Body} {etype st sq : Nat} :
    WritesFields lowPages [] s (State.pubSend s p w body etype st sq) := by
  unfold State.pubSend
  refine .via (modPub_touches.writesFields _) (.via pubBump_low ?_)
  exact (WritesFields.refl _ _ s).of_regs rfl

theorem pubFlush_low {s : State} :
    WritesFields lowPages [] s (State.pubFlush s) := by
  unfold State.pubFlush
  repeat' first
    | with_reducible assumption
    | with_reducible exact WritesFields.refl _ _ _
    | (dsimp only [WritesFields.mk_eq]; with_reducible apply WritesRegs.of)
    | (extract_lets +onlyGivenNames x; (have hv : x = x := by unfold x; exact Eq.refl _); clear hv; clear_value x)
    | with_reducible apply WritesFields.via txPorts_low
    | with_reducible apply WritesFields.foldl
    | with_reducible apply WritesFields.foldl2
    | (intro _; intros; try beta_reduce)

theorem gooseSend_low {s : State} {p : Nat} {w : List Nat} :
    WritesFields lowPages [] s (State.gooseSend s p w) := by
  unfold State.gooseSend
  repeat' first
    | with_reducible assumption
    | with_reducible exact WritesFields.refl _ _ _
    | (extract_lets +onlyGivenNames x; (have hv : x = x := by unfold x; exact Eq.refl _); clear hv; clear_value x)
    | with_reducible apply WritesFields.via pubSend_low
    | with_reducible apply WritesFields.via ((modPub_touches).writesFields _)

theorem pubPut_low {s : State} {p : Nat} {w : List Nat} {x : Nat × Nat × Nat} :
    WritesFields lowPages [] s (State.pubPut s p w x) := by
  unfold State.pubPut
  repeat' first
    | with_reducible assumption
    | with_reducible exact WritesFields.refl _ _ _
    | with_reducible apply WritesFields.via ((modPub_touches).writesFields _)
    | with_reducible apply WritesFields.via gooseSend_low

theorem pubTakeover_low {s : State} :
    WritesFields lowPages [] s (State.pubTakeover s) := by
  unfold State.pubTakeover
  repeat' first
    | with_reducible assumption
    | with_reducible exact WritesFields.refl _ _ _
    | (extract_lets +onlyGivenNames x; refine WritesFields.cut (k := lowPages) (W := []) (s := s) (t := x) ?_ (fun hx => ?_); (on_goal 1 => (unfold x; clear x)); (on_goal 2 => clear_value x))
    | (extract_lets +onlyGivenNames x; (have hv : x = x := by unfold x; exact Eq.refl _); clear hv; clear_value x)
    | with_reducible apply WritesFields.ite
    | with_reducible apply WritesFields.via ((modPub_touches).writesFields _)
    | with_reducible apply WritesFields.via pubFlush_low
    | with_reducible apply WritesFields.via pubPut_low
    | with_reducible apply WritesFields.foldl
    | with_reducible apply WritesFields.foldl2
    | (intro _; intros; try beta_reduce)

theorem postReply_low {s : State} {n : Nat} :
    WritesFields lowPages [] s (State.postReply s n) := by
  unfold State.postReply
  repeat' first
    | with_reducible assumption
    | with_reducible exact WritesFields.refl _ _ _
    | (extract_lets +onlyGivenNames x; refine WritesFields.cut (k := lowPages) (W := []) (s := s) (t := x) ?_ (fun hx => ?_); (on_goal 1 => (unfold x; clear x)); (on_goal 2 => clear_value x))
    | (extract_lets +onlyGivenNames x; (have hv : x = x := by unfold x; exact Eq.refl _); clear hv; clear_value x)
    | with_reducible apply WritesFields.ite
    | with_reducible apply WritesFields.via (setF_above (f := F.TMC_MBX_STATUS_QUEUED.pg _) (le_key_pg (by decide) _))
    | with_reducible apply WritesFields.via (setF_above (f := F.TMC_MBX_STATUS_REPLY_LEN.pg _) (le_key_pg (by decide) _))
    | with_reducible apply WritesFields.via (setF_above (f := F.TMC_MBX_STATUS_REPLY_READY.pg _) (le_key_pg (by decide) _))
    | with_reducible apply WritesFields.via ((modSess_touches).writesFields _)
    | with_reducible apply WritesFields.via ((wrOctets_touches).writesFields _)
    | with_reducible apply WritesFields.via event_low
    | (intro _)
    | split

theorem putReplies_low {s : State} {n : Nat} {f : List Reply → List Reply} :
    WritesFields lowPages [] s (State.putReplies s n f) := by
  unfold State.putReplies
  repeat' first
    | with_reducible assumption
    | with_reducible exact WritesFields.refl _ _ _
    | with_reducible apply WritesFields.ite
    | with_reducible apply WritesFields.via ((modSess_touches).writesFields _)
    | with_reducible apply WritesFields.via postReply_low

theorem answer_low {s : State} {q : Req} {op flags status : Nat} {params : Octets} {final deliver : Bool} :
    WritesFields lowPages [] s (State.answer s q op flags status params final deliver) := by
  unfold State.answer
  repeat' first
    | with_reducible assumption
    | with_reducible exact WritesFields.refl _ _ _
    | (extract_lets +onlyGivenNames x; refine WritesFields.cut (k := lowPages) (W := []) (s := s) (t := x) ?_ (fun hx => ?_); (on_goal 1 => (unfold x; clear x)); (on_goal 2 => clear_value x))
    | with_reducible apply WritesFields.ite
    | with_reducible apply WritesFields.via ((modSess_touches).writesFields _)
    | with_reducible apply WritesFields.via putReplies_low

theorem prcBump_low {s : State} {n : Nat} :
    WritesFields lowPages [] s (State.prcBump s n) := by
  unfold State.prcBump
  repeat' first
    | with_reducible assumption
    | with_reducible exact WritesFields.refl _ _ _
    | with_reducible apply WritesFields.via (bump_above (f := F.PRC_CNT_COUNT.nth _) (le_key_nth (by decide) _))

theorem sendEdge_low {s0 s : State} :
    WritesFields lowPages [] s (State.sendEdge s0 s) := by
  unfold State.sendEdge
  repeat' first
    | with_reducible assumption
    | with_reducible exact WritesFields.refl _ _ _
    | with_reducible apply WritesFields.ite
    | with_reducible apply WritesFields.via ((pubSilence_touches).writesFields _)
    | with_reducible apply WritesFields.via pubTakeover_low

theorem dropLease_low {s : State} :
    WritesFields lowPages [] s (State.dropLease s) := by
  unfold State.dropLease
  repeat' first
    | with_reducible assumption
    | with_reducible exact WritesFields.refl _ _ _
    | with_reducible apply WritesFields.ite
    | with_reducible apply WritesFields.via (setF_above (f := F.PRC_STATUS_LEASE) (by decide))
    | with_reducible apply WritesFields.via prcBump_low

theorem renewLease_low {s : State} :
    WritesFields lowPages [] s (State.renewLease s) := by
  unfold State.renewLease
  repeat' first
    | with_reducible assumption
    | with_reducible exact WritesFields.refl _ _ _
    | (dsimp only [WritesFields.mk_eq]; with_reducible apply WritesRegs.of)
    | with_reducible apply WritesFields.via (setF_above (f := F.PRC_STATUS_LEASE) (by decide))

theorem setRole_low {s : State} {r reason : Nat} :
    WritesFields lowPages [] s (State.setRole s r reason) := by
  unfold State.setRole
  repeat' first
    | with_reducible assumption
    | with_reducible exact WritesFields.refl _ _ _
    | (dsimp only [WritesFields.mk_eq]; with_reducible apply WritesRegs.of)
    | with_reducible apply WritesFields.ite
    | with_reducible apply WritesFields.via (setF_above (f := F.PRC_STATUS_ALIGNED) (by decide))
    | with_reducible apply WritesFields.via (setF_above (f := F.PRC_STATUS_FENCE_REASON) (by decide))
    | with_reducible apply WritesFields.via (setF_above (f := F.PRC_STATUS_ROLE) (by decide))
    | with_reducible apply WritesFields.via prcBump_low
    | with_reducible apply WritesFields.via ((dropParts_touches).writesFields _)

theorem switchReply_low {s : State} {status : Nat} :
    WritesFields lowPages [] s (State.switchReply s status) := by
  unfold State.switchReply
  repeat' first
    | with_reducible assumption
    | with_reducible exact WritesFields.refl _ _ _
    | (dsimp only [WritesFields.mk_eq]; with_reducible apply WritesRegs.of)
    | (extract_lets +onlyGivenNames x; refine WritesFields.cut (k := lowPages) (W := []) (s := s) (t := x) ?_ (fun hx => ?_); (on_goal 1 => (unfold x; clear x)); (on_goal 2 => clear_value x))
    | (extract_lets +onlyGivenNames x; (have hv : x = x := by unfold x; exact Eq.refl _); clear hv; clear_value x)
    | with_reducible apply WritesFields.ite
    | with_reducible apply WritesFields.via answer_low
    | split

theorem endSwitch_low {s : State} {status : Nat} :
    WritesFields lowPages [] s (State.endSwitch s status) := by
  unfold State.endSwitch
  repeat' first
    | with_reducible assumption
    | with_reducible exact WritesFields.refl _ _ _
    | (dsimp only [WritesFields.mk_eq]; with_reducible apply WritesRegs.of)
    | (extract_lets +onlyGivenNames x; refine WritesFields.cut (k := lowPages) (W := []) (s := s) (t := x) ?_ (fun hx => ?_); (on_goal 1 => (unfold x; clear x)); (on_goal 2 => clear_value x))
    | (extract_lets +onlyGivenNames x; (have hv : x = x := by unfold x; exact Eq.refl _); clear hv; clear_value x)
    | with_reducible apply WritesFields.via (setF_above (f := F.PRC_STATUS_SWITCHING) (by decide))
    | with_reducible apply WritesFields.via switchReply_low

theorem fence_low {s : State} {reason : Nat} :
    WritesFields lowPages [] s (State.fence s reason) := by
  unfold State.fence
  repeat' first
    | with_reducible assumption
    | with_reducible exact WritesFields.refl _ _ _
    | with_reducible apply WritesFields.via sendEdge_low
    | with_reducible apply WritesFields.via (setF_above (f := F.PRC_STATUS_GAP) (by decide))
    | with_reducible apply WritesFields.via dropLease_low
    | with_reducible apply WritesFields.via setRole_low
    | with_reducible apply WritesFields.via endSwitch_low

theorem takeSending_low {s : State} {r : Nat} {gap : Bool} :
    WritesFields lowPages [] s (State.takeSending s r gap) := by
  unfold State.takeSending
  repeat' first
    | with_reducible assumption
    | with_reducible exact WritesFields.refl _ _ _
    | (dsimp only [WritesFields.mk_eq]; with_reducible apply WritesRegs.of)
    | (extract_lets +onlyGivenNames x; refine WritesFields.cut (k := lowPages) (W := []) (s := s) (t := x) ?_ (fun hx => ?_); (on_goal 1 => (unfold x; clear x)); (on_goal 2 => clear_value x))
    | (extract_lets +onlyGivenNames x; (have hv : x = x := by unfold x; exact Eq.refl _); clear hv; clear_value x)
    | with_reducible apply WritesFields.ite
    | with_reducible apply WritesFields.via (setF_above (f := F.PRC_EPOCH_EPOCH) (by decide))
    | with_reducible apply WritesFields.via (setF_above (f := F.PRC_STATUS_GAP) (by decide))
    | with_reducible apply WritesFields.via renewLease_low
    | with_reducible apply WritesFields.via sendEdge_low
    | with_reducible apply WritesFields.via setRole_low

theorem singleAlone_low {s : State} :
    WritesFields lowPages [] s (State.singleAlone s) := by
  unfold State.singleAlone
  repeat' first
    | with_reducible assumption
    | with_reducible exact WritesFields.refl _ _ _
    | with_reducible apply WritesFields.ite
    | with_reducible apply WritesFields.via takeSending_low

theorem refreshReady_low {s : State} :
    WritesFields lowPages [F.TMC_START_STATUS_COND, F.TMC_START_STATUS_READY] s (State.refreshReady s) := by
  unfold State.refreshReady
  repeat' first
    | with_reducible assumption
    | with_reducible exact WritesFields.refl _ _ _
    | (dsimp only [WritesFields.mk_eq]; with_reducible apply WritesRegs.of)
    | (extract_lets +onlyGivenNames x; (have hv : x = x := by unfold x; exact Eq.refl _); clear hv; clear_value x)
    | with_reducible apply WritesFields.via (setB_above (f := F.PRC_STATUS_READY) (by decide))
    | with_reducible apply WritesFields.via (setB_writes (f := F.TMC_START_STATUS_READY))
    | with_reducible apply WritesFields.via (setF_writes (f := F.TMC_START_STATUS_COND))
    | with_reducible apply WritesFields.via singleAlone_low

theorem evalReady_low {s : State} :
    WritesFields lowPages [F.TMC_START_STATUS_COND, F.TMC_START_STATUS_READY] s (State.evalReady s) := by
  unfold State.evalReady
  repeat' first
    | with_reducible assumption
    | with_reducible exact WritesFields.refl _ _ _
    | with_reducible apply WritesFields.via pubFlush_low
    | with_reducible apply WritesFields.via refreshReady_low

theorem showFlash_low {s : State} :
    WritesFields lowPages [F.PHM_BG_STATUS_FLASH_RO, F.PHM_FLASH_STAT_EC_MAX, F.PHM_FLASH_STAT_EC_MEAN, F.PHM_FLASH_STAT_RETIRED, F.PHM_FLASH_STAT_SPARE_FREE] s (State.showFlash s) := by
  unfold State.showFlash
  repeat' first
    | with_reducible assumption
    | with_reducible exact WritesFields.refl _ _ _
    | (extract_lets +onlyGivenNames x; refine WritesFields.cut (k := lowPages) (W := [F.PHM_BG_STATUS_FLASH_RO, F.PHM_FLASH_STAT_EC_MAX, F.PHM_FLASH_STAT_EC_MEAN, F.PHM_FLASH_STAT_RETIRED, F.PHM_FLASH_STAT_SPARE_FREE]) (s := s) (t := x) ?_ (fun hx => ?_); (on_goal 1 => (unfold x; clear x)); (on_goal 2 => clear_value x))
    | (extract_lets +onlyGivenNames x; (have hv : x = x := by unfold x; exact Eq.refl _); clear hv; clear_value x)
    | with_reducible apply WritesFields.via (setB_writes (f := F.PHM_BG_STATUS_FLASH_RO))
    | with_reducible apply WritesFields.via (setF_writes (f := F.PHM_FLASH_STAT_EC_MAX))
    | with_reducible apply WritesFields.via (setF_writes (f := F.PHM_FLASH_STAT_EC_MEAN))
    | with_reducible apply WritesFields.via (setF_writes (f := F.PHM_FLASH_STAT_RETIRED))
    | with_reducible apply WritesFields.via (setF_writes (f := F.PHM_FLASH_STAT_SPARE_FREE))

theorem pauseWork_low {s : State} :
    WritesFields lowPages [F.PHM_BG_STATUS_MEAS_RUNNING, F.PHM_BG_STATUS_PAUSED] s (State.pauseWork s) := by
  unfold State.pauseWork
  repeat' first
    | with_reducible assumption
    | with_reducible exact WritesFields.refl _ _ _
    | (extract_lets +onlyGivenNames x; refine WritesFields.cut (k := lowPages) (W := [F.PHM_BG_STATUS_MEAS_RUNNING, F.PHM_BG_STATUS_PAUSED]) (s := s) (t := x) ?_ (fun hx => ?_); (on_goal 1 => (unfold x; clear x)); (on_goal 2 => clear_value x))
    | with_reducible apply WritesFields.ite
    | with_reducible apply WritesFields.via (setF_writes (f := F.PHM_BG_STATUS_MEAS_RUNNING))
    | with_reducible apply WritesFields.via (setF_writes (f := F.PHM_BG_STATUS_PAUSED))
    | with_reducible apply WritesFields.via ((modHlt_touches).writesFields _)

theorem resumeWork_low {s : State} :
    WritesFields lowPages [F.PHM_BG_STATUS_FLASH_DEFERRED, F.PHM_BG_STATUS_PAUSED] s (State.resumeWork s) := by
  unfold State.resumeWork
  repeat' first
    | with_reducible assumption
    | with_reducible exact WritesFields.refl _ _ _
    | (dsimp only [WritesFields.mk_eq]; with_reducible apply WritesRegs.of)
    | (extract_lets +onlyGivenNames x; refine WritesFields.cut (k := lowPages) (W := [F.PHM_BG_STATUS_FLASH_DEFERRED, F.PHM_BG_STATUS_PAUSED]) (s := s) (t := x) ?_ (fun hx => ?_); (on_goal 1 => (unfold x; clear x)); (on_goal 2 => clear_value x))
    | (extract_lets +onlyGivenNames x; (have hv : x = x := by unfold x; exact Eq.refl _); clear hv; clear_value x)
    | with_reducible apply WritesFields.via (setF_writes (f := F.PHM_BG_STATUS_FLASH_DEFERRED))
    | with_reducible apply WritesFields.via (setF_writes (f := F.PHM_BG_STATUS_PAUSED))
    | with_reducible apply WritesFields.via ((modHlt_touches).writesFields _)

theorem showSupply_low {s : State} :
    WritesFields lowPages [F.PHM_SUPPLY_STATUS_FEED_A_OK, F.PHM_SUPPLY_STATUS_FEED_B_OK, F.PHM_SUPPLY_STATUS_IOSEL, F.PHM_SUPPLY_STATUS_PAIRSEL, F.PHM_SUPPLY_STATUS_RETURN_PENDING, F.PHM_SUPPLY_STATUS_RIDE, F.PHM_SUPPLY_STATUS_VANA_OK, F.PHM_SUPPLY_STATUS_VBUS, F.PHM_SUPPLY_STATUS_VCORE_OK, F.PHM_SUPPLY_STATUS_VIO_CAR_STATE, F.PHM_SUPPLY_STATUS_VIO_OK] s (State.showSupply s) := by
  unfold State.showSupply
  repeat' first
    | with_reducible assumption
    | with_reducible exact WritesFields.refl _ _ _
    | (extract_lets +onlyGivenNames x; refine WritesFields.cut (k := lowPages) (W := [F.PHM_SUPPLY_STATUS_FEED_A_OK, F.PHM_SUPPLY_STATUS_FEED_B_OK, F.PHM_SUPPLY_STATUS_IOSEL, F.PHM_SUPPLY_STATUS_PAIRSEL, F.PHM_SUPPLY_STATUS_RETURN_PENDING, F.PHM_SUPPLY_STATUS_RIDE, F.PHM_SUPPLY_STATUS_VANA_OK, F.PHM_SUPPLY_STATUS_VBUS, F.PHM_SUPPLY_STATUS_VCORE_OK, F.PHM_SUPPLY_STATUS_VIO_CAR_STATE, F.PHM_SUPPLY_STATUS_VIO_OK]) (s := s) (t := x) ?_ (fun hx => ?_); (on_goal 1 => (unfold x; clear x)); (on_goal 2 => clear_value x))
    | (extract_lets +onlyGivenNames x; refine WritesFields.cut2 (k := lowPages) (W := [F.PHM_SUPPLY_STATUS_FEED_A_OK, F.PHM_SUPPLY_STATUS_FEED_B_OK, F.PHM_SUPPLY_STATUS_IOSEL, F.PHM_SUPPLY_STATUS_PAIRSEL, F.PHM_SUPPLY_STATUS_RETURN_PENDING, F.PHM_SUPPLY_STATUS_RIDE, F.PHM_SUPPLY_STATUS_VANA_OK, F.PHM_SUPPLY_STATUS_VBUS, F.PHM_SUPPLY_STATUS_VCORE_OK, F.PHM_SUPPLY_STATUS_VIO_CAR_STATE, F.PHM_SUPPLY_STATUS_VIO_OK]) (s := s) (x := x) ?_ (fun hx => ?_); (on_goal 1 => (unfold x; clear x)); (on_goal 2 => clear_value x))
    | (extract_lets +onlyGivenNames x; (have hv : x = x := by unfold x; exact Eq.refl _); clear hv; clear_value x)
    | with_reducible apply WritesFields.ite
    | with_reducible apply WritesFields.via ((tenMv_touches).writesFields _)
    | with_reducible apply WritesFields.via (setB_writes (f := F.PHM_SUPPLY_STATUS_FEED_A_OK))
    | with_reducible apply WritesFields.via (setB_writes (f := F.PHM_SUPPLY_STATUS_FEED_B_OK))
    | with_reducible apply WritesFields.via (setB_writes (f := F.PHM_SUPPLY_STATUS_IOSEL))
    | with_reducible apply WritesFields.via (setB_writes (f := F.PHM_SUPPLY_STATUS_PAIRSEL))
    | with_reducible apply WritesFields.via (setB_writes (f := F.PHM_SUPPLY_STATUS_RETURN_PENDING))
    | with_reducible apply WritesFields.via (setB_writes (f := F.PHM_SUPPLY_STATUS_RIDE))
    | with_reducible apply WritesFields.via (setB_writes (f := F.PHM_SUPPLY_STATUS_VANA_OK))
    | with_reducible apply WritesFields.via (setB_writes (f := F.PHM_SUPPLY_STATUS_VCORE_OK))
    | with_reducible apply WritesFields.via (setB_writes (f := F.PHM_SUPPLY_STATUS_VIO_OK))
    | with_reducible apply WritesFields.via (setF_writes (f := F.PHM_SUPPLY_STATUS_VBUS))
    | with_reducible apply WritesFields.via (setF_writes (f := F.PHM_SUPPLY_STATUS_VIO_CAR_STATE))

theorem setFault_low {s : State} {b : Nat} :
    WritesFields lowPages [faultField b, F.TMC_START_STATUS_COND, F.TMC_START_STATUS_READY] s (State.setFault s b) := by
  unfold State.setFault
  exact .ite (.refl _ _ _) (.via evalReady_low (.via belfry_low (.via setF_writes (.refl _ _ _))))

theorem pwrokRise_low {s : State} :
    WritesFields lowPages [F.PHM_KEEP_CNT_POWER_CYCLES] s (State.pwrokRise s) := by
  unfold State.pwrokRise
  repeat' first
    | with_reducible assumption
    | with_reducible exact WritesFields.refl _ _ _
    | with_reducible apply WritesFields.via ((modSup_touches).writesFields _)
    | with_reducible apply WritesFields.via (bump_writes (f := F.PHM_KEEP_CNT_POWER_CYCLES))

theorem enterPrepare_low {s : State} :
    WritesFields lowPages [F.PHM_AGE_STATUS_AGE_STEP, F.PHM_AGE_STATUS_CORE_STEP, F.PHM_AGE_STATUS_VCORE_PLAN, F.PHM_BG_STATUS_FLASH_RO, F.PHM_BG_STATUS_MEAS_RUNNING, F.PHM_BG_STATUS_PAUSED, F.PHM_FLASH_STAT_EC_MAX, F.PHM_FLASH_STAT_EC_MEAN, F.PHM_FLASH_STAT_RETIRED, F.PHM_FLASH_STAT_SPARE_FREE, F.TMC_START_STATUS_PHASE] s (State.enterPrepare s) := by
  unfold State.enterPrepare
  repeat' first
    | with_reducible assumption
    | with_reducible exact WritesFields.refl _ _ _
    | (dsimp only [WritesFields.mk_eq]; with_reducible apply WritesRegs.of)
    | (extract_lets +onlyGivenNames x; refine WritesFields.cut (k := lowPages) (W := [F.PHM_AGE_STATUS_AGE_STEP, F.PHM_AGE_STATUS_CORE_STEP, F.PHM_AGE_STATUS_VCORE_PLAN, F.PHM_BG_STATUS_FLASH_RO, F.PHM_BG_STATUS_MEAS_RUNNING, F.PHM_BG_STATUS_PAUSED, F.PHM_FLASH_STAT_EC_MAX, F.PHM_FLASH_STAT_EC_MEAN, F.PHM_FLASH_STAT_RETIRED, F.PHM_FLASH_STAT_SPARE_FREE, F.TMC_START_STATUS_PHASE]) (s := s) (t := x) ?_ (fun hx => ?_); (on_goal 1 => (unfold x; clear x)); (on_goal 2 => clear_value x))
    | (extract_lets +onlyGivenNames x; (have hv : x = x := by unfold x; exact Eq.refl _); clear hv; clear_value x)
    | with_reducible apply WritesFields.ite
    | with_reducible apply WritesFields.via (setB_above (f := F.BLF_STATUS_FIRST_FULL) (by decide))
    | with_reducible apply WritesFields.via (setF_above (f := F.BLF_NEXT_RSEQ_RSEQ) (by decide))
    | with_reducible apply WritesFields.via (setF_writes (f := F.PHM_AGE_STATUS_AGE_STEP))
    | with_reducible apply WritesFields.via (setF_writes (f := F.PHM_AGE_STATUS_CORE_STEP))
    | with_reducible apply WritesFields.via (setF_writes (f := F.PHM_AGE_STATUS_VCORE_PLAN))
    | with_reducible apply WritesFields.via (setF_writes (f := F.TMC_START_STATUS_PHASE))
    | with_reducible apply WritesFields.via pauseWork_low
    | with_reducible apply WritesFields.via ((modSup_touches).writesFields _)
    | with_reducible apply WritesFields.via flushStaged_low
    | with_reducible apply WritesFields.via belfry_low
    | with_reducible apply WritesFields.via showFlash_low
    | with_reducible apply WritesFields.via ((dreRecover_touches).writesFields _)

theorem tryEndReset_low {s : State} :
    WritesFields lowPages [F.PHM_AGE_STATUS_AGE_STEP, F.PHM_AGE_STATUS_CORE_STEP, F.PHM_AGE_STATUS_VCORE_PLAN, F.PHM_BG_STATUS_FLASH_RO, F.PHM_BG_STATUS_MEAS_RUNNING, F.PHM_BG_STATUS_PAUSED, F.PHM_FLASH_STAT_EC_MAX, F.PHM_FLASH_STAT_EC_MEAN, F.PHM_FLASH_STAT_RETIRED, F.PHM_FLASH_STAT_SPARE_FREE, F.TMC_START_STATUS_PHASE] s (State.tryEndReset s) := by
  unfold State.tryEndReset
  repeat' first
    | with_reducible assumption
    | with_reducible exact WritesFields.refl _ _ _
    | (extract_lets +onlyGivenNames x; refine WritesFields.cut (k := lowPages) (W := [F.PHM_AGE_STATUS_AGE_STEP, F.PHM_AGE_STATUS_CORE_STEP, F.PHM_AGE_STATUS_VCORE_PLAN, F.PHM_BG_STATUS_FLASH_RO, F.PHM_BG_STATUS_MEAS_RUNNING, F.PHM_BG_STATUS_PAUSED, F.PHM_FLASH_STAT_EC_MAX, F.PHM_FLASH_STAT_EC_MEAN, F.PHM_FLASH_STAT_RETIRED, F.PHM_FLASH_STAT_SPARE_FREE, F.TMC_START_STATUS_PHASE]) (s := s) (t := x) ?_ (fun hx => ?_); (on_goal 1 => (unfold x; clear x)); (on_goal 2 => clear_value x))
    | with_reducible apply WritesFields.ite
    | with_reducible apply WritesFields.via ((sampleStraps_touches).writesFields _)
    | with_reducible apply WritesFields.via ((modSup_touches).writesFields _)
    | with_reducible apply WritesFields.via enterPrepare_low
    | with_reducible apply WritesFields.via ((drivePins_touches).writesFields _)

end Sys2Proof.Machine
end

section
/-! O14: the rails come up in their order and are taken down, and PHM.SUPPLY_STATUS shows the measurement. -/
namespace Sys2Proof.Machine

-- one proof after the other: started together they wait on each other's results, each in a thread of its own
set_option Elab.async false

/-! ### The island's start -/

/-- The key of the first field of the island's pages. -/
def islandKey : Nat := 0x5000100000 * 64

theorem showOuts_above {s : State} :
    WritesFields islandKey [] s (State.showOuts s) := by
  unfold State.showOuts
  repeat' first
    | with_reducible assumption
    | with_reducible exact WritesFields.refl _ _ _
    | (extract_lets +onlyGivenNames x; (have hv : x = x := by unfold x; exact Eq.refl _); clear hv; clear_value x)
    | with_reducible apply WritesFields.via (setF_above (f := F.PSC_STATUS_ENERGISED) (by decide))
    | with_reducible apply WritesFields.via (setF_above (f := F.PSC_STATUS_OUT_FAULT) (by decide))

theorem showPsc_above {s : State} :
    WritesFields islandKey [] s (State.showPsc s) := by
  unfold State.showPsc
  repeat' first
    | with_reducible assumption
    | with_reducible exact WritesFields.refl _ _ _
    | (extract_lets +onlyGivenNames x; refine WritesFields.cut (k := islandKey) (W := []) (s := s) (t := x) ?_ (fun hx => ?_); (on_goal 1 => (unfold x; clear x)); (on_goal 2 => clear_value x))
    | (extract_lets +onlyGivenNames x; (have hv : x = x := by unfold x; exact Eq.refl _); clear hv; clear_value x)
    | with_reducible apply WritesFields.via (setB_above (f := F.PSC_ARC_CH_STAT_LIGHT.nth _) (le_key_nth (by decide) _))
    | with_reducible apply WritesFields.via (setB_above (f := F.PSC_ARC_CH_STAT_SENS_FAULT.nth _) (le_key_nth (by decide) _))
    | with_reducible apply WritesFields.via (setF_above (f := F.PSC_ARC_INST_STAT_OK) (by decide))
    | with_reducible apply WritesFields.via (setF_above (f := F.PSC_ARC_INST_STAT_WAIT_CUR) (by decide))
    | with_reducible apply WritesFields.via (setF_above (f := F.PSC_FUNC_STAT_DOOR_OK) (by decide))
    | with_reducible apply WritesFields.via (setF_above (f := F.PSC_FUNC_STAT_ETP_OK) (by decide))
    | with_reducible apply WritesFields.via (setF_above (f := F.PSC_FUNC_STAT_THL_PERMIT) (by decide))
    | with_reducible apply WritesFields.via (setF_above (f := F.PSC_IN_STAT_CLOSED) (by decide))
    | with_reducible apply WritesFields.via (setF_above (f := F.PSC_IN_STAT_FAULT) (by decide))
    | with_reducible apply WritesFields.via showOuts_above
    | with_reducible apply WritesFields.forN
    | apply kx
    | (intro _; intros; try beta_reduce)


/-- The island's start writes fields of its own pages alone. -/
theorem islandStart_above (s : State) : WritesFields islandKey [] s s.islandStart := by
  unfold State.islandStart State.clearFields
  refine .via showPsc_above (.via (setF_above (by decide)) ?_)
  refine .via (setF_above (by decide)) (.via (setF_above (by decide)) (.via (setF_above (by decide)) ?_))
  exact (WritesFields.refl _ _ s).of_regs rfl

theorem get_of_regs {s t : State} (h : t.regs = s.regs) (g : Field) : t.get g = s.get g := by
  rw [State.get, State.get, h]

/-! ### The supply record through start-up -/

@[simp] theorem belfry_sup (s : State) (kind code source : Nat) (payload : List Nat) :
    (s.belfry kind code source payload).sup = s.sup := belfry_touches.sup_eq

@[simp] theorem dreRecover_sup (s : State) : s.dreRecover.sup = s.sup := dreRecover_touches.sup_eq

@[simp] theorem flushStaged_sup (s : State) : s.flushStaged.sup = s.sup := flushStaged_touches.sup_eq

@[simp] theorem showFlash_sup (s : State) : s.showFlash.sup = s.sup := showFlash_touches.sup_eq

@[simp] theorem pauseWork_sup (s : State) : s.pauseWork.sup = s.sup := pauseWork_touches.sup_eq

@[simp] theorem islandStart_sup (s : State) : s.islandStart.sup = s.sup := islandStart_touches.sup_eq

@[simp] theorem modSup_sup (s : State) (f : Supply → Supply) : (s.modSup f).sup = f s.sup := rfl

/-- The work that a ride-through pauses, before VCORE is set, leaves the supply record. -/
def State.pausedIfRiding (s : State) : State := if s.sup.mode = .rideThrough then s.pauseWork else s

@[simp] theorem pausedIfRiding_sup (s : State) : s.pausedIfRiding.sup = s.sup := by
  unfold State.pausedIfRiding
  split
  · exact pauseWork_sup s
  · rfl

/-- PREPARE sets VCORE as planned and starts the cores; the rest of the supply record stays. -/
theorem enterPrepare_sup (s : State) : ∃ v, s.enterPrepare.sup = { s.sup with vcore := v, coresUp := true } := by
  have hpaused := pausedIfRiding_sup (s.setF F.TMC_START_STATUS_PHASE 2)
  refine ⟨(s.setF F.TMC_START_STATUS_PHASE 2).pausedIfRiding.vcorePlan, ?_⟩
  unfold State.enterPrepare
  rw [showFlash_sup]
  dsimp only
  rw [apply_ite State.sup]
  simp only [belfry_sup, ite_self, flushStaged_sup, dreRecover_sup, State.setB_sup, State.setF_sup]
  exact congrArg (fun u : Supply => { u with vcore := (s.setF F.TMC_START_STATUS_PHASE 2).pausedIfRiding.vcorePlan, coresUp := true }) hpaused

theorem sampleStraps_sup (s : State) :
    s.sampleStraps.sup = { s.sup with iosel := s.sup.pinIosel, pairsel := s.sup.pinPairsel, strapped := true } := rfl

/-- What the end of a reset keeps of the supply record. -/
theorem tryEndReset_sup (s : State) :
    s.tryEndReset.sup.pwrok = s.sup.pwrok ∧ s.tryEndReset.sup.mode = s.sup.mode ∧ s.tryEndReset.sup.rails = s.sup.rails := by
  unfold State.tryEndReset
  split
  · exact ⟨rfl, rfl, rfl⟩
  · obtain ⟨v, hv⟩ := enterPrepare_sup
      (((if s.sup.strapped then s else s.sampleStraps).modSup (fun u => { u with inCold := false })).drivePins)
    dsimp only
    rw [hv]
    cases s.sup.strapped <;> exact ⟨rfl, rfl, rfl⟩

theorem tryEndReset_of_not_inCold {s : State} (h : s.sup.inCold = false) : s.tryEndReset = s := by
  rw [State.tryEndReset, h]
  rfl

/-! ### A measurement -/

theorem vbusAt_sup {s : State} (h : s.sup.inCold = false) (mv : Nat) :
    ∃ r, (s.vbusAt mv).sup = { s.sup with vbus := mv, rideMin := r } := by
  refine ⟨if s.sup.mode = .rideThrough then min s.sup.rideMin mv else s.sup.rideMin, ?_⟩
  simp [State.vbusAt, State.modSup, h]

theorem vioMeasured_sup (s : State) (mv : Nat) :
    ∃ since ever, (s.vioMeasured mv).sup = { s.sup with vioCar := mv, vioSince := since, vioEver := ever } := ⟨_, _, rfl⟩

theorem debugPins_sup (s : State) (en sel : Bool) : (s.debugPins en sel).sup = { s.sup with dbgEn := en, dbgSel := sel } := by
  cases en <;> rfl

/-- What a measurement outside a cold reset leaves of the supply record. -/
theorem measured_sup {s : State} (h : s.sup.inCold = false) (x : SupplySample) :
    ∃ r since ever, (s.measured x).sup = { s.sup with
      feedA := x.feedA, feedB := x.feedB, railsOk := x.rails, vbus := x.vbus, rideMin := r, vioCar := x.vioCar, vioSince := since
      vioEver := ever, dbgEn := x.dbgEn, dbgSel := x.dbgSel } := by
  obtain ⟨r, hr⟩ := vbusAt_sup
    (s := s.modSup (fun u => { u with feedA := x.feedA, feedB := x.feedB, railsOk := x.rails })) h x.vbus
  obtain ⟨since, ever, hv⟩ := vioMeasured_sup
    ((s.modSup (fun u => { u with feedA := x.feedA, feedB := x.feedB, railsOk := x.rails })).vbusAt x.vbus) x.vioCar
  refine ⟨r, since, ever, ?_⟩
  rw [State.measured, debugPins_sup, hv, hr]
  rfl

theorem vioState_congr {s t : State} (h : t.sup.iosel = s.sup.iosel) (mv : Nat) : t.vioState mv = s.vioState mv := by
  rw [State.vioState, State.vioState, h]

theorem vioState_le (s : State) (mv : Nat) : s.vioState mv ≤ 2 := by
  unfold State.vioState
  split_ifs <;> omega

theorem openDiv_of_dvd {s : State} {a : Int} {b : Nat} (h : a % b = 0) : s.openDiv a b = (a / b, s) := if_pos h

theorem tenMv_of_dvd {s : State} {mv : Nat} (h : 10 ∣ mv) (w : Nat) : (s.tenMv w mv).1 = min (mv / 10) (2 ^ w - 1) := by
  have hmod : (mv : Int) % (10 : Nat) = 0 := by omega
  have hdiv : ((mv : Int) / (10 : Nat)).toNat = mv / 10 := by omega
  rw [State.tenMv, openDiv_of_dvd hmod]
  exact congrArg (min · (2 ^ w - 1)) hdiv

theorem b2n_bit (b : Bool) : (b2n b % 2 ^ 1 != 0) = b := by cases b <;> rfl

/-- R66: what PHM.SUPPLY_STATUS shows of a supply record outside a cold reset. -/
theorem showSupply_shows {s : State} (h : s.sup.inCold = false) :
    s.showSupply.sup = s.sup ∧ s.showSupply.mem = s.mem ∧
      s.showSupply.flag F.PHM_SUPPLY_STATUS_FEED_A_OK = decide (8500 ≤ s.sup.feedA) ∧
      s.showSupply.flag F.PHM_SUPPLY_STATUS_FEED_B_OK = decide (8500 ≤ s.sup.feedB) ∧
      s.showSupply.flag F.PHM_SUPPLY_STATUS_VCORE_OK = bit 0 s.sup.railsOk ∧
      s.showSupply.flag F.PHM_SUPPLY_STATUS_VIO_OK = bit 1 s.sup.railsOk ∧
      s.showSupply.flag F.PHM_SUPPLY_STATUS_VANA_OK = bit 2 s.sup.railsOk ∧
      s.showSupply.get F.PHM_SUPPLY_STATUS_VIO_CAR_STATE = s.vioState s.sup.vioCar ∧
      s.showSupply.flag F.PHM_SUPPLY_STATUS_RIDE = (s.sup.mode == .rideThrough) ∧
      s.showSupply.flag F.PHM_SUPPLY_STATUS_RETURN_PENDING = (s.sup.rideEnd != 0) ∧
      (10 ∣ s.sup.vbus → s.showSupply.get F.PHM_SUPPLY_STATUS_VBUS = min (s.sup.vbus / 10) (2 ^ 11 - 1)) := by
  have hframe : Touches [.regs, .free] s s.showSupply := showSupply_touches
  refine ⟨hframe.sup_eq, hframe.mem_eq, ?_⟩
  unfold State.showSupply
  rw [h, if_neg Bool.false_ne_true]
  have hvio : (s.tenMv 11 s.sup.vbus).2.vioState s.sup.vioCar = s.vioState s.sup.vioCar :=
    vioState_congr (by rw [(tenMv_touches (s := s)).sup_eq]) _
  have hten := fun hd => tenMv_of_dvd (s := s) (mv := s.sup.vbus) hd 11
  have hlt : s.vioState s.sup.vioCar < 2 ^ 2 := by have := vioState_le s s.sup.vioCar; omega
  refine ⟨?_, ?_, ?_, ?_, ?_, ?_, ?_, ?_, ?_⟩
  all_goals simp (disch := decide) only [State.flag, State.setB, State.get_setF_ne, State.get_setF_same]
  case refine_6 => exact Nat.mod_eq_of_lt hlt
  case refine_9 => exact fun hd => (congrArg (· % 2 ^ 11) (hten hd)).trans (min_mod_width _ 11)
  all_goals exact b2n_bit _

/-! ### The rails -/

/-- What POWER_UP leaves when it starts VCORE, before the island. -/
def State.vcoreStarted (s : State) (x : SupplySample) : State :=
  ((((s.measured x).sampleStraps.loadTime (s.freeVal 48)).drawn).setF F.TMC_START_STATUS_PHASE 1).modSup (fun u => { u with
    started := 1, rails := 0, railsOk := 0, downAt := none, vcore := Config.vcoreInit })

theorem powerUp_starts {s : State} {fa : Bool} {x : SupplySample} (hstarted : s.sup.started = 0) (hmode : s.sup.mode = .reset)
    (hkeep : s.sup.vkeepLow = false) (hfeed : 9000 ≤ (if fa then x.feedA else x.feedB)) (hbus : 8850 < x.vbus) :
    powerUp fa x s = if (s.vcoreStarted x).flag F.TMC_MODULE_ID_SAFETY_EN then (s.vcoreStarted x).islandStart else s.vcoreStarted x := by
  have hguard : ¬ (s.sup.started ≠ 0 ∨ s.sup.mode ≠ .reset ∨ s.sup.vkeepLow ∨ (if fa then x.feedA else x.feedB) < 9000 ∨ x.vbus ≤ 8850) := by
    rw [hstarted, hmode, hkeep]
    rintro (h | h | h | h | h)
    · exact h rfl
    · exact h rfl
    · exact Bool.false_ne_true h
    · omega
    · omega
  rw [powerUp, if_neg hguard]
  rfl

theorem vbusAt_vbus (s : State) (mv : Nat) : (s.vbusAt mv).sup.vbus = mv := by
  unfold State.vbusAt
  dsimp only
  split <;> rfl

theorem measured_vbus (s : State) (x : SupplySample) : (s.measured x).sup.vbus = x.vbus := by
  rw [State.measured, debugPins_sup]
  exact vbusAt_vbus _ _

theorem measured_vioCar (s : State) (x : SupplySample) : (s.measured x).sup.vioCar = x.vioCar := by
  rw [State.measured, debugPins_sup]
  rfl

/-- R54: POWER_UP starts VCORE with the feed at 9.0 V and VBUS above the return threshold. -/
theorem powerUp_next {s : State} {fa : Bool} {x : SupplySample} (hstarted : s.sup.started = 0) (hmode : s.sup.mode = .reset)
    (hkeep : s.sup.vkeepLow = false) (hfeed : 9000 ≤ (if fa then x.feedA else x.feedB)) (hbus : 8850 < x.vbus) :
    ∃ t, exec (.powerUp fa x) s = .next t ∧ t.sup.started = 1 ∧ t.sup.rails = 0 ∧ t.sup.railsOk = 0 ∧ t.sup.downAt = none ∧
      t.sup.vcore = Config.vcoreInit ∧ t.sup.vbus = x.vbus ∧ t.sup.vioCar = x.vioCar ∧ t.sup.strapped = true ∧
      t.get F.TMC_START_STATUS_PHASE = 1 ∧ t.mem = s.mem := by
  refine ⟨powerUp fa x s, exec_powerUp fa x s, ?_⟩
  rw [powerUp_starts hstarted hmode hkeep hfeed hbus]
  have hsup : ∀ t : State, t.sup = (s.vcoreStarted x).sup → t.sup.started = 1 ∧ t.sup.rails = 0 ∧ t.sup.railsOk = 0 ∧
      t.sup.downAt = none ∧ t.sup.vcore = Config.vcoreInit ∧ t.sup.vbus = x.vbus ∧ t.sup.vioCar = x.vioCar ∧ t.sup.strapped = true := by
    intro t ht
    rw [ht]
    exact ⟨rfl, rfl, rfl, rfl, rfl, measured_vbus s x, measured_vioCar s x, rfl⟩
  have hphase : (s.vcoreStarted x).get F.TMC_START_STATUS_PHASE = 1 := by
    rw [State.vcoreStarted, modSup_touches.get_eq]
    exact State.get_setF_same _ _ _
  have hmem : (s.vcoreStarted x).mem = s.mem := by
    have hm : Touches [.regs, .sup] s (s.measured x) := measured_touches
    exact hm.mem_eq
  split
  · have hisland := (islandStart_above (s.vcoreStarted x)).get_eq (g := F.TMC_START_STATUS_PHASE) (by decide) (by simp)
    obtain ⟨h1, h2, h3, h4, h5, h6, h7, h8⟩ := hsup _ (islandStart_sup _)
    exact ⟨h1, h2, h3, h4, h5, h6, h7, h8, hisland.trans hphase, (islandStart_touches.mem_eq).trans hmem⟩
  · obtain ⟨h1, h2, h3, h4, h5, h6, h7, h8⟩ := hsup _ rfl
    exact ⟨h1, h2, h3, h4, h5, h6, h7, h8, hphase, hmem⟩

theorem railInRegulation_eq {s : State} {r : Rail} (hrails : s.sup.rails = railPlace r) (hstarted : s.sup.started = railPlace r + 1) :
    railInRegulation r s =
      let t := s.modSup (fun u => { u with
        rails := railPlace r + 1, started := if s.sup.downAt.isSome then railPlace r + 1 else min 3 (railPlace r + 2)
        railsOk := putBits (railPlace r) (railPlace r) 1 u.railsOk })
      if railPlace r + 1 < 3 ∨ s.sup.vkeepLow ∨ s.sup.downAt.isSome then t
      else (t.modSup (fun u => { u with mode := .normal })).pwrokRise.tryEndReset := by
  have hguard : ¬ (s.sup.rails ≠ railPlace r ∨ s.sup.started ≠ railPlace r + 1) := by
    rw [hrails, hstarted]
    exact fun h => h.elim (· rfl) (· rfl)
  rw [railInRegulation, if_neg hguard]
  simp only [State.modSup, hrails, hstarted]

/-- R54: a rail in regulation, not the last, starts the next. -/
theorem railInRegulation_starts_next {s : State} {r : Rail} (hr : r ≠ .vana) (hrails : s.sup.rails = railPlace r)
    (hstarted : s.sup.started = railPlace r + 1) (hdown : s.sup.downAt = none) :
    exec (.railInRegulation r) s =
      .next { s with sup := { s.sup with rails := railPlace r + 1, started := railPlace r + 2
                                         railsOk := putBits (railPlace r) (railPlace r) 1 s.sup.railsOk } } := by
  have hplace : railPlace r + 1 < 3 := by cases r <;> simp_all [railPlace]
  have hmin : min 3 (railPlace r + 2) = railPlace r + 2 := by omega
  rw [exec_railInRegulation, execRailInRegulation, railInRegulation_eq hrails hstarted]
  simp only [hplace, true_or, if_true, hdown, Option.isSome_none, Bool.false_eq_true, if_false, hmin, State.modSup]

/-- R54: while the rails wait to be taken down a rail in regulation starts none. -/
theorem railInRegulation_waits {s : State} {r : Rail} {d : Time} (hrails : s.sup.rails = railPlace r)
    (hstarted : s.sup.started = railPlace r + 1) (hdown : s.sup.downAt = some d) :
    exec (.railInRegulation r) s =
      .next { s with sup := { s.sup with rails := railPlace r + 1
                                         railsOk := putBits (railPlace r) (railPlace r) 1 s.sup.railsOk } } := by
  rw [exec_railInRegulation, execRailInRegulation, railInRegulation_eq hrails hstarted]
  simp only [hdown, Option.isSome_some, or_true, if_true, State.modSup]
  rw [← hstarted]

/-- R54, R57: VANA in regulation raises MOD_PWROK and ends the reset. -/
theorem railInRegulation_vana {s : State} (hrails : s.sup.rails = 2) (hstarted : s.sup.started = 3) (hkeep : s.sup.vkeepLow = false)
    (hdown : s.sup.downAt = none) :
    ∃ t, exec (.railInRegulation .vana) s = .next t ∧ t.sup.pwrok = true ∧ t.sup.mode = .normal ∧ t.sup.rails = 3 ∧
      t = { s with sup := { s.sup with rails := 3, railsOk := putBits 2 2 1 s.sup.railsOk, mode := .normal } }.pwrokRise.tryEndReset := by
  obtain ⟨hpwrok, hmode, hplace⟩ := tryEndReset_sup
    { s with sup := { s.sup with rails := 3, railsOk := putBits 2 2 1 s.sup.railsOk, mode := .normal } }.pwrokRise
  refine ⟨_, ?_, hpwrok, hmode, hplace, rfl⟩
  rw [exec_railInRegulation, execRailInRegulation, railInRegulation_eq hrails hstarted]
  simp only [railPlace, Nat.reduceAdd, Nat.lt_irrefl, hkeep, hdown, Option.isSome_none, Bool.false_eq_true, or_self, if_false, State.modSup,
    Nat.min_eq_left (show 3 ≤ 4 by omega)]
  rw [← hstarted]

theorem railTakedown_eq {s : State} {at_ : Time} (hmode : s.sup.mode = .reset) (hstarted : s.sup.started ≠ 0) (hdown : s.sup.downAt = some at_) :
    railTakedown s = ((if s.sup.vbus < 6000 then s else s.advanceTo at_).modSup (fun u => { u with
      started := 0, rails := 0, railsOk := 0, downAt := none, vcore := 0 })).islandOff := by
  simp [railTakedown, hmode, hstarted, hdown]

/-- Settles O14: each rail's command by its guard, and the measurement through the fields that SUPPLY_STATUS shows. -/
theorem railsComeUpInOrder : Obligations.RailsComeUpInOrder := by
  unfold Obligations.RailsComeUpInOrder
  refine ⟨fun s => ⟨?_, ?_, ?_, ?_, ?_⟩, fun s x => ⟨rfl, fun hcold => ?_⟩⟩
  · exact fun fa x hstarted hmode hkeep hfeed hbus => powerUp_next hstarted hmode hkeep hfeed hbus
  · exact fun r hr hrails hstarted hdown => railInRegulation_starts_next hr hrails hstarted hdown
  · exact railInRegulation_vana
  · exact fun r d hrails hstarted hdown => railInRegulation_waits hrails hstarted hdown
  · intro at_ hmode hstarted hdown
    have heq := railTakedown_eq hmode hstarted hdown
    refine ⟨fun hlow => ?_, fun hhigh => ?_⟩
    · rw [exec_railTakedown, execRailTakedown, heq, if_pos hlow]
      rfl
    · rw [exec_railTakedown, execRailTakedown, heq, if_neg (by omega)]
      rfl
  · obtain ⟨r, since, ever, hsup⟩ := measured_sup hcold x
    have hcold' : (s.measured x).sup.inCold = false := by rw [hsup]; exact hcold
    have hmem : Touches [.regs, .sup] s (s.measured x) := measured_touches
    have hshow := showSupply_shows hcold'
    have hvio : (s.measured x).vioState x.vioCar = s.vioState x.vioCar := vioState_congr (by rw [hsup]) _
    rw [hsup] at hshow
    obtain ⟨hu, hm, hfa, hfb, hvc, hvi, hva, hst, hri, hre, hvb⟩ := hshow
    refine ⟨(s.measured x).showSupply, ?_, ?_, ?_, ?_, ?_, hfa, hfb, hvc, hvi, hva, hst.trans hvio, hri, hre, hvb, hm.trans hmem.mem_eq⟩
    · rw [exec_supplyStatusUpdate, execSupplyStatusUpdate, supplyStatusUpdate, tryEndReset_of_not_inCold hcold']
    all_goals rw [hu]

end Sys2Proof.Machine
end

section
/-! O15: ride-through at its thresholds. -/
namespace Sys2Proof.Machine

-- one proof after the other: started together they wait on each other's results, each in a thread of its own
set_option Elab.async false

/-! ### The supply record through a measured VBUS -/

/-- A measured VBUS keeps the mode, the times and the reset of the supply record, and takes its lowest value in a ride-through. -/
theorem vbusAt_keeps_times (s : State) (mv : Nat) :
    (s.vbusAt mv).sup.mode = s.sup.mode ∧ (s.vbusAt mv).sup.vbus = mv ∧ (s.vbusAt mv).sup.rideStart = s.sup.rideStart ∧
      (s.vbusAt mv).sup.rideEnd = s.sup.rideEnd ∧ (s.vbusAt mv).sup.rideDue = s.sup.rideDue ∧
      (s.vbusAt mv).sup.inCold = s.sup.inCold ∧ (s.vbusAt mv).sup.started = s.sup.started ∧
      (s.vbusAt mv).sup.rideMin = if s.sup.mode = .rideThrough then min s.sup.rideMin mv else s.sup.rideMin := by
  unfold State.vbusAt
  dsimp only
  split <;> exact ⟨rfl, rfl, rfl, rfl, rfl, rfl, rfl, rfl⟩

/-! ### RIDE_THROUGH_ENTRY -/

/-- The state in which RIDE_THROUGH_ENTRY shows the ride-through. -/
def State.riding (s : State) (mv : Nat) : State :=
  (s.modSup (fun u => { u with mode := .rideThrough, rideMin := mv, rideStart := s.now, rideEnd := 0, rideDue := s.now + ms 250 })).vbusAt mv

/-- What RIDE_THROUGH_ENTRY stages, before the work is paused. -/
def State.rideStaged (s : State) (mv : Nat) : State :=
  let s := ((s.riding mv).showRide F.PHM_SUPPLY_STATUS_RIDE 1).bump F.PHM_RIDE_STATS_RIDE_CNT
  (s.stageEntry (s.entry 1 0x0001 0 [0, 0, 0])).mirror

theorem rideThroughEntry_eq {s : State} {mv : Nat} (hmode : s.sup.mode = .normal) (hlow : 6900 ≤ mv) (hhigh : mv ≤ 8500) :
    rideThroughEntry mv s = (s.rideStaged mv).pauseWork.tdcDiscard := by
  have hguard : ¬ (s.sup.mode ≠ .normal ∨ 8500 < mv ∨ mv < 6900) := by
    rw [hmode]
    rintro (h | h | h)
    · exact h rfl
    · omega
    · omega
  rw [rideThroughEntry, if_neg hguard]
  rfl

theorem pauseWork_paused (s : State) : s.pauseWork.get F.PHM_BG_STATUS_PAUSED = 1 := by
  unfold State.pauseWork
  dsimp only
  split
  · rw [modHlt_touches.get_eq, State.get_setF_ne _ _ (by decide)]
    exact State.get_setF_same _ _ _
  · rw [modHlt_touches.get_eq]
    exact State.get_setF_same _ _ _

/-- R61, R62: a ride-through is entered. -/
theorem rideThroughEntry_next {s : State} {mv : Nat} (hmode : s.sup.mode = .normal) (hlow : 6900 ≤ mv) (hhigh : mv ≤ 8500) :
    ∃ t, exec (.rideThroughEntry mv) s = .next t ∧ t.sup.mode = .rideThrough ∧ t.sup.vbus = mv ∧ t.sup.rideMin = mv ∧
      t.sup.rideStart = s.now ∧ t.sup.rideEnd = 0 ∧ t.sup.rideDue = s.now + ms 250 ∧
      (s.sup.inCold = false → t.get F.PHM_SUPPLY_STATUS_RIDE = 1) ∧ t.get F.PHM_BG_STATUS_PAUSED = 1 ∧ t.mem = s.mem := by
  obtain ⟨hm, hv, hst, hen, hdue, hcold, _, hmin⟩ := vbusAt_keeps_times
    (s.modSup (fun u => { u with mode := .rideThrough, rideMin := mv, rideStart := s.now, rideEnd := 0, rideDue := s.now + ms 250 })) mv
  have hstaged : Touches [.regs, .keep, .hlt] (s.riding mv) (s.rideStaged mv) := by
    refine .via mirror_touches (.via stageEntry_touches (.via bump_touches (.via showRide_touches (.refl _ _))))
  have hlast : Touches [.regs, .hlt, .tbu] (s.rideStaged mv) (s.rideStaged mv).pauseWork.tdcDiscard :=
    .via tdcDiscard_touches (.via pauseWork_touches (.refl _ _))
  have hsup : (s.rideStaged mv).pauseWork.tdcDiscard.sup = (s.riding mv).sup := hlast.sup_eq.trans hstaged.sup_eq
  refine ⟨_, by rw [exec_rideThroughEntry, execRideThroughEntry, rideThroughEntry_eq hmode hlow hhigh], ?_, ?_, ?_, ?_, ?_, ?_, ?_, ?_, ?_⟩
  · exact (congrArg Supply.mode hsup).trans hm
  · exact (congrArg Supply.vbus hsup).trans hv
  · exact (congrArg Supply.rideMin hsup).trans (hmin.trans (Nat.min_self mv))
  · exact (congrArg Supply.rideStart hsup).trans hst
  · exact (congrArg Supply.rideEnd hsup).trans hen
  · exact (congrArg Supply.rideDue hsup).trans hdue
  · intro hc
    have hshow : ((s.riding mv).showRide F.PHM_SUPPLY_STATUS_RIDE 1).get F.PHM_SUPPLY_STATUS_RIDE = 1 := by
      rw [State.showRide, if_neg (by rw [State.riding, hcold]; exact Bool.eq_false_iff.mp hc)]
      exact State.get_setF_same _ _ _
    have hrest : WritesFields lowPages [F.PHM_RIDE_STATS_RIDE_CNT, F.PHM_BG_STATUS_MEAS_RUNNING, F.PHM_BG_STATUS_PAUSED]
        ((s.riding mv).showRide F.PHM_SUPPLY_STATUS_RIDE 1) (s.rideStaged mv).pauseWork.tdcDiscard :=
      .via (tdcDiscard_touches.writesFields _) (.via pauseWork_low (.via (mirror_touches.writesFields _) (.via stageEntry_low
        (.via bump_writes (.refl _ _ _)))))
    exact (hrest.get_eq (by decide) (by decide)).trans hshow
  · exact (tdcDiscard_touches.get_eq _).trans (pauseWork_paused _)
  · exact hlast.mem_eq.trans (hstaged.mem_eq.trans ((vbusAt_touches (s := s.modSup _)).mem_eq))

/-! ### The return timer -/

theorem vbusBack_of_lt {mv : Nat} (h : 8850 < mv) : vbusBack mv = true := decide_eq_true h

theorem returnThreshold_eq {s : State} {mv : Nat} (hmode : s.sup.mode = .rideThrough) (hend : s.sup.rideEnd = 0) (hmv : 8850 < mv) :
    returnThreshold mv s =
      (((s.modSup (fun u => { u with rideEnd := s.now + ms 10 })).vbusAt mv).showRide F.PHM_SUPPLY_STATUS_RETURN_PENDING 1).tryEndReset := by
  have hguard : ¬ (s.sup.mode ≠ .rideThrough ∨ s.sup.rideEnd ≠ 0 ∨ !vbusBack mv) := by
    simp [hmode, hend, vbusBack_of_lt hmv]
  rw [returnThreshold, if_neg hguard]

theorem showRide_of_not_inCold {s : State} (h : s.sup.inCold = false) (f : Field) (v : Nat) : s.showRide f v = s.setF f v := by
  rw [State.showRide, if_neg (Bool.eq_false_iff.mp h)]

/-- R61: above the return threshold the return timer starts. -/
theorem returnThreshold_next {s : State} {mv : Nat} (hmode : s.sup.mode = .rideThrough) (hend : s.sup.rideEnd = 0) (hmv : 8850 < mv)
    (hcold : s.sup.inCold = false) :
    ∃ t, exec (.returnThreshold mv) s = .next t ∧ t.sup.rideEnd = s.now + ms 10 ∧ t.sup.vbus = mv ∧ t.sup.mode = .rideThrough ∧
      t.get F.PHM_SUPPLY_STATUS_RETURN_PENDING = 1 ∧ t.mem = s.mem := by
  obtain ⟨hm, hv, _, hen, _, hco, _, _⟩ := vbusAt_keeps_times (s.modSup (fun u => { u with rideEnd := s.now + ms 10 })) mv
  have hco' := hco.trans hcold
  have hlast : returnThreshold mv s =
      ((s.modSup (fun u => { u with rideEnd := s.now + ms 10 })).vbusAt mv).setF F.PHM_SUPPLY_STATUS_RETURN_PENDING 1 := by
    rw [returnThreshold_eq hmode hend hmv, showRide_of_not_inCold hco']
    exact tryEndReset_of_not_inCold hco'
  refine ⟨_, by rw [exec_returnThreshold, execReturnThreshold, hlast], ?_, ?_, ?_, ?_, ?_⟩
  · exact hen
  · exact hv
  · exact hm.trans hmode
  · exact State.get_setF_same _ _ _
  · exact (vbusAt_touches (s := s.modSup _)).mem_eq

/-- R61: below 8.95 V the return timer stops. -/
theorem returnTimerStop_eq {s : State} {mv : Nat} (hmode : s.sup.mode = .rideThrough) (hend : s.sup.rideEnd ≠ 0) (hmv : mv < 8950) :
    returnTimerStop mv s =
      let u := ((s.modSup (fun u => { u with rideEnd := 0 })).vbusAt mv).showRide F.PHM_SUPPLY_STATUS_RETURN_PENDING 0
      if s.sup.rideDue ≤ s.now then brownout u else u := by
  have hguard : ¬ (s.sup.mode ≠ .rideThrough ∨ s.sup.rideEnd = 0 ∨ 8950 ≤ mv) := by
    rw [hmode]
    rintro (h | h | h)
    · exact h rfl
    · exact hend h
    · omega
  have hsup : Touches [.regs] ((s.modSup (fun u => { u with rideEnd := 0 })).vbusAt mv)
      (((s.modSup (fun u => { u with rideEnd := 0 })).vbusAt mv).showRide F.PHM_SUPPLY_STATUS_RETURN_PENDING 0) := showRide_touches
  have hat : Touches [.sup] (s.modSup (fun u => { u with rideEnd := 0 })) ((s.modSup (fun u => { u with rideEnd := 0 })).vbusAt mv) :=
    vbusAt_touches
  obtain ⟨_, _, _, _, hdue, _⟩ := vbusAt_keeps_times (s.modSup (fun u => { u with rideEnd := 0 })) mv
  have hnow := hsup.now_eq.trans hat.now_eq
  have hdue' := (congrArg Supply.rideDue hsup.sup_eq).trans hdue
  rw [returnTimerStop, if_neg hguard]
  dsimp only
  rw [hnow, hdue']
  rfl

theorem returnTimerStop_next {s : State} {mv : Nat} (hmode : s.sup.mode = .rideThrough) (hend : s.sup.rideEnd ≠ 0) (hmv : mv < 8950) :
    let u := ({ s with sup := { s.sup with rideEnd := 0 } }.vbusAt mv).showRide F.PHM_SUPPLY_STATUS_RETURN_PENDING 0
    (s.now < s.sup.rideDue → ∃ t, exec (.returnTimerStop mv) s = .next t ∧ t = u ∧ t.sup.rideEnd = 0 ∧ t.sup.vbus = mv ∧
      t.sup.rideMin = min s.sup.rideMin mv) ∧
    (s.sup.rideDue ≤ s.now → exec (.returnTimerStop mv) s = exec .brownout u) := by
  have heq := returnTimerStop_eq hmode hend hmv
  refine ⟨fun hlt => ?_, fun hle => ?_⟩
  · rw [if_neg (Nat.not_le.mpr hlt)] at heq
    obtain ⟨_, hv, _, hen, _, _, _, hmin⟩ := vbusAt_keeps_times (s.modSup (fun u => { u with rideEnd := 0 })) mv
    have hsup : Touches [.regs] ((s.modSup (fun u => { u with rideEnd := 0 })).vbusAt mv)
        (((s.modSup (fun u => { u with rideEnd := 0 })).vbusAt mv).showRide F.PHM_SUPPLY_STATUS_RETURN_PENDING 0) := showRide_touches
    refine ⟨_, ?_, rfl, ?_, ?_, ?_⟩
    · rw [exec_returnTimerStop, execReturnTimerStop, heq]
      rfl
    · exact (congrArg Supply.rideEnd hsup.sup_eq).trans hen
    · exact (congrArg Supply.vbus hsup.sup_eq).trans hv
    · exact (congrArg Supply.rideMin hsup.sup_eq).trans (hmin.trans (if_pos hmode))
  · rw [exec_returnTimerStop, execReturnTimerStop, heq, if_pos hle, exec_brownout, execBrownout]
    rfl

/-! ### The end of a ride-through -/

theorem flushStaged_staged (s : State) : s.flushStaged.keep.staged = [] := by
  unfold State.flushStaged
  have hfold : ∀ (es : List BelEntry) (u : State), (es.foldl (fun s e => s.writeEntry e true) u).keep = u.keep := by
    intro es u
    have h : Touches [.regs, .mem, .hlt] u (es.foldl (fun s e => s.writeEntry e true) u) :=
      Touches.foldl (fun v e hv => .via writeEntry_touches hv) es (.refl _ _)
    exact h.keep_eq
  dsimp only
  split
  · rw [hfold]
  · rw [writeEntry_touches.keep_eq, hfold]

theorem resumeWork_paused (s : State) : s.resumeWork.get F.PHM_BG_STATUS_PAUSED = 0 := by
  have hregs : s.resumeWork.regs = ((s.setF F.PHM_BG_STATUS_PAUSED 0).setF F.PHM_BG_STATUS_FLASH_DEFERRED 0).regs := rfl
  rw [get_of_regs hregs]
  exact (State.get_setF_ne (f := F.PHM_BG_STATUS_FLASH_DEFERRED) (g := F.PHM_BG_STATUS_PAUSED) _ _ (by decide)).trans
    (State.get_setF_same _ _ _)

/-- What RETURN_TIMER_EXPIRY has shown when the return timer has run out. -/
def State.rideEnded (s : State) : State :=
  let t := (s.advanceTo s.sup.rideEnd).endEpisode false
  let q := t.tenMv 12 t.sup.rideMin
  ((q.2.setF F.PHM_RIDE_STATS_LAST_MIN_VBUS q.1).showRide F.PHM_SUPPLY_STATUS_RIDE 0).showRide F.PHM_SUPPLY_STATUS_RETURN_PENDING 0

theorem returnTimerExpiry_eq {s : State} (hmode : s.sup.mode = .rideThrough) (hend : s.sup.rideEnd ≠ 0) :
    returnTimerExpiry s = (s.rideEnded.modSup (fun u => { u with mode := .normal, rideEnd := 0 })).flushStaged.resumeWork.tdcResume := by
  have hguard : ¬ (s.sup.mode ≠ .rideThrough ∨ s.sup.rideEnd = 0) := by
    rw [hmode]
    exact fun h => h.elim (· rfl) hend
  rw [returnTimerExpiry, if_neg hguard]
  rfl

/-- The two ride-through fields shown clear. -/
theorem showRide_clear {s : State} (hcold : s.sup.inCold = false) :
    ((s.showRide F.PHM_SUPPLY_STATUS_RIDE 0).showRide F.PHM_SUPPLY_STATUS_RETURN_PENDING 0).get F.PHM_SUPPLY_STATUS_RIDE = 0 ∧
      ((s.showRide F.PHM_SUPPLY_STATUS_RIDE 0).showRide F.PHM_SUPPLY_STATUS_RETURN_PENDING 0).get
        F.PHM_SUPPLY_STATUS_RETURN_PENDING = 0 := by
  rw [showRide_of_not_inCold hcold, showRide_of_not_inCold (s := s.setF F.PHM_SUPPLY_STATUS_RIDE 0) hcold]
  exact ⟨(State.get_setF_ne _ _ (by decide)).trans (State.get_setF_same _ _ _), State.get_setF_same _ _ _⟩

theorem rideEnded_shows {s : State} (hcold : s.sup.inCold = false) :
    s.rideEnded.get F.PHM_SUPPLY_STATUS_RIDE = 0 ∧ s.rideEnded.get F.PHM_SUPPLY_STATUS_RETURN_PENDING = 0 := by
  have hq : Touches [.regs, .keep, .tbu, .free] s
      ((((s.advanceTo s.sup.rideEnd).endEpisode false).tenMv 12 ((s.advanceTo s.sup.rideEnd).endEpisode false).sup.rideMin).2.setF
        F.PHM_RIDE_STATS_LAST_MIN_VBUS
        (((s.advanceTo s.sup.rideEnd).endEpisode false).tenMv 12 ((s.advanceTo s.sup.rideEnd).endEpisode false).sup.rideMin).1) :=
    .via setF_touches (.via tenMv_touches (.via endEpisode_touches (.via advanceTo_touches (.refl _ _))))
  exact showRide_clear ((congrArg Supply.inCold hq.sup_eq).trans hcold)

/-- R62, R63: the return timer runs out, and the ride-through ends. -/
theorem returnTimerExpiry_next {s : State} (hmode : s.sup.mode = .rideThrough) (hend : s.sup.rideEnd ≠ 0) :
    ∃ t, exec .returnTimerExpiry s = .next t ∧ t.sup.mode = .normal ∧ t.sup.rideEnd = 0 ∧
      (s.sup.inCold = false → t.get F.PHM_SUPPLY_STATUS_RIDE = 0 ∧ t.get F.PHM_SUPPLY_STATUS_RETURN_PENDING = 0) ∧
      t.get F.PHM_BG_STATUS_PAUSED = 0 ∧ t.keep.staged = [] := by
  have hrest : Touches [.regs, .mem, .keep, .tbu, .tmc, .hlt] (s.rideEnded.modSup (fun u => { u with mode := .normal, rideEnd := 0 }))
      (s.rideEnded.modSup (fun u => { u with mode := .normal, rideEnd := 0 })).flushStaged.resumeWork.tdcResume :=
    .via tdcResume_touches (.via resumeWork_touches (.via flushStaged_touches (.refl _ _)))
  have hfields : WritesFields lowPages [F.PHM_BG_STATUS_FLASH_DEFERRED, F.PHM_BG_STATUS_PAUSED] s.rideEnded
      (s.rideEnded.modSup (fun u => { u with mode := .normal, rideEnd := 0 })).flushStaged.resumeWork.tdcResume :=
    .via (tdcResume_touches.writesFields _) (.via resumeWork_low (.via flushStaged_low (.via (modSup_touches.writesFields _) (.refl _ _ _))))
  refine ⟨_, by rw [exec_returnTimerExpiry, execReturnTimerExpiry, returnTimerExpiry_eq hmode hend], ?_, ?_, fun hcold => ?_, ?_, ?_⟩
  · exact congrArg Supply.mode hrest.sup_eq
  · exact congrArg Supply.rideEnd hrest.sup_eq
  · obtain ⟨hride, hret⟩ := rideEnded_shows hcold
    exact ⟨(hfields.get_eq (by decide) (by decide)).trans hride, (hfields.get_eq (by decide) (by decide)).trans hret⟩
  · exact (tdcResume_touches.get_eq _).trans (resumeWork_paused _)
  · have hkeep : Touches [.regs, .tbu, .tmc, .hlt]
        (s.rideEnded.modSup (fun u => { u with mode := .normal, rideEnd := 0 })).flushStaged
        (s.rideEnded.modSup (fun u => { u with mode := .normal, rideEnd := 0 })).flushStaged.resumeWork.tdcResume :=
      .via tdcResume_touches (.via resumeWork_touches (.refl _ _))
    exact (congrArg Keep.staged hkeep.keep_eq).trans (flushStaged_staged _)

/-! ### The resets of R64 -/

/-- The state of a cold reset before its cause is shown. -/
def State.coldCleared (s : State) : State :=
  let s := ((s.endEpisode true).disarm.blocksReset false).domeStop
  { s with tbu := { t48 := s.tbu.t48 } }.loadTime s.keepTicks

theorem coldStart_eq (s : State) (c : Nat) :
    s.coldStart c = (s.coldCleared.cause (if s.coldCleared.keep.lost then 3 else 2) c).modSup (fun u => { u with
      strapped := false, strapLow := !vbusBack u.vbus, released := false, ppsHigh := false, inCold := true
      warmFrom := false, rootPending := 0, coresUp := false, vioStop := false }) := rfl

/-- A cold reset moves the times of the supply record with the counter that it loads, and keeps the rest of it till its end. -/
theorem coldCleared_sup (s : State) : ∃ since start stop due down, s.coldCleared.sup =
    { s.sup with vioSince := since, rideStart := start, rideEnd := stop, rideDue := due, downAt := down } := by
  have h : Touches [.regs, .mem, .bus, .keep, .qbc, .mac, .pairs, .wvl, .ing, .lat, .phe, .gcm, .slp, .pub, .dre, .slt, .prc, .dom, .tmc,
      .hlt, .cmds, .free] s (((s.endEpisode true).disarm.blocksReset false).domeStop) :=
    .via domeStop_touches (.via blocksReset_touches (.via disarm_touches (.via endEpisode_touches (.refl _ _))))
  rw [← h.sup_eq]
  exact ⟨_, _, _, _, _, rfl⟩

theorem coldStart_sup (s : State) (c : Nat) :
    (s.coldStart c).sup.inCold = true ∧ (s.coldStart c).sup.mode = s.sup.mode ∧ (s.coldStart c).sup.vbus = s.sup.vbus ∧
      (s.coldStart c).sup.pwrok = s.sup.pwrok ∧ (s.coldStart c).sup.started = s.sup.started := by
  obtain ⟨_, _, _, _, _, hsup⟩ := coldCleared_sup s
  have hcause : Touches [.regs] s.coldCleared (s.coldCleared.cause (if s.coldCleared.keep.lost then 3 else 2) c) := cause_touches
  rw [coldStart_eq, modSup_sup, hcause.sup_eq, hsup]
  exact ⟨rfl, rfl, rfl, rfl, rfl⟩

theorem coldStart_cause (s : State) (c : Nat) : (s.coldStart c).get F.TMC_RESET_CAUSE_CAUSE = c % 2 ^ F.TMC_RESET_CAUSE_CAUSE.width := by
  rw [coldStart_eq, modSup_touches.get_eq]
  exact State.get_setF_same _ _ _

/-- The cold reset of R64, before MOD_PWROK falls. -/
def State.supplyCold (s : State) (c : Nat) : State :=
  ((s.stopMacs.stopQbc.endEpisode true).modSup (fun u => { u with mode := .reset })).coldStart c

theorem supplyReset_eq (s : State) (c : Nat) : s.supplyReset c = (s.supplyCold c).modSup (fun u => { u with
    rideEnd := 0, pwrok := false, vioDriven := false, vioEver := false
    downAt := if u.started = 0 then none else some ((s.supplyCold c).now + ms 2) }) := rfl

theorem supplyCold_next (s : State) (c : Nat) :
    (s.supplyCold c).sup.inCold = true ∧ (s.supplyCold c).sup.mode = .reset ∧ (s.supplyCold c).sup.vbus = s.sup.vbus ∧
      (s.supplyCold c).get F.TMC_RESET_CAUSE_CAUSE = c % 2 ^ F.TMC_RESET_CAUSE_CAUSE.width := by
  unfold State.supplyCold
  obtain ⟨hcold, hmode, hvbus, _, _⟩ := coldStart_sup ((s.stopMacs.stopQbc.endEpisode true).modSup (fun u => { u with mode := .reset })) c
  have hstop : Touches [.regs, .mem, .keep, .qbc, .mac, .pairs, .wvl, .slp, .pub, .slt, .free] s (s.stopMacs.stopQbc.endEpisode true) :=
    .via endEpisode_touches (.via stopQbc_touches (.via stopMacs_touches (.refl _ _)))
  simp only [modSup_sup, hstop.sup_eq] at hmode hvbus
  exact ⟨hcold, hmode, hvbus, coldStart_cause _ _⟩

/-- R64: a reset of the supplies leaves the module in Reset with MOD_PWROK low, and shows its cause. -/
theorem supplyReset_next (s : State) (c : Nat) :
    (s.supplyReset c).sup.mode = .reset ∧ (s.supplyReset c).sup.pwrok = false ∧ (s.supplyReset c).sup.inCold = true ∧
      (s.supplyReset c).sup.vbus = s.sup.vbus ∧
      (s.supplyReset c).get F.TMC_RESET_CAUSE_CAUSE = c % 2 ^ F.TMC_RESET_CAUSE_CAUSE.width := by
  obtain ⟨hcold, hmode, hvbus, hcause⟩ := supplyCold_next s c
  rw [supplyReset_eq, modSup_sup, modSup_touches.get_eq]
  simp only [hmode, hcold, hvbus, hcause, and_self]

/-- Settles O15: entry, return timer, expiry, brownout and reset threshold, each by its guard and by what its operations keep. -/
theorem rideThroughFollowsItsThresholds : Obligations.RideThroughFollowsItsThresholds := by
  unfold Obligations.RideThroughFollowsItsThresholds
  refine fun s mv => ⟨rideThroughEntry_next, fun hmode hend hmv => ⟨returnThreshold_next hmode hend hmv, ?_⟩, returnTimerStop_next,
    returnTimerExpiry_next, fun hmode hend => ?_, fun hstarted hmv => ?_⟩
  · rw [exec_returnThreshold, execReturnThreshold, returnThreshold_eq hmode hend hmv]
    rfl
  · obtain ⟨hm, hp, hc, _, hcause⟩ := supplyReset_next ((s.advanceTo s.sup.rideDue).setFault 6) 3
    have hguard : ¬ (s.sup.mode ≠ .rideThrough ∨ s.sup.rideEnd ≠ 0) := by simp [hmode, hend]
    exact ⟨_, by rw [exec_brownout, execBrownout, brownout, if_neg hguard], hm, hp, hc, hcause⟩
  · obtain ⟨hm, hp, hc, hv, hcause⟩ := supplyReset_next (s.vbusAt mv) 2
    have hguard : ¬ (s.sup.started = 0 ∨ 7000 ≤ mv) := fun h => h.elim hstarted (by omega)
    obtain ⟨_, hvbus, _⟩ := vbusAt_keeps_times s mv
    exact ⟨_, by rw [exec_resetThreshold, execResetThreshold, resetThreshold, if_neg hguard], hm, hp, hc, hv.trans hvbus, hcause⟩

end Sys2Proof.Machine
end

section
/-! O16: every fault event sets its bit of PHM.FAULT, with the response it starts. -/
namespace Sys2Proof.Machine

-- one proof after the other: started together they wait on each other's results, each in a thread of its own
set_option Elab.async false

theorem faultField_mem {b : Nat} (hb : b < 8) : faultField b ∈ faultFields := by
  have hlen : b < faultFields.length := hb
  rw [faultField, List.getD_eq_getElem _ _ hlen]
  exact List.getElem_mem hlen

theorem faultField_lt {b : Nat} (hb : b < 8) : (faultField b).key < lowPages := by
  have hall : ∀ f ∈ faultFields, f.key < lowPages := by decide
  exact hall _ (faultField_mem hb)

/-- A FAULT record and READY leave the fault bits. -/
theorem faultField_not_status {b : Nat} (hb : b < 8) :
    ∀ f ∈ [F.TMC_START_STATUS_COND, F.TMC_START_STATUS_READY], (faultField b).key ≠ f.key := by
  have hall : ∀ g ∈ faultFields, ∀ f ∈ [F.TMC_START_STATUS_COND, F.TMC_START_STATUS_READY], g.key ≠ f.key := by decide
  exact hall _ (faultField_mem hb)

theorem faultField_width {b : Nat} (hb : b < 8) : (faultField b).width = 1 := by
  have hall : ∀ f ∈ faultFields, f.width = 1 := by decide
  exact hall _ (faultField_mem hb)

/-- R67: the bit is 1 after it is set. -/
theorem setFault_flag (s : State) {b : Nat} (hb : b < 8) : (s.setFault b).flag (faultField b) = true := by
  unfold State.setFault
  split
  case isTrue h => exact h
  case isFalse =>
    have hrest : ∀ u : State, WritesFields lowPages [F.TMC_START_STATUS_COND, F.TMC_START_STATUS_READY]
        u (u.belfry 1 0x0009 0 (b :: (List.range 12).map (fun q => s.get (F.PHM_TELEM_VALUE.nth q)))).evalReady :=
      fun u => .via evalReady_low (.via belfry_low (.refl _ _ _))
    rw [(hrest _).flag_eq (faultField_lt hb) (faultField_not_status hb), State.flag, State.get_setF_same, faultField_width hb]
    rfl

/-- R67: a fault bit pulls MOD_FAULT_N low while VKEEP is there. -/
theorem faultN_low {s : State} {b : Nat} (hb : b < 8) (hflag : s.flag (faultField b) = true) (hkeep : s.sup.vkeepLow = false) :
    s.pin .faultN = .low := by
  have hany : faultFields.any (fun f => s.flag f) = true := List.any_eq_true.mpr ⟨_, faultField_mem hb, hflag⟩
  rw [State.pin, hkeep, hany]
  rfl

theorem railFault_eq {s : State} {r : Rail} (hpwrok : s.sup.pwrok = true) (hr : railPlace r < s.sup.rails) :
    railFault r s =
      ((s.modSup (fun u => { u with railsOk := putBits (railPlace r) (railPlace r) 0 u.railsOk })).setFault 4).coldReset 4 := by
  rw [railFault, if_neg (by simp [hpwrok, hr])]

theorem vioCarFault_eq {s : State} {mv : Nat} (hpwrok : s.sup.pwrok = true) (hbad : (s.vioMeasured mv).vioBad = true) :
    vioCarFault mv s =
      (({ (s.vioMeasured mv).modSup (fun u => { u with vioStop := true, vioDriven := false }) with
          psc := { s.psc with mustProof := s.psc.mustProof || s.psc.powered } }.showSupply.setFault 5).stopQbc.fence 5).evalReady := by
  have hpw : (s.vioMeasured mv).sup.pwrok = true := hpwrok
  rw [vioCarFault, if_neg (by simp [hpw, hbad])]
  rfl

/-- R67: a bit set again, with the response of its cause. -/
theorem faultBitReassert_eq {s : State} {b : Nat} (hb : b < 8) (hflag : s.flag (faultField b) = false) (hcause : s.causeHolds b = true) :
    faultBitReassert b s =
      if b < 2 then (s.setFault b).modSup (fun u => { u with rootPending := 5 })
      else if b = 4 then (s.setFault b).coldReset 4
      else if b = 7 then (s.setFault b).modSup (fun u => { u with rootPending := 6 })
      else s.setFault b := by
  have hguard : ¬ (8 ≤ b ∨ s.flag (faultField b) ∨ !s.causeHolds b) := by
    simp [hflag, hcause, hb]
  rw [faultBitReassert, if_neg hguard]
  match b with
  | 0 | 1 | 2 | 3 | 4 | 5 | 6 | 7 => rfl
  | n + 8 => omega

/-- Settles O16: the bit through what its record and READY leave, and each event by its guard. -/
theorem faultEventsSetTheirBits : Obligations.FaultEventsSetTheirBits := by
  unfold Obligations.FaultEventsSetTheirBits
  refine ⟨fun s b hb => setFault_flag s hb, fun s b hb hflag hkeep => faultN_low hb hflag hkeep,
    fun s => ⟨fun b hbad => ?_, rfl, rfl, rfl, fun r hpwrok hr => ?_, fun mv hpwrok hbad => ?_, fun b hb hflag hcause => ?_⟩⟩
  · rw [exec_feedLost, execFeedLost, feedLost, if_pos hbad]
  · rw [exec_railFault, execRailFault, railFault_eq hpwrok hr]
    rfl
  · rw [exec_vioCarFault, execVioCarFault, vioCarFault_eq hpwrok hbad]
  · rw [exec_faultBitReassert, execFaultBitReassert, faultBitReassert_eq hb hflag hcause]

end Sys2Proof.Machine
end

section
/-! O17, O18, O19: what the resets keep, what the pins show in them, and what each does first. -/
namespace Sys2Proof.Machine

-- one proof after the other: started together they wait on each other's results, each in a thread of its own
set_option Elab.async false

/-! ### What a reset keeps of memory -/

theorem tbl_get_filter {α : Type} (d : α) (p : Nat → Bool) (k : Nat) (t : Tbl α) :
    Tbl.get d k (t.filter (fun c => p c.1)) = if p k then Tbl.get d k t else d := by
  induction t with
  | nil => simp [Tbl.get]
  | cons c t ih =>
    obtain ⟨j, v⟩ := c
    by_cases hj : j = k
    · subst hj
      by_cases hp : p j <;> simp [List.filter, Tbl.get, hp, ih]
    · by_cases hp : p j <;> simp [List.filter, Tbl.get, hp, hj, ih]

/-- R488: the octets of memory after the blocks have reset. -/
theorem memGet_blocksReset (s : State) (warm : Bool) (a : Nat) :
    memGet a (s.blocksReset warm).mem = if keptAddr warm a then memGet a s.mem else 0 :=
  tbl_get_filter 0 (keptAddr warm) a s.mem

theorem keptAddr_cold (a : Nat) : keptAddr false a = true ↔ mramBase ≤ a ∧ a < mramBase + mramSize := by
  simp [keptAddr]

theorem keptAddr_warm (a : Nat) : keptAddr true a = true ↔ a < dramEnd ∨ (mramBase ≤ a ∧ a < mramBase + mramSize) := by
  simp [keptAddr, or_comm]

theorem disarm_of_unarmed {s : State} (hforces : s.slp.forces = []) (harm : s.flag F.WVL_CTL_ARM = false) : s.disarm = s := by
  simp [State.disarm, State.wvlArm, State.unforceAll, harm, hforces]

/-! ### The cold reset -/

/-- What a cold reset leaves of the supply record. -/
theorem coldStart_sup_eq (s : State) (c : Nat) : ∃ since start stop due down, (s.coldStart c).sup =
    { s.sup with
      vioSince := since, rideStart := start, rideEnd := stop, rideDue := due, downAt := down, strapped := false
      strapLow := !vbusBack s.sup.vbus, released := false, ppsHigh := false, inCold := true, warmFrom := false, rootPending := 0
      coresUp := false, vioStop := false } := by
  obtain ⟨_, _, _, _, _, hsup⟩ := coldCleared_sup s
  have hcause : Touches [.regs] s.coldCleared (s.coldCleared.cause (if s.coldCleared.keep.lost then 3 else 2) c) := cause_touches
  rw [coldStart_eq, modSup_sup, hcause.sup_eq, hsup]
  exact ⟨_, _, _, _, _, rfl⟩

/-- After the blocks have reset, the start of a cold reset leaves memory, the jobs and the flash as that leaves them. -/
theorem coldStart_after_blocks (s : State) (c : Nat) :
    Touches [.regs, .sup, .keep, .tbu, .dom] ((s.endEpisode true).disarm.blocksReset false) (s.coldStart c) := by
  have hload : Touches [.regs, .sup, .keep, .tbu, .dom] ((s.endEpisode true).disarm.blocksReset false) s.coldCleared :=
    .via loadTime_touches (Touches.set_tbu (.via domeStop_touches (.refl _ _)) _)
  rw [coldStart_eq]
  exact .via modSup_touches (.via cause_touches hload)

theorem disarmed_tmc (s : State) (b : Bool) : (s.endEpisode b).disarm.tmc = s.tmc ∧ (s.endEpisode b).disarm.pending = s.pending := by
  have h : Touches [.regs, .mem, .keep, .mac, .pairs, .wvl, .slp, .pub, .slt, .dom, .hlt, .free] s (s.endEpisode b).disarm :=
    .via disarm_touches (.via endEpisode_touches (.refl _ _))
  exact ⟨h.tmc_eq, h.pending_eq⟩

/-- R487, R488: what a cold reset leaves of memory, of the bus, of the jobs and of the flash. -/
theorem coldStart_keeps_mram (s : State) (c : Nat) :
    (∀ a, memGet a (s.coldStart c).mem =
      if mramBase ≤ a ∧ a < mramBase + mramSize then memGet a (s.endEpisode true).disarm.mem else 0) ∧
    (s.coldStart c).bus = .idle ∧ (s.coldStart c).tmc.jobs = [] ∧ (s.coldStart c).tmc.active = s.tmc.flash.active ∧
    (s.coldStart c).tmc.pending = s.tmc.flash.pending ∧ (s.coldStart c).pending = s.pending := by
  have hafter := coldStart_after_blocks s c
  obtain ⟨htmc, hpending⟩ := disarmed_tmc s true
  have htmc' : (s.coldStart c).tmc = s.tmc.afterReset false := by
    rw [hafter.tmc_eq, ← htmc]
    rfl
  refine ⟨fun a => ?_, hafter.bus_eq, congrArg Tmc.jobs htmc', congrArg Tmc.active htmc', congrArg Tmc.pending htmc', ?_⟩
  · rw [hafter.mem_eq, memGet_blocksReset]
    simp only [keptAddr_cold]
  · exact hafter.pending_eq.trans hpending

theorem carRst_eq {s : State} (hstarted : s.sup.started ≠ 0) :
    carRst s = (s.modSup (fun u => { u with carRstLow := true })).coldStart 7 := by
  rw [carRst]
  exact if_neg hstarted

/-- Settles O17: both commands are the start of a cold reset, whose parts the lemmas above name. -/
theorem coldResetsKeepOnlyMramAndFlash : Obligations.ColdResetsKeepOnlyMramAndFlash := by
  unfold Obligations.ColdResetsKeepOnlyMramAndFlash
  refine ⟨fun s hforces harm => disarm_of_unarmed hforces harm, fun s i c hmem hstarted => ?_⟩
  simp only [List.mem_cons, Prod.mk.injEq, List.not_mem_nil, or_false] at hmem
  obtain ⟨rfl, rfl⟩ | ⟨rfl, rfl⟩ := hmem
  · obtain ⟨_, _, _, _, _, hsup⟩ := coldStart_sup_eq { s with sup := { s.sup with carRstLow := true } } 7
    obtain ⟨hmem, hbus, hjobs, hact, hpend, hq⟩ := coldStart_keeps_mram { s with sup := { s.sup with carRstLow := true } } 7
    refine ⟨{ s with sup := { s.sup with carRstLow := true } }.coldStart 7, ?_, ?_, coldStart_cause _ _, fun _ => ?_, fun h => ?_, hmem, hbus,
      hjobs, hact, hpend, hq⟩
    · rw [exec_carRst, execCarRst, carRst_eq hstarted]
      rfl
    · rw [hsup]
    · rw [hsup]
    · cases h
  · obtain ⟨_, _, _, _, _, hsup⟩ := coldStart_sup_eq s 0x0A
    obtain ⟨hmem, hbus, hjobs, hact, hpend, hq⟩ := coldStart_keeps_mram s 0x0A
    refine ⟨(s.coldStart 0x0A).modSup (fun u => { u with vkeepLow := true, pwrok := false, vioDriven := false, vioEver := false }),
      ?_, ?_, ?_, fun h => ?_, fun _ => ⟨rfl, rfl⟩, hmem, hbus, hjobs, hact, hpend, hq⟩
    · rw [exec_vkeepLow, execVkeepLow, vkeepLow, if_neg hstarted]
    · rw [modSup_sup, hsup]
    · exact modSup_touches.get_eq _ |>.trans (coldStart_cause _ _)
    · cases h

/-- A cold reset by a cause that is neither of the supplies nor of a command. -/
theorem coldReset_eq {s : State} {c : Nat} (hc : c ∈ [4, 5, 6, 7]) (hstarted : s.sup.started ≠ 0) : coldReset c s = s.coldReset c := by
  simp only [List.mem_cons, List.not_mem_nil, or_false] at hc
  obtain rfl | rfl | rfl | rfl := hc <;> simp [coldReset, hstarted]

theorem vbusAt_vkeepLow (s : State) (mv : Nat) : (s.vbusAt mv).sup.vkeepLow = s.sup.vkeepLow := by
  unfold State.vbusAt
  dsimp only
  split <;> rfl

/-! ### The pins -/

/-- The pins of the carrier's reset, of the pulse output and of the carrier bus are not high. -/
def State.PinsQuiet (s : State) : Prop := ∀ p ∈ ([.rstOutN, .ppsOut, .qbClk, .qbSync, .qbDo] : List OutPin), s.pin p ≠ .high

theorem pinsQuiet_of_low {s : State} (hrst : (s.sup.released && !s.pinsReset) = false) (hpps : (s.sup.ppsHigh && !s.pinsReset) = false) :
    s.PinsQuiet := by
  intro p hp
  simp only [List.mem_cons, List.not_mem_nil, or_false] at hp
  obtain rfl | rfl | rfl | rfl | rfl := hp <;> simp only [State.pin] <;> split <;> simp [State.vioPin, hrst, hpps, Pin.of]

theorem pinsQuiet_of_pinsReset {s : State} (h : s.pinsReset = true) : s.PinsQuiet :=
  pinsQuiet_of_low (by simp [h]) (by simp [h])

theorem pinsQuiet_of_sup {s : State} (hrst : s.sup.released = false) (hpps : s.sup.ppsHigh = false) : s.PinsQuiet :=
  pinsQuiet_of_low (by simp [hrst]) (by simp [hpps])

/-- Every VIO-class pin is high-impedance. -/
def State.PinsOff (s : State) : Prop := ∀ p : OutPin, p ≠ .pwrok → p ≠ .faultN → s.pin p = .hiz

theorem pinsOff_of_not_driven {s : State} (h : s.sup.vioDriven = false) : s.PinsOff := by
  intro p hp hf
  have hlive : s.vioLive = false := by simp [State.vioLive, h]
  cases p <;> simp_all [State.pin]

theorem pwrok_low {s : State} (hkeep : s.sup.vkeepLow = false) (hp : s.sup.pwrok = false) : s.pin .pwrok = .low := by
  simp [State.pin, hkeep, hp, Pin.of]

/-- A cold reset that ends at once leaves the two output pins low. -/
theorem coldReset_quiet (s : State) (c : Nat) : (s.coldReset c).PinsQuiet := by
  obtain ⟨_, _, _, _, _, hsup⟩ := coldStart_sup_eq s c
  have hkeeps : ∀ u : State, u.tryEndReset.sup.released = u.sup.released ∧ u.tryEndReset.sup.ppsHigh = u.sup.ppsHigh := by
    intro u
    unfold State.tryEndReset
    split
    · exact ⟨rfl, rfl⟩
    · obtain ⟨v, hv⟩ := enterPrepare_sup
        (((if u.sup.strapped then u else u.sampleStraps).modSup (fun u => { u with inCold := false })).drivePins)
      dsimp only
      rw [hv]
      cases u.sup.strapped <;> exact ⟨rfl, rfl⟩
  obtain ⟨hrst, hpps⟩ := hkeeps (s.coldStart c)
  rw [hsup] at hrst hpps
  exact pinsQuiet_of_sup hrst hpps

/-- R64: a reset of the supplies leaves every VIO-class pin high-impedance and MOD_PWROK low. -/
theorem supplyReset_pins (s : State) (c : Nat) :
    (s.supplyReset c).PinsOff ∧ (s.sup.vkeepLow = false → (s.supplyReset c).pin .pwrok = .low) := by
  have hstop : Touches [.regs, .mem, .keep, .qbc, .mac, .pairs, .wvl, .slp, .pub, .slt, .free] s (s.stopMacs.stopQbc.endEpisode true) :=
    .via endEpisode_touches (.via stopQbc_touches (.via stopMacs_touches (.refl _ _)))
  have hkeep : (s.supplyCold c).sup.vkeepLow = s.sup.vkeepLow := by
    obtain ⟨_, _, _, _, _, hsup⟩ := coldStart_sup_eq ((s.stopMacs.stopQbc.endEpisode true).modSup (fun u => { u with mode := .reset })) c
    rw [State.supplyCold, hsup]
    simp only [modSup_sup, hstop.sup_eq]
  have hsup := congrArg State.sup (supplyReset_eq s c)
  rw [modSup_sup] at hsup
  refine ⟨pinsOff_of_not_driven ?_, fun h => pwrok_low ?_ ?_⟩
  · rw [hsup]
  · simp only [hsup, hkeep, h]
  · rw [hsup]

/-- The events of a root fault: pins quiet, and the bit pulls MOD_FAULT_N low. -/
theorem setFault_pins {s : State} {b : Nat} (hb : b < 8) (hroot : s.sup.rootPending ≠ 0) :
    (s.setFault b).PinsQuiet ∧ (s.sup.vkeepLow = false → (s.setFault b).pin .faultN = .low) := by
  have hsup := (setFault_touches (s := s) (b := b)).sup_eq
  refine ⟨pinsQuiet_of_pinsReset ?_, fun hkeep => faultN_low hb (setFault_flag s hb) (by rw [hsup]; exact hkeep)⟩
  rw [State.pinsReset, hsup]
  simp [hroot]

/-- The island's report of a root fault writes its own page alone. -/
theorem islandRoot_low {s : State} : WritesFields lowPages [] s s.islandRoot := by
  unfold State.islandRoot State.goStale State.pscBump
  refine .ite (.ite (.via (setF_above (by decide)) (.refl _ _ _)) ?_) (.refl _ _ _)
  exact .via (bump_above (by decide)) (.via (setF_above (by decide)) (.via (setF_above (by decide)) (.refl _ _ _)))

theorem rootRatio_pins (s : State) :
    (rootRatio s).PinsQuiet ∧ (s.sup.vkeepLow = false → (rootRatio s).pin .faultN = .low) := by
  have hroot := (islandRoot_touches (s := (s.rootDue 5).setFault 1)).sup_eq
  have hsup := hroot.trans ((setFault_touches (s := s.rootDue 5) (b := 1)).sup_eq)
  have hflag : (rootRatio s).flag (faultField 1) = true :=
    (islandRoot_low.flag_eq (by decide) (by simp)).trans (setFault_flag (s.rootDue 5) (by decide))
  refine ⟨pinsQuiet_of_pinsReset ?_, fun hkeep => faultN_low (by decide) hflag ?_⟩
  · rw [State.pinsReset, rootRatio, hsup]
    simp [State.rootDue]
  · rw [rootRatio, hsup]
    exact hkeep

/-- R58: a fault of VIO_CAR leaves every VIO-class pin high-impedance and MOD_FAULT_N low. -/
theorem vioCarFault_pins {s : State} {mv : Nat} (hpwrok : s.sup.pwrok = true) (hbad : (s.vioMeasured mv).vioBad = true) :
    (vioCarFault mv s).PinsOff ∧ (s.sup.vkeepLow = false → (vioCarFault mv s).pin .faultN = .low) := by
  rw [vioCarFault_eq hpwrok hbad]
  generalize hu : ({ (s.vioMeasured mv).modSup (fun u => { u with vioStop := true, vioDriven := false }) with
    psc := { s.psc with mustProof := s.psc.mustProof || s.psc.powered } } : State) = u
  have husup : u.sup = ((s.vioMeasured mv).modSup (fun u => { u with vioStop := true, vioDriven := false })).sup := by rw [← hu]
  have hshow : Touches [.regs, .free] u u.showSupply := showSupply_touches
  have hset : Touches [.regs, .mem, .keep, .mac, .pairs, .wvl, .slp, .pub, .slt, .prc, .tmc, .hlt] u.showSupply (u.showSupply.setFault 5) :=
    setFault_touches
  have hrest : Touches [.regs, .mem, .mac, .pairs, .wvl, .slp, .pub, .slt, .prc, .tmc, .qbc] (u.showSupply.setFault 5)
      ((u.showSupply.setFault 5).stopQbc.fence 5).evalReady :=
    .via evalReady_touches (.via fence_touches (.via stopQbc_touches (.refl _ _)))
  have hsup := hrest.sup_eq.trans (hset.sup_eq.trans (hshow.sup_eq.trans husup))
  have hfields : WritesFields lowPages [F.TMC_START_STATUS_COND, F.TMC_START_STATUS_READY] (u.showSupply.setFault 5)
      ((u.showSupply.setFault 5).stopQbc.fence 5).evalReady :=
    .via evalReady_low (.via fence_low (.via (stopQbc_touches.writesFields _) (.refl _ _ _)))
  have hflag := (hfields.flag_eq (faultField_lt (b := 5) (by decide)) (faultField_not_status (by decide))).trans
    (setFault_flag u.showSupply (b := 5) (by decide))
  refine ⟨pinsOff_of_not_driven ?_, fun hkeep => faultN_low (b := 5) (by decide) hflag ?_⟩
  · rw [hsup]
    rfl
  · rw [hsup]
    exact hkeep

/-- Settles O18: the pins that a cold reset, a root fault and a reset of the supplies leave. -/
theorem pinsGoDownWithTheModule : Obligations.PinsGoDownWithTheModule := by
  unfold Obligations.PinsGoDownWithTheModule
  refine fun s => ⟨fun hstarted => ?_, fun c hc hstarted => ?_, fun i hi => ?_, fun hmode hend => ?_, fun mv hstarted hmv => ?_,
    fun mv hpwrok hbad => ?_⟩
  · refine ⟨_, by rw [exec_carRst, execCarRst, carRst_eq hstarted], ?_⟩
    obtain ⟨_, _, _, _, _, hsup⟩ := coldStart_sup_eq (s.modSup (fun u => { u with carRstLow := true })) 7
    exact pinsQuiet_of_sup (by rw [hsup]) (by rw [hsup])
  · refine ⟨s.coldReset c, ?_, coldReset_quiet s c⟩
    rw [exec_coldReset, execColdReset, coldReset_eq hc hstarted]
  · simp only [List.mem_cons, List.not_mem_nil, or_false] at hi
    obtain rfl | rfl | rfl := hi
    · exact ⟨_, exec_therm s, setFault_pins (by decide) (by simp [State.rootDue])⟩
    · exact ⟨_, exec_rootLock s, setFault_pins (by decide) (by simp [State.rootDue])⟩
    · exact ⟨_, exec_rootRatio s, rootRatio_pins s⟩
  · have hguard : ¬ (s.sup.mode ≠ .rideThrough ∨ s.sup.rideEnd ≠ 0) := by simp [hmode, hend]
    have hsup : Touches [.regs, .mem, .keep, .mac, .pairs, .wvl, .slp, .pub, .slt, .prc, .tmc, .hlt, .tbu] s
      ((s.advanceTo s.sup.rideDue).setFault 6) := .via setFault_touches (.via advanceTo_touches (.refl _ _))
    obtain ⟨hoff, hlow⟩ := supplyReset_pins ((s.advanceTo s.sup.rideDue).setFault 6) 3
    refine ⟨_, by rw [exec_brownout, execBrownout, brownout, if_neg hguard], hoff, fun hkeep => hlow ?_⟩
    rw [hsup.sup_eq]
    exact hkeep
  · have hguard : ¬ (s.sup.started = 0 ∨ 7000 ≤ mv) := fun h => h.elim hstarted (by omega)
    obtain ⟨hoff, hlow⟩ := supplyReset_pins (s.vbusAt mv) 2
    refine ⟨_, by rw [exec_resetThreshold, execResetThreshold, resetThreshold, if_neg hguard], hoff, fun hkeep => hlow ?_⟩
    exact (vbusAt_vkeepLow s mv).trans hkeep
  · exact ⟨_, exec_vioCarFault mv s, vioCarFault_pins hpwrok hbad⟩

/-! ### What each reset does first -/

/-- KEEP_RESET once the Keep domain has cleared and its counters have come back. -/
def State.keepCleared (s : State) : State :=
  let s := { s.clearFields (F.PRC_EPOCH_EPOCH :: faultFields) with
    keep := { lostOp := s.hlt.hdrOpSec, lostCycles := s.hlt.hdrCycles }, tbu := { t48 := s.tbu.t48 } }.loadTime 0
  (s.setF F.PHM_KEEP_CNT_OP_SEC s.hlt.hdrOpSec).setF F.PHM_KEEP_CNT_POWER_CYCLES s.hlt.hdrCycles

theorem keepReset_eq {s : State} (hkeep : s.sup.vkeepLow = true) (hrails : s.sup.rails < 3) :
    keepReset s = (s.keepCleared.cause 3 0x0A).modSup (fun u => { u with vkeepLow := false }) := by
  have hr : ((s.keepCleared.cause 3 0x0A).modSup (fun u => { u with vkeepLow := false })).sup.rails < 3 := hrails
  rw [keepReset, if_neg (by simp [hkeep])]
  exact if_pos (Or.inl hr)

theorem clearFields_writes (s : State) (fs : List Field) (k : Nat) : WritesFields k fs s (s.clearFields fs) := by
  unfold State.clearFields
  induction fs generalizing s with
  | nil => exact .refl _ _ _
  | cons f fs ih => exact .trans (.via setF_writes (.refl _ _ _)) ((ih (s.setF f f.reset)).mono (List.subset_cons_self f fs))

theorem keepCleared_epoch (s : State) : s.keepCleared.get F.PRC_EPOCH_EPOCH = F.PRC_EPOCH_EPOCH.reset := by
  have hset : WritesFields islandKey [F.PHM_KEEP_CNT_OP_SEC, F.PHM_KEEP_CNT_POWER_CYCLES]
      (s.clearFields (F.PRC_EPOCH_EPOCH :: faultFields)) s.keepCleared :=
    .via setF_writes (.via setF_writes ((WritesFields.refl _ _ _).of_regs rfl))
  have hfaults := clearFields_writes (s.setF F.PRC_EPOCH_EPOCH F.PRC_EPOCH_EPOCH.reset) faultFields islandKey
  rw [hset.get_eq (by decide) (by decide)]
  exact (hfaults.get_eq (by decide) (by decide)).trans (State.get_setF_same _ _ _)

theorem keepCleared_keep (s : State) : s.keepCleared.keep = { lostOp := s.hlt.hdrOpSec, lostCycles := s.hlt.hdrCycles } := by
  simp [State.keepCleared, State.loadTime, Keep.run]

theorem keepCleared_now (s : State) : s.keepCleared.now = 0 := by
  simp [State.keepCleared, State.loadTime, Keep.run, State.now]

/-- R490: KEEP_RESET with the rails down clears the Keep domain, and the counter starts at zero. -/
theorem keepReset_next {s : State} (hkeep : s.sup.vkeepLow = true) (hrails : s.sup.rails < 3) :
    ∃ t, exec .keepReset s = .next t ∧ t.keep = { lostOp := s.hlt.hdrOpSec, lostCycles := s.hlt.hdrCycles } ∧ t.now = 0 ∧
      t.sup.vkeepLow = false ∧ t.get F.PRC_EPOCH_EPOCH = F.PRC_EPOCH_EPOCH.reset ∧ t.get F.TMC_RESET_CAUSE_KIND = 3 ∧
      t.get F.TMC_RESET_CAUSE_CAUSE = 0x0A ∧ t.get F.PHM_KEEP_CNT_OP_SEC = s.hlt.hdrOpSec % 2 ^ 32 ∧ t.mem = s.mem := by
  have hcause : WritesFields islandKey [F.TMC_RESET_CAUSE_KIND, F.TMC_RESET_CAUSE_CAUSE] s.keepCleared (keepReset s) := by
    rw [keepReset_eq hkeep hrails]
    exact .via (modSup_touches.writesFields _) (.via setF_writes (.via setF_writes (.refl _ _ _)))
  refine ⟨keepReset s, exec_keepReset s, ?_⟩
  rw [hcause.get_eq (g := F.PRC_EPOCH_EPOCH) (by decide) (by decide), hcause.get_eq (g := F.PHM_KEEP_CNT_OP_SEC) (by decide) (by decide),
    keepCleared_epoch, keepReset_eq hkeep hrails]
  refine ⟨keepCleared_keep s, keepCleared_now s, rfl, rfl, ?_, ?_, ?_, ?_⟩
  · rw [modSup_touches.get_eq]
    exact (State.get_setF_ne (f := F.TMC_RESET_CAUSE_CAUSE) (g := F.TMC_RESET_CAUSE_KIND) _ _ (by decide)).trans (State.get_setF_same _ _ _)
  · rw [modSup_touches.get_eq]
    exact State.get_setF_same _ _ _
  · exact (State.get_setF_ne (f := F.PHM_KEEP_CNT_POWER_CYCLES) (g := F.PHM_KEEP_CNT_OP_SEC) _ _ (by decide)).trans
      (State.get_setF_same _ _ _)
  · have hclear : Touches [.regs] s (s.clearFields (F.PRC_EPOCH_EPOCH :: faultFields)) := clearFields_touches
    exact hclear.mem_eq

/-- A warm reset that is due, at its moment. -/
def State.warmDue (s : State) (r : Nat × Time) : State :=
  { s.advanceTo r.2 with tmc := { s.tmc with resetDue := s.tmc.resetDue.erase r } }

theorem warmDue_ignored (s : State) (r : Nat × Time) :
    (s.warmDue r).warmIgnored = (s.sup.inCold || (!s.sup.warmFrom && decide (s.get F.TMC_START_STATUS_PHASE < 6))) := rfl

/-- The state of a warm reset before the supply record and the Dome's measurements follow. -/
def State.warmCleared (s : State) : State := (((s.endEpisode true).disarm.blocksReset true).tbuFollow).cause 1 8

/-- The state of a warm reset before the Dome's measurements follow. -/
def State.warmSupplied (s : State) : State := s.warmCleared.modSup (fun u => { u with
  released := false, ppsHigh := false, warmFrom := true, vioStop := false, rootPending := 0 })

/-- The Dome after a warm reset: the measurements of what it has loaded since are dropped. -/
def Dome.warmKept (d : Dome) : Dome :=
  { d with ms := d.ms.filter (fun p => p.1 != 3 && decide (p.1 < 8)), msCount := d.msCount.filter (fun p => p.1 != 3 && decide (p.1 < 8)) }

/-- The state of a warm reset before its boot measurement. -/
def State.warmReady (s : State) : State := { s.warmSupplied with dom := s.warmSupplied.dom.warmKept }

theorem warmReset_ignored {s : State} {r : Nat × Time} (hdue : s.tmc.resetDue.find? (fun r => r.1 == 0) = some r)
    (h : (s.warmDue r).warmIgnored = true) : warmReset s = s.warmDue r := by
  rw [warmReset, hdue]
  exact if_pos h

/-- A warm reset from its moment on. -/
def State.warmRun (s : State) : State := (s.warmReady.bootMeasure [3]).drivePins.enterPrepare

theorem warmRun_unless_ignored (s : State) :
    (if s.warmIgnored then s
     else
      let s := (((s.endEpisode true).disarm.blocksReset true).tbuFollow).cause 1 8
      let s := s.modSup (fun u => { u with
        released := false, ppsHigh := false, warmFrom := true, vioStop := false, rootPending := 0 })
      let s := { s with dom := { s.dom with
        ms := s.dom.ms.filter (fun p => p.1 != 3 && decide (p.1 < 8)), msCount := s.dom.msCount.filter (fun p => p.1 != 3 && decide (p.1 < 8)) } }
      ((s.bootMeasure [3]).drivePins).enterPrepare) = if s.warmIgnored then s else s.warmRun := rfl

theorem warmReset_eq {s : State} {r : Nat × Time} (hdue : s.tmc.resetDue.find? (fun r => r.1 == 0) = some r) :
    warmReset s = if (s.warmDue r).warmIgnored then s.warmDue r else (s.warmDue r).warmRun := by
  rw [warmReset, hdue]
  exact warmRun_unless_ignored _

theorem warmReset_runs {s : State} {r : Nat × Time} (hdue : s.tmc.resetDue.find? (fun r => r.1 == 0) = some r)
    (h : (s.warmDue r).warmIgnored = false) : warmReset s = ((s.warmDue r).warmReady.bootMeasure [3]).drivePins.enterPrepare := by
  rw [warmReset_eq hdue, h]
  rfl

theorem warmReady_after_cause (s : State) : Touches [.sup, .dom] s.warmCleared s.warmReady := by
  have h : Touches [.sup, .dom] s.warmCleared s.warmSupplied := .via modSup_touches (.refl _ _)
  exact h.set_dom _

theorem warmReady_after_blocks (s : State) :
    Touches [.regs, .sup, .tbu, .dom] ((s.endEpisode true).disarm.blocksReset true) s.warmReady := by
  have h : Touches [.regs, .sup, .tbu, .dom] ((s.endEpisode true).disarm.blocksReset true) s.warmCleared :=
    .via cause_touches (.via tbuFollow_touches (.refl _ _))
  exact .via (warmReady_after_cause s) h

/-- R487, R488: what a warm reset leaves. -/
theorem warmReady_keeps (s : State) :
    s.warmReady.get F.TMC_RESET_CAUSE_KIND = 1 ∧ s.warmReady.get F.TMC_RESET_CAUSE_CAUSE = 8 ∧ s.warmReady.bus = .idle ∧
      s.warmReady.tmc.jobs = [] ∧ s.warmReady.tmc.xfer = s.tmc.xfer ∧ s.warmReady.tmc.resetDue = s.tmc.resetDue ∧
      (∀ a, memGet a s.warmReady.mem =
        if a < dramEnd ∨ (mramBase ≤ a ∧ a < mramBase + mramSize) then memGet a (s.endEpisode true).disarm.mem else 0) := by
  have hafter := warmReady_after_blocks s
  have htmc : s.warmReady.tmc = s.tmc.afterReset true := by
    rw [hafter.tmc_eq, ← (disarmed_tmc s true).1]
    rfl
  rw [htmc]
  refine ⟨?_, ?_, hafter.bus_eq, rfl, rfl, rfl, fun a => ?_⟩
  · rw [(warmReady_after_cause s).get_eq]
    exact (State.get_setF_ne (f := F.TMC_RESET_CAUSE_CAUSE) (g := F.TMC_RESET_CAUSE_KIND) _ _ (by decide)).trans (State.get_setF_same _ _ _)
  · rw [(warmReady_after_cause s).get_eq]
    exact State.get_setF_same _ _ _
  · rw [hafter.mem_eq, memGet_blocksReset]
    simp only [keptAddr_warm]

/-- Settles O19: each reset by its guard; the Keep reset and the warm reset through the states that they pass. -/
theorem resetsProceedByCause : Obligations.ResetsProceedByCause := by
  unfold Obligations.ResetsProceedByCause
  refine fun s => ⟨rfl, fun hroot => ?_, keepReset_next, fun c hc hstarted => ?_, fun c hc hstarted => ?_, fun c t hc hdue => ?_,
    fun t hdue hignored => ?_, fun t hdue hcold hfrom => ?_⟩
  · rw [exec_rootFaultResponse, execRootFaultResponse, rootFaultResponse, if_neg hroot]
  · simp only [List.mem_cons, List.not_mem_nil, or_false] at hc
    rw [exec_coldReset, execColdReset, coldReset, if_pos hc, if_neg hstarted]
  · rw [exec_coldReset, execColdReset, coldReset_eq hc hstarted]
  · simp only [List.mem_cons, List.not_mem_nil, or_false] at hc
    have hne : ¬ (c = 2 ∨ c = 3) := by omega
    rw [exec_coldReset, execColdReset, coldReset, if_neg hne, if_pos hc, hdue]
  · rw [exec_warmReset, execWarmReset, warmReset_ignored hdue]
    · rfl
    · rw [warmDue_ignored]
      obtain hc | ⟨hf, hp⟩ := hignored
      · simp [hc]
      · simp [hf, hp]
  · obtain ⟨hkind, hcause, hbus, hjobs, hxfer, hreset, hmem⟩ := warmReady_keeps (s.warmDue (0, t))
    refine ⟨(s.warmDue (0, t)).warmReady, ?_, hkind, hcause, hbus, hjobs, hxfer, hreset, hmem⟩
    rw [exec_warmReset, execWarmReset, warmReset_runs hdue]
    rw [warmDue_ignored, hcold]
    obtain hf | hp := hfrom
    · simp [hf]
    · simp [hp]

end Sys2Proof.Machine
end

section
/-! O20: start-up with no bundle, with a marked PENDING and with ACTIVE, and the start of group B. -/
namespace Sys2Proof.Machine

-- one proof after the other: started together they wait on each other's results, each in a thread of its own
set_option Elab.async false

/-- PREPARE_COMPLETE with the Dome ready and no lock reads the slots. -/
theorem prepareComplete_unlocked {s : State} (hphase : s.get F.TMC_START_STATUS_PHASE = 2) (hdome : s.dstate ≠ 0) (hlocked : s.tmc.locked = false) :
    prepareComplete s =
      match s.tmc.pending with
      | none => (s.setF F.TMC_START_STATUS_PHASE 3).commitActive
      | some b =>
        if !s.tmc.mark then (s.setF F.TMC_START_STATUS_PHASE 3).commitActive
        else match (s.setF F.TMC_START_STATUS_PHASE 3).checked b with
          | .inl e =>
            let u := ((s.setF F.TMC_START_STATUS_PHASE 3).failed e).slotWrite (fun c => { c with mark := false })
            { u with tmc := { u.tmc with fallback := true } }.commitActive
          | .inr t => ((s.setF F.TMC_START_STATUS_PHASE 3).commitPoint t b true).groupA := by
  rw [prepareComplete, if_neg (by simp [hphase, hdome]), hlocked]
  rfl

/-- ACTIVE that passes the checks is committed. -/
theorem commitActive_committed {s t : State} {b : Bundle} (hactive : s.tmc.active = some b) (hchecked : s.checked b = .inr t) :
    s.commitActive = (s.commitPoint t b false).groupA := by
  rw [State.commitActive, hactive]
  dsimp only
  rw [hchecked]

theorem commitActive_none {s : State} (hactive : s.tmc.active = none) : s.commitActive = s.noBundle := by
  rw [State.commitActive, hactive]

/-- R493: GROUP_B_ENABLE in PHASE GROUP_A. -/
theorem groupBEnable_eq {s : State} (hphase : s.get F.TMC_START_STATUS_PHASE = 4) :
    groupBEnable s =
      let s := if s.timeMet then s else s.advanceTo (s.tmc.groupAt + secs (s.get F.TMC_START_CFG_LAT_WAIT))
      let s := groupBFields.foldl (fun s f => s.enableB f) s
      let s := (if s.flag F.SLP_CTL_EN then s.slpStart else s).setF F.TMC_START_STATUS_PHASE 6
      let s := if s.flag F.SLE_CTL_EN then s.latsOn.foldl (fun s l => s.latStart l) s else s
      (if s.flag F.DRE_CTL_EN then s.armInit else s).evalReady := by
  rw [groupBEnable, if_neg (fun h => h hphase)]

/-- Settles O20: PREPARE_COMPLETE by what the slots hold, GROUP_B_ENABLE by its phase. -/
theorem startUpCommitsAndStartsGroupB : Obligations.StartUpCommitsAndStartsGroupB := by
  unfold Obligations.StartUpCommitsAndStartsGroupB
  refine fun s => ⟨fun hphase hdome hlocked => ⟨fun hactive hpending => ?_, fun b t hpending hmark hchecked => ?_,
    fun b t hactive hmark hchecked => ?_⟩, fun hphase => ?_⟩
  · rw [exec_prepareComplete, execPrepareComplete, prepareComplete_unlocked hphase hdome hlocked, hpending]
    exact congrArg _ (commitActive_none (s := s.setF F.TMC_START_STATUS_PHASE 3) hactive)
  · rw [exec_prepareComplete, execPrepareComplete, prepareComplete_unlocked hphase hdome hlocked, hpending, hmark]
    dsimp only
    rw [hchecked]
    rfl
  · have hcommit := commitActive_committed (s := s.setF F.TMC_START_STATUS_PHASE 3) hactive hchecked
    rw [exec_prepareComplete, execPrepareComplete, prepareComplete_unlocked hphase hdome hlocked, hmark]
    cases s.tmc.pending <;> exact congrArg _ hcommit
  · rw [exec_groupBEnable, execGroupBEnable, groupBEnable_eq hphase]

end Sys2Proof.Machine
end

section
/-! O21: the frames of the carrier bus. -/
namespace Sys2Proof.Machine

-- one proof after the other: started together they wait on each other's results, each in a thread of its own
set_option Elab.async false

theorem Touches.set_qbc_slp {l : List StatePart} {s t : State} (h : Touches l s t) (x0 : Qbc) (x1 : Slp) (h0 : StatePart.qbc ∈ l := by simp) (h1 : StatePart.slp ∈ l := by simp) :
    Touches l s { t with qbc := x0, slp := x1 } := by
  constructor
  intro q hq
  cases q
  case qbc => exact absurd h0 hq
  case slp => exact absurd h1 hq
  all_goals exact h.same _ hq

theorem qbInputs_touches {s : State} {di : Nat} :
    Touches [.qbc, .slp] s (State.qbInputs s di) := by
  unfold State.qbInputs
  repeat' first
    | with_reducible assumption
    | with_reducible exact Touches.refl _ _
    | (dsimp only [Touches.mk_eq]; dsimp only [TouchesD]; with_reducible apply Touches.set_qbc (x := _))
    | (dsimp only [Touches.mk_eq]; dsimp only [TouchesD]; with_reducible apply Touches.set_qbc_slp (x0 := _) (x1 := _))
    | (extract_lets +onlyGivenNames x; (have hv : x = x := by unfold x; exact Eq.refl _); clear hv; clear_value x)
    | with_reducible apply Touches.ite
    | with_reducible apply Touches.foldl
    | with_reducible apply Touches.foldl2
    | (intro _; intros; try beta_reduce)

theorem qbReceive_touches {s : State} {di : Nat} {ref : Option Nat} {skip : Bool} :
    Touches [.regs, .qbc, .slp] s (State.qbReceive s di ref skip) := by
  unfold State.qbReceive
  repeat' first
    | with_reducible assumption
    | with_reducible exact Touches.refl _ _
    | (dsimp only [Touches.mk_eq]; dsimp only [TouchesD]; with_reducible apply Touches.set_qbc (x := _))
    | (extract_lets +onlyGivenNames x; refine Touches.cut (l := [.regs, .qbc, .slp]) (s := s) (t := x) ?_ (fun hx => ?_); (on_goal 1 => (unfold x; clear x)); (on_goal 2 => clear_value x))
    | (extract_lets +onlyGivenNames x; (have hv : x = x := by unfold x; exact Eq.refl _); clear hv; clear_value x)
    | with_reducible apply Touches.ite
    | with_reducible apply Touches.via bump_touches
    | with_reducible apply Touches.via setF_touches
    | with_reducible apply Touches.via qbInputs_touches


/-! ### QBC_START -/

/-- What QBC_START leaves. -/
def State.qbcStarted (s : State) : State :=
  { s.advanceTo (s.sup.vioSince + ms 1) with
    qbc := { s.qbc with waiting := false, running := s.flag F.QBC_CTL_EN }, sup := { s.sup with vioDriven := true, released := true } }

theorem qbcStart_eq {s : State} (hwait : s.qbc.waiting = true) (hstop : s.qbc.stopped = false) (hvio : s.sup.vioStop = false)
    (hstate : s.get F.PHM_SUPPLY_STATUS_VIO_CAR_STATE = 1) : qbcStart s = s.qbcStarted := by
  rw [qbcStart, if_neg (by simp [hwait, hstop, hvio, hstate])]
  rfl

theorem qbcStarted_pin {s : State} (hvio : s.vioState s.sup.vioCar = 1) (hreset : s.pinsReset = false) :
    s.qbcStarted.pin .rstOutN = .high := by
  have hlive : s.qbcStarted.vioLive = true := by
    have h : s.qbcStarted.vioState s.qbcStarted.sup.vioCar = 1 := hvio
    rw [State.vioLive, h]
    rfl
  have hrel : (s.qbcStarted.sup.released && !s.qbcStarted.pinsReset) = true := by
    have h : s.qbcStarted.pinsReset = false := hreset
    rw [h]
    rfl
  rw [State.pin, if_pos hlive, State.vioPin, hrel]
  · rfl
  all_goals exact fun h => by cases h

/-! ### A frame -/

/-- The frame number that goes out next. -/
def State.qbSeq (s : State) : Nat := if s.qbc.sentAny then (s.get F.QBC_STATUS_LAST_SEQ + 1) % 256 else 0

theorem qbSeq_lt (s : State) : s.qbSeq < 2 ^ 8 := by
  unfold State.qbSeq
  split <;> omega

theorem qbHold_lt (s : State) : s.qbHold < 2 ^ 2 := by
  unfold State.qbHold
  dsimp only
  split_ifs <;> decide

/-- The bus at the frame's start. -/
def State.qbBegun (s : State) : State :=
  let s := s.advanceTo (nextFrame s.now)
  { s with qbc := { s.qbc with
    sentAny := true, outWord := s.qbWord, lastDo := ofLsb (qbOut (s.qbHold == 0) s.qbSeq s.qbWord)
    refSeq := if s.qbHold == 0 then some s.qbSeq else s.qbc.refSeq } }

/-- The state in which a frame is received: the frame has gone out. -/
def State.qbSent (s : State) : State :=
  (((s.qbBegun.setF F.QBC_STATUS_LAST_SEQ s.qbSeq).setB F.QBC_STATUS_UPD (s.qbHold == 0)).setF F.QBC_STATUS_HOLD s.qbHold).advanceTo
    (nextFrame s.now + ns 5760)

theorem qbFrame_eq {s : State} {di : Nat} (hrun : s.qbc.running = true) (hstop : s.qbc.stopped = false) (hen : s.flag F.QBC_CTL_EN = true) :
    qbFrame di s = s.qbSent.qbReceive di s.qbc.refSeq (s.qbHold == 0 && !s.flag F.QBC_STATUS_UPD) := by
  rw [qbFrame, if_neg (by simp [hrun, hstop, hen])]
  rfl

/-- R70, R73, R74: what a frame sent leaves. -/
theorem qbSent_next (s : State) :
    s.qbSent.tbu.t48 = max (max s.tbu.t48 (nextFrame s.now * 2 ^ 32)) ((nextFrame s.now + ns 5760) * 2 ^ 32) ∧
      s.qbSent.get F.QBC_STATUS_HOLD = s.qbHold ∧ s.qbSent.flag F.QBC_STATUS_UPD = (s.qbHold == 0) ∧
      s.qbSent.get F.QBC_STATUS_LAST_SEQ = s.qbSeq ∧ s.qbSent.qbc.outWord = s.qbWord ∧ s.qbSent.slp = s.slp ∧
      s.qbSent.qbc.badRun = s.qbc.badRun := by
  have hword : (s.advanceTo (nextFrame s.now)).qbWord = s.qbWord := rfl
  have hout : s.qbSent.qbc.outWord = (s.advanceTo (nextFrame s.now)).qbWord := rfl
  refine ⟨rfl, ?_, ?_, ?_, hout.trans hword, rfl, rfl⟩
  all_goals rw [State.qbSent]
  · rw [advanceTo_touches.get_eq, State.get_setF_same]
    exact Nat.mod_eq_of_lt (qbHold_lt s)
  · rw [advanceTo_touches.flag_eq, State.flag, State.get_setF_ne _ _ (by decide), State.get_setB_same]
    exact b2n_bit _
  · rw [advanceTo_touches.get_eq, State.get_setF_ne _ _ (by decide), State.setB, State.get_setF_ne _ _ (by decide), State.get_setF_same]
    exact Nat.mod_eq_of_lt (qbSeq_lt s)

/-- The fields of a frame's start and of its input words stand apart from those of its reception. -/
theorem qbSent_config (s : State) :
    s.qbSent.get F.QBC_CTL_IN_FILT = s.get F.QBC_CTL_IN_FILT ∧ s.qbSent.get F.QBC_MAP_IN_BASE = s.get F.QBC_MAP_IN_BASE := by
  have hbegun : s.qbBegun.regs = s.regs := rfl
  have h : WritesFields (2 ^ 64) [F.QBC_STATUS_LAST_SEQ, F.QBC_STATUS_UPD, F.QBC_STATUS_HOLD] s s.qbSent :=
    .via (advanceTo_touches.writesFields _) (.via setF_writes (.via setB_writes (.via setF_writes ((WritesFields.refl _ _ s).of_regs hbegun))))
  exact ⟨h.get_eq (by decide) (by decide), h.get_eq (by decide) (by decide)⟩

/-! ### Reception -/

/-- The state in which a frame with a bad CRC has been counted. -/
def State.qbCounted (s : State) : State :=
  { s with qbc := { s.qbc with badRun := s.qbc.badRun + 1, goodRun := 0 } }.bump F.QBC_ERR_CNT_IN_CRC_ERR

theorem qbReceive_bad {s : State} {di : Nat} {ref : Option Nat} {skip : Bool} (hdi : qbInOk di = false) :
    s.qbReceive di ref skip = if 3 ≤ s.qbc.badRun + 1 then s.qbCounted.setF F.QBC_STATUS_IN_VALID 0 else s.qbCounted := by
  rw [State.qbReceive, hdi]
  rfl

/-- R72: an input frame whose CRC fails changes no input, and the third in a row clears IN_VALID. -/
theorem qbReceive_bad_next {s : State} {di : Nat} {ref : Option Nat} {skip : Bool} (hdi : qbInOk di = false) :
    Touches [.regs, .qbc] s (s.qbReceive di ref skip) ∧ (s.qbReceive di ref skip).qbc.outWord = s.qbc.outWord ∧
      (s.qbReceive di ref skip).qbc.badRun = s.qbc.badRun + 1 ∧
      (3 ≤ s.qbc.badRun + 1 → (s.qbReceive di ref skip).get F.QBC_STATUS_IN_VALID = 0) ∧
      WritesFields (2 ^ 64) [F.QBC_ERR_CNT_IN_CRC_ERR, F.QBC_STATUS_IN_VALID] s (s.qbReceive di ref skip) := by
  have hcount : Touches [.regs, .qbc] s s.qbCounted := .via bump_touches (Touches.set_qbc (.refl _ _) _)
  have hfields : WritesFields (2 ^ 64) [F.QBC_ERR_CNT_IN_CRC_ERR, F.QBC_STATUS_IN_VALID] s s.qbCounted :=
    .via bump_writes ((WritesFields.refl _ _ s).of_regs rfl)
  rw [qbReceive_bad hdi]
  split
  · exact ⟨.via setF_touches hcount, rfl, rfl, fun _ => State.get_setF_same _ _ _, .via setF_writes hfields⟩
  case isFalse h => exact ⟨hcount, rfl, rfl, fun h3 => absurd h3 h, hfields⟩

/-- One input of an accepted frame. -/
def State.qbInput (base need di : Nat) (s : State) (n : Nat) : State :=
  let v := bit (16 + n) di
  if v == Tbl.get false (base + n) s.slp.i then { s with qbc := { s.qbc with cand := Tbl.set 0 n 0 s.qbc.cand } }
  else
    let k := Tbl.get 0 n s.qbc.cand + 1
    if need ≤ k then { s with
      slp := { s.slp with i := Tbl.set false (base + n) v s.slp.i }, qbc := { s.qbc with cand := Tbl.set 0 n 0 s.qbc.cand } }
    else { s with qbc := { s.qbc with cand := Tbl.set 0 n k s.qbc.cand } }

theorem qbInputs_eq (s : State) (di : Nat) :
    s.qbInputs di = (List.range 256).foldl (State.qbInput (s.get F.QBC_MAP_IN_BASE) (s.get F.QBC_CTL_IN_FILT + 1) di) s := rfl

/-- Without a filter an input takes its bit, and no other input moves. -/
theorem qbInput_unfiltered (base di : Nat) (s : State) (n m : Nat) :
    Tbl.get false (base + m) (s.qbInput base 1 di n).slp.i = if m = n then bit (16 + n) di else Tbl.get false (base + m) s.slp.i := by
  unfold State.qbInput
  dsimp only
  split
  case isTrue h =>
    split
    case isTrue hmn =>
      subst hmn
      exact (beq_iff_eq.mp h).symm
    case isFalse => rfl
  case isFalse h =>
    rw [if_pos (by omega)]
    split
    case isTrue hmn =>
      subst hmn
      exact Tbl.get_set_same _ _ _ _
    case isFalse hmn => exact Tbl.get_set_ne _ _ (by omega) _ _

theorem qbInput_badRun (base need di : Nat) (s : State) (n : Nat) : (s.qbInput base need di n).qbc.badRun = s.qbc.badRun := by
  unfold State.qbInput
  dsimp only
  split_ifs <;> rfl

/-- The inputs of a frame, as far as they have been taken. -/
theorem foldl_qbInput (base di : Nat) (ns : List Nat) (s : State) :
    (ns.foldl (State.qbInput base 1 di) s).qbc.badRun = s.qbc.badRun ∧
      ∀ m, Tbl.get false (base + m) (ns.foldl (State.qbInput base 1 di) s).slp.i =
        if m ∈ ns then bit (16 + m) di else Tbl.get false (base + m) s.slp.i := by
  induction ns generalizing s with
  | nil => exact ⟨rfl, fun m => (if_neg (List.not_mem_nil)).symm⟩
  | cons n ns ih =>
    obtain ⟨hbad, hget⟩ := ih (s.qbInput base 1 di n)
    refine ⟨hbad.trans (qbInput_badRun _ _ _ _ _), fun m => ?_⟩
    rw [List.foldl_cons, hget m, qbInput_unfiltered]
    by_cases hmn : m = n <;> by_cases hmem : m ∈ ns <;> simp [hmn, hmem]

theorem qbEcho_lt (di : Nat) : qbEcho di < 2 ^ 8 := by
  have hlen : ∀ l : List Bool, ofLsb l < 2 ^ l.length := by
    intro l
    induction l with
    | nil => decide
    | cons b l ih =>
      rw [ofLsb, List.length_cons, Nat.pow_succ]
      cases b <;> simp [b2n] <;> omega
  have h := hlen (lsbFirst 8 (di / 2 ^ 8)).reverse
  rwa [List.length_reverse, lsbFirst, List.length_map, List.length_range] at h

/-- The state in which the inputs of an accepted frame are taken. -/
def State.qbAccepted (s : State) (di : Nat) (ref : Option Nat) (skip : Bool) : State :=
  let s : State := { s with qbc := { s.qbc with badRun := 0, goodRun := s.qbc.goodRun + 1 } }
  let s := if 3 ≤ s.qbc.goodRun then s.setF F.QBC_STATUS_IN_VALID 1 else s
  let s := s.setF F.QBC_STATUS_ECHO_SEQ (qbEcho di)
  let bad := match ref with
    | some r => s.flag F.QBC_CTL_ECHO_CHK && !skip && qbEcho di != r
    | none => false
  if bad then s.bump F.QBC_ERR_CNT_ECHO_ERR else s

theorem qbReceive_good {s : State} {di : Nat} {ref : Option Nat} {skip : Bool} (hdi : qbInOk di = true) :
    s.qbReceive di ref skip = (s.qbAccepted di ref skip).qbInputs di := by
  rw [State.qbReceive, hdi]
  rfl

theorem qbAccepted_next (s : State) (di : Nat) (ref : Option Nat) (skip : Bool) :
    (s.qbAccepted di ref skip).get F.QBC_STATUS_ECHO_SEQ = qbEcho di ∧ (s.qbAccepted di ref skip).qbc.badRun = 0 ∧
      WritesFields (2 ^ 64) [F.QBC_STATUS_IN_VALID, F.QBC_STATUS_ECHO_SEQ, F.QBC_ERR_CNT_ECHO_ERR] s (s.qbAccepted di ref skip) := by
  unfold State.qbAccepted
  extract_lets q u v w bad
  have hu : u.qbc.badRun = 0 := rfl
  have huw : WritesFields (2 ^ 64) [F.QBC_STATUS_IN_VALID, F.QBC_STATUS_ECHO_SEQ, F.QBC_ERR_CNT_ECHO_ERR] s u :=
    (WritesFields.refl _ _ s).of_regs rfl
  have hv : v.qbc.badRun = 0 := by
    unfold v
    split <;> exact hu
  have hvw : WritesFields (2 ^ 64) [F.QBC_STATUS_IN_VALID, F.QBC_STATUS_ECHO_SEQ, F.QBC_ERR_CNT_ECHO_ERR] s v :=
    .ite (.via setF_writes huw) huw
  have hw : w.get F.QBC_STATUS_ECHO_SEQ = qbEcho di := (State.get_setF_same _ _ _).trans (Nat.mod_eq_of_lt (qbEcho_lt di))
  have hww : WritesFields (2 ^ 64) [F.QBC_STATUS_IN_VALID, F.QBC_STATUS_ECHO_SEQ, F.QBC_ERR_CNT_ECHO_ERR] s w := .via setF_writes hvw
  split
  · have hecho : WritesFields (2 ^ 64) [F.QBC_ERR_CNT_ECHO_ERR] w (w.bump F.QBC_ERR_CNT_ECHO_ERR) := bump_writes
    exact ⟨(hecho.get_eq (by decide) (by decide)).trans hw, hv, .via bump_writes hww⟩
  · exact ⟨hw, hv, hww⟩

/-- R72: an accepted frame shows its ECHO, and without a filter sets the whole image. -/
theorem qbReceive_good_next {s : State} {di : Nat} {ref : Option Nat} {skip : Bool} (hdi : qbInOk di = true)
    (hfilt : s.get F.QBC_CTL_IN_FILT = 0) :
    (s.qbReceive di ref skip).get F.QBC_STATUS_ECHO_SEQ = qbEcho di ∧ (s.qbReceive di ref skip).qbc.badRun = 0 ∧
      ∀ n, n < 256 → Tbl.get false (s.get F.QBC_MAP_IN_BASE + n) (s.qbReceive di ref skip).slp.i = bit (16 + n) di := by
  obtain ⟨hecho, hbad, hfields⟩ := qbAccepted_next s di ref skip
  have hfilt' : (s.qbAccepted di ref skip).get F.QBC_CTL_IN_FILT = 0 := (hfields.get_eq (by decide) (by decide)).trans hfilt
  have hbase : (s.qbAccepted di ref skip).get F.QBC_MAP_IN_BASE = s.get F.QBC_MAP_IN_BASE := hfields.get_eq (by decide) (by decide)
  rw [qbReceive_good hdi]
  refine ⟨(qbInputs_touches.get_eq _).trans hecho, ?_⟩
  rw [qbInputs_eq, hfilt', hbase]
  obtain ⟨hrun, hget⟩ := foldl_qbInput (s.get F.QBC_MAP_IN_BASE) di (List.range 256) (s.qbAccepted di ref skip)
  exact ⟨hrun.trans hbad, fun n hn => (hget n).trans (if_pos (List.mem_range.mpr hn))⟩

/-- Settles O21: QBC_START, and a frame through its sending and its reception. -/
theorem carrierFramesFollowTheirSchedule : Obligations.CarrierFramesFollowTheirSchedule := by
  unfold Obligations.CarrierFramesFollowTheirSchedule
  refine fun s => ⟨fun hwait hstop hvio hstate => ?_, fun di hrun hstop hen hdi => ?_, fun di hrun hstop hen hdi hfilt => ?_⟩
  · refine ⟨s.qbcStarted, ?_, rfl, rfl, rfl, rfl, rfl, rfl, rfl, fun hv hr => qbcStarted_pin hv hr⟩
    rw [exec_qbcStart, execQbcStart, qbcStart_eq hwait hstop hvio hstate]
  · obtain ⟨htime, hhold, hupd, hseq, hword, hslp, hbad⟩ := qbSent_next s
    obtain ⟨htouch, hout, hrun', hvalid, hfields⟩ := qbReceive_bad_next (s := s.qbSent) (ref := s.qbc.refSeq)
      (skip := s.qbHold == 0 && !s.flag F.QBC_STATUS_UPD) hdi
    rw [hbad] at hrun' hvalid
    refine ⟨_, by rw [exec_qbFrame, execQbFrame, qbFrame_eq hrun hstop hen], (congrArg Tbu.t48 htouch.tbu_eq).trans htime,
      (hfields.get_eq (by decide) (by decide)).trans hhold, (hfields.flag_eq (by decide) (by decide)).trans hupd,
      (hfields.get_eq (by decide) (by decide)).trans hseq, hout.trans hword, congrArg Slp.i (htouch.slp_eq.trans hslp), hrun', hvalid⟩
  · obtain ⟨hf, hb⟩ := qbSent_config s
    obtain ⟨hecho, hrun', himg⟩ := qbReceive_good_next (s := s.qbSent) (ref := s.qbc.refSeq)
      (skip := s.qbHold == 0 && !s.flag F.QBC_STATUS_UPD) hdi (hf.trans hfilt)
    rw [hb] at himg
    exact ⟨_, by rw [exec_qbFrame, execQbFrame, qbFrame_eq hrun hstop hen], hecho, hrun', himg⟩

end Sys2Proof.Machine
end

section
/-! O22: second boundaries, pulses, and the calibration of the TDC lines. -/
namespace Sys2Proof.Machine

-- one proof after the other: started together they wait on each other's results, each in a thread of its own
set_option Elab.async false

theorem Touches.set_sup_tbu {l : List StatePart} {s t : State} (h : Touches l s t) (x0 : Supply) (x1 : Tbu) (h0 : StatePart.sup ∈ l := by simp) (h1 : StatePart.tbu ∈ l := by simp) :
    Touches l s { t with sup := x0, tbu := x1 } := by
  constructor
  intro q hq
  cases q
  case sup => exact absurd h0 hq
  case tbu => exact absurd h1 hq
  all_goals exact h.same _ hq

theorem setTdc_touches {s : State} {ch : Nat} {t : Tdc} :
    Touches [.regs, .tbu] s (State.setTdc s ch t) := by
  unfold State.setTdc
  repeat' first
    | with_reducible assumption
    | with_reducible exact Touches.refl _ _
    | (dsimp only [Touches.mk_eq]; dsimp only [TouchesD]; with_reducible apply Touches.set_tbu (x := _))
    | with_reducible apply Touches.via tdcView_touches

theorem servo_touches {s : State} {o : Int} :
    Touches [.regs, .tbu, .free] s (State.servo s o) := by
  unfold State.servo
  repeat' first
    | with_reducible assumption
    | with_reducible exact Touches.refl _ _
    | (dsimp only [Touches.mk_eq]; dsimp only [TouchesD]; with_reducible apply Touches.set_tbu (x := _))
    | (extract_lets +onlyGivenNames x; refine Touches.cut (l := [.regs, .tbu, .free]) (s := s) (t := x) ?_ (fun hx => ?_); (on_goal 1 => (unfold x; clear x)); (on_goal 2 => clear_value x))
    | (extract_lets +onlyGivenNames x; refine Touches.cut2 (l := [.regs, .tbu, .free]) (s := s) (x := x) ?_ (fun hx => ?_); (on_goal 1 => (unfold x; clear x)); (on_goal 2 => clear_value x))
    | (extract_lets +onlyGivenNames x; (have hv : x = x := by unfold x; exact Eq.refl _); clear hv; clear_value x)
    | with_reducible apply Touches.ite
    | with_reducible apply Touches.via openDiv_touches
    | with_reducible apply Touches.via setRate_touches

theorem ppsInEdge_touches {code : Nat} {s : State} :
    Touches [.regs, .tbu, .free] s (ppsInEdge code s) := by
  unfold ppsInEdge
  repeat' first
    | with_reducible assumption
    | with_reducible exact Touches.refl _ _
    | (dsimp only [Touches.mk_eq]; dsimp only [TouchesD]; with_reducible apply Touches.set_tbu (x := _))
    | with_reducible apply Touches.ite
    | with_reducible apply Touches.via bump_touches
    | with_reducible apply Touches.via openDiv_touches
    | with_reducible apply Touches.via setF_touches
    | with_reducible apply Touches.via servo_touches
    | with_reducible apply Touches.via setI_touches
    | with_reducible apply Touches.via holdCount_touches

theorem ppsInTimeout_touches {s : State} :
    Touches [.regs, .tbu] s (ppsInTimeout s) := by
  unfold ppsInTimeout
  repeat' first
    | with_reducible assumption
    | with_reducible exact Touches.refl _ _
    | with_reducible apply Touches.via advanceTo_touches
    | with_reducible apply Touches.via setF_touches
    | with_reducible apply Touches.via holdCount_touches
    | split

theorem ppsPlace_touches {s : State} {t : Time} :
    Touches [.free] s (State.ppsPlace s t).2 := by
  unfold State.ppsPlace
  repeat' first
    | with_reducible assumption
    | with_reducible exact Touches.refl _ _
    | (extract_lets +onlyGivenNames x; refine Touches.cut2 (l := [.free]) (s := s) (x := x) ?_ (fun hx => ?_); (on_goal 1 => (unfold x; clear x)); (on_goal 2 => clear_value x))
    | (extract_lets +onlyGivenNames x; (have hv : x = x := by unfold x; exact Eq.refl _); clear hv; clear_value x)
    | with_reducible apply Touches.ite
    | with_reducible apply Touches.ite2
    | with_reducible apply Touches.via step_touches
    | with_reducible apply Touches.via openDiv_touches

theorem secondBoundary_touches {s : State} :
    Touches [.regs, .sup, .keep, .tbu, .free] s (secondBoundary s) := by
  unfold secondBoundary
  repeat' first
    | with_reducible assumption
    | with_reducible exact Touches.refl _ _
    | (dsimp only [Touches.mk_eq]; dsimp only [TouchesD]; with_reducible apply Touches.set_keep (x := _))
    | (dsimp only [Touches.mk_eq]; dsimp only [TouchesD]; with_reducible apply Touches.set_sup_tbu (x0 := _) (x1 := _))
    | (extract_lets +onlyGivenNames x; refine Touches.cut (l := [.regs, .sup, .keep, .tbu, .free]) (s := s) (t := x) ?_ (fun hx => ?_); (on_goal 1 => (unfold x; clear x)); (on_goal 2 => clear_value x))
    | (extract_lets +onlyGivenNames x; refine Touches.cut2 (l := [.regs, .sup, .keep, .tbu, .free]) (s := s) (x := x) ?_ (fun hx => ?_); (on_goal 1 => (unfold x; clear x)); (on_goal 2 => clear_value x))
    | (extract_lets +onlyGivenNames x; (have hv : x = x := by unfold x; exact Eq.refl _); clear hv; clear_value x)
    | with_reducible apply Touches.ite
    | with_reducible apply Touches.via advanceTo_touches
    | with_reducible apply Touches.via bump_touches
    | with_reducible apply Touches.via ppsPlace_touches

theorem setRate_all {k : Nat} {s : State} {v : Int} :
    WritesFields k [F.TBU_RATE_ADJ_RATE_ADJ] s (State.setRate s v) := by
  unfold State.setRate
  repeat' first
    | with_reducible assumption
    | with_reducible exact WritesFields.refl _ _ _
    | (dsimp only [WritesFields.mk_eq]; with_reducible apply WritesRegs.of)
    | with_reducible apply WritesFields.via (setI_writes (f := F.TBU_RATE_ADJ_RATE_ADJ))

theorem tdcView_all {k : Nat} {s : State} :
    WritesFields k [F.TBU_STATUS_COARSE, F.TBU_TDC_STATUS_COARSE_CH] s (State.tdcView s) := by
  unfold State.tdcView
  repeat' first
    | with_reducible assumption
    | with_reducible exact WritesFields.refl _ _ _
    | (extract_lets +onlyGivenNames x; (have hv : x = x := by unfold x; exact Eq.refl _); clear hv; clear_value x)
    | with_reducible apply WritesFields.via (setB_writes (f := F.TBU_STATUS_COARSE))
    | with_reducible apply WritesFields.via (setF_writes (f := F.TBU_TDC_STATUS_COARSE_CH))

theorem setTdc_all {k : Nat} {s : State} {ch : Nat} {t : Tdc} :
    WritesFields k [F.TBU_STATUS_COARSE, F.TBU_TDC_STATUS_COARSE_CH] s (State.setTdc s ch t) := by
  unfold State.setTdc
  repeat' first
    | with_reducible assumption
    | with_reducible exact WritesFields.refl _ _ _
    | (dsimp only [WritesFields.mk_eq]; with_reducible apply WritesRegs.of)
    | with_reducible apply WritesFields.via tdcView_all

theorem servo_all {k : Nat} {s : State} {o : Int} :
    WritesFields k [F.TBU_RATE_ADJ_RATE_ADJ] s (State.servo s o) := by
  unfold State.servo
  repeat' first
    | with_reducible assumption
    | with_reducible exact WritesFields.refl _ _ _
    | (dsimp only [WritesFields.mk_eq]; with_reducible apply WritesRegs.of)
    | (extract_lets +onlyGivenNames x; refine WritesFields.cut (k := k) (W := [F.TBU_RATE_ADJ_RATE_ADJ]) (s := s) (t := x) ?_ (fun hx => ?_); (on_goal 1 => (unfold x; clear x)); (on_goal 2 => clear_value x))
    | (extract_lets +onlyGivenNames x; refine WritesFields.cut2 (k := k) (W := [F.TBU_RATE_ADJ_RATE_ADJ]) (s := s) (x := x) ?_ (fun hx => ?_); (on_goal 1 => (unfold x; clear x)); (on_goal 2 => clear_value x))
    | (extract_lets +onlyGivenNames x; (have hv : x = x := by unfold x; exact Eq.refl _); clear hv; clear_value x)
    | with_reducible apply WritesFields.ite
    | with_reducible apply WritesFields.via ((openDiv_touches).writesFields _)
    | with_reducible apply WritesFields.via setRate_all

theorem ppsInEdge_all {k : Nat} {code : Nat} {s : State} :
    WritesFields k [F.TBU_EVT_CNT_PPS_IN_REJ, F.TBU_PPS_IN_OFFSET_OFFSET, F.TBU_PPS_IN_TS_GT64, F.TBU_RATE_ADJ_RATE_ADJ, F.TBU_STATUS_PPS_IN_OK] s (ppsInEdge code s) := by
  unfold ppsInEdge
  repeat' first
    | with_reducible assumption
    | with_reducible exact WritesFields.refl _ _ _
    | (dsimp only [WritesFields.mk_eq]; with_reducible apply WritesRegs.of)
    | with_reducible apply WritesFields.ite
    | with_reducible apply WritesFields.via (bump_writes (f := F.TBU_EVT_CNT_PPS_IN_REJ))
    | with_reducible apply WritesFields.via (setF_writes (f := F.TBU_PPS_IN_TS_GT64))
    | with_reducible apply WritesFields.via (setF_writes (f := F.TBU_STATUS_PPS_IN_OK))
    | with_reducible apply WritesFields.via (setI_writes (f := F.TBU_PPS_IN_OFFSET_OFFSET))
    | with_reducible apply WritesFields.via ((openDiv_touches).writesFields _)
    | with_reducible apply WritesFields.via servo_all
    | with_reducible apply WritesFields.via ((holdCount_touches).writesFields _)

theorem ppsInTimeout_all {k : Nat} {s : State} :
    WritesFields k [F.TBU_STATUS_PPS_IN_OK] s (ppsInTimeout s) := by
  unfold ppsInTimeout
  repeat' first
    | with_reducible assumption
    | with_reducible exact WritesFields.refl _ _ _
    | with_reducible apply WritesFields.via ((advanceTo_touches).writesFields _)
    | with_reducible apply WritesFields.via (setF_writes (f := F.TBU_STATUS_PPS_IN_OK))
    | with_reducible apply WritesFields.via ((holdCount_touches).writesFields _)
    | split

theorem secondBoundary_all {k : Nat} {s : State} :
    WritesFields k [F.PHM_KEEP_CNT_OP_SEC] s (secondBoundary s) := by
  unfold secondBoundary
  repeat' first
    | with_reducible assumption
    | with_reducible exact WritesFields.refl _ _ _
    | (dsimp only [WritesFields.mk_eq]; with_reducible apply WritesRegs.of)
    | (extract_lets +onlyGivenNames x; refine WritesFields.cut (k := k) (W := [F.PHM_KEEP_CNT_OP_SEC]) (s := s) (t := x) ?_ (fun hx => ?_); (on_goal 1 => (unfold x; clear x)); (on_goal 2 => clear_value x))
    | (extract_lets +onlyGivenNames x; refine WritesFields.cut2 (k := k) (W := [F.PHM_KEEP_CNT_OP_SEC]) (s := s) (x := x) ?_ (fun hx => ?_); (on_goal 1 => (unfold x; clear x)); (on_goal 2 => clear_value x))
    | (extract_lets +onlyGivenNames x; (have hv : x = x := by unfold x; exact Eq.refl _); clear hv; clear_value x)
    | with_reducible apply WritesFields.ite
    | with_reducible apply WritesFields.via ((advanceTo_touches).writesFields _)
    | with_reducible apply WritesFields.via (bump_writes (f := F.PHM_KEEP_CNT_OP_SEC))
    | with_reducible apply WritesFields.via ((ppsPlace_touches).writesFields _)


/-- Fields written whatever the key, as the model's `SameFieldsBut` says it. -/
theorem WritesFields.sameFieldsBut {W : List Field} {s t : State} (h : ∀ k, WritesFields k W s t) : SameFieldsBut W s t :=
  fun g hW => (h (g.key + 1)).get_eq (Nat.lt_succ_self _) (fun f hf => (hW f hf).symm)

/-! ### Second boundaries -/

/-- SECOND_BOUNDARY at its moment, with the Keep fallback written. -/
def State.secondKept (s : State) : State :=
  let s := s.advanceTo ((s.now / secUnits + 1) * secUnits)
  if s.flag F.TBU_STATUS_TIME_VALID then
    { s with keep := { s.keep with fallSec := Time.sec s.now, fallTick := 0, fallAt := s.now } } else s

/-- SECOND_BOUNDARY with OP_SEC counted. -/
def State.secondCounted (s : State) : State :=
  if s.secondKept.sup.pwrok then s.secondKept.bump F.PHM_KEEP_CNT_OP_SEC else s.secondKept

/-- The pulse of a second raised. -/
def State.ppsRaised (s : State) : State :=
  let x := s.ppsPlace s.now
  { x.2 with sup := { x.2.sup with ppsHigh := true }, tbu := { x.2.tbu with ppsAt := x.1 } }

/-- The end of SECOND_BOUNDARY, whatever state it ends. -/
theorem ite_ppsRaised (v : State) :
    (if v.ppsSends then { (v.ppsPlace v.now).2 with
        sup := { (v.ppsPlace v.now).2.sup with ppsHigh := true }, tbu := { (v.ppsPlace v.now).2.tbu with ppsAt := (v.ppsPlace v.now).1 } }
      else v) = if v.ppsSends then v.ppsRaised else v := rfl

theorem secondBoundary_eq (s : State) :
    secondBoundary s = if s.secondCounted.ppsSends then s.secondCounted.ppsRaised else s.secondCounted := by
  unfold secondBoundary State.secondCounted State.secondKept
  extract_lets u src v w
  exact ite_ppsRaised w

theorem secondKept_touches (s : State) : Touches [.keep] (s.advanceTo ((s.now / secUnits + 1) * secUnits)) s.secondKept :=
  .ite (Touches.set_keep (.refl _ _) _) (.refl _ _)

theorem secondCounted_touches (s : State) :
    Touches [.regs, .keep] (s.advanceTo ((s.now / secUnits + 1) * secUnits)) s.secondCounted :=
  .ite (.via bump_touches ((secondKept_touches s).mono (by simp))) ((secondKept_touches s).mono (by simp))

theorem ppsRaised_touches (s : State) : Touches [.sup, .tbu, .free] s s.ppsRaised :=
  Touches.set_sup_tbu (.via ppsPlace_touches (.refl _ _)) _ _

theorem ppsRaised_sup (s : State) : s.ppsRaised.sup = { s.sup with ppsHigh := true } := by
  have h := (ppsPlace_touches (s := s) (t := s.now)).sup_eq
  exact congrArg (fun u : Supply => { u with ppsHigh := true }) h

theorem ppsRaised_t48 (s : State) : s.ppsRaised.tbu.t48 = s.tbu.t48 :=
  show (s.ppsPlace s.now).2.tbu.t48 = s.tbu.t48 from congrArg Tbu.t48 (ppsPlace_touches (s := s) (t := s.now)).tbu_eq

theorem ppsSends_congr {s t : State} (h : ∀ g : Field, g ∈ [F.TMC_START_STATUS_PHASE, F.TBU_PPS_CFG_OUT_MODE, F.TBU_STATUS_TIME_VALID,
    F.TBU_STATUS_STATE] → t.get g = s.get g) : t.ppsSends = s.ppsSends := by
  unfold State.ppsSends State.clk State.flag
  rw [h F.TMC_START_STATUS_PHASE (by simp), h F.TBU_PPS_CFG_OUT_MODE (by simp), h F.TBU_STATUS_TIME_VALID (by simp),
    h F.TBU_STATUS_STATE (by simp)]

theorem secondCounted_writes {k : Nat} (s : State) : WritesFields k [F.PHM_KEEP_CNT_OP_SEC] s s.secondCounted := by
  have hkept : WritesFields k [F.PHM_KEEP_CNT_OP_SEC] s s.secondKept :=
    .via ((secondKept_touches s).writesFields _) (.via (advanceTo_touches.writesFields _) (.refl _ _ _))
  exact .ite (.via bump_writes hkept) hkept

theorem secondCounted_ppsSends (s : State) : s.secondCounted.ppsSends = s.ppsSends := by
  refine ppsSends_congr (fun g hg => (secondCounted_writes (k := 2 ^ 64) s).get_eq ?_ ?_)
  · have hall : ∀ g ∈ [F.TMC_START_STATUS_PHASE, F.TBU_PPS_CFG_OUT_MODE, F.TBU_STATUS_TIME_VALID, F.TBU_STATUS_STATE], g.key < 2 ^ 64 := by
      decide
    exact hall g hg
  · have hall : ∀ g ∈ [F.TMC_START_STATUS_PHASE, F.TBU_PPS_CFG_OUT_MODE, F.TBU_STATUS_TIME_VALID, F.TBU_STATUS_STATE],
        ∀ f ∈ [F.PHM_KEEP_CNT_OP_SEC], g.key ≠ f.key := by decide
    exact hall g hg

/-- R83, R96: a second boundary. -/
theorem secondBoundary_next (s : State) :
    ∃ t, exec .secondBoundary s = .next t ∧
      t.tbu.t48 = max s.tbu.t48 ((s.now / secUnits + 1) * secUnits * 2 ^ 32) ∧
      (s.flag F.TBU_STATUS_TIME_VALID = true → t.keep.fallSec = Time.sec t.now ∧ t.keep.fallTick = 0) ∧
      (s.flag F.TBU_STATUS_TIME_VALID = false → t.keep = s.keep) ∧
      (s.sup.pwrok = true → t.get F.PHM_KEEP_CNT_OP_SEC = min (s.get F.PHM_KEEP_CNT_OP_SEC + 1) (2 ^ F.PHM_KEEP_CNT_OP_SEC.width - 1)
        % 2 ^ F.PHM_KEEP_CNT_OP_SEC.width) ∧
      t.sup = { s.sup with ppsHigh := s.sup.ppsHigh || s.ppsSends } ∧
      SameFieldsBut [F.PHM_KEEP_CNT_OP_SEC] s t ∧ t.mem = s.mem ∧ t.slp = s.slp := by
  have hcount := secondCounted_touches s
  have hraise : Touches [.sup, .tbu, .free] s.secondCounted (secondBoundary s) := by
    rw [secondBoundary_eq]
    exact .ite (ppsRaised_touches _) (.refl _ _)
  have ht48 : (secondBoundary s).tbu.t48 = s.secondCounted.tbu.t48 := by
    rw [secondBoundary_eq]
    split
    · exact ppsRaised_t48 _
    · rfl
  have hnow : (secondBoundary s).now = (s.advanceTo ((s.now / secUnits + 1) * secUnits)).now :=
    congrArg (· / 2 ^ 32) (ht48.trans (congrArg Tbu.t48 hcount.tbu_eq))
  have hkeep : (secondBoundary s).keep = s.secondKept.keep := by
    have hc : s.secondCounted.keep = s.secondKept.keep := by
      unfold State.secondCounted
      split <;> rfl
    exact hraise.keep_eq.trans hc
  have hvalid : (s.advanceTo ((s.now / secUnits + 1) * secUnits)).flag F.TBU_STATUS_TIME_VALID = s.flag F.TBU_STATUS_TIME_VALID := rfl
  refine ⟨_, exec_secondBoundary s, ht48.trans (congrArg Tbu.t48 hcount.tbu_eq), fun hv => ?_, fun hv => ?_, fun hpwrok => ?_, ?_, ?_,
    hraise.mem_eq.trans hcount.mem_eq, hraise.slp_eq.trans hcount.slp_eq⟩
  · rw [hkeep, hnow, State.secondKept]
    dsimp only
    rw [hvalid, hv]
    exact ⟨rfl, rfl⟩
  · rw [hkeep, State.secondKept]
    dsimp only
    rw [hvalid, hv]
    rfl
  · have hpw : s.secondKept.sup.pwrok = true := (congrArg Supply.pwrok (secondKept_touches s).sup_eq).trans hpwrok
    have hget : s.secondKept.get F.PHM_KEEP_CNT_OP_SEC = s.get F.PHM_KEEP_CNT_OP_SEC := (secondKept_touches s).get_eq _
    rw [hraise.get_eq, State.secondCounted, if_pos hpw, State.get_bump_same, hget]
    exact (min_mod_width _ _).symm
  · rw [secondBoundary_eq, secondCounted_ppsSends]
    have hsup : s.secondCounted.sup = s.sup := hcount.sup_eq
    split
    case isTrue h => rw [ppsRaised_sup, hsup, h, Bool.or_true]
    case isFalse h => rw [hsup, Bool.eq_false_iff.mpr h, Bool.or_false]
  · exact WritesFields.sameFieldsBut (fun k => secondBoundary_all)

/-! ### Pulses -/

theorem ppsOutFall_next (s : State) (h : s.sup.ppsHigh = true) :
    exec .ppsOutFall s = .next { s.advanceTo (s.tbu.ppsAt + ms (10 * s.get F.TBU_PPS_CFG_OUT_WIDTH)) with
      sup := { s.sup with ppsHigh := false } } := by
  rw [exec_ppsOutFall, execPpsOutFall]
  unfold ppsOutFall
  rw [if_pos h]
  rfl

theorem holdCount_t48 (s : State) : s.holdCount.tbu.t48 = s.tbu.t48 := by
  unfold State.holdCount
  extract_lets stopped
  split <;> split <;> rfl

theorem holdCount_ppsLast (s : State) : s.holdCount.tbu.ppsLast = s.tbu.ppsLast := by
  unfold State.holdCount
  extract_lets stopped
  split <;> split <;> rfl

theorem ppsInTimeout_next (s : State) {l : Time} (hl : s.tbu.ppsLast = some l) :
    ∃ t, exec .ppsInTimeout s = .next t ∧ t.flag F.TBU_STATUS_PPS_IN_OK = false ∧
      t.tbu.t48 = max s.tbu.t48 ((l + ms 1500) * 2 ^ 32) ∧ SameFieldsBut [F.TBU_STATUS_PPS_IN_OK] s t ∧ t.mem = s.mem ∧ t.slp = s.slp := by
  have heq : ppsInTimeout s = ((s.advanceTo (l + ms 1500)).setF F.TBU_STATUS_PPS_IN_OK 0).holdCount := by
    unfold ppsInTimeout
    rw [hl]
  have htouch := ppsInTimeout_touches (s := s)
  refine ⟨_, exec_ppsInTimeout s, ?_, ?_, WritesFields.sameFieldsBut (fun k => ppsInTimeout_all), htouch.mem_eq, htouch.slp_eq⟩
  · rw [heq, holdCount_touches.flag_eq, State.flag, State.get_setF_same]
    rfl
  · rw [heq, holdCount_t48]
    rfl

theorem setRate_ppsLast (s : State) (v : Int) : (s.setRate v).tbu.ppsLast = s.tbu.ppsLast := rfl

theorem servo_ppsLast (s : State) (o : Int) : (s.servo o).tbu.ppsLast = s.tbu.ppsLast := by
  unfold State.servo
  extract_lets acc kp ki q v w
  have hq : q.2.tbu = s.tbu := openDiv_touches.tbu_eq
  have hw : w.tbu.ppsLast = s.tbu.ppsLast := (setRate_ppsLast q.2 v).trans (congrArg Tbu.ppsLast hq)
  split <;> exact hw

/-- What an accepted edge on PPS_IN shows in the registers. -/
def State.ppsShown (s : State) (at_ : Time) : State :=
  let q := s.openDiv (secOffset at_) 256
  let s := (q.2.setF F.TBU_PPS_IN_TS_GT64 (Time.gt64 at_)).setI F.TBU_PPS_IN_OFFSET_OFFSET q.1
  (s.setF F.TBU_STATUS_PPS_IN_OK 1).holdCount

/-- PPS_IN_EDGE at a place with the offset and the distance that R98 asks for. -/
def State.ppsTaken (s : State) (at_ : Time) : State :=
  State.ppsShown { s with tbu := { s.tbu with ppsLast := some at_ } } at_

/-- The servo follows an accepted edge where PPS_IN is its source. -/
def State.ppsServo (s : State) (at_ : Time) : State :=
  if s.clk = 3 ∧ s.get F.TBU_PPS_CFG_IN_MODE = 2 then s.servo (secOffset at_) else s

theorem ppsShown_ppsLast (s : State) (at_ : Time) : (s.ppsShown at_).tbu.ppsLast = s.tbu.ppsLast := by
  unfold State.ppsShown
  extract_lets q v
  have hq : q.2.tbu = s.tbu := openDiv_touches.tbu_eq
  have hok : Touches [.regs] q.2 (v.setF F.TBU_STATUS_PPS_IN_OK 1) := .via setF_touches (.via setI_touches (.via setF_touches (.refl _ _)))
  rw [holdCount_ppsLast, hok.tbu_eq, hq]

theorem ppsShown_flag (s : State) (at_ : Time) : (s.ppsShown at_).flag F.TBU_STATUS_PPS_IN_OK = true := by
  unfold State.ppsShown
  extract_lets q v
  rw [holdCount_touches.flag_eq, State.flag, State.get_setF_same]
  rfl

theorem ppsShown_ts (s : State) (at_ : Time) : (s.ppsShown at_).get F.TBU_PPS_IN_TS_GT64 = Time.gt64 at_ % 2 ^ 64 := by
  unfold State.ppsShown
  extract_lets q v
  have hok : (v.setF F.TBU_STATUS_PPS_IN_OK 1).get F.TBU_PPS_IN_TS_GT64 = v.get F.TBU_PPS_IN_TS_GT64 :=
    State.get_setF_ne v 1 (by decide)
  have hoff : v.get F.TBU_PPS_IN_TS_GT64 = (q.2.setF F.TBU_PPS_IN_TS_GT64 (Time.gt64 at_)).get F.TBU_PPS_IN_TS_GT64 :=
    State.get_setI_ne _ _ (by decide)
  exact (holdCount_touches.get_eq _).trans (hok.trans (hoff.trans (State.get_setF_same _ _ _)))

theorem ppsTaken_ppsLast (s : State) (at_ : Time) : (s.ppsTaken at_).tbu.ppsLast = some at_ :=
  ppsShown_ppsLast _ _

theorem ppsServo_ppsLast (s : State) (at_ : Time) : (s.ppsServo at_).tbu.ppsLast = s.tbu.ppsLast := by
  unfold State.ppsServo
  split
  · exact servo_ppsLast s _
  · rfl

theorem ppsServo_def (s : State) (at_ : Time) :
    (if s.clk = 3 ∧ s.get F.TBU_PPS_CFG_IN_MODE = 2 then s.servo (secOffset at_) else s) = s.ppsServo at_ := rfl

theorem ppsServo_all {k : Nat} {s : State} {at_ : Time} : WritesFields k [F.TBU_RATE_ADJ_RATE_ADJ] s (s.ppsServo at_) :=
  .ite (.via servo_all (.refl _ _ _)) (.refl _ _ _)

theorem secOffset_within_iff (s : State) (at_ : Time) :
    (!(decide (|secOffset at_| ≤ (ms 1 : Nat)) && match s.tbu.ppsLast with | some l => decide (l + ms 500 ≤ at_) | none => true)) = true ↔
      ((ms 1 : Nat) < |secOffset at_| ∨ ∃ l, s.tbu.ppsLast = some l ∧ at_ < l + ms 500) := by
  rw [Bool.not_eq_true', Bool.and_eq_false_iff, decide_eq_false_iff_not, not_le]
  cases s.tbu.ppsLast with
  | none => simp
  | some l => simp

theorem ppsInEdge_accepted (s : State) (code : Nat) (hmode : s.get F.TBU_PPS_CFG_IN_MODE ≠ 0)
    (hoff : |secOffset (s.tdcCapture 20 code).1| ≤ (ms 1 : Nat))
    (hlast : ∀ l, s.tbu.ppsLast = some l → l + ms 500 ≤ (s.tdcCapture 20 code).1) :
    ppsInEdge code s = (s.ppsTaken (s.tdcCapture 20 code).1).ppsServo (s.tdcCapture 20 code).1 := by
  have hno : ¬ ((ms 1 : Nat) < |secOffset (s.tdcCapture 20 code).1| ∨
      ∃ l, s.tbu.ppsLast = some l ∧ (s.tdcCapture 20 code).1 < l + ms 500) := by
    rintro (h | ⟨l, hl, h⟩)
    · exact absurd hoff (not_le.mpr h)
    · exact absurd (hlast l hl) (Nat.not_le.mpr h)
  unfold ppsInEdge
  rw [if_neg hmode]
  extract_lets at_ o spaced src u q v w
  refine (if_neg (fun h => hno ((secOffset_within_iff s at_).mp h))).trans ?_
  exact ppsServo_def w at_

theorem ppsInEdge_rejected (s : State) (code : Nat) (hmode : s.get F.TBU_PPS_CFG_IN_MODE ≠ 0)
    (h : (ms 1 : Nat) < |secOffset (s.tdcCapture 20 code).1| ∨
      ∃ l, s.tbu.ppsLast = some l ∧ (s.tdcCapture 20 code).1 < l + ms 500) :
    ppsInEdge code s = s.bump F.TBU_EVT_CNT_PPS_IN_REJ := by
  unfold ppsInEdge
  rw [if_neg hmode]
  extract_lets at_ o spaced src u q v w
  exact if_pos ((secOffset_within_iff s at_).mpr h)

/-- R98: an edge on PPS_IN near a second and far from the last one. -/
theorem ppsInEdge_next_accepted (s : State) (code : Nat) (hmode : s.get F.TBU_PPS_CFG_IN_MODE ≠ 0)
    (hoff : |secOffset (s.tdcCapture 20 code).1| ≤ (ms 1 : Nat))
    (hlast : ∀ l, s.tbu.ppsLast = some l → l + ms 500 ≤ (s.tdcCapture 20 code).1) :
    ∃ t, exec (.ppsInEdge code) s = .next t ∧ t.tbu.ppsLast = some (s.tdcCapture 20 code).1 ∧ t.flag F.TBU_STATUS_PPS_IN_OK = true ∧
      t.get F.TBU_PPS_IN_TS_GT64 = Time.gt64 (s.tdcCapture 20 code).1 % 2 ^ 64 ∧ t.mem = s.mem ∧ t.slp = s.slp := by
  have heq := ppsInEdge_accepted s code hmode hoff hlast
  have htouch := ppsInEdge_touches (code := code) (s := s)
  refine ⟨_, exec_ppsInEdge code s, ?_, ?_, ?_, htouch.mem_eq, htouch.slp_eq⟩
  · rw [heq, ppsServo_ppsLast, ppsTaken_ppsLast]
  · rw [heq, (ppsServo_all (k := 2 ^ 64)).flag_eq (by decide) (by decide), State.ppsTaken, ppsShown_flag]
  · rw [heq, (ppsServo_all (k := 2 ^ 64)).get_eq (by decide) (by decide), State.ppsTaken, ppsShown_ts]

/-! ### TDC lines -/

@[simp] theorem Tdc.line_setLine_same (t : Tdc) (n : Nat) (l : TdcLine) : (t.setLine n l).line n = l := by
  unfold Tdc.setLine Tdc.line
  by_cases h : n = 0 <;> simp [h]

theorem Tdc.line_setLine_ne (t : Tdc) {m n : Nat} (h : (m = 0) ≠ (n = 0)) (l : TdcLine) : (t.setLine n l).line m = t.line m := by
  unfold Tdc.setLine Tdc.line
  by_cases hm : m = 0 <;> by_cases hn : n = 0 <;> simp_all

@[simp] theorem Tdc.inService_setLine (t : Tdc) (n : Nat) (l : TdcLine) : (t.setLine n l).inService = t.inService := by
  unfold Tdc.setLine
  split <;> rfl

theorem tdcOf_setTdc_same (s : State) (ch : Nat) (t : Tdc) : (s.setTdc ch t).tdcOf ch = t := by
  unfold State.setTdc State.tdcOf
  rw [tdcView_touches.tbu_eq]
  exact Tbl.get_set_same _ _ _ _

theorem tdcOf_setTdc_ne (s : State) {ch d : Nat} (h : d ≠ ch) (t : Tdc) : (s.setTdc ch t).tdcOf d = s.tdcOf d := by
  unfold State.setTdc State.tdcOf
  rw [tdcView_touches.tbu_eq]
  exact Tbl.get_set_ne _ _ h _ _

theorem tdcCalibrationStart_next (s : State) {ch ln : Nat} (hmode : s.sup.mode = .normal) (hphase : 6 ≤ s.get F.TMC_START_STATUS_PHASE)
    (hch : ch < 24) (hln : ln < 2) (hfree : ln ≠ (s.tdcOf ch).inService ∨ ((s.tdcOf ch).line (1 - ln)).failed = true) :
    ∃ t, exec (.tdcCalibrationStart ch ln) s = .next t ∧ ((t.tdcOf ch).line ln).calibrating = true ∧
      (∀ n < 2, n ≠ ln → (t.tdcOf ch).line n = (s.tdcOf ch).line n) ∧ (∀ d, d ≠ ch → t.tdcOf d = s.tdcOf d) ∧ t.mem = s.mem := by
  have heq : tdcCalibrationStart ch ln s =
      s.setTdc ch ((s.tdcOf ch).setLine ln { (s.tdcOf ch).line ln with calibrating := true }) := by
    have hbg : s.background = true := by simp [State.background, hmode, hphase]
    unfold tdcCalibrationStart
    dsimp only
    refine if_neg ?_
    rcases hfree with h | h <;> simp [hbg, Nat.not_le.mpr hch, h]
  refine ⟨_, by rw [exec_tdcCalibrationStart, execTdcCalibrationStart, heq], ?_, fun n hn hne => ?_, fun d hd => tdcOf_setTdc_ne s hd _, setTdc_touches.mem_eq⟩
  · rw [tdcOf_setTdc_same, Tdc.line_setLine_same]
  · rw [tdcOf_setTdc_same, Tdc.line_setLine_ne]
    rw [ne_eq, eq_iff_iff]
    omega

theorem tdcFails_iff (bins : List Nat) :
    tdcFails bins = true ↔ (∃ h ∈ bins, 2 ^ 20 < h * 80) ∨ 8 ≤ (bins.filter (fun h => h == 0)).length := by
  simp [tdcFails]

/-- The line that a calibration leaves, before its outcome is written. -/
def State.tdcTried (s : State) (ch ln : Nat) : TdcLine :=
  { (s.tdcOf ch).line ln with calibrating := false, redo := false, calAt := some s.now, calTemp := s.tDie }

theorem tdcCalibrationDone_eq (s : State) {ch ln : Nat} {hits : List Nat} (hcal : ((s.tdcOf ch).line ln).calibrating = true)
    (hsum : sumN (tdcBins hits) = 2 ^ 20) :
    tdcCalibrationDone ch ln hits s =
      if tdcFails (tdcBins hits) then s.setTdc ch ((s.tdcOf ch).setLine ln { s.tdcTried ch ln with failed := true })
      else s.setTdc ch { (s.tdcOf ch).setLine ln { s.tdcTried ch ln with table := tdcTable 0 0 (tdcBins hits), failed := false } with
        inService := ln } := by
  unfold tdcCalibrationDone
  dsimp only
  rw [if_neg (by simp [hcal, hsum])]
  rfl

theorem tdcCalibrationDone_failed (s : State) {ch ln : Nat} {hits : List Nat} (hcal : ((s.tdcOf ch).line ln).calibrating = true)
    (hsum : sumN (tdcBins hits) = 2 ^ 20)
    (hbad : (∃ h ∈ tdcBins hits, 2 ^ 20 < h * 80) ∨ 8 ≤ ((tdcBins hits).filter (fun h => h == 0)).length) :
    ∃ t, exec (.tdcCalibrationDone ch ln hits) s = .next t ∧ ((t.tdcOf ch).line ln).failed = true ∧
      ((t.tdcOf ch).line ln).calibrating = false ∧ (t.tdcOf ch).inService = (s.tdcOf ch).inService := by
  refine ⟨_, by rw [exec_tdcCalibrationDone, execTdcCalibrationDone, tdcCalibrationDone_eq s hcal hsum, if_pos ((tdcFails_iff _).mpr hbad)], ?_, ?_, ?_⟩
  · rw [tdcOf_setTdc_same, Tdc.line_setLine_same]
  · rw [tdcOf_setTdc_same, Tdc.line_setLine_same]
    rfl
  · rw [tdcOf_setTdc_same, Tdc.inService_setLine]

theorem tdcCalibrationDone_passed (s : State) {ch ln : Nat} {hits : List Nat} (hcal : ((s.tdcOf ch).line ln).calibrating = true)
    (hsum : sumN (tdcBins hits) = 2 ^ 20) (hbins : ∀ h ∈ tdcBins hits, h * 80 ≤ 2 ^ 20)
    (hzero : ((tdcBins hits).filter (fun h => h == 0)).length < 8) :
    ∃ t, exec (.tdcCalibrationDone ch ln hits) s = .next t ∧ (t.tdcOf ch).inService = ln ∧
      (t.tdcOf ch).line ln = ⟨tdcTable 0 0 (tdcBins hits), false, false, false, some s.now, s.tDie⟩ ∧
      (∀ d, d ≠ ch → t.tdcOf d = s.tdcOf d) := by
  have hok : ¬ tdcFails (tdcBins hits) = true := by
    rw [tdcFails_iff]
    rintro (⟨h, hm, hlt⟩ | hlen)
    · exact absurd (hbins h hm) (Nat.not_le.mpr hlt)
    · exact absurd hlen (Nat.not_le.mpr hzero)
  refine ⟨_, by rw [exec_tdcCalibrationDone, execTdcCalibrationDone, tdcCalibrationDone_eq s hcal hsum, if_neg hok], ?_, ?_,
    fun d hd => tdcOf_setTdc_ne s hd _⟩
  · rw [tdcOf_setTdc_same]
  · rw [tdcOf_setTdc_same]
    exact Tdc.line_setLine_same (s.tdcOf ch) ln _

theorem tdcCalibrationDone_other_count (s : State) (ch ln : Nat) {hits : List Nat} (hsum : sumN (tdcBins hits) ≠ 2 ^ 20) :
    exec (.tdcCalibrationDone ch ln hits) s = .next s := by
  rw [exec_tdcCalibrationDone, execTdcCalibrationDone, tdcCalibrationDone]
  dsimp only
  rw [if_pos (by rw [Bool.or_eq_true]; exact .inr (bne_iff_ne.mpr hsum))]

/-- A table read after a map that leaves the default. -/
theorem Tbl.get_map_of_default {α : Type} (d : α) (f : α → α) (hd : f d = d) (k : Nat) (t : Tbl α) :
    Tbl.get d k (t.map (fun (p : Nat × α) => (p.1, f p.2))) = f (Tbl.get d k t) := by
  induction t with
  | nil => exact hd.symm
  | cons p t ih =>
    obtain ⟨j, v⟩ := p
    by_cases h : j = k <;> simp [Tbl.get, h, ih]

theorem tdcOf_tdcKeep (s : State) (ch : Nat) : s.tdcKeep.tdcOf ch = s.tdcBegin (s.tdcOf ch) := by
  unfold State.tdcKeep State.tdcOf
  exact Tbl.get_map_of_default {} s.tdcBegin rfl ch s.tbu.tdc

theorem tdcDue_iff (s : State) (l : TdcLine) :
    s.tdcDue l = true ↔ ∃ at_, l.calAt = some at_ ∧ (at_ + secs 9 ≤ s.now ∨ 200 ≤ |s.tDie - l.calTemp|) := by
  unfold State.tdcDue
  cases l.calAt <;> simp

theorem tdcBegin_other_calibrating (s : State) (t : Tdc) :
    ((s.tdcBegin t).line (1 - t.inService)).calibrating = true ↔
      (t.line (1 - t.inService)).calibrating = true ∨ s.tdcDue (t.line (1 - t.inService)) = true ∨
        (s.tdcDue (t.line t.inService) = true ∧ (t.line (1 - t.inService)).failed = false) := by
  have hne : (1 - t.inService = 0) ≠ (t.inService = 0) := by
    rw [ne_eq, eq_iff_iff]
    omega
  unfold State.tdcBegin
  extract_lets o i u
  have hu : (u.line (1 - t.inService)).calibrating = true ↔
      o.calibrating = true ∨ s.tdcDue o = true ∨ (s.tdcDue i = true ∧ o.failed = false) := by
    unfold u
    split
    next h => simp at h; simp [h]
    next h =>
      rw [Bool.or_eq_true, Bool.and_eq_true, Bool.not_eq_true'] at h
      exact ⟨.inl, fun hc => hc.resolve_right h⟩
  have hin : u.inService = t.inService := by
    unfold u
    split <;> simp
  split
  · rw [hin, Tdc.line_setLine_ne _ hne]
    exact hu
  · exact hu

/-- Settles O22: a second and a pulse each at its place, an edge judged by its offset and its distance, and the two lines of a TDC
taking turns. -/
theorem secondsPulsesAndTdcLinesKeepTime : Obligations.SecondsPulsesAndTdcLinesKeepTime := by
  refine ⟨fun s => ⟨secondBoundary_next s, ppsOutFall_next s, fun l hl => ppsInTimeout_next s hl, fun code hmode => ⟨?_, fun h => ?_⟩⟩,
    fun s ch ln => ⟨?_, fun hits hcal _ hsum => ⟨?_, ?_⟩, fun hits hsum => tdcCalibrationDone_other_count s ch ln hsum, ?_⟩⟩
  · exact ppsInEdge_next_accepted s code hmode
  · rw [exec_ppsInEdge, execPpsInEdge, ppsInEdge_rejected s code hmode h]
  · exact tdcCalibrationStart_next s
  · exact tdcCalibrationDone_failed s hcal hsum
  · exact tdcCalibrationDone_passed s hcal hsum
  · dsimp only
    rw [tdcOf_tdcKeep, tdcBegin_other_calibrating, tdcDue_iff, tdcDue_iff]

end Sys2Proof.Machine
end

section
/-! O23: received PTP messages, by their domain, their master and their measurement. -/
namespace Sys2Proof.Machine

-- one proof after the other: started together they wait on each other's results, each in a thread of its own
set_option Elab.async false

theorem weevilMsg_of_off (u : State) (p e : Nat) (act : State → State) (h : u.wvlOn = false) : u.weevilMsg p e act = act u := by
  simp [State.weevilMsg, State.wvlRule, h]

theorem tbuEnabled_of_attached {s : State} {p : Nat} (h : s.attach.contains p = true) : s.flag F.TBU_CTL_EN = true := by
  by_contra hoff
  simp [State.attach, hoff] at h

theorem ptpMsg_of_attached (s : State) (p : Nat) (act : State → State) (h : s.attach.contains p = true) :
    s.ptpMsg p act = s.weevilMsg p 0x88F7 act := by
  simp only [State.ptpMsg, h, tbuEnabled_of_attached h, Bool.and_self, if_true]

theorem keysAfter_of_same_nodes {s t : State} (h : t.dom.nodes = s.dom.nodes) : s.keysAfter t = t := by
  simp [State.keysAfter, h]

theorem keysAfter_bump (s : State) (f : Field) : s.keysAfter (s.bump f) = s.bump f := keysAfter_of_same_nodes rfl

/-! ### Another domain -/

section OtherDomain

variable {u : State} {port dom : Nat} (hatt : u.attach.contains port = true) (hdom : dom ≠ u.get F.TBU_CTL_DOMAIN)
include hatt hdom

theorem ptpSyncRx_other_domain (m : PtpSync) (hp : m.port = port) (hd : m.domain = dom) :
    ptpSyncRx m u = u.bump F.TBU_EVT_CNT_PTP_DISCARD := by
  subst hp hd
  simp only [ptpSyncRx, hatt, Bool.not_true, Bool.false_eq_true, if_false, bne_iff_ne.mpr hdom, if_true]

theorem ptpFollowUpRx_other_domain (m : PtpSync) (hp : m.port = port) (hd : m.domain = dom) :
    ptpFollowUpRx m u = u.bump F.TBU_EVT_CNT_PTP_DISCARD := by
  subst hp hd
  simp only [ptpFollowUpRx, hatt, Bool.not_true, Bool.false_eq_true, if_false, bne_iff_ne.mpr hdom, if_true]

theorem ptpAnnounceRx_other_domain (m : PtpAnnounce) (hp : m.port = port) (hd : m.domain = dom) :
    ptpAnnounceRx m u = u.bump F.TBU_EVT_CNT_PTP_DISCARD := by
  subst hp hd
  simp only [ptpAnnounceRx, hatt, Bool.not_true, Bool.false_eq_true, if_false, bne_iff_ne.mpr hdom, if_true]

theorem ptpPdelayRespRx_other_domain (m : PtpPdelay) (hp : m.port = port) (hd : m.domain = dom) :
    ptpPdelayRespRx m u = u.bump F.TBU_EVT_CNT_PTP_DISCARD := by
  subst hp hd
  simp only [ptpPdelayRespRx, hatt, Bool.not_true, Bool.false_eq_true, if_false, bne_iff_ne.mpr hdom, if_true]

theorem pdelayRespFollowUpRx_other_domain (m : PtpPdelay) (hp : m.port = port) (hd : m.domain = dom) :
    pdelayRespFollowUpRx m u = u.bump F.TBU_EVT_CNT_PTP_DISCARD := by
  subst hp hd
  simp only [pdelayRespFollowUpRx, hatt, Bool.not_true, Bool.false_eq_true, if_false, bne_iff_ne.mpr hdom, if_true]

theorem ptpPdelayReqRx_other_domain (seq : Nat) (logInt : Int) (code : Nat) :
    ptpPdelayReqRx port dom seq logInt code u = u.bump F.TBU_EVT_CNT_PTP_DISCARD := by
  simp only [ptpPdelayReqRx, hatt, Bool.not_true, Bool.false_eq_true, if_false, bne_iff_ne.mpr hdom, if_true]

end OtherDomain

/-- R90: a message of another domain is counted and nothing else. -/
theorem ptpMessage_other_domain (s : State) {i : Instr} {port dom : Nat}
    (hi : (∃ m : PtpSync, (i = .ptpSyncRx m ∨ i = .ptpFollowUpRx m) ∧ m.port = port ∧ m.domain = dom) ∨
      (∃ m : PtpAnnounce, i = .ptpAnnounceRx m ∧ m.port = port ∧ m.domain = dom) ∨
      (∃ m : PtpPdelay, (i = .ptpPdelayRespRx m ∨ i = .pdelayRespFollowUpRx m) ∧ m.port = port ∧ m.domain = dom) ∨
      (∃ q r, i = .ptpPdelayReqRx port dom q r))
    (hs : s.attach.contains port = true) :
    ∃ act : State → State, exec i s = .next (s.weevilMsg port 0x88F7 act) ∧
      ∀ u : State, u.attach.contains port = true → dom ≠ u.get F.TBU_CTL_DOMAIN → act u = u.bump F.TBU_EVT_CNT_PTP_DISCARD := by
  rcases hi with ⟨m, rfl | rfl, rfl, rfl⟩ | ⟨m, rfl, rfl, rfl⟩ | ⟨m, rfl | rfl, rfl, rfl⟩ | ⟨q, r, rfl⟩
  · refine ⟨_, congrArg _ (ptpMsg_of_attached s _ _ hs), fun u hatt hdom => ?_⟩
    rw [ptpSyncRx_other_domain hatt hdom m rfl rfl, keysAfter_bump]
  · refine ⟨_, congrArg _ (ptpMsg_of_attached s _ _ hs), fun u hatt hdom => ?_⟩
    rw [ptpFollowUpRx_other_domain hatt hdom m rfl rfl, keysAfter_bump]
  · exact ⟨_, congrArg _ (ptpMsg_of_attached s _ _ hs), fun u hatt hdom => ptpAnnounceRx_other_domain hatt hdom m rfl rfl⟩
  · exact ⟨_, congrArg _ (ptpMsg_of_attached s _ _ hs), fun u hatt hdom => ptpPdelayRespRx_other_domain hatt hdom m rfl rfl⟩
  · exact ⟨_, congrArg _ (ptpMsg_of_attached s _ _ hs), fun u hatt hdom => pdelayRespFollowUpRx_other_domain hatt hdom m rfl rfl⟩
  · exact ⟨_, congrArg _ (ptpMsg_of_attached s _ _ hs), fun u hatt hdom => ptpPdelayReqRx_other_domain hatt hdom _ _ _⟩

/-! ### The own domain -/

theorem rxStamp_syncHeard (u : State) (m : PtpSync) (p code : Nat) : (u.syncHeard m).rxStamp p code = u.rxStamp p code := rfl

theorem ptpSyncRx_ours {u : State} {m : PtpSync} (hatt : u.attach.contains m.port = true) (hdom : m.domain = u.get F.TBU_CTL_DOMAIN)
    (hours : u.syncOurs m = true) (hint : intervalOk m.logInt = true) :
    ptpSyncRx m u = if m.twoStep then { u.syncHeard m with tbu := { (u.syncHeard m).tbu with
        pendSync := some (m, (u.rxStamp m.port m.code).1) } }
      else { u.syncHeard m with tbu := { (u.syncHeard m).tbu with pendSync := none } }.syncAccepted m (u.rxStamp m.port m.code).1
        m.origin m.corr := by
  simp only [ptpSyncRx, hatt, hdom, hours, hint, bne_self_eq_false, Bool.not_true, Bool.false_eq_true, if_false, rxStamp_syncHeard]

theorem ptpSyncRx_next (s : State) (m : PtpSync) (hs : s.attach.contains m.port = true) :
    ∃ act : State → State, exec (.ptpSyncRx m) s = .next (s.weevilMsg m.port 0x88F7 act) ∧
      ∀ u : State, u.attach.contains m.port = true → m.domain = u.get F.TBU_CTL_DOMAIN → u.syncOurs m = true → intervalOk m.logInt = true →
        (m.twoStep = false → act u = u.keysAfter
          ({ u.syncHeard m with tbu := { (u.syncHeard m).tbu with pendSync := none } }.syncAccepted m (u.rxStamp m.port m.code).1
            m.origin m.corr)) ∧
        (m.twoStep = true → act u = { u.syncHeard m with tbu := { (u.syncHeard m).tbu with
          pendSync := some (m, (u.rxStamp m.port m.code).1) } }) := by
  refine ⟨_, congrArg _ (ptpMsg_of_attached s _ _ hs), fun u hatt hdom hours hint => ⟨fun h2 => ?_, fun h2 => ?_⟩⟩
  · rw [ptpSyncRx_ours hatt hdom hours hint, if_neg (by rw [h2]; exact Bool.false_ne_true)]
  · rw [ptpSyncRx_ours hatt hdom hours hint, if_pos h2]
    exact keysAfter_of_same_nodes rfl

theorem ptpFollowUpRx_next (s : State) (m : PtpSync) (hs : s.attach.contains m.port = true) :
    ∃ act : State → State, exec (.ptpFollowUpRx m) s = .next (s.weevilMsg m.port 0x88F7 act) ∧
      ∀ (u : State) y rx, u.attach.contains m.port = true → m.domain = u.get F.TBU_CTL_DOMAIN → u.syncOurs m = true →
        u.tbu.pendSync = some (y, rx) → y.seq = m.seq → y.port = m.port → y.source = m.source →
        act u = u.keysAfter
          ({ u with tbu := { u.tbu with pendSync := none } }.syncAccepted y rx m.origin (y.corr + m.corr)) := by
  refine ⟨_, congrArg _ (ptpMsg_of_attached s _ _ hs), fun u y rx hatt hdom hours hpend hseq hport hsrc => ?_⟩
  have hmatch : (u.syncOurs m && y.seq == m.seq && y.port == m.port && y.source == m.source) = true := by
    simp [hours, hseq, hport, hsrc]
  dsimp only
  unfold ptpFollowUpRx
  rw [if_neg (by rw [hatt]; decide), if_neg (by rw [hdom]; simp), hpend]
  dsimp only
  rw [if_pos hmatch]

/-- The state in which ANNOUNCE chooses a master: the UTC offset and the table of masters are up to date. -/
def State.announceKnown (s : State) (m : PtpAnnounce) : State :=
  ((s.setF F.TBU_STATUS_UTC_OFFSET m.utcOffset).setF F.TBU_STATUS_UTC_VALID 1).announced m

theorem announceKnown_utcOffset (s : State) (m : PtpAnnounce) :
    (s.announceKnown m).get F.TBU_STATUS_UTC_OFFSET = m.utcOffset % 2 ^ F.TBU_STATUS_UTC_OFFSET.width := by
  have h : (s.announceKnown m).get F.TBU_STATUS_UTC_OFFSET =
      ((s.setF F.TBU_STATUS_UTC_OFFSET m.utcOffset).setF F.TBU_STATUS_UTC_VALID 1).get F.TBU_STATUS_UTC_OFFSET := rfl
  rw [h, State.get_setF_ne _ _ (by decide), State.get_setF_same]

theorem announceKnown_utcValid (s : State) (m : PtpAnnounce) : (s.announceKnown m).flag F.TBU_STATUS_UTC_VALID = true := by
  have h : (s.announceKnown m).get F.TBU_STATUS_UTC_VALID =
      ((s.setF F.TBU_STATUS_UTC_OFFSET m.utcOffset).setF F.TBU_STATUS_UTC_VALID 1).get F.TBU_STATUS_UTC_VALID := rfl
  rw [State.flag, h, State.get_setF_same]
  rfl

theorem announced_masters (s : State) (m : PtpAnnounce) :
    (s.announced m).tbu.masters = if m.qualified then s.tbu.masters.filter (fun x => !x.is m.port m.source) ++
        [⟨m, s.now, (s.tbu.masters.find? (fun x => x.is m.port m.source)).bind (·.due)⟩]
      else s.tbu.masters.filter (fun x => !x.is m.port m.source) := rfl

theorem announceKnown_masters (s : State) (m : PtpAnnounce) :
    (s.announceKnown m).tbu.masters = if m.qualified then s.tbu.masters.filter (fun x => !x.is m.port m.source) ++
        [⟨m, s.now, (s.tbu.masters.find? (fun x => x.is m.port m.source)).bind (·.due)⟩]
      else s.tbu.masters.filter (fun x => !x.is m.port m.source) :=
  announced_masters _ m

theorem ptpAnnounceRx_ours {s : State} {m : PtpAnnounce} (hatt : s.attach.contains m.port = true)
    (hdom : m.domain = s.get F.TBU_CTL_DOMAIN) :
    ptpAnnounceRx m s = match (s.announceKnown m).bestMaster with
      | some b => (s.announceKnown m).selectMaster b
      | none => s.announceKnown m := by
  unfold ptpAnnounceRx
  rw [if_neg (by rw [hatt]; decide), if_neg (by rw [hdom]; simp)]
  rfl

theorem ptpAnnounceRx_next (s : State) (m : PtpAnnounce) (hs : s.attach.contains m.port = true) :
    ∃ act : State → State, exec (.ptpAnnounceRx m) s = .next (s.weevilMsg m.port 0x88F7 act) ∧
      ∀ v : State, v.attach.contains m.port = true → m.domain = v.get F.TBU_CTL_DOMAIN →
        ∃ u : State, u.get F.TBU_STATUS_UTC_OFFSET = m.utcOffset % 2 ^ F.TBU_STATUS_UTC_OFFSET.width ∧
          u.flag F.TBU_STATUS_UTC_VALID = true ∧ (m.qualified = true → ∃ x ∈ u.tbu.masters, x.ann = m ∧ x.at_ = v.now) ∧
          (m.qualified = false → ∀ x ∈ u.tbu.masters, x ∈ v.tbu.masters ∧ x.is m.port m.source = false) ∧
          act v = (match u.bestMaster with | some b => u.selectMaster b | none => u) := by
  refine ⟨_, congrArg _ (ptpMsg_of_attached s _ _ hs), fun v hatt hdom => ⟨v.announceKnown m, announceKnown_utcOffset v m,
    announceKnown_utcValid v m, fun hq => ?_, fun hq => ?_, ptpAnnounceRx_ours hatt hdom⟩⟩
  · rw [announceKnown_masters, if_pos hq]
    exact ⟨_, List.mem_append_right _ (List.mem_singleton_self _), rfl, rfl⟩
  · rw [announceKnown_masters, if_neg (by rw [hq]; exact Bool.false_ne_true)]
    intro x hx
    obtain ⟨hmem, his⟩ := List.mem_filter.mp hx
    exact ⟨hmem, by simpa using his⟩

theorem ptpPdelayRespRx_next (s : State) (m : PtpPdelay) (hs : s.attach.contains m.port = true) :
    ∃ act : State → State, exec (.ptpPdelayRespRx m) s = .next (s.weevilMsg m.port 0x88F7 act) ∧
      ∀ (u : State) (t1 : Time), u.attach.contains m.port = true → m.domain = u.get F.TBU_CTL_DOMAIN → u.reqTime m = some t1 →
        let rx := (u.rxStamp m.port m.code).1
        (m.twoStep = false → act u = u.turnaround m.port ((rx : Int) - t1 - m.corr)) ∧
        (m.twoStep = true → (m, rx) ∈ (act u).tbu.resps ∧ (act u).tbu.delays = u.tbu.delays) := by
  refine ⟨_, congrArg _ (ptpMsg_of_attached s _ _ hs), fun u t1 hatt hdom hreq => ?_⟩
  have heq : ptpPdelayRespRx m u = if m.twoStep then { u with tbu := { u.tbu with
        resps := (m, (u.rxStamp m.port m.code).1) :: u.tbu.resps.filter (fun r => r.1.port != m.port) } }
      else u.turnaround m.port (((u.rxStamp m.port m.code).1 : Int) - t1 - m.corr) := by
    unfold ptpPdelayRespRx
    rw [if_neg (by rw [hatt]; decide), if_neg (by rw [hdom]; simp), hreq]
  refine ⟨fun h2 => ?_, fun h2 => ?_⟩
  · rw [heq, if_neg (by rw [h2]; exact Bool.false_ne_true)]
  · rw [heq, if_pos h2]
    exact ⟨List.mem_cons_self, rfl⟩

theorem pdelayRespFollowUpRx_next (s : State) (m : PtpPdelay) (hs : s.attach.contains m.port = true) :
    ∃ act : State → State, exec (.pdelayRespFollowUpRx m) s = .next (s.weevilMsg m.port 0x88F7 act) ∧
      ∀ (u : State) (t1 : Time) r at_, u.attach.contains m.port = true → m.domain = u.get F.TBU_CTL_DOMAIN → u.reqTime m = some t1 →
        u.tbu.resps.find? (fun r => r.1.port == m.port && r.1.seq == m.seq) = some (r, at_) →
        act u = { u with tbu := { u.tbu with resps := u.tbu.resps.filter (fun r => r.1.port != m.port) } }.turnaround m.port
          ((at_ : Int) - t1 - ((m.t : Int) - r.t) - r.corr - m.corr) := by
  refine ⟨_, congrArg _ (ptpMsg_of_attached s _ _ hs), fun u t1 r at_ hatt hdom hreq hresp => ?_⟩
  unfold pdelayRespFollowUpRx
  rw [if_neg (by rw [hatt]; decide), if_neg (by rw [hdom]; simp), hreq, hresp]

theorem ptpPdelayReqRx_next (s : State) (port seq : Nat) (r : PdelayMark) (hs : s.attach.contains port = true)
    (hint : intervalOk r.logInt = true) :
    ∃ act : State → State, exec (.ptpPdelayReqRx port (s.get F.TBU_CTL_DOMAIN) seq r) s = .next (s.weevilMsg port 0x88F7 act) ∧
      ∀ u : State, u.attach.contains port = true → u.get F.TBU_CTL_DOMAIN = s.get F.TBU_CTL_DOMAIN →
        act u = u.ptpSend port 4 seq (u.rxStamp port r.code).1 := by
  refine ⟨_, congrArg _ (ptpMsg_of_attached s _ _ hs), fun u hatt hdom => ?_⟩
  unfold ptpPdelayReqRx
  rw [if_neg (by rw [hatt]; decide), if_neg (by rw [hdom]; simp), if_neg (by rw [hint]; decide)]

/-- Settles O23: each message by its own rule, met at the row where the Weevil stands. -/
theorem ptpMessagesAreTakenByDomain : Obligations.PtpMessagesAreTakenByDomain :=
  ⟨fun u p act h => weevilMsg_of_off u p 0x88F7 act h, fun s =>
    ⟨fun _ _ _ hi hs => ptpMessage_other_domain s hi hs,
     fun m hs => ⟨ptpSyncRx_next s m hs, ptpFollowUpRx_next s m hs⟩,
     ptpAnnounceRx_next s,
     fun m hs => ⟨ptpPdelayRespRx_next s m hs, pdelayRespFollowUpRx_next s m hs⟩,
     ptpPdelayReqRx_next s⟩⟩

end Sys2Proof.Machine
end

section
/-! O24: the clock's own messages, the loss of its master, fallback and the end of holdover. -/
namespace Sys2Proof.Machine

-- one proof after the other: started together they wait on each other's results, each in a thread of its own
set_option Elab.async false

theorem freezeMean_touches {s : State} :
    Touches [.regs, .tbu, .free] s (State.freezeMean s) := by
  unfold State.freezeMean
  repeat' first
    | with_reducible assumption
    | with_reducible exact Touches.refl _ _
    | (extract_lets +onlyGivenNames x; refine Touches.cut2 (l := [.regs, .tbu, .free]) (s := s) (x := x) ?_ (fun hx => ?_); (on_goal 1 => (unfold x; clear x)); (on_goal 2 => clear_value x))
    | (extract_lets +onlyGivenNames x; (have hv : x = x := by unfold x; exact Eq.refl _); clear hv; clear_value x)
    | with_reducible apply Touches.ite
    | with_reducible apply Touches.via openDiv_touches
    | with_reducible apply Touches.via setRate_touches

theorem clockView_touches {s : State} :
    Touches [.regs] s (State.clockView s) := by
  unfold State.clockView
  repeat' first
    | with_reducible assumption
    | with_reducible exact Touches.refl _ _
    | (extract_lets +onlyGivenNames x; refine Touches.cut (l := [.regs]) (s := s) (t := x) ?_ (fun hx => ?_); (on_goal 1 => (unfold x; clear x)); (on_goal 2 => clear_value x))
    | with_reducible apply Touches.ite
    | with_reducible apply Touches.via setF_touches

theorem toClock_touches {s : State} {st : Nat} :
    Touches [.regs, .tbu] s (State.toClock s st) := by
  unfold State.toClock
  repeat' first
    | with_reducible assumption
    | with_reducible exact Touches.refl _ _
    | (dsimp only [Touches.mk_eq]; dsimp only [TouchesD]; with_reducible apply Touches.set_tbu (x := _))
    | (extract_lets +onlyGivenNames x; refine Touches.cut (l := [.regs, .tbu]) (s := s) (t := x) ?_ (fun hx => ?_); (on_goal 1 => (unfold x; clear x)); (on_goal 2 => clear_value x))
    | (extract_lets +onlyGivenNames x; (have hv : x = x := by unfold x; exact Eq.refl _); clear hv; clear_value x)
    | with_reducible apply Touches.ite
    | with_reducible apply Touches.via setF_touches
    | with_reducible apply Touches.via holdCount_touches
    | with_reducible apply Touches.via clockView_touches

theorem selectMaster_touches {s : State} {m : PtpAnnounce} :
    Touches [.regs, .tbu] s (State.selectMaster s m) := by
  unfold State.selectMaster
  repeat' first
    | with_reducible assumption
    | with_reducible exact Touches.refl _ _
    | (dsimp only [Touches.mk_eq]; dsimp only [TouchesD]; with_reducible apply Touches.set_tbu (x := _))
    | (extract_lets +onlyGivenNames x; refine Touches.cut (l := [.regs, .tbu]) (s := s) (t := x) ?_ (fun hx => ?_); (on_goal 1 => (unfold x; clear x)); (on_goal 2 => clear_value x))
    | (extract_lets +onlyGivenNames x; (have hv : x = x := by unfold x; exact Eq.refl _); clear hv; clear_value x)
    | with_reducible apply Touches.ite
    | with_reducible apply Touches.via setF_touches
    | with_reducible apply Touches.via clockView_touches
    | with_reducible apply Touches.via toClock_touches

theorem mastersLost_touches {s : State} :
    Touches [.tbu] s (s.mastersLost) := by
  unfold State.mastersLost
  repeat' first
    | with_reducible assumption
    | with_reducible exact Touches.refl _ _
    | (dsimp only [Touches.mk_eq]; dsimp only [TouchesD]; with_reducible apply Touches.set_tbu (x := _))
    | with_reducible apply Touches.via advanceTo_touches
    | split

theorem masterLost_touches {s : State} :
    Touches [.regs, .tbu, .free] s (masterLost s) := by
  unfold masterLost
  repeat' first
    | with_reducible assumption
    | with_reducible exact Touches.refl _ _
    | (dsimp only [Touches.mk_eq]; dsimp only [TouchesD]; with_reducible apply Touches.set_tbu (x := _))
    | (extract_lets +onlyGivenNames x; refine Touches.cut (l := [.regs, .tbu, .free]) (s := s) (t := x) ?_ (fun hx => ?_); (on_goal 1 => (unfold x; clear x)); (on_goal 2 => clear_value x))
    | (extract_lets +onlyGivenNames x; (have hv : x = x := by unfold x; exact Eq.refl _); clear hv; clear_value x)
    | with_reducible apply Touches.ite
    | with_reducible apply Touches.via mastersLost_touches
    | with_reducible apply Touches.via selectMaster_touches
    | with_reducible apply Touches.via bump_touches
    | with_reducible apply Touches.via freezeMean_touches
    | with_reducible apply Touches.via toClock_touches
    | (intro _)
    | split

theorem fallbackMaster_touches {s : State} :
    Touches [.regs, .tbu] s (fallbackMaster s) := by
  unfold fallbackMaster
  repeat' first
    | with_reducible assumption
    | with_reducible exact Touches.refl _ _
    | with_reducible apply Touches.ite
    | with_reducible apply Touches.via advanceTo_touches
    | with_reducible apply Touches.via toClock_touches

theorem freezeMean_all {k : Nat} {s : State} :
    WritesFields k [F.TBU_RATE_ADJ_RATE_ADJ] s (State.freezeMean s) := by
  unfold State.freezeMean
  repeat' first
    | with_reducible assumption
    | with_reducible exact WritesFields.refl _ _ _
    | (extract_lets +onlyGivenNames x; refine WritesFields.cut2 (k := k) (W := [F.TBU_RATE_ADJ_RATE_ADJ]) (s := s) (x := x) ?_ (fun hx => ?_); (on_goal 1 => (unfold x; clear x)); (on_goal 2 => clear_value x))
    | (extract_lets +onlyGivenNames x; (have hv : x = x := by unfold x; exact Eq.refl _); clear hv; clear_value x)
    | with_reducible apply WritesFields.ite
    | with_reducible apply WritesFields.via ((openDiv_touches).writesFields _)
    | with_reducible apply WritesFields.via setRate_all

theorem clockView_all {k : Nat} {s : State} :
    WritesFields k [F.TBU_GM_ID_GM_ID, F.TBU_STATUS_GM_CLASS, F.TBU_STATUS_SYNCH] s (State.clockView s) := by
  unfold State.clockView
  repeat' first
    | with_reducible assumption
    | with_reducible exact WritesFields.refl _ _ _
    | (extract_lets +onlyGivenNames x; refine WritesFields.cut (k := k) (W := [F.TBU_GM_ID_GM_ID, F.TBU_STATUS_GM_CLASS, F.TBU_STATUS_SYNCH]) (s := s) (t := x) ?_ (fun hx => ?_); (on_goal 1 => (unfold x; clear x)); (on_goal 2 => clear_value x))
    | with_reducible apply WritesFields.ite
    | with_reducible apply WritesFields.via (setF_writes (f := F.TBU_GM_ID_GM_ID))
    | with_reducible apply WritesFields.via (setF_writes (f := F.TBU_STATUS_GM_CLASS))
    | with_reducible apply WritesFields.via (setF_writes (f := F.TBU_STATUS_SYNCH))

theorem toClock_all {k : Nat} {s : State} {st : Nat} :
    WritesFields k [F.TBU_GM_ID_GM_ID, F.TBU_STATUS_GM_CLASS, F.TBU_STATUS_SLEWING, F.TBU_STATUS_STATE, F.TBU_STATUS_SYNCH, F.TBU_STATUS_TIME_VALID] s (State.toClock s st) := by
  unfold State.toClock
  repeat' first
    | with_reducible assumption
    | with_reducible exact WritesFields.refl _ _ _
    | (dsimp only [WritesFields.mk_eq]; with_reducible apply WritesRegs.of)
    | (extract_lets +onlyGivenNames x; refine WritesFields.cut (k := k) (W := [F.TBU_GM_ID_GM_ID, F.TBU_STATUS_GM_CLASS, F.TBU_STATUS_SLEWING, F.TBU_STATUS_STATE, F.TBU_STATUS_SYNCH, F.TBU_STATUS_TIME_VALID]) (s := s) (t := x) ?_ (fun hx => ?_); (on_goal 1 => (unfold x; clear x)); (on_goal 2 => clear_value x))
    | (extract_lets +onlyGivenNames x; (have hv : x = x := by unfold x; exact Eq.refl _); clear hv; clear_value x)
    | with_reducible apply WritesFields.ite
    | with_reducible apply WritesFields.via (setF_writes (f := F.TBU_STATUS_SLEWING))
    | with_reducible apply WritesFields.via (setF_writes (f := F.TBU_STATUS_STATE))
    | with_reducible apply WritesFields.via (setF_writes (f := F.TBU_STATUS_TIME_VALID))
    | with_reducible apply WritesFields.via ((holdCount_touches).writesFields _)
    | with_reducible apply WritesFields.via clockView_all


/-! ### Messages of the clock -/

theorem ptpPace_t48 (s : State) (k : Nat) :
    (s.ptpPace k).tbu.t48 = if Tbl.get 0 k s.tbu.txAt = 0 then s.tbu.t48
      else max s.tbu.t48 ((Tbl.get 0 k s.tbu.txAt + secs 1) * 2 ^ 32) := by
  unfold State.ptpPace
  by_cases h : Tbl.get 0 k s.tbu.txAt = 0
  · simp only [h, if_true]
  · simp only [h, if_false]
    rfl

/-- The pace of a message moves the time and nothing that numbers messages. -/
theorem ptpPace_seqs (s : State) (k : Nat) :
    (s.ptpPace k).tbu.annSeq = s.tbu.annSeq ∧ (s.ptpPace k).tbu.syncSeq = s.tbu.syncSeq ∧ (s.ptpPace k).tbu.reqSeq = s.tbu.reqSeq := by
  unfold State.ptpPace
  by_cases h : Tbl.get 0 k s.tbu.txAt = 0
  · simp only [h, if_true, and_self]
  · simp only [h, if_false]
    exact ⟨rfl, rfl, rfl⟩

theorem ptpAnnounceTx_next (s : State) (h : s.clk = 4) : exec .ptpAnnounceTx s =
    .next { (s.ptpPace 0).ptpSendAll 0 s.tbu.annSeq with tbu := { (s.ptpPace 0).tbu with annSeq := (s.tbu.annSeq + 1) % 65536 } } := by
  obtain ⟨hann, _, _⟩ := ptpPace_seqs s 0
  rw [exec_ptpAnnounceTx, execPtpAnnounceTx]
  unfold ptpAnnounceTx
  rw [if_neg (by rw [h]; decide), ← hann]

theorem ptpSyncTx_next (s : State) (h : s.clk = 4) : exec .ptpSyncTx s =
    .next { (s.ptpPace 1).ptpSendAll 1 s.tbu.syncSeq with tbu := { (s.ptpPace 1).tbu with syncSeq := (s.tbu.syncSeq + 1) % 65536 } } := by
  obtain ⟨_, hsync, _⟩ := ptpPace_seqs s 1
  rw [exec_ptpSyncTx, execPtpSyncTx]
  unfold ptpSyncTx
  rw [if_neg (by rw [h]; decide), ← hsync]

theorem ptpPdelayReqTx_next (s : State) (h : s.clk ≠ 0) : exec .ptpPdelayReqTx s =
    .next { (s.ptpPace 3).ptpSendAll 3 s.tbu.reqSeq with tbu := { (s.ptpPace 3).tbu with reqSeq := (s.tbu.reqSeq + 1) % 65536 } } := by
  obtain ⟨_, _, hreq⟩ := ptpPace_seqs s 3
  rw [exec_ptpPdelayReqTx, execPtpPdelayReqTx]
  unfold ptpPdelayReqTx
  rw [if_neg h, ← hreq]

/-! ### The states of the clock -/

/-- The masters heard, the one followed and the time stay. -/
structure State.SameMasters (s t : State) : Prop where
  masters : t.tbu.masters = s.tbu.masters
  master : t.tbu.master = s.tbu.master
  t48 : t.tbu.t48 = s.tbu.t48

theorem State.SameMasters.refl (s : State) : s.SameMasters s := ⟨rfl, rfl, rfl⟩

theorem State.SameMasters.trans {s t u : State} (h : s.SameMasters t) (k : t.SameMasters u) : s.SameMasters u :=
  ⟨k.masters.trans h.masters, k.master.trans h.master, k.t48.trans h.t48⟩

theorem State.SameMasters.of_tbu {s t : State} (h : t.tbu = s.tbu) : s.SameMasters t :=
  ⟨congrArg _ h, congrArg _ h, congrArg _ h⟩

theorem holdCount_sameMasters (s : State) : s.SameMasters s.holdCount := by
  unfold State.holdCount
  extract_lets stopped
  split <;> split <;> exact ⟨rfl, rfl, rfl⟩

theorem clockView_sameMasters (s : State) : s.SameMasters s.clockView := .of_tbu clockView_touches.tbu_eq

/-- A clock state as it is entered, before what it shows follows. -/
def State.clockEntered (s : State) (st : Nat) : State :=
  let s := { s.setF F.TBU_STATUS_STATE st with tbu := { s.tbu with firstOffset := true, fineRun := 0, coarseRun := 0 } }
  let s := if st = 2 then s.setF F.TBU_STATUS_TIME_VALID 1 else s
  let s := if st = 0 then { s with tbu := { s.tbu with masterAt := s.now } } else s
  if st = 1 then s else s.setF F.TBU_STATUS_SLEWING 0

theorem toClock_eq (s : State) (st : Nat) : s.toClock st = (s.clockEntered st).holdCount.clockView := rfl

theorem clockEntered_sameMasters (s : State) (st : Nat) : s.SameMasters (s.clockEntered st) := by
  unfold State.clockEntered
  split <;> split <;> split <;> exact ⟨rfl, rfl, rfl⟩

theorem toClock_sameMasters (s : State) (st : Nat) : s.SameMasters (s.toClock st) :=
  (clockEntered_sameMasters s st).trans ((holdCount_sameMasters _).trans (clockView_sameMasters _))

theorem clockEntered_writes {k : Nat} (s : State) (st : Nat) :
    WritesFields k [F.TBU_STATUS_TIME_VALID, F.TBU_STATUS_SLEWING] (s.setF F.TBU_STATUS_STATE st) (s.clockEntered st) := by
  unfold State.clockEntered
  extract_lets src src' a b src'' c
  have ha : WritesFields k [F.TBU_STATUS_TIME_VALID, F.TBU_STATUS_SLEWING] (s.setF F.TBU_STATUS_STATE st) a :=
    .of_regs (.refl _ _ _) rfl
  have hb : WritesFields k [F.TBU_STATUS_TIME_VALID, F.TBU_STATUS_SLEWING] (s.setF F.TBU_STATUS_STATE st) b :=
    .ite (.via setF_writes ha) ha
  have hc : WritesFields k [F.TBU_STATUS_TIME_VALID, F.TBU_STATUS_SLEWING] (s.setF F.TBU_STATUS_STATE st) c :=
    .ite (.of_regs hb rfl) hb
  exact .ite hc (.via setF_writes hc)

theorem clockEntered_clk (s : State) (st : Nat) : (s.clockEntered st).clk = st % 2 ^ F.TBU_STATUS_STATE.width :=
  ((clockEntered_writes (k := 2 ^ 64) s st).get_eq (by decide) (by decide)).trans (State.get_setF_same _ _ _)

theorem toClock_clk (s : State) (st : Nat) : (s.toClock st).clk = st % 2 ^ F.TBU_STATUS_STATE.width := by
  rw [toClock_eq, State.clk, (clockView_all (k := 2 ^ 64)).get_eq (by decide) (by decide), holdCount_touches.get_eq]
  exact clockEntered_clk s st

theorem clockView_gmId (s : State) (h : s.clk = 4) : s.clockView.get F.TBU_GM_ID_GM_ID = Config.clockId % 2 ^ F.TBU_GM_ID_GM_ID.width := by
  unfold State.clockView
  rw [if_pos h]
  extract_lets u
  rw [State.get_setF_ne u _ (by decide)]
  exact State.get_setF_same _ _ _

theorem toClock_four_gmId (s : State) :
    (s.toClock 4).get F.TBU_GM_ID_GM_ID = Config.clockId % 2 ^ F.TBU_GM_ID_GM_ID.width := by
  rw [toClock_eq]
  refine clockView_gmId _ ?_
  rw [State.clk, holdCount_touches.get_eq]
  exact clockEntered_clk s 4

/-! ### The loss of a master -/

theorem mastersLost_last (s : State) {x : FMaster} {m : PtpAnnounce} (hxs : s.tbu.masters = [x]) (hm : s.tbu.master = some m)
    (his : x.is m.port m.source = true) :
    s.mastersLost.tbu.masters = [] ∧ s.mastersLost.tbu.t48 = max s.tbu.t48 (x.lostAt * 2 ^ 32) := by
  unfold State.mastersLost
  extract_lets cur u left
  have hcur : cur x = true := by
    unfold cur
    rw [hm]
    exact his
  have hu : u = s.advanceTo x.lostAt := by
    unfold u
    rw [hxs, List.find?_cons_of_pos hcur]
  have hleft : left = [] := by
    unfold left
    rw [hu]
    show s.tbu.masters.filter _ = []
    rw [hxs, List.filter_cons_of_neg (by simp [hcur])]
    rfl
  exact ⟨hleft, congrArg (fun v : State => v.tbu.t48) hu⟩

theorem bestMaster_of_no_masters (s : State) (h : s.tbu.masters = []) : s.bestMaster = none := by
  have hq : s.qualified = [] := by simp [State.qualified, h]
  unfold State.bestMaster
  rw [hq]
  cases s.tbu.master <;> rfl

theorem masterLost_to_best (s : State) (h : s.clk = 1 ∨ s.clk = 2) {b : PtpAnnounce} (hb : s.mastersLost.bestMaster = some b) :
    exec .masterLost s = .next (s.mastersLost.selectMaster b) := by
  rw [exec_masterLost, execMasterLost]
  unfold masterLost
  dsimp only
  rw [if_neg (by rcases h with h | h <;> rw [h] <;> decide), hb]

/-- The state that a clock takes which has lost its last master. -/
def State.lostTo (s : State) : Nat :=
  if s.flag F.TBU_CTL_FALLBACK then 4 else if s.clk = 2 ∨ s.flag F.TBU_STATUS_TIME_VALID then 3 else 0

/-- The loss counted, and the mean rate frozen where the clock was locked. -/
def State.lossCounted (s : State) (st : Nat) : State :=
  let s := s.bump F.TBU_EVT_CNT_ANN_TIMEOUT
  if st = 2 then s.freezeMean else s

/-- The loss of the last master, before the clock takes its next state. -/
def State.masterless (s : State) (st : Nat) : State :=
  let s := s.lossCounted st
  { s with tbu := { s.tbu with
    master := none, lostClass := s.get F.TBU_STATUS_GM_CLASS, holdDone := false, holdAcc := 0, holdFrom := some s.now } }

theorem setRate_sameMasters (s : State) (v : Int) : s.SameMasters (s.setRate v) := ⟨rfl, rfl, rfl⟩

theorem freezeMean_sameMasters (s : State) : s.SameMasters s.freezeMean := by
  unfold State.freezeMean
  extract_lets start q
  split
  · exact .refl s
  · exact (State.SameMasters.of_tbu openDiv_touches.tbu_eq).trans (setRate_sameMasters _ _)

theorem lossCounted_sameMasters (s : State) (st : Nat) : s.SameMasters (s.lossCounted st) := by
  have hb : s.SameMasters (s.bump F.TBU_EVT_CNT_ANN_TIMEOUT) := .of_tbu bump_touches.tbu_eq
  unfold State.lossCounted
  extract_lets u
  split
  · exact hb.trans (freezeMean_sameMasters _)
  · exact hb

theorem lossCounted_writes {k : Nat} (s : State) (st : Nat) :
    WritesFields k [F.TBU_EVT_CNT_ANN_TIMEOUT, F.TBU_RATE_ADJ_RATE_ADJ] s (s.lossCounted st) := by
  have hb : WritesFields k [F.TBU_EVT_CNT_ANN_TIMEOUT, F.TBU_RATE_ADJ_RATE_ADJ] s (s.bump F.TBU_EVT_CNT_ANN_TIMEOUT) :=
    .via bump_writes (.refl _ _ _)
  exact .ite (.via freezeMean_all hb) hb

theorem masterless_master (s : State) (st : Nat) : (s.masterless st).tbu.master = none := rfl
theorem masterless_masters (s : State) (st : Nat) : (s.masterless st).tbu.masters = s.tbu.masters := (lossCounted_sameMasters s st).masters
theorem masterless_t48 (s : State) (st : Nat) : (s.masterless st).tbu.t48 = s.tbu.t48 := (lossCounted_sameMasters s st).t48

theorem masterless_flag (s : State) (st : Nat) {g : Field} (hkey : g.key < 2 ^ 64)
    (hne : ∀ f ∈ [F.TBU_EVT_CNT_ANN_TIMEOUT, F.TBU_RATE_ADJ_RATE_ADJ], g.key ≠ f.key) : (s.masterless st).flag g = s.flag g :=
  ((lossCounted_writes s st).flag_eq hkey hne : (s.lossCounted st).flag g = s.flag g)

theorem masterLost_to_none (s : State) (h : s.clk = 1 ∨ s.clk = 2) (hb : s.mastersLost.bestMaster = none) :
    masterLost s = (s.mastersLost.masterless s.clk).toClock (if (s.mastersLost.masterless s.clk).flag F.TBU_CTL_FALLBACK then 4
      else if s.clk = 2 ∨ (s.mastersLost.masterless s.clk).flag F.TBU_STATUS_TIME_VALID then 3 else 0) := by
  unfold masterLost
  dsimp only
  rw [if_neg (by rcases h with h | h <;> rw [h] <;> decide), hb]
  rfl

theorem masterLost_lostTo (s : State) (h : s.clk = 1 ∨ s.clk = 2) (hb : s.mastersLost.bestMaster = none) :
    masterLost s = (s.mastersLost.masterless s.clk).toClock s.lostTo := by
  rw [masterLost_to_none s h hb, masterless_flag _ _ (by decide) (by decide), masterless_flag _ _ (by decide) (by decide),
    mastersLost_touches.flag_eq, mastersLost_touches.flag_eq]
  rfl

theorem lostTo_small (s : State) : s.lostTo % 2 ^ F.TBU_STATUS_STATE.width = s.lostTo := by
  unfold State.lostTo
  split
  · rfl
  · split <;> rfl

theorem masterLost_last_master (s : State) (h : s.clk = 1 ∨ s.clk = 2) {x : FMaster} {m : PtpAnnounce} (hxs : s.tbu.masters = [x])
    (hm : s.tbu.master = some m) (his : x.is m.port m.source = true) :
    ∃ t, exec .masterLost s = .next t ∧ t.tbu.masters = [] ∧ t.tbu.master = none ∧
      t.tbu.t48 = max s.tbu.t48 (x.lostAt * 2 ^ 32) ∧
      t.clk = (if s.flag F.TBU_CTL_FALLBACK then 4 else if s.clk = 2 ∨ s.flag F.TBU_STATUS_TIME_VALID = true then 3 else 0) ∧
      t.mem = s.mem ∧ t.slp = s.slp := by
  obtain ⟨hnone, ht48⟩ := mastersLost_last s hxs hm his
  have heq := masterLost_lostTo s h (bestMaster_of_no_masters _ hnone)
  have hsame := toClock_sameMasters (s.mastersLost.masterless s.clk) s.lostTo
  have htouch := masterLost_touches (s := s)
  refine ⟨_, exec_masterLost s, ?_, ?_, ?_, ?_, htouch.mem_eq, htouch.slp_eq⟩
  · rw [heq, hsame.masters, masterless_masters, hnone]
  · rw [heq, hsame.master, masterless_master]
  · rw [heq, hsame.t48, masterless_t48, ht48]
  · rw [heq, toClock_clk, lostTo_small]
    rfl

theorem mem_mastersLost (s : State) {x : FMaster} (hx : x ∈ s.mastersLost.tbu.masters) :
    x ∈ s.tbu.masters ∧ s.mastersLost.now < x.lostAt ∧ ∀ m, s.tbu.master = some m → x.is m.port m.source = false := by
  unfold State.mastersLost at hx ⊢
  extract_lets cur u left at hx ⊢
  have hu : u.tbu.masters = s.tbu.masters := by
    unfold u
    split <;> rfl
  obtain ⟨hmem, hp⟩ := List.mem_filter.mp hx
  rw [Bool.and_eq_true, Bool.not_eq_true', decide_eq_true_iff] at hp
  obtain ⟨hcur, hlt⟩ := hp
  refine ⟨hu ▸ hmem, hlt, fun m hm => ?_⟩
  have h : cur x = x.is m.port m.source := by
    unfold cur
    rw [hm]
  exact h ▸ hcur

/-! ### The choice of a master -/

theorem foldl_better_mem (l : List PtpAnnounce) (a : PtpAnnounce) : l.foldl better a = a ∨ l.foldl better a ∈ l := by
  induction l generalizing a with
  | nil => exact .inl rfl
  | cons b l ih =>
    rcases ih (better a b) with h | h
    · rw [List.foldl_cons, h, better]
      split
      · exact .inr List.mem_cons_self
      · exact .inl rfl
    · exact .inr (List.mem_cons_of_mem _ h)

theorem foldl_better_ann_mem (m : FMaster) (t : List FMaster) : ∃ x ∈ m :: t, x.ann = (t.map (·.ann)).foldl better m.ann := by
  rcases foldl_better_mem (t.map (·.ann)) m.ann with h | h
  · exact ⟨m, List.mem_cons_self, h.symm⟩
  · obtain ⟨x, hx, hann⟩ := List.mem_map.mp h
    exact ⟨x, List.mem_cons_of_mem _ hx, hann⟩

theorem bestMaster_mem_qualified (s : State) {b : PtpAnnounce} (h : s.bestMaster = some b) : ∃ x ∈ s.qualified, x.ann = b := by
  unfold State.bestMaster at h
  extract_lets now all at h
  have hall : ∀ x ∈ all, x ∈ s.qualified := by
    intro x hx
    unfold all at hx
    cases hnow : now with
    | none => rwa [hnow] at hx
    | some m =>
      rw [hnow] at hx
      rcases List.mem_cons.mp hx with rfl | hx
      · unfold now at hnow
        split at hnow
        · exact List.mem_of_find?_eq_some hnow
        · exact absurd hnow (by simp)
      · exact hx
  cases hcase : all with
  | nil => rw [hcase] at h; exact absurd h (by simp)
  | cons m t =>
    rw [hcase] at h
    obtain ⟨x, hx, hann⟩ := foldl_better_ann_mem m t
    exact ⟨x, hall x (hcase ▸ hx), hann.trans (Option.some.inj h)⟩

theorem bestMaster_heard (s : State) {b : PtpAnnounce} (h : s.bestMaster = some b) : ∃ x ∈ s.tbu.masters, x.ann = b ∧
    (s.now < x.at_ + secs 3 ∨ ∃ m, s.tbu.master = some m ∧ x.is m.port m.source = true) := by
  obtain ⟨x, hx, hann⟩ := bestMaster_mem_qualified s h
  obtain ⟨hmem, hq⟩ := List.mem_filter.mp hx
  refine ⟨x, hmem, hann, ?_⟩
  rw [Bool.or_eq_true, decide_eq_true_iff] at hq
  refine hq.imp_right (fun hm => ?_)
  cases hmaster : s.tbu.master with
  | none => simp [hmaster] at hm
  | some m => exact ⟨m, rfl, by simpa [hmaster] using hm⟩

/-! ### Fallback and the end of holdover -/

theorem fallbackMaster_next (s : State) (hclk : s.clk = 0) (hfall : s.flag F.TBU_CTL_FALLBACK = true) (hen : s.flag F.TBU_CTL_EN = true)
    (hq : s.qualified = []) :
    ∃ t, exec .fallbackMaster s = .next t ∧ t.clk = 4 ∧ t.get F.TBU_GM_ID_GM_ID = Config.clockId % 2 ^ F.TBU_GM_ID_GM_ID.width ∧
      t.tbu.t48 = max s.tbu.t48 ((s.tbu.masterAt + secs 3) * 2 ^ 32) ∧ t.mem = s.mem ∧ t.slp = s.slp := by
  have heq : fallbackMaster s = (s.advanceTo (s.tbu.masterAt + secs 3)).toClock 4 := by
    unfold fallbackMaster
    exact if_pos ⟨hclk, hfall, hen, by rw [hq]; rfl⟩
  have htouch := fallbackMaster_touches (s := s)
  refine ⟨_, exec_fallbackMaster s, ?_, ?_, ?_, htouch.mem_eq, htouch.slp_eq⟩
  · rw [heq, toClock_clk]
    rfl
  · rw [heq, toClock_four_gmId]
  · rw [heq, (toClock_sameMasters _ _).t48]
    rfl

theorem holdSpecExpiry_next (s : State) {from_ : Time} (hfrom : s.tbu.holdFrom = some from_) (hclk : s.clk = 3 ∨ s.clk = 4)
    (hdone : s.tbu.holdDone = false) :
    let u := s.advanceTo (from_ + (secs (s.get F.TBU_CLOCK_DS_HOLD_SPEC) - s.tbu.holdAcc))
    exec .holdSpecExpiry s = .next { u with tbu := { u.tbu with holdDone := true } }.clockView := by
  rw [exec_holdSpecExpiry, execHoldSpecExpiry]
  unfold holdSpecExpiry
  rw [hfrom]
  dsimp only
  rw [if_neg (by rcases hclk with h | h <;> rw [h, hdone] <;> decide)]

/-- Settles O24: the clock's own messages at their pace, and its states by the masters that are left. -/
theorem clockMessagesAndStates : Obligations.ClockMessagesAndStates := fun s =>
  ⟨ptpPace_t48 s, ptpAnnounceTx_next s, ptpSyncTx_next s, ptpPdelayReqTx_next s,
   fun h => ⟨fun _ hb => masterLost_to_best s h hb, fun _ _ hxs hm his => masterLost_last_master s h hxs hm his,
     fun _ hx => mem_mastersLost s hx⟩,
   fun _ h => bestMaster_heard s h, fallbackMaster_next s,
   fun _ hfrom hclk hdone => holdSpecExpiry_next s hfrom hclk hdone⟩

end Sys2Proof.Machine
end

section
/-! O25: MAC_RX_FRAME by the rows of R113. -/
namespace Sys2Proof.Machine

-- one proof after the other: started together they wait on each other's results, each in a thread of its own
set_option Elab.async false

/-- Nothing but register fields differs. -/
def State.RegsOnly (s t : State) : Prop := t = { s with regs := t.regs }

theorem State.RegsOnly.trans {s t u : State} (h : s.RegsOnly t) (k : t.RegsOnly u) : s.RegsOnly u := by
  unfold State.RegsOnly at *
  rw [k, h]

theorem setF_regsOnly (s : State) (f : Field) (v : Nat) : s.RegsOnly (s.setF f v) := rfl

/-- MAC_RX_FRAME with the line's own counts made. -/
def State.rxCounted (s : State) (e : RxEvent) : State :=
  ((s.bumpBy (macCnt e.port 6) e.fecCorr).bumpBy (macCnt e.port 7) e.fecUncorr).setB (F.MAC_STATUS_RX_LPI.pg e.port) e.lpi

theorem rxCounted_regsOnly (s : State) (e : RxEvent) : s.RegsOnly (s.rxCounted e) :=
  ((setF_regsOnly s _ _).trans (setF_regsOnly _ _ _)).trans (setF_regsOnly _ _ _)

theorem macRxFrame_disabled {s : State} {e : RxEvent} (hen : s.portEn e.port = false) : macRxFrame e s = s := by
  simp [macRxFrame, hen]

section Enabled

variable {s : State} {e₀ e : RxEvent} {u : State} (hp : e₀.port < 11) (hen : s.portEn e₀.port = true)
  (he : e = { e₀ with frame := s.asPair e₀.port e₀.frame }) (hu : u = s.rxCounted e)
include hp hen he hu

theorem macRxFrame_eq : macRxFrame e₀ s = match u.rxRefuses e with
    | some n => if (n == 5 || n == 2 || n == 3 || n == 4) && (u.macBump e.port n).forwards e.port e.frame then
        (u.macBump e.port n).hsrForward e.port e.frame ((u.macBump e.port n).rxStamp e.port e.code).1 true else u.macBump e.port n
    | none => match e.frame.body with
      | .pause q => if e.frame.da = 0x0180C2000001 ∨ e.frame.da = u.portAddr e.port then u.pauseRx e.port q else u
      | _ => u.rxGood e := by
  have hport : (!isPort e₀.port || !s.portEn e₀.port) = false := by simp [isPort, hp, hen]
  subst he hu
  unfold macRxFrame
  dsimp only
  rw [hport, if_neg Bool.false_ne_true]
  rfl

theorem macRxFrame_refused {n : Nat} (hr : u.rxRefuses e = some n)
    (hends : n ∉ [2, 3, 4, 5] ∨ (u.macBump e.port n).forwards e.port e.frame = false) : macRxFrame e₀ s = u.macBump e.port n := by
  rw [macRxFrame_eq hp hen he hu, hr]
  refine if_neg (fun h => ?_)
  rw [Bool.and_eq_true] at h
  obtain ⟨hn, hf⟩ := h
  rcases hends with hnot | hnot
  · simp at hn hnot
    tauto
  · exact Bool.false_ne_true (hnot.symm.trans hf)

theorem macRxFrame_cut_through {n : Nat} (hr : u.rxRefuses e = some n) (hn : n ∈ [2, 3, 4, 5])
    (hf : (u.macBump e.port n).forwards e.port e.frame = true) :
    macRxFrame e₀ s = (u.macBump e.port n).hsrForward e.port e.frame ((u.macBump e.port n).rxStamp e.port e.code).1 true := by
  rw [macRxFrame_eq hp hen he hu, hr]
  refine if_pos ?_
  rw [hf, Bool.and_true]
  simp at hn ⊢
  tauto

theorem macRxFrame_pause {q : Nat} (hr : u.rxRefuses e = none) (hb : e.frame.body = .pause q) :
    macRxFrame e₀ s = if e.frame.da = 0x0180C2000001 ∨ e.frame.da = u.portAddr e.port then u.pauseRx e.port q else u := by
  rw [macRxFrame_eq hp hen he hu, hr]
  dsimp only
  rw [hb]

theorem macRxFrame_good (hr : u.rxRefuses e = none) (hb : ∀ q, e.frame.body ≠ .pause q) : macRxFrame e₀ s = u.rxGood e := by
  rw [macRxFrame_eq hp hen he hu, hr]
  dsimp only
  split
  case h_1 q h => exact absurd h (hb q)
  case h_2 => rfl

end Enabled

/-- Settles O25: the first row of R113 that holds, then pause frames, then what goes on. -/
theorem receptionFollowsItsRows : Obligations.ReceptionFollowsItsRows := by
  intro s e₀ p e u
  have hu : u = s.rxCounted e := rfl
  refine ⟨fun _ hen => congrArg _ (macRxFrame_disabled hen), fun n hp hen hr => ⟨fun hends => ?_, fun hn hf => ?_⟩,
    fun q hp hen hr hb hda => ?_, fun q hp hen hr hb hne hown => ?_, fun hp hen hr hb => ?_⟩
  · refine ⟨u.macBump p n, congrArg Host.Outcome.next (macRxFrame_refused hp hen rfl hu hr hends), ?_, rfl⟩
    exact (rxCounted_regsOnly s e).trans (setF_regsOnly _ _ _)
  · exact congrArg _ (macRxFrame_cut_through hp hen rfl hu hr hn hf)
  · exact congrArg _ ((macRxFrame_pause hp hen rfl hu hr hb).trans (if_pos hda))
  · exact congrArg _ ((macRxFrame_pause hp hen rfl hu hr hb).trans (if_neg (not_or.mpr ⟨hne, hown⟩)))
  · exact congrArg _ (macRxFrame_good hp hen rfl hu hr hb)

end Sys2Proof.Machine
end

section
/-! O26: the oldest staged frame of a port and the ring it enters. -/
namespace Sys2Proof.Machine

-- one proof after the other: started together they wait on each other's results, each in a thread of its own
set_option Elab.async false

section Oldest

variable {s : State} {p : Nat} {g : Staged} {rest : List Staged} (hst : (s.macOf p).staging = g :: rest)

/-- The frame gone from staging. -/
def State.unstaged (s : State) (p : Nat) (rest : List Staged) : State :=
  (s.modMac p (fun m => { m with staging := rest })).pauseLevel p

/-- The octets of a frame that its `i`-th descriptor takes. -/
def partSize (w : List Nat) (g : Staged) (i : Nat) : Nat := min (rgBuf w) (g.frame.len - i * rgBuf w)

/-- The descriptor and the buffer that take the `i`-th part stand in memory the slice owns. -/
def State.partOwned (s : State) (w : List Nat) (g : Staged) (i : Nat) : Bool :=
  s.dramOwned (rgSlice w) (s.descAddr g.ring (g.first + i)) 32 &&
    s.dramOwned (rgSlice w) (s.rd64 (s.descAddr g.ring (g.first + i))) (partSize w g i)

/-- The octets of one part of a frame written, where its memory is the slice's. -/
def State.placeOctets (s : State) (w : List Nat) (g : Staged) (i : Nat) : State :=
  if s.partOwned w g i then
    s.wrOctets (s.rd64 (s.descAddr g.ring (g.first + i))) ((g.frame.raw.drop (i * rgBuf w)).take (partSize w g i)) else s

/-- One part of a frame written with its descriptor. -/
def State.placePart (s : State) (p : Nat) (w : List Nat) (g : Staged) (i : Nat) : State :=
  (s.placeOctets w g i).sliceWr (rgSlice w) (s.descAddr g.ring (g.first + i) + 8)
    (rxWords g p ((s.placeOctets w g i).redun p) i g.n (partSize w g i) (if s.partOwned w g i then 0 else 1))

theorem placeOctets_redun (s : State) (p : Nat) (w : List Nat) (g : Staged) (i : Nat) : (s.placeOctets w g i).redun p = s.redun p := by
  unfold State.placeOctets
  split <;> rfl

theorem placePart_eq (s : State) (p : Nat) (w : List Nat) (g : Staged) (i : Nat) : s.placePart p w g i =
    (s.placeOctets w g i).sliceWr (rgSlice w) (s.descAddr g.ring (g.first + i) + 8)
      (rxWords g p (s.redun p) i g.n (partSize w g i) (if s.partOwned w g i then 0 else 1)) := by
  rw [State.placePart, placeOctets_redun]

/-- The whole frame written. -/
def State.placedWhole (s : State) (p : Nat) (w : List Nat) (g : Staged) (rest : List Staged) : State :=
  forN g.n (fun s i => s.placePart p w g i) (s.unstaged p rest)

/-- The ring moved on by the frame. -/
def State.ringPassed (s : State) (g : Staged) : State :=
  (s.modRing g.ring (fun x => { x with claimed := x.claimed - g.n })).advanceHead g.ring g.n

include hst

theorem rxDescriptorsComplete_eq : rxDescriptorsComplete p s =
    if (s.slice (rgSlice (s.sltEnt 2 g.ring))).gen != g.gen then s.unstaged p rest
    else if g.first % 65536 != (s.ring g.ring).head % 65536 then s
    else if (List.range g.n).any (fun i => !(s.placedWhole p (s.sltEnt 2 g.ring) g rest).partOwned (s.sltEnt 2 g.ring) g i) then
      (((s.placedWhole p (s.sltEnt 2 g.ring) g rest).ringPassed g).modSlice (rgSlice (s.sltEnt 2 g.ring))
        (fun x => { x with descErr := satInc 32 x.descErr })).sliceError (rgSlice (s.sltEnt 2 g.ring))
    else (s.placedWhole p (s.sltEnt 2 g.ring) g rest).ringPassed g := by
  unfold rxDescriptorsComplete
  rw [hst]
  rfl

theorem rxDescriptorsComplete_stale (hgen : (s.slice (rgSlice (s.sltEnt 2 g.ring))).gen ≠ g.gen) :
    rxDescriptorsComplete p s = s.unstaged p rest := by
  rw [rxDescriptorsComplete_eq hst, if_pos (bne_iff_ne.mpr hgen)]

theorem rxDescriptorsComplete_not_first (hgen : (s.slice (rgSlice (s.sltEnt 2 g.ring))).gen = g.gen)
    (hhead : g.first % 65536 ≠ (s.ring g.ring).head % 65536) : rxDescriptorsComplete p s = s := by
  rw [rxDescriptorsComplete_eq hst, if_neg (by simp [hgen]), if_pos (bne_iff_ne.mpr hhead)]

theorem rxDescriptorsComplete_first (hgen : (s.slice (rgSlice (s.sltEnt 2 g.ring))).gen = g.gen)
    (hhead : g.first % 65536 = (s.ring g.ring).head % 65536) : rxDescriptorsComplete p s =
      if (List.range g.n).any (fun i => !(s.placedWhole p (s.sltEnt 2 g.ring) g rest).partOwned (s.sltEnt 2 g.ring) g i) then
        (((s.placedWhole p (s.sltEnt 2 g.ring) g rest).ringPassed g).modSlice (rgSlice (s.sltEnt 2 g.ring))
          (fun x => { x with descErr := satInc 32 x.descErr })).sliceError (rgSlice (s.sltEnt 2 g.ring))
      else (s.placedWhole p (s.sltEnt 2 g.ring) g rest).ringPassed g := by
  rw [rxDescriptorsComplete_eq hst, if_neg (by simp [hgen]), if_neg (by simp [hhead])]

theorem rxDescriptorsComplete_owned (hgen : (s.slice (rgSlice (s.sltEnt 2 g.ring))).gen = g.gen)
    (hhead : g.first % 65536 = (s.ring g.ring).head % 65536)
    (hown : ∀ i < g.n, (s.placedWhole p (s.sltEnt 2 g.ring) g rest).partOwned (s.sltEnt 2 g.ring) g i = true) :
    rxDescriptorsComplete p s = (s.placedWhole p (s.sltEnt 2 g.ring) g rest).ringPassed g := by
  rw [rxDescriptorsComplete_first hst hgen hhead]
  refine if_neg (fun h => ?_)
  obtain ⟨i, hi, hbad⟩ := List.any_eq_true.mp h
  rw [hown i (List.mem_range.mp hi)] at hbad
  exact Bool.false_ne_true hbad

theorem rxDescriptorsComplete_foreign (hgen : (s.slice (rgSlice (s.sltEnt 2 g.ring))).gen = g.gen)
    (hhead : g.first % 65536 = (s.ring g.ring).head % 65536)
    (hbad : ∃ i < g.n, (s.placedWhole p (s.sltEnt 2 g.ring) g rest).partOwned (s.sltEnt 2 g.ring) g i = false) :
    rxDescriptorsComplete p s =
      (((s.placedWhole p (s.sltEnt 2 g.ring) g rest).ringPassed g).modSlice (rgSlice (s.sltEnt 2 g.ring))
        (fun x => { x with descErr := satInc 32 x.descErr })).sliceError (rgSlice (s.sltEnt 2 g.ring)) := by
  obtain ⟨i, hi, hbad⟩ := hbad
  rw [rxDescriptorsComplete_first hst hgen hhead]
  exact if_pos (List.any_eq_true.mpr ⟨i, List.mem_range.mpr hi, by rw [hbad]; rfl⟩)

end Oldest

theorem placedWhole_eq (s : State) (p : Nat) (w : List Nat) (g : Staged) (rest : List Staged) : s.placedWhole p w g rest =
    forN g.n (fun s i => (s.placeOctets w g i).sliceWr (rgSlice w) (s.descAddr g.ring (g.first + i) + 8)
      (rxWords g p (s.redun p) i g.n (partSize w g i) (if s.partOwned w g i then 0 else 1))) (s.unstaged p rest) := by
  simp only [State.placedWhole, placePart_eq]

/-- Settles O26: the generation, then the place in the ring, then the memory of each part. -/
theorem stagedFramesEnterTheirRingWhole : Obligations.StagedFramesEnterTheirRingWhole := by
  intro s p g rest hst r w n drop
  refine ⟨fun hgen => congrArg Host.Outcome.next (rxDescriptorsComplete_stale hst hgen),
    fun hgen hhead => congrArg Host.Outcome.next (rxDescriptorsComplete_not_first hst hgen hhead), fun hgen hhead => ?_⟩
  intro size owned v t
  have hv : v = s.placedWhole p w g rest := (placedWhole_eq s p w g rest).symm
  refine ⟨fun hown => ?_, fun hbad => ?_⟩
  · rw [hv] at hown
    rw [exec_rxDescriptorsComplete, execRxDescriptorsComplete, rxDescriptorsComplete_owned hst hgen hhead hown]
    exact congrArg (fun x : State => Host.Outcome.next (x.ringPassed g)) hv.symm
  · rw [hv] at hbad
    rw [exec_rxDescriptorsComplete, execRxDescriptorsComplete, rxDescriptorsComplete_foreign hst hgen hhead hbad]
    exact congrArg (fun x : State => Host.Outcome.next (((x.ringPassed g).modSlice n
      (fun y => { y with descErr := satInc 32 y.descErr })).sliceError n)) hv.symm

end Sys2Proof.Machine
end

section
/-! O27: links and the timers of a port. -/
namespace Sys2Proof.Machine

-- one proof after the other: started together they wait on each other's results, each in a thread of its own
set_option Elab.async false

theorem stateEvent_all {k : Nat} {s : State} {n st cause : Nat} :
    WritesFields k [F.SLT_CNT_COUNT.nth 3] s (State.stateEvent s n st cause) := by
  unfold State.stateEvent
  repeat' first
    | with_reducible assumption
    | with_reducible exact WritesFields.refl _ _ _
    | with_reducible apply WritesFields.via event_writes

theorem sliceToFaulted_all {k : Nat} {s : State} {n cause : Nat} :
    WritesFields k [F.SLT_CNT_COUNT.nth 3] s (State.sliceToFaulted s n cause) := by
  unfold State.sliceToFaulted
  repeat' first
    | with_reducible assumption
    | with_reducible exact WritesFields.refl _ _ _
    | (extract_lets +onlyGivenNames x; refine WritesFields.cut (k := k) (W := [F.SLT_CNT_COUNT.nth 3]) (s := s) (t := x) ?_ (fun hx => ?_); (on_goal 1 => (unfold x; clear x)); (on_goal 2 => clear_value x))
    | with_reducible apply WritesFields.ite
    | with_reducible apply WritesFields.via ((ringsTo_touches).writesFields _)
    | with_reducible apply WritesFields.via ((fClear_touches).writesFields _)
    | with_reducible apply WritesFields.via ((statusBit_touches).writesFields _)
    | with_reducible apply WritesFields.via stateEvent_all
    | with_reducible apply WritesFields.via ((ringPubs_touches).writesFields _)
    | with_reducible apply WritesFields.via ((modSlice_touches).writesFields _)

theorem sliceError_all {k : Nat} {s : State} {n : Nat} :
    WritesFields k [F.SLT_CNT_COUNT.nth 3] s (State.sliceError s n) := by
  unfold State.sliceError
  repeat' first
    | with_reducible assumption
    | with_reducible exact WritesFields.refl _ _ _
    | (extract_lets +onlyGivenNames x; refine WritesFields.cut (k := k) (W := [F.SLT_CNT_COUNT.nth 3]) (s := s) (t := x) ?_ (fun hx => ?_); (on_goal 1 => (unfold x; clear x)); (on_goal 2 => clear_value x))
    | (extract_lets +onlyGivenNames x; (have hv : x = x := by unfold x; exact Eq.refl _); clear hv; clear_value x)
    | with_reducible apply WritesFields.ite
    | with_reducible apply WritesFields.via ((modSlice_touches).writesFields _)
    | with_reducible apply WritesFields.via sliceToFaulted_all

theorem ringEnd_all {k : Nat} {s : State} {sl r : Nat} {e : RingEnd} :
    WritesFields k [F.SLT_CNT_COUNT.nth 3] s (State.ringEnd s sl r e) := by
  unfold State.ringEnd
  repeat' first
    | with_reducible assumption
    | with_reducible exact WritesFields.refl _ _ _
    | (extract_lets +onlyGivenNames x; refine WritesFields.cut (k := k) (W := [F.SLT_CNT_COUNT.nth 3]) (s := s) (t := x) ?_ (fun hx => ?_); (on_goal 1 => (unfold x; clear x)); (on_goal 2 => clear_value x))
    | (extract_lets +onlyGivenNames x; (have hv : x = x := by unfold x; exact Eq.refl _); clear hv; clear_value x)
    | with_reducible apply WritesFields.ite
    | with_reducible apply WritesFields.via ((wr64_touches).writesFields _)
    | with_reducible apply WritesFields.via ((modSlice_touches).writesFields _)
    | with_reducible apply WritesFields.via ((modRing_touches).writesFields _)
    | with_reducible apply WritesFields.via ((advanceHead_touches).writesFields _)
    | with_reducible apply WritesFields.via sliceError_all
    | with_reducible apply WritesFields.forN
    | (intro _; intros; try beta_reduce)

theorem ringDrain_all {k : Nat} {s : State} {sl r n : Nat} : WritesFields k [F.SLT_CNT_COUNT.nth 3] s (State.ringDrain s sl r n) := by
  induction n generalizing s with
  | zero => exact .refl _ _ _
  | succ n ih =>
    unfold State.ringDrain
    split
    · exact .refl _ _ _
    · exact .via ih (.via ringEnd_all (.via (modRing_touches.writesFields _) (.refl _ _ s)))

theorem txComplete_all {k : Nat} {s : State} {sl r gen first n status ts : Nat} {st : Option Nat} :
    WritesFields k [F.SLT_CNT_COUNT.nth 3] s (State.txComplete s sl r gen first n status ts st) := by
  unfold State.txComplete
  repeat' first
    | with_reducible assumption
    | with_reducible exact WritesFields.refl _ _ _
    | with_reducible apply WritesFields.ite
    | with_reducible apply WritesFields.via ((modRing_touches).writesFields _)
    | with_reducible apply WritesFields.via ringDrain_all

theorem txCopyEnd_all {k : Nat} {s : State} {f : TxFrame} {status ts : Nat} :
    WritesFields k [F.SLT_CNT_COUNT.nth 3] s (State.txCopyEnd s f status ts) := by
  unfold State.txCopyEnd
  repeat' first
    | with_reducible assumption
    | with_reducible exact WritesFields.refl _ _ _
    | (extract_lets +onlyGivenNames x; (have hv : x = x := by unfold x; exact Eq.refl _); clear hv; clear_value x)
    | with_reducible apply WritesFields.ite
    | with_reducible apply WritesFields.via ((markCopies_touches).writesFields _)
    | with_reducible apply WritesFields.via txComplete_all
    | split

theorem txFail_all {k : Nat} {s : State} {f : TxFrame} {status : Nat} :
    WritesFields k [F.SLT_CNT_COUNT.nth 3] s (State.txFail s f status) := by
  unfold State.txFail
  repeat' first
    | with_reducible apply WritesFields.via txCopyEnd_all
    | with_reducible exact WritesFields.refl _ _ _


/-! ### Fields of a port -/

theorem pg_key (f : Field) (p : Nat) : (f.pg p).key = f.key + p * 0x10000 * 64 := by
  rw [Field.pg, fix_key]
  simp only [Field.key]
  omega

theorem pg_key_ne {f g : Field} (h : f.key ≠ g.key) (p : Nat) : (f.pg p).key ≠ (g.pg p).key := by
  rw [pg_key, pg_key]
  omega

theorem macCnt_key (p n : Nat) : (macCnt p n).key = F.MAC_CNT_COUNT.key + n * 512 + p * 0x10000 * 64 := by
  rw [macCnt, pg_key]
  have h : (F.MAC_CNT_COUNT.nth n).key = F.MAC_CNT_COUNT.key + n * 512 := by
    simp only [Field.nth, Field.key]
    show (_ + n * 8) * 64 + _ = _
    omega
  rw [h]

theorem pg_key_ne_macCnt {f : Field} (h : f.key < F.MAC_CNT_COUNT.key) (p n : Nat) : (f.pg p).key ≠ (macCnt p n).key := by
  rw [pg_key, macCnt_key]
  omega

/-- A field of a port stays when another field of that port is written. -/
theorem get_setF_pg_ne (s : State) {f g : Field} (p v : Nat) (h : g.key ≠ f.key) : (s.setF (f.pg p) v).get (g.pg p) = s.get (g.pg p) :=
  State.get_setF_ne s v (pg_key_ne h p)

theorem get_setB_pg_ne (s : State) {f g : Field} (p : Nat) (b : Bool) (h : g.key ≠ f.key) :
    (s.setB (f.pg p) b).get (g.pg p) = s.get (g.pg p) :=
  State.get_setB_ne s b (pg_key_ne h p)

/-- A field of a port below its counters stays when a counter of the port goes on. -/
theorem get_macBump_pg (s : State) {g : Field} (p n : Nat) (h : g.key < F.MAC_CNT_COUNT.key) : (s.macBump p n).get (g.pg p) = s.get (g.pg p) :=
  State.get_setF_ne s _ (pg_key_ne_macCnt h p n)

theorem pg_width (f : Field) (p : Nat) : (f.pg p).width = f.width := by
  unfold Field.pg Field.fix
  split_ifs <;> rfl

theorem flag_setF_pg_one (s : State) {f : Field} (p : Nat) (h : f.width = 1) : (s.setF (f.pg p) 1).flag (f.pg p) = true := by
  rw [State.flag, State.get_setF_same, pg_width, h]
  rfl

theorem flag_setF_pg_zero (s : State) (f : Field) (p : Nat) : (s.setF (f.pg p) 0).flag (f.pg p) = false := by
  rw [State.flag, State.get_setF_same, Nat.zero_mod]
  rfl

theorem flag_setB_pg (s : State) {f : Field} (p : Nat) (b : Bool) (h : f.width = 1) : (s.setB (f.pg p) b).flag (f.pg p) = b := by
  rw [State.flag, State.get_setB_same, pg_width, h]
  exact b2n_bit b

theorem macOf_congr {s t : State} (h : t.mac = s.mac) (p : Nat) : t.macOf p = s.macOf p := by
  rw [State.macOf, State.macOf, h]

theorem macOf_modMac_same (s : State) (p : Nat) (f : Mac → Mac) : (s.modMac p f).macOf p = f (s.macOf p) := by
  show Tbl.get {} p (Tbl.mod {} p f s.mac) = f (Tbl.get {} p s.mac)
  rw [Tbl.get_mod, if_pos rfl]

theorem pairOf_modPair_same (s : State) (p : Nat) (f : Pair → Pair) : (s.modPair p f).pairOf p = f (s.pairOf p) := by
  show Tbl.get {} p (Tbl.mod {} p f s.pairs) = f (Tbl.get {} p s.pairs)
  rw [Tbl.get_mod, if_pos rfl]

/-! ### Links -/

/-- LINK raised unless the Weevil holds the port down. -/
def State.linkRaised (s : State) (p : Nat) : State :=
  if (s.macOf p).wvlTill.isSome then s else s.setF (F.MAC_STATUS_LINK.pg p) 1

theorem linkRaised_touches {s : State} {p : Nat} : Touches [.regs] s (s.linkRaised p) :=
  .ite (.refl _ _) (.via setF_touches (.refl _ _))

theorem linkRaised_link (s : State) (p : Nat) : (s.linkRaised p).link p = (s.link p || (s.macOf p).wvlTill.isNone) := by
  unfold State.linkRaised
  cases h : (s.macOf p).wvlTill with
  | none => simpa [h, State.link] using flag_setF_pg_one s p rfl
  | some t => simp

theorem linkRaised_get (s : State) (p : Nat) {g : Field} (h : g.key ≠ F.MAC_STATUS_LINK.key) :
    (s.linkRaised p).get (g.pg p) = s.get (g.pg p) := by
  unfold State.linkRaised
  split
  · rfl
  · exact get_setF_pg_ne s p 1 h

/-- The locks of a port that is not M0 shown. -/
def State.locksShown (s : State) (p : Nat) : State :=
  let s := s.setF (F.MAC_STATUS_BLOCK_LOCK.pg p) 1
  s.setB (F.MAC_STATUS_FEC_LOCK.pg p) (s.flag (F.MAC_CTL_FEC.pg p))

theorem locksShown_touches {s : State} {p : Nat} : Touches [.regs] s (s.locksShown p) :=
  .via setB_touches (.via setF_touches (.refl _ _))

theorem locksShown_block (s : State) (p : Nat) : (s.locksShown p).get (F.MAC_STATUS_BLOCK_LOCK.pg p) = 1 := by
  rw [State.locksShown, get_setB_pg_ne _ _ _ (by decide), State.get_setF_same, pg_width]
  rfl

theorem locksShown_fec (s : State) (p : Nat) : (s.locksShown p).flag (F.MAC_STATUS_FEC_LOCK.pg p) = s.flag (F.MAC_CTL_FEC.pg p) := by
  rw [State.locksShown, flag_setB_pg _ _ _ rfl, State.flag, get_setF_pg_ne _ _ _ (by decide)]
  rfl

theorem locksShown_link (s : State) (p : Nat) : (s.locksShown p).link p = s.link p := by
  rw [State.link, State.flag, State.locksShown, get_setB_pg_ne _ _ _ (by decide), get_setF_pg_ne _ _ _ (by decide)]
  rfl

/-- A lock that has held for 10 ms taken. -/
def State.lockTaken (s : State) (p : Nat) : State :=
  (match (s.macOf p).lockAt with | some t => s.advanceTo (t + ms 10) | none => s).modMac p (fun m => { m with lock := true, lockAt := none })

theorem lockTaken_touches {s : State} {p : Nat} : Touches [.tbu, .mac] s (s.lockTaken p) := by
  unfold State.lockTaken
  refine .via modMac_touches ?_
  split
  · exact .via advanceTo_touches (.refl _ _)
  · exact .refl _ _

theorem lockTaken_macOf (s : State) (p : Nat) : (s.lockTaken p).macOf p = { s.macOf p with lock := true, lockAt := none } := by
  unfold State.lockTaken
  rw [macOf_modMac_same]
  split <;> rfl

theorem lockTaken_t48 (s : State) (p : Nat) {a : Time} (h : (s.macOf p).lockAt = some a) :
    (s.lockTaken p).tbu.t48 = max s.tbu.t48 ((a + ms 10) * 2 ^ 32) := by
  unfold State.lockTaken
  rw [h]
  rfl

theorem linkUp_held {s : State} {p : Nat} (hp : p < 11) (h10 : p ≠ 10) (speed : Nat) (full : Bool) :
    linkUp p true speed full s = ((s.locksShown p).lockTaken p).linkRaised p := by
  unfold linkUp
  rw [if_neg (by simp [isPort, hp])]
  dsimp only
  rw [if_neg h10]
  rfl

theorem linkUp_not_held {s : State} {p : Nat} (hp : p < 11) (h10 : p ≠ 10) (speed : Nat) (full : Bool) :
    linkUp p false speed full s = (s.locksShown p).modMac p
      (fun m => { m with lockAt := if m.lock then none else some (m.lockAt.getD (s.locksShown p).now) }) := by
  unfold linkUp
  rw [if_neg (by simp [isPort, hp])]
  dsimp only
  rw [if_neg h10]
  rfl

theorem linkUp_held_next (s : State) {p : Nat} (hp : p < 11) (h10 : p ≠ 10) (speed : Nat) (full : Bool) :
    ∃ t, exec (.linkUp ⟨p, true, speed, full⟩) s = .next t ∧ t.flag (F.MAC_STATUS_BLOCK_LOCK.pg p) = true ∧
      t.flag (F.MAC_STATUS_FEC_LOCK.pg p) = s.flag (F.MAC_CTL_FEC.pg p) ∧ (t.macOf p).lock = true ∧
      (∀ a, (s.macOf p).lockAt = some a → t.tbu.t48 = max s.tbu.t48 ((a + ms 10) * 2 ^ 32)) ∧
      t.link p = (s.link p || (s.macOf p).wvlTill.isNone) ∧ t.mem = s.mem ∧ t.slp = s.slp := by
  have hshown := locksShown_touches (s := s) (p := p)
  have hmac : (s.locksShown p).macOf p = s.macOf p := macOf_congr hshown.mac_eq p
  have htaken := lockTaken_touches (s := s.locksShown p) (p := p)
  have hraised := linkRaised_touches (s := (s.locksShown p).lockTaken p) (p := p)
  refine ⟨_, congrArg Host.Outcome.next (linkUp_held hp h10 speed full), ?_, ?_, ?_, fun a ha => ?_, ?_,
    hraised.mem_eq.trans (htaken.mem_eq.trans (hshown.mem_eq)), hraised.slp_eq.trans (htaken.slp_eq.trans (hshown.slp_eq))⟩
  · rw [State.flag, linkRaised_get _ _ (by decide), htaken.get_eq, locksShown_block]
    rfl
  · rw [← locksShown_fec s p, State.flag, State.flag, linkRaised_get _ _ (by decide), htaken.get_eq]
  · have h : (((s.locksShown p).lockTaken p).linkRaised p).macOf p = ((s.locksShown p).lockTaken p).macOf p :=
      macOf_congr hraised.mac_eq p
    rw [h, lockTaken_macOf]
  · rw [hraised.tbu_eq]
    exact (lockTaken_t48 _ p (hmac ▸ ha)).trans (congrArg (fun x => max x _) (congrArg Tbu.t48 hshown.tbu_eq))
  · have hlink : ((s.locksShown p).lockTaken p).link p = s.link p := (htaken.flag_eq _).trans (locksShown_link s p)
    rw [linkRaised_link, hlink, lockTaken_macOf, hmac]

theorem linkUp_not_held_next (s : State) {p : Nat} (hp : p < 11) (h10 : p ≠ 10) (speed : Nat) (full : Bool) :
    ∃ t, exec (.linkUp ⟨p, false, speed, full⟩) s = .next t ∧ t.flag (F.MAC_STATUS_BLOCK_LOCK.pg p) = true ∧
      t.link p = s.link p ∧ (t.macOf p).lockAt = (if (s.macOf p).lock then none else some ((s.macOf p).lockAt.getD s.now)) ∧
      t.mem = s.mem ∧ t.slp = s.slp := by
  have hshown := locksShown_touches (s := s) (p := p)
  have hmac : (s.locksShown p).macOf p = s.macOf p := macOf_congr hshown.mac_eq p
  have hnow : (s.locksShown p).now = s.now := hshown.now_eq
  refine ⟨_, congrArg Host.Outcome.next (linkUp_not_held hp h10 speed full), ?_, ?_, ?_, hshown.mem_eq, hshown.slp_eq⟩
  · rw [State.flag, modMac_touches.get_eq, locksShown_block]
    rfl
  · exact (modMac_touches.flag_eq _).trans (locksShown_link s p)
  · rw [macOf_modMac_same, hmac, hnow]

/-- LINK_UP on M0 for a report of its one mode, or of another. -/
def State.m0Locked (s : State) (p : Nat) (ok : Bool) : State :=
  (s.setF (F.MAC_STATUS_BLOCK_LOCK.pg p) 1).modMac p (fun m => { m with lock := ok })

theorem m0Locked_macOf (s : State) (p : Nat) (ok : Bool) : (s.m0Locked p ok).macOf p = { s.macOf p with lock := ok } :=
  macOf_modMac_same (s.setF (F.MAC_STATUS_BLOCK_LOCK.pg p) 1) p _

theorem m0Locked_link (s : State) (p : Nat) (ok : Bool) : (s.m0Locked p ok).link p = s.link p := by
  rw [State.link, State.flag, State.m0Locked, modMac_touches.get_eq, get_setF_pg_ne _ _ _ (by decide)]
  rfl

theorem linkUp_m0 {s : State} {p : Nat} (hp : p = 10) (held : Bool) (speed : Nat) (full : Bool) :
    linkUp p held speed full s = if !(decide (speed = 1000) && full) then (s.m0Locked p (decide (speed = 1000) && full)).linkFall p
      else (s.m0Locked p (decide (speed = 1000) && full)).linkRaised p := by
  unfold linkUp
  rw [if_neg (by simp [isPort, hp])]
  dsimp only
  rw [if_pos hp]
  rfl

theorem linkUp_m0_matching {s : State} {p : Nat} (hp : p = 10) (held : Bool) {speed : Nat} {full : Bool} (hs : speed = 1000)
    (hf : full = true) : linkUp p held speed full s = (s.m0Locked p true).linkRaised p := by
  have hok : (decide (speed = 1000) && full) = true := by simp [hs, hf]
  rw [linkUp_m0 hp, hok, if_neg (by decide)]

theorem linkUp_m0_other {s : State} {p : Nat} (hp : p = 10) (held : Bool) {speed : Nat} {full : Bool}
    (h : speed ≠ 1000 ∨ full = false) : linkUp p held speed full s = (s.m0Locked p false).linkFall p := by
  have hok : (decide (speed = 1000) && full) = false := by
    rcases h with h | h <;> simp [h]
  rw [linkUp_m0 hp, hok, if_pos (by decide)]

theorem linkUp_m0_matching_next (s : State) {p : Nat} (hp : p = 10) (held : Bool) {speed : Nat} {full : Bool} (hs : speed = 1000)
    (hf : full = true) :
    ∃ t, exec (.linkUp ⟨p, held, speed, full⟩) s = .next t ∧ (t.macOf p).lock = true ∧
      t.link p = (s.link p || (s.macOf p).wvlTill.isNone) ∧ t.mem = s.mem ∧ t.slp = s.slp := by
  have hraised := linkRaised_touches (s := s.m0Locked p true) (p := p)
  refine ⟨_, congrArg Host.Outcome.next (linkUp_m0_matching hp held hs hf), ?_, ?_, hraised.mem_eq, hraised.slp_eq⟩
  · rw [macOf_congr hraised.mac_eq p, m0Locked_macOf]
  · rw [linkRaised_link, m0Locked_link, m0Locked_macOf]

theorem pauseRise_lock (s : State) (p : Nat) : ((s.pauseRise p).macOf p).lock = (s.macOf p).lock := by
  have hmod (f : Mac → Mac) (hf : ∀ m, (f m).lock = m.lock) : ((s.modMac p f).macOf p).lock = (s.macOf p).lock := by
    rw [macOf_modMac_same, hf]
  unfold State.pauseRise
  split
  · split
    · split
      · rfl
      · have hset := macOf_congr (setF_touches (s := s.modMac p (fun m => { m with pausedAt := s.now }))
          (f := F.MAC_STATUS_PAUSED.pg p) (v := 1)).mac_eq p
        rw [hset]
        exact hmod (fun m => { m with pausedAt := s.now }) (fun _ => rfl)
    · exact hmod (fun m => { m with pauseUntil := none }) (fun _ => rfl)
  · rfl

theorem txFail_mac (s : State) (f : TxFrame) {status : Nat} (h : status ≠ 0) : (s.txFail f status).mac = s.mac := by
  unfold State.txFail State.txCopyEnd
  split
  · extract_lets ts
    split
    · rfl
    · split <;> exact txComplete_touches.mac_eq
  · rfl

theorem txAbort_lock (s : State) (p : Nat) : ((s.txAbort p).macOf p).lock = (s.macOf p).lock := by
  unfold State.txAbort
  split
  · rfl
  next f h =>
    rw [pauseRise_lock]
    have hmac : (((s.modMac p (fun m => { m with cur := none })).macBump p 21).txFail f 5).macOf p =
        (s.modMac p (fun m => { m with cur := none })).macOf p := macOf_congr (txFail_mac _ f (by decide)) p
    rw [hmac, macOf_modMac_same]

theorem pauseRise_get (s : State) (p : Nat) {g : Field} (h : g.key ≠ F.MAC_STATUS_PAUSED.key) :
    (s.pauseRise p).get (g.pg p) = s.get (g.pg p) := by
  unfold State.pauseRise
  split
  · split
    · split
      · rfl
      · exact get_setF_pg_ne _ p 1 h
    · rfl
  · rfl

theorem txFail_get_pg (s : State) (f : TxFrame) (status : Nat) {g : Field} (h : F.MAC_CTL_EN.key ≤ g.key) (p : Nat) :
    (s.txFail f status).get (g.pg p) = s.get (g.pg p) := by
  have hslt : (F.SLT_CNT_COUNT.nth 3).key < F.MAC_CTL_EN.key := by decide
  have hpg := pg_key g p
  refine (txFail_all (k := (g.pg p).key + 1)).get_eq (by omega) (fun f hf => ?_)
  rw [List.mem_singleton.mp hf]
  omega

theorem txAbort_link (s : State) (p : Nat) : (s.txAbort p).link p = s.link p := by
  refine congrArg (· != 0) ?_
  unfold State.txAbort
  split
  · rfl
  · rw [pauseRise_get _ _ (by decide), txFail_get_pg _ _ _ (by decide), get_macBump_pg _ _ _ (by decide), modMac_touches.get_eq]

/-- A link that is down: its frame is aborted, and the signals that follow LINK are low. -/
theorem linkFall_link (s : State) (p : Nat) : (s.linkFall p).link p = false := by
  unfold State.linkFall
  extract_lets u v
  have hv : v.link p = false := by
    rw [txAbort_link]
    exact flag_setF_pg_zero _ _ _
  rw [State.link, State.flag, get_setF_pg_ne _ _ _ (by decide), get_setF_pg_ne _ _ _ (by decide), get_setF_pg_ne _ _ _ (by decide),
    get_setF_pg_ne _ _ _ (by decide)]
  exact hv

theorem linkFall_lock (s : State) (p : Nat) : ((s.linkFall p).macOf p).lock = (s.macOf p).lock := by
  unfold State.linkFall
  extract_lets u v
  have hu : u.macOf p = s.macOf p := by
    unfold u
    split <;> rfl
  have hv : (v.macOf p).lock = (u.macOf p).lock := txAbort_lock _ p
  exact hv.trans (congrArg Mac.lock hu)

theorem linkUp_m0_other_next (s : State) {p : Nat} (hp : p = 10) (held : Bool) {speed : Nat} {full : Bool}
    (h : speed ≠ 1000 ∨ full = false) :
    ∃ t, exec (.linkUp ⟨p, held, speed, full⟩) s = .next t ∧ (t.macOf p).lock = false ∧ t.link p = false := by
  refine ⟨_, congrArg Host.Outcome.next (linkUp_m0_other hp held h), ?_, linkFall_link _ _⟩
  rw [linkFall_lock, m0Locked_macOf]

theorem linkDown_next (s : State) {p : Nat} (hp : p < 11) (cause : Nat) :
    let u := s.modMac p (fun m => { m with lock := false, lockAt := none })
    let v := if cause = 0 then u.setF (F.MAC_STATUS_BLOCK_LOCK.pg p) 0 else u
    exec (.linkDown ⟨p, cause⟩) s = .next ((if cause ≤ 1 then v.setF (F.MAC_STATUS_FEC_LOCK.pg p) 0 else v).linkFall p) := by
  refine congrArg Host.Outcome.next ?_
  show linkDown p cause s = _
  unfold linkDown
  rw [if_neg (by simp [isPort, hp])]

theorem weevilLinkDownEnd_next (s : State) (p : Nat) {till : Time} (h : (s.macOf p).wvlTill = some till) :
    ∃ t, exec (.weevilLinkDownEnd p) s = .next t ∧ (t.macOf p).wvlTill = none ∧ t.tbu.t48 = max s.tbu.t48 (till * 2 ^ 32) ∧
      t.link p = (s.link p || (s.macOf p).lock) ∧ t.mem = s.mem ∧ t.slp = s.slp := by
  let u := (s.advanceTo till).modMac p (fun m => { m with wvlTill := none })
  have heq : weevilLinkDownEnd p s = if (u.macOf p).lock then u.setF (F.MAC_STATUS_LINK.pg p) 1 else u := by
    unfold weevilLinkDownEnd
    rw [h]
  have htouch : Touches [.regs] u (weevilLinkDownEnd p s) := heq ▸ .ite (.via setF_touches (.refl _ _)) (.refl _ _)
  have hu : u.macOf p = { s.macOf p with wvlTill := none } := macOf_modMac_same _ _ _
  have hlink : u.link p = s.link p := rfl
  have hmac : (weevilLinkDownEnd p s).macOf p = u.macOf p := macOf_congr htouch.mac_eq p
  refine ⟨_, exec_weevilLinkDownEnd p s, by rw [hmac, hu], congrArg Tbu.t48 htouch.tbu_eq, ?_, htouch.mem_eq, htouch.slp_eq⟩
  rw [heq, hu]
  dsimp only
  cases hl : (s.macOf p).lock with
  | true => simpa [State.link] using flag_setF_pg_one u p rfl
  | false => simpa using hlink

/-! ### Timers of a port -/

theorem pauseEnd_next (s : State) (p : Nat) {u : Time} (h : (s.macOf p).pauseUntil = some u) : exec (.pauseEnd p) s = .next
    (((s.advanceTo u).modMac p (fun m => { m with pauseUntil := none })).setF (F.MAC_STATUS_PAUSED.pg p) 0) := by
  rw [exec_pauseEnd, execPauseEnd]
  unfold pauseEnd
  rw [h]

theorem pauseWd_next (s : State) (p : Nat) {u : Time} (hp : s.flag (F.MAC_STATUS_PAUSED.pg p) = true)
    (hwd : s.get (F.MAC_PAUSE_CFG_WD_TIME.pg p) ≠ 0) (hu : (s.macOf p).pauseUntil = some u) :
    let at_ := (s.macOf p).pausedAt + us (10 * s.get (F.MAC_PAUSE_CFG_WD_TIME.pg p))
    let v := s.advanceTo at_
    at_ ≤ u → exec (.pauseWd p) s = .next
      ((((v.modMac p (fun m => { m with pauseUntil := none, ignFrom := v.now })).setF (F.MAC_STATUS_PAUSED.pg p) 0).setF
        (F.MAC_STATUS_PAUSE_IGN.pg p) 1).macBump p 26 |>.belfry 1 0x0003 p []) := by
  intro at_ v hle
  rw [exec_pauseWd, execPauseWd]
  unfold pauseWd
  dsimp only
  rw [hp, bne_iff_ne.mpr hwd, hu, Bool.and_self]
  exact congrArg Host.Outcome.next (if_neg (Nat.not_lt.mpr hle))

theorem pauseIgnoreEnd_next (s : State) (p : Nat) (h : s.flag (F.MAC_STATUS_PAUSE_IGN.pg p) = true) : exec (.pauseIgnoreEnd p) s = .next
    ((s.advanceTo ((s.macOf p).ignFrom + ms (max 1 (s.get (F.MAC_PAUSE_CFG_IGN_TIME.pg p))))).setF (F.MAC_STATUS_PAUSE_IGN.pg p) 0) := by
  rw [exec_pauseIgnoreEnd, execPauseIgnoreEnd]
  unfold pauseIgnoreEnd
  rw [if_neg (by rw [h]; decide)]

theorem pauseRepeat_next (s : State) (p : Nat) (hstay : (s.macOf p).pauseStay = true) (hst : 131072 < (s.macOf p).staged)
    (hen : s.flag (F.MAC_CTL_TX_PAUSE_EN.pg p) = true) (hq : s.get (F.MAC_PAUSE_CFG_TX_QUANTA.pg p) ≠ 0) :
    exec (.pauseRepeat p) s = .next
      ((s.advanceTo ((s.macOf p).pauseTxAt + s.bitTime p (s.get (F.MAC_PAUSE_CFG_TX_QUANTA.pg p) * 512) / 2)).pauseSend p
        (s.get (F.MAC_PAUSE_CFG_TX_QUANTA.pg p))) := by
  rw [exec_pauseRepeat, execPauseRepeat]
  unfold pauseRepeat
  dsimp only
  rw [if_neg (by simp [hstay, Nat.not_le.mpr hst, hen, hq])]

theorem lpiEntry_next (s : State) {p : Nat} (hp : p < 11) (hen : s.portEn p = true) (heee : s.eeePort p = true)
    (hcur : (s.macOf p).cur = none) (hnext : (s.macOf p).next = none) (hlpi : s.flag (F.MAC_STATUS_TX_LPI.pg p) = false) :
    exec (.lpiEntry p) s = .next
      (((s.advanceTo ((s.macOf p).idleAt + us (10 * max 1 (s.get (F.MAC_EEE_CFG_IDLE_ENTRY.pg p))))).macBump p 27 |>.modMac p
        (fun m => { m with readyAt := none })).setF (F.MAC_STATUS_TX_LPI.pg p) 1) := by
  rw [exec_lpiEntry, execLpiEntry]
  unfold lpiEntry
  dsimp only
  rw [if_neg (by simp [isPort, hp, hen, heee, hcur, hnext, hlpi])]

theorem lpiWakeEnd_next (s : State) {p : Nat} (hp : p < 11) (hlpi : s.flag (F.MAC_STATUS_TX_LPI.pg p) = true)
    (hnext : (s.macOf p).next ≠ none) (hstop : (s.macOf p).stopped = false) :
    let ready := (s.macOf p).readyAt.getD s.now
    let u := ((s.advanceTo (ready + us (s.get (F.MAC_STATUS_TW_TX.pg p)))).setF (F.MAC_STATUS_TX_LPI.pg p) 0).modMac p
      (fun m => { m with readyAt := none })
    exec (.lpiWakeEnd p) s = .next (if s.flag (F.MAC_STATUS_PAUSED.pg p) then u else u.startNext p) := by
  intro ready u
  have hpaused : u.flag (F.MAC_STATUS_PAUSED.pg p) = s.flag (F.MAC_STATUS_PAUSED.pg p) := by
    rw [State.flag, State.flag, modMac_touches.get_eq, get_setF_pg_ne _ _ _ (by decide), advanceTo_touches.get_eq]
  rw [exec_lpiWakeEnd, execLpiWakeEnd]
  unfold lpiWakeEnd
  dsimp only
  rw [if_neg (by simp [isPort, hp, hlpi, Option.isNone_iff_eq_none, hnext, hstop]), ← hpaused]

theorem eeeRole_iff {s : State} {p : Nat} (hp : p < 11) (h8 : p ≠ 8) (h9 : p ≠ 9) :
    s.eeeRole p = true ↔ p = 10 ∨ s.flag (F.MAC_CTL_ROLE.pg p) = true := by
  by_cases h10 : p = 10
  · simp [State.eeeRole, h10]
  · have : p < 8 := by omega
    simp [State.eeeRole, h10, this]

/-- The frame of LLDP that a port sends. -/
def State.lldpFrame (s : State) (p : Nat) : TxFrame :=
  { src := .lldp, cls := 2
    frame := { da := 0x0180C200000E, sa := s.portAddr p, vlan := none, doubleTag := false, etype := 0x88CC
               len := Config.encLen 2 p, red := none, raw := s.textOf 3 p
               body := .lldp (if s.eeeRole p then some (s.get (F.MAC_EEE_CFG_TW_RX_REQ.pg p)) else none) } }

theorem lldpTx_next (s : State) {p : Nat} (hp : p < 11) (h8 : p ≠ 8) (h9 : p ≠ 9) (hen : s.flag (F.MAC_CTL_EEE_EN.pg p) = true) :
    ∃ f : TxFrame, f.src = .lldp ∧ f.cls = 2 ∧ f.frame.da = 0x0180C200000E ∧ f.frame.raw = s.textOf 3 p ∧
      f.frame.body = .lldp (if p = 10 ∨ s.flag (F.MAC_CTL_ROLE.pg p) = true then some (s.get (F.MAC_EEE_CFG_TW_RX_REQ.pg p)) else none) ∧
      exec (.lldpTx p) s = .next ((s.modMac p (fun m => { m with lldpSent := m.lldpSent + 1 })).txPair p f) := by
  refine ⟨s.lldpFrame p, rfl, rfl, rfl, rfl, ?_, ?_⟩
  · rw [State.lldpFrame]
    simp only [eeeRole_iff hp h8 h9]
  · rw [exec_lldpTx, execLldpTx]
    unfold lldpTx
    rw [if_neg (by simp [isPort, hp, h8, h9, hen])]
    rfl

theorem hsrEntryExpiry_next (s : State) (p : Nat) {sa seq : Nat} {made : Time}
    (h : (s.pairOf p).fwd.find? (fun e => e.1 == sa && e.2.1 == seq) = some (sa, seq, made)) :
    ∃ t, exec (.hsrEntryExpiry p sa seq) s = .next t ∧ t.tbu.t48 = max s.tbu.t48 ((made + ms 400) * 2 ^ 32) ∧
      (∀ e, e ∈ (t.pairOf p).fwd ↔ e ∈ (s.pairOf p).fwd ∧ ¬(e.1 = sa ∧ e.2.1 = seq)) ∧ t.regs = s.regs ∧ t.mem = s.mem := by
  have heq : hsrEntryExpiry p sa seq s = (s.advanceTo (made + ms 400)).modPair p
      (fun x => { x with fwd := x.fwd.filter (fun e => !(e.1 == sa && e.2.1 == seq)) }) := by
    unfold hsrEntryExpiry
    dsimp only
    rw [h]
  refine ⟨_, congrArg Host.Outcome.next heq, rfl, fun e => ?_, rfl, rfl⟩
  rw [pairOf_modPair_same]
  show e ∈ List.filter _ (s.pairOf p).fwd ↔ _
  rw [List.mem_filter, Bool.not_eq_true', Bool.and_eq_false_iff, beq_eq_false_iff_ne, beq_eq_false_iff_ne, not_and_or]

/-- The supervision frame of a pair of ports. -/
def State.supervisionFrame (s : State) (k : Nat) : TxFrame :=
  { src := .supervision, cls := 2
    frame := { da := 0x01154E000100, sa := s.portAddr (2 * k), vlan := (s.pairOf k).tag, doubleTag := false, etype := 0x88FB
               len := Config.encLen 1 k, red := none, body := .supervision, raw := [] } }

theorem supervisionFrame_advanceTo (s : State) (t : Time) (k : Nat) : (s.advanceTo t).supervisionFrame k = s.supervisionFrame k := rfl

theorem supervisionTx_next (s : State) {p : Nat} (hp : p < 4) (hred : s.redun (2 * p) ≠ 0)
    (hen : s.portEn (2 * p) = true ∨ s.portEn (2 * p + 1) = true) :
    let u := match (s.pairOf p).supAt with | some t => s.advanceTo (t + ms 2000) | none => s
    ∃ f : TxFrame, f.src = .supervision ∧ f.cls = 2 ∧ f.frame.da = 0x01154E000100 ∧ f.frame.sa = s.portAddr (2 * p) ∧
      f.frame.vlan = (s.pairOf p).tag ∧
      exec (.supervisionTx p) s = .next ((u.modPair p (fun x => { x with supAt := some u.now })).txPair (2 * p) f) := by
  intro u
  have hu : u.supervisionFrame p = s.supervisionFrame p := by
    unfold u
    split
    · exact supervisionFrame_advanceTo _ _ _
    · rfl
  refine ⟨s.supervisionFrame p, rfl, rfl, rfl, rfl, rfl, ?_⟩
  rw [← hu, exec_supervisionTx, execSupervisionTx]
  unfold supervisionTx
  dsimp only
  rw [if_neg (by rcases hen with h | h <;> simp [hp, hred, h])]
  rfl

/-- Settles O27: links by their locks and the Weevil's hold, the timers of a port at their moments. -/
theorem linksAndPortTimersActAtTheirMoments : Obligations.LinksAndPortTimersActAtTheirMoments :=
  ⟨fun s p hp => ⟨fun speed full h10 => ⟨linkUp_held_next s hp h10 speed full, linkUp_not_held_next s hp h10 speed full⟩,
    fun held speed full h10 => ⟨linkUp_m0_matching_next s h10 held, linkUp_m0_other_next s h10 held⟩, linkDown_next s hp, fun till h => weevilLinkDownEnd_next s p h⟩,
    fun s p => ⟨fun _ h => pauseEnd_next s p h, fun _ h hwd hu => pauseWd_next s p h hwd hu, pauseIgnoreEnd_next s p, pauseRepeat_next s p,
      lpiEntry_next s, lpiWakeEnd_next s, lldpTx_next s, fun _ _ _ h => hsrEntryExpiry_next s p h, supervisionTx_next s⟩⟩

end Sys2Proof.Machine
end

section
/-! O28: frames on the line. -/
namespace Sys2Proof.Machine

-- one proof after the other: started together they wait on each other's results, each in a thread of its own
set_option Elab.async false

theorem macTxStart_free {s : State} {p : Nat} (hp : p < 11) (hen : s.portEn p = true) (hstop : (s.macOf p).stopped = false)
    (hcur : (s.macOf p).cur = none)
    (hfree : s.link p = false ∨ s.flag (F.MAC_STATUS_PAUSED.pg p) = false ∧ s.flag (F.MAC_STATUS_TX_LPI.pg p) = false) :
    macTxStart p s = s.startNext p := by
  have hwaits : (s.link p && (s.flag (F.MAC_STATUS_PAUSED.pg p) || s.flag (F.MAC_STATUS_TX_LPI.pg p))) = false := by
    rcases hfree with h | ⟨hpaused, hlpi⟩
    · simp [h]
    · simp [hpaused, hlpi]
  unfold macTxStart
  dsimp only
  rw [hwaits, if_neg (by simp [isPort, hp, hen, hstop, hcur])]

/-- The next frame of a port out of its queue. -/
def State.unqueued (s : State) (p : Nat) (f : TxFrame) : State := s.modMac p (fun m => m.without f)

/-- The time at which the next frame of a port starts. -/
def State.startStamp (s : State) (p : Nat) (f : TxFrame) : Time := ((s.unqueued p f).txStamp p ((s.unqueued p f).freeVal 8)).1

/-- The next frame of a port on the line. -/
def State.onLine (s : State) (p : Nat) (f : TxFrame) : State :=
  (s.unqueued p f).drawn.modMac p (fun m => { m with cur := some (f.resident (s.startStamp p f)), curAt := s.now, curTs := s.startStamp p f })

section Next

variable {s : State} {p : Nat} {f : TxFrame} (hnext : (s.macOf p).next = some f)
include hnext

theorem startNext_eq : s.startNext p = if !s.link p then ((s.unqueued p f).macBump p 22).txFail f 5
    else match f.src with
      | .ptp kind seq => (s.onLine p f).ptpStarted p kind seq (s.startStamp p f)
      | _ => s.onLine p f := by
  unfold State.startNext
  rw [hnext]
  rfl

theorem startNext_no_link (hl : s.link p = false) : s.startNext p = ((s.unqueued p f).macBump p 22).txFail f 5 := by
  rw [startNext_eq hnext, hl]
  rfl

theorem startNext_plain (hl : s.link p = true) (hsrc : ∀ k n, f.src ≠ .ptp k n) : s.startNext p = s.onLine p f := by
  rw [startNext_eq hnext, hl]
  refine (if_neg (by decide)).trans ?_
  split
  next k n h => exact absurd h (hsrc k n)
  next => rfl

theorem startNext_ptp (hl : s.link p = true) {k n : Nat} (hsrc : f.src = .ptp k n) :
    s.startNext p = (s.onLine p f).ptpStarted p k n (s.startStamp p f) := by
  rw [startNext_eq hnext, hl, hsrc]
  rfl

end Next

theorem macTxEnd_next (s : State) (p : Nat) {f : TxFrame} (hcur : (s.macOf p).cur = some f) :
    let u := (s.advanceTo ((s.macOf p).curAt + s.bitTime p ((max 64 f.frame.len + 8) * 8)))
    let v := u.modMac p (fun m => { m with cur := none, sent := some f, idleAt := u.now })
    let e := ((if f.badFcs then v.macBump p 21 else (v.macBump p 19).bumpBy (macCnt p 20) (max 64 f.frame.len)).txCopyEnd f 0
      (Time.gt64 (s.macOf p).curTs)).pauseRise p
    exec (.macTxEnd p) s = .next (if f.wvlDown = 0 then e else e.forceDown p (f.wvlDown - 1)) := by
  intro u v e
  rw [exec_macTxEnd, execMacTxEnd]
  unfold macTxEnd
  dsimp only
  rw [hcur]

theorem weevilDelayEnd_tx (s : State) (p : Nat) {at_ : Time} {f : TxFrame} {rest : List (Time × TxFrame)}
    (h : (s.macOf p).txDelay = (at_, f) :: rest) :
    exec (.weevilDelayEnd p true) s = .next (((s.advanceTo at_).modMac p (fun m => { m with txDelay := rest })).toClass p f) := by
  rw [exec_weevilDelayEnd, execWeevilDelayEnd]
  unfold weevilDelayEnd
  dsimp only
  rw [if_pos rfl, h]

theorem weevilDelayEnd_rx (s : State) (p : Nat) {h : RxHeld} {rest : List RxHeld} (hrx : (s.macOf p).rxDelay = h :: rest) :
    exec (.weevilDelayEnd p false) s = .next (((s.advanceTo h.ts).modMac p (fun m => { m with rxDelay := rest })).passOn h) := by
  rw [exec_weevilDelayEnd, execWeevilDelayEnd]
  unfold weevilDelayEnd
  dsimp only
  rw [if_neg Bool.false_ne_true, hrx]

theorem weevilDuplicateCopy_next (s : State) (p : Nat) {h : RxHeld} {rest : List RxHeld} (hrx : (s.macOf p).rxDup = h :: rest) :
    exec (.weevilDuplicateCopy p) s = .next (((s.advanceTo h.ts).modMac p (fun m => { m with rxDup := rest })).passOn h) := by
  rw [exec_weevilDuplicateCopy, execWeevilDuplicateCopy]
  unfold weevilDuplicateCopy
  rw [hrx]

/-- Settles O28: the next frame by the state of the line, the frame on it at its end, and what the Weevil held back. -/
theorem framesStartAndEndOnTheLine : Obligations.FramesStartAndEndOnTheLine := by
  intro s p
  refine ⟨fun hp hen hstop hcur hfree f hnext => ⟨fun hl => ?_, fun hl hsrc => ?_, fun hl k n hsrc => ?_⟩, fun f hcur => macTxEnd_next s p hcur,
    fun _ _ _ h => weevilDelayEnd_tx s p h, fun _ _ h => weevilDelayEnd_rx s p h, fun _ _ h => weevilDuplicateCopy_next s p h⟩
  · exact congrArg Host.Outcome.next ((macTxStart_free hp hen hstop hcur hfree).trans (startNext_no_link hnext hl))
  · exact congrArg Host.Outcome.next ((macTxStart_free hp hen hstop hcur hfree).trans (startNext_plain hnext hl hsrc))
  · exact congrArg Host.Outcome.next ((macTxStart_free hp hen hstop hcur hfree).trans (startNext_ptp hnext hl hsrc))

end Sys2Proof.Machine
end

section
/-! O29: tag results, duplicate entries and the states of a context. -/
namespace Sys2Proof.Machine

-- one proof after the other: started together they wait on each other's results, each in a thread of its own
set_option Elab.async false

/-! ### Tag results -/

/-- A frame no longer waits for its tag. -/
def State.tagTaken (s : State) (w : TagWait) : State := { s with ing := { s.ing with tags := s.ing.tags.filter (fun t => t.fid != w.fid) } }

section Result

variable {s : State} {c : Nat} {w : TagWait} (hw : s.ing.tags.find? (fun t => t.ctx == c) = some w)
include hw

theorem tagResult_other_context (pass : Bool) (hgen : (s.ctx c).gen ≠ w.gen) :
    tagResult c pass s =
      ((if w.written = false then (s.tagTaken w).iclBump 12 else if pass then (s.tagTaken w).tagFollows w true
        else ((s.tagTaken w).tagFollows w false).iclBump 7).heldCopies w.ev pass).earlyWrite c := by
  have hg : (((s.tagTaken w).ctx c).gen != w.gen) = true := bne_iff_ne.mpr hgen
  unfold tagResult
  rw [hw]
  refine (if_pos hg).trans ?_
  cases w.written <;> rfl

variable (hgen : (s.ctx c).gen = w.gen)
include hgen

theorem tagTaken_same_gen : ¬ (((s.tagTaken w).ctx c).gen != w.gen) = true := fun h => bne_iff_ne.mp h hgen

theorem tagResult_fails :
    tagResult c false s = ((((s.tagTaken w).untrack w).ctxDiscard c 7).heldCopies w.ev false).earlyWrite c := by
  unfold tagResult
  rw [hw]
  exact (if_neg (tagTaken_same_gen hw hgen)).trans (if_neg Bool.false_ne_true)

theorem tagResult_goose {p : GoosePdu} (hb : w.ev.frame.body = .goose p) :
    tagResult c true s = (((s.tagTaken w).heldCopies w.ev true).gooseAccept c w.ev p w.ts w.coarse).earlyWrite c := by
  unfold tagResult
  rw [hw]
  refine (if_neg (tagTaken_same_gen hw hgen)).trans ((if_pos rfl).trans ?_)
  dsimp only
  rw [hb]
  rfl

theorem tagResult_sv {p : SvPdu} (hb : w.ev.frame.body = .sv p) (hwr : w.written = false) :
    tagResult c true s = ((((s.tagTaken w).heldCopies w.ev true).svIndex c p w.ts w.coarse false w.fid).2.svAccept c w.ev p w.ts w.coarse
      (((s.tagTaken w).heldCopies w.ev true).svIndex c p w.ts w.coarse false w.fid).1).earlyWrite c := by
  unfold tagResult
  rw [hw]
  refine (if_neg (tagTaken_same_gen hw hgen)).trans ((if_pos rfl).trans ?_)
  dsimp only
  rw [hb]
  dsimp only
  rw [hwr, if_neg Bool.false_ne_true]
  rfl

theorem tagResult_sv_written {p : SvPdu} (hb : w.ev.frame.body = .sv p) (hwr : w.written = true) :
    tagResult c true s =
      ((((s.tagTaken w).heldCopies w.ev true).svAccept c w.ev p w.ts w.coarse w.smps).tagFollows w true).earlyWrite c := by
  unfold tagResult
  rw [hw]
  refine (if_neg (tagTaken_same_gen hw hgen)).trans ((if_pos rfl).trans ?_)
  dsimp only
  rw [hb]
  dsimp only
  rw [hwr, if_pos rfl]
  rfl

end Result

/-! ### Expiries -/

theorem dupEntryExpiry_next (s : State) {c sa seq : Nat} {d : DupEntry}
    (h : (s.pairOf c).dup.find? (fun x => x.sa == sa && x.seq == seq) = some d) :
    ∃ t, exec (.dupEntryExpiry c sa seq) s = .next t ∧ t.tbu.t48 = max s.tbu.t48 ((d.at_ + ms 400) * 2 ^ 32) ∧
      (∀ e, e ∈ (t.pairOf c).dup ↔ e ∈ (s.pairOf c).dup ∧ ¬(e.sa = sa ∧ e.seq = seq)) ∧ t.regs = s.regs ∧ t.mem = s.mem := by
  have heq : dupEntryExpiry c sa seq s = (s.advanceTo (d.at_ + ms 400)).modPair c
      (fun p => { p with dup := p.dup.filter (fun x => !(x.sa == sa && x.seq == seq)) }) := by
    unfold dupEntryExpiry
    dsimp only
    rw [h]
  refine ⟨_, congrArg Host.Outcome.next heq, rfl, fun e => ?_, rfl, rfl⟩
  rw [pairOf_modPair_same]
  show e ∈ List.filter _ (s.pairOf c).dup ↔ _
  rw [List.mem_filter, Bool.not_eq_true', Bool.and_eq_false_iff, beq_eq_false_iff_ne, beq_eq_false_iff_ne, not_and_or]

theorem gooseTalExpiry_next (s : State) {c : Nat} (hg : cxGoose (s.ctx c).words = true) (hl : (s.ctx c).health = hLive) :
    exec (.gooseTalExpiry c) s = .next
      ((((s.advanceTo ((s.ctx c).heardAt + ms ((s.ctx c).tal + cxTalMargin (s.ctx c).words))).gooseFallback (s.ctx c).words).modCtx c
        (fun y => { y with health := hLost })).ctxBits c) := by
  rw [exec_gooseTalExpiry, execGooseTalExpiry]
  unfold gooseTalExpiry
  dsimp only
  rw [if_neg (by simp [hg, hl])]

theorem ctx_modCtx_same (s : State) (c : Nat) (f : Ctx → Ctx) : (s.modCtx c f).ctx c = f (s.ctx c) := by
  show Tbl.get {} c (Tbl.mod {} c f s.ing.ctx) = f (Tbl.get {} c s.ing.ctx)
  rw [Tbl.get_mod, if_pos rfl]

theorem ctx_modCtx_ne (s : State) {c d : Nat} (h : d ≠ c) (f : Ctx → Ctx) : (s.modCtx c f).ctx d = s.ctx d := by
  show Tbl.get {} d (Tbl.mod {} c f s.ing.ctx) = Tbl.get {} d s.ing.ctx
  rw [Tbl.get_mod, if_neg h]

/-- A context that lost its stream. -/
def Ctx.lost (x : Ctx) : Ctx :=
  { x with
    health := hLost, reason := if x.lastConf then 6 else 7, liveSince := none, cleanFrom := none
    track := { x.track with kPrev := none, running := false } }

theorem svLoss_next (s : State) {c : Nat} (hg : cxGoose (s.ctx c).words = false)
    (hh : (s.ctx c).health = hWait ∧ s.flag F.ICL_CTL_EN = true ∨ (s.ctx c).health = hLive ∨ (s.ctx c).health = hDegr) :
    ∃ u : State, exec (.svLoss c) s = .next (u.healthChanged c) ∧
      u.tbu.t48 = max s.tbu.t48 (((s.ctx c).heardAt + us (100 * cxLossTime (s.ctx c).words)) * 2 ^ 32) ∧
      (u.ctx c).health = hLost ∧ (u.ctx c).reason = (if (s.ctx c).lastConf then 6 else 7) ∧ (u.ctx c).words = (s.ctx c).words ∧
      (∀ d, d ≠ c → u.ctx d = s.ctx d) ∧ u.regs = s.regs ∧ u.mem = s.mem := by
  let u := (s.advanceTo ((s.ctx c).heardAt + us (100 * cxLossTime (s.ctx c).words))).modCtx c Ctx.lost
  have heq : svLoss c s = u.healthChanged c := by
    unfold svLoss
    dsimp only
    rw [if_neg]
    · rfl
    · rcases hh with ⟨h, hen⟩ | h | h
      · simp [hg, h, hen]
      · simp [hg, h]
      · simp [hg, h]
  have hctx : u.ctx c = (s.ctx c).lost := ctx_modCtx_same _ _ _
  refine ⟨u, congrArg Host.Outcome.next heq, rfl, ?_, ?_, ?_, fun d hd => ctx_modCtx_ne _ hd _, rfl, rfl⟩ <;> rw [hctx] <;> rfl

theorem svHealthRestore_next (s : State) {c : Nat} {from_ : Time} (hh : (s.ctx c).health = hDegr) (hf : (s.ctx c).cleanFrom = some from_) :
    let u := s.advanceTo (max from_ (s.ctx c).tagUntil + ms 100)
    exec (.svHealthRestore c) s = .next ((u.modCtx c (fun y => { y with health := hLive, liveSince := some u.now })).healthChanged c) := by
  rw [exec_svHealthRestore, execSvHealthRestore]
  unfold svHealthRestore
  dsimp only
  rw [hf, beq_iff_eq.mpr hh]

theorem altRestore_next (s : State) {c : Nat} {from_ : Time} (ha : (s.ctx c).altFeeds = true) (hh : (s.ctx c).health = hLive)
    (hr : cxRestore (s.ctx c).words ≠ 0) (hf : (s.ctx c).liveSince = some from_) :
    exec (.altRestore c) s = .next ((s.advanceTo (from_ + secs (cxRestore (s.ctx c).words))).feederTo c false) := by
  rw [exec_altRestore, execAltRestore]
  unfold altRestore
  dsimp only
  rw [hf, ha, beq_iff_eq.mpr hh, bne_iff_ne.mpr hr]
  rfl

/-- Settles O29: a tag result by the context's generation and the frame's kind, an expiry by the state it ends. -/
theorem tagResultsAndContextsFollowTheirRules : Obligations.TagResultsAndContextsFollowTheirRules :=
  ⟨fun _ _ _ hw =>
    ⟨fun pass hgen => congrArg Host.Outcome.next (tagResult_other_context hw pass hgen),
     fun hgen => ⟨congrArg Host.Outcome.next (tagResult_fails hw hgen),
       fun _ hb => congrArg Host.Outcome.next (tagResult_goose hw hgen hb),
       fun _ hb hwr => congrArg Host.Outcome.next (tagResult_sv hw hgen hb hwr),
       fun _ hb hwr => congrArg Host.Outcome.next (tagResult_sv_written hw hgen hb hwr)⟩⟩,
   fun s _ => ⟨fun _ _ _ h => dupEntryExpiry_next s h, gooseTalExpiry_next s, svLoss_next s, fun _ => svHealthRestore_next s,
     fun _ => altRestore_next s⟩⟩

end Sys2Proof.Machine
end

section
/-! O30: the Lattice's times, and the engines behind it. -/
namespace Sys2Proof.Machine

-- one proof after the other: started together they wait on each other's results, each in a thread of its own
set_option Elab.async false

/-! ### The Lattice -/

/-- The oldest write no longer on its way. -/
def State.writeTaken (s : State) (rest : List LWrite) : State := { s with ing := { s.ing with writes := rest } }

theorem latticeWrite_stale {s : State} {w : LWrite} {rest : List LWrite} (hw : s.ing.writes = w :: rest)
    (hgen : (s.ctx w.ctx).gen ≠ w.gen) : latticeWrite s = (s.writeTaken rest).bump (F.ICL_CNT_COUNT.nth 12) := by
  have hg : (((s.writeTaken rest).ctx w.ctx).gen != w.gen) = true := bne_iff_ne.mpr hgen
  unfold latticeWrite
  rw [hw]
  exact if_pos hg

theorem latticeWrite_enters {s : State} {w : LWrite} {rest : List LWrite} (hw : s.ing.writes = w :: rest)
    (hgen : (s.ctx w.ctx).gen = w.gen) : latticeWrite s =
      (List.range 4).foldl (fun (s : State) l => if (s.lattice l).running then (s.arrive l w.ctx).settle l else s)
        ((s.writeTaken rest).modCtx w.ctx (fun x => x.addSamples w.smps)) := by
  have hg : ¬ (((s.writeTaken rest).ctx w.ctx).gen != w.gen) = true := fun h => bne_iff_ne.mp h hgen
  unfold latticeWrite
  rw [hw]
  exact if_neg hg

theorem lattice_modLat_same (s : State) (l : Nat) (f : Lattice → Lattice) : (s.modLat l f).lattice l = f (s.lattice l) := by
  show Tbl.get {} l (Tbl.mod {} l f s.lat) = f (Tbl.get {} l s.lat)
  rw [Tbl.get_mod, if_pos rfl]

theorem lattice_modLat_ne (s : State) {k l : Nat} (h : k ≠ l) (f : Lattice → Lattice) : (s.modLat l f).lattice k = s.lattice k := by
  show Tbl.get {} k (Tbl.mod {} l f s.lat) = Tbl.get {} k s.lat
  rw [Tbl.get_mod, if_neg h]

/-- A lattice with one provisional close more. -/
def Lattice.closed (spec : Bool) (x : Lattice) : Lattice :=
  { x with pc := x.pc + 1, specAt := if x.next ≤ x.pc then x.specAt ++ [(x.pc, spec)] else x.specAt }

theorem provisionalClose_next (s : State) {l : Nat} (hr : (s.lattice l).running = true) :
    ∃ u : State, exec (.provisionalClose l) s = .next (u.settle l) ∧
      u.tbu.t48 = max s.tbu.t48 (s.tPclose l (s.lattice l).pc * 2 ^ 32) ∧ (u.lattice l).pc = (s.lattice l).pc + 1 ∧
      (u.lattice l).insts = (s.lattice l).insts ∧ (u.lattice l).next = (s.lattice l).next ∧
      (∀ k, k ≠ l → u.lattice k = s.lattice k) ∧ u.regs = s.regs ∧ u.mem = s.mem := by
  let u := (s.advanceTo (s.tPclose l (s.lattice l).pc)).modLat l (Lattice.closed (s.flag (F.SLE_LAT_CFG_SPEC_EN.nth l)))
  have heq : provisionalClose l s = u.settle l := by
    unfold provisionalClose
    exact if_neg (by rw [hr]; decide)
  have hlat : u.lattice l = (s.lattice l).closed (s.flag (F.SLE_LAT_CFG_SPEC_EN.nth l)) := lattice_modLat_same _ _ _
  refine ⟨u, congrArg Host.Outcome.next heq, rfl, ?_, ?_, ?_, fun k hk => lattice_modLat_ne _ hk _, rfl, rfl⟩ <;> rw [hlat] <;> rfl

theorem instantDeadline_eq {s : State} {l : Nat} (hr : (s.lattice l).running = true) :
    let v := if (s.lattice l).pc ≤ (s.lattice l).dl then provisionalClose l s else s
    instantDeadline l s = ((v.advanceTo (v.tDeadline l (v.lattice l).dl)).modLat l (fun x => { x with dl := x.dl + 1 })).settle l := by
  unfold instantDeadline
  exact if_neg (by rw [hr]; decide)

theorem instantDeadline_next (s : State) {l : Nat} (hr : (s.lattice l).running = true) (hlt : (s.lattice l).dl < (s.lattice l).pc) :
    ∃ u : State, exec (.instantDeadline l) s = .next (u.settle l) ∧
      u.tbu.t48 = max s.tbu.t48 (s.tDeadline l (s.lattice l).dl * 2 ^ 32) ∧ (u.lattice l).dl = (s.lattice l).dl + 1 ∧
      (u.lattice l).insts = (s.lattice l).insts ∧ (∀ k, k ≠ l → u.lattice k = s.lattice k) ∧ u.regs = s.regs ∧ u.mem = s.mem := by
  have heq := instantDeadline_eq hr
  rw [if_neg (Nat.not_le.mpr hlt)] at heq
  have hlat := lattice_modLat_same (s.advanceTo (s.tDeadline l (s.lattice l).dl)) l (fun x => { x with dl := x.dl + 1 })
  refine ⟨_, congrArg Host.Outcome.next heq, rfl, ?_, ?_, fun k hk => lattice_modLat_ne _ hk _, rfl, rfl⟩ <;> rw [hlat] <;> rfl

/-! ### The engines behind it -/

theorem pheFold_next (s : State) {l : Nat} {f : Fold} (hf : s.phe.folds.find? (fun f => f.lat == l && decide (f.n ≤ Tbl.get 0 l s.phe.done)) = some f) :
    exec (.pheFold l) s = .next ({ s with phe := { s.phe with folds := s.phe.folds.erase f } }.applyFold f) := by
  rw [exec_pheFold, execPheFold]
  unfold pheFold
  rw [hf]

theorem phasorsReady_next (s : State) {l n : Nat} {r : State × PheOut} (hr : s.pheRun l n = some r) :
    let u := (r.1.gcmRun l n r.2).dreLevels l n r.2
    exec (.phasorsReady l n) s = .next (if u.flag F.GCM_CTL_EN then u else u.dreClosed l n) := by
  rw [exec_phasorsReady, execPhasorsReady]
  unfold phasorsReady
  rw [hr]

theorem guardResultsReady_next (s : State) {l n : Nat} {u : GUpdate} (hu : s.gcm.ready.find? (fun y => y.lat == l && y.n == n) = some u) :
    ∃ v : State, exec (.guardResultsReady l n) s = .next (v.dreClosed l n) ∧ u ∈ v.slp.gUpd ∧
      (∀ y ∈ v.gcm.ready, ¬(y.lat = l ∧ y.n = n)) ∧ (∀ y ∈ s.gcm.ready, ¬(y.lat = l ∧ y.n = n) → y ∈ v.gcm.ready) ∧
      v.slp.q = s.slp.q ∧ v.slp.cls = s.slp.cls ∧ v.regs = s.regs ∧ v.mem = s.mem := by
  have hfind : guardResultsReady l n s = { s with
      gcm := { s.gcm with ready := s.gcm.ready.filter (fun y => !(y.lat == l && y.n == n)) }
      slp := { s.slp with gUpd := s.slp.gUpd.filter (fun y => y.lat != l || decide (s.confN l < y.n + 64)) ++ [u] } } := by
    unfold guardResultsReady
    rw [hu]
  have heq : guardsVisible l n s = (guardResultsReady l n s).dreClosed l n := by
    have hmem := List.mem_of_find?_eq_some hu
    have hp : (u.lat == l && u.n == n) = true := List.find?_some (p := fun y : GUpdate => y.lat == l && y.n == n) hu
    unfold guardsVisible
    exact if_pos (List.any_eq_true.mpr ⟨u, hmem, hp⟩)
  refine ⟨_, congrArg Host.Outcome.next heq, ?_⟩
  rw [hfind]
  refine ⟨List.mem_append_right _ (List.mem_singleton_self u), fun y hy => ?_, fun y hy hne => ?_, rfl, rfl, rfl, rfl⟩
  · have h := (List.mem_filter.mp hy).2
    rw [Bool.not_eq_true', ← Bool.not_eq_true, Bool.and_eq_true, beq_iff_eq, beq_iff_eq] at h
    exact h
  · exact List.mem_filter.mpr ⟨hy, by rw [Bool.not_eq_true', ← Bool.not_eq_true, Bool.and_eq_true, beq_iff_eq, beq_iff_eq]; exact hne⟩

/-- Settles O30: each time of the Lattice once and in order, and each engine on what the one before it completed. -/
theorem latticesFeedPhasorsAndGuards : Obligations.LatticesFeedPhasorsAndGuards :=
  ⟨fun s => ⟨fun _ _ hw => ⟨fun hgen => congrArg Host.Outcome.next (latticeWrite_stale hw hgen),
      fun hgen => congrArg Host.Outcome.next (latticeWrite_enters hw hgen)⟩,
    fun _ hr => provisionalClose_next s hr, fun _ hr => congrArg Host.Outcome.next (instantDeadline_eq hr),
    fun _ hr hlt => instantDeadline_next s hr hlt⟩,
   fun s _ _ => ⟨fun _ hf => pheFold_next s hf, fun _ hr => phasorsReady_next s hr, fun _ hu => guardResultsReady_next s hu⟩⟩

end Sys2Proof.Machine
end

section
/-! O31: retransmissions, and the turns of PUB and TX rings. -/
namespace Sys2Proof.Machine

-- one proof after the other: started together they wait on each other's results, each in a thread of its own
set_option Elab.async false

section Retransmission

variable {s : State} {p : Nat} {w : List Nat} (hon : s.pubIfOn p = some w) (hsv : pbSv w = false)
  (hsch : (s.pubOf p).scheduled = true) (hsends : s.sends = true)
include hon hsv hsch hsends

theorem gooseRetransmit_eq : gooseRetransmit p s =
    if !s.pubKeyed w then s.modPub p (fun y => { y with noKey := true, scheduled := false })
    else (((s.advanceTo (s.pubOf p).due).modPub p (fun y => { y with
      sqNum := numInc y.sqNum, j := y.j + 1, due := y.due + pbInterval w (y.j + 1) })).gooseSend p w).pubFlush := by
  unfold gooseRetransmit
  rw [hon]
  exact if_neg (by simp [hsv, hsch, hsends])

theorem gooseRetransmit_keyed (hk : s.pubKeyed w = true) : gooseRetransmit p s =
    (((s.advanceTo (s.pubOf p).due).modPub p (fun y => { y with
      sqNum := numInc y.sqNum, j := y.j + 1, due := y.due + pbInterval w (y.j + 1) })).gooseSend p w).pubFlush := by
  rw [gooseRetransmit_eq hon hsv hsch hsends, if_neg (by rw [hk]; decide)]

theorem gooseRetransmit_no_key (hk : s.pubKeyed w = false) :
    gooseRetransmit p s = s.modPub p (fun y => { y with noKey := true, scheduled := false }) := by
  rw [gooseRetransmit_eq hon hsv hsch hsends, if_pos (by rw [hk]; decide)]

end Retransmission

theorem pubDescriptorFetch_next (s : State) {r : Nat} {pw : Nat × List Nat} (hpub : s.ringPub r = some pw)
    (hvalid : seValid (s.sltEnt 2 r) = true) (hkind : rgKind (s.sltEnt 2 r) = 2) (hring : s.ringState r = 1)
    (hposted : (s.ring r).posted ≠ 0) (hheld : (s.ring r).held = false) :
    let n := rgSlice (s.sltEnt 2 r)
    s.sliceState n = 2 → (s.slice n).inflightNow < slInflight (s.sltEnt 0 n) →
    let i := (s.ring r).head
    let a := s.descAddr r i
    let va := s.rd64 a
    let vb := s.rd64 (a + 8) % 65536
    let need := (sumN ((s.pubMembs pw.2).map mbWidth) + 7) / 8
    let u := s.modSlice n (fun x => { x with inflightNow := x.inflightNow + 1 })
    let g := (u.slice n).gen
    let h : PubHeld := ⟨r, n, g, i, pw.1, (s.ring r).depOf i,
      (octetBits (memTake u.mem vb va)).take (sumN ((u.pubMembs pw.2).map mbWidth))⟩
    exec (.pubDescriptorFetch r) s = .next
      (if (s.ring r).goneAt i then ((u.pubBump 7).frameWithdrawn n r i).txComplete n r g i 1 4 0 (some 0)
       else if u.dramOwned n a 32 = false then u.txComplete n r g i 1 1 0 (some 0)
       else if vb ≠ need then u.txComplete n r g i 1 2 0 (some 0)
       else if u.dramOwned n va vb = false then u.txComplete n r g i 1 1 0 (some 0)
       else if u.dramBad va vb = true then u.txComplete n r g i 1 7 0 (some 0)
       else if u.depFree h.dep = true then (u.ringRelease h).pubFlush
       else { u with pub := { u.pub with held := u.pub.held ++ [h] } }.modRing r (fun y => { y with held := true })) := by
  intro n hstate hcredit i a va vb need u g h
  rw [exec_pubDescriptorFetch, execPubDescriptorFetch]
  unfold pubDescriptorFetch
  dsimp only
  rw [hpub]
  dsimp only
  rw [if_neg (by simp [hvalid, hkind, hring, hposted, hheld, hstate, n, Nat.not_le.mpr hcredit])]
  simp only [Bool.not_eq_true', bne_iff_ne]
  rfl

section Fetch

variable {s : State} {r : Nat} {f : TxNext} (hf : s.txNext r = some f) (hw : s.txWaits r = true)
  (hcredit : s.hasCredit (rgSlice (s.sltEnt 2 r)) = true)
  (hturn : s.txTurn (rgPort (s.sltEnt 2 r)) (rgSlice (s.sltEnt 2 r)) (s.txRings (rgPort (s.sltEnt 2 r))) = some r)

/-- The slices whose rings wait for a port. -/
def State.txSlices (s : State) (p : Nat) : List Nat := ((s.txRings p).map (fun r => rgSlice (s.sltEnt 2 r))).eraseDups

/-- The deficits as the round leaves them that lets a frame go. -/
def State.roundsDone (s : State) (p : Nat) : State := (s.dropDeficits p).txRounds p (s.txRings p) (s.txSlices p) 2049

include hf hw hcredit hturn

theorem txDescriptorFetch_eq : txDescriptorFetch r s =
    if (s.txSlices (rgPort (s.sltEnt 2 r))).length ≤ 1 then
      ((s.dropDeficits (rgPort (s.sltEnt 2 r))).txFetch r f).dropDeficits (rgPort (s.sltEnt 2 r))
    else if (s.roundsDone (rgPort (s.sltEnt 2 r))).txDeficit (rgPort (s.sltEnt 2 r)) (rgSlice (s.sltEnt 2 r)) < f.len then s
    else (((s.roundsDone (rgPort (s.sltEnt 2 r))).modSlice (rgSlice (s.sltEnt 2 r)) (fun x => { x with
      deficit := Tbl.set 0 (rgPort (s.sltEnt 2 r)) (Tbl.get 0 (rgPort (s.sltEnt 2 r)) x.deficit - f.len) x.deficit })).txFetch r
        f).dropDeficits (rgPort (s.sltEnt 2 r)) := by
  unfold txDescriptorFetch
  dsimp only
  rw [hf]
  exact if_neg (by simp [hw, hcredit, hturn])

theorem txDescriptorFetch_alone (h : (s.txSlices (rgPort (s.sltEnt 2 r))).length ≤ 1) : txDescriptorFetch r s =
    ((s.dropDeficits (rgPort (s.sltEnt 2 r))).txFetch r f).dropDeficits (rgPort (s.sltEnt 2 r)) := by
  rw [txDescriptorFetch_eq hf hw hcredit hturn, if_pos h]

theorem txDescriptorFetch_within (h : 1 < (s.txSlices (rgPort (s.sltEnt 2 r))).length)
    (hlen : f.len ≤ (s.roundsDone (rgPort (s.sltEnt 2 r))).txDeficit (rgPort (s.sltEnt 2 r)) (rgSlice (s.sltEnt 2 r))) :
    txDescriptorFetch r s = (((s.roundsDone (rgPort (s.sltEnt 2 r))).modSlice (rgSlice (s.sltEnt 2 r)) (fun x => { x with
      deficit := Tbl.set 0 (rgPort (s.sltEnt 2 r)) (Tbl.get 0 (rgPort (s.sltEnt 2 r)) x.deficit - f.len) x.deficit })).txFetch r
        f).dropDeficits (rgPort (s.sltEnt 2 r)) := by
  rw [txDescriptorFetch_eq hf hw hcredit hturn, if_neg (Nat.not_le.mpr h), if_neg (Nat.not_lt.mpr hlen)]

theorem txDescriptorFetch_beyond (h : 1 < (s.txSlices (rgPort (s.sltEnt 2 r))).length)
    (hlen : (s.roundsDone (rgPort (s.sltEnt 2 r))).txDeficit (rgPort (s.sltEnt 2 r)) (rgSlice (s.sltEnt 2 r)) < f.len) :
    txDescriptorFetch r s = s := by
  rw [txDescriptorFetch_eq hf hw hcredit hturn, if_neg (Nat.not_le.mpr h), if_pos hlen]

end Fetch

/-- Settles O31: a retransmission at its time, a PUB ring by what its descriptor names, a TX ring by its turn and its deficit. -/
theorem publicationsAndRingsSendInTurn : Obligations.PublicationsAndRingsSendInTurn :=
  ⟨fun s => ⟨fun _ _ hon hsv hsch hsends =>
      ⟨fun hk => congrArg Host.Outcome.next (gooseRetransmit_keyed hon hsv hsch hsends hk),
       fun hk => congrArg Host.Outcome.next (gooseRetransmit_no_key hon hsv hsch hsends hk)⟩,
     fun _ _ hpub hvalid hkind hring hposted hheld => pubDescriptorFetch_next s hpub hvalid hkind hring hposted hheld⟩,
   fun _ _ _ hf hw hcredit hturn =>
    ⟨fun h => congrArg Host.Outcome.next (txDescriptorFetch_alone hf hw hcredit hturn h),
     fun h hlen => congrArg Host.Outcome.next (txDescriptorFetch_within hf hw hcredit hturn h hlen),
     fun h hlen => congrArg Host.Outcome.next (txDescriptorFetch_beyond hf hw hcredit hturn h hlen)⟩⟩

end Sys2Proof.Machine
end

section
/-! O32, O33: writes of a slice's own page, FTAG, interrupt moderation and the end of a quiesce. -/
namespace Sys2Proof.Machine

-- one proof after the other: started together they wait on each other's results, each in a thread of its own
set_option Elab.async false

theorem ring_modRing_same (s : State) (r : Nat) (f : Ring → Ring) : (s.modRing r f).ring r = f (s.ring r) := by
  show Tbl.get {} r (Tbl.mod {} r f s.slt.rings) = f (Tbl.get {} r s.slt.rings)
  rw [Tbl.get_mod, if_pos rfl]

theorem ring_modRing_ne (s : State) {q r : Nat} (h : q ≠ r) (f : Ring → Ring) : (s.modRing r f).ring q = s.ring q := by
  show Tbl.get {} q (Tbl.mod {} r f s.slt.rings) = Tbl.get {} q s.slt.rings
  rw [Tbl.get_mod, if_neg h]

/-- A ring whose doorbell took an index. -/
def State.rung (s : State) (n r v : Nat) : State :=
  s.modRing r (fun g => { g with
    index := v
    deps := if (rgKind (s.sltEnt 2 r) = 1 ∨ rgKind (s.sltEnt 2 r) = 2) ∧ v ≠ (s.ring r).index then
        (s.ring r).deps.filter (fun d => (s.ring r).live d.1) ++ [(v, s.viewDep n)]
      else (s.ring r).deps.filter (fun d => (s.ring r).live d.1)
    gone := g.gone.filter g.live })

theorem doorbell_eq {s : State} {n k r : Nat} (v : Nat) (hr : s.localRing n k = some r) :
    s.doorbell n k v = if doorbellOk (rgKind (s.sltEnt 2 r)) (rgSize (s.sltEnt 2 r)) (s.ring r) (v % 65536) then s.rung n r (v % 65536)
      else (((s.modSlice n (fun x => { x with dbErr := satInc 32 x.dbErr })).bump (F.SLT_SP_ERR_DB_ERR.pg n)).event n 0x0004 k
        (v % 65536) 0).sliceError n := by
  unfold State.doorbell
  rw [hr]
  rfl

section Page

variable {s : State} {m : Master} {page : Nat} (hpage : page < 128) (hup : s.masterUp m = true)
include hpage hup

theorem pageWrite_taken {off : Nat} {states : List Nat} (f : State → State) (hg : regGrant (s.actor m) (spAddr page off) true = true)
    (hst : s.sliceState page ∈ states) : s.pageWrite m page off states f = { f s with bus := .done } := by
  unfold State.pageWrite
  rw [if_neg (by rw [hup]; decide), if_neg (Nat.not_le.mpr hpage), if_neg (by rw [hg]; decide),
    if_pos (List.contains_iff_mem.mpr hst)]

theorem pageWrite_wrong_state {off : Nat} {states : List Nat} (f : State → State)
    (hg : regGrant (s.actor m) (spAddr page off) true = true) (hst : s.sliceState page ∉ states) :
    s.pageWrite m page off states f = (s.refuse page (spAddr page off)).busError := by
  unfold State.pageWrite
  rw [if_neg (by rw [hup]; decide), if_neg (Nat.not_le.mpr hpage), if_neg (by rw [hg]; decide),
    if_neg (fun h => hst (List.contains_iff_mem.mp h))]

theorem pageWrite_no_grant {off : Nat} (states : List Nat) (f : State → State)
    (hg : regGrant (s.actor m) (spAddr page off) true = false) :
    s.pageWrite m page off states f = (s.refused (s.actor m) (spAddr page off)).busError := by
  unfold State.pageWrite
  rw [if_neg (by rw [hup]; decide), if_neg (Nat.not_le.mpr hpage), if_pos (by rw [hg]; decide)]

variable {k : Nat} (v : Nat) (hk : k < 64)
include hk

omit hpage hup in
theorem doorbellWrite_eq : doorbellWrite m page k v s = s.pageWrite m page (0x400 + k * 16) [1, 2, 3, 4] (fun s => s.doorbell page k v) :=
  if_neg (Nat.not_le.mpr hk)

theorem doorbellWrite_taken (hg : regGrant (s.actor m) (spAddr page (0x400 + k * 16)) true = true)
    (hst : s.sliceState page ∈ [1, 2, 3, 4]) : doorbellWrite m page k v s = { s.doorbell page k v with bus := .done } := by
  rw [doorbellWrite_eq v hk, pageWrite_taken hpage hup _ hg hst]

theorem doorbellWrite_within (hg : regGrant (s.actor m) (spAddr page (0x400 + k * 16)) true = true)
    (hst : s.sliceState page ∈ [1, 2, 3, 4]) {r : Nat} (hr : s.localRing page k = some r)
    (hok : doorbellOk (rgKind (s.sltEnt 2 r)) (rgSize (s.sltEnt 2 r)) (s.ring r) (v % 65536) = true) :
    ∃ t, exec (.doorbellWrite m page k v) s = .next t ∧ t.bus = .done ∧ (t.ring r).index = v % 65536 ∧
      (t.ring r).head = (s.ring r).head ∧ (∀ q, q ≠ r → t.ring q = s.ring q) ∧ t.regs = s.regs ∧ t.mem = s.mem := by
  have heq : doorbellWrite m page k v s = { s.rung page r (v % 65536) with bus := .done } := by
    rw [doorbellWrite_taken hpage hup v hk hg hst, doorbell_eq v hr, if_pos hok]
  have hring (q : Nat) : ({ s.rung page r (v % 65536) with bus := .done } : State).ring q = (s.rung page r (v % 65536)).ring q := rfl
  refine ⟨_, congrArg Host.Outcome.next heq, rfl, ?_, ?_, fun q hq => ?_, rfl, rfl⟩
  · rw [hring, State.rung, ring_modRing_same]
  · rw [hring, State.rung, ring_modRing_same]
  · rw [hring, State.rung, ring_modRing_ne _ hq]

theorem doorbellWrite_beyond (hg : regGrant (s.actor m) (spAddr page (0x400 + k * 16)) true = true)
    (hst : s.sliceState page ∈ [1, 2, 3, 4]) {r : Nat} (hr : s.localRing page k = some r)
    (hok : doorbellOk (rgKind (s.sltEnt 2 r)) (rgSize (s.sltEnt 2 r)) (s.ring r) (v % 65536) = false) :
    doorbellWrite m page k v s = { ((((s.modSlice page (fun x => { x with dbErr := satInc 32 x.dbErr })).bump
      (F.SLT_SP_ERR_DB_ERR.pg page)).event page 0x0004 k (v % 65536) 0).sliceError page) with bus := .done } := by
  rw [doorbellWrite_taken hpage hup v hk hg hst, doorbell_eq v hr, if_neg (by rw [hok]; decide)]

theorem doorbellWrite_wrong_state (hg : regGrant (s.actor m) (spAddr page (0x400 + k * 16)) true = true)
    (hst : s.sliceState page ∉ [1, 2, 3, 4]) :
    doorbellWrite m page k v s = (s.refuse page (spAddr page (0x400 + k * 16))).busError := by
  rw [doorbellWrite_eq v hk, pageWrite_wrong_state hpage hup _ hg hst]

theorem doorbellWrite_no_grant (hg : regGrant (s.actor m) (spAddr page (0x400 + k * 16)) true = false) :
    doorbellWrite m page k v s = (s.refused (s.actor m) (spAddr page (0x400 + k * 16))).busError := by
  rw [doorbellWrite_eq v hk, pageWrite_no_grant hpage hup _ _ hg]

variable (hg : regGrant (s.actor m) (spAddr page (0x1000 + k * 8)) true = true)
include hg

theorem fWrite_within (hst : s.sliceState page = 2) (hw : k < slFWords (s.sltEnt 0 page)) :
    fWrite m page k v s = { s.fStore page (slFBase (s.sltEnt 0 page) + k) v (s.viewDep page) with bus := .done } := by
  unfold fWrite
  rw [if_neg (Nat.not_le.mpr hk), if_neg (fun h => absurd h.1 (Nat.not_le.mpr hw)),
    pageWrite_taken hpage hup _ hg (by rw [hst]; exact List.mem_singleton_self 2)]

omit hpage in
theorem fWrite_beyond (hst : s.sliceState page = 2) (hw : slFWords (s.sltEnt 0 page) ≤ k) : fWrite m page k v s = s.busError := by
  unfold fWrite
  rw [if_neg (Nat.not_le.mpr hk), if_pos ⟨hw, hst, hup, hg⟩]

theorem fWrite_wrong_state (hst : s.sliceState page ≠ 2) :
    fWrite m page k v s = (s.refuse page (spAddr page (0x1000 + k * 8))).busError := by
  unfold fWrite
  rw [if_neg (Nat.not_le.mpr hk), if_neg (fun h => hst h.2.1),
    pageWrite_wrong_state hpage hup _ hg (fun h => hst (List.mem_singleton.mp h))]

end Page

/-- Settles O32: a write of a slice's page by its grant, then by the slice's state, then by what it names. -/
theorem slicePagesTakeOnlyTheirOwnWrites : Obligations.SlicePagesTakeOnlyTheirOwnWrites := fun _ _ _ _ v hpage hk hup =>
  ⟨fun hg hst _ hr => ⟨fun hok => doorbellWrite_within hpage hup v hk hg hst hr hok,
      fun hok => congrArg Host.Outcome.next (doorbellWrite_beyond hpage hup v hk hg hst hr hok)⟩,
   fun hg hst hw => congrArg Host.Outcome.next (fWrite_within hpage hup v hk hg hst hw),
   fun hg hst hw => congrArg Host.Outcome.next (fWrite_beyond hup v hk hg hst hw),
   fun hg hst => congrArg Host.Outcome.next (fWrite_wrong_state hpage hup v hk hg hst),
   fun hg hst => congrArg Host.Outcome.next (doorbellWrite_wrong_state hpage hup v hk hg hst),
   fun hg => congrArg Host.Outcome.next (doorbellWrite_no_grant hpage hup v hk hg)⟩

/-! ### FTAG, interrupt moderation and the end of a quiesce -/

/-- FTAG as a write of a hypervisor mode leaves it. -/
def Core.tagged (k : Core) (v : Bool) (pasid : Nat) : Core :=
  { valid := v, pasid := pasid % 2 ^ 20, flushes := if k.pasid = pasid % 2 ^ 20 then k.flushes else k.flushes + 1 }

theorem ftagWrite_user {s : State} {core : Nat} (v : Bool) (pasid : Nat) (hc : core < 24) (hup : s.sup.coresUp = true) :
    ftagWrite core false v pasid s = { s with bus := .virtualInstruction } := by
  unfold ftagWrite
  rw [if_neg (by simp [hup, hc]), if_pos (by decide)]

theorem ftagWrite_hyp {s : State} {core : Nat} (v : Bool) (pasid : Nat) (hc : core < 24) (hup : s.sup.coresUp = true) :
    ftagWrite core true v pasid s = { s with
      bus := .done, slt := { s.slt with cores := Tbl.set {} core ((Tbl.get ({} : Core) core s.slt.cores).tagged v pasid) s.slt.cores } } := by
  unfold ftagWrite
  rw [if_neg (by simp [hup, hc]), if_neg (by decide)]
  rfl

theorem Core.tagged_flushes (k : Core) (v : Bool) (pasid : Nat) :
    (k.tagged v pasid).flushes = k.flushes + (if k.pasid = pasid % 2 ^ 20 then 0 else 1) := by
  unfold Core.tagged
  split <;> rfl

theorem ftagWrite_hyp_next (s : State) {core : Nat} (v : Bool) (pasid : Nat) (hc : core < 24) (hup : s.sup.coresUp = true) :
    ∃ t, exec (.ftagWrite core true v pasid) s = .next t ∧ t.bus = .done ∧
      (Tbl.get ({} : Core) core t.slt.cores).valid = v ∧ (Tbl.get ({} : Core) core t.slt.cores).pasid = pasid % 2 ^ 20 ∧
      (Tbl.get ({} : Core) core t.slt.cores).flushes = (Tbl.get ({} : Core) core s.slt.cores).flushes +
        (if (Tbl.get ({} : Core) core s.slt.cores).pasid = pasid % 2 ^ 20 then 0 else 1) ∧
      (∀ c, c ≠ core → Tbl.get ({} : Core) c t.slt.cores = Tbl.get ({} : Core) c s.slt.cores) ∧ t.regs = s.regs ∧ t.mem = s.mem := by
  refine ⟨_, congrArg Host.Outcome.next (ftagWrite_hyp v pasid hc hup), rfl, ?_, ?_, ?_, fun c hne => Tbl.get_set_ne _ _ hne _ _, rfl, rfl⟩
  · rw [Tbl.get_set_same]
    rfl
  · rw [Tbl.get_set_same]
    rfl
  · rw [Tbl.get_set_same, Core.tagged_flushes]

section Moderation

variable {s : State} {r : Nat} (hrun : (s.ring r).modRun = true)
include hrun

theorem irqModerationEnd_again (hadv : (s.ring r).modAdv = true) :
    let u := s.advanceTo (s.ring r).modTill
    irqModerationEnd r s = (u.sendIrq r).modRing r (fun g => { g with modAdv := false, modTill := u.now + us (rgModUs (s.sltEnt 2 r)) }) := by
  unfold irqModerationEnd
  dsimp only
  rw [if_neg (by rw [hrun]; decide), if_pos hadv]
  rfl

theorem irqModerationEnd_over (hadv : (s.ring r).modAdv = false) :
    irqModerationEnd r s = (s.advanceTo (s.ring r).modTill).modRing r (fun g => { g with modRun := false, modTill := 0 }) := by
  unfold irqModerationEnd
  dsimp only
  rw [if_neg (by rw [hrun]; decide), if_neg (by rw [hadv]; decide)]

end Moderation

theorem quiesceDrained_done {s : State} {n : Nat} (hst : s.sliceState n = 3) (hfly : (s.slice n).inflightNow = 0)
    (hcl : ∀ r ∈ s.ringsOf n, (s.ring r).claimed = 0) : quiesceDrained n s = s.toSliceState n 4 2 :=
  if_pos ⟨hst, hfly, List.all_eq_true.mpr (fun r hr => beq_iff_eq.mpr (hcl r hr))⟩

theorem quiesceDrained_waits {s : State} {n : Nat}
    (h : (s.slice n).inflightNow ≠ 0 ∨ ∃ r ∈ s.ringsOf n, (s.ring r).claimed ≠ 0) : quiesceDrained n s = s := by
  refine if_neg ?_
  rintro ⟨_, hfly, hcl⟩
  rcases h with h | ⟨r, hr, h⟩
  · exact h hfly
  · exact h (beq_iff_eq.mp (List.all_eq_true.mp hcl r hr))

theorem quiesceLimit_next {s : State} {n : Nat} (hst : s.sliceState n = 3) :
    quiesceLimit n s = ((s.advanceTo ((s.slice n).quiesceAt + ms 50)).abandon n).toSliceState n 4 3 := if_pos hst

/-- Settles O33: FTAG by its mode, moderation by what came meanwhile, a quiesce by what is left in flight. -/
theorem sliceEventsFollowTheirStates : Obligations.SliceEventsFollowTheirStates := fun s =>
  ⟨fun _ v pasid hc hup => ⟨congrArg Host.Outcome.next (ftagWrite_user v pasid hc hup), ftagWrite_hyp_next s v pasid hc hup⟩,
   fun _ hrun => ⟨fun hadv => congrArg Host.Outcome.next (irqModerationEnd_again hrun hadv),
     fun hadv => congrArg Host.Outcome.next (irqModerationEnd_over hrun hadv)⟩,
   fun _ hst => ⟨fun hfly hcl => congrArg Host.Outcome.next (quiesceDrained_done hst hfly hcl),
     fun h => congrArg Host.Outcome.next (quiesceDrained_waits h), congrArg Host.Outcome.next (quiesceLimit_next hst)⟩⟩

end Sys2Proof.Machine
end

section
/-! O34: heartbeats, sent at every tick and judged as they come. -/
namespace Sys2Proof.Machine

-- one proof after the other: started together they wait on each other's results, each in a thread of its own
set_option Elab.async false

/-- The time of the next tick, counted. -/
def State.ticked (s : State) : State :=
  { s.advanceTo ((s.now / us 125 + 1) * us 125) with
    prc := { (s.advanceTo ((s.now / us 125 + 1) * us 125)).prc with tick := (s.prc.tick + 1) % 65536 } }

theorem heartbeatTick_eq {s : State} (hen : s.flag F.PRC_CTL_EN = true) : heartbeatTick s =
    if !s.flag F.PRC_CTL_PAIRED then s.ticked.singleAlone.tickLease
    else (s.ticked.tickRows.switchStart.heartbeat.tickLease).pubSyncTx := by
  unfold heartbeatTick
  exact if_neg (by rw [hen]; decide)

theorem heartbeatTick_single {s : State} (hen : s.flag F.PRC_CTL_EN = true) (hp : s.flag F.PRC_CTL_PAIRED = false) :
    heartbeatTick s = s.ticked.singleAlone.tickLease := by
  rw [heartbeatTick_eq hen, if_pos (by rw [hp]; decide)]

theorem heartbeatTick_paired {s : State} (hen : s.flag F.PRC_CTL_EN = true) (hp : s.flag F.PRC_CTL_PAIRED = true) :
    heartbeatTick s = (s.ticked.tickRows.switchStart.heartbeat.tickLease).pubSyncTx := by
  rw [heartbeatTick_eq hen, if_neg (by rw [hp]; decide)]

/-! ### Received heartbeats -/

/-- A heartbeat on the Cicada line counted, with its offset shown. -/
def State.hbOnLine (s : State) (h : HbRx) : State :=
  let b := { s.bump (F.PRC_CIC_CNT_COUNT.nth 0) with prc := { s.prc with lineAt := some s.now } }
  b.setF F.PRC_CIC_STATUS_ARR_OFFSET (unsigned 16 (satInt 16 (b.arrOffset h.code)))

theorem hbOnLine_keeps (s : State) (h : HbRx) : (s.hbOnLine h).memberB = s.memberB ∧ (s.hbOnLine h).now = s.now ∧
    (s.hbOnLine h).mem = s.mem ∧ (s.hbOnLine h).slp = s.slp := by
  have hb : Touches [.regs] s (s.bump (F.PRC_CIC_CNT_COUNT.nth 0)) := .via bump_touches (.refl _ _)
  have htouch : Touches [.regs, .prc] s (s.hbOnLine h) := .via setF_touches (Touches.set_prc (hb.mono (by simp)) _)
  exact ⟨congrArg Supply.pairsel htouch.sup_eq, htouch.now_eq, htouch.mem_eq, htouch.slp_eq⟩

/-- The block of a heartbeat passes its check. -/
def hbGood (o : Octets) : Prop := o.length = 16 ∧ ofLe (o.drop 14) = hbCrc o

/-- What an accepted heartbeat leaves of its block, before its row is taken. -/
def State.hbKept (s : State) (cic : Bool) (o : Octets) : State :=
  let s := s.prcBump (if cic then 1 else 0)
  let t := s.now
  let up := hbRole o == 0 || hbRole o == 2
  let s := { s with prc := { s.prc with
    heard := true, peerRole := some (hbRole o), peerEpoch := hbEpoch o, peerBlock := o, lastHeard := t
    heardK := if cic then s.prc.heardK else some t, heardC := if cic then some t else s.prc.heardC
    lastSending := if up then some t else s.prc.lastSending } }
  (s.setF (F.PRC_PEER_BLOCK.nth 0) (ofLe (o.take 8))).setF (F.PRC_PEER_BLOCK.nth 1) (ofLe (o.drop 8))

/-- A heartbeat whose block stands, judged by its version and its member. -/
def State.hbJudged (s : State) (cic : Bool) (o : Octets) : State :=
  if octet o 0 / 16 != 1 then s.refuseHb 2 7
  else if hbMember o == s.memberB then s.refuseHb 3 8
  else (s.hbKept cic o).peerRows o

theorem hbJudged_version {s : State} (cic : Bool) {o : Octets} (h : octet o 0 / 16 ≠ 1) : s.hbJudged cic o = s.refuseHb 2 7 :=
  if_pos (bne_iff_ne.mpr h)

theorem hbJudged_member {s : State} (cic : Bool) {o : Octets} (h : octet o 0 / 16 = 1) (hm : hbMember o = s.memberB) :
    s.hbJudged cic o = s.refuseHb 3 8 := by
  rw [State.hbJudged, if_neg (by simp [h]), if_pos (beq_iff_eq.mpr hm)]

theorem hbJudged_taken {s : State} (cic : Bool) {o : Octets} (h : octet o 0 / 16 = 1) (hm : hbMember o ≠ s.memberB) :
    s.hbJudged cic o = (s.hbKept cic o).peerRows o := by
  rw [State.hbJudged, if_neg (by simp [h]), if_neg (fun he => hm (beq_iff_eq.mp he))]

theorem hbKept_peer (s : State) (cic : Bool) (o : Octets) :
    (s.hbKept cic o).prc.heard = true ∧ (s.hbKept cic o).prc.peerRole = some (hbRole o) ∧ (s.hbKept cic o).prc.peerEpoch = hbEpoch o ∧
      (s.hbKept cic o).prc.lastHeard = s.now ∧ (s.hbKept cic o).prc.peerBlock = o := ⟨rfl, rfl, rfl, rfl, rfl⟩

theorem hbKept_block (s : State) (cic : Bool) (o : Octets) :
    (s.hbKept cic o).get (F.PRC_PEER_BLOCK.nth 0) = ofLe (o.take 8) % 2 ^ 64 := by
  unfold State.hbKept
  extract_lets a t up src b
  have hne : ((b.setF (F.PRC_PEER_BLOCK.nth 0) (ofLe (o.take 8))).setF (F.PRC_PEER_BLOCK.nth 1) (ofLe (o.drop 8))).get
      (F.PRC_PEER_BLOCK.nth 0) = (b.setF (F.PRC_PEER_BLOCK.nth 0) (ofLe (o.take 8))).get (F.PRC_PEER_BLOCK.nth 0) :=
    State.get_setF_ne _ _ (by decide)
  exact hne.trans (State.get_setF_same _ _ _)

theorem heartbeatRx_not_paired {r : State} (h : HbRx) (hp : r.flag F.PRC_CTL_PAIRED = false) : heartbeatRx h r = r := by
  unfold heartbeatRx
  exact if_pos (by rw [hp, Bool.or_comm]; rfl)

section Paired

variable {r : State} {h : HbRx} (hen : r.flag F.PRC_CTL_EN = true) (hp : r.flag F.PRC_CTL_PAIRED = true)
include hen hp

theorem heartbeatRx_line (h2 : h.path = 2) : heartbeatRx h r =
    if !h.codeOk then (r.hbOnLine h).bump (F.PRC_CIC_CNT_COUNT.nth 1)
    else if (h.block.take 16).length != 16 || ofLe ((h.block.take 16).drop 14) != hbCrc (h.block.take 16) then
      (r.hbOnLine h).bump (F.PRC_CIC_CNT_COUNT.nth 2)
    else (r.hbOnLine h).hbJudged true (h.block.take 16) := by
  have hcic : (h.path == 2) = true := beq_iff_eq.mpr h2
  unfold heartbeatRx
  dsimp only
  rw [if_neg (by rw [hen, hp]; decide), hcic]
  rfl

theorem heartbeatRx_path (h2 : h.path ≠ 2) : heartbeatRx h r =
    if (h.block.take 16).length != 16 || ofLe ((h.block.take 16).drop 14) != hbCrc (h.block.take 16) then r
    else if r.prc.seen.contains h.mseq then r
    else (r.markSeen h.mseq).hbJudged false (h.block.take 16) := by
  have hcic : (h.path == 2) = false := beq_eq_false_iff_ne.mpr h2
  unfold heartbeatRx
  dsimp only
  rw [if_neg (by rw [hen, hp]; decide), hcic]
  rfl

theorem heartbeatRx_line_good (h2 : h.path = 2) (hcode : h.codeOk = true) (hgood : hbGood (h.block.take 16)) :
    heartbeatRx h r = (r.hbOnLine h).hbJudged true (h.block.take 16) := by
  obtain ⟨hlen, hcrc⟩ := hgood
  rw [heartbeatRx_line hen hp h2, hcode, if_neg (by decide), if_neg (by rw [hlen, hcrc]; simp)]

theorem heartbeatRx_path_good (h2 : h.path ≠ 2) (hgood : hbGood (h.block.take 16)) (hseen : r.prc.seen.contains h.mseq = false) :
    heartbeatRx h r = (r.markSeen h.mseq).hbJudged false (h.block.take 16) := by
  obtain ⟨hlen, hcrc⟩ := hgood
  rw [heartbeatRx_path hen hp h2, if_neg (by rw [hlen, hcrc]; simp), if_neg (by rw [hseen]; decide)]

end Paired

theorem bad_of_not_good {o : Octets} (h : ¬ hbGood o) : (o.length != 16 || ofLe (o.drop 14) != hbCrc o) = true := by
  rw [Bool.or_eq_true, bne_iff_ne, bne_iff_ne]
  exact not_and_or.mp h

/-- R360 to R364: a heartbeat judged, on the line or on a path, once its block stands. -/
theorem hbJudged_rows {r m : State} (cic : Bool) (o : Octets) (hmem : m.memberB = r.memberB) (hnow : m.now = r.now)
    (hm : m.mem = r.mem) (hs : m.slp = r.slp) :
    (octet o 0 / 16 ≠ 1 → m.hbJudged cic o = m.refuseHb 2 7) ∧
    (octet o 0 / 16 = 1 → hbMember o = r.memberB → m.hbJudged cic o = m.refuseHb 3 8) ∧
    (octet o 0 / 16 = 1 → hbMember o ≠ r.memberB →
      ∃ v : State, m.hbJudged cic o = v.peerRows o ∧ v.prc.heard = true ∧ v.prc.peerRole = some (hbRole o) ∧
        v.prc.peerEpoch = hbEpoch o ∧ v.prc.lastHeard = r.now ∧ v.prc.peerBlock = o ∧
        v.get (F.PRC_PEER_BLOCK.nth 0) = ofLe (o.take 8) % 2 ^ 64 ∧ v.mem = r.mem ∧ v.slp = r.slp) := by
  obtain ⟨hheard, hrole, hepoch, hlast, hblock⟩ := hbKept_peer m cic o
  refine ⟨hbJudged_version cic, fun hv hb => hbJudged_member cic hv (hb.trans hmem.symm), fun hv hb =>
    ⟨m.hbKept cic o, hbJudged_taken cic hv (fun he => hb (he.trans hmem)), hheard, hrole, hepoch, hlast.trans hnow, hblock,
      hbKept_block m cic o, hm, hs⟩⟩

/-- Settles O34: a tick by the pairing, a heartbeat by its code, its block, its copy, its version and its member. -/
theorem heartbeatsTickAndAreJudged : Obligations.HeartbeatsTickAndAreJudged := by
  intro s hen
  refine ⟨⟨fun hp => congrArg Host.Outcome.next (heartbeatTick_single hen hp), fun hp => congrArg Host.Outcome.next (heartbeatTick_paired hen hp)⟩,
    fun h => ⟨heartbeatRx h, rfl, fun r hr => ?_⟩⟩
  intro o b u m good
  refine ⟨heartbeatRx_not_paired h, fun hp => ⟨fun h2 hc => ?_, fun h2 hc hbad => ?_, fun h2 hbad => ?_, fun h2 hgood hseen => ?_,
    fun hgood hpath => ?_⟩⟩
  · rw [heartbeatRx_line hr hp h2, hc, if_pos (by decide)]
    exact congrArg (fun x : State => x.bump _) (if_pos h2).symm
  · rw [heartbeatRx_line hr hp h2, hc, if_neg (by decide), if_pos (bad_of_not_good hbad)]
    exact congrArg (fun x : State => x.bump _) (if_pos h2).symm
  · rw [heartbeatRx_path hr hp h2, if_pos (bad_of_not_good hbad)]
  · obtain ⟨hlen, hcrc⟩ := hgood
    rw [heartbeatRx_path hr hp h2, if_pos hseen, ite_self]
  · rcases hpath with ⟨h2, hc⟩ | ⟨h2, hseen⟩
    · have hm : m = r.hbOnLine h := (if_pos h2).trans (if_pos h2)
      rw [heartbeatRx_line_good hr hp h2 hc hgood, hm]
      obtain ⟨hmem, hnow, hm, hs⟩ := hbOnLine_keeps r h
      exact hbJudged_rows true o hmem hnow hm hs
    · have hm : m = r.markSeen h.mseq := (if_neg h2).trans (congrArg (fun x : State => x.markSeen h.mseq) (if_neg h2))
      rw [heartbeatRx_path_good hr hp h2 hgood hseen, hm]
      exact hbJudged_rows false o rfl rfl rfl rfl

end Sys2Proof.Machine
end

section
/-! O35: silence, leases and gaps at their times, and the controlled switch-over. -/
namespace Sys2Proof.Machine

-- one proof after the other: started together they wait on each other's results, each in a thread of its own
set_option Elab.async false

/-! ### Silence, leases and gaps -/

theorem peerSilence_active {s : State} (hen : s.flag F.PRC_CTL_EN = true) (hp : s.flag F.PRC_CTL_PAIRED = true) (hr : s.role = 0) :
    peerSilence s = (s.advanceTo (s.prc.lastHeard + s.lossTime)).fence 2 := by
  unfold peerSilence
  rw [if_neg (by simp [hen, hp, hr])]
  exact if_pos hr

theorem peerSilence_watch {s : State} (hen : s.flag F.PRC_CTL_EN = true) (hp : s.flag F.PRC_CTL_PAIRED = true) (hr : s.role = 1) :
    peerSilence s = ((s.advanceTo (s.prc.lastHeard + s.lossTime)).prcBump 4).takeover true := by
  have hne : ¬ (s.advanceTo (s.prc.lastHeard + s.lossTime)).role = 0 := fun h => absurd (hr.symm.trans h) (by decide)
  unfold peerSilence
  rw [if_neg (by simp [hen, hp, hr])]
  exact if_neg hne

theorem soloWaitExpiry_next {s : State} (hen : s.flag F.PRC_CTL_EN = true) (hp : s.flag F.PRC_CTL_PAIRED = true)
    (hw : s.get F.PRC_CTL_SOLO_WAIT ≠ 0) (hr : s.role = 3) (hf : s.hardFence = false) (hready : s.ready = true) :
    let w := ms (s.get F.PRC_CTL_SOLO_WAIT)
    let t := max s.now (s.prc.lastHeard + w)
    (∀ p, s.prc.pubSeen = some p → p + w ≤ t) → soloWaitExpiry s = (s.advanceTo t).takeSending 2 false := by
  intro w t hseen
  have hw0 : w ≠ 0 := by
    have hms : w = s.get F.PRC_CTL_SOLO_WAIT * ms 1 := by
      simp only [w, ms, us, ns]
      ring
    rw [hms]
    exact Nat.mul_ne_zero hw (by decide)
  unfold soloWaitExpiry
  refine (if_neg (by simp [hen, hp, hr, hf, hready, w, hw0])).trans (if_neg ?_)
  cases hpub : s.prc.pubSeen with
  | none => exact Bool.false_ne_true
  | some p =>
    simp only [decide_eq_true_iff]
    exact Nat.not_lt.mpr (hseen p hpub)

theorem leaseLapse_next {s : State} (h : s.flag F.PRC_STATUS_LEASE = true) :
    let u := (s.advanceTo (s.prc.renewed + us 1500)).handOwn
    leaseLapse s = u.sendEdge ((u.setF F.PRC_STATUS_LEASE 0).prcBump 14) := by
  intro u
  have hdrop : u.dropLease = (u.setF F.PRC_STATUS_LEASE 0).prcBump 14 := if_pos h
  unfold leaseLapse
  rw [if_neg (by rw [h]; decide), ← hdrop]

theorem takeoverGapEnd_next {s : State} (hg : s.flag F.PRC_STATUS_GAP = true) (hsw : s.flag F.PRC_STATUS_SWITCHING = false)
    (hr : s.role = 0 ∨ s.role = 2) :
    let u := s.advanceTo (s.prc.gapFrom + us 250)
    takeoverGapEnd s = u.sendEdge (u.setF F.PRC_STATUS_GAP 0).renewLease := by
  unfold takeoverGapEnd
  exact if_pos (by rcases hr with h | h <;> simp [hg, hsw, h])

/-! ### The switch-over -/

theorem handoverTx_next {s : State} (hsw : s.flag F.PRC_STATUS_SWITCHING = true) (hh : s.prc.handAt = none) (hw : s.pubOnWire = false) :
    let u := s.advanceTo (s.prc.dropAt + us 20)
    let ps := (u.pubsOn.filter (fun p => !pbSv p.2)).map Prod.fst
    let v := u.pairSend 6 (ps.flatMap (fun p => u.pubRec p true))
    handoverTx s = { v with prc := { v.prc with handAt := some v.now } } := by
  intro u ps v
  unfold handoverTx
  rw [if_neg (by simp [hsw, hh, hw])]

theorem switchTimeout_no_answer {s : State} {t : Time} (hh : s.prc.handAt = some t) (hlast : s.prc.lastHeard ≤ t) : switchTimeout s = s := by
  unfold switchTimeout
  rw [hh]
  exact if_neg (by simp [Nat.not_lt.mpr hlast])

theorem switchTimeout_undone {s : State} {t : Time} (hh : s.prc.handAt = some t) (hsw : s.flag F.PRC_STATUS_SWITCHING = true)
    (hlast : t < s.prc.lastHeard) (hrole : s.prc.peerRole = some 1) (hnew : newer s.prc.peerEpoch s.epoch = false) :
    let u := (s.advanceTo (t + ms 1)).prcBump 8
    switchTimeout s = (u.sendEdge (u.setF F.PRC_STATUS_GAP 0).renewLease).endSwitch stAborted := by
  unfold switchTimeout
  rw [hh]
  exact if_pos (by simp [hsw, hlast, hrole, hnew])

theorem takePart_whole {s : State} {h : PairHdr} {o : Octets} {rs : List PubSyncRec} (hseen : s.prc.seen.contains h.mseq = false)
    (hparts : h.parts ≤ 1) : (s.takePart h o rs).1 = some (o, rs) := by
  unfold State.takePart
  rw [if_neg (by rw [hseen]; decide)]
  dsimp only
  rw [if_pos hparts]

theorem handoverRx_taken {u : State} {h : PairHdr} {recs : List PubSyncRec} (hparts : h.parts ≤ 1)
    (hseen : u.prc.seen.contains h.mseq = false) (hr : u.role = 1) (he : h.epoch = u.epoch)
    (ha : u.flag F.PRC_STATUS_ALIGNED = true) :
    handoverRx h recs u =
      ((recs.foldl (fun (s : State) r => s.modPub r.index (fun y => { y with handed := some r })) (u.takePart h [] recs).2).takeSending
        0 false).heartbeat := by
  unfold handoverRx
  rw [if_pos ⟨hr, he, ha⟩]
  dsimp only
  rw [takePart_whole hseen hparts]

/-- Settles O35: each time of the pair by role and lease, and a switch-over by its answer. -/
theorem silenceLeasesAndSwitchOverHandTheRole : Obligations.SilenceLeasesAndSwitchOverHandTheRole :=
  ⟨fun _ => ⟨fun hen hp hr => congrArg Host.Outcome.next (peerSilence_active hen hp hr),
     fun hen hp hr => congrArg Host.Outcome.next (peerSilence_watch hen hp hr),
     fun hen hp hw hr hf hready hseen => congrArg Host.Outcome.next (soloWaitExpiry_next hen hp hw hr hf hready hseen),
     fun h => congrArg Host.Outcome.next (leaseLapse_next h),
     fun hg hsw hr => congrArg Host.Outcome.next (takeoverGapEnd_next hg hsw hr)⟩,
   fun _ => ⟨fun hsw hh hw => congrArg Host.Outcome.next (handoverTx_next hsw hh hw),
     fun _ hh _ hlast => congrArg Host.Outcome.next (switchTimeout_no_answer hh hlast),
     fun _ hh hsw hlast hrole hnew => congrArg Host.Outcome.next (switchTimeout_undone hh hsw hlast hrole hnew),
     fun h recs => ⟨handoverRx h recs, rfl, fun _ =>
      ⟨fun hparts hseen hr he ha => handoverRx_taken hparts hseen hr he ha, fun hno => if_neg hno⟩⟩⟩⟩

end Sys2Proof.Machine
end

section
/-! O36: messages between the modules. -/
namespace Sys2Proof.Machine

-- one proof after the other: started together they wait on each other's results, each in a thread of its own
set_option Elab.async false

theorem pubOf_modPub_same (s : State) (p : Nat) (f : PubSt → PubSt) : (s.modPub p f).pubOf p = f (s.pubOf p) := by
  show Tbl.get {} p (Tbl.mod {} p f s.pub.st) = f (Tbl.get {} p s.pub.st)
  rw [Tbl.get_mod, if_pos rfl]

theorem pubOf_modPub_ne (s : State) {p q : Nat} (h : q ≠ p) (f : PubSt → PubSt) : (s.modPub p f).pubOf q = s.pubOf q := by
  show Tbl.get {} q (Tbl.mod {} p f s.pub.st) = Tbl.get {} q s.pub.st
  rw [Tbl.get_mod, if_neg h]

theorem mem_markSeen (s : State) (m : Nat) : m ∈ (s.markSeen m).prc.seen := by
  show m ∈ (m :: s.prc.seen).take 16
  rw [List.take_succ_cons]
  exact List.mem_cons_self

/-- What a message that is no duplicate and no stranger's goes through, and what any other does. -/
theorem asWatch_refused {u : State} {h : PairHdr} (f : State → State) (hno : ¬(u.role = 1 ∧ h.role = 0 ∧ h.epoch = u.epoch)) :
    u.asWatch h f = if u.prc.seen.contains h.mseq then u else (u.markSeen h.mseq).prcBump 9 := if_neg hno

/-- A message complete in all its parts. -/
def State.partsDone (s : State) (h : PairHdr) : State :=
  { s.markSeen h.mseq with prc := { (s.markSeen h.mseq).prc with parts := s.prc.parts.filter (fun p => p.mseq != h.mseq) } }

theorem mem_partsDone (s : State) (h : PairHdr) : h.mseq ∈ (s.partsDone h).prc.seen := mem_markSeen s h.mseq

theorem takePart_single {s : State} {h : PairHdr} (o : Octets) (rs : List PubSyncRec) (hseen : s.prc.seen.contains h.mseq = false)
    (hparts : h.parts ≤ 1) : s.takePart h o rs = (some (o, rs), s.partsDone h) := by
  unfold State.takePart
  rw [if_neg (by rw [hseen]; decide)]
  exact if_pos hparts

theorem takePart_late {s : State} {h : PairHdr} (o : Octets) (rs : List PubSyncRec) {p : PartSet}
    (hseen : s.prc.seen.contains h.mseq = false) (hparts : 1 < h.parts)
    (hfind : s.prc.parts.find? (fun q => q.mseq == h.mseq) = some p) (hlate : p.at_ + ms 5 < s.now) :
    s.takePart h o rs = (none, s.partLost h.mseq) := by
  unfold State.takePart
  rw [if_neg (by rw [hseen]; decide)]
  dsimp only
  rw [if_neg (Nat.not_le.mpr hparts), hfind]
  exact if_pos (decide_eq_true hlate)

section Taken

variable {u : State} {h : PairHdr} (hr : u.role = 1) (hh : h.role = 0) (he : h.epoch = u.epoch)
  (hseen : u.prc.seen.contains h.mseq = false)
include hr hh he hseen

/-! ### Images -/

theorem imageRx_whole (c st : Nat) (o : Octets) (hparts : h.parts ≤ 1) :
    imageRx h c st o u = { u.partsDone h with prc := { (u.partsDone h).prc with
      images := (u.partsDone h).prc.images.filter (fun i => i.cls != c) ++ [⟨c, st, o⟩] } } := by
  unfold imageRx State.asWatch
  rw [if_pos ⟨hr, hh, he⟩]
  dsimp only
  rw [takePart_single o [] hseen hparts]

theorem imageRx_late (c st : Nat) (o : Octets) {p : PartSet} (hparts : 1 < h.parts)
    (hfind : u.prc.parts.find? (fun q => q.mseq == h.mseq) = some p) (hlate : p.at_ + ms 5 < u.now) :
    imageRx h c st o u = u.partLost h.mseq := by
  unfold imageRx State.asWatch
  rw [if_pos ⟨hr, hh, he⟩]
  dsimp only
  rw [takePart_late o [] hseen hparts hfind hlate]

theorem imageRx_next (c st : Nat) (o : Octets) (hparts : h.parts ≤ 1) :
    ∃ t, imageRx h c st o u = t ∧ (⟨c, st, o⟩ : Image) ∈ t.prc.images ∧
      (∀ i ∈ t.prc.images, i.cls = c → i = ⟨c, st, o⟩) ∧ (∀ i, i.cls ≠ c → (i ∈ t.prc.images ↔ i ∈ u.prc.images)) ∧
      h.mseq ∈ t.prc.seen ∧ t.slp = u.slp ∧ t.regs = u.regs ∧ t.mem = u.mem := by
  refine ⟨_, imageRx_whole hr hh he hseen c st o hparts, List.mem_append_right _ (List.mem_singleton_self _), fun i hi hc => ?_,
    fun i hc => ?_, mem_partsDone u h, rfl, rfl, rfl⟩
  · rcases List.mem_append.mp hi with hi | hi
    · have hne := (List.mem_filter.mp hi).2
      exact absurd hc (bne_iff_ne.mp hne)
    · exact List.mem_singleton.mp hi
  · rw [List.mem_append, List.mem_filter, List.mem_singleton]
    refine ⟨fun hi => hi.elim And.left (fun heq => absurd (congrArg Image.cls heq) hc), fun hi => .inl ⟨hi, bne_iff_ne.mpr hc⟩⟩

/-! ### PUB_SYNC -/

theorem pubSyncRx_next {rs : List PubSyncRec} {r : PubSyncRec} (hrs : rs = [r]) (hparts : h.parts ≤ 1) :
    ∃ t, pubSyncRx h rs u = t ∧ (t.pubOf r.index).handed = some r ∧
      (∀ p, p ≠ r.index → t.pubOf p = u.pubOf p) ∧ t.slp = u.slp ∧ t.regs = u.regs ∧ t.mem = u.mem := by
  have heq : pubSyncRx h rs u = (u.partsDone h).modPub r.index (fun y => { y with handed := some r }) := by
    unfold pubSyncRx State.asWatch
    rw [if_pos ⟨hr, hh, he⟩]
    dsimp only
    rw [takePart_single [] rs hseen hparts, hrs]
    rfl
  refine ⟨_, heq, ?_, fun p hp => ?_, rfl, rfl, rfl⟩
  · rw [pubOf_modPub_same]
  · rw [pubOf_modPub_ne _ hp]
    rfl

end Taken

/-! ### Digests -/

theorem expireDigests_own (u : State) : u.expireDigests.prc.own = u.prc.own.filter (fun d => decide (u.now ≤ d.at_ + ms 20)) := rfl

theorem expireDigests_peer (u : State) : u.expireDigests.prc.peer = u.prc.peer.filter (fun d => decide (u.now ≤ d.at_ + ms 20)) := rfl

theorem expireDigests_touches {u : State} : Touches [.regs, .prc] u u.expireDigests := by
  unfold State.expireDigests State.setDigests
  exact Touches.set_prc (.via bumpBy_touches (.refl _ _)) _

theorem expireDigests_all {k : Nat} {u : State} : WritesFields k [F.PRC_CNT_COUNT.nth 11] u u.expireDigests := by
  unfold State.expireDigests State.setDigests
  exact .of_regs (.via bumpBy_writes (.refl _ _ _)) rfl

theorem expireDigests_seen (u : State) : u.expireDigests.prc.seen = u.prc.seen := rfl

theorem digestRx_next {u : State} {h : PairHdr} {es : List DigestEntry} {e : DigestEntry} (hes : es = [e]) (hr : u.role = 1) (hh : h.role = 0)
    (he : h.epoch = u.epoch) (hseen : u.prc.seen.contains h.mseq = false)
    (hlive : ∀ d ∈ u.prc.own ++ u.prc.peer, u.now ≤ d.at_ + ms 20)
    (hown : u.prc.own.find? (fun x => x.cls == e.cls && x.stamp == e.stamp) = none) :
    ∃ t, digestRx h es u = t ∧ t.prc.peer = u.prc.peer ++ [⟨e.cls, e.stamp, e.digest, u.now⟩] ∧ t.prc.own = u.prc.own ∧
      h.mseq ∈ t.prc.seen ∧ t.slp = u.slp ∧ SameFieldsBut [F.PRC_CNT_COUNT.nth 11] u t ∧ t.mem = u.mem := by
  let v := (u.markSeen h.mseq).expireDigests
  have hvown : v.prc.own = u.prc.own :=
    List.filter_eq_self.mpr (fun d hd => decide_eq_true (hlive d (List.mem_append_left _ hd)))
  have hvpeer : v.prc.peer = u.prc.peer :=
    List.filter_eq_self.mpr (fun d hd => decide_eq_true (hlive d (List.mem_append_right _ hd)))
  have hvnow : v.now = u.now := expireDigests_touches.now_eq
  have heq : digestRx h es u = { v with prc := { v.prc with peer := v.prc.peer ++ [⟨e.cls, e.stamp, e.digest, v.now⟩] } } := by
    unfold digestRx State.asWatch
    rw [if_pos ⟨hr, hh, he⟩]
    dsimp only
    rw [if_neg (by rw [hseen]; decide), hes]
    show (match v.prc.own.find? (fun x => x.cls == e.cls && x.stamp == e.stamp) with | some x => _ | none => _) = _
    rw [hvown, hown]
  have hfields (k : Nat) : WritesFields k [F.PRC_CNT_COUNT.nth 11] u (digestRx h es u) := by
    rw [heq]
    exact .of_regs (.via expireDigests_all (.of_regs (.refl _ _ _) rfl)) rfl
  refine ⟨_, rfl, ?_, ?_, ?_, ?_, WritesFields.sameFieldsBut hfields, ?_⟩ <;> rw [heq]
  · rw [hvpeer, hvnow]
  · exact hvown
  · exact mem_markSeen u h.mseq
  · exact expireDigests_touches.slp_eq
  · exact expireDigests_touches.mem_eq

theorem expireDigests_live (u : State) : (∀ d ∈ u.expireDigests.prc.own ++ u.expireDigests.prc.peer, u.now ≤ d.at_ + ms 20) ∧
    (∀ d ∈ u.prc.own, u.now ≤ d.at_ + ms 20 → d ∈ u.expireDigests.prc.own) ∧
    (∀ d ∈ u.prc.peer, u.now ≤ d.at_ + ms 20 → d ∈ u.expireDigests.prc.peer) := by
  rw [expireDigests_own, expireDigests_peer]
  refine ⟨fun d hd => ?_, fun d hd h => List.mem_filter.mpr ⟨hd, decide_eq_true h⟩,
    fun d hd h => List.mem_filter.mpr ⟨hd, decide_eq_true h⟩⟩
  rcases List.mem_append.mp hd with hd | hd <;> exact of_decide_eq_true (List.mem_filter.mp hd).2

theorem mem_filter_other_digest (l : List Digest) (c st : Nat) (d : Digest) :
    d ∈ l.filter (fun d => !(d.cls == c && d.stamp == st)) ↔ d ∈ l ∧ ¬(d.cls = c ∧ d.stamp = st) := by
  rw [List.mem_filter, Bool.not_eq_true', ← Bool.not_eq_true, Bool.and_eq_true, beq_iff_eq, beq_iff_eq]

theorem digestUnpaired_next (s : State) {c st : Nat} {d₀ : Digest}
    (hfind : (s.prc.own ++ s.prc.peer).find? (fun d => d.cls == c && d.stamp == st) = some d₀) :
    ∃ u : State, exec (.digestUnpaired c st) s = .next (u.prcBump 11) ∧
      u.tbu.t48 = max s.tbu.t48 ((d₀.at_ + ms 20) * 2 ^ 32) ∧ u.mem = s.mem ∧ u.slp = s.slp ∧
      (∀ d, d ∈ u.prc.own ↔ d ∈ s.prc.own ∧ ¬(d.cls = c ∧ d.stamp = st)) ∧
      (∀ d, d ∈ u.prc.peer ↔ d ∈ s.prc.peer ∧ ¬(d.cls = c ∧ d.stamp = st)) := by
  let v := s.advanceTo (d₀.at_ + ms 20)
  have heq : digestUnpaired c st s = { v with prc := { v.prc with
      own := v.prc.own.filter (fun d => !(d.cls == c && d.stamp == st))
      peer := v.prc.peer.filter (fun d => !(d.cls == c && d.stamp == st)) } }.prcBump 11 := by
    unfold digestUnpaired
    dsimp only
    rw [hfind]
  exact ⟨_, congrArg Host.Outcome.next heq, rfl, rfl, rfl, mem_filter_other_digest _ c st, mem_filter_other_digest _ c st⟩

/-! ### Requests and lost parts -/

theorem imageReqRx_refused {u : State} {h : PairHdr} (c : Nat) (hno : ¬(u.role = 0 ∧ h.epoch = u.epoch)) :
    imageReqRx h c u = if u.prc.seen.contains h.mseq then u else (u.markSeen h.mseq).prcBump 9 := if_neg hno

theorem imageReqRx_next {u : State} {h : PairHdr} (c : Nat) (hr : u.role = 0) (he : h.epoch = u.epoch)
    (hseen : u.prc.seen.contains h.mseq = false) :
    ∃ t, imageReqRx h c u = t ∧ c ∈ t.prc.reqs ∧ (∀ d ∈ u.prc.reqs, d ∈ t.prc.reqs) ∧ h.mseq ∈ t.prc.seen ∧
      t.regs = u.regs ∧ t.mem = u.mem := by
  have heq : imageReqRx h c u = { u.markSeen h.mseq with prc := { (u.markSeen h.mseq).prc with
      reqs := if u.prc.reqs.contains c then u.prc.reqs else u.prc.reqs ++ [c] } } := by
    unfold imageReqRx
    rw [if_pos ⟨hr, he⟩, if_neg (by rw [hseen]; decide)]
  refine ⟨_, heq, ?_, fun d hd => ?_, mem_markSeen u h.mseq, rfl, rfl⟩
  · show c ∈ if _ then _ else _
    split
    next h => exact List.contains_iff_mem.mp h
    next => exact List.mem_append_right _ (List.mem_singleton_self c)
  · show d ∈ if _ then _ else _
    split
    · exact hd
    · exact List.mem_append_left _ hd

theorem partTimeout_next {s : State} {m : Nat} {p₀ : PartSet} (hfind : s.prc.parts.find? (fun p => p.mseq == m) = some p₀) :
    partTimeout m s = (s.advanceTo (p₀.at_ + ms 5)).partLost m := by
  unfold partTimeout
  rw [hfind]

theorem partLost_leaves (u : State) (m : Nat) : (∀ p ∈ (u.partLost m).prc.parts, p ∈ u.prc.parts ∧ p.mseq ≠ m) ∧
    m ∈ (u.partLost m).prc.seen ∧ (u.partLost m).get (F.PRC_CNT_COUNT.nth 13) =
      min (u.get (F.PRC_CNT_COUNT.nth 13) + 1) (2 ^ (F.PRC_CNT_COUNT.nth 13).width - 1) % 2 ^ (F.PRC_CNT_COUNT.nth 13).width := by
  refine ⟨fun p hp => ?_, mem_markSeen u m, ?_⟩
  · obtain ⟨hmem, hne⟩ := List.mem_filter.mp hp
    exact ⟨hmem, bne_iff_ne.mp hne⟩
  · rw [State.partLost, State.prcBump, State.get_bump_same]
    exact (min_mod_width _ _).symm

/-- Settles O36: each message by the role and the Epoch of both ends, and what stays incomplete dropped. -/
theorem pairMessagesAreTakenByRole : Obligations.PairMessagesAreTakenByRole :=
  ⟨fun u p act hoff => weevilMsg_of_off u p 0x88B5 act hoff, fun s h =>
    ⟨fun c st o => ⟨imageRx h c st o, rfl, fun _ => ⟨asWatch_refused _,
        fun hr hh he hseen hparts => imageRx_next hr hh he hseen c st o hparts,
        fun _ hr hh he hseen hparts hfind hlate => imageRx_late hr hh he hseen c st o hparts hfind hlate⟩⟩,
     fun rs => ⟨pubSyncRx h rs, rfl, fun _ => ⟨asWatch_refused _,
        fun _ hrs hr hh he hseen hparts => pubSyncRx_next hr hh he hseen hrs hparts⟩⟩,
     fun es => ⟨digestRx h es, rfl, fun _ => ⟨asWatch_refused _,
        fun _ hes hr hh he hseen hlive hown => digestRx_next hes hr hh he hseen hlive hown⟩⟩,
     expireDigests_live, fun _ _ _ hfind => digestUnpaired_next s hfind,
     fun c => ⟨imageReqRx h c, rfl, fun _ => ⟨imageReqRx_refused c, imageReqRx_next c⟩⟩,
     fun _ _ hfind => congrArg Host.Outcome.next (partTimeout_next hfind), partLost_leaves⟩⟩

end Sys2Proof.Machine
end

section
/-! O37: the island's cycle, its faults and its tests. -/
namespace Sys2Proof.Machine

-- one proof after the other: started together they wait on each other's results, each in a thread of its own
set_option Elab.async false

/-! ### The cycle -/

/-- The low levels that a proof test sees in a cycle. -/
def State.proofSeen (s : State) (x : IslandInputs) : State :=
  s.modPsc (fun p => { p with
    proofLow := p.proofLow || (p.proof.isSome && p.proofStep == 0 && x.sfb.any (fun w => !bit p.proofK w)) })

/-- The island's time gone on to `t`, with the test pulses that end by then. -/
def State.pulsesPassed (s : State) (t : Nat) : State :=
  let ends := fun (p : Option Nat) => match p with | some b => if b + 8 ≤ t then none else some b | none => none
  s.modPsc (fun p => { p with time := t, tpA := ends p.tpA, tpB := ends p.tpB, arct := 0 })

/-- The island's time gone on by a cycle. -/
def State.cyclePassed (s : State) (x : IslandInputs) : State := (s.proofSeen x).pulsesPassed (s.psc.time + 4)

/-- The samples of a cycle taken, and its light channels. -/
def State.cycleLit (s : State) (x : IslandInputs) : State :=
  ((s.islandSamples x).cyclePassed x).arcChannels x.arc ((s.islandSamples x).psc.time + 4)

/-- A supply of the carrier that is missing asks for a proof test. -/
def State.cycleSupplied (s : State) : State := if s.sup.vioDriven then s else s.modPsc (fun p => { p with mustProof := true })

/-- A proof test begun again once the carrier's supply is back. -/
def State.proofAgain (s : State) : State :=
  if s.ist = 4 ∧ s.psc.mustProof = true ∧ s.sup.vioDriven = true ∧ s.psc.proof = none then s.proofFrom .again 0 else s

theorem proofAgain_eq (s : State) :
    (if s.ist == 4 && s.psc.mustProof && s.sup.vioDriven && s.psc.proof.isNone then s.proofFrom .again 0 else s) = s.proofAgain := by
  unfold State.proofAgain
  refine if_congr ?_ rfl rfl
  rw [Bool.and_eq_true, Bool.and_eq_true, Bool.and_eq_true, beq_iff_eq, Option.isNone_iff_eq_none, and_assoc, and_assoc]

theorem cycleSupplied_eq (s : State) :
    (if !s.sup.vioDriven then s.modPsc (fun p => { p with mustProof := true }) else s) = s.cycleSupplied := by
  unfold State.cycleSupplied
  cases s.sup.vioDriven <;> rfl

/-- What every cycle shows and sends. -/
def State.cycleShown (s : State) (x : IslandInputs) : State := ((s.setF F.PSC_STATUS_SFB (word x.sfb 3 % 16)).showPsc).sendS

theorem islandCycle_idle {s : State} (x : IslandInputs) (hon : s.islandOn = true) (hev : s.islandEval = false) :
    islandCycle x s = (s.cyclePassed x).proofAgain.cycleShown x := by
  unfold islandCycle
  rw [if_neg (by rw [hon]; decide), hev]
  exact congrArg (fun u : State => u.cycleShown x) (proofAgain_eq (s.cyclePassed x))

theorem islandCycle_runs {s : State} (x : IslandInputs) (hon : s.islandOn = true) (hev : s.islandEval = true) :
    islandCycle x s = (s.cycleLit x).cycleSupplied.islandDecide.proofAgain.cycleShown x := by
  unfold islandCycle
  rw [if_neg (by rw [hon]; decide)]
  extract_lets run a b t ends c d e f g
  have ha : a = s.islandSamples x := if_pos hev
  have hb : b = a.proofSeen x := rfl
  have hc : c = b.pulsesPassed t := rfl
  have ht : t = (s.islandSamples x).psc.time + 4 := by
    show a.psc.time + 4 = _
    rw [ha]
  have hd : d = s.cycleLit x := by
    rw [State.cycleLit, State.cyclePassed, ← ha, ← hb, ha, ← ht, ← hc]
    exact if_pos hev
  have he : e = (s.cycleLit x).cycleSupplied := by
    rw [← cycleSupplied_eq, ← hd]
    unfold e run
    rw [hev]
    rfl
  have hf : f = (s.cycleLit x).cycleSupplied.islandDecide := by
    rw [← he]
    exact if_pos hev
  have hg : g = (s.cycleLit x).cycleSupplied.islandDecide.proofAgain := by
    rw [← hf]
    exact proofAgain_eq f
  rw [hg]
  rfl

theorem proofAgain_of_idle {s : State} (h : s.islandEval = false) : s.proofAgain = s := by
  refine if_neg (fun hall => ?_)
  have h4 : s.islandEval = true := by simp [State.islandEval, hall.1]
  exact Bool.false_ne_true (h.symm.trans h4)

theorem islandCycle_idle_next (s : State) (x : IslandInputs) (hon : s.islandOn = true) (hev : s.islandEval = false) :
    ∃ u : State, exec (.islandCycle x) s = .next u.showPsc.sendS ∧ u.psc.time = s.psc.time + 4 ∧ u.psc.outs = s.psc.outs ∧
      u.get F.PSC_STATUS_SFB = word x.sfb 3 % 16 ∧ u.mem = s.mem := by
  have heq : islandCycle x s = ((s.cyclePassed x).setF F.PSC_STATUS_SFB (word x.sfb 3 % 16)).showPsc.sendS := by
    rw [islandCycle_idle x hon hev, proofAgain_of_idle (s := s.cyclePassed x) hev]
    rfl
  refine ⟨_, congrArg Host.Outcome.next heq, rfl, rfl, ?_, rfl⟩
  rw [State.get_setF_same]
  exact Nat.mod_mod _ 16

/-! ### Faults and self-tests -/

theorem islandFaultEvent_eq {s : State} (hon : s.islandOn = true) (h5 : s.ist ≠ 5) (h0 : s.ist ≠ 0) (c : IslandCause) :
    islandFaultEvent c s = match c with
      | .lockstep => s.islandFault 1
      | .memory => s.islandFault 2
      | .clock => s.islandFault 3
      | .paramCrc => if s.psc.haveParam ∧ crc32c s.paramOctets ≠ s.get F.PSC_PARAM_CRC_CRC then s.islandFault 4 else s := by
  unfold islandFaultEvent
  exact if_neg (by simp [hon, h5, h0])

theorem islandFaultEvent_paramCrc {s : State} (hon : s.islandOn = true) (h5 : s.ist ≠ 5) (h0 : s.ist ≠ 0) (hp : s.psc.haveParam = true)
    (hcrc : crc32c s.paramOctets ≠ s.get F.PSC_PARAM_CRC_CRC) : islandFaultEvent .paramCrc s = s.islandFault 4 := by
  rw [islandFaultEvent_eq hon h5 h0]
  exact if_pos ⟨hp, hcrc⟩

theorem islandSelftestDone_next {s : State} (hon : s.islandOn = true) (h : s.ist = 1) :
    islandSelftestDone s = (s.setF F.PSC_STATUS_ISTATE 2).takeParams := by
  unfold islandSelftestDone
  exact if_pos (by simp [hon, h])

/-! ### Pulses, current presence and light -/

theorem testPulse_next {s : State} (b : Bool) (hon : s.islandOn = true) (hev : s.islandEval = true)
    (ht : s.psc.time % 400 = (if b then 200 else 0)) :
    testPulse b s = { s with psc := if b then { s.psc with tpB := some s.psc.time } else { s.psc with tpA := some s.psc.time } } := by
  unfold testPulse
  exact if_pos (by simp [hon, hev, ht])

/-- A current-presence word taken. -/
def State.cpwTaken (s : State) (seq w : Nat) (rest : List (Nat × Nat)) : State :=
  let s := s.modPsc (fun p => { p with cpwQueue := rest })
  let s := if seq = (s.get F.PSC_STATUS_CPW_SEQ + 1) % 16 then s else s.pscBump 6
  let s := (s.setF F.PSC_STATUS_CPW_SEQ seq).setF F.PSC_STATUS_CPW_STALE 0
  s.modPsc (fun p => { p with cpwAt := p.time, arc := p.arc.map (fun (q : Nat × ArcCh) =>
    (q.1, if q.2.seen then { q.2 with cur := q.2.cur ||| w } else q.2)) })

theorem get_modPsc (s : State) (f : Island → Island) (g : Field) : (s.modPsc f).get g = s.get g := rfl

theorem cpwUpdate_eq {s : State} {seq w : Nat} {rest : List (Nat × Nat)} (hon : s.islandOn = true) (hq : s.psc.cpwQueue = (seq, w) :: rest) :
    cpwUpdate s = s.cpwTaken seq w rest := by
  have h : ¬ (!(s.modPsc (fun p => { p with cpwQueue := rest })).islandOn) = true := by
    show ¬ (!s.islandOn) = true
    rw [hon]
    decide
  unfold cpwUpdate
  rw [hq]
  exact if_neg h

theorem cpwUpdate_next (s : State) {seq w : Nat} {rest : List (Nat × Nat)} (hon : s.islandOn = true)
    (hq : s.psc.cpwQueue = (seq, w) :: rest) :
    ∃ t, exec .cpwUpdate s = .next t ∧ t.get F.PSC_STATUS_CPW_SEQ = seq % 2 ^ F.PSC_STATUS_CPW_SEQ.width ∧
      t.get F.PSC_STATUS_CPW_STALE = 0 ∧ t.psc.cpwQueue = rest ∧ t.psc.cpwAt = s.psc.time ∧ t.psc.outs = s.psc.outs ∧ t.mem = s.mem := by
  refine ⟨_, congrArg Host.Outcome.next (cpwUpdate_eq hon hq), ?_⟩
  unfold State.cpwTaken
  extract_lets u v z
  have hv : v.psc = u.psc ∧ v.mem = s.mem := by
    unfold v
    split <;> exact ⟨rfl, rfl⟩
  obtain ⟨hpsc, hmem⟩ := hv
  have hz : z.psc = v.psc := rfl
  refine ⟨?_, ?_, ?_, ?_, ?_, hmem⟩
  · rw [get_modPsc]
    exact (State.get_setF_ne _ _ (by decide)).trans (State.get_setF_same _ _ _)
  · rw [get_modPsc]
    exact State.get_setF_same _ _ _
  · show z.psc.cpwQueue = rest
    rw [hz, hpsc]
    rfl
  · show z.psc.time = s.psc.time
    rw [hz, hpsc]
    rfl
  · show z.psc.outs = s.psc.outs
    rw [hz, hpsc]
    rfl

theorem cpwTimeout_next {s : State} (hon : s.islandOn = true) (h : s.psc.cpwAt + s.get F.PSC_ARC_CTL_CPW_TIMEOUT * 40 ≤ s.psc.time) :
    cpwTimeout s = s.goStale := by
  unfold cpwTimeout
  exact if_pos (by simp [hon, h])

/-- A light channel after its self-test at a level. -/
def ArcCh.tested (x : ArcCh) (limit l : Nat) : ArcCh :=
  { x with
    testing := some l
    fails := if decide (limit ≤ l) then 0 else x.fails + 1
    sens := !decide (limit ≤ l) && (x.sens || decide (2 ≤ if decide (limit ≤ l) then 0 else x.fails + 1)) }

/-- A light channel tested, before what the test counts. -/
def State.arcTested (s : State) (c l : Nat) : State :=
  s.modPsc (fun q => { q with
    arc := Tbl.set {} c ((s.arcCh c).tested (s.get (F.PSC_ARC_CH_CFG_LTEST.nth c)) l) q.arc, arct := putBits c c 1 q.arct })

/-- What a self-test of a light channel counts. -/
def State.arcCounted (s : State) (pass fresh : Bool) : State :=
  let s := if pass then s.arcBump 2 else s
  if fresh then s.arcBump 1 else s

theorem arcCounted_touches {s : State} {pass fresh : Bool} : Touches [.regs] s (s.arcCounted pass fresh) := by
  unfold State.arcCounted State.arcBump
  exact .ite (.via bump_touches (.ite (.via bump_touches (.refl _ _)) (.refl _ _))) (.ite (.via bump_touches (.refl _ _)) (.refl _ _))

theorem arcSelftest_next (s : State) {c edges : Nat} (hon : s.islandOn = true) (hev : s.islandEval = true) (hc : c < 4)
    (hen : s.flag (F.PSC_ARC_CH_CFG_EN.nth c) = true)
    (ht : s.psc.time % (s.get F.PSC_ARC_CTL_ARCT_PERIOD * 400) = c * s.get F.PSC_ARC_CTL_ARCT_PERIOD * 100) :
    ∃ t, exec (.arcSelftest c edges) s = .next t ∧ (t.arcCh c).testing = some (min 1250 edges) ∧
      (t.arcCh c).fails = (if s.get (F.PSC_ARC_CH_CFG_LTEST.nth c) ≤ min 1250 edges then 0 else (s.arcCh c).fails + 1) ∧
      (s.get (F.PSC_ARC_CH_CFG_LTEST.nth c) ≤ min 1250 edges → (t.arcCh c).sens = false) ∧
      t.psc.outs = s.psc.outs ∧ t.mem = s.mem := by
  let x := (s.arcCh c).tested (s.get (F.PSC_ARC_CH_CFG_LTEST.nth c)) (min 1250 edges)
  let pass := decide (s.get (F.PSC_ARC_CH_CFG_LTEST.nth c) ≤ min 1250 edges)
  have heq : arcSelftest c edges s = (s.arcTested c (min 1250 edges)).arcCounted pass (x.sens && !(s.arcCh c).sens) := by
    unfold arcSelftest
    exact if_pos (by simp [hon, hev, hc, hen, ht])
  have htouch : Touches [.regs] (s.arcTested c (min 1250 edges)) (arcSelftest c edges s) := heq ▸ arcCounted_touches
  have hch : (arcSelftest c edges s).arcCh c = x := by
    unfold State.arcCh
    rw [htouch.psc_eq]
    exact Tbl.get_set_same _ _ _ _
  refine ⟨_, exec_arcSelftest c edges s, ?_, ?_, fun hpass => ?_, (congrArg Island.outs htouch.psc_eq).trans rfl, htouch.mem_eq⟩
  · show ((arcSelftest c edges s).arcCh c).testing = _
    rw [hch]
    rfl
  · show ((arcSelftest c edges s).arcCh c).fails = _
    rw [hch]
    simp only [x, ArcCh.tested, decide_eq_true_eq]
  · show ((arcSelftest c edges s).arcCh c).sens = _
    rw [hch]
    simp only [x, ArcCh.tested, decide_eq_true hpass, Bool.not_true, Bool.false_and]

/-! ### Outputs -/

theorem sout_modSout_same (s : State) (k : Nat) (f : SafeOut → SafeOut) : (s.modSout k f).sout k = f (s.sout k) := by
  show Tbl.get {} k (Tbl.mod {} k f s.psc.outs) = f (Tbl.get {} k s.psc.outs)
  rw [Tbl.get_mod, if_pos rfl]

theorem sout_modSout_ne (s : State) {j k : Nat} (h : j ≠ k) (f : SafeOut → SafeOut) : (s.modSout k f).sout j = s.sout j := by
  show Tbl.get {} j (Tbl.mod {} k f s.psc.outs) = Tbl.get {} j s.psc.outs
  rw [Tbl.get_mod, if_neg h]

section Feedback

variable {s : State} {k sfb at_ : Nat} (hon : s.islandOn = true) (hch : (s.sout k).changedAt = some at_)
  (hdue : at_ + s.fbTime k ≤ s.psc.time)
include hon hch hdue

theorem feedbackCheck_agrees (h : s.sup.vioDriven = false ∨ (sfb == 0) = (s.sout k).on) :
    feedbackCheck k sfb s = s.modSout k (fun o => { o with changedAt := none }) := by
  unfold feedbackCheck
  dsimp only
  rw [hch]
  dsimp only
  rw [if_neg (by simp [hon, Nat.not_lt.mpr hdue]), if_pos (by rcases h with h | h <;> simp [h])]

theorem feedbackCheck_differs (h : (sfb == 0) ≠ (s.sout k).on) (hvio : s.sup.vioDriven = true) :
    ∃ u : State, exec (.feedbackCheck k sfb) s = .next (u.pscBump 2).showOuts ∧ (u.sout k).fault = true ∧ (u.sout k).on = false ∧
      (u.sout k).a = false ∧ (u.sout k).b = false ∧ (∀ j, j ≠ k → u.sout j = s.sout j) ∧ u.regs = s.regs := by
  have hne : ¬ (!s.sup.vioDriven || (sfb == 0) == (s.sout k).on) = true := by
    rw [hvio, Bool.not_true, Bool.false_or, beq_iff_eq]
    exact h
  have heq : feedbackCheck k sfb s = ((s.modSout k (fun o => { o with
      fault := true, on := false, a := false, b := false, changedAt := if o.on then some s.psc.time else none })).pscBump 2).showOuts := by
    unfold feedbackCheck
    dsimp only
    rw [hch]
    dsimp only
    rw [if_neg (by simp [hon, Nat.not_lt.mpr hdue]), if_neg hne]
  refine ⟨_, congrArg Host.Outcome.next heq, ?_, ?_, ?_, ?_, fun j hj => sout_modSout_ne s hj _, rfl⟩ <;> rw [sout_modSout_same]

end Feedback

/-! ### Proof tests -/

section Proof

variable {s : State} {k : Nat} {sfb : Bool}

/-- A step of a proof test fails. -/
def State.proofFails (s : State) (k : Nat) (sfb : Bool) : Prop :=
  if s.psc.proofStep = 0 then sfb = false ∨ s.psc.proofLow = true
  else s.psc.proofAt + s.fbTime k < s.psc.time ∨ (s.psc.time = s.psc.proofAt + s.fbTime k ∧ sfb ≠ (s.psc.proofStep % 2 == 0))

/-- A step of a proof test is over. -/
def State.proofEnds (s : State) (k : Nat) (sfb : Bool) : Prop :=
  if s.psc.proofStep = 0 then s.psc.proofAt + 400 ≤ s.psc.time
  else s.psc.time ≤ s.psc.proofAt + s.fbTime k ∧ sfb = (s.psc.proofStep % 2 == 0)

theorem proofStepEnds_of_fails (h : s.proofFails k sfb) : s.proofStepEnds k sfb = some false := by
  unfold State.proofFails at h
  unfold State.proofStepEnds
  dsimp only
  by_cases h0 : s.psc.proofStep = 0
  · rw [if_pos h0] at h ⊢
    exact if_pos (by rcases h with h | h <;> simp [h])
  · rw [if_neg h0] at h ⊢
    rcases h with h | ⟨heq, h⟩
    · exact if_pos (decide_eq_true h)
    · rw [if_neg (by simp [heq]), if_neg (by simpa using h), if_pos heq]

theorem proofStepEnds_of_waits (hf : ¬ s.proofFails k sfb) (he : ¬ s.proofEnds k sfb) : s.proofStepEnds k sfb = none := by
  unfold State.proofFails at hf
  unfold State.proofEnds at he
  unfold State.proofStepEnds
  dsimp only
  by_cases h0 : s.psc.proofStep = 0
  · rw [if_pos h0] at hf he ⊢
    rw [if_neg (by simpa using hf), if_neg (by simpa using he)]
  · rw [if_neg h0] at hf he ⊢
    obtain ⟨hle, hne⟩ := not_or.mp hf
    have hns : ¬ sfb = (s.psc.proofStep % 2 == 0) := fun h => he ⟨Nat.not_lt.mp hle, h⟩
    rw [if_neg (by simpa using hle), if_neg (by simpa using hns), if_neg (fun h => hne ⟨h, hns⟩)]

theorem proofStepEnds_of_ends (hf : ¬ s.proofFails k sfb) (he : s.proofEnds k sfb) : s.proofStepEnds k sfb = some true := by
  unfold State.proofFails at hf
  unfold State.proofEnds at he
  unfold State.proofStepEnds
  dsimp only
  by_cases h0 : s.psc.proofStep = 0
  · rw [if_pos h0] at hf he ⊢
    rw [if_neg (by simpa using hf), if_pos (decide_eq_true he)]
  · rw [if_neg h0] at hf he ⊢
    obtain ⟨hle, hs⟩ := he
    rw [if_neg (by simpa using hle), if_pos (beq_iff_eq.mpr hs)]

variable (hon : s.islandOn = true) (hp : s.psc.proof ≠ none) (hk : s.psc.proofK = k)
include hon hp hk

theorem proofTestStep_eq : proofTestStep k sfb s = match s.proofStepEnds k sfb with
    | none => s
    | some false => s.proofDone k false
    | some true => if 4 ≤ s.psc.proofStep then s.proofDone k true
      else (s.modSout k (fun o => { o with
          a := s.psc.proofStep == 0 && s.sup.vioDriven, b := s.psc.proofStep == 2 && s.sup.vioDriven })).modPsc
        (fun p => { p with proofStep := s.psc.proofStep + 1, proofAt := p.time }) := by
  unfold proofTestStep
  exact if_neg (by simp [hon, hp, hk])

theorem proofTestStep_fails (h : s.proofFails k sfb) : proofTestStep k sfb s = s.proofDone k false := by
  rw [proofTestStep_eq hon hp hk, proofStepEnds_of_fails h]

theorem proofTestStep_waits (hf : ¬ s.proofFails k sfb) (he : ¬ s.proofEnds k sfb) : proofTestStep k sfb s = s := by
  rw [proofTestStep_eq hon hp hk, proofStepEnds_of_waits hf he]

theorem proofTestStep_last (hf : ¬ s.proofFails k sfb) (he : s.proofEnds k sfb) (h4 : 4 ≤ s.psc.proofStep) :
    proofTestStep k sfb s = s.proofDone k true := by
  rw [proofTestStep_eq hon hp hk, proofStepEnds_of_ends hf he]
  exact if_pos h4

theorem proofTestStep_next (hf : ¬ s.proofFails k sfb) (he : s.proofEnds k sfb) (h4 : s.psc.proofStep < 4) :
    ∃ t, exec (.proofTestStep k sfb) s = .next t ∧ t.psc.proofStep = s.psc.proofStep + 1 ∧ t.psc.proofAt = s.psc.time ∧
      (t.sout k).a = (s.psc.proofStep == 0 && s.sup.vioDriven) ∧ (t.sout k).b = (s.psc.proofStep == 2 && s.sup.vioDriven) ∧
      (∀ j, j ≠ k → t.sout j = s.sout j) ∧ t.regs = s.regs ∧ t.mem = s.mem := by
  let u := s.modSout k (fun o => { o with
    a := s.psc.proofStep == 0 && s.sup.vioDriven, b := s.psc.proofStep == 2 && s.sup.vioDriven })
  have heq : proofTestStep k sfb s = u.modPsc (fun p => { p with proofStep := s.psc.proofStep + 1, proofAt := p.time }) := by
    rw [proofTestStep_eq hon hp hk, proofStepEnds_of_ends hf he]
    exact if_neg (Nat.not_le.mpr h4)
  have hsout (j : Nat) : (u.modPsc (fun p => { p with proofStep := s.psc.proofStep + 1, proofAt := p.time })).sout j = u.sout j := rfl
  refine ⟨_, congrArg Host.Outcome.next heq, rfl, rfl, ?_, ?_, fun j hj => ?_, rfl, rfl⟩
  · rw [hsout, sout_modSout_same]
  · rw [hsout, sout_modSout_same]
  · rw [hsout, sout_modSout_ne _ hj]

end Proof

/-- Settles O37: a cycle by what the island evaluates, a fault by its cause, a test by the island's own time. -/
theorem islandCyclesFaultsAndTests : Obligations.IslandCyclesFaultsAndTests := by
  refine ⟨fun s hon => ⟨fun x hev => islandCycle_idle_next s x hon hev, fun x hev => ?_,
     fun h5 h0 => ⟨congrArg Host.Outcome.next (islandFaultEvent_eq hon h5 h0 .lockstep),
       congrArg Host.Outcome.next (islandFaultEvent_eq hon h5 h0 .memory), congrArg Host.Outcome.next (islandFaultEvent_eq hon h5 h0 .clock),
       fun hp hcrc => congrArg Host.Outcome.next (islandFaultEvent_paramCrc hon h5 h0 hp hcrc)⟩,
     fun h => congrArg Host.Outcome.next (islandSelftestDone_next hon h)⟩,
   fun s hon => ⟨fun b hev ht => congrArg Host.Outcome.next (testPulse_next b hon hev ht), fun _ _ _ hq => cpwUpdate_next s hon hq,
     fun h => congrArg Host.Outcome.next (cpwTimeout_next hon h),
     fun _ _ hev hc hen ht => arcSelftest_next s hon hev hc hen ht,
     fun _ _ _ hch hdue => ⟨fun h => congrArg Host.Outcome.next (feedbackCheck_agrees hon hch hdue h),
       fun h hvio => feedbackCheck_differs hon hch hdue h hvio⟩,
     fun _ _ hp hk => ⟨fun h => congrArg Host.Outcome.next (proofTestStep_fails hon hp hk h),
       fun hf he => congrArg Host.Outcome.next (proofTestStep_waits hon hp hk hf he),
       fun hf he h4 => congrArg Host.Outcome.next (proofTestStep_last hon hp hk hf he h4),
       fun hf he h4 => proofTestStep_next hon hp hk hf he h4⟩⟩⟩
  intro t ends a b c d
  have ha : a = (s.islandSamples x).proofSeen x := rfl
  have hb : b = (a.pulsesPassed t).arcChannels x.arc t := rfl
  have hb : b = s.cycleLit x := by rw [hb, ha, State.cycleLit, State.cyclePassed]
  have hc : c = (s.cycleLit x).cycleSupplied.islandDecide := congrArg (fun v : State => v.cycleSupplied.islandDecide) hb
  have hd : d = (s.cycleLit x).cycleSupplied.islandDecide.proofAgain := congrArg State.proofAgain hc
  rw [hd]
  exact congrArg Host.Outcome.next (islandCycle_runs x hon hev)

end Sys2Proof.Machine
end

section
/-! O38: events of the Dome. -/
namespace Sys2Proof.Machine

-- one proof after the other: started together they wait on each other's results, each in a thread of its own
set_option Elab.async false

theorem modNode_touches {s : State} {i : Nat} {f : Node → Node} :
    Touches [.dom] s (State.modNode s i f) := by
  unfold State.modNode
  repeat' first
    | with_reducible assumption
    | with_reducible exact Touches.refl _ _
    | (dsimp only [Touches.mk_eq]; dsimp only [TouchesD]; with_reducible apply Touches.set_dom (x := _))

theorem createTop_touches {s : State} :
    Touches [.dom] s (State.createTop s) := by
  unfold State.createTop
  repeat' first
    | with_reducible assumption
    | with_reducible exact Touches.refl _ _
    | (dsimp only [Touches.mk_eq]; dsimp only [TouchesD]; with_reducible apply Touches.set_dom (x := _))
    | with_reducible apply Touches.via modNode_touches
    | with_reducible apply Touches.foldl
    | with_reducible apply Touches.foldl2
    | (intro _; intros; try beta_reduce)

theorem sweep_touches {s : State} :
    Touches [.regs, .dom] s (State.sweep s) := by
  unfold State.sweep
  repeat' first
    | with_reducible assumption
    | with_reducible exact Touches.refl _ _
    | (extract_lets +onlyGivenNames x; refine Touches.cut (l := [.regs, .dom]) (s := s) (t := x) ?_ (fun hx => ?_); (on_goal 1 => (unfold x; clear x)); (on_goal 2 => clear_value x))
    | (extract_lets +onlyGivenNames x; (have hv : x = x := by unfold x; exact Eq.refl _); clear hv; clear_value x)
    | with_reducible apply Touches.ite
    | with_reducible apply Touches.via modNode_touches
    | with_reducible apply Touches.via bumpBy_touches
    | with_reducible apply Touches.foldl
    | with_reducible apply Touches.foldl2
    | (intro _; intros; try beta_reduce)

theorem mergeInto_all {k : Nat} {s : State} {e : BelEntry} :
    WritesFields k [F.BLF_CNT_COUNT.nth 1] s (State.mergeInto s e) := by
  unfold State.mergeInto
  repeat' first
    | with_reducible assumption
    | with_reducible exact WritesFields.refl _ _ _
    | (extract_lets +onlyGivenNames x; refine WritesFields.cut (k := k) (W := [F.BLF_CNT_COUNT.nth 1]) (s := s) (t := x) ?_ (fun hx => ?_); (on_goal 1 => (unfold x; clear x)); (on_goal 2 => clear_value x))
    | (extract_lets +onlyGivenNames x; (have hv : x = x := by unfold x; exact Eq.refl _); clear hv; clear_value x)
    | with_reducible apply WritesFields.via ((wr64_touches).writesFields _)
    | with_reducible apply WritesFields.via (bump_writes (f := F.BLF_CNT_COUNT.nth 1))

theorem newRecord_all {k : Nat} {s : State} {e : BelEntry} {staged : Bool} :
    WritesFields k [F.BLF_CNT_COUNT.nth 0, F.BLF_NEXT_RSEQ_RSEQ, F.BLF_STATUS_FIRST_FULL] s (State.newRecord s e staged) := by
  unfold State.newRecord
  repeat' first
    | with_reducible assumption
    | with_reducible exact WritesFields.refl _ _ _
    | (dsimp only [WritesFields.mk_eq]; with_reducible apply WritesRegs.of)
    | (extract_lets +onlyGivenNames x; refine WritesFields.cut (k := k) (W := [F.BLF_CNT_COUNT.nth 0, F.BLF_NEXT_RSEQ_RSEQ, F.BLF_STATUS_FIRST_FULL]) (s := s) (t := x) ?_ (fun hx => ?_); (on_goal 1 => (unfold x; clear x)); (on_goal 2 => clear_value x))
    | (extract_lets +onlyGivenNames x; (have hv : x = x := by unfold x; exact Eq.refl _); clear hv; clear_value x)
    | with_reducible apply WritesFields.ite
    | with_reducible apply WritesFields.via ((wrWords_touches).writesFields _)
    | with_reducible apply WritesFields.via (bump_writes (f := F.BLF_CNT_COUNT.nth 0))
    | with_reducible apply WritesFields.via (setB_writes (f := F.BLF_STATUS_FIRST_FULL))
    | with_reducible apply WritesFields.via (setF_writes (f := F.BLF_NEXT_RSEQ_RSEQ))

theorem writeEntry_all {k : Nat} {s : State} {e : BelEntry} {staged : Bool} :
    WritesFields k [F.BLF_CNT_COUNT.nth 0, F.BLF_CNT_COUNT.nth 1, F.BLF_NEXT_RSEQ_RSEQ, F.BLF_STATUS_FIRST_FULL] s (State.writeEntry s e staged) := by
  unfold State.writeEntry
  repeat' first
    | with_reducible assumption
    | with_reducible exact WritesFields.refl _ _ _
    | with_reducible apply WritesFields.ite
    | with_reducible apply WritesFields.via mergeInto_all
    | with_reducible apply WritesFields.via newRecord_all

theorem stageEntry_all {k : Nat} {s : State} {e : BelEntry} :
    WritesFields k [F.BLF_CNT_COUNT.nth 2] s (State.stageEntry s e) := by
  unfold State.stageEntry
  repeat' first
    | with_reducible assumption
    | with_reducible exact WritesFields.refl _ _ _
    | (dsimp only [WritesFields.mk_eq]; with_reducible apply WritesRegs.of)
    | (extract_lets +onlyGivenNames x; (have hv : x = x := by unfold x; exact Eq.refl _); clear hv; clear_value x)
    | with_reducible apply WritesFields.ite
    | with_reducible apply WritesFields.via (bump_writes (f := F.BLF_CNT_COUNT.nth 2))

theorem belfry_all {k : Nat} {s : State} {kind code source : Nat} {payload : List Nat} :
    WritesFields k [F.BLF_CNT_COUNT.nth 0, F.BLF_CNT_COUNT.nth 1, F.BLF_CNT_COUNT.nth 2, F.BLF_NEXT_RSEQ_RSEQ, F.BLF_STATUS_FIRST_FULL] s (State.belfry s kind code source payload) := by
  unfold State.belfry
  repeat' first
    | with_reducible assumption
    | with_reducible exact WritesFields.refl _ _ _
    | (extract_lets +onlyGivenNames x; (have hv : x = x := by unfold x; exact Eq.refl _); clear hv; clear_value x)
    | with_reducible apply WritesFields.ite
    | with_reducible apply WritesFields.via stageEntry_all
    | with_reducible apply WritesFields.via writeEntry_all

theorem sweep_all {k : Nat} {s : State} :
    WritesFields k [F.DOM_CNT_COUNT.nth 1] s (State.sweep s) := by
  unfold State.sweep
  repeat' first
    | with_reducible assumption
    | with_reducible exact WritesFields.refl _ _ _
    | (extract_lets +onlyGivenNames x; refine WritesFields.cut (k := k) (W := [F.DOM_CNT_COUNT.nth 1]) (s := s) (t := x) ?_ (fun hx => ?_); (on_goal 1 => (unfold x; clear x)); (on_goal 2 => clear_value x))
    | (extract_lets +onlyGivenNames x; (have hv : x = x := by unfold x; exact Eq.refl _); clear hv; clear_value x)
    | with_reducible apply WritesFields.ite
    | with_reducible apply WritesFields.via ((modNode_touches).writesFields _)
    | with_reducible apply WritesFields.via (bumpBy_writes (f := F.DOM_CNT_COUNT.nth 1))
    | with_reducible apply WritesFields.foldl
    | with_reducible apply WritesFields.foldl2
    | (intro _; intros; try beta_reduce)


/-! ### The state of the Dome -/

/-- The root, the challenge and the opening of the debug port stay. -/
structure State.SameDome (s t : State) : Prop where
  root : t.dom.root = s.dom.root
  challenge : t.dom.challenge = s.dom.challenge
  openStatus : t.dom.openStatus = s.dom.openStatus

theorem State.SameDome.refl (s : State) : s.SameDome s := ⟨rfl, rfl, rfl⟩

theorem State.SameDome.trans {s t u : State} (h : s.SameDome t) (k : t.SameDome u) : s.SameDome u :=
  ⟨k.root.trans h.root, k.challenge.trans h.challenge, k.openStatus.trans h.openStatus⟩

theorem State.SameDome.of_dom {s t : State} (h : t.dom = s.dom) : s.SameDome t := ⟨congrArg _ h, congrArg _ h, congrArg _ h⟩

theorem State.SameDome.foldl {β : Type} {f : State → β → State} (hf : ∀ u b, State.SameDome u (f u b)) (bs : List β) (s : State) :
    s.SameDome (bs.foldl f s) := by
  induction bs generalizing s with
  | nil => exact .refl s
  | cons b bs ih => exact (hf s b).trans (ih _)

theorem modNode_sameDome (s : State) (i : Nat) (f : Node → Node) : s.SameDome (s.modNode i f) := ⟨rfl, rfl, rfl⟩

theorem extendMs_sameDome (s : State) (i d : Nat) : s.SameDome (s.extendMs i d) := ⟨rfl, rfl, rfl⟩

theorem bootMeasure_sameDome (s : State) (slots : List Nat) : s.SameDome (s.bootMeasure slots) :=
  .foldl (fun u i => extendMs_sameDome u i _) slots s

theorem sweep_sameDome (s : State) : s.SameDome s.sweep := by
  unfold State.sweep
  extract_lets gone t
  have ht : s.SameDome t := .foldl (fun u p => modNode_sameDome u p.1 _) gone s
  exact ht.trans (.of_dom bumpBy_touches.dom_eq)

theorem createTop_sameDome (s : State) : s.SameDome s.createTop := by
  unfold State.createTop
  extract_lets a b
  have ha : s.SameDome a := modNode_sameDome s 2 _
  have hb : a.SameDome b := .foldl (fun u i => modNode_sameDome u i _) [7, 8] a
  exact (ha.trans hb).trans ⟨rfl, rfl, rfl⟩

/-! ### DOME_RESTART -/

/-- The Dome begun again, with the counts of the attempts that ended it. -/
def State.domeTried (s : State) (bits : List Nat) (n : Nat) : State :=
  let s := { s with dom := { s.dom with ms := [], msCount := [], challenge := none, akStmt := [], openStatus := none } }
  let s := s.bootMeasure [0, 1, 2, 3]
  let s := (s.setF F.DOM_STATUS_DEBUG_CNT s.dom.fuses).setF F.DOM_ROOT_STAT_MAX_CORR (bits.foldl max 0)
  let s := (s.setF F.DOM_ROOT_STAT_TOTAL_CORR (sumN bits)).setF F.DOM_ROOT_STAT_ATTEMPTS n
  s.bumpBy (F.DOM_CNT_COUNT.nth 7) (n - 1)

/-- The Dome ready with the root of some blocks. -/
def State.domeReady (s : State) (blocks : List (Nat × Nat)) : State :=
  let mx := (blocks.map Prod.fst).foldl max 0
  let s := { s with dom := { s.dom with
    root := some (rootOf blocks), anchorKey := Config.anchorKey (rootOf blocks), dikPub := Config.ecPublic (ecKey (rootOf blocks) "SK9-DIK") } }
  let s := ((s.setF F.DOM_STATUS_DSTATE 1).setB F.DOM_STATUS_ROOT_MARGINAL (decide (12 < mx))).sweep.createTop
  if 12 < mx then s.belfry 1 0x0007 0 [mx, sumN (blocks.map Prod.fst)] else s

theorem domeTried_dom (s : State) (bits : List Nat) (n : Nat) :
    (s.domeTried bits n).dom.challenge = none ∧ (s.domeTried bits n).dom.openStatus = none := by
  unfold State.domeTried
  extract_lets src a b c d
  have hb : a.SameDome b := bootMeasure_sameDome a _
  have hd : Touches [.regs] b (d.bumpBy (F.DOM_CNT_COUNT.nth 7) (n - 1)) :=
    .via bumpBy_touches (.via setF_touches (.via setF_touches (.via setF_touches (.via setF_touches (.refl _ _)))))
  have hall : a.SameDome (d.bumpBy (F.DOM_CNT_COUNT.nth 7) (n - 1)) := hb.trans (.of_dom hd.dom_eq)
  exact ⟨hall.challenge, hall.openStatus⟩

/-- The Dome with its root set, before its state is shown. -/
def State.rooted (s : State) (blocks : List (Nat × Nat)) : State :=
  { s with dom := { s.dom with
    root := some (rootOf blocks), anchorKey := Config.anchorKey (rootOf blocks), dikPub := Config.ecPublic (ecKey (rootOf blocks) "SK9-DIK") } }

/-- The top of the key tree made again under a new root. -/
def State.topMade (s : State) (marginal : Bool) : State :=
  ((s.setF F.DOM_STATUS_DSTATE 1).setB F.DOM_STATUS_ROOT_MARGINAL marginal).sweep.createTop

theorem domeReady_eq (s : State) (blocks : List (Nat × Nat)) : s.domeReady blocks =
    if 12 < (blocks.map Prod.fst).foldl max 0 then
      ((s.rooted blocks).topMade (decide (12 < (blocks.map Prod.fst).foldl max 0))).belfry 1 0x0007 0
        [(blocks.map Prod.fst).foldl max 0, sumN (blocks.map Prod.fst)]
    else (s.rooted blocks).topMade (decide (12 < (blocks.map Prod.fst).foldl max 0)) := rfl

theorem topMade_sameDome (s : State) (marginal : Bool) : s.SameDome (s.topMade marginal) := by
  have hset : Touches [.regs] s ((s.setF F.DOM_STATUS_DSTATE 1).setB F.DOM_STATUS_ROOT_MARGINAL marginal) :=
    .via setB_touches (.via setF_touches (.refl _ _))
  exact (State.SameDome.of_dom hset.dom_eq).trans ((sweep_sameDome _).trans (createTop_sameDome _))

theorem topMade_writes {k : Nat} (s : State) (marginal : Bool) :
    WritesFields k [F.DOM_STATUS_ROOT_MARGINAL, F.DOM_CNT_COUNT.nth 1] (s.setF F.DOM_STATUS_DSTATE 1) (s.topMade marginal) :=
  .via (createTop_touches.writesFields _) (.via sweep_all (.via setB_writes (.refl _ _ _)))

theorem topMade_dstate (s : State) (marginal : Bool) : (s.topMade marginal).get F.DOM_STATUS_DSTATE = 1 :=
  ((topMade_writes (k := 2 ^ 64) s marginal).get_eq (by decide) (by decide)).trans (State.get_setF_same _ _ _)

theorem domeReady_dstate (s : State) (blocks : List (Nat × Nat)) : (s.domeReady blocks).get F.DOM_STATUS_DSTATE = 1 := by
  rw [domeReady_eq]
  split
  · rw [(belfry_all (k := 2 ^ 64)).get_eq (by decide) (by decide), topMade_dstate]
  · exact topMade_dstate _ _

theorem domeReady_sameDome (s : State) (blocks : List (Nat × Nat)) : (s.rooted blocks).SameDome (s.domeReady blocks) := by
  rw [domeReady_eq]
  split
  · exact (topMade_sameDome _ _).trans (.of_dom belfry_touches.dom_eq)
  · exact topMade_sameDome _ _

/-- The attempt that DOME_RESTART ends with, if one passes. -/
def State.wonTry (s : State) (l : List (List PufBlock)) : Option (List PufBlock) := ((l.take 3).filter s.attemptOk).head?

/-- The number of attempts made. -/
def State.triesMade (s : State) (l : List (List PufBlock)) : Nat :=
  match (l.take 3).findIdx? s.attemptOk with | some i => i + 1 | none => 3

/-- The blocks that the last attempt decoded. -/
def State.lastBlocks (s : State) (l : List (List PufBlock)) : List (Nat × Nat) :=
  s.decoded ((s.wonTry l).getD ((l.take 3).getLastD []))

/-- The Dome as DOME_RESTART leaves it. -/
def State.domeEnded (s : State) (l : List (List PufBlock)) : State :=
  match s.wonTry l with
  | none => (s.domeTried ((s.lastBlocks l).map Prod.fst) (s.triesMade l)).setF F.DOM_STATUS_DSTATE 2
  | some _ => (s.domeTried ((s.lastBlocks l).map Prod.fst) (s.triesMade l)).domeReady (s.lastBlocks l)

theorem wonTry_isSome_iff (s : State) (l : List (List PufBlock)) : (s.wonTry l).isSome ↔ ∃ a ∈ l.take 3, s.attemptOk a = true := by
  rw [State.wonTry, List.isSome_head?, ne_eq, List.filter_eq_nil_iff]
  simp

theorem domeRestart_eq {s : State} {l : List (List PufBlock)} (hd : s.dstate = 0) (hp : s.sup.pwrok = true) (hc : s.sup.inCold = false)
    (hend : (∃ a ∈ l.take 3, s.attemptOk a = true) ∨ 3 ≤ l.length) :
    domeRestart l s = (s.keysFollow ((s.domeEnded l).pufRecord (((s.lastBlocks l).map Prod.fst).foldl max 0)
      (sumN ((s.lastBlocks l).map Prod.fst)) (s.triesMade l))).evalReady := by
  have hno : ¬ (s.dstate ≠ 0 ∨ (!s.sup.pwrok) = true ∨ s.sup.inCold = true ∨ (s.wonTry l = none ∧ (l.take 3).length < 3)) := by
    rintro (h | h | h | ⟨h, hlen⟩)
    · exact h hd
    · rw [hp] at h
      exact Bool.false_ne_true h
    · exact Bool.false_ne_true (hc.symm.trans h)
    · rcases hend with hok | h3
      · exact Option.isSome_iff_ne_none.mp ((wonTry_isSome_iff s l).mpr hok) h
      · rw [List.length_take] at hlen
        omega
  unfold domeRestart
  exact if_neg hno

theorem domeEnded_dstate (s : State) (l : List (List PufBlock)) : (s.domeEnded l).get F.DOM_STATUS_DSTATE =
    (if ∃ a ∈ l.take 3, s.attemptOk a = true then 1 else 2) := by
  rw [if_congr (wonTry_isSome_iff s l).symm rfl rfl]
  unfold State.domeEnded
  cases s.wonTry l with
  | none => exact State.get_setF_same _ _ _
  | some a => exact domeReady_dstate _ _

theorem domeEnded_dom (s : State) (l : List (List PufBlock)) :
    (s.domeEnded l).dom.challenge = none ∧ (s.domeEnded l).dom.openStatus = none := by
  obtain ⟨hch, hopen⟩ := domeTried_dom s ((s.lastBlocks l).map Prod.fst) (s.triesMade l)
  unfold State.domeEnded
  cases s.wonTry l with
  | none => exact ⟨hch, hopen⟩
  | some a =>
    have hsame := domeReady_sameDome (s.domeTried ((s.lastBlocks l).map Prod.fst) (s.triesMade l)) (s.lastBlocks l)
    exact ⟨hsame.challenge.trans hch, hsame.openStatus.trans hopen⟩

theorem domeEnded_root (s : State) (l : List (List PufBlock)) {a : List PufBlock} (ha : s.wonTry l = some a) :
    (s.domeEnded l).dom.root = some (rootOf (s.decoded a)) ∧ checkOf (rootOf (s.decoded a)) = s.dom.check := by
  constructor
  · have hlast : s.lastBlocks l = s.decoded a := by rw [State.lastBlocks, ha, Option.getD_some]
    unfold State.domeEnded
    rw [ha]
    exact (domeReady_sameDome _ _).root.trans (congrArg (fun b => some (rootOf b)) hlast)
  · have hok : s.attemptOk a = true := List.of_mem_filter (List.mem_of_mem_head? ha)
    simp only [State.attemptOk, Bool.and_eq_true, beq_iff_eq] at hok
    obtain ⟨_, hcheck⟩ := hok
    exact hcheck

theorem domeRestart_next (s : State) (l : List (List PufBlock)) (hd : s.dstate = 0) (hp : s.sup.pwrok = true) (hc : s.sup.inCold = false)
    (hend : (∃ a ∈ l.take 3, s.attemptOk a = true) ∨ 3 ≤ l.length) :
    ∃ (u : State) (mx total n : Nat), exec (.domeRestart l) s = .next (s.keysFollow (u.pufRecord mx total n)).evalReady ∧
      u.get F.DOM_STATUS_DSTATE = (if ∃ a ∈ l.take 3, s.attemptOk a = true then 1 else 2) ∧
      (∀ a, ((l.take 3).filter s.attemptOk).head? = some a → u.dom.root = some (rootOf (s.decoded a)) ∧
        checkOf (rootOf (s.decoded a)) = s.dom.check) ∧
      u.dom.challenge = none ∧ u.dom.openStatus = none := by
  obtain ⟨hch, hopen⟩ := domeEnded_dom s l
  exact ⟨s.domeEnded l, _, _, _, congrArg Host.Outcome.next (domeRestart_eq hd hp hc hend), domeEnded_dstate s l,
    fun a ha => domeEnded_root s l ha, hch, hopen⟩

/-! ### Group keys -/

theorem node_modNode_same (s : State) {i : Nat} (h : i ≠ 0 ∧ i ≠ 1 ∧ i ≠ 3) (f : Node → Node) : (s.modNode i f).node i = f (s.node i) := by
  obtain ⟨h0, h1, h3⟩ := h
  have hnode (t : State) : t.node i = Tbl.get {} i t.dom.nodes := by
    unfold State.node
    split <;> simp_all
  rw [hnode, hnode]
  show Tbl.get {} i (Tbl.mod {} i f s.dom.nodes) = _
  rw [Tbl.get_mod, if_pos rfl]

theorem node_modNode_ne (s : State) {i j : Nat} (h : j ≠ i) (f : Node → Node) : (s.modNode i f).node j = s.node j := by
  have hget : Tbl.get {} j (s.modNode i f).dom.nodes = Tbl.get {} j s.dom.nodes := by
    show Tbl.get {} j (Tbl.mod {} i f s.dom.nodes) = _
    rw [Tbl.get_mod, if_neg h]
  unfold State.node
  split
  · rfl
  · rfl
  · rfl
  · exact hget

/-- The chain above a node is live where the tree is the same. -/
theorem chainLive_congr {s t : State} (h : ∀ j, (t.node j).kind = (s.node j).kind ∧ (t.node j).destroyed = (s.node j).destroyed ∧
    (t.node j).parent = (s.node j).parent) (fuel i : Nat) : t.chainLive fuel i = s.chainLive fuel i := by
  induction fuel generalizing i with
  | zero => rfl
  | succ fuel ih =>
    obtain ⟨hkind, hdes, hpar⟩ := h i
    unfold State.chainLive
    dsimp only
    rw [hkind, hdes, hpar, ih]

/-- An edit of a node that leaves its place in the tree. -/
structure SamePlace (f : Node → Node) : Prop where
  kind : ∀ n, (f n).kind = n.kind
  destroyed : ∀ n, (f n).destroyed = n.destroyed
  parent : ∀ n, (f n).parent = n.parent

/-- The seal that an edit of a group node puts on it. -/
def State.sealOf (s : State) (i : Nat) (f : Node → Node) : Node :=
  { f (s.node i) with sealed := Config.gcmSeal ((s.modNode i f).wrapKey i) (f (s.node i)).secret }

theorem node_modKeys_same (s : State) {i : Nat} (h : i ≠ 0 ∧ i ≠ 1 ∧ i ≠ 3) (f : Node → Node) : (s.modKeys i f).node i = s.sealOf i f := by
  unfold State.modKeys
  extract_lets t
  rw [node_modNode_same t h, node_modNode_same s h]
  rfl

theorem node_modKeys_ne (s : State) {i j : Nat} (h : j ≠ i) (f : Node → Node) : (s.modKeys i f).node j = s.node j := by
  unfold State.modKeys
  extract_lets t
  rw [node_modNode_ne t h, node_modNode_ne s h]

theorem modKeys_place (s : State) {i : Nat} (h : i ≠ 0 ∧ i ≠ 1 ∧ i ≠ 3) {f : Node → Node} (hf : SamePlace f) (j : Nat) :
    ((s.modKeys i f).node j).kind = (s.node j).kind ∧ ((s.modKeys i f).node j).destroyed = (s.node j).destroyed ∧
      ((s.modKeys i f).node j).parent = (s.node j).parent := by
  by_cases hj : j = i
  · subst hj
    rw [node_modKeys_same s h]
    exact ⟨hf.kind _, hf.destroyed _, hf.parent _⟩
  · rw [node_modKeys_ne s hj]
    exact ⟨rfl, rfl, rfl⟩

/-- A group node that holds a key is live and of its kind. -/
theorem groupNode_of_key {s : State} {i : Nat} (h : (s.groupNode i).cur ≠ none ∨ (s.groupNode i).nxt ≠ none) :
    s.nodeLive i = true ∧ (s.node i).kind = 4 ∧ s.groupNode i = s.node i := by
  by_cases hl : (s.nodeLive i && (s.node i).kind == 4) = true
  · have hg : s.groupNode i = s.node i := if_pos hl
    rw [Bool.and_eq_true, beq_iff_eq] at hl
    exact ⟨hl.1, hl.2, hg⟩
  · have hg : s.groupNode i = {} := if_neg hl
    rw [hg] at h
    exact absurd h (by decide)

theorem place_of_group {s : State} {i : Nat} (h : (s.node i).kind = 4) : i ≠ 0 ∧ i ≠ 1 ∧ i ≠ 3 := by
  refine ⟨?_, ?_, ?_⟩ <;> rintro rfl <;> exact absurd h (fun hk => by simp [State.node] at hk)

theorem nodeLive_group_iff {s : State} {i : Nat} (h : (s.node i).kind = 4) :
    s.nodeLive i = true ↔ i < 8192 ∧ s.chainLive 7 i = true ∧ s.dstate = 1 := by
  simp [State.nodeLive, State.recordOk, h, and_assoc]

/-- A group node after an edit of its keys. -/
theorem groupNode_modKeys {s : State} {i : Nat} (hl : s.nodeLive i = true) (hk : (s.node i).kind = 4) {f : Node → Node} (hf : SamePlace f)
    (n : Nat) : (((s.modKeys i f).bump (F.DOM_CNT_COUNT.nth n)).groupNode i) = s.sealOf i f := by
  have hplace := place_of_group hk
  have hnode : ((s.modKeys i f).bump (F.DOM_CNT_COUNT.nth n)).node i = s.sealOf i f := node_modKeys_same s hplace f
  have hkind : (((s.modKeys i f).bump (F.DOM_CNT_COUNT.nth n)).node i).kind = 4 := by
    rw [hnode]
    exact (hf.kind _).trans hk
  have hchain : ((s.modKeys i f).bump (F.DOM_CNT_COUNT.nth n)).chainLive 7 i = s.chainLive 7 i :=
    chainLive_congr (t := (s.modKeys i f).bump (F.DOM_CNT_COUNT.nth n)) (modKeys_place s hplace hf) 7 i
  have hds : ((s.modKeys i f).bump (F.DOM_CNT_COUNT.nth n)).dstate = s.dstate := by
    have hcnt : F.DOM_STATUS_DSTATE.key ≠ (F.DOM_CNT_COUNT.nth n).key := by
      have hkey : (F.DOM_CNT_COUNT.nth n).key = F.DOM_CNT_COUNT.key + n * F.DOM_CNT_COUNT.stride * 64 := by
        simp only [Field.nth, Field.key]; omega
      have hlt : F.DOM_STATUS_DSTATE.key < F.DOM_CNT_COUNT.key := by decide
      omega
    exact State.get_setF_ne (s.modKeys i f) _ hcnt
  obtain ⟨hlt, hc, hst⟩ := (nodeLive_group_iff hk).mp hl
  have hlive : ((s.modKeys i f).bump (F.DOM_CNT_COUNT.nth n)).nodeLive i = true :=
    (nodeLive_group_iff hkind).mpr ⟨hlt, hchain.trans hc, hds.trans hst⟩
  exact (if_pos (by rw [hlive, hkind]; decide)).trans hnode

theorem groupNode_advanceTo (s : State) (t : Time) (i : Nat) : (s.advanceTo t).groupNode i = s.groupNode i := rfl

theorem keyActivate_next (s : State) {i : Nat} {k : KeySlot} (h : (s.groupNode i).nxt = some k) :
    let u := ((s.advanceTo (secs k.start)).modKeys i (fun n => { n with cur := some k, nxt := none })).bump (F.DOM_CNT_COUNT.nth 3)
    exec (.keyActivate i) s = .next (s.keysFollow u) ∧ (u.groupNode i).cur = some k ∧ (u.groupNode i).nxt = none ∧
      u.tbu.t48 = max s.tbu.t48 (secs k.start * 2 ^ 32) ∧ u.mem = s.mem ∧ u.slp = s.slp := by
  intro u
  obtain ⟨hl, hk, _⟩ := groupNode_of_key (s := s) (.inr (by rw [h]; exact Option.some_ne_none k))
  have hg : u.groupNode i = (s.advanceTo (secs k.start)).sealOf i (fun n => { n with cur := some k, nxt := none }) :=
    groupNode_modKeys (s := s.advanceTo (secs k.start)) (f := fun n => { n with cur := some k, nxt := none }) hl hk ⟨fun _ => rfl, fun _ => rfl, fun _ => rfl⟩ 3
  have heq : keyActivate i s = s.keysFollow u := by
    unfold keyActivate
    rw [h]
  exact ⟨congrArg Host.Outcome.next heq, by rw [hg]; rfl, by rw [hg]; rfl, rfl, rfl, rfl⟩

theorem keyExpire_next (s : State) {i : Nat} {k : KeySlot} (h : (s.groupNode i).cur = some k) :
    let v := s.advanceTo (secs (k.start + k.lifetime))
    let u := (v.modKeys i (fun n => { n with cur := none })).bump (F.DOM_CNT_COUNT.nth 4)
    exec (.keyExpire i) s = .next (v.keysFollow u) ∧ (u.groupNode i).cur = none ∧ (u.groupNode i).nxt = (s.groupNode i).nxt ∧
      u.tbu.t48 = max s.tbu.t48 (secs (k.start + k.lifetime) * 2 ^ 32) ∧ u.mem = s.mem ∧ u.slp = s.slp := by
  intro v u
  obtain ⟨hl, hk, hnode⟩ := groupNode_of_key (s := s) (.inl (by rw [h]; exact Option.some_ne_none k))
  have hg : u.groupNode i = v.sealOf i (fun n => { n with cur := none }) :=
    groupNode_modKeys (s := v) (f := fun n => { n with cur := none }) hl hk ⟨fun _ => rfl, fun _ => rfl, fun _ => rfl⟩ 4
  have heq : keyExpire i s = v.keysFollow u := by
    unfold keyExpire
    rw [h]
  exact ⟨congrArg Host.Outcome.next heq, by rw [hg]; rfl, by rw [hg, hnode]; rfl, rfl, rfl, rfl⟩

/-! ### The challenge, the debug port and the sweep -/

theorem debugChallengeExpiry_next {s : State} {v : Nat} {at_ : Time} (h : s.dom.challenge = some (v, at_)) :
    debugChallengeExpiry s = { s.advanceTo (at_ + secs 60) with dom := { s.dom with challenge := none } } := by
  unfold debugChallengeExpiry
  rw [h]
  rfl

theorem debugPortClose_next (s : State) : ∃ t, exec .debugPortClose s = .next t ∧ t.sup = { s.sup with dbgEn := false } ∧
    t.get F.DOM_DEBUG_PORT_OPEN = 0 ∧ SameFieldsBut [F.DOM_DEBUG_PORT_OPEN] s t ∧ t.mem = s.mem := by
  have hfields (k : Nat) : WritesFields k [F.DOM_DEBUG_PORT_OPEN] s (debugPortClose s) :=
    .of_regs (t := s.setF F.DOM_DEBUG_PORT_OPEN 0) setF_writes rfl
  refine ⟨_, exec_debugPortClose s, rfl, ?_, WritesFields.sameFieldsBut hfields, rfl⟩
  have hget : (debugPortClose s).get F.DOM_DEBUG_PORT_OPEN = (s.setF F.DOM_DEBUG_PORT_OPEN 0).get F.DOM_DEBUG_PORT_OPEN := rfl
  exact hget.trans ((State.get_setF_same _ _ _).trans (Nat.zero_mod _))

theorem keySweepDone_next {s : State} (h : ∃ p ∈ s.dom.nodes, s.doomed 7 p.1 = true) :
    keySweepDone s = if (s.sweep.node 2).kind = 0 ∧ s.sweep.dstate = 1 then s.sweep.createTop.tlsCloseAll
      else if (s.sweep.node 8).kind = 0 then s.sweep.tlsCloseAll else s.sweep :=
  if_pos (List.any_eq_true.mpr h)

/-- Settles O38: the Dome's restart by its attempts, a group key by its times, and what ends a challenge, the port and a node. -/
theorem domeEventsChangeItsState : Obligations.DomeEventsChangeItsState := fun s =>
  ⟨fun l hd hp hc hend => domeRestart_next s l hd hp hc hend, fun _ _ h => keyActivate_next s h, fun _ _ h => keyExpire_next s h,
   fun _ _ h => congrArg Host.Outcome.next (debugChallengeExpiry_next h), debugPortClose_next s,
   fun h => congrArg Host.Outcome.next (keySweepDone_next h)⟩

end Sys2Proof.Machine
end

section
/-! O39: the mailbox and the TLS sessions. -/
namespace Sys2Proof.Machine

-- one proof after the other: started together they wait on each other's results, each in a thread of its own
set_option Elab.async false

/-! ### The mailbox -/

section Mailbox

variable {s : State} {m : Master} {n v : Nat} (hn : n < 128) (hst : s.sliceState n ∈ [1, 2, 3, 4, 5]) (hup : s.masterUp m = true)

theorem mbxDoorbell_down (hc : s.sup.coresUp = false) : mbxDoorbell m n v s = s := by
  unfold mbxDoorbell
  exact if_pos (by rw [hc]; decide)

include hn hst hup

theorem mbxDoorbell_granted (hc : s.sup.coresUp = true) (hg : regGrant (s.actor m) (spAddr n 0x8000) true = true) :
    mbxDoorbell m n v s = { (if v % 2 = 0 then s
      else if s.flag (F.TMC_MBX_STATUS_REQ_BUSY.pg n) then s.bump (F.TMC_MBX_CNT_DB_IGNORED.pg n)
      else s.packet n (s.mbxPacket n) 16128) with bus := .done } := by
  unfold mbxDoorbell
  rw [if_neg (by rw [hc]; decide), pageWrite_taken hn hup _ hg hst]

theorem mbxDoorbell_taken (hc : s.sup.coresUp = true) (hg : regGrant (s.actor m) (spAddr n 0x8000) true = true) (hv : v % 2 = 1)
    (hb : s.flag (F.TMC_MBX_STATUS_REQ_BUSY.pg n) = false) :
    mbxDoorbell m n v s = { s.packet n (s.mbxPacket n) 16128 with bus := .done } := by
  rw [mbxDoorbell_granted hn hst hup hc hg, if_neg (by omega), if_neg (by rw [hb]; decide)]

theorem mbxDoorbell_ignored (hc : s.sup.coresUp = true) (hg : regGrant (s.actor m) (spAddr n 0x8000) true = true) (hv : v % 2 = 1)
    (hb : s.flag (F.TMC_MBX_STATUS_REQ_BUSY.pg n) = true) :
    mbxDoorbell m n v s = { s.bump (F.TMC_MBX_CNT_DB_IGNORED.pg n) with bus := .done } := by
  rw [mbxDoorbell_granted hn hst hup hc hg, if_neg (by omega), if_pos hb]

theorem mbxDoorbell_zero (hc : s.sup.coresUp = true) (hg : regGrant (s.actor m) (spAddr n 0x8000) true = true) (hv : v % 2 = 0) :
    mbxDoorbell m n v s = { s with bus := .done } := by
  rw [mbxDoorbell_granted hn hst hup hc hg, if_pos hv]

variable (hg : regGrant (s.actor m) (spAddr n 0x8008) true = true)
include hg

theorem mbxAck_granted : mbxAck m n v s = { (if v % 2 = 0 ∨ (s.session n).posted.isNone then s
    else ((s.modSess n (fun x => { x with posted := none })).setF (F.TMC_MBX_STATUS_REPLY_READY.pg n) 0).postReply n) with
      bus := .done } := by
  unfold mbxAck
  rw [pageWrite_taken hn hup _ hg hst]

theorem mbxAck_taken (hv : v % 2 = 1) (hp : (s.session n).posted ≠ none) :
    mbxAck m n v s = { (((s.modSess n (fun x => { x with posted := none })).setF
      (F.TMC_MBX_STATUS_REPLY_READY.pg n) 0).postReply n) with bus := .done } := by
  rw [mbxAck_granted hn hst hup hg, if_neg (by simp [hv, hp])]

theorem mbxAck_nothing (h : v % 2 = 0 ∨ (s.session n).posted = none) : mbxAck m n v s = { s with bus := .done } := by
  rw [mbxAck_granted hn hst hup hg, if_pos (by rcases h with h | h <;> simp [h])]

end Mailbox

/-! ### TLS sessions -/

theorem session_modSess_same (s : State) (n : Nat) (f : Session → Session) : (s.modSess n f).session n = f (s.session n) := by
  show Tbl.get {} n (Tbl.mod {} n f s.tmc.sess) = f (Tbl.get {} n s.tmc.sess)
  rw [Tbl.get_mod, if_pos rfl]

theorem session_modSess_ne (s : State) {k n : Nat} (h : k ≠ n) (f : Session → Session) : (s.modSess n f).session k = s.session k := by
  show Tbl.get {} k (Tbl.mod {} n f s.tmc.sess) = Tbl.get {} k s.tmc.sess
  rw [Tbl.get_mod, if_neg h]

theorem tlsConnect_refused {s : State} {o : TlsOffer} (h : s.offerOk o = false) : tlsConnect o s = s := by
  unfold tlsConnect
  exact if_pos (by simp [h])

/-- A session opened for an offer. -/
def State.opened (s : State) (o : TlsOffer) : Session :=
  { opened := true, lastAt := s.now, certVerify := Config.ecSign (s.signKey 8) o.transcript }

theorem tlsConnect_accepted {s : State} {o : TlsOffer} {n : Nat} (hport : s.tlsPort = true) (hok : s.offerOk o = true)
    (hkey : s.clientKeys.contains o.clientKey = true) (hlive : s.nodeLive 8 = true)
    (hfind : [128, 129, 130, 131].find? (fun n => !(s.session n).opened) = some n) :
    tlsConnect o s = s.modSess n (fun _ => s.opened o) := by
  unfold tlsConnect
  rw [if_neg (by rw [hport, hok, hkey, hlive]; decide), hfind]
  rfl

theorem offerOk_of {s : State} {o : TlsOffer} (hs : o.suiteOk = true) (hg : o.groupOk = true) (hsig : o.sigOk = true)
    (hc : o.clientCertOk = true) (hpsk : o.psk = false) (hr : o.resumption = false) (he : o.earlyData = false)
    (hpa : o.postAuth = false) (hport : o.port = s.net.port) (hdst : if o.v6 then o.dst = s.net.ip6 else s.net.ip4 = some o.dst) :
    s.offerOk o = true := by
  have hd : (if o.v6 then o.dst == s.net.ip6 else s.net.ip4 == some o.dst) = true := by
    by_cases hv : o.v6 = true
    · rw [if_pos hv] at hdst ⊢
      exact beq_iff_eq.mpr hdst
    · rw [if_neg hv] at hdst ⊢
      exact beq_iff_eq.mpr hdst
  simp only [State.offerOk, hd, hs, hg, hsig, hc, hpsk, hr, he, hpa, hport, beq_self_eq_true, Bool.and_self, Bool.not_false]

theorem tlsConnect_next (s : State) {o : TlsOffer} {n : Nat} (hport : s.tlsPort = true) (hok : s.offerOk o = true)
    (hkey : s.clientKeys.contains o.clientKey = true) (hlive : s.nodeLive 8 = true)
    (hfind : [128, 129, 130, 131].find? (fun n => !(s.session n).opened) = some n) :
    ∃ t, exec (.tlsConnect o) s = .next t ∧ (t.session n).opened = true ∧ (t.session n).lastAt = s.now ∧
      (t.session n).tags = [] ∧ (t.session n).buffer = [] ∧
      (∀ k, k ≠ n → t.session k = s.session k) ∧ t.regs = s.regs ∧ t.mem = s.mem := by
  have hsess := session_modSess_same s n (fun _ => s.opened o)
  refine ⟨_, congrArg Host.Outcome.next (tlsConnect_accepted hport hok hkey hlive hfind), ?_, ?_, ?_, ?_,
    fun k hk => session_modSess_ne s hk _, rfl, rfl⟩ <;> rw [hsess] <;> rfl

section Session

variable {s : State} {n : Nat} (h1 : 128 ≤ n) (h2 : n < 132) (ho : (s.session n).opened = true)
include h1 h2 ho

theorem session_served : ¬ (n < 128 ∨ 132 ≤ n ∨ (!(s.session n).opened) = true) := by
  rintro (h | h | h)
  · omega
  · omega
  · rw [ho] at h
    exact Bool.false_ne_true h

theorem tlsPacket_eq (o : Octets) : tlsPacket n o s = (s.modSess n (fun x => { x with buffer := x.buffer ++ o })).stream n
    (((s.session n).buffer ++ o).length / 20 + 1) := by
  unfold tlsPacket
  refine (if_neg (session_served h1 h2 ho)).trans ?_
  dsimp only
  rw [session_modSess_same]

theorem tlsPacket_short (o : Octets) (hlen : ((s.session n).buffer ++ o).length < 16) :
    ∃ t, exec (.tlsPacket n o) s = .next t ∧ (t.session n).buffer = (s.session n).buffer ++ o ∧
      (∀ k, k ≠ n → t.session k = s.session k) ∧ t.regs = s.regs ∧ t.mem = s.mem := by
  have hsess := session_modSess_same s n (fun x => { x with buffer := x.buffer ++ o })
  have heq : tlsPacket n o s = s.modSess n (fun x => { x with buffer := x.buffer ++ o }) := by
    rw [tlsPacket_eq h1 h2 ho o]
    unfold State.stream
    dsimp only
    rw [hsess]
    exact if_pos hlen
  exact ⟨_, congrArg Host.Outcome.next heq, by rw [hsess], fun k hk => session_modSess_ne s hk _, rfl, rfl⟩

theorem tlsIdleTimeout_next : tlsIdleTimeout n s = (s.advanceTo ((s.session n).lastAt + secs 300)).tlsClose n :=
  if_neg (session_served h1 h2 ho)

theorem tlsSessionClose_next : tlsSessionClose n s = s.tlsClose n := if_neg (session_served h1 h2 ho)

end Session

theorem net_of_no_bundle {s : State} (h : s.tmc.active = none) : s.net = ⟨none, linkLocal (Config.factoryMac % 2 ^ 48), 7447⟩ := by
  unfold State.net
  rw [h]

theorem session_tlsClose (s : State) (n : Nat) : (s.tlsClose n).session n = { sent := (s.session n).sent } := by
  have h : (s.tlsClose n).session n = (s.modSess n (fun x => { sent := x.sent })).session n := rfl
  rw [h, session_modSess_same]

/-- Settles O39: the page write is granted and taken, a TLS row that passes its guard is its one update, and the closing keeps of a
session only what was sent on it. -/
theorem mailboxAndTlsCarryRequests : Obligations.MailboxAndTlsCarryRequests := by
  refine ⟨fun s m n v hn hst hup => ⟨?_, ?_, ?_⟩, fun s => ⟨?_, ?_, ?_, ?_, ?_⟩⟩
  · exact fun hc => congrArg Host.Outcome.next (mbxDoorbell_down hc)
  · exact fun hc hg =>
      ⟨fun hv hb => congrArg Host.Outcome.next (mbxDoorbell_taken hn hst hup hc hg hv hb),
        fun hv hb => congrArg Host.Outcome.next (mbxDoorbell_ignored hn hst hup hc hg hv hb),
        fun hv => congrArg Host.Outcome.next (mbxDoorbell_zero hn hst hup hc hg hv)⟩
  · exact fun hg =>
      ⟨fun hv hp => congrArg Host.Outcome.next (mbxAck_taken hn hst hup hg hv hp),
        fun h => congrArg Host.Outcome.next (mbxAck_nothing hn hst hup hg h)⟩
  · exact fun o n hport hs hgr hsig hc hpsk hr he hpa hp hdst hkey hlive hfind =>
      tlsConnect_next s hport (offerOk_of hs hgr hsig hc hpsk hr he hpa hp hdst) hkey hlive hfind
  · exact fun n h1 h2 ho =>
      ⟨fun o hlen => tlsPacket_short h1 h2 ho o hlen,
        fun o _ => congrArg Host.Outcome.next (tlsPacket_eq h1 h2 ho o),
        congrArg Host.Outcome.next (tlsIdleTimeout_next h1 h2 ho),
        congrArg Host.Outcome.next (tlsSessionClose_next h1 h2 ho)⟩
  · exact fun o h => congrArg Host.Outcome.next (tlsConnect_refused h)
  · exact fun h => net_of_no_bundle h
  · exact fun n => session_tlsClose s n

end Sys2Proof.Machine
end

section
/-! Patchaif requests: what taking a request and answering it leave of the state the commands look at. -/
namespace Sys2Proof.Machine

-- one proof after the other: started together they wait on each other's results, each in a thread of its own
set_option Elab.async false

/-- What is read of the state outside its management part reads the same when a request has been taken. -/
theorem State.of_taken {α : Type} (f : State → α) {s : State} {q : Req} (h : ∀ t, f { s with tmc := t } = f s) :
    f (s.taken q) = f s :=
  (congrArg f (State.taken_only s q)).trans (h _)

@[simp] theorem State.taken_flag (s : State) (q : Req) (f : Field) : (s.taken q).flag f = s.flag f := State.of_taken (·.flag f) fun _ => rfl

@[simp] theorem State.taken_sltEnt (s : State) (q : Req) (k i : Nat) : (s.taken q).sltEnt k i = s.sltEnt k i :=
  State.of_taken (·.sltEnt k i) fun _ => rfl

@[simp] theorem State.taken_sliceState (s : State) (q : Req) (n : Nat) : (s.taken q).sliceState n = s.sliceState n :=
  State.of_taken (·.sliceState n) fun _ => rfl

@[simp] theorem State.taken_dramOwned (s : State) (q : Req) (n a len : Nat) : (s.taken q).dramOwned n a len = s.dramOwned n a len :=
  State.of_taken (·.dramOwned n a len) fun _ => rfl

@[simp] theorem State.taken_flashOk (s : State) (q : Req) : (s.taken q).flashOk = s.flashOk := State.of_taken (·.flashOk) fun _ => rfl

@[simp] theorem State.taken_freeVal (s : State) (q : Req) (w : Nat) : (s.taken q).freeVal w = s.freeVal w :=
  State.of_taken (·.freeVal w) fun _ => rfl

@[simp] theorem State.taken_warmIgnored (s : State) (q : Req) : (s.taken q).warmIgnored = s.warmIgnored :=
  State.of_taken (·.warmIgnored) fun _ => rfl

@[simp] theorem State.taken_xferOf (s : State) (q : Req) (h : Nat) : (s.taken q).xferOf h = s.xferOf h := by
  unfold State.xferOf
  rw [State.taken_tmc_xfer]

@[simp] theorem State.taken_xferHeld (s : State) (q : Req) (h : Nat) : (s.taken q).xferHeld h = s.xferHeld h := by
  unfold State.xferHeld
  rw [State.taken_tmc_jobs]

@[simp] theorem State.taken_stageRuns (s : State) (q : Req) : (s.taken q).stageRuns = s.stageRuns := by
  unfold State.stageRuns
  rw [State.taken_tmc_jobs]

@[simp] theorem State.taken_bufOk (s : State) (q r : Req) (b : BufRef) : (s.taken q).bufOk r b = s.bufOk r b := by
  unfold State.bufOk
  rw [State.taken_dramOwned, State.taken_xferOf]

@[simp] theorem State.taken_cancellable (s : State) (q r : Req) (tag : Nat) : (s.taken q).cancellable r tag = s.cancellable r tag := by
  unfold State.cancellable
  rw [State.taken_tmc_jobs, State.taken_hlt]

theorem State.postReply_jobs (s : State) (n : Nat) : (s.postReply n).tmc.jobs = s.tmc.jobs := by
  unfold State.postReply
  dsimp only
  split
  · split
    · rfl
    · rw [event_touches.tmc_eq]
      rfl
  · rfl

theorem State.putReplies_jobs (s : State) (n : Nat) (f : List Reply → List Reply) : (s.putReplies n f).tmc.jobs = s.tmc.jobs := by
  unfold State.putReplies
  split
  · rw [State.postReply_jobs]
    rfl
  · split <;> rfl

theorem State.answer_jobs (s : State) (q : Req) (op flags status : Nat) (ps : Octets) (final deliver : Bool) :
    (s.answer q op flags status ps final deliver).tmc.jobs = s.tmc.jobs := by
  unfold State.answer
  split
  · rfl
  · dsimp only
    rw [State.putReplies_jobs]
    split <;> rfl

end Sys2Proof.Machine
end

section
/-! O41: the System and Bundle commands of Patchaif. -/
namespace Sys2Proof.Machine

-- one proof after the other: started together they wait on each other's results, each in a thread of its own
set_option Elab.async false

variable {s : State} {q : Req}

/-! ### HELLO, JOBS, CANCEL and RESET -/

theorem sysHello_answers (h : Admits s q 0x0101 [] false false) :
    ∃ ps : Octets, ps.take 4 = [1, 0, 1, 0] ∧ Answers (.sysHello q) s q 0x0101 ps (s.taken q) :=
  ⟨_, rfl, Answers.of (exec_sysHello q s) h rfl⟩

/-- What SYS_JOBS gathers of one running command. -/
def jobEntry (a : Octets × State) (j : Job) : Octets × State :=
  (a.1 ++ le 2 j.op ++ le 1 j.q.sess ++ le 2 j.q.tag ++ le 8 (Time.gt64 j.start) ++ le 2 (a.2.freeVal 10 % 1001), a.2.drawn)

/-- Each running command adds its 15 octets and draws one free value. -/
theorem jobEntry_foldl (l : List Job) (a : Octets × State) :
    (l.foldl jobEntry a).1.length = a.1.length + 15 * l.length ∧ ∃ n, (l.foldl jobEntry a).2 = { a.2 with free := n } := by
  induction l generalizing a with
  | nil => exact ⟨rfl, a.2.free, rfl⟩
  | cons j l ih =>
    obtain ⟨hlen, n, hst⟩ := ih (jobEntry a j)
    refine ⟨?_, n, hst⟩
    rw [List.foldl_cons, hlen]
    simp only [jobEntry, List.length_append, le_length, List.length_cons]
    omega

theorem sysJobs_answers (h : Admits s q 0x0102 [] false false) :
    ∃ (ps : Octets) (n : Nat), ps.take 2 = le 2 s.tmc.jobs.length ∧ ps.length = 2 + 15 * s.tmc.jobs.length ∧
      Answers (.sysJobs q) s q 0x0102 ps { s.taken q with free := n } := by
  obtain ⟨hlen, n, hst⟩ := jobEntry_foldl s.tmc.jobs ([], s.taken q)
  refine ⟨le 2 s.tmc.jobs.length ++ (s.tmc.jobs.foldl jobEntry ([], s.taken q)).1, n, ?_, ?_, Answers.of (exec_sysJobs q s) h ?_⟩
  · exact List.take_left' (le_length 2 _)
  · rw [List.length_append, le_length, hlen]
    exact congrArg (2 + ·) (Nat.zero_add _)
  · rw [← hst, ← State.taken_tmc_jobs s q]
    rfl

theorem sysCancel_none {tag : Nat} (h : Admits s q 0x0103 (le 2 tag) false false) (hc : (s.taken q).cancellable q tag = none) :
    exec (.sysCancel q tag) s = .next ((s.taken q).answer q 0x0103 1 stWrongState (detail 0xFF 0 0) true (s.takeReq q).1) := by
  have hact : sysCancelAct q tag (s.taken q) = (.fail stWrongState 0xFF 0 0, s.taken q) := by
    unfold sysCancelAct
    rw [hc]
  rw [State.taken_cancellable] at hc
  rw [exec_sysCancel, execSysCancel, State.patchaif_fail h hact, hc]

/-- What a cancelled command leaves keeps the list of the running ones. -/
theorem undoJob_jobs (s : State) (op : Nat) : (s.undoJob op).tmc.jobs = s.tmc.jobs := by
  unfold State.undoJob
  split <;> rfl

theorem sysCancel_some {tag : Nat} {j : Job} (h : Admits s q 0x0103 (le 2 tag) false false) (hc : s.cancellable q tag = some j) :
    exec (.sysCancel q tag) s = .next ((({ s.taken q with tmc := { (s.taken q).tmc with
      jobs := (s.taken q).tmc.jobs.filter (fun k => k != j) } }.undoJob j.op).answer q 0x0103 1 stOk [] true
        (s.takeReq q).1).answer j.q j.op 3 stCancelled (detail (groupPage j.group) 0 0) true j.deliver) := by
  have hact : sysCancelAct q tag (s.taken q) = (.done [], { s.taken q with tmc := { (s.taken q).tmc with
      jobs := (s.taken q).tmc.jobs.filter (fun k => k != j) } }.undoJob j.op) := by
    unfold sysCancelAct
    rw [State.taken_cancellable, hc]
  rw [exec_sysCancel, execSysCancel, State.patchaif_done h hact, hc]
  refine if_neg ?_
  rw [State.answer_jobs, undoJob_jobs]
  simp

theorem sysReset_warm (h : Admits s q 0x0104 (le 1 0) false false) :
    Answers (.sysReset q 0) s q 0x0104 [] (if s.sup.inCold = true ∨ s.sup.warmFrom = false ∧ s.get F.TMC_START_STATUS_PHASE < 6
      then s.taken q else (s.taken q).resetAt 0) := by
  refine Answers.of (exec_sysReset q 0 s) h ?_
  unfold sysResetAct
  rw [if_pos rfl, State.taken_warmIgnored]
  refine congrArg (Prod.mk _) (if_congr ?_ rfl rfl)
  simp [State.warmIgnored]

theorem sysReset_cold (h : Admits s q 0x0104 (le 1 1) false false) :
    Answers (.sysReset q 1) s q 0x0104 [] ((s.taken q).resetAt 8) :=
  Answers.of (exec_sysReset q 1 s) h rfl

/-- R454: a commanded reset begins 1 to 5 ms after its reply. -/
theorem resetAt_due (s : State) (c : Nat) :
    ∃ at_, ((s.resetAt c).tmc.resetDue = s.tmc.resetDue ++ [(c, at_)]) ∧ s.now + ms 1 ≤ at_ ∧ at_ ≤ s.now + ms 5 := by
  refine ⟨s.now + ms 1 + s.freeVal 64 % (ms 4 + 1), rfl, Nat.le_add_right _ _, ?_⟩
  have hlt : s.freeVal 64 % (ms 4 + 1) < ms 4 + 1 := Nat.mod_lt _ (Nat.succ_pos _)
  calc s.now + ms 1 + s.freeVal 64 % (ms 4 + 1)
    _ ≤ s.now + ms 1 + ms 4 := Nat.add_le_add_left (Nat.lt_succ_iff.mp hlt) _
    _ = s.now + ms 5 := Nat.add_assoc _ _ _

/-! ### Transfer objects -/

theorem xferOpen_answers {size : Nat} (h : Admits s q 0x0105 (le 4 size) false false) (hsize : size ≤ 2 ^ 30)
    (hlen : s.tmc.xfer.length < 4) (hflash : s.flashOk = true) :
    Answers (.xferOpen q size) s q 0x0105 (le 8 (s.tmc.handles + 1)) { s.taken q with tmc := { (s.taken q).tmc with
      handles := s.tmc.handles + 1, xfer := Tbl.put (s.tmc.handles + 1) ⟨size, []⟩ (s.taken q).tmc.xfer } } := by
  refine Answers.of (exec_xferOpen q size s) h ?_
  unfold xferOpenAct
  rw [if_neg (by omega), if_neg (by simp [hflash, hlen]), State.taken_tmc_handles]

theorem xferWrite_answers {n off : Nat} {data : Octets} {x : Xfer}
    (h : Admits s q 0x0106 (le 8 n ++ le 4 off ++ strOctets data) false false) (hx : s.xferOf n = some x)
    (hlen : data.length ≤ 16000) (hfit : off + data.length ≤ x.size) (hheld : s.xferHeld n = false) :
    Answers (.xferWrite q n off data) s q 0x0106 [] { (s.taken q).flashWrite with
      tmc := { (s.taken q).tmc with xfer := Tbl.put n (x.write off data) (s.taken q).tmc.xfer } } := by
  refine Answers.of (exec_xferWrite q n off data s) h ?_
  unfold xferWriteAct
  rw [State.taken_xferOf, hx]
  dsimp only
  rw [if_neg (by omega), State.taken_xferHeld, if_neg (by rw [hheld]; decide)]

theorem xferRead_answers {n off len : Nat} {x : Xfer} (h : Admits s q 0x0107 (le 8 n ++ le 4 off ++ le 2 len) false false)
    (hx : s.xferOf n = some x) (hlen : len ≤ 16000) (hfit : off + len ≤ x.size) :
    Answers (.xferRead q n off len) s q 0x0107
      (le 2 len ++ (List.range len).map (fun i => BitVec.ofNat 8 (Tbl.get 0 (off + i) x.data))) (s.taken q) := by
  refine Answers.of (exec_xferRead q n off len s) h ?_
  unfold xferReadAct
  rw [State.taken_xferOf, hx]
  exact if_neg (by omega)

theorem xferClose_answers {n : Nat} {x : Xfer} (h : Admits s q 0x0108 (le 8 n) false false) (hx : s.xferOf n = some x)
    (hheld : s.xferHeld n = false) :
    Answers (.xferClose q n) s q 0x0108 [] { s.taken q with tmc := { (s.taken q).tmc with xfer := Tbl.del n (s.taken q).tmc.xfer } } := by
  refine Answers.of (exec_xferClose q n s) h ?_
  unfold xferCloseAct
  rw [State.taken_xferOf, hx]
  exact if_neg (by rw [State.taken_xferHeld, hheld]; decide)

/-! ### Bundle commands -/

theorem bundleStage_accepts {buf : BufRef} {b : BundleContent} (h : Admits s q 0x0110 (bufOctets buf) true false)
    (hbuf : (s.taken q).bufOk q buf = true) (hflash : s.flashOk = true) :
    Accepts (.bundleStage q buf b) s q 0x0110 0 (heldBy [buf])
      { s.taken q with tmc := { (s.taken q).tmc with staging := some ((s.taken q).bundleIn buf b) } } := by
  refine Accepts.of (exec_bundleStage q buf b s) h ?_
  unfold bundleStageAct
  rw [hbuf, State.taken_flashOk, hflash]
  rfl

/-- No staging runs where no running command stages. -/
theorem stageRuns_eq_false (h : ∀ j ∈ s.tmc.jobs, j.op ≠ 0x0110) : s.stageRuns = false :=
  List.any_eq_false.mpr fun j hj => by simpa using h j hj

theorem bundleActivate_act {r : Nat} (hr : r < 2) (hp : s.tmc.pending ≠ none) (hjobs : ∀ j ∈ s.tmc.jobs, j.op ≠ 0x0110) :
    bundleActivateAct r (s.taken q) = (.done [], if r = 1 then ((s.taken q).slotWrite (fun c => { c with mark := true })).resetAt 9
      else (s.taken q).slotWrite (fun c => { c with mark := true })) := by
  unfold bundleActivateAct
  rw [if_neg (by omega), State.taken_stageRuns, stageRuns_eq_false hjobs, if_neg Bool.false_ne_true,
    if_neg (by rw [State.taken_tmc_pending]; simpa using hp)]

theorem bundleCommit_accepts (h : Admits s q 0x0112 [] true false) (hl : s.tmc.locked = false) (hp : s.tmc.pending ≠ none) :
    Accepts (.bundleCommit q) s q 0x0112 0 [] (s.taken q) := by
  refine Accepts.of (exec_bundleCommit q s) h ?_
  unfold bundleCommitAct
  exact if_neg (by simp [hl, hp])

theorem bundleDiscard_answers (h : Admits s q 0x0113 [] false false) (hjobs : ∀ j ∈ s.tmc.jobs, j.op ≠ 0x0110) :
    Answers (.bundleDiscard q) s q 0x0113 [] ((s.taken q).slotWrite (fun c => { c with pending := none, mark := false })) := by
  refine Answers.of (exec_bundleDiscard q s) h ?_
  unfold bundleDiscardAct
  rw [State.taken_stageRuns, stageRuns_eq_false hjobs]
  rfl

/-- R63: in a ride-through a write of the slots is deferred, and until it is made the flash holds what it held. -/
theorem slotWrite_deferred (s : State) (f : Tmc → Tmc) (hm : s.sup.mode = .rideThrough) :
    (s.slotWrite f).tmc.flash = s.tmc.flash ∧ (s.slotWrite f).get F.PHM_BG_STATUS_FLASH_DEFERRED = 1 := by
  have hw : s.flashWrite = s.setF F.PHM_BG_STATUS_FLASH_DEFERRED 1 := if_pos hm
  constructor
  · unfold State.slotWrite Tmc.flash
    dsimp only
    rw [if_pos hm]
    rfl
  · have hget : (s.slotWrite f).get F.PHM_BG_STATUS_FLASH_DEFERRED = s.flashWrite.get F.PHM_BG_STATUS_FLASH_DEFERRED := rfl
    rw [hget, hw, State.get_setF_same]
    rfl

theorem flashWrite_tmc (s : State) : s.flashWrite.tmc = s.tmc := by
  unfold State.flashWrite
  split <;> rfl

theorem slotWrite_made (s : State) (f : Tmc → Tmc) (hm : s.sup.mode ≠ .rideThrough) :
    (s.slotWrite f).tmc.flash = ⟨(f s.tmc).active, (f s.tmc).pending, (f s.tmc).mark⟩ := by
  unfold State.slotWrite Tmc.flash
  dsimp only
  rw [if_neg hm, flashWrite_tmc]
  rfl

theorem slotWrite_slots (s : State) (f : Tmc → Tmc) :
    (s.slotWrite f).tmc.active = (f s.tmc).active ∧ (s.slotWrite f).tmc.pending = (f s.tmc).pending := by
  unfold State.slotWrite
  dsimp only
  rw [flashWrite_tmc]
  exact ⟨rfl, rfl⟩

theorem bundleStatus_answers (h : Admits s q 0x0114 [] false false) : ∃ ps : Octets, ps.length = 18 ∧
    ps.take 10 = le 4 ((s.tmc.active.map bundleIdOf).getD 0) ++ le 4 ((s.tmc.pending.map bundleIdOf).getD 0) ++
      [BitVec.ofNat 8 (b2n s.tmc.mark), BitVec.ofNat 8 (b2n s.tmc.fallback)] ∧
    Answers (.bundleStatus q) s q 0x0114 ps (s.taken q) := by
  refine ⟨le 4 ((s.tmc.active.map bundleIdOf).getD 0) ++ le 4 ((s.tmc.pending.map bundleIdOf).getD 0) ++ le 1 (b2n s.tmc.mark) ++
    le 1 (b2n s.tmc.fallback) ++ (List.range 8).map (fun i => BitVec.ofNat 8 (s.tmc.lastFail.getD i 0)), ?_, rfl,
    Answers.of (exec_bundleStatus q s) h ?_⟩
  · simp only [List.length_append, le_length, List.length_map, List.length_range]
  · unfold bundleStatusAct
    rw [State.taken_tmc_active, State.taken_tmc_pending, State.taken_tmc_mark, State.taken_tmc_fallback, State.taken_tmc_lastFail]

/-- Settles O41: each command passes its own checks and leaves its one update. -/
theorem systemAndBundleCommandsComplete : Obligations.SystemAndBundleCommandsComplete := by
  refine ⟨fun s q => ⟨sysHello_answers, sysJobs_answers, ?_, ?_, sysReset_warm, sysReset_cold, resetAt_due s, ?_, ?_, ?_, ?_⟩,
    fun s q => ⟨?_, ?_, bundleCommit_accepts, bundleDiscard_answers, ?_, bundleStatus_answers⟩⟩
  · exact fun tag h hc => ⟨_, sysCancel_none h hc, rfl⟩
  · exact fun tag j h hc => sysCancel_some h hc
  · exact fun size h hsize hlen hflash => xferOpen_answers h hsize hlen hflash
  · exact fun n off data x h hx hlen hfit hheld => xferWrite_answers h hx hlen hfit hheld
  · exact fun n off len x h hx hlen hfit => xferRead_answers h hx hlen hfit
  · exact fun n x h hx hheld => xferClose_answers h hx hheld
  · exact fun buf b h hbuf hflash => bundleStage_accepts h hbuf hflash
  · intro r h hp hjobs v
    constructor
    · rintro rfl
      exact Answers.of (exec_bundleActivate q 0 s) h (bundleActivate_act (by decide) hp hjobs)
    · rintro rfl
      exact Answers.of (exec_bundleActivate q 1 s) h (bundleActivate_act (by decide) hp hjobs)
  · exact fun f => ⟨slotWrite_deferred s f, slotWrite_made s f, slotWrite_slots s f⟩

end Sys2Proof.Machine
end

section
/-! O42: the Slice commands of Patchaif. -/
namespace Sys2Proof.Machine

-- one proof after the other: started together they wait on each other's results, each in a thread of its own
set_option Elab.async false

variable {s : State} {q : Req} {n : Nat}

@[simp] theorem State.taken_boundSlice (s : State) (q : Req) (x : Nat) : (s.taken q).boundSlice x = s.boundSlice x :=
  State.of_taken (·.boundSlice x) fun _ => rfl

@[simp] theorem State.taken_windowOk (s : State) (q : Req) (n : Nat) (b : Nat × Nat) : (s.taken q).windowOk n b = s.windowOk n b :=
  State.of_taken (·.windowOk n b) fun _ => rfl

@[simp] theorem State.taken_sltAll (s : State) (q : Req) (k : Nat) : (s.taken q).sltAll k = s.sltAll k :=
  State.of_taken (·.sltAll k) fun _ => rfl

@[simp] theorem State.taken_pasidFree (s : State) (q : Req) : (s.taken q).pasidFree = s.pasidFree :=
  State.of_taken (·.pasidFree) fun _ => rfl

@[simp] theorem State.taken_dwinFree (s : State) (q : Req) : (s.taken q).dwinFree = s.dwinFree :=
  State.of_taken (·.dwinFree) fun _ => rfl

@[simp] theorem State.taken_creditFree (s : State) (q : Req) : (s.taken q).creditFree = s.creditFree :=
  State.of_taken (·.creditFree) fun _ => rfl

@[simp] theorem State.taken_charge (s : State) (q : Req) (n : Nat) : (s.taken q).charge n = s.charge n :=
  State.of_taken (·.charge n) fun _ => rfl

@[simp] theorem State.taken_slice (s : State) (q : Req) (n : Nat) : (s.taken q).slice n = s.slice n :=
  State.of_taken (·.slice n) fun _ => rfl

@[simp] theorem State.taken_localRing (s : State) (q : Req) (n k : Nat) : (s.taken q).localRing n k = s.localRing n k :=
  State.of_taken (·.localRing n k) fun _ => rfl

@[simp] theorem State.taken_ringsOf (s : State) (q : Req) (n : Nat) : (s.taken q).ringsOf n = s.ringsOf n :=
  State.of_taken (·.ringsOf n) fun _ => rfl

@[simp] theorem State.taken_ring (s : State) (q : Req) (r : Nat) : (s.taken q).ring r = s.ring r :=
  State.of_taken (·.ring r) fun _ => rfl

theorem State.taken_touches (s : State) (q : Req) : Touches [.tmc] s (s.taken q) := by
  rw [State.taken_only]
  exact Touches.set_tmc (.refl _ _) _

/-! ### CREATE -/

theorem setSltEnt_touches {k i : Nat} {ws : List Nat} : Touches [.slt] s (s.setSltEnt k i ws) := Touches.set_slt (.refl _ _) _

theorem modeReq_touches {k mode : Nat} {clear : Bool} : Touches [.slp] s (s.modeReq k mode clear) := by
  unfold State.modeReq
  exact Touches.ite (.refl _ _) (Touches.set_slp (.refl _ _) _)

theorem bindPasid_touches {x : Nat} : Touches [.slt] s (s.bindPasid n x) := by
  unfold State.bindPasid
  split
  · exact setSltEnt_touches
  · exact .refl _ _

theorem bindWindow_touches {b : Nat × Nat} : Touches [.slt] s (s.bindWindow n b) := by
  unfold State.bindWindow
  split
  · exact setSltEnt_touches
  · exact .refl _ _

theorem sliceFresh_touches : Touches [.slp, .slt] s (s.sliceFresh n) := by
  have hrings : Touches [.slp, .slt] s ((s.ringsOf n).foldl (fun s r => s.modRing r (fun g => { placed := g.placed })) s) :=
    Touches.foldl (fun u r hu => hu.modRing r _) _ (.refl _ _)
  unfold State.sliceFresh
  exact (Touches.via modeReq_touches (Touches.via fClear_touches (hrings.set_slp _))).modSlice _ _

/-- The entry, the bindings and the windows of a slice that is created. -/
def State.sliceCreated (s : State) (p : SliceParams) : State :=
  (p.windows.foldl (fun s b => s.bindWindow p.slice b) (p.pasids.foldl (fun s x => s.bindPasid p.slice x)
    (s.setSltEnt 0 p.slice [putBits 15 0 p.errLimit (word (s.sltEnt 0 p.slice) 0),
      place 63 40 p.cores + place 39 24 p.inflight + place 23 16 p.weight + place 15 11 p.irqCore + place 10 5 p.irqFile,
      word (s.sltEnt 0 p.slice) 2]))).sliceFresh p.slice

theorem bindPasids_touches (l : List Nat) : Touches [.slt] s (l.foldl (fun s x => s.bindPasid n x) s) :=
  Touches.foldl (fun _ _ hu => Touches.via bindPasid_touches hu) l (.refl _ s)

theorem bindWindows_touches (l : List (Nat × Nat)) : Touches [.slt] s (l.foldl (fun s b => s.bindWindow n b) s) :=
  Touches.foldl (fun _ _ hu => Touches.via bindWindow_touches hu) l (.refl _ s)

theorem sliceCreated_touches {p : SliceParams} : Touches [.slp, .slt] s (s.sliceCreated p) :=
  Touches.via sliceFresh_touches (Touches.via (bindWindows_touches _) (Touches.via (bindPasids_touches _)
    (setSltEnt_touches.mono (by simp))))

theorem sliceCreate_act {p : SliceParams} (hok : SliceParams.ok p = true) (hst : s.sliceState p.slice = 0)
    (hprof : slProfile (s.sltEnt 0 p.slice) = true) (hbound : ∀ x ∈ p.pasids, s.boundSlice x = none) (hnodup : p.pasids.Nodup)
    (hwin : ∀ b ∈ p.windows, s.windowOk p.slice b = true) (hpasid : p.pasids.length ≤ s.pasidFree)
    (hdwin : p.windows.length ≤ s.dwinFree) (hcredit : p.inflight ≤ s.creditFree) :
    sliceCreateAct p s = (.done [], (s.sliceCreated p).toSliceState p.slice 1 0) := by
  have hfree : (p.pasids.any fun x => (s.boundSlice x).isSome) = false :=
    List.any_eq_false.mpr fun x hx => by simp [hbound x hx]
  have hfits : (p.windows.any fun b => !s.windowOk p.slice b) = false :=
    List.any_eq_false.mpr fun b hb => by simp [hwin b hb]
  unfold sliceCreateAct
  dsimp only
  rw [if_neg (by simp [hok]), if_neg (by simp [hst]), if_neg (by simp [hprof, hfree, hfits, hnodup]), if_neg (by omega)]
  rfl

theorem sliceCreate_answers {p : SliceParams} (h : Admits s q 0x0201 (sliceOctets p) false false) (hok : SliceParams.ok p = true)
    (hst : s.sliceState p.slice = 0)
    (hprof : slProfile (s.sltEnt 0 p.slice) = true) (hbound : ∀ x ∈ p.pasids, s.boundSlice x = none) (hnodup : p.pasids.Nodup)
    (hwin : ∀ b ∈ p.windows, s.windowOk p.slice b = true) (hpasid : p.pasids.length ≤ s.pasidFree)
    (hdwin : p.windows.length ≤ s.dwinFree) (hcredit : p.inflight ≤ s.creditFree) :
    ∃ t : State, Answers (.sliceCreate q p) s q 0x0201 [] (t.toSliceState p.slice 1 0) ∧ t.tmc = (s.taken q).tmc ∧ t.mem = s.mem := by
  refine ⟨(s.taken q).sliceCreated p, Answers.of (exec_sliceCreate q p s) h ?_,
    sliceCreated_touches.tmc_eq, sliceCreated_touches.mem_eq.trans (State.taken_mem s q)⟩
  exact sliceCreate_act hok (by simpa using hst) (by simpa using hprof) (by simpa using hbound) hnodup
    (by simpa only [State.taken_windowOk] using hwin) (by simpa using hpasid) (by simpa using hdwin) (by simpa using hcredit)

/-! ### RING and BIND -/

theorem sliceRing_answers {k base r : Nat} (hn : n < 128) (h : Admits s q 0x0202 (le 4 n ++ le 4 k ++ le 8 base) false false)
    (hr : s.localRing n k = some r) (hst : s.sliceState n = 1 ∨ s.sliceState n = 4) (hbase : base % 4096 = 0)
    (hown : s.dramOwned n base (rgSize (s.sltEnt 2 r) * 32) = true) :
    Answers (.sliceRing q n k base) s q 0x0202 [] (((s.taken q).setSltEnt 2 r (listSet 0 1 base ((s.taken q).sltEnt 2 r))).modRing r
      (fun g => { g with placed := true })) := by
  refine Answers.of (exec_sliceRing q n k base s) h ?_
  unfold sliceRingAct
  rw [if_neg (by omega), State.taken_localRing, hr]
  dsimp only
  rw [if_neg (by rcases hst with hst | hst <;> simp [hst]), if_neg (by simp [hbase]), if_neg (by simp [hown])]

/-- The PASID bindings of a slice. -/
def State.bindingsOf (s : State) (n : Nat) : List (Nat × List Nat) := (s.sltAll 1).filter (fun p => seValid p.2 && seSlice p.2 == n)

theorem State.taken_bindingsOf (s : State) (q : Req) (n : Nat) : (s.taken q).bindingsOf n = s.bindingsOf n :=
  State.of_taken (·.bindingsOf n) fun _ => rfl

section Bind

variable {pasid : Nat} (hn : n < 128) (hp : pasid < 2 ^ 20)
include hn hp

theorem sliceBind_adds (hst : s.sliceState n ≠ 0) (hst' : s.sliceState n ≠ 3) (hb : s.boundSlice pasid = none)
    (hown : (s.bindingsOf n).length < 32) (hfree : s.pasidFree ≠ 0) :
    sliceBindAct n true pasid s = (.done [], s.bindPasid n pasid) := by
  unfold sliceBindAct
  dsimp only
  rw [if_neg (by omega), if_neg hst, if_neg hst', if_pos rfl, if_neg (by simp [hb])]
  exact if_neg (by rintro (h | h) <;> [exact absurd h (Nat.not_le.mpr hown); exact hfree h])

theorem sliceBind_removes {p : Nat × List Nat} (hst : s.sliceState n ≠ 0) (hst' : s.sliceState n ≠ 3)
    (hf : (s.bindingsOf n).find? (fun p => bdPasid p.2 == pasid) = some p) (hown : 1 < (s.bindingsOf n).length ∨ n = 0) :
    sliceBindAct n false pasid s = (.done [], s.setSltEnt 1 p.1 []) := by
  unfold sliceBindAct
  dsimp only
  rw [if_neg (by omega), if_neg hst, if_neg hst', if_neg Bool.false_ne_true, ← State.bindingsOf, hf]
  exact if_neg (by rintro ⟨h1, h2⟩; rcases hown with h | h <;> [exact absurd h1 (Nat.not_le.mpr h); exact h2 h])

theorem sliceBind_busy {add : Bool} (h : Admits s q 0x0203 (le 4 n ++ flagOctets add ++ le 4 pasid) false false)
    (hst : s.sliceState n = 3) :
    exec (.sliceBind q n add pasid) s = .next ((s.taken q).answer q 0x0203 1 stBusy (detail 0x03 0 n) true (s.takeReq q).1) := by
  refine (exec_sliceBind q n add pasid s).trans (State.patchaif_fail h (u := s.taken q) ?_)
  have hst3 : (s.taken q).sliceState n = 3 := (State.taken_sliceState s q n).trans hst
  unfold sliceBindAct
  dsimp only
  rw [if_neg (by omega), if_neg (by omega), if_pos hst3]

end Bind

/-! ### START, QUIESCE, RESET, REMOVE and FAULT -/

theorem sliceStart_configured (hn : n < 128) (h : Admits s q 0x0204 (le 4 n) false false) (h0 : n ≠ 0) (hst : s.sliceState n = 1)
    (hpl : ∀ r ∈ s.ringsOf n, (s.ring r).placed = true) :
    Answers (.sliceStart q n) s q 0x0204 [] ((((((s.taken q).ringsTo n 1).ringPubs n true).modeReq (1 + n)
      (soInit ((s.taken q).slpEnt 0 (1 + n))) false).statusBit n true).toSliceState n 2 0) := by
  refine Answers.of (exec_sliceStart q n s) h ?_
  unfold sliceStartAct
  dsimp only
  rw [if_neg (by omega), if_pos ⟨h0, by simpa using hst, by simpa using hpl⟩]

theorem sliceStart_quiesced (hn : n < 128) (h : Admits s q 0x0204 (le 4 n) false false) (h0 : n ≠ 0) (hst : s.sliceState n = 4) :
    Answers (.sliceStart q n) s q 0x0204 [] ((((s.taken q).ringsTo n 1).statusBit n true).toSliceState n 2 0) := by
  have hst4 : (s.taken q).sliceState n = 4 := (State.taken_sliceState s q n).trans hst
  refine Answers.of (exec_sliceStart q n s) h ?_
  unfold sliceStartAct
  dsimp only
  rw [if_neg (by omega), if_neg (by simp [hst]), if_pos ⟨h0, hst4⟩]

theorem sliceQuiesce_accepts (hn : n < 128) (h : Admits s q 0x0205 (le 4 n) true false) (h0 : n ≠ 0) (hst : s.sliceState n = 2) :
    Accepts (.sliceQuiesce q n) s q 0x0205 n [] (((((s.taken q).ringsTo n 2).statusBit n false).modSlice n
      (fun x => { x with quiesceAt := (((s.taken q).ringsTo n 2).statusBit n false).now })).toSliceState n 3 0) := by
  have hnow : (((s.taken q).ringsTo n 2).statusBit n false).now = (s.taken q).now :=
    (Touches.via (l := [.slp, .slt]) statusBit_touches (ringsTo_touches.mono (by simp))).now_eq
  refine Accepts.of (exec_sliceQuiesce q n s) h ?_
  unfold sliceQuiesceAct
  rw [if_neg (by omega), if_neg (by simp [h0, hst]), hnow]

theorem sliceReset_act {remove : Bool} (hn : n < 128) (h0 : n ≠ 0) (hst : s.sliceState n ≠ 0) :
    sliceResetAct n remove s = (.done [], if remove then s.sliceRemove n else s.sliceReset n 1) := by
  unfold sliceResetAct
  rw [if_neg (by omega), if_neg (by simp [h0, hst])]

theorem sliceFault_answers (hn : n < 128) (h : Admits s q 0x0208 (le 4 n) false false) (h0 : n ≠ 0) (hst : s.sliceState n ∈ [2, 3, 4]) :
    Answers (.sliceFault q n) s q 0x0208 [] ((s.taken q).sliceToFaulted n 0) := by
  refine Answers.of (exec_sliceFault q n s) h ?_
  unfold sliceFaultAct
  dsimp only
  rw [if_neg (by omega), if_pos ⟨h0, by simpa using hst⟩]

/-! ### SHARE, PV and STATUS -/

theorem sliceShare_answers {fl wt : Nat} (hn : n < 128) (h : Admits s q 0x0209 (le 4 n ++ le 2 fl ++ le 1 wt) false false)
    (hfl : 1 ≤ fl) (hfl' : fl ≤ 16384) (hwt : 1 ≤ wt) (hwt' : wt ≤ 255) (hst : s.sliceState n ≠ 0) (hst' : s.sliceState n ≠ 3)
    (hfit : fl ≤ slInflight (s.sltEnt 0 n) ∨ max fl (s.slice n).inflightNow - s.charge n ≤ s.creditFree) :
    Answers (.sliceShare q n fl wt) s q 0x0209 [] ((s.taken q).setSltEnt 0 n
      (listSet 0 1 (putBits 39 24 fl (putBits 23 16 wt (word ((s.taken q).sltEnt 0 n) 1))) ((s.taken q).sltEnt 0 n))) := by
  refine Answers.of (exec_sliceShare q n fl wt s) h ?_
  unfold sliceShareAct
  dsimp only
  rw [if_neg (by omega), State.taken_sliceState, if_neg hst, if_neg hst', State.taken_sltEnt, State.taken_creditFree,
    State.taken_slice, State.taken_charge, if_neg (by omega)]

theorem slicePv_answers {en : Bool} {lats : Nat} (hn : n < 128)
    (h : Admits s q 0x020A (le 4 n ++ flagOctets en ++ le 1 lats) false false) (hl : lats < 16) (hst : s.sliceState n ≠ 0)
    (hst' : s.sliceState n ≠ 3) (hallow : slPvAllow (s.sltEnt 0 n) = true) :
    Answers (.slicePv q n en lats) s q 0x020A [] ((s.taken q).setSltEnt 0 n
      (listSet 0 0 (putBits 50 50 (b2n en) (putBits 49 46 lats (word ((s.taken q).sltEnt 0 n) 0))) ((s.taken q).sltEnt 0 n))) := by
  refine Answers.of (exec_slicePv q n en lats s) h ?_
  unfold slicePvAct
  dsimp only
  rw [if_neg (by omega), State.taken_sliceState, if_neg hst, if_neg hst', State.taken_sltEnt, hallow]
  rfl

theorem sliceStatus_answers {clear : Bool} (hn : n < 128)
    (h : Admits s q 0x020B (flagOctets clear ++ le 4 n) false (n == sessSlice q.sess)) :
    Answers (.sliceStatus q clear n) s q 0x020B (wordsOctets ([word ((s.taken q).sltView 0 n) 0, word ((s.taken q).sltView 0 n) 1,
      word ((s.taken q).sltView 0 n) 2] ++ (s.taken q).sliceStat n)) (if clear then (s.taken q).sliceStatClear n else s.taken q) := by
  refine Answers.of (exec_sliceStatus q clear n s) h ?_
  unfold sliceStatusAct
  exact if_neg (by omega)

/-- Settles O42: each command passes its own checks, from the states that its own row names, and leaves its one update. -/
theorem sliceCommandsComplete : Obligations.SliceCommandsComplete := by
  refine ⟨fun s q n hn => ⟨?_, ?_, ?_, ?_, ?_, ?_, ?_, ?_, ?_⟩, fun s q n hn => ⟨?_, ?_, ?_⟩⟩
  · rintro p rfl h hok hst hprof hbound hnodup hwin hpasid hdwin hcredit
    exact sliceCreate_answers h hok hst hprof hbound hnodup hwin hpasid hdwin hcredit
  · exact fun k base r h hr hst hbase hown => sliceRing_answers hn h hr hst hbase hown
  · intro add pasid h hp hst hst' own
    constructor
    · rintro rfl hb hown hfree
      exact Answers.of (exec_sliceBind q n true pasid s) h (sliceBind_adds hn hp (by simpa using hst) (by simpa using hst')
        (by simpa using hb) (by rw [State.taken_bindingsOf]; exact hown) (by simpa using hfree))
    · rintro p rfl hf hown
      exact Answers.of (exec_sliceBind q n false pasid s) h (sliceBind_removes hn hp (by simpa using hst) (by simpa using hst')
        (by rw [State.taken_bindingsOf]; exact hf) (by rw [State.taken_bindingsOf]; exact hown))
  · exact fun add pasid h hp hst => sliceBind_busy hn hp h hst
  · exact fun h h0 => ⟨fun hst hpl => sliceStart_configured hn h h0 hst hpl, fun hst => sliceStart_quiesced hn h h0 hst⟩
  · exact fun h h0 hst => sliceQuiesce_accepts hn h h0 hst
  · exact fun h h0 hst => Answers.of (exec_sliceReset q n s) h (sliceReset_act (remove := false) hn h0 (by simpa using hst))
  · exact fun h h0 hst => Answers.of (exec_sliceRemove q n s) h (sliceReset_act (remove := true) hn h0 (by simpa using hst))
  · exact fun h h0 hst => sliceFault_answers hn h h0 hst
  · exact fun fl wt h hfl hfl' hwt hwt' hst hst' hfit => sliceShare_answers hn h hfl hfl' hwt hwt' hst hst' hfit
  · exact fun en lats h hl hst hst' hallow => slicePv_answers hn h hl hst hst' hallow
  · exact fun clear h => sliceStatus_answers hn h

end Sys2Proof.Machine
end

section
/-! O43: the Stream, Lattice, Phasor and Guard commands of Patchaif. -/
namespace Sys2Proof.Machine

-- one proof after the other: started together they wait on each other's results, each in a thread of its own
set_option Elab.async false

variable {s : State} {q : Req} {i l g : Nat}

@[simp] theorem State.taken_ctx (s : State) (q : Req) (i : Nat) : (s.taken q).ctx i = s.ctx i := State.of_taken (·.ctx i) fun _ => rfl

@[simp] theorem State.taken_gcmWords (s : State) (q : Req) (g : Nat) : (s.taken q).gcmWords g = s.gcmWords g :=
  State.of_taken (·.gcmWords g) fun _ => rfl

/-! ### Stream commands -/

theorem streamAdd_answers {w maps : List Nat}
    (h : Admits s q 0x0301 (w.flatMap (le 8) ++ listOctets (le 8) maps) false false)
    (hfree : (List.range 4096).find? (fun k => (s.ctx k).health == hFree) = some i)
    (hw : w.length = 6) (hm : maps.length = cxMapLen w) (hr : ctxReservedOk w = true) (hv : cxValid w = true)
    (h32 : ∀ m ∈ maps, m < 2 ^ 32) (hsv : cxGoose w = false → ∀ m ∈ maps, bit 30 m = false ∧ bits 13 0 m = 0)
    (hgo : cxGoose w = true → ∀ m ∈ maps, bits 21 16 m = 0)
    (hused : ∀ j < maps.length, (s.taken q).mapUsed (cxMapBase w + j) = false) {t : State}
    (ht : t = maps.zipIdx.foldl (fun (s : State) m => s.setMap (cxMapBase w + m.2) m.1) (s.taken q))
    (hok : t.ctxOk i w = true) (htime : t.ctxTimely w = true) (hfit : t.ctxFits i w = true) :
    Answers (.streamAdd q w maps) s q 0x0301 (le 4 i) (t.ctxInstall i w) := by
  have hsmall : (maps.any fun m => decide (2 ^ 32 ≤ m)) = false :=
    List.any_eq_false.mpr fun m hmem => by simpa using h32 m hmem
  have hplain : (!cxGoose w && maps.any fun m => bit 30 m || bits 13 0 m != 0) = false := by
    by_cases hg : cxGoose w = true
    · rw [hg, Bool.not_true, Bool.false_and]
    · rw [Bool.and_eq_false_iff]
      exact .inr (List.any_eq_false.mpr fun m hmem => by simp [hsv (Bool.eq_false_iff.mpr hg) m hmem])
  have hgoose : (cxGoose w && maps.any fun m => bits 21 16 m != 0) = false := by
    by_cases hg : cxGoose w = true
    · rw [Bool.and_eq_false_iff]
      exact .inr (List.any_eq_false.mpr fun m hmem => by simp [hgo hg m hmem])
    · rw [Bool.eq_false_iff.mpr hg, Bool.false_and]
  have hmaps : ((List.range maps.length).any fun j => (s.taken q).mapUsed (cxMapBase w + j)) = false :=
    List.any_eq_false.mpr fun j hj => by simpa using hused j (List.mem_range.mp hj)
  refine Answers.of (exec_streamAdd q w maps s) h ?_
  unfold streamAddAct
  simp only [State.taken_ctx, hfree]
  rw [if_neg (by simp only [hw, hm, hr, hv, hsmall, hplain, hgoose, ne_eq, not_true, Bool.not_true, Bool.false_eq_true, or_self,
    not_false_eq_true]), ← ht, if_neg (by simp only [hmaps, hok, htime]; decide),
    if_neg (by simp [hfit])]

theorem streamRemove_answers (hi : i < 4096) (hf : (s.ctx i).health ≠ hFree) (hret : (s.ctx i).health ≠ hRetiring)
    (h : Admits s q 0x0302 (le 4 i) false false) : Answers (.streamRemove q i) s q 0x0302 [] ((s.taken q).ctxRemove i) := by
  have hact : sctRemoveAct i (s.taken q) = (0, none, (s.taken q).ctxRemove i) := by
    unfold sctRemoveAct
    rw [if_neg (by omega), if_neg (by simp [hf, hret])]
  refine Answers.of (exec_streamRemove q i s) h ?_
  unfold streamRemoveAct
  rw [hact]
  rfl

theorem streamMode_answers {sim test : Bool} (hi : i < 4096) (hf : (s.ctx i).health ≠ hFree)
    (h : Admits s q 0x0303 (le 4 i ++ flagOctets sim ++ flagOctets test) false false) :
    Answers (.streamMode q i sim test) s q 0x0303 [] ((s.taken q).ctxMode i sim test) := by
  refine Answers.of (exec_streamMode q i sim test s) h ?_
  unfold streamModeAct
  rw [if_neg (by omega), if_neg (by simp [hf])]

theorem streamStatus_answers {clear : Bool} (hi : i < 4096) (h : Admits s q 0x0304 (flagOctets clear ++ le 4 i) false false) :
    Answers (.streamStatus q clear i) s q 0x0304 (wordsOctets ((s.taken q).ctxWords i ++ (s.taken q).ctxStat i))
      (if clear then (s.taken q).ctxStatClear i else s.taken q) :=
  Answers.of (exec_streamStatus q clear i s) h (if_neg (by omega))

theorem foreignList_answers (h : Admits s q 0x0305 [] false false) :
    Answers (.foreignList q) s q 0x0305 (listOctets (fun p : Nat × ForeignEntry => wordsOctets (ForeignEntry.words p.2))
      (s.ing.foreign.filter (fun p => p.2.valid))) (s.taken q) := by
  refine Answers.of (exec_foreignList q s) h ?_
  unfold foreignListAct
  rw [State.taken_ing]

theorem foreignClear_answers (hi : i = 0x7FFF ∨ i < 256) (h : Admits s q 0x0306 (le 4 i) false false) :
    Answers (.foreignClear q i) s q 0x0306 [] ((s.taken q).foreignFree i) :=
  Answers.of (exec_foreignClear q i s) h (if_neg (by omega))

/-! ### Lattice and Phasor commands -/

theorem cntOctets_length (s : State) (f : Field) (lo n : Nat) : (s.cntOctets f lo n).length = 8 * n := by
  simp [State.cntOctets, List.length_flatMap, Nat.mul_comm]

theorem latticeStatus_answers {clear : Bool} (hl : l < 4) (h : Admits s q 0x0401 (flagOctets clear ++ le 4 l) false false) :
    ∃ ps : Octets, ps.length = 148 ∧ ps.drop 20 = (s.taken q).cntOctets F.SLE_LAT_CNT_COUNT (16 * l) 16 ∧
      Answers (.latticeStatus q clear l) s q 0x0401 ps ((s.taken q).clearCnt F.SLE_LAT_CNT_COUNT (16 * l) 16 clear) := by
  refine ⟨_, ?_, ?_, Answers.of (exec_latticeStatus q clear l s) h (if_neg (by omega))⟩
  · simp only [List.length_append, State.regOctets, le_length, cntOctets_length]
  · exact List.drop_left' (by simp only [List.length_append, State.regOctets, le_length])

theorem latticeSpec_answers {en : Bool} (hl : l < 4) (h : Admits s q 0x0402 (le 4 l ++ flagOctets en) false false) :
    Answers (.latticeSpec q l en) s q 0x0402 [] ((s.taken q).setB (F.SLE_LAT_CFG_SPEC_EN.nth l) en) :=
  Answers.of (exec_latticeSpec q l en s) h (if_neg (by omega))

theorem latticeTol_answers {tolI tolV tolRel : Nat} (hl : l < 4) (hI : tolI < 65536) (hV : tolV < 256) (hrel : tolRel < 256)
    (h : Admits s q 0x0403 (le 4 l ++ le 2 tolI ++ le 1 tolV ++ le 1 tolRel) false false) :
    Answers (.latticeTol q l tolI tolV tolRel) s q 0x0403 [] ((((s.taken q).setF (F.SLE_LAT_TOL_TOL_I.nth l) tolI).setF
      (F.SLE_LAT_TOL_TOL_V.nth l) tolV).setF (F.SLE_LAT_TOL_TOL_REL.nth l) tolRel) :=
  Answers.of (exec_latticeTol q l tolI tolV tolRel s) h (if_neg (by omega))

theorem phasorStatus_answers {clear : Bool} (h : Admits s q 0x0404 (flagOctets clear) false false) :
    ∃ ps : Octets, ps.length = 320 ∧ ps.drop 256 = (s.taken q).cntOctets F.PHE_CNT_COUNT 0 8 ∧
      Answers (.phasorStatus q clear) s q 0x0404 ps ((s.taken q).clearCnt F.PHE_CNT_COUNT 0 8 clear) := by
  have hlen : ((List.range 64).flatMap (fun g => le 4 ((s.taken q).get (F.PHE_GRP_F_F.nth g)))).length = 256 := by
    simp only [List.length_flatMap, le_length, List.map_const', List.length_range, List.sum_replicate]
    rfl
  refine ⟨(List.range 64).flatMap (fun g => le 4 ((s.taken q).get (F.PHE_GRP_F_F.nth g))) ++ (s.taken q).cntOctets F.PHE_CNT_COUNT 0 8,
    ?_, List.drop_left' hlen, Answers.of (exec_phasorStatus q clear s) h rfl⟩
  rw [List.length_append, hlen, cntOctets_length]

/-! ### Guard commands -/

theorem guardSet_answers {d : List Nat} (h : Admits s q 0x0501 (le 4 g ++ d.flatMap (le 8)) false false) (hg : g < 4096)
    (hd : d.length = 5) (h0 : wbits d 0 35 32 = 0) (h4 : wbits d 4 47 0 = 0) (hok : gdParamOk (gdParam (s.gcmWords g) d) = true) :
    Answers (.guardSet q g d) s q 0x0501 [] ((s.taken q).gcmFrom g (gdParam (s.gcmWords g) d)) := by
  have hset : (s.taken q).gcmParamSet g d = (0, (s.taken q).gcmFrom g (gdParam (s.gcmWords g) d)) := by
    unfold State.gcmParamSet
    rw [if_neg (by omega), State.taken_gcmWords, if_neg (by simp [hok])]
  refine Answers.of (exec_guardSet q g d s) h ?_
  unfold guardSetAct
  rw [if_neg (by simp [hd, h0, h4]), hset]
  rfl

theorem guardEnable_answers {en : Bool} (h : Admits s q 0x0502 (le 4 g ++ flagOctets en) false false) (hg : g < 4096) :
    Answers (.guardEnable q g en) s q 0x0502 []
      ((s.taken q).gcmFrom g (putBits 63 63 (b2n en) (word (s.gcmWords g) 0) :: (s.gcmWords g).drop 1)) := by
  have hset : (s.taken q).gcmEnableSet g en =
      (0, (s.taken q).gcmFrom g (putBits 63 63 (b2n en) (word (s.gcmWords g) 0) :: (s.gcmWords g).drop 1)) := by
    unfold State.gcmEnableSet
    rw [if_neg (by omega), State.taken_gcmWords]
  refine Answers.of (exec_guardEnable q g en s) h ?_
  unfold guardEnableAct
  rw [hset]
  rfl

/-- Settles O43: each command passes its own checks and leaves its one update. -/
theorem streamLatticeAndGuardCommandsComplete : Obligations.StreamLatticeAndGuardCommandsComplete := by
  refine ⟨fun s q i => ⟨?_, ?_, ?_, ?_, foreignList_answers, foreignClear_answers⟩, fun s q l => ⟨?_, ?_, ?_, ?_, ?_, ?_, ?_⟩⟩
  · intro w maps h hfree u t hw hm hr hv h32 hsv hgo hused hok htime hfit
    exact streamAdd_answers h hfree hw hm hr hv h32 hsv hgo hused rfl hok htime hfit
  · exact fun hi hf hret h => streamRemove_answers hi hf hret h
  · exact fun hi hf sim test h => streamMode_answers hi hf h
  · exact fun hi clear h => streamStatus_answers hi h
  · exact fun hl clear h => latticeStatus_answers hl h
  · exact fun hl en h => latticeSpec_answers hl h
  · exact fun hl tolI tolV tolRel h hI hV hrel => latticeTol_answers hl hI hV hrel h
  · exact fun clear h => phasorStatus_answers h
  · exact fun g d h hg hd h0 h4 hok => guardSet_answers h hg hd h0 h4 hok
  · exact fun g en h hg => guardEnable_answers h hg
  · exact fun g h hg => Answers.of (exec_guardStatus q g s) h (if_neg (by omega))

end Sys2Proof.Machine
end

section
/-! O44: the Logic commands of Patchaif. -/
namespace Sys2Proof.Machine

-- one proof after the other: started together they wait on each other's results, each in a thread of its own
set_option Elab.async false

variable {s : State} {q : Req} {k sp ix : Nat}

@[simp] theorem State.taken_slpEnt (s : State) (q : Req) (t i : Nat) : (s.taken q).slpEnt t i = s.slpEnt t i :=
  State.of_taken (·.slpEnt t i) fun _ => rfl

@[simp] theorem State.taken_hasProg (s : State) (q : Req) (k : Nat) : (s.taken q).hasProg k = s.hasProg k :=
  State.of_taken (·.hasProg k) fun _ => rfl

@[simp] theorem State.taken_lastMode (s : State) (q : Req) (k : Nat) : (s.taken q).lastMode k = s.lastMode k :=
  State.of_taken (·.lastMode k) fun _ => rfl

@[simp] theorem State.taken_nextCycle (s : State) (q : Req) (c : Nat) : (s.taken q).nextCycle c = s.nextCycle c :=
  State.of_taken (·.nextCycle c) fun _ => rfl

@[simp] theorem State.taken_progAt (s : State) (q : Req) (k n : Nat) : (s.taken q).progAt k n = s.progAt k n :=
  State.of_taken (·.progAt k n) fun _ => rfl

@[simp] theorem State.taken_progWords (s : State) (q : Req) (p : Nat × Nat) : (s.taken q).progWords p = s.progWords p :=
  State.of_taken (·.progWords p) fun _ => rfl

/-- No element fails a test that each of them passes. -/
theorem find?_not_eq_none {α : Type} {p : α → Bool} {l : List α} (h : ∀ x ∈ l, p x = true) : l.find? (fun x => !p x) = none :=
  List.find?_eq_none.mpr fun x hx => by simp [h x hx]

theorem not_slotCount_le (hk : k < 129) : ¬ slotCount ≤ k := Nat.not_le.mpr hk

/-! ### STATUS, READ and MODE -/

theorem clearCnt_false (s : State) (f : Field) (lo n : Nat) : s.clearCnt f lo n false = s := rfl

theorem clearCnt_touches {f : Field} {lo n : Nat} {clear : Bool} : Touches [.regs] s (s.clearCnt f lo n clear) :=
  Touches.ite (Touches.foldl (fun _ _ hu => hu.setF _ _) _ (.refl _ s)) (.refl _ s)

/-- The counters that LOGIC_STATUS clears. -/
def State.logicClear (s : State) (clear : Bool) : State :=
  ([F.SLP_CLASS_STAT_MAX_EXEC, F.SLP_CLASS_CNT_CYCLES, F.SLP_CLASS_CNT_SKIP, F.SLP_CLASS_CNT_WARN].foldl
    (fun s f => s.clearCnt f 0 16 clear) s).clearCnt F.SLP_CNT_COUNT 0 8 clear

theorem logicClear_touches {clear : Bool} : Touches [.regs] s (s.logicClear clear) :=
  Touches.via clearCnt_touches (Touches.foldl (fun _ _ hu => Touches.via clearCnt_touches hu) _ (.refl _ s))

theorem logicStatus_answers {clear : Bool} (hk : k < 129)
    (h : Admits s q 0x0601 (flagOctets clear ++ le 4 k) false (k == 1 + sessSlice q.sess)) :
    ∃ (ps : Octets) (t : State), Answers (.logicStatus q clear k) s q 0x0601 ps t ∧ (clear = false → t = s.taken q) ∧
      t.slp = s.slp ∧ t.mem = s.mem := by
  have htouch : Touches [.regs] (s.taken q) ((s.taken q).logicClear clear) := logicClear_touches
  refine ⟨_, (s.taken q).logicClear clear, Answers.of (exec_logicStatus q clear k s) h (if_neg (not_slotCount_le hk)), ?_,
    htouch.slp_eq.trans (State.taken_slp s q), htouch.mem_eq.trans (State.taken_mem s q)⟩
  rintro rfl
  rfl

theorem logicRead_answers {ops : List (Nat × Nat)} (h : Admits s q 0x0602 (listOctets (fun o => le 1 o.1 ++ le 4 o.2) ops) false
    (ops.all (s.readItemAllowed q))) (hlen : ops.length ≤ 256) (hok : ∀ o ∈ ops, readItemOk o = true) :
    ∃ ps : Octets, ps.take 2 = le 2 ops.length ∧ Answers (.logicRead q ops) s q 0x0602 ps (s.taken q) := by
  refine ⟨listOctets (fun o => if o.1 < 10 then le 8 ((s.taken q).opnd o.1 o.2)
    else ((s.taken q).opState (o.1 - 16) o.2).flatMap (le 8)) ops, List.take_left' (le_length 2 _),
    Answers.of (exec_logicRead q ops s) h ?_⟩
  unfold logicReadAct
  rw [if_neg (by omega), find?_not_eq_none hok]

theorem logicMode_answers {mode : Nat} (hk : k < 129) (h : Admits s q 0x0603 (le 4 k ++ le 1 mode) false
    (k == 1 + sessSlice q.sess && slSelfMode (s.sltEnt 0 (sessSlice q.sess)))) (hm : mode < 3) (hp : s.hasProg k = true)
    (hf : mode ≠ 1 ∨ s.slp.faults.contains k = false ∨ s.lastMode k ≠ 0) :
    Answers (.logicMode q k mode) s q 0x0603 [] ((s.taken q).modeReq k mode false) := by
  refine Answers.of (exec_logicMode q k mode s) h ?_
  unfold logicModeAct
  rw [if_neg (by rintro (h | h) <;> [exact absurd h (not_slotCount_le hk); omega]), State.taken_hasProg, if_neg (by simp [hp]),
    State.taken_slp, State.taken_lastMode, if_neg ?_]
  rintro ⟨hm1, hc, h0⟩
  rcases hf with hf | hf | hf
  · exact hf hm1
  · exact Bool.false_ne_true (hf.symm.trans hc)
  · exact hf h0

/-! ### PARAM, FORCE and UNFORCE -/

/-- The parameters that the program of a slot uses in a cycle. -/
def State.prmUsed (s : State) (k : Nat) (counters : Bool) : List Nat :=
  if counters then usesOf 0x1B 0x1D (s.progWords (s.progAt k (s.nextCycle (soClass (s.slpEnt 0 k)))))
  else usesOf 0x16 0x1A (s.progWords (s.progAt k (s.nextCycle (soClass (s.slpEnt 0 k)))))

theorem logicParam_act {counters : Bool} {vals : List (Nat × Nat)} (hk : k < 129)
    (hv : ∀ v ∈ vals, v.1 < slpSize (if counters then 3 else 2) ∧ v.2 < 2 ^ 32 ∧ (s.prmUsed k counters).contains v.1 = true) :
    logicParamAct k counters vals s = (.done [], vals.foldl
      (fun s' v => s'.setPrm (if counters then 3 else 2) v.1 (s.nextCycle (soClass (s.slpEnt 0 k))) v.2) s) := by
  have hrange : vals.find? (fun v => decide (slpSize (if counters then 3 else 2) ≤ v.1) || decide (2 ^ 32 ≤ v.2)) = none :=
    List.find?_eq_none.mpr fun v hmem => by
      obtain ⟨h1, h2, -⟩ := hv v hmem
      rw [decide_eq_false (Nat.not_le.mpr h1), decide_eq_false (Nat.not_le.mpr h2)]
      decide
  have hused : vals.find? (fun v => !(s.prmUsed k counters).contains v.1) = none :=
    find?_not_eq_none fun v hmem => (hv v hmem).2.2
  unfold logicParamAct
  dsimp only
  rw [if_neg (not_slotCount_le hk), hrange, ← State.prmUsed, hused]

theorem logicParam_answers {counters : Bool} {vals : List (Nat × Nat)} (hk : k < 129)
    (h : Admits s q 0x0604 (le 4 k ++ flagOctets counters ++ listOctets (fun v => le 4 v.1 ++ le 4 v.2) vals) false false)
    (hv : ∀ v ∈ vals, v.1 < slpSize (if counters then 3 else 2) ∧ v.2 < 2 ^ 32 ∧ (s.prmUsed k counters).contains v.1 = true) :
    Answers (.logicParam q k counters vals) s q 0x0604 [] (vals.foldl
      (fun (s' : State) v => s'.setPrm (if counters then 3 else 2) v.1 (s.nextCycle (soClass (s.slpEnt 0 k))) v.2) (s.taken q)) := by
  have hused : (s.taken q).prmUsed k counters = s.prmUsed k counters := State.of_taken (·.prmUsed k counters) fun _ => rfl
  refine Answers.of (exec_logicParam q k counters vals s) h ((logicParam_act hk (by rwa [hused])).trans ?_)
  rw [State.taken_slpEnt, State.taken_nextCycle]

theorem logicForce_answers {v : Bool} (h : Admits s q 0x0605 (le 4 ix ++ le 1 sp ++ flagOctets v) false false)
    (hallow : s.flag F.SLP_CTL_FORCE_ALLOW = true) (hf : forceable sp = true) (hix : ix < spaceSize sp)
    (hcap : Tbl.has (forceKey sp ix) s.slp.forces = true ∨ s.slp.forces.length < 1024) :
    Answers (.logicForce q sp ix v) s q 0x0605 [] ((s.taken q).setForce sp ix (1 + b2n v)) := by
  refine Answers.of (exec_logicForce q sp ix v s) h ?_
  unfold logicForceAct
  rw [if_neg (by simp [hallow]), if_neg (by simp [hf, hix]), if_neg ?_]
  rw [State.taken_slp]
  rintro ⟨hnew, hlen⟩
  rcases hcap with hcap | hcap
  · rw [hcap] at hnew
    exact Bool.false_ne_true hnew
  · omega

theorem logicUnforce_answers (h : Admits s q 0x0606 (le 4 ix ++ le 1 sp) false false) (hsp : sp < 10) (hix : ix < spaceSize sp)
    (hhas : Tbl.has (forceKey sp ix) s.slp.forces = true) :
    Answers (.logicUnforce q sp ix) s q 0x0606 [] ((s.taken q).setForce sp ix 0) := by
  refine Answers.of (exec_logicUnforce q sp ix s) h ?_
  unfold logicUnforceAct
  rw [if_neg (by omega), if_neg (by simp [hhas])]

/-! ### LOAD, SWAP and ABORT -/

theorem logicLoad_accepts {buf : BufRef} {p : ProgramImage} (hk : k < 129)
    (h : Admits s q 0x0607 (le 4 k ++ bufOctets buf) true false) (hallow : s.flag F.SLP_CTL_ONLINE_ALLOW = true)
    (hbuf : s.bufOk q buf = true) (hst : s.slp.staged = none) :
    Accepts (.logicLoad q k buf p) s q 0x0607 k (heldBy [buf]) ((s.taken q).setStaged (some ⟨k, p, 0, 1, 0⟩)) := by
  have hslot : ¬ (slotCount ≤ k ∨ (!s.bufOk q buf) = true) := by
    rintro (h | h)
    · exact absurd h (not_slotCount_le hk)
    · rw [hbuf] at h
      exact Bool.false_ne_true h
  refine Accepts.of (exec_logicLoad q k buf p s) h ?_
  unfold logicLoadAct
  rw [if_neg (by simp [hallow]), State.taken_bufOk, if_neg hslot, if_neg (by simp [hst])]

theorem logicSwap_answers {p : StagedProg} (hk : k < 129) (h : Admits s q 0x0608 (le 4 k) false false)
    (hallow : s.flag F.SLP_CTL_ONLINE_ALLOW = true) (hst : s.slp.staged = some p) (hp : p.stage = 2) (hslot : p.slot = k) :
    let n := s.nextCycle (soClass (s.slpEnt 0 k))
    let u := p.prog.limits.foldl (fun (s : State) v => s.setPrm 3 v.1 n v.2)
      (p.prog.presets.foldl (fun (s : State) v => s.setPrm 2 v.1 n v.2) (s.taken q))
    Answers (.logicSwap q k) s q 0x0608 []
      ({ u with slp := { u.slp with faults := u.slp.faults.filter (fun j => j != k) } }.setStaged (some { p with stage := 3, swapAt := n })) := by
  refine Answers.of (exec_logicSwap q k s) h ?_
  unfold logicSwapAct
  rw [if_neg (by simp [hallow]), if_neg (not_slotCount_le hk), State.taken_slp, hst]
  dsimp only
  rw [if_neg (by omega), if_neg (by simp [hp, hslot]), State.taken_slpEnt, State.taken_nextCycle]

theorem logicAbort_answers {p : StagedProg} (h : Admits s q 0x0609 [] false false) (hst : s.slp.staged = some p) (hp : p.stage = 2) :
    Answers (.logicAbort q) s q 0x0609 [] (((List.range p.prog.words.length).foldl
      (fun (s : State) j => s.setSlpEnt 5 (p.base + j) []) (s.taken q)).setStaged none) := by
  refine Answers.of (exec_logicAbort q s) h ?_
  unfold logicAbortAct
  rw [State.taken_slp, hst]
  dsimp only
  rw [if_neg (by omega), if_neg (by simp [hp])]

/-- Settles O44: each command passes its own checks and leaves its one update. -/
theorem logicCommandsComplete : Obligations.LogicCommandsComplete := by
  refine fun s q k hk => ⟨?_, ?_, ?_, ?_, ?_, ?_, ?_, ?_, ?_⟩
  · exact fun clear h => logicStatus_answers hk h
  · exact fun ops h hlen hok => logicRead_answers h hlen hok
  · exact fun mode h hm hp hf => logicMode_answers hk h hm hp hf
  · intro ctr vals h n ws hv
    exact logicParam_answers hk h hv
  · exact fun sp ix v h hallow hf hix hcap => logicForce_answers h hallow hf hix hcap
  · exact fun sp ix h hsp hix hhas => logicUnforce_answers h hsp hix hhas
  · exact fun buf p h hallow hbuf hst => logicLoad_accepts hk h hallow hbuf hst
  · exact fun p h hallow hst hp hslot => logicSwap_answers hk h hallow hst hp hslot
  · exact fun p h hst hp => logicAbort_answers h hst hp

end Sys2Proof.Machine
end

section
/-! O45: the Publication and Record commands of Patchaif. -/
namespace Sys2Proof.Machine

-- one proof after the other: started together they wait on each other's results, each in a thread of its own
set_option Elab.async false

variable {s : State} {q : Req} {i k : Nat}

@[simp] theorem State.taken_pubEnt (s : State) (q : Req) (i : Nat) : (s.taken q).pubEnt i = s.pubEnt i :=
  State.of_taken (·.pubEnt i) fun _ => rfl

@[simp] theorem State.taken_dreEnt (s : State) (q : Req) (t i : Nat) : (s.taken q).dreEnt t i = s.dreEnt t i :=
  State.of_taken (·.dreEnt t i) fun _ => rfl

@[simp] theorem State.taken_recOf (s : State) (q : Req) (i : Nat) : (s.taken q).recOf i = s.recOf i :=
  State.of_taken (·.recOf i) fun _ => rfl

@[simp] theorem State.taken_dirState (s : State) (q : Req) (w : List Nat) (k : Nat) : (s.taken q).dirState w k = s.dirState w k :=
  State.of_taken (·.dirState w k) fun _ => rfl

@[simp] theorem State.taken_rdWords (s : State) (q : Req) (a n : Nat) : (s.taken q).rdWords a n = s.rdWords a n :=
  State.of_taken (·.rdWords a n) fun _ => rfl

@[simp] theorem State.taken_lattice (s : State) (q : Req) (l : Nat) : (s.taken q).lattice l = s.lattice l :=
  State.of_taken (·.lattice l) fun _ => rfl

@[simp] theorem State.taken_recCheck (s : State) (q : Req) (i : Nat) : (s.taken q).recCheck i = s.recCheck i :=
  State.of_taken (·.recCheck i) fun _ => rfl

@[simp] theorem State.taken_exportHolds (s : State) (q : Req) (i k : Nat) : (s.taken q).exportHolds i k = s.exportHolds i k := by
  unfold State.exportHolds
  rw [State.taken_tmc_exp]

/-! ### Publication commands -/

theorem not_pubCount_le (hi : i < pubCount) : ¬ pubCount ≤ i := Nat.not_le.mpr hi

theorem pubStatus_answers {clear : Bool} (hi : i < pubCount)
    (h : Admits s q 0x0701 (flagOctets clear ++ le 4 i) false (s.pubOwned (sessSlice q.sess) i)) :
    ∃ ps : Octets, ps.take 32 = (List.range 4).flatMap (fun k => le 8 (word (s.pubEnt i) k)) ∧
      Answers (.pubStatus q clear i) s q 0x0701 ps ((s.taken q).clearCnt F.PUB_CNT_COUNT 0 8 clear) := by
  refine ⟨_, ?_, Answers.of (exec_pubStatus q clear i s) h (if_neg (not_pubCount_le hi))⟩
  rw [State.taken_pubEnt, List.append_assoc, List.append_assoc]
  exact List.take_left' (by simp only [List.length_flatMap, le_length, List.map_const', List.length_range, List.sum_replicate]; rfl)

theorem pubEnable_answers {en : Bool} (hi : i < pubCount) (hv : pbValid (s.pubEnt i) = true)
    (h : Admits s q 0x0702 (le 4 i ++ flagOctets en) false false) :
    Answers (.pubEnable q i en) s q 0x0702 [] ((s.taken q).pubEnableSet i en).pubFlush := by
  refine Answers.of (exec_pubEnable q i en s) h ?_
  unfold pubEnableCmd
  rw [if_neg (not_pubCount_le hi), if_neg (by simp [hv])]

theorem pubMode_answers {sim test : Bool} (hi : i < pubCount) (hv : pbValid (s.pubEnt i) = true)
    (h : Admits s q 0x0703 (le 4 i ++ flagOctets sim ++ flagOctets test) false false) :
    Answers (.pubMode q i sim test) s q 0x0703 [] ((s.taken q).pubModeSet i (b2n sim) (b2n test)) := by
  refine Answers.of (exec_pubMode q i sim test s) h ?_
  unfold pubModeCmd
  rw [if_neg (not_pubCount_le hi), if_neg (by simp [hv])]

/-! ### Record commands -/

section Instance

variable (hi : i < 64)
include hi

theorem recStatus_answers {clear : Bool}
    (h : Admits s q 0x0801 (flagOctets clear ++ le 4 i) false (s.recOwned (sessSlice q.sess) i)) :
    Answers (.recStatus q clear i) s q 0x0801 (((s.taken q).recStatWords i).flatMap (le 8) ++ (s.taken q).cntOctets F.DRE_CNT_COUNT 0 10)
      ((s.taken q).clearCnt F.DRE_CNT_COUNT 0 10 clear) :=
  Answers.of (exec_recStatus q clear i s) h (if_neg (by omega))

variable (hv : dvValid (s.dreEnt 0 i) = true)
include hv

theorem recCheck_eq_zero : s.recCheck i = 0 := by
  unfold State.recCheck
  rw [if_neg (by omega), if_neg (by simp [hv])]

theorem recList_answers (h : Admits s q 0x0802 (le 4 i) false (s.recOwned (sessSlice q.sess) i)) :
    Answers (.recList q i) s q 0x0802
      (listOctets (fun k => (s.rdWords (dirAddr (s.dreEnt 0 i) k) 16).flatMap (le 8)) (List.range (dvNbuf (s.dreEnt 0 i))))
      (s.taken q) := by
  refine Answers.of (exec_recList q i s) h ?_
  unfold recListAct
  rw [if_neg (by omega)]
  simp only [State.taken_dreEnt, State.taken_rdWords, if_pos hv]

theorem recArm_eq (hst : (s.recOf i).state = 0) : s.recArm i = (0, s.recArmNow i) := by
  unfold State.recArm
  rw [if_neg (by simp [recCheck_eq_zero hi hv]), if_neg (by simp [hst])]

theorem recDisarm_eq (hst : (s.recOf i).state ≠ 0) : s.recDisarm i = (0, s.recDisarmNow i) := by
  unfold State.recDisarm
  rw [if_neg (by simp [recCheck_eq_zero hi hv]), if_neg hst]

theorem recTrigger_eq (hst : (s.recOf i).state ≠ 0) : s.recTrigger i =
    (0, s.modRec i (fun x => { x with manual := x.manual ++ [(s.lattice (dvLat (s.dreEnt 0 i))).next] })) := by
  unfold State.recTrigger
  rw [if_neg (by simp [recCheck_eq_zero hi hv]), if_neg hst]

theorem recRelease_eq (hk : k < dvNbuf (s.dreEnt 0 i)) (hst : s.dirState (s.dreEnt 0 i) k = 3) :
    s.recRelease i k = (0, s.recReleaseBuf i k) := by
  unfold State.recRelease
  rw [if_neg (by simp [recCheck_eq_zero hi hv]), if_neg (Nat.not_le.mpr hk), if_neg (by simp [hst])]

theorem recArm_answers (h : Admits s q 0x0803 (le 4 i) false (s.recOwned (sessSlice q.sess) i)) (hst : (s.recOf i).state = 0) :
    Answers (.recArm q i) s q 0x0803 [] ((s.taken q).recArmNow i) := by
  refine Answers.of (exec_recArm q i s) h ?_
  rw [recArm_eq hi (by simpa using hv) (by simpa using hst)]
  rfl

theorem recDisarm_answers (h : Admits s q 0x0804 (le 4 i) false (s.recOwned (sessSlice q.sess) i)) (hst : (s.recOf i).state ≠ 0) :
    Answers (.recDisarm q i) s q 0x0804 [] ((s.taken q).recDisarmNow i) := by
  refine Answers.of (exec_recDisarm q i s) h ?_
  rw [recDisarm_eq hi (by simpa using hv) (by simpa using hst)]
  rfl

theorem recTrigger_answers (h : Admits s q 0x0805 (le 4 i) false (s.recOwned (sessSlice q.sess) i)) (hst : (s.recOf i).state ≠ 0) :
    Answers (.recTrigger q i) s q 0x0805 []
      ((s.taken q).modRec i (fun x => { x with manual := x.manual ++ [(s.lattice (dvLat (s.dreEnt 0 i))).next] })) := by
  refine Answers.of (exec_recTrigger q i s) h ?_
  rw [recTrigger_eq hi (by simpa using hv) (by simpa using hst), State.taken_dreEnt, State.taken_lattice]
  rfl

theorem recRelease_one (h : Admits s q 0x0806 (le 4 i ++ flagOctets false ++ le 4 k) false (s.recOwned (sessSlice q.sess) i))
    (hk : k < dvNbuf (s.dreEnt 0 i)) (hst : s.dirState (s.dreEnt 0 i) k = 3) (hx : s.exportHolds i k = false) :
    Answers (.recRelease q i (some k)) s q 0x0806 [] ((s.taken q).recReleaseBuf i k) := by
  refine Answers.of (exec_recRelease q i (some k) s) h ?_
  unfold recReleaseAct
  dsimp only
  rw [if_neg (by simp [hx]), recRelease_eq hi (by simpa using hv) (by simpa using hk) (by simpa using hst)]
  rfl

theorem recRelease_all (h : Admits s q 0x0806 (le 4 i ++ flagOctets true ++ le 4 0) false (s.recOwned (sessSlice q.sess) i))
    (hx : ∀ k ∈ (List.range (dvNbuf (s.dreEnt 0 i))).filter (fun k => s.dirState (s.dreEnt 0 i) k == 3), s.exportHolds i k = false) :
    Answers (.recRelease q i none) s q 0x0806 []
      (((List.range (dvNbuf (s.dreEnt 0 i))).filter (fun k => s.dirState (s.dreEnt 0 i) k == 3)).foldl
        (fun (s : State) k => s.recReleaseBuf i k) (s.taken q)) := by
  have hany : ((List.range (dvNbuf (s.dreEnt 0 i))).filter (fun k => s.dirState (s.dreEnt 0 i) k == 3)).any (s.exportHolds i) = false :=
    List.any_eq_false.mpr fun k hk => by simp [hx k hk]
  have hholds : (s.taken q).exportHolds i = s.exportHolds i := funext (State.taken_exportHolds s q i)
  refine Answers.of (exec_recRelease q i none s) h ?_
  unfold recReleaseAct
  dsimp only
  rw [if_neg (by simp [recCheck_eq_zero hi hv])]
  simp only [State.taken_dreEnt, State.taken_dirState]
  rw [hholds, hany]
  rfl

end Instance

theorem recExport_accepts {fmt : Nat} {cfg dat : BufRef} {recs : List RecSrc}
    (h : Admits s q 0x0807 (le 1 fmt ++ bufOctets cfg ++ bufOctets dat ++ listOctets srcOctets recs) true
      (s.exportOwned (sessSlice q.sess) recs)) (hok : exportOk fmt recs.length = true) (hdat : s.bufOk q dat = true)
    (hcfg : fmt = 2 ∨ s.bufOk q cfg = true) (hsrc : recs.findSome? ((s.taken q).recSrcFail q) = none) :
    Accepts (.recExport q fmt cfg dat recs) s q 0x0807 0
      (heldBy ([cfg, dat] ++ recs.filterMap (fun (r : RecSrc) => match r with | .raw b => some b | _ => none)))
      { s.taken q with tmc := { (s.taken q).tmc with exp := some ⟨fmt, cfg, dat, recs⟩ } } := by
  have hneg : (fmt != 2 && !s.bufOk q cfg) = false := by
    rcases hcfg with rfl | hcfg
    · rfl
    · rw [hcfg, Bool.not_true, Bool.and_false]
  refine Accepts.of (exec_recExport q fmt cfg dat recs s) h ?_
  unfold recExportAct
  rw [State.taken_bufOk, State.taken_bufOk, hok, hdat, hneg, hsrc]
  rfl

/-- Settles O45: each command passes its own checks and leaves its one update. -/
theorem publicationAndRecordCommandsComplete : Obligations.PublicationAndRecordCommandsComplete := by
  refine fun s q i => ⟨?_, ?_, ?_, fun hi => ⟨?_, ?_, ?_, ?_, ?_, ?_, ?_⟩, ?_⟩
  · exact fun hi clear h => pubStatus_answers hi h
  · exact fun hi hv en h => pubEnable_answers hi hv h
  · exact fun hi hv sim test h => pubMode_answers hi hv h
  · exact fun clear h => recStatus_answers hi h
  · exact fun h hv => recList_answers hi hv h
  · exact fun h hv hst => recArm_answers hi hv h hst
  · exact fun h hv hst => recDisarm_answers hi hv h hst
  · exact fun h hv hst => recTrigger_answers hi hv h hst
  · exact fun k h hv hk hst hx => recRelease_one hi hv h hk hst hx
  · intro h hv ks hx
    exact recRelease_all hi hv h hx
  · exact fun fmt cfg dat recs h hok hdat hcfg hsrc => recExport_accepts h hok hdat hcfg hsrc

end Sys2Proof.Machine
end

section
/-! O46: the Pair and Safety commands of Patchaif. -/
namespace Sys2Proof.Machine

-- one proof after the other: started together they wait on each other's results, each in a thread of its own
set_option Elab.async false

variable {s : State} {q : Req} {i k : Nat}

@[simp] theorem State.taken_role (s : State) (q : Req) : (s.taken q).role = s.role := State.taken_get s q _

@[simp] theorem State.taken_ready (s : State) (q : Req) : (s.taken q).ready = s.ready := State.taken_flag s q _

@[simp] theorem State.taken_ist (s : State) (q : Req) : (s.taken q).ist = s.ist := State.taken_get s q _

@[simp] theorem State.taken_lossTime (s : State) (q : Req) : (s.taken q).lossTime = s.lossTime :=
  State.of_taken (·.lossTime) fun _ => rfl

@[simp] theorem State.taken_fnClosed (s : State) (q : Req) (m : Nat) : (s.taken q).fnClosed m = s.fnClosed m :=
  State.of_taken (·.fnClosed m) fun _ => rfl

@[simp] theorem State.taken_arcLight (s : State) (q : Req) (m : Nat) : (s.taken q).arcLight m = s.arcLight m :=
  State.of_taken (·.arcLight m) fun _ => rfl

@[simp] theorem State.taken_sout (s : State) (q : Req) (k : Nat) : (s.taken q).sout k = s.sout k :=
  State.of_taken (·.sout k) fun _ => rfl

@[simp] theorem State.taken_islandOn (s : State) (q : Req) : (s.taken q).islandOn = s.islandOn :=
  State.of_taken (·.islandOn) fun _ => rfl

@[simp] theorem State.taken_sameBundle (s : State) (q : Req) : (s.taken q).sameBundle = s.sameBundle := by
  unfold State.sameBundle State.bundleId
  rw [State.taken_prc, State.taken_tmc_locked, State.taken_tmc_bundleId]

@[simp] theorem State.taken_switchOk (s : State) (q : Req) : (s.taken q).switchOk = s.switchOk := by
  simp only [State.switchOk, State.taken_prc, State.taken_flag, State.taken_role, State.taken_sup, State.taken_sameBundle]

/-! ### Pair commands -/

theorem pairStatus_answers {clear : Bool} (h : Admits s q 0x0901 (flagOctets clear) false false) :
    ∃ ps : Octets, ps.length = 192 ∧ Answers (.pairStatus q clear) s q 0x0901 ps
      (((s.taken q).clearCnt F.PRC_CNT_COUNT 0 16 clear).clearCnt F.PRC_CIC_CNT_COUNT 0 4 clear) := by
  refine ⟨_, ?_, Answers.of (exec_pairStatus q clear s) h rfl⟩
  simp only [List.length_append, State.regOctets, le_length, cntOctets_length]

theorem pairSwitch_waits (h : Admits s q 0x0902 [] false false) (hok : s.switchOk = true) :
    exec (.pairSwitch q) s = .next { s.taken q with prc := { (s.taken q).prc with armed := true, switchReq := some q } } := by
  refine (exec_pairSwitch q s).trans (State.patchaif_later h ?_)
  unfold pairSwitchAct
  rw [State.taken_switchOk, hok]
  rfl

theorem pairSwitch_refused (h : Admits s q 0x0902 [] false false) (hok : s.switchOk = false) :
    exec (.pairSwitch q) s = .next ((s.taken q).answer q 0x0902 1 stWrongState (detail 0x0E 0 0) true (s.takeReq q).1) := by
  refine (exec_pairSwitch q s).trans (State.patchaif_fail h (u := s.taken q) ?_)
  unfold pairSwitchAct
  rw [State.taken_switchOk, hok]
  rfl

theorem pairFence_fences (h : Admits s q 0x0903 [] false false) (hf : ¬(s.role = 3 ∧ s.get F.PRC_STATUS_FENCE_REASON = 5)) :
    Answers (.pairFence q) s q 0x0903 [] ((s.taken q).fence 4) := by
  refine Answers.of (exec_pairFence q s) h ?_
  unfold pairFenceAct
  rw [State.taken_role, State.taken_get, if_neg hf]

theorem pairFence_faulted (h : Admits s q 0x0903 [] false false) (hr : s.role = 3) (hf : s.get F.PRC_STATUS_FENCE_REASON = 5) :
    Answers (.pairFence q) s q 0x0903 [] (s.taken q) := by
  refine Answers.of (exec_pairFence q s) h ?_
  unfold pairFenceAct
  rw [State.taken_role, State.taken_get, if_pos ⟨hr, hf⟩]

theorem pairRelease_answers (h : Admits s q 0x0904 [] false false) (hr : s.role = 3) (hf : s.get F.PRC_STATUS_FENCE_REASON = 4) :
    Answers (.pairRelease q) s q 0x0904 [] ((s.taken q).setF F.PRC_STATUS_FENCE_REASON 1).singleAlone := by
  refine Answers.of (exec_pairRelease q s) h ?_
  unfold pairReleaseAct
  rw [State.taken_role, State.taken_get, if_pos ⟨hr, hf⟩]

theorem pairAlone_answers (h : Admits s q 0x0905 [] false false) (hr : s.role = 3) (hf : s.get F.PRC_STATUS_FENCE_REASON ≠ 5)
    (hready : s.ready = true) (hlast : ∀ t, s.prc.lastSending = some t → t + s.lossTime < s.now) :
    Answers (.pairAlone q) s q 0x0905 [] ((s.taken q).takeSending 2 false) := by
  refine Answers.of (exec_pairAlone q s) h ?_
  unfold pairAloneAct
  rw [State.taken_role, State.taken_get, State.taken_ready, State.taken_prc, State.taken_now, State.taken_lossTime]
  refine if_pos ⟨hr, hf, ?_, hready⟩
  cases hl : s.prc.lastSending with
  | none => rfl
  | some t => simpa using hlast t hl

/-! ### Safety commands -/

theorem safetyStatus_answers {clear : Bool} (h : Admits s q 0x0A01 (flagOctets clear) false false) :
    ∃ (ps : Octets) (t : State), Answers (.safetyStatus q clear) s q 0x0A01 ps t ∧ (clear = false → t = s.taken q) ∧
      t.psc = s.psc ∧ t.mem = s.mem := by
  have htouch : Touches [.regs] (s.taken q) ((((s.taken q).clearCnt F.PSC_CNT_COUNT 0 8 clear).clearCnt
      F.PSC_ARC_CNT_COUNT 0 4 clear).clearCnt F.PSC_ARC_CH_STAT_L_MAX 0 4 clear) :=
    Touches.via clearCnt_touches (Touches.via clearCnt_touches clearCnt_touches)
  refine ⟨_, _, Answers.of (exec_safetyStatus q clear s) h rfl, ?_, htouch.psc_eq.trans (State.taken_psc s q),
    htouch.mem_eq.trans (State.taken_mem s q)⟩
  rintro rfl
  rfl

section Function

variable (hst : s.ist = 4) (hi : i < 16) (hen : s.flag (F.PSC_FUNC_CFG_EN.nth i) = true)
  (hm : s.get (F.PSC_FUNC_CFG_RESET_MODE.nth i) = 2)
include hst hi hen hm

theorem safetyAck_function : safetyAckAct i s = if s.fnClosed i then
    (.done [], s.modPsc (fun p => { p with fns := Tbl.mod {} i (fun f => { f with latched := false }) p.fns })) else (.done [], s) := by
  unfold safetyAckAct
  rw [if_neg (by omega), if_neg (by omega), if_pos (by omega), if_pos ⟨hen, hi, hm⟩]

theorem safetyAck_closed (hc : s.fnClosed i = true) : safetyAckAct i s =
    (.done [], s.modPsc (fun p => { p with fns := Tbl.mod {} i (fun f => { f with latched := false }) p.fns })) := by
  rw [safetyAck_function hst hi hen hm, if_pos hc]

theorem safetyAck_open (hc : s.fnClosed i = false) : safetyAckAct i s = (.done [], s) := by
  rw [safetyAck_function hst hi hen hm, hc]
  rfl

end Function

section Arc

variable (hst : s.ist = 4) (hi : i < 4) (hen : s.flag (F.PSC_ARC_INST_CFG_EN.nth i) = true)
  (hm : s.get (F.PSC_ARC_INST_CFG_RESET_MODE.nth i) = 2)
include hst hi hen hm

theorem safetyAck_arc : safetyAckAct (20 + i) s = if s.arcLight i then (.done [], s)
    else (.done [], s.modPsc (fun p => { p with arcLatched := putBits i i 0 p.arcLatched })) := by
  unfold safetyAckAct
  rw [if_neg (by omega), if_neg (by omega), if_neg (by omega), Nat.add_sub_cancel_left, if_pos ⟨hen, hm⟩]

theorem safetyAck_dark (hl : s.arcLight i = false) : safetyAckAct (20 + i) s =
    (.done [], s.modPsc (fun p => { p with arcLatched := putBits i i 0 p.arcLatched })) := by
  rw [safetyAck_arc hst hi hen hm, hl]
  rfl

theorem safetyAck_light (hl : s.arcLight i = true) : safetyAckAct (20 + i) s = (.done [], s) := by
  rw [safetyAck_arc hst hi hen hm, if_pos hl]

end Arc

theorem safetyProof_accepts (h : Admits s q 0x0A03 (le 4 k) true false) (hk : k < 4) (hst : s.ist = 4) (hoff : (s.sout k).on = false)
    (hp : s.psc.proof = none) (hmust : s.psc.mustProof = false) (hen : s.flag (F.PSC_OUT_CFG_EN.nth k) = true) :
    Accepts (.safetyProof q k) s q 0x0A03 k [] ((s.taken q).modPsc (fun p => { p with
      proof := some .command, proofK := k, proofStep := 0, proofOk := none, proofAt := p.time, proofLow := false })) := by
  refine Accepts.of (exec_safetyProof q k s) h ?_
  unfold safetyProofAct
  rw [if_neg (by omega), if_neg (by simp [hst, hoff, hp, hmust, hen])]

theorem safetyRestart_accepts (h : Admits s q 0x0A04 [] true false) (hon : s.islandOn = true) :
    Accepts (.safetyRestart q) s q 0x0A04 0 [] (s.taken q).islandStart := by
  refine Accepts.of (exec_safetyRestart q s) h ?_
  unfold safetyRestartAct
  rw [State.taken_islandOn, hon]
  rfl

/-- Settles O46: each command passes its own checks and leaves its one update. -/
theorem pairAndSafetyCommandsComplete : Obligations.PairAndSafetyCommandsComplete := by
  refine ⟨fun s q => ⟨?_, pairSwitch_waits, pairSwitch_refused, pairFence_fences, pairFence_faulted, pairRelease_answers,
    pairAlone_answers⟩, fun s q => ⟨?_, ?_, ?_, ?_, safetyRestart_accepts⟩⟩
  · exact fun clear h => pairStatus_answers h
  · exact fun clear h => safetyStatus_answers h
  · exact fun i h hst hi hen hm =>
      ⟨fun hc => Answers.of (exec_safetyAck q i s) h
          (safetyAck_closed (by simpa using hst) hi (by simpa using hen) (by simpa using hm) (by simpa using hc)),
        fun hc => Answers.of (exec_safetyAck q i s) h
          (safetyAck_open (by simpa using hst) hi (by simpa using hen) (by simpa using hm) (by simpa using hc))⟩
  · exact fun i h hst hi hen hm =>
      ⟨fun hl => Answers.of (exec_safetyAck q (20 + i) s) h
          (safetyAck_dark (by simpa using hst) hi (by simpa using hen) (by simpa using hm) (by simpa using hl)),
        fun hl => Answers.of (exec_safetyAck q (20 + i) s) h
          (safetyAck_light (by simpa using hst) hi (by simpa using hen) (by simpa using hm) (by simpa using hl))⟩
  · exact fun k h hk hst hoff hp hmust hen => safetyProof_accepts h hk hst hoff hp hmust hen

end Sys2Proof.Machine
end

section
/-! O47: the key commands of the Dome. -/
namespace Sys2Proof.Machine

-- one proof after the other: started together they wait on each other's results, each in a thread of its own
set_option Elab.async false

variable {s : State} {q : Req} {i : Nat}

@[simp] theorem State.taken_dstate (s : State) (q : Req) : (s.taken q).dstate = s.dstate := State.taken_get s q _

@[simp] theorem State.taken_node (s : State) (q : Req) (i : Nat) : (s.taken q).node i = s.node i := State.of_taken (·.node i) fun _ => rfl

@[simp] theorem State.taken_doomed (s : State) (q : Req) (n i : Nat) : (s.taken q).doomed n i = s.doomed n i := by
  induction n generalizing i with
  | zero => rfl
  | succ n ih => simp only [State.doomed, State.taken_node, ih]

@[simp] theorem State.taken_chainLive (s : State) (q : Req) (n i : Nat) : (s.taken q).chainLive n i = s.chainLive n i :=
  chainLive_congr (fun j => by simp) n i

@[simp] theorem State.taken_nodeLive (s : State) (q : Req) (i : Nat) : (s.taken q).nodeLive i = s.nodeLive i := by
  simp [State.nodeLive, State.recordOk]

@[simp] theorem State.taken_anchors (s : State) (q : Req) (u : Nat) (l : List Nat) : (s.taken q).anchors u l = s.anchors u l := by
  simp [State.anchors]

@[simp] theorem State.taken_nodeKey (s : State) (q : Req) (n i : Nat) : (s.taken q).nodeKey n i = s.nodeKey n i := by
  induction n generalizing i with
  | zero => rfl
  | succ n ih => simp only [State.nodeKey, State.taken_node, State.taken_dom, ih]

@[simp] theorem State.taken_blobOpens (s : State) (q : Req) (fmt i : Nat) (blob : SealedKeys) (keys : List KeyBlob) :
    (s.taken q).blobOpens fmt i blob keys = s.blobOpens fmt i blob keys := by
  simp [State.blobOpens, State.blobKey]

@[simp] theorem State.taken_reqInBox (s : State) (q r : Req) : reqInBox (s.taken q) r = reqInBox s r :=
  State.of_taken (reqInBox · r) fun _ => rfl

@[simp] theorem State.taken_groupNode (s : State) (q : Req) (i : Nat) : (s.taken q).groupNode i = s.groupNode i := by
  simp [State.groupNode]

/-- What a Security command does of a READY Dome, its parameters in the mailbox where they should be. -/
theorem security_act {act : State → Ans × State} (hd : s.dstate = 1) (hbox : reqInBox s q = true) :
    (match (s.taken q).dstate with
      | 1 => if reqInBox (s.taken q) q then act (s.taken q) else (Ans.fail stBadParam 0x12 0 0, s.taken q)
      | 2 => (.fail stRootFail 0x12 0 0, s.taken q)
      | 3 => (.fail stDestroyed 0x12 0 0, s.taken q)
      | _ => (.fail stWrongState 0x12 0 0, s.taken q)) = act (s.taken q) := by
  rw [State.taken_dstate, hd, State.taken_reqInBox, hbox]
  rfl

theorem Answers.of_security {c : Instr} {u : State} {op : Nat} {os : Octets} {long : Bool} {act : State → Ans × State} {ps : Octets}
    (he : exec c s = s.security q op os long act) (hd : s.dstate = 1) (hbox : reqInBox s q = true) (h : Admits s q op os long false)
    (ha : act (s.taken q) = (.done ps, u)) : Answers c s q op ps u :=
  Answers.of he h ((security_act hd hbox).trans ha)

theorem Accepts.of_security {c : Instr} {u : State} {op obj : Nat} {os : Octets} {long : Bool} {act : State → Ans × State} {held : List Nat}
    (he : exec c s = s.security q op os long act) (hd : s.dstate = 1) (hbox : reqInBox s q = true) (h : Admits s q op os long false)
    (ha : act (s.taken q) = (.accepted obj held, u)) : Accepts c s q op obj held u :=
  Accepts.of he h ((security_act hd hbox).trans ha)

variable (hd : s.dstate = 1) (hbox : reqInBox s q = true)
include hd hbox

/-! ### CREATE and DESTROY -/

theorem keyCreate_answers {kind parent : Nat} (h : Admits s q 0x0B03 (le 4 i ++ le 1 kind ++ le 4 parent) false false) (hi : 16 ≤ i)
    (hi' : i < 8192) (hp : parent < 8192) (hk : kind = 2 ∨ kind = 3 ∨ kind = 4) (hfree : (s.node i).kind = 0) (hdoom : s.doomed 7 i = false)
    (hlive : s.nodeLive parent = true) (hpk : (s.node parent).kind = 1 ∨ (s.node parent).kind = 2) (hdepth : (s.node parent).depth < 6) :
    Answers (.keyCreate q i kind parent) s q 0x0B03 []
      ((s.taken q).modNode i (fun n => { gen := n.gen, kind, parent, depth := (s.node parent).depth + 1 })) := by
  have hkind : (kind == 2 || kind == 3 || kind == 4) = true := by rcases hk with rfl | rfl | rfl <;> rfl
  have hparent : ((s.node parent).kind == 1 || (s.node parent).kind == 2) = true := by
    rcases hpk with h | h <;> rw [h] <;> rfl
  refine Answers.of_security (exec_keyCreate q i kind parent s) hd hbox h ?_
  unfold keyCreateAct
  dsimp only
  simp only [State.taken_node, State.taken_doomed, State.taken_nodeLive]
  rw [if_neg (by simp [hi, hi', hp, hkind]), if_neg (by simp [hfree, hdoom]), if_neg (by rw [hlive, hparent]; decide),
    if_neg (by omega)]

theorem keyDestroy_answers (h : Admits s q 0x0B04 (le 4 i) false false) (hi : i < 8192) (h0 : i ≠ 0) (h1 : i ≠ 1) (h3 : i ≠ 3)
    (hk : (s.node i).kind ≠ 0) (hdoom : s.doomed 7 i = false) :
    Answers (.keyDestroy q i) s q 0x0B04 [] (if i = 2 then
      ((s.taken q).keysFollow ((s.taken q).destroyNode i)).extendMs 6 (Config.eventDigest 6 [(s.node 2).gen])
      else (s.taken q).keysFollow ((s.taken q).destroyNode i)) := by
  refine Answers.of_security (exec_keyDestroy q i s) hd hbox h ?_
  unfold keyDestroyAct
  simp only [State.taken_node, State.taken_doomed]
  rw [if_neg (by omega), if_neg (by omega), if_neg (by simp [hk, hdoom])]

/-! ### PUT -/

/-- A transport blob installed key by key: the first refusal, with the SPI it names. -/
def State.installKeys (s : State) (fmt group : Nat) (map : List (Nat × Nat)) (keys : List KeyBlob) : Option (Nat × Nat) × State :=
  keys.foldl (fun (a : Option (Nat × Nat) × State) (b : KeyBlob) =>
    let x := a.2.installKey (if fmt = 0 then some group else (map.find? (fun m => m.1 == b.spi)).map (·.2)) b
    (a.1.orElse (fun _ => x.1.map (fun st => (st, b.spi))), x.2)) (none, s)

theorem keyPut_answers {fmt group : Nat} {map : List (Nat × Nat)} {blob : SealedKeys} {keys : List KeyBlob}
    (h : Admits s q 0x0B05 (le 1 fmt ++ le 4 group ++ le 4 i ++ listOctets (fun (m : Nat × Nat) => le 4 m.1 ++ le 4 m.2) map ++
      strOctets (ofNats (blob.iv ++ blob.body))) false false)
    (hopen : s.blobOpens fmt i blob keys = true) (hfmt : fmt ≤ 1) (hmap : map.length ≤ 16) (hi : i < 8192)
    (hone : fmt = 1 ∨ (group < 8192 ∧ keys.length = 1)) (hlive : s.nodeLive i = true) (hk : (s.node i).kind = 6)
    (hr : ((s.taken q).installKeys fmt group map keys).1 = none) :
    Answers (.keyPut q ⟨fmt, group⟩ i map blob true keys) s q 0x0B05 []
      ((s.taken q).keysFollow ((s.taken q).installKeys fmt group map keys).2) := by
  refine Answers.of_security (exec_keyPut q ⟨fmt, group⟩ i map blob true keys s) hd hbox h ?_
  unfold keyPutAct
  simp only [State.taken_node, State.taken_nodeLive, State.taken_blobOpens]
  rw [if_neg (by omega), if_neg (by simp [hlive, hk]), if_neg (by decide), if_neg (by simp [hopen]), ← State.installKeys, hr]

omit hd hbox in
/-- A key for an empty group node, with no time known: it is the current one at once. -/
theorem installKey_current {group : Nat} {b : KeyBlob} (hlive : s.nodeLive group = true) (hk : (s.node group).kind = 4)
    (ha : 1 ≤ b.alg) (ha' : b.alg ≤ 5) (hlen : b.key.length = 32) (hl : 1 ≤ b.lifetime) (hl' : b.lifetime < 2 ^ 31)
    (hn : (s.node group).nxt = none) (ht : s.flag F.TBU_STATUS_TIME_VALID = false) :
    s.installKey (some group) b = (none, (s.modKeys group (fun n => { n with
      cur := some ⟨b.alg, b.keyId, b.key, b.start, b.lifetime⟩ })).bump (F.DOM_CNT_COUNT.nth 2)) := by
  have hgroup : s.groupNode group = s.node group := if_pos (by simp [hlive, hk])
  have hkey : keyLenOk b.alg b.key.length = true := by simp [keyLenOk, hlen]
  unfold State.installKey
  simp only [hgroup, hn, ht, Bool.not_false, Bool.true_or]
  rw [if_neg (by simp [hk]), if_neg (by simp [hkey]; omega), if_neg (by omega)]
  simp only [if_true, Bool.false_eq_true, if_false]

theorem keyPut_current {group : Nat} {blob : SealedKeys} {b : KeyBlob}
    (h : Admits s q 0x0B05 (le 1 0 ++ le 4 group ++ le 4 i ++ listOctets (fun (m : Nat × Nat) => le 4 m.1 ++ le 4 m.2) [] ++
      strOctets (ofNats (blob.iv ++ blob.body))) false false)
    (hbody : blob.body = Config.sealKeys 0 (s.nodeKey 7 i % 2 ^ 256) blob.iv [b]) (hi : i < 8192) (hg : group < 8192)
    (hlive : s.nodeLive i = true) (hk : (s.node i).kind = 6) (hglive : s.nodeLive group = true) (hgk : (s.node group).kind = 4)
    (ha : 1 ≤ b.alg) (ha' : b.alg ≤ 5) (hlen : b.key.length = 32) (hl : 1 ≤ b.lifetime) (hl' : b.lifetime < 2 ^ 31)
    (hn : (s.node group).nxt = none) (ht : s.flag F.TBU_STATUS_TIME_VALID = false) :
    Answers (.keyPut q ⟨0, group⟩ i [] blob true [b]) s q 0x0B05 [] ((s.taken q).keysFollow
      (((s.taken q).modKeys group (fun n => { n with cur := some ⟨b.alg, b.keyId, b.key, b.start, b.lifetime⟩ })).bump
        (F.DOM_CNT_COUNT.nth 2))) := by
  have hopen : s.blobOpens 0 i blob [b] = true := by
    simp [State.blobOpens, State.blobKey, hbody]
  have hinst : (s.taken q).installKeys 0 group [] [b] = (none, ((s.taken q).modKeys group (fun n => { n with
      cur := some ⟨b.alg, b.keyId, b.key, b.start, b.lifetime⟩ })).bump (F.DOM_CNT_COUNT.nth 2)) := by
    unfold State.installKeys
    rw [List.foldl_cons, List.foldl_nil, if_pos rfl]
    dsimp only
    rw [installKey_current (by simpa using hglive) (by simpa using hgk) ha ha' hlen hl hl' (by simpa using hn) (by simpa using ht)]
    rfl
  have hput := keyPut_answers hd hbox h hopen (by decide) (by decide) hi (.inr ⟨hg, rfl⟩) hlive hk (by rw [hinst])
  rwa [hinst] at hput

/-! ### AGREE, INFO and ANCHOR_SET -/

theorem keyAgree_answers {signer peer : Nat} {info : List Nat}
    (h : Admits s q 0x0B06 (le 4 i ++ le 4 signer ++ le 97 peer ++ strOctets (ofNats info)) false false) (hi : 16 ≤ i) (hi' : i < 8192)
    (hs : signer < 8192) (hfree : (s.node i).kind = 0) (hdoom : s.doomed 7 i = false) (h2 : s.nodeLive 2 = true)
    (hlive : s.nodeLive signer = true) (hsk : (s.node signer).kind = 3) (h1 : signer ≠ 1) :
    let u := s.taken q
    let d := u.freeVal 384 % (p384n - 1) + 1
    let pub := octs 97 (Config.ecPublic d)
    let key := Config.hkdf (Config.ecdh d peer) "" info % 2 ^ 384
    let t := u.drawn.modKeys i (fun n => { gen := n.gen, kind := 6, parent := 2, depth := 2, key })
    Answers (.keyAgree q i signer peer info) s q 0x0B06 (le 4 0x8000 ++ le 4 193)
      (t.wrOctets (domeBase + 0x8000) (ofNats (pub ++ octs 96 (Config.ecSign (u.drawn.signKey signer) pub)))) := by
  intro u d pub key t
  have hlen : (ofNats (pub ++ octs 96 (Config.ecSign (u.drawn.signKey signer) pub))).length = 193 := by
    simp [ofNats, octs, pub]
  refine Answers.of_security (exec_keyAgree q i signer peer info s) hd hbox h ?_
  unfold keyAgreeAct
  rw [if_neg (by omega), if_neg (by simp [hfree, hdoom, h2]), if_neg (by simp [hlive, hsk, h1])]
  unfold State.domeResult
  rw [← hlen]

theorem keyInfo_answers (h : Admits s q 0x0B07 (le 4 i) false false) (hi : i < 8192) :
    ∃ ps : Octets, ps.take 1 = le 1 (s.node i).kind ∧ Answers (.keyInfo q i) s q 0x0B07 ps (s.taken q) := by
  refine ⟨_, ?_, Answers.of_security (exec_keyInfo q i s) hd hbox h (if_neg (by omega))⟩
  rw [State.taken_node]
  rfl

theorem anchorSet_answers {pub usage : Nat} {stmt : List Nat} {sig : Nat}
    (h : Admits s q 0x0B08 (le 4 i ++ le 97 pub ++ le 1 usage ++ strOctets (ofNats stmt) ++ le 96 sig) false false) (hi : 4 ≤ i)
    (hi' : i ≤ 6) (hu : usage < 4) (hdoom : s.doomed 7 i = false)
    (hsig : (∀ j ∈ [4, 5, 6], s.nodeLive j = false) ∨ (∃ k ∈ s.anchors 0 [4, 5, 6], Config.ecVerify k stmt sig = true)) :
    Answers (.anchorSet q i pub usage stmt sig) s q 0x0B08 []
      (((s.taken q).modNode i (fun n => { gen := n.gen, kind := 5, depth := 1, key := pub, usage,
                                          mac := Config.hmac384 s.dom.anchorKey [i, pub, usage] })).extendMs 7
        (Config.eventDigest 7 [i, pub, usage])) := by
  have hmay : ([4, 5, 6].all (fun j => !s.nodeLive j) || (s.anchors 0 [4, 5, 6]).any (fun k => Config.ecVerify k stmt sig)) = true := by
    rw [Bool.or_eq_true]
    rcases hsig with hnone | ⟨k, hk, hver⟩
    · exact .inl (List.all_eq_true.mpr fun j hj => by rw [hnone j hj]; rfl)
    · exact .inr (List.any_eq_true.mpr ⟨k, hk, hver⟩)
  refine Answers.of_security (exec_anchorSet q i pub usage stmt sig s) hd hbox h ?_
  unfold anchorSetAct
  dsimp only
  simp only [State.taken_nodeLive, State.taken_anchors, State.taken_doomed, State.taken_dom]
  rw [if_neg (by omega), if_neg (by rw [hdoom]; decide), if_pos hmay]

omit hd hbox

/-- Settles O47: each command passes its own checks and leaves its one update. -/
theorem keyCommandsComplete : Obligations.KeyCommandsComplete := by
  refine fun s q i hd hbox => ⟨?_, ?_, ?_, ?_, ?_, ?_, ?_⟩
  · exact fun kind parent h hi hi' hp hk hfree hdoom hlive hpk hdepth =>
      keyCreate_answers hd hbox h hi hi' hp hk hfree hdoom hlive hpk hdepth
  · intro h hi h0 h1 h3 hk hdoom u t
    exact keyDestroy_answers hd hbox h hi h0 h1 h3 hk hdoom
  · intro fmt group map blob keys h hopen hfmt hmap hi hone hlive hk u r hr
    exact keyPut_answers hd hbox h hopen hfmt hmap hi hone hlive hk hr
  · intro group blob b h hbody hi hg hlive hk hglive hgk ha ha' hlen hl hl' _ hn ht u
    exact keyPut_current hd hbox h hbody hi hg hlive hk hglive hgk ha ha' hlen hl hl' hn ht
  · exact fun signer peer info h hi hi' hs hfree hdoom h2 hlive hsk h1 =>
      keyAgree_answers hd hbox h hi hi' hs hfree hdoom h2 hlive hsk h1
  · exact fun h hi => keyInfo_answers hd hbox h hi
  · exact fun pub usage stmt sig h hi hi' hu hdoom hsig => anchorSet_answers hd hbox h hi hi' hu hdoom hsig

end Sys2Proof.Machine
end

section
/-! O48: identity, measurement, attestation and debug commands of the Dome. -/
namespace Sys2Proof.Machine

-- one proof after the other: started together they wait on each other's results, each in a thread of its own
set_option Elab.async false

variable {s : State} {q : Req}

@[simp] theorem State.taken_dikFp (s : State) (q : Req) : (s.taken q).dikFp = s.dikFp := State.of_taken (·.dikFp) fun _ => rfl

theorem ofNats_length (l : List Nat) : (ofNats l).length = l.length := List.length_map _

theorem octs_length (n v : Nat) : (octs n v).length = n := by
  unfold octs
  rw [List.length_map, List.length_range]

theorem domStatus_answers {clear : Bool} (h : Admits s q 0x0B01 (flagOctets clear) false false) :
    ∃ ps : Octets, ps.length = 2176 ∧ Answers (.domStatus q clear) s q 0x0B01 ps ((s.taken q).clearCnt F.DOM_CNT_COUNT 0 8 clear) := by
  refine ⟨_, ?_, Answers.of (exec_domStatus q clear s) h rfl⟩
  simp only [List.length_append, State.regOctets, le_length, cntOctets_length]

theorem measRead_answers (h : Admits s q 0x0B0A [] false false) :
    Answers (.measRead q) s q 0x0B0A ((List.range 32).flatMap (fun i => le 48 (s.msSlot i).1 ++ le 4 (s.msSlot i).2)) (s.taken q) := by
  have hslot (i : Nat) : (s.taken q).msSlot i = s.msSlot i := State.of_taken (·.msSlot i) fun _ => rfl
  refine Answers.of (exec_measRead q s) h ?_
  unfold measReadAct
  simp only [hslot]

section Ready

variable (hd : s.dstate = 1) (hbox : reqInBox s q = true)
include hd hbox

theorem domIdentity_answers (h : Admits s q 0x0B02 [] false false) :
    let o := ofNats (octs 97 s.dom.dikPub ++ octs 48 s.dikFp) ++ Config.dikCert
    Answers (.domIdentity q) s q 0x0B02 (le 4 0x8000 ++ le 4 o.length) ((s.taken q).wrOctets (domeBase + 0x8000) o) := by
  refine Answers.of_security (exec_domIdentity q s) hd hbox h ?_
  unfold domIdentityAct
  rw [State.taken_dom, State.taken_dikFp]
  rfl

theorem measExtend_answers {i d : Nat} (h : Admits s q 0x0B09 (le 4 i ++ le 48 d) false false) (hi : 8 ≤ i) (hi' : i < 32) :
    Answers (.measExtend q i d) s q 0x0B09 [] ((s.taken q).extendMs i d) := by
  refine Answers.of_security (exec_measExtend q i d s) hd hbox h ?_
  unfold measExtendAct
  rw [if_neg (by omega), if_neg (by omega)]

theorem attestQuote_answers (hl : s.nodeLive 7 = true) {nonce : Octets} {mask : Nat}
    (h : Admits s q 0x0B0B (strOctets nonce ++ le 4 mask) false false) (hn : nonce ≠ []) (hlen : nonce.length ≤ 64) (hm : mask < 2 ^ 32) :
    let u := s.taken q
    let b := u.quoteBody nonce mask
    Answers (.attestQuote q nonce mask) s q 0x0B0B (le 4 0x8000 ++ le 4 (b.length + 96))
      ((u.bump (F.DOM_CNT_COUNT.nth 5)).wrOctets (domeBase + 0x8000) (ofNats (b ++ octs 96 (Config.ecSign (u.signKey 7) b)))) := by
  intro u b
  have hrep : (ofNats (b ++ octs 96 (Config.ecSign (u.signKey 7) b))).length = b.length + 96 := by
    rw [ofNats_length, List.length_append, octs_length]
  refine Answers.of_security (exec_attestQuote q nonce mask s) hd hbox h ?_
  unfold attestQuoteAct
  rw [if_neg (by simp [hn]; omega), if_neg (by simp [hl])]
  unfold State.domeResult
  rw [← hrep]

theorem attestAkCert_answers (hl : s.nodeLive 7 = true) (h : Admits s q 0x0B0C [] false false) :
    Answers (.attestAkCert q) s q 0x0B0C (le 4 0x8000 ++ le 4 s.dom.akStmt.length)
      ((s.taken q).wrOctets (domeBase + 0x8000) (ofNats s.dom.akStmt)) := by
  refine Answers.of_security (exec_attestAkCert q s) hd hbox h ?_
  unfold attestAkCertAct
  rw [State.taken_nodeLive, if_pos hl, State.taken_dom]
  unfold State.domeResult
  rw [ofNats_length]

theorem debugChallenge_answers (h : Admits s q 0x0B0D [] false false) :
    Answers (.debugChallenge q) s q 0x0B0D (le 32 ((s.taken q).freeVal 256)) { (s.taken q).drawn with
      dom := { (s.taken q).dom with challenge := some ((s.taken q).freeVal 256, (s.taken q).now) } } :=
  Answers.of_security (exec_debugChallenge q s) hd hbox h rfl

theorem debugOpen_accepts {enMs : Nat} {token : List Nat} {ch : Nat} {at_ : Time} {sig signer : Nat} {fuseOk : Bool} {k : Nat}
    (h : Admits s q 0x0B0E (strOctets (ofNats token) ++ le 96 sig ++ le 4 signer) true false) (hen : 100 ≤ enMs)
    (hrole : s.get F.PRC_STATUS_ROLE = 3) (hfuse : s.dom.fuses < 32) (hch : s.dom.challenge = some (ch, at_))
    (hat : (s.taken q).now ≤ at_ + secs 60) (hs : 3 ≤ signer) (hs' : signer ≤ 6) (hk : k ∈ s.anchors 1 [signer])
    (hver : Config.ecVerify k token sig = true) :
    let u := s.taken q
    let t := u.debugPins true false
    let v := { t with dom := { t.dom with challenge := none } }
    Accepts (.debugOpen q (some enMs) false token ch s.dikFp sig signer fuseOk) s q 0x0B0E 0 []
      ((v.keysFollow (v.debugOpened token fuseOk)).evalReady) := by
  have hany : (s.anchors 1 [signer]).any (fun k => Config.ecVerify k token sig) = true := List.any_eq_true.mpr ⟨k, hk, hver⟩
  refine Accepts.of_security (exec_debugOpen q (some enMs) false token ch s.dikFp sig signer fuseOk s) hd hbox h ?_
  unfold debugOpenAct
  dsimp only
  simp only [State.taken_dom, State.taken_get, State.taken_anchors, State.taken_dikFp, hch, hany, Option.isSome_some]
  rw [if_neg (by simp [hen, hrole]), if_neg (by omega), if_pos (by simpa [hs, hs'] using hat)]

end Ready

/-- Settles O48: each command passes its own checks and leaves its one update, a result in the response area. -/
theorem attestationCommandsComplete : Obligations.AttestationCommandsComplete := by
  refine fun s q => ⟨?_, ?_, ?_, measRead_answers, ?_, ?_, ?_, ?_⟩
  · exact fun clear h => domStatus_answers h
  · exact fun hd hbox h => domIdentity_answers hd hbox h
  · exact fun hd hbox i d h hi hi' => measExtend_answers hd hbox h hi hi'
  · exact fun hd hbox hl nonce mask h hn hlen hm => attestQuote_answers hd hbox hl h hn hlen hm
  · exact fun hd hbox hl h => attestAkCert_answers hd hbox hl h
  · exact fun hd hbox h => debugChallenge_answers hd hbox h
  · exact fun hd hbox enMs token ch at_ sig signer fuseOk k h hen hrole hfuse hch hat hs hs' hk hver =>
      debugOpen_accepts hd hbox h hen hrole hfuse hch hat hs hs' hk hver

end Sys2Proof.Machine
end

section
/-! Loops that write one register field in each round: what a field reads after them. -/
namespace Sys2Proof.Machine

-- one proof after the other: started together they wait on each other's results, each in a thread of its own
set_option Elab.async false

variable {α : Type} {step : State → α → State} {field : α → Field}

/-- A field that no round writes keeps its value. -/
theorem get_fieldLoop_ne (hne : ∀ s a f, f.key ≠ (field a).key → (step s a).get f = s.get f) {l : List α} {f : Field}
    (h : ∀ a ∈ l, f.key ≠ (field a).key) (s : State) : (l.foldl step s).get f = s.get f := by
  induction l generalizing s with
  | nil => rfl
  | cons a l ih =>
    rw [List.foldl_cons, ih fun b hb => h b (List.mem_cons_of_mem a hb)]
    exact hne s a f (h a List.mem_cons_self)

/-- Where the rounds write distinct fields, each field reads what its own round made of it. -/
theorem get_fieldLoop_mem (hne : ∀ s a f, f.key ≠ (field a).key → (step s a).get f = s.get f) {val : α → Nat → Nat}
    (hsame : ∀ s a, (step s a).get (field a) = val a (s.get (field a))) {l : List α} (hnd : (l.map (fun a => (field a).key)).Nodup)
    {a : α} (ha : a ∈ l) (s : State) : (l.foldl step s).get (field a) = val a (s.get (field a)) := by
  induction l generalizing s with
  | nil => exact absurd ha List.not_mem_nil
  | cons b l ih =>
    obtain ⟨hb, hnd⟩ := List.nodup_cons.mp hnd
    have hkeys (c : α) (hc : c ∈ l) : (field b).key ≠ (field c).key :=
      fun he => hb (List.mem_map.mpr ⟨c, hc, he.symm⟩)
    rw [List.foldl_cons]
    rcases List.mem_cons.mp ha with rfl | ha
    · rw [get_fieldLoop_ne hne hkeys, hsame]
    · rw [ih hnd ha, hne s b _ (hkeys a ha).symm]

theorem key_nth_ne {f g : Field} (hs : f.stride = g.stride) (h : f.key ≠ g.key) (n : Nat) : (f.nth n).key ≠ (g.nth n).key := by
  unfold Field.key Field.nth at *
  dsimp only
  rw [hs]
  omega

theorem key_nth_inj {f : Field} (hs : f.stride ≠ 0) {i j : Nat} (h : (f.nth i).key = (f.nth j).key) : i = j := by
  unfold Field.key Field.nth at h
  dsimp only at h
  have hij : i * f.stride = j * f.stride := by omega
  exact Nat.eq_of_mul_eq_mul_right (Nat.pos_of_ne_zero hs) hij

theorem keys_nth_nodup {f : Field} (hs : f.stride ≠ 0) (n : Nat) : ((List.range n).map (fun i => (f.nth i).key)).Nodup :=
  List.Nodup.map (fun _ _ h => key_nth_inj hs h) List.nodup_range

/-- Elements of a register array put one by one: each reads what was put there. -/
theorem get_forN_nth {f : Field} (hs : f.stride ≠ 0) (v : Nat → Nat) {i n : Nat} (hi : i < n) (s : State) :
    (forN n (fun s i => s.setF (f.nth i) (v i)) s).get (f.nth i) = v i % 2 ^ f.width :=
  get_fieldLoop_mem (field := fun i => f.nth i) (val := fun i _ => v i % 2 ^ f.width) (fun s a g hg => State.get_setF_ne s (v a) hg)
    (fun s a => State.get_setF_same s (f.nth a) (v a)) (keys_nth_nodup hs n) (List.mem_range.mpr hi) s

/-- A loop over an array that another field is not part of. -/
theorem get_forN_ne {f g : Field} {n : Nat} (h : ∀ i < n, g.key ≠ (f.nth i).key) (v : State → Nat → Nat) (s : State) :
    (forN n (fun s i => s.setF (f.nth i) (v s i)) s).get g = s.get g :=
  get_fieldLoop_ne (field := fun i => f.nth i) (fun s a g hg => State.get_setF_ne s (v s a) hg)
    (fun i hi => h i (List.mem_range.mp hi)) s

end Sys2Proof.Machine
end

section
/-! O49: the Health, Belfry and Weevil commands of Patchaif. -/
namespace Sys2Proof.Machine

-- one proof after the other: started together they wait on each other's results, each in a thread of its own
set_option Elab.async false

variable {s : State} {q : Req}

theorem flatMap_range_length {f : Nat → Octets} {k : Nat} (hf : ∀ i, (f i).length = k) (n : Nat) :
    ((List.range n).flatMap f).length = n * k := by
  simp [List.length_flatMap, hf]

/-! ### STATUS, FAULT_CLEAR and ageing -/

theorem healthStatus_answers {clear : Bool} (h : Admits s q 0x0C01 (flagOctets clear) false false) :
    ∃ ps : Octets, ps.length = 148 ∧ Answers (.healthStatus q clear) s q 0x0C01 ps
      (if clear then ((s.taken q).clearCnt F.PHM_CNT_COUNT 0 8 true).setF F.PHM_RIDE_STATS_RIDE_CNT 0 else s.taken q) := by
  have hst : (if clear then ((s.taken q).clearCnt F.PHM_CNT_COUNT 0 8 true).setF F.PHM_RIDE_STATS_RIDE_CNT 0 else s.taken q) =
      (if clear then ((s.taken q).clearCnt F.PHM_CNT_COUNT 0 8 clear).setF F.PHM_RIDE_STATS_RIDE_CNT 0
        else (s.taken q).clearCnt F.PHM_CNT_COUNT 0 8 clear) := by
    cases clear <;> rfl
  rw [hst]
  refine ⟨_, ?_, Answers.of (exec_healthStatus q clear s) h rfl⟩
  simp only [List.length_append, State.regOctets, le_length, cntOctets_length, flatMap_range_length (fun _ => le_length 4 _)]

/-- A field cleared where its bit of a mask is 1. -/
def State.clearBit (mask : Nat) (s : State) (f : Field) : State := if bit f.lo mask then s.setF f 0 else s

theorem get_clearBit_ne {mask : Nat} {f g : Field} (h : f.key ≠ g.key) (s : State) : (s.clearBit mask g).get f = s.get f := by
  unfold State.clearBit
  split
  · exact State.get_setF_ne s 0 h
  · rfl

theorem get_clearBit_same (mask : Nat) (f : Field) (s : State) : (s.clearBit mask f).get f = if bit f.lo mask then 0 else s.get f := by
  unfold State.clearBit
  split
  · rw [State.get_setF_same, Nat.zero_mod]
  · rfl

theorem get_clearBits_ne {mask : Nat} {f : Field} {l : List Field} (h : ∀ g ∈ l, f.key ≠ g.key) (s : State) :
    (l.foldl (State.clearBit mask) s).get f = s.get f :=
  get_fieldLoop_ne (field := id) (fun s _ _ hg => get_clearBit_ne hg s) h s

/-- Of fields with distinct keys each reads 0 where its bit of the mask is 1, and what it read elsewhere. -/
theorem get_clearBits_mem {mask : Nat} {l : List Field} (hnd : (l.map Field.key).Nodup) {f : Field} (hf : f ∈ l) (s : State) :
    (l.foldl (State.clearBit mask) s).get f = if bit f.lo mask then 0 else s.get f :=
  get_fieldLoop_mem (field := id) (val := fun f x => if bit f.lo mask then 0 else x) (fun s _ _ hg => get_clearBit_ne hg s)
    (fun s f => get_clearBit_same mask f s) hnd hf s

theorem clearFaults_touches {mask : Nat} : Touches [.regs] s (s.clearFaults mask) :=
  Touches.foldl (fun _ _ hu => Touches.ite (hu.setF _ _) hu) _ (.refl _ s)

theorem faultField_spec : ∀ b < 8, faultField b ∈ faultFields ∧ (faultField b).lo = b := by decide

theorem faultClear_answers {mask : Nat} (h : Admits s q 0x0C02 (le 4 mask) false false) (hm : mask < 256) :
    ∃ u : State, Answers (.faultClear q mask) s q 0x0C02 [] u.evalReady ∧
      (∀ b < 8, u.get (faultField b) = if bit b mask then 0 else s.get (faultField b)) ∧
      SameFieldsBut faultFields s u ∧ u.mem = s.mem := by
  refine ⟨(s.taken q).clearFaults mask, Answers.of (exec_faultClear q mask s) h (if_neg (by omega)), fun b hb => ?_, fun g hg => ?_,
    clearFaults_touches.mem_eq.trans (State.taken_mem s q)⟩
  · obtain ⟨hmem, hlo⟩ := faultField_spec b hb
    have hget := get_clearBits_mem (mask := mask) (by decide) hmem (s.taken q)
    rw [hlo, State.taken_get] at hget
    exact hget
  · exact (get_clearBits_ne (fun f hf => (hg f hf).symm) (s.taken q)).trans (State.taken_get s q g)

theorem fitOctets_length (l : List (Nat × Int)) : (fitOctets l).length = 8 := by
  unfold fitOctets
  split <;> simp only [List.length_append, le_length]

theorem ageingStatus_answers (h : Admits s q 0x0C03 [] false false) :
    ∃ ps : Octets, ps.length = 1556 ∧ Answers (.ageingStatus q) s q 0x0C03 ps (s.taken q) := by
  refine ⟨_, ?_, Answers.of (exec_ageingStatus q s) h rfl⟩
  simp only [List.length_append, State.regOctets, le_length, flatMap_range_length (fun _ => le_length 8 _),
    flatMap_range_length (fun _ => fitOctets_length _)]

theorem ageingMeasure_accepts (h : Admits s q 0x0C04 [] true false) (hm : s.hlt.meas = none) :
    Accepts (.ageingMeasure q) s q 0x0C04 0 [] ((s.taken q).startMeasure true (s.get F.PHM_KEEP_CNT_OP_SEC / 86400)) := by
  refine Accepts.of (exec_ageingMeasure q s) h ?_
  unfold ageingMeasureAct
  rw [State.taken_hlt, if_neg (by simp [hm]), State.taken_get]

/-! ### The Belfry and the flash -/

theorem belfryRead_records {start count : Nat} (h : Admits s q 0x0C05 (le 1 0 ++ le 8 start ++ le 2 count) false false)
    (hc : count ≤ 56) :
    Answers (.belfryRead q 0 start count) s q 0x0C05 (le 2 count ++ (List.range count).flatMap (fun i =>
      le 1 (s.winState false (start + i)) ++ wordsOctets (s.recordWords false (start + i)))) (s.taken q) := by
  have hwin (i : Nat) : (s.taken q).winState false i = s.winState false i := State.of_taken (·.winState false i) fun _ => rfl
  have hrec (i : Nat) : (s.taken q).recordWords false i = s.recordWords false i := State.of_taken (·.recordWords false i) fun _ => rfl
  refine Answers.of (exec_belfryRead q 0 start count s) h ?_
  unfold belfryReadAct
  rw [if_pos ⟨rfl, hc⟩]
  simp only [hwin, hrec]

theorem belfryRead_telemetry {start count : Nat} (h : Admits s q 0x0C05 (le 1 1 ++ le 8 start ++ le 2 count) false false)
    (hc : count ≤ 15) (hs : start + count ≤ 16) :
    Answers (.belfryRead q 1 start count) s q 0x0C05
      (le 2 count ++ (List.range count).flatMap (fun i => wordsOctets (s.rdWords (telemBlock (start + i)) 128))) (s.taken q) := by
  refine Answers.of (exec_belfryRead q 1 start count s) h ?_
  unfold belfryReadAct
  rw [if_neg (by omega), if_pos ⟨rfl, hc, hs⟩]
  simp only [State.taken_rdWords]

theorem flashStatus_answers (h : Admits s q 0x0C06 [] false false) :
    ∃ ps : Octets, ps.length = 12 ∧ Answers (.flashStatus q) s q 0x0C06 ps (s.taken q) := by
  refine ⟨_, ?_, Answers.of (exec_flashStatus q s) h rfl⟩
  simp only [List.length_append, State.regOctets, le_length]

/-! ### The Weevil -/

theorem weevilStatus_answers {clear : Bool} (h : Admits s q 0x0D01 (flagOctets clear) false false) :
    ∃ ps : Octets, ps.length = 388 ∧
      Answers (.weevilStatus q clear) s q 0x0D01 ps ((s.taken q).clearCnt F.WVL_RULE_HITS_HITS 0 16 clear) := by
  have hrule (f g k : Nat → List Field) : ((List.range 16).flatMap (fun i => (s.taken q).regOctets 8 (f i) ++
      (s.taken q).regOctets 8 (g i) ++ (s.taken q).regOctets 4 (k i))).length = 16 * 20 :=
    flatMap_range_length (fun i => by simp only [List.length_append, State.regOctets, le_length]) 16
  refine ⟨_, ?_, Answers.of (exec_weevilStatus q clear s) h rfl⟩
  rw [List.length_append, List.length_append, hrule, flatMap_range_length (fun _ => le_length 4 _)]
  simp only [State.regOctets, le_length]

/-- One field of a rule written. -/
def State.putRule (r : Nat) (s : State) (p : Field × Nat) : State := s.setF (p.1.nth r) p.2

theorem get_putRule_ne {r : Nat} (s : State) (p : Field × Nat) (f : Field) (hf : f.key ≠ (p.1.nth r).key) :
    (State.putRule r s p).get f = s.get f := State.get_setF_ne s p.2 hf

theorem get_putRule_same {r : Nat} (s : State) (p : Field × Nat) :
    (State.putRule r s p).get (p.1.nth r) = p.2 % 2 ^ (p.1.nth r).width := by
  rw [State.putRule, State.get_setF_same]

/-- Of fields of one stride with distinct keys each reads what was written to it. -/
theorem get_putRules_mem {r : Nat} {l : List (Field × Nat)} (hs : ∀ p ∈ l, p.1.stride = 32) (hnd : (l.map (·.1.key)).Nodup)
    {p : Field × Nat} (hp : p ∈ l) (s : State) : (l.foldl (State.putRule r) s).get (p.1.nth r) = p.2 % 2 ^ (p.1.nth r).width := by
  have hkeys : (l.map (fun p => (p.1.nth r).key)).Nodup :=
    List.pairwise_map.mpr ((List.pairwise_map.mp hnd).imp_of_mem fun ha hb hk =>
      key_nth_ne ((hs _ ha).trans (hs _ hb).symm) hk r)
  exact get_fieldLoop_mem (step := State.putRule r) (field := fun p => p.1.nth r) (val := fun p _ => p.2 % 2 ^ (p.1.nth r).width)
    get_putRule_ne get_putRule_same hkeys hp s

/-- The fields of a rule's MATCH and ACTION, with what WEEVIL_RULE writes to them. -/
def ruleMatch (m a : Nat) : List (Field × Nat) :=
  [(F.WVL_RULE_MATCH_EN, bits 63 63 m), (F.WVL_RULE_MATCH_DIR, bits 62 62 m), (F.WVL_RULE_MATCH_PORT, bits 61 58 m),
    (F.WVL_RULE_MATCH_ETYPE_EN, bits 57 57 m), (F.WVL_RULE_MATCH_APPID_EN, bits 56 56 m),
    (F.WVL_RULE_MATCH_ETYPE, bits 55 40 m), (F.WVL_RULE_MATCH_APPID, bits 39 24 m),
    (F.WVL_RULE_ACTION_ACTION, bits 63 60 a), (F.WVL_RULE_ACTION_OFFSET, bits 59 48 a),
    (F.WVL_RULE_ACTION_DELAY, bits 47 32 a), (F.WVL_RULE_ACTION_MASK, bits 31 0 a)]

/-- The fields of a rule's COUNT. -/
def ruleCount (c : Nat) : List (Field × Nat) := [(F.WVL_RULE_COUNT_EVERY, bits 31 16 c), (F.WVL_RULE_COUNT_LIMIT, bits 15 0 c)]

/-- A rule written, its counts restarted. -/
def State.ruleSet (s : State) (r m a c : Nat) : State := ((ruleMatch m a).foldl (State.putRule r) s).wvlRestart r c

theorem weevilRule_act {r m a c : Nat} (hr : r < 16) (hm : m % 2 ^ 24 = 0) : weevilRuleAct r m a c s = (.done [], s.ruleSet r m a c) := by
  unfold weevilRuleAct
  rw [if_neg (by omega)]
  rfl

theorem get_wvlRestart (s : State) (r c : Nat) (f : Field) : (s.wvlRestart r c).get f = ((ruleCount c).foldl (State.putRule r) s).get f := rfl

theorem get_ruleSet {r m a c : Nat} (i : Nat) {f : Field} {v : Nat} (h : (ruleMatch m a ++ ruleCount c)[i]? = some (f, v)) (s : State) :
    (s.ruleSet r m a c).get (f.nth r) = v % 2 ^ f.width := by
  have hstride : ∀ p ∈ ruleMatch m a ++ ruleCount c, p.1.stride = 32 := by
    simp only [ruleMatch, ruleCount, List.cons_append, List.nil_append, List.forall_mem_cons]
    decide
  have hkeys : ((ruleMatch m a ++ ruleCount c).map (·.1.key)).Nodup := by
    simp only [ruleMatch, ruleCount, List.cons_append, List.nil_append, List.map_cons, List.map_nil]
    decide
  unfold State.ruleSet
  rw [get_wvlRestart, ← List.foldl_append]
  exact get_putRules_mem hstride hkeys (List.mem_of_getElem? h) s

theorem putRules_touches {r : Nat} (l : List (Field × Nat)) : Touches [.regs] s (l.foldl (State.putRule r) s) :=
  Touches.foldl (fun _ _ hu => hu.setF _ _) l (.refl _ s)

theorem wvlRestart_touches {r c : Nat} : Touches [.regs, .wvl] s (s.wvlRestart r c) :=
  (((Touches.refl _ s).setF _ _).setF _ _).set_wvl _

theorem ruleSet_mem (s : State) (r m a c : Nat) : (s.ruleSet r m a c).mem = s.mem :=
  (Touches.via (l := [.regs, .wvl]) wvlRestart_touches ((putRules_touches (ruleMatch m a)).mono (by simp))).mem_eq

theorem seen_wvlRestart (s : State) (r c : Nat) : Tbl.get 0 r (s.wvlRestart r c).wvl.seen = 0 := by
  have hseen : (s.wvlRestart r c).wvl.seen = Tbl.set 0 r 0 s.wvl.seen := rfl
  rw [hseen, Tbl.get_set, if_pos rfl]

theorem acted_wvlRestart (s : State) (r c : Nat) : Tbl.get 0 r (s.wvlRestart r c).wvl.acted = 0 := by
  have hacted : (s.wvlRestart r c).wvl.acted = Tbl.set 0 r 0 s.wvl.acted := rfl
  rw [hacted, Tbl.get_set, if_pos rfl]

theorem weevilRule_answers {r m a c : Nat} (h : Admits s q 0x0D02 (le 4 r ++ le 8 m ++ le 8 a ++ le 4 c) false false) (hr : r < 16)
    (hm : m % 2 ^ 24 = 0) :
    ∃ t : State, Answers (.weevilRule q r m a c) s q 0x0D02 [] t ∧ t.get (F.WVL_RULE_MATCH_EN.nth r) = bits 63 63 m ∧
      t.get (F.WVL_RULE_MATCH_APPID.nth r) = bits 39 24 m ∧ t.get (F.WVL_RULE_ACTION_ACTION.nth r) = bits 63 60 a ∧
      t.get (F.WVL_RULE_ACTION_MASK.nth r) = bits 31 0 a ∧ t.get (F.WVL_RULE_COUNT_EVERY.nth r) = bits 31 16 c ∧
      t.get (F.WVL_RULE_COUNT_LIMIT.nth r) = bits 15 0 c ∧ Tbl.get 0 r t.wvl.seen = 0 ∧ Tbl.get 0 r t.wvl.acted = 0 ∧ t.mem = s.mem := by
  have hget (i : Nat) {f : Field} {v : Nat} (hi : (ruleMatch m a ++ ruleCount c)[i]? = some (f, v)) :
      ((s.taken q).ruleSet r m a c).get (f.nth r) = v % 2 ^ f.width := get_ruleSet i hi (s.taken q)
  exact ⟨(s.taken q).ruleSet r m a c, Answers.of (exec_weevilRule q r m a c s) h (weevilRule_act hr hm),
    (hget 0 rfl).trans (Nat.mod_mod _ _), (hget 6 rfl).trans (Nat.mod_mod _ _), (hget 7 rfl).trans (Nat.mod_mod _ _),
    (hget 10 rfl).trans (Nat.mod_mod _ _), (hget 11 rfl).trans (Nat.mod_mod _ _), (hget 12 rfl).trans (Nat.mod_mod _ _),
    seen_wvlRestart _ r c, acted_wvlRestart _ r c, (ruleSet_mem _ r m a c).trans (State.taken_mem s q)⟩

theorem weevilArm_answers {arm : Bool} (h : Admits s q 0x0D03 (flagOctets arm) false false)
    (ha : arm = false ∨ s.flag F.WVL_CTL_ALLOW = true) : Answers (.weevilArm q arm) s q 0x0D03 [] ((s.taken q).wvlArm arm) := by
  refine Answers.of (exec_weevilArm q arm s) h ?_
  unfold weevilArmAct
  exact if_neg (by rcases ha with rfl | ha <;> simp [*])

/-- Settles O49: each command passes its own checks and leaves its one update. -/
theorem healthAndWeevilCommandsComplete : Obligations.HealthAndWeevilCommandsComplete := by
  refine fun s q => ⟨?_, ?_, ageingStatus_answers, ageingMeasure_accepts, fun start count => ⟨?_, ?_⟩, flashStatus_answers, ?_, ?_, ?_⟩
  · exact fun clear h => healthStatus_answers h
  · exact fun mask h hm => faultClear_answers h hm
  · exact fun h hc => belfryRead_records h hc
  · exact fun h hc hs => belfryRead_telemetry h hc hs
  · exact fun clear h => weevilStatus_answers h
  · exact fun r m a c h hr hm => weevilRule_answers h hr hm
  · exact fun arm h ha => weevilArm_answers h ha

end Sys2Proof.Machine
end

section
/-! O50: the command registers: what refuses a write of CMD, the start of an operation and its end. -/
namespace Sys2Proof.Machine

-- one proof after the other: started together they wait on each other's results, each in a thread of its own
set_option Elab.async false

variable {s : State} {b : CmdBlock}

/-- Every operation of a command register runs through the one write of CMD. -/
theorem exec_of_cmdOpOf {c : Instr} {m : Master} {fs : List (Field × Nat)} {only : Bool} (h : cmdOpOf c = some (m, b, fs, only)) (s : State) :
    ∃ act, exec c s = s.cmdRun m b fs only act := by
  unfold cmdOpOf at h
  split at h <;> cases h <;> exact ⟨_, rfl⟩

theorem cmdOp_refusals {c : Instr} {m : Master} {fs : List (Field × Nat)} {only : Bool} (h : cmdOpOf c = some (m, b, fs, only)) (s : State) :
    (s.masterUp m = false → exec c s = .next s) ∧
    (s.masterUp m = true → regGrant (s.actor m) (blkBusy b).addr true = false →
      exec c s = .next (s.refused (s.actor m) (blkBusy b).addr).busError) ∧
    (s.masterUp m = true → regGrant (s.actor m) (blkBusy b).addr true = true → s.flag (blkBusy b) = true →
      exec c s = .next { s with bus := .done }) ∧
    (Opens m b s → only = true → m ≠ .tmc →
      exec c s = .next { (s.withFields fs).cmdStart b 2 ((s.withFields fs).dataWords b) with bus := .done }) := by
  obtain ⟨act, hact⟩ := exec_of_cmdOpOf h s
  rw [hact]
  refine ⟨State.cmdRun_down, State.cmdRun_ungranted, State.cmdRun_busy, fun ho honly hm => ?_⟩
  rw [honly]
  exact State.cmdRun_tmcOnly ho hm

/-! ### The fields of a command register -/

theorem forN_succ {α : Type} (n : Nat) (f : α → Nat → α) (a : α) : forN (n + 1) f a = f (forN n f a) n := by
  unfold forN
  rw [List.range_succ, List.foldl_append]
  rfl

/-- A field that no round of a loop writes keeps its value. -/
theorem get_forN {n : Nat} {f : State → Nat → State} {g : Field} (h : ∀ u, ∀ i < n, (f u i).get g = u.get g) (s : State) :
    (forN n f s).get g = s.get g := by
  induction n with
  | zero => rfl
  | succ n ih => rw [forN_succ, h _ n (Nat.lt_succ_self n), ih fun u i hi => h u i (Nat.lt_succ_of_lt hi)]

theorem busy_key_ne_result (b : CmdBlock) : (blkBusy b).key ≠ (blkResult b).key := by cases b <;> decide

theorem busy_key_ne_data (b : CmdBlock) {i : Nat} (hi : i < blkWords b) : (blkBusy b).key ≠ ((blkData b).nth i).key := by
  revert i
  cases b <;> decide

theorem result_key_ne_data (b : CmdBlock) {i : Nat} (hi : i < blkWords b) : (blkResult b).key ≠ ((blkData b).nth i).key := by
  revert i
  cases b <;> decide

theorem data_stride (b : CmdBlock) : (blkData b).stride ≠ 0 := by cases b <;> decide

theorem data_width (b : CmdBlock) : (blkData b).width = 64 := by cases b <;> rfl

theorem busy_width (b : CmdBlock) : (blkBusy b).width = 1 := by cases b <;> rfl

theorem result_width (b : CmdBlock) : (blkResult b).width = 3 := by cases b <;> rfl

/-- The fields that the outcome of an operation reaches. -/
def outcomeFields (b : CmdBlock) : List Field := [blkBusy b, blkResult b] ++ (List.range (blkWords b)).map ((blkData b).nth ·)

theorem not_outcome {g : Field} (h : ∀ f ∈ outcomeFields b, f.key ≠ g.key) :
    g.key ≠ (blkBusy b).key ∧ g.key ≠ (blkResult b).key ∧ ∀ i < blkWords b, g.key ≠ ((blkData b).nth i).key := by
  refine ⟨(h _ (by simp [outcomeFields])).symm, (h _ (by simp [outcomeFields])).symm, fun i hi => (h _ ?_).symm⟩
  simp only [outcomeFields, List.mem_append, List.mem_map, List.mem_range]
  exact .inr ⟨i, hi, rfl⟩

/-! ### The start of an operation -/

/-- A free value in RESULT and the data registers touches no other field. -/
theorem get_scramble {g : Field} (hr : g.key ≠ (blkResult b).key) (hd : ∀ i < blkWords b, g.key ≠ ((blkData b).nth i).key) (s : State) :
    (s.scramble b).get g = s.get g := by
  unfold State.scramble
  refine (get_forN (fun u i hi => ?_) _).trans (State.get_setF_ne s _ hr)
  exact State.get_setF_ne u _ (hd i hi)

theorem scramble_touches : Touches [.regs, .free] s (s.scramble b) :=
  Touches.forN (fun _ _ hu => (hu.setF _ _).drawn) (((Touches.refl _ s).setF _ _).drawn)

theorem cmdStart_touches {r : Nat} {ws : List Nat} : Touches [.regs, .cmds, .free] s (s.cmdStart b r ws) :=
  Touches.via scramble_touches (((Touches.refl _ s).set_cmds _).setF _ _)

theorem flag_cmdStart (s : State) (b : CmdBlock) (r : Nat) (ws : List Nat) : (s.cmdStart b r ws).flag (blkBusy b) = true := by
  unfold State.cmdStart State.flag
  rw [get_scramble (busy_key_ne_result b) (fun _ hi => busy_key_ne_data b hi), State.get_setF_same, busy_width]
  rfl

theorem cmds_cmdStart (s : State) (b : CmdBlock) (r : Nat) (ws : List Nat) : Tbl.get {} (blkKey b) (s.cmdStart b r ws).cmds = ⟨r, ws⟩ := by
  unfold State.cmdStart
  rw [scramble_touches.cmds_eq]
  exact (Tbl.get_set ..).trans (if_pos rfl)

theorem get_cmdStart {r : Nat} {ws : List Nat} {g : Field} (h : ∀ f ∈ outcomeFields b, f.key ≠ g.key) (s : State) :
    (s.cmdStart b r ws).get g = s.get g := by
  obtain ⟨hb, hr, hd⟩ := not_outcome h
  unfold State.cmdStart
  rw [get_scramble hr hd, State.get_setF_ne _ _ hb]
  rfl

/-! ### Its end -/

theorem get_putData_ne {g : Field} (hd : ∀ i < blkWords b, g.key ≠ ((blkData b).nth i).key) (ws : List Nat) (s : State) :
    (s.putData b ws).get g = s.get g := get_forN_ne hd _ s

theorem get_putData {i : Nat} (hi : i < blkWords b) (ws : List Nat) (s : State) :
    (s.putData b ws).get ((blkData b).nth i) = word ws i % 2 ^ 64 :=
  (get_forN_nth (data_stride b) (word ws) hi s).trans (by rw [data_width])

/-- A command register whose operation has ended, before its data are put. -/
def State.cmdEnded (s : State) (b : CmdBlock) : State :=
  ({ s with cmds := Tbl.set {} (blkKey b) {} s.cmds }.setF (blkBusy b) 0).setF (blkResult b)
    (Tbl.get ({} : CmdOut) (blkKey b) s.cmds).result

theorem cmdEnd_running (hb : s.flag (blkBusy b) = true) :
    s.cmdEnd b = (s.cmdEnded b).putData b (Tbl.get {} (blkKey b) s.cmds).data := if_pos hb

theorem cmdEnded_touches : Touches [.regs, .cmds] s (s.cmdEnded b) := (((Touches.refl _ s).set_cmds _).setF _ _).setF _ _

theorem putData_touches {ws : List Nat} : Touches [.regs] s (s.putData b ws) := Touches.forN (fun _ _ hu => hu.setF _ _) (.refl _ s)

theorem commandOperationEnd_delivers (hb : s.flag (blkBusy b) = true) :
    ∃ v, exec (.commandOperationEnd b) s = .next v ∧ v.flag (blkBusy b) = false ∧
      v.get (blkResult b) = (Tbl.get {} (blkKey b) s.cmds).result % 8 ∧
      (∀ i < blkWords b, v.get ((blkData b).nth i) = word (Tbl.get {} (blkKey b) s.cmds).data i % 2 ^ 64) ∧
      SameFieldsBut (outcomeFields b) s v ∧ v.mem = s.mem := by
  refine ⟨_, congrArg Host.Outcome.next (cmdEnd_running hb), ?_, ?_, fun i hi => get_putData hi _ _, fun g hg => ?_, ?_⟩
  · unfold State.flag
    rw [get_putData_ne fun _ hi => busy_key_ne_data b hi, State.cmdEnded, State.get_setF_ne _ _ (busy_key_ne_result b),
      State.get_setF_same, Nat.zero_mod]
    rfl
  · rw [get_putData_ne fun _ hi => result_key_ne_data b hi, State.cmdEnded, State.get_setF_same, result_width]
    rfl
  · obtain ⟨hb, hr, hd⟩ := not_outcome hg
    rw [get_putData_ne hd, State.cmdEnded, State.get_setF_ne _ _ hr, State.get_setF_ne _ _ hb]
    rfl
  · exact (Touches.via (l := [.regs, .cmds]) putData_touches cmdEnded_touches).mem_eq

/-- Settles O50: every operation of a command register runs through the one write of CMD; its start and its end write BUSY, RESULT
and the data registers alone. -/
theorem commandRegistersRefuseWaitAndDeliver : Obligations.CommandRegistersRefuseWaitAndDeliver := by
  refine ⟨fun c s m b fs only h => cmdOp_refusals h s, fun u b r ws => ?_, fun s b hb => commandOperationEnd_delivers hb,
    fun s b hb => ?_⟩
  · exact ⟨flag_cmdStart u b r ws, cmds_cmdStart u b r ws, fun g hg => get_cmdStart hg u, cmdStart_touches.mem_eq⟩
  · refine congrArg Host.Outcome.next (if_neg ?_)
    rw [hb]
    exact Bool.false_ne_true

end Sys2Proof.Machine
end

section
/-! O51: the operations of SCT.CMD and SLT.CMD. -/
namespace Sys2Proof.Machine

-- one proof after the other: started together they wait on each other's results, each in a thread of its own
set_option Elab.async false

/-! ### The fields that a write of CMD takes beside OP -/

theorem withFields_touches (s : State) (fs : List (Field × Nat)) : Touches [.regs] s (s.withFields fs) :=
  Touches.foldl (fun _ _ hu => hu.writeField _ _) fs (.refl _ s)

theorem State.writeField_only (s : State) (f : Field) (v : Nat) : ∃ r, s.writeField f v = { s with regs := r } := by
  unfold State.writeField
  split
  · exact ⟨(s.setF f v).regs, rfl⟩
  · exact ⟨s.regs, rfl⟩

theorem State.withFields_only (s : State) (fs : List (Field × Nat)) : ∃ r, s.withFields fs = { s with regs := r } := by
  unfold State.withFields
  induction fs generalizing s with
  | nil => exact ⟨s.regs, rfl⟩
  | cons p fs ih =>
    obtain ⟨r, hr⟩ := State.writeField_only s p.1 p.2
    rw [List.foldl_cons, hr]
    exact ih { s with regs := r }

/-- What is read of the state outside its registers reads the same with the fields written. -/
theorem State.of_withFields {α : Type} (f : State → α) {s : State} {fs : List (Field × Nat)} (h : ∀ r, f { s with regs := r } = f s) :
    f (s.withFields fs) = f s := by
  obtain ⟨r, hr⟩ := State.withFields_only s fs
  rw [hr, h]

variable {s : State} {m : Master} {i t : Nat} {b : CmdBlock} {fs : List (Field × Nat)}

@[simp] theorem State.withFields_ctx : (s.withFields fs).ctx i = s.ctx i := State.of_withFields (·.ctx i) fun _ => rfl

@[simp] theorem State.withFields_ing : (s.withFields fs).ing = s.ing := State.of_withFields (·.ing) fun _ => rfl

/-- An operation for the TMC that gives no words back: the data registers will read as they did. -/
theorem runs_tmc {c : Instr} {act : State → Nat × Option (List Nat) × State} {r : Nat} {u : State}
    (he : exec c s = s.cmdRun m b fs true act) (h : Opens m b s) (hm : m = .tmc) (ha : act (s.withFields fs) = (r, none, u)) :
    exec c s = .next { u.cmdStart b r ((s.withFields fs).dataWords b) with bus := .done } := by
  rw [he, State.cmdRun_starts h (fun _ => hm) ha, Option.getD_none]

/-- An operation for every master that gives no words back. -/
theorem runs_any {c : Instr} {act : State → Nat × Option (List Nat) × State} {r : Nat} {u : State}
    (he : exec c s = s.cmdRun m b fs false act) (h : Opens m b s) (ha : act (s.withFields fs) = (r, none, u)) :
    exec c s = .next { u.cmdStart b r ((s.withFields fs).dataWords b) with bus := .done } := by
  rw [he, State.cmdRun_starts h (fun hf => absurd hf Bool.false_ne_true) ha, Option.getD_none]

/-- An operation for every master that gives words back. -/
theorem runs_words {c : Instr} {act : State → Nat × Option (List Nat) × State} {r : Nat} {ws : List Nat} {u : State}
    (he : exec c s = s.cmdRun m b fs false act) (h : Opens m b s) (ha : act (s.withFields fs) = (r, some ws, u)) :
    exec c s = .next { u.cmdStart b r ws with bus := .done } := by
  rw [he, State.cmdRun_starts h (fun hf => absurd hf Bool.false_ne_true) ha, Option.getD_some]

/-! ### SCT.CMD -/

theorem sctWrite_installs (hi : i < 4096) (hf : (s.ctx i).health = hFree)
    (hok : cxValid (s.dataWords .sct) = true → s.ctxOk i (s.dataWords .sct) = true ∧ s.ctxFits i (s.dataWords .sct) = true) :
    sctWriteAct i s = (0, none, s.ctxInstall i (s.dataWords .sct)) := by
  unfold sctWriteAct
  dsimp only
  rw [if_neg (by omega), hf, if_neg (by decide), if_neg (by decide)]
  by_cases hv : cxValid (s.dataWords .sct) = true
  · obtain ⟨h1, h2⟩ := hok hv
    rw [hv, h1, h2]
    rfl
  · rw [Bool.not_eq_true] at hv
    rw [hv]
    rfl

theorem sctRemove_removes (hi : i < 4096) (hr : (s.ctx i).health ≠ hRetiring) (hf : (s.ctx i).health ≠ hFree) :
    sctRemoveAct i s = (0, none, s.ctxRemove i) := by
  unfold sctRemoveAct
  rw [if_neg (by omega), if_neg (by simp [hr, hf])]

theorem sctMode_sets (hi : i < 4096) (hf : (s.ctx i).health ≠ hFree) : sctModeAct i s =
    (0, none, s.ctxMode i (cxSimAccept (s.dataWords .sct)) (cxTestAccept (s.dataWords .sct))) := by
  unfold sctModeAct
  dsimp only
  rw [if_neg (by omega), if_neg hf]

theorem sctMapWrite_sets (hi : i < 32768) (hu : s.mapUsed i = false) :
    sctMapWriteAct i s = (0, none, s.setMap i (word (s.dataWords .sct) 0)) := by
  unfold sctMapWriteAct
  rw [if_neg (by omega), hu]
  rfl

/-! ### SLT.CMD -/

theorem sltWrite_sets (hi : i < sltSize t) (hok : sltOk t (s.sltMerge t i (s.dataWords .slt)) = true) :
    sltWriteAct t i s = (0, none, s.setSltEnt t i (s.sltMerge t i (s.dataWords .slt))) := by
  unfold sltWriteAct
  dsimp only
  rw [if_neg (by omega), hok]
  rfl

/-- Settles O51: each operation passes its own checks, and its command register starts with the outcome of its act. -/
theorem streamAndSliceTablesAreReachedByCommand : Obligations.StreamAndSliceTablesAreReachedByCommand := by
  refine fun s m i => ⟨?_, fun hs => ⟨?_, ?_⟩⟩
  · intro hs u d
    refine ⟨fun hm hi hf hv hok hfit => ?_, fun hm hi hf hv => ?_, fun hm hi hr hf => ?_, fun hm hi hf => ?_, fun hm hi hu => ?_,
      fun hi => ?_, fun hi => ?_, fun hm hi => ?_, ?_⟩
    · exact runs_tmc (exec_sctWrite m i s) hs hm (sctWrite_installs hi (by simpa using hf) fun _ => ⟨hok, hfit⟩)
    · exact runs_tmc (exec_sctWrite m i s) hs hm
        (sctWrite_installs hi (by simpa using hf) fun hv' => absurd (hv.symm.trans hv') Bool.false_ne_true)
    · exact runs_tmc (exec_sctRemove m i s) hs hm (sctRemove_removes hi (by simpa using hr) (by simpa using hf))
    · exact runs_tmc (exec_sctMode m i s) hs hm (sctMode_sets hi (by simpa using hf))
    · exact runs_tmc (exec_sctMapWrite m i s) hs hm (sctMapWrite_sets hi hu)
    · have hact := runs_words (exec_sctMapRead m i s) hs (if_neg (Nat.not_le.mpr hi))
      rwa [State.withFields_ing] at hact
    · have hact := runs_any (exec_sctForeignRead m i s) hs (if_neg (Nat.not_le.mpr hi))
      rwa [State.withFields_ing] at hact
    · exact runs_tmc (exec_sctForeignClear m i s) hs hm (if_neg (by omega))
    · intro clr hi w t
      exact runs_words (exec_sctRead m i clr s) hs (if_neg (Nat.not_le.mpr hi))
  · intro t hi u w
    refine ⟨fun hm hok => ?_, ?_⟩
    · exact runs_tmc (exec_sltWrite m t i s) hs hm (sltWrite_sets hi hok)
    · exact runs_words (exec_sltRead m t i s) hs (if_neg (Nat.not_le.mpr hi))
  · intro clr hi u
    exact runs_words (exec_sltStat m i clr s) hs (if_neg (Nat.not_le.mpr hi))

end Sys2Proof.Machine
end

section
/-! O52: the operations of the command registers of PHE, GCM, SLP, PUB and DRE. -/
namespace Sys2Proof.Machine

-- one proof after the other: started together they wait on each other's results, each in a thread of its own
set_option Elab.async false

variable {s : State} {m : Master} {i t : Nat} {fs : List (Field × Nat)}

@[simp] theorem State.withFields_locked : (s.withFields fs).tmc.locked = s.tmc.locked := State.of_withFields (·.tmc.locked) fun _ => rfl

@[simp] theorem State.withFields_pheEnt : (s.withFields fs).pheEnt t i = s.pheEnt t i := State.of_withFields (·.pheEnt t i) fun _ => rfl

@[simp] theorem State.withFields_gcm : (s.withFields fs).gcm = s.gcm := State.of_withFields (·.gcm) fun _ => rfl

@[simp] theorem State.withFields_gcmWords : (s.withFields fs).gcmWords i = s.gcmWords i := State.of_withFields (·.gcmWords i) fun _ => rfl

@[simp] theorem State.withFields_pubEnt : (s.withFields fs).pubEnt i = s.pubEnt i := State.of_withFields (·.pubEnt i) fun _ => rfl

@[simp] theorem State.withFields_pubMemb : (s.withFields fs).pubMemb i = s.pubMemb i := State.of_withFields (·.pubMemb i) fun _ => rfl

@[simp] theorem State.withFields_dreEnt : (s.withFields fs).dreEnt t i = s.dreEnt t i := State.of_withFields (·.dreEnt t i) fun _ => rfl

@[simp] theorem State.withFields_recOf : (s.withFields fs).recOf i = s.recOf i := State.of_withFields (·.recOf i) fun _ => rfl

@[simp] theorem State.withFields_lattice : (s.withFields fs).lattice i = s.lattice i := State.of_withFields (·.lattice i) fun _ => rfl

@[simp] theorem State.withFields_dirState (w : List Nat) (k : Nat) : (s.withFields fs).dirState w k = s.dirState w k :=
  State.of_withFields (·.dirState w k) fun _ => rfl

/-! ### PHE.CMD -/

theorem pheWrite_locked (h : s.tmc.locked = true) : pheWriteAct t i s = (7, none, s) := if_pos h

theorem pheWrite_sets (h : s.tmc.locked = false) (hi : pheIx t i = true) (hok : pheEntOk t ((s.dataWords .phe).take (pheLen t)) = true) :
    pheWriteAct t i s = (0, none, s.setPheEnt t i ((s.dataWords .phe).take (pheLen t))) := by
  unfold pheWriteAct
  rw [h, if_neg Bool.false_ne_true, hi, if_neg (by decide)]
  dsimp only
  rw [hok, if_neg (by decide)]

theorem pheRead_words (hi : pheIx t i = true) : pheReadAct t i s = (0, some (s.pheEnt t i), s) := by
  unfold pheReadAct
  rw [hi]
  rfl

/-! ### GCM.CMD -/

theorem gcmWrite_sets (h : s.tmc.locked = false) (hi : i < 4096) (hk : gdKindOk (s.dataWords .gcm) = true)
    (hp : gdParamOk (s.dataWords .gcm) = true) : gcmWriteAct i s = (0, none, s.setGcmEnt i (s.dataWords .gcm)) := by
  unfold gcmWriteAct
  dsimp only
  rw [h, if_neg Bool.false_ne_true, if_neg (by omega), hk, hp]
  rfl

theorem gcmParam_sets (hi : i < 4096) (hp : gdParamOk (gdParam (s.gcmWords i) (s.dataWords .gcm)) = true) :
    gcmParamAct i s = (0, none, s.gcmFrom i (gdParam (s.gcmWords i) (s.dataWords .gcm))) := by
  unfold gcmParamAct State.gcmParamSet
  dsimp only
  rw [if_neg (by omega), hp]
  rfl

theorem gcmEnable_sets (hi : i < 4096) : gcmEnableAct i s = (0, none, s.gcmFrom i
    (putBits 63 63 (b2n (wbit (s.dataWords .gcm) 0 63)) (word (s.gcmWords i) 0) :: (s.gcmWords i).drop 1)) := by
  unfold gcmEnableAct State.gcmEnableSet
  rw [if_neg (by omega)]

/-! ### SLP.CMD -/

theorem slpWrite_sets (h : s.tmc.locked = false) (hi : i < slpSize t) (hok : slpEntOk t (s.dataWords .slp) = true) :
    slpWriteAct t i s = (0, none, s.slpPut t i (s.dataWords .slp)) := by
  unfold slpWriteAct
  rw [h, if_neg Bool.false_ne_true, if_neg (Nat.not_le.mpr hi), hok]
  rfl

theorem slpState_words (ht : t = 2 ∨ t = 3) (hi : i < slpSize t) : slpStateAct t i s = (0, some (s.opState t i), s) := by
  have htab : (t != 2 && t != 3) = false := by rcases ht with rfl | rfl <;> rfl
  unfold slpStateAct
  rw [htab, decide_eq_false (Nat.not_le.mpr hi)]
  rfl

/-! ### PUB.CMD -/

theorem pubWrite_sets (h : s.tmc.locked = false) (hi : i < pubCount) (hok : pubEntOk i (s.dataWords .pub) = true) :
    pubWriteAct i s = (0, none, s.setPubEnt i (s.dataWords .pub)) := by
  unfold pubWriteAct
  rw [h, if_neg Bool.false_ne_true, if_neg (Nat.not_le.mpr hi)]
  dsimp only
  rw [hok]
  rfl

theorem pubMembWrite_sets (h : s.tmc.locked = false) (hi : i < membCount)
    (hok : membOk (wbits (s.dataWords .pub) 0 31 0 &&& 0xFF80FFFF) = true) : pubMembWriteAct i s =
      (0, none, { s with pub := { s.pub with memb := Tbl.set 0 i (wbits (s.dataWords .pub) 0 31 0 &&& 0xFF80FFFF) s.pub.memb } }) := by
  unfold pubMembWriteAct
  rw [h, if_neg Bool.false_ne_true, if_neg (Nat.not_le.mpr hi)]
  dsimp only
  rw [hok]
  rfl

theorem pubEnableAct_sets (hi : i < pubCount) (hv : pbValid (s.pubEnt i) = true) :
    pubEnableAct i s = (0, none, (s.pubEnableSet i (wbit (s.dataWords .pub) 1 63)).pubFlush) := by
  unfold pubEnableAct
  rw [if_neg (Nat.not_le.mpr hi), hv]
  rfl

theorem pubModeAct_sets (hi : i < pubCount) (hv : pbValid (s.pubEnt i) = true) :
    pubModeAct i s = (0, none, s.pubModeSet i (wbits (s.dataWords .pub) 1 62 62) (wbits (s.dataWords .pub) 1 61 61)) := by
  unfold pubModeAct
  rw [if_neg (Nat.not_le.mpr hi), hv]
  rfl

/-! ### DRE.CMD -/

/-- The words of DATA that an entry of a recorder table takes. -/
def dreTake (t : Nat) : Nat := if t = 0 then 5 else if t = 1 then 4 else 1

theorem dreWrite_sets (h : s.tmc.locked = false) (hi : i < dreSize t) (hok : dreEntOk t ((s.dataWords .dre).take (dreTake t)) = true) :
    dreWriteAct t i s = (0, none, s.setDreEnt t i ((s.dataWords .dre).take (dreTake t))) := by
  unfold dreWriteAct
  rw [h, if_neg Bool.false_ne_true, if_neg (Nat.not_le.mpr hi)]
  dsimp only
  rw [← dreTake, hok]
  rfl

theorem dreOp_eq {f : State → Nat × State} {r : Nat} {u : State} (h : f s = (r, u)) : dreOp f s = (r, none, u) := by
  rw [dreOp, h]

/-- Settles O52: each operation passes its own checks, and its command register starts with the outcome of its act. -/
theorem engineAndRecorderTablesAreReachedByCommand : Obligations.EngineAndRecorderTablesAreReachedByCommand := by
  refine ⟨fun s m i => ⟨?_, ?_, ?_⟩, fun s m i => ⟨?_, fun hs => ⟨?_, ?_⟩⟩⟩
  · intro t hs hi u d
    refine ⟨fun hm hl => ?_, fun hm hl hok => ?_, ?_⟩
    · exact runs_tmc (exec_pheWrite m t i s) hs hm (pheWrite_locked (by simpa using hl))
    · exact runs_tmc (exec_pheWrite m t i s) hs hm (pheWrite_sets (by simpa using hl) hi hok)
    · have hread := runs_words (exec_pheRead m t i s) hs (pheRead_words hi)
      rwa [State.withFields_pheEnt] at hread
  · intro hs hi u d x
    have hwords : u.gcmWords i = s.gcmWords i := State.withFields_gcmWords
    refine ⟨fun hm hl hk hp => ?_, fun hm hp => ?_, fun hm => ?_, ?_, ?_⟩
    · exact runs_tmc (exec_gcmWrite m i s) hs hm (gcmWrite_sets (by simpa using hl) hi hk hp)
    · rw [← hwords] at hp ⊢
      exact runs_tmc (exec_gcmParam m i s) hs hm (gcmParam_sets hi hp)
    · rw [← hwords]
      exact runs_tmc (exec_gcmEnable m i s) hs hm (gcmEnable_sets hi)
    · rw [← hwords]
      exact runs_words (exec_gcmRead m i s) hs (if_neg (Nat.not_le.mpr hi))
    · have hstate := runs_words (exec_gcmState m i s) hs (if_neg (Nat.not_le.mpr hi))
      rwa [State.withFields_gcm] at hstate
  · intro t hs u d
    refine ⟨fun hm hl hi hok => ?_, fun hi => ?_, fun ht hi => ?_, fun hi => ?_⟩
    · exact runs_tmc (exec_slpWrite m t i s) hs hm (slpWrite_sets (by simpa using hl) hi hok)
    · exact runs_words (exec_slpRead m t i s) hs (if_neg (Nat.not_le.mpr hi))
    · exact runs_words (exec_slpState m t i s) hs (slpState_words ht hi)
    · exact runs_words (exec_slpOpnd m t i s) hs (if_neg (Nat.not_le.mpr hi))
  · intro hs u d
    refine ⟨fun hm hl hi hok => ?_, fun hi => ?_, fun hm hl hi hok => ?_, fun hi => ?_, fun hm hi hv => ⟨?_, ?_⟩, fun hi => ?_⟩
    · exact runs_tmc (exec_pubWrite m i s) hs hm (pubWrite_sets (by simpa using hl) hi hok)
    · have hread := runs_words (exec_pubRead m i s) hs (if_neg (Nat.not_le.mpr hi))
      rwa [State.withFields_pubEnt] at hread
    · exact runs_tmc (exec_pubMembWrite m i s) hs hm (pubMembWrite_sets (by simpa using hl) hi hok)
    · have hread := runs_words (exec_pubMembRead m i s) hs (if_neg (Nat.not_le.mpr hi))
      rwa [State.withFields_pubMemb] at hread
    · exact runs_tmc (exec_pubCmdEnable m i s) hs hm (pubEnableAct_sets hi (by simpa using hv))
    · exact runs_tmc (exec_pubCmdMode m i s) hs hm (pubModeAct_sets hi (by simpa using hv))
    · exact runs_any (exec_pubStat m i s) hs (if_neg (Nat.not_le.mpr hi))
  · intro t hi u d w
    refine ⟨fun hm hl hok => ?_, ?_⟩
    · exact runs_tmc (exec_dreWrite m t i s) hs hm (dreWrite_sets (by simpa using hl) hi hok)
    · have hread := runs_words (exec_dreRead m t i s) hs (if_neg (Nat.not_le.mpr hi))
      rwa [State.withFields_dreEnt] at hread
  · intro hi u d
    refine ⟨fun hm hv => ⟨fun hst => ?_, fun hst => ?_, fun hst => ?_, fun hk hst => ?_⟩, ?_⟩
    · exact runs_tmc (exec_dreArm m i s) hs hm (dreOp_eq (recArm_eq hi (by simpa using hv) (by simpa using hst)))
    · exact runs_tmc (exec_dreDisarm m i s) hs hm (dreOp_eq (recDisarm_eq hi (by simpa using hv) (by simpa using hst)))
    · have htrig := runs_tmc (exec_dreTrigger m i s) hs hm (dreOp_eq (recTrigger_eq hi (by simpa using hv) (by simpa using hst)))
      rwa [State.withFields_dreEnt, State.withFields_lattice] at htrig
    · exact runs_tmc (exec_dreRelease m i s) hs hm (dreOp_eq (recRelease_eq hi (by simpa using hv) (by simpa using hk) (by simpa using hst)))
    · exact runs_any (exec_dreStat m i s) hs (if_neg (Nat.not_le.mpr hi))

end Sys2Proof.Machine
end

section
/-! O58: registers whose write acts: the Weevil's ARM and rule counts, the Belfry's cursor. -/
namespace Sys2Proof.Machine

-- one proof after the other: started together they wait on each other's results, each in a thread of its own
set_option Elab.async false

variable {s : State} {m : Master}

/-! ### The Weevil -/

theorem wvlArm_disallowed (h : s.flag F.WVL_CTL_ALLOW = false) : s.wvlArm true = s := if_pos (by rw [h]; rfl)

theorem wvlArm_armed (h : s.flag F.WVL_CTL_ALLOW = true) : (s.wvlArm true).flag F.WVL_CTL_ARM = true := by
  unfold State.wvlArm
  rw [h, if_neg (by decide)]
  by_cases ha : s.flag F.WVL_CTL_ARM = true
  · rw [ha, if_pos (by decide)]
    exact ha
  · rw [Bool.not_eq_true] at ha
    rw [ha, if_neg (by decide)]
    have hbelfry : ((s.setB F.WVL_CTL_ARM true).belfry 1 0x0004 0 [b2n true]).flag F.WVL_CTL_ARM = (s.setB F.WVL_CTL_ARM true).flag F.WVL_CTL_ARM :=
      (belfry_all (k := 2 ^ 64)).flag_eq (by decide) (by decide)
    refine Eq.trans ?_ (hbelfry.trans ?_)
    · rfl
    · unfold State.flag State.setB
      rw [State.get_setF_same]
      rfl

theorem wvlArmWrite_next (hm : s.masterUp m = true) (hg : regGrant (s.actor m) F.WVL_CTL_ARM.addr true = true) (v : Nat) :
    wvlArmWrite m v s = { (if s.tmc.locked then s.wvlArm (bit 0 v) else (s.wvlArm (bit 0 v)).setB F.WVL_CTL_ALLOW (bit 1 v)) with
      bus := .done } := State.granted_yes hm hg

theorem counts_wvlRestart_ne (s : State) {r q : Nat} (h : q ≠ r) (v : Nat) :
    Tbl.get 0 q (s.wvlRestart r v).wvl.seen = Tbl.get 0 q s.wvl.seen ∧ Tbl.get 0 q (s.wvlRestart r v).wvl.acted = Tbl.get 0 q s.wvl.acted := by
  have hseen : (s.wvlRestart r v).wvl.seen = Tbl.set 0 r 0 s.wvl.seen := rfl
  have hacted : (s.wvlRestart r v).wvl.acted = Tbl.set 0 r 0 s.wvl.acted := rfl
  rw [hseen, hacted, Tbl.get_set, if_neg h, Tbl.get_set, if_neg h]
  exact ⟨rfl, rfl⟩

theorem wvlRuleCount_restarts (hm : s.masterUp m = true) {r v : Nat} (hr : r < 16)
    (hg : regGrant (s.actor m) (F.WVL_RULE_COUNT_EVERY.nth r).addr true = true) :
    ∃ t, exec (.wvlRuleCountWrite m r v) s = .next t ∧ t.bus = .done ∧ t.get (F.WVL_RULE_COUNT_EVERY.nth r) = bits 31 16 v ∧
      t.get (F.WVL_RULE_COUNT_LIMIT.nth r) = bits 15 0 v ∧ Tbl.get 0 r t.wvl.seen = 0 ∧ Tbl.get 0 r t.wvl.acted = 0 ∧
      (∀ q, q ≠ r → Tbl.get 0 q t.wvl.seen = Tbl.get 0 q s.wvl.seen ∧ Tbl.get 0 q t.wvl.acted = Tbl.get 0 q s.wvl.acted) ∧ t.mem = s.mem := by
  have hexec : wvlRuleCountWrite m r v s = { s.wvlRestart r v with bus := .done } :=
    (if_pos hr).trans (State.granted_yes hm hg)
  have hmem : (s.wvlRestart r v).mem = s.mem := wvlRestart_touches.mem_eq
  have hstride : ∀ p ∈ ruleCount v, p.1.stride = 32 := by
    simp only [ruleCount, List.forall_mem_cons]
    decide
  have hkeys : ((ruleCount v).map (·.1.key)).Nodup := by
    simp only [ruleCount, List.map_cons, List.map_nil]
    decide
  have hget (i : Nat) {f : Field} {w : Nat} (hi : (ruleCount v)[i]? = some (f, w)) :
      (s.wvlRestart r v).get (f.nth r) = w % 2 ^ f.width :=
    (get_wvlRestart s r v _).trans (get_putRules_mem hstride hkeys (List.mem_of_getElem? hi) s)
  exact ⟨_, congrArg Host.Outcome.next hexec, rfl, (hget 0 rfl).trans (Nat.mod_mod _ _), (hget 1 rfl).trans (Nat.mod_mod _ _),
    seen_wvlRestart s r v, acted_wvlRestart s r v,
    fun q hq => counts_wvlRestart_ne s hq v, hmem⟩

/-! ### The Belfry's cursor -/

theorem ofLe_lt (l : Octets) : ofLe l < 256 ^ l.length := by
  induction l with
  | nil => exact Nat.one_pos
  | cons b l ih =>
    have hb : b.toNat < 256 := b.isLt
    rw [List.length_cons, Nat.pow_succ]
    simp only [ofLe]
    omega

theorem memTake_length (mem : List Host.Cell) (n a : Nat) : (memTake mem n a).length = n := by
  induction n generalizing a with
  | zero => rfl
  | succ n ih => rw [memTake, List.length_cons, ih]

theorem rd64_lt (s : State) (a : Nat) : s.rd64 a < 2 ^ 64 := by
  have hlt := ofLe_lt (memTake s.mem 8 a)
  rwa [memTake_length] at hlt

/-- Word `i` of a record is what the Belfry holds of it, or 0 where it holds none. -/
theorem word_recordWords (s : State) (first : Bool) (r : Nat) {i : Nat} (hi : i < 32) : word (s.recordWords first r) i =
    if s.winState first r = 0 then s.rd64 ((if first then blfFirst r else blfLast r) + 8 * i) else 0 := by
  unfold State.recordWords word
  split
  · simp [State.rdWords, hi]
  · rw [List.getD_eq_getElem?_getD, List.getElem?_replicate, if_pos hi]
    rfl

theorem recordWord_lt (s : State) (first : Bool) (r : Nat) {i : Nat} (hi : i < 32) : word (s.recordWords first r) i < 2 ^ 64 := by
  rw [word_recordWords s first r hi]
  split
  · exact rd64_lt s _
  · exact Nat.two_pow_pos 64

theorem winWord_key_ne {g : Field} (h : g.key < F.BLF_WIN_WORD.key) (i : Nat) : g.key ≠ (F.BLF_WIN_WORD.nth i).key := by
  have hle : F.BLF_WIN_WORD.key ≤ (F.BLF_WIN_WORD.nth i).key := le_key_nth (Nat.le_refl _) i
  omega

theorem winState_lt (s : State) (first : Bool) (r : Nat) : s.winState first r < 4 := by
  unfold State.winState
  repeat' split
  all_goals decide

/-- A snapshot of the record that the cursor names. -/
theorem snapshot_shows {first : Bool} {r : Nat} (hf : s.flag F.BLF_CURSOR_FIRST = first) (hr : s.get F.BLF_CURSOR_RSEQ = r) :
    s.snapshot.get F.BLF_CURSOR_RSEQ = r ∧ s.snapshot.flag F.BLF_CURSOR_FIRST = first ∧
      s.snapshot.get F.BLF_WIN_STAT_WIN_STATE = s.winState first r ∧
      (∀ i < 32, s.snapshot.get (F.BLF_WIN_WORD.nth i) = if s.winState first r = 0
        then s.rd64 ((if first then blfFirst r else blfLast r) + 8 * i) else 0) ∧ s.snapshot.mem = s.mem := by
  have hkeep {g : Field} (hg : g.key < F.BLF_WIN_WORD.key) : s.snapshot.get g =
      ((s.setF F.BLF_WIN_STAT_WIN_STATE (s.winState first r)).setF F.BLF_WIN_STAT_BUSY 0).get g := by
    unfold State.snapshot
    rw [hf, hr]
    exact get_forN_ne (fun i _ => winWord_key_ne hg i) _ _
  refine ⟨?_, ?_, ?_, fun i hi => ?_, ?_⟩
  · rw [hkeep (by decide), State.get_setF_ne _ _ (by decide), State.get_setF_ne _ _ (by decide), hr]
  · unfold State.flag
    rw [hkeep (by decide), State.get_setF_ne _ _ (by decide), State.get_setF_ne _ _ (by decide)]
    exact hf
  · rw [hkeep (by decide), State.get_setF_ne _ _ (by decide), State.get_setF_same]
    exact Nat.mod_eq_of_lt (winState_lt s first r)
  · unfold State.snapshot
    rw [hf, hr, get_forN_nth (by decide) _ hi, show F.BLF_WIN_WORD.width = 64 from rfl, Nat.mod_eq_of_lt (recordWord_lt s first r hi), word_recordWords s first r hi]
  · have htouch : Touches [.regs] s s.snapshot :=
      Touches.forN (fun _ _ hu => hu.setF _ _) (((Touches.refl _ s).setF _ _).setF _ _)
    exact htouch.mem_eq

theorem flag_bits (k v : Nat) : (bits k k v != 0) = bit k v := by
  have h2 : v / 2 ^ k % 2 < 2 := Nat.mod_lt _ (by decide)
  have hk : k + 1 - k = 1 := by omega
  unfold bits bit
  rw [hk, Nat.pow_one]
  generalize v / 2 ^ k % 2 = x at *
  interval_cases x <;> rfl

/-- R480: the cursor takes the record that is written to it. -/
theorem cursorWrite_shows (s : State) (v : Nat) :
    (s.cursorWrite v).get F.BLF_CURSOR_RSEQ = v % 2 ^ 48 ∧ (s.cursorWrite v).flag F.BLF_CURSOR_FIRST = bit 63 v ∧
      (s.cursorWrite v).get F.BLF_WIN_STAT_WIN_STATE = s.winState (bit 63 v) (v % 2 ^ 48) ∧
      (∀ i < 32, (s.cursorWrite v).get (F.BLF_WIN_WORD.nth i) = if s.winState (bit 63 v) (v % 2 ^ 48) = 0
        then s.rd64 ((if bit 63 v then blfFirst (v % 2 ^ 48) else blfLast (v % 2 ^ 48)) + 8 * i) else 0) ∧
      (s.cursorWrite v).mem = s.mem := by
  refine snapshot_shows (s := (s.setF F.BLF_CURSOR_FIRST (bits 63 63 v)).setF F.BLF_CURSOR_RSEQ (bits 47 0 v)) ?_ ?_
  · unfold State.flag
    rw [State.get_setF_ne _ _ (by decide), State.get_setF_same, ← flag_bits 63 v]
    exact congrArg (· != 0) (Nat.mod_mod _ _)
  · rw [State.get_setF_same]
    simp [bits, F.BLF_CURSOR_RSEQ]

/-- R480: a step takes the next record. -/
theorem cursorStep_shows {v : Nat} (hv : bit 0 v = true) :
    (s.cursorStep v).get F.BLF_CURSOR_RSEQ = (s.get F.BLF_CURSOR_RSEQ + 1) % 2 ^ 48 ∧
      (s.cursorStep v).get F.BLF_WIN_STAT_WIN_STATE = s.winState (s.flag F.BLF_CURSOR_FIRST) ((s.get F.BLF_CURSOR_RSEQ + 1) % 2 ^ 48) ∧
      (∀ i < 32, (s.cursorStep v).get (F.BLF_WIN_WORD.nth i) =
        if s.winState (s.flag F.BLF_CURSOR_FIRST) ((s.get F.BLF_CURSOR_RSEQ + 1) % 2 ^ 48) = 0
        then s.rd64 ((if s.flag F.BLF_CURSOR_FIRST then blfFirst ((s.get F.BLF_CURSOR_RSEQ + 1) % 2 ^ 48)
          else blfLast ((s.get F.BLF_CURSOR_RSEQ + 1) % 2 ^ 48)) + 8 * i) else 0) ∧
      (s.cursorStep v).mem = s.mem := by
  have hstep : s.cursorStep v = (s.setF F.BLF_CURSOR_RSEQ (s.get F.BLF_CURSOR_RSEQ + 1)).snapshot := if_pos hv
  have hflag : (s.setF F.BLF_CURSOR_RSEQ (s.get F.BLF_CURSOR_RSEQ + 1)).flag F.BLF_CURSOR_FIRST = s.flag F.BLF_CURSOR_FIRST := by
    unfold State.flag
    rw [State.get_setF_ne _ _ (by decide)]
  obtain ⟨hr, -, hw, hwords, hmem⟩ := snapshot_shows hflag (State.get_setF_same s F.BLF_CURSOR_RSEQ (s.get F.BLF_CURSOR_RSEQ + 1))
  rw [hstep]
  exact ⟨hr, hw, hwords, hmem⟩

theorem blfCursorWrite_next (hm : s.masterUp m = true) (hg : regGrant (s.actor m) F.BLF_CURSOR_RSEQ.addr true = true) (v : Nat) :
    exec (.blfCursorWrite m v) s = .next { s.cursorWrite v with bus := .done } :=
  congrArg Host.Outcome.next (State.granted_yes (f := fun s => s.cursorWrite v) hm hg)

theorem blfStepNext_next (hm : s.masterUp m = true) (hg : regGrant (s.actor m) F.BLF_STEP_NEXT.addr true = true) (v : Nat) :
    exec (.blfStepNext m v) s = .next { s.cursorStep v with bus := .done } :=
  congrArg Host.Outcome.next (State.granted_yes (f := fun s => s.cursorStep v) hm hg)

/-- Settles O58: a granted write acts as its register says; without the grant it is a bus error. -/
theorem actingRegistersActWhereGranted : Obligations.ActingRegistersActWhereGranted := by
  refine fun s m hm => ⟨fun hg v => ⟨fun hl => ?_, fun hl => ?_, wvlArm_disallowed, wvlArm_armed⟩,
    fun r v hr hg => wvlRuleCount_restarts hm hr hg, fun hg v => ?_, fun hg v => ⟨fun hv => ?_, fun hv => ?_⟩, ?_⟩
  · refine congrArg Host.Outcome.next ((wvlArmWrite_next hm hg v).trans ?_)
    rw [if_pos hl]
  · refine congrArg Host.Outcome.next ((wvlArmWrite_next hm hg v).trans ?_)
    rw [hl]
    rfl
  · have hexec := blfCursorWrite_next hm hg v
    have hshows := cursorWrite_shows s v
    generalize s.cursorWrite v = t at hexec hshows
    exact ⟨_, hexec, rfl, hshows⟩
  · have hstay : s.cursorStep v = s := if_neg (by rw [hv]; exact Bool.false_ne_true)
    rw [blfStepNext_next hm hg v, hstay]
  · have hexec := blfStepNext_next hm hg v
    have hshows := cursorStep_shows (s := s) hv
    generalize s.cursorStep v = t at hexec hshows
    exact ⟨_, hexec, rfl, hshows⟩
  · intro i addr hmem hg
    simp only [List.mem_cons, Prod.mk.injEq, List.not_mem_nil, or_false] at hmem
    rcases hmem with ⟨rfl, rfl⟩ | ⟨rfl, rfl⟩ | ⟨rfl, rfl⟩ | ⟨rfl, rfl⟩
    · exact congrArg Host.Outcome.next (State.granted_no hm hg)
    · exact congrArg Host.Outcome.next ((if_pos (by decide)).trans (State.granted_no hm hg))
    · exact congrArg Host.Outcome.next (State.granted_no hm hg)
    · exact congrArg Host.Outcome.next (State.granted_no hm hg)

end Sys2Proof.Machine
end

section
/-! O55: refused requests to the register pages. -/
namespace Sys2Proof.Machine

-- one proof after the other: started together they wait on each other's results, each in a thread of its own
set_option Elab.async false

/-- Slice 5 is ACTIVE with an error limit of 1 in a second, and application core 3 runs a program of it. -/
def atErrorLimit : State :=
  { sup := { coresUp := true },
    slt := { tab := [(5, [1, 0, 0]), (4096, [2 ^ 63 + 5 * 2 ^ 56 + 7])], slices := [(5, { state := 2 })], cores := [(3, ⟨true, 7, 0⟩)] } }

theorem atErrorLimit_actor : atErrorLimit.actor (.core 3 false) = .tenant 5 := by decide

/-- The refused request reaches the error limit: slice 5 becomes FAULTED, and the event of that to slice 0 is counted there. -/
theorem atErrorLimit_refused : (((atErrorLimit.refused (.tenant 5) 0x5000010000).slice 0).evtLost = 1) := by decide

/-- Refutes O55: a slice's refusal is not counted against that slice alone where it reaches the slice's error limit, since the state
change to FAULTED sends an event to slice 0 too, which slice 0 counts as sent or as lost. -/
theorem not_ungrantedRegisterAccessesAreBusErrors : ¬ Obligations.UngrantedRegisterAccessesAreBusErrors := by
  intro h
  obtain ⟨-, -, htenant⟩ := h atErrorLimit (.core 3 false) 0x5000010000 8 1 (by decide)
  obtain ⟨-, hothers⟩ := htenant 5 (.inl atErrorLimit_actor)
  have hzero := congrArg Slice.evtLost (hothers 0 (by decide))
  rw [atErrorLimit_actor, atErrorLimit_refused] at hzero
  exact absurd hzero (by decide)

end Sys2Proof.Machine
end

section
/-! O56: writes and reads of the registers of the global pages. -/
namespace Sys2Proof.Machine

-- one proof after the other: started together they wait on each other's results, each in a thread of its own
set_option Elab.async false

variable {s : State}

/-! ### The register list -/

/-- A register's fields stand at distinct bits and repeat with the register. -/
def Register.Apart (r : Register) : Prop := (r.fields.map Field.key).Nodup ∧ ∀ f ∈ r.fields, f.stride = r.stride

theorem registers1_apart : ∀ r ∈ registers1, r.Apart := by unfold Register.Apart; decide

theorem registers2_apart : ∀ r ∈ registers2, r.Apart := by unfold Register.Apart; decide

theorem registers3_apart : ∀ r ∈ registers3, r.Apart := by unfold Register.Apart; decide

theorem registers4_apart : ∀ r ∈ registers4, r.Apart := by unfold Register.Apart; decide

theorem registers5_apart : ∀ r ∈ registers5, r.Apart := by unfold Register.Apart; decide

theorem registers_apart {r : Register} (h : r ∈ registers) : r.Apart := by
  simp only [registers, List.mem_append] at h
  rcases h with (((h | h) | h) | h) | h
  · exact registers1_apart r h
  · exact registers2_apart r h
  · exact registers3_apart r h
  · exact registers4_apart r h
  · exact registers5_apart r h

theorem inst_keys_nodup {r : Register} (h : r ∈ registers) (p k : Nat) : ((r.inst p k).map Field.key).Nodup := by
  obtain ⟨hkeys, hstride⟩ := registers_apart h
  rw [Register.inst, List.map_map]
  refine List.pairwise_map.mpr ((List.pairwise_map.mp hkeys).imp_of_mem fun {f g} hf hg hne => ?_)
  have hnth : (f.nth k).key ≠ (g.nth k).key := key_nth_ne ((hstride f hf).trans (hstride g hg).symm) hne k
  dsimp only [Function.comp]
  split
  · exact hnth
  · exact pg_key_ne hnth p

theorem regAt_mem {a p k : Nat} {r : Register} (h : regAt a = some (r, p, k)) : r ∈ registers ∧ r.addr ≤ a := by
  obtain ⟨r', hr', hat⟩ := List.exists_of_findSome?_eq_some h
  obtain ⟨x, hx, heq⟩ := Option.map_eq_some_iff.mp hat
  obtain ⟨rfl, rfl⟩ := Prod.mk.inj heq
  refine ⟨hr', ?_⟩
  unfold Register.at_ at hx
  by_contra hlt
  rw [if_pos (by omega)] at hx
  exact nomatch hx

/-! ### Fields by their access codes (R10, R11) -/

/-- What a field holds once a word was written to its register. -/
def Field.stored (locked : Bool) (w : Nat) (f : Field) (x : Nat) : Nat :=
  match f.acc with
  | .rw => if f.legal (f.part w) = true then f.part w else x
  | .rwl => if f.legal (f.part w) = true ∧ locked = false then f.part w else x
  | .w1c => (x - (x &&& f.part w)) % 2 ^ f.width
  | _ => x

theorem part_mod (f : Field) (w : Nat) : f.part w % 2 ^ f.width = f.part w := Nat.mod_mod _ _

theorem get_storeField_same (locked : Bool) (w : Nat) (s : State) (f : Field) :
    (s.storeField locked w f).get f = f.stored locked w (s.get f) := by
  unfold State.storeField Field.stored
  cases hacc : f.acc <;> dsimp only
  case rw => split <;> simp only [State.get_setF_same, part_mod]
  case rwl => cases f.legal (f.part w) <;> cases locked <;> simp [State.get_setF_same, part_mod]
  case w1c => rw [State.get_setF_same]

theorem get_storeField_ne (locked : Bool) (w : Nat) (s : State) (f g : Field) (h : g.key ≠ f.key) :
    (s.storeField locked w f).get g = s.get g := by
  unfold State.storeField
  cases f.acc <;> dsimp only
  case rw => split <;> simp only [State.get_setF_ne s _ h]
  case rwl => split <;> simp only [State.get_setF_ne s _ h]
  case w1c => exact State.get_setF_ne s _ h

theorem storeField_touches (locked : Bool) (w : Nat) (f : Field) {u : State} (h : Touches [.regs] s u) :
    Touches [.regs] s (u.storeField locked w f) := by
  unfold State.storeField
  cases f.acc <;> dsimp only
  case rw => exact .ite (h.setF _ _) h
  case rwl => exact .ite (h.setF _ _) h
  case w1c => exact h.setF _ _
  all_goals exact h

theorem storeReg_touches (fs : List Field) (locked : Bool) (w : Nat) : Touches [.regs] s (s.storeReg fs locked w) :=
  Touches.foldl (fun _ _ hu => storeField_touches locked w _ hu) fs (.refl _ s)

theorem get_storeReg_ne {fs : List Field} {locked : Bool} {w : Nat} {g : Field} (h : ∀ f ∈ fs, g.key ≠ f.key) (s : State) :
    (s.storeReg fs locked w).get g = s.get g :=
  get_fieldLoop_ne (step := fun s f => s.storeField locked w f) (field := id) (get_storeField_ne locked w) h s

theorem get_storeReg_mem {fs : List Field} {locked : Bool} {w : Nat} (hnd : (fs.map Field.key).Nodup) {f : Field} (hf : f ∈ fs)
    (s : State) : (s.storeReg fs locked w).get f = f.stored locked w (s.get f) :=
  get_fieldLoop_mem (step := fun s f => s.storeField locked w f) (field := id) (get_storeField_ne locked w)
    (val := fun f x => f.stored locked w x) (get_storeField_same locked w) hnd hf s

theorem sameFieldsBut_storeReg (fs : List Field) (locked : Bool) (w : Nat) : SameFieldsBut fs s (s.storeReg fs locked w) :=
  fun _ hg => get_storeReg_ne (fun f hf => (hg f hf).symm) s

/-- Clearing a field that a read clears. -/
def State.clearField (s : State) (f : Field) : State := if f.acc = .rc then s.setF f 0 else s

theorem get_clearField_same (s : State) (f : Field) : (s.clearField f).get f = if f.acc = .rc then 0 else s.get f := by
  unfold State.clearField
  split
  · rw [State.get_setF_same, Nat.zero_mod]
  · rfl

theorem get_clearField_ne (s : State) (f g : Field) (h : g.key ≠ f.key) : (s.clearField f).get g = s.get g := by
  unfold State.clearField
  split
  · exact State.get_setF_ne s 0 h
  · rfl

theorem get_clearRead_mem {fs : List Field} (hnd : (fs.map Field.key).Nodup) {f : Field} (hf : f ∈ fs) (s : State) :
    (s.clearRead fs).get f = if f.acc = .rc then 0 else s.get f :=
  get_fieldLoop_mem (step := State.clearField) (field := id) get_clearField_ne (val := fun f x => if f.acc = .rc then 0 else x)
    get_clearField_same hnd hf s

theorem sameFieldsBut_clearRead (fs : List Field) : SameFieldsBut fs s (s.clearRead fs) := fun _ hg =>
  get_fieldLoop_ne (step := State.clearField) (field := id) get_clearField_ne (fun f hf => (hg f hf).symm) s

theorem clearRead_mem (fs : List Field) : (s.clearRead fs).mem = s.mem :=
  (Touches.foldl (fun _ _ hu => .ite (hu.setF _ _) hu) fs (.refl [.regs] s)).mem_eq

/-! ### A write by its register -/

/-- The word that reaches a register's fields: the data words of the command blocks keep their reserved bits 0. -/
def regWord (base k v : Nat) : Nat :=
  match cmdBlocks.find? (fun b => (blkData b).addr == base) with
  | some b => dataKept b k v
  | none => v

/-- The registers of the global pages whose write does not store fields. -/
def actingAddrs : List Nat :=
  [(blkBusy .sct).addr, (blkBusy .phe).addr, (blkBusy .gcm).addr, (blkBusy .slp).addr, (blkBusy .pub).addr, (blkBusy .dre).addr,
    (blkBusy .slt).addr, F.WVL_CTL_ARM.addr, F.WVL_RULE_COUNT_EVERY.addr, F.BLF_CURSOR_RSEQ.addr, F.BLF_STEP_NEXT.addr,
    F.PHM_FAULT_THERM.addr]

theorem cmdBlocks_find?_none {base : Nat} (h : base ∉ actingAddrs) : cmdBlocks.find? (fun b => (blkBusy b).addr == base) = none := by
  refine List.find?_eq_none.mpr fun b _ hb => h ?_
  rw [← eq_of_beq hb]
  cases b <;> decide

theorem cmdBlocks_any_false {base : Nat} (h : ∀ b : CmdBlock, (blkData b).addr = base → s.flag (blkBusy b) = false) :
    cmdBlocks.any (fun b => (blkData b).addr == base && s.flag (blkBusy b)) = false := by
  refine List.any_eq_false.mpr fun b _ hb => ?_
  obtain ⟨haddr, hbusy⟩ := Bool.and_eq_true_iff.mp hb
  exact absurd hbusy (by rw [h b (eq_of_beq haddr)]; decide)

theorem globalWrite_island {m : Master} {base k v : Nat} {fs : List Field} (hact : base ∉ actingAddrs)
    (hbusy : ∀ b : CmdBlock, (blkData b).addr = base → s.flag (blkBusy b) = false) (h : islandPage base = true) :
    s.globalWrite m base k fs v = { s with bus := .done } := by
  rw [State.globalWrite, cmdBlocks_find?_none hact]
  dsimp only
  rw [cmdBlocks_any_false hbusy, if_neg (by decide), if_pos h]

theorem globalWrite_plain {m : Master} {base k v : Nat} {fs : List Field} (hact : base ∉ actingAddrs)
    (hbusy : ∀ b : CmdBlock, (blkData b).addr = base → s.flag (blkBusy b) = false) (h : islandPage base = false) :
    s.globalWrite m base k fs v = { s.written base fs (regWord base k v) with bus := .done } := by
  rw [State.globalWrite, cmdBlocks_find?_none hact]
  dsimp only
  simp only [actingAddrs, List.mem_cons, List.not_mem_nil, or_false, not_or] at hact
  obtain ⟨-, -, -, -, -, -, -, harm, hcount, hcursor, hstep, hfault⟩ := hact
  rw [cmdBlocks_any_false hbusy, if_neg (by decide), h, if_neg (by decide), if_neg harm, if_neg hcount, if_neg hcursor, if_neg hstep,
    if_neg hfault]
  rfl

section written
variable {base w : Nat} {fs : List Field}

theorem written_tbu (h : base / 0x10000 = F.TBU_STATUS_STATE.addr / 0x10000) :
    s.written base fs w = (s.storeReg fs s.tmc.locked w).tbuFollow := by
  have hpclose : base ≠ F.SLE_LAT_TIME_PCLOSE.addr := by
    rintro rfl
    exact absurd h (by decide)
  unfold State.written
  dsimp only
  rw [if_neg hpclose, if_pos (decide_eq_true h.symm)]

/-- Off the Timebase's page, with what was stored as `t`. -/
theorem written_else (htbu : base / 0x10000 ≠ F.TBU_STATUS_STATE.addr / 0x10000) {t : State}
    (ht : (if base = F.SLE_LAT_TIME_PCLOSE.addr then s.storeTimes fs w else s.storeReg fs s.tmc.locked w) = t) :
    s.written base fs w =
      if base = F.ICL_CTL_EN.addr && t.flag F.ICL_CTL_EN && !s.flag F.ICL_CTL_EN then t.waitFromNow
      else if base = F.SLE_CTL_EN.addr then t.sleSwitch (s.flag F.SLE_CTL_EN)
      else if base = F.DRE_CTL_EN.addr then t.dreSwitch (s.flag F.DRE_CTL_EN)
      else t := by
  unfold State.written
  dsimp only
  rw [ht, if_neg (by simpa using htbu.symm)]

theorem written_icl : s.written F.ICL_CTL_EN.addr fs w =
    if (s.storeReg fs s.tmc.locked w).flag F.ICL_CTL_EN && !s.flag F.ICL_CTL_EN then (s.storeReg fs s.tmc.locked w).waitFromNow
    else s.storeReg fs s.tmc.locked w := by
  rw [written_else (by decide) (if_neg (by decide)), decide_eq_true rfl, Bool.true_and, if_neg (c := _ = F.SLE_CTL_EN.addr) (by decide),
    if_neg (c := _ = F.DRE_CTL_EN.addr) (by decide)]

theorem written_sle : s.written F.SLE_CTL_EN.addr fs w = (s.storeReg fs s.tmc.locked w).sleSwitch (s.flag F.SLE_CTL_EN) := by
  rw [written_else (by decide) (if_neg (by decide)), decide_eq_false (by decide), Bool.false_and, Bool.false_and, if_neg (by decide),
    if_pos rfl]

theorem written_dre : s.written F.DRE_CTL_EN.addr fs w = (s.storeReg fs s.tmc.locked w).dreSwitch (s.flag F.DRE_CTL_EN) := by
  rw [written_else (by decide) (if_neg (by decide)), decide_eq_false (by decide), Bool.false_and, Bool.false_and, if_neg (by decide),
    if_neg (by decide), if_pos rfl]

theorem written_pclose : s.written F.SLE_LAT_TIME_PCLOSE.addr fs w = s.storeTimes fs w := by
  rw [written_else (by decide) (if_pos rfl), decide_eq_false (by decide), Bool.false_and, Bool.false_and, if_neg (by decide),
    if_neg (by decide), if_neg (by decide)]

theorem written_plain (htbu : base / 0x10000 ≠ F.TBU_STATUS_STATE.addr / 0x10000) (hicl : base ≠ F.ICL_CTL_EN.addr)
    (hsle : base ≠ F.SLE_CTL_EN.addr) (hdre : base ≠ F.DRE_CTL_EN.addr) (hpclose : base ≠ F.SLE_LAT_TIME_PCLOSE.addr) :
    s.written base fs w = s.storeReg fs s.tmc.locked w := by
  rw [written_else htbu (if_neg hpclose), decide_eq_false hicl, Bool.false_and, Bool.false_and, if_neg (by decide), if_neg hsle, if_neg hdre]

end written

/-! ### SLE.LAT_TIME (R198) -/

/-- The fields but PCLOSE, which are stored first. -/
def timesFirst (fs : List Field) : List Field := fs.filter (fun f => f.lo != F.SLE_LAT_TIME_PCLOSE.lo)

/-- Whether a written PCLOSE stays below the DEADLINE that stands then. -/
def belowDeadline (s : State) (fs : List Field) (v : Nat) (f : Field) : Prop :=
  ∀ d ∈ fs, d.lo = F.SLE_LAT_TIME_DEADLINE.lo → f.part v < s.get d

section times
variable {fs : List Field} {v : Nat} {f : Field}

theorem keys_filter_nodup (h : (fs.map Field.key).Nodup) (q : Field → Bool) : ((fs.filter q).map Field.key).Nodup :=
  h.sublist (List.filter_sublist.map _)

theorem timesFirst_nodup (h : (fs.map Field.key).Nodup) : ((timesFirst fs).map Field.key).Nodup := keys_filter_nodup h _

/-- PCLOSE, where its value stays below DEADLINE. -/
def timesSecond (s : State) (fs : List Field) (v : Nat) : List Field :=
  fs.filter (fun f => f.lo == F.SLE_LAT_TIME_PCLOSE.lo &&
    fs.all (fun d => d.lo != F.SLE_LAT_TIME_DEADLINE.lo ||
      decide (f.part v < (s.storeReg (timesFirst fs) s.tmc.locked v).get d)))

theorem timesSecond_nodup (h : (fs.map Field.key).Nodup) : ((timesSecond s fs v).map Field.key).Nodup := keys_filter_nodup h _

theorem storeTimes_eq (s : State) (fs : List Field) (v : Nat) :
    s.storeTimes fs v = (s.storeReg (timesFirst fs) s.tmc.locked v).storeReg (timesSecond s fs v) s.tmc.locked v := rfl

theorem mem_timesFirst : f ∈ timesFirst fs ↔ f ∈ fs ∧ f.lo ≠ F.SLE_LAT_TIME_PCLOSE.lo := by
  simp [timesFirst]

theorem get_timesFirst (hnd : (fs.map Field.key).Nodup) (hf : f ∈ fs) (h : f.lo ≠ F.SLE_LAT_TIME_PCLOSE.lo) (s : State) :
    (s.storeReg (timesFirst fs) s.tmc.locked v).get f = (s.storeReg fs s.tmc.locked v).get f := by
  rw [get_storeReg_mem (timesFirst_nodup hnd) (mem_timesFirst.mpr ⟨hf, h⟩), get_storeReg_mem hnd hf]

theorem mem_timesSecond (hnd : (fs.map Field.key).Nodup) :
    f ∈ timesSecond s fs v ↔
      f ∈ fs ∧ f.lo = F.SLE_LAT_TIME_PCLOSE.lo ∧ belowDeadline (s.storeReg fs s.tmc.locked v) fs v f := by
  have hget : ∀ d ∈ fs, d.lo = F.SLE_LAT_TIME_DEADLINE.lo →
      (s.storeReg (timesFirst fs) s.tmc.locked v).get d = (s.storeReg fs s.tmc.locked v).get d :=
    fun d hd hlo => get_timesFirst hnd hd (by rw [hlo]; decide) s
  simp only [timesSecond, List.mem_filter, Bool.and_eq_true, beq_iff_eq, List.all_eq_true, Bool.or_eq_true, bne_iff_ne,
    decide_eq_true_eq, belowDeadline]
  refine and_congr_right fun _ => and_congr_right fun _ => forall₂_congr fun d hd => ?_
  by_cases hlo : d.lo = F.SLE_LAT_TIME_DEADLINE.lo
  · simp [hlo, hget d hd hlo]
  · simp [hlo]

theorem sameFieldsBut_storeTimes : SameFieldsBut fs s (s.storeTimes fs v) := by
  rw [storeTimes_eq]
  exact ((sameFieldsBut_storeReg _ _ _).mono (List.filter_subset_self _)).trans ((sameFieldsBut_storeReg _ _ _).mono (List.filter_subset_self _))

theorem storeTimes_touches : Touches [.regs] s (s.storeTimes fs v) := by
  rw [storeTimes_eq]
  exact Touches.via (storeReg_touches _ _ _) (storeReg_touches _ _ _)

/-- A field that the second step does not store has what the first left. -/
theorem get_storeTimes_first (hnd : (fs.map Field.key).Nodup) (hf : f ∈ fs) (h : f ∉ timesSecond s fs v) :
    (s.storeTimes fs v).get f = (s.storeReg (timesFirst fs) s.tmc.locked v).get f := by
  rw [storeTimes_eq]
  refine get_storeReg_ne (fun g hg hkey => h ?_) _
  rwa [List.inj_on_of_nodup_map hnd hf (List.mem_of_mem_filter hg) hkey]

/-- A field that the first step does not store keeps its value there. -/
theorem get_timesFirst_ne (hnd : (fs.map Field.key).Nodup) (hf : f ∈ fs) (hlo : f.lo = F.SLE_LAT_TIME_PCLOSE.lo) (s : State) :
    (s.storeReg (timesFirst fs) s.tmc.locked v).get f = s.get f := by
  refine get_storeReg_ne (fun g hg hkey => ?_) s
  obtain ⟨hg, hne⟩ := mem_timesFirst.mp hg
  exact hne (List.inj_on_of_nodup_map hnd hf hg hkey ▸ hlo)

theorem get_storeTimes_refused (hnd : (fs.map Field.key).Nodup) (hf : f ∈ fs) (hlo : f.lo = F.SLE_LAT_TIME_PCLOSE.lo)
    (h : ¬belowDeadline (s.storeReg fs s.tmc.locked v) fs v f) : (s.storeTimes fs v).get f = s.get f := by
  rw [get_storeTimes_first hnd hf fun hm => h ((mem_timesSecond hnd).mp hm).2.2, get_timesFirst_ne hnd hf hlo]

theorem get_storeTimes_stored (hnd : (fs.map Field.key).Nodup) (hf : f ∈ fs)
    (h : f.lo ≠ F.SLE_LAT_TIME_PCLOSE.lo ∨ belowDeadline (s.storeReg fs s.tmc.locked v) fs v f) :
    (s.storeTimes fs v).get f = (s.storeReg fs s.tmc.locked v).get f := by
  by_cases hlo : f.lo = F.SLE_LAT_TIME_PCLOSE.lo
  · have hm : f ∈ timesSecond s fs v := (mem_timesSecond hnd).mpr ⟨hf, hlo, h.resolve_left fun hne => hne hlo⟩
    rw [storeTimes_eq, get_storeReg_mem (timesSecond_nodup hnd) hm, get_timesFirst_ne hnd hf hlo, get_storeReg_mem hnd hf]
  · rw [get_storeTimes_first hnd hf fun hm => hlo ((mem_timesSecond hnd).mp hm).2.1, get_timesFirst hnd hf hlo]

end times

/-! ### Accesses to the global pages -/

section access
variable {m : Master} {a v : Nat} {r : Register} {p k : Nat}

theorem regionAt_global (hlo : 0x5000000000 ≤ a) (hhi : a < 0x5001000000) : regionAt a = .register := by
  unfold regionAt dramEnd smemBase smemSize regBase
  rw [if_neg (by omega), if_neg (by omega), if_pos (by omega)]

theorem pageShut_global (hhi : a < 0x5001000000) (who : Actor) : s.pageShut who a = false := by
  cases who
  case tenant n =>
    have hbelow : ¬sliceBase ≤ a := by unfold sliceBase; omega
    simp [State.pageShut, hbelow]
  all_goals rfl

theorem exec_registerWrite_global (hup : s.masterUp m = true) (hlo : 0x5000000000 ≤ a) (hhi : a < 0x5001000000)
    (hat : regAt a = some (r, p, k)) (hgrant : regGrant (s.actor m) a true = true) :
    exec (.registerWrite m a r.bytes v) s = .next (s.globalWrite m r.addr k (r.inst p k) v) := by
  have hbelow : ¬sliceBase ≤ a := by unfold sliceBase; omega
  rw [exec_registerWrite, execRegisterWrite, if_pos hup, State.fabricWrite, regionAt_global hlo hhi]
  dsimp only
  rw [State.regWrite, hgrant, pageShut_global hhi, if_neg (by decide), hat]
  dsimp only
  rw [if_neg (not_not.mpr rfl), if_neg hbelow]

theorem exec_clearingRead_global (hup : s.masterUp m = true) (hlo : 0x5000000000 ≤ a) (hhi : a < 0x5001000000)
    (hat : regAt a = some (r, p, k)) (hgrant : regGrant (s.actor m) a false = true) :
    exec (.clearingRead m a r.bytes) s =
      .next { s.clearRead (r.inst p k) with bus := .data (s.readWord r.addr p k (r.inst p k)) } := by
  have hflags : ¬(r.addr = F.SLT_SP_F_FLAGS.addr ∧ slFWords (s.sltEnt 0 p) ≤ k) := by
    rintro ⟨haddr, -⟩
    have hle := (regAt_mem hat).2
    rw [haddr] at hle
    exact absurd (hle.trans_lt hhi) (by decide)
  rw [exec_clearingRead, execClearingRead, if_pos hup, State.fabricRead, regionAt_global hlo hhi]
  dsimp only
  rw [State.regRead, hgrant, pageShut_global hhi, if_neg (by decide), hat]
  dsimp only
  rw [if_neg (not_not.mpr rfl), if_neg hflags]

theorem clearingRead_leaves (hup : s.masterUp m = true) (hlo : 0x5000000000 ≤ a) (hhi : a < 0x5001000000)
    (hat : regAt a = some (r, p, k)) (hgrant : regGrant (s.actor m) a false = true) :
    ∃ t, exec (.clearingRead m a r.bytes) s = .next t ∧ t.bus = .data (s.readWord r.addr p k (r.inst p k)) ∧ t.mem = s.mem ∧
      SameFieldsBut (r.inst p k) s t ∧ ∀ f ∈ r.inst p k, t.get f = if f.acc = .rc then 0 else s.get f := by
  have hexec := exec_clearingRead_global hup hlo hhi hat hgrant
  have hmem := clearRead_mem (s := s) (r.inst p k)
  have hbut := sameFieldsBut_clearRead (s := s) (r.inst p k)
  have hget := fun f hf => get_clearRead_mem (f := f) (inst_keys_nodup (regAt_mem hat).1 p k) hf s
  generalize s.clearRead (r.inst p k) = t at hexec hmem hbut hget
  exact ⟨_, hexec, rfl, hmem, hbut, hget⟩

/-- A write that stores fields ends with the state that `written` leaves. -/
theorem exec_registerWrite_plain (hexec : exec (.registerWrite m a r.bytes v) s = .next (s.globalWrite m r.addr k (r.inst p k) v))
    (hact : r.addr ∉ actingAddrs) (hbusy : ∀ b : CmdBlock, (blkData b).addr = r.addr → s.flag (blkBusy b) = false)
    (h : islandPage r.addr = false) {t : State} (ht : s.written r.addr (r.inst p k) (regWord r.addr k v) = t) :
    exec (.registerWrite m a r.bytes v) s = .next { t with bus := .done } := by
  rw [hexec, globalWrite_plain hact hbusy h, ht]

end access

theorem islandPage_tbu {base : Nat} (h : base / 0x10000 = F.TBU_STATUS_STATE.addr / 0x10000) : islandPage base = false := by
  have hpsc : F.PSC_CTL_EN.addr = 0x5000100000 := rfl
  have htbu : F.TBU_STATUS_STATE.addr / 0x10000 = 0x500002 := rfl
  rw [islandPage, hpsc, decide_eq_false (by omega), Bool.false_and]

/-- Settles O56: the fields of a register stand at distinct bits, so that each holds what its own access code made of it, and each
register whose write goes on to the machine does so with the fields stored. -/
theorem registerFieldsFollowTheirAccessCodes : Obligations.RegisterFieldsFollowTheirAccessCodes := by
  intro s m a v r p k hup hlo hhi hat
  have hnd : ((r.inst p k).map Field.key).Nodup := inst_keys_nodup (regAt_mem hat).1 p k
  refine ⟨?_, clearingRead_leaves hup hlo hhi hat⟩
  intro w t
  have htouch : Touches [.regs] s t := storeReg_touches _ _ _
  refine ⟨sameFieldsBut_storeReg _ _ _, htouch.mem_eq, htouch.slp_eq, htouch.ing_eq, fun f hf => get_storeReg_mem hnd hf s, ?_⟩
  intro hgrant hact hbusy ends
  have hexec := exec_registerWrite_global (v := v) hup hlo hhi hat hgrant
  have hplain {u : State} (hisl : islandPage r.addr = false) (hu : s.written r.addr (r.inst p k) w = u) : ends u :=
    exec_registerWrite_plain hexec hact hbusy hisl hu
  refine ⟨fun hisl => hexec.trans (congrArg _ (globalWrite_island hact hbusy hisl)), fun htbu => ?_, fun hicl => ?_, fun hsle => ?_,
    fun hdre => ?_, fun hpclose => ?_, fun hisl htbu hicl hsle hdre hpclose => ?_⟩
  · exact hplain (islandPage_tbu htbu) (written_tbu htbu)
  · exact hplain (by rw [hicl]; decide) (by rw [hicl]; exact written_icl)
  · exact hplain (by rw [hsle]; decide) (by rw [hsle]; exact written_sle)
  · exact hplain (by rw [hdre]; decide) (by rw [hdre]; exact written_dre)
  · have hw : w = v := by
      change regWord r.addr k v = v
      rw [hpclose]
      rfl
    refine ⟨s.storeTimes (r.inst p k) v, hplain (by rw [hpclose]; decide) (by rw [hpclose, hw]; exact written_pclose),
      sameFieldsBut_storeTimes, storeTimes_touches.mem_eq, fun f hf => ?_⟩
    intro below
    have ht : t = s.storeReg (r.inst p k) s.tmc.locked v := by
      change s.storeReg (r.inst p k) s.tmc.locked w = _
      rw [hw]
    have hbelow : below ↔ belowDeadline (s.storeReg (r.inst p k) s.tmc.locked v) (r.inst p k) v f := by
      rw [← ht]
      rfl
    rw [hbelow, ht]
    exact ⟨get_storeTimes_stored hnd hf, get_storeTimes_refused hnd hf⟩
  · exact hplain hisl (written_plain htbu hicl hsle hdre hpclose)

end Sys2Proof.Machine
end

section
/-! O57: loads, stores and atomic operations of an application core. -/
namespace Sys2Proof.Machine

-- one proof after the other: started together they wait on each other's results, each in a thread of its own
set_option Elab.async false

variable {s : State} {core a size v : Nat} {hyp : Bool} {f : AtomicOp} {who : Actor} {r : Region}

/-! ### Regions (R27) -/

theorem regionAt_dram (h : a < 0x1000000000) : regionAt a = .dram := if_pos h

theorem regionAt_sample (hlo : smemBase ≤ a) (hhi : a < smemBase + smemSize) : regionAt a = .sample := by
  have hdram : ¬a < dramEnd := by unfold dramEnd; unfold smemBase at hlo; omega
  rw [regionAt, if_neg hdram, if_pos ⟨hlo, hhi⟩]

theorem regionAt_mram (hlo : mramBase ≤ a) (hhi : a < mramBase + mramSize) : regionAt a = .mram := by
  unfold regionAt
  unfold mramBase mramSize at *
  unfold dramEnd smemBase smemSize regBase sliceBase
  rw [if_neg (by omega), if_neg (by omega), if_neg (by omega), if_neg (by omega), if_pos (by omega)]

theorem regionAt_dome (hlo : 0x7000000000 ≤ a) (hhi : a < 0x7000010000) : regionAt a = .dome := by
  unfold regionAt dramEnd smemBase smemSize regBase sliceBase mramBase mramSize domeBase
  rw [if_neg (by omega), if_neg (by omega), if_neg (by omega), if_neg (by omega), if_neg (by omega), if_pos (by omega)]

theorem inHeader_dram (h : a < 0x1000000000) : inHeader a = false := by
  have hblf : blfBase = 0x603FE00000 := rfl
  rw [inHeader, hblf, decide_eq_false (by omega), Bool.false_and]

/-! ### Loads and stores by region -/

/-- A store that R29 grants, done. -/
def State.stored (s : State) (a size v : Nat) : State :=
  { s.wr a size v with
    bus := .done
    hlt := { s.hlt with poisoned := s.hlt.poisoned.filter (fun p => !(decide (a ≤ p) && decide (p + 8 ≤ a + size))) } }

theorem memWrite_granted (hg : s.memGrant who r a size true = true) (hf : memForm r a size = true) :
    s.memWrite who r a size v = s.stored a size v := by
  rw [State.memWrite, hg, if_neg (by decide), hf, if_neg (by decide)]
  rfl

theorem memWrite_refused (hg : s.memGrant who r a size true = false) : s.memWrite who r a size v = (s.refused who a).busError :=
  if_pos (by rw [hg]; rfl)

theorem memRead_refused (hg : s.memGrant who r a size false = false) : s.memRead who r a size = (s.refused who a).busError :=
  if_pos (by rw [hg]; rfl)

theorem memRead_granted (hg : s.memGrant who r a size false = true) (hf : memForm r a size = true) (hbad : s.dramBad a size = false)
    (hh : inHeader a = false) : s.memRead who r a size = { s with bus := .data (s.rd a size) } := by
  rw [State.memRead, hg, if_neg (by decide), hf, hbad, if_neg (by decide), hh, if_neg (by decide)]

theorem memRead_form (hg : s.memGrant who r a size false = true) (hf : memForm r a size = false) :
    s.memRead who r a size = s.busError := by
  rw [State.memRead, hg, if_neg (by decide), hf, Bool.not_false, Bool.true_or, if_pos rfl]

theorem le_getD {i : Nat} (hi : i < size) : (le size v).getD i 0 = BitVec.ofNat 8 (v / 256 ^ i) := by
  induction size generalizing v i with
  | zero => exact absurd hi (Nat.not_lt_zero i)
  | succ n ih =>
    cases i with
    | zero => rw [Nat.pow_zero, Nat.div_one]; rfl
    | succ i => rw [le, List.getD_cons_succ, ih (by omega), Nat.div_div_eq_div_mul, Nat.pow_succ']

theorem stored_octets {i : Nat} (hi : i < size) : memGet (a + i) (s.stored a size v).mem = BitVec.ofNat 8 (v / 256 ^ i) := by
  change memGet (a + i) (memPut a (le size v) s.mem) = _
  rw [memGet_memPut, le_length, if_pos (by omega), Nat.add_sub_cancel_left, le_getD hi]

theorem stored_sameMemory : SameMemoryBut a size s (s.stored a size v) := fun b hb => by
  change memGet b (memPut a (le size v) s.mem) = _
  rw [memGet_memPut, le_length, if_neg (by omega)]

theorem rd_stored : (s.stored a size v).rd a size = v % 256 ^ size := rd_wr_same s a size v

theorem dramBad_stored (h : s.dramBad a size = false) : (s.stored a size v).dramBad a size = false :=
  List.any_eq_false.mpr fun p hp => List.any_eq_false.mp h p (List.mem_of_mem_filter hp)

theorem memGrant_stored (w : Bool) : (s.stored a size v).memGrant who r a size w = s.memGrant who r a size w := by
  cases r <;> rfl

/-! ### Requests of a core (R501) -/

theorem exec_store (hup : s.sup.coresUp = true) : exec (.coreRequest ⟨core, hyp, a, size, .store v⟩) s =
    .next (s.fabricWrite (.core core hyp) a size v) := by
  rw [exec_coreRequest, execCoreRequest, State.masterUp, hup]
  rfl

theorem exec_load (hup : s.sup.coresUp = true) : exec (.coreRequest ⟨core, hyp, a, size, .load⟩) s =
    .next (s.fabricRead (.core core hyp) a size) := by
  rw [exec_coreRequest, execCoreRequest, State.masterUp, hup]
  rfl

theorem exec_atomic (hup : s.sup.coresUp = true) : exec (.coreRequest ⟨core, hyp, a, size, .atomic f v⟩) s =
    .next (s.fabricAtomic (.core core hyp) a size f v) := by
  rw [exec_coreRequest, execCoreRequest, State.masterUp, hup]
  rfl

theorem exec_coreRequest_down (hup : s.sup.coresUp = false) (op : CoreOp) : exec (.coreRequest ⟨core, hyp, a, size, op⟩) s = .next s := by
  rw [exec_coreRequest, execCoreRequest, State.masterUp, hup]
  rfl

section region
variable {m : Master} (h : regionAt a = r)
include h

theorem fabricRead_memory (hr : r ≠ .register ∧ r ≠ .none_) : s.fabricRead m a size = s.memRead (s.actor m) r a size := by
  rw [State.fabricRead, h]
  cases r
  case register => exact absurd rfl hr.1
  case none_ => exact absurd rfl hr.2
  all_goals rfl

theorem fabricWrite_memory (hr : r ≠ .register ∧ r ≠ .none_) : s.fabricWrite m a size v = s.memWrite (s.actor m) r a size v := by
  rw [State.fabricWrite, h]
  cases r
  case register => exact absurd rfl hr.1
  case none_ => exact absurd rfl hr.2
  all_goals rfl

theorem storeGrant_memory (hr : r ≠ .register ∧ r ≠ .none_) : s.storeGrant who a size = s.memGrant who r a size true := by
  rw [State.storeGrant, h]
  cases r
  case register => exact absurd rfl hr.1
  case none_ => exact absurd rfl hr.2
  all_goals rfl

theorem fabricAtomic_refused (hr : r ≠ .register ∧ r ≠ .none_) (hg : s.memGrant (s.actor m) r a size true = false) :
    s.fabricAtomic m a size f v = (s.refused (s.actor m) a).busError := by
  rw [State.fabricAtomic, storeGrant_memory h hr, hg]
  rfl

theorem fabricAtomic_elsewhere (hr : r ≠ .register ∧ r ≠ .none_) (hd : r ≠ .dram) (hg : s.memGrant (s.actor m) r a size true = true) :
    s.fabricAtomic m a size f v = s.busError := by
  rw [State.fabricAtomic, storeGrant_memory h hr, hg, if_neg (by decide), h, if_pos (.inl hd)]

end region

/-! ### DRAM (R29, R330) -/

/-- Whom R29 grants DRAM: the hypervisor, and a tenant in its own windows. -/
def dramGranted (s : State) (who : Actor) (a size : Nat) : Prop :=
  who = .sys ∨ ∃ n, who = .tenant n ∧ s.sliceState n ≠ 0 ∧ s.dramOwned n a size = true

theorem memGrant_dram (h : dramGranted s who a size) (w : Bool) : s.memGrant who .dram a size w = true := by
  rcases h with rfl | ⟨n, rfl, hst, hown⟩
  · rfl
  · simp [State.memGrant, hst, hown]

theorem memGrant_dram_tenant {n : Nat} (h : s.sliceState n = 0 ∨ s.dramOwned n a size = false) (w : Bool) :
    s.memGrant (.tenant n) .dram a size w = false := by
  rcases h with h | h <;> simp [State.memGrant, h]

theorem fabricAtomic_dram {m : Master} (h : a + size ≤ 0x1000000000) (hsize : 0 < size) (hg : dramGranted s (s.actor m) a size)
    (hbad : s.dramBad a size = false) :
    s.fabricAtomic m a size f v =
      { s.stored a size (atomicVal f size (s.rd a size) v) with bus := .data (s.rd a size) } := by
  have hreg : regionAt a = .dram := regionAt_dram (by omega)
  have hform : memForm .dram a size = true := decide_eq_true h
  have hgrant := memGrant_dram hg true
  have hstore : s.storeGrant (s.actor m) a size = true := (storeGrant_memory hreg (by decide)).trans hgrant
  rw [State.fabricAtomic, hstore, if_neg (by decide), hreg, hform, hbad, if_neg (by simp), memWrite_granted hgrant hform]

/-- What a store leaves. -/
theorem stored_leaves {cmd : Instr} {b : BusResp} (hexec : exec cmd s = .next { s.stored a size v with bus := b }) :
    ∃ t, exec cmd s = .next t ∧ t.bus = b ∧ (∀ i < size, memGet (a + i) t.mem = BitVec.ofNat 8 (v / 256 ^ i)) ∧
      SameMemoryBut a size s t ∧ t.regs = s.regs ∧ t.slt = s.slt ∧ t.slp = s.slp :=
  ⟨_, hexec, rfl, fun _ hi => stored_octets hi, stored_sameMemory, rfl, rfl, rfl⟩

theorem dram_store (hup : s.sup.coresUp = true) (h : a + size ≤ 0x1000000000) (hsize : 0 < size)
    (hg : dramGranted s (s.actor (.core core hyp)) a size) :
    exec (.coreRequest ⟨core, hyp, a, size, .store v⟩) s = .next (s.stored a size v) := by
  have hreg : regionAt a = .dram := regionAt_dram (by omega)
  rw [exec_store hup, fabricWrite_memory hreg (by decide), memWrite_granted (memGrant_dram hg true) (decide_eq_true h)]

theorem dram_load_stored (hup : s.sup.coresUp = true) (h : a + size ≤ 0x1000000000) (hsize : 0 < size)
    (hg : dramGranted s (s.actor (.core core hyp)) a size) (hbad : s.dramBad a size = false) :
    exec (.coreRequest ⟨core, hyp, a, size, .load⟩) (s.stored a size v) =
      .next { s.stored a size v with bus := .data (v % 256 ^ size) } := by
  have hreg : regionAt a = .dram := regionAt_dram (by omega)
  have hactor : (s.stored a size v).actor (.core core hyp) = s.actor (.core core hyp) := rfl
  have hgrant : (s.stored a size v).memGrant (s.actor (.core core hyp)) .dram a size false = true :=
    (memGrant_stored false).trans (memGrant_dram hg false)
  rw [exec_load (s := s.stored a size v) hup, fabricRead_memory hreg (by decide), hactor,
    memRead_granted hgrant (decide_eq_true h) (dramBad_stored hbad) (inHeader_dram (by omega)), rd_stored]

/-! ### Sample Memory, the MRAM window and the Dome mailbox -/

theorem readOnly_region (h : smemBase ≤ a ∧ a < smemBase + smemSize ∨ mramBase ≤ a ∧ a < mramBase + mramSize) :
    (regionAt a = .sample ∧ a < mramBase) ∨ regionAt a = .mram := by
  rcases h with ⟨hlo, hhi⟩ | ⟨hlo, hhi⟩
  · exact .inl ⟨regionAt_sample hlo hhi, hhi.trans (by decide)⟩
  · exact .inr (regionAt_mram hlo hhi)

theorem memGrant_readOnly (hr : r = .sample ∨ r = .mram) : s.memGrant who r a size true = false := by
  rcases hr with rfl | rfl <;> rfl

theorem memGrant_dome_tenant (n : Nat) (w : Bool) : s.memGrant (.tenant n) .dome a size w = false := rfl

theorem natural_form (hr : r ≠ .dram) : memForm r a size = natural a size := by
  cases r
  case dram => exact absurd rfl hr
  all_goals rfl

/-- A memory region where R29 grants no load, store or atomic operation. -/
theorem refused_everywhere (hup : s.sup.coresUp = true) (hreg : regionAt a = r) (hr : r ≠ .register ∧ r ≠ .none_)
    (hg : ∀ w, s.memGrant (s.actor (.core core hyp)) r a size w = false) (op : CoreOp) :
    exec (.coreRequest ⟨core, hyp, a, size, op⟩) s = .next (s.refused (s.actor (.core core hyp)) a).busError := by
  cases op with
  | load => rw [exec_load hup, fabricRead_memory hreg hr, memRead_refused (hg false)]
  | store v => rw [exec_store hup, fabricWrite_memory hreg hr, memWrite_refused (hg true)]
  | atomic f v => rw [exec_atomic hup, fabricAtomic_refused hreg hr (hg true)]

theorem readOnly_store (hup : s.sup.coresUp = true) (hreg : regionAt a = r) (hr : r = .sample ∨ r = .mram) :
    exec (.coreRequest ⟨core, hyp, a, size, .store v⟩) s = .next (s.refused (s.actor (.core core hyp)) a).busError := by
  have hmem : r ≠ .register ∧ r ≠ .none_ := by rcases hr with rfl | rfl <;> decide
  rw [exec_store hup, fabricWrite_memory hreg hmem, memWrite_refused (memGrant_readOnly hr)]

theorem readOnly_atomic (hup : s.sup.coresUp = true) (hreg : regionAt a = r) (hr : r = .sample ∨ r = .mram) :
    exec (.coreRequest ⟨core, hyp, a, size, .atomic f v⟩) s = .next (s.refused (s.actor (.core core hyp)) a).busError := by
  have hmem : r ≠ .register ∧ r ≠ .none_ := by rcases hr with rfl | rfl <;> decide
  rw [exec_atomic hup, fabricAtomic_refused hreg hmem (memGrant_readOnly hr)]

/-- A load of the hypervisor from Sample Memory or the MRAM window. -/
theorem readOnly_load (hup : s.sup.coresUp = true) (hreg : regionAt a = r) (hr : r = .sample ∨ r = .mram)
    (hg : s.memGrant (s.actor (.core core hyp)) r a size false = true) (hh : inHeader a = false) :
    (natural a size = true → s.dramBad a size = false →
      exec (.coreRequest ⟨core, hyp, a, size, .load⟩) s = .next { s with bus := .data (s.rd a size) }) ∧
    (natural a size = false → exec (.coreRequest ⟨core, hyp, a, size, .load⟩) s = .next s.busError) := by
  have hmem : r ≠ .register ∧ r ≠ .none_ := by rcases hr with rfl | rfl <;> decide
  have hform : memForm r a size = natural a size := natural_form (by rcases hr with rfl | rfl <;> decide)
  rw [exec_load hup, fabricRead_memory hreg hmem]
  exact ⟨fun hn hbad => congrArg _ (memRead_granted hg (hform.trans hn) hbad hh), fun hn => congrArg _ (memRead_form hg (hform.trans hn))⟩

theorem memGrant_sample_sys (h : s.lineProv ((a - smemBase) / 64) = false) : s.memGrant .sys .sample a size false = true := by
  change (!false && (true && !s.lineProv ((a - smemBase) / 64))) = true
  rw [h]
  rfl

/-- Settles O57, region by region: each kind of access by whether R29 grants it and by its form. -/
theorem coreRequestsReachTheMemoryTheirSliceOwns : Obligations.CoreRequestsReachTheMemoryTheirSliceOwns := by
  intro s core hyp a size v f
  intro who store load atomic
  refine ⟨fun hdown => ⟨exec_coreRequest_down hdown _, exec_coreRequest_down hdown _, exec_coreRequest_down hdown _⟩, fun hup => ?_⟩
  refine ⟨fun hend hsize hg hbad => ⟨?_, ?_⟩, fun n hend hwho hno => ?_, fun hro => ?_, fun hlo hhi => ?_⟩
  · have hload := dram_load_stored (v := v) hup hend hsize hg hbad
    exact ⟨_, dram_store hup hend hsize hg, rfl, fun _ hi => stored_octets hi, stored_sameMemory, rfl, rfl, rfl, hload⟩
  · intro w
    exact stored_leaves ((exec_atomic hup).trans (congrArg _ (fabricAtomic_dram hend hsize hg hbad)))
  · have hreg : regionAt a = .dram := regionAt_dram hend
    have hrefused := refused_everywhere (s := s) (size := size) hup hreg (by decide)
      (fun w => (congrArg (s.memGrant · .dram a size w) hwho).trans (memGrant_dram_tenant hno w))
    rw [show s.actor (.core core hyp) = .tenant n from hwho] at hrefused
    exact ⟨hrefused _, hrefused _, hrefused _⟩
  · have hregion := readOnly_region hro
    obtain ⟨r, hreg, hr⟩ : ∃ r, regionAt a = r ∧ (r = .sample ∨ r = .mram) :=
      ⟨_, rfl, hregion.imp (fun h => h.1) id⟩
    refine ⟨readOnly_store hup hreg hr, readOnly_atomic hup hreg hr, fun hwho hprov hh => readOnly_load hup hreg hr ?_ hh⟩
    rw [show s.actor (.core core hyp) = .sys from hwho]
    rcases hregion with ⟨hsample, hbelow⟩ | hmram
    · rw [← hreg, hsample]
      exact memGrant_sample_sys (hprov hbelow)
    · rw [← hreg, hmram]
      rfl
  · have hreg : regionAt a = .dome := regionAt_dome hlo hhi
    refine ⟨fun hwho hn => ?_, fun hwho => ?_, fun n hwho => ?_⟩
    · have hg : s.memGrant (s.actor (.core core hyp)) .dome a size true = true := by
        rw [show s.actor (.core core hyp) = .sys from hwho]
        rfl
      have hexec : exec store s = .next (s.stored a size v) := by
        rw [exec_store hup, fabricWrite_memory hreg (by decide), memWrite_granted hg ((natural_form (by decide)).trans hn)]
      exact ⟨_, hexec, rfl, fun _ hi => stored_octets hi, stored_sameMemory, rfl⟩
    · have hg : s.memGrant (s.actor (.core core hyp)) .dome a size true = true := by
        rw [show s.actor (.core core hyp) = .sys from hwho]
        rfl
      exact (exec_atomic hup).trans (congrArg _ (fabricAtomic_elsewhere hreg (by decide) (by decide) hg))
    · have hrefused := refused_everywhere (s := s) (size := size) hup hreg (by decide)
        (fun w => (congrArg (s.memGrant · .dome a size w) hwho).trans (memGrant_dome_tenant n w))
      rw [show s.actor (.core core hyp) = .tenant n from hwho] at hrefused
      exact ⟨hrefused _, hrefused _⟩

end Sys2Proof.Machine
end

section
/-! O59, background work on the memories: scrubbing, and the refresh of the archive flash. -/
namespace Sys2Proof.Machine

-- one proof after the other: started together they wait on each other's results, each in a thread of its own
set_option Elab.async false

variable {s : State}

/-! ### A Belfry entry and the health record -/

theorem belfry_hlt (s : State) (kind code source : Nat) (payload : List Nat) :
    ∃ n, (s.belfry kind code source payload).hlt = { s.hlt with hdrNext := n } := by
  unfold State.belfry
  dsimp only
  split
  · exact ⟨s.hlt.hdrNext, stageEntry_touches.hlt_eq⟩
  · unfold State.writeEntry
    split
    · exact ⟨s.hlt.hdrNext, mergeInto_touches.hlt_eq⟩
    · refine ⟨s.hlt.hdrNext + 1, ?_⟩
      unfold State.newRecord
      dsimp only
      split
      · exact congrArg (fun h : Health => { h with hdrNext := s.hlt.hdrNext + 1 })
          ((((Touches.refl [.mem] s).wrWords _ _).wrWords _ _).hlt_eq)
      · exact congrArg (fun h : Health => { h with hdrNext := s.hlt.hdrNext + 1 }) (((Touches.refl [.mem] s).wrWords _ _).hlt_eq)

/-- A Belfry entry changes nothing of the health record but the number of the next record. -/
theorem belfry_health {α : Type} (proj : Health → α) (h : ∀ x n, proj { x with hdrNext := n } = proj x) (s : State)
    (kind code source : Nat) (payload : List Nat) : proj (s.belfry kind code source payload).hlt = proj s.hlt := by
  obtain ⟨n, hn⟩ := belfry_hlt s kind code source payload
  rw [hn, h]

/-! ### Scrubbing (R461, R462) -/

section scrub
variable {mem : ScrubMem} {a : Nat} {find : ScrubFind}

theorem scrubPass_word (hb : s.background = true) (ha : scrubIn mem a = true) :
    exec (.scrubPass mem a find false) s = .next (s.scrubWord mem a find) := by
  rw [exec_scrubPass, execScrubPass, scrubPass, hb, ha]
  rfl

theorem scrubPass_clean_end (hb : s.background = true) (ha : scrubIn mem a = true) :
    exec (.scrubPass mem a .clean true) s = .next (s.phmBump (passCnt mem)) := by
  rw [exec_scrubPass, execScrubPass, scrubPass, hb, ha]
  rfl

/-- A word poisoned, and what follows without a change of the poisoned words or of the Scarab. -/
theorem poisoned_leaves {t : State} (hp : t.hlt.poisoned = (s.poison a).hlt.poisoned) (hslp : t.slp = s.slp) :
    a ∈ t.hlt.poisoned ∧ (∀ p ∈ s.hlt.poisoned, p ∈ t.hlt.poisoned) ∧ t.slp = s.slp := by
  have hpoison : t.hlt.poisoned = a :: s.hlt.poisoned.filter (fun p => p != a) := hp
  refine ⟨hpoison ▸ List.mem_cons_self, fun p hps => ?_, hslp⟩
  rw [hpoison]
  by_cases h : p = a
  · exact h ▸ List.mem_cons_self
  · exact List.mem_cons_of_mem a (List.mem_filter.mpr ⟨hps, bne_iff_ne.mpr h⟩)

theorem belfry_poisoned (s : State) (kind code source : Nat) (payload : List Nat) :
    (s.belfry kind code source payload).hlt.poisoned = s.hlt.poisoned := belfry_health (·.poisoned) (fun _ _ => rfl) s _ _ _ _

theorem scrubWord_smem (s : State) (a : Nat) : s.scrubWord .smem a .uncorrectable =
    ((((s.poison (a / 8 * 8)).bump (F.SMEM_CNT_COUNT.nth 1)).setF F.SMEM_ERR_ADDR_LINE ((a / 8 * 8 - smemBase) / 8 / 8)).setF
      F.SMEM_ERR_ADDR_WORD ((a / 8 * 8 - smemBase) / 8 % 8)) := rfl

theorem scrubWord_dram (s : State) (a : Nat) : s.scrubWord .dram a .uncorrectable =
    ((s.poison (a / 8 * 8)).phmBump 5).belfry 1 0x000E 0 [1, a / 8 * 8] := rfl

theorem scrubWord_mram (s : State) (a : Nat) : s.scrubWord .mram a .uncorrectable =
    ((s.poison (a / 8 * 8)).bump (F.DRE_CNT_COUNT.nth 9)).belfry 1 0x000E 0 [3, a / 8 * 8] := rfl

/-- A word poisoned, counted and reported to the Belfry. -/
theorem bumped_belfry_leaves (a : Nat) (f : Field) (kind code source : Nat) (payload : List Nat) :
    let t := ((s.poison a).bump f).belfry kind code source payload
    a ∈ t.hlt.poisoned ∧ (∀ p ∈ s.hlt.poisoned, p ∈ t.hlt.poisoned) ∧ t.slp = s.slp := by
  have hbump : Touches [.regs] (s.poison a) ((s.poison a).bump f) := (Touches.refl _ _).bump f
  exact poisoned_leaves ((belfry_poisoned _ _ _ _ _).trans (congrArg Health.poisoned hbump.hlt_eq))
    (belfry_touches.slp_eq.trans hbump.slp_eq)

theorem scrubWord_poisons (hm : mem ≠ .prog) :
    a / 8 * 8 ∈ (s.scrubWord mem a .uncorrectable).hlt.poisoned ∧
      (∀ p ∈ s.hlt.poisoned, p ∈ (s.scrubWord mem a .uncorrectable).hlt.poisoned) ∧
      (s.scrubWord mem a .uncorrectable).slp = s.slp := by
  cases mem with
  | smem =>
    have htouch (u : State) (l w : Nat) : Touches [.regs] u (((u.bump (F.SMEM_CNT_COUNT.nth 1)).setF F.SMEM_ERR_ADDR_LINE l).setF
      F.SMEM_ERR_ADDR_WORD w) := (((Touches.refl _ u).bump _).setF _ _).setF _ _
    rw [scrubWord_smem]
    exact poisoned_leaves (congrArg Health.poisoned (htouch _ _ _).hlt_eq) (htouch _ _ _).slp_eq
  | dram =>
    rw [scrubWord_dram]
    exact bumped_belfry_leaves _ _ _ _ _ _
  | prog => exact absurd rfl hm
  | mram =>
    rw [scrubWord_mram]
    exact bumped_belfry_leaves _ _ _ _ _ _

theorem scrubWord_prog (s : State) (a : Nat) : let t := s.scrubWord .prog a .uncorrectable
    a ∈ t.slp.badWords ∧ (∀ b, b ≠ a → (b ∈ t.slp.badWords ↔ b ∈ s.slp.badWords)) ∧ t.regs = s.regs ∧ t.mem = s.mem := by
  have hbad : (s.scrubWord .prog a .uncorrectable).slp.badWords = a :: s.slp.badWords.filter (fun p => p != a) := rfl
  refine ⟨hbad ▸ List.mem_cons_self, fun b hb => ?_, rfl, rfl⟩
  rw [hbad, List.mem_cons, List.mem_filter, bne_iff_ne]
  exact ⟨fun h => (h.resolve_left hb).1, fun h => .inr ⟨h, hb⟩⟩

theorem scrubWord_corrected {f : Field}
    (hf : (mem, f) ∈ ([(.smem, F.SMEM_CNT_COUNT), (.dram, F.PHM_CNT_COUNT.nth 4), (.prog, F.SLP_CNT_COUNT.nth 6),
      (.mram, F.DRE_CNT_COUNT.nth 8)] : List (ScrubMem × Field))) :
    s.scrubWord mem a .corrected = ({ s with hlt := { s.hlt with eccSec := s.hlt.eccSec + 1 } }.bump f) := by
  simp only [List.mem_cons, List.not_mem_nil, or_false, Prod.mk.injEq] at hf
  rcases hf with ⟨rfl, rfl⟩ | ⟨rfl, rfl⟩ | ⟨rfl, rfl⟩ | ⟨rfl, rfl⟩ <;> rfl

end scrub

/-! ### The archive flash (R463, R464) -/

section flash
variable {b c : Nat} {failed : Bool}

/-- Where a refresh acts at all. -/
theorem flashRefresh_taken (hb : s.background = true) (hin : b < 61035) (hret : b ∉ s.hlt.retired) (hok : s.hlt.retired.length < 1536) :
    exec (.flashRefresh b c failed) s = .next
      (if failed || decide (40 < c) then
        ((s.modHlt (fun h => { h with retired := b :: h.retired })).belfry 1 0x000D 0 [b]).showFlash
      else if 24 < c then (s.eraseBlock (s.freshBlock b)).drawn.showFlash
      else s) := by
  have hflash : s.flashOk = true := decide_eq_true hok
  have hguard : ¬(!s.background || decide (61035 ≤ b) || s.hlt.retired.contains b || !s.flashOk) = true := by
    simp [hb, hret, hflash, hin]
  rw [exec_flashRefresh, execFlashRefresh, flashRefresh, if_neg hguard]

theorem showFlash_fields (s : State) (h : s.hlt.retired.length ≤ 1536) :
    s.showFlash.get F.PHM_FLASH_STAT_SPARE_FREE = 1536 - s.hlt.retired.length ∧
      s.showFlash.get F.PHM_FLASH_STAT_RETIRED = s.hlt.retired.length ∧
      s.showFlash.flag F.PHM_BG_STATUS_FLASH_RO = decide (1536 ≤ s.hlt.retired.length) := by
  unfold State.showFlash
  dsimp only
  refine ⟨?_, ?_, State.flag_setB_same _ _ (by decide)⟩
  · rw [State.get_setB_ne _ _ (by decide), State.get_setF_ne _ _ (by decide), State.get_setF_ne _ _ (by decide),
      State.get_setF_ne _ _ (by decide), State.get_setF_same]
    exact Nat.mod_eq_of_lt (show _ < 2 ^ 16 by omega)
  · rw [State.get_setB_ne _ _ (by decide), State.get_setF_ne _ _ (by decide), State.get_setF_ne _ _ (by decide), State.get_setF_same]
    exact Nat.mod_eq_of_lt (show _ < 2 ^ 16 by omega)

theorem flashRefresh_retires (hb : s.background = true) (hin : b < 61035) (hret : b ∉ s.hlt.retired)
    (hok : s.hlt.retired.length < 1536) (hbad : failed = true ∨ 40 < c) :
    ∃ t, exec (.flashRefresh b c failed) s = .next t ∧ t.hlt.retired = b :: s.hlt.retired ∧
      t.get F.PHM_FLASH_STAT_SPARE_FREE = 1536 - (s.hlt.retired.length + 1) ∧
      t.get F.PHM_FLASH_STAT_RETIRED = s.hlt.retired.length + 1 ∧
      t.flag F.PHM_BG_STATUS_FLASH_RO = (s.hlt.retired.length == 1535) := by
  have hexec := flashRefresh_taken (c := c) (failed := failed) hb hin hret hok
  rw [if_pos (by simpa using hbad)] at hexec
  have hretired : ((s.modHlt (fun h => { h with retired := b :: h.retired })).belfry 1 0x000D 0 [b]).hlt.retired = b :: s.hlt.retired :=
    belfry_health (·.retired) (fun _ _ => rfl) _ _ _ _ _
  generalize (s.modHlt (fun h => { h with retired := b :: h.retired })).belfry 1 0x000D 0 [b] = u at hexec hretired
  have hlen : u.hlt.retired.length = s.hlt.retired.length + 1 := congrArg List.length hretired
  obtain ⟨hspare, hcount, hro⟩ := showFlash_fields u (by omega)
  rw [hlen] at hspare hcount hro
  refine ⟨_, hexec, (congrArg Health.retired showFlash_touches.hlt_eq).trans hretired, hspare, hcount, hro.trans ?_⟩
  rw [Bool.eq_iff_iff, decide_eq_true_iff, beq_iff_eq]
  omega

/-- A block that is neither the one refreshed nor retired stands among the next ones, for fewer than those are excluded. -/
theorem freshBlock_spec (b : Nat) (hok : s.hlt.retired.length < 1536) :
    s.freshBlock b < 61035 ∧ s.freshBlock b ≠ b ∧ s.freshBlock b ∉ s.hlt.retired := by
  unfold State.freshBlock
  dsimp only
  generalize b + 1 + s.freeVal 16 % 61034 = x
  have hnd : ((List.range (s.hlt.retired.length + 2)).map (fun i => (x + i) % 61035)).Nodup :=
    List.Nodup.map_on (fun i hi j hj h => by rw [List.mem_range] at hi hj; omega) List.nodup_range
  cases hfind : ((List.range (s.hlt.retired.length + 2)).map (fun i => (x + i) % 61035)).find?
      (fun y => y != b && !s.hlt.retired.contains y) with
  | some y =>
    obtain ⟨i, -, rfl⟩ := List.mem_map.mp (List.mem_of_find?_eq_some hfind)
    have hy := List.find?_some hfind
    simp only [Bool.and_eq_true, bne_iff_ne, Bool.not_eq_true', List.contains_eq_mem, decide_eq_false_iff_not] at hy
    exact ⟨Nat.mod_lt _ (by omega), hy⟩
  | none =>
    have hsub : ((List.range (s.hlt.retired.length + 2)).map (fun i => (x + i) % 61035)) ⊆ b :: s.hlt.retired := fun y hy => by
      have hno := List.find?_eq_none.mp hfind y hy
      simp only [Bool.and_eq_true, bne_iff_ne, Bool.not_eq_true', List.contains_eq_mem, decide_eq_false_iff_not, not_and, not_not] at hno
      by_cases hyb : y = b
      · exact hyb ▸ List.mem_cons_self
      · exact List.mem_cons_of_mem b (hno hyb)
    have hlen := (List.subperm_of_subset hnd hsub).length_le
    rw [List.length_map, List.length_range, List.length_cons] at hlen
    omega

theorem get_map_keys {α : Type} {x : α} {f : Nat → α} {l : List Nat} {k : Nat} (h : k ∈ l) :
    Tbl.get x k (l.map (fun i => (i, f i))) = f k := by
  induction l with
  | nil => exact absurd h List.not_mem_nil
  | cons i l ih =>
    rw [List.map_cons, Tbl.get]
    split
    · next hik => rw [hik]
    · next hik => exact ih ((List.mem_cons.mp h).resolve_left fun hki => hik hki.symm)

theorem get_levelled (n : Nat) (e : Tbl Nat) {d : Nat} (hd : d < 61035) :
    Tbl.get 0 d (levelled n e) = max (Tbl.get 0 d e) (n - 1000) := by
  unfold levelled
  split
  · omega
  · exact get_map_keys (List.mem_range.mpr hd)

/-- A block erased: it has one erasure more, no block has had more than 1,000 fewer, and none has fewer than before. -/
theorem eraseBlock_erases (s : State) {e : Nat} (he : e < 61035) :
    Tbl.get 0 e (s.eraseBlock e).hlt.erases = Tbl.get 0 e s.hlt.erases + 1 ∧
      ∀ d < 61035, Tbl.get 0 e (s.eraseBlock e).hlt.erases ≤ Tbl.get 0 d (s.eraseBlock e).hlt.erases + 1000 ∧
        Tbl.get 0 d s.hlt.erases ≤ Tbl.get 0 d (s.eraseBlock e).hlt.erases := by
  have herases : (s.eraseBlock e).hlt.erases =
    levelled (Tbl.get 0 e s.hlt.erases + 1) (Tbl.set 0 e (Tbl.get 0 e s.hlt.erases + 1) s.hlt.erases) := rfl
  have hself : Tbl.get 0 e (s.eraseBlock e).hlt.erases = Tbl.get 0 e s.hlt.erases + 1 := by
    rw [herases, get_levelled _ _ he, Tbl.get_set_same]
    omega
  refine ⟨hself, fun d hd => ?_⟩
  rw [hself, herases, get_levelled _ _ hd, Tbl.get_set]
  split
  · next hde => subst hde; omega
  · omega

theorem flashRefresh_rewrites (hb : s.background = true) (hin : b < 61035) (hret : b ∉ s.hlt.retired)
    (hok : s.hlt.retired.length < 1536) (hc : 24 < c) (hc' : c ≤ 40) :
    ∃ t, exec (.flashRefresh b c false) s = .next t ∧ t.hlt.retired = s.hlt.retired ∧ t.mem = s.mem ∧
      ∃ e < 61035, e ≠ b ∧ e ∉ s.hlt.retired ∧ Tbl.get 0 e t.hlt.erases = Tbl.get 0 e s.hlt.erases + 1 ∧
      (∀ d < 61035, Tbl.get 0 e t.hlt.erases ≤ Tbl.get 0 d t.hlt.erases + 1000 ∧ Tbl.get 0 d s.hlt.erases ≤ Tbl.get 0 d t.hlt.erases) := by
  have hexec := flashRefresh_taken (c := c) (failed := false) hb hin hret hok
  rw [if_neg (by simpa using hc'), if_pos hc] at hexec
  obtain ⟨he, hne, hfree⟩ := freshBlock_spec (s := s) b hok
  generalize s.freshBlock b = e at hexec he hne hfree
  have htouch : Touches [.regs, .free] (s.eraseBlock e) (s.eraseBlock e).drawn.showFlash := .via showFlash_touches (Touches.refl _ _).drawn
  have hhlt : (s.eraseBlock e).drawn.showFlash.hlt = (s.eraseBlock e).hlt := htouch.hlt_eq
  refine ⟨_, hexec, (congrArg Health.retired hhlt).trans rfl, htouch.mem_eq, e, he, hne, hfree, ?_⟩
  rw [hhlt]
  exact eraseBlock_erases s he

theorem flashRefresh_nothing (hb : s.background = true) (hin : b < 61035) (hret : b ∉ s.hlt.retired)
    (hok : s.hlt.retired.length < 1536) (hc : c ≤ 24) : exec (.flashRefresh b c false) s = .next s := by
  rw [flashRefresh_taken hb hin hret hok, if_neg (by simpa using (by omega : c ≤ 40)), if_neg (by omega)]

end flash

end Sys2Proof.Machine
end

section
/-! O59, telemetry: the samples of 10 ms, the end of a second, and the hourly mirror. -/
namespace Sys2Proof.Machine

-- one proof after the other: started together they wait on each other's results, each in a thread of its own
set_option Elab.async false

variable {s : State}

/-- In a loop whose rounds write under distinct keys, what is read under a key is what its own round left there. -/
theorem foldl_own_round {σ α κ β : Type} {step : σ → α → σ} {key : α → κ} {read : σ → κ → β} {l : List α}
    (hne : ∀ s, ∀ a ∈ l, ∀ b ∈ l, key b ≠ key a → read (step s a) (key b) = read s (key b)) {Q : α → β → Prop}
    (hown : ∀ s, ∀ a ∈ l, Q a (read (step s a) (key a))) (hnd : (l.map key).Nodup) {a : α} (ha : a ∈ l) (s : σ) :
    Q a (read (l.foldl step s) (key a)) := by
  induction l generalizing s with
  | nil => exact absurd ha List.not_mem_nil
  | cons c l ih =>
    obtain ⟨hc, hnd⟩ := List.nodup_cons.mp hnd
    rw [List.foldl_cons]
    rcases List.mem_cons.mp ha with rfl | ha
    · have hkeep : read (l.foldl step (step s a)) (key a) = read (step s a) (key a) :=
        List.foldlRecOn l step (motive := fun u => read u (key a) = read (step s a) (key a)) rfl fun u hu d hd =>
          (hne u d (List.mem_cons_of_mem a hd) a List.mem_cons_self fun he => hc (List.mem_map.mpr ⟨d, hd, he.symm⟩)).trans hu
      rw [hkeep]
      exact hown s a List.mem_cons_self
    · exact ih (fun s d hd b hb => hne s d (List.mem_cons_of_mem c hd) b (List.mem_cons_of_mem c hb))
        (fun s d hd => hown s d (List.mem_cons_of_mem c hd)) hnd ha _

/-- What each round of a loop keeps holds at its end. -/
theorem forN_induction {n : Nat} {f : State → Nat → State} {motive : State → Prop} (h0 : motive s)
    (hstep : ∀ u, ∀ i < n, motive u → motive (f u i)) : motive (forN n f s) :=
  List.foldlRecOn (List.range n) f h0 fun u hu i hi => hstep u i (List.mem_range.mp hi) hu

/-! ### One sample of a quantity (R465) -/

theorem unsigned_lt (w : Nat) (v : Int) : unsigned w v < 2 ^ w := by
  have hpos : (0 : Int) < 2 ^ w := by positivity
  have hlt := Int.emod_lt_of_pos v hpos
  have hnonneg := Int.emod_nonneg v hpos.ne'
  unfold unsigned
  zify
  rwa [Int.toNat_of_nonneg hnonneg]

/-- The fields that an extreme writes with its record. -/
def extremeFields : List Field :=
  [F.BLF_CNT_COUNT.nth 0, F.BLF_CNT_COUNT.nth 1, F.BLF_CNT_COUNT.nth 2, F.BLF_CNT_COUNT.nth 3, F.BLF_NEXT_RSEQ_RSEQ,
    F.BLF_STATUS_FIRST_FULL]

section sample
variable {q w : Nat} {mx : Bool} {v last : Int}

/-- An extreme written with its time. -/
def State.extremeStored (s : State) (q w : Nat) (v : Int) : State :=
  (s.wr64 (telemBlock q + 8 * w) (unsigned 64 v)).wr64 (telemBlock q + 8 * (w + 1)) (s.wr64 (telemBlock q + 8 * w) (unsigned 64 v)).gt64

/-- An extreme that makes a record, with the value recorded. -/
def State.lastNoted (s : State) (q : Nat) (mx : Bool) (v : Int) : State :=
  s.modHlt (fun h => { h with telem := Tbl.mod {} q (fun t => if mx then { t with lastMax := v } else { t with lastMin := v }) h.telem })

theorem extreme_eq : s.extreme q w mx v last =
    if (telemScale q).2 ≤ |v - last| then
      (((s.extremeStored q w v).lastNoted q mx v).belfry 3 q 0 [b2n mx, unsigned 64 v, unsigned 64 last]).bump (F.BLF_CNT_COUNT.nth 3)
    else s.extremeStored q w v := rfl

theorem extremeStored_touches : Touches [.mem] s (s.extremeStored q w v) := ((Touches.refl _ s).wr64 _ _).wr64 _ _

theorem lastNoted_touches : Touches [.hlt] s (s.lastNoted q mx v) := modHlt_touches

theorem extreme_touches : Touches [.regs, .mem, .keep, .hlt] s (s.extreme q w mx v last) := by
  have hstored : Touches [.regs, .mem, .keep, .hlt] s (s.extremeStored q w v) := extremeStored_touches.mono (by simp)
  rw [extreme_eq]
  exact .ite ((Touches.via belfry_touches (.via lastNoted_touches hstored)).bump _) hstored

theorem extreme_fields {k : Nat} : WritesFields k extremeFields s (s.extreme q w mx v last) := by
  have hstored : WritesFields k extremeFields s (s.extremeStored q w v) := .via (extremeStored_touches.writesFields k) (.refl _ _ s)
  rw [extreme_eq]
  unfold extremeFields at *
  exact .ite (.via bump_writes (.via belfry_all (.via (lastNoted_touches.writesFields k) hstored))) hstored

theorem extreme_thermal : (s.extreme q w mx v last).hlt.thermal = s.hlt.thermal := by
  have hstored : (s.extremeStored q w v).hlt.thermal = s.hlt.thermal := congrArg Health.thermal extremeStored_touches.hlt_eq
  rw [extreme_eq]
  split
  · rw [((Touches.refl [.regs] _).bump _).hlt_eq, belfry_health (·.thermal) (fun _ _ => rfl)]
    exact hstored
  · exact hstored

/-- A sample goes to TELEM and to the quantity's sums; then each extreme is replaced or left. -/
theorem telemOne_induction {motive : State → Prop}
    (hsum : ∀ f : Health → Health, (∀ h, (f h).thermal = h.thermal) →
      motive ((s.setF (F.PHM_TELEM_VALUE.nth q) (unsigned 32 v)).modHlt f))
    (hextreme : ∀ u w mx last, motive u → motive (u.extreme q w mx v last)) : motive (s.telemOne q v) := by
  unfold State.telemOne
  extract_lets s1 t first s2 at_ s3
  have h2 : motive s2 := hsum _ fun _ => rfl
  have h3 : motive s3 := by
    unfold s3
    split
    · exact hextreme _ _ _ _ h2
    · exact h2
  split
  · exact hextreme _ _ _ _ h3
  · exact h3

theorem telemOne_touches : Touches [.regs, .mem, .keep, .hlt] s (s.telemOne q v) :=
  telemOne_induction (fun _ _ => .via modHlt_touches ((Touches.refl _ s).setF _ _)) fun _ _ _ _ hu => .via extreme_touches hu

theorem telemOne_thermal : (s.telemOne q v).hlt.thermal = s.hlt.thermal :=
  telemOne_induction (motive := fun u => u.hlt.thermal = s.hlt.thermal)
    (fun _ hf => (hf _).trans (congrArg Health.thermal ((Touches.refl [.regs] s).setF _ _).hlt_eq))
    fun _ _ _ _ hu => extreme_thermal.trans hu

theorem telem_key_ne_extreme {j : Nat} (hj : j < 12) : ∀ f ∈ extremeFields, (F.PHM_TELEM_VALUE.nth j).key ≠ f.key := by
  have hkey : (F.PHM_TELEM_VALUE.nth j).key = F.PHM_TELEM_VALUE.key + j * 256 := by
    have hstride : F.PHM_TELEM_VALUE.stride = 4 := rfl
    simp only [Field.nth, Field.key, hstride]
    omega
  have hhigh : ∀ f ∈ extremeFields, F.PHM_TELEM_VALUE.key + 12 * 256 ≤ f.key := by decide
  intro f hf
  have hf' := hhigh f hf
  omega

theorem telemOne_get {j : Nat} (hj : j < 12) :
    (s.telemOne q v).get (F.PHM_TELEM_VALUE.nth j) = (s.setF (F.PHM_TELEM_VALUE.nth q) (unsigned 32 v)).get (F.PHM_TELEM_VALUE.nth j) :=
  telemOne_induction (motive := fun u => u.get (F.PHM_TELEM_VALUE.nth j) =
      (s.setF (F.PHM_TELEM_VALUE.nth q) (unsigned 32 v)).get (F.PHM_TELEM_VALUE.nth j))
    (fun _ _ => modHlt_touches.get_eq _)
    fun _ _ _ _ hu => (extreme_fields.get_eq (Nat.lt_succ_self _) (telem_key_ne_extreme hj)).trans hu

theorem telemOne_own (hq : q < 12) : (s.telemOne q v).get (F.PHM_TELEM_VALUE.nth q) = unsigned 32 v := by
  rw [telemOne_get hq, State.get_setF_same]
  exact Nat.mod_eq_of_lt (unsigned_lt 32 v)

theorem telemOne_other {j : Nat} (hj : j < 12) (hjq : j ≠ q) :
    (s.telemOne q v).get (F.PHM_TELEM_VALUE.nth j) = s.get (F.PHM_TELEM_VALUE.nth j) := by
  rw [telemOne_get hj]
  exact State.get_setF_ne s _ fun h => hjq (key_nth_inj (by decide) h)

end sample

/-! ### TELEMETRY_SAMPLE and HISTOGRAM_UPDATE (R465) -/

section second
variable {vals : List Int}

/-- RATE_ADJ as quantity 10 shows it. -/
def State.rateShown (s : State) : Int × State := s.openDiv (s.getI F.TBU_RATE_ADJ_RATE_ADJ * 1000000000) (2 ^ 42)

/-- The twelve quantities of a sample. -/
def State.quantities (s : State) (vals : List Int) : List (Int × Nat) :=
  ((List.range 10).map (fun q => vals.getD q 0) ++ [s.rateShown.1, (s.hlt.eccLast : Int)]).zipIdx

/-- The quantities taken in turn. -/
def State.sampledAll (s : State) (vals : List Int) : State :=
  (s.quantities vals).foldl (fun (s : State) (p : Int × Nat) => s.telemOne p.2 p.1) s.rateShown.2

/-- Whether the die was at 115 °C or above in the last sample. -/
def State.dieSeen (s : State) (hot : Bool) : State := { s with sup := { s.sup with dieHot := hot } }

theorem exec_telemetrySample_taken (hb : s.background = true) : exec (.telemetrySample vals) s =
    .next (((s.sampledAll vals).dieSeen (decide (11500 ≤ vals.getD 0 0))).trackCool (vals.getD 1 0)).tdcKeep := by
  rw [exec_telemetrySample, execTelemetrySample, telemetrySample, hb, if_neg (by decide)]
  extract_lets r all t
  have ht : t = s.sampledAll vals := rfl
  rw [← ht]
  clear_value t
  rfl

theorem quantities_length : (s.quantities vals).length = 12 := by
  simp [State.quantities]

theorem quantities_nodup : ((s.quantities vals).map Prod.snd).Nodup := by
  rw [State.quantities, List.zipIdx_map_snd]
  exact List.nodup_range'

theorem quantities_lt {p : Int × Nat} (hp : p ∈ s.quantities vals) : p.2 < 12 := by
  have h := List.snd_lt_add_of_mem_zipIdx hp
  simpa using h

theorem sampledAll_get {v : Int} {q : Nat} (hp : (v, q) ∈ s.quantities vals) :
    (s.sampledAll vals).get (F.PHM_TELEM_VALUE.nth q) = unsigned 32 v :=
  foldl_own_round (step := fun (s : State) (p : Int × Nat) => s.telemOne p.2 p.1) (key := Prod.snd)
    (read := fun s q => s.get (F.PHM_TELEM_VALUE.nth q)) (Q := fun p x => x = unsigned 32 p.1)
    (fun _ _ _ _ hb hne => telemOne_other (quantities_lt hb) hne) (fun _ _ ha => telemOne_own (quantities_lt ha)) quantities_nodup hp _

theorem measured_mem {q : Nat} (hq : q < 10) : (vals.getD q 0, q) ∈ s.quantities vals := by
  rw [State.quantities, List.mem_zipIdx_iff_getElem?, List.getElem?_append_left (by simpa using hq), List.getElem?_map,
    List.getElem?_range hq]
  rfl

theorem eccLast_mem : ((s.hlt.eccLast : Int), 11) ∈ s.quantities vals := by
  rw [State.quantities, List.mem_zipIdx_iff_getElem?, List.getElem?_append_right (by simp)]
  simp

theorem rateShown_touches : Touches [.free] s s.rateShown.2 := openDiv_touches

theorem sampledAll_touches : Touches [.regs, .mem, .keep, .hlt, .free] s (s.sampledAll vals) := by
  have hrate : Touches [.regs, .mem, .keep, .hlt, .free] s s.rateShown.2 := rateShown_touches.mono (by simp)
  unfold State.sampledAll
  generalize s.rateShown.2 = t at hrate
  exact Touches.foldl (fun _ _ hu => .via telemOne_touches hu) _ hrate

theorem sampledAll_thermal : (s.sampledAll vals).hlt.thermal = s.hlt.thermal := by
  have hrate : s.rateShown.2.hlt.thermal = s.hlt.thermal := congrArg Health.thermal rateShown_touches.hlt_eq
  unfold State.sampledAll
  generalize s.rateShown.2 = t at hrate
  exact List.foldlRecOn _ _ (motive := fun u : State => u.hlt.thermal = s.hlt.thermal) hrate fun _ hu _ _ => telemOne_thermal.trans hu

/-- What follows the quantities: the sign of a hot die, the time of cooling, and the TDC lines. -/
theorem afterSample_touches (hot : Bool) (plate : Int) (t : State) :
    Touches [.sup, .hlt, .tbu] t ((t.dieSeen hot).trackCool plate).tdcKeep :=
  (Touches.via (l := [.sup, .hlt, .tbu]) modHlt_touches ((Touches.refl _ t).set_sup _)).set_tbu _

theorem afterSample_dieHot (hot : Bool) (plate : Int) (t : State) : (((t.dieSeen hot).trackCool plate).tdcKeep).sup.dieHot = hot := rfl

theorem afterSample_thermal (hot : Bool) (plate : Int) (t : State) :
    (((t.dieSeen hot).trackCool plate).tdcKeep).hlt.thermal = t.hlt.thermal := rfl

theorem telemetrySample_leaves (hb : s.background = true) (vals : List Int) :
    ∃ t, exec (.telemetrySample vals) s = .next t ∧ (∀ q < 10, t.get (F.PHM_TELEM_VALUE.nth q) = unsigned 32 (vals.getD q 0)) ∧
      t.get (F.PHM_TELEM_VALUE.nth 11) = unsigned 32 s.hlt.eccLast ∧ t.sup.dieHot = decide (11500 ≤ vals.getD 0 0) ∧
      t.hlt.thermal = s.hlt.thermal ∧ t.slp = s.slp := by
  have hmeasured (q : Nat) (hq : q < 10) : (s.sampledAll vals).get (F.PHM_TELEM_VALUE.nth q) = unsigned 32 (vals.getD q 0) :=
    sampledAll_get (measured_mem hq)
  have hecc : (s.sampledAll vals).get (F.PHM_TELEM_VALUE.nth 11) = unsigned 32 s.hlt.eccLast := sampledAll_get eccLast_mem
  have hthermal := sampledAll_thermal (s := s) (vals := vals)
  have hslp := (sampledAll_touches (s := s) (vals := vals)).slp_eq
  have hexec := exec_telemetrySample_taken (vals := vals) hb
  generalize s.sampledAll vals = u at hmeasured hecc hthermal hslp hexec
  have hafter := afterSample_touches (decide (11500 ≤ vals.getD 0 0)) (vals.getD 1 0) u
  have hhot := afterSample_dieHot (decide (11500 ≤ vals.getD 0 0)) (vals.getD 1 0) u
  have hkept := (afterSample_thermal (decide (11500 ≤ vals.getD 0 0)) (vals.getD 1 0) u).trans hthermal
  generalize ((u.dieSeen (decide (11500 ≤ vals.getD 0 0))).trackCool (vals.getD 1 0)).tdcKeep = t at hexec hafter hhot hkept
  exact ⟨t, hexec, fun q hq => (hafter.get_eq _).trans (hmeasured q hq), (hafter.get_eq _).trans hecc, hhot, hkept,
    hafter.slp_eq.trans hslp⟩

/-! The end of a second. -/

theorem telemBin_le (q : Nat) (sum : Int) (n : Nat) : telemBin q sum n ≤ 63 := by
  unfold telemBin
  dsimp only
  split
  · omega
  · exact Nat.min_le_left _ _

/-- A word of a quantity's block counted up. -/
def State.countWord (s : State) (q w : Nat) : State := s.wr64 (telemBlock q + 8 * w) (satInc 64 (s.rd64 (telemBlock q + 8 * w)))

/-- A second of the minute counted. -/
def State.minuteSecond (s : State) (q : Nat) (t : Telem) : State :=
  s.modHlt (fun h => { h with telem := Tbl.set {} q { t with minuteSecs := t.minuteSecs + 1 } h.telem })

theorem histOne_eq (s : State) (q : Nat) : s.histOne q =
    let t := Tbl.get ({} : Telem) q s.hlt.telem
    if t.recent.isEmpty then s
    else ((s.countWord q (telemBin q (sumI t.recent) t.recent.length)).countWord q 68).minuteSecond q t := rfl

theorem memGet_countWord (s : State) {q w a : Nat} (h : a < telemBlock q + 8 * w ∨ telemBlock q + 8 * w + 8 ≤ a) :
    memGet a (s.countWord q w).mem = memGet a s.mem := by
  unfold State.countWord State.wr64 State.wr
  rw [memGet_memPut, le_length, if_neg (by omega)]

theorem telemBlock_mono {p q : Nat} (h : p ≤ q) : telemBlock p ≤ telemBlock q := by
  unfold telemBlock
  omega

theorem memGet_histOne (s : State) {q a : Nat} (h : a < telemBlock q ∨ telemBlock (q + 1) ≤ a) :
    memGet a (s.histOne q).mem = memGet a s.mem := by
  rw [histOne_eq]
  dsimp only
  split
  · rfl
  · have hbin := telemBin_le q (sumI (Tbl.get ({} : Telem) q s.hlt.telem).recent) (Tbl.get ({} : Telem) q s.hlt.telem).recent.length
    have hblock : telemBlock (q + 1) = telemBlock q + 0x400 := by unfold telemBlock; omega
    have hmem : ∀ (u : State) t, (u.minuteSecond q t).mem = u.mem := fun u _ => modHlt_touches.mem_eq
    rw [hmem, memGet_countWord _ (by omega), memGet_countWord _ (by omega)]

theorem histOne_touches (s : State) (q : Nat) : Touches [.mem, .hlt] s (s.histOne q) := by
  rw [histOne_eq]
  exact .ite (.refl _ s) (.via (l := [.mem, .hlt]) modHlt_touches (((Touches.refl _ s).wr64 _ _).wr64 _ _))

theorem histOne_eccSec (s : State) (q : Nat) : (s.histOne q).hlt.eccSec = s.hlt.eccSec := by
  rw [histOne_eq]
  dsimp only
  split
  · rfl
  · have hsec : ∀ (u : State) t, (u.minuteSecond q t).hlt.eccSec = u.hlt.eccSec := fun _ _ => rfl
    rw [hsec]
    exact congrArg Health.eccSec (((Touches.refl [.mem] s).wr64 _ _).wr64 _ _).hlt_eq

/-- The parts a minute's archive entry may change, and the count of corrections that it keeps. -/
def MinuteKeeps (s t : State) : Prop := Touches [.free, .hlt] s t ∧ t.hlt.eccSec = s.hlt.eccSec

theorem MinuteKeeps.modHlt {t : State} (h : MinuteKeeps s t) {f : Health → Health} (hf : ∀ x, (f x).eccSec = x.eccSec) :
    MinuteKeeps s (t.modHlt f) := ⟨.via modHlt_touches h.1, (hf _).trans h.2⟩

theorem MinuteKeeps.openDiv {t : State} (h : MinuteKeeps s t) (n : Int) (d : Nat) : MinuteKeeps s (t.openDiv n d).2 :=
  ⟨.via openDiv_touches h.1, (congrArg Health.eccSec openDiv_touches.hlt_eq).trans h.2⟩

theorem archiveMinute_keeps (s : State) : MinuteKeeps s s.archiveMinute := by
  have hs : MinuteKeeps s s := ⟨.refl _ s, rfl⟩
  unfold State.archiveMinute
  split
  · exact hs
  · extract_lets r
    have hr : MinuteKeeps s r.2 :=
      List.foldlRecOn (List.range 12) _ (motive := fun a : List Int × State => MinuteKeeps s a.2) hs
        fun _ ha _ _ => by
          dsimp only
          exact (ha.openDiv _ _).modHlt fun _ => rfl
    split
    · exact hr.modHlt fun _ => rfl
    · exact hr

/-- The corrections of the second that ended. -/
def State.eccTurned (s : State) : State := s.modHlt (fun h => { h with eccLast := h.eccSec, eccSec := 0 })

theorem histogramUpdate_leaves (hb : s.background = true) :
    ∃ t, exec .histogramUpdate s = .next t ∧ t.hlt.eccLast = s.hlt.eccSec ∧ t.hlt.eccSec = 0 ∧ t.regs = s.regs ∧ t.slp = s.slp ∧
      (∀ a, a < telemBlock 0 ∨ telemBlock 12 ≤ a → memGet a t.mem = memGet a s.mem) := by
  have hexec : exec .histogramUpdate s = .next (forN 12 State.histOne s).archiveMinute.eccTurned := by
    rw [exec_histogramUpdate, execHistogramUpdate, histogramUpdate, hb, if_neg (by decide)]
    unfold State.eccTurned
    with_reducible rfl
  have hhist : Touches [.mem, .hlt] s (forN 12 State.histOne s) :=
    Touches.forN (fun u q hu => .via (histOne_touches u q) hu) (.refl _ s)
  have hecc : (forN 12 State.histOne s).hlt.eccSec = s.hlt.eccSec :=
    forN_induction (motive := fun u => u.hlt.eccSec = s.hlt.eccSec) rfl fun u q _ hu => (histOne_eccSec u q).trans hu
  have hmem (a : Nat) (ha : a < telemBlock 0 ∨ telemBlock 12 ≤ a) : memGet a (forN 12 State.histOne s).mem = memGet a s.mem :=
    forN_induction (motive := fun u => memGet a u.mem = memGet a s.mem) rfl fun u q hq hu =>
      (memGet_histOne u (ha.imp (fun h => h.trans_le (telemBlock_mono (Nat.zero_le q))) (telemBlock_mono hq).trans)).trans hu
  generalize forN 12 State.histOne s = u at hexec hhist hecc hmem
  obtain ⟨hminute, hminuteEcc⟩ := archiveMinute_keeps u
  generalize u.archiveMinute = v at hexec hminute hminuteEcc
  have hturned : Touches [.hlt] v v.eccTurned := modHlt_touches
  exact ⟨v.eccTurned, hexec, hminuteEcc.trans hecc, rfl, hturned.regs_eq.trans (hminute.regs_eq.trans hhist.regs_eq),
    hturned.slp_eq.trans (hminute.slp_eq.trans hhist.slp_eq),
    fun a ha => (congrArg (memGet a) (hturned.mem_eq.trans hminute.mem_eq)).trans (hmem a ha)⟩

end second

/-! ### Outside Normal, and the mirror -/

theorem background_rests (hb : s.background = false) {i : Instr}
    (hi : (∃ mem a f e, i = .scrubPass mem a f e) ∨ (∃ b c f, i = .flashRefresh b c f) ∨ (∃ v, i = .telemetrySample v) ∨
      i = .histogramUpdate) : exec i s = .next s := by
  rcases hi with ⟨mem, a, f, e, rfl⟩ | ⟨b, c, f, rfl⟩ | ⟨v, rfl⟩ | rfl
  · rw [exec_scrubPass, execScrubPass, scrubPass, hb]
    rfl
  · rw [exec_flashRefresh, execFlashRefresh, flashRefresh, hb]
    rfl
  · rw [exec_telemetrySample, execTelemetrySample, telemetrySample, hb]
    rfl
  · rw [exec_histogramUpdate, execHistogramUpdate, histogramUpdate, hb]
    rfl

theorem belfryMirror_due (h : s.hlt.hdrOpSec + 3600 ≤ s.get F.PHM_KEEP_CNT_OP_SEC) :
    exec .belfryMirror s = .next { s with hlt := { s.hlt with
      hdrOpSec := s.get F.PHM_KEEP_CNT_OP_SEC, hdrCycles := s.get F.PHM_KEEP_CNT_POWER_CYCLES } } := by
  rw [exec_belfryMirror, execBelfryMirror, belfryMirror, if_pos h]
  rfl

theorem belfryMirror_early (h : s.get F.PHM_KEEP_CNT_OP_SEC < s.hlt.hdrOpSec + 3600) : exec .belfryMirror s = .next s := by
  rw [exec_belfryMirror, execBelfryMirror, belfryMirror, if_neg (by omega)]

end Sys2Proof.Machine
end

section
/-! O59, ageing: the day's end, measurements, the VCORE plan, the core step and the thermal step. -/
namespace Sys2Proof.Machine

-- one proof after the other: started together they wait on each other's results, each in a thread of its own
set_option Elab.async false

variable {s t u : State}

/-! ### What the work of an ageing measurement keeps -/

/-- The measurement under way, the number of those made, the thermal step and the Scarab as they were. -/
structure AgeKept (s t : State) : Prop where
  meas : t.hlt.meas = s.hlt.meas
  histN : t.hlt.histN = s.hlt.histN
  thermal : t.hlt.thermal = s.hlt.thermal
  slp : t.slp = s.slp

theorem AgeKept.refl (s : State) : AgeKept s s := ⟨rfl, rfl, rfl, rfl⟩

theorem AgeKept.trans (h : AgeKept s t) (k : AgeKept t u) : AgeKept s u :=
  ⟨k.meas.trans h.meas, k.histN.trans h.histN, k.thermal.trans h.thermal, k.slp.trans h.slp⟩

theorem AgeKept.ite {c : Prop} [Decidable c] (ht : AgeKept s t) (hu : AgeKept s u) : AgeKept s (if c then t else u) := by
  split <;> assumption

/-- An operation that touches neither the health record nor the Scarab. -/
theorem AgeKept.via {l : List StatePart} (k : Touches l t u) (h : AgeKept s t) (hh : StatePart.hlt ∉ l := by simp)
    (hs : StatePart.slp ∉ l := by simp) : AgeKept s u :=
  h.trans ⟨congrArg Health.meas (k.hlt_eq hh), congrArg Health.histN (k.hlt_eq hh), congrArg Health.thermal (k.hlt_eq hh), k.slp_eq hs⟩

theorem AgeKept.setF (h : AgeKept s t) (f : Field) (v : Nat) : AgeKept s (t.setF f v) := .via ((Touches.refl [.regs] t).setF f v) h

theorem AgeKept.setI (h : AgeKept s t) (f : Field) (v : Int) : AgeKept s (t.setI f v) := h.setF f _

theorem AgeKept.bump (h : AgeKept s t) (f : Field) : AgeKept s (t.bump f) := h.setF f _

theorem AgeKept.openDiv (h : AgeKept s t) (n : Int) (d : Nat) : AgeKept s (t.openDiv n d).2 := .via openDiv_touches h

theorem AgeKept.wr64 (h : AgeKept s t) (a v : Nat) : AgeKept s (t.wr64 a v) := .via ((Touches.refl [.mem] t).wr64 a v) h

theorem AgeKept.advanceTo (h : AgeKept s t) (at_ : Time) : AgeKept s (t.advanceTo at_) := .via ((Touches.refl [.tbu] t).advanceTo at_) h

theorem AgeKept.modHlt (h : AgeKept s t) {f : Health → Health} (hm : ∀ x, (f x).meas = x.meas) (hn : ∀ x, (f x).histN = x.histN)
    (ht : ∀ x, (f x).thermal = x.thermal) : AgeKept s (t.modHlt f) :=
  h.trans ⟨hm _, hn _, ht _, modHlt_touches.slp_eq⟩

theorem AgeKept.belfry (h : AgeKept s t) (kind code source : Nat) (payload : List Nat) :
    AgeKept s (t.belfry kind code source payload) :=
  h.trans ⟨belfry_health (·.meas) (fun _ _ => rfl) t _ _ _ _, belfry_health (·.histN) (fun _ _ => rfl) t _ _ _ _,
    belfry_health (·.thermal) (fun _ _ => rfl) t _ _ _ _, belfry_touches.slp_eq⟩

theorem project_kept (day : Nat) : AgeKept s (s.project day) := by
  unfold State.project
  split
  · exact ((AgeKept.refl s).setF _ _).setF _ _
  · exact ((((AgeKept.refl s).openDiv _ _).setF _ _).setF _ _).setF _ _

/-- VCORE at a new step. -/
def State.atVcore (s : State) (v : Nat) : State := { s with sup := { s.sup with vcore := v } }

/-- The plan stored in the header. -/
def State.planStored (s : State) (v : Nat) : State := s.modHlt (fun h => { h with hdrPlan := v })

/-- The record of a raised plan. -/
def State.planRaised (s : State) (old new : Nat) : State :=
  (((s.atVcore new).planStored new).phmBump 7).belfry 2 0x0002 0 [old, new, 0]

/-- The step of the new plan: the first that fits, else 850 mV. -/
def State.planNew (s : State) : Nat :=
  (((List.range ((850 - s.vcorePlan) / 5 + 1)).map (fun k => s.vcorePlan + 5 * k)).find? s.planFits).getD 850

/-- The new plan shown, with MARGIN_LOW where no step fits. -/
def State.planShown (s : State) : State :=
  State.setF (if (((List.range ((850 - s.vcorePlan) / 5 + 1)).map (fun k => s.vcorePlan + 5 * k)).find? s.planFits).isNone &&
    !s.planFits 850 then s.setF F.PHM_AGE_STATUS_MARGIN_LOW 1 else s) F.PHM_AGE_STATUS_VCORE_PLAN s.planNew

theorem planVcore_eq (s : State) : s.planVcore =
    if s.vcorePlan < s.planNew then s.planShown.planRaised s.vcorePlan s.planNew else s.planShown.planStored s.planNew := rfl

theorem planShown_kept : AgeKept s s.planShown := (AgeKept.ite ((AgeKept.refl s).setF _ _) (.refl s)).setF _ _

theorem planStored_kept (v : Nat) : AgeKept s (s.planStored v) :=
  (AgeKept.refl s).modHlt (fun _ => rfl) (fun _ => rfl) (fun _ => rfl)

theorem atVcore_kept (v : Nat) : AgeKept s (s.atVcore v) := .via ((Touches.refl [.sup] s).set_sup _) (.refl s)

theorem planVcore_kept : AgeKept s s.planVcore := by
  rw [planVcore_eq]
  split
  · exact planShown_kept.trans (((atVcore_kept _).trans (planStored_kept _)).bump _ |>.belfry _ _ _ _)
  · exact planShown_kept.trans (planStored_kept _)

theorem exhausted_kept : AgeKept s s.exhausted := by
  unfold State.exhausted
  split
  · exact .refl s
  · exact .ite (.refl s) (((AgeKept.refl s).setF _ _).belfry _ _ _ _)

/-! ### The core step (R472) -/

/-- The core step no sooner than 100 ms after the last change. -/
def State.stepWaited (s : State) : State := match s.hlt.stepAt with | some t => s.advanceTo (t + ms 100) | none => s

/-- The step that the two components ask for. -/
def State.stepWanted (s : State) : Nat := max s.hlt.thermal (s.get F.PHM_AGE_STATUS_AGE_STEP)

/-- A new core step noted. -/
def State.stepNoted (s : State) (new : Nat) : State := s.modHlt (fun h => { h with stepAt := some s.now, hdrCore := new })

theorem coreStep_eq (s : State) (cause : Nat) : s.coreStep cause =
    if s.get F.PHM_AGE_STATUS_CORE_STEP = s.stepWanted then s
    else ((s.stepWaited.stepNoted s.stepWanted).setF F.PHM_AGE_STATUS_CORE_STEP s.stepWanted).belfry 2 0x0003 0
      [s.get F.PHM_AGE_STATUS_CORE_STEP, s.stepWanted, cause] := rfl

theorem stepWaited_touches : Touches [.tbu] s s.stepWaited := by
  unfold State.stepWaited
  split
  · exact (Touches.refl _ s).advanceTo _
  · exact .refl _ s

theorem stepNoted_kept (new : Nat) : AgeKept s (s.stepNoted new) :=
  (AgeKept.refl s).modHlt (fun _ => rfl) (fun _ => rfl) (fun _ => rfl)

theorem coreStep_kept (cause : Nat) : AgeKept s (s.coreStep cause) := by
  rw [coreStep_eq]
  exact .ite (.refl s) ((((AgeKept.via stepWaited_touches (.refl s)).trans (stepNoted_kept _)).setF _ _).belfry _ _ _ _)

/-- The fields that a change of the core step writes. -/
def stepFields : List Field :=
  [F.PHM_AGE_STATUS_AGE_STEP, F.PHM_AGE_STATUS_CORE_STEP, F.BLF_CNT_COUNT.nth 0, F.BLF_CNT_COUNT.nth 1, F.BLF_CNT_COUNT.nth 2,
    F.BLF_NEXT_RSEQ_RSEQ, F.BLF_STATUS_FIRST_FULL]

theorem stepPrepared_touches (new : Nat) : Touches [.tbu, .hlt] s (s.stepWaited.stepNoted new) :=
  .via modHlt_touches (stepWaited_touches.mono (by simp))

theorem coreStep_fields {k : Nat} (cause : Nat) : WritesFields k stepFields s (s.coreStep cause) := by
  rw [coreStep_eq]
  unfold stepFields
  exact .ite (.refl _ _ s) (.via belfry_all (.via setF_writes (.via ((stepPrepared_touches _).writesFields k) (.refl _ _ s))))

theorem coreStep_ageStep (cause : Nat) :
    (s.coreStep cause).get F.PHM_AGE_STATUS_AGE_STEP = s.get F.PHM_AGE_STATUS_AGE_STEP := by
  rw [coreStep_eq]
  split
  · rfl
  · rw [(belfry_all (k := 2 ^ 64)).get_eq (by decide) (by decide), State.get_setF_ne _ _ (by decide), (stepPrepared_touches _).get_eq]

/-- The step in force is the larger of its components. -/
theorem coreStep_step (cause : Nat) (hth : s.hlt.thermal ≤ 3) (hage : s.get F.PHM_AGE_STATUS_AGE_STEP ≤ 3) :
    (s.coreStep cause).get F.PHM_AGE_STATUS_CORE_STEP = max s.hlt.thermal (s.get F.PHM_AGE_STATUS_AGE_STEP) := by
  rw [coreStep_eq]
  split
  · next h => exact h
  · rw [(belfry_all (k := 2 ^ 64)).get_eq (by decide) (by decide), State.get_setF_same]
    exact Nat.mod_eq_of_lt (show _ < 2 ^ 2 from Nat.lt_succ_of_le (max_le hth hage))

theorem coreStep_now_le (cause : Nat) : s.now ≤ (s.coreStep cause).now := by
  have hwait : s.now ≤ s.stepWaited.now := by
    unfold State.stepWaited
    split
    · exact Nat.div_le_div_right (le_max_left _ _)
    · exact le_rfl
  rw [coreStep_eq]
  split
  · exact le_rfl
  · have hrest (w : State) (f : Field) (new v : Nat) (payload : List Nat) :
        Touches [.regs, .mem, .keep, .hlt] w (((w.stepNoted new).setF f v).belfry 2 0x0003 0 payload) :=
      .via belfry_touches ((Touches.via modHlt_touches (.refl _ w)).setF _ _)
    rw [(hrest _ _ _ _ _).now_eq]
    exact hwait

/-- The ageing step that the core gauges ask for, from the present one up. -/
def State.ageNew (s : State) : Nat :=
  ((List.range 4).find? (fun n => decide (s.get F.PHM_AGE_STATUS_AGE_STEP ≤ n) && coreGauges.all (fun g => decide
    (10 * ((s.get F.PHM_AGE_CFG_MARGIN_REQ : Int) + s.get F.PHM_AGE_CFG_HEADROOM) ≤ s.sn g + stepGain n)))).getD 3

/-- The ageing step taken. -/
def State.ageTaken (s : State) : State :=
  (s.modHlt (fun h => { h with hdrAge := s.ageNew })).setF F.PHM_AGE_STATUS_AGE_STEP s.ageNew

theorem ageStep_eq (s : State) : s.ageStep = s.ageTaken.coreStep 1 := rfl

theorem ageNew_bounds (h : s.get F.PHM_AGE_STATUS_AGE_STEP ≤ 3) : s.get F.PHM_AGE_STATUS_AGE_STEP ≤ s.ageNew ∧ s.ageNew ≤ 3 := by
  unfold State.ageNew
  cases hfind : (List.range 4).find? (fun n => decide (s.get F.PHM_AGE_STATUS_AGE_STEP ≤ n) && coreGauges.all (fun g => decide
    (10 * ((s.get F.PHM_AGE_CFG_MARGIN_REQ : Int) + s.get F.PHM_AGE_CFG_HEADROOM) ≤ s.sn g + stepGain n))) with
  | none => exact ⟨h, le_rfl⟩
  | some n =>
    have hfits := List.find?_some hfind
    have hn := List.mem_range.mp (List.mem_of_find?_eq_some hfind)
    exact ⟨of_decide_eq_true (Bool.and_eq_true_iff.mp hfits).1, by rw [Option.getD_some]; omega⟩

theorem ageTaken_kept : AgeKept s s.ageTaken := by
  refine AgeKept.setF ?_ _ _
  exact (AgeKept.refl s).modHlt (fun _ => rfl) (fun _ => rfl) (fun _ => rfl)

theorem ageStep_kept : AgeKept s s.ageStep := ageTaken_kept.trans (coreStep_kept 1)

theorem ageStep_fields {k : Nat} : WritesFields k stepFields s s.ageStep := by
  have htaken : WritesFields k stepFields s s.ageTaken :=
    .via setF_writes (.via (modHlt_touches.writesFields k) (.refl _ _ s)) (by simp [stepFields])
  exact .via (coreStep_fields 1) htaken (List.Subset.refl _)

theorem ageStep_steps (hage : s.get F.PHM_AGE_STATUS_AGE_STEP ≤ 3) (hth : s.hlt.thermal ≤ 3) :
    s.get F.PHM_AGE_STATUS_AGE_STEP ≤ s.ageStep.get F.PHM_AGE_STATUS_AGE_STEP ∧
      s.ageStep.get F.PHM_AGE_STATUS_CORE_STEP = max s.hlt.thermal (s.ageStep.get F.PHM_AGE_STATUS_AGE_STEP) := by
  obtain ⟨hle, h3⟩ := ageNew_bounds hage
  have hnew : s.ageTaken.get F.PHM_AGE_STATUS_AGE_STEP = s.ageNew := by
    rw [State.ageTaken, State.get_setF_same]
    exact Nat.mod_eq_of_lt (show _ < 2 ^ 2 from Nat.lt_succ_of_le h3)
  have hthermal : s.ageTaken.hlt.thermal = s.hlt.thermal := ageTaken_kept.thermal
  rw [ageStep_eq, coreStep_ageStep, coreStep_step 1 (hthermal.trans_le hth) (hnew.trans_le h3), hnew, hthermal]
  exact ⟨hle, rfl⟩

/-! ### The projection and the plan -/

/-- The fields that the projection and the plan write. -/
def planFields : List Field :=
  [F.PHM_AGE_PROJ_PROJ_DAYS, F.PHM_AGE_PROJ_PROJ_SEC, F.PHM_AGE_STATUS_WORST_GAUGE, F.PHM_AGE_STATUS_MARGIN_LOW,
    F.PHM_AGE_STATUS_VCORE_PLAN, F.PHM_AGE_STATUS_MARGIN_EXHAUSTED, F.PHM_CNT_COUNT.nth 7, F.BLF_CNT_COUNT.nth 0, F.BLF_CNT_COUNT.nth 1,
    F.BLF_CNT_COUNT.nth 2, F.BLF_NEXT_RSEQ_RSEQ, F.BLF_STATUS_FIRST_FULL]

section plan
variable {k : Nat}

theorem project_fields (day : Nat) : WritesFields k planFields s (s.project day) := by
  unfold State.project planFields
  split
  · exact .via setF_writes (.via setF_writes (.refl _ _ s))
  · exact .via setF_writes (.via setF_writes (.via setF_writes (.via (openDiv_touches.writesFields k) (.refl _ _ s))))

theorem planRaised_fields (old new : Nat) : WritesFields k planFields s (s.planRaised old new) := by
  have hat : Touches [.sup, .hlt] s ((s.atVcore new).planStored new) := .via (l := [.sup, .hlt]) modHlt_touches ((Touches.refl _ s).set_sup _)
  unfold State.planRaised planFields
  exact .via belfry_all (.via bump_writes (.via (hat.writesFields k) (.refl _ _ s)))

theorem planVcore_fields : WritesFields k planFields s s.planVcore := by
  have hshown : WritesFields k planFields s s.planShown := by
    unfold State.planShown planFields
    exact .via setF_writes (.ite (.via setF_writes (.refl _ _ s)) (.refl _ _ s))
  rw [planVcore_eq]
  exact .ite (.via (planRaised_fields _ _) hshown (List.Subset.refl _)) (.via (modHlt_touches.writesFields k) hshown)

theorem exhausted_fields : WritesFields k planFields s s.exhausted := by
  unfold State.exhausted planFields
  split
  · exact .refl _ _ s
  · exact .ite (.refl _ _ s) (.via belfry_all (.via setF_writes (.refl _ _ s)))

/-- The trend, the plan and its margin, as a measurement leaves them. -/
def State.planned (s : State) (day : Nat) : State := ((s.project day).planVcore).exhausted

theorem planned_kept (day : Nat) : AgeKept s (s.planned day) := ((project_kept day).trans planVcore_kept).trans exhausted_kept

theorem planned_fields (day : Nat) : WritesFields k planFields s (s.planned day) :=
  ((project_fields day).trans planVcore_fields).trans exhausted_fields

end plan

/-! ### The gauges (R467 to R469) -/

/-- The fields of a gauge. -/
def gaugeFields (g : Nat) : List Field := [F.PHM_GAUGE_S_N.nth g, F.PHM_GAUGE_S_M.nth g, F.PHM_GAUGE_T_DIE.nth g, F.PHM_GAUGE_VCORE.nth g]

section gauge
variable {g n vcore day : Nat} {tdie : Int}

/-- A gauge's registers, before its history is noted. -/
def State.gaugeRegs (s : State) (g n vcore : Nat) (tdie : Int) : State :=
  let r := s.slack g n vcore tdie
  let t := (r.2.setI (F.PHM_GAUGE_S_N.nth g) (satInt 16 r.1)).setF (F.PHM_GAUGE_S_M.nth g) (125 * n)
  let c := t.openDiv tdie 100
  let m := c.2.openDiv vcore 10
  (m.2.setI (F.PHM_GAUGE_T_DIE.nth g) c.1).setF (F.PHM_GAUGE_VCORE.nth g) m.1.toNat

theorem gaugeDone_eq : ∃ (a w : Nat) (h : Tbl (List (Nat × Int)) → Tbl (List (Nat × Int))), s.gaugeDone g n vcore tdie day =
    ((s.gaugeRegs g n vcore tdie).wr64 a w).modHlt (fun x => { x with hist := h x.hist }) := ⟨_, _, _, rfl⟩

theorem gaugeRegs_kept : AgeKept s (s.gaugeRegs g n vcore tdie) := by
  unfold State.gaugeRegs
  extract_lets r t c m
  have hr : AgeKept s r.2 := (AgeKept.refl s).openDiv _ _
  have hm : AgeKept s m.2 := ((((hr.setI _ _).setF _ _).openDiv _ _).openDiv _ _)
  exact (hm.setI _ _).setF _ _

theorem gaugeDone_kept : AgeKept s (s.gaugeDone g n vcore tdie day) := by
  obtain ⟨a, w, h, heq⟩ := gaugeDone_eq (s := s) (g := g) (n := n) (vcore := vcore) (day := day) (tdie := tdie)
  rw [heq]
  exact (gaugeRegs_kept.wr64 a w).modHlt (fun _ => rfl) (fun _ => rfl) (fun _ => rfl)

theorem gaugeDone_get (f : Field) : (s.gaugeDone g n vcore tdie day).get f = (s.gaugeRegs g n vcore tdie).get f := by
  obtain ⟨a, w, h, heq⟩ := gaugeDone_eq (s := s) (g := g) (n := n) (vcore := vcore) (day := day) (tdie := tdie)
  rw [heq, modHlt_touches.get_eq, ((Touches.refl [.mem] _).wr64 a w).get_eq]

theorem gaugeRegs_fields {k : Nat} : WritesFields k (gaugeFields g) s (s.gaugeRegs g n vcore tdie) := by
  unfold State.gaugeRegs gaugeFields
  extract_lets r t c m
  have hr : WritesFields k (gaugeFields g) s r.2 := .via (openDiv_touches.writesFields k) (.refl _ _ s)
  unfold gaugeFields at hr
  have hm : WritesFields k _ s m.2 := .via (openDiv_touches.writesFields k) (.via (openDiv_touches.writesFields k)
    (.via (t := r.2.setI (F.PHM_GAUGE_S_N.nth g) (satInt 16 r.1)) setF_writes (.via setI_writes hr)))
  exact .via setF_writes (.via setI_writes hm)

theorem gaugeRegs_slack : (s.gaugeRegs g n vcore tdie).get (F.PHM_GAUGE_S_M.nth g) = 125 * n % 2 ^ 16 := by
  unfold State.gaugeRegs
  extract_lets r t c m
  have ht : t.get (F.PHM_GAUGE_S_M.nth g) = 125 * n % 2 ^ 16 := State.get_setF_same _ _ _
  have hm : m.2.get (F.PHM_GAUGE_S_M.nth g) = t.get (F.PHM_GAUGE_S_M.nth g) :=
    (openDiv_touches.get_eq _).trans (openDiv_touches.get_eq _)
  have hvcore : (F.PHM_GAUGE_S_M.nth g).key ≠ (F.PHM_GAUGE_VCORE.nth g).key :=
    key_nth_ne (f := F.PHM_GAUGE_S_M) (g := F.PHM_GAUGE_VCORE) rfl (by decide) g
  have htdie : (F.PHM_GAUGE_S_M.nth g).key ≠ (F.PHM_GAUGE_T_DIE.nth g).key :=
    key_nth_ne (f := F.PHM_GAUGE_S_M) (g := F.PHM_GAUGE_T_DIE) rfl (by decide) g
  rw [State.get_setF_ne _ _ hvcore, State.setI, State.get_setF_ne _ _ htdie, hm, ht]

/-- A quotient that rounds is the one below or the one above, and an exact one is itself. -/
theorem openDiv_nat (a b : Nat) (hb : 0 < b) : ∃ e ≤ 1, (s.openDiv a b).1.toNat = a / b + e ∧ (a % b = 0 → e = 0) := by
  unfold State.openDiv
  rw [← Int.natCast_ediv, ← Int.natCast_emod]
  split
  · exact ⟨0, Nat.zero_le 1, Int.toNat_natCast _, fun _ => rfl⟩
  · next h =>
    have hfree : s.freeVal 1 < 2 ^ 1 := Nat.mod_lt _ (by decide)
    exact ⟨s.freeVal 1, Nat.le_of_lt_succ hfree, by rw [← Nat.cast_add]; exact Int.toNat_natCast _,
      fun h0 => absurd (congrArg Nat.cast h0) h⟩

theorem gaugeRegs_vcore : ∃ e ≤ 1, (s.gaugeRegs g n vcore tdie).get (F.PHM_GAUGE_VCORE.nth g) = (vcore / 10 + e) % 2 ^ 12 ∧
    (vcore % 10 = 0 → e = 0) := by
  unfold State.gaugeRegs
  extract_lets r t c m
  obtain ⟨e, he, hv, hexact⟩ := openDiv_nat (s := c.2) vcore 10 (by decide)
  exact ⟨e, he, (State.get_setF_same _ _ _).trans (congrArg (· % 2 ^ 12) hv), hexact⟩

end gauge

/-! ### A measurement of every gauge -/

/-- A field outside the gauges' registers. -/
def OffGauges (f : Field) : Prop := f.key < 0x5000010800 * 64 ∨ 0x5000010B00 * 64 ≤ f.key

theorem gauge_key {f : Field} {g : Nat} (h : f ∈ gaugeFields g) :
    0x5000010800 * 64 + g * 512 ≤ f.key ∧ f.key < 0x5000010800 * 64 + (g + 1) * 512 := by
  simp only [gaugeFields, List.mem_cons, List.not_mem_nil, or_false] at h
  rcases h with rfl | rfl | rfl | rfl <;> simp only [Field.key, Field.nth, F.PHM_GAUGE_S_N, F.PHM_GAUGE_S_M, F.PHM_GAUGE_T_DIE, F.PHM_GAUGE_VCORE] <;> omega

theorem key_ne_gauge {f x : Field} {g : Nat} (hf : OffGauges f) (hg : g < 96) (hx : x ∈ gaugeFields g) : f.key ≠ x.key := by
  have hkey := gauge_key hx
  unfold OffGauges at hf
  omega

theorem gauge_key_ne {f x : Field} {a b : Nat} (hab : a ≠ b) (hf : f ∈ gaugeFields a) (hx : x ∈ gaugeFields b) : f.key ≠ x.key := by
  have ha := gauge_key hf
  have hb := gauge_key hx
  omega

section measurement
variable {slacks vcore : List Nat} {tdie : List Int} {day : Nat}

/-- Every gauge measured. -/
def State.gauged (s : State) (slacks vcore : List Nat) (tdie : List Int) (day : Nat) : State :=
  forN 96 (fun s g => s.gaugeDone g (min 255 (word slacks g)) (word vcore g) (tdie.getD g 0) day) s

theorem gauged_kept : AgeKept s (s.gauged slacks vcore tdie day) :=
  forN_induction (.refl s) fun _ _ _ hu => hu.trans gaugeDone_kept

theorem gaugeDone_get_ne {g n v day : Nat} {d : Int} {f : Field} (h : ∀ x ∈ gaugeFields g, f.key ≠ x.key) :
    (s.gaugeDone g n v d day).get f = s.get f :=
  (gaugeDone_get f).trans (gaugeRegs_fields.get_eq (Nat.lt_succ_self _) h)

theorem gauged_get {f : Field} (hf : OffGauges f) : (s.gauged slacks vcore tdie day).get f = s.get f :=
  forN_induction (motive := fun u => u.get f = s.get f) rfl fun _ _ hg hu => (gaugeDone_get_ne fun _ hx => key_ne_gauge hf hg hx).trans hu

/-- What a gauge's registers show of its elements and its supply. -/
def gaugeShows (slacks vcore : List Nat) (g : Nat) (x : Nat × Nat) : Prop :=
  x.1 = 125 * min 255 (word slacks g) % 2 ^ 16 ∧ ∃ e ≤ 1, x.2 = (word vcore g / 10 + e) % 2 ^ 12 ∧ (word vcore g % 10 = 0 → e = 0)

/-- The two registers of a gauge that show them. -/
def State.gaugeRead (s : State) (g : Nat) : Nat × Nat := (s.get (F.PHM_GAUGE_S_M.nth g), s.get (F.PHM_GAUGE_VCORE.nth g))

theorem gaugesDone_show {n g : Nat} (hg : g < n) : gaugeShows slacks vcore g (State.gaugeRead
    (forN n (fun s g => s.gaugeDone g (min 255 (word slacks g)) (word vcore g) (tdie.getD g 0) day) s) g) := by
  have hother (u : State) (a b n v : Nat) (d : Int) (hba : b ≠ a) : (u.gaugeDone a n v d day).gaugeRead b = u.gaugeRead b := by
    have hslack : ∀ x ∈ gaugeFields a, (F.PHM_GAUGE_S_M.nth b).key ≠ x.key := fun x hx =>
      gauge_key_ne hba (by simp [gaugeFields]) hx
    have hvcore : ∀ x ∈ gaugeFields a, (F.PHM_GAUGE_VCORE.nth b).key ≠ x.key := fun x hx =>
      gauge_key_ne hba (by simp [gaugeFields]) hx
    exact Prod.ext (gaugeDone_get_ne hslack) (gaugeDone_get_ne hvcore)
  refine foldl_own_round (key := id) (read := State.gaugeRead) (Q := gaugeShows slacks vcore)
    (fun u a _ b _ hba => hother u a b _ _ _ hba) (fun u a _ => ?_) (by simpa using List.nodup_range) (List.mem_range.mpr hg) s
  dsimp only [id, State.gaugeRead]
  rw [gaugeDone_get, gaugeDone_get]
  exact ⟨gaugeRegs_slack, gaugeRegs_vcore⟩

theorem gauged_shows {g : Nat} (hg : g < 96) : gaugeShows slacks vcore g ((s.gauged slacks vcore tdie day).gaugeRead g) :=
  gaugesDone_show hg

/-- The measurement over: counted, and no longer running. -/
def State.measEnded (s : State) (byCmd : Bool) (day : Nat) : State :=
  (s.modHlt (fun h => { h with histN := h.histN + 1, meas := none, cmdDay := if byCmd then some day else h.cmdDay })).setF
    F.PHM_BG_STATUS_MEAS_RUNNING 0

/-- The steps that follow from a measurement, and its day. -/
def State.aged (s : State) (day : Nat) : State := ((s.planned day).ageStep).setF F.PHM_AGE_STATUS_LAST_DAY day

theorem measEnded_keeps (byCmd : Bool) : (s.measEnded byCmd day).hlt.thermal = s.hlt.thermal ∧ (s.measEnded byCmd day).slp = s.slp ∧
    (s.measEnded byCmd day).hlt.meas = none ∧ (s.measEnded byCmd day).hlt.histN = s.hlt.histN + 1 := ⟨rfl, rfl, rfl, rfl⟩

theorem measEnded_fields {k : Nat} (byCmd : Bool) : WritesFields k [F.PHM_BG_STATUS_MEAS_RUNNING] s (s.measEnded byCmd day) :=
  .via setF_writes (.via (modHlt_touches.writesFields k) (.refl _ _ s))

theorem measEnded_running (byCmd : Bool) : (s.measEnded byCmd day).get F.PHM_BG_STATUS_MEAS_RUNNING = 0 := by
  rw [State.measEnded, State.get_setF_same]
  rfl

theorem aged_kept : AgeKept s (s.aged day) := ((planned_kept day).trans ageStep_kept).setF _ _

/-- The fields that the work after the gauges writes. -/
def agedFields : List Field := F.PHM_AGE_STATUS_LAST_DAY :: (planFields ++ stepFields)

theorem aged_fields {k : Nat} : WritesFields k agedFields s (s.aged day) := by
  have hplan : WritesFields k agedFields s (s.planned day) := .via (planned_fields day) (.refl _ _ s) (by simp [agedFields])
  exact .via setF_writes (.via ageStep_fields hplan (by simp [agedFields])) (by simp [agedFields])

/-- The steps that a measurement leaves. -/
theorem aged_steps (hage : s.get F.PHM_AGE_STATUS_AGE_STEP ≤ 3) (hth : s.hlt.thermal ≤ 3) :
    s.get F.PHM_AGE_STATUS_AGE_STEP ≤ (s.aged day).get F.PHM_AGE_STATUS_AGE_STEP ∧
      (s.aged day).get F.PHM_AGE_STATUS_CORE_STEP = max s.hlt.thermal ((s.aged day).get F.PHM_AGE_STATUS_AGE_STEP) ∧
      (s.aged day).get F.PHM_AGE_STATUS_LAST_DAY = day % 2 ^ 32 := by
  have hplan : (s.planned day).get F.PHM_AGE_STATUS_AGE_STEP = s.get F.PHM_AGE_STATUS_AGE_STEP :=
    (planned_fields (k := 2 ^ 64) day).get_eq (by decide) (by decide)
  have hthermal : (s.planned day).hlt.thermal = s.hlt.thermal := (planned_kept day).thermal
  obtain ⟨hle, hcore⟩ := ageStep_steps (hplan.trans_le hage) (hthermal.trans_le hth)
  rw [hplan] at hle
  rw [hthermal] at hcore
  rw [State.aged, State.get_setF_ne _ _ (by decide), State.get_setF_ne _ _ (by decide), State.get_setF_same]
  exact ⟨hle, hcore, rfl⟩

/-- What follows a measurement of the gauges. -/
def State.measFinished (s : State) (byCmd : Bool) (day : Nat) (payload : List Nat) : State :=
  ((s.measEnded byCmd day).aged day).belfry 2 0x0001 0 payload

section finish
variable {byCmd : Bool} {payload : List Nat}

theorem measFinished_kept : AgeKept (s.measEnded byCmd day) (s.measFinished byCmd day payload) := aged_kept.belfry _ _ _ _

theorem measFinished_fields {k : Nat} :
    WritesFields k (F.PHM_BG_STATUS_MEAS_RUNNING :: agedFields) s (s.measFinished byCmd day payload) :=
  .via belfry_all (.via aged_fields (.via (measEnded_fields byCmd) (.refl _ _ s)) (by simp)) (by simp [agedFields, planFields])

theorem measFinished_running : (s.measFinished byCmd day payload).get F.PHM_BG_STATUS_MEAS_RUNNING = 0 := by
  rw [State.measFinished, (belfry_all (k := 2 ^ 64)).get_eq (by decide) (by decide),
    (aged_fields (k := 2 ^ 64)).get_eq (by decide) (by decide)]
  exact measEnded_running byCmd

theorem measFinished_gauge {f : Field} {g : Nat} (hg : g < 96) (hf : f ∈ gaugeFields g) :
    (s.measFinished byCmd day payload).get f = s.get f := by
  have hoff : ∀ x ∈ F.PHM_BG_STATUS_MEAS_RUNNING :: agedFields, OffGauges x := by
    unfold OffGauges
    decide
  exact (measFinished_fields (k := f.key + 1)).get_eq (Nat.lt_succ_self _) fun x hx => (key_ne_gauge (hoff x hx) hg hf).symm

theorem measFinished_steps (hage : s.get F.PHM_AGE_STATUS_AGE_STEP ≤ 3) (hth : s.hlt.thermal ≤ 3) :
    s.get F.PHM_AGE_STATUS_AGE_STEP ≤ (s.measFinished byCmd day payload).get F.PHM_AGE_STATUS_AGE_STEP ∧
      (s.measFinished byCmd day payload).get F.PHM_AGE_STATUS_CORE_STEP =
        max s.hlt.thermal ((s.measFinished byCmd day payload).get F.PHM_AGE_STATUS_AGE_STEP) ∧
      (s.measFinished byCmd day payload).get F.PHM_AGE_STATUS_LAST_DAY = day % 2 ^ 32 := by
  have hkeep : (s.measEnded byCmd day).get F.PHM_AGE_STATUS_AGE_STEP = s.get F.PHM_AGE_STATUS_AGE_STEP :=
    (measEnded_fields (k := 2 ^ 64) byCmd).get_eq (by decide) (by decide)
  obtain ⟨hthermal, -⟩ := measEnded_keeps (s := s) (day := day) byCmd
  have hsteps := aged_steps (day := day) (hkeep.trans_le hage) (hthermal.trans_le hth)
  rw [hkeep, hthermal] at hsteps
  rw [State.measFinished, (belfry_all (k := 2 ^ 64)).get_eq (by decide) (by decide),
    (belfry_all (k := 2 ^ 64)).get_eq (by decide) (by decide), (belfry_all (k := 2 ^ 64)).get_eq (by decide) (by decide)]
  exact hsteps

end finish

theorem exec_measurementComplete_running {byCmd : Bool} (hm : s.hlt.meas = some (byCmd, day))
    (hr : s.flag F.PHM_BG_STATUS_MEAS_RUNNING = true) : ∃ payload, exec (.measurementComplete slacks vcore tdie) s =
      .next ((s.gauged slacks vcore tdie day).measFinished byCmd day payload) := by
  rw [exec_measurementComplete, execMeasurementComplete, measurementComplete, hm]
  dsimp only
  rw [hr, if_neg (by decide)]
  exact ⟨_, rfl⟩

theorem measurementComplete_leaves {byCmd : Bool} (hm : s.hlt.meas = some (byCmd, day))
    (hr : s.flag F.PHM_BG_STATUS_MEAS_RUNNING = true) (hage : s.get F.PHM_AGE_STATUS_AGE_STEP ≤ 3) (hth : s.hlt.thermal ≤ 3) :
    ∃ t, exec (.measurementComplete slacks vcore tdie) s = .next t ∧ t.hlt.meas = none ∧ t.hlt.histN = s.hlt.histN + 1 ∧
      t.get F.PHM_BG_STATUS_MEAS_RUNNING = 0 ∧ t.get F.PHM_AGE_STATUS_LAST_DAY = day % 2 ^ 32 ∧
      (∀ g < 96, t.get (F.PHM_GAUGE_S_M.nth g) = 125 * min 255 (word slacks g) % 2 ^ 16 ∧
        ∃ e ≤ 1, t.get (F.PHM_GAUGE_VCORE.nth g) = (word vcore g / 10 + e) % 2 ^ 12 ∧ (word vcore g % 10 = 0 → e = 0)) ∧
      s.get F.PHM_AGE_STATUS_AGE_STEP ≤ t.get F.PHM_AGE_STATUS_AGE_STEP ∧ t.hlt.thermal = s.hlt.thermal ∧
      t.get F.PHM_AGE_STATUS_CORE_STEP = max s.hlt.thermal (t.get F.PHM_AGE_STATUS_AGE_STEP) ∧ t.slp = s.slp := by
  obtain ⟨payload, hexec⟩ := exec_measurementComplete_running (slacks := slacks) (vcore := vcore) (tdie := tdie) hm hr
  have hshows (g : Nat) (hg : g < 96) := gauged_shows (s := s) (slacks := slacks) (vcore := vcore) (tdie := tdie) (day := day) hg
  have hkept := gauged_kept (s := s) (slacks := slacks) (vcore := vcore) (tdie := tdie) (day := day)
  have hage' : (s.gauged slacks vcore tdie day).get F.PHM_AGE_STATUS_AGE_STEP = s.get F.PHM_AGE_STATUS_AGE_STEP :=
    gauged_get (.inl (by decide))
  generalize s.gauged slacks vcore tdie day = u at hexec hshows hkept hage'
  obtain ⟨hthermal, hslp, hnone, hcount⟩ := measEnded_keeps (s := u) (day := day) byCmd
  have hfin := measFinished_kept (s := u) (byCmd := byCmd) (day := day) (payload := payload)
  obtain ⟨hle, hcore, hday⟩ :=
    measFinished_steps (s := u) (byCmd := byCmd) (day := day) (payload := payload) (hage'.trans_le hage) (hkept.thermal.trans_le hth)
  rw [hage'] at hle
  rw [hkept.thermal] at hcore
  refine ⟨_, hexec, hfin.meas.trans hnone, hfin.histN.trans (hcount.trans (congrArg (· + 1) hkept.histN)), measFinished_running, hday,
    fun g hg => ?_, hle, hfin.thermal.trans (hthermal.trans hkept.thermal), hcore, hfin.slp.trans (hslp.trans hkept.slp)⟩
  rw [measFinished_gauge hg (f := F.PHM_GAUGE_S_M.nth g) (by simp [gaugeFields]),
    measFinished_gauge hg (f := F.PHM_GAUGE_VCORE.nth g) (by simp [gaugeFields])]
  exact hshows g hg

end measurement

/-! ### The day's end and deferred measurements (R468) -/

/-- What the DAILY record leaves of the health record: but for the quantities' sums and the number of the next record all of it. -/
structure DayKept (s t : State) : Prop where
  health : ∃ tel n, t.hlt = { s.hlt with telem := tel, hdrNext := n }
  sup : t.sup = s.sup
  tbu : t.tbu = s.tbu
  slp : t.slp = s.slp
  phase : t.get F.TMC_START_STATUS_PHASE = s.get F.TMC_START_STATUS_PHASE

theorem DayKept.of_touches {l : List StatePart} (h : Touches l s t) (hr : StatePart.regs ∉ l := by simp) (hh : StatePart.hlt ∉ l := by simp)
    (hsup : StatePart.sup ∉ l := by simp) (htbu : StatePart.tbu ∉ l := by simp) (hslp : StatePart.slp ∉ l := by simp) : DayKept s t :=
  ⟨⟨s.hlt.telem, s.hlt.hdrNext, h.hlt_eq hh⟩, h.sup_eq hsup, h.tbu_eq htbu, h.slp_eq hslp, h.get_eq _ hr⟩

theorem DayKept.trans (h : DayKept s t) (k : DayKept t u) : DayKept s u := by
  obtain ⟨tel, n, ht⟩ := h.health
  obtain ⟨tel', n', hu⟩ := k.health
  exact ⟨⟨tel', n', by rw [hu, ht]⟩, k.sup.trans h.sup, k.tbu.trans h.tbu, k.slp.trans h.slp, k.phase.trans h.phase⟩

theorem dayKept_telem (f : Tbl Telem → Tbl Telem) : DayKept s (s.modHlt (fun h => { h with telem := f h.telem })) :=
  ⟨⟨_, s.hlt.hdrNext, rfl⟩, modHlt_touches.sup_eq, modHlt_touches.tbu_eq, modHlt_touches.slp_eq, modHlt_touches.get_eq _⟩

theorem dayKept_belfry (kind code source : Nat) (payload : List Nat) : DayKept s (s.belfry kind code source payload) := by
  obtain ⟨n, hn⟩ := belfry_hlt s kind code source payload
  exact ⟨⟨s.hlt.telem, n, hn⟩, belfry_touches.sup_eq, belfry_touches.tbu_eq, belfry_touches.slp_eq,
    (belfry_all (k := 2 ^ 64)).get_eq (by decide) (by decide)⟩

theorem dailyRecord_kept (s : State) : DayKept s s.dailyRecord := by
  unfold State.dailyRecord
  extract_lets r
  have hr : DayKept s r.2 :=
    List.foldlRecOn (List.range 12) _ (motive := fun a : List Nat × State => DayKept s a.2) (.of_touches (.refl [] s)) fun a ha q _ => by
      dsimp only
      exact (ha.trans (.of_touches openDiv_touches)).trans (dayKept_telem _)
  exact hr.trans (dayKept_belfry _ _ _ _)

theorem DayKept.background (h : DayKept s t) : t.background = s.background := by
  rw [State.background, h.sup, h.phase]
  rfl

theorem DayKept.now (h : DayKept s t) : t.now = s.now := by
  rw [State.now, h.tbu]
  rfl

/-- The day noted as done. -/
def State.dayNoted (s : State) (day : Nat) : State := s.modHlt (fun h => { h with dayDone := day })

theorem operatingDayEnd_early (h : s.get F.PHM_KEEP_CNT_OP_SEC / 86400 ≤ s.hlt.dayDone) : exec .operatingDayEnd s = .next s := by
  rw [exec_operatingDayEnd, execOperatingDayEnd, operatingDayEnd, if_pos h]

theorem exec_operatingDayEnd_new (h : s.hlt.dayDone < s.get F.PHM_KEEP_CNT_OP_SEC / 86400) {t : State}
    (ht : (s.dayNoted (s.get F.PHM_KEEP_CNT_OP_SEC / 86400)).dailyRecord = t) : exec .operatingDayEnd s =
      .next (if t.hlt.cmdDay = some (s.get F.PHM_KEEP_CNT_OP_SEC / 86400 - 1) ∨ t.hlt.meas ≠ none then t
        else t.startMeasure false (s.get F.PHM_KEEP_CNT_OP_SEC / 86400 - 1)) := by
  rw [exec_operatingDayEnd, execOperatingDayEnd, operatingDayEnd, if_neg (by omega)]
  extract_lets u
  have hu : u = t := ht
  rw [hu]

section start
variable {byCmd : Bool} {day : Nat}

/-- A measurement asked for. -/
def State.measAsked (s : State) (byCmd : Bool) (day : Nat) : State := s.modHlt (fun h => { h with meas := some (byCmd, day) })

/-- A measurement that waits. -/
def State.measWaits (s : State) (at_ : Time) : State := s.modHlt (fun h => { h with measDue := some at_ })

theorem startMeasure_eq (s : State) (byCmd : Bool) (day : Nat) : s.startMeasure byCmd day =
    if (s.measAsked byCmd day).sup.mode = .rideThrough then ((s.measAsked byCmd day).measWaits 0).phmBump 6
    else if !(s.measAsked byCmd day).background then (s.measAsked byCmd day).measWaits (max 1 (s.measAsked byCmd day).now)
    else (s.measAsked byCmd day).setF F.PHM_BG_STATUS_MEAS_RUNNING 1 := rfl

theorem measAsked_background : (s.measAsked byCmd day).background = s.background := rfl

theorem startMeasure_ride (h : s.sup.mode = .rideThrough) : s.startMeasure byCmd day = ((s.measAsked byCmd day).measWaits 0).phmBump 6 := by
  rw [startMeasure_eq]
  exact if_pos h

theorem startMeasure_waits (hmode : s.sup.mode ≠ .rideThrough) (hb : s.background = false) :
    s.startMeasure byCmd day = (s.measAsked byCmd day).measWaits (max 1 s.now) := by
  rw [startMeasure_eq, measAsked_background, hb]
  exact if_neg hmode

theorem startMeasure_runs (hb : s.background = true) :
    s.startMeasure byCmd day = (s.measAsked byCmd day).setF F.PHM_BG_STATUS_MEAS_RUNNING 1 := by
  have hmode : s.sup.mode ≠ .rideThrough := fun h => by
    rw [State.background, h] at hb
    exact Bool.false_ne_true hb
  rw [startMeasure_eq, measAsked_background, hb]
  exact if_neg hmode

theorem measAsked_touches : Touches [.hlt] s (s.measAsked byCmd day) := modHlt_touches

theorem measWaits_touches (at_ : Time) : Touches [.hlt] s (s.measWaits at_) := modHlt_touches

/-- A measurement started, or waiting for the end of start-up or of ride-through. -/
theorem startMeasure_leaves (s : State) (byCmd : Bool) (day : Nat) :
    (s.startMeasure byCmd day).hlt.meas = some (byCmd, day) ∧ (s.startMeasure byCmd day).hlt.dayDone = s.hlt.dayDone ∧
      (s.startMeasure byCmd day).slp = s.slp ∧
      (s.background = true → (s.startMeasure byCmd day).get F.PHM_BG_STATUS_MEAS_RUNNING = 1) ∧
      (s.background = false → s.sup.mode ≠ .rideThrough → (s.startMeasure byCmd day).hlt.measDue = some (max 1 s.now)) ∧
      (s.sup.mode = .rideThrough → (s.startMeasure byCmd day).hlt.measDue = some 0) := by
  by_cases hmode : s.sup.mode = .rideThrough
  · have hbump : Touches [.regs] ((s.measAsked byCmd day).measWaits 0) (((s.measAsked byCmd day).measWaits 0).phmBump 6) :=
      (Touches.refl _ _).bump _
    have hb : s.background = false := by
      rw [State.background, hmode]
      rfl
    rw [startMeasure_ride hmode, hbump.hlt_eq, hbump.slp_eq, hb]
    exact ⟨rfl, rfl, rfl, nofun, fun _ h => absurd hmode h, fun _ => rfl⟩
  · cases hb : s.background with
    | false =>
      rw [startMeasure_waits hmode hb]
      exact ⟨rfl, rfl, rfl, nofun, fun _ _ => rfl, fun h => absurd h hmode⟩
    | true =>
      have hset : Touches [.regs] (s.measAsked byCmd day) ((s.measAsked byCmd day).setF F.PHM_BG_STATUS_MEAS_RUNNING 1) :=
        (Touches.refl _ _).setF _ _
      rw [startMeasure_runs hb, hset.hlt_eq, hset.slp_eq]
      exact ⟨rfl, rfl, rfl, fun _ => State.get_setF_same _ _ _, nofun, fun h => absurd h hmode⟩

end start

/-- The day's record made, with nothing else of the health record changed. -/
theorem dayRecorded_health (s : State) (day : Nat) : (s.dayNoted day).dailyRecord.hlt.dayDone = day ∧
    (s.dayNoted day).dailyRecord.hlt.cmdDay = s.hlt.cmdDay ∧ (s.dayNoted day).dailyRecord.hlt.meas = s.hlt.meas := by
  obtain ⟨tel, n, hhealth⟩ := (dailyRecord_kept (s.dayNoted day)).health
  rw [hhealth]
  exact ⟨rfl, rfl, rfl⟩

theorem operatingDayEnd_measures (hday : s.hlt.dayDone < s.get F.PHM_KEEP_CNT_OP_SEC / 86400) (hmeas : s.hlt.meas = none) :
    ∃ t, exec .operatingDayEnd s = .next t ∧ t.hlt.dayDone = s.get F.PHM_KEEP_CNT_OP_SEC / 86400 ∧ t.slp = s.slp ∧
      (s.hlt.cmdDay = some (s.get F.PHM_KEEP_CNT_OP_SEC / 86400 - 1) → t.hlt.meas = none) ∧
      (s.hlt.cmdDay ≠ some (s.get F.PHM_KEEP_CNT_OP_SEC / 86400 - 1) →
        t.hlt.meas = some (false, s.get F.PHM_KEEP_CNT_OP_SEC / 86400 - 1) ∧
        (s.background = true → t.get F.PHM_BG_STATUS_MEAS_RUNNING = 1) ∧
        (s.background = false → s.sup.mode ≠ .rideThrough → t.hlt.measDue = some (max 1 s.now)) ∧
        (s.sup.mode = .rideThrough → t.hlt.measDue = some 0)) := by
  have hnoted : Touches [.hlt] s (s.dayNoted (s.get F.PHM_KEEP_CNT_OP_SEC / 86400)) := modHlt_touches
  have hkept := dailyRecord_kept (s.dayNoted (s.get F.PHM_KEEP_CNT_OP_SEC / 86400))
  obtain ⟨hdone, hcmd, hnone⟩ := dayRecorded_health s (s.get F.PHM_KEEP_CNT_OP_SEC / 86400)
  have hexec := exec_operatingDayEnd_new hday rfl
  have hback : (s.dayNoted (s.get F.PHM_KEEP_CNT_OP_SEC / 86400)).background = s.background := rfl
  have hslp := hkept.slp.trans hnoted.slp_eq
  have hbackground := hkept.background.trans hback
  have hnow := hkept.now.trans hnoted.now_eq
  have hsup := hkept.sup.trans hnoted.sup_eq
  clear hkept
  generalize (s.dayNoted (s.get F.PHM_KEEP_CNT_OP_SEC / 86400)).dailyRecord = u at *
  rw [hcmd, hnone, hmeas] at hexec
  by_cases hmade : s.hlt.cmdDay = some (s.get F.PHM_KEEP_CNT_OP_SEC / 86400 - 1)
  · rw [if_pos (.inl hmade)] at hexec
    exact ⟨u, hexec, hdone, hslp, fun _ => hnone.trans hmeas, fun h => absurd hmade h⟩
  · rw [if_neg (not_or.mpr ⟨hmade, not_not.mpr rfl⟩)] at hexec
    obtain ⟨hstarted, hdone', hslp', hruns, hwaits, hride⟩ := startMeasure_leaves u false (s.get F.PHM_KEEP_CNT_OP_SEC / 86400 - 1)
    rw [hbackground, hsup, hnow] at hwaits
    rw [hbackground] at hruns
    rw [hsup] at hride
    exact ⟨_, hexec, hdone'.trans hdone, hslp'.trans hslp, fun h => absurd h hmade, fun _ => ⟨hstarted, hruns, hwaits, hride⟩⟩

/-- A measurement that was deferred, at its time. -/
theorem deferredMeasurement_runs {t : Time} (hdue : s.hlt.measDue = some t) (ht : t ≠ 0) (hb : s.background = true) :
    exec .deferredMeasurement s =
      .next (({ s.advanceTo t with hlt := { s.hlt with measDue := none } }).setF F.PHM_BG_STATUS_MEAS_RUNNING 1) := by
  rw [exec_deferredMeasurement, execDeferredMeasurement, deferredMeasurement, hdue]
  dsimp only
  rw [if_neg (by simp [ht, hb])]
  rfl

/-! ### The thermal step (R472) -/

section thermal
variable {mean : Int}

theorem thermalStep_stays (h : thermalOf mean ≤ s.hlt.thermal) : exec (.thermalStep mean) s = .next s := by
  rw [exec_thermalStep, execThermalStep, thermalStep, if_neg (by omega)]

theorem thermalOf_le (mean : Int) : thermalOf mean ≤ 3 := by
  unfold thermalOf
  split_ifs <;> decide

/-- A thermal step taken, with no cooling under way. -/
def State.thermalAt (s : State) (n : Nat) : State := s.modHlt (fun h => { h with thermal := n, coolFrom := none })

theorem thermalAt_touches (n : Nat) : Touches [.hlt] s (s.thermalAt n) := modHlt_touches

/-- The core step after a new thermal one. -/
theorem thermalAt_coreStep {n : Nat} (hn : n ≤ 3) (hage : s.get F.PHM_AGE_STATUS_AGE_STEP ≤ 3) :
    ((s.thermalAt n).coreStep 0).hlt.thermal = n ∧
      ((s.thermalAt n).coreStep 0).get F.PHM_AGE_STATUS_CORE_STEP = max n (s.get F.PHM_AGE_STATUS_AGE_STEP) ∧
      ((s.thermalAt n).coreStep 0).slp = s.slp ∧ s.now ≤ ((s.thermalAt n).coreStep 0).now := by
  have hget : (s.thermalAt n).get F.PHM_AGE_STATUS_AGE_STEP = s.get F.PHM_AGE_STATUS_AGE_STEP := (thermalAt_touches n).get_eq _
  have hkept : AgeKept (s.thermalAt n) ((s.thermalAt n).coreStep 0) := coreStep_kept 0
  have hstep := coreStep_step (s := s.thermalAt n) 0 hn (hget.trans_le hage)
  rw [hget] at hstep
  exact ⟨hkept.thermal, hstep, hkept.slp.trans (thermalAt_touches n).slp_eq,
    (thermalAt_touches n).now_eq.symm.trans_le (coreStep_now_le 0)⟩

theorem thermalStep_rises (h : s.hlt.thermal < thermalOf mean) (hage : s.get F.PHM_AGE_STATUS_AGE_STEP ≤ 3) :
    ∃ t, exec (.thermalStep mean) s = .next t ∧ t.hlt.thermal = thermalOf mean ∧
      t.get F.PHM_AGE_STATUS_CORE_STEP = max (thermalOf mean) (s.get F.PHM_AGE_STATUS_AGE_STEP) ∧ t.slp = s.slp := by
  have hexec : exec (.thermalStep mean) s = .next ((s.thermalAt (thermalOf mean)).coreStep 0) := by
    rw [exec_thermalStep, execThermalStep, thermalStep, if_pos h]
    rfl
  obtain ⟨hthermal, hcore, hslp, -⟩ := thermalAt_coreStep (thermalOf_le mean) hage
  exact ⟨_, hexec, hthermal, hcore, hslp⟩

theorem now_advanceTo (s : State) (t : Time) : s.now ≤ (s.advanceTo t).now ∧ t ≤ (s.advanceTo t).now :=
  ⟨Nat.div_le_div_right (le_max_left _ _), (Nat.le_div_iff_mul_le (by decide)).mpr (le_max_right _ _)⟩

theorem thermalStepDown_falls {t : Time} (hcool : s.hlt.coolFrom = some t) (hne : s.hlt.thermal ≠ 0) (hth : s.hlt.thermal ≤ 3)
    (hmean : mean ≤ 7000 + 500 * s.hlt.thermal - 300) (hage : s.get F.PHM_AGE_STATUS_AGE_STEP ≤ 3) :
    ∃ u, exec (.thermalStepDown mean) s = .next u ∧ u.hlt.thermal = s.hlt.thermal - 1 ∧ s.now ≤ u.now ∧ t + secs 10 ≤ u.now ∧
      u.get F.PHM_AGE_STATUS_CORE_STEP = max (s.hlt.thermal - 1) (s.get F.PHM_AGE_STATUS_AGE_STEP) ∧ u.slp = s.slp := by
  have hexec : exec (.thermalStepDown mean) s = .next (((s.advanceTo (t + secs 10)).thermalAt (s.hlt.thermal - 1)).coreStep 0) := by
    rw [exec_thermalStepDown, execThermalStepDown, thermalStepDown, hcool]
    dsimp only
    rw [if_neg (not_or.mpr ⟨hne, by omega⟩)]
    rfl
  have hage' : (s.advanceTo (t + secs 10)).get F.PHM_AGE_STATUS_AGE_STEP ≤ 3 := hage
  obtain ⟨hthermal, hcore, hslp, hnow⟩ := thermalAt_coreStep (n := s.hlt.thermal - 1) (by omega) hage'
  obtain ⟨hfrom, hto⟩ := now_advanceTo s (t + secs 10)
  exact ⟨_, hexec, hthermal, hfrom.trans hnow, hto.trans hnow, hcore, hslp⟩

end thermal

/-- Settles O59: the rows of the background work, each with its guard, and those of ageing, each with what its operations keep. -/
theorem healthWorkAndAgeingFollowTheirRows : Obligations.HealthWorkAndAgeingFollowTheirRows := by
  refine ⟨fun s => ⟨fun hb i hi => background_rests hb hi, fun hb => ⟨fun mem a ha => ⟨scrubPass_word hb ha, scrubPass_clean_end hb ha⟩,
    fun mem a f hf ha => (scrubPass_word hb ha).trans (congrArg _ (scrubWord_corrected hf)),
    fun mem a hm ha => ⟨_, scrubPass_word hb ha, scrubWord_poisons hm⟩,
    fun a ha => ⟨_, scrubPass_word hb (decide_eq_true ha), scrubWord_prog s a⟩,
    fun b c failed hin hret hok => ⟨flashRefresh_retires hb hin hret hok, ?_, ?_⟩, telemetrySample_leaves hb, histogramUpdate_leaves hb⟩,
    belfryMirror_due, belfryMirror_early⟩,
    fun s => ⟨?_, fun t => deferredMeasurement_runs, fun slacks vcore tdie byCmd day => measurementComplete_leaves, fun mean hage => ?_⟩⟩
  · rintro rfl hc hc'
    exact flashRefresh_rewrites hb hin hret hok hc hc'
  · rintro rfl hc
    exact flashRefresh_nothing hb hin hret hok hc
  · exact ⟨operatingDayEnd_early, operatingDayEnd_measures⟩
  · exact ⟨thermalStep_stays, fun h => thermalStep_rises h hage, fun t hcool hne hth hmean => thermalStepDown_falls hcool hne hth hmean hage⟩

end Sys2Proof.Machine
end

section
/-! O60: the end of a running long command. -/
namespace Sys2Proof.Machine

-- one proof after the other: started together they wait on each other's results, each in a thread of its own
set_option Elab.async false

variable {s : State} {g : Nat} {j : Job}

/-! ### The end of a command by what its work is (R452) -/

/-- The parameters of a COMPLETION: the detail of a status that is not OK. -/
def endDetail (st page check item : Nat) : Octets := if st = stOk then [] else detail page check item

section exec
variable (hj : s.tmc.jobs.find? (fun j => j.group == g) = some j)
include hj

theorem exec_longCommand_ends {st page check item : Nat} {t : State} (h : s.jobEnd j = some ((st, page, check, item), t)) :
    exec (.longCommandCompletion ⟨g, false⟩) s = .next (t.complete j st (endDetail st page check item)) := by
  rw [exec_longCommandCompletion, execLongCommandCompletion, longCommandCompletion, hj]
  dsimp only
  rw [if_neg (by decide), h]
  rfl

theorem exec_longCommand_waits (h : s.jobEnd j = none) :
    exec (.longCommandCompletion ⟨g, false⟩) s = .next (if j.op = 0x0110 then s.flashWrite else s) := by
  rw [exec_longCommandCompletion, execLongCommandCompletion, longCommandCompletion, hj]
  dsimp only
  rw [if_neg (by decide), h]

theorem exec_longCommand_internal : exec (.longCommandCompletion ⟨g, true⟩) s =
    .next ((s.jobBroken j).complete j stInternal (detail (groupPage j.group) 0 0)) := by
  rw [exec_longCommandCompletion, execLongCommandCompletion, longCommandCompletion, hj]
  rfl

end exec

theorem jobEnd_stage (hop : j.op = 0x0110) : s.jobEnd j = if s.stageWaits then none else
    some ((s.stageEnd.1.1, s.stageEnd.1.2.1, failCheck s.stageEnd.1.2.1 s.stageEnd.1.1, s.stageEnd.1.2.2), s.stageEnd.2) := by
  unfold State.jobEnd
  rw [if_pos hop]

theorem jobEnd_commit_early (hop : j.op = 0x0112) (hp : s.get F.TMC_START_STATUS_PHASE < 4) : s.jobEnd j = none := by
  unfold State.jobEnd
  rw [if_neg (by omega), if_pos ⟨hop, hp⟩]

theorem jobEnd_commit (hop : j.op = 0x0112) (hp : 4 ≤ s.get F.TMC_START_STATUS_PHASE) : s.jobEnd j =
    some ((s.commitEnd.1.1, s.commitEnd.1.2.1, failCheck s.commitEnd.1.2.1 s.commitEnd.1.1, s.commitEnd.1.2.2), s.commitEnd.2) := by
  unfold State.jobEnd
  rw [if_neg (by omega), if_neg (by omega), if_pos hop]

/-- An operation other than those on bundles. -/
theorem jobEnd_other (h1 : j.op ≠ 0x0110) (h2 : j.op ≠ 0x0112) : s.jobEnd j =
    if j.op = 0x0205 then
      (if s.sliceState j.obj = 3 then none else some ((if s.sliceState j.obj = 5 then stAborted else stOk, 0x03, 0, j.obj), s))
    else if j.op = 0x0607 then some ((s.loadEnd.1.1, 0x0A, s.loadEnd.1.2.1, s.loadEnd.1.2.2), s.loadEnd.2)
    else if j.op = 0x0807 then some ((s.exportEnd.1, 0x0C, 0, 0), s.exportEnd.2)
    else if j.op = 0x0A03 ∨ j.op = 0x0A04 then (s.safetyEnd j.op).map (fun st => ((st, 0x10, 0, j.obj), s))
    else if j.op = 0x0B0E then
      s.dom.openStatus.map (fun st => ((st, 0x12, 0, 0), { s with dom := { s.dom with openStatus := none } }))
    else if s.hlt.meas.isSome then none else some ((stOk, 0x01, 0, 0), s) := by
  unfold State.jobEnd
  rw [if_neg h1, if_neg (fun h => h2 h.1), if_neg h2]

theorem jobEnd_slice (hop : j.op = 0x0205) : s.jobEnd j = if s.sliceState j.obj = 3 then none
    else some ((if s.sliceState j.obj = 5 then stAborted else stOk, 0x03, 0, j.obj), s) := by
  rw [jobEnd_other (by omega) (by omega), if_pos hop]

theorem jobEnd_load (hop : j.op = 0x0607) :
    s.jobEnd j = some ((s.loadEnd.1.1, 0x0A, s.loadEnd.1.2.1, s.loadEnd.1.2.2), s.loadEnd.2) := by
  rw [jobEnd_other (by omega) (by omega), if_neg (by omega), if_pos hop]

theorem jobEnd_export (hop : j.op = 0x0807) : s.jobEnd j = some ((s.exportEnd.1, 0x0C, 0, 0), s.exportEnd.2) := by
  rw [jobEnd_other (by omega) (by omega), if_neg (by omega), if_neg (by omega), if_pos hop]

theorem jobEnd_safety (hop : j.op = 0x0A03 ∨ j.op = 0x0A04) :
    s.jobEnd j = (s.safetyEnd j.op).map (fun st => ((st, 0x10, 0, j.obj), s)) := by
  rw [jobEnd_other (by omega) (by omega), if_neg (by omega), if_neg (by omega), if_neg (by omega), if_pos hop]

theorem jobEnd_debug (hop : j.op = 0x0B0E) : s.jobEnd j =
    s.dom.openStatus.map (fun st => ((st, 0x12, 0, 0), { s with dom := { s.dom with openStatus := none } })) := by
  rw [jobEnd_other (by omega) (by omega), if_neg (by omega), if_neg (by omega), if_neg (by omega), if_neg (by omega), if_pos hop]

theorem jobEnd_measure (hop : j.op = 0x0C04) :
    s.jobEnd j = if s.hlt.meas.isSome then none else some ((stOk, 0x01, 0, 0), s) := by
  rw [jobEnd_other (by omega) (by omega), if_neg (by omega), if_neg (by omega), if_neg (by omega), if_neg (by omega), if_neg (by omega)]

/-- A completed command leaves the table of running ones, and no other does. -/
theorem complete_jobs {u : State} {st : Nat} {p : Octets} {k : Job} (hk : k ∈ (u.complete j st p).tmc.jobs) :
    k.group ≠ j.group ∧ k ∈ u.tmc.jobs := by
  rw [State.complete, State.answer_jobs] at hk
  obtain ⟨hmem, hgroup⟩ := List.mem_filter.mp hk
  exact ⟨by simpa using hgroup, hmem⟩

/-- Settles O60: the end of each operation, as its work stands. -/
theorem longCommandsCompleteOnce : Obligations.LongCommandsCompleteOnce := by
  intro s g j hj
  intro ends waits
  have hends {st page check item : Nat} {t : State} (h : s.jobEnd j = some ((st, page, check, item), t)) : ends st page check item t :=
    exec_longCommand_ends hj h
  have hwaits (hop : j.op ≠ 0x0110) (h : s.jobEnd j = none) : waits :=
    (exec_longCommand_waits hj h).trans (congrArg _ (if_neg hop))
  have hok {page check item : Nat} {t : State} (h : s.jobEnd j = some ((stOk, page, check, item), t)) : ends stOk 0 0 0 t :=
    (exec_longCommand_ends hj h).trans (congrArg (fun params => Host.Outcome.next (t.complete j stOk params)) (if_pos rfl))
  refine ⟨fun hop h3 => hwaits (by omega) ?_, fun hop h4 => ?_, fun hop h5 => ?_, fun hop hm => hwaits (by omega) ?_, fun hop hm => ?_,
    fun st hop hst => ?_, fun hop hw => ?_, fun st page item t hop hw ht => ?_, fun hop hp => hwaits (by omega) (jobEnd_commit_early hop hp),
    fun st page item t hop hp ht => ?_, fun st check item t hop ht => ?_, fun st t hop ht => ?_,
    fun hop => ⟨fun hnone => hwaits (by omega) ?_, fun st hst => ?_⟩, ⟨_, exec_longCommand_internal hj⟩, fun u st p k hk => complete_jobs hk⟩
  · rw [jobEnd_slice hop, if_pos h3]
  · exact hok (by rw [jobEnd_slice hop, h4]; rfl)
  · exact hends (by rw [jobEnd_slice hop, h5]; rfl)
  · rw [jobEnd_measure hop, if_pos (Option.isSome_iff_ne_none.mpr hm)]
  · exact hok (by rw [jobEnd_measure hop, hm]; rfl)
  · exact hends (by rw [jobEnd_debug hop, hst]; rfl)
  · rw [exec_longCommand_waits hj (by rw [jobEnd_stage hop, if_pos hw]), if_pos hop]
  · exact hends (by rw [jobEnd_stage hop, hw, ht]; rfl)
  · exact hends (by rw [jobEnd_commit hop hp, ht])
  · exact hends (by rw [jobEnd_load hop, ht])
  · exact hends (by rw [jobEnd_export hop, ht])
  · rw [jobEnd_safety hop, hnone]; rfl
  · exact hends (by rw [jobEnd_safety hop, hst]; rfl)

end Sys2Proof.Machine
end
